-- ==== Sys2Proof/Word.lean ====
section
/-! DEFINITION. The byte and word types of the ZV-OM4096 and the byte strings it exchanges
(00_scope.md R10, R11). -/

namespace Sys2Proof

/-- One byte. -/
abbrev Byte := BitVec 8

/-- A byte string, lowest address first (R11). -/
abbrev Bytes := List (BitVec 8)

/-- A core number n of R21, 0 to 4,095. -/
abbrev CoreId := BitVec 12

/-- A cluster number of R21, 0 to 63. -/
abbrev ClusterId := BitVec 6

/-- A queue number of R354. -/
abbrev QueueId := BitVec 8

/-- A fabric port, and its Fabric Interface, 0 to 15. -/
abbrev FabPort := BitVec 4

/-- A place in which a stream runs: 0 to 15 for RUN_STREAM (R375), 256 + n for the block of service n (R393). -/
abbrev StreamId := BitVec 9

/-- The 24-bit phase number of R374. -/
abbrev PhaseNo := BitVec 24

end Sys2Proof
end

