-- ==== Sys2Proof/Syntax.lean ====
section
/-! DEFINITION. The commands of the ZV-OM4096 block: one constructor of Instr for each row of
spec/opcode_table.json, and the operand types they carry. -/

namespace Sys2Proof

/-- A host port, A or B (R476). -/
inductive HPort where
  | a
  | b
  deriving DecidableEq, Repr

/-- What a read of one 64-byte line of a host window brings back over PCIe: the line's local address in
the host-window range and its bytes; none where the read fails. For a line of module DRAM it says that the read meets an
error (R329): one that the controller corrects, or, with no bytes, an uncorrectable one. -/
structure HostLine where
  addr : Nat
  data : Option Bytes
  deriving DecidableEq, Repr

/-- Where an op descriptor runs: the op list of a core, or the I/O list of a phase of a stream (R388). -/
inductive OpLoc where
  | core (core : CoreId)
  | io (stream : StreamId) (phase : PhaseNo)
  deriving DecidableEq, Repr

/-- An op descriptor's place, with the host-window lines that the op reads as it starts. -/
structure OpLines where
  loc : OpLoc
  host : List HostLine
  deriving DecidableEq, Repr

/-- A packet that lands data, and whether PCIe takes no posted write as it arrives (R424). -/
structure SinkPacket where
  bytes : Bytes
  stalled : Bool
  deriving DecidableEq, Repr

/-- The unit that runs an op: the core's own units (R152, R389), or the index of an op in its I/O list. -/
inductive OpUnit where
  | lpa
  | ve
  | coe
  | dma
  | ccm
  | io (index : BitVec 10)
  deriving DecidableEq, Repr

/-- Who asks for a cadence point (R33, R544). -/
inductive PointOrigin where
  | firmware
  | ceiling
  deriving DecidableEq, Repr

/-- What a scrub read finds at its line (R329, R330). -/
inductive ScrubResult where
  | clean
  | corrected
  | uncorrected
  deriving DecidableEq, Repr

/-- Why a fabric port drops (R411). -/
inductive DropCause where
  | light
  | lock
  | markers
  | header
  | codeword
  | peer
  deriving DecidableEq, Repr

/-- How a port lost its link, and what has come in of a packet whose tail has not, nothing where there is none (R437). -/
structure LinkLoss where
  cause : DropCause
  cut : Bytes
  deriving DecidableEq, Repr

/-- The management bindings of R487. -/
inductive MctpBinding where
  | smbus
  | i3c
  | vdmA
  | vdmB
  deriving DecidableEq, Repr

/-- What self-test finds (R580): the failed cores of clusters as bitmaps, the clusters of which a shared block failed, and the
compute dies that fail to leave reset. -/
structure SelftestResult where
  cores : List (Nat × BitVec 64)
  clusters : List (BitVec 6)
  dies : List (BitVec 2)
  deriving DecidableEq, Repr

/-- Why the Night Assistant restarts the Control Cluster (R593). -/
inductive WatchdogCause where
  | expired
  | memory
  deriving DecidableEq, Repr

/-- The memory BARs of a port that hold registers (R478). -/
inductive HostBar where
  | bar0
  | bar2
  deriving DecidableEq, Repr

/-- What a request on the service connector asks for (R514, R515). -/
inductive ServiceRead where
  | serial
  | flags
  | challenge
  deriving DecidableEq, Repr

/-- A limiter that firmware releases (R553). -/
inductive HeldLimiter where
  | fastPower
  | overcurrent
  deriving DecidableEq, Repr

/-- What fails in the field (R46): a part of one core, or a block that a cluster shares. -/
inductive FailedUnit where
  | core (core : CoreId)
  | cluster (cluster : ClusterId)
  deriving DecidableEq, Repr

/-- What the SPD of an MRDIMM says (R324). -/
structure Dimm where
  capGb : Nat
  rateMts : Nat
  x4 : Bool
  deriving DecidableEq, Repr

/-- The fields of configuration space that change the module's state (R476, R478, R485): one dword of a base address
register is a field too. -/
inductive CfgField where
  | powerState
  | linkControl
  | deviceControl
  | deviceControl2
  | bar (index : Fin 6)
  deriving DecidableEq, Repr

/-- One packet of an MCTP message (R488): its start and end flags, packet sequence number, tag with its owner bit, and
its payload. -/
structure MctpPacket where
  som : Bool
  eom : Bool
  seq : BitVec 2
  owner : Bool
  tag : BitVec 3
  body : Bytes
  deriving DecidableEq, Repr

/-- A command of the block: one constructor for each row of spec/opcode_table.json. -/
inductive Instr where
  /-- CADENCE_TICK (R27): A cadence tick grants each LPA, VE lane, store port and op sequencer one issue slot. -/
  | cadenceTick (slips : List (Nat × Nat))
  /-- GUARD_STEP_DOWN (R32): A replica monitor below 1.02 times cadence, or slips above 1 % over 10 µs in a cluster, steps the sequencer down one point without firmware. -/
  | guardStepDown (cluster : ClusterId) (rateMhz : Nat) (bySlips : Bool)
  /-- POINT_REQUEST (R544): Firmware or a changed ceiling requests a target point, which the sequencer reaches in one ordered change or refuses. -/
  | pointRequest (target : BitVec 3) (origin : PointOrigin)
  /-- RAIL_SETTLED (R546): After an upward rail slew settles, the sequencer reads the replica monitors and either moves the cadence up or falls back to the old point. -/
  | railSettled (rates : List Nat)
  /-- CORE_NO_PROGRESS (R46): An op sequencer that makes no progress for 2^20 counted ticks causes firmware to mark its core unavailable. -/
  | coreNoProgress (core : CoreId)
  /-- LPA_MATMUL (R127): A standalone LPA op is checked and then streams its row blocks and K tiles through the arrays. -/
  | lpaMatmul (core : CoreId)
  /-- CO_RESIDENT_GROUP (R138): Two to four consecutive LPA descriptors are checked and started as one op that shares the activation stream. -/
  | coResidentGroup (core : CoreId)
  /-- WEIGHT_TILE_READY (R131): A weight tile that an array waited for finishes loading, and the array resumes its pass steps. -/
  | weightTileReady (core : CoreId) (array : BitVec 2)
  /-- ROW_BLOCK_DONE (R149): The arrays finish a row block, and the Plate Queue reserves one entry for each plate of the block. -/
  | rowBlockDone (core : CoreId)
  /-- PLATE_HOLD_RELEASE (R151): A freed Plate Queue entry lets a holding OCS write its plate, which frees its bank and restarts a holding array. -/
  | plateHoldRelease (core : CoreId)
  /-- PLATE_VISIBLE (R149): A filled plate entry becomes visible to the VE, and a waiting kind-2 LDS takes it. -/
  | plateVisible (core : CoreId)
  /-- PQ_STALL (R153): A Plate Queue full for the stall limit with no reading VE op ends the LPA op with PQ_STALL. -/
  | pqStall (core : CoreId)
  /-- BLINK_SAMPLE (R211): Blink recomputes a selected plate from its shadows and computes its relative error. -/
  | blinkSample (cluster : ClusterId) (host : List HostLine)
  /-- COE_STAGE (R199): The Coelostat rotates, transposes and converts a source matrix into the stores of the named cores. -/
  | coeStage (core : CoreId) (host : List HostLine)
  /-- VE_RUN (R233): A lane program runs on the VE for the given number of iterations. -/
  | veRun (core : CoreId)
  /-- VE_SOLVE (R256): A batch of small Cholesky or LU solves runs, one matrix per lane. -/
  | veSolve (core : CoreId)
  /-- VE_NOP (R228): Micro-op that does nothing. -/
  | veNop (core : CoreId) (d a b mod : BitVec 6)
  /-- MOV (R228): Micro-op that copies a lane register. -/
  | mov (core : CoreId) (d a b mod : BitVec 6)
  /-- CNS (R228): Micro-op that writes a constant pool entry to all lanes. -/
  | cns (core : CoreId) (d a b mod : BitVec 6)
  /-- LID (R228): Micro-op that writes the lane index or iteration. -/
  | lid (core : CoreId) (d a b mod : BitVec 6)
  /-- LDS (R237): Micro-op that reads the next vector of an input stream. -/
  | lds (core : CoreId) (d a b mod : BitVec 6)
  /-- STS (R238): Micro-op that writes a vector to an output stream with conversion. -/
  | sts (core : CoreId) (d a b mod : BitVec 6)
  /-- GTH (R244): Micro-op that gathers an element per lane through a gather entry. -/
  | gth (core : CoreId) (d a b mod : BitVec 6)
  /-- SCT (R245): Micro-op that scatters an element per lane through a gather entry. -/
  | sct (core : CoreId) (d a b mod : BitVec 6)
  /-- SCA (R245): Micro-op that scatters with add or max into a gather entry. -/
  | sca (core : CoreId) (d a b mod : BitVec 6)
  /-- FADD (R230): Micro-op binary32 or packed addition. -/
  | fadd (core : CoreId) (d a b mod : BitVec 6)
  /-- FSUB (R230): Micro-op binary32 or packed subtraction. -/
  | fsub (core : CoreId) (d a b mod : BitVec 6)
  /-- FMUL (R230): Micro-op binary32 or packed multiplication. -/
  | fmul (core : CoreId) (d a b mod : BitVec 6)
  /-- FFMA (R230): Micro-op fused multiply-add with one rounding. -/
  | ffma (core : CoreId) (d a b mod : BitVec 6)
  /-- FMNX (R230): Micro-op floating maximum or minimum. -/
  | fmnx (core : CoreId) (d a b mod : BitVec 6)
  /-- FSGN (R228): Micro-op absolute value, negation or sign copy. -/
  | fsgn (core : CoreId) (d a b mod : BitVec 6)
  /-- FRCP (R230): Micro-op reciprocal. -/
  | frcp (core : CoreId) (d a b mod : BitVec 6)
  /-- FRSQ (R230): Micro-op reciprocal square root. -/
  | frsq (core : CoreId) (d a b mod : BitVec 6)
  /-- FSQT (R230): Micro-op square root. -/
  | fsqt (core : CoreId) (d a b mod : BitVec 6)
  /-- FDIV (R230): Micro-op division. -/
  | fdiv (core : CoreId) (d a b mod : BitVec 6)
  /-- FEXP (R230): Micro-op exponential. -/
  | fexp (core : CoreId) (d a b mod : BitVec 6)
  /-- FLOG (R230): Micro-op natural logarithm. -/
  | flog (core : CoreId) (d a b mod : BitVec 6)
  /-- FSIG (R230): Micro-op logistic sigmoid. -/
  | fsig (core : CoreId) (d a b mod : BitVec 6)
  /-- CVT (R230): Micro-op conversion between FP32, int32 and BF16 forms. -/
  | cvt (core : CoreId) (d a b mod : BitVec 6)
  /-- IADD (R228): Micro-op integer addition modulo 2^32. -/
  | iadd (core : CoreId) (d a b mod : BitVec 6)
  /-- ISUB (R228): Micro-op integer subtraction modulo 2^32. -/
  | isub (core : CoreId) (d a b mod : BitVec 6)
  /-- IMUL (R228): Micro-op low 32 bits of an integer product. -/
  | imul (core : CoreId) (d a b mod : BitVec 6)
  /-- ILOG (R228): Micro-op bitwise logic. -/
  | ilog (core : CoreId) (d a b mod : BitVec 6)
  /-- ISHF (R228): Micro-op integer shift. -/
  | ishf (core : CoreId) (d a b mod : BitVec 6)
  /-- IMNX (R228): Micro-op integer maximum or minimum. -/
  | imnx (core : CoreId) (d a b mod : BitVec 6)
  /-- FCMP (R230): Micro-op floating compare into a mask register. -/
  | fcmp (core : CoreId) (d a b mod : BitVec 6)
  /-- ICMP (R228): Micro-op integer compare into a mask register. -/
  | icmp (core : CoreId) (d a b mod : BitVec 6)
  /-- SEL (R226): Micro-op select between two registers by mask. -/
  | sel (core : CoreId) (d a b mod : BitVec 6)
  /-- KOP (R228): Micro-op logic on mask registers. -/
  | kop (core : CoreId) (d a b mod : BitVec 6)
  /-- SHF (R228): Micro-op lane shuffle. -/
  | shf (core : CoreId) (d a b mod : BitVec 6)
  /-- RUP (R248): Micro-op that pushes a vector into the Reduction Unit. -/
  | rup (core : CoreId) (d a b mod : BitVec 6)
  /-- RUG (R251): Micro-op that takes RU results from the result queue. -/
  | rug (core : CoreId) (d a b mod : BitVec 6)
  /-- SMN (R253): Micro-op that forms softmax outputs from a row pair. -/
  | smn (core : CoreId) (d a b mod : BitVec 6)
  /-- SMB (R254): Micro-op that forms the softmax gradient. -/
  | smb (core : CoreId) (d a b mod : BitVec 6)
  /-- NRM (R255): Micro-op that normalises with mean and rstd. -/
  | nrm (core : CoreId) (d a b mod : BitVec 6)
  /-- RNG (R232): Micro-op that writes a generator draw. -/
  | rng (core : CoreId) (d a b mod : BitVec 6)
  /-- DMA_COPY (R392): A cluster DMA moves rows between two addresses. -/
  | dmaCopy (core : CoreId) (host : List HostLine)
  /-- APPEND (R343): CCM_OP function that writes token rows into a context page, allocating a frame if needed. -/
  | append (core : CoreId)
  /-- FETCH (R345): CCM_OP function that delivers context pages into the named cores. -/
  | fetch (core : CoreId) (host : List HostLine)
  /-- PROMOTE (R346): CCM_OP function that moves pages from DRAM or host to SRAM frames. -/
  | promote (core : CoreId)
  /-- TRUNCATE (R347): CCM_OP function that frees every page of a sequence from an index upward. -/
  | truncate (core : CoreId)
  /-- DEMOTION_SWEEP (R348): Free frames at or below the low watermark start a clock-hand sweep that demotes pages. -/
  | demotionSweep (pool : BitVec 2)
  /-- CCM_MOVE (R349): A page copy between tiers completes and is committed or abandoned by compare-and-swap. -/
  | ccmMove (id : Nat) (host : List HostLine)
  /-- PATROL_SCRUB (R333): The DRAM patrol scrub visits a line, correcting or poisoning it. -/
  | patrolScrub (addr : BitVec 48) (result : ScrubResult)
  /-- SRAM_SCRUB (R333): The SRAM scrubber visits a word, correcting or poisoning its line. -/
  | sramScrub (addr : BitVec 48) (result : ScrubResult)
  /-- CCM_ENABLE (R353): Writing en of CCM_SEQ_BASE enables the CCM and starts building the free bitmaps, or disables it and abandons moves. -/
  | ccmEnable (port : HPort) (value : BitVec 64)
  /-- CCM_READY (R353): The free bitmaps are complete and ready sets. -/
  | ccmReady
  /-- MUU_PASS_ONE (R305): The MUUs measure gradient and weight norms per tensor and write the member's norm entry. -/
  | muuPassOne (loc : OpLoc)
  /-- MUU_COMBINE (R311): The MUUs sum the gathered norm entries and decide UPDATE or a skip. -/
  | muuCombine (loc : OpLoc)
  /-- MUU_PASS_TWO (R313): The MUUs write new master, momentum and compute copy into alternate slots and reset gradients. -/
  | muuPassTwo (loc : OpLoc)
  /-- DEFERRAL_RECHECK (R313): Every 10 µs or after each tensor, the MUUs recheck deferred tensors' pins. -/
  | deferralRecheck
  /-- STRAGGLER_DEADLINE (R279): The straggler clock reaches its deadline and micro-batches pinning deferred slots are excluded. -/
  | stragglerDeadline
  /-- SLOT_TABLE_ENABLE (R269): Writing en of TRN_SLOT_BASE enables binding resolution and loads the committed step from the table header. -/
  | slotTableEnable (port : HPort) (value : BitVec 64)
  /-- CMD_WAKE (R360): A write to CMD_WAKE makes the module read the doorbell words of the named or all owned queues. -/
  | cmdWake (port : HPort) (value : BitVec 32)
  /-- DOORBELL_POLL (R360): The poll interval expires and the module reads doorbell words of polled queues. -/
  | doorbellPoll
  /-- DOORBELL_READ (R358): A doorbell word read returns, giving sq_tail and cq_head. -/
  | doorbellRead (queue : QueueId) (word : Option (BitVec 64))
  /-- DESCRIPTOR_FETCH (R362): Up to eight descriptors arrive in ring order and head advances. -/
  | descriptorFetch (queue : QueueId) (descs : List (Option Bytes))
  /-- NOP (R364): Descriptor that completes with no effect. -/
  | nop (queue : QueueId)
  /-- RUN_STREAM (R375): Descriptor that checks and runs a compiled command stream. -/
  | runStream (queue : QueueId)
  /-- STREAM_ADMIT (R375): A stream that waited for a core-sharing stream or a stream slot is admitted and its counters zeroed. -/
  | streamAdmit (queue : QueueId) (index : BitVec 32)
  /-- STREAM_ABORT (R386): Descriptor that stops a running stream, softly or by ending its phases. -/
  | streamAbort (queue : QueueId)
  /-- COPY (R373): Descriptor that copies between host and local memory in up to 16 parts. -/
  | copy (queue : QueueId)
  /-- MERIDIAN_FLIP (R288): Keyed descriptor that commits step s by writing the committed step. -/
  | meridianFlip (queue : QueueId)
  /-- MERIDIAN_ROLLBACK (R290): Keyed descriptor that invalidates pending slots, zeroes gradients and excludes micro-batches. -/
  | meridianRollback (queue : QueueId)
  /-- QUEUE_REASSIGN (R402): Keyed descriptor that takes over a queue of the other port. -/
  | queueReassign (queue : QueueId)
  /-- SERVICE_REQUEST (R395): Descriptor on a service queue that joins or opens a batched block. -/
  | serviceRequest (queue : QueueId)
  /-- BLOCK_CLOSE (R396): The batching window or a member's latest start passes and the open block closes and is gathered. -/
  | blockClose (svc : BitVec 8)
  /-- BLOCK_START (R398): A ready closed block starts on its cores, preempting training. -/
  | blockStart (svc : BitVec 8)
  /-- PREEMPT_MIN_EXPIRY (R398): Training has run preempt_min_us, or a block's latest start arrives, and the waiting block preempts. -/
  | preemptMinExpiry (svc : BitVec 8)
  /-- PLATE_BOUNDARY (R157): A preempted LPA op reaches a plate boundary, queued plates are consumed and service ops may start. -/
  | plateBoundary (core : CoreId)
  /-- BLOCK_END (R399): A service block's stream completes; rows are copied out, completions written and training resumes. -/
  | blockEnd (svc : BitVec 8)
  /-- PHASE_START (R381): A phase whose dependencies are met selects its rung, resolves bindings, loads op lists and sends start tokens. -/
  | phaseStart (stream : StreamId)
  /-- PHASE_COMPLETE (R383): A phase's cores, DMAs, I/O list and Blink samples finish, its status is written and pins released. -/
  | phaseComplete (stream : StreamId) (phase : PhaseNo)
  /-- PHASE_WATCHDOG (R386): A phase running longer than wd_ms is ended with TIMEOUT. -/
  | phaseWatchdog (stream : StreamId) (phase : PhaseNo)
  /-- OP_NOP (R388): Op descriptor that does nothing. -/
  | opNop (loc : OpLoc)
  /-- WAIT (R388): Op descriptor that exists for its counter wait. -/
  | wait (loc : OpLoc)
  /-- COUNTER_WAIT_RELEASE (R390): A waited FI counter reaches its value and the held op starts. -/
  | counterWaitRelease (loc : OpLoc) (host : List HostLine)
  /-- OP_COMPLETE (R391): An op finishes; its writes land, its counter signals and its Photometer counts are added. -/
  | opComplete (loc : OpLoc) (unit : OpUnit)
  /-- PORT_LOST (R401): A port's link goes down or PERST asserts, orphaning its queues. -/
  | portLost (port : HPort)
  /-- PORT_RETURN (R403): A lost port's link comes back up. -/
  | portReturn (port : HPort) (rate : BitVec 3) (width : BitVec 4) (flit : Bool)
  /-- PUT (R431): Fabric op that writes local data to a remote address. -/
  | put (loc : OpLoc) (host : List HostLine)
  /-- GET (R431): Fabric op that reads remote data locally or to a third node. -/
  | get (loc : OpLoc)
  /-- AWAIT (R432): Fabric op that waits on a counter value. -/
  | await (loc : OpLoc)
  /-- AWAIT_TIMEOUT (R432): An AWAIT's time runs out and it completes with TIMEOUT. -/
  | awaitTimeout (loc : OpLoc)
  /-- ROLE_SET (R433): Fabric op that gives named cores a new role epoch. -/
  | roleSet (op : OpLines)
  /-- FABRIC_TIMEOUT (R434): A packet's ACK or read data does not arrive in time and its part fails. -/
  | fabricTimeout (fi : FabPort) (tag : BitVec 24)
  /-- WRITE (R429): Packet that lands write data at its destination. -/
  | write (port : FabPort) (packet : Bytes) (stalled : Bool)
  /-- READ_REQ (R425): Packet that requests data, answered with READ_DATA or FWD_WRITE. -/
  | readReq (port : FabPort) (packet : Bytes)
  /-- READ_DATA (R429): Packet that lands read data at the requester. -/
  | readData (port : FabPort) (packet : SinkPacket)
  /-- ACK (R434): Packet that acknowledges a tagged packet. -/
  | ack (port : FabPort) (packet : Bytes)
  /-- FWD_WRITE (R431): Packet that lands forwarded read data at a third node. -/
  | fwdWrite (port : FabPort) (packet : SinkPacket)
  /-- IDLE (R415): Flit between packets that returns credits. -/
  | idle (port : FabPort) (flit : Bytes) (corrected uncorrectable : BitVec 16)
  /-- ROUTER_FORWARD (R416): A header flit passing its hcrc is routed and forwarded cut-through. -/
  | routerForward (port : FabPort) (packet : Bytes)
  /-- HOST_SINK_TIMEOUT (R424): A packet for a host window not posted within 50 µs is discarded. -/
  | hostSinkTimeout (id : Nat)
  /-- PORT_LIGHT_DETECTED (R408): All receive lanes show light and the port goes from DARK to SIGNAL. -/
  | portLightDetected (port : FabPort)
  /-- PORT_CLOCK_LOCK (R408): Every lane holds clock lock and the port enters LOCK. -/
  | portClockLock (port : FabPort)
  /-- PORT_CODEWORD_LOCK (R408): Codeword lock and deskew hold and the port enters TRAIN. -/
  | portCodewordLock (port : FabPort)
  /-- PORT_TRAINED (R408): Every lane's error ratio stays low for 1 ms and the port enters PARAM. -/
  | portTrained (port : FabPort)
  /-- PARAM (R410): The peer's node id and port arrive and the port goes UP or MISWIRED. -/
  | param (port : FabPort) (node : BitVec 16) (peerPort : BitVec 4)
  /-- PORT_STATE_TIMEOUT (R408): A bring-up state lasts 50 ms without progress and the port returns to DARK. -/
  | portStateTimeout (port : FabPort)
  /-- LINK_DROP (R411): An UP port loses light, lock, markers or a header and drops to DARK. -/
  | linkDrop (port : FabPort) (loss : LinkLoss)
  /-- FAB_PORT_CFG (R408): Writing a port's configuration enables, disables or re-arms it. -/
  | fabPortCfg (hport : HPort) (port : FabPort) (value : BitVec 64)
  /-- FAB_BYPASS (R439): Writing hold joins or opens bypass pairs. -/
  | fabBypass (hport : HPort) (value : BitVec 32)
  /-- BYPASS_SWITCH_DONE (R439): A bypass join or open completes. -/
  | bypassSwitchDone (pair : BitVec 3)
  /-- FAB_ROUTE_TAB (R422): Writing a route word changes four entries at once. -/
  | fabRouteTab (hport : HPort) (index : BitVec 14) (value : BitVec 32)
  /-- ALL_REDUCE (R447): COLL op that reduces up the tree and broadcasts the result. -/
  | allReduce (loc : OpLoc) (host : List HostLine)
  /-- REDUCE_SCATTER (R447): COLL op that reduces and sends each shard to its owner. -/
  | reduceScatter (loc : OpLoc) (host : List HostLine)
  /-- ALL_GATHER (R447): COLL op that gathers shards at the root and broadcasts the vector. -/
  | allGather (loc : OpLoc) (host : List HostLine)
  /-- REDUCE (R447): COLL op that reduces to rank 0. -/
  | reduce (loc : OpLoc) (host : List HostLine)
  /-- BROADCAST (R447): COLL op that sends rank 0's vector down the tree. -/
  | broadcast (loc : OpLoc) (host : List HostLine)
  /-- BARRIER (R447): COLL op consisting only of the opening round. -/
  | barrier (loc : OpLoc) (host : List HostLine)
  /-- ALL_TO_ALLV (R473): COLL op that exchanges fixed windows with variable counts. -/
  | allToAllv (loc : OpLoc) (host : List HostLine)
  /-- COLL_READY (R450): A deadline-mode contribution becomes ready and the member sends a second JOIN. -/
  | collReady (id : Nat) (host : List HostLine)
  /-- JOIN (R450): Packet that records a member's join at the coordinator, possibly closing the round. -/
  | join (port : FabPort) (packet : Bytes)
  /-- COLL_DEADLINE (R451): The deadline passes and the coordinator closes the round with the ready members. -/
  | collDeadline (id : Nat)
  /-- CLOSE (R453): Packet that tells a member the contributors, N and mode. -/
  | close (port : FabPort) (packet : Bytes)
  /-- DATA (R454): Packet that delivers a segment into a slot cell or end-point scratch. -/
  | data (port : FabPort) (packet : Bytes)
  /-- SEGMENT_COMBINE (R455): Once every expected cell has arrived, a member combines and sends the segment onward. -/
  | segmentCombine (id : Nat) (segment : Nat)
  /-- RESULT (R462): Packet that lands a result segment and checks its chunk. -/
  | result (port : FabPort) (packet : SinkPacket)
  /-- CREDIT (R454): Packet that returns a cell credit to a child. -/
  | credit (port : FabPort) (packet : Bytes)
  /-- ABORT (R463): Packet that ends a collective, poisoning the destination. -/
  | abort (port : FabPort) (packet : Bytes)
  /-- A2A_DATA (R473): Packet that lands all-to-all window data. -/
  | a2aData (port : FabPort) (packet : SinkPacket)
  /-- A2A_COUNT (R473): Packet that writes a received count and checks the window's last chunk. -/
  | a2aCount (port : FabPort) (packet : SinkPacket)
  /-- COLL_TIMEOUT (R465): A join, close, segment, credit or count wait expires and the collective aborts with TIMEOUT. -/
  | collTimeout (id : Nat)
  /-- TRIG_ARM (R474): Op that arms a trigger entry with a fabric op. -/
  | trigArm (op : OpLines)
  /-- TRIGGER_FIRE (R475): A counter satisfies an armed entry and its op starts. -/
  | triggerFire (fi : FabPort) (entry : BitVec 10) (host : List HostLine)
  /-- BAR4_READ (R482): A host read through the aperture into device memory. -/
  | bar4Read (port : HPort) (offset : BitVec 36) (len : Nat)
  /-- BAR4_WRITE (R482): A host write through the aperture into device memory. -/
  | bar4Write (port : HPort) (offset : BitVec 36) (data : Bytes) (poisoned : Bool)
  /-- HIF_APER (R483): Writing the aperture base moves the port's BAR4 window. -/
  | hifAper (hport : HPort) (index : HPort) (value : BitVec 64)
  /-- PCIE_COMPLETION (R485): A completion to a module read arrives, landing data or being discarded as late. -/
  | pcieCompletion (port : HPort) (tag : BitVec 14) (data : Bytes) (good : Bool)
  /-- COMPLETION_TIMEOUT (R485): A module read times out and its lines are treated as poisoned. -/
  | completionTimeout (port : HPort) (tag : BitVec 14)
  /-- MSIX_UNMASK (R486): Unmasking a pending MSI-X vector sends its message. -/
  | msixUnmask (port : HPort) (vector : BitVec 8)
  /-- MCTP_CONTROL (R488): An MCTP control message is answered. -/
  | mctpControl (binding : MctpBinding) (packets : List MctpPacket)
  /-- ATTEST (R503): Security command that writes a signed quote. -/
  | attest (queue : QueueId)
  /-- OWNER_CLAIM (R504): Security command that claims an unowned module. -/
  | ownerClaim (queue : QueueId)
  /-- OWNER_ROTATE (R504): Security command that replaces or releases the owner key. -/
  | ownerRotate (queue : QueueId)
  /-- KEY_INSTALL (R506): Security command that installs a command key. -/
  | keyInstall (queue : QueueId)
  /-- KEY_REVOKE (R506): Security command that erases a command-key slot. -/
  | keyRevoke (queue : QueueId)
  /-- WINDOW_SET (R494): Security command that writes Window Table entries and bumps the generation. -/
  | windowSet (queue : QueueId)
  /-- SVC_UNLOCK (R515): Security command that opens the service connector. -/
  | svcUnlock (queue : QueueId)
  /-- SVC_LOCK (R515): Security command that locks the service connector. -/
  | svcLock (queue : QueueId)
  /-- SVN_COMMIT (R498): Security command that raises min_svn to the running svn. -/
  | svnCommit (queue : QueueId)
  /-- MR_EXTEND (R499): Security command that extends MR7. -/
  | mrExtend (queue : QueueId)
  /-- VENDOR_CHALLENGE (R515): A service tool answers the vendor challenge, possibly opening to VENDOR_OPEN. -/
  | vendorChallenge (signature : Bytes)
  /-- SVC_UNLOCK_EXPIRY (R515): The unlock minutes elapse and the connector returns to LOCKED. -/
  | svcUnlockExpiry
  /-- SERVICE_CONNECTOR_READ (R514): A request on the service connector reads serial number or quote flags. -/
  | serviceConnectorRead (which : ServiceRead)
  /-- HELLO (R522): Mailbox message reporting firmware version and state. -/
  | hello (channel : BitVec 3) (message : Bytes)
  /-- LOAD_BEGIN (R518): Mailbox message that makes its port the loader. -/
  | loadBegin (channel : BitVec 3) (message : Bytes)
  /-- LOAD_DATA (R518): Mailbox message carrying the next image bytes. -/
  | loadData (channel : BitVec 3) (message : Bytes)
  /-- LOAD_END (R497): Mailbox message that checks the image and starts it. -/
  | loadEnd (channel : BitVec 3) (message : Bytes)
  /-- LOADER_PORT_LOST (R519): The loader port is lost, discarding a partial image or moving the loader role. -/
  | loaderPortLost (port : HPort)
  /-- CONFIG_SET (R531): Mailbox message that sets the configuration block. -/
  | configSet (channel : BitVec 3) (message : Bytes)
  /-- EVENT_RING_SET (R532): Mailbox message that names a port's event ring. -/
  | eventRingSet (channel : BitVec 3) (message : Bytes)
  /-- CERT_READ (R530): Mailbox message that returns a certificate. -/
  | certRead (channel : BitVec 3) (message : Bytes)
  /-- MLOG_READ (R530): Mailbox message that returns measurement-log entries. -/
  | mlogRead (channel : BitVec 3) (message : Bytes)
  /-- FAILLOG_READ (R530): Mailbox message that returns failure-log entries. -/
  | faillogRead (channel : BitVec 3) (message : Bytes)
  /-- SENSOR_READ (R570): Mailbox message that returns a sensor group. -/
  | sensorRead (channel : BitVec 3) (message : Bytes)
  /-- POWER_REQ (R569): Mailbox message that requests a power state. -/
  | powerReq (channel : BitVec 3) (message : Bytes)
  /-- FWU_STAGE (R533): Mailbox message that copies an image into staging. -/
  | fwuStage (channel : BitVec 3) (message : Bytes)
  /-- FWU_VERIFY (R534): Mailbox message that checks the staged image. -/
  | fwuVerify (channel : BitVec 3) (message : Bytes)
  /-- FWU_ACTIVATE (R535): Mailbox message that starts prepare of a live update. -/
  | fwuActivate (channel : BitVec 3) (message : Bytes)
  /-- FWU_ABORT (R535): Mailbox message that abandons an update before the switch. -/
  | fwuAbort (channel : BitVec 3) (message : Bytes)
  /-- FWU_STATUS (R530): Mailbox message that reports update phase and outcome. -/
  | fwuStatus (channel : BitVec 3) (message : Bytes)
  /-- MBX_DONE_CLEAR (R524): The host clears done, letting firmware write the next response. -/
  | mbxDoneClear (port : HPort)
  /-- FWU_SWITCH (R538): Prepare ends; loops hold and the Night Assistant resets the cores into the new image. -/
  | fwuSwitch
  /-- LOOP_HOLD_TIMEOUT (R538): Loops held 20 ms without firmware and the sequencer steps to point 2. -/
  | loopHoldTimeout
  /-- FWU_CONFIRM (R539): The new image confirms to the Night Assistant and resumes the mailbox. -/
  | fwuConfirm
  /-- FWU_REVERT (R540): The confirm clock expires or the record is refused and the old image is restored. -/
  | fwuRevert (refused : Bool)
  /-- CC_WATCHDOG (R593): The Control Cluster watchdog expires or its memory fails and the image restarts or stops. -/
  | ccWatchdog (cause : WatchdogCause)
  /-- COALESCE_WINDOW_END (R589): A 1 ms coalescing window ends and a coalesced record leaves. -/
  | coalesceWindowEnd (status : BitVec 16) (source : BitVec 8) (unit : BitVec 16)
  /-- POWER_LOOP_TICK (R550): The 1 ms power loop lowers or raises its ceiling. -/
  | powerLoopTick (pIn pPkg v10mv i10ma : Nat) (rails : List Nat)
  /-- THERMAL_LOOP_TICK (R551): The 1 ms thermal loop lowers or raises its ceiling. -/
  | thermalLoopTick (clusters io optics dimms : List Nat)
  /-- FAST_POWER (R552): Input power over 1.10 times the limit sets the hardware ceiling one point down. -/
  | fastPower (watts : Nat)
  /-- OVERCURRENT (R552): Input current above 115 A for 2 µs sets the hardware ceiling to 0. -/
  | overcurrent
  /-- HOT (R552): A junction at 100 °C sets the hardware ceiling to 2. -/
  | hot
  /-- INPUT_LOW (R552): Input below 40 V for 100 µs sets the hardware ceiling to 0. -/
  | inputLow
  /-- OPTICS_HOT (R552): An optical engine at 75 °C disables its port. -/
  | opticsHot (port : FabPort)
  /-- HOT_RELEASE (R552): All junctions below 95 °C for 100 ms release the hot limiter. -/
  | hotRelease
  /-- INPUT_LOW_RELEASE (R552): Input at or above 41 V for 10 ms releases the input-low limiter. -/
  | inputLowRelease
  /-- OPTICS_HOT_RELEASE (R552): An engine below 70 °C for 1 s lets its port climb again. -/
  | opticsHotRelease (port : FabPort)
  /-- LIMITER_RELEASE (R553): Firmware releases a fast-power or overcurrent ceiling after 4 ms below the limit. -/
  | limiterRelease (limiter : HeldLimiter)
  /-- THERMAL_TRIP (R554): A junction at 110 °C for 100 µs asserts THERMTRIP_N and removes power. -/
  | thermalTrip
  /-- INPUT_TRIP (R554): Input outside 36–62 V for 100 µs removes power except VAO. -/
  | inputTrip
  /-- CLOSED_ENTRY (R558): The module quiesces, saves state and switches compute off for Closed. -/
  | closedEntry
  /-- PARKED_ENTRY (R558): The module quiesces, saves state and powers down to the Night Assistant. -/
  | parkedEntry
  /-- QUIESCE_TIMEOUT (R558): Quiesce is not reached within quiesce_ms and the entry is abandoned or forced. -/
  | quiesceTimeout
  /-- CLOSED_EXIT (R561): A wake source brings the module from Closed back to Open. -/
  | closedExit
  /-- PARKED_EXIT (R562): A wake source brings the module from Parked back to Open. -/
  | parkedExit (loaded : Bool)
  /-- CLUSTER_GATE (R556): A cluster idle for cluster_idle in Shuttered is gated. -/
  | clusterGate (cluster : ClusterId)
  /-- CLUSTER_WAKE (R556): A start token or store access wakes a gated cluster. -/
  | clusterWake (cluster : ClusterId)
  /-- HOLD_N_ASSERT (R564): HOLD_N asserted starts entry to Closed or Parked. -/
  | holdNAssert
  /-- HOLD_N_DEASSERT (R564): HOLD_N deasserted exits to Open. -/
  | holdNDeassert
  /-- PWRBRK_N_ASSERT (R564): PWRBRK_N asserted sets the power-brake ceiling. -/
  | pwrbrkNAssert
  /-- PWRBRK_N_DEASSERT (R564): PWRBRK_N deasserted removes the power-brake ceiling. -/
  | pwrbrkNDeassert
  /-- WAKE_IN_N (R559): WAKE_IN_N asserted wakes the module from Closed or Parked. -/
  | wakeInN
  /-- PERST_ASSERT (R576): A PERST input asserts and its port is reset. -/
  | perstAssert (port : HPort)
  /-- PERST_DEASSERT (R578): A PERST input deasserts and its port starts training. -/
  | perstDeassert (port : HPort)
  /-- HOT_RESET (R571): The link partner signals Hot Reset or Link Disable and the port is reset. -/
  | hotReset (port : HPort)
  /-- SLOT_ID_CHANGE (R565): A change of SLOT_ID after power-on raises one event and is ignored. -/
  | slotIdChange
  /-- MODULE_RST_N_ASSERT (R572): MODULE_RST_N asserted drains DRAM into self-refresh and holds the module in reset. -/
  | moduleRstNAssert (refreshed : Bool)
  /-- MODULE_RST_N_DEASSERT (R577): MODULE_RST_N released resumes power-up at step 3. -/
  | moduleRstNDeassert
  /-- POWER_ON (R577): Input reaching 40 V with VAO off starts the power-up sequence. -/
  | powerOn (slotId : BitVec 4)
  /-- INPUT_TRIP_RECOVERY (R571): Input back in range for 10 ms after an input trip starts a module reset. -/
  | inputTripRecovery
  /-- RAIL_FAIL (R577): A rail misses power-good within 10 ms and the sequence ends. -/
  | railFail (rail : BitVec 3)
  /-- RAIL_FAIL_RETRY (R577): After 1 s the Night Assistant retries power-up once. -/
  | railFailRetry
  /-- SELFTEST_DONE (R580): Hardware self-test completes, records failures and sets selftest_done. -/
  | selftestDone (fails : SelftestResult)
  /-- WEAR_READING (R567): Every 60 s the Night Assistant reads each powered die's Wear Monitors. -/
  | wearReading (pairs : List (List (Nat × Nat)))
  /-- REPLAN (R568): Every 24 h or after wear rises, firmware re-plans a die's offset and table. -/
  | replan (die : BitVec 2) (reading tj : Nat)
  /-- TOP_NODE_ID (R600): Writing TOP_NODE_ID sets the node id and optionally locks it. -/
  | topNodeId (hport : HPort) (value : BitVec 32)
  /-- QUEUE_CLAIM (R605): A CMD_Q_CTL write claims an unowned queue for the writing port. -/
  | queueClaim (hport : HPort) (queue : QueueId)
  /-- QUEUE_RELEASE (R355): The owning port writes owner 0 on a disabled queue. -/
  | queueRelease (hport : HPort) (queue : QueueId)
  /-- QUEUE_ENABLE (R362): Setting en resets head, cq_tail and err and reads the doorbell. -/
  | queueEnable (hport : HPort) (queue : QueueId) (kind : Bool) (msix svc : BitVec 8)
  /-- QUEUE_DISABLE (R362): Clearing en stops fetching. -/
  | queueDisable (hport : HPort) (queue : QueueId)
  /-- REGISTER_WRITE (R14): A write to a setup register without a row of its own stores its writable fields. -/
  | registerWrite (hport : HPort) (bar : HostBar) (offset : BitVec 26) (size : Nat) (value : BitVec 64)
  /-- MONITOR_SWEEP (R31): The sequencer reads every replica monitor and sets permitted_max to the highest point whose cadence the slowest reading supports by 1.05. -/
  | monitorSweep (rates : List Nat)
  /-- UNIT_FAILS (R46): An LPA row or column, VE lane, Reduction Unit or cluster-shared block fails in the field and firmware marks the core or the whole cluster unavailable. -/
  | unitFails (unit : FailedUnit)
  /-- ENTER_CONFIG_WAIT (R582): The started image finishes SPD reads, DRAM training, the firmware-area reservation and core-availability marking and enters CONFIG_WAIT. -/
  | enterConfigWait (spd : List (Option Dimm))
  /-- REVERT_REGION_COPY_DONE (R539): After confirmation the copy of the new image into the revert region completes, the staging area is cleared and the update phase reads none. -/
  | revertRegionCopyDone
  /-- VAO_LOSS (R554): Input below 30.0 V or above 64.0 V for 100 µs switches VAO off, losing the key store, measurement registers and always-on SRAM. -/
  | vaoLoss
  /-- INPUT_HELD (R565): A sideband assertion lasting 10 ms marks the input held. -/
  | inputHeld (input : BitVec 3)
  /-- INPUT_UNMASKED (R565): A held input that has stayed deasserted continuously for 10 ms is unmasked. -/
  | inputUnmasked (input : BitVec 3)
  /-- WAKE_OUTPUT_LIMIT (R566): WAKE_A_N or WAKE_B_N, asserted at Parked exit, is deasserted after 1 s when its link has not come up. -/
  | wakeOutputLimit (port : HPort)
  /-- BAR0_READ (R559): A BAR0 read on a port, which in Closed or after abort point 3 of a Closed entry is a wake source held and served after exit. -/
  | bar0Read (hport : HPort) (bar : HostBar) (offset : BitVec 26) (size : Nat)
  /-- FAILURE_LOG_CLEAR (R515): In VENDOR_OPEN, a service-connector request clears the non-volatile failure log. -/
  | failureLogClear
  /-- KEY_REVOCATION_BURN (R498): In VENDOR_OPEN, a service-connector request burns key-revocation fuses for a firmware signing key. -/
  | keyRevocationBurn (key : BitVec 2)
  /-- CONFIG_SPACE_WRITE (R476): A host write to the port's PCIe configuration space sets the device power state, ASPM L1 enable or the completion timeout value. -/
  | configSpaceWrite (port : HPort) (field : CfgField) (value : BitVec 32)
  /-- COPY_COMPLETION (R372): The I/O-die DMA engines finish every part of a COPY, and its completion record is written with split and parts set. -/
  | copyCompletion (queue : QueueId) (index : BitVec 32) (host : List HostLine)
  deriving DecidableEq, Repr

end Sys2Proof
end

