-- ==== Sys2Proof/Machine/Bits.lean ====
section
/-! DEFINITION. Byte strings, bit fields, sparse maps in canonical form, checksums and the
counter-based generator. -/

namespace Sys2Proof.Machine

/-! ## Byte strings (R10, R11) -/

/-- Byte `i` of a byte string; a byte beyond its end reads 0. -/
def byteAt (bs : Bytes) (i : Nat) : BitVec 8 := bs.getD i 0

/-- The little-endian unsigned value of a byte string (R11). -/
def leNat : Bytes → Nat
  | [] => 0
  | b :: bs => b.toNat + 256 * leNat bs

/-- The `n` bytes from offset `i`, as a little-endian value. -/
def le (bs : Bytes) (i n : Nat) : Nat := leNat ((bs.drop i).take n)

/-- The `n` low bytes of `v`, lowest first (R11). -/
def leBytes : Nat → Nat → Bytes
  | 0, _ => []
  | n + 1, v => BitVec.ofNat 8 v :: leBytes n (v / 256)

/-- Bits [lo + w - 1 : lo] of `v` (R10). -/
def bits (v lo w : Nat) : Nat := (v >>> lo) % 2 ^ w

/-- Bit `i` of `v`. -/
def bit (v i : Nat) : Bool := v.testBit i

/-- Field of `w` bits at bit `lo` of the little-endian word that begins at byte `off`. -/
def field (bs : Bytes) (off lo w : Nat) : Nat := bits (le bs off 8) lo w

/-- One bit of byte `off`. -/
def flag (bs : Bytes) (off i : Nat) : Bool := (byteAt bs off).getLsbD i

/-- The value of a bit. -/
def b2n (b : Bool) : Nat := if b then 1 else 0

/-- `v` with bits [lo + w - 1 : lo] replaced by `x`. -/
def setBits (v lo w x : Nat) : Nat :=
  v - (bits v lo w) * 2 ^ lo + (x % 2 ^ w) * 2 ^ lo

/-- A saturating increment of a `w`-bit counter by `k`. -/
def satAdd {w : Nat} (c : BitVec w) (k : Nat) : BitVec w :=
  BitVec.ofNat w (min (c.toNat + k) (2 ^ w - 1))

/-- A saturating addition for an unsigned count held in `w` bits. -/
def satAddNat (w c k : Nat) : Nat := min (c + k) (2 ^ w - 1)

/-- A byte string with `n` bytes at offset `i` replaced. -/
def putBytes (bs : Bytes) (i : Nat) (x : Bytes) : Bytes :=
  bs.take i ++ x ++ bs.drop (i + x.length)

/-- `n` zero bytes. -/
def zeroBytes (n : Nat) : Bytes := List.replicate n 0

/-- Bytes cut or padded with zeros to a length. -/
def fit (b : Bytes) (n : Nat) : Bytes := (b ++ zeroBytes n).take n

/-- Whether every byte is zero. -/
def allZero (bs : Bytes) : Bool := bs.all (· == 0)

/-- The layout check behind R18: `used` lists the (first bit, width) of every field of an item of
`bs.length` bytes, and every other bit must be zero. -/
def reservedZero (bs : Bytes) (used : List (Nat × Nat)) : Bool :=
  let mask := used.foldl (fun m (u : Nat × Nat) => m ||| ((2 ^ u.2 - 1) <<< u.1)) 0
  let v := leNat bs
  (v &&& mask) == v

/-- A byte field of the layout: `n` whole bytes from byte `off`. -/
def fld (off n : Nat) : Nat × Nat := (8 * off, 8 * n)

/-- A bit field of the layout: `w` bits at bit `lo` of the word that begins at byte `off`. -/
def fldBits (off lo w : Nat) : Nat × Nat := (8 * off + lo, w)

/-- Sign extension of a `w`-bit value. -/
def sext (w v : Nat) : Int := if bit v (w - 1) then (v : Int) - 2 ^ w else v

/-- The `w`-bit two's-complement code of an integer. -/
def tcode (w : Nat) (v : Int) : Nat := (v % (2 ^ w : Int)).toNat

/-- Number of one bits among the low `w` bits. -/
def popcount : Nat → Nat → Nat
  | 0, _ => 0
  | w + 1, v => b2n (bit v w) + popcount w v

/-- Ceiling division. -/
def cdiv (a b : Nat) : Nat := (a + b - 1) / b

/-- `a` rounded up to a multiple of `b`. -/
def roundUp (a b : Nat) : Nat := cdiv a b * b

/-- The positions of the one bits of a `w`-bit mask, ascending. -/
def bitList (w v : Nat) : List Nat := (List.range w).filter (bit v)

/-! ## Sparse maps in canonical form

A map is a list of (key, value) pairs with strictly rising keys and no value equal to the default. -/

/-- The value at key `k`; an unlisted key holds the default `d`. -/
def smGet {α : Type} (d : α) : List (Nat × α) → Nat → α
  | [], _ => d
  | (j, v) :: m, k => if j = k then v else smGet d m k

/-- The map with `v` at key `k`, kept in canonical form. -/
def smSet {α : Type} [DecidableEq α] (d : α) : List (Nat × α) → Nat → α → List (Nat × α)
  | [], k, v => if v = d then [] else [(k, v)]
  | (j, w) :: m, k, v =>
    if k < j then (if v = d then (j, w) :: m else (k, v) :: (j, w) :: m)
    else if k = j then (if v = d then m else (k, v) :: m)
    else (j, w) :: smSet d m k v

/-- The canonical form: keys strictly rising, no value equal to the default. -/
def smWf {α : Type} [DecidableEq α] (d : α) : List (Nat × α) → Bool
  | [] => true
  | [(_, v)] => decide (v ≠ d)
  | (j, v) :: (k, w) :: m => decide (v ≠ d) && decide (j < k) && smWf d ((k, w) :: m)

/-! ## Checksums (R11: the published bit order) -/

/-- One byte of a reflected CRC of width `w` with reflected polynomial `poly`. -/
def crcReflByte (poly : Nat) (crc : Nat) (b : BitVec 8) : Nat :=
  (List.range 8).foldl (fun c _ => if c % 2 = 1 then (c / 2) ^^^ poly else c / 2) (crc ^^^ b.toNat)

/-- CRC-32C (Castagnoli): reflected polynomial 0x82F6_3B78, all ones in and out. -/
def crc32c (bs : Bytes) : Nat :=
  (bs.foldl (crcReflByte 0x82F63B78) 0xFFFFFFFF) ^^^ 0xFFFFFFFF

/-- One byte of CRC-64 (ECMA-182), most significant bit first. -/
def crc64Byte (crc : Nat) (b : BitVec 8) : Nat :=
  (List.range 8).foldl
    (fun c _ => if bit c 63 then ((c <<< 1) ^^^ 0x42F0E1EBA9EA3693) % 2 ^ 64 else (c <<< 1) % 2 ^ 64)
    (crc ^^^ (b.toNat <<< 56))

/-- CRC-64 (ECMA-182): polynomial 0x42F0_E1EB_A9EA_3693, not reflected, zero in and out. -/
def crc64 (bs : Bytes) : Nat := bs.foldl crc64Byte 0

/-! ## The counter-based generator (05_output_conversion.md R172) -/

/-- mix64 of R172. -/
def mix64 (x : Nat) : Nat :=
  let z := ((x ^^^ (x >>> 30)) * 0xBF58476D1CE4E5B9) % 2 ^ 64
  let z := ((z ^^^ (z >>> 27)) * 0x94D049BB133111EB) % 2 ^ 64
  z ^^^ (z >>> 31)

/-- draw of R172. -/
def draw (seed tensorId step index : Nat) : Nat :=
  let seedT := mix64 ((seed ^^^ tensorId) % 2 ^ 64)
  let counter := (((step % 2 ^ 24) <<< 40) ||| (index % 2 ^ 40))
  mix64 (seedT ^^^ counter)

end Sys2Proof.Machine
end

