-- ==== Sys2Proof/Machine/Flags.lean ====
section
/-! DEFINITION. Binary floating-point arithmetic with its flags: every operation forms the exact result and
rounds it once, to nearest with ties to even, keeping subnormals (R106, R109, R161, R230, R250).
The NV and OF flags of R110 to R115, R161 and R230 are computed here. -/

namespace Sys2Proof.Machine

/-- A decoded floating value: a NaN, an infinity, or (-1)^neg × m × 2^e. Every NaN code is one NaN (R60). -/
inductive FVal where
  | nan
  | inf (neg : Bool)
  | fin (neg : Bool) (m : Nat) (e : Int)
  deriving DecidableEq, Repr

/-- A float format: mantissa field width and exponent field width. -/
structure FFmt where
  mb : Nat
  eb : Nat
  deriving DecidableEq, Repr

/-- binary32. -/
def f32F : FFmt := ⟨23, 8⟩
/-- binary64. -/
def f64F : FFmt := ⟨52, 11⟩
/-- BF16. -/
def bf16F : FFmt := ⟨7, 8⟩

/-- The exponent bias of a float format. -/
def ffBias (f : FFmt) : Nat := 2 ^ (f.eb - 1) - 1

/-- The canonical NaN code (R60). -/
def ffNan (f : FFmt) : Nat := ((2 ^ f.eb - 1) <<< f.mb) ||| (1 <<< (f.mb - 1))

/-- The code of an infinity. -/
def ffInf (f : FFmt) (neg : Bool) : Nat :=
  (b2n neg <<< (f.mb + f.eb)) ||| ((2 ^ f.eb - 1) <<< f.mb)

/-- The code of a zero. -/
def ffZero (f : FFmt) (neg : Bool) : Nat := b2n neg <<< (f.mb + f.eb)

/-- The largest finite code. -/
def ffMax (f : FFmt) (neg : Bool) : Nat := ffInf f neg - 1

/-- Decoding of a float code (R58). -/
def ffDecode (f : FFmt) (c : Nat) : FVal :=
  let s := bit c (f.mb + f.eb)
  let e := bits c f.mb f.eb
  let m := c % 2 ^ f.mb
  if e = 2 ^ f.eb - 1 then (if m = 0 then .inf s else .nan)
  else if e = 0 then .fin s m (1 - (ffBias f : Int) - f.mb)
  else .fin s (m + 2 ^ f.mb) ((e : Int) - ffBias f - f.mb)

/-- `m ÷ 2^k` rounded to an integer, to nearest with ties to even; `st` marks a non-zero remainder
below the last bit of `m`. -/
def rneShift (m k : Nat) (st : Bool) : Nat :=
  if k = 0 then m
  else
    let q := m >>> k
    let r := m % 2 ^ k
    let h := 2 ^ (k - 1)
    if r > h ∨ (r = h ∧ (st ∨ q % 2 = 1)) then q + 1 else q

/-- Rounds (-1)^neg × m × 2^e (with a sticky remainder `st`) to a float format, to nearest even, keeping
subnormals. Answers the code and whether the result overflowed to an infinity. -/
def ffRound (f : FFmt) (neg : Bool) (m : Nat) (e : Int) (st : Bool) : Nat × Bool :=
  if m = 0 then (ffZero f neg, false)
  else
    let emin : Int := 1 - (ffBias f : Int)
    let u : Int := max (e + (Nat.log2 m : Int)) emin - f.mb
    let n := if u ≤ e then m <<< (e - u).toNat else rneShift m (u - e).toNat st
    let mag : Nat :=
      if n < 2 ^ f.mb then n else ((u + f.mb + ffBias f).toNat <<< f.mb) + (n - 2 ^ f.mb)
    if mag ≥ (2 ^ f.eb - 1) <<< f.mb then (ffInf f neg, true)
    else (ffZero f neg ||| mag, false)

/-- A rounded result with its flags. -/
structure FRes where
  code : Nat
  nv : Bool := false
  of : Bool := false
  deriving DecidableEq, Repr

/-- A rounded finite result; an exact zero takes the sign given. -/
def ffFin (f : FFmt) (neg : Bool) (m : Nat) (e : Int) (st : Bool := false) : FRes :=
  let r := ffRound f neg m e st
  { code := r.1, of := r.2 }

/-- The signed integer of a finite value over 2^e0, for e0 at or below its exponent. -/
def alignTo (neg : Bool) (m : Nat) (e e0 : Int) : Int :=
  let v : Int := (m <<< (e - e0).toNat : Nat)
  if neg then -v else v

/-- A signed integer times 2^e, rounded; an exact zero has the sign `zneg`. -/
def ffOfInt (f : FFmt) (v : Int) (e : Int) (zneg : Bool := false) : FRes :=
  if v = 0 then { code := ffZero f zneg } else ffFin f (decide (v < 0)) v.natAbs e

/-- Addition (R161, R230). A zero sum is +0 unless both operands are -0. -/
def ffAdd (f : FFmt) (a b : Nat) : FRes :=
  match ffDecode f a, ffDecode f b with
  | .nan, _ => { code := ffNan f }
  | _, .nan => { code := ffNan f }
  | .inf s, .inf t => if s = t then { code := ffInf f s } else { code := ffNan f, nv := true }
  | .inf s, .fin _ _ _ => { code := ffInf f s }
  | .fin _ _ _, .inf t => { code := ffInf f t }
  | .fin s m e, .fin t n k =>
    let e0 := min e k
    ffOfInt f (alignTo s m e e0 + alignTo t n k e0) e0 (s && t && m == 0 && n == 0)

/-- The code with its sign inverted. -/
def ffNeg (f : FFmt) (a : Nat) : Nat := a ^^^ (1 <<< (f.mb + f.eb))

/-- Subtraction. -/
def ffSub (f : FFmt) (a b : Nat) : FRes := ffAdd f a (ffNeg f b)

/-- Multiplication. -/
def ffMul (f : FFmt) (a b : Nat) : FRes :=
  match ffDecode f a, ffDecode f b with
  | .nan, _ => { code := ffNan f }
  | _, .nan => { code := ffNan f }
  | .inf s, .inf t => { code := ffInf f (s != t) }
  | .inf s, .fin t n _ => if n = 0 then { code := ffNan f, nv := true } else { code := ffInf f (s != t) }
  | .fin s m _, .inf t => if m = 0 then { code := ffNan f, nv := true } else { code := ffInf f (s != t) }
  | .fin s m e, .fin t n k => ffFin f (s != t) (m * n) (e + k)

/-- Fused multiply-add a × b + c with one rounding. -/
def ffFma (f : FFmt) (a b c : Nat) : FRes :=
  match ffDecode f a, ffDecode f b, ffDecode f c with
  | .nan, _, _ => { code := ffNan f }
  | _, .nan, _ => { code := ffNan f }
  | _, _, .nan => { code := ffNan f }
  | .fin s m e, .fin t n k, .fin w p j =>
    let e0 := min (e + k) j
    ffOfInt f (alignTo (s != t) (m * n) (e + k) e0 + alignTo w p j e0) e0
      ((s != t) && w && (m * n == 0) && p == 0)
  | .fin _ _ _, .fin _ _ _, .inf w => { code := ffInf f w }
  | x, y, z =>
    let zero : FVal → Bool := fun v => match v with | .fin _ m _ => m == 0 | _ => false
    let sgn : FVal → Bool := fun v => match v with | .fin s _ _ => s | .inf s => s | .nan => false
    if zero x || zero y then { code := ffNan f, nv := true }
    else
      let s := sgn x != sgn y
      match z with
      | .inf w => if w = s then { code := ffInf f s } else { code := ffNan f, nv := true }
      | _ => { code := ffInf f s }

/-- A positive quotient num ÷ den × 2^e, rounded once. -/
def ffQuot (f : FFmt) (neg : Bool) (num den : Nat) (e : Int) : FRes :=
  let k := f.mb + 4 + Nat.log2 den + 1
  let n := num <<< k
  ffFin f neg (n / den) (e - k) (decide (n % den ≠ 0))

/-- Division (R230: a non-zero dividend over zero gives a signed infinity and no flag). -/
def ffDiv (f : FFmt) (a b : Nat) : FRes :=
  match ffDecode f a, ffDecode f b with
  | .nan, _ => { code := ffNan f }
  | _, .nan => { code := ffNan f }
  | .inf _, .inf _ => { code := ffNan f, nv := true }
  | .inf s, .fin t _ _ => { code := ffInf f (s != t) }
  | .fin s _ _, .inf t => { code := ffZero f (s != t) }
  | .fin s m e, .fin t n k =>
    if n = 0 then (if m = 0 then { code := ffNan f, nv := true } else { code := ffInf f (s != t) })
    else if m = 0 then { code := ffZero f (s != t) }
    else ffQuot f (s != t) m n (e - k)

/-- One step of the bitwise integer square root: `fuel` counts result bits still to settle. -/
def isqrtAux (n : Nat) : Nat → Nat → Nat
  | 0, r => r
  | fuel + 1, r =>
    let c := r + 2 ^ fuel
    if c * c ≤ n then isqrtAux n fuel c else isqrtAux n fuel r

/-- The integer square root, rounded down. -/
def isqrt (n : Nat) : Nat := isqrtAux n (Nat.log2 n / 2 + 1) 0

/-- The square root of m × 2^e as (root, exponent, sticky) with at least `p` bits. -/
def sqrtApprox (m : Nat) (e : Int) (p : Nat) : Nat × Int × Bool :=
  let odd := (e % 2).toNat
  let n := m <<< (2 * p + odd)
  let r := isqrt n
  (r, (e - odd) / 2 - p, decide (r * r ≠ n))

/-- Square root (R230). -/
def ffSqrt (f : FFmt) (a : Nat) : FRes :=
  match ffDecode f a with
  | .nan => { code := ffNan f }
  | .inf s => if s then { code := ffNan f, nv := true } else { code := ffInf f false }
  | .fin s m e =>
    if m = 0 then { code := ffZero f s }
    else if s then { code := ffNan f, nv := true }
    else
      let r := sqrtApprox m e (f.mb + 8)
      ffFin f false r.1 r.2.1 r.2.2

/-- Reciprocal square root of m × 2^e, exact and rounded once: √(2^-e ÷ m). -/
def ffRsqrtPos (f : FFmt) (m : Nat) (e : Int) : FRes :=
  -- 1 ÷ √(m 2^e) = √(2^(2p) ÷ m · 2^(-e-2p)); a floor of the quotient keeps the floor of the root
  let odd := (e % 2).toNat
  let p := f.mb + 8 + Nat.log2 m + 2
  let num := 2 ^ (2 * p)
  let q := num / (m <<< odd)
  let r := isqrt q
  ffFin f false r (-((e - odd) / 2) - p) (decide (r * r ≠ q ∨ num % (m <<< odd) ≠ 0))

/-- Reciprocal square root (R230). -/
def ffRsqrt (f : FFmt) (a : Nat) : FRes :=
  match ffDecode f a with
  | .nan => { code := ffNan f }
  | .inf s => if s then { code := ffNan f, nv := true } else { code := ffZero f false }
  | .fin s m e =>
    if m = 0 then { code := ffInf f s }
    else if s then { code := ffNan f, nv := true }
    else ffRsqrtPos f m e

/-- Comparison of two values that are not NaN: negative, zero or positive, with -0 equal to +0. -/
def fvCmp (x y : FVal) : Int :=
  match x, y with
  | .fin s m e, .fin t n k =>
    let e0 := min e k
    let a := alignTo s m e e0
    let b := alignTo t n k e0
    if a < b then -1 else if b < a then 1 else 0
  | .inf s, .inf t => if s = t then 0 else if s then -1 else 1
  | .inf s, _ => if s then -1 else 1
  | _, .inf t => if t then 1 else -1
  | _, _ => 0

/-- Whether a code is a NaN. -/
def ffIsNan (f : FFmt) (a : Nat) : Bool := ffDecode f a == .nan

/-- Whether a code is an infinity. -/
def ffIsInf (f : FFmt) (a : Nat) : Bool :=
  match ffDecode f a with | .inf _ => true | _ => false

/-- Whether a code is finite. -/
def ffIsFin (f : FFmt) (a : Nat) : Bool :=
  match ffDecode f a with | .fin _ _ _ => true | _ => false

/-- a < b; false when either is a NaN. -/
def ffLt (f : FFmt) (a b : Nat) : Bool :=
  match ffDecode f a, ffDecode f b with
  | .nan, _ => false
  | _, .nan => false
  | x, y => decide (fvCmp x y < 0)

/-- a = b as values; false when either is a NaN. -/
def ffEq (f : FFmt) (a b : Nat) : Bool :=
  match ffDecode f a, ffDecode f b with
  | .nan, _ => false
  | _, .nan => false
  | x, y => decide (fvCmp x y = 0)

/-- Conversion between float formats with one rounding; a NaN becomes the canonical NaN. -/
def ffConv (f g : FFmt) (a : Nat) : FRes :=
  match ffDecode f a with
  | .nan => { code := ffNan g }
  | .inf s => { code := ffInf g s }
  | .fin s m e => ffFin g s m e

/-- The float code written with an exact zero as +0 (R161). -/
def posZero (f : FFmt) (r : FRes) : FRes :=
  if r.code = ffZero f true then { r with code := 0 } else r

/-! ## Exponential, logarithm and the logistic function

R230 and R250 ask for the exact result rounded once. The functions are evaluated in fixed point with
`wp` fraction bits and an error far below the last bit kept, which is taken as sticky. PRESUMED: no operand
lies so close to a rounding boundary that `wp` bits do not decide it. -/

/-- Fraction bits of the fixed-point evaluation. -/
def wp : Nat := 320

/-- The sum of t^k ÷ k! for the terms that `n` further steps reach, in fixed point. -/
def expSeries (t : Nat) : Nat → Nat → Nat → Nat
  | 0, _, _ => 0
  | n + 1, k, term => term + expSeries t n (k + 1) (term * t / 2 ^ wp / (k + 1))

/-- The series of atanh(z) = z + z³÷3 + …, in fixed point; `zz` is z². -/
def atanhSeries (zz : Nat) : Nat → Nat → Nat → Nat
  | 0, _, _ => 0
  | n + 1, k, term => term / (2 * k + 1) + atanhSeries zz n (k + 1) (term * zz / 2 ^ wp)

/-- ln 2 in fixed point: 2 atanh(1÷3). -/
def ln2Fix : Nat := 2 * atanhSeries (2 ^ wp / 9) 110 0 (2 ^ wp / 3)

/-- e^x for x = v ÷ 2^wp (v signed), as (m, e, sticky): m × 2^e. -/
def expFix (v : Int) : Nat × Int :=
  let k := v / (ln2Fix : Int)
  let t := (v - k * ln2Fix).toNat
  -- e^t with t in [0, ln 2): halve the argument eight times and square back
  let h := t / 2 ^ 8
  let r := expSeries h 60 0 (2 ^ wp)
  let sq := fun x : Nat => x * x / 2 ^ wp
  (sq (sq (sq (sq (sq (sq (sq (sq r))))))), k - wp)

/-- x = ± m × 2^e as a fixed-point integer with `wp` fraction bits, rounded down in magnitude. -/
def toFix (neg : Bool) (m : Nat) (e : Int) : Int :=
  let s := e + wp
  let v : Nat := if 0 ≤ s then m <<< s.toNat else m >>> (-s).toNat
  if neg then -(v : Int) else v

/-- e^x rounded once (R230, R250). -/
def ffExp (f : FFmt) (a : Nat) : FRes :=
  match ffDecode f a with
  | .nan => { code := ffNan f }
  | .inf s => if s then { code := 0 } else { code := ffInf f false }
  | .fin s m e =>
    if m = 0 then { code := ffFin f false 1 0 |>.code }
    else
      let big : Int := e + (Nat.log2 m : Int)
      if big ≥ 12 then (if s then { code := 0 } else { code := ffInf f false, of := true })
      else if big < -(f.mb : Int) - 3 then
        -- 1 ± a value far below half an ulp of 1: the rounding is to 1
        { code := (ffFin f false 1 0).code }
      else
        let r := expFix (toFix s m e)
        ffFin f false r.1 r.2 true

/-- ln of a positive m × 2^e, as a signed fixed-point integer. -/
def lnFix (m : Nat) (e : Int) : Int :=
  -- x = y × 2^k with y in [1, 2), and in [√½, √2) after centring
  let l := Nat.log2 m
  let y0 := if l ≤ wp then m <<< (wp - l) else m >>> (l - wp)
  let k0 : Int := e + l
  let c := decide (y0 * y0 > 2 * 2 ^ (2 * wp))
  let y := if c then y0 / 2 else y0
  let k := if c then k0 + 1 else k0
  let one := 2 ^ wp
  let neg := decide (y < one)
  let d := if neg then one - y else y - one
  let z := d * one / (y + one)
  let a := 2 * atanhSeries (z * z / one) 130 0 z
  k * (ln2Fix : Int) + (if neg then -(a : Int) else a)

/-- ln x rounded once (R230). -/
def ffLog (f : FFmt) (a : Nat) : FRes :=
  match ffDecode f a with
  | .nan => { code := ffNan f }
  | .inf s => if s then { code := ffNan f, nv := true } else { code := ffInf f false }
  | .fin s m e =>
    if m = 0 then { code := ffInf f true }
    else if s then { code := ffNan f, nv := true }
    else
      let v := lnFix m e
      if m = 2 ^ (Nat.log2 m) ∧ e + (Nat.log2 m : Int) = 0 then { code := 0 }
      else ffFin f (decide (v < 0)) v.natAbs (-(wp : Int)) true

/-- 1 ÷ (1 + e^-x) rounded once (R230). -/
def ffSig (f : FFmt) (a : Nat) : FRes :=
  match ffDecode f a with
  | .nan => { code := ffNan f }
  | .inf s => if s then { code := 0 } else { code := (ffFin f false 1 0).code }
  | .fin s m e =>
    if m = 0 then { code := (ffFin f false 1 (-1)).code }
    else
      let big : Int := e + (Nat.log2 m : Int)
      if big ≥ 8 then (if s then { code := 0 } else { code := (ffFin f false 1 0).code })
      else if big < -(f.mb : Int) - 6 then { code := (ffFin f false 1 (-1)).code }
      else
        -- e^-|x| = r × 2^j in (0, 1): 1÷(1+q) for x > 0, q÷(1+q) for x < 0
        let r := expFix (toFix true m e)
        let q := if 0 ≤ r.2 + wp then r.1 <<< (r.2 + wp).toNat else r.1 >>> (-(r.2 + wp)).toNat
        let den := 2 ^ wp + q
        let num := if s then q else 2 ^ wp
        ffFin f false ((num <<< wp) / den) (-(wp : Int)) true

end Sys2Proof.Machine
end

