-- ==== Sys2Proof/Machine/Formats.lean ====
section
/-! DEFINITION. Element formats, block scales, widening to binary32 and conversion of a block
(02_number_formats.md). -/

namespace Sys2Proof.Machine

/-! ## The operand format word (R66) -/

/-- The fields of an operand format word. -/
structure FmtWord where
  fmt : Nat
  bsize : Nat
  axis : Nat
  sfmt : Nat
  smode : Nat
  rnd : Bool
  nonsat : Bool
  deriving DecidableEq, Repr

/-- R66. -/
def fmtWord (w : Nat) : FmtWord :=
  { fmt := bits w 0 4, bsize := bits w 4 3, axis := bits w 7 2, sfmt := bits w 9 1,
    smode := bits w 10 2, rnd := bit w 12, nonsat := bit w 13 }

/-- How R67 judges an operand format word. -/
inductive FmtCheck where
  | good
  | badReserved
  | badField
  deriving DecidableEq, Repr

/-- R67. -/
def fmtCheck (w : Nat) : FmtCheck :=
  let f := fmtWord w
  if bits w 14 2 ≠ 0 then .badReserved
  else if f.fmt ≥ 12 ∨ f.axis = 3 ∨ f.smode = 3 then .badField
  else if f.fmt = 10 then (if bits w 4 8 = 0 then .good else .badField)
  else if f.fmt = 11 then (if bits w 4 10 = 0 then .good else .badField)
  else if f.bsize ≥ 5 then .badField
  else if f.axis = 2 ∧ f.bsize ≠ 1 ∧ f.bsize ≠ 2 then .badField
  else .good

/-- Elements along one side of a block (R66, R69). -/
def blkSize (f : FmtWord) : Nat := 2 ^ (f.bsize + 3)

/-- Whether a format has a block scale (R50). -/
def scaled (fmt : Nat) : Bool := decide (fmt < 10)

/-- Whether a format carries a zero point. -/
def isUQ (fmt : Nat) : Bool := fmt == 8 || fmt == 9

/-- Whether a format is a Ceris logarithmic one. -/
def isCL (fmt : Nat) : Bool := fmt == 0 || fmt == 1

/-- Whether a format can hold a NaN in an element code (R50). -/
def nanElem (fmt : Nat) : Bool := fmt == 0 || fmt == 1 || fmt == 5 || fmt == 6

/-- Bits of one element (R50). -/
def elemBits (fmt : Nat) : Nat :=
  match fmt with
  | 0 => 4 | 1 => 6 | 2 => 4 | 3 => 6 | 4 => 6 | 5 => 8 | 6 => 8 | 7 => 8 | 8 => 4 | 9 => 8 | 10 => 16
  | _ => 32

/-- Digits of one element (R74). -/
def digits (fmt : Nat) : Nat :=
  match fmt with
  | 0 => 1 | 1 => 1 | 2 => 1 | 3 => 2 | 4 => 2 | 5 => 2 | 6 => 2 | 7 => 4 | 8 => 2 | 9 => 4 | _ => 4

/-- Mantissa width, exponent width and bias of the floating element formats (R57, R58). -/
def fltParm (fmt : Nat) : Nat × Nat × Nat :=
  match fmt with
  | 2 => (1, 2, 1) | 3 => (3, 2, 1) | 4 => (2, 3, 3) | 5 => (3, 4, 7) | 6 => (2, 5, 15) | _ => (7, 8, 127)

/-- An element reduced as R74 asks: NaN, an infinity, or a sign, M, E and residue. -/
inductive Elem where
  | nan
  | inf (neg : Bool)
  | fin (neg : Bool) (m : Nat) (e : Int) (r : Nat)
  deriving DecidableEq, Repr

/-- The element value of a code, before the block scale (R53 to R59, R74). -/
def elemDecode (fmt code : Nat) : Elem :=
  match fmt with
  | 0 =>
    let m := code % 8
    if m = 0 then (if code % 16 = 8 then .nan else .fin false 0 0 0)
    else .fin (bit code 3) 1 (((m : Int) - 7) / 2) ((m + 1) % 2)
  | 1 =>
    let m := code % 32
    if m = 0 then (if code % 64 = 32 then .nan else .fin false 0 0 0)
    else .fin (bit code 5) 1 (((m : Int) - 31) / 2) ((m + 1) % 2)
  | 7 => let q := sext 8 (code % 256); .fin (decide (q < 0)) q.natAbs (-6) 0
  | 8 => .fin false (code % 16) 0 0
  | 9 => .fin false (code % 256) 0 0
  | 10 =>
    match ffDecode bf16F (code % 65536) with
    | .nan => .nan
    | .inf s => .inf s
    | .fin s m e => .fin s m e 0
  | 11 =>
    match ffDecode f32F (code % 2 ^ 32) with
    | .nan => .nan
    | .inf s => .inf s
    | .fin s m e => .fin s m e 0
  | _ =>
    let p := fltParm fmt
    let mb := p.1; let eb := p.2.1; let b := p.2.2
    let f := code % 2 ^ mb
    let e := bits code mb eb
    let s := bit code (mb + eb)
    if fmt = 5 ∧ code % 128 = 127 then .nan
    else if fmt = 6 ∧ e = 31 then (if f = 0 then .inf s else .nan)
    else .fin s (if e = 0 then f else f + 2 ^ mb) ((max e 1 : Nat) - (b : Int) - mb) 0

/-- A block scale as the integer exponent and residue of R65; none for the NaN scale. -/
def scaleDecode (sfmt c : Nat) : Option (Int × Nat) :=
  if c % 256 = 255 then none
  else if sfmt = 0 then some ((c % 256 : Nat) - (127 : Int), 0)
  else
    let k : Int := (c % 256 : Nat) - (128 : Int)
    some (k / 2, (k % 2).toNat)

/-- An element with its block scale and zero point applied (R52, R61, R56): the residue is carried into the
exponent, so it is 0 or 1. -/
def scaledElem (fmt sfmt code scale zp : Nat) : Elem :=
  let applyZp : Elem → Elem := fun x =>
    match x with
    | .fin _ m e r =>
      if isUQ fmt then
        let z := if fmt = 8 then zp % 16 else zp % 256
        let q : Int := (m : Int) - z
        .fin (decide (q < 0)) q.natAbs e r
      else x
    | _ => x
  if scaled fmt then
    match scaleDecode sfmt scale with
    | none => .nan
    | some (es, rs) =>
      match applyZp (elemDecode fmt code) with
      | .fin s m e r => .fin s m (e + es + ((r + rs) / 2 : Nat)) ((r + rs) % 2)
      | x => x
  else elemDecode fmt code

/-- The binary32 constant 0x3FB5_04F3 is 11,863,283 × 2^-23 (R106). -/
def sqrt2c : Nat := 11863283

/-- Widening of a reduced element to a binary32 code (R77). Every zero becomes +0, that of a BF16 or FP32 operand, stream
element or Coelostat source included; where a unit takes such a code as a plain number (gathers, CVT, collectives) a −0
keeps its sign (DESIGN CHOICE, log 100: R53 reads every zero as zero, R77 asks the exact value, R230 a zero of its sign). -/
def widenElem : Elem → Nat
  | .nan => ffNan f32F
  | .inf s => ffInf f32F s
  | .fin s m e r =>
    if m = 0 then 0
    else if r = 0 then (ffRound f32F s m e false).1
    else (ffRound f32F s (m * sqrt2c) (e - 23) false).1

/-- Widening of a stored element to a binary32 code (R77). -/
def widen (fmt sfmt code scale zp : Nat) : Nat := widenElem (scaledElem fmt sfmt code scale zp)

/-! ## Memory layout (R71) -/

/-- Bytes of `n` packed elements. -/
def packedLen (fmt n : Nat) : Nat :=
  if elemBits fmt = 6 then cdiv n 4 * 3 else cdiv (n * elemBits fmt) 8

/-- The code of element `i` of a packed row. -/
def unpackElem (fmt : Nat) (row : Bytes) (i : Nat) : Nat :=
  match elemBits fmt with
  | 4 => bits (byteAt row (i / 2)).toNat (4 * (i % 2)) 4
  | 6 => bits (le row (3 * (i / 4)) 3) (6 * (i % 4)) 6
  | 8 => (byteAt row i).toNat
  | 16 => le row (2 * i) 2
  | _ => le row (4 * i) 4

/-- The bytes of element `i` of a row: the first byte and the byte count. -/
def elemSpan (fmt i : Nat) : Nat × Nat :=
  match elemBits fmt with
  | 4 => (i / 2, 1)
  | 6 =>
    let lo := 3 * (i / 4) + 6 * (i % 4) / 8
    let hi := 3 * (i / 4) + (6 * (i % 4) + 5) / 8
    (lo, hi - lo + 1)
  | 8 => (i, 1)
  | 16 => (2 * i, 2)
  | _ => (4 * i, 4)

/-- A packed row with element `i` replaced. -/
def packElem (fmt : Nat) (row : Bytes) (i code : Nat) : Bytes :=
  match elemBits fmt with
  | 4 =>
    let b := (byteAt row (i / 2)).toNat
    putBytes row (i / 2) [BitVec.ofNat 8 (setBits b (4 * (i % 2)) 4 code)]
  | 6 =>
    let w := le row (3 * (i / 4)) 3
    putBytes row (3 * (i / 4)) (leBytes 3 (setBits w (6 * (i % 4)) 6 code))
  | 8 => putBytes row i [BitVec.ofNat 8 code]
  | 16 => putBytes row (2 * i) (leBytes 2 code)
  | _ => putBytes row (4 * i) (leBytes 4 code)

/-- Packs consecutive codes from element 0 (R71). -/
def packCodes (fmt : Nat) (codes : List Nat) : Bytes :=
  let row := zeroBytes (packedLen fmt codes.length)
  (codes.zipIdx).foldl (fun r c => packElem fmt r c.2 c.1) row

/-! ## Conversion from binary32 (R78 to R91) -/

/-- One element to convert: the binary32 code, the draw of R174, and how 05_output_conversion.md marks it. -/
structure ConvIn where
  x : Nat
  draw : Nat := 0
  /-- R182: excluded from scale selection and always saturating. -/
  forceSat : Bool := false
  /-- R181: extracted; written as the code of value zero. -/
  outlier : Bool := false
  /-- R163: treated as a NaN input. -/
  poison : Bool := false
  deriving DecidableEq, Repr

/-- A converted block. -/
structure ConvOut where
  codes : List Nat
  scale : Nat
  zp : Nat
  clipped : List Bool
  /-- The block reads as NaN: it took scale 0xFF under R78 or R83, or its given scale is 0xFF (R79). -/
  nanBlock : Bool
  /-- The block took scale 0xFF under R78 or R83, which is written even under smode GIVEN (R90). -/
  took : Bool
  deriving DecidableEq, Repr

/-- The largest finite magnitude of an element format as (m, e). -/
def maxFinite (fmt : Nat) : Nat × Int :=
  match fmt with
  | 2 => (6, 0) | 3 => (60, -3) | 4 => (28, 0) | 5 => (448, 0) | 6 => (57344, 0) | 7 => (127, -6) | _ => (1, 0)

/-- emax of scale selection. -/
def emaxOf (fmt : Nat) : Int :=
  match fmt with
  | 2 => 2 | 3 => 2 | 4 => 4 | 5 => 8 | 6 => 15 | _ => 0

/-- A quotient |x| ÷ s, with s = √2^t, as (n, e, sticky): the value lies in [n, n + 1) × 2^e and equals
n × 2^e when sticky is false. The residue case takes 64 extra bits. -/
def quotSqrt2 (m : Nat) (e t : Int) : Nat × Int × Bool :=
  if m = 0 then (0, 0, false)
  else if t % 2 = 0 then (m, e - t / 2, false)
  else (isqrt (2 * m * m <<< 128), e - t / 2 - 1 - 64, true)

/-- The exponent of the unit in the last place of a quotient on a format's unbounded grid (R80). -/
def gridUlp (fmt n : Nat) (e : Int) : Int :=
  if fmt = 7 then -6
  else
    let p := fltParm fmt
    max (e + (Nat.log2 n : Int)) (1 - (p.2.2 : Int)) - p.1

/-- floor(n × 2^e ÷ 2^u). -/
def floorTo (n : Nat) (e u : Int) : Nat :=
  if u ≤ e then n <<< (e - u).toNat else n >>> (u - e).toNat

/-- RNE of n × 2^e (sticky) to a multiple of 2^u (R80). -/
def rneTo (n : Nat) (e u : Int) (st : Bool) : Nat :=
  if u ≤ e then n <<< (e - u).toNat else rneShift n (u - e).toNat st

/-- Rounding of a quotient to a floating or integer grid: the multiple of 2^u and u (R80, R82). -/
def roundGrid (fmt : Nat) (rnd : Bool) (draw n : Nat) (e : Int) (st : Bool) : Nat × Int :=
  let u := gridUlp fmt n e
  if rnd then
    let a := floorTo n e u
    let d := floorTo n e (u - 24) - a <<< 24
    (if bits draw 40 24 < d then a + 1 else a, u)
  else (rneTo n e u st, u)

/-- Whether k × 2^u exceeds the largest finite magnitude of the format. -/
def aboveMax (fmt k : Nat) (u : Int) : Bool :=
  let mx := maxFinite fmt
  let e0 := min u mx.2
  decide (k <<< (u - e0).toNat > mx.1 <<< (mx.2 - e0).toNat)

/-- The code of the magnitude k × 2^u, at most the largest finite one, with its sign (R53: zero has sign 0). -/
def gridCode (fmt : Nat) (neg : Bool) (k : Nat) (u : Int) : Nat :=
  if k = 0 then 0
  else if fmt = 7 then (if neg then 256 - k else k)
  else
    let p := fltParm fmt
    let mb := p.1; let eb := p.2.1; let b := p.2.2
    -- k < 2^(mb+1) or k = 2^(mb+1) after a carry, so the field arithmetic carries by itself
    let mag := if k < 2 ^ mb then k else ((u + mb + b).toNat <<< mb) + (k - 2 ^ mb)
    mag ||| (b2n neg <<< (mb + eb))

/-- The code of the largest finite magnitude with its sign. -/
def maxCode (fmt : Nat) (neg : Bool) : Nat :=
  match fmt with
  | 0 => 7 ||| (b2n neg <<< 3)
  | 1 => 31 ||| (b2n neg <<< 5)
  | 2 => 7 ||| (b2n neg <<< 3)
  | 3 => 31 ||| (b2n neg <<< 5)
  | 4 => 31 ||| (b2n neg <<< 5)
  | 5 => 0x7E ||| (b2n neg <<< 7)
  | 6 => 0x7B ||| (b2n neg <<< 7)
  | _ => if neg then 0x81 else 0x7F

/-- The canonical NaN code of a format (R60). -/
def nanCode (fmt : Nat) : Nat :=
  match fmt with
  | 0 => 8 | 1 => 32 | 5 => 0x7F | 6 => 0x7F | 10 => 0x7FC0 | _ => 0x7FC00000

/-- The lattice point n of R81 of a non-zero |x| = m × 2^e. -/
def latticePoint (m : Nat) (e : Int) : Int :=
  let l := Nat.log2 m
  let k := e + l
  -- F is the 23-bit fraction field; a binary32 significand has at most 24 bits
  let f := (m <<< (23 - l)) % 2 ^ 23
  if f < 0x1A827A then 2 * k else if f < 0x5A827A then 2 * k + 1 else 2 * k + 2

/-- floor(2 × log2(m × 2^e)). -/
def floorLog2x2 (m : Nat) (e : Int) : Int := 2 * e + (Nat.log2 (m * m) : Int)

/-- floor((a + b√2) × 2^-k) for integers a and b. -/
def floorSqrt2 (a b : Int) (k : Nat) : Int :=
  let z : Int := if 0 ≤ b then isqrt (2 * b.natAbs * b.natAbs)
    else -(isqrt (2 * b.natAbs * b.natAbs) : Int) - 1
  (a + z) / (2 ^ k : Nat)

/-- Stochastic rounding of |x| = m × 2^e on the lattice of a scale √2^t: the unclamped magnitude code (R82).
`top` is 7 or 31. -/
def clStochastic (top : Int) (m : Nat) (e t : Int) (draw : Nat) : Int :=
  let k := floorLog2x2 m e - t
  let lowM := decide (top + k < 1)
  let j := if lowM then 1 - top else k
  -- y ÷ √2^j with y = |x| ÷ √2^t, as u (even) or w√2 (odd), over 2^-d
  let odd := decide ((t + j) % 2 = 1)
  let ew := e - (t + j) / 2 - (if odd then 1 else 0)
  let e0 := min ew 0
  let w : Int := (m <<< (ew - e0).toNat : Nat)
  let one : Int := (1 <<< (-e0).toNat : Nat)
  let a : Int := if lowM then (if odd then 0 else w) else (if odd then 2 * w - one else w - one)
  let b : Int := if lowM then (if odd then w else 0) else w - one
  let exactPt := !lowM && !odd && decide (w = one)
  let d := if exactPt then 0 else floorSqrt2 (a * 2 ^ 24) (b * 2 ^ 24) (-e0).toNat
  let up := decide ((bits draw 40 24 : Int) < d)
  if lowM then (if up then 1 else 0) else if up then top + k + 1 else top + k

/-- The unclamped magnitude code of a CL element (R81, R82); 0 is zero. -/
def clRound (fmt : Nat) (rnd : Bool) (draw m : Nat) (e t : Int) : Int :=
  let top : Int := if fmt = 0 then 7 else 31
  if m = 0 then 0
  else if rnd then clStochastic top m e t draw
  else
    let n := latticePoint m e
    let c := top + n - t
    if 1 ≤ c then c
    else
      -- |x| > 2^-4 × s (2^-16 × s): compared through the squares
      let lim : Int := if fmt = 0 then t - 8 else t - 32
      let e0 := min (2 * e) lim
      if (m * m) <<< (2 * e - e0).toNat > 1 <<< (lim - e0).toNat then 1 else 0

/-- The value √2^t of a scale code, as t; the raw code may pass 0xFE (R85). -/
def scaleT (sfmt : Nat) (c : Int) : Int := if sfmt = 0 then 2 * (c - 127) else c - 128

/-- R89. -/
def clampScale (c : Int) : Nat := if c < 0 then 0 else if c > 254 then 254 else c.toNat

/-- x ÷ s + z as floor and sticky on a grid of 2^e0 (R80, R87): (floor, e0, sticky). -/
def uqQuot (neg : Bool) (m : Nat) (e t : Int) (z : Nat) : Int × Nat × Bool :=
  let q := quotSqrt2 m e t
  let e0 := min q.2.1 0
  let v : Int := (q.1 <<< (q.2.1 - e0).toNat : Nat)
  let fl := if neg then (if q.2.2 then -v - 1 else -v) else v
  (fl + (z <<< (-e0).toNat : Nat), (-e0).toNat, q.2.2)

/-- RNE of a floored value (with sticky) over 2^k to an integer. -/
def rneFloor (v : Int) (k : Nat) (st : Bool) : Int :=
  if k = 0 then v
  else
    let q := v / (2 ^ k : Nat)
    let r := v % (2 ^ k : Nat)
    let h : Int := (2 ^ (k - 1) : Nat)
    if r > h ∨ (r = h ∧ (st = true ∨ q % 2 = 1)) then q + 1 else q

/-- Order of two exact values s m 2^e. -/
def dyLt (a b : Bool × Nat × Int) : Bool :=
  let e0 := min a.2.2 b.2.2
  decide (alignTo a.1 a.2.1 a.2.2 e0 < alignTo b.1 b.2.1 b.2.2 e0)

/-- Scale code and zero point that smode MX or FIT selects from the finite elements (R84 to R89). -/
def chooseScale (f : FmtWord) (fin : List (Bool × Nat × Int)) : Nat × Nat :=
  let one := if f.sfmt = 0 then 0x7F else 0x80
  let nz := fin.filter (fun v => v.2.1 != 0)
  if nz.isEmpty then (one, 0)
  else if isUQ f.fmt then
    let zero : Bool × Nat × Int := (false, 0, 0)
    let lo := fin.foldl (fun a v => if dyLt v a then v else a) zero
    let hi := fin.foldl (fun a v => if dyLt a v then v else a) zero
    let qmax := if f.fmt = 8 then 15 else 255
    let e0 := min lo.2.2 hi.2.2
    let span := (alignTo hi.1 hi.2.1 hi.2.2 e0 - alignTo lo.1 lo.2.1 lo.2.2 e0).toNat
    -- the smallest scale value √2^t with √2^t × qmax ≥ span × 2^e0, compared through squares
    let fits : Nat → Bool := fun c =>
      let t := scaleT f.sfmt c
      let b := min t (2 * e0)
      decide ((qmax * qmax) <<< (t - b).toNat ≥ (span * span) <<< (2 * e0 - b).toNat)
    let c := ((List.range 255).find? fits).getD 254
    let q := uqQuot false lo.2.1 lo.2.2 (scaleT f.sfmt c) 0
    let z := rneFloor q.1 q.2.1 q.2.2
    (c, (min (max z 0) qmax).toNat)
  else
    let am := nz.foldl (fun a v => if dyLt (false, a.2) (false, v.2) then v else a) (false, 0, 0)
    let m := am.2.1
    let e := am.2.2
    if isCL f.fmt then
      let n := latticePoint m e
      (clampScale (if f.sfmt = 0 then 127 - (-n) / 2 else 128 + n), 0)
    else
      let em := emaxOf f.fmt
      let c := clampScale (if f.sfmt = 0 then e + (Nat.log2 m : Int) - em + 127
        else 128 + floorLog2x2 m e - 2 * em)
      if f.smode = 1 then
        let q := quotSqrt2 m e (scaleT f.sfmt c)
        let k := roundGrid f.fmt false 0 q.1 q.2.1 q.2.2
        (if aboveMax f.fmt k.1 k.2 then clampScale (c + 1) else c, 0)
      else (c, 0)

/-- One converted element: the code, whether it counts as clipped (R83), and whether it forces a NaN block. -/
structure ConvElem where
  code : Nat
  clip : Bool := false
  nanBlk : Bool := false
  deriving DecidableEq, Repr

/-- The overflow rule of R83 for a signed format. -/
def overflowElem (fmt : Nat) (nonsat forceSat neg : Bool) : ConvElem :=
  if nonsat && !forceSat then
    if fmt = 6 then { code := if neg then 0xFC else 0x7C, clip := true }
    else if nanElem fmt then { code := nanCode fmt, clip := true }
    else { code := 0, clip := true, nanBlk := true }
  else { code := maxCode fmt neg, clip := true }

/-- Rounds one element against the scale √2^t and applies the overflow rule (R80 to R83, R78). With rnd = SR an element of
a CL format may round above the top code under smode MX and FIT too, and then overflows as R82 says, although R83 and R86
say that it never does (DESIGN CHOICE, log 88). -/
def convElem (f : FmtWord) (t : Int) (zp : Nat) (i : ConvIn) : ConvElem :=
  if i.outlier then { code := if isUQ f.fmt then zp else 0 }
  else
    match (if i.poison then FVal.nan else ffDecode f32F i.x) with
    | .nan => { code := nanCode f.fmt }
    | .inf s => { code := if f.fmt = 6 then (if s then 0xFC else 0x7C) else nanCode f.fmt }
    | .fin s m e =>
      if isUQ f.fmt then
        let qmax : Int := if f.fmt = 8 then 15 else 255
        let q := uqQuot s m e t zp
        let c : Int :=
          if f.rnd then
            let a := q.1 / (2 ^ q.2.1 : Nat)
            let d := (q.1 - a * (2 ^ q.2.1 : Nat)) * 2 ^ 24 / (2 ^ q.2.1 : Nat)
            if (bits i.draw 40 24 : Int) < d then a + 1 else a
          else rneFloor q.1 q.2.1 q.2.2
        if c < 0 then { code := 0, clip := true }
        else if c > qmax then { code := qmax.toNat, clip := true }
        else { code := c.toNat }
      else if isCL f.fmt then
        let c := clRound f.fmt f.rnd i.draw m e t
        let top : Int := if f.fmt = 0 then 7 else 31
        if c > top then overflowElem f.fmt f.nonsat i.forceSat s
        else if c ≤ 0 then { code := 0 }
        else { code := c.toNat ||| (b2n s <<< (if f.fmt = 0 then 3 else 5)) }
      else
        let q := quotSqrt2 m e t
        let k := roundGrid f.fmt f.rnd i.draw q.1 q.2.1 q.2.2
        if aboveMax f.fmt k.1 k.2 then overflowElem f.fmt f.nonsat i.forceSat s
        else { code := gridCode f.fmt s k.1 k.2 }

/-- The NaN block of R78, R79 and R83: scale 0xFF, every code 0, zero point 0. -/
def nanBlockOut (n : Nat) (clipped : List Bool) : ConvOut :=
  { codes := List.replicate n 0, scale := 0xFF, zp := 0, clipped, nanBlock := true, took := true }

/-- Conversion of the real elements of one block of a scaled format (R78 to R90). `given` holds the scale and
zero point under smode GIVEN. -/
def convBlock (f : FmtWord) (given : Option (Nat × Nat)) (xs : List ConvIn) : ConvOut :=
  let n := xs.length
  let noClip := List.replicate n false
  let special : ConvIn → Bool := fun i =>
    !i.outlier && (i.poison || !(ffIsFin f32F i.x))
  if !nanElem f.fmt && xs.any special then nanBlockOut n noClip
  else
    let fin := xs.filterMap (fun i =>
      if i.outlier || i.forceSat || i.poison then none
      else match ffDecode f32F i.x with
        | .fin s m e => some (s, m, e)
        | _ => none)
    let sz := given.getD (chooseScale f fin)
    let z := if f.fmt = 8 then sz.2 % 16 else sz.2
    -- R79: a given scale of 0xFF stands as it is, and every element is code 0
    if sz.1 % 256 = 255 then { nanBlockOut n noClip with zp := if isUQ f.fmt then z else 0, took := false }
    else
      let es := xs.map (convElem f (scaleT f.sfmt sz.1) z)
      if es.any (·.nanBlk) then nanBlockOut n (es.map (·.clip))
      else { codes := es.map (·.code), scale := sz.1, zp := if isUQ f.fmt then z else 0,
             clipped := es.map (·.clip), nanBlock := false, took := false }

/-- Conversion of a binary32 code to BF16 (R91): the code and whether it overflowed. -/
def toBf16 (rnd nonsat : Bool) (draw x : Nat) : Nat × Bool :=
  match ffDecode f32F x with
  | .nan => (0x7FC0, false)
  | .inf s => (ffInf bf16F s, false)
  | .fin s _ _ =>
    let mag := x % 2 ^ 31
    let lo := mag % 65536
    let hi := mag / 65536
    let up := if rnd then decide (bits draw 40 24 < lo <<< 8)
      else decide (lo > 0x8000 ∨ (lo = 0x8000 ∧ hi % 2 = 1))
    let r := if up then hi + 1 else hi
    if r ≥ 0x7F80 then ((if nonsat then 0x7F80 else 0x7F7F) ||| (b2n s <<< 15), true)
    else if r = 0 then (0, false)
    else (r ||| (b2n s <<< 15), false)

/-- The binary32 code of a BF16 code. -/
def bf16To32 (c : Nat) : Nat :=
  match ffDecode bf16F c with
  | .nan => ffNan f32F
  | _ => (c % 65536) <<< 16

/-- Sum of element values before the block scale, whole and half parts merged through c and rounded once
(R176, R177). The sum of values that hold an infinity is that infinity, and of both infinities, or of a NaN, a NaN. -/
def blockSum (fmt : Nat) (codes : List Nat) : Nat :=
  let es := codes.map (elemDecode fmt)
  let infs := fun (s : Bool) => es.any (fun e => decide (e = .inf s))
  if es.any (fun e => decide (e = .nan)) || (infs false && infs true) then ffNan f32F
  else if infs false then ffInf f32F false
  else if infs true then ffInf f32F true
  else
    let e0 : Int := -160
    let part : Nat → Int := fun r => (es.map (fun e => match e with
      | .fin s m k q => if q = r then alignTo s m k e0 else 0
      | _ => 0)).foldl (· + ·) 0
    (ffOfInt f32F (part 0 * 2 ^ 23 + part 1 * sqrt2c) (e0 - 23)).code

end Sys2Proof.Machine
end

