-- ==== Sys2Proof/Machine/Dot.lean ====
section
/-! DEFINITION. The exact dot-product pipeline (03_dot_product.md). -/

namespace Sys2Proof.Machine

/-- An exact dyadic number m × 2^e. -/
structure Dy where
  m : Int
  e : Int
  deriving DecidableEq, Repr

/-- Zero. -/
def dyZero : Dy := ⟨0, 0⟩

/-- Exact addition. -/
def dyAdd (a b : Dy) : Dy :=
  if a.m = 0 then b
  else if b.m = 0 then a
  else
    let e0 := min a.e b.e
    ⟨a.m * (2 ^ (a.e - e0).toNat : Nat) + b.m * (2 ^ (b.e - e0).toNat : Nat), e0⟩

/-- Rounding to `p` significant bits, to nearest with ties to even (R104); zero is held as zero. -/
def dyRound (p : Nat) (a : Dy) : Dy :=
  if a.m = 0 then dyZero
  else
    let n := a.m.natAbs
    let l := Nat.log2 n + 1
    if l ≤ p then a
    else
      let q : Int := rneShift n (l - p) false
      ⟨if a.m < 0 then -q else q, a.e + (l - p : Nat)⟩

/-- An element pair of one k position; `neg` is the inverted sign of order 4 of R145. -/
structure Pair where
  a : Elem
  b : Elem
  neg : Bool := false
  deriving DecidableEq, Repr

/-- The classes of R110. -/
inductive PairClass where
  | nan
  | inf (neg overflow : Bool)
  | ordinary (neg : Bool) (m : Nat) (e : Int) (r : Nat)
  deriving DecidableEq, Repr

/-- R110. Residues are 0 or 1 here, so the residue total is at most 2. -/
def classify (p : Pair) : PairClass :=
  match p.a, p.b with
  | .nan, _ => .nan
  | _, .nan => .nan
  | .inf s, .inf t => .inf ((s != t) != p.neg) false
  | .inf s, .fin t m _ _ => if m = 0 then .nan else .inf ((s != t) != p.neg) false
  | .fin s m _ _, .inf t => if m = 0 then .nan else .inf ((s != t) != p.neg) false
  | .fin s m e r, .fin t n k q =>
    let mn := m * n
    let neg := (s != t) != p.neg
    let ex := e + k + ((r + q) / 2 : Nat)
    let rho := (r + q) % 2
    -- exact |a × b| against 2^128: with ρ = 1 through the squares
    let big : Bool :=
      if mn = 0 then false
      else if rho = 0 then decide ((Nat.log2 mn : Int) + ex ≥ 128)
      else decide ((Nat.log2 (2 * mn * mn) : Int) + 2 * ex ≥ 256)
    if big then .inf neg true else .ordinary neg mn ex rho

/-- The special tag of R111. -/
inductive Tag where
  | none
  | inf (neg : Bool)
  | nan
  deriving DecidableEq, Repr

/-- The state of one output element in an accumulator bank (R104, R108, R111, R114, R132). -/
structure Acc where
  w : Dy := dyZero
  h : Dy := dyZero
  acc : Nat := 0
  tag : Tag := .none
  nv : Bool := false
  of : Bool := false
  deriving DecidableEq, Repr

/-- R111. -/
def joinTag (a : Acc) (t : Tag) : Acc :=
  match a.tag, t with
  | .none, x => { a with tag := x }
  | .nan, _ => a
  | .inf _, .nan => { a with tag := .nan }
  | .inf s, .inf q => if s = q then a else { a with tag := .nan, nv := true }
  | .inf _, .none => a

/-- The accumulator that starts from an initial value (R108). -/
def accInit (x : Nat) : Acc :=
  match ffDecode f32F x with
  | .nan => { tag := .nan, nv := true }
  | .inf s => { tag := .inf s }
  | .fin _ m _ => { acc := if m = 0 then 0 else x }

/-- The highest non-zero digit index of a significand (R75). -/
def topDigit (m : Nat) : Nat := Nat.log2 m / 2

/-- The largest digit-product exponent of an ordinary pair of non-zero finite elements (R94, R100). -/
def pairTop (p : Pair) : Option Int :=
  match p.a, p.b with
  | .fin _ m e r, .fin _ n k q =>
    if m = 0 ∨ n = 0 then none
    else some (e + k + ((r + q) / 2 : Nat) + 2 * topDigit m + 2 * topDigit n)
  | _, _ => none

/-- A bin of R101: the exact sum over 2^L rounded once to an integer, times 2^L. -/
def binRound (v : Dy) (l : Int) : Dy :=
  if v.m = 0 then dyZero
  else if l ≤ v.e then v
  else
    let q : Int := rneShift v.m.natAbs (l - v.e).toNat false
    ⟨if v.m < 0 then -q else q, l⟩

/-- One group: the pairs are classified and joined, the bins are summed, rounded and added to the narrow
accumulators (R99 to R104). `g` is the group length. -/
def groupStep (g : Nat) (ps : List Pair) (a : Acc) : Acc :=
  let cls := ps.map (fun p => (p, classify p))
  let a1 := cls.foldl (fun (acc : Acc) (c : Pair × PairClass) =>
    match c.2 with
    | .nan => { joinTag acc .nan with nv := true }
    | .inf s ov =>
      let j := joinTag acc (.inf s)
      if ov then { j with of := true } else j
    | .ordinary _ _ _ _ => acc) a
  let ord := cls.filter (fun c => match c.2 with | .ordinary _ _ _ _ => true | _ => false)
  let emax := (ord.filterMap (fun c => pairTop c.1)).foldl
    (fun (m : Option Int) e => some (match m with | some x => max x e | none => e)) none
  match emax with
  | none => a1
  | some em =>
    let l := em - 26 + (Nat.log2 g : Int)
    let sum : Nat → Dy := fun r => ord.foldl (fun acc c =>
      match c.2 with
      | .ordinary s m e q => if q = r then dyAdd acc ⟨if s then -(m : Int) else m, e⟩ else acc
      | _ => acc) dyZero
    { a1 with w := dyRound 28 (dyAdd a1.w (binRound (sum 0) l)),
              h := dyRound 28 (dyAdd a1.h (binRound (sum 1) l)) }

/-- A binary32 code as an exact dyadic; zero for a NaN or infinity. -/
def dyOf32 (x : Nat) : Dy :=
  match ffDecode f32F x with
  | .fin s m e => ⟨if s then -(m : Int) else m, e⟩
  | _ => dyZero

/-- Promotion (R106, R112). A negative y that is not zero and rounds to zero gives −0: R106 asks for +0 from an exact zero
only, where the pseudocode has every zero as +0 (DESIGN CHOICE, log 88). -/
def promote (a : Acc) : Acc :=
  if ffIsInf f32F a.acc then { a with w := dyZero, h := dyZero }
  else
    let y := dyAdd (dyAdd (dyOf32 a.acc) a.w) ⟨a.h.m * sqrt2c, a.h.e - 23⟩
    let r := ffOfInt f32F y.m y.e
    let b : Acc := { a with w := dyZero, h := dyZero, acc := if y.m = 0 then 0 else r.code }
    if r.of then { joinTag b (.inf (decide (y.m < 0))) with of := true }
    else b

/-- All groups of a dot product in ascending k, with promotion every `p` groups and after the last
(R105, R106). `n` counts groups since the last promotion. -/
def runGroups (g p : Nat) : List (List Pair) → Nat → Acc → Acc
  | [], n, a => if n = 0 then a else promote a
  | ps :: rest, n, a =>
    let b := groupStep g ps a
    if n + 1 ≥ p then runGroups g p rest 0 (promote b) else runGroups g p rest (n + 1) b

/-- One correction at the correction port (R109). -/
def correct (a : Acc) (c : Nat) : Acc :=
  match ffDecode f32F c with
  | .nan => { joinTag a .nan with nv := true }
  | .inf s => joinTag a (.inf s)
  | .fin _ _ _ =>
    if ffIsInf f32F a.acc then a
    else
      let r := posZero f32F (ffAdd f32F a.acc c)
      let b : Acc := { a with acc := r.code }
      if r.of then { joinTag b (.inf (bit r.code 31)) with of := true } else b

/-- The final value of R113. -/
def accFinal (a : Acc) : Nat :=
  match a.tag with
  | .none => a.acc
  | .inf s => ffInf f32F s
  | .nan => ffNan f32F

/-- A whole dot product from its groups, initial value and corrections. -/
def dotProduct (g p : Nat) (groups : List (List Pair)) (init : Nat) (corr : List Nat) : Acc :=
  corr.foldl correct (runGroups g p groups 0 (accInit init))

end Sys2Proof.Machine
end

