-- ==== Sys2Proof/Config.lean ====
section
/-! DEFINITION. What one module of the ZV-OM4096 fixes and the manual leaves open: device identity,
keys, public-key cryptography, images, and the free values (notes/assumptions). -/

namespace Sys2Proof.Config

/-- A value that the manual states no number for: nothing can be proved of it. The argument is the
free-value counter of State. DESIGN CHOICE: a free value. -/
opaque freeValue : Nat → BitVec 64

/-- The slot that selection takes in a tensor entry whose bytes break the layout (08_training_step.md R270: undefined
selection), by the entry's value, the committed step and the kind (true: compute copy): none, or slot 0 or 1.
DESIGN CHOICE: a free value. -/
opaque slotChoice : (entry committed : Nat) → (copy : Bool) → Option (Fin 2)

/-- The 256-bit unique device secret in fuses (15_security.md R500), as bytes. -/
opaque deviceSecret : Bytes

/-- The Device Serial Number (R477, R501). -/
opaque deviceSerial : BitVec 64

/-- The digest of firmware signing key k that the ROM holds (R497). -/
opaque romKeyDigest : Nat → Bytes

/-- The bytes of the boot ROM and of the Night Assistant ROM (R499). -/
opaque bootRom : Bytes
/-- The Night Assistant ROM. -/
opaque nightRom : Bytes

/-- The Zalavaune service key (R515). -/
opaque serviceKey : Bytes

/-- ML-DSA-65 of FIPS 204: whether a signature over a message verifies under a public key and a context. -/
opaque mldsaVerify : (pub msg ctx sig : Bytes) → Bool

/-- The public key of the deterministic key generation from a 32-byte seed. -/
opaque mldsaPublic : (seed : Bytes) → Bytes

/-- A signature by the key pair of a seed, over a message under a context. -/
opaque mldsaSign : (seed msg ctx : Bytes) → Bytes

/-- ML-KEM-768 of FIPS 203: the encapsulation key of the key pair generated at start `n` (R502). -/
opaque mlkemPublic : Nat → Bytes

/-- Decapsulation under the key of start `n`: the shared secret, or none where it fails. -/
opaque mlkemDecap : Nat → Bytes → Option Bytes

/-- The certificates in flash (R501): 1 DeviceID's, issued by the manufacturing CA, and 2 the CA's own, issued by the root,
for a public key and the subject serial number. -/
opaque certificate : (kind : Nat) → (publicKey serial : Bytes) → Bytes

/-- The part of the Alias certificate that is signed (R500): X.509 v3 over the Alias public key, MR0 and MR1 in an extension,
and the subject serial number. -/
opaque aliasBody : (publicKey mrs serial : Bytes) → Bytes

/-- A certificate of its signed part and the signature over it (RFC 5280). -/
opaque sealCert : (body signature : Bytes) → Bytes

/-- The public key of the manufacturing CA. -/
opaque caPublic : Bytes

/-- The version that the boot ROM reports (16_firmware.md R522). -/
opaque romVersion : BitVec 24

/-- The 32-byte value that the service connector issues as its vendor challenge of number n (R515). -/
opaque challengeValue : Nat → Bytes

/-- The mean of an INT32 collective: the sum and N. No result is stated for it (R455 item 3). -/
opaque int32Mean : (sum : BitVec 32) → (n : Nat) → BitVec 32

/-- The status of an event or failure-log entry to which R585 assigns none, by the kind of happening: a position in the
list of statuses. -/
opaque unnamedStatus : Nat → Nat

/-- The free-running rate that a replica reading at one core voltage has at another, in mV (R568 step 1): the manual
does not give the scaling. -/
opaque replicaAt : (reading fromMv toMv : Nat) → Nat

/-- Whether a ratio that is no whole number of units is rounded up (R567): the manual states no rounding. -/
opaque roundsUp : (num den : Nat) → Bool

/-- The bytes of section `id` of handoff record number `n` (R536): the manual names what a section holds, not its
layout. -/
opaque handoffSection : (id n : Nat) → Bytes

/-- The code that FWU_STATUS gives for the outcome of the last update (R530): confirmed or reverted. -/
opaque updateOutcome : Bool → BitVec 8

/-- The time in nanoseconds, from the moment at which a port might first train, after which it completes configuration
requests; 100 ms where it names more (R578 gives that bound alone). -/
opaque configReady : (port : Nat) → Nat

/-- Whether the error of Control Cluster failure number `n`, in its memory or the firmware area, struck the handoff record
(R593): the command does not say where it struck. -/
opaque recordStruck : (n : Nat) → Bool

end Sys2Proof.Config
end

