-- ==== Sys2Proof/Machine/State.lean ====
section
/-! DEFINITION. The state of the ZV-OM4096 block as plain data, the reasons a step can stop, and the state after
reset. The rule that names each part stands beside it; INVENTORY.md lists every field with its reset value. -/

namespace Sys2Proof.Machine

/-- The status codes of R585. -/
inductive Status where
  | ok | nv | of | singular | infRow | maskedRow
  | clipExceed | blinkExceed | updateDone | versionPinned | lateExcluded
  | addrError | poisoned | windowDeny | indexRange | storeRange | uncorrected | population | slotNone
  | ccmSeq | ccmFill | ccmNoFrame | ccmDisabled | ccmPool
  | timeout | staleRole | noRoute | linkDrop | miswired
  | checkFail | mismatch | noSlot | orderChanged | a2aOverflow
  | keyFail | counterStale | badReserved | badOpcode | badField | coreUnavail | queueErr | aborted | pqStall
  | streamEnd | plateStarve | ruQueue | lateDrop
  | refused | fwState | fwVersion | mbxBusy | configRange | fwuReverted | quiesceLate | limiter | pointWithdrawn
  | slowLink | opticsHot | railFail | fwFatal
  deriving DecidableEq, Repr

/-- Why the block stops. The manual names no command that stops it: every error is a status, a counter, an event or
poison, and the block goes on. -/
inductive Fault where
  /-- Raised by no command. Safe. -/
  | none
  deriving DecidableEq, Repr

/-- Why a command has no meaning. -/
inductive Refusal where
  /-- Raised by `exec` for a command that the model gives no meaning. Safe. -/
  | notModelled (mnemonic : String)
  deriving DecidableEq, Repr

/-! ## What leaves the block -/

/-- What the block drives outward, in order (14_host_interface.md, 12_fabric.md, 17_power_thermal_ageing.md). -/
inductive Output where
  /-- A PCIe memory write on a port, with its poisoned bit (R332). -/
  | hostWrite (port : HPort) (addr : Nat) (data : Bytes) (poisoned : Bool)
  /-- A PCIe memory read that the module issues, with its tag. -/
  | hostRead (port : HPort) (addr len tag : Nat)
  /-- The completion of a read that a host issued, with its poisoned bit. -/
  | readDone (port : HPort) (data : Bytes) (poisoned : Bool)
  /-- A read that the host's port answers with Unsupported Request or Completer Abort. -/
  | readFail (port : HPort)
  /-- A configuration request answered with Configuration Request Retry Status (R578). -/
  | cfgRetry (port : HPort)
  /-- A read of a doorbell word is issued (R360). -/
  | doorbellRead (queue : Nat)
  /-- An MSI-X message on a port (R371, R486). -/
  | msix (port : HPort) (vector : Nat)
  /-- A packet handed to a fabric port (R413). -/
  | packet (port : Nat) (bytes : Bytes)
  /-- A fabric port enters a state of R408, which its lasers and marker codewords show. -/
  | link (port state : Nat)
  /-- The node id and port number that a fabric port sends in PARAM (R410). -/
  | param (port node : Nat)
  /-- A pin changes level: its name's number in 21_physical_and_electrical.md order, and asserted or not. -/
  | pin (name : String) (asserted : Bool)
  /-- A message on a management binding (R487). -/
  | mctp (binding : MctpBinding) (message : Bytes)
  /-- An answer on the service connector (R514). -/
  | service (data : Bytes)
  deriving DecidableEq, Repr

/-! ## Memory (01_architecture.md R36; 10_memory_and_context.md R331) -/

/-- Every byte of the local address space that holds data, and the poison mark of every 64-byte line. -/
structure Mem where
  /-- (local address, byte), addresses strictly rising, no byte equal to 0. -/
  cells : List Host.Cell
  /-- (local address ÷ 64, poisoned), line numbers strictly rising, no mark equal to false. -/
  poison : List (Nat × Bool)
  deriving DecidableEq, Repr

/-! ## Cores (chapters 01, 04 to 07, 11) -/

/-- The start token of a core for one phase (R379 to R381), with what the op sequencer keeps from the phase. -/
structure Token where
  stream : Nat
  phase : Nat
  off : Nat
  len : Nat
  seed : Nat
  rotSeed : Nat
  step : Nat
  mb : Option Nat
  layer : Nat
  ladder : Bool
  /-- Low bits of the Blink selection (R207); 0 when Blink is off for the layer. -/
  blinkLog2n : Nat
  /-- Ladder entry address latched at the phase start; none when the ladder table is off. -/
  ladderEntry : Option Nat
  deriving DecidableEq, Repr

/-- The Photometer counters of an op (R187). -/
structure Phot where
  converted : Nat
  clipped : Nat
  flushed : Nat
  clamped : Nat
  nonfinite : Nat
  outliers : Nat
  olClipped : Nat
  idle : Nat
  amax : Nat
  deriving DecidableEq, Repr

/-- An op that runs on the Coelostat, the cluster DMA, the page walker, or in an I/O list. -/
structure OpRun where
  tok : Token
  idx : Nat
  desc : Bytes
  status : Status
  /-- The op's writes have landed; OP_COMPLETE may finish it. -/
  finished : Bool
  phot : Phot
  photBase : Nat
  /-- Its place among the ops that share a unit of the cluster, in the order of their issue (R198). -/
  turn : Nat
  deriving DecidableEq, Repr

/-- One member of an LPA op, or the whole of a standalone one (R125, R138). -/
structure LpaMember where
  idx : Nat
  desc : Bytes
  aRec : Bytes
  bRec : Bytes
  dRec : Bytes
  ocs : Bytes
  shadow : Bytes
  status : Status
  nv : Bool
  of : Bool
  /-- R143: its columns are poisoned from the fault onwards. -/
  faulted : Bool
  phot : Phot
  deriving DecidableEq, Repr

/-- One output element of a finished row block before conversion. -/
structure PlateElem where
  /-- Plate row and plate column. -/
  row : Nat
  col : Nat
  /-- Output row m and output column n of the op or member. -/
  m : Nat
  n : Nat
  /-- The wide value, tag and flags that stage 1 of R160 takes, the initial value, and the poison mark. -/
  acc : Acc
  init : Nat
  poison : Bool
  deriving DecidableEq, Repr

/-- A finished plate that waits in its accumulator bank (R132) until its OCS has converted it. -/
structure PlateJob where
  mb : Nat
  array : Nat
  member : Nat
  /-- The imaginary plane of a complex op (R145). -/
  imag : Bool
  elems : List PlateElem
  /-- The plate was held for want of a Plate Queue entry or of room in Blink's queue (R151, R213). -/
  held : Bool
  /-- Its entry of the Plate Queue is reserved (R149); never with dest = 1. -/
  entry : Bool
  deriving DecidableEq, Repr

/-- The initial values that an OCS has loaded into a bank for a plate to come (R133): row block, array, member and plane,
and by plate row and plate column the binary32 code and whether it was read as poisoned. -/
structure BankInit where
  mb : Nat
  array : Nat
  member : Nat
  imag : Bool
  rows : List (List (Nat × Bool))
  deriving DecidableEq, Repr

/-- An element of a stored matrix with its scale code, zero point and poison. -/
structure MCell where
  code : Nat
  scale : Nat
  zp : Nat
  poison : Bool
  deriving DecidableEq, Repr

/-- One column of a weight tile as the weight-load port brought it into the cells (R119, R129): tile number since the op
started, array, member, plane and output column, and the cells from k = 32 times the tile's place in its row block. -/
structure TileCol where
  tile : Nat
  array : Nat
  member : Nat
  imag : Bool
  n : Nat
  cells : List MCell
  deriving DecidableEq, Repr

/-- An LPA op or co-resident group in progress (R127, R138). -/
structure LpaRun where
  tok : Token
  members : List LpaMember
  cfg : Nat
  photBase : Nat
  mb : Nat
  /-- Plates in full accumulator banks, in the order of R142 within a row block. -/
  banks : List PlateJob
  /-- Weight tiles loaded for each array since the op started (R129). -/
  tiles : List Nat
  /-- What the weight registers took in for the row block in progress and beyond; for the whole op where K ≤ 32 (R129,
  R130). -/
  weights : List TileCol
  /-- The initial values that the OCSs have loaded into drained banks for the plates to come (R133). -/
  inits : List BankInit
  /-- Idle ticks of the active arrays (R131, R187). -/
  idle : Nat
  /-- A preempted op has come to the plate boundary at which it pauses (R157). -/
  boundary : Bool
  deriving DecidableEq, Repr

/-- An entry of the Plate Queue (R148), with the plate for which it was reserved (R149). -/
structure Plate where
  fmt : Nat
  codes : List Nat
  scales : List Nat
  zps : List Nat
  nv : Nat
  of : Nat
  poison : Nat
  rowsValid : Nat
  colsValid : Nat
  /-- The stream and phase of its op's list. -/
  stream : Nat
  phase : Nat
  opIdx : Nat
  mb : Nat
  array : Nat
  probId : Nat
  layer : Nat
  status : Status
  /-- The entry is for the imaginary plane of a complex op (R145). -/
  imag : Bool
  filled : Bool
  visible : Bool
  deriving DecidableEq, Repr

/-- A result of the Reduction Unit: one register, or a pair (R248). -/
structure RuRes where
  lo : Nat
  hi : Nat
  pair : Bool
  deriving DecidableEq, Repr

/-- A row or segment that the Reduction Unit is reducing (R249, R250). -/
structure RuRow where
  pushes : Nat
  positions : Nat
  count : Nat
  sum : Nat
  sumsq : Nat
  best : Nat
  bestPos : Nat
  m : Nat
  s : Nat
  nan : Bool
  nanPos : Nat
  pinf : Nat
  ninf : Nat
  deriving DecidableEq, Repr

/-- Reduction Unit state of a register context (R225, R249, R251). -/
structure RuState where
  op : Nat
  seg : Bool
  width : Nat
  nvec : Nat
  open_ : Option RuRow
  queue : List RuRes
  deriving DecidableEq, Repr

/-- A register context of the Vector Engine (R224, R225): lane register r of lane i at key 64 × r + i. -/
structure VeCtx where
  regs : List (Nat × (BitVec 32 × Bool))
  /-- k1 to k7; k0 always reads as all ones. -/
  masks : List (Nat × BitVec 64)
  ru : RuState
  deriving DecidableEq, Repr

/-- A VE op in progress (R233, R234). -/
structure VeRun where
  tok : Token
  idx : Nat
  desc : Bytes
  prog : List Nat
  streams : List Bytes
  gathers : List Bytes
  iter : Nat
  pc : Nat
  /-- Vectors delivered by input streams 0 to 3, and element positions taken by output streams 0 to 3. -/
  inPos : List Nat
  outPos : List Nat
  /-- Elements of each output stream's unfinished block: (binary32 code, poison, element index). -/
  outBuf : List (List (Nat × Bool × Nat))
  /-- Row-status bytes written (R252). -/
  rsPos : Nat
  /-- Lines that its scatters have written (R386). -/
  scattered : List Nat
  nv : Bool
  of : Bool
  infRow : Bool
  maskedRow : Bool
  singular : Bool
  hard : Option Status
  waiting : Bool
  finished : Bool
  deriving DecidableEq, Repr

/-- One compute core (R21): its op sequencer, units, Plate Queue and register contexts. -/
structure Core where
  /-- Start tokens, the running list first; at most four wait behind it (R379). -/
  tokens : List Token
  next : Nat
  /-- The same for the service block that has preempted the core (R241, R398). -/
  svcTokens : List Token
  svcNext : Nat
  /-- A preemption request is in force (R157, R159). -/
  preempt : Bool
  lpa : Option LpaRun
  lpaPaused : Option LpaRun
  /-- The next op of the list as the sequencer looked ahead to it, with the first tiles that the weight-load port has put
  into idle registers (R131). -/
  lpaNext : Option LpaRun
  ve : Option VeRun
  vePaused : Option VeRun
  coe : Option OpRun
  dma : Option OpRun
  ccm : Option OpRun
  pq : List Plate
  /-- Ticks for which the Plate Queue has been full (R153). -/
  pqFull : Nat
  /-- Counted ticks without progress (R46). -/
  noProg : Nat
  ctx0 : VeCtx
  ctx1 : VeCtx
  deriving DecidableEq, Repr

/-- A sampled plate in Blink's queue (R213): what R210 and R211 need of it. -/
structure BlinkSample where
  core : Nat
  stream : Nat
  phase : Nat
  shadow : Bytes
  ladderEntry : Option Nat
  /-- (m, n, value after stage 4, initial value, poisoned), in row-major order. -/
  elems : List (Nat × Nat × Nat × Nat × Bool)
  deriving DecidableEq, Repr

/-- Registers and counters of chapters 01 and 04 to 07. -/
structure ComputeRegs where
  /-- TOP_CORE_AVAIL[c]: default all ones. -/
  coreAvail : List (Nat × BitVec 64)
  slips : BitVec 48
  stepDowns : BitVec 16
  lpaCfg : BitVec 32
  pqStalls : BitVec 32
  memberFaults : BitVec 32
  photBase : BitVec 64
  photDrops : BitVec 32
  ladderBase : BitVec 64
  reruns : BitVec 32
  raises : BitVec 32
  blinkSamples : BitVec 40
  blinkHolds : BitVec 24
  coeNan : BitVec 32
  coePoison : BitVec 32
  laneFaults : BitVec 32
  ruFaults : BitVec 32
  maskedRows : BitVec 32
  infRows : BitVec 32
  singular : BitVec 32
  ridged : BitVec 32
  deriving DecidableEq, Repr

/-! ## Training, update and context cache (chapters 08 to 10) -/

/-- Registers and counters of chapter 08, and the straggler clock of R279. -/
structure TrainRegs where
  slotBase : BitVec 64
  committed : BitVec 32
  flips : BitVec 32
  stepCfg : BitVec 64
  mbBase : BitVec 64
  bankBase : BitVec 64
  excluded : BitVec 32
  carried : BitVec 32
  deferrals : BitVec 32
  expiries : BitVec 32
  deriving DecidableEq, Repr

/-- What the check bytes of a line of DRAM show (R329): nothing, an error confined to one device, or one beyond it. -/
inductive LineErr where
  | none
  | correctable
  | uncorrectable
  deriving DecidableEq, Repr

/-- Registers and counters of chapter 10. -/
structure MemRegs where
  /-- MEM_CFG: pattern, size, rate and cap_gb are written by firmware. -/
  memCfg : BitVec 32
  /-- force_8800 as the last module reset found it (R327). -/
  force8800 : Bool
  scrubCfg : BitVec 32
  sramCorrected : BitVec 32
  sramUncorrected : BitVec 32
  /-- MEM_ECC_COUNT[ch]: (corrected, uncorrected), default (0, 0). -/
  ecc : List (Nat × (BitVec 32 × BitVec 32))
  /-- Lines of DRAM whose check bytes show an error that no access has met yet, by line number (R329). -/
  dramErr : List (Nat × LineErr)
  /-- On-package SRAM lines found uncorrectable once already (R333, R46). -/
  sramBad : List (Nat × Bool)
  seqBase : BitVec 64
  ready : Bool
  sramPool : BitVec 32
  dramBase : BitVec 64
  dramFrames : BitVec 32
  hostBase : BitVec 64
  hostFrames : BitVec 32
  watermark : BitVec 32
  ccmCfg : BitVec 32
  demotions : BitVec 32
  promotions : BitVec 32
  allocFails : BitVec 32
  hostFaults : BitVec 32
  promoteSkips : BitVec 24
  deriving DecidableEq, Repr

/-- A move of a context page (R349). -/
structure CcmMoveRun where
  id : Nat
  promote : Bool
  entryAddr : Nat
  fromTier : Nat
  fromFrame : Nat
  toTier : Nat
  toFrame : Nat
  /-- The core whose PROMOTE waits for this move. -/
  forOp : Option Nat
  deriving DecidableEq, Repr

/-- What the Context Cache Manager holds beside its tables in memory (R337, R344, R348). -/
structure CcmState where
  /-- Free bits set to false for frames in use: SRAM, DRAM and host pools; default free. -/
  usedSram : List (Nat × Bool)
  usedDram : List (Nat × Bool)
  usedHost : List (Nat × Bool)
  handSram : Nat
  handDram : Nat
  /-- A sweep of the pool has started and has not reached its high watermark (R348): SRAM and DRAM. -/
  sweepSram : Bool
  sweepDram : Bool
  moves : List CcmMoveRun
  nextMove : Nat
  /-- Host faults persist (R351). -/
  hostBad : Bool
  deriving DecidableEq, Repr

/-- Registers and counters of chapter 09. -/
structure MuuRegs where
  passCfg : BitVec 32
  listBase : BitVec 64
  listCount : BitVec 32
  step : BitVec 32
  gnorm : BitVec 32
  pass : BitVec 2
  decision : BitVec 2
  status : BitVec 16
  done : BitVec 32
  updated : BitVec 32
  failed : BitVec 32
  deriving DecidableEq, Repr

/-- An update pass in progress (R301, R313): pass one waits under R305, pass two waits on deferrals. -/
structure MuuRun where
  stream : Nat
  phase : Nat
  idx : Nat
  desc : Bytes
  pass : Nat
  seed : Nat
  rotSeed : Nat
  step : Nat
  /-- The straggler deadline in nanoseconds (R279). -/
  deadline : Nat
  /-- Records not yet started, in list order: their index in the list. -/
  todo : List Nat
  /-- Tensors set aside under R279. -/
  deferred : List Nat
  /-- Start of the straggler clock, and whether it has reached the deadline. -/
  clock : Option Nat
  expired : Bool
  deferrals : Nat
  lastWrite : Nat
  updated : Nat
  failed : Nat
  /-- The exact sum of squares of pass one in units of 2^-300, and its non-finite flag (R307, R308). -/
  acc : Nat
  nonfinite : Bool
  /-- The first failure, and the first that stops the pass from starting further tensors (R321). -/
  fail : Option Status
  halt : Option Status
  /-- The local address of the access that halted the pass. -/
  haltAt : Nat
  deriving DecidableEq, Repr

/-- What the training step holds beside its tables in memory (R276 to R286, R303). -/
structure TrnRun where
  /-- Micro-batches that became DONE, by step. -/
  doneBy : List (Nat × Nat)
  /-- Micro-batches whose carried contributions landed, by the step in which they landed. -/
  carriedBy : List (Nat × List Nat)
  /-- The step whose update phase is in progress, the micro-batches done before it and excluded during it. -/
  update : Option Nat
  doneMb : Nat
  excluded : Nat
  /-- The step of the last successful combine since the last pass one. -/
  combined : Option Nat
  deriving DecidableEq, Repr

/-! ## Queues, streams and services (chapter 11) -/

/-- A fetched descriptor of a queue (R362, R367). -/
structure Fetched where
  /-- The model's own number of the descriptor: ring indices start afresh when the queue is enabled again (R362). -/
  uid : Nat
  index : BitVec 32
  desc : Bytes
  /-- Time of arrival (R394). -/
  arrival : Nat
  started : Bool
  /-- The entry block of a WINDOW_SET, read before its tag was verified (R508). -/
  payload : Bytes
  deriving DecidableEq, Repr

/-- A completion record that waits (R370, R401). -/
structure Record where
  index : BitVec 32
  status : Status
  split : Bool
  late : Bool
  parts : BitVec 16
  timestamp : Nat
  irq : Bool
  deriving DecidableEq, Repr

/-- A queue (R354 to R371). -/
structure Queue where
  sq : BitVec 64
  cq : BitVec 64
  db : BitVec 64
  en : Bool
  kind : Bool
  owner : BitVec 2
  msix : BitVec 8
  svc : BitVec 8
  orphaned : Bool
  err : Bool
  head : BitVec 32
  cqTail : BitVec 32
  phase : Bool
  /-- The doorbell word last read: sq_tail and cq_head (R358). -/
  tail : BitVec 32
  cqHead : BitVec 32
  fetched : List Fetched
  held : List Record
  deriving DecidableEq, Repr

/-- An op in flight from an I/O list (R389). -/
structure IoOp where
  idx : Nat
  desc : Bytes
  status : Status
  finished : Bool
  deriving DecidableEq, Repr

/-- A running phase (R377 to R384). -/
structure PhaseRun where
  num : Nat
  record : Bytes
  stepIdx : Nat
  rung : Nat
  /-- Address of the ladder entry latched at the start; none for an ordinary phase or with the table off. -/
  ladderEntry : Option Nat
  /-- The entry's bytes as they were at the start of the run (R218). -/
  ladder : Bytes
  cores : List Nat
  io : List IoOp
  ioNext : Nat
  /-- First stopping status, and every other status that an op gave (R384). -/
  stop : Option Status
  /-- The co-resident members that stopped it, each with its status, where members alone did (R143, R400). -/
  stopBy : List (Nat × Status)
  seen : List Status
  /-- Blink samples not yet evaluated, the largest error and whether one exceeded (R215, R220). -/
  samples : Nat
  errMax : Nat
  exceed : Bool
  /-- Phase pins: (tensor, slot) (R273). -/
  pins : List (Nat × Nat)
  /-- The slot that each binding resolved to at the start, kept through a re-run (R273). -/
  slots : List Nat
  /-- A compute copy that it binds was not the current one (R218). -/
  old : Bool
  /-- Its micro-batch was LATE at the start (R277, R286). -/
  late : Bool
  /-- The binding records as they were resolved at the start (R273, R281). -/
  binds : List Bytes
  /-- TRN_SLOT_BASE, TRN_MB_BASE and TRN_STEP_CFG as they were at the start. -/
  trnSlot : BitVec 64
  trnMb : BitVec 64
  trnStep : BitVec 64
  started : Nat
  /-- Time spent preempted, and the start of a preemption in force (R386). -/
  paused : Nat
  pausedAt : Option Nat
  /-- wd_ms of CMD_CFG as it was at the start. -/
  wdMs : Nat
  deriving DecidableEq, Repr

/-- A running stream (R374 to R386). -/
structure StreamRun where
  /-- The queue whose RUN_STREAM it is, and that descriptor's number. -/
  queue : Option (Nat × Nat)
  svc : Option Nat
  hdr : Bytes
  steps : List Bytes
  /-- The bitmap of core_map as the start check read it: bit n = core n is used. -/
  coreMap : Nat
  nextPhase : Nat
  running : List PhaseRun
  /-- Phases that have completed, newest first (R379). -/
  done : List Nat
  stop : Option Status
  stopBy : List (Nat × Status)
  deriving DecidableEq, Repr

/-- A request of a service block (R394, R395). -/
structure SvcReq where
  queue : Nat
  /-- Its descriptor's number. -/
  uid : Nat
  inAddr : Nat
  outAddr : Nat
  rows : Nat
  variant : Option Nat
  deadline : Nat
  start : Nat
  dropped : Bool
  deriving DecidableEq, Repr

/-- A service block, open or closed (R395 to R398). -/
structure SvcBlock where
  svc : Nat
  /-- The service record as the block opened with it, and from its close on as the close read it. -/
  record : Bytes
  opened : Nat
  close : Nat
  members : List (Option Nat)
  rows : Nat
  reqs : List SvcReq
  /-- How its stream ended, and the members that stopped it, each with its status, where members alone did. -/
  result : Option Status
  resultBy : List (Nat × Status)
  deriving DecidableEq, Repr

/-- What a peer module has answered to a read of a doorbell word or of ring entries (`desc`), until the command processor
takes it (R356): the bytes, and the poison bits of its flits. -/
structure PeerData where
  queue : Nat
  desc : Bool
  data : Bytes
  poison : Nat
  deriving DecidableEq, Repr

/-- The command processor beside its queues and streams. -/
structure CmdState where
  cfg : BitVec 32
  svcBase : BitVec 64
  completed : BitVec 32
  rejected : BitVec 32
  blocks : BitVec 32
  late : BitVec 32
  discarded : BitVec 32
  dropped : BitVec 32
  /-- Queues, by number; the number of the next fetched descriptor; the queue served last (R367). -/
  queues : List (Nat × Queue)
  nextUid : Nat
  lastServed : Nat
  /-- Doorbell reads in flight, and when each polled queue was last read. -/
  dbReads : List Nat
  lastPoll : Nat
  /-- What peers have answered to reads of their doorbell words and rings. -/
  peerData : List PeerData
  /-- Running streams by stream id. -/
  streams : List (Nat × StreamRun)
  /-- FI counters (R390). -/
  counters : List (Nat × BitVec 32)
  /-- The open block of each service, the closed blocks in closing order, and the running one of each. -/
  openBlocks : List SvcBlock
  closedBlocks : List SvcBlock
  runBlocks : List SvcBlock
  /-- When training resumed on a core after a service block, until a block preempts it again (R398): time plus one. -/
  resumed : List (Nat × Nat)
  deriving DecidableEq, Repr

/-! ## Errors and events (19_errors_and_events.md) -/

/-- A coalescing window of R589. -/
structure EventWindow where
  status : Status
  source : Nat
  unit : Nat
  opened : Nat
  count : Nat
  first : Nat
  detail : Bytes
  deriving DecidableEq, Repr

/-- Event and failure-log state (R588 to R593). -/
structure ErrState where
  lastStatus : BitVec 16
  lastSeq : BitVec 32
  nextSeq : BitVec 32
  fwFatal : Bool
  fwRestarts : BitVec 4
  generated : BitVec 32
  coalesced : BitVec 32
  windows : List EventWindow
  /-- Entries of the failure log in flash, oldest first, 64 bytes each. -/
  failLog : List Bytes
  /-- Lifetime powered time in nanoseconds, kept in flash (R591). -/
  poweredNs : Nat
  lost : BitVec 16
  deriving DecidableEq, Repr
/-! ## Host interface (chapter 14) -/

/-- What an outstanding read of host memory serves, beside the reads whose data commands carry themselves. -/
inductive ReadFor where
  /-- The head word of a port's event ring, read before the record given is written, and which of the rings that the port has
  named it belongs to (R532). -/
  | eventHead (record : Bytes) (ring : Nat)
  /-- A line of a READ_REQ for a host window (R424). -/
  | fabric (id line : Nat)
  deriving DecidableEq, Repr

/-- An outstanding read TLP of the module (R484, R485). -/
structure PcieRead where
  port : HPort
  tag : Nat
  what : ReadFor
  /-- When its TLP left. -/
  issued : Nat
  deriving DecidableEq, Repr

/-- A read that waits for one of the outstanding reads of its port (R476). -/
structure ReadWait where
  port : HPort
  addr : Nat
  len : Nat
  what : ReadFor
  deriving DecidableEq, Repr

/-- The event ring of a port (R532). -/
structure EvRing where
  /-- Its number among the rings that the port has named. -/
  no : Nat
  base : Nat
  head : Nat
  sizeLog2 : Nat
  vector : Nat
  count : Nat
  deriving DecidableEq, Repr

/-- One host port: link, configuration space, aperture, counts, mailbox and MSI-X table. -/
structure HostPortState where
  linkUp : Bool
  rate : BitVec 3
  width : BitVec 4
  flit : Bool
  slowLink : Bool
  d3 : Bool
  /-- ASPM L1 enabled by the driver, and the Completion Timeout Value (R476, R485). -/
  aspmL1 : Bool
  cplTimeout : BitVec 4
  /-- The max payload and max read request sizes that the host has set, as coded in Device Control (R476). -/
  maxPayload : BitVec 3
  maxRead : BitVec 3
  /-- The base address registers: each low dword at an even index, its upper half behind it (R478). -/
  bars : List (Nat × BitVec 32)
  /-- Retrains since the link came up below 16 GT/s (R476). -/
  slowTries : BitVec 2
  /-- The PERST input is asserted. -/
  perst : Bool
  /-- When the port might first train: the later of the deassertion of PERST and of step 4 (R578). -/
  trainAt : Option Nat
  /-- The port is lost (R401). -/
  lost : Bool
  aper : BitVec 64
  denied : BitVec 24
  lateCpl : BitVec 16
  mctpDrops : BitVec 16
  /-- MSI-X entries of 16 bytes; default all zeros but the mask bit. -/
  msix : List (Nat × Bytes)
  pba : List (Nat × Bool)
  /-- MBX_CTL, MBX_IN and MBX_OUT (R480, R524). -/
  mbxGo : Bool
  mbxDone : Bool
  mbxIrqEn : Bool
  mbxMsix : BitVec 8
  mbxIn : Bytes
  mbxOut : Bytes
  /-- A response that waits until the host clears done (R524). -/
  mbxHeld : Option Bytes
  /-- The configuration block that takes effect with it (R531). -/
  mbxConfig : Option Bytes
  ring : Option EvRing
  /-- Rings that the port has named. -/
  ringNo : Nat
  /-- Events are counted in ev_drops until a new EVENT_RING_SET (R576). -/
  ringDropped : Bool
  deriving DecidableEq, Repr

/-- The host interface of the module (chapter 14). -/
structure HifState where
  a : HostPortState
  b : HostPortState
  /-- Window Table entries of 32 bytes; default all zeros (R489). -/
  wt : List (Nat × Bytes)
  wtGen : BitVec 32
  denyAddr : BitVec 48
  denyInit : BitVec 3
  denyWrite : Bool
  denyCount : BitVec 12
  reads : List PcieRead
  readWait : List ReadWait
  nextTag : Nat
  /-- The endpoint id of each management binding (R487): SMBus, I3C, VDM A, VDM B; 0 while none is assigned. -/
  eids : List (Nat × BitVec 8)
  /-- A WINDOW_SET whose table is in force and which waits for lines granted before it (R494): queue, its descriptor's
  number, and the first number of a fabric access granted after it. -/
  wtWait : Option (Nat × Nat × Nat)
  deriving DecidableEq, Repr

/-! ## Security (chapter 15) -/

/-- Measurements, ownership, keys, the connector and the counters of keyed descriptors. -/
structure SecState where
  /-- MR0 to MR7; default 64 zero bytes. -/
  mrs : List (Nat × Bytes)
  mlog : List Bytes
  logTrunc : Bool
  /-- The image digest last extended into MR1 or MR3 (R562). -/
  imageRef : Option Bytes
  /-- The owner public key; none while unclaimed. It persists across every reset, as owner_seq does. -/
  owner : Option Bytes
  ownerSeq : BitVec 32
  rootKey : Option Bytes
  opKey : Option Bytes
  /-- The highest install_seq accepted for each slot since module reset. -/
  rootSeq : Option Nat
  opSeq : Option Nat
  /-- 0 LOCKED, 1 OWNER_OPEN, 2 VENDOR_OPEN; the level of the unlock and its end in nanoseconds. -/
  svc : BitVec 2
  svcLevel : BitVec 2
  svcEnd : Nat
  /-- The value that the vendor challenge issued last. -/
  challenge : Option Bytes
  opened : Bool
  vendorReached : Bool
  liveUpdated : Bool
  aliasKey : Bool
  /-- Which start this is: it selects the ML-KEM key pair of the start (R502). -/
  startNo : Nat
  bootErr : BitVec 3
  keyRevoked : BitVec 4
  svn : BitVec 16
  minSvn : BitVec 16
  keyFails : BitVec 32
  stale : BitVec 32
  qctr : List (Nat × BitVec 64)
  deriving DecidableEq, Repr

/-! ## Firmware (chapter 16) -/

/-- A mailbox request that firmware has taken and not yet answered: FWU_ACTIVATE, or one that waits. -/
structure MbxReq where
  channel : Nat
  message : Bytes
  /-- The key under which it was verified (R529). -/
  key : Option Bytes
  deriving DecidableEq, Repr

/-- Firmware state (R517 to R542, R593). -/
structure FwState where
  /-- 0 ROM_IDLE, 1 LOADING, 2 STARTING, 3 CONFIG_WAIT, 4 RUNNING, 5 UPDATING. -/
  state : BitVec 3
  /-- 0 port A, 1 port B. -/
  loader : BitVec 1
  /-- 0 none, 1 staged, 2 verified, 3 prepare, 4 switch, 5 confirm wait. -/
  phase : BitVec 3
  version : BitVec 24
  evDrops : BitVec 12
  loopHolds : BitVec 4
  updates : BitVec 8
  reverts : BitVec 8
  mbxCtr : List (Nat × BitVec 64)
  /-- The boot ROM or an image serves the mailbox (R524). -/
  mbxReady : Bool
  /-- The image being loaded: the length announced and the bytes so far (R518). -/
  loadLen : Nat
  loadBytes : Bytes
  /-- The running image, the staged one, and the old one kept for revert (R520). -/
  image : Bytes
  staged : Option Bytes
  verified : Bool
  oldImage : Bytes
  /-- The firmware area is reserved (R520). -/
  area : Bool
  powerLimit : BitVec 16
  parkedBypass : Bool
  thermalProfile : BitVec 8
  eventMask : BitVec 32
  preemptMin : BitVec 16
  /-- The configuration block last accepted. -/
  configBlock : Bytes
  /-- The last handoff record written (R536). -/
  handoff : Option Bytes
  /-- The FWU_ACTIVATE that waits for its response (R535). -/
  activate : Option MbxReq
  /-- Vendor MCTP requests queued during an update (R541). -/
  waiting : List MbxReq
  /-- Events that wait in the hardware queue during an update: record and ports. -/
  evQueue : List (Bytes × List HPort)
  /-- The switch began at this time (R538, R539). -/
  switchAt : Nat
  /-- Firmware has taken the loops since the switch. -/
  loopsTaken : Bool
  lastOutcome : BitVec 8
  /-- The time of the last Control Cluster failure (R593). -/
  ccFailAt : Option Nat
  deriving DecidableEq, Repr


/-! ## Power, thermal, ageing, sideband and reset (chapters 01, 17 and 18) -/

/-- A change of the cadence point in progress until its rails settle, or one that waits (R33, R544 to R546). In a change down the cadence has
moved already. -/
structure PointChange where
  fromPoint : Nat
  toPoint : Nat
  origin : PointOrigin
  /-- A guard step-down of R32. -/
  guard : Bool
  deriving DecidableEq, Repr

/-- The readings of the Night Assistant's samplers (R565, R570), as the last samples gave them. -/
structure Sensors where
  /-- P_in and P_pkg in W, input voltage in units of 10 mV, input current in units of 10 mA. -/
  pIn : Nat
  pPkg : Nat
  inMv10 : Nat
  inMa10 : Nat
  /-- VCORE0 to VCORE3, VSRAM, VIO and VAO in mV. -/
  rails : List Nat
  /-- Temperatures in °C: 64 clusters, 8 I/O-die sensors, 16 optical engines, 16 MRDIMMs. -/
  clusters : List Nat
  io : List Nat
  optics : List Nat
  dimms : List Nat
  deriving DecidableEq, Repr

/-- The ceilings of R549, the limiters of R552 and the loops of R550 and R551. -/
structure CeilState where
  point : Nat
  /-- The status that the last request for a point was given (R33, R544); none before the first. -/
  answer : Option Status
  permitted : Nat
  tableMax : Nat
  power : Nat
  thermal : Nat
  /-- Fast-power ceiling; the overcurrent, hot and input-low limiters and the step-down of R538 have fixed values. -/
  fast : Option Nat
  overcurrent : Bool
  hot : Bool
  inputLow : Bool
  loopHold : Bool
  /-- PWRBRK_N has effect. -/
  brake : Bool
  change : Option PointChange
  waiting : Option PointChange
  /-- Times of the last power-loop change, fast-power step and thermal steps. -/
  lastPower : Nat
  lastFast : Option Nat
  lastDown : Nat
  lastUp : Nat
  /-- Since when P_in has stayed below the limit, and Tmax above T_t or below T_r. -/
  belowLimit : Option Nat
  aboveTarget : Option Nat
  belowRelease : Option Nat
  /-- Since when the input current has stayed below 100 A. -/
  belowAmps : Option Nat
  peakW : Nat
  deriving DecidableEq, Repr

/-- Body bias of a base die or of a cluster's stores (R548): reverse 300 mV, reverse 150 mV, none, forward 100 mV. -/
inductive BodyBias where
  | reverse300
  | reverse150
  | zero
  | forward100
  deriving DecidableEq, Repr

/-- How stores are driven at the fixed VSRAM: body bias, read assist and write assist (R548). -/
structure StoreDrive where
  bias : BodyBias
  readAssist : Bool
  writeAssist : Bool
  deriving DecidableEq, Repr

/-- The drive of the base dies at a point (R548). -/
def StoreDrive.ofPoint (q : Nat) : StoreDrive :=
  if q ≤ 1 then { bias := .reverse150, readAssist := false, writeAssist := false }
  else if q ≤ 4 then { bias := .zero, readAssist := false, writeAssist := true }
  else { bias := .forward100, readAssist := true, writeAssist := true }

/-- The drive of a gated cluster's stores, in retention (R548). -/
def StoreDrive.retention : StoreDrive := { bias := .reverse300, readAssist := false, writeAssist := false }

/-- Wear of one compute die (R567, R568). -/
structure DieWear where
  deg : BitVec 16
  degPlan : BitVec 16
  hours : BitVec 32
  /-- Powered seconds since the last full hour. -/
  seconds : Nat
  /-- The readings of the hour so far, and the hourly means, oldest first (R567). -/
  readings : List Int
  history : List (BitVec 16)
  /-- The powered hours at the last re-plan (R568). -/
  planned : BitVec 32
  /-- Offset in units of 5 mV, signed. -/
  offset : BitVec 8
  deriving DecidableEq, Repr

/-- An entry to Closed or Parked (R558): 0 quiescing, 1 to 3 the last abort point reached. -/
structure PowerEntry where
  target : BitVec 3
  origin : BitVec 3
  byHold : Bool
  stage : Nat
  started : Nat
  quiesceMs : Nat
  /-- The POWER_REQ that waits for its answer. -/
  reply : Option MbxReq
  deriving DecidableEq, Repr

/-- A host access that waits for the exit from Closed (R559, R603). -/
inductive HeldAccess where
  | write (port : HPort) (offset size value : Nat)
  | read (port : HPort) (offset size : Nat)
  | write4 (port : HPort) (offset : Nat) (data : Bytes) (poisoned : Bool)
  | read4 (port : HPort) (offset len : Nat)
  | wake (port : HPort) (value : BitVec 32)
  deriving DecidableEq, Repr

/-- What is switched on (R554, R571 to R577). -/
inductive Supply where
  /-- VAO is off. -/
  | off
  /-- Only the Night Assistant domain runs: before step 3, after a trip, or after a rail failure. -/
  | vao
  /-- VIO is on and the I/O die has left reset. -/
  | on
  deriving DecidableEq, Repr

/-- One sideband input (R565). -/
structure SideIn where
  asserted : Bool
  held : Bool
  masked : Bool
  /-- The assertion in force has an effect. -/
  effect : Bool
  /-- Time of the last recognised edge and of the last event. -/
  edge : Nat
  lastEvent : Option Nat
  events : BitVec 32
  suppressed : BitVec 32
  deriving DecidableEq, Repr

/-- Power-management state (chapter 17). -/
structure PwrState where
  /-- 0 Open, 1 Trimmed, 2 Shuttered, 3 Closed, 4 Parked. -/
  state : BitVec 3
  lastAbort : BitVec 2
  cfg : BitVec 32
  ceil : CeilState
  sensors : Sensors
  wear : List DieWear
  entry : Option PowerEntry
  /-- An exit to Open is due: a wake arrived in Closed or Parked, or after abort point 3. -/
  wake : Bool
  /-- POWER_REQs for Open that wait for the exit, with the time of each. -/
  openWait : List (MbxReq × Nat)
  held : List HeldAccess
  /-- Gated clusters, and the time of the last activity of a cluster (R556). -/
  gated : List (Nat × Bool)
  lastUse : List (Nat × Nat)
  /-- The drive of the four base dies (R548); the stores of a gated cluster are in retention. -/
  drive : StoreDrive
  /-- Cadence ticks, and the slips of the ticks in the window of R32, as (tick, cluster, slips). -/
  ticks : Nat
  slipWin : List (Nat × Nat × Nat)
  fastCount : BitVec 16
  overCount : BitVec 16
  hotCount : BitVec 16
  lowCount : BitVec 16
  closedCount : BitVec 16
  parkedCount : BitVec 16
  abortCount : BitVec 16
  refusals : BitVec 16
  /-- Sideband inputs by the numbers of PWR_SB_STATUS. -/
  side : List (Nat × SideIn)
  slotId : BitVec 4
  /-- WAKE_A_N and WAKE_B_N, with the time at which they were asserted (R566). -/
  wakeA : Option Nat
  wakeB : Option Nat
  alert : Option Nat
  thermTrip : Bool
  /-- PRESENT_N is asserted: the module is installed, powered or not (R566, R613). -/
  present : Bool
  deriving DecidableEq, Repr

/-- Reset state (chapter 18). -/
structure RstState where
  supply : Supply
  /-- The last step of R577 that has completed, 0 to 7. -/
  step : Nat
  /-- A cause keeps the module in reset (R572): MODULE_RST_N, or a trip that waits for its recovery. -/
  inReset : Bool
  inputTrip : Bool
  railTries : Nat
  railAt : Nat
  cause : BitVec 3
  dramKept : Bool
  selftestDone : Bool
  railFail : Bool
  startMs : BitVec 16
  /-- When the start began. -/
  startNs : Nat
  perstA : BitVec 32
  hotA : BitVec 32
  perstB : BitVec 32
  hotB : BitVec 32
  bist : List (Nat × BitVec 64)
  deriving DecidableEq, Repr

/-! ## Optical fabric (chapter 12) -/

/-- Whose a fabric transfer is: an op of an I/O list, a cluster DMA's copy, an op fired from a trigger
entry, or a collective. -/
inductive FabOwner where
  | io (stream phase idx : Nat)
  | dma (core : Nat)
  | fired (id : Nat)
  | coll (id : Nat)
  /-- A read of the command processor from a ring (`desc`) or a doorbell word of a peer (R356). -/
  | cmd (queue : Nat) (desc : Bool)
  deriving DecidableEq, Repr

/-- A packet that waits for credits at an output port. -/
structure OutPkt where
  vc : Nat
  down : Bool
  /-- Header and payload flits, the link part not yet written. -/
  bytes : Bytes
  /-- The input port, channel and flits of a buffer that is freed as it leaves (R415, R425). -/
  src : Option (Nat × Nat × Nat)
  /-- The number of a tagged packet within its op, which takes its tag as it leaves (R434, R435), and its time limit. -/
  part : Option Nat
  limitNs : Nat
  /-- The op that waits for it. -/
  owner : Option FabOwner
  deriving DecidableEq, Repr

/-- A fabric port (R408 to R415). -/
structure FabPortState where
  /-- FAB_PORT_CFG as written, and as in force since the last drop to DARK. -/
  cfg : BitVec 64
  act : BitVec 64
  /-- State code of R408, and when it was entered. -/
  st : BitVec 3
  since : Nat
  /-- retrain = 0 keeps it in DARK until FAB_PORT_CFG is written (R411). -/
  stay : Bool
  /-- Its optical engine is too hot (R552). -/
  hot : Bool
  /-- The peer's PARAM has arrived since the port entered PARAM. -/
  paramSeen : Bool
  peerNode : BitVec 16
  peerPort : BitVec 4
  retrains : BitVec 8
  corrected : BitVec 32
  uncorrectable : BitVec 32
  /-- Credits of the eight channels and of the shared pool at the peer (R415). -/
  credits : List Nat
  shared : Nat
  /-- Flits that the input buffer holds for each channel, and credits owed to the peer. -/
  inUse : List Nat
  owed : List Nat
  owedShared : Nat
  queue : List OutPkt
  deriving DecidableEq, Repr

/-- An outstanding tagged packet (R434, R435). -/
structure FabTag where
  fi : Nat
  tag : Nat
  owner : FabOwner
  part : Nat
  injected : Nat
  limitNs : Nat
  deriving DecidableEq, Repr

/-- A fabric op in progress: its failed packets, each with its status (R434). -/
structure FabOp where
  owner : FabOwner
  /-- The FI that carries it out, and the stream and phase of its list. -/
  fi : Nat
  stream : Nat
  phase : Nat
  desc : Bytes
  started : Nat
  failed : List (Nat × Status)
  /-- Parts whose local source could not be read (R372). -/
  badParts : List (Nat × Status)
  deriving DecidableEq, Repr

/-- A packet for a host window that PCIe has not yet taken (R424): the port and bus address that the table in force at
its check gives each of its host-window lines (R494), and the input buffer that an ACK frees. -/
structure HostPost where
  id : Nat
  at_ : Nat
  fi : Nat
  packet : Bytes
  targets : List (Nat × HPort × Nat)
  src : Option (Nat × Nat × Nat)
  deriving DecidableEq, Repr

/-- A packet whole in an input buffer that may not be taken yet: one that came before it on its port and channel still
holds its place (R417). `stalled` says whether PCIe takes no posted write; `src` is port, channel and flits. -/
structure HeldPkt where
  fi : Nat
  bytes : Bytes
  stalled : Bool
  src : Nat × Nat × Nat
  deriving DecidableEq, Repr

/-- A READ_REQ for a host window that waits for PCIe (R424): the lines still out and those that came back. -/
structure HostFetch where
  id : Nat
  at_ : Nat
  fi : Nat
  packet : Bytes
  waits : List Nat
  lines : List HostLine
  src : Option (Nat × Nat × Nat)
  deriving DecidableEq, Repr

/-- A packet of this module that has not left its FI: it is for this node, or no route of the table takes it, and a
tagged one waits for its tag (R418, R435). -/
structure LoopPkt where
  fi : Nat
  bytes : Bytes
  part : Option Nat
  limitNs : Nat
  owner : Option FabOwner
  src : Option (Nat × Nat × Nat)
  deriving DecidableEq, Repr

/-- The fabric (chapter 12). -/
structure FabState where
  nodeId : BitVec 16
  nodeLock : Bool
  en : Bool
  mode : Bool
  designate : BitVec 8
  hold : BitVec 8
  joined : BitVec 8
  bypLock : Bool
  timeout : BitVec 64
  crcDrops : BitVec 32
  staleRole : BitVec 32
  windowDeny : BitVec 32
  hostDrops : BitVec 32
  noRoute : BitVec 32
  routeErr : BitVec 32
  timeouts : BitVec 32
  lateReplies : BitVec 32
  ports : List (Nat × FabPortState)
  /-- Route entries by node id: output port in bits [3:0], valid in bit [4]. -/
  route : List (Nat × BitVec 8)
  /-- Role epochs of the cores (R428). -/
  epochs : List (Nat × BitVec 16)
  tags : List FabTag
  /-- The next tag of each FI, and when each tag was last used: key 2^24 × FI + tag, time plus one. -/
  nextTag : List (Nat × Nat)
  tagUse : List (Nat × Nat)
  ops : List FabOp
  posts : List HostPost
  fetches : List HostFetch
  nextId : Nat
  /-- Packets that have not left their FI. -/
  loop : List LoopPkt
  /-- Packets that wait behind others of their input buffer, in order of arrival (R417). -/
  held : List HeldPkt
  deriving DecidableEq, Repr

/-! ## Collectives (chapter 13) -/

/-- What an op at a place of a list is to a unit that runs it: an op of an I/O list, or one fired from a trigger. -/
inductive OpOwner where
  | io (stream phase idx : Nat)
  | fired (id : Nat)
  deriving DecidableEq, Repr

/-- A segment in end-point mode at its owner: the contributors whose segment has arrived, in arrival order (R456). -/
structure EpSeg where
  seg : Nat
  from_ : List Nat
  poison : Bool
  deriving DecidableEq, Repr

/-- A collective packet that has passed its checks and waits for its collective to issue or to close here: its number among
the packets checked, when and where it came, and the targets of its host-window lines under the table of its check (R463,
R494). -/
structure EarlyPkt where
  id : Nat
  at_ : Nat
  fi : Nat
  packet : Bytes
  targets : List (Nat × HPort × Nat)
  deriving DecidableEq, Repr

/-- An open collective (R449 to R473). -/
structure Coll where
  id : Nat
  owner : OpOwner
  stream : Nat
  phase : Nat
  /-- Step number and late_default of the list that issued it (R467). -/
  step : Nat
  lateDefault : Bool
  desc : Bytes
  /-- Its communicator's record as the op found it (R443). -/
  comm : Bytes
  started : Nat
  /-- Lines of host windows that the source read brought. -/
  host : List HostLine
  /-- First claimed slot; whether slots are held. -/
  first : Nat
  claimed : Bool
  /-- This member has sent ready, the count it reported, and whether a late buffer was added in. -/
  ready : Bool
  count : Nat
  carried : Bool
  /-- The contribution with the late data added, element bytes and then scales (R469). -/
  carry : Option Bytes
  /-- Segments of it that poisoned source or late data enters (R462). -/
  carryBad : List Nat
  snapshot : Bool
  /-- Coordinator: the join records by rank. -/
  joins : List (Nat × Nat)
  /-- What CLOSE said: N, mode, the parent's first slot and the contributors' ranks. -/
  closed : Bool
  closedAt : Nat
  n : Nat
  endPoint : Bool
  parentFirst : Nat
  contribs : List Nat
  /-- Credits towards the parent, and the next segment to combine or to send up. -/
  credits : Nat
  nextUp : Nat
  /-- Child cells that hold a segment: (segment, cell); those that are poisoned. -/
  cells : List (Nat × Nat)
  cellBad : List (Nat × Nat)
  /-- Running CRCs: default 0. -/
  crcs : List (Nat × Nat)
  /-- Chunks for which a combine has found a failure. -/
  badIn : List Nat
  ep : List EpSeg
  /-- Segments of the vector landed here; destination chunks that failed their check, and those that hold poison. -/
  landed : List Nat
  failed : List Nat
  poisoned : List Nat
  /-- The first memory or protection status of a landing here. -/
  memErr : Option Status
  /-- All-to-all: ranks whose count has arrived, the end of the data received last in each window, and the first chunk of
  each that has not been checked. -/
  counted : List Nat
  arrived : List (Nat × Nat)
  nextChunk : List (Nat × Nat)
  /-- When this member came to the segment that it sends or combines next, and when it spent or got a credit last (R465). -/
  lastMove : Nat
  lastCredit : Nat
  /-- When a rank was heard of last after close: by key of its flow, time plus one (R465). -/
  heard : List (Nat × Nat)
  deriving DecidableEq, Repr

/-- A trigger entry that is armed (R474, R475). -/
structure Trigger where
  fi : Nat
  entry : Nat
  counter : Nat
  value : Nat
  desc : Bytes
  stream : Nat
  phase : Nat
  step : Nat
  lateDefault : Bool
  /-- Its counter has satisfied it. -/
  due : Bool
  deriving DecidableEq, Repr

/-- An op that a trigger entry started (R475). -/
structure FiredOp where
  id : Nat
  stream : Nat
  phase : Nat
  /-- Step number and late_default of the list that armed it. -/
  step : Nat
  lateDefault : Bool
  desc : Bytes
  /-- A COLL that R449 holds at issue, and the lines of host windows that its source read brought. -/
  waiting : Bool
  host : List HostLine
  /-- Its status once it has ended. -/
  ended : Option Status
  deriving DecidableEq, Repr

/-- Registers and state of chapter 13. -/
structure CollState where
  commBase : BitVec 64
  completed : BitVec 32
  aborted : BitVec 32
  noSlot : BitVec 32
  orderChanged : BitVec 32
  checkFail : BitVec 32
  mismatch : BitVec 32
  stale : BitVec 32
  lateDropped : BitVec 32
  fired : BitVec 32
  disarmed : BitVec 32
  /-- Busy slots (R445). -/
  busy : List (Nat × Bool)
  /-- The next seq of each communicator, plus one; 0 before the first (R449). -/
  nextSeq : List (Nat × Nat)
  /-- A held ABORT of each communicator: seq and status (R463). -/
  heldAbort : List (Nat × (Nat × Nat))
  /-- Packets for a seq not yet issued or not yet closed here, in arrival order. -/
  early : List EarlyPkt
  colls : List Coll
  triggers : List Trigger
  firedOps : List FiredOp
  nextId : Nat
  deriving DecidableEq, Repr

/-! ## The whole block -/

/-- The state of the block. -/
structure State where
  /-- Commands that wait, first in, first out. -/
  pending : List Instr
  /-- Nanoseconds since module reset. -/
  nowNs : Nat
  /-- The model's own counter behind the free values. -/
  freeCount : Nat
  out : List Output
  mem : Mem
  cr : ComputeRegs
  cores : List (Nat × Core)
  /-- Blink's sample queue of each cluster (R213). -/
  blink : List (Nat × List BlinkSample)
  trn : TrainRegs
  mr : MemRegs
  ccm : CcmState
  muu : MuuRegs
  muuRun : Option MuuRun
  trnRun : TrnRun
  cmd : CmdState
  hif : HifState
  sec : SecState
  fw : FwState
  err : ErrState
  pwr : PwrState
  rst : RstState
  fab : FabState
  coll : CollState
  deriving DecidableEq, Repr

/-- A register context with every register zero (R225). -/
def VeCtx.zero : VeCtx :=
  { regs := [], masks := [], ru := { op := 0, seg := false, width := 0, nvec := 1, open_ := none, queue := [] } }

/-- A core with nothing running. -/
def Core.idle : Core :=
  { tokens := [], next := 0, svcTokens := [], svcNext := 0, preempt := false, lpa := none, lpaPaused := none,
    lpaNext := none, ve := none, vePaused := none, coe := none, dma := none, ccm := none, pq := [], pqFull := 0, noProg := 0,
    ctx0 := VeCtx.zero, ctx1 := VeCtx.zero }

/-- A queue at its reset values. -/
def Queue.reset : Queue :=
  { sq := 0, cq := 0, db := 1, en := false, kind := false, owner := 0, msix := 0, svc := 0, orphaned := false,
    err := false, head := 0, cqTail := 0, phase := true, tail := 0, cqHead := 0, fetched := [], held := [] }

/-- The registers of chapters 01 and 04 to 07 at their Reset column. -/
def ComputeRegs.reset : ComputeRegs :=
  { coreAvail := [], slips := 0, stepDowns := 0, lpaCfg := 0x16, pqStalls := 0, memberFaults := 0, photBase := 0,
    photDrops := 0, ladderBase := 0, reruns := 0, raises := 0, blinkSamples := 0, blinkHolds := 0, coeNan := 0,
    coePoison := 0, laneFaults := 0, ruFaults := 0, maskedRows := 0, infRows := 0, singular := 0, ridged := 0 }

/-- The registers of chapter 08 at their Reset column. -/
def TrainRegs.reset : TrainRegs :=
  { slotBase := 0, committed := 0, flips := 0, stepCfg := 0x7D0, mbBase := 0, bankBase := 0, excluded := 0,
    carried := 0, deferrals := 0, expiries := 0 }

/-- The registers of chapter 10 at their Reset column. -/
def MemRegs.reset : MemRegs :=
  { memCfg := 0, force8800 := false, scrubCfg := 0x000A1801, sramCorrected := 0, sramUncorrected := 0, ecc := [], dramErr := [], sramBad := [],
    seqBase := 0, ready := false, sramPool := 0, dramBase := 0, dramFrames := 0, hostBase := 0, hostFrames := 0,
    watermark := 0x10082010, ccmCfg := 0x12, demotions := 0, promotions := 0, allocFails := 0, hostFaults := 0,
    promoteSkips := 0 }

/-- The registers of chapter 09 at their Reset column. -/
def MuuRegs.reset : MuuRegs :=
  { passCfg := 1, listBase := 0, listCount := 0, step := 0, gnorm := 0, pass := 0, decision := 0, status := 0,
    done := 0, updated := 0, failed := 0 }

/-- A host port at its reset values: no link, no queue, no ring (R574, R480). -/
def HostPortState.reset : HostPortState :=
  { linkUp := false, rate := 0, width := 0, flit := false, slowLink := false, d3 := false, aspmL1 := false,
    cplTimeout := 0, maxPayload := 0, maxRead := 2, bars := [], slowTries := 0, perst := false, trainAt := none, lost := false, aper := 0,
    denied := 0, lateCpl := 0, mctpDrops := 0,
    msix := [], pba := [], mbxGo := false, mbxDone := false, mbxIrqEn := false, mbxMsix := 0, mbxIn := [],
    mbxOut := [], mbxHeld := none, mbxConfig := none, ring := none, ringNo := 0, ringDropped := false }

/-- The host interface at its reset values. -/
def HifState.reset : HifState :=
  { a := HostPortState.reset, b := HostPortState.reset, wt := [], wtGen := 0, denyAddr := 0, denyInit := 0,
    denyWrite := false, denyCount := 0, reads := [], readWait := [], nextTag := 0, eids := [], wtWait := none }

/-- Security state at its reset values: no owner, no key, nothing measured. -/
def SecState.reset : SecState :=
  { mrs := [], mlog := [], imageRef := none, logTrunc := false, owner := none, ownerSeq := 0, rootKey := none, opKey := none,
    rootSeq := none, opSeq := none, svc := 0, svcLevel := 0, svcEnd := 0, challenge := none, opened := false,
    vendorReached := false, liveUpdated := false, aliasKey := false, startNo := 0, bootErr := 0, keyRevoked := 0,
    svn := 0, minSvn := 0, keyFails := 0, stale := 0, qctr := [] }

/-- Firmware state at its reset values. -/
def FwState.reset : FwState :=
  { state := 0, loader := 0, phase := 0, version := 0, evDrops := 0, loopHolds := 0, updates := 0, reverts := 0,
    mbxCtr := [], mbxReady := false, loadLen := 0, loadBytes := [], image := [], staged := none, verified := false,
    oldImage := [], area := false, powerLimit := 3400, parkedBypass := false, thermalProfile := 0, eventMask := 0,
    preemptMin := 0, configBlock := [], handoff := none, activate := none, waiting := [], evQueue := [], switchAt := 0,
    loopsTaken := true, lastOutcome := 0, ccFailAt := none }

/-- A sideband input at reset. -/
def SideIn.reset : SideIn :=
  { asserted := false, held := false, masked := false, effect := false, edge := 0, lastEvent := none, events := 0,
    suppressed := 0 }

/-- A die that nothing has worn. -/
def DieWear.reset : DieWear :=
  { deg := 0, degPlan := 0, hours := 0, seconds := 0, readings := [], history := [], planned := 0, offset := 0 }

/-- Every ceiling as R549 has it before firmware takes the loops. -/
def CeilState.reset : CeilState :=
  { point := 2, answer := none, permitted := 2, tableMax := 6, power := 2, thermal := 2, fast := none, overcurrent := false,
    hot := false, inputLow := false, loopHold := false, brake := false, change := none, waiting := none,
    lastPower := 0, lastFast := none, lastDown := 0, lastUp := 0, belowLimit := none, aboveTarget := none,
    belowRelease := none, belowAmps := none, peakW := 0 }

/-- Sensors that are off read all ones (R565). -/
def Sensors.reset : Sensors :=
  { pIn := 0, pPkg := 0, inMv10 := 0, inMa10 := 0, rails := List.replicate 7 0xFFFF,
    clusters := List.replicate 64 0xFF, io := List.replicate 8 0xFF, optics := List.replicate 16 0xFF,
    dimms := List.replicate 16 0xFF }

/-- Power management at its reset values. -/
def PwrState.reset : PwrState :=
  { state := 0, lastAbort := 0, cfg := 0x640A0002, ceil := CeilState.reset, sensors := Sensors.reset,
    wear := List.replicate 4 DieWear.reset, entry := none, wake := false, openWait := [], held := [], gated := [], lastUse := [],
    drive := StoreDrive.ofPoint 2, ticks := 0, slipWin := [], fastCount := 0, overCount := 0, hotCount := 0, lowCount := 0, closedCount := 0, parkedCount := 0,
    abortCount := 0, refusals := 0, side := [], slotId := 0, wakeA := none, wakeB := none, alert := none,
    thermTrip := false, present := true }

/-- Reset state before the first power-on. -/
def RstState.reset : RstState :=
  { supply := .off, step := 0, inReset := false, inputTrip := false, railTries := 0, railAt := 0, cause := 0,
    dramKept := false, selftestDone := false, railFail := false, startMs := 0, startNs := 0, perstA := 0, hotA := 0,
    perstB := 0, hotB := 0, bist := [] }

/-- A fabric port at reset. -/
def FabPortState.reset : FabPortState :=
  { cfg := 0x00000010FFFF0002, act := 0x00000010FFFF0002, st := 0, since := 0, stay := false, hot := false, paramSeen := false,
    peerNode := 0, peerPort := 0, retrains := 0, corrected := 0, uncorrectable := 0, credits := List.replicate 8 0,
    shared := 0, inUse := List.replicate 8 0, owed := List.replicate 8 0, owedShared := 0, queue := [] }

/-- The fabric at its reset values: every pair joined (R439). -/
def FabState.reset : FabState :=
  { nodeId := 0xFFFF, nodeLock := false, en := false, mode := false, designate := 0, hold := 0xFF, joined := 0xFF,
    bypLock := false, timeout := 0x00C800C800C800C8, crcDrops := 0, staleRole := 0, windowDeny := 0, hostDrops := 0,
    noRoute := 0, routeErr := 0, timeouts := 0, lateReplies := 0, ports := [], route := [], epochs := [], tags := [],
    nextTag := [], tagUse := [], ops := [], posts := [], fetches := [], nextId := 0, loop := [], held := [] }

/-- Collectives at their reset values. -/
def CollState.reset : CollState :=
  { commBase := 0, completed := 0, aborted := 0, noSlot := 0, orderChanged := 0, checkFail := 0, mismatch := 0,
    stale := 0, lateDropped := 0, fired := 0, disarmed := 0, busy := [], nextSeq := [], heldAbort := [], early := [],
    colls := [], triggers := [], firedOps := [], nextId := 0 }

/-- The block right after reset: no supply, every register at its Reset column (R594, R601). -/
def State.reset : State :=
  { pending := [], nowNs := 0, freeCount := 0, out := [], mem := { cells := [], poison := [] },
    cr := ComputeRegs.reset, cores := [], blink := [], trn := TrainRegs.reset, mr := MemRegs.reset,
    ccm := { usedSram := [], usedDram := [], usedHost := [], handSram := 0, handDram := 0, sweepSram := false,
             sweepDram := false, moves := [],
             nextMove := 0, hostBad := false },
    muu := MuuRegs.reset, muuRun := none,
    trnRun := { doneBy := [], carriedBy := [], update := none, doneMb := 0, excluded := 0, combined := none },
    cmd := { cfg := 0x14, svcBase := 0, completed := 0, rejected := 0, blocks := 0, late := 0, discarded := 0,
             dropped := 0, queues := [], nextUid := 0, lastServed := 255, dbReads := [], lastPoll := 0, peerData := [], streams := [], counters := [],
             openBlocks := [], closedBlocks := [], runBlocks := [], resumed := [] },
    hif := HifState.reset, sec := SecState.reset, fw := FwState.reset,
    err := { lastStatus := 0, lastSeq := 0, nextSeq := 0, fwFatal := false, fwRestarts := 0, generated := 0,
             coalesced := 0, windows := [], failLog := [], poweredNs := 0, lost := 0 },
    pwr := PwrState.reset, rst := RstState.reset, fab := FabState.reset, coll := CollState.reset }

end Sys2Proof.Machine
end

