-- ==== Sys2Proof/Machine/Ops.lean ====
section
/-! DEFINITION. The named operations that the meanings share: status codes, the local address map, memory with its
poison marks, events, op lists and their completion. -/

namespace Sys2Proof.Machine

/-- The outcome of a command that has an effect. -/
abbrev Res := Host.Outcome State Fault Refusal

/-- The 16-bit value of a status (R585). -/
def statusCode : Status → Nat
  | .ok => 0x0000 | .nv => 0x0101 | .of => 0x0102 | .singular => 0x0103 | .infRow => 0x0104
  | .maskedRow => 0x0105 | .clipExceed => 0x0201 | .blinkExceed => 0x0202 | .updateDone => 0x0203
  | .versionPinned => 0x0204 | .lateExcluded => 0x0205 | .addrError => 0x0301 | .poisoned => 0x0302
  | .windowDeny => 0x0303 | .indexRange => 0x0304 | .storeRange => 0x0305 | .uncorrected => 0x0306
  | .population => 0x0307 | .slotNone => 0x0308 | .ccmSeq => 0x0309 | .ccmFill => 0x030A
  | .ccmNoFrame => 0x030B | .ccmDisabled => 0x030C | .ccmPool => 0x030D | .timeout => 0x0401
  | .staleRole => 0x0402 | .noRoute => 0x0403 | .linkDrop => 0x0404 | .miswired => 0x0405
  | .checkFail => 0x0501 | .mismatch => 0x0502 | .noSlot => 0x0503 | .orderChanged => 0x0504
  | .a2aOverflow => 0x0505 | .keyFail => 0x0601 | .counterStale => 0x0602 | .badReserved => 0x0603
  | .badOpcode => 0x0604 | .badField => 0x0605 | .coreUnavail => 0x0606 | .queueErr => 0x0607
  | .aborted => 0x0608 | .pqStall => 0x0609 | .streamEnd => 0x060A | .plateStarve => 0x060B
  | .ruQueue => 0x060C | .lateDrop => 0x060D | .refused => 0x0701 | .fwState => 0x0702
  | .fwVersion => 0x0703 | .mbxBusy => 0x0704 | .configRange => 0x0705 | .fwuReverted => 0x0706
  | .quiesceLate => 0x0707 | .limiter => 0x0708 | .pointWithdrawn => 0x0709 | .slowLink => 0x070A
  | .opticsHot => 0x070B | .railFail => 0x070C | .fwFatal => 0x070D

/-- Every status of R585. -/
def allStatus : List Status :=
  [.ok, .nv, .of, .singular, .infRow, .maskedRow, .clipExceed, .blinkExceed, .updateDone, .versionPinned,
   .lateExcluded, .addrError, .poisoned, .windowDeny, .indexRange, .storeRange, .uncorrected, .population,
   .slotNone, .ccmSeq, .ccmFill, .ccmNoFrame, .ccmDisabled, .ccmPool, .timeout, .staleRole, .noRoute,
   .linkDrop, .miswired, .checkFail, .mismatch, .noSlot, .orderChanged, .a2aOverflow, .keyFail,
   .counterStale, .badReserved, .badOpcode, .badField, .coreUnavail, .queueErr, .aborted, .pqStall,
   .streamEnd, .plateStarve, .ruQueue, .lateDrop, .refused, .fwState, .fwVersion, .mbxBusy, .configRange,
   .fwuReverted, .quiesceLate, .limiter, .pointWithdrawn, .slowLink, .opticsHot, .railFail, .fwFatal]

/-- The status of a 16-bit value; none for a value R585 does not list. -/
def statusOf (v : Nat) : Option Status := allStatus.find? (fun s => statusCode s == v)

/-- The stopping statuses of R385: all but OK, UPDATE_DONE, the arithmetic class, the precision and error control
class, LATE_EXCLUDED and ORDER_CHANGED. -/
def stopping (s : Status) : Bool :=
  let h := statusCode s / 256
  !(h == 0 || h == 1 || h == 2 || s == .orderChanged)

/-! ## Address map (R36, R37) -/

/-- First local address of the core stores. -/
def coreStores : Nat := 0x800000000000
/-- Bytes of one core store: 768 KiB. -/
def coreStoreLen : Nat := 0xC0000
/-- First local address of the cluster stores. -/
def clusterStores : Nat := 0x8000C0000000
/-- Bytes of one cluster store: 16 MiB. -/
def clusterStoreLen : Nat := 0x1000000
/-- First local address of the host windows, and the one beyond them. -/
def hostWinLo : Nat := 0xA00000000000
def hostWinHi : Nat := 0xC00000000000
/-- The setup space. -/
def setupLo : Nat := 0xC00000000000
def setupLen : Nat := 0x4000000
/-- The reduction memory: 48 MiB. -/
def redMemLo : Nat := 0xD00000000000
def redMemLen : Nat := 0x3000000

/-- The base of core `n`'s store (R36). -/
def coreBase (n : Nat) : Nat := coreStores + n * coreStoreLen

/-- The base of cluster `c`'s store (R36). -/
def clusterBase (c : Nat) : Nat := clusterStores + c * clusterStoreLen

/-- The contents class of a local address (R36). -/
inductive Region where
  | dram
  | core (n : Nat)
  | cluster (c : Nat)
  | host
  | setup
  | red
  | reserved
  deriving DecidableEq, Repr

/-- R36. -/
def region (a : Nat) : Region :=
  if a < 0x40000000000 then .dram
  else if coreStores ≤ a ∧ a < clusterStores then .core ((a - coreStores) / coreStoreLen)
  else if clusterStores ≤ a ∧ a < clusterStores + 0x40000000 then .cluster ((a - clusterStores) / clusterStoreLen)
  else if hostWinLo ≤ a ∧ a < hostWinHi then .host
  else if setupLo ≤ a ∧ a < setupLo + setupLen then .setup
  else if redMemLo ≤ a ∧ a < redMemLo + redMemLen then .red
  else .reserved

/-- Installed DRAM in bytes: cap_gb of MEM_CFG in decimal gigabytes (R8, R37). -/
def dramBytes (s : State) : Nat := (s.mr.memCfg.toNat >>> 16) * 1000000000

/-- The firmware area: the top 64 MiB of installed DRAM once the image has reserved it (R520). -/
def fwAreaLen (s : State) : Nat := if s.fw.area then 0x4000000 else 0

/-- TOP_CORE_AVAIL bit of core `n` (R46, R47). -/
def coreAvail (s : State) (n : Nat) : Bool :=
  decide (n < 4096) && (smGet (BitVec.allOnes 64) s.cr.coreAvail (n / 64)).getLsbD (n % 64)

/-- A cluster is unavailable when all 64 of its cores are (R37). -/
def clusterAvail (s : State) (c : Nat) : Bool :=
  decide (c < 64) && (smGet (BitVec.allOnes 64) s.cr.coreAvail c != 0)

/-- Whether one local address of module memory exists for an access (R37): installed DRAM, the store of an
available core or cluster, or the reduction memory. The firmware area is an address error to every unit (R520). -/
def addrExists (s : State) (a : Nat) : Bool :=
  match region a with
  | .dram => decide (a < dramBytes s - fwAreaLen s)
  | .core n => coreAvail s n
  | .cluster c => clusterAvail s c
  | .red => true
  | _ => false

/-- The 64-byte lines that `n` bytes from `a` touch. Every boundary of R36 and R37 lies between two lines. -/
def linesOf (a n : Nat) : List Nat :=
  if n = 0 then [] else (List.range ((a + n - 1) / 64 - a / 64 + 1)).map (fun i => 64 * (a / 64 + i))

/-- Whether the `n` bytes from `a` all exist in module memory (R37). They may run from one store into the next. -/
def spanExists (s : State) (a n : Nat) : Bool := (linesOf a n).all (addrExists s)

/-- What a unit may reach, beside R37 (the last column of R36). -/
inductive Reach where
  /-- The VE and RU of core n (R236, R243). -/
  | core (n : Nat)
  /-- Cluster DMAs, and BAR4. -/
  | dma
  /-- The Coelostat and the page walker of cluster c. -/
  | near (c : Nat)
  /-- The CCM: DRAM, and the cluster stores for SRAM-pool frames. -/
  | ccm
  /-- Fabric Interfaces and the collective engine. -/
  | fi
  /-- MUUs, the command processor's tables. -/
  | dram
  deriving DecidableEq, Repr

/-- Whether a unit reaches a region of module memory (R36). Host windows are judged by their own operations. -/
def reaches (r : Reach) (x : Region) : Bool :=
  match r, x with
  | .core n, .core k => n == k
  | .core n, .cluster c => n / 64 == c
  | .core _, .dram => true
  | .dma, .dram => true
  | .dma, .core _ => true
  | .dma, .cluster _ => true
  | .near _, .dram => true
  | .near c, .core k => k / 64 == c
  | .near c, .cluster d => c == d
  | .ccm, .dram => true
  | .ccm, .cluster _ => true
  | .fi, .dram => true
  | .fi, .core _ => true
  | .fi, .cluster _ => true
  | .fi, .red => true
  | .dram, .dram => true
  | _, _ => false

/-- Whether a unit can access `n` bytes at `a`: it reaches every one of them, and they exist. -/
def canAccess (s : State) (r : Reach) (a n : Nat) : Bool :=
  reaches r (region a) && (linesOf a n).all (fun l => addrExists s l && reaches r (region l))

/-! ## Memory operations (R331, R332) -/

/-- The canonical form of memory: addresses and line numbers strictly rising, no byte 0 and no clear mark listed. -/
def Memory.wf (m : Mem) : Bool := smWf 0 m.cells && smWf false m.poison

/-- One byte of module memory; a byte that nothing has written reads 0 (DESIGN CHOICE). -/
def memByte (m : Mem) (a : Nat) : BitVec 8 := smGet 0 m.cells a

/-- The `n` bytes from address `a`. -/
def memRead (m : Mem) (a n : Nat) : Bytes := (List.range n).map (fun i => memByte m (a + i))

/-- The poison mark of the line that holds address `a` (R331). -/
def linePoison (m : Mem) (a : Nat) : Bool := smGet false m.poison (a / 64)

/-- Whether any byte of the `n` bytes from `a` lies in a poisoned line. -/
def spanPoison (m : Mem) (a n : Nat) : Bool :=
  n != 0 && (List.range ((a + n - 1) / 64 - a / 64 + 1)).any (fun i => smGet false m.poison (a / 64 + i))

/-- One byte written, without its poison mark. -/
def memSetByte (m : Mem) (a : Nat) (b : BitVec 8) : Mem := { m with cells := smSet 0 m.cells a b }

/-- The poison mark of line `l` set or cleared. -/
def setPoison (m : Mem) (l : Nat) (p : Bool) : Mem := { m with poison := smSet false m.poison l p }

/-- Bytes stored from address `a`, poison marks untouched. -/
def memStore (m : Mem) : Nat → Bytes → Mem
  | _, [] => m
  | a, b :: bs => memStore (memSetByte m a b) (a + 1) bs

/-- Whether a write of `n` bytes at `a` covers the whole of line `l`. -/
def coversLine (a n l : Nat) : Bool := decide (a ≤ 64 * l ∧ 64 * l + 64 ≤ a + n)

/-- The poison marks after a write of `n` bytes at `a` (R331): poisoned data marks every line it touches, clean
data clears the marks of the lines it covers whole and leaves the others. -/
def markLines (m : Mem) (a n : Nat) (poison : Bool) : Nat → Mem
  | 0 => m
  | k + 1 =>
    let l := a / 64 + k
    let m' := markLines m a n poison k
    if poison then setPoison m' l true
    else if coversLine a n l then setPoison m' l false
    else m'

/-- A write of bytes at `a` (R331). -/
def memWrite (m : Mem) (a : Nat) (bs : Bytes) (poison : Bool) : Mem :=
  if bs.length = 0 then m
  else markLines (memStore m a bs) a bs.length poison ((a + bs.length - 1) / 64 - a / 64 + 1)

/-- Poisons every line that the `n` bytes from `a` touch, data left as it is. -/
def poisonSpan (m : Mem) (a n : Nat) : Mem :=
  if n = 0 then m else markLines m a n true ((a + n - 1) / 64 - a / 64 + 1)

/-- The state with memory replaced. -/
def setMem (s : State) (m : Mem) : State := { s with mem := m }

/-- A write by a unit that reaches the span; elsewhere it is discarded (R37). -/
def write (s : State) (r : Reach) (a : Nat) (bs : Bytes) (poison : Bool := false) : State :=
  if canAccess s r a bs.length then setMem s (memWrite s.mem a bs poison) else s

/-- What a read brings: the bytes, and the status of a failed read (ADDR_ERROR or POISONED). -/
structure Rd where
  data : Bytes
  err : Option Status
  deriving DecidableEq, Repr

/-- Whether a line of DRAM among those that `n` bytes at `a` touch holds an uncorrectable error, which its read detects
(R329). -/
def spanFails (s : State) (a n : Nat) : Bool :=
  !s.mr.dramErr.isEmpty && (linesOf a n).any (fun l => smGet LineErr.none s.mr.dramErr (l / 64) == .uncorrectable)

/-- A read by a unit (R37, R329, R331). -/
def read (s : State) (r : Reach) (a n : Nat) : Rd :=
  if canAccess s r a n then
    { data := memRead s.mem a n, err := if spanPoison s.mem a n || spanFails s a n then some .poisoned else none }
  else { data := zeroBytes n, err := some .addrError }

/-- A little-endian value in module memory, for the command processor's tables. -/
def memLe (s : State) (a n : Nat) : Nat := leNat (memRead s.mem a n)

/-- Whether the command processor starts nothing new: an entry to Closed or Parked quiesces, or the module is in one
(R558). -/
def quiescing (s : State) : Bool := s.pwr.entry.isSome || decide (3 ≤ s.pwr.state)

/-! ## Cores -/

/-- Core `n`. -/
def getCore (s : State) (n : Nat) : Core := smGet Core.idle s.cores n

/-- Core `n` replaced. -/
def setCore (s : State) (n : Nat) (c : Core) : State := { s with cores := smSet Core.idle s.cores n c }

/-- Bytes of core `n`'s store at a core-store offset. -/
def coreRead (s : State) (n off len : Nat) : Rd :=
  if off + len ≤ coreStoreLen then
    { data := memRead s.mem (coreBase n + off) len,
      err := if spanPoison s.mem (coreBase n + off) len then some .poisoned else none }
  else { data := zeroBytes len, err := some .storeRange }

/-- Bytes written in core `n`'s store at a core-store offset. -/
def coreWrite (s : State) (n off : Nat) (bs : Bytes) (poison : Bool := false) : State :=
  if off + bs.length ≤ coreStoreLen then setMem s (memWrite s.mem (coreBase n + off) bs poison) else s

/-- Cluster `c` is in use: a gated one wakes (R556). -/
def touchCluster (s : State) (c : Nat) : State :=
  { s with pwr := { s.pwr with gated := smSet false s.pwr.gated c false, lastUse := smSet 0 s.pwr.lastUse c s.nowNs } }

/-- An access to a core or cluster store (R556). -/
def touch (s : State) (a : Nat) : State :=
  match region a with
  | .core n => touchCluster s (n / 64)
  | .cluster c => touchCluster s c
  | _ => s

/-- The output list with one more item. -/
def emit (s : State) (o : Output) : State := { s with out := s.out ++ [o] }

/-- The state after a free value is drawn, and that value. -/
def freeDraw (s : State) : State × BitVec 64 :=
  ({ s with freeCount := s.freeCount + 1 }, Config.freeValue s.freeCount)

/-! ## Streams, phases and op lists (R379 to R391) -/

/-- The running stream `id`. -/
def getStream (s : State) (id : Nat) : Option StreamRun := (s.cmd.streams.find? (·.1 == id)).map (·.2)

/-- Running stream `id` updated. -/
def modStream (s : State) (id : Nat) (f : StreamRun → StreamRun) : State :=
  { s with cmd := { s.cmd with streams := s.cmd.streams.map (fun p => if p.1 = id then (p.1, f p.2) else p) } }

/-- Running phase `p` of stream `id`. -/
def getPhase (s : State) (id p : Nat) : Option PhaseRun :=
  (getStream s id).bind (fun r => r.running.find? (·.num == p))

/-- Running phase `p` of stream `id` updated. -/
def modPhase (s : State) (id p : Nat) (f : PhaseRun → PhaseRun) : State :=
  modStream s id (fun r => { r with running := r.running.map (fun x => if x.num = p then f x else x) })

/-- A status that an op of the phase ended with is kept for R384. -/
def noteStatus (s : State) (id p : Nat) (st : Status) : State :=
  modPhase s id p (fun r =>
    if stopping st then { r with stop := r.stop.orElse (fun _ => some st) }
    else if st = .ok ∨ r.seen.contains st then r else { r with seen := r.seen ++ [st] })

/-- The state `x` after an op of a co-resident member has ended in state `s` with a status: a stopping one is the member's own,
as long as members alone have stopped the phase (R143, R400). -/
def blameMember (s x : State) (id p prob : Nat) (st : Status) : State :=
  if stopping st && (getPhase s id p).any (fun r => r.stop.isNone || !r.stopBy.isEmpty) then
    modPhase x id p (fun r => { r with stopBy := r.stopBy ++ [(prob, st)] })
  else x

/-- The common header of an op descriptor (R387). -/
structure OpHdr where
  opcode : Nat
  fence : Bool
  waitEn : Bool
  sigEn : Bool
  waitCtr : Nat
  waitVal : Nat
  sigCtr : Nat
  deriving DecidableEq, Repr

/-- R387. -/
def opHdr (d : Bytes) : OpHdr :=
  { opcode := (byteAt d 0).toNat, fence := flag d 1 0, waitEn := flag d 1 1, sigEn := flag d 1 2,
    waitCtr := bits (le d 2 2) 0 12, waitVal := le d 4 2, sigCtr := bits (le d 6 2) 0 12 }

/-- The bits of the common header (R387), for the reserved check of R18. -/
def hdrFields : List (Nat × Nat) := [fldBits 0 0 11, fldBits 2 0 12, fld 4 2, fldBits 6 0 12]

/-- The value of FI counter `c` (R390). -/
def counter (s : State) (c : Nat) : BitVec 32 := smGet 0 s.cmd.counters c

/-- FI counter `c` set. -/
def setCounter (s : State) (c : Nat) (v : BitVec 32) : State :=
  { s with cmd := { s.cmd with counters := smSet 0 s.cmd.counters c v } }

/-- R390: a wait holds its op while ((counter[15:0] − wait_val) mod 2^16) ≥ 2^15. -/
def waitHolds (s : State) (c v : Nat) : Bool :=
  decide (((counter s c).toNat + 65536 - v % 65536) % 65536 ≥ 32768)

/-- An AWAIT in flight whose counter has come to its value has ended (R432). -/
def awaitDone (s : State) (c : Nat) (o : IoOp) : IoOp :=
  if byteAt o.desc 0 == 0x42 && bits (le o.desc 8 2) 0 12 == c && !o.finished && !(waitHolds s c (le o.desc 10 2))
  then { o with finished := true } else o

/-- What waits on counter `c` sees its present value: AWAIT ops (R432) and trigger entries (R475). -/
def counterSeen (s : State) (c : Nat) : State :=
  { s with
    cmd := { s.cmd with streams := s.cmd.streams.map (fun p =>
      (p.1, { p.2 with running := p.2.running.map (fun x => { x with io := x.io.map (awaitDone s c) }) })) }
    coll := { s.coll with triggers := s.coll.triggers.map (fun t =>
      if t.counter = c ∧ waitHolds s c t.value = false then { t with due := true } else t) } }

/-- FI counter `c` incremented. -/
def bumpCounter (s : State) (c : Nat) : State := counterSeen (setCounter s c (counter s c + 1)) c

/-- Whether a counter lies in the range that a stream owns (R374, R390). -/
def ctrInRange (s : State) (id c : Nat) : Bool :=
  match getStream s id with
  | none => false
  | some r =>
    let first := bits (le r.hdr 48 2) 0 12
    let cnt := bits (le r.hdr 50 2) 0 13
    decide (first ≤ c ∧ c < first + cnt)

/-- R391: the signal of an op that completed. -/
def signal (s : State) (id : Nat) (d : Bytes) : State :=
  let h := opHdr d
  if h.sigEn && ctrInRange s id h.sigCtr then bumpCounter s h.sigCtr else s

/-- Whether two tokens are of the same op list. -/
def sameList (a b : Token) : Bool := a.stream == b.stream && a.phase == b.phase

/-- Whether a unit of the core runs an op of the list of `t`. -/
def listBusy (c : Core) (t : Token) : Bool :=
  (match c.lpa with | some r => sameList r.tok t | none => false) ||
  (match c.lpaPaused with | some r => sameList r.tok t | none => false) ||
  (match c.ve with | some r => sameList r.tok t | none => false) ||
  (match c.vePaused with | some r => sameList r.tok t | none => false) ||
  (match c.coe with | some r => sameList r.tok t | none => false) ||
  (match c.dma with | some r => sameList r.tok t | none => false) ||
  (match c.ccm with | some r => sameList r.tok t | none => false)

/-- Whether no unit of the core runs an op of another stream than that of `t` (R159). -/
def unitsOf (c : Core) (t : Token) : Bool :=
  (match c.lpa with | some r => r.tok.stream == t.stream | none => true) &&
  (match c.ve with | some r => r.tok.stream == t.stream | none => true) &&
  (match c.coe with | some r => r.tok.stream == t.stream | none => true) &&
  (match c.dma with | some r => r.tok.stream == t.stream | none => true) &&
  (match c.ccm with | some r => r.tok.stream == t.stream | none => true)

/-- The op list that the core's sequencer takes ops from: the service block's when one has preempted the core,
else the training list; its token and the next index (R157, R159, R241). The first service op waits until training ops
have paused or ended and the Plate Queue is empty. -/
def activeList (c : Core) : Option (Token × Nat) :=
  match c.svcTokens with
  | t :: _ => if unitsOf c t && (c.svcNext != 0 || c.pq.isEmpty) then some (t, c.svcNext) else none
  | [] => if c.preempt then none else
    match c.tokens with
    | t :: _ => some (t, c.next)
    | [] => none

/-- The active list advanced by `k` ops. -/
def advanceList (c : Core) (k : Nat) : Core :=
  if c.svcTokens.isEmpty then { c with next := c.next + k } else { c with svcNext := c.svcNext + k }

/-- The core-store address of op `i` of a list. -/
def opAddr (n : Nat) (t : Token) (i : Nat) : Nat := coreBase n + t.off + 64 * i

/-- A service list that has ended, none of its ops running, leaves its core. -/
def retireSvc (s : State) (n : Nat) : State :=
  let c := getCore s n
  match c.svcTokens with
  | t :: ts =>
    if c.svcNext ≥ t.len && !listBusy c t then
      modPhase (setCore s n { c with svcTokens := ts, svcNext := 0 }) t.stream t.phase
        (fun p => { p with cores := p.cores.filter (· != n) })
    else s
  | [] => s

/-- When a core's list has ended and none of its ops runs, the core takes its next list and the phase counts
the core as complete (R23, R379). -/
def retireList (s : State) (n : Nat) : State :=
  let s1 := retireSvc s n
  let c := getCore s1 n
  match c.tokens with
  | t :: ts =>
    if c.next ≥ t.len && !listBusy c t then
      modPhase (setCore s1 n { c with tokens := ts, next := 0 }) t.stream t.phase
        (fun p => { p with cores := p.cores.filter (· != n) })
    else s1
  | [] => s1

/-- An op of core `n` completes: its counter signals, its status goes to its phase, and the list may end
(R384, R389, R391). The unit that ran it is already free. -/
def finishOp (s : State) (n : Nat) (t : Token) (d : Bytes) (st : Status) : State :=
  retireList (noteStatus (signal (touchCluster s (n / 64)) t.stream d) t.stream t.phase st) n

/-- The bytes of an item as a unit takes them: those of one read as poisoned are not interpreted (R627). -/
def takenBytes (bad : Bool) (d : Bytes) : Bytes := if bad then zeroBytes 64 else d

/-- The next op of core `n`'s active list: token, index, descriptor and whether it is read as poisoned. -/
structure NextOp where
  tok : Token
  idx : Nat
  desc : Bytes
  poisoned : Bool
  deriving DecidableEq, Repr

/-- The op that the sequencer of core `n` comes to, if its list holds one more. -/
def nextOp (s : State) (n : Nat) : Option NextOp :=
  match activeList (getCore s n) with
  | none => none
  | some (t, i) =>
    if i < t.len then
      let bad := spanPoison s.mem (opAddr n t i) 64
      some { tok := t, idx := i, desc := takenBytes bad (memRead s.mem (opAddr n t i) 64), poisoned := bad }
    else none

/-- The fence and wait conditions of R387 and R390; a wait on a counter outside the stream's range does not hold
the op, which then completes at issue. -/
def mayStart (s : State) (n : Nat) (o : NextOp) : Bool :=
  let h := opHdr o.desc
  (!h.fence || !listBusy (getCore s n) o.tok) &&
  (!h.waitEn || !ctrInRange s o.tok.stream h.waitCtr || !(waitHolds s h.waitCtr h.waitVal))

/-- The check of the counters that an op names (R390). -/
def ctrCheck (s : State) (id : Nat) (h : OpHdr) : Bool :=
  (!h.waitEn || ctrInRange s id h.waitCtr) && (!h.sigEn || ctrInRange s id h.sigCtr)

/-- The next op of core `n`, if it carries one of the opcodes, its unit is free and it may start (R389). -/
def startable (s : State) (n : Nat) (opcode : Nat) (free : Core → Bool) : Option NextOp :=
  match nextOp s n with
  | none => none
  | some o =>
    if !o.poisoned && (opHdr o.desc).opcode == opcode && free (getCore s n) && mayStart s n o
    then some o else none

/-- The sequencer of core `n` moves past `k` ops of its active list; what it looked ahead to is the next op no more. -/
def passOps (s : State) (n k : Nat) : State :=
  setCore (touchCluster s (n / 64)) n { advanceList (getCore s n) k with noProg := 0, lpaNext := none }

/-- An op is rejected before any effect: it completes at once with its status (R391). -/
def rejectOp (s : State) (n : Nat) (o : NextOp) (st : Status) : State :=
  finishOp (passOps s n 1) n o.tok o.desc st

/-- What a check before any effect answers. -/
abbrev Check := Option Status

/-- The first failure of a list of checks, in order. -/
def firstFail : List Check → Check
  | [] => none
  | some e :: _ => some e
  | none :: cs => firstFail cs

/-- A check that fails with `st` when `b` holds. -/
def failIf (b : Bool) (st : Status) : Check := if b then some st else none

/-- The rejection that R67 gives a format word. -/
def fmtFail (w : Nat) : Check :=
  match fmtCheck w with
  | .good => none
  | .badReserved => some .badReserved
  | .badField => some .badField

/-- Photometer counters at zero. -/
def photZero : Phot :=
  { converted := 0, clipped := 0, flushed := 0, clamped := 0, nonfinite := 0, outliers := 0, olClipped := 0,
    idle := 0, amax := 0 }

/-- CLIP_EXCEED of R190. -/
def clipExceeds (p : Phot) (thresh : Nat) : Bool :=
  thresh != 0 && decide (p.clipped * 65536 > thresh * p.converted)

/-- The larger of two non-negative binary32 codes, as R188 combines amax. -/
def maxCode32 (a b : Nat) : Nat := if ffLt f32F a b then b else a

/-- One saturating field of a layer record. -/
def satField (rec : Bytes) (off n k : Nat) : Bytes :=
  putBytes rec off (leBytes n (satAddNat (8 * n) (le rec off n) k))

/-- R188 and R189: the op's counts are added into its layer record. `base` is the word of OCS_PHOT_BASE, 0 when updates are off. -/
def photUpdate (s : State) (base layer : Nat) (p : Phot) (clip : Bool) : State :=
  if base = 0 then s
  else
    let a := (base &&& 0xFFFFFFC00000) + 64 * layer
    let r := read s .dram a 64
    match r.err with
    | some _ => { s with cr := { s.cr with photDrops := satAdd s.cr.photDrops 1 } }
    | none =>
      let b := satField r.data 0 8 p.converted
      let b := satField b 8 8 p.clipped
      let b := satField b 16 8 p.flushed
      let b := satField b 24 8 p.clamped
      let b := satField b 32 8 p.idle
      let b := satField b 40 4 p.outliers
      let b := satField b 44 4 p.olClipped
      let b := satField b 48 4 p.nonfinite
      let b := putBytes b 52 (leBytes 4 (maxCode32 (le b 52 4) p.amax))
      let b := satField b 56 4 1
      let b := satField b 60 4 (b2n clip)
      write s .dram a b

end Sys2Proof.Machine
end

