-- ==== Sys2Proof/Machine/Events.lean ====
section
/-! DEFINITION. Event records, their coalescing and delivery, and the failure log (19_errors_and_events.md R588 to
R592; 16_firmware.md R532, R541). -/

namespace Sys2Proof.Machine

/-- One host port of the state. -/
def getPort (s : State) (p : HPort) : HostPortState := match p with | .a => s.hif.a | .b => s.hif.b

/-- One host port replaced. -/
def setPort (s : State) (p : HPort) (x : HostPortState) : State :=
  match p with
  | .a => { s with hif := { s.hif with a := x } }
  | .b => { s with hif := { s.hif with b := x } }

/-- The port number in register indices: A is 0, B is 1. -/
def portNo (p : HPort) : Nat := match p with | .a => 0 | .b => 1

/-- The port of an owner field (R355). -/
def ownerPort (o : BitVec 2) : Option HPort := if o = 1 then some .a else if o = 2 then some .b else none

/-- The owner field that names a port (R355). -/
def portOwner (p : HPort) : BitVec 2 := match p with | .a => 1 | .b => 2

/-- Queue `q`. -/
def getQueue (s : State) (q : Nat) : Queue := smGet Queue.reset s.cmd.queues q

/-- Queue `q` replaced. -/
def setQueue (s : State) (q : Nat) (x : Queue) : State :=
  { s with cmd := { s.cmd with queues := smSet Queue.reset s.cmd.queues q x } }

/-- An MSI-X table entry at reset: zeros with the mask bit set, as PCIe has it. -/
def msixDefault : Bytes := zeroBytes 12 ++ [1, 0, 0, 0]

/-- A vector fires: its message leaves, or its pending bit is set while it is masked (R486). -/
def sendMsix (s : State) (p : HPort) (v : Nat) : State :=
  let x := getPort s p
  if flag (smGet msixDefault x.msix v) 12 0 then setPort s p { x with pba := smSet false x.pba v true }
  else if x.linkUp then emit s (.msix p v)
  else s

/-- Events dropped are counted (R532, R541, R576). -/
def evDrop (s : State) : State := { s with fw := { s.fw with evDrops := satAdd s.fw.evDrops 1 } }

/-- The number of tags of a port: 14-bit tags in FLIT mode and 10-bit ones otherwise (R476). -/
def tagCount (s : State) (p : HPort) : Nat := if (getPort s p).flit then 2 ^ 14 else 2 ^ 10

/-- Non-posted requests outstanding on a port at most (R476). -/
def readMax : Nat := 1024

/-- Tags that outstanding reads of a port hold. -/
def usedTags (s : State) (p : HPort) : List Nat := (s.hif.reads.filter (·.port == p)).map (·.tag)

/-- The first of `n` tags from `t` on that is not in use. -/
def pickTag (n : Nat) (used : List Nat) : Nat → Nat → Nat
  | 0, t => t % n
  | k + 1, t => if used.contains (t % n) then pickTag n used k (t + 1) else t % n

/-- A read of host memory leaves, with a tag that no outstanding read of its port holds. -/
def sendRead (s : State) (p : HPort) (addr len : Nat) (w : ReadFor) : State :=
  let t := pickTag (tagCount s p) (usedTags s p) readMax s.hif.nextTag
  emit { s with hif := { s.hif with reads := s.hif.reads ++ [{ port := p, tag := t, what := w, issued := s.nowNs }],
                                    nextTag := t + 1 } } (.hostRead p addr len t)

/-- A read of host memory that the module issues for a purpose of its own (R484); one beyond the outstanding reads of its
port waits (R476). -/
def issueRead (s : State) (p : HPort) (addr len : Nat) (w : ReadFor) : State :=
  if (usedTags s p).length < readMax then sendRead s p addr len w
  else { s with hif := { s.hif with readWait := s.hif.readWait ++ [{ port := p, addr, len, what := w }] } }

/-- A read that waits leaves once another of its port is outstanding no longer. -/
def refillRead (s : State) (p : HPort) : State :=
  match s.hif.readWait.find? (·.port == p) with
  | none => s
  | some r =>
    sendRead { s with hif := { s.hif with readWait := s.hif.readWait.eraseP (·.port == p) } } p r.addr r.len r.what

/-- Firmware, or the hardware queue, takes a record for the ring of a port: the head word is read first (R532). -/
def toRing (s : State) (rec : Bytes) (p : HPort) : State :=
  let x := getPort s p
  match x.ring with
  | none => if x.ringDropped then evDrop s else s
  | some r => if x.linkUp then issueRead s p r.head 8 (.eventHead rec r.no) else evDrop s

/-- Whether an image of firmware runs, from CONFIG_WAIT on, so that units are marked and failures logged by it (R46, R593). -/
def imageRuns (s : State) : Bool := decide (3 ≤ s.fw.state) && !s.err.fwFatal

/-- The firmware states in which an image takes events: RUNNING, and no stopped Control Cluster (R593). -/
def fwRunning (s : State) : Bool := decide (s.fw.state = 4) && !s.err.fwFatal

/-- A record goes to the rings of its ports, or waits in the hardware queue during an update (R541). -/
def deliver (s : State) (rec : Bytes) (ports : List HPort) : State :=
  if s.fw.state = 5 then
    if s.fw.evQueue.length < 256 then { s with fw := { s.fw with evQueue := s.fw.evQueue ++ [(rec, ports)] } }
    else evDrop s
  else if fwRunning s then ports.foldl (fun a p => toRing a rec p) s
  else s

/-- The head word of a ring has been read: the record is written, or dropped where the ring is full, its count less the head
being the number of its records (R532). -/
def ringWrite (s : State) (p : HPort) (rec : Bytes) (headWord : Bytes) : State :=
  let x := getPort s p
  match x.ring with
  | none => if x.ringDropped then evDrop s else s
  | some r =>
    let size := 2 ^ (6 + r.sizeLog2)
    if (r.count + 2 ^ 32 - le headWord 0 4) % 2 ^ 32 = size then evDrop s
    else
      let ph := b2n (decide (r.count / size % 2 = 0))
      let b2 := setBits (byteAt rec 2).toNat 0 1 ph
      let out := putBytes rec 2 [BitVec.ofNat 8 b2]
      let s1 := setPort s p { x with ring := some { r with count := (r.count + 1) % 2 ^ 32 } }
      let s2 := emit s1 (.hostWrite p (r.base + 32 * (r.count % size)) out false)
      sendMsix s2 p r.vector

/-- The ports whose rings an event concerns (R532): the owner's for a queue, otherwise both. -/
def eventPorts (s : State) (source unit : Nat) : List HPort :=
  if source = 3 then (match ownerPort (getQueue s unit).owner with | some p => [p] | none => [])
  else [.a, .b]

/-- A record is generated (R588): it takes the next seq, and goes to the rings where event_mask names its class. -/
def emitEvent (s : State) (st : Status) (source unit count first : Nat) (coalesced : Bool) (detail : Bytes) : State :=
  let code := statusCode st
  let e := s.err
  let r := leBytes 2 code ++ [BitVec.ofNat 8 (2 * b2n coalesced), BitVec.ofNat 8 source] ++
    leBytes 4 e.nextSeq.toNat ++ leBytes 8 first ++ leBytes 2 unit ++ leBytes 2 (min count 65535) ++
    (detail ++ zeroBytes 12).take 12
  let s1 := { s with err := { e with lastStatus := BitVec.ofNat 16 code, lastSeq := e.nextSeq,
                                     nextSeq := e.nextSeq + 1, generated := satAdd e.generated 1,
                                     coalesced := if coalesced then satAdd e.coalesced count else e.coalesced } }
  if s1.fw.eventMask.getLsbD (code / 256) then deliver s1 r (eventPorts s1 source unit) else s1

/-- One millisecond in nanoseconds. -/
def msNs : Nat := 1000000

/-- Whether a coalescing window is the one of a status, source and unit. -/
def sameWindow (st : Status) (source unit : Nat) (w : EventWindow) : Bool :=
  w.status == st && w.source == source && w.unit == unit

/-- The state without the window of a status, source and unit. -/
def dropWindow (s : State) (st : Status) (source unit : Nat) : State :=
  { s with err := { s.err with windows := s.err.windows.filter (fun w => !(sameWindow st source unit w)) } }

/-- The record that a window's end sends, if occurrences were counted (R589). -/
def flushWindow (s : State) (w : EventWindow) : State :=
  let s1 := dropWindow s w.status w.source w.unit
  if w.count = 0 then s1 else emitEvent s1 w.status w.source w.unit w.count w.first true w.detail

/-- One occurrence of an event (R589). -/
def raiseEvent (s : State) (st : Status) (source unit : Nat) (detail : Bytes := []) : State :=
  let u := unit % 65536
  let fresh := fun (x : State) =>
    let w : EventWindow := { status := st, source, unit := u, opened := x.nowNs, count := 0, first := 0, detail := [] }
    emitEvent { x with err := { x.err with windows := x.err.windows ++ [w] } } st source u 1 x.nowNs false detail
  match s.err.windows.find? (sameWindow st source u) with
  | none => fresh s
  | some w =>
    if s.nowNs < w.opened + msNs then
      let w1 := if w.count = 0 then { w with count := 1, first := s.nowNs, detail := detail }
        else { w with count := w.count + 1 }
      { s with err := { s.err with windows := s.err.windows.map (fun x => if sameWindow st source u x then w1 else x) } }
    else fresh (flushWindow s w)

/-- The status of an event or log entry to which the manual assigns none: a free value. Kinds: 0 guard step-down,
1 sideband assertion, 2 change of SLOT_ID, 3 corrected errors, 4 thermal trip, 5 input trip, 6 failure of a Parked exit. -/
def unnamed (kind : Nat) : Status := allStatus.getD (Config.unnamedStatus kind % allStatus.length) .ok

/-- The detail of an event of the memory and protection class (R588). -/
def memDetail (addr init : Nat) (write : Bool) : Bytes :=
  leBytes 6 addr ++ [BitVec.ofNat 8 init, BitVec.ofNat 8 (b2n write)]

/-- COALESCE_WINDOW_END (R589): the millisecond of a window has passed. -/
def execCoalesceWindowEnd (status : BitVec 16) (source : BitVec 8) (unit : BitVec 16) (s : State) : Res :=
  match statusOf status.toNat with
  | none => .next s
  | some st =>
    match s.err.windows.find? (sameWindow st source.toNat unit.toNat) with
    | none => .next s
    | some w => if w.opened + msNs ≤ s.nowNs then .next (flushWindow s w) else .next s

/-! ## The failure log (R591, R592) -/

/-- Entries of the failure log, and those kept for kinds 1 to 3. -/
def failLogLen : Nat := 8192
/-- R592. -/
def failLogReserve : Nat := 4160

/-- One hour in nanoseconds. -/
def hourNs : Nat := 3600000000000

/-- An entry of the failure log, or a lost count (R591, R592). -/
def logFailure (s : State) (kind : Nat) (st : Status) (unit addr : Nat) : State :=
  let free := failLogLen - s.err.failLog.length
  if free = 0 ∨ (kind > 3 ∧ free ≤ failLogReserve) then { s with err := { s.err with lost := satAdd s.err.lost 1 } }
  else
    let e := leBytes 4 s.err.failLog.length ++ leBytes 4 (satAddNat 32 0 (s.err.poweredNs / hourNs)) ++ leBytes 2 (statusCode st) ++
      [BitVec.ofNat 8 kind, 0] ++ leBytes 2 unit ++ zeroBytes 2 ++
      leBytes 8 (if kind = 4 ∨ kind = 5 then addr else 0) ++ leBytes 8 s.nowNs ++
      leBytes 4 (s.fw.version.toNat) ++ zeroBytes 28
    { s with err := { s.err with failLog := s.err.failLog ++ [e] } }

end Sys2Proof.Machine
end

