-- ==== Sys2Proof/Machine/Access.lean ====
section
/-! DEFINITION. Checked accesses: the Window Table, host windows, and reads and writes that may reach module memory or
a host (14_host_interface.md R481 to R492). -/

namespace Sys2Proof.Machine

/-! ## The Window Table (R489 to R492) -/

/-- A Window Table entry (R489). -/
structure WtEntry where
  base : Nat
  pages : Nat
  valid : Bool
  rd : Bool
  wr : Bool
  kind : Nat
  init : Nat
  src : Nat
  bus : Nat
  deriving DecidableEq, Repr

/-- R489. -/
def wtEntry (b : Bytes) : WtEntry :=
  { base := le b 0 6, pages := le b 8 4 + 1, valid := flag b 12 0, rd := flag b 12 1, wr := flag b 12 2,
    kind := bits (le b 12 1) 3 2, init := bits (le b 13 1) 0 6, src := le b 14 2, bus := le b 16 8 }

/-- The fields of a Window Table entry. -/
def wtFields : List (Nat × Nat) :=
  [fld 0 6, fld 8 4, fldBits 12 0 5, fldBits 13 0 6, fld 14 2, fld 16 8]

/-- Initiators, numbered as the init bits of R489. -/
def initFab : Nat := 0
/-- The CCM. -/
def initCcm : Nat := 3
/-- Cluster DMAs and Coelostats. -/
def initDma : Nat := 4
/-- The command processor. -/
def initCmd : Nat := 5
/-- A host port's BAR4. -/
def initBar4 (p : HPort) : Nat := 1 + portNo p

/-- Whether an entry grants the 64-byte line at `a` (R491). -/
def wtGrants (e : WtEntry) (init : Nat) (write : Bool) (src a : Nat) : Bool :=
  let hostLine := region a == .host
  e.valid && decide (e.base ≤ a ∧ a + 64 ≤ e.base + 4096 * e.pages) && (if write then e.wr else e.rd) &&
  bit e.init init && (init != initFab || e.src == 0xFFFF || e.src == src) &&
  (if hostLine then e.kind == 1 || e.kind == 2 else e.kind == 0)

/-- The entry that decides a line: the lowest-numbered granting one (R491). -/
def wtLookup (s : State) (init : Nat) (write : Bool) (src a : Nat) : Option WtEntry :=
  ((s.hif.wt.map (fun p => wtEntry p.2)).find? (fun e => wtGrants e init write src a))

/-- Where a host-window line goes: port and bus address; none where denied, or where the port is lost (R491, R492). -/
def hostTarget (s : State) (init : Nat) (write : Bool) (src a : Nat) : Option (HPort × Nat) :=
  match wtLookup s init write src a with
  | none => none
  | some e =>
    let p := if e.kind = 1 then HPort.a else HPort.b
    let x := getPort s p
    if x.linkUp && !x.lost then some (p, e.bus + (a - e.base)) else none

/-- The src of an access that a unit of this module makes itself: only an FI's own access is judged by it. -/
def selfNode (s : State) : Nat := s.fab.nodeId.toNat

/-- A denied line is logged and raises its event (R492). -/
def denyLine (s : State) (init : Nat) (write : Bool) (a : Nat) : State :=
  let h := s.hif
  raiseEvent { s with hif := { h with denyAddr := BitVec.ofNat 48 a, denyInit := BitVec.ofNat 3 init,
                                      denyWrite := write, denyCount := satAdd h.denyCount 1 } }
    .windowDeny 0 0 (memDetail a init write)

/-- What a read over PCIe brought for a line. -/
def hostLine (host : List HostLine) (a : Nat) : Option Bytes :=
  (host.find? (fun h => decide (h.addr = a))).bind (fun h => h.data.bind (fun d => if d.length = 64 then some d else none))

/-! ## Errors that reads of DRAM meet (R328, R329) -/

/-- The channel of a local DRAM address (R328). -/
def dramChannel (s : State) (a : Nat) : Nat :=
  let h := bits a 8 4 ^^^ bits a 12 4 ^^^ bits a 16 4 ^^^ bits a 20 4
  match bits s.mr.memCfg.toNat 0 2 with
  | 1 => 4 * (h % 4)
  | 2 => 2 * (h % 8)
  | _ => h

/-- The channel-local offset of a local DRAM address (R328). -/
def dramOffset (s : State) (a : Nat) : Nat :=
  match bits s.mr.memCfg.toNat 0 2 with
  | 1 => a / 1024 * 256 + a % 256
  | 2 => a / 2048 * 256 + a % 256
  | _ => a / 4096 * 256 + a % 256

/-- A corrected error is counted; every 1,024th raises an event. -/
def noteCorrected (s : State) (n : BitVec 32) (source unit a : Nat) : State :=
  if n.toNat % 1024 = 0 then raiseEvent s (unnamed 3) source unit (memDetail a 7 false) else s

/-- An access to the line at `a` meets an error (R329, R333): the controller corrects it, writes the line back and counts
it, or writes the line as poisoned, counts it and raises its event. -/
def meetErr (s : State) (a : Nat) (e : LineErr) : State :=
  let ch := dramChannel s a
  let c := smGet (0, 0) s.mr.ecc ch
  let m := { s.mr with dramErr := smSet LineErr.none s.mr.dramErr (a / 64) .none }
  match e with
  | .none => s
  | .correctable =>
    let n := satAdd c.1 1
    noteCorrected { s with mr := { m with ecc := smSet (0, 0) m.ecc ch (n, c.2) } } n 5 ch a
  | .uncorrectable =>
    let s1 := setMem s (setPoison s.mem (a / 64) true)
    let s2 := { s1 with mr := { m with ecc := smSet (0, 0) m.ecc ch (c.1, satAdd c.2 1) } }
    raiseEvent (logFailure s2 4 .uncorrected ch a) .uncorrected 5 ch (memDetail a 7 false)

/-- The error that a read of the DRAM line at `a` meets: one that the line has kept, or one that the command brings. -/
def errAt (s : State) (host : List HostLine) (a : Nat) : LineErr :=
  match smGet LineErr.none s.mr.dramErr (a / 64) with
  | .none => (match host.find? (fun h => decide (h.addr = a)) with
    | some h => if h.data.isSome then .correctable else .uncorrectable
    | none => .none)
  | e => e

/-- The read of the line at `a` on demand, with what a command brings for it (R329). -/
def demandWith (host : List HostLine) (s : State) (a : Nat) : State :=
  if region a = .dram then meetErr s a (errAt s host a) else s

/-- The read of the line at `a` on demand (R329). -/
def demandLine (s : State) (a : Nat) : State :=
  if region a = .dram then meetErr s a (smGet LineErr.none s.mr.dramErr (a / 64)) else s

/-- The read of `n` bytes at `a` on demand. -/
def demandRead (s : State) (a n : Nat) : State :=
  if s.mr.dramErr.isEmpty then s else (linesOf a n).foldl demandLine s

/-- Whether `n` bytes at a local address touch the firmware area, which no Fabric Interface reaches (R36, R520). -/
def inFwArea (s : State) (a n : Nat) : Bool :=
  s.fw.area && decide (dramBytes s - fwAreaLen s < a + n ∧ a < dramBytes s)

/-- Whether `n` bytes at a local address lie where R36 lets a Fabric Interface reach. -/
def fiAddrOk (s : State) (a n : Nat) : Bool :=
  let r := region a
  let q := region (a + n - 1)
  r != .reserved && r != .setup && q != .reserved && q != .setup && decide (a + n ≤ 2 ^ 48) && !(inFwArea s a n)

/-! ## Reads through a view

Units that read a matrix or a page read it through a view of memory in which the host-window lines that they reach
stand at their local addresses. -/

/-- A view under construction: the state with its denials, the memory seen, and the first status of a failed line. -/
structure View where
  s : State
  m : Mem
  err : Option Status
  deriving DecidableEq, Repr

/-- A view of module memory as it stands. -/
def viewOf (s : State) : View := { s, m := s.mem, err := none }

/-- The first of two statuses. -/
def orStatus (a : Option Status) (b : Status) : Option Status := a.orElse (fun _ => some b)

/-- One line added to a view (R37, R491, R492, R485): a granted line takes its data, every other reads as poisoned. -/
def viewLine (init : Nat) (r : Reach) (host : List HostLine) (v : View) (a : Nat) : View :=
  if region a = .host then
    match hostTarget v.s init false (selfNode v.s) a with
    | none => { s := denyLine v.s init false a, m := setPoison v.m (a / 64) true, err := orStatus v.err .windowDeny }
    | some _ =>
      match hostLine host a with
      | some d => { v with m := memWrite v.m a d false }
      | none => { v with m := setPoison v.m (a / 64) true, err := orStatus v.err .poisoned }
  else if canAccess v.s r a 64 then
    let s1 := demandWith host (touch v.s a) a
    { v with s := s1, m := if linePoison s1.mem a then setPoison v.m (a / 64) true else v.m }
  else { v with m := setPoison v.m (a / 64) true, err := orStatus v.err .addrError }

/-- The lines of `n` bytes from `a` added to a view. -/
def viewSpan (init : Nat) (r : Reach) (host : List HostLine) (v : View) (a n : Nat) : View :=
  (linesOf a n).foldl (viewLine init r host) v

/-! ## Writes that may reach a host -/

/-- The bytes of a write that fall on the line at `l`: their first address and the bytes. -/
def linePart (a : Nat) (bs : Bytes) (l : Nat) : Nat × Bytes :=
  let lo := max a l
  let hi := min (a + bs.length) (l + 64)
  (lo, (bs.drop (lo - a)).take (hi - lo))

/-- One line of a write by a unit checked as initiator `init` where R490 checks it: the state and a failure. -/
def writeLine (init : Nat) (r : Reach) (a : Nat) (bs : Bytes) (poison : Nat → Bool)
    (x : State × Option Status) (l : Nat) : State × Option Status :=
  let part := linePart a bs l
  if region l = .host then
    match hostTarget x.1 init true (selfNode x.1) l with
    | none => (denyLine x.1 init true l, orStatus x.2 .windowDeny)
    | some (p, bus) => (emit x.1 (.hostWrite p (bus + (part.1 - l)) part.2 (poison l)), x.2)
  else if canAccess x.1 r part.1 part.2.length then
    (touch (setMem x.1 (memWrite x.1.mem part.1 part.2 (poison l))) l, x.2)
  else (x.1, orStatus x.2 .addrError)

/-- A write of bytes, line by line; `poison` marks the lines that are written as poisoned (R331, R332). -/
def writeSpan (s : State) (init : Nat) (r : Reach) (a : Nat) (bs : Bytes) (poison : Nat → Bool) :
    State × Option Status :=
  (linesOf a bs.length).foldl (writeLine init r a bs poison) (s, none)

/-- A copy of `len` bytes seen in `m` from `src` to `dst`, line by line, poison carried along (R332). -/
def copySpan (m : Mem) (s : State) (init : Nat) (r : Reach) (src dst len : Nat) : State × Option Status :=
  writeSpan s init r dst (memRead m src len)
    (fun l => spanPoison m (src + (max dst l - dst)) (min (dst + len) (l + 64) - max dst l))

/-! ## Register fields and accesses by the hosts (R14, R401, R603) -/

/-- Bits [lo + w - 1 : lo] of a register replaced by those of the value written. -/
def wrField {n : Nat} (reg : BitVec n) (v lo w : Nat) : BitVec n :=
  BitVec.ofNat n (setBits reg.toNat lo w (bits v lo w))

/-- Where an access of a host goes (R401, R603): it is served, it is a wake source that waits for the exit from
Closed, or it never reaches the module. -/
inductive HostPath where
  | served
  | held
  | none
  deriving DecidableEq, Repr

/-- Whether an entry to a state has passed abort point 3 (R558). -/
def pastThree (s : State) (target : BitVec 3) : Bool :=
  match s.pwr.entry with
  | some e => e.target == target && decide (e.stage ≥ 3)
  | none => false

/-- R401, R603. -/
def hostPath (s : State) (p : HPort) : HostPath :=
  let x := getPort s p
  if !x.linkUp || x.lost || x.perst || s.rst.supply != .on then .none
  else if s.pwr.state = 4 || pastThree s 4 then .none
  else if s.pwr.state = 3 || pastThree s 3 then .held
  else .served

/-- HOLD_N is asserted and has effect. -/
def holdOn (s : State) : Bool := (smGet SideIn.reset s.pwr.side 3).effect

/-- A wake source is noted (R558, R559); while HOLD_N is asserted it is ignored (R563). -/
def wakeUp (s : State) : State := if holdOn s then s else { s with pwr := { s.pwr with wake := true } }

/-- A host access that waits for the exit (R559). -/
def holdAccess (s : State) (h : HeldAccess) : State :=
  let s1 := wakeUp s
  { s1 with pwr := { s1.pwr with held := s1.pwr.held ++ [h] } }

/-- A write of a register through BAR0 by a host: served, held, or lost. -/
def hostSetup (s : State) (p : HPort) (off size value : Nat) (act : State → State) : State :=
  match hostPath s p with
  | .served => act s
  | .held => holdAccess s (.write p off size value)
  | .none => s

end Sys2Proof.Machine
end

