-- ==== Sys2Proof/Machine/Operands.lean ====
section
/-! DEFINITION. Operand records and stored matrices (R69 to R73, R121 to R124). -/

namespace Sys2Proof.Machine

/-- An operand record (R123). Pitches are in bytes. -/
structure OperandRec where
  fw : Nat
  trans : Bool
  elemBase : Nat
  scaleBase : Nat
  zpBase : Nat
  elemPitch : Nat
  scalePitch : Nat
  zpPitch : Nat
  imOff : Nat
  deriving DecidableEq, Repr

/-- R123. -/
def operandRec (b : Bytes) : OperandRec :=
  { fw := le b 0 2, trans := flag b 2 0, elemBase := bits (le b 4 4) 0 20, scaleBase := bits (le b 8 4) 0 20,
    zpBase := bits (le b 12 4) 0 20, elemPitch := 64 * le b 16 2, scalePitch := 64 * le b 18 2,
    zpPitch := 64 * le b 20 2, imOff := bits (le b 24 4) 0 20 }

/-- The fields of an operand record (R123). -/
def operandFields : List (Nat × Nat) :=
  [fld 0 2, fldBits 2 0 1, fldBits 4 0 20, fldBits 8 0 20, fldBits 12 0 20, fld 16 2, fld 18 2, fld 20 2,
   fldBits 24 0 20]

/-- The check of a record of `len` bytes at core-store offset `off`, aligned to `al`: R123, R124, R627, R18. -/
def recCheck (s : State) (n off len al : Nat) (fields : List (Nat × Nat)) : Check :=
  let r := coreRead s n off len
  if off % al ≠ 0 then some .storeRange
  else match r.err with
    | some e => some e
    | none => if reservedZero r.data fields then none else some .badReserved

/-- A matrix in memory: absolute local addresses, pitches in bytes. -/
structure Mat where
  fw : FmtWord
  base : Nat
  pitch : Nat
  sBase : Nat
  sPitch : Nat
  zBase : Nat
  zPitch : Nat
  deriving DecidableEq, Repr

/-- The matrix of an operand record in core `n`'s store; `im` selects the imaginary plane (R145). -/
def matOf (n : Nat) (r : OperandRec) (im : Bool) : Mat :=
  let o := coreBase n + (if im then r.imOff else 0)
  { fw := fmtWord r.fw, base := o + r.elemBase, pitch := r.elemPitch, sBase := o + r.scaleBase,
    sPitch := r.scalePitch, zBase := o + r.zpBase, zPitch := r.zpPitch }

/-- The grid cell of element (r, c) (R69). -/
def gridCell (f : FmtWord) (r c : Nat) : Nat × Nat :=
  let b := blkSize f
  match f.axis with
  | 0 => (r, c / b)
  | 1 => (r / b, c)
  | _ => (r / b, c / b)

/-- Rows and columns of the scale grid (R69). -/
def gridDims (f : FmtWord) (rows cols : Nat) : Nat × Nat :=
  let b := blkSize f
  match f.axis with
  | 0 => (rows, cdiv cols b)
  | 1 => (cdiv rows b, cols)
  | _ => (cdiv rows b, cdiv cols b)

/-- Rows and columns of storage with the last blocks padded (R70). -/
def paddedDims (f : FmtWord) (rows cols : Nat) : Nat × Nat :=
  if scaled f.fmt then
    let b := blkSize f
    match f.axis with
    | 0 => (rows, roundUp cols b)
    | 1 => (roundUp rows b, cols)
    | _ => (roundUp rows b, roundUp cols b)
  else (rows, cols)

/-- The packing group of element `c` of a row: byte offset, byte length, index within the group (R71). -/
def elemGroup (fmt c : Nat) : Nat × Nat × Nat :=
  match elemBits fmt with
  | 4 => (c / 2, 1, c % 2)
  | 6 => (3 * (c / 4), 3, c % 4)
  | 8 => (c, 1, 0)
  | 16 => (2 * c, 2, 0)
  | _ => (4 * c, 4, 0)

/-- The code of element (r, c). -/
def matCode (m : Mem) (mt : Mat) (r c : Nat) : Nat :=
  let g := elemGroup mt.fw.fmt c
  unpackElem mt.fw.fmt (memRead m (mt.base + r * mt.pitch + g.1) g.2.1) g.2.2

/-- Whether the bytes of element (r, c) are poisoned. -/
def matPoison (m : Mem) (mt : Mat) (r c : Nat) : Bool :=
  let sp := elemSpan mt.fw.fmt c
  spanPoison m (mt.base + r * mt.pitch + sp.1) sp.2

/-- Element (r, c) with the scale and zero point of its block (R69 to R73, R116). -/
def matCell (m : Mem) (mt : Mat) (r c : Nat) : MCell :=
  let g := gridCell mt.fw r c
  let sa := mt.sBase + g.1 * mt.sPitch + g.2
  let za := mt.zBase + g.1 * mt.zPitch + g.2
  let sc := scaled mt.fw.fmt
  let uq := isUQ mt.fw.fmt
  { code := matCode m mt r c, scale := if sc then (memByte m sa).toNat else 0,
    zp := if uq then (memByte m za).toNat else 0,
    poison := matPoison m mt r c || (sc && linePoison m sa) || (uq && linePoison m za) }

/-- The reduced element of a cell with its scale; the zero point is left to the OCS (R96). -/
def cellElem (f : FmtWord) (c : MCell) : Elem :=
  match f.fmt with
  | 8 => (match scaleDecode f.sfmt c.scale with
    | none => .nan | some (e, r) => .fin false (c.code % 16) e r)
  | 9 => (match scaleDecode f.sfmt c.scale with
    | none => .nan | some (e, r) => .fin false (c.code % 256) e r)
  | _ => scaledElem f.fmt f.sfmt c.code c.scale 0

/-- A cell widened to binary32, zero point removed (R77). -/
def cellWiden (f : FmtWord) (c : MCell) : Nat := widen f.fmt f.sfmt c.code c.scale c.zp

/-- Bytes from the first to beyond the last of `rows` rows of `rowLen` bytes at a pitch. -/
def extentLen (rows rowLen pitch : Nat) : Nat := (rows - 1) * pitch + rowLen

/-- One array of a record within the 768 KiB core store and 64-byte aligned (R124). -/
def inStore (off rows rowLen pitch : Nat) : Bool :=
  decide (off % 64 = 0) && decide (off + extentLen rows rowLen pitch ≤ coreStoreLen)

/-- R124 for an operand of `rows` by `cols`: elements, scales and zero points. -/
def operandFits (r : OperandRec) (im : Nat) (rows cols : Nat) (elems side : Bool) : Bool :=
  let f := fmtWord r.fw
  let g := gridDims f rows cols
  (!elems || inStore (r.elemBase + im) rows (packedLen f.fmt cols) r.elemPitch) &&
  (!(side && scaled f.fmt) || inStore (r.scaleBase + im) g.1 g.2 r.scalePitch) &&
  (!(side && isUQ f.fmt) || inStore (r.zpBase + im) g.1 g.2 r.zpPitch)

/-- The group length of R99. `kAxisA` and `kAxisB` say which axis value of each word means blocks along K. -/
def groupLen (fa fb : FmtWord) (transB : Bool) : Nat :=
  let kA := scaled fa.fmt && (fa.axis == 0 || fa.axis == 2)
  let kB := scaled fb.fmt && (fb.axis == (if transB then 1 else 0) || fb.axis == 2)
  match kA, kB with
  | true, true => min (blkSize fa) (blkSize fb)
  | true, false => blkSize fa
  | false, true => blkSize fb
  | false, false => 32

end Sys2Proof.Machine
end

