-- ==== Sys2Proof/Machine/Ocs.lean ====
section
/-! DEFINITION. The Output Conversion Stage: corrections, output arithmetic, outliers, conversion of a block, the
Photometer counts, and the writing of a converted matrix (05_output_conversion.md). -/

namespace Sys2Proof.Machine

/-- The OCS parameter record (R165); pitches in bytes. -/
structure OcsRec where
  alphaMode : Nat
  biasMode : Nat
  clampEn : Bool
  olOut : Bool
  olIn : Bool
  sumsOut : Bool
  photEn : Bool
  alpha : Nat
  bias : Nat
  clampLo : Nat
  clampHi : Nat
  olThresh : Nat
  clipThresh : Nat
  rsBase : Nat
  csBase : Nat
  olaBase : Nat
  oloBase : Nat
  soBase : Nat
  rsPitch : Nat
  csPitch : Nat
  olaPitch : Nat
  oloPitch : Nat
  soPitch : Nat
  srBase : Nat
  srStride : Nat
  deriving DecidableEq, Repr

/-- R165. -/
def ocsRec (b : Bytes) : OcsRec :=
  let w := le b 0 4
  { alphaMode := bits w 0 2, biasMode := bits w 2 2, clampEn := bit w 4, olOut := bit w 5, olIn := bit w 6,
    sumsOut := bit w 7, photEn := bit w 8, alpha := le b 4 4, bias := le b 8 4, clampLo := le b 12 4,
    clampHi := le b 16 4, olThresh := le b 20 4, clipThresh := le b 24 2,
    rsBase := bits (le b 32 4) 0 20, csBase := bits (le b 36 4) 0 20, olaBase := bits (le b 40 4) 0 20,
    oloBase := bits (le b 44 4) 0 20, soBase := bits (le b 48 4) 0 20, rsPitch := 64 * le b 52 2,
    csPitch := 64 * le b 54 2, olaPitch := 64 * le b 56 2, oloPitch := 64 * le b 58 2,
    soPitch := 64 * le b 60 2, srBase := bits (le b 64 8) 0 40, srStride := bits (le b 72 8) 0 40 }

/-- The fields of the OCS parameter record (R165). -/
def ocsFields : List (Nat × Nat) :=
  [fldBits 0 0 9, fld 4 4, fld 8 4, fld 12 4, fld 16 4, fld 20 4, fld 24 2, fldBits 32 0 20, fldBits 36 0 20,
   fldBits 40 0 20, fldBits 44 0 20, fldBits 48 0 20, fld 52 2, fld 54 2, fld 56 2, fld 58 2, fld 60 2,
   fldBits 64 0 40, fldBits 72 0 40]

/-- A finite binary32 code greater than zero. -/
def posFinite (x : Nat) : Bool := ffIsFin f32F x && ffLt f32F 0 x

/-! ## Corrections (R178, R179, R184) -/

/-- What the OCS presents at the correction port: a value, or a term that rounded beyond range. -/
inductive Corr where
  | val (code : Nat)
  | over (neg : Bool)
  deriving DecidableEq, Repr

/-- A correction added to the wide accumulator (R109, R112). -/
def applyCorr (a : Acc) (c : Corr) : Acc :=
  match c with
  | .val x => correct a x
  | .over s => { joinTag { a with acc := ffInf f32F s } (.inf s) with of := true }

/-- A binary64 accumulator plus an exact dyadic, rounded once. -/
def f64AddDy (acc : Nat) (v : Dy) : Nat :=
  match ffDecode f64F acc with
  | .fin s m e =>
    let r := dyAdd ⟨if s then -(m : Int) else m, e⟩ v
    (ffOfInt f64F r.m r.e).code
  | _ => acc

/-- A binary64 code as an exact dyadic. -/
def dyOf64 (x : Nat) : Dy :=
  match ffDecode f64F x with
  | .fin s m e => ⟨if s then -(m : Int) else m, e⟩
  | _ => dyZero

/-- whole + half × c formed exactly and rounded once to binary32 (R177, R179), negated when `neg`. -/
def mergeHalf (whole half : Nat) (neg : Bool) : Corr :=
  if !(ffIsFin f64F whole) then .over ((bit whole 63) != neg)
  else if !(ffIsFin f64F half) then .over ((bit half 63) != neg)
  else
    let h := dyOf64 half
    let y := dyAdd (dyOf64 whole) ⟨h.m * sqrt2c, h.e - 23⟩
    let r := ffOfInt f32F (if neg then -y.m else y.m) y.e
    if r.of then .over (decide ((if neg then -y.m else y.m) < 0)) else .val r.code

/-- One zero-point term from its per-group values: a factor, an FP32 sum entry (1.0 for ZZ), and the scales
(E, r) (R179). A NaN or infinite entry, or a NaN scale, makes the term NaN. -/
def zpTerm (neg : Bool) (vs : List (Nat × Nat × Option (Int × Nat))) : Corr :=
  if vs.any (fun v => !(ffIsFin f32F v.2.1) || v.2.2.isNone) then .val (ffNan f32F)
  else
    let acc := vs.foldl (fun (a : Nat × Nat) v =>
      match v.2.2 with
      | none => a
      | some (e, r) =>
        let d := dyOf32 v.2.1
        let x : Dy := ⟨d.m * (v.1 : Int), d.e + e + (r / 2 : Nat)⟩
        if r % 2 = 0 then (f64AddDy a.1 x, a.2) else (a.1, f64AddDy a.2 x)) (0, 0)
    mergeHalf acc.1 acc.2 neg

/-- The outlier correction from pairs (BF16 value, b widened to binary32) in ascending k (R184). -/
def outlierCorr (vs : List (Nat × Nat)) : Corr :=
  let sum := vs.foldl (fun a v =>
    (ffAdd f64F a (ffMul f64F (ffConv bf16F f64F v.1).code (ffConv f32F f64F v.2).code).code).code) 0
  let r := ffConv f64F f32F sum
  if r.of then .over (bit r.code 31) else .val (posZero f32F r).code

/-! ## Output arithmetic (R161, R162) -/

/-- An output element between stages 4 and 8. -/
structure OcsElem where
  row : Nat
  col : Nat
  m : Nat
  n : Nat
  x : Nat
  nv : Bool
  of : Bool
  poison : Bool
  clamped : Bool := false
  /-- Its poison comes from the scale or zero point given for its block, which stage 9 reads (R90, R116). -/
  scaleBad : Bool := false
  deriving DecidableEq, Repr

/-- The result of a multiplication at stage 5: an exact zero is +0, and a product that rounds to zero keeps its sign
(R161). -/
def exactZero (x a : Nat) (r : FRes) : FRes :=
  if x % 2 ^ 31 = 0 ∨ a % 2 ^ 31 = 0 then posZero f32F r else r

/-- Stages 5 to 7 of R160 with the multiplier and the bias of the element's column, none when not enabled. -/
def ocsArith (alpha bias : Option Nat) (clamp : Option (Nat × Nat)) (e : OcsElem) : OcsElem :=
  if e.poison then e
  else
    let e1 := match alpha with
      | none => e
      | some a =>
        let r := exactZero e.x a (ffMul f32F e.x a)
        { e with x := r.code, nv := e.nv || r.nv, of := e.of || r.of }
    let e2 := match bias with
      | none => e1
      | some b =>
        let r := posZero f32F (ffAdd f32F e1.x b)
        { e1 with x := r.code, nv := e1.nv || r.nv, of := e1.of || r.of }
    match clamp with
    | none => e2
    | some (lo, hi) =>
      if ffLt f32F e2.x lo then { e2 with x := lo, clamped := true }
      else if ffLt f32F hi e2.x then { e2 with x := hi, clamped := true }
      else e2

/-! ## Conversion of one block (stages 8 to 10) -/

/-- How the conversion of a block is asked for: the destination word, outlier extraction, and how a value becomes
an outlier candidate (R181, R195). -/
structure BlkSpec where
  fw : FmtWord
  olOut : Bool
  olThresh : Nat
  /-- R195: the values still carry a factor 1 ÷ √2 that folds into the H8 scale. -/
  fold : Bool
  deriving DecidableEq, Repr

/-- The magnitude of a binary32 code, for comparison of outlier candidates. -/
def magCode (x : Nat) : Nat := x % 2 ^ 31

/-- Whether a finite value's magnitude exceeds the threshold; on the folded path the exact |x| ÷ √2 does. -/
def isCandidate (b : BlkSpec) (x : Nat) : Bool :=
  match ffDecode f32F x, ffDecode f32F b.olThresh with
  | .fin _ m e, .fin _ n k =>
    if b.fold then
      let e0 := min (2 * e) (2 * k + 1)
      decide ((m * m) <<< (2 * e - e0).toNat > (n * n) <<< (2 * k + 1 - e0).toNat)
    else ffLt f32F b.olThresh (magCode x)
  | _, _ => false

/-- The stored BF16 value of an outlier (R181): rounded to nearest even, saturating to ±0x7F7F; on the folded
path the exact quotient by √2 rounded once (R195). -/
def outlierVal (fold : Bool) (x : Nat) : Nat :=
  if fold then
    match ffDecode f32F x with
    | .fin s m e =>
      let q := quotSqrt2 m e 1
      let r := ffRound bf16F s q.1 q.2.1 q.2.2
      if r.2 then ffMax bf16F s else r.1
    | _ => 0
  else (toBf16 false false 0 x).1

/-- The positions of the extracted outliers: the two candidates of largest magnitude, the lower column winning a
tie (R181), from (position, code) pairs in ascending column order. -/
def pickOutliers (cands : List (Nat × Nat)) : List Nat :=
  let best : List (Nat × Nat) → Option (Nat × Nat) := fun l =>
    l.foldl (fun a c => match a with
      | none => some c
      | some b => if magCode b.2 < magCode c.2 then some c else some b) none
  match best cands with
  | none => []
  | some a =>
    match best (cands.filter (fun c => c.1 != a.1)) with
    | none => [a.1]
    | some b => if a.1 < b.1 then [a.1, b.1] else [b.1, a.1]

/-- A zero element, for positions outside a list. -/
def ocsElem0 : OcsElem := { row := 0, col := 0, m := 0, n := 0, x := 0, nv := false, of := false, poison := false }

/-- A converted block with its outlier entry and Photometer contributions. -/
structure BlkOut where
  conv : ConvOut
  /-- Outlier entry of R183. -/
  entry : Nat
  phot : Phot
  deriving DecidableEq, Repr

/-- The Photometer contributions of one block (R187): converted codes against the values of stage 7. -/
def photOf (fmt : Nat) (es : List OcsElem) (outl : List Nat) (o : ConvOut) (olClipped : Nat) : Phot :=
  let zs := (es.zip o.codes).zipIdx
  let isZero : Nat → Bool := fun c =>
    if isUQ fmt then c == o.zp
    else match elemDecode fmt c with | .fin _ m _ _ => m == 0 | _ => false
  let nonfin : OcsElem → Nat → Bool := fun e c =>
    e.poison || o.nanBlock || (match elemDecode fmt c with | .fin _ _ _ _ => false | _ => true)
  let fl := zs.filter (fun z =>
    !o.nanBlock && !outl.contains z.2 && !z.1.1.poison && ffIsFin f32F z.1.1.x && magCode z.1.1.x != 0
      && isZero z.1.2)
  { converted := es.length, clipped := (o.clipped.filter id).length, flushed := fl.length,
    clamped := (es.filter (·.clamped)).length,
    nonfinite := (zs.filter (fun z => nonfin z.1.1 z.1.2)).length, outliers := outl.length, olClipped,
    idle := 0,
    amax := es.foldl (fun a e => if (!e.poison || e.scaleBad) && ffIsFin f32F e.x then max a (magCode e.x) else a) 0 }

/-- Adds Photometer contributions (R187). -/
def photAdd (a b : Phot) : Phot :=
  { converted := a.converted + b.converted, clipped := a.clipped + b.clipped, flushed := a.flushed + b.flushed,
    clamped := a.clamped + b.clamped, nonfinite := a.nonfinite + b.nonfinite,
    outliers := a.outliers + b.outliers, olClipped := a.olClipped + b.olClipped, idle := a.idle + b.idle,
    amax := max a.amax b.amax }

/-- The fold of R195 on the elements that reach conversion: the multiplied path. -/
def mulHalfRoot (x : Nat) : Nat := (ffMul f32F x 0x3F3504F3).code

/-- Conversion of the real elements of one block of a scaled destination (stages 8 to 11 of R160, R170, R181,
R182). `draws` gives each element's draw. On the folded path of R195 the scale code is not yet lowered. In
a NaN block the outliers extracted and the third candidates clipped count all the same, while the entry is written as 0,
its extra field included (DESIGN CHOICE, log 100: R183 and R187 do not say). -/
def blkPlain (b : BlkSpec) (given : Option (Nat × Nat)) (es : List OcsElem) (draws : List Nat) : BlkOut :=
  let cands := if b.olOut then
      (es.zipIdx).filterMap (fun z =>
        if !z.1.poison && ffIsFin f32F z.1.x && isCandidate b z.1.x then some (z.2, z.1.x) else none)
    else []
  let outl := pickOutliers cands
  let third := (cands.map (·.1)).filter (fun i => !outl.contains i)
  let mk : List OcsElem → List ConvIn := fun l => (l.zip draws).zipIdx.map (fun z =>
    { x := z.1.1.x, draw := z.1.2, forceSat := third.contains z.2, outlier := outl.contains z.2,
      poison := z.1.1.poison })
  let o := convBlock b.fw given (mk es)
  let olc := third.filter (fun i => o.clipped.getD i false)
  let colOf : Nat → Nat := fun i => (es.getD i ocsElem0).col % blkSize b.fw
  let valOf : Nat → Nat := fun i => outlierVal b.fold (es.getD i ocsElem0).x
  let extra := min olc.length 15
  let entry := if o.nanBlock then 0 else match outl with
    | [] => extra <<< 12
    | [i] => colOf i ||| (1 <<< 5) ||| (extra <<< 12) ||| (valOf i <<< 16)
    | i :: j :: _ => colOf i ||| (1 <<< 5) ||| (colOf j <<< 6) ||| (1 <<< 11) ||| (extra <<< 12) |||
        (valOf i <<< 16) ||| (valOf j <<< 32)
  { conv := o, entry, phot := photOf b.fw.fmt es outl o olc.length }

/-- Conversion of one block with the factor 1 ÷ √2 of R195: folded into the scale code, or, where the code chosen is 0x00,
applied to the elements, whose candidates, outlier values and Photometer counts are then those of the multiplied ones. -/
def blkConv (b : BlkSpec) (given : Option (Nat × Nat)) (es : List OcsElem) (draws : List Nat) : BlkOut :=
  let r := blkPlain b given es draws
  if !b.fold || r.conv.nanBlock then r
  else if r.conv.scale = 0 then
    blkPlain { b with fold := false } given (es.map (fun e => { e with x := mulHalfRoot e.x })) draws
  else { r with conv := { r.conv with scale := r.conv.scale - 1 } }

/-- Conversion of one element of a BF16 or FP32 destination (R91, R160). An overflow under R91 counts as clipped
(DESIGN CHOICE, log 100: R187 names R83 only). -/
def wideConv (fw : FmtWord) (e : OcsElem) (draw : Nat) : Nat × Phot :=
  let x := if e.poison then ffNan f32F else e.x
  let r : Nat × Bool := if fw.fmt = 10 then toBf16 fw.rnd fw.nonsat draw x
    else (if ffIsNan f32F x then ffNan f32F else x, false)
  let fin := ffIsFin (if fw.fmt = 10 then bf16F else f32F) r.1
  (r.1,
   { converted := 1, clipped := b2n r.2,
     flushed := b2n (!e.poison && ffIsFin f32F e.x && magCode e.x != 0 && decide (r.1 = 0)),
     clamped := b2n e.clamped, nonfinite := b2n (e.poison || !fin), outliers := 0, olClipped := 0, idle := 0,
     amax := if !e.poison && ffIsFin f32F e.x then magCode e.x else 0 })

/-- A stable grouping key of the block that holds plate or matrix position (r, c): its grid cell. -/
def blkKey (fw : FmtWord) (r c : Nat) : Nat × Nat :=
  if scaled fw.fmt then gridCell fw r c else (r, c)

/-- The distinct keys of a list, in order of first appearance. -/
def distinct {α : Type} [BEq α] : List α → List α
  | [] => []
  | a :: l => a :: (distinct l).filter (fun x => !(x == a))

/-- A converted element ready to be written: position, code and poison. -/
structure OutElem where
  m : Nat
  n : Nat
  row : Nat
  col : Nat
  code : Nat
  nv : Bool
  of : Bool
  poison : Bool
  deriving DecidableEq, Repr

/-- The output element of a converted one. -/
def outElem (e : OcsElem) (code : Nat) : OutElem :=
  { m := e.m, n := e.n, row := e.row, col := e.col, code, nv := e.nv, of := e.of, poison := e.poison }

/-- A converted block with its grid cell. -/
structure OutBlk where
  cell : Nat × Nat
  scale : Nat
  zp : Nat
  /-- It took scale 0xFF under R78 or R83 (R90). -/
  took : Bool
  entry : Nat
  sum : Nat
  deriving DecidableEq, Repr

/-- A converted set of elements. -/
structure OutSet where
  elems : List OutElem
  blks : List OutBlk
  phot : Phot
  deriving DecidableEq, Repr

/-- Conversion of a set of elements into a destination. The elements of a block whose given scale or zero point is poisoned
are poisoned before stage 8, although stage 9 reads it: no outlier of the block is extracted, and its entry holds none
(DESIGN CHOICE, log 100: R90 and R181 do not say). `key` gives the block of an element; `given` the scale,
zero point and poison of a block under smode GIVEN; `draw` the draw of an element. -/
def convertSet (b : BlkSpec) (key : OcsElem → Nat × Nat) (given : Nat × Nat → Option (Nat × Nat × Bool))
    (draw : OcsElem → Nat) (es : List OcsElem) : OutSet :=
  if scaled b.fw.fmt then
    let ks := distinct (es.map key)
    ks.foldl (fun (o : OutSet) k =>
      let g := given k
      let mine := (es.filter (fun e => key e == k)).map (fun e =>
        match g with
        | some (_, _, true) => { e with poison := true, scaleBad := !e.poison }
        | _ => e)
      let r := blkConv b (g.map (fun x => (x.1, x.2.1))) mine (mine.map draw)
      let outs := (mine.zip r.conv.codes).map (fun z => outElem z.1 z.2)
      { elems := o.elems ++ outs,
        blks := o.blks ++
          [{ cell := k, scale := r.conv.scale, zp := r.conv.zp, took := r.conv.took, entry := r.entry,
             sum := if r.conv.nanBlock then ffNan f32F else blockSum b.fw.fmt r.conv.codes }],
        phot := photAdd o.phot r.phot }) { elems := [], blks := [], phot := photZero }
  else
    es.foldl (fun (o : OutSet) e =>
      let r := wideConv b.fw e (draw e)
      { o with elems := o.elems ++ [outElem e r.1], phot := photAdd o.phot r.2 })
      { elems := [], blks := [], phot := photZero }

/-! ## Writing a converted matrix to memory (R71 to R73, R150, R163) -/

/-- The elements of one matrix row written at once: the bytes from the first to the last column, with the other
elements of shared bytes kept; lines that hold a poisoned element are then poisoned. -/
def writeRow (m : Mem) (mt : Mat) (r : Nat) (es : List (Nat × Nat × Bool)) : Mem :=
  match es with
  | [] => m
  | e0 :: rest =>
    let fmt := mt.fw.fmt
    let lo := rest.foldl (fun a e => min a e.1) e0.1
    let hi := rest.foldl (fun a e => max a e.1) e0.1
    let b0 := (elemGroup fmt lo).1
    let gh := elemGroup fmt hi
    let per := if elemBits fmt = 4 then 2 else if elemBits fmt = 6 then 4 else 1
    let c0 := lo / per * per
    let addr := mt.base + r * mt.pitch + b0
    let row := es.foldl (fun bs e => packElem fmt bs (e.1 - c0) e.2.1) (memRead m addr (gh.1 + gh.2.1 - b0))
    let m1 := memWrite m addr row false
    es.foldl (fun mm e => if e.2.2 then
        let sp := elemSpan fmt e.1
        poisonSpan mm (mt.base + r * mt.pitch + sp.1) sp.2
      else mm) m1

/-- A set of converted elements written at matrix positions (m, n). -/
def writeElems (m : Mem) (mt : Mat) (es : List OutElem) : Mem :=
  (distinct (es.map (·.m))).foldl (fun mm r =>
    writeRow mm mt r ((es.filter (fun e => e.m == r)).map (fun e => (e.n, e.code, e.poison)))) m

/-- The scales and zero points of converted blocks written at their grid cells; under smode GIVEN only a block
that took scale 0xFF under R78 or R83 is written (R90). -/
def writeScales (m : Mem) (mt : Mat) (bs : List OutBlk) : Mem :=
  if scaled mt.fw.fmt then
    bs.foldl (fun mm b =>
      if mt.fw.smode = 2 && !b.took then mm
      else
        let m1 := memWrite mm (mt.sBase + b.cell.1 * mt.sPitch + b.cell.2) [BitVec.ofNat 8 b.scale] false
        if isUQ mt.fw.fmt then
          memWrite m1 (mt.zBase + b.cell.1 * mt.zPitch + b.cell.2) [BitVec.ofNat 8 b.zp] false
        else m1) m
  else m

/-- The given scale, zero point and poison of a grid cell under smode GIVEN (R90); none otherwise. -/
def givenOf (m : Mem) (mt : Mat) (k : Nat × Nat) : Option (Nat × Nat × Bool) :=
  if scaled mt.fw.fmt && mt.fw.smode == 2 then
    let sa := mt.sBase + k.1 * mt.sPitch + k.2
    let za := mt.zBase + k.1 * mt.zPitch + k.2
    some ((memByte m sa).toNat, if isUQ mt.fw.fmt then (memByte m za).toNat else 0,
      linePoison m sa || (isUQ mt.fw.fmt && linePoison m za))
  else none

/-- The padding elements of a matrix's last blocks that lie in the rows and columns given (R70). -/
def padCells (f : FmtWord) (rows cols : Nat) (rs cs : List Nat) : List (Nat × Nat) :=
  let p := paddedDims f rows cols
  let inR := rs.filter (· < rows)
  let inC := cs.filter (· < cols)
  let right := if cs.contains (cols - 1) then (List.range (p.2 - cols)).map (· + cols) else []
  let below := if rs.contains (rows - 1) then (List.range (p.1 - rows)).map (· + rows) else []
  (inR.flatMap (fun r => right.map (fun c => (r, c)))) ++
  (below.flatMap (fun r => (inC ++ right).map (fun c => (r, c))))

/-- Code zero written into padding elements (R70, R150). -/
def writePadding (m : Mem) (mt : Mat) (rows cols : Nat) (rs cs : List Nat) : Mem :=
  let cells := padCells mt.fw rows cols rs cs
  (distinct (cells.map (·.1))).foldl (fun mm r =>
    writeRow mm mt r ((cells.filter (fun c => c.1 == r)).map (fun c => (c.2, 0, false)))) m

/-- FP32 block sums and outlier entries written beside the elements (R177, R183). -/
def writeSides (m : Mem) (sums : Option (Nat × Nat)) (outl : Option (Nat × Nat)) (bs : List OutBlk) : Mem :=
  bs.foldl (fun mm b =>
    let m1 := match sums with
      | some (base, pitch) => memWrite mm (base + b.cell.1 * pitch + 4 * b.cell.2) (leBytes 4 b.sum) false
      | none => mm
    match outl with
    | some (base, pitch) => memWrite m1 (base + b.cell.1 * pitch + 8 * b.cell.2) (leBytes 8 b.entry) false
    | none => m1) m

end Sys2Proof.Machine
end

