-- ==== Sys2Proof/Machine/Lpa.lean ====
section
/-! DEFINITION. Log-Product Arrays and the Plate Queue: LPA_MATMUL, co-resident groups, row blocks, the OCS drain,
plates and stalls (04_log_product_arrays.md). -/

namespace Sys2Proof.Machine

/-- The LPA_MATMUL body (R125). -/
structure LpaParm where
  aRec : Nat
  bRec : Nat
  dRec : Nat
  ocsRec : Nat
  rowsel : Nat
  m : Nat
  n : Nat
  k : Nat
  p : Nat
  colgrp : Nat
  arrays : Nat
  cx : Bool
  acc : Bool
  dest : Bool
  groupPos : Nat
  rowselEn : Bool
  probId : Nat
  layer : Nat
  initBase : Nat
  initPitch : Nat
  tensorId : Nat
  deriving DecidableEq, Repr

/-- R125. -/
def lpaParm (d : Bytes) : LpaParm :=
  { aRec := bits (le d 8 4) 0 20, bRec := bits (le d 12 4) 0 20, dRec := bits (le d 16 4) 0 20,
    ocsRec := bits (le d 20 4) 0 20, rowsel := bits (le d 24 4) 0 20, m := le d 28 2 + 1,
    n := bits (le d 30 1) 0 7 + 1, k := bits (le d 32 4) 0 20 + 1, p := bits (le d 32 4) 20 4 + 1,
    colgrp := le d 36 2, arrays := bits (le d 38 1) 0 2, cx := flag d 38 2, acc := flag d 38 3,
    dest := flag d 38 4, groupPos := bits (le d 38 1) 5 2, rowselEn := flag d 38 7, probId := bits (le d 39 1) 0 2,
    layer := le d 40 2, initBase := bits (le d 42 6) 0 20, initPitch := 64 * bits (le d 42 6) 20 16,
    tensorId := le d 48 4 }

/-- The fields of the LPA_MATMUL descriptor (R125). -/
def lpaFields : List (Nat × Nat) :=
  hdrFields ++ [fldBits 8 0 20, fldBits 12 0 20, fldBits 16 0 20, fldBits 20 0 20, fldBits 24 0 20, fld 28 2,
    fldBits 30 0 7, fldBits 32 0 24, fld 36 2, fld 38 1, fldBits 39 0 2, fld 40 2, fldBits 42 0 36, fld 48 4]

/-- The arrays of a core that an arrays field makes active (R120). -/
def activeArrays (a : Nat) : List Nat :=
  match a with
  | 0 => [0, 1, 2, 3] | 1 => [0, 1] | 2 => [2, 3] | _ => []

/-- Parameters of a member: R139 gives it the first member's A, M and row selectors. -/
def memberParm (first own : LpaParm) : LpaParm :=
  { own with aRec := first.aRec, m := first.m, rowsel := first.rowsel, rowselEn := first.rowselEn }

/-- The (plate column, output column) pairs that array `j` holds of an op or member (R120, R139, R142). -/
def colMap (p : LpaParm) (j : Nat) : List (Nat × Nat) :=
  if p.groupPos = 0 then
    match (activeArrays p.arrays).findIdx? (· == j) with
    | none => []
    | some i => ((List.range 32).filter (fun c => 32 * i + c < p.n)).map (fun c => (c, 32 * i + c))
  else
    let before := 8 * popcount (4 * j) p.colgrp
    let here := 8 * popcount 4 (p.colgrp >>> (4 * j))
    ((List.range here).filter (fun c => before + c < p.n)).map (fun c => (c, before + c))

/-- The descriptors of the group that begins at op `i` of a list: they go on while they are middle members, and
end with a last member; whether the group is complete (R138). A descriptor read as poisoned ends the group as one of
another opcode does: the members before it are a group whose last member is missing, and the poisoned one completes with
POISONED on its own (DESIGN CHOICE, log 88: R143 and R627 speak of records only). -/
def groupOps (s : State) (n : Nat) (t : Token) (i : Nat) : Nat → List Bytes × Bool
  | 0 => ([], false)
  | fuel + 1 =>
    if i < t.len then
      let d := memRead s.mem (opAddr n t i) 64
      let bad := spanPoison s.mem (opAddr n t i) 64
      if !bad && (opHdr d).opcode == 0x10 then
        match (lpaParm d).groupPos with
        | 2 => let r := groupOps s n t (i + 1) fuel; (d :: r.1, r.2)
        | 3 => ([d], true)
        | _ => ([], false)
      else ([], false)
    else ([], false)

/-- R138: what makes a group of descriptors wrong. -/
def groupBad (ps : List LpaParm) (complete : Bool) : Bool :=
  match ps with
  | [] => true
  | p0 :: rest =>
    let act := activeArrays p0.arrays
    let inactive := ((List.range 4).filter (fun j => !act.contains j)).foldl (fun m j => m ||| (0xF <<< (4 * j))) 0
    let overlap := (ps.foldl (fun (a : Nat × Bool) p => (a.1 ||| p.colgrp, a.2 || (a.1 &&& p.colgrp) != 0)) (0, false)).2
    p0.groupPos != 1 || !complete || decide (ps.length > 4) || rest.isEmpty || overlap ||
    ps.any (fun p => p.colgrp == 0 || p.arrays != p0.arrays || (p.colgrp &&& inactive) != 0 ||
      decide (p.n > 8 * popcount 16 p.colgrp)) ||
    decide ((distinct (ps.map (·.probId))).length < ps.length)

/-- R166 to R184: the field conditions of an OCS record for an op. Square blocks of a member whose columns in an array are no
multiple of the block are not rejected with dest = 1: the two plates convert the grid cell that they share each on its own
(DESIGN CHOICE, log 100: R168 speaks of blocks along the row). -/
def ocsBad (p : LpaParm) (o : OcsRec) (fa fb fd : FmtWord) (tb : Bool) : Bool :=
  let sd := scaled fd.fmt
  o.alphaMode == 3 || o.biasMode == 3 ||
  (o.clampEn && (ffIsNan f32F o.clampLo || ffIsNan f32F o.clampHi || ffLt f32F o.clampHi o.clampLo)) ||
  (o.olOut && (!(posFinite o.olThresh) || !sd || fd.axis != 0 || decide (fd.bsize > 2) || !p.dest)) ||
  -- R167: blocks of a scaled destination lie within one plate
  (sd && decide (fd.bsize > 2)) ||
  -- R168
  (sd && fd.axis == 0 && p.groupPos != 0 &&
    (let ls := ((List.range 4).map (fun j => (colMap p j).length)).filter (· != 0)
     (ls.dropLast).any (fun l => l % blkSize fd != 0))) ||
  -- R169
  (sd && p.dest && p.rowselEn && fd.axis != 0) ||
  -- R175
  (isUQ fa.fmt && fa.axis == 1) || (isUQ fb.fmt && fb.axis == (if tb then 0 else 1)) ||
  -- R177
  (o.sumsOut && (!p.dest || !sd || fd.axis != 0)) ||
  -- R184
  (o.olIn && (!(scaled fa.fmt) || fa.axis != 0 || decide (fa.bsize > 2)))

/-- The arrays that an OCS record names lie within the store on 64-byte boundaries (R124, R166). -/
def ocsFits (p : LpaParm) (o : OcsRec) (fa fb fd : FmtWord) (tb : Bool) : Bool :=
  let g := groupLen fa fb tb
  let groups := cdiv p.k g
  let gd := gridDims fd p.m p.n
  (o.alphaMode != 2 || inStore (bits o.alpha 0 20) 1 (4 * p.n) 0) &&
  (o.biasMode != 2 || inStore (bits o.bias 0 20) 1 (4 * p.n) 0) &&
  (!(isUQ fb.fmt) || inStore o.rsBase p.m (4 * groups) o.rsPitch) &&
  (!(isUQ fa.fmt) || inStore o.csBase groups (4 * p.n) o.csPitch) &&
  (!o.olIn || inStore o.olaBase p.m (8 * cdiv p.k (blkSize fa)) o.olaPitch) &&
  (!o.olOut || inStore o.oloBase gd.1 (8 * gd.2) o.oloPitch) &&
  (!o.sumsOut || inStore o.soBase gd.1 (4 * gd.2) o.soPitch) &&
  (!p.acc || inStore p.initBase p.m (4 * p.n) p.initPitch)

/-- R209: the check of a shadow record. -/
def shadowCheck (s : State) (n : Nat) (t : Token) (p : LpaParm) : Check :=
  if t.ladder && t.blinkLog2n != 0 && !p.cx then
    let off := p.ocsRec + 96
    if off + 64 > coreStoreLen then some .badField
    else
      let r := coreRead s n off 64
      match r.err with
      | some e => some e
      | none =>
        if !(reservedZero r.data [fld 0 6, fldBits 6 0 4, fld 8 6, fld 16 4, fld 20 4, fldBits 24 0 20]) then
          some .badReserved
        else failIf (decide (bits (le r.data 24 4) 0 20 + 1 > p.k)) .badField
  else none

/-- Every check of R124, R126, R166, R209 and R627 on one op or member. `kmax` is the largest K of the group. For a
destination of the Plate Queue whose smode is not GIVEN nothing is read or written at scale_base and zp_base, and they are
not checked, as elem_base is not (DESIGN CHOICE, log 88: R123 says so of elem_base only). A and B are held to the store
without the padding elements of their last blocks, which nothing reads, and D with them, which a conversion writes; of
several checks that fail the first in the order below gives the status (DESIGN CHOICE, log 100). -/
def lpaCheck (s : State) (n : Nat) (t : Token) (p : LpaParm) (kmax : Nat) : Check :=
  let recs := firstFail
    [recCheck s n p.aRec 32 32 operandFields, recCheck s n p.bRec 32 32 operandFields,
     recCheck s n p.dRec 32 32 operandFields, recCheck s n p.ocsRec 96 32 ocsFields]
  match recs with
  | some e => some e
  | none =>
    let a := operandRec (coreRead s n p.aRec 32).data
    let b := operandRec (coreRead s n p.bRec 32).data
    let d := operandRec (coreRead s n p.dRec 32).data
    let o := ocsRec (coreRead s n p.ocsRec 96).data
    let fa := fmtWord a.fw; let fb := fmtWord b.fw; let fd := fmtWord d.fw
    let brc := if b.trans then (p.k, p.n) else (p.n, p.k)
    let pd := paddedDims fd p.m p.n
    let given := decide (fd.smode = 2)
    let ims := fun (r : OperandRec) => if p.cx then [0, r.imOff] else [0]
    firstFail
      [fmtFail a.fw, fmtFail b.fw, fmtFail d.fw,
       failIf (fa.fmt == 11 || fb.fmt == 11) .badField,
       failIf (a.trans || d.trans) .badField,
       failIf (p.cx && (isUQ fa.fmt || isUQ fb.fmt || p.groupPos != 0)) .badField,
       failIf (ocsBad p o fa fb fd b.trans) .badField,
       failIf ((ims a).any (fun i => i % 64 != 0 || !(operandFits a i p.m kmax true true))) .storeRange,
       failIf ((ims b).any (fun i => i % 64 != 0 || !(operandFits b i brc.1 brc.2 true true))) .storeRange,
       failIf ((ims d).any (fun i => i % 64 != 0 || !(operandFits d i pd.1 pd.2 p.dest (p.dest || given)))) .storeRange,
       failIf (!(ocsFits p o fa fb fd b.trans)) .storeRange,
       failIf (p.cx && p.acc && !(inStore (p.initBase + d.imOff) p.m (4 * p.n) p.initPitch)) .storeRange,
       failIf (p.rowselEn && decide (p.rowsel + p.m > coreStoreLen)) .storeRange,
       shadowCheck s n t p]

/-- The member that a checked descriptor becomes; its records are latched. -/
def mkMember (s : State) (n : Nat) (idx : Nat) (d : Bytes) (p : LpaParm) : LpaMember :=
  { idx, desc := d, aRec := (coreRead s n p.aRec 32).data, bRec := (coreRead s n p.bRec 32).data,
    dRec := (coreRead s n p.dRec 32).data, ocs := (coreRead s n p.ocsRec 96).data,
    shadow := (coreRead s n (p.ocsRec + 96) 64).data, status := .ok, nv := false, of := false, faulted := false,
    phot := photZero }

/-- The parameters of member `i` of a run. -/
def runParm (r : LpaRun) (mb : LpaMember) : LpaParm :=
  match r.members with
  | [] => lpaParm mb.desc
  | m0 :: _ => memberParm (lpaParm m0.desc) (lpaParm mb.desc)

/-- OCS_PHOT_BASE as an op latches it: 0 when updates are off (R188). -/
def photBaseNow (s : State) : Nat := if s.cr.photBase.getLsbD 0 then s.cr.photBase.toNat else 0

/-- What the sequencer makes of the LPA op or group at `o`: its descriptors, whether a counter wait of a member holds it, and
the first check of R126, R138 or R627 that fails. The first member's fence and every member's wait hold a group; a fence of
a later member has no effect (DESIGN CHOICE, log 88: the spec does not say how it bears on a group that starts as one op). -/
structure LpaPlan where
  ds : List Bytes
  held : Bool
  fail : Check
  deriving DecidableEq, Repr

/-- The plan of the op at `o` of core `n`'s list. A descriptor that continues no group is rejected. -/
def lpaPlan (s : State) (n : Nat) (o : NextOp) : LpaPlan :=
  let p0 := lpaParm o.desc
  if p0.groupPos = 0 then
    { ds := [o.desc], held := false,
      fail := firstFail
        [failIf (!(reservedZero o.desc lpaFields)) .badReserved,
         failIf (!(ctrCheck s o.tok.stream (opHdr o.desc))) .badField,
         failIf (p0.arrays == 3 || p0.colgrp != 0 || decide (p0.n > 32 * (activeArrays p0.arrays).length)) .badField,
         lpaCheck s n o.tok p0 p0.k] }
  else if p0.groupPos ≠ 1 then { ds := [o.desc], held := false, fail := some .badField }
  else
    let g := groupOps s n o.tok (o.idx + 1) (o.tok.len - o.idx)
    let ds := o.desc :: g.1
    let ps := ds.map (fun d => memberParm p0 (lpaParm d))
    let kmax := ps.foldl (fun a p => max a p.k) 0
    let open_ := fun (d : Bytes) =>
      let h := opHdr d
      !h.waitEn || !ctrInRange s o.tok.stream h.waitCtr || !(waitHolds s h.waitCtr h.waitVal)
    { ds, held := !(ds.all open_),
      fail := firstFail
        ([failIf (ds.any (fun d => !(reservedZero d lpaFields))) .badReserved,
          failIf (!(ds.all (fun d => ctrCheck s o.tok.stream (opHdr d)))) .badField,
          failIf (groupBad ps g.2) .badField] ++ ps.map (fun p => lpaCheck s n o.tok p kmax)) }

/-- A checked op or group before its first tile: records latched, banks empty. -/
def newRun (s : State) (n : Nat) (o : NextOp) (ds : List Bytes) : LpaRun :=
  let p0 := lpaParm (ds.headD [])
  { tok := o.tok, members := ds.zipIdx.map (fun z => mkMember s n (o.idx + z.2) z.1 (memberParm p0 (lpaParm z.1))),
    cfg := s.cr.lpaCfg.toNat, photBase := photBaseNow s, mb := 0, banks := [], tiles := [0, 0, 0, 0], weights := [],
    inits := [], idle := 0, boundary := false }

/-! ## Weight tiles (R129 to R131) -/

/-- K tiles of one row block: up to the largest K of the group (R127, R140). -/
def kTiles (r : LpaRun) : Nat := cdiv (r.members.foldl (fun a m => max a (lpaParm m.desc).k) 0) 32

/-- Row blocks of an LPA op (R127). -/
def rowBlocks (r : LpaRun) : Nat :=
  match r.members with
  | [] => 0
  | m0 :: _ => cdiv (lpaParm m0.desc).m 32

/-- Whether the op is complex. -/
def runCx (r : LpaRun) : Bool := r.members.any (fun m => (lpaParm m.desc).cx)

/-- Tiles that an array has taken before row block `blk`; with one K tile it keeps that tile for the whole op (R130). -/
def tilesBefore (r : LpaRun) (blk : Nat) : Nat := if kTiles r ≤ 1 then 0 else blk * kTiles r

/-- Tiles that an array must have taken for row block `blk`. -/
def tilesFor (r : LpaRun) (blk : Nat) : Nat := if kTiles r ≤ 1 then 1 else (blk + 1) * kTiles r

/-- Tiles of the op itself that the port may have brought to an array while row block `blk` streams: with an idle weight
register one more than the block needs (R129); a complex op leaves none (R146). -/
def tilesAhead (r : LpaRun) (blk : Nat) : Nat :=
  min (tilesFor r blk + if runCx r then 0 else 1) (tilesFor r (rowBlocks r - 1))

/-- The arrays that hold an output column of the op or of a member (R120, R149). -/
def usedArrays (r : LpaRun) : List Nat :=
  (List.range 4).filter (fun j => r.members.any (fun mb => !(colMap (runParm r mb) j).isEmpty))

/-- Whether array `j` waits for a weight tile of the row block in progress (R131). The times of pass steps are no part of
the model: an array waits from the time its last tile was used until the block's next tile has come (DESIGN CHOICE,
log 89). -/
def waitsTile (r : LpaRun) (j : Nat) : Bool := decide (r.tiles.getD j 0 < tilesFor r r.mb)

/-- The columns of tile `t` that the weight-load port brings to array `j` (R122, R135, R136, R145). -/
def loadTile (s : State) (n : Nat) (r : LpaRun) (j t : Nat) : List TileCol :=
  let k0 := 32 * (t % max 1 (kTiles r))
  r.members.zipIdx.flatMap (fun z =>
    let p := runParm r z.1
    let b := operandRec z.1.bRec
    (if p.cx then [false, true] else [false]).flatMap (fun im =>
      let mt := matOf n b im
      (colMap p j).map (fun c =>
        { tile := t, array := j, member := z.2, imag := im, n := c.2,
          cells := (List.range (min 32 (p.k - k0))).map (fun i =>
            if b.trans then matCell s.mem mt (k0 + i) c.2 else matCell s.mem mt c.2 (k0 + i)) })))

/-- A run with the next tile of array `j`, which its registers hold from now on whatever is written to B. -/
def takeTile (s : State) (n : Nat) (r : LpaRun) (j : Nat) : LpaRun :=
  let t := r.tiles.getD j 0
  { r with tiles := r.tiles.set j (t + 1), weights := r.weights ++ loadTile s n r j t }

/-- The run of the op to which the sequencer of core `n` looks ahead while `r` runs (R131): the next op of the same list, an
LPA op or group on the same arrays whose records can be read. One that its fence or a wait holds is not looked ahead to, nor
is a complex op, which takes both weight registers (DEDUCED, log 99). -/
def lookAhead (s : State) (n : Nat) (r : LpaRun) : Option LpaRun :=
  match (getCore s n).lpaNext with
  | some x => some x
  | none =>
    (startable s n 0x10 (fun _ => true)).bind (fun o =>
      let plan := lpaPlan s n o
      let x := newRun s n o plan.ds
      if sameList o.tok r.tok && !plan.held && plan.fail.isNone && !(runCx x) &&
         (lpaParm o.desc).arrays == (lpaParm ((r.members.map (·.desc)).headD [])).arrays then some x else none)

/-- While the last tile of `r` is in use the port loads the first tile of the next op into the idle register (R131). -/
def loadAhead (s : State) (n : Nat) (r : LpaRun) (j : Nat) : State :=
  if runCx r || !(decide (kTiles r ≤ 1 ∨ rowBlocks r ≤ r.mb + 1)) then s
  else
    match lookAhead s n r with
    | none => s
    | some x =>
      if x.tiles.getD j 0 = 0 then setCore s n { getCore s n with noProg := 0, lpaNext := some (takeTile s n x j) } else s

/-- WEIGHT_TILE_READY (R129 to R131): the weight-load port has brought an active array its next tile, or the first tile of
the op after this one. -/
def execWeightTileReady (core : CoreId) (array : BitVec 2) (s : State) : Res :=
  let n := core.toNat
  let c := getCore s n
  match c.lpa with
  | none => .next s
  | some r =>
    let j := array.toNat
    match r.members with
    | [] => .next s
    | m0 :: _ =>
      if (activeArrays (runParm r m0).arrays).contains j ∧ r.boundary = false then
        if r.tiles.getD j 0 < tilesAhead r r.mb then .next (setCore s n { c with noProg := 0, lpa := some (takeTile s n r j) })
        else .next (loadAhead s n r j)
      else .next s

/-! ## Initial values (R133) -/

/-- Row blocks of array `j` that wait in its banks. -/
def fullBanks (r : LpaRun) (j : Nat) : Nat := (distinct ((r.banks.filter (·.array == j)).map (·.mb))).length

/-- The plates for which array `j` has a drained bank: row block and plane. The two banks take the row blocks in turn; those
of a complex op take the planes of one block (R132, R146). -/
def drainedFor (r : LpaRun) (j : Nat) : List (Nat × Bool) :=
  if runCx r then
    ([false, true].filter (fun im => !(r.banks.any (fun b => b.array == j && b.imag == im)))).map (fun im => (r.mb, im))
  else (List.range (2 - fullBanks r j)).map (fun k => (r.mb + k, false))

/-- The initial values of the plate of row block `blk` of member `i` in array `j`, as init_base holds them now. -/
def bankInit (s : State) (n : Nat) (r : LpaRun) (blk j i : Nat) (imag : Bool) (mb : LpaMember) : BankInit :=
  let p := runParm r mb
  let base := coreBase n + p.initBase + (if imag then (operandRec mb.dRec).imOff else 0)
  { mb := blk, array := j, member := i, imag,
    rows := (List.range (min 32 (p.m - 32 * blk))).map (fun k => (colMap p j).map (fun c =>
      let a := base + (32 * blk + k) * p.initPitch + 4 * c.2
      (leNat (memRead s.mem a 4), linePoison s.mem a))) }

/-- The OCSs load every drained bank with the initial values of its next plate (R133). The rule leaves the time open, before
the array starts the plate: the model loads a bank as soon as it is drained (DESIGN CHOICE, log 99). -/
def loadInits (s : State) (n : Nat) (r : LpaRun) : LpaRun :=
  let want := (usedArrays r).flatMap (fun j => (drainedFor r j).flatMap (fun b =>
    r.members.zipIdx.filterMap (fun z =>
      let p := runParm r z.1
      if p.acc && decide (b.1 < rowBlocks r) && !(colMap p j).isEmpty &&
         !(r.inits.any (fun x => x.mb == b.1 && x.array == j && x.member == z.2 && x.imag == b.2))
      then some (bankInit s n r b.1 j z.2 b.2 z.1) else none)))
  { r with inits := r.inits ++ want }

/-- The initial value at a place of a plate: +0 where none was loaded (R133, R134). -/
def initAt (r : LpaRun) (blk j i : Nat) (imag : Bool) (row col : Nat) : Nat × Bool :=
  match r.inits.find? (fun x => x.mb == blk && x.array == j && x.member == i && x.imag == imag) with
  | some x => (x.rows.getD row []).getD col (0, false)
  | none => (0, false)

/-! ## The start of an op or group -/

/-- Starts a checked op or group on core `n`, with the first tiles that the look-ahead has loaded for it (R131). Those of
an op whose descriptors or records have changed since are loaded anew (DEDUCED, log 99). -/
def startLpa (s : State) (n : Nat) (o : NextOp) (ds : List Bytes) : State :=
  let run := newRun s n o ds
  let run1 := match (getCore s n).lpaNext with
    | some x => if x.members == run.members && x.tok == run.tok then { run with tiles := x.tiles, weights := x.weights } else run
    | none => run
  let s1 := passOps s n ds.length
  setCore s1 n { getCore s1 n with lpa := some (loadInits s1 n run1) }

/-- All descriptors of a rejected group complete with its status (R138, R391). -/
def rejectGroup (s : State) (n : Nat) (o : NextOp) (ds : List Bytes) (st : Status) : State :=
  ds.foldl (fun a d => finishOp a n o.tok d st) (passOps s n ds.length)

/-- What a plan comes to: the op or group waits, is rejected, or starts (R126, R127, R138). -/
def runPlan (s : State) (n : Nat) (o : NextOp) (plan : LpaPlan) : State :=
  if plan.held then s
  else match plan.fail with
    | some e => rejectGroup s n o plan.ds e
    | none => startLpa s n o plan.ds

/-- LPA_MATMUL of a standalone op (R126, R127). -/
def beginLpa (n : Nat) (s : State) : State :=
  match startable s n 0x10 (fun c => c.lpa.isNone) with
  | none => s
  | some o => if (lpaParm o.desc).groupPos = 0 then runPlan s n o (lpaPlan s n o) else s

/-- A group of co-resident problems starts as one op (R138 to R144). -/
def beginGroup (n : Nat) (s : State) : State :=
  match startable s n 0x10 (fun c => c.lpa.isNone) with
  | none => s
  | some o => if (lpaParm o.desc).groupPos = 0 then s else runPlan s n o (lpaPlan s n o)

/-- A cell that no register holds. -/
def noCell : MCell := { code := 0, scale := 0, zp := 0, poison := false }

/-- The cell (k, n) of a plane of member `i` that the weight registers hold in row block `blk` (R119). -/
def weightCell (r : LpaRun) (blk i : Nat) (imag : Bool) (k n : Nat) : MCell :=
  match r.weights.find? (fun w =>
      w.tile == tilesBefore r blk + k / 32 && w.member == i && w.imag == imag && w.n == n) with
  | some w => w.cells.getD (k % 32) noCell
  | none => noCell

/-! ## Row blocks (R127, R135, R140 to R146) -/

/-- The row-selector byte of row `m`: the bit of the member, and whether the byte is poisoned (R141). -/
def rowSelected (s : State) (n : Nat) (p : LpaParm) (m : Nat) : Bool × Bool :=
  if p.rowselEn then
    let a := coreBase n + p.rowsel + m
    let bad := linePoison s.mem a
    (bad || (memByte s.mem a).getLsbD p.probId, bad)
  else (true, false)

/-- Whether any weight element, scale or zero point that member `i` reads in row block `blk` is poisoned (R143). -/
def weightsPoisoned (r : LpaRun) (blk i : Nat) : Bool :=
  r.weights.any (fun w => w.member == i && decide (tilesBefore r blk ≤ w.tile ∧ w.tile < tilesFor r blk) &&
    w.cells.any (·.poison))

/-- The pairs of one output element for a product of planes, grouped along K (R99, R103, R145). `w` is the weight at k. -/
def planePairs (s : State) (a b : Mat) (w : Nat → MCell) (neg : Bool) (m k0 k1 : Nat) : List (Pair × Bool) :=
  (List.range (k1 - k0)).map (fun i =>
    let k := k0 + i
    let x := matCell s.mem a m k
    let y := w k
    ({ a := cellElem a.fw x, b := cellElem b.fw y, neg }, x.poison || y.poison))

/-- One output element of row block `blk` of member `i`: the accumulator after its last promotion, and its poison (R104 to
R116); `ini` is the initial value that its bank was loaded with. -/
def lpaElem (s : State) (n : Nat) (r : LpaRun) (blk i : Nat) (mb : LpaMember) (imag selPoison : Bool) (m c : Nat)
    (ini : Nat × Bool) : Acc × Nat × Bool :=
  let p := runParm r mb
  let ra := operandRec mb.aRec; let rb := operandRec mb.bRec
  let ar := matOf n ra false; let br := matOf n rb false
  let wr := fun k => weightCell r blk i false k c
  let g := groupLen ar.fw br.fw rb.trans
  let groups := (List.range (cdiv p.k g)).map (fun j =>
    let k0 := j * g
    let k1 := min p.k (k0 + g)
    if p.cx then
      let ai := matOf n ra true; let bi := matOf n rb true
      let wi := fun k => weightCell r blk i true k c
      if imag then planePairs s ar bi wi false m k0 k1 ++ planePairs s ai br wr false m k0 k1
      else planePairs s ar br wr false m k0 k1 ++ planePairs s ai bi wi true m k0 k1
    else planePairs s ar br wr false m k0 k1)
  let bad := selPoison || mb.faulted || ini.2 || groups.any (fun l => l.any (·.2))
  (runGroups g p.p (groups.map (fun l => l.map (·.1))) 0 (accInit ini.1), ini.1, bad)

/-- The plates of row block `blk` of a run, in the order in which the Plate Queue reserves their entries: ascending
array, then ascending prob_id (R142, R149). The rule does not order the two plates of an array of a complex op: the real
one comes before the imaginary one (DESIGN CHOICE, log 88). -/
def rowBlockJobs (s : State) (n : Nat) (r : LpaRun) (blk : Nat) : List PlateJob :=
  let ms := r.members.zipIdx
  let order := (List.range 4).flatMap (fun q => ms.filter (fun z => (lpaParm z.1.desc).probId == q))
  (List.range 4).flatMap (fun j => order.flatMap (fun z =>
    let p := runParm r z.1
    let cols := colMap p j
    if cols.isEmpty then []
    else
      let planes := if p.cx then [false, true] else [false]
      let rows := (List.range 32).filterMap (fun i =>
        let m := 32 * blk + i
        if m < p.m then
          let sel := rowSelected s n p m
          if sel.1 then some (i, m, sel.2) else none
        else none)
      planes.map (fun im =>
        { mb := blk, array := j, member := z.2, imag := im, held := false, entry := false,
          elems := rows.flatMap (fun rw => cols.map (fun cn =>
            let e := lpaElem s n r blk z.2 z.1 im rw.2.2 rw.2.1 cn.2 (initAt r blk j z.2 im rw.1 cn.1)
            { row := rw.1, col := cn.1, m := rw.2.1, n := cn.2, acc := e.1, init := e.2.1, poison := e.2.2 })) })))

/-- R143: a co-resident member whose weights are read as poisoned faults; its columns are poisoned from then on. -/
def faultMembers (r : LpaRun) : LpaRun :=
  if r.members.length ≤ 1 then r
  else { r with members := r.members.zipIdx.map (fun z =>
    if !z.1.faulted && weightsPoisoned r r.mb z.2 then { z.1 with faulted := true, status := .poisoned } else z.1) }

/-! ## The OCS drain (R160) -/

/-- The corrections of one element, and whether an input they read is poisoned (R163, R178, R184). The outlier values of a
complex op belong to the real plane of A: they multiply b_r for the real and b_i for the imaginary output (DESIGN CHOICE,
log 100: R184 does not name the planes). -/
def corrections (s : State) (n : Nat) (p : LpaParm) (mb : LpaMember) (imag : Bool) (m c : Nat) :
    List Corr × Bool :=
  let ra := operandRec mb.aRec; let rb := operandRec mb.bRec; let o := ocsRec mb.ocs
  let a := matOf n ra false; let b := matOf n rb (p.cx && imag)
  let g := groupLen a.fw b.fw rb.trans
  let js := List.range (cdiv p.k g)
  let base := coreBase n
  let cellA := fun j => matCell s.mem a m (j * g)
  let cellB := fun j => if rb.trans then matCell s.mem b (j * g) c else matCell s.mem b c (j * g)
  let aOne := !(scaled a.fw.fmt) || a.fw.axis == 1
  let bOne := !(scaled b.fw.fmt) || b.fw.axis == (if rb.trans then 0 else 1)
  let sig : Nat → Option (Int × Nat) := fun j =>
    let x := if aOne then some ((0 : Int), 0) else scaleDecode a.fw.sfmt (cellA j).scale
    let y := if bOne then some ((0 : Int), 0) else scaleDecode b.fw.sfmt (cellB j).scale
    match x, y with
    | some u, some v => some (u.1 + v.1, u.2 + v.2)
    | _, _ => none
  let zOf : FmtWord → Nat → Nat := fun f z => if f.fmt = 8 then z % 16 else z
  let csA := fun j => base + o.csBase + j * o.csPitch + 4 * c
  let rsA := fun j => base + o.rsBase + m * o.rsPitch + 4 * j
  let word := fun x => leNat (memRead s.mem x 4)
  let za := if isUQ a.fw.fmt then
      [zpTerm true (js.map (fun j => (zOf a.fw (cellA j).zp, word (csA j), sig j)))] else []
  let zb := if isUQ b.fw.fmt then
      [zpTerm true (js.map (fun j => (zOf b.fw (cellB j).zp, word (rsA j), sig j)))] else []
  let zz := if isUQ a.fw.fmt && isUQ b.fw.fmt then
      [zpTerm false (js.map (fun j =>
        (min g (p.k - j * g) * zOf a.fw (cellA j).zp * zOf b.fw (cellB j).zp, 0x3F800000, sig j)))] else []
  let bs := blkSize a.fw
  let ol := if o.olIn then
      let entries := (List.range (cdiv p.k bs)).map (fun t =>
        (t, base + o.olaBase + m * o.olaPitch + 8 * t))
      let vals := entries.flatMap (fun e =>
        let w := leNat (memRead s.mem e.2 8)
        let one := fun (i v x : Nat) =>
          if bit w v && decide (e.1 * bs + bits w i 5 < p.k) then [(e.1 * bs + bits w i 5, bits w x 16)] else []
        one 0 5 16 ++ one 6 11 32)
      let bw := fun k => cellWiden b.fw (if rb.trans then matCell s.mem b k c else matCell s.mem b c k)
      [outlierCorr (vals.map (fun v => (v.2, bw v.1)))] else []
  let bad :=
    (isUQ a.fw.fmt && js.any (fun j => linePoison s.mem (csA j))) ||
    (isUQ b.fw.fmt && js.any (fun j => linePoison s.mem (rsA j))) ||
    (o.olIn && (List.range (cdiv p.k bs)).any (fun t => linePoison s.mem (base + o.olaBase + m * o.olaPitch + 8 * t)))
  (za ++ zb ++ zz ++ ol, bad)

/-- A per-column or scalar OCS parameter of column `c`: its code and poison; none when not enabled (R165). -/
def ocsParam (s : State) (n mode word c : Nat) : Option Nat × Bool :=
  match mode with
  | 0 => (none, false)
  | 1 => (some word, false)
  | _ =>
    let a := coreBase n + bits word 0 20 + 4 * c
    (some (leNat (memRead s.mem a 4)), linePoison s.mem a)

/-- Stages 2 to 7 on one element: the element, and its value after stage 4 for Blink (R210). A poisoned element carries
neither NV nor OF, whatever pairs and stages that were not poisoned raised before (DESIGN CHOICE, log 88: R116 and R163 say
only that poison sets neither). -/
def ocsStages (s : State) (n : Nat) (p : LpaParm) (mb : LpaMember) (imag : Bool) (e : PlateElem) :
    OcsElem × Nat :=
  let o := ocsRec mb.ocs
  let cr := corrections s n p mb imag e.m e.n
  let al := ocsParam s n o.alphaMode o.alpha e.n
  let be := ocsParam s n o.biasMode o.bias e.n
  let bad := e.poison || cr.2 || al.2 || be.2
  let acc := if e.poison then e.acc else cr.1.foldl applyCorr e.acc
  let v := if bad then ffNan f32F else accFinal acc
  let x : OcsElem :=
    { row := e.row, col := e.col, m := e.m, n := e.n, x := v, nv := acc.nv && !bad,
      of := acc.of && !bad, poison := bad }
  (ocsArith al.1 be.1 (if o.clampEn then some (o.clampLo, o.clampHi) else none) x, v)

/-- A mask of `w` bits with the given bits set. -/
def maskOf (l : List Nat) : Nat := l.foldl (fun m i => m ||| (1 <<< i)) 0

/-- Blink's selection of a plate (R207). -/
def blinkSelected (t : Token) (p : LpaParm) (blk array : Nat) : Bool :=
  t.ladder && !p.cx && decide (6 ≤ t.blinkLog2n ∧ t.blinkLog2n ≤ 16) &&
  (draw t.rotSeed p.tensorId t.step ((blk * 4 + array) * 4 + p.probId)) % 2 ^ t.blinkLog2n == 0

/-- The status of a converted plate: the first that R164 lists among those of its own elements (R148). -/
def plateStatus (o : OutSet) : Status :=
  if o.elems.any (·.poison) then .poisoned
  else if o.elems.any (·.nv) then .nv
  else if o.elems.any (·.of) then .of
  else .ok

/-- The entry that the Plate Queue reserves for a plate (R149): its header, and nothing in it yet. -/
def reservedEntry (r : LpaRun) (j : PlateJob) (mb : LpaMember) : Plate :=
  { fmt := 0, codes := [], scales := [], zps := [], nv := 0, of := 0, poison := 0, rowsValid := 0, colsValid := 0,
    stream := r.tok.stream, phase := r.tok.phase, opIdx := mb.idx, mb := j.mb, array := j.array, probId := (lpaParm mb.desc).probId,
    layer := (lpaParm mb.desc).layer, status := .ok, imag := j.imag, filled := false, visible := false }

/-- The Plate Queue entry of a converted plate (R148). -/
def plateEntry (r : LpaRun) (p : LpaParm) (mb : LpaMember) (j : PlateJob) (fw : FmtWord) (o : OutSet) : Plate :=
  let pos := fun (e : OutElem) => 32 * e.row + e.col
  let g := gridDims fw 32 32
  let cellIdx := fun (k : Nat × Nat) => k.1 * g.2 + k.2
  let place := fun (l : List (Nat × Nat)) (len : Nat) =>
    l.foldl (fun (a : List Nat) z => a.set z.1 z.2) (List.replicate len 0)
  { reservedEntry r j mb with
    fmt := leNat (mb.dRec.take 2), codes := place (o.elems.map (fun e => (pos e, e.code))) 1024,
    scales := if scaled fw.fmt then place (o.blks.map (fun b => (cellIdx b.cell, b.scale))) (g.1 * g.2) else [],
    zps := if isUQ fw.fmt then place (o.blks.map (fun b => (cellIdx b.cell, b.zp))) (g.1 * g.2) else [],
    nv := maskOf ((o.elems.filter (·.nv)).map pos), of := maskOf ((o.elems.filter (·.of)).map pos),
    poison := maskOf ((o.elems.filter (·.poison)).map pos),
    rowsValid := maskOf (distinct (o.elems.map (·.row))), colsValid := maskOf ((colMap p j.array).map (·.1)),
    status := plateStatus o, filled := true }

/-- Whether an entry is the one reserved for plate `j` of member `mb` and still empty. -/
def awaits (r : LpaRun) (j : PlateJob) (mb : LpaMember) (e : Plate) : Bool := e == reservedEntry r j mb

/-- Blink's queue of a cluster. -/
def blinkQueue (s : State) (cl : Nat) : List BlinkSample := smGet [] s.blink cl

/-- Adds a converted plate's flags and counts to its member (R115, R187). -/
def noteMember (mb : LpaMember) (o : OutSet) : LpaMember :=
  let bad := o.elems.any (·.poison)
  { mb with nv := mb.nv || o.elems.any (·.nv), of := mb.of || o.elems.any (·.of),
            status := if bad && mb.status == .ok then .poisoned else mb.status,
            phot := photAdd mb.phot o.phot }

/-- Converts one plate and puts it into its entry of the Plate Queue or into the core's store (R149, R150, R160). The
imaginary plate of a complex op writes its block sums and outlier entries at the same places as the real one and after it,
so that they stand there in the end (DESIGN CHOICE, log 100: R177 and R183 name one array of each). -/
def drainPlate (s : State) (n : Nat) (r : LpaRun) (j : PlateJob) (mb : LpaMember) : State :=
  let p := runParm r mb
  let rd := operandRec mb.dRec
  let o := ocsRec mb.ocs
  let mt := matOf n rd j.imag
  let fw := mt.fw
  let st := j.elems.map (ocsStages s n p mb j.imag)
  let es := st.map (·.1)
  let spec : BlkSpec := { fw, olOut := o.olOut, olThresh := o.olThresh, fold := false }
  let dr := fun (e : OcsElem) =>
    if fw.rnd then draw r.tok.seed p.tensorId r.tok.step (o.srBase + e.m * o.srStride + e.n) else 0
  -- the block grid of a plate begins at plate column 0; in the store it is the grid of the matrix
  let key := fun (e : OcsElem) => if p.dest then blkKey fw e.m e.n else blkKey fw e.row e.col
  let gkey := fun (k : Nat × Nat) =>
    if p.dest then k
    else match es.find? (fun e => blkKey fw e.row e.col == k) with
      | some e => gridCell fw e.m e.n
      | none => k
  let out := convertSet spec key (fun k => givenOf s.mem mt (gkey k)) dr es
  let mb' := noteMember mb out
  let r' : LpaRun := { r with members := r.members.set j.member mb' }
  let c := getCore s n
  let s1 :=
    if p.dest then
      let m1 := writeElems s.mem mt out.elems
      let rows := ((List.range 32).map (fun i => 32 * j.mb + i)).filter (· < p.m)
      let m2 := writePadding m1 mt p.m p.n rows ((colMap p j.array).map (·.2))
      let m3 := writeScales m2 mt out.blks
      let base := coreBase n
      let m4 := writeSides m3 (if o.sumsOut then some (base + o.soBase, o.soPitch) else none)
        (if o.olOut then some (base + o.oloBase, o.oloPitch) else none) out.blks
      setCore (setMem s m4) n { c with lpa := some r' }
    else
      let pq := c.pq.map (fun e => if awaits r j mb e then plateEntry r p mb j fw out else e)
      setCore s n { c with lpa := some r', pq }
  let isBad := fun (e : OcsElem) => e.poison || out.elems.any (fun x => x.row == e.row && x.col == e.col && x.poison)
  if blinkSelected r.tok p j.mb j.array then
    let sm : BlinkSample :=
      { core := n, stream := r.tok.stream, phase := r.tok.phase, shadow := mb.shadow,
        ladderEntry := r.tok.ladderEntry,
        elems := (j.elems.zip st).map (fun z => (z.1.m, z.1.n, z.2.2, z.1.init, isBad z.2.1)) }
    modPhase { s1 with blink := smSet [] s1.blink (n / 64) (blinkQueue s1 (n / 64) ++ [sm]) }
      r.tok.stream r.tok.phase (fun x => { x with samples := x.samples + 1 })
  else s1

/-- Why the OCS cannot convert a plate now: it has no entry, or Blink's queue is full (R151, R213). -/
def plateHeld (s : State) (n : Nat) (r : LpaRun) (j : PlateJob) (mb : LpaMember) : Bool × Bool :=
  let p := runParm r mb
  (!p.dest && !j.entry, blinkSelected r.tok p j.mb j.array && decide ((blinkQueue s (n / 64)).length ≥ 4))

/-- Entries reserved, in the order of the plates, while `free` of them are left (R149): the plates, and the new entries.
Reservation stops at the first plate for which none is left. -/
def reserveFor (r : LpaRun) : Nat → List PlateJob → List PlateJob × List Plate
  | _, [] => ([], [])
  | free, j :: js =>
    match r.members[j.member]? with
    | none => (j :: js, [])
    | some mb =>
      if (runParm r mb).dest || j.entry then
        let x := reserveFor r free js
        (j :: x.1, x.2)
      else match free with
        | 0 => (j :: js, [])
        | k + 1 =>
          let x := reserveFor r k js
          ({ j with entry := true } :: x.1, reservedEntry r j mb :: x.2)

/-- The Plate Queue reserves entries for the plates of core `n` that have none, as far as it has free ones (R149, R151). -/
def reserveEntries (s : State) (n : Nat) : State :=
  let c := getCore s n
  match c.lpa with
  | none => s
  | some r =>
    let x := reserveFor r (16 - c.pq.length) r.banks
    setCore s n { c with lpa := some { r with banks := x.1 }, pq := c.pq ++ x.2 }

/-- One OCS drains the plates of its two arrays in order until one is held (R121, R134, R151). `fuel` bounds the plates. -/
def drainOcs (s : State) (n ocs : Nat) : Nat → State
  | 0 => s
  | fuel + 1 =>
    match (getCore s n).lpa with
    | none => s
    | some r =>
      match r.banks.findIdx? (fun j => j.array / 2 == ocs) with
      | none => s
      | some i =>
        match r.banks[i]? with
        | none => s
        | some j =>
          match r.members[j.member]? with
          | none => s
          | some mb =>
            let h := plateHeld s n r j mb
            if h.1 || h.2 then
              if j.held then s
              else
                let s1 := setCore s n { getCore s n with lpa := some { r with banks := r.banks.set i { j with held := true } } }
                if h.2 then { s1 with cr := { s1.cr with blinkHolds := satAdd s1.cr.blinkHolds 1 } } else s1
            else
              let r1 := { r with banks := r.banks.eraseIdx i }
              drainOcs (drainPlate (setCore s n { getCore s n with lpa := some r1 }) n r1 j mb) n ocs fuel

/-- The most plates that the two banks of an OCS's arrays hold, which bounds a drain. -/
def drainFuel : Nat := 16

/-- Both OCSs of core `n` drain finished banks as far as entries and Blink's queue allow, and load those they have drained
with initial values (R121, R133, R134, R149, R151). -/
def drainBanks (s : State) (n : Nat) : State :=
  let s1 := drainOcs (drainOcs (reserveEntries s n) n 0 drainFuel) n 1 drainFuel
  setCore s1 n { getCore s1 n with lpa := (getCore s1 n).lpa.map (loadInits s1 n) }

/-- Every array has an empty bank for the row block in progress (R132, R151); a complex op uses both banks for one block
(R146). -/
def banksFree (r : LpaRun) : Bool :=
  if runCx r then r.banks.isEmpty else (List.range 4).all (fun j => decide (fullBanks r j < 2))

/-- Whether the row block in progress can end: its banks were empty, its tiles have come (R131, R132), and the op is not at
the boundary where a preemption stops it (R157). -/
def blockReady (r : LpaRun) : Bool :=
  decide (r.mb < rowBlocks r) && banksFree r && !((usedArrays r).any (waitsTile r)) && !r.boundary

/-- ROW_BLOCK_DONE: the arrays finish a row block and switch banks, the Plate Queue reserves the plates' entries, and the
OCSs drain what they can (R127, R132, R149, R160). Under preemption it is the last one before the op pauses (R157). -/
def execRowBlockDone (core : CoreId) (s : State) : Res :=
  let n := core.toNat
  let c := getCore s n
  match c.lpa with
  | none => .next s
  | some r =>
    if blockReady r then
      let r1 := faultMembers r
      let r2 := { r1 with
        mb := r1.mb + 1, inits := r1.inits.filter (·.mb != r1.mb), banks := r1.banks ++ rowBlockJobs s n r1 r1.mb, boundary := c.preempt && !(c.svcTokens.any (sameList r.tok)),
        weights := if kTiles r ≤ 1 then r.weights else r.weights.filter (fun w => decide (tilesFor r r.mb ≤ w.tile)) }
      .next (drainBanks (setCore s n { c with lpa := some r2, noProg := 0 }) n)
    else .next s

/-- A preempted op that runs again reloads the first tile of its next row block, and the initial values of its next plates
(R133, R157). -/
def resumeLpa (s : State) (n : Nat) (r : LpaRun) : LpaRun :=
  loadInits s n { r with tiles := r.tiles.map (fun _ => tilesBefore r r.mb), weights := [], inits := [], boundary := false }

/-- Idle ticks of the arrays of a run at one tick (R131, R151, R187): while one array waits for a tile or for a bank, the one
broadcast (R120, R128) holds back every active array, and each of them lets the tick pass. -/
def idleArrays (r : LpaRun) : Nat :=
  if r.mb < rowBlocks r ∧ r.boundary = false ∧
     (usedArrays r).any (fun j => waitsTile r j || decide (2 ≤ fullBanks r j) || (runCx r && !r.banks.isEmpty)) = true then
    (activeArrays (lpaParm ((r.members.map (·.desc)).headD [])).arrays).length
  else 0

/-- A held plate leaves its bank once an entry, or room in Blink's queue, is free (R151, R213). -/
def execPlateHoldRelease (core : CoreId) (s : State) : Res := .next (drainBanks s core.toNat)

/-- What the conversion of an element's block writes beside the elements: its scale and zero point, its block sum and its
outlier entry, as places (address, bytes) (R90, R177, R183). -/
def sideSpans (n : Nat) (o : OcsRec) (mt : Mat) (m c : Nat) : List (Nat × Nat) :=
  let g := gridCell mt.fw m c
  if !(scaled mt.fw.fmt) then []
  else
    (if mt.fw.smode = 2 then []
     else (mt.sBase + g.1 * mt.sPitch + g.2, 1) ::
       (if isUQ mt.fw.fmt then [(mt.zBase + g.1 * mt.zPitch + g.2, 1)] else [])) ++
    (if o.sumsOut then [(coreBase n + o.soBase + g.1 * o.soPitch + 4 * g.2, 4)] else []) ++
    (if o.olOut then [(coreBase n + o.oloBase + g.1 * o.oloPitch + 8 * g.2, 8)] else [])

/-- The poisoning of a plate that a dest = 1 member has not written, with what goes beside it (R143, R153, R386). -/
def poisonPlate (s : State) (n : Nat) (p : LpaParm) (mb : LpaMember) (imag : Bool) (blk j : Nat) : State :=
  if p.dest then
    let mt := matOf n (operandRec mb.dRec) imag
    let rows := (List.range 32).filter (fun i => 32 * blk + i < p.m && (rowSelected s n p (32 * blk + i)).1)
    let m := rows.foldl (fun m i => (colMap p j).foldl (fun mm c =>
      let sp := elemSpan mt.fw.fmt c.2
      (sideSpans n (ocsRec mb.ocs) mt (32 * blk + i) c.2).foldl (fun x w => poisonSpan x w.1 w.2)
        (poisonSpan mm (mt.base + (32 * blk + i) * mt.pitch + sp.1) sp.2)) m) s.mem
    setMem s m
  else s

/-- The poisoning of every destination plate of a run not yet written (R47, R153, R386). -/
def poisonRest (s : State) (n : Nat) (r : LpaRun) : State :=
  let s1 := r.banks.foldl (fun a j =>
    match r.members[j.member]? with
    | some mb => poisonPlate a n (runParm r mb) mb j.imag j.mb j.array
    | none => a) s
  (List.range (rowBlocks r - r.mb)).foldl (fun a i =>
    r.members.foldl (fun b mb =>
      let p := runParm r mb
      (List.range 4).foldl (fun d j =>
        let d1 := poisonPlate d n p mb false (r.mb + i) j
        if p.cx then poisonPlate d1 n p mb true (r.mb + i) j else d1) b) a) s1

/-- Whether a running VE op of the core reads the Plate Queue (R153, R240). -/
def readsPq (v : VeRun) : Bool :=
  !v.finished && (v.streams.take 4).any (fun st => bits (le st 0 1) 0 2 == 2)

/-- The completion status of a member (R164). -/
def memberStatus (m : LpaMember) : Status :=
  if m.status ≠ .ok then m.status
  else if m.nv then .nv
  else if m.of then .of
  else if clipExceeds m.phot (ocsRec m.ocs).clipThresh then .clipExceed
  else .ok

/-- The counts of a member of a run go into its layer record as it completes (R188). The idle ticks of the arrays count for
the first member. -/
def countMember (s : State) (r : LpaRun) (z : LpaMember × Nat) (st : Status) : State :=
  let ph := if z.2 = 0 then { z.1.phot with idle := r.idle } else z.1.phot
  if (ocsRec z.1.ocs).photEn then photUpdate s r.photBase (lpaParm z.1.desc).layer ph (st == .clipExceed) else s

/-- An op or group that ends with TIMEOUT adds its counts all the same (R188, R386). -/
def countEnded (s : State) (r : LpaRun) : State := r.members.zipIdx.foldl (fun a z => countMember a r z .timeout) s

/-- Every member of a run completes with its status: its counts are added to its layer record, a faulted one is counted,
and its counter signals (R115, R164, R188). A stopping status that a group's member gives its phase is kept as that
member's (R143, R400). -/
def endMembers (s : State) (n : Nat) (r : LpaRun) (status : LpaMember → Status) : State :=
  r.members.zipIdx.foldl (fun a z =>
    let st := status z.1
    let a1 := countMember a r z st
    let a2 := if z.1.faulted then { a1 with cr := { a1.cr with memberFaults := satAdd a1.cr.memberFaults 1 } } else a1
    let a3 := finishOp a2 n r.tok z.1.desc st
    if r.members.length = 1 then a3 else blameMember a2 a3 r.tok.stream r.tok.phase (lpaParm z.1.desc).probId st) s

/-- The completion of an LPA op or group whose plates have all been written or queued (R115, R164, R188). -/
def completeLpa (s : State) (n : Nat) : State :=
  let c := getCore s n
  match c.lpa with
  | none => s
  | some r =>
    if r.mb = rowBlocks r ∧ r.banks.isEmpty = true then
      endMembers (setCore s n { c with lpa := none, noProg := 0 }) n r memberStatus
    else s

/-- Whether an entry of the Plate Queue is one of the run's. -/
def runsPlate (r : LpaRun) (p : Plate) : Bool :=
  p.stream == r.tok.stream && p.phase == r.tok.phase && r.members.any (fun m => m.idx == p.opIdx)

/-- The stall end of R153, when the Plate Queue has been full for 2^(10 + pq_stall_exp) ticks and no running VE op
reads it. -/
def endStalled (n : Nat) (s : State) : State :=
  let c := getCore s n
  match c.lpa with
  | none => s
  | some r =>
    let limit := 2 ^ (10 + r.cfg % 16)
    let reader := match c.ve with | some v => readsPq v | none => false
    if c.pq.length ≥ 16 ∧ c.pqFull ≥ limit ∧ reader = false then
      let s1 := poisonRest s n r
      let s2 := setCore s1 n { getCore s1 n with lpa := none, pq := c.pq.filter (fun p => !runsPlate r p), pqFull := 0 }
      let s3 := endMembers s2 n r (fun _ => .pqStall)
      { s3 with cr := { s3.cr with pqStalls := satAdd s3.cr.pqStalls 1 } }
    else s

end Sys2Proof.Machine
end

