-- ==== Sys2Proof/Machine/Rot.lean ====
section
/-! DEFINITION. The Coelostat: the rotation of R191 to R196 and the COE_STAGE op (06_rotation_and_error_control.md). -/

namespace Sys2Proof.Machine

/-! ## The rotation -/

/-- The sign of an axis position (R192): true for −1. -/
def rotSign (seed id epoch i : Nat) : Bool := bit (draw seed id epoch i) 63

/-- A list of values turned by the signs of a rotation block. -/
def applySigns (sg : List Bool) (xs : List Nat) : List Nat :=
  (xs.zip sg).map (fun z => if z.2 then ffNeg f32F z.1 else z.1)

/-- Butterfly stage `t` (R194): the results, and whether one overflowed. -/
def butterfly (t : Nat) (xs : List Nat) : List Nat × Bool :=
  let out := (List.range xs.length).map (fun j =>
    if bit j t then ffSub f32F (xs.getD (j - 2 ^ t) 0) (xs.getD j 0)
    else ffAdd f32F (xs.getD j 0) (xs.getD (j + 2 ^ t) 0))
  (out.map (·.code), out.any (·.of))

/-- The transform of one rotation block without its normalisation (R194), and whether a butterfly overflowed. -/
def rotBlock (h : Nat) (inv : Bool) (sg : List Bool) (xs : List Nat) : List Nat × Bool :=
  let x0 := if inv then xs else applySigns sg xs
  let r := (List.range h).foldl (fun (a : List Nat × Bool) t =>
    let b := butterfly t a.1
    (b.1, a.2 || b.2)) (x0, false)
  (if inv then applySigns sg r.1 else r.1, r.2)

/-- x × 2^(−k) in binary32 (R194). -/
def scaleDown (k x : Nat) : Nat :=
  match ffDecode f32F x with
  | .fin s m e => (ffFin f32F s m (e - k)).code
  | _ => x

/-- A value with its poison mark. -/
abbrev PVal := Nat × Bool

/-- What the rotations of an op lost (R196): blocks made NaN, blocks made poisoned, and an overflow. -/
structure RotTally where
  nan : Nat
  poison : Nat
  of : Bool
  deriving DecidableEq, Repr

/-- One rotation block with its poison marks (R196). -/
def rotOne (h : Nat) (inv : Bool) (sg : List Bool) (xs : List PVal) : List PVal × RotTally :=
  let lost := xs.map (fun _ => (ffNan f32F, false))
  if xs.any (·.2) then (xs.map (fun _ => (ffNan f32F, true)), { nan := 0, poison := 1, of := false })
  else if xs.any (fun x => !(ffIsFin f32F x.1)) then (lost, { nan := 1, poison := 0, of := false })
  else
    let r := rotBlock h inv sg (xs.map (·.1))
    if r.2 then (lost, { nan := 1, poison := 0, of := true })
    else (r.1.map (fun x => (x, false)), { nan := 0, poison := 0, of := false })

/-- Two tallies added. -/
def addTally (a b : RotTally) : RotTally := { nan := a.nan + b.nan, poison := a.poison + b.poison, of := a.of || b.of }

/-- Nothing lost. -/
def noTally : RotTally := { nan := 0, poison := 0, of := false }

/-- The rotation of one row along its whole axis: `k` blocks of 2^h (R191). -/
def rotRow (h : Nat) (inv : Bool) (sign : Nat → Bool) (row : List PVal) : List PVal × RotTally :=
  let n := 2 ^ h
  (List.range (row.length / n)).foldl (fun (a : List PVal × RotTally) b =>
    let r := rotOne h inv ((List.range n).map (fun i => sign (b * n + i))) ((row.drop (b * n)).take n)
    (a.1 ++ r.1, addTally a.2 r.2)) ([], noTally)

/-- The rotation of every row of a matrix. -/
def rotRows (h : Nat) (inv : Bool) (sign : Nat → Bool) (m : List (List PVal)) : List (List PVal) × RotTally :=
  m.foldl (fun (a : List (List PVal) × RotTally) row =>
    let r := rotRow h inv sign row
    (a.1 ++ [r.1], addTally a.2 r.2)) ([], noTally)

/-- A matrix with rows and columns exchanged; `w` is its width. -/
def transpose {α : Type} [Inhabited α] (w : Nat) (m : List (List α)) : List (List α) :=
  (List.range w).map (fun c => m.map (fun row => row.getD c default))

/-! ## COE_STAGE (R197 to R203) -/

/-- The COE_STAGE body (R199). -/
structure CoeParm where
  src : Nat
  dst : Nat
  aux : Nat
  rows : Nat
  cols : Nat
  hr : Nat
  hc : Nat
  rinv : Bool
  cinv : Bool
  transp : Bool
  auxEn : Bool
  layer : Nat
  rid : Nat
  cid : Nat
  epoch : Nat
  tensorId : Nat
  dstCores : Nat
  rorg : Nat
  corg : Nat
  deriving DecidableEq, Repr

/-- R199. -/
def coeParm (d : Bytes) : CoeParm :=
  { src := bits (le d 8 4) 0 20, dst := bits (le d 12 4) 0 20, aux := bits (le d 16 4) 0 20,
    rows := bits (le d 20 4) 0 20 + 1, cols := bits (le d 24 4) 0 20 + 1, hr := bits (le d 28 1) 0 4,
    hc := bits (le d 28 1) 4 4, rinv := flag d 29 0, cinv := flag d 29 1, transp := flag d 29 2, auxEn := flag d 29 3,
    layer := le d 30 2, rid := le d 32 4, cid := le d 36 4, epoch := bits (le d 40 4) 0 24, tensorId := le d 44 4,
    dstCores := le d 48 8, rorg := le d 56 4, corg := le d 60 4 }

/-- The fields of the COE_STAGE descriptor. -/
def coeFields : List (Nat × Nat) :=
  hdrFields ++ [fldBits 8 0 20, fldBits 12 0 20, fldBits 16 0 20, fldBits 20 0 20, fldBits 24 0 20, fld 28 1,
    fldBits 29 0 4, fld 30 2, fld 32 4, fld 36 4, fldBits 40 0 24, fld 44 4, fld 48 8, fld 56 4, fld 60 4]

/-- The matrix of a source record (R200). -/
def coeSrc (b : Bytes) : Mat :=
  { fw := fmtWord (le b 0 2), base := le b 8 6, pitch := 64 * le b 24 4, sBase := le b 16 6,
    sPitch := 64 * le b 28 4, zBase := 0, zPitch := 0 }

/-- The fields of a source record. -/
def coeSrcFields : List (Nat × Nat) := [fld 0 2, fld 8 6, fld 16 6, fld 24 4, fld 28 4]

/-- Rows and columns of the rotated source (R193, R201). -/
def coeDims (p : CoeParm) : Nat × Nat :=
  (if p.hc = 0 then p.rows else roundUp p.rows (2 ^ p.hc), if p.hr = 0 then p.cols else roundUp p.cols (2 ^ p.hr))

/-- Rows and columns of the output (R201). -/
def coeOut (p : CoeParm) : Nat × Nat :=
  let d := coeDims p
  if p.transp then (d.2, d.1) else d

/-- The auxiliary record in force, with the defaults of aux_en = 0 (R201). -/
def coeAux (s : State) (n : Nat) (p : CoeParm) : OcsRec :=
  if p.auxEn then ocsRec (coreRead s n p.aux 96).data
  else { ocsRec (zeroBytes 96) with srStride := (coeOut p).2 }

/-- The fields of an auxiliary record that a Coelostat uses; every other one is zero (R201, R165). -/
def coeAuxFields : List (Nat × Nat) :=
  [fldBits 0 5 1, fldBits 0 7 2, fld 20 4, fld 24 2, fldBits 44 0 20, fldBits 48 0 20, fld 58 2, fld 60 2,
   fldBits 64 0 40, fldBits 72 0 40]

/-- The destination cores. -/
def coeCores (n : Nat) (p : CoeParm) : List Nat := (bitList 64 p.dstCores).map (fun k => n / 64 * 64 + k)

/-- Rows and bytes of a source: elements and scales, as (first address, row bytes, rows, pitch). -/
def coeSpans (p : CoeParm) (m : Mat) : List (Nat × Nat × Nat × Nat) :=
  let g := gridDims m.fw p.rows p.cols
  (m.base, packedLen m.fw.fmt p.cols, p.rows, m.pitch) ::
    (if scaled m.fw.fmt then [(m.sBase, g.2, g.1, m.sPitch)] else [])

/-- Whether every row of a source lies where the Coelostat of the cluster reaches: module memory, or the host windows (R36). -/
def spanReach (s : State) (r : Reach) (x : Nat × Nat × Nat × Nat) : Bool :=
  (List.range x.2.2.1).all (fun i =>
    let a := x.1 + i * x.2.2.2
    let n := x.2.1
    (region a == .host && region (a + n - 1) == .host) || canAccess s r a n)

/-- The checks of R202. A source whose elem_addr or scale_addr is no multiple of 64 is rejected with BAD_FIELD (DESIGN CHOICE,
log 100: R202 names no status for it, and R585 puts misaligned records under STORE_RANGE). -/
def coeCheck (s : State) (n : Nat) (t : Token) (d : Bytes) : Check :=
  let p := coeParm d
  let badH := fun h => (1 ≤ h && h ≤ 3) || decide (h ≥ 11)
  match firstFail
    [failIf (!(reservedZero d coeFields)) .badReserved,
     failIf (!(ctrCheck s t.stream (opHdr d))) .badField,
     failIf (badH p.hr || badH p.hc || (p.rinv && p.hr == 0) || (p.cinv && p.hc == 0) ||
       (p.hr != 0 && p.rorg % 2 ^ p.hr != 0) || (p.hc != 0 && p.corg % 2 ^ p.hc != 0) || p.dstCores == 0) .badField,
     failIf ((coeCores n p).any (fun c => !(coreAvail s c))) .coreUnavail,
     recCheck s n p.src 32 32 coeSrcFields, recCheck s n p.dst 32 32 operandFields,
     (if p.auxEn then recCheck s n p.aux 96 32 ocsFields else none),
     failIf (p.auxEn && !(reservedZero (coreRead s n p.aux 96).data coeAuxFields)) .badField] with
  | some e => some e
  | none =>
    let raw := (coreRead s n p.src 32).data
    let m := coeSrc raw
    let rd := operandRec (coreRead s n p.dst 32).data
    let fd := fmtWord rd.fw
    let o := coeAux s n p
    let out := coeOut p
    let pd := paddedDims fd out.1 out.2
    let g := gridDims fd out.1 out.2
    firstFail
      [fmtFail (le raw 0 2), fmtFail rd.fw,
       failIf (isUQ m.fw.fmt || decide (m.fw.fmt ≥ 12) || rd.trans || m.base % 64 != 0 ||
         (scaled m.fw.fmt && m.sBase % 64 != 0)) .badField,
       failIf (o.olOut && (!(posFinite o.olThresh) || !(scaled fd.fmt) || fd.axis != 0 || decide (fd.bsize > 2))) .badField,
       failIf (o.sumsOut && (!(scaled fd.fmt) || fd.axis != 0)) .badField,
       failIf (!(operandFits rd 0 pd.1 pd.2 true true)) .storeRange,
       failIf (o.olOut && !(inStore o.oloBase g.1 (8 * g.2) o.oloPitch)) .storeRange,
       failIf (o.sumsOut && !(inStore o.soBase g.1 (4 * g.2) o.soPitch)) .storeRange,
       failIf (!((coeSpans p m).all (spanReach s (.near (n / 64))))) .addrError]

/-- The source matrix widened, padded with +0 (R193, R201). -/
def coeRead (m : Mem) (mt : Mat) (p : CoeParm) : List (List PVal) :=
  let d := coeDims p
  (List.range d.1).map (fun r => (List.range d.2).map (fun c =>
    if r < p.rows ∧ c < p.cols then
      let x := matCell m mt r c
      (if x.poison then ffNan f32F else cellWiden mt.fw x, x.poison)
    else (0, false)))

/-- The rotated, normalised and transposed matrix of an op, and what it lost (R194, R196, R197). -/
def coeTurn (p : CoeParm) (rotSeed : Nat) (x0 : List (List PVal)) : List (List PVal) × RotTally :=
  let d := coeDims p
  -- the rows beyond the source's are no rows of it: they enter the column rotation as +0 (R193)
  let a := if p.hr = 0 then (x0, noTally)
    else
      let r := rotRows p.hr p.rinv (fun i => rotSign rotSeed p.rid p.epoch (p.rorg + i)) (x0.take p.rows)
      (r.1 ++ x0.drop p.rows, r.2)
  let b := if p.hc = 0 then (a.1, noTally)
    else
      let r := rotRows p.hc p.cinv (fun i => rotSign rotSeed p.cid p.epoch (p.corg + i)) (transpose d.2 a.1)
      (transpose d.1 r.1, r.2)
  let y := b.1.map (fun row => row.map (fun z => (scaleDown ((p.hr + p.hc) / 2) z.1, z.2)))
  (if p.transp then transpose d.2 y else y, addTally a.2 b.2)

/-- How the residue of 1 ÷ √2 is applied (R195): true for the fold into an H8 scale. -/
def coeFold (p : CoeParm) (fd : FmtWord) : Bool :=
  (p.hr + p.hc) % 2 == 1 && scaled fd.fmt && fd.sfmt == 1 && fd.smode != 2

/-- The elements of an output before conversion; the multiplied path of R195 is applied here. -/
def coeElems (p : CoeParm) (fd : FmtWord) (y : List (List PVal)) : List OcsElem :=
  let mul := (p.hr + p.hc) % 2 == 1 && !(coeFold p fd)
  (y.zipIdx).flatMap (fun row => (row.1.zipIdx).map (fun z =>
    { row := row.2, col := z.2, m := row.2, n := z.2, x := if mul && !z.1.2 then mulHalfRoot z.1.1 else z.1.1,
      nv := false, of := false, poison := z.1.2 }))

/-- The output of an op written in one destination core (R198, R201). -/
def coeWrite (p : CoeParm) (rd : OperandRec) (o : OcsRec) (out : OutSet) (m : Mem) (core : Nat) : Mem :=
  let mt := matOf core rd false
  let dim := coeOut p
  let m1 := writeElems m mt out.elems
  let m2 := writePadding m1 mt dim.1 dim.2 (List.range dim.1) (List.range dim.2)
  let m3 := writeScales m2 mt out.blks
  let base := coreBase core
  writeSides m3 (if o.sumsOut then some (base + o.soBase, o.soPitch) else none)
    (if o.olOut then some (base + o.oloBase, o.oloPitch) else none) out.blks

/-- The places in the queue of a cluster's Coelostat that its cores' ops hold (R198). -/
def coeTurns (s : State) (cl : Nat) : List Nat :=
  (List.range 64).filterMap (fun k => (getCore s (64 * cl + k)).coe.map (·.turn))

/-- The whole of a checked COE_STAGE op: reads, rotates, converts and writes (R197 to R203). -/
def coeRun (s : State) (n : Nat) (o : NextOp) (host : List HostLine) : State :=
  let p := coeParm o.desc
  let src := coeSrc (coreRead s n p.src 32).data
  let rd := operandRec (coreRead s n p.dst 32).data
  let ax := coeAux s n p
  let v := (coeSpans p src).foldl (fun a x => (List.range x.2.2.1).foldl (fun b i =>
    viewSpan initDma (.near (n / 64)) host b (x.1 + i * x.2.2.2) x.2.1) a) (viewOf s)
  let t := coeTurn p o.tok.rotSeed (coeRead v.m src p)
  let fd := fmtWord rd.fw
  let es := coeElems p fd t.1
  let spec : BlkSpec := { fw := fd, olOut := ax.olOut, olThresh := ax.olThresh, fold := coeFold p fd }
  let dr := fun (e : OcsElem) =>
    if fd.rnd then draw o.tok.seed p.tensorId o.tok.step (ax.srBase + e.m * ax.srStride + e.n) else 0
  let key := fun (e : OcsElem) => gridCell fd e.m e.n
  let given := fun k => givenOf s.mem (matOf n rd false) k
  let out := convertSet spec key given dr es
  let s1 := v.s
  let m := (coeCores n p).foldl (coeWrite p rd ax out) s1.mem
  let bad := out.elems.any (·.poison)
  let clip := clipExceeds out.phot ax.clipThresh
  let st : Status :=
    match v.err with
    | some e => e
    | none => if bad then .poisoned else if t.2.of then .of else if clip then .clipExceed else .ok
  let cr := s1.cr
  let s2 := setMem { s1 with cr := { cr with coeNan := satAdd cr.coeNan t.2.nan,
                                              coePoison := satAdd cr.coePoison t.2.poison } } m
  let s3 := passOps s2 n 1
  let run : OpRun :=
    { tok := o.tok, idx := o.idx, desc := o.desc, status := st, finished := true, phot := out.phot,
      photBase := if ax.photEn then photBaseNow s else 0,
      turn := (coeTurns s (n / 64)).foldl max 0 + 1 }
  setCore s3 n { getCore s3 n with coe := some run }

/-- COE_STAGE (R199 to R203). -/
def execCoeStage (core : CoreId) (host : List HostLine) (s : State) : Res :=
  let n := core.toNat
  match startable s n 0x11 (fun c => c.coe.isNone) with
  | none => .next s
  | some o =>
    match coeCheck s n o.tok o.desc with
    | some st => .next (rejectOp s n o st)
    | none => .next (coeRun s n o host)

/-- The counts of a Coelostat op go into its layer record (R188, R203). -/
def countCoe (s : State) (r : OpRun) (st : Status) : State :=
  photUpdate s r.photBase (coeParm r.desc).layer r.phot (st == .clipExceed)

/-- Completion of a Coelostat op, in its turn among those of its cluster: the layer record, the signal, the status (R188,
R198, R203). -/
def completeCoe (s : State) (n : Nat) : State :=
  let c := getCore s n
  match c.coe with
  | none => s
  | some r =>
    if (coeTurns s (n / 64)).any (· < r.turn) then s
    else
    let s1 := setCore s n { c with coe := none, noProg := 0 }
    finishOp (countCoe s1 r r.status) n r.tok r.desc r.status

end Sys2Proof.Machine
end

