-- ==== Sys2Proof/Machine/Ru.lean ====
section
/-! DEFINITION. The Reduction Unit and the softmax and normalisation functions (07_vector_and_reduction.md R248 to
R255). Values are binary32 codes; sums run on binary64 codes. -/

namespace Sys2Proof.Machine

/-- Exact widening to binary64, and one rounding to binary32. -/
def to64 (x : Nat) : Nat := (ffConv f32F f64F x).code
/-- One rounding of a binary64 code to binary32. -/
def to32 (x : Nat) : Nat := (ffConv f64F f32F x).code

/-- Adjacent values added in pairs. -/
def pairUp : List Nat → List Nat
  | a :: b :: l => (ffAdd f64F a b).code :: pairUp l
  | l => l

/-- The pairwise sum of R250: adjacent lanes first, then adjacent pairs. -/
def treeSum : Nat → List Nat → Nat
  | 0, l => l.headD 0
  | k + 1, l => treeSum k (pairUp l)

/-- A row or segment that has received nothing (R248, R250). -/
def ruRowZero : RuRow :=
  { pushes := 0, positions := 0, count := 0, sum := 0, sumsq := 0, best := 0, bestPos := 0,
    m := ffInf f64F true, s := 0, nan := false, nanPos := 0, pinf := 0, ninf := 0 }

/-- One unmasked value enters a row at position `p`: counts, classes and the best value (R248). -/
def ruValue (op : Nat) (r : RuRow) (p x : Nat) : RuRow :=
  let better := if op = 4 then ffLt f32F x r.best else ffLt f32F r.best x
  let first := decide (r.count = 0)
  match ffDecode f32F x with
  | .nan => { r with count := r.count + 1, nan := true, nanPos := if r.nan then r.nanPos else p,
                     best := if first then x else r.best, bestPos := if first then p else r.bestPos }
  | v =>
    let r1 := if first || better then { r with best := x, bestPos := p } else r
    { r1 with count := r.count + 1, pinf := r.pinf + b2n (v == .inf false), ninf := r.ninf + b2n (v == .inf true) }

/-- The share of one vector in SUMEXP (R250). -/
def ruSumExp (r : RuRow) (xs : List (Option Nat)) : RuRow :=
  if r.nan || r.pinf != 0 then r
  else
    let live : Option Nat → Option Nat := fun o => o.bind (fun x => if ffIsFin f32F x then some x else none)
    match xs.filterMap live with
    | [] => r
    | x0 :: rest =>
      let mv := to64 (rest.foldl (fun a x => if ffLt f32F a x then x else a) x0)
      let ex := fun x => (ffExp f64F (ffSub f64F x mv).code).code
      let sv := treeSum 6 (xs.map (fun o => match live o with | some x => ex (to64 x) | none => 0))
      if ffLt f64F r.m mv then
        { r with s := (ffAdd f64F (ffMul f64F r.s (ffExp f64F (ffSub f64F r.m mv).code).code).code sv).code, m := mv }
      else
        { r with s := (ffAdd f64F r.s (ffMul f64F sv (ffExp f64F (ffSub f64F mv r.m).code).code).code).code }

/-- Lanes [lo, hi) of a vector enter a row; `act` holds the unmasked lanes (R250). -/
def ruChunk (op : Nat) (r : RuRow) (vals : List Nat) (act lo hi : Nat) : RuRow :=
  let xs := vals.zipIdx.map (fun z => if lo ≤ z.2 ∧ z.2 < hi ∧ bit act z.2 = true then some z.1 else none)
  let r1 := xs.zipIdx.foldl (fun a z => match z.1 with
    | some x => ruValue op a (r.positions + (z.2 - lo)) x
    | none => a) r
  let w := xs.map (fun o => match o with | some x => to64 x | none => 0)
  let r2 := match op with
    | 1 => { r1 with sum := (ffAdd f64F r.sum (treeSum 6 w)).code }
    | 2 => { r1 with sumsq := (ffAdd f64F r.sumsq (treeSum 6 (w.map (fun x => (ffMul f64F x x).code)))).code }
    | 6 => ruSumExp r1 xs
    | 7 => { r1 with sum := (ffAdd f64F r.sum (treeSum 6 w)).code,
                     sumsq := (ffAdd f64F r.sumsq (treeSum 6 (w.map (fun x => (ffMul f64F x x).code)))).code }
    | _ => r1
  { r2 with positions := r.positions + (hi - lo) }

/-- Row classes as their bytes (R252): 0 NORMAL, 1 MASKED, 2 NAN, 3 INF. -/
def rowNormal : Nat := 0
/-- Class MASKED. -/
def rowMasked : Nat := 1
/-- Class NAN. -/
def rowNan : Nat := 2
/-- Class INF. -/
def rowInf : Nat := 3

/-- 1 ÷ √x of a binary64 code, rounded once to binary32 (R250); NaN where x is below zero. -/
def rstdOf (x : Nat) : Nat :=
  match ffDecode f64F x with
  | .nan => ffNan f32F
  | .inf s => if s then ffNan f32F else 0
  | .fin s m e => if m = 0 then ffInf f32F s else if s then ffNan f32F else (ffRsqrtPos f32F m e).code

/-- One result register. -/
def oneRes (x : Nat) : RuRes := { lo := x, hi := 0, pair := false }
/-- A pair of result registers. -/
def pairRes (x y : Nat) : RuRes := { lo := x, hi := y, pair := true }

/-- MOMENTS of a row (R250). -/
def ruMoments (r : RuRow) (eps : Nat) : RuRes :=
  let n := (ffOfInt f64F (r.count : Int) 0).code
  let mean := (ffDiv f64F r.sum n).code
  let d := (ffSub f64F (ffDiv f64F r.sumsq n).code (ffMul f64F mean mean).code).code
  let var := if ffLt f64F 0 d then d else 0
  pairRes (to32 mean) (rstdOf (ffAdd f64F var (to64 eps)).code)

/-- The result of a row or segment and its class (R248). -/
def ruResult (op : Nat) (r : RuRow) (eps : Nat) : RuRes × Nat :=
  let nan := ffNan f32F
  let badSum := r.nan || (r.pinf != 0 && r.ninf != 0)
  match op with
  | 1 => if r.count = 0 then (oneRes 0, rowMasked) else if badSum then (oneRes nan, rowNan)
    else (oneRes (to32 r.sum), rowNormal)
  | 2 => if r.count = 0 then (oneRes 0, rowMasked) else if badSum then (oneRes nan, rowNan)
    else (oneRes (to32 r.sumsq), rowNormal)
  | 3 => if r.count = 0 then (oneRes (ffInf f32F true), rowMasked) else if r.nan then (oneRes nan, rowNan)
    else (oneRes r.best, rowNormal)
  | 4 => if r.count = 0 then (oneRes (ffInf f32F false), rowMasked) else if r.nan then (oneRes nan, rowNan)
    else (oneRes r.best, rowNormal)
  | 5 => if r.count = 0 then (oneRes 0xFFFFFFFF, rowMasked) else if r.nan then (oneRes r.nanPos, rowNan)
    else (oneRes r.bestPos, rowNormal)
  | 6 => if r.count - r.ninf = 0 then (pairRes (ffInf f32F true) 0, rowMasked)
    else if r.nan then (pairRes nan nan, rowNan)
    else if r.pinf ≠ 0 then (pairRes (ffInf f32F false) (ffOfInt f32F (r.pinf : Int) 0).code, rowInf)
    else (pairRes (to32 r.m) (to32 r.s), rowNormal)
  | _ => if r.count = 0 then (pairRes 0 0, rowMasked)
    else if r.nan || r.pinf != 0 || r.ninf != 0 then (pairRes nan nan, rowNan)
    else
      let p := ruMoments r eps
      (p, if ffIsNan f32F p.lo || ffIsNan f32F p.hi then rowNan else rowNormal)

/-- The segments that one vector ends: results, and the open segment (R249). `bs` lists the lanes at which a
segment begins. -/
def ruSegments (op eps : Nat) (vals : List Nat) (act : Nat) : List Nat → Nat → RuRow → List (RuRes × Nat) × RuRow
  | [], lo, r => ([], ruChunk op r vals act lo 64)
  | b :: bs, lo, r =>
    let r1 := ruChunk op r vals act lo b
    let rest := ruSegments op eps vals act bs b ruRowZero
    (ruResult op r1 eps :: rest.1, rest.2)

/-- The capacity of the result queue (R251). -/
def ruQueueLen : Nat := 256

/-- One RUP (R248, R249, R251): the new state and the completed rows, or none where the queue has no room. -/
def ruPush (ru : RuState) (eps : Nat) (vals : List Nat) (act starts : Nat) :
    Option (RuState × List (RuRes × Nat)) :=
  if ru.op = 0 then some (ru, [])
  else if ru.seg then
    let bounds := (bitList 64 (act &&& starts)).filter (fun b => ru.open_.isSome || b != 0)
    let r := ruSegments ru.op eps vals act bounds 0 (ru.open_.getD ruRowZero)
    some ({ ru with open_ := some r.2 }, r.1)
  else if ru.width ≠ 0 then
    let w := 4 * 2 ^ ru.width
    let rows := (List.range (64 / w)).map (fun i =>
      ruResult ru.op (ruChunk ru.op ruRowZero vals act (i * w) (i * w + w)) eps)
    if ru.queue.length + rows.length > ruQueueLen then none
    else some ({ ru with queue := ru.queue ++ rows.map (·.1) }, rows)
  else
    let r := ruChunk ru.op (ru.open_.getD ruRowZero) vals act 0 64
    let r1 := { r with pushes := r.pushes + 1 }
    if r1.pushes < ru.nvec then some ({ ru with open_ := some r1 }, [])
    else if ru.queue.length + 1 > ruQueueLen then none
    else
      let x := ruResult ru.op r1 eps
      some ({ ru with open_ := none, queue := ru.queue ++ [x.1] }, [x])

/-- The RU at the start of a VE_RUN (R249): a row left open continues only under the same four fields. -/
def ruStart (ru : RuState) (op : Nat) (seg : Bool) (width nvec : Nat) : RuState :=
  let same := ru.op == op && ru.seg == seg && ru.width == width && ru.nvec == nvec
  { ru with op, seg, width, nvec, open_ := if same && !seg then ru.open_ else none }

/-! ## Softmax and normalisation (R253 to R255) -/

/-- a ÷ b rounded once to binary32, or to BF16 and widened, with the flags of R230. -/
def quotTo (bf : Bool) (a b : Nat) : FRes :=
  if bf then
    match ffDecode f32F a, ffDecode f32F b with
    | .fin s m e, .fin t n k =>
      if m = 0 ∨ n = 0 then ffDiv f32F a b
      else let q := ffQuot bf16F (s != t) m n (e - k); { q with code := bf16To32 q.code }
    | _, _ => ffDiv f32F a b
  else ffDiv f32F a b

/-- exp(x − m) ÷ s, each operation rounded once (R253); its flags are those of the three. -/
def smnQuot (bf : Bool) (x m s : Nat) : FRes :=
  let t := ffSub f32F x m
  let e := ffExp f32F t.code
  let y := quotTo bf e.code s
  { code := y.code, nv := t.nv || e.nv || y.nv, of := t.of || e.of || y.of }

/-- Whether R253 states no result for a lane: an unmasked +∞ in a row whose m is neither NaN nor +∞. -/
def smnOpen (x m : Nat) (masked : Bool) : Bool :=
  !masked && x == ffInf f32F false && !(ffIsNan f32F m) && m != ffInf f32F false

/-- R253 for one lane that it states a result for. -/
def smnLane (x m s : Nat) (masked bf : Bool) : FRes :=
  match ffDecode f32F m with
  | .nan => { code := ffNan f32F }
  | .inf true => { code := 0 }
  | .inf false => if !masked && x == ffInf f32F false then quotTo bf 0x3F800000 s else { code := 0 }
  | .fin _ _ _ =>
    if masked || x == ffInf f32F false || x == ffInf f32F true then { code := 0 } else smnQuot bf x m s

/-- R254 for one lane. -/
def smbLane (y dy c m : Nat) (masked : Bool) : FRes :=
  match ffDecode f32F m with
  | .nan => { code := ffNan f32F }
  | .inf _ => { code := 0 }
  | .fin _ _ _ =>
    if masked then { code := 0 }
    else
      let d := ffSub f32F dy c
      let p := ffMul f32F y d.code
      { code := p.code, nv := d.nv || p.nv, of := d.of || p.of }

/-- R255 for one lane. -/
def nrmLane (x mean rstd : Nat) (masked : Bool) : FRes :=
  if ffIsNan f32F mean then { code := ffNan f32F }
  else if masked then { code := 0 }
  else
    let d := ffSub f32F x mean
    let p := ffMul f32F d.code rstd
    { code := p.code, nv := d.nv || p.nv, of := d.of || p.of }

end Sys2Proof.Machine
end

