-- ==== Sys2Proof/Machine/Blink.lean ====
section
/-! DEFINITION. Blink: the evaluation of a sampled plate (06_rotation_and_error_control.md R207 to R215, R217). -/

namespace Sys2Proof.Machine

/-- A shadow record (R208). -/
structure ShadowRec where
  a : Nat
  aTrans : Bool
  bTrans : Bool
  aWide : Bool
  bWide : Bool
  b : Nat
  aPitch : Nat
  bPitch : Nat
  k : Nat
  deriving DecidableEq, Repr

/-- R208. -/
def shadowRec (d : Bytes) : ShadowRec :=
  { a := le d 0 6, aTrans := flag d 6 0, bTrans := flag d 6 1, aWide := flag d 6 2, bWide := flag d 6 3,
    b := le d 8 6, aPitch := 64 * le d 16 4, bPitch := 64 * le d 20 4, k := bits (le d 24 4) 0 20 + 1 }

/-- Address and bytes of the shadow element at row r, column c. -/
def shadowAt (base pitch : Nat) (wide : Bool) (r c : Nat) : Nat × Nat :=
  let n := if wide then 4 else 2
  (base + r * pitch + n * c, n)

/-- A_sh[m, k] and B_sh[k, n]; B is stored N × K, or K × N when b_trans is 1 (R122, R208). -/
def shadowA (h : ShadowRec) (m k : Nat) : Nat × Nat :=
  if h.aTrans then shadowAt h.a h.aPitch h.aWide k m else shadowAt h.a h.aPitch h.aWide m k
/-- The address of B_sh[k, n]. -/
def shadowB (h : ShadowRec) (k n : Nat) : Nat × Nat :=
  if h.bTrans then shadowAt h.b h.bPitch h.bWide k n else shadowAt h.b h.bPitch h.bWide n k

/-- A shadow value as a binary32 code. -/
def shadowVal (m : Mem) (x : Nat × Nat) : Nat :=
  let v := leNat (memRead m x.1 x.2)
  if x.2 = 2 then bf16To32 v else v

/-- sqrt(num ÷ den) of two positive binary64 codes, rounded once to binary32 (R211). -/
def rootQuot (num den : Nat) : Nat :=
  match ffDecode f64F num, ffDecode f64F den with
  | .fin _ m e, .fin _ n k =>
    let k0 := 160 + Nat.log2 n
    let sh := if (e - k - k0) % 2 = 0 then k0 else k0 + 1
    let q := (m <<< sh) / n
    let r := isqrt q
    (ffFin f32F false r ((e - k - sh) / 2) (decide ((m <<< sh) % n ≠ 0 ∨ r * r ≠ q))).code
  | _, _ => ffInf f32F false

/-- The error of a sample, or none for a void one (R210, R211). -/
def blinkError (m : Mem) (bs : BlinkSample) : Option Nat :=
  let h := shadowRec bs.shadow
  let ks := List.range h.k
  let bad := bs.elems.any (fun z => z.2.2.2.2 || ks.any (fun k =>
    let x := shadowA h z.1 k; let y := shadowB h k z.2.1
    spanPoison m x.1 x.2 || spanPoison m y.1 y.2))
  if bad then none
  else
    let refs := bs.elems.map (fun z =>
      (z.2.2.1, ks.foldl (fun r k =>
        (ffFma f32F (shadowVal m (shadowA h z.1 k)) (shadowVal m (shadowB h k z.2.1)) r).code) z.2.2.2.1))
    if refs.any (fun p => !(ffIsFin f32F p.2)) then none
    else if refs.any (fun p => !(ffIsFin f32F p.1)) then some (ffInf f32F false)
    else
      let sq := fun x => (ffMul f64F x x).code
      let num := refs.foldl (fun a p => (ffAdd f64F a (sq (ffSub f64F (to64 p.1) (to64 p.2)).code)).code) 0
      let den := refs.foldl (fun a p => (ffAdd f64F a (sq (to64 p.2))).code) 0
      if den = 0 then some (if num = 0 then 0 else ffInf f32F false)
      else if num = 0 then some 0
      else some (rootQuot num den)

/-- e in units of 2^−32, to nearest; +∞ gives all ones (R217). -/
def errUnits (e : Nat) : Nat :=
  match ffDecode f32F e with
  | .fin _ m x => min (if x + 32 ≥ 0 then m <<< (x + 32).toNat else rneShift m (-(x + 32)).toNat false) (2 ^ 64 - 1)
  | _ => 2 ^ 64 - 1

/-- The ladder entry after a sample (R217). -/
def ladderSample (b : Bytes) (e : Option Nat) (exceed : Bool) : Bytes :=
  let b1 := satField b 24 4 1
  match e with
  | none => satField b1 36 4 1
  | some x =>
    let b2 := if exceed then satField b1 28 4 1 else b1
    satField (putBytes b2 32 (leBytes 4 (maxCode32 (le b2 32 4) x))) 40 8 (errUnits x)

/-- Bytes 8 to 63 of a ladder entry updated by the module; an entry that cannot be read is left. -/
def ladderUpdate (s : State) (entry : Option Nat) (f : Bytes → Bytes) : State :=
  match entry with
  | none => s
  | some a =>
    let r := read s .dram a 64
    match r.err with
    | some _ => s
    | none => write s .dram a (f r.data)

/-- The spans of memory that a sample's shadows occupy. -/
def shadowSpans (bs : BlinkSample) : List (Nat × Nat) :=
  let h := shadowRec bs.shadow
  bs.elems.flatMap (fun z => (List.range h.k).flatMap (fun k => [shadowA h z.1 k, shadowB h k z.2.1]))

/-- BLINK_SAMPLE (R210 to R213): the oldest sample of the cluster's queue is evaluated and counted. -/
def execBlinkSample (cluster : ClusterId) (host : List HostLine) (s : State) : Res :=
  let cl := cluster.toNat
  match blinkQueue s cl with
  | [] => .next s
  | bs :: rest =>
    let v := (shadowSpans bs).foldl (fun a x => viewSpan initDma .dma host a x.1 x.2) (viewOf s)
    let e := blinkError v.m bs
    let thr := match getPhase s bs.stream bs.phase with
      | some p => le p.ladder 4 4
      | none => ffNan f32F
    let exceed := match e with | some x => ffLt f32F thr x | none => false
    let s1 := ladderUpdate { v.s with blink := smSet [] v.s.blink cl rest } bs.ladderEntry
      (fun b => ladderSample b e exceed)
    let s2 := { s1 with cr := { s1.cr with blinkSamples := satAdd s1.cr.blinkSamples 1 } }
    .next (modPhase s2 bs.stream bs.phase (fun p =>
      { p with samples := p.samples - 1, exceed := p.exceed || exceed,
               errMax := match e with | some x => maxCode32 p.errMax x | none => p.errMax }))

end Sys2Proof.Machine
end

