-- ==== Sys2Proof/Machine/Vec.lean ====
section
/-! DEFINITION. The Vector Engine: VE_RUN, its checks, streams, gather entries, precise faults and the issue of one
micro-op (07_vector_and_reduction.md R224 to R247). The micro-ops themselves stand in Uops.lean. -/

namespace Sys2Proof.Machine

/-- The VE_RUN body (R233). -/
structure VeParm where
  prog : Nat
  plen : Nat
  iters : Nat
  ctx : Nat
  laneMask : Nat
  constBase : Nat
  streamBase : Nat
  gatherBase : Nat
  ruOp : Nat
  ruSeg : Bool
  ruWidth : Nat
  ruNvec : Nat
  rsBase : Nat
  rsEn : Bool
  tensorId : Nat
  layer : Nat
  faultRec : Nat
  deriving DecidableEq, Repr

/-- R233. -/
def veParm (d : Bytes) : VeParm :=
  { prog := bits (le d 8 4) 0 20, plen := bits (le d 8 4) 20 6 + 1, iters := bits (le d 12 4) 0 24 + 1,
    ctx := bits (le d 12 4) 24 1, laneMask := le d 16 8, constBase := bits (le d 24 4) 0 20,
    streamBase := bits (le d 28 4) 0 20, gatherBase := bits (le d 32 4) 0 20, ruOp := bits (le d 36 4) 0 4,
    ruSeg := flag d 36 4, ruWidth := bits (le d 36 4) 5 3, ruNvec := bits (le d 36 4) 8 16 + 1,
    rsBase := bits (le d 40 4) 0 20, rsEn := flag d 42 4, tensorId := le d 44 4, layer := le d 48 2,
    faultRec := bits (le d 50 4) 0 20 }

/-- The fields of the VE_RUN descriptor (R233). -/
def veFields : List (Nat × Nat) :=
  hdrFields ++ [fldBits 8 0 26, fldBits 12 0 25, fld 16 8, fldBits 24 0 20, fldBits 28 0 20, fldBits 32 0 20,
    fldBits 36 0 24, fldBits 40 0 21, fld 44 4, fld 48 2, fldBits 50 0 20]

/-- A micro-op (R227): mask select and variant are the two parts of mod. -/
structure Uop where
  op : Nat
  d : Nat
  a : Nat
  b : Nat
  sel : Nat
  var : Nat
  deriving DecidableEq, Repr

/-- R227. -/
def uopOf (w : Nat) : Uop :=
  { op := bits w 24 8, d := bits w 18 6, a := bits w 12 6, b := bits w 6 6, sel := bits w 0 3, var := bits w 3 3 }

/-- The register fields a micro-op uses (d, a, b) and the set of its valid variants, for each entry of the
catalogue (R228, R229); none for an opcode beyond it. -/
def uopUse (op var : Nat) : Option ((Bool × Bool × Bool) × Nat) :=
  let d := (true, false, false); let a := (false, true, false)
  let da := (true, true, false); let ab := (false, true, true); let dab := (true, true, true)
  match op with
  | 0x00 => some ((false, false, false), 0x01)
  | 0x01 => some (da, 0x01)
  | 0x02 => some (da, 0x01)
  | 0x03 => some (d, 0x03)
  | 0x04 => some (d, 0xFF)
  | 0x05 => some (a, 0x0F)
  | 0x06 => some (da, 0x0F)
  | 0x07 => some (ab, 0x0F)
  | 0x08 => some (ab, 0xFF)
  | 0x09 => some (dab, 0x03)
  | 0x0A => some (dab, 0x03)
  | 0x0B => some (dab, 0x03)
  | 0x0C => some (dab, 0x03)
  | 0x0D => some (dab, 0x0F)
  | 0x0E => some (if var = 2 then dab else da, 0x07)
  | 0x0F => some (da, 0x01)
  | 0x10 => some (da, 0x01)
  | 0x11 => some (da, 0x01)
  | 0x12 => some (dab, 0x01)
  | 0x13 => some (da, 0x01)
  | 0x14 => some (da, 0x01)
  | 0x15 => some (da, 0x01)
  | 0x16 => some (if var = 5 then dab else da, 0x3F)
  | 0x17 => some (dab, 0x01)
  | 0x18 => some (dab, 0x01)
  | 0x19 => some (dab, 0x01)
  | 0x1A => some (dab, 0x0F)
  | 0x1B => some (dab, 0x07)
  | 0x1C => some (dab, 0x0F)
  | 0x1D => some (dab, 0xFF)
  | 0x1E => some (dab, 0x3F)
  | 0x1F => some (dab, 0x01)
  | 0x20 => some (dab, 0x0F)
  | 0x21 => some (dab, 0x01)
  | 0x22 => some (a, 0xFF)
  | 0x23 => some (d, 0x03)
  | 0x24 => some (dab, 0x03)
  | 0x25 => some (dab, 0x01)
  | 0x26 => some (dab, 0x01)
  | 0x27 => some (da, 0x03)
  | _ => none

/-- R229 on one micro-op of a program whose op carries `ruOp` and `ruSeg`. -/
def uopOk (ruOp : Nat) (ruSeg : Bool) (u : Uop) : Bool :=
  match uopUse u.op u.var with
  | none => false
  | some (use, vars) =>
    let noMask := u.op == 0x00 || u.op == 0x02 || u.op == 0x20
    let maskDst := u.op == 0x1D || u.op == 0x1E || u.op == 0x20
    let pair63 := match u.op with
      | 0x23 => u.d == 63 && (ruOp == 6 || ruOp == 7)
      | 0x24 => u.b == 63
      | 0x25 => u.d == 63
      | 0x26 => u.b == 63
      | _ => false
    bit vars u.var && (!noMask || u.sel == 0) && (use.1 || u.d == 0) && (use.2.1 || u.a == 0) &&
    (use.2.2 || u.b == 0) && (!maskDst || decide (1 ≤ u.d ∧ u.d ≤ 7)) &&
    (u.op != 0x20 || decide (u.a ≤ 7 ∧ u.b ≤ 7)) && !pair63 && !(u.op == 0x23 && ruSeg)

/-- A stream record (R236). -/
structure StreamRec where
  kind : Nat
  fw : Nat
  elem : Nat
  scale : Nat
  rowLen : Nat
  rows : Nat
  elemPitch : Nat
  scalePitch : Nat
  deriving DecidableEq, Repr

/-- R236. -/
def streamRec (b : Bytes) : StreamRec :=
  { kind := bits (le b 0 1) 0 2, fw := le b 2 2, elem := le b 4 6, scale := le b 10 6,
    rowLen := bits (le b 16 4) 0 20 + 1, rows := bits (le b 20 4) 0 24 + 1, elemPitch := 64 * le b 24 4,
    scalePitch := 64 * le b 28 4 }

/-- The fields of a stream record. -/
def streamFields : List (Nat × Nat) :=
  [fldBits 0 0 2, fld 2 2, fld 4 6, fld 10 6, fldBits 16 0 20, fldBits 20 0 24, fld 24 4, fld 28 4]

/-- The matrix of a memory stream. -/
def streamMat (r : StreamRec) : Mat :=
  { fw := fmtWord r.fw, base := r.elem, pitch := r.elemPitch, sBase := r.scale, sPitch := r.scalePitch,
    zBase := 0, zPitch := 0 }

/-- The check of a stream record (R236): an output reaches to the padding of its last blocks (R70). `used` says that the
program or a segmented RU op uses the stream. -/
def streamCheck (s : State) (n : Nat) (raw : Bytes) (isOut used : Bool) : Check :=
  let r := streamRec raw
  let f := fmtWord r.fw
  if !(reservedZero raw streamFields) then some .badReserved
  else
    let word := firstFail [fmtFail r.fw, failIf (isUQ f.fmt || f.axis != 0) .badField]
    match r.kind with
    | 0 => failIf used .badField
    | 1 =>
      firstFail [word, failIf (r.elem % 64 != 0) .badField,
        failIf (!(canAccess s (.core n) r.elem (extentLen r.rows (packedLen f.fmt
          (if isOut then (paddedDims f r.rows r.rowLen).2 else r.rowLen)) r.elemPitch))) .badField,
        failIf (scaled f.fmt && (r.scale % 64 != 0 ||
          !(canAccess s (.core n) r.scale (extentLen r.rows (cdiv r.rowLen (blkSize f)) r.scalePitch)))) .badField]
    | 2 => firstFail [failIf isOut .badField, word]
    | _ => some .badField

/-- A gather entry (R243). -/
structure GatherEnt where
  base : Nat
  type : Nat
  limit : Nat
  deriving DecidableEq, Repr

/-- R243. -/
def gatherEnt (b : Bytes) : GatherEnt :=
  { base := le b 0 6, type := bits (le b 6 1) 0 3, limit := le b 8 4 }

/-- Bytes of an element of a gather entry. -/
def gatherSize (t : Nat) : Nat := match t with | 0 => 4 | 1 => 4 | 2 => 2 | 3 => 2 | _ => 1

/-- Whether an address lies in the core store of core `n`. -/
def inOwnStore (n a : Nat) : Bool := region a == .core n

/-- The check of a gather entry that the program uses (R243, R245). -/
def gatherCheck (s : State) (n : Nat) (raw : Bytes) (scaAdd sca : Bool) : Check :=
  let g := gatherEnt raw
  let z := gatherSize g.type
  firstFail [failIf (!(reservedZero raw [fld 0 6, fldBits 6 0 3, fld 8 4])) .badReserved,
    failIf (decide (g.type > 4) || g.limit == 0 || g.base % z != 0 || !(canAccess s (.core n) g.base z)) .badField,
    failIf (sca && decide (g.type > 1)) .badField,
    failIf (scaAdd && g.type == 0 && !(inOwnStore n g.base)) .badField]

/-- The context that a stream's ops must name (R242): 1 for the block of a service. -/
def ctxOf (stream : Nat) : Nat := if stream ≥ 256 then 1 else 0

/-- A record array of the core store: within it, aligned, and not poisoned (R627). -/
def recArea (s : State) (n off len al : Nat) : Check :=
  if off % al ≠ 0 ∨ off + len > coreStoreLen then some .badField
  else failIf (spanPoison s.mem (coreBase n + off) len) .poisoned

/-- The micro-ops of a program. -/
def progOf (s : State) (n : Nat) (p : VeParm) : List Nat :=
  (List.range p.plen).map (fun i => leNat (memRead s.mem (coreBase n + p.prog + 4 * i) 4))

/-- Every check of R229, R233, R236, R242 and R243 before a VE_RUN starts. -/
def veCheck (s : State) (n : Nat) (t : Token) (d : Bytes) : Check :=
  let p := veParm d
  match firstFail
    [failIf (!(reservedZero d veFields)) .badReserved,
     failIf (!(ctrCheck s t.stream (opHdr d))) .badField,
     failIf (p.ctx != ctxOf t.stream || decide (p.ruOp > 7) || decide (p.ruWidth > 4) || (p.ruSeg && p.ruWidth != 0) ||
       p.constBase % 64 != 0 || decide (p.constBase + 256 > coreStoreLen) ||
       decide (p.faultRec + 32 > coreStoreLen)) .badField,
     recArea s n p.prog (4 * p.plen) 4, recArea s n p.streamBase 256 1] with
  | some e => some e
  | none =>
    let us := (progOf s n p).map uopOf
    let uses := fun (op k : Nat) => us.any (fun u => u.op == op && u.var % 4 == k)
    let gUsed := fun k => uses 6 k || uses 7 k || uses 8 k
    let srec := fun (i : Nat) => memRead s.mem (coreBase n + p.streamBase + 32 * i) 32
    let ent := fun (i : Nat) => memRead s.mem (coreBase n + p.gatherBase + 16 * i) 16
    firstFail
      ([failIf (us.any (fun u => !(uopOk p.ruOp p.ruSeg u))) .badField] ++
       (List.range 4).map (fun i => streamCheck s n (srec i) false (uses 4 i)) ++
       (List.range 4).map (fun i =>
         streamCheck s n (srec (4 + i)) true (uses 5 i || (i == 3 && p.ruSeg && p.ruOp != 0))) ++
       (if (List.range 4).any gUsed then
          recArea s n p.gatherBase 64 64 ::
          ((List.range 4).filter gUsed).map (fun i => gatherCheck s n (ent i)
            (us.any (fun u => u.op == 8 && u.var == i)) (uses 8 i))
        else []))

/-! ## The environment of a running VE op -/

/-- A running VE op with its register context and the state around it. -/
structure VeEnv where
  s : State
  n : Nat
  v : VeRun
  c : VeCtx
  deriving DecidableEq, Repr

/-- What the issue of a micro-op comes to. -/
inductive Issue where
  | done (e : VeEnv)
  | wait
  | fault (e : VeEnv) (kind lane bitmap addr : Nat) (st : Status)
  deriving DecidableEq, Repr

/-- Lane register r of lane i: its value and poison mark. -/
def laneGet (c : VeCtx) (r i : Nat) : Nat × Bool :=
  let x := smGet ((0 : BitVec 32), false) c.regs (64 * r + i)
  (x.1.toNat, x.2)

/-- Lane register r of lane i written; poison is held as the canonical NaN (R231). -/
def laneSet (c : VeCtx) (r i x : Nat) (poison : Bool) : VeCtx :=
  let v := if poison then (BitVec.ofNat 32 0x7FC00000, true) else (BitVec.ofNat 32 x, false)
  { c with regs := smSet ((0 : BitVec 32), false) c.regs (64 * r + i) v }

/-- Mask register k; k0 reads as all ones (R224). -/
def maskGet (c : VeCtx) (k : Nat) : Nat :=
  if k = 0 then 2 ^ 64 - 1 else (smGet (0 : BitVec 64) c.masks k).toNat

/-- Mask register k written; k0 is never a destination (R229). -/
def maskSet (c : VeCtx) (k v : Nat) : VeCtx :=
  if k = 0 then c else { c with masks := smSet (0 : BitVec 64) c.masks k (BitVec.ofNat 64 v) }

/-- The lanes of the op. -/
def envMask (e : VeEnv) : Nat := (veParm e.v.desc).laneMask

/-- The active lanes of a micro-op (R226). -/
def activeOf (e : VeEnv) (u : Uop) : Nat := envMask e &&& maskGet e.c u.sel

/-- One result for each of some lanes written into register `d`: (lane, value, poison). -/
def putLanes (c : VeCtx) (d : Nat) (out : List (Nat × Nat × Bool)) : VeCtx :=
  out.foldl (fun a z => laneSet a d z.1 z.2.1 z.2.2) c

/-- Register context `k` of a core. -/
def ctxGet (c : Core) (k : Nat) : VeCtx := if k = 0 then c.ctx0 else c.ctx1

/-- Register context `k` of a core replaced. -/
def ctxSet (c : Core) (k : Nat) (x : VeCtx) : Core := if k = 0 then { c with ctx0 := x } else { c with ctx1 := x }

/-- The environment of the VE op that runs on core `n`. -/
def veEnv (s : State) (n : Nat) : Option VeEnv :=
  let c := getCore s n
  c.ve.map (fun v => { s, n, v, c := ctxGet c (veParm v.desc).ctx })

/-- The state with an environment put back. -/
def veBack (e : VeEnv) : State :=
  let c := getCore e.s e.n
  setCore e.s e.n (ctxSet { c with ve := some e.v } (veParm e.v.desc).ctx e.c)

/-- The lowest one bit of a mask; 0 for an empty one. -/
def lowLane (m : Nat) : Nat := (bitList 64 m).headD 0

/-- A fault of a whole micro-op on its active lanes, with none of them completed. -/
def faultAll (e : VeEnv) (kind act : Nat) (st : Status) : Issue := .fault e kind (lowLane act) act 0 st

/-- The flags of a lane result. -/
def addFlags (e : VeEnv) (nv of : Bool) : VeEnv := { e with v := { e.v with nv := e.v.nv || nv, of := e.v.of || of } }

/-- A lane-wise operation on registers: `srcs` are the source registers, `f` the result of a lane that holds no
poisoned source (R226, R230, R231). -/
def laneOp (e : VeEnv) (d : Nat) (lanes : List Nat) (srcs : Nat → List (Nat × Bool)) (f : Nat → FRes) : Issue :=
  let out := lanes.map (fun i =>
    if (srcs i).any (·.2) then (i, ({ code := 0 } : FRes), true) else (i, f i, false))
  .done (addFlags { e with c := putLanes e.c d (out.map (fun z => (z.1, z.2.1.code, z.2.2))) }
    (out.any (fun z => z.2.1.nv)) (out.any (fun z => z.2.1.of)))

/-- A lane-wise operation of va alone. -/
def unary (e : VeEnv) (u : Uop) (f : Nat → FRes) : Issue :=
  laneOp e u.d (bitList 64 (activeOf e u)) (fun i => [laneGet e.c u.a i]) (fun i => f (laneGet e.c u.a i).1)

/-- A lane-wise operation of va and vb. -/
def binary (e : VeEnv) (u : Uop) (f : Nat → Nat → FRes) : Issue :=
  laneOp e u.d (bitList 64 (activeOf e u)) (fun i => [laneGet e.c u.a i, laneGet e.c u.b i])
    (fun i => f (laneGet e.c u.a i).1 (laneGet e.c u.b i).1)

/-- The two BF16 halves of packed registers taken through one operation (R230). -/
def packed2 (f : Nat → Nat → FRes) (x y : Nat) : FRes :=
  let h := f (x / 65536) (y / 65536)
  let l := f (x % 65536) (y % 65536)
  { code := h.code * 65536 + l.code, nv := h.nv || l.nv, of := h.of || l.of }

/-! ## Streams (R237 to R240) -/

/-- Record of stream `i` of the op: inputs 0 to 3, outputs 4 to 7. -/
def envStream (e : VeEnv) (i : Nat) : StreamRec := streamRec (e.v.streams.getD i [])

/-- Vectors of one row. -/
def rowVecs (r : StreamRec) : Nat := cdiv r.rowLen 64

/-- Element `c` of row `r` of a memory stream, widened, with its poison. -/
def streamElem (s : State) (sr : StreamRec) (r c : Nat) : Nat × Bool :=
  let mt := streamMat sr
  let x := matCell s.mem mt r c
  (cellWiden mt.fw x, x.poison)

/-- Vector `k` of a memory stream: 64 values with poison, and the validity mask (R237). -/
def streamVector (s : State) (sr : StreamRec) (k : Nat) : List (Nat × Bool) × Nat :=
  let r := k / rowVecs sr
  let c0 := 64 * (k % rowVecs sr)
  let len := min 64 (sr.rowLen - c0)
  ((List.range 64).map (fun i => if i < len then streamElem s sr r (c0 + i) else (0, false)), 2 ^ len - 1)

/-- Vector `t` of a plate (R239). -/
def plateVector (p : Plate) (t : Nat) : List (Nat × Bool) × Nat :=
  let f := fmtWord p.fmt
  let at_ := fun (i : Nat) => (2 * t + i / 32, i % 32)
  let cols := (gridDims f 32 32).2
  let val := fun (i : Nat) =>
    let rc := at_ i
    let g := gridCell f rc.1 rc.2
    let k := g.1 * cols + g.2
    (widen f.fmt f.sfmt (p.codes.getD (32 * rc.1 + rc.2) 0) (p.scales.getD k 0) (p.zps.getD k 0),
     bit p.poison (32 * rc.1 + rc.2))
  let valid := fun (i : Nat) => bit p.rowsValid (at_ i).1 && bit p.colsValid (at_ i).2
  ((List.range 64).map val, maskOf ((List.range 64).filter valid))

/-- Whether an op of the list of `t` beyond index `i` is an LPA op; a descriptor read as poisoned is none (R627). -/
def lpaAhead (s : State) (n : Nat) (t : Token) (i : Nat) : Bool :=
  (List.range (t.len - i)).any (fun k =>
    let a := opAddr n t (i + k)
    !(spanPoison s.mem a 64) && byteAt (memRead s.mem a 1) 0 == 0x10)

/-- Whether an LPA op runs or is queued on the core (R240): in a running list or in a list whose token waits. -/
def lpaPending (s : State) (n : Nat) : Bool :=
  let c := getCore s n
  let ahead := fun (ts : List Token) (next : Nat) =>
    match ts with
    | [] => false
    | t :: rest => lpaAhead s n t next || rest.any (fun x => lpaAhead s n x 0)
  c.lpa.isSome || c.lpaPaused.isSome || ahead c.tokens c.next || ahead c.svcTokens c.svcNext

/-- An LDS that has its vector (R237, R239). -/
def takeVector (e : VeEnv) (u : Uop) (k : Nat) (vec : List (Nat × Bool) × Nat) : VeEnv :=
  let c1 := putLanes e.c u.d ((bitList 64 (activeOf e u)).map (fun i => (i, vec.1.getD i (0, false))))
  { e with c := if u.var ≥ 4 then maskSet c1 7 vec.2 else c1,
           v := { e.v with inPos := e.v.inPos.set k (e.v.inPos.getD k 0 + 1) } }

/-- A word of output stream 3 that is an int32 result of the RU and no binary32 value (R251), as the stream's buffer holds
it. -/
def intWord (x : Nat) : Nat := 2 ^ 32 + x % 2 ^ 32

/-- The elements of output stream `k` that wait for their block, converted and written, those whose row and block
are named (R238). An int32 result goes to an FP32 stream as it is; in a stream of another format its bits are converted as
a binary32 value (DESIGN CHOICE, log 93). The padding of the row's last block takes code zero (R70). -/
def flushBlock (e : VeEnv) (k r blk : Nat) : VeEnv :=
  let sr := envStream e (4 + k)
  let mt := streamMat sr
  let b := if scaled mt.fw.fmt then blkSize mt.fw else 64
  let buf := e.v.outBuf.getD k []
  let mine := buf.filter (fun z => z.2.2 / sr.rowLen == r && z.2.2 % sr.rowLen / b == blk)
  let rest := buf.filter (fun z => !(z.2.2 / sr.rowLen == r && z.2.2 % sr.rowLen / b == blk))
  let es : List OcsElem := mine.map (fun z =>
    { row := r, col := z.2.2 % sr.rowLen, m := r, n := z.2.2 % sr.rowLen, x := z.1 % 2 ^ 32, nv := false, of := false,
      poison := z.2.1 })
  let ints := if mt.fw.fmt = 11 then (mine.filter (fun z => decide (2 ^ 32 ≤ z.1))).map (fun z => (z.2.2 % sr.rowLen, z.1 % 2 ^ 32))
    else []
  let asInt := fun (o : OutElem) => match ints.find? (·.1 == o.n) with | some w => { o with code := w.2 } | none => o
  let p := veParm e.v.desc
  let dr := fun (x : OcsElem) =>
    if mt.fw.rnd then draw e.v.tok.seed ((p.tensorId + 4 + k) % 2 ^ 32) e.v.tok.step (r * sr.rowLen + x.n) else 0
  let spec : BlkSpec := { fw := mt.fw, olOut := false, olThresh := 0, fold := false }
  let given := fun key => givenOf e.s.mem mt key
  let out := convertSet spec (fun x => gridCell mt.fw x.m x.n) given dr es
  let bad := es.any (fun x => match given (gridCell mt.fw x.m x.n) with | some (_, _, true) => true | _ => false)
  let m1 := writeElems e.s.mem mt (out.elems.map asInt)
  let m2 := if mine.isEmpty then m1
    else writePadding m1 mt sr.rows sr.rowLen [r] (if sr.rowLen ≤ (blk + 1) * b then [sr.rowLen - 1] else [])
  let m := writeScales m2 mt out.blks
  { e with s := setMem e.s m,
           v := { e.v with outBuf := e.v.outBuf.set k rest,
                           hard := if bad then e.v.hard.orElse (fun _ => some .poisoned) else e.v.hard } }

/-- One position of output stream `k` taken: an element, or none from an inactive lane; its block is written when
this was the block's last position or the row's (R238). -/
def outPut (e : VeEnv) (k : Nat) (x : Option (Nat × Bool)) : VeEnv :=
  let sr := envStream e (4 + k)
  let f := fmtWord sr.fw
  let pos := e.v.outPos.getD k 0
  let b := if scaled f.fmt then blkSize f else 64
  let c := pos % sr.rowLen
  let buf := e.v.outBuf.getD k []
  let e1 := { e with v := { e.v with outPos := e.v.outPos.set k (pos + 1),
                                     outBuf := e.v.outBuf.set k (match x with
                                       | some z => buf ++ [(z.1, z.2, pos)]
                                       | none => buf) } }
  if (c + 1) % b = 0 ∨ c + 1 = sr.rowLen then flushBlock e1 k (pos / sr.rowLen) (c / b) else e1

/-- Whether `len` more positions of output stream `k` stay within its rows. -/
def outRoom (e : VeEnv) (k len : Nat) : Bool :=
  let sr := envStream e (4 + k)
  decide ((e.v.outPos.getD k 0 + len - 1) / sr.rowLen < sr.rows)

/-- The blocks still open when the op ends are written (R234). -/
def flushAll (e : VeEnv) : VeEnv :=
  (List.range 4).foldl (fun a k =>
    let sr := envStream a (4 + k)
    let f := fmtWord sr.fw
    let b := if scaled f.fmt then blkSize f else 64
    (distinct ((a.v.outBuf.getD k []).map (fun z => (z.2.2 / sr.rowLen, z.2.2 % sr.rowLen / b)))).foldl
      (fun x z => flushBlock x k z.1 z.2) a) e

/-! ## Gather and scatter (R243 to R246) -/

/-- What one active lane of a gather or scatter addresses. -/
inductive Target where
  /-- R231: the index is poisoned; no access. -/
  | skip
  | at_ (addr : Nat)
  | bad (kind addr : Nat)
  deriving DecidableEq, Repr

/-- R244 for one lane. -/
def gatherTarget (e : VeEnv) (g : GatherEnt) (idx : Nat × Bool) : Target :=
  if idx.2 then .skip
  else
    let i := sext 32 idx.1
    let a := (((g.base : Int) + i * gatherSize g.type) % 2 ^ 64).toNat
    if i < 0 then .bad 1 a
    else if i ≥ g.limit then .bad 2 a
    else if canAccess e.s (.core e.n) a (gatherSize g.type) then .at_ a
    else .bad 3 a

/-- The status of a gather fault of a kind. -/
def gatherStatus (kind : Nat) : Status := if kind = 3 then .addrError else .indexRange

/-- A gather or scatter with its precise fault: `act` is applied to the lanes below the first faulting one in
ascending order, `atFault` to that lane (R245, R246). -/
def gatherRun (e : VeEnv) (u : Uop) (act : VeEnv → Nat → Target → VeEnv) (atFault : VeEnv → Nat → VeEnv) : Issue :=
  let g := gatherEnt (e.v.gathers.getD (u.var % 4) [])
  let ts := (bitList 64 (activeOf e u)).map (fun i => (i, gatherTarget e g (laneGet e.c u.a i)))
  let isBad := fun (t : Nat × Target) => match t.2 with | .bad _ _ => true | _ => false
  let good := ts.takeWhile (fun t => !isBad t)
  let e1 := good.foldl (fun a t => act a t.1 t.2) e
  match ts.drop good.length with
  | (f, .bad kind addr) :: _ =>
    .fault (atFault e1 f) kind f (maskOf ((ts.filter isBad).map (·.1))) addr (gatherStatus kind)
  | _ => .done e1

/-! ## Rows of the Reduction Unit (R251, R252) -/

/-- One completed row or segment: counters, its status byte, and its result on stream 3 in the segmented form. -/
def ruRow (i : Issue) (act : Nat) (x : RuRes × Nat) : Issue :=
  match i with
  | .done e =>
    let p := veParm e.v.desc
    let masked := decide (x.2 = rowMasked ∧ (p.ruOp = 6 ∨ p.ruOp = 7))
    let inf := decide (x.2 = rowInf ∧ p.ruOp = 6)
    let cr := e.s.cr
    let s1 := { e.s with cr := { cr with maskedRows := if masked then satAdd cr.maskedRows 1 else cr.maskedRows,
                                         infRows := if inf then satAdd cr.infRows 1 else cr.infRows } }
    let e1 := { e with s := s1, v := { e.v with maskedRow := e.v.maskedRow || masked, infRow := e.v.infRow || inf } }
    let off := p.rsBase + e1.v.rsPos
    if p.rsEn && decide (off ≥ coreStoreLen) then faultAll e1 3 act .storeRange
    else
      let e2 := if p.rsEn then
          { e1 with s := coreWrite e1.s e1.n off [BitVec.ofNat 8 x.2], v := { e1.v with rsPos := e1.v.rsPos + 1 } }
        else e1
      if p.ruSeg then
        let words := if x.1.pair then [x.1.lo, x.1.hi] else if p.ruOp = 5 then [intWord x.1.lo] else [x.1.lo]
        if outRoom e2 3 words.length then .done (words.foldl (fun a w => outPut a 3 (some (w, false))) e2)
        else faultAll e2 4 act .streamEnd
      else .done e2
  | r => r

/-- The rows that one RUP, or the end of the op, completes, from the environment `e` after the push: a fault among them
leaves everything as `before` had it (R246, R251, R252). The whole micro-op faults then, at its lowest active lane
(DESIGN CHOICE, log 93). -/
def ruRows (before e : VeEnv) (act : Nat) (xs : List (RuRes × Nat)) : Issue :=
  match xs.foldl (fun a x => ruRow a act x) (.done e) with
  | .fault _ kind lane bitmap addr st => .fault before kind lane bitmap addr st
  | r => r

/-- ε of MOMENTS: constant 63 (R250). -/
def envEps (e : VeEnv) : Nat :=
  let a := coreBase e.n + (veParm e.v.desc).constBase + 252
  if linePoison e.s.mem a then ffNan f32F else leNat (memRead e.s.mem a 4)

/-! ## Faults and the end of an op (R235, R246, R247) -/

/-- The fault record (R247). -/
def faultRecord (iter pc op lane kind bitmap addr : Nat) (st : Status) : Bytes :=
  leBytes 4 iter ++ [BitVec.ofNat 8 pc, BitVec.ofNat 8 op, BitVec.ofNat 8 lane, BitVec.ofNat 8 kind] ++
  leBytes 8 bitmap ++ leBytes 8 addr ++ leBytes 2 (statusCode st) ++ zeroBytes 6

/-- A VE op ends on a fault: the record is written, the counters rise, no later micro-op issues (R246, R247). -/
def veFault (e : VeEnv) (op kind lane bitmap addr : Nat) (st : Status) : VeEnv :=
  let p := veParm e.v.desc
  let s1 := coreWrite e.s e.n p.faultRec (faultRecord e.v.iter e.v.pc op lane kind bitmap addr st)
  let cr := s1.cr
  let s2 := { s1 with cr := if kind = 6 then { cr with ruFaults := satAdd cr.ruFaults 1 }
                            else { cr with laneFaults := satAdd cr.laneFaults 1 } }
  { e with s := s2, v := { e.v with hard := some st, waiting := false, finished := true } }

/-- Whether an op reads the Plate Queue (R153, R240, R241): kind 2 among its input streams. -/
def kindTwo (v : VeRun) : List Nat := (List.range 4).filter (fun i => bits (le (v.streams.getD i []) 0 1) 0 2 == 2)

/-- R241: under preemption the op has come to an iteration boundary at which the next plate of some kind-2 stream is not in
the queue. It goes no further until that plate is there or the op pauses. -/
def pausePoint (s : State) (n : Nat) (v : VeRun) : Bool :=
  let c := getCore s n
  c.preempt && decide ((veParm v.desc).ctx = 0) && v.pc == 0 && !v.finished &&
  (kindTwo v).any (fun i => v.inPos.getD i 0 % 16 == 0 && !(match c.pq with | p :: _ => p.visible | [] => false))

/-- Whether a VE op at its pause point leaves its unit (R157, R159, R241): the LPA op of training has paused or ended, and the
VE has consumed every plate of the Plate Queue. -/
def pausesNow (s : State) (n : Nat) (v : VeRun) : Bool :=
  let c := getCore s n
  pausePoint s n v && c.pq.isEmpty && !(c.lpa.any (fun r => !(c.svcTokens.any (sameList r.tok))))

/-- The status of a VE op (R235). -/
def veStatus (v : VeRun) : Status :=
  match v.hard with
  | some e => e
  | none => if v.nv then .nv else if v.of then .of else if v.singular then .singular
    else if v.infRow then .infRow else if v.maskedRow then .maskedRow else .ok

/-- The latches of a checked VE_RUN. -/
def veStart (s : State) (n : Nat) (o : NextOp) : State :=
  let p := veParm o.desc
  let slice := fun (base len i : Nat) => memRead s.mem (coreBase n + base + len * i) len
  let v : VeRun :=
    { tok := o.tok, idx := o.idx, desc := o.desc, prog := progOf s n p,
      streams := (List.range 8).map (slice p.streamBase 32), gathers := (List.range 4).map (slice p.gatherBase 16),
      iter := 0, pc := 0, inPos := [0, 0, 0, 0], outPos := [0, 0, 0, 0], outBuf := [[], [], [], []], rsPos := 0,
      scattered := [],
      nv := false, of := false, infRow := false, maskedRow := false, singular := false, hard := none,
      waiting := false, finished := false }
  let s1 := passOps s n 1
  let c := getCore s1 n
  let x := ctxGet c p.ctx
  setCore s1 n (ctxSet { c with ve := some v } p.ctx
    { x with ru := ruStart x.ru p.ruOp p.ruSeg p.ruWidth p.ruNvec })

/-- Completion of a VE op that has finished (R235, R391); VE_SOLVE clears the lane registers of its context. -/
def completeVe (s : State) (n : Nat) : State :=
  let c := getCore s n
  match c.ve with
  | none => s
  | some v => if v.finished then finishOp (setCore s n { c with ve := none, noProg := 0 }) n v.tok v.desc (veStatus v) else s

end Sys2Proof.Machine
end

