-- ==== Sys2Proof/Machine/Uops.lean ====
section
/-! DEFINITION. The 40 micro-ops of the lane catalogue (07_vector_and_reduction.md R228 to R232, R237 to R255), the
program loop of VE_RUN, and the commands that issue one micro-op. -/

namespace Sys2Proof.Machine

/-! ## Moves, constants and streams -/

/-- NOP: none. -/
def uopNop (e : VeEnv) (_u : Uop) : Issue := .done e

/-- MOV: vd = va. -/
def uopMov (e : VeEnv) (u : Uop) : Issue := unary e u (fun x => { code := x })

/-- CNS: constant pool entry a in all 64 lanes (R226). -/
def uopCns (e : VeEnv) (u : Uop) : Issue :=
  let a := coreBase e.n + (veParm e.v.desc).constBase + 4 * u.a
  let x := leNat (memRead e.s.mem a 4)
  let p := linePoison e.s.mem a
  .done { e with c := putLanes e.c u.d ((List.range 64).map (fun i => (i, x, p))) }

/-- LID: i + 64 × iteration, or the iteration. -/
def uopLid (e : VeEnv) (u : Uop) : Issue :=
  laneOp e u.d (bitList 64 (activeOf e u)) (fun _ => [])
    (fun i => { code := (if u.var = 1 then e.v.iter else i + 64 * e.v.iter) % 2 ^ 32 })

/-- LDS: the next vector of an input stream, from memory (R237) or from the Plate Queue (R239, R240). -/
def uopLds (e : VeEnv) (u : Uop) : Issue :=
  let k := u.var % 4
  let sr := envStream e k
  let pos := e.v.inPos.getD k 0
  let act := activeOf e u
  if sr.kind = 2 then
    if pos ≥ 16 * sr.rows then faultAll e 4 act .streamEnd
    else
      let c := getCore e.s e.n
      match c.pq with
      | p :: rest =>
        if p.visible then
          let e1 := takeVector e u k (plateVector p (pos % 16))
          -- the entry is released with its sixteenth vector
          if pos % 16 = 15 then .done { e1 with s := setCore e1.s e1.n { c with pq := rest, pqFull := 0 } }
          else .done e1
        else .wait
      | [] => if lpaPending e.s e.n then .wait else faultAll e 5 act .plateStarve
  else if pos ≥ rowVecs sr * sr.rows then faultAll e 4 act .streamEnd
  else .done (takeVector e u k (streamVector e.s sr pos))

/-- STS: va into an output stream; an inactive lane writes nothing (R226, R238). -/
def uopSts (e : VeEnv) (u : Uop) : Issue :=
  let k := u.var % 4
  let sr := envStream e (4 + k)
  let act := activeOf e u
  let len := min 64 (sr.rowLen - e.v.outPos.getD k 0 % sr.rowLen)
  if outRoom e k len then
    .done ((List.range len).foldl (fun a i =>
      outPut a k (if bit act i then some (laneGet e.c u.a i) else none)) e)
  else faultAll e 4 act .streamEnd

/-! ## Gather and scatter (R243 to R246) -/

/-- GTH. -/
def uopGth (e : VeEnv) (u : Uop) : Issue :=
  let g := gatherEnt (e.v.gathers.getD (u.var % 4) [])
  gatherRun e u
    (fun a i t => match t with
      | .at_ addr =>
        let x := leNat (memRead a.s.mem addr (gatherSize g.type))
        let y := if g.type = 2 then bf16To32 x else x
        { a with c := laneSet a.c u.d i y (spanPoison a.s.mem addr (gatherSize g.type)) }
      | _ => { a with c := laneSet a.c u.d i 0 true })
    (fun a f => { a with c := laneSet a.c u.d f 0 true })

/-- The stored bytes of a lane value in a gather element (R243). A BF16 element that overflows is written as ±∞, as nonsat 1
has it in R91 (DESIGN CHOICE, log 88: R243 gives RNE and no nonsat). -/
def gatherBytes (t x : Nat) : Bytes :=
  leBytes (gatherSize t) (if t = 2 then (toBf16 false true 0 x).1 else x)

/-- SCT. -/
def uopSct (e : VeEnv) (u : Uop) : Issue :=
  let g := gatherEnt (e.v.gathers.getD (u.var % 4) [])
  gatherRun e u
    (fun a i t => match t with
      | .at_ addr =>
        let x := laneGet e.c u.b i
        { a with s := write a.s (.core a.n) addr (gatherBytes g.type x.1) x.2 }
      | _ => a)
    (fun a _ => a)

/-- The larger of two binary32 values under FMNX (R230). -/
def fmaxLane (x y : Nat) : FRes :=
  if ffIsNan f32F x || ffIsNan f32F y then { code := ffNan f32F } else { code := if ffLt f32F x y then y else x }

/-- SCA: add or maximum into the element, in ascending lane order (R245). -/
def uopSca (e : VeEnv) (u : Uop) : Issue :=
  let g := gatherEnt (e.v.gathers.getD (u.var % 4) [])
  gatherRun e u
    (fun a i t => match t with
      | .at_ addr =>
        let x := laneGet e.c u.b i
        let old := leNat (memRead a.s.mem addr 4)
        let bad := x.2 || spanPoison a.s.mem addr 4
        let r : FRes :=
          if bad then { code := if x.2 then x.1 else old }
          else if g.type = 0 then (if u.var ≥ 4 then fmaxLane old x.1 else ffAdd f32F old x.1)
          else { code := if u.var ≥ 4 then (if sext 32 old ≥ sext 32 x.1 then old else x.1)
                         else (old + x.1) % 2 ^ 32 }
        let seen := a.v.scattered
        addFlags { a with s := write a.s (.core a.n) addr (leBytes 4 r.code) bad,
                          v := { a.v with scattered := if seen.contains (addr / 64) then seen else addr / 64 :: seen } } r.nv r.of
      | _ => a)
    (fun a _ => a)

/-! ## Floating point (R230) -/

/-- A binary floating micro-op with its packed variant. -/
def floatOp (f : FFmt → Nat → Nat → FRes) (e : VeEnv) (u : Uop) : Issue :=
  binary e u (fun x y => if u.var % 2 = 1 then packed2 (f bf16F) x y else f f32F x y)

/-- FADD. -/
def uopFadd (e : VeEnv) (u : Uop) : Issue := floatOp ffAdd e u
/-- FSUB. -/
def uopFsub (e : VeEnv) (u : Uop) : Issue := floatOp ffSub e u
/-- FMUL. -/
def uopFmul (e : VeEnv) (u : Uop) : Issue := floatOp ffMul e u

/-- FFMA: va × vb + vd with one rounding. -/
def uopFfma (e : VeEnv) (u : Uop) : Issue :=
  laneOp e u.d (bitList 64 (activeOf e u))
    (fun i => [laneGet e.c u.a i, laneGet e.c u.b i, laneGet e.c u.d i])
    (fun i =>
      let x := (laneGet e.c u.a i).1; let y := (laneGet e.c u.b i).1; let z := (laneGet e.c u.d i).1
      if u.var = 1 then
        let h := ffFma bf16F (x / 65536) (y / 65536) (z / 65536)
        let l := ffFma bf16F (x % 65536) (y % 65536) (z % 65536)
        { code := h.code * 65536 + l.code, nv := h.nv || l.nv, of := h.of || l.of }
      else ffFma f32F x y z)

/-- Maximum or minimum: NaN where an operand is NaN, va where the two are equal. -/
def ffMnx (min : Bool) (f : FFmt) (x y : Nat) : FRes :=
  if ffIsNan f x || ffIsNan f y then { code := ffNan f }
  else { code := if (if min then ffLt f y x else ffLt f x y) then y else x }

/-- FMNX. -/
def uopFmnx (e : VeEnv) (u : Uop) : Issue := floatOp (ffMnx (decide (u.var ≥ 2))) e u

/-- The sign functions of FSGN on binary32 codes. -/
def fsgnLane (var x y : Nat) : FRes :=
  if ffIsNan f32F x || (var == 2 && ffIsNan f32F y) then { code := ffNan f32F }
  else
    let m := x % 2 ^ 31
    { code := match var with
        | 0 => m
        | 1 => m + (1 - x / 2 ^ 31 % 2) * 2 ^ 31
        | _ => m + (y / 2 ^ 31 % 2) * 2 ^ 31 }

/-- FSGN. -/
def uopFsgn (e : VeEnv) (u : Uop) : Issue :=
  if u.var = 2 then binary e u (fsgnLane 2) else unary e u (fun x => fsgnLane u.var x 0)

/-- FRCP. -/
def uopFrcp (e : VeEnv) (u : Uop) : Issue := unary e u (fun x => ffDiv f32F 0x3F800000 x)
/-- FRSQ. -/
def uopFrsq (e : VeEnv) (u : Uop) : Issue := unary e u (ffRsqrt f32F)
/-- FSQT. -/
def uopFsqt (e : VeEnv) (u : Uop) : Issue := unary e u (ffSqrt f32F)
/-- FDIV. -/
def uopFdiv (e : VeEnv) (u : Uop) : Issue := binary e u (ffDiv f32F)
/-- FEXP. -/
def uopFexp (e : VeEnv) (u : Uop) : Issue := unary e u (ffExp f32F)
/-- FLOG. -/
def uopFlog (e : VeEnv) (u : Uop) : Issue := unary e u (ffLog f32F)
/-- FSIG. -/
def uopFsig (e : VeEnv) (u : Uop) : Issue := unary e u (ffSig f32F)

/-- binary32 to int32, RNE, saturating to ±(2^31 − 1); NaN to 0 (R230). -/
def toInt32 (x : Nat) : FRes :=
  let top : Nat := 2 ^ 31 - 1
  match ffDecode f32F x with
  | .nan => { code := 0, nv := true }
  | .inf s => { code := tcode 32 (if s then -(top : Int) else top), nv := true }
  | .fin s m e =>
    let q := if e ≥ 0 then m <<< e.toNat else rneShift m (-e).toNat false
    let v : Int := if s then -(q : Int) else q
    if q > top then { code := tcode 32 (if s then -(top : Int) else top), nv := true }
    else { code := tcode 32 v }

/-- The conversions of CVT (R228, R230). -/
def cvtLane (var x y : Nat) : FRes :=
  match var with
  | 0 => toInt32 x
  | 1 => ffOfInt f32F (sext 32 x) 0
  | 2 => let r := toBf16 false true 0 x; { code := bf16To32 r.1, of := r.2 }
  | 3 => { code := bf16To32 (x / 65536) }
  | 4 => { code := bf16To32 (x % 65536) }
  | _ =>
    let h := toBf16 false true 0 x
    let l := toBf16 false true 0 y
    { code := h.1 * 65536 + l.1, of := h.2 || l.2 }

/-- CVT. -/
def uopCvt (e : VeEnv) (u : Uop) : Issue :=
  if u.var = 5 then binary e u (cvtLane 5) else unary e u (fun x => cvtLane u.var x 0)

/-! ## Integers -/

/-- IADD. -/
def uopIadd (e : VeEnv) (u : Uop) : Issue := binary e u (fun x y => { code := (x + y) % 2 ^ 32 })
/-- ISUB. -/
def uopIsub (e : VeEnv) (u : Uop) : Issue := binary e u (fun x y => { code := (x + 2 ^ 32 - y) % 2 ^ 32 })
/-- IMUL. -/
def uopImul (e : VeEnv) (u : Uop) : Issue := binary e u (fun x y => { code := x * y % 2 ^ 32 })

/-- The bitwise functions: and, or, xor, and-not. -/
def logicFn (w var x y : Nat) : Nat :=
  match var with
  | 0 => x &&& y
  | 1 => x ||| y
  | 2 => x ^^^ y
  | _ => x &&& (2 ^ w - 1 - y)

/-- ILOG. -/
def uopIlog (e : VeEnv) (u : Uop) : Issue := binary e u (fun x y => { code := logicFn 32 u.var x y })

/-- The shifts of ISHF by vb[4:0]. -/
def shiftFn (var x y : Nat) : Nat :=
  let k := y % 32
  match var with
  | 0 => (x <<< k) % 2 ^ 32
  | 1 => x >>> k
  | _ => tcode 32 (sext 32 x / (2 ^ k : Nat))

/-- ISHF. -/
def uopIshf (e : VeEnv) (u : Uop) : Issue := binary e u (fun x y => { code := shiftFn u.var x y })

/-- Integer order, signed or unsigned. -/
def intLt (unsigned : Bool) (x y : Nat) : Bool :=
  if unsigned then decide (x < y) else decide (sext 32 x < sext 32 y)

/-- IMNX. -/
def uopImnx (e : VeEnv) (u : Uop) : Issue :=
  binary e u (fun x y =>
    let uns := decide (u.var ≥ 2)
    { code := if (if u.var % 2 = 1 then intLt uns y x else intLt uns x y) then y else x })

/-! ## Compares, select, masks and shuffle -/

/-- The predicates of FCMP (R228, R230). -/
def fcmpLane (var x y : Nat) : Bool :=
  let nan := ffIsNan f32F x || ffIsNan f32F y
  match var with
  | 0 => !nan && ffEq f32F x y
  | 1 => nan || !(ffEq f32F x y)
  | 2 => !nan && ffLt f32F x y
  | 3 => !nan && !(ffLt f32F y x)
  | 4 => !nan && ffLt f32F y x
  | 5 => !nan && !(ffLt f32F x y)
  | 6 => nan
  | _ => !nan

/-- The predicates of ICMP (R228). -/
def icmpLane (var x y : Nat) : Bool :=
  match var with
  | 0 => x == y
  | 1 => x != y
  | 2 => intLt false x y
  | 3 => !(intLt false y x)
  | 4 => intLt true x y
  | _ => !(intLt true y x)

/-- A compare: 0 in every lane that is not active or has a poisoned source (R226, R231). -/
def compare (e : VeEnv) (u : Uop) (f : Nat → Nat → Bool) : Issue :=
  let m := maskOf ((bitList 64 (activeOf e u)).filter (fun i =>
    let x := laneGet e.c u.a i; let y := laneGet e.c u.b i
    !x.2 && !y.2 && f x.1 y.1))
  .done { e with c := maskSet e.c u.d m }

/-- FCMP. -/
def uopFcmp (e : VeEnv) (u : Uop) : Issue := compare e u (fcmpLane u.var)
/-- ICMP. -/
def uopIcmp (e : VeEnv) (u : Uop) : Issue := compare e u (icmpLane u.var)

/-- SEL: va where the selected mask is 1, else vb, in every lane of lane_mask (R226). -/
def uopSel (e : VeEnv) (u : Uop) : Issue :=
  let pick := fun i => laneGet e.c (if bit (maskGet e.c u.sel) i then u.a else u.b) i
  laneOp e u.d (bitList 64 (envMask e)) (fun i => [pick i]) (fun i => { code := (pick i).1 })

/-- KOP: logic on mask registers, all 64 lanes. -/
def uopKop (e : VeEnv) (u : Uop) : Issue :=
  .done { e with c := maskSet e.c u.d (logicFn 64 u.var (maskGet e.c u.a) (maskGet e.c u.b)) }

/-- SHF: vd[i] = va[vb[i] mod 64]. -/
def uopShf (e : VeEnv) (u : Uop) : Issue :=
  let src := fun i => laneGet e.c u.a ((laneGet e.c u.b i).1 % 64)
  laneOp e u.d (bitList 64 (activeOf e u)) (fun i => [laneGet e.c u.b i, src i]) (fun i => { code := (src i).1 })

/-! ## Reduction Unit (R248 to R252) -/

/-- RUP: pushes va; the rows that it completes are reported at once, or it faults without effect. -/
def uopRup (e : VeEnv) (u : Uop) : Issue :=
  let act := activeOf e u
  let vals := (List.range 64).map (fun i => (laneGet e.c u.a i).1)
  match ruPush e.c.ru (envEps e) vals act (if u.var = 0 then 0 else maskGet e.c u.var) with
  | none => faultAll e 6 act .ruQueue
  | some (ru, rows) => ruRows e { e with c := { e.c with ru } } act rows

/-- RUG: the oldest result to every active lane, or the next 64 ÷ w results spread over the rows (R251). -/
def uopRug (e : VeEnv) (u : Uop) : Issue :=
  let ru := e.c.ru
  let w := if u.var = 1 ∧ ru.width ≠ 0 then 4 * 2 ^ ru.width else 64
  let need := 64 / w
  let act := activeOf e u
  if ru.queue.length < need then faultAll e 6 act .ruQueue
  else
    let one := fun (c : VeCtx) (i : Nat) =>
      match ru.queue[i / w]? with
      | some r =>
        let c1 := laneSet c u.d i r.lo false
        if r.pair ∧ u.d < 63 then laneSet c1 (u.d + 1) i r.hi false else c1
      | none => c
    .done { e with c := (bitList 64 act).foldl one { e.c with ru := { ru with queue := ru.queue.drop need } } }

/-! ## Softmax, normalisation and draws (R232, R253 to R255) -/

/-- Whether position i is masked for SMN, SMB and NRM. -/
def posMasked (e : VeEnv) (u : Uop) (i : Nat) : Bool := !(bit (maskGet e.c u.sel) i)

/-- The sources of lane i in SMN, SMB and NRM: a masked position is never read (R226, R587), so the registers `pos` that
hold the position's own data count only where it is unmasked; `row` are the values of the row. -/
def maskSrcs (e : VeEnv) (u : Uop) (pos row : List Nat) (i : Nat) : List (Nat × Bool) :=
  ((if posMasked e u i then [] else pos) ++ row).map (fun r => laneGet e.c r i)

/-- SMN (R253). A lane for which the rule states no result takes a free value (DESIGN CHOICE, log 93). -/
def uopSmn (e : VeEnv) (u : Uop) : Issue :=
  let x := fun (i : Nat) => (laneGet e.c u.a i).1
  let m := fun (i : Nat) => (laneGet e.c u.b i).1
  let lanes := bitList 64 (envMask e)
  let undef := fun (i : Nat) => smnOpen (x i) (m i) (posMasked e u i)
  laneOp { e with s := if lanes.any undef then { e.s with freeCount := e.s.freeCount + 64 } else e.s } u.d lanes
    (maskSrcs e u [u.a] [u.b, u.b + 1])
    (fun i => if undef i then { code := (Config.freeValue (e.s.freeCount + i)).toNat % 2 ^ 32 }
      else smnLane (x i) (m i) (laneGet e.c (u.b + 1) i).1 (posMasked e u i) (decide (u.var = 1)))

/-- SMB (R254). -/
def uopSmb (e : VeEnv) (u : Uop) : Issue :=
  laneOp e u.d (bitList 64 (envMask e))
    (maskSrcs e u [u.a, u.b] [u.d, u.d + 1])
    (fun i => smbLane (laneGet e.c u.a i).1 (laneGet e.c u.b i).1 (laneGet e.c u.d i).1
      (laneGet e.c (u.d + 1) i).1 (posMasked e u i))

/-- NRM (R255). -/
def uopNrm (e : VeEnv) (u : Uop) : Issue :=
  laneOp e u.d (bitList 64 (envMask e))
    (maskSrcs e u [u.a] [u.b, u.b + 1])
    (fun i => nrmLane (laneGet e.c u.a i).1 (laneGet e.c u.b i).1 (laneGet e.c (u.b + 1) i).1 (posMasked e u i))

/-- RNG: bits [63:32] of the draw at index va, or bits [63:40] × 2^−24 (R232). -/
def uopRng (e : VeEnv) (u : Uop) : Issue :=
  unary e u (fun x =>
    let r := draw e.v.tok.seed (veParm e.v.desc).tensorId e.v.tok.step x
    if u.var = 1 then ffOfInt f32F (bits r 40 24 : Int) (-24) else { code := bits r 32 32 })

/-! ## The program loop (R234) -/

/-- One micro-op of the catalogue, by its opcode (R228). An opcode beyond it never reaches issue (R229). -/
def uopIssue (e : VeEnv) (u : Uop) : Issue :=
  match u.op with
  | 0x00 => uopNop e u
  | 0x01 => uopMov e u
  | 0x02 => uopCns e u
  | 0x03 => uopLid e u
  | 0x04 => uopLds e u
  | 0x05 => uopSts e u
  | 0x06 => uopGth e u
  | 0x07 => uopSct e u
  | 0x08 => uopSca e u
  | 0x09 => uopFadd e u
  | 0x0A => uopFsub e u
  | 0x0B => uopFmul e u
  | 0x0C => uopFfma e u
  | 0x0D => uopFmnx e u
  | 0x0E => uopFsgn e u
  | 0x0F => uopFrcp e u
  | 0x10 => uopFrsq e u
  | 0x11 => uopFsqt e u
  | 0x12 => uopFdiv e u
  | 0x13 => uopFexp e u
  | 0x14 => uopFlog e u
  | 0x15 => uopFsig e u
  | 0x16 => uopCvt e u
  | 0x17 => uopIadd e u
  | 0x18 => uopIsub e u
  | 0x19 => uopImul e u
  | 0x1A => uopIlog e u
  | 0x1B => uopIshf e u
  | 0x1C => uopImnx e u
  | 0x1D => uopFcmp e u
  | 0x1E => uopIcmp e u
  | 0x1F => uopSel e u
  | 0x20 => uopKop e u
  | 0x21 => uopShf e u
  | 0x22 => uopRup e u
  | 0x23 => uopRug e u
  | 0x24 => uopSmn e u
  | 0x25 => uopSmb e u
  | 0x26 => uopNrm e u
  | 0x27 => uopRng e u
  | _ => .done e

/-- The end of the last iteration: the last segment, and the blocks still open, are written (R234, R249). -/
def veEnd (e : VeEnv) : VeEnv :=
  let fin := fun (x : VeEnv) => let y := flushAll x; { y with v := { y.v with finished := true } }
  if e.c.ru.seg then
    match e.c.ru.open_ with
    | some r =>
      let e1 := { e with c := { e.c with ru := { e.c.ru with open_ := none } } }
      match ruRows e1 e1 (envMask e) [ruResult e.c.ru.op r (envEps e)] with
      | .done x => fin x
      | .fault x k l b a st => veFault x (bits (e.v.prog.getLastD 0) 24 8) k l b a st
      | .wait => fin e1
    | none => fin e
  else fin e

/-- Issues micro-ops in program order until the op ends, faults, waits for a plate, or comes to a pause point of
R241. `fuel` bounds the issues that remain. -/
def veLoop : Nat → VeEnv → VeEnv
  | 0, e => e
  | fuel + 1, e =>
    if pausePoint e.s e.n e.v then { e with v := { e.v with waiting := true } }
    else
      let u := uopOf (e.v.prog.getD e.v.pc 0)
      match uopIssue e u with
      | .wait => { e with v := { e.v with waiting := true } }
      | .fault x k l b a st => veFault x u.op k l b a st
      | .done x =>
        let p := veParm x.v.desc
        if x.v.pc + 1 < p.plen then veLoop fuel { x with v := { x.v with pc := x.v.pc + 1, waiting := false } }
        else if x.v.iter + 1 < p.iters then
          veLoop fuel { x with v := { x.v with pc := 0, iter := x.v.iter + 1, waiting := false } }
        else veEnd { x with v := { x.v with waiting := false } }

/-- The VE op of core `n` goes on as far as it can. -/
def veGo (s : State) (n : Nat) : State :=
  match veEnv s n with
  | none => s
  | some e =>
    if e.v.finished then s
    else
      let p := veParm e.v.desc
      veBack (veLoop ((p.iters - e.v.iter) * p.plen + 1) e)

/-- VE_RUN: the checks, the latches, and the program (R229, R233, R234). -/
def execVeRun (core : CoreId) (s : State) : Res :=
  let n := core.toNat
  match startable s n 0x18 (fun c => c.ve.isNone) with
  | none => .next s
  | some o =>
    match veCheck s n o.tok o.desc with
    | some st => .next (rejectOp s n o st)
    | none => .next (veGo (veStart s n o) n)

/-- A VE op that waits is looked at again: the LDS that waits for a plate faults once no LPA op is left to bring it
(R240). -/
def veRecheck (s : State) (n : Nat) : State := if (getCore s n).ve.any (·.waiting) then veGo s n else s

/-- LPA_MATMUL on its own (R132 to R135). -/
def execLpaMatmul (core : CoreId) (s : State) : Res := .next (veRecheck (beginLpa core.toNat s) core.toNat)

/-- A group of co-resident problems starts as one op (R138 to R144). -/
def execCoResidentGroup (core : CoreId) (s : State) : Res := .next (veRecheck (beginGroup core.toNat s) core.toNat)

/-- The stall end of R153. -/
def execPqStall (core : CoreId) (s : State) : Res := .next (veRecheck (endStalled core.toNat s) core.toNat)

/-- PLATE_VISIBLE (R149, R239): the oldest entry that is not yet visible becomes so once it is filled, and a VE op that
waits takes it. -/
def execPlateVisible (core : CoreId) (s : State) : Res :=
  let n := core.toNat
  let c := getCore s n
  let seen := c.pq.takeWhile (·.visible)
  match c.pq.drop seen.length with
  | [] => .next s
  | p :: rest =>
    if p.filled then .next (veGo (setCore s n { c with pq := seen ++ { p with visible := true } :: rest }) n)
    else .next s

/-- The command form of a micro-op: one issue on the VE op that core `core` runs. Nothing happens without one, or
where R229 would have refused the word, its stream or its gather entry. -/
def issueCmd (core : CoreId) (op : Nat) (d a b mod : BitVec 6) (f : VeEnv → Uop → Issue) (s : State) : Res :=
  match veEnv s core.toNat with
  | none => .next s
  | some e =>
    let p := veParm e.v.desc
    let u : Uop := { op, d := d.toNat, a := a.toNat, b := b.toNat, sel := mod.toNat % 8, var := mod.toNat / 8 }
    let st := fun (i : Nat) (out : Bool) => (streamCheck s core.toNat (e.v.streams.getD i []) out true).isNone
    let ent := (gatherCheck s core.toNat (e.v.gathers.getD (u.var % 4) []) (op == 8 && decide (u.var < 4)) (op == 8)).isNone
    let ready := match op with
      | 0x04 => st (u.var % 4) false
      | 0x05 => st (4 + u.var % 4) true
      | 0x06 => ent
      | 0x07 => ent
      | 0x08 => ent
      | _ => true
    if e.v.hard.isSome || byteAt e.v.desc 0 == 0x19 || !(uopOk p.ruOp p.ruSeg u) || !ready then .next s
    else match f e u with
      | .done x => .next (veBack x)
      | .wait => .next (veBack { e with v := { e.v with waiting := true } })
      | .fault x k l m addr st => .next (veBack (veFault x op k l m addr st))

/-- The command VE_NOP (R228). -/
def execVeNop (core : CoreId) (d a b mod : BitVec 6) (s : State) : Res :=
  issueCmd core 0x00 d a b mod uopNop s
/-- The command MOV (R228). -/
def execMov (core : CoreId) (d a b mod : BitVec 6) (s : State) : Res :=
  issueCmd core 0x01 d a b mod uopMov s
/-- The command CNS (R228). -/
def execCns (core : CoreId) (d a b mod : BitVec 6) (s : State) : Res :=
  issueCmd core 0x02 d a b mod uopCns s
/-- The command LID (R228). -/
def execLid (core : CoreId) (d a b mod : BitVec 6) (s : State) : Res :=
  issueCmd core 0x03 d a b mod uopLid s
/-- The command LDS (R228). -/
def execLds (core : CoreId) (d a b mod : BitVec 6) (s : State) : Res :=
  issueCmd core 0x04 d a b mod uopLds s
/-- The command STS (R228). -/
def execSts (core : CoreId) (d a b mod : BitVec 6) (s : State) : Res :=
  issueCmd core 0x05 d a b mod uopSts s
/-- The command GTH (R228). -/
def execGth (core : CoreId) (d a b mod : BitVec 6) (s : State) : Res :=
  issueCmd core 0x06 d a b mod uopGth s
/-- The command SCT (R228). -/
def execSct (core : CoreId) (d a b mod : BitVec 6) (s : State) : Res :=
  issueCmd core 0x07 d a b mod uopSct s
/-- The command SCA (R228). -/
def execSca (core : CoreId) (d a b mod : BitVec 6) (s : State) : Res :=
  issueCmd core 0x08 d a b mod uopSca s
/-- The command FADD (R228). -/
def execFadd (core : CoreId) (d a b mod : BitVec 6) (s : State) : Res :=
  issueCmd core 0x09 d a b mod uopFadd s
/-- The command FSUB (R228). -/
def execFsub (core : CoreId) (d a b mod : BitVec 6) (s : State) : Res :=
  issueCmd core 0x0A d a b mod uopFsub s
/-- The command FMUL (R228). -/
def execFmul (core : CoreId) (d a b mod : BitVec 6) (s : State) : Res :=
  issueCmd core 0x0B d a b mod uopFmul s
/-- The command FFMA (R228). -/
def execFfma (core : CoreId) (d a b mod : BitVec 6) (s : State) : Res :=
  issueCmd core 0x0C d a b mod uopFfma s
/-- The command FMNX (R228). -/
def execFmnx (core : CoreId) (d a b mod : BitVec 6) (s : State) : Res :=
  issueCmd core 0x0D d a b mod uopFmnx s
/-- The command FSGN (R228). -/
def execFsgn (core : CoreId) (d a b mod : BitVec 6) (s : State) : Res :=
  issueCmd core 0x0E d a b mod uopFsgn s
/-- The command FRCP (R228). -/
def execFrcp (core : CoreId) (d a b mod : BitVec 6) (s : State) : Res :=
  issueCmd core 0x0F d a b mod uopFrcp s
/-- The command FRSQ (R228). -/
def execFrsq (core : CoreId) (d a b mod : BitVec 6) (s : State) : Res :=
  issueCmd core 0x10 d a b mod uopFrsq s
/-- The command FSQT (R228). -/
def execFsqt (core : CoreId) (d a b mod : BitVec 6) (s : State) : Res :=
  issueCmd core 0x11 d a b mod uopFsqt s
/-- The command FDIV (R228). -/
def execFdiv (core : CoreId) (d a b mod : BitVec 6) (s : State) : Res :=
  issueCmd core 0x12 d a b mod uopFdiv s
/-- The command FEXP (R228). -/
def execFexp (core : CoreId) (d a b mod : BitVec 6) (s : State) : Res :=
  issueCmd core 0x13 d a b mod uopFexp s
/-- The command FLOG (R228). -/
def execFlog (core : CoreId) (d a b mod : BitVec 6) (s : State) : Res :=
  issueCmd core 0x14 d a b mod uopFlog s
/-- The command FSIG (R228). -/
def execFsig (core : CoreId) (d a b mod : BitVec 6) (s : State) : Res :=
  issueCmd core 0x15 d a b mod uopFsig s
/-- The command CVT (R228). -/
def execCvt (core : CoreId) (d a b mod : BitVec 6) (s : State) : Res :=
  issueCmd core 0x16 d a b mod uopCvt s
/-- The command IADD (R228). -/
def execIadd (core : CoreId) (d a b mod : BitVec 6) (s : State) : Res :=
  issueCmd core 0x17 d a b mod uopIadd s
/-- The command ISUB (R228). -/
def execIsub (core : CoreId) (d a b mod : BitVec 6) (s : State) : Res :=
  issueCmd core 0x18 d a b mod uopIsub s
/-- The command IMUL (R228). -/
def execImul (core : CoreId) (d a b mod : BitVec 6) (s : State) : Res :=
  issueCmd core 0x19 d a b mod uopImul s
/-- The command ILOG (R228). -/
def execIlog (core : CoreId) (d a b mod : BitVec 6) (s : State) : Res :=
  issueCmd core 0x1A d a b mod uopIlog s
/-- The command ISHF (R228). -/
def execIshf (core : CoreId) (d a b mod : BitVec 6) (s : State) : Res :=
  issueCmd core 0x1B d a b mod uopIshf s
/-- The command IMNX (R228). -/
def execImnx (core : CoreId) (d a b mod : BitVec 6) (s : State) : Res :=
  issueCmd core 0x1C d a b mod uopImnx s
/-- The command FCMP (R228). -/
def execFcmp (core : CoreId) (d a b mod : BitVec 6) (s : State) : Res :=
  issueCmd core 0x1D d a b mod uopFcmp s
/-- The command ICMP (R228). -/
def execIcmp (core : CoreId) (d a b mod : BitVec 6) (s : State) : Res :=
  issueCmd core 0x1E d a b mod uopIcmp s
/-- The command SEL (R228). -/
def execSel (core : CoreId) (d a b mod : BitVec 6) (s : State) : Res :=
  issueCmd core 0x1F d a b mod uopSel s
/-- The command KOP (R228). -/
def execKop (core : CoreId) (d a b mod : BitVec 6) (s : State) : Res :=
  issueCmd core 0x20 d a b mod uopKop s
/-- The command SHF (R228). -/
def execShf (core : CoreId) (d a b mod : BitVec 6) (s : State) : Res :=
  issueCmd core 0x21 d a b mod uopShf s
/-- The command RUP (R228). -/
def execRup (core : CoreId) (d a b mod : BitVec 6) (s : State) : Res :=
  issueCmd core 0x22 d a b mod uopRup s
/-- The command RUG (R228). -/
def execRug (core : CoreId) (d a b mod : BitVec 6) (s : State) : Res :=
  issueCmd core 0x23 d a b mod uopRug s
/-- The command SMN (R228). -/
def execSmn (core : CoreId) (d a b mod : BitVec 6) (s : State) : Res :=
  issueCmd core 0x24 d a b mod uopSmn s
/-- The command SMB (R228). -/
def execSmb (core : CoreId) (d a b mod : BitVec 6) (s : State) : Res :=
  issueCmd core 0x25 d a b mod uopSmb s
/-- The command NRM (R228). -/
def execNrm (core : CoreId) (d a b mod : BitVec 6) (s : State) : Res :=
  issueCmd core 0x26 d a b mod uopNrm s
/-- The command RNG (R228). -/
def execRng (core : CoreId) (d a b mod : BitVec 6) (s : State) : Res :=
  issueCmd core 0x27 d a b mod uopRng s

end Sys2Proof.Machine
end

