-- ==== Sys2Proof/Machine/Solve.lean ====
section
/-! DEFINITION. Batched small solves: VE_SOLVE (07_vector_and_reduction.md R256 to R258). Matrices are lists of
binary32 codes, row by row. -/

namespace Sys2Proof.Machine

/-- The VE_SOLVE body (R256). -/
structure SolveParm where
  lu : Bool
  ridge : Bool
  ctx : Nat
  n : Nat
  r : Nat
  batch : Nat
  a : Nat
  b : Nat
  aStride : Nat
  bStride : Nat
  tau : Nat
  lambda : Nat
  st : Nat
  deriving DecidableEq, Repr

/-- R256. -/
def solveParm (d : Bytes) : SolveParm :=
  { lu := flag d 8 0, ridge := flag d 8 1, ctx := bits (le d 8 1) 2 1, n := bits (le d 9 1) 0 5 + 1,
    r := bits (le d 10 1) 0 3 + 1, batch := le d 12 2 + 1, a := le d 16 6, b := le d 22 6, aStride := le d 28 4,
    bStride := le d 32 4, tau := le d 36 4, lambda := le d 40 4, st := le d 44 6 }

/-- The fields of the VE_SOLVE descriptor (R256). -/
def solveFields : List (Nat × Nat) :=
  hdrFields ++ [fldBits 8 0 3, fldBits 9 0 5, fldBits 10 0 3, fld 12 2, fld 16 6, fld 22 6, fld 28 4, fld 32 4,
    fld 36 4, fld 40 4, fld 44 6]

/-- Finite and not below zero. -/
def nonNegFinite (x : Nat) : Bool := ffIsFin f32F x && !(ffLt f32F x 0)

/-- The checks of R236, R242 and R256. -/
def solveCheck (s : State) (n : Nat) (t : Token) (d : Bytes) : Check :=
  let p := solveParm d
  let span := fun (a stride len : Nat) => canAccess s (.core n) a ((p.batch - 1) * stride + len)
  firstFail
    [failIf (!(reservedZero d solveFields)) .badReserved,
     failIf (!(ctrCheck s t.stream (opHdr d))) .badField,
     failIf (p.ctx != ctxOf t.stream || p.a % 64 != 0 || p.aStride % 64 != 0 || p.bStride % 64 != 0 ||
       !(nonNegFinite p.tau) || !(nonNegFinite p.lambda)) .badField,
     failIf (!(span p.a p.aStride (4 * p.n * p.n)) || !(span p.b p.bStride (4 * p.n * p.r)) ||
       !(canAccess s (.core n) p.st p.batch)) .badField]

/-- Entry (i, j) of a matrix with `w` columns. -/
def mxGet (m : List Nat) (w i j : Nat) : Nat := m.getD (i * w + j) 0
/-- Entry (i, j) replaced. -/
def mxSet (m : List Nat) (w i j x : Nat) : List Nat := m.set (i * w + j) x

/-- One binary32 fused multiply-add of −a × b + c. -/
def fnma (a b c : Nat) : Nat := (ffFma f32F (ffNeg f32F a) b c).code
/-- Binary32 product. -/
def mul32 (a b : Nat) : Nat := (ffMul f32F a b).code
/-- Binary32 reciprocal. -/
def rcp32 (a : Nat) : Nat := (ffDiv f32F 0x3F800000 a).code
/-- Magnitude of a binary32 code. -/
def abs32 (a : Nat) : Nat := a % 2 ^ 31

/-- thr = tau × max |A[i][i]| (R257). -/
def solveThr (a : List Nat) (n tau : Nat) : Nat :=
  mul32 tau ((List.range n).foldl (fun m i =>
    let x := abs32 (mxGet a n i i)
    if ffLt f32F m x then x else m) 0)

/-- One column of Cholesky (R257): L, the reciprocals of its diagonal, and whether all diagonals held. -/
def cholColumn (a : List Nat) (n thr : Nat) (st : Option (List Nat × List Nat)) (j : Nat) :
    Option (List Nat × List Nat) :=
  match st with
  | none => none
  | some (l, qs) =>
    let d := (List.range j).foldl (fun x k => fnma (mxGet l n j k) (mxGet l n j k) x) (mxGet a n j j)
    if ffLt f32F thr d then
      let r := (ffSqrt f32F d).code
      let q := rcp32 r
      let l1 := (List.range (n - j - 1)).foldl (fun x i0 =>
        let i := j + 1 + i0
        let t := (List.range j).foldl (fun y k => fnma (mxGet l n i k) (mxGet l n j k) y) (mxGet a n i j)
        mxSet x n i j (mul32 t q)) (mxSet l n j j r)
      some (l1, qs ++ [q])
    else none

/-- Rows i and j of a matrix of `w` columns exchanged. -/
def swapRows (m : List Nat) (w i j : Nat) : List Nat :=
  (List.range w).foldl (fun x k => mxSet (mxSet x w i k (mxGet m w j k)) w j k (mxGet m w i k)) m

/-- One column of LU with partial pivoting (R257): the combined factors, the permuted right-hand sides and the
reciprocals. -/
def luColumn (n r thr : Nat) (st : Option (List Nat × List Nat × List Nat)) (j : Nat) :
    Option (List Nat × List Nat × List Nat) :=
  match st with
  | none => none
  | some (u, b, qs) =>
    let piv := (List.range (n - j)).foldl (fun p i0 =>
      if ffLt f32F (abs32 (mxGet u n p j)) (abs32 (mxGet u n (j + i0) j)) then j + i0 else p) j
    let u1 := swapRows u n j piv
    let b1 := swapRows b r j piv
    if ffLt f32F thr (abs32 (mxGet u1 n j j)) then
      let q := rcp32 (mxGet u1 n j j)
      let u2 := (List.range (n - j - 1)).foldl (fun x i0 =>
        let i := j + 1 + i0
        let f := mul32 (mxGet u1 n i j) q
        (List.range (n - j - 1)).foldl (fun y k0 =>
          let k := j + 1 + k0
          mxSet y n i k (fnma f (mxGet u1 n j k) (mxGet y n i k))) (mxSet x n i j f)) u1
      some (u2, b1, qs ++ [q])
    else none

/-- Substitution over the rows `order`: x_i = (b_i − Σ over `ks i` of coeff × x_k) × q_i. -/
def substitute (coef : Nat → Nat → Nat) (q : Nat → Option Nat) (r : Nat) (ks : Nat → List Nat) (order : List Nat)
    (b : List Nat) : List Nat :=
  order.foldl (fun x i => (List.range r).foldl (fun y c =>
    let t := (ks i).foldl (fun v k => fnma (coef i k) (mxGet y r k c) v) (mxGet y r i c)
    mxSet y r i c (match q i with | some z => mul32 t z | none => t)) x) b

/-- One factorisation and solve; none where the matrix is singular (R257). -/
def solveOnce (lu : Bool) (n r tau : Nat) (a b : List Nat) : Option (List Nat) :=
  let thr := solveThr a n tau
  let fwd := List.range n
  let bwd := fwd.reverse
  let below := fun (i : Nat) => List.range i
  let above := fun (i : Nat) => (List.range (n - i - 1)).map (fun k => i + 1 + k)
  if lu then
    match fwd.foldl (luColumn n r thr) (some (a, b, [])) with
    | none => none
    | some (u, b1, qs) =>
      let y := substitute (mxGet u n) (fun _ => none) r below fwd b1
      some (substitute (mxGet u n) (fun i => some (qs.getD i 0)) r above bwd y)
  else
    match fwd.foldl (cholColumn a n thr) (some (List.replicate (n * n) 0, [])) with
    | none => none
    | some (l, qs) =>
      let q := fun i => some (qs.getD i 0)
      let y := substitute (mxGet l n) q r below fwd b
      some (substitute (fun i k => mxGet l n k i) q r above bwd y)

/-- A + lambda on the diagonal (R258). -/
def addRidge (a : List Nat) (n lambda : Nat) : List Nat :=
  (List.range n).foldl (fun x i => mxSet x n i i (ffAdd f32F (mxGet x n i i) lambda).code) a

/-- One matrix: its status byte and x (R258). -/
def solveMatrix (p : SolveParm) (a b : List Nat) : Nat × List Nat :=
  let nan := List.replicate (p.n * p.r) (ffNan f32F)
  if (a ++ b).any (fun x => !(ffIsFin f32F x)) then (3, nan)
  else match solveOnce p.lu p.n p.r p.tau a b with
    | some x => (0, x)
    | none =>
      if p.ridge then
        match solveOnce p.lu p.n p.r p.tau (addRidge a p.n p.lambda) b with
        | some x => (1, x)
        | none => (2, nan)
      else (2, nan)

/-- The FP32 words of a byte string. -/
def words32 (bs : Bytes) (k : Nat) : List Nat := (List.range k).map (fun i => le bs (4 * i) 4)

/-- Matrix `i` of the batch solved and its results written. Poisoned data is NONFINITE, its x is written as poisoned
data, and the op ends with POISONED (R331). -/
def solveStep (n : Nat) (p : SolveParm) (s : State) (v : VeRun) (i : Nat) : State × VeRun :=
  let aa := p.a + i * p.aStride
  let ba := p.b + i * p.bStride
  let al := 4 * p.n * p.n
  let bl := 4 * p.n * p.r
  let bad := spanPoison s.mem aa al || spanPoison s.mem ba bl
  let res := if bad then (3, List.replicate (p.n * p.r) (ffNan f32F))
    else solveMatrix p (words32 (memRead s.mem aa al) (p.n * p.n)) (words32 (memRead s.mem ba bl) (p.n * p.r))
  let s1 := write s (.core n) ba (res.2.flatMap (leBytes 4)) bad
  let s2 := write s1 (.core n) (p.st + i) [BitVec.ofNat 8 res.1]
  let cr := s2.cr
  let s3 := { s2 with cr := { cr with singular := if res.1 = 2 then satAdd cr.singular 1 else cr.singular,
                                      ridged := if res.1 = 1 then satAdd cr.ridged 1 else cr.ridged } }
  (s3, { v with nv := v.nv || decide (res.1 = 3), singular := v.singular || decide (res.1 = 2),
                hard := if bad then some .poisoned else v.hard })

/-- VE_SOLVE (R256 to R258): the whole batch; the lane registers of the context read zero afterwards and a row left
open in its Reduction Unit is discarded (R249). -/
def execVeSolve (core : CoreId) (s : State) : Res :=
  let n := core.toNat
  match startable s n 0x19 (fun c => c.ve.isNone) with
  | none => .next s
  | some o =>
    match solveCheck s n o.tok o.desc with
    | some st => .next (rejectOp s n o st)
    | none =>
      let p := solveParm o.desc
      let v0 : VeRun :=
        { tok := o.tok, idx := o.idx, desc := o.desc, prog := [], streams := [], gathers := [], iter := 0, pc := 0,
          inPos := [], outPos := [], outBuf := [], rsPos := 0, scattered := [], nv := false, of := false, infRow := false,
          maskedRow := false, singular := false, hard := none, waiting := false, finished := true }
      let r := (List.range p.batch).foldl (fun a i => solveStep n p a.1 a.2 i) (passOps s n 1, v0)
      let c := getCore r.1 n
      let x := ctxGet c p.ctx
      .next (setCore r.1 n (ctxSet { c with ve := some r.2 } p.ctx
        { x with regs := [], ru := { x.ru with open_ := none } }))

end Sys2Proof.Machine
end

