-- ==== Sys2Proof/Machine/Lists.lean ====
section
/-! DEFINITION. Op lists: I/O lists beside core lists, NOP and WAIT ops, and the completion of ops
(11_command_model.md R387 to R391). -/

namespace Sys2Proof.Machine

/-! ## Stream header and step table (R374, R376) -/

/-- Phases of a stream. -/
def hdrPhases (h : Bytes) : Nat := bits (le h 8 4) 0 24 + 1
/-- The step table's address. -/
def hdrStepTab (h : Bytes) : Nat := le h 24 6
/-- The phase table's address. -/
def hdrPhaseTab (h : Bytes) : Nat := le h 32 6
/-- The phase status array's address. -/
def hdrPstat (h : Bytes) : Nat := le h 40 6

/-- The step entry of a phase of a stream: the last whose first phase does not lie beyond it. -/
def stepIdxOf (steps : List Bytes) (p : Nat) : Nat :=
  ((List.range steps.length).filter (fun i => bits (le (steps.getD i []) 4 4) 0 24 ≤ p)).getLastD 0

/-- Step number, rounding seed and rotation seed of a step entry. -/
def stepNo (e : Bytes) : Nat := le e 0 4
/-- R173. -/
def stepSeed (e : Bytes) : Nat := le e 8 8
/-- R192. -/
def stepRot (e : Bytes) : Nat := le e 16 8

/-- I/O ops of a phase record, and the address of the list (R377). -/
def recIoCount (r : Bytes) : Nat := bits (le r 14 2) 0 11
/-- The I/O op list. -/
def recIoList (r : Bytes) : Nat := le r 16 6

/-- The token that an I/O list's ops run under. -/
def ioToken (r : StreamRun) (id : Nat) (p : PhaseRun) : Token :=
  let e := r.steps.getD p.stepIdx []
  { stream := id, phase := p.num, off := 0, len := recIoCount p.record, seed := stepSeed e, rotSeed := stepRot e,
    step := stepNo e, mb := if flag p.record 0 1 then some (le p.record 4 1) else none, layer := le p.record 2 2,
    ladder := flag p.record 0 0, blinkLog2n := 0, ladderEntry := p.ladderEntry }

/-- The next op of a running phase's I/O list (R388, R389). -/
def nextIo (s : State) (id p : Nat) : Option NextOp :=
  match getStream s id, getPhase s id p with
  | some r, some ph =>
    if ph.ioNext < recIoCount ph.record then
      let a := recIoList ph.record + 64 * ph.ioNext
      let rd := read s .dram a 64
      some { tok := ioToken r id ph, idx := ph.ioNext, desc := takenBytes rd.err.isSome rd.data, poisoned := rd.err.isSome }
    else none
  | _, _ => none

/-- The start conditions of an I/O op (R389). No unit holds it back: the Fabric Interfaces take every op, and the MUUs reject
one that comes while another MUU_UPDATE runs, of whatever list (R303). -/
def mayStartIo (s : State) (id p : Nat) (o : NextOp) : Bool :=
  let h := opHdr o.desc
  let busy := match getPhase s id p with | some ph => !ph.io.isEmpty | none => true
  (!h.fence || !busy) && (!h.waitEn || !ctrInRange s id h.waitCtr || !(waitHolds s h.waitCtr h.waitVal))

/-- The next I/O op if it carries the opcode and may start. -/
def startableIo (s : State) (id p opcode : Nat) : Option NextOp :=
  match nextIo s id p with
  | none => none
  | some o => if !o.poisoned && (opHdr o.desc).opcode == opcode && mayStartIo s id p o then some o else none

/-- The walk of an I/O list moves past one op. -/
def passIo (s : State) (id p : Nat) : State := modPhase s id p (fun x => { x with ioNext := x.ioNext + 1 })

/-- An I/O op completes: signal and status (R384, R391). -/
def finishIo (s : State) (id p : Nat) (d : Bytes) (st : Status) : State := noteStatus (signal s id d) id p st

/-- A rejected I/O op completes at issue. -/
def rejectIo (s : State) (id p : Nat) (o : NextOp) (st : Status) : State := finishIo (passIo s id p) id p o.desc st

/-- An I/O op is in flight. -/
def startIo (s : State) (id p : Nat) (o : NextOp) : State :=
  modPhase (passIo s id p) id p (fun x =>
    { x with io := x.io ++ [{ idx := o.idx, desc := o.desc, status := .ok, finished := false }] })

/-- What is known of an I/O op in flight is updated. -/
def modIo (s : State) (id p i : Nat) (f : IoOp → IoOp) : State :=
  modPhase s id p (fun x => { x with io := x.io.map (fun o => if o.idx = i then f o else o) })

/-- An I/O op in flight. -/
def getIo (s : State) (id p i : Nat) : Option IoOp := (getPhase s id p).bind (fun x => x.io.find? (·.idx == i))

/-- The work of an I/O op in flight has ended with a status; OP_COMPLETE finishes it. -/
def endIo (s : State) (id p i : Nat) (st : Status) : State :=
  modIo s id p i (fun o => { o with status := if o.status = .ok then st else o.status, finished := true })

/-- Completion of an I/O op whose work has ended (R391). -/
def completeIo (s : State) (id p i : Nat) : State :=
  match getIo s id p i with
  | none => s
  | some o =>
    if o.finished then
      finishIo (modPhase s id p (fun x => { x with io := x.io.filter (fun y => y.idx != i) })) id p o.desc o.status
    else s

/-! ## Ops of either list -/

/-- The next op at a place, if it is there to start: poisoned descriptors included. -/
def nextAt (loc : OpLoc) (s : State) : Option NextOp :=
  match loc with
  | .core c => nextOp s c.toNat
  | .io id p => nextIo s id.toNat p.toNat

/-- The fence and wait conditions at a place. -/
def mayStartAt (loc : OpLoc) (s : State) (o : NextOp) : Bool :=
  match loc with
  | .core c => mayStart s c.toNat o
  | .io id p => mayStartIo s id.toNat p.toNat o

/-- An op at a place completes at issue with a status. -/
def rejectAt (loc : OpLoc) (s : State) (o : NextOp) (st : Status) : State :=
  match loc with
  | .core c => rejectOp s c.toNat o st
  | .io id p => rejectIo s id.toNat p.toNat o st

/-- The opcodes a list may hold (R388, R430, R446, R474). -/
def opAllowed (io : Bool) (op : Nat) : Bool :=
  if io then op == 0x00 || op == 0x01 || op == 0x28 || decide (0x40 ≤ op ∧ op ≤ 0x43) || op == 0x50 || op == 0x51
  else op == 0x00 || op == 0x01 || op == 0x08 || op == 0x10 || op == 0x11 || op == 0x18 || op == 0x19 || op == 0x20

/-- Whether a place is an I/O list. -/
def isIo (loc : OpLoc) : Bool := match loc with | .core _ => false | .io _ _ => true

/-- NOP and WAIT ops complete at once; their body is reserved (R18, R387, R388). -/
def plainOp (loc : OpLoc) (s : State) (o : NextOp) : State :=
  rejectAt loc s o
    (if !(reservedZero o.desc hdrFields) then .badReserved
     else if !(ctrCheck s o.tok.stream (opHdr o.desc)) then .badField else .ok)

/-- OP_NOP (R388). An op that its list does not allow, and one read as poisoned (R627), end here too: they do
nothing and complete with their status. -/
def execOpNop (loc : OpLoc) (s : State) : Res :=
  match nextAt loc s with
  | none => .next s
  | some o =>
    if o.poisoned then .next (rejectAt loc s o .poisoned)
    else
      let op := (opHdr o.desc).opcode
      if !(opAllowed (isIo loc) op) then .next (rejectAt loc s o .badOpcode)
      else if op = 0x00 ∧ mayStartAt loc s o = true then .next (plainOp loc s o)
      else .next s

/-- WAIT (R388): an op that exists for its counter wait. -/
def execWait (loc : OpLoc) (s : State) : Res :=
  match nextAt loc s with
  | none => .next s
  | some o =>
    if !o.poisoned && (opHdr o.desc).opcode == 0x01 && mayStartAt loc s o then .next (plainOp loc s o)
    else .next s

/-- Completion of a transfer of the cluster DMA. -/
def completeDma (s : State) (n : Nat) : State :=
  let c := getCore s n
  match c.dma with
  | none => s
  | some r => if r.finished then finishOp (setCore s n { c with dma := none, noProg := 0 }) n r.tok r.desc r.status else s

/-- Completion of a page walk or CCM op. -/
def completeCcm (s : State) (n : Nat) : State :=
  let c := getCore s n
  match c.ccm with
  | none => s
  | some r => if r.finished then finishOp (setCore s n { c with ccm := none, noProg := 0 }) n r.tok r.desc r.status else s

end Sys2Proof.Machine
end

