-- ==== Sys2Proof/Machine/Ccm.lean ====
section
/-! DEFINITION. The Context Cache Manager: pools and frames, page tables, the CCM ops, demotion and moves
(10_memory_and_context.md R335 to R353). -/

namespace Sys2Proof.Machine

/-! ## Pools and frames (R336 to R338) -/

/-- en of CCM_SEQ_BASE. -/
def ccmEn (s : State) : Bool := s.mr.seqBase.getLsbD 0

/-- fpc of CCM_SRAM_POOL; above 2,048 it acts as 2,048. -/
def ccmFpc (s : State) : Nat := min (bits s.mr.sramPool.toNat 0 12) 2048

/-- The offset of the SRAM pool in each cluster store. -/
def ccmOff (s : State) : Nat := 4096 * bits s.mr.sramPool.toNat 12 12

/-- Whether the SRAM pool fits its cluster stores (R338). -/
def sramFits (s : State) : Bool := decide (ccmOff s + 4352 * ccmFpc s ≤ clusterStoreLen)

/-- The first address of the DRAM pool. -/
def ccmDram (s : State) : Nat := bits s.mr.dramBase.toNat 12 36 * 4096

/-- The first address of the host pool. -/
def ccmHost (s : State) : Nat := bits s.mr.hostBase.toNat 12 36 * 4096

/-- Whether one Window Table entry grants the whole host pool to the CCM (R338). -/
def hostPoolGranted (s : State) : Bool :=
  let lo := ccmHost s
  let hi := lo + 4352 * s.mr.hostFrames.toNat
  decide (hostWinLo ≤ lo ∧ hi ≤ hostWinHi) &&
  (s.hif.wt.map (fun p => wtEntry p.2)).any (fun e =>
    e.valid && (e.kind == 1 || e.kind == 2) && e.rd && e.wr && bit e.init initCcm &&
    decide (e.base ≤ lo ∧ hi ≤ e.base + 4096 * e.pages))

/-- Frames of a pool: 1 SRAM, 2 DRAM, 3 host. A pool that counts as empty has none (R338, R351). -/
def poolFrames (s : State) (tier : Nat) : Nat :=
  match tier with
  | 1 => if sramFits s then 64 * ccmFpc s else 0
  | 2 => s.mr.dramFrames.toNat
  | 3 => if hostPoolGranted s && !s.ccm.hostBad then s.mr.hostFrames.toNat else 0
  | _ => 0

/-- The element frame of frame `f` (R337). -/
def frameElem (s : State) (tier f : Nat) : Nat :=
  match tier with
  | 1 => clusterBase (f % 64) + ccmOff s + 4096 * (f / 64)
  | 2 => ccmDram s + 4096 * f
  | _ => ccmHost s + 4096 * f

/-- The scale frame of frame `f` (R337). -/
def frameScale (s : State) (tier f : Nat) : Nat :=
  match tier with
  | 1 => clusterBase (f % 64) + ccmOff s + 4096 * ccmFpc s + 256 * (f / 64)
  | 2 => ccmDram s + 4096 * s.mr.dramFrames.toNat + 256 * f
  | _ => ccmHost s + 4096 * s.mr.hostFrames.toNat + 256 * f

/-- The frames in use of a pool. -/
def poolUsed (s : State) (tier : Nat) : List (Nat × Bool) :=
  match tier with
  | 1 => s.ccm.usedSram
  | 2 => s.ccm.usedDram
  | _ => s.ccm.usedHost

/-- Whether a frame is free; the SRAM pool leaves out unavailable clusters (R338). -/
def frameFree (s : State) (tier f : Nat) : Bool :=
  !(smGet false (poolUsed s tier) f) && (tier != 1 || clusterAvail s (f % 64))

/-- Clusters that are available. -/
def clustersUp (s : State) : Nat := ((List.range 64).filter (clusterAvail s)).length

/-- The size of a pool: the SRAM pool leaves out the frames of unavailable clusters (R338). -/
def poolSize (s : State) (tier : Nat) : Nat :=
  if tier = 1 then poolFrames s tier / 64 * clustersUp s else poolFrames s tier

/-- Free frames of a pool: its frames, less those in use. -/
def poolFree (s : State) (tier : Nat) : Nat :=
  let used := (poolUsed s tier).filter (fun p => decide (p.1 < poolFrames s tier) && (tier != 1 || clusterAvail s (p.1 % 64)))
  poolSize s tier - used.length

/-- The free frame of lowest number (R344): while a cluster is available, it lies among the first 64 × (u + 1) frames
where u are in use. -/
def lowestFree (s : State) (tier : Nat) : Option Nat :=
  (List.range (min (poolFrames s tier) (64 * ((poolUsed s tier).length + 1)))).find? (frameFree s tier)

/-- The metadata area after the DRAM pool (R337). -/
def ccmMeta (s : State) : Nat := ccmDram s + 4352 * s.mr.dramFrames.toNat

/-- The place of a frame in the metadata area: SRAM frames, then DRAM frames, then host frames. -/
def frameOrd (s : State) (tier f : Nat) : Nat :=
  match tier with
  | 1 => f
  | 2 => 64 * ccmFpc s + f
  | _ => 64 * ccmFpc s + s.mr.dramFrames.toNat + f

/-- Frames of every pool. -/
def frameTotal (s : State) : Nat := 64 * ccmFpc s + s.mr.dramFrames.toNat + s.mr.hostFrames.toNat

/-- The owner word of a frame. -/
def ownerAddr (s : State) (tier f : Nat) : Nat := ccmMeta s + 8 * frameOrd s tier f

/-- The free bit of a frame in the metadata area, written as the CCM parts change it. -/
def putFreeBit (s : State) (tier f : Nat) (free : Bool) : State :=
  let o := frameOrd s tier f
  let a := ccmMeta s + 8 * frameTotal s + o / 8
  write s .dram a [BitVec.ofNat 8 (setBits (memByte s.mem a).toNat (o % 8) 1 (b2n free))]

/-- A frame marked used or free. -/
def setUsed (s : State) (tier f : Nat) (used : Bool) : State :=
  let c := s.ccm
  let c' := match tier with
    | 1 => { c with usedSram := smSet false c.usedSram f used }
    | 2 => { c with usedDram := smSet false c.usedDram f used }
    | _ => { c with usedHost := smSet false c.usedHost f used }
  putFreeBit { s with ccm := c' } tier f (!used)

/-- A frame given to a page: marked used, its owner word written (R340). -/
def claimFrame (s : State) (tier f seq page : Nat) : State :=
  write (setUsed s tier f true) .dram (ownerAddr s tier f) (leBytes 8 (seq % 65536 + page * 65536))

/-! ## Sequences and page-table entries (R339, R340) -/

/-- The sequence-table entry of a sequence. -/
def seqAddr (s : State) (seq : Nat) : Nat := bits s.mr.seqBase.toNat 12 36 * 4096 + 32 * seq

/-- Entries of the sequence table. -/
def seqCount (s : State) : Nat := 2 ^ (8 + min (bits s.mr.seqBase.toNat 1 4) 8)

/-- A sequence entry (R339). -/
structure SeqEntry where
  ptBase : Nat
  cap : Nat
  valid : Bool
  hostOk : Bool
  promote : Bool
  held : Nat
  deriving DecidableEq, Repr

/-- R339. -/
def seqEntry (s : State) (seq : Nat) : SeqEntry :=
  let b := memRead s.mem (seqAddr s seq) 32
  { ptBase := le b 0 6, cap := le b 8 4, valid := flag b 12 0, hostOk := flag b 12 1, promote := flag b 12 2,
    held := le b 16 4 }

/-- frames_held of a sequence changed. -/
def addHeld (s : State) (seq : Nat) (up : Bool) : State :=
  let h := (seqEntry s seq).held
  write s .dram (seqAddr s seq + 16) (leBytes 4 (if up then h + 1 else h - 1))

/-- A page-table entry (R340). -/
structure PageEntry where
  tier : Nat
  ref : Bool
  moving : Bool
  fill : Nat
  pins : Nat
  frame : Nat
  deriving DecidableEq, Repr

/-- R340. -/
def pageOf (v : Nat) : PageEntry :=
  { tier := bits v 0 2, ref := bit v 2, moving := bit v 3, fill := bits v 4 5, pins := bits v 16 8,
    frame := bits v 24 32 }

/-- The 8 bytes of a page-table entry. -/
def pageWord (e : PageEntry) : Nat :=
  e.tier + 4 * b2n e.ref + 8 * b2n e.moving + 16 * (e.fill % 32) + 65536 * (e.pins % 256) + 2 ^ 24 * (e.frame % 2 ^ 32)

/-- The address of logical page `i` of a sequence. -/
def pageAddr (s : State) (seq i : Nat) : Nat := (seqEntry s seq).ptBase + 8 * i

/-- Page-table entry at an address. -/
def getPage (s : State) (a : Nat) : PageEntry := pageOf (memLe s a 8)

/-- Page-table entry at an address replaced. -/
def putPage (s : State) (a : Nat) (e : PageEntry) : State := write s .dram a (leBytes 8 (pageWord e))

/-! ## Host faults (R345, R351) -/

/-- A host-page access failed: counted, and one event for each 1,024 faults. -/
def hostFault (s : State) : State :=
  let n := satAdd s.mr.hostFaults 1
  let s1 := { s with mr := { s.mr with hostFaults := n }, ccm := { s.ccm with hostBad := true } }
  if n.toNat % 1024 = 0 ∧ n ≠ s.mr.hostFaults then raiseEvent s1 .windowDeny 0 0 (memDetail (ccmHost s) initCcm true)
  else s1

/-- A host-page access succeeded: host faults no longer persist. -/
def hostFine (s : State) : State := { s with ccm := { s.ccm with hostBad := false } }

/-! ## Moves (R346, R348, R349) -/

/-- A move of a page to another tier starts: moving is set and the target frame is taken; nothing happens where the
page is pinned or already moving, or where the target pool has no free frame. The answer says whether it started. -/
def startMove (s : State) (promote : Bool) (a seq page target : Nat) (forOp : Option Nat) : State × Bool :=
  let e := getPage s a
  if e.pins != 0 || e.moving then (s, false)
  else
    match lowestFree s target with
    | none => (s, false)
    | some f =>
      let s1 := claimFrame (putPage s a { e with moving := true }) target f seq page
      let mv : CcmMoveRun :=
        { id := s1.ccm.nextMove, promote, entryAddr := a, fromTier := e.tier, fromFrame := e.frame, toTier := target,
          toFrame := f, forOp }
      ({ s1 with ccm := { s1.ccm with moves := s1.ccm.moves ++ [mv], nextMove := s1.ccm.nextMove + 1 } }, true)

/-- Whether promotions may take place: free SRAM frames above sram_low ÷ 256 of the pool (R346). -/
def mayPromote (s : State) : Bool :=
  decide (poolFree s 1 * 256 > bits s.mr.watermark.toNat 0 8 * poolSize s 1)

/-- A page left where it is (R346). -/
def promoteSkip (s : State) : State := { s with mr := { s.mr with promoteSkips := satAdd s.mr.promoteSkips 1 } }

/-- The promotion of one page (R346). -/
def promotePage (s : State) (seq page : Nat) (forOp : Option Nat) : State :=
  let a := pageAddr s seq page
  let e := getPage s a
  if (e.tier == 2 || e.tier == 3) && mayPromote s then
    let r := startMove s true a seq page 1 forOp
    if r.2 then r.1 else promoteSkip s
  else promoteSkip s

/-- The move is over: it leaves the list, and a PROMOTE that has no other move left has ended. -/
def endMove (s : State) (mv : CcmMoveRun) : State :=
  let s1 := { s with ccm := { s.ccm with moves := s.ccm.moves.filter (fun x => x.id != mv.id) } }
  match mv.forOp with
  | none => s1
  | some n =>
    if s1.ccm.moves.any (fun x => x.forOp == some n) then s1
    else
      let c := getCore s1 n
      setCore s1 n { c with ccm := c.ccm.map (fun r => { r with finished := true }) }

/-- A move abandoned: moving is cleared, the target frame freed, the source stays (R349). A page whose promotion is
abandoned was left in place (R346). -/
def abandonMove (s : State) (mv : CcmMoveRun) : State :=
  let e := getPage s mv.entryAddr
  let s1 := endMove (setUsed (putPage s mv.entryAddr { e with moving := false }) mv.toTier mv.toFrame false) mv
  if mv.promote then promoteSkip s1 else s1

/-- The lines of a frame pair as the CCM sees them: what it does not reach, or what does not exist, reads as poisoned (R36,
R37), and a cluster whose store it reads is in use (R556). -/
def ccmView (s : State) (host : List HostLine) (tier f : Nat) : View :=
  viewSpan initCcm .ccm host (viewSpan initCcm .ccm host (viewOf s) (frameElem s tier f) 4096) (frameScale s tier f) 256

/-- CCM_MOVE (R349): the copy of a page completes, and the move is committed or abandoned. A host page that cannot be read
stays where it is (R351); what cannot be read of a frame of the module goes on as poison (R37, R332). -/
def execCcmMove (id : Nat) (host : List HostLine) (s : State) : Res :=
  match s.ccm.moves.find? (fun m => m.id == id) with
  | none => .next s
  | some mv =>
    let e := getPage s mv.entryAddr
    if e.pins != 0 || !e.moving then .next (abandonMove s mv)
    else
      let v := ccmView s host mv.fromTier mv.fromFrame
      if mv.fromTier = 3 ∧ v.err.isSome = true then .next (abandonMove (hostFault v.s) mv)
      else
        let c1 := copySpan v.m v.s initCcm .ccm (frameElem s mv.fromTier mv.fromFrame) (frameElem s mv.toTier mv.toFrame) 4096
        let c2 := copySpan v.m c1.1 initCcm .ccm (frameScale s mv.fromTier mv.fromFrame) (frameScale s mv.toTier mv.toFrame) 256
        if (c1.2.orElse (fun _ => c2.2)).isSome then
          .next (abandonMove (if mv.toTier = 3 then hostFault c2.1 else c2.1) mv)
        else
          let s1 := if mv.toTier = 3 ∨ mv.fromTier = 3 then hostFine c2.1 else c2.1
          let s2 := putPage s1 mv.entryAddr { e with tier := mv.toTier, frame := mv.toFrame, moving := false }
          let s3 := setUsed s2 mv.fromTier mv.fromFrame false
          let m := s3.mr
          let s4 := if mv.promote then { s3 with mr := { m with promotions := satAdd m.promotions 1 } }
            else { s3 with mr := { m with demotions := satAdd m.demotions 1 } }
          .next (endMove s4 mv)

/-- The hand of a pool. -/
def handOf (s : State) (tier : Nat) : Nat := if tier = 1 then s.ccm.handSram else s.ccm.handDram

/-- The hand of a pool moved on. -/
def setHand (s : State) (tier h : Nat) : State :=
  if tier = 1 then { s with ccm := { s.ccm with handSram := h } } else { s with ccm := { s.ccm with handDram := h } }

/-- Moves out of a pool that are in progress: their frames will be free. -/
def leaving (s : State) (tier : Nat) : Nat := (s.ccm.moves.filter (fun m => m.fromTier == tier && !m.promote)).length

/-- Whether the pages of a sequence may leave DRAM for the host pool (R348, R351). -/
def hostAllowed (s : State) (seq : Nat) : Bool :=
  (seqEntry s seq).hostOk && s.mr.ccmCfg.getLsbD 4 && !s.ccm.hostBad

/-- One step of the clock hand at its frame (R348). -/
def handStep (s : State) (tier : Nat) : State :=
  let n := poolFrames s tier
  let f := handOf s tier
  let s1 := setHand s tier (if f + 1 ≥ n then 0 else f + 1)
  if frameFree s tier f then s1
  else
    let w := memLe s (ownerAddr s tier f) 8
    let seq := bits w 0 16
    let page := bits w 16 32
    let a := pageAddr s seq page
    let e := getPage s a
    if e.tier != tier || e.frame != f || e.pins != 0 || e.moving then s1
    else if e.ref then putPage s1 a { e with ref := false }
    else if tier = 2 ∧ hostAllowed s seq = false then s1
    else (startMove s1 false a seq page (tier + 1) none).1

/-- The sweep goes on until the frames free or leaving reach `want` (R348); at most `fuel` frames are passed. -/
def sweep (tier want : Nat) : Nat → State → State
  | 0, s => s
  | k + 1, s =>
    if (poolFree s tier + leaving s tier) * 256 ≥ want then s else sweep tier want k (handStep s tier)

/-- Whether a sweep of a pool is under way. -/
def sweeping (s : State) (tier : Nat) : Bool := if tier = 1 then s.ccm.sweepSram else s.ccm.sweepDram

/-- A sweep of a pool starts or ends. -/
def setSweep (s : State) (tier : Nat) (b : Bool) : State :=
  if tier = 1 then { s with ccm := { s.ccm with sweepSram := b } } else { s with ccm := { s.ccm with sweepDram := b } }

/-- DEMOTION_SWEEP (R348) of the SRAM pool (1) or the DRAM pool (2). A sweep starts at the low watermark. It is under way
until free frames have reached the high one, also where moves were abandoned or found no target meanwhile. -/
def execDemotionSweep (pool : BitVec 2) (s : State) : Res :=
  let t := pool.toNat
  let w := s.mr.watermark.toNat
  let sh := if t = 1 then 0 else 16
  let low := bits w sh 8
  let high := max low (bits w (sh + 8) 8)
  let n := poolSize s t
  if (t == 1 || t == 2) && ccmEn s && s.mr.ready && decide (n > 0) then
    let go := decide (poolFree s t * 256 ≤ low * n) || (sweeping s t && decide (poolFree s t * 256 < high * n))
    if go then
      let s1 := sweep t (high * n) (2 * poolFrames s t) s
      .next (setSweep s1 t (decide (poolFree s1 t * 256 < high * n)))
    else .next (if sweeping s t then setSweep s t false else s)
  else .next s

/-! ## The ops (R341 to R347) -/

/-- The CCM_OP body (R341). -/
structure CcmParm where
  func : Nat
  at_ : Nat
  seq : Nat
  page : Nat
  count : Nat
  stride : Nat
  kRec : Nat
  vRec : Nat
  cores : Nat
  deriving DecidableEq, Repr

/-- R341. -/
def ccmParm (d : Bytes) : CcmParm :=
  { func := bits (le d 8 1) 0 2, at_ := bits (le d 9 1) 0 4, seq := le d 10 2, page := le d 12 4,
    count := le d 16 2 + 1, stride := if le d 18 2 = 0 then 1 else le d 18 2, kRec := bits (le d 20 4) 0 20,
    vRec := bits (le d 24 4) 0 20, cores := le d 28 8 }

/-- The fields of the CCM_OP descriptor. -/
def ccmFields : List (Nat × Nat) :=
  hdrFields ++ [fldBits 8 0 2, fldBits 9 0 4, fld 10 2, fld 12 4, fld 16 2, fld 18 2, fldBits 20 0 20, fldBits 24 0 20,
    fld 28 8]

/-- The check of a K or V record (R342, R122): the format, R67, trans and R124. What is a status of the memory and
protection class for an LPA op under R124 is one of the command and security class here. -/
def ccmRecCheck (s : State) (n off rows : Nat) : Check :=
  match recCheck s n off 32 32 operandFields with
  | some .storeRange => some .badField
  | some e => some e
  | none =>
    let b := (coreRead s n off 32).data
    let r := operandRec b
    firstFail [fmtFail r.fw, failIf (bits r.fw 0 10 != 0x220 || r.trans) .badField,
      failIf (!(inStore r.elemBase rows 128 r.elemPitch) || !(inStore r.scaleBase rows 8 r.scalePitch)) .badField]

/-- The cores that a FETCH names (R341). -/
def ccmCores (n : Nat) (p : CcmParm) : List Nat := (bitList 64 p.cores).map (fun k => n / 64 * 64 + k)

/-- The last page that an op names (R342). -/
def ccmLast (p : CcmParm) : Nat :=
  if p.func = 1 ∨ p.func = 2 then p.page + (p.count - 1) * p.stride else p.page

/-- The check of a CCM op (R342, R390, R627). -/
def ccmCheck (s : State) (n : Nat) (t : Token) (d : Bytes) : Check :=
  let p := ccmParm d
  let rows := if p.func = 0 then p.count else 16 * p.count
  let recs := decide (p.func ≤ 1)
  let e := seqEntry s p.seq
  let rd := read s .dram (seqAddr s p.seq) 32
  firstFail
    [failIf (!(reservedZero d ccmFields)) .badReserved,
     failIf (!(ctrCheck s t.stream (opHdr d))) .badField,
     failIf (!(ccmEn s) || !s.mr.ready) .badField,
     failIf (p.func == 0 && decide (p.at_ + p.count > 16)) .badField,
     (if recs then ccmRecCheck s n p.kRec rows else none),
     (if recs then ccmRecCheck s n p.vRec rows else none),
     failIf (p.func == 1 && p.cores == 0) .badField,
     failIf (p.func == 1 && (ccmCores n p).any (fun c => !(coreAvail s c))) .coreUnavail,
     failIf (decide (p.seq ≥ seqCount s)) .ccmSeq,
     rd.err,
     failIf (!e.valid || decide (ccmLast p ≥ e.cap)) .ccmSeq]

/-- The op that the page walker takes up: its work is done, or it waits for moves. -/
def ccmRun (s : State) (n : Nat) (o : NextOp) (st : Status) (finished : Bool) : State :=
  let s1 := passOps s n 1
  let run : OpRun :=
    { tok := o.tok, idx := o.idx, desc := o.desc, status := st, finished, phot := photZero, photBase := 0, turn := 0 }
  setCore s1 n { getCore s1 n with ccm := some run }

/-- The next op of a core if it is the CCM function given. -/
def ccmNext (s : State) (n func : Nat) : Option NextOp :=
  match startable s n 0x20 (fun c => c.ccm.isNone) with
  | none => none
  | some o => if (ccmParm o.desc).func = func then some o else none

/-- One failure among several, the first. -/
def firstStatus (a b : Option Status) : Option Status := a.orElse (fun _ => b)

/-- The four parts of a token row: offset of the row in the K or V record's core-store array and in the frame pair. -/
def rowParts (s : State) (n : Nat) (p : CcmParm) (tier f i r : Nat) : List (Nat × Nat × Nat) :=
  let k := operandRec (coreRead s n p.kRec 32).data
  let v := operandRec (coreRead s n p.vRec 32).data
  [(k.elemBase + i * k.elemPitch, frameElem s tier f + 128 * r, 128),
   (v.elemBase + i * v.elemPitch, frameElem s tier f + 2048 + 128 * r, 128),
   (k.scaleBase + i * k.scalePitch, frameScale s tier f + 8 * r, 8),
   (v.scaleBase + i * v.scalePitch, frameScale s tier f + 128 + 8 * r, 8)]

/-- The frame that an APPEND takes for a page without one (R344). -/
def allocTier (s : State) (seq : Nat) : Option (Nat × Nat) :=
  match lowestFree s 1 with
  | some f => some (1, f)
  | none =>
    match lowestFree s 2 with
    | some f => some (2, f)
    | none =>
      if (seqEntry s seq).hostOk && !s.ccm.hostBad then (lowestFree s 3).map (fun f => (3, f)) else none

/-- The rows of an APPEND written into its frame (R343). -/
def appendRows (s : State) (n : Nat) (p : CcmParm) (tier f : Nat) : State × Option Status × Bool :=
  let src := s.mem
  (List.range p.count).foldl (fun a i =>
    (rowParts s n p tier f i (p.at_ + i)).foldl (fun b x =>
      let c := copySpan src b.1 initCcm .ccm (coreBase n + x.1) x.2.1 x.2.2
      (c.1, firstStatus b.2.1 c.2, b.2.2 || spanPoison src (coreBase n + x.1) x.2.2)) a) (s, none, false)

/-- APPEND on a page that holds frame `f` of `tier` (R343 steps 3 to 6). -/
def appendTo (s : State) (n : Nat) (o : NextOp) (a tier f : Nat) (e : PageEntry) : State :=
  let p := ccmParm o.desc
  let w := appendRows s n p tier f
  match w.2.1 with
  | some st =>
    let s1 := putPage w.1 a { e with tier, frame := f }
    ccmRun (if tier = 3 then hostFault s1 else s1) n o st true
  | none =>
    let s1 := putPage w.1 a { e with tier, frame := f, fill := p.at_ + p.count }
    ccmRun s1 n o (if w.2.2 then .poisoned else .ok) true

/-- APPEND (R343). -/
def execAppend (core : CoreId) (s : State) : Res :=
  let n := core.toNat
  match ccmNext s n 0 with
  | none => .next s
  | some o =>
    match ccmCheck s n o.tok o.desc with
    | some st => .next (rejectOp s n o st)
    | none =>
      let p := ccmParm o.desc
      let a := pageAddr s p.seq p.page
      let rd := read s .dram a 8
      let e := getPage s a
      match rd.err with
      | some st => .next (ccmRun s n o st true)
      | none =>
        if e.tier = 0 then
          match allocTier s p.seq with
          | none =>
            .next (ccmRun { s with mr := { s.mr with allocFails := satAdd s.mr.allocFails 1 } } n o .ccmNoFrame true)
          | some (t, f) =>
            if p.at_ ≠ e.fill then .next (ccmRun s n o .ccmFill true)
            else .next (appendTo (addHeld (claimFrame s t f p.seq p.page) p.seq true) n o a t f e)
        else if p.at_ ≠ e.fill then .next (ccmRun s n o .ccmFill true)
        else .next (appendTo s n o a e.tier e.frame e)

/-- One row of a page that a FETCH delivers into the named cores: from the frame, as unwritten, or poisoned (R345). `s0` is
the state at the start of the op. -/
def fetchRow (s0 : State) (m : Mem) (n : Nat) (p : CcmParm) (tier f fill : Nat) (poison : Bool) (j r : Nat) (s : State) :
    State :=
  (ccmCores n p).foldl (fun a c =>
    (rowParts s0 n p tier f (16 * j + r) r).foldl (fun b x =>
      let dst := coreBase c + x.1
      if poison then setMem b (memWrite b.mem dst (zeroBytes x.2.2) true)
      else if r < fill then (copySpan m b initCcm (.near (n / 64)) x.2.1 dst x.2.2).1
      else setMem b (memWrite b.mem dst (List.replicate x.2.2 (if x.2.2 = 8 then 0x80 else 0)) false)) a) s

/-- One page of a FETCH (R345): the state, and whether any of its rows was poisoned. The K and V records are those that the
op found in `s0`, at its start. -/
def fetchPage (s0 : State) (n : Nat) (p : CcmParm) (host : List HostLine) (x : State × Bool) (j : Nat) : State × Bool :=
  let s := x.1
  let a := pageAddr s p.seq (p.page + j * p.stride)
  let e := getPage s a
  let rd := read s .dram a 8
  let rows := fun (m : Mem) (poison : Bool) (y : State) =>
    (List.range 16).foldl (fun b r => fetchRow s0 m n p e.tier e.frame e.fill poison j r b) y
  if rd.err.isSome || e.tier == 0 then (rows s.mem true s, true)
  else
    let v := ccmView s host e.tier e.frame
    if e.tier = 3 ∧ v.err.isSome = true then (rows v.m true (hostFault v.s), true)
    else
      let bad := spanPoison v.m (frameElem s e.tier e.frame) (128 * e.fill) ||
        spanPoison v.m (frameElem s e.tier e.frame + 2048) (128 * e.fill) ||
        spanPoison v.m (frameScale s e.tier e.frame) (8 * e.fill) ||
        spanPoison v.m (frameScale s e.tier e.frame + 128) (8 * e.fill)
      let s1 := if e.tier = 3 then hostFine v.s else v.s
      let s2 := putPage (rows v.m false s1) a { e with ref := true }
      let s3 := if (seqEntry s p.seq).promote && e.tier != 1 then promotePage s2 p.seq (p.page + j * p.stride) none else s2
      (s3, x.2 || bad)

/-- FETCH (R345). -/
def execFetch (core : CoreId) (host : List HostLine) (s : State) : Res :=
  let n := core.toNat
  match ccmNext s n 1 with
  | none => .next s
  | some o =>
    match ccmCheck s n o.tok o.desc with
    | some st => .next (rejectOp s n o st)
    | none =>
      let p := ccmParm o.desc
      let r := (List.range p.count).foldl (fetchPage s n p host) (s, false)
      .next (ccmRun r.1 n o (if r.2 then .poisoned else .ok) true)

/-- PROMOTE (R346): the moves start; the op ends when the last of them does. -/
def execPromote (core : CoreId) (s : State) : Res :=
  let n := core.toNat
  match ccmNext s n 2 with
  | none => .next s
  | some o =>
    match ccmCheck s n o.tok o.desc with
    | some st => .next (rejectOp s n o st)
    | none =>
      let p := ccmParm o.desc
      let s1 := (List.range p.count).foldl (fun a j => promotePage a p.seq (p.page + j * p.stride) (some n)) s
      .next (ccmRun s1 n o .ok (!(s1.ccm.moves.any (fun m => m.forOp == some n))))

/-- One page freed (R347). -/
def truncPage (seq : Nat) (s : State) (i : Nat) : State :=
  let a := pageAddr s seq i
  let e := getPage s a
  if e.tier = 0 then s
  else addHeld (setUsed (write s .dram a (leBytes 8 0)) e.tier e.frame false) seq false

/-- The pages that a TRUNCATE frees. -/
def truncPages (s : State) (p : CcmParm) : List Nat := (List.range ((seqEntry s p.seq).cap - p.page)).map (· + p.page)

/-- Whether one of them is pinned or moving. -/
def truncHeld (s : State) (p : CcmParm) : Bool :=
  (truncPages s p).any (fun i => let e := getPage s (pageAddr s p.seq i); e.tier != 0 && (e.pins != 0 || e.moving))

/-- TRUNCATE (R347): it starts, and waits in the page walker while a page it frees is pinned or moving; the command is given
again when it may go on. -/
def execTruncate (core : CoreId) (s : State) : Res :=
  let n := core.toNat
  let c := getCore s n
  match c.ccm with
  | some r =>
    let p := ccmParm r.desc
    if !r.finished && p.func == 3 && !(truncHeld s p) then
      let s1 := (truncPages s p).foldl (truncPage p.seq) s
      .next (setCore s1 n { getCore s1 n with ccm := some { r with finished := true }, noProg := 0 })
    else .next s
  | none =>
    match ccmNext s n 3 with
    | none => .next s
    | some o =>
      match ccmCheck s n o.tok o.desc with
      | some st => .next (rejectOp s n o st)
      | none =>
        let p := ccmParm o.desc
        if truncHeld s p then .next (ccmRun s n o .ok false)
        else .next (ccmRun ((truncPages s p).foldl (truncPage p.seq) s) n o .ok true)

/-! ## Enabling the CCM (R338, R353) -/

/-- CCM ops that run complete with CCM_DISABLED. -/
def ccmStop (s : State) : State :=
  { s with cores := s.cores.map (fun p =>
      (p.1, { p.2 with ccm := p.2.ccm.map (fun r => if r.finished then r else { r with status := .ccmDisabled, finished := true }) })) }

/-- The effect of a value written to CCM_SEQ_BASE (R353, R599). -/
def writeSeqBase (s : State) (value : Nat) : State :=
  let en' := bit value 0
  let m := s.mr
  if ccmEn s then
    if en' then s
    else
      let s1 := s.ccm.moves.foldl abandonMove (ccmStop s)
      { s1 with mr := { s1.mr with seqBase := wrField m.seqBase 0 0 1, ready := false },
                ccm := { s1.ccm with sweepSram := false, sweepDram := false } }
  else
    let b := wrField (wrField (wrField m.seqBase value 1 4) value 12 36) value 0 1
    let s1 := { s with mr := { m with seqBase := b, ready := if en' then false else m.ready } }
    if en' then
      let s2 := { s1 with ccm := { s1.ccm with usedSram := [], usedDram := [], usedHost := [], handSram := 0, handDram := 0,
                                               hostBad := false } }
      if sramFits s2 then s2 else raiseEvent s2 .ccmPool 0 0 (memDetail (clusterBase 0 + ccmOff s2) initCcm true)
    else s1

/-- CCM_ENABLE (R353): a write of CCM_SEQ_BASE. -/
def execCcmEnable (port : HPort) (value : BitVec 64) (s : State) : Res :=
  .next (hostSetup s port 0x040700 8 value.toNat (fun x => writeSeqBase x value.toNat))

/-- The free bits in the metadata area with every frame free (R353). -/
def freeBitmap (s : State) : Bytes :=
  let n := frameTotal s
  List.replicate (n / 8) 0xFF ++ (if n % 8 = 0 then [] else [BitVec.ofNat 8 (2 ^ (n % 8) - 1)])

/-- CCM_READY (R353): the free bitmaps are complete. -/
def execCcmReady (s : State) : Res :=
  if ccmEn s && !s.mr.ready then
    let s1 := write s .dram (ccmMeta s + 8 * frameTotal s) (freeBitmap s)
    .next { s1 with mr := { s1.mr with ready := true } }
  else .next s

end Sys2Proof.Machine
end

