-- ==== Sys2Proof/Machine/Train.lean ====
section
/-! DEFINITION. The slot-pointer table, bindings and pins, and micro-batch records
(08_training_step.md R269 to R296; 11_command_model.md R382). -/

namespace Sys2Proof.Machine

/-- The signed difference of two step numbers modulo 2^32 (R261). -/
def stepDiff (a b : Nat) : Int := sext 32 ((a % 2 ^ 32 + 2 ^ 32 - b % 2 ^ 32) % 2 ^ 32)

/-! ## The slot-pointer table (R269 to R271) -/

/-- en of TRN_SLOT_BASE. -/
def trnEn (s : State) : Bool := s.trn.slotBase.getLsbD 0

/-- The table's base and its entries. -/
def slotTab (s : State) : Nat := bits s.trn.slotBase.toNat 12 36 * 4096
/-- TRN_SLOT_BASE size: 9 to 15 act as 8. -/
def slotTabLen (s : State) : Nat := 2 ^ (10 + min (bits s.trn.slotBase.toNat 48 4) 8)

/-- The committed step. -/
def committedStep (s : State) : Nat := s.trn.committed.toNat

/-- A tensor entry (R269). -/
structure SlotEntry where
  stag0 : Nat
  stag1 : Nat
  ctag0 : Nat
  ctag1 : Nat
  pin0 : Nat
  pin1 : Nat
  contrib : Nat
  sv0 : Bool
  sv1 : Bool
  cv0 : Bool
  cv1 : Bool
  frozen : Bool
  resetStep : Nat
  /-- The whole entry where its bytes break the layout (R270). -/
  broken : Option Nat
  deriving DecidableEq, Repr

/-- The bits of a tensor entry that R269 names. -/
def slotFields : List (Nat × Nat) := [fld 0 22, fldBits 22 0 5, fld 24 4]

/-- R269. -/
def slotOf (b : Bytes) : SlotEntry :=
  { stag0 := le b 0 4, stag1 := le b 4 4, ctag0 := le b 8 4, ctag1 := le b 12 4, pin0 := le b 16 2, pin1 := le b 18 2,
    contrib := le b 20 2, sv0 := flag b 22 0, sv1 := flag b 22 1, cv0 := flag b 22 2, cv1 := flag b 22 3,
    frozen := flag b 22 4, resetStep := le b 24 4,
    broken := if reservedZero b slotFields then none else some (leNat b) }

/-- Bytes 0 to 22 of a tensor entry, over an old byte 22: frozen and the reserved bits stay as they are (R270). -/
def slotHead (e : SlotEntry) (old : Nat) : Bytes :=
  leBytes 4 e.stag0 ++ leBytes 4 e.stag1 ++ leBytes 4 e.ctag0 ++ leBytes 4 e.ctag1 ++ leBytes 2 e.pin0 ++
  leBytes 2 e.pin1 ++ leBytes 2 e.contrib ++
  [BitVec.ofNat 8 (setBits old 0 4 (b2n e.sv0 + 2 * b2n e.sv1 + 4 * b2n e.cv0 + 8 * b2n e.cv1))]

/-- The address of a tensor's entry. -/
def slotAddr (s : State) (tid : Nat) : Nat := slotTab s + 32 * tid

/-- Why a tensor_id has no entry (R271): the table is off, the id is the header's or beyond the table, or the entry
cannot be read. -/
def slotErr (s : State) (tid : Nat) : Check :=
  if !(trnEn s) || tid == 0 || decide (tid ≥ slotTabLen s) then some .slotNone
  else (read s .dram (slotAddr s tid) 32).err

/-- The entry of a tensor. -/
def getSlot (s : State) (tid : Nat) : SlotEntry := slotOf (memRead s.mem (slotAddr s tid) 32)

/-- The fields of a tensor entry that the module writes, written (R270). -/
def putSlot (s : State) (tid : Nat) (e : SlotEntry) : State :=
  let a := slotAddr s tid
  write (write s .dram a (slotHead e (memByte s.mem (a + 22)).toNat)) .dram (a + 24) (leBytes 4 e.resetStep)

/-- The current slot among two (tag, valid) pairs (R271). -/
def curOf (committed t0 t1 : Nat) (v0 v1 : Bool) : Option Nat :=
  let ok0 := v0 && decide (stepDiff t0 committed ≤ 0)
  let ok1 := v1 && decide (stepDiff t1 committed ≤ 0)
  if ok0 && (!ok1 || decide (stepDiff t1 committed ≤ stepDiff t0 committed)) then some 0
  else if ok1 then some 1 else none

/-- The current slot of a kind, among two (tag, valid) pairs of an entry. An entry that breaks the layout gives an
undefined selection (R270): a free one. -/
def curSlot (s : State) (e : SlotEntry) (copy : Bool) (t0 t1 : Nat) (v0 v1 : Bool) : Option Nat :=
  match e.broken with
  | some v => (Config.slotChoice v (committedStep s) copy).map (·.val)
  | none => curOf (committedStep s) t0 t1 v0 v1

/-- The current state slot and the current compute-copy slot (R271). -/
def curState (s : State) (e : SlotEntry) : Option Nat := curSlot s e false e.stag0 e.stag1 e.sv0 e.sv1
/-- R271. -/
def curCopy (s : State) (e : SlotEntry) : Option Nat := curSlot s e true e.ctag0 e.ctag1 e.cv0 e.cv1

/-- Pins of a compute-copy slot. -/
def pinsOf (e : SlotEntry) (i : Nat) : Nat := if i = 0 then e.pin0 else e.pin1

/-- Pins of a compute-copy slot replaced. -/
def setPins (e : SlotEntry) (i v : Nat) : SlotEntry := if i = 0 then { e with pin0 := v } else { e with pin1 := v }

/-- One pin less on a slot. -/
def unpin (s : State) (x : Nat × Nat) : State :=
  let e := getSlot s x.1
  putSlot s x.1 (setPins e x.2 (pinsOf e x.2 - 1))

/-! ## Micro-batch records (R275 to R280) -/

/-- The address of a micro-batch record. -/
def mbAddr (s : State) (mb : Nat) : Nat := bits s.trn.mbBase.toNat 14 34 * 16384 + 64 * mb

/-- A micro-batch record's bytes. -/
def mbRec (s : State) (mb : Nat) : Bytes := memRead s.mem (mbAddr s mb) 64

/-- Whether a micro-batch record can be read. -/
def mbOk (s : State) (mb : Nat) : Bool := (read s .dram (mbAddr s mb) 64).err.isNone

/-- state of a record: 0 FREE, 1 ACTIVE, 2 LATE, 3 EXCLUDED, 4 DONE; 5 to 7, and a record that cannot be read, act
as EXCLUDED. -/
def mbState (s : State) (mb : Nat) : Nat :=
  let v := bits (le (mbRec s mb) 4 1) 0 3
  if mbOk s mb = false ∨ v > 4 then 3 else v

/-- step, kind and policy of a record. -/
def mbStep (s : State) (mb : Nat) : Nat := le (mbRec s mb) 0 4
/-- EVAL. -/
def mbEval (s : State) (mb : Nat) : Bool := flag (mbRec s mb) 4 3
/-- CARRY. -/
def mbCarry (s : State) (mb : Nat) : Bool := flag (mbRec s mb) 4 4

/-- Whether a record is in flight: ACTIVE or LATE. -/
def mbLive (s : State) (mb : Nat) : Bool := mbState s mb == 1 || mbState s mb == 2

/-- state of a record written. -/
def setMbState (s : State) (mb v : Nat) : State :=
  write s .dram (mbAddr s mb + 4) [BitVec.ofNat 8 (setBits (le (mbRec s mb) 4 1) 0 3 v)]

/-- The pins that a micro-batch holds: (tensor, slot), in the order of its pin list. -/
def mbPins (s : State) (mb : Nat) : List (Nat × Nat) :=
  let r := mbRec s mb
  if mbOk s mb then
    (List.range (le r 20 4)).map (fun i => let v := memLe s (le r 8 6 + 4 * i) 4; (bits v 0 18, bits v 31 1))
  else []

/-- The pin list of a micro-batch and pins_held written. -/
def setMbPins (s : State) (mb : Nat) (ps : List (Nat × Nat)) : State :=
  let s1 := write s .dram (le (mbRec s mb) 8 6) ((ps.map (fun p => leBytes 4 (p.1 + 2 ^ 31 * p.2))).flatten)
  write s1 .dram (mbAddr s mb + 20) (leBytes 4 ps.length)

/-- Every pin of a micro-batch released and its list emptied. -/
def releaseAll (s : State) (mb : Nat) : State := setMbPins ((mbPins s mb).foldl unpin s) mb []

/-- R280: a micro-batch in flight is excluded. -/
def excludeMb (s : State) (mb : Nat) : State :=
  if mbLive s mb then
    let s1 := setMbState (releaseAll s mb) mb 3
    let s2 := write s1 .dram (mbAddr s mb + 24) (leBytes 2 (statusCode .lateExcluded))
    { s2 with trn := { s2.trn with excluded := satAdd s2.trn.excluded 1 },
              trnRun := if s2.trnRun.update.isSome then { s2.trnRun with excluded := s2.trnRun.excluded + 1 } else s2.trnRun }
  else s

/-- R276: the last phase of a micro-batch has completed with a status. -/
def doneMb (s : State) (mb : Nat) (st : Status) : State :=
  if mbLive s mb then
    let late := mbState s mb == 2
    let step := mbStep s mb
    let s1 := setMbState (releaseAll s mb) mb 4
    let s2 := write s1 .dram (mbAddr s mb + 24) (leBytes 2 (statusCode st))
    let r := s2.trnRun
    { s2 with trn := { s2.trn with carried := if late then satAdd s2.trn.carried 1 else s2.trn.carried },
              trnRun := { r with doneBy := smSet 0 r.doneBy step (smGet 0 r.doneBy step + 1) } }
  else s

/-- R277: an ACTIVE TRAIN micro-batch becomes LATE; under the policy DROP it is excluded at once. -/
def lateMb (s : State) (mb : Nat) (useDefault : Bool) : State :=
  if mbState s mb == 1 && !(mbEval s mb) then
    let carry := if useDefault then s.trn.stepCfg.getLsbD 24 else mbCarry s mb
    let s1 := setMbState s mb 2
    if carry then s1 else excludeMb s1 mb
  else s

/-- The start of the update phase of a step (R277, R278). -/
def updateBegins (s : State) (step : Nat) (useDefault : Bool) : State :=
  let r := s.trnRun
  let s0 := { s with trnRun := { r with update := some step, doneMb := smGet 0 r.doneBy step, excluded := 0, combined := none } }
  (List.range 256).foldl (fun a mb =>
    if mbLive a mb && decide (stepDiff (mbStep a mb) step ≤ -2) && !(mbPins a mb).isEmpty then excludeMb a mb
    else if mbStep a mb = step then lateMb a mb useDefault
    else a) s0

/-! ## Bindings (R272 to R274, R281, R382) -/

/-- A binding record (R382). -/
structure Binding where
  tensor : Nat
  kind : Nat
  pin : Nat
  count : Bool
  patch : Bool
  delta : Nat
  target : Nat
  base0 : Nat
  base1 : Nat
  deriving DecidableEq, Repr

/-- R382. -/
def bindingOf (b : Bytes) : Binding :=
  { tensor := bits (le b 0 4) 0 18, kind := bits (le b 0 4) 18 2, pin := bits (le b 0 4) 20 2, count := flag b 2 6,
    patch := flag b 2 7, delta := le b 4 4, target := le b 8 6, base0 := le b 16 6, base1 := le b 24 6 }

/-- The fields of a binding record. -/
def bindingFields : List (Nat × Nat) := [fldBits 0 0 24, fld 4 4, fld 8 6, fld 16 6, fld 24 6]

/-- The conditions of R378 and R382 on one binding of a phase with or without a micro-batch. -/
def bindingBad (b : Binding) (mb : Bool) : Bool :=
  b.kind == 3 || b.pin == 3 || (b.pin != 0 && b.kind != 0) || (b.count && b.kind != 2) ||
  (!mb && (b.pin != 0 || b.kind == 2)) || b.target % 2 != 0

/-- Address of the variant bank's record `v` (R295). -/
def bankAddr (s : State) (v : Nat) : Nat := bits s.trn.bankBase.toNat 17 31 * 2 ^ 17 + 32 * v

/-- Whether R296 rejects a variant by its record: it is not valid, its train bit is 0, or en of TRN_BANK_BASE is 0. -/
def variantOut (s : State) (b : Bytes) : Bool := !(s.trn.bankBase.getLsbD 0) || !(flag b 7 0) || !(flag b 7 2)

/-- Whether a tensor is one of a variant that R296 rejects. Records of the bank read as poisoned are not interpreted
(R627). -/
def variantBars (s : State) (tid : Nat) : Bool :=
  (List.range 4096).any (fun v =>
    let b := memRead s.mem (bankAddr s v) 8
    let t0 := bits (le b 0 4) 0 18
    decide (t0 ≤ tid ∧ tid < t0 + 2 * le b 4 2) && (read s .dram (bankAddr s v) 32).err.isNone && variantOut s b)

/-- Bindings under resolution: the slots taken, the pins to add, the micro-batch's list, and a failure. -/
structure Resolve where
  slots : List Nat
  mbAdd : List (Nat × Nat)
  held : List (Nat × Nat)
  phase : List (Nat × Nat)
  err : Option Status
  deriving DecidableEq, Repr

/-- The resolution of one binding (R271 to R274). -/
def resolveOne (s : State) (r : Resolve) (b : Binding) : Resolve :=
  if r.err.isSome then r
  else match slotErr s b.tensor with
    | some e => { r with err := some e }
    | none =>
      let e := getSlot s b.tensor
      match b.kind with
      | 2 => { r with slots := r.slots ++ [0] }
      | 1 =>
        match curState s e with
        | none => { r with err := some .slotNone }
        | some i => { r with slots := r.slots ++ [i] }
      | _ =>
        let pinned := r.held.find? (fun p => p.1 == b.tensor)
        let pick := match pinned with | some p => some p.2 | none => curCopy s e
        match pick with
        | none => { r with err := some .slotNone }
        | some i =>
          let acq := b.pin == 1 && pinned.isNone
          { r with slots := r.slots ++ [i],
                   mbAdd := if acq then r.mbAdd ++ [(b.tensor, i)] else r.mbAdd,
                   held := if acq then r.held ++ [(b.tensor, i)] else r.held,
                   phase := if r.phase.contains (b.tensor, i) then r.phase else r.phase ++ [(b.tensor, i)] }

/-- The resolution of a phase's bindings, before any effect (R273, R274, R378). -/
def resolveBinds (s : State) (bs : List Binding) (mb : Option Nat) : Resolve :=
  let held := match mb with | some m => mbPins s m | none => []
  let r := bs.foldl (resolveOne s) { slots := [], mbAdd := [], held, phase := [], err := none }
  if r.err.isSome then r
  else
    let adds := r.mbAdd ++ r.phase
    let tooMany := adds.any (fun x => decide (pinsOf (getSlot s x.1) x.2 + (adds.filter (· == x)).length > 65535))
    let full := match mb with
      | some m => !r.mbAdd.isEmpty && decide (r.held.length > le (mbRec s m) 16 4)
      | none => false
    if tooMany || full then { r with err := some .badField } else r

/-- One pin more on a slot. -/
def addPin (s : State) (x : Nat × Nat) : State :=
  let e := getSlot s x.1
  putSlot s x.1 (setPins e x.2 (pinsOf e x.2 + 1))

/-- The pins of a resolution take effect. -/
def takePins (s : State) (r : Resolve) (mb : Option Nat) : State :=
  let s1 := (r.mbAdd ++ r.phase).foldl addPin s
  match mb with
  | some m => if r.mbAdd.isEmpty then s1 else setMbPins s1 m r.held
  | none => s1

/-- The address that a binding resolves to (R382). -/
def bindBase (b : Binding) (slot : Nat) : Nat := if b.kind != 2 && slot == 1 then b.base1 else b.base0

/-- The patch of a binding (R382). -/
def patchBind (s : State) (x : Binding × Nat) : State :=
  if x.1.patch then write s .dma x.1.target (leBytes 6 (bindBase x.1 x.2 + x.1.delta)) else s

/-- The state with TRN_SLOT_BASE, TRN_MB_BASE and TRN_STEP_CFG as a phase found them at its start. -/
def underPhase (ph : PhaseRun) (s : State) : State :=
  { s with trn := { s.trn with slotBase := ph.trnSlot, mbBase := ph.trnMb, stepCfg := ph.trnStep } }

/-- A step that reads those registers as the phase found them. -/
def withTrn (ph : PhaseRun) (f : State → State) (s : State) : State :=
  let s1 := f (underPhase ph s)
  { s1 with trn := { s1.trn with slotBase := s.trn.slotBase, mbBase := s.trn.mbBase, stepCfg := s.trn.stepCfg } }

/-- A contribution of a LATE micro-batch of step s has landed in step s + 1 (R277, R286). -/
def noteCarried (s : State) (m : Nat) : State :=
  let r := s.trnRun
  let k := (mbStep s m + 1) % 2 ^ 32
  let l := smGet [] r.carriedBy k
  { s with trnRun := { r with carriedBy := smSet [] r.carriedBy k (if l.contains m then l else l ++ [m]) } }

/-- One binding at the end of its phase: RELEASE and the contribution count (R274, R281). A GRAD binding of a phase that
started LATE has carried its contribution. -/
def endBind (mb : Option Nat) (late : Bool) (s : State) (b : Binding) : State :=
  match mb with
  | none => s
  | some m =>
    if b.kind = 0 ∧ b.pin = 2 then
      let mine := (mbPins s m).filter (fun p => p.1 == b.tensor)
      if mine.isEmpty then s
      else setMbPins (mine.foldl unpin s) m ((mbPins s m).filter (fun p => p.1 != b.tensor))
    else if b.kind = 2 then
      let e := getSlot s b.tensor
      let s1 := if b.count then putSlot s b.tensor { e with contrib := satAddNat 16 e.contrib 1 } else s
      if late then noteCarried s1 m else s1
    else s

/-- The pins and counts of a phase that completes (R273, R274, R281). -/
def endPhaseBinds (ph : PhaseRun) (s : State) : State :=
  let mb := if flag ph.record 0 1 then some (le ph.record 4 1) else none
  withTrn ph (fun x => ph.pins.foldl unpin ((ph.binds.map bindingOf).foldl (endBind mb ph.late) x)) s

/-- Whether a GRAD phase of a LATE micro-batch is held (R277): reset_step of a tensor it adds to has not reached the
micro-batch's step. -/
def gradHeld (s : State) (bs : List Binding) (mb : Option Nat) : Bool :=
  match mb with
  | none => false
  | some m =>
    mbState s m == 2 && bs.any (fun b => b.kind == 2 && (slotErr s b.tensor).isNone &&
      decide (stepDiff (getSlot s b.tensor).resetStep (mbStep s m) < 0))

/-! ## TRN_SLOT_BASE, flip and rollback (R269, R287 to R290) -/

/-- The effect of a value written to TRN_SLOT_BASE: with en = 1 the committed step is loaded from the header. -/
def writeSlotBase (s : State) (value : Nat) : State :=
  let b := wrField (wrField (wrField s.trn.slotBase value 0 1) value 12 36) value 48 4
  let s1 := { s with trn := { s.trn with slotBase := b } }
  if bit value 0 then
    let r := read s1 .dram (slotTab s1) 4
    match r.err with
    | some _ => s1
    | none => { s1 with trn := { s1.trn with committed := BitVec.ofNat 32 (leNat r.data) } }
  else s1

/-- SLOT_TABLE_ENABLE (R269): a write of TRN_SLOT_BASE. -/
def execSlotTableEnable (port : HPort) (value : BitVec 64) (s : State) : Res :=
  .next (hostSetup s port 0x040400 8 value.toNat (fun x => writeSlotBase x value.toNat))

/-- Whether the I/O list of a phase record holds an MUU_UPDATE op (R301); a descriptor that cannot be read is none (R627). -/
def recUpdates (s : State) (r : Bytes) : Bool :=
  (List.range (recIoCount r)).any (fun i =>
    let rd := read s .dram (recIoList r + 64 * i) 64
    rd.err.isNone && byteAt rd.data 0 == 0x28)

/-- Whether an update phase is running (R287): a pass in progress, or a running phase whose I/O list holds an MUU_UPDATE
op, one that has already ended included. -/
def updateRuns (s : State) : Bool :=
  s.muuRun.isSome || s.cmd.streams.any (fun p => p.2.running.any (fun ph => recUpdates s ph.record))

/-- MERIDIAN_FLIP to step `v` (R287, R288): the status and the state. -/
def doFlip (s : State) (v : Nat) : State × Status :=
  if !(trnEn s) || updateRuns s then (s, .badField)
  else
    let d := stepDiff v (committedStep s)
    if d = 0 then (s, .ok)
    else if d < 0 ∨ d ≥ 2 ^ 31 then (s, .badField)
    else
      let a := slotTab s
      let rd := read s .dram a 8
      match rd.err with
      | some e => (s, e)
      | none =>
        let s1 := write s .dram a (leBytes 4 v ++ leBytes 4 (satAddNat 32 (le rd.data 4 4) 1))
        ({ s1 with trn := { s1.trn with committed := BitVec.ofNat 32 v, flips := satAdd s1.trn.flips 1 } }, .ok)

end Sys2Proof.Machine
end

