-- ==== Sys2Proof/Machine/Muu.lean ====
section
/-! DEFINITION. The Meridian Update Units: norms, the combine, the update and the gradient reset
(09_meridian_update_unit.md R298 to R322). -/

namespace Sys2Proof.Machine

/-! ## Records (R299 to R302) -/

/-- The MUU_UPDATE body (R301). -/
structure MuuParm where
  recBase : Nat
  count : Nat
  pass : Nat
  rank : Nat
  members : Nat
  ng : Nat
  consts : Nat
  report : Nat
  deriving DecidableEq, Repr

/-- R301. -/
def muuParm (d : Bytes) : MuuParm :=
  { recBase := le d 8 6, count := bits (le d 16 4) 0 20 + 1, pass := bits (le d 20 1) 0 2, rank := le d 22 2,
    members := le d 24 2 + 1, ng := le d 32 6, consts := le d 40 6, report := le d 48 6 }

/-- The fields of the MUU_UPDATE descriptor. -/
def muuFields : List (Nat × Nat) :=
  hdrFields ++ [fld 8 6, fldBits 16 0 20, fldBits 20 0 2, fld 22 2, fld 24 2, fld 32 6, fld 40 6, fld 48 6]

/-- An MUU record (R300). -/
structure MuuRec where
  tensor : Nat
  rows : Nat
  cols : Nat
  rot : Nat
  owner : Bool
  noDiv : Bool
  cs : Bool
  clipEn : Bool
  trustEn : Bool
  rotId : Nat
  rotEpoch : Nat
  clip : Nat
  trust : Nat
  lr : Nat
  wd : Nat
  state0 : Nat
  state1 : Nat
  cc0 : Nat
  cc1 : Nat
  grad : Nat
  cfac : Nat
  tau : Nat
  nUsed : Nat
  tflags : Nat
  deriving DecidableEq, Repr

/-- R300. -/
def muuRec (b : Bytes) : MuuRec :=
  { tensor := bits (le b 0 4) 0 18, rows := bits (le b 4 4) 0 24 + 1, cols := le b 8 2 + 1, rot := bits (le b 10 2) 0 4,
    owner := flag b 10 4, noDiv := flag b 10 5, cs := flag b 10 6, clipEn := flag b 10 7, trustEn := flag b 11 0,
    rotId := le b 12 4, rotEpoch := bits (le b 16 4) 0 24, clip := le b 20 4, trust := le b 24 4, lr := le b 28 4,
    wd := le b 32 4, state0 := le b 40 6, state1 := le b 48 6, cc0 := le b 56 6, cc1 := le b 64 6, grad := le b 72 6,
    cfac := le b 112 4, tau := le b 116 4, nUsed := le b 120 2, tflags := le b 124 1 }

/-- The fields that the host library writes, and bytes 96 to 127, which the MUUs write. -/
def muuRecFields : List (Nat × Nat) :=
  [fldBits 0 0 18, fldBits 4 0 24, fldBits 8 0 25, fld 12 4, fldBits 16 0 24, fld 20 4, fld 24 4, fld 28 4, fld 32 4,
   fld 40 6, fld 48 6, fld 56 6, fld 64 6, fld 72 6, fld 96 32]

/-- The region layout of R299. -/
structure MuuGeom where
  dr : Nat
  nb : Nat
  nbr : Nat
  pm : Nat
  pe : Nat
  ps : Nat
  pce : Nat
  pcs : Nat
  pcx : Nat
  stateLen : Nat
  gradLen : Nat
  copyLen : Nat
  deriving DecidableEq, Repr

/-- R299. -/
def muuGeom (r : MuuRec) : MuuGeom :=
  let dr := if r.rot = 0 then r.cols else roundUp r.cols (2 ^ r.rot)
  let nb := cdiv r.cols 32
  let nbr := cdiv dr 32
  let pm := roundUp (2 * r.cols) 64
  let pe := roundUp r.cols 64
  let ps := roundUp nb 64
  let pce := cdiv dr 128 * 64
  let pcs := roundUp nbr 64
  let pcx := roundUp (4 * r.rows) 64
  { dr, nb, nbr, pm, pe, ps, pce, pcs, pcx, stateLen := r.rows * (pm + pe + ps), gradLen := r.rows * (pe + ps),
    copyLen := r.rows * (pce + pcs) + (if r.cs then nbr * pcx else 0) }

/-- The step constants (R302). -/
structure MuuConst where
  eta : Nat
  beta1 : Nat
  beta2 : Nat
  lambda : Nat
  tauLo : Nat
  tauHi : Nat
  skip : Nat
  deriving DecidableEq, Repr

/-- R302. -/
def muuConst (b : Bytes) : MuuConst :=
  { eta := le b 0 4, beta1 := le b 4 4, beta2 := le b 8 4, lambda := le b 12 4, tauLo := le b 16 4, tauHi := le b 20 4,
    skip := le b 24 4 }

/-- binary32 1.0. -/
def one32 : Nat := 0x3F800000

/-- Whether the constants meet their conditions (R302). -/
def constBad (k : MuuConst) : Bool :=
  !(nonNegFinite k.eta) || !(nonNegFinite k.beta1) || ffLt f32F one32 k.beta1 || !(nonNegFinite k.beta2) ||
  ffLt f32F one32 k.beta2 || !(nonNegFinite k.lambda) || !(posFinite k.tauLo) || !(posFinite k.tauHi) ||
  ffLt f32F k.tauHi k.tauLo || ffIsNan f32F k.skip || !(ffLt f32F 0 k.skip)

/-- Whether a record breaks a condition of R300 or R303. -/
def recBad (s : State) (r : MuuRec) : Bool :=
  let g := muuGeom r
  let bad := fun (a len : Nat) => a % 64 != 0 || !(canAccess s .dram a len)
  (decide (r.rot ≥ 1 ∧ r.rot ≤ 3)) || decide (r.rot > 10) || !(trnEn s) || r.tensor == 0 ||
  decide (r.tensor ≥ slotTabLen s) ||
  (r.clipEn && !(posFinite r.clip)) || !(nonNegFinite r.trust) || !(nonNegFinite r.lr) || !(nonNegFinite r.wd) ||
  bad r.state0 g.stateLen || bad r.state1 g.stateLen || bad r.cc0 g.copyLen || bad r.cc1 g.copyLen || bad r.grad g.gradLen

/-- Record `i` of the op's list. -/
def recAt (s : State) (p : MuuParm) (i : Nat) : Bytes := memRead s.mem (p.recBase + 128 * i) 128

/-- The check of an MUU_UPDATE op before any effect (R303, R390, R627). -/
def muuCheck (s : State) (t : Token) (d : Bytes) : Check :=
  let p := muuParm d
  let list := read s .dram p.recBase (128 * p.count)
  let ks := read s .dram p.consts 64
  let outside := fun (e : Option Status) => e == some .addrError
  firstFail
    [failIf (!(s.muu.passCfg.getLsbD 0)) .badField,
     failIf (!(reservedZero d muuFields)) .badReserved,
     failIf (!(ctrCheck s t.stream (opHdr d))) .badField,
     failIf (p.pass == 0 || decide (p.rank ≥ p.members) || p.recBase % 128 != 0 || p.ng % 64 != 0 ||
       p.consts % 64 != 0 || p.report % 64 != 0) .badField,
     failIf (p.pass == 3 && s.trnRun.combined != some (t.step % 2 ^ 32)) .badField,
     failIf s.muuRun.isSome .badField,
     failIf (outside list.err || outside ks.err || !(canAccess s .dram p.ng (128 * p.members)) ||
       !(canAccess s .dram p.report 64)) .badField,
     list.err, ks.err,
     failIf (!(reservedZero ks.data [fld 0 28])) .badReserved,
     failIf (constBad (muuConst ks.data)) .badField,
     firstFail ((List.range p.count).map (fun i =>
       let b := recAt s p i
       if !(reservedZero b muuRecFields) then some .badReserved
       else if recBad s (muuRec b) then some .badField else none))]

/-! ## Reading a tensor (R306, R307) -/

/-- The state slot and the copy slot of a record. -/
def stateBase (r : MuuRec) (i : Nat) : Nat := if i = 0 then r.state0 else r.state1
/-- R300. -/
def copyBase (r : MuuRec) (i : Nat) : Nat := if i = 0 then r.cc0 else r.cc1

/-- Elements of one row of an MXFP8 part, widened (R77). -/
def mxRow (m : Mem) (fmt elems scales n : Nat) : List Nat :=
  (List.range n).map (fun c => widen fmt 0 (memByte m (elems + c)).toNat (memByte m (scales + c / 32)).toNat 0)

/-- One row of the gradient as R306 forms it with divisor `n`. -/
def gradRow (m : Mem) (r : MuuRec) (n row : Nat) : List Nat :=
  let g := muuGeom r
  let dv := (ffOfInt f32F n 0).code
  (mxRow m 6 (r.grad + row * g.pe) (r.grad + r.rows * g.pe + row * g.ps) r.cols).map (fun x =>
    if n > 1 then (ffDiv f32F x dv).code else x)

/-- One row of the master in a state slot, widened. -/
def masterRow (m : Mem) (r : MuuRec) (base row : Nat) : List Nat :=
  let g := muuGeom r
  (List.range r.cols).map (fun c => bf16To32 (leNat (memRead m (base + row * g.pm + 2 * c) 2)))

/-- One row of the momentum in a state slot, widened. -/
def momentumRow (m : Mem) (r : MuuRec) (base row : Nat) : List Nat :=
  let g := muuGeom r
  mxRow m 5 (base + r.rows * g.pm + row * g.pe) (base + r.rows * (g.pm + g.pe) + row * g.ps) r.cols

/-- Whether any byte that a tensor's rows hold in a part is poisoned. -/
def partPoison (m : Mem) (rows base len pitch : Nat) : Bool :=
  (List.range rows).any (fun i => spanPoison m (base + i * pitch) len)

/-- Poison in the gradient state. -/
def gradPoison (m : Mem) (r : MuuRec) : Bool :=
  let g := muuGeom r
  partPoison m r.rows r.grad r.cols g.pe || partPoison m r.rows (r.grad + r.rows * g.pe) g.nb g.ps

/-- Poison in the master of a slot. -/
def masterPoison (m : Mem) (r : MuuRec) (base : Nat) : Bool := partPoison m r.rows base (2 * r.cols) (muuGeom r).pm

/-- Poison in the momentum of a slot. -/
def momentumPoison (m : Mem) (r : MuuRec) (base : Nat) : Bool :=
  let g := muuGeom r
  partPoison m r.rows (base + r.rows * g.pm) r.cols g.pe ||
  partPoison m r.rows (base + r.rows * (g.pm + g.pe)) g.nb g.ps

/-- The address of the first poisoned line that a tensor's update reads: gradient state, master, and momentum with `mom`; 0
where there is none. -/
def tensorBad (m : Mem) (r : MuuRec) (base : Nat) (mom : Bool) : Nat :=
  let g := muuGeom r
  let bad := fun (at_ len pitch : Nat) => (List.range r.rows).flatMap (fun i => (linesOf (at_ + i * pitch) len).filter (linePoison m))
  (bad r.grad r.cols g.pe ++ bad (r.grad + r.rows * g.pe) g.nb g.ps ++ bad base (2 * r.cols) g.pm ++
    (if mom then bad (base + r.rows * g.pm) r.cols g.pe ++ bad (base + r.rows * (g.pm + g.pe)) g.nb g.ps else [])).headD 0

/-- The reads of a tensor's gradient state and of its state slot meet the errors of DRAM (R329). -/
def demandTensor (s : State) (r : MuuRec) (base : Nat) : State :=
  let g := muuGeom r
  demandRead (demandRead s r.grad g.gradLen) base g.stateLen

/-- The exact square of a binary32 value in units of 2^-300; none for a NaN or an infinity (R307, R308). -/
def squareUnits (x : Nat) : Option Nat :=
  match ffDecode f32F x with
  | .fin _ m e => some ((m * m) <<< (2 * e + 300).toNat)
  | _ => none

/-- An exact sum of squares; none once a value is not finite. -/
def sumSquares (xs : List Nat) (acc : Option Nat) : Option Nat :=
  xs.foldl (fun a x => match a, squareUnits x with | some u, some v => some (u + v) | _, _ => none) acc

/-- A sum of squares in units of 2^-300, rounded once to binary64 (R307). -/
def sumTo64 (u : Nat) : Nat := (ffFin f64F false u (-300)).code

/-- The binary32 square root of a binary64 code, correctly rounded (R309). -/
def root64 (x : Nat) : Nat :=
  match ffDecode f64F x with
  | .fin _ m e => if m = 0 then 0 else let r := sqrtApprox m e 40; (ffFin f32F false r.1 r.2.1 r.2.2).code
  | .inf _ => ffInf f32F false
  | .nan => ffNan f32F

/-- The clip factor and the trust factor (R309). -/
def muuFactors (r : MuuRec) (k : MuuConst) (gsq wsq : Nat) : Nat × Nat :=
  let gn := root64 gsq
  let c := if r.clipEn && ffLt f32F r.clip gn then (ffDiv f32F r.clip gn).code else one32
  let tau :=
    if r.trustEn then
      let q := (ffDiv f64F wsq (ffOfInt f64F (r.rows * r.cols : Nat) 0).code).code
      let x := (ffMul f32F r.trust (root64 q)).code
      let x := if ffLt f32F x k.tauLo then k.tauLo else x
      if ffLt f32F k.tauHi x then k.tauHi else x
    else one32
  (c, tau)

/-! ## Bookkeeping of a pass -/

/-- The bytes of a record from an offset written. -/
def putRec (s : State) (p : MuuParm) (i off : Nat) (b : Bytes) : State := write s .dram (p.recBase + 128 * i + off) b

/-- tstatus and tflags written, and done counted. -/
def markRec (s : State) (p : MuuParm) (i : Nat) (st : Status) (flags : Nat) : State :=
  let s1 := putRec s p i 122 (leBytes 2 (statusCode st) ++ leBytes 4 flags)
  { s1 with muu := { s1.muu with done := satAdd s1.muu.done 1 } }

/-- A tensor failed: counted, and its event (R321), whose detail is the address of the access for a status of the memory and
protection class (R588). -/
def tensorFail (s : State) (tid step at_ : Nat) (st : Status) : State :=
  raiseEvent { s with muu := { s.muu with failed := satAdd s.muu.failed 1 } } st 7 tid
    (if statusCode st / 256 = 3 then memDetail at_ 7 false else leBytes 4 tid ++ leBytes 4 step)

/-- Whether a list names a tensor twice: the results for it are then undefined (R303). -/
def listedTwice (s : State) (p : MuuParm) (tid : Nat) : Bool :=
  decide (1 < ((List.range p.count).filter (fun j => (muuRec (recAt s p j)).tensor == tid)).length)

/-- An undefined sum of squares of 640 bits, or an undefined non-finite one: free values `n` to `n + 10`. -/
def openSum (n : Nat) : Option Nat :=
  if (Config.freeValue n).getLsbD 0 then none
  else some (leNat (((List.range 10).map (fun i => leBytes 8 (Config.freeValue (n + 1 + i)).toNat)).flatten))

/-- Undefined new values of a tensor's rows: free values from `n` on. -/
def openRows (n rows cols : Nat) : List (List (Nat × Nat)) :=
  (List.range rows).map (fun row => (List.range cols).map (fun c =>
    let v := (Config.freeValue (n + row * cols + c)).toNat
    (v % 2 ^ 32, v / 2 ^ 32)))

/-- The state after `k` free values are drawn where `b` holds. -/
def drawIf (b : Bool) (k : Nat) (s : State) : State := if b then { s with freeCount := s.freeCount + k } else s

/-- A pass ends: the MUUs are free and the op's work has ended with a status. -/
def endPass (s : State) (r : MuuRun) (st : Status) : State :=
  let s1 := { s with muuRun := none, muu := { s.muu with pass := 0, status := BitVec.ofNat 16 (statusCode st) } }
  endIo s1 r.stream r.phase r.idx st

/-- Whether a running phase holds a GRAD binding on a tensor (R305). -/
def gradBusy (s : State) (tid : Nat) : Bool :=
  s.cmd.streams.any (fun x => x.2.running.any (fun ph => ph.binds.any (fun b =>
    (bindingOf b).kind == 2 && (bindingOf b).tensor == tid)))

/-- The next MUU_UPDATE op of an I/O list that asks for one of the passes given. While the MUUs run another one, of this list
or of any other, it is taken too, and R303 rejects it. -/
def muuNext (s : State) (id p : Nat) (passes : List Nat) : Option NextOp :=
  (startableIo s id p 0x28).filter (fun o => passes.contains (muuParm o.desc).pass)

/-- A step in which the passes of a phase read the registers of chapter 08 as the phase found them. -/
def withPhase (id p : Nat) (f : State → State) (s : State) : State :=
  match getPhase s id p with
  | some ph => withTrn ph f s
  | none => f s

/-- The check of an MUU_UPDATE op under the registers of its phase. -/
def muuCheckAt (s : State) (id p : Nat) (o : NextOp) : Check :=
  match getPhase s id p with
  | some ph => muuCheck (underPhase ph s) o.tok o.desc
  | none => muuCheck s o.tok o.desc

/-- The step entry of a phase. -/
def phaseStep (s : State) (id p : Nat) : Bytes :=
  match getStream s id, getPhase s id p with
  | some r, some ph => r.steps.getD ph.stepIdx []
  | _, _ => []

/-- The start of a pass: the op is in flight and the MUUs are taken. -/
def startPass (s : State) (id p : Nat) (o : NextOp) : State :=
  let q := muuParm o.desc
  let e := phaseStep s id p
  let us := if le e 24 3 = 0 then bits s.trn.stepCfg.toNat 0 24 else le e 24 3
  let run : MuuRun :=
    { stream := id, phase := p, idx := o.idx, desc := o.desc, pass := q.pass, seed := o.tok.seed, rotSeed := o.tok.rotSeed,
      step := o.tok.step % 2 ^ 32, deadline := 1000 * max us 1,
      todo := List.range q.count, deferred := [], clock := none,
      expired := false, deferrals := 0, lastWrite := 0, updated := 0, failed := 0, acc := 0, nonfinite := false, fail := none,
      halt := none, haltAt := 0 }
  let s1 := startIo s id p o
  { s1 with muuRun := some run, muu := { s1.muu with pass := BitVec.ofNat 2 q.pass, done := 0 } }

/-! ## Pass one (R305 to R310) -/

/-- Pass one on one tensor: the state and the run. A frozen one is passed over even after a failure (R304). -/
def passOneTensor (x : State × MuuRun) (i : Nat) : State × MuuRun :=
  let s := x.1
  let r := x.2
  let p := muuParm r.desc
  let q := muuRec (recAt s p i)
  let e := getSlot s q.tensor
  let failed := fun (s : State) (at_ : Nat) (st : Status) =>
    (tensorFail (markRec s p i st 8) q.tensor r.step at_ st, { r with todo := r.todo.filter (· != i), fail := some st })
  if (slotErr s q.tensor).isNone && e.frozen then (markRec s p i .ok 16, { r with todo := r.todo.filter (· != i) })
  else if r.fail.isSome then (s, { r with todo := r.todo.filter (· != i) })
  else if gradBusy s q.tensor then (s, r)
  else
    match slotErr s q.tensor with
    | some st => failed s (slotAddr s q.tensor) st
    | none =>
        match curState s e with
        | none => failed s (slotAddr s q.tensor) .slotNone
        | some c =>
          let base := stateBase q c
          let s := demandTensor s q base
          if gradPoison s.mem q || masterPoison s.mem q base then failed s (tensorBad s.mem q base false) .poisoned
          else
            let n := if q.noDiv then 1 else max e.contrib 1
            let twice := listedTwice s p q.tensor
            let gs := if twice then openSum s.freeCount else
              (List.range q.rows).foldl (fun a row => sumSquares (gradRow s.mem q n row) a) (some 0)
            let ws := if twice then openSum (s.freeCount + 11) else
              (List.range q.rows).foldl (fun a row => sumSquares (masterRow s.mem q base row) a) (some 0)
            let g64 := match gs with | some u => sumTo64 u | none => ffNan f64F
            let w64 := match ws with | some u => sumTo64 u | none => ffNan f64F
            let nf := gs.isNone || ws.isNone
            let k := muuConst (memRead s.mem p.consts 64)
            let ft := if nf then (ffNan f32F, ffNan f32F) else muuFactors q k g64 w64
            let s1 := putRec (drawIf twice 22 s) p i 96 (leBytes 8 g64 ++ leBytes 8 w64 ++ leBytes 4 ft.1 ++ leBytes 4 ft.2 ++ leBytes 2 n)
            (markRec s1 p i .ok (b2n nf),
             { r with todo := r.todo.filter (· != i), nonfinite := r.nonfinite || nf,
                      acc := if q.owner then r.acc + gs.getD 0 else r.acc })

/-- The member's norm entry (R310). -/
def normEntry (r : MuuRun) : Bytes :=
  leBytes 80 r.acc ++ [BitVec.ofNat 8 (1 + 2 * b2n r.nonfinite + 4 * b2n r.fail.isSome), 0] ++
  leBytes 2 (statusCode (r.fail.getD .ok)) ++ leBytes 4 r.step ++ zeroBytes 40

/-- Pass one goes on with every tensor that it may start, and ends when none is left. -/
def passOneGo (s : State) : State :=
  match s.muuRun with
  | none => s
  | some r0 =>
    let x := r0.todo.foldl passOneTensor (s, r0)
    let r := if x.2.fail.isSome then { x.2 with todo := [] } else x.2
    if r.todo.isEmpty then
      let p := muuParm r.desc
      endPass (write x.1 .dram (p.ng + 128 * p.rank) (normEntry r)) r (r.fail.getD .ok)
    else { x.1 with muuRun := some r }

/-- MUU_PASS_ONE (R305 to R310). A pass that waits for GRAD bindings goes on with the next of these commands. -/
def execMuuPassOne (loc : OpLoc) (s : State) : Res :=
  match loc with
  | .core _ => .next s
  | .io sid ph =>
    let id := sid.toNat
    let p := ph.toNat
    match muuNext s id p [0, 1] with
    | some o =>
      (match muuCheckAt s id p o with
       | some st => .next (rejectIo s id p o st)
       | none =>
         let q := muuParm o.desc
         let late := flag (phaseStep s id p) 27 0
         .next (withPhase id p (fun a =>
           let s1 := startPass a id p o
           let s2 := updateBegins s1 (o.tok.step % 2 ^ 32) late
           passOneGo { s2 with muu := { s2.muu with
             listBase := wrField s2.muu.listBase q.recBase 7 41, listCount := wrField s2.muu.listCount q.count 0 21 } }) s))
    | none =>
      if s.muuRun.any (fun r => r.stream == id && r.phase == p && r.pass == 1) then .next (withPhase id p passOneGo s)
      else .next s

/-! ## Combine (R311) -/

/-- The outcome of a combine: a status that ends it, with decision 0, or the norm and the decision (1 UPDATE,
2 SKIP_NONFINITE, 3 SKIP_NORM). -/
def combineOf (s : State) (p : MuuParm) (step skip : Nat) : Status × Nat × Nat :=
  let es := (List.range p.members).map (fun i => (memRead s.mem (p.ng + 128 * i) 128, spanPoison s.mem (p.ng + 128 * i) 128))
  let bad := es.findSome? (fun e =>
    if e.2 then some .poisoned
    else if !(flag e.1 80 0) || le e.1 84 4 != step then some .mismatch
    else if flag e.1 80 2 then some ((statusOf (le e.1 82 2)).getD .mismatch)
    else none)
  match bad with
  | some st => (st, 0, 0)
  | none =>
    let total := (es.map (fun e => leNat (e.1.take 80))).foldl (· + ·) 0
    let gnorm := root64 (sumTo64 total)
    let nf := es.any (fun e => flag e.1 80 1)
    (.ok, gnorm, if nf || !(ffIsFin f32F gnorm) then 2 else if ffLt f32F skip gnorm then 3 else 1)

/-- The registers after a combine that has decided (R311). -/
def combined (s : State) (step : Nat) (c : Status × Nat × Nat) : State :=
  { s with
    muu := { s.muu with step := BitVec.ofNat 32 step, gnorm := BitVec.ofNat 32 c.2.1, decision := BitVec.ofNat 2 c.2.2,
                        status := BitVec.ofNat 16 (statusCode .ok), done := 0 }
    trnRun := { s.trnRun with combined := some step } }

/-- MUU_COMBINE (R311). One that condition 1 or 2 ends writes neither MUU_STEP nor MUU_STATUS. -/
def execMuuCombine (loc : OpLoc) (s : State) : Res :=
  match loc with
  | .core _ => .next s
  | .io sid ph =>
    let id := sid.toNat
    let p := ph.toNat
    match muuNext s id p [2] with
    | none => .next s
    | some o =>
      match muuCheckAt s id p o with
      | some st => .next (rejectIo s id p o st)
      | none =>
        let q := muuParm o.desc
        let step := o.tok.step % 2 ^ 32
        let c := combineOf s q step (muuConst (memRead s.mem q.consts 64)).skip
        let s1 := startIo s id p o
        .next (endIo (if c.2.2 ≠ 0 then combined s1 step c else s1) id p o.idx c.1)

/-! ## Pass two (R312 to R318) -/

/-- Zeros in a gradient state: elements 0x00, scales 0x7F (R317). -/
def zeroGrad (s : State) (r : MuuRec) : State :=
  let g := muuGeom r
  (List.range r.rows).foldl (fun a row =>
    write (write a .dram (r.grad + row * g.pe) (zeroBytes r.cols)) .dram (r.grad + r.rows * g.pe + row * g.ps)
      (List.replicate g.nb 0x7F)) s

/-- The gradient reset (R283, R317). -/
def gradReset (s : State) (r : MuuRec) (step : Nat) : State :=
  let s1 := zeroGrad s r
  putSlot s1 r.tensor { getSlot s1 r.tensor with contrib := 0, resetStep := step }

/-- The new master and momentum of one element in binary32 (R314). -/
def updateElem (k : MuuConst) (r : MuuRec) (w m g0 : Nat) : Nat × Nat :=
  let c := fun (x : FRes) => x.code
  let g := c (ffMul f32F g0 r.cfac)
  let a := c (ffMul f32F (c (ffSub f32F one32 k.beta1)) g)
  let v := c (ffFma f32F k.beta1 m a)
  let u := if ffIsNan f32F v then ffNan f32F
    else if magCode v = 0 then 0
    else if bit v 31 then 0xBF800000 else one32
  let dec := c (ffMul f32F (c (ffMul f32F k.eta k.lambda)) r.wd)
  let stp := c (ffMul f32F (c (ffMul f32F k.eta r.lr)) r.tau)
  let w' := c (ffSub f32F (c (ffFma f32F (ffNeg f32F dec) w w)) (c (ffMul f32F stp u)))
  let b := c (ffMul f32F (c (ffSub f32F one32 k.beta2)) g)
  (w', c (ffFma f32F k.beta2 m b))

/-- The values that pass two forms for one row (R314). -/
def updateRow (m : Mem) (k : MuuConst) (r : MuuRec) (base row : Nat) : List (Nat × Nat) :=
  let g := gradRow m r (max r.nUsed 1) row
  let w := masterRow m r base row
  let mo := momentumRow m r base row
  (List.range r.cols).map (fun c => updateElem k r (w.getD c 0) (mo.getD c 0) (g.getD c 0))

/-- R320: NV for a NaN, OF for an infinity, the first in element order. -/
def badValue (xs : List (Nat × Nat)) : Option Status :=
  xs.findSome? (fun x => [x.1, x.2].findSome? (fun y =>
    if ffIsNan f32F y then some .nv else if ffIsInf f32F y then some .of else none))

/-- The draws of R315. -/
def muuDraw (run : MuuRun) (r : MuuRec) (tag row c : Nat) : Nat :=
  draw run.seed (r.tensor ^^^ tag) run.step ((row * r.cols + c) % 2 ^ 40)

/-- A list in blocks of 32. -/
def blocks32 {α : Type} (xs : List α) (n : Nat) : List (List α) := (List.range n).map (fun b => (xs.drop (32 * b)).take 32)

/-- The momentum destination of R315: MXFP8-E4M3, E8M0 blocks of 32 along the row, FIT, SR, nonsat 0. -/
def momentumFmt : FmtWord := fmtWord 0x1425

/-- The compute-copy destination of R316: CL4, H8 blocks of 32 along the row, MX, RNE. -/
def copyFmt : FmtWord := fmtWord 0x0220

/-- The rotated compute-copy row before conversion (R316), and whether a butterfly overflowed (R196). -/
def copyRow (run : MuuRun) (r : MuuRec) (master : List Nat) : List PVal × Bool :=
  let g := muuGeom r
  let x : List PVal := (master.map (fun c => (bf16To32 c, false))) ++ List.replicate (g.dr - r.cols) (0, false)
  if r.rot = 0 then (x, false)
  else
    let y := rotRow r.rot false (rotSign run.rotSeed r.rotId r.rotEpoch) x
    (y.1.map (fun z => (scaleDown (r.rot / 2) z.1, z.2)), y.2.of)

/-- The codes of whole blocks of 32: code zero pads a partial last one (R70). -/
def padCodes (n : Nat) (codes : List Nat) : List Nat := codes ++ List.replicate (32 * n - codes.length) 0

/-- The flag OF of an MUU op beside its status: noted to the phase as its other statuses are (R196; DESIGN CHOICE of log 92: the op itself ends with UPDATE_DONE). -/
def noteOverflow (run : MuuRun) (of : Bool) (s : State) : State :=
  if of then noteStatus s run.stream run.phase .of else s

/-- One row written in the alternate slots (R315, R316), partial last blocks padded (R70). -/
def writeRowTwo (run : MuuRun) (r : MuuRec) (ab cb row : Nat) (vals : List (Nat × Nat)) (s : State) : State :=
  let g := muuGeom r
  let master := vals.zipIdx.map (fun z => (toBf16 true false (muuDraw run r 0x40000000 row z.2) z.1.1).1)
  let s1 := write s .dram (ab + row * g.pm) ((master.map (leBytes 2)).flatten)
  let mom := (blocks32 (vals.zipIdx.map (fun z => ({ x := z.1.2, draw := muuDraw run r 0x80000000 row z.2 } : ConvIn))) g.nb).map
    (convBlock momentumFmt none)
  let s2 := write s1 .dram (ab + r.rows * g.pm + row * g.pe) (packCodes 5 (padCodes g.nb ((mom.map (·.codes)).flatten)))
  let s3 := write s2 .dram (ab + r.rows * (g.pm + g.pe) + row * g.ps) (mom.map (fun o => BitVec.ofNat 8 o.scale))
  let copy := copyRow run r master
  let elems := copy.1.zipIdx.map (fun z =>
    ({ row, col := z.2, m := row, n := z.2, x := z.1.1, nv := false, of := false, poison := z.1.2 } : OcsElem))
  let spec : BlkSpec := { fw := copyFmt, olOut := false, olThresh := 0, fold := r.rot % 2 == 1 }
  let outs := (blocks32 elems g.nbr).map (fun es => (blkConv spec none es (List.replicate es.length 0)).conv)
  let s4 := write s3 .dram (cb + row * g.pce) (packCodes 0 (padCodes g.nbr ((outs.map (·.codes)).flatten)))
  let s5 := noteOverflow run copy.2
    (write s4 .dram (cb + r.rows * g.pce + row * g.pcs) (outs.map (fun o => BitVec.ofNat 8 o.scale)))
  if r.cs then
    outs.zipIdx.foldl (fun a z =>
      write a .dram (cb + r.rows * (g.pce + g.pcs) + z.2 * g.pcx + 4 * row)
        (leBytes 4 (if z.1.nanBlock then ffNan f32F else blockSum 0 z.1.codes))) s5
  else s5

/-- The alternate compute-copy slot; with no current one it is slot 0. -/
def altCopy (s : State) (e : SlotEntry) : Nat := match curCopy s e with | some 0 => 1 | _ => 0

/-- Steps 2 to 6 of R313 on a tensor: the state and a failure. A tensor that the list names twice takes undefined values (R303). -/
def updateTensor (s : State) (run : MuuRun) (r : MuuRec) : State × Option (Status × Nat) :=
  let e := getSlot s r.tensor
  match curState s e with
  | none => (s, some (.slotNone, slotAddr s r.tensor))
  | some c =>
    let sa := 1 - c
    let ca := altCopy s e
    let e1 := { e with sv0 := e.sv0 && sa != 0, sv1 := e.sv1 && sa != 1, cv0 := e.cv0 && ca != 0, cv1 := e.cv1 && ca != 1 }
    let base := stateBase r c
    let s1 := demandTensor (putSlot s r.tensor e1) r base
    let k := muuConst (memRead s.mem (muuParm run.desc).consts 64)
    if gradPoison s1.mem r || masterPoison s1.mem r base || momentumPoison s1.mem r base then
      (s1, some (.poisoned, tensorBad s1.mem r base true))
    else
      let twice := listedTwice s (muuParm run.desc) r.tensor
      let rows := if twice then openRows s.freeCount r.rows r.cols else (List.range r.rows).map (updateRow s1.mem k r base)
      let s1 := drawIf twice (r.rows * r.cols) s1
      match rows.findSome? badValue with
      | some st => (s1, some (st, 0))
      | none =>
        let s2 := rows.zipIdx.foldl (fun a z => writeRowTwo run r (stateBase r sa) (copyBase r ca) z.2 z.1 a) s1
        let e2 := { e1 with stag0 := if sa = 0 then run.step else e1.stag0, stag1 := if sa = 1 then run.step else e1.stag1,
                            ctag0 := if ca = 0 then run.step else e1.ctag0, ctag1 := if ca = 1 then run.step else e1.ctag1,
                            sv0 := e1.sv0 || sa == 0, sv1 := e1.sv1 || sa == 1,
                            cv0 := e1.cv0 || ca == 0, cv1 := e1.cv1 || ca == 1 }
        (gradReset (putSlot s2 r.tensor e2) r run.step, none)

/-- The flags that pass two keeps of pass one, with bit 2 for a deferred tensor. -/
def keptFlags (r : MuuRec) (deferred : Bool) : Nat := r.tflags % 2 + 4 * b2n deferred

/-- Whether a failure stops pass two from starting further tensors: those of the memory and protection class (R321). -/
def stopsPass (st : Status) : Bool := statusCode st / 256 == 3

/-- A tensor that pass two has finished with a status: its record, counters and the run. -/
def passTwoDone (s : State) (run : MuuRun) (i : Nat) (r : MuuRec) (deferred skip : Bool)
    (st : Option (Status × Nat)) : State × MuuRun :=
  let p := muuParm run.desc
  let run' := { run with todo := run.todo.filter (· != i), deferred := run.deferred.filter (· != i),
                         lastWrite := if deferred then s.nowNs else run.lastWrite }
  match st with
  | some (e, at_) =>
    (tensorFail (markRec s p i e (keptFlags r deferred + 8)) r.tensor run.step at_ e,
     { run' with failed := run.failed + 1, fail := run.fail.orElse (fun _ => some e),
                 halt := run.halt.orElse (fun _ => if stopsPass e then some e else none),
                 haltAt := if run.halt.isSome then run.haltAt else at_ })
  | none =>
    if skip then (markRec s p i .ok (keptFlags r deferred), run')
    else
      let s1 := markRec s p i .ok (keptFlags r deferred + 2)
      ({ s1 with muu := { s1.muu with updated := satAdd s1.muu.updated 1 } }, { run' with updated := run.updated + 1 })

/-- Pass two on one tensor (R304, R312, R313). -/
def passTwoTensor (x : State × MuuRun) (i : Nat) : State × MuuRun :=
  let s := x.1
  let run := x.2
  let p := muuParm run.desc
  let r := muuRec (recAt s p i)
  let e := getSlot s r.tensor
  let skip := s.muu.decision != 1
  let was := run.deferred.contains i
  match slotErr s r.tensor with
  | some st => passTwoDone s run i r was skip
      (some (match run.halt with | some h => (h, run.haltAt) | none => (st, slotAddr s r.tensor)))
  | none =>
    if e.frozen then
      (markRec s p i .ok 16, { run with todo := run.todo.filter (· != i), deferred := run.deferred.filter (· != i) })
    else if run.halt.isSome then passTwoDone s run i r was skip (run.halt.map (fun h => (h, run.haltAt)))
    else if skip then passTwoDone (gradReset s r run.step) run i r was true none
    else if pinsOf e (altCopy s e) != 0 then
      if was then (s, run)
      else
        let s0 := putRec s p i 124 [BitVec.ofNat 8 (keptFlags r true)]
        let s1 := { s0 with trn := { s0.trn with deferrals := satAdd s0.trn.deferrals 1 } }
        let s2 := if run.clock.isNone then raiseEvent s1 .versionPinned 7 r.tensor (leBytes 4 r.tensor ++ leBytes 4 run.step) else s1
        (s2, { run with todo := run.todo.filter (· != i), deferred := run.deferred ++ [i], deferrals := run.deferrals + 1,
                        clock := run.clock.orElse (fun _ => some s.nowNs) })
    else
      let u := updateTensor s run r
      passTwoDone u.1 run i r was false u.2

/-- The step report (R286). -/
def stepReport (s : State) (run : MuuRun) (st : Status) : Bytes :=
  let d := s.muu.decision.toNat
  let outcome := if d = 1 then (if run.failed = 0 then 0 else 3) else d - 1
  let k := muuConst (memRead s.mem (muuParm run.desc).consts 64)
  let wait := match run.clock with | some t => (run.lastWrite - t) / 1000 | none => 0
  leBytes 4 run.step ++ leBytes 1 outcome ++ zeroBytes 3 ++ leBytes 4 s.muu.gnorm.toNat ++ leBytes 4 k.skip ++
  leBytes 4 run.updated ++ leBytes 4 run.failed ++ leBytes 2 (statusCode st) ++ zeroBytes 2 ++ leBytes 4 s.trnRun.doneMb ++
  leBytes 4 (smGet [] s.trnRun.carriedBy run.step).length ++ leBytes 4 s.trnRun.excluded ++ leBytes 4 run.deferrals ++
  leBytes 4 wait ++ zeroBytes 16

/-- Pass two goes on: deferred tensors are checked again, then the rest of the list; with nothing left it ends with the
step report (R313, R318). -/
def passTwoGo (s : State) : State :=
  match s.muuRun with
  | none => s
  | some r0 =>
    let x1 := r0.deferred.foldl passTwoTensor (s, r0)
    let x2 := x1.2.todo.foldl passTwoTensor x1
    let x3 := x2.2.deferred.foldl passTwoTensor x2
    let run := x3.2
    if run.todo.isEmpty && run.deferred.isEmpty then
      let st := run.fail.getD .updateDone
      let s1 := write x3.1 .dram (muuParm run.desc).report (stepReport x3.1 run st)
      endPass { s1 with trnRun := { s1.trnRun with update := none } } run st
    else { x3.1 with muuRun := some run }

/-- MUU_PASS_TWO (R312 to R318). -/
def execMuuPassTwo (loc : OpLoc) (s : State) : Res :=
  match loc with
  | .core _ => .next s
  | .io sid ph =>
    let id := sid.toNat
    let p := ph.toNat
    match muuNext s id p [3] with
    | none => .next s
    | some o =>
      match muuCheckAt s id p o with
      | some st => .next (rejectIo s id p o st)
      | none => .next (withPhase id p (fun a => passTwoGo (startPass a id p o)) s)

/-- DEFERRAL_RECHECK (R313): the pins of deferred tensors are checked again. -/
def execDeferralRecheck (s : State) : Res :=
  match s.muuRun with
  | none => .next s
  | some r => if r.pass = 3 then .next (withPhase r.stream r.phase passTwoGo s) else .next s

/-- The micro-batches that hold a pin on the alternate slot of a deferred tensor are excluded (R279). -/
def excludePinning (s : State) (run : MuuRun) : State :=
  let slots := run.deferred.map (fun i =>
    let r := muuRec (recAt s (muuParm run.desc) i)
    (r.tensor, altCopy s (getSlot s r.tensor)))
  (List.range 256).foldl (fun a mb => if (mbPins a mb).any (fun x => slots.contains x) then excludeMb a mb else a) s

/-- STRAGGLER_DEADLINE (R279): the straggler clock has reached its deadline. -/
def execStragglerDeadline (s : State) : Res :=
  match s.muuRun with
  | none => .next s
  | some r =>
    match r.clock with
    | none => .next s
    | some t =>
      if t + r.deadline ≤ s.nowNs then
        let s1 := if r.expired then s else
          { s with trn := { s.trn with expiries := satAdd s.trn.expiries 1 }, muuRun := some { r with expired := true } }
        .next (withPhase r.stream r.phase (fun a => excludePinning a r) s1)
      else .next s

/-! ## Rollback (R287, R290, R322) -/

/-- One tensor entry under a rollback: pending slots lose their valid bits, contrib is cleared, and the gradient state
is zeroed through the tensor's record. -/
def rollEntry (recs : List MuuRec) (s : State) (tid : Nat) : State :=
  match slotErr s tid with
  | some _ => s
  | none =>
    let e := getSlot s tid
    if e.frozen then s
    else
      let c := committedStep s
      let keep := fun (v : Bool) (t : Nat) => v && decide (stepDiff t c ≤ 0)
      let e1 := { e with sv0 := keep e.sv0 e.stag0, sv1 := keep e.sv1 e.stag1, cv0 := keep e.cv0 e.ctag0, cv1 := keep e.cv1 e.ctag1 }
      let s1 := if e1 = e then s else putSlot s tid e1
      if e.contrib = 0 then s1
      else
        let s2 := match recs.find? (fun r => r.tensor == tid) with | some r => zeroGrad s1 r | none => s1
        putSlot s2 tid { e1 with contrib := 0 }

/-- The records of MUU_LIST_BASE and MUU_LIST_COUNT that can be read. -/
def listRecs (s : State) : List MuuRec :=
  let b := bits s.muu.listBase.toNat 7 41 * 128
  (List.range (min s.muu.listCount.toNat 1048576)).filterMap (fun i =>
    let r := read s .dram (b + 128 * i) 128
    if r.err.isNone then some (muuRec r.data) else none)

/-- MERIDIAN_ROLLBACK of step `v`: the status and the state. The counts of steps that will run again start anew (R286). -/
def doRollback (s : State) (v : Nat) : State × Status :=
  if !(trnEn s) || updateRuns s then (s, .badField)
  else
    let recs := listRecs s
    let s1 := (List.range (slotTabLen s)).foldl (rollEntry recs) s
    let s2 := (List.range 256).foldl (fun a mb =>
      let d := stepDiff (mbStep a mb) v
      if mbLive a mb && (decide (d ≥ 0) || (mbState a mb == 2 && decide (d = -1))) then excludeMb a mb else a) s1
    let ahead := fun (k : Nat) => decide (stepDiff k v ≥ 0)
    let s3 := { s2 with trnRun := { s2.trnRun with doneBy := s2.trnRun.doneBy.filter (fun x => !(ahead x.1)),
                                                   carriedBy := s2.trnRun.carriedBy.filter (fun x => !(ahead x.1)) } }
    let a := slotTab s + 8
    let rd := read s3 .dram a 4
    (if rd.err.isNone then write s3 .dram a (leBytes 4 (satAddNat 32 (leNat rd.data) 1)) else s3, .ok)

end Sys2Proof.Machine
end

