-- ==== Sys2Proof/Machine/FabLink.lean ====
section
/-! DEFINITION. The optical fabric's links: ports, packet headers, credits, routing and injection
(12_fabric.md R404 to R422, R437 to R439). -/

namespace Sys2Proof.Machine

/-! ## Ports -/

/-- Fabric port `p`. -/
def getFab (s : State) (p : Nat) : FabPortState := smGet FabPortState.reset s.fab.ports p

/-- Fabric port `p` replaced. -/
def setFab (s : State) (p : Nat) (x : FabPortState) : State :=
  { s with fab := { s.fab with ports := smSet FabPortState.reset s.fab.ports p x } }

/-- FAB_PORT_CFG: en, retrain, dim, dateline, up, peer_node, peer_port and port_any. -/
def cfgEn (v : BitVec 64) : Bool := v.getLsbD 0
def cfgRetrain (v : BitVec 64) : Bool := v.getLsbD 1
def cfgDim (v : BitVec 64) : Nat := bits v.toNat 2 3
def cfgDateline (v : BitVec 64) : Bool := v.getLsbD 5
def cfgUp (v : BitVec 64) : Bool := v.getLsbD 6
def cfgPeerNode (v : BitVec 64) : Nat := bits v.toNat 16 16
def cfgPeerPort (v : BitVec 64) : Nat := bits v.toNat 32 4
def cfgPortAny (v : BitVec 64) : Bool := v.getLsbD 36

/-- Whether the bypass of a port's pair is joined, or switching (R438, R439). -/
def pairJoined (s : State) (p : Nat) : Bool := s.fab.joined.getLsbD (p / 2)

/-- Whether a port is UP. -/
def portUp (s : State) (p : Nat) : Bool := decide ((getFab s p).st = 6)

/-- Whether a port carries packets: it is UP, and this module's node id is assigned (R39, R600). -/
def portCarries (s : State) (p : Nat) : Bool := portUp s p && s.fab.nodeId != 0xFFFF

/-- A port enters a state of R408. -/
def enterPort (s : State) (p : Nat) (st : BitVec 3) : State :=
  let x := getFab s p
  emit (setFab s p { x with st, since := s.nowNs, paramSeen := if st = 5 then false else x.paramSeen })
    (.link p st.toNat)

/-! ## Packets (R412 to R414) -/

/-- Fields of a header flit. -/
def pkFtype (b : Bytes) : Nat := bits (le b 0 1) 0 2
def pkVc (b : Bytes) : Nat := bits (le b 0 1) 2 3
def pkDown (b : Bytes) : Bool := flag b 0 5
def pkFlits (b : Bytes) : Nat := bits (le b 1 1) 0 6
def pkDst (b : Bytes) : Nat := le b 12 2
def pkSrc (b : Bytes) : Nat := le b 14 2
def pkCls (b : Bytes) : Nat := bits (le b 16 1) 0 2
def pkKind (b : Bytes) : Nat := bits (le b 16 1) 2 6
def pkAckReq (b : Bytes) : Bool := flag b 17 0
def pkEpochEn (b : Bytes) : Bool := flag b 17 1
def pkRctrEn (b : Bytes) : Bool := flag b 17 2
def pkPlen (b : Bytes) : Nat := bits (le b 18 2) 0 13
def pkAddr (b : Bytes) : Nat := le b 20 6
def pkTag (b : Bytes) : Nat := le b 26 3
def pkEpoch (b : Bytes) : Nat := le b 30 2
def pkRctr (b : Bytes) : Nat := bits (le b 32 2) 0 12
def pkPoison (b : Bytes) : Nat := bits (le b 34 8) 0 63
def pkPcrc (b : Bytes) : Nat := le b 56 4
def pkHcrc (b : Bytes) : Nat := le b 60 4
/-- The payload, without the padding of the last flit. -/
def pkPayload (b : Bytes) : Bytes := (b.drop 64).take (pkPlen b)

/-- The payload bytes that a packet carries: none for READ_REQ, whose plen is the request (R412). -/
def pkCarried (kind plen : Nat) : Nat := if kind = 1 then 0 else plen

/-- pcrc: CRC-32C over bytes 12 to 55 and the payload. -/
def pcrcOf (b : Bytes) : Nat :=
  crc32c ((b.drop 12).take 44 ++ (b.drop 64).take (pkCarried (pkKind b) (pkPlen b)))

/-- A packet under construction: its end-to-end fields. -/
structure PktSpec where
  dst : Nat
  cls : Nat
  kind : Nat
  ackReq : Bool
  epochEn : Bool
  rctrEn : Bool
  plen : Nat
  addr : Nat
  tag : Nat
  epoch : Nat
  rctr : Nat
  poison : Nat
  kindBytes : Bytes
  deriving DecidableEq, Repr

/-- A packet with no checks, counter or poison. -/
def pktPlain (dst cls kind plen addr : Nat) : PktSpec :=
  { dst, cls, kind, ackReq := false, epochEn := false, rctrEn := false, plen, addr, tag := 0, epoch := 0,
    rctr := 0, poison := 0, kindBytes := [] }

/-- Header and payload flits, the link part but for nflits not yet written (R412, R413). -/
def buildPkt (src : Nat) (h : PktSpec) (payload : Bytes) : Bytes :=
  let n := cdiv payload.length 64
  let head := [0, BitVec.ofNat 8 n] ++ zeroBytes 10 ++ leBytes 2 h.dst ++ leBytes 2 src ++
    leBytes 1 (h.cls + 4 * h.kind) ++ leBytes 1 (b2n h.ackReq + 2 * b2n h.epochEn + 4 * b2n h.rctrEn) ++
    leBytes 2 h.plen ++ leBytes 6 h.addr ++ leBytes 3 h.tag ++ [0] ++ leBytes 2 h.epoch ++
    leBytes 2 (if h.rctrEn then h.rctr else 0) ++ leBytes 8 h.poison ++ (h.kindBytes ++ zeroBytes 14).take 14
  let body := payload ++ zeroBytes (64 * n - payload.length)
  let b := head ++ zeroBytes 8 ++ body
  putBytes b 56 (leBytes 4 (pcrcOf b))

/-- A packet with its tag, and pcrc over it. -/
def withTag (b : Bytes) (t : Nat) : Bytes :=
  let b1 := putBytes b 26 (leBytes 3 t)
  putBytes b1 56 (leBytes 4 (pcrcOf b1))

/-- The class that each kind travels in (R414); none for a kind the table does not list. -/
def kindClass (kind : Nat) : Option Nat :=
  match kind with
  | 0 => some 0 | 1 => some 0 | 2 => some 1 | 3 => some 1 | 4 => some 2
  | _ => if 8 ≤ kind ∧ kind ≤ 15 then some 3 else none

/-- Whether plen suits a kind: no payload for ACK, ABORT and CREDIT (R414, R458). -/
def kindPayload (kind plen : Nat) : Bool :=
  if kind = 3 ∨ kind = 12 ∨ kind = 13 then plen == 0 else decide (0 < plen)

/-- Whether a header agrees with itself (R412 to R414). -/
def wellFormedPkt (b : Bytes) : Bool :=
  let plen := pkPlen b
  let n := cdiv (pkCarried (pkKind b) plen) 64
  kindClass (pkKind b) == some (pkCls b) && kindPayload (pkKind b) plen && plen % 4 == 0 && decide (plen ≤ 4032) &&
  pkFlits b == n && decide (b.length = 64 * (n + 1)) &&
  reservedZero (b.take 60) [fld 0 1, fldBits 1 0 6, fld 2 8, fldBits 10 0 12, fld 12 5, fldBits 17 0 3,
    fldBits 18 0 13, fld 20 9, fld 30 2, fldBits 32 0 12, fldBits 34 0 63, fld 42 18]

/-- hcrc over bytes 0 to 59 holds, and ftype is 0 or 1 (R411, R412). -/
def headerGood (b : Bytes) : Bool := decide (64 ≤ b.length) && pkHcrc b == crc32c (b.take 60) && decide (pkFtype b < 2)

/-- Bytes of a packet at most. -/
def pktMax : Nat := 4032

/-- The packets of `n` bytes: offset and length. -/
def pktCuts (n : Nat) : List (Nat × Nat) :=
  (List.range (cdiv n pktMax)).map (fun i => (pktMax * i, min pktMax (n - pktMax * i)))

/-- Whether the payload bytes from `off` lie in a poisoned flit. -/
def flitPoison (mask off n : Nat) : Bool :=
  n != 0 && (List.range ((off + n - 1) / 64 - off / 64 + 1)).any (fun i => bit mask (off / 64 + i))

/-- Bits of the payload flits for which `bad` holds of an offset and length. -/
def flitMask (n : Nat) (bad : Nat → Nat → Bool) : Nat :=
  (List.range (cdiv n 64)).foldl (fun m i => if bad (64 * i) (min 64 (n - 64 * i)) then m ||| 2 ^ i else m) 0

/-! ## Credits (R415) -/

/-- Flits of reserved credit that `n` more flits take while `u` are held, with the rest shared. -/
def reservedOf (u : Nat) : Nat := min u 128

/-- One element of a list replaced. -/
def listSet (xs : List Nat) (i v : Nat) : List Nat := xs.set i v

/-- `n` flits arrive in the buffer of channel `v`. -/
def bufferIn (x : FabPortState) (v n : Nat) : FabPortState :=
  { x with inUse := listSet x.inUse v (x.inUse.getD v 0 + n) }

/-- `n` flits of channel `v` leave the buffer: their credits are owed to the peer. -/
def bufferOut (x : FabPortState) (v n : Nat) : FabPortState :=
  let u := x.inUse.getD v 0
  let r := reservedOf u - reservedOf (u - n)
  { x with inUse := listSet x.inUse v (u - n), owed := listSet x.owed v (x.owed.getD v 0 + r),
           owedShared := x.owedShared + (min n u - r) }

/-- The credits that a header or IDLE flit returns are added. -/
def creditsIn (x : FabPortState) (b : Bytes) : FabPortState :=
  { x with credits := (List.range 8).map (fun v => x.credits.getD v 0 + (byteAt b (2 + v)).toNat),
           shared := x.shared + bits (le b 10 2) 0 12 }

/-- Whether a packet of `n` flits may start on channel `v`. -/
def creditsFor (x : FabPortState) (v n : Nat) : Bool := decide (n ≤ x.credits.getD v 0 + x.shared)

/-- Reserved credits are spent first. -/
def creditsSpend (x : FabPortState) (v n : Nat) : FabPortState :=
  let c := x.credits.getD v 0
  { x with credits := listSet x.credits v (c - min c n), shared := x.shared - (n - min c n) }

/-- The link part of a flit that leaves: it returns every credit owed. -/
def linkPart (x : FabPortState) (ftype vc : Nat) (down : Bool) (b : Bytes) : Bytes :=
  let h := [BitVec.ofNat 8 (ftype + 4 * vc + 32 * b2n down), byteAt b 1] ++
    (List.range 8).map (fun v => BitVec.ofNat 8 (x.owed.getD v 0)) ++ leBytes 2 x.owedShared ++ (b.drop 12).take 48
  h ++ leBytes 4 (crc32c h) ++ b.drop 64

/-- The port's debts are paid. -/
def owedPaid (x : FabPortState) : FabPortState := { x with owed := List.replicate 8 0, owedShared := 0 }

/-- A link with credits to return and no packet to send sends an IDLE flit. -/
def sendIdle (s : State) (p : Nat) : State :=
  let x := getFab s p
  if portCarries s p = true ∧ (x.owedShared ≠ 0 ∨ x.owed.any (· != 0) = true) then
    emit (setFab s p (owedPaid x)) (.packet p (linkPart x 0 0 false (zeroBytes 64)))
  else s

/-! ## Tags (R435) -/

/-- 66 ms in nanoseconds. -/
def tagHold : Nat := 66000000

/-- The next tag of an FI, unless it was used within 66 ms. -/
def freeTag (s : State) (fi : Nat) : Option Nat :=
  let t := smGet 0 s.fab.nextTag fi
  let u := smGet 0 s.fab.tagUse (2 ^ 24 * fi + t)
  if (u = 0 ∨ u - 1 + tagHold ≤ s.nowNs) ∧ (s.fab.tags.any (fun x => x.fi == fi && x.tag == t)) = false then some t
  else none

/-- The use of a tag is noted. -/
def noteTag (s : State) (fi t : Nat) : State :=
  { s with fab := { s.fab with tagUse := smSet 0 s.fab.tagUse (2 ^ 24 * fi + t) (s.nowNs + 1) } }

/-- A tag is taken for a packet of a part that leaves now. -/
def takeTag (s : State) (fi t part limitNs : Nat) (o : FabOwner) : State :=
  let s1 := noteTag s fi t
  { s1 with fab := { s1.fab with nextTag := smSet 0 s1.fab.nextTag fi ((t + 1) % 2 ^ 24),
                                 tags := s1.fab.tags ++ [{ fi, tag := t, owner := o, part, injected := s.nowNs, limitNs }] } }

/-- A class value of FAB_TIMEOUT in nanoseconds: 0 put, 1 get, 2 await, 3 collectives; 0 acts as 1 µs. -/
def classNs (s : State) (k own : Nat) : Nat :=
  1000 * max 1 (if own = 0 then bits s.fab.timeout.toNat (16 * k) 16 else own)

/-- Whether a packet of an owner is still out or waits. -/
def fabBusy (s : State) (o : FabOwner) : Bool :=
  s.fab.tags.any (fun t => t.owner == o) || s.fab.ports.any (fun p => p.2.queue.any (fun q => q.owner == some o)) ||
  s.fab.loop.any (fun l => l.owner == some o)

/-- No packet of an owner waits any more, and no reply is awaited (R386). -/
def dropFabric (s : State) (mine : FabOwner → Bool) : State :=
  let gone := fun (o : Option FabOwner) => match o with | some w => mine w | none => false
  { s with fab := { s.fab with
      tags := s.fab.tags.filter (fun t => !(mine t.owner)),
      ops := s.fab.ops.filter (fun o => !(mine o.owner)),
      loop := s.fab.loop.filter (fun l => !(gone l.owner)),
      ports := s.fab.ports.map (fun p => (p.1, { p.2 with queue := p.2.queue.filter (fun o => !(gone o.owner)) })) } }

/-! ## Output queues (R416, R417) -/

/-- The buffer of an input port that a packet holds, port, channel and flits, is freed. -/
def freeSource (s : State) (src : Option (Nat × Nat × Nat)) : State :=
  match src with
  | none => s
  | some (p, v, n) => sendIdle (setFab s p (bufferOut (getFab s p) v n)) p

/-- A packet leaves on its link. -/
def putOnLink (s : State) (p : Nat) (o : OutPkt) (bytes : Bytes) : State :=
  let x := creditsSpend (getFab s p) o.vc (bytes.length / 64)
  freeSource (emit (setFab s p (owedPaid x)) (.packet p (linkPart x 1 o.vc o.down bytes))) o.src

/-- A packet leaves if its credits and, for a tagged one, a tag are there. -/
def trySend (s : State) (p : Nat) (o : OutPkt) : Option State :=
  if creditsFor (getFab s p) o.vc (o.bytes.length / 64) then
    match o.part, o.owner with
    | some k, some w =>
      (match freeTag s p with
       | none => none
       | some t => some (putOnLink (takeTag s p t k o.limitNs w) p o (withTag o.bytes t)))
    | _, _ => some (putOnLink s p o o.bytes)
  else none

/-- The waiting packets of a port, in order: a packet waits behind one of its own channel that waits. -/
def drainList (p : Nat) : List OutPkt → List Nat → State → List OutPkt → State × List OutPkt
  | [], _, s, kept => (s, kept)
  | o :: os, blocked, s, kept =>
    if blocked.contains o.vc then drainList p os blocked s (kept ++ [o])
    else
      match trySend s p o with
      | some s1 => drainList p os blocked s1 kept
      | none => drainList p os (o.vc :: blocked) s (kept ++ [o])

/-- Port `p` sends what it can. -/
def drainPort (s : State) (p : Nat) : State :=
  if portCarries s p then
    let r := drainList p (getFab s p).queue [] s []
    setFab r.1 p { getFab r.1 p with queue := r.2 }
  else s

/-- A packet joins a port's queue. -/
def sendOut (s : State) (p : Nat) (o : OutPkt) : State :=
  let x := getFab s p
  drainPort (setFab s p { x with queue := x.queue ++ [o] }) p

/-! ## Routing (R418 to R421) -/

/-- Whether a node id is this module's under R35. -/
def localNode (s : State) (n : Nat) : Bool := n == 0xFFFF || n == s.fab.nodeId.toNat

/-- The output port that the route table names for a node id; none where the entry is invalid. -/
def routeValid (s : State) (dst : Nat) : Option Nat :=
  let e := smGet 0 s.fab.route dst
  if e.getLsbD 4 then some (e &&& 15#8).toNat else none

/-- The output port of a node id: none where the entry is invalid or its port is not UP. -/
def routeOf (s : State) (dst : Nat) : Option Nat := (routeValid s dst).filter (portUp s)

/-- no_route increments. -/
def countNoRoute (s : State) : State := { s with fab := { s.fab with noRoute := satAdd s.fab.noRoute 1 } }

/-- route_err increments. -/
def countRouteErr (s : State) : State := { s with fab := { s.fab with routeErr := satAdd s.fab.routeErr 1 } }

/-- The class and dateline state of a hop: none breaks the order of R419 or R420. -/
def hopOf (s : State) (arrived : Option Nat) (out : Nat) (dl down : Bool) : Option (Bool × Bool) :=
  let o := (getFab s out).act
  if s.fab.mode then
    if down && cfgUp o then none else let d := down || !(cfgUp o); some (d, d)
  else
    match arrived with
    | none => some (cfgDateline o, down)
    | some p =>
      let a := (getFab s p).act
      if cfgDim o < cfgDim a then none
      else some ((dl && cfgDim o == cfgDim a) || cfgDateline o, down)

/-- The channel of a class and dateline state (R421). -/
def vcOf (cls : Nat) (dl : Bool) : Nat := 2 * cls + b2n dl

/-- A packet that does not leave its FI joins those that wait there. -/
def waitAtFi (s : State) (l : LoopPkt) : State := { s with fab := { s.fab with loop := s.fab.loop ++ [l] } }

/-- The tag that a packet of an op needs before it leaves its FI; an untagged packet needs none (R435). -/
def tagReady (s : State) (l : LoopPkt) : Bool := l.part.isNone || l.owner.isNone || (freeTag s l.fi).isSome

/-- A packet is discarded at its source. A tagged one counts as injected, so that its op sees it time out (R426), and
waits until there is a tag for it (R435). -/
def losePkt (count : State → State) (s : State) (l : LoopPkt) : State :=
  match l.part, l.owner with
  | some k, some w =>
    match freeTag s l.fi with
    | none => waitAtFi s l
    | some t => freeSource (count (takeTag s l.fi t k l.limitNs w)) l.src
  | _, _ => freeSource (count s) l.src

/-- A packet leaves its FI for the port that its route names (R418). -/
def routePkt (s : State) (dst cls : Nat) (l : LoopPkt) : State :=
  match routeOf s dst with
  | none => losePkt countNoRoute s l
  | some p =>
    match hopOf s none p false false with
    | none => losePkt countRouteErr s l
    | some (dl, down) =>
      sendOut s p { vc := vcOf cls dl, down, bytes := l.bytes, src := l.src, part := l.part, limitNs := l.limitNs,
                    owner := l.owner }

/-- A packet of this module is injected by FI `fi` for a class `cls` and destination (R418). One for this node never
leaves the FI. -/
def injectPkt (s : State) (fi dst cls : Nat) (bytes : Bytes) (part : Option Nat) (limitNs : Nat) (o : Option FabOwner)
    (src : Option (Nat × Nat × Nat) := none) : State :=
  let l : LoopPkt := { fi, bytes, part, limitNs, owner := o, src }
  if localNode s dst then waitAtFi s l else routePkt s dst cls l

/-- A packet built and injected without a tag of its own. -/
def injectPlain (s : State) (fi : Nat) (h : PktSpec) (payload : Bytes) (o : Option FabOwner)
    (src : Option (Nat × Nat × Nat) := none) : State :=
  injectPkt s fi h.dst h.cls (buildPkt s.fab.nodeId.toNat h payload) none 0 o src

/-- The flits of a packet in the input buffer of port `p`. -/
def bufferPkt (s : State) (p : Nat) (b : Bytes) : State :=
  setFab s p (bufferIn (getFab s p) (pkVc b) (b.length / 64))

/-- Whether a packet of an input buffer's channel still holds its place: it waits for credits or a tag, for PCIe, or for the
reply that it asks for (R417, R424, R425). -/
def channelBusy (s : State) (p v : Nat) : Bool :=
  let mine := fun (b : Option (Nat × Nat × Nat)) => b.any (fun b => b.1 == p && b.2.1 == v)
  s.fab.ports.any (fun q => q.2.queue.any (fun o => mine o.src)) || s.fab.loop.any (fun l => mine l.src) ||
  s.fab.posts.any (fun h => mine h.src) || s.fab.fetches.any (fun f => mine f.src)

/-- A packet that passes through (R416, R418): the state after it is forwarded or discarded, its buffer with it. -/
def forwardPkt (s : State) (p : Nat) (src : Option (Nat × Nat × Nat)) (b : Bytes) : State :=
  match routeOf s (pkDst b) with
  | none => freeSource (countNoRoute s) src
  | some q =>
    match hopOf s (some p) q (pkVc b % 2 == 1) (pkDown b) with
    | none => freeSource (countRouteErr s) src
    | some (dl, down) =>
      sendOut s q { vc := vcOf (pkCls b) dl, down, bytes := b, src, part := none, limitNs := 0, owner := none }

/-! ## Drops (R411, R437) -/

/-- The packets that wait for a port are discarded and counted, and their input buffers freed. -/
def flushQueue (s : State) (p : Nat) : List OutPkt → State
  | [] => setFab s p { getFab s p with queue := [] }
  | o :: os =>
    losePkt countNoRoute (flushQueue s p os)
      { fi := p, bytes := o.bytes, part := o.part, limitNs := o.limitNs, owner := o.owner, src := o.src }

/-- A port leaves UP for a state that carries no packet; the values of its configuration come into force. -/
def leaveUp (s : State) (p : Nat) (st : BitVec 3) : State :=
  let x := getFab s p
  let s1 := enterPort (setFab s p { x with act := x.cfg, inUse := List.replicate 8 0, owed := List.replicate 8 0,
                                           owedShared := 0 }) p st
  flushQueue s1 p x.queue

/-- A place in an input buffer, of no flits where the buffer is one of port `p`: what it holds keeps its turn. -/
def notOf (p : Nat) (b : Nat × Nat × Nat) : Nat × Nat × Nat := if b.1 = p then (b.1, b.2.1, 0) else b

/-- What came in through port `p` is no longer counted in its buffer: the port starts afresh. -/
def forgetSource (s : State) (p : Nat) : State :=
  { s with fab := { s.fab with
      ports := s.fab.ports.map (fun q =>
        (q.1, { q.2 with queue := q.2.queue.map (fun o => { o with src := o.src.map (notOf p) }) })),
      posts := s.fab.posts.map (fun x => { x with src := x.src.map (notOf p) }),
      fetches := s.fab.fetches.map (fun x => { x with src := x.src.map (notOf p) }),
      loop := s.fab.loop.map (fun x => { x with src := x.src.map (notOf p) }),
      held := s.fab.held.map (fun x => { x with src := notOf p x.src }) } }

/-- The register of CRC-32C one shift earlier. -/
def crcBack (r : Nat) : Nat := if bit r 31 then 2 * (r ^^^ 0x82F63B78) + 1 else 2 * r

/-- The four bytes that bring the register of CRC-32C from `from_` to `to_`. -/
def crcBridge (from_ to_ : Nat) : Bytes := leBytes 4 ((List.range 32).foldl (fun r _ => crcBack r) to_ ^^^ from_)

/-- A packet whose tail has not come in, completed with filler flits: the last four payload bytes make the CRC-32C of the
whole pcrc XOR 0xFFFF_FFFF (R437). -/
def completeCut (b : Bytes) : Bytes :=
  let n := pkPlen b
  let body := fit (b.drop 64) (64 * pkFlits b)
  let sum := ((b.drop 12).take 44 ++ body.take (n - 4)).foldl (crcReflByte 0x82F63B78) 0xFFFFFFFF
  b.take 64 ++ putBytes (body.take n ++ zeroBytes (64 * pkFlits b - n)) (n - 4) (crcBridge sum (pkPcrc b))

/-- An UP port drops to DARK (R411): retrains counts it and an event reports it. -/
def dropPort (s : State) (p : Nat) : State :=
  if portUp s p then
    let s1 := leaveUp (forgetSource s p) p 1
    let x := getFab s1 p
    raiseEvent (setFab s1 p { x with retrains := satAdd x.retrains 1, stay := !(cfgRetrain x.cfg) }) .linkDrop 4 p
  else s

/-- A port whose pair is open and whose en is 1 leaves DISABLED, but not in Closed or Parked, where every fabric port stays
there (R555). -/
def wakePort (s : State) (p : Nat) : State :=
  let x := getFab s p
  if x.st = 0 ∧ cfgEn x.cfg = true ∧ pairJoined s p = false ∧ x.hot = false ∧ s.pwr.state < 3 then
    enterPort (setFab s p { x with act := x.cfg, stay := false }) p 1
  else s

/-- A port is held in DISABLED. -/
def disablePort (s : State) (p : Nat) : State :=
  let x := getFab s p
  if x.st = 0 then s else if x.st = 6 then leaveUp (forgetSource s p) p 0 else enterPort s p 0

/-- What PARAM decides once both node ids are assigned (R410). -/
def settleParam (s : State) (p : Nat) : State :=
  let x := getFab s p
  if x.st = 5 ∧ x.paramSeen = true ∧ x.peerNode ≠ 0xFFFF ∧ s.fab.nodeId ≠ 0xFFFF then
    let a := x.act
    if (cfgPeerNode a ≠ 0xFFFF ∧ cfgPeerNode a ≠ x.peerNode.toNat) ∨
       (cfgPortAny a = false ∧ cfgPeerPort a ≠ x.peerPort.toNat)
    then raiseEvent (enterPort s p 7) .miswired 4 p
    else
      enterPort (setFab s p { x with credits := List.replicate 8 128, shared := 3072, inUse := List.replicate 8 0,
                                     owed := List.replicate 8 0, owedShared := 0 }) p 6
  else s

end Sys2Proof.Machine
end

