-- ==== Sys2Proof/Machine/CollBase.lean ====
section
/-! DEFINITION. Collectives: descriptors, communicators, the data of a segment, and what an abort or a completion
leaves (13_collectives.md R443 to R448, R455, R459 to R463, R470, R471). -/

namespace Sys2Proof.Machine

/-! ## The COLL body (R446) -/

def coOp (d : Bytes) : Nat := field d 8 0 4
def coRedop (d : Bytes) : Nat := field d 8 4 4
def coType (d : Bytes) : Nat := field d 9 0 3
def coDeadline (d : Bytes) : Bool := flag d 9 3
def coMean (d : Bytes) : Bool := flag d 9 4
def coLateCarry (d : Bytes) : Bool := flag d 9 5
def coProgEn (d : Bytes) : Bool := flag d 9 6
def coComm (d : Bytes) : Nat := le d 10 2
def coSeq (d : Bytes) : Nat := le d 12 4
def coSrc (d : Bytes) : Nat := le d 16 6
def coDst (d : Bytes) : Nat := le d 22 6
def coLen (d : Bytes) : Nat := le d 28 4
def coAux0 (d : Bytes) : Nat := le d 32 6
def coAux1 (d : Bytes) : Nat := le d 38 6
def coDeadlineUs (d : Bytes) : Nat := le d 44 2
def coTimeoutUs (d : Bytes) : Nat := le d 46 2
def coResult (d : Bytes) : Nat := le d 48 6
def coSlots (d : Bytes) : Nat := field d 54 0 5
def coProgCtr (d : Bytes) : Nat := field d 56 0 12
def coLateSeq (d : Bytes) : Nat := le d 58 4

/-- The bits of a COLL descriptor. -/
def coFields : List (Nat × Nat) :=
  hdrFields ++ [fld 8 1, fldBits 9 0 7, fld 10 6, fld 16 12, fld 28 4, fld 32 12, fld 44 4, fld 48 6,
    fldBits 54 0 5, fldBits 56 0 12, fld 58 4]

/-- Whether an op reduces. -/
def coReduces (d : Bytes) : Bool := coOp d == 0 || coOp d == 1 || coOp d == 3

/-- The type is MXFP8-E5M2, whose segments carry scales. -/
def coMx (d : Bytes) : Bool := coType d == 2

/-- Bytes of an element. -/
def coElem (d : Bytes) : Nat := match coType d with | 0 => 4 | 1 => 2 | 2 => 1 | 3 => 4 | _ => 1

/-- Segments of the vector (R447). -/
def coSegs (d : Bytes) : Nat := coLen d / 2048

/-- Segment bytes on the wire, without a CRC. -/
def segLen (d : Bytes) : Nat := if coMx d then 2112 else 2048

/-- R459, R460. -/
def coHash (d : Bytes) : Nat :=
  crc64 ([byteAt d 8, BitVec.ofNat 8 (bits (byteAt d 9).toNat 0 5)] ++ leBytes 2 (coComm d) ++ leBytes 4 (coSeq d) ++
    leBytes 4 (coLen d) ++ [BitVec.ofNat 8 (coSlots d)] ++ zeroBytes 19)

/-- A CRC-64 as carried, most significant byte first (R460). -/
def crcBytes (v : Nat) : Bytes := (leBytes 8 v).reverse

/-- CRC-64 continued over more bytes. -/
def crc64More (c : Nat) (bs : Bytes) : Nat := bs.foldl crc64Byte c

/-- Every bit of a 64-bit value inverted. -/
def inv64 (v : Nat) : Nat := v ^^^ 0xFFFFFFFFFFFFFFFF

/-! ## Communicators (R443, R444) -/

/-- Records of the communicator table. -/
def commCount (s : State) : Nat := 2 ^ (8 + min 8 (bits s.coll.commBase.toNat 1 4))

/-- The address of a communicator's record. -/
def commAddr (s : State) (comm : Nat) : Nat := bits s.coll.commBase.toNat 12 36 * 4096 + 64 * comm

/-- The record of a communicator as it is read; none where it is beyond the table. -/
def commRead (s : State) (comm : Nat) : Option Rd :=
  if comm < commCount s then some (read s .fi (commAddr s comm) 64) else none

/-- The record of a communicator; none where it is beyond the table, unreadable or not valid. -/
def commRec (s : State) (comm : Nat) : Option Bytes :=
  match commRead s comm with
  | none => none
  | some r => if r.err.isNone && flag r.data 4 0 then some r.data else none

/-- Fields of a record. -/
def cmMembers (r : Bytes) : Nat := bits (le r 0 2) 0 12 + 1
def cmRank (r : Bytes) : Nat := bits (le r 2 2) 0 12
def cmFirst (r : Bytes) : Nat := bits (le r 6 2) 0 12
def cmCount (r : Bytes) : Nat := bits (le r 8 2) 0 13
def cmCtl (r : Bytes) : Nat := bits (le r 10 2) 0 12
def cmTab (r : Bytes) : Nat := le r 16 6
def cmScratch (r : Bytes) : Nat := le r 24 6
def cmEpLen (r : Bytes) : Nat := le r 32 4

/-- The record that a collective finds when it issues. -/
def commOf (s : State) (comm : Nat) : Bytes := (commRec s comm).getD (zeroBytes 64)

/-- An entry of the member table. -/
def member (s : State) (r : Bytes) (rank : Nat) : Bytes := memRead s.mem (cmTab r + 32 * rank) 32
def mbNode (e : Bytes) : Nat := le e 0 2
def mbParent (e : Bytes) : Nat := le e 2 2
/-- The ranks of the children, in table order. -/
def mbChildren (e : Bytes) : List Nat := (List.range (min 6 (bits (le e 4 1) 0 3))).map (fun i => le e (6 + 2 * i) 2)

/-- This member's own entry. -/
def myEntry (s : State) (r : Bytes) : Bytes := member s r (cmRank r)

/-- The rank of a node; none where no member has it. -/
def rankOf (s : State) (r : Bytes) (node : Nat) : Option Nat :=
  (List.range (cmMembers r)).find? (fun k => mbNode (member s r k) == node)

/-- Whether the subtree of a rank holds a contributor, `fuel` levels below it searched. -/
def subtreeHas (s : State) (r : Bytes) (contribs : List Nat) : Nat → Nat → Bool
  | 0, k => contribs.contains k
  | fuel + 1, k => contribs.contains k || (mbChildren (member s r k)).any (subtreeHas s r contribs fuel)

/-! ## Reduction memory (R36, R454) -/

/-- The address of a slot. -/
def redSlot (slot : Nat) : Nat := redMemLo + slot * 0x4000
/-- The address of a cell of a slot. -/
def cellAddr (slot cell : Nat) : Nat := redSlot slot + 0x900 * cell

/-- The control slots of every valid communicator: none is claimed for data, also where reservations overlap (R445). -/
def ctlSlots (s : State) : List Nat :=
  (List.range (commCount s)).filterMap (fun k =>
    if (memByte s.mem (commAddr s k + 4)).getLsbD 0 then (commRec s k).map cmCtl else none)

/-- The slots of a communicator that are free for data: reserved, inside the memory, not busy, no control slot. -/
def slotFree (s : State) (r : Bytes) (ctl : List Nat) (x : Nat) : Bool :=
  decide (cmFirst r ≤ x ∧ x < cmFirst r + cmCount r ∧ x < 3072) && x != cmCtl r && !(ctl.contains x) &&
  !(smGet false s.coll.busy x)

/-- The lowest contiguous run of `k` free slots (R450). -/
def findRun (s : State) (r : Bytes) (k : Nat) : Option Nat :=
  let ctl := ctlSlots s
  (List.range (cmCount r)).findSome? (fun i =>
    let x := cmFirst r + i
    if (List.range k).all (fun j => slotFree s r ctl (x + j)) then some x else none)

/-- Slots marked busy or free. -/
def markSlots (s : State) (first k : Nat) (b : Bool) : State :=
  { s with coll := { s.coll with busy := (List.range k).foldl (fun m i => smSet false m (first + i) b) s.coll.busy } }

/-! ## Open collectives -/

/-- The open collective of an id. -/
def getColl (s : State) (id : Nat) : Option Coll := s.coll.colls.find? (·.id == id)

/-- An open collective updated. -/
def modColl (s : State) (id : Nat) (f : Coll → Coll) : State :=
  { s with coll := { s.coll with colls := s.coll.colls.map (fun c => if c.id = id then f c else c) } }

/-- The open collective of a communicator and sequence number. -/
def findColl (s : State) (comm seq : Nat) : Option Coll :=
  s.coll.colls.find? (fun c => coComm c.desc == comm && coSeq c.desc == seq)

/-- Its timeout in nanoseconds (R446). -/
def collTimeoutNs (s : State) (d : Bytes) : Nat :=
  1000 * max 1 (if coTimeoutUs d = 0 then bits s.fab.timeout.toNat 48 16 else coTimeoutUs d)

/-! ## Data (R446, R447) -/

/-- The segments of the shard of rank `r` of `m`. -/
def shardLo (d : Bytes) (m r : Nat) : Nat := r * coSegs d / m

/-- First segment and count of what a member's source holds, as segments of the vector. -/
def srcSpan (d : Bytes) (m r : Nat) : Nat × Nat :=
  match coOp d with
  | 2 => (shardLo d m r, shardLo d m (r + 1) - shardLo d m r)
  | 4 => if r = 0 then (0, coSegs d) else (0, 0)
  | 5 => (0, 0)
  | _ => (0, coSegs d)

/-- First segment and count of what a member's destination holds. -/
def dstSpan (d : Bytes) (m r : Nat) : Nat × Nat :=
  match coOp d with
  | 1 => (shardLo d m r, shardLo d m (r + 1) - shardLo d m r)
  | 3 => if r = 0 then (0, coSegs d) else (0, 0)
  | 5 => (0, 0)
  | _ => (0, coSegs d)

/-- The addresses of segment `i` of a buffer of `n` segments at `a`: elements and scales. -/
def segAddr (a n i : Nat) : Nat × Nat := (a + 2048 * i, a + 2048 * n + 64 * i)

/-- Bytes of a buffer of `n` segments with its scales. -/
def bufLen (d : Bytes) (n : Nat) : Nat := n * segLen d

/-- A read by a Fabric Interface: the state with its denials, the bytes and whether they are poisoned. -/
def fiRead (s : State) (host : List HostLine) (a n : Nat) : State × Bytes × Bool :=
  let v := viewSpan initFab .fi host (viewOf s) a n
  (v.s, memRead v.m a n, v.err.isSome || spanPoison v.m a n)

/-- A write by a Fabric Interface, whole lines marked as poisoned when `poison` holds. -/
def fiWrite (s : State) (a : Nat) (bs : Bytes) (poison : Bool) : State :=
  (writeSpan s initFab .fi a bs (fun _ => poison)).1

/-- Segment `j` of a member's contribution: wire bytes and poison. -/
def readSeg (s : State) (c : Coll) (j : Nat) : State × Bytes × Bool :=
  let r := c.comm
  let sp := srcSpan c.desc (cmMembers r) (cmRank r)
  let i := j - sp.1
  match c.carry with
  | some b =>
    (s, (b.drop (2048 * i)).take 2048 ++ (if coMx c.desc then (b.drop (2048 * sp.2 + 64 * i)).take 64 else []),
      c.carryBad.contains j)
  | none =>
    let a := segAddr (coSrc c.desc) sp.2 i
    let x := fiRead s c.host a.1 2048
    if coMx c.desc then
      let y := fiRead x.1 c.host a.2 64
      (y.1, x.2.1 ++ y.2.1, x.2.2 || y.2.2)
    else x

/-- The first and the number of the segments of this member's destination. -/
def mySpan (c : Coll) : Nat × Nat :=
  let r := c.comm
  dstSpan c.desc (cmMembers r) (cmRank r)

/-- A line of a host window that the check of a packet granted: port and bus address of the line (R494). -/
abbrev HostGrant := Nat × HPort × Nat

/-- One line that a Fabric Interface writes. One that the packet's check granted goes where that check found (R494); any other
is judged now. -/
def landLineTo (targets : List HostGrant) (a : Nat) (bs : Bytes) (poison : Nat → Bool) (x : State × Option Status) (l : Nat) :
    State × Option Status :=
  match targets.find? (·.1 == l) with
  | some (_, p, bus) =>
    let part := linePart a bs l
    (emit x.1 (.hostWrite p (bus + (part.1 - l)) part.2 (poison l)), x.2)
  | none => writeLine initFab .fi a bs poison x l

/-- A write by a Fabric Interface of what a packet brought, under the grants of the packet's check. -/
def landSpan (targets : List HostGrant) (s : State) (a : Nat) (bs : Bytes) (poison : Nat → Bool) : State × Option Status :=
  (linesOf a bs.length).foldl (landLineTo targets a bs poison) (s, none)

/-- Segment `j` lands in the member's destination: the state and a failure of the write. -/
def landSeg (targets : List HostGrant) (s : State) (c : Coll) (j : Nat) (bs : Bytes) (poison : Bool) : State × Option Status :=
  let sp := mySpan c
  let a := segAddr (coDst c.desc) sp.2 (j - sp.1)
  let x := landSpan targets s a.1 (bs.take 2048) (fun _ => poison)
  if coMx c.desc then
    let y := landSpan targets x.1 a.2 ((bs.drop 2048).take 64) (fun _ => poison)
    (y.1, x.2.orElse (fun _ => y.2))
  else x

/-- The lines of `n` bytes at `a` written as poisoned. -/
def fiPoison (s : State) (a n : Nat) : State :=
  (linesOf a n).foldl (fun x l =>
    let part := linePart a (memRead x.mem a n) l
    fiWrite x part.1 part.2 true) s

/-! ## Values of a segment (R455) -/

/-- The wire type MXFP8-E5M2: E8M0 blocks of 32, MX, RNE, nonsat 1. -/
def coMxFmt : FmtWord := fmtWord 0x2026

/-- A binary32 code with its NaN in the one form that R77 gives. -/
def posNan (x : Nat) : Nat := match ffDecode f32F x with | .nan => ffNan f32F | _ => x

/-- The words of a segment: binary32 codes under R77, or INT32. -/
def segWords (d bs : Bytes) : List Nat :=
  match coType d with
  | 1 => (List.range 1024).map (fun i => bf16To32 (le bs (2 * i) 2))
  | 2 => (List.range 2048).map (fun i => widen 6 0 (byteAt bs i).toNat (byteAt bs (2048 + i / 32)).toNat 0)
  | 0 => (List.range 512).map (fun i => posNan (le bs (4 * i) 4))
  | _ => (List.range 512).map (fun i => le bs (4 * i) 4)

/-- One step of a combination (R455 item 2). -/
def combineWord (d : Bytes) (x y : Nat) : Nat :=
  if coType d = 3 then
    match coRedop d with
    | 0 => (x + y) % 2 ^ 32
    | 1 => if sext 32 x < sext 32 y then y else x
    | _ => if sext 32 y < sext 32 x then y else x
  else
    match coRedop d with
    | 0 => (ffAdd f32F x y).code
    | 1 => (ffMnx false f32F x y).code
    | _ => (ffMnx true f32F x y).code

/-- Two lists of words combined. -/
def combineWords (d : Bytes) (xs ys : List Nat) : List Nat := xs.zipWith (combineWord d) ys

/-- The mean (R455 item 3). For INT32 the rule states no result: a free value. -/
def meanWord (d : Bytes) (n x : Nat) : Nat :=
  if coType d = 3 then (Config.int32Mean (BitVec.ofNat 32 x) n).toNat else (ffDiv f32F x (ffOfInt f32F n 0).code).code

/-- The words of a segment rounded once into the wire type (R455 item 4). -/
def segBytes (d : Bytes) (ws : List Nat) : Bytes :=
  match coType d with
  | 1 => (ws.map (fun w => leBytes 2 (toBf16 false true 0 w).1)).flatten
  | 2 =>
    let os := (blocks32 (ws.map (fun w => ({ x := w } : ConvIn))) 64).map (convBlock coMxFmt none)
    ((os.map (·.codes)).flatten).map (BitVec.ofNat 8) ++ os.map (fun o => BitVec.ofNat 8 o.scale)
  | _ => (ws.map (leBytes 4)).flatten

/-- The words of a whole buffer of `n` segments. -/
def bufWords (d bs : Bytes) (n : Nat) : List (List Nat) :=
  (List.range n).map (fun i =>
    segWords d ((bs.drop (2048 * i)).take 2048 ++ (bs.drop (2048 * n + 64 * i)).take 64))

/-- A buffer of segments from its words, elements first and then scales. -/
def wordsBuf (d : Bytes) (ws : List (List Nat)) : Bytes :=
  let bs := ws.map (segBytes d)
  (bs.map (fun b => b.take 2048)).flatten ++ (if coMx d then (bs.map (fun b => b.drop 2048)).flatten else [])

/-- A segment that no contributor reaches: zero codes under the scale of R88. -/
def zeroSeg (d : Bytes) : Bytes := zeroBytes 2048 ++ (if coMx d then List.replicate 64 0x7F else [])

/-! ## Ends of an op (R391, R463, R470, R471, R475) -/

/-- The work of a fabric or collective op ends with a status. -/
def ownerEnd (s : State) (o : OpOwner) (st : Status) : State :=
  match o with
  | .io id p i => endIo s id p i st
  | .fired k =>
    { s with coll := { s.coll with firedOps := s.coll.firedOps.map (fun f =>
        if f.id = k ∧ f.ended = none then { f with ended := some st } else f) } }

/-- The part of a destination chunk (R462). -/
def chunkPart (total i : Nat) : Nat := i / max 1 (cdiv total 16)

/-- Destination chunks of a member. -/
def dstChunks (sp : Nat × Nat) : Nat := if sp.2 = 0 then 0 else (sp.1 + sp.2 - 1) / 32 - sp.1 / 32 + 1

/-- Bits of failed parts. -/
def partBits (ps : List Nat) : Nat := ps.foldl (fun m p => m ||| 2 ^ (min p 15)) 0

/-- The result record and bitmap (R470). -/
def collResult (s : State) (c : Coll) (st : Status) (parts : Nat) : State :=
  let r := c.comm
  let m := cmMembers r
  let cs := if c.closed then c.contribs else if coDeadline c.desc then [] else List.range m
  let body := leBytes 2 (statusCode st) ++ leBytes 2 parts ++ leBytes 4 c.n ++ leBytes 2 cs.length ++
    [BitVec.ofNat 8 (b2n c.endPoint + 2 * b2n c.carried + 4 * b2n c.snapshot), 0] ++
    leBytes 4 ((c.closedAt - c.started) / 1000)
  let map := leBytes (4 * cdiv m 32) (cs.foldl (fun v k => v ||| 2 ^ k) 0)
  fiWrite s (coResult c.desc) (body ++ zeroBytes (64 - body.length) ++ map) false

/-- The communicator and the low bits of seq that a collective packet names (R458). -/
def earlyComm (e : EarlyPkt) : Nat := le e.packet 50 2
def earlySeq (e : EarlyPkt) : Nat := le e.packet 52 2

/-- Whether a packet that waits is to write lines that the Window Table granted: CLOSE writes none, and reduction memory
needs no grant (R458, R490). -/
def earlyGranted (e : EarlyPkt) : Bool :=
  pkKind e.packet != 11 && (linesOf (pkAddr e.packet) (pkPlen e.packet)).any (fun l => region l != .red)

/-- Whether a line granted before `mark` has not landed: one of a packet or of a read that waits for PCIe, or of a packet that
waits for its collective (R424, R494). -/
def oldLines (s : State) (mark : Nat) : Bool :=
  s.fab.posts.any (fun h => decide (h.id < mark)) || s.fab.fetches.any (fun h => decide (h.id < mark)) ||
  s.coll.early.any (fun e => decide (e.id < mark) && earlyGranted e)

/-- A collective leaves the table with its status, and the packets that waited for it with it. -/
def closeColl (s : State) (c : Coll) (st : Status) (parts : Nat) : State :=
  let s1 := if c.claimed then markSlots s c.first (coSlots c.desc) false else s
  let s2 := collResult s1 c st parts
  let s3 := { s2 with coll := { s2.coll with
    colls := s2.coll.colls.filter (·.id != c.id),
    early := s2.coll.early.filter (fun e => !(earlyComm e == coComm c.desc && earlySeq e == coSeq c.desc % 65536)) } }
  ownerEnd s3 c.owner st

/-- A collective packet of this member (R458): no data of its own. -/
def collPkt (c : Coll) (dst kind item addr : Nat) (payload : Bytes) (poison : Bool) : PktSpec :=
  { pktPlain dst 3 kind payload.length addr with
    poison := if poison then 2 ^ (cdiv payload.length 64) - 1 else 0,
    kindBytes := crcBytes (coHash c.desc) ++ leBytes 2 (coComm c.desc) ++ leBytes 2 (coSeq c.desc % 65536) ++
      leBytes 2 item }

/-- The FI that a packet to a node leaves through; FI 0 where no route names one. -/
def fiFor (s : State) (node : Nat) : Nat := (routeOf s node).getD 0

/-- A collective packet to the member of a rank. -/
def collSend (s : State) (c : Coll) (rank kind item addr : Nat) (payload : Bytes) (poison : Bool := false) : State :=
  let node := mbNode (member s c.comm rank)
  injectPlain s (fiFor s node) (collPkt c node kind item addr payload poison) payload (some (.coll c.id))

/-- Every line of a member's destination written as poisoned (R463 item 2). -/
def poisonDst (s : State) (c : Coll) : State :=
  let r := c.comm
  let m := cmMembers r
  if coOp c.desc = 6 then fiPoison s (coDst c.desc) (m * coLen c.desc)
  else fiPoison s (coDst c.desc) (bufLen c.desc (dstSpan c.desc m (cmRank r)).2)

/-- Every part of a member's destination. -/
def allParts (c : Coll) : Nat :=
  let r := c.comm
  let m := cmMembers r
  if coOp c.desc = 6 then 2 ^ (min 16 m) - 1
  else
    let n := dstChunks (dstSpan c.desc m (cmRank r))
    partBits ((List.range n).map (chunkPart n))

/-- A member stops sending: its packets of the collective that wait are gone (R463 item 1). -/
def stopColl (s : State) (id : Nat) : State := dropFabric s (· == .coll id)

/-- What an abort does at a member, items 1 to 4 of R463. -/
def abortHere (s : State) (c : Coll) (st : Status) : State :=
  let s1 := { s with coll := { s.coll with aborted := satAdd s.coll.aborted 1 } }
  closeColl (poisonDst s1 c) c st (allParts c)

/-- An ABORT has come from another member (R463). -/
def abortedBy (s : State) (c : Coll) (st : Status) : State := abortHere (stopColl s c.id) c st

/-- This member aborts a collective: ABORT goes to every other member in rank order (R463). -/
def abortColl (s : State) (id : Nat) (st : Status) : State :=
  match getColl s id with
  | none => s
  | some c =>
    let r := c.comm
    let s0 := if st = .mismatch then { s with coll := { s.coll with mismatch := satAdd s.coll.mismatch 1 } } else s
    abortHere ((List.range (cmMembers r)).foldl (fun x k =>
      if k = cmRank r then x else collSend x c k 12 (statusCode st) 0 []) (stopColl s0 id)) c st

/-- Every open collective of a phase, or of a whole stream, aborts with TIMEOUT (R465). -/
def abortCollsOf (s : State) (stream : Nat) (phase : Option Nat) : State :=
  ((s.coll.colls.filter (fun c => c.stream == stream && (phase.isNone || phase == some c.phase))).map (·.id)).foldl
    (fun x id => abortColl x id .timeout) s

end Sys2Proof.Machine
end

