-- ==== Sys2Proof/Machine/Crypto.lean ====
section
/-! DEFINITION. SHAKE256 and KMAC256 (15_security.md, the table of algorithms; FIPS 202, SP 800-185). -/

namespace Sys2Proof.Machine

/-- A 64-bit lane rotated left. -/
def rotl64 (v n : Nat) : Nat := ((v <<< n) ||| (v >>> (64 - n))) % 2 ^ 64

/-- The parity of column `x`; lane (x, y) stands at x + 5y. -/
def columnParity (a : List Nat) (x : Nat) : Nat := ((List.range 5).map (fun y => a.getD (x % 5 + 5 * y) 0)).foldl Nat.xor 0

/-- Step theta: each lane takes the parities of the columns beside its own. -/
def theta (a : List Nat) : List Nat :=
  let p := (List.range 5).map (columnParity a)
  a.mapIdx (fun i v => v ^^^ (p.getD ((i + 4) % 5) 0 ^^^ rotl64 (p.getD ((i + 1) % 5) 0) 1))

/-- Steps rho and pi as one walk of 24 lanes: the lane at (x, y), the `t`-th of the walk, is rotated by the `t + 1`-th
triangular number and moves to (y, 2x + 3y), from where the walk goes on. -/
def rhoPiFrom (a : List Nat) : Nat → Nat → Nat → List Nat → List Nat
  | 0, _, _, b => b
  | left + 1, x, y, b =>
    let t := 23 - left
    let y' := (2 * x + 3 * y) % 5
    rhoPiFrom a left y y' (b.set (y + 5 * y') (rotl64 (a.getD (x + 5 * y) 0) ((t + 1) * (t + 2) / 2 % 64)))

/-- Step chi, along each row of five lanes. -/
def chi (b : List Nat) : List Nat :=
  b.mapIdx (fun i v =>
    let row := i / 5 * 5
    v ^^^ ((2 ^ 64 - 1 - b.getD (row + (i + 1) % 5) 0) &&& b.getD (row + (i + 2) % 5) 0))

/-- One step of the shift register that gives the bits of the round constants: x^8 + x^6 + x^5 + x^4 + 1. -/
def constStep (r : Nat) : Nat := if r < 128 then 2 * r else (2 * r - 256) ^^^ 0x71

/-- The constant of a round, whose bits at 2^j - 1 are the next seven of the register, and the register after it. -/
def roundConst (r : Nat) : Nat × Nat :=
  (List.range 7).foldl (fun (p : Nat × Nat) j => (p.1 + p.2 % 2 * 2 ^ (2 ^ j - 1), constStep p.2)) (0, r)

/-- One round of Keccak-f[1600] on the lanes and the register of round constants. -/
def keccakRound (p : List Nat × Nat) : List Nat × Nat :=
  let k := roundConst p.2
  let t := theta p.1
  let e := chi (rhoPiFrom t 24 1 0 t)
  (e.set 0 (e.getD 0 0 ^^^ k.1), k.2)

/-- Keccak-f[1600]: 24 rounds. -/
def keccakF (a : List Nat) : List Nat := (Nat.repeat keccakRound 24 (a, 1)).1

/-- Bytes absorbed at once by SHAKE256. -/
def shakeRate : Nat := 136

/-- One block of the rate absorbed. -/
def absorb (a : List Nat) (blk : Bytes) : List Nat :=
  keccakF ((List.range 25).map (fun i => a.getD i 0 ^^^ le blk (8 * i) 8))

/-- The padded message with a domain suffix. -/
def keccakPad (suffix : Nat) (msg : Bytes) : Bytes :=
  let n := shakeRate - msg.length % shakeRate
  if n = 1 then msg ++ [BitVec.ofNat 8 (suffix + 0x80)]
  else msg ++ [BitVec.ofNat 8 suffix] ++ zeroBytes (n - 2) ++ [0x80]

/-- The blocks of a padded message absorbed in turn. -/
def absorbAll : Nat → List Nat → Bytes → List Nat
  | 0, a, _ => a
  | n + 1, a, bs => absorbAll n (absorb a (bs.take shakeRate)) (bs.drop shakeRate)

/-- Output blocks squeezed in turn. -/
def squeeze : Nat → List Nat → Bytes
  | 0, _ => []
  | n + 1, a => (a.take 17).flatMap (leBytes 8) ++ squeeze n (keccakF a)

/-- The sponge with capacity 512. -/
def keccak512 (suffix : Nat) (msg : Bytes) (outLen : Nat) : Bytes :=
  let p := keccakPad suffix msg
  (squeeze (cdiv outLen shakeRate) (absorbAll (p.length / shakeRate) (List.replicate 25 0) p)).take outLen

/-- SHAKE256 with an output of `n` bytes. -/
def shake256 (msg : Bytes) (n : Nat := 64) : Bytes := keccak512 0x1F msg n

/-- The bytes of a number, highest first, at least one. -/
def beBytes (v : Nat) : Bytes := (leBytes (max 1 ((Nat.log2 v) / 8 + 1)) v).reverse

/-- left_encode of SP 800-185. -/
def leftEncode (v : Nat) : Bytes := let b := beBytes v; BitVec.ofNat 8 b.length :: b
/-- right_encode. -/
def rightEncode (v : Nat) : Bytes := let b := beBytes v; b ++ [BitVec.ofNat 8 b.length]
/-- encode_string. -/
def encodeString (s : Bytes) : Bytes := leftEncode (8 * s.length) ++ s
/-- bytepad. -/
def bytepad (x : Bytes) (w : Nat) : Bytes :=
  let z := leftEncode w ++ x
  z ++ zeroBytes (roundUp z.length w - z.length)

/-- The bytes of an ASCII name. -/
def ascii (s : String) : Bytes := s.toList.map (fun c => BitVec.ofNat 8 c.toNat)

/-- KMAC256 with an output of `n` bytes. -/
def kmac256 (key msg : Bytes) (n : Nat) (custom : String) : Bytes :=
  let head := bytepad (encodeString (ascii "KMAC") ++ encodeString (ascii custom)) shakeRate
  keccak512 0x04 (head ++ bytepad (encodeString key) shakeRate ++ msg ++ rightEncode (8 * n)) n

end Sys2Proof.Machine
end

