-- ==== Sys2Proof/Machine/Queue.lean ====
section
/-! DEFINITION. Queues: completion records, doorbell words, descriptors and their keys, claims and reassignment
(11_command_model.md R354 to R372, R401 to R403; 15_security.md R507 to R511). -/

namespace Sys2Proof.Machine

/-! ## Rings (R356, R357) -/

/-- Entries of a ring from its register word. -/
def ringLen (w : BitVec 64) : Nat := 2 ^ (6 + min 10 (bits w.toNat 0 4))
/-- loc = 1: a global address. -/
def ringLoc (w : BitVec 64) : Bool := w.getLsbD 4
/-- The ring base. -/
def ringBase (w : BitVec 64) : Nat := w.toNat / 4096 * 4096
/-- The doorbell word's address. -/
def dbAddr (w : BitVec 64) : Nat := w.toNat / 8 * 8

/-- Records held for a full completion ring or an orphaned queue, with the count of space in the ring (R370). -/
def cqSpace (q : Queue) : Nat := ringLen q.cq - (q.cqTail - q.cqHead).toNat

/-- The queue enters error (R361). -/
def queueError (s : State) (n : Nat) : State :=
  let q := getQueue s n
  if q.err then s else raiseEvent (setQueue s n { q with err := true }) .queueErr 3 n

/-- The node of a global address, and its local part (R35). -/
def gNode (a : Nat) : Nat := bits a 48 16
/-- The local part. -/
def gLocal (a : Nat) : Nat := bits a 0 48

/-- Whether the command processor reaches a line for rings and doorbell words: module DRAM and host windows (R36). -/
def cmdReaches (l : Nat) : Bool := region l == .dram || region l == .host

/-- Whether the Window Table grants the command processor `n` bytes at a local address (R490). -/
def cmdGrants (s : State) (write : Bool) (a n : Nat) : Bool :=
  (linesOf a n).all (fun l => (wtLookup s initCmd write 0 l).isSome &&
    (region l != .host || (hostTarget s initCmd write 0 l).isSome))

/-- The denied lines of an access by the command processor are logged. -/
def cmdDeny (s : State) (write : Bool) (a n : Nat) : State :=
  (linesOf a n).foldl (fun x l =>
    if (wtLookup x initCmd write 0 l).isSome && (region l != .host || (hostTarget x initCmd write 0 l).isSome) then x
    else denyLine x initCmd write l) s

/-- A write by the command processor at a global address: none where a window denies it (R356), and discarded where R36
does not let the command processor reach (R37). -/
def cmdWrite (s : State) (a : Nat) (bs : Bytes) : State × Bool :=
  if localNode s (gNode a) then
    if cmdGrants s true (gLocal a) bs.length then
      ((linesOf (gLocal a) bs.length).foldl (fun x l =>
        let part := linePart (gLocal a) bs l
        if region l = .host then
          match hostTarget x initCmd true 0 l with
          | some (p, bus) => emit x (.hostWrite p (bus + (part.1 - l)) part.2 false)
          | none => x
        else if cmdReaches l && spanExists x part.1 part.2.length then setMem x (memWrite x.mem part.1 part.2 false) else x) s,
        true)
    else (cmdDeny s true (gLocal a) bs.length, false)
  else
    (injectPlain s (fiFor s (gNode a)) (pktPlain (gNode a) 0 0 bs.length (gLocal a)) bs none, true)

/-! ## Completion records (R368 to R371, R401) -/

/-- The 16 bytes of a record (R368). -/
def recordBytes (n : Nat) (q : Queue) (r : Record) : Bytes :=
  [BitVec.ofNat 8 n, BitVec.ofNat 8 (b2n q.phase + 2 * b2n r.split + 4 * b2n r.late)] ++
  leBytes 2 (r.index.toNat % 65536) ++ leBytes 2 (statusCode r.status) ++ leBytes 2 r.parts.toNat ++ leBytes 8 r.timestamp

/-- A record is written in its ring, and its interrupt sent (R369, R371). -/
def putRecord (s : State) (n : Nat) (r : Record) : State :=
  let q := getQueue s n
  let i := q.cqTail.toNat % ringLen q.cq
  let a := ringBase q.cq + 16 * i
  let q1 := { q with cqTail := q.cqTail + 1, phase := if i + 1 = ringLen q.cq then !q.phase else q.phase }
  let b := recordBytes n q r
  if ringLoc q.cq then
    let w := cmdWrite (setQueue s n q1) a b
    if w.2 then w.1 else queueError w.1 n
  else
    match ownerPort q.owner with
    | none => setQueue s n q1
    | some p =>
      let s1 := emit (setQueue s n q1) (.hostWrite p a b false)
      if r.irq then sendMsix s1 p q.msix.toNat else s1

/-- Whether the owner of a queue is a lost port (R401). -/
def ownerLost (s : State) (q : Queue) : Bool :=
  match ownerPort q.owner with
  | some p => (getPort s p).lost || !(getPort s p).linkUp
  | none => false

/-- A record is written, held for want of room, held for an orphaned queue, or discarded (R370, R401). -/
def postRecord (s : State) (n : Nat) (r : Record) : State :=
  let q := getQueue s n
  if q.orphaned then
    if q.held.length < 64 then setQueue s n { q with held := q.held ++ [r] }
    else { s with cmd := { s.cmd with discarded := satAdd s.cmd.discarded 1 } }
  else if q.held.isEmpty && decide (0 < cqSpace q) then putRecord s n r
  else setQueue s n { q with held := q.held ++ [r] }

/-- Held records are written in completion order while the ring has room (R370, R402). -/
def flushHeld : Nat → State → Nat → State
  | 0, s, _ => s
  | k + 1, s, n =>
    let q := getQueue s n
    match q.held with
    | [] => s
    | r :: rs =>
      if !q.orphaned && decide (0 < cqSpace q) then flushHeld k (putRecord (setQueue s n { q with held := rs }) n r) n else s

/-- Every held record that has room is written. -/
def flushQueueHeld (s : State) (n : Nat) : State := flushHeld (getQueue s n).held.length s n

/-- A fetched descriptor of a queue by its number. -/
def getDesc (s : State) (n uid : Nat) : Option Fetched := (getQueue s n).fetched.find? (·.uid == uid)

/-- The oldest started descriptor of a queue that has a ring index and an opcode. -/
def findStarted (s : State) (n op : Nat) (i : BitVec 32) : Option Fetched :=
  (getQueue s n).fetched.find? (fun f => f.index == i && f.started && le f.desc 0 2 == op)

/-- The queue that the command processor has served last (R367). -/
def noteServed (s : State) (n : Nat) : State := { s with cmd := { s.cmd with lastServed := n } }

/-- Completion of a descriptor: it leaves its queue, is counted, and its record goes out. One that completes as it starts
is its queue's turn (R367). -/
def completeFull (s : State) (n : Nat) (f : Fetched) (st : Status) (split late : Bool) (parts : BitVec 16)
    (effect : Bool) : State :=
  let q := getQueue s n
  let s1 := setQueue (if f.started then s else noteServed s n) n { q with fetched := q.fetched.filter (·.uid != f.uid) }
  let s2 := { s1 with cmd := { s1.cmd with completed := satAdd s1.cmd.completed 1,
                                           rejected := if effect then s1.cmd.rejected else satAdd s1.cmd.rejected 1 } }
  postRecord s2 n { index := f.index, status := st, split, late, parts, timestamp := s.nowNs, irq := flag f.desc 2 1 }

/-- Completion with a status after its effect. -/
def completeDesc (s : State) (n : Nat) (f : Fetched) (st : Status) : State := completeFull s n f st false false 0 true

/-- Completion without effect (R365). -/
def refuseDesc (s : State) (n : Nat) (f : Fetched) (st : Status) : State := completeFull s n f st false false 0 false

/-! ## Keys (R508 to R511) -/

/-- Fields of a descriptor (R363). -/
def dsOp (d : Bytes) : Nat := le d 0 2
def dsKeyed (d : Bytes) : Bool := flag d 2 0
def dsFence (d : Bytes) : Bool := flag d 2 2
def dsCounter (d : Bytes) : Nat := le d 8 8
def dsTag (d : Bytes) : Bytes := (d.drop 48).take 16

/-- The key that an opcode needs: 0 none, 1 OPERATOR, 2 ROOT (R364, R511). -/
def keyNeed (op : Nat) : Nat :=
  match op with
  | 0x0010 => 1 | 0x0011 => 1 | 0x0020 => 1 | 0x0109 => 1
  | 0x0104 => 2 | 0x0105 => 2 | 0x0106 => 2 | 0x0108 => 2
  | _ => 0

/-- The tag of a descriptor under a key (R508). -/
def descTag (key : Bytes) (n : Nat) (d payload : Bytes) : Bytes :=
  kmac256 key (leBytes 8 Config.deviceSerial.toNat ++ leBytes 2 n ++ d.take 48 ++ payload) 16 "ZV-OM4096 CMD"

/-- The key under which a tag matches: 2 ROOT, 1 OPERATOR, 0 neither (R510 step 2). -/
def keyOf (s : State) (tagOf : Bytes → Bytes) (tag : Bytes) : Nat :=
  match s.sec.rootKey with
  | some k => if tagOf k = tag then 2 else
    (match s.sec.opKey with | some o => if tagOf o = tag then 1 else 0 | none => 0)
  | none => (match s.sec.opKey with | some o => if tagOf o = tag then 1 else 0 | none => 0)

/-- Entries of a WINDOW_SET. -/
def wsCount (d : Bytes) : Nat := field d 22 0 3 + 1

/-- A failure of R510 is counted and reported. -/
def keyFailure (s : State) (n : Nat) (st : Status) : State :=
  let c := s.sec
  raiseEvent { s with sec := if st = .counterStale then { c with stale := satAdd c.stale 1 }
                             else { c with keyFails := satAdd c.keyFails 1 } } st 3 n

/-- R510: the state, the failure, and the payload that WINDOW_SET carries. -/
def verifyDesc (s : State) (n : Nat) (d : Bytes) : State × Option Status × Bytes :=
  let need := keyNeed (dsOp d)
  if !(dsKeyed d) then
    if need = 0 then (s, none, []) else (keyFailure s n .keyFail, some .keyFail, [])
  else
    let r := if dsOp d = 0x0105 then read s .dram (le d 16 6) (32 * wsCount d) else { data := [], err := none }
    match r.err with
    | some e => (s, some e, [])
    | none =>
      let k := keyOf s (fun key => descTag key n d r.data) (dsTag d)
      if k = 0 then (keyFailure s n .keyFail, some .keyFail, [])
      else if dsCounter d ≤ (smGet 0 s.sec.qctr n).toNat then (keyFailure s n .counterStale, some .counterStale, [])
      else if k < need then (keyFailure s n .keyFail, some .keyFail, [])
      else
        ({ s with sec := { s.sec with qctr := smSet 0 s.sec.qctr n (BitVec.ofNat 64 (dsCounter d)) } }, none, r.data)

/-! ## Checks of a descriptor (R363 to R365) -/

/-- The body fields of an opcode: its (first bit, width) list; none for an invalid opcode. -/
def bodyFields (op : Nat) : Option (List (Nat × Nat)) :=
  match op with
  | 0x0000 => some []
  | 0x0001 => some [fld 16 6]
  | 0x0002 => some [fld 16 1, fld 18 2, fldBits 20 0 1]
  | 0x0003 => some [fld 16 20, fldBits 36 0 1]
  | 0x0010 => some [fld 16 4]
  | 0x0011 => some [fld 16 4]
  | 0x0020 => some [fld 16 1, fldBits 17 0 2]
  | 0x0030 => some [fld 16 6, fld 24 6, fldBits 32 0 5, fldBits 34 0 12, fldBits 34 15 1, fld 36 2]
  | 0x0100 => some [fld 16 6, fld 24 24]
  | 0x0101 => some [fld 16 6]
  | 0x0102 => some [fld 16 6]
  | 0x0103 => some [fld 16 6]
  | 0x0104 => some [fld 16 1]
  | 0x0105 => some [fld 16 6, fldBits 22 0 3, fldBits 24 0 10]
  | 0x0106 => some [fldBits 16 0 2, fld 18 2]
  | 0x0107 => some []
  | 0x0108 => some []
  | 0x0109 => some [fld 16 6]
  | _ => none

/-- Whether an opcode runs on a queue of the kind: service queues take NOP and SERVICE_REQUEST (R364). -/
def kindAllows (kind : Bool) (op : Nat) : Bool :=
  if op = 0 then true else if kind then op == 0x30 else op != 0x30

/-- R365 and R18: an unkeyed descriptor carries no counter and no tag. -/
def descCheck (q : Queue) (d : Bytes) : Check :=
  match bodyFields (dsOp d) with
  | none => some .badOpcode
  | some fs =>
    firstFail [
      failIf (!(kindAllows q.kind (dsOp d))) .badOpcode,
      failIf (!(reservedZero d ([fld 0 2, fldBits 2 0 3] ++ (if dsKeyed d then [fld 8 8, fld 48 16] else []) ++ fs)))
        .badReserved]

/-! ## Doorbells and fetching (R358 to R362) -/

/-- The poll interval in nanoseconds. -/
def pollNs (s : State) : Nat := 1000 * max 1 (bits s.cmd.cfg.toNat 0 12)

/-- Whether a queue's doorbell word lies in a peer module (R356). -/
def peerDoorbell (s : State) (q : Queue) : Bool := ringLoc q.sq && !(localNode s (gNode (dbAddr q.db)))

/-- Whether its submission ring does: the two addresses are set apart from each other. -/
def peerRing (s : State) (q : Queue) : Bool := ringLoc q.sq && !(localNode s (gNode (ringBase q.sq)))

/-- Whether a read of a peer's doorbell word or ring is out, or what it answered waits. -/
def peerBusy (s : State) (n : Nat) (desc : Bool) : Bool :=
  fabBusy s (.cmd n desc) || s.cmd.peerData.any (fun d => d.queue == n && d.desc == desc)

/-- What a peer answered to a read for a queue, and the state without it. -/
def takePeer (s : State) (n : Nat) (desc : Bool) : State × Option PeerData :=
  let mine := fun (d : PeerData) => d.queue == n && d.desc == desc
  ({ s with cmd := { s.cmd with peerData := s.cmd.peerData.filter (fun d => !(mine d)) } }, s.cmd.peerData.find? mine)

/-- A READ_REQ for `len` bytes at a peer's global address (R356, R431). The answer goes to the command processor and to no
memory: it is sent with receive address 0 (DESIGN CHOICE, log 91). -/
def askPeer (s : State) (n : Nat) (desc : Bool) (a len : Nat) : State :=
  let h := { pktPlain (gNode a) 0 1 len (gLocal a) with kindBytes := leBytes 8 (s.fab.nodeId.toNat * 2 ^ 48) }
  injectPkt s (fiFor s (gNode a)) (gNode a) 0 (buildPkt s.fab.nodeId.toNat h []) (some 0) (classNs s 1 0) (some (.cmd n desc))

/-- Nothing that a peer may still answer for a queue is waited for. -/
def forgetPeer (s : State) (n : Nat) : State :=
  let s1 := dropFabric s (fun o => match o with | .cmd k _ => k == n | _ => false)
  { s1 with cmd := { s1.cmd with peerData := s1.cmd.peerData.filter (·.queue != n) } }

/-- A read of a queue's doorbell word is issued; one already in flight serves. -/
def readDoorbell (s : State) (n : Nat) : State :=
  let q := getQueue s n
  if !q.en || q.orphaned then s
  else if peerDoorbell s q then (if peerBusy s n false then s else askPeer s n false (dbAddr q.db) 8)
  else if s.cmd.dbReads.contains n then s
  else emit { s with cmd := { s.cmd with dbReads := s.cmd.dbReads ++ [n] } } (.doorbellRead n)

/-- Queue numbers. -/
def allQueues : List Nat := List.range 256

/-- A wake source while an entry to Closed or Parked runs, or in Closed (R558, R559). -/
def wakeIfAsleep (s : State) : State := if s.pwr.entry.isSome || s.pwr.state == 3 then wakeUp s else s

/-- CMD_WAKE (R360): a write in BAR2 of a port. During an entry to Closed or Parked it is a wake source (R558). -/
def wakeWrite (p : HPort) (value : BitVec 32) (s : State) : State :=
  let mine := fun n => (getQueue s n).owner == portOwner p
  let s1 := wakeIfAsleep s
  if value.getLsbD 8 then (allQueues.filter mine).foldl readDoorbell s1
  else let n := bits value.toNat 0 8; if mine n then readDoorbell s1 n else s1

/-- CMD_WAKE (R360). In Closed it is a wake source and is served after the exit (R559). -/
def execCmdWake (port : HPort) (value : BitVec 32) (s : State) : Res :=
  .next (match hostPath s port with
    | .served => wakeWrite port value s
    | .held => holdAccess s (.wake port value)
    | .none => s)

/-- DOORBELL_POLL (R360): the poll interval has passed. -/
def execDoorbellPoll (s : State) : Res :=
  if s.cmd.lastPoll + pollNs s ≤ s.nowNs then
    let due := allQueues.filter (fun n => let q := getQueue s n; q.db.getLsbD 0 || !q.held.isEmpty)
    .next (due.foldl readDoorbell { s with cmd := { s.cmd with lastPoll := s.nowNs } })
  else .next s

/-- Descriptors that the queue may fetch now: covered by a doorbell word, at most eight in one read. -/
def fetchable (q : Queue) : Nat := if q.en && !q.orphaned && !q.err then min 8 (q.tail - q.head).toNat else 0

/-- One read of a peer's ring is issued for the entries that may be fetched, up to the ring's end. -/
def askDescs (s : State) (n : Nat) : State :=
  let q := getQueue s n
  let at_ := q.head.toNat % ringLen q.sq
  let k := min (fetchable q) (ringLen q.sq - at_)
  if k = 0 || !(peerRing s q) || peerBusy s n true then s
  else askPeer s n true (ringBase q.sq + 64 * at_) (64 * k)

/-- A doorbell word arrives (R358, R361, R370): held records that have room are written, in error too. One that shows new
descriptors is a wake source (R559). -/
def doorbellWord (s : State) (n : Nat) (w : BitVec 64) : State :=
  let q := getQueue s n
  let q1 := { q with tail := BitVec.ofNat 32 w.toNat, cqHead := BitVec.ofNat 32 (w.toNat / 2 ^ 32) }
  let s1 := setQueue s n q1
  if (q1.tail - q1.head).toNat > ringLen q.sq ∨ (q1.cqTail - q1.cqHead).toNat > ringLen q.cq then
    flushQueueHeld (queueError s1 n) n
  else askDescs (flushQueueHeld (if q1.tail = q1.head then s1 else wakeIfAsleep s1) n) n

/-- The outcome of a read of a ring entry or a doorbell word. -/
inductive RingRd where
  /-- The Window Table does not grant it. -/
  | denied
  /-- What holds it has not brought it. -/
  | gone
  | got (b : Bytes)
  /-- It was read as poisoned, or at an address that is in error. -/
  | bad (st : Status)
  deriving DecidableEq, Repr

/-- What a read answers that came with a command: none inside for a poisoned one. -/
def broughtRd (n : Nat) (x : Option (Option Bytes)) : RingRd :=
  match x with
  | none => .gone
  | some none => .bad .poisoned
  | some (some b) => if b.length = n then .got b else .gone

/-- A read by the command processor of `len` bytes of a loc = 1 ring at a global address of this module, checked by the
Window Table; what a host window holds comes with the command. -/
def ringRead (s : State) (a len : Nat) (brought : Option (Option Bytes)) : RingRd :=
  if !(cmdGrants s false (gLocal a) len) then .denied
  else if region (gLocal a) = .host then broughtRd len brought
  else
    let r := read s .dram (gLocal a) len
    match r.err with
    | some e => .bad e
    | none => .got r.data

/-- DOORBELL_READ (R358, R361, R492): the word of a read in flight is there. A word that lies in module memory is
read there, one that a peer sent is taken as it came; a failed read leaves the queue as it was. -/
def execDoorbellRead (queue : QueueId) (word : Option (BitVec 64)) (s : State) : Res :=
  let n := queue.toNat
  let q := getQueue s n
  let s1 := { s with cmd := { s.cmd with dbReads := s.cmd.dbReads.filter (· != n) } }
  if !q.en || q.orphaned then .next s1
  else if peerDoorbell s q then
    let d := takePeer s n false
    match d.2 with
    | none => .next s
    | some p => if p.poison != 0 || p.data.length != 8 then .next d.1
                else .next (doorbellWord d.1 n (BitVec.ofNat 64 (leNat p.data)))
  else if !(s.cmd.dbReads.contains n) then .next s
  else if ringLoc q.sq then
    match ringRead s1 (dbAddr q.db) 8 (word.map (fun w => some (leBytes 8 w.toNat))) with
    | .denied => .next (queueError (cmdDeny s1 false (gLocal (dbAddr q.db)) 8) n)
    | .got b => .next (doorbellWord s1 n (BitVec.ofNat 64 (leNat b)))
    | .gone => .next s1
    | .bad _ => .next s1
  else match word with
    | some w => .next (doorbellWord s1 n w)
    | none => .next s1

/-- A fetched descriptor that is refused as it is checked: no turn of its queue is used. -/
def refuseFetched (s : State) (n : Nat) (f : Fetched) (st : Status) : State := completeFull s n { f with started := true } st false false 0 false

/-- One descriptor is fetched: verified, checked, and kept or completed without effect (R362, R365, R366, R510). One that
was read as poisoned, or whose address is in error, is refused with the status of its read (R627). -/
def takeDesc (n : Nat) (s : State) (rd : Except Status Bytes) : State :=
  let q := getQueue s n
  let d := rd.toOption.getD []
  let f : Fetched := { uid := s.cmd.nextUid, index := q.head, desc := d, arrival := s.nowNs, started := false, payload := [] }
  let s1 := setQueue { s with cmd := { s.cmd with nextUid := s.cmd.nextUid + 1 } } n
    { q with head := q.head + 1, fetched := q.fetched ++ [f] }
  match rd with
  | .error e => refuseFetched s1 n f e
  | .ok _ =>
    let v := verifyDesc s1 n d
    match v.2.1 with
    | some e => refuseFetched v.1 n f e
    | none =>
      match descCheck q d with
      | some e => refuseFetched v.1 n f e
      | none =>
        let q2 := getQueue v.1 n
        setQueue v.1 n { q2 with fetched := q2.fetched.map (fun g => if g.uid = f.uid then { g with payload := v.2.2 } else g) }

/-- Ring reads in order up to the first that has nothing: the descriptors, and whether the Table denied one. -/
def ringTake : List RingRd → List (Except Status Bytes) × Bool
  | [] => ([], false)
  | .denied :: _ => ([], true)
  | .gone :: _ => ([], false)
  | .got b :: rs => let t := ringTake rs; (.ok b :: t.1, t.2)
  | .bad e :: rs => let t := ringTake rs; (.error e :: t.1, t.2)

/-- The command queues exist while an image is RUNNING or UPDATING, and the command processor stops fetching when the
Control Cluster has stopped (R517, R521, R593). -/
def cmdReady (s : State) : Bool := decide (4 ≤ s.fw.state) && !s.err.fwFatal

/-- What a read of a peer's ring has brought, entry by entry. -/
def peerDescs (p : PeerData) : List RingRd :=
  (List.range (p.data.length / 64)).map (fun i =>
    if bit p.poison i then .bad .poisoned else .got ((p.data.drop (64 * i)).take 64))

/-- DESCRIPTOR_FETCH (R362): descriptors arrive in ring order. Those of a ring in host memory come with the command, a
poisoned one as none; those of a loc = 1 ring in module memory are read there, and a peer's are those it has sent. -/
def execDescriptorFetch (queue : QueueId) (descs : List (Option Bytes)) (s : State) : Res :=
  let n := queue.toNat
  let q := getQueue s n
  let k := if quiescing s || !(cmdReady s) then 0 else fetchable q
  if k = 0 then .next s
  else if peerRing s q then
    let d := takePeer s n true
    match d.2 with
    | none => .next (askDescs s n)
    | some p => .next (askDescs ((ringTake ((peerDescs p).take k)).1.foldl (takeDesc n) d.1) n)
  else if ringLoc q.sq then
    let addr := fun (i : Nat) => ringBase q.sq + 64 * ((q.head.toNat + i) % ringLen q.sq)
    let t := ringTake ((List.range k).map (fun i => ringRead s (addr i) 64 descs[i]?))
    let s1 := t.1.foldl (takeDesc n) s
    .next (if t.2 then queueError (cmdDeny s1 false (gLocal (addr t.1.length)) 64) n else s1)
  else .next ((ringTake ((descs.take k).map (fun d => broughtRd 64 (some d)))).1.foldl (takeDesc n) s)

/-! ## Starting (R367, R370) -/

/-- The security commands (R511). -/
def secCommand (op : Nat) : Bool := op == 0x0010 || op == 0x0011 || op == 0x0020 || decide (0x0100 ≤ op ∧ op ≤ 0x01FF)

/-- Whether security commands wait: during an update (R541), and behind a WINDOW_SET that has not completed (R513). -/
def holdsSec (s : State) (op : Nat) : Bool := secCommand op && (s.fw.state == 5 || s.hif.wtWait.isSome)

/-- The next descriptor of a queue that may start. A full completion ring holds it, but not in error: what has been fetched
then runs to completion (R361, R370). -/
def nextDesc (s : State) (n : Nat) : Option Fetched :=
  let q := getQueue s n
  if !q.held.isEmpty && !q.orphaned && !q.err then none
  else
    match q.fetched.find? (fun f => !f.started) with
    | none => none
    | some f => if (dsFence f.desc && q.fetched.head? != some f) || holdsSec s (dsOp f.desc) then none else some f

/-- The queue whose turn it is: the first ready one after the queue served last, in round-robin order (R367). -/
def servedNext (s : State) : Option Nat :=
  ((List.range 256).map (fun i => (s.cmd.lastServed + 1 + i) % 256)).find? (fun n => (nextDesc s n).isSome)

/-- The next descriptor of a queue whose turn it is, if it carries the opcode. -/
def startDesc (s : State) (n op : Nat) : Option Fetched :=
  if servedNext s = some n then (nextDesc s n).bind (fun f => if dsOp f.desc = op then some f else none) else none

/-- A descriptor has started and has not completed; its queue has been served. -/
def markStarted (s : State) (n : Nat) (f : Fetched) : State :=
  let q := getQueue s n
  setQueue (noteServed s n) n { q with fetched := q.fetched.map (fun g => if g.uid = f.uid then { g with started := true } else g) }

/-- NOP (R364). -/
def execNop (queue : QueueId) (s : State) : Res :=
  match startDesc s queue.toNat 0x0000 with
  | none => .next s
  | some f => .next (completeDesc s queue.toNat f .ok)

/-! ## Queue context registers (R355, R362, R605) -/

/-- busy of CMD_Q_CTL (R362). -/
def queueBusy (q : Queue) : Bool := q.en || !q.fetched.isEmpty

/-- en goes from 0 to 1 (R362, R402, R403): counts restart, held records are written, the doorbell word is read. -/
def enableQueue (s : State) (n : Nat) : State :=
  let q := getQueue s n
  let s1 := setQueue (forgetPeer s n) n { q with
    en := true, head := 0, cqTail := 0, err := false, phase := true, tail := 0, cqHead := 0, orphaned := ownerLost s q }
  readDoorbell (flushQueueHeld s1 n) n

/-- No read of a queue's doorbell word or ring is in flight any more. -/
def stopReads (s : State) (n : Nat) : State :=
  let s1 := forgetPeer s n
  { s1 with cmd := { s1.cmd with dbReads := s1.cmd.dbReads.filter (· != n) } }

/-- en becomes 0: fetching stops. -/
def disableQueue (s : State) (n : Nat) : State := stopReads (setQueue s n { getQueue s n with en := false }) n

/-- A write of CMD_Q_CTL by a port (R355, R362). -/
def writeQueueCtl (p : HPort) (n value : Nat) (s : State) : State :=
  let q := getQueue s n
  let me := portOwner p
  let own := bits value 2 2
  -- a claim gives the port the queue, and the rest of the same write is then its own
  let s1 := if q.owner = 0 ∧ own = me.toNat then setQueue s n { q with owner := me } else s
  let q1 := getQueue s1 n
  if q1.owner ≠ me then s1
  else
    let q2 := { q1 with msix := BitVec.ofNat 8 (bits value 8 8), svc := BitVec.ofNat 8 (bits value 16 8),
                        kind := if queueBusy q1 then q1.kind else bit value 1 }
    let s2 := setQueue s1 n q2
    let claim := q.owner == 0
    let s3 :=
      if claim then s2
      else if bit value 0 then (if q2.en then s2 else enableQueue s2 n)
      else if q2.en then disableQueue s2 n else s2
    let q3 := getQueue s3 n
    if own = 0 ∧ q1.en = false ∧ q3.en = false then setQueue s3 n { q3 with owner := 0 } else s3

/-- The offset of CMD_Q_CTL[n]. -/
def qCtlOff (n : Nat) : Nat := 0x058018 + 32 * n

/-- The CMD_Q_CTL word of a queue as a driver writes it back, with some fields changed. -/
def qCtlWord (q : Queue) (en : Bool) (owner : Nat) : Nat :=
  b2n en + 2 * b2n q.kind + 4 * owner + 256 * q.msix.toNat + 65536 * q.svc.toNat

/-- QUEUE_CLAIM (R355, R605): a write of CMD_Q_CTL whose owner field names the writing port, over a queue without
owner. -/
def execQueueClaim (hport : HPort) (queue : QueueId) (s : State) : Res :=
  let v := qCtlWord (getQueue s queue.toNat) false (portOwner hport).toNat
  .next (hostSetup s hport (qCtlOff queue.toNat) 8 v
    (fun x => if (getQueue x queue.toNat).owner = 0 then writeQueueCtl hport queue.toNat v x else x))

/-- QUEUE_RELEASE (R355): the owning port writes owner 0 while en is 0. -/
def execQueueRelease (hport : HPort) (queue : QueueId) (s : State) : Res :=
  let q := getQueue s queue.toNat
  let v := qCtlWord q q.en 0
  .next (hostSetup s hport (qCtlOff queue.toNat) 8 v (writeQueueCtl hport queue.toNat v))

/-- QUEUE_ENABLE (R362): the owning port sets en, with the kind, vector and service record of the queue. -/
def execQueueEnable (hport : HPort) (queue : QueueId) (kind : Bool) (msix svc : BitVec 8) (s : State) : Res :=
  let q := getQueue s queue.toNat
  let v := qCtlWord { q with kind, msix, svc } true q.owner.toNat
  .next (hostSetup s hport (qCtlOff queue.toNat) 8 v (writeQueueCtl hport queue.toNat v))

/-- QUEUE_DISABLE (R362): the owning port clears en. -/
def execQueueDisable (hport : HPort) (queue : QueueId) (s : State) : Res :=
  let q := getQueue s queue.toNat
  let v := qCtlWord q false q.owner.toNat
  .next (hostSetup s hport (qCtlOff queue.toNat) 8 v (writeQueueCtl hport queue.toNat v))

/-- The queues of a lost port become orphaned (R401). -/
def orphanQueues (s : State) (p : HPort) : State :=
  allQueues.foldl (fun x n =>
    let q := getQueue x n
    if q.owner = portOwner p then stopReads (setQueue x n { q with orphaned := true }) n else x) s

end Sys2Proof.Machine
end

