-- ==== Sys2Proof/Machine/Phases.lean ====
section
/-! DEFINITION. Ends that are not completions: the forced end of a phase, the marking of a core, and the end of a
stream (11_command_model.md R383 to R386; 12_fabric.md R436; 13_collectives.md R475; 01_architecture.md R46 to R48). -/

namespace Sys2Proof.Machine

/-! ## Outputs poisoned (R47, R386) -/

/-- `rows` rows of `len` bytes at a pitch, where a unit reaches them, marked as poisoned. -/
def poisonRows (s : State) (a len rows pitch : Nat) : State :=
  (List.range rows).foldl (fun x i =>
    if spanExists x (a + i * pitch) len then setMem x (poisonSpan x.mem (a + i * pitch) len) else x) s

/-- Elements of a matrix marked as poisoned, and the scales and zero points that its conversion writes (R90). -/
def poisonMat (s : State) (m : Mat) (rows cols : Nat) : State :=
  let d := paddedDims m.fw rows cols
  let s1 := poisonRows s m.base (packedLen m.fw.fmt d.2) d.1 m.pitch
  let g := gridDims m.fw rows cols
  let own := m.fw.smode != 2
  let s2 := if scaled m.fw.fmt && own then poisonRows s1 m.sBase g.2 g.1 m.sPitch else s1
  if isUQ m.fw.fmt && own then poisonRows s2 m.zBase g.2 g.1 m.zPitch else s2

/-- The outputs of a VE op: its output streams, the lines that its scatters have written, and its row-status bytes so far. -/
def poisonVe (s : State) (n : Nat) (v : VeRun) : State :=
  if byteAt v.desc 0 == 0x19 then
    let p := solveParm v.desc
    poisonRows s p.b (4 * p.n * p.r) p.batch p.bStride
  else
    let p := veParm v.desc
    let s1 := (v.streams.drop 4).foldl (fun x b =>
      let r := streamRec b
      if r.kind = 1 then poisonMat x (streamMat r) r.rows r.rowLen else x) s
    let s2 := v.scattered.foldl (fun x l => poisonRows x (64 * l) 64 1 0) s1
    if p.rsEn then poisonRows s2 (coreBase n + p.rsBase) v.rsPos 1 0 else s2

/-- The outputs of a Coelostat op, the block sums and outlier entries of its auxiliary record among them. -/
def poisonCoe (s : State) (n : Nat) (r : OpRun) : State :=
  let p := coeParm r.desc
  let rd := operandRec (coreRead s n p.dst 32).data
  let o := coeOut p
  let ax := coeAux s n p
  let g := gridDims (fmtWord rd.fw) o.1 o.2
  (coeCores n p).foldl (fun x c =>
    let x1 := poisonMat x (matOf c rd false) o.1 o.2
    let x2 := if ax.sumsOut then poisonRows x1 (coreBase c + ax.soBase) (4 * g.2) g.1 ax.soPitch else x1
    if ax.olOut then poisonRows x2 (coreBase c + ax.oloBase) (8 * g.2) g.1 ax.oloPitch else x2) s

/-- The fields of a DMA_COPY (R392). -/
structure DmaParm where
  src : Nat
  dst : Nat
  row : Nat
  rows : Nat
  srcPitch : Nat
  dstPitch : Nat
  deriving DecidableEq, Repr

/-- R392. -/
def dmaParm (d : Bytes) : DmaParm :=
  { src := le d 8 8, dst := le d 16 8, row := bits (le d 24 4) 0 24 + 1, rows := bits (le d 28 4) 0 24 + 1,
    srcPitch := le d 32 4, dstPitch := le d 36 4 }

/-- The outputs of a cluster DMA's copy that lie in this module. -/
def poisonDma (s : State) (r : OpRun) : State :=
  let p := dmaParm r.desc
  if localNode s (gNode p.dst) then poisonRows s (gLocal p.dst) p.row p.rows p.dstPitch else s

/-- The outputs of a CCM op: the rows that a FETCH delivers, or those that an APPEND wrote in its frame. -/
def poisonCcm (s : State) (n : Nat) (r : OpRun) : State :=
  let p := ccmParm r.desc
  if p.func = 1 then
    let k := operandRec (coreRead s n p.kRec 32).data
    let v := operandRec (coreRead s n p.vRec 32).data
    (ccmCores n p).foldl (fun x c =>
      [k, v].foldl (fun y z =>
        poisonRows (poisonRows y (coreBase c + z.elemBase) 128 (16 * p.count) z.elemPitch) (coreBase c + z.scaleBase) 8
          (16 * p.count) z.scalePitch) x) s
  else if p.func = 0 then
    let e := getPage s (pageAddr s p.seq p.page)
    if e.tier = 0 then s
    else (List.range p.count).foldl (fun x i =>
      (rowParts x n p e.tier e.frame i (p.at_ + i)).foldl (fun y w => poisonRows y w.2.1 w.2.2 1 0) x) s
  else s

/-- The outputs of an update pass: the slots that it has written. -/
def poisonMuu (s : State) (run : MuuRun) : State :=
  if run.pass ≠ 2 then s
  else
    let p := muuParm run.desc
    (List.range p.count).foldl (fun x i =>
      let r := muuRec (recAt x p i)
      let e := getSlot x r.tensor
      let g := muuGeom r
      let x1 := if e.sv0 && e.stag0 == run.step then poisonRows x (stateBase r 0) g.stateLen 1 0
        else if e.sv1 && e.stag1 == run.step then poisonRows x (stateBase r 1) g.stateLen 1 0 else x
      if e.cv0 && e.ctag0 == run.step then poisonRows x1 (copyBase r 0) g.copyLen 1 0
      else if e.cv1 && e.ctag1 == run.step then poisonRows x1 (copyBase r 1) g.copyLen 1 0 else x1) s

/-! ## Fabric work given up -/

/-- The local destination of a GET (R430), marked as poisoned. -/
def poisonGet (s : State) (d : Bytes) : State :=
  if byteAt d 0 == 0x41 && !(flag d 32 3) then fiPoison s (le d 8 6) (le d 24 4) else s

/-! ## A core's lists dropped (R47, R386) -/

/-- Whether a token is of a phase: of any phase of the stream when none is named. -/
def ofPhase (stream : Nat) (phase : Option Nat) (t : Token) : Bool :=
  t.stream == stream && (phase.isNone || phase == some t.phase)

/-- Every op in progress or paused on core `n` that `mine` names ends with its outputs poisoned and no signal; the counts of
an LPA or Coelostat op go into its layer record, as it completes (R188). The tokens of their lists. -/
def endCoreOps (s : State) (n : Nat) (mine : Token → Bool) : State × List Token :=
  let c := getCore s n
  let lpa := c.lpa.filter (fun r => mine r.tok)
  let lpaP := c.lpaPaused.filter (fun r => mine r.tok)
  let ve := c.ve.filter (fun r => mine r.tok)
  let veP := c.vePaused.filter (fun r => mine r.tok)
  let coe := c.coe.filter (fun r => mine r.tok)
  let dma := c.dma.filter (fun r => mine r.tok)
  let ccm := c.ccm.filter (fun r => mine r.tok)
  let s1 := (match lpa with | some r => countEnded (poisonRest s n r) r | none => s)
  let s1 := (match lpaP with | some r => countEnded (poisonRest s1 n r) r | none => s1)
  let s1 := (match ve with | some r => poisonVe s1 n r | none => s1)
  let s1 := (match veP with | some r => poisonVe s1 n r | none => s1)
  let s1 := (match coe with | some r => countCoe (poisonCoe s1 n r) r .timeout | none => s1)
  let s1 := (match dma with | some r => dropFabric (poisonDma s1 r) (fun o => o == .dma n) | none => s1)
  let s1 := (match ccm with | some r => poisonCcm s1 n r | none => s1)
  let d := getCore s1 n
  let s2 := setCore s1 n { d with
    lpa := if lpa.isSome then none else d.lpa, lpaNext := d.lpaNext.filter (fun r => !(mine r.tok)), lpaPaused := if lpaP.isSome then none else d.lpaPaused,
    ve := if ve.isSome then none else d.ve, vePaused := if veP.isSome then none else d.vePaused,
    coe := if coe.isSome then none else d.coe, dma := if dma.isSome then none else d.dma,
    ccm := if ccm.isSome then none else d.ccm }
  (s2, [lpa.map (·.tok), lpaP.map (·.tok), ve.map (·.tok), veP.map (·.tok), coe.map (·.tok), dma.map (·.tok),
    ccm.map (·.tok)].filterMap id)

/-- Core `n` drops the op lists that `mine` names. -/
def dropLists (s : State) (n : Nat) (mine : Token → Bool) : State :=
  let c := getCore s n
  let head := fun (l : List Token) => match l with | t :: _ => mine t | [] => false
  setCore s n { c with
    tokens := c.tokens.filter (fun t => !(mine t)), next := if head c.tokens then 0 else c.next,
    svcTokens := c.svcTokens.filter (fun t => !(mine t)), svcNext := if head c.svcTokens then 0 else c.svcNext }

/-- Blink drops the samples of a phase that has ended. -/
def dropSamples (s : State) (stream : Nat) (phase : Option Nat) : State :=
  { s with blink := (s.blink.map (fun p => (p.1, p.2.filter (fun b =>
      !(b.stream == stream && (phase.isNone || phase == some b.phase)))))).filter (fun p => p.2 != []) }

/-- The numbers of the cores whose state is not idle. -/
def liveCores (s : State) : List Nat := s.cores.map (·.1)

/-! ## The status of a phase (R221, R384) -/

/-- The order in which an ordinary phase takes the statuses of its ops. -/
def phaseOrder : List Status :=
  [.nv, .of, .clipExceed, .singular, .infRow, .maskedRow, .lateExcluded, .orderChanged, .updateDone]

/-- Whether Blink and clip triggers of a run fired (R220); a phase whose ladder is off has none. -/
def blinkFired (p : PhaseRun) : Bool := !p.ladder.isEmpty && flag p.ladder 0 7 && p.exceed
/-- The clip trigger. -/
def clipFired (p : PhaseRun) : Bool := !p.ladder.isEmpty && flag p.ladder 0 6 && p.seen.contains .clipExceed

/-- R384. -/
def phaseStatus (p : PhaseRun) : Status :=
  match p.stop with
  | some st => st
  | none =>
    if blinkFired p then .blinkExceed
    else if clipFired p then .clipExceed
    else (phaseOrder.find? p.seen.contains).getD .ok

/-! ## The end of a stream (R385, R386, R475) -/

/-- The trigger entries of a stream that have not fired are disarmed and counted. -/
def disarm (s : State) (id : Nat) : State :=
  let k := (s.coll.triggers.filter (·.stream == id)).length
  { s with coll := { s.coll with triggers := s.coll.triggers.filter (·.stream != id),
                                 disarmed := satAdd s.coll.disarmed k } }

/-- Whether a stream waits for its fired ops, those of entries included whose counter has satisfied them (R475). -/
def firedLeft (s : State) (id : Nat) : Bool :=
  s.coll.firedOps.any (·.stream == id) || s.coll.triggers.any (fun t => t.stream == id && t.due)

/-- A stream whose running phases and fired ops have completed, and of which no further phase starts, ends: a
RUN_STREAM completes, a service block keeps the status for BLOCK_END. -/
def settleStream (s : State) (id : Nat) : State :=
  match getStream s id with
  | none => s
  | some r =>
    if r.running.isEmpty && (r.stop.isSome || decide (r.nextPhase ≥ hdrPhases r.hdr)) &&
       !(firedLeft s id) then
      let st := r.stop.getD .ok
      let s1 := disarm { s with cmd := { s.cmd with streams := s.cmd.streams.filter (·.1 != id) } } id
      match r.queue, r.svc with
      | some (q, uid), _ => (match getDesc s1 q uid with | some f => completeDesc s1 q f st | none => s1)
      | none, some k =>
        { s1 with cmd := { s1.cmd with runBlocks := s1.cmd.runBlocks.map (fun b =>
            if b.svc = k then { b with result := some st, resultBy := r.stopBy } else b) } }
      | none, none => s1
    else s

/-- The micro-batch of a phase record. -/
def recMb (r : Bytes) : Option Nat := if flag r 0 1 then some (le r 4 1) else none

/-- A stream stops as a stopping phase status stops it; the first status stands. -/
def stopStream (s : State) (id : Nat) (st : Status) : State :=
  modStream s id (fun r => { r with stop := r.stop.orElse (fun _ => some st) })

/-- A stream stops with a status whatever it stopped with before (R386). -/
def overStop (s : State) (id : Nat) (st : Status) : State :=
  modStream s id (fun r => { r with stop := some st, stopBy := [] })

/-- Whether phase `p` is the last of its micro-batch: no later phase of the same step of the stream names the record. A
record may serve another micro-batch in another step (R263, R276). -/
def lastPhaseOf (s : State) (r : StreamRun) (p mb : Nat) : Bool :=
  (List.range (hdrPhases r.hdr)).all (fun k =>
    decide (k ≤ p) || stepIdxOf r.steps k != stepIdxOf r.steps p ||
    (let rd := read s .dram (hdrPhaseTab r.hdr + 64 * k) 64
     rd.err.isSome || recMb rd.data != some mb))

/-- The micro-batch whose last phase has completed with a status becomes DONE (R276). -/
def endMb (s : State) (r : StreamRun) (p : Nat) (record : Bytes) (st : Status) : State :=
  match recMb record with
  | some m => if lastPhaseOf s r p m then doneMb s m st else s
  | none => s

/-- The status of a phase in the status array. -/
def putPstat (s : State) (r : StreamRun) (p : Nat) (st : Status) : State :=
  write s .dram (hdrPstat r.hdr + 2 * p) (leBytes 2 (statusCode st))

/-- A phase completes with a status (R276, R281, R383 to R385). -/
def endPhase (s : State) (id p : Nat) : State :=
  match getStream s id, getPhase s id p with
  | some r, some ph =>
    let st := phaseStatus ph
    let s1 := endPhaseBinds ph s
    let s2 := withTrn ph (fun x => endMb x r p ph.record st) s1
    let s3 := putPstat s2 r p st
    let s4 := modStream s3 id (fun x =>
      { x with running := x.running.filter (·.num != p), done := p :: x.done,
               stop := if stopping st then x.stop.orElse (fun _ => some st) else x.stop,
               stopBy := if stopping st && (x.stop.isNone || !x.stopBy.isEmpty) then x.stopBy ++ ph.stopBy else x.stopBy })
    settleStream s4 id
  | _, _ => s

/-- The fired ops of a phase, or of a whole stream, end with TIMEOUT: their outputs are poisoned, and they do not signal
(R386, R475). An entry whose counter has satisfied it has fired. -/
def dropFired (s : State) (id : Nat) (phase : Option Nat) : State :=
  let mine := fun (a b : Nat) => a == id && (phase.isNone || phase == some b)
  let fs := s.coll.firedOps.filter (fun f => mine f.stream f.phase)
  let ts := s.coll.triggers.filter (fun t => mine t.stream t.phase && t.due)
  let s1 := (fs.map (·.desc) ++ ts.map (·.desc)).foldl poisonGet s
  let s2 := dropFabric s1 (fun o => match o with | .fired k => fs.any (·.id == k) | _ => false)
  { s2 with coll := { s2.coll with
      firedOps := s2.coll.firedOps.filter (fun f => !(mine f.stream f.phase)),
      triggers := s2.coll.triggers.filter (fun t => !(mine t.stream t.phase && t.due)),
      fired := satAdd s2.coll.fired ts.length } }

/-- A running phase ends at once with a status (R386, R436): its ops end with their outputs poisoned and do not
signal, its cores drop their lists, its collectives abort. The phase takes the status: over any before it where `hard`
holds (R386), else unless it has a stopping one already (R384). -/
def forceEnd (s : State) (id p : Nat) (st : Status) (hard : Bool) : State :=
  match getPhase s id p with
  | none => s
  | some ph =>
    let mine := ofPhase id (some p)
    let s1 := (liveCores s).foldl (fun x n => dropLists (endCoreOps x n mine).1 n mine) s
    let cs := s1.cores.map (fun c => (c.1, { c.2 with pq := c.2.pq.filter (fun e => e.stream != id || e.phase != p) }))
    let s2 := { s1 with cores := cs.filter (fun c => c.2 != Core.idle) }
    let s3 := ph.io.foldl (fun x o => poisonGet x o.desc) s2
    let s4 := dropFabric s3 (fun o => match o with | .io a b _ => a == id && b == p | _ => false)
    let s5 := match s4.muuRun with
      | some run => if run.stream = id ∧ run.phase = p then { poisonMuu s4 run with muuRun := none } else s4
      | none => s4
    let s6 := dropFired (abortCollsOf (dropSamples s5 id (some p)) id (some p)) id (some p)
    let s7 := modPhase s6 id p (fun x =>
      { x with cores := [], io := [], stop := if hard then some st else x.stop.orElse (fun _ => some st),
               stopBy := if hard then [] else x.stopBy })
    endPhase s7 id p

/-! ## Ops of the fabric that stop their phase (R436, R475) -/

/-- Whether an opcode is a fabric or collective op. -/
def fabricOp (op : Nat) : Bool := decide (0x40 ≤ op ∧ op < 0x60)

/-- A fabric op of a running phase has completed: a stopping status ends the phase. -/
def fabricStops (s : State) (id p : Nat) (d : Bytes) (st : Status) : State :=
  if fabricOp (byteAt d 0).toNat && stopping st && (getPhase s id p).isSome then forceEnd s id p st false else s

/-- A fired op has ended: it signals, and a stopping status ends its phase or stops its stream. -/
def finishFired (s : State) (f : FiredOp) (st : Status) : State :=
  let s0 := { s with coll := { s.coll with firedOps := s.coll.firedOps.filter (·.id != f.id) } }
  let s1 := signal s0 f.stream f.desc
  let s2 :=
    if stopping st then
      if (getPhase s1 f.stream f.phase).isSome then forceEnd (noteStatus s1 f.stream f.phase st) f.stream f.phase st false
      else stopStream s1 f.stream st
    else noteStatus s1 f.stream f.phase st
  settleStream s2 f.stream

/-- Fired ops that have ended are finished, oldest first. -/
def settleFired : Nat → State → State
  | 0, s => s
  | k + 1, s =>
    match s.coll.firedOps.find? (·.ended.isSome) with
    | none => s
    | some f => settleFired k (finishFired s f (f.ended.getD .ok))

/-- A WINDOW_SET whose table is in force completes once no older line is left (R494). -/
def endWindowSet (s : State) : State :=
  match s.hif.wtWait with
  | none => s
  | some (q, i, mark) =>
    if oldLines s mark then s
    else
      let s1 := { s with hif := { s.hif with wtWait := none } }
      match getDesc s1 q i with
      | some f => completeDesc s1 q f .ok
      | none => s1

/-- Every ended fired op ends, and a WINDOW_SET that waited for the last older line completes. -/
def settleAllFired (s : State) : State := endWindowSet (settleFired s.coll.firedOps.length s)

/-! ## Streams stopped (R386) -/

/-- A stream ends at once with a status, every running phase with TIMEOUT (R386). -/
def forceStream (s : State) (id : Nat) (st : Status) : State :=
  match getStream s id with
  | none => s
  | some r =>
    let s1 := dropFired (r.running.foldl (fun x ph => forceEnd x id ph.num .timeout true)
      (abortCollsOf (overStop s id st) id none)) id none
    settleStream (settleAllFired s1) id

/-- A stream is stopped softly: running phases complete. -/
def softStop (s : State) (id : Nat) (st : Status) : State := settleStream (stopStream s id st) id

/-! ## Cores marked unavailable (R46 to R48) -/

/-- Core `n`'s bit of TOP_CORE_AVAIL cleared. -/
def clearAvail (s : State) (n : Nat) : State :=
  let w := smGet (BitVec.allOnes 64) s.cr.coreAvail (n / 64)
  let v : BitVec 64 := BitVec.ofNat 64 (w.toNat &&& ((2 ^ 64 - 1) ^^^ (1 <<< (n % 64))))
  { s with cr := { s.cr with coreAvail := smSet (BitVec.allOnes 64) s.cr.coreAvail (n / 64) v } }

/-- The work of core `n` ends: each op in progress or paused with TIMEOUT and poisoned outputs, its lists are dropped, and
the streams that use it stop with TIMEOUT (R47, R586). -/
def loseCore (s : State) (n : Nat) : State :=
  let r := endCoreOps s n (fun _ => true)
  let toks := (getCore s n).tokens ++ (getCore s n).svcTokens
  let s1 := r.2.foldl (fun x t => noteStatus x t.stream t.phase .timeout) r.1
  let s2 := setCore s1 n Core.idle
  let s3 := toks.foldl (fun x t => modPhase x t.stream t.phase (fun p => { p with cores := p.cores.filter (· != n) })) s2
  (s3.cmd.streams.filter (fun x => bit x.2.coreMap n)).foldl (fun x y => softStop x y.1 .timeout) s3

/-- A core is marked unavailable, with one entry of kind 1 in the failure log (R46 to R48). -/
def markCore (s : State) (n : Nat) (st : Status) : State :=
  if coreAvail s n then logFailure (clearAvail (loseCore s n) n) 1 st n 0 else s

/-- All 64 cores of a cluster are marked, with one entry of kind 2 (R46, R48). -/
def markCluster (s : State) (c : Nat) (st : Status) : State :=
  if clusterAvail s c then
    logFailure ((List.range 64).foldl (fun x k =>
      if coreAvail x (64 * c + k) then clearAvail (loseCore x (64 * c + k)) (64 * c + k) else x) s) 2 st c 0
  else s

/-- CORE_NO_PROGRESS (R46, R593): an op sequencer that holds issued work has made no progress for 2^20 counted ticks, and
firmware runs to mark its core. -/
def execCoreNoProgress (core : CoreId) (s : State) : Res :=
  if imageRuns s ∧ (getCore s core.toNat).noProg ≥ 2 ^ 20 then .next (markCore s core.toNat .timeout) else .next s

/-! ## Completion of ops (R391, R436) -/

/-- An AWAIT that has ended is no op of the fabric any more: its time runs no longer (R432). -/
def dropAwait (s : State) (o : FabOwner) : State :=
  { s with fab := { s.fab with ops := s.fab.ops.filter (fun x => !(byteAt x.desc 0 == 0x42 && x.owner == o)) } }

/-- Completion of an I/O op whose work has ended: a fabric op with a stopping status ends its phase. -/
def completeIoOp (s : State) (id p i : Nat) : State :=
  match getIo s id p i with
  | none => s
  | some o =>
    if o.finished then
      let s1 := if byteAt o.desc 0 == 0x42 then dropAwait s (.io id p i) else s
      fabricStops (completeIo s1 id p i) id p o.desc o.status
    else s

/-- OP_COMPLETE (R391): an op whose work has ended leaves its unit. -/
def execOpComplete (loc : OpLoc) (unit : OpUnit) (s : State) : Res :=
  match loc, unit with
  | .core c, .lpa => .next (veRecheck (completeLpa s c.toNat) c.toNat)
  | .core c, .ve => .next (completeVe s c.toNat)
  | .core c, .coe => .next (completeCoe s c.toNat)
  | .core c, .dma => .next (completeDma s c.toNat)
  | .core c, .ccm => .next (completeCcm s c.toNat)
  | .io id p, .io i => .next (completeIoOp s id.toNat p.toNat i.toNat)
  | _, _ => .next s

end Sys2Proof.Machine
end

