-- ==== Sys2Proof/Machine/Stream.lean ====
section
/-! DEFINITION. Command streams and their phases (11_command_model.md R374 to R386; 06_rotation_and_error_control.md
R217 to R222). -/

namespace Sys2Proof.Machine

/-! ## RUN_STREAM (R374 to R376) -/

/-- The fields of a stream header. -/
def hdrLayout : List (Nat × Nat) :=
  [fld 0 6, fldBits 8 0 24, fld 12 2, fld 16 6, fld 24 6, fld 32 6, fld 40 6, fldBits 48 0 12, fldBits 50 0 13]

/-- The fields of a step entry. -/
def stepLayout : List (Nat × Nat) := [fld 0 4, fldBits 4 0 24, fld 8 16, fld 24 3, fldBits 27 0 1]

/-- First phase of a step entry. -/
def stepFirst (e : Bytes) : Nat := bits (le e 4 4) 0 24

/-- first_phase of step 0 is 0 and rises strictly (R376). -/
def stepsRise : Nat → List Bytes → Bool
  | _, [] => true
  | k, e :: es => decide (k ≤ stepFirst e) && stepsRise (stepFirst e + 1) es

/-- What the start check of a stream reads. -/
structure StreamPlan where
  hdr : Bytes
  steps : List Bytes
  coreMap : Nat
  deriving DecidableEq, Repr

/-- The first failure of several reads. -/
def readsFail (rs : List Rd) : Check := rs.findSome? (·.err)

/-- The check of a stream at address `a` (R375). -/
def runCheck (s : State) (a : Nat) : Except Status StreamPlan :=
  let h := read s .dram a 64
  match h.err with
  | some e => .error e
  | none =>
    let d := h.data
    let n := le d 12 2 + 1
    let st := (List.range n).map (fun i => read s .dram (hdrStepTab d + 64 * i) 64)
    let cm := read s .dram (le d 16 6) 512
    let steps := st.map (·.data)
    let map := leNat cm.data
    let fail := firstFail [
      failIf (!(reservedZero d hdrLayout)) .badReserved,
      failIf (le d 0 4 != 0x5A435331 || le d 4 2 / 256 != 1) .badField,
      failIf (a % 64 != 0 || le d 16 6 % 64 != 0 || hdrStepTab d % 64 != 0 || hdrPhaseTab d % 64 != 0 || hdrPstat d % 64 != 0) .badField,
      failIf (decide (bits (le d 48 2) 0 12 + bits (le d 50 2) 0 13 > 4096)) .badField,
      readsFail st,
      failIf (steps.any (fun e => !(reservedZero e stepLayout))) .badReserved,
      failIf ((steps.head?.map stepFirst) != some 0 || !(stepsRise 0 steps)) .badField,
      cm.err,
      failIf ((List.range 4096).any (fun k => bit map k && !(coreAvail s k))) .coreUnavail]
    match fail with
    | some e => .error e
    | none => .ok { hdr := d, steps, coreMap := map }

/-- A stream as it begins. -/
def newStream (p : StreamPlan) (queue : Option (Nat × Nat)) (svc : Option Nat) : StreamRun :=
  { queue, svc, hdr := p.hdr, steps := p.steps, coreMap := p.coreMap, nextPhase := 0, running := [], done := [],
    stop := none, stopBy := [] }

/-- The counters that a stream owns are zeroed (R375). -/
def zeroCounters (s : State) (d : Bytes) : State :=
  let first := bits (le d 48 2) 0 12
  { s with cmd := { s.cmd with counters := s.cmd.counters.filter (fun c =>
      !(decide (first ≤ c.1 ∧ c.1 < first + bits (le d 50 2) 0 13))) } }

/-- Running streams of queues. -/
def queueStreams (s : State) : List (Nat × StreamRun) := s.cmd.streams.filter (fun x => decide (x.1 < 16))

/-- Whether a checked stream may be admitted: no core shared with a running stream, and fewer than 16 run, the streams of
service blocks among them. -/
def admits (s : State) (p : StreamPlan) : Bool :=
  decide (s.cmd.streams.length < 16) && s.cmd.streams.all (fun x => x.2.coreMap &&& p.coreMap == 0)

/-- The lowest free stream id. -/
def freeStream (s : State) : Nat := ((List.range 16).find? (fun i => !(s.cmd.streams.any (·.1 == i)))).getD 0

/-- A stream is admitted: it takes an id, and its counters are zeroed. -/
def admitStream (s : State) (q : Nat) (f : Fetched) (p : StreamPlan) : State :=
  let s1 := zeroCounters s p.hdr
  settleStream { s1 with cmd := { s1.cmd with streams := s1.cmd.streams ++ [(freeStream s, newStream p (some (q, f.uid)) none)] } }
    (freeStream s)

/-- RUN_STREAM (R375): checked at its start, then admitted or left waiting. -/
def execRunStream (queue : QueueId) (s : State) : Res :=
  let q := queue.toNat
  match startDesc s q 0x0001 with
  | none => .next s
  | some f =>
    match runCheck s (le f.desc 16 6) with
    | .error e => .next (refuseDesc s q f e)
    | .ok p => if admits s p then .next (admitStream (markStarted s q f) q f p) else .next (markStarted s q f)

/-- STREAM_ADMIT (R375): a stream that waited is checked as it stands and admitted. -/
def execStreamAdmit (queue : QueueId) (index : BitVec 32) (s : State) : Res :=
  let q := queue.toNat
  match findStarted s q 0x0001 index with
  | none => .next s
  | some f =>
    if s.cmd.streams.all (fun x => x.2.queue != some (q, f.uid)) then
      match runCheck s (le f.desc 16 6) with
      | .error e => .next (refuseDesc s q f e)
      | .ok p => if admits s p then .next (admitStream s q f p) else .next s
    else .next s

/-- The running stream that a queue's descriptor of the low index started. -/
def streamOf (s : State) (q low : Nat) : Option Nat :=
  (s.cmd.streams.find? (fun x => match x.2.queue with
    | some (k, uid) => k == q && (getDesc s k uid).any (fun f => f.index.toNat % 65536 == low)
    | none => false)).map (·.1)

/-- STREAM_ABORT (R367, R386). -/
def execStreamAbort (queue : QueueId) (s : State) : Res :=
  let q := queue.toNat
  match startDesc s q 0x0002 with
  | none => .next s
  | some f =>
    let t := le f.desc 16 1
    if (getQueue s t).owner ≠ (getQueue s q).owner then .next (refuseDesc s q f .badField)
    else match streamOf s t (le f.desc 18 2) with
      | none => .next (refuseDesc s q f .badField)
      | some id =>
        let s1 := markStarted s q f
        .next (completeDesc (if flag f.desc 20 0 then forceStream s1 id .aborted else softStop s1 id .aborted) q f .ok)

/-! ## The start of a phase (R218, R219, R377 to R382) -/

/-- The fields of a phase record. -/
def phaseLayout : List (Nat × Nat) :=
  [fldBits 0 0 2, fld 1 1, fld 2 2, fld 4 1, fldBits 6 0 13, fld 8 6, fldBits 14 0 11, fld 16 6, fld 24 6, fld 32 6,
   fld 40 6, fld 48 6]

/-- The table addresses of a phase record: var0 to var3. -/
def recVars (r : Bytes) : List Nat := [le r 24 6, le r 32 6, le r 40 6, le r 48 6]

/-- Variants named: those before the first zero. -/
def recRungs (r : Bytes) : Nat := ((recVars r).takeWhile (· != 0)).length

/-- The conditions of R378 on the record itself. -/
def phaseRecBad (r : Bytes) : Bool :=
  let vs := recVars r
  (vs.all (· == 0) && recIoCount r == 0) ||
  (if flag r 0 0 then recRungs r == 0 || (vs.drop (recRungs r)).any (· != 0) else (vs.drop 1).any (· != 0)) ||
  decide (bits (le r 6 2) 0 13 > 4096) || decide (recIoCount r > 1024)

/-- An entry of an op-list table (R380). -/
structure ListEntry where
  core : Nat
  len : Nat
  off : Nat
  src : Nat
  deriving DecidableEq, Repr

/-- R380. -/
def listEntry (b : Bytes) : ListEntry :=
  { core := bits (le b 0 2) 0 12, len := bits (le b 2 2) 0 10 + 1, off := bits (le b 4 4) 0 20, src := le b 8 6 }

/-- The entries of the op-list table at `a`, checked (R380). -/
def listTable (s : State) (coreMap a : Nat) : Except Status (List ListEntry) :=
  if a = 0 then .ok []
  else
    let h := read s .dram a 8
    match h.err with
    | some e => .error e
    | none =>
      let n := le h.data 0 2
      if n = 0 ∨ n > 4096 ∨ allZero (h.data.drop 2) = false then .error .badField
      else
        let rs := (List.range n).map (fun i => read s .dram (a + 8 + 16 * i) 16)
        let es := rs.map (fun r => listEntry r.data)
        let bad := firstFail [
          readsFail rs,
          failIf (rs.any (fun r => !(reservedZero r.data [fldBits 0 0 12, fldBits 2 0 10, fldBits 4 0 20, fld 8 6]))) .badReserved,
          failIf (es.any (fun e => !(bit coreMap e.core) || e.off % 64 != 0 || decide (e.off + 64 * e.len > coreStoreLen))) .badField,
          failIf ((distinct (es.map (·.core))).length != es.length) .badField,
          failIf (es.any (fun e => !(coreAvail s e.core))) .coreUnavail]
        match bad with
        | some e => .error e
        | none => .ok es

/-- The layer's ladder entry, when the phase is a ladder phase and the table is on (R217). -/
def ladderAddr (s : State) (r : Bytes) : Option Nat :=
  if flag r 0 0 && s.cr.ladderBase.getLsbD 0 then some (bits s.cr.ladderBase.toNat 22 26 * 2 ^ 22 + 64 * le r 2 2) else none

/-- Whether a phase's compute copies include one that is not current. -/
def pinnedOld (s : State) (bs : List Binding) (slots : List Nat) : Bool :=
  (bs.zip slots).any (fun x => x.1.kind == 0 && curCopy s (getSlot s x.1.tensor) != some x.2)

/-- A rung under its limits (R218): max_rung of the entry, the highest variant `top`, and 1 for a phase under a pin on a
compute copy that is not current. -/
def limitRung (entry : Bytes) (top : Nat) (old : Bool) (r : Nat) : Nat :=
  let r := min (min r (field entry 0 2 2)) top
  if old then min r 1 else r

/-- The rung of a phase's first run (R218): `top` is the highest variant. -/
def rungOf (entry : Bytes) (step top : Nat) (old : Bool) : Nat :=
  let base := field entry 0 0 2
  let raised := field entry 8 0 2
  limitRung entry top old (if raised > base ∧ stepDiff step (le entry 12 4) ≤ 0 then raised else base)

/-- blink_log2n of an entry (R207). -/
def blinkLog (entry : Bytes) : Nat :=
  let v := field entry 1 0 5
  if 6 ≤ v ∧ v ≤ 16 then v else 0

/-- The check of a ladder phase's lists (R219), those of every variant given: no op of a Fabric Interface or MUU in either kind of
list, and no LPA op of another layer. Bytes read as poisoned are not interpreted (R627). -/
def ladderCheck (s : State) (r : Bytes) (es : List ListEntry) : Check :=
  let io := (List.range (recIoCount r)).map (fun i => read s .dram (recIoList r + 64 * i) 64)
  let ops := es.flatMap (fun e => (List.range e.len).map (fun i => read s .dram (e.src + 64 * i) 64))
  let bars := fun (d : Bytes) => let op := (byteAt d 0).toNat; fabricOp op || op == 0x28
  let other := fun (d : Bytes) => byteAt d 0 == 0x10 && (lpaParm d).layer != le r 2 2
  firstFail [readsFail io, readsFail ops, failIf ((io ++ ops).any (fun d => bars d.data) || ops.any (fun d => other d.data)) .badField]

/-- The op-list tables that a phase record names, rung by rung (R378, R380). -/
def listTables (s : State) (coreMap : Nat) (r : Bytes) : List (Except Status (List ListEntry)) :=
  (List.range (recRungs r)).map (fun k => listTable s coreMap ((recVars r).getD k 0))

/-- The first failure among tables. -/
def tablesFail (ts : List (Except Status (List ListEntry))) : Check :=
  ts.findSome? (fun t => match t with | .error e => some e | .ok _ => none)

/-- The entries of a table that has not failed. -/
def tableOf (t : Except Status (List ListEntry)) : List ListEntry := t.toOption.getD []

/-- A phase ready to start. -/
structure PhasePlan where
  record : Bytes
  binds : List Bytes
  res : Resolve
  rung : Nat
  ladder : Bytes
  entry : Option Nat
  lists : List ListEntry
  /-- Whether it binds a compute copy that is not current, and whether its micro-batch is LATE. -/
  old : Bool
  late : Bool
  deriving DecidableEq, Repr

/-- How a phase stands that is next to start. -/
inductive PhaseGate where
  | wait
  | done (st : Status)
  | go (p : PhasePlan)
  deriving DecidableEq, Repr

/-- Whether every phase that deps names has completed (R379). -/
def depsMet (done : List Nat) (p deps : Nat) : Bool :=
  (List.range 8).all (fun i => !(bit deps i) || decide (p < i + 1) || done.contains (p - 1 - i))

/-- Whether the micro-batch of a phase evaluates (R294). -/
def evalPhase (s : State) (r : Bytes) : Bool := match recMb r with | some m => mbEval s m | none => false

/-- Whether the token queues of the cores have room (R379). -/
def tokensFit (s : State) (svc : Bool) (es : List ListEntry) : Bool :=
  es.all (fun e => decide ((if svc then (getCore s e.core).svcTokens else (getCore s e.core).tokens).length < 5))

/-- The state of the next phase of a stream (R276, R277, R378 to R382). With the ladder table off (LADDER_BASE en = 0) a ladder
phase runs its variant 0 (DESIGN CHOICE, log 100: the base rung stands in the entry, which the phase then has not). -/
def phaseGate (s : State) (r : StreamRun) : PhaseGate :=
  let p := r.nextPhase
  let rd := read s .dram (hdrPhaseTab r.hdr + 64 * p) 64
  let rec_ := rd.data
  match rd.err with
  | some e => .done e
  | none =>
    if !(depsMet r.done p (le rec_ 1 1)) then .wait
    else if !(reservedZero rec_ phaseLayout) then .done .badReserved
    else if phaseRecBad rec_ then .done .badField
    else
      let mb := recMb rec_
      if (match mb with | some m => !(mbLive s m) | none => false) then .done .lateExcluded
      else
        let brs := (List.range (bits (le rec_ 6 2) 0 13)).map (fun i => read s .dram (le rec_ 8 6 + 32 * i) 32)
        let raw := brs.map (·.data)
        let bs := raw.map bindingOf
        match firstFail [readsFail brs, failIf (raw.any (fun b => !(reservedZero b bindingFields))) .badReserved,
            failIf (bs.any (fun b => bindingBad b mb.isSome)) .badField,
            failIf (bs.any (fun b => variantBars s b.tensor)) .badField] with
        | some e => .done e
        | none =>
          if gradHeld s bs mb then .wait
          else
            let res := resolveBinds s bs mb
            let addr := ladderAddr s rec_
            let lr := match addr with | some a => read s .dram a 64 | none => { data := [], err := none }
            let e := r.steps.getD (stepIdxOf r.steps p) []
            let old := pinnedOld s bs res.slots
            let rung := if addr.isSome then rungOf lr.data (stepNo e) (recRungs rec_ - 1) old else 0
            let ts := listTables s r.coreMap rec_
            match firstFail [res.err, lr.err, tablesFail ts,
                if flag rec_ 0 0 then ladderCheck s rec_ (ts.flatMap tableOf) else none] with
            | some x => .done x
            | none =>
              let es := tableOf (ts.getD rung (.ok []))
              if !(tokensFit s r.svc.isSome es) then .wait
              else .go { record := rec_, binds := raw, res, rung, ladder := lr.data,
                         entry := if evalPhase s rec_ then none else addr, lists := es, old,
                         late := mb.any (fun m => mbState s m == 2) }

/-- A phase completes without having started: its status is written, its micro-batch is DONE where it was the last
(R276), and a stopping status stops the stream. -/
def skipPhase (s : State) (id : Nat) (r : StreamRun) (st : Status) : State :=
  let p := r.nextPhase
  let rd := read s .dram (hdrPhaseTab r.hdr + 64 * p) 64
  let s1 := if rd.err.isNone then endMb s r p rd.data st else s
  settleStream (modStream (putPstat s1 r p st) id (fun x =>
    { x with nextPhase := p + 1, done := p :: x.done,
             stop := if stopping st then x.stop.orElse (fun _ => some st) else x.stop })) id

/-- An op list copied into its core's store (R381 item 3). -/
def copyList (s : State) (e : ListEntry) : State :=
  let n := 64 * e.len
  if canAccess s .dram e.src n then (copySpan s.mem s initCmd .dma e.src (coreBase e.core + e.off) n).1
  else (writeSpan s initCmd .dma (coreBase e.core + e.off) (zeroBytes n) (fun _ => true)).1

/-- A core's start token (R381 item 5). -/
def sendToken (svc : Bool) (t : Token) (s : State) (e : ListEntry) : State :=
  let c := getCore s e.core
  let t := { t with off := e.off, len := e.len }
  setCore s e.core (if svc then { c with svcTokens := c.svcTokens ++ [t] } else { c with tokens := c.tokens ++ [t] })

/-- The token of a phase, without its list. -/
def phaseToken (id p : Nat) (e : Bytes) (pl : PhasePlan) : Token :=
  { stream := id, phase := p, off := 0, len := 0, seed := stepSeed e, rotSeed := stepRot e, step := stepNo e,
    mb := recMb pl.record, layer := le pl.record 2 2, ladder := flag pl.record 0 0,
    blinkLog2n := if pl.ladder.isEmpty then 0 else blinkLog pl.ladder, ladderEntry := pl.entry }

/-- Op lists copied, bindings patched, tokens sent (R381 items 3 to 5). -/
def launchPhase (s : State) (id : Nat) (r : StreamRun) (p : Nat) (pl : PhasePlan) : State :=
  let e := r.steps.getD (stepIdxOf r.steps p) []
  let s1 := pl.lists.foldl copyList s
  let s2 := ((pl.binds.map bindingOf).zip pl.res.slots).foldl patchBind s1
  pl.lists.foldl (sendToken r.svc.isSome (phaseToken id p e pl)) s2

/-- The phase as it runs. One that starts on a preempted core is preempted from its start (R386). -/
def newPhase (s : State) (r : StreamRun) (pl : PhasePlan) : PhaseRun :=
  { num := r.nextPhase, record := pl.record, stepIdx := stepIdxOf r.steps r.nextPhase, rung := pl.rung,
    ladderEntry := pl.entry, ladder := pl.ladder, cores := pl.lists.map (·.core), io := [], ioNext := 0, stop := none,
    stopBy := [], seen := [], samples := 0, errMax := 0, exceed := false, pins := pl.res.phase, slots := pl.res.slots,
    old := pl.old, late := pl.late, binds := pl.binds, trnSlot := s.trn.slotBase, trnMb := s.trn.mbBase,
    trnStep := s.trn.stepCfg, started := s.nowNs, paused := 0,
    pausedAt := if r.svc.isNone && pl.lists.any (fun e => (getCore s e.core).preempt) then some s.nowNs else none,
    wdMs := bits s.cmd.cfg.toNat 12 12 }

/-- PHASE_START (R381): the next phase of a stream starts, is rejected, or waits. -/
def execPhaseStart (stream : StreamId) (s : State) : Res :=
  let id := stream.toNat
  match getStream s id with
  | none => .next s
  | some r =>
    if quiescing s || r.stop.isSome || decide (r.nextPhase ≥ hdrPhases r.hdr) then .next s
    else match phaseGate s r with
      | .wait => .next s
      | .done st => .next (skipPhase s id r st)
      | .go pl =>
        let s1 := takePins s pl.res (recMb pl.record)
        let s2 := modStream s1 id (fun x => { x with nextPhase := x.nextPhase + 1, running := x.running ++ [newPhase s r pl] })
        .next (launchPhase s2 id r r.nextPhase pl)

/-! ## The end of a phase (R215, R220 to R222, R383) -/

/-- R383: its cores, its I/O list and its Blink samples have finished. -/
def phaseOver (p : PhaseRun) : Bool :=
  p.cores.isEmpty && p.io.isEmpty && decide (p.ioNext ≥ recIoCount p.record) && p.samples == 0

/-- The event of a trigger (R222, R588). -/
def triggerEvent (s : State) (p : PhaseRun) (action : Nat) : State :=
  raiseEvent s (if blinkFired p then .blinkExceed else .clipExceed) 6 (le p.record 2 2)
    (leBytes 2 (le p.record 2 2) ++ [BitVec.ofNat 8 p.rung, BitVec.ofNat 8 action] ++ leBytes 4 p.errMax)

/-- The record of a trigger in the ladder entry: last_trigger, and what the policy writes. -/
def triggerEntry (step : Nat) (top : Bool) (policy rung : Nat) (b : Bytes) : Bytes :=
  let until_ := (step + max 1 (le b 3 1)) % 2 ^ 32
  let b1 := putBytes b 48 (leBytes 4 step)
  let b2 := if top then satField b1 52 4 1 else b1
  match policy with
  | 1 => if top then b2 else satField b2 16 4 1
  | 2 =>
    if top then putBytes b2 12 (leBytes 4 until_)
    else putBytes (putBytes (satField b2 20 4 1) 8 [BitVec.ofNat 8 (rung + 1)]) 12 (leBytes 4 until_)
  | _ => b2

/-- Whether a compute copy that a running phase binds is not the current one now (R218, R289). -/
def oldNow (s : State) (ph : PhaseRun) : Bool := pinnedOld (underPhase ph s) (ph.binds.map bindingOf) ph.slots

/-- A ladder phase runs again at a rung (R220, R221) with the slots it resolved at its start (R273), the entry as this run
reads it, and the variant of the rung. -/
def rerunPhase (s : State) (id : Nat) (r : StreamRun) (ph : PhaseRun) (entry : Bytes) (rung : Nat) (es : List ListEntry) :
    State :=
  let pl : PhasePlan :=
    { record := ph.record, binds := ph.binds, ladder := entry, entry := ph.ladderEntry, rung, lists := es, old := oldNow s ph,
      late := ph.late, res := { slots := ph.slots, mbAdd := [], held := [], phase := [], err := none } }
  let s1 := modPhase s id ph.num (fun x =>
    { x with rung, ladder := entry, old := pl.old, cores := es.map (·.core), ioNext := 0, seen := [], errMax := 0, exceed := false })
  launchPhase s1 id r ph.num pl

/-- What a phase would run again with under RERUN: the entry as the next run reads it, and the rung, if it is higher
(R218, R220). An entry that cannot be read gives none. -/
def nextRung (s : State) (ph : PhaseRun) : Option (Bytes × Nat) :=
  ph.ladderEntry.bind (fun a =>
    let rd := read s .dram a 64
    let k := limitRung rd.data (recRungs ph.record - 1) (oldNow s ph) (ph.rung + 1)
    if rd.err.isNone && decide (ph.rung < k) then some (rd.data, k) else none)

/-- The lists of a run at a rung, checked as at the start of the phase (R219, R378). -/
def rerunLists (s : State) (r : StreamRun) (ph : PhaseRun) (rung : Nat) : Except Status (List ListEntry) :=
  match listTable s r.coreMap ((recVars ph.record).getD rung 0) with
  | .error e => .error e
  | .ok es => match ladderCheck s ph.record es with | some e => .error e | none => .ok es

/-- What follows a run whose trigger fired (R220, R294). RERUN with no higher rung to take acts as at max_rung. -/
def afterTrigger (s : State) (id : Nat) (r : StreamRun) (ph : PhaseRun) : State :=
  let policy := if ph.ladderEntry.isNone then 0 else field ph.ladder 0 4 2
  let step := stepNo (r.steps.getD ph.stepIdx [])
  let full := decide (ph.rung ≥ field ph.ladder 0 2 2)
  let next := if policy = 1 && !full then nextRung s ph else none
  let top := full || (policy == 1 && next.isNone)
  let entry := fun (p : Nat) => ladderUpdate s ph.ladderEntry (triggerEntry step top p ph.rung)
  match next with
  | some (e, k) =>
    (match rerunLists s r ph k with
     | .error st => endPhase (noteStatus (triggerEvent (entry 0) ph 3) id ph.num st) id ph.num
     | .ok es =>
       let s1 := entry 1
       rerunPhase (triggerEvent { s1 with cr := { s1.cr with reruns := satAdd s1.cr.reruns 1 } } ph 1) id r ph e k es)
  | none =>
    let s1 := entry policy
    let s2 := if policy = 2 ∧ top = false then { s1 with cr := { s1.cr with raises := satAdd s1.cr.raises 1 } } else s1
    endPhase (triggerEvent s2 ph (if top then 3 else if policy = 2 then 2 else 0)) id ph.num

/-- PHASE_COMPLETE (R383 to R385): a phase that has finished completes, or runs again under the ladder. A run whose trigger
fired is treated so even where one of its ops gave a stopping status, which the phase keeps (R220, R384). -/
def execPhaseComplete (stream : StreamId) (phase : PhaseNo) (s : State) : Res :=
  let id := stream.toNat
  match getStream s id, getPhase s id phase.toNat with
  | some r, some ph =>
    if phaseOver ph then
      if blinkFired ph || clipFired ph then .next (afterTrigger s id r ph)
      else .next (endPhase s id phase.toNat)
    else .next s
  | _, _ => .next s

/-- How long a phase has run, without the time it spent preempted. -/
def phaseRan (s : State) (p : PhaseRun) : Nat :=
  s.nowNs - p.started - p.paused - (match p.pausedAt with | some t => s.nowNs - t | none => 0)

/-- PHASE_WATCHDOG (R386): a phase that runs too long ends with TIMEOUT, and so does its stream. -/
def execPhaseWatchdog (stream : StreamId) (phase : PhaseNo) (s : State) : Res :=
  match getPhase s stream.toNat phase.toNat with
  | none => .next s
  | some p =>
    if p.wdMs ≠ 0 ∧ phaseRan s p > p.wdMs * msNs then
      let id := stream.toNat
      .next (settleStream (settleAllFired (forceEnd (overStop s id .timeout) id phase.toNat .timeout true)) id)
    else .next s

end Sys2Proof.Machine
end

