-- ==== Sys2Proof/Machine/CollRun.lean ====
section
/-! DEFINITION. The collective engine: checks, the opening round, moving and combining data, the expert exchange, packets
and completion (13_collectives.md R448 to R473). -/

namespace Sys2Proof.Machine

/-! ## Issue (R448, R449) -/

/-- Whether `n` bytes from `a` lie where R36 lets a Fabric Interface reach. -/
def collAddr (s : State) (a n : Nat) : Bool := n == 0 || fiAddrOk s a n

/-- Whether the length suits the op (R447, R448). -/
def collLenOk (d r : Bytes) : Bool :=
  let n := coLen d
  match coOp d with
  | 5 => n == 0
  | 6 => n != 0 && n % 64 == 0 && decide (n ≤ 0x8000000)
  | k =>
    n != 0 && n % 2048 == 0 && decide (n ≤ 0x8000000) && !((k == 1 || k == 2) && n % (2048 * cmMembers r) != 0)

/-- Whether every address that the op uses on this member lies where it may (R36, R448). -/
def collAddrsOk (s : State) (d r : Bytes) : Bool :=
  let m := cmMembers r
  let me := cmRank r
  let win := m * coLen d
  coResult d % 64 == 0 && collAddr s (coResult d) (64 + 4 * cdiv m 32) &&
  (if coOp d = 6 then
     collAddr s (coSrc d) win && collAddr s (coDst d) win && collAddr s (coAux0 d) (4 * m) && collAddr s (coAux1 d) (4 * m)
   else
     collAddr s (coSrc d) (bufLen d (srcSpan d m me).2) && collAddr s (coDst d) (bufLen d (dstSpan d m me).2) &&
     (!(coDeadline d) || ((coAux0 d == 0 || collAddr s (coAux0 d) 2) &&
       collAddr s (coAux1 d) (64 + bufLen d (srcSpan d m me).2))))

/-- The check of R448, with the counters of R390 and the router's enable. -/
def collCheck (s : State) (id : Nat) (d : Bytes) : Check :=
  firstFail [
    failIf (!(reservedZero d coFields)) .badReserved,
    failIf (!(ctrCheck s id (opHdr d)) || (coProgEn d && !(ctrInRange s id (coProgCtr d)))) .badField,
    failIf (decide (6 < coOp d ∨ 2 < coRedop d ∨ 4 < coType d)) .badField,
    failIf (coRedop d != 0 && !(coReduces d)) .badField,
    failIf (coType d == 4 && coReduces d) .badField,
    failIf (coMx d && (coRedop d != 0 || coOp d == 6)) .badField,
    failIf (coDeadline d && !(coOp d == 0 || coOp d == 1)) .badField,
    failIf (coMean d && coRedop d != 0) .badField,
    failIf ((coSlots d == 0 && coReduces d) || (coSlots d != 0 && !(coReduces d)) || decide (16 < coSlots d)) .badField,
    failIf (!(s.coll.commBase.getLsbD 0)) .badField,
    (match commRead s (coComm d) with
      | some { err := some .poisoned, .. } => some .poisoned
      | _ => none),
    (match commRec s (coComm d) with
      | none => some .badField
      | some r => failIf (!(collLenOk d r) || !(collAddrsOk s d r)) .badField),
    failIf (!s.fab.en) .noRoute]

/-- Whether a collective of a communicator may issue now (R449). -/
def collMay (s : State) (comm : Nat) : Bool :=
  decide (s.coll.colls.length < 64) && !(s.coll.colls.any (fun c => coComm c.desc == comm && !c.closed))

/-- Packets discarded under R454 and R464. -/
def staleColl (s : State) : State := { s with coll := { s.coll with stale := satAdd s.coll.stale 1 } }

/-! ## Members -/

/-- Members of the communicator of an open collective, and this member's rank. -/
def colM (c : Coll) : Nat := cmMembers c.comm
def colMe (c : Coll) : Nat := cmRank c.comm

/-- This member's children, and its parent's rank. -/
def colKids (s : State) (c : Coll) : List Nat := mbChildren (myEntry s c.comm)
def colParent (s : State) (c : Coll) : Nat := mbParent (myEntry s c.comm)

/-- Whether the subtree of a rank holds a contributor. -/
def colHas (s : State) (c : Coll) (k : Nat) : Bool :=
  subtreeHas s c.comm c.contribs (colM c) k

/-- The cells that a combine expects (R455): children in table order with their cell, of those whose subtree holds a
contributor. -/
def colCells (s : State) (c : Coll) : List (Nat × Nat) :=
  ((colKids s c).zipIdx.map (fun p => (p.1, p.2 + 1))).filter (fun p => colHas s c p.1)

/-- The owner of a segment in end-point mode (R456). -/
def colOwner (d : Bytes) (m j : Nat) : Nat :=
  match coOp d with
  | 0 => j % m
  | 1 => j / max 1 (coSegs d / m)
  | _ => 0

/-- The place of a segment among those of its owner. -/
def colLocal (d : Bytes) (m j : Nat) : Nat :=
  match coOp d with
  | 0 => j / m
  | 1 => j % max 1 (coSegs d / m)
  | _ => j

/-- Elements that a rank owns in end-point mode (R450, R456). -/
def colOwned (d : Bytes) (m k : Nat) : Nat :=
  let e := 2048 / coElem d
  match coOp d with
  | 0 => ((coSegs d + m - 1 - k) / m) * e
  | 1 => (coSegs d / m) * e
  | 3 => if k = 0 then coSegs d * e else 0
  | _ => 0

/-! ## Chunks (R461) -/

/-- Whether segment `j` is the last of its chunk among those that a flow carries. -/
def lastOf (flow : Nat → Bool) (total j : Nat) : Bool :=
  !((List.range (min total (32 * (j / 32) + 32) - (j + 1))).any (fun i => flow (j + 1 + i)))

/-- Keys of the running CRCs: from child cell c, up to the parent, down to the children, from rank r by RESULT, from
rank r by DATA, and out to rank r. -/
def keyUp : Nat := 8
def keyDown : Nat := 9
def keyRes (r : Nat) : Nat := 16 + r
def keyDat (r : Nat) : Nat := 0x2000 + r
def keyOut (r : Nat) : Nat := 0x4000 + r
/-- The key of the results that this member produces as an owner in end-point mode. -/
def keyOwn : Nat := 10

/-- A segment that this member produces for a flow: its payload, with the CRC of the chunk behind its last segment. -/
def sealSeg (s : State) (id key : Nat) (flow : Nat → Bool) (j : Nat) (bs : Bytes) : State × Bytes :=
  match getColl s id with
  | none => (s, bs)
  | some c =>
    let v := crc64More (smGet 0 c.crcs key) bs
    if lastOf flow (coSegs c.desc) j then
      (modColl s id (fun x => { x with crcs := smSet 0 x.crcs key 0 }),
       bs ++ crcBytes (if c.badIn.contains (j / 32) then inv64 v else v))
    else (modColl s id (fun x => { x with crcs := smSet 0 x.crcs key v }), bs)

/-- A segment that this member receives on a flow: whether the check of a chunk that it ends has failed. -/
def openSeg (s : State) (id key : Nat) (flow : Nat → Bool) (j : Nat) (payload : Bytes) : State × Bool :=
  match getColl s id with
  | none => (s, false)
  | some c =>
    let n := segLen c.desc
    let v := crc64More (smGet 0 c.crcs key) (payload.take n)
    if lastOf flow (coSegs c.desc) j then
      (modColl s id (fun x => { x with crcs := smSet 0 x.crcs key 0 }), payload.drop n != crcBytes v)
    else (modColl s id (fun x => { x with crcs := smSet 0 x.crcs key v }), false)

/-- The payload length that a segment of a flow has. -/
def flowLen (c : Coll) (flow : Nat → Bool) (j : Nat) : Nat :=
  segLen c.desc + (if lastOf flow (coSegs c.desc) j then 8 else 0)

/-! ## Waits (R465) -/

/-- A member hears of a rank: the wait for that flow begins anew. -/
def hear (s : State) (id key : Nat) : State := modColl s id (fun x => { x with heard := smSet 0 x.heard key (s.nowNs + 1) })

/-- When a member heard of a flow last; its close before that. -/
def heardAt (c : Coll) (key : Nat) : Nat := match smGet 0 c.heard key with | 0 => c.closedAt | t + 1 => t

/-! ## Landing (R462, R471) -/

/-- The destination segments of a chunk at this member. -/
def chunkSegs (c : Coll) (q : Nat) : List Nat :=
  let sp := mySpan c
  (List.range 32).map (32 * q + ·) |>.filter (fun j => decide (sp.1 ≤ j ∧ j < sp.1 + sp.2))

/-- Whether a destination chunk has landed whole. -/
def chunkDone (c : Coll) (q : Nat) : Bool := (chunkSegs c q).all c.landed.contains

/-- A destination finds a failure: the lines are poisoned, the chunk counted, an event raised (R462). -/
def failChunk (s : State) (id : Nat) (flow : Nat → Bool) (q : Nat) : State :=
  match getColl s id with
  | none => s
  | some c =>
    let sp := mySpan c
    let s1 := ((chunkSegs c q).filter flow).foldl (fun x j =>
      let a := segAddr (coDst c.desc) sp.2 (j - sp.1)
      let y := fiPoison x a.1 2048
      if coMx c.desc then fiPoison y a.2 64 else y) s
    let s2 := modColl s1 id (fun x => { x with failed := if x.failed.contains q then x.failed else x.failed ++ [q] })
    raiseEvent { s2 with coll := { s2.coll with checkFail := satAdd s2.coll.checkFail 1 } } .checkFail 0 0

/-- A result segment lands in the destination and its chunk is checked. -/
def landResult (s : State) (id src : Nat) (flow : Nat → Bool) (j : Nat) (payload : Bytes) (poison : Bool)
    (targets : List HostGrant := []) : State :=
  match getColl s id with
  | none => s
  | some c =>
    let q := j / 32
    let w := landSeg targets s c j payload poison
    let before := chunkDone c q
    let o := openSeg w.1 id (keyRes src) flow j payload
    let s1 := modColl o.1 id (fun x => { x with
      landed := if x.landed.contains j then x.landed else x.landed ++ [j],
      poisoned := if poison && !(x.poisoned.contains q) then x.poisoned ++ [q] else x.poisoned,
      memErr := x.memErr.orElse (fun _ => w.2) })
    let s2 := if o.2 then failChunk s1 id flow q else s1
    match getColl s2 id with
    | none => s2
    | some e =>
      if coProgEn c.desc && !before && chunkDone e q && !(e.failed.contains q) then bumpCounter s2 (coProgCtr c.desc)
      else s2

/-- The flow that carries every segment. -/
def flowAll : Nat → Bool := fun _ => true

/-- The flow of the segments that a rank owns. -/
def flowOwn (d : Bytes) (m k : Nat) : Nat → Bool := fun j => colOwner d m j == k

/-- The flow of a rank's shard in ALL_GATHER. -/
def flowShard (d : Bytes) (m k : Nat) : Nat → Bool :=
  fun j => decide (shardLo d m k ≤ j ∧ j < shardLo d m (k + 1))

/-- A RESULT segment goes to the children. -/
def sendDown (s : State) (id j : Nat) (payload : Bytes) (poison : Bool) : State :=
  match getColl s id with
  | none => s
  | some c =>
    let a := (segAddr (coDst c.desc) (coSegs c.desc) j).1
    (colKids s c).foldl (fun x k => collSend x c k 9 j a payload poison) s

/-! ## In-network mode (R454, R455) -/

/-- The cell of this member at its parent: child `i` in table order takes cell i + 1. -/
def colCell (s : State) (c : Coll) : Nat :=
  let r := c.comm
  (mbChildren (member s r (colParent s c))).findIdx (· == cmRank r) + 1

/-- Segment `j` goes up to the parent for one credit. -/
def sendUp (s : State) (id j : Nat) (bs : Bytes) (poison : Bool) : State :=
  let p := sealSeg s id keyUp flowAll j bs
  match getColl p.1 id with
  | none => p.1
  | some c =>
    let a := cellAddr (c.parentFirst + j % max 1 (coSlots c.desc)) (colCell s c)
    modColl (collSend p.1 c (colParent s c) 8 j a p.2 poison) id
      (fun x => { x with credits := x.credits - 1, nextUp := j + 1, lastMove := s.nowNs, lastCredit := s.nowNs })

/-- A contributor without children sends its source while it holds credits. -/
def pumpLeaf : Nat → State → Nat → State
  | 0, s, _ => s
  | k + 1, s, id =>
    match getColl s id with
    | none => s
    | some c =>
      if c.credits = 0 ∨ c.nextUp ≥ coSegs c.desc then s
      else
        let v := readSeg s c c.nextUp
        pumpLeaf k (sendUp v.1 id c.nextUp v.2.1 v.2.2) id

/-- Whether this member sends its own source up unchanged. -/
def isLeaf (s : State) (c : Coll) : Bool :=
  c.closed && coReduces c.desc && !c.endPoint && colMe c != 0 && (colKids s c).isEmpty && c.contribs.contains (colMe c)

/-- The leaf of an open collective sends what it can. -/
def pump (s : State) (id : Nat) : State :=
  match getColl s id with
  | none => s
  | some c => if isLeaf s c then pumpLeaf (min c.credits (coSegs c.desc)) s id else s

/-- The slot of segment `j` of a member that has claimed slots. -/
def colSlot (c : Coll) (j : Nat) : Nat := c.first + j % max 1 (coSlots c.desc)

/-- The inputs of a combine, in ascending cell order, and whether one of them is poisoned: as it came, or as its cell now
stands (R587). Cell 0 takes the member's own segment. -/
def combineInputs (s : State) (c : Coll) (j : Nat) : State × List Bytes × Bool :=
  let own := c.contribs.contains (colMe c)
  let v := if own then readSeg s c j else (s, [], false)
  let s1 := if own && c.claimed then write v.1 .fi (cellAddr (colSlot c j) 0) v.2.1 v.2.2 else v.1
  let cells := colCells s c
  let ins := (if own then [v.2.1] else []) ++
    cells.map (fun p => memRead s1.mem (cellAddr (colSlot c j) p.2) (segLen c.desc))
  (s1, ins, v.2.2 || cells.any (fun p => c.cellBad.contains (j, p.2) ||
    spanPoison s1.mem (cellAddr (colSlot c j) p.2) (segLen c.desc)))

/-- Items 1 to 4 of R455 over inputs in ascending cell order. -/
def combineBytes (d : Bytes) (divide : Option Nat) (ins : List Bytes) : Bytes :=
  match ins.map (segWords d) with
  | [] => zeroSeg d
  | w :: ws =>
    let sum := ws.foldl (combineWords d) w
    segBytes d (match divide with | some n => sum.map (meanWord d n) | none => sum)

/-- The root disposes of a combined segment (R447). -/
def rootOut (s : State) (id j : Nat) (bs : Bytes) (poison : Bool) : State :=
  match getColl s id with
  | none => s
  | some c =>
    let d := c.desc
    let m := colM c
    if coOp d = 1 then
      let o := colOwner d m j
      let p := sealSeg s id (keyOut o) (flowOwn d m o) j bs
      if o = 0 then landResult p.1 id 0 (flowOwn d m 0) j p.2 poison
      else collSend p.1 c o 9 j (segAddr (coDst d) (coSegs d / m) (colLocal d m j)).1 p.2 poison
    else
      let p := sealSeg s id keyDown flowAll j bs
      landResult (if coOp d = 0 then sendDown p.1 id j p.2 poison else p.1) id 0 flowAll j p.2 poison

/-- A member combines segment `j` (R455): the cells are free again and their senders get a credit. -/
def combineSeg (s : State) (id j : Nat) : State :=
  match getColl s id with
  | none => s
  | some c =>
    let x := combineInputs s c j
    let root := colMe c == 0
    let bs := combineBytes c.desc (if root && coMean c.desc then some c.n else none) x.2.1
    let cells := colCells s c
    let s1 := modColl x.1 id (fun y => { y with
      cells := y.cells.filter (fun e => e.1 != j), cellBad := y.cellBad.filter (fun e => e.1 != j) })
    let s2 := if root then modColl (rootOut s1 id j bs x.2.2) id (fun y => { y with nextUp := j + 1, lastMove := s.nowNs })
      else sendUp s1 id j bs x.2.2
    cells.foldl (fun y p => collSend y c p.1 13 j 0 []) s2

/-- Whether segment `j` is the next that this member combines, with every expected cell there and, below the root, a
credit. -/
def mayCombine (s : State) (c : Coll) (j : Nat) : Bool :=
  let root := colMe c == 0
  c.closed && coReduces c.desc && !c.endPoint && !(isLeaf s c) && j == c.nextUp && decide (j < coSegs c.desc) &&
  (root || (decide (0 < c.credits) && colHas s c (colMe c))) && (colCells s c).all (fun p => c.cells.contains (j, p.2))

/-! ## End-point mode (R456) -/

/-- The accumulators of segment `j`. -/
def epAddr (c : Coll) (j : Nat) : Nat :=
  cmScratch c.comm + 4 * (2048 / coElem c.desc) * colLocal c.desc (colM c) j

/-- Whether the accumulators of segment `j` hold a poisoned line. -/
def epPoison (s : State) (c : Coll) (j : Nat) : Bool := spanPoison s.mem (epAddr c j) (4 * (2048 / coElem c.desc))

/-- The owner's result of segment `j` is rounded, sent and landed; poisoned accumulators give a poisoned segment. -/
def epFinish (s : State) (id j : Nat) : State :=
  match getColl s id with
  | none => s
  | some c =>
    let d := c.desc
    let m := colM c
    let me := colMe c
    let n := 2048 / coElem d
    let ws := (List.range n).map (fun i => leNat (memRead s.mem (epAddr c j + 4 * i) 4))
    let bs := if c.contribs.isEmpty then zeroSeg d
      else segBytes d (if coMean d then ws.map (meanWord d c.n) else ws)
    let poison := (c.ep.filter (·.seg == j)).any (·.poison) || (!c.contribs.isEmpty && epPoison s c j)
    let p := sealSeg (modColl s id (fun x => { x with ep := x.ep.filter (·.seg != j) })) id keyOwn (flowOwn d m me) j bs
    let s1 := if coOp d = 0 then
        ((List.range m).filter (· != me)).foldl (fun x k => collSend x c k 9 j (segAddr (coDst d) (coSegs d) j).1 p.2 poison) p.1
      else p.1
    landResult s1 id me (flowOwn d m me) j p.2 poison

/-- A contributor's segment arrives at its owner. -/
def epArrive (s : State) (id src j : Nat) (payload : Bytes) (poison : Bool) : State :=
  match getColl s id with
  | none => s
  | some c =>
    let d := c.desc
    let e := (c.ep.find? (·.seg == j)).getD { seg := j, from_ := [], poison := false }
    if e.from_.contains src then staleColl s
    else
      let o := openSeg s id (keyDat src) (flowOwn d (colM c) (colMe c)) j payload
      let ws := segWords d (payload.take (segLen d))
      let old := (List.range ws.length).map (fun i => leNat (memRead s.mem (epAddr c j + 4 * i) 4))
      let acc := if e.from_.isEmpty then ws else combineWords d old ws
      let bad := e.poison || poison || (!e.from_.isEmpty && epPoison s c j)
      let s1 := fiWrite o.1 (epAddr c j) ((acc.map (leBytes 4)).flatten) bad
      let e1 : EpSeg := { seg := j, from_ := e.from_ ++ [src], poison := bad }
      let s2 := modColl s1 id (fun x => { x with
        ep := x.ep.filter (·.seg != j) ++ [e1],
        badIn := if o.2 && !(x.badIn.contains (j / 32)) then x.badIn ++ [j / 32] else x.badIn })
      if c.contribs.all e1.from_.contains then epFinish s2 id j else s2

/-- A contributor sends segment `j` to its owner. -/
def epSend (id : Nat) (s : State) (j : Nat) : State :=
  match getColl s id with
  | none => s
  | some c =>
    let d := c.desc
    let m := colM c
    let o := colOwner d m j
    let v := readSeg s c j
    let p := sealSeg v.1 id (keyOut o) (flowOwn d m o) j v.2.1
    if o = colMe c then epArrive p.1 id o j p.2 v.2.2
    else collSend p.1 c o 8 j (epAddr c j) p.2 v.2.2

/-- The whole of a member's work at the start of end-point mode. -/
def epStart (s : State) (id : Nat) : State :=
  match getColl s id with
  | none => s
  | some c =>
    let all := List.range (coSegs c.desc)
    if c.contribs.isEmpty then
      (all.filter (fun j => colOwner c.desc (colM c) j == colMe c)).foldl (fun x j => epFinish x id j) s
    else if c.contribs.contains (colMe c) then all.foldl (epSend id) s
    else s

/-! ## ALL_GATHER and BROADCAST (R447) -/

/-- The root of ALL_GATHER sends the vector down as far as it has landed, in segment order. -/
def pumpDown : Nat → State → Nat → State
  | 0, s, _ => s
  | k + 1, s, id =>
    match getColl s id with
    | none => s
    | some c =>
      if c.landed.contains c.nextUp then
        let j := c.nextUp
        let a := segAddr (coDst c.desc) (coSegs c.desc) j
        let x := fiRead s c.host a.1 2048
        let y := if coMx c.desc then fiRead x.1 c.host a.2 64 else (x.1, [], false)
        let s1 := modColl y.1 id (fun z => { z with
          nextUp := j + 1,
          badIn := if z.failed.contains (j / 32) && !(z.badIn.contains (j / 32)) then z.badIn ++ [j / 32] else z.badIn })
        let p := sealSeg s1 id keyDown flowAll j (x.2.1 ++ y.2.1)
        pumpDown k (sendDown p.1 id j p.2 (x.2.2 || y.2.2)) id
      else s

/-- A member's shard goes to the root, or lands there. -/
def gatherStart (s : State) (id : Nat) : State :=
  match getColl s id with
  | none => s
  | some c =>
    let d := c.desc
    let m := colM c
    let me := colMe c
    let sp := srcSpan d m me
    let s1 := (List.range sp.2).foldl (fun x i =>
      let j := sp.1 + i
      let v := readSeg x c j
      let p := sealSeg v.1 id keyUp (flowShard d m me) j v.2.1
      if me = 0 then landResult p.1 id 0 (flowShard d m 0) j p.2 v.2.2
      else collSend p.1 c 0 9 j (segAddr (coDst d) (coSegs d) j).1 p.2 v.2.2) s
    if me = 0 then pumpDown (coSegs d) s1 id else s1

/-- The root of BROADCAST sends its source down and lands its own copy. -/
def broadcastStart (s : State) (id : Nat) : State :=
  match getColl s id with
  | none => s
  | some c =>
    if colMe c = 0 then
      (List.range (coSegs c.desc)).foldl (fun x j =>
        let v := readSeg x c j
        let p := sealSeg v.1 id keyDown flowAll j v.2.1
        landResult (sendDown p.1 id j p.2 v.2.2) id 0 flowAll j p.2 v.2.2) s
    else s

/-! ## ALL_TO_ALLV (R461, R472, R473) -/

/-- Bytes of a window's chunk. -/
def a2aChunk : Nat := 65536

/-- The packets of a window of `n` bytes: offset, length, and whether a CRC follows. No packet passes a chunk's end. -/
def a2aCuts (n : Nat) : List (Nat × Nat × Bool) :=
  (List.range (cdiv n a2aChunk)).flatMap (fun q =>
    let len := min a2aChunk (n - a2aChunk * q)
    (pktCuts len).map (fun p =>
      (a2aChunk * q + p.1, p.2, decide (p.1 + p.2 = a2aChunk ∧ a2aChunk * q + a2aChunk < n))))

/-- A chunk of a window fails its check. -/
def failWindow (s : State) (id src lo n : Nat) : State :=
  match getColl s id with
  | none => s
  | some c =>
    let s1 := modColl (fiPoison s (coDst c.desc + src * coLen c.desc + lo) n) id
      (fun x => { x with failed := if x.failed.contains src then x.failed else x.failed ++ [src] })
    raiseEvent { s1 with coll := { s1.coll with checkFail := satAdd s1.coll.checkFail 1 } } .checkFail 0 0

/-- The chunks of window `src` before chunk `q` that have not been checked, because what ends them never came, fail
(R462). -/
def skipChunks (s : State) (id src q : Nat) : State :=
  match getColl s id with
  | none => s
  | some c =>
    let k := smGet 0 c.nextChunk src
    let s1 := if k < q then modColl s id (fun x => { x with crcs := smSet 0 x.crcs (keyRes src) 0 }) else s
    modColl ((List.range (q - k)).foldl (fun x i => failWindow x id src (a2aChunk * (k + i)) a2aChunk) s1) id
      (fun x => { x with nextChunk := smSet 0 x.nextChunk src (max k q) })

/-- The check of chunk `q`, of `n` bytes, of window `src`. -/
def checkWindow (s : State) (id src q n : Nat) (crc : Bytes) : State :=
  match getColl s id with
  | none => s
  | some c =>
    let good := crc == crcBytes (smGet 0 c.crcs (keyRes src))
    let s1 := modColl s id (fun x => { x with
      crcs := smSet 0 x.crcs (keyRes src) 0, nextChunk := smSet 0 x.nextChunk src (q + 1) })
    if !good then failWindow s1 id src (a2aChunk * q) n
    else if coProgEn c.desc then bumpCounter s1 (coProgCtr c.desc)
    else s1

/-- Window data from a rank lands at its address; a packet that ends a chunk before the window's last also carries its
CRC-64. -/
def a2aLand (s : State) (id src addr : Nat) (bs : Bytes) (mask : Nat) (targets : List HostGrant := []) : State :=
  match getColl s id with
  | none => s
  | some c =>
    let base := coDst c.desc + src * coLen c.desc
    let off := addr - base
    let q := off / a2aChunk
    let room := a2aChunk - off % a2aChunk
    let n := min bs.length room
    let extra := bs.length - n
    if addr < base ∨ coLen c.desc < off + n ∨ (extra ≠ 0 ∧ extra ≠ 8) ∨ q < smGet 0 c.nextChunk src ∨
       c.counted.contains src = true then staleColl s
    else
      let body := bs.take n
      let s0 := skipChunks s id src q
      let w := landSpan targets s0 addr body (fun l =>
        let part := linePart addr body l
        flitPoison mask (part.1 - addr) part.2.length)
      let s2 := hear (modColl w.1 id (fun x => { x with
        arrived := smSet 0 x.arrived src (off + n),
        crcs := smSet 0 x.crcs (keyRes src) (crc64More (smGet 0 x.crcs (keyRes src)) body),
        poisoned := if mask != 0 && !(x.poisoned.contains src) then x.poisoned ++ [src] else x.poisoned,
        memErr := x.memErr.orElse (fun _ => w.2) })) id (keyRes src)
      if extra = 8 then checkWindow s2 id src q a2aChunk (bs.drop n) else s2

/-- A rank's count is written and the last chunk of its window checked; a window of no bytes has none. -/
def a2aCounted (s : State) (id src : Nat) (payload : Bytes) (targets : List HostGrant := []) : State :=
  match getColl s id with
  | none => s
  | some c =>
    if c.counted.contains src then staleColl s
    else
      let s1 := (landSpan targets s (coAux1 c.desc + 4 * src) (payload.take 4) (fun _ => false)).1
      let n := min (le payload 0 4) (coLen c.desc)
      let q := (n - 1) / a2aChunk
      let s2 := if n = 0 then s1
        else checkWindow (skipChunks s1 id src q) id src q (n - a2aChunk * q) (payload.drop 4)
      hear (modColl s2 id (fun x => { x with counted := x.counted ++ [src] })) id (keyRes src)

/-- What this member sends to rank `d`: the packets of its window, and then the count. -/
def a2aSend (id : Nat) (counts : List Nat) (s : State) (d : Nat) : State :=
  match getColl s id with
  | none => s
  | some c =>
    let me := colMe c
    let n := counts.getD d 0
    let base := coSrc c.desc + d * coLen c.desc
    let v := viewSpan initFab .fi c.host (viewOf s) base n
    let data := memRead v.m base n
    let crcOf := fun (q : Nat) => crcBytes (crc64 ((data.drop (a2aChunk * q)).take a2aChunk))
    let node := mbNode (member s c.comm d)
    let s1 := (a2aCuts n).foldl (fun x p =>
      let bs := (data.drop p.1).take p.2.1 ++ (if p.2.2 then crcOf (p.1 / a2aChunk) else [])
      let mask := flitMask p.2.1 (fun o k => spanPoison v.m (base + p.1 + o) k || v.err.isSome)
      if d = me then a2aLand x id me (coDst c.desc + me * coLen c.desc + p.1) bs mask
      else
        let h := { collPkt c node 14 me (coDst c.desc + me * coLen c.desc + p.1) bs false with poison := mask }
        injectPlain x (fiFor x node) h bs (some (.coll id))) v.s
    let last := leBytes 4 n ++ (if n = 0 then crcBytes 0 else crcOf ((n - 1) / a2aChunk))
    if d = me then a2aCounted s1 id me last
    else collSend s1 c d 15 me (coAux1 c.desc + 4 * me) last

/-- After close, a member acts on its counts (R473). A count that is no multiple of 4 is taken as over capacity. -/
def a2aStart (s : State) (id : Nat) : State :=
  match getColl s id with
  | none => s
  | some c =>
    let m := colM c
    let v := fiRead s c.host (coAux0 c.desc) (4 * m)
    let counts := (List.range m).map (fun d => le v.2.1 (4 * d) 4)
    if counts.any (fun n => decide (coLen c.desc < n) || n % 4 != 0) then abortColl v.1 id .a2aOverflow
    else (List.range m).foldl (a2aSend id counts) v.1

/-! ## Completion (R471) -/

/-- Whether a member has no destination (R471): BARRIER, and REDUCE below the root. -/
def noDest (c : Coll) : Bool := coOp c.desc != 6 && (mySpan c).2 == 0

/-- Whether a member has sent every segment up; one below which no contributor stands sends none. -/
def sentUp (s : State) (c : Coll) : Bool :=
  !(coReduces c.desc) || c.endPoint || c.nextUp == coSegs c.desc || (colMe c != 0 && !(colHas s c (colMe c)))

/-- Whether everything that a member waits for is there. Without a destination, its last send is credited, or has left
its ports. -/
def collDone (s : State) (c : Coll) : Bool :=
  let d := c.desc
  c.closed &&
  (if coOp d = 6 then c.counted.length == colM c
   else if noDest c then
     sentUp s c && !(fabBusy s (.coll c.id)) &&
     (!(coReduces d) || c.endPoint || c.nextUp == 0 || c.credits == coSlots d)
   else c.landed.length == (mySpan c).2 && sentUp s c && (coOp d != 2 || colMe c != 0 || c.nextUp == coSegs d))

/-- The failed parts of a collective that ends by itself (R462). -/
def collParts (c : Coll) : Nat :=
  let bad := c.failed ++ c.poisoned
  if coOp c.desc = 6 then partBits (bad.map (· % 16))
  else
    let sp := mySpan c
    partBits (bad.map (fun q => chunkPart (dstChunks sp) (q - sp.1 / 32)))

/-- A collective completes with the first status that applies. -/
def finishColl (s : State) (id : Nat) : State :=
  match getColl s id with
  | none => s
  | some c =>
    if collDone s c then
      let st := match c.memErr with
        | some e => e
        | none =>
          if !c.poisoned.isEmpty then .poisoned
          else if !c.failed.isEmpty then .checkFail
          else if c.endPoint then .orderChanged
          else .ok
      let s1 := { s with coll := { s.coll with
        completed := satAdd s.coll.completed 1,
        orderChanged := if c.endPoint then satAdd s.coll.orderChanged 1 else s.coll.orderChanged } }
      closeColl s1 c st (collParts c)
    else s

/-! ## The opening round (R450 to R453) -/

/-- The late buffer's header at this member (R468), with the lines of host windows that came; none where it is not valid,
or read as poisoned. -/
def lateHdr (s : State) (host : List HostLine) (d : Bytes) : State × Option Bytes :=
  let v := fiRead s host (coAux1 d) 64
  (v.1, if !v.2.2 && flag v.2.1 6 0 then some v.2.1 else none)

/-- The contribution count at aux0 (R450, R466). -/
def countAt (s : State) (c : Coll) : State × Nat :=
  if !(coDeadline c.desc) || coAux0 c.desc == 0 then (s, 1)
  else let v := fiRead s c.host (coAux0 c.desc) 2; (v.1, leNat v.2.1)

/-- The join record of a member as it stands (R450). -/
def joinRec (s : State) (c : Coll) : Nat :=
  let r := c.comm
  let needs := coReduces c.desc && !(colKids s c).isEmpty
  let epOk := decide (4 * colOwned c.desc (cmMembers r) (cmRank r) ≤ cmEpLen r)
  (if c.claimed then c.first else 0) + 2 ^ 12 + 2 ^ 13 * b2n (c.claimed || !needs) + 2 ^ 14 * b2n c.ready +
    2 ^ 15 * b2n epOk + 2 ^ 16 * (if c.ready then c.count % 65536 else 0)

/-- The payload of a CLOSE to rank `k`. -/
def closeBody (c : Coll) (m n k parent : Nat) (ep : Bool) (contribs : List Nat) : Bytes :=
  leBytes 4 n ++ [BitVec.ofNat 8 (b2n ep), 0] ++
    leBytes 2 (if k = 0 then 0 else bits (smGet 0 c.joins parent) 0 12) ++ leBytes 2 contribs.length ++ zeroBytes 6 ++
    leBytes (4 * cdiv m 32) (contribs.foldl (fun v i => v ||| 2 ^ i) 0)

/-- A non-contributor at close: its micro-batches become LATE, and a snapshot is taken (R467, R468). -/
def leftOut (s : State) (id : Nat) : State :=
  match getColl s id with
  | none => s
  | some c =>
    let d := c.desc
    let late := fun (x : State) =>
      (List.range 256).foldl (fun a mb => if mbStep a mb = c.step % 2 ^ 32 then lateMb a mb c.lateDefault else a) x
    let s1 := match getPhase s c.stream c.phase with
      | some ph => withTrn ph late s
      | none => late s
    if coLateCarry d then
      let n := bufLen d (srcSpan d (colM c) (colMe c)).2
      let k := countAt s1 c
      let v := viewSpan initFab .fi c.host (viewOf k.1) (coSrc d) n
      let hdr := leBytes 4 (coSeq d) ++ leBytes 2 (k.2 % 65536) ++ [1] ++ zeroBytes 57
      modColl (copySpan v.m (fiWrite v.s (coAux1 d) hdr false) initFab .fi (coSrc d) (coAux1 d + 64) n).1 id
        (fun x => { x with snapshot := true })
    else s1

/-- After close a member moves its data (R454 to R456, R472, R473). -/
def moveData (s : State) (id : Nat) : State :=
  match getColl s id with
  | none => s
  | some c =>
    match coOp c.desc with
    | 2 => gatherStart s id
    | 4 => broadcastStart s id
    | 5 => s
    | 6 => a2aStart s id
    | _ => if c.endPoint then epStart s id else pump s id

/-- A member learns how its collective goes on (R453). -/
def applyClose (s : State) (id n : Nat) (ep : Bool) (parentFirst : Nat) (contribs : List Nat) : State :=
  match getColl s id with
  | none => s
  | some c =>
    let s1 := modColl s id (fun x => { x with closed := true, closedAt := s.nowNs, n, endPoint := ep, parentFirst,
                                              contribs, credits := coSlots x.desc, lastMove := s.nowNs, lastCredit := s.nowNs })
    let s2 := if coDeadline c.desc && !(contribs.contains (colMe c)) then leftOut s1 id else s1
    finishColl (moveData s2 id) id

/-- The coordinator closes a round (R452, R453): the control slot is cleared, and every member gets its CLOSE in rank
order, the coordinator's own last. -/
def closeRound (s : State) (id : Nat) : State :=
  match getColl s id with
  | none => s
  | some c =>
    let r := c.comm
    let m := cmMembers r
    let recOf := fun (k : Nat) => smGet 0 c.joins k
    let contribs := (List.range m).filter (fun k => bit (recOf k) 14)
    let n := (contribs.foldl (fun v k => v + recOf k / 65536) 0) % 2 ^ 32
    let ok := (List.range m).all (fun k => bit (recOf k) 13)
    let epOk := (List.range m).all (fun k => bit (recOf k) 15)
    let s1 := write s .fi (redSlot (cmCtl r)) (zeroBytes 0x4000)
    let s2 := if ok then s1 else { s1 with coll := { s1.coll with noSlot := satAdd s1.coll.noSlot 1 } }
    if !ok && !epOk then abortColl s2 id .noSlot
    else
      let s3 := ((List.range m).filter (· != 0)).foldl (fun x k =>
        collSend x c k 11 k 0 (closeBody c m n k (mbParent (member s r k)) (!ok) contribs)) s2
      applyClose s3 id n (!ok) 0 contribs

/-- The round closes at the earliest of the times of R451. -/
def tryClose (s : State) (id : Nat) : State :=
  match getColl s id with
  | none => s
  | some c =>
    let rs := (List.range (colM c)).map (smGet 0 c.joins)
    if !c.closed && rs.all (fun v => bit v 12) &&
       (!(coDeadline c.desc) || rs.all (fun v => bit v 14) ||
        decide (c.started + 1000 * coDeadlineUs c.desc ≤ s.nowNs)) then closeRound s id
    else s

/-- A join is stored at the coordinator, which may close the round. -/
def joinAt (s : State) (id rank rec_ : Nat) : State :=
  match getColl s id with
  | none => s
  | some c =>
    let r := c.comm
    let s1 := write s .fi (redSlot (cmCtl r) + 4 * rank) (leBytes 4 rec_)
    tryClose (modColl s1 id (fun x => { x with joins := smSet 0 x.joins rank rec_ })) id

/-- A member joins, or tells the coordinator that it is ready. -/
def sendJoin (s : State) (id : Nat) : State :=
  match getColl s id with
  | none => s
  | some c =>
    let r := c.comm
    if cmRank r = 0 then joinAt s id 0 (joinRec s c)
    else collSend s c 0 10 (cmRank r) (redSlot (cmCtl r) + 4 * cmRank r) (leBytes 4 (joinRec s c))

/-! ## Packets (R458, R464) -/

/-- A DATA packet from a rank (R454, R456). -/
def takeData (s : State) (c : Coll) (src j : Nat) (payload : Bytes) (poison : Bool) : State :=
  let d := c.desc
  let m := colM c
  if !(coReduces d) || decide (coSegs d ≤ j) then staleColl s
  else if c.endPoint then
    if colOwner d m j = colMe c ∧ payload.length = flowLen c (flowOwn d m (colMe c)) j ∧ c.contribs.contains src = true then
      epArrive (hear s c.id (keyDat src)) c.id src j payload poison
    else staleColl s
  else
    match (colCells s c).find? (·.1 == src) with
    | none => staleColl s
    | some (_, cell) =>
      let k := max 1 (coSlots d)
      if c.cells.any (fun e => e.2 == cell && e.1 % k == j % k) || decide (j < c.nextUp) || !c.claimed ||
         payload.length != flowLen c flowAll j then staleColl s
      else
        let o := openSeg s c.id cell flowAll j payload
        let s1 := write o.1 .fi (cellAddr (colSlot c j) cell) (payload.take (segLen d)) poison
        modColl s1 c.id (fun x => { x with
          cells := x.cells ++ [(j, cell)],
          cellBad := if poison then x.cellBad ++ [(j, cell)] else x.cellBad,
          badIn := if o.2 && !(x.badIn.contains (j / 32)) then x.badIn ++ [j / 32] else x.badIn })

/-- The flow of a RESULT from a rank, and whether it goes on to the children; none where no such packet is due. -/
def resultFlow (s : State) (c : Coll) (src : Nat) : Option ((Nat → Bool) × Bool) :=
  let d := c.desc
  let m := colM c
  let me := colMe c
  if c.endPoint then (if coOp d = 0 then some (flowOwn d m src, false) else none)
  else
    match coOp d with
    | 1 => if src = 0 ∧ me ≠ 0 then some (flowOwn d m me, false) else none
    | 2 => if me = 0 then some (flowShard d m src, false) else if src = colParent s c then some (flowAll, true) else none
    | 0 => if me ≠ 0 ∧ src = colParent s c then some (flowAll, true) else none
    | 4 => if me ≠ 0 ∧ src = colParent s c then some (flowAll, true) else none
    | _ => none

/-- A RESULT packet from a rank. -/
def takeResult (s : State) (c : Coll) (src j : Nat) (payload : Bytes) (poison : Bool) (targets : List HostGrant) : State :=
  match resultFlow s c src with
  | none => staleColl s
  | some (flow, down) =>
    if flow j && decide (j < coSegs c.desc) && payload.length == flowLen c flow j then
      let s1 := hear (landResult (if down then sendDown s c.id j payload poison else s) c.id src flow j payload poison targets)
        c.id (keyRes src)
      if coOp c.desc = 2 ∧ colMe c = 0 then pumpDown (coSegs c.desc) s1 c.id else s1
    else staleColl s

/-- A CLOSE packet. -/
def takeClose (s : State) (c : Coll) (p : Bytes) : State :=
  if c.closed then staleColl s
  else
    let m := colM c
    let map := leNat ((p.drop 16).take (4 * cdiv m 32))
    applyClose s c.id (le p 0 4) (flag p 4 0) (bits (le p 6 2) 0 12) ((List.range m).filter (fun k => bit map k))

/-- The rank that a packet comes from, held against the member table (R464). -/
def senderRank (s : State) (r : Bytes) (b : Bytes) : Option Nat :=
  let item := le b 54 2
  let ranked := fun (k : Nat) => if k < cmMembers r ∧ mbNode (member s r k) = pkSrc b then some k else none
  match pkKind b with
  | 10 => ranked item
  | 14 => ranked item
  | 15 => ranked item
  | 11 => ranked 0
  | _ => rankOf s r (pkSrc b)

/-- A packet of an open collective, its data in order. -/
def collPacket (s : State) (c : Coll) (src : Nat) (b : Bytes) (targets : List HostGrant) : State :=
  let j := le b 54 2
  let p := pkPayload b
  let poison := pkPoison b != 0
  let s1 :=
    match pkKind b with
    | 8 => takeData s c src j p poison
    | 9 => takeResult s c src j p poison targets
    | 10 => if colMe c = 0 then (if c.closed then s else joinAt s c.id src (le p 0 4)) else staleColl s
    | 11 => takeClose s c p
    | 12 => abortedBy s c ((statusOf j).getD .timeout)
    | 13 => pump (modColl s c.id (fun x => { x with credits := x.credits + 1, lastCredit := s.nowNs })) c.id
    | 14 => if coOp c.desc = 6 then a2aLand s c.id src (pkAddr b) p (pkPoison b) targets else staleColl s
    | _ => if coOp c.desc = 6 ∧ p.length = 12 then a2aCounted s c.id src p targets else staleColl s
  finishColl s1 c.id

/-- Whether a 16-bit seq is the next of a communicator; before its first collective, any is. -/
def isNextSeq (s : State) (comm seq : Nat) : Bool :=
  let v := smGet 0 s.coll.nextSeq comm
  v == 0 || (v - 1) % 65536 == seq

/-- Whether a kind carries a hash that is held against the op's own (R464). -/
def hashed (kind : Nat) : Bool := kind == 8 || kind == 9 || kind == 10 || kind == 14 || kind == 15

/-- A packet kept until its collective has issued or closed here. -/
def keepEarly (s : State) (e : EarlyPkt) : State :=
  { s with coll := { s.coll with early := s.coll.early ++ [e] }, fab := { s.fab with nextId := max s.fab.nextId (e.id + 1) } }

/-- A collective packet that has passed the checks of R427 (R463, R464). -/
def collTake (s : State) (e : EarlyPkt) : State :=
  let b := e.packet
  let comm := earlyComm e
  let seq := earlySeq e
  let kind := pkKind b
  match commRec s comm with
  | none => staleColl s
  | some r =>
    match senderRank s r b with
    | none => staleColl s
    | some src =>
      match s.coll.colls.find? (fun c => coComm c.desc == comm && coSeq c.desc % 65536 == seq) with
      | some c =>
        if hashed kind && (b.drop 42).take 8 != crcBytes (coHash c.desc) then abortColl s c.id .mismatch
        else if !c.closed && !(kind == 10 || kind == 11 || kind == 12) then keepEarly s e
        else collPacket s c src b e.targets
      | none =>
        if isNextSeq s comm seq then
          if kind = 12 then
            { s with coll := { s.coll with
              heldAbort := smSet (0, 0) s.coll.heldAbort comm (seq + 1, le b 54 2) } }
          else if kind = 10 ∧ cmRank r ≠ 0 then staleColl s
          else
            let s1 := if kind = 10 then write s .fi (redSlot (cmCtl r) + 4 * src) ((pkPayload b).take 4) else s
            keepEarly s1 e
        else staleColl s

/-- Whether the ports of a packet's host-window lines take writes. -/
def portsUp (s : State) (targets : List HostGrant) : Bool :=
  targets.all (fun t => (getPort s t.2.1).linkUp && !(getPort s t.2.1).lost)

/-- A packet that waits is taken; one whose port is lost meanwhile can no longer be posted, and counts as discarded (R424,
R492). -/
def takeEarly (s : State) (e : EarlyPkt) : State :=
  if portsUp s e.targets then collTake s e else { s with fab := { s.fab with hostDrops := satAdd s.fab.hostDrops 1 } }

/-- The packets kept for a collective are taken in their order of arrival. -/
def replayEarly (s : State) (comm seq : Nat) : State :=
  let mine := fun (e : EarlyPkt) => earlyComm e == comm && earlySeq e == seq % 65536
  (s.coll.early.filter mine).foldl takeEarly
    { s with coll := { s.coll with early := s.coll.early.filter (fun e => !(mine e)) } }

/-- The packets kept for collectives that have closed. -/
def replayDue (s : State) : State :=
  let due := s.coll.colls.filter (fun c => c.closed && s.coll.early.any (fun e =>
    earlyComm e == coComm c.desc && earlySeq e == coSeq c.desc % 65536))
  due.foldl (fun x c => replayEarly x (coComm c.desc) (coSeq c.desc)) s

/-- Every collective that may complete does. -/
def finishColls (s : State) : State := (s.coll.colls.map (·.id)).foldl finishColl s

/-! ## Limits of the waits after close (R465) -/

/-- The ranks whose RESULT a member waits for, each with its flow. -/
def resultWaits (s : State) (c : Coll) : List Nat :=
  ((List.range (colM c)).filter (· != colMe c)).filter (fun r =>
    match resultFlow s c r with
    | some (flow, _) => (List.range (mySpan c).2).any (fun i => flow ((mySpan c).1 + i) && !(c.landed.contains ((mySpan c).1 + i)))
    | none => false)

/-- The ranks whose DATA an owner waits for in end-point mode. -/
def dataWaits (c : Coll) : List Nat :=
  if c.endPoint then
    let mine := (List.range (coSegs c.desc)).filter (fun j => colOwner c.desc (colM c) j == colMe c && !(c.landed.contains j))
    c.contribs.filter (fun r => r != colMe c && mine.any (fun j =>
      !((c.ep.find? (·.seg == j)).any (fun e => e.from_.contains r))))
  else []

/-- Whether a member waits for a child's segment: one that combines waits for every expected cell of its next segment. -/
def waitsCell (s : State) (c : Coll) : Bool :=
  coReduces c.desc && !c.endPoint && !(sentUp s c) && !(isLeaf s c) &&
  (colCells s c).any (fun p => !(c.cells.contains (c.nextUp, p.2)))

/-- Whether a member waits for a credit: it has more to send up and holds none, or its last send is not yet credited. -/
def waitsCredit (s : State) (c : Coll) : Bool :=
  coReduces c.desc && !c.endPoint &&
  (if sentUp s c then noDest c && c.nextUp != 0 && c.credits != coSlots c.desc else colMe c != 0 && c.credits == 0)

/-- When each wait of a member after close began: for a segment, for a credit, for results, for data, for counts. What comes
of one kind begins no wait of another anew. -/
def waitsOf (s : State) (c : Coll) : List Nat :=
  (if waitsCell s c then [c.lastMove] else []) ++ (if waitsCredit s c then [c.lastCredit] else []) ++
  (resultWaits s c).map (fun r => heardAt c (keyRes r)) ++ (dataWaits c).map (fun r => heardAt c (keyDat r)) ++
  (if coOp c.desc = 6 then ((List.range (colM c)).filter (fun r => !(c.counted.contains r))).map (fun r => heardAt c (keyRes r))
   else [])

/-! ## Issue (R449, R450, R463, R469) -/

/-- A late buffer's valid bit is cleared. -/
def clearLate (s : State) (d : Bytes) : State := fiWrite s (coAux1 d + 6) [0] false

/-- A valid late buffer with another seq than late_seq is dropped (R469). -/
def dropLate (s : State) (host : List HostLine) (d : Bytes) : State :=
  if coDeadline d then
    let h := lateHdr s host d
    match h.2 with
    | some b =>
      if le b 0 4 != coLateSeq d then
        let s1 := clearLate h.1 d
        { s1 with coll := { s1.coll with lateDropped := satAdd s1.coll.lateDropped 1 } }
      else h.1
    | none => h.1
  else s

/-- A collective as it issues. -/
def newColl (s : State) (owner : OpOwner) (stream phase step : Nat) (late : Bool) (d comm : Bytes)
    (host : List HostLine) (first : Nat) (claimed : Bool) : Coll :=
  { id := s.coll.nextId, owner, stream, phase, step, lateDefault := late, desc := d, comm, started := s.nowNs, host, first,
    claimed, ready := !(coDeadline d), count := if coDeadline d then 0 else 1, carried := false, carry := none,
    carryBad := [], snapshot := false, joins := [], closed := false, closedAt := s.nowNs, n := 0, endPoint := false, parentFirst := 0,
    contribs := [], credits := 0, nextUp := 0, cells := [], cellBad := [], crcs := [], badIn := [], ep := [],
    landed := [], failed := [], poisoned := [], memErr := none, counted := [], arrived := [], nextChunk := [],
    lastMove := s.nowNs, lastCredit := s.nowNs, heard := [] }

/-- A collective issues: it claims its slots and joins. A held ABORT ends it at once (R463). -/
def issueColl (s : State) (owner : OpOwner) (stream phase step : Nat) (late : Bool) (d : Bytes) (host : List HostLine) :
    State :=
  let comm := coComm d
  let r := commOf s comm
  let id := s.coll.nextId
  let needs := coReduces d && !(mbChildren (myEntry s r)).isEmpty
  let run := if needs then findRun s r (coSlots d) else none
  let c := newColl s owner stream phase step late d r host (run.getD 0) run.isSome
  let s1 := { s with coll := { s.coll with
    colls := s.coll.colls ++ [c], nextId := id + 1,
    nextSeq := smSet 0 s.coll.nextSeq comm ((coSeq d + 1) % 2 ^ 32 + 1) } }
  let s2 := if run.isSome then markSlots s1 c.first (coSlots d) true else s1
  let h := smGet (0, 0) s.coll.heldAbort comm
  if h.1 = coSeq d % 65536 + 1 then
    abortHere { s2 with coll := { s2.coll with heldAbort := smSet (0, 0) s2.coll.heldAbort comm (0, 0) } } c
      ((statusOf h.2).getD .timeout)
  else
    replayEarly (sendJoin (dropLate s2 host d) id) comm (coSeq d)

/-- Whether segment `i` of a buffer of `n` at `a` holds a poisoned line. -/
def segPoison (d : Bytes) (m : Mem) (a n i : Nat) : Bool :=
  let p := segAddr a n i
  spanPoison m p.1 2048 || (coMx d && spanPoison m p.2 64)

/-- The late data added into a contribution, the late data taken first (R469). -/
def carryIn (s : State) (c : Coll) : State :=
  let d := c.desc
  let h := lateHdr s c.host d
  match h.2 with
  | none => h.1
  | some b =>
    if le b 0 4 == coLateSeq d then
      let sp := srcSpan d (colM c) (colMe c)
      let n := sp.2
      let v := viewSpan initFab .fi c.host (viewOf h.1) (coSrc d) (bufLen d n)
      let l := viewSpan initFab .fi c.host { v with err := none } (coAux1 d + 64) (bufLen d n)
      let ws := (bufWords d (memRead l.m (coAux1 d + 64) (bufLen d n)) n).zipWith (combineWords d)
        (bufWords d (memRead l.m (coSrc d) (bufLen d n)) n)
      let bad := (List.range n).filter (fun i => segPoison d l.m (coSrc d) n i || segPoison d l.m (coAux1 d + 64) n i)
      modColl (clearLate l.s d) c.id (fun x => { x with
        carry := some (wordsBuf d ws), carryBad := bad.map (sp.1 + ·), carried := true, count := le b 4 2 })
    else h.1

/-! ## Ops that a trigger entry has fired (R449, R475) -/

/-- A fired COLL op issues, or is held at issue (R449). -/
def issueFired (s : State) (f : FiredOp) : State :=
  match collCheck s f.stream f.desc with
  | some st => ownerEnd s (.fired f.id) st
  | none =>
    if collMay s (coComm f.desc) then
      issueColl { s with coll := { s.coll with firedOps := s.coll.firedOps.map (fun x =>
          if x.id = f.id then { x with waiting := false, host := [] } else x) } }
        (.fired f.id) f.stream f.phase f.step f.lateDefault f.desc f.host
    else s

/-- The first fired COLL op that is held no longer. -/
def nextWaiting (s : State) : Option FiredOp :=
  s.coll.firedOps.find? (fun f => f.waiting && f.ended.isNone && collMay s (coComm f.desc))

/-- Fired COLL ops that are held no longer issue, oldest first. -/
def startWaiting : Nat → State → State
  | 0, s => s
  | k + 1, s =>
    match nextWaiting s with
    | none => s
    | some f => startWaiting k (issueFired s f)

/-- What is left to be done at once for the collectives: packets kept for one that has closed, completions, ops that
were held. -/
def settleColls (s : State) : State :=
  let s1 := finishColls (replayDue s)
  startWaiting s1.coll.firedOps.length s1

end Sys2Proof.Machine
end

