-- ==== Sys2Proof/Machine/Fabric.lean ====
section
/-! DEFINITION. The optical fabric at its ends: what arrives, what it lands, replies, and the fabric ops of I/O lists
(12_fabric.md R408 to R411, R415 to R439; 11_command_model.md R392). -/

namespace Sys2Proof.Machine

/-! ## Ops that wait on packets (R430 to R435) -/

/-- The length of a part (R434). -/
def fabPart (len : Nat) : Nat := roundUp (cdiv len 16) 64

/-- The parts of an op of `len` bytes: number, offset and length. -/
def fabParts (len : Nat) : List (Nat × Nat × Nat) :=
  let p := fabPart len
  (List.range (cdiv len p)).map (fun k => (k, p * k, min p (len - p * k)))

/-- Fields of PUT and GET (R430). -/
def fbLocal (d : Bytes) : Nat := le d 8 6
def fbRemote (d : Bytes) : Nat := le d 16 8
def fbLen (d : Bytes) : Nat := le d 24 4
def fbRctr (d : Bytes) : Nat := field d 28 0 12
def fbEpoch (d : Bytes) : Nat := le d 30 2
def fbAck (d : Bytes) : Bool := flag d 32 0
def fbEpochEn (d : Bytes) : Bool := flag d 32 1
def fbRctrEn (d : Bytes) : Bool := flag d 32 2
def fbVia (d : Bytes) : Bool := flag d 32 3
def fbTimeout (d : Bytes) : Nat := le d 34 2
def fbResult (d : Bytes) : Nat := le d 40 6
def fbDest (d : Bytes) : Nat := le d 48 8

/-- The fields of PUT and GET. -/
def fbFields : List (Nat × Nat) :=
  hdrFields ++ [fld 8 6, fld 16 8, fld 24 4, fldBits 28 0 12, fld 30 2, fldBits 32 0 4, fld 34 2, fld 40 6, fld 48 8]

/-- Whether packets `n` bytes from `off` touch the part at `po` of `pn` bytes. -/
def touches (off n po pn : Nat) : Bool := decide (off < po + pn ∧ po < off + n)

/-- The failed parts of a PUT or GET with the status of each: that of its first failed packet, or of its read. -/
def failedParts (o : FabOp) : List (Nat × Status) :=
  let cuts := pktCuts (fbLen o.desc)
  (fabParts (fbLen o.desc)).filterMap (fun p =>
    match o.badParts.find? (·.1 == p.1) with
    | some b => some b
    | none => (o.failed.find? (fun f =>
        let c := cuts.getD f.1 (0, 0)
        touches c.1 c.2 p.2.1 p.2.2)).map (fun f => (p.1, f.2)))

/-- The packets of a DMA_COPY (R392): row, offset within the row, and length. -/
def dmaCuts (p : DmaParm) : List (Nat × Nat × Nat) :=
  (List.range p.rows).flatMap (fun r => (pktCuts p.row).map (fun c => (r, c.1, c.2)))

/-- A cluster DMA whose op ends POISONED reports the line that it read (R588, R590). -/
def dmaEvent (s : State) (n a : Nat) : State := raiseEvent s .poisoned 2 (n / 64) (memDetail a initDma false)

/-- The op's owner as one of an I/O list or a fired one. -/
def opOwner (o : FabOwner) : Option OpOwner :=
  match o with
  | .io a b c => some (.io a b c)
  | .fired k => some (.fired k)
  | _ => none

/-- A fabric op of which nothing is out any more ends (R434): failed parts of a GET are poisoned, the result word is
written. -/
def finishFab (s : State) (o : FabOp) : State :=
  let s0 := { s with fab := { s.fab with ops := s.fab.ops.filter (fun x => x.owner != o.owner) } }
  match o.owner with
  | .dma n =>
    let p := dmaParm o.desc
    let cuts := dmaCuts p
    let s1 := if localNode s (gNode p.src) || !(localNode s (gNode p.dst)) then s0 else
      o.failed.foldl (fun x f =>
        let c := cuts.getD f.1 (0, 0, 0)
        poisonRows x (gLocal p.dst + c.1 * p.dstPitch + c.2.1) c.2.2 1 0) s0
    let late := (o.failed.filter (fun f => f.2 == .timeout)).length
    let s2 := { s1 with fab := { s1.fab with timeouts := satAdd s1.fab.timeouts late } }
    let st := match o.badParts ++ o.failed with | f :: _ => f.2 | [] => .ok
    let s3 := match o.badParts, o.failed with
      | [], f :: _ =>
        let c := cuts.getD f.1 (0, 0, 0)
        if f.2 = .poisoned then dmaEvent s2 n (gLocal p.src + c.1 * p.srcPitch + c.2.1) else s2
      | _, _ => s2
    let c := getCore s3 n
    setCore s3 n { c with dma := c.dma.map (fun r => { r with status := if r.status = .ok then st else r.status, finished := true }) }
  | _ =>
    let bad := failedParts o
    let ps := fabParts (fbLen o.desc)
    let s1 := if byteAt o.desc 0 == 0x41 && !(fbVia o.desc) then
        bad.foldl (fun x b =>
          let p := ps.getD b.1 (0, 0, 0)
          fiPoison x (fbLocal o.desc + p.2.1) p.2.2) s0
      else s0
    let late := (bad.filter (fun f => f.2 == .timeout)).length
    let s2 := { s1 with fab := { s1.fab with timeouts := satAdd s1.fab.timeouts late } }
    let st := match bad with | f :: _ => f.2 | [] => .ok
    let s3 := fiWrite s2 (fbResult o.desc)
      (leBytes 2 (statusCode st) ++ leBytes 2 (partBits (bad.map (·.1))) ++ zeroBytes 4) false
    match opOwner o.owner with
    | some w => ownerEnd s3 w st
    | none => s3

/-- Every PUT, GET and remote copy of which nothing is out any more ends. -/
def settleOps (s : State) : State :=
  (s.fab.ops.filter (fun o => byteAt o.desc 0 != 0x42)).foldl (fun x o => if fabBusy x o.owner then x else finishFab x o) s

/-! ## Replies to tags (R434, R435) -/

/-- The outstanding tag that a reply answers: the arrival FI's, or another FI's of the same number. -/
def findTag (s : State) (fi tag : Nat) : Option FabTag :=
  (s.fab.tags.find? (fun t => t.fi == fi && t.tag == tag)).orElse (fun _ => s.fab.tags.find? (fun t => t.tag == tag))

/-- A packet of an op has failed with a status. -/
def failPacket (s : State) (o : FabOwner) (k : Nat) (st : Status) : State :=
  { s with fab := { s.fab with ops := s.fab.ops.map (fun x =>
      if x.owner = o then { x with failed := x.failed ++ [(k, st)] } else x) } }

/-- A tag is resolved, with a failure if there is one. -/
def resolveTag (s : State) (t : FabTag) (st : Status) : State :=
  let s1 := noteTag s t.fi t.tag
  let s2 := { s1 with fab := { s1.fab with tags := s1.fab.tags.filter (fun x => !(x.fi == t.fi && x.tag == t.tag)) } }
  if st = .ok then s2 else failPacket s2 t.owner t.part st

/-! ## Checks at the destination (R427, R428) -/

/-- Whether an address lies in the core-store range. -/
def inCoreStores (a : Nat) : Bool := decide (coreStores ≤ a ∧ a < clusterStores)

/-- Order 1: pcrc, form, and epoch_en only for core stores. -/
def orderOne (b : Bytes) : Bool :=
  wellFormedPkt b && pkPcrc b == pcrcOf b && (!(pkEpochEn b) || inCoreStores (pkAddr b))

/-- The lines that a packet is addressed to: those of its payload or request, or the one of its address where it has
neither. -/
def pktLines (b : Bytes) : List Nat :=
  if pkPlen b = 0 then [64 * (pkAddr b / 64)] else linesOf (pkAddr b) (pkPlen b)

/-- The lines of a packet that order 2 denies: setup space, and reduction memory outside class 3. -/
def orderTwoBad (b : Bytes) : List Nat :=
  (pktLines b).filter (fun l => region l == .setup || (region l == .red && pkCls b != 3))

/-- A packet denied under order 2 or 3. -/
def denyPkt (s : State) (write : Bool) (lines : List Nat) : State :=
  lines.foldl (fun x l => denyLine x initFab write l) { s with fab := { s.fab with windowDeny := satAdd s.fab.windowDeny 1 } }

/-- Whether the Window Table grants a line to a packet. -/
def pktGrants (s : State) (b : Bytes) (write : Bool) (l : Nat) : Bool :=
  (wtLookup s initFab write (pkSrc b) l).isSome &&
  (region l != .host || (hostTarget s initFab write (pkSrc b) l).isSome)

/-- Orders 2 to 4: the state with what a failure leaves, and whether the packet passes. Order 3 asks for each line that
the packet reads or writes; a collective packet for reduction memory needs no grant (R490). -/
def ordersTwoFour (s : State) (fi : Nat) (b : Bytes) (write : Bool) : State × Bool :=
  let ls := linesOf (pkAddr b) (pkPlen b)
  if !(orderTwoBad b).isEmpty then (denyPkt s write (orderTwoBad b), false)
  else
    let open_ := pkCls b == 3 && region (pkAddr b) == .red
    let bad3 := if open_ then [] else ls.filter (fun l => !(pktGrants s b write l))
    if !bad3.isEmpty then (denyPkt s write bad3, false)
    else if pkEpochEn b && (smGet 0 s.fab.epochs ((pkAddr b - coreStores) / coreStoreLen)).toNat != pkEpoch b then
      (raiseEvent { s with fab := { s.fab with staleRole := satAdd s.fab.staleRole 1 } } .staleRole 4 fi, false)
    else (s, true)

/-- Order 5: no address error under R37. -/
def orderFive (s : State) (b : Bytes) : Bool :=
  (linesOf (pkAddr b) (pkPlen b)).all (fun l =>
    region l == .host ||
    (let lo := max (pkAddr b) l
     let hi := min (pkAddr b + pkPlen b) (l + 64)
     canAccess s .fi lo (hi - lo)))

/-! ## Landing (R429) -/

/-- Port and bus address of each host-window line of a packet under the table in force (R491, R494). -/
def hostTargets (s : State) (b : Bytes) : List HostGrant :=
  ((linesOf (pkAddr b) (pkPlen b)).filter (fun l => region l == .host)).filterMap (fun l =>
    (hostTarget s initFab true (pkSrc b) l).map (fun t => (l, t)))

/-- One line of a packet's payload lands. -/
def landLine (b : Bytes) (targets : List HostGrant) (s : State) (l : Nat) : State :=
  let part := linePart (pkAddr b) (pkPayload b) l
  let po := flitPoison (pkPoison b) (part.1 - pkAddr b) part.2.length
  if region l = .host then
    match targets.find? (·.1 == l) with
    | some (_, p, bus) => emit s (.hostWrite p (bus + (part.1 - l)) part.2 po)
    | none => s
  else touch (setMem s (memWrite s.mem part.1 part.2 po)) l

/-- rctr increments after every line has landed. -/
def countLanded (b : Bytes) (s : State) : State := if pkRctrEn b then bumpCounter s (pkRctr b) else s

/-- A packet lands whole. -/
def landPkt (s : State) (b : Bytes) (targets : List HostGrant) : State :=
  countLanded b ((linesOf (pkAddr b) (pkPlen b)).foldl (landLine b targets) s)

/-- The ACK of a packet (R414, R429). The packet's input buffer `src` is freed with it, or at once where there is none
(R425). -/
def sendAck (s : State) (fi : Nat) (b : Bytes) (dst : Nat) (st : Status) (src : Option (Nat × Nat × Nat)) : State :=
  if pkAckReq b then
    injectPlain s fi { pktPlain dst 1 3 0 0 with tag := pkTag b, kindBytes := leBytes 2 (statusCode st) } [] none src
  else freeSource s src

/-- The node that an ACK goes to: the origin of a FWD_WRITE, else the sender. -/
def ackNode (b : Bytes) : Nat := if pkKind b = 4 then le b 42 2 else pkSrc b

/-- A packet that has passed its checks lands: a WRITE or FWD_WRITE with its ACK, a READ_DATA against its tag (R434,
R435), a collective packet where its collective puts it (R458). Under order 5 it is discarded, and nothing of it goes on. -/
def landChecked (s : State) (fi : Nat) (b : Bytes) (targets : List HostGrant)
    (src : Option (Nat × Nat × Nat)) : State :=
  if 8 ≤ pkKind b then
    freeSource (if orderFive s b then
      collTake s { id := s.fab.nextId, at_ := s.nowNs, fi, packet := b, targets } else s) src
  else if pkKind b = 2 then
    match findTag s fi (pkTag b) with
    | none => freeSource { s with fab := { s.fab with lateReplies := satAdd s.fab.lateReplies 1 } } src
    | some t =>
      if orderFive s b then
        freeSource (resolveTag (landPkt s b targets) t (if pkPoison b != 0 then .poisoned else .ok)) src
      else freeSource (resolveTag s t .addrError) src
  else if orderFive s b then sendAck (landPkt s b targets) fi b (ackNode b) .ok src
  else sendAck s fi b (ackNode b) .addrError src

/-- Whether a packet touches a host window. -/
def toHost (b : Bytes) : Bool := (linesOf (pkAddr b) (pkPlen b)).any (fun l => region l == .host)

/-- A checked packet for a host window waits while PCIe takes no write, and behind those that wait (R424); it keeps the
targets that its check found (R494). Every other lands at once. -/
def postOrLand (s : State) (fi : Nat) (b : Bytes) (stalled : Bool) (src : Option (Nat × Nat × Nat)) : State :=
  if toHost b && (stalled || !s.fab.posts.isEmpty) then
    let h : HostPost := { id := s.fab.nextId, at_ := s.nowNs, fi, packet := b, targets := hostTargets s b, src }
    { s with fab := { s.fab with posts := s.fab.posts ++ [h], nextId := s.fab.nextId + 1 } }
  else landChecked s fi b (hostTargets s b) src

/-- A WRITE, FWD_WRITE or collective packet at its destination (R427, R458). -/
def sinkWrite (s : State) (fi : Nat) (b : Bytes) (stalled : Bool) (src : Option (Nat × Nat × Nat)) : State :=
  let c := ordersTwoFour s fi b true
  if c.2 then postOrLand c.1 fi b stalled src else freeSource c.1 src

/-- A packet that cannot be posted any more is discarded and counted, its ACK unsent (R424). -/
def dropPost (s : State) (h : HostPost) : State :=
  freeSource { s with fab := { s.fab with hostDrops := satAdd s.fab.hostDrops 1 } } h.src

/-- A waiting packet is posted; one whose port is lost meanwhile cannot be. -/
def landPost (s : State) (h : HostPost) : State :=
  if portsUp s h.targets then landChecked s h.fi h.packet h.targets h.src else dropPost s h

/-- PCIe takes posts again: every waiting packet is posted, in order, and none that comes after them finds it stalled. -/
def drainPosts (s : State) : State :=
  s.fab.posts.foldl landPost
    { s with fab := { s.fab with posts := [], held := s.fab.held.map (fun h => { h with stalled := false }) } }

/-! ## Reads (R425, R431) -/

/-- The reply to a READ_REQ: READ_DATA to the requester, or FWD_WRITE to a third node. The request's input buffer `src` is
freed as it leaves (R425). -/
def sendReply (s : State) (fi : Nat) (b payload : Bytes) (mask : Nat) (src : Option (Nat × Nat × Nat)) : State :=
  let g := le b 42 8
  let a := gLocal g
  let base := { pktPlain (gNode g) 1 2 payload.length a with
    tag := pkTag b, epochEn := pkEpochEn b && inCoreStores a, epoch := pkEpoch b, rctrEn := pkRctrEn b, rctr := pkRctr b,
    poison := mask }
  if gNode g = pkSrc b then injectPlain s fi base payload none src
  else injectPlain s fi { base with cls := 2, kind := 4, ackReq := true, kindBytes := leBytes 2 (pkSrc b) } payload none src

/-- The data of a READ_REQ as memory `m` has it, lines of `lost` poisoned. -/
def replyFrom (s : State) (m : Mem) (fi : Nat) (b : Bytes) (lost : List Nat) (src : Option (Nat × Nat × Nat)) : State :=
  let n := pkPlen b
  let a := pkAddr b
  sendReply (touch (touch s a) (a + n - 1)) fi b (memRead m a n)
    (flitMask n (fun off k => spanPoison m (a + off) k || (linesOf (a + off) k).any lost.contains)) src

/-- A memory in which the lines that came over PCIe stand. -/
def withLines (m : Mem) (ls : List HostLine) : Mem :=
  ls.foldl (fun x l => match l.data with | some d => memWrite x l.addr d false | none => x) m

/-- A read of host memory is issued for each host-window line of a READ_REQ (R424). -/
def fetchHost (s : State) (fi : Nat) (b : Bytes) (src : Option (Nat × Nat × Nat)) : State :=
  let ls := (linesOf (pkAddr b) (pkPlen b)).filter (fun l => region l == .host)
  let id := s.fab.nextId
  let f : HostFetch := { id, at_ := s.nowNs, fi, packet := b, waits := ls, lines := [], src }
  ls.foldl (fun x l =>
    match hostTarget x initFab false (pkSrc b) l with
    | some (p, bus) => issueRead x p bus 64 (.fabric id l)
    | none => x)
    { s with fab := { s.fab with fetches := s.fab.fetches ++ [f], nextId := id + 1 } }

/-- A READ_REQ at its destination. Reads of DRAM meet its errors on the way (R329). -/
def sinkRead (s : State) (fi : Nat) (b : Bytes) (src : Option (Nat × Nat × Nat)) : State :=
  let c := ordersTwoFour s fi b false
  if !c.2 then freeSource c.1 src
  else if !(orderFive c.1 b) then replyFrom c.1 c.1.mem fi b (linesOf (pkAddr b) (pkPlen b)) src
  else
    let s1 := demandRead c.1 (pkAddr b) (pkPlen b)
    if toHost b then fetchHost s1 fi b src else replyFrom s1 s1.mem fi b [] src

/-- A fetch is answered: what has not come back is poisoned (R424). -/
def answerFetch (s : State) (f : HostFetch) : State :=
  let s1 := { s with fab := { s.fab with fetches := s.fab.fetches.filter (·.id != f.id) } }
  let lost := f.waits ++ (f.lines.filter (fun l => l.data.isNone)).map (·.addr)
  replyFrom s1 (withLines s1.mem f.lines) f.fi f.packet lost f.src

/-- A line of a fetch has come back over PCIe, or has failed. -/
def fetchLine (s : State) (id line : Nat) (data : Option Bytes) : State :=
  match s.fab.fetches.find? (·.id == id) with
  | none => s
  | some f =>
    let g : HostFetch := { f with waits := f.waits.filter (· != line), lines := f.lines ++ [{ addr := line, data }] }
    if g.waits.isEmpty then answerFetch s g
    else { s with fab := { s.fab with fetches := s.fab.fetches.map (fun x : HostFetch => if x.id = id then g else x) } }

/-- A READ_DATA at the requester (R424, R429, R434, R435). The command processor's own reads land in no memory. -/
def sinkData (s : State) (fi : Nat) (b : Bytes) (stalled : Bool) (src : Option (Nat × Nat × Nat)) : State :=
  let c := ordersTwoFour s fi b true
  if !c.2 then freeSource c.1 src
  else
    match findTag c.1 fi (pkTag b) with
    | none => freeSource { c.1 with fab := { c.1.fab with lateReplies := satAdd c.1.fab.lateReplies 1 } } src
    | some t =>
      match t.owner with
      | .cmd q d =>
        freeSource (resolveTag { c.1 with cmd := { c.1.cmd with peerData := c.1.cmd.peerData ++
          [{ queue := q, desc := d, data := pkPayload b, poison := pkPoison b }] } } t .ok) src
      | _ => if orderFive c.1 b then postOrLand c.1 fi b stalled src else freeSource (resolveTag c.1 t .addrError) src

/-- An ACK at the sender (R434, R435). -/
def sinkAck (s : State) (fi : Nat) (b : Bytes) (src : Option (Nat × Nat × Nat)) : State :=
  let c := ordersTwoFour s fi b true
  if !c.2 then freeSource c.1 src
  else
    match findTag c.1 fi (pkTag b) with
    | none => freeSource { c.1 with fab := { c.1.fab with lateReplies := satAdd c.1.fab.lateReplies 1 } } src
    | some t => freeSource (resolveTag c.1 t ((statusOf (le b 42 2)).getD .addrError)) src

/-- A packet for this node at FI `fi`, whose input buffer `src` is freed once it has been consumed (R423, R425). -/
def sinkPlain (s : State) (fi : Nat) (b : Bytes) (stalled : Bool) (src : Option (Nat × Nat × Nat)) : State :=
  if !(orderOne b) then freeSource { s with fab := { s.fab with crcDrops := satAdd s.fab.crcDrops 1 } } src
  else
    match pkKind b with
    | 0 => sinkWrite s fi b stalled src
    | 1 => sinkRead s fi b src
    | 2 => sinkData s fi b stalled src
    | 3 => sinkAck s fi b src
    | _ => sinkWrite s fi b stalled src

/-- A packet that waits at its FI goes on: it is for this node, or takes what its route gives it. -/
def takeLoop (s : State) (l : LoopPkt) : State :=
  if localNode s (pkDst l.bytes) then
    let x := match l.part, l.owner with
      | some k, some w =>
        (let t := (freeTag s l.fi).getD 0
         (takeTag s l.fi t k l.limitNs w, withTag l.bytes t))
      | _, _ => (s, l.bytes)
    sinkPlain (freeSource x.1 l.src) l.fi x.2 false none
  else routePkt s (pkDst l.bytes) (pkCls l.bytes) l

/-- Packets that wait at their FI are taken in turn, past those whose FI has no tag to give. -/
def runLoop : Nat → State → State
  | 0, s => s
  | k + 1, s =>
    match s.fab.loop.findIdx? (tagReady s) with
    | none => s
    | some i =>
      match s.fab.loop[i]? with
      | none => s
      | some l => runLoop k (takeLoop { s with fab := { s.fab with loop := s.fab.loop.eraseIdx i } } l)

/-- A packet at the head of its input buffer's channel goes to this node's FI or through the router (R418). -/
def takeIn (s : State) (h : HeldPkt) : State :=
  if !s.fab.en then freeSource (countNoRoute s) (some h.src)
  else if localNode s (pkDst h.bytes) then sinkPlain s h.fi h.bytes h.stalled (some h.src)
  else forwardPkt s h.fi (some h.src) h.bytes

/-- A packet whole in its input buffer is taken, or waits its turn: every channel's buffer is first in, first out (R417). -/
def comeIn (s : State) (h : HeldPkt) : State :=
  if channelBusy s h.src.1 h.src.2.1 || s.fab.held.any (fun x => x.src.1 == h.src.1 && x.src.2.1 == h.src.2.1) then
    { s with fab := { s.fab with held := s.fab.held ++ [h] } }
  else takeIn s h

/-- What waits at an FI goes on, and then the packets whose turn in their input buffers has come. -/
def moveOn : Nat → State → State
  | 0, s => s
  | k + 1, s =>
    let s1 := runLoop (4 * s.fab.loop.length + 4) s
    match s1.fab.held.findIdx? (fun h => !(channelBusy s1 h.src.1 h.src.2.1)) with
    | none => s1
    | some i =>
      match s1.fab.held[i]? with
      | none => s1
      | some h => moveOn k (takeIn { s1 with fab := { s1.fab with held := s1.fab.held.eraseIdx i } } h)

/-- Collectives move on and fired ops end, turn by turn: the end of one may let another issue (R449, R475). -/
def settleTurns : Nat → State → State
  | 0, s => s
  | k + 1, s => settleTurns k (settleAllFired (settleColls s))

/-- What a command of the fabric leaves to be done at once: packets to itself and those whose turn has come, ops that have
ended, collectives, fired ops. -/
def settleFab (s : State) : State :=
  let s1 := settleOps (moveOn (s.fab.held.length + 1) s)
  settleTurns (s1.coll.firedOps.length + 1) s1

/-! ## Arrival (R411, R416, R418, R423) -/

/-- The kind by which a packet is taken: one whose kind and class disagree is taken as a WRITE that fails order 1. -/
def takenKind (b : Bytes) : Nat := if kindClass (pkKind b) = some (pkCls b) then pkKind b else 0

/-- A packet comes in on port `p` with the credits that its header returns. -/
def enterBuffer (s : State) (p : Nat) (b : Bytes) (stalled : Bool) : State :=
  comeIn (bufferPkt (drainPort (setFab s p (creditsIn (getFab s p) b)) p) p b)
    { fi := p, bytes := b, stalled, src := (p, pkVc b, b.length / 64) }

/-- A packet for this node arrives on port `p`. A header that cannot be trusted drops the port. A packet that is not
of `kind`, or is for another node, is another command's. `pcie` says, for a packet that lands data, whether PCIe takes no write
at the moment; where it does, what waits goes first (R424). -/
def arrive (p : FabPort) (b : Bytes) (kind : Nat) (pcie : Option Bool) (s : State) : State :=
  let n := p.toNat
  if !(portCarries s n) then s
  else if !(headerGood b) then settleFab (dropPort s n)
  else if pkFtype b ≠ 1 ∨ localNode s (pkDst b) = false ∨ takenKind b ≠ kind then s
  else settleFab (enterBuffer (if pcie = some false then drainPosts s else s) n b (pcie == some true))

/-- WRITE (R424, R429). A kind that R414 does not list, or a packet whose class does not suit its kind, is taken here and
discarded. -/
def execWrite (port : FabPort) (packet : Bytes) (stalled : Bool) (s : State) : Res :=
  .next (arrive port packet 0 (some stalled) s)

/-- READ_REQ (R425). -/
def execReadReq (port : FabPort) (packet : Bytes) (s : State) : Res := .next (arrive port packet 1 none s)

/-- READ_DATA (R424, R429, R434). -/
def execReadData (port : FabPort) (packet : SinkPacket) (s : State) : Res :=
  .next (arrive port packet.bytes 2 (some packet.stalled) s)

/-- ACK (R434). -/
def execAck (port : FabPort) (packet : Bytes) (s : State) : Res := .next (arrive port packet 3 none s)

/-- FWD_WRITE (R424, R431). -/
def execFwdWrite (port : FabPort) (packet : SinkPacket) (s : State) : Res :=
  .next (arrive port packet.bytes 4 (some packet.stalled) s)

/-- IDLE (R415): credits come back, and the codewords that the port corrected or could not correct are counted. -/
def execIdle (port : FabPort) (flit : Bytes) (corrected uncorrectable : BitVec 16) (s : State) : Res :=
  let n := port.toNat
  if !(portCarries s n) then .next s
  else
    let x := getFab s n
    let s1 := setFab s n { x with corrected := satAdd x.corrected corrected.toNat,
                                  uncorrectable := satAdd x.uncorrectable uncorrectable.toNat }
    if !(headerGood flit) then .next (settleFab (dropPort s1 n))
    else if pkFtype flit ≠ 0 then .next s1
    else .next (settleFab (drainPort (setFab s1 n (creditsIn (getFab s1 n) flit)) n))

/-- ROUTER_FORWARD (R416, R418 to R421): a packet for another node. -/
def execRouterForward (port : FabPort) (packet : Bytes) (s : State) : Res :=
  let n := port.toNat
  if !(portCarries s n) then .next s
  else if !(headerGood packet) then .next (settleFab (dropPort s n))
  else if pkFtype packet ≠ 1 ∨ localNode s (pkDst packet) = true ∨ packet.length ≠ 64 * (pkFlits packet + 1) then .next s
  else .next (settleFab (enterBuffer s n packet false))

/-- 50 µs in nanoseconds (R424). -/
def sinkLimit : Nat := 50000

/-- A collective packet for a host window that has waited too long for its collective is discarded. -/
def dropEarly (s : State) (e : EarlyPkt) : State :=
  { s with coll := { s.coll with early := s.coll.early.filter (·.id != e.id) },
           fab := { s.fab with hostDrops := satAdd s.fab.hostDrops 1 } }

/-- HOST_SINK_TIMEOUT (R424): a packet not posted in time is discarded; a read without its completion is answered with
poisoned data. -/
def execHostSinkTimeout (id : Nat) (s : State) : Res :=
  match s.fab.posts.find? (·.id == id) with
  | some h =>
    if h.at_ + sinkLimit ≤ s.nowNs then
      .next (settleFab (dropPost { s with fab := { s.fab with posts := s.fab.posts.filter (·.id != id) } } h))
    else .next s
  | none =>
    match s.fab.fetches.find? (·.id == id) with
    | some f => if f.at_ + sinkLimit ≤ s.nowNs then .next (settleFab (answerFetch s f)) else .next s
    | none =>
      match s.coll.early.find? (·.id == id) with
      | some e => if e.at_ + sinkLimit ≤ s.nowNs ∧ e.targets ≠ [] then .next (settleFab (dropEarly s e)) else .next s
      | none => .next s

/-- FABRIC_TIMEOUT (R434): the reply of a tagged packet has not come within its limit. -/
def execFabricTimeout (fi : FabPort) (tag : BitVec 24) (s : State) : Res :=
  match s.fab.tags.find? (fun t => t.fi == fi.toNat && t.tag == tag.toNat) with
  | none => .next s
  | some t => if t.injected + t.limitNs ≤ s.nowNs then .next (settleFab (resolveTag s t .timeout)) else .next s

/-! ## Links (R408 to R411, R438, R439) -/

/-- PORT_LIGHT_DETECTED (R408, R411). -/
def execPortLightDetected (port : FabPort) (s : State) : Res :=
  let x := getFab s port.toNat
  if x.st = 1 ∧ x.stay = false ∧ x.hot = false then .next (enterPort s port.toNat 2) else .next s

/-- PORT_CLOCK_LOCK (R408). -/
def execPortClockLock (port : FabPort) (s : State) : Res :=
  if (getFab s port.toNat).st = 2 then .next (enterPort s port.toNat 3) else .next s

/-- PORT_CODEWORD_LOCK (R408). -/
def execPortCodewordLock (port : FabPort) (s : State) : Res :=
  if (getFab s port.toNat).st = 3 then .next (enterPort s port.toNat 4) else .next s

/-- PORT_TRAINED (R408, R410): the port enters PARAM and sends its node id and port number. -/
def execPortTrained (port : FabPort) (s : State) : Res :=
  if (getFab s port.toNat).st = 4 then
    .next (emit (enterPort s port.toNat 5) (.param port.toNat s.fab.nodeId.toNat))
  else .next s

/-- PARAM (R410): the peer's node id and port number. -/
def execParam (port : FabPort) (node : BitVec 16) (peerPort : BitVec 4) (s : State) : Res :=
  let x := getFab s port.toNat
  if x.st = 5 then
    .next (settleParam (setFab s port.toNat { x with peerNode := node, peerPort, paramSeen := true, since := s.nowNs }) port.toNat)
  else .next s

/-- 50 ms in nanoseconds. -/
def stateLimit : Nat := 50000000

/-- PORT_STATE_TIMEOUT (R408): SIGNAL to PARAM last 50 ms without progress; PARAM waits without limit for assigned node
ids. -/
def execPortStateTimeout (port : FabPort) (s : State) : Res :=
  let x := getFab s port.toNat
  let counts := (2#3 ≤ x.st && x.st ≤ 4#3) ||
    (x.st == 5 && x.paramSeen && x.peerNode != 0xFFFF && s.fab.nodeId != 0xFFFF)
  if counts && decide (x.since + stateLimit ≤ s.nowNs) then
    .next (enterPort (setFab s port.toNat { x with retrains := satAdd x.retrains 1, act := x.cfg }) port.toNat 1)
  else .next s

/-- The header of a packet whose tail has not come in, with the payload flits that have. -/
def cutGood (b : Bytes) : Bool := headerGood b && pkFtype b == 1 && decide (b.length < 64 * (pkFlits b + 1))

/-- A packet cut off by the drop of the port that it came in through is completed: here it fails order 1, elsewhere its
destination discards it (R437). -/
def takeCut (s : State) (p : Nat) (b : Bytes) : State :=
  if !(cutGood b) then s
  else if !s.fab.en then countNoRoute s
  else if localNode s (pkDst b) then { s with fab := { s.fab with crcDrops := satAdd s.fab.crcDrops 1 } }
  else comeIn s { fi := p, bytes := completeCut b, stalled := false, src := (p, pkVc b, 0) }

/-- LINK_DROP (R411, R437). -/
def execLinkDrop (port : FabPort) (loss : LinkLoss) (s : State) : Res :=
  let n := port.toNat
  if portUp s n then
    let x := getFab s n
    let s1 := if loss.cause = .codeword then setFab s n { x with uncorrectable := satAdd x.uncorrectable 1 } else s
    .next (settleFab (takeCut (dropPort s1 n) n loss.cut))
  else .next s

/-- The offset of FAB_PORT_CFG[p]. -/
def portCfgOff (p : Nat) : Nat := 0x060100 + 8 * p

/-- A value written to FAB_PORT_CFG: reserved bits stay as they are. -/
def cfgWord (old : BitVec 64) (v : Nat) : BitVec 64 := wrField (wrField old v 0 7) v 16 21

/-- The effect of a write to FAB_PORT_CFG (R408, R411). -/
def writePortCfg (p value : Nat) (s : State) : State :=
  let x := getFab s p
  let c := cfgWord x.cfg value
  let s1 := setFab s p { x with cfg := c, act := if x.st = 6 then x.act else c, stay := false }
  if !(cfgEn c) then settleFab (disablePort s1 p)
  else if x.st = 7 then enterPort s1 p 1
  else wakePort s1 p

/-- FAB_PORT_CFG (R408). -/
def execFabPortCfg (hport : HPort) (port : FabPort) (value : BitVec 64) (s : State) : Res :=
  .next (hostSetup s hport (portCfgOff port.toNat) 8 value.toNat (writePortCfg port.toNat value.toNat))

/-- A pair's bypass is joined, or begins to (R438, R439). -/
def joinPair (s : State) (i : Nat) : State :=
  let s1 := disablePort (disablePort s (2 * i)) (2 * i + 1)
  { s1 with fab := { s1.fab with joined := s1.fab.joined ||| BitVec.ofNat 8 (2 ^ i) } }

/-- The effect of a write to FAB_BYPASS: designate and lock only while lock is 0 (R16, R439). -/
def writeBypass (value : Nat) (s : State) : State :=
  let f := s.fab
  let hold : BitVec 8 := BitVec.ofNat 8 (bits value 8 8)
  let s1 := { s with fab := { f with hold, designate := if f.bypLock then f.designate else BitVec.ofNat 8 (bits value 0 8),
                                     bypLock := f.bypLock || bit value 31 } }
  settleFab ((List.range 8).foldl (fun x i => if hold.getLsbD i && !(x.fab.joined.getLsbD i) then joinPair x i else x) s1)

/-- FAB_BYPASS (R439). -/
def execFabBypass (hport : HPort) (value : BitVec 32) (s : State) : Res :=
  .next (hostSetup s hport 0x060008 4 value.toNat (writeBypass value.toNat))

/-- Whether a pair's bypass stays joined: held, or joined for Parked (R439). -/
def pairHeld (s : State) (i : Nat) : Bool :=
  s.fab.hold.getLsbD i || (s.pwr.state == 4 && s.fw.parkedBypass && s.fab.designate.getLsbD i) || s.rst.supply != .on

/-- BYPASS_SWITCH_DONE (R439): an opening switch has finished; one that joins reads as joined from its start. -/
def execBypassSwitchDone (pair : BitVec 3) (s : State) : Res :=
  let i := pair.toNat
  if s.fab.joined.getLsbD i && !(pairHeld s i) then
    let m : BitVec 8 := BitVec.ofNat 8 (255 - 2 ^ i)
    .next (wakePort (wakePort { s with fab := { s.fab with joined := s.fab.joined &&& m } } (2 * i)) (2 * i + 1))
  else .next s

/-- One word of the route table: four entries at once (R422). -/
def writeRoute (index value : Nat) (s : State) : State :=
  { s with fab := { s.fab with route := (List.range 4).foldl (fun m j =>
      smSet 0 m (4 * index + j) (BitVec.ofNat 8 (bits value (8 * j) 5))) s.fab.route } }

/-- FAB_ROUTE_TAB (R422). -/
def execFabRouteTab (hport : HPort) (index : BitVec 14) (value : BitVec 32) (s : State) : Res :=
  .next (hostSetup s hport (0x070000 + 4 * index.toNat) 4 value.toNat (writeRoute index.toNat value.toNat))

/-! ## PUT, GET, AWAIT, ROLE_SET (R430 to R436) -/

/-- A fabric op is rejected, or ends at issue: it completes, and a stopping status ends its phase (R436). -/
def fabReject (loc : OpLoc) (s : State) (o : NextOp) (st : Status) : State :=
  fabricStops (rejectAt loc s o st) o.tok.stream o.tok.phase o.desc st

/-- The check of PUT and GET at issue (R430, R390, R18). -/
def fabCheck (s : State) (id : Nat) (d : Bytes) : Check :=
  firstFail [
    failIf (!(reservedZero d fbFields)) .badReserved,
    failIf (!(ctrCheck s id (opHdr d))) .badField,
    failIf (fbLen d == 0 || fbLen d % 4 != 0 || fbResult d % 8 != 0) .badField,
    failIf (!(fiAddrOk s (fbResult d) 8)) .badField,
    failIf ((byteAt d 0 == 0x40 || !(fbVia d)) && !(fiAddrOk s (fbLocal d) (fbLen d))) .badField]

/-- The FI that carries a transfer with a node, of the port that its route names: none where the route is invalid or the
router is off (R430). A port that is not UP takes the packets all the same, and they are discarded (R418). -/
def fabRoute (s : State) (node : Nat) : Option Nat :=
  if !s.fab.en then none else if localNode s node then some 0 else routeValid s node

/-- A fabric op in progress is noted. -/
def noteFab (s : State) (o : FabOp) : State := { s with fab := { s.fab with ops := s.fab.ops ++ [o] } }

/-- A fabric op as it begins. -/
def newFab (s : State) (w : FabOwner) (fi id p : Nat) (d : Bytes) : FabOp :=
  { owner := w, fi, stream := id, phase := p, desc := d, started := s.nowNs, failed := [], badParts := [] }

/-- The packets of a PUT leave or wait for credits; a part that cannot be read is sent as poisoned data (R372, R431). -/
def startPut (s : State) (w : FabOwner) (fi id p : Nat) (d : Bytes) (host : List HostLine) : State :=
  let v := viewSpan initFab .fi host (viewOf s) (fbLocal d) (fbLen d)
  let badOf := fun (q : Nat × Nat × Nat) =>
    let w := viewSpan initFab .fi host (viewOf s) (fbLocal d + q.2.1) q.2.2
    match w.err with
    | some e => some (q.1, e)
    | none => if spanPoison v.m (fbLocal d + q.2.1) q.2.2 then some (q.1, Status.poisoned) else none
  let bad := (fabParts (fbLen d)).filterMap badOf
  let isBad := fun (off : Nat) => bad.any (fun b => b.1 == off / fabPart (fbLen d))
  let node := gNode (fbRemote d)
  let s1 := noteFab v.s { newFab s w fi id p d with badParts := bad }
  (pktCuts (fbLen d)).zipIdx.foldl (fun x c =>
    let off := c.1.1
    let a := gLocal (fbRemote d) + off
    let h := { pktPlain node 0 0 c.1.2 a with
      ackReq := fbAck d, epochEn := fbEpochEn d, epoch := fbEpoch d, rctrEn := fbRctrEn d, rctr := fbRctr d,
      poison := flitMask c.1.2 (fun o _ => isBad (off + o)) }
    injectPkt x fi node 0 (buildPkt s.fab.nodeId.toNat h (memRead v.m (fbLocal d + off) c.1.2))
      (if fbAck d then some c.2 else none) (classNs s 0 (fbTimeout d)) (some w)) s1

/-- The READ_REQs of a GET (R431). -/
def startGet (s : State) (w : FabOwner) (fi id p : Nat) (d : Bytes) : State :=
  let node := gNode (fbRemote d)
  (pktCuts (fbLen d)).zipIdx.foldl (fun x c =>
    let recv := if fbVia d then fbDest d + c.1.1 else s.fab.nodeId.toNat * 2 ^ 48 + fbLocal d + c.1.1
    let h := { pktPlain node 0 1 c.1.2 (gLocal (fbRemote d) + c.1.1) with
      epochEn := fbEpochEn d, epoch := fbEpoch d, rctrEn := fbRctrEn d, rctr := fbRctr d, kindBytes := leBytes 8 recv }
    injectPkt x fi node 0 (buildPkt s.fab.nodeId.toNat h []) (some c.2) (classNs s 1 (fbTimeout d)) (some w))
    (noteFab s (newFab s w fi id p d))

/-- The owner of an op of an I/O list. -/
def ioOwner (o : NextOp) : FabOwner := .io o.tok.stream o.tok.phase o.idx

/-- The next op at a place of an I/O list, if it carries the opcode and may start. -/
def fabNext (loc : OpLoc) (s : State) (op : Nat) : Option NextOp :=
  match loc with
  | .io id p => startableIo s id.toNat p.toNat op
  | .core _ => none

/-- PUT (R431). -/
def execPut (loc : OpLoc) (host : List HostLine) (s : State) : Res :=
  match fabNext loc s 0x40 with
  | none => .next s
  | some o =>
    match fabCheck s o.tok.stream o.desc with
    | some st => .next (fabReject loc s o st)
    | none =>
      match fabRoute s (gNode (fbRemote o.desc)) with
      | none => .next (fabReject loc s o .noRoute)
      | some fi =>
        .next (settleFab (startPut (startIo s o.tok.stream o.tok.phase o) (ioOwner o) fi o.tok.stream o.tok.phase o.desc host))

/-- GET (R431). -/
def execGet (loc : OpLoc) (s : State) : Res :=
  match fabNext loc s 0x41 with
  | none => .next s
  | some o =>
    match fabCheck s o.tok.stream o.desc with
    | some st => .next (fabReject loc s o st)
    | none =>
      match fabRoute s (gNode (fbRemote o.desc)) with
      | none => .next (fabReject loc s o .noRoute)
      | some fi =>
        .next (settleFab (startGet (startIo s o.tok.stream o.tok.phase o) (ioOwner o) fi o.tok.stream o.tok.phase o.desc))

/-- AWAIT (R432): it waits on its counter from its start. -/
def execAwait (loc : OpLoc) (s : State) : Res :=
  match fabNext loc s 0x42 with
  | none => .next s
  | some o =>
    let d := o.desc
    let c := field d 8 0 12
    match firstFail [failIf (!(reservedZero d (hdrFields ++ [fldBits 8 0 12, fld 10 2, fld 12 2]))) .badReserved,
        failIf (!(ctrCheck s o.tok.stream (opHdr d)) || !(ctrInRange s o.tok.stream c)) .badField] with
    | some st => .next (fabReject loc s o st)
    | none =>
      if !s.fab.en then .next (fabReject loc s o .noRoute)
      else .next (counterSeen (noteFab (startIo s o.tok.stream o.tok.phase o) (newFab s (ioOwner o) 0 o.tok.stream o.tok.phase d)) c)

/-- AWAIT_TIMEOUT (R432): the AWAITs of a place whose time has run out complete with TIMEOUT. -/
def execAwaitTimeout (loc : OpLoc) (s : State) : Res :=
  match loc with
  | .core _ => .next s
  | .io id p =>
    let due := s.fab.ops.filter (fun o => o.stream == id.toNat && o.phase == p.toNat && byteAt o.desc 0 == 0x42 &&
      decide (o.started + classNs s 2 (le o.desc 12 2) ≤ s.nowNs))
    .next (due.foldl (fun x o =>
      let x1 := { x with fab := { x.fab with ops := x.fab.ops.filter (fun q => q.owner != o.owner) } }
      match o.owner with
      | .io a b i => (match getIo x a b i with
        | some q => if q.finished then x1 else endIo x1 a b i .timeout
        | none => x1)
      | _ => x1) s)

/-- Role epochs set for the cores of a bitmap. -/
def setEpochs (s : State) (map : Nat) (e : BitVec 16) : State :=
  { s with fab := { s.fab with epochs := (bitList 4096 map).foldl (fun m n => smSet 0 m n e) s.fab.epochs } }

/-- The check of a ROLE_SET at issue. -/
def roleCheck (s : State) (o : NextOp) : Check :=
  let d := o.desc
  firstFail [failIf (!(reservedZero d (hdrFields ++ [fld 8 6, fld 14 2]))) .badReserved,
    failIf (!(ctrCheck s o.tok.stream (opHdr d)) || le d 8 6 % 64 != 0 || !(fiAddrOk s (le d 8 6) 512)) .badField,
    failIf (!s.fab.en) .noRoute]

/-- ROLE_SET (R433): every packet is checked and landed as one, so none is left under an old epoch. The bitmap may lie in a
host window, whose lines come with the command. -/
def execRoleSet (op : OpLines) (s : State) : Res :=
  match fabNext op.loc s 0x43 with
  | none => .next s
  | some o =>
    let a := le o.desc 8 6
    match roleCheck s o with
    | some st => .next (fabReject op.loc s o st)
    | none =>
      let v := viewSpan initFab .fi op.host (viewOf s) a 512
      match v.err.orElse (fun _ => if spanPoison v.m a 512 then some .poisoned else none) with
      | some st => .next (fabReject op.loc v.s o st)
      | none =>
        .next (endIo (setEpochs (startIo v.s o.tok.stream o.tok.phase o) (leNat (memRead v.m a 512))
          (BitVec.ofNat 16 (le o.desc 14 2))) o.tok.stream o.tok.phase o.idx .ok)

/-! ## DMA_COPY (R392) -/

/-- The check of a DMA_COPY: rows start on 4-byte boundaries, and their length is a multiple of 4. -/
def dmaCheck (s : State) (id : Nat) (d : Bytes) : Check :=
  let p := dmaParm d
  firstFail [
    failIf (!(reservedZero d (hdrFields ++ [fld 8 16, fldBits 24 0 24, fldBits 28 0 24, fld 32 8]))) .badReserved,
    failIf (!(ctrCheck s id (opHdr d))) .badField,
    failIf (p.row % 4 != 0 || p.src % 4 != 0 || p.dst % 4 != 0 ||
      (decide (1 < p.rows) && (p.srcPitch % 4 != 0 || p.dstPitch % 4 != 0))) .badField]

/-- A row of a copy within this module: read through the view, written with its poison. -/
def dmaRow (p : DmaParm) (host : List HostLine) (x : State × Option Status) (r : Nat) : State × Option Status :=
  let src := gLocal p.src + r * p.srcPitch
  let v := viewSpan initDma .dma host (viewOf x.1) src p.row
  let bad := match v.err with
    | some e => some e
    | none => if spanPoison v.m src p.row then some Status.poisoned else none
  let w := copySpan v.m v.s initDma .dma src (gLocal p.dst + r * p.dstPitch) p.row
  (w.1, x.2.orElse (fun _ => bad.orElse (fun _ => w.2)))

/-- The source rows of a copy in this module, as a view. -/
def dmaView (p : DmaParm) (host : List HostLine) (s : State) : View :=
  (List.range p.rows).foldl (fun a r => viewSpan initDma .dma host a (gLocal p.src + r * p.srcPitch) p.row) (viewOf s)

/-- The first poisoned line of a copy's source. -/
def dmaPoison (p : DmaParm) (m : Mem) : Option Nat :=
  (List.range p.rows).findSome? (fun r => (linesOf (gLocal p.src + r * p.srcPitch) p.row).find? (linePoison m))

/-- The rows of a copy within this module, in order. -/
def dmaRows (p : DmaParm) (host : List HostLine) (s : State) : State × Option Status :=
  (List.range p.rows).foldl (dmaRow p host) (s, none)

/-- The state in which a copy reads its source: where it will end POISONED its own record comes first, before those of the
lines that it reads (R590: ascending status order). -/
def dmaWarn (p : DmaParm) (host : List HostLine) (s : State) (n : Nat) (st : Option Status) : State :=
  if st = some .poisoned then dmaEvent s n ((dmaPoison p (dmaView p host s).m).getD (gLocal p.src)) else s

/-- The failure of a copy whose source lies in this module and whose destination does not. -/
def dmaFail (p : DmaParm) (v : View) : Option Status :=
  v.err.orElse (fun _ => (dmaPoison p v.m).map (fun _ => .poisoned))

/-- The packets of a copy whose destination or source lies in another module: acknowledged WRITEs, or READ_REQs whose
data goes to the destination. -/
def dmaRemote (s : State) (n : Nat) (t : Token) (d : Bytes) (fi : Nat) (host : List HostLine) : State :=
  let p := dmaParm d
  let w := FabOwner.dma n
  let cuts := dmaCuts p
  if localNode s (gNode p.src) then
    let node := gNode p.dst
    let v := dmaView p host (dmaWarn p host s n (dmaFail p (dmaView p host s)))
    let s1 := noteFab v.s { newFab s w fi t.stream t.phase d with badParts := ((dmaFail p v).map (fun e => (0, e))).toList }
    cuts.zipIdx.foldl (fun x c =>
      let a := gLocal p.src + c.1.1 * p.srcPitch + c.1.2.1
      let h := { pktPlain node 0 0 c.1.2.2 (gLocal p.dst + c.1.1 * p.dstPitch + c.1.2.1) with
        ackReq := true, poison := flitMask c.1.2.2 (fun o k => spanPoison v.m (a + o) k) }
      injectPkt x fi node 0 (buildPkt s.fab.nodeId.toNat h (memRead v.m a c.1.2.2)) (some c.2) (classNs s 0 0) (some w)) s1
  else
    let node := gNode p.src
    let back := if localNode s (gNode p.dst) then s.fab.nodeId.toNat else gNode p.dst
    cuts.zipIdx.foldl (fun x c =>
      let recv := back * 2 ^ 48 + gLocal p.dst + c.1.1 * p.dstPitch + c.1.2.1
      let h := { pktPlain node 0 1 c.1.2.2 (gLocal p.src + c.1.1 * p.srcPitch + c.1.2.1) with kindBytes := leBytes 8 recv }
      injectPkt x fi node 0 (buildPkt s.fab.nodeId.toNat h []) (some c.2) (classNs s 1 0) (some w))
      (noteFab s (newFab s w fi t.stream t.phase d))

/-- A transfer of the cluster DMA is in progress, or has landed. -/
def dmaRun (s : State) (n : Nat) (o : NextOp) (st : Status) (finished : Bool) : State :=
  let s1 := passOps s n 1
  let run : OpRun :=
    { tok := o.tok, idx := o.idx, desc := o.desc, status := st, finished, phot := photZero, photBase := 0, turn := 0 }
  setCore s1 n { getCore s1 n with dma := some run }

/-- DMA_COPY (R392). -/
def execDmaCopy (core : CoreId) (host : List HostLine) (s : State) : Res :=
  let n := core.toNat
  match startable s n 0x08 (fun c => c.dma.isNone) with
  | none => .next s
  | some o =>
    match dmaCheck s o.tok.stream o.desc with
    | some st => .next (rejectOp s n o st)
    | none =>
      let p := dmaParm o.desc
      if localNode s (gNode p.src) && localNode s (gNode p.dst) then
        let r := dmaRows p host (dmaWarn p host s n (dmaRows p host s).2)
        .next (dmaRun r.1 n o (r.2.getD .ok) true)
      else
        let far := if localNode s (gNode p.src) then gNode p.dst else gNode p.src
        match fabRoute s far with
        | none => .next (rejectOp s n o .noRoute)
        | some fi => .next (settleFab (dmaRemote (dmaRun s n o .ok false) n o.tok o.desc fi host))

end Sys2Proof.Machine
end

