-- ==== Sys2Proof/Machine/Coll.lean ====
section
/-! DEFINITION. The ops, packets and events of collectives, and trigger entries (13_collectives.md). -/

namespace Sys2Proof.Machine

/-! ## The ops (R447) -/

/-- Whether a COLL descriptor is of a row's op; the first row also takes the values that R448 rejects. -/
def collRow (k : Nat) (d : Bytes) : Bool := coOp d == k || (k == 0 && decide (6 < coOp d))

/-- A COLL op of an I/O list (R446, R448, R449). -/
def runColl (k : Nat) (loc : OpLoc) (host : List HostLine) (s : State) : State :=
  match fabNext loc s 0x50 with
  | none => s
  | some o =>
    let id := o.tok.stream
    let p := o.tok.phase
    if !(collRow k o.desc) then s
    else
      match collCheck s id o.desc with
      | some st => fabReject loc s o st
      | none =>
        if !(collMay s (coComm o.desc)) then s
        else settleFab (issueColl (startIo s id p o) (.io id p o.idx) id p o.tok.step (flag (phaseStep s id p) 27 0)
          o.desc host)

/-- ALL_REDUCE (R447). -/
def execAllReduce (loc : OpLoc) (host : List HostLine) (s : State) : Res := .next (runColl 0 loc host s)
/-- REDUCE_SCATTER (R447). -/
def execReduceScatter (loc : OpLoc) (host : List HostLine) (s : State) : Res := .next (runColl 1 loc host s)
/-- ALL_GATHER (R447). -/
def execAllGather (loc : OpLoc) (host : List HostLine) (s : State) : Res := .next (runColl 2 loc host s)
/-- REDUCE (R447). -/
def execReduce (loc : OpLoc) (host : List HostLine) (s : State) : Res := .next (runColl 3 loc host s)
/-- BROADCAST (R447). -/
def execBroadcast (loc : OpLoc) (host : List HostLine) (s : State) : Res := .next (runColl 4 loc host s)
/-- BARRIER (R447). -/
def execBarrier (loc : OpLoc) (host : List HostLine) (s : State) : Res := .next (runColl 5 loc host s)
/-- ALL_TO_ALLV (R472, R473). -/
def execAllToAllv (loc : OpLoc) (host : List HostLine) (s : State) : Res := .next (runColl 6 loc host s)

/-- COLL_READY (R450, R466, R469): the contribution is ready. -/
def execCollReady (id : Nat) (host : List HostLine) (s : State) : Res :=
  match getColl s id with
  | none => .next s
  | some c =>
    if !(coDeadline c.desc) || c.ready || c.closed then .next s
    else
      let s1 := carryIn (modColl s id (fun x => { x with host := c.host ++ host })) { c with host := c.host ++ host }
      let k := countAt s1 { c with host := c.host ++ host }
      .next (settleFab (sendJoin (modColl k.1 id (fun x =>
        { x with ready := true, count := (x.count + k.2) % 65536 })) id))

/-- COLL_DEADLINE (R451). -/
def execCollDeadline (id : Nat) (s : State) : Res :=
  match getColl s id with
  | none => .next s
  | some c => if colMe c = 0 ∧ coDeadline c.desc = true then .next (settleFab (tryClose s id)) else .next s

/-- SEGMENT_COMBINE (R455). -/
def execSegmentCombine (id segment : Nat) (s : State) : Res :=
  match getColl s id with
  | none => .next s
  | some c => if mayCombine s c segment then .next (settleFab (finishColl (combineSeg s id segment) id)) else .next s

/-- COLL_TIMEOUT (R465). -/
def execCollTimeout (id : Nat) (s : State) : Res :=
  match getColl s id with
  | none => .next s
  | some c =>
    let t := collTimeoutNs s c.desc
    let dl := if coDeadline c.desc then 1000 * coDeadlineUs c.desc else 0
    let missing := (List.range (colM c)).any (fun k => !(bit (smGet 0 c.joins k) 12))
    let due :=
      if c.closed then (waitsOf s c).any (fun w => decide (w + t ≤ s.nowNs))
      else (colMe c == 0 && missing && decide (c.started + dl + t ≤ s.nowNs)) ||
        decide (c.started + dl + 2 * t ≤ s.nowNs)
    if due then .next (settleFab (abortColl s id .timeout)) else .next s

/-- JOIN (R450). -/
def execJoin (port : FabPort) (packet : Bytes) (s : State) : Res := .next (arrive port packet 10 none s)

/-- CLOSE (R453). -/
def execClose (port : FabPort) (packet : Bytes) (s : State) : Res := .next (arrive port packet 11 none s)

/-- DATA (R454, R456). -/
def execData (port : FabPort) (packet : Bytes) (s : State) : Res := .next (arrive port packet 8 none s)

/-- RESULT (R424, R462). -/
def execResult (port : FabPort) (packet : SinkPacket) (s : State) : Res :=
  .next (arrive port packet.bytes 9 (some packet.stalled) s)

/-- CREDIT (R454). -/
def execCredit (port : FabPort) (packet : Bytes) (s : State) : Res := .next (arrive port packet 13 none s)

/-- ABORT (R463). -/
def execAbort (port : FabPort) (packet : Bytes) (s : State) : Res := .next (arrive port packet 12 none s)

/-- A2A_DATA (R424, R473). -/
def execA2aData (port : FabPort) (packet : SinkPacket) (s : State) : Res :=
  .next (arrive port packet.bytes 14 (some packet.stalled) s)

/-- A2A_COUNT (R424, R473). -/
def execA2aCount (port : FabPort) (packet : SinkPacket) (s : State) : Res :=
  .next (arrive port packet.bytes 15 (some packet.stalled) s)

/-! ## Chaining (R474, R475) -/

/-- What a Fabric Interface reads, with its status. -/
def fiRd (s : State) (host : List HostLine) (a n : Nat) : State × Rd :=
  let v := viewSpan initFab .fi host (viewOf s) a n
  (v.s, { data := memRead v.m a n, err := v.err.orElse (fun _ => if spanPoison v.m a n then some .poisoned else none) })

/-- The check of a TRIG_ARM whose op has been read. -/
def trigCheck (s : State) (id : Nat) (d : Bytes) (r : Rd) : Check :=
  let c := field d 10 0 12
  let e := field d 8 0 10
  let op := byteAt r.data 0
  firstFail [
    failIf (!(reservedZero d (hdrFields ++ [fldBits 8 0 10, fldBits 10 0 12, fld 12 2, fld 16 6]))) .badReserved,
    failIf (!(ctrCheck s id (opHdr d)) || !(ctrInRange s id c) || le d 16 6 % 64 != 0) .badField,
    failIf (s.coll.triggers.any (fun t => t.fi == c / 256 && t.entry == e)) .badField,
    failIf (!(fiAddrOk s (le d 16 6) 64)) .badField,
    r.err,
    failIf (!(op == 0x40 || op == 0x41 || op == 0x50) || (opHdr r.data).fence || (opHdr r.data).waitEn) .badField]

/-- TRIG_ARM (R474): the op is copied into the entry. An entry whose condition holds already is due at once. The op may lie in
a host window, whose line comes with the command (R490). -/
def execTrigArm (op : OpLines) (s0 : State) : Res :=
  match fabNext op.loc s0 0x51 with
  | none => .next s0
  | some o =>
    let d := o.desc
    let v := if fiAddrOk s0 (le d 16 6) 64 then fiRd s0 op.host (le d 16 6) 64 else (s0, { data := [], err := none })
    let s := v.1
    match trigCheck s o.tok.stream d v.2 with
    | some st => .next (fabReject op.loc s o st)
    | none =>
      let c := field d 10 0 12
      let t : Trigger := { fi := c / 256, entry := field d 8 0 10, counter := c, value := le d 12 2, desc := v.2.data,
                           stream := o.tok.stream, phase := o.tok.phase, step := o.tok.step,
                           lateDefault := flag (phaseStep s o.tok.stream o.tok.phase) 27 0, due := false }
      .next (rejectAt op.loc (counterSeen { s with coll := { s.coll with triggers := s.coll.triggers ++ [t] } } c) o .ok)

/-- A fired op ends at issue with a status. -/
def firedEnd (s : State) (k : Nat) (st : Status) : State := ownerEnd s (.fired k) st

/-- The op of a fired entry starts as though the stream's I/O list had issued it; a COLL may be held at issue (R449). -/
def startFired (s : State) (f : FiredOp) : State :=
  let d := f.desc
  if byteAt d 0 = 0x50 then issueFired s f
  else
    match fabCheck s f.stream d with
    | some st => firedEnd s f.id st
    | none =>
      match fabRoute s (gNode (fbRemote d)) with
      | none => firedEnd s f.id .noRoute
      | some fi =>
        if byteAt d 0 = 0x40 then startPut s (.fired f.id) fi f.stream f.phase d f.host
        else startGet s (.fired f.id) fi f.stream f.phase d

/-- TRIGGER_FIRE (R475). -/
def execTriggerFire (fi : FabPort) (entry : BitVec 10) (host : List HostLine) (s : State) : Res :=
  match s.coll.triggers.find? (fun t => t.fi == fi.toNat && t.entry == entry.toNat) with
  | none => .next s
  | some t =>
    if t.due then
      let k := s.coll.nextId
      let f : FiredOp := { id := k, stream := t.stream, phase := t.phase, step := t.step, lateDefault := t.lateDefault,
                           desc := t.desc, waiting := byteAt t.desc 0 == 0x50, host, ended := none }
      let s1 := { s with coll := { s.coll with
        triggers := s.coll.triggers.filter (fun x => !(x.fi == t.fi && x.entry == t.entry)),
        firedOps := s.coll.firedOps ++ [f], nextId := k + 1, fired := satAdd s.coll.fired 1 } }
      .next (settleFab (startFired s1 f))
    else .next s

end Sys2Proof.Machine
end

