-- ==== Sys2Proof/Machine/Mem.lean ====
section
/-! DEFINITION. Patrol scrub of DRAM and of on-package SRAM (10_memory_and_context.md R328 to R333). -/

namespace Sys2Proof.Machine

/-- Whether scrub runs: it is enabled, and the memories are powered and in use. -/
def scrubOn (s : State) : Bool := s.mr.scrubCfg.getLsbD 0 && s.rst.supply == .on && decide (s.pwr.state < 3)

/-- What a scrub finds on a line of DRAM: what its check bytes are held to show, or else what the command says. -/
def scrubFinds (s : State) (a : Nat) (result : ScrubResult) : LineErr :=
  match smGet LineErr.none s.mr.dramErr (a / 64) with
  | .none => (match result with | .clean => .none | .corrected => .correctable | .uncorrected => .uncorrectable)
  | e => e

/-- PATROL_SCRUB (R333): a line of DRAM is read. A line that carries a mark already is left as it is. -/
def execPatrolScrub (addr : BitVec 48) (result : ScrubResult) (s : State) : Res :=
  let a := addr.toNat / 64 * 64
  if !(scrubOn s) || region a != .dram || decide (dramBytes s ≤ a) || linePoison s.mem a then .next s
  else .next (meetErr s a (scrubFinds s a result))

/-- The source and unit of an event about an address of on-package SRAM. -/
def sramUnit (a : Nat) : Nat × Nat :=
  match region a with
  | .core n => (1, n)
  | .cluster c => (2, c)
  | _ => (0, 0)

/-- What a second uncorrectable error at a place does (R46, R333): firmware, while it runs, marks the core, or the cluster
whose store it is. -/
def sramTwice (s : State) (a : Nat) : State :=
  if imageRuns s then
    match region a with
    | .core n => markCore s n .uncorrected
    | .cluster c => markCluster s c .uncorrected
    | _ => s
  else s

/-- SRAM_SCRUB (R330, R333): an access to its store (R556); a gated cluster is scrubbed after it wakes. -/
def execSramScrub (addr : BitVec 48) (result : ScrubResult) (s : State) : Res :=
  let a := addr.toNat / 64 * 64
  let sram := match region a with | .core _ => true | .cluster _ => true | .red => true | _ => false
  let dark := match region a with
    | .core n => smGet false s.pwr.gated (n / 64) | .cluster c => smGet false s.pwr.gated c | _ => false
  if !(scrubOn s) || !sram || dark || !(addrExists s a) || linePoison s.mem a then .next s
  else
    let u := sramUnit a
    let s := touch s a
    match result with
    | .clean => .next s
    | .corrected =>
      let n := satAdd s.mr.sramCorrected 1
      .next (noteCorrected { s with mr := { s.mr with sramCorrected := n } } n u.1 u.2 a)
    | .uncorrected =>
      let again := smGet false s.mr.sramBad (a / 64)
      let s1 := setMem s (setPoison s.mem (a / 64) true)
      let s2 := { s1 with mr := { s1.mr with sramUncorrected := satAdd s1.mr.sramUncorrected 1,
                                             sramBad := smSet false s1.mr.sramBad (a / 64) true } }
      let s3 := raiseEvent (logFailure s2 5 .uncorrected u.2 a) .uncorrected u.1 u.2 (memDetail a 7 false)
      .next (if again then sramTwice s3 a else s3)

end Sys2Proof.Machine
end

