-- ==== Sys2Proof/Machine/Service.lean ====
section
/-! DEFINITION. Batched serving: requests, blocks, and the preemption of training (11_command_model.md R393 to R400;
04_log_product_arrays.md R156 to R159; 07_vector_and_reduction.md R241). -/

namespace Sys2Proof.Machine

/-! ## The service table (R393) -/

/-- The fields of a service record. -/
def svcLayout : List (Nat × Nat) :=
  [fld 0 6, fld 8 6, fldBits 14 0 3, fld 16 4, fld 24 6, fld 32 6, fld 40 6]

/-- The record of a service. -/
def svcRec (s : State) (k : Nat) : Rd := read s .dram (bits s.cmd.svcBase.toNat 14 34 * 2 ^ 14 + 64 * k) 64

/-- Fields of a record. -/
def svStream (r : Bytes) : Nat := le r 0 6
def svWindow (r : Bytes) : Nat := if le r 8 2 = 0 then 500 else le r 8 2
def svDeadline (r : Bytes) : Nat := le r 10 2
def svRun (r : Bytes) : Nat := le r 12 2
def svValid (r : Bytes) : Bool := flag r 14 0
def svLateDrop (r : Bytes) : Bool := flag r 14 1
def svVariants (r : Bytes) : Bool := flag r 14 2
def svInRow (r : Bytes) : Nat := le r 16 2
def svOutRow (r : Bytes) : Nat := le r 18 2
def svBlkIn (r : Bytes) : Nat := le r 24 6
def svBlkOut (r : Bytes) : Nat := le r 32 6
def svBlkInfo (r : Bytes) : Nat := le r 40 6

/-- The stream id of a service's block. -/
def svcStream (k : Nat) : Nat := 256 + k

/-! ## Requests (R394, R395) -/

/-- The check of a variant that a request names (R295, R296): it is valid, may serve, and may train. A record that cannot be
read fails with the status of its read (R627). -/
def variantServes (s : State) (v : Nat) : Check :=
  let b := read s .dram (bankAddr s v) 32
  firstFail [failIf (!(s.trn.bankBase.getLsbD 0)) .badField, b.err,
    failIf (variantOut s b.data || !(flag b.data 7 1)) .badField]

/-- The check of a request (R394). -/
def svcCheck (s : State) (r : Rd) (d : Bytes) : Check :=
  let dl := le d 36 2
  firstFail [
    failIf (!(s.cmd.svcBase.getLsbD 0)) .badField,
    r.err,
    failIf (!(reservedZero r.data svcLayout)) .badReserved,
    failIf (!(svValid r.data)) .badField,
    failIf (flag d 35 7 && !(svVariants r.data)) .badField,
    if flag d 35 7 then variantServes s (field d 34 0 12) else none,
    failIf (dl != 0 && !(decide (1000 ≤ dl ∧ dl ≤ 10000))) .badField]

/-- The request that a descriptor makes. -/
def svcReq (q : Nat) (f : Fetched) (r : Bytes) (start : Nat) : SvcReq :=
  let d := f.desc
  { queue := q, uid := f.uid, inAddr := le d 16 6, outAddr := le d 24 6, rows := field d 32 0 5 + 1,
    variant := if flag d 35 7 then some (field d 34 0 12) else none,
    deadline := f.arrival + 1000 * (if le d 36 2 = 0 then svDeadline r else le d 36 2), start, dropped := false }

/-- Whether a request fits in a block. -/
def svcFits (b : SvcBlock) (x : SvcReq) : Bool :=
  decide (b.rows + x.rows ≤ 32) && (b.members.contains x.variant || decide (b.members.length < 4))

/-- When a block closes at the latest (R396). -/
def svcClose (r : Bytes) (opened : Nat) (reqs : List SvcReq) : Nat :=
  reqs.foldl (fun t x => min t (x.deadline - 1000 * svRun r)) (opened + 1000 * svWindow r)

/-- The rows of requests placed one after the other from a row on. -/
def placeReqs : Nat → List SvcReq → List SvcReq
  | _, [] => []
  | k, x :: xs => { x with start := k } :: placeReqs (k + x.rows) xs

/-- A request joins a block. Rows, and the members as they first appear, stand in the order in which the requests arrived, the
order of their fetching, in whatever order their descriptors start (R156, R394, R395). -/
def svcJoin (r : Bytes) (b : SvcBlock) (x : SvcReq) : SvcBlock :=
  let order := b.reqs.takeWhile (fun y => decide (y.uid < x.uid)) ++ x :: b.reqs.dropWhile (fun y => decide (y.uid < x.uid))
  let reqs := placeReqs 0 order
  { b with reqs, rows := b.rows + x.rows, members := distinct (reqs.map (·.variant)), close := svcClose r b.opened reqs }

/-- An empty block of a service, opened under its record by a request that arrived at `t`. -/
def newBlock (k : Nat) (record : Bytes) (t : Nat) : SvcBlock :=
  { svc := k, record, opened := t, close := t, members := [], rows := 0, reqs := [], result := none, resultBy := [] }

/-! ## The close of a block (R397) -/

/-- One line of a copy within module DRAM by the command processor's DMA engines: the state and a failure. A line that
cannot be read is written as poisoned (R36, R37, R332). -/
def dramLine (src dst n : Nat) (x : State × Option Status) (l : Nat) : State × Option Status :=
  let lo := max dst l
  let k := min (dst + n) (l + 64) - lo
  let r := read x.1 .dram (src + (lo - dst)) k
  let bad := x.2.orElse (fun _ => r.err)
  if canAccess x.1 .dram lo k then (write x.1 .dram lo r.data r.err.isSome, bad) else (x.1, orStatus bad .addrError)

/-- A copy of `n` bytes within module DRAM. -/
def dramCopy (s : State) (src dst n : Nat) : State × Option Status := (linesOf dst n).foldl (dramLine src dst n) (s, none)

/-- The member of a block that a request's rows belong to. -/
def svcMember (b : SvcBlock) (x : SvcReq) : Nat := b.members.findIdx (· == x.variant)

/-- The selector byte of a request's rows: the bit of its member; 0 for one that has been dropped. -/
def svcSelector (b : SvcBlock) (x : SvcReq) : Nat := if x.dropped then 0 else 2 ^ svcMember b x

/-- The selector bytes of the block's rows (R141, R397). -/
def svcSelectors (b : SvcBlock) : Bytes :=
  ((b.reqs.map (fun x : SvcReq => List.replicate x.rows (BitVec.ofNat 8 (svcSelector b x)))).flatten ++ zeroBytes 32).take 32

/-- The block record (R397). -/
def svcInfo (b : SvcBlock) : Bytes :=
  let starts := ((b.reqs.map (fun x : SvcReq => BitVec.ofNat 8 x.start)) ++ List.replicate 32 0xFF).take 32
  let vars := (List.range 4).map (fun i =>
    leBytes 2 (match b.members.getD i none with | some v => v + 2 ^ 15 | none => 0))
  svcSelectors b ++ starts ++ vars.flatten ++ [BitVec.ofNat 8 b.rows, BitVec.ofNat 8 b.reqs.length] ++ zeroBytes 54

/-- A block closes under the service record as it then stands: its rows are gathered and its block record written. What
the block does from then on it does with that service record (R399). -/
def closeBlock (s : State) (r : Bytes) (b : SvcBlock) : State :=
  let s1 := b.reqs.foldl (fun x q => (dramCopy x q.inAddr (svBlkIn r + q.start * svInRow r) (q.rows * svInRow r)).1) s
  let s2 := write s1 .dram (svBlkInfo r) (svcInfo b)
  { s2 with cmd := { s2.cmd with openBlocks := s2.cmd.openBlocks.filter (·.svc != b.svc),
                                 closedBlocks := s2.cmd.closedBlocks ++ [{ b with record := r }] } }

/-- The open block of a service. -/
def openBlock (s : State) (k : Nat) : Option SvcBlock := s.cmd.openBlocks.find? (·.svc == k)

/-- A block takes a request, and closes once its 32 rows are filled (04_log_product_arrays.md, before R156). -/
def putOpen (s : State) (r : Bytes) (b : SvcBlock) : State :=
  if b.rows = 32 then closeBlock s r b
  else { s with cmd := { s.cmd with openBlocks := s.cmd.openBlocks.filter (·.svc != b.svc) ++ [b] } }

/-- SERVICE_REQUEST (R394 to R396). -/
def execServiceRequest (queue : QueueId) (s : State) : Res :=
  let q := queue.toNat
  match startDesc s q 0x0030 with
  | none => .next s
  | some f =>
    let k := (getQueue s q).svc.toNat
    let r := svcRec s k
    match svcCheck s r f.desc with
    | some e => .next (refuseDesc s q f e)
    | none =>
      let x := svcReq q f r.data 0
      let s1 := markStarted s q f
      match openBlock s1 k with
      | none => .next (putOpen s1 r.data (svcJoin r.data (newBlock k r.data f.arrival) x))
      | some b =>
        if svcFits b x then .next (putOpen s1 r.data (svcJoin r.data b x))
        else .next (putOpen (closeBlock s1 r.data b) r.data (svcJoin r.data (newBlock k r.data f.arrival) x))

/-- BLOCK_CLOSE (R396, R397): the time of an open block has come. -/
def execBlockClose (svc : BitVec 8) (s : State) : Res :=
  match openBlock s svc.toNat with
  | none => .next s
  | some b =>
    let r := svcRec s svc.toNat
    if b.close ≤ s.nowNs then .next (closeBlock s (if r.err.isNone then r.data else b.record) b) else .next s

/-! ## The start of a block (R398, R399) -/

/-- The earliest deadline of a block. -/
def blockDeadline (b : SvcBlock) : Nat :=
  match b.reqs with
  | [] => b.close
  | x :: xs => xs.foldl (fun t y => min t y.deadline) x.deadline

/-- The closed block of a service that comes first: by deadline, and then by closing order. -/
def firstBlock (bs : List SvcBlock) : Option SvcBlock :=
  bs.foldl (fun o b => match o with
    | none => some b
    | some x => if blockDeadline b < blockDeadline x then some b else some x) none

/-- The cores of a block's stream; none where its header does not pass the check. -/
def svcCores (s : State) (b : SvcBlock) : Nat :=
  match runCheck s (svStream b.record) with
  | .ok p => p.coreMap
  | .error _ => 0

/-- Whether another service block that runs uses one of the cores. -/
def coresTaken (s : State) (map : Nat) : Bool :=
  s.cmd.streams.any (fun x => decide (256 ≤ x.1) && x.2.coreMap &&& map != 0)

/-- Whether a closed block of another service comes first for one of the cores. -/
def blockBehind (s : State) (b : SvcBlock) (map : Nat) : Bool :=
  let before := s.cmd.closedBlocks.takeWhile (fun x => x != b)
  let after := (s.cmd.closedBlocks.dropWhile (fun x => x != b)).drop 1
  let shares := fun (x : SvcBlock) => svcCores s x &&& map != 0
  before.any (fun x => shares x && decide (blockDeadline x ≤ blockDeadline b)) ||
  after.any (fun x => shares x && decide (blockDeadline x < blockDeadline b))

/-- The latest start of a block. -/
def latestStart (b : SvcBlock) : Nat := blockDeadline b - 1000 * svRun b.record

/-- Whether training runs on cores of the map. -/
def trainsOn (s : State) (map : Nat) : Bool := (queueStreams s).any (fun x => x.2.coreMap &&& map != 0)

/-- Whether a ready block waits for preempt_min_us (R398): training has resumed on a core of it and has not run long enough
since. -/
def minHolds (s : State) (b : SvcBlock) (map : Nat) : Bool :=
  s.fw.preemptMin != 0 && trainsOn s map && decide (s.nowNs < latestStart b) &&
  (bitList 4096 map).any (fun n =>
    let t := smGet 0 s.cmd.resumed n
    t != 0 && decide (s.nowNs < t - 1 + 1000 * s.fw.preemptMin.toNat))

/-- Preemption is requested of a core: training runs there no more. -/
def preemptCore (s : State) (n : Nat) : State :=
  setCore { s with cmd := { s.cmd with resumed := smSet 0 s.cmd.resumed n 0 } } n { getCore s n with preempt := true }

/-- Training phases that use cores of the map are preempted from now. -/
def pausePhases (s : State) (map : Nat) : State :=
  { s with cmd := { s.cmd with streams := s.cmd.streams.map (fun x =>
      if x.1 < 256 then
        (x.1, { x.2 with running := x.2.running.map (fun p =>
          if p.pausedAt.isNone && p.cores.any (bit map) then { p with pausedAt := some s.nowNs } else p) })
      else x) } }

/-- A request of a block completes without effect; it is late where its deadline has passed (R368, R399). -/
def refuseReq (st : Status) (s : State) (x : SvcReq) : State :=
  let late := decide (x.deadline < s.nowNs)
  match getDesc s x.queue x.uid with
  | none => s
  | some f =>
    completeFull { s with cmd := { s.cmd with late := if late then satAdd s.cmd.late 1 else s.cmd.late } }
      x.queue f st false late 0 false

/-- Requests past their deadline leave a block with late_drop = 1 (R399): their rows are masked. -/
def dropLateReqs (s : State) (b : SvcBlock) : State × SvcBlock :=
  let late := fun (x : SvcReq) => svLateDrop b.record && decide (x.deadline < s.nowNs)
  let gone := b.reqs.filter late
  let s1 := gone.foldl (fun y x =>
    refuseReq .lateDrop { y with cmd := { y.cmd with dropped := satAdd y.cmd.dropped 1 } } x) s
  let b1 := { b with reqs := b.reqs.map (fun x => if late x then { x with dropped := true } else x) }
  (if gone.isEmpty then s1 else write s1 .dram (svBlkInfo b.record) (svcSelectors b1), b1)

/-- The requests of a block whose stream cannot start complete with its status. -/
def failBlock (s : State) (b : SvcBlock) (e : Status) : State := (b.reqs.filter (fun x => !x.dropped)).foldl (refuseReq e) s

/-! ## Training resumes (R157, R398) -/

/-- Training resumes on a core: what was paused goes back into its unit. -/
def resumeCore (s : State) (n : Nat) : State :=
  let c := getCore s n
  let c1 := { c with
    preempt := false,
    lpa := if c.lpa.isNone then c.lpaPaused.map (resumeLpa s n) else c.lpa.map (fun r => { r with boundary := false }),
    lpaPaused := if c.lpa.isNone then none else c.lpaPaused,
    ve := if c.ve.isNone then c.vePaused else c.ve, vePaused := if c.ve.isNone then none else c.vePaused }
  let s1 := setCore s n c1
  veGo { s1 with cmd := { s1.cmd with resumed := smSet 0 s1.cmd.resumed n (s1.nowNs + 1) } } n

/-- Phases none of whose cores is preempted any more run on. -/
def resumePhases (s : State) : State :=
  { s with cmd := { s.cmd with streams := s.cmd.streams.map (fun x =>
      (x.1, { x.2 with running := x.2.running.map (fun p =>
        match p.pausedAt with
        | some t => if p.cores.any (fun n => (getCore s n).preempt) then p
                    else { p with pausedAt := none, paused := p.paused + (s.nowNs - t) }
        | none => p) })) } }

/-- The cores of the service blocks that run. -/
def servingCores (s : State) : Nat :=
  s.cmd.streams.foldl (fun m x => if 256 ≤ x.1 then m ||| x.2.coreMap else m) 0

/-- The cores of the closed blocks that are ready: no running block has a core of theirs. -/
def readyCores (s : State) : Nat :=
  s.cmd.closedBlocks.foldl (fun m b =>
    let map := svcCores s b
    if map &&& servingCores s = 0 then m ||| map else m) 0

/-- Training resumes on every preempted core that no block runs on and no ready block waits for (R398). -/
def resumeTraining (s : State) : State :=
  let kept := servingCores s ||| readyCores s
  resumePhases ((liveCores s).foldl (fun x n => if (getCore x n).preempt && !(bit kept n) then resumeCore x n else x) s)

/-! ## A block starts (R398) -/

/-- Whether nothing of training runs on a core or waits in its Plate Queue: a preempted core has come to its plate boundary,
the ops that run to completion have completed, and serving ops start on the empty queue (R157, R159). -/
def coreClear (c : Core) : Bool :=
  c.lpa.isNone && c.ve.isNone && c.coe.isNone && c.dma.isNone && c.ccm.isNone && c.pq.isEmpty

/-- Training on the cores of a ready block is preempted. -/
def askCores (s : State) (map : Nat) : State := (bitList 4096 map).foldl preemptCore (pausePhases s map)

/-- A block starts on cores that are clear: requests whose deadline has passed drop out, and its stream begins. Where none of
it is left to run, training resumes on the cores that were kept for it. -/
def beginBlock (s : State) (b : SvcBlock) : State :=
  let s0 := { s with cmd := { s.cmd with closedBlocks := s.cmd.closedBlocks.erase b } }
  let d := dropLateReqs s0 b
  match runCheck d.1 (svStream b.record) with
  | .error e => resumeTraining (failBlock d.1 d.2 e)
  | .ok p =>
    if d.2.reqs.all (·.dropped) then resumeTraining d.1
    else
      let s2 := zeroCounters d.1 p.hdr
      { s2 with cmd := { s2.cmd with
        blocks := satAdd s2.cmd.blocks 1,
        runBlocks := s2.cmd.runBlocks ++ [d.2],
        streams := s2.cmd.streams ++ [(svcStream b.svc, newStream p none (some b.svc))] } }

/-- A ready block takes its cores: training there is preempted first, and once every core is clear the block starts. Where
one is not, the block waits, and the command is given again when the cores have come to their plate boundaries. -/
def startBlock (s : State) (b : SvcBlock) : State :=
  let map := svcCores s b
  let s1 := askCores s map
  if (bitList 4096 map).all (fun n => coreClear (getCore s1 n)) then beginBlock s1 b else s1

/-- The ready block of a service: the first of its closed ones, if no other has its cores or comes first for them. -/
def readyBlock (s : State) (k : Nat) : Option SvcBlock :=
  if quiescing s || s.cmd.runBlocks.any (·.svc == k) then none
  else
    (firstBlock (s.cmd.closedBlocks.filter (·.svc == k))).bind (fun b =>
      let map := svcCores s b
      if coresTaken s map || blockBehind s b map then none else some b)

/-- BLOCK_START (R398): a ready block starts unless preempt_min_us holds it. -/
def execBlockStart (svc : BitVec 8) (s : State) : Res :=
  match readyBlock s svc.toNat with
  | none => .next s
  | some b => if minHolds s b (svcCores s b) then .next s else .next (startBlock s b)

/-- PREEMPT_MIN_EXPIRY (R398): the wait of a block that preempt_min_us held has ended. -/
def execPreemptMinExpiry (svc : BitVec 8) (s : State) : Res :=
  match readyBlock s svc.toNat with
  | none => .next s
  | some b => if s.fw.preemptMin = 0 ∨ minHolds s b (svcCores s b) = true then .next s else .next (startBlock s b)

/-! ## Preemption (R157, R159, R241) -/

/-- PLATE_BOUNDARY (R157, R159, R241): on a core under preemption the LPA op that has finished its row block pauses, and so does
the VE op that has consumed every plate. -/
def execPlateBoundary (core : CoreId) (s : State) : Res :=
  let n := core.toNat
  let c := getCore s n
  if !c.preempt then .next s
  else
    let svc := fun (t : Token) => c.svcTokens.any (sameList t)
    let stopLpa := match c.lpa with
      | some r => r.boundary && r.banks.isEmpty && decide (r.mb < rowBlocks r) && c.lpaPaused.isNone && !(svc r.tok)
      | none => false
    let s1 := if stopLpa then setCore s n { c with lpa := none, lpaNext := none, lpaPaused := c.lpa } else s
    let d := getCore s1 n
    let stopVe := match d.ve with
      | some v => pausesNow s1 n v && d.vePaused.isNone && !(svc v.tok)
      | none => false
    .next (if stopVe then setCore s1 n { d with ve := none, vePaused := d.ve } else s1)

/-! ## The end of a block (R399) -/

/-- Whether a line of a request's input rows in the block's buffer is poisoned. -/
def reqPoison (s : State) (b : SvcBlock) (x : SvcReq) : Bool :=
  let n := svInRow b.record
  !x.dropped && spanPoison s.mem (svBlkIn b.record + x.start * n) (x.rows * n)

/-- The status of a request: what its own rows give, and the status that stopped the block's stream where no other request
alone gave it (R400): where members stopped it, each with its own status, the stop of another is not this request's, nor is
POISONED that comes from another request's rows. A stop of the whole stream that no member and no input row accounts for is
every request's, since none of them has its rows (DESIGN CHOICE, log 91). -/
def reqStatus (s : State) (b : SvcBlock) (st : Status) (x : SvcReq) (own : Option Status) : Status :=
  let stop := if b.resultBy.isEmpty then st
    else ((b.resultBy.find? (·.1 == svcMember b x)).map (·.2)).getD .ok
  let others := b.resultBy.isEmpty && stop == .poisoned && !(reqPoison s b x) && b.reqs.any (reqPoison s b)
  if stop = .ok || others then own.getD .ok else stop

/-- A request's rows are copied out and its completion written. -/
def finishReq (b : SvcBlock) (st : Status) (s : State) (x : SvcReq) : State :=
  if x.dropped then s
  else
    let n := svOutRow b.record
    let w := dramCopy s (svBlkOut b.record + x.start * n) x.outAddr (x.rows * n)
    let late := decide (x.deadline < w.1.nowNs)
    match getDesc w.1 x.queue x.uid with
    | none => w.1
    | some f =>
      completeFull { w.1 with cmd := { w.1.cmd with late := if late then satAdd w.1.cmd.late 1 else w.1.cmd.late } }
        x.queue f (reqStatus s b st x w.2) false late 0 true

/-- BLOCK_END (R398, R399): the block's stream has completed. -/
def execBlockEnd (svc : BitVec 8) (s : State) : Res :=
  match s.cmd.runBlocks.find? (·.svc == svc.toNat) with
  | none => .next s
  | some b =>
    match b.result with
    | none => .next s
    | some st =>
      let s1 := b.reqs.foldl (finishReq b st) s
      .next (resumeTraining { s1 with cmd := { s1.cmd with runBlocks := s1.cmd.runBlocks.filter (·.svc != svc.toNat) } })

end Sys2Proof.Machine
end

