-- ==== Sys2Proof/Machine/Copy.lean ====
section
/-! DEFINITION. COPY and its split completion, the Meridian commands, and the takeover of a queue
(11_command_model.md R364, R372, R373, R402; 08_training_step.md R287 to R290). -/

namespace Sys2Proof.Machine

/-! ## COPY (R372, R373) -/

/-- The fields of a COPY. -/
structure CopyParm where
  src : Nat
  dst : Nat
  len : Nat
  /-- dir = 1: from local memory to the host. -/
  out : Bool
  deriving DecidableEq, Repr

/-- The body of a COPY (R364). -/
def copyParm (d : Bytes) : CopyParm := { src := le d 16 8, dst := le d 24 8, len := le d 32 4, out := flag d 36 0 }

/-- The 64-bit field that holds the local address of a COPY. -/
def copyField (p : CopyParm) : Nat := if p.out then p.src else p.dst

/-- The check of a COPY: len is a non-zero multiple of 64, and the address of the module's side is local (R35): a plain
local address, or a global one whose node id is this module's. -/
def copyCheck (s : State) (d : Bytes) : Check :=
  let p := copyParm d
  failIf (p.len == 0 || p.len % 64 != 0 || !(gNode (copyField p) == 0 || localNode s (gNode (copyField p)))) .badField

/-- Bytes of a part (R373). -/
def copyPart (len : Nat) : Nat := roundUp (cdiv len 16) 4096

/-- The parts of a COPY: offset and length. -/
def copyParts (len : Nat) : List (Nat × Nat) :=
  let n := copyPart len
  (List.range (cdiv len n)).map (fun i => (i * n, min n (len - i * n)))

/-- Bytes of a host's memory that came with the command, by bus address. -/
def hostBytes (host : List HostLine) (a n : Nat) : Option Bytes :=
  ((linesOf a n).map (hostLine host)).foldl
    (fun acc x => match acc, x with | some b, some d => some (b ++ d) | _, _ => none) (some [])
    |>.map (fun b => (b.drop (a % 64)).take n)

/-- One line of a part written in module DRAM. Where the read of its bytes failed, the line is written as poisoned (R332);
a write that fails is an address error. -/
def copyInLine (host : List HostLine) (src dst n : Nat) (x : State × Option Status) (l : Nat) : State × Option Status :=
  let lo := max dst l
  let k := min (dst + n) (l + 64) - lo
  let got := hostBytes host (src + (lo - dst)) k
  let st := if got.isSome then x.2 else orStatus x.2 .poisoned
  if canAccess x.1 .dram lo k then (write x.1 .dram lo (got.getD (zeroBytes k)) got.isNone, st)
  else (x.1, orStatus st .addrError)

/-- A part from the host. -/
def copyIn (s : State) (host : List HostLine) (src dst n : Nat) : State × Option Status :=
  (linesOf dst n).foldl (copyInLine host src dst n) (s, none)

/-- One line of a part to the host: a write TLP, poisoned where the read of its bytes failed (R332). -/
def copyOutLine (port : HPort) (src dst n : Nat) (x : State × Option Status) (l : Nat) : State × Option Status :=
  let lo := max dst l
  let k := min (dst + n) (l + 64) - lo
  let s1 := demandRead x.1 (src + (lo - dst)) k
  let rd := read s1 .dram (src + (lo - dst)) k
  (emit s1 (.hostWrite port lo rd.data rd.err.isSome), match rd.err with | some e => orStatus x.2 e | none => x.2)

/-- A part to the host. A lost port takes no write: the part fails with the status of its read, or else as a denied
window does (R492). -/
def copyOut (s : State) (p : Option HPort) (src dst n : Nat) : State × Option Status :=
  match p with
  | none => (s, some ((read s .dram src n).err.getD .windowDeny))
  | some port =>
    if (getPort s port).linkUp && !(getPort s port).lost then (linesOf dst n).foldl (copyOutLine port src dst n) (s, none)
    else (s, some ((read s .dram src n).err.getD .windowDeny))

/-- Every part in turn: the state, and the status of each failed part by its number. -/
def copyAll (s : State) (port : Option HPort) (host : List HostLine) (p : CopyParm) : State × List (Nat × Status) :=
  (copyParts p.len).zipIdx.foldl (fun (x : State × List (Nat × Status)) (u : (Nat × Nat) × Nat) =>
    let r := if p.out then copyOut x.1 port (gLocal p.src + u.1.1) (p.dst + u.1.1) u.1.2
      else copyIn x.1 host (p.src + u.1.1) (gLocal p.dst + u.1.1) u.1.2
    (r.1, match r.2 with | some e => x.2 ++ [(u.2, e)] | none => x.2)) (s, [])

/-- COPY (R373): the descriptor starts; its parts run on the DMA engines until COPY_COMPLETION. -/
def execCopy (queue : QueueId) (s : State) : Res :=
  let q := queue.toNat
  match startDesc s q 0x0003 with
  | none => .next s
  | some f =>
    match copyCheck s f.desc with
    | some e => .next (refuseDesc s q f e)
    | none => .next (markStarted s q f)

/-- The parts field of a record: bit i for a failed part i. -/
def partsOf (failed : List (Nat × Status)) : BitVec 16 :=
  failed.foldl (fun (m : BitVec 16) p => m ||| BitVec.ofNat 16 (2 ^ p.1)) 0

/-- COPY_COMPLETION (R372): every part has ended. What the module read from the host comes with the command. -/
def execCopyCompletion (queue : QueueId) (index : BitVec 32) (host : List HostLine) (s : State) : Res :=
  let q := queue.toNat
  match findStarted s q 0x0003 index with
  | none => .next s
  | some f =>
    let port := ownerPort (getQueue s q).owner
    let live := match port with | some p => (getPort s p).linkUp && !(getPort s p).lost | none => false
    let r := copyAll s port (if live then host else []) (copyParm f.desc)
    .next (completeFull r.1 q f ((r.2.head?.map (·.2)).getD .ok) true false (partsOf r.2) true)

/-! ## Meridian (R287 to R290) -/

/-- A Meridian command completes: with effect where its status is OK. -/
def endMeridian (q : Nat) (f : Fetched) (s : State) (r : State × Status) : State :=
  if r.2 = .ok then completeDesc r.1 q f .ok else refuseDesc s q f r.2

/-- MERIDIAN_FLIP (R288). -/
def execMeridianFlip (queue : QueueId) (s : State) : Res :=
  match startDesc s queue.toNat 0x0010 with
  | none => .next s
  | some f => .next (endMeridian queue.toNat f s (doFlip s (le f.desc 16 4)))

/-- MERIDIAN_ROLLBACK (R290). -/
def execMeridianRollback (queue : QueueId) (s : State) : Res :=
  match startDesc s queue.toNat 0x0011 with
  | none => .next s
  | some f => .next (endMeridian queue.toNat f s (doRollback s (le f.desc 16 4)))

/-! ## QUEUE_REASSIGN (R402) -/

/-- The running streams of a queue. -/
def streamsOfQueue (s : State) (n : Nat) : List Nat :=
  (s.cmd.streams.filter (fun p => match p.2.queue with | some (k, _) => k == n | none => false)).map (·.1)

/-- A queue is taken over: it is orphaned, disabled, and owned by the issuing port. -/
def takeQueue (s : State) (n : Nat) (owner : BitVec 2) : State :=
  let s1 := disableQueue s n
  setQueue s1 n { getQueue s1 n with owner := owner, orphaned := true }

/-- QUEUE_REASSIGN (R402). -/
def execQueueReassign (queue : QueueId) (s : State) : Res :=
  let q := queue.toNat
  match startDesc s q 0x0020 with
  | none => .next s
  | some f =>
    let n := le f.desc 16 1
    if !(ownerLost s (getQueue s n)) && !(flag f.desc 17 0) then .next (refuseDesc s q f .badField)
    else
      let s1 := takeQueue (markStarted s q f) n (getQueue s q).owner
      let s2 := if flag f.desc 17 1 then (streamsOfQueue s1 n).foldl (fun x id => softStop x id .aborted) s1 else s1
      .next (completeDesc s2 q f .ok)

end Sys2Proof.Machine
end

