-- ==== Sys2Proof/Machine/Host.lean ====
section
/-! DEFINITION. The host ports: link loss and return, the aperture, completions, interrupts, MCTP control and
configuration space (14_host_interface.md R476 to R488; 11_command_model.md R401, R403). -/

namespace Sys2Proof.Machine

/-! ## Links (R401, R403, R476) -/

/-- A pin output changes level. -/
def drivePin (s : State) (name : String) (asserted : Bool) : State := emit s (.pin name asserted)

/-- The name of a port's wake output (R566). -/
def wakeName (p : HPort) : String := match p with | .a => "WAKE_A_N" | .b => "WAKE_B_N"

/-- A port's wake output. -/
def wakeOut (s : State) (p : HPort) : Option Nat := match p with | .a => s.pwr.wakeA | .b => s.pwr.wakeB

/-- A port's wake output set, with its pin. -/
def setWakeOut (s : State) (p : HPort) (w : Option Nat) : State :=
  let s1 := match p with
    | .a => { s with pwr := { s.pwr with wakeA := w } }
    | .b => { s with pwr := { s.pwr with wakeB := w } }
  if (wakeOut s p).isSome == w.isSome then s1 else drivePin s1 (wakeName p) w.isSome

/-- A port is lost (R401): its link is down and its queues are orphaned. -/
def losePort (s : State) (p : HPort) : State :=
  orphanQueues (setPort s p { getPort s p with linkUp := false, lost := true }) p

/-- PORT_LOST (R401). -/
def execPortLost (port : HPort) (s : State) : Res :=
  if (getPort s port).linkUp then .next (losePort s port) else .next s

/-- Whether a port may train (R578): its PERST input is deasserted, step 4 has completed, and it is not in L2. -/
def mayTrain (s : State) (p : HPort) : Bool :=
  !((getPort s p).perst) && s.rst.supply == .on && decide (4 ≤ s.rst.step) && s.pwr.state != 4 && !(pastThree s 4)

/-- The rates and widths of R476. -/
def linkForm (rate : BitVec 3) (width : BitVec 4) : Bool :=
  decide (1 ≤ rate ∧ rate ≤ 6) && (width == 1 || width == 2 || width == 4 || width == 8)

/-- A link that has trained comes up. FLIT mode is always used at 64 GT/s, and below 16 GT/s there is none. -/
def linkUpAs (x : HostPortState) (rate : BitVec 3) (width : BitVec 4) (flit slow : Bool) : HostPortState :=
  { x with linkUp := true, lost := false, rate, width, flit := rate == 6 || (flit && !slow), slowLink := slow, slowTries := 0 }

/-- PORT_RETURN (R403, R476): the link has trained. One below 16 GT/s retrains, up to three times; then it stays so, with
slow_link set and an event. DESIGN CHOICE: it is not up while it retrains. -/
def execPortReturn (port : HPort) (rate : BitVec 3) (width : BitVec 4) (flit : Bool) (s : State) : Res :=
  let x := getPort s port
  if !x.linkUp && mayTrain s port && linkForm rate width then
    let slow := decide (rate < 4)
    if slow && decide (x.slowTries < 3) then .next (setPort s port { x with slowTries := x.slowTries + 1 })
    else
      let s1 := setWakeOut (setPort s port (linkUpAs x rate width flit slow)) port none
      .next (if slow then raiseEvent s1 .slowLink 9 (portNo port) else s1)
  else .next s

/-! ## The aperture (R481 to R483) -/

/-- The local address that BAR4 offset `x` names. -/
def aperAddr (s : State) (p : HPort) (x : Nat) : Nat := (getPort s p).aper.toNat / 2 ^ 30 * 2 ^ 30 + x

/-- A failed line of a BAR4 access is counted (R482). -/
def countDenied (s : State) (p : HPort) : State :=
  setPort s p { getPort s p with denied := satAdd (getPort s p).denied 1 }

/-- Whether a BAR4 line is good: within the ranges of R481, granted (R491), and existing (R37). A denial is logged. -/
def bar4Line (s : State) (p : HPort) (write : Bool) (l : Nat) : State × Bool :=
  if !(reaches .dma (region l)) then (countDenied s p, false)
  else if (wtLookup s (initBar4 p) write 0 l).isNone then (denyLine (countDenied s p) (initBar4 p) write l, false)
  else if spanExists s l 64 then (touch s l, true)
  else (countDenied s p, false)

/-- One line of a BAR4 read: its completion data, or zeros with the EP bit. -/
def bar4ReadLine (p : HPort) (a n : Nat) (s : State) (l : Nat) : State :=
  let lo := max a l
  let k := min (a + n) (l + 64) - lo
  let g := bar4Line s p false l
  if !g.2 then emit g.1 (.readDone p (zeroBytes k) true)
  else
    let s1 := demandLine g.1 l
    if linePoison s1.mem l then emit (countDenied s1 p) (.readDone p (zeroBytes k) true)
    else emit s1 (.readDone p (memRead s1.mem lo k) false)

/-- A BAR4 read as it is served (R482). -/
def bar4Read (p : HPort) (off n : Nat) (s : State) : State :=
  (linesOf (aperAddr s p off) n).foldl (bar4ReadLine p (aperAddr s p off) n) s

/-- One line of a BAR4 write: it lands, poisoned where the TLP has EP set, or is discarded. A write of a line that is
poisoned already is discarded, and counts. -/
def bar4WriteLine (p : HPort) (a : Nat) (data : Bytes) (poisoned : Bool) (s : State) (l : Nat) : State :=
  let g := bar4Line s p true l
  let part := linePart a data l
  if !g.2 then g.1
  else if linePoison g.1.mem l then countDenied g.1 p
  else setMem g.1 (memWrite g.1.mem part.1 part.2 poisoned)

/-- A BAR4 write as it is served (R482). -/
def bar4Write (p : HPort) (off : Nat) (data : Bytes) (poisoned : Bool) (s : State) : State :=
  (linesOf (aperAddr s p off) data.length).foldl (bar4WriteLine p (aperAddr s p off) data poisoned) s

/-- BAR4_READ (R482, R559). -/
def execBar4Read (port : HPort) (offset : BitVec 36) (len : Nat) (s : State) : Res :=
  .next (match hostPath s port with
    | .served => bar4Read port offset.toNat len s
    | .held => holdAccess s (.read4 port offset.toNat len)
    | .none => s)

/-- BAR4_WRITE (R482, R559). -/
def execBar4Write (port : HPort) (offset : BitVec 36) (data : Bytes) (poisoned : Bool) (s : State) : Res :=
  .next (match hostPath s port with
    | .served => bar4Write port offset.toNat data poisoned s
    | .held => holdAccess s (.write4 port offset.toNat data poisoned)
    | .none => s)

/-- A write of HIF_APER[p] (R483): only bits [47:30] are writable. -/
def writeAper (p : HPort) (value : Nat) (s : State) : State :=
  setPort s p { getPort s p with aper := wrField 0 value 30 18 }

/-- HIF_APER (R483). -/
def execHifAper (hport : HPort) (index : HPort) (value : BitVec 64) (s : State) : Res :=
  .next (hostSetup s hport (0x090010 + 8 * portNo index) 8 value.toNat (writeAper index value.toNat))

/-! ## Completions (R485) -/

/-- The outstanding read of a port and tag. -/
def findRead (s : State) (p : HPort) (tag : Nat) : Option PcieRead :=
  s.hif.reads.find? (fun r => r.port == p && r.tag == tag)

/-- A read is no longer outstanding; one that waits takes its place. -/
def dropRead (s : State) (r : PcieRead) : State :=
  refillRead { s with hif := { s.hif with reads := s.hif.reads.filter (fun x => !(x.port == r.port && x.tag == r.tag)) } } r.port

/-- Whether what a read was for still waits for it (R485): a fabric read that has been answered has given up. -/
def stillWanted (s : State) (r : PcieRead) : Bool :=
  match r.what with
  | .eventHead _ _ => true
  | .fabric id line => s.fab.fetches.any (fun f => f.id == id && f.waits.contains line)

/-- What a read was for gets its data, or sees the failure. The head of a ring that the port has replaced meanwhile decides
nothing: the record goes to the new ring, whose head is read for it (R532). -/
def readBack (s : State) (r : PcieRead) (data : Option Bytes) : State :=
  match r.what with
  | .eventHead rec no =>
    if (getPort s r.port).ring.any (fun g => g.no != no) then toRing s rec r.port
    else (match data with | some d => ringWrite s r.port rec d | none => evDrop s)
  | .fabric id line => settleFab (fetchLine s id line data)

/-- A late completion is discarded and counted (R485). -/
def lateCompletion (s : State) (p : HPort) : State :=
  setPort s p { getPort s p with lateCpl := satAdd (getPort s p).lateCpl 1 }

/-- PCIE_COMPLETION (R485): the completion of an outstanding read, or a late one. An EP bit or an error status brings no
data. -/
def execPcieCompletion (port : HPort) (tag : BitVec 14) (data : Bytes) (good : Bool) (s : State) : Res :=
  match findRead s port tag.toNat with
  | some r =>
    .next (if stillWanted s r then readBack (dropRead s r) r (if good then some data else none)
      else lateCompletion (dropRead s r) port)
  | none => .next (lateCompletion s port)

/-- The least time of a Completion Timeout Value, in nanoseconds (R485): 16 ms by default. PRESUMED: the ranges of the other
values are those of PCIe; a reserved value acts as the default. -/
def cplLimit (v : BitVec 4) : Nat :=
  match v.toNat with
  | 1 => 50000
  | 2 => 1000000
  | 5 => 16000000
  | 6 => 65000000
  | 9 => 260000000
  | 10 => 1000000000
  | 13 => 4000000000
  | 14 => 17000000000
  | _ => 16000000

/-- COMPLETION_TIMEOUT (R485): the completion of a read has not come within the port's Completion Timeout Value. -/
def execCompletionTimeout (port : HPort) (tag : BitVec 14) (s : State) : Res :=
  match findRead s port tag.toNat with
  | some r =>
    if r.issued + cplLimit (getPort s port).cplTimeout ≤ s.nowNs then .next (readBack (dropRead s r) r none) else .next s
  | none => .next s

/-! ## BAR2 and interrupts (R480, R486) -/

/-- Whether BAR2 of a port is reached: its link is up and the port is not in L2. BAR2 lies in the port domain, which
runs in Closed. -/
def bar2Open (s : State) (p : HPort) : Bool := hostPath s p != .none

/-- The mask bit of a vector cleared; a pending message leaves (R486). -/
def unmaskVector (p : HPort) (v : Nat) (s : State) : State :=
  let x := getPort s p
  let e := smGet msixDefault x.msix v
  let e1 := putBytes e 12 [BitVec.ofNat 8 (setBits (byteAt e 12).toNat 0 1 0)]
  let s1 := setPort s p { x with msix := smSet msixDefault x.msix v e1, pba := smSet false x.pba v false }
  if smGet false x.pba v then sendMsix s1 p v else s1

/-- MSIX_UNMASK (R486): the host clears the mask bit of a vector. -/
def execMsixUnmask (port : HPort) (vector : BitVec 8) (s : State) : Res :=
  if bar2Open s port then .next (unmaskVector port vector.toNat s) else .next s

/-! ## MCTP control (R487, R488) -/

/-- The number of a binding. -/
def bindingNo (b : MctpBinding) : Nat := match b with | .smbus => 0 | .i3c => 1 | .vdmA => 2 | .vdmB => 3

/-- The port of a VDM binding. -/
def bindingPort (b : MctpBinding) : Option HPort := match b with | .vdmA => some .a | .vdmB => some .b | _ => none

/-- Whether a binding is there: a VDM binding from Open to Closed while its link is up and firmware serves it, the others
while the Night Assistant runs (R487, R523). -/
def bindingOpen (s : State) (b : MctpBinding) : Bool :=
  match bindingPort b with
  | some p => (getPort s p).linkUp && bar2Open s p && decide (2 ≤ s.fw.state) && !s.err.fwFatal
  | none => s.rst.supply != .off

/-- A discarded message of a VDM binding is counted (R488). -/
def mctpDrop (s : State) (b : MctpBinding) : State :=
  match bindingPort b with
  | some p => setPort s p { getPort s p with mctpDrops := satAdd (getPort s p).mctpDrops 1 }
  | none => s

/-- The endpoint id of a binding. -/
def bindingEid (s : State) (b : MctpBinding) : BitVec 8 := smGet 0 s.hif.eids (bindingNo b)

/-- The answer to a control command and the state after it (DSP0236: Set and Get Endpoint ID, Get MCTP Version Support,
Get Message Type Support; any other command is unsupported). PRESUMED: the codes are those of the standard. -/
def mctpAnswer (s : State) (b : MctpBinding) (cmd : Nat) (data : Bytes) : State × Bytes :=
  match cmd with
  | 0x01 =>
    let op := bits (byteAt data 0).toNat 0 2
    let eid := byteAt data 1
    if data.length = 2 ∧ op ≤ 1 ∧ eid ≠ 0 ∧ eid ≠ 0xFF then
      ({ s with hif := { s.hif with eids := smSet 0 s.hif.eids (bindingNo b) eid } }, [0, 0, eid, 0])
    else (s, [2])
  | 0x02 => (s, [0, bindingEid s b, 0, 0])
  | 0x04 => (s, if byteAt data 0 == 0xFF || byteAt data 0 == 0 then [0, 1, 0xF1, 0xF3, 0xFF, 0] else [0x80])
  | 0x05 => (s, [0, 1, 0x7E])
  | _ => (s, [5])

/-- The 7-bit SMBus address and the static I3C address of the module (R487). -/
def mctpAddress (s : State) : Nat := 0x60 + s.pwr.slotId.toNat

/-- The largest packet payload of a binding; 64 bytes is the least of every packet but the last of a message (R487). -/
def packetMax (b : MctpBinding) : Nat := match bindingPort b with | some _ => 256 | none => 64

/-- Bytes of a reassembled message at most (R487). -/
def messageMax : Nat := 4096

/-- Whether packets follow one another as those of one message: numbered in turn, of one tag, the first alone with its start
flag and the last alone with its end flag, and all but the last of one size. PRESUMED: the rules are those of DSP0236. -/
def packetsJoin (b : MctpBinding) : List MctpPacket → Bool
  | [] => false
  | p :: ps =>
    let all := p :: ps
    let size := p.body.length
    p.som && ps.all (fun q => !q.som && q.owner == p.owner && q.tag == p.tag) &&
    all.zipIdx.all (fun x => x.1.seq == p.seq + BitVec.ofNat 2 x.2 && x.1.eom == (x.2 + 1 == all.length)) &&
    decide (size ≤ packetMax b) && (ps.isEmpty || decide (64 ≤ size)) &&
    all.dropLast.all (·.body.length == size) && all.all (fun q => decide (q.body.length ≤ size))

/-- The message of packets that have come; none where they break the rules of reassembly (R488), or hold more than a message
may. -/
def reassemble (b : MctpBinding) (packets : List MctpPacket) : Option Bytes :=
  let m := packets.flatMap (·.body)
  if packetsJoin b packets && decide (m.length ≤ messageMax) then some m else none

/-! ## Identity and base address registers (R477, R478) -/

/-- What a function reports of itself. -/
structure PortIdentity where
  vendor : BitVec 16
  device : BitVec 16
  revision : BitVec 8
  classCode : BitVec 24
  capabilities : List String
  serial : BitVec 64
  deriving DecidableEq, Repr

/-- The identity of the function of a port: both ports report the same (R477). -/
def portIdentity (_ : HPort) : PortIdentity :=
  { vendor := 0x1D5A, device := 0x4096, revision := 0x21, classCode := 0x120000,
    capabilities := ["PCI Express", "Power Management", "MSI-X", "AER", "Device Serial Number"],
    serial := Config.deviceSerial }

/-- The address bits of a base address register that the host may set: BAR0 spans 64 MiB, BAR2 16 MiB, BAR4 64 GiB. -/
def barMask (i : Nat) : BitVec 32 :=
  match i with
  | 0 => 0xFC000000
  | 1 => 0xFFFFFFFF
  | 2 => 0xFF000000
  | 3 => 0xFFFFFFFF
  | 4 => 0
  | _ => 0xFFFFFFF0

/-- The type bits of a base address register: 64-bit memory, BAR4 prefetchable. PRESUMED: their places are those of PCI. -/
def barType (i : Nat) : BitVec 32 :=
  match i with
  | 0 => 0x4
  | 2 => 0x4
  | 4 => 0xC
  | _ => 0

/-- A base address register as the host reads it. -/
def barWord (x : HostPortState) (i : Nat) : BitVec 32 := smGet 0 x.bars i ||| barType i

/-! ## Configuration space (R476, R485) -/

/-- A field of a port's configuration space as the host writes it. PRESUMED: the places of the bits are those of PCIe. The
payload size is at most 512 bytes and the read request size at most 4,096 (R476). -/
def writeCfg (x : HostPortState) (f : CfgField) (v : BitVec 32) : HostPortState :=
  match f with
  | .powerState => { x with d3 := bits v.toNat 0 2 == 3 }
  | .linkControl => { x with aspmL1 := v.getLsbD 1 }
  | .deviceControl => { x with maxPayload := BitVec.ofNat 3 (min 2 (bits v.toNat 5 3)),
                               maxRead := BitVec.ofNat 3 (min 5 (bits v.toNat 12 3)) }
  | .deviceControl2 => { x with cplTimeout := BitVec.ofNat 4 v.toNat }
  | .bar i => { x with bars := smSet 0 x.bars i.val (v &&& barMask i.val) }

/-- Whether a port still answers configuration requests with Configuration Request Retry Status: until it can complete them,
100 ms at most after it might first train (R578). -/
def cfgBusy (s : State) (p : HPort) : Bool :=
  match (getPort s p).trainAt with
  | some t => decide (s.nowNs < t + min (100 * msNs) (Config.configReady (portNo p)))
  | none => false

/-- CONFIG_SPACE_WRITE (R476, R485, R578). -/
def execConfigSpaceWrite (port : HPort) (field : CfgField) (value : BitVec 32) (s : State) : Res :=
  if !(bar2Open s port) then .next s
  else if cfgBusy s port then .next (emit s (.cfgRetry port))
  else .next (setPort s port (writeCfg (getPort s port) field value))

end Sys2Proof.Machine
end

