-- ==== Sys2Proof/Machine/Power.lean ====
section
/-! DEFINITION. Cadence points, their ceilings, the loops and the limiters (01_architecture.md R25 to R34;
17_power_thermal_ageing.md R544 to R554, R566). -/

namespace Sys2Proof.Machine

/-! ## The operating table (R30) -/

/-- Cadence of a point in M hc/s. -/
def cadMhz (q : Nat) : Nat := [500, 750, 1000, 1250, 1500, 1650, 1800].getD q 1800

/-- Shipped core rail of a point in mV. -/
def railMv (q : Nat) : Nat := [560, 600, 640, 680, 720, 760, 800].getD q 800

/-- The offset of a die in mV (R568). -/
def offsetMv (w : DieWear) : Int := 5 * w.offset.toInt

/-- The highest die offset in mV. -/
def maxOffset (s : State) : Int := s.pwr.wear.foldl (fun m w => max m (offsetMv w)) (-20)

/-- The compute dies are powered: the cadence has started, and the module is in neither Closed nor Parked (R555, R577). -/
def computeOn (s : State) : Bool := s.rst.supply == .on && decide (5 ≤ s.rst.step) && decide (s.pwr.state < 3)

/-- The highest point that a replica reading supports by 1.05 (R31). DESIGN CHOICE (log 88): where it supports not even
point 0, R31 permits no point and the manual names no value; point 0 stays permitted. -/
def supported (rate : Nat) : Nat :=
  ((List.range 7).filter (fun q => decide (105 * cadMhz q ≤ 100 * rate))).getLastD 0

/-- The slowest of some readings. -/
def slowest (rates : List Nat) : Nat := rates.foldl min (rates.headD 0)

/-! ## Ceilings (R549) -/

/-- The ceilings of the power manager replaced. -/
def setCeil (s : State) (c : CeilState) : State := { s with pwr := { s.pwr with ceil := c } }

/-- The lowest active hardware ceiling; none where no limiter is active (R552, R538). -/
def hwCeil (c : CeilState) : Option Nat :=
  let xs := (match c.fast with | some f => [f] | none => []) ++ (if c.overcurrent then [0] else []) ++
    (if c.hot then [2] else []) ++ (if c.inputLow then [0] else []) ++ (if c.loopHold then [2] else [])
  xs.foldl (fun (m : Option Nat) x => some (match m with | some y => min x y | none => x)) none

/-- The trim ceiling (R549). -/
def trimCeil (s : State) : Nat := if s.pwr.state = 1 then min 6 (bits s.pwr.cfg.toNat 0 4) else 6

/-- The power-brake ceiling. -/
def brakeCeil (s : State) : Option Nat := if s.pwr.ceil.brake then some (min 6 (bits s.pwr.cfg.toNat 4 4)) else none

/-- The save of an entry to Closed or Parked has moved the sequencer to point 0 (R558). -/
def savePoint (s : State) : Nat := match s.pwr.entry with | some e => if 2 ≤ e.stage then 0 else 6 | none => 6

/-- The lowest ceiling (R549), and point 0 during the save of an entry (R558). -/
def lowestCeil (s : State) : Nat :=
  let c := s.pwr.ceil
  let m := min (min c.tableMax c.permitted) (min (min c.power c.thermal) (trimCeil s))
  min (min m (savePoint s)) (min ((brakeCeil s).getD 6) ((hwCeil c).getD 6))

/-! ## Moving the point (R33, R544 to R546) -/

/-- A change from the point in force to `t` begins (R545, R546). In a change down the cadence moves at once and the rails
follow; in a change up the base dies take the drive of `t` first, then the rails move. -/
def beginChange (s : State) (t : Nat) (origin : PointOrigin) (guard : Bool) : State :=
  let c := s.pwr.ceil
  let s1 := if c.point < t then { s with pwr := { s.pwr with drive := StoreDrive.ofPoint t } } else s
  setCeil s1 { c with point := min t c.point, change := some { fromPoint := c.point, toPoint := t, origin, guard } }

/-- The sequencer moves towards point `t`, one change at a time (R33): while a change is in progress the request waits, in
place of an older one, unless the change leads to `t`. -/
def seek (s : State) (t : Nat) (origin : PointOrigin) : State :=
  let c := s.pwr.ceil
  match c.change with
  | none => if t = c.point then s else beginChange s t origin false
  | some x =>
    setCeil s { c with waiting := if t = x.toPoint then none
                                  else some { fromPoint := c.point, toPoint := t, origin, guard := false } }

/-- The sequencer follows the lowest ceiling (R549). -/
def retarget (s : State) : State := if computeOn s then seek s (lowestCeil s) .ceiling else s

/-- Ceilings changed by `f`, and the point after them. -/
def withCeil (s : State) (f : CeilState → CeilState) : State := retarget (setCeil s (f s.pwr.ceil))

/-- A request is given a status (R33, R544). -/
def answerPoint (s : State) (st : Status) : State := setCeil s { s.pwr.ceil with answer := some st }

/-- A request is refused (R33, R544): with REFUSED, and counted. -/
def refusePoint (s : State) : State :=
  answerPoint { s with pwr := { s.pwr with refusals := satAdd s.pwr.refusals 1 } } .refused

/-- Whether a guard step-down is in progress. -/
def guardRuns (s : State) : Bool := match s.pwr.ceil.change with | some x => x.guard | none => false

/-- POINT_REQUEST (R33, R544): refused where the rails that the ceilings permit do not carry the target, and where it is a
step up of firmware during a guard step-down. -/
def execPointRequest (target : BitVec 3) (origin : PointOrigin) (s : State) : Res :=
  let t := target.toNat
  if !(computeOn s) || decide (t > lowestCeil s) ||
     (origin == .firmware && guardRuns s && decide (t > s.pwr.ceil.point)) then .next (refusePoint s)
  else .next (answerPoint (seek s t origin) .ok)

/-- The change that waited starts once the one in progress has ended. -/
def nextChange (s : State) : State :=
  let w := s.pwr.ceil.waiting
  let s1 := setCeil s { s.pwr.ceil with waiting := none }
  match w with
  | some x => seek s1 (min x.toPoint (lowestCeil s1)) x.origin
  | none => if lowestCeil s1 < s1.pwr.ceil.point then retarget s1 else s1

/-- A change has ended at point `q` (R545, R546): the base dies have the drive of its group. -/
def endChange (s : State) (q : Nat) : State :=
  setCeil { s with pwr := { s.pwr with drive := StoreDrive.ofPoint q } } { s.pwr.ceil with point := q, change := none }

/-- RAIL_SETTLED (R545, R546, R548): the rails of a change have settled. After a change up the replica monitors decide; where
they do not support it, rails and base dies return to the old point. -/
def execRailSettled (rates : List Nat) (s : State) : Res :=
  let c := s.pwr.ceil
  match c.change with
  | none => .next s
  | some x =>
    if c.point < x.toPoint then
      if 105 * cadMhz x.toPoint ≤ 100 * slowest rates then .next (nextChange (endChange s x.toPoint))
      else
        let s1 := setCeil s { c with permitted := min c.permitted (supported (slowest rates)) }
        .next (nextChange (endChange s1 c.point))
    else .next (nextChange (endChange s c.point))

/-! ## The guard step-down (R32, R33) -/

/-- Cadence ticks of 10 µs at the cadence in force. DEDUCED (log 97). -/
def windowTicks (s : State) : Nat := 10 * cadMhz s.pwr.ceil.point

/-- Slips of a cluster within the window (R32). -/
def windowSlips (s : State) (c : Nat) : Nat :=
  ((s.pwr.slipWin.filter (fun e => e.2.1 == c && decide (s.pwr.ticks < e.1 + windowTicks s))).map (fun e => e.2.2)).sum

/-- The slips of a cluster exceed 1 % of the ticks of the window (R32). -/
def slipsExceed (s : State) (c : Nat) : Bool := decide (windowTicks s < 100 * windowSlips s c)

/-- A reading lies below 1.02 times the cadence in force (R32). -/
def guardLow (s : State) (rate : Nat) : Bool := decide (100 * rate < 102 * cadMhz s.pwr.ceil.point)

/-- The sequencer steps down one point for cluster `k` without firmware (R32). A change in progress gives way to it; a
request that waits for a higher point is discarded (R33, R563). -/
def guardStep (s : State) (k : Nat) : State :=
  let c := s.pwr.ceil
  let q := c.point - 1
  let s1 := beginChange (setCeil s { c with permitted := min c.permitted q
                                            waiting := c.waiting.filter (fun w => decide (w.toPoint < q)) }) q .ceiling true
  let s2 := { s1 with cr := { s1.cr with stepDowns := satAdd s1.cr.stepDowns 1 } }
  raiseEvent s2 (unnamed 0) 2 k

/-- GUARD_STEP_DOWN (R32): the window holds too many slips of a cluster, or else its replica monitor reports `rateMhz`. -/
def execGuardStepDown (cluster : ClusterId) (rateMhz : Nat) (bySlips : Bool) (s : State) : Res :=
  if computeOn s && decide (0 < s.pwr.ceil.point) &&
     (if bySlips then slipsExceed s cluster.toNat else guardLow s rateMhz) then
    .next (guardStep s cluster.toNat)
  else .next s

/-! ## Ticks (R27, R46, R153) -/

/-- Whether something outside core `n` holds its issued work (R46). -/
def coreHeld (s : State) (n : Nat) : Bool :=
  let c := getCore s n
  let out := fun (r : Option OpRun) => match r with | some x => !x.finished | none => false
  decide (16 ≤ c.pq.length) || (activeList c).isNone || out c.coe || out c.dma || out c.ccm ||
  (match c.ve with | some v => v.waiting | none => false) ||
  (match nextOp s n with | some o => !(mayStart s n o) | none => false)

/-- Whether core `n` holds issued work. -/
def coreWorks (c : Core) : Bool :=
  !c.tokens.isEmpty || !c.svcTokens.isEmpty || c.lpa.isSome || c.ve.isSome || c.coe.isSome || c.dma.isSome || c.ccm.isSome

/-- What a tick counts at core `n`. -/
def tickCore (s : State) (n : Nat) : State :=
  let c := getCore s n
  let full := if 16 ≤ c.pq.length then c.pqFull + 1 else 0
  let np := if coreWorks c && !(coreHeld s n) then c.noProg + 1 else c.noProg
  let lpa := c.lpa.map (fun r => { r with idle := r.idle + idleArrays r })
  setCore s n { c with pqFull := full, noProg := np, lpa }

/-- The slips of one more tick enter the window of R32, and those that have left it are dropped. -/
def noteSlips (s : State) (slips : List (Nat × Nat)) : State :=
  let t := s.pwr.ticks + 1
  let new := (slips.filter (fun p => decide (0 < p.2))).map (fun p => (t, p.1, p.2))
  let old := s.pwr.slipWin.filter (fun e => decide (t < e.1 + windowTicks s))
  { s with pwr := { s.pwr with ticks := t, slipWin := old ++ new } }

/-- CADENCE_TICK (R27): each unit may issue once, which the other commands carry out; the slips of each cluster are
counted, and so are the ticks that R46 and R153 count. -/
def execCadenceTick (slips : List (Nat × Nat)) (s : State) : Res :=
  if computeOn s && decide (7 ≤ s.rst.step) then
    let k := slips.foldl (fun m p => m + p.2) 0
    let s1 := noteSlips { s with cr := { s.cr with slips := satAdd s.cr.slips k } } slips
    .next ((s1.cores.map (·.1)).foldl (fun x n => if smGet false x.pwr.gated (n / 64) then x else tickCore x n) s1)
  else .next s

/-! ## ALERT_N (R566, R577, R593) -/

/-- Whether ALERT_N has a cause. -/
def alertCause (s : State) : Bool :=
  let c := s.pwr.ceil
  c.fast.isSome || c.overcurrent || c.hot || c.inputLow || s.err.fwFatal ||
  (s.rst.railFail && s.rst.supply == .vao)

/-- ALERT_N follows its causes, and stays asserted for at least 1 ms. -/
def settleAlert (s : State) : State :=
  match s.pwr.alert with
  | none => if alertCause s then drivePin { s with pwr := { s.pwr with alert := some s.nowNs } } "ALERT_N" true else s
  | some t =>
    if !(alertCause s) && decide (t + msNs ≤ s.nowNs) then
      drivePin { s with pwr := { s.pwr with alert := none } } "ALERT_N" false
    else s

/-! ## Limiters (R552, R553) -/

/-- A limiter has acted: its event, ALERT_N, and the point. -/
def limiterActs (s : State) : State := settleAlert (raiseEvent (retarget s) .limiter 0 0)

/-- FAST_POWER (R552): the input power averaged over the last 50 µs, in W. -/
def execFastPower (watts : Nat) (s : State) : Res :=
  let c := s.pwr.ceil
  let s1 := setCeil s { c with peakW := max c.peakW watts }
  let due := match c.lastFast with | some t => decide (t + 20000 ≤ s.nowNs) | none => true
  if computeOn s && due && decide (110 * s.fw.powerLimit.toNat < 100 * watts) then
    let s2 := setCeil s1 { s1.pwr.ceil with fast := some (c.point - 1), lastFast := some s.nowNs }
    .next (limiterActs { s2 with pwr := { s2.pwr with fastCount := satAdd s2.pwr.fastCount 1 } })
  else .next s1

/-- OVERCURRENT (R552). -/
def execOvercurrent (s : State) : Res :=
  let c := s.pwr.ceil
  if computeOn s && !c.overcurrent then
    let s1 := setCeil s { c with overcurrent := true, belowAmps := none }
    .next (limiterActs { s1 with pwr := { s1.pwr with overCount := satAdd s1.pwr.overCount 1 } })
  else .next s

/-- HOT (R552). -/
def execHot (s : State) : Res :=
  let c := s.pwr.ceil
  if computeOn s && !c.hot then
    let s1 := setCeil s { c with hot := true }
    .next (limiterActs { s1 with pwr := { s1.pwr with hotCount := satAdd s1.pwr.hotCount 1 } })
  else .next s

/-- INPUT_LOW (R552). -/
def execInputLow (s : State) : Res :=
  let c := s.pwr.ceil
  if computeOn s && !c.inputLow then
    let s1 := setCeil s { c with inputLow := true }
    .next (limiterActs { s1 with pwr := { s1.pwr with lowCount := satAdd s1.pwr.lowCount 1 } })
  else .next s

/-- HOT_RELEASE (R552): every junction has stayed below 95 °C for 100 ms. -/
def execHotRelease (s : State) : Res := .next (settleAlert (withCeil s (fun c => { c with hot := false })))

/-- INPUT_LOW_RELEASE (R552): the input has stayed at or above 41.0 V for 10 ms. -/
def execInputLowRelease (s : State) : Res := .next (settleAlert (withCeil s (fun c => { c with inputLow := false })))

/-- OPTICS_HOT (R552): the port of the engine goes to DISABLED. -/
def execOpticsHot (port : FabPort) (s : State) : Res :=
  let p := port.toNat
  if s.rst.supply = .on ∧ (getFab s p).hot = false then
    let s1 := settleFab (disablePort (setFab s p { getFab s p with hot := true }) p)
    .next (raiseEvent s1 .opticsHot 4 p)
  else .next s

/-- OPTICS_HOT_RELEASE (R552): the port climbs again under R408. -/
def execOpticsHotRelease (port : FabPort) (s : State) : Res :=
  let p := port.toNat
  if (getFab s p).hot then .next (wakePort (setFab s p { getFab s p with hot := false }) p) else .next s

/-- Whether a time has lasted for `n` nanoseconds. -/
def lasted (s : State) (since : Option Nat) (n : Nat) : Bool :=
  match since with | some t => decide (t + n ≤ s.nowNs) | none => false

/-- Whether firmware runs the loops: an image is RUNNING, or in an update holds the loops (R538, R549). -/
def loopsRun (s : State) : Bool := (fwRunning s || s.fw.state == 5) && !s.err.fwFatal && computeOn s

/-- LIMITER_RELEASE (R553): firmware first sets its own power-loop ceiling to the point in force. -/
def execLimiterRelease (limiter : HeldLimiter) (s : State) : Res :=
  let c := s.pwr.ceil
  let c1 := { c with power := c.point, lastPower := s.nowNs }
  if loopsRun s && s.fw.loopsTaken && lasted s c.belowLimit 4000000 then
    match limiter with
    | .fastPower => if c.fast.isSome then .next (settleAlert (withCeil s (fun _ => { c1 with fast := none }))) else .next s
    | .overcurrent =>
      if c.overcurrent && lasted s c.belowAmps 10000000 then
        .next (settleAlert (withCeil s (fun _ => { c1 with overcurrent := false })))
      else .next s
  else .next s

/-! ## The loops (R550, R551) -/

/-- The new image of an update takes the loops with its first tick (R538, R539): the switch has ended. -/
def takeLoops (s : State) : State :=
  if s.fw.loopsTaken then s
  else
    let s1 := { s with fw := { s.fw with loopsTaken := true, phase := if s.fw.phase = 4 then 5 else s.fw.phase } }
    withCeil s1 (fun c => { c with loopHold := false })

/-- P_pred of R550 for point `q` does not exceed 0.97 × power_limit. -/
def predicts (s : State) (pIn pPkg q : Nat) : Bool :=
  let p := s.pwr.ceil.point
  let v := fun (k : Nat) => (railMv k : Int) + maxOffset s
  let d : Int := (cadMhz p : Int) * v p * v p
  decide (100 * ((pPkg : Int) * (cadMhz q : Int) * v q * v q + ((pIn : Int) - (pPkg : Int)) * d) ≤
    97 * (s.fw.powerLimit.toNat : Int) * d)

/-- A condition that holds now has held since `old`, or from now on. -/
def since (s : State) (old : Option Nat) (holds : Bool) : Option Nat :=
  if holds then old.orElse (fun _ => some s.nowNs) else none

/-- Sensors of what a state switches off read all ones (R565): the clusters and the core rails, and in Parked also VIO,
the I/O die and the optical engines. -/
def darkSensors (parked : Bool) (x : Sensors) : Sensors :=
  { x with clusters := List.replicate 64 0xFF
           rails := if parked then List.replicate 6 0xFFFF ++ x.rails.drop 6 else List.replicate 5 0xFFFF ++ x.rails.drop 5
           io := if parked then List.replicate 8 0xFF else x.io
           optics := if parked then List.replicate 16 0xFF else x.optics }

/-- The samples of the Night Assistant as they read: what a power state, or a supply that is off, leaves off reads all ones.
The MRDIMMs are on in a module reset and off where a trip or a rail failure has taken every rail but VAO (R554, R572, R577). -/
def senseAs (s : State) (x : Sensors) : Sensors :=
  if s.rst.supply = .vao then
    let d := darkSensors true x
    if s.pwr.thermTrip || s.rst.inputTrip || s.rst.railFail then { d with dimms := List.replicate 16 0xFF } else d
  else if s.pwr.state = 4 then darkSensors true x
  else if s.pwr.state = 3 then darkSensors false x
  else x

/-- New samples; none is taken while the Night Assistant itself is off. -/
def sample (s : State) (x : Sensors) : State :=
  if s.rst.supply = .off then s else { s with pwr := { s.pwr with sensors := senseAs s x } }

/-- POWER_LOOP_TICK (R550): P_in and P_pkg in W over the last 4 ms, the input voltage and current in units of 10 mV and
10 mA, and the rails in mV. -/
def execPowerLoopTick (pIn pPkg v10mv i10ma : Nat) (rails : List Nat) (s : State) : Res :=
  let s0 := sample s { s.pwr.sensors with pIn, pPkg, inMv10 := v10mv, inMa10 := i10ma, rails }
  if loopsRun s0 then
    let s1 := takeLoops s0
    let limit := s1.fw.powerLimit.toNat
    let c : CeilState := { s1.pwr.ceil with belowLimit := since s1 s1.pwr.ceil.belowLimit (decide (pIn < limit)),
                                            belowAmps := since s1 s1.pwr.ceil.belowAmps (decide (i10ma < 10000)) }
    let c1 :=
      if limit < pIn then { c with power := c.point - 1, lastPower := s1.nowNs }
      else if c.lastPower + 4000000 ≤ s1.nowNs ∧ c.power < 6 ∧ predicts s1 pIn pPkg (c.power + 1) = true then
        { c with power := c.power + 1, lastPower := s1.nowNs }
      else c
    .next (settleAlert (withCeil s1 (fun _ => c1)))
  else .next (settleAlert s0)

/-- T_t and T_r of a thermal profile (R551). -/
def thermalTarget (profile : Nat) : Nat × Nat := [(85, 80), (80, 75), (90, 85), (75, 70)].getD profile (85, 80)

/-- Tmax: the highest cluster and I/O-die reading of a sensor that is on (R551, R565). -/
def tmaxOf (x : Sensors) : Nat := ((x.clusters ++ x.io).filter (· != 0xFF)).foldl max 0

/-- THERMAL_LOOP_TICK (R551): the temperatures in °C. -/
def execThermalLoopTick (clusters io optics dimms : List Nat) (s : State) : Res :=
  let s0 := sample s { s.pwr.sensors with clusters, io, optics, dimms }
  if loopsRun s0 then
    let s1 := takeLoops s0
    let t := tmaxOf s1.pwr.sensors
    let g := thermalTarget s1.fw.thermalProfile.toNat
    let c : CeilState := { s1.pwr.ceil with aboveTarget := since s1 s1.pwr.ceil.aboveTarget (decide (g.1 < t)),
                                            belowRelease := since s1 s1.pwr.ceil.belowRelease (decide (t < g.2)) }
    let c1 :=
      if lasted s1 c.aboveTarget 10000000 && decide (c.lastDown + 10000000 ≤ s1.nowNs) then
        { c with thermal := c.thermal - 1, lastDown := s1.nowNs }
      else if lasted s1 c.belowRelease 100000000 && decide (c.lastUp + 100000000 ≤ s1.nowNs) then
        { c with thermal := min 6 (c.thermal + 1), lastUp := s1.nowNs }
      else c
    .next (settleAlert (withCeil s1 (fun _ => c1)))
  else .next (settleAlert s0)

/-- MONITOR_SWEEP (R31, R32, R577 step 7): the readings of the clusters' replica monitors, in order. permitted_max takes the
highest point that the slowest reading supports, and a reading below the guard steps the point down. The first sweep of a
start ends the sequence. -/
def execMonitorSweep (rates : List Nat) (s : State) : Res :=
  if computeOn s && decide (6 ≤ s.rst.step) && !rates.isEmpty then
    let r := slowest rates
    let s1 :=
      if s.rst.step = 6 then
        { s with rst := { s.rst with step := 7, startMs := satAdd (0 : BitVec 16) ((s.nowNs - s.rst.startNs) / msNs) } }
      else s
    let s2 := if guardLow s1 r && decide (0 < s1.pwr.ceil.point) then guardStep s1 ((rates.findIdx? (· == r)).getD 0) else s1
    .next (withCeil s2 (fun c => { c with permitted := supported r }))
  else .next s

/-! ## Shuttered (R556) -/

/-- The clusters of a die (R21). -/
def dieClusters (d : Nat) : List Nat := (List.range 64).filter (fun c => 2 * (c / 8 / 4) + c % 8 / 4 == d)

/-- The cores of a cluster. -/
def clusterCores (c : Nat) : List Nat := (List.range 64).map (fun k => 64 * c + k)

/-- Whether a cluster has nothing queued and nothing running. -/
def clusterIdle (s : State) (c : Nat) : Bool := (clusterCores c).all (fun n => !(coreWorks (getCore s n)))

/-- The gating delay of PWR_CFG in nanoseconds. -/
def idleNs (s : State) : Nat := 10000 * max 1 (bits s.pwr.cfg.toNat 16 8)

/-- The drive of the stores of cluster `c` (R548). -/
def driveOf (s : State) (c : Nat) : StoreDrive := if smGet false s.pwr.gated c then .retention else s.pwr.drive

/-- CLUSTER_GATE (R556): the logic of the cluster goes off and its stores into retention (R548, `driveOf`). -/
def execClusterGate (cluster : ClusterId) (s : State) : Res :=
  let c := cluster.toNat
  if s.pwr.state = 2 ∧ clusterIdle s c = true ∧ smGet 0 s.pwr.lastUse c + idleNs s ≤ s.nowNs then
    .next { s with pwr := { s.pwr with gated := smSet false s.pwr.gated c true } }
  else .next s

/-- CLUSTER_WAKE (R556): the cluster's logic is on again, and its stores have the drive of the point (R548). -/
def execClusterWake (cluster : ClusterId) (s : State) : Res := .next (touchCluster s cluster.toNat)

end Sys2Proof.Machine
end

