-- ==== Sys2Proof/Machine/Security.lean ====
section
/-! DEFINITION. Measurements, attestation, ownership, command keys, WINDOW_SET and the service connector
(15_security.md R496 to R516; 14_host_interface.md R489 to R495). -/

namespace Sys2Proof.Machine

/-! ## Measurements (R499) -/

/-- Measurement register `i`. -/
def getMr (s : State) (i : Nat) : Bytes := smGet (zeroBytes 64) s.sec.mrs i

/-- An extend of register `i` with event type `t` and digest `d`. -/
def extendMr (s : State) (i t : Nat) (d : Bytes) : State :=
  let c := s.sec
  let v := shake256 (getMr s i ++ leBytes 4 t ++ d)
  let full := decide (1024 ≤ c.mlog.length)
  { s with sec := { c with
      mrs := smSet (zeroBytes 64) c.mrs i v,
      mlog := if full then c.mlog else c.mlog ++ [leBytes 4 i ++ leBytes 4 t ++ leBytes 8 c.mlog.length ++ d],
      logTrunc := c.logTrunc || full,
      imageRef := if i = 1 ∨ i = 3 then some d else c.imageRef } }

/-- The fingerprint of a command key. -/
def fingerprint (key : Bytes) : Bytes := shake256 key 8

/-- The fingerprint of a slot, or zeros. -/
def slotPrint (k : Option Bytes) : Bytes := match k with | some b => fingerprint b | none => zeroBytes 8

/-- Both command-key slots are erased. -/
def eraseSlots (s : State) : State := { s with sec := { s.sec with rootKey := none, opKey := none } }

/-! ## Security commands (R511 to R513) -/

/-- The Device Serial Number as bytes. -/
def serialBytes : Bytes := leBytes 8 Config.deviceSerial.toNat

/-- A block that a security command reads (R512). -/
def readSec (s : State) (a n : Nat) : Bytes × Check :=
  if a % 64 ≠ 0 then ([], some .badField)
  else let r := read s .dram a n; (r.data, r.err)

/-- The address of a security command's body. -/
def secAddr (d : Bytes) : Nat := le d 16 6

/-- A signature of 3,309 bytes. -/
def sigLen : Nat := 3309

/-! ## Attestation (R500 to R503) -/

/-- The seed of the Alias key (R500). -/
def aliasSeed (s : State) : Bytes := kmac256 Config.deviceSecret (getMr s 0 ++ getMr s 1) 32 "ZV-OM4096 ALIAS"

/-- The Alias public key. -/
def aliasPublic (s : State) : Bytes := Config.mldsaPublic (aliasSeed s)

/-- The seed of the DeviceID key, the same at every start (R500). -/
def deviceSeed : Bytes := kmac256 Config.deviceSecret [] 32 "ZV-OM4096 DEVID"

/-- The DeviceID public key. -/
def devicePublic : Bytes := Config.mldsaPublic deviceSeed

/-- The Alias certificate that the boot ROM issues at a start, signed by the DeviceID key (R500). PRESUMED: a certificate is
signed with the empty context string. -/
def aliasCert (s : State) : Bytes :=
  let body := Config.aliasBody (aliasPublic s) (getMr s 0 ++ getMr s 1) serialBytes
  Config.sealCert body (Config.mldsaSign deviceSeed body [])

/-- A certificate (R500, R501): 0 the manufacturing CA's, 1 DeviceID's, 2 Alias's. -/
def certBytes (s : State) (k : Nat) : Bytes :=
  if k = 0 then Config.certificate 2 Config.caPublic serialBytes
  else if k = 1 then Config.certificate 1 devicePublic serialBytes
  else aliasCert s

/-- The flags of the quote. -/
def quoteFlags (s : State) : Nat :=
  let c := s.sec
  b2n c.owner.isSome + 2 * b2n c.rootKey.isSome + 4 * b2n c.opKey.isSome + 8 * b2n c.opened +
    16 * b2n c.vendorReached + 32 * b2n c.logTrunc + 64 * b2n c.liveUpdated

/-- Bytes 0 to 1,791 of the quote. -/
def quoteBody (s : State) (nonce : Bytes) : Bytes :=
  let c := s.sec
  leBytes 4 0x5A515431 ++ leBytes 2 0x0100 ++ leBytes 2 (quoteFlags s) ++ serialBytes ++
    leBytes 2 c.svn.toNat ++ leBytes 2 c.minSvn.toNat ++ leBytes 4 s.hif.wtGen.toNat ++ leBytes 4 c.mlog.length ++
    zeroBytes 4 ++ slotPrint c.rootKey ++ slotPrint c.opKey ++ zeroBytes 16 ++ nonce ++ zeroBytes 8 ++
    ((List.range 8).map (getMr s)).flatten ++ fit (Config.mlkemPublic c.startNo) 1184

/-- The 5,120-byte quote. -/
def quote (s : State) (nonce : Bytes) : Bytes :=
  let b := quoteBody s nonce
  b ++ fit (Config.mldsaSign (aliasSeed s) b (ascii "ZV-OM4096 QUOTE")) sigLen ++ zeroBytes 19

/-- ATTEST (R503, R516). -/
def execAttest (queue : QueueId) (s : State) : Res :=
  let q := queue.toNat
  match startDesc s q 0x0100 with
  | none => .next s
  | some f =>
    let a := secAddr f.desc
    match firstFail [failIf (a % 64 != 0) .badField, failIf (!(canAccess s .dram a 5120)) .addrError,
        failIf (s.sec.opened || !s.sec.aliasKey) .keyFail] with
    | some e => .next (refuseDesc s q f e)
    | none => .next (completeDesc (write s .dram a (quote s ((f.desc.drop 24).take 24))) q f .ok)

/-! ## Ownership (R504) -/

/-- A change of owner: both slots are erased and MR4 is extended. -/
def setOwner (s : State) (key : Option Bytes) (seq : Nat) : State :=
  let s1 := { s with sec := { s.sec with owner := key, ownerSeq := BitVec.ofNat 32 seq } }
  extendMr (eraseSlots s1) 4 4 (match key with | some k => shake256 k | none => zeroBytes 64)

/-- OWNER_CLAIM (R504). -/
def execOwnerClaim (queue : QueueId) (s : State) : Res :=
  let q := queue.toNat
  match startDesc s q 0x0101 with
  | none => .next s
  | some f =>
    let r := readSec s (secAddr f.desc) 1952
    match firstFail [failIf s.sec.owner.isSome .keyFail, r.2] with
    | some e => .next (refuseDesc s q f e)
    | none => .next (completeDesc (setOwner s (some r.1) 0) q f .ok)

/-- Whether a signed block carries its magic and this module's serial number, and zeros in every other byte. -/
def blockForm (b : Bytes) (magic : Nat) (fields : List (Nat × Nat)) : Bool :=
  le b 0 4 == magic && le b 8 8 == Config.deviceSerial.toNat && reservedZero b fields

/-- The check of an OWNER_ROTATE block (R504). -/
def rotateGood (s : State) (b : Bytes) : Bool :=
  match s.sec.owner with
  | none => false
  | some k =>
    blockForm b 0x5A4F5231 [fld 0 4, fld 8 8, fld 16 4, fld 64 1952, fld 2016 3309] &&
    decide (s.sec.ownerSeq.toNat < le b 16 4) &&
    Config.mldsaVerify k (b.take 2016) (ascii "ZV-OM4096 OWNER") ((b.drop 2016).take sigLen)

/-- OWNER_ROTATE (R504): a key of zeros releases ownership. -/
def execOwnerRotate (queue : QueueId) (s : State) : Res :=
  let q := queue.toNat
  match startDesc s q 0x0102 with
  | none => .next s
  | some f =>
    let r := readSec s (secAddr f.desc) 5376
    match firstFail [r.2, failIf (!(rotateGood s r.1)) .keyFail] with
    | some e => .next (refuseDesc s q f e)
    | none =>
      let k := (r.1.drop 64).take 1952
      .next (completeDesc (setOwner s (if allZero k then none else some k) (le r.1 16 4)) q f .ok)

/-! ## Command keys (R505 to R507) -/

/-- The highest install_seq accepted for a slot. -/
def slotSeq (s : State) (slot : Nat) : Option Nat := if slot = 0 then s.sec.rootSeq else s.sec.opSeq

/-- The key of a slot. -/
def slotKey (s : State) (slot : Nat) : Option Bytes := if slot = 0 then s.sec.rootKey else s.sec.opKey

/-- A slot replaced. -/
def setSlot (s : State) (slot : Nat) (k : Option Bytes) : State :=
  { s with sec := if slot = 0 then { s.sec with rootKey := k } else { s.sec with opKey := k } }

/-- The highest install_seq of a slot replaced. -/
def setSlotSeq (s : State) (slot n : Nat) : State :=
  { s with sec := if slot = 0 then { s.sec with rootSeq := some n } else { s.sec with opSeq := some n } }

/-- The digest with which MR5 is extended. -/
def slotDigest (slot : Nat) (print : Bytes) : Bytes :=
  [BitVec.ofNat 8 slot] ++ zeroBytes 7 ++ print ++ zeroBytes 48

/-- The key that a KEY_INSTALL block brings, if every check of R506 holds. A module that has been opened accepts no key
until its next start (R516). -/
def installKey (s : State) (b : Bytes) : Option Bytes :=
  match s.sec.owner with
  | none => none
  | some k =>
    let slot := (byteAt b 4).toNat
    if !s.sec.opened && decide (slot ≤ 1) &&
       blockForm b 0x5A4B4931 [fld 0 5, fld 8 8, fld 16 4, fld 64 1088, fld 1152 3309] &&
       (match slotSeq s slot with | some n => decide (n < le b 16 4) | none => true) &&
       Config.mldsaVerify k (b.take 1152) (ascii "ZV-OM4096 KEY") ((b.drop 1152).take sigLen) then
      (Config.mlkemDecap s.sec.startNo ((b.drop 64).take 1088)).map
        (fun z : Bytes => kmac256 z (b.take 64) 32 "ZV-OM4096 CMDKEY")
    else none

/-- KEY_INSTALL (R506, R507). -/
def execKeyInstall (queue : QueueId) (s : State) : Res :=
  let q := queue.toNat
  match startDesc s q 0x0103 with
  | none => .next s
  | some f =>
    let r := readSec s (secAddr f.desc) 4480
    match r.2 with
    | some e => .next (refuseDesc s q f e)
    | none =>
      match installKey s r.1 with
      | none => .next (refuseDesc s q f .keyFail)
      | some k =>
        let slot := (byteAt r.1 4).toNat
        let s1 := setSlotSeq (setSlot s slot (some k)) slot (le r.1 16 4)
        .next (completeDesc (extendMr s1 5 5 (slotDigest slot (fingerprint k))) q f .ok)

/-- KEY_REVOKE (R506). -/
def execKeyRevoke (queue : QueueId) (s : State) : Res :=
  let q := queue.toNat
  match startDesc s q 0x0104 with
  | none => .next s
  | some f =>
    let slot := (byteAt f.desc 16).toNat
    if slot > 1 then .next (refuseDesc s q f .badField)
    else
      let s1 := extendMr (setSlot s slot none) 5 5 (slotDigest slot (slotPrint (slotKey s slot)))
      .next (completeDesc s1 q f .ok)

/-! ## WINDOW_SET (R493 to R495) -/

/-- Whether a range lies within [lo, hi). -/
def within (base len lo hi : Nat) : Bool := decide (lo ≤ base ∧ base + len ≤ hi)

/-- The conditions of R493 on one entry. The core and cluster stores lie beside each other, and a range may span both. -/
def entryCheck (b : Bytes) : Check :=
  let e := wtEntry b
  let len := 4096 * e.pages
  let inside :=
    if e.kind = 0 then
      e.bus == 0 && (within e.base len 0 0x40000000000 || within e.base len coreStores (clusterStores + 0x40000000) ||
        within e.base len redMemLo (redMemLo + redMemLen))
    else within e.base len hostWinLo hostWinHi && e.bus % 4096 == 0 && decide (e.bus + len ≤ 2 ^ 64)
  firstFail [failIf (!(reservedZero b wtFields)) .badReserved,
    failIf (e.kind == 3 || e.base % 4096 != 0 || !inside) .badField]

/-- First entry of a WINDOW_SET. -/
def wsFirst (d : Bytes) : Nat := field d 24 0 10

/-- The entries of a WINDOW_SET payload. -/
def wsEntries (f : Fetched) : List Bytes := (List.range (wsCount f.desc)).map (fun i => (f.payload.drop (32 * i)).take 32)

/-- The check of a WINDOW_SET. -/
def wsCheck (f : Fetched) : Check :=
  firstFail ([failIf (secAddr f.desc % 64 != 0 || decide (wsFirst f.desc + wsCount f.desc > 1024)) .badField] ++
    (wsEntries f).map entryCheck)

/-- Every entry of a WINDOW_SET stands, and the generation moves on. -/
def putEntries (s : State) (f : Fetched) : State :=
  let wt := (wsEntries f).zipIdx.foldl (fun (m : List (Nat × Bytes)) (e : Bytes × Nat) =>
    smSet (zeroBytes 32) m (wsFirst f.desc + e.2) e.1) s.hif.wt
  { s with hif := { s.hif with wt, wtGen := s.hif.wtGen + 1 } }

/-- WINDOW_SET (R493, R494): the table changes in one step; the command completes at once, or where lines granted before it are
still out, when the last of them has landed or been discarded. A second one waits for that. -/
def execWindowSet (queue : QueueId) (s : State) : Res :=
  let q := queue.toNat
  if s.hif.wtWait.isSome then .next s
  else
    match startDesc s q 0x0105 with
    | none => .next s
    | some f =>
      match wsCheck f with
      | some e => .next (refuseDesc s q f e)
      | none =>
        let s1 := putEntries (markStarted s q f) f
        .next (endWindowSet { s1 with hif := { s1.hif with wtWait := some (q, f.uid, s.fab.nextId) } })

/-! ## The service connector (R514 to R516) -/

/-- A change of the connector's state extends MR6. -/
def setSvc (s : State) (st level : Nat) : State :=
  extendMr { s with sec := { s.sec with svc := BitVec.ofNat 2 st, svcLevel := BitVec.ofNat 2 level } } 6 6
    ([BitVec.ofNat 8 st, BitVec.ofNat 8 level] ++ zeroBytes 62)

/-- The connector returns to LOCKED. -/
def lockSvc (s : State) : State := if s.sec.svc = 0 then s else setSvc s 0 0

/-- One minute in nanoseconds. -/
def minuteNs : Nat := 60000000000

/-- SVC_UNLOCK (R515, R516). -/
def execSvcUnlock (queue : QueueId) (s : State) : Res :=
  let q := queue.toNat
  match startDesc s q 0x0106 with
  | none => .next s
  | some f =>
    let level := field f.desc 16 0 2
    let mins := le f.desc 18 2
    if s.sec.svc ≠ 0 ∨ level = 0 ∨ level = 3 ∨ mins = 0 ∨ mins > 1440 then .next (refuseDesc s q f .badField)
    else
      let s1 := setSvc (eraseSlots s) 1 level
      .next (completeDesc { s1 with sec := { s1.sec with svcEnd := s.nowNs + mins * minuteNs, opened := true,
                                                         aliasKey := false } } q f .ok)

/-- SVC_LOCK (R515). -/
def execSvcLock (queue : QueueId) (s : State) : Res :=
  match startDesc s queue.toNat 0x0107 with
  | none => .next s
  | some f => .next (completeDesc (lockSvc s) queue.toNat f .ok)

/-- SVN_COMMIT (R498). -/
def execSvnCommit (queue : QueueId) (s : State) : Res :=
  match startDesc s queue.toNat 0x0108 with
  | none => .next s
  | some f =>
    let c := s.sec
    let m := if c.minSvn < c.svn then c.svn else c.minSvn
    .next (completeDesc { s with sec := { c with minSvn := m } } queue.toNat f .ok)

/-- MR_EXTEND (R499, R511). -/
def execMrExtend (queue : QueueId) (s : State) : Res :=
  let q := queue.toNat
  match startDesc s q 0x0109 with
  | none => .next s
  | some f =>
    let r := readSec s (secAddr f.desc) 64
    match r.2 with
    | some e => .next (refuseDesc s q f e)
    | none => .next (completeDesc (extendMr s 7 7 r.1) q f .ok)

/-- VENDOR_CHALLENGE (R515): a service tool answers the value that the connector issued last. -/
def execVendorChallenge (signature : Bytes) (s : State) : Res :=
  match s.sec.challenge with
  | none => .next s
  | some c =>
    let s1 := { s with sec := { s.sec with challenge := none } }
    if s.sec.svc = 1 ∧ s.sec.svcLevel = 2 ∧
       Config.mldsaVerify Config.serviceKey (c ++ serialBytes) (ascii "ZV-OM4096 SVC") signature = true then
      let s2 := setSvc s1 2 2
      .next { s2 with sec := { s2.sec with vendorReached := true } }
    else .next s1

/-- SVC_UNLOCK_EXPIRY (R515): the minutes of the unlock have elapsed. -/
def execSvcUnlockExpiry (s : State) : Res :=
  if s.sec.svc ≠ 0 ∧ s.sec.svcEnd ≤ s.nowNs then .next (lockSvc s) else .next s

/-- SERVICE_CONNECTOR_READ (R514, R515): the serial number, the quote flags, or a fresh challenge. -/
def execServiceConnectorRead (which : ServiceRead) (s : State) : Res :=
  if s.rst.supply = .off then .next s
  else
    match which with
    | .serial => .next (emit s (.service serialBytes))
    | .flags => .next (emit s (.service (leBytes 2 (quoteFlags s))))
    | .challenge =>
      let c := fit (Config.challengeValue s.freeCount) 32
      .next (emit { s with freeCount := s.freeCount + 1, sec := { s.sec with challenge := some c } } (.service c))

/-- FAILURE_LOG_CLEAR (R515). -/
def execFailureLogClear (s : State) : Res :=
  if s.sec.svc = 2 then .next { s with err := { s.err with failLog := [] } } else .next s

/-- KEY_REVOCATION_BURN (R498, R515). -/
def execKeyRevocationBurn (key : BitVec 2) (s : State) : Res :=
  if s.sec.svc = 2 then
    .next { s with sec := { s.sec with keyRevoked := s.sec.keyRevoked ||| BitVec.ofNat 4 (2 ^ key.toNat) } }
  else .next s

end Sys2Proof.Machine
end

