-- ==== Sys2Proof/Machine/Firmware.lean ====
section
/-! DEFINITION. The firmware image, the mailbox with its messages, and live update (16_firmware.md R517 to R542;
17_power_thermal_ageing.md R569, R570; 18_reset_and_startup.md R581 to R584; 19_errors_and_events.md R593). -/

namespace Sys2Proof.Machine

/-! ## Images (R496, R497) -/

/-- Body bytes of an image. -/
def imBody (b : Bytes) : Nat := le b 12 4
/-- Its security version. -/
def imSvn (b : Bytes) : Nat := le b 8 2
/-- Its version: patch, minor, major. -/
def imVersion (b : Bytes) : Nat := le b 16 3
/-- The digest of bytes 0 to the end of the body. -/
def imDigest (b : Bytes) : Bytes := shake256 (b.take (2016 + imBody b))

/-- The checks of R497: 0 for a pass, else the code of the first failure. -/
def imageCheck (s : State) (b : Bytes) : Nat :=
  let k := (byteAt b 6).toNat
  let pub := (b.drop 64).take 1952
  let n := 2016 + imBody b
  if le b 0 4 != 0x5A465731 || byteAt b 5 != 1 || byteAt b 7 != 0 || le b 10 2 != 0 || byteAt b 19 != 0 ||
     !(allZero ((b.drop 20).take 44)) || imBody b == 0 || decide (imBody b > 16 * 2 ^ 20) || b.length != n + sigLen then 1
  else if decide (k > 3) || s.sec.keyRevoked.getLsbD k || shake256 pub != Config.romKeyDigest k then 2
  else if imSvn b < s.sec.minSvn.toNat then 3
  else if Config.mldsaVerify pub (b.take n) (ascii "ZV-OM4096 FW") (b.drop n) then 0
  else 4

/-- An image runs: FW_STATUS and SEC_STATUS name it. -/
def runImage (s : State) (b : Bytes) : State :=
  { s with fw := { s.fw with image := b, version := BitVec.ofNat 24 (imVersion b) },
           sec := { s.sec with svn := BitVec.ofNat 16 (imSvn b) } }

/-! ## Channels and responses (R524 to R529) -/

/-- The port of channels 0 to 3. -/
def chPort (ch : Nat) : HPort := if ch % 2 = 0 then .a else .b

/-- The binding of channels 2 to 5. -/
def chBinding (ch : Nat) : MctpBinding := match ch with | 2 => .vdmA | 3 => .vdmB | 4 => .smbus | _ => .i3c

/-- Fields of a message header (R526). -/
def mbType (m : Bytes) : Nat := (byteAt m 3).toNat
def mbLen (m : Bytes) : Nat := field m 4 0 12
def mbKeyed (m : Bytes) : Bool := flag m 5 5
def mbCounter (m : Bytes) : Nat := le m 8 8
/-- The payload, bytes that are not there read as zero (R528). -/
def mbPayload (m : Bytes) : Bytes := fit (m.drop 32) (mbLen m)

/-- The tag of a message under a key (R529). -/
def mbTag (key : Bytes) (ch : Nat) (head payload : Bytes) (custom : String) : Bytes :=
  kmac256 key (serialBytes ++ [BitVec.ofNat 8 ch] ++ head ++ payload) 16 custom

/-- The response to a request (R526, R527, R529). -/
def mbResponse (r : MbxReq) (st : Status) (fields : Bytes) : Bytes :=
  let payload := leBytes 2 (statusCode st) ++ [0, 0] ++ (if st = .ok then fields else [])
  let head := leBytes 2 0x5A4D ++ [0x30, BitVec.ofNat 8 (mbType r.message)] ++
    leBytes 2 (payload.length + 0x1000 + 0x2000 * b2n r.key.isSome) ++ (r.message.drop 6).take 2 ++
    leBytes 8 (if r.key.isSome then mbCounter r.message else 0)
  let tag := match r.key with
    | some k => mbTag k r.channel head payload "ZV-OM4096 MBXR"
    | none => zeroBytes 16
  head ++ tag ++ payload

/-- A response is written in MBX_OUT (R524). -/
def putOut (s : State) (p : HPort) (m : Bytes) : State :=
  let x := getPort s p
  let s1 := setPort s p { x with mbxOut := putBytes (fit x.mbxOut 4096) 0 m, mbxDone := true, mbxHeld := none, mbxConfig := none }
  if x.mbxIrqEn then sendMsix s1 p x.mbxMsix.toNat else s1

/-- A response leaves on its channel; on a BAR2 channel it waits while done is set. A vendor message on MCTP carries its
type and the vendor ID (R488). -/
def sendResponse (s : State) (ch : Nat) (m : Bytes) : State :=
  if ch < 2 then
    let p := chPort ch
    if (getPort s p).mbxDone then setPort s p { getPort s p with mbxHeld := some m } else putOut s p m
  else if bindingOpen s (chBinding ch) then emit s (.mctp (chBinding ch) ([0x7E, 0x1D, 0x5A] ++ m))
  else s

/-- A request is answered. -/
def respond (s : State) (r : MbxReq) (st : Status) (fields : Bytes := []) : State :=
  sendResponse s r.channel (mbResponse r st fields)

/-! ## Checks of a request (R526 to R530) -/

/-- The key that a message type needs: 0 none, 1 OPERATOR, 2 ROOT (R530). -/
def mbNeed (s : State) (t : Nat) : Nat :=
  if 0x10 ≤ t ∧ t ≤ 0x13 then 2
  else if t = 0x0E ∨ (t = 0x08 ∧ s.fw.state ≠ 3) then 1
  else 0

/-- Steps 2 to 5 of R510 for a message (R529): the state, the failure, and the key. -/
def mbVerify (s : State) (ch : Nat) (m : Bytes) : State × Check × Option Bytes :=
  let need := mbNeed s (mbType m)
  if !(mbKeyed m) then (s, failIf (need != 0) .keyFail, none)
  else
    let k := keyOf s (fun key => mbTag key ch (m.take 16) (mbPayload m) "ZV-OM4096 MBX") ((m.drop 16).take 16)
    let key := if k = 2 then s.sec.rootKey else if k = 1 then s.sec.opKey else none
    if k = 0 then (s, some .keyFail, none)
    else if mbCounter m ≤ (smGet 0 s.fw.mbxCtr ch).toNat then (s, some .counterStale, key)
    else if k < need then (s, some .keyFail, key)
    else ({ s with fw := { s.fw with mbxCtr := smSet 0 s.fw.mbxCtr ch (BitVec.ofNat 64 (mbCounter m)) } }, none, key)

/-- The check of a header's version (R528). -/
def mbVersion (m : Bytes) : Check := failIf (le m 0 2 != 0x5A4D || bits (byteAt m 2).toNat 4 4 != 3) .fwVersion

/-- The checks of a header: version, reserved fields, length. DESIGN CHOICE (log 96): a message whose response bit is 1 is no
request, and is answered with BAD_RESERVED; the manual is silent on it. -/
def mbHeader (m : Bytes) : Check :=
  firstFail [
    mbVersion m,
    failIf (flag m 5 4 || bits (byteAt m 5).toNat 6 2 != 0) .badReserved,
    failIf (!(mbKeyed m) && !(allZero ((m.drop 8).take 24))) .badReserved,
    failIf (decide (mbLen m > 4064)) .badField]

/-- Whether a message needs a key and has come without one (R529): it is answered with KEY_FAIL, whatever else is wrong with its
header. -/
def mbNoKey (s : State) (m : Bytes) : Bool := decide (2 ≤ s.fw.state) && !(mbKeyed m) && mbNeed s (mbType m) != 0

/-- Types that the boot ROM answers (R517). -/
def romType (t : Nat) : Bool := t == 1 || t == 2 || t == 3 || t == 4 || t == 0x14

/-- Channels and states of a type (R518, R521, R530). -/
def mbAllowed (s : State) (ch t : Nat) : Bool :=
  let st := s.fw.state
  let mine := decide (ch % 2 = s.fw.loader.toNat)
  match t with
  | 0x01 => true
  | 0x02 => decide (ch < 2) && st == 0
  | 0x03 => decide (ch < 2) && st == 1 && mine
  | 0x04 => decide (ch < 2) && st == 1 && mine
  | 0x08 => decide (ch < 4) && ((st == 3 && mine) || st == 4)
  | 0x09 => decide (ch < 2) && st == 4
  | 0x0A => st == 4
  | 0x0B => st == 4
  | 0x0C => st == 4
  | 0x0D => st == 4
  | 0x0E => st == 4
  | 0x10 => decide (ch < 4) && st == 4
  | 0x11 => decide (ch < 4) && st == 4
  | 0x12 => decide (ch < 4) && st == 4
  | 0x13 => decide (ch < 4) && st == 4
  | 0x14 => true
  | _ => false

/-- The fields of a payload that firmware knows, in a layout of some bytes. -/
def mbLayout (t : Nat) : Nat × List (Nat × Nat) :=
  match t with
  | 0x08 => (64, [fld 0 10])
  | 0x0A => (8, [fld 0 1, fld 4 4])
  | 0x0E => (4, [fld 0 2])
  | _ => (0, [])

/-- R18 within the layout that firmware knows (R528). -/
def mbReserved (m : Bytes) : Bool :=
  let l := mbLayout (mbType m)
  reservedZero (fit (mbPayload m) l.1) l.2

/-! ## Loading (R517 to R519, R522) -/

/-- HELLO (R522). -/
def mbHello (s : State) (r : MbxReq) : State :=
  let rom := decide (s.fw.state < 2)
  let v := if rom then Config.romVersion else s.fw.version
  respond s r .ok (leBytes 4 v.toNat ++ leBytes 2 s.sec.svn.toNat ++
    [s.fw.state.setWidth 8, s.fw.loader.setWidth 8, s.sec.bootErr.setWidth 8, 0, 0, 0])

/-- LOAD_BEGIN (R518). -/
def mbLoadBegin (s : State) (r : MbxReq) : State :=
  let n := le (fit (mbPayload r.message) 4) 0 4
  if n > 24 * 2 ^ 20 then respond s r .badField
  else respond { s with fw := { s.fw with state := 1, loader := BitVec.ofNat 1 r.channel, loadLen := n, loadBytes := [] } } r .ok

/-- LOAD_DATA (R518). -/
def mbLoadData (s : State) (r : MbxReq) : State :=
  let p := mbPayload r.message
  let d := p.drop 4
  let have_ := s.fw.loadBytes.length
  if le (fit p 4) 0 4 ≠ have_ ∨ have_ + d.length > s.fw.loadLen then respond s r .badField
  else respond { s with fw := { s.fw with loadBytes := s.fw.loadBytes ++ d } } r .ok (leBytes 4 (have_ + d.length))

/-- LOAD_END (R497, R499, R518): a pass extends MR1 and starts the image. -/
def mbLoadEnd (s : State) (r : MbxReq) : State :=
  let b := s.fw.loadBytes
  let e := imageCheck s b
  let s1 := { s with sec := { s.sec with bootErr := BitVec.ofNat 3 e }, fw := { s.fw with loadBytes := [], loadLen := 0, state := 0 } }
  if e = 0 then
    let s2 := extendMr (runImage s1 b) 1 2 (imDigest b)
    respond { s2 with fw := { s2.fw with state := 2 }, sec := { s2.sec with aliasKey := true } } r .ok [0]
  else respond s1 r .ok [BitVec.ofNat 8 e]

/-! ## Configuration and reads (R530 to R532, R570) -/

/-- The ranges of a configuration block (R531). -/
def configGood (b : Bytes) : Bool :=
  let w := le b 0 2
  (w == 0 || decide (1500 ≤ w ∧ w ≤ 3800)) && decide ((byteAt b 2).toNat ≤ 1) && decide ((byteAt b 3).toNat ≤ 3) &&
  (le b 4 4 &&& 0xFFFFFF01) == 0 && decide (le b 8 2 ≤ 1000)

/-- A configuration block in force (R531). -/
def useConfig (s : State) (b : Bytes) : State :=
  { s with fw := { s.fw with
      configBlock := b, powerLimit := BitVec.ofNat 16 (if le b 0 2 = 0 then 3400 else le b 0 2),
      parkedBypass := byteAt b 2 == 1, thermalProfile := byteAt b 3, eventMask := BitVec.ofNat 32 (le b 4 4),
      preemptMin := BitVec.ofNat 16 (le b 8 2) } }

/-- An accepted block takes effect: the image is RUNNING with it (R521). -/
def applyConfig (s : State) (b : Bytes) : State :=
  let s1 := useConfig s b
  { s1 with fw := { s1.fw with state := 4 } }

/-- CONFIG_SET (R521, R531): an accepted block takes effect when its response is sent, which on a BAR2 channel waits while done
is set. -/
def mbConfigSet (s : State) (r : MbxReq) : State :=
  let b := fit (mbPayload r.message) 64
  if !(configGood b) then respond s r .configRange
  else
    let s1 := extendMr s 2 3 (shake256 b)
    let p := chPort r.channel
    if decide (r.channel < 2) && (getPort s1 p).mbxDone then
      respond (setPort s1 p { getPort s1 p with mbxConfig := some b }) r .ok
    else respond (applyConfig s1 b) r .ok

/-- EVENT_RING_SET (R532). -/
def mbEventRing (s : State) (r : MbxReq) : State :=
  let b := fit (mbPayload r.message) 18
  let p := chPort r.channel
  let base := le b 0 8
  if base % 4096 ≠ 0 ∨ (byteAt b 16).toNat > 10 then respond s r .badField
  else
    let ring : Option EvRing :=
      if base = 0 then none
      else some { no := (getPort s p).ringNo + 1, base, head := le b 8 8, sizeLog2 := (byteAt b 16).toNat, vector := (byteAt b 17).toNat, count := 0 }
    respond (setPort s p { getPort s p with ring, ringNo := (getPort s p).ringNo + 1, ringDropped := false }) r .ok

/-- CERT_READ (R530). -/
def mbCertRead (s : State) (r : MbxReq) : State :=
  let b := fit (mbPayload r.message) 8
  let k := (byteAt b 0).toNat
  if k > 2 then respond s r .badField
  else
    let c := certBytes s k
    respond s r .ok (leBytes 4 c.length ++ ((c.drop (le b 4 4)).take 4000))

/-- Entries of a log from the one that a request names, at most `n`. -/
def mbEntries (s : State) (r : MbxReq) (log : List Bytes) (n : Nat) : State :=
  let es := (log.drop (le (fit (mbPayload r.message) 4) 0 4)).take n
  respond s r .ok (leBytes 4 es.length ++ es.flatten)

/-- Sensor readings as bytes. -/
def sens1 (xs : List Nat) (n : Nat) : Bytes := (List.range n).map (fun i => BitVec.ofNat 8 (xs.getD i 0xFF))

/-- A sensor group (R570). -/
def sensorGroup (s : State) (g : Nat) : Bytes :=
  let x := s.pwr.sensors
  match g with
  | 0 => [s.pwr.state.setWidth 8, BitVec.ofNat 8 s.pwr.ceil.point] ++ leBytes 2 x.inMv10 ++ leBytes 2 x.inMa10 ++
      leBytes 2 x.pIn ++ [BitVec.ofNat 8 (tmaxOf x), 0]
  | 1 => sens1 x.clusters 64
  | 2 => (List.range 7).flatMap (fun i => leBytes 2 (x.rails.getD i 0xFFFF))
  | 3 => sens1 x.io 8 ++ sens1 x.optics 16 ++ sens1 x.dimms 16
  | _ => s.pwr.wear.flatMap (fun w => leBytes 2 w.deg.toNat) ++ s.pwr.wear.map (fun w => w.offset) ++
      [BitVec.ofNat 8 s.pwr.ceil.tableMax]

/-- SENSOR_READ (R570), of the groups that the answering party serves. -/
def mbSensor (s : State) (r : MbxReq) (groups : Nat → Bool) : State :=
  let g := (byteAt (mbPayload r.message) 0).toNat
  if groups g then respond s r .ok (sensorGroup s g) else respond s r .badField

/-! ## POWER_REQ (R557, R562, R563, R569) -/

/-- The fields of a POWER_REQ's answer. -/
def powerAnswer (s : State) (reached abort : Nat) (since : Nat) : Bytes :=
  [BitVec.ofNat 8 reached, BitVec.ofNat 8 abort, 0, 0] ++ leBytes 4 ((s.nowNs - since) / 1000)

/-- Whether R562 allows Parked. -/
def parkAllowed (s : State) : Bool :=
  s.cmd.queues.all (fun q => !q.2.en) && decide (s.fw.phase < 3) && s.fw.area

/-- An entry to Closed or Parked begins (R558). -/
def startEntry (s : State) (target : BitVec 3) (byHold : Bool) (reply : Option MbxReq) : State :=
  let e : PowerEntry :=
    { target, origin := s.pwr.state, byHold, stage := 0, started := s.nowNs,
      quiesceMs := max 1 (bits s.pwr.cfg.toNat 24 8), reply }
  { s with pwr := { s.pwr with wake := false, entry := some e } }

/-- HOLD_N starts an entry (R564) once an image acts on it (R579): to Parked with hold_park = 1 where R562 allows,
otherwise to Closed (R557). -/
def holdStart (s : State) : State :=
  let park := s.pwr.cfg.getLsbD 8 && parkAllowed s
  if holdOn s && s.rst.supply == .on && decide (4 ≤ s.fw.state) && !s.err.fwFatal && s.pwr.entry.isNone &&
     (decide (s.pwr.state < 3) || (s.pwr.state == 3 && park)) then startEntry s (if park then 4 else 3) true none
  else s

/-- Open, Trimmed or Shuttered takes effect at once (R557); trim_point is written for Trimmed. -/
def enterRunState (s : State) (st : BitVec 3) (trim : Nat) : State :=
  let cfg := if st = 1 then wrField s.pwr.cfg trim 0 4 else s.pwr.cfg
  retarget { s with pwr := { s.pwr with state := st, cfg, gated := if st = 2 then s.pwr.gated else [] } }

/-- POWER_REQ (R569). One for Open during an entry, or in Closed, is a wake and is answered when the transition has ended. -/
def mbPowerReq (s : State) (r : MbxReq) : State :=
  let b := fit (mbPayload r.message) 4
  let t := (byteAt b 0).toNat
  let trim := (byteAt b 1).toNat
  if t > 4 ∨ (if t = 1 then trim > 6 else trim ≠ 0) then respond s r .badField
  else if s.pwr.entry.isSome then
    if t = 0 ∧ holdOn s = false then
      let s1 := wakeUp s
      { s1 with pwr := { s1.pwr with openWait := s1.pwr.openWait ++ [(r, s.nowNs)] } }
    else respond (if t = 0 then wakeUp s else s) r .refused
  else if s.pwr.state.toNat = 3 then
    match t with
    | 0 =>
      let s1 := wakeUp s
      if holdOn s then respond s1 r .refused
      else { s1 with pwr := { s1.pwr with openWait := s1.pwr.openWait ++ [(r, s.nowNs)] } }
    | 3 => respond s r .ok (powerAnswer s 3 0 s.nowNs)
    | 4 => if parkAllowed s && !s.pwr.wake then startEntry s 4 false (some r) else respond s r .refused
    | _ => respond s r .refused
  else if t ≤ 2 then
    let s1 := enterRunState s (BitVec.ofNat 3 t) trim
    respond s1 r .ok (powerAnswer s1 t 0 s.nowNs)
  else if t = 4 ∧ parkAllowed s = false then respond s r .refused
  else startEntry s (BitVec.ofNat 3 t) false (some r)

/-! ## Live update: stage, verify, activate (R533 to R535) -/

/-- FWU_STAGE (R533). -/
def mbStage (s : State) (r : MbxReq) : State :=
  let b := fit (mbPayload r.message) 12
  let a := le b 0 8
  let n := le b 8 4
  if s.fw.phase ≥ 3 ∨ s.fw.area = false then respond s r .fwState
  else if a % 64 ≠ 0 ∨ n > 24 * 2 ^ 20 then respond s r .badField
  else
    let d := read s .dram a n
    match d.err with
    | some e => respond s r e
    | none => respond { s with fw := { s.fw with staged := some d.data, verified := false, phase := 1 } } r .ok

/-- FWU_VERIFY (R534). -/
def mbVerifyImage (s : State) (r : MbxReq) : State :=
  match s.fw.staged with
  | none => respond s r .fwState
  | some b =>
    if s.fw.phase ≥ 3 then respond s r .fwState
    else
      let e := imageCheck s b
      respond { s with fw := { s.fw with verified := e == 0, phase := if e = 0 then 2 else 1 } } r .ok
        ([BitVec.ofNat 8 e] ++ leBytes 4 (imVersion b) ++ leBytes 2 (imSvn b))

/-- FWU_ACTIVATE (R535): the old image enters prepare. -/
def mbActivate (s : State) (r : MbxReq) : State :=
  if s.fw.verified = false ∨ s.fw.phase ≥ 3 ∨ s.pwr.state ≥ 3 ∨ s.hif.wtWait.isSome then respond s r .fwState
  else { s with fw := { s.fw with phase := 3, state := 5, activate := some r, mbxReady := false } }

/-- FWU_ABORT (R534, R535): the staged image stays, its verified mark is cleared. -/
def mbAbort (s : State) (r : MbxReq) : State :=
  if s.fw.phase ≥ 3 then respond s r .fwState
  else respond { s with fw := { s.fw with verified := false, phase := if s.fw.staged.isSome then 1 else 0 } } r .ok

/-- FWU_STATUS (R517, R530). -/
def mbStatus (s : State) (r : MbxReq) : State :=
  if s.fw.state < 2 then respond s r .ok (zeroBytes 8)
  else respond s r .ok ([s.fw.phase.setWidth 8, s.fw.lastOutcome, s.fw.reverts, 0] ++
    leBytes 4 (match s.fw.staged with | some b => imVersion b | none => 0))

/-! ## Service of a channel -/

/-- A request that has passed every check of its header and key is carried out. -/
def mbRun (s : State) (r : MbxReq) : State :=
  match mbType r.message with
  | 0x01 => mbHello s r
  | 0x02 => mbLoadBegin s r
  | 0x03 => mbLoadData s r
  | 0x04 => mbLoadEnd s r
  | 0x08 => holdStart (mbConfigSet s r)
  | 0x09 => mbEventRing s r
  | 0x0A => mbCertRead s r
  | 0x0B => mbEntries s r s.sec.mlog 50
  | 0x0C => mbEntries s r s.err.failLog 62
  | 0x0D => mbSensor s r (fun g => decide (g ≤ 4))
  | 0x0E => mbPowerReq s r
  | 0x10 => mbStage s r
  | 0x11 => mbVerifyImage s r
  | 0x12 => mbActivate s r
  | 0x13 => mbAbort s r
  | 0x14 => mbStatus s r
  | _ => respond s r .fwState

/-- A request is taken: checked, verified and carried out. -/
def mbServe (s : State) (ch : Nat) (m : Bytes) : State :=
  let plain : MbxReq := { channel := ch, message := m, key := none }
  match firstFail [mbVersion m, failIf (mbNoKey s m) .keyFail, mbHeader m, failIf (decide (s.fw.state < 2) && !(romType (mbType m))) .fwState] with
  | some e => respond s plain e
  | none =>
    let v := mbVerify s ch m
    let r : MbxReq := { channel := ch, message := m, key := v.2.2 }
    match firstFail [v.2.1, failIf (!(mbAllowed v.1 ch (mbType m))) .fwState, failIf (!(mbReserved m)) .badReserved] with
    | some e => respond v.1 r e
    | none => mbRun v.1 r

/-- Whether a channel has a request in service whose answer is due later (R525). -/
def mbInService (s : State) (ch : Nat) : Bool :=
  let is := fun (r : MbxReq) => r.channel == ch
  (match s.fw.activate with | some r => is r | none => false) ||
  (match s.pwr.entry with | some e => (match e.reply with | some r => is r | none => false) | none => false) ||
  s.pwr.openWait.any (fun p => is p.1) ||
  (decide (ch < 2) && (getPort s (chPort ch)).mbxHeld.isSome)

/-- A message that waits in MBX_IN with go set is taken once the channel is served and free (R524, R525). -/
def mbPump (s : State) (p : HPort) : State :=
  let x := getPort s p
  if x.mbxGo && s.fw.mbxReady && !(mbInService s (portNo p)) then
    mbServe (setPort s p { x with mbxGo := false }) (portNo p) (fit x.mbxIn 4096)
  else s

/-- Requests that the Night Assistant answers itself: in Parked, in a module reset, and after the Control Cluster has
stopped (R523, R570, R572, R593). -/
def naServe (s : State) (ch : Nat) (m : Bytes) : State :=
  let r : MbxReq := { channel := ch, message := m, key := none }
  match mbHeader m with
  | some e => respond s r e
  | none =>
    match mbType m with
    | 0x01 => if s.rst.supply = .vao then respond s r .fwState else mbHello s r
    | 0x0D => mbSensor s r (fun g => if s.err.fwFatal && s.pwr.state != 4 && s.rst.supply == .on then decide (g ≤ 4) else g == 0 || g == 3)
    | 0x14 => if s.rst.supply = .vao then respond s r .fwState else mbStatus s r
    | _ => respond s r .fwState

/-- An MCTP request (R525, R541). -/
def mctpRequest (s : State) (ch : Nat) (m : Bytes) : State :=
  let r : MbxReq := { channel := ch, message := m, key := none }
  let b := chBinding ch
  if ch ≥ 4 ∧ (s.pwr.state = 4 ∨ s.rst.supply = .vao ∨ s.err.fwFatal = true) then naServe s ch m
  else if !(bindingOpen s b) || decide (s.fw.state < 2) then s
  else if s.fw.state = 5 then
    if (s.fw.waiting.filter (fun w => w.channel == ch)).length < 4 then { s with fw := { s.fw with waiting := s.fw.waiting ++ [r] } }
    else mctpDrop (respond s r .mbxBusy) b
  else if mbInService s ch then respond s r .mbxBusy
  else mbServe s ch m

/-- The channel of a binding (R488). -/
def bindingCh (b : MctpBinding) : Nat := match b with | .vdmA => 2 | .vdmB => 3 | .smbus => 4 | .i3c => 5

/-- A reassembled MCTP message (R488): a control request is answered, a vendor message with this module's vendor ID carries a
mailbox message, and every other is discarded. -/
def mctpTake (b : MctpBinding) (m : Bytes) (s : State) : State :=
  if m.take 3 = [0x7E, 0x1D, 0x5A] then mctpRequest s (bindingCh b) (m.drop 3)
  else if byteAt m 0 != 0 || decide (m.length < 3) then mctpDrop s b
  else
    let h := byteAt m 1
    if h.getLsbD 7 then
      let r := mctpAnswer s b (byteAt m 2).toNat (m.drop 3)
      emit r.1 (.mctp b ([0, h &&& 0x1F, byteAt m 2] ++ r.2))
    else s

/-- MCTP_CONTROL (R487, R488): the packets of a message arrive on a binding. -/
def execMctpControl (binding : MctpBinding) (packets : List MctpPacket) (s : State) : Res :=
  if !(bindingOpen s binding) then .next s
  else
    match reassemble binding packets with
    | some m => .next (mctpTake binding m s)
    | none => .next (mctpDrop s binding)

/-- A message arrives on a channel: on BAR2 the host writes it in MBX_IN and sets go; a write while go is set is
ignored (R524). -/
def mbArrive (s : State) (ch : Nat) (m : Bytes) : State :=
  if ch < 2 then
    let p := chPort ch
    let x := getPort s p
    if bar2Open s p && !x.mbxGo then mbPump (setPort s p { x with mbxIn := putBytes (fit x.mbxIn 4096) 0 (m.take 4096), mbxGo := true }) p
    else s
  else if ch < 6 then mctpRequest s ch m
  else s

/-- A message of one type arrives. -/
def mbCommand (t : Nat) (channel : BitVec 3) (m : Bytes) (s : State) : Res :=
  if mbType m = t then .next (mbArrive s channel.toNat m) else .next s

/-- HELLO (R522, R530). -/
def execHello (channel : BitVec 3) (message : Bytes) (s : State) : Res := mbCommand 0x01 channel message s
/-- LOAD_BEGIN (R518). -/
def execLoadBegin (channel : BitVec 3) (message : Bytes) (s : State) : Res := mbCommand 0x02 channel message s
/-- LOAD_DATA (R518). -/
def execLoadData (channel : BitVec 3) (message : Bytes) (s : State) : Res := mbCommand 0x03 channel message s
/-- LOAD_END (R497, R518). -/
def execLoadEnd (channel : BitVec 3) (message : Bytes) (s : State) : Res := mbCommand 0x04 channel message s
/-- CONFIG_SET (R521, R531). -/
def execConfigSet (channel : BitVec 3) (message : Bytes) (s : State) : Res := mbCommand 0x08 channel message s
/-- EVENT_RING_SET (R532). -/
def execEventRingSet (channel : BitVec 3) (message : Bytes) (s : State) : Res := mbCommand 0x09 channel message s
/-- CERT_READ (R530). -/
def execCertRead (channel : BitVec 3) (message : Bytes) (s : State) : Res := mbCommand 0x0A channel message s
/-- MLOG_READ (R530). -/
def execMlogRead (channel : BitVec 3) (message : Bytes) (s : State) : Res := mbCommand 0x0B channel message s
/-- FAILLOG_READ (R530). -/
def execFaillogRead (channel : BitVec 3) (message : Bytes) (s : State) : Res := mbCommand 0x0C channel message s
/-- SENSOR_READ (R570). -/
def execSensorRead (channel : BitVec 3) (message : Bytes) (s : State) : Res := mbCommand 0x0D channel message s
/-- POWER_REQ (R557, R569). -/
def execPowerReq (channel : BitVec 3) (message : Bytes) (s : State) : Res := mbCommand 0x0E channel message s
/-- FWU_STAGE (R533). -/
def execFwuStage (channel : BitVec 3) (message : Bytes) (s : State) : Res := mbCommand 0x10 channel message s
/-- FWU_VERIFY (R534). -/
def execFwuVerify (channel : BitVec 3) (message : Bytes) (s : State) : Res := mbCommand 0x11 channel message s
/-- FWU_ACTIVATE (R535). -/
def execFwuActivate (channel : BitVec 3) (message : Bytes) (s : State) : Res := mbCommand 0x12 channel message s
/-- FWU_ABORT (R535). -/
def execFwuAbort (channel : BitVec 3) (message : Bytes) (s : State) : Res := mbCommand 0x13 channel message s
/-- FWU_STATUS (R530). -/
def execFwuStatus (channel : BitVec 3) (message : Bytes) (s : State) : Res := mbCommand 0x14 channel message s

/-- A response that waited is written, and a configuration block that waited with it takes effect (R524, R531). -/
def putHeld (s : State) (p : HPort) (m : Bytes) : State :=
  match (getPort s p).mbxConfig with
  | some b => holdStart (applyConfig (putOut s p m) b)
  | none => putOut s p m

/-- done of MBX_CTL is cleared: a response that waited is written, or a waiting request is taken (R524). -/
def clearDone (p : HPort) (s : State) : State :=
  let x := getPort s p
  let s1 := setPort s p { x with mbxDone := false }
  mbPump (match x.mbxHeld with | some m => putHeld s1 p m | none => s1) p

/-- MBX_DONE_CLEAR (R524): the host writes 1 to done. -/
def execMbxDoneClear (port : HPort) (s : State) : Res :=
  if bar2Open s port && (getPort s port).mbxDone then .next (clearDone port s) else .next s

/-! ## The image starts (R519, R581 to R584) -/

/-- LOADER_PORT_LOST (R519, R583). -/
def execLoaderPortLost (port : HPort) (s : State) : Res :=
  let other : HPort := match port with | .a => .b | .b => .a
  if portNo port = s.fw.loader.toNat ∧ (getPort s port).linkUp = false then
    if s.fw.state = 1 then .next { s with fw := { s.fw with state := 0, loadBytes := [], loadLen := 0 } }
    else if s.fw.state = 2 ∨ s.fw.state = 3 then
      .next { s with fw := { s.fw with loader := BitVec.ofNat 1 (portNo other) } }
    else .next s
  else .next s

/-- An MRDIMM of a kind that R324 accepts. -/
def dimmGood (d : Dimm) : Bool :=
  d.x4 && (d.capGb == 64 || d.capGb == 128 || d.capGb == 256) && (d.rateMts == 8800 || d.rateMts == 12800)

/-- The accepted MRDIMMs by channel. -/
def dimmsOf (spd : List (Option Dimm)) : List (Nat × Dimm) :=
  (spd.take 16).zipIdx.filterMap (fun p => match p.1 with | some d => if dimmGood d then some (p.2, d) else none | none => none)

/-- The pattern code of MEM_CFG for the populated channels (R325); 0 for none. -/
def patternOf (ds : List (Nat × Dimm)) : Nat :=
  let ch := ds.map (·.1)
  let cap := (ds.head?.map (fun p => p.2.capGb)).getD 0
  if !(ds.all (fun p => p.2.capGb == cap)) then 0
  else if ch = List.range 16 then 3
  else if ch = [0, 2, 4, 6, 8, 10, 12, 14] then 2
  else if ch = [0, 4, 8, 12] then 1
  else 0

/-- The slots that a mismatch names (R326): an MRDIMM of another kind or of another capacity than the first accepted one,
and where there is none, every populated slot. -/
def badSlots (spd : List (Option Dimm)) : List Nat :=
  let all := (spd.take 16).zipIdx.filterMap (fun p => match p.1 with | some d => some (p.2, d) | none => none)
  let cap := ((dimmsOf spd).head?.map (fun p => p.2.capGb)).getD 0
  let odd := all.filter (fun p => !(dimmGood p.2) || p.2.capGb != cap)
  (if odd.isEmpty then all else odd).map (·.1)

/-- DRAM is brought up (R324 to R327), and the firmware area reserved with a copy of the image (R520). -/
def bringDram (s : State) (spd : List (Option Dimm)) : State :=
  let ds := dimmsOf spd
  let pat := patternOf ds
  let cap := (ds.head?.map (fun p => p.2.capGb)).getD 0
  let size := if pat = 0 then 0 else if cap = 64 then 1 else if cap = 128 then 2 else 3
  let fast := pat != 0 && ds.all (fun p => p.2.rateMts == 12800) && !s.mr.force8800
  let total := if pat = 0 then 0 else cap * ds.length
  let w := bits s.mr.memCfg.toNat 5 1 * 32 + pat + 4 * size + 16 * b2n fast + 65536 * total
  let s1 := { s with mr := { s.mr with memCfg := BitVec.ofNat 32 w }, fw := { s.fw with area := pat != 0, oldImage := s.fw.image } }
  if pat = 0 then (badSlots spd).foldl (fun x i => raiseEvent x .population 5 i (memDetail 0 7 false)) s1 else s1

/-- The cores that the failure log names (R581). -/
def loggedOff (s : State) : List Nat :=
  s.err.failLog.flatMap (fun e =>
    let u := le e 12 2
    if byteAt e 10 == 1 then [u] else if byteAt e 10 == 2 then clusterCores u else [])

/-- Self-test failures of a cluster are marked and logged (R48, R581). -/
def markBist (s : State) (c : Nat) : State :=
  let f := (smGet 0 s.rst.bist c).toNat
  let new := (bitList 64 f).filter (fun k => coreAvail s (64 * c + k))
  let s1 := new.foldl (fun x k => clearAvail x (64 * c + k)) s
  if new.isEmpty then s1
  else if f = 2 ^ 64 - 1 then logFailure s1 2 .coreUnavail c 0
  else new.foldl (fun x k => logFailure x 1 .coreUnavail (64 * c + k) 0) s1

/-- ENTER_CONFIG_WAIT (R582 steps 2 to 4, R581): once self-test is done, the image brings up DRAM, marks cores and enters
CONFIG_WAIT. -/
def execEnterConfigWait (spd : List (Option Dimm)) (s : State) : Res :=
  if s.fw.state = 2 ∧ s.rst.selftestDone = true then
    let s1 := bringDram s spd
    let s2 := (loggedOff s1).foldl clearAvail s1
    let s3 := (List.range 64).foldl markBist s2
    .next { s3 with fw := { s3.fw with state := 3 } }
  else .next s

/-! ## Live update: switch, confirm, revert (R536 to R541) -/

/-- The handoff record (R536). -/
def handoffRecord (s : State) : Bytes :=
  let body := fun (id : Nat) => if id = 3 then s.fw.configBlock else Config.handoffSection id s.freeCount
  let ids := (List.range 8).map (· + 1)
  let offs := ids.map (fun id => 160 + (((ids.take (id - 1)).map (fun i => (body i).length)).sum))
  let bodies := (ids.map body).flatten
  let total := 160 + bodies.length + 64
  let head := leBytes 4 0x5A484F31 ++ [1, 0] ++ leBytes 2 8 ++ leBytes 4 total ++ leBytes 4 s.fw.version.toNat ++ zeroBytes 16
  let tab := (ids.zip offs).flatMap (fun p => leBytes 2 p.1 ++ leBytes 2 1 ++ leBytes 4 p.2 ++ leBytes 4 (body p.1).length ++ zeroBytes 4)
  let b := head ++ tab ++ bodies
  b ++ shake256 b

/-- Whether a reader accepts a record (R537). -/
def acceptRecord (b : Bytes) : Bool :=
  let n := b.length - 64
  decide (96 ≤ b.length) && le b 0 4 == 0x5A484F31 && byteAt b 4 == 1 && b.drop n == shake256 (b.take n) &&
  (List.range (le b 6 2)).all (fun i =>
    let id := le b (32 + 16 * i) 2
    decide (1 ≤ id ∧ id ≤ 8) || !(flag b (32 + 16 * i + 2) 0))

/-- A handoff record is written; it takes a fresh number. -/
def writeHandoff (s : State) : State :=
  { s with freeCount := s.freeCount + 1, fw := { s.fw with handoff := some (handoffRecord s) } }

/-- The bytes of a record's section (R536). -/
def handoffPart (b : Bytes) (id : Nat) : Option Bytes :=
  ((List.range (le b 6 2)).find? (fun i => le b (32 + 16 * i) 2 == id)).map (fun i =>
    (b.drop (le b (32 + 16 * i + 4) 4)).take (le b (32 + 16 * i + 8) 4))

/-- An image restores what an accepted record holds (R539): its configuration is that of section 3. The manual gives the other
sections no layout; what they carry stands in the state all along (log 102). -/
def restoreHandoff (s : State) (b : Bytes) : State :=
  match handoffPart b 3 with
  | some c => if c.length = 64 then useConfig s c else s
  | none => s

/-- The handoff record that the image now running wrote itself, if it is intact (R537, R593). -/
def ownRecord (s : State) : Option Bytes := s.fw.handoff.filter (fun b => acceptRecord b && le b 12 4 == s.fw.version.toNat)

/-- What firmware keeps is lost without an intact handoff record: the event rings, held completion records, and the
configuration, which takes its defaults. -/
def loseHandoff (s : State) : State :=
  let drop := fun (p : HPort) (x : State) => setPort x p { getPort x p with ring := none, ringDropped := true }
  let lost := (s.cmd.queues.map (fun q => if q.2.orphaned then q.2.held.length else 0)).sum
  let s1 := drop .b (drop .a s)
  { s1 with
    cmd := { s1.cmd with discarded := satAdd s1.cmd.discarded lost,
                         queues := s1.cmd.queues.map (fun q => (q.1, if q.2.orphaned then { q.2 with held := [] } else q.2)) }
    fw := { s1.fw with powerLimit := 3400, parkedBypass := false, thermalProfile := 0, eventMask := 0, preemptMin := 0 } }

/-- The running image resumes with its own last handoff record, or with none (R540, R562, R593). -/
def resumeOwn (s : State) : State := match ownRecord s with | some b => restoreHandoff s b | none => loseHandoff s

/-- Firmware serves the mailbox again: events that waited are delivered, and requests that waited are taken (R541). -/
def resumeFw (s : State) : State :=
  let ev := s.fw.evQueue
  let ws := s.fw.waiting
  let s1 := { s with fw := { s.fw with state := 4, mbxReady := true, evQueue := [], waiting := [] } }
  let s2 := ev.foldl (fun x e => e.2.foldl (fun y p => toRing y e.1 p) x) s1
  let s3 := ws.foldl (fun x (w : MbxReq) => if mbInService x w.channel then respond x w .mbxBusy else mbServe x w.channel w.message) s2
  mbPump (mbPump s3 .a) .b

/-- The FWU_ACTIVATE that waits is answered. -/
def answerActivate (s : State) (st : Status) : State :=
  match s.fw.activate with
  | none => s
  | some r => respond { s with fw := { s.fw with activate := none } } r st

/-- The requests already in service are finished (R535 step 2): none waits for a transition or for its host to clear done. The
FWU_ACTIVATE itself is answered after the update. -/
def serviceDone (s : State) : Bool :=
  (match s.pwr.entry with | some e => e.reply.isNone | none => true) && s.pwr.openWait.isEmpty &&
  s.hif.a.mbxHeld.isNone && s.hif.b.mbxHeld.isNone

/-- FWU_SWITCH (R535, R538): prepare has ended, its requests finished and its handoff record written; the Night Assistant resets
the cores into the new image, extends MR3 and starts the confirm clock. The loops hold. -/
def execFwuSwitch (s : State) : Res :=
  match s.fw.staged with
  | none => .next s
  | some b =>
    if s.fw.state = 5 ∧ s.fw.phase = 3 ∧ serviceDone s = true then
      let s1 := writeHandoff s
      let s2 := extendMr (runImage s1 b) 3 2 (imDigest b)
      .next { s2 with fw := { s2.fw with phase := 4, switchAt := s.nowNs, loopsTaken := false } }
    else .next s

/-- LOOP_HOLD_TIMEOUT (R538). -/
def execLoopHoldTimeout (s : State) : Res :=
  if s.fw.loopsTaken = false ∧ s.pwr.ceil.loopHold = false ∧ s.fw.switchAt + 20 * msNs ≤ s.nowNs then
    .next (withCeil { s with fw := { s.fw with loopHolds := satAdd s.fw.loopHolds 1 } } (fun c => { c with loopHold := true }))
  else .next s

/-- The confirm deadline. -/
def confirmNs : Nat := 500 * msNs

/-- FWU_CONFIRM (R539): the new image has accepted the record, restores it, takes the loops if it has not yet, and confirms in time. -/
def execFwuConfirm (s : State) : Res :=
  if s.fw.state = 5 ∧ s.fw.phase ≥ 4 ∧ s.nowNs < s.fw.switchAt + confirmNs ∧ ((s.fw.handoff.map acceptRecord).getD false) = true then
    let s1 := takeLoops (restoreHandoff s (s.fw.handoff.getD []))
    let s2 := { s1 with
      sec := { s1.sec with liveUpdated := true }
      fw := { s1.fw with phase := 5, verified := false, updates := satAdd s1.fw.updates 1, state := 4,
                         lastOutcome := Config.updateOutcome true } }
    .next (resumeFw (answerActivate s2 .ok))
  else .next s

/-- The Control Cluster is left stopped (R593): FW_FATAL, ROM_IDLE and ALERT_N, until a module reset. -/
def stopControl (s : State) : State :=
  let s1 := raiseEvent s .fwFatal 0 0
  settleAlert { s1 with
    fw := { s1.fw with state := 0, mbxReady := false, ccFailAt := some s.nowNs }
    err := { s1.err with fwFatal := true } }

/-- FWU_REVERT (R540): the confirm clock has run out, or the new image refuses the record. The old image is checked under R497
and resumes with its own record. DESIGN CHOICE (log 102): where it fails a check, the Control Cluster is left stopped. -/
def execFwuRevert (refused : Bool) (s : State) : Res :=
  if s.fw.state = 5 ∧ s.fw.phase ≥ 4 ∧ (refused = true ∨ s.fw.switchAt + confirmNs ≤ s.nowNs) then
    let b := s.fw.oldImage
    if imageCheck s b ≠ 0 then .next (stopControl (logFailure s 9 .fwFatal 0 0))
    else
      let s1 := resumeOwn (extendMr (runImage s b) 3 2 (imDigest b))
      let s2 := takeLoops { s1 with fw := { s1.fw with phase := 0, verified := false } }
      let s3 := { s2 with fw := { s2.fw with reverts := satAdd s2.fw.reverts 1, lastOutcome := Config.updateOutcome false, state := 4 } }
      .next (resumeFw (answerActivate s3 .fwuReverted))
  else .next s

/-- REVERT_REGION_COPY_DONE (R539): the revert region holds the running image. -/
def execRevertRegionCopyDone (s : State) : Res :=
  if s.fw.state = 4 ∧ s.fw.phase = 5 then
    .next { s with fw := { s.fw with oldImage := s.fw.image, staged := none, verified := false, phase := 0 } }
  else .next s

/-! ## The watchdog (R593) -/

/-- The copy from which the running image is restarted: the revert region's, or that of the staging area until the copy after a
confirmation has been made (R539, R593). -/
def runningCopy (s : State) : Bytes := if 4 ≤ s.fw.phase then s.fw.staged.getD s.fw.oldImage else s.fw.oldImage

/-- Whether the running image may restart: its copy passes the checks of R497 (R540 step 3). Before there is a firmware area
(R520) the image is restarted as it was loaded (log 102). -/
def copyGood (s : State) : Bool := !s.fw.area || imageCheck s (runningCopy s) == 0

/-- CC_WATCHDOG (R593): the running image restarts from its copy, with its own last handoff record if that is intact; a second
failure within 1 s, or a copy that fails R497 (log 102), stops the Control Cluster. A failure in prepare ends the update (R535).
Whether an error in memory struck the record is a free value. -/
def execCcWatchdog (cause : WatchdogCause) (s : State) : Res :=
  if s.fw.state < 2 ∨ s.err.fwFatal = true then .next s
  else
    let again := match s.fw.ccFailAt with | some t => decide (s.nowNs < t + 1000 * msNs) | none => false
    let s1 := logFailure s 9 .fwFatal 0 0
    if again || !(copyGood s) then .next (stopControl s1)
    else
      let struck := cause == .memory && Config.recordStruck s.freeCount
      let s2 := extendMr (if struck then loseHandoff s1 else resumeOwn s1) 3 2
        (imDigest (if s.fw.area then runningCopy s else s.fw.image))
      let s3 := { s2 with freeCount := s.freeCount + 1
                          fw := { s2.fw with ccFailAt := some s.nowNs }
                          err := { s2.err with fwRestarts := satAdd s2.err.fwRestarts 1 } }
      let s4 := if s3.fw.phase = 3 then answerActivate { s3 with fw := { s3.fw with phase := 2, state := 4 } } .fwState else s3
      let s5 := raiseEvent s4 .fwFatal 0 0
      .next (if s4.fw.state = 4 then resumeFw s5 else s5)

end Sys2Proof.Machine
end

