-- ==== Sys2Proof/Machine/Regs.lean ====
section
/-! DEFINITION. The setup registers of BAR0 and the registers of BAR2: what a read of each returns and what a write does
(00_scope.md R12 to R17; 20_register_reference.md R594 to R607; the field tables of every chapter). -/

namespace Sys2Proof.Machine

/-! ## Values -/

/-- A register word from its fields: (lowest bit, width, value). -/
def pack (fs : List (Nat × Nat × Nat)) : Nat := (fs.map (fun f => (f.2.2 % 2 ^ f.2.1) * 2 ^ f.1)).sum

/-- Two 32-bit halves, the low one first. -/
def halves (lo hi : BitVec 32) : Nat := pack [(0, 32, lo.toNat), (32, 32, hi.toNat)]

/-- The place of an offset in an array of registers: base, stride and count. -/
def arrayAt (off base stride count : Nat) : Option Nat :=
  if base ≤ off ∧ off < base + stride * count ∧ (off - base) % stride = 0 then some ((off - base) / stride) else none

/-- A width in bits and a value. -/
abbrev RegVal := Nat × Nat

/-- A register at one offset: (offset, width in bits, value). -/
abbrev RegRow := Nat × Nat × Nat

/-- Identification, cadence and node id (01_architecture.md). -/
def regsTop (s : State) : List RegRow :=
  let c := s.pwr.ceil
  [(0x000000, 32, 0x5A560121), (0x000008, 64, 0x0C00081010044040),
   (0x000010, 64, pack [(0, 4, c.point), (8, 12, cadMhz c.point), (20, 12, railMv c.point), (32, 4, c.permitted)]),
   (0x000018, 64, pack [(0, 48, s.cr.slips.toNat), (48, 16, s.cr.stepDowns.toNat)]),
   (0x000300, 32, pack [(0, 16, s.fab.nodeId.toNat), (31, 1, b2n s.fab.nodeLock)])]

/-- Compute units (chapters 04 to 07). -/
def regsCompute (s : State) : List RegRow :=
  let c := s.cr
  [(0x040000, 32, c.lpaCfg.toNat), (0x040008, 64, halves c.pqStalls c.memberFaults),
   (0x040100, 64, c.photBase.toNat), (0x040108, 64, c.photDrops.toNat),
   (0x040200, 64, c.ladderBase.toNat), (0x040208, 64, halves c.reruns c.raises),
   (0x040210, 64, pack [(0, 40, c.blinkSamples.toNat), (40, 24, c.blinkHolds.toNat)]),
   (0x040218, 64, halves c.coeNan c.coePoison),
   (0x040300, 64, halves c.laneFaults c.ruFaults), (0x040308, 64, halves c.maskedRows c.infRows),
   (0x040310, 64, halves c.singular c.ridged)]

/-- Training step and Meridian Update Unit (chapters 08 and 09). -/
def regsTrain (s : State) : List RegRow :=
  let t := s.trn
  let m := s.muu
  [(0x040400, 64, t.slotBase.toNat), (0x040408, 64, halves t.committed t.flips), (0x040410, 64, t.stepCfg.toNat),
   (0x040418, 64, t.mbBase.toNat), (0x040420, 64, t.bankBase.toNat), (0x040428, 64, halves t.excluded t.carried),
   (0x040430, 64, halves t.deferrals t.expiries),
   (0x040500, 32, m.passCfg.toNat), (0x040508, 64, m.listBase.toNat), (0x040510, 32, m.listCount.toNat),
   (0x040518, 64, halves m.step m.gnorm),
   (0x040520, 64, pack [(0, 2, m.pass.toNat), (2, 2, m.decision.toNat), (16, 16, m.status.toNat), (32, 32, m.done.toNat)]),
   (0x040528, 64, halves m.updated m.failed)]

/-- Memory and Context Cache Manager (chapter 10). -/
def regsMem (s : State) : List RegRow :=
  let m := s.mr
  [(0x040600, 32, m.memCfg.toNat), (0x040608, 32, m.scrubCfg.toNat),
   (0x040610, 64, halves m.sramCorrected m.sramUncorrected),
   (0x040700, 64, m.seqBase.toNat ||| 32 * b2n m.ready), (0x040708, 32, m.sramPool.toNat),
   (0x040710, 64, m.dramBase.toNat), (0x040718, 32, m.dramFrames.toNat), (0x040720, 64, m.hostBase.toNat),
   (0x040728, 32, m.hostFrames.toNat), (0x040730, 32, m.watermark.toNat), (0x040738, 32, m.ccmCfg.toNat),
   (0x040740, 64, halves m.demotions m.promotions), (0x040748, 64, halves m.allocFails m.hostFaults),
   (0x040750, 64, pack [(0, 20, poolFree s 1), (32, 32, poolFree s 2)]),
   (0x040758, 64, pack [(0, 32, poolFree s 3), (32, 24, m.promoteSkips.toNat)])]

/-- Whether a port is not lost (CMD_STATUS). -/
def portThere (s : State) (p : HPort) : Bool := (getPort s p).linkUp && !((getPort s p).lost)

/-- Command processor (chapter 11). -/
def regsCmd (s : State) : List RegRow :=
  let c := s.cmd
  [(0x050000, 32, c.cfg.toNat), (0x050008, 64, c.svcBase.toNat),
   (0x050010, 64, pack [(0, 5, c.streams.length), (8, 1, b2n (portThere s .a)), (9, 1, b2n (portThere s .b))]),
   (0x050018, 64, halves c.completed c.rejected), (0x050020, 64, halves c.blocks c.late),
   (0x050028, 64, halves c.discarded c.dropped)]

/-- Fabric and collectives (chapters 12 and 13). -/
def regsFab (s : State) : List RegRow :=
  let f := s.fab
  let c := s.coll
  [(0x060000, 32, pack [(0, 1, b2n f.en), (1, 1, b2n f.mode)]),
   (0x060008, 32, pack [(0, 8, f.designate.toNat), (8, 8, f.hold.toNat), (16, 8, f.joined.toNat), (31, 1, b2n f.bypLock)]),
   (0x060010, 64, f.timeout.toNat), (0x060020, 64, halves f.crcDrops f.staleRole),
   (0x060028, 64, halves f.windowDeny f.hostDrops), (0x060030, 64, halves f.noRoute f.routeErr),
   (0x060038, 64, halves f.timeouts f.lateReplies),
   (0x080000, 64, c.commBase.toNat),
   (0x080008, 64, pack [(0, 7, c.colls.length), (8, 12, c.busy.length), (32, 15, c.triggers.length)]),
   (0x080010, 64, halves c.completed c.aborted), (0x080018, 64, halves c.noSlot c.orderChanged),
   (0x080020, 64, halves c.checkFail c.mismatch), (0x080028, 64, halves c.stale c.lateDropped),
   (0x080030, 64, halves c.fired c.disarmed)]

/-- HIF_PORT_STATUS. -/
def portWord (x : HostPortState) : Nat :=
  pack [(0, 1, b2n x.linkUp), (1, 3, x.rate.toNat), (4, 4, x.width.toNat), (8, 1, b2n x.flit), (9, 1, b2n x.slowLink),
        (10, 1, b2n x.d3)]

/-- HIF_ERR_COUNT. -/
def portErrWord (x : HostPortState) : Nat :=
  pack [(0, 24, x.denied.toNat), (24, 16, x.lateCpl.toNat), (40, 16, x.mctpDrops.toNat)]

/-- Host interface, security and firmware (chapters 14 to 16). -/
def regsHost (s : State) : List RegRow :=
  let h := s.hif
  let c := s.sec
  let w := s.fw
  [(0x090000, 64, portWord h.a), (0x090008, 64, portWord h.b), (0x090010, 64, h.a.aper.toNat),
   (0x090018, 64, h.b.aper.toNat), (0x090020, 64, portErrWord h.a), (0x090028, 64, portErrWord h.b),
   (0x090030, 32, h.wtGen.toNat),
   (0x090038, 64, pack [(0, 48, h.denyAddr.toNat), (48, 3, h.denyInit.toNat), (51, 1, b2n h.denyWrite), (52, 12, h.denyCount.toNat)]),
   (0x0B0000, 64, pack [(0, 1, b2n c.owner.isSome), (1, 1, b2n c.rootKey.isSome), (2, 1, b2n c.opKey.isSome),
     (3, 2, c.svc.toNat), (5, 1, b2n c.opened), (6, 1, b2n c.logTrunc), (8, 3, c.bootErr.toNat),
     (16, 4, c.keyRevoked.toNat), (32, 16, c.svn.toNat), (48, 16, c.minSvn.toNat)]),
   (0x0B0008, 64, halves c.keyFails c.stale),
   (0x0C0000, 64, pack [(0, 3, w.state.toNat), (3, 1, w.loader.toNat), (4, 3, w.phase.toNat), (8, 24, w.version.toNat),
     (32, 12, w.evDrops.toNat), (44, 4, w.loopHolds.toNat), (48, 8, w.updates.toNat), (56, 8, w.reverts.toNat)])]

/-- The lowest hardware or power-brake ceiling; 0xF for none (PWR_STATE). -/
def ceilHw (s : State) : Nat :=
  match hwCeil s.pwr.ceil, brakeCeil s with
  | none, none => 15
  | some a, none => a
  | none, some b => b
  | some a, some b => min a b

/-- The cluster with the highest reading, the lowest-numbered of equals. -/
def hotCluster (xs : List Nat) : Nat :=
  let ys := xs.map (fun x => if x = 0xFF then 0 else x)
  (ys.zipIdx.find? (fun p => p.1 == ys.foldl max 0)).elim 0 (·.2)

/-- The highest reading of sensors that are on. -/
def topOf (xs : List Nat) : Nat := (xs.filter (· != 0xFF)).foldl max 0

/-- A sideband input. -/
def sideIn (s : State) (i : Nat) : SideIn := smGet SideIn.reset s.pwr.side i

/-- One bit of each sideband input. -/
def sideBits (s : State) (f : SideIn → Bool) : Nat := ((List.range 7).map (fun i => b2n (f (sideIn s i)) * 2 ^ i)).sum

/-- Wear of die `d`. -/
def wearOf (s : State) (d : Nat) : DieWear := s.pwr.wear.getD d DieWear.reset

/-- Power, thermal, ageing and sideband (chapter 17). -/
def regsPwr (s : State) : List RegRow :=
  let p := s.pwr
  let c := p.ceil
  let x := p.sensors
  let prof := s.fw.thermalProfile.toNat
  [(0x0D0000, 64, pack [(0, 3, p.state.toNat), (3, 3, p.entry.elim 7 (fun e => e.target.toNat)), (6, 2, p.lastAbort.toNat),
     (8, 4, c.point), (12, 4, c.power), (16, 4, c.thermal), (20, 4, trimCeil s), (24, 4, ceilHw s), (28, 4, c.tableMax),
     (32, 1, b2n c.fast.isSome), (33, 1, b2n c.overcurrent), (34, 1, b2n c.hot), (35, 1, b2n c.inputLow),
     (36, 1, b2n (sideIn s 4).asserted), (37, 1, b2n (sideIn s 3).asserted), (38, 1, b2n c.loopHold)]),
   (0x0D0008, 32, p.cfg.toNat),
   (0x0D0010, 64, pack [(0, 16, s.fw.powerLimit.toNat), (16, 16, x.pIn), (32, 16, c.peakW), (48, 16, x.inMv10)]),
   (0x0D0018, 64, pack [(0, 8, tmaxOf x), (8, 6, hotCluster x.clusters), (14, 2, prof), (16, 8, (thermalTarget prof).1),
     (24, 8, topOf x.io), (32, 8, topOf x.optics), (40, 8, topOf x.dimms)]),
   (0x0D0020, 64, pack [(0, 8, (wearOf s 0).offset.toNat), (8, 8, (wearOf s 1).offset.toNat), (16, 8, (wearOf s 2).offset.toNat),
     (24, 8, (wearOf s 3).offset.toNat), (32, 4, c.tableMax)]),
   (0x0D0048, 64, pack [(0, 16, p.fastCount.toNat), (16, 16, p.overCount.toNat), (32, 16, p.hotCount.toNat),
     (48, 16, p.lowCount.toNat)]),
   (0x0D0050, 64, pack [(0, 16, p.closedCount.toNat), (16, 16, p.parkedCount.toNat), (32, 16, p.abortCount.toNat),
     (48, 16, p.refusals.toNat)]),
   (0x0D0058, 32, pack [(0, 7, sideBits s (·.asserted)), (8, 7, sideBits s (·.held)), (16, 7, sideBits s (·.masked)),
     (24, 4, p.slotId.toNat)])]

/-- Cores and clusters that failed self-test (RST_CAUSE). -/
def coresFailed (s : State) : Nat := (s.rst.bist.map (fun b => popcount 64 b.2.toNat)).sum
/-- Clusters whose every bit is set. -/
def clustersFailed (s : State) : Nat := (s.rst.bist.filter (fun b => b.2 == BitVec.allOnes 64)).length

/-- Reset and errors (chapters 18 and 19). -/
def regsRst (s : State) : List RegRow :=
  let r := s.rst
  let e := s.err
  [(0x0E0000, 64, pack [(0, 3, r.cause.toNat), (3, 1, b2n r.dramKept), (4, 1, b2n r.selftestDone), (5, 1, b2n r.railFail),
     (8, 13, coresFailed s), (21, 7, clustersFailed s), (32, 16, r.startMs.toNat)]),
   (0x0E0008, 64, halves r.perstA r.hotA), (0x0E0010, 64, halves r.perstB r.hotB),
   (0x0F0000, 64, pack [(0, 16, e.lastStatus.toNat), (16, 32, e.lastSeq.toNat), (48, 1, b2n e.fwFatal), (49, 4, e.fwRestarts.toNat)]),
   (0x0F0008, 64, halves e.generated e.coalesced),
   (0x0F0010, 64, pack [(0, 14, e.failLog.length), (16, 16, e.lost.toNat)])]

/-- The word of FAB_ROUTE_TAB[w]. -/
def routeWord (s : State) (w : Nat) : Nat :=
  pack ((List.range 4).map (fun j => (8 * j, 5, (smGet 0 s.fab.route (4 * w + j)).toNat)))

/-- The word of CMD_Q_CTL. -/
def ctlWord (q : Queue) : Nat :=
  pack [(0, 1, b2n q.en), (1, 1, b2n q.kind), (2, 2, q.owner.toNat), (4, 1, b2n (queueBusy q)), (5, 1, b2n q.orphaned),
        (6, 1, b2n q.err), (8, 8, q.msix.toNat), (16, 8, q.svc.toNat), (32, 32, q.head.toNat)]

/-- A register of a queue: SQ, CQ, DB and CTL. -/
def queueReg (q : Queue) (k : Nat) : Nat :=
  match k with | 0 => q.sq.toNat | 1 => q.cq.toNat | 2 => q.db.toNat | _ => ctlWord q

/-- A register of a fabric port: FAB_PORT_CFG, FAB_PORT_STATUS and FAB_PORT_FEC. -/
def fabPortReg (x : FabPortState) (k : Nat) : Nat :=
  match k with
  | 0 => x.cfg.toNat
  | 1 => pack [(0, 3, x.st.toNat), (16, 16, x.peerNode.toNat), (32, 4, x.peerPort.toNat), (40, 8, x.retrains.toNat)]
  | _ => halves x.corrected x.uncorrectable

/-- The arrays of registers: what lies at an offset. -/
def regArrays (s : State) (off : Nat) : Option RegVal :=
  let w64 := fun (x : Option Nat) (f : Nat → Nat) => x.map (fun i => ((64 : Nat), f i))
  [w64 (arrayAt off 0x000100 8 64) (fun c => (smGet (BitVec.allOnes 64) s.cr.coreAvail c).toNat),
   w64 (arrayAt off 0x040680 8 16) (fun c => let e := smGet (0, 0) s.mr.ecc c; halves e.1 e.2),
   w64 (arrayAt off 0x058000 8 1024) (fun i => queueReg (getQueue s (i / 4)) (i % 4)),
   w64 (arrayAt off 0x060100 8 16) (fun p => fabPortReg (getFab s p) 0),
   w64 (arrayAt off 0x060200 8 16) (fun p => fabPortReg (getFab s p) 1),
   w64 (arrayAt off 0x060300 8 16) (fun p => fabPortReg (getFab s p) 2),
   (arrayAt off 0x070000 4 16384).map (fun w => ((32 : Nat), routeWord s w)),
   w64 (arrayAt off 0x0A0000 8 4096) (fun i => le (smGet (zeroBytes 32) s.hif.wt (i / 4)) (8 * (i % 4)) 8),
   w64 (arrayAt off 0x0B1000 8 256) (fun q => (smGet 0 s.sec.qctr q).toNat),
   w64 (arrayAt off 0x0C0100 8 6) (fun c => (smGet 0 s.fw.mbxCtr c).toNat),
   w64 (arrayAt off 0x0D0028 8 4) (fun d => let w := wearOf s d; pack [(0, 16, w.deg.toNat), (16, 16, w.degPlan.toNat), (32, 32, w.hours.toNat)]),
   w64 (arrayAt off 0x0D0080 8 7) (fun i => halves (sideIn s i).events (sideIn s i).suppressed),
   w64 (arrayAt off 0x0E0100 8 64) (fun c => (smGet 0 s.rst.bist c).toNat)].findSome? id

/-- Every register that is not in an array. -/
def regRows (s : State) : List RegRow :=
  regsTop s ++ regsCompute s ++ regsTrain s ++ regsMem s ++ regsCmd s ++ regsFab s ++ regsHost s ++ regsPwr s ++ regsRst s

/-- The register at an offset of BAR0: its width and the value that it holds (R594, R595). -/
def setupReg (s : State) (off : Nat) : Option RegVal :=
  match (regRows s).find? (fun r => r.1 == off) with
  | some r => some r.2
  | none => regArrays s off

/-- A read of BAR0: zeros at an unimplemented offset, and for an access of another width or alignment (R12, R13). -/
def readReg (s : State) (off size : Nat) : Nat :=
  match setupReg s off with
  | some r => if r.1 = 8 * size then r.2 else 0
  | none => 0

/-! ## Writes -/

/-- A write of TOP_NODE_ID (R39, R600). Ports in PARAM send the new id; ports that are UP carry packets while it is
assigned. -/
def writeNodeId (value : Nat) (s : State) : State :=
  let id := bits value 0 16
  if s.fab.nodeLock || decide (0xFFF0 ≤ id ∧ id ≤ 0xFFFE) then s
  else
    let s1 := { s with fab := { s.fab with nodeId := BitVec.ofNat 16 id, nodeLock := bit value 31 } }
    settleFab ((List.range 16).foldl (fun x p =>
      if (getFab x p).st = 5 then settleParam (emit x (.param p id)) p else drainPort x p) s1)

/-- A write of CMD_Q_SQ, CMD_Q_CQ or CMD_Q_DB by a port (R355, R362). -/
def writeQueueReg (p : HPort) (n k value : Nat) (s : State) : State :=
  let q := getQueue s n
  if q.owner ≠ portOwner p ∨ queueBusy q then s
  else
    let ring := fun (w : BitVec 64) => wrField (wrField w value 0 5) value 12 52
    match k with
    | 0 => setQueue s n { q with sq := ring q.sq }
    | 1 => setQueue s n { q with cq := ring q.cq }
    | _ => setQueue s n { q with db := wrField (wrField q.db value 0 1) value 3 61 }

/-- A write of FAB_ROUTE_CTL: mode takes a write only while en is 0 (R599). -/
def writeRouteCtl (value : Nat) (s : State) : State :=
  let f := s.fab
  settleFab { s with fab := { f with mode := if f.en then f.mode else bit value 1, en := bit value 0 } }

/-- A write of COLL_COMM_BASE: size and base take a write only while en is 0 (R599). -/
def writeCommBase (value : Nat) (s : State) : State :=
  let b := s.coll.commBase
  let b1 := if b.getLsbD 0 then b else wrField (wrField b value 1 4) value 12 36
  { s with coll := { s.coll with commBase := wrField b1 value 0 1 } }

/-- A write of a register of chapters 04 to 07. -/
def writeCompute (s : State) (off value : Nat) : State :=
  let c := s.cr
  match off with
  | 0x040000 => { s with cr := { c with lpaCfg := wrField c.lpaCfg value 0 5 } }
  | 0x040100 => { s with cr := { c with photBase := wrField (wrField c.photBase value 0 1) value 22 26 } }
  | 0x040200 => { s with cr := { c with ladderBase := wrField (wrField c.ladderBase value 0 1) value 22 26 } }
  | _ => s

/-- A write of a register of chapters 08 and 09; those of the record list take none while pass one runs. -/
def writeTrain (s : State) (off value : Nat) : State :=
  let t := s.trn
  let m := s.muu
  let listFree := match s.muuRun with | some r => r.pass != 1 | none => true
  match off with
  | 0x040400 => writeSlotBase s value
  | 0x040410 => { s with trn := { t with stepCfg := wrField t.stepCfg value 0 25 } }
  | 0x040418 => { s with trn := { t with mbBase := wrField t.mbBase value 14 34 } }
  | 0x040420 => { s with trn := { t with bankBase := wrField (wrField t.bankBase value 0 1) value 17 31 } }
  | 0x040500 => { s with muu := { m with passCfg := wrField (wrField m.passCfg value 0 1) value 8 4 } }
  | 0x040508 => if listFree then { s with muu := { m with listBase := wrField m.listBase value 7 41 } } else s
  | 0x040510 => if listFree then { s with muu := { m with listCount := wrField m.listCount value 0 21 } } else s
  | _ => s

/-- A write of a register of chapter 10; the pool registers and host_en take none while en is 1 (R353). -/
def writeMem (s : State) (off value : Nat) : State :=
  let m := s.mr
  let free := !(ccmEn s)
  match off with
  | 0x040600 => { s with mr := { m with memCfg := wrField m.memCfg value 5 1 } }
  | 0x040608 => { s with mr := { m with scrubCfg := wrField (wrField m.scrubCfg value 0 1) value 8 16 } }
  | 0x040700 => writeSeqBase s value
  | 0x040708 => if free then { s with mr := { m with sramPool := wrField m.sramPool value 0 24 } } else s
  | 0x040710 => if free then { s with mr := { m with dramBase := wrField m.dramBase value 12 36 } } else s
  | 0x040718 => if free then { s with mr := { m with dramFrames := wrField m.dramFrames value 0 32 } } else s
  | 0x040720 => if free then { s with mr := { m with hostBase := wrField m.hostBase value 12 36 } } else s
  | 0x040728 => if free then { s with mr := { m with hostFrames := wrField m.hostFrames value 0 32 } } else s
  | 0x040730 => { s with mr := { m with watermark := wrField m.watermark value 0 32 } }
  | 0x040738 => { s with mr := { m with ccmCfg := wrField m.ccmCfg value 0 (if free then 5 else 4) } }
  | _ => s

/-- A write of a register of the other blocks that stands alone. -/
def writeOther (s : State) (off value : Nat) : State :=
  match off with
  | 0x000300 => writeNodeId value s
  | 0x050000 => { s with cmd := { s.cmd with cfg := wrField s.cmd.cfg value 0 24 } }
  | 0x050008 => { s with cmd := { s.cmd with svcBase := wrField (wrField s.cmd.svcBase value 0 1) value 14 34 } }
  | 0x060000 => writeRouteCtl value s
  | 0x060008 => writeBypass value s
  | 0x060010 => { s with fab := { s.fab with timeout := wrField s.fab.timeout value 0 64 } }
  | 0x080000 => writeCommBase value s
  | 0x090010 => writeAper .a value s
  | 0x090018 => writeAper .b value s
  | 0x0D0008 => retarget { s with pwr := { s.pwr with cfg := wrField (wrField s.pwr.cfg value 0 9) value 16 16 } }
  | _ => s

/-- A write of a register in an array. -/
def writeArray (p : HPort) (s : State) (off value : Nat) : State :=
  match arrayAt off 0x058000 8 1024 with
  | some i => if i % 4 = 3 then writeQueueCtl p (i / 4) value s else writeQueueReg p (i / 4) (i % 4) value s
  | none =>
    match arrayAt off 0x060100 8 16 with
    | some k => writePortCfg k value s
    | none =>
      match arrayAt off 0x070000 4 16384 with
      | some w => writeRoute w value s
      | none => s

/-- A write of BAR0 by a port as it is served: an unimplemented offset, another width or alignment, and a register
without a writable field leave the state as it was (R12 to R14, R598). -/
def writeReg (p : HPort) (off size value : Nat) (s : State) : State :=
  match setupReg s off with
  | none => s
  | some r =>
    if r.1 ≠ 8 * size then s
    else
      let v := value % 2 ^ r.1
      if 0x040000 ≤ off ∧ off < 0x040400 then writeCompute s off v
      else if 0x040400 ≤ off ∧ off < 0x040600 then writeTrain s off v
      else if 0x040600 ≤ off ∧ off < 0x040800 then writeMem s off v
      else if (0x058000 ≤ off ∧ off < 0x060000) ∨ (0x060100 ≤ off ∧ off < 0x080000) then writeArray p s off v
      else writeOther s off v

/-! ## BAR2 (R480, R524, R606, R607) -/

/-- MBX_CTL. -/
def mbxCtl (s : State) (p : HPort) : Nat :=
  let x := getPort s p
  pack [(0, 1, b2n x.mbxGo), (1, 1, b2n x.mbxDone), (2, 1, b2n x.mbxIrqEn), (3, 1, b2n s.fw.mbxReady), (8, 8, x.mbxMsix.toNat)]

/-- Whether an access is aligned and of 32 or 64 bits. -/
def bufAccess (off size : Nat) : Bool := (size == 4 || size == 8) && off % size == 0

/-- The place of an offset within a buffer of BAR2. -/
def inBuf (off base len : Nat) : Option Nat := if base ≤ off ∧ off < base + len then some (off - base) else none

/-- The pending bits as bytes. -/
def pbaBytes (x : HostPortState) : Bytes :=
  (List.range 32).map (fun i => BitVec.ofNat 8 (((List.range 8).map (fun j => b2n (smGet false x.pba (8 * i + j)) * 2 ^ j)).sum))

/-- A read of BAR2 (R606). -/
def readBar2 (s : State) (p : HPort) (off size : Nat) : Nat :=
  let x := getPort s p
  if off = 0x001000 then (if size = 4 then mbxCtl s p else 0)
  else if bufAccess off size then
    match inBuf off 0x010000 4096, inBuf off 0x020000 4096, inBuf off 0x100000 4096, inBuf off 0x101000 32 with
    | some k, _, _, _ => le (fit x.mbxIn 4096) k size
    | _, some k, _, _ => le (fit x.mbxOut 4096) k size
    | _, _, some k, _ => le (smGet msixDefault x.msix (k / 16)) (k % 16) size
    | _, _, _, some k => le (pbaBytes x) k size
    | _, _, _, _ => 0
  else 0

/-- A write of MBX_CTL: irq_en and msix are stored, done is cleared by a 1, and go is set by a 1 (R14, R524). -/
def writeMbxCtl (p : HPort) (value : Nat) (s : State) : State :=
  let x := getPort s p
  let s1 := setPort s p { x with mbxIrqEn := bit value 2, mbxMsix := BitVec.ofNat 8 (bits value 8 8) }
  let s2 := if bit value 1 && x.mbxDone then clearDone p s1 else s1
  if bit value 0 && !x.mbxGo then mbPump (setPort s2 p { getPort s2 p with mbxGo := true }) p else s2

/-- A write of an MSI-X entry: reserved bits stay zero, and a vector that is unmasked with its pending bit set sends its
message (R486). -/
def writeMsix (p : HPort) (k size value : Nat) (s : State) : State :=
  let x := getPort s p
  let v := k / 16
  let e := putBytes (smGet msixDefault x.msix v) (k % 16) (leBytes size value)
  let e1 := putBytes e 12 [byteAt e 12 &&& 1, 0, 0, 0]
  let s1 := setPort s p { x with msix := smSet msixDefault x.msix v e1 }
  if flag e1 12 0 then s1 else unmaskVector p v s1

/-- A write of BAR2 (R480, R606). CMD_WAKE is a wake source in Closed (R559). -/
def writeBar2 (p : HPort) (off size value : Nat) (s : State) : State :=
  if off = 0 then
    if size = 4 then
      match hostPath s p with
      | .served => wakeWrite p (BitVec.ofNat 32 value) s
      | .held => holdAccess s (.wake p (BitVec.ofNat 32 value))
      | .none => s
    else s
  else if off = 0x001000 then (if size = 4 then writeMbxCtl p value s else s)
  else if bufAccess off size then
    match inBuf off 0x010000 4096, inBuf off 0x100000 4096 with
    | some k, _ =>
      let x := getPort s p
      if x.mbxGo then s else setPort s p { x with mbxIn := putBytes (fit x.mbxIn 4096) k (leBytes size value) }
    | _, some k => writeMsix p k size value s
    | _, _ => s
  else s

/-! ## Commands -/

/-- REGISTER_WRITE (R14, R595, R603): a write of BAR0 or BAR2 by a host. -/
def execRegisterWrite (hport : HPort) (bar : HostBar) (offset : BitVec 26) (size : Nat) (value : BitVec 64) (s : State) :
    Res :=
  .next (match bar with
    | .bar0 => hostSetup s hport offset.toNat size value.toNat (writeReg hport offset.toNat size value.toNat)
    | .bar2 => if bar2Open s hport then writeBar2 hport offset.toNat size value.toNat s else s)

/-- The completion of a host's register read. -/
def answerRead (p : HPort) (bar : HostBar) (off size : Nat) (s : State) : State :=
  let v := match bar with | .bar0 => readReg s off size | .bar2 => readBar2 s p off size
  emit s (.readDone p (leBytes size v) false)

/-- BAR0_READ (R595, R596, R603): a read of BAR0, or of BAR2, changes no state of the module. -/
def execBar0Read (hport : HPort) (bar : HostBar) (offset : BitVec 26) (size : Nat) (s : State) : Res :=
  .next (match bar with
    | .bar0 =>
      (match hostPath s hport with
       | .served => answerRead hport .bar0 offset.toNat size s
       | .held => holdAccess s (.read hport offset.toNat size)
       | .none => s)
    | .bar2 => if bar2Open s hport then answerRead hport .bar2 offset.toNat size s else s)

/-- TOP_NODE_ID (R39, R600). -/
def execTopNodeId (hport : HPort) (value : BitVec 32) (s : State) : Res :=
  .next (hostSetup s hport 0x000300 4 value.toNat (writeNodeId value.toNat))

end Sys2Proof.Machine
end

