-- ==== Sys2Proof/Machine/States.lean ====
section
/-! DEFINITION. Power states: entry to Closed and Parked, their exits, and the sideband inputs
(17_power_thermal_ageing.md R555 to R566). -/

namespace Sys2Proof.Machine

/-! ## Quiesce (R558) -/

/-- A COPY runs. -/
def copyRuns (s : State) : Bool := s.cmd.queues.any (fun q => q.2.fetched.any (fun f => f.started && dsOp f.desc == 3))

/-- The router holds no packet: none waits at a port, in an input buffer, or for a host window. -/
def routerEmpty (s : State) : Bool :=
  s.fab.loop.isEmpty && s.fab.posts.isEmpty && s.fab.held.isEmpty && s.fab.fetches.isEmpty && s.fab.ports.all (fun p => p.2.queue.isEmpty)

/-- No phase, service block, COPY, MUU op, collective, CCM move or DMA runs, no trigger entry is armed, and the router
holds no packet (R558 step 1). -/
def quiet (s : State) : Bool :=
  s.cmd.streams.all (fun x => x.2.running.isEmpty) && s.cmd.runBlocks.isEmpty && !(copyRuns s) && s.muuRun.isNone &&
  s.coll.colls.isEmpty && s.coll.firedOps.isEmpty && s.coll.triggers.isEmpty && s.ccm.moves.isEmpty && s.fab.ops.isEmpty &&
  s.cores.all (fun c => c.2.dma.isNone) && routerEmpty s

/-! ## What the states take away (R555, R560, R562) -/

/-- Whether an address lies on the compute or base dies, or in reduction memory. -/
def onDies (a : Nat) : Bool := match region a with | .core _ => true | .cluster _ => true | .red => true | _ => false

/-- The stores, contexts, queues and counters that Closed and Parked lose (R560). -/
def loseDies (s : State) : State :=
  { s with
    mem := { cells := s.mem.cells.filter (fun c => !(onDies c.1)),
             poison := s.mem.poison.filter (fun p => !(onDies (64 * p.1))) }
    cores := [], blink := []
    cmd := { s.cmd with counters := [] }
    mr := { s.mr with sramBad := [] } }

/-- Every fabric port goes to DISABLED. -/
def disableFabric (s : State) : State := settleFab ((List.range 16).foldl disablePort s)

/-- The port domain of a port at its reset values: configuration space, BAR2 and MSI-X (R574). -/
def freshPort (x : HostPortState) : HostPortState :=
  { x with d3 := false, aspmL1 := false, cplTimeout := 0, maxPayload := HostPortState.reset.maxPayload,
           maxRead := HostPortState.reset.maxRead, bars := HostPortState.reset.bars, slowTries := 0,
           msix := [], pba := [], mbxGo := false, mbxDone := false,
           mbxIrqEn := false, mbxMsix := 0, mbxIn := [], mbxOut := [], mbxHeld := none, mbxConfig := none }

/-- A port enters L2: it is lost, and its domain is powered off (R555, R562). -/
def portToL2 (s : State) (p : HPort) : State :=
  let s1 := losePort s p
  setPort s1 p (freshPort (getPort s1 p))

/-- Rail-off (R558 step 4, R555): the module is in Closed or Parked. -/
def railOff (s : State) (target : BitVec 3) : State :=
  let parked := target == 4
  let s1 := loseDies (disableFabric s)
  let p := s1.pwr
  let s2 := { s1 with pwr := { p with
    state := target, entry := none, gated := [], sensors := darkSensors parked p.sensors,
    ceil := { p.ceil with permitted := 2, change := none, waiting := none },
    closedCount := if parked then p.closedCount else satAdd p.closedCount 1,
    parkedCount := if parked then satAdd p.parkedCount 1 else p.parkedCount } }
  if parked then
    let s3 := if s.fw.parkedBypass then
        (List.range 8).foldl (fun x i => if x.fab.designate.getLsbD i && !(x.fab.joined.getLsbD i) then joinPair x i else x) s2
      else s2
    let s4 := portToL2 (portToL2 s3 .a) .b
    { s4 with fw := { s4.fw with mbxReady := false } }
  else s2

/-! ## Entries (R558, R563) -/

/-- The requests for Open that have waited are answered (R569): with the state reached and the abort point of the entry that
they ended. -/
def answerOpen (s : State) (reached point : Nat) : State :=
  s.pwr.openWait.foldl (fun x (w : MbxReq × Nat) => respond x w.1 .ok (powerAnswer x reached point w.2))
    { s with pwr := { s.pwr with openWait := [] } }

/-- An entry is abandoned at an abort point: the module is in the state it came from. One that came from Closed goes on to Open
where a wake ended it, and what asked for Open waits for that. -/
def abandonEntry (s : State) (e : PowerEntry) (point : Nat) : State :=
  let s1 := { s with pwr := { s.pwr with entry := none, lastAbort := BitVec.ofNat 2 point,
                                         abortCount := satAdd s.pwr.abortCount 1,
                                         wake := s.pwr.wake && e.origin == 3 } }
  retarget (if e.origin = 3 then s1 else answerOpen s1 e.origin.toNat point)

/-- The answer to a POWER_REQ that waited for its entry. -/
def answerEntry (s : State) (e : PowerEntry) (reached point : Nat) : State :=
  match e.reply with
  | some r => respond s r .ok (powerAnswer s reached point e.started)
  | none => s

/-- A stage of the entry in progress replaced. -/
def setStage (s : State) (e : PowerEntry) (k : Nat) : State :=
  { s with pwr := { s.pwr with entry := some { e with stage := k } } }

/-- One stage of an entry (R558): quiesce, save, abort point 3, rail-off. A wake before abort point 3 abandons it. -/
def advanceEntry (target : BitVec 3) (s : State) : State :=
  match s.pwr.entry with
  | none => s
  | some e =>
    if e.target ≠ target then s
    else if s.pwr.wake && decide (e.stage < 3) then
      holdStart (answerEntry (abandonEntry s e (e.stage + 1)) e e.origin.toNat (e.stage + 1))
    else
      match e.stage with
      | 0 => if quiet s && !(e.byHold && s.fw.state == 5) then setStage s e 1 else s
      | 1 => retarget (setStage (if target = 4 then writeHandoff s else s) e 2)
      | 2 =>
        let s1 := answerEntry s e target.toNat 0
        setStage s1 { e with reply := none } 3
      | _ => railOff s target

/-- CLOSED_ENTRY (R558): the next stage of an entry to Closed. -/
def execClosedEntry (s : State) : Res := .next (advanceEntry 3 s)

/-- PARKED_ENTRY (R558, R562): the next stage of an entry to Parked. -/
def execParkedEntry (s : State) : Res := .next (advanceEntry 4 s)

/-- QUIESCE_TIMEOUT (R558): quiesce is not reached within quiesce_ms. An entry of POWER_REQ is abandoned; one of HOLD_N ends the
running phases with TIMEOUT and proceeds, though it waits for a live update (R563). -/
def execQuiesceTimeout (s : State) : Res :=
  match s.pwr.entry with
  | none => .next s
  | some e =>
    if e.stage = 0 ∧ quiet s = false ∧ e.started + e.quiesceMs * msNs ≤ s.nowNs then
      if e.byHold then
        if s.fw.state = 5 then .next s
        else
          let busy := s.cmd.streams.filter (fun x => !(x.2.running.isEmpty))
          .next (setStage (busy.foldl (fun x y => forceStream x y.1 .timeout) s) e 1)
      else
        let s1 := abandonEntry s e 1
        .next (holdStart (match e.reply with | some r => respond s1 r .quiesceLate | none => s1))
    else .next s

/-! ## Exits (R561, R562) -/

/-- An access that waited for the exit is served, if its port is still there (R559, R603). -/
def serveHeld (s : State) (h : HeldAccess) : State :=
  match h with
  | .write p off size value => if portThere s p then writeReg p off size value s else s
  | .read p off size => if portThere s p then answerRead p .bar0 off size s else s
  | .write4 p off data poisoned => if portThere s p then bar4Write p off data poisoned s else s
  | .read4 p off len => if portThere s p then bar4Read p off len s else s
  | .wake p value => if portThere s p then wakeWrite p value s else s

/-- The exit from Closed is due: a wake has arrived, and no entry runs (R558, R559). -/
def exitDue (s : State) (st : BitVec 3) : Bool := s.pwr.state == st && s.pwr.wake && s.pwr.entry.isNone

/-- The module is in Open again: at point 2 or below, with the accesses and requests that waited served. -/
def openAgain (s : State) : State :=
  let p := s.pwr
  let s1 := retarget { s with pwr := { p with state := 0, wake := false, held := [],
                                              drive := StoreDrive.ofPoint 2, slipWin := []
                                              ceil := { p.ceil with point := 2, permitted := 2, change := none, waiting := none } } }
  let s2 := p.held.foldl serveHeld s1
  holdStart (answerOpen s2 0 0)

/-- CLOSED_EXIT (R561). -/
def execClosedExit (s : State) : Res :=
  if exitDue s 3 then .next ((List.range 16).foldl wakePort (openAgain s)) else .next s

/-- WAKE_OUTPUT_LIMIT (R566): a wake output is asserted for at most 1 s. -/
def execWakeOutputLimit (port : HPort) (s : State) : Res :=
  match wakeOut s port with
  | some t => if t + 1000 * msNs ≤ s.nowNs then .next (setWakeOut s port none) else .next s
  | none => .next s

/-! ## The filter of the sideband inputs (R565) -/

/-- A sideband input replaced. -/
def setSide (s : State) (i : Nat) (x : SideIn) : State :=
  { s with pwr := { s.pwr with side := smSet SideIn.reset s.pwr.side i x } }

/-- Whether an event of an input falls within the millisecond of its last one. -/
def sideSoon (s : State) (x : SideIn) : Bool := match x.lastEvent with | some t => decide (s.nowNs < t + msNs) | none => false

/-- A recognised assertion of input `i`: the state, and whether it has an effect. -/
def sideAssert (s : State) (i : Nat) : State × Bool :=
  let x := sideIn s i
  if x.asserted || s.rst.supply == .off then (s, false)
  else if x.masked || sideSoon s x then
    (setSide s i { x with asserted := true, edge := s.nowNs, suppressed := satAdd x.suppressed 1 }, false)
  else
    let s1 := setSide s i { x with asserted := true, effect := true, edge := s.nowNs, lastEvent := some s.nowNs,
                                   events := satAdd x.events 1 }
    (raiseEvent s1 (unnamed 1) 8 i, true)

/-- A recognised deassertion of input `i`: the state, and whether the assertion had an effect. -/
def sideDeassert (s : State) (i : Nat) : State × Bool :=
  let x := sideIn s i
  if x.asserted then
    (setSide s i { x with asserted := false, effect := false, edge := s.nowNs, held := false, masked := x.masked || x.held }, x.effect)
  else (s, false)

/-- Ten milliseconds since the last recognised edge of an input. -/
def sideTen (s : State) (x : SideIn) : Bool := decide (x.edge + 10 * msNs ≤ s.nowNs)

/-- INPUT_HELD (R565): the assertion recognised last has lasted 10 ms. No row names the deassertion of WAKE_IN_N, input 2: the
command itself says that it is asserted still (log 80). -/
def execInputHeld (input : BitVec 3) (s : State) : Res :=
  let x := sideIn s input.toNat
  if input = 2 ∧ x.lastEvent.isSome = true ∧ sideTen s x = true then .next (setSide s 2 { x with asserted := true, held := true })
  else if x.asserted && sideTen s x then .next (setSide s input.toNat { x with held := true })
  else .next s

/-- INPUT_UNMASKED (R565). No row names the deassertion of WAKE_IN_N, input 2: the command itself says that it has stayed
deasserted. -/
def execInputUnmasked (input : BitVec 3) (s : State) : Res :=
  let x := sideIn s input.toNat
  if input = 2 ∧ (x.held = true ∨ x.masked = true) then
    .next (setSide s 2 { x with asserted := false, effect := false, held := false, masked := false })
  else if x.masked && !x.asserted && sideTen s x then .next (setSide s input.toNat { x with masked := false })
  else .next s

/-- SLOT_ID_CHANGE (R565): one event, at most one in a millisecond, and nothing else. -/
def execSlotIdChange (s : State) : Res :=
  let x := sideIn s 6
  if s.rst.supply = .off then .next s
  else if sideSoon s x then .next (setSide s 6 { x with suppressed := satAdd x.suppressed 1 })
  else .next (raiseEvent (setSide s 6 { x with lastEvent := some s.nowNs, events := satAdd x.events 1 }) (unnamed 2) 8 6)

/-! ## What the inputs do (R559, R564) -/

/-- Sideband input `i` as a wake source in Closed, in Parked, or during an entry (R558, R559): while HOLD_N is asserted it is
ignored, and counted in suppressed of that input (R563). -/
def wakeSource (s : State) (i : Nat) : State :=
  if s.pwr.entry.isNone && decide (s.pwr.state < 3) then s
  else if holdOn s then setSide s i { sideIn s i with suppressed := satAdd (sideIn s i).suppressed 1 }
  else wakeUp s

/-- HOLD_N_ASSERT (R564). -/
def execHoldNAssert (s : State) : Res := .next (holdStart (sideAssert s 3).1)

/-- HOLD_N_DEASSERT (R559, R564): the module exits to Open. -/
def execHoldNDeassert (s : State) : Res :=
  let r := sideDeassert s 3
  .next (if r.2 then wakeSource r.1 3 else r.1)

/-- The power brake takes effect, or loses it (R549, R564); in Closed and Parked it is recorded and applies from the exit. -/
def setBrake (s : State) (on : Bool) : State := withCeil s (fun c => { c with brake := on })

/-- PWRBRK_N_ASSERT (R564). -/
def execPwrbrkNAssert (s : State) : Res :=
  let r := sideAssert s 4
  .next (if r.2 then setBrake r.1 true else r.1)

/-- PWRBRK_N_DEASSERT (R564). -/
def execPwrbrkNDeassert (s : State) : Res :=
  let r := sideDeassert s 4
  .next (if r.2 then setBrake r.1 false else r.1)

/-- WAKE_IN_N (R559): an assertion is recognised. As no row names a deassertion, one has gone before it where the input was
held, and its level is asserted no longer than the command (log 80). -/
def execWakeInN (s : State) : Res :=
  let r := sideAssert (sideDeassert s 2).1 2
  let s1 := setSide r.1 2 { sideIn r.1 2 with asserted := false, effect := false }
  .next (if r.2 then wakeSource s1 2 else s1)

end Sys2Proof.Machine
end

