-- ==== Sys2Proof/Machine/Reset.lean ====
section
/-! DEFINITION. Module resets, port resets, trips and power-up (18_reset_and_startup.md R571 to R580;
17_power_thermal_ageing.md R554, R562). -/

namespace Sys2Proof.Machine

/-! ## Port resets (R574, R576) -/

/-- A port reset of port `p`. -/
def portReset (s : State) (p : HPort) : State :=
  let s1 := losePort s p
  let x := freshPort (getPort s1 p)
  let s2 := setPort s1 p { x with linkUp := false, rate := 0, width := 0, flit := false, slowLink := false, aper := 0,
                                  ring := none, ringDropped := x.ringDropped || x.ring.isSome }
  let mine := fun (h : HeldAccess) => match h with
    | .write q _ _ _ => q == p | .read q _ _ => q == p | .write4 q _ _ _ => q == p | .read4 q _ _ => q == p | .wake q _ => q == p
  { s2 with
    cmd := { s2.cmd with queues := (s2.cmd.queues.map (fun q =>
      (q.1, if q.2.owner = portOwner p then { q.2 with en := false, orphaned := true } else q.2))) }
    hif := { s2.hif with eids := smSet 0 s2.hif.eids (2 + portNo p) 0 }
    pwr := { s2.pwr with held := s2.pwr.held.filter (fun h => !(mine h)) } }

/-- The counts of RST_PORT_COUNT. -/
def countPerst (s : State) (p : HPort) : State :=
  match p with
  | .a => { s with rst := { s.rst with perstA := satAdd s.rst.perstA 1 } }
  | .b => { s with rst := { s.rst with perstB := satAdd s.rst.perstB 1 } }

/-- Hot resets and link disables. -/
def countHot (s : State) (p : HPort) : State :=
  match p with
  | .a => { s with rst := { s.rst with hotA := satAdd s.rst.hotA 1 } }
  | .b => { s with rst := { s.rst with hotB := satAdd s.rst.hotB 1 } }

/-- The effect of a PERST input: its port is held in reset (R576, R578). -/
def perstOn (s : State) (p : HPort) : State :=
  let s1 := portReset (countPerst s p) p
  setPort s1 p { getPort s1 p with perst := true, trainAt := none }

/-- From now on a port may train, if its PERST input is deasserted and step 4 has completed (R578). -/
def trainFromNow (s : State) (p : HPort) : State :=
  let x := getPort s p
  if !x.perst && s.rst.supply == .on && decide (4 ≤ s.rst.step) then setPort s p { x with trainAt := some s.nowNs } else s

/-- PERST_ASSERT (R576). -/
def execPerstAssert (port : HPort) (s : State) : Res :=
  let r := sideAssert s (portNo port)
  .next (if r.2 then perstOn r.1 port else r.1)

/-- PERST_DEASSERT (R559, R578): the port may train; in Closed and Parked this is a wake source. -/
def execPerstDeassert (port : HPort) (s : State) : Res :=
  let r := sideDeassert s (portNo port)
  if r.2 then
    .next (wakeSource (trainFromNow (setPort r.1 port { getPort r.1 port with perst := false }) port) (portNo port))
  else .next r.1

/-- HOT_RESET (R571, R576). -/
def execHotReset (port : HPort) (s : State) : Res :=
  if (getPort s port).linkUp then .next (portReset (countHot s port) port) else .next s

/-! ## Module resets (R573 to R575) -/

/-- DRAM contents and poison marks, kept where `keep` holds (R575). -/
def keptMem (m : Mem) (keep : Bool) : Mem :=
  if keep then { cells := m.cells.filter (fun c => region c.1 == .dram), poison := m.poison.filter (fun p => region (64 * p.1) == .dram) }
  else { cells := [], poison := [] }

/-- Wear that lies in flash: offset and hours. DESIGN CHOICE (log 98): so do the hours at the last re-plan. -/
def flashWear (w : DieWear) : DieWear := { DieWear.reset with hours := w.hours, planned := w.planned, offset := w.offset }

/-- The levels of the outputs that a reset ends: fabric ports DISABLED, pairs joined, wake outputs and ALERT_N
deasserted, THERMTRIP_N where the trip is over (R439, R574, R579). -/
def quietPins (s : State) (tripOver : Bool) : State :=
  let s1 := (List.range 8).foldl joinPair s
  let s2 := setWakeOut (setWakeOut s1 .a none) .b none
  let s3 := if s2.pwr.alert.isSome then drivePin s2 "ALERT_N" false else s2
  if tripOver && s3.pwr.thermTrip then drivePin s3 "THERMTRIP_N" false else s3

/-- The state that a module reset leaves (R574): reset values but for flash, fuses, the SLOT_ID latch and DRAM that could
be kept. `vao` says that VAO stayed on. -/
def freshState (s : State) (keep : Bool) : State :=
  let r := State.reset
  { r with
    pending := s.pending, freeCount := s.freeCount, out := s.out, mem := keptMem s.mem keep
    mr := { r.mr with force8800 := s.mr.memCfg.getLsbD 5, dramErr := if keep then s.mr.dramErr else [] }
    err := { r.err with failLog := s.err.failLog, poweredNs := s.err.poweredNs }
    sec := { r.sec with owner := s.sec.owner, ownerSeq := s.sec.ownerSeq, minSvn := s.sec.minSvn,
                        keyRevoked := s.sec.keyRevoked, startNo := s.sec.startNo }
    pwr := { r.pwr with wear := s.pwr.wear.map flashWear, slotId := s.pwr.slotId,
                        ceil := { r.pwr.ceil with tableMax := s.pwr.ceil.tableMax } }
    rst := { r.rst with supply := .vao } }

/-- The inputs whose level is asserted as the filters restart are recognised again (R579). -/
def levelAgain (old : State) (s : State) (i : Nat) : State :=
  if (sideIn old i).asserted then
    let s1 := (sideAssert s i).1
    match i with
    | 0 => perstOn s1 .a
    | 1 => perstOn s1 .b
    | 4 => setBrake s1 true
    | 5 => { s1 with rst := { s1.rst with inReset := true } }
    | _ => s1
  else s

/-- A module reset, as far as its cause keeps it: only the Night Assistant domain runs (R572). -/
def moduleReset (s : State) (cause : BitVec 3) (keep tripOver : Bool) : State :=
  let s1 := freshState (quietPins s tripOver) keep
  let s2 := { s1 with rst := { s1.rst with cause, dramKept := keep }
                      pwr := { s1.pwr with thermTrip := s.pwr.thermTrip && !tripOver } }
  [0, 1, 2, 3, 4, 5].foldl (levelAgain s) s2

/-- Steps 3 to 5 of R577: VIO comes up, the I/O die leaves reset, the boot ROM extends MR0 (R499) and answers on the
mailboxes, and the core rails follow. A new ML-KEM key pair belongs to the start (R502). -/
def bringUp (s : State) : State :=
  let s1 := { s with rst := { s.rst with supply := .on, step := 5, startNs := s.nowNs }
                     fw := { s.fw with mbxReady := true }
                     sec := { s.sec with startNo := s.sec.startNo + 1 } }
  let s2 := trainFromNow (trainFromNow s1 .a) .b
  settleAlert (extendMr s2 0 1 (shake256 (Config.bootRom ++ Config.nightRom)))

/-- The sequence goes on, unless MODULE_RST_N, a thermal trip or an input trip keeps the module in reset. -/
def mayStartUp (s : State) : State :=
  if s.rst.inReset || s.rst.inputTrip || s.pwr.thermTrip then s else bringUp s

/-- MODULE_RST_N_ASSERT (R571 to R575): `refreshed` says that every MRDIMM entered self-refresh within 100 µs. After a
thermal trip it is that trip's recovery. -/
def execModuleRstNAssert (refreshed : Bool) (s : State) : Res :=
  let r := sideAssert s 5
  if r.2 then
    let keep := refreshed && (s.rst.supply == .on || (s.rst.inReset && s.rst.dramKept))
    let t := s.rst.inputTrip
    let s1 := moduleReset r.1 (if s.pwr.thermTrip then 2 else if t then 3 else 1) keep true
    .next { s1 with rst := { s1.rst with inputTrip := t } }
  else .next r.1

/-- MODULE_RST_N_DEASSERT (R577): the sequence resumes at step 3. -/
def execModuleRstNDeassert (s : State) : Res :=
  let r := sideDeassert s 5
  if r.2 then .next (mayStartUp { r.1 with rst := { r.1.rst with inReset := false } }) else .next r.1

/-- POWER_ON (R571, R577): the input reaches 40.0 V with VAO off. Steps 1 to 5 run, and SLOT_ID is latched. PRESENT_N was
asserted before it (R613). -/
def execPowerOn (slotId : BitVec 4) (s : State) : Res :=
  if s.rst.supply = .off then
    let s1 := freshState s false
    let s2 := { s1 with pwr := { s1.pwr with slotId }, mr := { s1.mr with force8800 := false } }
    .next (bringUp s2)
  else .next s

/-! ## Trips (R554) -/

/-- A host port whose domain has lost its power: its PERST input is in the Night Assistant's hands. -/
def darkPort (x : HostPortState) : HostPortState := { HostPortState.reset with perst := x.perst }

/-- Locked fields after a loss of power that is no module reset: a lock, and what it governs, stays until the next module reset
(R16, R571; log 82). -/
def keepLocks (s t : State) : State :=
  { t with fab := { t.fab with
      nodeId := if s.fab.nodeLock then s.fab.nodeId else t.fab.nodeId, nodeLock := s.fab.nodeLock
      designate := if s.fab.bypLock then s.fab.designate else t.fab.designate, bypLock := s.fab.bypLock } }

/-- Every rail except VAO goes off (R543, R554, R577). What lies outside the Night Assistant domain is lost and will start from
reset values; that domain is not reset: the key store, the measurement registers and log and all of SEC, the endpoint ids of
SMBus and I3C, the sideband filters with the brake, the Wear Monitor readings, the clock and the event numbers stay until a module
reset, as locks do (R16). -/
def railsOff (s : State) : State :=
  let q := quietPins s false
  let f := keepLocks s (freshState q false)
  { f with
    nowNs := s.nowNs, sec := s.sec, err := s.err
    hif := { f.hif with eids := s.hif.eids.filter (fun e => decide (e.1 < 2)), a := darkPort s.hif.a, b := darkPort s.hif.b }
    pwr := { f.pwr with side := s.pwr.side, wear := s.pwr.wear, thermTrip := s.pwr.thermTrip, ceil := { f.pwr.ceil with brake := s.pwr.ceil.brake },
                        alert := q.pwr.alert }
    rst := { s.rst with supply := .vao, step := 0, selftestDone := false, bist := [], dramKept := false } }

/-- A trip removes every rail except VAO (R554). -/
def trip (s : State) (kind : Nat) (st : Status) : State :=
  let s1 := railsOff (logFailure s kind st 0 0)
  { s1 with pwr := { s1.pwr with sensors := senseAs { s1 with rst := { s1.rst with inputTrip := true } } s.pwr.sensors } }

/-- THERMAL_TRIP (R554). -/
def execThermalTrip (s : State) : Res :=
  if s.rst.supply = .on then
    let s1 := trip s 6 (unnamed 4)
    let s2 := { s1 with pwr := { s1.pwr with thermTrip := true } }
    .next (if s.pwr.thermTrip then s2 else drivePin s2 "THERMTRIP_N" true)
  else .next s

/-- INPUT_TRIP (R554). -/
def execInputTrip (s : State) : Res :=
  if s.rst.supply = .off ∨ s.rst.inputTrip = true then .next s
  else
    let s1 := trip s 7 (unnamed 5)
    .next { s1 with rst := { s1.rst with inputTrip := true } }

/-- VAO_LOSS (R554): the key store, the measurement registers and always-on SRAM are lost, and the next start is a
power-on. THERMTRIP_N ends with the power. -/
def execVaoLoss (s : State) : Res :=
  if s.rst.supply = .off then .next s
  else
    let s1 := keepLocks s (freshState (quietPins s true) false)
    .next { s1 with rst := { s1.rst with supply := .off }, pwr := { s1.pwr with slotId := 0 } }

/-- INPUT_TRIP_RECOVERY (R571): the input is back in range, with VAO still on. -/
def execInputTripRecovery (s : State) : Res :=
  if s.rst.supply = .vao ∧ s.rst.inputTrip = true then
    let s1 := moduleReset s 3 false false
    .next (mayStartUp s1)
  else .next s

/-! ## Rails (R577) -/

/-- RAIL_FAIL (R577): a rail of the sequence misses power-good. Every rail except VAO goes off and ALERT_N is asserted; it is no
module reset (R571). -/
def execRailFail (rail : BitVec 3) (s : State) : Res :=
  if s.rst.supply = .on ∧ s.rst.step = 5 then
    let tries := s.rst.railTries + 1
    let s1 := raiseEvent (logFailure s 8 .railFail rail.toNat 0) .railFail 0 0
    let s2 := railsOff s1
    .next (settleAlert { s2 with rst := { s2.rst with cause := 5, railFail := true, railTries := tries, railAt := s2.nowNs } })
  else .next s

/-- RAIL_FAIL_RETRY (R577): the sequence is retried once, 1 s after the failure. -/
def execRailFailRetry (s : State) : Res :=
  if s.rst.supply = .vao ∧ s.rst.railFail = true ∧ s.rst.railTries = 1 ∧ s.rst.railAt + 1000 * msNs ≤ s.nowNs then
    .next (mayStartUp s)
  else .next s

/-! ## Self-test (R580) -/

/-- Whether an address lies in a core store or a cluster store. -/
def inStores (a : Nat) : Bool := match region a with | .core _ => true | .cluster _ => true | _ => false

/-- The RST_BIST_FAIL entries of what self-test found: a failed block that a cluster shares sets every bit of its cluster, and a
compute die that fails to leave reset those of all its clusters. -/
def bistOf (r : SelftestResult) : List (Nat × BitVec 64) :=
  let cores := r.cores.filter (fun f => decide (f.1 < 64))
  let whole := r.clusters.map (·.toNat) ++ r.dies.flatMap (fun d => dieClusters d.toNat)
  whole.foldl (fun m c => smSet 0 m c (BitVec.allOnes 64)) (cores.foldl (fun m f => smSet 0 m f.1 f.2) [])

/-- SELFTEST_DONE (R580): step 6 of R577 ends. The march tests leave no poison mark in the stores, and their contents undefined. -/
def execSelftestDone (fails : SelftestResult) (s : State) : Res :=
  if s.rst.supply = .on ∧ s.rst.step = 5 then
    .next { s with mem := { cells := s.mem.cells.filter (fun c => !(inStores c.1)),
                            poison := s.mem.poison.filter (fun p => !(inStores (64 * p.1))) }
                   rst := { s.rst with step := 6, selftestDone := true, bist := bistOf fails } }
  else .next s

/-! ## Exit from Parked (R562) -/

/-- The digest of the firmware area's copy is the one last extended into MR1 or MR3 (R562). -/
def parkedMatches (s : State) : Bool := s.sec.imageRef == some (imDigest s.fw.oldImage)

/-- Whether the copy of the running image may run again (R562 step 2): it passes the checks of R497 as they now stand, and its
digest is the one measured. -/
def parkedGood (s : State) : Bool := imageCheck s s.fw.oldImage == 0 && parkedMatches s

/-- PARKED_EXIT (R562): `loaded` says that the copy of the running image came back whole; where it did not, fails a check of
R497 or has another digest, the exit ends in a module reset. The image reads its handoff record and resumes; a Control Cluster
that R593 has stopped stays so. -/
def execParkedExit (loaded : Bool) (s : State) : Res :=
  if exitDue s 4 then
    if loaded && parkedGood s then
      let s0 := resumeOwn s
      let s1 := openAgain { s0 with fw := { s0.fw with mbxReady := !s.err.fwFatal } }
      let s2 := trainFromNow (trainFromNow s1 .a) .b
      let s2 := (List.range 16).foldl wakePort s2
      .next (setWakeOut (setWakeOut s2 .a (some s2.nowNs)) .b (some s2.nowNs))
    else .next (mayStartUp (moduleReset (logFailure s 10 (unnamed 6) 0 0) 4 true false))
  else .next s

end Sys2Proof.Machine
end

