-- ==== Sys2Proof/Machine/Ageing.lean ====
section
/-! DEFINITION. Wear, re-planning and units that fail in the field (17_power_thermal_ageing.md R567, R568;
01_architecture.md R46 to R48). -/

namespace Sys2Proof.Machine

/-- The wear of die `d` replaced. -/
def setWear (s : State) (d : Nat) (w : DieWear) : State := { s with pwr := { s.pwr with wear := s.pwr.wear.set d w } }

/-- `num ÷ d` as a whole number of units; the rounding is a free value (R567 states none). -/
def wearRound (num : Int) (d : Nat) : Int :=
  let q := num.fdiv d
  if num % d ≠ 0 ∧ Config.roundsUp num.natAbs d = true then q + 1 else q

/-- The mean of 1 − f_stressed ÷ f_ref over the pairs of a die, in units of 2^-16 (R567): a pair whose stressed loop is the
faster one lowers it. -/
def degOf (pairs : List (Nat × Nat)) : Int :=
  let den := pairs.foldl (fun d p => d * p.2) 1
  let num := ((pairs.map (fun p => ((p.2 : Int) - p.1) * ((den / p.2 : Nat) : Int))).sum) * 65536
  wearRound num (den * pairs.length)

/-- A degradation as the 16-bit fields hold it. DESIGN CHOICE (log 101): a negative mean reads as 0. -/
def degWord (d : Int) : BitVec 16 := BitVec.ofNat 16 (min 65535 d.toNat)

/-- The mean of the readings of an hour (R567). -/
def hourMean (xs : List Int) : BitVec 16 := degWord (wearRound xs.sum xs.length)

/-- A minute of powered time of a die. At each full hour the mean of its readings joins the history. -/
def wearMinute (w : DieWear) : DieWear :=
  if w.seconds + 60 ≥ 3600 then
    { w with seconds := w.seconds + 60 - 3600, hours := satAdd w.hours 1, readings := []
             history := if w.readings.isEmpty then w.history else w.history ++ [hourMean w.readings] }
  else { w with seconds := w.seconds + 60 }

/-- A reading of a die's wear (R567): its latest degradation, and one more minute. -/
def noteWear (w : DieWear) (d : Int) : DieWear :=
  wearMinute { w with deg := degWord d, readings := w.readings ++ [d] }

/-- WEAR_READING (R567): the four pairs of each powered die, as (f_stressed, f_ref). -/
def execWearReading (pairs : List (List (Nat × Nat))) (s : State) : Res :=
  if computeOn s then
    .next ((List.range 4).foldl (fun x d =>
      let ps := pairs.getD d []
      setWear x d (if ps.isEmpty || ps.any (fun p => p.2 == 0) then wearMinute (wearOf x d) else noteWear (wearOf x d) (degOf ps))) s)
  else .next s

/-! ## Re-planning (R568) -/

/-- The rate of a die at point `q` and offset `o` (in units of 5 mV), from a reading at `fromMv`, corrected to 90 °C, in
units of 10^-4 MHz. -/
def plannedRate (reading fromMv tj q : Nat) (o : Int) : Int :=
  (Config.replicaAt reading fromMv ((railMv q : Int) + 5 * o).toNat : Int) * (10000 - 25 * (90 - (tj : Int)))

/-- Whether point `q` keeps the margin of 1.06 at offset `o`. -/
def marginHolds (reading fromMv tj : Nat) (o : Int) (q : Nat) : Bool :=
  decide (106 * (cadMhz q : Int) * 10000 ≤ 100 * plannedRate reading fromMv tj q o)

/-- Whether point `q` stays in the table at offset `o`: its margin holds, with its rail at most 0.84 V. -/
def pointHolds (reading fromMv tj : Nat) (o : Int) (q : Nat) : Bool :=
  marginHolds reading fromMv tj o q && decide ((railMv q : Int) + 5 * o ≤ 840)

/-- The offset is raised by 5 mV at a time, up to +40 mV, while the margin of any point is too small. -/
def raiseOffset (reading fromMv tj top : Nat) : Nat → Int → Int
  | 0, o => o
  | k + 1, o =>
    if o ≥ 8 ∨ (List.range (top + 1)).all (marginHolds reading fromMv tj o) = true then o
    else raiseOffset reading fromMv tj top k (o + 1)

/-- Entries of the failure log for withdrawn points. -/
def pointEntries (s : State) : Nat := (s.err.failLog.filter (fun e => byteAt e 10 == 3)).length

/-- A point of the table is withdrawn: its event, and its entry in the failure log, of which there are at most seven
(R592). -/
def withdrawPoint (die : Nat) (s : State) (_q : Nat) : State :=
  raiseEvent (if pointEntries s < 7 then logFailure s 3 .pointWithdrawn die 0 else s) .pointWithdrawn 0 0

/-- A re-plan of a die is due (R568): 24 hours of its power-on time since the last, or a rise of 2^-8 since its plan. -/
def planDue (w : DieWear) : Bool :=
  decide (w.planned.toNat + 24 ≤ w.hours.toNat) || decide (w.degPlan.toNat + 256 ≤ w.deg.toNat)

/-- REPLAN (R568): firmware plans die `die` anew from the lowest replica reading among its clusters at the point in force,
in MHz, at junction temperature `tj`. Points above a withdrawn one leave the table with it; DEDUCED (log 98). -/
def execReplan (die : BitVec 2) (reading tj : Nat) (s : State) : Res :=
  let d := die.toNat
  let w := wearOf s d
  if loopsRun s && planDue w then
    let top := s.pwr.ceil.tableMax
    let fromMv := ((railMv s.pwr.ceil.point : Int) + offsetMv w).toNat
    let o := raiseOffset reading fromMv tj top 13 w.offset.toInt
    let s1 := setWear s d { w with offset := BitVec.ofInt 8 o, degPlan := w.deg, planned := w.hours }
    match (List.range (top + 1)).find? (fun q => !(pointHolds reading fromMv tj o q)) with
    | none => .next s1
    | some q =>
      let gone := (List.range (top + 1)).filter (fun k => decide (q ≤ k))
      let s2 := gone.foldl (withdrawPoint d) (withCeil s1 (fun c => { c with tableMax := q - 1 }))
      .next (if q = 0 then (dieClusters d).foldl (fun x k => markCluster x k .pointWithdrawn) s2 else s2)
  else .next s

/-! ## Failures in the field (R46 to R48) -/

/-- UNIT_FAILS (R46): firmware marks the core, or all 64 cores of the cluster, unavailable. -/
def execUnitFails (unit : FailedUnit) (s : State) : Res :=
  if imageRuns s then
    match unit with
    | .core c => .next (markCore s c.toNat .coreUnavail)
    | .cluster c => .next (markCluster s c.toNat .coreUnavail)
  else .next s

end Sys2Proof.Machine
end

