-- ==== Sys2Proof/Machine/Release.lean ====
section
/-! DEFINITION. An op held by a counter wait starts as its counter comes to its value (11_command_model.md R390). -/

namespace Sys2Proof.Machine

/-- The op at the head of a core's list starts, by its opcode (R388). -/
def releaseCore (c : CoreId) (host : List HostLine) (d : Bytes) (s : State) : Res :=
  match (byteAt d 0).toNat with
  | 0x00 => execOpNop (.core c) s
  | 0x01 => execWait (.core c) s
  | 0x08 => execDmaCopy c host s
  | 0x10 => if (lpaParm d).groupPos = 0 then execLpaMatmul c s else execCoResidentGroup c s
  | 0x11 => execCoeStage c host s
  | 0x18 => execVeRun c s
  | 0x19 => execVeSolve c s
  | 0x20 =>
    (match (ccmParm d).func with
     | 0 => execAppend c s
     | 1 => execFetch c host s
     | 2 => execPromote c s
     | _ => execTruncate c s)
  | _ => .next s

/-- The op at the head of an I/O list starts, by its opcode. -/
def releaseIo (loc : OpLoc) (host : List HostLine) (d : Bytes) (s : State) : Res :=
  match (byteAt d 0).toNat with
  | 0x00 => execOpNop loc s
  | 0x01 => execWait loc s
  | 0x28 =>
    (match (muuParm d).pass with
     | 2 => execMuuCombine loc s
     | 3 => execMuuPassTwo loc s
     | _ => execMuuPassOne loc s)
  | 0x40 => execPut loc host s
  | 0x41 => execGet loc s
  | 0x42 => execAwait loc s
  | 0x43 => execRoleSet ⟨loc, host⟩ s
  | 0x50 => .next (((List.range 7).find? (fun k => collRow k d)).elim s (fun k => runColl k loc host s))
  | 0x51 => execTrigArm ⟨loc, host⟩ s
  | _ => .next s

/-- COUNTER_WAIT_RELEASE (R390): the next op of a list, which waits on a counter, starts once the wait holds it no more. -/
def execCounterWaitRelease (loc : OpLoc) (host : List HostLine) (s : State) : Res :=
  match nextAt loc s with
  | none => .next s
  | some o =>
    if !(opHdr o.desc).waitEn || o.poisoned || !(mayStartAt loc s o) then .next s
    else
      match loc with
      | .core c => releaseCore c host o.desc s
      | .io _ _ => releaseIo loc host o.desc s

end Sys2Proof.Machine
end

