-- ==== Sys2Proof/Machine/Dispatch.lean ====
section
/-! DEFINITION. One arm per command: the meaning it calls. -/
namespace Sys2Proof.Machine
open Sys2Proof

def exec (i : Instr) (s : State) : Host.Outcome State Fault Refusal :=
  match i with
  | .cadenceTick slips => Sys2Proof.Machine.execCadenceTick slips s
  | .guardStepDown cluster rateMhz bySlips => Sys2Proof.Machine.execGuardStepDown cluster rateMhz bySlips s
  | .pointRequest target origin => Sys2Proof.Machine.execPointRequest target origin s
  | .railSettled rates => Sys2Proof.Machine.execRailSettled rates s
  | .coreNoProgress core => Sys2Proof.Machine.execCoreNoProgress core s
  | .lpaMatmul core => Sys2Proof.Machine.execLpaMatmul core s
  | .coResidentGroup core => Sys2Proof.Machine.execCoResidentGroup core s
  | .weightTileReady core array => Sys2Proof.Machine.execWeightTileReady core array s
  | .rowBlockDone core => Sys2Proof.Machine.execRowBlockDone core s
  | .plateHoldRelease core => Sys2Proof.Machine.execPlateHoldRelease core s
  | .plateVisible core => Sys2Proof.Machine.execPlateVisible core s
  | .pqStall core => Sys2Proof.Machine.execPqStall core s
  | .blinkSample cluster host => Sys2Proof.Machine.execBlinkSample cluster host s
  | .coeStage core host => Sys2Proof.Machine.execCoeStage core host s
  | .veRun core => Sys2Proof.Machine.execVeRun core s
  | .veSolve core => Sys2Proof.Machine.execVeSolve core s
  | .veNop core d a b mod => Sys2Proof.Machine.execVeNop core d a b mod s
  | .mov core d a b mod => Sys2Proof.Machine.execMov core d a b mod s
  | .cns core d a b mod => Sys2Proof.Machine.execCns core d a b mod s
  | .lid core d a b mod => Sys2Proof.Machine.execLid core d a b mod s
  | .lds core d a b mod => Sys2Proof.Machine.execLds core d a b mod s
  | .sts core d a b mod => Sys2Proof.Machine.execSts core d a b mod s
  | .gth core d a b mod => Sys2Proof.Machine.execGth core d a b mod s
  | .sct core d a b mod => Sys2Proof.Machine.execSct core d a b mod s
  | .sca core d a b mod => Sys2Proof.Machine.execSca core d a b mod s
  | .fadd core d a b mod => Sys2Proof.Machine.execFadd core d a b mod s
  | .fsub core d a b mod => Sys2Proof.Machine.execFsub core d a b mod s
  | .fmul core d a b mod => Sys2Proof.Machine.execFmul core d a b mod s
  | .ffma core d a b mod => Sys2Proof.Machine.execFfma core d a b mod s
  | .fmnx core d a b mod => Sys2Proof.Machine.execFmnx core d a b mod s
  | .fsgn core d a b mod => Sys2Proof.Machine.execFsgn core d a b mod s
  | .frcp core d a b mod => Sys2Proof.Machine.execFrcp core d a b mod s
  | .frsq core d a b mod => Sys2Proof.Machine.execFrsq core d a b mod s
  | .fsqt core d a b mod => Sys2Proof.Machine.execFsqt core d a b mod s
  | .fdiv core d a b mod => Sys2Proof.Machine.execFdiv core d a b mod s
  | .fexp core d a b mod => Sys2Proof.Machine.execFexp core d a b mod s
  | .flog core d a b mod => Sys2Proof.Machine.execFlog core d a b mod s
  | .fsig core d a b mod => Sys2Proof.Machine.execFsig core d a b mod s
  | .cvt core d a b mod => Sys2Proof.Machine.execCvt core d a b mod s
  | .iadd core d a b mod => Sys2Proof.Machine.execIadd core d a b mod s
  | .isub core d a b mod => Sys2Proof.Machine.execIsub core d a b mod s
  | .imul core d a b mod => Sys2Proof.Machine.execImul core d a b mod s
  | .ilog core d a b mod => Sys2Proof.Machine.execIlog core d a b mod s
  | .ishf core d a b mod => Sys2Proof.Machine.execIshf core d a b mod s
  | .imnx core d a b mod => Sys2Proof.Machine.execImnx core d a b mod s
  | .fcmp core d a b mod => Sys2Proof.Machine.execFcmp core d a b mod s
  | .icmp core d a b mod => Sys2Proof.Machine.execIcmp core d a b mod s
  | .sel core d a b mod => Sys2Proof.Machine.execSel core d a b mod s
  | .kop core d a b mod => Sys2Proof.Machine.execKop core d a b mod s
  | .shf core d a b mod => Sys2Proof.Machine.execShf core d a b mod s
  | .rup core d a b mod => Sys2Proof.Machine.execRup core d a b mod s
  | .rug core d a b mod => Sys2Proof.Machine.execRug core d a b mod s
  | .smn core d a b mod => Sys2Proof.Machine.execSmn core d a b mod s
  | .smb core d a b mod => Sys2Proof.Machine.execSmb core d a b mod s
  | .nrm core d a b mod => Sys2Proof.Machine.execNrm core d a b mod s
  | .rng core d a b mod => Sys2Proof.Machine.execRng core d a b mod s
  | .dmaCopy core host => Sys2Proof.Machine.execDmaCopy core host s
  | .append core => Sys2Proof.Machine.execAppend core s
  | .fetch core host => Sys2Proof.Machine.execFetch core host s
  | .promote core => Sys2Proof.Machine.execPromote core s
  | .truncate core => Sys2Proof.Machine.execTruncate core s
  | .demotionSweep pool => Sys2Proof.Machine.execDemotionSweep pool s
  | .ccmMove id host => Sys2Proof.Machine.execCcmMove id host s
  | .patrolScrub addr result => Sys2Proof.Machine.execPatrolScrub addr result s
  | .sramScrub addr result => Sys2Proof.Machine.execSramScrub addr result s
  | .ccmEnable port value => Sys2Proof.Machine.execCcmEnable port value s
  | .ccmReady => Sys2Proof.Machine.execCcmReady s
  | .muuPassOne loc => Sys2Proof.Machine.execMuuPassOne loc s
  | .muuCombine loc => Sys2Proof.Machine.execMuuCombine loc s
  | .muuPassTwo loc => Sys2Proof.Machine.execMuuPassTwo loc s
  | .deferralRecheck => Sys2Proof.Machine.execDeferralRecheck s
  | .stragglerDeadline => Sys2Proof.Machine.execStragglerDeadline s
  | .slotTableEnable port value => Sys2Proof.Machine.execSlotTableEnable port value s
  | .cmdWake port value => Sys2Proof.Machine.execCmdWake port value s
  | .doorbellPoll => Sys2Proof.Machine.execDoorbellPoll s
  | .doorbellRead queue word => Sys2Proof.Machine.execDoorbellRead queue word s
  | .descriptorFetch queue descs => Sys2Proof.Machine.execDescriptorFetch queue descs s
  | .nop queue => Sys2Proof.Machine.execNop queue s
  | .runStream queue => Sys2Proof.Machine.execRunStream queue s
  | .streamAdmit queue index => Sys2Proof.Machine.execStreamAdmit queue index s
  | .streamAbort queue => Sys2Proof.Machine.execStreamAbort queue s
  | .copy queue => Sys2Proof.Machine.execCopy queue s
  | .meridianFlip queue => Sys2Proof.Machine.execMeridianFlip queue s
  | .meridianRollback queue => Sys2Proof.Machine.execMeridianRollback queue s
  | .queueReassign queue => Sys2Proof.Machine.execQueueReassign queue s
  | .serviceRequest queue => Sys2Proof.Machine.execServiceRequest queue s
  | .blockClose svc => Sys2Proof.Machine.execBlockClose svc s
  | .blockStart svc => Sys2Proof.Machine.execBlockStart svc s
  | .preemptMinExpiry svc => Sys2Proof.Machine.execPreemptMinExpiry svc s
  | .plateBoundary core => Sys2Proof.Machine.execPlateBoundary core s
  | .blockEnd svc => Sys2Proof.Machine.execBlockEnd svc s
  | .phaseStart stream => Sys2Proof.Machine.execPhaseStart stream s
  | .phaseComplete stream phase => Sys2Proof.Machine.execPhaseComplete stream phase s
  | .phaseWatchdog stream phase => Sys2Proof.Machine.execPhaseWatchdog stream phase s
  | .opNop loc => Sys2Proof.Machine.execOpNop loc s
  | .wait loc => Sys2Proof.Machine.execWait loc s
  | .counterWaitRelease loc host => Sys2Proof.Machine.execCounterWaitRelease loc host s
  | .opComplete loc unit => Sys2Proof.Machine.execOpComplete loc unit s
  | .portLost port => Sys2Proof.Machine.execPortLost port s
  | .portReturn port rate width flit => Sys2Proof.Machine.execPortReturn port rate width flit s
  | .put loc host => Sys2Proof.Machine.execPut loc host s
  | .get loc => Sys2Proof.Machine.execGet loc s
  | .await loc => Sys2Proof.Machine.execAwait loc s
  | .awaitTimeout loc => Sys2Proof.Machine.execAwaitTimeout loc s
  | .roleSet op => Sys2Proof.Machine.execRoleSet op s
  | .fabricTimeout fi tag => Sys2Proof.Machine.execFabricTimeout fi tag s
  | .write port packet stalled => Sys2Proof.Machine.execWrite port packet stalled s
  | .readReq port packet => Sys2Proof.Machine.execReadReq port packet s
  | .readData port packet => Sys2Proof.Machine.execReadData port packet s
  | .ack port packet => Sys2Proof.Machine.execAck port packet s
  | .fwdWrite port packet => Sys2Proof.Machine.execFwdWrite port packet s
  | .idle port flit corrected uncorrectable => Sys2Proof.Machine.execIdle port flit corrected uncorrectable s
  | .routerForward port packet => Sys2Proof.Machine.execRouterForward port packet s
  | .hostSinkTimeout id => Sys2Proof.Machine.execHostSinkTimeout id s
  | .portLightDetected port => Sys2Proof.Machine.execPortLightDetected port s
  | .portClockLock port => Sys2Proof.Machine.execPortClockLock port s
  | .portCodewordLock port => Sys2Proof.Machine.execPortCodewordLock port s
  | .portTrained port => Sys2Proof.Machine.execPortTrained port s
  | .param port node peerPort => Sys2Proof.Machine.execParam port node peerPort s
  | .portStateTimeout port => Sys2Proof.Machine.execPortStateTimeout port s
  | .linkDrop port loss => Sys2Proof.Machine.execLinkDrop port loss s
  | .fabPortCfg hport port value => Sys2Proof.Machine.execFabPortCfg hport port value s
  | .fabBypass hport value => Sys2Proof.Machine.execFabBypass hport value s
  | .bypassSwitchDone pair => Sys2Proof.Machine.execBypassSwitchDone pair s
  | .fabRouteTab hport index value => Sys2Proof.Machine.execFabRouteTab hport index value s
  | .allReduce loc host => Sys2Proof.Machine.execAllReduce loc host s
  | .reduceScatter loc host => Sys2Proof.Machine.execReduceScatter loc host s
  | .allGather loc host => Sys2Proof.Machine.execAllGather loc host s
  | .reduce loc host => Sys2Proof.Machine.execReduce loc host s
  | .broadcast loc host => Sys2Proof.Machine.execBroadcast loc host s
  | .barrier loc host => Sys2Proof.Machine.execBarrier loc host s
  | .allToAllv loc host => Sys2Proof.Machine.execAllToAllv loc host s
  | .collReady id host => Sys2Proof.Machine.execCollReady id host s
  | .join port packet => Sys2Proof.Machine.execJoin port packet s
  | .collDeadline id => Sys2Proof.Machine.execCollDeadline id s
  | .close port packet => Sys2Proof.Machine.execClose port packet s
  | .data port packet => Sys2Proof.Machine.execData port packet s
  | .segmentCombine id segment => Sys2Proof.Machine.execSegmentCombine id segment s
  | .result port packet => Sys2Proof.Machine.execResult port packet s
  | .credit port packet => Sys2Proof.Machine.execCredit port packet s
  | .abort port packet => Sys2Proof.Machine.execAbort port packet s
  | .a2aData port packet => Sys2Proof.Machine.execA2aData port packet s
  | .a2aCount port packet => Sys2Proof.Machine.execA2aCount port packet s
  | .collTimeout id => Sys2Proof.Machine.execCollTimeout id s
  | .trigArm op => Sys2Proof.Machine.execTrigArm op s
  | .triggerFire fi entry host => Sys2Proof.Machine.execTriggerFire fi entry host s
  | .bar4Read port offset len => Sys2Proof.Machine.execBar4Read port offset len s
  | .bar4Write port offset data poisoned => Sys2Proof.Machine.execBar4Write port offset data poisoned s
  | .hifAper hport index value => Sys2Proof.Machine.execHifAper hport index value s
  | .pcieCompletion port tag data good => Sys2Proof.Machine.execPcieCompletion port tag data good s
  | .completionTimeout port tag => Sys2Proof.Machine.execCompletionTimeout port tag s
  | .msixUnmask port vector => Sys2Proof.Machine.execMsixUnmask port vector s
  | .mctpControl binding packets => Sys2Proof.Machine.execMctpControl binding packets s
  | .attest queue => Sys2Proof.Machine.execAttest queue s
  | .ownerClaim queue => Sys2Proof.Machine.execOwnerClaim queue s
  | .ownerRotate queue => Sys2Proof.Machine.execOwnerRotate queue s
  | .keyInstall queue => Sys2Proof.Machine.execKeyInstall queue s
  | .keyRevoke queue => Sys2Proof.Machine.execKeyRevoke queue s
  | .windowSet queue => Sys2Proof.Machine.execWindowSet queue s
  | .svcUnlock queue => Sys2Proof.Machine.execSvcUnlock queue s
  | .svcLock queue => Sys2Proof.Machine.execSvcLock queue s
  | .svnCommit queue => Sys2Proof.Machine.execSvnCommit queue s
  | .mrExtend queue => Sys2Proof.Machine.execMrExtend queue s
  | .vendorChallenge signature => Sys2Proof.Machine.execVendorChallenge signature s
  | .svcUnlockExpiry => Sys2Proof.Machine.execSvcUnlockExpiry s
  | .serviceConnectorRead which => Sys2Proof.Machine.execServiceConnectorRead which s
  | .hello channel message => Sys2Proof.Machine.execHello channel message s
  | .loadBegin channel message => Sys2Proof.Machine.execLoadBegin channel message s
  | .loadData channel message => Sys2Proof.Machine.execLoadData channel message s
  | .loadEnd channel message => Sys2Proof.Machine.execLoadEnd channel message s
  | .loaderPortLost port => Sys2Proof.Machine.execLoaderPortLost port s
  | .configSet channel message => Sys2Proof.Machine.execConfigSet channel message s
  | .eventRingSet channel message => Sys2Proof.Machine.execEventRingSet channel message s
  | .certRead channel message => Sys2Proof.Machine.execCertRead channel message s
  | .mlogRead channel message => Sys2Proof.Machine.execMlogRead channel message s
  | .faillogRead channel message => Sys2Proof.Machine.execFaillogRead channel message s
  | .sensorRead channel message => Sys2Proof.Machine.execSensorRead channel message s
  | .powerReq channel message => Sys2Proof.Machine.execPowerReq channel message s
  | .fwuStage channel message => Sys2Proof.Machine.execFwuStage channel message s
  | .fwuVerify channel message => Sys2Proof.Machine.execFwuVerify channel message s
  | .fwuActivate channel message => Sys2Proof.Machine.execFwuActivate channel message s
  | .fwuAbort channel message => Sys2Proof.Machine.execFwuAbort channel message s
  | .fwuStatus channel message => Sys2Proof.Machine.execFwuStatus channel message s
  | .mbxDoneClear port => Sys2Proof.Machine.execMbxDoneClear port s
  | .fwuSwitch => Sys2Proof.Machine.execFwuSwitch s
  | .loopHoldTimeout => Sys2Proof.Machine.execLoopHoldTimeout s
  | .fwuConfirm => Sys2Proof.Machine.execFwuConfirm s
  | .fwuRevert refused => Sys2Proof.Machine.execFwuRevert refused s
  | .ccWatchdog cause => Sys2Proof.Machine.execCcWatchdog cause s
  | .coalesceWindowEnd status source unit => Sys2Proof.Machine.execCoalesceWindowEnd status source unit s
  | .powerLoopTick pIn pPkg v10mv i10ma rails => Sys2Proof.Machine.execPowerLoopTick pIn pPkg v10mv i10ma rails s
  | .thermalLoopTick clusters io optics dimms => Sys2Proof.Machine.execThermalLoopTick clusters io optics dimms s
  | .fastPower watts => Sys2Proof.Machine.execFastPower watts s
  | .overcurrent => Sys2Proof.Machine.execOvercurrent s
  | .hot => Sys2Proof.Machine.execHot s
  | .inputLow => Sys2Proof.Machine.execInputLow s
  | .opticsHot port => Sys2Proof.Machine.execOpticsHot port s
  | .hotRelease => Sys2Proof.Machine.execHotRelease s
  | .inputLowRelease => Sys2Proof.Machine.execInputLowRelease s
  | .opticsHotRelease port => Sys2Proof.Machine.execOpticsHotRelease port s
  | .limiterRelease limiter => Sys2Proof.Machine.execLimiterRelease limiter s
  | .thermalTrip => Sys2Proof.Machine.execThermalTrip s
  | .inputTrip => Sys2Proof.Machine.execInputTrip s
  | .closedEntry => Sys2Proof.Machine.execClosedEntry s
  | .parkedEntry => Sys2Proof.Machine.execParkedEntry s
  | .quiesceTimeout => Sys2Proof.Machine.execQuiesceTimeout s
  | .closedExit => Sys2Proof.Machine.execClosedExit s
  | .parkedExit loaded => Sys2Proof.Machine.execParkedExit loaded s
  | .clusterGate cluster => Sys2Proof.Machine.execClusterGate cluster s
  | .clusterWake cluster => Sys2Proof.Machine.execClusterWake cluster s
  | .holdNAssert => Sys2Proof.Machine.execHoldNAssert s
  | .holdNDeassert => Sys2Proof.Machine.execHoldNDeassert s
  | .pwrbrkNAssert => Sys2Proof.Machine.execPwrbrkNAssert s
  | .pwrbrkNDeassert => Sys2Proof.Machine.execPwrbrkNDeassert s
  | .wakeInN => Sys2Proof.Machine.execWakeInN s
  | .perstAssert port => Sys2Proof.Machine.execPerstAssert port s
  | .perstDeassert port => Sys2Proof.Machine.execPerstDeassert port s
  | .hotReset port => Sys2Proof.Machine.execHotReset port s
  | .slotIdChange => Sys2Proof.Machine.execSlotIdChange s
  | .moduleRstNAssert refreshed => Sys2Proof.Machine.execModuleRstNAssert refreshed s
  | .moduleRstNDeassert => Sys2Proof.Machine.execModuleRstNDeassert s
  | .powerOn slotId => Sys2Proof.Machine.execPowerOn slotId s
  | .inputTripRecovery => Sys2Proof.Machine.execInputTripRecovery s
  | .railFail rail => Sys2Proof.Machine.execRailFail rail s
  | .railFailRetry => Sys2Proof.Machine.execRailFailRetry s
  | .selftestDone fails => Sys2Proof.Machine.execSelftestDone fails s
  | .wearReading pairs => Sys2Proof.Machine.execWearReading pairs s
  | .replan die reading tj => Sys2Proof.Machine.execReplan die reading tj s
  | .topNodeId hport value => Sys2Proof.Machine.execTopNodeId hport value s
  | .queueClaim hport queue => Sys2Proof.Machine.execQueueClaim hport queue s
  | .queueRelease hport queue => Sys2Proof.Machine.execQueueRelease hport queue s
  | .queueEnable hport queue kind msix svc => Sys2Proof.Machine.execQueueEnable hport queue kind msix svc s
  | .queueDisable hport queue => Sys2Proof.Machine.execQueueDisable hport queue s
  | .registerWrite hport bar offset size value => Sys2Proof.Machine.execRegisterWrite hport bar offset size value s
  | .monitorSweep rates => Sys2Proof.Machine.execMonitorSweep rates s
  | .unitFails unit => Sys2Proof.Machine.execUnitFails unit s
  | .enterConfigWait spd => Sys2Proof.Machine.execEnterConfigWait spd s
  | .revertRegionCopyDone => Sys2Proof.Machine.execRevertRegionCopyDone s
  | .vaoLoss => Sys2Proof.Machine.execVaoLoss s
  | .inputHeld input => Sys2Proof.Machine.execInputHeld input s
  | .inputUnmasked input => Sys2Proof.Machine.execInputUnmasked input s
  | .wakeOutputLimit port => Sys2Proof.Machine.execWakeOutputLimit port s
  | .bar0Read hport bar offset size => Sys2Proof.Machine.execBar0Read hport bar offset size s
  | .failureLogClear => Sys2Proof.Machine.execFailureLogClear s
  | .keyRevocationBurn key => Sys2Proof.Machine.execKeyRevocationBurn key s
  | .configSpaceWrite port field value => Sys2Proof.Machine.execConfigSpaceWrite port field value s
  | .copyCompletion queue index host => Sys2Proof.Machine.execCopyCompletion queue index host s

end Sys2Proof.Machine
end

