-- ==== Sys2Proof/Machine/Tick.lean ====
section
/-! DEFINITION. What passes while no command waits: time. -/

namespace Sys2Proof.Machine

/-- A nanosecond passes. DESIGN CHOICE: the manual gives the block clocks and no row names their tick, so an idle step is one
nanosecond. The powered time of the failure log (R591) runs while VAO is on, and ALERT_N may end (R566). -/
def tick (s : State) : State :=
  let s1 := { s with nowNs := s.nowNs + 1 }
  if s.rst.supply = .off then s1 else settleAlert { s1 with err := { s1.err with poweredNs := s1.err.poweredNs + 1 } }

end Sys2Proof.Machine
end

