-- ==== Sys2Proof/WellFormed.lean ====
section
/-! DEFINITION. What a command must look like to be one that the host, the fabric or a sensor can send: lengths,
sizes and ranges of its operands. The meanings are total without it. -/

namespace Sys2Proof

/-- Keys strictly rising. -/
def keysRise {α : Type} : List (Nat × α) → Bool
  | [] => true
  | [_] => true
  | (a, _) :: (b, y) :: l => decide (a < b) && keysRise ((b, y) :: l)

/-- A line of a host window: aligned, in the host-window range, 64 bytes where the read succeeds (01_architecture.md
R36). -/
def HostLine.wf (h : HostLine) : Bool :=
  decide (0xA00000000000 ≤ h.addr ∧ h.addr < 0xC00000000000) && h.addr % 64 == 0 &&
  (match h.data with | some d => d.length == 64 | none => true)

/-- A line of host memory by its PCIe bus address: aligned, 64 bytes where the read succeeds (R484, R36). -/
def HostLine.busWf (h : HostLine) : Bool :=
  decide (h.addr < 2 ^ 64) && h.addr % 64 == 0 && (match h.data with | some d => d.length == 64 | none => true)

/-- A packet is a header flit and up to 63 payload flits (12_fabric.md R412). -/
def packetWf (b : Bytes) : Bool := decide (64 ≤ b.length ∧ b.length ≤ 4096) && b.length % 64 == 0

/-- A register access lies in its BAR and has a size that PCIe carries in one word (14_host_interface.md R478). -/
def accessWf (bar : HostBar) (off : BitVec 26) (size : Nat) : Bool :=
  (size == 1 || size == 2 || size == 4 || size == 8) &&
  decide (off.toNat + size ≤ (match bar with | .bar0 => 2 ^ 26 | .bar2 => 2 ^ 24))

/-- A mailbox message on one of the six channels: a header of 32 bytes and up to 4,064 bytes of payload (16_firmware.md
R526). -/
def messageWf (channel : BitVec 3) (m : Bytes) : Bool := decide (channel.toNat < 6 ∧ 32 ≤ m.length ∧ m.length ≤ 4096)

/-- Well-formed commands. -/
def Instr.wf : Instr → Bool
  | .cadenceTick slips => keysRise slips && slips.all (fun p => decide (p.1 < 64))
  | .selftestDone fails => keysRise fails.cores && fails.cores.all (fun p => decide (p.1 < 64))
  | .blinkSample _ host => host.all HostLine.wf
  | .coeStage _ host => host.all HostLine.wf
  | .dmaCopy _ host => host.all HostLine.wf
  | .fetch _ host => host.all HostLine.wf
  | .ccmMove _ host => host.all HostLine.wf
  | .counterWaitRelease _ host => host.all HostLine.wf
  | .put _ host => host.all HostLine.wf
  | .allReduce _ host => host.all HostLine.wf
  | .reduceScatter _ host => host.all HostLine.wf
  | .allGather _ host => host.all HostLine.wf
  | .reduce _ host => host.all HostLine.wf
  | .broadcast _ host => host.all HostLine.wf
  | .barrier _ host => host.all HostLine.wf
  | .allToAllv _ host => host.all HostLine.wf
  | .roleSet op => op.host.all HostLine.wf
  | .trigArm op => op.host.all HostLine.wf
  | .collReady _ host => host.all HostLine.wf
  | .triggerFire _ _ host => host.all HostLine.wf
  | .copyCompletion _ _ host => host.all HostLine.busWf
  | .descriptorFetch _ descs => decide (descs.length ≤ 8) && descs.all (fun d => match d with | some b => b.length == 64 | none => true)
  | .write _ packet _ => packetWf packet
  | .readReq _ packet => packetWf packet
  | .readData _ packet => packetWf packet.bytes
  | .ack _ packet => packetWf packet
  | .fwdWrite _ packet => packetWf packet.bytes
  | .linkDrop _ loss => decide (loss.cut.length < 4096) && loss.cut.length % 64 == 0
  | .idle _ flit _ _ => flit.length == 64
  | .routerForward _ packet => packetWf packet
  | .join _ packet => packetWf packet
  | .close _ packet => packetWf packet
  | .data _ packet => packetWf packet
  | .result _ packet => packetWf packet.bytes
  | .credit _ packet => packetWf packet
  | .abort _ packet => packetWf packet
  | .a2aData _ packet => packetWf packet.bytes
  | .a2aCount _ packet => packetWf packet.bytes
  | .bar4Write _ _ bs _ => decide (0 < bs.length ∧ bs.length ≤ 4096)
  | .bar4Read _ _ len => decide (0 < len ∧ len ≤ 4096)
  | .mctpControl _ packets => !packets.isEmpty && packets.all (fun p => decide (p.body.length ≤ 256))
  | .hello ch m => messageWf ch m
  | .loadBegin ch m => messageWf ch m
  | .loadData ch m => messageWf ch m
  | .loadEnd ch m => messageWf ch m
  | .configSet ch m => messageWf ch m
  | .eventRingSet ch m => messageWf ch m
  | .certRead ch m => messageWf ch m
  | .mlogRead ch m => messageWf ch m
  | .faillogRead ch m => messageWf ch m
  | .sensorRead ch m => messageWf ch m
  | .powerReq ch m => messageWf ch m
  | .fwuStage ch m => messageWf ch m
  | .fwuVerify ch m => messageWf ch m
  | .fwuActivate ch m => messageWf ch m
  | .fwuAbort ch m => messageWf ch m
  | .fwuStatus ch m => messageWf ch m
  | .registerWrite _ bar off size _ => accessWf bar off size
  | .bar0Read _ bar off size => accessWf bar off size
  | .railFail rail => decide (rail.toNat < 7)
  | .inputHeld input => decide (input.toNat < 6)
  | .inputUnmasked input => decide (input.toNat < 6)
  | .wearReading pairs => decide (pairs.length ≤ 4)
  | .enterConfigWait spd => spd.length == 16
  | _ => true

end Sys2Proof
end

