-- ==== Sys2Proof/Safety.lean ====
section
/-! DEFINITION. The terms in which the statements are made: sound states, what a command gives, the bytes of memory that
may change, and the answer to a descriptor. -/

namespace Sys2Proof.Machine

/-- A state that the block can hold: memory is in canonical form, and the keys of every map rise. -/
structure Sound (s : State) : Prop where
  mem : Memory.wf s.mem = true
  cores : keysRise s.cores = true
  queues : keysRise s.cmd.queues = true
  counters : keysRise s.cmd.counters = true
  coreAvail : keysRise s.cr.coreAvail = true
  ecc : keysRise s.mr.ecc = true
  windows : keysRise s.hif.wt = true
  mrs : keysRise s.sec.mrs = true
  qctr : keysRise s.sec.qctr = true
  mbxCtr : keysRise s.fw.mbxCtr = true
  ports : keysRise s.fab.ports = true
  route : keysRise s.fab.route = true
  epochs : keysRise s.fab.epochs = true
  busy : keysRise s.coll.busy = true
  side : keysRise s.pwr.side = true
  gated : keysRise s.pwr.gated = true
  lastUse : keysRise s.pwr.lastUse = true
  sramBad : keysRise s.mr.sramBad = true
  usedSram : keysRise s.ccm.usedSram = true
  usedDram : keysRise s.ccm.usedDram = true
  usedHost : keysRise s.ccm.usedHost = true
  nextSeq : keysRise s.coll.nextSeq = true
  msix : ∀ p, keysRise (getPort s p).msix = true ∧ keysRise (getPort s p).pba = true
  joins : ∀ c ∈ s.coll.colls, keysRise c.joins = true ∧ keysRise c.arrived = true
  blink : keysRise s.blink = true
  contexts : ∀ p ∈ s.cores, ∀ x ∈ [p.2.ctx0, p.2.ctx1], keysRise x.regs = true ∧ keysRise x.masks = true
  /-- Measurement registers hold 64 bytes (R499). -/
  mrLen : ∀ p ∈ s.sec.mrs, p.2.length = 64

/-- Command `c` has a next state in `s`, and `P` holds of it. -/
def Gives (c : Instr) (s : State) (P : State → Prop) : Prop := ∃ t, exec c s = .next t ∧ P t

/-- An address lies in none of the (address, length) spans. -/
def Outside (spans : List (Nat × Nat)) (a : Nat) : Prop := ∀ p ∈ spans, ¬(p.1 ≤ a ∧ a < p.1 + p.2)

/-- Every byte of memory outside the spans reads in `t` as it reads in `s`. -/
def SameMem (s t : State) (spans : List (Nat × Nat)) : Prop :=
  ∀ a, Outside spans a → memByte t.mem a = memByte s.mem a

/-- Where the next completion record of a queue lands in module memory: nowhere for a ring in a host's memory, and
nowhere for a record that is held or discarded (R356, R368, R370, R401). -/
def recordSpan (s : State) (n : Nat) : List (Nat × Nat) :=
  let q := getQueue s n
  if ringLoc q.cq && !q.orphaned && q.held.isEmpty && decide (0 < cqSpace q) then
    [(gLocal (ringBase q.cq + 16 * (q.cqTail.toNat % ringLen q.cq)), 16)]
  else []

/-- Descriptor `f` of queue `q` has been answered: it has left its queue and is counted, and no memory but that of its
record has changed beside `spans`. -/
structure Answered (s t : State) (q : Nat) (f : Fetched) (effect : Bool) (spans : List (Nat × Nat)) : Prop where
  gone : getDesc t q f.uid = none
  completed : t.cmd.completed = satAdd s.cmd.completed 1
  rejected : t.cmd.rejected = if effect then s.cmd.rejected else satAdd s.cmd.rejected 1
  mem : SameMem s t (recordSpan s q ++ spans)

/-- The record of a completion that is neither split nor late (R368). -/
def plainRecord (s : State) (f : Fetched) (st : Status) : Record :=
  { index := f.index, status := st, split := false, late := false, parts := 0, timestamp := s.nowNs, irq := flag f.desc 2 1 }

/-- Record `r` of queue `q` is where it belongs: in its host's ring, or held for want of room or of an owner (R369, R370,
R401). -/
structure Reports (s t : State) (q : Nat) (r : Record) : Prop where
  ring : let Q := getQueue s q
    Q.orphaned = false → Q.held = [] → 0 < cqSpace Q → ringLoc Q.cq = false → ∀ p, ownerPort Q.owner = some p →
      .hostWrite p (ringBase Q.cq + 16 * (Q.cqTail.toNat % ringLen Q.cq)) (recordBytes q Q r) false ∈ t.out
  held : let Q := getQueue s q
    (if Q.orphaned then Q.held.length < 64 else Q.held ≠ [] ∨ cqSpace Q = 0) → (getQueue t q).held = Q.held ++ [r]

/-- The way to another node lies open for a packet of class `cls` and `len` payload bytes, on port `q` with dateline state
`dl`: a route, a hop, a tag where the packet needs one, and credits (R416, R418 to R421, R435). -/
structure WayOut (s : State) (node cls len : Nat) (tagged : Bool) (q : Nat) (dl : Bool) : Prop where
  far : localNode s node = false
  route : routeOf s node = some q
  assigned : s.fab.nodeId ≠ 0xFFFF
  hop : ∃ down, hopOf s none q false false = some (dl, down)
  tag : tagged = true → (freeTag s q).isSome = true
  credits : creditsFor (getFab s q) (vcOf cls dl) (cdiv len 64 + 1) = true

/-- A packet of a kind left on port `q` for a global address. -/
def leftFor (t : State) (q kind a : Nat) (holds : Bytes → Prop) : Prop :=
  ∃ x, .packet q x ∈ t.out ∧ pkKind x = kind ∧ pkDst x = gNode a ∧ pkAddr x = gLocal a ∧ holds x

/-! ## The mailbox -/

/-- Message `m` arrives on BAR2 channel `ch` while its port is reached, its mailbox is free and read, and passes every check
of R526 to R530 as a request `r` of type `kind`. -/
structure Taken (s : State) (ch : BitVec 3) (m : Bytes) (kind : Nat) (r : MbxReq) : Prop where
  bar2 : ch.toNat < 2
  reached : bar2Open s (chPort ch.toNat) = true
  free : (getPort s (chPort ch.toNat)).mbxGo = false
  read : (getPort s (chPort ch.toNat)).mbxDone = false
  served : s.fw.mbxReady = true
  idle : mbInService s ch.toNat = false
  header : mbHeader m = none
  type : mbType m = kind
  whole : 32 + mbLen m ≤ m.length
  fits : m.length ≤ 4096
  rom : s.fw.state < 2 → romType kind = true
  key : (mbVerify s ch.toNat m).2 = (none, r.key)
  allowed : mbAllowed s ch.toNat kind = true
  layout : mbReserved m = true
  channel : r.channel = ch.toNat
  message : r.message = m

/-- MBX_OUT of the channel holds the response to `r` with a status and fields, and done is set (R524, R526, R527). -/
def Replied (t : State) (r : MbxReq) (st : Status) (fields : Bytes) : Prop :=
  (getPort t (chPort r.channel)).mbxDone = true ∧
  (getPort t (chPort r.channel)).mbxOut.take (mbResponse r st fields).length = mbResponse r st fields

/-! ## Registers -/

/-- The registers that stand alone, as 20_register_reference.md has them: offset, width and Reset column. -/
def resetRegs : List RegRow :=
  [(0x000000, 32, 0x5A560121), (0x000008, 64, 0xC00081010044040), (0x000010, 64, 0x22803E802), (0x000018, 64, 0x0),
   (0x000300, 32, 0xFFFF), (0x040000, 32, 0x16), (0x040008, 64, 0x0), (0x040100, 64, 0x0),
   (0x040108, 64, 0x0), (0x040200, 64, 0x0), (0x040208, 64, 0x0), (0x040210, 64, 0x0),
   (0x040218, 64, 0x0), (0x040300, 64, 0x0), (0x040308, 64, 0x0), (0x040310, 64, 0x0),
   (0x040400, 64, 0x0), (0x040408, 64, 0x0), (0x040410, 64, 0x7D0), (0x040418, 64, 0x0)] ++
  [(0x040420, 64, 0x0), (0x040428, 64, 0x0), (0x040430, 64, 0x0), (0x040500, 32, 0x1),
   (0x040508, 64, 0x0), (0x040510, 32, 0x0), (0x040518, 64, 0x0), (0x040520, 64, 0x0),
   (0x040528, 64, 0x0), (0x040600, 32, 0x0), (0x040608, 32, 0xA1801), (0x040610, 64, 0x0),
   (0x040700, 64, 0x0), (0x040708, 32, 0x0), (0x040710, 64, 0x0), (0x040718, 32, 0x0),
   (0x040720, 64, 0x0), (0x040728, 32, 0x0), (0x040730, 32, 0x10082010), (0x040738, 32, 0x12)] ++
  [(0x040740, 64, 0x0), (0x040748, 64, 0x0), (0x040750, 64, 0x0), (0x040758, 64, 0x0),
   (0x050000, 32, 0x14), (0x050008, 64, 0x0), (0x050010, 64, 0x0), (0x050018, 64, 0x0),
   (0x050020, 64, 0x0), (0x050028, 64, 0x0), (0x060000, 32, 0x0), (0x060008, 32, 0xFFFF00),
   (0x060010, 64, 0xC800C800C800C8), (0x060020, 64, 0x0), (0x060028, 64, 0x0), (0x060030, 64, 0x0),
   (0x060038, 64, 0x0), (0x080000, 64, 0x0), (0x080008, 64, 0x0), (0x080010, 64, 0x0)] ++
  [(0x080018, 64, 0x0), (0x080020, 64, 0x0), (0x080028, 64, 0x0), (0x080030, 64, 0x0),
   (0x090030, 32, 0x0), (0x090038, 64, 0x0), (0x0B0000, 64, 0x0), (0x0B0008, 64, 0x0),
   (0x0C0000, 64, 0x0), (0x0D0000, 64, 0x6F622238), (0x0D0008, 32, 0x640A0002), (0x0D0010, 64, 0xD48),
   (0x0D0018, 64, 0x550000), (0x0D0020, 64, 0x600000000), (0x0D0048, 64, 0x0), (0x0D0050, 64, 0x0),
   (0x0D0058, 32, 0x0), (0x0F0000, 64, 0x0), (0x0F0008, 64, 0x0), (0x0F0010, 64, 0x0)]

/-- The arrays of registers: first offset, stride, count, width and Reset column. -/
def resetArrays : List (Nat × Nat × Nat × Nat × Nat) :=
  [(0x000100, 8, 64, 64, 0xFFFFFFFFFFFFFFFF), (0x040680, 8, 16, 64, 0), (0x058000, 32, 256, 64, 0),
   (0x058008, 32, 256, 64, 0), (0x058010, 32, 256, 64, 1), (0x058018, 32, 256, 64, 0),
   (0x060100, 8, 16, 64, 0x10FFFF0002), (0x060200, 8, 16, 64, 0), (0x060300, 8, 16, 64, 0), (0x070000, 4, 16384, 32, 0),
   (0x090000, 8, 2, 64, 0), (0x090010, 8, 2, 64, 0), (0x090020, 8, 2, 64, 0), (0x0A0000, 8, 4096, 64, 0),
   (0x0B1000, 8, 256, 64, 0), (0x0C0100, 8, 6, 64, 0), (0x0D0028, 8, 4, 64, 0), (0x0D0080, 8, 7, 64, 0),
   (0x0E0008, 8, 2, 64, 0), (0x0E0100, 8, 64, 64, 0)]

/-- Registers whose writable fields a write stores and that do nothing else: offset, width and the mask of their writable
bits (the field tables of chapters 04 to 12). -/
def plainRegs : List (Nat × Nat × Nat) :=
  [(0x040000, 32, 0x1F), (0x040100, 64, 0xFFFFFFC00001), (0x040200, 64, 0xFFFFFFC00001), (0x040410, 64, 0x1FFFFFF),
   (0x040418, 64, 0xFFFFFFFFC000), (0x040420, 64, 0xFFFFFFFE0001), (0x040500, 32, 0xF01), (0x040600, 32, 0x20),
   (0x040608, 32, 0xFFFF01), (0x040730, 32, 0xFFFFFFFF), (0x050000, 32, 0xFFFFFF), (0x050008, 64, 0xFFFFFFFFC001),
   (0x060010, 64, 0xFFFFFFFFFFFFFFFF)]

/-! ## Resets, the failure log and BAR4 -/

/-- A failure-log entry of a kind has been added (R591). -/
def logged (s t : State) (kind : Nat) : Prop := ∃ e, t.err.failLog = s.err.failLog ++ [e] ∧ (byteAt e 10).toNat = kind

/-- What every module reset leaves (R574): firmware, keys, queues and cores at reset, and what flash and fuses hold kept. -/
def resetKept (s t : State) : Prop :=
  t.fw.state = 0 ∧ t.cmd.queues = [] ∧ t.cmd.streams = [] ∧ t.cores = [] ∧ t.sec.rootKey = none ∧ t.sec.opKey = none ∧
  t.sec.svc = 0 ∧ t.sec.owner = s.sec.owner ∧ t.sec.ownerSeq = s.sec.ownerSeq ∧ t.sec.minSvn = s.sec.minSvn ∧
  t.sec.keyRevoked = s.sec.keyRevoked

/-- What stays and what goes where every rail but VAO is lost without a module reset (R543, R554, R577): firmware, queues and cores
are at reset; the Night Assistant domain, SEC, the sideband inputs, the Wear Monitor readings and the clock are as they were, and a
lock holds what it governs (R16). -/
structure DomainKept (s t : State) : Prop where
  image : t.fw.state = 0
  queues : t.cmd.queues = []
  streams : t.cmd.streams = []
  cores : t.cores = []
  sec : t.sec = s.sec
  side : t.pwr.side = s.pwr.side
  wear : t.pwr.wear = s.pwr.wear
  clock : t.nowNs = s.nowNs
  nodeLock : t.fab.nodeLock = s.fab.nodeLock ∧ (s.fab.nodeLock = true → t.fab.nodeId = s.fab.nodeId)
  bypLock : t.fab.bypLock = s.fab.bypLock ∧ (s.fab.bypLock = true → t.fab.designate = s.fab.designate)

/-- A line that BAR4 of a port reaches: one of R481, granted by the Window Table, and existing (R482). -/
def bar4Open (s : State) (p : HPort) (write : Bool) (l : Nat) : Bool :=
  reaches .dma (region l) && (wtLookup s (initBar4 p) write 0 l).isSome && spanExists s l 64

/-! ## Micro-ops -/

/-- A micro-op as 6-bit fields give it to the Vector Engine (R227). -/
def uopFields (op : Nat) (d a b mod : BitVec 6) : Uop :=
  { op, d := d.toNat, a := a.toNat, b := b.toNat, sel := mod.toNat % 8, var := mod.toNat / 8 }

/-- Core `n` runs a VE_RUN op that has met no error, and the micro-op is one that R229 allows in its program. -/
structure Issuable (s : State) (n : Nat) (u : Uop) (e : VeEnv) : Prop where
  sound : Sound s
  running : veEnv s n = some e
  clean : e.v.hard = none
  program : byteAt e.v.desc 0 ≠ 0x19
  allowed : uopOk (veParm e.v.desc).ruOp (veParm e.v.desc).ruSeg u = true

/-- Lane `i` of the op, and lane `i` active in a micro-op (R226). -/
def laneIn (e : VeEnv) (i : Nat) : Bool := bit (veParm e.v.desc).laneMask i
/-- R226. -/
def laneOn (e : VeEnv) (u : Uop) (i : Nat) : Bool := laneIn e i && bit (maskGet e.c u.sel) i

/-- A micro-op that gives every lane one value: its command, opcode, the (register, lane) pairs that a lane reads, and its
value from theirs. Where `every` holds it acts in every lane of lane_mask (R226). -/
structure LaneOp where
  cmd : CoreId → BitVec 6 → BitVec 6 → BitVec 6 → BitVec 6 → Instr
  op : Nat
  srcs : VeEnv → Uop → Nat → List (Nat × Nat)
  value : VeEnv → Uop → Nat → List Nat → FRes
  every : Bool := false

/-- Sources: none, va, va and vb. -/
def srcsNone (_e : VeEnv) (_u : Uop) (_i : Nat) : List (Nat × Nat) := []
/-- va. -/
def srcsA (_e : VeEnv) (u : Uop) (i : Nat) : List (Nat × Nat) := [(u.a, i)]
/-- va and vb. -/
def srcsAB (_e : VeEnv) (u : Uop) (i : Nat) : List (Nat × Nat) := [(u.a, i), (u.b, i)]

/-- The registers of a position that SMN, SMB and NRM read only where it is not masked (R226, R587). -/
def srcsOpen (e : VeEnv) (u : Uop) (i : Nat) (regs : List Nat) : List (Nat × Nat) :=
  if posMasked e u i then [] else regs.map (fun r => (r, i))

/-- A value of va alone. -/
def ofA (f : Uop → Nat → FRes) : VeEnv → Uop → Nat → List Nat → FRes := fun _ u _ v => f u (v.getD 0 0)
/-- A value of va and vb. -/
def ofAB (f : Uop → Nat → Nat → FRes) : VeEnv → Uop → Nat → List Nat → FRes := fun _ u _ v => f u (v.getD 0 0) (v.getD 1 0)
/-- A floating value of va and vb, on both halves of the registers in variant 1 (R228, R230). -/
def ofFloat (f : Uop → FFmt → Nat → Nat → FRes) : VeEnv → Uop → Nat → List Nat → FRes :=
  ofAB (fun u x y => if u.var % 2 = 1 then packed2 (f u bf16F) x y else f u f32F x y)
/-- A value without flags. -/
def plainVal (x : Nat) : FRes := { code := x }

/-- The micro-ops of the catalogue that act lane by lane (R228, R230, R232). A lane of SMN for which R253 states no result
takes a free value (DESIGN CHOICE, log 93). -/
def laneTable : List LaneOp :=
  [{ cmd := .mov, op := 0x01, srcs := srcsA, value := ofA (fun _ x => plainVal x) },
   { cmd := .lid, op := 0x03, srcs := srcsNone,
     value := fun e u i _ => plainVal ((if u.var = 1 then e.v.iter else i + 64 * e.v.iter) % 2 ^ 32) },
   { cmd := .fadd, op := 0x09, srcs := srcsAB, value := ofFloat (fun _ => ffAdd) },
   { cmd := .fsub, op := 0x0A, srcs := srcsAB, value := ofFloat (fun _ => ffSub) },
   { cmd := .fmul, op := 0x0B, srcs := srcsAB, value := ofFloat (fun _ => ffMul) },
   { cmd := .ffma, op := 0x0C, srcs := fun _ u i => [(u.a, i), (u.b, i), (u.d, i)],
     value := fun _ u _ v =>
       let x := v.getD 0 0; let y := v.getD 1 0; let z := v.getD 2 0
       if u.var = 1 then
         let h := ffFma bf16F (x / 65536) (y / 65536) (z / 65536)
         let l := ffFma bf16F (x % 65536) (y % 65536) (z % 65536)
         { code := h.code * 65536 + l.code, nv := h.nv || l.nv, of := h.of || l.of }
       else ffFma f32F x y z },
   { cmd := .fmnx, op := 0x0D, srcs := srcsAB, value := ofFloat (fun u => ffMnx (decide (2 ≤ u.var))) },
   { cmd := .fsgn, op := 0x0E, srcs := fun e u i => if u.var = 2 then srcsAB e u i else srcsA e u i,
     value := ofAB (fun u => fsgnLane u.var) }] ++
  [{ cmd := .frcp, op := 0x0F, srcs := srcsA, value := ofA (fun _ => ffDiv f32F 0x3F800000) },
   { cmd := .frsq, op := 0x10, srcs := srcsA, value := ofA (fun _ => ffRsqrt f32F) },
   { cmd := .fsqt, op := 0x11, srcs := srcsA, value := ofA (fun _ => ffSqrt f32F) },
   { cmd := .fdiv, op := 0x12, srcs := srcsAB, value := ofAB (fun _ => ffDiv f32F) },
   { cmd := .fexp, op := 0x13, srcs := srcsA, value := ofA (fun _ => ffExp f32F) },
   { cmd := .flog, op := 0x14, srcs := srcsA, value := ofA (fun _ => ffLog f32F) },
   { cmd := .fsig, op := 0x15, srcs := srcsA, value := ofA (fun _ => ffSig f32F) },
   { cmd := .cvt, op := 0x16, srcs := fun e u i => if u.var = 5 then srcsAB e u i else srcsA e u i,
     value := ofAB (fun u => cvtLane u.var) }] ++
  [{ cmd := .iadd, op := 0x17, srcs := srcsAB, value := ofAB (fun _ x y => plainVal ((x + y) % 2 ^ 32)) },
   { cmd := .isub, op := 0x18, srcs := srcsAB, value := ofAB (fun _ x y => plainVal ((x + 2 ^ 32 - y) % 2 ^ 32)) },
   { cmd := .imul, op := 0x19, srcs := srcsAB, value := ofAB (fun _ x y => plainVal (x * y % 2 ^ 32)) },
   { cmd := .ilog, op := 0x1A, srcs := srcsAB, value := ofAB (fun u x y => plainVal (match u.var with
       | 0 => x &&& y
       | 1 => x ||| y
       | 2 => x ^^^ y
       | _ => x &&& (2 ^ 32 - 1 - y))) },
   { cmd := .ishf, op := 0x1B, srcs := srcsAB, value := ofAB (fun u x y => plainVal (match u.var with
       | 0 => x * 2 ^ (y % 32) % 2 ^ 32
       | 1 => x / 2 ^ (y % 32)
       | _ => tcode 32 (sext 32 x / (2 ^ (y % 32) : Nat)))) },
   { cmd := .imnx, op := 0x1C, srcs := srcsAB, value := ofAB (fun u x y => plainVal (match u.var with
       | 0 => if sext 32 x < sext 32 y then y else x
       | 1 => if sext 32 y < sext 32 x then y else x
       | 2 => max x y
       | _ => min x y)) }] ++
  [{ cmd := .sel, op := 0x1F, srcs := fun e u i => [(if bit (maskGet e.c u.sel) i then u.a else u.b, i)],
     value := ofA (fun _ x => plainVal x), every := true },
   { cmd := .shf, op := 0x21, srcs := fun e u i => [(u.b, i), (u.a, (laneGet e.c u.b i).1 % 64)],
     value := fun _ _ _ v => plainVal (v.getD 1 0) },
   { cmd := .smn, op := 0x24, srcs := fun e u i => (u.b, i) :: (u.b + 1, i) :: srcsOpen e u i [u.a],
     value := fun e u i v =>
       let masked := posMasked e u i
       if smnOpen (v.getD 2 0) (v.getD 0 0) masked then plainVal ((Config.freeValue (e.s.freeCount + i)).toNat % 2 ^ 32)
       else smnLane (v.getD 2 0) (v.getD 0 0) (v.getD 1 0) masked (decide (u.var = 1)),
     every := true },
   { cmd := .smb, op := 0x25, srcs := fun e u i => (u.d, i) :: (u.d + 1, i) :: srcsOpen e u i [u.a, u.b],
     value := fun e u i v => smbLane (v.getD 2 0) (v.getD 3 0) (v.getD 0 0) (v.getD 1 0) (posMasked e u i), every := true },
   { cmd := .nrm, op := 0x26, srcs := fun e u i => (u.b, i) :: (u.b + 1, i) :: srcsOpen e u i [u.a],
     value := fun e u i v => nrmLane (v.getD 2 0) (v.getD 0 0) (v.getD 1 0) (posMasked e u i), every := true },
   { cmd := .rng, op := 0x27, srcs := srcsA, value := fun e u _ v =>
       let r := draw e.v.tok.seed (veParm e.v.desc).tensorId e.v.tok.step (v.getD 0 0)
       if u.var = 1 then ffOfInt f32F (bits r 40 24 : Int) (-24) else plainVal (bits r 32 32) }]

/-! ## The fabric -/

/-- Nothing in the fabric waits to be done: no packet waits for credits, in its input buffer, at its FI or for PCIe, no
WINDOW_SET waits for a line, tags are distinct, every op but AWAITs waits for a reply, and no fired op runs. -/
structure FabIdle (s : State) : Prop where
  queues : ∀ p, (getFab s p).queue = []
  posts : s.fab.posts = []
  loop : s.fab.loop = []
  held : s.fab.held = []
  windowSet : s.hif.wtWait = none
  tags : (s.fab.tags.map (fun t => (t.fi, t.tag))).Nodup
  ops : ∀ o ∈ s.fab.ops, byteAt o.desc 0 = 0x42 ∨ ∃ t ∈ s.fab.tags, t.owner = o.owner
  fired : s.coll.firedOps = []

/-- The fabric is idle, and no open collective has closed: none moves data. -/
structure FabQuiet (s : State) : Prop where
  idle : FabIdle s
  colls : ∀ c ∈ s.coll.colls, c.closed = false

/-- A packet of a kind for this node arrives on a port that is UP, at a module whose node id is assigned, behind a header
that can be trusted, on a channel whose input buffer holds no packet (R39, R411, R412, R417, R418). -/
structure Arrives (s : State) (p : FabPort) (b : Bytes) (kind : Nat) : Prop where
  up : portCarries s p.toNat = true
  header : headerGood b = true
  head : pkFtype b = 1
  here : localNode s (pkDst b) = true
  isKind : pkKind b = kind
  cls : kindClass kind = some (pkCls b)
  on : s.fab.en = true
  turn : channelBusy s p.toNat (pkVc b) = false

/-- A tag is outstanding. -/
def hasTag (s : State) (t : FabTag) : Prop := ∃ x ∈ s.fab.tags, x.fi = t.fi ∧ x.tag = t.tag

/-- A checked packet for a host window waits, the first that does, for PCIe to take posts, with the targets that its check
found (R424, R494). -/
def posted (s t : State) (p : FabPort) (b : Bytes) : Prop :=
  ∃ h, t.fab.posts = [h] ∧ h.at_ = s.nowNs ∧ h.fi = p.toNat ∧ h.packet = b ∧ h.targets = hostTargets s b

/-- Another packet of the op of a tag is still out. -/
def moreOut (s : State) (t : FabTag) : Prop := ∃ x ∈ s.fab.tags, x.owner = t.owner ∧ ¬(x.fi = t.fi ∧ x.tag = t.tag)

/-- A packet that left on port `q` with the end-to-end header and payload of `b` on channel `v` (R412, R421). -/
def sentOn (s : State) (q v : Nat) (b : Bytes) : Prop :=
  ∃ x, .packet q x ∈ s.out ∧ pkVc x = v ∧ (x.drop 12).take 48 = (b.drop 12).take 48 ∧ x.drop 64 = b.drop 64

/-! ## Collectives -/

/-- The fabric is idle, no packet waits for a collective to issue or close here, and none that has closed is done. -/
structure CollQuiet (s : State) : Prop where
  fab : FabIdle s
  early : s.coll.early = []
  open_ : ∀ c ∈ s.coll.colls, collDone s c = false

/-- A collective packet `b` of a kind arrives on port `p`, passes the checks of R427, comes from rank `src` of its
communicator, and belongs to the open collective `c`, with whose hash its own agrees (R458, R464); no other collective has closed. -/
structure CollArrives (s : State) (p : FabPort) (b : Bytes) (kind : Nat) (c : Coll) (src : Nat) : Prop where
  sound : Sound s
  quiet : CollQuiet s
  arrives : Arrives s p b kind
  good : orderOne b = true
  granted : (ordersTwoFour s p.toNat b true).2 = true
  exists_ : orderFive s b = true
  sender : ∃ r, commRec s (le b 50 2) = some r ∧ senderRank s r b = some src
  theirs : s.coll.colls.find? (fun c => coComm c.desc == le b 50 2 && coSeq c.desc % 65536 == le b 52 2) = some c
  first : getColl s c.id = some c
  alone : ∀ y ∈ s.coll.colls, y.closed = true → y.id = c.id
  hash : hashed kind = true → (b.drop 42).take 8 = crcBytes (coHash c.desc)

/-! ## Frames -/

/-- The parts of the state, but for the queue of commands. -/
inductive Part where
  | nowNs | freeCount | out | mem | cr | cores | blink | trn | mr | ccm | muu | muuRun | trnRun | cmd | hif | sec | fw
  | err | pwr | rst | fab | coll
  deriving DecidableEq, Repr

/-- A part is the same in two states. -/
def samePart (s t : State) : Part → Prop
  | .nowNs => t.nowNs = s.nowNs
  | .freeCount => t.freeCount = s.freeCount
  | .out => t.out = s.out
  | .mem => t.mem = s.mem
  | .cr => t.cr = s.cr
  | .cores => t.cores = s.cores
  | .blink => t.blink = s.blink
  | .trn => t.trn = s.trn
  | .mr => t.mr = s.mr
  | .ccm => t.ccm = s.ccm
  | .muu => t.muu = s.muu
  | .muuRun => t.muuRun = s.muuRun
  | .trnRun => t.trnRun = s.trnRun
  | .cmd => t.cmd = s.cmd
  | .hif => t.hif = s.hif
  | .sec => t.sec = s.sec
  | .fw => t.fw = s.fw
  | .err => t.err = s.err
  | .pwr => t.pwr = s.pwr
  | .rst => t.rst = s.rst
  | .fab => t.fab = s.fab
  | .coll => t.coll = s.coll

/-- Every part of the state. -/
def everyPart : List Part :=
  [.nowNs, .freeCount, .out, .mem, .cr, .cores, .blink, .trn, .mr, .ccm, .muu,
   .muuRun, .trnRun, .cmd, .hif, .sec, .fw, .err, .pwr, .rst, .fab, .coll]

/-- The parts that a command may write: its own registers and memories, the queues and rings that its records and events go
to, and, where it ends an op or a phase, what that end reaches. -/
def touched : Instr → List Part
  | .pointRequest .. | .railSettled .. | .clusterGate .. | .clusterWake .. | .holdNDeassert .. |
  .pwrbrkNDeassert .. | .wearReading .. | .inputHeld .. | .inputUnmasked .. => [.pwr]
  | .weightTileReady .. | .plateBoundary .. => [.cores]
  | .vendorChallenge .. | .svcUnlockExpiry .. | .keyRevocationBurn .. => [.sec]
  | .loaderPortLost .. | .revertRegionCopyDone .. => [.fw]
  | .failureLogClear .. => [.err]
  | .demotionSweep .. => [.mem, .ccm]
  | .ccmReady .. => [.mem, .mr]
  | .slotTableEnable .. => [.trn, .pwr]
  | .blockClose .. => [.mem, .cmd]
  | .awaitTimeout .. => [.cmd, .fab]
  | .portLightDetected .. | .portClockLock .. | .portCodewordLock .. | .portTrained .. | .portStateTimeout .. |
  .bypassSwitchDone .. | .opticsHotRelease .. => [.out, .fab]
  | .fabRouteTab .. => [.pwr, .fab]
  | .hifAper .. | .perstDeassert .. => [.hif, .pwr]
  | .msixUnmask .. | .configSpaceWrite .. => [.out, .hif]
  | .loopHoldTimeout .. => [.fw, .pwr]
  | .hotRelease .. | .inputLowRelease .. | .limiterRelease .. | .wakeOutputLimit .. | .bar0Read .. => [.out, .pwr]
  | .selftestDone .. => [.mem, .rst]
  | .cadenceTick .. => [.cr, .cores, .pwr]
  | .veNop .. | .mov .. | .cns .. | .lid .. | .lds .. | .sts .. | .gth .. | .sct .. | .sca .. | .fadd .. | .fsub .. |
  .fmul .. | .ffma .. | .fmnx .. | .fsgn .. | .frcp .. | .frsq .. | .fsqt .. | .fdiv .. | .fexp .. | .flog .. |
  .fsig .. | .cvt .. | .iadd .. | .isub .. | .imul .. | .ilog .. | .ishf .. | .imnx .. | .fcmp .. | .icmp .. |
  .sel .. | .kop .. | .shf .. | .rup .. | .rug .. | .smb .. | .nrm .. | .rng .. => [.mem, .cr, .cores]
  | .doorbellPoll .. => [.out, .cmd, .fab]
  | .portLost .. => [.cmd, .hif, .fab]
  | .serviceConnectorRead .. => [.freeCount, .out, .sec]
  | .fwuSwitch .. => [.freeCount, .sec, .fw]
  | .powerLoopTick .. | .thermalLoopTick .. => [.out, .fw, .pwr]
  | .plateVisible .. | .smn .. => [.freeCount, .mem, .cr, .cores]
  | .stragglerDeadline .. => [.mem, .trn, .muuRun, .trnRun]
  | .cmdWake .. => [.out, .cmd, .pwr, .fab]
  | .opNop .. | .wait .. => [.cores, .cmd, .pwr, .coll]
  | .coalesceWindowEnd .. => [.out, .hif, .fw, .err]
  | .rowBlockDone .. | .plateHoldRelease .. => [.mem, .cr, .cores, .blink, .cmd]
  | .muuCombine .. => [.trn, .muu, .trnRun, .cmd, .coll]
  | .portReturn .. | .fastPower .. | .overcurrent .. | .hot .. | .inputLow .. | .holdNAssert .. | .pwrbrkNAssert .. |
  .wakeInN .. | .slotIdChange .. => [.out, .hif, .fw, .err, .pwr]
  | .param .. => [.out, .hif, .fw, .err, .fab]
  | .mctpControl .. | .hello .. | .loadBegin .. | .loadData .. | .loadEnd .. | .configSet .. | .eventRingSet .. |
  .certRead .. | .mlogRead .. | .faillogRead .. | .sensorRead .. | .powerReq .. | .fwuStage .. | .fwuVerify .. |
  .fwuActivate .. | .fwuAbort .. | .fwuStatus .. | .mbxDoneClear .. | .fwuConfirm .. => [.out, .hif, .sec, .fw, .pwr]
  | .hotReset .. => [.cmd, .hif, .pwr, .rst, .fab]
  | .guardStepDown .. => [.out, .cr, .hif, .fw, .err, .pwr]
  | .veSolve .. => [.mem, .cr, .cores, .cmd, .pwr, .coll]
  | .truncate .. => [.mem, .cores, .ccm, .cmd, .pwr, .coll]
  | .patrolScrub .. => [.out, .mem, .mr, .hif, .fw, .err]
  | .bar4Write .. => [.out, .mem, .hif, .fw, .err, .pwr]
  | .moduleRstNDeassert .. | .railFailRetry .. => [.out, .hif, .sec, .fw, .pwr, .rst]
  | .lpaMatmul .. | .coResidentGroup .. | .pqStall .. | .veRun .. =>
    [.freeCount, .mem, .cr, .cores, .cmd, .pwr, .coll]
  | .promote .. => [.mem, .cores, .mr, .ccm, .cmd, .pwr, .coll]
  | .nop .. | .copy .. | .serviceRequest .. | .attest .. | .windowSet .. => [.out, .mem, .cmd, .hif, .fw, .err, .fab]
  | .bar4Read .. => [.out, .mem, .mr, .hif, .fw, .err, .pwr]
  | .fwuRevert .. => [.out, .cmd, .hif, .sec, .fw, .err, .pwr]
  | .monitorSweep .. => [.out, .cr, .hif, .fw, .err, .pwr, .rst]
  | .enterConfigWait .. => [.out, .mem, .cr, .mr, .hif, .fw, .err]
  | .doorbellRead .. | .queueClaim .. | .queueRelease .. | .queueEnable .. | .queueDisable .. =>
    [.out, .mem, .cmd, .hif, .fw, .err, .pwr, .fab]
  | .descriptorFetch .. | .ownerClaim .. | .ownerRotate .. | .keyInstall .. | .keyRevoke .. | .svcUnlock .. |
  .svcLock .. | .svnCommit .. | .mrExtend .. => [.out, .mem, .cmd, .hif, .sec, .fw, .err, .fab]
  | .runStream .. | .streamAdmit .. | .queueReassign .. => [.out, .mem, .cmd, .hif, .fw, .err, .fab, .coll]
  | .meridianFlip .. => [.out, .mem, .trn, .cmd, .hif, .fw, .err, .fab]
  | .ccWatchdog .. => [.freeCount, .out, .cmd, .hif, .sec, .fw, .err, .pwr]
  | .perstAssert .. => [.out, .cmd, .hif, .fw, .err, .pwr, .rst, .fab]
  | .copyCompletion .. => [.out, .mem, .mr, .cmd, .hif, .fw, .err, .fab]
  | .ccmMove .. | .ccmEnable .. => [.out, .mem, .cores, .mr, .ccm, .hif, .fw, .err, .pwr]
  | .meridianRollback .. => [.out, .mem, .trn, .trnRun, .cmd, .hif, .fw, .err, .fab]
  | .blinkSample .. => [.out, .mem, .cr, .blink, .mr, .cmd, .hif, .fw, .err, .pwr]
  | .blockStart .. | .preemptMinExpiry .. | .blockEnd .. =>
    [.freeCount, .out, .mem, .cr, .cores, .cmd, .hif, .fw, .err, .fab]
  | .coreNoProgress .. | .unitFails .. => [.out, .mem, .cr, .cores, .ccm, .cmd, .hif, .fw, .err, .fab, .coll]
  | .coeStage .. => [.out, .mem, .cr, .cores, .mr, .cmd, .hif, .fw, .err, .pwr, .coll]
  | .append .. | .fetch .. => [.out, .mem, .cores, .mr, .ccm, .cmd, .hif, .fw, .err, .pwr, .coll]
  | .deferralRecheck .. => [.freeCount, .out, .mem, .trn, .mr, .muu, .muuRun, .trnRun, .cmd, .hif, .fw, .err]
  | .phaseStart .. => [.out, .mem, .cores, .trn, .trnRun, .cmd, .hif, .fw, .err, .pwr, .fab, .coll]
  | .replan .. => [.out, .mem, .cr, .cores, .ccm, .cmd, .hif, .fw, .err, .pwr, .fab, .coll]
  | .sramScrub .. => [.out, .mem, .cr, .cores, .mr, .ccm, .cmd, .hif, .fw, .err, .pwr, .fab, .coll]
  | .muuPassOne .. | .muuPassTwo .. =>
    [.freeCount, .out, .mem, .trn, .mr, .muu, .muuRun, .trnRun, .cmd, .hif, .fw, .err, .coll]
  | .phaseComplete .. => [.out, .mem, .cr, .cores, .trn, .trnRun, .cmd, .hif, .fw, .err, .pwr, .fab, .coll]
  | .streamAbort .. | .phaseWatchdog .. | .await .. | .quiesceTimeout .. =>
    [.out, .mem, .cr, .cores, .blink, .trn, .ccm, .muuRun, .trnRun, .cmd, .hif, .fw, .err, .pwr, .fab, .coll]
  | .dmaCopy .. | .put .. | .get .. | .roleSet .. | .fabricTimeout .. | .write .. | .readReq .. | .readData .. |
  .ack .. | .fwdWrite .. | .idle .. | .routerForward .. | .hostSinkTimeout .. | .linkDrop .. | .fabPortCfg .. |
  .fabBypass .. | .allReduce .. | .reduceScatter .. | .allGather .. | .reduce .. | .broadcast .. | .barrier .. |
  .allToAllv .. | .collReady .. | .join .. | .collDeadline .. | .close .. | .data .. | .segmentCombine .. |
  .result .. | .credit .. | .abort .. | .a2aData .. | .a2aCount .. | .collTimeout .. | .trigArm .. |
  .triggerFire .. | .pcieCompletion .. | .completionTimeout .. | .opticsHot .. | .topNodeId .. =>
    [.out, .mem, .cr, .cores, .blink, .trn, .mr, .ccm, .muuRun, .trnRun, .cmd, .hif, .fw, .err, .pwr, .fab, .coll]
  | .opComplete .. =>
    [.freeCount, .out, .mem, .cr, .cores, .blink, .trn, .ccm, .muuRun, .trnRun, .cmd, .hif, .fw, .err, .pwr, .fab,
     .coll]
  | .closedEntry .. | .parkedEntry .. =>
    [.freeCount, .out, .mem, .cr, .cores, .blink, .trn, .mr, .ccm, .muuRun, .trnRun, .cmd, .hif, .fw, .err, .pwr,
     .fab, .coll]
  | .closedExit .. =>
    [.out, .mem, .cr, .cores, .blink, .trn, .mr, .ccm, .muu, .muuRun, .trnRun, .cmd, .hif, .fw, .err, .pwr, .fab,
     .coll]
  | .counterWaitRelease .. =>
    [.freeCount, .out, .mem, .cr, .cores, .blink, .trn, .mr, .ccm, .muu, .muuRun, .trnRun, .cmd, .hif, .fw, .err,
     .pwr, .fab, .coll]
  | .registerWrite .. =>
    [.out, .mem, .cr, .cores, .blink, .trn, .mr, .ccm, .muu, .muuRun, .trnRun, .cmd, .hif, .sec, .fw, .err, .pwr,
     .fab, .coll]
  | .thermalTrip .. | .inputTrip .. | .parkedExit .. | .moduleRstNAssert .. | .powerOn .. | .inputTripRecovery .. |
  .railFail .. | .vaoLoss .. => everyPart

end Sys2Proof.Machine
end

