-- ==== Sys2Proof/Certificates/Slice0/Obligations.lean ====
section
/-! DEFINITION. The statements for the provers: what each command does, what it leaves, and what every step keeps. -/

open Sys2Proof Sys2Proof.Machine

/-! ## Steps and the whole machine -/

/-- A step takes the command at the front of the queue and runs it with the queue's rest. -/
def Obligations.StepRunsFront : Prop :=
  ∀ (c : Instr) (cs : List Instr) (s : State), s.pending = c :: cs → step s = exec c { s with pending := cs }

/-- The model's choice (log entry 1): while no command waits, a step is one nanosecond, in which nothing but the clock,
the powered time of the failure log and ALERT_N moves: the state is the same in everything else. -/
def Obligations.IdleStepIsANanosecond : Prop :=
  ∀ s : State, s.pending = [] → ∃ out alert,
    step s = .next { s with
      nowNs := s.nowNs + 1, out
      err := { s.err with poweredNs := if s.rst.supply = .off then s.err.poweredNs else s.err.poweredNs + 1 }
      pwr := { s.pwr with alert } } ∧
    ((out = s.out ∧ alert = s.pwr.alert) ∨
      (s.rst.supply ≠ .off ∧ out = s.out ++ [.pin "ALERT_N" alert.isSome] ∧ alert.isSome = !s.pwr.alert.isSome))

/-- No command touches the queue of commands: each leaves it as the step handed it over. -/
def Obligations.CommandsLeaveTheQueue : Prop :=
  ∀ (c : Instr) (s : State), ∃ t, exec c s = .next t ∧ t.pending = s.pending

/-- Every step keeps a state sound: memory in canonical form, the keys of every map rising, measurement registers of 64
bytes. -/
def Obligations.StepKeepsStateSound : Prop := ∀ s t : State, Sound s → step s = .next t → Sound t

/-- R498: no step lowers min_svn, and a step that raises it is an SVN_COMMIT, which sets it to the running svn. -/
def Obligations.MinSvnNeverFalls : Prop :=
  ∀ s t : State, step s = .next t → s.sec.minSvn ≤ t.sec.minSvn ∧
    (s.sec.minSvn < t.sec.minSvn → ∃ q cs, s.pending = .svnCommit q :: cs ∧ t.sec.minSvn = s.sec.svn)

/-- R493, R498, R504: what may change the Window Table, the owner and the revoked vendor keys, over every command: the
table changes by WINDOW_SET or is emptied by a command that resets the module or takes its power, the owner by the ownership commands, a revoked key stays revoked and
only a burn at vendor level revokes one. -/
def Obligations.ProtectedStateChanges : Prop :=
  ∀ (c : Instr) (s t : State), exec c s = .next t →
    (t.hif.wt = s.hif.wt ∨ (t.hif.wt = [] ∧ touched c = everyPart) ∨ ∃ q, c = .windowSet q) ∧
    (t.sec.owner = s.sec.owner ∨ (∃ q, c = .ownerClaim q) ∨ ∃ q, c = .ownerRotate q) ∧
    (∀ i, s.sec.keyRevoked.getLsbD i = true → t.sec.keyRevoked.getLsbD i = true) ∧
    (t.sec.keyRevoked = s.sec.keyRevoked ∨ (s.sec.svc = 2 ∧ ∃ k, c = .keyRevocationBurn k))

/-- R16, R600: a locked node id and a locked designation stay as they are under every command that is no module reset of R571,
port resets, trips and a successful Parked exit among them; writes that lock apply the fields they hold; a write to a locked
field changes nothing and raises no error; a reserved id is ignored with its lock bit, and after 0xFFFF is locked no port carries
packets; power-on and MODULE_RST_N clear the locks. -/
def Obligations.LocksHoldUntilModuleReset : Prop :=
  (∀ (c : Instr) (s t : State), exec c s = .next t → (∀ kept, c ≠ .moduleRstNAssert kept) → (∀ slot, c ≠ .powerOn slot) →
    c ≠ .inputTripRecovery → (∀ loaded, c = .parkedExit loaded → (loaded && parkedGood s) = true ∨ exitDue s 4 = false) →
    (s.fab.nodeLock = true → t.fab.nodeLock = true ∧ t.fab.nodeId = s.fab.nodeId) ∧
    (s.fab.bypLock = true → t.fab.bypLock = true ∧ t.fab.designate = s.fab.designate)) ∧
  ∀ (p : HPort) (s : State), hostPath s p = .served →
    (∀ v : BitVec 32, s.fab.nodeLock = true → Gives (.topNodeId p v) s fun t => t = s) ∧
    (∀ v : BitVec 32, s.fab.nodeLock = false → v.getLsbD 31 = true →
      ¬(0xFFF0 ≤ v.toNat % 65536 ∧ v.toNat % 65536 ≤ 0xFFFE) → Gives (.topNodeId p v) s fun t =>
        t.fab.nodeId = v.setWidth 16 ∧ t.fab.nodeLock = true ∧
        (v.toNat % 65536 = 0xFFFF → ∀ n, portCarries t n = false)) ∧
    (∀ v : BitVec 32, 0xFFF0 ≤ v.toNat % 65536 → v.toNat % 65536 ≤ 0xFFFE → Gives (.topNodeId p v) s fun t => t = s) ∧
    (s.fab.nodeLock = false → Gives (.topNodeId p 0x80000042) s fun t => t.fab.nodeId = 0x0042 ∧ t.fab.nodeLock = true) ∧
    (∀ v : BitVec 32, Sound s → FabQuiet s → Gives (.fabBypass p v) s fun t => t.err = s.err ∧
      t.fab.designate = (if s.fab.bypLock then s.fab.designate else v.extractLsb' 0 8) ∧
      (v.getLsbD 31 = true → t.fab.bypLock = true)) ∧
    (∀ kept : Bool, (sideIn s 5).asserted = false → (sideIn s 5).masked = false → sideSoon s (sideIn s 5) = false →
      Gives (.moduleRstNAssert kept) s fun t => t.fab.nodeLock = false ∧ t.fab.bypLock = false) ∧
    (∀ slot : BitVec 4, Gives (.powerOn slot) { s with rst := { s.rst with supply := .off } } fun t =>
      t.fab.nodeLock = false ∧ t.fab.bypLock = false)

/-- R591, R592: over every command the failure log only grows, by entries of 64 bytes in seq order, to at most 8,192, but
for the vendor's clear; entries of kinds 1 to 3 are always written, and every other kind only while more than 4,160
entries remain free, and is counted as lost otherwise. -/
def Obligations.FailureLogKeepsItsEntries : Prop :=
  (∀ (c : Instr) (s t : State), exec c s = .next t → s.err.failLog.length ≤ 8192 →
    t.err.failLog.length ≤ 8192 ∧
    ((∃ l, t.err.failLog = s.err.failLog ++ l ∧
        ∀ i < l.length, (l.getD i []).length = 64 ∧ le (l.getD i []) 0 4 = s.err.failLog.length + i) ∨
      (c = .failureLogClear ∧ s.sec.svc = 2 ∧ t.err.failLog = []))) ∧
  ∀ (s : State) (kind : Nat) (st : Status) (unit addr : Nat), 1 ≤ kind → kind ≤ 10 →
    let free := 8192 - s.err.failLog.length
    let t := logFailure s kind st unit addr
    (kind ≤ 3 → 0 < free → logged s t kind ∧ t.err.lost = s.err.lost) ∧
    (3 < kind → 4160 < free → logged s t kind ∧ t.err.lost = s.err.lost) ∧
    (3 < kind → free ≤ 4160 → t.err.failLog = s.err.failLog ∧ t.err.lost = satAdd s.err.lost 1)

/-- The frame of every command that stores nothing in module memory: each part of the state that `touched` does not list
is as it was, all of memory among them. -/
def Obligations.FramesWithoutStores : Prop :=
  ∀ (c : Instr) (s t : State), exec c s = .next t → Part.mem ∉ touched c → ∀ p, p ∉ touched c → samePart s t p

/-- The frame of every command that may store in module memory: each part that `touched` does not list is as it was. Where
the bytes go, the statements about each command say. -/
def Obligations.FramesWithStores : Prop :=
  ∀ (c : Instr) (s t : State), exec c s = .next t → Part.mem ∈ touched c → ∀ p, p ∉ touched c → samePart s t p

/-! ## Queues, records and the platform's descriptors (chapters 11 and 15) -/

/-- R368 to R371 for a NOP on a queue whose completion ring lies in its host's memory: the record's 16 bytes go to entry
cq_tail mod the ring's entries, cq_tail rises, the phase inverts at the ring's end, and with irq = 1 the queue's vector
fires behind the record. R356, R361, R490: where the ring lies in module memory (loc = 1) the bytes go to that entry and no
vector fires; where the Window Table does not grant it, nothing is written and the queue is in error; where it lies in a peer, they
leave as a WRITE to it. R370 and R401: a record that finds the completion ring full is held, and the queue starts no
further descriptor; an orphaned queue holds up to 64 records and discards the rest with a count. -/
def Obligations.RecordsAreWrittenOrHeld : Prop :=
  (∀ (q : QueueId) (s : State) (f : Fetched) (p : HPort), Sound s →
      startDesc s q.toNat 0x0000 = some f →
      (getQueue s q.toNat).orphaned = false → (getQueue s q.toNat).held = [] → 0 < cqSpace (getQueue s q.toNat) →
      ringLoc (getQueue s q.toNat).cq = false → ownerPort (getQueue s q.toNat).owner = some p →
      let Q := getQueue s q.toNat
      let i := Q.cqTail.toNat % ringLen Q.cq
      let rec_ := [BitVec.ofNat 8 q.toNat, if Q.phase then 1 else 0] ++ leBytes 2 (f.index.toNat % 65536) ++ [0, 0, 0, 0] ++
        leBytes 8 s.nowNs
      let fires := flag f.desc 2 1 && !(flag (smGet msixDefault (getPort s p).msix Q.msix.toNat) 12 0) && (getPort s p).linkUp
      Gives (.nop q) s fun t =>
        Answered s t q.toNat f true [] ∧
        t.out = s.out ++ .hostWrite p (ringBase Q.cq + 16 * i) rec_ false :: (if fires then [.msix p Q.msix.toNat] else []) ∧
        (getQueue t q.toNat).cqTail = Q.cqTail + 1 ∧
        (getQueue t q.toNat).phase = (if i + 1 = ringLen Q.cq then !Q.phase else Q.phase)) ∧
  (∀ (q : QueueId) (s : State) (f : Fetched), Sound s → startDesc s q.toNat 0x0000 = some f →
      (getQueue s q.toNat).orphaned = false → (getQueue s q.toNat).held = [] → 0 < cqSpace (getQueue s q.toNat) →
      ringLoc (getQueue s q.toNat).cq = true →
      let Q := getQueue s q.toNat
      let a := ringBase Q.cq + 16 * (Q.cqTail.toNat % ringLen Q.cq)
      let rec_ := recordBytes q.toNat Q (plainRecord s f .ok)
      (localNode s (gNode a) = true → cmdGrants s true (gLocal a) 16 = true → canAccess s .dram (gLocal a) 16 = true →
        Gives (.nop q) s fun t => Answered s t q.toNat f true [] ∧ memRead t.mem (gLocal a) 16 = rec_ ∧ t.out = s.out ∧
          (getQueue t q.toNat).cqTail = Q.cqTail + 1 ∧ (getQueue t q.toNat).err = Q.err) ∧
      (localNode s (gNode a) = true → cmdGrants s true (gLocal a) 16 = false → Gives (.nop q) s fun t =>
        getDesc t q.toNat f.uid = none ∧ t.mem = s.mem ∧ (getQueue t q.toNat).err = true) ∧
      (∀ n dl, FabIdle s → WayOut s (gNode a) 0 16 false n dl → Gives (.nop q) s fun t =>
        getDesc t q.toNat f.uid = none ∧ t.mem = s.mem ∧ leftFor t n 0 a fun x => pkPayload x = rec_)) ∧
  (∀ (q : QueueId) (s : State) (f : Fetched), Sound s → startDesc s q.toNat 0x0000 = some f →
      let Q := getQueue s q.toNat
      let r := plainRecord s f .ok
      (Q.orphaned = false → cqSpace Q = 0 → Gives (.nop q) s fun t =>
        Answered s t q.toNat f true [] ∧ (getQueue t q.toNat).held = Q.held ++ [r] ∧ t.out = s.out ∧
        (Q.err = false → nextDesc t q.toNat = none)) ∧
      (Q.orphaned = true → Q.held.length < 64 → Gives (.nop q) s fun t =>
        Answered s t q.toNat f true [] ∧ (getQueue t q.toNat).held = Q.held ++ [r] ∧ t.out = s.out) ∧
      (Q.orphaned = true → 64 ≤ Q.held.length → Gives (.nop q) s fun t =>
        Answered s t q.toNat f true [] ∧ (getQueue t q.toNat).held = Q.held ∧ t.out = s.out ∧
        t.cmd.discarded = satAdd s.cmd.discarded 1))

/-- R361, R362: the effects of QUEUE_CLAIM, QUEUE_ENABLE, QUEUE_DISABLE and QUEUE_RELEASE by a port whose link is up. A
claim takes an unowned queue; enabling sets head, cq_tail and err to 0 and the phase to 1 and reads the doorbell word, of a queue
whose doorbell lies in a peer with a READ_REQ to it (R356); disabling stops fetching; the owner gives a disabled queue back. -/
def Obligations.QueueContextWrites : Prop :=
  ∀ (p : HPort) (q : QueueId) (s : State), Sound s → hostPath s p = .served →
    let n := q.toNat
    let Q := getQueue s n
    (Q.owner = 0 → Gives (.queueClaim p q) s fun t =>
      (getQueue t n).owner = portOwner p ∧ (getQueue t n).en = Q.en ∧ t.mem = s.mem ∧ t.out = s.out) ∧
    (Q.owner = portOwner p → Q.en = false → Q.held = [] → s.cmd.dbReads.contains n = false →
      ∀ (k : Bool) (m v : BitVec 8), Gives (.queueEnable p q k m v) s fun t =>
        (getQueue t n).en = true ∧ (getQueue t n).head = 0 ∧ (getQueue t n).cqTail = 0 ∧ (getQueue t n).err = false ∧
        (getQueue t n).phase = true ∧ (getQueue t n).msix = m ∧ (getQueue t n).svc = v ∧
        (getQueue t n).kind = (if Q.fetched.isEmpty then k else Q.kind) ∧ t.mem = s.mem ∧
        (peerDoorbell s Q = false → t.out = s.out ++ [.doorbellRead n]) ∧
        (∀ f dl, peerDoorbell s Q = true → FabIdle s → WayOut s (gNode (dbAddr Q.db)) 0 0 true f dl → leftFor t f 1 (dbAddr Q.db) fun x => pkPlen x = 8)) ∧
    (Q.owner = portOwner p → Q.en = true → Gives (.queueDisable p q) s fun t =>
      (getQueue t n).en = false ∧ fetchable (getQueue t n) = 0 ∧ (getQueue t n).fetched = Q.fetched ∧ t.mem = s.mem) ∧
    (Q.owner = portOwner p → Q.en = false → Gives (.queueRelease p q) s fun t =>
      (getQueue t n).owner = 0 ∧ t.mem = s.mem ∧ t.out = s.out)

/-- R358 to R362: CMD_WAKE and the poll read doorbell words; a doorbell word sets sq_tail and cq_head; a fetched
descriptor that passes every check waits in the queue, and head advances past it. R361: a doorbell word that shows more
descriptors than the submission ring holds, or fewer records consumed than the completion ring can hold, puts the queue in
error, and fetching stops. R356, R490: of a loc = 1 queue the words and the descriptors are those that module memory holds, where
the Window Table grants them, or those that a peer has sent, which a READ_REQ asks for. R508 to R510: a keyed descriptor whose tag
matches passes when its counter is above SEC_QCTR, which then takes it; a stale counter, a tag under no key, and an unkeyed
descriptor of an opcode that needs one complete without effect with their status and a count. That what a peer answers lands in no
memory is the model's choice (log 91). -/
def Obligations.DoorbellsAndFetch : Prop :=
  (∀ (s : State), Sound s →
      (∀ (p : HPort) (q : QueueId), hostPath s p = .served → s.pwr.entry = none →
        (getQueue s q.toNat).owner = portOwner p → (getQueue s q.toNat).en = true → (getQueue s q.toNat).orphaned = false →
        let a := dbAddr (getQueue s q.toNat).db
        (peerDoorbell s (getQueue s q.toNat) = false → s.cmd.dbReads.contains q.toNat = false →
          Gives (.cmdWake p (BitVec.ofNat 32 q.toNat)) s fun t =>
            t.out = s.out ++ [.doorbellRead q.toNat] ∧ t.cmd.dbReads = s.cmd.dbReads ++ [q.toNat] ∧ t.mem = s.mem) ∧
        (∀ f dl, peerDoorbell s (getQueue s q.toNat) = true → peerBusy s q.toNat false = false → FabIdle s →
          WayOut s (gNode a) 0 0 true f dl → Gives (.cmdWake p (BitVec.ofNat 32 q.toNat)) s fun t =>
            t.mem = s.mem ∧ leftFor t f 1 a fun x => pkPlen x = 8)) ∧
      (s.cmd.lastPoll + 1000 * max 1 (s.cmd.cfg.toNat % 4096) ≤ s.nowNs → Gives .doorbellPoll s fun t =>
        t.cmd.lastPoll = s.nowNs ∧ t.mem = s.mem ∧ t.cmd.queues = s.cmd.queues ∧
        ∀ n < 256, (getQueue s n).en = true → (getQueue s n).orphaned = false → (getQueue s n).db.getLsbD 0 = true →
          peerDoorbell s (getQueue s n) = false → n ∈ t.cmd.dbReads) ∧
      (∀ (q : QueueId) (w : BitVec 64), s.cmd.dbReads.contains q.toNat = true → (getQueue s q.toNat).en = true →
        (getQueue s q.toNat).orphaned = false → ringLoc (getQueue s q.toNat).sq = false → (getQueue s q.toNat).held = [] →
        let Q := getQueue s q.toNat
        (w.setWidth 32 - Q.head).toNat ≤ ringLen Q.sq → (Q.cqTail - (w >>> 32).setWidth 32).toNat ≤ ringLen Q.cq →
        Gives (.doorbellRead q (some w)) s fun t =>
          (getQueue t q.toNat).tail = w.setWidth 32 ∧ (getQueue t q.toNat).cqHead = (w >>> 32).setWidth 32 ∧
          (getQueue t q.toNat).err = Q.err ∧ t.cmd.dbReads.contains q.toNat = false ∧ t.mem = s.mem) ∧
      (∀ (q : QueueId) (d : Bytes), quiescing s = false → cmdReady s = true → 0 < fetchable (getQueue s q.toNat) →
        ringLoc (getQueue s q.toNat).sq = false → d.length = 64 → dsKeyed d = false → keyNeed (dsOp d) = 0 →
        descCheck (getQueue s q.toNat) d = none →
        Gives (.descriptorFetch q [some d]) s fun t =>
          (getQueue t q.toNat).head = (getQueue s q.toNat).head + 1 ∧
          ((getQueue t q.toNat).fetched.map (·.desc)) = (getQueue s q.toNat).fetched.map (·.desc) ++ [d] ∧
          t.mem = s.mem ∧ t.cmd.completed = s.cmd.completed)) ∧
  (∀ (q : QueueId) (w : BitVec 64) (s : State), Sound s → s.cmd.dbReads.contains q.toNat = true →
      (getQueue s q.toNat).en = true → (getQueue s q.toNat).orphaned = false → ringLoc (getQueue s q.toNat).sq = false →
      (ringLen (getQueue s q.toNat).sq < (w.setWidth 32 - (getQueue s q.toNat).head).toNat ∨
        ringLen (getQueue s q.toNat).cq < ((getQueue s q.toNat).cqTail - (w >>> 32).setWidth 32).toNat) →
      Gives (.doorbellRead q (some w)) s fun t =>
        (getQueue t q.toNat).err = true ∧ fetchable (getQueue t q.toNat) = 0 ∧
        ((getQueue s q.toNat).held = [] → t.mem = s.mem)) ∧
  (∀ (q : QueueId) (s : State), Sound s →
      let n := q.toNat
      let Q := getQueue s n
      let a := dbAddr Q.db
      let at_ := ringBase Q.sq + 64 * (Q.head.toNat % ringLen Q.sq)
      let took := fun (t : State) (w : Bytes) => (getQueue t n).tail.toNat = le w 0 4 ∧ (getQueue t n).cqHead.toNat = le w 4 4 ∧
        (getQueue t n).err = Q.err ∧ t.mem = s.mem
      let fits := fun (w : Bytes) => (BitVec.ofNat 32 (le w 0 4) - Q.head).toNat ≤ ringLen Q.sq ∧
        (Q.cqTail - BitVec.ofNat 32 (le w 4 4)).toNat ≤ ringLen Q.cq
      let fetched := fun (t : State) (d : Bytes) => (getQueue t n).head = Q.head + 1 ∧ t.mem = s.mem ∧
        (getQueue t n).fetched.map (·.desc) = Q.fetched.map (·.desc) ++ [d]
      let plain := fun (d : Bytes) => d.length = 64 ∧ dsKeyed d = false ∧ keyNeed (dsOp d) = 0 ∧ descCheck Q d = none
      (ringLoc Q.sq = true → Q.en = true → Q.orphaned = false → Q.held = [] →
        (∀ w, peerDoorbell s Q = false → s.cmd.dbReads.contains n = true →
          (cmdGrants s false (gLocal a) 8 = false → Gives (.doorbellRead q w) s fun t => (getQueue t n).err = true ∧ t.mem = s.mem) ∧
          (cmdGrants s false (gLocal a) 8 = true → region (gLocal a) = .dram → (read s .dram (gLocal a) 8).err = none →
            fits (memRead s.mem (gLocal a) 8) → Gives (.doorbellRead q w) s fun t => took t (memRead s.mem (gLocal a) 8))) ∧
        (∀ w (b : PeerData), peerDoorbell s Q = true → (takePeer s n false).2 = some b → b.poison = 0 → b.data.length = 8 →
          fits b.data → Gives (.doorbellRead q w) s fun t => took t b.data ∧ (takePeer t n false).2 = none) ∧
        (quiescing s = false → cmdReady s = true → fetchable Q = 1 →
          (peerRing s Q = false → cmdGrants s false (gLocal at_) 64 = true → region (gLocal at_) = .dram →
            (read s .dram (gLocal at_) 64).err = none → plain (memRead s.mem (gLocal at_) 64) →
            Gives (.descriptorFetch q []) s fun t => fetched t (memRead s.mem (gLocal at_) 64)) ∧
          (∀ b : PeerData, peerRing s Q = true → (takePeer s n true).2 = some b → b.poison = 0 → plain b.data →
            Gives (.descriptorFetch q []) s fun t => fetched t b.data) ∧
          (∀ f dl, peerRing s Q = true → (takePeer s n true).2 = none → peerBusy s n true = false → FabIdle s →
            WayOut s (gNode at_) 0 0 true f dl → Gives (.descriptorFetch q []) s fun t =>
              t.mem = s.mem ∧ leftFor t f 1 at_ fun x => pkPlen x = 64)))) ∧
  (∀ (q : QueueId) (d : Bytes) (s : State), Sound s → quiescing s = false → cmdReady s = true →
      0 < fetchable (getQueue s q.toNat) → ringLoc (getQueue s q.toNat).sq = false → d.length = 64 →
      let n := q.toNat
      let Q := getQueue s n
      let f : Fetched := { uid := s.cmd.nextUid, index := Q.head, desc := d, arrival := s.nowNs, started := true, payload := [] }
      let refused := fun (t : State) (st : Status) => (getQueue t n).head = Q.head + 1 ∧ (getQueue t n).fetched = Q.fetched ∧
        t.cmd.rejected = satAdd s.cmd.rejected 1 ∧ t.sec.qctr = s.sec.qctr ∧ Reports s t n (plainRecord s f st)
      (dsKeyed d = false → keyNeed (dsOp d) ≠ 0 → Q.fetched.all (fun g => g.uid != s.cmd.nextUid) = true →
        Gives (.descriptorFetch q [some d]) s fun t => refused t .keyFail ∧ t.sec.keyFails = satAdd s.sec.keyFails 1) ∧
      (dsKeyed d = true → dsOp d ≠ 0x0105 → Q.fetched.all (fun g => g.uid != s.cmd.nextUid) = true →
        (s.sec.rootKey = none → s.sec.opKey = none → Gives (.descriptorFetch q [some d]) s fun t =>
          refused t .keyFail ∧ t.sec.keyFails = satAdd s.sec.keyFails 1) ∧
        (∀ k, s.sec.rootKey = some k → descTag k n d [] = dsTag d →
          (dsCounter d ≤ (smGet 0 s.sec.qctr n).toNat → Gives (.descriptorFetch q [some d]) s fun t =>
            refused t .counterStale ∧ t.sec.stale = satAdd s.sec.stale 1) ∧
          ((smGet 0 s.sec.qctr n).toNat < dsCounter d → descCheck Q d = none → Gives (.descriptorFetch q [some d]) s fun t =>
            (smGet 0 t.sec.qctr n).toNat = dsCounter d ∧ (∀ j, j ≠ n → smGet 0 t.sec.qctr j = smGet 0 s.sec.qctr j) ∧
            (getQueue t n).head = Q.head + 1 ∧ t.mem = s.mem ∧
            (getQueue t n).fetched.map (·.desc) = Q.fetched.map (·.desc) ++ [d]))))

/-- R498 (SVN_COMMIT) and R499 (MR_EXTEND): SVN_COMMIT sets min_svn to the running svn where that is higher; MR_EXTEND
puts SHAKE256(MR7 ∥ 7 ∥ digest) in MR7. Neither changes another part of the security state but the measurement log. R503
and R516: ATTEST writes the 5,120-byte quote, and nothing else, while the module has not been opened; after an unlock it
completes without effect with KEY_FAIL. -/
def Obligations.MeasurementsAndQuote : Prop :=
  (∀ (q : QueueId) (s : State) (f : Fetched), Sound s →
      (startDesc s q.toNat 0x0108 = some f → Gives (.svnCommit q) s fun t =>
        t.sec = { s.sec with minSvn := if s.sec.minSvn < s.sec.svn then s.sec.svn else s.sec.minSvn } ∧
        Answered s t q.toNat f true []) ∧
      (startDesc s q.toNat 0x0109 = some f → secAddr f.desc % 64 = 0 → (read s .dram (secAddr f.desc) 64).err = none →
        Gives (.mrExtend q) s fun t =>
          getMr t 7 = shake256 (getMr s 7 ++ [7, 0, 0, 0] ++ memRead s.mem (secAddr f.desc) 64) ∧
          (∀ i, i ≠ 7 → getMr t i = getMr s i) ∧
          t.sec = { s.sec with mrs := t.sec.mrs, mlog := t.sec.mlog, logTrunc := t.sec.logTrunc } ∧
          Answered s t q.toNat f true [])) ∧
  (∀ (q : QueueId) (s : State) (f : Fetched), Sound s → startDesc s q.toNat 0x0100 = some f →
      let a := secAddr f.desc
      (a % 64 = 0 → canAccess s .dram a 5120 = true → s.sec.opened = false → s.sec.aliasKey = true → f.desc.length = 64 →
        Gives (.attest q) s fun t =>
          (∀ i < 5120, Outside (recordSpan s q.toNat) (a + i) →
            memByte t.mem (a + i) = byteAt (quote s ((f.desc.drop 24).take 24)) i) ∧ t.sec = s.sec ∧
          Answered s t q.toNat f true [(a, 5120)]) ∧
      (s.sec.opened = true → Gives (.attest q) s fun t => t.sec = s.sec ∧ Answered s t q.toNat f false [] ∧
        (a % 64 = 0 → canAccess s .dram a 5120 = true → Reports s t q.toNat (plainRecord s f .keyFail))))

/-- R504: OWNER_CLAIM takes the public key of an unclaimed module and sets owner_seq to 0; while an owner is claimed it
completes without effect with KEY_FAIL. An accepted OWNER_ROTATE takes the new key (none for zeros) and its owner_seq.
Every change of owner erases both command-key slots and extends MR4. R506: an accepted KEY_INSTALL block replaces the key
of its slot and extends MR5; a block that fails a check leaves every slot and completes with KEY_FAIL; KEY_REVOKE erases one slot
and extends MR5 over the erased key's fingerprint, which is the model's choice (log 70). -/
def Obligations.OwnershipAndKeySlots : Prop :=
  (∀ (q : QueueId) (s : State) (f : Fetched), Sound s →
      let a := secAddr f.desc
      (startDesc s q.toNat 0x0101 = some f → s.sec.owner = none → a % 64 = 0 → (read s .dram a 1952).err = none →
        Gives (.ownerClaim q) s fun t =>
          t.sec.owner = some (memRead s.mem a 1952) ∧ t.sec.ownerSeq = 0 ∧ t.sec.rootKey = none ∧ t.sec.opKey = none ∧
          getMr t 4 = shake256 (getMr s 4 ++ [4, 0, 0, 0] ++ shake256 (memRead s.mem a 1952)) ∧
          Answered s t q.toNat f true []) ∧
      (startDesc s q.toNat 0x0101 = some f → s.sec.owner.isSome = true → Gives (.ownerClaim q) s fun t =>
          t.sec = s.sec ∧ Answered s t q.toNat f false [] ∧ Reports s t q.toNat (plainRecord s f .keyFail)) ∧
      (startDesc s q.toNat 0x0102 = some f → a % 64 = 0 → (read s .dram a 5376).err = none →
        rotateGood s (memRead s.mem a 5376) = true →
        let key := memRead s.mem (a + 64) 1952
        Gives (.ownerRotate q) s fun t =>
          t.sec.owner = (if allZero key then none else some key) ∧
          t.sec.ownerSeq.toNat = le (memRead s.mem a 5376) 16 4 ∧ s.sec.ownerSeq.toNat < t.sec.ownerSeq.toNat ∧
          t.sec.rootKey = none ∧ t.sec.opKey = none ∧
          getMr t 4 = shake256 (getMr s 4 ++ [4, 0, 0, 0] ++ (if allZero key then zeroBytes 64 else shake256 key)) ∧
          Answered s t q.toNat f true []) ∧
      (startDesc s q.toNat 0x0102 = some f → a % 64 = 0 → (read s .dram a 5376).err = none →
        rotateGood s (memRead s.mem a 5376) = false → Gives (.ownerRotate q) s fun t =>
          t.sec = s.sec ∧ Answered s t q.toNat f false [] ∧ Reports s t q.toNat (plainRecord s f .keyFail))) ∧
  (∀ (q : QueueId) (s : State) (f : Fetched) (k : Bytes), Sound s →
      let b := memRead s.mem (secAddr f.desc) 4480
      let slot := (byteAt b 4).toNat
      (startDesc s q.toNat 0x0103 = some f → secAddr f.desc % 64 = 0 → (read s .dram (secAddr f.desc) 4480).err = none →
        installKey s b = some k → Gives (.keyInstall q) s fun t =>
          slotKey t slot = some k ∧ slotKey t (1 - slot) = slotKey s (1 - slot) ∧ slotSeq t slot = some (le b 16 4) ∧
          getMr t 5 = shake256 (getMr s 5 ++ [5, 0, 0, 0] ++ slotDigest slot (fingerprint k)) ∧
          t.sec.owner = s.sec.owner ∧ Answered s t q.toNat f true []) ∧
      (startDesc s q.toNat 0x0103 = some f → secAddr f.desc % 64 = 0 → (read s .dram (secAddr f.desc) 4480).err = none →
        installKey s b = none → Gives (.keyInstall q) s fun t => t.sec = s.sec ∧ Answered s t q.toNat f false [] ∧
          Reports s t q.toNat (plainRecord s f .keyFail)) ∧
      (∀ j, j ≤ 1 → startDesc s q.toNat 0x0104 = some f → (byteAt f.desc 16).toNat = j → Gives (.keyRevoke q) s fun t =>
          slotKey t j = none ∧ slotKey t (1 - j) = slotKey s (1 - j) ∧
          getMr t 5 = shake256 (getMr s 5 ++ [5, 0, 0, 0] ++ slotDigest j (slotPrint (slotKey s j))) ∧
          Answered s t q.toNat f true []))

/-- R489, R493, R494: a WINDOW_SET whose entries meet every condition writes all of them in one step and moves WT_GEN on;
it completes at once when no host-window line granted before is out, and otherwise waits; a second one waits behind it. One that
breaks a condition leaves the table. -/
def Obligations.WindowSetWritesTheTable : Prop :=
  ∀ (q : QueueId) (s : State) (f : Fetched), Sound s → s.hif.wtWait = none → startDesc s q.toNat 0x0105 = some f →
    getDesc s q.toNat f.uid = some f →
    let entry := fun (t : State) (i : Nat) => smGet (zeroBytes 32) t.hif.wt i
    (wsCheck f = none → Gives (.windowSet q) s fun t =>
      t.hif.wtGen = s.hif.wtGen + 1 ∧
      (∀ i < wsCount f.desc, entry t (wsFirst f.desc + i) = (f.payload.drop (32 * i)).take 32) ∧
      (∀ i, i < wsFirst f.desc ∨ wsFirst f.desc + wsCount f.desc ≤ i → entry t i = entry s i) ∧
      (oldLines s s.fab.nextId = false → t.hif.wtWait = none ∧ Answered s t q.toNat f true [] ∧
        Reports s t q.toNat (plainRecord s f .ok)) ∧
      (oldLines s s.fab.nextId = true → t.hif.wtWait = some (q.toNat, f.uid, s.fab.nextId) ∧ t.cmd.completed = s.cmd.completed)) ∧
    (∀ e, wsCheck f = some e → Gives (.windowSet q) s fun t =>
      t.hif.wt = s.hif.wt ∧ t.hif.wtGen = s.hif.wtGen ∧ Answered s t q.toNat f false []) ∧
    (∀ w q2, Gives (.windowSet q2) { s with hif := { s.hif with wtWait := some w } } fun t =>
      t = { s with hif := { s.hif with wtWait := some w } })

/-- R515, R516: SVC_UNLOCK opens a LOCKED connector, erases both key slots and the Alias key and extends MR6; SVC_LOCK and
the end of the minutes lock it again. R514, R515: the connector answers reads of the serial number and the quote flags in
every state; a challenge that it issued, answered under the service key at level 2, opens VENDOR_OPEN, and any other
answer leaves the state; only VENDOR_OPEN clears the failure log or burns a revocation fuse. That any answer uses up the
challenge, and that locking extends MR6 with level 0, are the model's choice (log 70). -/
def Obligations.ConnectorAndVendor : Prop :=
  (∀ (q : QueueId) (s : State) (f : Fetched), Sound s →
      let level := field f.desc 16 0 2
      let mins := le f.desc 18 2
      (startDesc s q.toNat 0x0106 = some f → s.sec.svc = 0 → level = 1 ∨ level = 2 → 1 ≤ mins → mins ≤ 1440 →
        Gives (.svcUnlock q) s fun t =>
          t.sec.svc = 1 ∧ t.sec.svcLevel.toNat = level ∧ t.sec.svcEnd = s.nowNs + mins * 60000000000 ∧
          t.sec.rootKey = none ∧ t.sec.opKey = none ∧ t.sec.aliasKey = false ∧ t.sec.opened = true ∧
          getMr t 6 = shake256 (getMr s 6 ++ [6, 0, 0, 0] ++ [1, BitVec.ofNat 8 level] ++ zeroBytes 62) ∧
          Answered s t q.toNat f true []) ∧
      (startDesc s q.toNat 0x0107 = some f → Gives (.svcLock q) s fun t =>
          t.sec.svc = 0 ∧ t.sec.opened = s.sec.opened ∧ Answered s t q.toNat f true [] ∧
          getMr t 6 = (if s.sec.svc = 0 then getMr s 6 else shake256 (getMr s 6 ++ [6, 0, 0, 0] ++ zeroBytes 64))) ∧
      (s.sec.svc ≠ 0 → s.sec.svcEnd ≤ s.nowNs → Gives .svcUnlockExpiry s fun t =>
          t.sec.svc = 0 ∧ t.sec.opened = s.sec.opened ∧ t.mem = s.mem ∧ t.cmd = s.cmd)) ∧
  (∀ (s : State), Sound s → s.rst.supply ≠ .off →
      Gives (.serviceConnectorRead .serial) s (fun t => t = { s with out := s.out ++ [.service serialBytes] }) ∧
      Gives (.serviceConnectorRead .flags) s (fun t => t = { s with out := s.out ++ [.service (leBytes 2 (quoteFlags s))] }) ∧
      Gives (.serviceConnectorRead .challenge) s (fun t =>
        ∃ c, t.sec = { s.sec with challenge := some c } ∧ c.length = 32 ∧ t.out = s.out ++ [.service c] ∧ t.mem = s.mem) ∧
      (∀ (c sig : Bytes), s.sec.challenge = some c →
        let good := Config.mldsaVerify Config.serviceKey (c ++ serialBytes) (ascii "ZV-OM4096 SVC") sig
        (s.sec.svc = 1 → s.sec.svcLevel = 2 → good = true → Gives (.vendorChallenge sig) s fun t =>
          t.sec.svc = 2 ∧ t.sec.vendorReached = true ∧ t.sec.challenge = none ∧
          getMr t 6 = shake256 (getMr s 6 ++ [6, 0, 0, 0] ++ [2, 2] ++ zeroBytes 62)) ∧
        (s.sec.svcLevel = 1 ∨ good = false → Gives (.vendorChallenge sig) s fun t =>
          t.sec = { s.sec with challenge := none })) ∧
      (s.sec.svc = 2 → Gives .failureLogClear s fun t => t = { s with err := { s.err with failLog := [] } }) ∧
      (s.sec.svc ≠ 2 → Gives .failureLogClear s fun t => t = s) ∧
      (∀ k : BitVec 2, s.sec.svc = 2 → Gives (.keyRevocationBurn k) s fun t =>
        t.sec.keyRevoked.getLsbD k.toNat = true ∧
        ∀ j, j ≠ k.toNat → t.sec.keyRevoked.getLsbD j = s.sec.keyRevoked.getLsbD j) ∧
      (∀ k : BitVec 2, s.sec.svc ≠ 2 → Gives (.keyRevocationBurn k) s fun t => t = s))

/-- R287, R288: a flip to a step 1 to 2^31 − 1 beyond the committed one writes it to the header and to TRN_COMMITTED and
counts; one to the committed step completes OK without effect; any other is rejected, as is every flip while the table is
off or an update phase runs. R290 on one tensor entry, and the command over all of them: a rollback clears the valid bits
of pending slots and contrib, never moves the committed step, and completes OK. R372, R373: a COPY that passes its check
starts its parts; when they end with every byte brought from the host, the destination holds those bytes, and the record
is OK and split, with no part failed; a copy to the host leaves memory. R402: a QUEUE_REASSIGN of a
queue whose owner is lost, or with force = 1, gives the queue to the issuing port and leaves it disabled and orphaned; without either
it is rejected. How a COPY's bytes come with its completion is the model's choice (log 42), as is what a forced QUEUE_REASSIGN does
to a queue of its own port or of none, and its orphaned mark (log 38). -/
def Obligations.CommitCopyAndReassign : Prop :=
  (∀ (q : QueueId) (s : State) (f : Fetched), Sound s → startDesc s q.toNat 0x0010 = some f →
      let v := le f.desc 16 4
      let d := (v + 2 ^ 32 - s.trn.committed.toNat) % 2 ^ 32
      let a := slotTab s
      (trnEn s = true → updateRuns s = false → 1 ≤ d → d < 2 ^ 31 → (read s .dram a 8).err = none →
        (∀ i < 8, Outside (recordSpan s q.toNat) (a + i)) →
        Gives (.meridianFlip q) s fun t =>
          t.trn = { s.trn with committed := BitVec.ofNat 32 v, flips := satAdd s.trn.flips 1 } ∧ memLe t a 4 = v ∧
          memLe t (a + 4) 4 = min (memLe s (a + 4) 4 + 1) (2 ^ 32 - 1) ∧ Answered s t q.toNat f true [(a, 8)] ∧
          Reports s t q.toNat (plainRecord s f .ok)) ∧
      (trnEn s = true → updateRuns s = false → d = 0 → Gives (.meridianFlip q) s fun t =>
          t.trn = s.trn ∧ Answered s t q.toNat f true [] ∧ Reports s t q.toNat (plainRecord s f .ok)) ∧
      (trnEn s = false ∨ updateRuns s = true ∨ 2 ^ 31 ≤ d → Gives (.meridianFlip q) s fun t =>
          t.trn = s.trn ∧ Answered s t q.toNat f false [])) ∧
  ((∀ (recs : List MuuRec) (s : State) (tid : Nat), Sound s → slotErr s tid = none → (getSlot s tid).frozen = false →
      (getSlot s tid).broken = none →
      let e := getSlot s tid
      let keep := fun (v : Bool) (tag : Nat) => v && decide (stepDiff tag (committedStep s) ≤ 0)
      getSlot (rollEntry recs s tid) tid =
        { e with sv0 := keep e.sv0 e.stag0, sv1 := keep e.sv1 e.stag1, cv0 := keep e.cv0 e.ctag0,
                 cv1 := keep e.cv1 e.ctag1, contrib := 0 }) ∧
    (∀ (q : QueueId) (s : State) (f : Fetched), Sound s → startDesc s q.toNat 0x0011 = some f → trnEn s = true →
      updateRuns s = false → Gives (.meridianRollback q) s fun t =>
        t = completeDesc (doRollback s (le f.desc 16 4)).1 q.toNat f .ok ∧ t.trn.committed = s.trn.committed ∧
        t.trn.flips = s.trn.flips ∧ getDesc t q.toNat f.uid = none ∧ t.cmd.completed = satAdd s.cmd.completed 1 ∧
        Reports s t q.toNat (plainRecord s f .ok)) ∧
    (∀ (q : QueueId) (s : State) (f : Fetched), Sound s → startDesc s q.toNat 0x0011 = some f →
      trnEn s = false ∨ updateRuns s = true → Gives (.meridianRollback q) s fun t =>
        t.trn = s.trn ∧ Answered s t q.toNat f false [])) ∧
  (∀ (q : QueueId) (s : State) (f : Fetched), Sound s →
      let p := copyParm f.desc
      (startDesc s q.toNat 0x0003 = some f → getDesc s q.toNat f.uid = some f → copyCheck s f.desc = none → Gives (.copy q) s fun t =>
        getDesc t q.toNat f.uid = some { f with started := true } ∧ t.mem = s.mem ∧ t.out = s.out ∧ t.cmd.completed = s.cmd.completed) ∧
      (startDesc s q.toNat 0x0003 = some f → (∃ e, copyCheck s f.desc = some e) → Gives (.copy q) s fun t =>
        Answered s t q.toNat f false []) ∧
      (∀ (host : List HostLine) (data : Bytes) (port : HPort), findStarted s q.toNat 0x0003 f.index = some f →
        ownerPort (getQueue s q.toNat).owner = some port → (getPort s port).linkUp = true →
        (getPort s port).lost = false →
        (p.out = false → 0 < p.len → p.len % 64 = 0 → hostBytes host p.src p.len = some data → canAccess s .dram (gLocal p.dst) p.len = true →
          Gives (.copyCompletion q f.index host) s fun t =>
            (∀ i < p.len, Outside (recordSpan s q.toNat) (gLocal p.dst + i) → memByte t.mem (gLocal p.dst + i) = byteAt data i) ∧
            Answered s t q.toNat f true [(gLocal p.dst, p.len)] ∧
            Reports s t q.toNat { plainRecord s f .ok with split := true, parts := 0 }) ∧
        (p.out = true → Gives (.copyCompletion q f.index host) s fun t => Answered s t q.toNat f true [] ∧
          (s.mr.dramErr = [] → p.len % 64 = 0 → p.dst % 64 = 0 → (read s .dram (gLocal p.src) p.len).err = none →
            ∃ rest, t.out = s.out ++ (List.range (p.len / 64)).map (fun i =>
              .hostWrite port (p.dst + 64 * i) (memRead s.mem (gLocal p.src + 64 * i) 64) false) ++ rest)))) ∧
  (∀ (q : QueueId) (s : State) (f : Fetched), Sound s → startDesc s q.toNat 0x0020 = some f →
      let n := le f.desc 16 1
      (ownerLost s (getQueue s n) = true ∨ flag f.desc 17 0 = true → Gives (.queueReassign q) s fun t =>
        (getQueue t n).owner = (getQueue s q.toNat).owner ∧ (getQueue t n).en = false ∧ (getQueue t n).orphaned = true ∧
        getDesc t q.toNat f.uid = none) ∧
      (ownerLost s (getQueue s n) = false → flag f.desc 17 0 = false → Gives (.queueReassign q) s fun t =>
        (getQueue t n).owner = (getQueue s n).owner ∧ (getQueue t n).en = (getQueue s n).en ∧ Answered s t q.toNat f false []))

/-! ## Streams, phases and services (chapter 11) -/

/-- R375: a RUN_STREAM that passes its check is admitted at once, its counters zeroed, when it shares no core with a
running stream and fewer than 16 run; otherwise it waits, and STREAM_ADMIT admits it later; one that fails a check is
rejected before any effect. R367, R386: a STREAM_ABORT with hard = 0 stops the stream: no further phase of it starts; with
hard = 1 no phase of it runs on. The abort itself completes. One that names no running stream of a queue of the same owner
is rejected. R381: the next phase of a stream starts when its gate opens: it joins the running phases, and each core of
its table gets one start token; a phase that cannot start completes without having run; one that must wait changes
nothing. R383, R386: a phase whose cores, I/O list and samples have finished, without a trigger, completes; one that runs
longer than wd_ms ends, and its stream stops. R218, R220, R221: where a trigger fired, a policy of RERUN runs the phase again
at a higher rung, which counts; otherwise the phase completes, and a RAISE below the top counts. That RERUN with no higher
rung to take acts as at the top is the model's choice (log entry 30). -/
def Obligations.StreamsAndPhases : Prop :=
  (∀ (q : QueueId) (s : State) (f : Fetched), Sound s →
      let begun := fun (t : State) (p : StreamPlan) =>
        getStream t (freeStream s) = some (newStream p (some (q.toNat, f.uid)) none) ∧ t.mem = s.mem ∧ t.out = s.out ∧
        t.cmd.completed = s.cmd.completed ∧
        ∀ k, bits (le p.hdr 48 2) 0 12 ≤ k → k < bits (le p.hdr 48 2) 0 12 + bits (le p.hdr 50 2) 0 13 → counter t k = 0
      (∀ p, startDesc s q.toNat 0x0001 = some f → runCheck s (le f.desc 16 6) = .ok p → admits s p = true →
        Gives (.runStream q) s fun t => begun t p) ∧
      (∀ p, startDesc s q.toNat 0x0001 = some f → runCheck s (le f.desc 16 6) = .ok p → admits s p = false →
        Gives (.runStream q) s fun t => t.cmd.streams = s.cmd.streams ∧ t.cmd.counters = s.cmd.counters ∧ t.mem = s.mem ∧
          t.cmd.completed = s.cmd.completed) ∧
      (∀ e, startDesc s q.toNat 0x0001 = some f → runCheck s (le f.desc 16 6) = .error e → Gives (.runStream q) s fun t =>
        t.cmd.streams = s.cmd.streams ∧ Answered s t q.toNat f false []) ∧
      (∀ p, findStarted s q.toNat 0x0001 f.index = some f →
        s.cmd.streams.all (fun x => x.2.queue != some (q.toNat, f.uid)) = true → runCheck s (le f.desc 16 6) = .ok p →
        admits s p = true → Gives (.streamAdmit q f.index) s fun t => begun t p)) ∧
  (∀ (q : QueueId) (s : State) (f : Fetched) (id : Nat), Sound s → startDesc s q.toNat 0x0002 = some f →
      let target := le f.desc 16 1
      let same := (getQueue s target).owner = (getQueue s q.toNat).owner
      (same → streamOf s target (le f.desc 18 2) = some id → flag f.desc 20 0 = false → Gives (.streamAbort q) s fun t =>
        (∀ r, getStream t id = some r → r.stop.isSome = true) ∧ getDesc t q.toNat f.uid = none ∧
        ∀ r, getStream s id = some r →
          (r.running ≠ [] → getStream t id = some { r with stop := some (r.stop.getD .aborted) }) ∧
          (r.running = [] → firedLeft s id = false → getStream t id = none)) ∧
      (same → streamOf s target (le f.desc 18 2) = some id → flag f.desc 20 0 = true → Gives (.streamAbort q) s fun t =>
        (∀ r, getStream t id = some r → r.stop.isSome = true ∧ r.running = []) ∧ getDesc t q.toNat f.uid = none ∧
        (s.coll.firedOps = [] → (∀ x ∈ s.coll.triggers, x.stream ≠ id) → getStream t id = none)) ∧
      (¬same ∨ streamOf s target (le f.desc 18 2) = none → Gives (.streamAbort q) s fun t =>
        t.cmd.streams = s.cmd.streams ∧ Answered s t q.toNat f false [])) ∧
  (∀ (stream : StreamId) (s : State) (r : StreamRun), Sound s → getStream s stream.toNat = some r → quiescing s = false →
      r.stop = none → r.nextPhase < hdrPhases r.hdr →
      (∀ pl, phaseGate s r = .go pl → Gives (.phaseStart stream) s fun t =>
        getStream t stream.toNat = some { r with nextPhase := r.nextPhase + 1, running := r.running ++ [newPhase s r pl] } ∧
        ∀ e ∈ pl.lists,
          let tok := { phaseToken stream.toNat r.nextPhase (r.steps.getD (stepIdxOf r.steps r.nextPhase) []) pl with off := e.off, len := e.len }
          if r.svc.isSome then (getCore t e.core).svcTokens = (getCore s e.core).svcTokens ++ [tok]
          else (getCore t e.core).tokens = (getCore s e.core).tokens ++ [tok]) ∧
      (∀ st, phaseGate s r = .done st → Gives (.phaseStart stream) s fun t =>
        t.cores = s.cores ∧ ∀ r', getStream t stream.toNat = some r' →
          r'.nextPhase = r.nextPhase + 1 ∧ r.nextPhase ∈ r'.done ∧ r'.running = r.running ∧
          (stopping st = true → r'.stop = some st)) ∧
      (phaseGate s r = .wait → Gives (.phaseStart stream) s fun t => t = s)) ∧
  (∀ (stream : StreamId) (phase : PhaseNo) (s : State) (r : StreamRun) (ph : PhaseRun), Sound s →
      getStream s stream.toNat = some r → getPhase s stream.toNat phase.toNat = some ph →
      (phaseOver ph = true → blinkFired ph = false → clipFired ph = false →
        Gives (.phaseComplete stream phase) s fun t =>
          (∀ r', getStream t stream.toNat = some r' → (∀ x ∈ r'.running, x.num ≠ phase.toNat) ∧ phase.toNat ∈ r'.done) ∧
          let others := r.running.filter (·.num != phase.toNat)
          let at_ := hdrPstat r.hdr + 2 * phase.toNat
          (others ≠ [] → (∃ r', getStream t stream.toNat = some r' ∧ r'.running = others) ∧
            (canAccess s .dram at_ 2 = true → memLe t at_ 2 = statusCode (phaseStatus ph))) ∧
          (others = [] → hdrPhases r.hdr ≤ r.nextPhase → firedLeft s stream.toNat = false → getStream t stream.toNat = none)) ∧
      (phaseOver ph = true → blinkFired ph = true ∨ clipFired ph = true →
        let policy := if ph.ladderEntry.isNone then 0 else field ph.ladder 0 4 2
        let top := decide (field ph.ladder 0 2 2 ≤ ph.rung)
        (policy ≠ 1 ∨ top = true ∨ nextRung s ph = none → Gives (.phaseComplete stream phase) s fun t =>
          (∀ r', getStream t stream.toNat = some r' → (∀ x ∈ r'.running, x.num ≠ phase.toNat) ∧ phase.toNat ∈ r'.done) ∧
          t.cr.reruns = s.cr.reruns ∧
          t.cr.raises = if policy = 2 ∧ top = false then satAdd s.cr.raises 1 else s.cr.raises) ∧
        (∀ e k es, policy = 1 → top = false → nextRung s ph = some (e, k) → rerunLists s r ph k = .ok es →
          Gives (.phaseComplete stream phase) s fun t =>
            ph.rung < k ∧ t.cr.reruns = satAdd s.cr.reruns 1 ∧ t.cr.raises = s.cr.raises ∧
            ∃ x, getPhase t stream.toNat phase.toNat = some x ∧ x.rung = k ∧ x.cores = es.map (·.core) ∧ x.ioNext = 0 ∧
              x.seen = [] ∧ x.exceed = false ∧ x.slots = ph.slots)) ∧
      (ph.wdMs ≠ 0 → ph.wdMs * 1000000 < phaseRan s ph → Gives (.phaseWatchdog stream phase) s fun t =>
          (∀ r', getStream t stream.toNat = some r' → (∀ x ∈ r'.running, x.num ≠ phase.toNat) ∧ r'.stop = some .timeout) ∧
          (s.coll.firedOps = [] → (∃ x ∈ r.running, x.num ≠ phase.toNat) → ∃ r', getStream t stream.toNat = some r')) ∧
      (phaseOver ph = false → Gives (.phaseComplete stream phase) s fun t => t = s) ∧
      (ph.wdMs = 0 ∨ phaseRan s ph ≤ ph.wdMs * 1000000 → Gives (.phaseWatchdog stream phase) s fun t => t = s))

/-- R387 to R391 for NOP and WAIT ops of either kind of list, and for one that its counter wait held: the op completes,
the list moves past it, and its signal adds one to its counter; no memory changes. R390: while (counter[15:0] − wait_val)
mod 2^16 is 2^15 or more, an op on core `c` with a wait in its stream's range does not start. -/
def Obligations.PlainOpsAndWaits : Prop :=
  (∀ (s : State) (o : NextOp) (host : List HostLine), Sound s → o.poisoned = false → reservedZero o.desc hdrFields = true →
      ctrCheck s o.tok.stream (opHdr o.desc) = true →
      let h := opHdr o.desc
      let counted := fun (t : State) => t.mem = s.mem ∧
        ∀ k, counter t k = (if h.sigEn = true ∧ k = h.sigCtr then counter s k + 1 else counter s k)
      (∀ c : CoreId, nextOp s c.toNat = some o → mayStart s c.toNat o = true → o.idx + 1 < o.tok.len →
        let past := fun (t : State) => counted t ∧ activeList (getCore t c.toNat) = some (o.tok, o.idx + 1)
        (h.opcode = 0x00 → Gives (.opNop (.core c)) s past) ∧ (h.opcode = 0x01 → Gives (.wait (.core c)) s past) ∧
        (h.opcode = 0x01 → h.waitEn = true → Gives (.counterWaitRelease (.core c) host) s past)) ∧
      (∀ (id : StreamId) (p : PhaseNo) (ph : PhaseRun), nextIo s id.toNat p.toNat = some o →
        mayStartIo s id.toNat p.toNat o = true → getPhase s id.toNat p.toNat = some ph →
        let past := fun (t : State) => counted t ∧ ∀ x, getPhase t id.toNat p.toNat = some x → x.ioNext = ph.ioNext + 1
        (h.opcode = 0x00 → Gives (.opNop (.io id p)) s past) ∧ (h.opcode = 0x01 → Gives (.wait (.io id p)) s past) ∧
        (h.opcode = 0x01 → h.waitEn = true → Gives (.counterWaitRelease (.io id p) host) s past))) ∧
  (∀ (c : CoreId) (s : State) (o : NextOp) (host : List HostLine), nextOp s c.toNat = some o → o.poisoned = false →
      let h := opHdr o.desc
      h.waitEn = true → ctrInRange s o.tok.stream h.waitCtr = true →
      32768 ≤ ((counter s h.waitCtr).toNat % 65536 + 65536 - h.waitVal) % 65536 →
      (opAllowed false h.opcode = true → Gives (.opNop (.core c)) s fun t => t = s) ∧
      Gives (.wait (.core c)) s (fun t => t = s) ∧ Gives (.counterWaitRelease (.core c) host) s (fun t => t = s) ∧
      Gives (.dmaCopy c host) s (fun t => t = s) ∧ Gives (.veRun c) s (fun t => t = s) ∧
      Gives (.veSolve c) s (fun t => t = s) ∧ Gives (.coeStage c host) s (fun t => t = s))

/-- R394 to R397: a service request that passes its check joins the open block of its service, or opens one; a block whose
time has come closes. That a block closes once 32 rows fill it is the model's reading (log entry 39), as is what becomes of
rows that cannot be read (log entry 40). R398, R399: a ready block that nothing holds preempts its cores; where each of them
is clear it starts its stream and is counted, its requests past their deadline dropped under late_drop and each of them
answered where its stream cannot start, and where one is not clear the block stays ready and nothing else changes: that
BLOCK_START is then given again is the model's choice (log entry 103). A block whose stream has completed ends, each request
that is still a member with its descriptor answered. -/
def Obligations.ServiceBlocks : Prop :=
  (∀ (q : QueueId) (s : State) (f : Fetched) (k : BitVec 8), Sound s → (getQueue s q.toNat).svc = k →
      let r := (svcRec s k.toNat).data
      let x := svcReq q.toNat f r 0
      (startDesc s q.toNat 0x0030 = some f → svcCheck s (svcRec s k.toNat) f.desc = none →
        (openBlock s k.toNat = none → x.rows < 32 → Gives (.serviceRequest q) s fun t =>
          openBlock t k.toNat = some (svcJoin r (newBlock k.toNat r f.arrival) x) ∧ t.mem = s.mem ∧
          t.cmd.completed = s.cmd.completed) ∧
        (∀ b, openBlock s k.toNat = some b → svcFits b x = true → b.rows + x.rows < 32 → Gives (.serviceRequest q) s fun t =>
          openBlock t k.toNat = some (svcJoin r b x) ∧ t.mem = s.mem ∧ t.cmd.completed = s.cmd.completed) ∧
        (∀ b, openBlock s k.toNat = some b → svcFits b x = true → b.rows + x.rows = 32 → Gives (.serviceRequest q) s fun t =>
          openBlock t k.toNat = none ∧ t.cmd.closedBlocks = s.cmd.closedBlocks ++ [svcJoin r { b with record := r } x]) ∧
        (∀ b, openBlock s k.toNat = some b → svcFits b x = false → x.rows < 32 → Gives (.serviceRequest q) s fun t =>
          openBlock t k.toNat = some (svcJoin r (newBlock k.toNat r f.arrival) x) ∧
          t.cmd.closedBlocks = s.cmd.closedBlocks ++ [{ b with record := r }])) ∧
      (∀ e, startDesc s q.toNat 0x0030 = some f → svcCheck s (svcRec s k.toNat) f.desc = some e →
        Gives (.serviceRequest q) s fun t => Answered s t q.toNat f false []) ∧
      (∀ b, openBlock s k.toNat = some b → b.close ≤ s.nowNs → Gives (.blockClose k) s fun t =>
        openBlock t k.toNat = none ∧
        t.cmd.closedBlocks = s.cmd.closedBlocks ++ [{ b with record := if (svcRec s k.toNat).err.isNone then r else b.record }]) ∧
      (∀ b, openBlock s k.toNat = some b → s.nowNs < b.close → Gives (.blockClose k) s fun t => t = s)) ∧
  (∀ (k : BitVec 8) (s : State) (b : SvcBlock), Sound s →
      let begun := fun (t : State) (p : StreamPlan) =>
        getStream t (svcStream k.toNat) = some (newStream p none (some k.toNat)) ∧ t.cmd.blocks = satAdd s.cmd.blocks 1 ∧
        t.cmd.runBlocks = s.cmd.runBlocks ++ [b] ∧ t.cmd.closedBlocks = s.cmd.closedBlocks.erase b ∧ t.mem = s.mem ∧
        ∀ n < 4096, bit p.coreMap n = true → (getCore t n).preempt = true
      let clear := fun (p : StreamPlan) => ∀ n < 4096, bit p.coreMap n = true → coreClear (getCore s n) = true
      (∀ p, readyBlock s k.toNat = some b → runCheck s (svStream b.record) = .ok p →
        minHolds s b (svcCores s b) = false →
        (clear p → b.reqs ≠ [] → (∀ x ∈ b.reqs, x.dropped = false ∧ s.nowNs ≤ x.deadline) →
          getStream s (svcStream k.toNat) = none →
          Gives (.blockStart k) s (fun t => begun t p) ∧
          (s.fw.preemptMin ≠ 0 → Gives (.preemptMinExpiry k) s fun t => begun t p)) ∧
        (clear p → svLateDrop b.record = true → Gives (.blockStart k) s fun t =>
          t.cmd.closedBlocks = s.cmd.closedBlocks.erase b ∧
          ∀ x ∈ b.reqs, x.deadline < s.nowNs → getDesc t x.queue x.uid = none) ∧
        (¬clear p → Gives (.blockStart k) s fun t =>
          t.cmd.closedBlocks = s.cmd.closedBlocks ∧ t.cmd.runBlocks = s.cmd.runBlocks ∧ t.cmd.blocks = s.cmd.blocks ∧
          t.cmd.dropped = s.cmd.dropped ∧ t.mem = s.mem ∧ t.out = s.out ∧
          ∀ n < 4096, bit p.coreMap n = true → getCore t n = { getCore s n with preempt := true })) ∧
      (∀ e, readyBlock s k.toNat = some b → runCheck s (svStream b.record) = .error e → svLateDrop b.record = false →
        (∀ x ∈ b.reqs, x.dropped = false) → Gives (.blockStart k) s fun t =>
          t.cmd.blocks = s.cmd.blocks ∧ t.cmd.runBlocks = s.cmd.runBlocks ∧
          t.cmd.closedBlocks = s.cmd.closedBlocks.erase b ∧ ∀ x ∈ b.reqs, getDesc t x.queue x.uid = none) ∧
      (readyBlock s k.toNat = some b → minHolds s b (svcCores s b) = true →
        Gives (.blockStart k) s (fun t => t = s) ∧ Gives (.preemptMinExpiry k) s (fun t => t = s)) ∧
      (∀ st, s.cmd.runBlocks.find? (·.svc == k.toNat) = some b → b.result = some st → Gives (.blockEnd k) s fun t =>
        (∀ y ∈ t.cmd.runBlocks, y.svc ≠ k.toNat) ∧
        ∀ x ∈ b.reqs, x.dropped = false → getDesc t x.queue x.uid = none))

/-! ## Registers, ports and the host interface (chapters 14, 19 and 20) -/

/-- R601: right after reset every register holds the value of the Reset column of 20_register_reference.md. The reset
state is sound. -/
def Obligations.RegistersAtReset : Prop :=
  (∀ r ∈ resetRegs, setupReg State.reset r.1 = some r.2) ∧
  (∀ a ∈ resetArrays, ∀ i < a.2.2.1, setupReg State.reset (a.1 + a.2.1 * i) = some a.2.2.2) ∧
  Sound State.reset

/-- R12 to R14: a write of a register's own width stores the bits of its writable fields, keeps its other bits, and leaves
every other such register, memory and the outside; a write of another width, or at an unimplemented offset, changes
nothing. R12, R13, R596: a read of BAR0 answers with the register's bytes, with zeros for an access of another width or at
an unimplemented offset, and changes nothing else. R559, R603: in Closed a BAR0 read or write is held, changes no register
and is a wake source; while a port is in L2 or lost it has no effect. Registers with rows of their own: HIF_APER keeps
bits [47:30] (R483); TOP_NODE_ID takes an id that R39 allows while unlocked and nothing while locked (R600); a word of
FAB_ROUTE_TAB sets four entries and leaves the others (R422). -/
def Obligations.RegisterAccesses : Prop :=
  (∀ (p : HPort) (s : State) (v : BitVec 64), hostPath s p = .served →
      (∀ r ∈ plainRegs, ∀ old, setupReg s r.1 = some (r.2.1, old) →
        Gives (.registerWrite p .bar0 (BitVec.ofNat 26 r.1) (r.2.1 / 8) v) s fun t =>
          setupReg t r.1 = some (r.2.1, (old &&& (2 ^ 64 - 1 - r.2.2)) ||| (v.toNat &&& r.2.2)) ∧
          (∀ r' ∈ plainRegs, r'.1 ≠ r.1 → setupReg t r'.1 = setupReg s r'.1) ∧
          t.mem = s.mem ∧ t.out = s.out ∧ t.cores = s.cores ∧ t.hif = s.hif ∧ t.sec = s.sec) ∧
      (∀ (off : BitVec 26) (size : Nat), (setupReg s off.toNat = none ∨ ∃ r, setupReg s off.toNat = some r ∧ r.1 ≠ 8 * size) →
        Gives (.registerWrite p .bar0 off size v) s fun t => t = s)) ∧
  (∀ (p : HPort) (off : BitVec 26) (size : Nat) (s : State), hostPath s p = .served →
      let v := match setupReg s off.toNat with | some r => if r.1 = 8 * size then r.2 else 0 | none => 0
      Gives (.bar0Read p .bar0 off size) s fun t => t = { s with out := s.out ++ [.readDone p (leBytes size v) false] }) ∧
  (∀ (p : HPort) (off : BitVec 26) (size : Nat) (v : BitVec 64) (s : State),
      (hostPath s p = .held → (sideIn s 3).effect = false →
        Gives (.bar0Read p .bar0 off size) s (fun t =>
          t = { s with pwr := { s.pwr with wake := true, held := s.pwr.held ++ [.read p off.toNat size] } }) ∧
        Gives (.registerWrite p .bar0 off size v) s (fun t =>
          t = { s with pwr := { s.pwr with wake := true, held := s.pwr.held ++ [.write p off.toNat size v.toNat] } })) ∧
      (hostPath s p = .none → Gives (.bar0Read p .bar0 off size) s (fun t => t = s) ∧
        Gives (.registerWrite p .bar0 off size v) s (fun t => t = s))) ∧
  (∀ (p : HPort) (s : State), Sound s → hostPath s p = .served →
      (∀ (i : HPort) (v : BitVec 64), Gives (.hifAper p i v) s fun t =>
        (getPort t i).aper = v &&& 0x0000FFFFC0000000 ∧ t.mem = s.mem ∧ t.fab = s.fab) ∧
      (∀ v : BitVec 32, s.fab.nodeLock = false → ¬(0xFFF0 ≤ v.toNat % 65536 ∧ v.toNat % 65536 ≤ 0xFFFE) →
        Gives (.topNodeId p v) s fun t => t.fab.nodeId = v.setWidth 16 ∧ t.fab.nodeLock = v.getLsbD 31 ∧ t.mem = s.mem) ∧
      (∀ v : BitVec 32, s.fab.nodeLock = true → Gives (.topNodeId p v) s fun t => t = s) ∧
      (∀ (w : BitVec 14) (v : BitVec 32), Gives (.fabRouteTab p w v) s fun t =>
        (∀ j < 4, smGet 0 t.fab.route (4 * w.toNat + j) = (v >>> (8 * j)).setWidth 8 &&& 0x1F) ∧
        (∀ n, n < 4 * w.toNat ∨ 4 * w.toNat + 4 ≤ n → smGet 0 t.fab.route n = smGet 0 s.fab.route n) ∧ t.mem = s.mem))

/-- R13: at an unimplemented offset of BAR0 or BAR2 a read answers zeros and a write is ignored, and neither does anything
else. -/
def Obligations.UnimplementedOffsetsReadZero : Prop :=
  ∀ (p : HPort) (off : BitVec 26) (size : Nat) (v : BitVec 64) (s : State), hostPath s p = .served →
    let none2 := off ≠ 0 ∧ off ≠ 0x1000 ∧
      ∀ b ∈ [(0x010000, 4096), (0x020000, 4096), (0x100000, 4096), (0x101000, 32)], ¬(b.1 ≤ off.toNat ∧ off.toNat < b.1 + b.2)
    ∀ bar : HostBar, (if bar = .bar0 then setupReg s off.toNat = none else none2) →
      Gives (.bar0Read p bar off size) s (fun t => t = { s with out := s.out ++ [.readDone p (zeroBytes size) false] }) ∧
      Gives (.registerWrite p bar off size v) s (fun t => t = s)

/-- R401, R403: a port whose link goes down is lost and its queues are orphaned, and no other queue is; the link comes
back at the rate and width that it trained to; one below 16 GT/s retrains first, up to three times (R476), and that it is not
up meanwhile is the model's choice (log entry 95). R571, R576: PERST and a hot reset reset their port: its link goes down, its
queues are disabled and orphaned, its mailbox and MSI-X table clear, and a count of its port rises; memory and the other port
stay. A deasserted PERST lets the port train. -/
def Obligations.PortsLoseAndRegain : Prop :=
  (∀ (p : HPort) (s : State), Sound s →
      ((getPort s p).linkUp = true → Gives (.portLost p) s fun t =>
        (getPort t p).linkUp = false ∧ (getPort t p).lost = true ∧ t.mem = s.mem ∧ t.out = s.out ∧
        ∀ n < 256, (getQueue t n).orphaned = ((getQueue s n).orphaned || (getQueue s n).owner == portOwner p)) ∧
      (∀ (rate : BitVec 3) (width : BitVec 4) (flit : Bool), (getPort s p).linkUp = false → mayTrain s p = true →
        linkForm rate width = true → 4 ≤ rate ∨ 3 ≤ (getPort s p).slowTries → Gives (.portReturn p rate width flit) s fun t =>
          (getPort t p).linkUp = true ∧ (getPort t p).lost = false ∧ (getPort t p).rate = rate ∧
          (getPort t p).width = width ∧ (getPort t p).slowLink = decide (rate < 4) ∧ t.mem = s.mem ∧
          ∀ n, getQueue t n = getQueue s n) ∧
      (∀ (rate : BitVec 3) (width : BitVec 4) (flit : Bool), (getPort s p).linkUp = false → mayTrain s p = true →
        linkForm rate width = true → rate < 4 → (getPort s p).slowTries < 3 → Gives (.portReturn p rate width flit) s fun t =>
          t = setPort s p { getPort s p with slowTries := (getPort s p).slowTries + 1 })) ∧
  (∀ (p : HPort) (s : State), Sound s →
      let other := match p with | .a => HPort.b | .b => HPort.a
      let quiet := fun (t : State) =>
        (getPort t p).linkUp = false ∧ (getPort t p).msix = [] ∧ (getPort t p).mbxGo = false ∧ (getPort t p).aper = 0 ∧
        t.mem = s.mem ∧ getPort t other = getPort s other ∧
        ∀ n < 256, (getQueue s n).owner = portOwner p → (getQueue t n).en = false ∧ (getQueue t n).orphaned = true
      ((getPort s p).linkUp = true → Gives (.hotReset p) s fun t => quiet t ∧ t.fw = s.fw ∧ t.sec = s.sec ∧
        (match p with
          | .a => t.rst.hotA = satAdd s.rst.hotA 1 ∧ t.rst.hotB = s.rst.hotB
          | .b => t.rst.hotB = satAdd s.rst.hotB 1 ∧ t.rst.hotA = s.rst.hotA)) ∧
      ((sideIn s (portNo p)).asserted = false → (sideIn s (portNo p)).masked = false → sideSoon s (sideIn s (portNo p)) = false →
        s.rst.supply ≠ .off → Gives (.perstAssert p) s fun t =>
          quiet t ∧ (getPort t p).perst = true ∧
          (match p with | .a => t.rst.perstA = satAdd s.rst.perstA 1 | .b => t.rst.perstB = satAdd s.rst.perstB 1)) ∧
      ((sideIn s (portNo p)).asserted = true → (sideIn s (portNo p)).effect = true → Gives (.perstDeassert p) s fun t =>
          (getPort t p).perst = false ∧ (sideIn t (portNo p)).asserted = false ∧ t.mem = s.mem))

/-- R482, R331: a BAR4 write stores exactly its bytes at the aperture's address on each of its lines that is open and not
poisoned, and marks those lines where its EP bit is set; every other of its lines takes no byte and is counted. R482: a BAR4
read answers line by line, an open line with its bytes, a poisoned one or one that is not open with zeros and the EP bit,
counted; no memory changes. R329: a line with a correctable error answers with its bytes and is rid of the error; what errors
the DRAM holds is the model's field (log entry 94). R485, R532: the completion of an event ring's head read writes the record
in the ring's next entry unless the ring is full; a completion that no read waits for is counted as late. The model's choices:
a failed or timed-out head read drops the record with a count (log entry 68), the times of the Completion Timeout Values are
those of PCIe (log entry 95), and the record of a ring that its port has replaced since goes to the new ring (log entry 109). -/
def Obligations.Bar4AndHostReads : Prop :=
  (∀ (p : HPort) (off : BitVec 36) (data : Bytes) (poisoned : Bool) (s : State), Sound s → hostPath s p = .served → data ≠ [] →
      let a := (getPort s p).aper.toNat / 2 ^ 30 * 2 ^ 30 + off.toNat
      ((∀ l ∈ linesOf a data.length, bar4Open s p true l = true ∧ linePoison s.mem l = false) →
        Gives (.bar4Write p off data poisoned) s fun t =>
          memRead t.mem a data.length = data ∧ SameMem s t [(a, data.length)] ∧ t.out = s.out ∧ t.hif = s.hif ∧
          ∀ l ∈ linesOf a data.length, linePoison t.mem l = poisoned) ∧
      let takes := fun (l : Nat) => bar4Open s p true l && !(linePoison s.mem l)
      Gives (.bar4Write p off data poisoned) s fun t =>
        SameMem s t [(a, data.length)] ∧
        (∀ i < data.length, memByte t.mem (a + i) =
          if takes ((a + i) / 64 * 64) then byteAt data i else memByte s.mem (a + i)) ∧
        (∀ l ∈ linesOf a data.length, linePoison t.mem l = if takes l then poisoned else linePoison s.mem l) ∧
        (getPort t p).denied = ((linesOf a data.length).filter (fun l => !(takes l))).foldl (fun n _ => satAdd n 1)
          (getPort s p).denied) ∧
  (∀ (p : HPort) (off : BitVec 36) (len l : Nat) (s : State), hostPath s p = .served →
      let a := (getPort s p).aper.toNat / 2 ^ 30 * 2 ^ 30 + off.toNat
      linesOf a len = [l] →
      let e := smGet LineErr.none s.mr.dramErr (l / 64)
      (bar4Open s p false l = true → linePoison s.mem l = false → region l = .dram → e = .correctable → keysRise s.mr.dramErr = true →
        Gives (.bar4Read p off len) s fun t =>
          .readDone p (memRead s.mem a len) false ∈ t.out ∧ t.mem = s.mem ∧ smGet LineErr.none t.mr.dramErr (l / 64) = .none) ∧
      (e = .none → bar4Open s p false l = true → linePoison s.mem l = false → Gives (.bar4Read p off len) s fun t =>
        t.out = s.out ++ [.readDone p (memRead s.mem a len) false] ∧ t.mem = s.mem ∧ t.hif = s.hif) ∧
      (e = .none → bar4Open s p false l = false ∨ linePoison s.mem l = true → Gives (.bar4Read p off len) s fun t =>
        t.out.getLast? = some (.readDone p (zeroBytes len) true) ∧ t.mem = s.mem ∧
        (getPort t p).denied = satAdd (getPort s p).denied 1)) ∧
  (∀ (p : HPort) (off : BitVec 36) (len : Nat) (s : State), hostPath s p = .served → s.mr.dramErr = [] →
      let a := (getPort s p).aper.toNat / 2 ^ 30 * 2 ^ 30 + off.toNat
      let gives := fun (l : Nat) => bar4Open s p false l && !(linePoison s.mem l)
      Gives (.bar4Read p off len) s fun t =>
        t.mem = s.mem ∧
        (∀ l ∈ linesOf a len,
          let lo := max a l
          let n := min (a + len) (l + 64) - lo
          .readDone p (if gives l then memRead s.mem lo n else zeroBytes n) (!(gives l)) ∈ t.out) ∧
        (getPort t p).denied = ((linesOf a len).filter (fun l => !(gives l))).foldl (fun n _ => satAdd n 1)
          (getPort s p).denied) ∧
  (∀ (p : HPort) (tag : BitVec 14) (s : State),
      (∀ (rec : Bytes) (ring : EvRing) (no : Nat) (data : Bytes) (good : Bool) (at_ : Nat),
        findRead s p tag.toNat = some { port := p, tag := tag.toNat, what := .eventHead rec no, issued := at_ } →
        s.hif.readWait = [] → (getPort s p).ring = some ring → ring.no ≠ no → (getPort s p).linkUp = true →
        Gives (.pcieCompletion p tag data good) s fun t =>
          t.fw.evDrops = s.fw.evDrops ∧ t.mem = s.mem ∧ (getPort t p).ring = some ring ∧
          ((∃ r ∈ t.hif.reads, r.port = p ∧ r.what = .eventHead rec ring.no) ∨
            ∃ r ∈ t.hif.readWait, r.port = p ∧ r.what = .eventHead rec ring.no)) ∧
      (∀ (rec : Bytes) (ring : EvRing) (data : Bytes) (at_ : Nat),
        findRead s p tag.toNat = some { port := p, tag := tag.toNat, what := .eventHead rec ring.no, issued := at_ } →
        s.hif.readWait = [] → (getPort s p).ring = some ring → rec.length = 32 →
        let late := at_ + cplLimit (getPort s p).cplTimeout ≤ s.nowNs
        (((ring.count + 2 ^ 32 - le data 0 4) % 2 ^ 32 ≠ 2 ^ (6 + ring.sizeLog2) → Gives (.pcieCompletion p tag data true) s fun t =>
          findRead t p tag.toNat = none ∧ t.mem = s.mem ∧
          (getPort t p).ring = some { ring with count := (ring.count + 1) % 2 ^ 32 } ∧
          ∃ bytes, Output.hostWrite p (ring.base + 32 * (ring.count % 2 ^ (6 + ring.sizeLog2))) bytes false ∈ t.out ∧
            bytes.drop 3 = rec.drop 3 ∧ bytes.take 2 = rec.take 2) ∧
        ((ring.count + 2 ^ 32 - le data 0 4) % 2 ^ 32 = 2 ^ (6 + ring.sizeLog2) → Gives (.pcieCompletion p tag data true) s fun t =>
          t.fw.evDrops = satAdd s.fw.evDrops 1 ∧ t.out = s.out) ∧
        Gives (.pcieCompletion p tag data false) s (fun t => t.fw.evDrops = satAdd s.fw.evDrops 1 ∧ findRead t p tag.toNat = none) ∧
        (late → Gives (.completionTimeout p tag) s fun t => t.fw.evDrops = satAdd s.fw.evDrops 1 ∧
          findRead t p tag.toNat = none ∧ t.mem = s.mem ∧ t.out = s.out) ∧
        (¬late → Gives (.completionTimeout p tag) s fun t => t = s))) ∧
      (∀ (data : Bytes) (good : Bool), findRead s p tag.toNat = none → Gives (.pcieCompletion p tag data good) s fun t =>
        (getPort t p).lateCpl = satAdd (getPort s p).lateCpl 1 ∧ t.mem = s.mem ∧ t.out = s.out))

/-- R486, R487, R476, R485: unmasking a pending vector sends its message; packets that make up a
control request are answered on their binding, and packets that break reassembly or make up another message are dropped and
counted; the codes of the control commands are those of MCTP (log entry 67, PRESUMED), and the rules of reassembly and the
places of the bits of configuration space those of their standards (log entry 95, PRESUMED). A write of configuration space
sets the power state, ASPM L1, the sizes of payloads and reads, the completion timeout, or the address of a BAR; R578: while
the port cannot complete it, it is answered with Configuration Request Retry Status and does nothing. How long that lasts is a
free value (log entry 106). R588, R589: an occurrence outside any window of its status, source and unit leaves at once as a record with the next seq and
opens a window; one inside is counted; the end of a window with a count sends one coalesced record. -/
def Obligations.InterruptsAndEvents : Prop :=
  (∀ (s : State),
      (∀ (p : HPort) (v : BitVec 8), bar2Open s p = true → (getPort s p).linkUp = true →
        smGet false (getPort s p).pba v.toNat = true → keysRise (getPort s p).msix = true → keysRise (getPort s p).pba = true →
        16 ≤ (smGet msixDefault (getPort s p).msix v.toNat).length →
        Gives (.msixUnmask p v) s fun t => t.out = s.out ++ [.msix p v.toNat] ∧ smGet false (getPort t p).pba v.toNat = false ∧
          flag (smGet msixDefault (getPort t p).msix v.toNat) 12 0 = false ∧ t.mem = s.mem) ∧
      (∀ (b : MctpBinding) (h cmd : BitVec 8) (data : Bytes) (ps : List MctpPacket), bindingOpen s b = true →
        reassemble b ps = some (0 :: h :: cmd :: data) → h.getLsbD 7 = true → Gives (.mctpControl b ps) s fun t =>
          (∃ body, t.out = s.out ++ [.mctp b ([0, h &&& 0x1F, cmd] ++ body)]) ∧ t.mem = s.mem ∧ t.sec = s.sec) ∧
      (∀ (p : HPort) (ps : List MctpPacket),
        let b : MctpBinding := match p with | .a => .vdmA | .b => .vdmB
        bindingOpen s b = true →
        (∀ m, reassemble b ps = some m → byteAt m 0 ≠ 0 ∧ m.take 3 ≠ [0x7E, 0x1D, 0x5A]) → Gives (.mctpControl b ps) s fun t =>
          (getPort t p).mctpDrops = satAdd (getPort s p).mctpDrops 1 ∧ t.out = s.out) ∧
      (∀ (p : HPort) (field : CfgField) (v : BitVec 32), bar2Open s p = true → cfgBusy s p = true →
        Gives (.configSpaceWrite p field v) s fun t => t = { s with out := s.out ++ [.cfgRetry p] }) ∧
      (∀ (p : HPort) (v : BitVec 32), bar2Open s p = true → cfgBusy s p = false →
        Gives (.configSpaceWrite p .deviceControl v) s (fun t => (getPort t p).maxPayload.toNat = min 2 (v.toNat / 32 % 8) ∧
          (getPort t p).maxRead.toNat = min 5 (v.toNat / 4096 % 8) ∧ t.mem = s.mem) ∧
        (∀ i : Fin 6, keysRise (getPort s p).bars = true → Gives (.configSpaceWrite p (.bar i) v) s fun t =>
          barWord (getPort t p) i.val = (v &&& barMask i.val) ||| barType i.val ∧ t.mem = s.mem) ∧
        Gives (.configSpaceWrite p .powerState v) s (fun t => (getPort t p).d3 = decide (v.toNat % 4 = 3) ∧ t.mem = s.mem) ∧
        Gives (.configSpaceWrite p .linkControl v) s (fun t => (getPort t p).aspmL1 = v.getLsbD 1 ∧ t.mem = s.mem) ∧
        Gives (.configSpaceWrite p .deviceControl2 v) s (fun t => (getPort t p).cplTimeout = v.setWidth 4 ∧ t.mem = s.mem))) ∧
  (∀ (s : State) (st : Status) (source unit : Nat) (detail : Bytes), unit < 65536 →
      (s.err.windows.find? (sameWindow st source unit) = none →
        let t := raiseEvent s st source unit detail
        t.err.nextSeq = s.err.nextSeq + 1 ∧ t.err.lastSeq = s.err.nextSeq ∧ t.err.lastStatus = BitVec.ofNat 16 (statusCode st) ∧
        t.err.generated = satAdd s.err.generated 1 ∧ (t.err.windows.find? (sameWindow st source unit)).isSome = true ∧ t.mem = s.mem) ∧
      (∀ w, s.err.windows.find? (sameWindow st source unit) = some w → s.nowNs < w.opened + 1000000 →
        let t := raiseEvent s st source unit detail
        t.err.generated = s.err.generated ∧ t.out = s.out ∧
        (t.err.windows.find? (sameWindow st source unit)).map (·.count) = some (w.count + 1)) ∧
      (∀ (code : BitVec 16) (src : BitVec 8) (u : BitVec 16) (w : EventWindow), statusOf code.toNat = some st →
        s.err.windows.find? (sameWindow st src.toNat u.toNat) = some w → w.opened + 1000000 ≤ s.nowNs →
        Gives (.coalesceWindowEnd code src u) s fun t =>
          t.err.windows.find? (sameWindow st src.toNat u.toNat) = none ∧ t.mem = s.mem ∧
          t.err.generated = (if w.count = 0 then s.err.generated else satAdd s.err.generated 1) ∧
          t.err.coalesced = (if w.count = 0 then s.err.coalesced else satAdd s.err.coalesced w.count)))

/-! ## Reset, power and ageing (chapters 01, 17 and 18) -/

/-- R499, R577: power-on with VAO off runs steps 1 to 5: SLOT_ID is latched, memory holds nothing, and MR0 holds its first
extend; self-test done completes step 6, records its failures, those of a shared block for its whole cluster and those of a
die for all its clusters, and leaves the stores without their bytes (R580); the first monitor sweep completes step 7 and sets
permitted_max. The model's choices: memory that holds nothing reads 0 (log entry 3), steps 1 to 5 are one command (log entry
83), and point 0 stays permitted whatever a sweep finds (log entry 88). -/
def Obligations.PowerUpSequence : Prop :=
  ∀ (s : State),
    (∀ slot : BitVec 4, s.rst.supply = .off → Gives (.powerOn slot) s fun t =>
      t.rst.supply = .on ∧ t.rst.step = 5 ∧ t.pwr.slotId = slot ∧ (∀ a, memByte t.mem a = 0) ∧ resetKept s t ∧
      getMr t 0 = shake256 (zeroBytes 64 ++ [1, 0, 0, 0] ++ shake256 (Config.bootRom ++ Config.nightRom)) ∧
      (∀ i, i ≠ 0 → getMr t i = zeroBytes 64) ∧ t.err.failLog = s.err.failLog) ∧
    (∀ fails : SelftestResult, s.rst.supply = .on → s.rst.step = 5 → keysRise fails.cores = true →
      Gives (.selftestDone fails) s fun t =>
        t.rst.step = 6 ∧ t.rst.selftestDone = true ∧
        (∀ c < 64, smGet 0 t.rst.bist c =
          if fails.clusters.any (fun k => k.toNat == c) || fails.dies.any (fun d => (dieClusters d.toNat).contains c)
          then BitVec.allOnes 64 else smGet 0 fails.cores c) ∧
        ∀ a, memByte t.mem a = if inStores a then 0 else memByte s.mem a) ∧
    (∀ rates : List Nat, computeOn s = true → s.rst.step = 6 → rates ≠ [] → Gives (.monitorSweep rates) s fun t =>
      t.rst.step = 7 ∧ t.pwr.ceil.permitted = supported (slowest rates) ∧ t.mem = s.mem)

/-- R572 to R575, R577: an effective MODULE_RST_N resets the module and holds it; DRAM keeps its bytes where self-refresh
was reached, and every other byte is lost; its release resumes the sequence at step 3. R554, R571, R577: trips remove
every rail but VAO, log their kind and lose memory, while the Night Assistant domain keeps its state; MODULE_RST_N after a
thermal trip is that trip's recovery, with cause 2, and the input trip recovers into a new start, with cause 3; a failed rail
ends the sequence with cause 5 and is retried once after a second; the loss of VAO loses the measurements. The model's choices:
lost bytes read 0 (log entry 3), what a trip or a failed rail leaves until the module reset that follows, locks among it (log
entry 82), and rail_fail through the retry and the range of the sequence's steps (log entry 83). -/
def Obligations.ResetsAndTrips : Prop :=
  (∀ (s : State), Sound s → s.pwr.thermTrip = false → s.rst.inputTrip = false →
      (∀ kept : Bool, (sideIn s 5).asserted = false → (sideIn s 5).masked = false → sideSoon s (sideIn s 5) = false →
        s.rst.supply = .on → Gives (.moduleRstNAssert kept) s fun t =>
          resetKept s t ∧ t.rst.supply = .vao ∧ t.rst.inReset = true ∧ t.rst.cause = 1 ∧ t.rst.dramKept = kept ∧
          (∀ i, getMr t i = zeroBytes 64) ∧ t.err.failLog = s.err.failLog ∧
          ∀ a, memByte t.mem a = if kept = true ∧ region a = .dram then memByte s.mem a else 0) ∧
      ((sideIn s 5).asserted = true → (sideIn s 5).effect = true → Gives .moduleRstNDeassert s fun t =>
          t.rst.supply = .on ∧ t.rst.step = 5 ∧ t.rst.inReset = false ∧ (sideIn t 5).asserted = false ∧ t.mem = s.mem)) ∧
  (∀ (s : State) (kept : Bool), Sound s → s.pwr.thermTrip = true → s.rst.supply = .vao → s.rst.inReset = false →
      (sideIn s 5).asserted = false → (sideIn s 5).masked = false → sideSoon s (sideIn s 5) = false →
      Gives (.moduleRstNAssert kept) s fun t =>
        resetKept s t ∧ t.rst.supply = .vao ∧ t.rst.inReset = true ∧ t.rst.cause = 2 ∧ t.rst.dramKept = false ∧
        t.pwr.thermTrip = false ∧ (∀ i, getMr t i = zeroBytes 64) ∧ .pin "THERMTRIP_N" false ∈ t.out) ∧
  (∀ (s : State), Sound s → s.err.failLog.length < 4032 →
      (s.rst.supply = .on → Gives .thermalTrip s fun t =>
        DomainKept s t ∧ t.rst.supply = .vao ∧ t.pwr.thermTrip = true ∧ logged s t 6 ∧ (∀ a, memByte t.mem a = 0) ∧
        (s.pwr.thermTrip = false → .pin "THERMTRIP_N" true ∈ t.out)) ∧
      (s.rst.supply ≠ .off → s.rst.inputTrip = false → Gives .inputTrip s fun t =>
        DomainKept s t ∧ t.rst.supply = .vao ∧ t.rst.inputTrip = true ∧ logged s t 7 ∧ ∀ a, memByte t.mem a = 0) ∧
      (s.rst.supply = .vao → s.rst.inputTrip = true → s.pwr.thermTrip = false → (sideIn s 5).asserted = false →
        Gives .inputTripRecovery s fun t =>
          t.rst.supply = .on ∧ t.rst.step = 5 ∧ t.rst.cause = 3 ∧ t.rst.inputTrip = false ∧ resetKept s t) ∧
      (∀ rail : BitVec 3, s.rst.supply = .on → s.rst.step = 5 → Gives (.railFail rail) s fun t =>
        DomainKept s t ∧ t.rst.supply = .vao ∧ t.rst.cause = 5 ∧ t.rst.railFail = true ∧ logged s t 8 ∧
        t.pwr.alert.isSome = true) ∧
      (s.rst.supply = .vao → s.rst.railFail = true → s.rst.railTries = 1 → s.rst.railAt + 1000000000 ≤ s.nowNs →
        s.rst.inReset = false → s.rst.inputTrip = false → s.pwr.thermTrip = false → Gives .railFailRetry s fun t =>
          t.rst.supply = .on ∧ t.rst.step = 5) ∧
      (s.rst.supply ≠ .off → Gives .vaoLoss s fun t =>
        resetKept s t ∧ t.rst.supply = .off ∧ (∀ i, getMr t i = zeroBytes 64) ∧ (∀ a, memByte t.mem a = 0) ∧
        t.err.failLog = s.err.failLog))

/-- R558, R560, R562: the stages of an entry to Closed or Parked. A quiet module passes quiesce; the save moves to point 0 and,
for Parked, writes the handoff record; then rail-off, after which the stores of the dies are lost (what they lost reads 0: log
entry 3) and DRAM is not. A wake before abort point 3 abandons the entry. R559, R561, R562, R566: a due exit returns to Open at
point 2 or below, one from Parked with the copy of the image checked again; the wake outputs asserted at a Parked exit end
after a second. The number that an abort reports for each stage, and when a late quiesce ends an entry, are the model's reading
(log entry 75). -/
def Obligations.PowerStateMoves : Prop :=
  (∀ (s : State) (e : PowerEntry), Sound s → s.pwr.entry = some e → e.target = 3 ∨ e.target = 4 →
      let go := if e.target = 3 then Instr.closedEntry else Instr.parkedEntry
      (s.pwr.wake = false → e.stage = 0 → quiet s = true → e.byHold = false → Gives go s fun t =>
        t.pwr.entry = some { e with stage := 1 } ∧ t.mem = s.mem) ∧
      (s.pwr.wake = false → e.stage = 1 → e.target = 3 → Gives go s fun t =>
        t.pwr.entry = some { e with stage := 2 } ∧ (computeOn s = true → s.pwr.ceil.change = none → t.pwr.ceil.point = 0) ∧ t.mem = s.mem) ∧
      (s.pwr.wake = false → e.stage = 1 → e.target = 4 → Gives go s fun t =>
        t.pwr.entry = some { e with stage := 2 } ∧ t.fw.handoff = some (handoffRecord s) ∧ t.freeCount = s.freeCount + 1 ∧
        (computeOn s = true → s.pwr.ceil.change = none → t.pwr.ceil.point = 0) ∧ t.mem = s.mem) ∧
      (s.pwr.wake = false → e.stage = 2 → Gives go s fun t =>
        t.pwr.entry = some { e with stage := 3, reply := none } ∧ t.mem = s.mem) ∧
      (3 ≤ e.stage → quiet s = true → Gives go s fun t =>
        t.pwr.state = e.target ∧ t.pwr.entry = none ∧ t.cores = [] ∧ t.cmd.counters = [] ∧
        (∀ a, memByte t.mem a = if onDies a then 0 else memByte s.mem a) ∧
        (e.target = 3 → t.pwr.closedCount = satAdd s.pwr.closedCount 1 ∧ t.pwr.parkedCount = s.pwr.parkedCount) ∧
        (e.target = 4 → t.pwr.parkedCount = satAdd s.pwr.parkedCount 1 ∧ (getPort t .a).lost = true ∧ (getPort t .b).lost = true)) ∧
      (s.pwr.wake = true → e.stage < 3 → holdOn s = false → Gives go s fun t =>
        t.pwr.entry = none ∧ t.pwr.lastAbort = BitVec.ofNat 2 (e.stage + 1) ∧ t.pwr.abortCount = satAdd s.pwr.abortCount 1 ∧
        t.pwr.state = s.pwr.state) ∧
      (e.stage = 0 → quiet s = false → e.started + e.quiesceMs * 1000000 ≤ s.nowNs → e.byHold = false → holdOn s = false →
        Gives .quiesceTimeout s fun t => t.pwr.entry = none ∧ t.pwr.abortCount = satAdd s.pwr.abortCount 1 ∧ t.mem = s.mem) ∧
      (e.stage = 0 → quiet s = false → e.started + e.quiesceMs * 1000000 ≤ s.nowNs → e.byHold = true → s.fw.state ≠ 5 →
        Gives .quiesceTimeout s fun t => t.pwr.entry = some { e with stage := 1 })) ∧
  (∀ (s : State), Sound s →
      (exitDue s 3 = true → s.pwr.held = [] → s.pwr.openWait = [] → holdOn s = false → Gives .closedExit s fun t =>
        t.pwr.state = 0 ∧ t.pwr.wake = false ∧ t.pwr.entry = none ∧ t.pwr.ceil.point ≤ 2 ∧ t.mem = s.mem) ∧
      (exitDue s 4 = true → s.pwr.held = [] → s.pwr.openWait = [] → holdOn s = false → parkedGood s = true → Gives (.parkedExit true) s fun t =>
        t.pwr.state = 0 ∧ t.pwr.entry = none ∧ t.pwr.ceil.point ≤ 2 ∧ t.pwr.wakeA = some s.nowNs ∧ t.pwr.wakeB = some s.nowNs ∧
        t.mem = s.mem) ∧
      (∀ loaded : Bool, exitDue s 4 = true → s.err.failLog.length < 4032 → (loaded && parkedGood s) = false →
        Gives (.parkedExit loaded) s fun t => resetKept s t ∧ t.rst.cause = 4 ∧ logged s t 10) ∧
      (∀ (p : HPort) (at_ : Nat), wakeOut s p = some at_ → at_ + 1000000000 ≤ s.nowNs → Gives (.wakeOutputLimit p) s fun t =>
        wakeOut t p = none ∧ t.out = s.out ++ [.pin (wakeName p) false] ∧ t.mem = s.mem))

/-- R559, R564, R565: effective assertions of HOLD_N, PWRBRK_N and WAKE_IN_N, their ends, and the filter: an assertion
that lasts 10 ms is held, a held input is masked when it ends, 10 ms of rest unmask it, and a masked input is only
counted. The model's reading (log entry 80): when HOLD_N acts, and that an assertion of WAKE_IN_N, whose end no row names, is
asserted no longer than its command. -/
def Obligations.SidebandInputs : Prop :=
  ∀ (s : State), Sound s → s.rst.supply = .on →
    let fresh := fun (i : Nat) => (sideIn s i).asserted = false ∧ (sideIn s i).masked = false ∧ sideSoon s (sideIn s i) = false
    (fresh 3 → 4 ≤ s.fw.state → s.err.fwFatal = false → s.pwr.entry = none → s.pwr.state < 3 → Gives .holdNAssert s fun t =>
      (∃ e, t.pwr.entry = some e ∧ e.byHold = true ∧ e.stage = 0 ∧
        e.target = if s.pwr.cfg.getLsbD 8 && parkAllowed s then 4 else 3) ∧
      (sideIn t 3).events = satAdd (sideIn s 3).events 1 ∧ t.mem = s.mem) ∧
    ((sideIn s 3).asserted = true → (sideIn s 3).effect = true → s.pwr.entry.isSome = true ∨ 3 ≤ s.pwr.state →
      Gives .holdNDeassert s fun t => (sideIn t 3).asserted = false ∧ t.pwr.wake = true ∧ t.mem = s.mem) ∧
    (fresh 4 → Gives .pwrbrkNAssert s fun t => t.pwr.ceil.brake = true ∧ (sideIn t 4).asserted = true ∧ t.mem = s.mem) ∧
    ((sideIn s 4).asserted = true → (sideIn s 4).effect = true → Gives .pwrbrkNDeassert s fun t =>
      t.pwr.ceil.brake = false ∧ (sideIn t 4).asserted = false ∧ t.mem = s.mem) ∧
    ((sideIn s 2).masked = false → (sideIn s 2).held = false → sideSoon s (sideIn s 2) = false → 3 ≤ s.pwr.state →
      holdOn s = false → Gives .wakeInN s fun t => t.pwr.wake = true ∧ (sideIn t 2).asserted = false ∧
        (sideIn t 2).events = satAdd (sideIn s 2).events 1 ∧ t.mem = s.mem) ∧
    (∀ i c, (i, c) ∈ [(0, Instr.perstDeassert .a), (1, .perstDeassert .b), (3, .holdNDeassert), (4, .pwrbrkNDeassert),
        (5, .moduleRstNDeassert)] → (sideIn s i).asserted = true → Gives c s fun t =>
      (sideIn t i).asserted = false ∧ (sideIn t i).held = false ∧
      (sideIn t i).masked = ((sideIn s i).masked || (sideIn s i).held)) ∧
    ((sideIn s 6).lastEvent = none → Gives .slotIdChange s fun t =>
      (sideIn t 6).events = satAdd (sideIn s 6).events 1 ∧ t.pwr.slotId = s.pwr.slotId ∧ t.mem = s.mem) ∧
    (∀ i : BitVec 3, (sideIn s i.toNat).asserted = true → (sideIn s i.toNat).edge + 10000000 ≤ s.nowNs →
      Gives (.inputHeld i) s fun t => (sideIn t i.toNat).held = true ∧ t.mem = s.mem ∧ t.out = s.out) ∧
    ((sideIn s 2).held = true ∨ (sideIn s 2).masked = true → Gives (.inputUnmasked 2) s fun t =>
      (sideIn t 2).masked = false ∧ (sideIn t 2).held = false ∧ t.mem = s.mem ∧ t.out = s.out) ∧
    (∀ i : BitVec 3, i ≠ 2 → (sideIn s i.toNat).masked = true → (sideIn s i.toNat).asserted = false →
      (sideIn s i.toNat).edge + 10000000 ≤ s.nowNs → Gives (.inputUnmasked i) s fun t =>
        (sideIn t i.toNat).masked = false ∧ t.mem = s.mem ∧ t.out = s.out) ∧
    ((sideIn s 4).asserted = false → (sideIn s 4).masked = true → Gives .pwrbrkNAssert s fun t =>
      t.pwr.ceil = s.pwr.ceil ∧ (sideIn t 4).suppressed = satAdd (sideIn s 4).suppressed 1 ∧ t.out = s.out)

/-- R32, R33, R544 to R546, R548: a request the ceilings permit moves down at once and up only after its rails have settled
and the monitors carry it, and is answered OK; one they do not permit is REFUSED and counted; one that comes during a change
waits. The base dies take the drive of a higher point before its rails move, and of a lower one after. A guard step-down,
of a reading too low or of too many slips in the window, moves one point down at once and keeps a waiting request for a
lower point; a sweep whose slowest reading is too low does the same. The model's reading: when a change takes effect and what
a ceiling refuses (log entry 77), and what a step-down does to a change or to a request that waits (log entry 97). -/
def Obligations.CadencePoints : Prop :=
  ∀ (s : State), computeOn s = true →
    let c := s.pwr.ceil
    (∀ (t : BitVec 3) (o : PointOrigin), lowestCeil s < t.toNat → Gives (.pointRequest t o) s fun u =>
      u = { s with pwr := { s.pwr with refusals := satAdd s.pwr.refusals 1, ceil := { c with answer := some .refused } } }) ∧
    (∀ (t : BitVec 3) (o : PointOrigin), t.toNat ≤ lowestCeil s → c.change = none → t.toNat ≠ c.point →
      Gives (.pointRequest t o) s fun u =>
        u.pwr.ceil.point = min t.toNat c.point ∧ u.pwr.refusals = s.pwr.refusals ∧ u.pwr.ceil.answer = some .ok ∧ u.mem = s.mem ∧
        u.pwr.drive = (if c.point < t.toNat then .ofPoint t.toNat else s.pwr.drive) ∧
        u.pwr.ceil.change = some { fromPoint := c.point, toPoint := t.toNat, origin := o, guard := false }) ∧
    (∀ (t : BitVec 3) (o : PointOrigin) (x : PointChange), t.toNat ≤ lowestCeil s → c.change = some x →
      x.guard = false ∨ t.toNat ≤ c.point →
      let wait : PointChange := { fromPoint := c.point, toPoint := t.toNat, origin := o, guard := false }
      Gives (.pointRequest t o) s fun u => u.mem = s.mem ∧
        u.pwr.ceil = { c with answer := some .ok, waiting := if t.toNat = x.toPoint then none else some wait }) ∧
    (∀ (rates : List Nat) (x : PointChange), c.change = some x → c.waiting = none → c.point < x.toPoint →
      105 * cadMhz x.toPoint ≤ 100 * slowest rates → x.toPoint ≤ lowestCeil s → Gives (.railSettled rates) s fun u =>
        u.pwr.ceil.point = x.toPoint ∧ u.pwr.ceil.change = none ∧ u.pwr.drive = .ofPoint x.toPoint ∧ u.mem = s.mem) ∧
    (∀ (rates : List Nat) (x : PointChange), c.change = some x → c.waiting = none → c.point < x.toPoint →
      100 * slowest rates < 105 * cadMhz x.toPoint → Gives (.railSettled rates) s fun u =>
        u.pwr.ceil.point ≤ c.point ∧ u.pwr.ceil.permitted = min c.permitted (supported (slowest rates)) ∧
        u.pwr.drive = .ofPoint c.point) ∧
    (∀ (rates : List Nat) (x : PointChange), c.change = some x → c.waiting = none → x.toPoint ≤ c.point → c.point ≤ lowestCeil s →
      Gives (.railSettled rates) s fun u =>
        u.pwr.ceil.point = c.point ∧ u.pwr.ceil.change = none ∧ u.pwr.drive = .ofPoint c.point ∧ u.mem = s.mem) ∧
    (0 < c.point →
      let stepped := fun (u : State) =>
        u.pwr.ceil.point ≤ c.point - 1 ∧ u.cr.stepDowns = satAdd s.cr.stepDowns 1 ∧ u.mem = s.mem
      (∀ (k : ClusterId) (rate : Nat) (bySlips : Bool),
        (if bySlips then slipsExceed s k.toNat = true else 100 * rate < 102 * cadMhz c.point) →
        Gives (.guardStepDown k rate bySlips) s fun u => stepped u ∧ u.pwr.ceil.point = c.point - 1 ∧
          u.pwr.ceil.permitted = min c.permitted (c.point - 1) ∧
          u.pwr.ceil.waiting = c.waiting.filter (fun w => decide (w.toPoint < c.point - 1))) ∧
      (∀ rates : List Nat, 6 ≤ s.rst.step → rates ≠ [] → 100 * slowest rates < 102 * cadMhz c.point →
        Gives (.monitorSweep rates) s stepped))

/-- R552, R553: each limiter sets its ceiling, counts, asserts ALERT_N and moves the point no higher than the ceiling;
each is released. R27, R550, R551, R556: the loops lower their ceiling while their reading is too high and store every
reading; a tick counts its slips, notes them in the window of R32 and counts the idle ticks of arrays; an idle cluster is gated
in Shuttered, its stores in retention (R548), and wakes when used. The model's choices: which readings of a sensor count (log
entry 77), what wakes a cluster and which are gated (log entry 78), and which ticks of an array are idle (log entry 89). -/
def Obligations.LimitersAndLoops : Prop :=
  (∀ (s : State), Sound s → computeOn s = true → s.pwr.ceil.change = none →
      (∀ w : Nat, s.pwr.ceil.lastFast = none → 110 * s.fw.powerLimit.toNat < 100 * w → Gives (.fastPower w) s fun t =>
        t.pwr.ceil.fast = some (s.pwr.ceil.point - 1) ∧ t.pwr.fastCount = satAdd s.pwr.fastCount 1 ∧
        t.pwr.ceil.point ≤ s.pwr.ceil.point - 1 ∧ t.pwr.alert.isSome = true ∧ t.mem = s.mem) ∧
      (s.pwr.ceil.overcurrent = false → Gives .overcurrent s fun t =>
        t.pwr.ceil.overcurrent = true ∧ t.pwr.overCount = satAdd s.pwr.overCount 1 ∧ t.pwr.ceil.point = 0 ∧
        t.pwr.alert.isSome = true ∧ t.mem = s.mem) ∧
      (s.pwr.ceil.hot = false → Gives .hot s fun t =>
        t.pwr.ceil.hot = true ∧ t.pwr.hotCount = satAdd s.pwr.hotCount 1 ∧ t.pwr.ceil.point ≤ 2 ∧
        t.pwr.alert.isSome = true ∧ t.mem = s.mem) ∧
      (s.pwr.ceil.inputLow = false → Gives .inputLow s fun t =>
        t.pwr.ceil.inputLow = true ∧ t.pwr.lowCount = satAdd s.pwr.lowCount 1 ∧ t.pwr.ceil.point = 0 ∧
        t.pwr.alert.isSome = true ∧ t.mem = s.mem) ∧
      Gives .hotRelease s (fun t => t.pwr.ceil.hot = false ∧ t.mem = s.mem) ∧
      Gives .inputLowRelease s (fun t => t.pwr.ceil.inputLow = false ∧ t.mem = s.mem) ∧
      (loopsRun s = true → s.fw.loopsTaken = true → lasted s s.pwr.ceil.belowLimit 4000000 = true →
        (s.pwr.ceil.fast.isSome = true → Gives (.limiterRelease .fastPower) s fun t =>
          t.pwr.ceil.fast = none ∧ t.pwr.ceil.power = s.pwr.ceil.point ∧ t.mem = s.mem) ∧
        (s.pwr.ceil.overcurrent = true → lasted s s.pwr.ceil.belowAmps 10000000 = true →
          Gives (.limiterRelease .overcurrent) s fun t =>
            t.pwr.ceil.overcurrent = false ∧ t.pwr.ceil.power = s.pwr.ceil.point ∧ t.mem = s.mem)) ∧
      (∀ p : FabPort, (getFab s p.toNat).hot = false → Gives (.opticsHot p) s fun t =>
        (getFab t p.toNat).hot = true ∧ (getFab t p.toNat).st = 0) ∧
      (∀ p : FabPort, (getFab s p.toNat).hot = true → (getFab s p.toNat).st = 0 → Gives (.opticsHotRelease p) s fun t =>
        (getFab t p.toNat).hot = false ∧ t.mem = s.mem ∧
        (cfgEn (getFab s p.toNat).cfg = true → pairJoined s p.toNat = false → s.pwr.state < 3 → (getFab t p.toNat).st = 1) ∧
        (3 ≤ s.pwr.state → (getFab t p.toNat).st = 0))) ∧
  (∀ (s : State), Sound s →
      (∀ (pIn pPkg v i : Nat) (rails : List Nat), loopsRun s = true → s.fw.loopsTaken = true → s.fw.powerLimit.toNat < pIn →
        Gives (.powerLoopTick pIn pPkg v i rails) s fun t =>
          t.pwr.ceil.power = s.pwr.ceil.point - 1 ∧ t.pwr.sensors.pIn = pIn ∧ t.pwr.sensors.rails = rails ∧ t.mem = s.mem) ∧
      (∀ (cl io op di : List Nat), loopsRun s = true → s.fw.loopsTaken = true →
        let hot := ((cl ++ io).filter (· != 0xFF)).foldl max 0
        (thermalTarget s.fw.thermalProfile.toNat).1 < hot → lasted s s.pwr.ceil.aboveTarget 10000000 = true →
        s.pwr.ceil.lastDown + 10000000 ≤ s.nowNs → Gives (.thermalLoopTick cl io op di) s fun t =>
          t.pwr.ceil.thermal = s.pwr.ceil.thermal - 1 ∧ t.pwr.sensors.clusters = cl ∧ t.pwr.sensors.dimms = di ∧ t.mem = s.mem) ∧
      (∀ slips : List (Nat × Nat), computeOn s = true → 7 ≤ s.rst.step → Gives (.cadenceTick slips) s fun t =>
        t.cr.slips = satAdd s.cr.slips ((slips.map (·.2)).sum) ∧ t.mem = s.mem ∧
        t.pwr = { s.pwr with ticks := s.pwr.ticks + 1, slipWin := t.pwr.slipWin } ∧
        (∀ p ∈ slips, 0 < p.2 → (s.pwr.ticks + 1, p.1, p.2) ∈ t.pwr.slipWin) ∧
        ∀ n, (getCore t n).tokens = (getCore s n).tokens ∧ (getCore t n).pq = (getCore s n).pq ∧
          (getCore t n).lpa = (getCore s n).lpa.map (fun r =>
            { r with idle := r.idle + if smGet false s.pwr.gated (n / 64) then 0 else idleArrays r })) ∧
      (∀ c : ClusterId, s.pwr.state = 2 → clusterIdle s c.toNat = true → smGet 0 s.pwr.lastUse c.toNat + idleNs s ≤ s.nowNs →
        Gives (.clusterGate c) s fun t => driveOf t c.toNat = .retention ∧ t.mem = s.mem) ∧
      (∀ c : ClusterId, Gives (.clusterWake c) s fun t => driveOf t c.toNat = s.pwr.drive ∧ t.mem = s.mem))

/-- R46 to R48: a core without progress for 2^20 ticks, and a unit that fails, become unavailable with one entry in the
failure log (kind 1 for a core, kind 2 for a cluster). R567, R568: a wear reading adds a minute to the hours of every die
that is on; a re-plan that is due, and whose every point keeps its margin at some offset, leaves the table and sets the
offset and the planned wear; one that is not due does nothing. The model's choices: a reading stands for 60 s of powered time
(log entry 84), how a mean is rounded is a free value (log entry 14) and a negative one reads 0 (log entry 101), when a re-plan
and the failure of a unit are acted on (log entry 85), and that the hours of the plan lie in flash (log entry 98). -/
def Obligations.AgeingAndFailures : Prop :=
  (∀ (s : State), Sound s → s.err.failLog.length < 4032 →
      (∀ c : CoreId, coreAvail s c.toNat = true → imageRuns s = true → 2 ^ 20 ≤ (getCore s c.toNat).noProg → Gives (.coreNoProgress c) s fun t =>
        coreAvail t c.toNat = false ∧ (∀ n, n ≠ c.toNat → coreAvail t n = coreAvail s n) ∧ logged s t 1 ∧
        getCore t c.toNat = Core.idle) ∧
      (∀ c : CoreId, coreAvail s c.toNat = true → 3 ≤ s.fw.state → s.err.fwFatal = false →
        Gives (.unitFails (.core c)) s fun t =>
          coreAvail t c.toNat = false ∧ (∀ n, n ≠ c.toNat → coreAvail t n = coreAvail s n) ∧ logged s t 1) ∧
      (∀ k : ClusterId, clusterAvail s k.toNat = true → 3 ≤ s.fw.state → s.err.fwFatal = false →
        Gives (.unitFails (.cluster k)) s fun t =>
          clusterAvail t k.toNat = false ∧ (∀ n, n / 64 ≠ k.toNat → coreAvail t n = coreAvail s n) ∧ logged s t 2)) ∧
  (∀ (s : State), s.pwr.wear.length = 4 →
      (∀ pairs : List (List (Nat × Nat)), computeOn s = true → Gives (.wearReading pairs) s fun t =>
        t.mem = s.mem ∧ t.pwr.wear.length = 4 ∧ ∀ d < 4,
          (wearOf t d).hours = (if 3600 ≤ (wearOf s d).seconds + 60 then satAdd (wearOf s d).hours 1 else (wearOf s d).hours) ∧
          (wearOf t d).degPlan = (wearOf s d).degPlan ∧ (wearOf t d).offset = (wearOf s d).offset ∧
          (pairs.getD d [] ≠ [] → (∀ x ∈ pairs.getD d [], x.2 ≠ 0) →
            (wearOf t d).deg = degWord (degOf (pairs.getD d [])))) ∧
      (∀ (d : BitVec 2) (reading tj : Nat), loopsRun s = true →
        let w := wearOf s d.toNat
        let top := s.pwr.ceil.tableMax
        let mv := ((railMv s.pwr.ceil.point : Int) + offsetMv w).toNat
        let o := raiseOffset reading mv tj top 13 w.offset.toInt
        (planDue w = false → Gives (.replan d reading tj) s fun t => t = s) ∧
        (planDue w = true → (List.range (top + 1)).all (pointHolds reading mv tj o) = true → Gives (.replan d reading tj) s fun t =>
          wearOf t d.toNat = { w with offset := BitVec.ofInt 8 o, degPlan := w.deg, planned := w.hours } ∧ t.pwr.ceil.tableMax = top ∧
          t.err = s.err ∧ t.mem = s.mem) ∧
        (∀ q, planDue w = true → 0 < q → (List.range (top + 1)).find? (fun q => !(pointHolds reading mv tj o q)) = some q →
          Gives (.replan d reading tj) s fun t => t.pwr.ceil.tableMax = q - 1 ∧ t.mem = s.mem)))

/-! ## Firmware (chapter 16) -/

/-- R497, R499, R517, R518, R522: HELLO reports version, svn, state and loader; LOAD_BEGIN makes its port the loader;
LOAD_DATA adds the next bytes; LOAD_END of an image that passes R497 extends MR1 and starts it, and of one that fails
returns to ROM_IDLE with boot_err. R519, R582, R583, R593: losing the loader's port discards a partial image or moves the
loader role; a started image brings up DRAM and enters CONFIG_WAIT; a first watchdog failure restarts the image, in RUNNING and
in an update as before it, and ends a prepare with FWU_ACTIVATE answered; a second one within a second stops the Control Cluster.
The model's choices: which MRDIMMs are there comes with the command (log entry 51), and a copy of the image that fails R497 when
it is to restart stops the Control Cluster too (log entry 102). -/
def Obligations.FirmwareStartsAndFails : Prop :=
  (∀ (ch : BitVec 3) (m : Bytes) (r : MbxReq) (s : State), Sound s →
      let p := mbPayload m
      (Taken s ch m 0x01 r → Gives (.hello ch m) s fun t =>
        Replied t r .ok (leBytes 4 (if s.fw.state < 2 then Config.romVersion else s.fw.version).toNat ++ leBytes 2 s.sec.svn.toNat ++
          [s.fw.state.setWidth 8, s.fw.loader.setWidth 8, s.sec.bootErr.setWidth 8, 0, 0, 0]) ∧ t.sec = s.sec ∧ t.mem = s.mem) ∧
      (Taken s ch m 0x02 r → le (fit p 4) 0 4 ≤ 24 * 2 ^ 20 → Gives (.loadBegin ch m) s fun t =>
        Replied t r .ok [] ∧ t.fw.state = 1 ∧ t.fw.loader.toNat = ch.toNat ∧ t.fw.loadLen = le (fit p 4) 0 4 ∧ t.fw.loadBytes = []) ∧
      (Taken s ch m 0x03 r → le (fit p 4) 0 4 = s.fw.loadBytes.length → s.fw.loadBytes.length + (p.drop 4).length ≤ s.fw.loadLen →
        Gives (.loadData ch m) s fun t =>
          Replied t r .ok (leBytes 4 (s.fw.loadBytes.length + (p.drop 4).length)) ∧ t.fw.loadBytes = s.fw.loadBytes ++ p.drop 4 ∧
          t.fw.state = s.fw.state) ∧
      (Taken s ch m 0x04 r → imageCheck s s.fw.loadBytes = 0 → Gives (.loadEnd ch m) s fun t =>
        Replied t r .ok [0] ∧ t.fw.state = 2 ∧ t.fw.image = s.fw.loadBytes ∧ t.sec.svn = BitVec.ofNat 16 (imSvn s.fw.loadBytes) ∧
        getMr t 1 = shake256 (getMr s 1 ++ [2, 0, 0, 0] ++ imDigest s.fw.loadBytes)) ∧
      (Taken s ch m 0x04 r → imageCheck s s.fw.loadBytes ≠ 0 → Gives (.loadEnd ch m) s fun t =>
        Replied t r .ok [BitVec.ofNat 8 (imageCheck s s.fw.loadBytes)] ∧ t.fw.state = 0 ∧
        t.sec.bootErr = BitVec.ofNat 3 (imageCheck s s.fw.loadBytes) ∧ t.fw.image = s.fw.image ∧ t.sec.mrs = s.sec.mrs)) ∧
  (∀ (s : State), Sound s → s.err.failLog.length < 4032 →
      (∀ p : HPort, portNo p = s.fw.loader.toNat → (getPort s p).linkUp = false →
        (s.fw.state = 1 → Gives (.loaderPortLost p) s fun t => t = { s with fw := { s.fw with state := 0, loadBytes := [], loadLen := 0 } }) ∧
        (s.fw.state = 2 ∨ s.fw.state = 3 → Gives (.loaderPortLost p) s fun t =>
          t.fw.loader.toNat = 1 - portNo p ∧ t.fw.state = s.fw.state ∧ t.mem = s.mem)) ∧
      (∀ spd : List (Option Dimm), s.fw.state = 2 → s.rst.selftestDone = true →
        (let ds := dimmsOf spd
         patternOf ds ≠ 0 → Gives (.enterConfigWait spd) s fun t =>
          t.fw.state = 3 ∧ t.fw.area = true ∧ t.fw.oldImage = s.fw.image ∧
          dramBytes t = (((ds.head?.map (fun p => p.2.capGb)).getD 0) * ds.length) % 65536 * 1000000000 ∧
          (∀ n, coreAvail t n = true → coreAvail s n = true) ∧ t.mem = s.mem)) ∧
      (∀ cause : WatchdogCause, 2 ≤ s.fw.state → s.err.fwFatal = false → s.fw.ccFailAt = none → copyGood s = true →
        let again := fun (t : State) =>
          t.err.fwRestarts = satAdd s.err.fwRestarts 1 ∧ t.err.fwFatal = false ∧
          getMr t 3 = shake256 (getMr s 3 ++ [2, 0, 0, 0] ++ imDigest (if s.fw.area then runningCopy s else s.fw.image)) ∧
          logged s t 9
        let calm := s.fw.waiting = [] ∧ (getPort s .a).mbxGo = false ∧ (getPort s .b).mbxGo = false
        (s.fw.phase ≠ 3 → s.fw.state ≠ 4 → Gives (.ccWatchdog cause) s fun t => again t ∧ t.fw.state = s.fw.state) ∧
        (s.fw.phase ≠ 3 → s.fw.state = 4 → calm → Gives (.ccWatchdog cause) s fun t =>
          again t ∧ t.fw.state = 4 ∧ t.fw.phase = s.fw.phase ∧ t.fw.mbxReady = true) ∧
        (s.fw.phase = 3 → calm → Gives (.ccWatchdog cause) s fun t =>
          again t ∧ t.fw.state = 4 ∧ t.fw.phase = 2 ∧ t.fw.activate = none)) ∧
      (∀ cause : WatchdogCause, 2 ≤ s.fw.state → s.err.fwFatal = false →
        (∃ at_, s.fw.ccFailAt = some at_ ∧ s.nowNs < at_ + 1000000000) ∨ copyGood s = false → Gives (.ccWatchdog cause) s fun t =>
          t.err.fwFatal = true ∧ t.fw.state = 0 ∧ t.fw.mbxReady = false ∧ t.pwr.alert.isSome = true ∧ logged s t 9))

/-- R521, R531, R532: a CONFIG_SET within its ranges takes effect when its response is sent, extends MR2 and leaves firmware
RUNNING; one outside, bits of event_mask beyond the classes among it (log entry 73, the model's reading), is
answered CONFIG_RANGE and changes nothing; EVENT_RING_SET names its port's ring, or takes it away. R530, R570: CERT_READ,
MLOG_READ, FAILLOG_READ, SENSOR_READ and FWU_STATUS answer with what they name and change neither memory, nor security,
nor power state. R524: the host's write of 1 to done clears it, or writes the response that waited (that it is written then is
the model's reading: log entry 73), and with it a configuration block that waited for its response takes effect. -/
def Obligations.MailboxSettingsAndReads : Prop :=
  (∀ (ch : BitVec 3) (m : Bytes) (r : MbxReq) (s : State), Sound s →
      (Taken s ch m 0x08 r →
        let b := fit (mbPayload m) 64
        (configGood b = true → Gives (.configSet ch m) s fun t =>
          Replied t r .ok [] ∧ t.fw.state = 4 ∧ t.fw.configBlock = b ∧
          t.fw.powerLimit.toNat = (if le b 0 2 = 0 then 3400 else le b 0 2) ∧ t.fw.thermalProfile = byteAt b 3 ∧
          t.fw.eventMask.toNat = le b 4 4 ∧ t.fw.preemptMin.toNat = le b 8 2 ∧
          getMr t 2 = shake256 (getMr s 2 ++ [3, 0, 0, 0] ++ shake256 b)) ∧
        (configGood b = false → Gives (.configSet ch m) s fun t =>
          Replied t r .configRange [] ∧ t.fw.configBlock = s.fw.configBlock ∧ t.fw.state = s.fw.state ∧ t.sec = s.sec)) ∧
      (Taken s ch m 0x09 r →
        let b := fit (mbPayload m) 18
        (le b 0 8 % 4096 = 0 → (byteAt b 16).toNat ≤ 10 → Gives (.eventRingSet ch m) s fun t =>
          Replied t r .ok [] ∧ (getPort t (chPort ch.toNat)).ring =
            if le b 0 8 = 0 then none
            else some { no := (getPort s (chPort ch.toNat)).ringNo + 1, base := le b 0 8, head := le b 8 8, sizeLog2 := (byteAt b 16).toNat, vector := (byteAt b 17).toNat, count := 0 }) ∧
        (le b 0 8 % 4096 ≠ 0 ∨ 10 < (byteAt b 16).toNat → Gives (.eventRingSet ch m) s fun t =>
          Replied t r .badField [] ∧ (getPort t (chPort ch.toNat)).ring = (getPort s (chPort ch.toNat)).ring))) ∧
  (∀ (ch : BitVec 3) (m : Bytes) (r : MbxReq) (s : State), Sound s →
      let p := mbPayload m
      let k := (byteAt (fit p 8) 0).toNat
      let from_ := le (fit p 4) 0 4
      let kept := fun (t : State) => t.mem = s.mem ∧ t.sec = s.sec ∧ t.pwr = s.pwr ∧ t.cmd = s.cmd ∧ t.err = s.err
      (Taken s ch m 0x0A r → k ≤ 2 → Gives (.certRead ch m) s fun t => kept t ∧
        Replied t r .ok (leBytes 4 (certBytes s k).length ++ (((certBytes s k).drop (le (fit p 8) 4 4)).take 4000))) ∧
      (Taken s ch m 0x0B r → Gives (.mlogRead ch m) s fun t => kept t ∧
        let es := (s.sec.mlog.drop from_).take 50
        Replied t r .ok (leBytes 4 es.length ++ es.flatten)) ∧
      (Taken s ch m 0x0C r → Gives (.faillogRead ch m) s fun t => kept t ∧
        let es := (s.err.failLog.drop from_).take 62
        Replied t r .ok (leBytes 4 es.length ++ es.flatten)) ∧
      (Taken s ch m 0x0D r → (byteAt p 0).toNat ≤ 4 → Gives (.sensorRead ch m) s fun t => kept t ∧
        Replied t r .ok (sensorGroup s (byteAt p 0).toNat)) ∧
      (Taken s ch m 0x0D r → 4 < (byteAt p 0).toNat → Gives (.sensorRead ch m) s fun t => kept t ∧ Replied t r .badField []) ∧
      (Taken s ch m 0x14 r → 2 ≤ s.fw.state → Gives (.fwuStatus ch m) s fun t => kept t ∧
        Replied t r .ok ([s.fw.phase.setWidth 8, s.fw.lastOutcome, s.fw.reverts, 0] ++
          leBytes 4 (match s.fw.staged with | some b => imVersion b | none => 0)))) ∧
  (∀ (p : HPort) (s : State), bar2Open s p = true → (getPort s p).mbxDone = true → (getPort s p).mbxGo = false →
      ((getPort s p).mbxHeld = none → Gives (.mbxDoneClear p) s fun t =>
        (getPort t p).mbxDone = false ∧ t.mem = s.mem ∧ t.fw = s.fw ∧ t.out = s.out) ∧
      (∀ resp, (getPort s p).mbxHeld = some resp → Gives (.mbxDoneClear p) s fun t =>
        (getPort t p).mbxDone = true ∧ (getPort t p).mbxOut.take resp.length = resp ∧ (getPort t p).mbxHeld = none ∧ t.mem = s.mem ∧
        ((getPort s p).mbxConfig = none → t.fw = s.fw) ∧
        ∀ b, (getPort s p).mbxConfig = some b → t.fw.state = 4 ∧ t.fw.configBlock = b ∧ t.fw.thermalProfile = byteAt b 3 ∧
          (getPort t p).mbxConfig = none))

/-- R557, R558, R569: a POWER_REQ for Open, Trimmed or Shuttered takes effect at once; one for Closed, or for Parked where
R562 allows it, begins the entry; one for Open during an entry, or in Closed, is a wake and is answered when the transition has
ended; one with a field out of range is rejected. That a trim_point with another target than Trimmed is such a field, and is
answered BAD_FIELD, is the model's choice (log entry 105), and what else is refused during an entry its reading (log entry 75). -/
def Obligations.PowerRequests : Prop :=
  ∀ (ch : BitVec 3) (m : Bytes) (r : MbxReq) (s : State), Sound s → Taken s ch m 0x0E r →
    let b := fit (mbPayload m) 4
    let target := (byteAt b 0).toNat
    let trim := (byteAt b 1).toNat
    (s.pwr.entry.isSome = true ∨ s.pwr.state = 3 → target = 0 → trim = 0 → holdOn s = false → Gives (.powerReq ch m) s fun t =>
      (∃ w : MbxReq, t.pwr = { s.pwr with wake := true, openWait := s.pwr.openWait ++ [(w, s.nowNs)] } ∧ w.channel = ch.toNat) ∧
      (getPort t (chPort ch.toNat)).mbxDone = false ∧ t.mem = s.mem) ∧
    (s.pwr.entry.isSome = true → target ≤ 4 → (if target = 1 then trim ≤ 6 else trim = 0) → target ≠ 0 →
      Gives (.powerReq ch m) s fun t => Replied t r .refused [] ∧ t.pwr = s.pwr) ∧
    (4 < target ∨ (target = 1 ∧ 6 < trim) ∨ (target ≠ 1 ∧ trim ≠ 0) → Gives (.powerReq ch m) s fun t =>
      Replied t r .badField [] ∧ t.pwr = s.pwr) ∧
    (s.pwr.entry = none → s.pwr.state < 3 →
    (target ≤ 2 → (if target = 1 then trim ≤ 6 else trim = 0) → Gives (.powerReq ch m) s fun t =>
      t.pwr.state.toNat = target ∧ (target = 1 → t.pwr.cfg.toNat % 16 = trim) ∧ (getPort t (chPort ch.toNat)).mbxDone = true ∧
      t.mem = s.mem) ∧
    (target = 3 ∨ (target = 4 ∧ parkAllowed s = true) → trim = 0 → Gives (.powerReq ch m) s fun t =>
      (∃ e, t.pwr.entry = some e ∧ e.target.toNat = target ∧ e.stage = 0 ∧ e.byHold = false ∧ e.started = s.nowNs) ∧
      (getPort t (chPort ch.toNat)).mbxDone = false ∧ t.mem = s.mem) ∧
    (target = 4 → trim = 0 → parkAllowed s = false → Gives (.powerReq ch m) s fun t =>
      Replied t r .refused [] ∧ t.pwr = s.pwr))

/-- R533 to R535, R529: a keyed FWU_STAGE copies the image, FWU_VERIFY marks one that passes R497, FWU_ACTIVATE of a
verified image enters prepare and FWU_ABORT takes the mark away; the same messages without a key are answered KEY_FAIL and
change nothing, whatever else their header holds but another version: that order of the checks is the model's reading (log
entry 72). -/
def Obligations.UpdateMessages : Prop :=
  ∀ (ch : BitVec 3) (m : Bytes) (r : MbxReq) (s : State), Sound s →
    let b := fit (mbPayload m) 12
    (Taken s ch m 0x10 r → s.fw.phase < 3 → s.fw.area = true → le b 0 8 % 64 = 0 → le b 8 4 ≤ 24 * 2 ^ 20 →
      (read s .dram (le b 0 8) (le b 8 4)).err = none → Gives (.fwuStage ch m) s fun t =>
        Replied t r .ok [] ∧ t.fw.staged = some (memRead s.mem (le b 0 8) (le b 8 4)) ∧ t.fw.verified = false ∧ t.fw.phase = 1 ∧
        t.mem = s.mem) ∧
    (∀ img, Taken s ch m 0x11 r → s.fw.staged = some img → s.fw.phase < 3 → Gives (.fwuVerify ch m) s fun t =>
        Replied t r .ok ([BitVec.ofNat 8 (imageCheck s img)] ++ leBytes 4 (imVersion img) ++ leBytes 2 (imSvn img)) ∧
        t.fw.verified = decide (imageCheck s img = 0) ∧ t.fw.phase = (if imageCheck s img = 0 then 2 else 1) ∧ t.mem = s.mem) ∧
    (Taken s ch m 0x12 r → s.fw.verified = true → s.fw.phase < 3 → s.pwr.state < 3 → s.hif.wtWait = none →
      Gives (.fwuActivate ch m) s fun t =>
        t.fw.state = 5 ∧ t.fw.phase = 3 ∧ t.fw.mbxReady = false ∧ t.fw.image = s.fw.image ∧ t.mem = s.mem ∧
        (getPort t (chPort ch.toNat)).mbxDone = false) ∧
    (Taken s ch m 0x13 r → s.fw.phase < 3 → Gives (.fwuAbort ch m) s fun t =>
        Replied t r .ok [] ∧ t.fw.verified = false ∧ t.fw.phase = (if s.fw.staged.isSome then 1 else 0) ∧ t.fw.staged = s.fw.staged) ∧
    (∀ kind c, (kind, c) ∈ [(0x10, Instr.fwuStage ch m), (0x11, .fwuVerify ch m), (0x12, .fwuActivate ch m), (0x13, .fwuAbort ch m)] →
      ch.toNat < 2 → bar2Open s (chPort ch.toNat) = true → (getPort s (chPort ch.toNat)).mbxGo = false →
      (getPort s (chPort ch.toNat)).mbxDone = false → s.fw.mbxReady = true → mbInService s ch.toNat = false →
      mbVersion m = none → mbType m = kind → 2 ≤ s.fw.state → mbKeyed m = false → 32 ≤ m.length → m.length ≤ 4096 →
      Gives c s fun t => Replied t { channel := ch.toNat, message := m, key := none } .keyFail [] ∧ t.fw = s.fw ∧ t.sec = s.sec ∧
        t.mem = s.mem)

/-- R535, R538 to R540: once the requests in service are finished the switch runs the staged image and starts the confirm clock,
and until then it waits; loops held for 20 ms bring point 2; a confirmation in time ends the update; without one, or when the
record is refused, the old image returns if it passes R497. The model's choices: when the new image takes the loops (log entry
74), how the manual's silence on the image that runs is filled (log entry 96), and that an old image which fails R497 leaves the
Control Cluster stopped (log entry 102). -/
def Obligations.UpdateSwitches : Prop :=
  ∀ (s : State), Sound s →
    (s.fw.state = 5 → s.fw.phase = 3 → serviceDone s = false → Gives .fwuSwitch s fun t => t = s) ∧
    (∀ img, s.fw.staged = some img → s.fw.state = 5 → s.fw.phase = 3 → serviceDone s = true → Gives .fwuSwitch s fun t =>
      t.fw.image = img ∧ t.fw.phase = 4 ∧ t.fw.switchAt = s.nowNs ∧ t.fw.loopsTaken = false ∧ t.fw.handoff.isSome = true ∧
      t.fw.oldImage = s.fw.oldImage ∧ t.sec.svn = BitVec.ofNat 16 (imSvn img) ∧
      getMr t 3 = shake256 (getMr s 3 ++ [2, 0, 0, 0] ++ imDigest img) ∧ t.mem = s.mem) ∧
    (s.fw.loopsTaken = false → s.pwr.ceil.loopHold = false → s.fw.switchAt + 20000000 ≤ s.nowNs → Gives .loopHoldTimeout s fun t =>
      t.pwr.ceil.loopHold = true ∧ t.fw.loopHolds = satAdd s.fw.loopHolds 1 ∧
      (computeOn s = true → s.pwr.ceil.change = none → t.pwr.ceil.point ≤ 2) ∧ t.mem = s.mem) ∧
    (s.fw.state = 5 → 4 ≤ s.fw.phase → s.nowNs < s.fw.switchAt + 500000000 → (s.fw.handoff.map acceptRecord) = some true →
      s.fw.waiting = [] → (getPort s .a).mbxGo = false → (getPort s .b).mbxGo = false → Gives .fwuConfirm s fun t =>
        t.fw.state = 4 ∧ t.fw.phase = 5 ∧ t.fw.updates = satAdd s.fw.updates 1 ∧ t.fw.image = s.fw.image ∧
        t.fw.loopsTaken = true ∧ t.fw.mbxReady = true ∧ t.sec.liveUpdated = true ∧ t.fw.activate = none ∧ t.mem = s.mem) ∧
    (∀ refused : Bool, s.fw.state = 5 → 4 ≤ s.fw.phase → refused = true ∨ s.fw.switchAt + 500000000 ≤ s.nowNs →
      imageCheck s s.fw.oldImage = 0 → s.fw.waiting = [] → (getPort s .a).mbxGo = false → (getPort s .b).mbxGo = false →
      Gives (.fwuRevert refused) s fun t =>
        t.fw.state = 4 ∧ t.fw.image = s.fw.oldImage ∧ t.fw.reverts = satAdd s.fw.reverts 1 ∧ t.fw.updates = s.fw.updates ∧
        t.fw.loopsTaken = true ∧ t.sec.svn = BitVec.ofNat 16 (imSvn s.fw.oldImage) ∧ t.mem = s.mem) ∧
    (∀ refused : Bool, s.fw.state = 5 → 4 ≤ s.fw.phase → refused = true ∨ s.fw.switchAt + 500000000 ≤ s.nowNs →
      imageCheck s s.fw.oldImage ≠ 0 → Gives (.fwuRevert refused) s fun t =>
        t.err.fwFatal = true ∧ t.fw.state = 0 ∧ t.fw.mbxReady = false ∧ t.fw.image = s.fw.image ∧ t.mem = s.mem) ∧
    (s.fw.state = 4 → s.fw.phase = 5 → Gives .revertRegionCopyDone s fun t =>
      t.fw = { s.fw with oldImage := s.fw.image, staged := none, verified := false, phase := 0 } ∧ t.mem = s.mem ∧ t.sec = s.sec)

/-! ## Core units (chapters 04 to 07) -/

/-- R226, R228, R230 to R232: a lane-wise micro-op gives each of its lanes the value of the catalogue, or the canonical
NaN with a poison mark where a source holds poison; every other lane and register, the masks, the Reduction Unit, every
other core and memory stay, and NV and OF gather in the op. The model's choices, in the catalogue laneTable: SEL takes the poison
of the operand that it selects (log entry 23), and a lane of SMN for which no result is stated takes a free value (log entry
93). -/
def Obligations.LaneMicroOps : Prop :=
  ∀ (m : LaneOp) (core : CoreId) (d a b mod : BitVec 6) (s : State) (e : VeEnv), m ∈ laneTable →
    let u := uopFields m.op d a b mod
    Issuable s core.toNat u e →
    let on := fun (i : Nat) => if m.every then laneIn e i else laneOn e u i
    let xs := fun (i : Nat) => (m.srcs e u i).map (fun z => laneGet e.c z.1 z.2)
    let res := fun (i : Nat) => m.value e u i ((xs i).map (·.1))
    let good := fun (i : Nat) => on i && !((xs i).any (·.2))
    Gives (m.cmd core d a b mod) s fun t => ∃ e', veEnv t core.toNat = some e' ∧
      (∀ i < 64, laneGet e'.c u.d i = if on i then (if good i then ((res i).code % 2 ^ 32, false) else (0x7FC00000, true))
        else laneGet e.c u.d i) ∧
      (∀ r < 64, r ≠ u.d → ∀ i < 64, laneGet e'.c r i = laneGet e.c r i) ∧
      e'.c.masks = e.c.masks ∧ e'.c.ru = e.c.ru ∧
      e'.v = { e.v with nv := e.v.nv || (List.range 64).any (fun i => good i && (res i).nv),
                        of := e.v.of || (List.range 64).any (fun i => good i && (res i).of) } ∧
      t.mem = s.mem ∧ ∀ n, n ≠ core.toNat → getCore t n = getCore s n

/-- R224, R226, R228: NOP changes nothing; CNS puts a constant in all 64 lanes; a compare sets a mask register in its
active lanes and clears it elsewhere; KOP combines two masks. R248 to R251: RUP pushes va into the Reduction Unit, and RUG
takes its oldest result into every active lane, or spreads the next 64 ÷ w results over the rows; with the queue full, or too
short, the op ends with RU_QUEUE. R252: with rs_en the status bytes of the completed rows follow one another from
rs_base; in the segmented forms the results go to output stream 3. -/
def Obligations.MaskAndReductionMicroOps : Prop :=
  (∀ (core : CoreId) (d a b mod : BitVec 6) (s : State) (e : VeEnv),
      let n := core.toNat
      let kept := fun (t : State) (e' : VeEnv) => veEnv t n = some e' ∧ e'.v = e.v ∧ e'.c.ru = e.c.ru ∧ t.mem = s.mem ∧
        ∀ k, k ≠ n → getCore t k = getCore s k
      let mask := fun (t : State) (k : Nat) (f : Nat → Bool) => ∃ e', kept t e' ∧ e'.c.regs = e.c.regs ∧
        (∀ i < 64, bit (maskGet e'.c k) i = f i) ∧ ∀ j < 8, j ≠ k → maskGet e'.c j = maskGet e.c j
      (Issuable s n (uopFields 0x00 d a b mod) e → Gives (.veNop core d a b mod) s fun t =>
        ∃ e', kept t e' ∧ e'.c = e.c) ∧
      (Issuable s n (uopFields 0x02 d a b mod) e → Gives (.cns core d a b mod) s fun t =>
        let at_ := coreBase n + (veParm e.v.desc).constBase + 4 * a.toNat
        ∃ e', kept t e' ∧ e'.c.masks = e.c.masks ∧
          (∀ i < 64, laneGet e'.c d.toNat i = if linePoison s.mem at_ then (0x7FC00000, true) else (memLe s at_ 4, false)) ∧
          ∀ r < 64, r ≠ d.toNat → ∀ i < 64, laneGet e'.c r i = laneGet e.c r i) ∧
      (∀ op ∈ [0x1D, 0x1E], let u := uopFields op d a b mod
        Issuable s n u e → Gives (if op = 0x1D then .fcmp core d a b mod else .icmp core d a b mod) s fun t =>
          mask t u.d (fun i => laneOn e u i && !(laneGet e.c u.a i).2 && !(laneGet e.c u.b i).2 &&
            (if op = 0x1D then fcmpLane else icmpLane) u.var (laneGet e.c u.a i).1 (laneGet e.c u.b i).1)) ∧
      (let u := uopFields 0x20 d a b mod
       Issuable s n u e → Gives (.kop core d a b mod) s fun t =>
        mask t u.d (fun i =>
          let x := bit (maskGet e.c u.a) i; let y := bit (maskGet e.c u.b) i
          match u.var with | 0 => x && y | 1 => x || y | 2 => x != y | _ => x && !y))) ∧
  (∀ (core : CoreId) (d a b mod : BitVec 6) (s : State) (e : VeEnv),
      let n := core.toNat
      let up := uopFields 0x22 d a b mod
      let ug := uopFields 0x23 d a b mod
      let fault := fun (t : State) => ∃ e', veEnv t n = some e' ∧ e'.v.finished = true ∧ e'.v.hard = some .ruQueue ∧
        e'.c = e.c ∧ t.cr.ruFaults = satAdd s.cr.ruFaults 1
      let pushed := ruPush e.c.ru (envEps e) ((List.range 64).map (fun i => (laneGet e.c a.toNat i).1)) (activeOf e up)
        (if up.var = 0 then 0 else maskGet e.c up.var)
      (Issuable s n up e → ∀ ru rows, pushed = some (ru, rows) →
        let p := veParm e.v.desc
        rows = [] ∨ (p.ruSeg = false ∧ p.rsEn = false) → Gives (.rup core d a b mod) s fun t =>
          ∃ e', veEnv t n = some e' ∧ e'.c = { e.c with ru := ru } ∧ t.mem = s.mem ∧
            e'.v = { e.v with maskedRow := e.v.maskedRow || (decide (6 ≤ p.ruOp ∧ p.ruOp ≤ 7) && rows.any (·.2 == rowMasked)),
                              infRow := e.v.infRow || (p.ruOp == 6 && rows.any (·.2 == rowInf)) }) ∧
      (Issuable s n up e → pushed = none → Gives (.rup core d a b mod) s fault) ∧
      (Issuable s n up e → ∀ ru rows, pushed = some (ru, rows) →
        let p := veParm e.v.desc
        let at_ := p.rsBase + e.v.rsPos
        (p.ruSeg = false → p.rsEn = true → at_ + rows.length ≤ coreStoreLen → Gives (.rup core d a b mod) s fun t =>
          ∃ e', veEnv t n = some e' ∧ e'.c = { e.c with ru := ru } ∧ e'.v.rsPos = e.v.rsPos + rows.length ∧
            SameMem s t [(coreBase n + at_, rows.length)] ∧
            ∀ j x, rows[j]? = some x → (memByte t.mem (coreBase n + at_ + j)).toNat = x.2 % 256) ∧
        (p.ruSeg = true → p.rsEn = false → ∀ x, rows = [x] → 3 < e.v.outPos.length →
          let words := if x.1.pair then 2 else 1
          outRoom e 3 words = true → Gives (.rup core d a b mod) s fun t =>
            ∃ e', veEnv t n = some e' ∧ e'.c = { e.c with ru := ru } ∧
              e'.v.outPos.getD 3 0 = e.v.outPos.getD 3 0 + words)) ∧
      (let w := if ug.var = 1 ∧ e.c.ru.width ≠ 0 then 4 * 2 ^ e.c.ru.width else 64
       Issuable s n ug e →
        (64 / w ≤ e.c.ru.queue.length → Gives (.rug core d a b mod) s fun t =>
          ∃ e', veEnv t n = some e' ∧ e'.c.ru = { e.c.ru with queue := e.c.ru.queue.drop (64 / w) } ∧ e'.c.masks = e.c.masks ∧
            e'.v = e.v ∧ t.mem = s.mem ∧
            ∀ i < 64, (laneOn e ug i = false → laneGet e'.c d.toNat i = laneGet e.c d.toNat i) ∧
              ∀ r, e.c.ru.queue[i / w]? = some r → laneOn e ug i = true →
                laneGet e'.c d.toNat i = (r.lo % 2 ^ 32, false) ∧
                (r.pair = true → d.toNat < 63 → laneGet e'.c (d.toNat + 1) i = (r.hi % 2 ^ 32, false))) ∧
        (e.c.ru.queue.length < 64 / w → Gives (.rug core d a b mod) s fault)))

/-- R236 to R240: LDS takes the next vector of a memory stream, or of the visible head of the Plate Queue, and with its
sixteenth vector frees the entry; while the head is not visible it waits, where no LPA op is left to bring one it ends the op
with PLATE_STARVE, and past its end with STREAM_END. STS takes as many positions of its output stream as the row has left,
up to 64; to an FP32 stream it writes its active lanes and nothing else. R243 to R246: with every active lane's element
readable, GTH brings the elements into the lanes, poison where the index or the element is poisoned; SCT stores the active
lanes in the element type, and SCA adds or takes the maximum, and nothing else changes; an index that is poisoned touches
nothing. The first bad index ends the op with its record and INDEX_RANGE or ADDR_ERROR, the lanes below it done and none
above it. The model's reading: STREAM_END is raised where no lane is active too (log entry 22), and SCA takes FP32 and int32
only (log entry 23). -/
def Obligations.StreamAndGatherMicroOps : Prop :=
  (∀ (core : CoreId) (d a b mod : BitVec 6) (s : State) (e : VeEnv),
      let n := core.toNat
      let ul := uopFields 0x04 d a b mod
      let us := uopFields 0x05 d a b mod
      let k := us.var % 4
      let sr := envStream e k
      let so := envStream e (4 + k)
      let pos := e.v.inPos.getD k 0
      let out := e.v.outPos.getD k 0
      let taken := fun (t : State) (e' : VeEnv) (vec : List (Nat × Bool) × Nat) => veEnv t n = some e' ∧
        (∀ i < 64, laneGet e'.c ul.d i = if laneOn e ul i then
            (if (vec.1.getD i (0, false)).2 then (0x7FC00000, true) else ((vec.1.getD i (0, false)).1 % 2 ^ 32, false))
          else laneGet e.c ul.d i) ∧
        e'.v = { e.v with inPos := e.v.inPos.set k (pos + 1) } ∧
        (4 ≤ ul.var → maskGet e'.c 7 = vec.2 % 2 ^ 64) ∧ (ul.var < 4 → e'.c.masks = e.c.masks) ∧ t.mem = s.mem
      let ends := fun (t : State) (st : Status) => ∃ e', veEnv t n = some e' ∧ e'.v.hard = some st ∧ e'.v.finished = true ∧
        e'.c = e.c ∧ t.cr.laneFaults = satAdd s.cr.laneFaults 1
      let head := (getCore s n).pq.head?
      (Issuable s n ul e → streamCheck s n (e.v.streams.getD k []) false true = none →
        (sr.kind = 1 → pos < rowVecs sr * sr.rows → Gives (.lds core d a b mod) s fun t =>
          ∃ e', taken t e' (streamVector s sr pos) ∧ (getCore t n).pq = (getCore s n).pq) ∧
        (sr.kind = 1 → rowVecs sr * sr.rows ≤ pos → Gives (.lds core d a b mod) s fun t => ends t .streamEnd) ∧
        (∀ p rest, sr.kind = 2 → pos < 16 * sr.rows → (getCore s n).pq = p :: rest → p.visible = true →
          Gives (.lds core d a b mod) s fun t => ∃ e', taken t e' (plateVector p (pos % 16)) ∧
            (getCore t n).pq = if pos % 16 = 15 then rest else p :: rest) ∧
        (sr.kind = 2 → pos < 16 * sr.rows → head.map (·.visible) = some false ∨ (head = none ∧ lpaPending s n = true) →
          Gives (.lds core d a b mod) s fun t => ∃ e', veEnv t n = some e' ∧ e'.v = { e.v with waiting := true } ∧
            e'.c = e.c ∧ t.mem = s.mem) ∧
        (sr.kind = 2 → pos < 16 * sr.rows → head = none → lpaPending s n = false → Gives (.lds core d a b mod) s fun t =>
          ends t .plateStarve) ∧
        (sr.kind = 2 → 16 * sr.rows ≤ pos → Gives (.lds core d a b mod) s fun t => ends t .streamEnd)) ∧
      (Issuable s n us e → streamCheck s n (e.v.streams.getD (4 + k) []) true true = none → k < e.v.outPos.length →
        let len := min 64 (so.rowLen - out % so.rowLen)
        let at_ := fun (i : Nat) => so.elem + out / so.rowLen * so.elemPitch + 4 * (out % so.rowLen + i)
        let on := (List.range len).filter (laneOn e us)
        (outRoom e k len = true → Gives (.sts core d a b mod) s fun t => ∃ e', veEnv t n = some e' ∧ e'.c = e.c ∧
          e'.v.outPos = e.v.outPos.set k (out + len) ∧ e'.v.inPos = e.v.inPos ∧ (getCore t n).pq = (getCore s n).pq ∧
          ((fmtWord so.fw).fmt = 11 → out % so.rowLen % 64 = 0 → e.v.outBuf[k]? = some [] →
            SameMem s t (on.map (fun i => (at_ i, 4))) ∧
            ∀ i ∈ on, (laneGet e.c us.a i).2 = false →
              memLe t (at_ i) 4 = if ffIsNan f32F (laneGet e.c us.a i).1 then 0x7FC00000 else (laneGet e.c us.a i).1)) ∧
        (outRoom e k len = false → Gives (.sts core d a b mod) s fun t => ends t .streamEnd))) ∧
  (∀ (core : CoreId) (d a b mod : BitVec 6) (s : State) (e : VeEnv) (addr : Nat → Nat),
      let n := core.toNat
      let u := fun (op : Nat) => uopFields op d a b mod
      let raw := e.v.gathers.getD ((u 6).var % 4) []
      let g := gatherEnt raw
      let z := gatherSize g.type
      let idx := laneGet e.c a.toNat
      let src := laneGet e.c b.toNat
      let hit := fun (i : Nat) => decide (i < 64) && laneOn e (u 6) i && !(idx i).2
      let upTo := fun (k : Nat) => ∀ i < k, hit i = true → gatherTarget e g (idx i) = .at_ (addr i)
      let spans := fun (k : Nat) => ((List.range k).filter hit).map (fun i => (addr i, z))
      let apart := ∀ i j, hit i = true → hit j = true → addr i = addr j → i = j
      let ready := fun (op : Nat) => Issuable s n (u op) e ∧
        gatherCheck s n raw (op == 8 && decide ((u 8).var < 4)) (op == 8) = none
      let sum := fun (i : Nat) =>
        let x := (src i).1; let old := memLe s (addr i) 4
        if g.type = 0 then (if (u 8).var < 4 then ffAdd f32F old x else fmaxLane old x)
        else plainVal (if (u 8).var < 4 then (old + x) % 2 ^ 32 else if sext 32 x ≤ sext 32 old then old else x)
      (ready 6 → upTo 64 → Gives (.gth core d a b mod) s fun t => ∃ e', veEnv t n = some e' ∧ t.mem = s.mem ∧ e'.v = e.v ∧
        ∀ i < 64, laneGet e'.c d.toNat i =
          if hit i && !(spanPoison s.mem (addr i) z) then
            ((if g.type = 2 then bf16To32 (memLe s (addr i) 2) else memLe s (addr i) z) % 2 ^ 32, false)
          else if laneOn e (u 6) i then (0x7FC00000, true) else laneGet e.c d.toNat i) ∧
      (ready 7 → upTo 64 → Gives (.sct core d a b mod) s fun t => ∃ e', veEnv t n = some e' ∧ e'.c = e.c ∧ e'.v = e.v ∧
        SameMem s t (spans 64) ∧
        (apart → ∀ i, hit i = true → memLe t (addr i) z = leNat (gatherBytes g.type (src i).1)) ∧
        ∀ i, hit i = true → (src i).2 = true → spanPoison t.mem (addr i) z = true) ∧
      (ready 8 → upTo 64 → Gives (.sca core d a b mod) s fun t => ∃ e', veEnv t n = some e' ∧ e'.c = e.c ∧
        SameMem s t (spans 64) ∧
        (apart → (∀ i, hit i = true → (src i).2 = false ∧ spanPoison s.mem (addr i) 4 = false) →
          (∀ i, hit i = true → memLe t (addr i) 4 = (sum i).code) ∧
          e'.v = { e.v with nv := e.v.nv || (List.range 64).any (fun i => hit i && (sum i).nv),
                            of := e.v.of || (List.range 64).any (fun i => hit i && (sum i).of) })) ∧
      (∀ oc ∈ [(6, Instr.gth core d a b mod), (7, .sct core d a b mod), (8, .sca core d a b mod)], ∀ f kind at_,
        ready oc.1 → f < 64 → laneOn e (u 6) f = true → upTo f → gatherTarget e g (idx f) = .bad kind at_ →
        Gives oc.2 s fun t => ∃ e', veEnv t n = some e' ∧ e'.v.finished = true ∧
          e'.v.hard = some (if kind = 3 then .addrError else .indexRange) ∧ t.cr.laneFaults = satAdd s.cr.laneFaults 1 ∧
          SameMem s t ((coreBase n + (veParm e.v.desc).faultRec, 32) :: if oc.1 = 6 then [] else spans f) ∧
          (oc.1 = 6 → laneGet e'.c d.toNat f = (0x7FC00000, true) ∧
            ∀ i < 64, f < i → laneGet e'.c d.toNat i = laneGet e.c d.toNat i)))

/-- R126, R127, R138, R139: an LPA_MATMUL, or a group of co-resident problems, that passes its checks takes the arrays
with one member for each descriptor, and the list moves past it; it has no tile yet, or the first tiles that the look-ahead has
loaded for it (R131), those of an op that has changed since left out (log entry 99, the model's reading); one that fails a check
completes without effect; a group with a member whose wait holds stays. A place in a group other than the first starts none. -/
def Obligations.LpaOpsStart : Prop :=
  ∀ (core : CoreId) (s : State) (o : NextOp), Sound s → startable s core.toNat 0x10 (fun c => c.lpa.isNone) = some o →
    let n := core.toNat
    let p := lpaParm o.desc
    let still := (getCore s n).ve.any (·.waiting) = false
    let started := fun (t : State) (ds : List Bytes) => (still → t.mem = s.mem) ∧
      activeList (getCore t n) = some (o.tok, o.idx + ds.length) ∧ ∃ r, (getCore t n).lpa = some r ∧ r.tok = o.tok ∧
        r.members.map (·.desc) = ds ∧ r.mb = 0 ∧ r.banks = [] ∧
        ((getCore s n).lpaNext = none → r.weights = [] ∧ ∀ j, r.tiles.getD j 0 = 0) ∧
        (∀ x, (getCore s n).lpaNext = some x →
          if x.members = r.members ∧ x.tok = r.tok then r.weights = x.weights ∧ r.tiles = x.tiles
          else r.weights = [] ∧ ∀ j, r.tiles.getD j 0 = 0) ∧
        (getCore t n).lpaNext = none ∧ ∀ k, k ≠ n → getCore t k = getCore s k
    let refused := fun (t : State) => (getCore t n).lpa = none ∧ (still → t.mem = s.mem)
    let single := firstFail
      [failIf (!(reservedZero o.desc lpaFields)) .badReserved, failIf (!(ctrCheck s o.tok.stream (opHdr o.desc))) .badField,
       failIf (p.arrays == 3 || p.colgrp != 0 || decide (32 * (activeArrays p.arrays).length < p.n)) .badField,
       lpaCheck s n o.tok p p.k]
    (p.groupPos = 0 → single = none → Gives (.lpaMatmul core) s fun t => started t [o.desc]) ∧
    (∀ st, p.groupPos = 0 → single = some st → Gives (.lpaMatmul core) s refused) ∧
    (p.groupPos ≠ 0 → still → Gives (.lpaMatmul core) s fun t => t = s) ∧
    (p.groupPos = 0 → still → Gives (.coResidentGroup core) s fun t => t = s) ∧
    (1 < p.groupPos → Gives (.coResidentGroup core) s refused) ∧
    (p.groupPos = 1 →
      let g := groupOps s n o.tok (o.idx + 1) (o.tok.len - o.idx)
      let ds := o.desc :: g.1
      let ps := ds.map (fun d => memberParm p (lpaParm d))
      let kmax := ps.foldl (fun m x => max m x.k) 0
      let held := ds.any (fun d =>
        let h := opHdr d
        h.waitEn && ctrInRange s o.tok.stream h.waitCtr && waitHolds s h.waitCtr h.waitVal)
      let check := firstFail
        ([failIf (ds.any (fun d => !(reservedZero d lpaFields))) .badReserved,
          failIf (ds.any (fun d => !(ctrCheck s o.tok.stream (opHdr d)))) .badField, failIf (groupBad ps g.2) .badField] ++
         ps.map (fun q => lpaCheck s n o.tok q kmax))
      (held = false → check = none → Gives (.coResidentGroup core) s fun t => started t ds) ∧
      (∀ st, held = false → check = some st → Gives (.coResidentGroup core) s refused) ∧
      (held = true → still → Gives (.coResidentGroup core) s fun t => t = s))

/-- R129 to R134, R148 to R153, R157: a tile fills its array's weight register while one is free, and with the op's own tiles
there the first tile of the op that follows it (R131; which op that is, is the model's reading, log entry 99); a row block whose
tiles have come and whose banks are empty goes to the OCS, and with its end the Plate Queue reserves entries for the plates that
wait in banks, in their order and as far as it has free ones; a plate that waits in a bank is converted into its entry once there
is one, and without dest = 1 plates leave memory; the oldest hidden plate becomes visible once it is filled; a queue that stays
full ends the op with PQ_STALL; an op at the boundary of a preempted core pauses, and a VE op at its pause point with it; an op
whose plates are out leaves the arrays. -/
def Obligations.PlatesAndRowBlocks : Prop :=
  ∀ (core : CoreId) (s : State) (r : LpaRun), Sound s → (getCore s core.toNat).lpa = some r →
    let n := core.toNat
    let c := getCore s n
    let still := c.ve.any (·.waiting) = false
    let wants := fun (j : PlateJob) => !j.entry && r.members[j.member]?.any (fun m => !(lpaParm m.desc).dest)
    let queued := fun (t : State) (jobs : List PlateJob) =>
      let q := (getCore t n).pq
      c.pq.length ≤ q.length ∧ (c.pq.length ≤ 16 → q.length ≤ 16) ∧
      ((∀ j ∈ jobs, j.member < r.members.length) →
        q.length = c.pq.length + min (16 - c.pq.length) (jobs.filter wants).length) ∧
      ((∀ j ∈ jobs, j.member < r.members.length) → ∀ (k : Nat) (j : PlateJob) (m : LpaMember) (y : Plate), (jobs.filter wants)[k]? = some j → r.members[j.member]? = some m →
        q[c.pq.length + k]? = some y → y.stream = r.tok.stream ∧ y.phase = r.tok.phase ∧ y.opIdx = m.idx ∧ y.mb = j.mb ∧
          y.array = j.array ∧ y.imag = j.imag ∧ y.visible = false) ∧
      ∀ (k : Nat) (x y : Plate), c.pq[k]? = some x → q[k]? = some y → y = x ∨ (x.filled = false ∧ y.filled = true ∧
        y.phase = x.phase ∧ y.opIdx = x.opIdx ∧ y.mb = x.mb ∧ y.array = x.array ∧ y.imag = x.imag)
    let inside := r.members.all (fun m => !(lpaParm m.desc).dest)
    (∀ (j : BitVec 2) (m0 : LpaMember) (ms : List LpaMember), r.members = m0 :: ms →
      (activeArrays (runParm r m0).arrays).contains j.toNat = true →
      let k := r.tiles.getD j.toNat 0
      (k < tilesAhead r r.mb → r.boundary = false → Gives (.weightTileReady core j) s fun t => t.mem = s.mem ∧
        (getCore t n).lpa = some { r with
          tiles := r.tiles.set j.toNat (k + 1), weights := r.weights ++ loadTile s n r j.toNat k }) ∧
      (r.boundary = true → Gives (.weightTileReady core j) s fun t => t = s) ∧
      (tilesAhead r r.mb ≤ k → Gives (.weightTileReady core j) s fun t => t.mem = s.mem ∧ (getCore t n).lpa = some r ∧
        (lookAhead s n r = none → t = s) ∧
        ∀ x, r.boundary = false → runCx r = false → kTiles r ≤ 1 ∨ rowBlocks r ≤ r.mb + 1 → lookAhead s n r = some x →
          x.tiles.getD j.toNat 0 = 0 → (getCore t n).lpaNext = some { x with
            tiles := x.tiles.set j.toNat 1, weights := x.weights ++ loadTile s n x j.toNat 0 })) ∧
    (blockReady r = true → Gives (.rowBlockDone core) s fun t =>
      (getCore t n).lpa.map (fun x => (x.mb, x.boundary)) =
        some (r.mb + 1, c.preempt && !(c.svcTokens.any (sameList r.tok))) ∧
      queued t (r.banks ++ rowBlockJobs s n (faultMembers r) r.mb) ∧ (inside = true → t.mem = s.mem)) ∧
    (blockReady r = false → Gives (.rowBlockDone core) s fun t => t = s) ∧
    Gives (.plateHoldRelease core) s (fun t => queued t r.banks ∧ (getCore t n).lpa.map (·.mb) = some r.mb ∧
      (inside = true → t.mem = s.mem)) ∧
    (∀ (j : PlateJob) (rest : List PlateJob) (m : LpaMember), r.banks = j :: rest → r.members[j.member]? = some m →
      j.array < 2 → j.entry = false → (lpaParm m.desc).dest = false → c.pq.length < 16 →
      (blinkQueue s (n / 64)).length < 4 → Gives (.plateHoldRelease core) s fun t =>
        (∃ x, (getCore t n).lpa = some x ∧ x.banks.length ≤ rest.length) ∧
        ∃ y ∈ (getCore t n).pq, y.filled = true ∧ y.phase = r.tok.phase ∧ y.opIdx = m.idx ∧ y.mb = j.mb ∧ y.array = j.array ∧
          y.imag = j.imag) ∧
    (∀ (seen rest : List Plate) (p : Plate), c.ve = none → c.pq = seen ++ p :: rest → seen.all (·.visible) = true →
      p.visible = false →
      (p.filled = true → Gives (.plateVisible core) s fun t => t.mem = s.mem ∧
        (getCore t n).pq = seen ++ { p with visible := true } :: rest) ∧
      (p.filled = false → Gives (.plateVisible core) s fun t => t = s)) ∧
    (16 ≤ c.pq.length → 2 ^ (10 + r.cfg % 16) ≤ c.pqFull → c.ve.any (fun v => readsPq v || v.waiting) = false →
      Gives (.pqStall core) s fun t => (getCore t n).lpa = none ∧ t.cr.pqStalls = satAdd s.cr.pqStalls 1 ∧
        (getCore t n).pq = c.pq.filter (fun p => !(p.stream == r.tok.stream && p.phase == r.tok.phase &&
          r.members.any (fun m => m.idx == p.opIdx)))) ∧
    (c.pq.length < 16 ∨ c.pqFull < 2 ^ (10 + r.cfg % 16) → still → Gives (.pqStall core) s fun t => t = s) ∧
    (c.preempt = true → r.boundary = true → r.banks = [] → r.mb < rowBlocks r → c.lpaPaused = none →
      c.svcTokens.any (sameList r.tok) = false →
      let s1 := setCore s n { c with lpa := none, lpaNext := none, lpaPaused := some r }
      Gives (.plateBoundary core) s fun t => (getCore t n).lpa = none ∧ (getCore t n).lpaPaused = some r ∧
        (getCore t n).lpaNext = none ∧ t.mem = s.mem ∧
        ∀ v, c.ve = some v → c.vePaused = none → c.svcTokens.any (sameList v.tok) = false →
          if pausesNow s1 n v then (getCore t n).ve = none ∧ (getCore t n).vePaused = some v else (getCore t n).ve = some v) ∧
    (c.preempt = false → Gives (.plateBoundary core) s fun t => t = s) ∧
    (r.mb = rowBlocks r → r.banks = [] → Gives (.opComplete (.core core) .lpa) s fun t => (getCore t n).lpa = none) ∧
    (r.mb < rowBlocks r → still → Gives (.opComplete (.core core) .lpa) s fun t => t = s)

/-- R200 to R203, R229, R233, R256 to R258: COE_STAGE writes no memory but the stores of its destination cores; VE_RUN
runs its program in its unit; VE_SOLVE writes its solutions and status bytes only and clears the lane registers of its
context; each fails its checks without effect. R392: a DMA_COPY within the module leaves every byte outside its destination
rows as it was, and where it copies one row between places that the cluster DMA reaches, the destination has the source's
bytes; one that fails its check, or finds no route, changes no memory. That the bytes of COE_STAGE and DMA_COPY have landed with
the command that starts them (log entry 34), and those of VE_SOLVE with its registers cleared (log entry 24), is the model's
choice. -/
def Obligations.UnitOpsRun : Prop :=
  (∀ (core : CoreId) (s : State) (o : NextOp) (host : List HostLine), Sound s →
      let n := core.toNat
      let past := fun (t : State) => activeList (getCore t n) = some (o.tok, o.idx + 1)
      let q := solveParm o.desc
      (startable s n 0x11 (fun c => c.coe.isNone) = some o →
        (coeCheck s n o.tok o.desc = none → Gives (.coeStage core host) s fun t => past t ∧
          ((getCore t n).coe.map (fun r => (r.desc, r.finished)) = some (o.desc, true)) ∧
          SameMem s t ((coeCores n (coeParm o.desc)).map (fun k => (coreBase k, coreStoreLen)))) ∧
        (∀ st, coeCheck s n o.tok o.desc = some st → Gives (.coeStage core host) s fun t =>
          t.mem = s.mem ∧ (getCore t n).coe = none)) ∧
      (startable s n 0x18 (fun c => c.ve.isNone) = some o →
        (veCheck s n o.tok o.desc = none → Gives (.veRun core) s fun t => past t ∧
          (getCore t n).ve.map (fun r => (r.desc, r.idx)) = some (o.desc, o.idx)) ∧
        (∀ st, veCheck s n o.tok o.desc = some st → Gives (.veRun core) s fun t =>
          t.mem = s.mem ∧ (getCore t n).ve = none)) ∧
      (startable s n 0x19 (fun c => c.ve.isNone) = some o →
        (solveCheck s n o.tok o.desc = none → Gives (.veSolve core) s fun t => past t ∧
          (getCore t n).ve.map (fun r => (r.desc, r.finished)) = some (o.desc, true) ∧
          (ctxGet (getCore t n) q.ctx).regs = [] ∧
          SameMem s t ((q.st, q.batch) :: (List.range q.batch).map (fun i => (q.b + i * q.bStride, 4 * q.n * q.r)))) ∧
        (∀ st, solveCheck s n o.tok o.desc = some st → Gives (.veSolve core) s fun t =>
          t.mem = s.mem ∧ (getCore t n).ve = none))) ∧
  (∀ (core : CoreId) (s : State) (o : NextOp) (host : List HostLine), Sound s →
      startable s core.toNat 0x08 (fun c => c.dma.isNone) = some o →
      let n := core.toNat
      let p := dmaParm o.desc
      let src := gLocal p.src
      let dst := gLocal p.dst
      let here := localNode s (gNode p.src) && localNode s (gNode p.dst)
      (dmaCheck s o.tok.stream o.desc = none → here = true → Gives (.dmaCopy core host) s fun t =>
        SameMem s t ((List.range p.rows).map (fun i => (dst + i * p.dstPitch, p.row))) ∧
        activeList (getCore t n) = some (o.tok, o.idx + 1) ∧ (getCore t n).dma.map (·.finished) = some true) ∧
      (dmaCheck s o.tok.stream o.desc = none → p.rows = 1 → here = true →
        canAccess s .dma src p.row = true → canAccess s .dma dst p.row = true → Gives (.dmaCopy core host) s fun t =>
          memRead t.mem dst p.row = memRead s.mem src p.row ∧
          (s.mr.dramErr = [] → host = [] → (spanPoison s.mem src p.row = false → t.out = s.out) ∧
            (getCore t n).dma.map (·.status) = some (if spanPoison s.mem src p.row then .poisoned else .ok))) ∧
      (dmaCheck s o.tok.stream o.desc = none → here = false →
        fabRoute s (if localNode s (gNode p.src) then gNode p.dst else gNode p.src) = none →
        Gives (.dmaCopy core host) s fun t => t.mem = s.mem ∧ (getCore t n).dma = none) ∧
      (∀ st, dmaCheck s o.tok.stream o.desc = some st → Gives (.dmaCopy core host) s fun t =>
        t.mem = s.mem ∧ (getCore t n).dma = none))

/-- R198, R391: an op whose work has ended leaves its unit, a Coelostat's in its turn among those of its cluster, or its I/O
list; one still at work stays. R210 to R217: the oldest sample of a cluster's queue is measured: it leaves the queue and
is counted, its phase keeps the larger error and whether a sample exceeded the threshold, its ladder entry takes the
sample, and no other byte changes; with an empty queue nothing happens. The model's reading (log entry 26): how the error is
rounded and through which view of memory it is measured, and that the threshold is the one that the phase read at its start. -/
def Obligations.OpsCompleteAndSample : Prop :=
  (∀ (s : State), Sound s →
      (∀ (core : CoreId), let n := core.toNat
        let c := getCore s n
        (∀ v, c.ve = some v → v.finished = true → Gives (.opComplete (.core core) .ve) s fun t =>
          (getCore t n).ve = none ∧ t.mem = s.mem) ∧
        (∀ v, c.ve = some v → v.finished = false → Gives (.opComplete (.core core) .ve) s fun t => t = s) ∧
        (∀ r, c.coe = some r →
          ((coeTurns s (n / 64)).any (· < r.turn) = false → Gives (.opComplete (.core core) .coe) s fun t =>
            (getCore t n).coe = none ∧ (r.photBase = 0 → t.mem = s.mem)) ∧
          ((coeTurns s (n / 64)).any (· < r.turn) = true → Gives (.opComplete (.core core) .coe) s fun t => t = s)) ∧
        (∀ r, c.dma = some r → r.finished = true → Gives (.opComplete (.core core) .dma) s fun t =>
          (getCore t n).dma = none ∧ t.mem = s.mem) ∧
        (∀ r, c.ccm = some r → r.finished = true → Gives (.opComplete (.core core) .ccm) s fun t =>
          (getCore t n).ccm = none ∧ t.mem = s.mem)) ∧
      (∀ (id : StreamId) (p : PhaseNo) (i : BitVec 10) (o : IoOp), getIo s id.toNat p.toNat i.toNat = some o →
        (o.finished = true → Gives (.opComplete (.io id p) (.io i)) s fun t =>
          ∀ ph, getPhase t id.toNat p.toNat = some ph → ∀ x ∈ ph.io, x.idx ≠ i.toNat) ∧
        (o.finished = false → Gives (.opComplete (.io id p) (.io i)) s fun t => t = s))) ∧
  (∀ (cluster : ClusterId) (host : List HostLine) (s : State), Sound s →
      (∀ (x : BlinkSample) (rest : List BlinkSample), blinkQueue s cluster.toNat = x :: rest →
        (Gives (.blinkSample cluster host) s fun t => blinkQueue t cluster.toNat = rest ∧
          t.cr.blinkSamples = satAdd s.cr.blinkSamples 1 ∧ t.cores = s.cores ∧
          SameMem s t (x.ladderEntry.toList.map (fun a => (a, 64))) ∧
          ∀ ph, getPhase s x.stream x.phase = some ph →
            (getPhase t x.stream x.phase).map (·.samples) = some (ph.samples - 1)) ∧
        (∀ ph, getPhase s x.stream x.phase = some ph → s.mr.dramErr = [] → host = [] →
          (∀ z ∈ shadowSpans x, ∀ l ∈ linesOf z.1 z.2, region l ≠ .host ∧ canAccess s .dma l 64 = true) →
          let err := blinkError s.mem x
          let beyond := err.any (ffLt f32F (le ph.ladder 4 4))
          Gives (.blinkSample cluster host) s fun t =>
            (∃ q, getPhase t x.stream x.phase = some q ∧ q.samples = ph.samples - 1 ∧ q.exceed = (ph.exceed || beyond) ∧
              q.errMax = (match err with | some v => maxCode32 ph.errMax v | none => ph.errMax)) ∧
            ∀ a, x.ladderEntry = some a → (read s .dram a 64).err = none →
              memRead t.mem a 64 = ladderSample (memRead s.mem a 64) err beyond)) ∧
      (blinkQueue s cluster.toNat = [] → Gives (.blinkSample cluster host) s fun t => t = s))

/-! ## Memory, context and the update (chapters 08 to 10) -/

/-- R341 to R347: APPEND to a page in the SRAM pool puts its K rows in the frame and moves the fill on; to a page without
a frame it takes one and owns it; a wrong fill or no free frame ends it without a write. FETCH, PROMOTE and TRUNCATE run
their pages, and TRUNCATE starts, and waits in the page walker, while a page is pinned or moving; each fails its checks without
effect. The model's reading: records are read once (log entry 33), a PROMOTE ends with its moves, a TRUNCATE waits for moving
pages too, and when the host pool counts as granted (log entry 49). R346, R348, R349: a sweep starts
at the low watermark, goes on up to the high one, and only starts moves out of its pool; else nothing happens. A move whose
page is free copies it, counts and ends; one whose page is pinned is abandoned, a promotion counting the page as left in
place. -/
def Obligations.CcmOpsAndMoves : Prop :=
  (∀ (core : CoreId) (s : State) (o : NextOp) (host : List HostLine), Sound s →
      let n := core.toNat
      let p := ccmParm o.desc
      let a := pageAddr s p.seq p.page
      let e := getPage s a
      let ended := fun (t : State) (st : Status) => (getCore t n).ccm.map (fun r => (r.desc, r.finished, r.status)) = some (o.desc, true, st)
      let good := ccmCheck s n o.tok o.desc = none
      (ccmNext s n 0 = some o → good → (read s .dram a 8).err = none →
        (∀ k, k = operandRec (coreRead s n p.kRec 32).data → e.tier = 1 → p.at_ = e.fill → sramFits s = true →
          e.frame < poolFrames s 1 → clusterAvail s (e.frame % 64) = true → Gives (.append core) s fun t =>
            getPage t a = { e with fill := p.at_ + p.count } ∧ t.ccm = s.ccm ∧
            ∀ i < p.count, memRead t.mem (frameElem s 1 e.frame + 128 * (p.at_ + i)) 128 =
              memRead s.mem (coreBase n + k.elemBase + i * k.elemPitch) 128) ∧
        (∀ tier f, e.tier = 0 → allocTier s p.seq = some (tier, f) → p.at_ = e.fill → Gives (.append core) s fun t =>
          smGet false (poolUsed t tier) f = true ∧ (getCore t n).ccm.map (·.finished) = some true) ∧
        (e.tier = 0 → allocTier s p.seq = none → Gives (.append core) s fun t => ended t .ccmNoFrame ∧
          t.mr.allocFails = satAdd s.mr.allocFails 1 ∧ t.mem = s.mem) ∧
        (e.tier ≠ 0 → p.at_ ≠ e.fill → Gives (.append core) s fun t => ended t .ccmFill ∧ t.mem = s.mem)) ∧
      (ccmNext s n 1 = some o → good → Gives (.fetch core host) s fun t => (getCore t n).ccm.map (·.finished) = some true ∧
        (p.count = 1 → e.tier = 0 → ended t .poisoned ∧
          SameMem s t ((ccmCores n p).map (fun k => (coreBase k, coreStoreLen)))) ∧
        (p.count = 1 → e.tier = 1 ∨ e.tier = 2 → (read s .dram a 8).err = none →
          let parts := fun (i : Nat) => rowParts s n p e.tier e.frame i i
          ((List.range 16).flatMap parts).Pairwise (fun x y => x.1 + x.2.2 ≤ y.1 ∨ y.1 + y.2.2 ≤ x.1) →
          (∀ k ∈ ccmCores n p, canAccess s .dma (coreBase k) coreStoreLen = true) →
          ∀ k ∈ ccmCores n p, ∀ i < 16, ∀ x ∈ parts i, memRead t.mem (coreBase k + x.1) x.2.2 =
            if i < e.fill then memRead s.mem x.2.1 x.2.2 else List.replicate x.2.2 (if x.2.2 = 8 then 0x80 else 0))) ∧
      (ccmNext s n 2 = some o → good → Gives (.promote core) s fun t =>
        ((getCore t n).ccm.map (fun r => (r.desc, r.status)) = some (o.desc, .ok)) ∧
        (getCore t n).ccm.map (·.finished) = some (!(t.ccm.moves.any (fun m => m.forOp == some n))) ∧
        (∃ new, t.ccm.moves = s.ccm.moves ++ new ∧ ∀ m ∈ new, m.promote = true ∧ m.toTier = 1) ∧
        ∀ f,
          let mv : CcmMoveRun := { id := s.ccm.nextMove, promote := true, entryAddr := a, fromTier := e.tier,
                                   fromFrame := e.frame, toTier := 1, toFrame := f, forOp := some n }
          p.count = 1 → e.tier = 2 ∨ e.tier = 3 → e.pins = 0 → e.moving = false → mayPromote s = true →
          lowestFree s 1 = some f → t.ccm.moves = s.ccm.moves ++ [mv]) ∧
      (ccmNext s n 3 = some o → good → (seqEntry s p.seq).cap = p.page + 1 → e.tier ≠ 0 → e.pins = 0 → e.moving = false →
        Gives (.truncate core) s fun t => ended t .ok ∧ smGet false (poolUsed t e.tier) e.frame = false) ∧
      (ccmNext s n 3 = some o → good → p.page < (seqEntry s p.seq).cap → e.tier ≠ 0 → e.pins ≠ 0 ∨ e.moving = true →
        Gives (.truncate core) s fun t => (getCore t n).ccm.map (fun r => (r.desc, r.finished)) = some (o.desc, false) ∧
          activeList (getCore t n) = some (o.tok, o.idx + 1) ∧ t.mem = s.mem ∧ t.ccm = s.ccm) ∧
      (∀ r, (getCore s n).ccm = some r → r.finished = false →
        let q := ccmParm r.desc
        let b := pageAddr s q.seq q.page
        q.func = 3 → q.page < (seqEntry s q.seq).cap → (getPage s b).tier ≠ 0 →
        ((getPage s b).pins ≠ 0 ∨ (getPage s b).moving = true → Gives (.truncate core) s fun t => t = s) ∧
        ((getPage s b).pins = 0 → (getPage s b).moving = false → (seqEntry s q.seq).cap = q.page + 1 →
          Gives (.truncate core) s fun t => (getCore t n).ccm = some { r with finished := true } ∧
            smGet false (poolUsed t (getPage s b).tier) (getPage s b).frame = false)) ∧
      (∀ st f, ccmNext s n f = some o → f < 4 → ccmCheck s n o.tok o.desc = some st →
        Gives (match f with | 0 => .append core | 1 => .fetch core host | 2 => .promote core | _ => .truncate core) s fun t =>
          t.mem = s.mem ∧ t.ccm = s.ccm ∧ (getCore t n).ccm = none)) ∧
  (∀ (s : State), Sound s →
      (∀ pool : BitVec 2, let t0 := pool.toNat
        let sh := if t0 = 1 then 0 else 16
        let low := bits s.mr.watermark.toNat sh 8
        let high := max low (bits s.mr.watermark.toNat (sh + 8) 8)
        (ccmEn s = true → s.mr.ready = true → t0 = 1 ∨ t0 = 2 → 0 < poolSize s t0 →
          poolFree s t0 * 256 ≤ low * poolSize s t0 ∨ (sweeping s t0 = true ∧ poolFree s t0 * 256 < high * poolSize s t0) →
          Gives (.demotionSweep pool) s fun t =>
            (∃ new, t.ccm.moves = s.ccm.moves ++ new ∧ ∀ m ∈ new, m.promote = false ∧ m.fromTier = t0 ∧ m.toTier = t0 + 1) ∧
            (let h := handOf s t0
             let w := memLe s (ownerAddr s t0 h) 8
             let at_ := pageAddr s (bits w 0 16) (bits w 16 32)
             let e := getPage s at_
             ∀ g,
               let mv : CcmMoveRun := { id := s.ccm.nextMove, promote := false, entryAddr := at_, fromTier := t0,
                                        fromFrame := h, toTier := t0 + 1, toFrame := g, forOp := none }
               (poolFree s t0 + leaving s t0) * 256 < high * poolSize s t0 → 0 < poolFrames s t0 → frameFree s t0 h = false →
               e.tier = t0 → e.frame = h → e.pins = 0 → e.moving = false → e.ref = false →
               t0 = 1 ∨ hostAllowed s (bits w 0 16) = true → lowestFree s (t0 + 1) = some g →
               mv ∈ t.ccm.moves) ∧
            sweeping t t0 = decide (poolFree t t0 * 256 < high * poolSize t t0) ∧ t.mr = s.mr ∧ t.cores = s.cores) ∧
        (sweeping s t0 = false → low * poolSize s t0 < poolFree s t0 * 256 → Gives (.demotionSweep pool) s fun t => t = s) ∧
        (ccmEn s = false ∨ s.mr.ready = false → Gives (.demotionSweep pool) s fun t => t = s)) ∧
      (∀ (id : Nat) (host : List HostLine) (mv : CcmMoveRun), s.ccm.moves.find? (fun m => m.id == id) = some mv →
        let e := getPage s mv.entryAddr
        (e.pins ≠ 0 ∨ e.moving = false → Gives (.ccmMove id host) s fun t => (∀ m ∈ t.ccm.moves, m.id ≠ id) ∧
          t.mr = (if mv.promote then { s.mr with promoteSkips := satAdd s.mr.promoteSkips 1 } else s.mr) ∧
          smGet false (poolUsed t mv.toTier) mv.toFrame = false) ∧
        (e.pins = 0 → e.moving = true → mv.fromTier ≠ 3 → mv.toTier = 1 ∨ mv.toTier = 2 → mv.fromTier ≠ mv.toTier →
          canAccess s .ccm (frameElem s mv.toTier mv.toFrame) 4096 = true →
          canAccess s .ccm (frameScale s mv.toTier mv.toFrame) 256 = true → Gives (.ccmMove id host) s fun t =>
            (∀ m ∈ t.ccm.moves, m.id ≠ id) ∧ smGet false (poolUsed t mv.fromTier) mv.fromFrame = false ∧
            t.mr.promotions = (if mv.promote then satAdd s.mr.promotions 1 else s.mr.promotions) ∧
            t.mr.demotions = (if mv.promote then s.mr.demotions else satAdd s.mr.demotions 1) ∧
            (mv.toTier = 1 → mv.toFrame < poolFrames s 1 → memRead t.mem (frameElem s 1 mv.toFrame) 4096 =
              memRead s.mem (frameElem s mv.fromTier mv.fromFrame) 4096))))

/-- R331, R333: a scrub that finds no error leaves memory and its counters; a corrected error is counted for its channel;
an uncorrectable one poisons its line, is counted and logged, and touches no byte; the second one at a place in a core's
store has firmware mark the core (R46). R269, R338, R353: enabling the CCM frees every frame and waits for its bitmaps; disabling
ends its ops with CCM_DISABLED; enabling the slot table loads the committed step from its header. The model's choices: what a
scrub finds where errors are held, and that a write with en = 1 while en is 1 changes nothing (log entry 94); that CCM_READY
writes the map of free frames (log entry 48); and when firmware marks what a scrub has found (log entry 50). -/
def Obligations.ScrubAndTables : Prop :=
  (∀ (s : State) (addr : BitVec 48), Sound s → scrubOn s = true →
      let a := addr.toNat / 64 * 64
      let ch := dramChannel s a
      let c := smGet (0, 0) s.mr.ecc ch
      let hit := fun (t : State) (kind : Nat) => (∀ x, memByte t.mem x = memByte s.mem x) ∧
        (∀ l, linePoison t.mem l = (linePoison s.mem l || decide (l / 64 = a / 64))) ∧ logged s t kind
      let dark := match region a with
        | .core k => smGet false s.pwr.gated (k / 64)
        | .cluster k => smGet false s.pwr.gated k
        | _ => false
      (∀ found, scrubFinds s a found = .none → Gives (.patrolScrub addr found) s fun t => t = s) ∧
      (Gives (.sramScrub addr .clean) s fun t => t.mem = s.mem ∧ t.mr = s.mr ∧ t.err = s.err ∧ t.cores = s.cores) ∧
      (∀ found, region a = .dram → a < dramBytes s → linePoison s.mem a = false → s.err.failLog.length < 4032 →
        (scrubFinds s a found = .correctable → Gives (.patrolScrub addr found) s fun t =>
          smGet (0, 0) t.mr.ecc ch = (satAdd c.1 1, c.2) ∧ t.mem = s.mem) ∧
        (scrubFinds s a found = .uncorrectable → Gives (.patrolScrub addr found) s fun t =>
          smGet (0, 0) t.mr.ecc ch = (c.1, satAdd c.2 1) ∧ hit t 4)) ∧
      ((∃ k, region a = .core k ∨ region a = .cluster k) ∨ region a = .red → dark = false → addrExists s a = true →
        linePoison s.mem a = false → s.err.failLog.length < 4032 →
        (Gives (.sramScrub addr .corrected) s fun t => t.mr.sramCorrected = satAdd s.mr.sramCorrected 1 ∧ t.mem = s.mem) ∧
        (smGet false s.mr.sramBad (a / 64) = false → Gives (.sramScrub addr .uncorrected) s fun t =>
          t.mr.sramUncorrected = satAdd s.mr.sramUncorrected 1 ∧ smGet false t.mr.sramBad (a / 64) = true ∧ hit t 5) ∧
        (∀ k, region a = .core k → smGet false s.mr.sramBad (a / 64) = true → imageRuns s = true →
          Gives (.sramScrub addr .uncorrected) s fun t => coreAvail t k = false))) ∧
  (∀ (p : HPort) (v : BitVec 64) (s : State), Sound s → hostPath s p = .served →
      (ccmEn s = false → v.getLsbD 0 = true → Gives (.ccmEnable p v) s fun t => ccmEn t = true ∧ t.mr.ready = false ∧
        t.ccm.usedSram = [] ∧ t.ccm.usedDram = [] ∧ t.ccm.usedHost = [] ∧ t.mem = s.mem ∧
        t.mr.seqBase = (s.mr.seqBase &&& ~~~0xFFFFFFFFF01F) ||| (v &&& 0xFFFFFFFFF01F)) ∧
      (ccmEn s = true → v.getLsbD 0 = false → Gives (.ccmEnable p v) s fun t => ccmEn t = false ∧ t.mr.ready = false ∧
        t.ccm.moves = [] ∧ sweeping t 1 = false ∧ sweeping t 2 = false ∧
        ∀ k r, (getCore t k).ccm = some r → r.finished = true ∧
          ∀ q, (getCore s k).ccm = some q → r.status = if q.finished then q.status else .ccmDisabled) ∧
      (ccmEn s = true → v.getLsbD 0 = true → Gives (.ccmEnable p v) s fun t => t = s) ∧
      (ccmEn s = true → s.mr.ready = false → Gives .ccmReady s fun t =>
        t.mr = { s.mr with ready := true } ∧ t.ccm = s.ccm ∧
        SameMem s t [(ccmMeta s + 8 * frameTotal s, (freeBitmap s).length)]) ∧
      (let base := (v.toNat / 4096 % 2 ^ 36) * 4096
       v.getLsbD 0 = true → (read s .dram base 4).err = none → Gives (.slotTableEnable p v) s fun t =>
        trnEn t = true ∧ slotTab t = base ∧ t.trn.committed.toNat = memLe s base 4 ∧ t.mem = s.mem) ∧
      (v.getLsbD 0 = false → Gives (.slotTableEnable p v) s fun t => trnEn t = false ∧ t.trn.committed = s.trn.committed ∧
        t.mem = s.mem))

/-- R304, R305, R311, R312: an MUU_UPDATE op that passes its check starts its pass: the op is in flight, or has ended with
its pass; COMBINE sets step, norm and decision at once where it decides, and where conditions 1 or 2 end it writes no MUU
register; one that fails a check starts nothing, and R303 fails one while another runs, of any list. R279, R313: a recheck with
nothing left ends pass two; the straggler deadline is counted once. The model's reading: that a combine needs the pass one of its
step (log entry 44), what is written for a failed or frozen tensor (log entry 45), and how a pass one that waits goes on (log
entry 46). -/
def Obligations.UpdatePasses : Prop :=
  (∀ (id : StreamId) (ph : PhaseNo) (s : State) (o : NextOp), Sound s →
      let i := id.toNat
      let p := ph.toNat
      let q := muuParm o.desc
      let begun := fun (t : State) =>
        (∃ r, t.muuRun = some r ∧ r.stream = i ∧ r.phase = p ∧ r.idx = o.idx ∧ r.desc = o.desc ∧ r.pass = q.pass) ∨
        (t.muuRun = none ∧ (getIo t i p o.idx).map (·.finished) = some true)
      let u := match getPhase s i p with | some x => underPhase x s | none => s
      let m := muuRec (recAt s q 0)
      let alone := fun (at_ len : Nat) => q.count = 1 ∧ slotErr u m.tensor = none ∧
        (q.recBase + 128 ≤ at_ ∨ at_ + len ≤ q.recBase)
      (muuNext s i p [0, 1] = some o → muuCheckAt s i p o = none → Gives (.muuPassOne (.io id ph)) s fun t =>
        begun t ∧ t.muu.listBase = wrField s.muu.listBase q.recBase 7 41 ∧ t.muu.listCount = wrField s.muu.listCount q.count 0 21 ∧
        t.trn.committed = s.trn.committed ∧
        (alone (q.ng + 128 * q.rank) 128 → (∀ mb < 256, mbLive u mb = false) →
          let e := getSlot u m.tensor
          let div := if m.noDiv then 1 else max e.contrib 1
          let over_ := fun (row : Nat → List Nat) => (List.range m.rows).foldl (fun x i => sumSquares (row i) x) (some 0)
          let wrote := fun (flags acc : Nat) => t.muuRun = none ∧ memLe t (q.recBase + 122) 2 = statusCode .ok ∧
            memLe t (q.recBase + 124) 4 = flags ∧ memRead t.mem (q.ng + 128 * q.rank) 80 = leBytes 80 acc
          (e.frozen = true → wrote 16 0) ∧
          ∀ c gsq wsq, e.frozen = false → curState u e = some c → gradBusy s m.tensor = false → gradPoison s.mem m = false →
            masterPoison s.mem m (stateBase m c) = false → s.mr.dramErr = [] → over_ (gradRow s.mem m div) = some gsq →
            over_ (masterRow s.mem m (stateBase m c)) = some wsq →
            wrote 0 (if m.owner then gsq else 0) ∧ memLe t (q.recBase + 96) 8 = sumTo64 gsq ∧
            memLe t (q.recBase + 104) 8 = sumTo64 wsq ∧ memLe t (q.recBase + 120) 2 = div)) ∧
      (muuNext s i p [2] = some o → muuCheckAt s i p o = none → Gives (.muuCombine (.io id ph)) s fun t =>
        (getIo t i p o.idx).map (·.finished) = some true ∧ t.mem = s.mem ∧
        let c := combineOf s q (o.tok.step % 2 ^ 32) (muuConst (memRead s.mem q.consts 64)).skip
        (c.2.2 ≠ 0 → t.muu.status.toNat = statusCode .ok ∧ t.muu.step.toNat = o.tok.step % 2 ^ 32 ∧
          t.muu.gnorm = BitVec.ofNat 32 c.2.1 ∧ t.muu.decision = BitVec.ofNat 2 c.2.2) ∧
        (c.2.2 = 0 → t.muu = s.muu)) ∧
      (muuNext s i p [3] = some o → muuCheckAt s i p o = none → Gives (.muuPassTwo (.io id ph)) s fun t =>
        begun t ∧ t.trn.committed = s.trn.committed ∧
        (alone q.report 64 → (getSlot u m.tensor).frozen = true ∨ s.muu.decision ≠ 1 →
          t.muuRun = none ∧ t.muu.status.toNat = statusCode .updateDone ∧
          memLe t (q.recBase + 124) 4 = (if (getSlot u m.tensor).frozen then 16 else m.tflags % 2) ∧
          memLe t q.report 4 = o.tok.step % 2 ^ 32)) ∧
      (∀ passes, s.muuRun.isSome = true → muuNext s i p passes = some o → (muuCheckAt s i p o).isSome = true) ∧
      (∀ st, muuNext s i p [0, 1] = some o → muuCheckAt s i p o = some st → Gives (.muuPassOne (.io id ph)) s fun t =>
        t.mem = s.mem ∧ t.muu = s.muu ∧ t.muuRun = s.muuRun) ∧
      (∀ st, muuNext s i p [2] = some o → muuCheckAt s i p o = some st → Gives (.muuCombine (.io id ph)) s fun t =>
        t.mem = s.mem ∧ t.muu = s.muu ∧ t.muuRun = s.muuRun) ∧
      (∀ st, muuNext s i p [3] = some o → muuCheckAt s i p o = some st → Gives (.muuPassTwo (.io id ph)) s fun t =>
        t.mem = s.mem ∧ t.muu = s.muu ∧ t.muuRun = s.muuRun)) ∧
  (∀ (s : State) (r : MuuRun), Sound s → s.muuRun = some r →
      (r.pass = 3 → r.todo = [] → r.deferred = [] → Gives .deferralRecheck s fun t =>
        t.muuRun = none ∧ t.muu.pass = 0 ∧ t.muu.status.toNat = statusCode (r.fail.getD .updateDone) ∧
        t.trnRun.update = none ∧ t.trn = s.trn) ∧
      (r.pass ≠ 3 → Gives .deferralRecheck s fun t => t = s) ∧
      (∀ c, r.clock = some c → c + r.deadline ≤ s.nowNs → Gives .stragglerDeadline s fun t =>
        t.muuRun.map (·.expired) = some true ∧
        t.trn.expiries = (if r.expired then s.trn.expiries else satAdd s.trn.expiries 1) ∧ t.trn.committed = s.trn.committed) ∧
      (∀ c, r.clock = some c → s.nowNs < c + r.deadline → Gives .stragglerDeadline s fun t => t = s))

/-! ## Fabric and collectives (chapters 12 and 13) -/

/-- R408, R410: a port climbs from DARK to PARAM one state at a time; in PARAM the peer's node id and port number decide
between UP, with full credits, and MISWIRED, and unassigned ids hold it; 50 ms without progress return it to DARK. R408,
R411, R438, R439: a drop, or a header that fails its check, takes an UP port to DARK and counts it; with retrain = 0 it
stays there until FAB_PORT_CFG is written; en = 0 and a joined bypass hold ports in DISABLED, and an opened pair lets its
enabled ports climb again, outside Closed and Parked (R555). -/
def Obligations.LinksTrainAndDrop : Prop :=
  (∀ (p : FabPort) (s : State), Sound s →
      let n := p.toNat
      let x := getFab s n
      let goes := fun (t : State) (st : Nat) => (getFab t n).st.toNat = st ∧ (getFab t n).since = s.nowNs ∧
        (∀ k, k ≠ n → getFab t k = getFab s k) ∧ t.mem = s.mem
      (x.st = 1 → x.stay = false → x.hot = false → Gives (.portLightDetected p) s fun t => goes t 2) ∧
      (x.st = 2 → Gives (.portClockLock p) s fun t => goes t 3) ∧
      (x.st = 3 → Gives (.portCodewordLock p) s fun t => goes t 4) ∧
      (x.st = 4 → Gives (.portTrained p) s fun t => goes t 5 ∧
        t.out = s.out ++ [.link n 5, .param n s.fab.nodeId.toNat]) ∧
      (∀ (node : BitVec 16) (pp : BitVec 4), x.st = 5 →
        let wrong := (cfgPeerNode x.act ≠ 0xFFFF ∧ cfgPeerNode x.act ≠ node.toNat) ∨
          (cfgPortAny x.act = false ∧ cfgPeerPort x.act ≠ pp.toNat)
        let seen := fun (t : State) => (getFab t n).peerNode = node ∧ (getFab t n).peerPort = pp
        (node = 0xFFFF ∨ s.fab.nodeId = 0xFFFF → Gives (.param p node pp) s fun t => goes t 5 ∧ seen t) ∧
        (node ≠ 0xFFFF → s.fab.nodeId ≠ 0xFFFF → wrong → Gives (.param p node pp) s fun t => goes t 7 ∧ seen t) ∧
        (node ≠ 0xFFFF → s.fab.nodeId ≠ 0xFFFF → ¬wrong → Gives (.param p node pp) s fun t => goes t 6 ∧ seen t ∧
          (getFab t n).credits = List.replicate 8 128 ∧ (getFab t n).shared = 3072)) ∧
      ((x.st = 2 ∨ x.st = 3 ∨ x.st = 4 ∨ (x.st = 5 ∧ x.paramSeen = true ∧ x.peerNode ≠ 0xFFFF ∧ s.fab.nodeId ≠ 0xFFFF)) →
        (x.since + 50000000 ≤ s.nowNs → Gives (.portStateTimeout p) s fun t => goes t 1 ∧
          (getFab t n).retrains = satAdd x.retrains 1) ∧
        (s.nowNs < x.since + 50000000 → Gives (.portStateTimeout p) s fun t => t = s)) ∧
      (x.st = 5 → s.fab.nodeId = 0xFFFF ∨ x.paramSeen = false ∨ x.peerNode = 0xFFFF →
        Gives (.portStateTimeout p) s fun t => t = s)) ∧
  (∀ (p : FabPort) (s : State), Sound s → FabQuiet s →
      let n := p.toNat
      let x := getFab s n
      let dropped := fun (t : State) => (getFab t n).st = 1 ∧ (getFab t n).retrains = satAdd x.retrains 1 ∧
        (getFab t n).stay = !(cfgRetrain x.cfg) ∧ t.mem = s.mem
      (x.st = 6 → (∀ loss, Gives (.linkDrop p loss) s dropped) ∧
        (∀ (b : Bytes) (st : Bool) (k1 k2 : BitVec 16), s.fab.nodeId ≠ 0xFFFF → headerGood b = false →
          ∀ c ∈ [Instr.write p b st, .readReq p b, .readData p ⟨b, st⟩, .ack p b, .fwdWrite p ⟨b, st⟩, .routerForward p b,
            .idle p b k1 k2, .join p b, .close p b, .data p b, .result p ⟨b, st⟩, .credit p b, .abort p b, .a2aData p ⟨b, st⟩,
            .a2aCount p ⟨b, st⟩],
            Gives c s dropped)) ∧
      (x.st = 1 → x.stay = true → Gives (.portLightDetected p) s fun t => t = s) ∧
      (∀ (h : HPort) (v : BitVec 64), hostPath s h = .served →
        let c : BitVec 64 := (x.cfg &&& ~~~0x1FFFFF007F#64) ||| (v &&& 0x1FFFFF007F#64)
        let st : BitVec 3 := if v.getLsbD 0 = false then 0 else if x.st = 7 then 1
          else if x.st = 0 ∧ pairJoined s n = false ∧ x.hot = false ∧ s.pwr.state < 3 then 1 else x.st
        Gives (.fabPortCfg h p v) s fun t => (getFab t n).cfg = c ∧ (getFab t n).st = st ∧ (getFab t n).stay = false ∧
          ((getFab t n).act = if x.st = 6 ∧ v.getLsbD 0 = true then x.act else c) ∧ t.mem = s.mem) ∧
      (∀ (h : HPort) (v : BitVec 32), hostPath s h = .served → Gives (.fabBypass h v) s fun t =>
        let hold := v.extractLsb' 8 8
        t.fab.hold = hold ∧ t.fab.joined = s.fab.joined ||| hold ∧
        t.fab.designate = (if s.fab.bypLock then s.fab.designate else v.extractLsb' 0 8) ∧
        t.fab.bypLock = (s.fab.bypLock || v.getLsbD 31) ∧ t.mem = s.mem ∧
        ∀ k < 16, (getFab t k).st = if hold.getLsbD (k / 2) && !(s.fab.joined.getLsbD (k / 2)) then 0 else (getFab s k).st) ∧
      (∀ i : BitVec 3, s.fab.joined.getLsbD i.toNat = true →
        (pairHeld s i.toNat = true → Gives (.bypassSwitchDone i) s fun t => t = s) ∧
        (pairHeld s i.toNat = false → Gives (.bypassSwitchDone i) s fun t =>
          t.fab.joined = s.fab.joined &&& ~~~(1#8 <<< i.toNat) ∧ t.mem = s.mem ∧
          ∀ k, (getFab t k).st = if k / 2 = i.toNat ∧ (getFab s k).st = 0 ∧ cfgEn (getFab s k).cfg = true ∧
              (getFab s k).hot = false ∧ s.pwr.state < 3 then 1 else (getFab s k).st)))

/-- R424, R427, R429: a WRITE or FWD_WRITE that passes the checks lands whole in memory, moves its counter and leaves
every other byte; one that fails order 1, a window or an epoch leaves memory; one for a host window is posted, or waits
with the targets that its check found while PCIe takes no post. R424: a packet for a host window that was not posted within
50 µs is discarded, counted, and gets no ACK; a read of a host window that was not answered in time is answered. That what fails
a check is discarded with the counts here (log entry 56), and how a stalled packet waits (log entry 61), a collective packet for a
host window that its collective has not yet taken with it (log entry 107), is the model's choice. -/
def Obligations.PacketsLand : Prop :=
  (∀ (p : FabPort) (s : State) (b : Bytes) (stalled : Bool), Sound s → FabQuiet s →
      ∀ kc ∈ [(0, fun stalled => Instr.write p b stalled), (4, fun stalled => Instr.fwdWrite p ⟨b, stalled⟩)], Arrives s p b kc.1 →
        let open_ := orderOne b = true ∧ (ordersTwoFour s p.toNat b true).2 = true
        (open_ → orderFive s b = true → toHost b = false → (pkAckReq b = true → localNode s (ackNode b) = false) →
          Gives (kc.2 stalled) s fun t =>
            memRead t.mem (pkAddr b) (pkPlen b) = pkPayload b ∧ SameMem s t [(pkAddr b, pkPlen b)] ∧
            counter t (pkRctr b) = (if pkRctrEn b then counter s (pkRctr b) + 1 else counter s (pkRctr b)) ∧
            ∀ k, k ≠ pkRctr b → counter t k = counter s k) ∧
        (orderOne b = true → (ordersTwoFour s p.toNat b true).2 = false → Gives (kc.2 stalled) s fun t =>
          t.mem = s.mem ∧ t.cmd.counters = s.cmd.counters) ∧
        (orderOne b = false → Gives (kc.2 stalled) s fun t => t.fab.crcDrops = satAdd s.fab.crcDrops 1 ∧ t.mem = s.mem ∧
          t.cmd.counters = s.cmd.counters) ∧
        (open_ → toHost b = true → Gives (kc.2 true) s fun t => t.mem = s.mem ∧ posted s t p b) ∧
        (open_ → (∀ l ∈ linesOf (pkAddr b) (pkPlen b), region l = .host) →
          (pkAckReq b = true → localNode s (ackNode b) = false) → Gives (kc.2 false) s fun t => t.mem = s.mem ∧
            ∀ z ∈ hostTargets s b, let part := linePart (pkAddr b) (pkPayload b) z.1
              .hostWrite z.2.1 (z.2.2 + (part.1 - z.1)) part.2
                (flitPoison (pkPoison b) (part.1 - pkAddr b) part.2.length) ∈ t.out)) ∧
  (∀ (s : State) (id : Nat), FabQuiet { s with fab := { s.fab with posts := [] } } →
      (∀ h, s.fab.posts.find? (fun x => x.id == id) = some h →
        (h.at_ + 50000 ≤ s.nowNs → Gives (.hostSinkTimeout id) s fun t =>
          t.fab.posts = s.fab.posts.filter (fun x => x.id != id) ∧ t.fab.hostDrops = satAdd s.fab.hostDrops 1 ∧
          t.mem = s.mem ∧ ∀ x ∈ t.out, x ∈ s.out ∨ ∃ q f, x = .packet q f ∧ pkFtype f = 0) ∧
        (s.nowNs < h.at_ + 50000 → Gives (.hostSinkTimeout id) s fun t => t = s)) ∧
      (∀ f, s.fab.posts = [] → s.fab.fetches.find? (fun x => x.id == id) = some f →
        (f.at_ + 50000 ≤ s.nowNs → localNode s (gNode (le f.packet 42 8)) = false → Gives (.hostSinkTimeout id) s fun t =>
          t.fab.fetches = s.fab.fetches.filter (fun x => x.id != f.id) ∧ t.mem = s.mem) ∧
        (s.nowNs < f.at_ + 50000 → Gives (.hostSinkTimeout id) s fun t => t = s)) ∧
      ∀ e, s.fab.posts = [] → s.fab.fetches.find? (fun x => x.id == id) = none → s.coll.early.find? (fun x => x.id == id) = some e →
        (e.at_ + 50000 ≤ s.nowNs → e.targets ≠ [] → Gives (.hostSinkTimeout id) s fun t =>
          t.coll.early = s.coll.early.filter (fun x => x.id != id) ∧ t.fab.hostDrops = satAdd s.fab.hostDrops 1 ∧
          t.mem = s.mem ∧ t.out = s.out) ∧
        (s.nowNs < e.at_ + 50000 ∨ e.targets = [] → Gives (.hostSinkTimeout id) s fun t => t = s))

/-- R425, R427, R431, R434, R435: a READ_REQ is answered with the bytes it names; READ_DATA and ACK resolve their tags, and
READ_DATA lands, but for the command processor's own, which it keeps; one that the Window Table, the setup space or an epoch turns
away does nothing of this; a reply without an outstanding tag is counted and lands nothing; the limit of a tag resolves it too. How
replies are held against tags (log entry 54), and what becomes of the command processor's own reads (log entry 91), is the model's
choice. -/
def Obligations.RepliesAndTags : Prop :=
  ∀ (p : FabPort) (s : State) (b : Bytes) (stalled : Bool), Sound s → FabQuiet s →
    let n := p.toNat
    (∀ q dl down, Arrives s p b 1 → orderOne b = true → (ordersTwoFour s n b false).2 = true → orderFive s b = true →
      toHost b = false → s.mr.dramErr = [] → gNode (le b 42 8) = pkSrc b → localNode s (pkSrc b) = false →
      routeOf s (pkSrc b) = some q → hopOf s none q false false = some (dl, down) →
      creditsFor (getFab s q) (vcOf 1 dl) (cdiv (pkPlen b) 64 + 1) = true →
      Gives (.readReq p b) s fun t => t.mem = s.mem ∧
        ∃ x, .packet q x ∈ t.out ∧ pkKind x = 2 ∧ pkDst x = pkSrc b ∧ pkTag x = pkTag b ∧ pkAddr x = gLocal (le b 42 8) ∧
          pkPayload x = memRead s.mem (pkAddr b) (pkPlen b)) ∧
    (∀ kc ∈ [(2, Instr.readData p ⟨b, stalled⟩), (3, .ack p b)], Arrives s p b kc.1 → orderOne b = true →
      ((ordersTwoFour s n b true).2 = true → findTag s n (pkTag b) = none → Gives kc.2 s fun t =>
        t.fab.lateReplies = satAdd s.fab.lateReplies 1 ∧ t.mem = s.mem ∧ t.fab.tags = s.fab.tags) ∧
      ((ordersTwoFour s n b true).2 = false → Gives kc.2 s fun t => t.fab.lateReplies = s.fab.lateReplies ∧ t.mem = s.mem ∧
        t.fab.tags = s.fab.tags ∧ (orderTwoBad b ≠ [] → t.fab.windowDeny = satAdd s.fab.windowDeny 1))) ∧
    (∀ g, findTag s n (pkTag b) = some g →
      (Arrives s p b 3 → orderOne b = true → (ordersTwoFour s n b true).2 = true → Gives (.ack p b) s fun t => ¬hasTag t g ∧
        (moreOut s g → t.mem = s.mem ∧ t.fab.ops.map (·.owner) = s.fab.ops.map (·.owner)) ∧
        (¬moreOut s g → ∀ o ∈ t.fab.ops, o.owner = g.owner → byteAt o.desc 0 = 0x42)) ∧
      (Arrives s p b 2 → orderOne b = true → (∀ q d, g.owner ≠ .cmd q d) → (ordersTwoFour s n b true).2 = true →
        orderFive s b = true → toHost b = false → moreOut s g → Gives (.readData p ⟨b, stalled⟩) s fun t => ¬hasTag t g ∧
          memRead t.mem (pkAddr b) (pkPlen b) = pkPayload b ∧ SameMem s t [(pkAddr b, pkPlen b)]) ∧
      (∀ q d, Arrives s p b 2 → orderOne b = true → g.owner = .cmd q d → (ordersTwoFour s n b true).2 = true →
        Gives (.readData p ⟨b, stalled⟩) s fun t => ¬hasTag t g ∧ t.cmd.peerData = s.cmd.peerData ++
          [{ queue := q, desc := d, data := pkPayload b, poison := pkPoison b }])) ∧
    (∀ (tag : BitVec 24) (g : FabTag), s.fab.tags.find? (fun x => x.fi == n && x.tag == tag.toNat) = some g →
      (g.injected + g.limitNs ≤ s.nowNs → Gives (.fabricTimeout p tag) s fun t => ¬hasTag t g ∧
        (moreOut s g → t.mem = s.mem ∧ ∀ o ∈ s.fab.ops, o.owner = g.owner →
          ∃ o' ∈ t.fab.ops, o'.owner = g.owner ∧ (g.part, Status.timeout) ∈ o'.failed)) ∧
      (s.nowNs < g.injected + g.limitNs → Gives (.fabricTimeout p tag) s fun t => t = s))

/-- R415 to R421: an IDLE flit gives credits back; a packet for another node leaves on the port of its route
with its end-to-end part and payload as they came, on the channel of R421, or is discarded and counted; behind a packet that still
holds its channel's input buffer it waits its turn. -/
def Obligations.RouterForwards : Prop :=
  ∀ (p : FabPort) (s : State) (b : Bytes) (k1 k2 : BitVec 16), Sound s → FabQuiet s → portCarries s p.toNat = true →
    headerGood b = true →
    let n := p.toNat
    (pkFtype b = 0 → Gives (.idle p b k1 k2) s fun t =>
      (∀ v < 8, (getFab t n).credits.getD v 0 = (getFab s n).credits.getD v 0 + (byteAt b (2 + v)).toNat) ∧
      (getFab t n).shared = (getFab s n).shared + le b 10 2 % 4096 ∧
      (getFab t n).corrected = satAdd (getFab s n).corrected k1.toNat ∧
      (getFab t n).uncorrectable = satAdd (getFab s n).uncorrectable k2.toNat ∧ t.mem = s.mem) ∧
    (pkFtype b = 1 → localNode s (pkDst b) = false → b.length = 64 * (pkFlits b + 1) →
      let dl := pkVc b % 2 == 1
      let turn := channelBusy s n (pkVc b) = false
      (channelBusy s n (pkVc b) = true → Gives (.routerForward p b) s fun t => t.mem = s.mem ∧ t.fab.noRoute = s.fab.noRoute ∧
        t.fab.held = [{ fi := n, bytes := b, stalled := false, src := (n, pkVc b, b.length / 64) }]) ∧
      (turn → s.fab.en = false ∨ routeOf s (pkDst b) = none → Gives (.routerForward p b) s fun t =>
        t.fab.noRoute = satAdd s.fab.noRoute 1 ∧ t.mem = s.mem) ∧
      (∀ q, turn → s.fab.en = true → routeOf s (pkDst b) = some q →
        (hopOf s (some n) q dl (pkDown b) = none → Gives (.routerForward p b) s fun t =>
          t.fab.routeErr = satAdd s.fab.routeErr 1 ∧ t.mem = s.mem) ∧
        (∀ d e, hopOf s (some n) q dl (pkDown b) = some (d, e) →
          creditsFor (getFab s q) (vcOf (pkCls b) d) (b.length / 64) = true → Gives (.routerForward p b) s fun t =>
            sentOn t q (vcOf (pkCls b) d) b ∧ t.mem = s.mem)))

/-- R431 to R433: PUT and GET start; with acknowledgement, or as a GET, those to another module run until their packets are
answered, and a posted PUT ends as its packet leaves; AWAIT ends once its counter has come to its value, or with TIMEOUT, and its
time runs no longer once it has completed; ROLE_SET gives every core of its bitmap the new epoch. -/
def Obligations.FabricOps : Prop :=
  ∀ (id : StreamId) (ph : PhaseNo) (s : State) (o : NextOp) (host : List HostLine), Sound s → FabQuiet s →
    let loc := OpLoc.io id ph
    let i := id.toNat
    let k := ph.toNat
    let d := o.desc
    let runs := fun (t : State) => ∃ f ∈ t.fab.ops, f.owner = .io o.tok.stream o.tok.phase o.idx ∧ f.desc = d
    let routed := fabCheck s o.tok.stream d = none ∧ (fabRoute s (gNode (fbRemote d))).isSome = true
    let far := localNode s (gNode (fbRemote d)) = false
    let clean := ∀ h ∈ host, region h.addr ≠ .dram
    let leaves := fun (kind : Nat) (tagged : Prop) (len : Nat) (t : State) (holds : Bytes → Prop) =>
      ∀ q dl down, far → routeOf s (gNode (fbRemote d)) = some q → s.fab.nodeId ≠ 0xFFFF →
        hopOf s none q false false = some (dl, down) →
        (tagged → (freeTag s q).isSome = true) → creditsFor (getFab s q) (vcOf 0 dl) (cdiv len 64 + 1) = true →
        ∃ x, .packet q x ∈ t.out ∧ pkKind x = kind ∧ pkDst x = gNode (fbRemote d) ∧ pkAddr x = gLocal (fbRemote d) ∧ holds x
    (fabNext loc s 0x40 = some o → routed → Gives (.put loc host) s fun t => (getIo t i k o.idx).isSome = true ∧
      (far → fbAck d = true → runs t ∧ SameMem s t []) ∧
      (fbLen d ≤ pktMax → (read s .fi (fbLocal d) (fbLen d)).err = none → s.mr.dramErr = [] →
        leaves 0 (fbAck d = true) (fbLen d) t fun x => pkPayload x = memRead s.mem (fbLocal d) (fbLen d) ∧
          pkAckReq x = fbAck d) ∧
      (fbLen d ≤ pktMax → (read s .fi (fbLocal d) (fbLen d)).err = none → s.mr.dramErr = [] → clean →
        fbAck d = false → getIo s i k o.idx = none → (∀ g ∈ s.fab.tags, g.owner ≠ .io o.tok.stream o.tok.phase o.idx) →
        ∀ q dl, WayOut s (gNode (fbRemote d)) 0 (fbLen d) false q dl →
          (∀ f ∈ t.fab.ops, f.owner ≠ .io o.tok.stream o.tok.phase o.idx) ∧ SameMem s t [(fbResult d, 8)] ∧
          (getIo t i k o.idx).map (fun x => (x.finished, x.status)) = some (true, .ok))) ∧
    (fabNext loc s 0x41 = some o → routed → Gives (.get loc) s fun t => (getIo t i k o.idx).isSome = true ∧
      (far → runs t ∧ t.mem = s.mem) ∧
      (fbLen d ≤ pktMax → leaves 1 True 0 t fun x => pkPlen x = fbLen d ∧
        le x 42 8 = if fbVia d then fbDest d else s.fab.nodeId.toNat * 2 ^ 48 + fbLocal d)) ∧
    (fabNext loc s 0x42 = some o → reservedZero d (hdrFields ++ [fldBits 8 0 12, fld 10 2, fld 12 2]) = true →
      ctrCheck s o.tok.stream (opHdr d) = true → ctrInRange s o.tok.stream (field d 8 0 12) = true → s.fab.en = true →
      getIo s i k o.idx = none → Gives (.await loc) s fun t =>
        (getIo t i k o.idx).map (·.finished) = some (!(waitHolds s (field d 8 0 12) (le d 10 2))) ∧ t.mem = s.mem) ∧
    (Gives (.awaitTimeout loc) s fun t => t.mem = s.mem ∧
      ∀ f ∈ s.fab.ops, f.stream = i → f.phase = k → byteAt f.desc 0 = 0x42 →
        f.started + classNs s 2 (le f.desc 12 2) ≤ s.nowNs →
        (∀ g ∈ t.fab.ops, g.owner ≠ f.owner) ∧
        ∀ a c j x, f.owner = .io a c j → getIo s a c j = some x → (getIo t a c j).map (·.finished) = some true ∧
          (x.finished = false → x.status = .ok → (getIo t a c j).map (·.status) = some .timeout)) ∧
    (∀ (j : BitVec 10) (x : IoOp), getIo s i k j.toNat = some x → x.finished = true → byteAt x.desc 0 = 0x42 →
      Gives (.opComplete loc (.io j)) s fun t => ∀ f ∈ t.fab.ops, byteAt f.desc 0 = 0x42 → f.owner ≠ .io i k j.toNat) ∧
    (fabNext loc s 0x43 = some o → reservedZero d (hdrFields ++ [fld 8 6, fld 14 2]) = true →
      ctrCheck s o.tok.stream (opHdr d) = true → le d 8 6 % 64 = 0 → fiAddrOk s (le d 8 6) 512 = true → s.fab.en = true →
      (read s .fi (le d 8 6) 512).err = none → s.mr.dramErr = [] → clean → Gives (.roleSet ⟨loc, host⟩) s fun t =>
        (∀ n < 4096, smGet 0 t.fab.epochs n =
          if bit (memLe s (le d 8 6) 512) n then BitVec.ofNat 16 (le d 14 2) else smGet 0 s.fab.epochs n) ∧
        (getIo t i k o.idx).map (·.finished) = some true ∧ t.mem = s.mem)

/-- R447 to R450: a COLL op that passes its check issues when its communicator has no collective before its close and
fewer than 64 are open: it is open, a member with children of an op that reduces has claimed the lowest run of free slots if there
is one, and its seq is the communicator's last; an op that R449 holds back waits, and another row's op is not taken. -/
def Obligations.CollectivesIssue : Prop :=
  ∀ (loc : OpLoc) (host : List HostLine) (s : State) (o : NextOp), Sound s → FabQuiet s → s.coll.early = [] →
    fabNext loc s 0x50 = some o →
    ∀ kc ∈ [(0, Instr.allReduce loc host), (1, .reduceScatter loc host), (2, .allGather loc host), (3, .reduce loc host),
        (4, .broadcast loc host), (5, .barrier loc host), (6, .allToAllv loc host)],
      let d := o.desc
      let r := commOf s (coComm d)
      (collRow kc.1 d = false → Gives kc.2 s fun t => t = s) ∧
      (collRow kc.1 d = true → collCheck s o.tok.stream d = none → collMay s (coComm d) = false → Gives kc.2 s fun t => t = s) ∧
      (collRow kc.1 d = true → collCheck s o.tok.stream d = none → collMay s (coComm d) = true →
        1 < cmMembers r → cmRank r = 0 ∨ localNode s (mbNode (member s r 0)) = false →
        (smGet (0, 0) s.coll.heldAbort (coComm d)).1 ≠ coSeq d % 65536 + 1 → getColl s s.coll.nextId = none →
        Gives kc.2 s fun t =>
          ∃ c, getColl t s.coll.nextId = some c ∧ c.desc = d ∧ c.closed = false ∧ c.started = s.nowNs ∧
            c.owner = .io o.tok.stream o.tok.phase o.idx ∧ c.ready = !(coDeadline d) ∧
            (coReduces d = true → mbChildren (myEntry s r) ≠ [] →
              (∃ x, ∀ j < coSlots d, slotFree s r (ctlSlots s) (x + j) = true) → c.claimed = true) ∧
            (c.claimed = true → (∀ x < c.first, ∃ j < coSlots d, slotFree s r (ctlSlots s) (x + j) = false) ∧
              ∀ j < coSlots d, slotFree s r (ctlSlots s) (c.first + j) = true ∧ smGet false t.coll.busy (c.first + j) = true) ∧
            smGet 0 t.coll.nextSeq (coComm d) = (coSeq d + 1) % 2 ^ 32 + 1)

/-- R450 to R453, R463 to R466: COLL_READY makes a contribution ready, and without late data the member only says so; past its
deadline a round that everyone has joined closes; a combine moves its member on by one segment, and the root of a REDUCE
lands the combined values; a member whose wait has reached its limit aborts the collective here. Which cells a combine expects and
in what order segments are combined is the model's reading (log entry 64). -/
def Obligations.CollectivesProceed : Prop :=
  ∀ (id : Nat) (s : State) (c : Coll), Sound s → CollQuiet s → getColl s id = some c →
    (∀ y ∈ s.coll.colls, y.closed = true → y.id = id) →
    let rs := (List.range (colM c)).map (smGet 0 c.joins)
    let gone := fun (t : State) => getColl t id = none ∧ t.coll.aborted = satAdd s.coll.aborted 1
    (∀ host, coDeadline c.desc = true → c.ready = false → c.closed = false → Gives (.collReady id host) s fun t =>
      (∀ c', getColl t id = some c' → c'.ready = true) ∧
      ((lateHdr s (c.host ++ host) c.desc).2 = none → colMe c ≠ 0 → localNode s (mbNode (member s c.comm 0)) = false →
        ∃ c', getColl t id = some c' ∧ c'.closed = false ∧ c'.carried = c.carried ∧ SameMem s t [])) ∧
    (coDeadline c.desc = false ∨ colMe c ≠ 0 → Gives (.collDeadline id) s fun t => t = s) ∧
    (coDeadline c.desc = true → colMe c = 0 → c.closed = false →
      (s.nowNs < c.started + 1000 * coDeadlineUs c.desc → rs.all (fun v => bit v 14) = false →
        Gives (.collDeadline id) s fun t => t = s) ∧
      (c.started + 1000 * coDeadlineUs c.desc ≤ s.nowNs → rs.all (fun v => bit v 12) = true →
        Gives (.collDeadline id) s fun t => (∀ c', getColl t id = some c' → c'.closed = true) ∧
          (coOp c.desc = 0 → rs.all (fun v => bit v 13) = true → c.landed = [] → 0 < coSegs c.desc →
            ∃ c', getColl t id = some c' ∧ c'.closed = true ∧ c'.endPoint = false ∧
              c'.contribs = (List.range (colM c)).filter (fun k => bit (smGet 0 c.joins k) 14) ∧
              c'.n = ((rs.filter (fun v => bit v 14)).map (· / 65536)).sum % 2 ^ 32))) ∧
    (∀ j, mayCombine s c j = false → Gives (.segmentCombine id j) s fun t => t = s) ∧
    (∀ j, mayCombine s c j = true → Gives (.segmentCombine id j) s fun t =>
      (∀ c', getColl t id = some c' → c'.nextUp = j + 1) ∧
      (colMe c = 0 → coOp c.desc = 3 → coMx c.desc = false → j + 1 < coSegs c.desc →
        region (coDst c.desc) = .dram → canAccess s .fi (coDst c.desc) (coLen c.desc) = true →
        memRead t.mem (coDst c.desc + 2048 * j) 2048 =
          combineBytes c.desc (if coMean c.desc then some c.n else none) (combineInputs s c j).2.1)) ∧
    (let limit := collTimeoutNs s c.desc
     let opened := c.started + if coDeadline c.desc then 1000 * coDeadlineUs c.desc else 0
     (c.closed = true →
       ((waitsOf s c).any (fun w => decide (w + limit ≤ s.nowNs)) = true → Gives (.collTimeout id) s gone) ∧
       ((waitsOf s c).all (fun w => decide (s.nowNs < w + limit)) = true → Gives (.collTimeout id) s fun t => t = s)) ∧
     (c.closed = false →
       (opened + 2 * limit ≤ s.nowNs ∨ (colMe c = 0 ∧ rs.all (fun v => bit v 12) = false ∧ opened + limit ≤ s.nowNs) →
         Gives (.collTimeout id) s gone) ∧
       (s.nowNs < opened + limit → Gives (.collTimeout id) s fun t => t = s)))

/-- R450, R453, R454, R462 to R464, R473: what each kind of collective packet does to its open collective: a join is
noted, a close closes, a segment fills its cell, a result lands, a credit counts, an abort ends it, and window data and
counts are noted. R463, R464: a
collective packet whose hash is not its collective's aborts it here with MISMATCH; one whose communicator or sender is not
known is discarded and counted; data that comes before the close waits. R424, R427: one whose lines do not exist is discarded
whole, and one for a host window waits while PCIe takes no post. What is kept for its collective (log entry 63), and how window data
are cut and held against their window (log entry 65), is the model's choice. -/
def Obligations.CollectivePackets : Prop :=
  (∀ (p : FabPort) (b : Bytes) (stalled : Bool) (s : State) (c : Coll) (src : Nat), (toHost b = true → stalled = false) →
      let j := le b 54 2
      let x := pkPayload b
      let here := fun (t : State) (P : Coll → Prop) => ∀ c', getColl t c.id = some c' → P c'
      (CollArrives s p b 10 c src → colMe c = 0 → c.closed = false → Gives (.join p b) s fun t =>
        (here t fun c' => smGet 0 c'.joins src = le x 0 4) ∧
        (∀ k, k < colM c → k ≠ src → bit (smGet 0 c.joins k) 12 = false →
          ∃ c', getColl t c.id = some c' ∧ c'.closed = false ∧ smGet 0 c'.joins src = le x 0 4)) ∧
      (CollArrives s p b 11 c src → c.closed = false → Gives (.close p b) s fun t =>
        (here t fun c' => c'.closed = true ∧ c'.n = le x 0 4) ∧
        (coOp c.desc = 5 → coDeadline c.desc = false → fabBusy s (.coll c.id) = false → getColl t c.id = none ∧
          t.coll.completed = satAdd s.coll.completed 1) ∧
        (coOp c.desc = 4 → coDeadline c.desc = false → colMe c ≠ 0 → c.landed = [] → 0 < coSegs c.desc →
          ∃ c', getColl t c.id = some c' ∧ c'.closed = true ∧ c'.n = le x 0 4)) ∧
      (CollArrives s p b 8 c src → ∀ cell, c.closed = true → coReduces c.desc = true → c.endPoint = false → c.claimed = true →
        j < coSegs c.desc → c.nextUp ≤ j → (src, cell) ∈ colCells s c → (colCells s c).find? (fun y => y.1 == src) = some (src, cell) →
        (∀ e ∈ c.cells, ¬(e.2 = cell ∧ e.1 % max 1 (coSlots c.desc) = j % max 1 (coSlots c.desc))) → colSlot c j < 3072 →
        x.length = flowLen c flowAll j → (∀ i < 0x200000, region (cmTab c.comm + i) = .dram) → Gives (.data p b) s fun t =>
          memRead t.mem (cellAddr (colSlot c j) cell) (segLen c.desc) = x.take (segLen c.desc) ∧
          SameMem s t [(cellAddr (colSlot c j) cell, segLen c.desc)] ∧ here t fun c' => (j, cell) ∈ c'.cells) ∧
      (CollArrives s p b 9 c src → ∀ flow down, c.closed = true → resultFlow s c src = some (flow, down) → flow j = true →
        j < coSegs c.desc → x.length = flowLen c flow j → Gives (.result p ⟨b, stalled⟩) s fun t => (here t fun c' => j ∈ c'.landed) ∧
          (coOp c.desc = 4 → coMx c.desc = false → j + 1 < coSegs c.desc → j % 32 ≠ 31 → j ∉ c.landed →
            c.landed.length + 2 ≤ coSegs c.desc → (∀ k ∈ colKids s c, localNode s (mbNode (member s c.comm k)) = false) →
            region (coDst c.desc + 2048 * j) = .dram → canAccess s .fi (coDst c.desc + 2048 * j) 2048 = true →
            memRead t.mem (coDst c.desc + 2048 * j) 2048 = x.take 2048 ∧
            ∃ c', getColl t c.id = some c' ∧ c'.landed = c.landed ++ [j])) ∧
      (CollArrives s p b 13 c src → c.closed = true → isLeaf s c = false → Gives (.credit p b) s fun t =>
        (here t fun c' => c'.credits = c.credits + 1) ∧
        (coOp c.desc = 0 → c.landed = [] → 0 < coSegs c.desc →
          ∃ c', getColl t c.id = some c' ∧ c'.credits = c.credits + 1)) ∧
      (CollArrives s p b 12 c src → Gives (.abort p b) s fun t => getColl t c.id = none ∧
        t.coll.aborted = satAdd s.coll.aborted 1) ∧
      (CollArrives s p b 14 c src → c.closed = true → coOp c.desc = 6 → c.counted.contains src = false →
        let base := coDst c.desc + src * coLen c.desc
        let off := pkAddr b - base
        let n := min x.length (a2aChunk - off % a2aChunk)
        base ≤ pkAddr b → off + n ≤ coLen c.desc → x.length = n ∨ x.length = n + 8 →
        smGet 0 c.nextChunk src ≤ off / a2aChunk → region (pkAddr b) = .dram → canAccess s .fi (pkAddr b) n = true →
        Gives (.a2aData p ⟨b, stalled⟩) s fun t => memRead t.mem (pkAddr b) n = x.take n ∧ SameMem s t [(pkAddr b, n)] ∧
          here t fun c' => smGet 0 c'.arrived src = off + n) ∧
      (CollArrives s p b 15 c src → c.closed = true → coOp c.desc = 6 → x.length = 12 → Gives (.a2aCount p ⟨b, stalled⟩) s fun t =>
        (here t fun c' => src ∈ c'.counted) ∧
        (c.counted.contains src = false → c.counted.length + 2 ≤ colM c → region (coAux1 c.desc + 4 * src) = .dram →
          canAccess s .fi (coAux1 c.desc + 4 * src) 4 = true → memLe t (coAux1 c.desc + 4 * src) 4 = le x 0 4 ∧
          ∃ c', getColl t c.id = some c' ∧ c'.counted = c.counted ++ [src]))) ∧
  (∀ (p : FabPort) (b : Bytes) (stalled : Bool) (s : State), Sound s → CollQuiet s → orderOne b = true →
      (ordersTwoFour s p.toNat b true).2 = true →
      (toHost b = true → ∀ kc ∈ [(9, Instr.result p ⟨b, true⟩), (14, .a2aData p ⟨b, true⟩), (15, .a2aCount p ⟨b, true⟩)],
        Arrives s p b kc.1 → Gives kc.2 s fun t => t.mem = s.mem ∧ t.coll.colls = s.coll.colls ∧ posted s t p b) ∧
      ((toHost b = true → stalled = false) →
      ∀ kc ∈ [(8, Instr.data p b), (9, .result p ⟨b, stalled⟩), (14, .a2aData p ⟨b, stalled⟩), (15, .a2aCount p ⟨b, stalled⟩),
          (13, .credit p b), (10, .join p b), (11, .close p b), (12, .abort p b)],
        Arrives s p b kc.1 →
        (orderFive s b = false → Gives kc.2 s fun t => t.mem = s.mem ∧ t.coll.colls = s.coll.colls ∧
          t.coll.early = [] ∧ t.coll.stale = s.coll.stale) ∧
        (orderFive s b = true →
        ((∀ r, commRec s (le b 50 2) = some r → senderRank s r b = none) → Gives kc.2 s fun t =>
          t.coll.stale = satAdd s.coll.stale 1 ∧ t.mem = s.mem ∧ t.coll.colls = s.coll.colls) ∧
        (∀ r src c, commRec s (le b 50 2) = some r → senderRank s r b = some src →
          s.coll.colls.find? (fun c => coComm c.desc == le b 50 2 && coSeq c.desc % 65536 == le b 52 2) = some c →
          (hashed kc.1 = true → (b.drop 42).take 8 ≠ crcBytes (coHash c.desc) → getColl s c.id = some c → Gives kc.2 s fun t =>
            getColl t c.id = none ∧ t.coll.mismatch = satAdd s.coll.mismatch 1) ∧
          (kc.1 ∈ [8, 9, 13, 14, 15] → (b.drop 42).take 8 = crcBytes (coHash c.desc) →
            (∀ y ∈ s.coll.colls, coComm y.desc = le b 50 2 → coSeq y.desc % 65536 = le b 52 2 → y.closed = false) →
            Gives kc.2 s fun t => t.mem = s.mem ∧ t.coll.colls = s.coll.colls ∧
              t.coll.early = [{ id := s.fab.nextId, at_ := s.nowNs, fi := p.toNat, packet := b, targets := hostTargets s b }])))))

/-- R474, R475: TRIG_ARM copies its op into the entry, due at once where its condition holds; a due entry of a PUT or GET
to another module fires its op and is disarmed; one that is not due stays. A fired posted PUT ends as its packet leaves; a fired
COLL issues as an op of the list does, or is held while R449 holds it back. -/
def Obligations.TriggersArmAndFire : Prop :=
  ∀ (s : State), Sound s → CollQuiet s →
    (∀ (loc : OpLoc) (host : List HostLine) (o : NextOp), fabNext loc s 0x51 = some o →
      let d := o.desc
      let c := field d 10 0 12
      let r := (fiRd s host (le d 16 6) 64).2
      trigCheck s o.tok.stream d r = none → Gives (.trigArm ⟨loc, host⟩) s fun t => SameMem s t [] ∧
        ∃ x ∈ t.coll.triggers, x.fi = c / 256 ∧ x.entry = field d 8 0 10 ∧ x.counter = c ∧ x.value = le d 12 2 ∧
          x.desc = r.data ∧ x.stream = o.tok.stream ∧ (waitHolds s c x.value = false → x.due = true)) ∧
    (∀ (fi : FabPort) (entry : BitVec 10) (host : List HostLine) (x : Trigger),
      s.coll.triggers.find? (fun y => y.fi == fi.toNat && y.entry == entry.toNat) = some x →
      (x.due = false → Gives (.triggerFire fi entry host) s fun t => t = s) ∧
      (x.due = true → Gives (.triggerFire fi entry host) s fun t =>
        (∀ y ∈ t.coll.triggers, ¬(y.fi = fi.toNat ∧ y.entry = entry.toNat)) ∧ t.coll.fired = satAdd s.coll.fired 1) ∧
      (x.due = true → byteAt x.desc 0 = 0x41 ∨ (byteAt x.desc 0 = 0x40 ∧ fbAck x.desc = true) →
        fabCheck s x.stream x.desc = none → (fabRoute s (gNode (fbRemote x.desc))).isSome = true →
        localNode s (gNode (fbRemote x.desc)) = false → Gives (.triggerFire fi entry host) s fun t => SameMem s t [] ∧
          ∃ f ∈ t.fab.ops, f.owner = .fired s.coll.nextId ∧ f.desc = x.desc) ∧
      (x.due = true → byteAt x.desc 0 = 0x40 → fbAck x.desc = false → fbLen x.desc ≤ pktMax → fabCheck s x.stream x.desc = none →
        (∀ g ∈ s.fab.tags, g.owner ≠ .fired s.coll.nextId) → (fabRoute s (gNode (fbRemote x.desc))).isSome = true →
        ∀ q dl, WayOut s (gNode (fbRemote x.desc)) 0 (fbLen x.desc) false q dl → Gives (.triggerFire fi entry host) s fun t =>
          leftFor t q 0 (fbRemote x.desc) (fun b => pkAckReq b = false ∧ pkPlen b = fbLen x.desc) ∧
          (∀ f ∈ t.fab.ops, f.owner ≠ .fired s.coll.nextId) ∧ ∀ f ∈ t.coll.firedOps, f.id ≠ s.coll.nextId) ∧
      (x.due = true → byteAt x.desc 0 = 0x50 → collCheck s x.stream x.desc = none →
        let d := x.desc
        let r := commOf s (coComm d)
        (collMay s (coComm d) = false → Gives (.triggerFire fi entry host) s fun t =>
          t.coll.colls = s.coll.colls ∧ t.mem = s.mem ∧
          ∃ f ∈ t.coll.firedOps, f.id = s.coll.nextId ∧ f.desc = d ∧ f.waiting = true ∧ f.ended = none ∧ f.host = host) ∧
        (collMay s (coComm d) = true → 1 < cmMembers r → cmRank r = 0 ∨ localNode s (mbNode (member s r 0)) = false →
          (smGet (0, 0) s.coll.heldAbort (coComm d)).1 ≠ coSeq d % 65536 + 1 → getColl s (s.coll.nextId + 1) = none →
          Gives (.triggerFire fi entry host) s fun t => ∃ c, getColl t (s.coll.nextId + 1) = some c ∧ c.desc = d ∧ c.closed = false ∧
            c.started = s.nowNs ∧ c.owner = .fired s.coll.nextId ∧ c.ready = !(coDeadline d) ∧
            smGet 0 t.coll.nextSeq (coComm d) = (coSeq d + 1) % 2 ^ 32 + 1)))
end

