-- ==== Sys2Proof/Laws/Crypto.lean ====
section
/-! SUPPORT. How long the outputs of SHAKE256 and KMAC256 are, whatever is hashed. -/

namespace Sys2Proof.Laws

open Sys2Proof.Machine

@[simp] theorem leBytes_length (n v : Nat) : (leBytes n v).length = n := by
  induction n generalizing v with
  | zero => rfl
  | succ n ih => simp [leBytes, ih]

@[simp] theorem theta_length (a : List Nat) : (theta a).length = a.length := by simp [theta]

@[simp] theorem chi_length (b : List Nat) : (chi b).length = b.length := by simp [chi]

@[simp] theorem rhoPiFrom_length (a : List Nat) (n x y : Nat) (b : List Nat) : (rhoPiFrom a n x y b).length = b.length := by
  induction n generalizing x y b with
  | zero => rfl
  | succ n ih => simp only [rhoPiFrom, ih, List.length_set]

@[simp] theorem keccakRound_length (p : List Nat × Nat) : (keccakRound p).1.length = p.1.length := by simp [keccakRound]

@[simp] theorem keccakF_length (a : List Nat) : (keccakF a).length = a.length := by
  have step : ∀ n, (Nat.repeat keccakRound n (a, 1)).1.length = a.length := by
    intro n
    induction n with
    | zero => rfl
    | succ n ih => simp only [Nat.repeat, keccakRound_length, ih]
  exact step 24

@[simp] theorem absorb_length (a : List Nat) (blk : Bytes) : (absorb a blk).length = 25 := by simp [absorb]

theorem absorbAll_length (n : Nat) (a : List Nat) (bs : Bytes) (h : a.length = 25) : (absorbAll n a bs).length = 25 := by
  induction n generalizing a bs with
  | zero => exact h
  | succ n ih => exact ih _ _ (absorb_length _ _)

theorem flatMap_leBytes_length (n : Nat) (l : List Nat) : (l.flatMap (leBytes n)).length = n * l.length := by
  induction l with
  | nil => simp
  | cons x l ih => simp [ih, Nat.mul_succ, Nat.add_comm]

theorem squeeze_length (n : Nat) (a : List Nat) (h : a.length = 25) : (squeeze n a).length = shakeRate * n := by
  induction n generalizing a with
  | zero => rfl
  | succ n ih =>
    simp only [squeeze, List.length_append, flatMap_leBytes_length, List.length_take, h, ih _ ((keccakF_length a).trans h), shakeRate]
    omega

/-- The sponge gives as many bytes as it is asked for. -/
theorem keccak512_length (suffix : Nat) (msg : Bytes) (n : Nat) : (keccak512 suffix msg n).length = n := by
  have enough : n ≤ shakeRate * cdiv n shakeRate := by simp only [cdiv, shakeRate]; omega
  simp only [keccak512, List.length_take]
  rw [squeeze_length _ _ (absorbAll_length _ _ _ (by simp))]
  exact Nat.min_eq_left enough

@[simp] theorem shake256_length (msg : Bytes) (n : Nat) : (shake256 msg n).length = n := keccak512_length _ _ _

@[simp] theorem kmac256_length (key msg : Bytes) (n : Nat) (custom : String) : (kmac256 key msg n custom).length = n :=
  keccak512_length _ _ _

end Sys2Proof.Laws
end

