-- ==== Sys2Proof/Laws/State.lean ====
section
/-! SUPPORT. What the updates of State leave as it was: one lemma per field and update, each true by unfolding one record
update, so that no later proof unfolds them. -/

namespace Sys2Proof.Laws

open Sys2Proof.Machine

/-! ## setMem -/

@[simp] theorem setMem_nowNs (s : State) (m : Mem) : (setMem s m).nowNs = s.nowNs := rfl
@[simp] theorem setMem_freeCount (s : State) (m : Mem) : (setMem s m).freeCount = s.freeCount := rfl
@[simp] theorem setMem_out (s : State) (m : Mem) : (setMem s m).out = s.out := rfl
@[simp] theorem setMem_cr (s : State) (m : Mem) : (setMem s m).cr = s.cr := rfl
@[simp] theorem setMem_cores (s : State) (m : Mem) : (setMem s m).cores = s.cores := rfl
@[simp] theorem setMem_blink (s : State) (m : Mem) : (setMem s m).blink = s.blink := rfl
@[simp] theorem setMem_trn (s : State) (m : Mem) : (setMem s m).trn = s.trn := rfl
@[simp] theorem setMem_mr (s : State) (m : Mem) : (setMem s m).mr = s.mr := rfl
@[simp] theorem setMem_ccm (s : State) (m : Mem) : (setMem s m).ccm = s.ccm := rfl
@[simp] theorem setMem_muu (s : State) (m : Mem) : (setMem s m).muu = s.muu := rfl
@[simp] theorem setMem_muuRun (s : State) (m : Mem) : (setMem s m).muuRun = s.muuRun := rfl
@[simp] theorem setMem_trnRun (s : State) (m : Mem) : (setMem s m).trnRun = s.trnRun := rfl
@[simp] theorem setMem_cmd (s : State) (m : Mem) : (setMem s m).cmd = s.cmd := rfl
@[simp] theorem setMem_hif (s : State) (m : Mem) : (setMem s m).hif = s.hif := rfl
@[simp] theorem setMem_sec (s : State) (m : Mem) : (setMem s m).sec = s.sec := rfl
@[simp] theorem setMem_fw (s : State) (m : Mem) : (setMem s m).fw = s.fw := rfl
@[simp] theorem setMem_err (s : State) (m : Mem) : (setMem s m).err = s.err := rfl
@[simp] theorem setMem_pwr (s : State) (m : Mem) : (setMem s m).pwr = s.pwr := rfl
@[simp] theorem setMem_rst (s : State) (m : Mem) : (setMem s m).rst = s.rst := rfl
@[simp] theorem setMem_fab (s : State) (m : Mem) : (setMem s m).fab = s.fab := rfl
@[simp] theorem setMem_coll (s : State) (m : Mem) : (setMem s m).coll = s.coll := rfl
@[simp] theorem setMem_pending (s : State) (m : Mem) : (setMem s m).pending = s.pending := rfl

/-! ## setCore -/

@[simp] theorem setCore_nowNs (s : State) (n : Nat) (c : Core) : (setCore s n c).nowNs = s.nowNs := rfl
@[simp] theorem setCore_freeCount (s : State) (n : Nat) (c : Core) : (setCore s n c).freeCount = s.freeCount := rfl
@[simp] theorem setCore_out (s : State) (n : Nat) (c : Core) : (setCore s n c).out = s.out := rfl
@[simp] theorem setCore_mem (s : State) (n : Nat) (c : Core) : (setCore s n c).mem = s.mem := rfl
@[simp] theorem setCore_cr (s : State) (n : Nat) (c : Core) : (setCore s n c).cr = s.cr := rfl
@[simp] theorem setCore_blink (s : State) (n : Nat) (c : Core) : (setCore s n c).blink = s.blink := rfl
@[simp] theorem setCore_trn (s : State) (n : Nat) (c : Core) : (setCore s n c).trn = s.trn := rfl
@[simp] theorem setCore_mr (s : State) (n : Nat) (c : Core) : (setCore s n c).mr = s.mr := rfl
@[simp] theorem setCore_ccm (s : State) (n : Nat) (c : Core) : (setCore s n c).ccm = s.ccm := rfl
@[simp] theorem setCore_muu (s : State) (n : Nat) (c : Core) : (setCore s n c).muu = s.muu := rfl
@[simp] theorem setCore_muuRun (s : State) (n : Nat) (c : Core) : (setCore s n c).muuRun = s.muuRun := rfl
@[simp] theorem setCore_trnRun (s : State) (n : Nat) (c : Core) : (setCore s n c).trnRun = s.trnRun := rfl
@[simp] theorem setCore_cmd (s : State) (n : Nat) (c : Core) : (setCore s n c).cmd = s.cmd := rfl
@[simp] theorem setCore_hif (s : State) (n : Nat) (c : Core) : (setCore s n c).hif = s.hif := rfl
@[simp] theorem setCore_sec (s : State) (n : Nat) (c : Core) : (setCore s n c).sec = s.sec := rfl
@[simp] theorem setCore_fw (s : State) (n : Nat) (c : Core) : (setCore s n c).fw = s.fw := rfl
@[simp] theorem setCore_err (s : State) (n : Nat) (c : Core) : (setCore s n c).err = s.err := rfl
@[simp] theorem setCore_pwr (s : State) (n : Nat) (c : Core) : (setCore s n c).pwr = s.pwr := rfl
@[simp] theorem setCore_rst (s : State) (n : Nat) (c : Core) : (setCore s n c).rst = s.rst := rfl
@[simp] theorem setCore_fab (s : State) (n : Nat) (c : Core) : (setCore s n c).fab = s.fab := rfl
@[simp] theorem setCore_coll (s : State) (n : Nat) (c : Core) : (setCore s n c).coll = s.coll := rfl
@[simp] theorem setCore_pending (s : State) (n : Nat) (c : Core) : (setCore s n c).pending = s.pending := rfl

/-! ## touchCluster -/

@[simp] theorem touchCluster_nowNs (s : State) (c : Nat) : (touchCluster s c).nowNs = s.nowNs := rfl
@[simp] theorem touchCluster_freeCount (s : State) (c : Nat) : (touchCluster s c).freeCount = s.freeCount := rfl
@[simp] theorem touchCluster_out (s : State) (c : Nat) : (touchCluster s c).out = s.out := rfl
@[simp] theorem touchCluster_mem (s : State) (c : Nat) : (touchCluster s c).mem = s.mem := rfl
@[simp] theorem touchCluster_cr (s : State) (c : Nat) : (touchCluster s c).cr = s.cr := rfl
@[simp] theorem touchCluster_cores (s : State) (c : Nat) : (touchCluster s c).cores = s.cores := rfl
@[simp] theorem touchCluster_blink (s : State) (c : Nat) : (touchCluster s c).blink = s.blink := rfl
@[simp] theorem touchCluster_trn (s : State) (c : Nat) : (touchCluster s c).trn = s.trn := rfl
@[simp] theorem touchCluster_mr (s : State) (c : Nat) : (touchCluster s c).mr = s.mr := rfl
@[simp] theorem touchCluster_ccm (s : State) (c : Nat) : (touchCluster s c).ccm = s.ccm := rfl
@[simp] theorem touchCluster_muu (s : State) (c : Nat) : (touchCluster s c).muu = s.muu := rfl
@[simp] theorem touchCluster_muuRun (s : State) (c : Nat) : (touchCluster s c).muuRun = s.muuRun := rfl
@[simp] theorem touchCluster_trnRun (s : State) (c : Nat) : (touchCluster s c).trnRun = s.trnRun := rfl
@[simp] theorem touchCluster_cmd (s : State) (c : Nat) : (touchCluster s c).cmd = s.cmd := rfl
@[simp] theorem touchCluster_hif (s : State) (c : Nat) : (touchCluster s c).hif = s.hif := rfl
@[simp] theorem touchCluster_sec (s : State) (c : Nat) : (touchCluster s c).sec = s.sec := rfl
@[simp] theorem touchCluster_fw (s : State) (c : Nat) : (touchCluster s c).fw = s.fw := rfl
@[simp] theorem touchCluster_err (s : State) (c : Nat) : (touchCluster s c).err = s.err := rfl
@[simp] theorem touchCluster_rst (s : State) (c : Nat) : (touchCluster s c).rst = s.rst := rfl
@[simp] theorem touchCluster_fab (s : State) (c : Nat) : (touchCluster s c).fab = s.fab := rfl
@[simp] theorem touchCluster_coll (s : State) (c : Nat) : (touchCluster s c).coll = s.coll := rfl
@[simp] theorem touchCluster_pending (s : State) (c : Nat) : (touchCluster s c).pending = s.pending := rfl

/-! ## emit -/

@[simp] theorem emit_nowNs (s : State) (o : Output) : (emit s o).nowNs = s.nowNs := rfl
@[simp] theorem emit_freeCount (s : State) (o : Output) : (emit s o).freeCount = s.freeCount := rfl
@[simp] theorem emit_mem (s : State) (o : Output) : (emit s o).mem = s.mem := rfl
@[simp] theorem emit_cr (s : State) (o : Output) : (emit s o).cr = s.cr := rfl
@[simp] theorem emit_cores (s : State) (o : Output) : (emit s o).cores = s.cores := rfl
@[simp] theorem emit_blink (s : State) (o : Output) : (emit s o).blink = s.blink := rfl
@[simp] theorem emit_trn (s : State) (o : Output) : (emit s o).trn = s.trn := rfl
@[simp] theorem emit_mr (s : State) (o : Output) : (emit s o).mr = s.mr := rfl
@[simp] theorem emit_ccm (s : State) (o : Output) : (emit s o).ccm = s.ccm := rfl
@[simp] theorem emit_muu (s : State) (o : Output) : (emit s o).muu = s.muu := rfl
@[simp] theorem emit_muuRun (s : State) (o : Output) : (emit s o).muuRun = s.muuRun := rfl
@[simp] theorem emit_trnRun (s : State) (o : Output) : (emit s o).trnRun = s.trnRun := rfl
@[simp] theorem emit_cmd (s : State) (o : Output) : (emit s o).cmd = s.cmd := rfl
@[simp] theorem emit_hif (s : State) (o : Output) : (emit s o).hif = s.hif := rfl
@[simp] theorem emit_sec (s : State) (o : Output) : (emit s o).sec = s.sec := rfl
@[simp] theorem emit_fw (s : State) (o : Output) : (emit s o).fw = s.fw := rfl
@[simp] theorem emit_err (s : State) (o : Output) : (emit s o).err = s.err := rfl
@[simp] theorem emit_pwr (s : State) (o : Output) : (emit s o).pwr = s.pwr := rfl
@[simp] theorem emit_rst (s : State) (o : Output) : (emit s o).rst = s.rst := rfl
@[simp] theorem emit_fab (s : State) (o : Output) : (emit s o).fab = s.fab := rfl
@[simp] theorem emit_coll (s : State) (o : Output) : (emit s o).coll = s.coll := rfl
@[simp] theorem emit_pending (s : State) (o : Output) : (emit s o).pending = s.pending := rfl

/-! ## modStream -/

@[simp] theorem modStream_nowNs (s : State) (id : Nat) (f : StreamRun → StreamRun) : (modStream s id f).nowNs = s.nowNs := rfl
@[simp] theorem modStream_freeCount (s : State) (id : Nat) (f : StreamRun → StreamRun) : (modStream s id f).freeCount = s.freeCount := rfl
@[simp] theorem modStream_out (s : State) (id : Nat) (f : StreamRun → StreamRun) : (modStream s id f).out = s.out := rfl
@[simp] theorem modStream_mem (s : State) (id : Nat) (f : StreamRun → StreamRun) : (modStream s id f).mem = s.mem := rfl
@[simp] theorem modStream_cr (s : State) (id : Nat) (f : StreamRun → StreamRun) : (modStream s id f).cr = s.cr := rfl
@[simp] theorem modStream_cores (s : State) (id : Nat) (f : StreamRun → StreamRun) : (modStream s id f).cores = s.cores := rfl
@[simp] theorem modStream_blink (s : State) (id : Nat) (f : StreamRun → StreamRun) : (modStream s id f).blink = s.blink := rfl
@[simp] theorem modStream_trn (s : State) (id : Nat) (f : StreamRun → StreamRun) : (modStream s id f).trn = s.trn := rfl
@[simp] theorem modStream_mr (s : State) (id : Nat) (f : StreamRun → StreamRun) : (modStream s id f).mr = s.mr := rfl
@[simp] theorem modStream_ccm (s : State) (id : Nat) (f : StreamRun → StreamRun) : (modStream s id f).ccm = s.ccm := rfl
@[simp] theorem modStream_muu (s : State) (id : Nat) (f : StreamRun → StreamRun) : (modStream s id f).muu = s.muu := rfl
@[simp] theorem modStream_muuRun (s : State) (id : Nat) (f : StreamRun → StreamRun) : (modStream s id f).muuRun = s.muuRun := rfl
@[simp] theorem modStream_trnRun (s : State) (id : Nat) (f : StreamRun → StreamRun) : (modStream s id f).trnRun = s.trnRun := rfl
@[simp] theorem modStream_hif (s : State) (id : Nat) (f : StreamRun → StreamRun) : (modStream s id f).hif = s.hif := rfl
@[simp] theorem modStream_sec (s : State) (id : Nat) (f : StreamRun → StreamRun) : (modStream s id f).sec = s.sec := rfl
@[simp] theorem modStream_fw (s : State) (id : Nat) (f : StreamRun → StreamRun) : (modStream s id f).fw = s.fw := rfl
@[simp] theorem modStream_err (s : State) (id : Nat) (f : StreamRun → StreamRun) : (modStream s id f).err = s.err := rfl
@[simp] theorem modStream_pwr (s : State) (id : Nat) (f : StreamRun → StreamRun) : (modStream s id f).pwr = s.pwr := rfl
@[simp] theorem modStream_rst (s : State) (id : Nat) (f : StreamRun → StreamRun) : (modStream s id f).rst = s.rst := rfl
@[simp] theorem modStream_fab (s : State) (id : Nat) (f : StreamRun → StreamRun) : (modStream s id f).fab = s.fab := rfl
@[simp] theorem modStream_coll (s : State) (id : Nat) (f : StreamRun → StreamRun) : (modStream s id f).coll = s.coll := rfl
@[simp] theorem modStream_pending (s : State) (id : Nat) (f : StreamRun → StreamRun) : (modStream s id f).pending = s.pending := rfl

/-! ## setCounter -/

@[simp] theorem setCounter_nowNs (s : State) (c : Nat) (v : BitVec 32) : (setCounter s c v).nowNs = s.nowNs := rfl
@[simp] theorem setCounter_freeCount (s : State) (c : Nat) (v : BitVec 32) : (setCounter s c v).freeCount = s.freeCount := rfl
@[simp] theorem setCounter_out (s : State) (c : Nat) (v : BitVec 32) : (setCounter s c v).out = s.out := rfl
@[simp] theorem setCounter_mem (s : State) (c : Nat) (v : BitVec 32) : (setCounter s c v).mem = s.mem := rfl
@[simp] theorem setCounter_cr (s : State) (c : Nat) (v : BitVec 32) : (setCounter s c v).cr = s.cr := rfl
@[simp] theorem setCounter_cores (s : State) (c : Nat) (v : BitVec 32) : (setCounter s c v).cores = s.cores := rfl
@[simp] theorem setCounter_blink (s : State) (c : Nat) (v : BitVec 32) : (setCounter s c v).blink = s.blink := rfl
@[simp] theorem setCounter_trn (s : State) (c : Nat) (v : BitVec 32) : (setCounter s c v).trn = s.trn := rfl
@[simp] theorem setCounter_mr (s : State) (c : Nat) (v : BitVec 32) : (setCounter s c v).mr = s.mr := rfl
@[simp] theorem setCounter_ccm (s : State) (c : Nat) (v : BitVec 32) : (setCounter s c v).ccm = s.ccm := rfl
@[simp] theorem setCounter_muu (s : State) (c : Nat) (v : BitVec 32) : (setCounter s c v).muu = s.muu := rfl
@[simp] theorem setCounter_muuRun (s : State) (c : Nat) (v : BitVec 32) : (setCounter s c v).muuRun = s.muuRun := rfl
@[simp] theorem setCounter_trnRun (s : State) (c : Nat) (v : BitVec 32) : (setCounter s c v).trnRun = s.trnRun := rfl
@[simp] theorem setCounter_hif (s : State) (c : Nat) (v : BitVec 32) : (setCounter s c v).hif = s.hif := rfl
@[simp] theorem setCounter_sec (s : State) (c : Nat) (v : BitVec 32) : (setCounter s c v).sec = s.sec := rfl
@[simp] theorem setCounter_fw (s : State) (c : Nat) (v : BitVec 32) : (setCounter s c v).fw = s.fw := rfl
@[simp] theorem setCounter_err (s : State) (c : Nat) (v : BitVec 32) : (setCounter s c v).err = s.err := rfl
@[simp] theorem setCounter_pwr (s : State) (c : Nat) (v : BitVec 32) : (setCounter s c v).pwr = s.pwr := rfl
@[simp] theorem setCounter_rst (s : State) (c : Nat) (v : BitVec 32) : (setCounter s c v).rst = s.rst := rfl
@[simp] theorem setCounter_fab (s : State) (c : Nat) (v : BitVec 32) : (setCounter s c v).fab = s.fab := rfl
@[simp] theorem setCounter_coll (s : State) (c : Nat) (v : BitVec 32) : (setCounter s c v).coll = s.coll := rfl
@[simp] theorem setCounter_pending (s : State) (c : Nat) (v : BitVec 32) : (setCounter s c v).pending = s.pending := rfl

/-! ## counterSeen -/

@[simp] theorem counterSeen_nowNs (s : State) (c : Nat) : (counterSeen s c).nowNs = s.nowNs := rfl
@[simp] theorem counterSeen_freeCount (s : State) (c : Nat) : (counterSeen s c).freeCount = s.freeCount := rfl
@[simp] theorem counterSeen_out (s : State) (c : Nat) : (counterSeen s c).out = s.out := rfl
@[simp] theorem counterSeen_mem (s : State) (c : Nat) : (counterSeen s c).mem = s.mem := rfl
@[simp] theorem counterSeen_cr (s : State) (c : Nat) : (counterSeen s c).cr = s.cr := rfl
@[simp] theorem counterSeen_cores (s : State) (c : Nat) : (counterSeen s c).cores = s.cores := rfl
@[simp] theorem counterSeen_blink (s : State) (c : Nat) : (counterSeen s c).blink = s.blink := rfl
@[simp] theorem counterSeen_trn (s : State) (c : Nat) : (counterSeen s c).trn = s.trn := rfl
@[simp] theorem counterSeen_mr (s : State) (c : Nat) : (counterSeen s c).mr = s.mr := rfl
@[simp] theorem counterSeen_ccm (s : State) (c : Nat) : (counterSeen s c).ccm = s.ccm := rfl
@[simp] theorem counterSeen_muu (s : State) (c : Nat) : (counterSeen s c).muu = s.muu := rfl
@[simp] theorem counterSeen_muuRun (s : State) (c : Nat) : (counterSeen s c).muuRun = s.muuRun := rfl
@[simp] theorem counterSeen_trnRun (s : State) (c : Nat) : (counterSeen s c).trnRun = s.trnRun := rfl
@[simp] theorem counterSeen_hif (s : State) (c : Nat) : (counterSeen s c).hif = s.hif := rfl
@[simp] theorem counterSeen_sec (s : State) (c : Nat) : (counterSeen s c).sec = s.sec := rfl
@[simp] theorem counterSeen_fw (s : State) (c : Nat) : (counterSeen s c).fw = s.fw := rfl
@[simp] theorem counterSeen_err (s : State) (c : Nat) : (counterSeen s c).err = s.err := rfl
@[simp] theorem counterSeen_pwr (s : State) (c : Nat) : (counterSeen s c).pwr = s.pwr := rfl
@[simp] theorem counterSeen_rst (s : State) (c : Nat) : (counterSeen s c).rst = s.rst := rfl
@[simp] theorem counterSeen_fab (s : State) (c : Nat) : (counterSeen s c).fab = s.fab := rfl
@[simp] theorem counterSeen_pending (s : State) (c : Nat) : (counterSeen s c).pending = s.pending := rfl

/-! ## setQueue -/

@[simp] theorem setQueue_nowNs (s : State) (q : Nat) (x : Queue) : (setQueue s q x).nowNs = s.nowNs := rfl
@[simp] theorem setQueue_freeCount (s : State) (q : Nat) (x : Queue) : (setQueue s q x).freeCount = s.freeCount := rfl
@[simp] theorem setQueue_out (s : State) (q : Nat) (x : Queue) : (setQueue s q x).out = s.out := rfl
@[simp] theorem setQueue_mem (s : State) (q : Nat) (x : Queue) : (setQueue s q x).mem = s.mem := rfl
@[simp] theorem setQueue_cr (s : State) (q : Nat) (x : Queue) : (setQueue s q x).cr = s.cr := rfl
@[simp] theorem setQueue_cores (s : State) (q : Nat) (x : Queue) : (setQueue s q x).cores = s.cores := rfl
@[simp] theorem setQueue_blink (s : State) (q : Nat) (x : Queue) : (setQueue s q x).blink = s.blink := rfl
@[simp] theorem setQueue_trn (s : State) (q : Nat) (x : Queue) : (setQueue s q x).trn = s.trn := rfl
@[simp] theorem setQueue_mr (s : State) (q : Nat) (x : Queue) : (setQueue s q x).mr = s.mr := rfl
@[simp] theorem setQueue_ccm (s : State) (q : Nat) (x : Queue) : (setQueue s q x).ccm = s.ccm := rfl
@[simp] theorem setQueue_muu (s : State) (q : Nat) (x : Queue) : (setQueue s q x).muu = s.muu := rfl
@[simp] theorem setQueue_muuRun (s : State) (q : Nat) (x : Queue) : (setQueue s q x).muuRun = s.muuRun := rfl
@[simp] theorem setQueue_trnRun (s : State) (q : Nat) (x : Queue) : (setQueue s q x).trnRun = s.trnRun := rfl
@[simp] theorem setQueue_hif (s : State) (q : Nat) (x : Queue) : (setQueue s q x).hif = s.hif := rfl
@[simp] theorem setQueue_sec (s : State) (q : Nat) (x : Queue) : (setQueue s q x).sec = s.sec := rfl
@[simp] theorem setQueue_fw (s : State) (q : Nat) (x : Queue) : (setQueue s q x).fw = s.fw := rfl
@[simp] theorem setQueue_err (s : State) (q : Nat) (x : Queue) : (setQueue s q x).err = s.err := rfl
@[simp] theorem setQueue_pwr (s : State) (q : Nat) (x : Queue) : (setQueue s q x).pwr = s.pwr := rfl
@[simp] theorem setQueue_rst (s : State) (q : Nat) (x : Queue) : (setQueue s q x).rst = s.rst := rfl
@[simp] theorem setQueue_fab (s : State) (q : Nat) (x : Queue) : (setQueue s q x).fab = s.fab := rfl
@[simp] theorem setQueue_coll (s : State) (q : Nat) (x : Queue) : (setQueue s q x).coll = s.coll := rfl
@[simp] theorem setQueue_pending (s : State) (q : Nat) (x : Queue) : (setQueue s q x).pending = s.pending := rfl

/-! ## setFab -/

@[simp] theorem setFab_nowNs (s : State) (p : Nat) (x : FabPortState) : (setFab s p x).nowNs = s.nowNs := rfl
@[simp] theorem setFab_freeCount (s : State) (p : Nat) (x : FabPortState) : (setFab s p x).freeCount = s.freeCount := rfl
@[simp] theorem setFab_out (s : State) (p : Nat) (x : FabPortState) : (setFab s p x).out = s.out := rfl
@[simp] theorem setFab_mem (s : State) (p : Nat) (x : FabPortState) : (setFab s p x).mem = s.mem := rfl
@[simp] theorem setFab_cr (s : State) (p : Nat) (x : FabPortState) : (setFab s p x).cr = s.cr := rfl
@[simp] theorem setFab_cores (s : State) (p : Nat) (x : FabPortState) : (setFab s p x).cores = s.cores := rfl
@[simp] theorem setFab_blink (s : State) (p : Nat) (x : FabPortState) : (setFab s p x).blink = s.blink := rfl
@[simp] theorem setFab_trn (s : State) (p : Nat) (x : FabPortState) : (setFab s p x).trn = s.trn := rfl
@[simp] theorem setFab_mr (s : State) (p : Nat) (x : FabPortState) : (setFab s p x).mr = s.mr := rfl
@[simp] theorem setFab_ccm (s : State) (p : Nat) (x : FabPortState) : (setFab s p x).ccm = s.ccm := rfl
@[simp] theorem setFab_muu (s : State) (p : Nat) (x : FabPortState) : (setFab s p x).muu = s.muu := rfl
@[simp] theorem setFab_muuRun (s : State) (p : Nat) (x : FabPortState) : (setFab s p x).muuRun = s.muuRun := rfl
@[simp] theorem setFab_trnRun (s : State) (p : Nat) (x : FabPortState) : (setFab s p x).trnRun = s.trnRun := rfl
@[simp] theorem setFab_cmd (s : State) (p : Nat) (x : FabPortState) : (setFab s p x).cmd = s.cmd := rfl
@[simp] theorem setFab_hif (s : State) (p : Nat) (x : FabPortState) : (setFab s p x).hif = s.hif := rfl
@[simp] theorem setFab_sec (s : State) (p : Nat) (x : FabPortState) : (setFab s p x).sec = s.sec := rfl
@[simp] theorem setFab_fw (s : State) (p : Nat) (x : FabPortState) : (setFab s p x).fw = s.fw := rfl
@[simp] theorem setFab_err (s : State) (p : Nat) (x : FabPortState) : (setFab s p x).err = s.err := rfl
@[simp] theorem setFab_pwr (s : State) (p : Nat) (x : FabPortState) : (setFab s p x).pwr = s.pwr := rfl
@[simp] theorem setFab_rst (s : State) (p : Nat) (x : FabPortState) : (setFab s p x).rst = s.rst := rfl
@[simp] theorem setFab_coll (s : State) (p : Nat) (x : FabPortState) : (setFab s p x).coll = s.coll := rfl
@[simp] theorem setFab_pending (s : State) (p : Nat) (x : FabPortState) : (setFab s p x).pending = s.pending := rfl

/-! ## setSide -/

@[simp] theorem setSide_nowNs (s : State) (i : Nat) (x : SideIn) : (setSide s i x).nowNs = s.nowNs := rfl
@[simp] theorem setSide_freeCount (s : State) (i : Nat) (x : SideIn) : (setSide s i x).freeCount = s.freeCount := rfl
@[simp] theorem setSide_out (s : State) (i : Nat) (x : SideIn) : (setSide s i x).out = s.out := rfl
@[simp] theorem setSide_mem (s : State) (i : Nat) (x : SideIn) : (setSide s i x).mem = s.mem := rfl
@[simp] theorem setSide_cr (s : State) (i : Nat) (x : SideIn) : (setSide s i x).cr = s.cr := rfl
@[simp] theorem setSide_cores (s : State) (i : Nat) (x : SideIn) : (setSide s i x).cores = s.cores := rfl
@[simp] theorem setSide_blink (s : State) (i : Nat) (x : SideIn) : (setSide s i x).blink = s.blink := rfl
@[simp] theorem setSide_trn (s : State) (i : Nat) (x : SideIn) : (setSide s i x).trn = s.trn := rfl
@[simp] theorem setSide_mr (s : State) (i : Nat) (x : SideIn) : (setSide s i x).mr = s.mr := rfl
@[simp] theorem setSide_ccm (s : State) (i : Nat) (x : SideIn) : (setSide s i x).ccm = s.ccm := rfl
@[simp] theorem setSide_muu (s : State) (i : Nat) (x : SideIn) : (setSide s i x).muu = s.muu := rfl
@[simp] theorem setSide_muuRun (s : State) (i : Nat) (x : SideIn) : (setSide s i x).muuRun = s.muuRun := rfl
@[simp] theorem setSide_trnRun (s : State) (i : Nat) (x : SideIn) : (setSide s i x).trnRun = s.trnRun := rfl
@[simp] theorem setSide_cmd (s : State) (i : Nat) (x : SideIn) : (setSide s i x).cmd = s.cmd := rfl
@[simp] theorem setSide_hif (s : State) (i : Nat) (x : SideIn) : (setSide s i x).hif = s.hif := rfl
@[simp] theorem setSide_sec (s : State) (i : Nat) (x : SideIn) : (setSide s i x).sec = s.sec := rfl
@[simp] theorem setSide_fw (s : State) (i : Nat) (x : SideIn) : (setSide s i x).fw = s.fw := rfl
@[simp] theorem setSide_err (s : State) (i : Nat) (x : SideIn) : (setSide s i x).err = s.err := rfl
@[simp] theorem setSide_rst (s : State) (i : Nat) (x : SideIn) : (setSide s i x).rst = s.rst := rfl
@[simp] theorem setSide_fab (s : State) (i : Nat) (x : SideIn) : (setSide s i x).fab = s.fab := rfl
@[simp] theorem setSide_coll (s : State) (i : Nat) (x : SideIn) : (setSide s i x).coll = s.coll := rfl
@[simp] theorem setSide_pending (s : State) (i : Nat) (x : SideIn) : (setSide s i x).pending = s.pending := rfl

/-! ## setWear -/

@[simp] theorem setWear_nowNs (s : State) (d : Nat) (w : DieWear) : (setWear s d w).nowNs = s.nowNs := rfl
@[simp] theorem setWear_freeCount (s : State) (d : Nat) (w : DieWear) : (setWear s d w).freeCount = s.freeCount := rfl
@[simp] theorem setWear_out (s : State) (d : Nat) (w : DieWear) : (setWear s d w).out = s.out := rfl
@[simp] theorem setWear_mem (s : State) (d : Nat) (w : DieWear) : (setWear s d w).mem = s.mem := rfl
@[simp] theorem setWear_cr (s : State) (d : Nat) (w : DieWear) : (setWear s d w).cr = s.cr := rfl
@[simp] theorem setWear_cores (s : State) (d : Nat) (w : DieWear) : (setWear s d w).cores = s.cores := rfl
@[simp] theorem setWear_blink (s : State) (d : Nat) (w : DieWear) : (setWear s d w).blink = s.blink := rfl
@[simp] theorem setWear_trn (s : State) (d : Nat) (w : DieWear) : (setWear s d w).trn = s.trn := rfl
@[simp] theorem setWear_mr (s : State) (d : Nat) (w : DieWear) : (setWear s d w).mr = s.mr := rfl
@[simp] theorem setWear_ccm (s : State) (d : Nat) (w : DieWear) : (setWear s d w).ccm = s.ccm := rfl
@[simp] theorem setWear_muu (s : State) (d : Nat) (w : DieWear) : (setWear s d w).muu = s.muu := rfl
@[simp] theorem setWear_muuRun (s : State) (d : Nat) (w : DieWear) : (setWear s d w).muuRun = s.muuRun := rfl
@[simp] theorem setWear_trnRun (s : State) (d : Nat) (w : DieWear) : (setWear s d w).trnRun = s.trnRun := rfl
@[simp] theorem setWear_cmd (s : State) (d : Nat) (w : DieWear) : (setWear s d w).cmd = s.cmd := rfl
@[simp] theorem setWear_hif (s : State) (d : Nat) (w : DieWear) : (setWear s d w).hif = s.hif := rfl
@[simp] theorem setWear_sec (s : State) (d : Nat) (w : DieWear) : (setWear s d w).sec = s.sec := rfl
@[simp] theorem setWear_fw (s : State) (d : Nat) (w : DieWear) : (setWear s d w).fw = s.fw := rfl
@[simp] theorem setWear_err (s : State) (d : Nat) (w : DieWear) : (setWear s d w).err = s.err := rfl
@[simp] theorem setWear_rst (s : State) (d : Nat) (w : DieWear) : (setWear s d w).rst = s.rst := rfl
@[simp] theorem setWear_fab (s : State) (d : Nat) (w : DieWear) : (setWear s d w).fab = s.fab := rfl
@[simp] theorem setWear_coll (s : State) (d : Nat) (w : DieWear) : (setWear s d w).coll = s.coll := rfl
@[simp] theorem setWear_pending (s : State) (d : Nat) (w : DieWear) : (setWear s d w).pending = s.pending := rfl

/-! ## modColl -/

@[simp] theorem modColl_nowNs (s : State) (id : Nat) (f : Coll → Coll) : (modColl s id f).nowNs = s.nowNs := rfl
@[simp] theorem modColl_freeCount (s : State) (id : Nat) (f : Coll → Coll) : (modColl s id f).freeCount = s.freeCount := rfl
@[simp] theorem modColl_out (s : State) (id : Nat) (f : Coll → Coll) : (modColl s id f).out = s.out := rfl
@[simp] theorem modColl_mem (s : State) (id : Nat) (f : Coll → Coll) : (modColl s id f).mem = s.mem := rfl
@[simp] theorem modColl_cr (s : State) (id : Nat) (f : Coll → Coll) : (modColl s id f).cr = s.cr := rfl
@[simp] theorem modColl_cores (s : State) (id : Nat) (f : Coll → Coll) : (modColl s id f).cores = s.cores := rfl
@[simp] theorem modColl_blink (s : State) (id : Nat) (f : Coll → Coll) : (modColl s id f).blink = s.blink := rfl
@[simp] theorem modColl_trn (s : State) (id : Nat) (f : Coll → Coll) : (modColl s id f).trn = s.trn := rfl
@[simp] theorem modColl_mr (s : State) (id : Nat) (f : Coll → Coll) : (modColl s id f).mr = s.mr := rfl
@[simp] theorem modColl_ccm (s : State) (id : Nat) (f : Coll → Coll) : (modColl s id f).ccm = s.ccm := rfl
@[simp] theorem modColl_muu (s : State) (id : Nat) (f : Coll → Coll) : (modColl s id f).muu = s.muu := rfl
@[simp] theorem modColl_muuRun (s : State) (id : Nat) (f : Coll → Coll) : (modColl s id f).muuRun = s.muuRun := rfl
@[simp] theorem modColl_trnRun (s : State) (id : Nat) (f : Coll → Coll) : (modColl s id f).trnRun = s.trnRun := rfl
@[simp] theorem modColl_cmd (s : State) (id : Nat) (f : Coll → Coll) : (modColl s id f).cmd = s.cmd := rfl
@[simp] theorem modColl_hif (s : State) (id : Nat) (f : Coll → Coll) : (modColl s id f).hif = s.hif := rfl
@[simp] theorem modColl_sec (s : State) (id : Nat) (f : Coll → Coll) : (modColl s id f).sec = s.sec := rfl
@[simp] theorem modColl_fw (s : State) (id : Nat) (f : Coll → Coll) : (modColl s id f).fw = s.fw := rfl
@[simp] theorem modColl_err (s : State) (id : Nat) (f : Coll → Coll) : (modColl s id f).err = s.err := rfl
@[simp] theorem modColl_pwr (s : State) (id : Nat) (f : Coll → Coll) : (modColl s id f).pwr = s.pwr := rfl
@[simp] theorem modColl_rst (s : State) (id : Nat) (f : Coll → Coll) : (modColl s id f).rst = s.rst := rfl
@[simp] theorem modColl_fab (s : State) (id : Nat) (f : Coll → Coll) : (modColl s id f).fab = s.fab := rfl
@[simp] theorem modColl_pending (s : State) (id : Nat) (f : Coll → Coll) : (modColl s id f).pending = s.pending := rfl

/-! ## setCeil -/

@[simp] theorem setCeil_nowNs (s : State) (c : CeilState) : (setCeil s c).nowNs = s.nowNs := rfl
@[simp] theorem setCeil_freeCount (s : State) (c : CeilState) : (setCeil s c).freeCount = s.freeCount := rfl
@[simp] theorem setCeil_out (s : State) (c : CeilState) : (setCeil s c).out = s.out := rfl
@[simp] theorem setCeil_mem (s : State) (c : CeilState) : (setCeil s c).mem = s.mem := rfl
@[simp] theorem setCeil_cr (s : State) (c : CeilState) : (setCeil s c).cr = s.cr := rfl
@[simp] theorem setCeil_cores (s : State) (c : CeilState) : (setCeil s c).cores = s.cores := rfl
@[simp] theorem setCeil_blink (s : State) (c : CeilState) : (setCeil s c).blink = s.blink := rfl
@[simp] theorem setCeil_trn (s : State) (c : CeilState) : (setCeil s c).trn = s.trn := rfl
@[simp] theorem setCeil_mr (s : State) (c : CeilState) : (setCeil s c).mr = s.mr := rfl
@[simp] theorem setCeil_ccm (s : State) (c : CeilState) : (setCeil s c).ccm = s.ccm := rfl
@[simp] theorem setCeil_muu (s : State) (c : CeilState) : (setCeil s c).muu = s.muu := rfl
@[simp] theorem setCeil_muuRun (s : State) (c : CeilState) : (setCeil s c).muuRun = s.muuRun := rfl
@[simp] theorem setCeil_trnRun (s : State) (c : CeilState) : (setCeil s c).trnRun = s.trnRun := rfl
@[simp] theorem setCeil_cmd (s : State) (c : CeilState) : (setCeil s c).cmd = s.cmd := rfl
@[simp] theorem setCeil_hif (s : State) (c : CeilState) : (setCeil s c).hif = s.hif := rfl
@[simp] theorem setCeil_sec (s : State) (c : CeilState) : (setCeil s c).sec = s.sec := rfl
@[simp] theorem setCeil_fw (s : State) (c : CeilState) : (setCeil s c).fw = s.fw := rfl
@[simp] theorem setCeil_err (s : State) (c : CeilState) : (setCeil s c).err = s.err := rfl
@[simp] theorem setCeil_rst (s : State) (c : CeilState) : (setCeil s c).rst = s.rst := rfl
@[simp] theorem setCeil_fab (s : State) (c : CeilState) : (setCeil s c).fab = s.fab := rfl
@[simp] theorem setCeil_coll (s : State) (c : CeilState) : (setCeil s c).coll = s.coll := rfl
@[simp] theorem setCeil_pending (s : State) (c : CeilState) : (setCeil s c).pending = s.pending := rfl

/-! ## setSlot -/

@[simp] theorem setSlot_nowNs (s : State) (slot : Nat) (k : Option Bytes) : (setSlot s slot k).nowNs = s.nowNs := rfl
@[simp] theorem setSlot_freeCount (s : State) (slot : Nat) (k : Option Bytes) : (setSlot s slot k).freeCount = s.freeCount := rfl
@[simp] theorem setSlot_out (s : State) (slot : Nat) (k : Option Bytes) : (setSlot s slot k).out = s.out := rfl
@[simp] theorem setSlot_mem (s : State) (slot : Nat) (k : Option Bytes) : (setSlot s slot k).mem = s.mem := rfl
@[simp] theorem setSlot_cr (s : State) (slot : Nat) (k : Option Bytes) : (setSlot s slot k).cr = s.cr := rfl
@[simp] theorem setSlot_cores (s : State) (slot : Nat) (k : Option Bytes) : (setSlot s slot k).cores = s.cores := rfl
@[simp] theorem setSlot_blink (s : State) (slot : Nat) (k : Option Bytes) : (setSlot s slot k).blink = s.blink := rfl
@[simp] theorem setSlot_trn (s : State) (slot : Nat) (k : Option Bytes) : (setSlot s slot k).trn = s.trn := rfl
@[simp] theorem setSlot_mr (s : State) (slot : Nat) (k : Option Bytes) : (setSlot s slot k).mr = s.mr := rfl
@[simp] theorem setSlot_ccm (s : State) (slot : Nat) (k : Option Bytes) : (setSlot s slot k).ccm = s.ccm := rfl
@[simp] theorem setSlot_muu (s : State) (slot : Nat) (k : Option Bytes) : (setSlot s slot k).muu = s.muu := rfl
@[simp] theorem setSlot_muuRun (s : State) (slot : Nat) (k : Option Bytes) : (setSlot s slot k).muuRun = s.muuRun := rfl
@[simp] theorem setSlot_trnRun (s : State) (slot : Nat) (k : Option Bytes) : (setSlot s slot k).trnRun = s.trnRun := rfl
@[simp] theorem setSlot_cmd (s : State) (slot : Nat) (k : Option Bytes) : (setSlot s slot k).cmd = s.cmd := rfl
@[simp] theorem setSlot_hif (s : State) (slot : Nat) (k : Option Bytes) : (setSlot s slot k).hif = s.hif := rfl
@[simp] theorem setSlot_fw (s : State) (slot : Nat) (k : Option Bytes) : (setSlot s slot k).fw = s.fw := rfl
@[simp] theorem setSlot_err (s : State) (slot : Nat) (k : Option Bytes) : (setSlot s slot k).err = s.err := rfl
@[simp] theorem setSlot_pwr (s : State) (slot : Nat) (k : Option Bytes) : (setSlot s slot k).pwr = s.pwr := rfl
@[simp] theorem setSlot_rst (s : State) (slot : Nat) (k : Option Bytes) : (setSlot s slot k).rst = s.rst := rfl
@[simp] theorem setSlot_fab (s : State) (slot : Nat) (k : Option Bytes) : (setSlot s slot k).fab = s.fab := rfl
@[simp] theorem setSlot_coll (s : State) (slot : Nat) (k : Option Bytes) : (setSlot s slot k).coll = s.coll := rfl
@[simp] theorem setSlot_pending (s : State) (slot : Nat) (k : Option Bytes) : (setSlot s slot k).pending = s.pending := rfl

/-! ## setSlotSeq -/

@[simp] theorem setSlotSeq_nowNs (s : State) (slot n : Nat) : (setSlotSeq s slot n).nowNs = s.nowNs := rfl
@[simp] theorem setSlotSeq_freeCount (s : State) (slot n : Nat) : (setSlotSeq s slot n).freeCount = s.freeCount := rfl
@[simp] theorem setSlotSeq_out (s : State) (slot n : Nat) : (setSlotSeq s slot n).out = s.out := rfl
@[simp] theorem setSlotSeq_mem (s : State) (slot n : Nat) : (setSlotSeq s slot n).mem = s.mem := rfl
@[simp] theorem setSlotSeq_cr (s : State) (slot n : Nat) : (setSlotSeq s slot n).cr = s.cr := rfl
@[simp] theorem setSlotSeq_cores (s : State) (slot n : Nat) : (setSlotSeq s slot n).cores = s.cores := rfl
@[simp] theorem setSlotSeq_blink (s : State) (slot n : Nat) : (setSlotSeq s slot n).blink = s.blink := rfl
@[simp] theorem setSlotSeq_trn (s : State) (slot n : Nat) : (setSlotSeq s slot n).trn = s.trn := rfl
@[simp] theorem setSlotSeq_mr (s : State) (slot n : Nat) : (setSlotSeq s slot n).mr = s.mr := rfl
@[simp] theorem setSlotSeq_ccm (s : State) (slot n : Nat) : (setSlotSeq s slot n).ccm = s.ccm := rfl
@[simp] theorem setSlotSeq_muu (s : State) (slot n : Nat) : (setSlotSeq s slot n).muu = s.muu := rfl
@[simp] theorem setSlotSeq_muuRun (s : State) (slot n : Nat) : (setSlotSeq s slot n).muuRun = s.muuRun := rfl
@[simp] theorem setSlotSeq_trnRun (s : State) (slot n : Nat) : (setSlotSeq s slot n).trnRun = s.trnRun := rfl
@[simp] theorem setSlotSeq_cmd (s : State) (slot n : Nat) : (setSlotSeq s slot n).cmd = s.cmd := rfl
@[simp] theorem setSlotSeq_hif (s : State) (slot n : Nat) : (setSlotSeq s slot n).hif = s.hif := rfl
@[simp] theorem setSlotSeq_fw (s : State) (slot n : Nat) : (setSlotSeq s slot n).fw = s.fw := rfl
@[simp] theorem setSlotSeq_err (s : State) (slot n : Nat) : (setSlotSeq s slot n).err = s.err := rfl
@[simp] theorem setSlotSeq_pwr (s : State) (slot n : Nat) : (setSlotSeq s slot n).pwr = s.pwr := rfl
@[simp] theorem setSlotSeq_rst (s : State) (slot n : Nat) : (setSlotSeq s slot n).rst = s.rst := rfl
@[simp] theorem setSlotSeq_fab (s : State) (slot n : Nat) : (setSlotSeq s slot n).fab = s.fab := rfl
@[simp] theorem setSlotSeq_coll (s : State) (slot n : Nat) : (setSlotSeq s slot n).coll = s.coll := rfl
@[simp] theorem setSlotSeq_pending (s : State) (slot n : Nat) : (setSlotSeq s slot n).pending = s.pending := rfl

/-! ## markSlots -/

@[simp] theorem markSlots_nowNs (s : State) (first k : Nat) (b : Bool) : (markSlots s first k b).nowNs = s.nowNs := rfl
@[simp] theorem markSlots_freeCount (s : State) (first k : Nat) (b : Bool) : (markSlots s first k b).freeCount = s.freeCount := rfl
@[simp] theorem markSlots_out (s : State) (first k : Nat) (b : Bool) : (markSlots s first k b).out = s.out := rfl
@[simp] theorem markSlots_mem (s : State) (first k : Nat) (b : Bool) : (markSlots s first k b).mem = s.mem := rfl
@[simp] theorem markSlots_cr (s : State) (first k : Nat) (b : Bool) : (markSlots s first k b).cr = s.cr := rfl
@[simp] theorem markSlots_cores (s : State) (first k : Nat) (b : Bool) : (markSlots s first k b).cores = s.cores := rfl
@[simp] theorem markSlots_blink (s : State) (first k : Nat) (b : Bool) : (markSlots s first k b).blink = s.blink := rfl
@[simp] theorem markSlots_trn (s : State) (first k : Nat) (b : Bool) : (markSlots s first k b).trn = s.trn := rfl
@[simp] theorem markSlots_mr (s : State) (first k : Nat) (b : Bool) : (markSlots s first k b).mr = s.mr := rfl
@[simp] theorem markSlots_ccm (s : State) (first k : Nat) (b : Bool) : (markSlots s first k b).ccm = s.ccm := rfl
@[simp] theorem markSlots_muu (s : State) (first k : Nat) (b : Bool) : (markSlots s first k b).muu = s.muu := rfl
@[simp] theorem markSlots_muuRun (s : State) (first k : Nat) (b : Bool) : (markSlots s first k b).muuRun = s.muuRun := rfl
@[simp] theorem markSlots_trnRun (s : State) (first k : Nat) (b : Bool) : (markSlots s first k b).trnRun = s.trnRun := rfl
@[simp] theorem markSlots_cmd (s : State) (first k : Nat) (b : Bool) : (markSlots s first k b).cmd = s.cmd := rfl
@[simp] theorem markSlots_hif (s : State) (first k : Nat) (b : Bool) : (markSlots s first k b).hif = s.hif := rfl
@[simp] theorem markSlots_sec (s : State) (first k : Nat) (b : Bool) : (markSlots s first k b).sec = s.sec := rfl
@[simp] theorem markSlots_fw (s : State) (first k : Nat) (b : Bool) : (markSlots s first k b).fw = s.fw := rfl
@[simp] theorem markSlots_err (s : State) (first k : Nat) (b : Bool) : (markSlots s first k b).err = s.err := rfl
@[simp] theorem markSlots_pwr (s : State) (first k : Nat) (b : Bool) : (markSlots s first k b).pwr = s.pwr := rfl
@[simp] theorem markSlots_rst (s : State) (first k : Nat) (b : Bool) : (markSlots s first k b).rst = s.rst := rfl
@[simp] theorem markSlots_fab (s : State) (first k : Nat) (b : Bool) : (markSlots s first k b).fab = s.fab := rfl
@[simp] theorem markSlots_pending (s : State) (first k : Nat) (b : Bool) : (markSlots s first k b).pending = s.pending := rfl

/-! ## setStage -/

@[simp] theorem setStage_nowNs (s : State) (e : PowerEntry) (k : Nat) : (setStage s e k).nowNs = s.nowNs := rfl
@[simp] theorem setStage_freeCount (s : State) (e : PowerEntry) (k : Nat) : (setStage s e k).freeCount = s.freeCount := rfl
@[simp] theorem setStage_out (s : State) (e : PowerEntry) (k : Nat) : (setStage s e k).out = s.out := rfl
@[simp] theorem setStage_mem (s : State) (e : PowerEntry) (k : Nat) : (setStage s e k).mem = s.mem := rfl
@[simp] theorem setStage_cr (s : State) (e : PowerEntry) (k : Nat) : (setStage s e k).cr = s.cr := rfl
@[simp] theorem setStage_cores (s : State) (e : PowerEntry) (k : Nat) : (setStage s e k).cores = s.cores := rfl
@[simp] theorem setStage_blink (s : State) (e : PowerEntry) (k : Nat) : (setStage s e k).blink = s.blink := rfl
@[simp] theorem setStage_trn (s : State) (e : PowerEntry) (k : Nat) : (setStage s e k).trn = s.trn := rfl
@[simp] theorem setStage_mr (s : State) (e : PowerEntry) (k : Nat) : (setStage s e k).mr = s.mr := rfl
@[simp] theorem setStage_ccm (s : State) (e : PowerEntry) (k : Nat) : (setStage s e k).ccm = s.ccm := rfl
@[simp] theorem setStage_muu (s : State) (e : PowerEntry) (k : Nat) : (setStage s e k).muu = s.muu := rfl
@[simp] theorem setStage_muuRun (s : State) (e : PowerEntry) (k : Nat) : (setStage s e k).muuRun = s.muuRun := rfl
@[simp] theorem setStage_trnRun (s : State) (e : PowerEntry) (k : Nat) : (setStage s e k).trnRun = s.trnRun := rfl
@[simp] theorem setStage_cmd (s : State) (e : PowerEntry) (k : Nat) : (setStage s e k).cmd = s.cmd := rfl
@[simp] theorem setStage_hif (s : State) (e : PowerEntry) (k : Nat) : (setStage s e k).hif = s.hif := rfl
@[simp] theorem setStage_sec (s : State) (e : PowerEntry) (k : Nat) : (setStage s e k).sec = s.sec := rfl
@[simp] theorem setStage_fw (s : State) (e : PowerEntry) (k : Nat) : (setStage s e k).fw = s.fw := rfl
@[simp] theorem setStage_err (s : State) (e : PowerEntry) (k : Nat) : (setStage s e k).err = s.err := rfl
@[simp] theorem setStage_rst (s : State) (e : PowerEntry) (k : Nat) : (setStage s e k).rst = s.rst := rfl
@[simp] theorem setStage_fab (s : State) (e : PowerEntry) (k : Nat) : (setStage s e k).fab = s.fab := rfl
@[simp] theorem setStage_coll (s : State) (e : PowerEntry) (k : Nat) : (setStage s e k).coll = s.coll := rfl
@[simp] theorem setStage_pending (s : State) (e : PowerEntry) (k : Nat) : (setStage s e k).pending = s.pending := rfl

/-! ## noteTag -/

@[simp] theorem noteTag_nowNs (s : State) (fi t : Nat) : (noteTag s fi t).nowNs = s.nowNs := rfl
@[simp] theorem noteTag_freeCount (s : State) (fi t : Nat) : (noteTag s fi t).freeCount = s.freeCount := rfl
@[simp] theorem noteTag_out (s : State) (fi t : Nat) : (noteTag s fi t).out = s.out := rfl
@[simp] theorem noteTag_mem (s : State) (fi t : Nat) : (noteTag s fi t).mem = s.mem := rfl
@[simp] theorem noteTag_cr (s : State) (fi t : Nat) : (noteTag s fi t).cr = s.cr := rfl
@[simp] theorem noteTag_cores (s : State) (fi t : Nat) : (noteTag s fi t).cores = s.cores := rfl
@[simp] theorem noteTag_blink (s : State) (fi t : Nat) : (noteTag s fi t).blink = s.blink := rfl
@[simp] theorem noteTag_trn (s : State) (fi t : Nat) : (noteTag s fi t).trn = s.trn := rfl
@[simp] theorem noteTag_mr (s : State) (fi t : Nat) : (noteTag s fi t).mr = s.mr := rfl
@[simp] theorem noteTag_ccm (s : State) (fi t : Nat) : (noteTag s fi t).ccm = s.ccm := rfl
@[simp] theorem noteTag_muu (s : State) (fi t : Nat) : (noteTag s fi t).muu = s.muu := rfl
@[simp] theorem noteTag_muuRun (s : State) (fi t : Nat) : (noteTag s fi t).muuRun = s.muuRun := rfl
@[simp] theorem noteTag_trnRun (s : State) (fi t : Nat) : (noteTag s fi t).trnRun = s.trnRun := rfl
@[simp] theorem noteTag_cmd (s : State) (fi t : Nat) : (noteTag s fi t).cmd = s.cmd := rfl
@[simp] theorem noteTag_hif (s : State) (fi t : Nat) : (noteTag s fi t).hif = s.hif := rfl
@[simp] theorem noteTag_sec (s : State) (fi t : Nat) : (noteTag s fi t).sec = s.sec := rfl
@[simp] theorem noteTag_fw (s : State) (fi t : Nat) : (noteTag s fi t).fw = s.fw := rfl
@[simp] theorem noteTag_err (s : State) (fi t : Nat) : (noteTag s fi t).err = s.err := rfl
@[simp] theorem noteTag_pwr (s : State) (fi t : Nat) : (noteTag s fi t).pwr = s.pwr := rfl
@[simp] theorem noteTag_rst (s : State) (fi t : Nat) : (noteTag s fi t).rst = s.rst := rfl
@[simp] theorem noteTag_coll (s : State) (fi t : Nat) : (noteTag s fi t).coll = s.coll := rfl
@[simp] theorem noteTag_pending (s : State) (fi t : Nat) : (noteTag s fi t).pending = s.pending := rfl

/-! ## evDrop -/

@[simp] theorem evDrop_nowNs (s : State) : (evDrop s).nowNs = s.nowNs := rfl
@[simp] theorem evDrop_freeCount (s : State) : (evDrop s).freeCount = s.freeCount := rfl
@[simp] theorem evDrop_out (s : State) : (evDrop s).out = s.out := rfl
@[simp] theorem evDrop_mem (s : State) : (evDrop s).mem = s.mem := rfl
@[simp] theorem evDrop_cr (s : State) : (evDrop s).cr = s.cr := rfl
@[simp] theorem evDrop_cores (s : State) : (evDrop s).cores = s.cores := rfl
@[simp] theorem evDrop_blink (s : State) : (evDrop s).blink = s.blink := rfl
@[simp] theorem evDrop_trn (s : State) : (evDrop s).trn = s.trn := rfl
@[simp] theorem evDrop_mr (s : State) : (evDrop s).mr = s.mr := rfl
@[simp] theorem evDrop_ccm (s : State) : (evDrop s).ccm = s.ccm := rfl
@[simp] theorem evDrop_muu (s : State) : (evDrop s).muu = s.muu := rfl
@[simp] theorem evDrop_muuRun (s : State) : (evDrop s).muuRun = s.muuRun := rfl
@[simp] theorem evDrop_trnRun (s : State) : (evDrop s).trnRun = s.trnRun := rfl
@[simp] theorem evDrop_cmd (s : State) : (evDrop s).cmd = s.cmd := rfl
@[simp] theorem evDrop_hif (s : State) : (evDrop s).hif = s.hif := rfl
@[simp] theorem evDrop_sec (s : State) : (evDrop s).sec = s.sec := rfl
@[simp] theorem evDrop_err (s : State) : (evDrop s).err = s.err := rfl
@[simp] theorem evDrop_pwr (s : State) : (evDrop s).pwr = s.pwr := rfl
@[simp] theorem evDrop_rst (s : State) : (evDrop s).rst = s.rst := rfl
@[simp] theorem evDrop_fab (s : State) : (evDrop s).fab = s.fab := rfl
@[simp] theorem evDrop_coll (s : State) : (evDrop s).coll = s.coll := rfl
@[simp] theorem evDrop_pending (s : State) : (evDrop s).pending = s.pending := rfl

/-! ## dropWindow -/

@[simp] theorem dropWindow_nowNs (s : State) (st : Status) (source unit : Nat) : (dropWindow s st source unit).nowNs = s.nowNs := rfl
@[simp] theorem dropWindow_freeCount (s : State) (st : Status) (source unit : Nat) : (dropWindow s st source unit).freeCount = s.freeCount := rfl
@[simp] theorem dropWindow_out (s : State) (st : Status) (source unit : Nat) : (dropWindow s st source unit).out = s.out := rfl
@[simp] theorem dropWindow_mem (s : State) (st : Status) (source unit : Nat) : (dropWindow s st source unit).mem = s.mem := rfl
@[simp] theorem dropWindow_cr (s : State) (st : Status) (source unit : Nat) : (dropWindow s st source unit).cr = s.cr := rfl
@[simp] theorem dropWindow_cores (s : State) (st : Status) (source unit : Nat) : (dropWindow s st source unit).cores = s.cores := rfl
@[simp] theorem dropWindow_blink (s : State) (st : Status) (source unit : Nat) : (dropWindow s st source unit).blink = s.blink := rfl
@[simp] theorem dropWindow_trn (s : State) (st : Status) (source unit : Nat) : (dropWindow s st source unit).trn = s.trn := rfl
@[simp] theorem dropWindow_mr (s : State) (st : Status) (source unit : Nat) : (dropWindow s st source unit).mr = s.mr := rfl
@[simp] theorem dropWindow_ccm (s : State) (st : Status) (source unit : Nat) : (dropWindow s st source unit).ccm = s.ccm := rfl
@[simp] theorem dropWindow_muu (s : State) (st : Status) (source unit : Nat) : (dropWindow s st source unit).muu = s.muu := rfl
@[simp] theorem dropWindow_muuRun (s : State) (st : Status) (source unit : Nat) : (dropWindow s st source unit).muuRun = s.muuRun := rfl
@[simp] theorem dropWindow_trnRun (s : State) (st : Status) (source unit : Nat) : (dropWindow s st source unit).trnRun = s.trnRun := rfl
@[simp] theorem dropWindow_cmd (s : State) (st : Status) (source unit : Nat) : (dropWindow s st source unit).cmd = s.cmd := rfl
@[simp] theorem dropWindow_hif (s : State) (st : Status) (source unit : Nat) : (dropWindow s st source unit).hif = s.hif := rfl
@[simp] theorem dropWindow_sec (s : State) (st : Status) (source unit : Nat) : (dropWindow s st source unit).sec = s.sec := rfl
@[simp] theorem dropWindow_fw (s : State) (st : Status) (source unit : Nat) : (dropWindow s st source unit).fw = s.fw := rfl
@[simp] theorem dropWindow_pwr (s : State) (st : Status) (source unit : Nat) : (dropWindow s st source unit).pwr = s.pwr := rfl
@[simp] theorem dropWindow_rst (s : State) (st : Status) (source unit : Nat) : (dropWindow s st source unit).rst = s.rst := rfl
@[simp] theorem dropWindow_fab (s : State) (st : Status) (source unit : Nat) : (dropWindow s st source unit).fab = s.fab := rfl
@[simp] theorem dropWindow_coll (s : State) (st : Status) (source unit : Nat) : (dropWindow s st source unit).coll = s.coll := rfl
@[simp] theorem dropWindow_pending (s : State) (st : Status) (source unit : Nat) : (dropWindow s st source unit).pending = s.pending := rfl

/-! ## What the updates write -/

@[simp] theorem setMem_mem (s : State) (m : Mem) : (setMem s m).mem = m := rfl
@[simp] theorem emit_out (s : State) (o : Output) : (emit s o).out = s.out ++ [o] := rfl
@[simp] theorem setPort_get (s : State) (p : HPort) (x : HostPortState) : getPort (setPort s p x) p = x := by cases p <;> rfl
@[simp] theorem setQueue_streams (s : State) (q : Nat) (x : Queue) : (setQueue s q x).cmd.streams = s.cmd.streams := rfl
@[simp] theorem setCore_getStream (s : State) (n : Nat) (c : Core) (i : Nat) : getStream (setCore s n c) i = getStream s i := rfl
@[simp] theorem setCore_getQueue (s : State) (n : Nat) (c : Core) (q : Nat) : getQueue (setCore s n c) q = getQueue s q := rfl
@[simp] theorem emit_getQueue (s : State) (o : Output) (q : Nat) : getQueue (emit s o) q = getQueue s q := rfl
@[simp] theorem setMem_getQueue (s : State) (m : Mem) (q : Nat) : getQueue (setMem s m) q = getQueue s q := rfl
@[simp] theorem setMem_getCore (s : State) (m : Mem) (n : Nat) : getCore (setMem s m) n = getCore s n := rfl
@[simp] theorem setQueue_getCore (s : State) (q : Nat) (x : Queue) (n : Nat) : getCore (setQueue s q x) n = getCore s n := rfl

/-! ## setPort -/

@[simp] theorem setPort_nowNs (s : State) (p : HPort) (x : HostPortState) : (setPort s p x).nowNs = s.nowNs := by cases p <;> rfl
@[simp] theorem setPort_freeCount (s : State) (p : HPort) (x : HostPortState) : (setPort s p x).freeCount = s.freeCount := by cases p <;> rfl
@[simp] theorem setPort_out (s : State) (p : HPort) (x : HostPortState) : (setPort s p x).out = s.out := by cases p <;> rfl
@[simp] theorem setPort_mem (s : State) (p : HPort) (x : HostPortState) : (setPort s p x).mem = s.mem := by cases p <;> rfl
@[simp] theorem setPort_cr (s : State) (p : HPort) (x : HostPortState) : (setPort s p x).cr = s.cr := by cases p <;> rfl
@[simp] theorem setPort_cores (s : State) (p : HPort) (x : HostPortState) : (setPort s p x).cores = s.cores := by cases p <;> rfl
@[simp] theorem setPort_blink (s : State) (p : HPort) (x : HostPortState) : (setPort s p x).blink = s.blink := by cases p <;> rfl
@[simp] theorem setPort_trn (s : State) (p : HPort) (x : HostPortState) : (setPort s p x).trn = s.trn := by cases p <;> rfl
@[simp] theorem setPort_mr (s : State) (p : HPort) (x : HostPortState) : (setPort s p x).mr = s.mr := by cases p <;> rfl
@[simp] theorem setPort_ccm (s : State) (p : HPort) (x : HostPortState) : (setPort s p x).ccm = s.ccm := by cases p <;> rfl
@[simp] theorem setPort_muu (s : State) (p : HPort) (x : HostPortState) : (setPort s p x).muu = s.muu := by cases p <;> rfl
@[simp] theorem setPort_muuRun (s : State) (p : HPort) (x : HostPortState) : (setPort s p x).muuRun = s.muuRun := by cases p <;> rfl
@[simp] theorem setPort_trnRun (s : State) (p : HPort) (x : HostPortState) : (setPort s p x).trnRun = s.trnRun := by cases p <;> rfl
@[simp] theorem setPort_cmd (s : State) (p : HPort) (x : HostPortState) : (setPort s p x).cmd = s.cmd := by cases p <;> rfl
@[simp] theorem setPort_sec (s : State) (p : HPort) (x : HostPortState) : (setPort s p x).sec = s.sec := by cases p <;> rfl
@[simp] theorem setPort_fw (s : State) (p : HPort) (x : HostPortState) : (setPort s p x).fw = s.fw := by cases p <;> rfl
@[simp] theorem setPort_err (s : State) (p : HPort) (x : HostPortState) : (setPort s p x).err = s.err := by cases p <;> rfl
@[simp] theorem setPort_pwr (s : State) (p : HPort) (x : HostPortState) : (setPort s p x).pwr = s.pwr := by cases p <;> rfl
@[simp] theorem setPort_rst (s : State) (p : HPort) (x : HostPortState) : (setPort s p x).rst = s.rst := by cases p <;> rfl
@[simp] theorem setPort_fab (s : State) (p : HPort) (x : HostPortState) : (setPort s p x).fab = s.fab := by cases p <;> rfl
@[simp] theorem setPort_coll (s : State) (p : HPort) (x : HostPortState) : (setPort s p x).coll = s.coll := by cases p <;> rfl
@[simp] theorem setPort_pending (s : State) (p : HPort) (x : HostPortState) : (setPort s p x).pending = s.pending := by cases p <;> rfl

end Sys2Proof.Laws
end

