-- ==== Sys2Proof/Laws/Frames.lean ====
section
/-! SUPPORT. What the shared operations can change: one lemma for each says which parts of the state it leaves as they were.
A proof about a command composes them and never unfolds an operation. -/

namespace Sys2Proof.Laws

open Sys2Proof Sys2Proof.Machine

/-- Two states agree on every part outside a list. -/
def Keeps (ps : List Part) (s t : State) : Prop := ∀ p, p ∉ ps → samePart s t p

variable {ps qs : List Part} {s t u : State}

theorem samePart_refl (s : State) (p : Part) : samePart s s p := by cases p <;> rfl

theorem samePart_trans {p : Part} (h : samePart s t p) (k : samePart t u p) : samePart s u p := by
  cases p <;> simp only [samePart] at * <;> rw [k, h]

theorem Keeps.refl (ps : List Part) (s : State) : Keeps ps s s := fun p _ => samePart_refl s p

theorem Keeps.trans (h : Keeps ps s t) (k : Keeps ps t u) : Keeps ps s u := fun p hp => samePart_trans (h p hp) (k p hp)

theorem Keeps.mono (h : Keeps ps s t) (hs : ∀ p ∈ ps, p ∈ qs) : Keeps qs s t := fun p hp => h p (fun h' => hp (hs p h'))

/-- A fold keeps what each of its steps keeps. -/
theorem Keeps.foldl {α : Type} {f : State → α → State} (h : ∀ s x, Keeps ps s (f s x)) (l : List α) (s : State) :
    Keeps ps s (l.foldl f s) := by
  induction l generalizing s with
  | nil => exact Keeps.refl ps s
  | cons x l ih => exact (h s x).trans (ih _)

/-! ## Memory, cores, counters -/

theorem setMem_keeps (s : State) (m : Mem) : Keeps [.mem] s (setMem s m) := by
  intro p hp; cases p <;> first | rfl | simp at hp

theorem write_keeps (s : State) (r : Reach) (a : Nat) (bs : Bytes) (b : Bool) : Keeps [.mem] s (write s r a bs b) := by
  unfold write; split
  · exact setMem_keeps s _
  · exact .refl _ s

theorem coreWrite_keeps (s : State) (n off : Nat) (bs : Bytes) (b : Bool) : Keeps [.mem] s (coreWrite s n off bs b) := by
  unfold coreWrite; split
  · exact setMem_keeps s _
  · exact .refl _ s

theorem setCore_keeps (s : State) (n : Nat) (c : Core) : Keeps [.cores] s (setCore s n c) := by
  intro p hp; cases p <;> first | rfl | simp at hp

theorem touchCluster_keeps (s : State) (c : Nat) : Keeps [.pwr] s (touchCluster s c) := by
  intro p hp; cases p <;> first | rfl | simp at hp

theorem touch_keeps (s : State) (a : Nat) : Keeps [.pwr] s (touch s a) := by
  unfold touch; split
  · exact touchCluster_keeps s _
  · exact touchCluster_keeps s _
  · exact .refl _ s

theorem emit_keeps (s : State) (o : Output) : Keeps [.out] s (emit s o) := by
  intro p hp; cases p <;> first | rfl | simp at hp

theorem freeDraw_keeps (s : State) : Keeps [.freeCount] s (freeDraw s).1 := by
  intro p hp; cases p <;> first | rfl | simp at hp

theorem modStream_keeps (s : State) (i : Nat) (f : StreamRun → StreamRun) : Keeps [.cmd] s (modStream s i f) := by
  intro p hp; cases p <;> first | rfl | simp at hp

theorem modPhase_keeps (s : State) (i k : Nat) (f : PhaseRun → PhaseRun) : Keeps [.cmd] s (modPhase s i k f) :=
  modStream_keeps s i _

theorem noteStatus_keeps (s : State) (i k : Nat) (st : Status) : Keeps [.cmd] s (noteStatus s i k st) := modPhase_keeps s i k _

theorem setCounter_keeps (s : State) (c : Nat) (v : BitVec 32) : Keeps [.cmd] s (setCounter s c v) := by
  intro p hp; cases p <;> first | rfl | simp at hp

theorem counterSeen_keeps (s : State) (c : Nat) : Keeps [.cmd, .coll] s (counterSeen s c) := by
  intro p hp; cases p <;> first | rfl | simp at hp

theorem bumpCounter_keeps (s : State) (c : Nat) : Keeps [.cmd, .coll] s (bumpCounter s c) :=
  ((setCounter_keeps s c _).mono (by decide)).trans (counterSeen_keeps _ c)

theorem signal_keeps (s : State) (i : Nat) (d : Bytes) : Keeps [.cmd, .coll] s (signal s i d) := by
  simp only [signal]; split
  · exact bumpCounter_keeps s _
  · exact .refl _ s

/-! ## Op lists of cores -/

theorem retireSvc_keeps (s : State) (n : Nat) : Keeps [.cmd, .cores] s (retireSvc s n) := by
  simp only [retireSvc]; split
  · split
    · exact ((setCore_keeps s n _).mono (by decide)).trans ((modPhase_keeps _ _ _ _).mono (by decide))
    · exact .refl _ s
  · exact .refl _ s

theorem retireList_keeps (s : State) (n : Nat) : Keeps [.cmd, .cores] s (retireList s n) := by
  simp only [retireList]; split
  · split
    · exact (retireSvc_keeps s n).trans (((setCore_keeps _ n _).mono (by decide)).trans ((modPhase_keeps _ _ _ _).mono (by decide)))
    · exact retireSvc_keeps s n
  · exact retireSvc_keeps s n

/-- What the end of a core's op reaches. -/
def opEnds : List Part := [.cmd, .coll, .cores, .pwr]

theorem finishOp_keeps (s : State) (n : Nat) (t : Token) (d : Bytes) (st : Status) : Keeps opEnds s (finishOp s n t d st) :=
  ((touchCluster_keeps s _).mono (by decide)).trans (((signal_keeps _ _ _).mono (by decide)).trans
    (((noteStatus_keeps _ _ _ _).mono (by decide)).trans ((retireList_keeps _ n).mono (by decide))))

theorem passOps_keeps (s : State) (n k : Nat) : Keeps [.cores, .pwr] s (passOps s n k) :=
  ((touchCluster_keeps s _).mono (by decide)).trans ((setCore_keeps _ n _).mono (by decide))

theorem rejectOp_keeps (s : State) (n : Nat) (o : NextOp) (st : Status) : Keeps opEnds s (rejectOp s n o st) :=
  ((passOps_keeps s n 1).mono (by decide)).trans (finishOp_keeps _ n _ _ st)

theorem photUpdate_keeps (s : State) (base layer : Nat) (x : Phot) (clip : Bool) : Keeps [.mem, .cr] s (photUpdate s base layer x clip) := by
  unfold photUpdate
  split
  · exact .refl _ s
  · simp only
    split
    · intro p hp; cases p <;> first | rfl | simp at hp
    · exact (write_keeps s _ _ _ _).mono (by decide)

/-! ## I/O lists -/

theorem passIo_keeps (s : State) (i k : Nat) : Keeps [.cmd] s (passIo s i k) := modPhase_keeps s i k _

theorem finishIo_keeps (s : State) (i k : Nat) (d : Bytes) (st : Status) : Keeps [.cmd, .coll] s (finishIo s i k d st) :=
  (signal_keeps s i d).trans ((noteStatus_keeps _ i k st).mono (by decide))

theorem rejectIo_keeps (s : State) (i k : Nat) (o : NextOp) (st : Status) : Keeps [.cmd, .coll] s (rejectIo s i k o st) :=
  ((passIo_keeps s i k).mono (by decide)).trans (finishIo_keeps _ i k _ st)

theorem startIo_keeps (s : State) (i k : Nat) (o : NextOp) : Keeps [.cmd] s (startIo s i k o) :=
  (passIo_keeps s i k).trans (modPhase_keeps _ i k _)

theorem modIo_keeps (s : State) (i k j : Nat) (f : IoOp → IoOp) : Keeps [.cmd] s (modIo s i k j f) := modPhase_keeps s i k _

theorem endIo_keeps (s : State) (i k j : Nat) (st : Status) : Keeps [.cmd] s (endIo s i k j st) := modIo_keeps s i k j _

theorem completeIo_keeps (s : State) (i k j : Nat) : Keeps [.cmd, .coll] s (completeIo s i k j) := by
  unfold completeIo; split
  · exact .refl _ s
  · split
    · exact ((modPhase_keeps s i k _).mono (by decide)).trans (finishIo_keeps _ i k _ _)
    · exact .refl _ s

theorem rejectAt_keeps (loc : OpLoc) (s : State) (o : NextOp) (st : Status) : Keeps opEnds s (rejectAt loc s o st) := by
  cases loc
  · exact rejectOp_keeps s _ o st
  · exact (rejectIo_keeps s _ _ o st).mono (by decide)

/-! ## Events and the failure log -/

theorem setPort_keeps (s : State) (p : HPort) (x : HostPortState) : Keeps [.hif] s (setPort s p x) := by
  intro q hq; cases p <;> cases q <;> first | rfl | simp at hq

theorem setQueue_keeps (s : State) (q : Nat) (x : Queue) : Keeps [.cmd] s (setQueue s q x) := by
  intro p hp; cases p <;> first | rfl | simp at hp

theorem evDrop_keeps (s : State) : Keeps [.fw] s (evDrop s) := by
  intro p hp; cases p <;> first | rfl | simp at hp

theorem sendMsix_keeps (s : State) (p : HPort) (v : Nat) : Keeps [.hif, .out] s (sendMsix s p v) := by
  simp only [sendMsix]; split
  · exact (setPort_keeps s p _).mono (by decide)
  · split
    · exact (emit_keeps s _).mono (by decide)
    · exact .refl _ s

theorem sendRead_keeps (s : State) (p : HPort) (a n : Nat) (w : ReadFor) : Keeps [.hif, .out] s (sendRead s p a n w) := by
  intro q hq; cases q <;> first | rfl | simp at hq

theorem issueRead_keeps (s : State) (p : HPort) (a n : Nat) (w : ReadFor) : Keeps [.hif, .out] s (issueRead s p a n w) := by
  unfold issueRead; split
  · exact sendRead_keeps s p a n w
  · intro q hq; cases q <;> first | rfl | simp at hq

/-- What a record on its way to the rings reaches. -/
def eventParts : List Part := [.fw, .hif, .out]

theorem toRing_keeps (s : State) (r : Bytes) (p : HPort) : Keeps eventParts s (toRing s r p) := by
  simp only [toRing]; split
  · split
    · exact (evDrop_keeps s).mono (by decide)
    · exact .refl _ s
  · split
    · exact (issueRead_keeps s p _ _ _).mono (by decide)
    · exact (evDrop_keeps s).mono (by decide)

theorem deliver_keeps (s : State) (r : Bytes) (l : List HPort) : Keeps eventParts s (deliver s r l) := by
  unfold deliver; split
  · split
    · intro p hp; cases p <;> first | rfl | simp [eventParts] at hp
    · exact (evDrop_keeps s).mono (by decide)
  · split
    · exact Keeps.foldl (fun a p => toRing_keeps a r p) l s
    · exact .refl _ s

theorem ringWrite_keeps (s : State) (p : HPort) (r h : Bytes) : Keeps eventParts s (ringWrite s p r h) := by
  simp only [ringWrite]; split
  · split
    · exact (evDrop_keeps s).mono (by decide)
    · exact .refl _ s
  · split
    · exact (evDrop_keeps s).mono (by decide)
    · exact ((setPort_keeps s p _).mono (by decide)).trans (((emit_keeps _ _).mono (by decide)).trans
        ((sendMsix_keeps _ p _).mono (by decide)))

/-- What raising an event reaches. -/
def raiseParts : List Part := [.err, .fw, .hif, .out]

theorem setErr_keeps (s : State) (e : ErrState) : Keeps [.err] s { s with err := e } := by
  intro p hp; cases p <;> first | rfl | simp at hp

theorem emitEvent_keeps (s : State) (st : Status) (a b c d : Nat) (e : Bool) (x : Bytes) :
    Keeps raiseParts s (emitEvent s st a b c d e x) := by
  simp only [emitEvent]; split
  · exact ((setErr_keeps s _).mono (by decide)).trans ((deliver_keeps _ _ _).mono (by decide))
  · exact (setErr_keeps s _).mono (by decide)

theorem flushWindow_keeps (s : State) (w : EventWindow) : Keeps raiseParts s (flushWindow s w) := by
  have h : Keeps raiseParts s (dropWindow s w.status w.source w.unit) := (setErr_keeps s _).mono (by decide)
  simp only [flushWindow]; split
  · exact h
  · exact h.trans (emitEvent_keeps _ _ _ _ _ _ _ _)

theorem raiseEvent_keeps (s : State) (st : Status) (a b : Nat) (x : Bytes) : Keeps raiseParts s (raiseEvent s st a b x) := by
  simp only [raiseEvent]; split
  · exact ((setErr_keeps s _).mono (by decide)).trans (emitEvent_keeps _ _ _ _ _ _ _ _)
  · split
    · exact (setErr_keeps s _).mono (by decide)
    · exact (flushWindow_keeps s _).trans (((setErr_keeps _ _).mono (by decide)).trans (emitEvent_keeps _ _ _ _ _ _ _ _))

theorem logFailure_keeps (s : State) (k : Nat) (st : Status) (a b : Nat) : Keeps [.err] s (logFailure s k st a b) := by
  simp only [logFailure]; split <;> exact setErr_keeps s _

/-! ## Packets on their way out -/

theorem setFabState_keeps (s : State) (x : FabState) : Keeps [.fab] s { s with fab := x } := by
  intro p hp; cases p <;> first | rfl | simp at hp

/-- What a packet on its way out reaches. -/
def outParts : List Part := [.fab, .out]

theorem emitOut_keeps (s : State) (o : Output) : Keeps outParts s (emit s o) := (emit_keeps s o).mono (by decide)

theorem setFab_keeps (s : State) (p : Nat) (x : FabPortState) : Keeps outParts s (setFab s p x) :=
  (setFabState_keeps s _).mono (by decide)

theorem sendIdle_keeps (s : State) (p : Nat) : Keeps outParts s (sendIdle s p) := by
  simp only [sendIdle]; split
  · exact (setFab_keeps s p _).trans (emitOut_keeps _ _)
  · exact .refl _ s

theorem takeTag_keeps (s : State) (a b c d : Nat) (o : FabOwner) : Keeps outParts s (takeTag s a b c d o) :=
  (setFabState_keeps s _).mono (by decide)

theorem freeSource_keeps (s : State) (x : Option (Nat × Nat × Nat)) : Keeps outParts s (freeSource s x) := by
  cases x
  · exact .refl _ s
  · exact (setFab_keeps s _ _).trans (sendIdle_keeps _ _)

theorem putOnLink_keeps (s : State) (p : Nat) (o : OutPkt) (b : Bytes) : Keeps outParts s (putOnLink s p o b) :=
  (setFab_keeps s p _).trans ((emitOut_keeps _ _).trans (freeSource_keeps _ _))

theorem trySend_keeps (s : State) (p : Nat) (o : OutPkt) (h : trySend s p o = some t) : Keeps outParts s t := by
  unfold trySend at h
  split at h
  · split at h
    · split at h
      · cases h
      · have h := Option.some.inj h
        rw [← h]; exact (takeTag_keeps s _ _ _ _ _).trans (putOnLink_keeps _ p o _)
    · have h := Option.some.inj h
      rw [← h]; exact putOnLink_keeps s p o _
  · cases h

theorem drainList_keeps (p : Nat) (l : List OutPkt) (b : List Nat) (s : State) (k : List OutPkt) :
    Keeps outParts s (drainList p l b s k).1 := by
  induction l generalizing b s k with
  | nil => exact .refl _ s
  | cons o l ih =>
    simp only [drainList]
    split
    · exact ih b s _
    · split
      · rename_i s1 h
        exact (trySend_keeps s p o h).trans (ih b s1 k)
      · exact ih _ s _

theorem drainPort_keeps (s : State) (p : Nat) : Keeps outParts s (drainPort s p) := by
  simp only [drainPort]; split
  · exact (drainList_keeps p _ _ s _).trans (setFab_keeps _ p _)
  · exact .refl _ s

theorem sendOut_keeps (s : State) (p : Nat) (o : OutPkt) : Keeps outParts s (sendOut s p o) :=
  (setFab_keeps s p _).trans (drainPort_keeps _ p)

theorem waitAtFi_keeps (s : State) (l : LoopPkt) : Keeps outParts s (waitAtFi s l) := (setFabState_keeps s _).mono (by decide)

/-- A packet discarded at its source reaches what its count reaches. -/
theorem losePkt_keeps {count : State → State} (hc : ∀ x, Keeps outParts x (count x)) (s : State) (l : LoopPkt) :
    Keeps outParts s (losePkt count s l) := by
  unfold losePkt; split
  · split
    · exact waitAtFi_keeps s l
    · exact (takeTag_keeps s _ _ _ _ _).trans ((hc _).trans (freeSource_keeps _ _))
  · exact (hc s).trans (freeSource_keeps _ _)

theorem routePkt_keeps (s : State) (a b : Nat) (l : LoopPkt) : Keeps outParts s (routePkt s a b l) := by
  have hn : ∀ x, Keeps outParts x (countNoRoute x) := fun x => (setFabState_keeps x _).mono (by decide)
  have he : ∀ x, Keeps outParts x (countRouteErr x) := fun x => (setFabState_keeps x _).mono (by decide)
  unfold routePkt; split
  · exact losePkt_keeps hn s l
  · split
    · exact losePkt_keeps he s l
    · exact sendOut_keeps s _ _

theorem injectPkt_keeps (s : State) (a b c : Nat) (x : Bytes) (d : Option Nat) (e : Nat) (o : Option FabOwner)
    (f : Option (Nat × Nat × Nat)) : Keeps outParts s (injectPkt s a b c x d e o f) := by
  simp only [injectPkt]; split
  · exact waitAtFi_keeps s _
  · exact routePkt_keeps s _ _ _

theorem injectPlain_keeps (s : State) (a : Nat) (h : PktSpec) (x : Bytes) (o : Option FabOwner)
    (f : Option (Nat × Nat × Nat)) : Keeps outParts s (injectPlain s a h x o f) := injectPkt_keeps s _ _ _ _ _ _ _ _

/-! ## Records of queues -/

/-- The records and rings that an error of a queue reaches. -/
theorem queueError_keeps (s : State) (n : Nat) : Keeps [.cmd, .err, .fw, .hif, .out] s (queueError s n) := by
  simp only [queueError]; split
  · exact .refl _ s
  · exact ((setQueue_keeps s n _).mono (by decide)).trans ((raiseEvent_keeps _ _ _ _ _).mono (by decide))

theorem setHif_keeps (s : State) (h : HifState) : Keeps [.hif] s { s with hif := h } := by
  intro p hp; cases p <;> first | rfl | simp at hp

theorem denyLine_keeps (s : State) (i : Nat) (w : Bool) (a : Nat) : Keeps raiseParts s (denyLine s i w a) :=
  ((setHif_keeps s _).mono (by decide)).trans (raiseEvent_keeps _ _ _ _ _)

theorem cmdDeny_keeps (s : State) (w : Bool) (a n : Nat) : Keeps raiseParts s (cmdDeny s w a n) := by
  refine Keeps.foldl (fun x l => ?_) _ s
  split
  · exact .refl _ x
  · exact denyLine_keeps x _ w l

/-- What a write of the command processor reaches. -/
def cmdParts : List Part := [.mem, .err, .fw, .hif, .out, .fab]

theorem cmdWrite_keeps (s : State) (a : Nat) (b : Bytes) : Keeps cmdParts s (cmdWrite s a b).1 := by
  simp only [cmdWrite]; split
  · split
    · refine Keeps.foldl (fun x l => ?_) _ s
      split
      · split
        · exact (emit_keeps x _).mono (by decide)
        · exact .refl _ x
      · split
        · exact (setMem_keeps x _).mono (by decide)
        · exact .refl _ x
    · exact (cmdDeny_keeps s _ _ _).mono (by decide)
  · exact (injectPlain_keeps s _ _ _ _ _).mono (by decide)

/-- What a completion record reaches. -/
def recordParts : List Part := .cmd :: cmdParts

theorem putRecord_keeps (s : State) (n : Nat) (r : Record) : Keeps recordParts s (putRecord s n r) := by
  have h : ∀ x : Queue, Keeps recordParts s (setQueue s n x) := fun x => (setQueue_keeps s n x).mono (by decide)
  have hc : ∀ (x : State) (a : Nat) (b : Bytes),
      Keeps recordParts x (if (cmdWrite x a b).2 then (cmdWrite x a b).1 else queueError (cmdWrite x a b).1 n) := by
    intro x a b
    have hw : Keeps recordParts x (cmdWrite x a b).1 := (cmdWrite_keeps x a b).mono (by decide)
    split
    · exact hw
    · exact hw.trans ((queueError_keeps _ n).mono (by decide))
  unfold putRecord
  by_cases hr : ringLoc (getQueue s n).cq = true
  · simp only [hr, if_true]
    exact (h _).trans (hc _ _ _)
  · simp only [if_neg hr]
    cases ownerPort (getQueue s n).owner with
    | none => exact h _
    | some p =>
      have he := fun x o => (emit_keeps x o).mono (qs := recordParts) (by decide)
      by_cases hi : r.irq = true
      · simp only [hi, if_true]
        exact (h _).trans ((he _ _).trans ((sendMsix_keeps _ _ _).mono (by decide)))
      · simp only [if_neg hi]
        exact (h _).trans (he _ _)

theorem setCmd_keeps (s : State) (c : CmdState) : Keeps [.cmd] s { s with cmd := c } := by
  intro p hp; cases p <;> first | rfl | simp at hp

theorem postRecord_keeps (s : State) (n : Nat) (r : Record) : Keeps recordParts s (postRecord s n r) := by
  simp only [postRecord]; split
  · split
    · exact (setQueue_keeps s n _).mono (by decide)
    · exact (setCmd_keeps s _).mono (by decide)
  · split
    · exact putRecord_keeps s n r
    · exact (setQueue_keeps s n _).mono (by decide)

theorem flushHeld_keeps (k : Nat) (s : State) (n : Nat) : Keeps recordParts s (flushHeld k s n) := by
  induction k generalizing s with
  | zero => exact .refl _ s
  | succ k ih =>
    simp only [flushHeld]; split
    · exact .refl _ s
    · split
      · exact ((setQueue_keeps s n _).mono (by decide)).trans ((putRecord_keeps _ n _).trans (ih _))
      · exact .refl _ s

theorem flushQueueHeld_keeps (s : State) (n : Nat) : Keeps recordParts s (flushQueueHeld s n) := flushHeld_keeps _ s n

theorem noteServed_keeps (s : State) (n : Nat) : Keeps [.cmd] s (noteServed s n) := setCmd_keeps s _

theorem completeFull_keeps (s : State) (n : Nat) (f : Fetched) (st : Status) (a b : Bool) (k : BitVec 16) (e : Bool) :
    Keeps recordParts s (completeFull s n f st a b k e) := by
  have h : Keeps recordParts s (if f.started then s else noteServed s n) := by
    split
    · exact .refl _ s
    · exact (noteServed_keeps s n).mono (by decide)
  exact h.trans (((setQueue_keeps _ n _).mono (by decide)).trans
    (((setCmd_keeps _ _).mono (by decide)).trans (postRecord_keeps _ n _)))

theorem completeDesc_keeps (s : State) (n : Nat) (f : Fetched) (st : Status) : Keeps recordParts s (completeDesc s n f st) :=
  completeFull_keeps s n f st _ _ _ _

theorem refuseDesc_keeps (s : State) (n : Nat) (f : Fetched) (st : Status) : Keeps recordParts s (refuseDesc s n f st) :=
  completeFull_keeps s n f st _ _ _ _

/-! ## Keys -/

theorem setSec_keeps (s : State) (c : SecState) : Keeps [.sec] s { s with sec := c } := by
  intro p hp; cases p <;> first | rfl | simp at hp

/-- What a check of a descriptor's key reaches. -/
def keyParts : List Part := .sec :: raiseParts

theorem keyFailure_keeps (s : State) (n : Nat) (st : Status) : Keeps keyParts s (keyFailure s n st) :=
  ((setSec_keeps s _).mono (by decide)).trans ((raiseEvent_keeps _ _ _ _ _).mono (by decide))

theorem verifyDesc_keeps (s : State) (n : Nat) (d : Bytes) : Keeps keyParts s (verifyDesc s n d).1 := by
  simp only [verifyDesc]
  repeat' split
  all_goals first
    | exact .refl _ s
    | exact keyFailure_keeps s n _
    | exact (setSec_keeps s _).mono (by decide)

end Sys2Proof.Laws
end

