-- ==== Sys2Proof/Laws/Memory.lean ====
section
/-! SUPPORT. Laws of sparse maps and of module memory: what a read after a write gives, and that every operation keeps the
canonical form. -/

namespace Sys2Proof.Laws

open Sys2Proof.Machine

variable {α : Type} [DecidableEq α] {d v : α} {m : List (Nat × α)} {k j : Nat}

/-- Every key of a map lies above a bound. -/
def above (k : Nat) (m : List (Nat × α)) : Prop := ∀ p ∈ m, k < p.1

theorem smWf_cons {a : Nat} {x : α} : smWf d ((a, x) :: m) = true ↔ x ≠ d ∧ above a m ∧ smWf d m = true := by
  induction m generalizing a x with
  | nil => simp [smWf, above]
  | cons p m ih =>
    obtain ⟨b, y⟩ := p
    constructor
    · intro h
      simp only [smWf, Bool.and_eq_true, decide_eq_true_eq] at h
      obtain ⟨⟨hx, hab⟩, hw⟩ := h
      refine ⟨hx, ?_, hw⟩
      have hb := (ih.mp hw).2.1
      intro q hq
      rcases List.mem_cons.mp hq with rfl | hq
      · exact hab
      · exact Nat.lt_trans hab (hb q hq)
    · rintro ⟨hx, hab, hw⟩
      simp only [smWf, Bool.and_eq_true, decide_eq_true_eq]
      exact ⟨⟨hx, hab (b, y) (by simp)⟩, hw⟩

theorem mem_smSet {q : Nat × α} (h : q ∈ smSet d m k v) : q = (k, v) ∨ q ∈ m := by
  induction m with
  | nil => unfold smSet at h; split at h <;> simp_all
  | cons p m ih =>
    obtain ⟨a, x⟩ := p
    unfold smSet at h
    split_ifs at h <;> simp only [List.mem_cons] at h ⊢ <;> tauto

theorem above_smSet (hj : j < k) (h : above j m) : above j (smSet d m k v) := by
  intro q hq
  rcases mem_smSet hq with rfl | hq
  · exact hj
  · exact h q hq

/-- A map stays canonical when one value is set. -/
theorem smSet_wf (h : smWf d m = true) : smWf d (smSet d m k v) = true := by
  induction m with
  | nil => unfold smSet; split <;> simp_all [smWf]
  | cons p m ih =>
    obtain ⟨a, x⟩ := p
    obtain ⟨hx, ha, hw⟩ := smWf_cons.mp h
    unfold smSet
    split_ifs with h1 h2 h3 h4
    · exact h
    · refine smWf_cons.mpr ⟨h2, ?_, h⟩
      intro q hq
      rcases List.mem_cons.mp hq with rfl | hq
      · exact h1
      · exact Nat.lt_trans h1 (ha q hq)
    · exact hw
    · subst h3
      exact smWf_cons.mpr ⟨h4, ha, hw⟩
    · exact smWf_cons.mpr ⟨hx, above_smSet (by omega) ha, ih hw⟩

omit [DecidableEq α] in
theorem smGet_above (h : above k m) : smGet d m k = d := by
  induction m with
  | nil => rfl
  | cons p m ih =>
    obtain ⟨a, x⟩ := p
    have ha : k < a := h (a, x) (by simp)
    have hm : above k m := fun q hq => h q (by simp [hq])
    simp [smGet, show a ≠ k by omega, ih hm]

/-- A read of the key just set gives the value set. -/
theorem smGet_smSet_self (h : smWf d m = true) : smGet d (smSet d m k v) k = v := by
  induction m with
  | nil => unfold smSet; split <;> simp_all [smGet]
  | cons p m ih =>
    obtain ⟨a, x⟩ := p
    obtain ⟨hx, ha, hw⟩ := smWf_cons.mp h
    unfold smSet
    split_ifs with h1 h2 h3 h4
    · have : above k ((a, x) :: m) := by
        intro q hq
        rcases List.mem_cons.mp hq with rfl | hq
        · exact h1
        · exact Nat.lt_trans h1 (ha q hq)
      rw [smGet_above this, h2]
    · simp [smGet]
    · subst h3; rw [smGet_above ha, h4]
    · simp [smGet]
    · simp [smGet, show a ≠ k by omega, ih hw]

/-- A read of another key gives what it gave before. -/
theorem smGet_smSet_other (h : smWf d m = true) (hjk : j ≠ k) : smGet d (smSet d m k v) j = smGet d m j := by
  induction m with
  | nil => unfold smSet; split <;> simp [smGet, Ne.symm hjk]
  | cons p m ih =>
    obtain ⟨a, x⟩ := p
    obtain ⟨hx, ha, hw⟩ := smWf_cons.mp h
    unfold smSet
    split_ifs with h1 h2 h3 h4
    · rfl
    · simp [smGet, Ne.symm hjk]
    · subst h3; simp [smGet, Ne.symm hjk]
    · subst h3; simp [smGet, Ne.symm hjk]
    · simp only [smGet]; split_ifs
      · rfl
      · exact ih hw

/-- A sub-list by a test of a canonical map is canonical. -/
theorem filter_wf (f : Nat × α → Bool) (h : smWf d m = true) : smWf d (m.filter f) = true := by
  induction m with
  | nil => rfl
  | cons p m ih =>
    obtain ⟨a, x⟩ := p
    obtain ⟨hx, ha, hw⟩ := smWf_cons.mp h
    rw [List.filter_cons]
    split_ifs
    · exact smWf_cons.mpr ⟨hx, fun q hq => ha q (List.mem_filter.mp hq).1, ih hw⟩
    · exact ih hw

/-! ## Memory -/

variable {M : Mem} {a b n l : Nat}

theorem wf_iff : Memory.wf M = true ↔ smWf 0 M.cells = true ∧ smWf false M.poison = true := by
  simp [Memory.wf]

theorem memSetByte_wf {x : BitVec 8} (h : Memory.wf M = true) : Memory.wf (memSetByte M a x) = true :=
  wf_iff.mpr ⟨smSet_wf (wf_iff.mp h).1, (wf_iff.mp h).2⟩

theorem setPoison_wf {p : Bool} (h : Memory.wf M = true) : Memory.wf (setPoison M l p) = true :=
  wf_iff.mpr ⟨(wf_iff.mp h).1, smSet_wf (wf_iff.mp h).2⟩

theorem memStore_wf {bs : Bytes} (h : Memory.wf M = true) : Memory.wf (memStore M a bs) = true := by
  induction bs generalizing M a with
  | nil => exact h
  | cons x bs ih => exact ih (memSetByte_wf h)

theorem markLines_wf {p : Bool} {k : Nat} (h : Memory.wf M = true) : Memory.wf (markLines M a n p k) = true := by
  induction k with
  | zero => exact h
  | succ k ih =>
    simp only [markLines]
    split_ifs
    · exact setPoison_wf ih
    · exact setPoison_wf ih
    · exact ih

/-- A write keeps the canonical form. -/
theorem memWrite_wf {bs : Bytes} {p : Bool} (h : Memory.wf M = true) : Memory.wf (memWrite M a bs p) = true := by
  unfold memWrite
  split_ifs
  · exact h
  · exact markLines_wf (memStore_wf h)

theorem poisonSpan_wf (h : Memory.wf M = true) : Memory.wf (poisonSpan M a n) = true := by
  unfold poisonSpan
  split_ifs
  · exact h
  · exact markLines_wf h

/-- The write of a unit keeps the canonical form. -/
theorem write_wf {s : State} {r : Reach} {bs : Bytes} {p : Bool} (h : Memory.wf s.mem = true) :
    Memory.wf (write s r a bs p).mem = true := by
  unfold write
  split_ifs
  · exact memWrite_wf h
  · exact h

theorem markLines_cells {p : Bool} {k : Nat} : (markLines M a n p k).cells = M.cells := by
  induction k with
  | zero => rfl
  | succ k ih => simp only [markLines]; split_ifs <;> simp [setPoison, ih]

theorem memByte_memStore {bs : Bytes} (h : smWf 0 M.cells = true) :
    memByte (memStore M a bs) b = if a ≤ b ∧ b < a + bs.length then byteAt bs (b - a) else memByte M b := by
  induction bs generalizing M a with
  | nil => simp [memStore]
  | cons x bs ih =>
    have hw : smWf 0 (memSetByte M a x).cells = true := smSet_wf h
    simp only [memStore]
    rw [ih hw]
    by_cases h1 : b = a
    · subst h1
      have : ¬ (b + 1 ≤ b ∧ b < b + 1 + bs.length) := by omega
      rw [if_neg this]
      simp only [memByte, memSetByte]
      rw [smGet_smSet_self h]
      simp [byteAt]
    · have : memByte (memSetByte M a x) b = memByte M b := smGet_smSet_other h h1
      rw [this]
      by_cases h2 : a ≤ b ∧ b < a + (bs.length + 1)
      · have h3 : a + 1 ≤ b ∧ b < a + 1 + bs.length := by omega
        obtain ⟨c, rfl⟩ : ∃ c, b = a + 1 + c := ⟨b - (a + 1), by omega⟩
        simp only [if_pos h3, List.length_cons, if_pos h2, byteAt]
        rw [show a + 1 + c - (a + 1) = c by omega, show a + 1 + c - a = c + 1 by omega]
        simp
      · have h3 : ¬ (a + 1 ≤ b ∧ b < a + 1 + bs.length) := by omega
        simp only [if_neg h3, List.length_cons, if_neg h2]

/-- A byte that a write covers reads as written, and every other byte as before. -/
theorem memByte_memWrite {bs : Bytes} {p : Bool} (h : Memory.wf M = true) :
    memByte (memWrite M a bs p) b = if a ≤ b ∧ b < a + bs.length then byteAt bs (b - a) else memByte M b := by
  unfold memWrite
  by_cases h1 : bs.length = 0
  · rw [if_pos h1, if_neg (by omega)]
  · rw [if_neg h1]
    have := @memByte_memStore M a b bs (wf_iff.mp h).1
    simp only [memByte] at this
    simp only [memByte, markLines_cells, this]

end Sys2Proof.Laws
end

