-- ==== Sys2Proof/Laws/Maps.lean ====
section
/-! SUPPORT. Laws of sparse maps whose keys rise, the form that Sound asks of the maps of the state: what a read after a
set gives, and that setting, removing and changing values keep the form. -/

namespace Sys2Proof.Laws

open Sys2Proof.Machine

variable {α β : Type} {d v : α} {m : List (Nat × α)} {k j : Nat}

theorem keysRise_cons {a : Nat} {x : α} : keysRise ((a, x) :: m) = true ↔ above a m ∧ keysRise m = true := by
  induction m generalizing a x with
  | nil => simp [keysRise, above]
  | cons p m ih =>
    obtain ⟨b, y⟩ := p
    constructor
    · intro h
      simp only [keysRise, Bool.and_eq_true, decide_eq_true_eq] at h
      refine ⟨?_, h.2⟩
      intro q hq
      rcases List.mem_cons.mp hq with rfl | hq
      · exact h.1
      · exact Nat.lt_trans h.1 ((ih.mp h.2).1 q hq)
    · rintro ⟨ha, hw⟩
      simp only [keysRise, Bool.and_eq_true, decide_eq_true_eq]
      exact ⟨ha (b, y) (by simp), hw⟩

/-- A map whose keys rise is one whose canonical form may list default values too. -/
theorem keysRise_of_smWf [DecidableEq α] (h : smWf d m = true) : keysRise m = true := by
  induction m with
  | nil => rfl
  | cons p m ih =>
    obtain ⟨a, x⟩ := p
    exact keysRise_cons.mpr ⟨(smWf_cons.mp h).2.1, ih (smWf_cons.mp h).2.2⟩

/-- Setting a value keeps the keys rising. -/
theorem keysRise_smSet [DecidableEq α] (h : keysRise m = true) : keysRise (smSet d m k v) = true := by
  induction m with
  | nil => unfold smSet; split <;> rfl
  | cons p m ih =>
    obtain ⟨a, x⟩ := p
    obtain ⟨ha, hw⟩ := keysRise_cons.mp h
    unfold smSet
    split_ifs with h1 h2 h3 h4
    · exact h
    · refine keysRise_cons.mpr ⟨?_, h⟩
      intro q hq
      rcases List.mem_cons.mp hq with rfl | hq
      · exact h1
      · exact Nat.lt_trans h1 (ha q hq)
    · exact hw
    · subst h3; exact keysRise_cons.mpr ⟨ha, hw⟩
    · exact keysRise_cons.mpr ⟨above_smSet (by omega) ha, ih hw⟩

/-- A read of the key just set gives the value set. -/
theorem get_set_self [DecidableEq α] (h : keysRise m = true) : smGet d (smSet d m k v) k = v := by
  induction m with
  | nil => unfold smSet; split <;> simp_all [smGet]
  | cons p m ih =>
    obtain ⟨a, x⟩ := p
    obtain ⟨ha, hw⟩ := keysRise_cons.mp h
    unfold smSet
    split_ifs with h1 h2 h3 h4
    · have : above k ((a, x) :: m) := by
        intro q hq
        rcases List.mem_cons.mp hq with rfl | hq
        · exact h1
        · exact Nat.lt_trans h1 (ha q hq)
      rw [smGet_above this, h2]
    · simp [smGet]
    · subst h3; rw [smGet_above ha, h4]
    · simp [smGet]
    · simp [smGet, show a ≠ k by omega, ih hw]

/-- A read of another key gives what it gave before. -/
theorem get_set_other [DecidableEq α] (h : keysRise m = true) (hjk : j ≠ k) : smGet d (smSet d m k v) j = smGet d m j := by
  induction m with
  | nil => unfold smSet; split <;> simp [smGet, Ne.symm hjk]
  | cons p m ih =>
    obtain ⟨a, x⟩ := p
    obtain ⟨ha, hw⟩ := keysRise_cons.mp h
    unfold smSet
    split_ifs with h1 h2 h3 h4
    · rfl
    · simp [smGet, Ne.symm hjk]
    · subst h3; simp [smGet, Ne.symm hjk]
    · subst h3; simp [smGet, Ne.symm hjk]
    · simp only [smGet]; split_ifs
      · rfl
      · exact ih hw

theorem keysRise_filter (f : Nat × α → Bool) (h : keysRise m = true) : keysRise (m.filter f) = true := by
  induction m with
  | nil => rfl
  | cons p m ih =>
    obtain ⟨a, x⟩ := p
    obtain ⟨ha, hw⟩ := keysRise_cons.mp h
    rw [List.filter_cons]
    split_ifs
    · exact keysRise_cons.mpr ⟨fun q hq => ha q (List.mem_filter.mp hq).1, ih hw⟩
    · exact ih hw

/-- A change of the values keeps the keys. -/
theorem keysRise_map (f : Nat × α → β) (h : keysRise m = true) : keysRise (m.map (fun p => (p.1, f p))) = true := by
  induction m with
  | nil => rfl
  | cons p m ih =>
    obtain ⟨a, x⟩ := p
    obtain ⟨ha, hw⟩ := keysRise_cons.mp h
    refine keysRise_cons.mpr ⟨?_, ih hw⟩
    intro q hq
    obtain ⟨r, hr, rfl⟩ := List.mem_map.mp hq
    exact ha r hr

/-! ## Queues, ports and cores read after a write -/

theorem getCore_setCore_self {s : State} {n : Nat} {c : Core} (h : keysRise s.cores = true) : getCore (setCore s n c) n = c :=
  get_set_self h

theorem getCore_setCore_other {s : State} {n i : Nat} {c : Core} (h : keysRise s.cores = true) (hi : i ≠ n) :
    getCore (setCore s n c) i = getCore s i := get_set_other h hi

theorem counter_setCounter_self {s : State} {c : Nat} {x : BitVec 32} (h : keysRise s.cmd.counters = true) :
    counter (setCounter s c x) c = x := get_set_self h

theorem counter_setCounter_other {s : State} {c i : Nat} {x : BitVec 32} (h : keysRise s.cmd.counters = true) (hi : i ≠ c) :
    counter (setCounter s c x) i = counter s i := get_set_other h hi

end Sys2Proof.Laws
end

