-- ==== Sys2Proof/Tests/Slice0.lean ====
section
/-! SUPPORT. Tests. Each witness_<Obligation> shows that the hypotheses of that obligation are met together by a small
state, clause by clause; each test_wf theorem shows a command that WellFormed turns away. The states are built by the
helpers of the first section. Values expected come from the spec's tables and from hand calculation. -/

namespace Sys2Proof.Tests
open Sys2Proof Sys2Proof.Machine
set_option Elab.async false

/-! ## Helpers: bytes, states and the test for soundness -/

/-- `n` bytes, zero but for the little-endian fields (offset, size, value). -/
def fields (n : Nat) (l : List (Nat × Nat × Nat)) : Bytes :=
  leBytes n ((l.map (fun f => f.2.2 * 2 ^ (8 * f.1))).sum)

/-- The tests of one map each that `Sound` asks for. -/
def soundMaps (s : State) : List Bool :=
  [Memory.wf s.mem, keysRise s.cores, keysRise s.cmd.queues, keysRise s.cmd.counters, keysRise s.cr.coreAvail, keysRise s.mr.ecc,
   keysRise s.hif.wt, keysRise s.sec.mrs, keysRise s.sec.qctr, keysRise s.fw.mbxCtr, keysRise s.fab.ports, keysRise s.fab.route,
   keysRise s.fab.epochs, keysRise s.coll.busy, keysRise s.pwr.side, keysRise s.pwr.gated, keysRise s.pwr.lastUse,
   keysRise s.mr.sramBad, keysRise s.ccm.usedSram, keysRise s.ccm.usedDram, keysRise s.ccm.usedHost, keysRise s.coll.nextSeq,
   keysRise s.blink]

/-- A Bool test of `Sound`. -/
def soundB (s : State) : Bool :=
  (soundMaps s).all id && [s.hif.a, s.hif.b].all (fun x => keysRise x.msix && keysRise x.pba) &&
  s.coll.colls.all (fun c => keysRise c.joins && keysRise c.arrived) &&
  s.cores.all (fun p => [p.2.ctx0, p.2.ctx1].all (fun x => keysRise x.regs && keysRise x.masks)) &&
  s.sec.mrs.all (fun p => p.2.length == 64)

theorem sound_of {s : State} (h : soundB s = true) : Sound s := by
  simp only [soundB, Bool.and_eq_true, List.all_eq_true, beq_iff_eq, id] at h
  have each : ∀ b ∈ soundMaps s, b = true := h.1.1.1.1
  have ports := h.1.1.1.2
  constructor
  case msix => intro p; cases p <;> exact ports _ (by simp [getPort])
  case joins => exact h.1.1.2
  case contexts => exact h.1.2
  case mrLen => exact h.2
  all_goals exact each _ (by simp only [soundMaps, List.mem_cons, eq_self, true_or, or_true])

/-- A module that runs its firmware, with 64 GB of DRAM, point 2 and both links up, nothing running. -/
def on : State :=
  { State.reset with
    nowNs := 1000000000
    mr := { MemRegs.reset with memCfg := 0x00400000 }
    hif := { HifState.reset with a := { HostPortState.reset with linkUp := true, rate := 5, width := 4 }
                                 b := { HostPortState.reset with linkUp := true, rate := 5, width := 4 } }
    fw := { FwState.reset with state := 4, mbxReady := true, area := true }
    rst := { RstState.reset with supply := .on, step := 7, selftestDone := true } }

/-- A queue of port A, enabled, with 64-entry rings in host memory. -/
def queueA : Queue := { Queue.reset with owner := 1, en := true, sq := 0x10000, cq := 0x20000, db := 0x30001 }

/-- `on` with a descriptor fetched on queue 5 and bytes in memory. -/
def withDesc (d : Bytes) (mem : List (Nat × Bytes)) : State :=
  let s := setQueue on 5 { queueA with fetched := [{ uid := 9, index := 9, desc := d, arrival := 0, started := false, payload := [] }] }
  { s with mem := mem.foldl (fun m p => memWrite m p.1 p.2 false) s.mem }

/-- What `withDesc` fetched. -/
def desc9 (d : Bytes) : Fetched := { uid := 9, index := 9, desc := d, arrival := 0, started := false, payload := [] }

/-- A descriptor with an opcode and body fields. -/
def ds (op : Nat) (l : List (Nat × Nat × Nat)) : Bytes := fields 64 ((0, 2, op) :: l)

/-! ## Helpers: the fabric -/

/-- A fabric port in a state, en and retrain as given. -/
def fabPort (st : BitVec 3) (en retrain : Bool) : FabPortState :=
  let c : BitVec 64 := 0x10FFFF0000 + (if en then 1 else 0) + (if retrain then 2 else 0)
  { FabPortState.reset with st, cfg := c, act := c, credits := List.replicate 8 128, shared := 3072 }

/-- Node 1 with the router on, fabric ports as given, a route to node 2 on port 0, and the first 16 MiB of DRAM open to the
fabric. -/
def fabricOn (ports : List (Nat × FabPortState)) : State :=
  { on with fab := { on.fab with nodeId := 1, en := true, ports, route := [(2, 0x10)], joined := 0, hold := 0 }
            hif := { on.hif with wt := [(0, fields 32 [(8, 4, 0xFFF), (12, 1, 7), (13, 1, 0x3F), (14, 2, 0xFFFF)])] } }

/-- Ports 0 and 1 UP. -/
def twoUp : List (Nat × FabPortState) := [(0, fabPort 6 true true), (1, fabPort 6 true true)]

theorem get_of_all {α : Type} {d : α} {P : α → Prop} {m : List (Nat × α)} (hd : P d) (h : ∀ x ∈ m, P x.2) (k : Nat) : P (smGet d m k) := by
  induction m with
  | nil => exact hd
  | cons x m ih =>
    obtain ⟨a, y⟩ := x
    unfold smGet
    split_ifs
    · exact h (a, y) (by simp)
    · exact ih (fun z hz => h z (by simp [hz]))

/-- A test of `FabIdle`. -/
def idleB (s : State) : Bool :=
  s.fab.ports.all (fun x => x.2.queue.isEmpty) && s.fab.posts.isEmpty && s.fab.loop.isEmpty && s.fab.held.isEmpty &&
  s.hif.wtWait.isNone && s.fab.ops.all (fun o => byteAt o.desc 0 == 0x42 || s.fab.tags.any (fun t => t.owner == o.owner)) &&
  decide ((s.fab.tags.map (fun t => (t.fi, t.tag))).Nodup) && s.coll.firedOps.isEmpty

theorem idle_of {s : State} (h : idleB s = true) : FabIdle s := by
  simp only [idleB, Bool.and_eq_true, List.all_eq_true, List.isEmpty_iff, Option.isNone_iff_eq_none, decide_eq_true_eq,
    Bool.or_eq_true, List.any_eq_true, beq_iff_eq] at h
  exact { queues := get_of_all (P := fun x : FabPortState => x.queue = []) rfl (fun x hx => h.1.1.1.1.1.1.1 x hx)
          posts := h.1.1.1.1.1.1.2, loop := h.1.1.1.1.1.2, held := h.1.1.1.1.2, windowSet := h.1.1.1.2, ops := h.1.1.2
          tags := h.1.2, fired := h.2 }

/-- A test of `FabQuiet`. -/
theorem quiet_of {s : State} (h : (idleB s && s.coll.colls.all (fun c => !c.closed)) = true) : FabQuiet s := by
  simp only [Bool.and_eq_true, List.all_eq_true, Bool.not_eq_true'] at h
  exact ⟨idle_of h.1, h.2⟩

/-- A test of `WayOut`. -/
theorem wayOut_of {s : State} {node cls len q : Nat} {tagged dl : Bool} (down : Bool) (h : (!(localNode s node) &&
    routeOf s node == some q && s.fab.nodeId != 0xFFFF && hopOf s none q false false == some (dl, down) &&
    (!tagged || (freeTag s q).isSome) && creditsFor (getFab s q) (vcOf cls dl) (cdiv len 64 + 1)) = true) :
    WayOut s node cls len tagged q dl := by
  simp only [Bool.and_eq_true, Bool.not_eq_true', beq_iff_eq, bne_iff_ne, Bool.or_eq_true] at h
  exact { far := h.1.1.1.1.1, route := h.1.1.1.1.2, assigned := h.1.1.1.2, hop := ⟨down, h.1.1.2⟩
          tag := fun ht => h.1.2.resolve_left (by simp [ht]), credits := h.2 }

/-- A packet as it comes on a link: its end-to-end part built for a source node, its link part for channel `vc`. -/
def onLink (src vc : Nat) (h : PktSpec) (payload : Bytes) : Bytes := linkPart FabPortState.reset 1 vc false (buildPkt src h payload)

/-- A test of `Arrives`. -/
theorem arrives_of {s : State} {p : FabPort} {b : Bytes} {kind : Nat} (h : (portCarries s p.toNat && headerGood b && pkFtype b == 1 &&
    localNode s (pkDst b) && pkKind b == kind && kindClass kind == some (pkCls b) && s.fab.en &&
    !(channelBusy s p.toNat (pkVc b))) = true) : Arrives s p b kind := by
  simp only [Bool.and_eq_true, beq_iff_eq, Bool.not_eq_true'] at h
  exact { up := h.1.1.1.1.1.1.1, header := h.1.1.1.1.1.1.2, head := h.1.1.1.1.1.2, here := h.1.1.1.1.2, isKind := h.1.1.1.2
          cls := h.1.1.2, on := h.1.2, turn := h.2 }
/-! ## Steps and the whole machine -/

theorem sound_on : Sound on := sound_of (by decide +kernel)

/-- The next state of an outcome passes a test. -/
def nextIs (o : Res) (f : State → Bool) : Bool := match o with | .next t => f t | _ => false

theorem exists_next {o : Res} {f : State → Bool} (h : nextIs o f = true) : ∃ t, o = .next t ∧ f t = true := by
  cases o with
  | next t => exact ⟨t, rfl, h⟩
  | fault _ => cases h
  | refused _ => cases h

theorem witness_StepRunsFront : ({ on with pending := [.hotRelease] } : State).pending = .hotRelease :: [] := rfl

theorem witness_IdleStepIsANanosecond : State.reset.pending = [] ∧ on.pending = [] := ⟨rfl, rfl⟩

theorem witness_StepKeepsStateSound : Sound on ∧ ∃ t, step on = .next t := ⟨sound_on, _, rfl⟩

/-- A queue with a fetched SVN_COMMIT, the running image at svn 3. -/
def commitNow : State :=
  let s := withDesc (ds 0x0108 []) []
  { s with pending := [.svnCommit 5], sec := { s.sec with svn := 3 } }

theorem witness_MinSvnNeverFalls : ∃ t, step commitNow = .next t ∧ decide (commitNow.sec.minSvn < t.sec.minSvn) = true :=
  exists_next (by decide +kernel)

theorem witness_ProtectedStateChanges : let s := { on with sec := { on.sec with keyRevoked := 2 } }
    (∃ t, exec .hotRelease s = .next t ∧ decide (t.nowNs = s.nowNs) = true) ∧ s.sec.keyRevoked.getLsbD 1 = true :=
  ⟨exists_next (by decide +kernel), rfl⟩

/-- `on` with locked node id and designation. -/
def locked : State := { on with fab := { on.fab with nodeLock := true, bypLock := true } }

theorem witness_LocksHoldUntilModuleReset :
    (∀ kept, Instr.hotRelease ≠ .moduleRstNAssert kept) ∧ (∀ slot, Instr.hotRelease ≠ .powerOn slot) ∧
    Instr.hotRelease ≠ .inputTripRecovery ∧ (∀ loaded, Instr.hotRelease ≠ .parkedExit loaded) ∧ exitDue locked 4 = false ∧
    (∃ t, exec (.parkedExit true) locked = .next t ∧ decide (t.nowNs = locked.nowNs) = true) ∧ locked.fab.nodeLock = true ∧ locked.fab.bypLock = true ∧
    (∃ t, exec .hotRelease locked = .next t ∧ decide (t.nowNs = locked.nowNs) = true) ∧
    hostPath on .a = .served ∧ hostPath locked .a = .served ∧
    (0x8000FFEF#32).getLsbD 31 = true ∧ ¬(0xFFF0 ≤ (0x8000FFEF#32).toNat % 65536 ∧ (0x8000FFEF#32).toNat % 65536 ≤ 0xFFFE) ∧
    ¬(0xFFF0 ≤ (0x8000FFFF#32).toNat % 65536 ∧ (0x8000FFFF#32).toNat % 65536 ≤ 0xFFFE) ∧
    on.fab.nodeLock = false ∧ (sideIn on 5).asserted = false ∧ (sideIn on 5).masked = false ∧
    sideSoon on (sideIn on 5) = false :=
  ⟨by decide, by decide, by decide, (fun _ h => nomatch h), by decide +kernel, exists_next (by decide +kernel), rfl, rfl,
    exists_next (by decide +kernel), by decide +kernel⟩

theorem quiet_on : FabQuiet on := quiet_of (by decide +kernel)

theorem witness_LocksHoldUntilModuleReset_bypass : Sound on ∧ FabQuiet on := ⟨sound_on, quiet_on⟩

theorem witness_FailureLogKeepsItsEntries :
    (∃ t, exec .failureLogClear on = .next t ∧ decide (t.nowNs = on.nowNs) = true) ∧ on.err.failLog.length ≤ 8192 ∧
    (let s := { on with err := { on.err with failLog := List.replicate 4031 [] } }; 4160 < 8192 - s.err.failLog.length) ∧
    (let s := { on with err := { on.err with failLog := List.replicate 4032 [] } }; 8192 - s.err.failLog.length ≤ 4160) :=
  ⟨exists_next (by decide +kernel), by decide +kernel⟩

theorem witness_FramesWithoutStores :
    (∃ t, exec .failureLogClear on = .next t ∧ decide (t.nowNs = on.nowNs) = true) ∧ Part.mem ∉ touched .failureLogClear ∧
    Part.fw ∉ touched .failureLogClear :=
  ⟨exists_next (by decide +kernel), by decide⟩

theorem witness_FramesWithStores :
    (∃ t, exec (.patrolScrub 0 .uncorrected) on = .next t ∧ decide (t.nowNs = on.nowNs) = true) ∧
    Part.mem ∈ touched (.patrolScrub 0 .uncorrected) ∧ Part.cmd ∉ touched (.patrolScrub 0 .uncorrected) :=
  ⟨exists_next (by decide +kernel), by decide⟩

/-! ## Queues and descriptors -/

/-- Queue 5 of a state changed. -/
def tune (s : State) (f : Queue → Queue) : State := setQueue s 5 (f (getQueue s 5))

theorem witness_RecordsAreWrittenOrHeld :
    let s := withDesc (ds 0 []) []
    Sound s ∧ startDesc s 5 0x0000 = some (desc9 (ds 0 [])) ∧ (getQueue s 5).orphaned = false ∧ 0 < cqSpace (getQueue s 5) ∧
    ringLoc (getQueue s 5).cq = false ∧ ownerPort (getQueue s 5).owner = some .a :=
  ⟨sound_of (by decide +kernel), by decide +kernel⟩

theorem witness_RecordsAreWrittenOrHeld_full :
    let s := tune (withDesc (ds 0 []) []) fun q => { q with cqTail := 64 }
    Sound s ∧ startDesc s 5 0x0000 = some (desc9 (ds 0 [])) ∧ (getQueue s 5).orphaned = false ∧ cqSpace (getQueue s 5) = 0 :=
  ⟨sound_of (by decide +kernel), by decide +kernel⟩

theorem witness_RecordsAreWrittenOrHeld_orphaned :
    let r : Record := { index := 1, status := .ok, split := false, late := false, parts := 0, timestamp := 0, irq := false }
    let s := fun k => tune (withDesc (ds 0 []) []) fun q => { q with orphaned := true, held := List.replicate k r }
    (Sound (s 63) ∧ startDesc (s 63) 5 0x0000 = some (desc9 (ds 0 [])) ∧ (getQueue (s 63) 5).orphaned = true ∧
      (getQueue (s 63) 5).held.length < 64) ∧
    (Sound (s 64) ∧ startDesc (s 64) 5 0x0000 = some (desc9 (ds 0 [])) ∧ (getQueue (s 64) 5).orphaned = true ∧
      64 ≤ (getQueue (s 64) 5).held.length) :=
  ⟨⟨sound_of (by decide +kernel), by decide +kernel⟩, sound_of (by decide +kernel), by decide +kernel⟩

/-- The fabric on, with queue 5 as given and a NOP fetched on it. -/
def fabricNop (q : Queue) : State := setQueue (fabricOn twoUp) 5 { q with fetched := [desc9 (ds 0 [])] }

/-- Queue 5 with its rings and doorbell word in this module's memory, and in that of node 2. -/
def localQueue : Queue := { queueA with sq := 0xFFFF000000010010, cq := 0xFFFF000000020010, db := 0xFFFF000000030000 }
def peerQueue : Queue := { queueA with sq := 0x0002000000010010, cq := 0x0002000000020010, db := 0x0002000000030000 }

theorem witness_RecordsAreWrittenOrHeld_loc :
    (let s := fabricNop localQueue
     Sound s ∧ startDesc s 5 0x0000 = some (desc9 (ds 0 [])) ∧ (getQueue s 5).orphaned = false ∧ (getQueue s 5).held = [] ∧
     0 < cqSpace (getQueue s 5) ∧ ringLoc (getQueue s 5).cq = true ∧ localNode s (gNode 0xFFFF000000020000) = true ∧
     cmdGrants s true (gLocal 0xFFFF000000020000) 16 = true ∧ canAccess s .dram (gLocal 0xFFFF000000020000) 16 = true ∧
     cmdGrants { s with hif := on.hif } true (gLocal 0xFFFF000000020000) 16 = false) ∧
    (let s := fabricNop peerQueue
     Sound s ∧ startDesc s 5 0x0000 = some (desc9 (ds 0 [])) ∧ ringLoc (getQueue s 5).cq = true ∧ 0 < cqSpace (getQueue s 5) ∧
     FabIdle s ∧ WayOut s (gNode 0x0002000000020000) 0 16 false 0 false) :=
  ⟨⟨sound_of (by decide +kernel), by decide +kernel⟩, sound_of (by decide +kernel), by decide +kernel, by decide +kernel,
    by decide +kernel, idle_of (by decide +kernel), wayOut_of false (by decide +kernel)⟩

theorem witness_QueueContextWrites :
    let s := setQueue (setQueue on 5 { queueA with en := false }) 6 queueA
    Sound s ∧ hostPath s .a = .served ∧ (getQueue s 255).owner = 0 ∧
    ((getQueue s 5).owner = portOwner .a ∧ (getQueue s 5).en = false ∧ (getQueue s 5).held = [] ∧ s.cmd.dbReads.contains 5 = false ∧
      peerDoorbell s (getQueue s 5) = false) ∧
    (getQueue s 6).owner = portOwner .a ∧ (getQueue s 6).en = true :=
  ⟨sound_of (by decide +kernel), by decide +kernel⟩

theorem witness_QueueContextWrites_peer :
    let s := setQueue (fabricOn twoUp) 5 { peerQueue with en := false }
    Sound s ∧ hostPath s .a = .served ∧ (getQueue s 5).owner = portOwner .a ∧ (getQueue s 5).en = false ∧ (getQueue s 5).held = [] ∧
    s.cmd.dbReads.contains 5 = false ∧ peerDoorbell s (getQueue s 5) = true ∧ FabIdle s ∧
    WayOut s (gNode (dbAddr (getQueue s 5).db)) 0 0 true 0 false :=
  ⟨sound_of (by decide +kernel), by decide +kernel, by decide +kernel, by decide +kernel, by decide +kernel, by decide +kernel,
    by decide +kernel, idle_of (by decide +kernel), wayOut_of false (by decide +kernel)⟩

/-- Queue 5 of port A with a doorbell read out. -/
def belled : State := let s := setQueue on 5 queueA; { s with cmd := { s.cmd with dbReads := [5] } }

theorem witness_DoorbellsAndFetch :
    let s := setQueue on 5 queueA
    Sound s ∧ hostPath s .a = .served ∧ s.pwr.entry = none ∧ (getQueue s 5).owner = portOwner .a ∧ (getQueue s 5).en = true ∧
    (getQueue s 5).orphaned = false ∧ s.cmd.dbReads.contains 5 = false ∧ peerDoorbell s (getQueue s 5) = false ∧
    s.cmd.lastPoll + 1000 * max 1 (s.cmd.cfg.toNat % 4096) ≤ s.nowNs ∧ (getQueue s 5).db.getLsbD 0 = true :=
  ⟨sound_of (by decide +kernel), by decide +kernel⟩

theorem witness_DoorbellsAndFetch_word :
    Sound belled ∧ belled.cmd.dbReads.contains 5 = true ∧ (getQueue belled 5).en = true ∧ (getQueue belled 5).orphaned = false ∧
    ringLoc (getQueue belled 5).sq = false ∧ (getQueue belled 5).held = [] ∧
    ((64#64).setWidth 32 - (getQueue belled 5).head).toNat ≤ ringLen (getQueue belled 5).sq ∧
    ((getQueue belled 5).cqTail - ((64#64) >>> 32).setWidth 32).toNat ≤ ringLen (getQueue belled 5).cq :=
  ⟨sound_of (by decide +kernel), by decide +kernel⟩

theorem witness_DoorbellsAndFetch_error :
    ringLen (getQueue belled 5).sq < ((65#64).setWidth 32 - (getQueue belled 5).head).toNat ∧
    ringLen (getQueue belled 5).cq < ((getQueue belled 5).cqTail - ((0x100000000#64) >>> 32).setWidth 32).toNat := by decide +kernel

theorem witness_DoorbellsAndFetch_fetch :
    let s := setQueue on 5 { queueA with tail := 1 }
    Sound s ∧ quiescing s = false ∧ cmdReady s = true ∧ 0 < fetchable (getQueue s 5) ∧ ringLoc (getQueue s 5).sq = false ∧
    (ds 0 []).length = 64 ∧ dsKeyed (ds 0 []) = false ∧ keyNeed (dsOp (ds 0 [])) = 0 ∧ descCheck (getQueue s 5) (ds 0 []) = none :=
  ⟨sound_of (by decide +kernel), by decide +kernel⟩

theorem witness_DoorbellsAndFetch_local :
    let s := setQueue (fabricOn twoUp) 5 { localQueue with tail := 1 }
    let r := { s with cmd := { s.cmd with dbReads := [5] } }
    Sound r ∧ ringLoc (getQueue r 5).sq = true ∧ (getQueue r 5).en = true ∧ (getQueue r 5).orphaned = false ∧ (getQueue r 5).held = [] ∧
    peerDoorbell r (getQueue r 5) = false ∧ r.cmd.dbReads.contains 5 = true ∧
    cmdGrants { r with hif := on.hif } false (gLocal (dbAddr (getQueue r 5).db)) 8 = false ∧
    cmdGrants r false (gLocal (dbAddr (getQueue r 5).db)) 8 = true ∧ region (gLocal (dbAddr (getQueue r 5).db)) = .dram ∧
    (read r .dram (gLocal (dbAddr (getQueue r 5).db)) 8).err = none ∧ memRead r.mem (gLocal (dbAddr (getQueue r 5).db)) 8 = zeroBytes 8 ∧
    quiescing s = false ∧ cmdReady s = true ∧ fetchable (getQueue s 5) = 1 ∧ peerRing s (getQueue s 5) = false ∧
    cmdGrants s false (gLocal 0xFFFF000000010000) 64 = true ∧ (read s .dram (gLocal 0xFFFF000000010000) 64).err = none ∧
    (ringBase (getQueue s 5).sq = 0xFFFF000000010000 ∧ memRead s.mem (gLocal 0xFFFF000000010000) 64 = ds 0 []) ∧
    descCheck (getQueue s 5) (ds 0 []) = none :=
  ⟨sound_of (by decide +kernel), by decide +kernel⟩

theorem witness_DoorbellsAndFetch_peer :
    let s := setQueue (fabricOn twoUp) 5 { peerQueue with tail := 1 }
    let got := fun (desc : Bool) (n : Nat) =>
      { s with cmd := { s.cmd with peerData := [{ queue := 5, desc, data := zeroBytes n, poison := 0 }] } }
    (Sound s ∧ hostPath s .a = .served ∧ s.pwr.entry = none ∧ peerDoorbell s (getQueue s 5) = true ∧ peerBusy s 5 false = false ∧
      FabIdle s ∧ WayOut s (gNode (dbAddr (getQueue s 5).db)) 0 0 true 0 false) ∧
    (Sound (got false 8) ∧ peerDoorbell (got false 8) (getQueue (got false 8) 5) = true ∧
      (takePeer (got false 8) 5 false).2 = some { queue := 5, desc := false, data := zeroBytes 8, poison := 0 }) ∧
    (Sound (got true 64) ∧ quiescing s = false ∧ cmdReady s = true ∧ fetchable (getQueue s 5) = 1 ∧ peerRing s (getQueue s 5) = true ∧
      (takePeer (got true 64) 5 true).2 = some { queue := 5, desc := true, data := zeroBytes 64, poison := 0 }) ∧
    (takePeer s 5 true).2 = none ∧ peerBusy s 5 true = false ∧ WayOut s (gNode 0x0002000000010000) 0 0 true 0 false :=
  ⟨⟨sound_of (by decide +kernel), by decide +kernel, by decide +kernel, by decide +kernel, by decide +kernel,
      idle_of (by decide +kernel), wayOut_of false (by decide +kernel)⟩,
    ⟨sound_of (by decide +kernel), by decide +kernel⟩, ⟨sound_of (by decide +kernel), by decide +kernel⟩,
    by decide +kernel, by decide +kernel, wayOut_of false (by decide +kernel)⟩

/-- The first 48 bytes of a keyed NOP with a counter. -/
def keyedTop (ctr : Nat) : Bytes := fields 48 [(2, 1, 1), (8, 8, ctr)]

/-- A keyed NOP of queue 5 with its tag under key [9] (R508). -/
def keyedNop (ctr : Nat) : Bytes := keyedTop ctr ++ descTag [9] 5 (keyedTop ctr) []

/-- Queue 5 about to fetch, ROOT installed or no key. -/
def toFetch (key : Option Bytes) : State := { setQueue on 5 { queueA with tail := 1 } with sec := { on.sec with rootKey := key } }

theorem keyedTop_length (ctr : Nat) : (keyedTop ctr).length = 48 := Laws.leBytes_length _ _

theorem keyedNop_byte (ctr i : Nat) (h : i < 48) : byteAt (keyedNop ctr) i = byteAt (keyedTop ctr) i := by
  simp only [byteAt, keyedNop]; rw [List.getD_append _ _ _ _ (by rw [keyedTop_length]; exact h)]

theorem keyedNop_le (ctr i n : Nat) (h : i + n ≤ 48) : le (keyedNop ctr) i n = le (keyedTop ctr) i n := by
  simp only [le, keyedNop]
  rw [List.drop_append_of_le_length (by rw [keyedTop_length]; omega),
    List.take_append_of_le_length (by rw [List.length_drop, keyedTop_length]; omega)]

theorem leNat_lt (b : Bytes) : leNat b < 2 ^ (8 * b.length) := by
  induction b with
  | nil => decide
  | cons x b ih =>
    have hx := x.isLt
    have hp : (2 : Nat) ^ (8 * (b.length + 1)) = 256 * 2 ^ (8 * b.length) := by rw [Nat.mul_add, Nat.pow_add]; omega
    simp only [leNat, List.length_cons, hp]; omega

theorem leNat_append (a b : Bytes) : leNat (a ++ b) = leNat a + 2 ^ (8 * a.length) * leNat b := by
  induction a with
  | nil => simp [leNat]
  | cons x a ih =>
    have hp : (2 : Nat) ^ (8 * (a.length + 1)) = 256 * 2 ^ (8 * a.length) := by rw [Nat.mul_add, Nat.pow_add]; omega
    simp only [List.cons_append, leNat, ih, List.length_cons, hp]; ring

/-- A layout whose last field is `k` whole bytes takes any bytes there. -/
theorem reservedZero_append {a b : Bytes} {used : List (Nat × Nat)} (ha : reservedZero a used = true)
    (hb : ∀ i < 8 * b.length, (used.foldl (fun m (u : Nat × Nat) => m ||| ((2 ^ u.2 - 1) <<< u.1)) 0).testBit (8 * a.length + i) = true) :
    reservedZero (a ++ b) used = true := by
  simp only [reservedZero, beq_iff_eq] at ha ⊢
  generalize used.foldl (fun m (u : Nat × Nat) => m ||| ((2 ^ u.2 - 1) <<< u.1)) 0 = m at ha hb ⊢
  rw [leNat_append, Nat.add_comm]
  refine Nat.eq_of_testBit_eq fun i => ?_
  rw [Nat.testBit_and, Nat.testBit_two_pow_mul_add _ (leNat_lt a)]
  split
  · rw [← Nat.testBit_and, ha]
  · rcases Nat.lt_or_ge (i - 8 * a.length) (8 * b.length) with h | h
    · have := hb _ h; rw [Nat.add_sub_cancel' (by omega)] at this; rw [this, Bool.and_true]
    · rw [Nat.testBit_lt_two_pow (Nat.lt_of_lt_of_le (leNat_lt b) (Nat.pow_le_pow_right (by decide) h)), Bool.false_and]

theorem keyedTop_facts : ∀ ctr ≤ 1, dsKeyed (keyedTop ctr) = true ∧ dsOp (keyedTop ctr) = 0 ∧ dsCounter (keyedTop ctr) = ctr ∧
    reservedZero (keyedTop ctr) [fld 0 2, fldBits 2 0 3, fld 8 8, fld 48 16] = true := by decide +kernel

theorem tag_of_top (key d e : Bytes) (n : Nat) (h : d.take 48 = e.take 48) : descTag key n d [] = descTag key n e [] := by
  rw [descTag, descTag, h]

theorem keyedNop_tag_length (ctr : Nat) : (descTag [9] 5 (keyedTop ctr) []).length = 16 := Laws.kmac256_length _ _ _ _

theorem keyedNop_tag (ctr : Nat) : descTag [9] 5 (keyedNop ctr) [] = dsTag (keyedNop ctr) := by
  rw [dsTag, keyedNop, List.drop_left' (keyedTop_length ctr), List.take_of_length_le (Nat.le_of_eq (keyedNop_tag_length ctr))]
  refine tag_of_top _ _ _ _ ?_
  rw [List.take_left' (keyedTop_length ctr), List.take_of_length_le (Nat.le_of_eq (keyedTop_length ctr))]

/-- A keyed NOP whose bits lie in its fields passes. -/
theorem nop_check (q : Queue) (d : Bytes) (hk : dsKeyed d = true) (ho : dsOp d = 0)
    (hz : reservedZero d [fld 0 2, fldBits 2 0 3, fld 8 8, fld 48 16] = true) : descCheck q d = none := by
  simp [descCheck, ho, hk, hz, bodyFields, kindAllows, firstFail, failIf]

theorem witness_DoorbellsAndFetch_keys :
    (Sound (toFetch none) ∧ quiescing (toFetch none) = false ∧ cmdReady (toFetch none) = true ∧ 0 < fetchable (getQueue (toFetch none) 5) ∧
      ringLoc (getQueue (toFetch none) 5).sq = false ∧ (toFetch none).sec.rootKey = none ∧ (toFetch none).sec.opKey = none ∧
      (getQueue (toFetch none) 5).fetched.all (fun g => g.uid != (toFetch none).cmd.nextUid) = true) ∧
    ((ds 0x0108 []).length = 64 ∧ dsKeyed (ds 0x0108 []) = false ∧ keyNeed (dsOp (ds 0x0108 [])) ≠ 0) ∧
    (Sound (toFetch (some [9])) ∧ (toFetch (some [9])).sec.rootKey = some [9] ∧
      (smGet 0 (toFetch (some [9])).sec.qctr 5).toNat = 0 ∧ getQueue (toFetch (some [9])) 5 = getQueue (toFetch none) 5) ∧
    ∀ ctr ≤ 1, (keyedNop ctr).length = 64 ∧ dsKeyed (keyedNop ctr) = true ∧ dsOp (keyedNop ctr) = 0 ∧ dsCounter (keyedNop ctr) = ctr ∧
      descTag [9] 5 (keyedNop ctr) [] = dsTag (keyedNop ctr) ∧ descCheck (getQueue (toFetch none) 5) (keyedNop ctr) = none := by
  refine ⟨⟨sound_of (by decide +kernel), by decide +kernel⟩, by decide +kernel, ⟨sound_of (by decide +kernel), by decide +kernel⟩,
    fun ctr hc => ?_⟩
  obtain ⟨h1, h2, h3, h4⟩ := keyedTop_facts ctr hc
  have hk : dsKeyed (keyedNop ctr) = true := by simpa only [dsKeyed, flag, keyedNop_byte ctr 2 (by decide)] using h1
  have ho : dsOp (keyedNop ctr) = 0 := by simpa only [dsOp, keyedNop_le ctr 0 2 (by decide)] using h2
  exact ⟨by rw [keyedNop, List.length_append, keyedTop_length, keyedNop_tag_length], hk, ho,
    by simpa only [dsCounter, keyedNop_le ctr 8 8 (by decide)] using h3, keyedNop_tag ctr,
    nop_check _ _ hk ho (reservedZero_append h4 (by rw [keyedNop_tag_length, keyedTop_length]; decide +kernel))⟩
/-! ## Security and the platform's descriptors -/

/-- A SVN_COMMIT, an MR_EXTEND and an ATTEST that start. -/
theorem witness_MeasurementsAndQuote :
    (let s := withDesc (ds 0x0108 []) []
     Sound s ∧ startDesc s 5 0x0108 = some (desc9 (ds 0x0108 []))) ∧
    (let s := withDesc (ds 0x0109 [(16, 6, 0x1000)]) []
     Sound s ∧ startDesc s 5 0x0109 = some (desc9 (ds 0x0109 [(16, 6, 0x1000)])) ∧ secAddr (ds 0x0109 [(16, 6, 0x1000)]) % 64 = 0 ∧
     (read s .dram (secAddr (ds 0x0109 [(16, 6, 0x1000)])) 64).err = none) ∧
    (let d := ds 0x0100 [(16, 6, 0x1000)]
     let s := { withDesc d [] with sec := { on.sec with aliasKey := true } }
     Sound s ∧ startDesc s 5 0x0100 = some (desc9 d) ∧ secAddr d % 64 = 0 ∧ canAccess s .dram (secAddr d) 5120 = true ∧
     s.sec.opened = false ∧ s.sec.aliasKey = true ∧ d.length = 64) ∧
    (let s := { withDesc (ds 0x0100 []) [] with sec := { on.sec with opened := true } }
     Sound s ∧ startDesc s 5 0x0100 = some (desc9 (ds 0x0100 [])) ∧ s.sec.opened = true ∧ secAddr (ds 0x0100 []) % 64 = 0 ∧
     canAccess s .dram (secAddr (ds 0x0100 [])) 5120 = true) :=
  ⟨⟨sound_of (by decide +kernel), by decide +kernel⟩, ⟨sound_of (by decide +kernel), by decide +kernel⟩,
    ⟨sound_of (by decide +kernel), by decide +kernel⟩, sound_of (by decide +kernel), by decide +kernel⟩

/-- OWNER_CLAIM of a free and of an owned module; a rotation with a wrong block; key slots. -/
theorem witness_OwnershipAndKeySlots :
    (let s := withDesc (ds 0x0101 []) []
     Sound s ∧ startDesc s 5 0x0101 = some (desc9 (ds 0x0101 [])) ∧ s.sec.owner = none ∧ secAddr (ds 0x0101 []) % 64 = 0 ∧
     (read s .dram (secAddr (ds 0x0101 [])) 1952).err = none) ∧
    (let s := { withDesc (ds 0x0101 []) [] with sec := { on.sec with owner := some [1] } }
     Sound s ∧ startDesc s 5 0x0101 = some (desc9 (ds 0x0101 [])) ∧ s.sec.owner.isSome = true) ∧
    (let s := withDesc (ds 0x0102 []) []
     startDesc s 5 0x0102 = some (desc9 (ds 0x0102 [])) ∧ secAddr (ds 0x0102 []) % 64 = 0 ∧
     (read s .dram (secAddr (ds 0x0102 [])) 5376).err = none ∧ rotateGood s (memRead s.mem (secAddr (ds 0x0102 [])) 5376) = false) ∧
    (let s := withDesc (ds 0x0103 []) []
     startDesc s 5 0x0103 = some (desc9 (ds 0x0103 [])) ∧ secAddr (ds 0x0103 []) % 64 = 0 ∧
     (read s .dram (secAddr (ds 0x0103 [])) 4480).err = none ∧ installKey s (memRead s.mem (secAddr (ds 0x0103 [])) 4480) = none) ∧
    (let d := ds 0x0104 [(16, 1, 1)]
     startDesc (withDesc d []) 5 0x0104 = some (desc9 d) ∧ (byteAt d 16).toNat = 1) :=
  ⟨⟨sound_of (by decide +kernel), by decide +kernel⟩, ⟨sound_of (by decide +kernel), by decide +kernel⟩, by decide +kernel,
    by decide +kernel, by decide +kernel⟩

/-- An owned module with a rotation block in memory at 0: the block's magic and owner_seq 1. -/
def rotation : State :=
  { withDesc (ds 0x0102 []) [(0, fields 20 [(0, 4, 0x5A4F5231), (16, 4, 1)])] with sec := { on.sec with owner := some [1] } }

/-- Where the serial is 0 and signatures verify, the block is accepted. -/
theorem witness_OwnershipAndKeySlots_rotate (h1 : Config.deviceSerial = 0) (h2 : ∀ k m c g, Config.mldsaVerify k m c g = true) :
    Sound rotation ∧ startDesc rotation 5 0x0102 = some (desc9 (ds 0x0102 [])) ∧
    (read rotation .dram (secAddr (ds 0x0102 [])) 5376).err = none ∧
    rotateGood rotation (memRead rotation.mem (secAddr (ds 0x0102 [])) 5376) = true := by
  refine ⟨sound_of (by decide +kernel), by decide +kernel, by decide +kernel, ?_⟩
  have ho : rotation.sec.owner = some [1] := rfl
  simp only [rotateGood, ho, blockForm, h1, h2, Bool.and_true]
  decide +kernel

/-- The same for a KEY_INSTALL of slot 1. -/
theorem witness_OwnershipAndKeySlots_install (h1 : Config.deviceSerial = 0) (h2 : ∀ k m c g, Config.mldsaVerify k m c g = true)
    (h3 : ∀ n c, Config.mlkemDecap n c = some [7]) :
    let s := { withDesc (ds 0x0103 []) [(0, fields 8 [(0, 4, 0x5A4B4931), (4, 1, 1)])] with sec := { on.sec with owner := some [1] } }
    Sound s ∧ startDesc s 5 0x0103 = some (desc9 (ds 0x0103 [])) ∧ secAddr (ds 0x0103 []) % 64 = 0 ∧
    (read s .dram (secAddr (ds 0x0103 [])) 4480).err = none ∧
    ∃ k, installKey s (memRead s.mem (secAddr (ds 0x0103 [])) 4480) = some k := by
  intro s
  refine ⟨sound_of (by decide +kernel), by decide +kernel, by decide +kernel, by decide +kernel, ?_⟩
  have ho : s.sec.owner = some [1] := rfl
  simp only [installKey, ho, blockForm, h1, h2, h3, Bool.and_true]
  exact ⟨_, if_pos (by decide +kernel)⟩

/-- An entry of the Window Table that `entryCheck` takes: DRAM, one page. -/
theorem witness_WindowSetWritesTheTable :
    let d := ds 0x0105 [(24, 2, 1023)]
    let f : Fetched := { desc9 d with payload := zeroBytes 32 }
    let s := setQueue on 5 { queueA with fetched := [f] }
    let t := { s with fab := { s.fab with nextId := 1, posts := [{ id := 0, at_ := 0, src := none, fi := 0, packet := [], targets := [] }] } }
    Sound s ∧ s.hif.wtWait = none ∧ startDesc s 5 0x0105 = some f ∧ getDesc s 5 f.uid = some f ∧ wsCheck f = none ∧ oldLines s s.fab.nextId = false ∧
    Sound t ∧ startDesc t 5 0x0105 = some f ∧ oldLines t t.fab.nextId = true :=
  ⟨sound_of (by decide +kernel), by decide +kernel, by decide +kernel, by decide +kernel, by decide +kernel, by decide +kernel,
    sound_of (by decide +kernel), by decide +kernel⟩

theorem witness_WindowSetWritesTheTable_refused :
    let d := ds 0x0105 [(22, 1, 1), (24, 2, 1023)]
    Sound (withDesc d []) ∧ startDesc (withDesc d []) 5 0x0105 = some (desc9 d) ∧
    getDesc (withDesc d []) 5 9 = some (desc9 d) ∧ wsCheck (desc9 d) = some .badField :=
  ⟨sound_of (by decide +kernel), by decide +kernel⟩

/-- The connector opened at level 2 with a challenge out, and at VENDOR_OPEN. -/
def opened (svc level : BitVec 2) : State :=
  { on with sec := { on.sec with svc := svc, svcLevel := level, svcEnd := 5, challenge := some [1] } }

theorem witness_ConnectorAndVendor :
    (let d := ds 0x0106 [(16, 1, 2), (18, 2, 1440)]
     Sound (withDesc d []) ∧ startDesc (withDesc d []) 5 0x0106 = some (desc9 d) ∧ (withDesc d []).sec.svc = 0 ∧
     field d 16 0 2 = 2 ∧ le d 18 2 = 1440) ∧
    (Sound (withDesc (ds 0x0107 []) []) ∧ startDesc (withDesc (ds 0x0107 []) []) 5 0x0107 = some (desc9 (ds 0x0107 []))) ∧
    (Sound (opened 1 2) ∧ (opened 1 2).sec.svc ≠ 0 ∧ (opened 1 2).sec.svcEnd ≤ (opened 1 2).nowNs ∧ (opened 1 2).rst.supply ≠ .off ∧
      (opened 1 2).sec.challenge = some [1] ∧ (opened 1 2).sec.svcLevel = 2) ∧
    (opened 1 1).sec.svcLevel = 1 ∧ (opened 2 2).sec.svc = 2 :=
  ⟨⟨sound_of (by decide +kernel), by decide +kernel⟩, ⟨sound_of (by decide +kernel), by decide +kernel⟩,
    ⟨sound_of (by decide +kernel), by decide +kernel⟩, by decide, by decide⟩

theorem witness_ConnectorAndVendor_challenge (h : ∀ k m c g, Config.mldsaVerify k m c g = true) :
    Config.mldsaVerify Config.serviceKey ([1] ++ serialBytes) (ascii "ZV-OM4096 SVC") [] = true := h _ _ _ _

/-- `withDesc` with the slot table on at 0x100000, its header at the committed step given. -/
def withTable (d : Bytes) (committed : Nat) : State :=
  { withDesc d [(0x100000, leBytes 4 committed)] with
    trn := { on.trn with slotBase := 0x100001, committed := BitVec.ofNat 32 committed } }

theorem witness_CommitCopyAndReassign_flip :
    let d := fun v => ds 0x0010 [(16, 4, v)]
    (∀ v ∈ [8, 7 + 2 ^ 31 - 1], Sound (withTable (d v) 7) ∧ startDesc (withTable (d v) 7) 5 0x0010 = some (desc9 (d v)) ∧
      trnEn (withTable (d v) 7) = true ∧ updateRuns (withTable (d v) 7) = false ∧
      1 ≤ (v + 2 ^ 32 - 7) % 2 ^ 32 ∧ (v + 2 ^ 32 - 7) % 2 ^ 32 < 2 ^ 31 ∧
      (read (withTable (d v) 7) .dram (slotTab (withTable (d v) 7)) 8).err = none ∧
      ∀ i < 8, ∀ p ∈ recordSpan (withTable (d v) 7) 5, ¬(p.1 ≤ slotTab (withTable (d v) 7) + i ∧
        slotTab (withTable (d v) 7) + i < p.1 + p.2)) ∧
    (startDesc (withTable (d 7) 7) 5 0x0010 = some (desc9 (d 7)) ∧ (7 + 2 ^ 32 - (withTable (d 7) 7).trn.committed.toNat) % 2 ^ 32 = 0) ∧
    startDesc (withTable (d 0) 7) 5 0x0010 = some (desc9 (d 0)) ∧
    2 ^ 31 ≤ (0 + 2 ^ 32 - (withTable (d 0) 7).trn.committed.toNat) % 2 ^ 32 := by
  intro d
  refine ⟨fun v hv => ⟨sound_of ?_, ?_⟩, by decide +kernel⟩
  · revert v; decide +kernel
  · revert v; decide +kernel

theorem witness_CommitCopyAndReassign_rollback :
    let s := withTable (ds 0x0011 []) 7
    let t := withDesc (ds 0x0011 []) []
    Sound s ∧ startDesc s 5 0x0011 = some (desc9 (ds 0x0011 [])) ∧ trnEn s = true ∧ updateRuns s = false ∧
    slotErr s 1 = none ∧ (getSlot s 1).frozen = false ∧ (getSlot s 1).broken = none ∧ startDesc t 5 0x0011 = some (desc9 (ds 0x0011 [])) ∧ trnEn t = false :=
  ⟨sound_of (by decide +kernel), by decide +kernel⟩

theorem witness_CommitCopyAndReassign_copy :
    let d := ds 0x0003 [(16, 8, 0x5000), (24, 8, 0x9000), (32, 4, 64)]
    let out := ds 0x0003 [(16, 8, 0x9000), (24, 8, 0x5000), (32, 4, 64), (36, 1, 1)]
    let bad := ds 0x0003 [(32, 4, 63)]
    let s := withDesc d []
    let run := fun d => tune (withDesc d []) fun q => { q with fetched := [{ desc9 d with started := true }] }
    let host : List HostLine := [{ addr := 0x5000, data := some (zeroBytes 64) }]
    (Sound s ∧ startDesc s 5 0x0003 = some (desc9 d) ∧ getDesc s 5 9 = some (desc9 d) ∧ copyCheck s d = none) ∧
    (startDesc (withDesc bad []) 5 0x0003 = some (desc9 bad) ∧ copyCheck (withDesc bad []) bad = some .badField) ∧
    (Sound (run d) ∧ findStarted (run d) 5 0x0003 9 = some { desc9 d with started := true } ∧
      ownerPort (getQueue (run d) 5).owner = some .a ∧ (getPort (run d) .a).linkUp = true ∧ (getPort (run d) .a).lost = false ∧
      (copyParm d).out = false ∧ 0 < (copyParm d).len ∧ (copyParm d).len % 64 = 0 ∧
      hostBytes host (copyParm d).src (copyParm d).len = some (zeroBytes 64) ∧
      canAccess (run d) .dram (gLocal (copyParm d).dst) (copyParm d).len = true) ∧
    findStarted (run out) 5 0x0003 9 = some { desc9 out with started := true } ∧ (copyParm out).out = true ∧
    (run out).mr.dramErr = [] ∧ (copyParm out).len % 64 = 0 ∧ (copyParm out).dst % 64 = 0 ∧
    (read (run out) .dram (gLocal (copyParm out).src) (copyParm out).len).err = none :=
  ⟨⟨sound_of (by decide +kernel), by decide +kernel⟩, by decide +kernel,
    ⟨sound_of (by decide +kernel), by decide +kernel⟩, by decide +kernel⟩

theorem witness_CommitCopyAndReassign_reassign :
    let d := ds 0x0020 [(16, 1, 6), (17, 1, 1)]
    let e := ds 0x0020 [(16, 1, 6)]
    let s := setQueue (withDesc e []) 6 { queueA with owner := 2 }
    let t := { s with hif := { s.hif with b := { s.hif.b with lost := true } } }
    (Sound (withDesc d []) ∧ startDesc (withDesc d []) 5 0x0020 = some (desc9 d) ∧ flag d 17 0 = true) ∧
    (Sound s ∧ startDesc s 5 0x0020 = some (desc9 e) ∧ ownerLost s (getQueue s 6) = false ∧ flag e 17 0 = false) ∧
    startDesc t 5 0x0020 = some (desc9 e) ∧ ownerLost t (getQueue t 6) = true :=
  ⟨⟨sound_of (by decide +kernel), by decide +kernel⟩, ⟨sound_of (by decide +kernel), by decide +kernel⟩, by decide +kernel⟩
/-! ## Streams, phases and services -/

/-- A result passes a test. -/
def okIs {α : Type} (e : Except Status α) (f : α → Bool) : Bool := match e with | .ok p => f p | .error _ => false

theorem exists_ok {α : Type} {e : Except Status α} {f : α → Bool} (h : okIs e f = true) : ∃ p, e = .ok p ∧ f p = true := by
  cases e with
  | ok p => exact ⟨p, rfl, h⟩
  | error _ => cases h

/-- A stream of `phases` phases at 0x2000 that uses core 0 and counters 100 to 103; phase 0 has a list of two ops for core 0
and none for I/O. -/
def streamMem (phases : Nat) : List (Nat × Bytes) :=
  [(0x2000, fields 52 [(0, 4, 0x5A435331), (4, 2, 0x100), (8, 4, phases - 1), (16, 6, 0x2400), (24, 6, 0x2100), (32, 6, 0x2200),
     (40, 6, 0x2300), (48, 2, 100), (50, 2, 4)]),
   (0x2200, fields 30 [(24, 6, 0x2600)]), (0x2400, [1]), (0x2600, fields 16 [(0, 2, 1), (10, 2, 1), (12, 4, 0x100)])]

/-- The header bytes of that stream. -/
def streamHdr (phases : Nat) : Bytes := fields 64 [(0, 4, 0x5A435331), (4, 2, 0x100), (8, 4, phases - 1), (16, 6, 0x2400),
  (24, 6, 0x2100), (32, 6, 0x2200), (40, 6, 0x2300), (48, 2, 100), (50, 2, 4)]

/-- The stream as admitted, on queue 7's descriptor with the number 3. -/
def runOf (phases : Nat) : StreamRun :=
  { queue := some (7, 3), svc := none, hdr := streamHdr phases, steps := [zeroBytes 64], coreMap := 1, nextPhase := 0, running := [],
    done := [], stop := none, stopBy := [] }

/-- A phase with nothing left to do, or with core 0 at work. -/
def phaseOf (cores : List Nat) : PhaseRun :=
  { num := 0, record := fields 64 [(14, 2, 2), (16, 6, 0x2800)], stepIdx := 0, rung := 0, ladderEntry := none, ladder := [], cores,
    io := [], ioNext := if cores.isEmpty then 2 else 0, stop := none, stopBy := [], seen := [], samples := 0,
    errMax := 0, exceed := false, pins := [], slots := [], old := false, late := false, binds := [], trnSlot := 0, trnMb := 0,
    trnStep := 0, started := 0, paused := 0, pausedAt := none, wdMs := 999 }

/-- `withDesc` with that stream's records in memory, and stream 0 running. -/
def streaming (d : Bytes) (r : List (Nat × StreamRun)) : State :=
  let s := withDesc d (streamMem 2)
  { s with cmd := { s.cmd with streams := r } }

/-- A RUN_STREAM of the stream at 0x2000. -/
def runDesc : Bytes := ds 0x0001 [(16, 6, 0x2000)]

theorem witness_StreamsAndPhases_run :
    (Sound (streaming runDesc []) ∧ startDesc (streaming runDesc []) 5 0x0001 = some (desc9 runDesc) ∧
      ∃ p, runCheck (streaming runDesc []) (le runDesc 16 6) = .ok p ∧ admits (streaming runDesc []) p = true) ∧
    (∃ p, runCheck (streaming runDesc [(0, runOf 2)]) (le runDesc 16 6) = .ok p ∧
      (!admits (streaming runDesc [(0, runOf 2)]) p) = true) ∧
    (let s := withDesc (ds 0x0001 []) []
     startDesc s 5 0x0001 = some (desc9 (ds 0x0001 [])) ∧ okIs (runCheck s (le (ds 0x0001 []) 16 6)) (fun _ => true) = false) ∧
    (let s := tune (streaming runDesc []) fun q => { q with fetched := [{ desc9 runDesc with started := true }] }
     findStarted s 5 0x0001 9 = some { desc9 runDesc with started := true } ∧
     s.cmd.streams.all (fun x => x.2.queue != some (5, 9)) = true ∧ ∃ p, runCheck s (le runDesc 16 6) = .ok p ∧ admits s p = true) :=
  ⟨⟨sound_of (by decide +kernel), by decide +kernel, exists_ok (by decide +kernel)⟩, exists_ok (by decide +kernel),
    by decide +kernel, by decide +kernel, by decide +kernel, exists_ok (by decide +kernel)⟩

theorem witness_StreamsAndPhases_abort :
    let d := fun h => ds 0x0002 [(16, 1, 7), (18, 2, 3), (20, 1, h)]
    let q7 : Queue := { queueA with fetched := [{ desc9 runDesc with uid := 3, index := 3, started := true }] }
    let s := fun h => setQueue (streaming (d h) [(0, runOf 2)]) 7 q7
    let r := { runOf 2 with nextPhase := 1, running := [phaseOf []] }
    let u := fun h => setQueue (streaming (d h) [(0, r)]) 7 q7
    (∀ h < 2, Sound (s h) ∧ startDesc (s h) 5 0x0002 = some (desc9 (d h)) ∧ (getQueue (s h) 7).owner = (getQueue (s h) 5).owner ∧
      streamOf (s h) 7 (le (d h) 18 2) = some 0 ∧ flag (d h) 20 0 = decide (h = 1)) ∧
    (∀ h < 2, getStream (s h) 0 = some (runOf 2) ∧ (runOf 2).running = [] ∧ firedLeft (s h) 0 = false ∧
      (s h).coll.firedOps = [] ∧ (s h).coll.triggers = []) ∧
    (∀ h < 2, Sound (u h) ∧ streamOf (u h) 7 (le (d h) 18 2) = some 0 ∧ getStream (u h) 0 = some r ∧ r.running ≠ []) ∧
    (let t := streaming (d 0) []; startDesc t 5 0x0002 = some (desc9 (d 0)) ∧ streamOf t 7 (le (d 0) 18 2) = none) := by
  intro d q7 s r u
  refine ⟨fun h hh => ⟨sound_of ?_, ?_⟩, ?_, fun h hh => ⟨sound_of ?_, ?_⟩, by decide +kernel⟩
  · revert h; decide +kernel
  · revert h; decide +kernel
  · decide +kernel
  · revert h; decide +kernel
  · revert h; decide +kernel

/-- What the gate of a stream's next phase answers. -/
def gateIs (g : PhaseGate) : Nat := match g with | .wait => 0 | .done _ => 1 | .go _ => 2

theorem witness_StreamsAndPhases_start :
    (let s := streaming (ds 0 []) [(0, runOf 2)]
     Sound s ∧ getStream s 0 = some (runOf 2) ∧ quiescing s = false ∧ (runOf 2).stop = none ∧
     (runOf 2).nextPhase < hdrPhases (runOf 2).hdr ∧ gateIs (phaseGate s (runOf 2)) = 2) ∧
    (let r := { runOf 2 with nextPhase := 1 }
     let s := streaming (ds 0 []) [(0, r)]
     getStream s 0 = some r ∧ r.nextPhase < hdrPhases r.hdr ∧ gateIs (phaseGate s r) = 1) ∧
    (let s0 := streaming (ds 0 []) [(0, { runOf 2 with nextPhase := 1 })]
     let s := setMem s0 (memWrite s0.mem 0x2241 [1] false)
     gateIs (phaseGate s { runOf 2 with nextPhase := 1 }) = 0) :=
  ⟨⟨sound_of (by decide +kernel), by decide +kernel⟩, by decide +kernel, by decide +kernel⟩

/-- Stream 0 with that phase running. -/
def phased (cores : List Nat) (mem : List (Nat × Bytes)) : State :=
  let s := withDesc (ds 0 []) mem
  { s with cmd := { s.cmd with streams := [(0, { runOf 2 with nextPhase := 1, running := [phaseOf cores] })] } }

theorem witness_StreamsAndPhases_end :
    (Sound (phased [] []) ∧ getStream (phased [] []) 0 = some { runOf 2 with nextPhase := 1, running := [phaseOf []] } ∧
      getPhase (phased [] []) 0 0 = some (phaseOf []) ∧ phaseOver (phaseOf []) = true ∧ blinkFired (phaseOf []) = false ∧
      clipFired (phaseOf []) = false) ∧
    (let r := { runOf 2 with nextPhase := 2, running := [phaseOf [], { phaseOf [0] with num := 1 }] }
     let s := streaming (ds 0 []) [(0, r)]
     getStream s 0 = some r ∧ getPhase s 0 0 = some (phaseOf []) ∧ r.running.filter (·.num != 0) ≠ [] ∧
     canAccess s .dram (hdrPstat r.hdr) 2 = true) ∧
    (let r := { runOf 2 with nextPhase := 2, running := [phaseOf []] }
     let s := streaming (ds 0 []) [(0, r)]
     getPhase s 0 0 = some (phaseOf []) ∧ r.running.filter (·.num != 0) = [] ∧ hdrPhases r.hdr ≤ r.nextPhase ∧
     firedLeft s 0 = false) ∧
    (let r := { runOf 2 with nextPhase := 2, running := [phaseOf [0], { phaseOf [] with num := 1 }] }
     let s := streaming (ds 0 []) [(0, r)]
     getPhase s 0 0 = some (phaseOf [0]) ∧ (phaseOf [0]).wdMs * 1000000 < phaseRan s (phaseOf [0]) ∧ s.coll.firedOps = [] ∧
     ∃ x ∈ r.running, x.num ≠ 0) ∧
    (getPhase (phased [0] []) 0 0 = some (phaseOf [0]) ∧ phaseOver (phaseOf [0]) = false ∧ (phaseOf [0]).wdMs ≠ 0 ∧
      (phaseOf [0]).wdMs * 1000000 < phaseRan (phased [0] []) (phaseOf [0]) ∧ (phaseOf [0]).stop = none) ∧
    (let s := { phased [0] [] with nowNs := 999000000 }
     getPhase s 0 0 = some (phaseOf [0]) ∧ phaseRan s (phaseOf [0]) ≤ (phaseOf [0]).wdMs * 1000000) :=
  ⟨⟨sound_of (by decide +kernel), by decide +kernel⟩, by decide +kernel, by decide +kernel⟩

/-- A ladder phase of two rungs over whose Blink trigger fired: policy and max_rung of its entry as it read it. -/
def triggered (policy top : Nat) : PhaseRun :=
  { phaseOf [] with
    record := fields 64 [(0, 1, 1), (14, 2, 2), (16, 6, 0x2800), (24, 6, 0x2600), (32, 6, 0x2600)], ladderEntry := some 0x5000
    ladder := fields 64 [(0, 1, 128 + 16 * policy + 4 * top)], exceed := true }

/-- Stream 0 in that phase; the entry in memory has max_rung `now`. -/
def triggering (policy top now : Nat) : State :=
  let s := streaming (ds 0 []) [(0, { runOf 2 with nextPhase := 2, running := [triggered policy top] })]
  setMem s (memWrite s.mem 0x5000 [BitVec.ofNat 8 (128 + 16 * policy + 4 * now)] false)

theorem witness_StreamsAndPhases_trigger :
    (∀ x ∈ [(0, 1, 1), (1, 0, 0), (1, 1, 0), (2, 1, 1), (1, 1, 1)], let s := triggering x.1 x.2.1 x.2.2
      let ph := triggered x.1 x.2.1
      Sound s ∧ getStream s 0 = some { runOf 2 with nextPhase := 2, running := [ph] } ∧ getPhase s 0 0 = some ph ∧
      phaseOver ph = true ∧ blinkFired ph = true ∧ field ph.ladder 0 4 2 = x.1) ∧
    field (triggered 1 0).ladder 0 2 2 ≤ (triggered 1 0).rung ∧ nextRung (triggering 1 1 0) (triggered 1 1) = none ∧
    (field (triggered 2 1).ladder 0 2 2 ≤ (triggered 2 1).rung) = False ∧
    (nextRung (triggering 1 1 1) (triggered 1 1)).map (·.2) = some 1 ∧
    ∃ es, rerunLists (triggering 1 1 1) { runOf 2 with nextPhase := 2, running := [triggered 1 1] } (triggered 1 1) 1 = .ok es ∧
      decide (es.length = 1) = true := by
  refine ⟨fun x hx => ⟨sound_of ?_, ?_⟩, by decide +kernel, by decide +kernel, by simp [triggered]; decide +kernel, by decide +kernel,
    exists_ok (by decide +kernel)⟩ <;> revert x <;> decide +kernel

/-- A start token of phase 0 of stream 0 with a list of `len` ops at core-store offset 0x100. -/
def token (len : Nat) : Token :=
  { stream := 0, phase := 0, off := 0x100, len, seed := 0, rotSeed := 0, step := 0, mb := none, layer := 0, ladder := false,
    blinkLog2n := 0, ladderEntry := none }

/-- Core 0 about to take the op `d`, the first of two, at core-store offset 0x100; more bytes in memory. -/
def coreAt (d : Bytes) (mem : List (Nat × Bytes)) : State :=
  setCore (phased [0] ([(coreStores + 0x100, d)] ++ mem)) 0 { Core.idle with tokens := [token 2] }

/-- The op that core 0 takes. -/
def opAt (d : Bytes) : NextOp := { tok := token 2, idx := 0, desc := d, poisoned := false }

/-- Stream 0 about to take the I/O op `d`, the first of two, at 0x2800. -/
def ioAt (d : Bytes) (mem : List (Nat × Bytes)) : State := phased [0] ([(0x2800, d)] ++ mem)

/-- The I/O op that it takes. -/
def ioOpAt (d : Bytes) : NextOp := { tok := { token 2 with off := 0 }, idx := 0, desc := d, poisoned := false }

/-- A NOP, a WAIT that its counter lets pass (its distance is 0), and one that it holds (its distance is 2^15). -/
def plainOp (k : Nat) : Bytes :=
  match k with
  | 0 => fields 64 [(0, 1, 0x00), (1, 1, 4), (6, 2, 103)]
  | 1 => fields 64 [(0, 1, 0x01), (1, 1, 2), (2, 2, 100)]
  | _ => fields 64 [(0, 1, 0x01), (1, 1, 2), (2, 2, 100), (4, 2, 32768)]

theorem witness_PlainOpsAndWaits :
    (∀ k < 2, Sound (coreAt (plainOp k) []) ∧ reservedZero (plainOp k) hdrFields = true ∧
      ctrCheck (coreAt (plainOp k) []) 0 (opHdr (plainOp k)) = true ∧ nextOp (coreAt (plainOp k) []) 0 = some (opAt (plainOp k)) ∧
      mayStart (coreAt (plainOp k) []) 0 (opAt (plainOp k)) = true ∧ 0 + 1 < (token 2).len ∧ (opHdr (plainOp k)).opcode = k ∧
      nextIo (ioAt (plainOp k) []) 0 0 = some (ioOpAt (plainOp k)) ∧
      mayStartIo (ioAt (plainOp k) []) 0 0 (ioOpAt (plainOp k)) = true ∧
      getPhase (ioAt (plainOp k) []) 0 0 = some (phaseOf [0])) ∧
    nextOp (coreAt (plainOp 2) []) 0 = some (opAt (plainOp 2)) ∧ (opHdr (plainOp 2)).waitEn = true ∧
    ctrInRange (coreAt (plainOp 2) []) 0 100 = true ∧ opAllowed false (opHdr (plainOp 2)).opcode = true ∧
    32768 ≤ ((counter (coreAt (plainOp 2) []) 100).toNat % 65536 + 65536 - (opHdr (plainOp 2)).waitVal) % 65536 := by
  refine ⟨fun k hk => ⟨sound_of ?_, ?_⟩, by decide +kernel⟩
  · revert k; decide +kernel
  · revert k; decide +kernel

/-- A service record: the stream at 0x2000, run time 100 µs. -/
def svcMem : Bytes := fields 64 [(0, 6, 0x2000), (10, 2, 5000), (12, 2, 100), (14, 1, 1)]

/-- A request for one row, or for 31. -/
def svcDesc (rows : Nat) : Bytes := ds 0x0030 [(32, 1, rows - 1)]

/-- An open block of service 0 with `rows` rows that closes at `close`. -/
def block (rows close : Nat) (reqs : List SvcReq) : SvcBlock :=
  { svc := 0, record := svcMem, opened := 0, close, members := [none], rows, reqs, result := none, resultBy := [] }

/-- A request of that block, from queue 5's descriptor 9. -/
def request : SvcReq :=
  { queue := 5, uid := 9, inAddr := 0, outAddr := 0, rows := 1, variant := none, deadline := 2000000000, start := 0, dropped := false }

/-- A service queue with a request, the service table at 0x4000, and what is in the service lists. -/
def serving (d : Bytes) (opens closed runs : List SvcBlock) : State :=
  let s := withDesc d ((0x4000, svcMem) :: streamMem 2)
  { s with cmd := { s.cmd with svcBase := 0x4001, openBlocks := opens, closedBlocks := closed, runBlocks := runs } }

theorem witness_ServiceBlocks :
    (let s := serving (svcDesc 31) [] [] []
     Sound s ∧ (getQueue s 5).svc = 0 ∧ startDesc s 5 0x0030 = some (desc9 (svcDesc 31)) ∧
     svcCheck s (svcRec s 0) (svcDesc 31) = none ∧ openBlock s 0 = none ∧ (svcReq 5 (desc9 (svcDesc 31)) (svcRec s 0).data 0).rows < 32) ∧
    (let b := block 30 2000000000 []
     let s := serving (svcDesc 1) [b] [] []
     let x := svcReq 5 (desc9 (svcDesc 1)) (svcRec s 0).data 0
     Sound s ∧ svcCheck s (svcRec s 0) (svcDesc 1) = none ∧ openBlock s 0 = some b ∧ svcFits b x = true ∧ b.rows + x.rows < 32 ∧
     s.nowNs < b.close) ∧
    (let b := block 30 2000000000 []
     let s := serving (svcDesc 2) [b] [] []
     let x := svcReq 5 (desc9 (svcDesc 2)) (svcRec s 0).data 0
     Sound s ∧ svcCheck s (svcRec s 0) (svcDesc 2) = none ∧ openBlock s 0 = some b ∧ svcFits b x = true ∧ b.rows + x.rows = 32) ∧
    (let b := block 30 2000000000 []
     let s := serving (svcDesc 3) [b] [] []
     let x := svcReq 5 (desc9 (svcDesc 3)) (svcRec s 0).data 0
     startDesc s 5 0x0030 = some (desc9 (svcDesc 3)) ∧ svcCheck s (svcRec s 0) (svcDesc 3) = none ∧ openBlock s 0 = some b ∧
     svcFits b x = false ∧ x.rows < 32) ∧
    (let s := withDesc (svcDesc 1) []
     startDesc s 5 0x0030 = some (desc9 (svcDesc 1)) ∧ svcCheck s (svcRec s 0) (svcDesc 1) = some .badField) ∧
    (let b := block 1 1000000000 []
     openBlock (serving (svcDesc 1) [b] [] []) 0 = some b ∧ b.close ≤ (serving (svcDesc 1) [b] [] []).nowNs) :=
  ⟨⟨sound_of (by decide +kernel), by decide +kernel⟩, ⟨sound_of (by decide +kernel), by decide +kernel⟩,
    ⟨sound_of (by decide +kernel), by decide +kernel⟩, by decide +kernel, by decide +kernel, by decide +kernel⟩

theorem witness_ServiceBlocks_start :
    (let b := block 1 0 [request]
     let s0 := serving (ds 0 []) [] [b] []
     let s := { s0 with fw := { s0.fw with preemptMin := 1 } }
     Sound s ∧ s.fw.preemptMin ≠ 0 ∧ readyBlock s 0 = some b ∧ b.reqs ≠ [] ∧
     (∀ x ∈ b.reqs, x.dropped = false ∧ s.nowNs ≤ x.deadline) ∧
     getStream s (svcStream 0) = none ∧ minHolds s b (svcCores s b) = false ∧
     ∃ p, runCheck s (svStream b.record) = .ok p ∧ (bitList 4096 p.coreMap).all (fun n => coreClear (getCore s n)) = true) ∧
    (let b := block 1 0 [request]
     let s0 := serving (ds 0 []) [] [b] []
     let s := { s0 with fw := { s0.fw with preemptMin := 100 }, cmd := { s0.cmd with streams := [(0, runOf 2)], resumed := [(0, 1000000001)] } }
     Sound s ∧ s.fw.preemptMin ≠ 0 ∧ readyBlock s 0 = some b ∧ minHolds s b (svcCores s b) = true) ∧
    (let b := { block 1 0 [request] with result := some .ok }
     let s := serving (ds 0 []) [] [] [b]
     s.cmd.runBlocks.find? (·.svc == 0) = some b ∧ b.result = some .ok) :=
  ⟨⟨sound_of (by decide +kernel), by decide +kernel, by decide +kernel, by decide +kernel, by decide +kernel, by decide +kernel,
    by decide +kernel, exists_ok (by decide +kernel)⟩, ⟨sound_of (by decide +kernel), by decide +kernel⟩, by decide +kernel⟩

/-- A unit's run of no op in particular. -/
def someRun : OpRun :=
  { tok := token 2, idx := 0, desc := [], status := .ok, finished := false, phot := photZero, photBase := 0, turn := 0 }

theorem witness_ServiceBlocks_turned :
    (let b := { block 1 0 [{ request with deadline := 5 }] with record := fields 64 [(0, 6, 0x2000), (10, 2, 5000), (12, 2, 100), (14, 1, 3)] }
     let s := serving (ds 0 []) [] [b] []
     Sound s ∧ readyBlock s 0 = some b ∧ minHolds s b (svcCores s b) = false ∧ svLateDrop b.record = true ∧
     (∃ x ∈ b.reqs, x.deadline < s.nowNs) ∧
     ∃ p, runCheck s (svStream b.record) = .ok p ∧ (bitList 4096 p.coreMap).all (fun n => coreClear (getCore s n)) = true) ∧
    (let b := block 1 0 [request]
     let s := setCore (serving (ds 0 []) [] [b] []) 0 { Core.idle with coe := some someRun }
     Sound s ∧ readyBlock s 0 = some b ∧ minHolds s b (svcCores s b) = false ∧
     ∃ p, runCheck s (svStream b.record) = .ok p ∧ (bit p.coreMap 0 && !coreClear (getCore s 0)) = true) ∧
    (let b := { block 1 0 [request] with record := fields 64 [(0, 6, 0x9000), (10, 2, 5000), (12, 2, 100), (14, 1, 1)] }
     let s := serving (ds 0 []) [] [b] []
     Sound s ∧ readyBlock s 0 = some b ∧ svLateDrop b.record = false ∧ (∀ x ∈ b.reqs, x.dropped = false) ∧ minHolds s b (svcCores s b) = false ∧
     okIs (runCheck s (svStream b.record)) (fun _ => true) = false) :=
  ⟨⟨sound_of (by decide +kernel), by decide +kernel, by decide +kernel, by decide +kernel, by decide +kernel,
      exists_ok (by decide +kernel)⟩,
    ⟨sound_of (by decide +kernel), by decide +kernel, by decide +kernel, exists_ok (by decide +kernel)⟩,
    sound_of (by decide +kernel), by decide +kernel⟩
/-! ## Registers, ports and the host interface -/

theorem witness_RegisterAccesses :
    hostPath on .a = .served ∧ (∀ r ∈ plainRegs, (setupReg on r.1).map (·.1) = some r.2.1) ∧
    setupReg on (4#26).toNat = none ∧ setupReg on (0x3FFFFFF#26).toNat = none ∧
    (setupReg on 0).map (·.1) = some 32 ∧ 32 ≠ 8 * 8 ∧
    hostPath { on with pwr := { on.pwr with state := 3 } } .a = .held ∧
    (sideIn { on with pwr := { on.pwr with state := 3 } } 3).effect = false ∧
    hostPath { on with pwr := { on.pwr with state := 4 } } .a = .none ∧
    on.fab.nodeLock = false ∧ ¬(0xFFF0 ≤ (0xFFEF#32).toNat % 65536 ∧ (0xFFEF#32).toNat % 65536 ≤ 0xFFFE) ∧
    locked.fab.nodeLock = true := by decide +kernel

theorem witness_UnimplementedOffsetsReadZero :
    hostPath on .b = .served ∧ setupReg on (0x28#26).toNat = none ∧ (0x1001#26) ≠ 0 ∧ (0x1001#26) ≠ 0x1000 ∧
    (∀ off ∈ [0x1001, 0x00FFFF, 0x011000, 0x0FFFFF, 0x101020], ∀ b ∈ [(0x010000, 4096), (0x020000, 4096), (0x100000, 4096), (0x101000, 32)],
      ¬(b.1 ≤ off ∧ off < b.1 + b.2)) := by decide +kernel

/-- `on` with port A's link down, its PERST input asserted or not. -/
def portDown (perst : Bool) : State :=
  { on with hif := { on.hif with a := { on.hif.a with linkUp := false, perst := perst } }
            pwr := { on.pwr with side := if perst then [(0, { SideIn.reset with asserted := true, effect := true })] else [] } }

theorem witness_PortsLoseAndRegain :
    (Sound on ∧ (getPort on .a).linkUp = true) ∧
    (Sound (portDown false) ∧ (getPort (portDown false) .a).linkUp = false ∧ mayTrain (portDown false) .a = true ∧ linkForm 6 8 = true ∧
      4 ≤ (6#3) ∧ linkForm 1 1 = true ∧ (1#3) < 4 ∧ (getPort (portDown false) .a).slowTries < 3) ∧
    (let s := { portDown false with hif := { (portDown false).hif with a := { (portDown false).hif.a with slowTries := 3 } } }
     Sound s ∧ (getPort s .a).linkUp = false ∧ mayTrain s .a = true ∧ 3 ≤ (getPort s .a).slowTries) ∧
    ((sideIn on (portNo .b)).asserted = false ∧ (sideIn on (portNo .b)).masked = false ∧ sideSoon on (sideIn on (portNo .b)) = false ∧
      on.rst.supply ≠ .off) ∧
    Sound (portDown true) ∧ (sideIn (portDown true) (portNo .a)).asserted = true ∧ (sideIn (portDown true) (portNo .a)).effect = true :=
  ⟨⟨sound_on, by decide +kernel⟩, ⟨sound_of (by decide +kernel), by decide +kernel⟩, ⟨sound_of (by decide +kernel), by decide +kernel⟩,
    by decide +kernel, sound_of (by decide +kernel), by decide +kernel⟩

/-- `on` with entry 0 of the Window Table open to BAR4 of port A for the first page of DRAM, a poisoned line at 64. -/
def windowed : State :=
  { on with hif := { on.hif with wt := [(0, fields 32 [(12, 1, 7), (13, 1, 0x3F)])] }
            mem := poisonSpan on.mem 64 1 }

theorem witness_Bar4AndHostReads :
    Sound windowed ∧ hostPath windowed .a = .served ∧ (getPort windowed .a).aper.toNat / 2 ^ 30 * 2 ^ 30 + (62#36).toNat = 62 ∧
    ([1, 2, 3] : Bytes) ≠ [] ∧ linesOf 62 3 = [0, 64] ∧ (∀ l ∈ linesOf 62 3, bar4Open windowed .a true l = true) ∧
    (∀ l ∈ linesOf 0 64 ++ linesOf 4095 1, linePoison windowed.mem l = false) ∧ linesOf 4095 1 = [4032] ∧ bar4Open windowed .a true 4032 = true ∧ linesOf 4096 1 = [4096] ∧ bar4Open windowed .a true 4096 = false ∧
    bar4Open windowed .a false 0 = true ∧ linePoison windowed.mem 0 = false ∧ linesOf 0 64 = [0] ∧ linesOf 64 1 = [64] ∧
    linePoison windowed.mem 64 = true ∧ bar4Open windowed .a false 4096 = false ∧
    (∀ l ∈ [0, 64, 4096], smGet LineErr.none windowed.mr.dramErr (l / 64) = .none) ∧ windowed.mr.dramErr = [] ∧
    linesOf 4032 65 = [4032, 4096] ∧ linesOf 0 128 = [0, 64] :=
  ⟨sound_of (by decide +kernel), by decide +kernel⟩

theorem witness_Bar4AndHostReads_corrected :
    let s := { windowed with mr := { windowed.mr with dramErr := [(0, .correctable)] } }
    hostPath s .a = .served ∧ linesOf 0 64 = [0] ∧ bar4Open s .a false 0 = true ∧ linePoison s.mem 0 = false ∧ region 0 = .dram ∧
    smGet LineErr.none s.mr.dramErr (0 / 64) = .correctable ∧ keysRise s.mr.dramErr = true := by decide +kernel

/-- A ring of 64 records, the `no`-th that port A named, with `count` records since its start. -/
def ringOf (no count : Nat) : EvRing := { no, base := 0x8000, head := 0x9000, sizeLog2 := 0, vector := 1, count }

/-- A read of the head of the `no`-th ring. -/
def headOf (no issued : Nat) : PcieRead := { port := .a, tag := 3, what := .eventHead (zeroBytes 32) no, issued }

/-- A read of the head of port A's event ring is out, made for the `no`-th ring; the ring is now `ringOf 2 count`. -/
def headRead (no count issued : Nat) : State :=
  { on with hif := { on.hif with reads := [headOf no issued], a := { on.hif.a with ring := some (ringOf 2 count) } } }

theorem witness_Bar4AndHostReads_completion :
    (∀ no ∈ [1, 2], ∀ n ∈ [63, 64, 65], ∀ issued ∈ [0, 1000000000], let s := headRead no n issued
      findRead s .a (3#14).toNat = some (headOf no issued) ∧ s.hif.readWait = [] ∧ (getPort s .a).ring = some (ringOf 2 n)) ∧
    (ringOf 2 0).no ≠ 1 ∧ (getPort (headRead 1 63 0) .a).linkUp = true ∧ (ringOf 2 0).no = 2 ∧
    (zeroBytes 32).length = 32 ∧ (63 + 2 ^ 32 - le (zeroBytes 4) 0 4) % 2 ^ 32 ≠ 2 ^ (6 + 0) ∧
    (65 + 2 ^ 32 - le (zeroBytes 4) 0 4) % 2 ^ 32 ≠ 2 ^ (6 + 0) ∧ (64 + 2 ^ 32 - le (zeroBytes 4) 0 4) % 2 ^ 32 = 2 ^ (6 + 0) ∧
    findRead (headRead 2 0 0) .a (4#14).toNat = none ∧
    0 + cplLimit (getPort (headRead 2 0 0) .a).cplTimeout ≤ (headRead 2 0 0).nowNs ∧
    ¬1000000000 + cplLimit (getPort (headRead 2 0 1000000000) .a).cplTimeout ≤ (headRead 2 0 1000000000).nowNs := by decide +kernel

/-- `on` with vector 5 of port A pending. -/
def vectored : State := { on with hif := { on.hif with a := { on.hif.a with pba := [(5, true)] } } }

/-- `on` with a window open for a status, source and unit, opened at a time. -/
def windowAt (opened : Nat) : State :=
  { on with err := { on.err with windows :=
      [{ status := .keyFail, source := 3, unit := 7, opened, count := 2, first := opened, detail := zeroBytes 8 }] } }

/-- A message in one packet. -/
def wholeMsg (m : Bytes) : List MctpPacket := [{ som := true, eom := true, seq := 0, owner := true, tag := 0, body := m }]

theorem witness_InterruptsAndEvents :
    (bar2Open vectored .a = true ∧ (getPort vectored .a).linkUp = true ∧ smGet false (getPort vectored .a).pba (5#8).toNat = true ∧
      keysRise (getPort vectored .a).msix = true ∧ keysRise (getPort vectored .a).pba = true ∧
      16 ≤ (smGet msixDefault (getPort vectored .a).msix (5#8).toNat).length) ∧
    (bindingOpen on .smbus = true ∧ bindingOpen on .vdmA = true ∧ bindingOpen on .vdmB = true ∧ (0x80#8).getLsbD 7 = true ∧
      reassemble .smbus (wholeMsg [0, 0x80, 2]) = some [0, 0x80, 2] ∧ reassemble .vdmA [] = none ∧
      reassemble .vdmB (wholeMsg [0x7F, 0x80, 2]) = some [0x7F, 0x80, 2] ∧ bar2Open on .b = true ∧
      keysRise (getPort on .b).bars = true ∧ cfgBusy on .b = false) ∧
    (65535 < 65536 ∧ on.err.windows.find? (sameWindow .keyFail 3 65535) = none) ∧
    ((windowAt 1).err.windows.find? (sameWindow .keyFail 3 7) = (windowAt 1).err.windows.head? ∧
      statusOf (0x0601#16).toNat = some .keyFail ∧ 1 + 1000000 ≤ (windowAt 1).nowNs) ∧
    (windowAt 999000001).err.windows.find? (sameWindow .keyFail 3 7) = (windowAt 999000001).err.windows.head? ∧
    (windowAt 999000001).err.windows.head?.map (·.opened) = some 999000001 ∧ (windowAt 999000001).nowNs < 999000001 + 1000000 := by
  decide +kernel

/-- `on` with the link of port A trained at a time. -/
def trained (t : Nat) : State := { on with hif := { on.hif with a := { on.hif.a with trainAt := some t } } }

/-- Where a part takes time to complete configuration requests, a port is busy until then, and 100 ms after at the latest. -/
theorem witness_InterruptsAndEvents_retry (h : 0 < Config.configReady 0) :
    bar2Open (trained 1000000000) .a = true ∧ cfgBusy (trained 1000000000) .a = true ∧ cfgBusy (trained 900000000) .a = false := by
  refine ⟨by decide +kernel, decide_eq_true ?_, decide_eq_false ?_⟩
  · exact Nat.lt_add_of_pos_right (lt_min (by decide) h)
  · exact Nat.not_lt.mpr (Nat.add_le_add_left (Nat.min_le_left _ _) 900000000)

/-! ## Reset, power and ageing -/

theorem witness_PowerUpSequence :
    State.reset.rst.supply = .off ∧
    (let s := { on with rst := { on.rst with step := 5 } }
     s.rst.supply = .on ∧ s.rst.step = 5 ∧ keysRise ({ cores := [(63, 1#64)], clusters := [0, 63], dies := [3] } : SelftestResult).cores = true) ∧
    (let s := { on with rst := { on.rst with step := 6 } }; computeOn s = true ∧ s.rst.step = 6 ∧ ([1800] : List Nat) ≠ []) := by
  decide +kernel

/-- `on` with sideband input `i` asserted, with effect. -/
def asserted (i : Nat) : State :=
  { on with pwr := { on.pwr with side := [(i, { SideIn.reset with asserted := true, effect := true })] } }

/-- `on` with other reset state. -/
def rstState (r : RstState) : State := { on with rst := r }

theorem witness_ResetsAndTrips :
    (Sound on ∧ on.pwr.thermTrip = false ∧ on.rst.inputTrip = false ∧ (sideIn on 5).asserted = false ∧ (sideIn on 5).masked = false ∧
      sideSoon on (sideIn on 5) = false ∧ on.rst.supply = .on ∧ on.rst.supply ≠ .off ∧ on.err.failLog.length < 4032) ∧
    (Sound (asserted 5) ∧ (asserted 5).pwr.thermTrip = false ∧ (asserted 5).rst.inputTrip = false ∧
      (sideIn (asserted 5) 5).asserted = true ∧ (sideIn (asserted 5) 5).effect = true) ∧
    (let s0 := rstState { RstState.reset with supply := .vao }
     let s := { s0 with pwr := { s0.pwr with thermTrip := true } }
     Sound s ∧ s.pwr.thermTrip = true ∧ s.rst.supply = .vao ∧ s.rst.inReset = false ∧ (sideIn s 5).asserted = false ∧
     (sideIn s 5).masked = false ∧ sideSoon s (sideIn s 5) = false) ∧
    (let s := rstState { RstState.reset with supply := .vao, inputTrip := true }
     Sound s ∧ s.rst.supply = .vao ∧ s.rst.inputTrip = true ∧ s.pwr.thermTrip = false ∧ (sideIn s 5).asserted = false ∧
     s.err.failLog.length < 4032) ∧
    (let s := rstState { on.rst with step := 5 }; Sound s ∧ s.rst.supply = .on ∧ s.rst.step = 5) ∧
    (let s := rstState { RstState.reset with supply := .vao, railFail := true, railTries := 1 }
     Sound s ∧ s.rst.railAt + 1000000000 ≤ s.nowNs ∧ s.rst.railTries = 1 ∧ s.rst.inReset = false ∧ s.rst.inputTrip = false ∧
     s.pwr.thermTrip = false) :=
  ⟨⟨sound_on, by decide +kernel⟩, ⟨sound_of (by decide +kernel), by decide +kernel⟩, ⟨sound_of (by decide +kernel), by decide +kernel⟩, ⟨sound_of (by decide +kernel), by decide +kernel⟩,
    ⟨sound_of (by decide +kernel), by decide +kernel⟩, sound_of (by decide +kernel), by decide +kernel⟩

/-- An entry to Closed or Parked at a stage. -/
def entryTo (target : BitVec 3) (stage : Nat) (byHold : Bool) : PowerEntry :=
  { target, origin := 0, byHold, stage, started := 0, quiesceMs := 1000, reply := none }

/-- `on` with that entry, woken or not. -/
def entering (e : PowerEntry) (wake : Bool) : State := { on with pwr := { on.pwr with entry := some e, wake } }

/-- `entering` with stream 0 at work on a phase. -/
def busyEntering (e : PowerEntry) : State :=
  { phased [0] [] with pwr := { on.pwr with entry := some e } }

theorem witness_PowerStateMoves_entry :
    (∀ t ∈ [3, 4], ∀ k < 4, Sound (entering (entryTo (BitVec.ofNat 3 t) k false) false) ∧
      (entering (entryTo (BitVec.ofNat 3 t) k false) false).pwr.wake = false ∧
      quiet (entering (entryTo (BitVec.ofNat 3 t) k false) false) = true) ∧
    (let e := entryTo 4 2 false
     Sound (entering e true) ∧ (entering e true).pwr.wake = true ∧ e.stage < 3 ∧ holdOn (entering e true) = false) ∧
    (∀ h, Sound (busyEntering (entryTo 3 0 h)) ∧ quiet (busyEntering (entryTo 3 0 h)) = false ∧
      0 + 1000 * 1000000 ≤ (busyEntering (entryTo 3 0 h)).nowNs ∧ holdOn (busyEntering (entryTo 3 0 h)) = false ∧
      (busyEntering (entryTo 3 0 h)).fw.state ≠ 5) := by
  refine ⟨fun t ht k hk => ⟨sound_of ?_, ?_⟩, ⟨sound_of (by decide +kernel), by decide +kernel⟩, fun h => ⟨sound_of ?_, ?_⟩⟩
  · revert t k; decide +kernel
  · revert t k; decide +kernel
  · revert h; decide +kernel
  · revert h; decide +kernel

/-- An image of one byte under a public key of zeros. -/
def image : Bytes := fields 64 [(0, 4, 0x5A465731), (5, 1, 1), (12, 4, 1)] ++ zeroBytes 1952 ++ [5] ++ zeroBytes 3309

/-- Where the ROM holds that key's digest and signatures verify, the image passes, unless its key is revoked. -/
theorem image_good (h1 : ∀ k, Config.romKeyDigest k = shake256 (zeroBytes 1952)) (h2 : ∀ k m c g, Config.mldsaVerify k m c g = true)
    {s : State} (hr : s.sec.keyRevoked = 0) (hv : s.sec.minSvn = 0) : imageCheck s image = 0 := by
  have hp : (image.drop 64).take 1952 = zeroBytes 1952 := by decide +kernel
  simp only [imageCheck, h1, h2, hp, hr, hv, bne_self_eq_false, Bool.or_false]
  decide +kernel

/-- `on` in Closed or Parked with a wake, `image` the copy of its image. -/
def awake (st : BitVec 3) : State :=
  { on with pwr := { on.pwr with state := st, wake := true, wakeA := some 0 }, sec := { on.sec with imageRef := some (imDigest image) }
            fw := { on.fw with oldImage := image } }

theorem witness_PowerStateMoves_exit (h1 : ∀ k, Config.romKeyDigest k = shake256 (zeroBytes 1952))
    (h2 : ∀ k m c g, Config.mldsaVerify k m c g = true) :
    (Sound (awake 3) ∧ exitDue (awake 3) 3 = true ∧ (awake 3).pwr.held = [] ∧ (awake 3).pwr.openWait = [] ∧ holdOn (awake 3) = false) ∧
    (Sound (awake 4) ∧ exitDue (awake 4) 4 = true ∧ (awake 4).pwr.held = [] ∧ (awake 4).pwr.openWait = [] ∧ holdOn (awake 4) = false ∧
      parkedGood (awake 4) = true ∧ (awake 4).err.failLog.length < 4032 ∧ (false && parkedGood (awake 4)) = false) ∧
    (let s := { awake 4 with sec := on.sec }; Sound s ∧ exitDue s 4 = true ∧ (true && parkedGood s) = false) ∧
    (let s := { awake 4 with fw := on.fw }; Sound s ∧ exitDue s 4 = true ∧ (true && parkedGood s) = false) ∧
    wakeOut (awake 4) .a = some 0 ∧ 0 + 1000000000 ≤ (awake 4).nowNs := by
  refine ⟨⟨sound_of ?_, ?_, rfl, rfl, ?_⟩, ⟨sound_of ?_, ?_, rfl, rfl, ?_, ?good, ?_, rfl⟩, ⟨sound_of ?_, ?_, ?other⟩,
    ⟨sound_of ?_, ?_, ?none⟩, rfl, ?_⟩
  case good =>
    rw [parkedGood, Bool.and_eq_true]
    exact ⟨beq_iff_eq.mpr (image_good (s := awake 4) h1 h2 (by decide) (by decide)), beq_self_eq_true _⟩
  case other => exact Bool.and_eq_false_iff.mpr (.inr (Bool.and_eq_false_iff.mpr (.inr rfl)))
  case none => exact Bool.and_eq_false_iff.mpr (.inr (Bool.and_eq_false_iff.mpr (.inl rfl)))
  all_goals decide +kernel

/-- `on` with sideband input `i` masked. -/
def maskedIn (i : Nat) : State := { on with pwr := { on.pwr with side := [(i, { SideIn.reset with masked := true })] } }

theorem witness_SidebandInputs :
    (Sound on ∧ on.rst.supply = .on ∧ (∀ i < 8, (sideIn on i).asserted = false ∧ (sideIn on i).masked = false ∧
      sideSoon on (sideIn on i) = false ∧ (sideIn on i).lastEvent = none ∧ (sideIn on i).held = false) ∧ 4 ≤ on.fw.state ∧
      on.err.fwFatal = false ∧ on.pwr.entry = none ∧ on.pwr.state < 3) ∧
    (let s := { asserted 3 with pwr := { (asserted 3).pwr with state := 3 } }
     Sound s ∧ (sideIn s 3).asserted = true ∧ (sideIn s 3).effect = true ∧ 3 ≤ s.pwr.state) ∧
    (Sound (asserted 4) ∧ (sideIn (asserted 4) 4).asserted = true ∧ (sideIn (asserted 4) 4).effect = true) ∧
    (Sound (awake 3) ∧ 3 ≤ (awake 3).pwr.state ∧ (sideIn (awake 3) 2).masked = false ∧ (sideIn (awake 3) 2).held = false) ∧
    (Sound (maskedIn 4) ∧ (maskedIn 4).rst.supply = .on ∧ (sideIn (maskedIn 4) 4).masked = true ∧ (sideIn (maskedIn 4) 4).asserted = false ∧
      (sideIn (maskedIn 2) 2).masked = true ∧ Sound (asserted 0) ∧ (asserted 0).rst.supply = .on ∧ (sideIn (asserted 0) 0).asserted = true) ∧
    (∀ i : BitVec 3, (sideIn (asserted i.toNat) i.toNat).asserted = true ∧
      (sideIn (asserted i.toNat) i.toNat).edge + 10000000 ≤ (asserted i.toNat).nowNs ∧
      (sideIn (maskedIn i.toNat) i.toNat).masked = true ∧ (sideIn (maskedIn i.toNat) i.toNat).asserted = false ∧
      (sideIn (maskedIn i.toNat) i.toNat).edge + 10000000 ≤ (maskedIn i.toNat).nowNs) :=
  ⟨⟨sound_on, by decide +kernel⟩, ⟨sound_of (by decide +kernel), by decide +kernel⟩, ⟨sound_of (by decide +kernel), by decide +kernel⟩,
    ⟨sound_of (by decide +kernel), by decide +kernel⟩,
    ⟨sound_of (by decide +kernel), by decide +kernel, by decide +kernel, by decide +kernel, by decide +kernel, sound_of (by decide +kernel),
      by decide +kernel⟩, by decide +kernel⟩

/-- `on` with other ceilings. -/
def ceiled (c : CeilState) : State := { on with pwr := { on.pwr with ceil := c } }

/-- A change from point 2 to point `q`, by the guard or not. -/
def changeTo (q : Nat) (guard : Bool) : PointChange := { fromPoint := 2, toPoint := q, origin := .firmware, guard }

/-- Every ceiling at 6, with a change. -/
def changing (x : PointChange) : State :=
  ceiled { on.pwr.ceil with permitted := 6, power := 6, thermal := 6, change := some x }

theorem witness_CadencePoints :
    computeOn on = true ∧ lowestCeil on = 2 ∧ lowestCeil on < (3#3).toNat ∧ (0#3).toNat ≤ lowestCeil on ∧ on.pwr.ceil.change = none ∧
    (0#3).toNat ≠ on.pwr.ceil.point ∧ 0 < on.pwr.ceil.point ∧
    (let s := changing (changeTo 4 false)
     computeOn s = true ∧ s.pwr.ceil.change = some (changeTo 4 false) ∧ s.pwr.ceil.waiting = none ∧ (6#3).toNat ≤ lowestCeil s ∧
     s.pwr.ceil.point < (changeTo 4 false).toPoint ∧ 105 * cadMhz 4 ≤ 100 * slowest [1575] ∧ 4 ≤ lowestCeil s ∧
     100 * slowest [1575, 1574] < 105 * cadMhz 4) ∧
    (let s := changing (changeTo 1 true)
     s.pwr.ceil.change = some (changeTo 1 true) ∧ (2#3).toNat ≤ s.pwr.ceil.point ∧ (2#3).toNat ≠ (changeTo 1 true).toPoint ∧
     s.pwr.ceil.waiting = none ∧ (changeTo 1 true).toPoint ≤ s.pwr.ceil.point ∧ s.pwr.ceil.point ≤ lowestCeil s) ∧
    100 * 1019 < 102 * cadMhz on.pwr.ceil.point ∧
    (let s := { on with pwr := { on.pwr with ticks := 10, slipWin := [(10, 63, 1 + cadMhz 2 / 10)] } }
     computeOn s = true ∧ slipsExceed s 63 = true ∧ slipsExceed s 62 = false) ∧
    6 ≤ on.rst.step ∧ ([1019] : List Nat) ≠ [] := by decide +kernel

/-- Every ceiling open, the loops with firmware, readings long below their limits. -/
def calm : CeilState :=
  { on.pwr.ceil with fast := some 1, overcurrent := true, belowLimit := some 0, belowAmps := some 0, aboveTarget := some 0 }

theorem witness_LimitersAndLoops :
    (Sound on ∧ computeOn on = true ∧ on.pwr.ceil.change = none ∧ on.pwr.ceil.lastFast = none ∧
      110 * on.fw.powerLimit.toNat < 100 * 3741 ∧ on.pwr.ceil.overcurrent = false ∧ on.pwr.ceil.hot = false ∧ on.pwr.ceil.inputLow = false ∧
      loopsRun on = true ∧ on.fw.loopsTaken = true ∧ on.fw.powerLimit.toNat < 3401 ∧ 7 ≤ on.rst.step ∧
      ∀ p < 16, (getFab on p).hot = false) ∧
    (Sound (ceiled calm) ∧ loopsRun (ceiled calm) = true ∧ computeOn (ceiled calm) = true ∧ calm.change = none ∧
      lasted (ceiled calm) calm.belowLimit 4000000 = true ∧ calm.fast.isSome = true ∧ calm.overcurrent = true ∧
      lasted (ceiled calm) calm.belowAmps 10000000 = true ∧ lasted (ceiled calm) calm.aboveTarget 10000000 = true ∧
      (thermalTarget (ceiled calm).fw.thermalProfile.toNat).1 < 86 ∧ calm.lastDown + 10000000 ≤ (ceiled calm).nowNs) ∧
    (let s := { on with fab := { on.fab with ports := [(15, { FabPortState.reset with hot := true })] } }
     Sound s ∧ (getFab s 15).hot = true ∧ (getFab s 15).st = 0) ∧
    (let s := fabricOn [(15, { fabPort 0 true true with hot := true })]
     Sound s ∧ (getFab s 15).hot = true ∧ (getFab s 15).st = 0 ∧ cfgEn (getFab s 15).cfg = true ∧ pairJoined s 15 = false ∧
     s.pwr.state < 3 ∧ let t := { s with pwr := { s.pwr with state := 3 } }; Sound t ∧ 3 ≤ t.pwr.state) ∧
    (let s := { on with pwr := { on.pwr with state := 2 } }
     Sound s ∧ s.pwr.state = 2 ∧ clusterIdle s 63 = true ∧ smGet 0 s.pwr.lastUse 63 + idleNs s ≤ s.nowNs) :=
  ⟨⟨sound_on, by decide +kernel⟩, ⟨sound_of (by decide +kernel), by decide +kernel⟩, ⟨sound_of (by decide +kernel), by decide +kernel⟩,
    ⟨sound_of (by decide +kernel), by decide +kernel, by decide +kernel, by decide +kernel, by decide +kernel, by decide +kernel,
      sound_of (by decide +kernel), by decide +kernel⟩, sound_of (by decide +kernel), by decide +kernel⟩

theorem witness_AgeingAndFailures :
    (Sound on ∧ on.err.failLog.length < 4032 ∧ coreAvail on 4095 = true ∧ clusterAvail on 63 = true ∧ 3 ≤ on.fw.state ∧
      on.err.fwFatal = false) ∧
    (let s := setCore on 4095 { Core.idle with noProg := 2 ^ 20 }
     Sound s ∧ coreAvail s 4095 = true ∧ imageRuns s = true ∧ 2 ^ 20 ≤ (getCore s 4095).noProg) ∧
    (on.pwr.wear.length = 4 ∧ computeOn on = true ∧ loopsRun on = true ∧ planDue (wearOf on 3) = false ∧
      ∀ w ∈ [{ wearOf on 3 with hours := 24 }, { wearOf on 3 with deg := 256 }], planDue w = true ∧
        wearOf { on with pwr := { on.pwr with wear := on.pwr.wear.set 3 w } } 3 = w) :=
  ⟨⟨sound_on, by decide +kernel⟩, ⟨sound_of (by decide +kernel), by decide +kernel⟩, by decide +kernel⟩

/-- `marginHolds` where every replica reads `f` MHz at every voltage. -/
def marginAt (f tj : Nat) (_o : Int) (q : Nat) : Bool :=
  decide (106 * (cadMhz q : Int) * 10000 ≤ 100 * ((f : Int) * (10000 - 25 * (90 - (tj : Int)))))

/-- `pointHolds` there. -/
def holdsAt (f tj : Nat) (o : Int) (q : Nat) : Bool := marginAt f tj o q && decide ((railMv q : Int) + 5 * o ≤ 840)

/-- `raiseOffset` there. -/
def raiseAt (f tj top : Nat) : Nat → Int → Int
  | 0, o => o
  | k + 1, o => if o ≥ 8 ∨ (List.range (top + 1)).all (marginAt f tj o) = true then o else raiseAt f tj top k (o + 1)

theorem marginHolds_at {f r m tj : Nat} (h : ∀ a b c, Config.replicaAt a b c = f) : marginHolds r m tj = marginAt f tj := by
  funext o q; simp only [marginHolds, plannedRate, marginAt, h]

theorem pointHolds_at {f r m tj : Nat} (h : ∀ a b c, Config.replicaAt a b c = f) : pointHolds r m tj = holdsAt f tj := by
  funext o q; simp only [pointHolds, holdsAt, marginHolds_at h]

theorem raiseOffset_at {f r m tj top : Nat} (h : ∀ a b c, Config.replicaAt a b c = f) (k : Nat) (o : Int) :
    raiseOffset r m tj top k o = raiseAt f tj top k o := by
  induction k generalizing o with
  | zero => rfl
  | succ k ih => simp only [raiseOffset, raiseAt, marginHolds_at h, ih]

/-- Every point keeps its margin where replicas read 2,000 MHz; point 3 is the first that does not where they read
1,200 MHz. -/
theorem witness_AgeingAndFailures_replan :
    ((∀ a b c, Config.replicaAt a b c = 2000) →
      (List.range (6 + 1)).all (pointHolds 2000 640 90 (raiseOffset 2000 640 90 6 13 0)) = true) ∧
    ((∀ a b c, Config.replicaAt a b c = 1200) →
      (List.range (6 + 1)).find? (fun q => !(pointHolds 1200 640 90 (raiseOffset 1200 640 90 6 13 0) q)) = some 3) := by
  constructor
  · intro h; rw [raiseOffset_at h, pointHolds_at h]; decide +kernel
  · intro h; rw [raiseOffset_at h, pointHolds_at h]; decide +kernel
/-! ## Firmware -/

/-- A mailbox message: its type, length word and payload, without a key. -/
def msg (type len : Nat) (payload : Bytes) : Bytes := fields 32 [(0, 2, 0x5A4D), (2, 1, 0x30), (3, 1, type), (4, 2, len)] ++ payload

/-- The first 16 bytes of a keyed message with counter 1. -/
def keyedHead (type len : Nat) : Bytes := fields 16 [(0, 2, 0x5A4D), (2, 1, 0x30), (3, 1, type), (4, 2, len + 0x2000), (8, 8, 1)]

/-- A message of channel 0 under key [9], for a module whose serial is 0 (R529). -/
def keyedMsg (type : Nat) (payload : Bytes) : Bytes :=
  keyedHead type payload.length ++
    kmac256 [9] (zeroBytes 8 ++ [0] ++ keyedHead type payload.length ++ payload) 16 "ZV-OM4096 MBX" ++ payload

/-- The conditions of `Taken` but the key, one by one. -/
def takenParts (s : State) (ch : BitVec 3) (m : Bytes) (kind : Nat) : List Bool :=
  let x := getPort s (chPort ch.toNat)
  [decide (ch.toNat < 2), bar2Open s (chPort ch.toNat), !x.mbxGo, !x.mbxDone, s.fw.mbxReady, !(mbInService s ch.toNat),
   mbHeader m == none, mbType m == kind, decide (32 + mbLen m ≤ m.length), decide (m.length ≤ 4096),
   decide (s.fw.state < 2 → romType kind = true), mbAllowed s ch.toNat kind, mbReserved m]

theorem taken_of {s : State} {ch : BitVec 3} {m : Bytes} {kind : Nat} {key : Option Bytes} (h : (takenParts s ch m kind).all id = true)
    (hk : (mbVerify s ch.toNat m).2 = (none, key)) : Taken s ch m kind { channel := ch.toNat, message := m, key } := by
  have each : ∀ b ∈ takenParts s ch m kind, b = true := List.all_eq_true.mp h
  have part : ∀ (i : Nat) (b : Bool), (takenParts s ch m kind)[i]? = some b → b = true := fun i b hb => each b (List.mem_of_getElem? hb)
  exact { bar2 := of_decide_eq_true (part 0 _ rfl), reached := part 1 _ rfl, free := (Bool.not_eq_true' _).mp (part 2 _ rfl)
          read := (Bool.not_eq_true' _).mp (part 3 _ rfl), served := part 4 _ rfl, idle := (Bool.not_eq_true' _).mp (part 5 _ rfl)
          header := eq_of_beq (part 6 _ rfl), type := eq_of_beq (part 7 _ rfl), whole := of_decide_eq_true (part 8 _ rfl)
          fits := of_decide_eq_true (part 9 _ rfl), rom := of_decide_eq_true (part 10 _ rfl), key := hk, allowed := part 11 _ rfl
          layout := part 12 _ rfl, channel := rfl, message := rfl }

/-- A plain request on channel 0. -/
def req (m : Bytes) : MbxReq := { channel := 0, message := m, key := none }

/-- `on` in a firmware state. -/
def inFw (f : FwState) : State := { on with fw := { f with mbxReady := true } }

theorem witness_FirmwareStartsAndFails_load :
    (let m := msg 1 0 []; Taken on 0 m 0x01 (req m)) ∧
    (let m := msg 2 4 (leBytes 4 (24 * 2 ^ 20)); Sound (inFw FwState.reset) ∧ Taken (inFw FwState.reset) 0 m 0x02 (req m) ∧
      le (fit (mbPayload m) 4) 0 4 ≤ 24 * 2 ^ 20) ∧
    (let m := msg 3 6 (leBytes 4 1 ++ [7, 8])
     let s := inFw { FwState.reset with state := 1, loadLen := 3, loadBytes := [6] }
     Sound s ∧ Taken s 0 m 0x03 (req m) ∧ le (fit (mbPayload m) 4) 0 4 = s.fw.loadBytes.length ∧
     s.fw.loadBytes.length + ((mbPayload m).drop 4).length ≤ s.fw.loadLen) ∧
    (let m := msg 4 0 []
     let s := inFw { FwState.reset with state := 1 }
     Sound s ∧ Taken s 0 m 0x04 (req m) ∧ imageCheck s s.fw.loadBytes ≠ 0) :=
  ⟨taken_of (by decide +kernel) (by decide +kernel),
    ⟨sound_of (by decide +kernel), taken_of (by decide +kernel) (by decide +kernel), by decide +kernel⟩,
    ⟨sound_of (by decide +kernel), taken_of (by decide +kernel) (by decide +kernel), by decide +kernel, by decide +kernel⟩,
    sound_of (by decide +kernel), taken_of (by decide +kernel) (by decide +kernel), by decide +kernel⟩

/-- `on` with port A's link down. -/
def fwDown (f : FwState) : State := { portDown false with fw := f }

/-- 16 DIMMs of 64 GB. -/
def spd : List (Option Dimm) := List.replicate 16 (some { capGb := 64, rateMts := 8800, x4 := true })

theorem witness_FirmwareStartsAndFails_fail :
    (let s := fwDown { FwState.reset with state := 1 }
     Sound s ∧ s.err.failLog.length < 4032 ∧ portNo .a = s.fw.loader.toNat ∧ (getPort s .a).linkUp = false ∧ s.fw.state = 1) ∧
    (let s := fwDown { FwState.reset with state := 2 }; Sound s ∧ portNo .a = s.fw.loader.toNat ∧ s.fw.state = 2) ∧
    (let s := inFw { FwState.reset with state := 2 }
     Sound s ∧ s.err.failLog.length < 4032 ∧ s.fw.state = 2 ∧ s.rst.selftestDone = true ∧ patternOf (dimmsOf spd) ≠ 0) ∧
    (∀ f ∈ [{ FwState.reset with state := 2 }, { FwState.reset with state := 4 }, { FwState.reset with state := 5, phase := 3 }],
      let s := inFw f
      Sound s ∧ s.err.failLog.length < 4032 ∧ 2 ≤ s.fw.state ∧ s.err.fwFatal = false ∧ s.fw.ccFailAt = none ∧ copyGood s = true ∧
      s.fw.waiting = [] ∧ (getPort s .a).mbxGo = false ∧ (getPort s .b).mbxGo = false) ∧
    (let s := inFw { FwState.reset with state := 4, ccFailAt := some 1 }
     Sound s ∧ 2 ≤ s.fw.state ∧ s.err.fwFatal = false ∧ s.fw.ccFailAt = some 1 ∧ s.nowNs < 1 + 1000000000) ∧
    (let s := inFw { FwState.reset with state := 4, area := true }
     Sound s ∧ 2 ≤ s.fw.state ∧ s.err.fwFatal = false ∧ copyGood s = false) :=
  ⟨⟨sound_of (by decide +kernel), by decide +kernel⟩, ⟨sound_of (by decide +kernel), by decide +kernel⟩,
    ⟨sound_of (by decide +kernel), by decide +kernel⟩,
    fun f hf => ⟨sound_of (by revert f; decide +kernel), by revert f; decide +kernel⟩, ⟨sound_of (by decide +kernel), by decide +kernel⟩,
    sound_of (by decide +kernel), by decide +kernel⟩

theorem witness_MailboxSettingsAndReads :
    (let s := inFw { FwState.reset with state := 3 }
     Sound s ∧ (let m := msg 8 64 (fields 64 [(0, 2, 3800), (3, 1, 3), (8, 2, 1000)])
       Taken s 0 m 0x08 (req m) ∧ configGood (fit (mbPayload m) 64) = true) ∧
     (let m := msg 8 64 (fields 64 [(0, 2, 3801)]); Taken s 0 m 0x08 (req m) ∧ configGood (fit (mbPayload m) 64) = false)) ∧
    (let m := msg 9 18 (fields 18 [(0, 8, 0x8000), (16, 1, 10)])
     let b := fit (mbPayload m) 18
     Taken on 0 m 0x09 (req m) ∧ le b 0 8 % 4096 = 0 ∧ (byteAt b 16).toNat ≤ 10) ∧
    (let m := msg 9 18 (fields 18 [(16, 1, 11)]); Taken on 0 m 0x09 (req m) ∧ 10 < (byteAt (fit (mbPayload m) 18) 16).toNat) ∧
    (let m := msg 0x0A 8 (fields 8 [(0, 1, 2)]); Taken on 0 m 0x0A (req m) ∧ (byteAt (fit (mbPayload m) 8) 0).toNat ≤ 2) ∧
    (let m := msg 0x0B 4 (zeroBytes 4); Taken on 0 m 0x0B (req m)) ∧
    (let m := msg 0x0C 4 (zeroBytes 4); Taken on 0 m 0x0C (req m)) ∧
    (let m := msg 0x0D 1 [4]; Taken on 0 m 0x0D (req m) ∧ (byteAt (mbPayload m) 0).toNat ≤ 4) ∧
    (let m := msg 0x0D 1 [5]; Taken on 0 m 0x0D (req m) ∧ 4 < (byteAt (mbPayload m) 0).toNat) ∧
    (let m := msg 0x14 0 []; Taken on 1 m 0x14 { channel := 1, message := m, key := none } ∧ 2 ≤ on.fw.state) :=
  ⟨⟨sound_of (by decide +kernel), ⟨taken_of (by decide +kernel) (by decide +kernel), by decide +kernel⟩,
      taken_of (by decide +kernel) (by decide +kernel), by decide +kernel⟩,
    ⟨taken_of (by decide +kernel) (by decide +kernel), by decide +kernel⟩,
    ⟨taken_of (by decide +kernel) (by decide +kernel), by decide +kernel⟩,
    ⟨taken_of (by decide +kernel) (by decide +kernel), by decide +kernel⟩,
    taken_of (by decide +kernel) (by decide +kernel), taken_of (by decide +kernel) (by decide +kernel),
    ⟨taken_of (by decide +kernel) (by decide +kernel), by decide +kernel⟩,
    ⟨taken_of (by decide +kernel) (by decide +kernel), by decide +kernel⟩,
    taken_of (by decide +kernel) (by decide +kernel), by decide +kernel⟩

theorem witness_MailboxSettingsAndReads_done :
    let s := fun r => { on with hif := { on.hif with a := { on.hif.a with mbxDone := true, mbxHeld := r, mbxConfig := r } } }
    bar2Open (s none) .a = true ∧ (getPort (s none) .a).mbxDone = true ∧ (getPort (s none) .a).mbxGo = false ∧
    (getPort (s none) .a).mbxHeld = none ∧ bar2Open (s (some [1])) .a = true ∧ (getPort (s (some [1])) .a).mbxHeld = some [1] := by
  decide +kernel

theorem witness_UpdateMessages_plain :
    ∀ k ∈ [0x10, 0x11, 0x12, 0x13], bar2Open on (chPort 0) = true ∧ (getPort on (chPort 0)).mbxGo = false ∧
      (getPort on (chPort 0)).mbxDone = false ∧ on.fw.mbxReady = true ∧ mbInService on 0 = false ∧ mbVersion (msg k 0 []) = none ∧
      mbType (msg k 0 []) = k ∧ 2 ≤ on.fw.state ∧ mbKeyed (msg k 0 []) = false ∧ 32 ≤ (msg k 0 []).length ∧
      (msg k 0 []).length ≤ 4096 := by decide +kernel

/-- Where the ROM holds that key's digest and signatures verify, the image passes. -/
theorem witness_FirmwareStartsAndFails_image (h1 : ∀ k, Config.romKeyDigest k = shake256 (zeroBytes 1952))
    (h2 : ∀ k m c g, Config.mldsaVerify k m c g = true) :
    let s := inFw { FwState.reset with state := 1, loadBytes := image }
    let m := msg 4 0 []
    Sound s ∧ Taken s 0 m 0x04 (req m) ∧ imageCheck s s.fw.loadBytes = 0 := by
  exact ⟨sound_of (by decide +kernel), taken_of (by decide +kernel) (by decide +kernel), image_good h1 h2 (by decide) (by decide)⟩

/-- `on` with a ROOT key, its serial 0 by hypothesis. -/
def rooted (f : FwState) : State := { inFw f with sec := { on.sec with rootKey := some [9] } }

theorem serial_zero (h : Config.deviceSerial = 0) : serialBytes = zeroBytes 8 := by
  simp only [serialBytes, h]; decide

/-- A message under that key is taken. -/
theorem taken_keyed (h : Config.deviceSerial = 0) {s : State} (hr : s.sec.rootKey = some [9]) {kind : Nat} {payload : Bytes}
    (ht : (takenParts s 0 (keyedMsg kind payload) kind).all id = true)
    (hn : mbCounter (keyedMsg kind payload) = 1 ∧ smGet 0 s.fw.mbxCtr 0 = 0 ∧ mbPayload (keyedMsg kind payload) = payload)
    (hk : mbKeyed (keyedMsg kind payload) = true ∧ mbNeed s (mbType (keyedMsg kind payload)) ≤ 2) :
    Taken s 0 (keyedMsg kind payload) kind { channel := 0, message := keyedMsg kind payload, key := some [9] } := by
  refine taken_of ht ?_
  have h0 : (0 : BitVec 3).toNat = 0 := rfl
  have hl : (keyedHead kind payload.length).length = 16 := Laws.leBytes_length _ _
  have hh : (keyedMsg kind payload).take 16 = keyedHead kind payload.length := by
    simp only [keyedMsg, List.append_assoc]; exact List.take_left' hl
  have hd : ((keyedMsg kind payload).drop 16).take 16 =
      kmac256 [9] (zeroBytes 8 ++ [0] ++ keyedHead kind payload.length ++ payload) 16 "ZV-OM4096 MBX" := by
    rw [keyedMsg, List.append_assoc, List.drop_left' hl]; exact List.take_left' (Laws.kmac256_length _ _ _ _)
  have ht : mbTag [9] 0 ((keyedMsg kind payload).take 16) (mbPayload (keyedMsg kind payload)) "ZV-OM4096 MBX" =
      ((keyedMsg kind payload).drop 16).take 16 := by
    rw [hd, hh, hn.2.2, mbTag, serial_zero h]; rfl
  have hko : keyOf s (fun key => mbTag key 0 ((keyedMsg kind payload).take 16) (mbPayload (keyedMsg kind payload))
      "ZV-OM4096 MBX") (((keyedMsg kind payload).drop 16).take 16) = 2 := by
    unfold keyOf; rw [hr]; exact if_pos ht
  simp only [mbVerify, hk.1, h0, hko, hn.1, hn.2.1, hr]
  rw [if_neg (by decide), if_neg (by decide), if_neg (by decide), if_neg (Nat.not_lt.mpr hk.2)]
  rfl

/-- The POWER_REQ of a state and trim point. -/
def powerMsg (st trim : Nat) : Bytes := fields 4 [(0, 1, st), (1, 1, trim)]

/-- `rooted` in a power state, or during an entry. -/
def powered (area : Bool) (st : BitVec 3) (e : Option PowerEntry) : State :=
  let s := rooted { on.fw with area }
  { s with pwr := { s.pwr with state := st, entry := e } }

theorem witness_PowerRequests (h : Config.deviceSerial = 0) :
    (∀ x ∈ [(none, 0, 0), (none, 1, 6), (none, 2, 0), (none, 3, 0), (none, 4, 0), (none, 5, 0), (none, 1, 7), (none, 2, 1),
        (some (entryTo 3 0 false), 0, 0), (some (entryTo 3 0 false), 4, 0)], Sound (powered true 0 x.1) ∧
      ∃ r, Taken (powered true 0 x.1) 0 (keyedMsg 0x0E (powerMsg x.2.1 x.2.2)) 0x0E r) ∧
    (∃ r, Taken (powered true 3 none) 0 (keyedMsg 0x0E (powerMsg 0 0)) 0x0E r) ∧ Sound (powered true 3 none) ∧
    holdOn (powered true 3 none) = false ∧ holdOn (powered true 0 (some (entryTo 3 0 false))) = false ∧
    parkAllowed (powered true 0 none) = true ∧ parkAllowed (powered false 0 none) = false ∧ Sound (powered false 0 none) ∧
    ∃ r, Taken (powered false 0 none) 0 (keyedMsg 0x0E (powerMsg 4 0)) 0x0E r := by
  refine ⟨fun x hx => ⟨sound_of ?_, _, taken_keyed h rfl ?_ ?_ ?_⟩, ⟨_, taken_keyed h rfl ?_ ?_ ?_⟩, sound_of ?_, ?_, ?_, ?_, ?_,
    sound_of ?_, _, taken_keyed h rfl ?_ ?_ ?_⟩
  iterate 4 revert x; decide +kernel
  all_goals decide +kernel

/-- The largest FWU_STAGE from address 0. -/
def stageMsg : Bytes := fields 12 [(8, 4, 24 * 2 ^ 20)]

theorem witness_UpdateMessages (h : Config.deviceSerial = 0) :
    let f := { on.fw with area := true, staged := some [1], verified := true, phase := 2 }
    Sound (rooted f) ∧ (∃ r, Taken (rooted f) 0 (keyedMsg 0x10 (fields 12 [(8, 4, 64)])) 0x10 r) ∧
    (∃ r, Taken (rooted f) 0 (keyedMsg 0x11 []) 0x11 r) ∧ (∃ r, Taken (rooted f) 0 (keyedMsg 0x12 []) 0x12 r) ∧
    (∃ r, Taken (rooted f) 0 (keyedMsg 0x13 []) 0x13 r) ∧ (rooted f).fw.phase < 3 ∧ (rooted f).fw.area = true ∧
    (let b := fit (mbPayload (keyedMsg 0x10 (fields 12 [(8, 4, 64)]))) 12
     le b 0 8 % 64 = 0 ∧ le b 8 4 ≤ 24 * 2 ^ 20 ∧ (read (rooted f) .dram (le b 0 8) (le b 8 4)).err = none) ∧
    (rooted f).fw.verified = true ∧ (rooted f).pwr.state < 3 ∧ (rooted f).hif.wtWait = none ∧ (rooted f).fw.staged = some [1] :=
  ⟨sound_of (by decide +kernel), ⟨_, taken_keyed h rfl (by decide +kernel) (by decide +kernel) (by decide +kernel)⟩,
    ⟨_, taken_keyed h rfl (by decide +kernel) (by decide +kernel) (by decide +kernel)⟩, ⟨_, taken_keyed h rfl (by decide +kernel) (by decide +kernel) (by decide +kernel)⟩,
    ⟨_, taken_keyed h rfl (by decide +kernel) (by decide +kernel) (by decide +kernel)⟩, by decide +kernel⟩

/-- A handoff record that firmware accepts: no sections. -/
def record : Bytes :=
  let b := fields 32 [(0, 4, 0x5A484F31), (4, 1, 1)]
  b ++ shake256 b

/-- `on` in an update: `img` is its old image, and a request may be unanswered. -/
def fwUpdating (img : Bytes) (switchAt : Nat) (waits : Bool) : State :=
  let s := inFw { on.fw with state := 5, phase := 4, switchAt, oldImage := img, loopsTaken := false, handoff := some record }
  { s with pwr := { s.pwr with openWait := if waits then [(req [], 0)] else [] } }

theorem witness_UpdateSwitches (h1 : ∀ k, Config.romKeyDigest k = shake256 (zeroBytes 1952))
    (h2 : ∀ k m c g, Config.mldsaVerify k m c g = true) :
    (∀ w, let s0 := fwUpdating [] 0 w
      let s := { s0 with fw := { s0.fw with phase := 3, staged := some [1] } }
      Sound s ∧ s.fw.state = 5 ∧ s.fw.phase = 3 ∧ s.fw.staged = some [1] ∧ serviceDone s = !w) ∧
    (let s := fwUpdating [] 500000001 false
     Sound s ∧ s.fw.loopsTaken = false ∧ s.pwr.ceil.loopHold = false ∧ s.fw.switchAt + 20000000 ≤ s.nowNs ∧
     s.fw.state = 5 ∧ 4 ≤ s.fw.phase ∧ s.nowNs < s.fw.switchAt + 500000000 ∧ s.fw.handoff.map acceptRecord = some true ∧
     s.fw.waiting = [] ∧ (getPort s .a).mbxGo = false ∧ (getPort s .b).mbxGo = false ∧ imageCheck s s.fw.oldImage ≠ 0) ∧
    (let s := fwUpdating image 500000000 false
     Sound s ∧ s.fw.state = 5 ∧ 4 ≤ s.fw.phase ∧ s.fw.switchAt + 500000000 ≤ s.nowNs ∧ imageCheck s s.fw.oldImage = 0 ∧
     s.fw.waiting = [] ∧ (getPort s .a).mbxGo = false ∧ (getPort s .b).mbxGo = false) ∧
    (let s := inFw { on.fw with phase := 5 }; Sound s ∧ s.fw.state = 4 ∧ s.fw.phase = 5) :=
  ⟨fun w => ⟨sound_of (by revert w; decide +kernel), by revert w; decide +kernel⟩, ⟨sound_of (by decide +kernel), by decide +kernel⟩,
    ⟨sound_of (by decide +kernel), by decide +kernel, by decide +kernel, by decide +kernel, image_good h1 h2 (by decide) (by decide),
      by decide +kernel⟩, sound_of (by decide +kernel), by decide +kernel⟩
/-! ## Core units -/

/-- A VE_RUN op of one iteration in every lane, its constants at core-store offset 0, without a Reduction Unit operation. -/
def veDesc : Bytes := fields 64 [(0, 1, 0x18), (16, 8, 2 ^ 64 - 1)]

/-- The op as it runs: its streams and gather entries, the vectors delivered. -/
def veAt (d : Bytes) (streams gathers : List Bytes) (pos : Nat) : VeRun :=
  { tok := token 2, idx := 0, desc := d, prog := [], streams, gathers, iter := 0, pc := 0, inPos := [pos, 0, 0, 0],
    outPos := [0, 0, 0, 0], outBuf := [[], [], [], []], rsPos := 0, nv := false, of := false, infRow := false, maskedRow := false,
    singular := false, hard := none, waiting := false, finished := false, scattered := [] }

/-- Core 0 with that op running on a context and with plates queued. -/
def veCore (v : VeRun) (c : VeCtx) (pq : List Plate) : State := setCore on 0 { Core.idle with ve := some v, ctx0 := c, pq }

/-- Its environment. -/
def veEnvOf (v : VeRun) (c : VeCtx) (pq : List Plate) : VeEnv := { s := veCore v c pq, n := 0, v, c }

/-- A test of `Issuable` but for soundness. -/
theorem issuable_of {s : State} {n : Nat} {u : Uop} {e : VeEnv} (h1 : soundB s = true) (h2 : veEnv s n = some e)
    (h3 : (e.v.hard.isNone && byteAt e.v.desc 0 != 0x19 && uopOk (veParm e.v.desc).ruOp (veParm e.v.desc).ruSeg u) = true) :
    Issuable s n u e := by
  simp only [Bool.and_eq_true, Option.isNone_iff_eq_none, bne_iff_ne, ne_eq] at h3
  exact ⟨sound_of h1, h2, h3.1.1, h3.1.2, h3.2⟩

/-- Every micro-op of the lane table has operands that R229 allows: variant 0 or 1, no operand beside the used ones. -/
theorem witness_LaneMicroOps :
    ∀ m ∈ laneTable, ∃ d a b : BitVec 6, uopOk 0 false (uopFields m.op d a b 0) = true ∧
      Issuable (veCore (veAt veDesc [] [] 0) VeCtx.zero []) 0 (uopFields m.op d a b 0) (veEnvOf (veAt veDesc [] [] 0) VeCtx.zero []) := by
  have key : ∀ m ∈ laneTable, ∃ d ∈ [(1 : BitVec 6)], ∃ a ∈ [(0 : BitVec 6), 2], ∃ b ∈ [(0 : BitVec 6), 3],
      uopOk 0 false (uopFields m.op d a b 0) = true := by decide +kernel
  intro m hm
  obtain ⟨d, _, a, _, b, _, h⟩ := key m hm
  refine ⟨d, a, b, h, sound_of (by decide +kernel), by decide +kernel, rfl, by decide, ?_⟩
  rw [show (veParm (veEnvOf (veAt veDesc [] [] 0) VeCtx.zero []).v.desc).ruOp = 0 by decide +kernel,
    show (veParm (veEnvOf (veAt veDesc [] [] 0) VeCtx.zero []).v.desc).ruSeg = false by decide +kernel]
  exact h

/-- A context whose Reduction Unit holds `k` results, operation `op`. -/
def ruCtx (op k : Nat) : VeCtx :=
  { VeCtx.zero with ru := { VeCtx.zero.ru with op, queue := List.replicate k { lo := 7, hi := 8, pair := true } } }

/-- `veDesc` with a Reduction Unit operation. -/
def ruDesc (op : Nat) : Bytes := fields 64 [(0, 1, 0x18), (16, 8, 2 ^ 64 - 1), (36, 1, op)]

theorem witness_MaskAndReductionMicroOps :
    (∀ u ∈ [uopFields 0x00 0 0 0 0, uopFields 0x02 63 63 0 0, uopFields 0x1D 7 1 2 0, uopFields 0x1E 1 1 2 0, uopFields 0x20 7 7 0 0],
      Issuable (veCore (veAt veDesc [] [] 0) VeCtx.zero []) 0 u (veEnvOf (veAt veDesc [] [] 0) VeCtx.zero [])) ∧
    (Issuable (veCore (veAt (ruDesc 1) [] [] 0) (ruCtx 1 0) []) 0 (uopFields 0x22 0 1 0 0) (veEnvOf (veAt (ruDesc 1) [] [] 0) (ruCtx 1 0) []) ∧
      (ruPush (ruCtx 1 0).ru 0 (List.replicate 64 0) (2 ^ 64 - 1) 0).isSome = true) ∧
    (Issuable (veCore (veAt (ruDesc 1) [] [] 0) (ruCtx 1 ruQueueLen) []) 0 (uopFields 0x22 0 1 0 0)
        (veEnvOf (veAt (ruDesc 1) [] [] 0) (ruCtx 1 ruQueueLen) []) ∧
      ruPush (ruCtx 1 ruQueueLen).ru 0 (List.replicate 64 0) (2 ^ 64 - 1) 0 = none) ∧
    (Issuable (veCore (veAt (ruDesc 1) [] [] 0) (ruCtx 1 1) []) 0 (uopFields 0x23 62 0 0 0)
        (veEnvOf (veAt (ruDesc 1) [] [] 0) (ruCtx 1 1) []) ∧
      (uopFields 0x23 62 0 0 0).var = 0 ∧ (ruCtx 1 1).ru.queue = { lo := 7, hi := 8, pair := true } :: []) ∧
    (ruCtx 1 0).ru.queue = [] := by
  refine ⟨fun u hu => issuable_of (by decide +kernel) (by decide +kernel) ?_, ⟨issuable_of (by decide +kernel) (by decide +kernel) (by decide +kernel), by decide +kernel⟩,
    ⟨issuable_of (by decide +kernel) (by decide +kernel) (by decide +kernel), by decide +kernel⟩,
    ⟨issuable_of (by decide +kernel) (by decide +kernel) (by decide +kernel), by decide +kernel⟩, rfl⟩
  revert u; decide +kernel

/-- An LPA_MATMUL of one element in mode `arrays`, or a member of a group. -/
def lpaDesc (arrays pos grp prob : Nat) : Bytes :=
  fields 64 [(0, 1, 0x10), (36, 2, grp), (38, 1, arrays + 32 * pos), (39, 1, prob)]

/-- Photometer counts of 0. -/
def noPhot : Phot :=
  { converted := 0, clipped := 0, flushed := 0, clamped := 0, nonfinite := 0, outliers := 0, olClipped := 0, idle := 0, amax := 0 }

/-- The one member of an op. -/
def loneMember : LpaMember :=
  { idx := 0, desc := lpaDesc 0 0 0 0, aRec := zeroBytes 32, bRec := zeroBytes 32, dRec := zeroBytes 32, ocs := zeroBytes 96,
    shadow := [], status := .ok, nv := false, of := false, faulted := false, phot := noPhot }

/-- An LPA op of one element at row block `mb`. -/
def lpaAt (mb : Nat) : LpaRun :=
  { tok := token 2, members := [loneMember], cfg := 0x16, photBase := 0, mb, banks := [], tiles := [0, 0, 0, 0], weights := [],
    inits := [], idle := 0, boundary := false }

/-- A stream record: two rows of 65 FP32 elements in core 0's store at offset 0x1000, or the Plate Queue. -/
def memStream : Bytes := fields 32 [(0, 1, 1), (2, 2, 11), (4, 6, coreStores + 0x1000), (16, 4, 64), (20, 4, 1), (24, 4, 8)]
/-- A stream from the Plate Queue of one plate. -/
def pqStream : Bytes := fields 32 [(0, 1, 2)]

/-- Row-status bytes from offset 64 of the core store (R252), and a segmented SUM (R249). -/
def rsDesc : Bytes := fields 64 [(0, 1, 0x18), (16, 8, 2 ^ 64 - 1), (36, 1, 1), (40, 4, 2 ^ 20 + 64)]
/-- The segmented SUM. -/
def segDesc : Bytes := fields 64 [(0, 1, 0x18), (16, 8, 2 ^ 64 - 1), (36, 1, 17)]

/-- A segmented Reduction Unit, with segments beginning at lane 1 in mask 1. -/
def segCtx : VeCtx := { ruCtx 1 0 with masks := [(1, 2)], ru := { (ruCtx 1 0).ru with seg := true } }

theorem witness_MaskAndReductionMicroOps_rows :
    (let v := veAt rsDesc [] [] 0
     let e := veEnvOf v (ruCtx 1 0) []
     Issuable (veCore v (ruCtx 1 0) []) 0 (uopFields 0x22 0 1 0 0) e ∧
     (ruPush (ruCtx 1 0).ru (envEps e) (List.replicate 64 0) (activeOf e (uopFields 0x22 0 1 0 0)) 0).map (·.2.length) = some 1 ∧
     (veParm e.v.desc).ruSeg = false ∧ (veParm e.v.desc).rsEn = true ∧
     (veParm e.v.desc).rsBase + e.v.rsPos + 1 ≤ coreStoreLen) ∧
    (let v := veAt segDesc [[], [], [], [], [], [], [], memStream] [] 0
     let e := veEnvOf v segCtx []
     Issuable (veCore v segCtx []) 0 (uopFields 0x22 0 1 0 8) e ∧
     (ruPush segCtx.ru (envEps e) (List.replicate 64 0) (activeOf e (uopFields 0x22 0 1 0 8)) (maskGet segCtx 1)).map
       (fun x => x.2.map (·.1.pair)) = some [false] ∧
     (veParm e.v.desc).ruSeg = true ∧ (veParm e.v.desc).rsEn = false ∧ 3 < e.v.outPos.length ∧ outRoom e 3 1 = true) ∧
    (let c := { ruCtx 1 16 with ru := { (ruCtx 1 16).ru with width := 1 } }
     let e := veEnvOf (veAt (ruDesc 1) [] [] 0) c []
     Issuable (veCore (veAt (ruDesc 1) [] [] 0) c []) 0 (uopFields 0x23 62 0 0 8) e ∧
     (uopFields 0x23 62 0 0 8).var = 1 ∧ 64 / (4 * 2 ^ c.ru.width) ≤ c.ru.queue.length) ∧
    (let e := veEnvOf (veAt (ruDesc 1) [] [] 0) (ruCtx 1 0) []
     Issuable (veCore (veAt (ruDesc 1) [] [] 0) (ruCtx 1 0) []) 0 (uopFields 0x23 62 0 0 0) e ∧ (ruCtx 1 0).ru.queue.length < 64 / 64) :=
  ⟨⟨issuable_of (by decide +kernel) (by decide +kernel) (by decide +kernel), by decide +kernel⟩,
    ⟨issuable_of (by decide +kernel) (by decide +kernel) (by decide +kernel), by decide +kernel⟩,
    ⟨issuable_of (by decide +kernel) (by decide +kernel) (by decide +kernel), by decide +kernel⟩,
    issuable_of (by decide +kernel) (by decide +kernel) (by decide +kernel), by decide +kernel⟩

/-- A plate of zeros. -/
def plate (visible : Bool) (idx : Nat) : Plate :=
  { fmt := 0, codes := List.replicate 1024 0, scales := [], zps := [], nv := 0, of := 0, poison := 0, rowsValid := 32, colsValid := 32,
    stream := 0, phase := 0, opIdx := idx, mb := 0, array := 0, probId := 0, layer := 0, status := .ok, imag := false, filled := true, visible }

/-- LDS of register 1 from stream 0, on core 0 of `s`. -/
def ldsAt (v : VeRun) (s : State) : Prop :=
  Issuable s 0 (uopFields 0x04 1 0 0 0) { s, n := 0, v, c := VeCtx.zero } ∧ streamCheck s 0 (v.streams.getD 0 []) false true = none

theorem lds_of {v : VeRun} {s : State} (h1 : soundB s = true) (h2 : veEnv s 0 = some { s, n := 0, v, c := VeCtx.zero })
    (h3 : (v.hard.isNone && byteAt v.desc 0 != 0x19 && uopOk (veParm v.desc).ruOp (veParm v.desc).ruSeg (uopFields 0x04 1 0 0 0) &&
      (streamCheck s 0 (v.streams.getD 0 []) false true == none)) = true) : ldsAt v s := by
  simp only [Bool.and_eq_true, beq_iff_eq] at h3
  exact ⟨issuable_of h1 h2 (by simpa [Bool.and_eq_true] using h3.1), h3.2⟩

theorem witness_StreamAndGatherMicroOps_lds :
    (∀ pos ∈ [3, 4], let v := veAt veDesc [memStream] [] pos
     ldsAt v (veCore v VeCtx.zero []) ∧ (streamRec memStream).kind = 1 ∧
     rowVecs (streamRec memStream) * (streamRec memStream).rows = 4) ∧
    (∀ pos ∈ [15, 16], ∀ vis, let v := veAt veDesc [pqStream] [] pos
     ldsAt v (veCore v VeCtx.zero [plate vis 0]) ∧ (getCore (veCore v VeCtx.zero [plate vis 0]) 0).pq = plate vis 0 :: [] ∧
     (streamRec pqStream).kind = 2 ∧ (streamRec pqStream).rows = 1) ∧
    (let v := veAt veDesc [pqStream] [] 0
     let s := setCore on 0 { Core.idle with ve := some v, lpa := some (lpaAt 0) }
     ldsAt v s ∧ (getCore s 0).pq = [] ∧ lpaPending s 0 = true) ∧
    (let v := veAt veDesc [pqStream] [] 0
     ldsAt v (veCore v VeCtx.zero []) ∧ (getCore (veCore v VeCtx.zero []) 0).pq = [] ∧ lpaPending (veCore v VeCtx.zero []) 0 = false) := by
  refine ⟨fun pos hp => ⟨lds_of ?_ ?_ ?_, ?_⟩, fun pos hp vis => ⟨lds_of ?_ ?_ ?_, ?_⟩,
    ⟨lds_of (by decide +kernel) (by decide +kernel) (by decide +kernel), by decide +kernel⟩,
    lds_of (by decide +kernel) (by decide +kernel) (by decide +kernel), by decide +kernel⟩ <;> revert pos <;>
    first | decide +kernel | (revert vis; decide +kernel)

theorem witness_StreamAndGatherMicroOps_sts :
    ∀ pos ∈ [0, 64, 130], let v := { veAt veDesc [[], [], [], [], memStream] [] 0 with outPos := [pos, 0, 0, 0] }
    let e := veEnvOf v VeCtx.zero []
    Issuable (veCore v VeCtx.zero []) 0 (uopFields 0x05 0 1 0 0) e ∧ streamCheck (veCore v VeCtx.zero []) 0 memStream true true = none ∧
    0 < e.v.outPos.length ∧ (envStream e 4).rowLen = 65 ∧
    outRoom e 0 (min 64 (65 - pos % 65)) = decide (pos < 130) ∧ (fmtWord (envStream e 4).fw).fmt = 11 ∧
    (pos = 0 → pos % 65 % 64 = 0) ∧ (pos = 64 → pos % 65 % 64 = 0) ∧ e.v.outBuf[0]? = some [] := by
  intro pos hp
  refine ⟨issuable_of ?_ ?_ ?_, ?_⟩ <;> revert pos <;> decide +kernel

/-- A gather entry: int32 elements in core 0's store, the highest index `limit` − 1. -/
def gather (type limit : Nat) : Bytes := fields 16 [(0, 6, coreStores), (6, 1, type), (8, 4, limit)]

/-- A context whose register 2 holds the lane number in each of the first four lanes. -/
def idxCtx : VeCtx := { VeCtx.zero with regs := [(129, (1, false)), (130, (2, false)), (131, (3, false))] }

/-- The op on its first four lanes. -/
def fourLanes : Bytes := fields 64 [(0, 1, 0x18), (16, 8, 15)]

theorem witness_StreamAndGatherMicroOps_gathers :
    let v := fun limit => veAt fourLanes [] [gather 1 limit] 0
    let e := fun limit => veEnvOf (v limit) idxCtx []
    let addr := fun i => coreStores + 4 * i
    let u := fun op => if op = 6 then uopFields 0x06 1 2 0 0 else uopFields op 0 2 3 0
    (∀ op ∈ [6, 7, 8], ∀ limit ∈ [3, 4], Issuable (veCore (v limit) idxCtx []) 0 (u op) (e limit) ∧
      gatherCheck (veCore (v limit) idxCtx []) 0 (gather 1 limit) (op == 8) (op == 8) = none ∧
      (∀ i < 3, laneOn (e limit) (u 6) i = true ∧ (laneGet idxCtx 2 i).2 = false ∧
        gatherTarget (e limit) (gatherEnt (gather 1 limit)) (laneGet idxCtx 2 i) = .at_ (addr i))) ∧
    (∀ i < 64, laneOn (e 4) (u 6) i = true → gatherTarget (e 4) (gatherEnt (gather 1 4)) (laneGet idxCtx 2 i) = .at_ (addr i)) ∧
    (∀ i < 64, laneOn (e 4) (u 6) i = true → (laneGet idxCtx 3 i).2 = false ∧ spanPoison (e 4).s.mem (addr i) 4 = false) ∧
    laneOn (e 4) (u 6) 3 = true ∧ laneOn (e 4) (u 6) 4 = false ∧ (∀ i j, addr i = addr j → i = j) ∧
    gatherTarget (e 3) (gatherEnt (gather 1 3)) (laneGet idxCtx 2 3) = .bad 2 (addr 3) ∧
    gatherTarget (e 3) (gatherEnt (gather 1 3)) (2 ^ 32 - 1, false) = .bad 1 (coreStores - 4) := by
  intro v e addr u
  refine ⟨fun op hop limit hl => ⟨issuable_of ?_ ?_ ?_, ?_⟩, by decide +kernel, by decide +kernel, by decide +kernel,
    by decide +kernel, fun i j h => ?_, by decide +kernel⟩
  · revert op limit; decide +kernel
  · revert op limit; decide +kernel
  · revert op limit; decide +kernel
  · revert op limit; decide +kernel
  · have : coreStores + 4 * i = coreStores + 4 * j := h
    omega

/-- An element in the next core's store, which core 0 does not reach. -/
theorem witness_StreamAndGatherMicroOps_reach :
    let g := fields 16 [(0, 6, coreStores + coreStoreLen - 4), (6, 1, 1), (8, 4, 9)]
    let v := veAt fourLanes [] [g] 0
    let e := veEnvOf v idxCtx []
    (∀ op ∈ [6, 7], Issuable (veCore v idxCtx []) 0 (if op = 6 then uopFields 0x06 1 2 0 0 else uopFields op 0 2 3 0) e) ∧
    gatherCheck (veCore v idxCtx []) 0 g false false = none ∧
    gatherTarget e (gatherEnt g) (laneGet idxCtx 2 0) = .at_ (coreStores + coreStoreLen - 4) ∧
    gatherTarget e (gatherEnt g) (laneGet idxCtx 2 1) = .bad 3 (coreStores + coreStoreLen) := by
  intro g v e
  refine ⟨fun op hop => issuable_of ?_ ?_ ?_, by decide +kernel⟩ <;> revert op <;> decide +kernel

/-- An LPA op as its command finds it. -/
def lpaOpOf (s : State) (d : Bytes) : Prop := Sound s ∧ startable s 0 0x10 (fun c => c.lpa.isNone) = some (opAt d)

/-- The checks of an LPA_MATMUL on its own. -/
def singleCheck (s : State) (d : Bytes) : Check :=
  let p := lpaParm d
  firstFail [failIf (!(reservedZero d lpaFields)) .badReserved, failIf (!(ctrCheck s (token 2).stream (opHdr d))) .badField,
    failIf (p.arrays == 3 || p.colgrp != 0 || decide (32 * (activeArrays p.arrays).length < p.n)) .badField,
    lpaCheck s 0 (token 2) p p.k]

theorem witness_LpaOpsStart :
    (∀ arrays ∈ [2, 3], lpaOpOf (coreAt (lpaDesc arrays 0 0 0) []) (lpaDesc arrays 0 0 0) ∧ (lpaParm (lpaDesc arrays 0 0 0)).groupPos = 0 ∧
      singleCheck (coreAt (lpaDesc arrays 0 0 0) []) (lpaDesc arrays 0 0 0) = if arrays = 3 then some .badField else none) ∧
    (∀ pos ∈ [1, 2, 3], lpaOpOf (coreAt (lpaDesc 0 pos 1 0) []) (lpaDesc 0 pos 1 0) ∧ (lpaParm (lpaDesc 0 pos 1 0)).groupPos = pos) ∧
    (getCore (coreAt (lpaDesc 0 1 1 0) []) 0).ve = none ∧
    (∀ idx ∈ [0, 1], let x := { lpaAt 0 with members := [{ loneMember with idx, shadow := zeroBytes 64 }], tiles := [1, 0, 0, 0] }
      let s := setCore (coreAt (lpaDesc 0 0 0 0) []) 0 { Core.idle with tokens := [token 2], lpaNext := some x }
      lpaOpOf s (lpaDesc 0 0 0 0) ∧ (getCore s 0).lpaNext = some x ∧ singleCheck s (lpaDesc 0 0 0 0) = none ∧
      (x.members = (newRun s 0 (opAt (lpaDesc 0 0 0 0)) [lpaDesc 0 0 0 0]).members ↔ idx = 0)) := by
  refine ⟨fun k hk => ⟨⟨sound_of ?_, ?_⟩, ?_⟩, fun k hk => ⟨⟨sound_of ?_, ?_⟩, ?_⟩, rfl, fun k hk => ⟨⟨sound_of ?_, ?_⟩, ?_⟩⟩ <;>
    revert k <;> decide +kernel

/-- The second member of a group, whose wait on counter 100 is `wait` away. -/
def groupEnd (wait : Nat) : Bytes :=
  fields 64 [(0, 1, 0x10), (1, 1, if wait = 0 then 0 else 2), (2, 2, if wait = 0 then 0 else 100), (4, 2, wait), (36, 2, 2), (38, 1, 96), (39, 1, 1)]

theorem witness_LpaOpsStart_group :
    let d := lpaDesc 0 1 1 0
    let ps := fun d1 => [d, d1].map (fun x => memberParm (lpaParm d) (lpaParm x))
    (∀ w ∈ [0, 32768], let s := coreAt d [(coreStores + 0x140, groupEnd w)]
      lpaOpOf s d ∧ groupOps s 0 (token 2) 1 2 = ([groupEnd w], true) ∧
      ((opHdr (groupEnd w)).waitEn && ctrInRange s 0 (opHdr (groupEnd w)).waitCtr &&
        waitHolds s (opHdr (groupEnd w)).waitCtr (opHdr (groupEnd w)).waitVal) = decide (w ≠ 0)) ∧
    (∀ x ∈ [d, groupEnd 0], reservedZero x lpaFields = true ∧ ctrCheck (coreAt d []) 0 (opHdr x) = true) ∧
    groupBad (ps (groupEnd 0)) true = false ∧
    (∀ q ∈ ps (groupEnd 0), lpaCheck (coreAt d [(coreStores + 0x140, groupEnd 0)]) 0 (token 2) q 1 = none) ∧
    groupOps (coreAt d []) 0 (token 2) 1 2 = ([], false) ∧ groupBad [memberParm (lpaParm d) (lpaParm d)] false = true := by
  intro d ps
  refine ⟨fun w hw => ⟨⟨sound_of ?_, ?_⟩, ?_⟩, by decide +kernel⟩ <;> revert w <;> decide +kernel

/-- Core 0 with that op, plates queued, a full queue for `full` ticks, preempted or not. -/
def lpaCore (r : LpaRun) (pq : List Plate) (full : Nat) (preempt : Bool) : State :=
  setCore on 0 { Core.idle with lpa := some r, pq, pqFull := full, preempt }

/-- A plate of that op in its bank. -/
def job (array : Nat) : PlateJob := { mb := 0, array, member := 0, imag := false, elems := [], held := false, entry := false }

theorem witness_PlatesAndRowBlocks_blocks :
    (let r := lpaAt 0
     Sound (lpaCore r [] 0 false) ∧ (getCore (lpaCore r [] 0 false) 0).lpa = some r ∧ r.members = loneMember :: [] ∧
     (activeArrays (runParm r loneMember).arrays).contains (3#2).toNat = true ∧ r.tiles.getD 3 0 < tilesAhead r r.mb ∧
     r.boundary = false ∧ blockReady r = false) ∧
    (let r := { lpaAt 0 with tiles := [1, 1, 1, 1] }
     Sound (lpaCore r [] 0 false) ∧ (getCore (lpaCore r [] 0 false) 0).lpa = some r ∧ tilesAhead r r.mb ≤ r.tiles.getD 3 0 ∧
     blockReady r = true ∧ r.members.all (fun m => !(lpaParm m.desc).dest) = true) ∧
    (let r := { lpaAt 1 with banks := [job 1] }
     Sound (lpaCore r [] 0 false) ∧ (getCore (lpaCore r [] 0 false) 0).lpa = some r ∧ r.members[0]? = some loneMember ∧
     (lpaParm loneMember.desc).dest = false ∧ (getCore (lpaCore r [] 0 false) 0).pq.length < 16 ∧
     (blinkQueue (lpaCore r [] 0 false) 0).length < 4) ∧
    (let r := lpaAt 1
     r.mb = rowBlocks r ∧ r.banks = [] ∧ Sound (lpaCore r [] 0 false) ∧ (getCore (lpaCore r [] 0 false) 0).lpa = some r) ∧
    (let r := { lpaAt 0 with tiles := [1, 1, 1, 1] }
     let s := setCore (coreAt (lpaDesc 0 0 0 0) []) 0 { Core.idle with tokens := [token 2], lpa := some r }
     Sound s ∧ tilesAhead r r.mb ≤ r.tiles.getD 3 0 ∧ r.boundary = false ∧ runCx r = false ∧ kTiles r ≤ 1 ∧
     (lookAhead s 0 r).map (fun x => x.tiles.getD 3 0) = some 0) ∧
    lookAhead (lpaCore { lpaAt 0 with tiles := [1, 1, 1, 1] } [] 0 false) 0 { lpaAt 0 with tiles := [1, 1, 1, 1] } = none ∧
    (let r := { lpaAt 1 with banks := [job 0, job 1] }
     let s := lpaCore r (List.replicate 15 (plate true 0)) 0 false
     Sound s ∧ (getCore s 0).lpa = some r ∧ (∀ j ∈ r.banks, j.member < r.members.length) ∧ (getCore s 0).pq.length = 15) :=
  ⟨⟨sound_of (by decide +kernel), by decide +kernel⟩, ⟨sound_of (by decide +kernel), by decide +kernel⟩,
    ⟨sound_of (by decide +kernel), by decide +kernel⟩, ⟨by decide +kernel, by decide +kernel, sound_of (by decide +kernel),
    by decide +kernel⟩, ⟨sound_of (by decide +kernel), by decide +kernel⟩, by decide +kernel, sound_of (by decide +kernel), by decide +kernel⟩

theorem witness_PlatesAndRowBlocks_queue :
    (∀ f, let p := { plate false 0 with filled := f }
     let s := lpaCore (lpaAt 0) ([plate true 0] ++ p :: []) 0 false
     Sound s ∧ (getCore s 0).lpa = some (lpaAt 0) ∧ (getCore s 0).ve = none ∧ (getCore s 0).pq = [plate true 0] ++ p :: [] ∧
     [plate true 0].all (·.visible) = true ∧ p.visible = false) ∧
    (let s := lpaCore (lpaAt 0) (List.replicate 16 (plate true 0)) (2 ^ 16) false
     Sound s ∧ 16 ≤ (getCore s 0).pq.length ∧ 2 ^ (10 + (lpaAt 0).cfg % 16) ≤ (getCore s 0).pqFull ∧ (getCore s 0).ve = none) ∧
    (getCore (lpaCore (lpaAt 0) (List.replicate 16 (plate true 0)) (2 ^ 16 - 1) false) 0).pqFull < 2 ^ (10 + (lpaAt 0).cfg % 16) ∧
    (let r := { lpaAt 0 with boundary := true }
     let s := lpaCore r [] 0 true
     Sound s ∧ (getCore s 0).lpa = some r ∧ (getCore s 0).preempt = true ∧ r.boundary = true ∧ r.banks = [] ∧ r.mb < rowBlocks r ∧
     (getCore s 0).lpaPaused = none ∧ (getCore s 0).svcTokens.any (sameList r.tok) = false) ∧
    (∀ x ∈ [(0, true), (3, false)], let r := { lpaAt 0 with boundary := true }
     let v := veAt veDesc [pqStream] [] x.1
     let s := setCore on 0 { Core.idle with lpa := some r, ve := some v, preempt := true }
     Sound s ∧ (getCore s 0).lpa = some r ∧ (getCore s 0).ve = some v ∧ (getCore s 0).vePaused = none ∧
     (getCore s 0).svcTokens.any (sameList v.tok) = false ∧
     pausesNow (setCore s 0 { getCore s 0 with lpa := none, lpaNext := none, lpaPaused := some r }) 0 v = x.2) := by
  refine ⟨fun f => ⟨sound_of ?_, ?_⟩, ⟨sound_of (by decide +kernel), by decide +kernel⟩, by decide +kernel,
    ⟨sound_of (by decide +kernel), by decide +kernel⟩, fun x hx => ⟨sound_of ?_, ?_⟩⟩
  case refine_1 | refine_2 => revert f; decide +kernel
  all_goals revert x; decide +kernel

/-- An op of each unit that its check takes, and one with a reserved bit set. -/
def unitDesc (k : Nat) (bad : Bool) : Bytes :=
  let r := if bad then 1 else 0
  match k with
  | 0 => fields 64 [(0, 1, 0x11), (1, 1, 8 * r), (48, 8, 2 ^ 63 + 1)]
  | 1 => fields 64 [(0, 1, 0x18), (1, 1, 8 * r), (8, 4, 0x200), (16, 8, 2 ^ 64 - 1)]
  | 2 => fields 64 [(0, 1, 0x19), (1, 1, 8 * r), (16, 6, coreStores + 0x1000), (22, 6, coreStores + 0x2000), (44, 6, coreStores + 0x3000)]
  | _ => fields 64 [(0, 1, 0x08), (1, 1, 8 * r), (8, 8, 0xFFFF800000001000), (16, 8, 0xFFFF000000002000), (24, 4, 3)]

/-- A copy to node 1, to which there is no route. -/
def farDma : Bytes := fields 64 [(0, 1, 0x08), (8, 8, 0xFFFF800000001000), (16, 8, 0x0001000000002000), (24, 4, 3)]

theorem witness_UnitOpsRun :
    (∀ b, Sound (coreAt (unitDesc 0 b) []) ∧ startable (coreAt (unitDesc 0 b) []) 0 0x11 (fun c => c.coe.isNone) = some (opAt (unitDesc 0 b)) ∧
      coeCheck (coreAt (unitDesc 0 b) []) 0 (token 2) (unitDesc 0 b) = if b then some .badReserved else none) ∧
    (∀ b, Sound (coreAt (unitDesc 1 b) []) ∧ startable (coreAt (unitDesc 1 b) []) 0 0x18 (fun c => c.ve.isNone) = some (opAt (unitDesc 1 b)) ∧
      veCheck (coreAt (unitDesc 1 b) []) 0 (token 2) (unitDesc 1 b) = if b then some .badReserved else none) ∧
    (∀ b, Sound (coreAt (unitDesc 2 b) []) ∧ startable (coreAt (unitDesc 2 b) []) 0 0x19 (fun c => c.ve.isNone) = some (opAt (unitDesc 2 b)) ∧
      solveCheck (coreAt (unitDesc 2 b) []) 0 (token 2) (unitDesc 2 b) = if b then some .badReserved else none) ∧
    (∀ b, Sound (coreAt (unitDesc 3 b) []) ∧ startable (coreAt (unitDesc 3 b) []) 0 0x08 (fun c => c.dma.isNone) = some (opAt (unitDesc 3 b)) ∧
      dmaCheck (coreAt (unitDesc 3 b) []) 0 (unitDesc 3 b) = (if b then some .badReserved else none) ∧
      (dmaParm (unitDesc 3 b)).rows = 1 ∧ localNode (coreAt (unitDesc 3 b) []) (gNode (dmaParm (unitDesc 3 b)).src) = true ∧
      localNode (coreAt (unitDesc 3 b) []) (gNode (dmaParm (unitDesc 3 b)).dst) = true ∧
      canAccess (coreAt (unitDesc 3 b) []) .dma (gLocal (dmaParm (unitDesc 3 b)).src) (dmaParm (unitDesc 3 b)).row = true ∧
      canAccess (coreAt (unitDesc 3 b) []) .dma (gLocal (dmaParm (unitDesc 3 b)).dst) (dmaParm (unitDesc 3 b)).row = true ∧
      (coreAt (unitDesc 3 b) []).mr.dramErr = []) ∧
    (let s := coreAt farDma []
     Sound s ∧ startable s 0 0x08 (fun c => c.dma.isNone) = some (opAt farDma) ∧ dmaCheck s 0 farDma = none ∧
     localNode s (gNode (dmaParm farDma).src) = true ∧ localNode s (gNode (dmaParm farDma).dst) = false ∧
     fabRoute s (gNode (dmaParm farDma).dst) = none) := by
  refine ⟨fun b => ⟨sound_of ?_, ?_⟩, fun b => ⟨sound_of ?_, ?_⟩, fun b => ⟨sound_of ?_, ?_⟩, fun b => ⟨sound_of ?_, ?_⟩,
    sound_of (by decide +kernel), by decide +kernel⟩ <;> revert b <;> decide +kernel

/-- An op that a unit runs or has finished. -/
def opRun (finished : Bool) : OpRun :=
  { tok := token 2, idx := 0, desc := zeroBytes 64, status := .ok, finished, phot := noPhot, photBase := 0, turn := 0 }

/-- Every unit of core 0 with an op. -/
def unitsAt (finished : Bool) : State :=
  setCore on 0 { Core.idle with ve := some { veAt veDesc [] [] 0 with finished }, coe := some (opRun finished), dma := some (opRun finished),
                                ccm := some (opRun finished) }

/-- Phase 0 of stream 0 with an I/O op in flight. -/
def ioRun (finished : Bool) : State :=
  let s := phased [0] []
  modPhase s 0 0 (fun p => { p with io := [{ idx := 1023, desc := zeroBytes 64, status := .ok, finished }], samples := 1 })

/-- A sample of that phase. -/
def sample : BlinkSample :=
  { core := 0, stream := 0, phase := 0, shadow := fields 32 [(0, 6, 0x1000), (6, 1, 12), (8, 6, 0x2000), (24, 4, 1)],
    ladderEntry := some 0x4000, elems := [(0, 0, 0x3F800000, 0, false)] }

/-- Core 0 with a finished Coelostat op, whose cluster's core 1 holds an older one or not. -/
def turnsAt (older : Bool) : State :=
  let s := setCore on 0 { Core.idle with coe := some { opRun true with turn := 5 } }
  setCore s 1 { Core.idle with coe := some { opRun true with turn := if older then 4 else 6 } }

theorem witness_OpsCompleteAndSample :
    (∀ b, Sound (unitsAt b) ∧ (getCore (unitsAt b) 0).ve = some { veAt veDesc [] [] 0 with finished := b } ∧
      (getCore (unitsAt b) 0).coe = some (opRun b) ∧ (opRun b).photBase = 0 ∧ (coeTurns (unitsAt b) 0).any (· < (opRun b).turn) = false ∧ (getCore (unitsAt b) 0).dma = some (opRun b) ∧
      (getCore (unitsAt b) 0).ccm = some (opRun b)) ∧
    (∀ b, Sound (ioRun b) ∧ getIo (ioRun b) 0 0 1023 = some { idx := 1023, desc := zeroBytes 64, status := .ok, finished := b }) ∧
    (∀ b, Sound (turnsAt b) ∧ (getCore (turnsAt b) 0).coe = some { opRun true with turn := 5 } ∧
      (coeTurns (turnsAt b) 0).any (· < 5) = b) ∧
    (let s := { ioRun false with blink := [(63, [sample])] }
     Sound s ∧ blinkQueue s 63 = sample :: [] ∧ (getPhase s sample.stream sample.phase).isSome = true ∧ s.mr.dramErr = [] ∧
     shadowSpans sample ≠ [] ∧ (∀ z ∈ shadowSpans sample, ∀ l ∈ linesOf z.1 z.2, region l ≠ .host ∧ canAccess s .dma l 64 = true) ∧
     (read s .dram 0x4000 64).err = none ∧ blinkQueue s 0 = []) := by
  refine ⟨fun b => ⟨sound_of ?_, ?_⟩, fun b => ⟨sound_of ?_, ?_⟩, fun b => ⟨sound_of ?_, ?_⟩, sound_of (by decide +kernel),
    by decide +kernel⟩ <;> revert b <;> decide +kernel
/-! ## Memory, context and the update -/

/-- A CCM op of a function at page 0 of sequence 0: row `at_`, its K and V records at offsets 0x40 and 0x80 for the cores given. -/
def ccmDesc (func at_ cores bad : Nat) : Bytes :=
  fields 64 [(0, 1, 0x20), (1, 1, 8 * bad), (8, 1, func), (9, 1, at_), (20, 4, if func ≤ 1 then 0x40 else 0), (24, 4, if func ≤ 1 then 0x80 else 0),
    (28, 8, cores)]

/-- A K or V record: the page format, elements at `base`. -/
def kvRec (base : Nat) : Bytes := fields 32 [(0, 2, 0x220), (4, 4, base), (8, 4, base + 0x1000), (16, 2, 2), (18, 2, 1)]

/-- Core 0 about to take a CCM op, a sequence of one page whose entry is `page`, one SRAM frame a cluster and `dram` DRAM
frames, the CCM on. -/
def caching (d : Bytes) (page dram : Nat) (used : List (Nat × Bool)) : State :=
  let s := coreAt d [(coreStores + 0x40, kvRec 0x1000), (coreStores + 0x80, kvRec 0x4000),
    (0x100000, fields 13 [(0, 6, 0x110000), (8, 4, 1), (12, 1, 1)]), (0x110000, leBytes 8 page)]
  { s with mr := { s.mr with seqBase := 0x100001, ready := true, sramPool := 1, dramBase := 0x200000, dramFrames := BitVec.ofNat 32 dram }
           ccm := { s.ccm with usedSram := used } }

/-- A page's entry: tier, fill and frame. -/
def pageAt (tier fill frame : Nat) : Nat := tier + 16 * fill + 2 ^ 24 * frame

/-- Every SRAM frame in use. -/
def allUsed : List (Nat × Bool) := (List.range 64).map (fun f => (f, true))

theorem witness_CcmOpsAndMoves_append :
    (let d := ccmDesc 0 15 0 0
     let s := caching d (pageAt 1 15 63) 0 [(63, true)]
     Sound s ∧ ccmNext s 0 0 = some (opAt d) ∧ ccmCheck s 0 (token 2) d = none ∧ pageAddr s 0 0 = 0x110000 ∧
     (read s .dram 0x110000 8).err = none ∧ (getPage s 0x110000).tier = 1 ∧ (ccmParm d).at_ = (getPage s 0x110000).fill ∧
     sramFits s = true ∧ (getPage s 0x110000).frame < poolFrames s 1 ∧ clusterAvail s ((getPage s 0x110000).frame % 64) = true) ∧
    (let d := ccmDesc 0 0 0 0
     let s := caching d 0 0 []
     Sound s ∧ ccmNext s 0 0 = some (opAt d) ∧ ccmCheck s 0 (token 2) d = none ∧ (getPage s 0x110000).tier = 0 ∧
     allocTier s 0 = some (1, 0) ∧ (ccmParm d).at_ = (getPage s 0x110000).fill ∧ allocTier (caching d 0 0 allUsed) 0 = none ∧
     ccmCheck (caching d 0 0 allUsed) 0 (token 2) d = none) ∧
    (let d := ccmDesc 0 14 0 0
     let s := caching d (pageAt 1 15 63) 0 [(63, true)]
     ccmNext s 0 0 = some (opAt d) ∧ ccmCheck s 0 (token 2) d = none ∧ (getPage s 0x110000).tier ≠ 0 ∧
     (ccmParm d).at_ ≠ (getPage s 0x110000).fill) :=
  ⟨⟨sound_of (by decide +kernel), by decide +kernel⟩, ⟨sound_of (by decide +kernel), by decide +kernel⟩, by decide +kernel⟩

theorem witness_CcmOpsAndMoves_others :
    (let d := ccmDesc 1 0 1 0
     let s := caching d 0 0 []
     Sound s ∧ ccmNext s 0 1 = some (opAt d) ∧ ccmCheck s 0 (token 2) d = none ∧ (ccmParm d).count = 1 ∧ (getPage s 0x110000).tier = 0) ∧
    (∀ t ∈ [1, 2],
      let d := ccmDesc 1 0 1 0
      let s := caching d (pageAt t 15 0) 1 []
      let parts := fun (i : Nat) => rowParts s 0 (ccmParm d) t 0 i i
      Sound s ∧ ccmNext s 0 1 = some (opAt d) ∧ ccmCheck s 0 (token 2) d = none ∧ (getPage s 0x110000).tier = t ∧
      (read s .dram 0x110000 8).err = none ∧
      ((List.range 16).flatMap parts).Pairwise (fun x y => x.1 + x.2.2 ≤ y.1 ∨ y.1 + y.2.2 ≤ x.1) ∧
      ccmCores 0 (ccmParm d) = [0] ∧ canAccess s .dma (coreBase 0) coreStoreLen = true) ∧
    (let d := ccmDesc 2 0 0 0
     let s := caching d (pageAt 2 16 0) 1 []
     Sound s ∧ ccmNext s 0 2 = some (opAt d) ∧ ccmCheck s 0 (token 2) d = none ∧ (ccmParm d).count = 1 ∧
     (getPage s 0x110000).tier = 2 ∧ (getPage s 0x110000).pins = 0 ∧ (getPage s 0x110000).moving = false ∧ mayPromote s = true ∧
     lowestFree s 1 = some 0) ∧
    (let d := ccmDesc 3 0 0 0
     let s := caching d (pageAt 1 16 63) 0 [(63, true)]
     Sound s ∧ ccmNext s 0 3 = some (opAt d) ∧ ccmCheck s 0 (token 2) d = none ∧ (seqEntry s 0).cap = 0 + 1 ∧
     (getPage s 0x110000).tier ≠ 0 ∧ (getPage s 0x110000).pins = 0 ∧ (getPage s 0x110000).moving = false) ∧
    (let d := ccmDesc 3 0 0 0
     let s := caching d (pageAt 1 16 63 + 2 ^ 16) 0 [(63, true)]
     Sound s ∧ ccmNext s 0 3 = some (opAt d) ∧ ccmCheck s 0 (token 2) d = none ∧ (ccmParm d).page < (seqEntry s 0).cap ∧
     (getPage s 0x110000).tier ≠ 0 ∧ (getPage s 0x110000).pins ≠ 0) ∧
    (∀ f < 4, ccmNext (caching (ccmDesc f 0 1 1) 0 0 []) 0 f = some (opAt (ccmDesc f 0 1 1)) ∧
      ccmCheck (caching (ccmDesc f 0 1 1) 0 0 []) 0 (token 2) (ccmDesc f 0 1 1) = some .badReserved) := by
  refine ⟨⟨sound_of (by decide +kernel), by decide +kernel⟩, fun t ht => ⟨sound_of ?_, ?_⟩,
    ⟨sound_of (by decide +kernel), by decide +kernel⟩, ⟨sound_of (by decide +kernel), by decide +kernel⟩,
    ⟨sound_of (by decide +kernel), by decide +kernel⟩, by decide +kernel⟩ <;> revert t <;> decide +kernel

/-- A move of that page from SRAM frame 63 to DRAM frame 0. -/
def move : CcmMoveRun :=
  { id := 4, promote := false, entryAddr := 0x110000, fromTier := 1, fromFrame := 63, toTier := 2, toFrame := 0, forOp := none }

/-- `caching` with that move in progress. -/
def moving (pins : Nat) : State :=
  let s := caching (ccmDesc 0 0 0 0) (pageAt 1 16 63 + 8 + 2 ^ 16 * pins) 1 [(63, true)]
  { s with ccm := { s.ccm with moves := [move], usedDram := [(0, true)] } }

/-- Its opposite, in progress: from DRAM frame 0 to SRAM frame 63. -/
def promoting : State :=
  let s := caching (ccmDesc 0 0 0 0) (pageAt 2 16 0 + 8) 1 [(63, true)]
  let mv := { move with promote := true, fromTier := 2, fromFrame := 0, toTier := 1, toFrame := 63 }
  { s with ccm := { s.ccm with moves := [mv], usedDram := [(0, true)] } }

theorem witness_CcmOpsAndMoves_moves :
    (∀ p < 2, Sound (moving p) ∧ (moving p).ccm.moves.find? (fun m => m.id == 4) = some move ∧
      (getPage (moving p) move.entryAddr).pins = p ∧ (getPage (moving p) move.entryAddr).moving = true ∧ move.fromTier ≠ 3 ∧
      move.toTier = 2 ∧ move.fromTier ≠ move.toTier ∧ canAccess (moving p) .dma (frameElem (moving p) 2 0) 4096 = true ∧
      canAccess (moving p) .dma (frameScale (moving p) 2 0) 256 = true) ∧
    (Sound promoting ∧ (getPage promoting 0x110000).pins = 0 ∧ (getPage promoting 0x110000).moving = true ∧
      63 < poolFrames promoting 1 ∧ canAccess promoting .dma (frameElem promoting 1 63) 4096 = true ∧
      canAccess promoting .dma (frameScale promoting 1 63) 256 = true) := by
  refine ⟨fun p hp => ⟨sound_of ?_, ?_⟩, sound_of (by decide +kernel), by decide +kernel⟩ <;> revert p <;> decide +kernel

/-- The page in SRAM frame 0 with every SRAM frame in use, or in DRAM frame 0, the only one, with a host pool of one frame. -/
def full (tier : Nat) : State :=
  let s := caching (ccmDesc 0 0 0 0) (pageAt tier 16 0) 1 (if tier = 1 then allUsed else [])
  { s with
    mem := memWrite s.mem 0x10000C [3] false
    mr := { s.mr with hostBase := 0xA00000000000, hostFrames := 1 }
    hif := { s.hif with wt := [(0, fields 32 [(0, 6, 0xA00000000000), (8, 4, 1), (12, 1, 15), (13, 1, 8), (14, 2, 0xFFFF)])] }
    ccm := { s.ccm with usedDram := if tier = 2 then [(0, true)] else [] } }

/-- Six SRAM frames free: above the low watermark and below the high one. -/
def sixFree : State :=
  let s := caching (ccmDesc 0 0 0 0) 0 0 ((List.range 58).map (fun f => (f, true)))
  { s with ccm := { s.ccm with sweepSram := true } }

theorem witness_CcmOpsAndMoves_sweep :
    (∀ t ∈ [1, 2],
      let s := full t
      let sh := if t = 1 then 0 else 16
      Sound s ∧ ccmEn s = true ∧ s.mr.ready = true ∧ 0 < poolSize s t ∧
      poolFree s t * 256 ≤ bits s.mr.watermark.toNat sh 8 * poolSize s t ∧
      (poolFree s t + leaving s t) * 256 < bits s.mr.watermark.toNat (sh + 8) 8 * poolSize s t ∧ 0 < poolFrames s t ∧
      handOf s t = 0 ∧ frameFree s t 0 = false ∧ memLe s (ownerAddr s t 0) 8 = 0 ∧ pageAddr s 0 0 = 0x110000 ∧
      getPage s 0x110000 = { tier := t, ref := false, moving := false, fill := 16, pins := 0, frame := 0 } ∧
      (t = 2 → hostAllowed s 0 = true) ∧ lowestFree s (t + 1) = some 0) ∧
    (Sound sixFree ∧ ccmEn sixFree = true ∧ sixFree.mr.ready = true ∧ sweeping sixFree 1 = true ∧
      bits sixFree.mr.watermark.toNat 0 8 * poolSize sixFree 1 < poolFree sixFree 1 * 256 ∧
      poolFree sixFree 1 * 256 < bits sixFree.mr.watermark.toNat 8 8 * poolSize sixFree 1) ∧
    (let s := caching (ccmDesc 0 0 0 0) 0 0 []
     sweeping s 1 = false ∧ bits s.mr.watermark.toNat 0 8 * poolSize s 1 < poolFree s 1 * 256) := by
  refine ⟨fun t ht => ⟨sound_of ?_, ?_⟩, ⟨sound_of (by decide +kernel), by decide +kernel⟩, by decide +kernel⟩ <;>
    revert t <;> decide +kernel

/-- A TRUNCATE in core 0's page walker, its page pinned or moving as the word says. -/
def truncating (page : Nat) : State :=
  let d := ccmDesc 3 0 0 0
  setCore (caching d page 0 [(63, true)]) 0 { Core.idle with ccm := some { someRun with desc := d } }

theorem witness_CcmOpsAndMoves_truncate :
    ∀ x ∈ [(0, 0), (0, 8), (1, 0)], let s := truncating (pageAt 1 16 63 + x.2 + 2 ^ 16 * x.1)
      let b := pageAddr s 0 0
      Sound s ∧ (getCore s 0).ccm = some { someRun with desc := ccmDesc 3 0 0 0 } ∧ (ccmParm (ccmDesc 3 0 0 0)).func = 3 ∧
      (ccmParm (ccmDesc 3 0 0 0)).page < (seqEntry s 0).cap ∧ (getPage s b).tier ≠ 0 ∧ (getPage s b).pins = x.1 ∧
      (getPage s b).moving = decide (x.2 = 8) ∧ (seqEntry s 0).cap = 0 + 1 :=
  fun x hx => ⟨sound_of (by revert x; decide +kernel), by revert x; decide +kernel⟩

/-- `on` with DRAM errors held in the lines at 0x1000 and 0x1040. -/
def onErr : State := { on with mr := { on.mr with dramErr := [(0x1000 / 64, .correctable), (0x1040 / 64, .uncorrectable)] } }

theorem witness_ScrubAndTables :
    (Sound on ∧ scrubOn on = true ∧ region 0x1000 = .dram ∧ 64 * 10 ^ 9 - 64 < dramBytes on ∧ region (64 * 10 ^ 9 - 64) = .dram ∧
      linePoison on.mem (64 * 10 ^ 9 - 64) = false ∧ on.err.failLog.length < 4032 ∧ region coreStores = .core 0 ∧
      region clusterStores = .cluster 0 ∧ region redMemLo = .red ∧ addrExists on coreStores = true ∧ addrExists on clusterStores = true ∧
      addrExists on redMemLo = true ∧ linePoison on.mem redMemLo = false ∧ smGet false on.mr.sramBad (redMemLo / 64) = false ∧
      linePoison on.mem coreStores = false ∧ smGet false on.pwr.gated 0 = false) ∧
    (scrubFinds on 0x1000 .clean = .none ∧ scrubFinds on 0x1000 .corrected = .correctable ∧
      scrubFinds on 0x1000 .uncorrected = .uncorrectable ∧ Sound onErr ∧ scrubOn onErr = true ∧
      scrubFinds onErr 0x1000 .clean = .correctable ∧ scrubFinds onErr 0x1040 .clean = .uncorrectable) ∧
    (let s := { on with mr := { on.mr with sramBad := [(coreStores / 64, true)] } }
     Sound s ∧ scrubOn s = true ∧ addrExists s coreStores = true ∧ linePoison s.mem coreStores = false ∧
     smGet false s.mr.sramBad (coreStores / 64) = true ∧ imageRuns s = true) ∧
    (hostPath on .a = .served ∧ ccmEn on = false ∧ (0x100001#64).getLsbD 0 = true ∧
      (read on .dram ((0x100001#64).toNat / 4096 % 2 ^ 36 * 4096) 4).err = none ∧ (0x100000#64).getLsbD 0 = false) ∧
    (let s := { on with mr := { on.mr with seqBase := 1 } }
     Sound s ∧ hostPath s .b = .served ∧ ccmEn s = true ∧ s.mr.ready = false) ∧
    (let s := setCore promoting 0 { getCore promoting 0 with ccm := some {
       tok := token 2, idx := 0, desc := ccmDesc 2 0 0 0, status := .ok, finished := false, phot := photZero, photBase := 0, turn := 0 } }
     Sound s ∧ hostPath s .a = .served ∧ ccmEn s = true ∧ ((getCore s 0).ccm.map (·.finished)) = some false) :=
  ⟨⟨sound_on, by decide +kernel⟩, ⟨by decide +kernel, by decide +kernel, by decide +kernel, sound_of (by decide +kernel), by decide +kernel⟩,
    ⟨sound_of (by decide +kernel), by decide +kernel⟩, by decide +kernel, ⟨sound_of (by decide +kernel), by decide +kernel⟩,
    sound_of (by decide +kernel), by decide +kernel⟩

/-- An MUU_UPDATE of one record with a pass. -/
def muuDesc (pass bad : Nat) : Bytes :=
  fields 64 [(0, 1, 0x28), (1, 1, 8 * bad), (8, 6, 0x300000), (20, 1, pass), (32, 6, 0x320000), (40, 6, 0x310000), (48, 6, 0x330000)]

/-- Its record: tensor 1, one element, states and copies apart. -/
def muuRecord : Bytes :=
  fields 128 [(0, 4, 1), (40, 6, 0x400000), (48, 6, 0x410000), (56, 6, 0x420000), (64, 6, 0x430000), (72, 6, 0x440000)]

/-- Stream 0 about to take the op in a phase that found the slot table on, the step combined; more bytes in memory. -/
def updating (pass bad : Nat) (mem : List (Nat × Bytes)) : State :=
  let s := ioAt (muuDesc pass bad) ([(0x300000, muuRecord), (0x440000, [0x3C]), (0x440040, [0x7F]), (0x400000, [0x80, 0x3F]),
    (0x310000, fields 28 [(16, 4, 0x3F800000), (20, 4, 0x3F800000), (24, 4, 0x3F800000)])] ++ mem)
  { s with
    trn := { s.trn with slotBase := 0x500001 }
    trnRun := { s.trnRun with combined := some 0 }
    cmd := { s.cmd with streams :=
      [(0, { runOf 2 with nextPhase := 1, running := [{ phaseOf [0] with trnSlot := 0x500001, trnMb := 0x600000 }] })] } }

/-- The entry of tensor 1 with the state slot 0 valid, frozen or not. -/
def tensorOne (frozen : Nat) : List (Nat × Bytes) := [(0x500020, fields 32 [(22, 1, 1 + 16 * frozen)])]

/-- The parameters of that op. -/
def muuP (pass : Nat) : MuuParm := muuParm (muuDesc pass 0)

theorem witness_UpdatePasses :
    (∀ p ∈ [1, 2, 3], Sound (updating p 0 []) ∧ (updating p 0 []).muuRun = none ∧
      muuNext (updating p 0 []) 0 0 [p] = some (ioOpAt (muuDesc p 0)) ∧
      muuCheckAt (updating p 0 []) 0 0 (ioOpAt (muuDesc p 0)) = none) ∧
    muuNext (updating 1 0 []) 0 0 [0, 1] = some (ioOpAt (muuDesc 1 0)) ∧
    (∀ p ∈ [2, 3], muuNext (updating p 1 []) 0 0 [p] = some (ioOpAt (muuDesc p 1)) ∧
      muuCheckAt (updating p 1 []) 0 0 (ioOpAt (muuDesc p 1)) = some .badReserved) := by
  refine ⟨fun p hp => ⟨sound_of ?_, ?_⟩, by decide +kernel, fun p hp => ?_⟩ <;> revert p <;> decide +kernel

theorem witness_UpdatePasses_tensor :
    (∀ f < 2,
      let s := updating 1 0 (tensorOne f)
      let u := match getPhase s 0 0 with | some x => underPhase x s | none => s
      let q := muuP 1
      let m := muuRec (recAt s q 0)
      Sound s ∧ muuNext s 0 0 [0, 1] = some (ioOpAt (muuDesc 1 0)) ∧ muuCheckAt s 0 0 (ioOpAt (muuDesc 1 0)) = none ∧ q.count = 1 ∧
      slotErr u m.tensor = none ∧ q.recBase + 128 ≤ q.ng + 128 * q.rank ∧ (∀ mb < 256, mbLive u mb = false) ∧
      (getSlot u m.tensor).frozen = decide (f = 1) ∧ curState u (getSlot u m.tensor) = some 0 ∧ gradBusy s m.tensor = false ∧
      s.mr.dramErr = [] ∧ gradPoison s.mem m = false ∧ masterPoison s.mem m (stateBase m 0) = false ∧
      (sumSquares (gradRow s.mem m 1 0) (some 0)).isSome ∧ m.rows = 1 ∧
      (sumSquares (masterRow s.mem m (stateBase m 0) 0) (some 0)).isSome) ∧
    (∀ f < 2,
      let s := updating 3 0 (tensorOne f)
      let u := match getPhase s 0 0 with | some x => underPhase x s | none => s
      let q := muuP 3
      let m := muuRec (recAt s q 0)
      Sound s ∧ muuNext s 0 0 [3] = some (ioOpAt (muuDesc 3 0)) ∧ muuCheckAt s 0 0 (ioOpAt (muuDesc 3 0)) = none ∧
      slotErr u m.tensor = none ∧ q.recBase + 128 ≤ q.report ∧ (getSlot u m.tensor).frozen = decide (f = 1) ∧ s.muu.decision ≠ 1) ∧
    (∀ f < 2,
      let s := updating 2 0 [(0x320000 + 80, [BitVec.ofNat 8 f])]
      Sound s ∧ muuNext s 0 0 [2] = some (ioOpAt (muuDesc 2 0)) ∧ muuCheckAt s 0 0 (ioOpAt (muuDesc 2 0)) = none ∧
      ((combineOf s (muuP 2) 0 (muuConst (memRead s.mem (muuP 2).consts 64)).skip).2.2 = 0 ↔ f = 0)) := by
  refine ⟨fun p hp => ⟨sound_of ?_, ?_⟩, fun p hp => ⟨sound_of ?_, ?_⟩, fun p hp => ⟨sound_of ?_, ?_⟩⟩ <;> revert p <;> decide +kernel

/-- A pass that waits on nothing, its straggler clock started at 5. -/
def passRun (pass : Nat) : MuuRun :=
  { stream := 0, phase := 0, idx := 0, desc := muuDesc pass 0, pass, seed := 0, rotSeed := 0, step := 0, deadline := 100, todo := [],
    deferred := [], clock := some 5, expired := false, deferrals := 0, lastWrite := 0, updated := 0, failed := 0, acc := 0,
    nonfinite := false, fail := none, halt := none, haltAt := 0 }

theorem witness_UpdatePasses_run :
    let s := fun pass now => { on with muuRun := some (passRun pass), nowNs := now }
    Sound (s 3 105) ∧ (s 3 105).muuRun = some (passRun 3) ∧ (passRun 3).pass = 3 ∧ (passRun 3).todo = [] ∧ (passRun 3).deferred = [] ∧
    (passRun 1).pass ≠ 3 ∧ (passRun 3).clock = some 5 ∧ 5 + (passRun 3).deadline ≤ (s 3 105).nowNs ∧
    (s 3 104).nowNs < 5 + (passRun 3).deadline ∧
    (let s := { updating 3 0 [] with muuRun := some { passRun 3 with stream := 1 } }
     Sound s ∧ s.muuRun.isSome = true ∧ muuNext s 0 0 [3] = some (ioOpAt (muuDesc 3 0)) ∧
     muuCheckAt s 0 0 (ioOpAt (muuDesc 3 0)) = some .badField) :=
  ⟨sound_of (by decide +kernel), by decide +kernel, by decide +kernel, by decide +kernel, by decide +kernel, by decide +kernel,
    by decide +kernel, by decide +kernel, by decide +kernel, sound_of (by decide +kernel), by decide +kernel⟩
/-! ## The fabric -/

theorem witness_LinksTrainAndDrop_climb :
    (∀ k ∈ [1, 2, 3, 4, 5], let s := fabricOn [(15, fabPort (BitVec.ofNat 3 k) true true)]
      Sound s ∧ (getFab s 15).st = BitVec.ofNat 3 k ∧ (getFab s 15).stay = false ∧ (getFab s 15).hot = false ∧
      (getFab s 15).since + 50000000 ≤ s.nowNs ∧ s.fab.nodeId ≠ 0xFFFF) ∧
    (let s := fabricOn [(15, { fabPort 5 true true with paramSeen := true, peerNode := 7, since := 999999999 })]
     Sound s ∧ (getFab s 15).paramSeen = true ∧ (getFab s 15).peerNode ≠ 0xFFFF ∧ s.nowNs < (getFab s 15).since + 50000000) ∧
    (cfgPeerNode (fabPort 5 true true).act = 0xFFFF ∧ cfgPortAny (fabPort 5 true true).act = true) ∧
    (let x : FabPortState := { fabPort 5 true true with act := 0x0300070001 }
     (cfgPeerNode x.act ≠ 0xFFFF ∧ cfgPeerNode x.act ≠ (8#16).toNat) ∧ cfgPeerNode x.act = (7#16).toNat ∧ cfgPortAny x.act = false ∧
     cfgPeerPort x.act ≠ (2#4).toNat ∧ cfgPeerPort x.act = (3#4).toNat) := by
  refine ⟨fun k hk => ⟨sound_of ?_, ?_⟩, ⟨sound_of (by decide +kernel), by decide +kernel⟩, by decide +kernel⟩ <;> revert k <;>
    decide +kernel

theorem witness_LinksTrainAndDrop_drop :
    (Sound (fabricOn twoUp) ∧ FabQuiet (fabricOn twoUp) ∧ (getFab (fabricOn twoUp) 1).st = 6 ∧ headerGood (zeroBytes 64) = false ∧
      hostPath (fabricOn twoUp) .a = .served) ∧
    (let s := fabricOn [(0, { fabPort 1 true false with stay := true })]
     Sound s ∧ FabQuiet s ∧ (getFab s 0).st = 1 ∧ (getFab s 0).stay = true) ∧
    (let s := { fabricOn [(0, fabPort 0 true true)] with fab := { (fabricOn [(0, fabPort 0 true true)]).fab with joined := 1, hold := 1 } }
     Sound s ∧ FabQuiet s ∧ s.fab.joined.getLsbD 0 = true ∧ pairHeld s 0 = true ∧
     pairHeld { s with fab := { s.fab with hold := 0 } } 0 = false) :=
  ⟨⟨sound_of (by decide +kernel), quiet_of (by decide +kernel), by decide +kernel⟩,
    ⟨sound_of (by decide +kernel), quiet_of (by decide +kernel), by decide +kernel⟩,
    sound_of (by decide +kernel), quiet_of (by decide +kernel), by decide +kernel⟩

/-- A WRITE from node 2 of four bytes at an address, counting at counter 9. -/
def writePkt (addr : Nat) : Bytes := onLink 2 0 { pktPlain 1 0 0 4 addr with rctrEn := true, rctr := 9, ackReq := true } [1, 2, 3, 4]

/-- A FWD_WRITE of the same bytes. -/
def fwdPkt : Bytes := onLink 2 4 { pktPlain 1 2 4 4 0x1000 with kindBytes := [2, 0] } [1, 2, 3, 4]

/-- A READ_REQ of a host-window line, to land at address 0 of node 2. -/
def hostRead : Bytes := onLink 2 0 { pktPlain 1 0 1 4 0xA00000000000 with kindBytes := leBytes 8 (2 * 2 ^ 48) } []

/-- `writePkt` with its payload changed behind the CRC. -/
def brokenPkt : Bytes := putBytes (writePkt 0x1000) 64 [9]

theorem witness_PacketsLand :
    (let s := fabricOn twoUp
     Sound s ∧ FabQuiet s ∧ Arrives s 1 (writePkt 0x1000) 0 ∧ orderOne (writePkt 0x1000) = true ∧
     (ordersTwoFour s 1 (writePkt 0x1000) true).2 = true ∧ orderFive s (writePkt 0x1000) = true ∧ toHost (writePkt 0x1000) = false ∧
     localNode s (ackNode (writePkt 0x1000)) = false ∧
     Arrives s 1 fwdPkt 4 ∧ orderOne fwdPkt = true ∧ (ordersTwoFour s 1 fwdPkt true).2 = true ∧ orderFive s fwdPkt = true ∧
     toHost fwdPkt = false ∧ pkAckReq fwdPkt = false ∧
     Arrives s 1 (writePkt 0x1000000) 0 ∧ orderOne (writePkt 0x1000000) = true ∧ (ordersTwoFour s 1 (writePkt 0x1000000) true).2 = false ∧
     Arrives s 1 brokenPkt 0 ∧ orderOne brokenPkt = false) ∧
    (let s0 := fabricOn twoUp
     let s := { s0 with hif := { s0.hif with wt := [(0, fields 32 [(0, 6, 0xA00000000000), (12, 1, 15), (13, 1, 0x3F), (14, 2, 0xFFFF)])] } }
     let b := writePkt 0xA00000000000
     Sound s ∧ FabQuiet s ∧ Arrives s 1 b 0 ∧ orderOne b = true ∧ (ordersTwoFour s 1 b true).2 = true ∧ toHost b = true ∧
     (∀ l ∈ linesOf (pkAddr b) (pkPlen b), region l = .host) ∧ localNode s (ackNode b) = false ∧ hostTargets s b ≠ []) ∧
    (let h : HostPost := { id := 3, at_ := 999950000, fi := 1, packet := writePkt 0xA00000000000, targets := [], src := none }
     let s := { fabricOn twoUp with fab := { (fabricOn twoUp).fab with posts := [h] } }
     FabQuiet { s with fab := { s.fab with posts := [] } } ∧
     s.fab.posts.find? (fun x => x.id == 3) = some h ∧ h.at_ + 50000 ≤ s.nowNs ∧
     ({ s with nowNs := 999999999 } : State).nowNs < h.at_ + 50000) ∧
    (let f : HostFetch := { id := 3, at_ := 999950000, fi := 1, packet := hostRead, waits := [7], lines := [], src := none }
     let s := { fabricOn twoUp with fab := { (fabricOn twoUp).fab with fetches := [f] } }
     FabQuiet { s with fab := { s.fab with posts := [] } } ∧
     s.fab.posts = [] ∧ s.fab.fetches.find? (fun x => x.id == 3) = some f ∧ f.at_ + 50000 ≤ s.nowNs ∧
     localNode s (gNode (le f.packet 42 8)) = false ∧ ({ s with nowNs := 999999999 } : State).nowNs < f.at_ + 50000) ∧
    (∀ x ∈ [(999950000, [(0xA00000000000, HPort.a, 0x5000)]), (999950001, [(0xA00000000000, HPort.a, 0x5000)]), (999950000, [])],
      let e : EarlyPkt := { id := 3, at_ := x.1, fi := 1, packet := writePkt 0xA00000000000, targets := x.2 }
      let s := { fabricOn twoUp with coll := { (fabricOn twoUp).coll with early := [e] } }
      FabQuiet { s with fab := { s.fab with posts := [] } } ∧ s.fab.posts = [] ∧ s.fab.fetches.find? (fun y => y.id == 3) = none ∧
      s.coll.early.find? (fun y => y.id == 3) = some e ∧
      (e.at_ + 50000 ≤ s.nowNs ∧ e.targets ≠ [] ∨ s.nowNs < e.at_ + 50000 ∨ e.targets = [])) :=
  ⟨⟨sound_of (by decide +kernel), quiet_of (by decide +kernel), arrives_of (by decide +kernel), by decide +kernel, by decide +kernel,
      by decide +kernel, by decide +kernel, by decide +kernel, arrives_of (by decide +kernel), by decide +kernel, by decide +kernel,
      by decide +kernel, by decide +kernel, by decide +kernel, arrives_of (by decide +kernel), by decide +kernel, by decide +kernel,
      arrives_of (by decide +kernel), by decide +kernel⟩,
    ⟨sound_of (by decide +kernel), quiet_of (by decide +kernel), arrives_of (by decide +kernel), by decide +kernel⟩,
    ⟨quiet_of (by decide +kernel), by decide +kernel⟩, ⟨quiet_of (by decide +kernel), by decide +kernel⟩,
    fun x hx => ⟨quiet_of (by revert x; decide +kernel), by revert x; decide +kernel⟩⟩

/-- A READ_REQ from node 2 for four bytes, to land at its own address 0x2000. -/
def readPkt : Bytes := onLink 2 0 { pktPlain 1 0 1 4 0x1000 with tag := 5, kindBytes := leBytes 8 (0x2000 + 2 * 2 ^ 48) } []
/-- READ_DATA and ACK for tag 5. -/
def dataPkt : Bytes := onLink 2 2 { pktPlain 1 1 2 4 0x3000 with tag := 5 } [1, 2, 3, 4]
def ackPkt : Bytes := onLink 2 2 { pktPlain 1 1 3 0 0 with tag := 5 } []

/-- READ_DATA and ACK at an address of reduction memory, and READ_DATA beyond the Window Table. -/
def deniedPkts : List (Nat × Bytes) :=
  [(2, onLink 2 2 { pktPlain 1 1 2 4 redMemLo with tag := 5 } [1, 2, 3, 4]), (3, onLink 2 2 { pktPlain 1 1 3 0 redMemLo with tag := 5 } []),
   (2, onLink 2 2 { pktPlain 1 1 2 4 0x1000000 with tag := 5 } [1, 2, 3, 4])]

/-- A tag of a GET op of stream 0, packet `part`. -/
def tagOf (tag part : Nat) : FabTag := { fi := 1, tag, owner := .io 0 0 0, part, injected := 900000000, limitNs := 100000000 }

/-- A tag of the command processor's read of a descriptor of queue 3. -/
def cmdTag : FabTag := { tagOf 5 0 with owner := .cmd 3 true }

/-- A fabric op of stream 0. -/
def fabOp (desc : Bytes) : FabOp :=
  { owner := .io 0 0 0, fi := 1, stream := 0, phase := 0, desc, started := 0, failed := [], badParts := [] }

/-- The GET that waits for two packets. -/
def tagged (tags : List FabTag) : State :=
  let s := fabricOn twoUp
  { s with fab := { s.fab with tags, ops := [fabOp (fields 64 [(0, 1, 0x41)])] } }

theorem witness_RepliesAndTags :
    (let s := fabricOn twoUp
     Sound s ∧ FabQuiet s ∧ Arrives s 1 readPkt 1 ∧ orderOne readPkt = true ∧ (ordersTwoFour s 1 readPkt false).2 = true ∧
     orderFive s readPkt = true ∧ toHost readPkt = false ∧ gNode (le readPkt 42 8) = pkSrc readPkt ∧ localNode s (pkSrc readPkt) = false ∧
     routeOf s (pkSrc readPkt) = some 0 ∧ hopOf s none 0 false false = some (false, false) ∧
     creditsFor (getFab s 0) (vcOf 1 false) (cdiv (pkPlen readPkt) 64 + 1) = true ∧
     Arrives s 1 dataPkt 2 ∧ orderOne dataPkt = true ∧ (ordersTwoFour s 1 dataPkt true).2 = true ∧
     findTag s 1 (pkTag dataPkt) = none ∧ Arrives s 1 ackPkt 3 ∧
     orderOne ackPkt = true ∧ findTag s 1 (pkTag ackPkt) = none ∧ (ordersTwoFour s 1 ackPkt true).2 = true ∧ s.mr.dramErr = []) ∧
    (∀ tags ∈ [[tagOf 5 0], [tagOf 5 0, tagOf 6 1]], let s := tagged tags
     Sound s ∧ FabQuiet s ∧ findTag s 1 (pkTag ackPkt) = some (tagOf 5 0) ∧ Arrives s 1 ackPkt 3 ∧ Arrives s 1 dataPkt 2 ∧
     (ordersTwoFour s 1 dataPkt true).2 = true ∧ orderFive s dataPkt = true ∧ toHost dataPkt = false ∧
     (tagOf 5 0).injected + (tagOf 5 0).limitNs ≤ s.nowNs) ∧
    (let s := { fabricOn twoUp with fab := { (fabricOn twoUp).fab with tags := [cmdTag] } }
     Sound s ∧ FabQuiet s ∧ findTag s 1 (pkTag dataPkt) = some cmdTag ∧ Arrives s 1 dataPkt 2 ∧
     (ordersTwoFour s 1 dataPkt true).2 = true) ∧
    (∀ x ∈ deniedPkts, Arrives (fabricOn twoUp) 1 x.2 x.1 ∧ orderOne x.2 = true ∧ (ordersTwoFour (fabricOn twoUp) 1 x.2 true).2 = false) ∧
    (deniedPkts.map (fun x => decide (orderTwoBad x.2 ≠ []))) = [true, true, false] ∧
    moreOut (tagged [tagOf 5 0, tagOf 6 1]) (tagOf 5 0) ∧ ¬moreOut (tagged [tagOf 5 0]) (tagOf 5 0) ∧
    ({ tagged [tagOf 5 0] with nowNs := 999999999 } : State).nowNs < (tagOf 5 0).injected + (tagOf 5 0).limitNs := by
  refine ⟨⟨sound_of (by decide +kernel), quiet_of (by decide +kernel), arrives_of (by decide +kernel), by decide +kernel, by decide +kernel,
      by decide +kernel, by decide +kernel, by decide +kernel, by decide +kernel, by decide +kernel, by decide +kernel, by decide +kernel,
      arrives_of (by decide +kernel), by decide +kernel, by decide +kernel, by decide +kernel, arrives_of (by decide +kernel),
      by decide +kernel⟩,
    fun tags ht => ⟨sound_of ?_, quiet_of ?_, ?_, arrives_of ?_, arrives_of ?_, ?_⟩,
    ⟨sound_of (by decide +kernel), quiet_of (by decide +kernel), by decide +kernel, arrives_of (by decide +kernel), by decide +kernel⟩,
    fun x hx => ⟨arrives_of ?_, ?_⟩, by decide +kernel, ⟨tagOf 6 1, by decide +kernel⟩, ?_,
    by decide +kernel⟩
  iterate 6 revert tags; decide +kernel
  iterate 2 revert x; decide +kernel
  · rintro ⟨x, hx, _, h⟩
    rw [List.mem_singleton.mp hx] at h
    exact h ⟨rfl, rfl⟩

/-- A packet for node 2, and an IDLE flit. -/
def throughPkt : Bytes := onLink 3 0 (pktPlain 2 0 0 4 0x1000) [1, 2, 3, 4]
def idleFlit : Bytes := linkPart { FabPortState.reset with owed := [1, 0, 0, 0, 0, 0, 0, 0] } 0 0 false (zeroBytes 64)

theorem witness_RouterForwards :
    let s := fabricOn twoUp
    (Sound s ∧ FabQuiet s ∧ portCarries s 1 = true ∧ headerGood idleFlit = true ∧ pkFtype idleFlit = 0 ∧ headerGood throughPkt = true ∧
    pkFtype throughPkt = 1 ∧ localNode s (pkDst throughPkt) = false ∧ throughPkt.length = 64 * (pkFlits throughPkt + 1) ∧
    s.fab.en = true ∧ routeOf s (pkDst throughPkt) = some 0 ∧ hopOf s (some 1) 0 false (pkDown throughPkt) = some (false, false) ∧
    creditsFor (getFab s 0) (vcOf (pkCls throughPkt) false) (throughPkt.length / 64) = true ∧
    (routeOf { s with fab := { s.fab with route := [] } } (pkDst throughPkt) = none) ∧
    (let t := fabricOn [(0, fabPort 6 true true), (1, { fabPort 6 true true with act := 0x10FFFF0007 })]
     hopOf t (some 1) 0 false false = none) ∧ channelBusy s 1 (pkVc throughPkt) = false) ∧
    (let f : HostFetch := { id := 3, at_ := 0, fi := 1, packet := hostRead, waits := [7], lines := [], src := some (1, pkVc throughPkt, 1) }
     let t := { s with fab := { s.fab with fetches := [f] } }
     Sound t ∧ FabQuiet t ∧ portCarries t 1 = true ∧ channelBusy t 1 (pkVc throughPkt) = true) :=
  ⟨⟨sound_of (by decide +kernel), quiet_of (by decide +kernel), by decide +kernel⟩, sound_of (by decide +kernel), quiet_of (by decide +kernel),
    by decide +kernel⟩

/-- Stream 0 about to take the fabric op `d`, ports as in `fabricOn`. -/
def fabricIo (d : Bytes) (mem : List (Nat × Bytes)) : State :=
  let s := ioAt d mem
  { s with fab := (fabricOn twoUp).fab, hif := (fabricOn twoUp).hif }

/-- PUT and GET of 64 bytes to node 2, AWAIT, ROLE_SET. -/
def fabDesc (op : Nat) : Bytes :=
  match op with
  | 0x42 => fields 64 [(0, 1, 0x42), (8, 2, 100), (10, 2, 1)]
  | 0x43 => fields 64 [(0, 1, 0x43), (8, 6, 0x6000), (14, 2, 0xFFFF)]
  | _ => fields 64 [(0, 1, op), (8, 6, 0x1000), (16, 8, 0x2000 + 2 * 2 ^ 48), (24, 4, 64), (32, 1, if op = 0x40 then 1 else 0), (40, 6, 0x4000)]

theorem witness_FabricOps :
    (∀ op ∈ [0x40, 0x41], Sound (fabricIo (fabDesc op) []) ∧ FabQuiet (fabricIo (fabDesc op) []) ∧
      fabNext (.io 0 0) (fabricIo (fabDesc op) []) op = some (ioOpAt (fabDesc op)) ∧ fabCheck (fabricIo (fabDesc op) []) 0 (fabDesc op) = none ∧
      (fabRoute (fabricIo (fabDesc op) []) (gNode (fbRemote (fabDesc op)))).isSome = true ∧
      localNode (fabricIo (fabDesc op) []) (gNode (fbRemote (fabDesc op))) = false ∧ fbAck (fabDesc op) = decide (op = 0x40)) ∧
    (∀ op ∈ [0x40, 0x41], let s := fabricIo (fabDesc op) []
      routeOf s (gNode (fbRemote (fabDesc op))) = some 0 ∧ s.fab.nodeId ≠ 0xFFFF ∧
      hopOf s none 0 false false = some (false, false) ∧ (freeTag s 0).isSome = true ∧
      creditsFor (getFab s 0) (vcOf 0 false) (cdiv 64 64 + 1) = true ∧ fbLen (fabDesc op) = 64 ∧
      (read s .fi (fbLocal (fabDesc op)) 64).err = none ∧ s.mr.dramErr = []) ∧
    (let d := putBytes (fabDesc 0x40) 32 [0]
     let s := fabricIo d []
     Sound s ∧ FabQuiet s ∧ fabNext (.io 0 0) s 0x40 = some (ioOpAt d) ∧ fabCheck s 0 d = none ∧
     (fabRoute s (gNode (fbRemote d))).isSome = true ∧ fbAck d = false ∧ fbLen d ≤ pktMax ∧ (read s .fi (fbLocal d) (fbLen d)).err = none ∧
     s.mr.dramErr = [] ∧ getIo s 0 0 0 = none ∧ s.fab.tags = [] ∧ WayOut s (gNode (fbRemote d)) 0 (fbLen d) false 0 false) ∧
    (let d := fabDesc 0x42
     let s := fabricIo d []
     Sound s ∧ FabQuiet s ∧ fabNext (.io 0 0) s 0x42 = some (ioOpAt d) ∧
     reservedZero d (hdrFields ++ [fldBits 8 0 12, fld 10 2, fld 12 2]) = true ∧ ctrCheck s 0 (opHdr d) = true ∧
     ctrInRange s 0 (field d 8 0 12) = true ∧ s.fab.en = true ∧ getIo s 0 0 0 = none ∧ waitHolds s 100 1 = true) ∧
    (let d := fabDesc 0x43
     let s := fabricIo d []
     Sound s ∧ FabQuiet s ∧ fabNext (.io 0 0) s 0x43 = some (ioOpAt d) ∧ reservedZero d (hdrFields ++ [fld 8 6, fld 14 2]) = true ∧
     ctrCheck s 0 (opHdr d) = true ∧ le d 8 6 % 64 = 0 ∧ fiAddrOk s (le d 8 6) 512 = true ∧ s.fab.en = true ∧
     (read s .fi (le d 8 6) 512).err = none ∧ s.mr.dramErr = []) := by
  refine ⟨fun op ho => ⟨sound_of ?_, quiet_of ?_, ?_⟩, fun op ho => ?_,
    ⟨sound_of (by decide +kernel), quiet_of (by decide +kernel), by decide +kernel, by decide +kernel, by decide +kernel, by decide +kernel,
      by decide +kernel, by decide +kernel, by decide +kernel, by decide +kernel, by decide +kernel, wayOut_of false (by decide +kernel)⟩,
    ⟨sound_of (by decide +kernel), quiet_of (by decide +kernel), by decide +kernel⟩,
    sound_of (by decide +kernel), quiet_of (by decide +kernel), by decide +kernel⟩ <;> revert op <;> decide +kernel

/-- An AWAIT in flight, long after its start. -/
def awaiting : State :=
  match execAwait (.io 0 0) (fabricIo (fabDesc 0x42) []) with
  | .next t => { t with nowNs := 10 ^ 12 }
  | _ => on

theorem witness_FabricOps_await :
    Sound awaiting ∧ FabQuiet awaiting ∧ awaiting.fab.ops ≠ [] ∧ (∀ f ∈ awaiting.fab.ops, byteAt f.desc 0 = 0x42 ∧
      f.stream = 0 ∧ f.phase = 0 ∧ f.owner = .io 0 0 0 ∧ f.started + classNs awaiting 2 (le f.desc 12 2) ≤ awaiting.nowNs) ∧
    (getIo awaiting 0 0 0).map (fun x => (x.finished, x.status)) = some (false, .ok) ∧
    (let s := modIo awaiting 0 0 0 (fun x => { x with finished := true })
     Sound s ∧ FabQuiet s ∧ (getIo s 0 0 0).map (fun x => (x.finished, byteAt x.desc 0)) = some (true, 0x42)) :=
  ⟨sound_of (by decide +kernel), quiet_of (by decide +kernel), by decide +kernel, by decide +kernel, by decide +kernel,
    sound_of (by decide +kernel), quiet_of (by decide +kernel), by decide +kernel⟩
/-! ## Collectives -/

/-- Communicator 0 of two members as member `me` has it: four slots from slot 0, control slot 3, its member table at 0x610000. -/
def commRow (me : Nat) : Bytes := fields 64 [(0, 2, 1), (2, 2, me), (4, 1, 1), (8, 2, 4), (10, 2, 3), (16, 6, 0x610000)]

/-- The table of communicators at 0x600000 and the members: this module is node 1, the other is node 2, rank 1 below rank 0. -/
def commMem (me : Nat) : List (Nat × Bytes) :=
  [(0x600000, commRow me),
   (0x610000, fields 8 [(0, 2, if me = 0 then 1 else 2), (2, 2, 0xFFFF), (4, 1, 1), (6, 2, 1)]),
   (0x610020, fields 8 [(0, 2, if me = 0 then 2 else 1)])]

/-- A COLL of one segment: op `op`, `slots` slots, deadline flag `dl`. -/
def collDesc (op slots dl : Nat) : Bytes :=
  fields 64 [(0, 1, 0x50), (8, 1, op), (9, 1, 8 * dl), (12, 4, 70000), (16, 6, 0x700000), (22, 6, 0x710000),
    (28, 4, match op with | 5 => 0 | 6 => 64 | 1 => 4096 | 2 => 4096 | _ => 2048), (32, 6, 0x720000), (38, 6, 0x730000), (44, 2, 5), (48, 6, 0x740000), (54, 1, slots)]

/-- Stream 0 about to take that op, and the collectives that are open. -/
def joining (me : Nat) (d : Bytes) (colls : List Coll) : State :=
  let s := fabricIo d (commMem me)
  { s with coll := { s.coll with commBase := 0x600001, colls, nextId := colls.length } }

theorem collQuiet_of {s : State} (h : (idleB s && s.coll.early.isEmpty && s.coll.colls.all (fun c => !(collDone s c))) = true) :
    CollQuiet s := by
  simp only [Bool.and_eq_true, List.all_eq_true, List.isEmpty_iff, Bool.not_eq_true'] at h
  exact ⟨idle_of h.1.1, h.1.2, h.2⟩

theorem witness_CollectivesIssue :
    (∀ k < 7, let d := collDesc k (if k = 0 ∨ k = 1 ∨ k = 3 then 4 else 0) 0
      Sound (joining 1 d []) ∧ FabQuiet (joining 1 d []) ∧ (joining 1 d []).coll.early = [] ∧ fabNext (.io 0 0) (joining 1 d []) 0x50 = some (ioOpAt d) ∧
      collRow k d = true ∧ collRow (6 - k + 7) d = false ∧ collCheck (joining 1 d []) 0 d = none ∧ collMay (joining 1 d []) (coComm d) = true ∧
      1 < cmMembers (commOf (joining 1 d []) (coComm d)) ∧
      localNode (joining 1 d []) (mbNode (member (joining 1 d []) (commOf (joining 1 d []) (coComm d)) 0)) = false ∧
      (smGet (0, 0) (joining 1 d []).coll.heldAbort (coComm d)).1 ≠ coSeq d % 65536 + 1 ∧ getColl (joining 1 d []) 0 = none ∧
      coDeadline d = false) ∧
    (let d := collDesc 3 4 0
     let s := joining 1 d [newColl on (.io 0 0 7) 0 0 0 false d (commRow 1) [] 0 false]
     Sound s ∧ FabQuiet s ∧ s.coll.early = [] ∧ fabNext (.io 0 0) s 0x50 = some (ioOpAt d) ∧ collCheck s 0 d = none ∧ collMay s (coComm d) = false) ∧
    (let d := collDesc 3 2 0
     let s := joining 0 d []
     let r := commOf s (coComm d)
     Sound s ∧ FabQuiet s ∧ fabNext (.io 0 0) s 0x50 = some (ioOpAt d) ∧ collRow 3 d = true ∧ collCheck s 0 d = none ∧
     collMay s (coComm d) = true ∧ 1 < cmMembers r ∧ cmRank r = 0 ∧ coReduces d = true ∧ mbChildren (myEntry s r) ≠ [] ∧
     ∀ j < coSlots d, slotFree s r (ctlSlots s) (0 + j) = true) := by
  refine ⟨fun k hk => ⟨sound_of ?_, quiet_of ?_, ?_⟩, ⟨sound_of (by decide +kernel), quiet_of (by decide +kernel),
    by decide +kernel⟩, sound_of (by decide +kernel), quiet_of (by decide +kernel), by decide +kernel⟩ <;> revert k <;> decide +kernel

/-- The open collective of an op on member `me`, before its close. -/
def openColl (me : Nat) (d : Bytes) : Coll := newColl on (.io 0 0 7) 0 0 0 false d (commRow me) [] 0 (coReduces d)

/-- The same after a close that names the contributors. -/
def closedColl (me : Nat) (d : Bytes) (contribs : List Nat) : Coll := { openColl me d with closed := true, n := contribs.length, contribs }

/-- A collective of member 0, alone at a time. -/
def atTime (c : Coll) (ns : Nat) : State := { joining 0 (zeroBytes 64) [c] with nowNs := ns }

/-- Joins of both members, the second ready with a count of one where `r` says so, both with slots or neither. -/
def bothJoined (slots : Bool) (r : Nat) : List (Nat × Nat) :=
  let v := if slots then 0x3000 else 0x1000
  [(0, v), (1, v + r * 0x14000)]

theorem witness_CollectivesProceed_round :
    (let c := openColl 1 (collDesc 0 4 1)
     let s := joining 1 (zeroBytes 64) [c]
     Sound s ∧ CollQuiet s ∧ getColl s 0 = some c ∧ c.ready = false ∧ c.closed = false ∧ coDeadline c.desc = true ∧
     (lateHdr s (c.host ++ []) c.desc).2 = none ∧ colMe c ≠ 0 ∧ localNode s (mbNode (member s c.comm 0)) = false) ∧
    (∀ slots ∈ [true, false],
      let c := { openColl 0 (collDesc 0 4 1) with joins := bothJoined slots (if slots then 1 else 0) }
      let s := atTime c 1000005000
      let rs := (List.range (colM c)).map (smGet 0 c.joins)
      Sound s ∧ CollQuiet s ∧ getColl s 0 = some c ∧ coDeadline c.desc = true ∧ colMe c = 0 ∧ c.closed = false ∧
      c.started + 1000 * coDeadlineUs c.desc ≤ s.nowNs ∧ rs.all (fun v => bit v 12) = true ∧
      rs.all (fun v => bit v 14) = false ∧ 1000004999 < c.started + 1000 * coDeadlineUs c.desc ∧
      rs.all (fun v => bit v 13) = slots ∧ coOp c.desc = 0 ∧ c.landed = [] ∧ 0 < coSegs c.desc) := by
  refine ⟨⟨sound_of (by decide +kernel), collQuiet_of (by decide +kernel), by decide +kernel⟩, fun b hb => ⟨sound_of ?_, collQuiet_of ?_, ?_⟩⟩ <;>
    revert b <;> decide +kernel

theorem witness_CollectivesProceed_combine :
    (let c := { closedColl 0 (collDesc 3 4 0) [0, 1] with cells := [(0, 1)] }
     let s := joining 0 (zeroBytes 64) [c]
     Sound s ∧ CollQuiet s ∧ getColl s 0 = some c ∧ mayCombine s c 0 = true ∧ mayCombine s c 1 = false) ∧
    (let d := putBytes (collDesc 3 4 0) 28 (leBytes 4 4096)
     let c := { closedColl 0 d [0, 1] with cells := [(0, 1)] }
     let s := joining 0 (zeroBytes 64) [c]
     Sound s ∧ CollQuiet s ∧ getColl s 0 = some c ∧ mayCombine s c 0 = true ∧ colMe c = 0 ∧ coOp c.desc = 3 ∧ coMx c.desc = false ∧
     0 + 1 < coSegs c.desc ∧ region (coDst c.desc) = .dram ∧ canAccess s .fi (coDst c.desc) (coLen c.desc) = true) :=
  ⟨⟨sound_of (by decide +kernel), collQuiet_of (by decide +kernel), by decide +kernel⟩,
    sound_of (by decide +kernel), collQuiet_of (by decide +kernel), by decide +kernel⟩

theorem witness_CollectivesProceed_limits :
    (let c := closedColl 0 (collDesc 3 4 0) [0, 1]
     (∀ ns ∈ [1000200000, 1000199999], Sound (atTime c ns) ∧ CollQuiet (atTime c ns) ∧ getColl (atTime c ns) 0 = some c ∧ c.closed = true) ∧
     (waitsOf (atTime c 1000200000) c).any (fun w => decide (w + collTimeoutNs (atTime c 1000200000) c.desc ≤ 1000200000)) = true ∧
     (waitsOf (atTime c 1000199999) c).all (fun w => decide (1000199999 < w + collTimeoutNs (atTime c 1000199999) c.desc)) = true) ∧
    (let c := openColl 0 (collDesc 3 4 0)
     (∀ ns ∈ [1000400000, 1000200000, 1000199999], Sound (atTime c ns) ∧ CollQuiet (atTime c ns) ∧ getColl (atTime c ns) 0 = some c) ∧
     c.closed = false ∧ coDeadline c.desc = false ∧ colMe c = 0 ∧ collTimeoutNs (atTime c 0) c.desc = 200000 ∧ c.started = 1000000000 ∧
     ((List.range (colM c)).map (smGet 0 c.joins)).all (fun v => bit v 12) = false) := by
  refine ⟨⟨fun x hx => ⟨sound_of ?_, collQuiet_of ?_, ?_⟩, by decide +kernel⟩, fun x hx => ⟨sound_of ?_, collQuiet_of ?_, ?_⟩, by decide +kernel⟩ <;>
    revert x <;> decide +kernel

/-- A collective packet from node 2 for a descriptor: its item, address, hash and payload as given. -/
def collPktTo (d : Bytes) (kind item addr hash : Nat) (payload : Bytes) : Bytes :=
  onLink 2 6 { pktPlain 1 3 kind payload.length addr with
    kindBytes := crcBytes hash ++ leBytes 2 (coComm d) ++ leBytes 2 (coSeq d % 65536) ++ leBytes 2 item } payload

/-- The conditions of `CollArrives` but soundness, quiet and arrival, one by one. -/
def collParts (s : State) (p : FabPort) (b : Bytes) (kind : Nat) (c : Coll) (src : Nat) : List Bool :=
  [orderOne b, (ordersTwoFour s p.toNat b true).2, orderFive s b,
   (commRec s (le b 50 2)).any (fun r => senderRank s r b == some src),
   s.coll.colls.find? (fun c => coComm c.desc == le b 50 2 && coSeq c.desc % 65536 == le b 52 2) == some c, getColl s c.id == some c,
   s.coll.colls.all (fun y => !y.closed || y.id == c.id), !(hashed kind) || (b.drop 42).take 8 == crcBytes (coHash c.desc)]

/-- A test of `CollArrives`. -/
theorem collArrives_of {s : State} {p : FabPort} {b : Bytes} {kind : Nat} {c : Coll} {src : Nat} (h1 : soundB s = true)
    (h2 : CollQuiet s) (h3 : Arrives s p b kind) (h4 : (collParts s p b kind c src).all id = true) : CollArrives s p b kind c src := by
  have part : ∀ (i : Nat) (z : Bool), (collParts s p b kind c src)[i]? = some z → z = true :=
    fun i z hz => List.all_eq_true.mp h4 z (List.mem_of_getElem? hz)
  have others := List.all_eq_true.mp (part 6 _ rfl)
  have hash := part 7 _ rfl
  have sender := part 3 _ rfl
  simp only [Option.any_eq_true, beq_iff_eq] at sender
  exact { sound := sound_of h1, quiet := h2, arrives := h3, good := part 0 _ rfl, granted := part 1 _ rfl, exists_ := part 2 _ rfl
          sender, theirs := eq_of_beq (part 4 _ rfl), first := eq_of_beq (part 5 _ rfl)
          alone := fun y hy hc => by simpa [hc] using others y hy
          hash := fun hh => by simpa [hh] using hash }
/-- A packet and the open collective that it comes to: kind, member, item, address, payload, collective. -/
structure PktCase where
  kind : Nat
  me : Nat
  item : Nat
  addr : Nat
  payload : Bytes
  coll : Coll

/-- The packets of the clauses that carry little. -/
def packetCases : List PktCase :=
  [⟨10, 0, 1, redMemLo, leBytes 4 0x1000, openColl 0 (collDesc 0 4 1)⟩, ⟨11, 1, 0, 0, zeroBytes 8, openColl 1 (collDesc 0 4 1)⟩,
   ⟨11, 1, 0, 0, zeroBytes 8, openColl 1 (collDesc 5 0 0)⟩, ⟨11, 1, 0, 0, zeroBytes 8, openColl 1 (collDesc 4 0 0)⟩,
   ⟨13, 1, 0, 0, [], closedColl 1 (collDesc 0 4 0) [0]⟩, ⟨12, 1, 0, 0, [], closedColl 1 (collDesc 0 4 0) [0]⟩,
   ⟨14, 0, 1, 0x710040, zeroBytes 64, closedColl 0 (collDesc 6 0 0) [0, 1]⟩,
   ⟨15, 0, 1, 0x730004, zeroBytes 12, closedColl 0 (collDesc 6 0 0) [0, 1]⟩]

/-- The packet of a case with a hash, its own packet, and the state it comes to. -/
def hashedPkt (x : PktCase) (hash : Nat) : Bytes := collPktTo x.coll.desc x.kind x.item x.addr hash x.payload
def casePkt (x : PktCase) : Bytes := hashedPkt x (coHash x.coll.desc)
def caseAt (x : PktCase) : State := joining x.me (zeroBytes 64) [x.coll]

/-- The rank of the sender in every case: the other member. -/
theorem packetCases_arrive : ∀ x ∈ packetCases, CollArrives (caseAt x) 1 (casePkt x) x.kind x.coll (1 - x.me) := by
  intro x hx
  refine collArrives_of ?_ (collQuiet_of ?_) (arrives_of ?_) ?_ <;> revert x <;> decide +kernel

theorem witness_CollectivePackets_small :
    (∀ x ∈ packetCases, CollArrives (caseAt x) 1 (casePkt x) x.kind x.coll (1 - x.me)) ∧
    (∀ x ∈ packetCases, let c := x.coll
      x.kind = 10 → colMe c = 0 ∧ c.closed = false ∧ 0 < colM c ∧ bit (smGet 0 c.joins 0) 12 = false) ∧
    (∀ x ∈ packetCases, let c := x.coll
      x.kind = 11 → c.closed = false ∧ (coOp c.desc = 0 ∨ coDeadline c.desc = false) ∧ fabBusy (caseAt x) (.coll c.id) = false ∧
        colMe c ≠ 0 ∧ c.landed = []) ∧
    (∀ x ∈ packetCases, let c := x.coll
      x.kind = 13 → c.closed = true ∧ isLeaf (caseAt x) c = false ∧ coOp c.desc = 0 ∧ c.landed = [] ∧ 0 < coSegs c.desc) ∧
    (∀ x ∈ packetCases, let c := x.coll
      x.kind = 14 → c.closed = true ∧ coOp c.desc = 6 ∧ c.counted = [] ∧ coDst c.desc + 1 * coLen c.desc = x.addr ∧
        x.payload.length ≤ coLen c.desc ∧ pkAddr (casePkt x) = x.addr ∧ pkPayload (casePkt x) = x.payload ∧
        smGet 0 c.nextChunk 1 = 0 ∧ region x.addr = .dram ∧ canAccess (caseAt x) .fi x.addr x.payload.length = true) ∧
    (∀ x ∈ packetCases, let c := x.coll
      x.kind = 15 → c.closed = true ∧ coOp c.desc = 6 ∧ (pkPayload (casePkt x)).length = 12 ∧ c.counted = [] ∧ 2 ≤ colM c ∧
        region (coAux1 c.desc + 4 * 1) = .dram ∧ canAccess (caseAt x) .fi (coAux1 c.desc + 4 * 1) 4 = true) ∧
    packetCases.map (fun x => coOp x.coll.desc) = [0, 0, 5, 4, 0, 0, 6, 6] :=
  ⟨packetCases_arrive, by decide +kernel, by decide +kernel, by decide +kernel, by decide +kernel, by decide +kernel, by decide +kernel⟩
/-- Member 0 with its collective closed for both members and cell 1 claimed, a segment of zeros and its flow CRC on its way. -/
def dataCase : PktCase :=
  ⟨8, 0, 0, redMemLo, zeroBytes 2056, { closedColl 0 (collDesc 3 4 0) [0, 1] with claimed := true }⟩

/-- Member 1 of an op whose result comes down from the root in one segment, and of a BROADCAST of two. -/
def resultCase : PktCase := ⟨9, 1, 0, redMemLo, zeroBytes 2056, closedColl 1 (collDesc 0 4 0) [0, 1]⟩
def broadCase : PktCase :=
  ⟨9, 1, 0, redMemLo, zeroBytes 2048, closedColl 1 (putBytes (collDesc 4 0 0) 28 (leBytes 4 4096)) [0]⟩

set_option maxRecDepth 100000 in
theorem dataCase_arrives : CollArrives (caseAt dataCase) 1 (casePkt dataCase) 8 dataCase.coll 1 :=
  collArrives_of (by decide +kernel) (collQuiet_of (by decide +kernel)) (arrives_of (by decide +kernel)) (by decide +kernel)

set_option maxRecDepth 100000 in
theorem resultCase_arrives : CollArrives (caseAt resultCase) 1 (casePkt resultCase) 9 resultCase.coll 0 :=
  collArrives_of (by decide +kernel) (collQuiet_of (by decide +kernel)) (arrives_of (by decide +kernel)) (by decide +kernel)

set_option maxRecDepth 100000 in
theorem broadCase_arrives : CollArrives (caseAt broadCase) 1 (casePkt broadCase) 9 broadCase.coll 0 :=
  collArrives_of (by decide +kernel) (collQuiet_of (by decide +kernel)) (arrives_of (by decide +kernel)) (by decide +kernel)

set_option maxRecDepth 100000 in
theorem witness_CollectivePackets_data :
    let c := dataCase.coll
    let s := caseAt dataCase
    let b := casePkt dataCase
    CollArrives s 1 b 8 c 1 ∧ (c.closed = true ∧ coReduces c.desc = true ∧ c.endPoint = false ∧ c.claimed = true ∧
      le b 54 2 < coSegs c.desc ∧ c.nextUp ≤ le b 54 2 ∧ (1, 1) ∈ colCells s c ∧
      (colCells s c).find? (fun y => y.1 == 1) = some (1, 1) ∧ c.cells = [] ∧ colSlot c (le b 54 2) < 3072 ∧
      (pkPayload b).length = flowLen c flowAll (le b 54 2)) ∧ ∀ i < 0x200000, region (cmTab c.comm + i) = .dram := by
  refine ⟨dataCase_arrives, by decide +kernel, fun i hi => ?_⟩
  have h : cmTab dataCase.coll.comm = 0x610000 := by decide +kernel
  show region (cmTab dataCase.coll.comm + i) = .dram
  rw [h, region, if_pos (by omega)]

set_option maxRecDepth 100000 in
theorem witness_CollectivePackets_result :
    (let c := resultCase.coll
     let s := caseAt resultCase
     let b := casePkt resultCase
     CollArrives s 1 b 9 c 0 ∧ c.closed = true ∧ resultFlow s c 0 = some (flowAll, true) ∧
     le b 54 2 < coSegs c.desc ∧ (pkPayload b).length = flowLen c flowAll (le b 54 2)) ∧
    (let c := broadCase.coll
     let s := caseAt broadCase
     let b := casePkt broadCase
     CollArrives s 1 b 9 c 0 ∧ c.closed = true ∧ resultFlow s c 0 = some (flowAll, true) ∧
     coOp c.desc = 4 ∧ coMx c.desc = false ∧ le b 54 2 + 1 < coSegs c.desc ∧ (pkPayload b).length = flowLen c flowAll (le b 54 2) ∧
     c.landed = [] ∧ colKids s c = [] ∧ region (coDst c.desc) = .dram ∧ canAccess s .fi (coDst c.desc) 2048 = true) :=
  ⟨⟨resultCase_arrives, rfl, rfl, by decide +kernel, by decide +kernel⟩, broadCase_arrives, rfl, rfl, by decide +kernel⟩
/-- The communicator table turned off: no communicator is known. -/
def noComm (s : State) : State := { s with coll := { s.coll with commBase := 0 } }

/-- One packet of each kind. -/
def strayCases : List PktCase :=
  packetCases.filter (fun x => x.kind != 11 || coOp x.coll.desc == 5) ++ [{ dataCase with payload := zeroBytes 64 }, { resultCase with payload := zeroBytes 64 }]

theorem strayCases_all : strayCases.map (fun x => x.kind) = [10, 11, 13, 12, 14, 15, 8, 9] := by decide +kernel

theorem witness_CollectivePackets_stray :
    (∀ x ∈ strayCases, let s := noComm (caseAt x)
      let b := casePkt x
      Sound s ∧ CollQuiet s ∧ Arrives s 1 b x.kind ∧ orderOne b = true ∧ (ordersTwoFour s 1 b true).2 = true ∧ orderFive s b = true ∧
      commRec s (le b 50 2) = none) ∧
    (∀ x ∈ strayCases, let s := caseAt x
      let b := hashedPkt x 1
      let c := x.coll
      Sound s ∧ CollQuiet s ∧ Arrives s 1 b x.kind ∧ orderOne b = true ∧ (ordersTwoFour s 1 b true).2 = true ∧ orderFive s b = true ∧
      commRec s (le b 50 2) = some (commRow x.me) ∧ senderRank s (commRow x.me) b = some (1 - x.me) ∧
      s.coll.colls.find? (fun c => coComm c.desc == le b 50 2 && coSeq c.desc % 65536 == le b 52 2) = some c ∧
      hashed x.kind = decide (x.kind ≠ 11 ∧ x.kind ≠ 12 ∧ x.kind ≠ 13) ∧ (b.drop 42).take 8 ≠ crcBytes (coHash c.desc) ∧
      getColl s c.id = some c) ∧
    (∀ x ∈ strayCases, let c := openColl x.me x.coll.desc
      let s := joining x.me (zeroBytes 64) [c]
      let b := casePkt x
      Sound s ∧ CollQuiet s ∧ Arrives s 1 b x.kind ∧ orderOne b = true ∧ (ordersTwoFour s 1 b true).2 = true ∧ orderFive s b = true ∧
      commRec s (le b 50 2) = some (commRow x.me) ∧ senderRank s (commRow x.me) b = some (1 - x.me) ∧
      s.coll.colls.find? (fun c => coComm c.desc == le b 50 2 && coSeq c.desc % 65536 == le b 52 2) = some c ∧
      (b.drop 42).take 8 = crcBytes (coHash c.desc) ∧ ∀ y ∈ s.coll.colls, y.closed = false) := by
  refine ⟨fun x hx => ⟨sound_of ?_, collQuiet_of ?_, arrives_of ?_, ?_⟩, fun x hx => ⟨sound_of ?_, collQuiet_of ?_, arrives_of ?_, ?_⟩,
    fun x hx => ⟨sound_of ?_, collQuiet_of ?_, arrives_of ?_, ?_⟩⟩ <;> revert x <;> decide +kernel

/-- The packets of `strayCases` that may land in a host window, sent to one. -/
def hostCases : List PktCase :=
  (strayCases.filter (fun x => [9, 14, 15].contains x.kind)).map (fun x => { x with addr := 0xA00000000000 })

/-- The state they come to: the first lines of a host window are open. -/
def openHost (s : State) : State :=
  { s with hif := { s.hif with wt := [(0, fields 32 [(0, 6, 0xA00000000000), (12, 1, 15), (13, 1, 0x3F), (14, 2, 0xFFFF)])] } }

/-- No DRAM installed. -/
def noDram (s : State) : State := { s with mr := { s.mr with memCfg := 0 } }

theorem witness_CollectivePackets_orders :
    hostCases.map (fun x => x.kind) = [14, 15, 9] ∧
    (∀ x ∈ hostCases, let s := openHost (caseAt x)
      let b := casePkt x
      Sound s ∧ CollQuiet s ∧ Arrives s 1 b x.kind ∧ orderOne b = true ∧ (ordersTwoFour s 1 b true).2 = true ∧ toHost b = true) ∧
    (∀ x ∈ strayCases.filter (fun x => [14, 15].contains x.kind), let s := noDram (caseAt x)
      let b := casePkt x
      Sound s ∧ CollQuiet s ∧ Arrives s 1 b x.kind ∧ orderOne b = true ∧ (ordersTwoFour s 1 b true).2 = true ∧ toHost b = false ∧
      orderFive s b = false) := by
  refine ⟨by decide +kernel, fun x hx => ⟨sound_of ?_, collQuiet_of ?_, arrives_of ?_, ?_⟩,
    fun x hx => ⟨sound_of ?_, collQuiet_of ?_, arrives_of ?_, ?_⟩⟩ <;> revert x <;> decide +kernel

/-- TRIG_ARM of entry 3 by counter 100, which holds nothing yet, for the PUT or GET at 0x9000. -/
def armDesc (value : Nat) : Bytes := fields 64 [(0, 1, 0x51), (8, 2, 3), (10, 2, 100), (12, 2, value), (16, 6, 0x9000)]

/-- An armed PUT or GET. -/
def armed (op : Nat) (due : Bool) : Trigger :=
  { fi := 0, entry := 3, counter := 100, value := 1, desc := fabDesc op, stream := 0, phase := 0, step := 0, lateDefault := false, due }

theorem witness_TriggersArmAndFire :
    (∀ v ∈ [0, 1], let s := fabricIo (armDesc v) [(0x9000, fabDesc 0x41)]
      let r := (fiRd s [] (le (armDesc v) 16 6) 64).2
      Sound s ∧ CollQuiet s ∧ fabNext (.io 0 0) s 0x51 = some (ioOpAt (armDesc v)) ∧
      trigCheck s (ioOpAt (armDesc v)).tok.stream (armDesc v) r = none ∧ waitHolds s 100 v = decide (v = 1)) ∧
    (∀ op ∈ [0x40, 0x41], ∀ due ∈ [false, true], let x := armed op due
      let s := { fabricOn twoUp with coll := { (fabricOn twoUp).coll with triggers := [x] } }
      Sound s ∧ CollQuiet s ∧ s.coll.triggers.find? (fun y => y.fi == (0#1).toNat && y.entry == (3#10).toNat) = some x ∧ x.due = due ∧
      (byteAt x.desc 0 = 0x41 ∨ (byteAt x.desc 0 = 0x40 ∧ fbAck x.desc = true)) ∧ fabCheck s x.stream x.desc = none ∧
      (fabRoute s (gNode (fbRemote x.desc))).isSome = true ∧ localNode s (gNode (fbRemote x.desc)) = false) := by
  refine ⟨fun v hv => ⟨sound_of ?_, collQuiet_of ?_, ?_⟩, fun op ho due hd => ⟨sound_of ?_, collQuiet_of ?_, ?_⟩⟩
  · revert v; decide +kernel
  · revert v; decide +kernel
  · revert v; decide +kernel
  all_goals revert op due; decide +kernel

/-- A trigger that is due, for an op. -/
def dueFor (d : Bytes) : Trigger := { armed 0x41 true with desc := d }

/-- A state with that trigger. -/
def withTrigger (s : State) (d : Bytes) : State := { s with coll := { s.coll with triggers := [dueFor d] } }

theorem witness_TriggersArmAndFire_ends :
    (let d := putBytes (fabDesc 0x40) 32 [0]
     let s := withTrigger (fabricOn twoUp) d
     Sound s ∧ CollQuiet s ∧ s.coll.triggers.find? (fun y => y.fi == (0#4).toNat && y.entry == (3#10).toNat) = some (dueFor d) ∧
     byteAt d 0 = 0x40 ∧ fbAck d = false ∧ fbLen d ≤ pktMax ∧ fabCheck s 0 d = none ∧ s.fab.tags = [] ∧
     (fabRoute s (gNode (fbRemote d))).isSome = true ∧ WayOut s (gNode (fbRemote d)) 0 (fbLen d) false 0 false) ∧
    (∀ held, let d := collDesc 3 4 0
      let s := withTrigger (joining 1 (zeroBytes 64) (if held then [newColl on (.io 0 0 7) 0 0 0 false d (commRow 1) [] 0 false] else [])) d
      let r := commOf s (coComm d)
      Sound s ∧ CollQuiet s ∧ s.coll.triggers.find? (fun y => y.fi == (0#4).toNat && y.entry == (3#10).toNat) = some (dueFor d) ∧
      byteAt d 0 = 0x50 ∧ collCheck s 0 d = none ∧ collMay s (coComm d) = !held ∧ 1 < cmMembers r ∧
      localNode s (mbNode (member s r 0)) = false ∧ (smGet (0, 0) s.coll.heldAbort (coComm d)).1 ≠ coSeq d % 65536 + 1 ∧
      getColl s (s.coll.nextId + 1) = none) := by
  refine ⟨⟨sound_of (by decide +kernel), collQuiet_of (by decide +kernel), by decide +kernel, by decide +kernel, by decide +kernel,
    by decide +kernel, by decide +kernel, by decide +kernel, by decide +kernel, wayOut_of false (by decide +kernel)⟩,
    fun held => ⟨sound_of ?_, collQuiet_of ?_, ?_⟩⟩ <;> revert held <;> decide +kernel

/-! ## Ill-formed commands -/

/-- A list of pairs whose keys do not rise, and one that names a cluster that is not there. -/
theorem test_wf_pairs : ∀ l ∈ [[(3, 1), (3, 2)], [(5, 1), (4, 1)], [(64, 1)]],
    Instr.wf (.cadenceTick l) = false ∧ Instr.wf (.selftestDone ⟨l.map (fun p => (p.1, BitVec.ofNat 64 p.2)), [], []⟩) = false := by decide

/-- A host line below, above and across the host windows' lines, and one of 63 bytes. -/
def badLines : List HostLine :=
  [⟨0x9FFFFFFFFFC0, none⟩, ⟨0xC00000000000, none⟩, ⟨0xA00000000020, none⟩, ⟨0xA00000000000, some (zeroBytes 63)⟩]

theorem test_wf_host_lines : ∀ h ∈ badLines, ∀ i ∈ [Instr.blinkSample 0 [h], .coeStage 0 [h], .dmaCopy 0 [h], .fetch 0 [h], .ccmMove 0 [h],
    .counterWaitRelease (.io 0 0) [h], .put (.io 0 0) [h], .allReduce (.io 0 0) [h], .reduceScatter (.io 0 0) [h],
    .allGather (.io 0 0) [h], .reduce (.io 0 0) [h], .broadcast (.io 0 0) [h], .barrier (.io 0 0) [h], .allToAllv (.io 0 0) [h],
    .roleSet ⟨.io 0 0, [h]⟩, .trigArm ⟨.io 0 0, [h]⟩,
    .collReady 0 [h], .triggerFire 0 0 [h]], i.wf = false := by decide +kernel

/-- COPY_COMPLETION takes lines by their bus addresses (R484): any aligned one. -/
theorem test_wf_bus_lines : Instr.wf (.copyCompletion 0 0 [⟨0x40, some (zeroBytes 64)⟩]) = true ∧
    ∀ h ∈ [(⟨0x41, none⟩ : HostLine), ⟨0x40, some (zeroBytes 63)⟩, ⟨2 ^ 64, none⟩], Instr.wf (.copyCompletion 0 0 [h]) = false := by
  decide +kernel

theorem test_wf_descriptors : Instr.wf (.descriptorFetch 0 (List.replicate 9 none)) = false ∧
    Instr.wf (.descriptorFetch 0 [some (zeroBytes 63)]) = false ∧ Instr.wf (.descriptorFetch 0 [some (zeroBytes 64), none]) = true := by decide +kernel

theorem test_wf_packets : ∀ b ∈ [zeroBytes 0, zeroBytes 65, zeroBytes 4160], ∀ i ∈ [Instr.write 0 b false, .readReq 0 b, .readData 0 ⟨b, false⟩, .ack 0 b,
    .fwdWrite 0 ⟨b, false⟩, .routerForward 0 b, .join 0 b, .close 0 b, .data 0 b, .result 0 ⟨b, false⟩, .credit 0 b, .abort 0 b, .a2aData 0 ⟨b, false⟩,
    .a2aCount 0 ⟨b, false⟩, .idle 0 b 0 0], i.wf = false := by decide +kernel

theorem test_wf_cut : Instr.wf (.linkDrop 0 ⟨.light, zeroBytes 65⟩) = false ∧ Instr.wf (.linkDrop 0 ⟨.light, zeroBytes 4096⟩) = false ∧
    Instr.wf (.linkDrop 0 ⟨.light, []⟩) = true := by decide +kernel

/-- A packet that is a whole message of `n` bytes. -/
def mctpLong (n : Nat) : MctpPacket := { som := true, eom := true, seq := 0, owner := true, tag := 0, body := zeroBytes n }

/-- No packet, and one whose body is longer than any binding carries. -/
theorem test_wf_mctp : Instr.wf (.mctpControl .vdmA []) = false ∧ Instr.wf (.mctpControl .vdmA [mctpLong 257]) = false ∧
    Instr.wf (.mctpControl .vdmA [mctpLong 256]) = true := by decide +kernel

theorem test_wf_bar4 : Instr.wf (.bar4Write .a 0 [] false) = false ∧ Instr.wf (.bar4Write .a 0 (zeroBytes 4097) false) = false ∧
    Instr.wf (.bar4Read .a 0 0) = false ∧ Instr.wf (.bar4Read .a 0 4097) = false := by decide +kernel

/-- A message on channel 6, and messages too short and too long. -/
theorem test_wf_messages : ∀ x ∈ [((6 : BitVec 3), 32), (0, 31), (0, 4097)], ∀ i ∈ [Instr.hello x.1 (zeroBytes x.2), .loadBegin x.1 (zeroBytes x.2),
    .loadData x.1 (zeroBytes x.2), .loadEnd x.1 (zeroBytes x.2), .configSet x.1 (zeroBytes x.2), .eventRingSet x.1 (zeroBytes x.2),
    .certRead x.1 (zeroBytes x.2), .mlogRead x.1 (zeroBytes x.2), .faillogRead x.1 (zeroBytes x.2), .sensorRead x.1 (zeroBytes x.2),
    .powerReq x.1 (zeroBytes x.2), .fwuStage x.1 (zeroBytes x.2), .fwuVerify x.1 (zeroBytes x.2), .fwuActivate x.1 (zeroBytes x.2),
    .fwuAbort x.1 (zeroBytes x.2), .fwuStatus x.1 (zeroBytes x.2)], i.wf = false := by decide +kernel

/-- An access of three bytes, and accesses that run over the end of their BAR. -/
theorem test_wf_accesses : ∀ x ∈ [(HostBar.bar0, (0 : BitVec 26), 3), (.bar0, 0x3FFFFFF, 2), (.bar2, 0xFFFFFC, 8)],
    Instr.wf (.bar0Read .a x.1 x.2.1 x.2.2) = false ∧ Instr.wf (.registerWrite .a x.1 x.2.1 x.2.2 0) = false := by decide

theorem test_wf_numbers : Instr.wf (.railFail 7) = false ∧ Instr.wf (.inputHeld 6) = false ∧ Instr.wf (.inputUnmasked 6) = false ∧
    Instr.wf (.wearReading (List.replicate 5 [])) = false ∧ Instr.wf (.enterConfigWait (List.replicate 15 none)) = false := by decide

/-! ## A known answer -/

/-- SHAKE256 of no bytes begins 46 B9 DD 2B (FIPS 202). -/
theorem test_shake : shake256 [] 4 = [0x46, 0xB9, 0xDD, 0x2B] := by decide +kernel

end Sys2Proof.Tests
end

section
/-! PROOFS. What leaves the fields that R16 and R600 lock as they were: one lemma for each operation of the model says that
the node id, the designation and their two lock bits read the same after it. A lemma about an operation cites those of the
operations that it calls; the few operations that do write these fields follow in the section after. -/

namespace Sys2Proof.Laws

open Sys2Proof Sys2Proof.Machine

/-- The fields that TOP_NODE_ID and FAB_BYPASS lock, with their lock bits (R16, R600). An equation between two states' fields is
a rewrite rule, so that the lemmas below compose under `simp`. -/
def lockFields (s : State) : BitVec 16 × Bool × BitVec 8 × Bool :=
  (s.fab.nodeId, s.fab.nodeLock, s.fab.designate, s.fab.bypLock)

/-- The next state that a command answers, if it answers one, has the four fields as they were. -/
def KeepsLocks (s : State) (r : Res) : Prop := ∀ t, r = .next t → lockFields t = lockFields s

theorem lockFields_of_fab {s t : State} (h : t.fab = s.fab) : lockFields t = lockFields s := by
  simp only [lockFields, h]

theorem lockFields_of_keeps {s t : State} {ps : List Part} (h : Keeps ps s t) (hp : ps.all (· != .fab) = true) :
    lockFields t = lockFields s :=
  lockFields_of_fab (h .fab fun hmem => by simpa using List.all_eq_true.mp hp _ hmem)

/-- An update of a state that leaves the fabric as it was. -/
@[simp] theorem lockFields_mk (s : State) (pending nowNs freeCount out mem cr cores blink trn mr ccm muu muuRun trnRun cmd hif
    sec fw err pwr rst coll) :
    lockFields ⟨pending, nowNs, freeCount, out, mem, cr, cores, blink, trn, mr, ccm, muu, muuRun, trnRun, cmd, hif, sec, fw,
      err, pwr, rst, s.fab, coll⟩ = lockFields s := by simp only [lockFields]

/-- An update of the fabric that leaves the four fields as they were. -/
@[simp] theorem lockFields_mk_fab (s : State) (pending nowNs freeCount out mem cr cores blink trn mr ccm muu muuRun trnRun cmd
    hif sec fw err pwr rst coll en mode hold joined timeout crcDrops staleRole windowDeny hostDrops noRoute routeErr timeouts
    lateReplies ports route epochs tags nextTag tagUse ops posts fetches nextId loop held) :
    lockFields ⟨pending, nowNs, freeCount, out, mem, cr, cores, blink, trn, mr, ccm, muu, muuRun, trnRun, cmd, hif, sec, fw,
      err, pwr, rst, ⟨s.fab.nodeId, s.fab.nodeLock, en, mode, s.fab.designate, hold, joined, s.fab.bypLock, timeout, crcDrops,
        staleRole, windowDeny, hostDrops, noRoute, routeErr, timeouts, lateReplies, ports, route, epochs, tags, nextTag, tagUse,
        ops, posts, fetches, nextId, loop, held⟩, coll⟩ = lockFields s := by simp only [lockFields]

@[simp] theorem keepsLocks_next (s t : State) : KeepsLocks s (.next t) ↔ lockFields t = lockFields s :=
  ⟨fun h => h t rfl, fun h u hu => by cases hu; exact h⟩

theorem keepsLocks_ite {s : State} {r q : Res} (c : Prop) [Decidable c] (hr : KeepsLocks s r) (hq : KeepsLocks s q) :
    KeepsLocks s (if c then r else q) := by
  split <;> assumption

variable {α : Type}

/-- A fold keeps a reading of its state that each of its steps keeps. -/
theorem foldl_reads {σ β : Type} (read : σ → β) {f : σ → α → σ} (h : ∀ s x, read (f s x) = read s) (l : List α)
    (s : σ) : read (l.foldl f s) = read s := by
  induction l generalizing s with
  | nil => rfl
  | cons x l ih => exact (ih _).trans (h s x)

@[simp] theorem foldl_lockFields {f : State → α → State} (h : ∀ s x, lockFields (f s x) = lockFields s) (l : List α)
    (s : State) : lockFields (l.foldl f s) = lockFields s := foldl_reads lockFields h l s

@[simp] theorem foldl_fst_lockFields {β : Type} {f : State × β → α → State × β}
    (h : ∀ x a, lockFields (f x a).1 = lockFields x.1) (l : List α) (x : State × β) :
    lockFields (l.foldl f x).1 = lockFields x.1 := foldl_reads (fun y => lockFields y.1) h l x

@[simp] theorem foldl_view_lockFields {f : View → α → View} (h : ∀ v x, lockFields (f v x).s = lockFields v.s)
    (l : List α) (v : View) : lockFields (l.foldl f v).s = lockFields v.s := foldl_reads (fun y => lockFields y.s) h l v

@[simp] theorem foldl_env_lockFields {f : VeEnv → α → VeEnv} (h : ∀ e x, lockFields (f e x).s = lockFields e.s)
    (l : List α) (e : VeEnv) : lockFields (l.foldl f e).s = lockFields e.s := foldl_reads (fun y => lockFields y.s) h l e

/-! ### Memory, cores, counters and core lists -/

@[simp] theorem setMem_lockFields (s : State) (m : Mem) : lockFields (setMem s m) = lockFields s :=
  lockFields_of_keeps (setMem_keeps s m) rfl

@[simp] theorem write_lockFields (s : State) (r : Reach) (a : Nat) (bs : Bytes) (poison : Bool) :
    lockFields (write s r a bs poison) = lockFields s :=
  lockFields_of_keeps (write_keeps s r a bs poison) rfl

@[simp] theorem setCore_lockFields (s : State) (n : Nat) (c : Core) : lockFields (setCore s n c) = lockFields s :=
  lockFields_of_keeps (setCore_keeps s n c) rfl

@[simp] theorem coreWrite_lockFields (s : State) (n off : Nat) (bs : Bytes) (poison : Bool) :
    lockFields (coreWrite s n off bs poison) = lockFields s :=
  lockFields_of_keeps (coreWrite_keeps s n off bs poison) rfl

@[simp] theorem touchCluster_lockFields (s : State) (c : Nat) : lockFields (touchCluster s c) = lockFields s :=
  lockFields_of_keeps (touchCluster_keeps s c) rfl

@[simp] theorem touch_lockFields (s : State) (a : Nat) : lockFields (touch s a) = lockFields s :=
  lockFields_of_keeps (touch_keeps s a) rfl

@[simp] theorem emit_lockFields (s : State) (o : Output) : lockFields (emit s o) = lockFields s :=
  lockFields_of_keeps (emit_keeps s o) rfl

@[simp] theorem modStream_lockFields (s : State) (id : Nat) (f : StreamRun → StreamRun) :
    lockFields (modStream s id f) = lockFields s :=
  lockFields_of_keeps (modStream_keeps s id f) rfl

@[simp] theorem modPhase_lockFields (s : State) (id p : Nat) (f : PhaseRun → PhaseRun) :
    lockFields (modPhase s id p f) = lockFields s :=
  lockFields_of_keeps (modPhase_keeps s id p f) rfl

@[simp] theorem noteStatus_lockFields (s : State) (id p : Nat) (st : Status) :
    lockFields (noteStatus s id p st) = lockFields s :=
  lockFields_of_keeps (noteStatus_keeps s id p st) rfl

@[simp] theorem blameMember_lockFields (s x : State) (id p prob : Nat) (st : Status) :
    lockFields (blameMember s x id p prob st) = lockFields x := by
  simp only [blameMember]; split <;> simp

@[simp] theorem counterSeen_lockFields (s : State) (c : Nat) : lockFields (counterSeen s c) = lockFields s :=
  lockFields_of_keeps (counterSeen_keeps s c) rfl

@[simp] theorem bumpCounter_lockFields (s : State) (c : Nat) : lockFields (bumpCounter s c) = lockFields s :=
  lockFields_of_keeps (bumpCounter_keeps s c) rfl

@[simp] theorem signal_lockFields (s : State) (id : Nat) (d : Bytes) : lockFields (signal s id d) = lockFields s :=
  lockFields_of_keeps (signal_keeps s id d) rfl

@[simp] theorem finishOp_lockFields (s : State) (n : Nat) (t : Token) (d : Bytes) (st : Status) :
    lockFields (finishOp s n t d st) = lockFields s :=
  lockFields_of_keeps (finishOp_keeps s n t d st) rfl

@[simp] theorem passOps_lockFields (s : State) (n k : Nat) : lockFields (passOps s n k) = lockFields s :=
  lockFields_of_keeps (passOps_keeps s n k) rfl

@[simp] theorem rejectOp_lockFields (s : State) (n : Nat) (o : NextOp) (st : Status) :
    lockFields (rejectOp s n o st) = lockFields s :=
  lockFields_of_keeps (rejectOp_keeps s n o st) rfl

@[simp] theorem photUpdate_lockFields (s : State) (base layer : Nat) (p : Phot) (clip : Bool) :
    lockFields (photUpdate s base layer p clip) = lockFields s :=
  lockFields_of_keeps (photUpdate_keeps s base layer p clip) rfl

/-! ### Events and the failure log (chapter 19) -/

@[simp] theorem setPort_lockFields (s : State) (p : HPort) (x : HostPortState) : lockFields (setPort s p x) = lockFields s :=
  lockFields_of_keeps (setPort_keeps s p x) rfl

@[simp] theorem setQueue_lockFields (s : State) (q : Nat) (x : Queue) : lockFields (setQueue s q x) = lockFields s :=
  lockFields_of_keeps (setQueue_keeps s q x) rfl

@[simp] theorem sendMsix_lockFields (s : State) (p : HPort) (v : Nat) : lockFields (sendMsix s p v) = lockFields s :=
  lockFields_of_keeps (sendMsix_keeps s p v) rfl

@[simp] theorem evDrop_lockFields (s : State) : lockFields (evDrop s) = lockFields s :=
  lockFields_of_keeps (evDrop_keeps s) rfl

@[simp] theorem sendRead_lockFields (s : State) (p : HPort) (addr len : Nat) (w : ReadFor) :
    lockFields (sendRead s p addr len w) = lockFields s :=
  lockFields_of_keeps (sendRead_keeps s p addr len w) rfl

@[simp] theorem issueRead_lockFields (s : State) (p : HPort) (addr len : Nat) (w : ReadFor) :
    lockFields (issueRead s p addr len w) = lockFields s :=
  lockFields_of_keeps (issueRead_keeps s p addr len w) rfl

@[simp] theorem refillRead_lockFields (s : State) (p : HPort) : lockFields (refillRead s p) = lockFields s := by
  simp only [refillRead]; split <;> simp

@[simp] theorem toRing_lockFields (s : State) (rec : Bytes) (p : HPort) : lockFields (toRing s rec p) = lockFields s :=
  lockFields_of_keeps (toRing_keeps s rec p) rfl

@[simp] theorem ringWrite_lockFields (s : State) (p : HPort) (rec headWord : Bytes) :
    lockFields (ringWrite s p rec headWord) = lockFields s :=
  lockFields_of_keeps (ringWrite_keeps s p rec headWord) rfl

@[simp] theorem flushWindow_lockFields (s : State) (w : EventWindow) : lockFields (flushWindow s w) = lockFields s :=
  lockFields_of_keeps (flushWindow_keeps s w) rfl

@[simp] theorem raiseEvent_lockFields (s : State) (st : Status) (source unit : Nat) (detail : Bytes) :
    lockFields (raiseEvent s st source unit detail) = lockFields s :=
  lockFields_of_keeps (raiseEvent_keeps s st source unit detail) rfl

@[simp] theorem execCoalesceWindowEnd_keepsLocks (status : BitVec 16) (source : BitVec 8) (unit : BitVec 16) (s : State) :
    KeepsLocks s (execCoalesceWindowEnd status source unit s) := by
  simp only [execCoalesceWindowEnd]; (repeat' split) <;> simp

@[simp] theorem logFailure_lockFields (s : State) (kind : Nat) (st : Status) (unit addr : Nat) :
    lockFields (logFailure s kind st unit addr) = lockFields s :=
  lockFields_of_keeps (logFailure_keeps s kind st unit addr) rfl

/-! ### Checked accesses (chapters 10 and 15) -/

@[simp] theorem denyLine_lockFields (s : State) (init : Nat) (write : Bool) (a : Nat) :
    lockFields (denyLine s init write a) = lockFields s :=
  lockFields_of_keeps (denyLine_keeps s init write a) rfl

@[simp] theorem noteCorrected_lockFields (s : State) (n : BitVec 32) (source unit a : Nat) :
    lockFields (noteCorrected s n source unit a) = lockFields s := by
  simp only [noteCorrected]; split <;> simp

@[simp] theorem meetErr_lockFields (s : State) (a : Nat) (e : LineErr) : lockFields (meetErr s a e) = lockFields s := by
  simp only [meetErr]; split <;> simp

@[simp] theorem demandWith_lockFields (host : List HostLine) (s : State) (a : Nat) :
    lockFields (demandWith host s a) = lockFields s := by
  simp only [demandWith]; split <;> simp

@[simp] theorem demandLine_lockFields (s : State) (a : Nat) : lockFields (demandLine s a) = lockFields s := by
  simp only [demandLine]; split <;> simp

@[simp] theorem demandRead_lockFields (s : State) (a n : Nat) : lockFields (demandRead s a n) = lockFields s := by
  simp only [demandRead]; split <;> simp

@[simp] theorem viewLine_lockFields (init : Nat) (r : Reach) (host : List HostLine) (v : View) (a : Nat) :
    lockFields (viewLine init r host v a).s = lockFields v.s := by
  simp only [viewLine]; (repeat' split) <;> simp

@[simp] theorem viewSpan_lockFields (init : Nat) (r : Reach) (host : List HostLine) (v : View) (a n : Nat) :
    lockFields (viewSpan init r host v a n).s = lockFields v.s := by
  simp [viewSpan]

@[simp] theorem viewOf_s (s : State) : (viewOf s).s = s := rfl

@[simp] theorem writeLine_lockFields (init : Nat) (r : Reach) (a : Nat) (bs : Bytes) (poison : Nat → Bool)
    (x : State × Option Status) (l : Nat) :
    lockFields (writeLine init r a bs poison x l).1 = lockFields x.1 := by
  simp only [writeLine]; (repeat' split) <;> simp

@[simp] theorem writeSpan_lockFields (s : State) (init : Nat) (r : Reach) (a : Nat) (bs : Bytes) (poison : Nat → Bool) :
    lockFields (writeSpan s init r a bs poison).1 = lockFields s := by
  simp [writeSpan]

@[simp] theorem copySpan_lockFields (m : Mem) (s : State) (init : Nat) (r : Reach) (src dst len : Nat) :
    lockFields (copySpan m s init r src dst len).1 = lockFields s := by
  simp [copySpan]

@[simp] theorem wakeUp_lockFields (s : State) : lockFields (wakeUp s) = lockFields s := by
  simp only [wakeUp]; split <;> simp

@[simp] theorem holdAccess_lockFields (s : State) (h : HeldAccess) : lockFields (holdAccess s h) = lockFields s := by
  simp [holdAccess]

@[simp] theorem hostSetup_lockFields {act : State → State} (h : ∀ x, lockFields (act x) = lockFields x) (s : State)
    (p : HPort) (off size value : Nat) : lockFields (hostSetup s p off size value act) = lockFields s := by
  simp only [hostSetup]; split <;> simp [h]

/-! ### Log-Product Arrays (chapter 04) -/

@[simp] theorem loadAhead_lockFields (s : State) (n : Nat) (r : LpaRun) (j : Nat) :
    lockFields (loadAhead s n r j) = lockFields s := by
  simp only [loadAhead]; (repeat' split) <;> simp

@[simp] theorem execWeightTileReady_keepsLocks (core : CoreId) (array : BitVec 2) (s : State) :
    KeepsLocks s (execWeightTileReady core array s) := by
  simp only [execWeightTileReady]; (repeat' split) <;> simp

@[simp] theorem startLpa_lockFields (s : State) (n : Nat) (o : NextOp) (ds : List Bytes) :
    lockFields (startLpa s n o ds) = lockFields s := by
  simp [startLpa]

@[simp] theorem rejectGroup_lockFields (s : State) (n : Nat) (o : NextOp) (ds : List Bytes) (st : Status) :
    lockFields (rejectGroup s n o ds st) = lockFields s := by
  simp [rejectGroup]

@[simp] theorem runPlan_lockFields (s : State) (n : Nat) (o : NextOp) (plan : LpaPlan) :
    lockFields (runPlan s n o plan) = lockFields s := by
  simp only [runPlan]; (repeat' split) <;> simp

@[simp] theorem beginLpa_lockFields (n : Nat) (s : State) : lockFields (beginLpa n s) = lockFields s := by
  simp only [beginLpa]; (repeat' split) <;> simp

@[simp] theorem beginGroup_lockFields (n : Nat) (s : State) : lockFields (beginGroup n s) = lockFields s := by
  simp only [beginGroup]; (repeat' split) <;> simp

@[simp] theorem drainPlate_lockFields (s : State) (n : Nat) (r : LpaRun) (j : PlateJob) (mb : LpaMember) :
    lockFields (drainPlate s n r j mb) = lockFields s := by
  simp [drainPlate, apply_ite lockFields]

@[simp] theorem reserveEntries_lockFields (s : State) (n : Nat) : lockFields (reserveEntries s n) = lockFields s := by
  simp only [reserveEntries]; split <;> simp

@[simp] theorem drainOcs_lockFields (s : State) (n ocs fuel : Nat) : lockFields (drainOcs s n ocs fuel) = lockFields s := by
  induction fuel generalizing s with
  | zero => rfl
  | succ fuel ih => simp only [drainOcs]; (repeat' split) <;> simp [ih]

@[simp] theorem drainBanks_lockFields (s : State) (n : Nat) : lockFields (drainBanks s n) = lockFields s := by
  simp [drainBanks]

@[simp] theorem execRowBlockDone_keepsLocks (core : CoreId) (s : State) : KeepsLocks s (execRowBlockDone core s) := by
  simp only [execRowBlockDone]; (repeat' split) <;> simp

@[simp] theorem execPlateHoldRelease_keepsLocks (core : CoreId) (s : State) : KeepsLocks s (execPlateHoldRelease core s) := by
  simp [execPlateHoldRelease]

@[simp] theorem poisonPlate_lockFields (s : State) (n : Nat) (p : LpaParm) (mb : LpaMember) (imag : Bool) (blk j : Nat) :
    lockFields (poisonPlate s n p mb imag blk j) = lockFields s := by
  simp only [poisonPlate]; split <;> simp

@[simp] theorem poisonRest_lockFields (s : State) (n : Nat) (r : LpaRun) : lockFields (poisonRest s n r) = lockFields s := by
  simp only [poisonRest]
  rw [foldl_lockFields, foldl_lockFields]
  · intro a j; split <;> simp
  · simp [apply_ite lockFields]

@[simp] theorem countMember_lockFields (s : State) (r : LpaRun) (z : LpaMember × Nat) (st : Status) :
    lockFields (countMember s r z st) = lockFields s := by
  simp only [countMember]; split <;> simp

@[simp] theorem countEnded_lockFields (s : State) (r : LpaRun) : lockFields (countEnded s r) = lockFields s := by
  simp [countEnded]

@[simp] theorem endMembers_lockFields (s : State) (n : Nat) (r : LpaRun) (status : LpaMember → Status) :
    lockFields (endMembers s n r status) = lockFields s := by
  simp [endMembers, apply_ite lockFields]

@[simp] theorem completeLpa_lockFields (s : State) (n : Nat) : lockFields (completeLpa s n) = lockFields s := by
  simp only [completeLpa]; (repeat' split) <;> simp

@[simp] theorem endStalled_lockFields (n : Nat) (s : State) : lockFields (endStalled n s) = lockFields s := by
  simp only [endStalled]; (repeat' split) <;> simp

/-! ### The Coelostat (chapter 06) -/

@[simp] theorem coeRun_lockFields (s : State) (n : Nat) (o : NextOp) (host : List HostLine) :
    lockFields (coeRun s n o host) = lockFields s := by
  simp [coeRun]

@[simp] theorem execCoeStage_keepsLocks (core : CoreId) (host : List HostLine) (s : State) :
    KeepsLocks s (execCoeStage core host s) := by
  simp only [execCoeStage]; (repeat' split) <;> simp

@[simp] theorem countCoe_lockFields (s : State) (r : OpRun) (st : Status) : lockFields (countCoe s r st) = lockFields s := by
  simp [countCoe]

@[simp] theorem completeCoe_lockFields (s : State) (n : Nat) : lockFields (completeCoe s n) = lockFields s := by
  simp only [completeCoe]; (repeat' split) <;> simp

/-! ### Blink (chapter 06) -/

@[simp] theorem ladderUpdate_lockFields (s : State) (entry : Option Nat) (f : Bytes → Bytes) :
    lockFields (ladderUpdate s entry f) = lockFields s := by
  simp only [ladderUpdate]; (repeat' split) <;> simp

@[simp] theorem execBlinkSample_keepsLocks (cluster : ClusterId) (host : List HostLine) (s : State) :
    KeepsLocks s (execBlinkSample cluster host s) := by
  simp only [execBlinkSample]; split <;> simp

/-! ### The Vector Engine (chapter 07) -/

theorem veEnv_s {s : State} {n : Nat} {e : VeEnv} (h : veEnv s n = some e) : e.s = s := by
  simp only [veEnv, Option.map_eq_some_iff] at h
  obtain ⟨v, _, rfl⟩ := h; rfl

@[simp] theorem veBack_lockFields (e : VeEnv) : lockFields (veBack e) = lockFields e.s := by simp [veBack]

/-- The state that an issue answers with, if it answers with one, keeps the fields that locks govern. -/
def IssueKeepsLocks (s : State) : Issue → Prop
  | .done e => lockFields e.s = lockFields s
  | .wait => True
  | .fault e .. => lockFields e.s = lockFields s

@[simp] theorem issueKeepsLocks_done (s : State) (e : VeEnv) : IssueKeepsLocks s (.done e) ↔
    lockFields e.s = lockFields s := Iff.rfl

@[simp] theorem issueKeepsLocks_wait (s : State) : IssueKeepsLocks s .wait := trivial

@[simp] theorem issueKeepsLocks_fault (s : State) (e : VeEnv) (k l b a : Nat) (st : Status) :
    IssueKeepsLocks s (.fault e k l b a st) ↔ lockFields e.s = lockFields s := Iff.rfl

@[simp] theorem faultAll_keepsLocks (s : State) (e : VeEnv) (kind act : Nat) (st : Status) :
    IssueKeepsLocks s (faultAll e kind act st) ↔ lockFields e.s = lockFields s := Iff.rfl

@[simp] theorem addFlags_lockFields (e : VeEnv) (nv of : Bool) : lockFields (addFlags e nv of).s = lockFields e.s := by
  simp [addFlags]

@[simp] theorem laneOp_keepsLocks (s : State) (e : VeEnv) (d : Nat) (lanes : List Nat) (srcs : Nat → List (Nat × Bool))
    (f : Nat → FRes) : IssueKeepsLocks s (laneOp e d lanes srcs f) ↔ lockFields e.s = lockFields s := by
  simp [laneOp]

@[simp] theorem unary_keepsLocks (s : State) (e : VeEnv) (u : Uop) (f : Nat → FRes) :
    IssueKeepsLocks s (unary e u f) ↔ lockFields e.s = lockFields s := by
  simp [unary]

@[simp] theorem binary_keepsLocks (s : State) (e : VeEnv) (u : Uop) (f : Nat → Nat → FRes) :
    IssueKeepsLocks s (binary e u f) ↔ lockFields e.s = lockFields s := by
  simp [binary]

@[simp] theorem takeVector_lockFields (e : VeEnv) (u : Uop) (k : Nat) (vec : List (Nat × Bool) × Nat) :
    lockFields (takeVector e u k vec).s = lockFields e.s := by
  simp [takeVector]

@[simp] theorem flushBlock_lockFields (e : VeEnv) (k r blk : Nat) : lockFields (flushBlock e k r blk).s = lockFields e.s := by
  simp [flushBlock]

@[simp] theorem outPut_lockFields (e : VeEnv) (k : Nat) (x : Option (Nat × Bool)) :
    lockFields (outPut e k x).s = lockFields e.s := by
  simp only [outPut]; (repeat' split) <;> simp

@[simp] theorem flushAll_lockFields (e : VeEnv) : lockFields (flushAll e).s = lockFields e.s := by
  simp [flushAll]

/-- A gather or scatter keeps what its action on each lane keeps. -/
theorem gatherRun_keepsLocks {act : VeEnv → Nat → Target → VeEnv} {atFault : VeEnv → Nat → VeEnv}
    (hact : ∀ a i t, lockFields (act a i t).s = lockFields a.s)
    (hfault : ∀ a i, lockFields (atFault a i).s = lockFields a.s) (e : VeEnv) (u : Uop) :
    IssueKeepsLocks e.s (gatherRun e u act atFault) := by
  simp only [gatherRun]; split <;> simp [hact, hfault]

theorem ruRow_keepsLocks {s : State} {i : Issue} (h : IssueKeepsLocks s i) (act : Nat) (x : RuRes × Nat) :
    IssueKeepsLocks s (ruRow i act x) := by
  cases i with
  | done e => simp only [issueKeepsLocks_done] at h; simp only [ruRow]; (repeat' split) <;> simp [h]
  | wait => exact h
  | fault => exact h

theorem ruRows_keepsLocks {s : State} {before e : VeEnv} (hb : lockFields before.s = lockFields s)
    (he : lockFields e.s = lockFields s) (act : Nat) (xs : List (RuRes × Nat)) : IssueKeepsLocks s (ruRows before e act xs) := by
  have rows : IssueKeepsLocks s (xs.foldl (fun a x => ruRow a act x) (.done e)) :=
    List.foldlRecOn xs _ he fun _ h x _ => ruRow_keepsLocks h act x
  simp only [ruRows]; split
  · exact hb
  · exact rows

@[simp] theorem veFault_lockFields (e : VeEnv) (op kind lane bitmap addr : Nat) (st : Status) :
    lockFields (veFault e op kind lane bitmap addr st).s = lockFields e.s := by
  simp [veFault]

@[simp] theorem veStart_lockFields (s : State) (n : Nat) (o : NextOp) : lockFields (veStart s n o) = lockFields s := by
  simp [veStart]

@[simp] theorem completeVe_lockFields (s : State) (n : Nat) : lockFields (completeVe s n) = lockFields s := by
  simp only [completeVe]; (repeat' split) <;> simp

/-! ### Micro-ops and the program loop (chapter 07) -/

@[simp] theorem floatOp_keepsLocks (s : State) (e : VeEnv) (u : Uop) (f : FFmt → Nat → Nat → FRes) :
    IssueKeepsLocks s (floatOp f e u) ↔ lockFields e.s = lockFields s := by
  simp [floatOp]

@[simp] theorem compare_keepsLocks (s : State) (e : VeEnv) (u : Uop) (f : Nat → Nat → Bool) :
    IssueKeepsLocks s (Machine.compare e u f) ↔ lockFields e.s = lockFields s := by
  simp [Machine.compare]

@[simp] theorem uopNop_keepsLocks (e : VeEnv) (u : Uop) : IssueKeepsLocks e.s (uopNop e u) := by simp [uopNop]

@[simp] theorem uopMov_keepsLocks (e : VeEnv) (u : Uop) : IssueKeepsLocks e.s (uopMov e u) := by simp [uopMov]

@[simp] theorem uopCns_keepsLocks (e : VeEnv) (u : Uop) : IssueKeepsLocks e.s (uopCns e u) := by simp [uopCns]

@[simp] theorem uopLid_keepsLocks (e : VeEnv) (u : Uop) : IssueKeepsLocks e.s (uopLid e u) := by simp [uopLid]

@[simp] theorem uopLds_keepsLocks (e : VeEnv) (u : Uop) : IssueKeepsLocks e.s (uopLds e u) := by
  simp only [uopLds]; (repeat' split) <;> simp

@[simp] theorem uopSts_keepsLocks (e : VeEnv) (u : Uop) : IssueKeepsLocks e.s (uopSts e u) := by
  simp only [uopSts]; split <;> simp

@[simp] theorem uopGth_keepsLocks (e : VeEnv) (u : Uop) : IssueKeepsLocks e.s (uopGth e u) := by
  simp only [uopGth]
  apply gatherRun_keepsLocks
  · intro a i t; split <;> rfl
  · intros; rfl

@[simp] theorem uopSct_keepsLocks (e : VeEnv) (u : Uop) : IssueKeepsLocks e.s (uopSct e u) := by
  simp only [uopSct]
  apply gatherRun_keepsLocks
  · intro a i t; split <;> simp
  · intros; rfl

@[simp] theorem uopSca_keepsLocks (e : VeEnv) (u : Uop) : IssueKeepsLocks e.s (uopSca e u) := by
  simp only [uopSca]
  apply gatherRun_keepsLocks
  · intro a i t; split <;> simp
  · intros; rfl

@[simp] theorem uopFadd_keepsLocks (e : VeEnv) (u : Uop) : IssueKeepsLocks e.s (uopFadd e u) := by simp [uopFadd]

@[simp] theorem uopFsub_keepsLocks (e : VeEnv) (u : Uop) : IssueKeepsLocks e.s (uopFsub e u) := by simp [uopFsub]

@[simp] theorem uopFmul_keepsLocks (e : VeEnv) (u : Uop) : IssueKeepsLocks e.s (uopFmul e u) := by simp [uopFmul]

@[simp] theorem uopFfma_keepsLocks (e : VeEnv) (u : Uop) : IssueKeepsLocks e.s (uopFfma e u) := by simp [uopFfma]

@[simp] theorem uopFmnx_keepsLocks (e : VeEnv) (u : Uop) : IssueKeepsLocks e.s (uopFmnx e u) := by simp [uopFmnx]

@[simp] theorem uopFsgn_keepsLocks (e : VeEnv) (u : Uop) : IssueKeepsLocks e.s (uopFsgn e u) := by
  simp only [uopFsgn]; split <;> simp

@[simp] theorem uopFrcp_keepsLocks (e : VeEnv) (u : Uop) : IssueKeepsLocks e.s (uopFrcp e u) := by simp [uopFrcp]

@[simp] theorem uopFrsq_keepsLocks (e : VeEnv) (u : Uop) : IssueKeepsLocks e.s (uopFrsq e u) := by simp [uopFrsq]

@[simp] theorem uopFsqt_keepsLocks (e : VeEnv) (u : Uop) : IssueKeepsLocks e.s (uopFsqt e u) := by simp [uopFsqt]

@[simp] theorem uopFdiv_keepsLocks (e : VeEnv) (u : Uop) : IssueKeepsLocks e.s (uopFdiv e u) := by simp [uopFdiv]

@[simp] theorem uopFexp_keepsLocks (e : VeEnv) (u : Uop) : IssueKeepsLocks e.s (uopFexp e u) := by simp [uopFexp]

@[simp] theorem uopFlog_keepsLocks (e : VeEnv) (u : Uop) : IssueKeepsLocks e.s (uopFlog e u) := by simp [uopFlog]

@[simp] theorem uopFsig_keepsLocks (e : VeEnv) (u : Uop) : IssueKeepsLocks e.s (uopFsig e u) := by simp [uopFsig]

@[simp] theorem uopCvt_keepsLocks (e : VeEnv) (u : Uop) : IssueKeepsLocks e.s (uopCvt e u) := by
  simp only [uopCvt]; split <;> simp

@[simp] theorem uopIadd_keepsLocks (e : VeEnv) (u : Uop) : IssueKeepsLocks e.s (uopIadd e u) := by simp [uopIadd]

@[simp] theorem uopIsub_keepsLocks (e : VeEnv) (u : Uop) : IssueKeepsLocks e.s (uopIsub e u) := by simp [uopIsub]

@[simp] theorem uopImul_keepsLocks (e : VeEnv) (u : Uop) : IssueKeepsLocks e.s (uopImul e u) := by simp [uopImul]

@[simp] theorem uopIlog_keepsLocks (e : VeEnv) (u : Uop) : IssueKeepsLocks e.s (uopIlog e u) := by simp [uopIlog]

@[simp] theorem uopIshf_keepsLocks (e : VeEnv) (u : Uop) : IssueKeepsLocks e.s (uopIshf e u) := by simp [uopIshf]

@[simp] theorem uopImnx_keepsLocks (e : VeEnv) (u : Uop) : IssueKeepsLocks e.s (uopImnx e u) := by simp [uopImnx]

@[simp] theorem uopFcmp_keepsLocks (e : VeEnv) (u : Uop) : IssueKeepsLocks e.s (uopFcmp e u) := by simp [uopFcmp]

@[simp] theorem uopIcmp_keepsLocks (e : VeEnv) (u : Uop) : IssueKeepsLocks e.s (uopIcmp e u) := by simp [uopIcmp]

@[simp] theorem uopSel_keepsLocks (e : VeEnv) (u : Uop) : IssueKeepsLocks e.s (uopSel e u) := by simp [uopSel]

@[simp] theorem uopKop_keepsLocks (e : VeEnv) (u : Uop) : IssueKeepsLocks e.s (uopKop e u) := by simp [uopKop]

@[simp] theorem uopShf_keepsLocks (e : VeEnv) (u : Uop) : IssueKeepsLocks e.s (uopShf e u) := by simp [uopShf]

@[simp] theorem uopRup_keepsLocks (e : VeEnv) (u : Uop) : IssueKeepsLocks e.s (uopRup e u) := by
  simp only [uopRup]; split
  · simp
  · apply ruRows_keepsLocks <;> rfl

@[simp] theorem uopRug_keepsLocks (e : VeEnv) (u : Uop) : IssueKeepsLocks e.s (uopRug e u) := by
  simp only [uopRug]; (repeat' split) <;> simp

@[simp] theorem uopSmn_keepsLocks (e : VeEnv) (u : Uop) : IssueKeepsLocks e.s (uopSmn e u) := by
  simp [uopSmn, apply_ite lockFields]

@[simp] theorem uopSmb_keepsLocks (e : VeEnv) (u : Uop) : IssueKeepsLocks e.s (uopSmb e u) := by simp [uopSmb]

@[simp] theorem uopNrm_keepsLocks (e : VeEnv) (u : Uop) : IssueKeepsLocks e.s (uopNrm e u) := by simp [uopNrm]

@[simp] theorem uopRng_keepsLocks (e : VeEnv) (u : Uop) : IssueKeepsLocks e.s (uopRng e u) := by simp [uopRng]

theorem uopIssue_keepsLocks (e : VeEnv) (u : Uop) : IssueKeepsLocks e.s (uopIssue e u) := by
  simp only [uopIssue]; split <;> simp

@[simp] theorem veEnd_lockFields (e : VeEnv) : lockFields (veEnd e).s = lockFields e.s := by
  simp only [veEnd]; split
  · split
    · next r _ =>
      have rows := ruRows_keepsLocks (s := e.s) (before := { e with c := { e.c with ru := { e.c.ru with open_ := none } } })
        (e := { e with c := { e.c with ru := { e.c.ru with open_ := none } } }) rfl rfl (envMask e)
        [ruResult e.c.ru.op r (envEps e)]
      split <;> simp_all
    · simp
  · simp

@[simp] theorem veLoop_lockFields (fuel : Nat) (e : VeEnv) : lockFields (veLoop fuel e).s = lockFields e.s := by
  induction fuel generalizing e with
  | zero => rfl
  | succ fuel ih =>
    have issued := uopIssue_keepsLocks e (uopOf (e.v.prog.getD e.v.pc 0))
    simp only [veLoop]; split
    · rfl
    · split <;> simp_all [apply_ite VeEnv.s, apply_ite lockFields]

@[simp] theorem veGo_lockFields (s : State) (n : Nat) : lockFields (veGo s n) = lockFields s := by
  simp only [veGo]; split
  · rfl
  · next e h => split <;> simp [veEnv_s h]

@[simp] theorem execVeRun_keepsLocks (core : CoreId) (s : State) : KeepsLocks s (execVeRun core s) := by
  simp only [execVeRun]; (repeat' split) <;> simp

@[simp] theorem veRecheck_lockFields (s : State) (n : Nat) : lockFields (veRecheck s n) = lockFields s := by
  simp only [veRecheck]; split <;> simp

@[simp] theorem execLpaMatmul_keepsLocks (core : CoreId) (s : State) : KeepsLocks s (execLpaMatmul core s) := by
  simp [execLpaMatmul]

@[simp] theorem execCoResidentGroup_keepsLocks (core : CoreId) (s : State) : KeepsLocks s (execCoResidentGroup core s) := by
  simp [execCoResidentGroup]

@[simp] theorem execPqStall_keepsLocks (core : CoreId) (s : State) : KeepsLocks s (execPqStall core s) := by
  simp [execPqStall]

@[simp] theorem execPlateVisible_keepsLocks (core : CoreId) (s : State) : KeepsLocks s (execPlateVisible core s) := by
  simp only [execPlateVisible]; (repeat' split) <;> simp

@[simp] theorem issueCmd_keepsLocks {f : VeEnv → Uop → Issue} (hf : ∀ e u, IssueKeepsLocks e.s (f e u)) (core : CoreId)
    (op : Nat) (d a b mod : BitVec 6) (s : State) : KeepsLocks s (issueCmd core op d a b mod f s) := by
  simp only [issueCmd]; split
  · simp
  · next e h =>
    have issued := hf e { op, d := d.toNat, a := a.toNat, b := b.toNat, sel := mod.toNat % 8, var := mod.toNat / 8 }
    rw [veEnv_s h] at issued
    refine keepsLocks_ite _ (by simp) ?_
    split <;> simp_all [veEnv_s h]

/-! ### Batched small solves (chapter 07) -/

@[simp] theorem solveStep_lockFields (n : Nat) (p : SolveParm) (s : State) (v : VeRun) (i : Nat) :
    lockFields (solveStep n p s v i).1 = lockFields s := by
  simp [solveStep]

@[simp] theorem execVeSolve_keepsLocks (core : CoreId) (s : State) : KeepsLocks s (execVeSolve core s) := by
  simp only [execVeSolve]; (repeat' split) <;> simp

/-! ### Op lists (chapter 11) -/

@[simp] theorem rejectIo_lockFields (s : State) (id p : Nat) (o : NextOp) (st : Status) :
    lockFields (rejectIo s id p o st) = lockFields s :=
  lockFields_of_keeps (rejectIo_keeps s id p o st) rfl

@[simp] theorem startIo_lockFields (s : State) (id p : Nat) (o : NextOp) : lockFields (startIo s id p o) = lockFields s :=
  lockFields_of_keeps (startIo_keeps s id p o) rfl

@[simp] theorem endIo_lockFields (s : State) (id p i : Nat) (st : Status) : lockFields (endIo s id p i st) = lockFields s :=
  lockFields_of_keeps (endIo_keeps s id p i st) rfl

@[simp] theorem completeIo_lockFields (s : State) (id p i : Nat) : lockFields (completeIo s id p i) = lockFields s :=
  lockFields_of_keeps (completeIo_keeps s id p i) rfl

@[simp] theorem rejectAt_lockFields (loc : OpLoc) (s : State) (o : NextOp) (st : Status) :
    lockFields (rejectAt loc s o st) = lockFields s :=
  lockFields_of_keeps (rejectAt_keeps loc s o st) rfl

@[simp] theorem plainOp_lockFields (loc : OpLoc) (s : State) (o : NextOp) : lockFields (plainOp loc s o) = lockFields s := by
  simp [plainOp]

@[simp] theorem execOpNop_keepsLocks (loc : OpLoc) (s : State) : KeepsLocks s (execOpNop loc s) := by
  simp only [execOpNop]; (repeat' split) <;> simp

@[simp] theorem execWait_keepsLocks (loc : OpLoc) (s : State) : KeepsLocks s (execWait loc s) := by
  simp only [execWait]; (repeat' split) <;> simp

@[simp] theorem completeDma_lockFields (s : State) (n : Nat) : lockFields (completeDma s n) = lockFields s := by
  simp only [completeDma]; (repeat' split) <;> simp

@[simp] theorem completeCcm_lockFields (s : State) (n : Nat) : lockFields (completeCcm s n) = lockFields s := by
  simp only [completeCcm]; (repeat' split) <;> simp

/-! ### The Context Cache Manager (chapter 10) -/

@[simp] theorem putFreeBit_lockFields (s : State) (tier f : Nat) (free : Bool) :
    lockFields (putFreeBit s tier f free) = lockFields s := by
  simp [putFreeBit]

@[simp] theorem setUsed_lockFields (s : State) (tier f : Nat) (used : Bool) :
    lockFields (setUsed s tier f used) = lockFields s := by
  simp [setUsed]

@[simp] theorem claimFrame_lockFields (s : State) (tier f seq page : Nat) :
    lockFields (claimFrame s tier f seq page) = lockFields s := by
  simp [claimFrame]

@[simp] theorem addHeld_lockFields (s : State) (seq : Nat) (up : Bool) : lockFields (addHeld s seq up) = lockFields s := by
  simp [addHeld]

@[simp] theorem putPage_lockFields (s : State) (a : Nat) (e : PageEntry) : lockFields (putPage s a e) = lockFields s := by
  simp [putPage]

@[simp] theorem hostFault_lockFields (s : State) : lockFields (hostFault s) = lockFields s := by
  simp only [hostFault]; split <;> simp

@[simp] theorem hostFine_lockFields (s : State) : lockFields (hostFine s) = lockFields s := by simp [hostFine]

@[simp] theorem startMove_lockFields (s : State) (promote : Bool) (a seq page target : Nat) (forOp : Option Nat) :
    lockFields (startMove s promote a seq page target forOp).1 = lockFields s := by
  simp only [startMove]; (repeat' split) <;> simp

@[simp] theorem promoteSkip_lockFields (s : State) : lockFields (promoteSkip s) = lockFields s := by simp [promoteSkip]

@[simp] theorem promotePage_lockFields (s : State) (seq page : Nat) (forOp : Option Nat) :
    lockFields (promotePage s seq page forOp) = lockFields s := by
  simp [promotePage, apply_ite lockFields]

@[simp] theorem endMove_lockFields (s : State) (mv : CcmMoveRun) : lockFields (endMove s mv) = lockFields s := by
  simp only [endMove]; (repeat' split) <;> simp

@[simp] theorem abandonMove_lockFields (s : State) (mv : CcmMoveRun) : lockFields (abandonMove s mv) = lockFields s := by
  simp only [abandonMove]; split <;> simp

@[simp] theorem ccmView_lockFields (s : State) (host : List HostLine) (tier f : Nat) :
    lockFields (ccmView s host tier f).s = lockFields s := by
  simp [ccmView]

@[simp] theorem execCcmMove_keepsLocks (id : Nat) (host : List HostLine) (s : State) :
    KeepsLocks s (execCcmMove id host s) := by
  simp only [execCcmMove]; (repeat' split) <;> simp

@[simp] theorem setHand_lockFields (s : State) (tier h : Nat) : lockFields (setHand s tier h) = lockFields s := by
  simp only [setHand]; split <;> simp

@[simp] theorem handStep_lockFields (s : State) (tier : Nat) : lockFields (handStep s tier) = lockFields s := by
  simp [handStep, apply_ite lockFields]

@[simp] theorem sweep_lockFields (tier want k : Nat) (s : State) : lockFields (sweep tier want k s) = lockFields s := by
  induction k generalizing s with
  | zero => rfl
  | succ k ih => simp only [sweep]; split <;> simp [ih]

@[simp] theorem setSweep_lockFields (s : State) (tier : Nat) (b : Bool) : lockFields (setSweep s tier b) = lockFields s := by
  simp only [setSweep]; split <;> simp

@[simp] theorem execDemotionSweep_keepsLocks (pool : BitVec 2) (s : State) : KeepsLocks s (execDemotionSweep pool s) := by
  simp only [execDemotionSweep]; (repeat' split) <;> simp

@[simp] theorem ccmRun_lockFields (s : State) (n : Nat) (o : NextOp) (st : Status) (finished : Bool) :
    lockFields (ccmRun s n o st finished) = lockFields s := by
  simp [ccmRun]

@[simp] theorem appendRows_lockFields (s : State) (n : Nat) (p : CcmParm) (tier f : Nat) :
    lockFields (appendRows s n p tier f).1 = lockFields s := by
  simp [appendRows]

@[simp] theorem appendTo_lockFields (s : State) (n : Nat) (o : NextOp) (a tier f : Nat) (e : PageEntry) :
    lockFields (appendTo s n o a tier f e) = lockFields s := by
  simp only [appendTo]; (repeat' split) <;> simp

@[simp] theorem execAppend_keepsLocks (core : CoreId) (s : State) : KeepsLocks s (execAppend core s) := by
  simp only [execAppend]; (repeat' split) <;> simp

@[simp] theorem fetchRow_lockFields (s0 : State) (m : Mem) (n : Nat) (p : CcmParm) (tier f fill : Nat) (poison : Bool)
    (j r : Nat) (s : State) : lockFields (fetchRow s0 m n p tier f fill poison j r s) = lockFields s := by
  simp [fetchRow, apply_ite lockFields]

@[simp] theorem fetchPage_lockFields (s0 : State) (n : Nat) (p : CcmParm) (host : List HostLine) (x : State × Bool) (j : Nat) :
    lockFields (fetchPage s0 n p host x j).1 = lockFields x.1 := by
  simp only [fetchPage]; split
  · simp
  · split
    · simp
    · simp [apply_ite lockFields]

@[simp] theorem execFetch_keepsLocks (core : CoreId) (host : List HostLine) (s : State) :
    KeepsLocks s (execFetch core host s) := by
  simp only [execFetch]; (repeat' split) <;> simp

@[simp] theorem execPromote_keepsLocks (core : CoreId) (s : State) : KeepsLocks s (execPromote core s) := by
  simp only [execPromote]; (repeat' split) <;> simp

@[simp] theorem truncPage_lockFields (seq : Nat) (s : State) (i : Nat) : lockFields (truncPage seq s i) = lockFields s := by
  simp only [truncPage]; split <;> simp

@[simp] theorem execTruncate_keepsLocks (core : CoreId) (s : State) : KeepsLocks s (execTruncate core s) := by
  simp only [execTruncate]; (repeat' split) <;> simp

@[simp] theorem ccmStop_lockFields (s : State) : lockFields (ccmStop s) = lockFields s := by simp [ccmStop]

@[simp] theorem writeSeqBase_lockFields (s : State) (value : Nat) : lockFields (writeSeqBase s value) = lockFields s := by
  simp [writeSeqBase, apply_ite lockFields]

@[simp] theorem execCcmEnable_keepsLocks (port : HPort) (value : BitVec 64) (s : State) :
    KeepsLocks s (execCcmEnable port value s) := by
  simp [execCcmEnable]

@[simp] theorem execCcmReady_keepsLocks (s : State) : KeepsLocks s (execCcmReady s) := by
  simp only [execCcmReady]; split <;> simp

/-! ### Slots, bindings and micro-batch records (chapter 08) -/

@[simp] theorem putSlot_lockFields (s : State) (tid : Nat) (e : SlotEntry) : lockFields (putSlot s tid e) = lockFields s := by
  simp [putSlot]

@[simp] theorem unpin_lockFields (s : State) (x : Nat × Nat) : lockFields (unpin s x) = lockFields s := by simp [unpin]

@[simp] theorem setMbState_lockFields (s : State) (mb v : Nat) : lockFields (setMbState s mb v) = lockFields s := by
  simp [setMbState]

@[simp] theorem setMbPins_lockFields (s : State) (mb : Nat) (ps : List (Nat × Nat)) :
    lockFields (setMbPins s mb ps) = lockFields s := by
  simp [setMbPins]

@[simp] theorem releaseAll_lockFields (s : State) (mb : Nat) : lockFields (releaseAll s mb) = lockFields s := by
  simp [releaseAll]

@[simp] theorem excludeMb_lockFields (s : State) (mb : Nat) : lockFields (excludeMb s mb) = lockFields s := by
  simp only [excludeMb]; split <;> simp

@[simp] theorem doneMb_lockFields (s : State) (mb : Nat) (st : Status) : lockFields (doneMb s mb st) = lockFields s := by
  simp only [doneMb]; split <;> simp

@[simp] theorem lateMb_lockFields (s : State) (mb : Nat) (useDefault : Bool) :
    lockFields (lateMb s mb useDefault) = lockFields s := by
  simp [lateMb, apply_ite lockFields]

@[simp] theorem updateBegins_lockFields (s : State) (step : Nat) (useDefault : Bool) :
    lockFields (updateBegins s step useDefault) = lockFields s := by
  simp [updateBegins, apply_ite lockFields]

@[simp] theorem addPin_lockFields (s : State) (x : Nat × Nat) : lockFields (addPin s x) = lockFields s := by simp [addPin]

@[simp] theorem takePins_lockFields (s : State) (r : Resolve) (mb : Option Nat) :
    lockFields (takePins s r mb) = lockFields s := by
  simp only [takePins]; (repeat' split) <;> simp

@[simp] theorem patchBind_lockFields (s : State) (x : Binding × Nat) : lockFields (patchBind s x) = lockFields s := by
  simp only [patchBind]; split <;> simp

@[simp] theorem underPhase_lockFields (ph : PhaseRun) (s : State) : lockFields (underPhase ph s) = lockFields s := by
  simp [underPhase]

@[simp] theorem withTrn_lockFields {f : State → State} (h : ∀ x, lockFields (f x) = lockFields x) (ph : PhaseRun)
    (s : State) : lockFields (withTrn ph f s) = lockFields s := by
  simp [withTrn, h]

@[simp] theorem noteCarried_lockFields (s : State) (m : Nat) : lockFields (noteCarried s m) = lockFields s := by
  simp [noteCarried]

@[simp] theorem endBind_lockFields (mb : Option Nat) (late : Bool) (s : State) (b : Binding) :
    lockFields (endBind mb late s b) = lockFields s := by
  simp only [endBind]; (repeat' split) <;> simp

@[simp] theorem endPhaseBinds_lockFields (ph : PhaseRun) (s : State) : lockFields (endPhaseBinds ph s) = lockFields s := by
  simp [endPhaseBinds]

@[simp] theorem writeSlotBase_lockFields (s : State) (value : Nat) : lockFields (writeSlotBase s value) = lockFields s := by
  have reread : ∀ x : State, lockFields (if bit value 0 then
      let r := read x .dram (slotTab x) 4
      match r.err with
      | some _ => x
      | none => { x with trn := { x.trn with committed := BitVec.ofNat 32 (leNat r.data) } }
    else x) = lockFields x := by
    intro x; dsimp only; (repeat' split) <;> simp
  exact (reread _).trans (lockFields_mk ..)

@[simp] theorem execSlotTableEnable_keepsLocks (port : HPort) (value : BitVec 64) (s : State) :
    KeepsLocks s (execSlotTableEnable port value s) := by
  simp [execSlotTableEnable]

@[simp] theorem doFlip_lockFields (s : State) (v : Nat) : lockFields (doFlip s v).1 = lockFields s := by
  simp only [doFlip]; (repeat' split) <;> simp

/-! ### The Meridian Update Units (chapter 09) -/

@[simp] theorem demandTensor_lockFields (s : State) (r : MuuRec) (base : Nat) :
    lockFields (demandTensor s r base) = lockFields s := by
  simp [demandTensor]

@[simp] theorem putRec_lockFields (s : State) (p : MuuParm) (i off : Nat) (b : Bytes) :
    lockFields (putRec s p i off b) = lockFields s := by
  simp [putRec]

@[simp] theorem markRec_lockFields (s : State) (p : MuuParm) (i : Nat) (st : Status) (flags : Nat) :
    lockFields (markRec s p i st flags) = lockFields s := by
  simp [markRec]

@[simp] theorem tensorFail_lockFields (s : State) (tid step at_ : Nat) (st : Status) :
    lockFields (tensorFail s tid step at_ st) = lockFields s := by
  simp [tensorFail]

@[simp] theorem drawIf_lockFields (b : Bool) (k : Nat) (s : State) : lockFields (drawIf b k s) = lockFields s := by
  simp only [drawIf]; split <;> simp

@[simp] theorem endPass_lockFields (s : State) (r : MuuRun) (st : Status) : lockFields (endPass s r st) = lockFields s := by
  simp [endPass]

@[simp] theorem withPhase_lockFields {f : State → State} (h : ∀ x, lockFields (f x) = lockFields x) (id p : Nat)
    (s : State) : lockFields (withPhase id p f s) = lockFields s := by
  simp only [withPhase]; split <;> simp [h]

@[simp] theorem startPass_lockFields (s : State) (id p : Nat) (o : NextOp) :
    lockFields (startPass s id p o) = lockFields s := by
  simp [startPass]

@[simp] theorem passOneTensor_lockFields (x : State × MuuRun) (i : Nat) :
    lockFields (passOneTensor x i).1 = lockFields x.1 := by
  simp only [passOneTensor]; (repeat' split) <;> simp

@[simp] theorem passOneGo_lockFields (s : State) : lockFields (passOneGo s) = lockFields s := by
  simp only [passOneGo]; (repeat' split) <;> simp

@[simp] theorem execMuuPassOne_keepsLocks (loc : OpLoc) (s : State) : KeepsLocks s (execMuuPassOne loc s) := by
  simp only [execMuuPassOne]; (repeat' split) <;> simp

@[simp] theorem combined_lockFields (s : State) (step : Nat) (c : Status × Nat × Nat) :
    lockFields (combined s step c) = lockFields s := by
  simp [combined]

@[simp] theorem execMuuCombine_keepsLocks (loc : OpLoc) (s : State) : KeepsLocks s (execMuuCombine loc s) := by
  simp only [execMuuCombine]; (repeat' split) <;> simp

@[simp] theorem zeroGrad_lockFields (s : State) (r : MuuRec) : lockFields (zeroGrad s r) = lockFields s := by simp [zeroGrad]

@[simp] theorem gradReset_lockFields (s : State) (r : MuuRec) (step : Nat) :
    lockFields (gradReset s r step) = lockFields s := by
  simp [gradReset]

@[simp] theorem noteOverflow_lockFields (run : MuuRun) (of : Bool) (s : State) :
    lockFields (noteOverflow run of s) = lockFields s := by
  simp only [noteOverflow]; split <;> simp

@[simp] theorem writeRowTwo_lockFields (run : MuuRun) (r : MuuRec) (ab cb row : Nat) (vals : List (Nat × Nat)) (s : State) :
    lockFields (writeRowTwo run r ab cb row vals s) = lockFields s := by
  simp only [writeRowTwo]; split <;> simp

@[simp] theorem updateTensor_lockFields (s : State) (run : MuuRun) (r : MuuRec) :
    lockFields (updateTensor s run r).1 = lockFields s := by
  simp only [updateTensor]; (repeat' split) <;> simp

@[simp] theorem passTwoDone_lockFields (s : State) (run : MuuRun) (i : Nat) (r : MuuRec) (deferred skip : Bool) (st : Option
    (Status × Nat)) :
    lockFields (passTwoDone s run i r deferred skip st).1 = lockFields s := by
  simp only [passTwoDone]; (repeat' split) <;> simp

@[simp] theorem passTwoTensor_lockFields (x : State × MuuRun) (i : Nat) :
    lockFields (passTwoTensor x i).1 = lockFields x.1 := by
  simp only [passTwoTensor]; (repeat' split) <;> simp

@[simp] theorem passTwoGo_lockFields (s : State) : lockFields (passTwoGo s) = lockFields s := by
  simp only [passTwoGo]; (repeat' split) <;> simp

@[simp] theorem execMuuPassTwo_keepsLocks (loc : OpLoc) (s : State) : KeepsLocks s (execMuuPassTwo loc s) := by
  simp only [execMuuPassTwo]; (repeat' split) <;> simp

@[simp] theorem execDeferralRecheck_keepsLocks (s : State) : KeepsLocks s (execDeferralRecheck s) := by
  simp only [execDeferralRecheck]; (repeat' split) <;> simp

@[simp] theorem excludePinning_lockFields (s : State) (run : MuuRun) : lockFields (excludePinning s run) = lockFields s := by
  simp [excludePinning, apply_ite lockFields]

@[simp] theorem execStragglerDeadline_keepsLocks (s : State) : KeepsLocks s (execStragglerDeadline s) := by
  simp only [execStragglerDeadline]; (repeat' split) <;> simp

@[simp] theorem rollEntry_lockFields (recs : List MuuRec) (s : State) (tid : Nat) :
    lockFields (rollEntry recs s tid) = lockFields s := by
  simp only [rollEntry]; (repeat' split) <;> simp

@[simp] theorem doRollback_lockFields (s : State) (v : Nat) : lockFields (doRollback s v).1 = lockFields s := by
  simp only [doRollback]; (repeat' split) <;> simp [apply_ite lockFields]

/-! ### Links and routing of the fabric (chapter 12) -/

@[simp] theorem setFab_lockFields (s : State) (p : Nat) (x : FabPortState) : lockFields (setFab s p x) = lockFields s := by
  simp [setFab]

@[simp] theorem enterPort_lockFields (s : State) (p : Nat) (st : BitVec 3) :
    lockFields (enterPort s p st) = lockFields s := by
  simp [enterPort]

@[simp] theorem sendIdle_lockFields (s : State) (p : Nat) : lockFields (sendIdle s p) = lockFields s := by
  simp only [sendIdle]; split <;> simp

@[simp] theorem noteTag_lockFields (s : State) (fi t : Nat) : lockFields (noteTag s fi t) = lockFields s := by simp [noteTag]

@[simp] theorem takeTag_lockFields (s : State) (fi t part limitNs : Nat) (o : FabOwner) :
    lockFields (takeTag s fi t part limitNs o) = lockFields s := by
  simp [takeTag]

@[simp] theorem dropFabric_lockFields (s : State) (mine : FabOwner → Bool) :
    lockFields (dropFabric s mine) = lockFields s := by
  simp [dropFabric]

@[simp] theorem freeSource_lockFields (s : State) (src : Option (Nat × Nat × Nat)) :
    lockFields (freeSource s src) = lockFields s := by
  simp only [freeSource]; split <;> simp

@[simp] theorem putOnLink_lockFields (s : State) (p : Nat) (o : OutPkt) (bytes : Bytes) :
    lockFields (putOnLink s p o bytes) = lockFields s := by
  simp [putOnLink]

theorem trySend_lockFields {s t : State} {p : Nat} {o : OutPkt} (h : trySend s p o = some t) : lockFields t = lockFields s := by
  revert h
  simp only [trySend]; (repeat' split) <;> simp <;> rintro rfl <;> simp

@[simp] theorem drainList_lockFields (p : Nat) (l : List OutPkt) (blocked : List Nat) (s : State) (kept : List OutPkt) :
    lockFields (drainList p l blocked s kept).1 = lockFields s := by
  induction l generalizing blocked s kept with
  | nil => rfl
  | cons o os ih =>
    simp only [drainList]; split
    · exact ih ..
    · split
      · next h => rw [ih, trySend_lockFields h]
      · exact ih ..

@[simp] theorem drainPort_lockFields (s : State) (p : Nat) : lockFields (drainPort s p) = lockFields s := by
  simp only [drainPort]; split <;> simp

@[simp] theorem sendOut_lockFields (s : State) (p : Nat) (o : OutPkt) : lockFields (sendOut s p o) = lockFields s := by
  simp [sendOut]

@[simp] theorem countNoRoute_lockFields (s : State) : lockFields (countNoRoute s) = lockFields s := by simp [countNoRoute]

@[simp] theorem countRouteErr_lockFields (s : State) : lockFields (countRouteErr s) = lockFields s := by simp [countRouteErr]

@[simp] theorem waitAtFi_lockFields (s : State) (l : LoopPkt) : lockFields (waitAtFi s l) = lockFields s := by simp [waitAtFi]

@[simp] theorem losePkt_lockFields {count : State → State} (h : ∀ x, lockFields (count x) = lockFields x) (s : State)
    (l : LoopPkt) : lockFields (losePkt count s l) = lockFields s := by
  simp only [losePkt]; (repeat' split) <;> simp [h]

@[simp] theorem routePkt_lockFields (s : State) (dst cls : Nat) (l : LoopPkt) :
    lockFields (routePkt s dst cls l) = lockFields s := by
  simp only [routePkt]; (repeat' split) <;> simp

@[simp] theorem injectPkt_lockFields (s : State) (fi dst cls : Nat) (bytes : Bytes) (part : Option Nat) (limitNs : Nat)
    (o : Option FabOwner) (src : Option (Nat × Nat × Nat)) :
    lockFields (injectPkt s fi dst cls bytes part limitNs o src) = lockFields s := by
  simp only [injectPkt]; split <;> simp

@[simp] theorem injectPlain_lockFields (s : State) (fi : Nat) (h : PktSpec) (payload : Bytes) (o : Option FabOwner)
    (src : Option (Nat × Nat × Nat)) :
    lockFields (injectPlain s fi h payload o src) = lockFields s := by
  simp [injectPlain]

@[simp] theorem bufferPkt_lockFields (s : State) (p : Nat) (b : Bytes) : lockFields (bufferPkt s p b) = lockFields s := by
  simp [bufferPkt]

@[simp] theorem forwardPkt_lockFields (s : State) (p : Nat) (src : Option (Nat × Nat × Nat)) (b : Bytes) :
    lockFields (forwardPkt s p src b) = lockFields s := by
  simp only [forwardPkt]; (repeat' split) <;> simp

@[simp] theorem flushQueue_lockFields (s : State) (p : Nat) (l : List OutPkt) :
    lockFields (flushQueue s p l) = lockFields s := by
  induction l with
  | nil => simp [flushQueue]
  | cons o os ih => simp [flushQueue, ih]

@[simp] theorem leaveUp_lockFields (s : State) (p : Nat) (st : BitVec 3) : lockFields (leaveUp s p st) = lockFields s := by
  simp [leaveUp]

@[simp] theorem forgetSource_lockFields (s : State) (p : Nat) : lockFields (forgetSource s p) = lockFields s := by
  simp [forgetSource]

@[simp] theorem dropPort_lockFields (s : State) (p : Nat) : lockFields (dropPort s p) = lockFields s := by
  simp only [dropPort]; split <;> simp

@[simp] theorem wakePort_lockFields (s : State) (p : Nat) : lockFields (wakePort s p) = lockFields s := by
  simp only [wakePort]; split <;> simp

@[simp] theorem disablePort_lockFields (s : State) (p : Nat) : lockFields (disablePort s p) = lockFields s := by
  simp [disablePort, apply_ite lockFields]

@[simp] theorem settleParam_lockFields (s : State) (p : Nat) : lockFields (settleParam s p) = lockFields s := by
  simp [settleParam, apply_ite lockFields]

/-! ### Descriptors and ends of collectives (chapter 13) -/

@[simp] theorem markSlots_lockFields (s : State) (first k : Nat) (b : Bool) :
    lockFields (markSlots s first k b) = lockFields s := by
  simp [markSlots]

@[simp] theorem modColl_lockFields (s : State) (id : Nat) (f : Coll → Coll) : lockFields (modColl s id f) = lockFields s := by
  simp [modColl]

@[simp] theorem fiRead_lockFields (s : State) (host : List HostLine) (a n : Nat) :
    lockFields (fiRead s host a n).1 = lockFields s := by
  simp [fiRead]

@[simp] theorem fiWrite_lockFields (s : State) (a : Nat) (bs : Bytes) (poison : Bool) :
    lockFields (fiWrite s a bs poison) = lockFields s := by
  simp [fiWrite]

@[simp] theorem readSeg_lockFields (s : State) (c : Coll) (j : Nat) : lockFields (readSeg s c j).1 = lockFields s := by
  simp only [readSeg]; (repeat' split) <;> simp

@[simp] theorem landLineTo_lockFields (targets : List HostGrant) (a : Nat) (bs : Bytes) (poison : Nat → Bool)
    (x : State × Option Status) (l : Nat) :
    lockFields (landLineTo targets a bs poison x l).1 = lockFields x.1 := by
  simp only [landLineTo]; split <;> simp

@[simp] theorem landSpan_lockFields (targets : List HostGrant) (s : State) (a : Nat) (bs : Bytes) (poison : Nat → Bool) :
    lockFields (landSpan targets s a bs poison).1 = lockFields s := by
  simp [landSpan]

@[simp] theorem landSeg_lockFields (targets : List HostGrant) (s : State) (c : Coll) (j : Nat) (bs : Bytes) (poison : Bool) :
    lockFields (landSeg targets s c j bs poison).1 = lockFields s := by
  simp only [landSeg]; split <;> simp

@[simp] theorem fiPoison_lockFields (s : State) (a n : Nat) : lockFields (fiPoison s a n) = lockFields s := by simp [fiPoison]

@[simp] theorem ownerEnd_lockFields (s : State) (o : OpOwner) (st : Status) :
    lockFields (ownerEnd s o st) = lockFields s := by
  simp only [ownerEnd]; split <;> simp

@[simp] theorem collResult_lockFields (s : State) (c : Coll) (st : Status) (parts : Nat) :
    lockFields (collResult s c st parts) = lockFields s := by
  simp [collResult]

@[simp] theorem closeColl_lockFields (s : State) (c : Coll) (st : Status) (parts : Nat) :
    lockFields (closeColl s c st parts) = lockFields s := by
  simp only [closeColl]; split <;> simp

@[simp] theorem collSend_lockFields (s : State) (c : Coll) (rank kind item addr : Nat) (payload : Bytes) (poison : Bool) :
    lockFields (collSend s c rank kind item addr payload poison) = lockFields s := by
  simp [collSend]

@[simp] theorem poisonDst_lockFields (s : State) (c : Coll) : lockFields (poisonDst s c) = lockFields s := by
  simp only [poisonDst]; split <;> simp

@[simp] theorem stopColl_lockFields (s : State) (id : Nat) : lockFields (stopColl s id) = lockFields s := by simp [stopColl]

@[simp] theorem abortHere_lockFields (s : State) (c : Coll) (st : Status) : lockFields (abortHere s c st) = lockFields s := by
  simp [abortHere]

@[simp] theorem abortedBy_lockFields (s : State) (c : Coll) (st : Status) : lockFields (abortedBy s c st) = lockFields s := by
  simp [abortedBy]

@[simp] theorem abortColl_lockFields (s : State) (id : Nat) (st : Status) :
    lockFields (abortColl s id st) = lockFields s := by
  simp only [abortColl]; (repeat' split) <;> simp [apply_ite lockFields]

@[simp] theorem abortCollsOf_lockFields (s : State) (stream : Nat) (phase : Option Nat) :
    lockFields (abortCollsOf s stream phase) = lockFields s := by
  simp [abortCollsOf]

/-! ### Queues and their records (chapter 11) -/

@[simp] theorem queueError_lockFields (s : State) (n : Nat) : lockFields (queueError s n) = lockFields s :=
  lockFields_of_keeps (queueError_keeps s n) rfl

@[simp] theorem cmdDeny_lockFields (s : State) (write : Bool) (a n : Nat) : lockFields (cmdDeny s write a n) = lockFields s :=
  lockFields_of_keeps (cmdDeny_keeps s write a n) rfl

@[simp] theorem cmdWrite_lockFields (s : State) (a : Nat) (bs : Bytes) : lockFields (cmdWrite s a bs).1 = lockFields s := by
  simp only [cmdWrite]; split
  · split
    · dsimp only
      rw [foldl_lockFields]
      intro x l; (repeat' split) <;> simp
    · simp
  · simp

@[simp] theorem putRecord_lockFields (s : State) (n : Nat) (r : Record) : lockFields (putRecord s n r) = lockFields s := by
  simp only [putRecord]; (repeat' split) <;> simp

@[simp] theorem postRecord_lockFields (s : State) (n : Nat) (r : Record) : lockFields (postRecord s n r) = lockFields s := by
  simp [postRecord, apply_ite lockFields]

@[simp] theorem flushHeld_lockFields (k : Nat) (s : State) (n : Nat) : lockFields (flushHeld k s n) = lockFields s := by
  induction k generalizing s with
  | zero => rfl
  | succ k ih => simp only [flushHeld]; (repeat' split) <;> simp [ih]

@[simp] theorem flushQueueHeld_lockFields (s : State) (n : Nat) : lockFields (flushQueueHeld s n) = lockFields s := by
  simp [flushQueueHeld]

@[simp] theorem noteServed_lockFields (s : State) (n : Nat) : lockFields (noteServed s n) = lockFields s :=
  lockFields_of_keeps (noteServed_keeps s n) rfl

@[simp] theorem completeFull_lockFields (s : State) (n : Nat) (f : Fetched) (st : Status) (split late : Bool)
    (parts : BitVec 16) (effect : Bool) :
    lockFields (completeFull s n f st split late parts effect) = lockFields s := by
  simp only [completeFull]; split <;> simp

@[simp] theorem completeDesc_lockFields (s : State) (n : Nat) (f : Fetched) (st : Status) :
    lockFields (completeDesc s n f st) = lockFields s := by
  simp [completeDesc]

@[simp] theorem refuseDesc_lockFields (s : State) (n : Nat) (f : Fetched) (st : Status) :
    lockFields (refuseDesc s n f st) = lockFields s := by
  simp [refuseDesc]

@[simp] theorem verifyDesc_lockFields (s : State) (n : Nat) (d : Bytes) : lockFields (verifyDesc s n d).1 = lockFields s :=
  lockFields_of_keeps (verifyDesc_keeps s n d) rfl

@[simp] theorem takePeer_lockFields (s : State) (n : Nat) (desc : Bool) :
    lockFields (takePeer s n desc).1 = lockFields s := by
  simp [takePeer]

@[simp] theorem askPeer_lockFields (s : State) (n : Nat) (desc : Bool) (a len : Nat) :
    lockFields (askPeer s n desc a len) = lockFields s := by
  simp [askPeer]

@[simp] theorem forgetPeer_lockFields (s : State) (n : Nat) : lockFields (forgetPeer s n) = lockFields s := by
  simp [forgetPeer]

@[simp] theorem readDoorbell_lockFields (s : State) (n : Nat) : lockFields (readDoorbell s n) = lockFields s := by
  simp [readDoorbell, apply_ite lockFields]

@[simp] theorem wakeIfAsleep_lockFields (s : State) : lockFields (wakeIfAsleep s) = lockFields s := by
  simp only [wakeIfAsleep]; split <;> simp

@[simp] theorem wakeWrite_lockFields (p : HPort) (value : BitVec 32) (s : State) :
    lockFields (wakeWrite p value s) = lockFields s := by
  simp [wakeWrite, apply_ite lockFields]

@[simp] theorem execCmdWake_keepsLocks (port : HPort) (value : BitVec 32) (s : State) :
    KeepsLocks s (execCmdWake port value s) := by
  simp only [execCmdWake]; split <;> simp

@[simp] theorem execDoorbellPoll_keepsLocks (s : State) : KeepsLocks s (execDoorbellPoll s) := by
  simp only [execDoorbellPoll]; split <;> simp

@[simp] theorem askDescs_lockFields (s : State) (n : Nat) : lockFields (askDescs s n) = lockFields s := by
  simp only [askDescs]; split <;> simp

@[simp] theorem doorbellWord_lockFields (s : State) (n : Nat) (w : BitVec 64) :
    lockFields (doorbellWord s n w) = lockFields s := by
  simp [doorbellWord, apply_ite lockFields]

@[simp] theorem execDoorbellRead_keepsLocks (queue : QueueId) (word : Option (BitVec 64)) (s : State) :
    KeepsLocks s (execDoorbellRead queue word s) := by
  simp only [execDoorbellRead]; (repeat' split) <;> simp

@[simp] theorem refuseFetched_lockFields (s : State) (n : Nat) (f : Fetched) (st : Status) :
    lockFields (refuseFetched s n f st) = lockFields s := by
  simp [refuseFetched]

@[simp] theorem takeDesc_lockFields (n : Nat) (s : State) (rd : Except Status Bytes) :
    lockFields (takeDesc n s rd) = lockFields s := by
  simp only [takeDesc]; (repeat' split) <;> simp

@[simp] theorem execDescriptorFetch_keepsLocks (queue : QueueId) (descs : List (Option Bytes)) (s : State) :
    KeepsLocks s (execDescriptorFetch queue descs s) := by
  simp only [execDescriptorFetch]; (repeat' split) <;> simp

@[simp] theorem markStarted_lockFields (s : State) (n : Nat) (f : Fetched) :
    lockFields (markStarted s n f) = lockFields s := by
  simp [markStarted]

@[simp] theorem execNop_keepsLocks (queue : QueueId) (s : State) : KeepsLocks s (execNop queue s) := by
  simp only [execNop]; split <;> simp

@[simp] theorem enableQueue_lockFields (s : State) (n : Nat) : lockFields (enableQueue s n) = lockFields s := by
  simp [enableQueue]

@[simp] theorem stopReads_lockFields (s : State) (n : Nat) : lockFields (stopReads s n) = lockFields s := by simp [stopReads]

@[simp] theorem disableQueue_lockFields (s : State) (n : Nat) : lockFields (disableQueue s n) = lockFields s := by
  simp [disableQueue]

@[simp] theorem writeQueueCtl_lockFields (p : HPort) (n value : Nat) (s : State) :
    lockFields (writeQueueCtl p n value s) = lockFields s := by
  simp [writeQueueCtl, apply_ite lockFields]

@[simp] theorem execQueueClaim_keepsLocks (hport : HPort) (queue : QueueId) (s : State) :
    KeepsLocks s (execQueueClaim hport queue s) := by
  simp [execQueueClaim, apply_ite lockFields]

@[simp] theorem execQueueRelease_keepsLocks (hport : HPort) (queue : QueueId) (s : State) :
    KeepsLocks s (execQueueRelease hport queue s) := by
  simp [execQueueRelease]

@[simp] theorem execQueueEnable_keepsLocks (hport : HPort) (queue : QueueId) (kind : Bool) (msix svc : BitVec 8) (s : State) :
    KeepsLocks s (execQueueEnable hport queue kind msix svc s) := by
  simp [execQueueEnable]

@[simp] theorem execQueueDisable_keepsLocks (hport : HPort) (queue : QueueId) (s : State) :
    KeepsLocks s (execQueueDisable hport queue s) := by
  simp [execQueueDisable]

@[simp] theorem orphanQueues_lockFields (s : State) (p : HPort) : lockFields (orphanQueues s p) = lockFields s := by
  simp [orphanQueues, apply_ite lockFields]

/-! ### Forced ends (chapter 11) -/

@[simp] theorem poisonRows_lockFields (s : State) (a len rows pitch : Nat) :
    lockFields (poisonRows s a len rows pitch) = lockFields s := by
  simp [poisonRows, apply_ite lockFields]

@[simp] theorem poisonMat_lockFields (s : State) (m : Mat) (rows cols : Nat) :
    lockFields (poisonMat s m rows cols) = lockFields s := by
  simp [poisonMat, apply_ite lockFields]

@[simp] theorem poisonVe_lockFields (s : State) (n : Nat) (v : VeRun) : lockFields (poisonVe s n v) = lockFields s := by
  simp [poisonVe, apply_ite lockFields]

@[simp] theorem poisonCoe_lockFields (s : State) (n : Nat) (r : OpRun) : lockFields (poisonCoe s n r) = lockFields s := by
  simp [poisonCoe, apply_ite lockFields]

@[simp] theorem poisonDma_lockFields (s : State) (r : OpRun) : lockFields (poisonDma s r) = lockFields s := by
  simp only [poisonDma]; split <;> simp

@[simp] theorem poisonCcm_lockFields (s : State) (n : Nat) (r : OpRun) : lockFields (poisonCcm s n r) = lockFields s := by
  simp [poisonCcm, apply_ite lockFields]

@[simp] theorem poisonMuu_lockFields (s : State) (run : MuuRun) : lockFields (poisonMuu s run) = lockFields s := by
  simp [poisonMuu, apply_ite lockFields]

@[simp] theorem poisonGet_lockFields (s : State) (d : Bytes) : lockFields (poisonGet s d) = lockFields s := by
  simp only [poisonGet]; split <;> simp

@[simp] theorem endCoreOps_lockFields (s : State) (n : Nat) (mine : Token → Bool) :
    lockFields (endCoreOps s n mine).1 = lockFields s := by
  unfold endCoreOps
  extract_lets c lpa lpaP ve veP coe dma ccm s1 s2 s3 s4 s5 s6 s7 d t
  clear_value lpa lpaP ve veP coe dma ccm
  have h1 : lockFields s1 = lockFields s := by cases lpa <;> simp [s1]
  have h2 : lockFields s2 = lockFields s1 := by cases lpaP <;> simp [s2]
  have h3 : lockFields s3 = lockFields s2 := by cases ve <;> simp [s3]
  have h4 : lockFields s4 = lockFields s3 := by cases veP <;> simp [s4]
  have h5 : lockFields s5 = lockFields s4 := by cases coe <;> simp [s5]
  have h6 : lockFields s6 = lockFields s5 := by cases dma <;> simp [s6]
  have h7 : lockFields s7 = lockFields s6 := by cases ccm <;> simp [s7]
  simp only [t, setCore_lockFields, h7, h6, h5, h4, h3, h2, h1]

@[simp] theorem dropLists_lockFields (s : State) (n : Nat) (mine : Token → Bool) :
    lockFields (dropLists s n mine) = lockFields s := by
  simp [dropLists]

@[simp] theorem dropSamples_lockFields (s : State) (stream : Nat) (phase : Option Nat) :
    lockFields (dropSamples s stream phase) = lockFields s := by
  simp [dropSamples]

@[simp] theorem disarm_lockFields (s : State) (id : Nat) : lockFields (disarm s id) = lockFields s := by simp [disarm]

@[simp] theorem settleStream_lockFields (s : State) (id : Nat) : lockFields (settleStream s id) = lockFields s := by
  simp only [settleStream]; (repeat' split) <;> simp

@[simp] theorem stopStream_lockFields (s : State) (id : Nat) (st : Status) :
    lockFields (stopStream s id st) = lockFields s := by
  simp [stopStream]

@[simp] theorem overStop_lockFields (s : State) (id : Nat) (st : Status) : lockFields (overStop s id st) = lockFields s := by
  simp [overStop]

@[simp] theorem endMb_lockFields (s : State) (r : StreamRun) (p : Nat) (record : Bytes) (st : Status) :
    lockFields (endMb s r p record st) = lockFields s := by
  simp only [endMb]; (repeat' split) <;> simp

@[simp] theorem putPstat_lockFields (s : State) (r : StreamRun) (p : Nat) (st : Status) :
    lockFields (putPstat s r p st) = lockFields s := by
  simp [putPstat]

@[simp] theorem endPhase_lockFields (s : State) (id p : Nat) : lockFields (endPhase s id p) = lockFields s := by
  simp only [endPhase]; split <;> simp

@[simp] theorem dropFired_lockFields (s : State) (id : Nat) (phase : Option Nat) :
    lockFields (dropFired s id phase) = lockFields s := by
  simp [dropFired]

@[simp] theorem forceEnd_lockFields (s : State) (id p : Nat) (st : Status) (hard : Bool) :
    lockFields (forceEnd s id p st hard) = lockFields s := by
  simp only [forceEnd]; (repeat' split) <;> simp

@[simp] theorem fabricStops_lockFields (s : State) (id p : Nat) (d : Bytes) (st : Status) :
    lockFields (fabricStops s id p d st) = lockFields s := by
  simp only [fabricStops]; split <;> simp

@[simp] theorem finishFired_lockFields (s : State) (f : FiredOp) (st : Status) :
    lockFields (finishFired s f st) = lockFields s := by
  simp [finishFired, apply_ite lockFields]

@[simp] theorem settleFired_lockFields (k : Nat) (s : State) : lockFields (settleFired k s) = lockFields s := by
  induction k generalizing s with
  | zero => rfl
  | succ k ih => simp only [settleFired]; split <;> simp [ih]

@[simp] theorem endWindowSet_lockFields (s : State) : lockFields (endWindowSet s) = lockFields s := by
  simp only [endWindowSet]; (repeat' split) <;> simp

@[simp] theorem settleAllFired_lockFields (s : State) : lockFields (settleAllFired s) = lockFields s := by
  simp [settleAllFired]

@[simp] theorem forceStream_lockFields (s : State) (id : Nat) (st : Status) :
    lockFields (forceStream s id st) = lockFields s := by
  simp only [forceStream]; split <;> simp

@[simp] theorem softStop_lockFields (s : State) (id : Nat) (st : Status) : lockFields (softStop s id st) = lockFields s := by
  simp [softStop]

@[simp] theorem clearAvail_lockFields (s : State) (n : Nat) : lockFields (clearAvail s n) = lockFields s := by
  simp [clearAvail]

@[simp] theorem loseCore_lockFields (s : State) (n : Nat) : lockFields (loseCore s n) = lockFields s := by simp [loseCore]

@[simp] theorem markCore_lockFields (s : State) (n : Nat) (st : Status) : lockFields (markCore s n st) = lockFields s := by
  simp only [markCore]; split <;> simp

@[simp] theorem markCluster_lockFields (s : State) (c : Nat) (st : Status) :
    lockFields (markCluster s c st) = lockFields s := by
  simp [markCluster, apply_ite lockFields]

@[simp] theorem execCoreNoProgress_keepsLocks (core : CoreId) (s : State) : KeepsLocks s (execCoreNoProgress core s) := by
  simp only [execCoreNoProgress]; split <;> simp

@[simp] theorem dropAwait_lockFields (s : State) (o : FabOwner) : lockFields (dropAwait s o) = lockFields s := by
  simp [dropAwait]

@[simp] theorem completeIoOp_lockFields (s : State) (id p i : Nat) : lockFields (completeIoOp s id p i) = lockFields s := by
  simp only [completeIoOp]; (repeat' split) <;> simp

@[simp] theorem execOpComplete_keepsLocks (loc : OpLoc) (unit : OpUnit) (s : State) :
    KeepsLocks s (execOpComplete loc unit s) := by
  simp only [execOpComplete]; split <;> simp

/-! ### Streams and phases (chapter 11) -/

@[simp] theorem zeroCounters_lockFields (s : State) (d : Bytes) : lockFields (zeroCounters s d) = lockFields s := by
  simp [zeroCounters]

@[simp] theorem admitStream_lockFields (s : State) (q : Nat) (f : Fetched) (p : StreamPlan) :
    lockFields (admitStream s q f p) = lockFields s := by
  simp [admitStream]

@[simp] theorem execRunStream_keepsLocks (queue : QueueId) (s : State) : KeepsLocks s (execRunStream queue s) := by
  simp only [execRunStream]; (repeat' split) <;> simp

@[simp] theorem execStreamAdmit_keepsLocks (queue : QueueId) (index : BitVec 32) (s : State) :
    KeepsLocks s (execStreamAdmit queue index s) := by
  simp only [execStreamAdmit]; (repeat' split) <;> simp

@[simp] theorem execStreamAbort_keepsLocks (queue : QueueId) (s : State) : KeepsLocks s (execStreamAbort queue s) := by
  simp only [execStreamAbort]; (repeat' split) <;> simp

@[simp] theorem skipPhase_lockFields (s : State) (id : Nat) (r : StreamRun) (st : Status) :
    lockFields (skipPhase s id r st) = lockFields s := by
  simp only [skipPhase]; split <;> simp

@[simp] theorem copyList_lockFields (s : State) (e : ListEntry) : lockFields (copyList s e) = lockFields s := by
  simp only [copyList]; split <;> simp

@[simp] theorem sendToken_lockFields (svc : Bool) (t : Token) (s : State) (e : ListEntry) :
    lockFields (sendToken svc t s e) = lockFields s := by
  simp [sendToken]

@[simp] theorem launchPhase_lockFields (s : State) (id : Nat) (r : StreamRun) (p : Nat) (pl : PhasePlan) :
    lockFields (launchPhase s id r p pl) = lockFields s := by
  simp [launchPhase]

@[simp] theorem execPhaseStart_keepsLocks (stream : StreamId) (s : State) : KeepsLocks s (execPhaseStart stream s) := by
  simp only [execPhaseStart]; (repeat' split) <;> simp

@[simp] theorem triggerEvent_lockFields (s : State) (p : PhaseRun) (action : Nat) :
    lockFields (triggerEvent s p action) = lockFields s := by
  simp [triggerEvent]

@[simp] theorem rerunPhase_lockFields (s : State) (id : Nat) (r : StreamRun) (ph : PhaseRun) (entry : Bytes) (rung : Nat)
    (es : List ListEntry) :
    lockFields (rerunPhase s id r ph entry rung es) = lockFields s := by
  simp [rerunPhase]

@[simp] theorem afterTrigger_lockFields (s : State) (id : Nat) (r : StreamRun) (ph : PhaseRun) :
    lockFields (afterTrigger s id r ph) = lockFields s := by
  simp only [afterTrigger]; (repeat' split) <;> simp

@[simp] theorem execPhaseComplete_keepsLocks (stream : StreamId) (phase : PhaseNo) (s : State) :
    KeepsLocks s (execPhaseComplete stream phase s) := by
  simp only [execPhaseComplete]; (repeat' split) <;> simp

@[simp] theorem execPhaseWatchdog_keepsLocks (stream : StreamId) (phase : PhaseNo) (s : State) :
    KeepsLocks s (execPhaseWatchdog stream phase s) := by
  simp only [execPhaseWatchdog]; (repeat' split) <;> simp

/-! ### The collective engine (chapter 13) -/

@[simp] theorem staleColl_lockFields (s : State) : lockFields (staleColl s) = lockFields s := by simp [staleColl]

@[simp] theorem sealSeg_lockFields (s : State) (id key : Nat) (flow : Nat → Bool) (j : Nat) (bs : Bytes) :
    lockFields (sealSeg s id key flow j bs).1 = lockFields s := by
  simp only [sealSeg]; (repeat' split) <;> simp

@[simp] theorem openSeg_lockFields (s : State) (id key : Nat) (flow : Nat → Bool) (j : Nat) (payload : Bytes) :
    lockFields (openSeg s id key flow j payload).1 = lockFields s := by
  simp only [openSeg]; (repeat' split) <;> simp

@[simp] theorem hear_lockFields (s : State) (id key : Nat) : lockFields (hear s id key) = lockFields s := by simp [hear]

@[simp] theorem failChunk_lockFields (s : State) (id : Nat) (flow : Nat → Bool) (q : Nat) :
    lockFields (failChunk s id flow q) = lockFields s := by
  simp only [failChunk]; (repeat' split) <;> simp

@[simp] theorem landResult_lockFields (s : State) (id src : Nat) (flow : Nat → Bool) (j : Nat) (payload : Bytes)
    (poison : Bool) (targets : List HostGrant) :
    lockFields (landResult s id src flow j payload poison targets) = lockFields s := by
  simp only [landResult]; (repeat' split) <;> simp

@[simp] theorem sendDown_lockFields (s : State) (id j : Nat) (payload : Bytes) (poison : Bool) :
    lockFields (sendDown s id j payload poison) = lockFields s := by
  simp only [sendDown]; split <;> simp

@[simp] theorem sendUp_lockFields (s : State) (id j : Nat) (bs : Bytes) (poison : Bool) :
    lockFields (sendUp s id j bs poison) = lockFields s := by
  simp only [sendUp]; split <;> simp

@[simp] theorem pumpLeaf_lockFields (k : Nat) (s : State) (id : Nat) : lockFields (pumpLeaf k s id) = lockFields s := by
  induction k generalizing s with
  | zero => rfl
  | succ k ih => simp only [pumpLeaf]; (repeat' split) <;> simp [ih]

@[simp] theorem pump_lockFields (s : State) (id : Nat) : lockFields (pump s id) = lockFields s := by
  simp only [pump]; (repeat' split) <;> simp

@[simp] theorem combineInputs_lockFields (s : State) (c : Coll) (j : Nat) :
    lockFields (combineInputs s c j).1 = lockFields s := by
  simp only [combineInputs]; (repeat' split) <;> simp

@[simp] theorem rootOut_lockFields (s : State) (id j : Nat) (bs : Bytes) (poison : Bool) :
    lockFields (rootOut s id j bs poison) = lockFields s := by
  simp only [rootOut]; (repeat' split) <;> simp

@[simp] theorem combineSeg_lockFields (s : State) (id j : Nat) : lockFields (combineSeg s id j) = lockFields s := by
  simp only [combineSeg]; (repeat' split) <;> simp

@[simp] theorem epFinish_lockFields (s : State) (id j : Nat) : lockFields (epFinish s id j) = lockFields s := by
  simp only [epFinish]; (repeat' split) <;> simp

@[simp] theorem epArrive_lockFields (s : State) (id src j : Nat) (payload : Bytes) (poison : Bool) :
    lockFields (epArrive s id src j payload poison) = lockFields s := by
  simp only [epArrive]; (repeat' split) <;> simp

@[simp] theorem epSend_lockFields (id : Nat) (s : State) (j : Nat) : lockFields (epSend id s j) = lockFields s := by
  simp only [epSend]; (repeat' split) <;> simp

@[simp] theorem epStart_lockFields (s : State) (id : Nat) : lockFields (epStart s id) = lockFields s := by
  simp only [epStart]; (repeat' split) <;> simp

@[simp] theorem pumpDown_lockFields (k : Nat) (s : State) (id : Nat) : lockFields (pumpDown k s id) = lockFields s := by
  induction k generalizing s with
  | zero => rfl
  | succ k ih => simp only [pumpDown]; (repeat' split) <;> simp [ih]

@[simp] theorem gatherStart_lockFields (s : State) (id : Nat) : lockFields (gatherStart s id) = lockFields s := by
  simp only [gatherStart]; (repeat' split) <;> simp

@[simp] theorem broadcastStart_lockFields (s : State) (id : Nat) : lockFields (broadcastStart s id) = lockFields s := by
  simp only [broadcastStart]; (repeat' split) <;> simp

@[simp] theorem failWindow_lockFields (s : State) (id src lo n : Nat) :
    lockFields (failWindow s id src lo n) = lockFields s := by
  simp only [failWindow]; split <;> simp

@[simp] theorem skipChunks_lockFields (s : State) (id src q : Nat) : lockFields (skipChunks s id src q) = lockFields s := by
  simp only [skipChunks]; (repeat' split) <;> simp

@[simp] theorem checkWindow_lockFields (s : State) (id src q n : Nat) (crc : Bytes) :
    lockFields (checkWindow s id src q n crc) = lockFields s := by
  simp only [checkWindow]; (repeat' split) <;> simp

@[simp] theorem a2aLand_lockFields (s : State) (id src addr : Nat) (bs : Bytes) (mask : Nat) (targets : List HostGrant) :
    lockFields (a2aLand s id src addr bs mask targets) = lockFields s := by
  simp only [a2aLand]; (repeat' split) <;> simp

@[simp] theorem a2aCounted_lockFields (s : State) (id src : Nat) (payload : Bytes) (targets : List HostGrant) :
    lockFields (a2aCounted s id src payload targets) = lockFields s := by
  simp only [a2aCounted]; (repeat' split) <;> simp

@[simp] theorem a2aSend_lockFields (id : Nat) (counts : List Nat) (s : State) (d : Nat) :
    lockFields (a2aSend id counts s d) = lockFields s := by
  simp only [a2aSend]; (repeat' split) <;> simp

@[simp] theorem a2aStart_lockFields (s : State) (id : Nat) : lockFields (a2aStart s id) = lockFields s := by
  simp only [a2aStart]; (repeat' split) <;> simp

@[simp] theorem finishColl_lockFields (s : State) (id : Nat) : lockFields (finishColl s id) = lockFields s := by
  simp only [finishColl]; (repeat' split) <;> simp

@[simp] theorem lateHdr_lockFields (s : State) (host : List HostLine) (d : Bytes) :
    lockFields (lateHdr s host d).1 = lockFields s := by
  simp [lateHdr]

@[simp] theorem countAt_lockFields (s : State) (c : Coll) : lockFields (countAt s c).1 = lockFields s := by
  simp only [countAt]; split <;> simp

@[simp] theorem leftOut_lockFields (s : State) (id : Nat) : lockFields (leftOut s id) = lockFields s := by
  simp only [leftOut]; (repeat' split) <;> simp [apply_ite lockFields]

@[simp] theorem moveData_lockFields (s : State) (id : Nat) : lockFields (moveData s id) = lockFields s := by
  simp only [moveData]; (repeat' split) <;> simp

@[simp] theorem applyClose_lockFields (s : State) (id n : Nat) (ep : Bool) (parentFirst : Nat) (contribs : List Nat) :
    lockFields (applyClose s id n ep parentFirst contribs) = lockFields s := by
  simp only [applyClose]; (repeat' split) <;> simp

@[simp] theorem closeRound_lockFields (s : State) (id : Nat) : lockFields (closeRound s id) = lockFields s := by
  simp only [closeRound]; (repeat' split) <;> simp

@[simp] theorem tryClose_lockFields (s : State) (id : Nat) : lockFields (tryClose s id) = lockFields s := by
  simp only [tryClose]; (repeat' split) <;> simp

@[simp] theorem joinAt_lockFields (s : State) (id rank rec_ : Nat) : lockFields (joinAt s id rank rec_) = lockFields s := by
  simp only [joinAt]; split <;> simp

@[simp] theorem sendJoin_lockFields (s : State) (id : Nat) : lockFields (sendJoin s id) = lockFields s := by
  simp only [sendJoin]; (repeat' split) <;> simp

@[simp] theorem takeData_lockFields (s : State) (c : Coll) (src j : Nat) (payload : Bytes) (poison : Bool) :
    lockFields (takeData s c src j payload poison) = lockFields s := by
  simp only [takeData]; (repeat' split) <;> simp

@[simp] theorem takeResult_lockFields (s : State) (c : Coll) (src j : Nat) (payload : Bytes) (poison : Bool)
    (targets : List HostGrant) :
    lockFields (takeResult s c src j payload poison targets) = lockFields s := by
  simp only [takeResult]; (repeat' split) <;> simp

@[simp] theorem takeClose_lockFields (s : State) (c : Coll) (p : Bytes) : lockFields (takeClose s c p) = lockFields s := by
  simp only [takeClose]; split <;> simp

@[simp] theorem collPacket_lockFields (s : State) (c : Coll) (src : Nat) (b : Bytes) (targets : List HostGrant) :
    lockFields (collPacket s c src b targets) = lockFields s := by
  simp only [collPacket]; (repeat' split) <;> simp

@[simp] theorem keepEarly_lockFields (s : State) (e : EarlyPkt) : lockFields (keepEarly s e) = lockFields s := by
  simp [keepEarly]

@[simp] theorem collTake_lockFields (s : State) (e : EarlyPkt) : lockFields (collTake s e) = lockFields s := by
  simp only [collTake]; (repeat' split) <;> simp

@[simp] theorem takeEarly_lockFields (s : State) (e : EarlyPkt) : lockFields (takeEarly s e) = lockFields s := by
  simp only [takeEarly]; split <;> simp

@[simp] theorem replayEarly_lockFields (s : State) (comm seq : Nat) : lockFields (replayEarly s comm seq) = lockFields s := by
  simp [replayEarly]

@[simp] theorem replayDue_lockFields (s : State) : lockFields (replayDue s) = lockFields s := by simp [replayDue]

@[simp] theorem finishColls_lockFields (s : State) : lockFields (finishColls s) = lockFields s := by simp [finishColls]

@[simp] theorem clearLate_lockFields (s : State) (d : Bytes) : lockFields (clearLate s d) = lockFields s := by
  simp [clearLate]

@[simp] theorem dropLate_lockFields (s : State) (host : List HostLine) (d : Bytes) :
    lockFields (dropLate s host d) = lockFields s := by
  simp only [dropLate]; (repeat' split) <;> simp

@[simp] theorem issueColl_lockFields (s : State) (owner : OpOwner) (stream phase step : Nat) (late : Bool) (d : Bytes)
    (host : List HostLine) :
    lockFields (issueColl s owner stream phase step late d host) = lockFields s := by
  simp [issueColl, apply_ite lockFields]

@[simp] theorem carryIn_lockFields (s : State) (c : Coll) : lockFields (carryIn s c) = lockFields s := by
  simp only [carryIn]; (repeat' split) <;> simp

@[simp] theorem issueFired_lockFields (s : State) (f : FiredOp) : lockFields (issueFired s f) = lockFields s := by
  simp only [issueFired]; (repeat' split) <;> simp

@[simp] theorem startWaiting_lockFields (k : Nat) (s : State) : lockFields (startWaiting k s) = lockFields s := by
  induction k generalizing s with
  | zero => rfl
  | succ k ih => simp only [startWaiting]; split <;> simp [ih]

@[simp] theorem settleColls_lockFields (s : State) : lockFields (settleColls s) = lockFields s := by simp [settleColls]

/-! ### Packets that arrive and fabric ops (chapter 12) -/

@[simp] theorem dmaEvent_lockFields (s : State) (n a : Nat) : lockFields (dmaEvent s n a) = lockFields s := by simp [dmaEvent]

@[simp] theorem finishFab_lockFields (s : State) (o : FabOp) : lockFields (finishFab s o) = lockFields s := by
  simp only [finishFab]; (repeat' split) <;> simp

@[simp] theorem settleOps_lockFields (s : State) : lockFields (settleOps s) = lockFields s := by
  simp [settleOps, apply_ite lockFields]

@[simp] theorem failPacket_lockFields (s : State) (o : FabOwner) (k : Nat) (st : Status) :
    lockFields (failPacket s o k st) = lockFields s := by
  simp [failPacket]

@[simp] theorem resolveTag_lockFields (s : State) (t : FabTag) (st : Status) :
    lockFields (resolveTag s t st) = lockFields s := by
  simp only [resolveTag]; split <;> simp

@[simp] theorem denyPkt_lockFields (s : State) (write : Bool) (lines : List Nat) :
    lockFields (denyPkt s write lines) = lockFields s := by
  simp [denyPkt]

@[simp] theorem ordersTwoFour_lockFields (s : State) (fi : Nat) (b : Bytes) (write : Bool) :
    lockFields (ordersTwoFour s fi b write).1 = lockFields s := by
  simp only [ordersTwoFour]; (repeat' split) <;> simp

@[simp] theorem landLine_lockFields (b : Bytes) (targets : List HostGrant) (s : State) (l : Nat) :
    lockFields (landLine b targets s l) = lockFields s := by
  simp only [landLine]; (repeat' split) <;> simp

@[simp] theorem countLanded_lockFields (b : Bytes) (s : State) : lockFields (countLanded b s) = lockFields s := by
  simp only [countLanded]; split <;> simp

@[simp] theorem landPkt_lockFields (s : State) (b : Bytes) (targets : List HostGrant) :
    lockFields (landPkt s b targets) = lockFields s := by
  simp [landPkt]

@[simp] theorem sendAck_lockFields (s : State) (fi : Nat) (b : Bytes) (dst : Nat) (st : Status) (src : Option
    (Nat × Nat × Nat)) :
    lockFields (sendAck s fi b dst st src) = lockFields s := by
  simp only [sendAck]; split <;> simp

@[simp] theorem landChecked_lockFields (s : State) (fi : Nat) (b : Bytes) (targets : List HostGrant) (src : Option
    (Nat × Nat × Nat)) :
    lockFields (landChecked s fi b targets src) = lockFields s := by
  simp only [landChecked]; (repeat' split) <;> simp

@[simp] theorem postOrLand_lockFields (s : State) (fi : Nat) (b : Bytes) (stalled : Bool) (src : Option (Nat × Nat × Nat)) :
    lockFields (postOrLand s fi b stalled src) = lockFields s := by
  simp only [postOrLand]; split <;> simp

@[simp] theorem sinkWrite_lockFields (s : State) (fi : Nat) (b : Bytes) (stalled : Bool) (src : Option (Nat × Nat × Nat)) :
    lockFields (sinkWrite s fi b stalled src) = lockFields s := by
  simp only [sinkWrite]; split <;> simp

@[simp] theorem dropPost_lockFields (s : State) (h : HostPost) : lockFields (dropPost s h) = lockFields s := by
  simp [dropPost]

@[simp] theorem landPost_lockFields (s : State) (h : HostPost) : lockFields (landPost s h) = lockFields s := by
  simp only [landPost]; split <;> simp

@[simp] theorem drainPosts_lockFields (s : State) : lockFields (drainPosts s) = lockFields s := by simp [drainPosts]

@[simp] theorem sendReply_lockFields (s : State) (fi : Nat) (b payload : Bytes) (mask : Nat) (src : Option (Nat × Nat × Nat)) :
    lockFields (sendReply s fi b payload mask src) = lockFields s := by
  simp only [sendReply]; split <;> simp

@[simp] theorem replyFrom_lockFields (s : State) (m : Mem) (fi : Nat) (b : Bytes) (lost : List Nat) (src : Option
    (Nat × Nat × Nat)) :
    lockFields (replyFrom s m fi b lost src) = lockFields s := by
  simp [replyFrom]

@[simp] theorem fetchHost_lockFields (s : State) (fi : Nat) (b : Bytes) (src : Option (Nat × Nat × Nat)) :
    lockFields (fetchHost s fi b src) = lockFields s := by
  simp only [fetchHost]
  rw [foldl_lockFields, lockFields_mk_fab]
  intro x l; split <;> simp

@[simp] theorem sinkRead_lockFields (s : State) (fi : Nat) (b : Bytes) (src : Option (Nat × Nat × Nat)) :
    lockFields (sinkRead s fi b src) = lockFields s := by
  simp [sinkRead, apply_ite lockFields]

@[simp] theorem answerFetch_lockFields (s : State) (f : HostFetch) : lockFields (answerFetch s f) = lockFields s := by
  simp [answerFetch]

@[simp] theorem fetchLine_lockFields (s : State) (id line : Nat) (data : Option Bytes) :
    lockFields (fetchLine s id line data) = lockFields s := by
  simp only [fetchLine]; (repeat' split) <;> simp

@[simp] theorem sinkData_lockFields (s : State) (fi : Nat) (b : Bytes) (stalled : Bool) (src : Option (Nat × Nat × Nat)) :
    lockFields (sinkData s fi b stalled src) = lockFields s := by
  simp only [sinkData]; (repeat' split) <;> simp

@[simp] theorem sinkAck_lockFields (s : State) (fi : Nat) (b : Bytes) (src : Option (Nat × Nat × Nat)) :
    lockFields (sinkAck s fi b src) = lockFields s := by
  simp only [sinkAck]; (repeat' split) <;> simp

@[simp] theorem sinkPlain_lockFields (s : State) (fi : Nat) (b : Bytes) (stalled : Bool) (src : Option (Nat × Nat × Nat)) :
    lockFields (sinkPlain s fi b stalled src) = lockFields s := by
  simp only [sinkPlain]; (repeat' split) <;> simp

@[simp] theorem takeLoop_lockFields (s : State) (l : LoopPkt) : lockFields (takeLoop s l) = lockFields s := by
  simp only [takeLoop]; (repeat' split) <;> simp

@[simp] theorem runLoop_lockFields (k : Nat) (s : State) : lockFields (runLoop k s) = lockFields s := by
  induction k generalizing s with
  | zero => rfl
  | succ k ih => simp only [runLoop]; (repeat' split) <;> simp [ih]

@[simp] theorem takeIn_lockFields (s : State) (h : HeldPkt) : lockFields (takeIn s h) = lockFields s := by
  simp [takeIn, apply_ite lockFields]

@[simp] theorem comeIn_lockFields (s : State) (h : HeldPkt) : lockFields (comeIn s h) = lockFields s := by
  simp only [comeIn]; split <;> simp

@[simp] theorem moveOn_lockFields (k : Nat) (s : State) : lockFields (moveOn k s) = lockFields s := by
  induction k generalizing s with
  | zero => rfl
  | succ k ih => simp only [moveOn]; (repeat' split) <;> simp [ih]

@[simp] theorem settleTurns_lockFields (k : Nat) (s : State) : lockFields (settleTurns k s) = lockFields s := by
  induction k generalizing s with
  | zero => rfl
  | succ k ih => simp [settleTurns, ih]

@[simp] theorem settleFab_lockFields (s : State) : lockFields (settleFab s) = lockFields s := by simp [settleFab]

@[simp] theorem enterBuffer_lockFields (s : State) (p : Nat) (b : Bytes) (stalled : Bool) :
    lockFields (enterBuffer s p b stalled) = lockFields s := by
  simp [enterBuffer]

@[simp] theorem arrive_lockFields (p : FabPort) (b : Bytes) (kind : Nat) (pcie : Option Bool) (s : State) :
    lockFields (arrive p b kind pcie s) = lockFields s := by
  simp [arrive, apply_ite lockFields]

@[simp] theorem execWrite_keepsLocks (port : FabPort) (packet : Bytes) (stalled : Bool) (s : State) :
    KeepsLocks s (execWrite port packet stalled s) := by
  simp [execWrite]

@[simp] theorem execReadReq_keepsLocks (port : FabPort) (packet : Bytes) (s : State) :
    KeepsLocks s (execReadReq port packet s) := by
  simp [execReadReq]

@[simp] theorem execReadData_keepsLocks (port : FabPort) (packet : SinkPacket) (s : State) :
    KeepsLocks s (execReadData port packet s) := by
  simp [execReadData]

@[simp] theorem execAck_keepsLocks (port : FabPort) (packet : Bytes) (s : State) : KeepsLocks s (execAck port packet s) := by
  simp [execAck]

@[simp] theorem execFwdWrite_keepsLocks (port : FabPort) (packet : SinkPacket) (s : State) :
    KeepsLocks s (execFwdWrite port packet s) := by
  simp [execFwdWrite]

@[simp] theorem execIdle_keepsLocks (port : FabPort) (flit : Bytes) (corrected uncorrectable : BitVec 16) (s : State) :
    KeepsLocks s (execIdle port flit corrected uncorrectable s) := by
  simp only [execIdle]; (repeat' split) <;> simp

@[simp] theorem execRouterForward_keepsLocks (port : FabPort) (packet : Bytes) (s : State) :
    KeepsLocks s (execRouterForward port packet s) := by
  simp only [execRouterForward]; (repeat' split) <;> simp

@[simp] theorem dropEarly_lockFields (s : State) (e : EarlyPkt) : lockFields (dropEarly s e) = lockFields s := by
  simp [dropEarly]

@[simp] theorem execHostSinkTimeout_keepsLocks (id : Nat) (s : State) : KeepsLocks s (execHostSinkTimeout id s) := by
  simp only [execHostSinkTimeout]; (repeat' split) <;> simp

@[simp] theorem execFabricTimeout_keepsLocks (fi : FabPort) (tag : BitVec 24) (s : State) :
    KeepsLocks s (execFabricTimeout fi tag s) := by
  simp only [execFabricTimeout]; (repeat' split) <;> simp

@[simp] theorem execPortLightDetected_keepsLocks (port : FabPort) (s : State) :
    KeepsLocks s (execPortLightDetected port s) := by
  simp only [execPortLightDetected]; split <;> simp

@[simp] theorem execPortClockLock_keepsLocks (port : FabPort) (s : State) : KeepsLocks s (execPortClockLock port s) := by
  simp only [execPortClockLock]; split <;> simp

@[simp] theorem execPortCodewordLock_keepsLocks (port : FabPort) (s : State) :
    KeepsLocks s (execPortCodewordLock port s) := by
  simp only [execPortCodewordLock]; split <;> simp

@[simp] theorem execPortTrained_keepsLocks (port : FabPort) (s : State) : KeepsLocks s (execPortTrained port s) := by
  simp only [execPortTrained]; split <;> simp

@[simp] theorem execParam_keepsLocks (port : FabPort) (node : BitVec 16) (peerPort : BitVec 4) (s : State) :
    KeepsLocks s (execParam port node peerPort s) := by
  simp only [execParam]; split <;> simp

@[simp] theorem execPortStateTimeout_keepsLocks (port : FabPort) (s : State) :
    KeepsLocks s (execPortStateTimeout port s) := by
  simp only [execPortStateTimeout]; split <;> simp

@[simp] theorem takeCut_lockFields (s : State) (p : Nat) (b : Bytes) : lockFields (takeCut s p b) = lockFields s := by
  simp [takeCut, apply_ite lockFields]

@[simp] theorem execLinkDrop_keepsLocks (port : FabPort) (loss : LinkLoss) (s : State) :
    KeepsLocks s (execLinkDrop port loss s) := by
  simp only [execLinkDrop]; (repeat' split) <;> simp

@[simp] theorem writePortCfg_lockFields (p value : Nat) (s : State) : lockFields (writePortCfg p value s) = lockFields s := by
  simp [writePortCfg, apply_ite lockFields]

@[simp] theorem execFabPortCfg_keepsLocks (hport : HPort) (port : FabPort) (value : BitVec 64) (s : State) :
    KeepsLocks s (execFabPortCfg hport port value s) := by
  simp [execFabPortCfg]

@[simp] theorem joinPair_lockFields (s : State) (i : Nat) : lockFields (joinPair s i) = lockFields s := by simp [joinPair]

@[simp] theorem execBypassSwitchDone_keepsLocks (pair : BitVec 3) (s : State) :
    KeepsLocks s (execBypassSwitchDone pair s) := by
  simp only [execBypassSwitchDone]; split <;> simp

@[simp] theorem writeRoute_lockFields (index value : Nat) (s : State) :
    lockFields (writeRoute index value s) = lockFields s := by
  simp [writeRoute]

@[simp] theorem execFabRouteTab_keepsLocks (hport : HPort) (index : BitVec 14) (value : BitVec 32) (s : State) :
    KeepsLocks s (execFabRouteTab hport index value s) := by
  simp [execFabRouteTab]

@[simp] theorem fabReject_lockFields (loc : OpLoc) (s : State) (o : NextOp) (st : Status) :
    lockFields (fabReject loc s o st) = lockFields s := by
  simp [fabReject]

@[simp] theorem noteFab_lockFields (s : State) (o : FabOp) : lockFields (noteFab s o) = lockFields s := by simp [noteFab]

@[simp] theorem startPut_lockFields (s : State) (w : FabOwner) (fi id p : Nat) (d : Bytes) (host : List HostLine) :
    lockFields (startPut s w fi id p d host) = lockFields s := by
  simp [startPut]

@[simp] theorem startGet_lockFields (s : State) (w : FabOwner) (fi id p : Nat) (d : Bytes) :
    lockFields (startGet s w fi id p d) = lockFields s := by
  simp [startGet]

@[simp] theorem execPut_keepsLocks (loc : OpLoc) (host : List HostLine) (s : State) : KeepsLocks s (execPut loc host s) := by
  simp only [execPut]; (repeat' split) <;> simp

@[simp] theorem execGet_keepsLocks (loc : OpLoc) (s : State) : KeepsLocks s (execGet loc s) := by
  simp only [execGet]; (repeat' split) <;> simp

@[simp] theorem execAwait_keepsLocks (loc : OpLoc) (s : State) : KeepsLocks s (execAwait loc s) := by
  simp only [execAwait]; (repeat' split) <;> simp

@[simp] theorem execAwaitTimeout_keepsLocks (loc : OpLoc) (s : State) : KeepsLocks s (execAwaitTimeout loc s) := by
  simp only [execAwaitTimeout]; split
  · simp
  · rw [keepsLocks_next, foldl_lockFields]
    intro x o; (repeat' split) <;> simp

@[simp] theorem setEpochs_lockFields (s : State) (map : Nat) (e : BitVec 16) :
    lockFields (setEpochs s map e) = lockFields s := by
  simp [setEpochs]

@[simp] theorem execRoleSet_keepsLocks (op : OpLines) (s : State) : KeepsLocks s (execRoleSet op s) := by
  simp only [execRoleSet]; (repeat' split) <;> simp

@[simp] theorem dmaRow_lockFields (p : DmaParm) (host : List HostLine) (x : State × Option Status) (r : Nat) :
    lockFields (dmaRow p host x r).1 = lockFields x.1 := by
  simp [dmaRow]

@[simp] theorem dmaView_lockFields (p : DmaParm) (host : List HostLine) (s : State) :
    lockFields (dmaView p host s).s = lockFields s := by
  simp [dmaView]

@[simp] theorem dmaRows_lockFields (p : DmaParm) (host : List HostLine) (s : State) :
    lockFields (dmaRows p host s).1 = lockFields s := by
  simp [dmaRows]

@[simp] theorem dmaWarn_lockFields (p : DmaParm) (host : List HostLine) (s : State) (n : Nat) (st : Option Status) :
    lockFields (dmaWarn p host s n st) = lockFields s := by
  simp only [dmaWarn]; split <;> simp

@[simp] theorem dmaRemote_lockFields (s : State) (n : Nat) (t : Token) (d : Bytes) (fi : Nat) (host : List HostLine) :
    lockFields (dmaRemote s n t d fi host) = lockFields s := by
  simp only [dmaRemote]; split <;> simp

@[simp] theorem dmaRun_lockFields (s : State) (n : Nat) (o : NextOp) (st : Status) (finished : Bool) :
    lockFields (dmaRun s n o st finished) = lockFields s := by
  simp [dmaRun]

@[simp] theorem execDmaCopy_keepsLocks (core : CoreId) (host : List HostLine) (s : State) :
    KeepsLocks s (execDmaCopy core host s) := by
  simp only [execDmaCopy]; (repeat' split) <;> simp

/-! ### Collective ops and trigger entries (chapter 13) -/

@[simp] theorem runColl_lockFields (k : Nat) (loc : OpLoc) (host : List HostLine) (s : State) :
    lockFields (runColl k loc host s) = lockFields s := by
  simp only [runColl]; (repeat' split) <;> simp

@[simp] theorem execAllReduce_keepsLocks (loc : OpLoc) (host : List HostLine) (s : State) :
    KeepsLocks s (execAllReduce loc host s) := by
  simp [execAllReduce]

@[simp] theorem execReduceScatter_keepsLocks (loc : OpLoc) (host : List HostLine) (s : State) :
    KeepsLocks s (execReduceScatter loc host s) := by
  simp [execReduceScatter]

@[simp] theorem execAllGather_keepsLocks (loc : OpLoc) (host : List HostLine) (s : State) :
    KeepsLocks s (execAllGather loc host s) := by
  simp [execAllGather]

@[simp] theorem execReduce_keepsLocks (loc : OpLoc) (host : List HostLine) (s : State) :
    KeepsLocks s (execReduce loc host s) := by
  simp [execReduce]

@[simp] theorem execBroadcast_keepsLocks (loc : OpLoc) (host : List HostLine) (s : State) :
    KeepsLocks s (execBroadcast loc host s) := by
  simp [execBroadcast]

@[simp] theorem execBarrier_keepsLocks (loc : OpLoc) (host : List HostLine) (s : State) :
    KeepsLocks s (execBarrier loc host s) := by
  simp [execBarrier]

@[simp] theorem execAllToAllv_keepsLocks (loc : OpLoc) (host : List HostLine) (s : State) :
    KeepsLocks s (execAllToAllv loc host s) := by
  simp [execAllToAllv]

@[simp] theorem execCollReady_keepsLocks (id : Nat) (host : List HostLine) (s : State) :
    KeepsLocks s (execCollReady id host s) := by
  simp only [execCollReady]; (repeat' split) <;> simp

@[simp] theorem execCollDeadline_keepsLocks (id : Nat) (s : State) : KeepsLocks s (execCollDeadline id s) := by
  simp only [execCollDeadline]; (repeat' split) <;> simp

@[simp] theorem execSegmentCombine_keepsLocks (id segment : Nat) (s : State) :
    KeepsLocks s (execSegmentCombine id segment s) := by
  simp only [execSegmentCombine]; (repeat' split) <;> simp

@[simp] theorem execCollTimeout_keepsLocks (id : Nat) (s : State) : KeepsLocks s (execCollTimeout id s) := by
  simp only [execCollTimeout]; (repeat' split) <;> simp

@[simp] theorem execJoin_keepsLocks (port : FabPort) (packet : Bytes) (s : State) :
    KeepsLocks s (execJoin port packet s) := by
  simp [execJoin]

@[simp] theorem execClose_keepsLocks (port : FabPort) (packet : Bytes) (s : State) :
    KeepsLocks s (execClose port packet s) := by
  simp [execClose]

@[simp] theorem execData_keepsLocks (port : FabPort) (packet : Bytes) (s : State) :
    KeepsLocks s (execData port packet s) := by
  simp [execData]

@[simp] theorem execResult_keepsLocks (port : FabPort) (packet : SinkPacket) (s : State) :
    KeepsLocks s (execResult port packet s) := by
  simp [execResult]

@[simp] theorem execCredit_keepsLocks (port : FabPort) (packet : Bytes) (s : State) :
    KeepsLocks s (execCredit port packet s) := by
  simp [execCredit]

@[simp] theorem execAbort_keepsLocks (port : FabPort) (packet : Bytes) (s : State) :
    KeepsLocks s (execAbort port packet s) := by
  simp [execAbort]

@[simp] theorem execA2aData_keepsLocks (port : FabPort) (packet : SinkPacket) (s : State) :
    KeepsLocks s (execA2aData port packet s) := by
  simp [execA2aData]

@[simp] theorem execA2aCount_keepsLocks (port : FabPort) (packet : SinkPacket) (s : State) :
    KeepsLocks s (execA2aCount port packet s) := by
  simp [execA2aCount]

@[simp] theorem fiRd_lockFields (s : State) (host : List HostLine) (a n : Nat) :
    lockFields (fiRd s host a n).1 = lockFields s := by
  simp [fiRd]

@[simp] theorem execTrigArm_keepsLocks (op : OpLines) (s0 : State) : KeepsLocks s0 (execTrigArm op s0) := by
  simp only [execTrigArm]; (repeat' split) <;> simp

@[simp] theorem firedEnd_lockFields (s : State) (k : Nat) (st : Status) : lockFields (firedEnd s k st) = lockFields s := by
  simp [firedEnd]

@[simp] theorem startFired_lockFields (s : State) (f : FiredOp) : lockFields (startFired s f) = lockFields s := by
  simp only [startFired]; (repeat' split) <;> simp

@[simp] theorem execTriggerFire_keepsLocks (fi : FabPort) (entry : BitVec 10) (host : List HostLine) (s : State) :
    KeepsLocks s (execTriggerFire fi entry host s) := by
  simp only [execTriggerFire]; (repeat' split) <;> simp

/-! ### Patrol scrub (chapter 10) -/

@[simp] theorem execPatrolScrub_keepsLocks (addr : BitVec 48) (result : ScrubResult) (s : State) :
    KeepsLocks s (execPatrolScrub addr result s) := by
  simp only [execPatrolScrub]; split <;> simp

@[simp] theorem sramTwice_lockFields (s : State) (a : Nat) : lockFields (sramTwice s a) = lockFields s := by
  simp only [sramTwice]; (repeat' split) <;> simp

@[simp] theorem execSramScrub_keepsLocks (addr : BitVec 48) (result : ScrubResult) (s : State) :
    KeepsLocks s (execSramScrub addr result s) := by
  simp only [execSramScrub]; (repeat' split) <;> simp

/-! ### Batched serving (chapter 11) -/

@[simp] theorem dramLine_lockFields (src dst n : Nat) (x : State × Option Status) (l : Nat) :
    lockFields (dramLine src dst n x l).1 = lockFields x.1 := by
  simp only [dramLine]; split <;> simp

@[simp] theorem dramCopy_lockFields (s : State) (src dst n : Nat) : lockFields (dramCopy s src dst n).1 = lockFields s := by
  simp [dramCopy]

@[simp] theorem closeBlock_lockFields (s : State) (r : Bytes) (b : SvcBlock) :
    lockFields (closeBlock s r b) = lockFields s := by
  simp [closeBlock]

@[simp] theorem putOpen_lockFields (s : State) (r : Bytes) (b : SvcBlock) : lockFields (putOpen s r b) = lockFields s := by
  simp only [putOpen]; split <;> simp

@[simp] theorem execServiceRequest_keepsLocks (queue : QueueId) (s : State) : KeepsLocks s (execServiceRequest queue s) := by
  simp only [execServiceRequest]; (repeat' split) <;> simp

@[simp] theorem execBlockClose_keepsLocks (svc : BitVec 8) (s : State) : KeepsLocks s (execBlockClose svc s) := by
  simp only [execBlockClose]; (repeat' split) <;> simp

@[simp] theorem preemptCore_lockFields (s : State) (n : Nat) : lockFields (preemptCore s n) = lockFields s := by
  simp [preemptCore]

@[simp] theorem pausePhases_lockFields (s : State) (map : Nat) : lockFields (pausePhases s map) = lockFields s := by
  simp [pausePhases]

@[simp] theorem refuseReq_lockFields (st : Status) (s : State) (x : SvcReq) :
    lockFields (refuseReq st s x) = lockFields s := by
  simp only [refuseReq]; split <;> simp

@[simp] theorem dropLateReqs_lockFields (s : State) (b : SvcBlock) : lockFields (dropLateReqs s b).1 = lockFields s := by
  simp only [dropLateReqs]; split <;> simp

@[simp] theorem failBlock_lockFields (s : State) (b : SvcBlock) (e : Status) :
    lockFields (failBlock s b e) = lockFields s := by
  simp [failBlock]

@[simp] theorem resumeCore_lockFields (s : State) (n : Nat) : lockFields (resumeCore s n) = lockFields s := by
  simp [resumeCore]

@[simp] theorem resumePhases_lockFields (s : State) : lockFields (resumePhases s) = lockFields s := by simp [resumePhases]

@[simp] theorem resumeTraining_lockFields (s : State) : lockFields (resumeTraining s) = lockFields s := by
  simp [resumeTraining, apply_ite lockFields]

@[simp] theorem askCores_lockFields (s : State) (map : Nat) : lockFields (askCores s map) = lockFields s := by simp [askCores]

@[simp] theorem beginBlock_lockFields (s : State) (b : SvcBlock) : lockFields (beginBlock s b) = lockFields s := by
  simp only [beginBlock]; (repeat' split) <;> simp

@[simp] theorem startBlock_lockFields (s : State) (b : SvcBlock) : lockFields (startBlock s b) = lockFields s := by
  simp only [startBlock]; split <;> simp

@[simp] theorem execBlockStart_keepsLocks (svc : BitVec 8) (s : State) : KeepsLocks s (execBlockStart svc s) := by
  simp only [execBlockStart]; (repeat' split) <;> simp

@[simp] theorem execPreemptMinExpiry_keepsLocks (svc : BitVec 8) (s : State) : KeepsLocks s (execPreemptMinExpiry svc s) := by
  simp only [execPreemptMinExpiry]; (repeat' split) <;> simp

@[simp] theorem execPlateBoundary_keepsLocks (core : CoreId) (s : State) : KeepsLocks s (execPlateBoundary core s) := by
  simp only [execPlateBoundary]; (repeat' split) <;> simp

@[simp] theorem finishReq_lockFields (b : SvcBlock) (st : Status) (s : State) (x : SvcReq) :
    lockFields (finishReq b st s x) = lockFields s := by
  simp only [finishReq]; (repeat' split) <;> simp

@[simp] theorem execBlockEnd_keepsLocks (svc : BitVec 8) (s : State) : KeepsLocks s (execBlockEnd svc s) := by
  simp only [execBlockEnd]; (repeat' split) <;> simp

/-! ### COPY and the Meridian commands (chapters 08 and 11) -/

@[simp] theorem copyInLine_lockFields (host : List HostLine) (src dst n : Nat) (x : State × Option Status) (l : Nat) :
    lockFields (copyInLine host src dst n x l).1 = lockFields x.1 := by
  simp only [copyInLine]; split <;> simp

@[simp] theorem copyIn_lockFields (s : State) (host : List HostLine) (src dst n : Nat) :
    lockFields (copyIn s host src dst n).1 = lockFields s := by
  simp [copyIn]

@[simp] theorem copyOutLine_lockFields (port : HPort) (src dst n : Nat) (x : State × Option Status) (l : Nat) :
    lockFields (copyOutLine port src dst n x l).1 = lockFields x.1 := by
  simp [copyOutLine]

@[simp] theorem copyOut_lockFields (s : State) (p : Option HPort) (src dst n : Nat) :
    lockFields (copyOut s p src dst n).1 = lockFields s := by
  simp only [copyOut]; (repeat' split) <;> simp

@[simp] theorem copyAll_lockFields (s : State) (port : Option HPort) (host : List HostLine) (p : CopyParm) :
    lockFields (copyAll s port host p).1 = lockFields s := by
  simp only [copyAll]; split <;> simp

@[simp] theorem execCopy_keepsLocks (queue : QueueId) (s : State) : KeepsLocks s (execCopy queue s) := by
  simp only [execCopy]; (repeat' split) <;> simp

@[simp] theorem execCopyCompletion_keepsLocks (queue : QueueId) (index : BitVec 32) (host : List HostLine) (s : State) :
    KeepsLocks s (execCopyCompletion queue index host s) := by
  simp only [execCopyCompletion]; split <;> simp

theorem endMeridian_lockFields (q : Nat) (f : Fetched) (s : State) {r : State × Status} (h : lockFields r.1 = lockFields s) :
    lockFields (endMeridian q f s r) = lockFields s := by
  simp only [endMeridian]; split <;> simp [h]

@[simp] theorem execMeridianFlip_keepsLocks (queue : QueueId) (s : State) : KeepsLocks s (execMeridianFlip queue s) := by
  simp only [execMeridianFlip]; split
  · simp
  · simp [endMeridian_lockFields]

@[simp] theorem execMeridianRollback_keepsLocks (queue : QueueId) (s : State) :
    KeepsLocks s (execMeridianRollback queue s) := by
  simp only [execMeridianRollback]; split
  · simp
  · simp [endMeridian_lockFields]

@[simp] theorem takeQueue_lockFields (s : State) (n : Nat) (owner : BitVec 2) :
    lockFields (takeQueue s n owner) = lockFields s := by
  simp [takeQueue]

@[simp] theorem execQueueReassign_keepsLocks (queue : QueueId) (s : State) : KeepsLocks s (execQueueReassign queue s) := by
  simp only [execQueueReassign]; (repeat' split) <;> simp

/-! ### Host ports (chapter 14) -/

@[simp] theorem drivePin_lockFields (s : State) (name : String) (asserted : Bool) :
    lockFields (drivePin s name asserted) = lockFields s := by
  simp [drivePin]

@[simp] theorem setWakeOut_lockFields (s : State) (p : HPort) (w : Option Nat) :
    lockFields (setWakeOut s p w) = lockFields s := by
  simp only [setWakeOut]; (repeat' split) <;> simp

@[simp] theorem losePort_lockFields (s : State) (p : HPort) : lockFields (losePort s p) = lockFields s := by simp [losePort]

@[simp] theorem execPortLost_keepsLocks (port : HPort) (s : State) : KeepsLocks s (execPortLost port s) := by
  simp only [execPortLost]; split <;> simp

@[simp] theorem execPortReturn_keepsLocks (port : HPort) (rate : BitVec 3) (width : BitVec 4) (flit : Bool) (s : State) :
    KeepsLocks s (execPortReturn port rate width flit s) := by
  simp only [execPortReturn]; (repeat' split) <;> simp

@[simp] theorem countDenied_lockFields (s : State) (p : HPort) : lockFields (countDenied s p) = lockFields s := by
  simp [countDenied]

@[simp] theorem bar4Line_lockFields (s : State) (p : HPort) (write : Bool) (l : Nat) :
    lockFields (bar4Line s p write l).1 = lockFields s := by
  simp only [bar4Line]; (repeat' split) <;> simp

@[simp] theorem bar4ReadLine_lockFields (p : HPort) (a n : Nat) (s : State) (l : Nat) :
    lockFields (bar4ReadLine p a n s l) = lockFields s := by
  simp [bar4ReadLine, apply_ite lockFields]

@[simp] theorem bar4Read_lockFields (p : HPort) (off n : Nat) (s : State) :
    lockFields (bar4Read p off n s) = lockFields s := by
  simp [bar4Read]

@[simp] theorem bar4WriteLine_lockFields (p : HPort) (a : Nat) (data : Bytes) (poisoned : Bool) (s : State) (l : Nat) :
    lockFields (bar4WriteLine p a data poisoned s l) = lockFields s := by
  simp [bar4WriteLine, apply_ite lockFields]

@[simp] theorem bar4Write_lockFields (p : HPort) (off : Nat) (data : Bytes) (poisoned : Bool) (s : State) :
    lockFields (bar4Write p off data poisoned s) = lockFields s := by
  simp [bar4Write]

@[simp] theorem execBar4Read_keepsLocks (port : HPort) (offset : BitVec 36) (len : Nat) (s : State) :
    KeepsLocks s (execBar4Read port offset len s) := by
  simp only [execBar4Read]; split <;> simp

@[simp] theorem execBar4Write_keepsLocks (port : HPort) (offset : BitVec 36) (data : Bytes) (poisoned : Bool) (s : State) :
    KeepsLocks s (execBar4Write port offset data poisoned s) := by
  simp only [execBar4Write]; split <;> simp

@[simp] theorem writeAper_lockFields (p : HPort) (value : Nat) (s : State) :
    lockFields (writeAper p value s) = lockFields s := by
  simp [writeAper]

@[simp] theorem execHifAper_keepsLocks (hport index : HPort) (value : BitVec 64) (s : State) :
    KeepsLocks s (execHifAper hport index value s) := by
  simp [execHifAper]

@[simp] theorem dropRead_lockFields (s : State) (r : PcieRead) : lockFields (dropRead s r) = lockFields s := by
  simp [dropRead]

@[simp] theorem readBack_lockFields (s : State) (r : PcieRead) (data : Option Bytes) :
    lockFields (readBack s r data) = lockFields s := by
  simp only [readBack]; (repeat' split) <;> simp

@[simp] theorem lateCompletion_lockFields (s : State) (p : HPort) : lockFields (lateCompletion s p) = lockFields s := by
  simp [lateCompletion]

@[simp] theorem execPcieCompletion_keepsLocks (port : HPort) (tag : BitVec 14) (data : Bytes) (good : Bool) (s : State) :
    KeepsLocks s (execPcieCompletion port tag data good s) := by
  simp only [execPcieCompletion]; (repeat' split) <;> simp

@[simp] theorem execCompletionTimeout_keepsLocks (port : HPort) (tag : BitVec 14) (s : State) :
    KeepsLocks s (execCompletionTimeout port tag s) := by
  simp only [execCompletionTimeout]; (repeat' split) <;> simp

@[simp] theorem unmaskVector_lockFields (p : HPort) (v : Nat) (s : State) :
    lockFields (unmaskVector p v s) = lockFields s := by
  simp only [unmaskVector]; split <;> simp

@[simp] theorem execMsixUnmask_keepsLocks (port : HPort) (vector : BitVec 8) (s : State) :
    KeepsLocks s (execMsixUnmask port vector s) := by
  simp only [execMsixUnmask]; split <;> simp

@[simp] theorem mctpDrop_lockFields (s : State) (b : MctpBinding) : lockFields (mctpDrop s b) = lockFields s := by
  simp only [mctpDrop]; split <;> simp

@[simp] theorem mctpAnswer_lockFields (s : State) (b : MctpBinding) (cmd : Nat) (data : Bytes) :
    lockFields (mctpAnswer s b cmd data).1 = lockFields s := by
  simp only [mctpAnswer]; (repeat' split) <;> simp

@[simp] theorem execConfigSpaceWrite_keepsLocks (port : HPort) (field : CfgField) (value : BitVec 32) (s : State) :
    KeepsLocks s (execConfigSpaceWrite port field value s) := by
  simp only [execConfigSpaceWrite]; (repeat' split) <;> simp

/-! ### Cadence points, loops and limiters (chapters 01 and 17) -/

@[simp] theorem setCeil_lockFields (s : State) (c : CeilState) : lockFields (setCeil s c) = lockFields s := by simp [setCeil]

@[simp] theorem beginChange_lockFields (s : State) (t : Nat) (origin : PointOrigin) (guard : Bool) :
    lockFields (beginChange s t origin guard) = lockFields s := by
  simp only [beginChange]; split <;> simp

@[simp] theorem seek_lockFields (s : State) (t : Nat) (origin : PointOrigin) :
    lockFields (seek s t origin) = lockFields s := by
  simp only [seek]; (repeat' split) <;> simp

@[simp] theorem retarget_lockFields (s : State) : lockFields (retarget s) = lockFields s := by
  simp only [retarget]; split <;> simp

@[simp] theorem withCeil_lockFields (s : State) (f : CeilState → CeilState) : lockFields (withCeil s f) = lockFields s := by
  simp [withCeil]

@[simp] theorem answerPoint_lockFields (s : State) (st : Status) : lockFields (answerPoint s st) = lockFields s := by
  simp [answerPoint]

@[simp] theorem refusePoint_lockFields (s : State) : lockFields (refusePoint s) = lockFields s := by simp [refusePoint]

@[simp] theorem execPointRequest_keepsLocks (target : BitVec 3) (origin : PointOrigin) (s : State) :
    KeepsLocks s (execPointRequest target origin s) := by
  simp only [execPointRequest]; split <;> simp

@[simp] theorem nextChange_lockFields (s : State) : lockFields (nextChange s) = lockFields s := by
  simp only [nextChange]; (repeat' split) <;> simp

@[simp] theorem endChange_lockFields (s : State) (q : Nat) : lockFields (endChange s q) = lockFields s := by simp [endChange]

@[simp] theorem execRailSettled_keepsLocks (rates : List Nat) (s : State) : KeepsLocks s (execRailSettled rates s) := by
  simp only [execRailSettled]; (repeat' split) <;> simp

@[simp] theorem guardStep_lockFields (s : State) (k : Nat) : lockFields (guardStep s k) = lockFields s := by simp [guardStep]

@[simp] theorem execGuardStepDown_keepsLocks (cluster : ClusterId) (rateMhz : Nat) (bySlips : Bool) (s : State) :
    KeepsLocks s (execGuardStepDown cluster rateMhz bySlips s) := by
  simp only [execGuardStepDown]; (repeat' split) <;> simp

@[simp] theorem tickCore_lockFields (s : State) (n : Nat) : lockFields (tickCore s n) = lockFields s := by simp [tickCore]

@[simp] theorem noteSlips_lockFields (s : State) (slips : List (Nat × Nat)) :
    lockFields (noteSlips s slips) = lockFields s := by
  simp [noteSlips]

@[simp] theorem execCadenceTick_keepsLocks (slips : List (Nat × Nat)) (s : State) :
    KeepsLocks s (execCadenceTick slips s) := by
  simp only [execCadenceTick]; (repeat' split) <;> simp [apply_ite lockFields]

@[simp] theorem settleAlert_lockFields (s : State) : lockFields (settleAlert s) = lockFields s := by
  simp only [settleAlert]; (repeat' split) <;> simp

@[simp] theorem limiterActs_lockFields (s : State) : lockFields (limiterActs s) = lockFields s := by simp [limiterActs]

@[simp] theorem execFastPower_keepsLocks (watts : Nat) (s : State) : KeepsLocks s (execFastPower watts s) := by
  simp only [execFastPower]; (repeat' split) <;> simp

@[simp] theorem execOvercurrent_keepsLocks (s : State) : KeepsLocks s (execOvercurrent s) := by
  simp only [execOvercurrent]; split <;> simp

@[simp] theorem execHot_keepsLocks (s : State) : KeepsLocks s (execHot s) := by
  simp only [execHot]; split <;> simp

@[simp] theorem execInputLow_keepsLocks (s : State) : KeepsLocks s (execInputLow s) := by
  simp only [execInputLow]; split <;> simp

@[simp] theorem execHotRelease_keepsLocks (s : State) : KeepsLocks s (execHotRelease s) := by simp [execHotRelease]

@[simp] theorem execInputLowRelease_keepsLocks (s : State) : KeepsLocks s (execInputLowRelease s) := by
  simp [execInputLowRelease]

@[simp] theorem execOpticsHot_keepsLocks (port : FabPort) (s : State) : KeepsLocks s (execOpticsHot port s) := by
  simp only [execOpticsHot]; split <;> simp

@[simp] theorem execOpticsHotRelease_keepsLocks (port : FabPort) (s : State) :
    KeepsLocks s (execOpticsHotRelease port s) := by
  simp only [execOpticsHotRelease]; split <;> simp

@[simp] theorem execLimiterRelease_keepsLocks (limiter : HeldLimiter) (s : State) :
    KeepsLocks s (execLimiterRelease limiter s) := by
  simp only [execLimiterRelease]; (repeat' split) <;> simp

@[simp] theorem takeLoops_lockFields (s : State) : lockFields (takeLoops s) = lockFields s := by
  simp only [takeLoops]; split <;> simp

@[simp] theorem sample_lockFields (s : State) (x : Sensors) : lockFields (sample s x) = lockFields s := by
  simp only [sample]; split <;> simp

@[simp] theorem execPowerLoopTick_keepsLocks (pIn pPkg v10mv i10ma : Nat) (rails : List Nat) (s : State) :
    KeepsLocks s (execPowerLoopTick pIn pPkg v10mv i10ma rails s) := by
  simp only [execPowerLoopTick]; split <;> simp

@[simp] theorem execThermalLoopTick_keepsLocks (clusters io optics dimms : List Nat) (s : State) :
    KeepsLocks s (execThermalLoopTick clusters io optics dimms s) := by
  simp only [execThermalLoopTick]; split <;> simp

@[simp] theorem execMonitorSweep_keepsLocks (rates : List Nat) (s : State) : KeepsLocks s (execMonitorSweep rates s) := by
  simp only [execMonitorSweep]; (repeat' split) <;> simp

@[simp] theorem execClusterGate_keepsLocks (cluster : ClusterId) (s : State) : KeepsLocks s (execClusterGate cluster s) := by
  simp only [execClusterGate]; split <;> simp

@[simp] theorem execClusterWake_keepsLocks (cluster : ClusterId) (s : State) : KeepsLocks s (execClusterWake cluster s) := by
  simp [execClusterWake]

/-! ### Security commands (chapter 15) -/

@[simp] theorem extendMr_lockFields (s : State) (i t : Nat) (d : Bytes) : lockFields (extendMr s i t d) = lockFields s := by
  simp [extendMr]

@[simp] theorem eraseSlots_lockFields (s : State) : lockFields (eraseSlots s) = lockFields s := by simp [eraseSlots]

@[simp] theorem execAttest_keepsLocks (queue : QueueId) (s : State) : KeepsLocks s (execAttest queue s) := by
  simp only [execAttest]; (repeat' split) <;> simp

@[simp] theorem setOwner_lockFields (s : State) (key : Option Bytes) (seq : Nat) :
    lockFields (setOwner s key seq) = lockFields s := by
  simp [setOwner]

@[simp] theorem execOwnerClaim_keepsLocks (queue : QueueId) (s : State) : KeepsLocks s (execOwnerClaim queue s) := by
  simp only [execOwnerClaim]; (repeat' split) <;> simp

@[simp] theorem execOwnerRotate_keepsLocks (queue : QueueId) (s : State) : KeepsLocks s (execOwnerRotate queue s) := by
  simp only [execOwnerRotate]; (repeat' split) <;> simp

@[simp] theorem setSlot_lockFields (s : State) (slot : Nat) (k : Option Bytes) :
    lockFields (setSlot s slot k) = lockFields s := by
  simp [setSlot]

@[simp] theorem setSlotSeq_lockFields (s : State) (slot n : Nat) : lockFields (setSlotSeq s slot n) = lockFields s := by
  simp [setSlotSeq]

@[simp] theorem execKeyInstall_keepsLocks (queue : QueueId) (s : State) : KeepsLocks s (execKeyInstall queue s) := by
  simp only [execKeyInstall]; (repeat' split) <;> simp

@[simp] theorem execKeyRevoke_keepsLocks (queue : QueueId) (s : State) : KeepsLocks s (execKeyRevoke queue s) := by
  simp only [execKeyRevoke]; (repeat' split) <;> simp

@[simp] theorem putEntries_lockFields (s : State) (f : Fetched) : lockFields (putEntries s f) = lockFields s := by
  simp [putEntries]

@[simp] theorem execWindowSet_keepsLocks (queue : QueueId) (s : State) : KeepsLocks s (execWindowSet queue s) := by
  simp only [execWindowSet]; (repeat' split) <;> simp

@[simp] theorem setSvc_lockFields (s : State) (st level : Nat) : lockFields (setSvc s st level) = lockFields s := by
  simp [setSvc]

@[simp] theorem lockSvc_lockFields (s : State) : lockFields (lockSvc s) = lockFields s := by
  simp only [lockSvc]; split <;> simp

@[simp] theorem execSvcUnlock_keepsLocks (queue : QueueId) (s : State) : KeepsLocks s (execSvcUnlock queue s) := by
  simp only [execSvcUnlock]; (repeat' split) <;> simp

@[simp] theorem execSvcLock_keepsLocks (queue : QueueId) (s : State) : KeepsLocks s (execSvcLock queue s) := by
  simp only [execSvcLock]; split <;> simp

@[simp] theorem execSvnCommit_keepsLocks (queue : QueueId) (s : State) : KeepsLocks s (execSvnCommit queue s) := by
  simp only [execSvnCommit]; split <;> simp

@[simp] theorem execMrExtend_keepsLocks (queue : QueueId) (s : State) : KeepsLocks s (execMrExtend queue s) := by
  simp only [execMrExtend]; (repeat' split) <;> simp

@[simp] theorem execVendorChallenge_keepsLocks (signature : Bytes) (s : State) :
    KeepsLocks s (execVendorChallenge signature s) := by
  simp only [execVendorChallenge]; (repeat' split) <;> simp

@[simp] theorem execSvcUnlockExpiry_keepsLocks (s : State) : KeepsLocks s (execSvcUnlockExpiry s) := by
  simp only [execSvcUnlockExpiry]; split <;> simp

@[simp] theorem execServiceConnectorRead_keepsLocks (which : ServiceRead) (s : State) :
    KeepsLocks s (execServiceConnectorRead which s) := by
  simp only [execServiceConnectorRead]; (repeat' split) <;> simp

@[simp] theorem execFailureLogClear_keepsLocks (s : State) : KeepsLocks s (execFailureLogClear s) := by
  simp only [execFailureLogClear]; split <;> simp

@[simp] theorem execKeyRevocationBurn_keepsLocks (key : BitVec 2) (s : State) :
    KeepsLocks s (execKeyRevocationBurn key s) := by
  simp only [execKeyRevocationBurn]; split <;> simp

/-! ### Firmware and the mailbox (chapter 16) -/

@[simp] theorem runImage_lockFields (s : State) (b : Bytes) : lockFields (runImage s b) = lockFields s := by simp [runImage]

@[simp] theorem putOut_lockFields (s : State) (p : HPort) (m : Bytes) : lockFields (putOut s p m) = lockFields s := by
  simp only [putOut]; split <;> simp

@[simp] theorem sendResponse_lockFields (s : State) (ch : Nat) (m : Bytes) :
    lockFields (sendResponse s ch m) = lockFields s := by
  simp [sendResponse, apply_ite lockFields]

@[simp] theorem respond_lockFields (s : State) (r : MbxReq) (st : Status) (fields : Bytes) :
    lockFields (respond s r st fields) = lockFields s := by
  simp [respond]

@[simp] theorem mbVerify_lockFields (s : State) (ch : Nat) (m : Bytes) : lockFields (mbVerify s ch m).1 = lockFields s := by
  simp only [mbVerify]; (repeat' split) <;> simp

@[simp] theorem mbHello_lockFields (s : State) (r : MbxReq) : lockFields (mbHello s r) = lockFields s := by simp [mbHello]

@[simp] theorem mbLoadBegin_lockFields (s : State) (r : MbxReq) : lockFields (mbLoadBegin s r) = lockFields s := by
  simp only [mbLoadBegin]; split <;> simp

@[simp] theorem mbLoadData_lockFields (s : State) (r : MbxReq) : lockFields (mbLoadData s r) = lockFields s := by
  simp only [mbLoadData]; split <;> simp

@[simp] theorem mbLoadEnd_lockFields (s : State) (r : MbxReq) : lockFields (mbLoadEnd s r) = lockFields s := by
  simp only [mbLoadEnd]; split <;> simp

@[simp] theorem useConfig_lockFields (s : State) (b : Bytes) : lockFields (useConfig s b) = lockFields s := by
  simp [useConfig]

@[simp] theorem applyConfig_lockFields (s : State) (b : Bytes) : lockFields (applyConfig s b) = lockFields s := by
  simp [applyConfig]

@[simp] theorem mbConfigSet_lockFields (s : State) (r : MbxReq) : lockFields (mbConfigSet s r) = lockFields s := by
  simp [mbConfigSet, apply_ite lockFields]

@[simp] theorem mbEventRing_lockFields (s : State) (r : MbxReq) : lockFields (mbEventRing s r) = lockFields s := by
  simp only [mbEventRing]; split <;> simp

@[simp] theorem mbCertRead_lockFields (s : State) (r : MbxReq) : lockFields (mbCertRead s r) = lockFields s := by
  simp only [mbCertRead]; split <;> simp

@[simp] theorem mbEntries_lockFields (s : State) (r : MbxReq) (log : List Bytes) (n : Nat) :
    lockFields (mbEntries s r log n) = lockFields s := by
  simp [mbEntries]

@[simp] theorem mbSensor_lockFields (s : State) (r : MbxReq) (groups : Nat → Bool) :
    lockFields (mbSensor s r groups) = lockFields s := by
  simp only [mbSensor]; split <;> simp

@[simp] theorem startEntry_lockFields (s : State) (target : BitVec 3) (byHold : Bool) (reply : Option MbxReq) :
    lockFields (startEntry s target byHold reply) = lockFields s := by
  simp [startEntry]

@[simp] theorem holdStart_lockFields (s : State) : lockFields (holdStart s) = lockFields s := by
  simp only [holdStart]; split <;> simp

@[simp] theorem enterRunState_lockFields (s : State) (st : BitVec 3) (trim : Nat) :
    lockFields (enterRunState s st trim) = lockFields s := by
  simp [enterRunState]

@[simp] theorem mbPowerReq_lockFields (s : State) (r : MbxReq) : lockFields (mbPowerReq s r) = lockFields s := by
  simp only [mbPowerReq]; (repeat' split) <;> simp

@[simp] theorem mbStage_lockFields (s : State) (r : MbxReq) : lockFields (mbStage s r) = lockFields s := by
  simp only [mbStage]; (repeat' split) <;> simp

@[simp] theorem mbVerifyImage_lockFields (s : State) (r : MbxReq) : lockFields (mbVerifyImage s r) = lockFields s := by
  simp only [mbVerifyImage]; (repeat' split) <;> simp

@[simp] theorem mbActivate_lockFields (s : State) (r : MbxReq) : lockFields (mbActivate s r) = lockFields s := by
  simp only [mbActivate]; split <;> simp

@[simp] theorem mbAbort_lockFields (s : State) (r : MbxReq) : lockFields (mbAbort s r) = lockFields s := by
  simp only [mbAbort]; split <;> simp

@[simp] theorem mbStatus_lockFields (s : State) (r : MbxReq) : lockFields (mbStatus s r) = lockFields s := by
  simp only [mbStatus]; split <;> simp

@[simp] theorem mbRun_lockFields (s : State) (r : MbxReq) : lockFields (mbRun s r) = lockFields s := by
  simp only [mbRun]; split <;> simp

@[simp] theorem mbServe_lockFields (s : State) (ch : Nat) (m : Bytes) : lockFields (mbServe s ch m) = lockFields s := by
  simp only [mbServe]; (repeat' split) <;> simp

@[simp] theorem mbPump_lockFields (s : State) (p : HPort) : lockFields (mbPump s p) = lockFields s := by
  simp only [mbPump]; split <;> simp

@[simp] theorem naServe_lockFields (s : State) (ch : Nat) (m : Bytes) : lockFields (naServe s ch m) = lockFields s := by
  simp only [naServe]; (repeat' split) <;> simp

@[simp] theorem mctpRequest_lockFields (s : State) (ch : Nat) (m : Bytes) :
    lockFields (mctpRequest s ch m) = lockFields s := by
  simp [mctpRequest, apply_ite lockFields]

@[simp] theorem mctpTake_lockFields (b : MctpBinding) (m : Bytes) (s : State) :
    lockFields (mctpTake b m s) = lockFields s := by
  simp [mctpTake, apply_ite lockFields]

@[simp] theorem execMctpControl_keepsLocks (binding : MctpBinding) (packets : List MctpPacket) (s : State) :
    KeepsLocks s (execMctpControl binding packets s) := by
  simp only [execMctpControl]; (repeat' split) <;> simp

@[simp] theorem mbArrive_lockFields (s : State) (ch : Nat) (m : Bytes) : lockFields (mbArrive s ch m) = lockFields s := by
  simp [mbArrive, apply_ite lockFields]

@[simp] theorem mbCommand_keepsLocks (t : Nat) (channel : BitVec 3) (m : Bytes) (s : State) :
    KeepsLocks s (mbCommand t channel m s) := by
  simp only [mbCommand]; split <;> simp

@[simp] theorem execHello_keepsLocks (channel : BitVec 3) (message : Bytes) (s : State) :
    KeepsLocks s (execHello channel message s) := by
  simp [execHello]

@[simp] theorem execLoadBegin_keepsLocks (channel : BitVec 3) (message : Bytes) (s : State) :
    KeepsLocks s (execLoadBegin channel message s) := by
  simp [execLoadBegin]

@[simp] theorem execLoadData_keepsLocks (channel : BitVec 3) (message : Bytes) (s : State) :
    KeepsLocks s (execLoadData channel message s) := by
  simp [execLoadData]

@[simp] theorem execLoadEnd_keepsLocks (channel : BitVec 3) (message : Bytes) (s : State) :
    KeepsLocks s (execLoadEnd channel message s) := by
  simp [execLoadEnd]

@[simp] theorem execConfigSet_keepsLocks (channel : BitVec 3) (message : Bytes) (s : State) :
    KeepsLocks s (execConfigSet channel message s) := by
  simp [execConfigSet]

@[simp] theorem execEventRingSet_keepsLocks (channel : BitVec 3) (message : Bytes) (s : State) :
    KeepsLocks s (execEventRingSet channel message s) := by
  simp [execEventRingSet]

@[simp] theorem execCertRead_keepsLocks (channel : BitVec 3) (message : Bytes) (s : State) :
    KeepsLocks s (execCertRead channel message s) := by
  simp [execCertRead]

@[simp] theorem execMlogRead_keepsLocks (channel : BitVec 3) (message : Bytes) (s : State) :
    KeepsLocks s (execMlogRead channel message s) := by
  simp [execMlogRead]

@[simp] theorem execFaillogRead_keepsLocks (channel : BitVec 3) (message : Bytes) (s : State) :
    KeepsLocks s (execFaillogRead channel message s) := by
  simp [execFaillogRead]

@[simp] theorem execSensorRead_keepsLocks (channel : BitVec 3) (message : Bytes) (s : State) :
    KeepsLocks s (execSensorRead channel message s) := by
  simp [execSensorRead]

@[simp] theorem execPowerReq_keepsLocks (channel : BitVec 3) (message : Bytes) (s : State) :
    KeepsLocks s (execPowerReq channel message s) := by
  simp [execPowerReq]

@[simp] theorem execFwuStage_keepsLocks (channel : BitVec 3) (message : Bytes) (s : State) :
    KeepsLocks s (execFwuStage channel message s) := by
  simp [execFwuStage]

@[simp] theorem execFwuVerify_keepsLocks (channel : BitVec 3) (message : Bytes) (s : State) :
    KeepsLocks s (execFwuVerify channel message s) := by
  simp [execFwuVerify]

@[simp] theorem execFwuActivate_keepsLocks (channel : BitVec 3) (message : Bytes) (s : State) :
    KeepsLocks s (execFwuActivate channel message s) := by
  simp [execFwuActivate]

@[simp] theorem execFwuAbort_keepsLocks (channel : BitVec 3) (message : Bytes) (s : State) :
    KeepsLocks s (execFwuAbort channel message s) := by
  simp [execFwuAbort]

@[simp] theorem execFwuStatus_keepsLocks (channel : BitVec 3) (message : Bytes) (s : State) :
    KeepsLocks s (execFwuStatus channel message s) := by
  simp [execFwuStatus]

@[simp] theorem putHeld_lockFields (s : State) (p : HPort) (m : Bytes) : lockFields (putHeld s p m) = lockFields s := by
  simp only [putHeld]; split <;> simp

@[simp] theorem clearDone_lockFields (p : HPort) (s : State) : lockFields (clearDone p s) = lockFields s := by
  simp only [clearDone]; split <;> simp

@[simp] theorem execMbxDoneClear_keepsLocks (port : HPort) (s : State) : KeepsLocks s (execMbxDoneClear port s) := by
  simp only [execMbxDoneClear]; split <;> simp

@[simp] theorem execLoaderPortLost_keepsLocks (port : HPort) (s : State) : KeepsLocks s (execLoaderPortLost port s) := by
  simp only [execLoaderPortLost]; (repeat' split) <;> simp

@[simp] theorem bringDram_lockFields (s : State) (spd : List (Option Dimm)) :
    lockFields (bringDram s spd) = lockFields s := by
  simp only [bringDram]; split <;> simp

@[simp] theorem markBist_lockFields (s : State) (c : Nat) : lockFields (markBist s c) = lockFields s := by
  simp [markBist, apply_ite lockFields]

@[simp] theorem execEnterConfigWait_keepsLocks (spd : List (Option Dimm)) (s : State) :
    KeepsLocks s (execEnterConfigWait spd s) := by
  simp only [execEnterConfigWait]; split <;> simp

@[simp] theorem writeHandoff_lockFields (s : State) : lockFields (writeHandoff s) = lockFields s := by simp [writeHandoff]

@[simp] theorem restoreHandoff_lockFields (s : State) (b : Bytes) : lockFields (restoreHandoff s b) = lockFields s := by
  simp only [restoreHandoff]; (repeat' split) <;> simp

@[simp] theorem loseHandoff_lockFields (s : State) : lockFields (loseHandoff s) = lockFields s := by simp [loseHandoff]

@[simp] theorem resumeOwn_lockFields (s : State) : lockFields (resumeOwn s) = lockFields s := by
  simp only [resumeOwn]; split <;> simp

@[simp] theorem resumeFw_lockFields (s : State) : lockFields (resumeFw s) = lockFields s := by
  simp [resumeFw, apply_ite lockFields]

@[simp] theorem answerActivate_lockFields (s : State) (st : Status) : lockFields (answerActivate s st) = lockFields s := by
  simp only [answerActivate]; split <;> simp

@[simp] theorem execFwuSwitch_keepsLocks (s : State) : KeepsLocks s (execFwuSwitch s) := by
  simp only [execFwuSwitch]; (repeat' split) <;> simp

@[simp] theorem execLoopHoldTimeout_keepsLocks (s : State) : KeepsLocks s (execLoopHoldTimeout s) := by
  simp only [execLoopHoldTimeout]; split <;> simp

@[simp] theorem execFwuConfirm_keepsLocks (s : State) : KeepsLocks s (execFwuConfirm s) := by
  simp only [execFwuConfirm]; split <;> simp

@[simp] theorem stopControl_lockFields (s : State) : lockFields (stopControl s) = lockFields s := by simp [stopControl]

@[simp] theorem execFwuRevert_keepsLocks (refused : Bool) (s : State) : KeepsLocks s (execFwuRevert refused s) := by
  simp only [execFwuRevert]; (repeat' split) <;> simp

@[simp] theorem execRevertRegionCopyDone_keepsLocks (s : State) : KeepsLocks s (execRevertRegionCopyDone s) := by
  simp only [execRevertRegionCopyDone]; split <;> simp

@[simp] theorem execCcWatchdog_keepsLocks (cause : WatchdogCause) (s : State) : KeepsLocks s (execCcWatchdog cause s) := by
  simp only [execCcWatchdog]; (repeat' split) <;> simp

/-! ### Registers but TOP_NODE_ID and FAB_BYPASS (chapter 20) -/

@[simp] theorem writeQueueReg_lockFields (p : HPort) (n k value : Nat) (s : State) :
    lockFields (writeQueueReg p n k value s) = lockFields s := by
  simp only [writeQueueReg]; (repeat' split) <;> simp

@[simp] theorem writeRouteCtl_lockFields (value : Nat) (s : State) : lockFields (writeRouteCtl value s) = lockFields s := by
  simp [writeRouteCtl]

@[simp] theorem writeCommBase_lockFields (value : Nat) (s : State) : lockFields (writeCommBase value s) = lockFields s := by
  simp [writeCommBase]

@[simp] theorem writeCompute_lockFields (s : State) (off value : Nat) :
    lockFields (writeCompute s off value) = lockFields s := by
  simp only [writeCompute]; split <;> simp

@[simp] theorem writeTrain_lockFields (s : State) (off value : Nat) : lockFields (writeTrain s off value) = lockFields s := by
  simp only [writeTrain]; (repeat' split) <;> simp

@[simp] theorem writeMem_lockFields (s : State) (off value : Nat) : lockFields (writeMem s off value) = lockFields s := by
  simp only [writeMem]; (repeat' split) <;> simp

@[simp] theorem writeArray_lockFields (p : HPort) (s : State) (off value : Nat) :
    lockFields (writeArray p s off value) = lockFields s := by
  simp only [writeArray]; (repeat' split) <;> simp

@[simp] theorem writeMbxCtl_lockFields (p : HPort) (value : Nat) (s : State) :
    lockFields (writeMbxCtl p value s) = lockFields s := by
  simp [writeMbxCtl, apply_ite lockFields]

@[simp] theorem writeMsix_lockFields (p : HPort) (k size value : Nat) (s : State) :
    lockFields (writeMsix p k size value s) = lockFields s := by
  simp only [writeMsix]; split <;> simp

@[simp] theorem writeBar2_lockFields (p : HPort) (off size value : Nat) (s : State) :
    lockFields (writeBar2 p off size value s) = lockFields s := by
  simp only [writeBar2]; (repeat' split) <;> simp

@[simp] theorem answerRead_lockFields (p : HPort) (bar : HostBar) (off size : Nat) (s : State) :
    lockFields (answerRead p bar off size s) = lockFields s := by
  simp [answerRead]

@[simp] theorem execBar0Read_keepsLocks (hport : HPort) (bar : HostBar) (offset : BitVec 26) (size : Nat) (s : State) :
    KeepsLocks s (execBar0Read hport bar offset size s) := by
  simp only [execBar0Read]; (repeat' split) <;> simp

/-! ### Power states and sideband inputs (chapter 17) -/

@[simp] theorem loseDies_lockFields (s : State) : lockFields (loseDies s) = lockFields s := by simp [loseDies]

@[simp] theorem disableFabric_lockFields (s : State) : lockFields (disableFabric s) = lockFields s := by simp [disableFabric]

@[simp] theorem portToL2_lockFields (s : State) (p : HPort) : lockFields (portToL2 s p) = lockFields s := by simp [portToL2]

@[simp] theorem railOff_lockFields (s : State) (target : BitVec 3) : lockFields (railOff s target) = lockFields s := by
  simp [railOff, apply_ite lockFields]

@[simp] theorem answerOpen_lockFields (s : State) (reached point : Nat) :
    lockFields (answerOpen s reached point) = lockFields s := by
  simp [answerOpen]

@[simp] theorem abandonEntry_lockFields (s : State) (e : PowerEntry) (point : Nat) :
    lockFields (abandonEntry s e point) = lockFields s := by
  simp only [abandonEntry]; split <;> simp

@[simp] theorem answerEntry_lockFields (s : State) (e : PowerEntry) (reached point : Nat) :
    lockFields (answerEntry s e reached point) = lockFields s := by
  simp only [answerEntry]; split <;> simp

@[simp] theorem setStage_lockFields (s : State) (e : PowerEntry) (k : Nat) : lockFields (setStage s e k) = lockFields s := by
  simp [setStage]

@[simp] theorem advanceEntry_lockFields (target : BitVec 3) (s : State) :
    lockFields (advanceEntry target s) = lockFields s := by
  simp only [advanceEntry]; (repeat' split) <;> simp

@[simp] theorem execClosedEntry_keepsLocks (s : State) : KeepsLocks s (execClosedEntry s) := by simp [execClosedEntry]

@[simp] theorem execParkedEntry_keepsLocks (s : State) : KeepsLocks s (execParkedEntry s) := by simp [execParkedEntry]

@[simp] theorem execQuiesceTimeout_keepsLocks (s : State) : KeepsLocks s (execQuiesceTimeout s) := by
  simp only [execQuiesceTimeout]; (repeat' split) <;> simp

@[simp] theorem execWakeOutputLimit_keepsLocks (port : HPort) (s : State) : KeepsLocks s (execWakeOutputLimit port s) := by
  simp only [execWakeOutputLimit]; (repeat' split) <;> simp

@[simp] theorem setSide_lockFields (s : State) (i : Nat) (x : SideIn) : lockFields (setSide s i x) = lockFields s := by
  simp [setSide]

@[simp] theorem sideAssert_lockFields (s : State) (i : Nat) : lockFields (sideAssert s i).1 = lockFields s := by
  simp only [sideAssert]; (repeat' split) <;> simp

@[simp] theorem sideDeassert_lockFields (s : State) (i : Nat) : lockFields (sideDeassert s i).1 = lockFields s := by
  simp only [sideDeassert]; split <;> simp

@[simp] theorem execInputHeld_keepsLocks (input : BitVec 3) (s : State) : KeepsLocks s (execInputHeld input s) := by
  simp only [execInputHeld]; (repeat' split) <;> simp

@[simp] theorem execInputUnmasked_keepsLocks (input : BitVec 3) (s : State) : KeepsLocks s (execInputUnmasked input s) := by
  simp only [execInputUnmasked]; (repeat' split) <;> simp

@[simp] theorem execSlotIdChange_keepsLocks (s : State) : KeepsLocks s (execSlotIdChange s) := by
  simp only [execSlotIdChange]; (repeat' split) <;> simp

@[simp] theorem wakeSource_lockFields (s : State) (i : Nat) : lockFields (wakeSource s i) = lockFields s := by
  simp [wakeSource, apply_ite lockFields]

@[simp] theorem execHoldNAssert_keepsLocks (s : State) : KeepsLocks s (execHoldNAssert s) := by simp [execHoldNAssert]

@[simp] theorem execHoldNDeassert_keepsLocks (s : State) : KeepsLocks s (execHoldNDeassert s) := by
  simp only [execHoldNDeassert]; split <;> simp

@[simp] theorem setBrake_lockFields (s : State) (on : Bool) : lockFields (setBrake s on) = lockFields s := by simp [setBrake]

@[simp] theorem execPwrbrkNAssert_keepsLocks (s : State) : KeepsLocks s (execPwrbrkNAssert s) := by
  simp only [execPwrbrkNAssert]; split <;> simp

@[simp] theorem execPwrbrkNDeassert_keepsLocks (s : State) : KeepsLocks s (execPwrbrkNDeassert s) := by
  simp only [execPwrbrkNDeassert]; split <;> simp

@[simp] theorem execWakeInN_keepsLocks (s : State) : KeepsLocks s (execWakeInN s) := by
  simp only [execWakeInN]; split <;> simp

/-! ### Resets and power-up (chapter 18) -/

@[simp] theorem portReset_lockFields (s : State) (p : HPort) : lockFields (portReset s p) = lockFields s := by
  simp [portReset]

@[simp] theorem countPerst_lockFields (s : State) (p : HPort) : lockFields (countPerst s p) = lockFields s := by
  simp only [countPerst]; split <;> simp

@[simp] theorem countHot_lockFields (s : State) (p : HPort) : lockFields (countHot s p) = lockFields s := by
  simp only [countHot]; split <;> simp

@[simp] theorem perstOn_lockFields (s : State) (p : HPort) : lockFields (perstOn s p) = lockFields s := by simp [perstOn]

@[simp] theorem trainFromNow_lockFields (s : State) (p : HPort) : lockFields (trainFromNow s p) = lockFields s := by
  simp only [trainFromNow]; split <;> simp

@[simp] theorem execPerstAssert_keepsLocks (port : HPort) (s : State) : KeepsLocks s (execPerstAssert port s) := by
  simp only [execPerstAssert]; split <;> simp

@[simp] theorem execPerstDeassert_keepsLocks (port : HPort) (s : State) : KeepsLocks s (execPerstDeassert port s) := by
  simp only [execPerstDeassert]; split <;> simp

@[simp] theorem execHotReset_keepsLocks (port : HPort) (s : State) : KeepsLocks s (execHotReset port s) := by
  simp only [execHotReset]; split <;> simp

@[simp] theorem levelAgain_lockFields (old s : State) (i : Nat) : lockFields (levelAgain old s i) = lockFields s := by
  simp only [levelAgain]; (repeat' split) <;> simp

@[simp] theorem bringUp_lockFields (s : State) : lockFields (bringUp s) = lockFields s := by simp [bringUp]

@[simp] theorem mayStartUp_lockFields (s : State) : lockFields (mayStartUp s) = lockFields s := by
  simp only [mayStartUp]; split <;> simp

@[simp] theorem execModuleRstNDeassert_keepsLocks (s : State) : KeepsLocks s (execModuleRstNDeassert s) := by
  simp only [execModuleRstNDeassert]; split <;> simp

@[simp] theorem execRailFailRetry_keepsLocks (s : State) : KeepsLocks s (execRailFailRetry s) := by
  simp only [execRailFailRetry]; split <;> simp

@[simp] theorem execSelftestDone_keepsLocks (fails : SelftestResult) (s : State) :
    KeepsLocks s (execSelftestDone fails s) := by
  simp only [execSelftestDone]; split <;> simp

/-! ### Wear and failures in the field (chapters 01 and 17) -/

@[simp] theorem setWear_lockFields (s : State) (d : Nat) (w : DieWear) : lockFields (setWear s d w) = lockFields s := by
  simp [setWear]

@[simp] theorem execWearReading_keepsLocks (pairs : List (List (Nat × Nat))) (s : State) :
    KeepsLocks s (execWearReading pairs s) := by
  simp only [execWearReading]; split <;> simp

@[simp] theorem withdrawPoint_lockFields (die : Nat) (s : State) (_q : Nat) :
    lockFields (withdrawPoint die s _q) = lockFields s := by
  simp only [withdrawPoint]; split <;> simp

@[simp] theorem execReplan_keepsLocks (die : BitVec 2) (reading tj : Nat) (s : State) :
    KeepsLocks s (execReplan die reading tj s) := by
  simp only [execReplan]; (repeat' split) <;> simp

@[simp] theorem execUnitFails_keepsLocks (unit : FailedUnit) (s : State) : KeepsLocks s (execUnitFails unit s) := by
  simp only [execUnitFails]; (repeat' split) <;> simp

/-! ### Counter waits (chapter 11) -/

@[simp] theorem releaseCore_keepsLocks (c : CoreId) (host : List HostLine) (d : Bytes) (s : State) :
    KeepsLocks s (releaseCore c host d s) := by
  simp only [releaseCore]; (repeat' split) <;> simp

@[simp] theorem releaseIo_keepsLocks (loc : OpLoc) (host : List HostLine) (d : Bytes) (s : State) :
    KeepsLocks s (releaseIo loc host d s) := by
  simp only [releaseIo]
  (repeat' split) <;> try simp
  cases h : (List.range 7).find? (fun k => collRow k d) <;> simp

@[simp] theorem execCounterWaitRelease_keepsLocks (loc : OpLoc) (host : List HostLine) (s : State) :
    KeepsLocks s (execCounterWaitRelease loc host s) := by
  simp only [execCounterWaitRelease]; (repeat' split) <;> simp

end Sys2Proof.Laws
end

section
/-! PROOFS. Locked fields hold until the next module reset (R16, R571, R600). The operations that reach TOP_NODE_ID, FAB_BYPASS
or a loss of the fabric's state hold the locks; every other command keeps the fields by the section before. -/

namespace Sys2Proof.Laws

open Sys2Proof Sys2Proof.Machine

/-! ## Locks held (R16, R571, R600) -/

/-- What a lock governs stays as it is, and so does the lock. -/
def LocksHold (s t : State) : Prop :=
  (s.fab.nodeLock = true → t.fab.nodeLock = true ∧ t.fab.nodeId = s.fab.nodeId) ∧
  (s.fab.bypLock = true → t.fab.bypLock = true ∧ t.fab.designate = s.fab.designate)

variable {s t u : State}

theorem lockFields_eq_iff : lockFields t = lockFields s ↔
    t.fab.nodeId = s.fab.nodeId ∧ t.fab.nodeLock = s.fab.nodeLock ∧ t.fab.designate = s.fab.designate ∧
    t.fab.bypLock = s.fab.bypLock := by
  simp only [lockFields, Prod.mk.injEq]

theorem LocksHold.of_eq (h : lockFields t = lockFields s) : LocksHold s t := by
  obtain ⟨hid, hlock, hdes, hbyp⟩ := lockFields_eq_iff.mp h
  exact ⟨fun hl => ⟨hlock.trans hl, hid⟩, fun hl => ⟨hbyp.trans hl, hdes⟩⟩

theorem LocksHold.trans (h : LocksHold s t) (k : LocksHold t u) : LocksHold s u := by
  refine ⟨fun hl => ?_, fun hl => ?_⟩
  · obtain ⟨hlock, hid⟩ := h.1 hl
    exact ⟨(k.1 hlock).1, (k.1 hlock).2.trans hid⟩
  · obtain ⟨hlock, hdes⟩ := h.2 hl
    exact ⟨(k.2 hlock).1, (k.2 hlock).2.trans hdes⟩

/-- An update that keeps the fields, behind one that holds the locks. -/
theorem LocksHold.then_eq (h : LocksHold s t) (k : lockFields u = lockFields t) : LocksHold s u := h.trans (.of_eq k)

theorem LocksHold.ite (c : Prop) [Decidable c] (h : LocksHold s t) (k : LocksHold s u) : LocksHold s (if c then t else u) := by
  split <;> assumption

theorem LocksHold.foldl {α : Type} {f : State → α → State} (h : ∀ s x, LocksHold s (f s x)) (l : List α) (s : State) :
    LocksHold s (l.foldl f s) :=
  List.foldlRecOn l f (.of_eq rfl) fun x hx a _ => hx.trans (h x a)

/-! ### Registers -/

/-- A write of TOP_NODE_ID that R600 lets through. -/
theorem writeNodeId_lockFields {v : Nat} (hlock : s.fab.nodeLock = false)
    (hid : ¬(0xFFF0 ≤ bits v 0 16 ∧ bits v 0 16 ≤ 0xFFFE)) :
    lockFields (writeNodeId v s) = (BitVec.ofNat 16 (bits v 0 16), bit v 31, s.fab.designate, s.fab.bypLock) := by
  simp only [writeNodeId, hlock, hid, decide_false, Bool.or_self, Bool.false_eq_true, if_false]
  rw [settleFab_lockFields, foldl_lockFields]
  · rfl
  · intro x p; split <;> simp

theorem writeNodeId_of_locked (v : Nat) (h : s.fab.nodeLock = true) : writeNodeId v s = s := by simp [writeNodeId, h]

theorem writeNodeId_of_reserved {v : Nat} (h : 0xFFF0 ≤ bits v 0 16 ∧ bits v 0 16 ≤ 0xFFFE) : writeNodeId v s = s := by
  simp [writeNodeId, h]

theorem writeNodeId_locksHold (v : Nat) (s : State) : LocksHold s (writeNodeId v s) := by
  by_cases hlock : s.fab.nodeLock = true
  · rw [writeNodeId_of_locked v hlock]; exact .of_eq rfl
  by_cases hid : 0xFFF0 ≤ bits v 0 16 ∧ bits v 0 16 ≤ 0xFFFE
  · rw [writeNodeId_of_reserved hid]; exact .of_eq rfl
  · have h := writeNodeId_lockFields (by simpa using hlock) hid
    simp only [lockFields, Prod.mk.injEq] at h
    obtain ⟨-, -, hdes, hbyp⟩ := h
    exact ⟨fun hl => absurd hl hlock, fun hl => ⟨hbyp.trans hl, hdes⟩⟩

theorem writeBypass_lockFields (v : Nat) (s : State) : lockFields (writeBypass v s) =
    (s.fab.nodeId, s.fab.nodeLock, if s.fab.bypLock then s.fab.designate else BitVec.ofNat 8 (bits v 0 8),
      s.fab.bypLock || bit v 31) := by
  simp only [writeBypass]
  rw [settleFab_lockFields, foldl_lockFields]
  · rfl
  · intro x i; split <;> simp

theorem writeBypass_locksHold (v : Nat) (s : State) : LocksHold s (writeBypass v s) := by
  have h := writeBypass_lockFields v s
  simp only [lockFields, Prod.mk.injEq] at h
  obtain ⟨hid, hlock, hdes, hbyp⟩ := h
  exact ⟨fun hl => ⟨hlock.trans hl, hid⟩, fun hl => by simp [hdes, hbyp, hl]⟩

theorem hostSetup_locksHold {act : State → State} (h : ∀ x, LocksHold x (act x)) (s : State) (p : HPort) (off size v : Nat) :
    LocksHold s (hostSetup s p off size v act) := by
  simp only [hostSetup]; split
  · exact h s
  · exact .of_eq (holdAccess_lockFields ..)
  · exact .of_eq rfl

theorem writeOther_locksHold (s : State) (off v : Nat) : LocksHold s (writeOther s off v) := by
  simp only [writeOther]; split
  case h_1 => exact writeNodeId_locksHold v s
  case h_5 => exact writeBypass_locksHold v s
  all_goals exact .of_eq (by simp)

theorem writeReg_locksHold (p : HPort) (off size v : Nat) (s : State) : LocksHold s (writeReg p off size v s) := by
  simp only [writeReg]; split
  · exact .of_eq rfl
  · refine .ite _ (.of_eq rfl) (.ite _ (.of_eq ?_) (.ite _ (.of_eq ?_) (.ite _ (.of_eq ?_) (.ite _ (.of_eq ?_) ?_))))
    case refine_5 => exact writeOther_locksHold s off _
    all_goals simp

/-! ### Held accesses and the exits from Closed and Parked -/

theorem serveHeld_locksHold (s : State) (h : HeldAccess) : LocksHold s (serveHeld s h) := by
  cases h with
  | write p off size v =>
    simp only [serveHeld]; split
    · exact writeReg_locksHold p off size v s
    · exact .of_eq rfl
  | _ => simp only [serveHeld]; split <;> exact .of_eq (by simp)

theorem openAgain_locksHold (s : State) : LocksHold s (openAgain s) := by
  unfold openAgain
  extract_lets p ceil s1 s2
  have opened : lockFields s1 = lockFields s := by simp [s1]
  have served : LocksHold s1 s2 := .foldl serveHeld_locksHold _ _
  exact ((LocksHold.of_eq opened).trans served).then_eq (by simp)

/-! ### Losses of power that are no module reset -/

theorem keepLocks_locksHold (s t : State) : LocksHold s (keepLocks s t) := by
  refine ⟨fun h => ?_, fun h => ?_⟩ <;> simp [keepLocks, h]

theorem railsOff_locksHold (s : State) : LocksHold s (railsOff s) :=
  (keepLocks_locksHold s (freshState (quietPins s false) false)).then_eq (lockFields_mk ..)

theorem trip_locksHold (s : State) (kind : Nat) (st : Status) : LocksHold s (trip s kind st) :=
  (LocksHold.of_eq (logFailure_lockFields ..)).trans ((railsOff_locksHold _).then_eq (lockFields_mk ..))

/-! ### Module resets clear the locks -/

@[simp] theorem freshState_lockFields (s : State) (keep : Bool) : lockFields (freshState s keep) = lockFields State.reset := rfl

@[simp] theorem moduleReset_lockFields (s : State) (cause : BitVec 3) (keep tripOver : Bool) :
    lockFields (moduleReset s cause keep tripOver) = lockFields State.reset := by
  simp [moduleReset]

theorem unlocked_of_reset (h : lockFields t = lockFields State.reset) : t.fab.nodeLock = false ∧ t.fab.bypLock = false := by
  obtain ⟨-, hlock, -, hbyp⟩ := lockFields_eq_iff.mp h
  exact ⟨hlock, hbyp⟩

/-! ### Every command -/

/-- The commands that may write TOP_NODE_ID or FAB_BYPASS, or that lose the state that holds them: register writes, the exits
that serve held accesses, and losses of power. -/
def reachesLocks : Instr → Bool
  | .registerWrite .. | .topNodeId .. | .fabBypass .. | .closedExit .. | .parkedExit .. | .thermalTrip .. | .inputTrip .. |
    .vaoLoss .. | .railFail .. | .moduleRstNAssert .. | .powerOn .. | .inputTripRecovery .. => true
  | _ => false

theorem exec_keepsLocks {c : Instr} (s : State) (h : reachesLocks c = false) : KeepsLocks s (exec c s) := by
  cases c
  case registerWrite | topNodeId | fabBypass | closedExit | parkedExit | thermalTrip | inputTrip | vaoLoss | railFail |
    moduleRstNAssert | powerOn | inputTripRecovery => cases h
  case veNop | mov | cns | lid | lds | sts | gth | sct | sca | fadd | fsub | fmul | ffma | fmnx | fsgn | frcp | frsq | fsqt |
    fdiv | fexp | flog | fsig | cvt | iadd | isub | imul | ilog | ishf | imnx | fcmp | icmp | sel | kop | shf | rup | rug |
    smn | smb | nrm | rng =>
    simp [exec, execVeNop, execMov, execCns, execLid, execLds, execSts, execGth, execSct, execSca, execFadd, execFsub,
      execFmul, execFfma, execFmnx, execFsgn, execFrcp, execFrsq, execFsqt, execFdiv, execFexp, execFlog, execFsig, execCvt,
      execIadd, execIsub, execImul, execIlog, execIshf, execImnx, execFcmp, execIcmp, execSel, execKop, execShf, execRup,
      execRug, execSmn, execSmb, execNrm, execRng]
  all_goals simp [exec]

/-- The next state that a command answers, if any, holds the locks. -/
def HoldsLocks (s : State) (r : Res) : Prop := ∀ t, r = .next t → LocksHold s t

theorem holdsLocks_next (h : LocksHold s t) : HoldsLocks s (.next t) := fun _ hu => by cases hu; exact h

theorem execRegisterWrite_holdsLocks (p : HPort) (bar : HostBar) (off : BitVec 26) (size : Nat) (v : BitVec 64) (s : State) :
    HoldsLocks s (execRegisterWrite p bar off size v s) := by
  refine holdsLocks_next ?_
  cases bar with
  | bar0 => exact hostSetup_locksHold (writeReg_locksHold _ _ _ _) ..
  | bar2 => exact .ite _ (.of_eq (by simp)) (.of_eq rfl)

theorem execTopNodeId_holdsLocks (p : HPort) (v : BitVec 32) (s : State) : HoldsLocks s (execTopNodeId p v s) :=
  holdsLocks_next (hostSetup_locksHold (writeNodeId_locksHold _) ..)

theorem execFabBypass_holdsLocks (p : HPort) (v : BitVec 32) (s : State) : HoldsLocks s (execFabBypass p v s) :=
  holdsLocks_next (hostSetup_locksHold (writeBypass_locksHold _) ..)

theorem execClosedExit_holdsLocks (s : State) : HoldsLocks s (execClosedExit s) := by
  simp only [execClosedExit]; split
  · exact holdsLocks_next ((openAgain_locksHold s).then_eq (by simp))
  · exact holdsLocks_next (.of_eq rfl)

theorem execParkedExit_holdsLocks {loaded : Bool} {s : State} (h : (loaded && parkedGood s) = true ∨ exitDue s 4 = false) :
    HoldsLocks s (execParkedExit loaded s) := by
  unfold execParkedExit
  by_cases due : exitDue s 4 = true
  · have good : (loaded && parkedGood s) = true := h.resolve_right (by simpa using due)
    rw [if_pos due, if_pos good]
    extract_lets s0 fw s1 s2 s3
    have opened : LocksHold s s1 := (LocksHold.of_eq (by simp [s0])).trans (openAgain_locksHold _)
    exact holdsLocks_next (opened.then_eq (by simp [s3, s2]))
  · rw [if_neg due]; exact holdsLocks_next (.of_eq rfl)

theorem execThermalTrip_holdsLocks (s : State) : HoldsLocks s (execThermalTrip s) := by
  simp only [execThermalTrip]; split
  · exact holdsLocks_next ((trip_locksHold s 6 (unnamed 4)).then_eq (by simp [apply_ite lockFields]))
  · exact holdsLocks_next (.of_eq rfl)

theorem execInputTrip_holdsLocks (s : State) : HoldsLocks s (execInputTrip s) := by
  simp only [execInputTrip]; split
  · exact holdsLocks_next (.of_eq rfl)
  · exact holdsLocks_next ((trip_locksHold s 7 (unnamed 5)).then_eq (by simp))

theorem execVaoLoss_holdsLocks (s : State) : HoldsLocks s (execVaoLoss s) := by
  simp only [execVaoLoss]; split
  · exact holdsLocks_next (.of_eq rfl)
  · exact holdsLocks_next ((keepLocks_locksHold s _).then_eq (lockFields_mk ..))

theorem execRailFail_holdsLocks (rail : BitVec 3) (s : State) : HoldsLocks s (execRailFail rail s) := by
  simp only [execRailFail]; split
  · have logged : LocksHold s (raiseEvent (logFailure s 8 .railFail rail.toNat 0) .railFail 0 0) := .of_eq (by simp)
    exact holdsLocks_next ((logged.trans (railsOff_locksHold _)).then_eq (by simp))
  · exact holdsLocks_next (.of_eq rfl)

/-- R16: a command that is no module reset of R571 leaves each lock and what it governs. -/
theorem exec_locksHold {c : Instr} (hc : exec c s = .next t) (hrst : ∀ kept, c ≠ .moduleRstNAssert kept)
    (hpow : ∀ slot, c ≠ .powerOn slot) (hrec : c ≠ .inputTripRecovery)
    (hexit : ∀ loaded, c = .parkedExit loaded → (loaded && parkedGood s) = true ∨ exitDue s 4 = false) : LocksHold s t := by
  by_cases hreach : reachesLocks c = false
  · exact .of_eq (exec_keepsLocks s hreach t hc)
  cases c
  case registerWrite p bar off size v => exact execRegisterWrite_holdsLocks p bar off size v s t hc
  case topNodeId p v => exact execTopNodeId_holdsLocks p v s t hc
  case fabBypass p v => exact execFabBypass_holdsLocks p v s t hc
  case closedExit => exact execClosedExit_holdsLocks s t hc
  case parkedExit loaded => exact execParkedExit_holdsLocks (hexit loaded rfl) t hc
  case thermalTrip => exact execThermalTrip_holdsLocks s t hc
  case inputTrip => exact execInputTrip_holdsLocks s t hc
  case vaoLoss => exact execVaoLoss_holdsLocks s t hc
  case railFail rail => exact execRailFail_holdsLocks rail s t hc
  case moduleRstNAssert kept => exact absurd rfl (hrst kept)
  case powerOn slot => exact absurd rfl (hpow slot)
  case inputTripRecovery => exact absurd rfl hrec
  all_goals exact absurd rfl hreach

/-! ### Single writes and resets -/

theorem gives_topNodeId {p : HPort} {P : State → Prop} (hs : hostPath s p = .served) (v : BitVec 32)
    (h : P (writeNodeId v.toNat s)) : Gives (.topNodeId p v) s P :=
  ⟨_, rfl, by simpa only [hostSetup, hs] using h⟩

theorem gives_fabBypass {p : HPort} {P : State → Prop} (hs : hostPath s p = .served) (v : BitVec 32)
    (h : P (writeBypass v.toNat s)) : Gives (.fabBypass p v) s P :=
  ⟨_, rfl, by simpa only [hostSetup, hs] using h⟩

theorem bits_low (v : Nat) : bits v 0 16 = v % 65536 := rfl

theorem bit_eq_getLsbD (v : BitVec 32) (i : Nat) : bit v.toNat i = v.getLsbD i := rfl

theorem writeNodeId_locks {v : BitVec 32} (hlock : s.fab.nodeLock = false) (h31 : v.getLsbD 31 = true)
    (hid : ¬(0xFFF0 ≤ v.toNat % 65536 ∧ v.toNat % 65536 ≤ 0xFFFE)) :
    (writeNodeId v.toNat s).fab.nodeId = v.setWidth 16 ∧ (writeNodeId v.toNat s).fab.nodeLock = true := by
  have h := writeNodeId_lockFields hlock (by rwa [bits_low])
  simp only [lockFields, Prod.mk.injEq] at h
  obtain ⟨hnode, hset, -, -⟩ := h
  refine ⟨hnode.trans ?_, hset.trans ((bit_eq_getLsbD v 31).trans h31)⟩
  apply BitVec.eq_of_toNat_eq
  simp [bits_low]

/-- With node id 0xFFFF no port carries packets (R39, R600). -/
theorem portCarries_of_unassigned (h : s.fab.nodeId = 0xFFFF) (n : Nat) : portCarries s n = false := by
  simp [portCarries, h]

/-! ### FAB_BYPASS on a quiet fabric -/

theorem smGet_map {α β : Type} {d : α} (g : α → β) (m : List (Nat × α)) (k : Nat) :
    smGet (g d) (m.map (fun q => (q.1, g q.2))) k = g (smGet d m k) := by
  induction m with
  | nil => rfl
  | cons q m ih => simp only [List.map_cons, smGet, ih]; split <;> rfl

theorem runLoop_of_empty (k : Nat) (h : s.fab.loop = []) : runLoop k s = s := by
  cases k <;> simp [runLoop, h]

theorem moveOn_of_empty (k : Nat) (hloop : s.fab.loop = []) (hheld : s.fab.held = []) : moveOn k s = s := by
  cases k <;> simp [moveOn, runLoop_of_empty _ hloop, hheld]

theorem settleOps_of_idle (h : FabIdle s) : settleOps s = s := by
  refine List.foldlRecOn (motive := fun x => x = s) _ _ rfl ?_
  rintro x rfl o ho
  obtain ⟨hmem, hop⟩ := List.mem_filter.mp ho
  have busy : fabBusy x o.owner = true := by
    obtain h42 | ⟨t, ht, hown⟩ := h.ops o hmem
    · simp [h42] at hop
    · simp only [fabBusy, Bool.or_eq_true, List.any_eq_true, beq_iff_eq]
      exact .inl (.inl ⟨t, ht, hown⟩)
  rw [if_pos busy]

theorem finishColl_of_open (h : ∀ c ∈ s.coll.colls, c.closed = false) (id : Nat) : finishColl s id = s := by
  simp only [finishColl]; split
  · rfl
  · next c hc =>
    have hopen : c.closed = false := h c (List.mem_of_find?_eq_some hc)
    simp [collDone, hopen]

theorem settleColls_of_quiet (h : FabQuiet s) : settleColls s = s := by
  have replayed : replayDue s = s := by
    have none_due : s.coll.colls.filter (fun c => c.closed && s.coll.early.any (fun e =>
        earlyComm e == coComm c.desc && earlySeq e == coSeq c.desc % 65536)) = [] :=
      List.filter_eq_nil_iff.mpr fun c hc => by simp [h.colls c hc]
    simp only [replayDue, none_due, List.foldl_nil]
  have finished : finishColls s = s :=
    List.foldlRecOn (motive := fun x => x = s) _ _ rfl fun x hx id _ => hx ▸ finishColl_of_open h.colls id
  simp [settleColls, replayed, finished, h.idle.fired, startWaiting]

/-- Where nothing waits in the fabric, settling it changes nothing. -/
theorem settleFab_of_quiet (h : FabQuiet s) : settleFab s = s := by
  have turned : settleAllFired s = s := by
    simp [settleAllFired, h.idle.fired, settleFired, endWindowSet, h.idle.windowSet]
  simp [settleFab, moveOn_of_empty _ h.idle.loop h.idle.held, settleOps_of_idle h.idle, h.idle.fired, settleTurns,
    settleColls_of_quiet h, turned]

/-- A fabric on which nothing waits, with its ports in the form that a state keeps them in. -/
structure FabStill (s : State) : Prop where
  quiet : FabQuiet s
  ports : keysRise s.fab.ports = true

theorem FabStill.setFab (h : FabStill s) (p : Nat) {x : FabPortState} (hx : x.queue = []) : FabStill (setFab s p x) := by
  obtain ⟨⟨hi, hc⟩, hp⟩ := h
  refine ⟨⟨⟨fun k => ?_, hi.posts, hi.loop, hi.held, hi.windowSet, hi.tags, hi.ops, hi.fired⟩, hc⟩, keysRise_smSet hp⟩
  by_cases hk : k = p
  · subst hk; exact (congrArg FabPortState.queue (get_set_self hp)).trans hx
  · exact (congrArg FabPortState.queue (get_set_other hp hk)).trans (hi.queues k)

theorem FabStill.emit (h : FabStill s) (o : Output) : FabStill (emit s o) := by
  obtain ⟨⟨hi, hc⟩, hp⟩ := h
  exact ⟨⟨⟨hi.queues, hi.posts, hi.loop, hi.held, hi.windowSet, hi.tags, hi.ops, hi.fired⟩, hc⟩, hp⟩

theorem FabStill.enterPort (h : FabStill s) (p : Nat) (st : BitVec 3) : FabStill (enterPort s p st) := by
  refine FabStill.emit (FabStill.setFab h p ?_) _
  exact h.quiet.idle.queues p

theorem FabStill.forgetSource (h : FabStill s) (p : Nat) : FabStill (forgetSource s p) := by
  obtain ⟨⟨hi, hc⟩, hp⟩ := h
  refine ⟨⟨⟨fun k => ?_, ?_, ?_, ?_, hi.windowSet, hi.tags, hi.ops, hi.fired⟩, hc⟩, keysRise_map _ hp⟩
  · have hread := smGet_map (d := FabPortState.reset) (fun x : FabPortState =>
      { x with queue := x.queue.map (fun o : OutPkt => { o with src := o.src.map (notOf p) }) }) s.fab.ports k
    exact (congrArg FabPortState.queue hread).trans (congrArg (List.map _) (hi.queues k))
  · simp [Machine.forgetSource, hi.posts]
  · simp [Machine.forgetSource, hi.loop]
  · simp [Machine.forgetSource, hi.held]

theorem FabStill.leaveUp (h : FabStill s) (p : Nat) (st : BitVec 3) : FabStill (leaveUp s p st) := by
  simp only [Machine.leaveUp, h.quiet.idle.queues p, flushQueue]
  refine FabStill.setFab (FabStill.enterPort (FabStill.setFab h p ?_) p st) p ?_ <;> rfl

theorem FabStill.disablePort (h : FabStill s) (p : Nat) : FabStill (disablePort s p) := by
  simp only [Machine.disablePort]; (repeat' split)
  · exact h
  · exact (h.forgetSource p).leaveUp p 0
  · exact h.enterPort p 0

/-- What waits in the fabric does not depend on the bypass fields. -/
theorem FabStill.setBypass (h : FabStill s) (designate hold joined : BitVec 8) (bypLock : Bool) :
    FabStill { s with fab := { s.fab with designate, hold, joined, bypLock } } := by
  obtain ⟨⟨hi, hc⟩, hp⟩ := h
  exact ⟨⟨⟨hi.queues, hi.posts, hi.loop, hi.held, hi.windowSet, hi.tags, hi.ops, hi.fired⟩, hc⟩, hp⟩

theorem FabStill.joinPair (h : FabStill s) (i : Nat) : FabStill (joinPair s i) :=
  ((h.disablePort (2 * i)).disablePort (2 * i + 1)).setBypass _ _ _ _

theorem flushQueue_keeps (s : State) (p : Nat) (l : List OutPkt) : Keeps outParts s (flushQueue s p l) := by
  induction l with
  | nil => exact setFab_keeps s p _
  | cons o os ih => exact ih.trans (losePkt_keeps (fun x => (setFabState_keeps x _).mono (by decide)) _ _)

theorem enterPort_keeps (s : State) (p : Nat) (st : BitVec 3) : Keeps outParts s (enterPort s p st) :=
  (setFab_keeps s p _).trans (emitOut_keeps _ _)

theorem disablePort_keeps (s : State) (p : Nat) : Keeps outParts s (disablePort s p) := by
  simp only [disablePort]; (repeat' split)
  · exact .refl _ s
  · exact ((setFabState_keeps s _).mono (by decide)).trans
      (((setFab_keeps _ p _).trans (enterPort_keeps _ p 0)).trans (flushQueue_keeps _ p _))
  · exact enterPort_keeps s p 0

theorem joinPair_keeps (s : State) (i : Nat) : Keeps outParts s (joinPair s i) :=
  ((disablePort_keeps s _).trans (disablePort_keeps _ _)).trans ((setFabState_keeps _ _).mono (by decide))

/-- On a quiet fabric a write of FAB_BYPASS raises no error (R16, R439). -/
theorem writeBypass_err (v : Nat) (hs : Sound s) (hq : FabQuiet s) : (writeBypass v s).err = s.err := by
  unfold writeBypass
  extract_lets f hold s1
  have start : FabStill s1 ∧ Keeps outParts s s1 :=
    ⟨FabStill.setBypass ⟨hq, hs.ports⟩ _ _ _ _, (setFabState_keeps s _).mono (by decide)⟩
  have joined := List.foldlRecOn (motive := fun x => FabStill x ∧ Keeps outParts s x) (List.range 8)
    (fun x i => if hold.getLsbD i && !(x.fab.joined.getLsbD i) then joinPair x i else x) start
    (fun x hx i _ => by
      split
      · exact ⟨hx.1.joinPair i, hx.2.trans (joinPair_keeps x i)⟩
      · exact hx)
  rw [settleFab_of_quiet joined.1.quiet]
  exact joined.2 .err (by decide)

theorem writeBypass_locks (v : BitVec 32) (s : State) :
    (writeBypass v.toNat s).fab.designate = (if s.fab.bypLock then s.fab.designate else v.extractLsb' 0 8) ∧
    (v.getLsbD 31 = true → (writeBypass v.toNat s).fab.bypLock = true) := by
  have h := writeBypass_lockFields v.toNat s
  simp only [lockFields, Prod.mk.injEq] at h
  obtain ⟨-, -, hdes, hbyp⟩ := h
  refine ⟨hdes.trans ?_, fun h31 => by simp [hbyp, bit_eq_getLsbD, h31]⟩
  have low : BitVec.ofNat 8 (bits v.toNat 0 8) = v.extractLsb' 0 8 := by
    apply BitVec.eq_of_toNat_eq
    simp [bits]
  rw [low]

/-! ### Module resets of R571 -/

theorem sideAssert_effect {i : Nat} (ha : (sideIn s i).asserted = false) (hm : (sideIn s i).masked = false)
    (hn : sideSoon s (sideIn s i) = false) (hsup : s.rst.supply ≠ .off) : (sideAssert s i).2 = true := by
  simp [sideAssert, ha, hm, hn, hsup]

theorem supply_of_served {p : HPort} (h : hostPath s p = .served) : s.rst.supply = .on := by
  by_contra hsup
  simp [hostPath, hsup] at h

theorem moduleRstNAssert_unlocks (kept : Bool) (h : (sideAssert s 5).2 = true) :
    Gives (.moduleRstNAssert kept) s fun t => t.fab.nodeLock = false ∧ t.fab.bypLock = false := by
  simp only [Gives, exec, execModuleRstNAssert, h, if_true]
  exact ⟨_, rfl, unlocked_of_reset (by simp)⟩

theorem powerOn_unlocks (slot : BitVec 4) (h : s.rst.supply = .off) :
    Gives (.powerOn slot) s fun t => t.fab.nodeLock = false ∧ t.fab.bypLock = false := by
  simp only [Gives, exec, execPowerOn, h, if_true]
  exact ⟨_, rfl, unlocked_of_reset (by simp)⟩

/-- Settles O7. Under every command the locked fields are untouched, or move through TOP_NODE_ID and FAB_BYPASS, which look at
the lock, or through `keepLocks`; only the module resets of R571 start from the reset values. -/
theorem locksHoldUntilModuleReset : Obligations.LocksHoldUntilModuleReset := by
  unfold Obligations.LocksHoldUntilModuleReset
  refine ⟨fun _ _ _ => exec_locksHold, fun p s hs => ⟨?_, ?_, ?_, ?_, ?_, ?_, ?_⟩⟩
  · exact fun v hlock => gives_topNodeId hs v (writeNodeId_of_locked _ hlock)
  · intro v hlock h31 hid
    obtain ⟨hnode, hset⟩ := writeNodeId_locks hlock h31 hid
    refine gives_topNodeId hs v ⟨hnode, hset, fun hv => portCarries_of_unassigned (hnode.trans ?_)⟩
    exact BitVec.eq_of_toNat_eq (by simpa using hv)
  · exact fun v hlo hhi => gives_topNodeId hs v (writeNodeId_of_reserved ⟨hlo, hhi⟩)
  · exact fun hlock => gives_topNodeId hs _ (writeNodeId_locks hlock (by decide) (by decide))
  · intro v hsound hquiet
    exact gives_fabBypass hs v ⟨writeBypass_err _ hsound hquiet, writeBypass_locks v s⟩
  · intro kept ha hm hn
    exact moduleRstNAssert_unlocks kept (sideAssert_effect ha hm hn (by simp [supply_of_served hs]))
  · exact fun slot => powerOn_unlocks slot rfl

end Sys2Proof.Laws
end

section
/-! PROOFS. Offsets of BAR0 and BAR2 that hold nothing (R13). -/

namespace Sys2Proof.Laws

open Sys2Proof Sys2Proof.Machine

/-! ## Unimplemented offsets (R13) -/

theorem leBytes_zero (n : Nat) : leBytes n 0 = zeroBytes n := by
  induction n with
  | zero => rfl
  | succ n ih => simp [leBytes, ih, zeroBytes, List.replicate_succ]

theorem inBuf_eq_none {off base len : Nat} (h : ¬(base ≤ off ∧ off < base + len)) : inBuf off base len = none := if_neg h

theorem readReg_of_unimplemented {off : Nat} (h : setupReg s off = none) (size : Nat) : readReg s off size = 0 := by
  simp [readReg, h]

theorem writeReg_of_unimplemented (p : HPort) {off : Nat} (h : setupReg s off = none) (size v : Nat) :
    writeReg p off size v s = s := by
  simp [writeReg, h]

/-- The ranges of BAR2 behind its first two registers: the mailbox's two buffers, the MSI-X table and the pending bits (R480,
R524). -/
def bar2Ranges : List (Nat × Nat) := [(0x010000, 4096), (0x020000, 4096), (0x100000, 4096), (0x101000, 32)]

section Bar2
variable {off : Nat} (hctl : off ≠ 0x1000) (hbuf : ∀ b ∈ bar2Ranges, ¬(b.1 ≤ off ∧ off < b.1 + b.2))
include hctl hbuf

theorem readBar2_of_unimplemented (s : State) (p : HPort) (size : Nat) : readBar2 s p off size = 0 := by
  simp only [bar2Ranges, List.forall_mem_cons] at hbuf
  obtain ⟨hin, hout, hmsix, hpba, -⟩ := hbuf
  simp [readBar2, hctl, inBuf_eq_none hin, inBuf_eq_none hout, inBuf_eq_none hmsix, inBuf_eq_none hpba]

theorem writeBar2_of_unimplemented (h0 : off ≠ 0) (p : HPort) (size v : Nat) (s : State) : writeBar2 p off size v s = s := by
  simp only [bar2Ranges, List.forall_mem_cons] at hbuf
  obtain ⟨hin, -, hmsix, -, -⟩ := hbuf
  simp [writeBar2, h0, hctl, inBuf_eq_none hin, inBuf_eq_none hmsix]

end Bar2

/-- Settles O24. An offset that no register, no array and no buffer claims reads as the value 0 and has no write. -/
theorem unimplementedOffsetsReadZero : Obligations.UnimplementedOffsetsReadZero := by
  unfold Obligations.UnimplementedOffsetsReadZero
  intro p off size v s hs none2 bar hbar
  cases bar with
  | bar0 =>
    have hnone : setupReg s off.toNat = none := by simpa using hbar
    refine ⟨⟨_, rfl, ?_⟩, ⟨_, rfl, ?_⟩⟩
    · simp only [hs, answerRead, readReg_of_unimplemented hnone, leBytes_zero, Machine.emit]
    · simp only [hostSetup, hs, writeReg_of_unimplemented p hnone]
  | bar2 =>
    obtain ⟨h0, hctl, hbuf⟩ : none2 := by simpa using hbar
    have h0' : off.toNat ≠ 0 := fun h => h0 (BitVec.eq_of_toNat_eq h)
    have hctl' : off.toNat ≠ 0x1000 := fun h => hctl (BitVec.eq_of_toNat_eq h)
    have hopen : bar2Open s p = true := by simp [bar2Open, hs]
    refine ⟨⟨_, rfl, ?_⟩, ⟨_, rfl, ?_⟩⟩
    · simp only [hopen, if_true, answerRead, readBar2_of_unimplemented hctl' hbuf, leBytes_zero, Machine.emit]
    · simp only [hopen, if_true, writeBar2_of_unimplemented hctl' hbuf h0']

end Sys2Proof.Laws
end

section
/-! PROOFS. Growth of the failure log (R591, R592): what it means that entries are only appended, how that claim passes through
updates and folds, and what `logFailure` writes. -/

namespace Sys2Proof.Laws

open Sys2Proof Sys2Proof.Machine

/-! ## Growth of the failure log -/

/-- The second log is the first with entries appended: each is 64 bytes long, bears its own place as its seq, and finds
less than 8,192 entries before it (R591). -/
inductive LogGrew (l : List Bytes) : List Bytes → Prop
  | refl : LogGrew l l
  | snoc {m : List Bytes} {e : Bytes} : LogGrew l m → m.length < 8192 → e.length = 64 → le e 0 4 = m.length →
      LogGrew l (m ++ [e])

theorem LogGrew.trans {l m n : List Bytes} (h : LogGrew l m) (k : LogGrew m n) : LogGrew l n := by
  induction k with
  | refl => exact h
  | snoc _ hroom hlen hseq ih => exact .snoc ih hroom hlen hseq

theorem LogGrew.length_le {l m : List Bytes} (h : LogGrew l m) (hl : l.length ≤ 8192) : m.length ≤ 8192 := by
  induction h with
  | refl => exact hl
  | snoc _ hroom _ _ _ => simpa using hroom

theorem LogGrew.entries {l m : List Bytes} (h : LogGrew l m) :
    ∃ x, m = l ++ x ∧ ∀ i < x.length, (x.getD i []).length = 64 ∧ le (x.getD i []) 0 4 = l.length + i := by
  induction h with
  | refl => exact ⟨[], by simp⟩
  | @snoc m e _ _ hlen hseq ih =>
    obtain ⟨x, rfl, hx⟩ := ih
    refine ⟨x ++ [e], by simp, fun i hi => ?_⟩
    obtain hi | rfl : i < x.length ∨ i = x.length := by simp at hi; omega
    · rw [List.getD_append _ _ _ _ hi]; exact hx i hi
    · simp [hlen, hseq]

@[simp] theorem logGrew_refl (l : List Bytes) : LogGrew l l := .refl

/-- The entries of the failure log, oldest first. -/
def failLog (s : State) : List Bytes := s.err.failLog

/-- `LogGrew` under a second name, which no rewrite rule looks for. -/
def LogGrown (l m : List Bytes) : Prop := LogGrew l m

/-- The log of the first state grew into that of the second, as a rewrite rule: an implication `p → q` in the form `q ↔ p ∨ q`,
with the second `q` under the name that `simp` leaves alone. So the claim that a log grew through several operations is
rewritten, one operation at a time, down to the state they started from, as it is where an operation leaves the log alone. -/
abbrev LogGrows (s t : State) : Prop := ∀ l, LogGrew l (failLog t) ↔ LogGrew l (failLog s) ∨ LogGrown l (failLog t)

theorem LogGrows.of {s t : State} (h : LogGrew (failLog s) (failLog t)) : LogGrows s t :=
  fun _ => ⟨.inr, fun hl => hl.elim (·.trans h) id⟩

/-- The next state that a command answers, if it answers one, has the log grown. -/
def GrowsLog (s : State) (r : Res) : Prop := ∀ t, r = .next t → LogGrew (failLog s) (failLog t)

@[simp] theorem growsLog_next (s t : State) : GrowsLog s (.next t) ↔ LogGrew (failLog s) (failLog t) :=
  ⟨fun h => h t rfl, fun h u hu => by cases hu; exact h⟩

theorem growsLog_ite {s : State} {r q : Res} (c : Prop) [Decidable c] (hr : GrowsLog s r) (hq : GrowsLog s q) :
    GrowsLog s (if c then r else q) := by
  split <;> assumption

theorem failLog_of_keeps {s t : State} {ps : List Part} (h : Keeps ps s t) (hp : ps.all (· != .err) = true) :
    failLog t = failLog s :=
  congrArg ErrState.failLog (h .err fun hmem => by simpa using List.all_eq_true.mp hp _ hmem)

/-- An update of a state that leaves the error state as it was. -/
@[simp] theorem failLog_mk (s : State) (pending nowNs freeCount out mem cr cores blink trn mr ccm muu muuRun trnRun cmd hif sec
    fw pwr rst fab coll) :
    failLog ⟨pending, nowNs, freeCount, out, mem, cr, cores, blink, trn, mr, ccm, muu, muuRun, trnRun, cmd, hif, sec, fw, s.err,
      pwr, rst, fab, coll⟩ = failLog s := by simp only [failLog]

/-- An update of the error state that leaves the log as it was. -/
@[simp] theorem failLog_mk_err (s : State) (pending nowNs freeCount out mem cr cores blink trn mr ccm muu muuRun trnRun cmd hif
    sec fw pwr rst fab coll lastStatus lastSeq nextSeq fwFatal fwRestarts generated coalesced windows poweredNs lost) :
    failLog ⟨pending, nowNs, freeCount, out, mem, cr, cores, blink, trn, mr, ccm, muu, muuRun, trnRun, cmd, hif, sec, fw,
      ⟨lastStatus, lastSeq, nextSeq, fwFatal, fwRestarts, generated, coalesced, windows, s.err.failLog, poweredNs, lost⟩, pwr,
      rst, fab, coll⟩ = failLog s := by simp only [failLog]

@[simp] theorem ite_failLog (c : Prop) [Decidable c] (s t : State) :
    failLog (if c then s else t) = if c then failLog s else failLog t := apply_ite failLog c s t

@[simp] theorem logGrew_ite (c : Prop) [Decidable c] (l m n : List Bytes) :
    LogGrew l (if c then m else n) ↔ if c then LogGrew l m else LogGrew l n := by split <;> rfl

section Folds

variable {α β : Type}

@[simp] theorem foldl_failLog {f : State → α → State} (h : ∀ s x, failLog (f s x) = failLog s) (l : List α) (s : State) :
    failLog (l.foldl f s) = failLog s := foldl_reads failLog h l s

@[simp] theorem foldl_fst_failLog {f : State × β → α → State × β} (h : ∀ x a, failLog (f x a).1 = failLog x.1) (l : List α)
    (x : State × β) : failLog (l.foldl f x).1 = failLog x.1 := foldl_reads (fun y => failLog y.1) h l x

@[simp] theorem foldl_env_failLog {f : VeEnv → α → VeEnv} (h : ∀ e x, failLog (f e x).s = failLog e.s) (l : List α)
    (e : VeEnv) : failLog (l.foldl f e).s = failLog e.s := foldl_reads (fun y => failLog y.s) h l e

/-- A fold grows the log that it carries if each of its steps does. -/
theorem foldl_grew {σ : Type} (log : σ → List Bytes) {f : σ → α → σ} (h : ∀ s x, LogGrew (log s) (log (f s x))) (l : List α)
    (s : σ) : LogGrew (log s) (log (l.foldl f s)) :=
  List.foldlRecOn (motive := fun t => LogGrew (log s) (log t)) l f .refl fun t ht x _ => ht.trans (h t x)

@[simp] theorem foldl_logGrows {f : State → α → State} (h : ∀ s x, LogGrew (failLog s) (failLog (f s x))) (l : List α)
    (s : State) : LogGrows s (l.foldl f s) := .of (foldl_grew failLog h l s)

@[simp] theorem foldl_fst_logGrows {f : State × β → α → State × β} (h : ∀ x a, LogGrew (failLog x.1) (failLog (f x a).1))
    (l : List α) (x : State × β) : LogGrows x.1 (l.foldl f x).1 := .of (foldl_grew (fun y => failLog y.1) h l x)

@[simp] theorem foldl_view_logGrows {f : View → α → View} (h : ∀ v x, LogGrew (failLog v.s) (failLog (f v x).s)) (l : List α)
    (v : View) : LogGrows v.s (l.foldl f v).s := .of (foldl_grew (fun y => failLog y.s) h l v)

end Folds

/-! ## Entries of the failure log (R591, R592) -/

theorem leNat_leBytes (n v : Nat) : leNat (leBytes n v) = v % 256 ^ n := by
  induction n generalizing v with
  | zero => simp [leBytes, leNat, Nat.mod_one]
  | succ n ih => simp [leBytes, leNat, ih, Nat.pow_succ', Nat.mod_mul]

theorem le_leBytes_append (n v : Nat) (r : Bytes) : le (leBytes n v ++ r) 0 n = v % 256 ^ n := by
  simp [le, List.take_left' (leBytes_length n v), leNat_leBytes]

/-- The entry that `logFailure` writes. -/
def failureEntry (s : State) (kind : Nat) (st : Status) (unit addr : Nat) : Bytes :=
  leBytes 4 s.err.failLog.length ++ leBytes 4 (satAddNat 32 0 (s.err.poweredNs / hourNs)) ++ leBytes 2 (statusCode st) ++
    [BitVec.ofNat 8 kind, 0] ++ leBytes 2 unit ++ zeroBytes 2 ++ leBytes 8 (if kind = 4 ∨ kind = 5 then addr else 0) ++
    leBytes 8 s.nowNs ++ leBytes 4 s.fw.version.toNat ++ zeroBytes 28

/-- Whether the log has no room for an entry of a kind (R592). -/
def noRoom (s : State) (kind : Nat) : Prop :=
  failLogLen - s.err.failLog.length = 0 ∨ (kind > 3 ∧ failLogLen - s.err.failLog.length ≤ failLogReserve)

theorem noRoom_iff (s : State) (kind : Nat) : noRoom s kind ↔
    8192 - s.err.failLog.length = 0 ∨ (kind > 3 ∧ 8192 - s.err.failLog.length ≤ 4160) := Iff.rfl

section Entries

variable {s : State} {kind : Nat} (st : Status) (unit addr : Nat)

theorem failureEntry_length : (failureEntry s kind st unit addr).length = 64 := by simp [failureEntry, zeroBytes]

theorem failureEntry_seq (h : (failLog s).length < 8192) : le (failureEntry s kind st unit addr) 0 4 = (failLog s).length := by
  simp only [failureEntry, List.append_assoc, le_leBytes_append]
  exact Nat.mod_eq_of_lt (h.trans (by decide))

theorem failureEntry_kind : byteAt (failureEntry s kind st unit addr) 10 = BitVec.ofNat 8 kind := rfl

theorem logFailure_of_noRoom (h : noRoom s kind) :
    logFailure s kind st unit addr = { s with err := { s.err with lost := satAdd s.err.lost 1 } } := if_pos h

theorem logFailure_of_room (h : ¬ noRoom s kind) :
    logFailure s kind st unit addr =
      { s with err := { s.err with failLog := failLog s ++ [failureEntry s kind st unit addr] } } := if_neg h

theorem length_lt_of_room (h : ¬ noRoom s kind) : (failLog s).length < 8192 := by
  rw [noRoom_iff] at h; simp only [failLog]; omega

end Entries

@[simp] theorem logFailure_logGrows (s : State) (kind : Nat) (st : Status) (unit addr : Nat) :
    LogGrows s (logFailure s kind st unit addr) := .of <| by
  by_cases h : noRoom s kind
  · rw [logFailure_of_noRoom st unit addr h]; exact .refl
  · rw [logFailure_of_room st unit addr h]
    have room := length_lt_of_room h
    exact .snoc .refl room (failureEntry_length ..) (failureEntry_seq _ _ _ room)

end Sys2Proof.Laws
end

section
/-! PROOFS. What every operation of the model does to the failure log: one lemma for each says that the log is as it was, or,
where `logFailure` may run, that the log grew. A lemma about an operation cites those of the operations that it calls. -/

namespace Sys2Proof.Laws

open Sys2Proof Sys2Proof.Machine

/-! ### Memory, cores, counters and core lists -/

@[simp] theorem setMem_failLog (s : State) (m : Mem) : failLog (setMem s m) = failLog s :=
  failLog_of_keeps (setMem_keeps s m) rfl

@[simp] theorem write_failLog (s : State) (r : Reach) (a : Nat) (bs : Bytes) (poison : Bool) :
    failLog (write s r a bs poison) = failLog s :=
  failLog_of_keeps (write_keeps s r a bs poison) rfl

@[simp] theorem setCore_failLog (s : State) (n : Nat) (c : Core) : failLog (setCore s n c) = failLog s :=
  failLog_of_keeps (setCore_keeps s n c) rfl

@[simp] theorem coreWrite_failLog (s : State) (n off : Nat) (bs : Bytes) (poison : Bool) :
    failLog (coreWrite s n off bs poison) = failLog s :=
  failLog_of_keeps (coreWrite_keeps s n off bs poison) rfl

@[simp] theorem touchCluster_failLog (s : State) (c : Nat) : failLog (touchCluster s c) = failLog s :=
  failLog_of_keeps (touchCluster_keeps s c) rfl

@[simp] theorem touch_failLog (s : State) (a : Nat) : failLog (touch s a) = failLog s :=
  failLog_of_keeps (touch_keeps s a) rfl

@[simp] theorem emit_failLog (s : State) (o : Output) : failLog (emit s o) = failLog s :=
  failLog_of_keeps (emit_keeps s o) rfl

@[simp] theorem modStream_failLog (s : State) (id : Nat) (f : StreamRun → StreamRun) :
    failLog (modStream s id f) = failLog s :=
  failLog_of_keeps (modStream_keeps s id f) rfl

@[simp] theorem modPhase_failLog (s : State) (id p : Nat) (f : PhaseRun → PhaseRun) :
    failLog (modPhase s id p f) = failLog s :=
  failLog_of_keeps (modPhase_keeps s id p f) rfl

@[simp] theorem noteStatus_failLog (s : State) (id p : Nat) (st : Status) : failLog (noteStatus s id p st) = failLog s :=
  failLog_of_keeps (noteStatus_keeps s id p st) rfl

@[simp] theorem blameMember_failLog (s x : State) (id p prob : Nat) (st : Status) :
    failLog (blameMember s x id p prob st) = failLog x := by
  simp only [blameMember]; split <;> simp

@[simp] theorem counterSeen_failLog (s : State) (c : Nat) : failLog (counterSeen s c) = failLog s :=
  failLog_of_keeps (counterSeen_keeps s c) rfl

@[simp] theorem bumpCounter_failLog (s : State) (c : Nat) : failLog (bumpCounter s c) = failLog s :=
  failLog_of_keeps (bumpCounter_keeps s c) rfl

@[simp] theorem signal_failLog (s : State) (id : Nat) (d : Bytes) : failLog (signal s id d) = failLog s :=
  failLog_of_keeps (signal_keeps s id d) rfl

@[simp] theorem finishOp_failLog (s : State) (n : Nat) (t : Token) (d : Bytes) (st : Status) :
    failLog (finishOp s n t d st) = failLog s :=
  failLog_of_keeps (finishOp_keeps s n t d st) rfl

@[simp] theorem passOps_failLog (s : State) (n k : Nat) : failLog (passOps s n k) = failLog s :=
  failLog_of_keeps (passOps_keeps s n k) rfl

@[simp] theorem rejectOp_failLog (s : State) (n : Nat) (o : NextOp) (st : Status) : failLog (rejectOp s n o st) = failLog s :=
  failLog_of_keeps (rejectOp_keeps s n o st) rfl

@[simp] theorem photUpdate_failLog (s : State) (base layer : Nat) (p : Phot) (clip : Bool) :
    failLog (photUpdate s base layer p clip) = failLog s :=
  failLog_of_keeps (photUpdate_keeps s base layer p clip) rfl

/-! ### Events and the failure log (chapter 19) -/

@[simp] theorem setPort_failLog (s : State) (p : HPort) (x : HostPortState) : failLog (setPort s p x) = failLog s :=
  failLog_of_keeps (setPort_keeps s p x) rfl

@[simp] theorem setQueue_failLog (s : State) (q : Nat) (x : Queue) : failLog (setQueue s q x) = failLog s :=
  failLog_of_keeps (setQueue_keeps s q x) rfl

@[simp] theorem sendMsix_failLog (s : State) (p : HPort) (v : Nat) : failLog (sendMsix s p v) = failLog s :=
  failLog_of_keeps (sendMsix_keeps s p v) rfl

@[simp] theorem evDrop_failLog (s : State) : failLog (evDrop s) = failLog s := failLog_of_keeps (evDrop_keeps s) rfl

@[simp] theorem sendRead_failLog (s : State) (p : HPort) (addr len : Nat) (w : ReadFor) :
    failLog (sendRead s p addr len w) = failLog s :=
  failLog_of_keeps (sendRead_keeps s p addr len w) rfl

@[simp] theorem issueRead_failLog (s : State) (p : HPort) (addr len : Nat) (w : ReadFor) :
    failLog (issueRead s p addr len w) = failLog s :=
  failLog_of_keeps (issueRead_keeps s p addr len w) rfl

@[simp] theorem refillRead_failLog (s : State) (p : HPort) : failLog (refillRead s p) = failLog s := by
  simp only [refillRead]; split <;> simp

@[simp] theorem toRing_failLog (s : State) (rec : Bytes) (p : HPort) : failLog (toRing s rec p) = failLog s :=
  failLog_of_keeps (toRing_keeps s rec p) rfl

@[simp] theorem ringWrite_failLog (s : State) (p : HPort) (rec headWord : Bytes) :
    failLog (ringWrite s p rec headWord) = failLog s :=
  failLog_of_keeps (ringWrite_keeps s p rec headWord) rfl

@[simp] theorem deliver_failLog (s : State) (rec : Bytes) (ports : List HPort) : failLog (deliver s rec ports) = failLog s :=
  failLog_of_keeps (deliver_keeps s rec ports) rfl

@[simp] theorem emitEvent_failLog (s : State) (st : Status) (source unit count first : Nat) (coalesced : Bool)
    (detail : Bytes) : failLog (emitEvent s st source unit count first coalesced detail) = failLog s := by
  simp [emitEvent]

@[simp] theorem flushWindow_failLog (s : State) (w : EventWindow) : failLog (flushWindow s w) = failLog s := by
  simp [flushWindow, dropWindow]

@[simp] theorem raiseEvent_failLog (s : State) (st : Status) (source unit : Nat) (detail : Bytes) :
    failLog (raiseEvent s st source unit detail) = failLog s := by
  simp only [raiseEvent]; (repeat' split) <;> simp

@[simp] theorem execCoalesceWindowEnd_growsLog (status : BitVec 16) (source : BitVec 8) (unit : BitVec 16) (s : State) :
    GrowsLog s (execCoalesceWindowEnd status source unit s) := by
  simp only [execCoalesceWindowEnd]; (repeat' split) <;> simp

/-! ### Checked accesses (chapters 10 and 15) -/

@[simp] theorem denyLine_failLog (s : State) (init : Nat) (write : Bool) (a : Nat) :
    failLog (denyLine s init write a) = failLog s := by
  simp [denyLine]

@[simp] theorem noteCorrected_failLog (s : State) (n : BitVec 32) (source unit a : Nat) :
    failLog (noteCorrected s n source unit a) = failLog s := by
  simp only [noteCorrected]; split <;> simp

@[simp] theorem meetErr_logGrows (s : State) (a : Nat) (e : LineErr) : LogGrows s (meetErr s a e) := .of <| by
  simp only [meetErr]; split <;> simp

@[simp] theorem demandWith_logGrows (host : List HostLine) (s : State) (a : Nat) :
    LogGrows s (demandWith host s a) := .of <| by
  simp only [demandWith]; split <;> simp

@[simp] theorem demandLine_logGrows (s : State) (a : Nat) : LogGrows s (demandLine s a) := .of <| by
  simp only [demandLine]; split <;> simp

@[simp] theorem demandRead_logGrows (s : State) (a n : Nat) : LogGrows s (demandRead s a n) := .of <| by
  simp only [demandRead]; split <;> simp

@[simp] theorem viewLine_logGrows (init : Nat) (r : Reach) (host : List HostLine) (v : View) (a : Nat) :
    LogGrows v.s (viewLine init r host v a).s := .of <| by
  simp only [viewLine]; (repeat' split) <;> simp

@[simp] theorem viewSpan_logGrows (init : Nat) (r : Reach) (host : List HostLine) (v : View) (a n : Nat) :
    LogGrows v.s (viewSpan init r host v a n).s := .of <| by
  simp [viewSpan]

@[simp] theorem writeLine_failLog (init : Nat) (r : Reach) (a : Nat) (bs : Bytes) (poison : Nat → Bool)
    (x : State × Option Status) (l : Nat) : failLog (writeLine init r a bs poison x l).1 = failLog x.1 := by
  simp only [writeLine]; (repeat' split) <;> simp

@[simp] theorem writeSpan_failLog (s : State) (init : Nat) (r : Reach) (a : Nat) (bs : Bytes) (poison : Nat → Bool) :
    failLog (writeSpan s init r a bs poison).1 = failLog s := by
  simp [writeSpan]

@[simp] theorem copySpan_failLog (m : Mem) (s : State) (init : Nat) (r : Reach) (src dst len : Nat) :
    failLog (copySpan m s init r src dst len).1 = failLog s := by
  simp [copySpan]

@[simp] theorem wakeUp_failLog (s : State) : failLog (wakeUp s) = failLog s := by simp only [wakeUp]; split <;> simp

@[simp] theorem holdAccess_failLog (s : State) (h : HeldAccess) : failLog (holdAccess s h) = failLog s := by simp [holdAccess]

@[simp] theorem hostSetup_logGrows {act : State → State} (h : ∀ x, LogGrew (failLog x) (failLog (act x))) (s : State)
    (p : HPort) (off size value : Nat) : LogGrows s (hostSetup s p off size value act) := .of <| by
  simp only [hostSetup]; split
  · exact h s
  · simp
  · exact .refl

@[simp] theorem hostSetup_failLog {act : State → State} (h : ∀ x, failLog (act x) = failLog x) (s : State) (p : HPort)
    (off size value : Nat) : failLog (hostSetup s p off size value act) = failLog s := by
  simp only [hostSetup]; split <;> simp [h]

/-! ### Log-Product Arrays (chapter 04) -/

@[simp] theorem loadAhead_failLog (s : State) (n : Nat) (r : LpaRun) (j : Nat) : failLog (loadAhead s n r j) = failLog s := by
  simp only [loadAhead]; (repeat' split) <;> simp

@[simp] theorem execWeightTileReady_growsLog (core : CoreId) (array : BitVec 2) (s : State) :
    GrowsLog s (execWeightTileReady core array s) := by
  simp only [execWeightTileReady]; (repeat' split) <;> simp

@[simp] theorem startLpa_failLog (s : State) (n : Nat) (o : NextOp) (ds : List Bytes) :
    failLog (startLpa s n o ds) = failLog s := by
  simp [startLpa]

@[simp] theorem rejectGroup_failLog (s : State) (n : Nat) (o : NextOp) (ds : List Bytes) (st : Status) :
    failLog (rejectGroup s n o ds st) = failLog s := by
  simp [rejectGroup]

@[simp] theorem runPlan_failLog (s : State) (n : Nat) (o : NextOp) (plan : LpaPlan) :
    failLog (runPlan s n o plan) = failLog s := by
  simp only [runPlan]; (repeat' split) <;> simp

@[simp] theorem beginLpa_failLog (n : Nat) (s : State) : failLog (beginLpa n s) = failLog s := by
  simp only [beginLpa]; (repeat' split) <;> simp

@[simp] theorem beginGroup_failLog (n : Nat) (s : State) : failLog (beginGroup n s) = failLog s := by
  simp only [beginGroup]; (repeat' split) <;> simp

@[simp] theorem drainPlate_failLog (s : State) (n : Nat) (r : LpaRun) (j : PlateJob) (mb : LpaMember) :
    failLog (drainPlate s n r j mb) = failLog s := by
  simp [drainPlate]

@[simp] theorem reserveEntries_failLog (s : State) (n : Nat) : failLog (reserveEntries s n) = failLog s := by
  simp only [reserveEntries]; split <;> simp

@[simp] theorem drainOcs_failLog (s : State) (n ocs fuel : Nat) : failLog (drainOcs s n ocs fuel) = failLog s := by
  induction fuel generalizing s with
  | zero => rfl
  | succ fuel ih => simp only [drainOcs]; (repeat' split) <;> simp [ih]

@[simp] theorem drainBanks_failLog (s : State) (n : Nat) : failLog (drainBanks s n) = failLog s := by simp [drainBanks]

@[simp] theorem execRowBlockDone_growsLog (core : CoreId) (s : State) : GrowsLog s (execRowBlockDone core s) := by
  simp only [execRowBlockDone]; (repeat' split) <;> simp

@[simp] theorem poisonPlate_failLog (s : State) (n : Nat) (p : LpaParm) (mb : LpaMember) (imag : Bool) (blk j : Nat) :
    failLog (poisonPlate s n p mb imag blk j) = failLog s := by
  simp only [poisonPlate]; split <;> simp

@[simp] theorem poisonRest_failLog (s : State) (n : Nat) (r : LpaRun) : failLog (poisonRest s n r) = failLog s := by
  simp only [poisonRest]
  rw [foldl_failLog, foldl_failLog]
  · intro a j; split <;> simp
  · simp

@[simp] theorem countMember_failLog (s : State) (r : LpaRun) (z : LpaMember × Nat) (st : Status) :
    failLog (countMember s r z st) = failLog s := by
  simp only [countMember]; split <;> simp

@[simp] theorem countEnded_failLog (s : State) (r : LpaRun) : failLog (countEnded s r) = failLog s := by simp [countEnded]

@[simp] theorem endMembers_failLog (s : State) (n : Nat) (r : LpaRun) (status : LpaMember → Status) :
    failLog (endMembers s n r status) = failLog s := by
  simp [endMembers]

@[simp] theorem completeLpa_failLog (s : State) (n : Nat) : failLog (completeLpa s n) = failLog s := by
  simp only [completeLpa]; (repeat' split) <;> simp

@[simp] theorem endStalled_failLog (n : Nat) (s : State) : failLog (endStalled n s) = failLog s := by
  simp only [endStalled]; (repeat' split) <;> simp

/-! ### The Coelostat (chapter 06) -/

@[simp] theorem coeRun_logGrows (s : State) (n : Nat) (o : NextOp) (host : List HostLine) :
    LogGrows s (coeRun s n o host) := .of <| by
  simp [coeRun]

@[simp] theorem execCoeStage_growsLog (core : CoreId) (host : List HostLine) (s : State) :
    GrowsLog s (execCoeStage core host s) := by
  simp only [execCoeStage]; (repeat' split) <;> simp

@[simp] theorem countCoe_failLog (s : State) (r : OpRun) (st : Status) : failLog (countCoe s r st) = failLog s := by
  simp [countCoe]

@[simp] theorem completeCoe_failLog (s : State) (n : Nat) : failLog (completeCoe s n) = failLog s := by
  simp only [completeCoe]; (repeat' split) <;> simp

/-! ### Blink (chapter 06) -/

@[simp] theorem ladderUpdate_failLog (s : State) (entry : Option Nat) (f : Bytes → Bytes) :
    failLog (ladderUpdate s entry f) = failLog s := by
  simp only [ladderUpdate]; (repeat' split) <;> simp

@[simp] theorem execBlinkSample_growsLog (cluster : ClusterId) (host : List HostLine) (s : State) :
    GrowsLog s (execBlinkSample cluster host s) := by
  simp only [execBlinkSample]; split <;> simp

/-! ### The Vector Engine (chapter 07) -/

@[simp] theorem veBack_failLog (e : VeEnv) : failLog (veBack e) = failLog e.s := by simp [veBack]

/-- The state that an issue answers with, if it answers with one, has the log as it was. -/
def IssueKeepsLog (s : State) : Issue → Prop
  | .done e => failLog e.s = failLog s
  | .wait => True
  | .fault e .. => failLog e.s = failLog s

@[simp] theorem issueKeepsLog_done (s : State) (e : VeEnv) : IssueKeepsLog s (.done e) ↔ failLog e.s = failLog s := Iff.rfl

@[simp] theorem issueKeepsLog_wait (s : State) : IssueKeepsLog s .wait := trivial

@[simp] theorem issueKeepsLog_fault (s : State) (e : VeEnv) (k l b a : Nat) (st : Status) :
    IssueKeepsLog s (.fault e k l b a st) ↔ failLog e.s = failLog s := Iff.rfl

@[simp] theorem faultAll_keepsLog (s : State) (e : VeEnv) (kind act : Nat) (st : Status) :
    IssueKeepsLog s (faultAll e kind act st) ↔ failLog e.s = failLog s := Iff.rfl

@[simp] theorem addFlags_failLog (e : VeEnv) (nv of : Bool) : failLog (addFlags e nv of).s = failLog e.s := by simp [addFlags]

@[simp] theorem laneOp_keepsLog (s : State) (e : VeEnv) (d : Nat) (lanes : List Nat) (srcs : Nat → List (Nat × Bool))
    (f : Nat → FRes) : IssueKeepsLog s (laneOp e d lanes srcs f) ↔ failLog e.s = failLog s := by
  simp [laneOp]

@[simp] theorem unary_keepsLog (s : State) (e : VeEnv) (u : Uop) (f : Nat → FRes) :
    IssueKeepsLog s (unary e u f) ↔ failLog e.s = failLog s := by
  simp [unary]

@[simp] theorem binary_keepsLog (s : State) (e : VeEnv) (u : Uop) (f : Nat → Nat → FRes) :
    IssueKeepsLog s (binary e u f) ↔ failLog e.s = failLog s := by
  simp [binary]

@[simp] theorem takeVector_failLog (e : VeEnv) (u : Uop) (k : Nat) (vec : List (Nat × Bool) × Nat) :
    failLog (takeVector e u k vec).s = failLog e.s := by
  simp [takeVector]

@[simp] theorem flushBlock_failLog (e : VeEnv) (k r blk : Nat) : failLog (flushBlock e k r blk).s = failLog e.s := by
  simp [flushBlock]

@[simp] theorem outPut_failLog (e : VeEnv) (k : Nat) (x : Option (Nat × Bool)) : failLog (outPut e k x).s = failLog e.s := by
  simp only [outPut]; (repeat' split) <;> simp

@[simp] theorem flushAll_failLog (e : VeEnv) : failLog (flushAll e).s = failLog e.s := by simp [flushAll]

/-- A gather or scatter keeps what its action on each lane keeps. -/
theorem gatherRun_keepsLog {act : VeEnv → Nat → Target → VeEnv} {atFault : VeEnv → Nat → VeEnv}
    (hact : ∀ a i t, failLog (act a i t).s = failLog a.s) (hfault : ∀ a i, failLog (atFault a i).s = failLog a.s) (e : VeEnv)
    (u : Uop) : IssueKeepsLog e.s (gatherRun e u act atFault) := by
  simp only [gatherRun]; split <;> simp [hact, hfault]

theorem ruRow_keepsLog {s : State} {i : Issue} (h : IssueKeepsLog s i) (act : Nat) (x : RuRes × Nat) :
    IssueKeepsLog s (ruRow i act x) := by
  cases i with
  | done e => simp only [issueKeepsLog_done] at h; simp only [ruRow]; (repeat' split) <;> simp [h]
  | wait => exact h
  | fault => exact h

theorem ruRows_keepsLog {s : State} {before e : VeEnv} (hb : failLog before.s = failLog s) (he : failLog e.s = failLog s)
    (act : Nat) (xs : List (RuRes × Nat)) : IssueKeepsLog s (ruRows before e act xs) := by
  have rows : IssueKeepsLog s (xs.foldl (fun a x => ruRow a act x) (.done e)) :=
    List.foldlRecOn xs _ he fun _ h x _ => ruRow_keepsLog h act x
  simp only [ruRows]; split
  · exact hb
  · exact rows

@[simp] theorem veFault_failLog (e : VeEnv) (op kind lane bitmap addr : Nat) (st : Status) :
    failLog (veFault e op kind lane bitmap addr st).s = failLog e.s := by
  simp [veFault]

@[simp] theorem veStart_failLog (s : State) (n : Nat) (o : NextOp) : failLog (veStart s n o) = failLog s := by simp [veStart]

@[simp] theorem completeVe_failLog (s : State) (n : Nat) : failLog (completeVe s n) = failLog s := by
  simp only [completeVe]; (repeat' split) <;> simp

/-! ### Micro-ops and the program loop (chapter 07) -/

@[simp] theorem floatOp_keepsLog (s : State) (e : VeEnv) (u : Uop) (f : FFmt → Nat → Nat → FRes) :
    IssueKeepsLog s (floatOp f e u) ↔ failLog e.s = failLog s := by
  simp [floatOp]

@[simp] theorem compare_keepsLog (s : State) (e : VeEnv) (u : Uop) (f : Nat → Nat → Bool) :
    IssueKeepsLog s (Machine.compare e u f) ↔ failLog e.s = failLog s := by
  simp [Machine.compare]

@[simp] theorem uopNop_keepsLog (e : VeEnv) (u : Uop) : IssueKeepsLog e.s (uopNop e u) := by simp [uopNop]

@[simp] theorem uopMov_keepsLog (e : VeEnv) (u : Uop) : IssueKeepsLog e.s (uopMov e u) := by simp [uopMov]

@[simp] theorem uopCns_keepsLog (e : VeEnv) (u : Uop) : IssueKeepsLog e.s (uopCns e u) := by simp [uopCns]

@[simp] theorem uopLid_keepsLog (e : VeEnv) (u : Uop) : IssueKeepsLog e.s (uopLid e u) := by simp [uopLid]

@[simp] theorem uopLds_keepsLog (e : VeEnv) (u : Uop) : IssueKeepsLog e.s (uopLds e u) := by
  simp only [uopLds]; (repeat' split) <;> simp

@[simp] theorem uopSts_keepsLog (e : VeEnv) (u : Uop) : IssueKeepsLog e.s (uopSts e u) := by
  simp only [uopSts]; split <;> simp

@[simp] theorem uopGth_keepsLog (e : VeEnv) (u : Uop) : IssueKeepsLog e.s (uopGth e u) := by
  simp only [uopGth]
  apply gatherRun_keepsLog
  · intro a i t; split <;> rfl
  · intros; rfl

@[simp] theorem uopSct_keepsLog (e : VeEnv) (u : Uop) : IssueKeepsLog e.s (uopSct e u) := by
  simp only [uopSct]
  apply gatherRun_keepsLog
  · intro a i t; split <;> simp
  · intros; rfl

@[simp] theorem uopSca_keepsLog (e : VeEnv) (u : Uop) : IssueKeepsLog e.s (uopSca e u) := by
  simp only [uopSca]
  apply gatherRun_keepsLog
  · intro a i t; split <;> simp
  · intros; rfl

@[simp] theorem uopFadd_keepsLog (e : VeEnv) (u : Uop) : IssueKeepsLog e.s (uopFadd e u) := by simp [uopFadd]

@[simp] theorem uopFsub_keepsLog (e : VeEnv) (u : Uop) : IssueKeepsLog e.s (uopFsub e u) := by simp [uopFsub]

@[simp] theorem uopFmul_keepsLog (e : VeEnv) (u : Uop) : IssueKeepsLog e.s (uopFmul e u) := by simp [uopFmul]

@[simp] theorem uopFfma_keepsLog (e : VeEnv) (u : Uop) : IssueKeepsLog e.s (uopFfma e u) := by simp [uopFfma]

@[simp] theorem uopFmnx_keepsLog (e : VeEnv) (u : Uop) : IssueKeepsLog e.s (uopFmnx e u) := by simp [uopFmnx]

@[simp] theorem uopFsgn_keepsLog (e : VeEnv) (u : Uop) : IssueKeepsLog e.s (uopFsgn e u) := by
  simp only [uopFsgn]; split <;> simp

@[simp] theorem uopFrcp_keepsLog (e : VeEnv) (u : Uop) : IssueKeepsLog e.s (uopFrcp e u) := by simp [uopFrcp]

@[simp] theorem uopFrsq_keepsLog (e : VeEnv) (u : Uop) : IssueKeepsLog e.s (uopFrsq e u) := by simp [uopFrsq]

@[simp] theorem uopFsqt_keepsLog (e : VeEnv) (u : Uop) : IssueKeepsLog e.s (uopFsqt e u) := by simp [uopFsqt]

@[simp] theorem uopFdiv_keepsLog (e : VeEnv) (u : Uop) : IssueKeepsLog e.s (uopFdiv e u) := by simp [uopFdiv]

@[simp] theorem uopFexp_keepsLog (e : VeEnv) (u : Uop) : IssueKeepsLog e.s (uopFexp e u) := by simp [uopFexp]

@[simp] theorem uopFlog_keepsLog (e : VeEnv) (u : Uop) : IssueKeepsLog e.s (uopFlog e u) := by simp [uopFlog]

@[simp] theorem uopFsig_keepsLog (e : VeEnv) (u : Uop) : IssueKeepsLog e.s (uopFsig e u) := by simp [uopFsig]

@[simp] theorem uopCvt_keepsLog (e : VeEnv) (u : Uop) : IssueKeepsLog e.s (uopCvt e u) := by
  simp only [uopCvt]; split <;> simp

@[simp] theorem uopIadd_keepsLog (e : VeEnv) (u : Uop) : IssueKeepsLog e.s (uopIadd e u) := by simp [uopIadd]

@[simp] theorem uopIsub_keepsLog (e : VeEnv) (u : Uop) : IssueKeepsLog e.s (uopIsub e u) := by simp [uopIsub]

@[simp] theorem uopImul_keepsLog (e : VeEnv) (u : Uop) : IssueKeepsLog e.s (uopImul e u) := by simp [uopImul]

@[simp] theorem uopIlog_keepsLog (e : VeEnv) (u : Uop) : IssueKeepsLog e.s (uopIlog e u) := by simp [uopIlog]

@[simp] theorem uopIshf_keepsLog (e : VeEnv) (u : Uop) : IssueKeepsLog e.s (uopIshf e u) := by simp [uopIshf]

@[simp] theorem uopImnx_keepsLog (e : VeEnv) (u : Uop) : IssueKeepsLog e.s (uopImnx e u) := by simp [uopImnx]

@[simp] theorem uopFcmp_keepsLog (e : VeEnv) (u : Uop) : IssueKeepsLog e.s (uopFcmp e u) := by simp [uopFcmp]

@[simp] theorem uopIcmp_keepsLog (e : VeEnv) (u : Uop) : IssueKeepsLog e.s (uopIcmp e u) := by simp [uopIcmp]

@[simp] theorem uopSel_keepsLog (e : VeEnv) (u : Uop) : IssueKeepsLog e.s (uopSel e u) := by simp [uopSel]

@[simp] theorem uopKop_keepsLog (e : VeEnv) (u : Uop) : IssueKeepsLog e.s (uopKop e u) := by simp [uopKop]

@[simp] theorem uopShf_keepsLog (e : VeEnv) (u : Uop) : IssueKeepsLog e.s (uopShf e u) := by simp [uopShf]

@[simp] theorem uopRup_keepsLog (e : VeEnv) (u : Uop) : IssueKeepsLog e.s (uopRup e u) := by
  simp only [uopRup]; split
  · simp
  · apply ruRows_keepsLog <;> rfl

@[simp] theorem uopRug_keepsLog (e : VeEnv) (u : Uop) : IssueKeepsLog e.s (uopRug e u) := by
  simp only [uopRug]; (repeat' split) <;> simp

@[simp] theorem uopSmn_keepsLog (e : VeEnv) (u : Uop) : IssueKeepsLog e.s (uopSmn e u) := by simp [uopSmn]

@[simp] theorem uopSmb_keepsLog (e : VeEnv) (u : Uop) : IssueKeepsLog e.s (uopSmb e u) := by simp [uopSmb]

@[simp] theorem uopNrm_keepsLog (e : VeEnv) (u : Uop) : IssueKeepsLog e.s (uopNrm e u) := by simp [uopNrm]

@[simp] theorem uopRng_keepsLog (e : VeEnv) (u : Uop) : IssueKeepsLog e.s (uopRng e u) := by simp [uopRng]

theorem uopIssue_keepsLog (e : VeEnv) (u : Uop) : IssueKeepsLog e.s (uopIssue e u) := by simp only [uopIssue]; split <;> simp

@[simp] theorem veEnd_failLog (e : VeEnv) : failLog (veEnd e).s = failLog e.s := by
  simp only [veEnd]; split
  · split
    · next r _ =>
      have rows := ruRows_keepsLog (s := e.s) (before := { e with c := { e.c with ru := { e.c.ru with open_ := none } } })
        (e := { e with c := { e.c with ru := { e.c.ru with open_ := none } } }) rfl rfl (envMask e)
        [ruResult e.c.ru.op r (envEps e)]
      split <;> simp_all
    · simp
  · simp

@[simp] theorem veLoop_failLog (fuel : Nat) (e : VeEnv) : failLog (veLoop fuel e).s = failLog e.s := by
  induction fuel generalizing e with
  | zero => rfl
  | succ fuel ih =>
    have issued := uopIssue_keepsLog e (uopOf (e.v.prog.getD e.v.pc 0))
    simp only [veLoop]; split
    · rfl
    · split <;> simp_all [apply_ite VeEnv.s]

@[simp] theorem veGo_failLog (s : State) (n : Nat) : failLog (veGo s n) = failLog s := by
  simp only [veGo]; split
  · rfl
  · next e h => split <;> simp [veEnv_s h]

@[simp] theorem execVeRun_growsLog (core : CoreId) (s : State) : GrowsLog s (execVeRun core s) := by
  simp only [execVeRun]; (repeat' split) <;> simp

@[simp] theorem veRecheck_failLog (s : State) (n : Nat) : failLog (veRecheck s n) = failLog s := by
  simp only [veRecheck]; split <;> simp

@[simp] theorem execLpaMatmul_growsLog (core : CoreId) (s : State) : GrowsLog s (execLpaMatmul core s) := by
  simp [execLpaMatmul]

@[simp] theorem execCoResidentGroup_growsLog (core : CoreId) (s : State) : GrowsLog s (execCoResidentGroup core s) := by
  simp [execCoResidentGroup]

@[simp] theorem execPlateVisible_growsLog (core : CoreId) (s : State) : GrowsLog s (execPlateVisible core s) := by
  simp only [execPlateVisible]; (repeat' split) <;> simp

@[simp] theorem issueCmd_growsLog {f : VeEnv → Uop → Issue} (hf : ∀ e u, IssueKeepsLog e.s (f e u)) (core : CoreId) (op : Nat)
    (d a b mod : BitVec 6) (s : State) : GrowsLog s (issueCmd core op d a b mod f s) := by
  simp only [issueCmd]; split
  · simp
  · next e h =>
    have issued := hf e { op, d := d.toNat, a := a.toNat, b := b.toNat, sel := mod.toNat % 8, var := mod.toNat / 8 }
    rw [veEnv_s h] at issued
    refine growsLog_ite _ (by simp) ?_
    split <;> simp_all [veEnv_s h]

/-! ### Batched small solves (chapter 07) -/

@[simp] theorem solveStep_failLog (n : Nat) (p : SolveParm) (s : State) (v : VeRun) (i : Nat) :
    failLog (solveStep n p s v i).1 = failLog s := by
  simp [solveStep]

@[simp] theorem execVeSolve_growsLog (core : CoreId) (s : State) : GrowsLog s (execVeSolve core s) := by
  simp only [execVeSolve]; (repeat' split) <;> simp

/-! ### Op lists (chapter 11) -/

@[simp] theorem rejectIo_failLog (s : State) (id p : Nat) (o : NextOp) (st : Status) :
    failLog (rejectIo s id p o st) = failLog s :=
  failLog_of_keeps (rejectIo_keeps s id p o st) rfl

@[simp] theorem startIo_failLog (s : State) (id p : Nat) (o : NextOp) : failLog (startIo s id p o) = failLog s :=
  failLog_of_keeps (startIo_keeps s id p o) rfl

@[simp] theorem endIo_failLog (s : State) (id p i : Nat) (st : Status) : failLog (endIo s id p i st) = failLog s :=
  failLog_of_keeps (endIo_keeps s id p i st) rfl

@[simp] theorem completeIo_failLog (s : State) (id p i : Nat) : failLog (completeIo s id p i) = failLog s :=
  failLog_of_keeps (completeIo_keeps s id p i) rfl

@[simp] theorem rejectAt_failLog (loc : OpLoc) (s : State) (o : NextOp) (st : Status) :
    failLog (rejectAt loc s o st) = failLog s :=
  failLog_of_keeps (rejectAt_keeps loc s o st) rfl

@[simp] theorem plainOp_failLog (loc : OpLoc) (s : State) (o : NextOp) : failLog (plainOp loc s o) = failLog s := by
  simp [plainOp]

@[simp] theorem execOpNop_growsLog (loc : OpLoc) (s : State) : GrowsLog s (execOpNop loc s) := by
  simp only [execOpNop]; (repeat' split) <;> simp

@[simp] theorem execWait_growsLog (loc : OpLoc) (s : State) : GrowsLog s (execWait loc s) := by
  simp only [execWait]; (repeat' split) <;> simp

@[simp] theorem completeDma_failLog (s : State) (n : Nat) : failLog (completeDma s n) = failLog s := by
  simp only [completeDma]; (repeat' split) <;> simp

@[simp] theorem completeCcm_failLog (s : State) (n : Nat) : failLog (completeCcm s n) = failLog s := by
  simp only [completeCcm]; (repeat' split) <;> simp

/-! ### The Context Cache Manager (chapter 10) -/

@[simp] theorem putFreeBit_failLog (s : State) (tier f : Nat) (free : Bool) :
    failLog (putFreeBit s tier f free) = failLog s := by
  simp [putFreeBit]

@[simp] theorem setUsed_failLog (s : State) (tier f : Nat) (used : Bool) : failLog (setUsed s tier f used) = failLog s := by
  simp [setUsed]

@[simp] theorem claimFrame_failLog (s : State) (tier f seq page : Nat) :
    failLog (claimFrame s tier f seq page) = failLog s := by
  simp [claimFrame]

@[simp] theorem addHeld_failLog (s : State) (seq : Nat) (up : Bool) : failLog (addHeld s seq up) = failLog s := by
  simp [addHeld]

@[simp] theorem putPage_failLog (s : State) (a : Nat) (e : PageEntry) : failLog (putPage s a e) = failLog s := by
  simp [putPage]

@[simp] theorem hostFault_failLog (s : State) : failLog (hostFault s) = failLog s := by simp only [hostFault]; split <;> simp

@[simp] theorem hostFine_failLog (s : State) : failLog (hostFine s) = failLog s := by simp [hostFine]

@[simp] theorem startMove_failLog (s : State) (promote : Bool) (a seq page target : Nat) (forOp : Option Nat) :
    failLog (startMove s promote a seq page target forOp).1 = failLog s := by
  simp only [startMove]; (repeat' split) <;> simp

@[simp] theorem promoteSkip_failLog (s : State) : failLog (promoteSkip s) = failLog s := by simp [promoteSkip]

@[simp] theorem promotePage_failLog (s : State) (seq page : Nat) (forOp : Option Nat) :
    failLog (promotePage s seq page forOp) = failLog s := by
  simp [promotePage]

@[simp] theorem endMove_failLog (s : State) (mv : CcmMoveRun) : failLog (endMove s mv) = failLog s := by
  simp only [endMove]; (repeat' split) <;> simp

@[simp] theorem abandonMove_failLog (s : State) (mv : CcmMoveRun) : failLog (abandonMove s mv) = failLog s := by
  simp only [abandonMove]; split <;> simp

@[simp] theorem ccmView_logGrows (s : State) (host : List HostLine) (tier f : Nat) :
    LogGrows s (ccmView s host tier f).s := .of <| by
  simp [ccmView]

@[simp] theorem execCcmMove_growsLog (id : Nat) (host : List HostLine) (s : State) : GrowsLog s (execCcmMove id host s) := by
  simp only [execCcmMove]; (repeat' split) <;> simp

@[simp] theorem setHand_failLog (s : State) (tier h : Nat) : failLog (setHand s tier h) = failLog s := by
  simp only [setHand]; split <;> simp

@[simp] theorem handStep_failLog (s : State) (tier : Nat) : failLog (handStep s tier) = failLog s := by simp [handStep]

@[simp] theorem sweep_failLog (tier want k : Nat) (s : State) : failLog (sweep tier want k s) = failLog s := by
  induction k generalizing s with
  | zero => rfl
  | succ k ih => simp only [sweep]; split <;> simp [ih]

@[simp] theorem setSweep_failLog (s : State) (tier : Nat) (b : Bool) : failLog (setSweep s tier b) = failLog s := by
  simp only [setSweep]; split <;> simp

@[simp] theorem execDemotionSweep_growsLog (pool : BitVec 2) (s : State) : GrowsLog s (execDemotionSweep pool s) := by
  simp only [execDemotionSweep]; (repeat' split) <;> simp

@[simp] theorem ccmRun_failLog (s : State) (n : Nat) (o : NextOp) (st : Status) (finished : Bool) :
    failLog (ccmRun s n o st finished) = failLog s := by
  simp [ccmRun]

@[simp] theorem appendRows_failLog (s : State) (n : Nat) (p : CcmParm) (tier f : Nat) :
    failLog (appendRows s n p tier f).1 = failLog s := by
  simp [appendRows]

@[simp] theorem appendTo_failLog (s : State) (n : Nat) (o : NextOp) (a tier f : Nat) (e : PageEntry) :
    failLog (appendTo s n o a tier f e) = failLog s := by
  simp only [appendTo]; (repeat' split) <;> simp

@[simp] theorem execAppend_growsLog (core : CoreId) (s : State) : GrowsLog s (execAppend core s) := by
  simp only [execAppend]; (repeat' split) <;> simp

@[simp] theorem fetchRow_failLog (s0 : State) (m : Mem) (n : Nat) (p : CcmParm) (tier f fill : Nat) (poison : Bool)
    (j r : Nat) (s : State) : failLog (fetchRow s0 m n p tier f fill poison j r s) = failLog s := by
  simp [fetchRow]

@[simp] theorem fetchPage_logGrows (s0 : State) (n : Nat) (p : CcmParm) (host : List HostLine) (x : State × Bool) (j : Nat) :
    LogGrows x.1 (fetchPage s0 n p host x j).1 := .of <| by
  simp only [fetchPage]; (repeat' split) <;> simp

@[simp] theorem execFetch_growsLog (core : CoreId) (host : List HostLine) (s : State) :
    GrowsLog s (execFetch core host s) := by
  simp only [execFetch]; (repeat' split) <;> simp

@[simp] theorem execPromote_growsLog (core : CoreId) (s : State) : GrowsLog s (execPromote core s) := by
  simp only [execPromote]; (repeat' split) <;> simp

@[simp] theorem truncPage_failLog (seq : Nat) (s : State) (i : Nat) : failLog (truncPage seq s i) = failLog s := by
  simp only [truncPage]; split <;> simp

@[simp] theorem execTruncate_growsLog (core : CoreId) (s : State) : GrowsLog s (execTruncate core s) := by
  simp only [execTruncate]; (repeat' split) <;> simp

@[simp] theorem ccmStop_failLog (s : State) : failLog (ccmStop s) = failLog s := by simp [ccmStop]

@[simp] theorem writeSeqBase_failLog (s : State) (value : Nat) : failLog (writeSeqBase s value) = failLog s := by
  simp [writeSeqBase]

@[simp] theorem execCcmReady_growsLog (s : State) : GrowsLog s (execCcmReady s) := by simp only [execCcmReady]; split <;> simp

/-! ### Slots, bindings and micro-batch records (chapter 08) -/

@[simp] theorem putSlot_failLog (s : State) (tid : Nat) (e : SlotEntry) : failLog (putSlot s tid e) = failLog s := by
  simp [putSlot]

@[simp] theorem unpin_failLog (s : State) (x : Nat × Nat) : failLog (unpin s x) = failLog s := by simp [unpin]

@[simp] theorem setMbState_failLog (s : State) (mb v : Nat) : failLog (setMbState s mb v) = failLog s := by simp [setMbState]

@[simp] theorem setMbPins_failLog (s : State) (mb : Nat) (ps : List (Nat × Nat)) :
    failLog (setMbPins s mb ps) = failLog s := by
  simp [setMbPins]

@[simp] theorem releaseAll_failLog (s : State) (mb : Nat) : failLog (releaseAll s mb) = failLog s := by simp [releaseAll]

@[simp] theorem excludeMb_failLog (s : State) (mb : Nat) : failLog (excludeMb s mb) = failLog s := by
  simp only [excludeMb]; split <;> simp

@[simp] theorem doneMb_failLog (s : State) (mb : Nat) (st : Status) : failLog (doneMb s mb st) = failLog s := by
  simp only [doneMb]; split <;> simp

@[simp] theorem lateMb_failLog (s : State) (mb : Nat) (useDefault : Bool) : failLog (lateMb s mb useDefault) = failLog s := by
  simp [lateMb]

@[simp] theorem updateBegins_failLog (s : State) (step : Nat) (useDefault : Bool) :
    failLog (updateBegins s step useDefault) = failLog s := by
  simp [updateBegins]

@[simp] theorem addPin_failLog (s : State) (x : Nat × Nat) : failLog (addPin s x) = failLog s := by simp [addPin]

@[simp] theorem takePins_failLog (s : State) (r : Resolve) (mb : Option Nat) : failLog (takePins s r mb) = failLog s := by
  simp only [takePins]; (repeat' split) <;> simp

@[simp] theorem patchBind_failLog (s : State) (x : Binding × Nat) : failLog (patchBind s x) = failLog s := by
  simp only [patchBind]; split <;> simp

@[simp] theorem underPhase_failLog (ph : PhaseRun) (s : State) : failLog (underPhase ph s) = failLog s := by simp [underPhase]

@[simp] theorem withTrn_failLog {f : State → State} (h : ∀ x, failLog (f x) = failLog x) (ph : PhaseRun) (s : State) :
    failLog (withTrn ph f s) = failLog s := by
  simp [withTrn, h]

@[simp] theorem noteCarried_failLog (s : State) (m : Nat) : failLog (noteCarried s m) = failLog s := by simp [noteCarried]

@[simp] theorem endBind_failLog (mb : Option Nat) (late : Bool) (s : State) (b : Binding) :
    failLog (endBind mb late s b) = failLog s := by
  simp only [endBind]; (repeat' split) <;> simp

@[simp] theorem endPhaseBinds_failLog (ph : PhaseRun) (s : State) : failLog (endPhaseBinds ph s) = failLog s := by
  simp [endPhaseBinds]

@[simp] theorem writeSlotBase_failLog (s : State) (value : Nat) : failLog (writeSlotBase s value) = failLog s := by
  have reread : ∀ x : State, failLog (if bit value 0 then
      let r := read x .dram (slotTab x) 4
      match r.err with
      | some _ => x
      | none => { x with trn := { x.trn with committed := BitVec.ofNat 32 (leNat r.data) } }
    else x) = failLog x := by
    intro x; dsimp only; (repeat' split) <;> simp
  exact (reread _).trans (failLog_mk ..)

@[simp] theorem doFlip_failLog (s : State) (v : Nat) : failLog (doFlip s v).1 = failLog s := by
  simp only [doFlip]; (repeat' split) <;> simp

/-! ### The Meridian Update Units (chapter 09) -/

@[simp] theorem demandTensor_logGrows (s : State) (r : MuuRec) (base : Nat) : LogGrows s (demandTensor s r base) := .of <| by
  simp [demandTensor]

@[simp] theorem putRec_failLog (s : State) (p : MuuParm) (i off : Nat) (b : Bytes) :
    failLog (putRec s p i off b) = failLog s := by
  simp [putRec]

@[simp] theorem markRec_failLog (s : State) (p : MuuParm) (i : Nat) (st : Status) (flags : Nat) :
    failLog (markRec s p i st flags) = failLog s := by
  simp [markRec]

@[simp] theorem tensorFail_failLog (s : State) (tid step at_ : Nat) (st : Status) :
    failLog (tensorFail s tid step at_ st) = failLog s := by
  simp [tensorFail]

@[simp] theorem drawIf_failLog (b : Bool) (k : Nat) (s : State) : failLog (drawIf b k s) = failLog s := by
  simp only [drawIf]; split <;> simp

@[simp] theorem endPass_failLog (s : State) (r : MuuRun) (st : Status) : failLog (endPass s r st) = failLog s := by
  simp [endPass]

@[simp] theorem withPhase_failLog {f : State → State} (h : ∀ x, failLog (f x) = failLog x) (id p : Nat) (s : State) :
    failLog (withPhase id p f s) = failLog s := by
  simp only [withPhase]; split <;> simp [h]

@[simp] theorem withPhase_logGrows {f : State → State} (h : ∀ x, LogGrew (failLog x) (failLog (f x))) (id p : Nat)
    (s : State) : LogGrows s (withPhase id p f s) := .of <| by
  simp only [withPhase]; split
  · next ph _ => simpa [withTrn] using h (underPhase ph s)
  · exact h s

@[simp] theorem startPass_failLog (s : State) (id p : Nat) (o : NextOp) : failLog (startPass s id p o) = failLog s := by
  simp [startPass]

@[simp] theorem passOneTensor_logGrows (x : State × MuuRun) (i : Nat) : LogGrows x.1 (passOneTensor x i).1 := .of <| by
  simp only [passOneTensor]; (repeat' split) <;> simp

@[simp] theorem passOneGo_logGrows (s : State) : LogGrows s (passOneGo s) := .of <| by
  simp only [passOneGo]; (repeat' split) <;> simp

@[simp] theorem execMuuPassOne_growsLog (loc : OpLoc) (s : State) : GrowsLog s (execMuuPassOne loc s) := by
  simp only [execMuuPassOne]; (repeat' split) <;> simp

@[simp] theorem combined_failLog (s : State) (step : Nat) (c : Status × Nat × Nat) :
    failLog (combined s step c) = failLog s := by
  simp [combined]

@[simp] theorem execMuuCombine_growsLog (loc : OpLoc) (s : State) : GrowsLog s (execMuuCombine loc s) := by
  simp only [execMuuCombine]; (repeat' split) <;> simp

@[simp] theorem zeroGrad_failLog (s : State) (r : MuuRec) : failLog (zeroGrad s r) = failLog s := by simp [zeroGrad]

@[simp] theorem gradReset_failLog (s : State) (r : MuuRec) (step : Nat) : failLog (gradReset s r step) = failLog s := by
  simp [gradReset]

@[simp] theorem noteOverflow_failLog (run : MuuRun) (of : Bool) (s : State) :
    failLog (noteOverflow run of s) = failLog s := by
  simp only [noteOverflow]; split <;> simp

@[simp] theorem writeRowTwo_failLog (run : MuuRun) (r : MuuRec) (ab cb row : Nat) (vals : List (Nat × Nat)) (s : State) :
    failLog (writeRowTwo run r ab cb row vals s) = failLog s := by
  simp only [writeRowTwo]; split <;> simp

@[simp] theorem updateTensor_logGrows (s : State) (run : MuuRun) (r : MuuRec) :
    LogGrows s (updateTensor s run r).1 := .of <| by
  simp only [updateTensor]; (repeat' split) <;> simp

@[simp] theorem passTwoDone_failLog (s : State) (run : MuuRun) (i : Nat) (r : MuuRec) (deferred skip : Bool)
    (st : Option (Status × Nat)) : failLog (passTwoDone s run i r deferred skip st).1 = failLog s := by
  simp only [passTwoDone]; (repeat' split) <;> simp

@[simp] theorem passTwoTensor_logGrows (x : State × MuuRun) (i : Nat) : LogGrows x.1 (passTwoTensor x i).1 := .of <| by
  simp only [passTwoTensor]; (repeat' split) <;> simp

@[simp] theorem passTwoGo_logGrows (s : State) : LogGrows s (passTwoGo s) := .of <| by
  simp only [passTwoGo]; (repeat' split) <;> simp

@[simp] theorem execMuuPassTwo_growsLog (loc : OpLoc) (s : State) : GrowsLog s (execMuuPassTwo loc s) := by
  simp only [execMuuPassTwo]; (repeat' split) <;> simp

@[simp] theorem execDeferralRecheck_growsLog (s : State) : GrowsLog s (execDeferralRecheck s) := by
  simp only [execDeferralRecheck]; (repeat' split) <;> simp

@[simp] theorem excludePinning_failLog (s : State) (run : MuuRun) : failLog (excludePinning s run) = failLog s := by
  simp [excludePinning]

@[simp] theorem execStragglerDeadline_growsLog (s : State) : GrowsLog s (execStragglerDeadline s) := by
  simp only [execStragglerDeadline]; (repeat' split) <;> simp

@[simp] theorem rollEntry_failLog (recs : List MuuRec) (s : State) (tid : Nat) :
    failLog (rollEntry recs s tid) = failLog s := by
  simp only [rollEntry]; (repeat' split) <;> simp

@[simp] theorem doRollback_failLog (s : State) (v : Nat) : failLog (doRollback s v).1 = failLog s := by
  simp only [doRollback]; (repeat' split) <;> simp

/-! ### Links and routing of the fabric (chapter 12) -/

@[simp] theorem setFab_failLog (s : State) (p : Nat) (x : FabPortState) : failLog (setFab s p x) = failLog s := by
  simp [setFab]

@[simp] theorem enterPort_failLog (s : State) (p : Nat) (st : BitVec 3) : failLog (enterPort s p st) = failLog s := by
  simp [enterPort]

@[simp] theorem sendIdle_failLog (s : State) (p : Nat) : failLog (sendIdle s p) = failLog s := by
  simp only [sendIdle]; split <;> simp

@[simp] theorem takeTag_failLog (s : State) (fi t part limitNs : Nat) (o : FabOwner) :
    failLog (takeTag s fi t part limitNs o) = failLog s := by
  simp [takeTag]

@[simp] theorem dropFabric_failLog (s : State) (mine : FabOwner → Bool) : failLog (dropFabric s mine) = failLog s := by
  simp [dropFabric]

@[simp] theorem freeSource_failLog (s : State) (src : Option (Nat × Nat × Nat)) : failLog (freeSource s src) = failLog s := by
  simp only [freeSource]; split <;> simp

@[simp] theorem putOnLink_failLog (s : State) (p : Nat) (o : OutPkt) (bytes : Bytes) :
    failLog (putOnLink s p o bytes) = failLog s := by
  simp [putOnLink]

theorem trySend_failLog {s t : State} {p : Nat} {o : OutPkt} (h : trySend s p o = some t) : failLog t = failLog s := by
  revert h
  simp only [trySend]; (repeat' split) <;> simp <;> rintro rfl <;> simp

@[simp] theorem drainList_failLog (p : Nat) (l : List OutPkt) (blocked : List Nat) (s : State) (kept : List OutPkt) :
    failLog (drainList p l blocked s kept).1 = failLog s := by
  induction l generalizing blocked s kept with
  | nil => rfl
  | cons o os ih =>
    simp only [drainList]; split
    · exact ih ..
    · split
      · next h => rw [ih, trySend_failLog h]
      · exact ih ..

@[simp] theorem drainPort_failLog (s : State) (p : Nat) : failLog (drainPort s p) = failLog s := by
  simp only [drainPort]; split <;> simp

@[simp] theorem sendOut_failLog (s : State) (p : Nat) (o : OutPkt) : failLog (sendOut s p o) = failLog s := by simp [sendOut]

@[simp] theorem countNoRoute_failLog (s : State) : failLog (countNoRoute s) = failLog s := by simp [countNoRoute]

@[simp] theorem countRouteErr_failLog (s : State) : failLog (countRouteErr s) = failLog s := by simp [countRouteErr]

@[simp] theorem waitAtFi_failLog (s : State) (l : LoopPkt) : failLog (waitAtFi s l) = failLog s := by simp [waitAtFi]

@[simp] theorem losePkt_failLog {count : State → State} (h : ∀ x, failLog (count x) = failLog x) (s : State) (l : LoopPkt) :
    failLog (losePkt count s l) = failLog s := by
  simp only [losePkt]; (repeat' split) <;> simp [h]

@[simp] theorem routePkt_failLog (s : State) (dst cls : Nat) (l : LoopPkt) : failLog (routePkt s dst cls l) = failLog s := by
  simp only [routePkt]; (repeat' split) <;> simp

@[simp] theorem injectPkt_failLog (s : State) (fi dst cls : Nat) (bytes : Bytes) (part : Option Nat) (limitNs : Nat)
    (o : Option FabOwner) (src : Option (Nat × Nat × Nat)) :
    failLog (injectPkt s fi dst cls bytes part limitNs o src) = failLog s := by
  simp only [injectPkt]; split <;> simp

@[simp] theorem injectPlain_failLog (s : State) (fi : Nat) (h : PktSpec) (payload : Bytes) (o : Option FabOwner)
    (src : Option (Nat × Nat × Nat)) : failLog (injectPlain s fi h payload o src) = failLog s := by
  simp [injectPlain]

@[simp] theorem bufferPkt_failLog (s : State) (p : Nat) (b : Bytes) : failLog (bufferPkt s p b) = failLog s := by
  simp [bufferPkt]

@[simp] theorem forwardPkt_failLog (s : State) (p : Nat) (src : Option (Nat × Nat × Nat)) (b : Bytes) :
    failLog (forwardPkt s p src b) = failLog s := by
  simp only [forwardPkt]; (repeat' split) <;> simp

@[simp] theorem flushQueue_failLog (s : State) (p : Nat) (l : List OutPkt) : failLog (flushQueue s p l) = failLog s := by
  induction l with
  | nil => simp [flushQueue]
  | cons o os ih => simp [flushQueue, ih]

@[simp] theorem leaveUp_failLog (s : State) (p : Nat) (st : BitVec 3) : failLog (leaveUp s p st) = failLog s := by
  simp [leaveUp]

@[simp] theorem forgetSource_failLog (s : State) (p : Nat) : failLog (forgetSource s p) = failLog s := by simp [forgetSource]

@[simp] theorem dropPort_failLog (s : State) (p : Nat) : failLog (dropPort s p) = failLog s := by
  simp only [dropPort]; split <;> simp

@[simp] theorem wakePort_failLog (s : State) (p : Nat) : failLog (wakePort s p) = failLog s := by
  simp only [wakePort]; split <;> simp

@[simp] theorem disablePort_failLog (s : State) (p : Nat) : failLog (disablePort s p) = failLog s := by simp [disablePort]

@[simp] theorem settleParam_failLog (s : State) (p : Nat) : failLog (settleParam s p) = failLog s := by simp [settleParam]

/-! ### Descriptors and ends of collectives (chapter 13) -/

@[simp] theorem markSlots_failLog (s : State) (first k : Nat) (b : Bool) : failLog (markSlots s first k b) = failLog s := by
  simp [markSlots]

@[simp] theorem modColl_failLog (s : State) (id : Nat) (f : Coll → Coll) : failLog (modColl s id f) = failLog s := by
  simp [modColl]

@[simp] theorem fiRead_logGrows (s : State) (host : List HostLine) (a n : Nat) : LogGrows s (fiRead s host a n).1 := .of <| by
  simp [fiRead]

@[simp] theorem fiWrite_failLog (s : State) (a : Nat) (bs : Bytes) (poison : Bool) :
    failLog (fiWrite s a bs poison) = failLog s := by
  simp [fiWrite]

@[simp] theorem readSeg_logGrows (s : State) (c : Coll) (j : Nat) : LogGrows s (readSeg s c j).1 := .of <| by
  simp only [readSeg]; (repeat' split) <;> simp

@[simp] theorem landLineTo_failLog (targets : List HostGrant) (a : Nat) (bs : Bytes) (poison : Nat → Bool)
    (x : State × Option Status) (l : Nat) : failLog (landLineTo targets a bs poison x l).1 = failLog x.1 := by
  simp only [landLineTo]; split <;> simp

@[simp] theorem landSpan_failLog (targets : List HostGrant) (s : State) (a : Nat) (bs : Bytes) (poison : Nat → Bool) :
    failLog (landSpan targets s a bs poison).1 = failLog s := by
  simp [landSpan]

@[simp] theorem landSeg_failLog (targets : List HostGrant) (s : State) (c : Coll) (j : Nat) (bs : Bytes) (poison : Bool) :
    failLog (landSeg targets s c j bs poison).1 = failLog s := by
  simp only [landSeg]; split <;> simp

@[simp] theorem fiPoison_failLog (s : State) (a n : Nat) : failLog (fiPoison s a n) = failLog s := by simp [fiPoison]

@[simp] theorem ownerEnd_failLog (s : State) (o : OpOwner) (st : Status) : failLog (ownerEnd s o st) = failLog s := by
  simp only [ownerEnd]; split <;> simp

@[simp] theorem collResult_failLog (s : State) (c : Coll) (st : Status) (parts : Nat) :
    failLog (collResult s c st parts) = failLog s := by
  simp [collResult]

@[simp] theorem closeColl_failLog (s : State) (c : Coll) (st : Status) (parts : Nat) :
    failLog (closeColl s c st parts) = failLog s := by
  simp only [closeColl]; split <;> simp

@[simp] theorem collSend_failLog (s : State) (c : Coll) (rank kind item addr : Nat) (payload : Bytes) (poison : Bool) :
    failLog (collSend s c rank kind item addr payload poison) = failLog s := by
  simp [collSend]

@[simp] theorem poisonDst_failLog (s : State) (c : Coll) : failLog (poisonDst s c) = failLog s := by
  simp only [poisonDst]; split <;> simp

@[simp] theorem stopColl_failLog (s : State) (id : Nat) : failLog (stopColl s id) = failLog s := by simp [stopColl]

@[simp] theorem abortHere_failLog (s : State) (c : Coll) (st : Status) : failLog (abortHere s c st) = failLog s := by
  simp [abortHere]

@[simp] theorem abortedBy_failLog (s : State) (c : Coll) (st : Status) : failLog (abortedBy s c st) = failLog s := by
  simp [abortedBy]

@[simp] theorem abortColl_failLog (s : State) (id : Nat) (st : Status) : failLog (abortColl s id st) = failLog s := by
  simp only [abortColl]; (repeat' split) <;> simp

@[simp] theorem abortCollsOf_failLog (s : State) (stream : Nat) (phase : Option Nat) :
    failLog (abortCollsOf s stream phase) = failLog s := by
  simp [abortCollsOf]

/-! ### Queues and their records (chapter 11) -/

@[simp] theorem queueError_failLog (s : State) (n : Nat) : failLog (queueError s n) = failLog s := by
  simp only [queueError]; split <;> simp

@[simp] theorem cmdDeny_failLog (s : State) (write : Bool) (a n : Nat) : failLog (cmdDeny s write a n) = failLog s := by
  simp only [cmdDeny]
  rw [foldl_failLog]
  intro x l; split <;> simp

@[simp] theorem cmdWrite_failLog (s : State) (a : Nat) (bs : Bytes) : failLog (cmdWrite s a bs).1 = failLog s := by
  simp only [cmdWrite]; split
  · split
    · dsimp only
      rw [foldl_failLog]
      intro x l; (repeat' split) <;> simp
    · simp
  · simp

@[simp] theorem putRecord_failLog (s : State) (n : Nat) (r : Record) : failLog (putRecord s n r) = failLog s := by
  simp only [putRecord]; (repeat' split) <;> simp

@[simp] theorem postRecord_failLog (s : State) (n : Nat) (r : Record) : failLog (postRecord s n r) = failLog s := by
  simp [postRecord]

@[simp] theorem flushHeld_failLog (k : Nat) (s : State) (n : Nat) : failLog (flushHeld k s n) = failLog s := by
  induction k generalizing s with
  | zero => rfl
  | succ k ih => simp only [flushHeld]; (repeat' split) <;> simp [ih]

@[simp] theorem flushQueueHeld_failLog (s : State) (n : Nat) : failLog (flushQueueHeld s n) = failLog s := by
  simp [flushQueueHeld]

@[simp] theorem noteServed_failLog (s : State) (n : Nat) : failLog (noteServed s n) = failLog s :=
  failLog_of_keeps (noteServed_keeps s n) rfl

@[simp] theorem completeFull_failLog (s : State) (n : Nat) (f : Fetched) (st : Status) (split late : Bool) (parts : BitVec 16)
    (effect : Bool) : failLog (completeFull s n f st split late parts effect) = failLog s := by
  simp only [completeFull]; split <;> simp

@[simp] theorem completeDesc_failLog (s : State) (n : Nat) (f : Fetched) (st : Status) :
    failLog (completeDesc s n f st) = failLog s := by
  simp [completeDesc]

@[simp] theorem refuseDesc_failLog (s : State) (n : Nat) (f : Fetched) (st : Status) :
    failLog (refuseDesc s n f st) = failLog s := by
  simp [refuseDesc]

@[simp] theorem keyFailure_failLog (s : State) (n : Nat) (st : Status) : failLog (keyFailure s n st) = failLog s := by
  simp [keyFailure]

@[simp] theorem verifyDesc_failLog (s : State) (n : Nat) (d : Bytes) : failLog (verifyDesc s n d).1 = failLog s := by
  simp only [verifyDesc]; (repeat' split) <;> simp

@[simp] theorem takePeer_failLog (s : State) (n : Nat) (desc : Bool) : failLog (takePeer s n desc).1 = failLog s := by
  simp [takePeer]

@[simp] theorem askPeer_failLog (s : State) (n : Nat) (desc : Bool) (a len : Nat) :
    failLog (askPeer s n desc a len) = failLog s := by
  simp [askPeer]

@[simp] theorem forgetPeer_failLog (s : State) (n : Nat) : failLog (forgetPeer s n) = failLog s := by simp [forgetPeer]

@[simp] theorem readDoorbell_failLog (s : State) (n : Nat) : failLog (readDoorbell s n) = failLog s := by simp [readDoorbell]

@[simp] theorem wakeIfAsleep_failLog (s : State) : failLog (wakeIfAsleep s) = failLog s := by
  simp only [wakeIfAsleep]; split <;> simp

@[simp] theorem wakeWrite_failLog (p : HPort) (value : BitVec 32) (s : State) :
    failLog (wakeWrite p value s) = failLog s := by
  simp [wakeWrite]

@[simp] theorem execCmdWake_growsLog (port : HPort) (value : BitVec 32) (s : State) :
    GrowsLog s (execCmdWake port value s) := by
  simp only [execCmdWake]; split <;> simp

@[simp] theorem execDoorbellPoll_growsLog (s : State) : GrowsLog s (execDoorbellPoll s) := by
  simp only [execDoorbellPoll]; split <;> simp

@[simp] theorem askDescs_failLog (s : State) (n : Nat) : failLog (askDescs s n) = failLog s := by
  simp only [askDescs]; split <;> simp

@[simp] theorem doorbellWord_failLog (s : State) (n : Nat) (w : BitVec 64) : failLog (doorbellWord s n w) = failLog s := by
  simp [doorbellWord]

@[simp] theorem execDoorbellRead_growsLog (queue : QueueId) (word : Option (BitVec 64)) (s : State) :
    GrowsLog s (execDoorbellRead queue word s) := by
  simp only [execDoorbellRead]; (repeat' split) <;> simp

@[simp] theorem refuseFetched_failLog (s : State) (n : Nat) (f : Fetched) (st : Status) :
    failLog (refuseFetched s n f st) = failLog s := by
  simp [refuseFetched]

@[simp] theorem takeDesc_failLog (n : Nat) (s : State) (rd : Except Status Bytes) :
    failLog (takeDesc n s rd) = failLog s := by
  simp only [takeDesc]; (repeat' split) <;> simp

@[simp] theorem execDescriptorFetch_growsLog (queue : QueueId) (descs : List (Option Bytes)) (s : State) :
    GrowsLog s (execDescriptorFetch queue descs s) := by
  simp only [execDescriptorFetch]; (repeat' split) <;> simp

@[simp] theorem markStarted_failLog (s : State) (n : Nat) (f : Fetched) : failLog (markStarted s n f) = failLog s := by
  simp [markStarted]

@[simp] theorem execNop_growsLog (queue : QueueId) (s : State) : GrowsLog s (execNop queue s) := by
  simp only [execNop]; split <;> simp

@[simp] theorem enableQueue_failLog (s : State) (n : Nat) : failLog (enableQueue s n) = failLog s := by simp [enableQueue]

@[simp] theorem stopReads_failLog (s : State) (n : Nat) : failLog (stopReads s n) = failLog s := by simp [stopReads]

@[simp] theorem disableQueue_failLog (s : State) (n : Nat) : failLog (disableQueue s n) = failLog s := by simp [disableQueue]

@[simp] theorem writeQueueCtl_failLog (p : HPort) (n value : Nat) (s : State) :
    failLog (writeQueueCtl p n value s) = failLog s := by
  simp [writeQueueCtl]

@[simp] theorem orphanQueues_failLog (s : State) (p : HPort) : failLog (orphanQueues s p) = failLog s := by
  simp [orphanQueues]

/-! ### Forced ends (chapter 11) -/

@[simp] theorem poisonRows_failLog (s : State) (a len rows pitch : Nat) :
    failLog (poisonRows s a len rows pitch) = failLog s := by
  simp [poisonRows]

@[simp] theorem poisonMat_failLog (s : State) (m : Mat) (rows cols : Nat) :
    failLog (poisonMat s m rows cols) = failLog s := by
  simp [poisonMat]

@[simp] theorem poisonVe_failLog (s : State) (n : Nat) (v : VeRun) : failLog (poisonVe s n v) = failLog s := by
  simp [poisonVe]

@[simp] theorem poisonCoe_failLog (s : State) (n : Nat) (r : OpRun) : failLog (poisonCoe s n r) = failLog s := by
  simp [poisonCoe]

@[simp] theorem poisonDma_failLog (s : State) (r : OpRun) : failLog (poisonDma s r) = failLog s := by
  simp only [poisonDma]; split <;> simp

@[simp] theorem poisonCcm_failLog (s : State) (n : Nat) (r : OpRun) : failLog (poisonCcm s n r) = failLog s := by
  simp [poisonCcm]

@[simp] theorem poisonMuu_failLog (s : State) (run : MuuRun) : failLog (poisonMuu s run) = failLog s := by simp [poisonMuu]

@[simp] theorem poisonGet_failLog (s : State) (d : Bytes) : failLog (poisonGet s d) = failLog s := by
  simp only [poisonGet]; split <;> simp

@[simp] theorem endCoreOps_failLog (s : State) (n : Nat) (mine : Token → Bool) :
    failLog (endCoreOps s n mine).1 = failLog s := by
  unfold endCoreOps
  extract_lets c lpa lpaP ve veP coe dma ccm s1 s2 s3 s4 s5 s6 s7 d t
  clear_value lpa lpaP ve veP coe dma ccm
  have h1 : failLog s1 = failLog s := by cases lpa <;> simp [s1]
  have h2 : failLog s2 = failLog s1 := by cases lpaP <;> simp [s2]
  have h3 : failLog s3 = failLog s2 := by cases ve <;> simp [s3]
  have h4 : failLog s4 = failLog s3 := by cases veP <;> simp [s4]
  have h5 : failLog s5 = failLog s4 := by cases coe <;> simp [s5]
  have h6 : failLog s6 = failLog s5 := by cases dma <;> simp [s6]
  have h7 : failLog s7 = failLog s6 := by cases ccm <;> simp [s7]
  simp only [t, setCore_failLog, h7, h6, h5, h4, h3, h2, h1]

@[simp] theorem dropLists_failLog (s : State) (n : Nat) (mine : Token → Bool) : failLog (dropLists s n mine) = failLog s := by
  simp [dropLists]

@[simp] theorem dropSamples_failLog (s : State) (stream : Nat) (phase : Option Nat) :
    failLog (dropSamples s stream phase) = failLog s := by
  simp [dropSamples]

@[simp] theorem disarm_failLog (s : State) (id : Nat) : failLog (disarm s id) = failLog s := by simp [disarm]

@[simp] theorem settleStream_failLog (s : State) (id : Nat) : failLog (settleStream s id) = failLog s := by
  simp only [settleStream]; (repeat' split) <;> simp

@[simp] theorem stopStream_failLog (s : State) (id : Nat) (st : Status) : failLog (stopStream s id st) = failLog s := by
  simp [stopStream]

@[simp] theorem overStop_failLog (s : State) (id : Nat) (st : Status) : failLog (overStop s id st) = failLog s := by
  simp [overStop]

@[simp] theorem endMb_failLog (s : State) (r : StreamRun) (p : Nat) (record : Bytes) (st : Status) :
    failLog (endMb s r p record st) = failLog s := by
  simp only [endMb]; (repeat' split) <;> simp

@[simp] theorem putPstat_failLog (s : State) (r : StreamRun) (p : Nat) (st : Status) :
    failLog (putPstat s r p st) = failLog s := by
  simp [putPstat]

@[simp] theorem endPhase_failLog (s : State) (id p : Nat) : failLog (endPhase s id p) = failLog s := by
  simp only [endPhase]; split <;> simp

@[simp] theorem dropFired_failLog (s : State) (id : Nat) (phase : Option Nat) :
    failLog (dropFired s id phase) = failLog s := by
  simp [dropFired]

@[simp] theorem forceEnd_failLog (s : State) (id p : Nat) (st : Status) (hard : Bool) :
    failLog (forceEnd s id p st hard) = failLog s := by
  simp only [forceEnd]; (repeat' split) <;> simp

@[simp] theorem fabricStops_failLog (s : State) (id p : Nat) (d : Bytes) (st : Status) :
    failLog (fabricStops s id p d st) = failLog s := by
  simp only [fabricStops]; split <;> simp

@[simp] theorem finishFired_failLog (s : State) (f : FiredOp) (st : Status) : failLog (finishFired s f st) = failLog s := by
  simp [finishFired]

@[simp] theorem settleFired_failLog (k : Nat) (s : State) : failLog (settleFired k s) = failLog s := by
  induction k generalizing s with
  | zero => rfl
  | succ k ih => simp only [settleFired]; split <;> simp [ih]

@[simp] theorem endWindowSet_failLog (s : State) : failLog (endWindowSet s) = failLog s := by
  simp only [endWindowSet]; (repeat' split) <;> simp

@[simp] theorem settleAllFired_failLog (s : State) : failLog (settleAllFired s) = failLog s := by simp [settleAllFired]

@[simp] theorem forceStream_failLog (s : State) (id : Nat) (st : Status) : failLog (forceStream s id st) = failLog s := by
  simp only [forceStream]; split <;> simp

@[simp] theorem softStop_failLog (s : State) (id : Nat) (st : Status) : failLog (softStop s id st) = failLog s := by
  simp [softStop]

@[simp] theorem clearAvail_failLog (s : State) (n : Nat) : failLog (clearAvail s n) = failLog s := by simp [clearAvail]

@[simp] theorem loseCore_failLog (s : State) (n : Nat) : failLog (loseCore s n) = failLog s := by simp [loseCore]

@[simp] theorem markCore_logGrows (s : State) (n : Nat) (st : Status) : LogGrows s (markCore s n st) := .of <| by
  simp only [markCore]; split <;> simp

@[simp] theorem markCluster_logGrows (s : State) (c : Nat) (st : Status) : LogGrows s (markCluster s c st) := .of <| by
  simp [markCluster]

@[simp] theorem execCoreNoProgress_growsLog (core : CoreId) (s : State) : GrowsLog s (execCoreNoProgress core s) := by
  simp only [execCoreNoProgress]; split <;> simp

@[simp] theorem dropAwait_failLog (s : State) (o : FabOwner) : failLog (dropAwait s o) = failLog s := by simp [dropAwait]

@[simp] theorem completeIoOp_failLog (s : State) (id p i : Nat) : failLog (completeIoOp s id p i) = failLog s := by
  simp only [completeIoOp]; (repeat' split) <;> simp

@[simp] theorem execOpComplete_growsLog (loc : OpLoc) (unit : OpUnit) (s : State) :
    GrowsLog s (execOpComplete loc unit s) := by
  simp only [execOpComplete]; split <;> simp

/-! ### Streams and phases (chapter 11) -/

@[simp] theorem zeroCounters_failLog (s : State) (d : Bytes) : failLog (zeroCounters s d) = failLog s := by
  simp [zeroCounters]

@[simp] theorem admitStream_failLog (s : State) (q : Nat) (f : Fetched) (p : StreamPlan) :
    failLog (admitStream s q f p) = failLog s := by
  simp [admitStream]

@[simp] theorem execRunStream_growsLog (queue : QueueId) (s : State) : GrowsLog s (execRunStream queue s) := by
  simp only [execRunStream]; (repeat' split) <;> simp

@[simp] theorem execStreamAdmit_growsLog (queue : QueueId) (index : BitVec 32) (s : State) :
    GrowsLog s (execStreamAdmit queue index s) := by
  simp only [execStreamAdmit]; (repeat' split) <;> simp

@[simp] theorem execStreamAbort_growsLog (queue : QueueId) (s : State) : GrowsLog s (execStreamAbort queue s) := by
  simp only [execStreamAbort]; (repeat' split) <;> simp

@[simp] theorem skipPhase_failLog (s : State) (id : Nat) (r : StreamRun) (st : Status) :
    failLog (skipPhase s id r st) = failLog s := by
  simp only [skipPhase]; split <;> simp

@[simp] theorem copyList_failLog (s : State) (e : ListEntry) : failLog (copyList s e) = failLog s := by
  simp only [copyList]; split <;> simp

@[simp] theorem sendToken_failLog (svc : Bool) (t : Token) (s : State) (e : ListEntry) :
    failLog (sendToken svc t s e) = failLog s := by
  simp [sendToken]

@[simp] theorem launchPhase_failLog (s : State) (id : Nat) (r : StreamRun) (p : Nat) (pl : PhasePlan) :
    failLog (launchPhase s id r p pl) = failLog s := by
  simp [launchPhase]

@[simp] theorem execPhaseStart_growsLog (stream : StreamId) (s : State) : GrowsLog s (execPhaseStart stream s) := by
  simp only [execPhaseStart]; (repeat' split) <;> simp

@[simp] theorem triggerEvent_failLog (s : State) (p : PhaseRun) (action : Nat) :
    failLog (triggerEvent s p action) = failLog s := by
  simp [triggerEvent]

@[simp] theorem rerunPhase_failLog (s : State) (id : Nat) (r : StreamRun) (ph : PhaseRun) (entry : Bytes) (rung : Nat)
    (es : List ListEntry) : failLog (rerunPhase s id r ph entry rung es) = failLog s := by
  simp [rerunPhase]

@[simp] theorem afterTrigger_failLog (s : State) (id : Nat) (r : StreamRun) (ph : PhaseRun) :
    failLog (afterTrigger s id r ph) = failLog s := by
  simp only [afterTrigger]; (repeat' split) <;> simp

@[simp] theorem execPhaseComplete_growsLog (stream : StreamId) (phase : PhaseNo) (s : State) :
    GrowsLog s (execPhaseComplete stream phase s) := by
  simp only [execPhaseComplete]; (repeat' split) <;> simp

@[simp] theorem execPhaseWatchdog_growsLog (stream : StreamId) (phase : PhaseNo) (s : State) :
    GrowsLog s (execPhaseWatchdog stream phase s) := by
  simp only [execPhaseWatchdog]; (repeat' split) <;> simp

/-! ### The collective engine (chapter 13) -/

@[simp] theorem staleColl_failLog (s : State) : failLog (staleColl s) = failLog s := by simp [staleColl]

@[simp] theorem sealSeg_failLog (s : State) (id key : Nat) (flow : Nat → Bool) (j : Nat) (bs : Bytes) :
    failLog (sealSeg s id key flow j bs).1 = failLog s := by
  simp only [sealSeg]; (repeat' split) <;> simp

@[simp] theorem openSeg_failLog (s : State) (id key : Nat) (flow : Nat → Bool) (j : Nat) (payload : Bytes) :
    failLog (openSeg s id key flow j payload).1 = failLog s := by
  simp only [openSeg]; (repeat' split) <;> simp

@[simp] theorem hear_failLog (s : State) (id key : Nat) : failLog (hear s id key) = failLog s := by simp [hear]

@[simp] theorem failChunk_failLog (s : State) (id : Nat) (flow : Nat → Bool) (q : Nat) :
    failLog (failChunk s id flow q) = failLog s := by
  simp only [failChunk]; (repeat' split) <;> simp

@[simp] theorem landResult_failLog (s : State) (id src : Nat) (flow : Nat → Bool) (j : Nat) (payload : Bytes) (poison : Bool)
    (targets : List HostGrant) : failLog (landResult s id src flow j payload poison targets) = failLog s := by
  simp only [landResult]; (repeat' split) <;> simp

@[simp] theorem sendDown_failLog (s : State) (id j : Nat) (payload : Bytes) (poison : Bool) :
    failLog (sendDown s id j payload poison) = failLog s := by
  simp only [sendDown]; split <;> simp

@[simp] theorem sendUp_failLog (s : State) (id j : Nat) (bs : Bytes) (poison : Bool) :
    failLog (sendUp s id j bs poison) = failLog s := by
  simp only [sendUp]; split <;> simp

@[simp] theorem pumpLeaf_logGrows (k : Nat) (s : State) (id : Nat) : LogGrows s (pumpLeaf k s id) := by
  induction k generalizing s with
  | zero => exact .of .refl
  | succ k ih => refine .of ?_; simp only [pumpLeaf]; (repeat' split) <;> simp [ih]

@[simp] theorem pump_logGrows (s : State) (id : Nat) : LogGrows s (pump s id) := .of <| by
  simp only [pump]; (repeat' split) <;> simp

@[simp] theorem combineInputs_logGrows (s : State) (c : Coll) (j : Nat) : LogGrows s (combineInputs s c j).1 := .of <| by
  simp only [combineInputs]; (repeat' split) <;> simp

@[simp] theorem rootOut_failLog (s : State) (id j : Nat) (bs : Bytes) (poison : Bool) :
    failLog (rootOut s id j bs poison) = failLog s := by
  simp only [rootOut]; (repeat' split) <;> simp

@[simp] theorem combineSeg_logGrows (s : State) (id j : Nat) : LogGrows s (combineSeg s id j) := .of <| by
  simp only [combineSeg]; (repeat' split) <;> simp

@[simp] theorem epFinish_failLog (s : State) (id j : Nat) : failLog (epFinish s id j) = failLog s := by
  simp only [epFinish]; (repeat' split) <;> simp

@[simp] theorem epArrive_failLog (s : State) (id src j : Nat) (payload : Bytes) (poison : Bool) :
    failLog (epArrive s id src j payload poison) = failLog s := by
  simp only [epArrive]; (repeat' split) <;> simp

@[simp] theorem epSend_logGrows (id : Nat) (s : State) (j : Nat) : LogGrows s (epSend id s j) := .of <| by
  simp only [epSend]; (repeat' split) <;> simp

@[simp] theorem epStart_logGrows (s : State) (id : Nat) : LogGrows s (epStart s id) := .of <| by
  simp only [epStart]; (repeat' split) <;> simp

@[simp] theorem pumpDown_logGrows (k : Nat) (s : State) (id : Nat) : LogGrows s (pumpDown k s id) := by
  induction k generalizing s with
  | zero => exact .of .refl
  | succ k ih => refine .of ?_; simp only [pumpDown]; (repeat' split) <;> simp [ih]

@[simp] theorem gatherStart_logGrows (s : State) (id : Nat) : LogGrows s (gatherStart s id) := .of <| by
  simp only [gatherStart]; (repeat' split) <;> simp

@[simp] theorem broadcastStart_logGrows (s : State) (id : Nat) : LogGrows s (broadcastStart s id) := .of <| by
  simp only [broadcastStart]; (repeat' split) <;> simp

@[simp] theorem failWindow_failLog (s : State) (id src lo n : Nat) : failLog (failWindow s id src lo n) = failLog s := by
  simp only [failWindow]; split <;> simp

@[simp] theorem skipChunks_failLog (s : State) (id src q : Nat) : failLog (skipChunks s id src q) = failLog s := by
  simp only [skipChunks]; (repeat' split) <;> simp

@[simp] theorem checkWindow_failLog (s : State) (id src q n : Nat) (crc : Bytes) :
    failLog (checkWindow s id src q n crc) = failLog s := by
  simp only [checkWindow]; (repeat' split) <;> simp

@[simp] theorem a2aLand_failLog (s : State) (id src addr : Nat) (bs : Bytes) (mask : Nat) (targets : List HostGrant) :
    failLog (a2aLand s id src addr bs mask targets) = failLog s := by
  simp only [a2aLand]; (repeat' split) <;> simp

@[simp] theorem a2aCounted_failLog (s : State) (id src : Nat) (payload : Bytes) (targets : List HostGrant) :
    failLog (a2aCounted s id src payload targets) = failLog s := by
  simp only [a2aCounted]; (repeat' split) <;> simp

@[simp] theorem a2aSend_logGrows (id : Nat) (counts : List Nat) (s : State) (d : Nat) :
    LogGrows s (a2aSend id counts s d) := .of <| by
  simp only [a2aSend]; (repeat' split) <;> simp

@[simp] theorem a2aStart_logGrows (s : State) (id : Nat) : LogGrows s (a2aStart s id) := .of <| by
  simp only [a2aStart]; (repeat' split) <;> simp

@[simp] theorem finishColl_failLog (s : State) (id : Nat) : failLog (finishColl s id) = failLog s := by
  simp only [finishColl]; (repeat' split) <;> simp

@[simp] theorem lateHdr_logGrows (s : State) (host : List HostLine) (d : Bytes) : LogGrows s (lateHdr s host d).1 := .of <| by
  simp [lateHdr]

@[simp] theorem countAt_logGrows (s : State) (c : Coll) : LogGrows s (countAt s c).1 := .of <| by
  simp only [countAt]; split <;> simp

@[simp] theorem leftOut_logGrows (s : State) (id : Nat) : LogGrows s (leftOut s id) := .of <| by
  simp only [leftOut]; (repeat' split) <;> simp

@[simp] theorem moveData_logGrows (s : State) (id : Nat) : LogGrows s (moveData s id) := .of <| by
  simp only [moveData]; (repeat' split) <;> simp

@[simp] theorem applyClose_logGrows (s : State) (id n : Nat) (ep : Bool) (parentFirst : Nat) (contribs : List Nat) :
    LogGrows s (applyClose s id n ep parentFirst contribs) := .of <| by
  simp only [applyClose]; (repeat' split) <;> simp

@[simp] theorem closeRound_logGrows (s : State) (id : Nat) : LogGrows s (closeRound s id) := .of <| by
  simp only [closeRound]; (repeat' split) <;> simp

@[simp] theorem tryClose_logGrows (s : State) (id : Nat) : LogGrows s (tryClose s id) := .of <| by
  simp only [tryClose]; (repeat' split) <;> simp

@[simp] theorem joinAt_logGrows (s : State) (id rank rec_ : Nat) : LogGrows s (joinAt s id rank rec_) := .of <| by
  simp only [joinAt]; split <;> simp

@[simp] theorem sendJoin_logGrows (s : State) (id : Nat) : LogGrows s (sendJoin s id) := .of <| by
  simp only [sendJoin]; (repeat' split) <;> simp

@[simp] theorem takeData_failLog (s : State) (c : Coll) (src j : Nat) (payload : Bytes) (poison : Bool) :
    failLog (takeData s c src j payload poison) = failLog s := by
  simp only [takeData]; (repeat' split) <;> simp

@[simp] theorem takeResult_logGrows (s : State) (c : Coll) (src j : Nat) (payload : Bytes) (poison : Bool)
    (targets : List HostGrant) : LogGrows s (takeResult s c src j payload poison targets) := .of <| by
  simp only [takeResult]; (repeat' split) <;> simp

@[simp] theorem takeClose_logGrows (s : State) (c : Coll) (p : Bytes) : LogGrows s (takeClose s c p) := .of <| by
  simp only [takeClose]; split <;> simp

@[simp] theorem collPacket_logGrows (s : State) (c : Coll) (src : Nat) (b : Bytes) (targets : List HostGrant) :
    LogGrows s (collPacket s c src b targets) := .of <| by
  simp only [collPacket]; (repeat' split) <;> simp

@[simp] theorem keepEarly_failLog (s : State) (e : EarlyPkt) : failLog (keepEarly s e) = failLog s := by simp [keepEarly]

@[simp] theorem collTake_logGrows (s : State) (e : EarlyPkt) : LogGrows s (collTake s e) := .of <| by
  simp only [collTake]; (repeat' split) <;> simp

@[simp] theorem takeEarly_logGrows (s : State) (e : EarlyPkt) : LogGrows s (takeEarly s e) := .of <| by
  simp only [takeEarly]; split <;> simp

@[simp] theorem replayEarly_logGrows (s : State) (comm seq : Nat) : LogGrows s (replayEarly s comm seq) := .of <| by
  simp [replayEarly]

@[simp] theorem replayDue_logGrows (s : State) : LogGrows s (replayDue s) := .of <| by simp [replayDue]

@[simp] theorem finishColls_failLog (s : State) : failLog (finishColls s) = failLog s := by simp [finishColls]

@[simp] theorem clearLate_failLog (s : State) (d : Bytes) : failLog (clearLate s d) = failLog s := by simp [clearLate]

@[simp] theorem dropLate_logGrows (s : State) (host : List HostLine) (d : Bytes) : LogGrows s (dropLate s host d) := .of <| by
  simp only [dropLate]; (repeat' split) <;> simp

@[simp] theorem issueColl_logGrows (s : State) (owner : OpOwner) (stream phase step : Nat) (late : Bool) (d : Bytes)
    (host : List HostLine) : LogGrows s (issueColl s owner stream phase step late d host) := .of <| by
  simp [issueColl]

@[simp] theorem carryIn_logGrows (s : State) (c : Coll) : LogGrows s (carryIn s c) := .of <| by
  simp only [carryIn]; (repeat' split) <;> simp

@[simp] theorem issueFired_logGrows (s : State) (f : FiredOp) : LogGrows s (issueFired s f) := .of <| by
  simp only [issueFired]; (repeat' split) <;> simp

@[simp] theorem startWaiting_logGrows (k : Nat) (s : State) : LogGrows s (startWaiting k s) := by
  induction k generalizing s with
  | zero => exact .of .refl
  | succ k ih => refine .of ?_; simp only [startWaiting]; split <;> simp [ih]

@[simp] theorem settleColls_logGrows (s : State) : LogGrows s (settleColls s) := .of <| by simp [settleColls]

/-! ### Packets that arrive and fabric ops (chapter 12) -/

@[simp] theorem dmaEvent_failLog (s : State) (n a : Nat) : failLog (dmaEvent s n a) = failLog s := by simp [dmaEvent]

@[simp] theorem finishFab_failLog (s : State) (o : FabOp) : failLog (finishFab s o) = failLog s := by
  simp only [finishFab]; (repeat' split) <;> simp

@[simp] theorem settleOps_failLog (s : State) : failLog (settleOps s) = failLog s := by simp [settleOps]

@[simp] theorem failPacket_failLog (s : State) (o : FabOwner) (k : Nat) (st : Status) :
    failLog (failPacket s o k st) = failLog s := by
  simp [failPacket]

@[simp] theorem resolveTag_failLog (s : State) (t : FabTag) (st : Status) : failLog (resolveTag s t st) = failLog s := by
  simp only [resolveTag]; split <;> simp

@[simp] theorem denyPkt_failLog (s : State) (write : Bool) (lines : List Nat) :
    failLog (denyPkt s write lines) = failLog s := by
  simp [denyPkt]

@[simp] theorem ordersTwoFour_failLog (s : State) (fi : Nat) (b : Bytes) (write : Bool) :
    failLog (ordersTwoFour s fi b write).1 = failLog s := by
  simp only [ordersTwoFour]; (repeat' split) <;> simp

@[simp] theorem landLine_failLog (b : Bytes) (targets : List HostGrant) (s : State) (l : Nat) :
    failLog (landLine b targets s l) = failLog s := by
  simp only [landLine]; (repeat' split) <;> simp

@[simp] theorem countLanded_failLog (b : Bytes) (s : State) : failLog (countLanded b s) = failLog s := by
  simp only [countLanded]; split <;> simp

@[simp] theorem landPkt_failLog (s : State) (b : Bytes) (targets : List HostGrant) :
    failLog (landPkt s b targets) = failLog s := by
  simp [landPkt]

@[simp] theorem sendAck_failLog (s : State) (fi : Nat) (b : Bytes) (dst : Nat) (st : Status)
    (src : Option (Nat × Nat × Nat)) : failLog (sendAck s fi b dst st src) = failLog s := by
  simp only [sendAck]; split <;> simp

@[simp] theorem landChecked_logGrows (s : State) (fi : Nat) (b : Bytes) (targets : List HostGrant)
    (src : Option (Nat × Nat × Nat)) : LogGrows s (landChecked s fi b targets src) := .of <| by
  simp only [landChecked]; (repeat' split) <;> simp

@[simp] theorem postOrLand_logGrows (s : State) (fi : Nat) (b : Bytes) (stalled : Bool) (src : Option (Nat × Nat × Nat)) :
    LogGrows s (postOrLand s fi b stalled src) := .of <| by
  simp only [postOrLand]; split <;> simp

@[simp] theorem sinkWrite_logGrows (s : State) (fi : Nat) (b : Bytes) (stalled : Bool) (src : Option (Nat × Nat × Nat)) :
    LogGrows s (sinkWrite s fi b stalled src) := .of <| by
  simp only [sinkWrite]; split <;> simp

@[simp] theorem dropPost_failLog (s : State) (h : HostPost) : failLog (dropPost s h) = failLog s := by simp [dropPost]

@[simp] theorem landPost_logGrows (s : State) (h : HostPost) : LogGrows s (landPost s h) := .of <| by
  simp only [landPost]; split <;> simp

@[simp] theorem drainPosts_logGrows (s : State) : LogGrows s (drainPosts s) := .of <| by simp [drainPosts]

@[simp] theorem sendReply_failLog (s : State) (fi : Nat) (b payload : Bytes) (mask : Nat) (src : Option (Nat × Nat × Nat)) :
    failLog (sendReply s fi b payload mask src) = failLog s := by
  simp only [sendReply]; split <;> simp

@[simp] theorem replyFrom_failLog (s : State) (m : Mem) (fi : Nat) (b : Bytes) (lost : List Nat)
    (src : Option (Nat × Nat × Nat)) : failLog (replyFrom s m fi b lost src) = failLog s := by
  simp [replyFrom]

@[simp] theorem fetchHost_failLog (s : State) (fi : Nat) (b : Bytes) (src : Option (Nat × Nat × Nat)) :
    failLog (fetchHost s fi b src) = failLog s := by
  simp only [fetchHost]
  rw [foldl_failLog, failLog_mk]
  intro x l; split <;> simp

@[simp] theorem sinkRead_logGrows (s : State) (fi : Nat) (b : Bytes) (src : Option (Nat × Nat × Nat)) :
    LogGrows s (sinkRead s fi b src) := .of <| by
  simp [sinkRead]

@[simp] theorem answerFetch_failLog (s : State) (f : HostFetch) : failLog (answerFetch s f) = failLog s := by
  simp [answerFetch]

@[simp] theorem fetchLine_failLog (s : State) (id line : Nat) (data : Option Bytes) :
    failLog (fetchLine s id line data) = failLog s := by
  simp only [fetchLine]; (repeat' split) <;> simp

@[simp] theorem sinkData_logGrows (s : State) (fi : Nat) (b : Bytes) (stalled : Bool) (src : Option (Nat × Nat × Nat)) :
    LogGrows s (sinkData s fi b stalled src) := .of <| by
  simp only [sinkData]; (repeat' split) <;> simp

@[simp] theorem sinkAck_failLog (s : State) (fi : Nat) (b : Bytes) (src : Option (Nat × Nat × Nat)) :
    failLog (sinkAck s fi b src) = failLog s := by
  simp only [sinkAck]; (repeat' split) <;> simp

@[simp] theorem sinkPlain_logGrows (s : State) (fi : Nat) (b : Bytes) (stalled : Bool) (src : Option (Nat × Nat × Nat)) :
    LogGrows s (sinkPlain s fi b stalled src) := .of <| by
  simp only [sinkPlain]; (repeat' split) <;> simp

@[simp] theorem takeLoop_logGrows (s : State) (l : LoopPkt) : LogGrows s (takeLoop s l) := .of <| by
  simp only [takeLoop]; (repeat' split) <;> simp

@[simp] theorem runLoop_logGrows (k : Nat) (s : State) : LogGrows s (runLoop k s) := by
  induction k generalizing s with
  | zero => exact .of .refl
  | succ k ih => refine .of ?_; simp only [runLoop]; (repeat' split) <;> simp [ih]

@[simp] theorem takeIn_logGrows (s : State) (h : HeldPkt) : LogGrows s (takeIn s h) := .of <| by simp [takeIn]

@[simp] theorem comeIn_logGrows (s : State) (h : HeldPkt) : LogGrows s (comeIn s h) := .of <| by
  simp only [comeIn]; split <;> simp

@[simp] theorem moveOn_logGrows (k : Nat) (s : State) : LogGrows s (moveOn k s) := by
  induction k generalizing s with
  | zero => exact .of .refl
  | succ k ih => refine .of ?_; simp only [moveOn]; (repeat' split) <;> simp [ih]

@[simp] theorem settleTurns_logGrows (k : Nat) (s : State) : LogGrows s (settleTurns k s) := by
  induction k generalizing s with
  | zero => exact .of .refl
  | succ k ih => refine .of ?_; simp [settleTurns, ih]

@[simp] theorem settleFab_logGrows (s : State) : LogGrows s (settleFab s) := .of <| by simp [settleFab]

@[simp] theorem enterBuffer_logGrows (s : State) (p : Nat) (b : Bytes) (stalled : Bool) :
    LogGrows s (enterBuffer s p b stalled) := .of <| by
  simp [enterBuffer]

@[simp] theorem arrive_logGrows (p : FabPort) (b : Bytes) (kind : Nat) (pcie : Option Bool) (s : State) :
    LogGrows s (arrive p b kind pcie s) := .of <| by
  simp [arrive]

@[simp] theorem execIdle_growsLog (port : FabPort) (flit : Bytes) (corrected uncorrectable : BitVec 16) (s : State) :
    GrowsLog s (execIdle port flit corrected uncorrectable s) := by
  simp only [execIdle]; (repeat' split) <;> simp

@[simp] theorem execRouterForward_growsLog (port : FabPort) (packet : Bytes) (s : State) :
    GrowsLog s (execRouterForward port packet s) := by
  simp only [execRouterForward]; (repeat' split) <;> simp

@[simp] theorem dropEarly_failLog (s : State) (e : EarlyPkt) : failLog (dropEarly s e) = failLog s := by simp [dropEarly]

@[simp] theorem execHostSinkTimeout_growsLog (id : Nat) (s : State) : GrowsLog s (execHostSinkTimeout id s) := by
  simp only [execHostSinkTimeout]; (repeat' split) <;> simp

@[simp] theorem execFabricTimeout_growsLog (fi : FabPort) (tag : BitVec 24) (s : State) :
    GrowsLog s (execFabricTimeout fi tag s) := by
  simp only [execFabricTimeout]; (repeat' split) <;> simp

@[simp] theorem execPortLightDetected_growsLog (port : FabPort) (s : State) : GrowsLog s (execPortLightDetected port s) := by
  simp only [execPortLightDetected]; split <;> simp

@[simp] theorem execPortClockLock_growsLog (port : FabPort) (s : State) : GrowsLog s (execPortClockLock port s) := by
  simp only [execPortClockLock]; split <;> simp

@[simp] theorem execPortCodewordLock_growsLog (port : FabPort) (s : State) : GrowsLog s (execPortCodewordLock port s) := by
  simp only [execPortCodewordLock]; split <;> simp

@[simp] theorem execPortTrained_growsLog (port : FabPort) (s : State) : GrowsLog s (execPortTrained port s) := by
  simp only [execPortTrained]; split <;> simp

@[simp] theorem execParam_growsLog (port : FabPort) (node : BitVec 16) (peerPort : BitVec 4) (s : State) :
    GrowsLog s (execParam port node peerPort s) := by
  simp only [execParam]; split <;> simp

@[simp] theorem execPortStateTimeout_growsLog (port : FabPort) (s : State) : GrowsLog s (execPortStateTimeout port s) := by
  simp only [execPortStateTimeout]; split <;> simp

@[simp] theorem takeCut_logGrows (s : State) (p : Nat) (b : Bytes) : LogGrows s (takeCut s p b) := .of <| by simp [takeCut]

@[simp] theorem execLinkDrop_growsLog (port : FabPort) (loss : LinkLoss) (s : State) :
    GrowsLog s (execLinkDrop port loss s) := by
  simp only [execLinkDrop]; (repeat' split) <;> simp

@[simp] theorem writePortCfg_logGrows (p value : Nat) (s : State) : LogGrows s (writePortCfg p value s) := .of <| by
  simp [writePortCfg]

@[simp] theorem joinPair_failLog (s : State) (i : Nat) : failLog (joinPair s i) = failLog s := by simp [joinPair]

@[simp] theorem execBypassSwitchDone_growsLog (pair : BitVec 3) (s : State) : GrowsLog s (execBypassSwitchDone pair s) := by
  simp only [execBypassSwitchDone]; split <;> simp

@[simp] theorem writeRoute_failLog (index value : Nat) (s : State) : failLog (writeRoute index value s) = failLog s := by
  simp [writeRoute]

@[simp] theorem fabReject_failLog (loc : OpLoc) (s : State) (o : NextOp) (st : Status) :
    failLog (fabReject loc s o st) = failLog s := by
  simp [fabReject]

@[simp] theorem noteFab_failLog (s : State) (o : FabOp) : failLog (noteFab s o) = failLog s := by simp [noteFab]

@[simp] theorem startPut_logGrows (s : State) (w : FabOwner) (fi id p : Nat) (d : Bytes) (host : List HostLine) :
    LogGrows s (startPut s w fi id p d host) := .of <| by
  simp [startPut]

@[simp] theorem startGet_failLog (s : State) (w : FabOwner) (fi id p : Nat) (d : Bytes) :
    failLog (startGet s w fi id p d) = failLog s := by
  simp [startGet]

@[simp] theorem execPut_growsLog (loc : OpLoc) (host : List HostLine) (s : State) : GrowsLog s (execPut loc host s) := by
  simp only [execPut]; (repeat' split) <;> simp

@[simp] theorem execGet_growsLog (loc : OpLoc) (s : State) : GrowsLog s (execGet loc s) := by
  simp only [execGet]; (repeat' split) <;> simp

@[simp] theorem execAwait_growsLog (loc : OpLoc) (s : State) : GrowsLog s (execAwait loc s) := by
  simp only [execAwait]; (repeat' split) <;> simp

@[simp] theorem execAwaitTimeout_growsLog (loc : OpLoc) (s : State) : GrowsLog s (execAwaitTimeout loc s) := by
  simp only [execAwaitTimeout]; split
  · simp
  · rw [growsLog_next, foldl_failLog]
    · simp
    · intro x o; (repeat' split) <;> simp

@[simp] theorem setEpochs_failLog (s : State) (map : Nat) (e : BitVec 16) : failLog (setEpochs s map e) = failLog s := by
  simp [setEpochs]

@[simp] theorem execRoleSet_growsLog (op : OpLines) (s : State) : GrowsLog s (execRoleSet op s) := by
  simp only [execRoleSet]; (repeat' split) <;> simp

@[simp] theorem dmaRow_logGrows (p : DmaParm) (host : List HostLine) (x : State × Option Status) (r : Nat) :
    LogGrows x.1 (dmaRow p host x r).1 := .of <| by
  simp [dmaRow]

@[simp] theorem dmaView_logGrows (p : DmaParm) (host : List HostLine) (s : State) :
    LogGrows s (dmaView p host s).s := .of <| by
  simp [dmaView]

@[simp] theorem dmaRows_logGrows (p : DmaParm) (host : List HostLine) (s : State) :
    LogGrows s (dmaRows p host s).1 := .of <| by
  simp [dmaRows]

@[simp] theorem dmaWarn_logGrows (p : DmaParm) (host : List HostLine) (s : State) (n : Nat) (st : Option Status) :
    LogGrows s (dmaWarn p host s n st) := .of <| by
  simp only [dmaWarn]; split <;> simp

@[simp] theorem dmaRemote_logGrows (s : State) (n : Nat) (t : Token) (d : Bytes) (fi : Nat) (host : List HostLine) :
    LogGrows s (dmaRemote s n t d fi host) := .of <| by
  simp only [dmaRemote]; split <;> simp

@[simp] theorem dmaRun_failLog (s : State) (n : Nat) (o : NextOp) (st : Status) (finished : Bool) :
    failLog (dmaRun s n o st finished) = failLog s := by
  simp [dmaRun]

@[simp] theorem execDmaCopy_growsLog (core : CoreId) (host : List HostLine) (s : State) :
    GrowsLog s (execDmaCopy core host s) := by
  simp only [execDmaCopy]; (repeat' split) <;> simp

/-! ### Collective ops and trigger entries (chapter 13) -/

@[simp] theorem runColl_logGrows (k : Nat) (loc : OpLoc) (host : List HostLine) (s : State) :
    LogGrows s (runColl k loc host s) := .of <| by
  simp only [runColl]; (repeat' split) <;> simp

@[simp] theorem execCollReady_growsLog (id : Nat) (host : List HostLine) (s : State) :
    GrowsLog s (execCollReady id host s) := by
  simp only [execCollReady]; (repeat' split) <;> simp

@[simp] theorem execCollDeadline_growsLog (id : Nat) (s : State) : GrowsLog s (execCollDeadline id s) := by
  simp only [execCollDeadline]; (repeat' split) <;> simp

@[simp] theorem execSegmentCombine_growsLog (id segment : Nat) (s : State) :
    GrowsLog s (execSegmentCombine id segment s) := by
  simp only [execSegmentCombine]; (repeat' split) <;> simp

@[simp] theorem execCollTimeout_growsLog (id : Nat) (s : State) : GrowsLog s (execCollTimeout id s) := by
  simp only [execCollTimeout]; (repeat' split) <;> simp

@[simp] theorem fiRd_logGrows (s : State) (host : List HostLine) (a n : Nat) : LogGrows s (fiRd s host a n).1 := .of <| by
  simp [fiRd]

@[simp] theorem execTrigArm_growsLog (op : OpLines) (s0 : State) : GrowsLog s0 (execTrigArm op s0) := by
  simp only [execTrigArm]; (repeat' split) <;> simp

@[simp] theorem firedEnd_failLog (s : State) (k : Nat) (st : Status) : failLog (firedEnd s k st) = failLog s := by
  simp [firedEnd]

@[simp] theorem startFired_logGrows (s : State) (f : FiredOp) : LogGrows s (startFired s f) := .of <| by
  simp only [startFired]; (repeat' split) <;> simp

@[simp] theorem execTriggerFire_growsLog (fi : FabPort) (entry : BitVec 10) (host : List HostLine) (s : State) :
    GrowsLog s (execTriggerFire fi entry host s) := by
  simp only [execTriggerFire]; (repeat' split) <;> simp

/-! ### Patrol scrub (chapter 10) -/

@[simp] theorem execPatrolScrub_growsLog (addr : BitVec 48) (result : ScrubResult) (s : State) :
    GrowsLog s (execPatrolScrub addr result s) := by
  simp only [execPatrolScrub]; split <;> simp

@[simp] theorem sramTwice_logGrows (s : State) (a : Nat) : LogGrows s (sramTwice s a) := .of <| by
  simp only [sramTwice]; (repeat' split) <;> simp

@[simp] theorem execSramScrub_growsLog (addr : BitVec 48) (result : ScrubResult) (s : State) :
    GrowsLog s (execSramScrub addr result s) := by
  simp only [execSramScrub]; (repeat' split) <;> simp

/-! ### Batched serving (chapter 11) -/

@[simp] theorem dramLine_failLog (src dst n : Nat) (x : State × Option Status) (l : Nat) :
    failLog (dramLine src dst n x l).1 = failLog x.1 := by
  simp only [dramLine]; split <;> simp

@[simp] theorem dramCopy_failLog (s : State) (src dst n : Nat) : failLog (dramCopy s src dst n).1 = failLog s := by
  simp [dramCopy]

@[simp] theorem closeBlock_failLog (s : State) (r : Bytes) (b : SvcBlock) : failLog (closeBlock s r b) = failLog s := by
  simp [closeBlock]

@[simp] theorem putOpen_failLog (s : State) (r : Bytes) (b : SvcBlock) : failLog (putOpen s r b) = failLog s := by
  simp only [putOpen]; split <;> simp

@[simp] theorem execServiceRequest_growsLog (queue : QueueId) (s : State) : GrowsLog s (execServiceRequest queue s) := by
  simp only [execServiceRequest]; (repeat' split) <;> simp

@[simp] theorem execBlockClose_growsLog (svc : BitVec 8) (s : State) : GrowsLog s (execBlockClose svc s) := by
  simp only [execBlockClose]; (repeat' split) <;> simp

@[simp] theorem preemptCore_failLog (s : State) (n : Nat) : failLog (preemptCore s n) = failLog s := by simp [preemptCore]

@[simp] theorem pausePhases_failLog (s : State) (map : Nat) : failLog (pausePhases s map) = failLog s := by simp [pausePhases]

@[simp] theorem refuseReq_failLog (st : Status) (s : State) (x : SvcReq) : failLog (refuseReq st s x) = failLog s := by
  simp only [refuseReq]; split <;> simp

@[simp] theorem dropLateReqs_failLog (s : State) (b : SvcBlock) : failLog (dropLateReqs s b).1 = failLog s := by
  simp only [dropLateReqs]; split <;> simp

@[simp] theorem failBlock_failLog (s : State) (b : SvcBlock) (e : Status) : failLog (failBlock s b e) = failLog s := by
  simp [failBlock]

@[simp] theorem resumeCore_failLog (s : State) (n : Nat) : failLog (resumeCore s n) = failLog s := by simp [resumeCore]

@[simp] theorem resumePhases_failLog (s : State) : failLog (resumePhases s) = failLog s := by simp [resumePhases]

@[simp] theorem resumeTraining_failLog (s : State) : failLog (resumeTraining s) = failLog s := by simp [resumeTraining]

@[simp] theorem askCores_failLog (s : State) (map : Nat) : failLog (askCores s map) = failLog s := by simp [askCores]

@[simp] theorem beginBlock_failLog (s : State) (b : SvcBlock) : failLog (beginBlock s b) = failLog s := by
  simp only [beginBlock]; (repeat' split) <;> simp

@[simp] theorem startBlock_failLog (s : State) (b : SvcBlock) : failLog (startBlock s b) = failLog s := by
  simp only [startBlock]; split <;> simp

@[simp] theorem execBlockStart_growsLog (svc : BitVec 8) (s : State) : GrowsLog s (execBlockStart svc s) := by
  simp only [execBlockStart]; (repeat' split) <;> simp

@[simp] theorem execPreemptMinExpiry_growsLog (svc : BitVec 8) (s : State) : GrowsLog s (execPreemptMinExpiry svc s) := by
  simp only [execPreemptMinExpiry]; (repeat' split) <;> simp

@[simp] theorem execPlateBoundary_growsLog (core : CoreId) (s : State) : GrowsLog s (execPlateBoundary core s) := by
  simp only [execPlateBoundary]; (repeat' split) <;> simp

@[simp] theorem finishReq_failLog (b : SvcBlock) (st : Status) (s : State) (x : SvcReq) :
    failLog (finishReq b st s x) = failLog s := by
  simp only [finishReq]; (repeat' split) <;> simp

@[simp] theorem execBlockEnd_growsLog (svc : BitVec 8) (s : State) : GrowsLog s (execBlockEnd svc s) := by
  simp only [execBlockEnd]; (repeat' split) <;> simp

/-! ### COPY and the Meridian commands (chapters 08 and 11) -/

@[simp] theorem copyInLine_failLog (host : List HostLine) (src dst n : Nat) (x : State × Option Status) (l : Nat) :
    failLog (copyInLine host src dst n x l).1 = failLog x.1 := by
  simp only [copyInLine]; split <;> simp

@[simp] theorem copyIn_failLog (s : State) (host : List HostLine) (src dst n : Nat) :
    failLog (copyIn s host src dst n).1 = failLog s := by
  simp [copyIn]

@[simp] theorem copyOutLine_logGrows (port : HPort) (src dst n : Nat) (x : State × Option Status) (l : Nat) :
    LogGrows x.1 (copyOutLine port src dst n x l).1 := .of <| by
  simp [copyOutLine]

@[simp] theorem copyOut_logGrows (s : State) (p : Option HPort) (src dst n : Nat) :
    LogGrows s (copyOut s p src dst n).1 := .of <| by
  simp only [copyOut]; (repeat' split) <;> simp

@[simp] theorem copyAll_logGrows (s : State) (port : Option HPort) (host : List HostLine) (p : CopyParm) :
    LogGrows s (copyAll s port host p).1 := .of <| by
  simp only [copyAll]; split <;> simp

@[simp] theorem execCopy_growsLog (queue : QueueId) (s : State) : GrowsLog s (execCopy queue s) := by
  simp only [execCopy]; (repeat' split) <;> simp

@[simp] theorem execCopyCompletion_growsLog (queue : QueueId) (index : BitVec 32) (host : List HostLine) (s : State) :
    GrowsLog s (execCopyCompletion queue index host s) := by
  simp only [execCopyCompletion]; split <;> simp

theorem endMeridian_failLog (q : Nat) (f : Fetched) (s : State) {r : State × Status} (h : failLog r.1 = failLog s) :
    failLog (endMeridian q f s r) = failLog s := by
  simp only [endMeridian]; split <;> simp [h]

@[simp] theorem execMeridianFlip_growsLog (queue : QueueId) (s : State) : GrowsLog s (execMeridianFlip queue s) := by
  simp only [execMeridianFlip]; split
  · simp
  · simp [endMeridian_failLog]

@[simp] theorem execMeridianRollback_growsLog (queue : QueueId) (s : State) : GrowsLog s (execMeridianRollback queue s) := by
  simp only [execMeridianRollback]; split
  · simp
  · simp [endMeridian_failLog]

@[simp] theorem takeQueue_failLog (s : State) (n : Nat) (owner : BitVec 2) : failLog (takeQueue s n owner) = failLog s := by
  simp [takeQueue]

@[simp] theorem execQueueReassign_growsLog (queue : QueueId) (s : State) : GrowsLog s (execQueueReassign queue s) := by
  simp only [execQueueReassign]; (repeat' split) <;> simp

/-! ### Host ports (chapter 14) -/

@[simp] theorem drivePin_failLog (s : State) (name : String) (asserted : Bool) :
    failLog (drivePin s name asserted) = failLog s := by
  simp [drivePin]

@[simp] theorem setWakeOut_failLog (s : State) (p : HPort) (w : Option Nat) : failLog (setWakeOut s p w) = failLog s := by
  simp only [setWakeOut]; (repeat' split) <;> simp

@[simp] theorem losePort_failLog (s : State) (p : HPort) : failLog (losePort s p) = failLog s := by simp [losePort]

@[simp] theorem execPortLost_growsLog (port : HPort) (s : State) : GrowsLog s (execPortLost port s) := by
  simp only [execPortLost]; split <;> simp

@[simp] theorem execPortReturn_growsLog (port : HPort) (rate : BitVec 3) (width : BitVec 4) (flit : Bool) (s : State) :
    GrowsLog s (execPortReturn port rate width flit s) := by
  simp only [execPortReturn]; (repeat' split) <;> simp

@[simp] theorem countDenied_failLog (s : State) (p : HPort) : failLog (countDenied s p) = failLog s := by simp [countDenied]

@[simp] theorem bar4Line_failLog (s : State) (p : HPort) (write : Bool) (l : Nat) :
    failLog (bar4Line s p write l).1 = failLog s := by
  simp only [bar4Line]; (repeat' split) <;> simp

@[simp] theorem bar4ReadLine_logGrows (p : HPort) (a n : Nat) (s : State) (l : Nat) :
    LogGrows s (bar4ReadLine p a n s l) := .of <| by
  simp [bar4ReadLine]

@[simp] theorem bar4Read_logGrows (p : HPort) (off n : Nat) (s : State) : LogGrows s (bar4Read p off n s) := .of <| by
  simp [bar4Read]

@[simp] theorem bar4WriteLine_failLog (p : HPort) (a : Nat) (data : Bytes) (poisoned : Bool) (s : State) (l : Nat) :
    failLog (bar4WriteLine p a data poisoned s l) = failLog s := by
  simp [bar4WriteLine]

@[simp] theorem bar4Write_failLog (p : HPort) (off : Nat) (data : Bytes) (poisoned : Bool) (s : State) :
    failLog (bar4Write p off data poisoned s) = failLog s := by
  simp [bar4Write]

@[simp] theorem execBar4Read_growsLog (port : HPort) (offset : BitVec 36) (len : Nat) (s : State) :
    GrowsLog s (execBar4Read port offset len s) := by
  simp only [execBar4Read]; split <;> simp

@[simp] theorem execBar4Write_growsLog (port : HPort) (offset : BitVec 36) (data : Bytes) (poisoned : Bool) (s : State) :
    GrowsLog s (execBar4Write port offset data poisoned s) := by
  simp only [execBar4Write]; split <;> simp

@[simp] theorem writeAper_failLog (p : HPort) (value : Nat) (s : State) : failLog (writeAper p value s) = failLog s := by
  simp [writeAper]

@[simp] theorem dropRead_failLog (s : State) (r : PcieRead) : failLog (dropRead s r) = failLog s := by simp [dropRead]

@[simp] theorem readBack_logGrows (s : State) (r : PcieRead) (data : Option Bytes) :
    LogGrows s (readBack s r data) := .of <| by
  simp only [readBack]; (repeat' split) <;> simp

@[simp] theorem lateCompletion_failLog (s : State) (p : HPort) : failLog (lateCompletion s p) = failLog s := by
  simp [lateCompletion]

@[simp] theorem execPcieCompletion_growsLog (port : HPort) (tag : BitVec 14) (data : Bytes) (good : Bool) (s : State) :
    GrowsLog s (execPcieCompletion port tag data good s) := by
  simp only [execPcieCompletion]; (repeat' split) <;> simp

@[simp] theorem execCompletionTimeout_growsLog (port : HPort) (tag : BitVec 14) (s : State) :
    GrowsLog s (execCompletionTimeout port tag s) := by
  simp only [execCompletionTimeout]; (repeat' split) <;> simp

@[simp] theorem unmaskVector_failLog (p : HPort) (v : Nat) (s : State) : failLog (unmaskVector p v s) = failLog s := by
  simp only [unmaskVector]; split <;> simp

@[simp] theorem execMsixUnmask_growsLog (port : HPort) (vector : BitVec 8) (s : State) :
    GrowsLog s (execMsixUnmask port vector s) := by
  simp only [execMsixUnmask]; split <;> simp

@[simp] theorem mctpDrop_failLog (s : State) (b : MctpBinding) : failLog (mctpDrop s b) = failLog s := by
  simp only [mctpDrop]; split <;> simp

@[simp] theorem mctpAnswer_failLog (s : State) (b : MctpBinding) (cmd : Nat) (data : Bytes) :
    failLog (mctpAnswer s b cmd data).1 = failLog s := by
  simp only [mctpAnswer]; (repeat' split) <;> simp

@[simp] theorem execConfigSpaceWrite_growsLog (port : HPort) (field : CfgField) (value : BitVec 32) (s : State) :
    GrowsLog s (execConfigSpaceWrite port field value s) := by
  simp only [execConfigSpaceWrite]; (repeat' split) <;> simp

/-! ### Cadence points, loops and limiters (chapters 01 and 17) -/

@[simp] theorem setCeil_failLog (s : State) (c : CeilState) : failLog (setCeil s c) = failLog s := by simp [setCeil]

@[simp] theorem beginChange_failLog (s : State) (t : Nat) (origin : PointOrigin) (guard : Bool) :
    failLog (beginChange s t origin guard) = failLog s := by
  simp only [beginChange]; split <;> simp

@[simp] theorem seek_failLog (s : State) (t : Nat) (origin : PointOrigin) : failLog (seek s t origin) = failLog s := by
  simp only [seek]; (repeat' split) <;> simp

@[simp] theorem retarget_failLog (s : State) : failLog (retarget s) = failLog s := by simp only [retarget]; split <;> simp

@[simp] theorem withCeil_failLog (s : State) (f : CeilState → CeilState) : failLog (withCeil s f) = failLog s := by
  simp [withCeil]

@[simp] theorem answerPoint_failLog (s : State) (st : Status) : failLog (answerPoint s st) = failLog s := by
  simp [answerPoint]

@[simp] theorem refusePoint_failLog (s : State) : failLog (refusePoint s) = failLog s := by simp [refusePoint]

@[simp] theorem execPointRequest_growsLog (target : BitVec 3) (origin : PointOrigin) (s : State) :
    GrowsLog s (execPointRequest target origin s) := by
  simp only [execPointRequest]; split <;> simp

@[simp] theorem nextChange_failLog (s : State) : failLog (nextChange s) = failLog s := by
  simp only [nextChange]; (repeat' split) <;> simp

@[simp] theorem endChange_failLog (s : State) (q : Nat) : failLog (endChange s q) = failLog s := by simp [endChange]

@[simp] theorem execRailSettled_growsLog (rates : List Nat) (s : State) : GrowsLog s (execRailSettled rates s) := by
  simp only [execRailSettled]; (repeat' split) <;> simp

@[simp] theorem guardStep_failLog (s : State) (k : Nat) : failLog (guardStep s k) = failLog s := by simp [guardStep]

@[simp] theorem execGuardStepDown_growsLog (cluster : ClusterId) (rateMhz : Nat) (bySlips : Bool) (s : State) :
    GrowsLog s (execGuardStepDown cluster rateMhz bySlips s) := by
  simp only [execGuardStepDown]; (repeat' split) <;> simp

@[simp] theorem tickCore_failLog (s : State) (n : Nat) : failLog (tickCore s n) = failLog s := by simp [tickCore]

@[simp] theorem noteSlips_failLog (s : State) (slips : List (Nat × Nat)) : failLog (noteSlips s slips) = failLog s := by
  simp [noteSlips]

@[simp] theorem execCadenceTick_growsLog (slips : List (Nat × Nat)) (s : State) : GrowsLog s (execCadenceTick slips s) := by
  simp only [execCadenceTick]; (repeat' split) <;> simp

@[simp] theorem settleAlert_failLog (s : State) : failLog (settleAlert s) = failLog s := by
  simp only [settleAlert]; (repeat' split) <;> simp

@[simp] theorem limiterActs_failLog (s : State) : failLog (limiterActs s) = failLog s := by simp [limiterActs]

@[simp] theorem execFastPower_growsLog (watts : Nat) (s : State) : GrowsLog s (execFastPower watts s) := by
  simp only [execFastPower]; (repeat' split) <;> simp

@[simp] theorem execOvercurrent_growsLog (s : State) : GrowsLog s (execOvercurrent s) := by
  simp only [execOvercurrent]; split <;> simp

@[simp] theorem execHot_growsLog (s : State) : GrowsLog s (execHot s) := by simp only [execHot]; split <;> simp

@[simp] theorem execInputLow_growsLog (s : State) : GrowsLog s (execInputLow s) := by simp only [execInputLow]; split <;> simp

@[simp] theorem execOpticsHot_growsLog (port : FabPort) (s : State) : GrowsLog s (execOpticsHot port s) := by
  simp only [execOpticsHot]; split <;> simp

@[simp] theorem execOpticsHotRelease_growsLog (port : FabPort) (s : State) : GrowsLog s (execOpticsHotRelease port s) := by
  simp only [execOpticsHotRelease]; split <;> simp

@[simp] theorem execLimiterRelease_growsLog (limiter : HeldLimiter) (s : State) :
    GrowsLog s (execLimiterRelease limiter s) := by
  simp only [execLimiterRelease]; (repeat' split) <;> simp

@[simp] theorem takeLoops_failLog (s : State) : failLog (takeLoops s) = failLog s := by simp only [takeLoops]; split <;> simp

@[simp] theorem sample_failLog (s : State) (x : Sensors) : failLog (sample s x) = failLog s := by
  simp only [sample]; split <;> simp

@[simp] theorem execPowerLoopTick_growsLog (pIn pPkg v10mv i10ma : Nat) (rails : List Nat) (s : State) :
    GrowsLog s (execPowerLoopTick pIn pPkg v10mv i10ma rails s) := by
  simp only [execPowerLoopTick]; split <;> simp

@[simp] theorem execThermalLoopTick_growsLog (clusters io optics dimms : List Nat) (s : State) :
    GrowsLog s (execThermalLoopTick clusters io optics dimms s) := by
  simp only [execThermalLoopTick]; split <;> simp

@[simp] theorem execMonitorSweep_growsLog (rates : List Nat) (s : State) : GrowsLog s (execMonitorSweep rates s) := by
  simp only [execMonitorSweep]; (repeat' split) <;> simp

@[simp] theorem execClusterGate_growsLog (cluster : ClusterId) (s : State) : GrowsLog s (execClusterGate cluster s) := by
  simp only [execClusterGate]; split <;> simp

/-! ### Security commands (chapter 15) -/

@[simp] theorem extendMr_failLog (s : State) (i t : Nat) (d : Bytes) : failLog (extendMr s i t d) = failLog s := by
  simp [extendMr]

@[simp] theorem eraseSlots_failLog (s : State) : failLog (eraseSlots s) = failLog s := by simp [eraseSlots]

@[simp] theorem execAttest_growsLog (queue : QueueId) (s : State) : GrowsLog s (execAttest queue s) := by
  simp only [execAttest]; (repeat' split) <;> simp

@[simp] theorem setOwner_failLog (s : State) (key : Option Bytes) (seq : Nat) : failLog (setOwner s key seq) = failLog s := by
  simp [setOwner]

@[simp] theorem execOwnerClaim_growsLog (queue : QueueId) (s : State) : GrowsLog s (execOwnerClaim queue s) := by
  simp only [execOwnerClaim]; (repeat' split) <;> simp

@[simp] theorem execOwnerRotate_growsLog (queue : QueueId) (s : State) : GrowsLog s (execOwnerRotate queue s) := by
  simp only [execOwnerRotate]; (repeat' split) <;> simp

@[simp] theorem setSlot_failLog (s : State) (slot : Nat) (k : Option Bytes) : failLog (setSlot s slot k) = failLog s := by
  simp [setSlot]

@[simp] theorem setSlotSeq_failLog (s : State) (slot n : Nat) : failLog (setSlotSeq s slot n) = failLog s := by
  simp [setSlotSeq]

@[simp] theorem execKeyInstall_growsLog (queue : QueueId) (s : State) : GrowsLog s (execKeyInstall queue s) := by
  simp only [execKeyInstall]; (repeat' split) <;> simp

@[simp] theorem execKeyRevoke_growsLog (queue : QueueId) (s : State) : GrowsLog s (execKeyRevoke queue s) := by
  simp only [execKeyRevoke]; (repeat' split) <;> simp

@[simp] theorem putEntries_failLog (s : State) (f : Fetched) : failLog (putEntries s f) = failLog s := by simp [putEntries]

@[simp] theorem execWindowSet_growsLog (queue : QueueId) (s : State) : GrowsLog s (execWindowSet queue s) := by
  simp only [execWindowSet]; (repeat' split) <;> simp

@[simp] theorem setSvc_failLog (s : State) (st level : Nat) : failLog (setSvc s st level) = failLog s := by simp [setSvc]

@[simp] theorem lockSvc_failLog (s : State) : failLog (lockSvc s) = failLog s := by simp only [lockSvc]; split <;> simp

@[simp] theorem execSvcUnlock_growsLog (queue : QueueId) (s : State) : GrowsLog s (execSvcUnlock queue s) := by
  simp only [execSvcUnlock]; (repeat' split) <;> simp

@[simp] theorem execSvcLock_growsLog (queue : QueueId) (s : State) : GrowsLog s (execSvcLock queue s) := by
  simp only [execSvcLock]; split <;> simp

@[simp] theorem execSvnCommit_growsLog (queue : QueueId) (s : State) : GrowsLog s (execSvnCommit queue s) := by
  simp only [execSvnCommit]; split <;> simp

@[simp] theorem execMrExtend_growsLog (queue : QueueId) (s : State) : GrowsLog s (execMrExtend queue s) := by
  simp only [execMrExtend]; (repeat' split) <;> simp

@[simp] theorem execVendorChallenge_growsLog (signature : Bytes) (s : State) :
    GrowsLog s (execVendorChallenge signature s) := by
  simp only [execVendorChallenge]; (repeat' split) <;> simp

@[simp] theorem execSvcUnlockExpiry_growsLog (s : State) : GrowsLog s (execSvcUnlockExpiry s) := by
  simp only [execSvcUnlockExpiry]; split <;> simp

@[simp] theorem execServiceConnectorRead_growsLog (which : ServiceRead) (s : State) :
    GrowsLog s (execServiceConnectorRead which s) := by
  simp only [execServiceConnectorRead]; (repeat' split) <;> simp

@[simp] theorem execKeyRevocationBurn_growsLog (key : BitVec 2) (s : State) : GrowsLog s (execKeyRevocationBurn key s) := by
  simp only [execKeyRevocationBurn]; split <;> simp

/-! ### Firmware and the mailbox (chapter 16) -/

@[simp] theorem runImage_failLog (s : State) (b : Bytes) : failLog (runImage s b) = failLog s := by simp [runImage]

@[simp] theorem putOut_failLog (s : State) (p : HPort) (m : Bytes) : failLog (putOut s p m) = failLog s := by
  simp only [putOut]; split <;> simp

@[simp] theorem sendResponse_failLog (s : State) (ch : Nat) (m : Bytes) : failLog (sendResponse s ch m) = failLog s := by
  simp [sendResponse]

@[simp] theorem respond_failLog (s : State) (r : MbxReq) (st : Status) (fields : Bytes) :
    failLog (respond s r st fields) = failLog s := by
  simp [respond]

@[simp] theorem mbVerify_failLog (s : State) (ch : Nat) (m : Bytes) : failLog (mbVerify s ch m).1 = failLog s := by
  simp only [mbVerify]; (repeat' split) <;> simp

@[simp] theorem mbHello_failLog (s : State) (r : MbxReq) : failLog (mbHello s r) = failLog s := by simp [mbHello]

@[simp] theorem mbLoadBegin_failLog (s : State) (r : MbxReq) : failLog (mbLoadBegin s r) = failLog s := by
  simp only [mbLoadBegin]; split <;> simp

@[simp] theorem mbLoadData_failLog (s : State) (r : MbxReq) : failLog (mbLoadData s r) = failLog s := by
  simp only [mbLoadData]; split <;> simp

@[simp] theorem mbLoadEnd_failLog (s : State) (r : MbxReq) : failLog (mbLoadEnd s r) = failLog s := by
  simp only [mbLoadEnd]; split <;> simp

@[simp] theorem useConfig_failLog (s : State) (b : Bytes) : failLog (useConfig s b) = failLog s := by simp [useConfig]

@[simp] theorem applyConfig_failLog (s : State) (b : Bytes) : failLog (applyConfig s b) = failLog s := by simp [applyConfig]

@[simp] theorem mbConfigSet_failLog (s : State) (r : MbxReq) : failLog (mbConfigSet s r) = failLog s := by simp [mbConfigSet]

@[simp] theorem mbEventRing_failLog (s : State) (r : MbxReq) : failLog (mbEventRing s r) = failLog s := by
  simp only [mbEventRing]; split <;> simp

@[simp] theorem mbCertRead_failLog (s : State) (r : MbxReq) : failLog (mbCertRead s r) = failLog s := by
  simp only [mbCertRead]; split <;> simp

@[simp] theorem mbEntries_failLog (s : State) (r : MbxReq) (log : List Bytes) (n : Nat) :
    failLog (mbEntries s r log n) = failLog s := by
  simp [mbEntries]

@[simp] theorem mbSensor_failLog (s : State) (r : MbxReq) (groups : Nat → Bool) :
    failLog (mbSensor s r groups) = failLog s := by
  simp only [mbSensor]; split <;> simp

@[simp] theorem startEntry_failLog (s : State) (target : BitVec 3) (byHold : Bool) (reply : Option MbxReq) :
    failLog (startEntry s target byHold reply) = failLog s := by
  simp [startEntry]

@[simp] theorem holdStart_failLog (s : State) : failLog (holdStart s) = failLog s := by simp only [holdStart]; split <;> simp

@[simp] theorem enterRunState_failLog (s : State) (st : BitVec 3) (trim : Nat) :
    failLog (enterRunState s st trim) = failLog s := by
  simp [enterRunState]

@[simp] theorem mbPowerReq_failLog (s : State) (r : MbxReq) : failLog (mbPowerReq s r) = failLog s := by
  simp only [mbPowerReq]; (repeat' split) <;> simp

@[simp] theorem mbStage_failLog (s : State) (r : MbxReq) : failLog (mbStage s r) = failLog s := by
  simp only [mbStage]; (repeat' split) <;> simp

@[simp] theorem mbVerifyImage_failLog (s : State) (r : MbxReq) : failLog (mbVerifyImage s r) = failLog s := by
  simp only [mbVerifyImage]; (repeat' split) <;> simp

@[simp] theorem mbActivate_failLog (s : State) (r : MbxReq) : failLog (mbActivate s r) = failLog s := by
  simp only [mbActivate]; split <;> simp

@[simp] theorem mbAbort_failLog (s : State) (r : MbxReq) : failLog (mbAbort s r) = failLog s := by
  simp only [mbAbort]; split <;> simp

@[simp] theorem mbStatus_failLog (s : State) (r : MbxReq) : failLog (mbStatus s r) = failLog s := by
  simp only [mbStatus]; split <;> simp

@[simp] theorem mbRun_failLog (s : State) (r : MbxReq) : failLog (mbRun s r) = failLog s := by
  simp only [mbRun]; split <;> simp

@[simp] theorem mbServe_failLog (s : State) (ch : Nat) (m : Bytes) : failLog (mbServe s ch m) = failLog s := by
  simp only [mbServe]; (repeat' split) <;> simp

@[simp] theorem mbPump_failLog (s : State) (p : HPort) : failLog (mbPump s p) = failLog s := by
  simp only [mbPump]; split <;> simp

@[simp] theorem naServe_failLog (s : State) (ch : Nat) (m : Bytes) : failLog (naServe s ch m) = failLog s := by
  simp only [naServe]; (repeat' split) <;> simp

@[simp] theorem mctpRequest_failLog (s : State) (ch : Nat) (m : Bytes) : failLog (mctpRequest s ch m) = failLog s := by
  simp [mctpRequest]

@[simp] theorem mctpTake_failLog (b : MctpBinding) (m : Bytes) (s : State) : failLog (mctpTake b m s) = failLog s := by
  simp [mctpTake]

@[simp] theorem execMctpControl_growsLog (binding : MctpBinding) (packets : List MctpPacket) (s : State) :
    GrowsLog s (execMctpControl binding packets s) := by
  simp only [execMctpControl]; (repeat' split) <;> simp

@[simp] theorem mbArrive_failLog (s : State) (ch : Nat) (m : Bytes) : failLog (mbArrive s ch m) = failLog s := by
  simp [mbArrive]

@[simp] theorem mbCommand_growsLog (t : Nat) (channel : BitVec 3) (m : Bytes) (s : State) :
    GrowsLog s (mbCommand t channel m s) := by
  simp only [mbCommand]; split <;> simp

@[simp] theorem putHeld_failLog (s : State) (p : HPort) (m : Bytes) : failLog (putHeld s p m) = failLog s := by
  simp only [putHeld]; split <;> simp

@[simp] theorem clearDone_failLog (p : HPort) (s : State) : failLog (clearDone p s) = failLog s := by
  simp only [clearDone]; split <;> simp

@[simp] theorem execMbxDoneClear_growsLog (port : HPort) (s : State) : GrowsLog s (execMbxDoneClear port s) := by
  simp only [execMbxDoneClear]; split <;> simp

@[simp] theorem execLoaderPortLost_growsLog (port : HPort) (s : State) : GrowsLog s (execLoaderPortLost port s) := by
  simp only [execLoaderPortLost]; (repeat' split) <;> simp

@[simp] theorem bringDram_failLog (s : State) (spd : List (Option Dimm)) : failLog (bringDram s spd) = failLog s := by
  simp only [bringDram]; split <;> simp

@[simp] theorem markBist_logGrows (s : State) (c : Nat) : LogGrows s (markBist s c) := .of <| by simp [markBist]

@[simp] theorem execEnterConfigWait_growsLog (spd : List (Option Dimm)) (s : State) :
    GrowsLog s (execEnterConfigWait spd s) := by
  simp only [execEnterConfigWait]; split <;> simp

@[simp] theorem writeHandoff_failLog (s : State) : failLog (writeHandoff s) = failLog s := by simp [writeHandoff]

@[simp] theorem restoreHandoff_failLog (s : State) (b : Bytes) : failLog (restoreHandoff s b) = failLog s := by
  simp only [restoreHandoff]; (repeat' split) <;> simp

@[simp] theorem loseHandoff_failLog (s : State) : failLog (loseHandoff s) = failLog s := by simp [loseHandoff]

@[simp] theorem resumeOwn_failLog (s : State) : failLog (resumeOwn s) = failLog s := by simp only [resumeOwn]; split <;> simp

@[simp] theorem resumeFw_failLog (s : State) : failLog (resumeFw s) = failLog s := by simp [resumeFw]

@[simp] theorem answerActivate_failLog (s : State) (st : Status) : failLog (answerActivate s st) = failLog s := by
  simp only [answerActivate]; split <;> simp

@[simp] theorem execFwuSwitch_growsLog (s : State) : GrowsLog s (execFwuSwitch s) := by
  simp only [execFwuSwitch]; (repeat' split) <;> simp

@[simp] theorem execLoopHoldTimeout_growsLog (s : State) : GrowsLog s (execLoopHoldTimeout s) := by
  simp only [execLoopHoldTimeout]; split <;> simp

@[simp] theorem execFwuConfirm_growsLog (s : State) : GrowsLog s (execFwuConfirm s) := by
  simp only [execFwuConfirm]; split <;> simp

@[simp] theorem stopControl_failLog (s : State) : failLog (stopControl s) = failLog s := by simp [stopControl]

@[simp] theorem execFwuRevert_growsLog (refused : Bool) (s : State) : GrowsLog s (execFwuRevert refused s) := by
  simp only [execFwuRevert]; (repeat' split) <;> simp

@[simp] theorem execRevertRegionCopyDone_growsLog (s : State) : GrowsLog s (execRevertRegionCopyDone s) := by
  simp only [execRevertRegionCopyDone]; split <;> simp

@[simp] theorem execCcWatchdog_growsLog (cause : WatchdogCause) (s : State) : GrowsLog s (execCcWatchdog cause s) := by
  simp only [execCcWatchdog]; (repeat' split) <;> simp

/-! ### Registers but TOP_NODE_ID and FAB_BYPASS (chapter 20) -/

@[simp] theorem writeQueueReg_failLog (p : HPort) (n k value : Nat) (s : State) :
    failLog (writeQueueReg p n k value s) = failLog s := by
  simp only [writeQueueReg]; (repeat' split) <;> simp

@[simp] theorem writeRouteCtl_logGrows (value : Nat) (s : State) : LogGrows s (writeRouteCtl value s) := .of <| by
  simp [writeRouteCtl]

@[simp] theorem writeCommBase_failLog (value : Nat) (s : State) : failLog (writeCommBase value s) = failLog s := by
  simp [writeCommBase]

@[simp] theorem writeCompute_failLog (s : State) (off value : Nat) : failLog (writeCompute s off value) = failLog s := by
  simp only [writeCompute]; split <;> simp

@[simp] theorem writeTrain_failLog (s : State) (off value : Nat) : failLog (writeTrain s off value) = failLog s := by
  simp only [writeTrain]; (repeat' split) <;> simp

@[simp] theorem writeMem_failLog (s : State) (off value : Nat) : failLog (writeMem s off value) = failLog s := by
  simp only [writeMem]; (repeat' split) <;> simp

@[simp] theorem writeArray_logGrows (p : HPort) (s : State) (off value : Nat) :
    LogGrows s (writeArray p s off value) := .of <| by
  simp only [writeArray]; (repeat' split) <;> simp

@[simp] theorem writeMbxCtl_failLog (p : HPort) (value : Nat) (s : State) : failLog (writeMbxCtl p value s) = failLog s := by
  simp [writeMbxCtl]

@[simp] theorem writeMsix_failLog (p : HPort) (k size value : Nat) (s : State) :
    failLog (writeMsix p k size value s) = failLog s := by
  simp only [writeMsix]; split <;> simp

@[simp] theorem writeBar2_failLog (p : HPort) (off size value : Nat) (s : State) :
    failLog (writeBar2 p off size value s) = failLog s := by
  simp only [writeBar2]; (repeat' split) <;> simp

@[simp] theorem answerRead_failLog (p : HPort) (bar : HostBar) (off size : Nat) (s : State) :
    failLog (answerRead p bar off size s) = failLog s := by
  simp [answerRead]

@[simp] theorem execBar0Read_growsLog (hport : HPort) (bar : HostBar) (offset : BitVec 26) (size : Nat) (s : State) :
    GrowsLog s (execBar0Read hport bar offset size s) := by
  simp only [execBar0Read]; (repeat' split) <;> simp

/-! ### Power states and sideband inputs (chapter 17) -/

@[simp] theorem loseDies_failLog (s : State) : failLog (loseDies s) = failLog s := by simp [loseDies]

@[simp] theorem disableFabric_logGrows (s : State) : LogGrows s (disableFabric s) := .of <| by simp [disableFabric]

@[simp] theorem portToL2_failLog (s : State) (p : HPort) : failLog (portToL2 s p) = failLog s := by simp [portToL2]

@[simp] theorem railOff_logGrows (s : State) (target : BitVec 3) : LogGrows s (railOff s target) := .of <| by simp [railOff]

@[simp] theorem answerOpen_failLog (s : State) (reached point : Nat) : failLog (answerOpen s reached point) = failLog s := by
  simp [answerOpen]

@[simp] theorem abandonEntry_failLog (s : State) (e : PowerEntry) (point : Nat) :
    failLog (abandonEntry s e point) = failLog s := by
  simp only [abandonEntry]; split <;> simp

@[simp] theorem answerEntry_failLog (s : State) (e : PowerEntry) (reached point : Nat) :
    failLog (answerEntry s e reached point) = failLog s := by
  simp only [answerEntry]; split <;> simp

@[simp] theorem setStage_failLog (s : State) (e : PowerEntry) (k : Nat) : failLog (setStage s e k) = failLog s := by
  simp [setStage]

@[simp] theorem advanceEntry_logGrows (target : BitVec 3) (s : State) : LogGrows s (advanceEntry target s) := .of <| by
  simp only [advanceEntry]; (repeat' split) <;> simp

@[simp] theorem execQuiesceTimeout_growsLog (s : State) : GrowsLog s (execQuiesceTimeout s) := by
  simp only [execQuiesceTimeout]; (repeat' split) <;> simp

@[simp] theorem execWakeOutputLimit_growsLog (port : HPort) (s : State) : GrowsLog s (execWakeOutputLimit port s) := by
  simp only [execWakeOutputLimit]; (repeat' split) <;> simp

@[simp] theorem setSide_failLog (s : State) (i : Nat) (x : SideIn) : failLog (setSide s i x) = failLog s := by simp [setSide]

@[simp] theorem sideAssert_failLog (s : State) (i : Nat) : failLog (sideAssert s i).1 = failLog s := by
  simp only [sideAssert]; (repeat' split) <;> simp

@[simp] theorem sideDeassert_failLog (s : State) (i : Nat) : failLog (sideDeassert s i).1 = failLog s := by
  simp only [sideDeassert]; split <;> simp

@[simp] theorem execInputHeld_growsLog (input : BitVec 3) (s : State) : GrowsLog s (execInputHeld input s) := by
  simp only [execInputHeld]; (repeat' split) <;> simp

@[simp] theorem execInputUnmasked_growsLog (input : BitVec 3) (s : State) : GrowsLog s (execInputUnmasked input s) := by
  simp only [execInputUnmasked]; (repeat' split) <;> simp

@[simp] theorem execSlotIdChange_growsLog (s : State) : GrowsLog s (execSlotIdChange s) := by
  simp only [execSlotIdChange]; (repeat' split) <;> simp

@[simp] theorem wakeSource_failLog (s : State) (i : Nat) : failLog (wakeSource s i) = failLog s := by simp [wakeSource]

@[simp] theorem execHoldNDeassert_growsLog (s : State) : GrowsLog s (execHoldNDeassert s) := by
  simp only [execHoldNDeassert]; split <;> simp

@[simp] theorem setBrake_failLog (s : State) (on : Bool) : failLog (setBrake s on) = failLog s := by simp [setBrake]

@[simp] theorem execPwrbrkNAssert_growsLog (s : State) : GrowsLog s (execPwrbrkNAssert s) := by
  simp only [execPwrbrkNAssert]; split <;> simp

@[simp] theorem execPwrbrkNDeassert_growsLog (s : State) : GrowsLog s (execPwrbrkNDeassert s) := by
  simp only [execPwrbrkNDeassert]; split <;> simp

@[simp] theorem execWakeInN_growsLog (s : State) : GrowsLog s (execWakeInN s) := by simp only [execWakeInN]; split <;> simp

/-! ### Resets and power-up (chapter 18) -/

@[simp] theorem portReset_failLog (s : State) (p : HPort) : failLog (portReset s p) = failLog s := by simp [portReset]

@[simp] theorem countPerst_failLog (s : State) (p : HPort) : failLog (countPerst s p) = failLog s := by
  simp only [countPerst]; split <;> simp

@[simp] theorem countHot_failLog (s : State) (p : HPort) : failLog (countHot s p) = failLog s := by
  simp only [countHot]; split <;> simp

@[simp] theorem perstOn_failLog (s : State) (p : HPort) : failLog (perstOn s p) = failLog s := by simp [perstOn]

@[simp] theorem trainFromNow_failLog (s : State) (p : HPort) : failLog (trainFromNow s p) = failLog s := by
  simp only [trainFromNow]; split <;> simp

@[simp] theorem execPerstAssert_growsLog (port : HPort) (s : State) : GrowsLog s (execPerstAssert port s) := by
  simp only [execPerstAssert]; split <;> simp

@[simp] theorem execPerstDeassert_growsLog (port : HPort) (s : State) : GrowsLog s (execPerstDeassert port s) := by
  simp only [execPerstDeassert]; split <;> simp

@[simp] theorem execHotReset_growsLog (port : HPort) (s : State) : GrowsLog s (execHotReset port s) := by
  simp only [execHotReset]; split <;> simp

@[simp] theorem levelAgain_failLog (old s : State) (i : Nat) : failLog (levelAgain old s i) = failLog s := by
  simp only [levelAgain]; (repeat' split) <;> simp

@[simp] theorem bringUp_failLog (s : State) : failLog (bringUp s) = failLog s := by simp [bringUp]

@[simp] theorem mayStartUp_failLog (s : State) : failLog (mayStartUp s) = failLog s := by
  simp only [mayStartUp]; split <;> simp

@[simp] theorem execModuleRstNDeassert_growsLog (s : State) : GrowsLog s (execModuleRstNDeassert s) := by
  simp only [execModuleRstNDeassert]; split <;> simp

@[simp] theorem execRailFailRetry_growsLog (s : State) : GrowsLog s (execRailFailRetry s) := by
  simp only [execRailFailRetry]; split <;> simp

@[simp] theorem execSelftestDone_growsLog (fails : SelftestResult) (s : State) : GrowsLog s (execSelftestDone fails s) := by
  simp only [execSelftestDone]; split <;> simp

/-! ### Wear and failures in the field (chapters 01 and 17) -/

@[simp] theorem setWear_failLog (s : State) (d : Nat) (w : DieWear) : failLog (setWear s d w) = failLog s := by simp [setWear]

@[simp] theorem execWearReading_growsLog (pairs : List (List (Nat × Nat))) (s : State) :
    GrowsLog s (execWearReading pairs s) := by
  simp only [execWearReading]; split <;> simp

@[simp] theorem withdrawPoint_logGrows (die : Nat) (s : State) (_q : Nat) : LogGrows s (withdrawPoint die s _q) := .of <| by
  simp only [withdrawPoint]; split <;> simp

@[simp] theorem execReplan_growsLog (die : BitVec 2) (reading tj : Nat) (s : State) :
    GrowsLog s (execReplan die reading tj s) := by
  simp only [execReplan]; (repeat' split) <;> simp

@[simp] theorem execUnitFails_growsLog (unit : FailedUnit) (s : State) : GrowsLog s (execUnitFails unit s) := by
  simp only [execUnitFails]; (repeat' split) <;> simp

/-! ### Counter waits (chapter 11) -/

@[simp] theorem releaseCore_growsLog (c : CoreId) (host : List HostLine) (d : Bytes) (s : State) :
    GrowsLog s (releaseCore c host d s) := by
  simp only [releaseCore]; (repeat' split) <;> simp

@[simp] theorem releaseIo_growsLog (loc : OpLoc) (host : List HostLine) (d : Bytes) (s : State) :
    GrowsLog s (releaseIo loc host d s) := by
  simp only [releaseIo]
  (repeat' split) <;> try simp
  cases h : (List.range 7).find? (fun k => collRow k d) <;> simp

@[simp] theorem execCounterWaitRelease_growsLog (loc : OpLoc) (host : List HostLine) (s : State) :
    GrowsLog s (execCounterWaitRelease loc host s) := by
  simp only [execCounterWaitRelease]; (repeat' split) <;> simp

/-! ### Registers and held accesses (chapters 14 and 20) -/

@[simp] theorem writeNodeId_logGrows (value : Nat) (s : State) : LogGrows s (writeNodeId value s) := .of <| by
  simp only [writeNodeId]; split <;> simp

@[simp] theorem writeBypass_logGrows (value : Nat) (s : State) : LogGrows s (writeBypass value s) := .of <| by
  simp [writeBypass]

@[simp] theorem writeOther_logGrows (s : State) (off value : Nat) : LogGrows s (writeOther s off value) := .of <| by
  simp only [writeOther]; split <;> simp

@[simp] theorem writeReg_logGrows (p : HPort) (off size value : Nat) (s : State) :
    LogGrows s (writeReg p off size value s) := .of <| by
  simp only [writeReg]; (repeat' split) <;> simp

@[simp] theorem execRegisterWrite_growsLog (hport : HPort) (bar : HostBar) (offset : BitVec 26) (size : Nat) (value : BitVec 64)
    (s : State) : GrowsLog s (execRegisterWrite hport bar offset size value s) := by
  cases bar <;> simp [execRegisterWrite]

@[simp] theorem serveHeld_logGrows (s : State) (h : HeldAccess) : LogGrows s (serveHeld s h) := .of <| by
  cases h <;> simp [serveHeld]

@[simp] theorem openAgain_logGrows (s : State) : LogGrows s (openAgain s) := .of <| by simp [openAgain]

@[simp] theorem execClosedExit_growsLog (s : State) : GrowsLog s (execClosedExit s) := by
  simp only [execClosedExit]; split <;> simp

/-! ### Resets and trips keep what flash holds (R554, R574, R591) -/

@[simp] theorem quietPins_failLog (s : State) (tripOver : Bool) : failLog (quietPins s tripOver) = failLog s := by
  simp [quietPins]

@[simp] theorem freshState_failLog (s : State) (keep : Bool) : failLog (freshState s keep) = failLog s := by simp [freshState]

@[simp] theorem moduleReset_failLog (s : State) (cause : BitVec 3) (keep tripOver : Bool) :
    failLog (moduleReset s cause keep tripOver) = failLog s := by
  simp [moduleReset]

@[simp] theorem keepLocks_failLog (s t : State) : failLog (keepLocks s t) = failLog t := by simp [keepLocks]

@[simp] theorem railsOff_failLog (s : State) : failLog (railsOff s) = failLog s := by simp [railsOff]

@[simp] theorem trip_logGrows (s : State) (kind : Nat) (st : Status) : LogGrows s (trip s kind st) := .of <| by simp [trip]

@[simp] theorem execModuleRstNAssert_growsLog (refreshed : Bool) (s : State) :
    GrowsLog s (execModuleRstNAssert refreshed s) := by
  simp only [execModuleRstNAssert]; split <;> simp

@[simp] theorem execPowerOn_growsLog (slotId : BitVec 4) (s : State) : GrowsLog s (execPowerOn slotId s) := by
  simp only [execPowerOn]; split <;> simp

@[simp] theorem execThermalTrip_growsLog (s : State) : GrowsLog s (execThermalTrip s) := by
  simp only [execThermalTrip]; split <;> simp

@[simp] theorem execInputTrip_growsLog (s : State) : GrowsLog s (execInputTrip s) := by
  simp only [execInputTrip]; split <;> simp

@[simp] theorem execVaoLoss_growsLog (s : State) : GrowsLog s (execVaoLoss s) := by
  simp only [execVaoLoss]; split <;> simp

@[simp] theorem execInputTripRecovery_growsLog (s : State) : GrowsLog s (execInputTripRecovery s) := by
  simp only [execInputTripRecovery]; split <;> simp

@[simp] theorem execRailFail_growsLog (rail : BitVec 3) (s : State) : GrowsLog s (execRailFail rail s) := by
  simp only [execRailFail]; split <;> simp

@[simp] theorem execParkedExit_growsLog (loaded : Bool) (s : State) : GrowsLog s (execParkedExit loaded s) := by
  simp only [execParkedExit]; (repeat' split) <;> simp

end Sys2Proof.Laws
end

section
/-! PROOFS. The failure log over every command (R591, R592). -/

namespace Sys2Proof.Laws

open Sys2Proof Sys2Proof.Machine

/-! ## Every command -/

/-- R591: every command but the vendor's clear leaves the log with nothing removed. -/
theorem exec_growsLog {c : Instr} (s : State) (hc : c ≠ .failureLogClear) : GrowsLog s (exec c s) := by
  cases c
  case failureLogClear => exact absurd rfl hc
  case veNop | mov | cns | lid | lds | sts | gth | sct | sca | fadd | fsub | fmul | ffma | fmnx | fsgn | frcp | frsq | fsqt |
    fdiv | fexp | flog | fsig | cvt | iadd | isub | imul | ilog | ishf | imnx | fcmp | icmp | sel | kop | shf | rup | rug |
    smn | smb | nrm | rng =>
    simp [exec, execVeNop, execMov, execCns, execLid, execLds, execSts, execGth, execSct, execSca, execFadd, execFsub,
      execFmul, execFfma, execFmnx, execFsgn, execFrcp, execFrsq, execFsqt, execFdiv, execFexp, execFlog, execFsig, execCvt,
      execIadd, execIsub, execImul, execIlog, execIshf, execImnx, execFcmp, execIcmp, execSel, execKop, execShf, execRup,
      execRug, execSmn, execSmb, execNrm, execRng]
  case write | readReq | readData | ack | fwdWrite | join | close | data | result | credit | abort | a2aData | a2aCount =>
    simp [exec, execWrite, execReadReq, execReadData, execAck, execFwdWrite, execJoin, execClose, execData, execResult,
      execCredit, execAbort, execA2aData, execA2aCount]
  case allReduce | reduceScatter | allGather | reduce | broadcast | barrier | allToAllv =>
    simp [exec, execAllReduce, execReduceScatter, execAllGather, execReduce, execBroadcast, execBarrier, execAllToAllv]
  case hello | loadBegin | loadData | loadEnd | configSet | eventRingSet | certRead | mlogRead | faillogRead | sensorRead |
    powerReq | fwuStage | fwuVerify | fwuActivate | fwuAbort | fwuStatus =>
    simp [exec, execHello, execLoadBegin, execLoadData, execLoadEnd, execConfigSet, execEventRingSet, execCertRead,
      execMlogRead, execFaillogRead, execSensorRead, execPowerReq, execFwuStage, execFwuVerify, execFwuActivate,
      execFwuAbort, execFwuStatus]
  case topNodeId | fabBypass | queueClaim | queueRelease | queueEnable | queueDisable | ccmEnable | slotTableEnable |
    fabPortCfg | fabRouteTab | hifAper =>
    simp [exec, execTopNodeId, execFabBypass, execQueueClaim, execQueueRelease, execQueueEnable, execQueueDisable,
      execCcmEnable, execSlotTableEnable, execFabPortCfg, execFabRouteTab, execHifAper]
  case plateHoldRelease | pqStall | hotRelease | inputLowRelease | clusterWake | closedEntry | parkedEntry | holdNAssert =>
    simp [exec, execPlateHoldRelease, execPqStall, execHotRelease, execInputLowRelease, execClusterWake, execClosedEntry,
      execParkedEntry, execHoldNAssert]
  all_goals simp [exec]

theorem execFailureLogClear_cleared {s t : State} (h : exec .failureLogClear s = .next t) :
    t = s ∨ s.sec.svc = 2 ∧ t.err.failLog = [] := by
  simp only [exec, execFailureLogClear] at h
  split at h <;> cases h
  · next hsvc => exact .inr ⟨hsvc, rfl⟩
  · exact .inl rfl

theorem logFailure_logged {s : State} {kind : Nat} (hkind : kind ≤ 10) (h : ¬ noRoom s kind) (st : Status) (unit addr : Nat) :
    logged s (logFailure s kind st unit addr) kind ∧ (logFailure s kind st unit addr).err.lost = s.err.lost := by
  rw [logFailure_of_room st unit addr h]
  refine ⟨⟨_, rfl, ?_⟩, rfl⟩
  rw [failureEntry_kind, BitVec.toNat_ofNat, Nat.mod_eq_of_lt (by omega)]

/-- Settles O8. Every command but the clear appends entries one at a time, each where there is room (`LogGrew`), and
`logFailure` decides by the room left for its kind. -/
theorem failureLogKeepsItsEntries : Obligations.FailureLogKeepsItsEntries := by
  unfold Obligations.FailureLogKeepsItsEntries
  refine ⟨fun c s t hc hs => ?_, fun s kind st unit addr _ hkind => ?_⟩
  · by_cases hclear : c = .failureLogClear
    · subst hclear
      obtain rfl | ⟨hsvc, hnil⟩ := execFailureLogClear_cleared hc
      · exact ⟨hs, .inl LogGrew.refl.entries⟩
      · exact ⟨by rw [hnil]; exact Nat.zero_le _, .inr ⟨rfl, hsvc, hnil⟩⟩
    · have grew := exec_growsLog s hclear t hc
      exact ⟨grew.length_le hs, .inl grew.entries⟩
  · refine ⟨fun hk hfree => ?_, fun hk hfree => ?_, fun hk hfree => ?_⟩
    · exact logFailure_logged hkind (by rw [noRoom_iff]; omega) st unit addr
    · exact logFailure_logged hkind (by rw [noRoom_iff]; omega) st unit addr
    · rw [logFailure_of_noRoom st unit addr (by rw [noRoom_iff]; omega)]
      exact ⟨rfl, rfl⟩

end Sys2Proof.Laws
end

section
/-! PROOFS. Frames: what is left of a state once the parts that a command may write are taken out of it. An operation
    that
writes only such parts leaves the rest equal, so that one lemma for each operation, a rewrite rule, carries every
    frame. -/

namespace Sys2Proof.Laws

open Sys2Proof Sys2Proof.Machine
set_option Elab.async false

/-- The parts of the state, and the fields of `hif` and `sec` that R493, R498 and R504 protect. -/
inductive Spot where
  | nowNs | freeCount | out | mem | cr | cores | blink | trn | mr | ccm | muu | muuRun | trnRun | cmd | hif | sec | fw
  | err | pwr | rst | fab | coll | wt | minSvn | owner | keyRevoked
  deriving DecidableEq

/-- The spot of a part. -/
def partSpot : Part → Spot
  | .nowNs => .nowNs
  | .freeCount => .freeCount
  | .out => .out
  | .mem => .mem
  | .cr => .cr
  | .cores => .cores
  | .blink => .blink
  | .trn => .trn
  | .mr => .mr
  | .ccm => .ccm
  | .muu => .muu
  | .muuRun => .muuRun
  | .trnRun => .trnRun
  | .cmd => .cmd
  | .hif => .hif
  | .sec => .sec
  | .fw => .fw
  | .err => .err
  | .pwr => .pwr
  | .rst => .rst
  | .fab => .fab
  | .coll => .coll

/-- The host interface without what may be written: a write of `hif` leaves the Window Table, unless `wt` may be
    written. -/
def restHif (may : Spot → Bool) (h : HifState) : HifState :=
  if may .hif then { HifState.reset with wt := if may .wt then [] else h.wt } else h

/-- The security state without what may be written: a write of `sec` leaves each protected field that may not. -/
def restSec (may : Spot → Bool) (x : SecState) : SecState :=
  if may .sec then
    { SecState.reset with
      minSvn := if may .minSvn then 0 else x.minSvn
      owner := if may .owner then none else x.owner
      keyRevoked := if may .keyRevoked then 0 else x.keyRevoked }
  else x

/-- The state without what may be written: each such part stands at its reset value. The queue of commands stays. -/
def rest (may : Spot → Bool) (s : State) : State where
  pending := s.pending
  nowNs := if may .nowNs then State.reset.nowNs else s.nowNs
  freeCount := if may .freeCount then State.reset.freeCount else s.freeCount
  out := if may .out then State.reset.out else s.out
  mem := if may .mem then State.reset.mem else s.mem
  cr := if may .cr then State.reset.cr else s.cr
  cores := if may .cores then State.reset.cores else s.cores
  blink := if may .blink then State.reset.blink else s.blink
  trn := if may .trn then State.reset.trn else s.trn
  mr := if may .mr then State.reset.mr else s.mr
  ccm := if may .ccm then State.reset.ccm else s.ccm
  muu := if may .muu then State.reset.muu else s.muu
  muuRun := if may .muuRun then State.reset.muuRun else s.muuRun
  trnRun := if may .trnRun then State.reset.trnRun else s.trnRun
  cmd := if may .cmd then State.reset.cmd else s.cmd
  hif := restHif may s.hif
  sec := restSec may s.sec
  fw := if may .fw then State.reset.fw else s.fw
  err := if may .err then State.reset.err else s.err
  pwr := if may .pwr then State.reset.pwr else s.pwr
  rst := if may .rst then State.reset.rst else s.rst
  fab := if may .fab then State.reset.fab else s.fab
  coll := if may .coll then State.reset.coll else s.coll

/-- The command answers a next state whose rest is that of the state it found. -/
def KeepsRest (may : Spot → Bool) (s : State) (r : Res) : Prop := ∃ t, r = .next t ∧ rest may t = rest may s

variable {may : Spot → Bool}

@[simp] theorem restHif_eq_iff (h k : HifState) :
    restHif may h = restHif may k ↔ if may .hif then (may .wt ∨ h.wt = k.wt) else h = k := by
  simp only [restHif]; split
  · cases may .wt <;> simp
  · rfl

@[simp] theorem restSec_eq_iff (x y : SecState) :
    restSec may x = restSec may y ↔
      if may .sec then (may .owner ∨ x.owner = y.owner) ∧ (may .keyRevoked ∨ x.keyRevoked = y.keyRevoked) ∧
        (may .minSvn ∨ x.minSvn = y.minSvn) else x = y := by
  simp only [restSec]; split
  · cases may .minSvn <;> cases may .owner <;> cases may .keyRevoked <;> simp
  · rfl

/-- A part hidden or equal reads the same in the rest. -/
theorem ite_rest_eq {α : Type} {b : Bool} {d x y : α} (h : b ∨ x = y) :
    (if b then d else x) = if b then d else y := by
  cases b
  · exact h.resolve_left Bool.false_ne_true
  · rfl

/-- An update of a state leaves its rest where each part it writes may be written. -/
@[simp] theorem rest_mk (s : State) (nowNs freeCount out mem cr cores blink trn mr ccm muu muuRun trnRun cmd hif sec
    fw err pwr rst fab coll)
    (hnowNs : may .nowNs ∨ nowNs = s.nowNs) (hfreeCount : may .freeCount ∨ freeCount = s.freeCount) (hout : may .out ∨
    out = s.out) (hmem : may .mem ∨ mem = s.mem) (hcr : may .cr ∨ cr = s.cr) (hcores : may .cores ∨ cores = s.cores)
    (hblink : may .blink ∨ blink = s.blink) (htrn : may .trn ∨ trn = s.trn) (hmr : may .mr ∨ mr = s.mr) (hccm : may
    .ccm ∨ ccm = s.ccm) (hmuu : may .muu ∨ muu = s.muu) (hmuuRun : may .muuRun ∨ muuRun = s.muuRun) (htrnRun : may
    .trnRun ∨ trnRun = s.trnRun) (hcmd : may .cmd ∨ cmd = s.cmd) (hhif : restHif may hif = restHif may s.hif) (hsec :
    restSec may sec = restSec may s.sec) (hfw : may .fw ∨ fw = s.fw) (herr : may .err ∨ err = s.err) (hpwr : may .pwr
    ∨ pwr = s.pwr) (hrst : may .rst ∨ rst = s.rst) (hfab : may .fab ∨ fab = s.fab)
        (hcoll : may .coll ∨ coll = s.coll) :
    rest may ⟨s.pending, nowNs, freeCount, out, mem, cr, cores, blink, trn, mr, ccm, muu, muuRun, trnRun, cmd, hif,
        sec, fw, err, pwr, rst, fab, coll⟩ = rest may s := by
  simp only [rest, hhif, hsec, ite_rest_eq hnowNs, ite_rest_eq hfreeCount, ite_rest_eq hout, ite_rest_eq hmem,
      ite_rest_eq hcr, ite_rest_eq hcores, ite_rest_eq hblink, ite_rest_eq htrn, ite_rest_eq hmr, ite_rest_eq hccm,
          ite_rest_eq hmuu, ite_rest_eq hmuuRun, ite_rest_eq htrnRun, ite_rest_eq hcmd, ite_rest_eq hfw, ite_rest_eq
              herr, ite_rest_eq hpwr, ite_rest_eq hrst, ite_rest_eq hfab, ite_rest_eq hcoll]

@[simp] theorem setPort_wt (s : State) (p : HPort) (x : HostPortState) : (setPort s p x).hif.wt = s.hif.wt := by
  cases p <;> rfl

@[simp] theorem rest_ite (c : Prop) [Decidable c] (s t : State) :
    rest may (if c then s else t) = if c then rest may s else rest may t := apply_ite (rest may) c s t

@[simp] theorem keepsRest_next (s t : State) : KeepsRest may s (.next t) ↔ rest may t = rest may s :=
  ⟨fun ⟨_, h, k⟩ => by cases h; exact k, fun h => ⟨t, rfl, h⟩⟩

theorem keepsRest_ite {s : State} {r q : Res} (c : Prop) [Decidable c] (hr : KeepsRest may s r)
    (hq : KeepsRest may s q) :
    KeepsRest may s (if c then r else q) := by
  split <;> assumption

section Folds

variable {α β : Type}

@[simp] theorem foldl_rest {f : State → α → State} (h : ∀ s x, rest may (f s x) = rest may s) (l : List α)
    (s : State) :
    rest may (l.foldl f s) = rest may s := foldl_reads (rest may) h l s

@[simp] theorem foldl_fst_rest {f : State × β → α → State × β} (h : ∀ x a, rest may (f x a).1 = rest may x.1)
    (l : List α)
    (x : State × β) : rest may (l.foldl f x).1 = rest may x.1 := foldl_reads (fun y => rest may y.1) h l x

@[simp] theorem foldl_view_rest {f : View → α → View} (h : ∀ v x, rest may (f v x).s = rest may v.s) (l : List α)
    (v : View) : rest may (l.foldl f v).s = rest may v.s := foldl_reads (fun y => rest may y.s) h l v

@[simp] theorem foldl_env_rest {f : VeEnv → α → VeEnv} (h : ∀ e x, rest may (f e x).s = rest may e.s) (l : List α)
    (e : VeEnv) : rest may (l.foldl f e).s = rest may e.s := foldl_reads (fun y => rest may y.s) h l e

end Folds

/-! ## What a command may write -/

/-- The spots that a command may write: the parts of `touched`, the Window Table by WINDOW_SET, min_svn by
    SVN_COMMIT, the
owner by the ownership commands and the revoked keys by their burn. -/
def mayWrite (c : Instr) : Spot → Bool
  | .wt => match c with | .windowSet _ => true | _ => decide (touched c = everyPart)
  | .minSvn => match c with | .svnCommit _ => true | _ => false
  | .owner => match c with | .ownerClaim _ | .ownerRotate _ => true | _ => false
  | .keyRevoked => match c with | .keyRevocationBurn _ => true | _ => false
  | .nowNs => decide (Part.nowNs ∈ touched c)
  | .freeCount => decide (Part.freeCount ∈ touched c)
  | .out => decide (Part.out ∈ touched c)
  | .mem => decide (Part.mem ∈ touched c)
  | .cr => decide (Part.cr ∈ touched c)
  | .cores => decide (Part.cores ∈ touched c)
  | .blink => decide (Part.blink ∈ touched c)
  | .trn => decide (Part.trn ∈ touched c)
  | .mr => decide (Part.mr ∈ touched c)
  | .ccm => decide (Part.ccm ∈ touched c)
  | .muu => decide (Part.muu ∈ touched c)
  | .muuRun => decide (Part.muuRun ∈ touched c)
  | .trnRun => decide (Part.trnRun ∈ touched c)
  | .cmd => decide (Part.cmd ∈ touched c)
  | .hif => decide (Part.hif ∈ touched c)
  | .sec => decide (Part.sec ∈ touched c)
  | .fw => decide (Part.fw ∈ touched c)
  | .err => decide (Part.err ∈ touched c)
  | .pwr => decide (Part.pwr ∈ touched c)
  | .rst => decide (Part.rst ∈ touched c)
  | .fab => decide (Part.fab ∈ touched c)
  | .coll => decide (Part.coll ∈ touched c)

/-! ## Groups of spots that many operations write -/

/-- What the end of an op of a core list reaches. -/
@[simp] abbrev MayEnd (may : Spot → Bool) : Prop :=
  may .cores ∧ may .cmd ∧ may .pwr ∧ may .coll

theorem MayEnd.spots (h : MayEnd may) :
    may .cores ∧ may .cmd ∧ may .pwr ∧ may .coll := h

/-- What an event on its way to the rings reaches. -/
@[simp] abbrev MayRaise (may : Spot → Bool) : Prop :=
  may .out ∧ may .hif ∧ may .fw ∧ may .err

theorem MayRaise.spots (h : MayRaise may) :
    may .out ∧ may .hif ∧ may .fw ∧ may .err := h

/-- What a read that may meet an error of DRAM reaches. -/
@[simp] abbrev MayMeet (may : Spot → Bool) : Prop :=
  may .out ∧ may .mem ∧ may .mr ∧ may .hif ∧ may .fw ∧ may .err

theorem MayMeet.spots (h : MayMeet may) :
    may .out ∧ may .mem ∧ may .mr ∧ may .hif ∧ may .fw ∧ may .err := h

/-- What a read through a view, and a write behind it, reach. -/
@[simp] abbrev MayView (may : Spot → Bool) : Prop :=
  may .out ∧ may .mem ∧ may .mr ∧ may .hif ∧ may .fw ∧ may .err ∧ may .pwr

theorem MayView.spots (h : MayView may) :
    may .out ∧ may .mem ∧ may .mr ∧ may .hif ∧ may .fw ∧ may .err ∧ may .pwr := h

/-- What a reply of the mailbox reaches. -/
@[simp] abbrev MayReply (may : Spot → Bool) : Prop :=
  may .out ∧ may .hif ∧ may .sec ∧ may .fw ∧ may .pwr

theorem MayReply.spots (h : MayReply may) :
    may .out ∧ may .hif ∧ may .sec ∧ may .fw ∧ may .pwr := h

/-- What reads and writes that may meet a host window reach. -/
@[simp] abbrev MayReach (may : Spot → Bool) : Prop :=
  may .out ∧ may .mem ∧ may .hif ∧ may .fw ∧ may .err ∧ may .pwr

theorem MayReach.spots (h : MayReach may) :
    may .out ∧ may .mem ∧ may .hif ∧ may .fw ∧ may .err ∧ may .pwr := h

/-- What a completion record on its way to its queue reaches. -/
@[simp] abbrev MayRecord (may : Spot → Bool) : Prop :=
  may .out ∧ may .mem ∧ may .cmd ∧ may .hif ∧ may .fw ∧ may .err ∧ may .fab

theorem MayRecord.spots (h : MayRecord may) :
    may .out ∧ may .mem ∧ may .cmd ∧ may .hif ∧ may .fw ∧ may .err ∧ may .fab := h

/-- What the data of a collective on their way reach. -/
@[simp] abbrev MayCarry (may : Spot → Bool) : Prop :=
  may .out ∧ may .mem ∧ may .mr ∧ may .cmd ∧ may .hif ∧ may .fw ∧ may .err ∧ may .pwr ∧ may .fab ∧ may .coll

theorem MayCarry.spots (h : MayCarry may) :
    may .out ∧ may .mem ∧ may .mr ∧ may .cmd ∧ may .hif ∧ may .fw ∧ may .err ∧ may .pwr ∧ may .fab ∧ may .coll := h

/-- What a collective that moves on reaches. -/
@[simp] abbrev MayMove (may : Spot → Bool) : Prop :=
  may .out ∧ may .mem ∧ may .trn ∧ may .mr ∧ may .trnRun ∧ may .cmd ∧ may .hif ∧ may .fw ∧ may .err ∧ may .pwr ∧
      may .fab ∧ may .coll

theorem MayMove.spots (h : MayMove may) :
    may .out ∧ may .mem ∧ may .trn ∧ may .mr ∧ may .trnRun ∧ may .cmd ∧ may .hif ∧ may .fw ∧ may .err ∧ may .pwr ∧
        may .fab ∧ may .coll := h

/-- What the forced end of a stream reaches. -/
@[simp] abbrev MayStop (may : Spot → Bool) : Prop :=
  may .out ∧ may .mem ∧ may .cr ∧ may .cores ∧ may .blink ∧ may .trn ∧ may .muuRun ∧ may .trnRun ∧ may .cmd ∧
      may .hif ∧ may .fw ∧ may .err ∧ may .pwr ∧ may .fab ∧ may .coll

theorem MayStop.spots (h : MayStop may) :
    may .out ∧ may .mem ∧ may .cr ∧ may .cores ∧ may .blink ∧ may .trn ∧ may .muuRun ∧ may .trnRun ∧ may .cmd ∧
        may .hif ∧ may .fw ∧ may .err ∧ may .pwr ∧ may .fab ∧ may .coll := h

/-- What a fabric that settles reaches. -/
@[simp] abbrev MaySettle (may : Spot → Bool) : Prop :=
  may .out ∧ may .mem ∧ may .cr ∧ may .cores ∧ may .blink ∧ may .trn ∧ may .mr ∧ may .muuRun ∧ may .trnRun ∧
      may .cmd ∧ may .hif ∧ may .fw ∧ may .err ∧ may .pwr ∧ may .fab ∧ may .coll

theorem MaySettle.spots (h : MaySettle may) :
    may .out ∧ may .mem ∧ may .cr ∧ may .cores ∧ may .blink ∧ may .trn ∧ may .mr ∧ may .muuRun ∧ may .trnRun ∧
        may .cmd ∧ may .hif ∧ may .fw ∧ may .err ∧ may .pwr ∧ may .fab ∧ may .coll := h

end Sys2Proof.Laws
end

section
/-! PROOFS. The rest of the state through the operations on memory, cores, counters and the units of a core. -/

namespace Sys2Proof.Laws

open Sys2Proof Sys2Proof.Machine
set_option Elab.async false

variable {may : Spot → Bool} {α : Type}

/-! ### Memory, cores, counters and core lists -/

@[simp] theorem setMem_rest (s : State) (m : Mem) (hw : may .mem) : rest may (setMem s m) = rest may s := by
  simp [setMem, hw]

@[simp] theorem write_rest (s : State) (r : Reach) (a : Nat) (bs : Bytes) (poison : Bool) (hw : may .mem) :
    rest may (write s r a bs poison) = rest may s := by
  simp only [write]; (repeat' split) <;> simp [hw]

@[simp] theorem setCore_rest (s : State) (n : Nat) (c : Core) (hw : may .cores) :
    rest may (setCore s n c) = rest may s := by
  simp [setCore, hw]

@[simp] theorem coreWrite_rest (s : State) (n off : Nat) (bs : Bytes) (poison : Bool) (hw : may .mem) :
    rest may (coreWrite s n off bs poison) = rest may s := by
  simp only [coreWrite]; (repeat' split) <;> simp [hw]

@[simp] theorem touchCluster_rest (s : State) (c : Nat) (hw : may .pwr) :
    rest may (touchCluster s c) = rest may s := by
  simp [touchCluster, hw]

@[simp] theorem touch_rest (s : State) (a : Nat) (hw : may .pwr) : rest may (touch s a) = rest may s := by
  simp only [touch]; (repeat' split) <;> simp [hw]

@[simp] theorem emit_rest (s : State) (o : Output) (hw : may .out) : rest may (emit s o) = rest may s := by
  simp [emit, hw]

@[simp] theorem freeDraw_rest (s : State) (hw : may .freeCount) :
    rest may (freeDraw s).1 = rest may s := by
  simp [freeDraw, hw]

@[simp] theorem modStream_rest (s : State) (id : Nat) (f : StreamRun → StreamRun) (hw : may .cmd) :
    rest may (modStream s id f) = rest may s := by
  simp [modStream, hw]

@[simp] theorem modPhase_rest (s : State) (id p : Nat) (f : PhaseRun → PhaseRun) (hw : may .cmd) :
    rest may (modPhase s id p f) = rest may s := by
  simp [modPhase, hw]

@[simp] theorem noteStatus_rest (s : State) (id p : Nat) (st : Status) (hw : may .cmd) :
    rest may (noteStatus s id p st) = rest may s := by
  simp only [noteStatus]; (repeat' split) <;> simp [hw]

@[simp] theorem blameMember_rest (s x : State) (id p prob : Nat) (st : Status) (hw : may .cmd) :
    rest may (blameMember s x id p prob st) = rest may x := by
  simp only [blameMember]; split <;> simp [hw]

@[simp] theorem setCounter_rest (s : State) (c : Nat) (v : BitVec 32) (hw : may .cmd) :
    rest may (setCounter s c v) = rest may s := by
  simp [setCounter, hw]

@[simp] theorem counterSeen_rest (s : State) (c : Nat) (hw : may .cmd ∧ may .coll) :
    rest may (counterSeen s c) = rest may s := by
  simp [counterSeen, hw]

@[simp] theorem bumpCounter_rest (s : State) (c : Nat) (hw : may .cmd ∧ may .coll) :
    rest may (bumpCounter s c) = rest may s := by
  simp [bumpCounter, hw]

@[simp] theorem signal_rest (s : State) (id : Nat) (d : Bytes) (hw : may .cmd ∧ may .coll) :
    rest may (signal s id d) = rest may s := by
  simp only [signal]; (repeat' split) <;> simp [hw]

@[simp] theorem retireSvc_rest (s : State) (n : Nat) (hw : may .cores ∧ may .cmd) :
    rest may (retireSvc s n) = rest may s := by
  simp only [retireSvc]; (repeat' split) <;> simp [hw]

@[simp] theorem retireList_rest (s : State) (n : Nat) (hw : may .cores ∧ may .cmd) :
    rest may (retireList s n) = rest may s := by
  simp only [retireList]; (repeat' split) <;> simp [hw]

@[simp] theorem finishOp_rest (s : State) (n : Nat) (t : Token) (d : Bytes) (st : Status) (hw : MayEnd may) :
    rest may (finishOp s n t d st) = rest may s := by
  simp [finishOp, hw.spots]

@[simp] theorem passOps_rest (s : State) (n k : Nat) (hw : may .cores ∧ may .pwr) :
    rest may (passOps s n k) = rest may s := by
  simp [passOps, hw]

@[simp] theorem rejectOp_rest (s : State) (n : Nat) (o : NextOp) (st : Status) (hw : MayEnd may) :
    rest may (rejectOp s n o st) = rest may s := by
  simp [rejectOp, hw.spots]

@[simp] theorem photUpdate_rest (s : State) (base layer : Nat) (p : Phot) (clip : Bool) (hw : may .mem ∧ may .cr) :
    rest may (photUpdate s base layer p clip) = rest may s := by
  simp only [photUpdate]; (repeat' split) <;> simp [hw]

/-! ### Events and the failure log (chapter 19) -/

@[simp] theorem setPort_rest (s : State) (p : HPort) (x : HostPortState) (hw : may .hif) :
    rest may (setPort s p x) = rest may s := by
  simp only [setPort]; (repeat' split) <;> simp [hw]

@[simp] theorem setQueue_rest (s : State) (q : Nat) (x : Queue) (hw : may .cmd) :
    rest may (setQueue s q x) = rest may s := by
  simp [setQueue, hw]

@[simp] theorem sendMsix_rest (s : State) (p : HPort) (v : Nat) (hw : may .out ∧ may .hif) :
    rest may (sendMsix s p v) = rest may s := by
  simp only [sendMsix]; (repeat' split) <;> simp [hw]

@[simp] theorem evDrop_rest (s : State) (hw : may .fw) : rest may (evDrop s) = rest may s := by
  simp [evDrop, hw]

@[simp] theorem sendRead_rest (s : State) (p : HPort) (addr len : Nat) (w : ReadFor) (hw : may .out ∧ may .hif) :
    rest may (sendRead s p addr len w) = rest may s := by
  simp [sendRead, hw]

@[simp] theorem issueRead_rest (s : State) (p : HPort) (addr len : Nat) (w : ReadFor) (hw : may .out ∧ may .hif) :
    rest may (issueRead s p addr len w) = rest may s := by
  simp only [issueRead]; (repeat' split) <;> simp [hw]

@[simp] theorem refillRead_rest (s : State) (p : HPort) (hw : may .out ∧ may .hif) :
    rest may (refillRead s p) = rest may s := by
  simp only [refillRead]; split <;> simp [hw]

@[simp] theorem toRing_rest (s : State) (rec : Bytes) (p : HPort) (hw : may .out ∧ may .hif ∧ may .fw) :
    rest may (toRing s rec p) = rest may s := by
  simp only [toRing]; (repeat' split) <;> simp [hw]

@[simp] theorem deliver_rest (s : State) (rec : Bytes) (ports : List HPort) (hw : may .out ∧ may .hif ∧ may .fw) :
    rest may (deliver s rec ports) = rest may s := by
  simp only [deliver]; (repeat' split) <;> simp [hw]

@[simp] theorem ringWrite_rest (s : State) (p : HPort) (rec headWord : Bytes) (hw : may .out ∧ may .hif ∧ may .fw) :
    rest may (ringWrite s p rec headWord) = rest may s := by
  simp only [ringWrite]; (repeat' split) <;> simp [hw]

@[simp] theorem emitEvent_rest (s : State) (st : Status) (source unit count first : Nat) (coalesced : Bool)
    (detail : Bytes) (hw : MayRaise may) :
    rest may (emitEvent s st source unit count first coalesced detail) = rest may s := by
  simp only [emitEvent]; (repeat' split) <;> simp [hw.spots]

@[simp] theorem dropWindow_rest (s : State) (st : Status) (source unit : Nat) (hw : may .err) :
    rest may (dropWindow s st source unit) = rest may s := by
  simp [dropWindow, hw]

@[simp] theorem flushWindow_rest (s : State) (w : EventWindow) (hw : MayRaise may) :
    rest may (flushWindow s w) = rest may s := by
  simp only [flushWindow]; (repeat' split) <;> simp [hw.spots]

@[simp] theorem raiseEvent_rest (s : State) (st : Status) (source unit : Nat) (detail : Bytes) (hw : MayRaise may) :
    rest may (raiseEvent s st source unit detail) = rest may s := by
  simp only [raiseEvent]; (repeat' split) <;> simp [hw.spots]

@[simp] theorem execCoalesceWindowEnd_keepsRest (status : BitVec 16) (source : BitVec 8) (unit : BitVec 16)
    (s : State) :
    KeepsRest (mayWrite (.coalesceWindowEnd status source unit)) s (execCoalesceWindowEnd status source unit s) := by
  simp only [execCoalesceWindowEnd]; (repeat' split) <;> simp [mayWrite, touched]

@[simp] theorem logFailure_rest (s : State) (kind : Nat) (st : Status) (unit addr : Nat) (hw : may .err) :
    rest may (logFailure s kind st unit addr) = rest may s := by
  simp only [logFailure]; (repeat' split) <;> simp [hw]

/-! ### Checked accesses (chapters 10 and 15) -/

@[simp] theorem denyLine_rest (s : State) (init : Nat) (write : Bool) (a : Nat) (hw : MayRaise may) :
    rest may (denyLine s init write a) = rest may s := by
  simp [denyLine, hw.spots]

@[simp] theorem noteCorrected_rest (s : State) (n : BitVec 32) (source unit a : Nat) (hw : MayRaise may) :
    rest may (noteCorrected s n source unit a) = rest may s := by
  simp only [noteCorrected]; split <;> simp [hw.spots]

@[simp] theorem meetErr_rest (s : State) (a : Nat) (e : LineErr) (hw : MayMeet may) :
    rest may (meetErr s a e) = rest may s := by
  simp only [meetErr]; split <;> simp [hw.spots]

@[simp] theorem demandWith_rest (host : List HostLine) (s : State) (a : Nat) (hw : MayMeet may) :
    rest may (demandWith host s a) = rest may s := by
  simp only [demandWith]; split <;> simp [hw.spots]

@[simp] theorem demandLine_rest (s : State) (a : Nat) (hw : MayMeet may) :
    rest may (demandLine s a) = rest may s := by
  simp only [demandLine]; split <;> simp [hw.spots]

@[simp] theorem demandRead_rest (s : State) (a n : Nat) (hw : MayMeet may) :
    rest may (demandRead s a n) = rest may s := by
  simp only [demandRead]; split <;> simp [hw.spots]

@[simp] theorem viewLine_rest (init : Nat) (r : Reach) (host : List HostLine) (v : View) (a : Nat)
    (hw : MayView may) :
    rest may (viewLine init r host v a).s = rest may v.s := by
  simp only [viewLine]; (repeat' split) <;> simp [hw.spots]

@[simp] theorem viewSpan_rest (init : Nat) (r : Reach) (host : List HostLine) (v : View) (a n : Nat)
    (hw : MayView may) :
    rest may (viewSpan init r host v a n).s = rest may v.s := by
  simp [viewSpan, hw.spots]

@[simp] theorem writeLine_rest (init : Nat) (r : Reach) (a : Nat) (bs : Bytes) (poison : Nat → Bool)
    (x : State × Option Status) (l : Nat) (hw : MayReach may) :
    rest may (writeLine init r a bs poison x l).1 = rest may x.1 := by
  simp only [writeLine]; (repeat' split) <;> simp [hw.spots]

@[simp] theorem writeSpan_rest (s : State) (init : Nat) (r : Reach) (a : Nat) (bs : Bytes) (poison : Nat → Bool)
    (hw : MayReach may) :
    rest may (writeSpan s init r a bs poison).1 = rest may s := by
  simp [writeSpan, hw.spots]

@[simp] theorem copySpan_rest (m : Mem) (s : State) (init : Nat) (r : Reach) (src dst len : Nat) (hw : MayReach may) :
    rest may (copySpan m s init r src dst len).1 = rest may s := by
  simp [copySpan, hw.spots]

@[simp] theorem wakeUp_rest (s : State) (hw : may .pwr) : rest may (wakeUp s) = rest may s := by
  simp only [wakeUp]; split <;> simp [hw]

@[simp] theorem holdAccess_rest (s : State) (h : HeldAccess) (hw : may .pwr) :
    rest may (holdAccess s h) = rest may s := by
  simp [holdAccess, hw]

@[simp] theorem hostSetup_rest {act : State → State} (h : ∀ x, rest may (act x) = rest may x) (s : State)
    (p : HPort) (off size value : Nat) (hw : may .pwr) : rest may (hostSetup s p off size value act) = rest may
        s := by
  simp only [hostSetup]; split <;> simp [h, hw]

/-! ### Log-Product Arrays (chapter 04) -/

@[simp] theorem loadAhead_rest (s : State) (n : Nat) (r : LpaRun) (j : Nat) (hw : may .cores) :
    rest may (loadAhead s n r j) = rest may s := by
  simp only [loadAhead]; (repeat' split) <;> simp [hw]

@[simp] theorem execWeightTileReady_keepsRest (core : CoreId) (array : BitVec 2) (s : State) :
    KeepsRest (mayWrite (.weightTileReady core array)) s (execWeightTileReady core array s) := by
  simp only [execWeightTileReady]; (repeat' split) <;> simp [mayWrite, touched]

@[simp] theorem startLpa_rest (s : State) (n : Nat) (o : NextOp) (ds : List Bytes) (hw : may .cores ∧ may .pwr) :
    rest may (startLpa s n o ds) = rest may s := by
  simp [startLpa, hw]

@[simp] theorem rejectGroup_rest (s : State) (n : Nat) (o : NextOp) (ds : List Bytes) (st : Status)
    (hw : MayEnd may) :
    rest may (rejectGroup s n o ds st) = rest may s := by
  simp [rejectGroup, hw.spots]

@[simp] theorem runPlan_rest (s : State) (n : Nat) (o : NextOp) (plan : LpaPlan) (hw : MayEnd may) :
    rest may (runPlan s n o plan) = rest may s := by
  simp only [runPlan]; (repeat' split) <;> simp [hw.spots]

@[simp] theorem beginLpa_rest (n : Nat) (s : State) (hw : MayEnd may) : rest may (beginLpa n s) = rest may s := by
  simp only [beginLpa]; (repeat' split) <;> simp [hw.spots]

@[simp] theorem beginGroup_rest (n : Nat) (s : State) (hw : MayEnd may) : rest may (beginGroup n s) = rest may s := by
  simp only [beginGroup]; (repeat' split) <;> simp [hw.spots]

@[simp] theorem drainPlate_rest (s : State) (n : Nat) (r : LpaRun) (j : PlateJob) (mb : LpaMember)
    (hw : may .mem ∧ may .cores ∧ may .blink ∧ may .cmd) :
    rest may (drainPlate s n r j mb) = rest may s := by
  simp [drainPlate, hw]

@[simp] theorem reserveEntries_rest (s : State) (n : Nat) (hw : may .cores) :
    rest may (reserveEntries s n) = rest may s := by
  simp only [reserveEntries]; split <;> simp [hw]

@[simp] theorem drainOcs_rest (s : State) (n ocs fuel : Nat) (hw : may .mem ∧ may .cr ∧ may .cores ∧ may .blink ∧
    may .cmd) : rest may (drainOcs s n ocs fuel) = rest may s := by
  induction fuel generalizing s with
  | zero => rfl
  | succ fuel ih => simp only [drainOcs]; (repeat' split) <;> simp [ih, hw]

@[simp] theorem drainBanks_rest (s : State) (n : Nat) (hw : may .mem ∧ may .cr ∧ may .cores ∧ may .blink ∧ may .cmd) :
    rest may (drainBanks s n) = rest may s := by
  simp [drainBanks, hw]

@[simp] theorem execRowBlockDone_keepsRest (core : CoreId) (s : State) :
    KeepsRest (mayWrite (.rowBlockDone core)) s (execRowBlockDone core s) := by
  simp only [execRowBlockDone]; (repeat' split) <;> simp [mayWrite, touched]

@[simp] theorem execPlateHoldRelease_keepsRest (core : CoreId) (s : State) :
    KeepsRest (mayWrite (.plateHoldRelease core)) s (execPlateHoldRelease core s) := by
  simp [execPlateHoldRelease, mayWrite, touched]

@[simp] theorem poisonPlate_rest (s : State) (n : Nat) (p : LpaParm) (mb : LpaMember) (imag : Bool) (blk j : Nat)
    (hw : may .mem) :
    rest may (poisonPlate s n p mb imag blk j) = rest may s := by
  simp only [poisonPlate]; split <;> simp [hw]

@[simp] theorem poisonRest_rest (s : State) (n : Nat) (r : LpaRun) (hw : may .mem) :
    rest may (poisonRest s n r) = rest may s := by
  simp only [poisonRest]
  rw [foldl_rest fun a i => foldl_rest (fun b mb => ?_) _ a, foldl_rest]
  · intro a j; split <;> simp [hw]
  · simp [hw]

@[simp] theorem countMember_rest (s : State) (r : LpaRun) (z : LpaMember × Nat) (st : Status) (hw : may .mem ∧
    may .cr) :
    rest may (countMember s r z st) = rest may s := by
  simp only [countMember]; split <;> simp [hw]

@[simp] theorem countEnded_rest (s : State) (r : LpaRun) (hw : may .mem ∧ may .cr) :
    rest may (countEnded s r) = rest may s := by
  simp [countEnded, hw]

@[simp] theorem endMembers_rest (s : State) (n : Nat) (r : LpaRun) (status : LpaMember → Status) (hw : may .mem ∧
    may .cr ∧ may .cores ∧ may .cmd ∧ may .pwr ∧ may .coll) :
    rest may (endMembers s n r status) = rest may s := by
  simp [endMembers, hw]

@[simp] theorem completeLpa_rest (s : State) (n : Nat) (hw : MayStop may) :
    rest may (completeLpa s n) = rest may s := by
  simp only [completeLpa]; (repeat' split) <;> simp [hw.spots]

@[simp] theorem endStalled_rest (n : Nat) (s : State) (hw : may .mem ∧ may .cr ∧ may .cores ∧ may .cmd ∧
    may .pwr ∧ may .coll) : rest may (endStalled n s) = rest may s := by
  simp only [endStalled]; (repeat' split) <;> simp [hw]

/-! ### The Coelostat (chapter 06) -/

@[simp] theorem coeRun_rest (s : State) (n : Nat) (o : NextOp) (host : List HostLine) (hw : may .out ∧ may .mem ∧
    may .cr ∧ may .cores ∧ may .mr ∧ may .hif ∧ may .fw ∧ may .err ∧ may .pwr) :
    rest may (coeRun s n o host) = rest may s := by
  have spans (v : View) : rest may ((coeSpans (coeParm o.desc)
      (coeSrc (coreRead s n (coeParm o.desc).src 32).data)).foldl
      (fun a x => (List.range x.2.2.1).foldl (fun b i =>
        viewSpan initDma (.near (n / 64)) host b (x.1 + i * x.2.2.2) x.2.1) a) v).s = rest may v.s :=
    foldl_view_rest (fun v x => by simp [hw]) _ v
  simp [coeRun, hw, spans]

@[simp] theorem execCoeStage_keepsRest (core : CoreId) (host : List HostLine) (s : State) :
    KeepsRest (mayWrite (.coeStage core host)) s (execCoeStage core host s) := by
  simp only [execCoeStage]; (repeat' split) <;> simp [mayWrite, touched]

@[simp] theorem countCoe_rest (s : State) (r : OpRun) (st : Status) (hw : may .mem ∧ may .cr) :
    rest may (countCoe s r st) = rest may s := by
  simp [countCoe, hw]

@[simp] theorem completeCoe_rest (s : State) (n : Nat) (hw : MayStop may) :
    rest may (completeCoe s n) = rest may s := by
  simp only [completeCoe]; (repeat' split) <;> simp [hw.spots]

/-! ### Blink (chapter 06) -/

@[simp] theorem ladderUpdate_rest (s : State) (entry : Option Nat) (f : Bytes → Bytes) (hw : may .mem) :
    rest may (ladderUpdate s entry f) = rest may s := by
  simp only [ladderUpdate]; (repeat' split) <;> simp [hw]

@[simp] theorem execBlinkSample_keepsRest (cluster : ClusterId) (host : List HostLine) (s : State) :
    KeepsRest (mayWrite (.blinkSample cluster host)) s (execBlinkSample cluster host s) := by
  simp only [execBlinkSample]; split <;> simp [mayWrite, touched]

/-! ### The Vector Engine (chapter 07) -/

@[simp] theorem veBack_rest (e : VeEnv) (hw : may .cores) : rest may (veBack e) = rest may e.s := by simp [veBack, hw]

/-- The state that an issue answers with, if it answers with one, keeps what may not be written. -/
def IssueRest (may : Spot → Bool) (s : State) : Issue → Prop
  | .done e => rest may e.s = rest may s
  | .wait => True
  | .fault e .. => rest may e.s = rest may s

@[simp] theorem issueRest_done (s : State) (e : VeEnv) : IssueRest may s (.done e) ↔
    rest may e.s = rest may s := Iff.rfl

@[simp] theorem issueRest_wait (s : State) : IssueRest may s .wait := trivial

@[simp] theorem issueRest_fault (s : State) (e : VeEnv) (k l b a : Nat) (st : Status) :
    IssueRest may s (.fault e k l b a st) ↔ rest may e.s = rest may s := Iff.rfl

@[simp] theorem faultAll_keepsRest (s : State) (e : VeEnv) (kind act : Nat) (st : Status) :
    IssueRest may s (faultAll e kind act st) ↔ rest may e.s = rest may s := Iff.rfl

@[simp] theorem addFlags_rest (e : VeEnv) (nv of : Bool) : rest may (addFlags e nv of).s = rest may e.s := by
  simp [addFlags]

@[simp] theorem laneOp_keepsRest (s : State) (e : VeEnv) (d : Nat) (lanes : List Nat) (srcs : Nat → List (Nat × Bool))
    (f : Nat → FRes) : IssueRest may s (laneOp e d lanes srcs f) ↔ rest may e.s = rest may s := by
  simp [laneOp]

@[simp] theorem unary_keepsRest (s : State) (e : VeEnv) (u : Uop) (f : Nat → FRes) :
    IssueRest may s (unary e u f) ↔ rest may e.s = rest may s := by
  simp [unary]

@[simp] theorem binary_keepsRest (s : State) (e : VeEnv) (u : Uop) (f : Nat → Nat → FRes) :
    IssueRest may s (binary e u f) ↔ rest may e.s = rest may s := by
  simp [binary]

@[simp] theorem takeVector_rest (e : VeEnv) (u : Uop) (k : Nat) (vec : List (Nat × Bool) × Nat) :
    rest may (takeVector e u k vec).s = rest may e.s := by
  simp [takeVector]

@[simp] theorem flushBlock_rest (e : VeEnv) (k r blk : Nat) (hw : may .mem) :
    rest may (flushBlock e k r blk).s = rest may e.s := by
  simp [flushBlock, hw]

@[simp] theorem outPut_rest (e : VeEnv) (k : Nat) (x : Option (Nat × Bool)) (hw : may .mem) :
    rest may (outPut e k x).s = rest may e.s := by
  simp only [outPut]; (repeat' split) <;> simp [hw]

@[simp] theorem flushAll_rest (e : VeEnv) (hw : may .mem) : rest may (flushAll e).s = rest may e.s := by
  simp only [flushAll]
  exact foldl_env_rest (fun e k => by simp [hw]) _ e

/-- A gather or scatter keeps what its action on each lane keeps. -/
theorem gatherRun_keepsRest {act : VeEnv → Nat → Target → VeEnv} {atFault : VeEnv → Nat → VeEnv}
    (hact : ∀ a i t, rest may (act a i t).s = rest may a.s)
    (hfault : ∀ a i, rest may (atFault a i).s = rest may a.s) (e : VeEnv) (u : Uop) :
    IssueRest may e.s (gatherRun e u act atFault) := by
  simp only [gatherRun]; split <;> simp [hact, hfault]

theorem ruRow_keepsRest {s : State} {i : Issue} (h : IssueRest may s i) (act : Nat) (x : RuRes × Nat)
    (hw : may .mem ∧ may .cr) :
    IssueRest may s (ruRow i act x) := by
  cases i with
  | done e => simp only [issueRest_done] at h; simp only [ruRow]; (repeat' split) <;> simp [h, hw]
  | wait => exact h
  | fault => exact h

theorem ruRows_keepsRest {s : State} {before e : VeEnv} (hb : rest may before.s = rest may s)
    (he : rest may e.s = rest may s) (act : Nat) (xs : List (RuRes × Nat)) (hw : may .mem ∧
        may .cr) : IssueRest may s (ruRows before e act xs) := by
  have rows : IssueRest may s (xs.foldl (fun a x => ruRow a act x) (.done e)) :=
    List.foldlRecOn xs _ he fun _ h x _ => ruRow_keepsRest h act x hw
  simp only [ruRows]; split
  · exact hb
  · exact rows

@[simp] theorem veFault_rest (e : VeEnv) (op kind lane bitmap addr : Nat) (st : Status) (hw : may .mem ∧ may .cr) :
    rest may (veFault e op kind lane bitmap addr st).s = rest may e.s := by
  simp [veFault, hw]

@[simp] theorem veStart_rest (s : State) (n : Nat) (o : NextOp) (hw : may .cores ∧ may .pwr) :
    rest may (veStart s n o) = rest may s := by
  simp [veStart, hw]

@[simp] theorem completeVe_rest (s : State) (n : Nat) (hw : MayEnd may) : rest may (completeVe s n) = rest may s := by
  simp only [completeVe]; (repeat' split) <;> simp [hw.spots]

/-! ### Micro-ops and the program loop (chapter 07) -/

@[simp] theorem floatOp_keepsRest (s : State) (e : VeEnv) (u : Uop) (f : FFmt → Nat → Nat → FRes) :
    IssueRest may s (floatOp f e u) ↔ rest may e.s = rest may s := by
  simp [floatOp]

@[simp] theorem compare_keepsRest (s : State) (e : VeEnv) (u : Uop) (f : Nat → Nat → Bool) :
    IssueRest may s (Machine.compare e u f) ↔ rest may e.s = rest may s := by
  simp [Machine.compare]

@[simp] theorem uopNop_keepsRest (e : VeEnv) (u : Uop) : IssueRest may e.s (uopNop e u) := by simp [uopNop]

@[simp] theorem uopMov_keepsRest (e : VeEnv) (u : Uop) : IssueRest may e.s (uopMov e u) := by simp [uopMov]

@[simp] theorem uopCns_keepsRest (e : VeEnv) (u : Uop) : IssueRest may e.s (uopCns e u) := by simp [uopCns]

@[simp] theorem uopLid_keepsRest (e : VeEnv) (u : Uop) : IssueRest may e.s (uopLid e u) := by simp [uopLid]

@[simp] theorem uopLds_keepsRest (e : VeEnv) (u : Uop) (hw : may .cores) : IssueRest may e.s (uopLds e u) := by
  simp only [uopLds]; (repeat' split) <;> simp [hw]

@[simp] theorem uopSts_keepsRest (e : VeEnv) (u : Uop) (hw : may .mem) : IssueRest may e.s (uopSts e u) := by
  simp only [uopSts]; split <;> simp [hw]

@[simp] theorem uopGth_keepsRest (e : VeEnv) (u : Uop) : IssueRest may e.s (uopGth e u) := by
  simp only [uopGth]
  apply gatherRun_keepsRest
  · intro a i t; split <;> rfl
  · intros; rfl

@[simp] theorem uopSct_keepsRest (e : VeEnv) (u : Uop) (hw : may .mem) : IssueRest may e.s (uopSct e u) := by
  simp only [uopSct]
  apply gatherRun_keepsRest
  · intro a i t; split <;> simp [hw]
  · intros; rfl

@[simp] theorem uopSca_keepsRest (e : VeEnv) (u : Uop) (hw : may .mem) : IssueRest may e.s (uopSca e u) := by
  simp only [uopSca]
  apply gatherRun_keepsRest
  · intro a i t; split <;> simp [hw]
  · intros; rfl

@[simp] theorem uopFadd_keepsRest (e : VeEnv) (u : Uop) : IssueRest may e.s (uopFadd e u) := by simp [uopFadd]

@[simp] theorem uopFsub_keepsRest (e : VeEnv) (u : Uop) : IssueRest may e.s (uopFsub e u) := by simp [uopFsub]

@[simp] theorem uopFmul_keepsRest (e : VeEnv) (u : Uop) : IssueRest may e.s (uopFmul e u) := by simp [uopFmul]

@[simp] theorem uopFfma_keepsRest (e : VeEnv) (u : Uop) : IssueRest may e.s (uopFfma e u) := by simp [uopFfma]

@[simp] theorem uopFmnx_keepsRest (e : VeEnv) (u : Uop) : IssueRest may e.s (uopFmnx e u) := by simp [uopFmnx]

@[simp] theorem uopFsgn_keepsRest (e : VeEnv) (u : Uop) : IssueRest may e.s (uopFsgn e u) := by
  simp only [uopFsgn]; split <;> simp

@[simp] theorem uopFrcp_keepsRest (e : VeEnv) (u : Uop) : IssueRest may e.s (uopFrcp e u) := by simp [uopFrcp]

@[simp] theorem uopFrsq_keepsRest (e : VeEnv) (u : Uop) : IssueRest may e.s (uopFrsq e u) := by simp [uopFrsq]

@[simp] theorem uopFsqt_keepsRest (e : VeEnv) (u : Uop) : IssueRest may e.s (uopFsqt e u) := by simp [uopFsqt]

@[simp] theorem uopFdiv_keepsRest (e : VeEnv) (u : Uop) : IssueRest may e.s (uopFdiv e u) := by simp [uopFdiv]

@[simp] theorem uopFexp_keepsRest (e : VeEnv) (u : Uop) : IssueRest may e.s (uopFexp e u) := by simp [uopFexp]

@[simp] theorem uopFlog_keepsRest (e : VeEnv) (u : Uop) : IssueRest may e.s (uopFlog e u) := by simp [uopFlog]

@[simp] theorem uopFsig_keepsRest (e : VeEnv) (u : Uop) : IssueRest may e.s (uopFsig e u) := by simp [uopFsig]

@[simp] theorem uopCvt_keepsRest (e : VeEnv) (u : Uop) : IssueRest may e.s (uopCvt e u) := by
  simp only [uopCvt]; split <;> simp

@[simp] theorem uopIadd_keepsRest (e : VeEnv) (u : Uop) : IssueRest may e.s (uopIadd e u) := by simp [uopIadd]

@[simp] theorem uopIsub_keepsRest (e : VeEnv) (u : Uop) : IssueRest may e.s (uopIsub e u) := by simp [uopIsub]

@[simp] theorem uopImul_keepsRest (e : VeEnv) (u : Uop) : IssueRest may e.s (uopImul e u) := by simp [uopImul]

@[simp] theorem uopIlog_keepsRest (e : VeEnv) (u : Uop) : IssueRest may e.s (uopIlog e u) := by simp [uopIlog]

@[simp] theorem uopIshf_keepsRest (e : VeEnv) (u : Uop) : IssueRest may e.s (uopIshf e u) := by simp [uopIshf]

@[simp] theorem uopImnx_keepsRest (e : VeEnv) (u : Uop) : IssueRest may e.s (uopImnx e u) := by simp [uopImnx]

@[simp] theorem uopFcmp_keepsRest (e : VeEnv) (u : Uop) : IssueRest may e.s (uopFcmp e u) := by simp [uopFcmp]

@[simp] theorem uopIcmp_keepsRest (e : VeEnv) (u : Uop) : IssueRest may e.s (uopIcmp e u) := by simp [uopIcmp]

@[simp] theorem uopSel_keepsRest (e : VeEnv) (u : Uop) : IssueRest may e.s (uopSel e u) := by simp [uopSel]

@[simp] theorem uopKop_keepsRest (e : VeEnv) (u : Uop) : IssueRest may e.s (uopKop e u) := by simp [uopKop]

@[simp] theorem uopShf_keepsRest (e : VeEnv) (u : Uop) : IssueRest may e.s (uopShf e u) := by simp [uopShf]

@[simp] theorem uopRup_keepsRest (e : VeEnv) (u : Uop) (hw : may .mem ∧ may .cr) :
    IssueRest may e.s (uopRup e u) := by
  simp only [uopRup]; split
  · simp
  · exact ruRows_keepsRest (by rfl) (by rfl) _ _ hw

@[simp] theorem uopRug_keepsRest (e : VeEnv) (u : Uop) : IssueRest may e.s (uopRug e u) := by
  simp only [uopRug]; (repeat' split) <;> simp

@[simp] theorem uopSmn_keepsRest (e : VeEnv) (u : Uop) (hw : may .freeCount) : IssueRest may e.s (uopSmn e u) := by
  simp [uopSmn, hw]

@[simp] theorem uopSmb_keepsRest (e : VeEnv) (u : Uop) : IssueRest may e.s (uopSmb e u) := by simp [uopSmb]

@[simp] theorem uopNrm_keepsRest (e : VeEnv) (u : Uop) : IssueRest may e.s (uopNrm e u) := by simp [uopNrm]

@[simp] theorem uopRng_keepsRest (e : VeEnv) (u : Uop) : IssueRest may e.s (uopRng e u) := by simp [uopRng]

theorem uopIssue_keepsRest (e : VeEnv) (u : Uop) (hw : may .freeCount ∧ may .mem ∧ may .cr ∧ may .cores) :
    IssueRest may e.s (uopIssue e u) := by
  simp only [uopIssue]; split <;> simp [hw]

@[simp] theorem veEnd_rest (e : VeEnv) (hw : may .mem ∧ may .cr) : rest may (veEnd e).s = rest may e.s := by
  simp only [veEnd]; split
  · split
    · next r _ =>
      have rows := ruRows_keepsRest (may := may) (s := e.s) (before := { e with c := { e.c with ru := { e.c.ru with
          open_ := none } } })
        (e := { e with c := { e.c with ru := { e.c.ru with open_ := none } } }) rfl rfl (envMask e)
        [ruResult e.c.ru.op r (envEps e)] hw
      split <;> simp_all
    · simp [hw]
  · simp [hw]

@[simp] theorem veLoop_rest (fuel : Nat) (e : VeEnv) (hw : may .freeCount ∧ may .mem ∧ may .cr ∧ may .cores) :
    rest may (veLoop fuel e).s = rest may e.s := by
  induction fuel generalizing e with
  | zero => rfl
  | succ fuel ih =>
    have issued := uopIssue_keepsRest (may := may) e (uopOf (e.v.prog.getD e.v.pc 0)) (by simp [hw])
    simp only [veLoop]; split
    · rfl
    · split <;> simp_all [apply_ite VeEnv.s]

@[simp] theorem veGo_rest (s : State) (n : Nat) (hw : may .freeCount ∧ may .mem ∧ may .cr ∧ may .cores) :
    rest may (veGo s n) = rest may s := by
  simp only [veGo]; split
  · rfl
  · next e h => split <;> simp [veEnv_s h, hw]

@[simp] theorem execVeRun_keepsRest (core : CoreId) (s : State) :
    KeepsRest (mayWrite (.veRun core)) s (execVeRun core s) := by
  simp only [execVeRun]; (repeat' split) <;> simp [mayWrite, touched]

@[simp] theorem veRecheck_rest (s : State) (n : Nat) (hw : may .freeCount ∧ may .mem ∧ may .cr ∧ may .cores) :
    rest may (veRecheck s n) = rest may s := by
  simp only [veRecheck]; split <;> simp [hw]

@[simp] theorem execLpaMatmul_keepsRest (core : CoreId) (s : State) :
    KeepsRest (mayWrite (.lpaMatmul core)) s (execLpaMatmul core s) := by
  simp [execLpaMatmul, mayWrite, touched]

@[simp] theorem execCoResidentGroup_keepsRest (core : CoreId) (s : State) :
    KeepsRest (mayWrite (.coResidentGroup core)) s (execCoResidentGroup core s) := by
  simp [execCoResidentGroup, mayWrite, touched]

@[simp] theorem execPqStall_keepsRest (core : CoreId) (s : State) :
    KeepsRest (mayWrite (.pqStall core)) s (execPqStall core s) := by
  simp [execPqStall, mayWrite, touched]

@[simp] theorem execPlateVisible_keepsRest (core : CoreId) (s : State) :
    KeepsRest (mayWrite (.plateVisible core)) s (execPlateVisible core s) := by
  simp only [execPlateVisible]; (repeat' split) <;> simp [mayWrite, touched]

@[simp] theorem issueCmd_keepsRest {f : VeEnv → Uop → Issue} (hf : ∀ e u, IssueRest may e.s (f e u)) (core : CoreId)
    (op : Nat) (d a b mod : BitVec 6) (s : State) (hw : may .mem ∧ may .cr ∧
        may .cores) : KeepsRest may s (issueCmd core op d a b mod f s) := by
  simp only [issueCmd]; split
  · simp
  · next e h =>
    have issued := hf e { op, d := d.toNat, a := a.toNat, b := b.toNat, sel := mod.toNat % 8, var := mod.toNat / 8 }
    rw [veEnv_s h] at issued
    refine keepsRest_ite _ (by simp) ?_
    split <;> simp_all [veEnv_s h]

/-! ### Batched small solves (chapter 07) -/

@[simp] theorem solveStep_rest (n : Nat) (p : SolveParm) (s : State) (v : VeRun) (i : Nat) (hw : may .mem ∧ may .cr) :
    rest may (solveStep n p s v i).1 = rest may s := by
  simp [solveStep, hw]

@[simp] theorem execVeSolve_keepsRest (core : CoreId) (s : State) :
    KeepsRest (mayWrite (.veSolve core)) s (execVeSolve core s) := by
  simp only [execVeSolve]; (repeat' split) <;> simp [mayWrite, touched]

/-! ### Op lists (chapter 11) -/

@[simp] theorem passIo_rest (s : State) (id p : Nat) (hw : may .cmd) :
    rest may (passIo s id p) = rest may s := by
  simp [passIo, hw]

@[simp] theorem finishIo_rest (s : State) (id p : Nat) (d : Bytes) (st : Status) (hw : may .cmd ∧ may .coll) :
    rest may (finishIo s id p d st) = rest may s := by
  simp [finishIo, hw]

end Sys2Proof.Laws
end

section
/-! PROOFS. The rest of the state through the Context Cache Manager, the update units and the links. -/

namespace Sys2Proof.Laws

open Sys2Proof Sys2Proof.Machine
set_option Elab.async false

variable {may : Spot → Bool} {α : Type}

@[simp] theorem rejectIo_rest (s : State) (id p : Nat) (o : NextOp) (st : Status) (hw : may .cmd ∧ may .coll) :
    rest may (rejectIo s id p o st) = rest may s := by
  simp [rejectIo, hw]

@[simp] theorem startIo_rest (s : State) (id p : Nat) (o : NextOp) (hw : may .cmd) :
    rest may (startIo s id p o) = rest may s := by
  simp [startIo, hw]

@[simp] theorem modIo_rest (s : State) (id p i : Nat) (f : IoOp → IoOp) (hw : may .cmd) :
    rest may (modIo s id p i f) = rest may s := by
  simp [modIo, hw]

@[simp] theorem endIo_rest (s : State) (id p i : Nat) (st : Status) (hw : may .cmd) :
    rest may (endIo s id p i st) = rest may s := by
  simp [endIo, hw]

@[simp] theorem completeIo_rest (s : State) (id p i : Nat) (hw : may .cmd ∧ may .coll) :
    rest may (completeIo s id p i) = rest may s := by
  simp only [completeIo]; (repeat' split) <;> simp [hw]

@[simp] theorem rejectAt_rest (loc : OpLoc) (s : State) (o : NextOp) (st : Status) (hw : MayEnd may) :
    rest may (rejectAt loc s o st) = rest may s := by
  simp only [rejectAt]; (repeat' split) <;> simp [hw.spots]

@[simp] theorem plainOp_rest (loc : OpLoc) (s : State) (o : NextOp) (hw : MayEnd may) :
    rest may (plainOp loc s o) = rest may s := by
  simp [plainOp, hw.spots]

@[simp] theorem execOpNop_keepsRest (loc : OpLoc) (s : State) :
    KeepsRest (mayWrite (.opNop loc)) s (execOpNop loc s) := by
  simp only [execOpNop]; (repeat' split) <;> simp [mayWrite, touched]

@[simp] theorem execWait_keepsRest (loc : OpLoc) (s : State) :
    KeepsRest (mayWrite (.wait loc)) s (execWait loc s) := by
  simp only [execWait]; (repeat' split) <;> simp [mayWrite, touched]

@[simp] theorem completeDma_rest (s : State) (n : Nat) (hw : MayEnd may) :
    rest may (completeDma s n) = rest may s := by
  simp only [completeDma]; (repeat' split) <;> simp [hw.spots]

@[simp] theorem completeCcm_rest (s : State) (n : Nat) (hw : MayEnd may) :
    rest may (completeCcm s n) = rest may s := by
  simp only [completeCcm]; (repeat' split) <;> simp [hw.spots]

/-! ### The Context Cache Manager (chapter 10) -/

@[simp] theorem putFreeBit_rest (s : State) (tier f : Nat) (free : Bool) (hw : may .mem) :
    rest may (putFreeBit s tier f free) = rest may s := by
  simp [putFreeBit, hw]

@[simp] theorem setUsed_rest (s : State) (tier f : Nat) (used : Bool) (hw : may .mem ∧ may .ccm) :
    rest may (setUsed s tier f used) = rest may s := by
  simp [setUsed, hw]

@[simp] theorem claimFrame_rest (s : State) (tier f seq page : Nat) (hw : may .mem ∧ may .ccm) :
    rest may (claimFrame s tier f seq page) = rest may s := by
  simp [claimFrame, hw]

@[simp] theorem addHeld_rest (s : State) (seq : Nat) (up : Bool) (hw : may .mem) :
    rest may (addHeld s seq up) = rest may s := by
  simp [addHeld, hw]

@[simp] theorem putPage_rest (s : State) (a : Nat) (e : PageEntry) (hw : may .mem) :
    rest may (putPage s a e) = rest may s := by
  simp [putPage, hw]

@[simp] theorem hostFault_rest (s : State) (hw : may .out ∧ may .mr ∧ may .ccm ∧ may .hif ∧ may .fw ∧ may .err) :
    rest may (hostFault s) = rest may s := by
  simp only [hostFault]; split <;> simp [hw]

@[simp] theorem hostFine_rest (s : State) (hw : may .ccm) :
    rest may (hostFine s) = rest may s := by simp [hostFine, hw]

@[simp] theorem startMove_rest (s : State) (promote : Bool) (a seq page target : Nat) (forOp : Option Nat)
    (hw : may .mem ∧ may .ccm) :
    rest may (startMove s promote a seq page target forOp).1 = rest may s := by
  simp only [startMove]; (repeat' split) <;> simp [hw]

@[simp] theorem promoteSkip_rest (s : State) (hw : may .mr) :
    rest may (promoteSkip s) = rest may s := by simp [promoteSkip, hw]

@[simp] theorem promotePage_rest (s : State) (seq page : Nat) (forOp : Option Nat) (hw : may .mem ∧ may .mr ∧
    may .ccm) :
    rest may (promotePage s seq page forOp) = rest may s := by
  simp [promotePage, hw]

@[simp] theorem endMove_rest (s : State) (mv : CcmMoveRun) (hw : may .cores ∧ may .ccm) :
    rest may (endMove s mv) = rest may s := by
  simp only [endMove]; (repeat' split) <;> simp [hw]

@[simp] theorem abandonMove_rest (s : State) (mv : CcmMoveRun) (hw : may .mem ∧ may .cores ∧ may .mr ∧ may .ccm) :
    rest may (abandonMove s mv) = rest may s := by
  simp only [abandonMove]; split <;> simp [hw]

@[simp] theorem ccmView_rest (s : State) (host : List HostLine) (tier f : Nat) (hw : MayView may) :
    rest may (ccmView s host tier f).s = rest may s := by
  simp [ccmView, hw.spots]

@[simp] theorem execCcmMove_keepsRest (id : Nat) (host : List HostLine) (s : State) :
    KeepsRest (mayWrite (.ccmMove id host)) s (execCcmMove id host s) := by
  simp only [execCcmMove]; (repeat' split) <;> simp [mayWrite, touched]

@[simp] theorem setHand_rest (s : State) (tier h : Nat) (hw : may .ccm) :
    rest may (setHand s tier h) = rest may s := by
  simp only [setHand]; split <;> simp [hw]

@[simp] theorem handStep_rest (s : State) (tier : Nat) (hw : may .mem ∧ may .ccm) :
    rest may (handStep s tier) = rest may s := by
  simp [handStep, hw]

@[simp] theorem sweep_rest (tier want k : Nat) (s : State) (hw : may .mem ∧ may .ccm) :
    rest may (sweep tier want k s) = rest may s := by
  induction k generalizing s with
  | zero => rfl
  | succ k ih => simp only [sweep]; split <;> simp [ih, hw]

@[simp] theorem setSweep_rest (s : State) (tier : Nat) (b : Bool) (hw : may .ccm) :
    rest may (setSweep s tier b) = rest may s := by
  simp only [setSweep]; split <;> simp [hw]

@[simp] theorem execDemotionSweep_keepsRest (pool : BitVec 2) (s : State) :
    KeepsRest (mayWrite (.demotionSweep pool)) s (execDemotionSweep pool s) := by
  simp only [execDemotionSweep]; (repeat' split) <;> simp [mayWrite, touched]

@[simp] theorem ccmRun_rest (s : State) (n : Nat) (o : NextOp) (st : Status) (finished : Bool) (hw : may .cores ∧
    may .pwr) :
    rest may (ccmRun s n o st finished) = rest may s := by
  simp [ccmRun, hw]

@[simp] theorem appendRows_rest (s : State) (n : Nat) (p : CcmParm) (tier f : Nat) (hw : MayReach may) :
    rest may (appendRows s n p tier f).1 = rest may s := by
  simp only [appendRows]
  exact foldl_fst_rest (fun a i => foldl_fst_rest (fun b x => by simp [hw.spots]) _ a) _ _

@[simp] theorem appendTo_rest (s : State) (n : Nat) (o : NextOp) (a tier f : Nat) (e : PageEntry) (hw : may .out ∧
    may .mem ∧ may .cores ∧ may .mr ∧ may .ccm ∧ may .hif ∧ may .fw ∧ may .err ∧ may .pwr) :
    rest may (appendTo s n o a tier f e) = rest may s := by
  simp only [appendTo]; (repeat' split) <;> simp [hw]

@[simp] theorem execAppend_keepsRest (core : CoreId) (s : State) :
    KeepsRest (mayWrite (.append core)) s (execAppend core s) := by
  simp only [execAppend]; (repeat' split) <;> simp [mayWrite, touched]

@[simp] theorem fetchRow_rest (s0 : State) (m : Mem) (n : Nat) (p : CcmParm) (tier f fill : Nat) (poison : Bool)
    (j r : Nat) (s : State) (hw : MayReach may) : rest may (fetchRow s0 m n p tier f fill poison j r s) = rest
        may s := by
  simp only [fetchRow]
  refine foldl_rest (fun a c => foldl_rest (fun b x => ?_) _ a) _ s
  (repeat' split) <;> simp [hw.spots]

@[simp] theorem fetchPage_rest (s0 : State) (n : Nat) (p : CcmParm) (host : List HostLine) (x : State × Bool)
    (j : Nat) (hw : may .out ∧ may .mem ∧ may .mr ∧ may .ccm ∧ may .hif ∧ may .fw ∧ may .err ∧ may .pwr) :
    rest may (fetchPage s0 n p host x j).1 = rest may x.1 := by
  simp only [fetchPage]; split
  · simp [hw]
  · split
    · simp [hw]
    · simp [rest_ite, hw]

@[simp] theorem execFetch_keepsRest (core : CoreId) (host : List HostLine) (s : State) :
    KeepsRest (mayWrite (.fetch core host)) s (execFetch core host s) := by
  simp only [execFetch]; (repeat' split) <;> simp [mayWrite, touched]

@[simp] theorem execPromote_keepsRest (core : CoreId) (s : State) :
    KeepsRest (mayWrite (.promote core)) s (execPromote core s) := by
  simp only [execPromote]; (repeat' split) <;> simp [mayWrite, touched]

@[simp] theorem truncPage_rest (seq : Nat) (s : State) (i : Nat) (hw : may .mem ∧ may .ccm) :
    rest may (truncPage seq s i) = rest may s := by
  simp only [truncPage]; split <;> simp [hw]

@[simp] theorem execTruncate_keepsRest (core : CoreId) (s : State) :
    KeepsRest (mayWrite (.truncate core)) s (execTruncate core s) := by
  simp only [execTruncate]; (repeat' split) <;> simp [mayWrite, touched]

@[simp] theorem ccmStop_rest (s : State) (hw : may .cores) :
    rest may (ccmStop s) = rest may s := by simp [ccmStop, hw]

@[simp] theorem writeSeqBase_rest (s : State) (value : Nat) (hw : may .out ∧ may .mem ∧ may .cores ∧ may .mr ∧
    may .ccm ∧ may .hif ∧ may .fw ∧ may .err) : rest may (writeSeqBase s value) = rest may s := by
  simp [writeSeqBase, hw]

@[simp] theorem execCcmEnable_keepsRest (port : HPort) (value : BitVec 64) (s : State) :
    KeepsRest (mayWrite (.ccmEnable port value)) s (execCcmEnable port value s) := by
  simp [execCcmEnable, mayWrite, touched]

@[simp] theorem execCcmReady_keepsRest (s : State) : KeepsRest (mayWrite .ccmReady) s (execCcmReady s) := by
  simp only [execCcmReady]; split <;> simp [mayWrite, touched]

/-! ### Slots, bindings and micro-batch records (chapter 08) -/

@[simp] theorem putSlot_rest (s : State) (tid : Nat) (e : SlotEntry) (hw : may .mem) :
    rest may (putSlot s tid e) = rest may s := by
  simp [putSlot, hw]

@[simp] theorem unpin_rest (s : State) (x : Nat × Nat) (hw : may .mem) :
    rest may (unpin s x) = rest may s := by simp [unpin, hw]

@[simp] theorem setMbState_rest (s : State) (mb v : Nat) (hw : may .mem) :
    rest may (setMbState s mb v) = rest may s := by
  simp [setMbState, hw]

@[simp] theorem setMbPins_rest (s : State) (mb : Nat) (ps : List (Nat × Nat)) (hw : may .mem) :
    rest may (setMbPins s mb ps) = rest may s := by
  simp [setMbPins, hw]

@[simp] theorem releaseAll_rest (s : State) (mb : Nat) (hw : may .mem) : rest may (releaseAll s mb) = rest may s := by
  simp [releaseAll, hw]

@[simp] theorem excludeMb_rest (s : State) (mb : Nat) (hw : may .mem ∧ may .trn ∧ may .trnRun) :
    rest may (excludeMb s mb) = rest may s := by
  simp only [excludeMb]; split <;> simp [hw]

@[simp] theorem doneMb_rest (s : State) (mb : Nat) (st : Status) (hw : may .mem ∧ may .trn ∧ may .trnRun) :
    rest may (doneMb s mb st) = rest may s := by
  simp only [doneMb]; split <;> simp [hw]

@[simp] theorem lateMb_rest (s : State) (mb : Nat) (useDefault : Bool) (hw : may .mem ∧ may .trn ∧ may .trnRun) :
    rest may (lateMb s mb useDefault) = rest may s := by
  simp [lateMb, hw]

@[simp] theorem updateBegins_rest (s : State) (step : Nat) (useDefault : Bool) (hw : may .mem ∧ may .trn ∧
    may .trnRun) :
    rest may (updateBegins s step useDefault) = rest may s := by
  simp [updateBegins, hw]

@[simp] theorem addPin_rest (s : State) (x : Nat × Nat) (hw : may .mem) :
    rest may (addPin s x) = rest may s := by simp [addPin, hw]

@[simp] theorem takePins_rest (s : State) (r : Resolve) (mb : Option Nat) (hw : may .mem) :
    rest may (takePins s r mb) = rest may s := by
  simp only [takePins]; (repeat' split) <;> simp [hw]

@[simp] theorem patchBind_rest (s : State) (x : Binding × Nat) (hw : may .mem) :
    rest may (patchBind s x) = rest may s := by
  simp only [patchBind]; split <;> simp [hw]

@[simp] theorem underPhase_rest (ph : PhaseRun) (s : State) (hw : may .trn) :
    rest may (underPhase ph s) = rest may s := by
  simp [underPhase, hw]

@[simp] theorem withTrn_rest {f : State → State} (h : ∀ x, rest may (f x) = rest may x) (ph : PhaseRun)
    (s : State) (hw : may .trn) : rest may (withTrn ph f s) = rest may s := by
  simp [withTrn, h, hw]

@[simp] theorem noteCarried_rest (s : State) (m : Nat) (hw : may .trnRun) :
    rest may (noteCarried s m) = rest may s := by
  simp [noteCarried, hw]

@[simp] theorem endBind_rest (mb : Option Nat) (late : Bool) (s : State) (b : Binding) (hw : may .mem ∧ may .trnRun) :
    rest may (endBind mb late s b) = rest may s := by
  simp only [endBind]; (repeat' split) <;> simp [hw]

@[simp] theorem endPhaseBinds_rest (ph : PhaseRun) (s : State) (hw : may .mem ∧ may .trn ∧ may .trnRun) :
    rest may (endPhaseBinds ph s) = rest may s := by
  refine withTrn_rest (fun x => ?_) ph s hw.2.1
  rw [foldl_rest, foldl_rest] <;> intros <;> simp [hw]

@[simp] theorem writeSlotBase_rest (s : State) (value : Nat) (hw : may .trn) :
    rest may (writeSlotBase s value) = rest may s := by
  have reread : ∀ x : State, rest may (if bit value 0 then
      let r := read x .dram (slotTab x) 4
      match r.err with
      | some _ => x
      | none => { x with trn := { x.trn with committed := BitVec.ofNat 32 (leNat r.data) } }
    else x) = rest may x := by
    intro x; dsimp only; (repeat' split) <;> simp [hw]
  refine (reread _).trans ?_
  simp [hw]

@[simp] theorem execSlotTableEnable_keepsRest (port : HPort) (value : BitVec 64) (s : State) :
    KeepsRest (mayWrite (.slotTableEnable port value)) s (execSlotTableEnable port value s) := by
  simp [execSlotTableEnable, mayWrite, touched]

@[simp] theorem doFlip_rest (s : State) (v : Nat) (hw : may .mem ∧ may .trn) :
    rest may (doFlip s v).1 = rest may s := by
  simp only [doFlip]; (repeat' split) <;> simp [hw]

/-! ### The Meridian Update Units (chapter 09) -/

@[simp] theorem demandTensor_rest (s : State) (r : MuuRec) (base : Nat) (hw : MayMeet may) :
    rest may (demandTensor s r base) = rest may s := by
  simp [demandTensor, hw.spots]

@[simp] theorem putRec_rest (s : State) (p : MuuParm) (i off : Nat) (b : Bytes) (hw : may .mem) :
    rest may (putRec s p i off b) = rest may s := by
  simp [putRec, hw]

@[simp] theorem markRec_rest (s : State) (p : MuuParm) (i : Nat) (st : Status) (flags : Nat) (hw : may .mem ∧
    may .muu) :
    rest may (markRec s p i st flags) = rest may s := by
  simp [markRec, hw]

@[simp] theorem tensorFail_rest (s : State) (tid step at_ : Nat) (st : Status) (hw : may .out ∧ may .muu ∧
    may .hif ∧ may .fw ∧ may .err) :
    rest may (tensorFail s tid step at_ st) = rest may s := by
  simp [tensorFail, hw]

@[simp] theorem drawIf_rest (b : Bool) (k : Nat) (s : State) (hw : may .freeCount) :
    rest may (drawIf b k s) = rest may s := by
  simp only [drawIf]; split <;> simp [hw]

@[simp] theorem endPass_rest (s : State) (r : MuuRun) (st : Status) (hw : may .muu ∧ may .muuRun ∧ may .cmd) :
    rest may (endPass s r st) = rest may s := by
  simp [endPass, hw]

@[simp] theorem withPhase_rest {f : State → State} (h : ∀ x, rest may (f x) = rest may x) (id p : Nat)
    (s : State) (hw : may .trn) : rest may (withPhase id p f s) = rest may s := by
  simp only [withPhase]; split <;> simp [h, hw]

@[simp] theorem startPass_rest (s : State) (id p : Nat) (o : NextOp) (hw : may .muu ∧ may .muuRun ∧ may .cmd) :
    rest may (startPass s id p o) = rest may s := by
  simp [startPass, hw]

@[simp] theorem passOneTensor_rest (x : State × MuuRun) (i : Nat) (hw : may .freeCount ∧ may .out ∧ may .mem ∧
    may .mr ∧ may .muu ∧ may .hif ∧ may .fw ∧ may .err) :
    rest may (passOneTensor x i).1 = rest may x.1 := by
  simp only [passOneTensor]; (repeat' split) <;> simp [hw]

@[simp] theorem passOneGo_rest (s : State) (hw : may .freeCount ∧ may .out ∧ may .mem ∧ may .mr ∧ may .muu ∧
    may .muuRun ∧ may .cmd ∧ may .hif ∧ may .fw ∧ may .err) : rest may (passOneGo s) = rest may s := by
  simp only [passOneGo]; (repeat' split) <;> simp [hw]

@[simp] theorem execMuuPassOne_keepsRest (loc : OpLoc) (s : State) :
    KeepsRest (mayWrite (.muuPassOne loc)) s (execMuuPassOne loc s) := by
  simp only [execMuuPassOne]; (repeat' split) <;> simp [mayWrite, touched]

@[simp] theorem combined_rest (s : State) (step : Nat) (c : Status × Nat × Nat) (hw : may .muu ∧ may .trnRun) :
    rest may (combined s step c) = rest may s := by
  simp [combined, hw]

@[simp] theorem execMuuCombine_keepsRest (loc : OpLoc) (s : State) :
    KeepsRest (mayWrite (.muuCombine loc)) s (execMuuCombine loc s) := by
  simp only [execMuuCombine]; (repeat' split) <;> simp [mayWrite, touched]

@[simp] theorem zeroGrad_rest (s : State) (r : MuuRec) (hw : may .mem) :
    rest may (zeroGrad s r) = rest may s := by simp [zeroGrad, hw]

@[simp] theorem gradReset_rest (s : State) (r : MuuRec) (step : Nat) (hw : may .mem) :
    rest may (gradReset s r step) = rest may s := by
  simp [gradReset, hw]

@[simp] theorem noteOverflow_rest (run : MuuRun) (of : Bool) (s : State) (hw : may .cmd) :
    rest may (noteOverflow run of s) = rest may s := by
  simp only [noteOverflow]; split <;> simp [hw]

@[simp] theorem writeRowTwo_rest (run : MuuRun) (r : MuuRec) (ab cb row : Nat) (vals : List (Nat × Nat))
    (s : State) (hw : may .mem ∧ may .cmd) :
    rest may (writeRowTwo run r ab cb row vals s) = rest may s := by
  simp only [writeRowTwo]; split <;> simp [hw]

@[simp] theorem updateTensor_rest (s : State) (run : MuuRun) (r : MuuRec) (hw : may .freeCount ∧ may .out ∧
    may .mem ∧ may .mr ∧ may .cmd ∧ may .hif ∧ may .fw ∧ may .err) :
    rest may (updateTensor s run r).1 = rest may s := by
  simp only [updateTensor]; (repeat' split) <;> simp [hw]

@[simp] theorem passTwoDone_rest (s : State) (run : MuuRun) (i : Nat) (r : MuuRec) (deferred skip : Bool) (st : Option
    (Status × Nat)) (hw : may .out ∧ may .mem ∧ may .muu ∧ may .hif ∧ may .fw ∧ may .err) :
    rest may (passTwoDone s run i r deferred skip st).1 = rest may s := by
  simp only [passTwoDone]; (repeat' split) <;> simp [hw]

@[simp] theorem passTwoTensor_rest (x : State × MuuRun) (i : Nat) (hw : may .freeCount ∧ may .out ∧ may .mem ∧
    may .trn ∧ may .mr ∧ may .muu ∧ may .cmd ∧ may .hif ∧ may .fw ∧ may .err) :
    rest may (passTwoTensor x i).1 = rest may x.1 := by
  simp only [passTwoTensor]; (repeat' split) <;> simp [hw]

@[simp] theorem passTwoGo_rest (s : State) (hw : may .freeCount ∧ may .out ∧ may .mem ∧ may .trn ∧ may .mr ∧
    may .muu ∧ may .muuRun ∧ may .trnRun ∧ may .cmd ∧ may .hif ∧ may .fw ∧
        may .err) : rest may (passTwoGo s) = rest may s := by
  simp only [passTwoGo]; (repeat' split) <;> simp [hw]

@[simp] theorem execMuuPassTwo_keepsRest (loc : OpLoc) (s : State) :
    KeepsRest (mayWrite (.muuPassTwo loc)) s (execMuuPassTwo loc s) := by
  simp only [execMuuPassTwo]; (repeat' split) <;> simp [mayWrite, touched]

@[simp] theorem execDeferralRecheck_keepsRest (s : State) :
    KeepsRest (mayWrite .deferralRecheck) s (execDeferralRecheck s) := by
  simp only [execDeferralRecheck]; (repeat' split) <;> simp [mayWrite, touched]

@[simp] theorem excludePinning_rest (s : State) (run : MuuRun) (hw : may .mem ∧ may .trn ∧ may .trnRun) :
    rest may (excludePinning s run) = rest may s := by
  simp [excludePinning, hw]

@[simp] theorem execStragglerDeadline_keepsRest (s : State) :
    KeepsRest (mayWrite .stragglerDeadline) s (execStragglerDeadline s) := by
  simp only [execStragglerDeadline]; (repeat' split) <;> simp [mayWrite, touched]

@[simp] theorem rollEntry_rest (recs : List MuuRec) (s : State) (tid : Nat) (hw : may .mem) :
    rest may (rollEntry recs s tid) = rest may s := by
  simp only [rollEntry]; (repeat' split) <;> simp [hw]

@[simp] theorem doRollback_rest (s : State) (v : Nat) (hw : may .mem ∧ may .trn ∧ may .trnRun) :
    rest may (doRollback s v).1 = rest may s := by
  simp only [doRollback]; (repeat' split) <;> simp [rest_ite, hw]

/-! ### Links and routing of the fabric (chapter 12) -/

@[simp] theorem setFab_rest (s : State) (p : Nat) (x : FabPortState) (hw : may .fab) :
    rest may (setFab s p x) = rest may s := by
  simp [setFab, hw]

@[simp] theorem enterPort_rest (s : State) (p : Nat) (st : BitVec 3) (hw : may .out ∧ may .fab) :
    rest may (enterPort s p st) = rest may s := by
  simp [enterPort, hw]

@[simp] theorem sendIdle_rest (s : State) (p : Nat) (hw : may .out ∧ may .fab) :
    rest may (sendIdle s p) = rest may s := by
  simp only [sendIdle]; split <;> simp [hw]

@[simp] theorem noteTag_rest (s : State) (fi t : Nat) (hw : may .fab) :
    rest may (noteTag s fi t) = rest may s := by simp [noteTag, hw]

@[simp] theorem takeTag_rest (s : State) (fi t part limitNs : Nat) (o : FabOwner) (hw : may .fab) :
    rest may (takeTag s fi t part limitNs o) = rest may s := by
  simp [takeTag, hw]

@[simp] theorem dropFabric_rest (s : State) (mine : FabOwner → Bool) (hw : may .fab) :
    rest may (dropFabric s mine) = rest may s := by
  simp [dropFabric, hw]

@[simp] theorem freeSource_rest (s : State) (src : Option (Nat × Nat × Nat)) (hw : may .out ∧ may .fab) :
    rest may (freeSource s src) = rest may s := by
  simp only [freeSource]; split <;> simp [hw]

@[simp] theorem putOnLink_rest (s : State) (p : Nat) (o : OutPkt) (bytes : Bytes) (hw : may .out ∧ may .fab) :
    rest may (putOnLink s p o bytes) = rest may s := by
  simp [putOnLink, hw]

theorem trySend_rest {s t : State} {p : Nat} {o : OutPkt} (h : trySend s p o = some t) (hw : may .out ∧ may .fab) :
    rest may t = rest may s := by
  revert h
  simp only [trySend]; (repeat' split) <;> simp <;> rintro rfl <;> simp [hw]

@[simp] theorem drainList_rest (p : Nat) (l : List OutPkt) (blocked : List Nat) (s : State) (kept : List OutPkt)
    (hw : may .out ∧ may .fab) :
    rest may (drainList p l blocked s kept).1 = rest may s := by
  induction l generalizing blocked s kept with
  | nil => rfl
  | cons o os ih =>
    simp only [drainList]; split
    · exact ih ..
    · split
      · next h => rw [ih, trySend_rest h hw]
      · exact ih ..

@[simp] theorem drainPort_rest (s : State) (p : Nat) (hw : may .out ∧ may .fab) :
    rest may (drainPort s p) = rest may s := by
  simp only [drainPort]; split <;> simp [hw]

@[simp] theorem sendOut_rest (s : State) (p : Nat) (o : OutPkt) (hw : may .out ∧ may .fab) :
    rest may (sendOut s p o) = rest may s := by
  simp [sendOut, hw]

@[simp] theorem countNoRoute_rest (s : State) (hw : may .fab) :
    rest may (countNoRoute s) = rest may s := by simp [countNoRoute, hw]

@[simp] theorem countRouteErr_rest (s : State) (hw : may .fab) :
    rest may (countRouteErr s) = rest may s := by simp [countRouteErr, hw]

@[simp] theorem waitAtFi_rest (s : State) (l : LoopPkt) (hw : may .fab) :
    rest may (waitAtFi s l) = rest may s := by simp [waitAtFi, hw]

@[simp] theorem losePkt_rest {count : State → State} (h : ∀ x, rest may (count x) = rest may x) (s : State)
    (l : LoopPkt) (hw : may .out ∧ may .fab) : rest may (losePkt count s l) = rest may s := by
  simp only [losePkt]; (repeat' split) <;> simp [h, hw]

@[simp] theorem routePkt_rest (s : State) (dst cls : Nat) (l : LoopPkt) (hw : may .out ∧ may .fab) :
    rest may (routePkt s dst cls l) = rest may s := by
  simp only [routePkt]; (repeat' split) <;> simp [hw]

@[simp] theorem injectPkt_rest (s : State) (fi dst cls : Nat) (bytes : Bytes) (part : Option Nat) (limitNs : Nat)
    (o : Option FabOwner) (src : Option (Nat × Nat × Nat)) (hw : may .out ∧ may .fab) :
    rest may (injectPkt s fi dst cls bytes part limitNs o src) = rest may s := by
  simp only [injectPkt]; split <;> simp [hw]

@[simp] theorem injectPlain_rest (s : State) (fi : Nat) (h : PktSpec) (payload : Bytes) (o : Option FabOwner)
    (src : Option (Nat × Nat × Nat)) (hw : may .out ∧ may .fab) :
    rest may (injectPlain s fi h payload o src) = rest may s := by
  simp [injectPlain, hw]

@[simp] theorem bufferPkt_rest (s : State) (p : Nat) (b : Bytes) (hw : may .fab) :
    rest may (bufferPkt s p b) = rest may s := by
  simp [bufferPkt, hw]

@[simp] theorem forwardPkt_rest (s : State) (p : Nat) (src : Option (Nat × Nat × Nat)) (b : Bytes)
    (hw : may .out ∧ may .fab) :
    rest may (forwardPkt s p src b) = rest may s := by
  simp only [forwardPkt]; (repeat' split) <;> simp [hw]

@[simp] theorem flushQueue_rest (s : State) (p : Nat) (l : List OutPkt) (hw : may .out ∧ may .fab) :
    rest may (flushQueue s p l) = rest may s := by
  induction l with
  | nil => simp [flushQueue, hw]
  | cons o os ih => simp [flushQueue, ih, hw]

@[simp] theorem leaveUp_rest (s : State) (p : Nat) (st : BitVec 3) (hw : may .out ∧ may .fab) :
    rest may (leaveUp s p st) = rest may s := by
  simp [leaveUp, hw]

@[simp] theorem forgetSource_rest (s : State) (p : Nat) (hw : may .fab) :
    rest may (forgetSource s p) = rest may s := by
  simp [forgetSource, hw]

@[simp] theorem dropPort_rest (s : State) (p : Nat) (hw : MayRecord may) : rest may (dropPort s p) = rest may s := by
  simp only [dropPort]; split <;> simp [hw.spots]

@[simp] theorem wakePort_rest (s : State) (p : Nat) (hw : may .out ∧ may .fab) :
    rest may (wakePort s p) = rest may s := by
  simp only [wakePort]; split <;> simp [hw]

@[simp] theorem disablePort_rest (s : State) (p : Nat) (hw : may .out ∧ may .fab) :
    rest may (disablePort s p) = rest may s := by
  simp [disablePort, hw]

@[simp] theorem settleParam_rest (s : State) (p : Nat) (hw : may .out ∧ may .hif ∧ may .fw ∧ may .err ∧ may .fab) :
    rest may (settleParam s p) = rest may s := by
  simp [settleParam, hw]

/-! ### Descriptors and ends of collectives (chapter 13) -/

@[simp] theorem markSlots_rest (s : State) (first k : Nat) (b : Bool) (hw : may .coll) :
    rest may (markSlots s first k b) = rest may s := by
  simp [markSlots, hw]

@[simp] theorem modColl_rest (s : State) (id : Nat) (f : Coll → Coll) (hw : may .coll) :
    rest may (modColl s id f) = rest may s := by
  simp [modColl, hw]

@[simp] theorem fiRead_rest (s : State) (host : List HostLine) (a n : Nat) (hw : MayView may) :
    rest may (fiRead s host a n).1 = rest may s := by
  simp [fiRead, hw.spots]

@[simp] theorem fiWrite_rest (s : State) (a : Nat) (bs : Bytes) (poison : Bool) (hw : MayReach may) :
    rest may (fiWrite s a bs poison) = rest may s := by
  simp [fiWrite, hw.spots]

@[simp] theorem readSeg_rest (s : State) (c : Coll) (j : Nat) (hw : MayView may) :
    rest may (readSeg s c j).1 = rest may s := by
  simp only [readSeg]; (repeat' split) <;> simp [hw.spots]

@[simp] theorem landLineTo_rest (targets : List HostGrant) (a : Nat) (bs : Bytes) (poison : Nat → Bool)
    (x : State × Option Status) (l : Nat) (hw : MayReach may) :
    rest may (landLineTo targets a bs poison x l).1 = rest may x.1 := by
  simp only [landLineTo]; split <;> simp [hw.spots]

@[simp] theorem landSpan_rest (targets : List HostGrant) (s : State) (a : Nat) (bs : Bytes) (poison : Nat → Bool)
    (hw : MayReach may) :
    rest may (landSpan targets s a bs poison).1 = rest may s := by
  simp [landSpan, hw.spots]

@[simp] theorem landSeg_rest (targets : List HostGrant) (s : State) (c : Coll) (j : Nat) (bs : Bytes)
    (poison : Bool) (hw : MayReach may) :
    rest may (landSeg targets s c j bs poison).1 = rest may s := by
  simp only [landSeg]; split <;> simp [hw.spots]

@[simp] theorem fiPoison_rest (s : State) (a n : Nat) (hw : MayReach may) :
    rest may (fiPoison s a n) = rest may s := by simp [fiPoison, hw.spots]

@[simp] theorem ownerEnd_rest (s : State) (o : OpOwner) (st : Status) (hw : may .cmd ∧ may .coll) :
    rest may (ownerEnd s o st) = rest may s := by
  simp only [ownerEnd]; split <;> simp [hw]

@[simp] theorem collResult_rest (s : State) (c : Coll) (st : Status) (parts : Nat) (hw : MayReach may) :
    rest may (collResult s c st parts) = rest may s := by
  simp [collResult, hw.spots]

@[simp] theorem closeColl_rest (s : State) (c : Coll) (st : Status) (parts : Nat) (hw : may .out ∧ may .mem ∧
    may .cmd ∧ may .hif ∧ may .fw ∧ may .err ∧ may .pwr ∧ may .coll) :
    rest may (closeColl s c st parts) = rest may s := by
  simp only [closeColl]; split <;> simp [hw]

@[simp] theorem collSend_rest (s : State) (c : Coll) (rank kind item addr : Nat) (payload : Bytes)
    (poison : Bool) (hw : may .out ∧ may .fab) :
    rest may (collSend s c rank kind item addr payload poison) = rest may s := by
  simp [collSend, hw]

@[simp] theorem poisonDst_rest (s : State) (c : Coll) (hw : MayReach may) :
    rest may (poisonDst s c) = rest may s := by
  simp only [poisonDst]; split <;> simp [hw.spots]

@[simp] theorem stopColl_rest (s : State) (id : Nat) (hw : may .fab) :
    rest may (stopColl s id) = rest may s := by simp [stopColl, hw]

@[simp] theorem abortHere_rest (s : State) (c : Coll) (st : Status) (hw : may .out ∧ may .mem ∧ may .cmd ∧
    may .hif ∧ may .fw ∧ may .err ∧ may .pwr ∧ may .coll) : rest may (abortHere s c st) = rest may s := by
  simp [abortHere, hw]

@[simp] theorem abortedBy_rest (s : State) (c : Coll) (st : Status) (hw : MayCarry may) :
    rest may (abortedBy s c st) = rest may s := by
  simp [abortedBy, hw.spots]

@[simp] theorem abortColl_rest (s : State) (id : Nat) (st : Status) (hw : may .out ∧ may .mem ∧ may .cmd ∧
    may .hif ∧ may .fw ∧ may .err ∧ may .pwr ∧ may .fab ∧ may .coll) :
    rest may (abortColl s id st) = rest may s := by
  simp only [abortColl]; (repeat' split) <;> simp [rest_ite, hw]

@[simp] theorem abortCollsOf_rest (s : State) (stream : Nat) (phase : Option Nat) (hw : MayStop may) :
    rest may (abortCollsOf s stream phase) = rest may s := by
  simp [abortCollsOf, hw.spots]

/-! ### Queues and their records (chapter 11) -/

@[simp] theorem queueError_rest (s : State) (n : Nat) (hw : MayRecord may) :
    rest may (queueError s n) = rest may s := by
  simp only [queueError]; (repeat' split) <;> simp [hw.spots]

@[simp] theorem cmdDeny_rest (s : State) (write : Bool) (a n : Nat) (hw : MayRaise may) :
    rest may (cmdDeny s write a n) = rest may s := by
  simp [cmdDeny, hw.spots]

@[simp] theorem cmdWrite_rest (s : State) (a : Nat) (bs : Bytes) (hw : MayRecord may) :
    rest may (cmdWrite s a bs).1 = rest may s := by
  simp only [cmdWrite]; split
  · split
    · dsimp only
      rw [foldl_rest]
      intro x l; (repeat' split) <;> simp [hw.spots]
    · simp [hw.spots]
  · simp [hw.spots]

@[simp] theorem putRecord_rest (s : State) (n : Nat) (r : Record) (hw : MayRecord may) :
    rest may (putRecord s n r) = rest may s := by
  simp only [putRecord]; (repeat' split) <;> simp [hw.spots]

@[simp] theorem postRecord_rest (s : State) (n : Nat) (r : Record) (hw : MayRecord may) :
    rest may (postRecord s n r) = rest may s := by
  simp [postRecord, hw.spots]

@[simp] theorem flushHeld_rest (k : Nat) (s : State) (n : Nat) (hw : MayRecord may) :
    rest may (flushHeld k s n) = rest may s := by
  induction k generalizing s with
  | zero => rfl
  | succ k ih => simp only [flushHeld]; (repeat' split) <;> simp [ih, hw.spots]

@[simp] theorem flushQueueHeld_rest (s : State) (n : Nat) (hw : MayRecord may) :
    rest may (flushQueueHeld s n) = rest may s := by
  simp [flushQueueHeld, hw.spots]

@[simp] theorem noteServed_rest (s : State) (n : Nat) (hw : may .cmd) : rest may (noteServed s n) = rest may s := by
  simp [noteServed, hw]

@[simp] theorem completeFull_rest (s : State) (n : Nat) (f : Fetched) (st : Status) (split late : Bool)
    (parts : BitVec 16) (effect : Bool) (hw : MayRecord may) :
    rest may (completeFull s n f st split late parts effect) = rest may s := by
  simp only [completeFull]; split <;> simp [hw.spots]

@[simp] theorem completeDesc_rest (s : State) (n : Nat) (f : Fetched) (st : Status) (hw : MayRecord may) :
    rest may (completeDesc s n f st) = rest may s := by
  simp [completeDesc, hw.spots]

@[simp] theorem refuseDesc_rest (s : State) (n : Nat) (f : Fetched) (st : Status) (hw : MayRecord may) :
    rest may (refuseDesc s n f st) = rest may s := by
  simp [refuseDesc, hw.spots]

@[simp] theorem keyFailure_rest (s : State) (n : Nat) (st : Status) (hw : may .out ∧ may .hif ∧ may .sec ∧
    may .fw ∧ may .err) :
    rest may (keyFailure s n st) = rest may s := by
  simp only [keyFailure]; (repeat' split) <;> simp [hw]

@[simp] theorem verifyDesc_rest (s : State) (n : Nat) (d : Bytes) (hw : may .out ∧ may .hif ∧ may .sec ∧ may .fw ∧
    may .err) : rest may (verifyDesc s n d).1 = rest may s := by
  simp only [verifyDesc]; (repeat' split) <;> simp [hw]

@[simp] theorem takePeer_rest (s : State) (n : Nat) (desc : Bool) (hw : may .cmd) :
    rest may (takePeer s n desc).1 = rest may s := by
  simp [takePeer, hw]

@[simp] theorem askPeer_rest (s : State) (n : Nat) (desc : Bool) (a len : Nat) (hw : may .out ∧ may .fab) :
    rest may (askPeer s n desc a len) = rest may s := by
  simp [askPeer, hw]

@[simp] theorem forgetPeer_rest (s : State) (n : Nat) (hw : may .cmd ∧ may .fab) :
    rest may (forgetPeer s n) = rest may s := by
  simp [forgetPeer, hw]

@[simp] theorem readDoorbell_rest (s : State) (n : Nat) (hw : may .out ∧ may .cmd ∧ may .fab) :
    rest may (readDoorbell s n) = rest may s := by
  simp [readDoorbell, hw]

@[simp] theorem wakeIfAsleep_rest (s : State) (hw : may .pwr) : rest may (wakeIfAsleep s) = rest may s := by
  simp only [wakeIfAsleep]; split <;> simp [hw]

@[simp] theorem wakeWrite_rest (p : HPort) (value : BitVec 32) (s : State) (hw : may .out ∧ may .cmd ∧ may .pwr ∧
    may .fab) :
    rest may (wakeWrite p value s) = rest may s := by
  simp [wakeWrite, hw]

@[simp] theorem execCmdWake_keepsRest (port : HPort) (value : BitVec 32) (s : State) :
    KeepsRest (mayWrite (.cmdWake port value)) s (execCmdWake port value s) := by
  simp only [execCmdWake]; split <;> simp [mayWrite, touched]

@[simp] theorem execDoorbellPoll_keepsRest (s : State) :
    KeepsRest (mayWrite .doorbellPoll) s (execDoorbellPoll s) := by
  simp only [execDoorbellPoll]; split <;> simp [mayWrite, touched]

end Sys2Proof.Laws
end

section
/-! PROOFS. The rest of the state through queues, streams, collectives and packets. -/

namespace Sys2Proof.Laws

open Sys2Proof Sys2Proof.Machine
set_option Elab.async false

variable {may : Spot → Bool} {α : Type}

@[simp] theorem askDescs_rest (s : State) (n : Nat) (hw : may .out ∧ may .fab) :
    rest may (askDescs s n) = rest may s := by
  simp only [askDescs]; split <;> simp [hw]

@[simp] theorem doorbellWord_rest (s : State) (n : Nat) (w : BitVec 64) (hw : may .out ∧ may .mem ∧ may .cmd ∧
    may .hif ∧ may .fw ∧ may .err ∧ may .pwr ∧ may .fab) :
    rest may (doorbellWord s n w) = rest may s := by
  simp [doorbellWord, hw]

@[simp] theorem execDoorbellRead_keepsRest (queue : QueueId) (word : Option (BitVec 64)) (s : State) :
    KeepsRest (mayWrite (.doorbellRead queue word)) s (execDoorbellRead queue word s) := by
  simp only [execDoorbellRead]; (repeat' split) <;> simp [mayWrite, touched]

@[simp] theorem refuseFetched_rest (s : State) (n : Nat) (f : Fetched) (st : Status) (hw : MayRecord may) :
    rest may (refuseFetched s n f st) = rest may s := by
  simp [refuseFetched, hw.spots]

@[simp] theorem takeDesc_rest (n : Nat) (s : State) (rd : Except Status Bytes) (hw : may .out ∧ may .mem ∧
    may .cmd ∧ may .hif ∧ may .sec ∧ may .fw ∧ may .err ∧ may .fab) :
    rest may (takeDesc n s rd) = rest may s := by
  simp only [takeDesc]; (repeat' split) <;> simp [hw]

@[simp] theorem execDescriptorFetch_keepsRest (queue : QueueId) (descs : List (Option Bytes)) (s : State) :
    KeepsRest (mayWrite (.descriptorFetch queue descs)) s (execDescriptorFetch queue descs s) := by
  simp only [execDescriptorFetch]; (repeat' split) <;> simp [mayWrite, touched]

@[simp] theorem markStarted_rest (s : State) (n : Nat) (f : Fetched) (hw : may .cmd) :
    rest may (markStarted s n f) = rest may s := by
  simp [markStarted, hw]

@[simp] theorem execNop_keepsRest (queue : QueueId) (s : State) :
    KeepsRest (mayWrite (.nop queue)) s (execNop queue s) := by
  simp only [execNop]; split <;> simp [mayWrite, touched]

@[simp] theorem enableQueue_rest (s : State) (n : Nat) (hw : MayRecord may) :
    rest may (enableQueue s n) = rest may s := by
  simp [enableQueue, hw.spots]

@[simp] theorem stopReads_rest (s : State) (n : Nat) (hw : may .cmd ∧ may .fab) :
    rest may (stopReads s n) = rest may s := by simp [stopReads, hw]

@[simp] theorem disableQueue_rest (s : State) (n : Nat) (hw : may .cmd ∧ may .fab) :
    rest may (disableQueue s n) = rest may s := by
  simp [disableQueue, hw]

@[simp] theorem writeQueueCtl_rest (p : HPort) (n value : Nat) (s : State) (hw : MayRecord may) :
    rest may (writeQueueCtl p n value s) = rest may s := by
  simp [writeQueueCtl, hw.spots]

@[simp] theorem execQueueClaim_keepsRest (hport : HPort) (queue : QueueId) (s : State) :
    KeepsRest (mayWrite (.queueClaim hport queue)) s (execQueueClaim hport queue s) := by
  simp [execQueueClaim, mayWrite, touched]

@[simp] theorem execQueueRelease_keepsRest (hport : HPort) (queue : QueueId) (s : State) :
    KeepsRest (mayWrite (.queueRelease hport queue)) s (execQueueRelease hport queue s) := by
  simp [execQueueRelease, mayWrite, touched]

@[simp] theorem execQueueEnable_keepsRest (hport : HPort) (queue : QueueId) (kind : Bool) (msix svc : BitVec 8)
    (s : State) :
    KeepsRest (mayWrite (.queueEnable hport queue kind msix svc)) s (execQueueEnable hport queue kind msix svc
        s) := by
  simp [execQueueEnable, mayWrite, touched]

@[simp] theorem execQueueDisable_keepsRest (hport : HPort) (queue : QueueId) (s : State) :
    KeepsRest (mayWrite (.queueDisable hport queue)) s (execQueueDisable hport queue s) := by
  simp [execQueueDisable, mayWrite, touched]

@[simp] theorem orphanQueues_rest (s : State) (p : HPort) (hw : may .cmd ∧ may .fab) :
    rest may (orphanQueues s p) = rest may s := by
  simp [orphanQueues, hw]

/-! ### Forced ends (chapter 11) -/

@[simp] theorem poisonRows_rest (s : State) (a len rows pitch : Nat) (hw : may .mem) :
    rest may (poisonRows s a len rows pitch) = rest may s := by
  simp [poisonRows, hw]

@[simp] theorem poisonMat_rest (s : State) (m : Mat) (rows cols : Nat) (hw : may .mem) :
    rest may (poisonMat s m rows cols) = rest may s := by
  simp [poisonMat, hw]

@[simp] theorem poisonVe_rest (s : State) (n : Nat) (v : VeRun) (hw : may .mem) :
    rest may (poisonVe s n v) = rest may s := by
  simp [poisonVe, hw]

@[simp] theorem poisonCoe_rest (s : State) (n : Nat) (r : OpRun) (hw : may .mem) :
    rest may (poisonCoe s n r) = rest may s := by
  simp [poisonCoe, hw]

@[simp] theorem poisonDma_rest (s : State) (r : OpRun) (hw : may .mem) : rest may (poisonDma s r) = rest may s := by
  simp only [poisonDma]; split <;> simp [hw]

@[simp] theorem poisonCcm_rest (s : State) (n : Nat) (r : OpRun) (hw : may .mem) :
    rest may (poisonCcm s n r) = rest may s := by
  simp only [poisonCcm]; (repeat' split)
  · simp [hw]
  · rfl
  · exact foldl_rest (fun x i => foldl_rest (fun y w => by simp [hw]) _ x) _ s
  · rfl

@[simp] theorem poisonMuu_rest (s : State) (run : MuuRun) (hw : may .mem) :
    rest may (poisonMuu s run) = rest may s := by
  simp [poisonMuu, hw]

@[simp] theorem poisonGet_rest (s : State) (d : Bytes) (hw : MayReach may) :
    rest may (poisonGet s d) = rest may s := by
  simp only [poisonGet]; split <;> simp [hw.spots]

@[simp] theorem endCoreOps_rest (s : State) (n : Nat) (mine : Token → Bool) (hw : may .mem ∧ may .cr ∧
    may .cores ∧ may .fab) :
    rest may (endCoreOps s n mine).1 = rest may s := by
  unfold endCoreOps
  extract_lets c lpa lpaP ve veP coe dma ccm s1 s2 s3 s4 s5 s6 s7 d t
  clear_value lpa lpaP ve veP coe dma ccm
  have h1 : rest may s1 = rest may s := by cases lpa <;> simp [s1, hw]
  have h2 : rest may s2 = rest may s1 := by cases lpaP <;> simp [s2, hw]
  have h3 : rest may s3 = rest may s2 := by cases ve <;> simp [s3, hw]
  have h4 : rest may s4 = rest may s3 := by cases veP <;> simp [s4, hw]
  have h5 : rest may s5 = rest may s4 := by cases coe <;> simp [s5, hw]
  have h6 : rest may s6 = rest may s5 := by cases dma <;> simp [s6, hw]
  have h7 : rest may s7 = rest may s6 := by cases ccm <;> simp [s7, hw]
  simp only [t, setCore_rest _ _ _ hw.2.2.1, h7, h6, h5, h4, h3, h2, h1]

@[simp] theorem dropLists_rest (s : State) (n : Nat) (mine : Token → Bool) (hw : may .cores) :
    rest may (dropLists s n mine) = rest may s := by
  simp [dropLists, hw]

@[simp] theorem dropSamples_rest (s : State) (stream : Nat) (phase : Option Nat) (hw : may .blink) :
    rest may (dropSamples s stream phase) = rest may s := by
  simp [dropSamples, hw]

@[simp] theorem disarm_rest (s : State) (id : Nat) (hw : may .coll) :
    rest may (disarm s id) = rest may s := by simp [disarm, hw]

@[simp] theorem settleStream_rest (s : State) (id : Nat) (hw : may .out ∧ may .mem ∧ may .cmd ∧ may .hif ∧
    may .fw ∧ may .err ∧ may .fab ∧ may .coll) : rest may (settleStream s id) = rest may s := by
  simp only [settleStream]; (repeat' split) <;> simp [hw]

@[simp] theorem stopStream_rest (s : State) (id : Nat) (st : Status) (hw : may .cmd) :
    rest may (stopStream s id st) = rest may s := by
  simp [stopStream, hw]

@[simp] theorem overStop_rest (s : State) (id : Nat) (st : Status) (hw : may .cmd) :
    rest may (overStop s id st) = rest may s := by
  simp [overStop, hw]

@[simp] theorem endMb_rest (s : State) (r : StreamRun) (p : Nat) (record : Bytes) (st : Status) (hw : may .mem ∧
    may .trn ∧ may .trnRun) :
    rest may (endMb s r p record st) = rest may s := by
  simp only [endMb]; (repeat' split) <;> simp [hw]

@[simp] theorem putPstat_rest (s : State) (r : StreamRun) (p : Nat) (st : Status) (hw : may .mem) :
    rest may (putPstat s r p st) = rest may s := by
  simp [putPstat, hw]

@[simp] theorem endPhase_rest (s : State) (id p : Nat) (hw : may .out ∧ may .mem ∧ may .trn ∧ may .trnRun ∧
    may .cmd ∧ may .hif ∧ may .fw ∧ may .err ∧ may .fab ∧ may .coll) : rest may (endPhase s id p) = rest may s := by
  simp only [endPhase]; split <;> simp [hw]

@[simp] theorem dropFired_rest (s : State) (id : Nat) (phase : Option Nat) (hw : MayStop may) :
    rest may (dropFired s id phase) = rest may s := by
  simp [dropFired, hw.spots]

@[simp] theorem forceEnd_rest (s : State) (id p : Nat) (st : Status) (hard : Bool) (hw : MayStop may) :
    rest may (forceEnd s id p st hard) = rest may s := by
  simp only [forceEnd]; (repeat' split) <;> simp [hw.spots]

@[simp] theorem fabricStops_rest (s : State) (id p : Nat) (d : Bytes) (st : Status) (hw : MayStop may) :
    rest may (fabricStops s id p d st) = rest may s := by
  simp only [fabricStops]; split <;> simp [hw.spots]

@[simp] theorem finishFired_rest (s : State) (f : FiredOp) (st : Status) (hw : MayStop may) :
    rest may (finishFired s f st) = rest may s := by
  simp [finishFired, hw.spots]

@[simp] theorem settleFired_rest (k : Nat) (s : State) (hw : MayStop may) :
    rest may (settleFired k s) = rest may s := by
  induction k generalizing s with
  | zero => rfl
  | succ k ih => simp only [settleFired]; split <;> simp [ih, hw.spots]

@[simp] theorem endWindowSet_rest (s : State) (hw : MayRecord may) : rest may (endWindowSet s) = rest may s := by
  simp only [endWindowSet]; (repeat' split) <;> simp [hw.spots]

@[simp] theorem settleAllFired_rest (s : State) (hw : MayStop may) : rest may (settleAllFired s) = rest may s := by
  simp [settleAllFired, hw.spots]

@[simp] theorem forceStream_rest (s : State) (id : Nat) (st : Status) (hw : MayStop may) :
    rest may (forceStream s id st) = rest may s := by
  simp only [forceStream]; split <;> simp [hw.spots]

@[simp] theorem softStop_rest (s : State) (id : Nat) (st : Status) (hw : may .out ∧ may .mem ∧ may .cmd ∧
    may .hif ∧ may .fw ∧ may .err ∧ may .fab ∧ may .coll) : rest may (softStop s id st) = rest may s := by
  simp [softStop, hw]

@[simp] theorem clearAvail_rest (s : State) (n : Nat) (hw : may .cr) : rest may (clearAvail s n) = rest may s := by
  simp [clearAvail, hw]

@[simp] theorem loseCore_rest (s : State) (n : Nat) (hw : may .out ∧ may .mem ∧ may .cr ∧ may .cores ∧ may .cmd ∧
    may .hif ∧ may .fw ∧ may .err ∧ may .fab ∧ may .coll) : rest may (loseCore s n) = rest may s := by simp
        [loseCore, hw]

@[simp] theorem markCore_rest (s : State) (n : Nat) (st : Status) (hw : may .out ∧ may .mem ∧ may .cr ∧
    may .cores ∧ may .cmd ∧ may .hif ∧ may .fw ∧ may .err ∧ may .fab ∧
        may .coll) : rest may (markCore s n st) = rest may s := by
  simp only [markCore]; split <;> simp [hw]

@[simp] theorem markCluster_rest (s : State) (c : Nat) (st : Status) (hw : may .out ∧ may .mem ∧ may .cr ∧
    may .cores ∧ may .cmd ∧ may .hif ∧ may .fw ∧ may .err ∧ may .fab ∧ may .coll) :
    rest may (markCluster s c st) = rest may s := by
  simp [markCluster, hw]

@[simp] theorem execCoreNoProgress_keepsRest (core : CoreId) (s : State) :
    KeepsRest (mayWrite (.coreNoProgress core)) s (execCoreNoProgress core s) := by
  simp only [execCoreNoProgress]; split <;> simp [mayWrite, touched]

@[simp] theorem dropAwait_rest (s : State) (o : FabOwner) (hw : may .fab) :
    rest may (dropAwait s o) = rest may s := by
  simp [dropAwait, hw]

@[simp] theorem completeIoOp_rest (s : State) (id p i : Nat) (hw : MayStop may) :
    rest may (completeIoOp s id p i) = rest may s := by
  simp only [completeIoOp]; (repeat' split) <;> simp [hw.spots]

@[simp] theorem execOpComplete_keepsRest (loc : OpLoc) (unit : OpUnit) (s : State) :
    KeepsRest (mayWrite (.opComplete loc unit)) s (execOpComplete loc unit s) := by
  simp only [execOpComplete]; split <;> simp [mayWrite, touched]

/-! ### Streams and phases (chapter 11) -/

@[simp] theorem zeroCounters_rest (s : State) (d : Bytes) (hw : may .cmd) :
    rest may (zeroCounters s d) = rest may s := by
  simp [zeroCounters, hw]

@[simp] theorem admitStream_rest (s : State) (q : Nat) (f : Fetched) (p : StreamPlan) (hw : may .out ∧ may .mem ∧
    may .cmd ∧ may .hif ∧ may .fw ∧ may .err ∧ may .fab ∧ may .coll) :
    rest may (admitStream s q f p) = rest may s := by
  simp [admitStream, hw]

@[simp] theorem execRunStream_keepsRest (queue : QueueId) (s : State) :
    KeepsRest (mayWrite (.runStream queue)) s (execRunStream queue s) := by
  simp only [execRunStream]; (repeat' split) <;> simp [mayWrite, touched]

@[simp] theorem execStreamAdmit_keepsRest (queue : QueueId) (index : BitVec 32) (s : State) :
    KeepsRest (mayWrite (.streamAdmit queue index)) s (execStreamAdmit queue index s) := by
  simp only [execStreamAdmit]; (repeat' split) <;> simp [mayWrite, touched]

@[simp] theorem execStreamAbort_keepsRest (queue : QueueId) (s : State) :
    KeepsRest (mayWrite (.streamAbort queue)) s (execStreamAbort queue s) := by
  simp only [execStreamAbort]; (repeat' split) <;> simp [mayWrite, touched]

@[simp] theorem skipPhase_rest (s : State) (id : Nat) (r : StreamRun) (st : Status) (hw : may .out ∧ may .mem ∧
    may .trn ∧ may .trnRun ∧ may .cmd ∧ may .hif ∧ may .fw ∧ may .err ∧ may .fab ∧ may .coll) :
    rest may (skipPhase s id r st) = rest may s := by
  simp only [skipPhase]; split <;> simp [hw]

@[simp] theorem copyList_rest (s : State) (e : ListEntry) (hw : MayReach may) :
    rest may (copyList s e) = rest may s := by
  simp only [copyList]; split <;> simp [hw.spots]

@[simp] theorem sendToken_rest (svc : Bool) (t : Token) (s : State) (e : ListEntry) (hw : may .cores) :
    rest may (sendToken svc t s e) = rest may s := by
  simp [sendToken, hw]

@[simp] theorem launchPhase_rest (s : State) (id : Nat) (r : StreamRun) (p : Nat) (pl : PhasePlan)
    (hw : may .out ∧ may .mem ∧ may .cores ∧ may .hif ∧ may .fw ∧ may .err ∧ may .pwr) :
    rest may (launchPhase s id r p pl) = rest may s := by
  simp [launchPhase, hw]

@[simp] theorem execPhaseStart_keepsRest (stream : StreamId) (s : State) :
    KeepsRest (mayWrite (.phaseStart stream)) s (execPhaseStart stream s) := by
  simp only [execPhaseStart]; (repeat' split) <;> simp [mayWrite, touched]

@[simp] theorem triggerEvent_rest (s : State) (p : PhaseRun) (action : Nat) (hw : MayRaise may) :
    rest may (triggerEvent s p action) = rest may s := by
  simp [triggerEvent, hw.spots]

@[simp] theorem rerunPhase_rest (s : State) (id : Nat) (r : StreamRun) (ph : PhaseRun) (entry : Bytes) (rung : Nat)
    (es : List ListEntry) (hw : may .out ∧ may .mem ∧ may .cores ∧ may .cmd ∧ may .hif ∧ may .fw ∧ may .err ∧
        may .pwr) :
    rest may (rerunPhase s id r ph entry rung es) = rest may s := by
  simp [rerunPhase, hw]

@[simp] theorem afterTrigger_rest (s : State) (id : Nat) (r : StreamRun) (ph : PhaseRun) (hw : may .out ∧
    may .mem ∧ may .cr ∧ may .cores ∧ may .trn ∧ may .trnRun ∧ may .cmd ∧ may .hif ∧ may .fw ∧ may .err ∧
        may .pwr ∧ may .fab ∧ may .coll) :
    rest may (afterTrigger s id r ph) = rest may s := by
  simp only [afterTrigger]; (repeat' split) <;> simp [hw]

@[simp] theorem execPhaseComplete_keepsRest (stream : StreamId) (phase : PhaseNo) (s : State) :
    KeepsRest (mayWrite (.phaseComplete stream phase)) s (execPhaseComplete stream phase s) := by
  simp only [execPhaseComplete]; (repeat' split) <;> simp [mayWrite, touched]

@[simp] theorem execPhaseWatchdog_keepsRest (stream : StreamId) (phase : PhaseNo) (s : State) :
    KeepsRest (mayWrite (.phaseWatchdog stream phase)) s (execPhaseWatchdog stream phase s) := by
  simp only [execPhaseWatchdog]; (repeat' split) <;> simp [mayWrite, touched]

/-! ### The collective engine (chapter 13) -/

@[simp] theorem staleColl_rest (s : State) (hw : may .coll) :
    rest may (staleColl s) = rest may s := by simp [staleColl, hw]

@[simp] theorem sealSeg_rest (s : State) (id key : Nat) (flow : Nat → Bool) (j : Nat) (bs : Bytes) (hw : may .coll) :
    rest may (sealSeg s id key flow j bs).1 = rest may s := by
  simp only [sealSeg]; (repeat' split) <;> simp [hw]

@[simp] theorem openSeg_rest (s : State) (id key : Nat) (flow : Nat → Bool) (j : Nat) (payload : Bytes)
    (hw : may .coll) :
    rest may (openSeg s id key flow j payload).1 = rest may s := by
  simp only [openSeg]; (repeat' split) <;> simp [hw]

@[simp] theorem hear_rest (s : State) (id key : Nat) (hw : may .coll) :
    rest may (hear s id key) = rest may s := by simp [hear, hw]

@[simp] theorem failChunk_rest (s : State) (id : Nat) (flow : Nat → Bool) (q : Nat) (hw : MayCarry may) :
    rest may (failChunk s id flow q) = rest may s := by
  simp only [failChunk]; (repeat' split) <;> simp [hw.spots]

@[simp] theorem landResult_rest (s : State) (id src : Nat) (flow : Nat → Bool) (j : Nat) (payload : Bytes)
    (poison : Bool) (targets : List HostGrant) (hw : MayCarry may) :
    rest may (landResult s id src flow j payload poison targets) = rest may s := by
  simp only [landResult]; (repeat' split) <;> simp [hw.spots]

@[simp] theorem sendDown_rest (s : State) (id j : Nat) (payload : Bytes) (poison : Bool) (hw : may .out ∧ may .fab) :
    rest may (sendDown s id j payload poison) = rest may s := by
  simp only [sendDown]; split <;> simp [hw]

@[simp] theorem sendUp_rest (s : State) (id j : Nat) (bs : Bytes) (poison : Bool) (hw : may .out ∧ may .fab ∧
    may .coll) :
    rest may (sendUp s id j bs poison) = rest may s := by
  simp only [sendUp]; split <;> simp [hw]

@[simp] theorem pumpLeaf_rest (k : Nat) (s : State) (id : Nat) (hw : MayCarry may) :
    rest may (pumpLeaf k s id) = rest may s := by
  induction k generalizing s with
  | zero => rfl
  | succ k ih => simp only [pumpLeaf]; (repeat' split) <;> simp [ih, hw.spots]

@[simp] theorem pump_rest (s : State) (id : Nat) (hw : MayCarry may) : rest may (pump s id) = rest may s := by
  simp only [pump]; (repeat' split) <;> simp [hw.spots]

@[simp] theorem combineInputs_rest (s : State) (c : Coll) (j : Nat) (hw : MayView may) :
    rest may (combineInputs s c j).1 = rest may s := by
  simp only [combineInputs]; (repeat' split) <;> simp [hw.spots]

@[simp] theorem rootOut_rest (s : State) (id j : Nat) (bs : Bytes) (poison : Bool) (hw : MayCarry may) :
    rest may (rootOut s id j bs poison) = rest may s := by
  simp only [rootOut]; (repeat' split) <;> simp [hw.spots]

@[simp] theorem combineSeg_rest (s : State) (id j : Nat) (hw : MayCarry may) :
    rest may (combineSeg s id j) = rest may s := by
  simp only [combineSeg]; (repeat' split) <;> simp [hw.spots]

@[simp] theorem epFinish_rest (s : State) (id j : Nat) (hw : MayCarry may) :
    rest may (epFinish s id j) = rest may s := by
  simp only [epFinish]; (repeat' split) <;> simp [hw.spots]

@[simp] theorem epArrive_rest (s : State) (id src j : Nat) (payload : Bytes) (poison : Bool) (hw : MayCarry may) :
    rest may (epArrive s id src j payload poison) = rest may s := by
  simp only [epArrive]; (repeat' split) <;> simp [hw.spots]

@[simp] theorem epSend_rest (id : Nat) (s : State) (j : Nat) (hw : MayCarry may) :
    rest may (epSend id s j) = rest may s := by
  simp only [epSend]; (repeat' split) <;> simp [hw.spots]

@[simp] theorem epStart_rest (s : State) (id : Nat) (hw : MayCarry may) : rest may (epStart s id) = rest may s := by
  simp only [epStart]; (repeat' split) <;> simp [hw.spots]

@[simp] theorem pumpDown_rest (k : Nat) (s : State) (id : Nat) (hw : MayCarry may) :
    rest may (pumpDown k s id) = rest may s := by
  induction k generalizing s with
  | zero => rfl
  | succ k ih => simp only [pumpDown]; (repeat' split) <;> simp [ih, hw.spots]

@[simp] theorem gatherStart_rest (s : State) (id : Nat) (hw : MayCarry may) :
    rest may (gatherStart s id) = rest may s := by
  simp only [gatherStart]; (repeat' split) <;> simp [hw.spots]

@[simp] theorem broadcastStart_rest (s : State) (id : Nat) (hw : MayCarry may) :
    rest may (broadcastStart s id) = rest may s := by
  simp only [broadcastStart]; (repeat' split) <;> simp [hw.spots]

@[simp] theorem failWindow_rest (s : State) (id src lo n : Nat) (hw : MayCarry may) :
    rest may (failWindow s id src lo n) = rest may s := by
  simp only [failWindow]; split <;> simp [hw.spots]

@[simp] theorem skipChunks_rest (s : State) (id src q : Nat) (hw : MayCarry may) :
    rest may (skipChunks s id src q) = rest may s := by
  simp only [skipChunks]; (repeat' split) <;> simp [hw.spots]

@[simp] theorem checkWindow_rest (s : State) (id src q n : Nat) (crc : Bytes) (hw : MayCarry may) :
    rest may (checkWindow s id src q n crc) = rest may s := by
  simp only [checkWindow]; (repeat' split) <;> simp [hw.spots]

@[simp] theorem a2aLand_rest (s : State) (id src addr : Nat) (bs : Bytes) (mask : Nat) (targets : List HostGrant)
    (hw : MayCarry may) :
    rest may (a2aLand s id src addr bs mask targets) = rest may s := by
  simp only [a2aLand]; (repeat' split) <;> simp [hw.spots]

@[simp] theorem a2aCounted_rest (s : State) (id src : Nat) (payload : Bytes) (targets : List HostGrant)
    (hw : MayCarry may) :
    rest may (a2aCounted s id src payload targets) = rest may s := by
  simp only [a2aCounted]; (repeat' split) <;> simp [hw.spots]

@[simp] theorem a2aSend_rest (id : Nat) (counts : List Nat) (s : State) (d : Nat) (hw : MayCarry may) :
    rest may (a2aSend id counts s d) = rest may s := by
  simp only [a2aSend]; (repeat' split) <;> simp [hw.spots]

@[simp] theorem a2aStart_rest (s : State) (id : Nat) (hw : MayCarry may) : rest may (a2aStart s id) = rest may s := by
  simp only [a2aStart]; (repeat' split) <;> simp [hw.spots]

@[simp] theorem finishColl_rest (s : State) (id : Nat) (hw : MayCarry may) :
    rest may (finishColl s id) = rest may s := by
  simp only [finishColl]; (repeat' split) <;> simp [hw.spots]

@[simp] theorem lateHdr_rest (s : State) (host : List HostLine) (d : Bytes) (hw : MayView may) :
    rest may (lateHdr s host d).1 = rest may s := by
  simp [lateHdr, hw.spots]

@[simp] theorem countAt_rest (s : State) (c : Coll) (hw : MayView may) : rest may (countAt s c).1 = rest may s := by
  simp only [countAt]; split <;> simp [hw.spots]

@[simp] theorem leftOut_rest (s : State) (id : Nat) (hw : MayMove may) : rest may (leftOut s id) = rest may s := by
  have late (f : State → Nat → State) (hf : ∀ a mb, rest may (f a mb) = rest may a) (p : PhaseRun) :
      rest may (withTrn p (fun x => (List.range 256).foldl f x) s) = rest may s :=
    withTrn_rest (foldl_rest hf _) p s hw.spots.2.2.1
  simp only [leftOut]; (repeat' split) <;> simp [late, hw.spots]

@[simp] theorem moveData_rest (s : State) (id : Nat) (hw : MayCarry may) : rest may (moveData s id) = rest may s := by
  simp only [moveData]; (repeat' split) <;> simp [hw.spots]

@[simp] theorem applyClose_rest (s : State) (id n : Nat) (ep : Bool) (parentFirst : Nat) (contribs : List Nat)
    (hw : MayMove may) :
    rest may (applyClose s id n ep parentFirst contribs) = rest may s := by
  simp only [applyClose]; (repeat' split) <;> simp [hw.spots]

@[simp] theorem closeRound_rest (s : State) (id : Nat) (hw : MayMove may) :
    rest may (closeRound s id) = rest may s := by
  simp only [closeRound]; (repeat' split) <;> simp [hw.spots]

@[simp] theorem tryClose_rest (s : State) (id : Nat) (hw : MayMove may) : rest may (tryClose s id) = rest may s := by
  simp only [tryClose]; (repeat' split) <;> simp [hw.spots]

@[simp] theorem joinAt_rest (s : State) (id rank rec_ : Nat) (hw : MayMove may) :
    rest may (joinAt s id rank rec_) = rest may s := by
  simp only [joinAt]; split <;> simp [hw.spots]

@[simp] theorem sendJoin_rest (s : State) (id : Nat) (hw : MayMove may) : rest may (sendJoin s id) = rest may s := by
  simp only [sendJoin]; (repeat' split) <;> simp [hw.spots]

@[simp] theorem takeData_rest (s : State) (c : Coll) (src j : Nat) (payload : Bytes) (poison : Bool)
    (hw : MayCarry may) :
    rest may (takeData s c src j payload poison) = rest may s := by
  simp only [takeData]; (repeat' split) <;> simp [hw.spots]

@[simp] theorem takeResult_rest (s : State) (c : Coll) (src j : Nat) (payload : Bytes) (poison : Bool)
    (targets : List HostGrant) (hw : MayCarry may) :
    rest may (takeResult s c src j payload poison targets) = rest may s := by
  simp only [takeResult]; (repeat' split) <;> simp [hw.spots]

@[simp] theorem takeClose_rest (s : State) (c : Coll) (p : Bytes) (hw : MayMove may) :
    rest may (takeClose s c p) = rest may s := by
  simp only [takeClose]; split <;> simp [hw.spots]

@[simp] theorem collPacket_rest (s : State) (c : Coll) (src : Nat) (b : Bytes) (targets : List HostGrant)
    (hw : MayMove may) :
    rest may (collPacket s c src b targets) = rest may s := by
  simp only [collPacket]; (repeat' split) <;> simp [hw.spots]

@[simp] theorem keepEarly_rest (s : State) (e : EarlyPkt) (hw : may .fab ∧ may .coll) :
    rest may (keepEarly s e) = rest may s := by
  simp [keepEarly, hw]

@[simp] theorem collTake_rest (s : State) (e : EarlyPkt) (hw : MayMove may) :
    rest may (collTake s e) = rest may s := by
  simp only [collTake]; (repeat' split) <;> simp [hw.spots]

@[simp] theorem takeEarly_rest (s : State) (e : EarlyPkt) (hw : MayMove may) :
    rest may (takeEarly s e) = rest may s := by
  simp only [takeEarly]; split <;> simp [hw.spots]

@[simp] theorem replayEarly_rest (s : State) (comm seq : Nat) (hw : MayMove may) :
    rest may (replayEarly s comm seq) = rest may s := by
  simp [replayEarly, hw.spots]

@[simp] theorem replayDue_rest (s : State) (hw : MayMove may) :
    rest may (replayDue s) = rest may s := by simp [replayDue, hw.spots]

@[simp] theorem finishColls_rest (s : State) (hw : MayCarry may) :
    rest may (finishColls s) = rest may s := by simp [finishColls, hw.spots]

@[simp] theorem clearLate_rest (s : State) (d : Bytes) (hw : MayReach may) :
    rest may (clearLate s d) = rest may s := by
  simp [clearLate, hw.spots]

@[simp] theorem dropLate_rest (s : State) (host : List HostLine) (d : Bytes) (hw : MayCarry may) :
    rest may (dropLate s host d) = rest may s := by
  simp only [dropLate]; (repeat' split) <;> simp [hw.spots]

@[simp] theorem issueColl_rest (s : State) (owner : OpOwner) (stream phase step : Nat) (late : Bool) (d : Bytes)
    (host : List HostLine) (hw : MayMove may) :
    rest may (issueColl s owner stream phase step late d host) = rest may s := by
  simp [issueColl, hw.spots]

@[simp] theorem carryIn_rest (s : State) (c : Coll) (hw : MayCarry may) : rest may (carryIn s c) = rest may s := by
  simp only [carryIn]; (repeat' split) <;> simp [hw.spots]

@[simp] theorem issueFired_rest (s : State) (f : FiredOp) (hw : MayMove may) :
    rest may (issueFired s f) = rest may s := by
  simp only [issueFired]; (repeat' split) <;> simp [hw.spots]

@[simp] theorem startWaiting_rest (k : Nat) (s : State) (hw : MayMove may) :
    rest may (startWaiting k s) = rest may s := by
  induction k generalizing s with
  | zero => rfl
  | succ k ih => simp only [startWaiting]; split <;> simp [ih, hw.spots]

@[simp] theorem settleColls_rest (s : State) (hw : MayMove may) :
    rest may (settleColls s) = rest may s := by simp [settleColls, hw.spots]

/-! ### Packets that arrive and fabric ops (chapter 12) -/

@[simp] theorem dmaEvent_rest (s : State) (n a : Nat) (hw : MayRaise may) :
    rest may (dmaEvent s n a) = rest may s := by simp [dmaEvent, hw.spots]

@[simp] theorem finishFab_rest (s : State) (o : FabOp) (hw : MayStop may) :
    rest may (finishFab s o) = rest may s := by
  simp only [finishFab]; (repeat' split) <;> simp [hw.spots]

@[simp] theorem settleOps_rest (s : State) (hw : MayStop may) : rest may (settleOps s) = rest may s := by
  simp [settleOps, hw.spots]

@[simp] theorem failPacket_rest (s : State) (o : FabOwner) (k : Nat) (st : Status) (hw : may .fab) :
    rest may (failPacket s o k st) = rest may s := by
  simp [failPacket, hw]

@[simp] theorem resolveTag_rest (s : State) (t : FabTag) (st : Status) (hw : may .fab) :
    rest may (resolveTag s t st) = rest may s := by
  simp only [resolveTag]; split <;> simp [hw]

@[simp] theorem denyPkt_rest (s : State) (write : Bool) (lines : List Nat) (hw : MayRecord may) :
    rest may (denyPkt s write lines) = rest may s := by
  simp [denyPkt, hw.spots]

@[simp] theorem ordersTwoFour_rest (s : State) (fi : Nat) (b : Bytes) (write : Bool) (hw : MayRecord may) :
    rest may (ordersTwoFour s fi b write).1 = rest may s := by
  simp only [ordersTwoFour]; (repeat' split) <;> simp [hw.spots]

@[simp] theorem landLine_rest (b : Bytes) (targets : List HostGrant) (s : State) (l : Nat) (hw : may .out ∧
    may .mem ∧ may .pwr) :
    rest may (landLine b targets s l) = rest may s := by
  simp only [landLine]; (repeat' split) <;> simp [hw]

@[simp] theorem countLanded_rest (b : Bytes) (s : State) (hw : may .cmd ∧ may .coll) :
    rest may (countLanded b s) = rest may s := by
  simp only [countLanded]; split <;> simp [hw]

@[simp] theorem landPkt_rest (s : State) (b : Bytes) (targets : List HostGrant) (hw : MayCarry may) :
    rest may (landPkt s b targets) = rest may s := by
  simp [landPkt, hw.spots]

@[simp] theorem sendAck_rest (s : State) (fi : Nat) (b : Bytes) (dst : Nat) (st : Status) (src : Option
    (Nat × Nat × Nat)) (hw : may .out ∧ may .fab) :
    rest may (sendAck s fi b dst st src) = rest may s := by
  simp only [sendAck]; split <;> simp [hw]

@[simp] theorem landChecked_rest (s : State) (fi : Nat) (b : Bytes) (targets : List HostGrant) (src : Option
    (Nat × Nat × Nat)) (hw : MayMove may) :
    rest may (landChecked s fi b targets src) = rest may s := by
  simp only [landChecked]; (repeat' split) <;> simp [hw.spots]

@[simp] theorem postOrLand_rest (s : State) (fi : Nat) (b : Bytes) (stalled : Bool)
    (src : Option (Nat × Nat × Nat)) (hw : MayMove may) :
    rest may (postOrLand s fi b stalled src) = rest may s := by
  simp only [postOrLand]; split <;> simp [hw.spots]

@[simp] theorem sinkWrite_rest (s : State) (fi : Nat) (b : Bytes) (stalled : Bool)
    (src : Option (Nat × Nat × Nat)) (hw : MayMove may) :
    rest may (sinkWrite s fi b stalled src) = rest may s := by
  simp only [sinkWrite]; split <;> simp [hw.spots]

@[simp] theorem dropPost_rest (s : State) (h : HostPost) (hw : may .out ∧ may .fab) :
    rest may (dropPost s h) = rest may s := by
  simp [dropPost, hw]

@[simp] theorem landPost_rest (s : State) (h : HostPost) (hw : MayMove may) :
    rest may (landPost s h) = rest may s := by
  simp only [landPost]; split <;> simp [hw.spots]

@[simp] theorem drainPosts_rest (s : State) (hw : MayMove may) :
    rest may (drainPosts s) = rest may s := by simp [drainPosts, hw.spots]

@[simp] theorem sendReply_rest (s : State) (fi : Nat) (b payload : Bytes) (mask : Nat)
    (src : Option (Nat × Nat × Nat)) (hw : may .out ∧ may .fab) :
    rest may (sendReply s fi b payload mask src) = rest may s := by
  simp only [sendReply]; split <;> simp [hw]

@[simp] theorem replyFrom_rest (s : State) (m : Mem) (fi : Nat) (b : Bytes) (lost : List Nat) (src : Option
    (Nat × Nat × Nat)) (hw : may .out ∧ may .pwr ∧ may .fab) :
    rest may (replyFrom s m fi b lost src) = rest may s := by
  simp [replyFrom, hw]

@[simp] theorem fetchHost_rest (s : State) (fi : Nat) (b : Bytes) (src : Option (Nat × Nat × Nat))
    (hw : may .out ∧ may .hif ∧ may .fab) :
    rest may (fetchHost s fi b src) = rest may s := by
  simp only [fetchHost]
  rw [foldl_rest, rest_mk] <;> (try simp [hw])
  intro x l; split <;> simp [hw]

@[simp] theorem sinkRead_rest (s : State) (fi : Nat) (b : Bytes) (src : Option (Nat × Nat × Nat))
    (hw : MayCarry may) :
    rest may (sinkRead s fi b src) = rest may s := by
  simp [sinkRead, hw.spots]

@[simp] theorem answerFetch_rest (s : State) (f : HostFetch) (hw : may .out ∧ may .pwr ∧ may .fab) :
    rest may (answerFetch s f) = rest may s := by
  simp [answerFetch, hw]

@[simp] theorem fetchLine_rest (s : State) (id line : Nat) (data : Option Bytes) (hw : may .out ∧ may .pwr ∧
    may .fab) :
    rest may (fetchLine s id line data) = rest may s := by
  simp only [fetchLine]; (repeat' split) <;> simp [hw]

@[simp] theorem sinkData_rest (s : State) (fi : Nat) (b : Bytes) (stalled : Bool)
    (src : Option (Nat × Nat × Nat)) (hw : MayMove may) :
    rest may (sinkData s fi b stalled src) = rest may s := by
  simp only [sinkData]; (repeat' split) <;> simp [hw.spots]

@[simp] theorem sinkAck_rest (s : State) (fi : Nat) (b : Bytes) (src : Option (Nat × Nat × Nat))
    (hw : MayRecord may) :
    rest may (sinkAck s fi b src) = rest may s := by
  simp only [sinkAck]; (repeat' split) <;> simp [hw.spots]

@[simp] theorem sinkPlain_rest (s : State) (fi : Nat) (b : Bytes) (stalled : Bool)
    (src : Option (Nat × Nat × Nat)) (hw : MayMove may) :
    rest may (sinkPlain s fi b stalled src) = rest may s := by
  simp only [sinkPlain]; (repeat' split) <;> simp [hw.spots]

@[simp] theorem takeLoop_rest (s : State) (l : LoopPkt) (hw : MayMove may) :
    rest may (takeLoop s l) = rest may s := by
  simp only [takeLoop]; (repeat' split) <;> simp [hw.spots]

@[simp] theorem runLoop_rest (k : Nat) (s : State) (hw : MayMove may) : rest may (runLoop k s) = rest may s := by
  induction k generalizing s with
  | zero => rfl
  | succ k ih => simp only [runLoop]; (repeat' split) <;> simp [ih, hw.spots]

@[simp] theorem takeIn_rest (s : State) (h : HeldPkt) (hw : MayMove may) : rest may (takeIn s h) = rest may s := by
  simp [takeIn, hw.spots]

@[simp] theorem comeIn_rest (s : State) (h : HeldPkt) (hw : MayMove may) : rest may (comeIn s h) = rest may s := by
  simp only [comeIn]; split <;> simp [hw.spots]

@[simp] theorem moveOn_rest (k : Nat) (s : State) (hw : MayMove may) : rest may (moveOn k s) = rest may s := by
  induction k generalizing s with
  | zero => rfl
  | succ k ih => simp only [moveOn]; (repeat' split) <;> simp [ih, hw.spots]

@[simp] theorem settleTurns_rest (k : Nat) (s : State) (hw : MaySettle may) :
    rest may (settleTurns k s) = rest may s := by
  induction k generalizing s with
  | zero => rfl
  | succ k ih => simp [settleTurns, ih, hw.spots]

@[simp] theorem settleFab_rest (s : State) (hw : MaySettle may) :
    rest may (settleFab s) = rest may s := by simp [settleFab, hw.spots]

@[simp] theorem enterBuffer_rest (s : State) (p : Nat) (b : Bytes) (stalled : Bool) (hw : MayMove may) :
    rest may (enterBuffer s p b stalled) = rest may s := by
  simp [enterBuffer, hw.spots]

@[simp] theorem arrive_rest (p : FabPort) (b : Bytes) (kind : Nat) (pcie : Option Bool) (s : State)
    (hw : MaySettle may) :
    rest may (arrive p b kind pcie s) = rest may s := by
  simp [arrive, hw.spots]

@[simp] theorem execWrite_keepsRest (port : FabPort) (packet : Bytes) (stalled : Bool) (s : State) :
    KeepsRest (mayWrite (.write port packet stalled)) s (execWrite port packet stalled s) := by
  simp [execWrite, mayWrite, touched]

@[simp] theorem execReadReq_keepsRest (port : FabPort) (packet : Bytes) (s : State) :
    KeepsRest (mayWrite (.readReq port packet)) s (execReadReq port packet s) := by
  simp [execReadReq, mayWrite, touched]

@[simp] theorem execReadData_keepsRest (port : FabPort) (packet : SinkPacket) (s : State) :
    KeepsRest (mayWrite (.readData port packet)) s (execReadData port packet s) := by
  simp [execReadData, mayWrite, touched]

@[simp] theorem execAck_keepsRest (port : FabPort) (packet : Bytes) (s : State) :
    KeepsRest (mayWrite (.ack port packet)) s (execAck port packet s) := by
  simp [execAck, mayWrite, touched]

@[simp] theorem execFwdWrite_keepsRest (port : FabPort) (packet : SinkPacket) (s : State) :
    KeepsRest (mayWrite (.fwdWrite port packet)) s (execFwdWrite port packet s) := by
  simp [execFwdWrite, mayWrite, touched]

end Sys2Proof.Laws
end

section
/-! PROOFS. The rest of the state through collective ops, serving, host ports and cadence points. -/

namespace Sys2Proof.Laws

open Sys2Proof Sys2Proof.Machine
set_option Elab.async false

variable {may : Spot → Bool} {α : Type}

@[simp] theorem execIdle_keepsRest (port : FabPort) (flit : Bytes) (corrected uncorrectable : BitVec 16) (s : State) :
    KeepsRest (mayWrite (.idle port flit corrected uncorrectable)) s (execIdle port flit corrected
        uncorrectable s) := by
  simp only [execIdle]; (repeat' split) <;> simp [mayWrite, touched]

@[simp] theorem execRouterForward_keepsRest (port : FabPort) (packet : Bytes) (s : State) :
    KeepsRest (mayWrite (.routerForward port packet)) s (execRouterForward port packet s) := by
  simp only [execRouterForward]; (repeat' split) <;> simp [mayWrite, touched]

@[simp] theorem dropEarly_rest (s : State) (e : EarlyPkt) (hw : may .fab ∧ may .coll) :
    rest may (dropEarly s e) = rest may s := by
  simp [dropEarly, hw]

@[simp] theorem execHostSinkTimeout_keepsRest (id : Nat) (s : State) :
    KeepsRest (mayWrite (.hostSinkTimeout id)) s (execHostSinkTimeout id s) := by
  simp only [execHostSinkTimeout]; (repeat' split) <;> simp [mayWrite, touched]

@[simp] theorem execFabricTimeout_keepsRest (fi : FabPort) (tag : BitVec 24) (s : State) :
    KeepsRest (mayWrite (.fabricTimeout fi tag)) s (execFabricTimeout fi tag s) := by
  simp only [execFabricTimeout]; (repeat' split) <;> simp [mayWrite, touched]

@[simp] theorem execPortLightDetected_keepsRest (port : FabPort) (s : State) :
    KeepsRest (mayWrite (.portLightDetected port)) s (execPortLightDetected port s) := by
  simp only [execPortLightDetected]; split <;> simp [mayWrite, touched]

@[simp] theorem execPortClockLock_keepsRest (port : FabPort) (s : State) :
    KeepsRest (mayWrite (.portClockLock port)) s (execPortClockLock port s) := by
  simp only [execPortClockLock]; split <;> simp [mayWrite, touched]

@[simp] theorem execPortCodewordLock_keepsRest (port : FabPort) (s : State) :
    KeepsRest (mayWrite (.portCodewordLock port)) s (execPortCodewordLock port s) := by
  simp only [execPortCodewordLock]; split <;> simp [mayWrite, touched]

@[simp] theorem execPortTrained_keepsRest (port : FabPort) (s : State) :
    KeepsRest (mayWrite (.portTrained port)) s (execPortTrained port s) := by
  simp only [execPortTrained]; split <;> simp [mayWrite, touched]

@[simp] theorem execParam_keepsRest (port : FabPort) (node : BitVec 16) (peerPort : BitVec 4) (s : State) :
    KeepsRest (mayWrite (.param port node peerPort)) s (execParam port node peerPort s) := by
  simp only [execParam]; split <;> simp [mayWrite, touched]

@[simp] theorem execPortStateTimeout_keepsRest (port : FabPort) (s : State) :
    KeepsRest (mayWrite (.portStateTimeout port)) s (execPortStateTimeout port s) := by
  simp only [execPortStateTimeout]; split <;> simp [mayWrite, touched]

@[simp] theorem takeCut_rest (s : State) (p : Nat) (b : Bytes) (hw : MayMove may) :
    rest may (takeCut s p b) = rest may s := by
  simp [takeCut, hw.spots]

@[simp] theorem execLinkDrop_keepsRest (port : FabPort) (loss : LinkLoss) (s : State) :
    KeepsRest (mayWrite (.linkDrop port loss)) s (execLinkDrop port loss s) := by
  simp only [execLinkDrop]; (repeat' split) <;> simp [mayWrite, touched]

@[simp] theorem writePortCfg_rest (p value : Nat) (s : State) (hw : MaySettle may) :
    rest may (writePortCfg p value s) = rest may s := by
  simp [writePortCfg, hw.spots]

@[simp] theorem execFabPortCfg_keepsRest (hport : HPort) (port : FabPort) (value : BitVec 64) (s : State) :
    KeepsRest (mayWrite (.fabPortCfg hport port value)) s (execFabPortCfg hport port value s) := by
  simp [execFabPortCfg, mayWrite, touched]

@[simp] theorem joinPair_rest (s : State) (i : Nat) (hw : may .out ∧ may .fab) :
    rest may (joinPair s i) = rest may s := by simp [joinPair, hw]

@[simp] theorem writeBypass_rest (value : Nat) (s : State) (hw : MaySettle may) :
    rest may (writeBypass value s) = rest may s := by
  simp only [writeBypass]; (repeat' split) <;> simp [hw.spots]

@[simp] theorem execBypassSwitchDone_keepsRest (pair : BitVec 3) (s : State) :
    KeepsRest (mayWrite (.bypassSwitchDone pair)) s (execBypassSwitchDone pair s) := by
  simp only [execBypassSwitchDone]; split <;> simp [mayWrite, touched]

@[simp] theorem writeRoute_rest (index value : Nat) (s : State) (hw : may .fab) :
    rest may (writeRoute index value s) = rest may s := by
  simp [writeRoute, hw]

@[simp] theorem execFabRouteTab_keepsRest (hport : HPort) (index : BitVec 14) (value : BitVec 32) (s : State) :
    KeepsRest (mayWrite (.fabRouteTab hport index value)) s (execFabRouteTab hport index value s) := by
  simp [execFabRouteTab, mayWrite, touched]

@[simp] theorem fabReject_rest (loc : OpLoc) (s : State) (o : NextOp) (st : Status) (hw : MayStop may) :
    rest may (fabReject loc s o st) = rest may s := by
  simp [fabReject, hw.spots]

@[simp] theorem noteFab_rest (s : State) (o : FabOp) (hw : may .fab) :
    rest may (noteFab s o) = rest may s := by simp [noteFab, hw]

@[simp] theorem startPut_rest (s : State) (w : FabOwner) (fi id p : Nat) (d : Bytes) (host : List HostLine)
    (hw : MayCarry may) :
    rest may (startPut s w fi id p d host) = rest may s := by
  simp [startPut, hw.spots]

@[simp] theorem startGet_rest (s : State) (w : FabOwner) (fi id p : Nat) (d : Bytes) (hw : may .out ∧ may .fab) :
    rest may (startGet s w fi id p d) = rest may s := by
  simp [startGet, hw]

@[simp] theorem execPut_keepsRest (loc : OpLoc) (host : List HostLine) (s : State) :
    KeepsRest (mayWrite (.put loc host)) s (execPut loc host s) := by
  simp only [execPut]; (repeat' split) <;> simp [mayWrite, touched]

@[simp] theorem execGet_keepsRest (loc : OpLoc) (s : State) : KeepsRest (mayWrite (.get loc)) s (execGet loc s) := by
  simp only [execGet]; (repeat' split) <;> simp [mayWrite, touched]

@[simp] theorem execAwait_keepsRest (loc : OpLoc) (s : State) :
    KeepsRest (mayWrite (.await loc)) s (execAwait loc s) := by
  simp only [execAwait]; (repeat' split) <;> simp [mayWrite, touched]

@[simp] theorem execAwaitTimeout_keepsRest (loc : OpLoc) (s : State) :
    KeepsRest (mayWrite (.awaitTimeout loc)) s (execAwaitTimeout loc s) := by
  simp only [execAwaitTimeout]; split
  · simp
  · rw [keepsRest_next, foldl_rest]
    intro x o; (repeat' split) <;> simp [mayWrite, touched]

@[simp] theorem setEpochs_rest (s : State) (map : Nat) (e : BitVec 16) (hw : may .fab) :
    rest may (setEpochs s map e) = rest may s := by
  simp [setEpochs, hw]

@[simp] theorem execRoleSet_keepsRest (op : OpLines) (s : State) :
    KeepsRest (mayWrite (.roleSet op)) s (execRoleSet op s) := by
  simp only [execRoleSet]; (repeat' split) <;> simp [mayWrite, touched]

@[simp] theorem dmaRow_rest (p : DmaParm) (host : List HostLine) (x : State × Option Status) (r : Nat)
    (hw : MayView may) :
    rest may (dmaRow p host x r).1 = rest may x.1 := by
  simp [dmaRow, hw.spots]

@[simp] theorem dmaView_rest (p : DmaParm) (host : List HostLine) (s : State) (hw : MayView may) :
    rest may (dmaView p host s).s = rest may s := by
  simp [dmaView, hw.spots]

@[simp] theorem dmaRows_rest (p : DmaParm) (host : List HostLine) (s : State) (hw : MayView may) :
    rest may (dmaRows p host s).1 = rest may s := by
  simp [dmaRows, hw.spots]

@[simp] theorem dmaWarn_rest (p : DmaParm) (host : List HostLine) (s : State) (n : Nat) (st : Option Status)
    (hw : MayView may) :
    rest may (dmaWarn p host s n st) = rest may s := by
  simp only [dmaWarn]; split <;> simp [hw.spots]

@[simp] theorem dmaRemote_rest (s : State) (n : Nat) (t : Token) (d : Bytes) (fi : Nat) (host : List HostLine)
    (hw : MayCarry may) :
    rest may (dmaRemote s n t d fi host) = rest may s := by
  simp only [dmaRemote]; split <;> simp [hw.spots]

@[simp] theorem dmaRun_rest (s : State) (n : Nat) (o : NextOp) (st : Status) (finished : Bool) (hw : may .cores ∧
    may .pwr) :
    rest may (dmaRun s n o st finished) = rest may s := by
  simp [dmaRun, hw]

@[simp] theorem execDmaCopy_keepsRest (core : CoreId) (host : List HostLine) (s : State) :
    KeepsRest (mayWrite (.dmaCopy core host)) s (execDmaCopy core host s) := by
  simp only [execDmaCopy]; (repeat' split) <;> simp [mayWrite, touched]

/-! ### Collective ops and trigger entries (chapter 13) -/

@[simp] theorem runColl_rest (k : Nat) (loc : OpLoc) (host : List HostLine) (s : State) (hw : MaySettle may) :
    rest may (runColl k loc host s) = rest may s := by
  simp only [runColl]; (repeat' split) <;> simp [hw.spots]

@[simp] theorem execAllReduce_keepsRest (loc : OpLoc) (host : List HostLine) (s : State) :
    KeepsRest (mayWrite (.allReduce loc host)) s (execAllReduce loc host s) := by
  simp [execAllReduce, mayWrite, touched]

@[simp] theorem execReduceScatter_keepsRest (loc : OpLoc) (host : List HostLine) (s : State) :
    KeepsRest (mayWrite (.reduceScatter loc host)) s (execReduceScatter loc host s) := by
  simp [execReduceScatter, mayWrite, touched]

@[simp] theorem execAllGather_keepsRest (loc : OpLoc) (host : List HostLine) (s : State) :
    KeepsRest (mayWrite (.allGather loc host)) s (execAllGather loc host s) := by
  simp [execAllGather, mayWrite, touched]

@[simp] theorem execReduce_keepsRest (loc : OpLoc) (host : List HostLine) (s : State) :
    KeepsRest (mayWrite (.reduce loc host)) s (execReduce loc host s) := by
  simp [execReduce, mayWrite, touched]

@[simp] theorem execBroadcast_keepsRest (loc : OpLoc) (host : List HostLine) (s : State) :
    KeepsRest (mayWrite (.broadcast loc host)) s (execBroadcast loc host s) := by
  simp [execBroadcast, mayWrite, touched]

@[simp] theorem execBarrier_keepsRest (loc : OpLoc) (host : List HostLine) (s : State) :
    KeepsRest (mayWrite (.barrier loc host)) s (execBarrier loc host s) := by
  simp [execBarrier, mayWrite, touched]

@[simp] theorem execAllToAllv_keepsRest (loc : OpLoc) (host : List HostLine) (s : State) :
    KeepsRest (mayWrite (.allToAllv loc host)) s (execAllToAllv loc host s) := by
  simp [execAllToAllv, mayWrite, touched]

@[simp] theorem execCollReady_keepsRest (id : Nat) (host : List HostLine) (s : State) :
    KeepsRest (mayWrite (.collReady id host)) s (execCollReady id host s) := by
  simp only [execCollReady]; (repeat' split) <;> simp [mayWrite, touched]

@[simp] theorem execCollDeadline_keepsRest (id : Nat) (s : State) :
    KeepsRest (mayWrite (.collDeadline id)) s (execCollDeadline id s) := by
  simp only [execCollDeadline]; (repeat' split) <;> simp [mayWrite, touched]

@[simp] theorem execSegmentCombine_keepsRest (id segment : Nat) (s : State) :
    KeepsRest (mayWrite (.segmentCombine id segment)) s (execSegmentCombine id segment s) := by
  simp only [execSegmentCombine]; (repeat' split) <;> simp [mayWrite, touched]

@[simp] theorem execCollTimeout_keepsRest (id : Nat) (s : State) :
    KeepsRest (mayWrite (.collTimeout id)) s (execCollTimeout id s) := by
  simp only [execCollTimeout]; (repeat' split) <;> simp [mayWrite, touched]

@[simp] theorem execJoin_keepsRest (port : FabPort) (packet : Bytes) (s : State) :
    KeepsRest (mayWrite (.join port packet)) s (execJoin port packet s) := by
  simp [execJoin, mayWrite, touched]

@[simp] theorem execClose_keepsRest (port : FabPort) (packet : Bytes) (s : State) :
    KeepsRest (mayWrite (.close port packet)) s (execClose port packet s) := by
  simp [execClose, mayWrite, touched]

@[simp] theorem execData_keepsRest (port : FabPort) (packet : Bytes) (s : State) :
    KeepsRest (mayWrite (.data port packet)) s (execData port packet s) := by
  simp [execData, mayWrite, touched]

@[simp] theorem execResult_keepsRest (port : FabPort) (packet : SinkPacket) (s : State) :
    KeepsRest (mayWrite (.result port packet)) s (execResult port packet s) := by
  simp [execResult, mayWrite, touched]

@[simp] theorem execCredit_keepsRest (port : FabPort) (packet : Bytes) (s : State) :
    KeepsRest (mayWrite (.credit port packet)) s (execCredit port packet s) := by
  simp [execCredit, mayWrite, touched]

@[simp] theorem execAbort_keepsRest (port : FabPort) (packet : Bytes) (s : State) :
    KeepsRest (mayWrite (.abort port packet)) s (execAbort port packet s) := by
  simp [execAbort, mayWrite, touched]

@[simp] theorem execA2aData_keepsRest (port : FabPort) (packet : SinkPacket) (s : State) :
    KeepsRest (mayWrite (.a2aData port packet)) s (execA2aData port packet s) := by
  simp [execA2aData, mayWrite, touched]

@[simp] theorem execA2aCount_keepsRest (port : FabPort) (packet : SinkPacket) (s : State) :
    KeepsRest (mayWrite (.a2aCount port packet)) s (execA2aCount port packet s) := by
  simp [execA2aCount, mayWrite, touched]

@[simp] theorem fiRd_rest (s : State) (host : List HostLine) (a n : Nat) (hw : MayView may) :
    rest may (fiRd s host a n).1 = rest may s := by
  simp [fiRd, hw.spots]

@[simp] theorem execTrigArm_keepsRest (op : OpLines) (s : State) :
    KeepsRest (mayWrite (.trigArm op)) s (execTrigArm op s) := by
  simp only [execTrigArm]; (repeat' split) <;> simp [mayWrite, touched]

@[simp] theorem firedEnd_rest (s : State) (k : Nat) (st : Status) (hw : may .cmd ∧ may .coll) :
    rest may (firedEnd s k st) = rest may s := by
  simp [firedEnd, hw]

@[simp] theorem startFired_rest (s : State) (f : FiredOp) (hw : MayMove may) :
    rest may (startFired s f) = rest may s := by
  simp only [startFired]; (repeat' split) <;> simp [hw.spots]

@[simp] theorem execTriggerFire_keepsRest (fi : FabPort) (entry : BitVec 10) (host : List HostLine) (s : State) :
    KeepsRest (mayWrite (.triggerFire fi entry host)) s (execTriggerFire fi entry host s) := by
  simp only [execTriggerFire]; (repeat' split) <;> simp [mayWrite, touched]

/-! ### Patrol scrub (chapter 10) -/

@[simp] theorem execPatrolScrub_keepsRest (addr : BitVec 48) (result : ScrubResult) (s : State) :
    KeepsRest (mayWrite (.patrolScrub addr result)) s (execPatrolScrub addr result s) := by
  simp only [execPatrolScrub]; split <;> simp [mayWrite, touched]

@[simp] theorem sramTwice_rest (s : State) (a : Nat) (hw : may .out ∧ may .mem ∧ may .cr ∧ may .cores ∧ may .cmd ∧
    may .hif ∧ may .fw ∧ may .err ∧ may .fab ∧ may .coll) : rest may (sramTwice s a) = rest may s := by
  simp only [sramTwice]; (repeat' split) <;> simp [hw]

@[simp] theorem execSramScrub_keepsRest (addr : BitVec 48) (result : ScrubResult) (s : State) :
    KeepsRest (mayWrite (.sramScrub addr result)) s (execSramScrub addr result s) := by
  simp only [execSramScrub]; (repeat' split) <;> simp [mayWrite, touched]

/-! ### Batched serving (chapter 11) -/

@[simp] theorem dramLine_rest (src dst n : Nat) (x : State × Option Status) (l : Nat) (hw : may .mem) :
    rest may (dramLine src dst n x l).1 = rest may x.1 := by
  simp only [dramLine]; split <;> simp [hw]

@[simp] theorem dramCopy_rest (s : State) (src dst n : Nat) (hw : may .mem) :
    rest may (dramCopy s src dst n).1 = rest may s := by
  simp [dramCopy, hw]

@[simp] theorem closeBlock_rest (s : State) (r : Bytes) (b : SvcBlock) (hw : may .mem ∧ may .cmd) :
    rest may (closeBlock s r b) = rest may s := by
  simp [closeBlock, hw]

@[simp] theorem putOpen_rest (s : State) (r : Bytes) (b : SvcBlock) (hw : may .mem ∧ may .cmd) :
    rest may (putOpen s r b) = rest may s := by
  simp only [putOpen]; split <;> simp [hw]

@[simp] theorem execServiceRequest_keepsRest (queue : QueueId) (s : State) :
    KeepsRest (mayWrite (.serviceRequest queue)) s (execServiceRequest queue s) := by
  simp only [execServiceRequest]; (repeat' split) <;> simp [mayWrite, touched]

@[simp] theorem execBlockClose_keepsRest (svc : BitVec 8) (s : State) :
    KeepsRest (mayWrite (.blockClose svc)) s (execBlockClose svc s) := by
  simp only [execBlockClose]; (repeat' split) <;> simp [mayWrite, touched]

@[simp] theorem preemptCore_rest (s : State) (n : Nat) (hw : may .cores ∧ may .cmd) :
    rest may (preemptCore s n) = rest may s := by
  simp [preemptCore, hw]

@[simp] theorem pausePhases_rest (s : State) (map : Nat) (hw : may .cmd) :
    rest may (pausePhases s map) = rest may s := by
  simp [pausePhases, hw]

@[simp] theorem refuseReq_rest (st : Status) (s : State) (x : SvcReq) (hw : MayRecord may) :
    rest may (refuseReq st s x) = rest may s := by
  simp only [refuseReq]; split <;> simp [hw.spots]

@[simp] theorem dropLateReqs_rest (s : State) (b : SvcBlock) (hw : MayRecord may) :
    rest may (dropLateReqs s b).1 = rest may s := by
  simp only [dropLateReqs]; split <;> simp [hw.spots]

@[simp] theorem failBlock_rest (s : State) (b : SvcBlock) (e : Status) (hw : MayRecord may) :
    rest may (failBlock s b e) = rest may s := by
  simp [failBlock, hw.spots]

@[simp] theorem resumeCore_rest (s : State) (n : Nat) (hw : may .freeCount ∧ may .mem ∧ may .cr ∧ may .cores ∧
    may .cmd) : rest may (resumeCore s n) = rest may s := by
  simp [resumeCore, hw]

@[simp] theorem resumePhases_rest (s : State) (hw : may .cmd) :
    rest may (resumePhases s) = rest may s := by simp [resumePhases, hw]

@[simp] theorem resumeTraining_rest (s : State) (hw : may .freeCount ∧ may .mem ∧ may .cr ∧ may .cores ∧ may .cmd) :
    rest may (resumeTraining s) = rest may s := by
  simp [resumeTraining, hw]

@[simp] theorem askCores_rest (s : State) (map : Nat) (hw : may .cores ∧ may .cmd) :
    rest may (askCores s map) = rest may s := by simp [askCores, hw]

@[simp] theorem beginBlock_rest (s : State) (b : SvcBlock) (hw : may .freeCount ∧ may .out ∧ may .mem ∧ may .cr ∧
    may .cores ∧ may .cmd ∧ may .hif ∧ may .fw ∧ may .err ∧ may .fab) : rest may (beginBlock s b) = rest may s := by
  simp only [beginBlock]; (repeat' split) <;> simp [hw]

@[simp] theorem startBlock_rest (s : State) (b : SvcBlock) (hw : may .freeCount ∧ may .out ∧ may .mem ∧ may .cr ∧
    may .cores ∧ may .cmd ∧ may .hif ∧ may .fw ∧ may .err ∧ may .fab) : rest may (startBlock s b) = rest may s := by
  simp only [startBlock]; split <;> simp [hw]

@[simp] theorem execBlockStart_keepsRest (svc : BitVec 8) (s : State) :
    KeepsRest (mayWrite (.blockStart svc)) s (execBlockStart svc s) := by
  simp only [execBlockStart]; (repeat' split) <;> simp [mayWrite, touched]

@[simp] theorem execPreemptMinExpiry_keepsRest (svc : BitVec 8) (s : State) :
    KeepsRest (mayWrite (.preemptMinExpiry svc)) s (execPreemptMinExpiry svc s) := by
  simp only [execPreemptMinExpiry]; (repeat' split) <;> simp [mayWrite, touched]

@[simp] theorem execPlateBoundary_keepsRest (core : CoreId) (s : State) :
    KeepsRest (mayWrite (.plateBoundary core)) s (execPlateBoundary core s) := by
  simp only [execPlateBoundary]; (repeat' split) <;> simp [mayWrite, touched]

@[simp] theorem finishReq_rest (b : SvcBlock) (st : Status) (s : State) (x : SvcReq) (hw : MayRecord may) :
    rest may (finishReq b st s x) = rest may s := by
  simp only [finishReq]; (repeat' split) <;> simp [hw.spots]

@[simp] theorem execBlockEnd_keepsRest (svc : BitVec 8) (s : State) :
    KeepsRest (mayWrite (.blockEnd svc)) s (execBlockEnd svc s) := by
  simp only [execBlockEnd]; (repeat' split) <;> simp [mayWrite, touched]

/-! ### COPY and the Meridian commands (chapters 08 and 11) -/

@[simp] theorem copyInLine_rest (host : List HostLine) (src dst n : Nat) (x : State × Option Status) (l : Nat)
    (hw : may .mem) :
    rest may (copyInLine host src dst n x l).1 = rest may x.1 := by
  simp only [copyInLine]; split <;> simp [hw]

@[simp] theorem copyIn_rest (s : State) (host : List HostLine) (src dst n : Nat) (hw : may .mem) :
    rest may (copyIn s host src dst n).1 = rest may s := by
  simp [copyIn, hw]

@[simp] theorem copyOutLine_rest (port : HPort) (src dst n : Nat) (x : State × Option Status) (l : Nat)
    (hw : MayMeet may) :
    rest may (copyOutLine port src dst n x l).1 = rest may x.1 := by
  simp [copyOutLine, hw.spots]

@[simp] theorem copyOut_rest (s : State) (p : Option HPort) (src dst n : Nat) (hw : MayMeet may) :
    rest may (copyOut s p src dst n).1 = rest may s := by
  simp only [copyOut]; (repeat' split) <;> simp [hw.spots]

@[simp] theorem copyAll_rest (s : State) (port : Option HPort) (host : List HostLine) (p : CopyParm)
    (hw : MayMeet may) :
    rest may (copyAll s port host p).1 = rest may s := by
  simp only [copyAll]; split <;> simp [hw.spots]

@[simp] theorem execCopy_keepsRest (queue : QueueId) (s : State) :
    KeepsRest (mayWrite (.copy queue)) s (execCopy queue s) := by
  simp only [execCopy]; (repeat' split) <;> simp [mayWrite, touched]

@[simp] theorem execCopyCompletion_keepsRest (queue : QueueId) (index : BitVec 32) (host : List HostLine)
    (s : State) :
    KeepsRest (mayWrite (.copyCompletion queue index host)) s (execCopyCompletion queue index host s) := by
  simp only [execCopyCompletion]; split <;> simp [mayWrite, touched]

theorem endMeridian_rest (q : Nat) (f : Fetched) (s : State) {r : State × Status} (h : rest may r.1 = rest may s)
    (hw : MayRecord may) :
    rest may (endMeridian q f s r) = rest may s := by
  simp only [endMeridian]; split <;> simp [h, hw.spots]

@[simp] theorem execMeridianFlip_keepsRest (queue : QueueId) (s : State) :
    KeepsRest (mayWrite (.meridianFlip queue)) s (execMeridianFlip queue s) := by
  simp only [execMeridianFlip]; split
  · simp
  · simp [endMeridian_rest, mayWrite, touched]

@[simp] theorem execMeridianRollback_keepsRest (queue : QueueId) (s : State) :
    KeepsRest (mayWrite (.meridianRollback queue)) s (execMeridianRollback queue s) := by
  simp only [execMeridianRollback]; split
  · simp
  · simp [endMeridian_rest, mayWrite, touched]

@[simp] theorem takeQueue_rest (s : State) (n : Nat) (owner : BitVec 2) (hw : may .cmd ∧ may .fab) :
    rest may (takeQueue s n owner) = rest may s := by
  simp [takeQueue, hw]

@[simp] theorem execQueueReassign_keepsRest (queue : QueueId) (s : State) :
    KeepsRest (mayWrite (.queueReassign queue)) s (execQueueReassign queue s) := by
  simp only [execQueueReassign]; (repeat' split) <;> simp [mayWrite, touched]

/-! ### Host ports (chapter 14) -/

@[simp] theorem drivePin_rest (s : State) (name : String) (asserted : Bool) (hw : may .out) :
    rest may (drivePin s name asserted) = rest may s := by
  simp [drivePin, hw]

@[simp] theorem setWakeOut_rest (s : State) (p : HPort) (w : Option Nat) (hw : may .out ∧ may .pwr) :
    rest may (setWakeOut s p w) = rest may s := by
  simp only [setWakeOut]; (repeat' split) <;> simp [hw]

@[simp] theorem losePort_rest (s : State) (p : HPort) (hw : may .cmd ∧ may .hif ∧ may .fab) :
    rest may (losePort s p) = rest may s := by simp [losePort, hw]

@[simp] theorem execPortLost_keepsRest (port : HPort) (s : State) :
    KeepsRest (mayWrite (.portLost port)) s (execPortLost port s) := by
  simp only [execPortLost]; split <;> simp [mayWrite, touched]

@[simp] theorem execPortReturn_keepsRest (port : HPort) (rate : BitVec 3) (width : BitVec 4) (flit : Bool)
    (s : State) :
    KeepsRest (mayWrite (.portReturn port rate width flit)) s (execPortReturn port rate width flit s) := by
  simp only [execPortReturn]; (repeat' split) <;> simp [mayWrite, touched]

@[simp] theorem countDenied_rest (s : State) (p : HPort) (hw : may .hif) :
    rest may (countDenied s p) = rest may s := by
  simp [countDenied, hw]

@[simp] theorem bar4Line_rest (s : State) (p : HPort) (write : Bool) (l : Nat) (hw : MayReach may) :
    rest may (bar4Line s p write l).1 = rest may s := by
  simp only [bar4Line]; (repeat' split) <;> simp [hw.spots]

@[simp] theorem bar4ReadLine_rest (p : HPort) (a n : Nat) (s : State) (l : Nat) (hw : MayView may) :
    rest may (bar4ReadLine p a n s l) = rest may s := by
  simp [bar4ReadLine, hw.spots]

@[simp] theorem bar4Read_rest (p : HPort) (off n : Nat) (s : State) (hw : MayView may) :
    rest may (bar4Read p off n s) = rest may s := by
  simp [bar4Read, hw.spots]

@[simp] theorem bar4WriteLine_rest (p : HPort) (a : Nat) (data : Bytes) (poisoned : Bool) (s : State) (l : Nat)
    (hw : MayReach may) :
    rest may (bar4WriteLine p a data poisoned s l) = rest may s := by
  simp [bar4WriteLine, hw.spots]

@[simp] theorem bar4Write_rest (p : HPort) (off : Nat) (data : Bytes) (poisoned : Bool) (s : State)
    (hw : MayReach may) :
    rest may (bar4Write p off data poisoned s) = rest may s := by
  simp [bar4Write, hw.spots]

@[simp] theorem execBar4Read_keepsRest (port : HPort) (offset : BitVec 36) (len : Nat) (s : State) :
    KeepsRest (mayWrite (.bar4Read port offset len)) s (execBar4Read port offset len s) := by
  simp only [execBar4Read]; split <;> simp [mayWrite, touched]

@[simp] theorem execBar4Write_keepsRest (port : HPort) (offset : BitVec 36) (data : Bytes) (poisoned : Bool)
    (s : State) :
    KeepsRest (mayWrite (.bar4Write port offset data poisoned)) s (execBar4Write port offset data poisoned s) := by
  simp only [execBar4Write]; split <;> simp [mayWrite, touched]

@[simp] theorem writeAper_rest (p : HPort) (value : Nat) (s : State) (hw : may .hif) :
    rest may (writeAper p value s) = rest may s := by
  simp [writeAper, hw]

@[simp] theorem execHifAper_keepsRest (hport index : HPort) (value : BitVec 64) (s : State) :
    KeepsRest (mayWrite (.hifAper hport index value)) s (execHifAper hport index value s) := by
  simp [execHifAper, mayWrite, touched]

@[simp] theorem dropRead_rest (s : State) (r : PcieRead) (hw : may .out ∧ may .hif) :
    rest may (dropRead s r) = rest may s := by
  simp [dropRead, hw]

@[simp] theorem readBack_rest (s : State) (r : PcieRead) (data : Option Bytes) (hw : MaySettle may) :
    rest may (readBack s r data) = rest may s := by
  simp only [readBack]; (repeat' split) <;> simp [hw.spots]

@[simp] theorem lateCompletion_rest (s : State) (p : HPort) (hw : may .hif) :
    rest may (lateCompletion s p) = rest may s := by
  simp [lateCompletion, hw]

@[simp] theorem execPcieCompletion_keepsRest (port : HPort) (tag : BitVec 14) (data : Bytes) (good : Bool)
    (s : State) :
    KeepsRest (mayWrite (.pcieCompletion port tag data good)) s (execPcieCompletion port tag data good s) := by
  simp only [execPcieCompletion]; (repeat' split) <;> simp [mayWrite, touched]

@[simp] theorem execCompletionTimeout_keepsRest (port : HPort) (tag : BitVec 14) (s : State) :
    KeepsRest (mayWrite (.completionTimeout port tag)) s (execCompletionTimeout port tag s) := by
  simp only [execCompletionTimeout]; (repeat' split) <;> simp [mayWrite, touched]

@[simp] theorem unmaskVector_rest (p : HPort) (v : Nat) (s : State) (hw : may .out ∧ may .hif) :
    rest may (unmaskVector p v s) = rest may s := by
  simp only [unmaskVector]; split <;> simp [hw]

@[simp] theorem execMsixUnmask_keepsRest (port : HPort) (vector : BitVec 8) (s : State) :
    KeepsRest (mayWrite (.msixUnmask port vector)) s (execMsixUnmask port vector s) := by
  simp only [execMsixUnmask]; split <;> simp [mayWrite, touched]

@[simp] theorem mctpDrop_rest (s : State) (b : MctpBinding) (hw : may .hif) :
    rest may (mctpDrop s b) = rest may s := by
  simp only [mctpDrop]; split <;> simp [hw]

@[simp] theorem mctpAnswer_rest (s : State) (b : MctpBinding) (cmd : Nat) (data : Bytes) (hw : may .hif) :
    rest may (mctpAnswer s b cmd data).1 = rest may s := by
  simp only [mctpAnswer]; (repeat' split) <;> simp [hw]

@[simp] theorem execConfigSpaceWrite_keepsRest (port : HPort) (field : CfgField) (value : BitVec 32) (s : State) :
    KeepsRest (mayWrite (.configSpaceWrite port field value)) s (execConfigSpaceWrite port field value s) := by
  simp only [execConfigSpaceWrite]; (repeat' split) <;> simp [mayWrite, touched]

/-! ### Cadence points, loops and limiters (chapters 01 and 17) -/

@[simp] theorem setCeil_rest (s : State) (c : CeilState) (hw : may .pwr) :
    rest may (setCeil s c) = rest may s := by simp [setCeil, hw]

@[simp] theorem beginChange_rest (s : State) (t : Nat) (origin : PointOrigin) (guard : Bool) (hw : may .pwr) :
    rest may (beginChange s t origin guard) = rest may s := by
  simp only [beginChange]; split <;> simp [hw]

@[simp] theorem seek_rest (s : State) (t : Nat) (origin : PointOrigin) (hw : may .pwr) :
    rest may (seek s t origin) = rest may s := by
  simp only [seek]; (repeat' split) <;> simp [hw]

@[simp] theorem retarget_rest (s : State) (hw : may .pwr) : rest may (retarget s) = rest may s := by
  simp only [retarget]; split <;> simp [hw]

@[simp] theorem withCeil_rest (s : State) (f : CeilState → CeilState) (hw : may .pwr) :
    rest may (withCeil s f) = rest may s := by
  simp [withCeil, hw]

@[simp] theorem answerPoint_rest (s : State) (st : Status) (hw : may .pwr) :
    rest may (answerPoint s st) = rest may s := by
  simp [answerPoint, hw]

@[simp] theorem refusePoint_rest (s : State) (hw : may .pwr) :
    rest may (refusePoint s) = rest may s := by simp [refusePoint, hw]

@[simp] theorem execPointRequest_keepsRest (target : BitVec 3) (origin : PointOrigin) (s : State) :
    KeepsRest (mayWrite (.pointRequest target origin)) s (execPointRequest target origin s) := by
  simp only [execPointRequest]; split <;> simp [mayWrite, touched]

@[simp] theorem nextChange_rest (s : State) (hw : may .pwr) : rest may (nextChange s) = rest may s := by
  simp only [nextChange]; (repeat' split) <;> simp [hw]

@[simp] theorem endChange_rest (s : State) (q : Nat) (hw : may .pwr) :
    rest may (endChange s q) = rest may s := by simp [endChange, hw]

@[simp] theorem execRailSettled_keepsRest (rates : List Nat) (s : State) :
    KeepsRest (mayWrite (.railSettled rates)) s (execRailSettled rates s) := by
  simp only [execRailSettled]; (repeat' split) <;> simp [mayWrite, touched]

@[simp] theorem guardStep_rest (s : State) (k : Nat) (hw : may .out ∧ may .cr ∧ may .hif ∧ may .fw ∧ may .err ∧
    may .pwr) : rest may (guardStep s k) = rest may s := by simp [guardStep, hw]

@[simp] theorem execGuardStepDown_keepsRest (cluster : ClusterId) (rateMhz : Nat) (bySlips : Bool) (s : State) :
    KeepsRest (mayWrite (.guardStepDown cluster rateMhz bySlips)) s (execGuardStepDown cluster rateMhz bySlips
        s) := by
  simp only [execGuardStepDown]; (repeat' split) <;> simp [mayWrite, touched]

@[simp] theorem tickCore_rest (s : State) (n : Nat) (hw : may .cores) :
    rest may (tickCore s n) = rest may s := by simp [tickCore, hw]

@[simp] theorem noteSlips_rest (s : State) (slips : List (Nat × Nat)) (hw : may .pwr) :
    rest may (noteSlips s slips) = rest may s := by
  simp [noteSlips, hw]

@[simp] theorem execCadenceTick_keepsRest (slips : List (Nat × Nat)) (s : State) :
    KeepsRest (mayWrite (.cadenceTick slips)) s (execCadenceTick slips s) := by
  simp only [execCadenceTick]; (repeat' split) <;> simp [rest_ite, mayWrite, touched]

@[simp] theorem settleAlert_rest (s : State) (hw : may .out ∧ may .pwr) : rest may (settleAlert s) = rest may s := by
  simp only [settleAlert]; (repeat' split) <;> simp [hw]

@[simp] theorem limiterActs_rest (s : State) (hw : may .out ∧ may .hif ∧ may .fw ∧ may .err ∧ may .pwr) :
    rest may (limiterActs s) = rest may s := by simp [limiterActs, hw]

@[simp] theorem execFastPower_keepsRest (watts : Nat) (s : State) :
    KeepsRest (mayWrite (.fastPower watts)) s (execFastPower watts s) := by
  simp only [execFastPower]; (repeat' split) <;> simp [mayWrite, touched]

@[simp] theorem execOvercurrent_keepsRest (s : State) : KeepsRest (mayWrite .overcurrent) s (execOvercurrent s) := by
  simp only [execOvercurrent]; split <;> simp [mayWrite, touched]

@[simp] theorem execHot_keepsRest (s : State) : KeepsRest (mayWrite .hot) s (execHot s) := by
  simp only [execHot]; split <;> simp [mayWrite, touched]

@[simp] theorem execInputLow_keepsRest (s : State) : KeepsRest (mayWrite .inputLow) s (execInputLow s) := by
  simp only [execInputLow]; split <;> simp [mayWrite, touched]

@[simp] theorem execHotRelease_keepsRest (s : State) :
    KeepsRest (mayWrite .hotRelease) s (execHotRelease s) := by simp [execHotRelease, mayWrite, touched]

@[simp] theorem execInputLowRelease_keepsRest (s : State) :
    KeepsRest (mayWrite .inputLowRelease) s (execInputLowRelease s) := by
  simp [execInputLowRelease, mayWrite, touched]

@[simp] theorem execOpticsHot_keepsRest (port : FabPort) (s : State) :
    KeepsRest (mayWrite (.opticsHot port)) s (execOpticsHot port s) := by
  simp only [execOpticsHot]; split <;> simp [mayWrite, touched]

@[simp] theorem execOpticsHotRelease_keepsRest (port : FabPort) (s : State) :
    KeepsRest (mayWrite (.opticsHotRelease port)) s (execOpticsHotRelease port s) := by
  simp only [execOpticsHotRelease]; split <;> simp [mayWrite, touched]

@[simp] theorem execLimiterRelease_keepsRest (limiter : HeldLimiter) (s : State) :
    KeepsRest (mayWrite (.limiterRelease limiter)) s (execLimiterRelease limiter s) := by
  simp only [execLimiterRelease]; (repeat' split) <;> simp [mayWrite, touched]

@[simp] theorem takeLoops_rest (s : State) (hw : may .fw ∧ may .pwr) : rest may (takeLoops s) = rest may s := by
  simp only [takeLoops]; split <;> simp [hw]

@[simp] theorem sample_rest (s : State) (x : Sensors) (hw : may .pwr) : rest may (sample s x) = rest may s := by
  simp only [sample]; split <;> simp [hw]

@[simp] theorem execPowerLoopTick_keepsRest (pIn pPkg v10mv i10ma : Nat) (rails : List Nat) (s : State) :
    KeepsRest (mayWrite (.powerLoopTick pIn pPkg v10mv i10ma rails)) s (execPowerLoopTick pIn pPkg v10mv i10ma rails
        s) := by
  simp only [execPowerLoopTick]; split <;> simp [mayWrite, touched]

@[simp] theorem execThermalLoopTick_keepsRest (clusters io optics dimms : List Nat) (s : State) :
    KeepsRest (mayWrite (.thermalLoopTick clusters io optics dimms)) s (execThermalLoopTick clusters io optics dimms
        s) := by
  simp only [execThermalLoopTick]; split <;> simp [mayWrite, touched]

@[simp] theorem execMonitorSweep_keepsRest (rates : List Nat) (s : State) :
    KeepsRest (mayWrite (.monitorSweep rates)) s (execMonitorSweep rates s) := by
  simp only [execMonitorSweep]; (repeat' split) <;> simp [mayWrite, touched]

@[simp] theorem execClusterGate_keepsRest (cluster : ClusterId) (s : State) :
    KeepsRest (mayWrite (.clusterGate cluster)) s (execClusterGate cluster s) := by
  simp only [execClusterGate]; split <;> simp [mayWrite, touched]

@[simp] theorem execClusterWake_keepsRest (cluster : ClusterId) (s : State) :
    KeepsRest (mayWrite (.clusterWake cluster)) s (execClusterWake cluster s) := by
  simp [execClusterWake, mayWrite, touched]

/-! ### Security commands (chapter 15) -/

end Sys2Proof.Laws
end

section
/-! PROOFS. The rest of the state through security, firmware, power states and resets. -/

namespace Sys2Proof.Laws

open Sys2Proof Sys2Proof.Machine
set_option Elab.async false

variable {may : Spot → Bool} {α : Type}

@[simp] theorem extendMr_rest (s : State) (i t : Nat) (d : Bytes) (hw : may .sec) :
    rest may (extendMr s i t d) = rest may s := by
  simp [extendMr, hw]

@[simp] theorem eraseSlots_rest (s : State) (hw : may .sec) :
    rest may (eraseSlots s) = rest may s := by simp [eraseSlots, hw]

@[simp] theorem execAttest_keepsRest (queue : QueueId) (s : State) :
    KeepsRest (mayWrite (.attest queue)) s (execAttest queue s) := by
  simp only [execAttest]; (repeat' split) <;> simp [mayWrite, touched]

@[simp] theorem setOwner_rest (s : State) (key : Option Bytes) (seq : Nat) (hw : may .sec ∧ may .owner) :
    rest may (setOwner s key seq) = rest may s := by
  simp [setOwner, hw]

@[simp] theorem execOwnerClaim_keepsRest (queue : QueueId) (s : State) :
    KeepsRest (mayWrite (.ownerClaim queue)) s (execOwnerClaim queue s) := by
  simp only [execOwnerClaim]; (repeat' split) <;> simp [mayWrite, touched]

@[simp] theorem execOwnerRotate_keepsRest (queue : QueueId) (s : State) :
    KeepsRest (mayWrite (.ownerRotate queue)) s (execOwnerRotate queue s) := by
  simp only [execOwnerRotate]; (repeat' split) <;> simp [mayWrite, touched]

@[simp] theorem setSlot_rest (s : State) (slot : Nat) (k : Option Bytes) (hw : may .sec) :
    rest may (setSlot s slot k) = rest may s := by
  by_cases h0 : slot = 0 <;> simp [setSlot, h0, hw]

@[simp] theorem setSlotSeq_rest (s : State) (slot n : Nat) (hw : may .sec) :
    rest may (setSlotSeq s slot n) = rest may s := by
  by_cases h0 : slot = 0 <;> simp [setSlotSeq, h0, hw]

@[simp] theorem execKeyInstall_keepsRest (queue : QueueId) (s : State) :
    KeepsRest (mayWrite (.keyInstall queue)) s (execKeyInstall queue s) := by
  simp only [execKeyInstall]; (repeat' split) <;> simp [mayWrite, touched]

@[simp] theorem execKeyRevoke_keepsRest (queue : QueueId) (s : State) :
    KeepsRest (mayWrite (.keyRevoke queue)) s (execKeyRevoke queue s) := by
  simp only [execKeyRevoke]; (repeat' split) <;> simp [mayWrite, touched]

@[simp] theorem putEntries_rest (s : State) (f : Fetched) (hw : may .hif ∧ may .wt) :
    rest may (putEntries s f) = rest may s := by
  simp [putEntries, hw]

@[simp] theorem execWindowSet_keepsRest (queue : QueueId) (s : State) :
    KeepsRest (mayWrite (.windowSet queue)) s (execWindowSet queue s) := by
  simp only [execWindowSet]; (repeat' split) <;> simp [mayWrite, touched]

@[simp] theorem setSvc_rest (s : State) (st level : Nat) (hw : may .sec) :
    rest may (setSvc s st level) = rest may s := by
  simp [setSvc, hw]

@[simp] theorem lockSvc_rest (s : State) (hw : may .sec) : rest may (lockSvc s) = rest may s := by
  simp only [lockSvc]; split <;> simp [hw]

@[simp] theorem execSvcUnlock_keepsRest (queue : QueueId) (s : State) :
    KeepsRest (mayWrite (.svcUnlock queue)) s (execSvcUnlock queue s) := by
  simp only [execSvcUnlock]; (repeat' split) <;> simp [mayWrite, touched]

@[simp] theorem execSvcLock_keepsRest (queue : QueueId) (s : State) :
    KeepsRest (mayWrite (.svcLock queue)) s (execSvcLock queue s) := by
  simp only [execSvcLock]; split <;> simp [mayWrite, touched]

@[simp] theorem execSvnCommit_keepsRest (queue : QueueId) (s : State) :
    KeepsRest (mayWrite (.svnCommit queue)) s (execSvnCommit queue s) := by
  simp only [execSvnCommit]; split <;> simp [mayWrite, touched]

@[simp] theorem execMrExtend_keepsRest (queue : QueueId) (s : State) :
    KeepsRest (mayWrite (.mrExtend queue)) s (execMrExtend queue s) := by
  simp only [execMrExtend]; (repeat' split) <;> simp [mayWrite, touched]

@[simp] theorem execVendorChallenge_keepsRest (signature : Bytes) (s : State) :
    KeepsRest (mayWrite (.vendorChallenge signature)) s (execVendorChallenge signature s) := by
  simp only [execVendorChallenge]; (repeat' split) <;> simp [mayWrite, touched]

@[simp] theorem execSvcUnlockExpiry_keepsRest (s : State) :
    KeepsRest (mayWrite .svcUnlockExpiry) s (execSvcUnlockExpiry s) := by
  simp only [execSvcUnlockExpiry]; split <;> simp [mayWrite, touched]

@[simp] theorem execServiceConnectorRead_keepsRest (which : ServiceRead) (s : State) :
    KeepsRest (mayWrite (.serviceConnectorRead which)) s (execServiceConnectorRead which s) := by
  simp only [execServiceConnectorRead]; (repeat' split) <;> simp [mayWrite, touched]

@[simp] theorem execFailureLogClear_keepsRest (s : State) :
    KeepsRest (mayWrite .failureLogClear) s (execFailureLogClear s) := by
  simp only [execFailureLogClear]; split <;> simp [mayWrite, touched]

@[simp] theorem execKeyRevocationBurn_keepsRest (key : BitVec 2) (s : State) :
    KeepsRest (mayWrite (.keyRevocationBurn key)) s (execKeyRevocationBurn key s) := by
  simp only [execKeyRevocationBurn]; split <;> simp [mayWrite, touched]

/-! ### Firmware and the mailbox (chapter 16) -/

@[simp] theorem runImage_rest (s : State) (b : Bytes) (hw : may .sec ∧ may .fw) :
    rest may (runImage s b) = rest may s := by simp [runImage, hw]

@[simp] theorem putOut_rest (s : State) (p : HPort) (m : Bytes) (hw : may .out ∧ may .hif) :
    rest may (putOut s p m) = rest may s := by
  simp only [putOut]; split <;> simp [hw]

@[simp] theorem sendResponse_rest (s : State) (ch : Nat) (m : Bytes) (hw : may .out ∧ may .hif) :
    rest may (sendResponse s ch m) = rest may s := by
  simp [sendResponse, hw]

@[simp] theorem respond_rest (s : State) (r : MbxReq) (st : Status) (fields : Bytes) (hw : may .out ∧ may .hif) :
    rest may (respond s r st fields) = rest may s := by
  simp [respond, hw]

@[simp] theorem mbVerify_rest (s : State) (ch : Nat) (m : Bytes) (hw : may .fw) :
    rest may (mbVerify s ch m).1 = rest may s := by
  simp only [mbVerify]; (repeat' split) <;> simp [hw]

@[simp] theorem mbHello_rest (s : State) (r : MbxReq) (hw : may .out ∧ may .hif) :
    rest may (mbHello s r) = rest may s := by simp [mbHello, hw]

@[simp] theorem mbLoadBegin_rest (s : State) (r : MbxReq) (hw : may .out ∧ may .hif ∧ may .fw) :
    rest may (mbLoadBegin s r) = rest may s := by
  simp only [mbLoadBegin]; split <;> simp [hw]

@[simp] theorem mbLoadData_rest (s : State) (r : MbxReq) (hw : may .out ∧ may .hif ∧ may .fw) :
    rest may (mbLoadData s r) = rest may s := by
  simp only [mbLoadData]; split <;> simp [hw]

@[simp] theorem mbLoadEnd_rest (s : State) (r : MbxReq) (hw : MayReply may) :
    rest may (mbLoadEnd s r) = rest may s := by
  simp only [mbLoadEnd]; split <;> simp [hw.spots]

@[simp] theorem useConfig_rest (s : State) (b : Bytes) (hw : may .fw) : rest may (useConfig s b) = rest may s := by
  simp [useConfig, hw]

@[simp] theorem applyConfig_rest (s : State) (b : Bytes) (hw : may .fw) :
    rest may (applyConfig s b) = rest may s := by
  simp [applyConfig, hw]

@[simp] theorem mbConfigSet_rest (s : State) (r : MbxReq) (hw : MayReply may) :
    rest may (mbConfigSet s r) = rest may s := by
  simp [mbConfigSet, hw.spots]

@[simp] theorem mbEventRing_rest (s : State) (r : MbxReq) (hw : may .out ∧ may .hif) :
    rest may (mbEventRing s r) = rest may s := by
  simp only [mbEventRing]; split <;> simp [hw]

@[simp] theorem mbCertRead_rest (s : State) (r : MbxReq) (hw : may .out ∧ may .hif) :
    rest may (mbCertRead s r) = rest may s := by
  simp only [mbCertRead]; split <;> simp [hw]

@[simp] theorem mbEntries_rest (s : State) (r : MbxReq) (log : List Bytes) (n : Nat) (hw : may .out ∧ may .hif) :
    rest may (mbEntries s r log n) = rest may s := by
  simp [mbEntries, hw]

@[simp] theorem mbSensor_rest (s : State) (r : MbxReq) (groups : Nat → Bool) (hw : may .out ∧ may .hif) :
    rest may (mbSensor s r groups) = rest may s := by
  simp only [mbSensor]; split <;> simp [hw]

@[simp] theorem startEntry_rest (s : State) (target : BitVec 3) (byHold : Bool) (reply : Option MbxReq)
    (hw : may .pwr) :
    rest may (startEntry s target byHold reply) = rest may s := by
  simp [startEntry, hw]

@[simp] theorem holdStart_rest (s : State) (hw : may .pwr) : rest may (holdStart s) = rest may s := by
  simp only [holdStart]; split <;> simp [hw]

@[simp] theorem enterRunState_rest (s : State) (st : BitVec 3) (trim : Nat) (hw : may .pwr) :
    rest may (enterRunState s st trim) = rest may s := by
  simp [enterRunState, hw]

@[simp] theorem mbPowerReq_rest (s : State) (r : MbxReq) (hw : may .out ∧ may .hif ∧ may .pwr) :
    rest may (mbPowerReq s r) = rest may s := by
  simp only [mbPowerReq]; (repeat' split) <;> simp [hw]

@[simp] theorem mbStage_rest (s : State) (r : MbxReq) (hw : may .out ∧ may .hif ∧ may .fw) :
    rest may (mbStage s r) = rest may s := by
  simp only [mbStage]; (repeat' split) <;> simp [hw]

@[simp] theorem mbVerifyImage_rest (s : State) (r : MbxReq) (hw : may .out ∧ may .hif ∧ may .fw) :
    rest may (mbVerifyImage s r) = rest may s := by
  simp only [mbVerifyImage]; (repeat' split) <;> simp [hw]

@[simp] theorem mbActivate_rest (s : State) (r : MbxReq) (hw : may .out ∧ may .hif ∧ may .fw) :
    rest may (mbActivate s r) = rest may s := by
  simp only [mbActivate]; split <;> simp [hw]

@[simp] theorem mbAbort_rest (s : State) (r : MbxReq) (hw : may .out ∧ may .hif ∧ may .fw) :
    rest may (mbAbort s r) = rest may s := by
  simp only [mbAbort]; split <;> simp [hw]

@[simp] theorem mbStatus_rest (s : State) (r : MbxReq) (hw : may .out ∧ may .hif) :
    rest may (mbStatus s r) = rest may s := by
  simp only [mbStatus]; split <;> simp [hw]

@[simp] theorem mbRun_rest (s : State) (r : MbxReq) (hw : MayReply may) : rest may (mbRun s r) = rest may s := by
  simp only [mbRun]; split <;> simp [hw.spots]

@[simp] theorem mbServe_rest (s : State) (ch : Nat) (m : Bytes) (hw : MayReply may) :
    rest may (mbServe s ch m) = rest may s := by
  simp only [mbServe]; (repeat' split) <;> simp [hw.spots]

@[simp] theorem mbPump_rest (s : State) (p : HPort) (hw : MayReply may) : rest may (mbPump s p) = rest may s := by
  simp only [mbPump]; split <;> simp [hw.spots]

@[simp] theorem naServe_rest (s : State) (ch : Nat) (m : Bytes) (hw : may .out ∧ may .hif) :
    rest may (naServe s ch m) = rest may s := by
  simp only [naServe]; (repeat' split) <;> simp [hw]

@[simp] theorem mctpRequest_rest (s : State) (ch : Nat) (m : Bytes) (hw : MayReply may) :
    rest may (mctpRequest s ch m) = rest may s := by
  simp [mctpRequest, hw.spots]

@[simp] theorem mctpTake_rest (b : MctpBinding) (m : Bytes) (s : State) (hw : MayReply may) :
    rest may (mctpTake b m s) = rest may s := by
  simp [mctpTake, hw.spots]

@[simp] theorem execMctpControl_keepsRest (binding : MctpBinding) (packets : List MctpPacket) (s : State) :
    KeepsRest (mayWrite (.mctpControl binding packets)) s (execMctpControl binding packets s) := by
  simp only [execMctpControl]; (repeat' split) <;> simp [mayWrite, touched]

@[simp] theorem mbArrive_rest (s : State) (ch : Nat) (m : Bytes) (hw : MayReply may) :
    rest may (mbArrive s ch m) = rest may s := by
  simp [mbArrive, hw.spots]

@[simp] theorem mbCommand_keepsRest (t : Nat) (channel : BitVec 3) (m : Bytes) (s : State) (hw : MayReply may) :
    KeepsRest may s (mbCommand t channel m s) := by
  simp only [mbCommand]; split <;> simp [hw.spots]

@[simp] theorem execHello_keepsRest (channel : BitVec 3) (message : Bytes) (s : State) :
    KeepsRest (mayWrite (.hello channel message)) s (execHello channel message s) := by
  simp [execHello, mayWrite, touched]

@[simp] theorem execLoadBegin_keepsRest (channel : BitVec 3) (message : Bytes) (s : State) :
    KeepsRest (mayWrite (.loadBegin channel message)) s (execLoadBegin channel message s) := by
  simp [execLoadBegin, mayWrite, touched]

@[simp] theorem execLoadData_keepsRest (channel : BitVec 3) (message : Bytes) (s : State) :
    KeepsRest (mayWrite (.loadData channel message)) s (execLoadData channel message s) := by
  simp [execLoadData, mayWrite, touched]

@[simp] theorem execLoadEnd_keepsRest (channel : BitVec 3) (message : Bytes) (s : State) :
    KeepsRest (mayWrite (.loadEnd channel message)) s (execLoadEnd channel message s) := by
  simp [execLoadEnd, mayWrite, touched]

@[simp] theorem execConfigSet_keepsRest (channel : BitVec 3) (message : Bytes) (s : State) :
    KeepsRest (mayWrite (.configSet channel message)) s (execConfigSet channel message s) := by
  simp [execConfigSet, mayWrite, touched]

@[simp] theorem execEventRingSet_keepsRest (channel : BitVec 3) (message : Bytes) (s : State) :
    KeepsRest (mayWrite (.eventRingSet channel message)) s (execEventRingSet channel message s) := by
  simp [execEventRingSet, mayWrite, touched]

@[simp] theorem execCertRead_keepsRest (channel : BitVec 3) (message : Bytes) (s : State) :
    KeepsRest (mayWrite (.certRead channel message)) s (execCertRead channel message s) := by
  simp [execCertRead, mayWrite, touched]

@[simp] theorem execMlogRead_keepsRest (channel : BitVec 3) (message : Bytes) (s : State) :
    KeepsRest (mayWrite (.mlogRead channel message)) s (execMlogRead channel message s) := by
  simp [execMlogRead, mayWrite, touched]

@[simp] theorem execFaillogRead_keepsRest (channel : BitVec 3) (message : Bytes) (s : State) :
    KeepsRest (mayWrite (.faillogRead channel message)) s (execFaillogRead channel message s) := by
  simp [execFaillogRead, mayWrite, touched]

@[simp] theorem execSensorRead_keepsRest (channel : BitVec 3) (message : Bytes) (s : State) :
    KeepsRest (mayWrite (.sensorRead channel message)) s (execSensorRead channel message s) := by
  simp [execSensorRead, mayWrite, touched]

@[simp] theorem execPowerReq_keepsRest (channel : BitVec 3) (message : Bytes) (s : State) :
    KeepsRest (mayWrite (.powerReq channel message)) s (execPowerReq channel message s) := by
  simp [execPowerReq, mayWrite, touched]

@[simp] theorem execFwuStage_keepsRest (channel : BitVec 3) (message : Bytes) (s : State) :
    KeepsRest (mayWrite (.fwuStage channel message)) s (execFwuStage channel message s) := by
  simp [execFwuStage, mayWrite, touched]

@[simp] theorem execFwuVerify_keepsRest (channel : BitVec 3) (message : Bytes) (s : State) :
    KeepsRest (mayWrite (.fwuVerify channel message)) s (execFwuVerify channel message s) := by
  simp [execFwuVerify, mayWrite, touched]

@[simp] theorem execFwuActivate_keepsRest (channel : BitVec 3) (message : Bytes) (s : State) :
    KeepsRest (mayWrite (.fwuActivate channel message)) s (execFwuActivate channel message s) := by
  simp [execFwuActivate, mayWrite, touched]

@[simp] theorem execFwuAbort_keepsRest (channel : BitVec 3) (message : Bytes) (s : State) :
    KeepsRest (mayWrite (.fwuAbort channel message)) s (execFwuAbort channel message s) := by
  simp [execFwuAbort, mayWrite, touched]

@[simp] theorem execFwuStatus_keepsRest (channel : BitVec 3) (message : Bytes) (s : State) :
    KeepsRest (mayWrite (.fwuStatus channel message)) s (execFwuStatus channel message s) := by
  simp [execFwuStatus, mayWrite, touched]

@[simp] theorem putHeld_rest (s : State) (p : HPort) (m : Bytes) (hw : MayReply may) :
    rest may (putHeld s p m) = rest may s := by
  simp only [putHeld]; split <;> simp [hw.spots]

@[simp] theorem clearDone_rest (p : HPort) (s : State) (hw : MayReply may) :
    rest may (clearDone p s) = rest may s := by
  simp only [clearDone]; split <;> simp [hw.spots]

@[simp] theorem execMbxDoneClear_keepsRest (port : HPort) (s : State) :
    KeepsRest (mayWrite (.mbxDoneClear port)) s (execMbxDoneClear port s) := by
  simp only [execMbxDoneClear]; split <;> simp [mayWrite, touched]

@[simp] theorem execLoaderPortLost_keepsRest (port : HPort) (s : State) :
    KeepsRest (mayWrite (.loaderPortLost port)) s (execLoaderPortLost port s) := by
  simp only [execLoaderPortLost]; (repeat' split) <;> simp [mayWrite, touched]

@[simp] theorem bringDram_rest (s : State) (spd : List (Option Dimm)) (hw : MayMeet may) :
    rest may (bringDram s spd) = rest may s := by
  simp only [bringDram]; split <;> simp [hw.spots]

@[simp] theorem markBist_rest (s : State) (c : Nat) (hw : may .cr ∧ may .err) :
    rest may (markBist s c) = rest may s := by
  simp [markBist, hw]

@[simp] theorem execEnterConfigWait_keepsRest (spd : List (Option Dimm)) (s : State) :
    KeepsRest (mayWrite (.enterConfigWait spd)) s (execEnterConfigWait spd s) := by
  simp only [execEnterConfigWait]; split <;> simp [mayWrite, touched]

@[simp] theorem writeHandoff_rest (s : State) (hw : may .freeCount ∧ may .fw) :
    rest may (writeHandoff s) = rest may s := by simp [writeHandoff, hw]

@[simp] theorem restoreHandoff_rest (s : State) (b : Bytes) (hw : may .fw) :
    rest may (restoreHandoff s b) = rest may s := by
  simp only [restoreHandoff]; (repeat' split) <;> simp [hw]

@[simp] theorem loseHandoff_rest (s : State) (hw : may .cmd ∧ may .hif ∧ may .fw) :
    rest may (loseHandoff s) = rest may s := by simp [loseHandoff, hw]

@[simp] theorem resumeOwn_rest (s : State) (hw : may .cmd ∧ may .hif ∧ may .fw) :
    rest may (resumeOwn s) = rest may s := by
  simp only [resumeOwn]; split <;> simp [hw]

@[simp] theorem resumeFw_rest (s : State) (hw : MayReply may) : rest may (resumeFw s) = rest may s := by
  have delivered (l : List (Bytes × List HPort)) (x : State) :
      rest may (l.foldl (fun x e => e.2.foldl (fun y p => toRing y e.1 p) x) x) = rest may x :=
    foldl_rest (fun x e => foldl_rest (fun y p => by simp [hw.spots]) _ x) l x
  simp [resumeFw, delivered, hw.spots]

@[simp] theorem answerActivate_rest (s : State) (st : Status) (hw : may .out ∧ may .hif ∧ may .fw) :
    rest may (answerActivate s st) = rest may s := by
  simp only [answerActivate]; split <;> simp [hw]

@[simp] theorem execFwuSwitch_keepsRest (s : State) : KeepsRest (mayWrite .fwuSwitch) s (execFwuSwitch s) := by
  simp only [execFwuSwitch]; (repeat' split) <;> simp [mayWrite, touched]

@[simp] theorem execLoopHoldTimeout_keepsRest (s : State) :
    KeepsRest (mayWrite .loopHoldTimeout) s (execLoopHoldTimeout s) := by
  simp only [execLoopHoldTimeout]; split <;> simp [mayWrite, touched]

@[simp] theorem execFwuConfirm_keepsRest (s : State) : KeepsRest (mayWrite .fwuConfirm) s (execFwuConfirm s) := by
  simp only [execFwuConfirm]; split <;> simp [mayWrite, touched]

@[simp] theorem stopControl_rest (s : State) (hw : may .out ∧ may .hif ∧ may .fw ∧ may .err ∧ may .pwr) :
    rest may (stopControl s) = rest may s := by simp [stopControl, hw]

@[simp] theorem execFwuRevert_keepsRest (refused : Bool) (s : State) :
    KeepsRest (mayWrite (.fwuRevert refused)) s (execFwuRevert refused s) := by
  simp only [execFwuRevert]; (repeat' split) <;> simp [mayWrite, touched]

@[simp] theorem execRevertRegionCopyDone_keepsRest (s : State) :
    KeepsRest (mayWrite .revertRegionCopyDone) s (execRevertRegionCopyDone s) := by
  simp only [execRevertRegionCopyDone]; split <;> simp [mayWrite, touched]

@[simp] theorem execCcWatchdog_keepsRest (cause : WatchdogCause) (s : State) :
    KeepsRest (mayWrite (.ccWatchdog cause)) s (execCcWatchdog cause s) := by
  simp only [execCcWatchdog]; (repeat' split) <;> simp [mayWrite, touched]

/-! ### Registers but TOP_NODE_ID and FAB_BYPASS (chapter 20) -/

@[simp] theorem writeNodeId_rest (value : Nat) (s : State) (hw : MaySettle may) :
    rest may (writeNodeId value s) = rest may s := by
  simp only [writeNodeId]; (repeat' split) <;> simp [hw.spots]

@[simp] theorem writeQueueReg_rest (p : HPort) (n k value : Nat) (s : State) (hw : may .cmd) :
    rest may (writeQueueReg p n k value s) = rest may s := by
  simp only [writeQueueReg]; (repeat' split) <;> simp [hw]

@[simp] theorem writeRouteCtl_rest (value : Nat) (s : State) (hw : MaySettle may) :
    rest may (writeRouteCtl value s) = rest may s := by
  simp [writeRouteCtl, hw.spots]

@[simp] theorem writeCommBase_rest (value : Nat) (s : State) (hw : may .coll) :
    rest may (writeCommBase value s) = rest may s := by
  simp [writeCommBase, hw]

@[simp] theorem writeCompute_rest (s : State) (off value : Nat) (hw : may .cr) :
    rest may (writeCompute s off value) = rest may s := by
  simp only [writeCompute]; split <;> simp [hw]

@[simp] theorem writeTrain_rest (s : State) (off value : Nat) (hw : may .trn ∧ may .muu) :
    rest may (writeTrain s off value) = rest may s := by
  simp only [writeTrain]; (repeat' split) <;> simp [hw]

@[simp] theorem writeMem_rest (s : State) (off value : Nat) (hw : may .out ∧ may .mem ∧ may .cores ∧ may .mr ∧
    may .ccm ∧ may .hif ∧ may .fw ∧ may .err) : rest may (writeMem s off value) = rest may s := by
  simp only [writeMem]; (repeat' split) <;> simp [hw]

@[simp] theorem writeOther_rest (s : State) (off value : Nat) (hw : MaySettle may) :
    rest may (writeOther s off value) = rest may s := by
  simp only [writeOther]; (repeat' split) <;> simp [hw.spots]

@[simp] theorem writeArray_rest (p : HPort) (s : State) (off value : Nat) (hw : MaySettle may) :
    rest may (writeArray p s off value) = rest may s := by
  simp only [writeArray]; (repeat' split) <;> simp [hw.spots]

@[simp] theorem writeReg_rest (p : HPort) (off size value : Nat) (s : State) (hw : may .out ∧ may .mem ∧ may .cr ∧
    may .cores ∧ may .blink ∧ may .trn ∧ may .mr ∧ may .ccm ∧ may .muu ∧ may .muuRun ∧ may .trnRun ∧ may .cmd ∧
        may .hif ∧ may .fw ∧ may .err ∧ may .pwr ∧ may .fab ∧ may .coll) :
    rest may (writeReg p off size value s) = rest may s := by
  simp only [writeReg]; (repeat' split) <;> simp [hw]

@[simp] theorem writeMbxCtl_rest (p : HPort) (value : Nat) (s : State) (hw : MayReply may) :
    rest may (writeMbxCtl p value s) = rest may s := by
  simp [writeMbxCtl, hw.spots]

@[simp] theorem writeMsix_rest (p : HPort) (k size value : Nat) (s : State) (hw : may .out ∧ may .hif) :
    rest may (writeMsix p k size value s) = rest may s := by
  simp only [writeMsix]; split <;> simp [hw]

@[simp] theorem writeBar2_rest (p : HPort) (off size value : Nat) (s : State) (hw : may .out ∧ may .cmd ∧
    may .hif ∧ may .sec ∧ may .fw ∧ may .pwr ∧ may .fab) :
    rest may (writeBar2 p off size value s) = rest may s := by
  simp only [writeBar2]; (repeat' split) <;> simp [hw]

@[simp] theorem answerRead_rest (p : HPort) (bar : HostBar) (off size : Nat) (s : State) (hw : may .out) :
    rest may (answerRead p bar off size s) = rest may s := by
  simp [answerRead, hw]

@[simp] theorem execBar0Read_keepsRest (hport : HPort) (bar : HostBar) (offset : BitVec 26) (size : Nat) (s : State) :
    KeepsRest (mayWrite (.bar0Read hport bar offset size)) s (execBar0Read hport bar offset size s) := by
  simp only [execBar0Read]; (repeat' split) <;> simp [mayWrite, touched]

/-! ### Power states and sideband inputs (chapter 17) -/

@[simp] theorem loseDies_rest (s : State) (hw : MaySettle may) :
    rest may (loseDies s) = rest may s := by simp [loseDies, hw.spots]

@[simp] theorem disableFabric_rest (s : State) (hw : MaySettle may) :
    rest may (disableFabric s) = rest may s := by simp [disableFabric, hw.spots]

@[simp] theorem portToL2_rest (s : State) (p : HPort) (hw : may .cmd ∧ may .hif ∧ may .fab) :
    rest may (portToL2 s p) = rest may s := by simp [portToL2, hw]

@[simp] theorem railOff_rest (s : State) (target : BitVec 3) (hw : MaySettle may) :
    rest may (railOff s target) = rest may s := by
  simp [railOff, hw.spots]

@[simp] theorem answerOpen_rest (s : State) (reached point : Nat) (hw : may .out ∧ may .hif ∧ may .pwr) :
    rest may (answerOpen s reached point) = rest may s := by
  simp [answerOpen, hw]

@[simp] theorem abandonEntry_rest (s : State) (e : PowerEntry) (point : Nat) (hw : may .out ∧ may .hif ∧ may .pwr) :
    rest may (abandonEntry s e point) = rest may s := by
  simp only [abandonEntry]; split <;> simp [hw]

@[simp] theorem answerEntry_rest (s : State) (e : PowerEntry) (reached point : Nat) (hw : may .out ∧ may .hif) :
    rest may (answerEntry s e reached point) = rest may s := by
  simp only [answerEntry]; split <;> simp [hw]

@[simp] theorem setStage_rest (s : State) (e : PowerEntry) (k : Nat) (hw : may .pwr) :
    rest may (setStage s e k) = rest may s := by
  simp [setStage, hw]

@[simp] theorem advanceEntry_rest (target : BitVec 3) (s : State) (hw : may .freeCount ∧ may .out ∧ may .mem ∧
    may .cr ∧ may .cores ∧ may .blink ∧ may .trn ∧ may .mr ∧ may .muuRun ∧ may .trnRun ∧ may .cmd ∧ may .hif ∧
        may .fw ∧ may .err ∧ may .pwr ∧ may .fab ∧ may .coll) :
    rest may (advanceEntry target s) = rest may s := by
  simp only [advanceEntry]; (repeat' split) <;> simp [hw]

@[simp] theorem execClosedEntry_keepsRest (s : State) :
    KeepsRest (mayWrite .closedEntry) s (execClosedEntry s) := by simp [execClosedEntry, mayWrite, touched]

@[simp] theorem execParkedEntry_keepsRest (s : State) :
    KeepsRest (mayWrite .parkedEntry) s (execParkedEntry s) := by simp [execParkedEntry, mayWrite, touched]

@[simp] theorem execQuiesceTimeout_keepsRest (s : State) :
    KeepsRest (mayWrite .quiesceTimeout) s (execQuiesceTimeout s) := by
  simp only [execQuiesceTimeout]; (repeat' split) <;> simp [mayWrite, touched]

@[simp] theorem serveHeld_rest (s : State) (h : HeldAccess) (hw : may .out ∧ may .mem ∧ may .cr ∧ may .cores ∧
    may .blink ∧ may .trn ∧ may .mr ∧ may .ccm ∧ may .muu ∧ may .muuRun ∧ may .trnRun ∧ may .cmd ∧ may .hif ∧
        may .fw ∧ may .err ∧ may .pwr ∧ may .fab ∧ may .coll) :
    rest may (serveHeld s h) = rest may s := by
  simp only [serveHeld]; (repeat' split) <;> simp [hw]

@[simp] theorem openAgain_rest (s : State) (hw : may .out ∧ may .mem ∧ may .cr ∧ may .cores ∧ may .blink ∧
    may .trn ∧ may .mr ∧ may .ccm ∧ may .muu ∧ may .muuRun ∧ may .trnRun ∧ may .cmd ∧ may .hif ∧ may .fw ∧
        may .err ∧ may .pwr ∧ may .fab ∧ may .coll) :
    rest may (openAgain s) = rest may s := by
  simp [openAgain, hw]

@[simp] theorem execWakeOutputLimit_keepsRest (port : HPort) (s : State) :
    KeepsRest (mayWrite (.wakeOutputLimit port)) s (execWakeOutputLimit port s) := by
  simp only [execWakeOutputLimit]; (repeat' split) <;> simp [mayWrite, touched]

@[simp] theorem setSide_rest (s : State) (i : Nat) (x : SideIn) (hw : may .pwr) :
    rest may (setSide s i x) = rest may s := by
  simp [setSide, hw]

@[simp] theorem sideAssert_rest (s : State) (i : Nat) (hw : may .out ∧ may .hif ∧ may .fw ∧ may .err ∧ may .pwr) :
    rest may (sideAssert s i).1 = rest may s := by
  simp only [sideAssert]; (repeat' split) <;> simp [hw]

@[simp] theorem sideDeassert_rest (s : State) (i : Nat) (hw : may .pwr) :
    rest may (sideDeassert s i).1 = rest may s := by
  simp only [sideDeassert]; split <;> simp [hw]

@[simp] theorem execInputHeld_keepsRest (input : BitVec 3) (s : State) :
    KeepsRest (mayWrite (.inputHeld input)) s (execInputHeld input s) := by
  simp only [execInputHeld]; (repeat' split) <;> simp [mayWrite, touched]

@[simp] theorem execInputUnmasked_keepsRest (input : BitVec 3) (s : State) :
    KeepsRest (mayWrite (.inputUnmasked input)) s (execInputUnmasked input s) := by
  simp only [execInputUnmasked]; (repeat' split) <;> simp [mayWrite, touched]

@[simp] theorem execSlotIdChange_keepsRest (s : State) :
    KeepsRest (mayWrite .slotIdChange) s (execSlotIdChange s) := by
  simp only [execSlotIdChange]; (repeat' split) <;> simp [mayWrite, touched]

@[simp] theorem wakeSource_rest (s : State) (i : Nat) (hw : may .pwr) : rest may (wakeSource s i) = rest may s := by
  simp [wakeSource, hw]

@[simp] theorem execHoldNAssert_keepsRest (s : State) :
    KeepsRest (mayWrite .holdNAssert) s (execHoldNAssert s) := by simp [execHoldNAssert, mayWrite, touched]

@[simp] theorem execHoldNDeassert_keepsRest (s : State) :
    KeepsRest (mayWrite .holdNDeassert) s (execHoldNDeassert s) := by
  simp only [execHoldNDeassert]; split <;> simp [mayWrite, touched]

@[simp] theorem setBrake_rest (s : State) (on : Bool) (hw : may .pwr) :
    rest may (setBrake s on) = rest may s := by simp [setBrake, hw]

@[simp] theorem execPwrbrkNAssert_keepsRest (s : State) :
    KeepsRest (mayWrite .pwrbrkNAssert) s (execPwrbrkNAssert s) := by
  simp only [execPwrbrkNAssert]; split <;> simp [mayWrite, touched]

@[simp] theorem execPwrbrkNDeassert_keepsRest (s : State) :
    KeepsRest (mayWrite .pwrbrkNDeassert) s (execPwrbrkNDeassert s) := by
  simp only [execPwrbrkNDeassert]; split <;> simp [mayWrite, touched]

@[simp] theorem execWakeInN_keepsRest (s : State) : KeepsRest (mayWrite .wakeInN) s (execWakeInN s) := by
  simp only [execWakeInN]; split <;> simp [mayWrite, touched]

/-! ### Resets and power-up (chapter 18) -/

@[simp] theorem portReset_rest (s : State) (p : HPort) (hw : may .cmd ∧ may .hif ∧ may .pwr ∧ may .fab) :
    rest may (portReset s p) = rest may s := by
  simp [portReset, hw]

@[simp] theorem countPerst_rest (s : State) (p : HPort) (hw : may .rst) : rest may (countPerst s p) = rest may s := by
  simp only [countPerst]; split <;> simp [hw]

@[simp] theorem countHot_rest (s : State) (p : HPort) (hw : may .rst) : rest may (countHot s p) = rest may s := by
  simp only [countHot]; split <;> simp [hw]

@[simp] theorem perstOn_rest (s : State) (p : HPort) (hw : may .cmd ∧ may .hif ∧ may .pwr ∧ may .rst ∧ may .fab) :
    rest may (perstOn s p) = rest may s := by simp [perstOn, hw]

@[simp] theorem trainFromNow_rest (s : State) (p : HPort) (hw : may .hif) :
    rest may (trainFromNow s p) = rest may s := by
  simp only [trainFromNow]; split <;> simp [hw]

@[simp] theorem execPerstAssert_keepsRest (port : HPort) (s : State) :
    KeepsRest (mayWrite (.perstAssert port)) s (execPerstAssert port s) := by
  simp only [execPerstAssert]; split <;> simp [mayWrite, touched]

@[simp] theorem execPerstDeassert_keepsRest (port : HPort) (s : State) :
    KeepsRest (mayWrite (.perstDeassert port)) s (execPerstDeassert port s) := by
  simp only [execPerstDeassert]; split <;> simp [mayWrite, touched]

@[simp] theorem execHotReset_keepsRest (port : HPort) (s : State) :
    KeepsRest (mayWrite (.hotReset port)) s (execHotReset port s) := by
  simp only [execHotReset]; split <;> simp [mayWrite, touched]

@[simp] theorem levelAgain_rest (old s : State) (i : Nat) (hw : may .out ∧ may .cmd ∧ may .hif ∧ may .fw ∧
    may .err ∧ may .pwr ∧ may .rst ∧ may .fab) : rest may (levelAgain old s i) = rest may s := by
  simp only [levelAgain]; (repeat' split) <;> simp [hw]

@[simp] theorem bringUp_rest (s : State) (hw : may .out ∧ may .hif ∧ may .sec ∧ may .fw ∧ may .pwr ∧ may .rst) :
    rest may (bringUp s) = rest may s := by simp [bringUp, hw]

@[simp] theorem mayStartUp_rest (s : State) (hw : may .out ∧ may .hif ∧ may .sec ∧ may .fw ∧ may .pwr ∧ may .rst) :
    rest may (mayStartUp s) = rest may s := by
  simp only [mayStartUp]; split <;> simp [hw]

@[simp] theorem execModuleRstNDeassert_keepsRest (s : State) :
    KeepsRest (mayWrite .moduleRstNDeassert) s (execModuleRstNDeassert s) := by
  simp only [execModuleRstNDeassert]; split <;> simp [mayWrite, touched]

@[simp] theorem execRailFailRetry_keepsRest (s : State) :
    KeepsRest (mayWrite .railFailRetry) s (execRailFailRetry s) := by
  simp only [execRailFailRetry]; split <;> simp [mayWrite, touched]

@[simp] theorem execSelftestDone_keepsRest (fails : SelftestResult) (s : State) :
    KeepsRest (mayWrite (.selftestDone fails)) s (execSelftestDone fails s) := by
  simp only [execSelftestDone]; split <;> simp [mayWrite, touched]

/-! ### Wear and failures in the field (chapters 01 and 17) -/

@[simp] theorem setWear_rest (s : State) (d : Nat) (w : DieWear) (hw : may .pwr) :
    rest may (setWear s d w) = rest may s := by
  simp [setWear, hw]

@[simp] theorem execWearReading_keepsRest (pairs : List (List (Nat × Nat))) (s : State) :
    KeepsRest (mayWrite (.wearReading pairs)) s (execWearReading pairs s) := by
  simp only [execWearReading]; split <;> simp [mayWrite, touched]

@[simp] theorem withdrawPoint_rest (die : Nat) (s : State) (_q : Nat) (hw : MayRaise may) :
    rest may (withdrawPoint die s _q) = rest may s := by
  simp only [withdrawPoint]; split <;> simp [hw.spots]

@[simp] theorem execReplan_keepsRest (die : BitVec 2) (reading tj : Nat) (s : State) :
    KeepsRest (mayWrite (.replan die reading tj)) s (execReplan die reading tj s) := by
  simp only [execReplan]; (repeat' split) <;> simp [mayWrite, touched]

@[simp] theorem execUnitFails_keepsRest (unit : FailedUnit) (s : State) :
    KeepsRest (mayWrite (.unitFails unit)) s (execUnitFails unit s) := by
  simp only [execUnitFails]; (repeat' split) <;> simp [mayWrite, touched]

/-! ### Counter waits (chapter 11) -/

end Sys2Proof.Laws
end

section
/-! PROOFS. The rest of the state through registers and resets, and what every command leaves. -/

namespace Sys2Proof.Laws

open Sys2Proof Sys2Proof.Machine
set_option Elab.async false

variable {may may' : Spot → Bool}

/-! ### Registers and held accesses -/

@[simp] theorem execTopNodeId_keepsRest (p : HPort) (v : BitVec 32) (s : State) :
    KeepsRest (mayWrite (.topNodeId p v)) s (execTopNodeId p v s) := by
  simp [execTopNodeId, mayWrite, touched]

@[simp] theorem execFabBypass_keepsRest (p : HPort) (v : BitVec 32) (s : State) :
    KeepsRest (mayWrite (.fabBypass p v)) s (execFabBypass p v s) := by
  simp [execFabBypass, mayWrite, touched]

@[simp] theorem execRegisterWrite_keepsRest (p : HPort) (bar : HostBar) (off : BitVec 26) (size : Nat) (v : BitVec 64)
    (s : State) : KeepsRest (mayWrite (.registerWrite p bar off size v)) s (execRegisterWrite p bar off size v
        s) := by
  cases bar <;> simp [execRegisterWrite, mayWrite, touched]

@[simp] theorem execClosedExit_keepsRest (s : State) : KeepsRest (mayWrite .closedExit) s (execClosedExit s) := by
  simp only [execClosedExit]; split <;> simp [mayWrite, touched]

/-! ### Resets and losses of power -/

/-- What a loss of power or a module reset reaches: every part, the Window Table too. What fuses and flash hold
    stays. -/
abbrev MayReset (may : Spot → Bool) : Prop :=
  ∀ x : Spot, x ≠ .minSvn → x ≠ .owner → x ≠ .keyRevoked → may x

theorem MayReset.spots (h : MayReset may) :
    (may .nowNs ∧ may .freeCount ∧ may .out ∧ may .mem ∧ may .cr ∧ may .cores ∧
    may .blink ∧ may .trn ∧ may .mr ∧ may .ccm ∧ may .muu ∧ may .muuRun ∧ may .trnRun ∧ may .cmd ∧ may .hif ∧
        may .sec ∧
    may .fw ∧ may .err ∧ may .pwr ∧ may .rst ∧ may .fab ∧ may .coll) ∧ may .wt := by
  refine ⟨?_, h _ (by decide) (by decide) (by decide)⟩
  repeat' constructor
  all_goals exact h _ (by decide) (by decide) (by decide)

/-- Where every part may be written, what is left of a state is the queue of commands and what fuses and flash hold.
    -/
theorem rest_eq_of_reset (h : MayReset may) {s t : State} (hp : t.pending = s.pending)
    (hm : t.sec.minSvn = s.sec.minSvn)
    (ho : t.sec.owner = s.sec.owner) (hk : t.sec.keyRevoked = s.sec.keyRevoked) : rest may t = rest may s := by
  simp [rest, restHif, restSec, h.spots, hp, hm, ho, hk]

theorem pending_of_rest {s t : State} (h : rest may t = rest may s) : t.pending = s.pending :=
  show (rest may t).pending = (rest may s).pending from congrArg _ h

@[simp] theorem quietPins_rest (s : State) (tripOver : Bool) (hw : may .out ∧ may .pwr ∧ may .fab) :
    rest may (quietPins s tripOver) = rest may s := by
  simp [quietPins, hw]

@[simp] theorem freshState_rest (s : State) (keep : Bool) (hw : MayReset may) :
    rest may (freshState s keep) = rest may s :=
  rest_eq_of_reset hw rfl rfl rfl rfl

@[simp] theorem moduleReset_rest (s : State) (cause : BitVec 3) (keep tripOver : Bool) (hw : MayReset may) :
    rest may (moduleReset s cause keep tripOver) = rest may s := by
  have fresh (q : State) : rest may (freshState q keep) = rest may q := freshState_rest q keep hw
  simp [moduleReset, fresh, hw.spots]

@[simp] theorem keepLocks_rest (s t : State) (hw : may .fab) : rest may (keepLocks s t) = rest may t := by
  simp [keepLocks, hw]

theorem railsOff_sec (s : State) : (railsOff s).sec = s.sec := by simp only [railsOff]

theorem railsOff_pending (s : State) : (railsOff s).pending = (quietPins s false).pending := by
  simp only [railsOff, keepLocks, freshState]

@[simp] theorem railsOff_rest (s : State) (hw : MayReset may) : rest may (railsOff s) = rest may s :=
  rest_eq_of_reset hw ((railsOff_pending s).trans (pending_of_rest (quietPins_rest (may := may) s false (by simp
      [hw.spots]))))
    (by rw [railsOff_sec]) (by rw [railsOff_sec]) (by rw [railsOff_sec])

@[simp] theorem trip_rest (s : State) (kind : Nat) (st : Status) (hw : MayReset may) :
    rest may (trip s kind st) = rest may s := by
  have off (q : State) : rest may (railsOff q) = rest may q := railsOff_rest q hw
  simp [trip, off, hw.spots]

/-- The commands that lose every part of the state may write what a reset reaches. -/
theorem mayReset_of_everyPart {c : Instr} (hc : touched c = everyPart) : MayReset (mayWrite c) := by
  intro x hm ho hk
  cases x
  case minSvn | owner | keyRevoked => contradiction
  case wt => simp only [mayWrite]; split <;> simp [hc]
  all_goals simp [mayWrite, hc, everyPart]

@[simp] theorem execModuleRstNAssert_keepsRest (kept : Bool) (s : State) :
    KeepsRest (mayWrite (.moduleRstNAssert kept)) s (execModuleRstNAssert kept s) := by
  have all : MayReset (mayWrite (.moduleRstNAssert kept)) := mayReset_of_everyPart rfl
  have fresh (q : State) (a : BitVec 3) (b d : Bool) := moduleReset_rest q a b d all
  simp only [execModuleRstNAssert]; split <;> simp [fresh, all.spots]

@[simp] theorem execPowerOn_keepsRest (slot : BitVec 4) (s : State) :
    KeepsRest (mayWrite (.powerOn slot)) s (execPowerOn slot s) := by
  have all : MayReset (mayWrite (.powerOn slot)) := mayReset_of_everyPart rfl
  have fresh (q : State) (keep : Bool) := freshState_rest q keep all
  simp only [execPowerOn]; split <;> simp [fresh, all.spots]

@[simp] theorem execThermalTrip_keepsRest (s : State) : KeepsRest (mayWrite .thermalTrip) s (execThermalTrip s) := by
  have all : MayReset (mayWrite .thermalTrip) := mayReset_of_everyPart rfl
  have off (q : State) (k : Nat) (st : Status) := trip_rest q k st all
  simp only [execThermalTrip]; split <;> simp [off, all.spots]

@[simp] theorem execInputTrip_keepsRest (s : State) : KeepsRest (mayWrite .inputTrip) s (execInputTrip s) := by
  have all : MayReset (mayWrite .inputTrip) := mayReset_of_everyPart rfl
  have off (q : State) (k : Nat) (st : Status) := trip_rest q k st all
  simp only [execInputTrip]; split <;> simp [off, all.spots]

@[simp] theorem execVaoLoss_keepsRest (s : State) : KeepsRest (mayWrite .vaoLoss) s (execVaoLoss s) := by
  have all : MayReset (mayWrite .vaoLoss) := mayReset_of_everyPart rfl
  have fresh (q : State) (keep : Bool) := freshState_rest q keep all
  simp only [execVaoLoss]; split <;> simp [fresh, all.spots]

@[simp] theorem execInputTripRecovery_keepsRest (s : State) :
    KeepsRest (mayWrite .inputTripRecovery) s (execInputTripRecovery s) := by
  have all : MayReset (mayWrite .inputTripRecovery) := mayReset_of_everyPart rfl
  have fresh (q : State) (a : BitVec 3) (b d : Bool) := moduleReset_rest q a b d all
  simp only [execInputTripRecovery]; split <;> simp [fresh, all.spots]

@[simp] theorem execRailFail_keepsRest (rail : BitVec 3) (s : State) :
    KeepsRest (mayWrite (.railFail rail)) s (execRailFail rail s) := by
  have all : MayReset (mayWrite (.railFail rail)) := mayReset_of_everyPart rfl
  have off (q : State) := railsOff_rest q all
  simp only [execRailFail]; split <;> simp [off, all.spots]

@[simp] theorem execParkedExit_keepsRest (loaded : Bool) (s : State) :
    KeepsRest (mayWrite (.parkedExit loaded)) s (execParkedExit loaded s) := by
  have all : MayReset (mayWrite (.parkedExit loaded)) := mayReset_of_everyPart rfl
  have fresh (q : State) (a : BitVec 3) (b d : Bool) := moduleReset_rest q a b d all
  simp only [execParkedExit]; (repeat' split) <;> simp [fresh, all.spots]

/-! ### Counter waits (R390) -/

/-- Less is left where more may be written. -/
theorem rest_mono (h : ∀ x, may' x → may x) {s t : State} (k : rest may' t = rest may' s) :
    rest may t = rest may s := by
  have left (u : State) : rest may (rest may' u) = rest may u := by
    have keep {α : Type} (x : Spot) (d v : α) : (if may x then d else if may' x then d else v) = if may x then d else
        v := by
      by_cases hx : may x = true
      · simp [hx]
      · simp [show may' x = false by simpa using fun h' => hx (h x h')]
    have hif : restHif may (restHif may' u.hif) = restHif may u.hif := by
      by_cases hx : may .hif = true
      · by_cases hx' : may' .hif = true
        · simp [restHif, hx, hx', keep]
        · simp [restHif, hx, hx']
      · simp [restHif, hx, show may' .hif = false by simpa using fun h' => hx (h _ h')]
    have sec : restSec may (restSec may' u.sec) = restSec may u.sec := by
      by_cases hx : may .sec = true
      · by_cases hx' : may' .sec = true
        · simp [restSec, hx, hx', keep]
        · simp [restSec, hx, hx']
      · simp [restSec, hx, show may' .sec = false by simpa using fun h' => hx (h _ h')]
    simp only [rest, keep, hif, sec]
  rw [← left t, ← left s, k]

theorem KeepsRest.mono (h : ∀ x, may' x → may x) {s : State} {r : Res} (k : KeepsRest may' s r) :
    KeepsRest may s r := by
  obtain ⟨t, hr, ht⟩ := k
  exact ⟨t, hr, rest_mono h ht⟩

/-- A counter wait holds ops of many kinds, and the release may write what each of them may. -/
theorem released {loc : OpLoc} {host : List HostLine} {s : State} {c : Instr} {r : Res} (k : KeepsRest (mayWrite c) s
    r)
    (hsub : ∀ p ∈ touched c, p ∈ touched (.counterWaitRelease loc host))
    (hplain : (mayWrite c .wt || mayWrite c .minSvn || mayWrite c .owner || mayWrite c .keyRevoked) = false) :
    KeepsRest (mayWrite (.counterWaitRelease loc host)) s r := by
  simp only [Bool.or_eq_false_iff] at hplain
  obtain ⟨⟨⟨hwt, hmin⟩, hown⟩, hrev⟩ := hplain
  refine k.mono fun x hx => ?_
  cases x
  case wt => simp [hwt] at hx
  case minSvn => simp [hmin] at hx
  case owner => simp [hown] at hx
  case keyRevoked => simp [hrev] at hx
  all_goals exact decide_eq_true (hsub _ (of_decide_eq_true hx))

theorem releaseCore_keepsRest (c : CoreId) (host : List HostLine) (d : Bytes) (s : State) :
    KeepsRest (mayWrite (.counterWaitRelease (.core c) host)) s (releaseCore c host d s) := by
  simp only [releaseCore]; split
  · exact released (execOpNop_keepsRest (.core c) s) (by simp [touched]) rfl
  · exact released (execWait_keepsRest (.core c) s) (by simp [touched]) rfl
  · exact released (execDmaCopy_keepsRest c host s) (by simp [touched]) rfl
  · split
    · exact released (execLpaMatmul_keepsRest c s) (by simp [touched]) rfl
    · exact released (execCoResidentGroup_keepsRest c s) (by simp [touched]) rfl
  · exact released (execCoeStage_keepsRest c host s) (by simp [touched]) rfl
  · exact released (execVeRun_keepsRest c s) (by simp [touched]) rfl
  · exact released (execVeSolve_keepsRest c s) (by simp [touched]) rfl
  · split
    · exact released (execAppend_keepsRest c s) (by simp [touched]) rfl
    · exact released (execFetch_keepsRest c host s) (by simp [touched]) rfl
    · exact released (execPromote_keepsRest c s) (by simp [touched]) rfl
    · exact released (execTruncate_keepsRest c s) (by simp [touched]) rfl
  · simp

theorem releaseIo_keepsRest (loc : OpLoc) (host : List HostLine) (d : Bytes) (s : State) :
    KeepsRest (mayWrite (.counterWaitRelease loc host)) s (releaseIo loc host d s) := by
  simp only [releaseIo]; split
  · exact released (execOpNop_keepsRest loc s) (by simp [touched]) rfl
  · exact released (execWait_keepsRest loc s) (by simp [touched]) rfl
  · split
    · exact released (execMuuCombine_keepsRest loc s) (by simp [touched]) rfl
    · exact released (execMuuPassTwo_keepsRest loc s) (by simp [touched]) rfl
    · exact released (execMuuPassOne_keepsRest loc s) (by simp [touched]) rfl
  · exact released (execPut_keepsRest loc host s) (by simp [touched]) rfl
  · exact released (execGet_keepsRest loc s) (by simp [touched]) rfl
  · exact released (execAwait_keepsRest loc s) (by simp [touched]) rfl
  · exact released (execRoleSet_keepsRest ⟨loc, host⟩ s) (by simp [touched]) rfl
  · cases (List.range 7).find? (fun k => collRow k d) <;> simp [mayWrite, touched]
  · exact released (execTrigArm_keepsRest ⟨loc, host⟩ s) (by simp [touched]) rfl
  · simp

@[simp] theorem execCounterWaitRelease_keepsRest (loc : OpLoc) (host : List HostLine) (s : State) :
    KeepsRest (mayWrite (.counterWaitRelease loc host)) s (execCounterWaitRelease loc host s) := by
  simp only [execCounterWaitRelease]; split
  · simp
  · split
    · simp
    · cases loc with
      | core c => exact releaseCore_keepsRest c host _ s
      | io id ph => exact releaseIo_keepsRest (.io id ph) host _ s

/-! ### Every command -/

/-- Every command answers a next state, and what it may not write is in it as it was. -/
theorem exec_keepsRest (c : Instr) (s : State) : KeepsRest (mayWrite c) s (exec c s) := by
  cases c
  case veNop | mov | cns | lid | lds | sts | gth | sct | sca | fadd | fsub | fmul | ffma | fmnx | fsgn | frcp | frsq
      | fsqt |
    fdiv | fexp | flog | fsig | cvt | iadd | isub | imul | ilog | ishf | imnx | fcmp | icmp | sel | kop | shf | rup |
        rug |
    smn | smb | nrm | rng =>
    simp [exec, execVeNop, execMov, execCns, execLid, execLds, execSts, execGth, execSct, execSca, execFadd, execFsub,
      execFmul, execFfma, execFmnx, execFsgn, execFrcp, execFrsq, execFsqt, execFdiv, execFexp, execFlog, execFsig,
          execCvt,
      execIadd, execIsub, execImul, execIlog, execIshf, execImnx, execFcmp, execIcmp, execSel, execKop, execShf,
          execRup,
      execRug, execSmn, execSmb, execNrm, execRng, mayWrite, touched]
  all_goals simp [exec]

end Sys2Proof.Laws
end

section
/-! PROOFS. Frames of every command; min_svn, the Window Table, the owner and the revoked keys. -/

namespace Sys2Proof.Laws

open Sys2Proof Sys2Proof.Machine
set_option Elab.async false

variable {may : Spot → Bool} {s t : State}

/-! ## What an equal rest says -/

theorem samePart_of_rest (h : rest may t = rest may s) {p : Part} (hp : may (partSpot p) = false) : samePart s t
    p := by
  have same : samePart (rest may s) (rest may t) p := h ▸ samePart_refl _ p
  cases p <;> simp only [partSpot] at hp <;> simpa [samePart, rest, restHif, restSec, hp] using same

theorem wt_of_rest (h : rest may t = rest may s) (hm : may .wt = false) : t.hif.wt = s.hif.wt := by
  have hif : restHif may t.hif = restHif may s.hif := show (rest may t).hif = (rest may s).hif from congrArg _ h
  rw [restHif_eq_iff] at hif
  split at hif
  · simpa [hm] using hif
  · rw [hif]

/-- The protected fields of the security state. -/
theorem sec_of_rest (h : rest may t = rest may s) :
    (may .owner ∨ t.sec.owner = s.sec.owner) ∧ (may .keyRevoked ∨ t.sec.keyRevoked = s.sec.keyRevoked) ∧
    (may .minSvn ∨ t.sec.minSvn = s.sec.minSvn) := by
  have sec : restSec may t.sec = restSec may s.sec := show (rest may t).sec = (rest may s).sec from congrArg _ h
  rw [restSec_eq_iff] at sec
  split at sec
  · exact sec
  · simp [sec]

theorem exec_rest {c : Instr} (hc : exec c s = .next t) : rest (mayWrite c) t = rest (mayWrite c) s := by
  obtain ⟨u, hu, h⟩ := exec_keepsRest c s
  cases hu.symm.trans hc
  exact h

/-- Every part that `touched` does not list is as it was. -/
theorem exec_samePart {c : Instr} (hc : exec c s = .next t) {p : Part} (hp : p ∉ touched c) : samePart s t p :=
  samePart_of_rest (exec_rest hc) (by cases p <;> exact decide_eq_false hp)

/-- Settles O3: every command answers a next state whose rest, with the queue in it, is that of the state it found. -/
theorem commandsLeaveTheQueue : Obligations.CommandsLeaveTheQueue := by
  intro c s
  obtain ⟨t, ht, h⟩ := exec_keepsRest c s
  exact ⟨t, ht, pending_of_rest h⟩

/-- Settles O9: the rest of the state is as it was, all of memory in it. -/
theorem framesWithoutStores : Obligations.FramesWithoutStores := fun _ _ _ hc _ _ hp => exec_samePart hc hp

/-- Settles O10: the rest of the state is as it was. -/
theorem framesWithStores : Obligations.FramesWithStores := fun _ _ _ hc _ _ hp => exec_samePart hc hp

/-! ## min_svn (R498) -/

theorem tick_rest (s : State) (hw : may .nowNs ∧ may .out ∧ may .err ∧ may .pwr) :
    rest may (tick s) = rest may s := by
  simp only [tick]; split <;> simp [hw]

/-- SVN_COMMIT leaves min_svn, or raises it to the running svn. -/
theorem execSvnCommit_minSvn {q : QueueId} (hc : exec (.svnCommit q) s = .next t) :
    t.sec.minSvn = s.sec.minSvn ∨ s.sec.minSvn < s.sec.svn ∧ t.sec.minSvn = s.sec.svn := by
  simp only [exec, execSvnCommit] at hc
  split at hc <;> cases hc
  · exact .inl rfl
  · next f _ =>
    let s1 : State := { s with sec := { s.sec with minSvn := if s.sec.minSvn < s.sec.svn then s.sec.svn else
        s.sec.minSvn } }
    have done : rest (fun x => x != .minSvn && x != .sec) (completeDesc s1 q.toNat f .ok) = rest _ s1 :=
        completeDesc_rest _ _ _ _ (by simp)
    have same : (completeDesc s1 q.toNat f .ok).sec.minSvn = s1.sec.minSvn := (sec_of_rest done).2.2.resolve_left (by
        simp)
    by_cases hlt : s.sec.minSvn < s.sec.svn
    · exact .inr ⟨hlt, by simpa [s1, hlt] using same⟩
    · exact .inl (by simpa [s1, hlt] using same)

/-- Settles O5: min_svn is left as it was by an idle step and by every command but SVN_COMMIT. -/
theorem minSvnNeverFalls : Obligations.MinSvnNeverFalls := by
  intro s t hstep
  have kept (h : t.sec.minSvn = s.sec.minSvn) : s.sec.minSvn ≤ t.sec.minSvn ∧
      (s.sec.minSvn < t.sec.minSvn → ∃ q cs, s.pending = .svnCommit q :: cs ∧ t.sec.minSvn = s.sec.svn) :=
    ⟨h ▸ BitVec.le_refl _, fun hlt => absurd hlt (by simp [h])⟩
  unfold step at hstep
  split at hstep
  · cases hstep
    have idle : rest (fun x => x != .minSvn) (tick s) = rest _ s := tick_rest s (by decide)
    exact kept ((sec_of_rest idle).2.2.resolve_left (by simp))
  · next c cs hp =>
    by_cases hc : ∃ q, c = .svnCommit q
    · obtain ⟨q, rfl⟩ := hc
      obtain h | ⟨hlt, h⟩ := execSvnCommit_minSvn hstep
      · exact kept h
      · exact ⟨h ▸ BitVec.le_of_lt hlt, fun _ => ⟨q, cs, hp, h⟩⟩
    · have plain : mayWrite c .minSvn = false := by
        simp only [mayWrite]; split
        · next q => exact absurd ⟨q, rfl⟩ hc
        · rfl
      exact kept ((sec_of_rest (exec_rest hstep)).2.2.resolve_left (by simp [plain]))

/-! ## The Window Table, the owner and the revoked keys (R493, R498, R504) -/

/-- Everything but the Window Table. -/
def notTable (x : Spot) : Bool := x != .wt

@[simp] theorem notTable_eq_true (x : Spot) (h : x ≠ .wt) : notTable x = true := bne_iff_ne.mpr h

theorem table_of_rest (h : rest notTable t = rest notTable s) : t.hif.wt = s.hif.wt := wt_of_rest h rfl

/-- The next state that a command answers, if any, holds the Window Table as it was, or none. -/
def KeepsOrEmptiesTable (s : State) (r : Res) : Prop := ∀ t, r = .next t → t.hif.wt = s.hif.wt ∨ t.hif.wt = []

theorem keepsTable (h : rest notTable t = rest notTable s) : KeepsOrEmptiesTable s (.next t) :=
  fun _ hu => by cases hu; exact .inl (table_of_rest h)

theorem emptiesTable {u : State} (hu : u.hif.wt = []) (h : rest notTable t = rest notTable u) : KeepsOrEmptiesTable s
    (.next t) :=
  fun _ ht => by cases ht; exact .inr ((table_of_rest h).trans hu)

theorem moduleReset_table (s : State) (cause : BitVec 3) (keep tripOver : Bool) :
    (moduleReset s cause keep tripOver).hif.wt = [] := by
  unfold moduleReset
  have levels (u : State) : rest notTable ([0, 1, 2, 3, 4, 5].foldl (levelAgain s) u) = rest notTable u :=
    foldl_rest (fun v i => by simp) _ u
  exact table_of_rest (levels _)

theorem railsOff_table (s : State) : (railsOff s).hif.wt = [] := by
  simp only [railsOff, keepLocks, freshState, State.reset, HifState.reset]

theorem trip_table (s : State) (kind : Nat) (st : Status) : (trip s kind st).hif.wt = [] := by
  simp only [trip, railsOff_table]

/-- A command that may write every part leaves the Window Table, or empties it. -/
theorem exec_table {c : Instr} (hc : touched c = everyPart) : KeepsOrEmptiesTable s (exec c s) := by
  cases c
  case moduleRstNAssert kept =>
    simp only [exec, execModuleRstNAssert]; split
    · exact fun _ ht => by cases ht; exact .inr (moduleReset_table _ _ _ _)
    · exact keepsTable (by simp)
  case powerOn slot =>
    simp only [exec, execPowerOn]; split
    · exact emptiesTable (u := freshState s false) rfl (by simp)
    · exact keepsTable rfl
  case thermalTrip =>
    simp only [exec, execThermalTrip]; split
    · have pin (u : State) : rest notTable (drivePin u "THERMTRIP_N" true) = rest notTable u := by simp
      intro t ht
      cases ht
      split
      · exact .inr (trip_table s 6 (unnamed 4))
      · exact .inr ((table_of_rest (pin _)).trans (trip_table s 6 (unnamed 4)))
    · exact keepsTable rfl
  case inputTrip =>
    simp only [exec, execInputTrip]; split
    · exact keepsTable rfl
    · exact emptiesTable (trip_table s 7 (unnamed 5)) (by simp)
  case vaoLoss =>
    simp only [exec, execVaoLoss]; split
    · exact keepsTable rfl
    · have fresh : (freshState (quietPins s true) false).hif.wt = [] := rfl
      generalize freshState (quietPins s true) false = u at fresh ⊢
      exact emptiesTable fresh (by simp)
  case inputTripRecovery =>
    simp only [exec, execInputTripRecovery]; split
    · exact emptiesTable (moduleReset_table s 3 false false) (by simp)
    · exact keepsTable rfl
  case railFail rail =>
    simp only [exec, execRailFail]; split
    · exact emptiesTable (railsOff_table (raiseEvent (logFailure s 8 .railFail rail.toNat 0) .railFail 0 0)) (by simp)
    · exact keepsTable rfl
  case parkedExit loaded =>
    simp only [exec, execParkedExit]; (repeat' split)
    · have woken (u : State) : rest notTable ((List.range 16).foldl wakePort u) = rest notTable u :=
        foldl_rest (fun _ _ => by simp) _ u
      exact keepsTable (by simp [woken])
    · exact emptiesTable (moduleReset_table (logFailure s 10 (unnamed 6) 0 0) 4 true false) (by simp)
    · exact keepsTable rfl
  all_goals simp [touched, everyPart] at hc

/-- KEY_REVOCATION_BURN keeps what was revoked, and burns at vendor level only. -/
theorem execKeyRevocationBurn_revokes {k : BitVec 2} (hc : exec (.keyRevocationBurn k) s = .next t) :
    t.sec.keyRevoked = s.sec.keyRevoked ∨
      s.sec.svc = 2 ∧ t.sec.keyRevoked = s.sec.keyRevoked ||| BitVec.ofNat 4 (2 ^ k.toNat) := by
  simp only [exec, execKeyRevocationBurn] at hc
  split at hc <;> cases hc
  · next h => exact .inr ⟨h, rfl⟩
  · exact .inl rfl

/-- Settles O6: of the commands that write `hif` or `sec`, each but the ones named leaves these fields. -/
theorem protectedStateChanges : Obligations.ProtectedStateChanges := by
  intro c s t hc
  obtain ⟨howner, hrevoked, -⟩ := sec_of_rest (exec_rest hc)
  refine ⟨?_, ?_, ?_⟩
  · by_cases hw : mayWrite c .wt = true
    · by_cases hall : touched c = everyPart
      · exact (exec_table hall t hc).imp_right fun h => .inl ⟨h, hall⟩
      · refine .inr (.inr ?_)
        simp only [mayWrite, hall] at hw
        split at hw
        · exact ⟨_, rfl⟩
        · simp at hw
    · exact .inl (wt_of_rest (exec_rest hc) (by simpa using hw))
  · refine howner.symm.imp_right fun hw => ?_
    simp only [mayWrite] at hw
    split at hw
    · exact .inl ⟨_, rfl⟩
    · exact .inr ⟨_, rfl⟩
    · cases hw
  · have burns : t.sec.keyRevoked = s.sec.keyRevoked ∨ ∃ k, c = .keyRevocationBurn k := by
      refine hrevoked.symm.imp_right fun hw => ?_
      simp only [mayWrite] at hw
      split at hw
      · exact ⟨_, rfl⟩
      · cases hw
    obtain same | ⟨k, rfl⟩ := burns
    · exact ⟨fun i hi => same ▸ hi, .inl same⟩
    · obtain same | ⟨hsvc, hk⟩ := execKeyRevocationBurn_revokes hc
      · exact ⟨fun i hi => same ▸ hi, .inl same⟩
      · exact ⟨fun i hi => by rw [hk]; simp [hi], .inr ⟨hsvc, k, rfl⟩⟩

end Sys2Proof.Laws
end

section
/-! PROOFS. Sound states: what a sound part is, soundness as a rewrite rule, and what keeps each map rising. -/

namespace Sys2Proof.Laws

open Sys2Proof Sys2Proof.Machine
set_option Elab.async false

/-! ## What a sound part is -/

/-- The register contexts of a core are sound. -/
@[simp] abbrev CoreSound (c : Core) : Prop :=
  (keysRise c.ctx0.regs = true ∧ keysRise c.ctx0.masks = true) ∧ keysRise c.ctx1.regs = true ∧
      keysRise c.ctx1.masks = true

/-- Every core's register contexts are sound. -/
def CoresSound (m : List (Nat × Core)) : Prop := ∀ p ∈ m, CoreSound p.2

/-- The maps of a collective are sound. -/
@[simp] abbrev CollSound (c : Coll) : Prop := keysRise c.joins = true ∧ keysRise c.arrived = true

/-- The maps of every collective are sound. -/
def CollsSound (l : List Coll) : Prop := ∀ c ∈ l, CollSound c

/-- The maps of a host port are sound. -/
@[simp] abbrev PortSound (x : HostPortState) : Prop := keysRise x.msix = true ∧ keysRise x.pba = true

/-- Every measurement register holds 64 bytes. -/
def MrsSound (m : List (Nat × Bytes)) : Prop := ∀ p ∈ m, p.2.length = 64

/-- `Sound`, part by part. -/
theorem sound_iff (s : State) : Sound s ↔
    Memory.wf s.mem = true ∧ keysRise s.cores = true ∧ CoresSound s.cores ∧ keysRise s.blink = true ∧
    keysRise s.cmd.queues = true ∧ keysRise s.cmd.counters = true ∧ keysRise s.cr.coreAvail = true ∧
    keysRise s.mr.ecc = true ∧ keysRise s.mr.sramBad = true ∧ keysRise s.hif.wt = true ∧
    keysRise s.sec.mrs = true ∧ keysRise s.sec.qctr = true ∧ keysRise s.fw.mbxCtr = true ∧
    keysRise s.fab.ports = true ∧ keysRise s.fab.route = true ∧ keysRise s.fab.epochs = true ∧
    keysRise s.coll.busy = true ∧ keysRise s.coll.nextSeq = true ∧ keysRise s.pwr.side = true ∧
    keysRise s.pwr.gated = true ∧ keysRise s.pwr.lastUse = true ∧ keysRise s.ccm.usedSram = true ∧
    keysRise s.ccm.usedDram = true ∧ keysRise s.ccm.usedHost = true ∧ MrsSound s.sec.mrs ∧ PortSound s.hif.a ∧
    PortSound s.hif.b ∧ CollsSound s.coll.colls := by
  constructor
  · intro h
    have ctx : CoresSound s.cores := fun p hp =>
      ⟨h.contexts p hp p.2.ctx0 (by simp), h.contexts p hp p.2.ctx1 (by simp)⟩
    exact ⟨h.mem, h.cores, ctx, h.blink, h.queues, h.counters, h.coreAvail, h.ecc, h.sramBad, h.windows, h.mrs,
      h.qctr, h.mbxCtr, h.ports, h.route, h.epochs, h.busy, h.nextSeq, h.side, h.gated, h.lastUse, h.usedSram,
      h.usedDram, h.usedHost, h.mrLen, h.msix .a, h.msix .b, h.joins⟩
  · rintro ⟨mem, cores, ctx, blink, queues, counters, coreAvail, ecc, sramBad, wt, mrs, qctr, mbxCtr, ports, route,
      epochs, busy, nextSeq, side, gated, lastUse, usedSram, usedDram, usedHost, len, a, b, colls⟩
    exact {
      mem := mem, cores := cores, blink := blink, queues := queues, counters := counters,
      coreAvail := coreAvail, ecc := ecc, sramBad := sramBad, windows := wt, mrs := mrs, qctr := qctr,
      mbxCtr := mbxCtr, ports := ports, route := route, epochs := epochs, busy := busy, nextSeq := nextSeq,
      side := side, gated := gated, lastUse := lastUse, usedSram := usedSram, usedDram := usedDram,
      usedHost := usedHost, mrLen := len, joins := colls,
      msix := fun p => match p with
        | .a => a
        | .b => b
      contexts := fun p hp => by simpa using ctx p hp }

/-- A state built part by part is sound where each part is. -/
@[simp] theorem sound_mk (pending nowNs freeCount out mem cr cores blink trn mr ccm muu muuRun trnRun cmd hif sec fw
    err pwr rst fab coll) :
    Sound ⟨pending, nowNs, freeCount, out, mem, cr, cores, blink, trn, mr, ccm, muu, muuRun, trnRun, cmd, hif, sec,
        fw, err, pwr, rst, fab, coll⟩ ↔
    Memory.wf mem = true ∧ keysRise cores = true ∧ CoresSound cores ∧ keysRise blink = true ∧
    keysRise cmd.queues = true ∧ keysRise cmd.counters = true ∧ keysRise cr.coreAvail = true ∧
    keysRise mr.ecc = true ∧ keysRise mr.sramBad = true ∧ keysRise hif.wt = true ∧ keysRise sec.mrs = true ∧
    keysRise sec.qctr = true ∧ keysRise fw.mbxCtr = true ∧ keysRise fab.ports = true ∧
    keysRise fab.route = true ∧ keysRise fab.epochs = true ∧ keysRise coll.busy = true ∧
    keysRise coll.nextSeq = true ∧ keysRise pwr.side = true ∧ keysRise pwr.gated = true ∧
    keysRise pwr.lastUse = true ∧ keysRise ccm.usedSram = true ∧ keysRise ccm.usedDram = true ∧
    keysRise ccm.usedHost = true ∧ MrsSound sec.mrs ∧ PortSound hif.a ∧ PortSound hif.b ∧
        CollsSound coll.colls := sound_iff _

/-! ## Soundness as a rewrite rule

An implication `p → q` has the form `q ↔ p ∨ q`, with the second `q` under a name that no rewrite rule looks for. So
    the claim
that the result of several operations is sound is rewritten, one operation at a time, down to the state they started
    from. -/

/-- `Sound` under a second name. -/
def Sounded (s : State) : Prop := Sound s

/-- `keysRise` under a second name. -/
def Rises {α : Type} (m : List (Nat × α)) : Prop := keysRise m = true

/-- `Memory.wf` under a second name. -/
def WfMem (m : Mem) : Prop := Memory.wf m = true

/-- The operation that leads from the first state to the second keeps a sound state sound. -/
@[simp] abbrev KeepsSound (s t : State) : Prop := Sound t ↔ Sound s ∨ Sounded t

theorem or_of_imp_rule {p q : Prop} (h : p → q) : q ↔ p ∨ q := ⟨.inr, fun k => k.elim h id⟩

theorem KeepsSound.of {s t : State} (h : Sound s → Sound t) : KeepsSound s t := or_of_imp_rule h

variable {α β : Type} {d : α} {m : List (Nat × α)} {k : Nat} {v : α}

@[simp] theorem keysRise_smSet_iff [DecidableEq α] :
    keysRise (smSet d m k v) = true ↔ keysRise m = true ∨ Rises (smSet d m k v) := or_of_imp_rule keysRise_smSet

@[simp] theorem keysRise_filter_iff (f : Nat × α → Bool) :
    keysRise (m.filter f) = true ↔ keysRise m = true ∨ Rises (m.filter f) := or_of_imp_rule (keysRise_filter f)

@[simp] theorem keysRise_map_iff (f : Nat × α → β) :
    keysRise (m.map fun p => (p.1, f p)) = true ↔ keysRise m = true ∨ Rises (m.map fun p => (p.1, f p)) :=
  or_of_imp_rule (keysRise_map f)

@[simp] theorem keysRise_nil : keysRise ([] : List (Nat × α)) = true := rfl

theorem keysRise_foldl {f : List (Nat × α) → β → List (Nat × α)} (h : ∀ m x, keysRise m = true → keysRise (f m x) =
    true)
    (l : List β) : ∀ {m}, keysRise m = true → keysRise (l.foldl f m) = true := by
  induction l with
  | nil => exact fun hm => hm
  | cons x xs ih => exact fun hm => ih (h _ x hm)

@[simp] theorem keysRise_foldl_iff {f : List (Nat × α) → β → List (Nat × α)}
    (h : ∀ m x, keysRise m = true → keysRise (f m x) = true) (l : List β) :
    keysRise (l.foldl f m) = true ↔ keysRise m = true ∨ Rises (l.foldl f m) := or_of_imp_rule (keysRise_foldl h l)

@[simp] theorem memFilter_wf_iff (M : Mem) (f : Nat × BitVec 8 → Bool) (g : Nat × Bool → Bool) :
    Memory.wf ⟨M.cells.filter f, M.poison.filter g⟩ = true ↔
      Memory.wf M = true ∨ WfMem ⟨M.cells.filter f, M.poison.filter g⟩ :=
  or_of_imp_rule fun h => wf_iff.mpr ⟨filter_wf f (wf_iff.mp h).1, filter_wf g (wf_iff.mp h).2⟩

@[simp] theorem coresSound_nil : CoresSound [] := fun _ h => by cases h

@[simp] theorem memWrite_wf_iff (M : Mem) (a : Nat) (bs : Bytes) (p : Bool) :
    Memory.wf (memWrite M a bs p) = true ↔ Memory.wf M = true ∨ WfMem (memWrite M a bs p) := or_of_imp_rule
        memWrite_wf

@[simp] theorem poisonSpan_wf_iff (M : Mem) (a n : Nat) :
    Memory.wf (poisonSpan M a n) = true ↔ Memory.wf M = true ∨ WfMem (poisonSpan M a n) := or_of_imp_rule
        poisonSpan_wf

section Parts

variable (s : State)

@[simp] theorem wf_mem : Memory.wf s.mem = true ↔ Sound s ∨ WfMem s.mem := or_of_imp_rule (·.mem)

@[simp] theorem keysRise_cores : keysRise s.cores = true ↔ Sound s ∨ Rises s.cores := or_of_imp_rule (·.cores)

@[simp] theorem keysRise_blink : keysRise s.blink = true ↔ Sound s ∨ Rises s.blink := or_of_imp_rule (·.blink)

@[simp] theorem keysRise_queues : keysRise s.cmd.queues = true ↔ Sound s ∨ Rises s.cmd.queues := or_of_imp_rule
    (·.queues)

@[simp] theorem keysRise_counters : keysRise s.cmd.counters = true ↔ Sound s ∨ Rises s.cmd.counters := or_of_imp_rule
    (·.counters)

@[simp] theorem keysRise_coreAvail : keysRise s.cr.coreAvail = true ↔ Sound s ∨ Rises s.cr.coreAvail :=
    or_of_imp_rule (·.coreAvail)

@[simp] theorem keysRise_ecc : keysRise s.mr.ecc = true ↔ Sound s ∨ Rises s.mr.ecc := or_of_imp_rule (·.ecc)

@[simp] theorem keysRise_sramBad : keysRise s.mr.sramBad = true ↔ Sound s ∨ Rises s.mr.sramBad := or_of_imp_rule
    (·.sramBad)

@[simp] theorem keysRise_wt : keysRise s.hif.wt = true ↔ Sound s ∨ Rises s.hif.wt := or_of_imp_rule (·.windows)

@[simp] theorem keysRise_mrs : keysRise s.sec.mrs = true ↔ Sound s ∨ Rises s.sec.mrs := or_of_imp_rule (·.mrs)

@[simp] theorem keysRise_qctr : keysRise s.sec.qctr = true ↔ Sound s ∨ Rises s.sec.qctr := or_of_imp_rule (·.qctr)

@[simp] theorem keysRise_mbxCtr : keysRise s.fw.mbxCtr = true ↔ Sound s ∨ Rises s.fw.mbxCtr := or_of_imp_rule
    (·.mbxCtr)

@[simp] theorem keysRise_ports : keysRise s.fab.ports = true ↔ Sound s ∨ Rises s.fab.ports := or_of_imp_rule (·.ports)

@[simp] theorem keysRise_route : keysRise s.fab.route = true ↔ Sound s ∨ Rises s.fab.route := or_of_imp_rule (·.route)

@[simp] theorem keysRise_epochs : keysRise s.fab.epochs = true ↔ Sound s ∨ Rises s.fab.epochs := or_of_imp_rule
    (·.epochs)

@[simp] theorem keysRise_busy : keysRise s.coll.busy = true ↔ Sound s ∨ Rises s.coll.busy := or_of_imp_rule (·.busy)

@[simp] theorem keysRise_nextSeq : keysRise s.coll.nextSeq = true ↔ Sound s ∨ Rises s.coll.nextSeq := or_of_imp_rule
    (·.nextSeq)

@[simp] theorem keysRise_side : keysRise s.pwr.side = true ↔ Sound s ∨ Rises s.pwr.side := or_of_imp_rule (·.side)

@[simp] theorem keysRise_gated : keysRise s.pwr.gated = true ↔ Sound s ∨ Rises s.pwr.gated := or_of_imp_rule (·.gated)

@[simp] theorem keysRise_lastUse : keysRise s.pwr.lastUse = true ↔ Sound s ∨ Rises s.pwr.lastUse := or_of_imp_rule
    (·.lastUse)

@[simp] theorem keysRise_usedSram : keysRise s.ccm.usedSram = true ↔ Sound s ∨ Rises s.ccm.usedSram := or_of_imp_rule
    (·.usedSram)

@[simp] theorem keysRise_usedDram : keysRise s.ccm.usedDram = true ↔ Sound s ∨ Rises s.ccm.usedDram := or_of_imp_rule
    (·.usedDram)

@[simp] theorem keysRise_usedHost : keysRise s.ccm.usedHost = true ↔ Sound s ∨ Rises s.ccm.usedHost := or_of_imp_rule
    (·.usedHost)

/-- `CoresSound` under a second name. -/
def CoresRise (m : List (Nat × Core)) : Prop := CoresSound m

@[simp] theorem coresSound_cores : CoresSound s.cores ↔ Sound s ∨ CoresRise s.cores :=
  or_of_imp_rule fun h => ((sound_iff s).mp h).2.2.1

/-- `CollsSound` under a second name. -/
def CollsRise (l : List Coll) : Prop := CollsSound l

@[simp] theorem collsSound_colls : CollsSound s.coll.colls ↔ Sound s ∨ CollsRise s.coll.colls := or_of_imp_rule
    (·.joins)

/-- `MrsSound` under a second name. -/
def MrsFill (m : List (Nat × Bytes)) : Prop := MrsSound m

@[simp] theorem mrsSound_mrs : MrsSound s.sec.mrs ↔ Sound s ∨ MrsFill s.sec.mrs := or_of_imp_rule (·.mrLen)

@[simp] theorem keysRise_port_msix (p : HPort) :
    keysRise (getPort s p).msix = true ↔ Sound s ∨ Rises (getPort s p).msix := or_of_imp_rule fun h => (h.msix p).1

@[simp] theorem keysRise_port_pba (p : HPort) :
    keysRise (getPort s p).pba = true ↔ Sound s ∨ Rises (getPort s p).pba := or_of_imp_rule fun h => (h.msix p).2

@[simp] theorem keysRise_a_msix : keysRise s.hif.a.msix = true ↔ Sound s ∨ Rises s.hif.a.msix :=
  or_of_imp_rule fun h => (h.msix .a).1

@[simp] theorem keysRise_a_pba : keysRise s.hif.a.pba = true ↔ Sound s ∨ Rises s.hif.a.pba :=
  or_of_imp_rule fun h => (h.msix .a).2

@[simp] theorem keysRise_b_msix : keysRise s.hif.b.msix = true ↔ Sound s ∨ Rises s.hif.b.msix :=
  or_of_imp_rule fun h => (h.msix .b).1

@[simp] theorem keysRise_b_pba : keysRise s.hif.b.pba = true ↔ Sound s ∨ Rises s.hif.b.pba :=
  or_of_imp_rule fun h => (h.msix .b).2

theorem smGet_mem_or [DecidableEq α] : smGet d m k = d ∨ (k, smGet d m k) ∈ m := by
  induction m with
  | nil => exact .inl rfl
  | cons p xs ih =>
    obtain ⟨j, w⟩ := p
    by_cases hj : j = k
    · exact .inr (by simp [smGet, hj])
    · simpa [smGet, hj, Ne.symm hj] using ih

@[simp] theorem idle_regs0 : Core.idle.ctx0.regs = [] := rfl

@[simp] theorem idle_masks0 : Core.idle.ctx0.masks = [] := rfl

@[simp] theorem idle_regs1 : Core.idle.ctx1.regs = [] := rfl

@[simp] theorem idle_masks1 : Core.idle.ctx1.masks = [] := rfl

/-- Register contexts of a core of a sound state, that of an idle one too, are sound. -/
theorem coreSound_getCore {s : State} (h : Sound s) (n : Nat) : CoreSound (getCore s n) := by
  obtain hd | hm := smGet_mem_or (d := Core.idle) (m := s.cores) (k := n)
  · rw [getCore, hd]; decide
  · exact ((sound_iff s).mp h).2.2.1 _ hm

@[simp] theorem keysRise_core_regs0 (n : Nat) :
    keysRise (getCore s n).ctx0.regs = true ↔ Sound s ∨ Rises (getCore s n).ctx0.regs :=
  or_of_imp_rule fun h => (coreSound_getCore h n).1.1

@[simp] theorem keysRise_core_masks0 (n : Nat) :
    keysRise (getCore s n).ctx0.masks = true ↔ Sound s ∨ Rises (getCore s n).ctx0.masks :=
  or_of_imp_rule fun h => (coreSound_getCore h n).1.2

@[simp] theorem keysRise_core_regs1 (n : Nat) :
    keysRise (getCore s n).ctx1.regs = true ↔ Sound s ∨ Rises (getCore s n).ctx1.regs :=
  or_of_imp_rule fun h => (coreSound_getCore h n).2.1

@[simp] theorem keysRise_core_masks1 (n : Nat) :
    keysRise (getCore s n).ctx1.masks = true ↔ Sound s ∨ Rises (getCore s n).ctx1.masks :=
  or_of_imp_rule fun h => (coreSound_getCore h n).2.2

end Parts

/-! ## Setters -/

/-- A setter keeps a state sound where the part that it puts in is sound. -/
theorem or_of_imp_and {p q r : Prop} (h : p → q → r) : r ↔ p ∧ q ∨ r := ⟨.inr, fun k => k.elim (fun x => h x.1 x.2)
    id⟩

@[simp] theorem setCore_sound (s : State) (n : Nat) (c : Core) :
    Sound (setCore s n c) ↔ Sound s ∧ CoreSound c ∨ Sounded (setCore s n c) := or_of_imp_and fun h hc => by
  have cores : CoresSound (smSet Core.idle s.cores n c) := fun p hp => by
    obtain rfl | hp := mem_smSet hp
    · exact hc
    · exact ((sound_iff s).mp h).2.2.1 p hp
  simp [setCore, h, cores]

@[simp] theorem setPort_sound (s : State) (p : HPort) (x : HostPortState) :
    Sound (setPort s p x) ↔ Sound s ∧ PortSound x ∨ Sounded (setPort s p x) := or_of_imp_and fun h hx => by
  cases p <;> simp [setPort, h, hx.1, hx.2]

@[simp] theorem setMem_sound (s : State) (m : Mem) :
    Sound (setMem s m) ↔ Sound s ∧ Memory.wf m = true ∨ Sounded (setMem s m) := or_of_imp_and fun h hm => by
  simp [setMem, h, hm]

@[simp] theorem modColl_sound (s : State) (id : Nat) {f : Coll → Coll} (hf : ∀ c, CollSound c → CollSound (f c)) :
    KeepsSound s (modColl s id f) := .of fun h => by
  have colls : CollsSound (s.coll.colls.map fun c => if c.id = id then f c else c) := fun c hc => by
    obtain ⟨c, hm, rfl⟩ := List.mem_map.mp hc
    have hc : CollSound c := h.joins c hm
    split
    · exact hf c hc
    · exact hc
  simp [modColl, h, colls]

@[simp] theorem extendMr_sound (s : State) (i t : Nat) (x : Bytes) :
    KeepsSound s (extendMr s i t x) := .of fun h => by
  have filled (v : Bytes) (hv : v.length = 64) : MrsSound (smSet (zeroBytes 64) s.sec.mrs i v) := fun p hp => by
    obtain rfl | hp := mem_smSet hp
    · exact hv
    · exact h.mrLen p hp
  simp [extendMr, h, filled]

/-! ## Conditionals, folds and results -/

@[simp] theorem sound_ite (c : Prop) [Decidable c] (s t : State) :
    Sound (if c then s else t) ↔ if c then Sound s else Sound t := by split <;> rfl

theorem foldl_imp {γ : Type} {P : γ → Prop} {f : γ → α → γ} (h : ∀ s x, P s → P (f s x)) (l : List α) :
    ∀ {s}, P s → P (l.foldl f s) := by
  induction l with
  | nil => exact fun hs => hs
  | cons x xs ih => exact fun hs => ih (h _ x hs)

/-- A fold whose every step keeps a sound state sound. -/
@[simp] theorem foldl_sound {f : State → α → State} (h : ∀ s x, Sound s → Sound (f s x)) (l : List α) (s : State) :
    KeepsSound s (l.foldl f s) := .of (foldl_imp h l)

theorem sound_foldl {f : State → α → State} (h : ∀ s x, Sound s → Sound (f s x))
    (l : List α) {s : State} (hs : Sound s) :
    Sound (l.foldl f s) := foldl_imp h l hs

@[simp] theorem foldl_fst_sound {f : State × β → α → State × β} (h : ∀ x a, Sound x.1 → Sound (f x a).1) (l : List α)
    (x : State × β) : KeepsSound x.1 (l.foldl f x).1 := .of (foldl_imp (P := fun y : State × β => Sound y.1) h l)

@[simp] theorem foldl_view_sound {f : View → α → View} (h : ∀ v x, Sound v.s → Sound (f v x).s) (l : List α)
    (v : View) : KeepsSound v.s (l.foldl f v).s := .of (foldl_imp (P := fun y : View => Sound y.s) h l)

/-- The next state that a command answers, if it answers one, is sound. -/
def SoundNext (r : Res) : Prop := ∀ t, r = .next t → Sound t

@[simp] theorem soundNext_next (s : State) : SoundNext (.next s) ↔ Sound s :=
  ⟨fun h => h s rfl, fun h _ e => by cases e; exact h⟩

theorem soundNext_ite {r q : Res} (c : Prop) [Decidable c] (hr : SoundNext r) (hq : SoundNext q) :
    SoundNext (if c then r else q) := by
  split <;> assumption

/-! ## Writers of memory (R70, R74 to R90) -/

variable {M : Mem}

theorem foldl_wf {f : Mem → α → Mem} (h : ∀ m x, Memory.wf m = true → Memory.wf (f m x) = true) (l : List α)
    (hM : Memory.wf M = true) : Memory.wf (l.foldl f M) = true := foldl_imp (P := fun m => Memory.wf m = true) h l hM

theorem writeRow_wf (h : Memory.wf M = true) (mt : Mat) (r : Nat) (es : List (Nat × Nat × Bool)) :
    Memory.wf (writeRow M mt r es) = true := by
  unfold writeRow; split
  · exact h
  · refine foldl_wf (fun m e hm => ?_) _ (memWrite_wf h)
    split
    · exact poisonSpan_wf hm
    · exact hm

theorem writeElems_wf (h : Memory.wf M = true) (mt : Mat) (es : List OutElem) : Memory.wf (writeElems M mt es) = true
    :=
  foldl_wf (fun _ _ hm => writeRow_wf hm _ _ _) _ h

theorem writePadding_wf (h : Memory.wf M = true) (mt : Mat) (rows cols : Nat) (rs cs : List Nat) :
    Memory.wf (writePadding M mt rows cols rs cs) = true :=
  foldl_wf (fun _ _ hm => writeRow_wf hm _ _ _) _ h

theorem writeScales_wf (h : Memory.wf M = true) (mt : Mat) (bs : List OutBlk) : Memory.wf (writeScales M mt bs) =
    true := by
  simp only [writeScales]; split
  · refine foldl_wf (fun m b hm => ?_) _ h
    split
    · exact hm
    · split
      · exact memWrite_wf (memWrite_wf hm)
      · exact memWrite_wf hm
  · exact h

theorem writeSides_wf (h : Memory.wf M = true) (sums outl : Option (Nat × Nat)) (bs : List OutBlk) :
    Memory.wf (writeSides M sums outl bs) = true := by
  refine foldl_wf (fun m b hm => ?_) _ h
  cases sums <;> cases outl <;> simp only [memWrite_wf, hm]

theorem coeWrite_wf (h : Memory.wf M = true) (p : CoeParm) (rd : OperandRec) (o : OcsRec) (out : OutSet)
    (core : Nat) :
    Memory.wf (coeWrite p rd o out M core) = true :=
  writeSides_wf (writeScales_wf (writePadding_wf (writeElems_wf h _ _) _ _ _ _ _) _ _) _ _ _

@[simp] theorem writeElems_wf_iff (mt : Mat) (es : List OutElem) :
    Memory.wf (writeElems M mt es) = true ↔ Memory.wf M = true ∨ WfMem (writeElems M mt es) :=
  or_of_imp_rule fun h => writeElems_wf h _ _

@[simp] theorem writePadding_wf_iff (mt : Mat) (rows cols : Nat) (rs cs : List Nat) :
    Memory.wf (writePadding M mt rows cols rs cs) = true ↔ Memory.wf M = true ∨ WfMem (writePadding M mt rows cols rs
        cs) :=
  or_of_imp_rule fun h => writePadding_wf h _ _ _ _ _

@[simp] theorem writeScales_wf_iff (mt : Mat) (bs : List OutBlk) :
    Memory.wf (writeScales M mt bs) = true ↔ Memory.wf M = true ∨ WfMem (writeScales M mt bs) :=
  or_of_imp_rule fun h => writeScales_wf h _ _

@[simp] theorem writeSides_wf_iff (sums outl : Option (Nat × Nat)) (bs : List OutBlk) :
    Memory.wf (writeSides M sums outl bs) = true ↔ Memory.wf M = true ∨ WfMem (writeSides M sums outl bs) :=
  or_of_imp_rule fun h => writeSides_wf h _ _ _

end Sys2Proof.Laws
end

section
/-! PROOFS. Sound states through the operations on memory, cores, counters and the units of a core. -/

namespace Sys2Proof.Laws

open Sys2Proof Sys2Proof.Machine
set_option Elab.async false

/-! ### Memory, cores, counters and core lists -/

@[simp] theorem setPoison_wf_iff (M : Mem) (l : Nat) (p : Bool) :
    Memory.wf (setPoison M l p) = true ↔ Memory.wf M = true ∨ WfMem (setPoison M l p) := or_of_imp_rule setPoison_wf

@[simp] theorem advanceList_ctx0 (c : Core) (k : Nat) : (advanceList c k).ctx0 = c.ctx0 := by
  simp only [advanceList]; split <;> rfl

@[simp] theorem advanceList_ctx1 (c : Core) (k : Nat) : (advanceList c k).ctx1 = c.ctx1 := by
  simp only [advanceList]; split <;> rfl

@[simp] theorem write_sound (s : State) (r : Reach) (a : Nat) (bs : Bytes) (poison : Bool) :
    KeepsSound s (write s r a bs poison) := .of fun h => by
  simp only [write]; split <;> simp [h]

@[simp] theorem coreWrite_sound (s : State) (n off : Nat) (bs : Bytes) (poison : Bool) :
    KeepsSound s (coreWrite s n off bs poison) := .of fun h => by
  simp only [coreWrite]; (repeat' split) <;> simp [h]

@[simp] theorem touchCluster_sound (s : State) (c : Nat) : KeepsSound s (touchCluster s c) := .of fun h => by
  simp [touchCluster, h]

@[simp] theorem touch_sound (s : State) (a : Nat) : KeepsSound s (touch s a) := .of fun h => by
  simp only [touch]; (repeat' split) <;> simp [h]

@[simp] theorem emit_sound (s : State) (o : Output) : KeepsSound s (emit s o) := .of fun h => by
  simp [emit, h]

@[simp] theorem freeDraw_sound (s : State) : KeepsSound s (freeDraw s).1 := .of fun h => by
  simp [freeDraw, h]

@[simp] theorem modStream_sound (s : State) (id : Nat) (f : StreamRun → StreamRun) :
    KeepsSound s (modStream s id f) := .of fun h => by
  simp [modStream, h]

@[simp] theorem modPhase_sound (s : State) (id p : Nat) (f : PhaseRun → PhaseRun) :
    KeepsSound s (modPhase s id p f) := .of fun h => by
  simp [modPhase, h]

@[simp] theorem noteStatus_sound (s : State) (id p : Nat) (st : Status) :
    KeepsSound s (noteStatus s id p st) := .of fun h => by
  simp only [noteStatus]; (repeat' split) <;> simp [h]

@[simp] theorem blameMember_sound (s x : State) (id p prob : Nat) (st : Status) :
    KeepsSound x (blameMember s x id p prob st) := .of fun h => by
  simp only [blameMember]; split <;> simp [h]

@[simp] theorem setCounter_sound (s : State) (c : Nat) (v : BitVec 32) :
    KeepsSound s (setCounter s c v) := .of fun h => by
  simp [setCounter, h]

@[simp] theorem counterSeen_sound (s : State) (c : Nat) : KeepsSound s (counterSeen s c) := .of fun h => by
  simp [counterSeen, h]

@[simp] theorem bumpCounter_sound (s : State) (c : Nat) : KeepsSound s (bumpCounter s c) := .of fun h => by
  simp [bumpCounter, h]

@[simp] theorem signal_sound (s : State) (id : Nat) (d : Bytes) : KeepsSound s (signal s id d) := .of fun h => by
  simp only [signal]; (repeat' split) <;> simp [h]

@[simp] theorem retireSvc_sound (s : State) (n : Nat) : KeepsSound s (retireSvc s n) := .of fun h => by
  simp only [retireSvc]; (repeat' split) <;> simp [h]

@[simp] theorem retireList_sound (s : State) (n : Nat) : KeepsSound s (retireList s n) := .of fun h => by
  simp only [retireList]; (repeat' split) <;> simp [h]

@[simp] theorem finishOp_sound (s : State) (n : Nat) (t : Token) (d : Bytes) (st : Status) :
    KeepsSound s (finishOp s n t d st) := .of fun h => by
  simp [finishOp, h]

@[simp] theorem passOps_sound (s : State) (n k : Nat) : KeepsSound s (passOps s n k) := .of fun h => by
  simp [passOps, h]

@[simp] theorem rejectOp_sound (s : State) (n : Nat) (o : NextOp) (st : Status) :
    KeepsSound s (rejectOp s n o st) := .of fun h => by
  simp [rejectOp, h]

@[simp] theorem photUpdate_sound (s : State) (base layer : Nat) (p : Phot) (clip : Bool) :
    KeepsSound s (photUpdate s base layer p clip) := .of fun h => by
  simp only [photUpdate]; (repeat' split) <;> simp [h]

/-! ### Events and the failure log (chapter 19) -/

@[simp] theorem setQueue_sound (s : State) (q : Nat) (x : Queue) : KeepsSound s (setQueue s q x) := .of fun h => by
  simp [setQueue, h]

@[simp] theorem sendMsix_sound (s : State) (p : HPort) (v : Nat) : KeepsSound s (sendMsix s p v) := .of fun h => by
  simp only [sendMsix]; (repeat' split) <;> simp [h]

@[simp] theorem evDrop_sound (s : State) : KeepsSound s (evDrop s) := .of fun h => by
  simp [evDrop, h]

@[simp] theorem sendRead_sound (s : State) (p : HPort) (addr len : Nat) (w : ReadFor) :
    KeepsSound s (sendRead s p addr len w) := .of fun h => by
  simp [sendRead, h]

@[simp] theorem issueRead_sound (s : State) (p : HPort) (addr len : Nat) (w : ReadFor) :
    KeepsSound s (issueRead s p addr len w) := .of fun h => by
  simp only [issueRead]; (repeat' split) <;> simp [h]

@[simp] theorem refillRead_sound (s : State) (p : HPort) : KeepsSound s (refillRead s p) := .of fun h => by
  simp only [refillRead]; split <;> simp [h]

@[simp] theorem toRing_sound (s : State) (rec : Bytes) (p : HPort) : KeepsSound s (toRing s rec p) := .of fun h => by
  simp only [toRing]; (repeat' split) <;> simp [h]

@[simp] theorem deliver_sound (s : State) (rec : Bytes) (ports : List HPort) :
    KeepsSound s (deliver s rec ports) := .of fun h => by
  simp only [deliver]; (repeat' split) <;> simp +contextual [h]

@[simp] theorem ringWrite_sound (s : State) (p : HPort) (rec headWord : Bytes) :
    KeepsSound s (ringWrite s p rec headWord) := .of fun h => by
  simp only [ringWrite]; (repeat' split) <;> simp [h]

@[simp] theorem emitEvent_sound (s : State) (st : Status) (source unit count first : Nat) (coalesced : Bool)
    (detail : Bytes) : KeepsSound s (emitEvent s st source unit count first coalesced detail) := .of fun h => by
  simp only [emitEvent]; (repeat' split) <;> simp [h]

@[simp] theorem dropWindow_sound (s : State) (st : Status) (source unit : Nat) :
    KeepsSound s (dropWindow s st source unit) := .of fun h => by
  simp [dropWindow, h]

@[simp] theorem flushWindow_sound (s : State) (w : EventWindow) : KeepsSound s (flushWindow s w) := .of fun h => by
  simp only [flushWindow]; (repeat' split) <;> simp [h]

@[simp] theorem raiseEvent_sound (s : State) (st : Status) (source unit : Nat) (detail : Bytes) :
    KeepsSound s (raiseEvent s st source unit detail) := .of fun h => by
  simp only [raiseEvent]; (repeat' split) <;> simp [h]

@[simp] theorem execCoalesceWindowEnd_sound (status : BitVec 16) (source : BitVec 8) (unit : BitVec 16)
    (s : State) (h : Sound s) :
    SoundNext (execCoalesceWindowEnd status source unit s) := by
  simp only [execCoalesceWindowEnd]; (repeat' split) <;> simp [h]

@[simp] theorem logFailure_sound (s : State) (kind : Nat) (st : Status) (unit addr : Nat) :
    KeepsSound s (logFailure s kind st unit addr) := .of fun h => by
  simp only [logFailure]; (repeat' split) <;> simp [h]

/-! ### Checked accesses (chapters 10 and 15) -/

@[simp] theorem denyLine_sound (s : State) (init : Nat) (write : Bool) (a : Nat) :
    KeepsSound s (denyLine s init write a) := .of fun h => by
  simp [denyLine, h]

@[simp] theorem noteCorrected_sound (s : State) (n : BitVec 32) (source unit a : Nat) :
    KeepsSound s (noteCorrected s n source unit a) := .of fun h => by
  simp only [noteCorrected]; split <;> simp [h]

@[simp] theorem meetErr_sound (s : State) (a : Nat) (e : LineErr) : KeepsSound s (meetErr s a e) := .of fun h => by
  simp only [meetErr]; split <;> simp [h]

@[simp] theorem demandWith_sound (host : List HostLine) (s : State) (a : Nat) :
    KeepsSound s (demandWith host s a) := .of fun h => by
  simp only [demandWith]; split <;> simp [h]

@[simp] theorem demandLine_sound (s : State) (a : Nat) : KeepsSound s (demandLine s a) := .of fun h => by
  simp only [demandLine]; split <;> simp [h]

@[simp] theorem demandRead_sound (s : State) (a n : Nat) : KeepsSound s (demandRead s a n) := .of fun h => by
  simp only [demandRead]; split <;> simp +contextual [h]

@[simp] theorem viewLine_sound (init : Nat) (r : Reach) (host : List HostLine) (v : View) (a : Nat) :
    KeepsSound v.s (viewLine init r host v a).s := .of fun h => by
  simp only [viewLine]; (repeat' split) <;> simp [h]

@[simp] theorem viewSpan_sound (init : Nat) (r : Reach) (host : List HostLine) (v : View) (a n : Nat) :
    KeepsSound v.s (viewSpan init r host v a n).s := .of fun h => by
  simp +contextual [viewSpan, h]

@[simp] theorem writeLine_sound (init : Nat) (r : Reach) (a : Nat) (bs : Bytes) (poison : Nat → Bool)
    (x : State × Option Status) (l : Nat) : KeepsSound x.1 (writeLine init r a bs poison x l).1 := .of fun h => by
  simp only [writeLine]; (repeat' split) <;> simp [h]

@[simp] theorem writeSpan_sound (s : State) (init : Nat) (r : Reach) (a : Nat) (bs : Bytes) (poison : Nat → Bool) :
    KeepsSound s (writeSpan s init r a bs poison).1 := .of fun h => by
  simp +contextual [writeSpan, h]

@[simp] theorem copySpan_sound (m : Mem) (s : State) (init : Nat) (r : Reach) (src dst len : Nat) :
    KeepsSound s (copySpan m s init r src dst len).1 := .of fun h => by
  simp [copySpan, h]

@[simp] theorem wakeUp_sound (s : State) : KeepsSound s (wakeUp s) := .of fun h => by
  simp only [wakeUp]; split <;> simp [h]

@[simp] theorem holdAccess_sound (s : State) (h : HeldAccess) : KeepsSound s (holdAccess s h) := .of fun h => by
  simp [holdAccess, h]

@[simp] theorem hostSetup_sound {act : State → State} (ha : ∀ x, Sound x → Sound (act x)) (s : State) (p : HPort)
    (off size value : Nat) : KeepsSound s (hostSetup s p off size value act) := .of fun h => by
  simp only [hostSetup]; split
  · exact ha s h
  · simp [h]
  · exact h

/-! ### Log-Product Arrays (chapter 04) -/

@[simp] theorem loadAhead_sound (s : State) (n : Nat) (r : LpaRun) (j : Nat) :
    KeepsSound s (loadAhead s n r j) := .of fun h => by
  simp only [loadAhead]; (repeat' split) <;> simp [h]

@[simp] theorem execWeightTileReady_sound (core : CoreId) (array : BitVec 2) (s : State) (h : Sound s) :
    SoundNext (execWeightTileReady core array s) := by
  simp only [execWeightTileReady]; (repeat' split) <;> simp [h]

@[simp] theorem startLpa_sound (s : State) (n : Nat) (o : NextOp) (ds : List Bytes) :
    KeepsSound s (startLpa s n o ds) := .of fun h => by
  simp [startLpa, h]

@[simp] theorem rejectGroup_sound (s : State) (n : Nat) (o : NextOp) (ds : List Bytes) (st : Status) :
    KeepsSound s (rejectGroup s n o ds st) := .of fun h => by
  simp +contextual [rejectGroup, h]

@[simp] theorem runPlan_sound (s : State) (n : Nat) (o : NextOp) (plan : LpaPlan) :
    KeepsSound s (runPlan s n o plan) := .of fun h => by
  simp only [runPlan]; (repeat' split) <;> simp [h]

@[simp] theorem beginLpa_sound (n : Nat) (s : State) : KeepsSound s (beginLpa n s) := .of fun h => by
  simp only [beginLpa]; (repeat' split) <;> simp [h]

@[simp] theorem beginGroup_sound (n : Nat) (s : State) : KeepsSound s (beginGroup n s) := .of fun h => by
  simp only [beginGroup]; (repeat' split) <;> simp [h]

@[simp] theorem drainPlate_sound (s : State) (n : Nat) (r : LpaRun) (j : PlateJob) (mb : LpaMember) :
    KeepsSound s (drainPlate s n r j mb) := .of fun h => by
  simp only [drainPlate]; (repeat' split) <;> simp [h]

@[simp] theorem reserveEntries_sound (s : State) (n : Nat) : KeepsSound s (reserveEntries s n) := .of fun h => by
  simp only [reserveEntries]; split <;> simp [h]

@[simp] theorem drainOcs_sound (s : State) (n ocs fuel : Nat) :
    KeepsSound s (drainOcs s n ocs fuel) := .of fun h => by
  induction fuel generalizing s with
  | zero => exact h
  | succ fuel ih => simp only [drainOcs]; (repeat' split) <;> simp [ih, h]

@[simp] theorem drainBanks_sound (s : State) (n : Nat) : KeepsSound s (drainBanks s n) := .of fun h => by
  simp [drainBanks, h]

@[simp] theorem execRowBlockDone_sound (core : CoreId) (s : State) (h : Sound s) :
    SoundNext (execRowBlockDone core s) := by
  simp only [execRowBlockDone]; (repeat' split) <;> simp [h]

@[simp] theorem execPlateHoldRelease_sound (core : CoreId) (s : State) (h : Sound s) :
    SoundNext (execPlateHoldRelease core s) := by
  simp [execPlateHoldRelease, h]

@[simp] theorem poisonPlate_sound (s : State) (n : Nat) (p : LpaParm) (mb : LpaMember) (imag : Bool) (blk j : Nat) :
    KeepsSound s (poisonPlate s n p mb imag blk j) := .of fun h => by
  simp only [poisonPlate]; split
  · refine (setMem_sound _ _).mpr (.inl ⟨h, foldl_wf (fun m i hm => foldl_wf (fun m c hm => ?_) _ hm) _ h.mem⟩)
    exact foldl_wf (fun _ _ hx => poisonSpan_wf hx) _ (poisonSpan_wf hm)
  · exact h

@[simp] theorem poisonRest_sound (s : State) (n : Nat) (r : LpaRun) :
    KeepsSound s (poisonRest s n r) := .of fun h => by
  refine sound_foldl (fun a i ha => by simp +contextual [ha]) _ (sound_foldl (fun a j ha => ?_) _ h)
  split <;> simp [ha]

@[simp] theorem countMember_sound (s : State) (r : LpaRun) (z : LpaMember × Nat) (st : Status) :
    KeepsSound s (countMember s r z st) := .of fun h => by
  simp only [countMember]; split <;> simp [h]

@[simp] theorem countEnded_sound (s : State) (r : LpaRun) : KeepsSound s (countEnded s r) := .of fun h => by
  simp +contextual [countEnded, h]

@[simp] theorem endMembers_sound (s : State) (n : Nat) (r : LpaRun) (status : LpaMember → Status) :
    KeepsSound s (endMembers s n r status) := .of fun h => by
  simp +contextual [endMembers, h]

@[simp] theorem completeLpa_sound (s : State) (n : Nat) : KeepsSound s (completeLpa s n) := .of fun h => by
  simp only [completeLpa]; (repeat' split) <;> simp [h]

@[simp] theorem endStalled_sound (n : Nat) (s : State) : KeepsSound s (endStalled n s) := .of fun h => by
  simp only [endStalled]; (repeat' split) <;> simp [h]

/-! ### The Coelostat (chapter 06) -/

@[simp] theorem coeRun_sound (s : State) (n : Nat) (o : NextOp) (host : List HostLine) :
    KeepsSound s (coeRun s n o host) := .of fun h => by
  unfold coeRun
  extract_lets p src rd ax v t fd es spec dr key given out s1 m bad clip st cr s2 s3 run
  have h1 : Sound s1 := foldl_imp (P := fun w : View => Sound w.s)
    (fun w x hw => foldl_imp (P := fun w : View => Sound w.s) (fun w i hw => by simp [hw]) _ hw) _ h
  have h2 : Sound s2 := (setMem_sound _ _).mpr
    (.inl ⟨by simp [h1, cr], foldl_wf (fun m core hm => coeWrite_wf hm _ _ _ _ _) _ h1.mem⟩)
  have h3 : Sound s3 := by simp [s3, h2]
  clear_value s3
  exact (setCore_sound _ _ _).mpr (.inl ⟨h3, coreSound_getCore h3 n⟩)

@[simp] theorem execCoeStage_sound (core : CoreId) (host : List HostLine) (s : State) (h : Sound s) :
    SoundNext (execCoeStage core host s) := by
  simp only [execCoeStage]; (repeat' split) <;> simp [h]

@[simp] theorem countCoe_sound (s : State) (r : OpRun) (st : Status) :
    KeepsSound s (countCoe s r st) := .of fun h => by
  simp [countCoe, h]

@[simp] theorem completeCoe_sound (s : State) (n : Nat) : KeepsSound s (completeCoe s n) := .of fun h => by
  simp only [completeCoe]; (repeat' split) <;> simp [h]

/-! ### Blink (chapter 06) -/

@[simp] theorem ladderUpdate_sound (s : State) (entry : Option Nat) (f : Bytes → Bytes) :
    KeepsSound s (ladderUpdate s entry f) := .of fun h => by
  simp only [ladderUpdate]; (repeat' split) <;> simp [h]

@[simp] theorem execBlinkSample_sound (cluster : ClusterId) (host : List HostLine) (s : State) (h : Sound s) :
    SoundNext (execBlinkSample cluster host s) := by
  simp only [execBlinkSample]; split <;> simp +contextual [h]

/-! ### The Vector Engine (chapter 07) -/

/-- A register context whose maps are sound. -/
@[simp] abbrev CtxSound (x : VeCtx) : Prop := keysRise x.regs = true ∧ keysRise x.masks = true

/-- A running VE op whose state and register context are sound. -/
def EnvSound (e : VeEnv) : Prop := Sound e.s ∧ CtxSound e.c

@[simp] theorem envSound_mk (s : State) (n : Nat) (v : VeRun) (c : VeCtx) :
    EnvSound ⟨s, n, v, c⟩ ↔ Sound s ∧ CtxSound c := Iff.rfl

/-- What the issue of a micro-op comes to is sound. -/
def IssueSound : Issue → Prop
  | .done e => EnvSound e
  | .wait => True
  | .fault e _ _ _ _ _ => EnvSound e

@[simp] theorem issueSound_done (e : VeEnv) : IssueSound (.done e) ↔ EnvSound e := Iff.rfl

@[simp] theorem issueSound_wait : IssueSound .wait := trivial

@[simp] theorem issueSound_fault (e : VeEnv) (k l b a : Nat) (st : Status) :
    IssueSound (.fault e k l b a st) ↔ EnvSound e := Iff.rfl

@[simp] theorem issueSound_faultAll (e : VeEnv) (kind act : Nat) (st : Status) :
    IssueSound (faultAll e kind act st) ↔ EnvSound e := Iff.rfl

theorem veEnv_sound {s : State} {n : Nat} {e : VeEnv} (h : Sound s) (he : veEnv s n = some e) : EnvSound e := by
  obtain ⟨v, -, rfl⟩ := Option.map_eq_some_iff.mp he
  obtain ⟨c0, c1⟩ := coreSound_getCore h n
  refine ⟨h, ?_⟩
  simp only [ctxGet]; split
  · exact c0
  · exact c1

theorem coreSound_ctxSet {c : Core} {x : VeCtx} (hc : CoreSound c) (hx : CtxSound x) (k : Nat) :
    CoreSound (ctxSet c k x) := by
  simp only [ctxSet]; split
  · exact ⟨hx, hc.2⟩
  · exact ⟨hc.1, hx⟩

theorem veBack_sound {e : VeEnv} (h : EnvSound e) : Sound (veBack e) :=
  (setCore_sound _ _ _).mpr (.inl ⟨h.1,
    coreSound_ctxSet (c := { getCore e.s e.n with ve := some e.v }) (coreSound_getCore h.1 e.n) h.2 _⟩)

/-! ### Register contexts -/

theorem ctxSound_laneSet {c : VeCtx} (h : CtxSound c) (r i x : Nat) (p : Bool) : CtxSound (laneSet c r i x p) :=
  ⟨keysRise_smSet h.1, h.2⟩

theorem ctxSound_maskSet {c : VeCtx} (h : CtxSound c) (k v : Nat) : CtxSound (maskSet c k v) := by
  simp only [maskSet]; split
  · exact h
  · exact ⟨h.1, keysRise_smSet h.2⟩

theorem ctxSound_putLanes {c : VeCtx} (h : CtxSound c) (r : Nat) (out : List (Nat × Nat × Bool)) :
    CtxSound (putLanes c r out) :=
  foldl_imp (P := CtxSound) (fun _ z hc => ctxSound_laneSet hc r z.1 z.2.1 z.2.2) out h

/-- A lane-wise operation writes lanes of the register context. -/
theorem laneOp_sound {e : VeEnv} (h : EnvSound e) (r : Nat) (lanes : List Nat) (srcs : Nat → List (Nat × Bool))
    (f : Nat → FRes) : IssueSound (laneOp e r lanes srcs f) := ⟨h.1, ctxSound_putLanes h.2 _ _⟩

theorem unary_sound {e : VeEnv} (h : EnvSound e) (u : Uop) (f : Nat → FRes) : IssueSound (unary e u f) :=
  laneOp_sound h _ _ _ _

theorem binary_sound {e : VeEnv} (h : EnvSound e) (u : Uop) (f : Nat → Nat → FRes) : IssueSound (binary e u f) :=
  laneOp_sound h _ _ _ _

theorem floatOp_sound {e : VeEnv} (h : EnvSound e) (u : Uop) (f : FFmt → Nat → Nat → FRes) :
    IssueSound (floatOp f e u) := binary_sound h _ _

theorem compare_sound {e : VeEnv} (h : EnvSound e) (u : Uop) (f : Nat → Nat → Bool) :
    IssueSound (Machine.compare e u f) := ⟨h.1, ctxSound_maskSet h.2 _ _⟩

theorem takeVector_sound {e : VeEnv} (h : EnvSound e) (u : Uop) (k : Nat) (vec : List (Nat × Bool) × Nat) :
    EnvSound (takeVector e u k vec) := by
  refine ⟨h.1, ?_⟩
  simp only [takeVector]; split
  · exact ctxSound_maskSet (ctxSound_putLanes h.2 _ _) _ _
  · exact ctxSound_putLanes h.2 _ _

/-! ### Output streams and rows of the Reduction Unit -/

theorem flushBlock_sound {e : VeEnv} (h : EnvSound e) (k r blk : Nat) : EnvSound (flushBlock e k r blk) := by
  unfold flushBlock
  extract_lets sr mt b buf mine rest es ints asInt p dr spec given out bad m1 m2 m
  have wf1 : Memory.wf m1 = true := writeElems_wf h.1.mem _ _
  have wf2 : Memory.wf m2 = true := by
    simp only [m2]; split
    · exact wf1
    · exact writePadding_wf wf1 _ _ _ _ _
  exact ⟨(setMem_sound _ _).mpr (.inl ⟨h.1, writeScales_wf wf2 _ _⟩), h.2⟩

theorem outPut_sound {e : VeEnv} (h : EnvSound e) (k : Nat) (x : Option (Nat × Bool)) : EnvSound (outPut e k x) := by
  unfold outPut
  extract_lets sr f pos b c buf v1 e1
  have h1 : EnvSound e1 := h
  split
  · exact flushBlock_sound h1 _ _ _
  · exact h1

theorem flushAll_sound {e : VeEnv} (h : EnvSound e) : EnvSound (flushAll e) :=
  foldl_imp (P := EnvSound) (fun _ _ ha => foldl_imp (P := EnvSound)
      (fun _ _ hx => flushBlock_sound hx _ _ _) _ ha) _ h

theorem gatherRun_sound {act : VeEnv → Nat → Target → VeEnv} {atFault : VeEnv → Nat → VeEnv}
    (hact : ∀ a i t, EnvSound a → EnvSound (act a i t)) (hfault : ∀ a i, EnvSound a → EnvSound (atFault a i))
    {e : VeEnv} (h : EnvSound e) (u : Uop) : IssueSound (gatherRun e u act atFault) := by
  have taken (ts : List (Nat × Target)) : EnvSound (ts.foldl (fun a t => act a t.1 t.2) e) :=
    foldl_imp (P := EnvSound) (fun a t => hact a t.1 t.2) ts h
  simp only [gatherRun]; split
  · exact hfault _ _ (taken _)
  · exact taken _

theorem ruRow_sound {i : Issue} (h : IssueSound i) (act : Nat) (x : RuRes × Nat) : IssueSound (ruRow i act x) := by
  cases i with
  | wait => exact h
  | fault => exact h
  | done e =>
    obtain ⟨hs, hc⟩ := h
    simp only [ruRow]; (repeat' split) <;> simp [outPut_sound, hs, hc.1, hc.2]

theorem ruRows_sound {before e : VeEnv} (hb : EnvSound before) (he : EnvSound e) (act : Nat)
    (xs : List (RuRes × Nat)) :
    IssueSound (ruRows before e act xs) := by
  have rows : IssueSound (xs.foldl (fun a x => ruRow a act x) (.done e)) :=
    foldl_imp (P := IssueSound) (fun _ x h => ruRow_sound h act x) xs he
  simp only [ruRows]; split
  · exact hb
  · exact rows

theorem ctxSound_ctxGet {c : Core} (h : CoreSound c) (k : Nat) : CtxSound (ctxGet c k) := by
  simp only [ctxGet]; split
  · exact h.1
  · exact h.2

@[simp] theorem veStart_sound (s : State) (n : Nat) (o : NextOp) : KeepsSound s (veStart s n o) := .of fun h => by
  unfold veStart
  extract_lets p slice v s1 c x
  have h1 : Sound s1 := by simp [s1, h]
  have hc : CoreSound c := coreSound_getCore h1 n
  have hx : CtxSound x := ctxSound_ctxGet hc p.ctx
  refine (setCore_sound _ _ _).mpr (.inl ⟨h1, coreSound_ctxSet ?_ ?_ _⟩)
  · exact hc
  · exact hx

/-! ### Micro-ops -/

@[simp] theorem completeVe_sound (s : State) (n : Nat) : KeepsSound s (completeVe s n) := .of fun h => by
  simp only [completeVe]; (repeat' split) <;> simp [h]

/-! ### Micro-ops and the program loop (chapter 07) -/

theorem uopNop_sound {e : VeEnv} (h : EnvSound e) (u : Uop) : IssueSound (uopNop e u) := h

theorem uopMov_sound {e : VeEnv} (h : EnvSound e) (u : Uop) : IssueSound (uopMov e u) := unary_sound h _ _

theorem uopCns_sound {e : VeEnv} (h : EnvSound e) (u : Uop) :
    IssueSound (uopCns e u) := ⟨h.1, ctxSound_putLanes h.2 _ _⟩

theorem uopLid_sound {e : VeEnv} (h : EnvSound e) (u : Uop) : IssueSound (uopLid e u) := laneOp_sound h _ _ _ _

theorem uopLds_sound {e : VeEnv} (h : EnvSound e) (u : Uop) : IssueSound (uopLds e u) := by
  have taken (k : Nat) (vec : List (Nat × Bool) × Nat) : EnvSound (takeVector e u k vec) := takeVector_sound h u k vec
  have core : CoreSound (getCore e.s e.n) := coreSound_getCore h.1 e.n
  unfold uopLds
  extract_lets k sr pos act
  split
  · split
    · exact h
    · split
      · split
        · split
          · exact ⟨(setCore_sound _ _ _).mpr (.inl ⟨(taken k _).1, core⟩), (taken k _).2⟩
          · exact taken _ _
        · trivial
      · split
        · trivial
        · exact h
  · split
    · exact h
    · exact taken _ _

theorem uopSts_sound {e : VeEnv} (h : EnvSound e) (u : Uop) : IssueSound (uopSts e u) := by
  simp only [uopSts]; split
  · exact foldl_imp (P := EnvSound) (fun _ _ ha => outPut_sound ha _ _) _ h
  · exact h

theorem uopGth_sound {e : VeEnv} (h : EnvSound e) (u : Uop) : IssueSound (uopGth e u) := by
  unfold uopGth
  refine gatherRun_sound (fun a i t ha => ?_) (fun a i ha => ?_) h u
  · split <;> exact ⟨ha.1, keysRise_smSet ha.2.1, ha.2.2⟩
  · exact ⟨ha.1, keysRise_smSet ha.2.1, ha.2.2⟩

theorem uopSct_sound {e : VeEnv} (h : EnvSound e) (u : Uop) : IssueSound (uopSct e u) := by
  unfold uopSct
  refine gatherRun_sound (fun a i t ha => ?_) (fun a i ha => ha) h u
  split
  · exact ⟨(write_sound ..).mpr (.inl ha.1), ha.2⟩
  · exact ha

theorem uopSca_sound {e : VeEnv} (h : EnvSound e) (u : Uop) : IssueSound (uopSca e u) := by
  unfold uopSca
  refine gatherRun_sound (fun a i t ha => ?_) (fun a i ha => ha) h u
  split
  · exact ⟨(write_sound ..).mpr (.inl ha.1), ha.2⟩
  · exact ha

theorem uopFadd_sound {e : VeEnv} (h : EnvSound e) (u : Uop) : IssueSound (uopFadd e u) := floatOp_sound h _ _

theorem uopFsub_sound {e : VeEnv} (h : EnvSound e) (u : Uop) : IssueSound (uopFsub e u) := floatOp_sound h _ _

theorem uopFmul_sound {e : VeEnv} (h : EnvSound e) (u : Uop) : IssueSound (uopFmul e u) := floatOp_sound h _ _

theorem uopFfma_sound {e : VeEnv} (h : EnvSound e) (u : Uop) : IssueSound (uopFfma e u) := laneOp_sound h _ _ _ _

theorem uopFmnx_sound {e : VeEnv} (h : EnvSound e) (u : Uop) : IssueSound (uopFmnx e u) := floatOp_sound h _ _

theorem uopFsgn_sound {e : VeEnv} (h : EnvSound e) (u : Uop) : IssueSound (uopFsgn e u) := by
  simp only [uopFsgn]; split
  · exact binary_sound h _ _
  · exact unary_sound h _ _

theorem uopFrcp_sound {e : VeEnv} (h : EnvSound e) (u : Uop) : IssueSound (uopFrcp e u) := unary_sound h _ _

theorem uopFrsq_sound {e : VeEnv} (h : EnvSound e) (u : Uop) : IssueSound (uopFrsq e u) := unary_sound h _ _

theorem uopFsqt_sound {e : VeEnv} (h : EnvSound e) (u : Uop) : IssueSound (uopFsqt e u) := unary_sound h _ _

theorem uopFdiv_sound {e : VeEnv} (h : EnvSound e) (u : Uop) : IssueSound (uopFdiv e u) := binary_sound h _ _

theorem uopFexp_sound {e : VeEnv} (h : EnvSound e) (u : Uop) : IssueSound (uopFexp e u) := unary_sound h _ _

theorem uopFlog_sound {e : VeEnv} (h : EnvSound e) (u : Uop) : IssueSound (uopFlog e u) := unary_sound h _ _

theorem uopFsig_sound {e : VeEnv} (h : EnvSound e) (u : Uop) : IssueSound (uopFsig e u) := unary_sound h _ _

theorem uopCvt_sound {e : VeEnv} (h : EnvSound e) (u : Uop) : IssueSound (uopCvt e u) := by
  simp only [uopCvt]; split
  · exact binary_sound h _ _
  · exact unary_sound h _ _

theorem uopIadd_sound {e : VeEnv} (h : EnvSound e) (u : Uop) : IssueSound (uopIadd e u) := binary_sound h _ _

theorem uopIsub_sound {e : VeEnv} (h : EnvSound e) (u : Uop) : IssueSound (uopIsub e u) := binary_sound h _ _

theorem uopImul_sound {e : VeEnv} (h : EnvSound e) (u : Uop) : IssueSound (uopImul e u) := binary_sound h _ _

theorem uopIlog_sound {e : VeEnv} (h : EnvSound e) (u : Uop) : IssueSound (uopIlog e u) := binary_sound h _ _

theorem uopIshf_sound {e : VeEnv} (h : EnvSound e) (u : Uop) : IssueSound (uopIshf e u) := binary_sound h _ _

theorem uopImnx_sound {e : VeEnv} (h : EnvSound e) (u : Uop) : IssueSound (uopImnx e u) := binary_sound h _ _

theorem uopFcmp_sound {e : VeEnv} (h : EnvSound e) (u : Uop) : IssueSound (uopFcmp e u) := compare_sound h _ _

theorem uopIcmp_sound {e : VeEnv} (h : EnvSound e) (u : Uop) : IssueSound (uopIcmp e u) := compare_sound h _ _

theorem uopSel_sound {e : VeEnv} (h : EnvSound e) (u : Uop) : IssueSound (uopSel e u) := laneOp_sound h _ _ _ _

theorem uopKop_sound {e : VeEnv} (h : EnvSound e) (u : Uop) :
    IssueSound (uopKop e u) := ⟨h.1, ctxSound_maskSet h.2 _ _⟩

theorem uopShf_sound {e : VeEnv} (h : EnvSound e) (u : Uop) : IssueSound (uopShf e u) := laneOp_sound h _ _ _ _

theorem uopRup_sound {e : VeEnv} (h : EnvSound e) (u : Uop) : IssueSound (uopRup e u) := by
  simp only [uopRup]; split
  · exact h
  · refine ruRows_sound h ?_ _ _
    exact h

theorem uopRug_sound {e : VeEnv} (h : EnvSound e) (u : Uop) : IssueSound (uopRug e u) := by
  unfold uopRug
  extract_lets ru w need act
  split
  · exact h
  · refine ⟨h.1, foldl_imp (P := CtxSound) (fun c i hc => ?_) _ h.2⟩
    show CtxSound (match ru.queue[i / w]? with | some r => _ | none => _)
    (repeat' split)
    · exact ctxSound_laneSet (ctxSound_laneSet hc _ _ _ _) _ _ _ _
    · exact ctxSound_laneSet hc _ _ _ _
    · exact hc

theorem uopSmn_sound {e : VeEnv} (h : EnvSound e) (u : Uop) : IssueSound (uopSmn e u) := by
  unfold uopSmn
  extract_lets x m lanes undef
  refine laneOp_sound ?_ _ _ _ _
  refine ⟨?_, h.2⟩
  have drawn : Sound { e.s with freeCount := e.s.freeCount + 64 } := by simp [h.1]
  show Sound (if lanes.any undef then _ else _)
  split
  · exact drawn
  · exact h.1

theorem uopSmb_sound {e : VeEnv} (h : EnvSound e) (u : Uop) : IssueSound (uopSmb e u) := laneOp_sound h _ _ _ _

theorem uopNrm_sound {e : VeEnv} (h : EnvSound e) (u : Uop) : IssueSound (uopNrm e u) := laneOp_sound h _ _ _ _

theorem uopRng_sound {e : VeEnv} (h : EnvSound e) (u : Uop) : IssueSound (uopRng e u) := unary_sound h _ _

theorem uopIssue_sound {e : VeEnv} (h : EnvSound e) (u : Uop) : IssueSound (uopIssue e u) := by
  simp only [uopIssue]; split
  · exact uopNop_sound h u
  · exact uopMov_sound h u
  · exact uopCns_sound h u
  · exact uopLid_sound h u
  · exact uopLds_sound h u
  · exact uopSts_sound h u
  · exact uopGth_sound h u
  · exact uopSct_sound h u
  · exact uopSca_sound h u
  · exact uopFadd_sound h u
  · exact uopFsub_sound h u
  · exact uopFmul_sound h u
  · exact uopFfma_sound h u
  · exact uopFmnx_sound h u
  · exact uopFsgn_sound h u
  · exact uopFrcp_sound h u
  · exact uopFrsq_sound h u
  · exact uopFsqt_sound h u
  · exact uopFdiv_sound h u
  · exact uopFexp_sound h u
  · exact uopFlog_sound h u
  · exact uopFsig_sound h u
  · exact uopCvt_sound h u
  · exact uopIadd_sound h u
  · exact uopIsub_sound h u
  · exact uopImul_sound h u
  · exact uopIlog_sound h u
  · exact uopIshf_sound h u
  · exact uopImnx_sound h u
  · exact uopFcmp_sound h u
  · exact uopIcmp_sound h u
  · exact uopSel_sound h u
  · exact uopKop_sound h u
  · exact uopShf_sound h u
  · exact uopRup_sound h u
  · exact uopRug_sound h u
  · exact uopSmn_sound h u
  · exact uopSmb_sound h u
  · exact uopNrm_sound h u
  · exact uopRng_sound h u
  · exact h

theorem veFault_sound {e : VeEnv} (h : EnvSound e) (op kind lane bitmap addr : Nat) (st : Status) :
    EnvSound (veFault e op kind lane bitmap addr st) := by
  refine ⟨?_, h.2⟩
  simp only [veFault]; split <;> simp [h.1]

theorem veEnd_sound {e : VeEnv} (h : EnvSound e) : EnvSound (veEnd e) := by
  unfold veEnd
  extract_lets fin
  have fin_sound (x : VeEnv) (hx : EnvSound x) : EnvSound (fin x) := by
    have flushed : EnvSound (flushAll x) := flushAll_sound hx
    simp only [fin]
    generalize flushAll x = y at flushed ⊢
    exact flushed
  split
  · split
    · next r _ =>
      have h1 : EnvSound { e with c := { e.c with ru := { e.c.ru with open_ := none } } } := ⟨h.1, h.2⟩
      have rows := ruRows_sound h1 h1 (envMask e) [ruResult e.c.ru.op r (envEps e)]
      split
      · next x hx => exact fin_sound x ((issueSound_done x).mp (hx ▸ rows))
      · next hx => exact veFault_sound ((issueSound_fault ..).mp (hx ▸ rows)) _ _ _ _ _ _
      · exact fin_sound _ h1
    · exact fin_sound e h
  · exact fin_sound e h

theorem veLoop_sound (fuel : Nat) {e : VeEnv} (h : EnvSound e) : EnvSound (veLoop fuel e) := by
  induction fuel generalizing e with
  | zero => exact h
  | succ fuel ih =>
    have issued := uopIssue_sound h (uopOf (e.v.prog.getD e.v.pc 0))
    simp only [veLoop]; split
    · exact h
    · split
      · exact h
      · next hx => exact veFault_sound (by rwa [hx] at issued) _ _ _ _ _ _
      · next x hx =>
        have done : EnvSound x := by rwa [hx] at issued
        split
        · exact ih done
        · split
          · exact ih done
          · exact veEnd_sound done

@[simp] theorem veGo_sound (s : State) (n : Nat) : KeepsSound s (veGo s n) := .of fun h => by
  simp only [veGo]; split
  · exact h
  · next e he =>
    split
    · exact h
    · exact veBack_sound (veLoop_sound _ (veEnv_sound h he))

@[simp] theorem execVeRun_sound (core : CoreId) (s : State) (h : Sound s) :
    SoundNext (execVeRun core s) := by
  simp only [execVeRun]; (repeat' split) <;> simp [h]

@[simp] theorem veRecheck_sound (s : State) (n : Nat) : KeepsSound s (veRecheck s n) := .of fun h => by
  simp only [veRecheck]; split <;> simp [h]

@[simp] theorem execLpaMatmul_sound (core : CoreId) (s : State) (h : Sound s) :
    SoundNext (execLpaMatmul core s) := by
  simp [execLpaMatmul, h]

@[simp] theorem execCoResidentGroup_sound (core : CoreId) (s : State) (h : Sound s) :
    SoundNext (execCoResidentGroup core s) := by
  simp [execCoResidentGroup, h]

@[simp] theorem execPqStall_sound (core : CoreId) (s : State) (h : Sound s) :
    SoundNext (execPqStall core s) := by
  simp [execPqStall, h]

@[simp] theorem execPlateVisible_sound (core : CoreId) (s : State) (h : Sound s) :
    SoundNext (execPlateVisible core s) := by
  simp only [execPlateVisible]; (repeat' split) <;> simp [h]

theorem issueCmd_sound {f : VeEnv → Uop → Issue} (hf : ∀ {e}, EnvSound e → ∀ u, IssueSound (f e u)) (core : CoreId)
    (op : Nat) (d a b mod : BitVec 6) {s : State} (h : Sound s) : SoundNext (issueCmd core op d a b mod f s) := by
  simp only [issueCmd]; split
  · simpa using h
  · next e he =>
    have env := veEnv_sound h he
    have issued := hf env { op, d := d.toNat, a := a.toNat, b := b.toNat, sel := mod.toNat % 8, var := mod.toNat / 8 }
    refine soundNext_ite _ (by simpa using h) ?_
    split
    · next x hx => simpa using veBack_sound (by simpa [hx] using issued)
    · exact (soundNext_next _).mpr (veBack_sound env)
    · next x k l b a st hx => simpa using veBack_sound (veFault_sound (by simpa [hx] using issued) _ _ _ _ _ _)

/-! ### Batched small solves (chapter 07) -/

@[simp] theorem solveStep_sound (n : Nat) (p : SolveParm) (s : State) (v : VeRun) (i : Nat) :
    KeepsSound s (solveStep n p s v i).1 := .of fun h => by
  simp [solveStep, h]

@[simp] theorem execVeSolve_sound (core : CoreId) (s : State) (h : Sound s) : SoundNext (execVeSolve core s) := by
  simp only [execVeSolve]; (repeat' split)
  · simp [h]
  · simp [h]
  · next o _ _ _ =>
    let P (x : State × VeRun) : Prop := Sound x.1
    refine (soundNext_next _).mpr ((setCore_sound _ _ _).mpr (.inl ?_))
    generalize hr : (List.range (solveParm o.desc).batch).foldl _ _ = r
    have hr : Sound r.1 := hr ▸ foldl_imp (P := P) (fun a i ha => by simp only [P] at ha ⊢; simp [ha]) _ (by simp [P,
        h])
    have hc : CoreSound (getCore r.1 core.toNat) := coreSound_getCore hr _
    refine ⟨hr, coreSound_ctxSet ?_ ?_ _⟩
    · exact hc
    · exact ⟨rfl, (ctxSound_ctxGet hc _).2⟩

/-! ### Op lists (chapter 11) -/

@[simp] theorem passIo_sound (s : State) (id p : Nat) : KeepsSound s (passIo s id p) := .of fun h => by
  simp [passIo, h]

@[simp] theorem finishIo_sound (s : State) (id p : Nat) (d : Bytes) (st : Status) :
    KeepsSound s (finishIo s id p d st) := .of fun h => by
  simp [finishIo, h]

end Sys2Proof.Laws
end

section
/-! PROOFS. Sound states through the Context Cache Manager, the update units and the links. -/

namespace Sys2Proof.Laws

open Sys2Proof Sys2Proof.Machine
set_option Elab.async false

@[simp] theorem rejectIo_sound (s : State) (id p : Nat) (o : NextOp) (st : Status) :
    KeepsSound s (rejectIo s id p o st) := .of fun h => by
  simp [rejectIo, h]

@[simp] theorem startIo_sound (s : State) (id p : Nat) (o : NextOp) :
    KeepsSound s (startIo s id p o) := .of fun h => by
  simp [startIo, h]

@[simp] theorem modIo_sound (s : State) (id p i : Nat) (f : IoOp → IoOp) :
    KeepsSound s (modIo s id p i f) := .of fun h => by
  simp [modIo, h]

@[simp] theorem endIo_sound (s : State) (id p i : Nat) (st : Status) :
    KeepsSound s (endIo s id p i st) := .of fun h => by
  simp [endIo, h]

@[simp] theorem completeIo_sound (s : State) (id p i : Nat) : KeepsSound s (completeIo s id p i) := .of fun h => by
  simp only [completeIo]; (repeat' split) <;> simp [h]

@[simp] theorem rejectAt_sound (loc : OpLoc) (s : State) (o : NextOp) (st : Status) :
    KeepsSound s (rejectAt loc s o st) := .of fun h => by
  simp only [rejectAt]; (repeat' split) <;> simp [h]

@[simp] theorem plainOp_sound (loc : OpLoc) (s : State) (o : NextOp) :
    KeepsSound s (plainOp loc s o) := .of fun h => by
  simp [plainOp, h]

@[simp] theorem execOpNop_sound (loc : OpLoc) (s : State) (h : Sound s) :
    SoundNext (execOpNop loc s) := by
  simp only [execOpNop]; (repeat' split) <;> simp [h]

@[simp] theorem execWait_sound (loc : OpLoc) (s : State) (h : Sound s) :
    SoundNext (execWait loc s) := by
  simp only [execWait]; (repeat' split) <;> simp [h]

@[simp] theorem completeDma_sound (s : State) (n : Nat) : KeepsSound s (completeDma s n) := .of fun h => by
  simp only [completeDma]; (repeat' split) <;> simp [h]

@[simp] theorem completeCcm_sound (s : State) (n : Nat) : KeepsSound s (completeCcm s n) := .of fun h => by
  simp only [completeCcm]; (repeat' split) <;> simp [h]

/-! ### The Context Cache Manager (chapter 10) -/

@[simp] theorem putFreeBit_sound (s : State) (tier f : Nat) (free : Bool) :
    KeepsSound s (putFreeBit s tier f free) := .of fun h => by
  simp [putFreeBit, h]

@[simp] theorem setUsed_sound (s : State) (tier f : Nat) (used : Bool) : KeepsSound s (setUsed s tier f used) :=
  .of fun h => by
  simp only [setUsed]; split <;> simp [h]

@[simp] theorem claimFrame_sound (s : State) (tier f seq page : Nat) :
    KeepsSound s (claimFrame s tier f seq page) := .of fun h => by
  simp [claimFrame, h]

@[simp] theorem addHeld_sound (s : State) (seq : Nat) (up : Bool) : KeepsSound s (addHeld s seq up) := .of fun h => by
  simp [addHeld, h]

@[simp] theorem putPage_sound (s : State) (a : Nat) (e : PageEntry) : KeepsSound s (putPage s a e) := .of fun h => by
  simp [putPage, h]

@[simp] theorem hostFault_sound (s : State) : KeepsSound s (hostFault s) := .of fun h => by
  simp only [hostFault]; split <;> simp [h]

@[simp] theorem hostFine_sound (s : State) : KeepsSound s (hostFine s) := .of fun h => by simp [hostFine, h]

@[simp] theorem startMove_sound (s : State) (promote : Bool) (a seq page target : Nat) (forOp : Option Nat) :
    KeepsSound s (startMove s promote a seq page target forOp).1 := .of fun h => by
  simp only [startMove]; (repeat' split) <;> simp [h]

@[simp] theorem promoteSkip_sound (s : State) : KeepsSound s (promoteSkip s) := .of fun h => by simp [promoteSkip, h]

@[simp] theorem promotePage_sound (s : State) (seq page : Nat) (forOp : Option Nat) :
    KeepsSound s (promotePage s seq page forOp) := .of fun h => by
  simp [promotePage, h]

@[simp] theorem endMove_sound (s : State) (mv : CcmMoveRun) : KeepsSound s (endMove s mv) := .of fun h => by
  simp only [endMove]; (repeat' split) <;> simp [h]

@[simp] theorem abandonMove_sound (s : State) (mv : CcmMoveRun) : KeepsSound s (abandonMove s mv) := .of fun h => by
  simp only [abandonMove]; split <;> simp [h]

@[simp] theorem ccmView_sound (s : State) (host : List HostLine) (tier f : Nat) :
    KeepsSound s (ccmView s host tier f).s := .of fun h => by
  simp [ccmView, h]

@[simp] theorem execCcmMove_sound (id : Nat) (host : List HostLine) (s : State) (h : Sound s) :
    SoundNext (execCcmMove id host s) := by
  simp only [execCcmMove]; (repeat' split) <;> simp [h]

@[simp] theorem setHand_sound (s : State) (tier h : Nat) : KeepsSound s (setHand s tier h) := .of fun h => by
  simp only [setHand]; split <;> simp [h]

@[simp] theorem handStep_sound (s : State) (tier : Nat) : KeepsSound s (handStep s tier) := .of fun h => by
  simp [handStep, h]

@[simp] theorem sweep_sound (tier want k : Nat) (s : State) : KeepsSound s (sweep tier want k s) := .of fun h => by
  induction k generalizing s with
  | zero => exact h
  | succ k ih => simp only [sweep]; split <;> simp [ih, h]

@[simp] theorem setSweep_sound (s : State) (tier : Nat) (b : Bool) :
    KeepsSound s (setSweep s tier b) := .of fun h => by
  simp only [setSweep]; split <;> simp [h]

@[simp] theorem execDemotionSweep_sound (pool : BitVec 2) (s : State) (h : Sound s) :
    SoundNext (execDemotionSweep pool s) := by
  simp only [execDemotionSweep]; (repeat' split) <;> simp [h]

@[simp] theorem ccmRun_sound (s : State) (n : Nat) (o : NextOp) (st : Status) (finished : Bool) :
    KeepsSound s (ccmRun s n o st finished) := .of fun h => by
  simp [ccmRun, h]

@[simp] theorem appendRows_sound (s : State) (n : Nat) (p : CcmParm) (tier f : Nat) :
    KeepsSound s (appendRows s n p tier f).1 := .of fun h => by
  let P (x : State × Option Status × Bool) : Prop := Sound x.1
  simp only [appendRows]
  refine foldl_imp (P := P) (fun a i ha => foldl_imp (P := P) (fun b x hb => ?_) _ ha) _ ?_
  · simp only [P] at hb ⊢
    simp [hb]
  · exact h

@[simp] theorem appendTo_sound (s : State) (n : Nat) (o : NextOp) (a tier f : Nat) (e : PageEntry) :
    KeepsSound s (appendTo s n o a tier f e) := .of fun h => by
  simp only [appendTo]; (repeat' split) <;> simp [h]

@[simp] theorem execAppend_sound (core : CoreId) (s : State) (h : Sound s) :
    SoundNext (execAppend core s) := by
  simp only [execAppend]; (repeat' split) <;> simp [h]

@[simp] theorem fetchRow_sound (s0 : State) (m : Mem) (n : Nat) (p : CcmParm) (tier f fill : Nat) (poison : Bool)
    (j r : Nat) (s : State) : KeepsSound s (fetchRow s0 m n p tier f fill poison j r s) := .of fun h => by
  refine sound_foldl (fun a c ha => sound_foldl (fun b x hb => ?_) _ ha) _ h
  dsimp only; (repeat' split) <;> simp [hb]

@[simp] theorem fetchPage_sound (s0 : State) (n : Nat) (p : CcmParm) (host : List HostLine) (x : State × Bool)
    (j : Nat) : KeepsSound x.1 (fetchPage s0 n p host x j).1 := .of fun h => by
  simp only [fetchPage]; split
  · simp +contextual [h]
  · split
    · simp +contextual [h]
    · simp +contextual [h]

@[simp] theorem execFetch_sound (core : CoreId) (host : List HostLine) (s : State) (h : Sound s) :
    SoundNext (execFetch core host s) := by
  simp only [execFetch]; (repeat' split) <;> simp +contextual [h]

@[simp] theorem execPromote_sound (core : CoreId) (s : State) (h : Sound s) :
    SoundNext (execPromote core s) := by
  simp only [execPromote]; (repeat' split) <;> simp +contextual [h]

@[simp] theorem truncPage_sound (seq : Nat) (s : State) (i : Nat) :
    KeepsSound s (truncPage seq s i) := .of fun h => by
  simp only [truncPage]; split <;> simp [h]

@[simp] theorem execTruncate_sound (core : CoreId) (s : State) (h : Sound s) :
    SoundNext (execTruncate core s) := by
  simp only [execTruncate]; (repeat' split) <;> simp +contextual [h]

@[simp] theorem ccmStop_sound (s : State) : KeepsSound s (ccmStop s) := .of fun h => by
  unfold ccmStop
  have ctx : CoresSound s.cores := ((sound_iff s).mp h).2.2.1
  refine (sound_mk ..).mpr ?_
  obtain ⟨hm, -, hc, hr⟩ := (sound_iff s).mp h
  refine ⟨hm, keysRise_map _ h.cores, fun p hp => ?_, hr⟩
  obtain ⟨q, hq, rfl⟩ := List.mem_map.mp hp
  exact hc q hq

@[simp] theorem writeSeqBase_sound (s : State) (value : Nat) : KeepsSound s (writeSeqBase s value) := .of fun h => by
  simp +contextual [writeSeqBase, h]

@[simp] theorem execCcmEnable_sound (port : HPort) (value : BitVec 64) (s : State) (h : Sound s) :
    SoundNext (execCcmEnable port value s) := by
  simp +contextual [execCcmEnable, h]

@[simp] theorem execCcmReady_sound (s : State) (h : Sound s) :
    SoundNext (execCcmReady s) := by
  simp only [execCcmReady]; split <;> simp [h]

/-! ### Slots, bindings and micro-batch records (chapter 08) -/

@[simp] theorem putSlot_sound (s : State) (tid : Nat) (e : SlotEntry) :
    KeepsSound s (putSlot s tid e) := .of fun h => by
  simp [putSlot, h]

@[simp] theorem unpin_sound (s : State) (x : Nat × Nat) : KeepsSound s (unpin s x) := .of fun h => by simp [unpin, h]

@[simp] theorem setMbState_sound (s : State) (mb v : Nat) : KeepsSound s (setMbState s mb v) := .of fun h => by
  simp [setMbState, h]

@[simp] theorem setMbPins_sound (s : State) (mb : Nat) (ps : List (Nat × Nat)) :
    KeepsSound s (setMbPins s mb ps) := .of fun h => by
  simp [setMbPins, h]

@[simp] theorem releaseAll_sound (s : State) (mb : Nat) : KeepsSound s (releaseAll s mb) := .of fun h => by
  simp +contextual [releaseAll, h]

@[simp] theorem excludeMb_sound (s : State) (mb : Nat) : KeepsSound s (excludeMb s mb) := .of fun h => by
  simp only [excludeMb]; split <;> simp [h]

@[simp] theorem doneMb_sound (s : State) (mb : Nat) (st : Status) : KeepsSound s (doneMb s mb st) := .of fun h => by
  simp only [doneMb]; split <;> simp [h]

@[simp] theorem lateMb_sound (s : State) (mb : Nat) (useDefault : Bool) :
    KeepsSound s (lateMb s mb useDefault) := .of fun h => by
  simp [lateMb, h]

@[simp] theorem updateBegins_sound (s : State) (step : Nat) (useDefault : Bool) :
    KeepsSound s (updateBegins s step useDefault) := .of fun h => by
  simp +contextual [updateBegins, h]

@[simp] theorem addPin_sound (s : State) (x : Nat × Nat) :
    KeepsSound s (addPin s x) := .of fun h => by simp [addPin, h]

@[simp] theorem takePins_sound (s : State) (r : Resolve) (mb : Option Nat) :
    KeepsSound s (takePins s r mb) := .of fun h => by
  simp only [takePins]; (repeat' split) <;> simp +contextual [h]

@[simp] theorem patchBind_sound (s : State) (x : Binding × Nat) : KeepsSound s (patchBind s x) := .of fun h => by
  simp only [patchBind]; split <;> simp [h]

@[simp] theorem underPhase_sound (ph : PhaseRun) (s : State) : KeepsSound s (underPhase ph s) := .of fun h => by
  simp [underPhase, h]

@[simp] theorem withTrn_sound {f : State → State} (hf : ∀ x, Sound x → Sound (f x)) (ph : PhaseRun) (s : State) :
    KeepsSound s (withTrn ph f s) := .of fun h => by
  have begun : Sound (f (underPhase ph s)) := hf _ (by simp [h])
  simp [withTrn, begun]

@[simp] theorem noteCarried_sound (s : State) (m : Nat) : KeepsSound s (noteCarried s m) := .of fun h => by
  simp [noteCarried, h]

@[simp] theorem endBind_sound (mb : Option Nat) (late : Bool) (s : State) (b : Binding) :
    KeepsSound s (endBind mb late s b) := .of fun h => by
  simp only [endBind]; (repeat' split) <;> simp +contextual [h]

@[simp] theorem endPhaseBinds_sound (ph : PhaseRun) (s : State) : KeepsSound s (endPhaseBinds ph s) := .of fun h => by
  simp +contextual [endPhaseBinds, h]

@[simp] theorem writeSlotBase_sound (s : State) (value : Nat) :
    KeepsSound s (writeSlotBase s value) := .of fun h => by
  have reread (x : State) (hx : Sound x) : Sound (if bit value 0 then
      let r := read x .dram (slotTab x) 4
      match r.err with
      | some _ => x
      | none => { x with trn := { x.trn with committed := BitVec.ofNat 32 (leNat r.data) } }
    else x) := by
    dsimp only; (repeat' split) <;> simp [hx]
  exact reread _ (by simp [h])

@[simp] theorem execSlotTableEnable_sound (port : HPort) (value : BitVec 64) (s : State) (h : Sound s) :
    SoundNext (execSlotTableEnable port value s) := by
  simp +contextual [execSlotTableEnable, h]

@[simp] theorem doFlip_sound (s : State) (v : Nat) : KeepsSound s (doFlip s v).1 := .of fun h => by
  simp only [doFlip]; (repeat' split) <;> simp [h]

/-! ### The Meridian Update Units (chapter 09) -/

@[simp] theorem demandTensor_sound (s : State) (r : MuuRec) (base : Nat) :
    KeepsSound s (demandTensor s r base) := .of fun h => by
  simp [demandTensor, h]

@[simp] theorem putRec_sound (s : State) (p : MuuParm) (i off : Nat) (b : Bytes) :
    KeepsSound s (putRec s p i off b) := .of fun h => by
  simp [putRec, h]

@[simp] theorem markRec_sound (s : State) (p : MuuParm) (i : Nat) (st : Status) (flags : Nat) :
    KeepsSound s (markRec s p i st flags) := .of fun h => by
  simp [markRec, h]

@[simp] theorem tensorFail_sound (s : State) (tid step at_ : Nat) (st : Status) :
    KeepsSound s (tensorFail s tid step at_ st) := .of fun h => by
  simp [tensorFail, h]

@[simp] theorem drawIf_sound (b : Bool) (k : Nat) (s : State) : KeepsSound s (drawIf b k s) := .of fun h => by
  simp only [drawIf]; split <;> simp [h]

@[simp] theorem endPass_sound (s : State) (r : MuuRun) (st : Status) :
    KeepsSound s (endPass s r st) := .of fun h => by
  simp [endPass, h]

@[simp] theorem withPhase_sound {f : State → State} (hf : ∀ x, Sound x → Sound (f x)) (id p : Nat) (s : State) :
    KeepsSound s (withPhase id p f s) := .of fun h => by
  simp only [withPhase]; split
  · exact (withTrn_sound hf _ _).mpr (.inl h)
  · exact hf s h

@[simp] theorem startPass_sound (s : State) (id p : Nat) (o : NextOp) :
    KeepsSound s (startPass s id p o) := .of fun h => by
  simp [startPass, h]

@[simp] theorem passOneTensor_sound (x : State × MuuRun) (i : Nat) :
    KeepsSound x.1 (passOneTensor x i).1 := .of fun h => by
  simp only [passOneTensor]; (repeat' split) <;> simp [h]

@[simp] theorem passOneGo_sound (s : State) : KeepsSound s (passOneGo s) := .of fun h => by
  simp only [passOneGo]; (repeat' split) <;> simp +contextual [h]

@[simp] theorem execMuuPassOne_sound (loc : OpLoc) (s : State) (h : Sound s) :
    SoundNext (execMuuPassOne loc s) := by
  simp only [execMuuPassOne]; (repeat' split) <;> simp +contextual [h]

@[simp] theorem combined_sound (s : State) (step : Nat) (c : Status × Nat × Nat) :
    KeepsSound s (combined s step c) := .of fun h => by
  simp [combined, h]

@[simp] theorem execMuuCombine_sound (loc : OpLoc) (s : State) (h : Sound s) :
    SoundNext (execMuuCombine loc s) := by
  simp only [execMuuCombine]; (repeat' split) <;> simp [h]

@[simp] theorem zeroGrad_sound (s : State) (r : MuuRec) :
    KeepsSound s (zeroGrad s r) := .of fun h => by simp +contextual [zeroGrad, h]

@[simp] theorem gradReset_sound (s : State) (r : MuuRec) (step : Nat) :
    KeepsSound s (gradReset s r step) := .of fun h => by
  simp [gradReset, h]

@[simp] theorem noteOverflow_sound (run : MuuRun) (of : Bool) (s : State) :
    KeepsSound s (noteOverflow run of s) := .of fun h => by
  simp only [noteOverflow]; split <;> simp [h]

@[simp] theorem writeRowTwo_sound (run : MuuRun) (r : MuuRec) (ab cb row : Nat) (vals : List (Nat × Nat))
    (s : State) : KeepsSound s (writeRowTwo run r ab cb row vals s) := .of fun h => by
  simp only [writeRowTwo]; split <;> simp +contextual [h]

@[simp] theorem updateTensor_sound (s : State) (run : MuuRun) (r : MuuRec) :
    KeepsSound s (updateTensor s run r).1 := .of fun h => by
  simp only [updateTensor]; (repeat' split) <;> simp +contextual [h]

@[simp] theorem passTwoDone_sound (s : State) (run : MuuRun) (i : Nat) (r : MuuRec) (deferred skip : Bool)
    (st : Option
    (Status × Nat)) : KeepsSound s (passTwoDone s run i r deferred skip st).1 := .of fun h => by
  simp only [passTwoDone]; (repeat' split) <;> simp [h]

@[simp] theorem passTwoTensor_sound (x : State × MuuRun) (i : Nat) :
    KeepsSound x.1 (passTwoTensor x i).1 := .of fun h => by
  simp only [passTwoTensor]; (repeat' split) <;> simp [h]

@[simp] theorem passTwoGo_sound (s : State) : KeepsSound s (passTwoGo s) := .of fun h => by
  simp only [passTwoGo]; (repeat' split) <;> simp +contextual [h]

@[simp] theorem execMuuPassTwo_sound (loc : OpLoc) (s : State) (h : Sound s) :
    SoundNext (execMuuPassTwo loc s) := by
  simp only [execMuuPassTwo]; (repeat' split) <;> simp +contextual [h]

@[simp] theorem execDeferralRecheck_sound (s : State) (h : Sound s) :
    SoundNext (execDeferralRecheck s) := by
  simp only [execDeferralRecheck]; (repeat' split) <;> simp +contextual [h]

@[simp] theorem excludePinning_sound (s : State) (run : MuuRun) :
    KeepsSound s (excludePinning s run) := .of fun h => by
  simp +contextual [excludePinning, h]

@[simp] theorem execStragglerDeadline_sound (s : State) (h : Sound s) :
    SoundNext (execStragglerDeadline s) := by
  simp only [execStragglerDeadline]; (repeat' split) <;> simp +contextual [h]

@[simp] theorem rollEntry_sound (recs : List MuuRec) (s : State) (tid : Nat) :
    KeepsSound s (rollEntry recs s tid) := .of fun h => by
  simp only [rollEntry]; (repeat' split) <;> simp [h]

@[simp] theorem doRollback_sound (s : State) (v : Nat) : KeepsSound s (doRollback s v).1 := .of fun h => by
  have excluded (x : State) (hx : Sound x) (f : State → Nat → Bool) :
      Sound ((List.range 256).foldl (fun a mb => if f a mb then excludeMb a mb else a) x) := by
    simp +contextual [hx]
  have rolled : Sound ((List.range (slotTabLen s)).foldl (rollEntry (listRecs s)) s) := by
    simp +contextual [h]
  simp only [doRollback]; split
  · exact h
  · generalize hx : (List.range 256).foldl _ _ = x
    have hx : Sound x := hx ▸ excluded _ rolled _
    dsimp only
    split <;> simp [hx]

/-! ### Links and routing of the fabric (chapter 12) -/

@[simp] theorem setFab_sound (s : State) (p : Nat) (x : FabPortState) : KeepsSound s (setFab s p x) := .of fun h => by
  simp [setFab, h]

@[simp] theorem enterPort_sound (s : State) (p : Nat) (st : BitVec 3) :
    KeepsSound s (enterPort s p st) := .of fun h => by
  simp [enterPort, h]

@[simp] theorem sendIdle_sound (s : State) (p : Nat) : KeepsSound s (sendIdle s p) := .of fun h => by
  simp only [sendIdle]; split <;> simp [h]

@[simp] theorem noteTag_sound (s : State) (fi t : Nat) :
    KeepsSound s (noteTag s fi t) := .of fun h => by simp [noteTag, h]

@[simp] theorem takeTag_sound (s : State) (fi t part limitNs : Nat) (o : FabOwner) :
    KeepsSound s (takeTag s fi t part limitNs o) := .of fun h => by
  simp [takeTag, h]

@[simp] theorem dropFabric_sound (s : State) (mine : FabOwner → Bool) :
    KeepsSound s (dropFabric s mine) := .of fun h => by
  simp [dropFabric, h]

@[simp] theorem freeSource_sound (s : State) (src : Option (Nat × Nat × Nat)) :
    KeepsSound s (freeSource s src) := .of fun h => by
  simp only [freeSource]; split <;> simp [h]

@[simp] theorem putOnLink_sound (s : State) (p : Nat) (o : OutPkt) (bytes : Bytes) :
    KeepsSound s (putOnLink s p o bytes) := .of fun h => by
  simp [putOnLink, h]

theorem trySend_sound {s t : State} {p : Nat} {o : OutPkt} (ht : trySend s p o = some t) (h : Sound s) : Sound t := by
  revert ht
  simp only [trySend]; (repeat' split) <;> simp <;> rintro rfl <;> simp [h]

@[simp] theorem drainList_sound (p : Nat) (l : List OutPkt) (blocked : List Nat) (s : State) (kept : List OutPkt) :
    KeepsSound s (drainList p l blocked s kept).1 := .of fun h => by
  induction l generalizing blocked s kept with
  | nil => exact h
  | cons o os ih =>
    simp only [drainList]; split
    · exact ih _ _ _ h
    · split
      · next ht => exact ih _ _ _ (trySend_sound ht h)
      · exact ih _ _ _ h

@[simp] theorem drainPort_sound (s : State) (p : Nat) : KeepsSound s (drainPort s p) := .of fun h => by
  simp only [drainPort]; split <;> simp [h]

@[simp] theorem sendOut_sound (s : State) (p : Nat) (o : OutPkt) : KeepsSound s (sendOut s p o) := .of fun h => by
  simp [sendOut, h]

@[simp] theorem countNoRoute_sound (s : State) :
    KeepsSound s (countNoRoute s) := .of fun h => by simp [countNoRoute, h]

@[simp] theorem countRouteErr_sound (s : State) :
    KeepsSound s (countRouteErr s) := .of fun h => by simp [countRouteErr, h]

@[simp] theorem waitAtFi_sound (s : State) (l : LoopPkt) :
    KeepsSound s (waitAtFi s l) := .of fun h => by simp [waitAtFi, h]

@[simp] theorem losePkt_sound {count : State → State} (hc : ∀ x, Sound x → Sound (count x)) (s : State)
    (l : LoopPkt) :
    KeepsSound s (losePkt count s l) := .of fun h => by
  simp only [losePkt]; (repeat' split) <;> simp [hc, h]

@[simp] theorem routePkt_sound (s : State) (dst cls : Nat) (l : LoopPkt) :
    KeepsSound s (routePkt s dst cls l) := .of fun h => by
  simp only [routePkt]; (repeat' split) <;> simp +contextual [h]

@[simp] theorem injectPkt_sound (s : State) (fi dst cls : Nat) (bytes : Bytes) (part : Option Nat) (limitNs : Nat)
    (o : Option FabOwner) (src : Option (Nat × Nat × Nat)) : KeepsSound s (injectPkt s fi dst cls bytes part limitNs
        o src) := .of fun h => by
  simp only [injectPkt]; split <;> simp [h]

@[simp] theorem injectPlain_sound (s : State) (fi : Nat) (h : PktSpec) (payload : Bytes) (o : Option FabOwner)
    (src : Option (Nat × Nat × Nat)) : KeepsSound s (injectPlain s fi h payload o src) := .of fun h => by
  simp [injectPlain, h]

@[simp] theorem bufferPkt_sound (s : State) (p : Nat) (b : Bytes) : KeepsSound s (bufferPkt s p b) := .of fun h => by
  simp [bufferPkt, h]

@[simp] theorem forwardPkt_sound (s : State) (p : Nat) (src : Option (Nat × Nat × Nat)) (b : Bytes) :
    KeepsSound s (forwardPkt s p src b) := .of fun h => by
  simp only [forwardPkt]; (repeat' split) <;> simp [h]

@[simp] theorem flushQueue_sound (s : State) (p : Nat) (l : List OutPkt) :
    KeepsSound s (flushQueue s p l) := .of fun h => by
  induction l with
  | nil => simp +contextual [flushQueue, h]
  | cons o os ih => simp +contextual [flushQueue, ih]

@[simp] theorem leaveUp_sound (s : State) (p : Nat) (st : BitVec 3) : KeepsSound s (leaveUp s p st) := .of fun h => by
  simp [leaveUp, h]

@[simp] theorem forgetSource_sound (s : State) (p : Nat) : KeepsSound s (forgetSource s p) := .of fun h => by
  simp [forgetSource, h]

@[simp] theorem dropPort_sound (s : State) (p : Nat) : KeepsSound s (dropPort s p) := .of fun h => by
  simp only [dropPort]; split <;> simp [h]

@[simp] theorem wakePort_sound (s : State) (p : Nat) : KeepsSound s (wakePort s p) := .of fun h => by
  simp only [wakePort]; split <;> simp [h]

@[simp] theorem disablePort_sound (s : State) (p : Nat) : KeepsSound s (disablePort s p) := .of fun h => by
  simp [disablePort, h]

@[simp] theorem settleParam_sound (s : State) (p : Nat) : KeepsSound s (settleParam s p) := .of fun h => by
  simp [settleParam, h]

/-! ### Descriptors and ends of collectives (chapter 13) -/

@[simp] theorem markSlots_sound (s : State) (first k : Nat) (b : Bool) : KeepsSound s (markSlots s first k b) :=
  .of fun h => by
  have busy : keysRise ((List.range k).foldl (fun m i => smSet false m (first + i) b) s.coll.busy) = true :=
    keysRise_foldl (fun _ _ hm => keysRise_smSet hm) _ h.busy
  simp [markSlots, h, busy]

@[simp] theorem fiRead_sound (s : State) (host : List HostLine) (a n : Nat) :
    KeepsSound s (fiRead s host a n).1 := .of fun h => by
  simp [fiRead, h]

@[simp] theorem fiWrite_sound (s : State) (a : Nat) (bs : Bytes) (poison : Bool) :
    KeepsSound s (fiWrite s a bs poison) := .of fun h => by
  simp [fiWrite, h]

@[simp] theorem readSeg_sound (s : State) (c : Coll) (j : Nat) : KeepsSound s (readSeg s c j).1 := .of fun h => by
  simp only [readSeg]; (repeat' split) <;> simp [h]

@[simp] theorem landLineTo_sound (targets : List HostGrant) (a : Nat) (bs : Bytes) (poison : Nat → Bool)
    (x : State × Option Status) (l : Nat) : KeepsSound x.1 (landLineTo targets a bs poison x l).1 := .of fun h => by
  simp only [landLineTo]; split <;> simp [h]

@[simp] theorem landSpan_sound (targets : List HostGrant) (s : State) (a : Nat) (bs : Bytes) (poison : Nat → Bool) :
    KeepsSound s (landSpan targets s a bs poison).1 := .of fun h => by
  simp +contextual [landSpan, h]

@[simp] theorem landSeg_sound (targets : List HostGrant) (s : State) (c : Coll) (j : Nat) (bs : Bytes)
    (poison : Bool) : KeepsSound s (landSeg targets s c j bs poison).1 := .of fun h => by
  simp only [landSeg]; split <;> simp [h]

@[simp] theorem fiPoison_sound (s : State) (a n : Nat) :
    KeepsSound s (fiPoison s a n) := .of fun h => by simp +contextual [fiPoison, h]

@[simp] theorem ownerEnd_sound (s : State) (o : OpOwner) (st : Status) :
    KeepsSound s (ownerEnd s o st) := .of fun h => by
  simp only [ownerEnd]; split <;> simp [h]

@[simp] theorem collResult_sound (s : State) (c : Coll) (st : Status) (parts : Nat) :
    KeepsSound s (collResult s c st parts) := .of fun h => by
  simp [collResult, h]

@[simp] theorem collsSound_filter_iff (l : List Coll) (f : Coll → Bool) :
    CollsSound (l.filter f) ↔ CollsSound l ∨ CollsRise (l.filter f) :=
  or_of_imp_rule fun h c hc => h c (List.mem_filter.mp hc).1

@[simp] theorem closeColl_sound (s : State) (c : Coll) (st : Status) (parts : Nat) :
    KeepsSound s (closeColl s c st parts) := .of fun h => by
  simp only [closeColl]; split <;> simp [h]

@[simp] theorem collSend_sound (s : State) (c : Coll) (rank kind item addr : Nat) (payload : Bytes) (poison : Bool) :
    KeepsSound s (collSend s c rank kind item addr payload poison) := .of fun h => by
  simp [collSend, h]

@[simp] theorem poisonDst_sound (s : State) (c : Coll) : KeepsSound s (poisonDst s c) := .of fun h => by
  simp only [poisonDst]; split <;> simp [h]

@[simp] theorem stopColl_sound (s : State) (id : Nat) :
    KeepsSound s (stopColl s id) := .of fun h => by simp [stopColl, h]

@[simp] theorem abortHere_sound (s : State) (c : Coll) (st : Status) :
    KeepsSound s (abortHere s c st) := .of fun h => by
  simp [abortHere, h]

@[simp] theorem abortedBy_sound (s : State) (c : Coll) (st : Status) :
    KeepsSound s (abortedBy s c st) := .of fun h => by
  simp [abortedBy, h]

@[simp] theorem abortColl_sound (s : State) (id : Nat) (st : Status) :
    KeepsSound s (abortColl s id st) := .of fun h => by
  unfold abortColl
  split
  · exact h
  · next c _ =>
    extract_lets r counts s0
    have h0 : Sound s0 := by simp only [s0, counts]; split <;> simp [h]
    clear_value s0
    have sent : Sound ((List.range (cmMembers r)).foldl (fun x k =>
        if k = cmRank r then x else collSend x c k 12 (statusCode st) 0 []) (stopColl s0 id)) :=
      sound_foldl (fun a k ha => by split <;> simp [ha]) _ (by simp [h0])
    simp [sent]

@[simp] theorem abortCollsOf_sound (s : State) (stream : Nat) (phase : Option Nat) :
    KeepsSound s (abortCollsOf s stream phase) := .of fun h => by
  simp +contextual [abortCollsOf, h]

/-! ### Queues and their records (chapter 11) -/

@[simp] theorem queueError_sound (s : State) (n : Nat) : KeepsSound s (queueError s n) := .of fun h => by
  simp only [queueError]; (repeat' split) <;> simp [h]

@[simp] theorem cmdDeny_sound (s : State) (write : Bool) (a n : Nat) :
    KeepsSound s (cmdDeny s write a n) := .of fun h => by
  simp +contextual [cmdDeny, h]

@[simp] theorem cmdWrite_sound (s : State) (a : Nat) (bs : Bytes) :
    KeepsSound s (cmdWrite s a bs).1 := .of fun h => by
  simp only [cmdWrite]; (repeat' split)
  · refine sound_foldl (fun x l hx => ?_) _ h
    (repeat' split) <;> simp [hx]
  · simp [h]
  · simp [h]

@[simp] theorem putRecord_sound (s : State) (n : Nat) (r : Record) : KeepsSound s (putRecord s n r) := .of fun h => by
  simp only [putRecord]; (repeat' split) <;> simp [h]

@[simp] theorem postRecord_sound (s : State) (n : Nat) (r : Record) :
    KeepsSound s (postRecord s n r) := .of fun h => by
  simp [postRecord, h]

@[simp] theorem flushHeld_sound (k : Nat) (s : State) (n : Nat) : KeepsSound s (flushHeld k s n) := .of fun h => by
  induction k generalizing s with
  | zero => exact h
  | succ k ih => simp only [flushHeld]; (repeat' split) <;> simp [ih, h]

@[simp] theorem flushQueueHeld_sound (s : State) (n : Nat) : KeepsSound s (flushQueueHeld s n) := .of fun h => by
  simp [flushQueueHeld, h]

@[simp] theorem noteServed_sound (s : State) (n : Nat) : KeepsSound s (noteServed s n) := .of fun h => by
  simp [noteServed, h]

@[simp] theorem completeFull_sound (s : State) (n : Nat) (f : Fetched) (st : Status) (split late : Bool)
    (parts : BitVec 16) (effect : Bool) : KeepsSound s (completeFull s n f st split late parts effect) := .of fun h
        => by
  simp only [completeFull]; split <;> simp [h]

@[simp] theorem completeDesc_sound (s : State) (n : Nat) (f : Fetched) (st : Status) :
    KeepsSound s (completeDesc s n f st) := .of fun h => by
  simp [completeDesc, h]

@[simp] theorem refuseDesc_sound (s : State) (n : Nat) (f : Fetched) (st : Status) :
    KeepsSound s (refuseDesc s n f st) := .of fun h => by
  simp [refuseDesc, h]

@[simp] theorem keyFailure_sound (s : State) (n : Nat) (st : Status) :
    KeepsSound s (keyFailure s n st) := .of fun h => by
  simp only [keyFailure]; (repeat' split) <;> simp [h]

@[simp] theorem verifyDesc_sound (s : State) (n : Nat) (d : Bytes) :
    KeepsSound s (verifyDesc s n d).1 := .of fun h => by
  simp only [verifyDesc]; (repeat' split) <;> simp [h]

@[simp] theorem takePeer_sound (s : State) (n : Nat) (desc : Bool) :
    KeepsSound s (takePeer s n desc).1 := .of fun h => by
  simp [takePeer, h]

@[simp] theorem askPeer_sound (s : State) (n : Nat) (desc : Bool) (a len : Nat) :
    KeepsSound s (askPeer s n desc a len) := .of fun h => by
  simp [askPeer, h]

@[simp] theorem forgetPeer_sound (s : State) (n : Nat) : KeepsSound s (forgetPeer s n) := .of fun h => by
  simp [forgetPeer, h]

@[simp] theorem readDoorbell_sound (s : State) (n : Nat) : KeepsSound s (readDoorbell s n) := .of fun h => by
  simp [readDoorbell, h]

@[simp] theorem wakeIfAsleep_sound (s : State) : KeepsSound s (wakeIfAsleep s) := .of fun h => by
  simp only [wakeIfAsleep]; split <;> simp [h]

@[simp] theorem wakeWrite_sound (p : HPort) (value : BitVec 32) (s : State) :
    KeepsSound s (wakeWrite p value s) := .of fun h => by
  simp +contextual [wakeWrite, h]

@[simp] theorem execCmdWake_sound (port : HPort) (value : BitVec 32) (s : State) (h : Sound s) :
    SoundNext (execCmdWake port value s) := by
  simp only [execCmdWake]; split <;> simp [h]

@[simp] theorem execDoorbellPoll_sound (s : State) (h : Sound s) :
    SoundNext (execDoorbellPoll s) := by
  simp only [execDoorbellPoll]; split <;> simp +contextual [h]

end Sys2Proof.Laws
end

section
/-! PROOFS. Sound states through queues, streams, collectives and packets. -/

namespace Sys2Proof.Laws

open Sys2Proof Sys2Proof.Machine
set_option Elab.async false

@[simp] theorem askDescs_sound (s : State) (n : Nat) : KeepsSound s (askDescs s n) := .of fun h => by
  simp only [askDescs]; split <;> simp [h]

@[simp] theorem doorbellWord_sound (s : State) (n : Nat) (w : BitVec 64) :
    KeepsSound s (doorbellWord s n w) := .of fun h => by
  simp [doorbellWord, h]

@[simp] theorem execDoorbellRead_sound (queue : QueueId) (word : Option (BitVec 64)) (s : State) (h : Sound s) :
    SoundNext (execDoorbellRead queue word s) := by
  simp only [execDoorbellRead]; (repeat' split) <;> simp [h]

@[simp] theorem refuseFetched_sound (s : State) (n : Nat) (f : Fetched) (st : Status) :
    KeepsSound s (refuseFetched s n f st) := .of fun h => by
  simp [refuseFetched, h]

@[simp] theorem takeDesc_sound (n : Nat) (s : State) (rd : Except Status Bytes) :
    KeepsSound s (takeDesc n s rd) := .of fun h => by
  simp only [takeDesc]; (repeat' split) <;> simp [h]

@[simp] theorem execDescriptorFetch_sound (queue : QueueId) (descs : List (Option Bytes)) (s : State) (h : Sound s) :
    SoundNext (execDescriptorFetch queue descs s) := by
  simp only [execDescriptorFetch]; (repeat' split) <;> simp +contextual [h]

@[simp] theorem markStarted_sound (s : State) (n : Nat) (f : Fetched) :
    KeepsSound s (markStarted s n f) := .of fun h => by
  simp [markStarted, h]

@[simp] theorem execNop_sound (queue : QueueId) (s : State) (h : Sound s) :
    SoundNext (execNop queue s) := by
  simp only [execNop]; split <;> simp [h]

@[simp] theorem enableQueue_sound (s : State) (n : Nat) : KeepsSound s (enableQueue s n) := .of fun h => by
  simp [enableQueue, h]

@[simp] theorem stopReads_sound (s : State) (n : Nat) :
    KeepsSound s (stopReads s n) := .of fun h => by simp [stopReads, h]

@[simp] theorem disableQueue_sound (s : State) (n : Nat) : KeepsSound s (disableQueue s n) := .of fun h => by
  simp [disableQueue, h]

@[simp] theorem writeQueueCtl_sound (p : HPort) (n value : Nat) (s : State) :
    KeepsSound s (writeQueueCtl p n value s) := .of fun h => by
  simp [writeQueueCtl, h]

@[simp] theorem execQueueClaim_sound (hport : HPort) (queue : QueueId) (s : State) (h : Sound s) :
    SoundNext (execQueueClaim hport queue s) := by
  simp +contextual [execQueueClaim, h]

@[simp] theorem execQueueRelease_sound (hport : HPort) (queue : QueueId) (s : State) (h : Sound s) :
    SoundNext (execQueueRelease hport queue s) := by
  simp +contextual [execQueueRelease, h]

@[simp] theorem execQueueEnable_sound (hport : HPort) (queue : QueueId) (kind : Bool) (msix svc : BitVec 8)
    (s : State) (h : Sound s) :
    SoundNext (execQueueEnable hport queue kind msix svc s) := by
  simp +contextual [execQueueEnable, h]

@[simp] theorem execQueueDisable_sound (hport : HPort) (queue : QueueId) (s : State) (h : Sound s) :
    SoundNext (execQueueDisable hport queue s) := by
  simp +contextual [execQueueDisable, h]

@[simp] theorem orphanQueues_sound (s : State) (p : HPort) : KeepsSound s (orphanQueues s p) := .of fun h => by
  simp +contextual [orphanQueues, h]

/-! ### Forced ends (chapter 11) -/

@[simp] theorem poisonRows_sound (s : State) (a len rows pitch : Nat) :
    KeepsSound s (poisonRows s a len rows pitch) := .of fun h => by
  simp +contextual [poisonRows, h]

@[simp] theorem poisonMat_sound (s : State) (m : Mat) (rows cols : Nat) :
    KeepsSound s (poisonMat s m rows cols) := .of fun h => by
  simp [poisonMat, h]

@[simp] theorem poisonVe_sound (s : State) (n : Nat) (v : VeRun) : KeepsSound s (poisonVe s n v) := .of fun h => by
  simp +contextual [poisonVe, h]

@[simp] theorem poisonCoe_sound (s : State) (n : Nat) (r : OpRun) : KeepsSound s (poisonCoe s n r) := .of fun h => by
  simp +contextual [poisonCoe, h]

@[simp] theorem poisonDma_sound (s : State) (r : OpRun) : KeepsSound s (poisonDma s r) := .of fun h => by
  simp only [poisonDma]; split <;> simp [h]

@[simp] theorem poisonCcm_sound (s : State) (n : Nat) (r : OpRun) : KeepsSound s (poisonCcm s n r) := .of fun h => by
  simp only [poisonCcm]; (repeat' split)
  · simp +contextual [h]
  · exact h
  · simp +contextual [h]
  · exact h

@[simp] theorem poisonMuu_sound (s : State) (run : MuuRun) : KeepsSound s (poisonMuu s run) := .of fun h => by
  simp +contextual [poisonMuu, h]

@[simp] theorem poisonGet_sound (s : State) (d : Bytes) : KeepsSound s (poisonGet s d) := .of fun h => by
  simp only [poisonGet]; split <;> simp [h]

@[simp] theorem endCoreOps_sound (s : State) (n : Nat) (mine : Token → Bool) : KeepsSound s (endCoreOps s n mine).1 :=
  .of fun h => by
  unfold endCoreOps
  extract_lets c lpa lpaP ve veP coe dma ccm s1 s2 s3 s4 s5 s6 s7 d t
  clear_value lpa lpaP ve veP coe dma ccm
  have h1 : Sound s1 := by cases lpa <;> simp [s1, h]
  have h2 : Sound s2 := by cases lpaP <;> simp [s2, h1]
  have h3 : Sound s3 := by cases ve <;> simp [s3, h2]
  have h4 : Sound s4 := by cases veP <;> simp [s4, h3]
  have h5 : Sound s5 := by cases coe <;> simp [s5, h4]
  have h6 : Sound s6 := by cases dma <;> simp [s6, h5]
  have h7 : Sound s7 := by cases ccm <;> simp [s7, h6]
  have hd : CoreSound d := coreSound_getCore h7 n
  exact (setCore_sound _ _ _).mpr (.inl ⟨h7, hd⟩)

@[simp] theorem dropLists_sound (s : State) (n : Nat) (mine : Token → Bool) :
    KeepsSound s (dropLists s n mine) := .of fun h => by
  simp [dropLists, h]

@[simp] theorem dropSamples_sound (s : State) (stream : Nat) (phase : Option Nat) :
    KeepsSound s (dropSamples s stream phase) := .of fun h => by
  simp [dropSamples, h]

@[simp] theorem disarm_sound (s : State) (id : Nat) : KeepsSound s (disarm s id) := .of fun h => by simp [disarm, h]

@[simp] theorem settleStream_sound (s : State) (id : Nat) : KeepsSound s (settleStream s id) := .of fun h => by
  simp only [settleStream]; (repeat' split) <;> simp [h]

@[simp] theorem stopStream_sound (s : State) (id : Nat) (st : Status) :
    KeepsSound s (stopStream s id st) := .of fun h => by
  simp [stopStream, h]

@[simp] theorem overStop_sound (s : State) (id : Nat) (st : Status) :
    KeepsSound s (overStop s id st) := .of fun h => by
  simp [overStop, h]

@[simp] theorem endMb_sound (s : State) (r : StreamRun) (p : Nat) (record : Bytes) (st : Status) :
    KeepsSound s (endMb s r p record st) := .of fun h => by
  simp only [endMb]; (repeat' split) <;> simp [h]

@[simp] theorem putPstat_sound (s : State) (r : StreamRun) (p : Nat) (st : Status) :
    KeepsSound s (putPstat s r p st) := .of fun h => by
  simp [putPstat, h]

@[simp] theorem endPhase_sound (s : State) (id p : Nat) : KeepsSound s (endPhase s id p) := .of fun h => by
  simp only [endPhase]; split <;> simp +contextual [h]

@[simp] theorem dropFired_sound (s : State) (id : Nat) (phase : Option Nat) :
    KeepsSound s (dropFired s id phase) := .of fun h => by
  simp +contextual [dropFired, h]

theorem coresSound_map {m : List (Nat × Core)} (h : CoresSound m) {f : Core → Core}
    (hf : ∀ c, (f c).ctx0 = c.ctx0 ∧ (f c).ctx1 = c.ctx1) : CoresSound (m.map fun p => (p.1, f p.2)) := fun p hp => by
  obtain ⟨q, hq, rfl⟩ := List.mem_map.mp hp
  obtain ⟨h0, h1⟩ := hf q.2
  simpa [CoreSound, h0, h1] using h q hq

@[simp] theorem forceEnd_sound (s : State) (id p : Nat) (st : Status) (hard : Bool) :
    KeepsSound s (forceEnd s id p st hard) := .of fun h => by
  have plates (x : State) (hx : Sound x) (f : Core → Core) (hf : ∀ c, (f c).ctx0 = c.ctx0 ∧ (f c).ctx1 = c.ctx1) :
      Sound { x with cores := (x.cores.map fun c => (c.1, f c.2)).filter (fun c => c.2 != Core.idle) } := by
    have ctx := coresSound_map ((sound_iff x).mp hx).2.2.1 hf
    have ctx : CoresSound ((x.cores.map fun c => (c.1, f c.2)).filter (fun c => c.2 != Core.idle)) :=
      fun c hc => ctx c (List.mem_filter.mp hc).1
    simp [hx, ctx]
  simp only [forceEnd]; split
  · exact h
  · next ph _ =>
    generalize hx : (liveCores s).foldl _ s = x
    have hx : Sound x := hx ▸ sound_foldl (fun a n ha => by simp [ha]) _ h
    have hp := plates x hx (fun c => { c with pq := c.pq.filter (fun e => e.stream != id || e.phase != p) })
      fun _ => ⟨rfl, rfl⟩
    generalize ({ x with cores := _ } : State) = y at hp ⊢
    (repeat' split) <;> simp +contextual [hp]

@[simp] theorem fabricStops_sound (s : State) (id p : Nat) (d : Bytes) (st : Status) :
    KeepsSound s (fabricStops s id p d st) := .of fun h => by
  simp only [fabricStops]; split <;> simp [h]

@[simp] theorem finishFired_sound (s : State) (f : FiredOp) (st : Status) :
    KeepsSound s (finishFired s f st) := .of fun h => by
  simp [finishFired, h]

@[simp] theorem settleFired_sound (k : Nat) (s : State) : KeepsSound s (settleFired k s) := .of fun h => by
  induction k generalizing s with
  | zero => exact h
  | succ k ih => simp only [settleFired]; split <;> simp [ih, h]

@[simp] theorem endWindowSet_sound (s : State) : KeepsSound s (endWindowSet s) := .of fun h => by
  simp only [endWindowSet]; (repeat' split) <;> simp [h]

@[simp] theorem settleAllFired_sound (s : State) : KeepsSound s (settleAllFired s) := .of fun h => by
  simp [settleAllFired, h]

@[simp] theorem forceStream_sound (s : State) (id : Nat) (st : Status) :
    KeepsSound s (forceStream s id st) := .of fun h => by
  simp only [forceStream]; split <;> simp +contextual [h]

@[simp] theorem softStop_sound (s : State) (id : Nat) (st : Status) :
    KeepsSound s (softStop s id st) := .of fun h => by
  simp [softStop, h]

@[simp] theorem clearAvail_sound (s : State) (n : Nat) : KeepsSound s (clearAvail s n) := .of fun h => by
  simp [clearAvail, h]

@[simp] theorem loseCore_sound (s : State) (n : Nat) :
    KeepsSound s (loseCore s n) := .of fun h => by simp +contextual [loseCore, h]

@[simp] theorem markCore_sound (s : State) (n : Nat) (st : Status) : KeepsSound s (markCore s n st) := .of fun h => by
  simp only [markCore]; split <;> simp [h]

@[simp] theorem markCluster_sound (s : State) (c : Nat) (st : Status) :
    KeepsSound s (markCluster s c st) := .of fun h => by
  simp +contextual [markCluster, h]

@[simp] theorem execCoreNoProgress_sound (core : CoreId) (s : State) (h : Sound s) :
    SoundNext (execCoreNoProgress core s) := by
  simp only [execCoreNoProgress]; split <;> simp [h]

@[simp] theorem dropAwait_sound (s : State) (o : FabOwner) : KeepsSound s (dropAwait s o) := .of fun h => by
  simp [dropAwait, h]

@[simp] theorem completeIoOp_sound (s : State) (id p i : Nat) :
    KeepsSound s (completeIoOp s id p i) := .of fun h => by
  simp only [completeIoOp]; (repeat' split) <;> simp [h]

@[simp] theorem execOpComplete_sound (loc : OpLoc) (unit : OpUnit) (s : State) (h : Sound s) :
    SoundNext (execOpComplete loc unit s) := by
  simp only [execOpComplete]; split <;> simp [h]

/-! ### Streams and phases (chapter 11) -/

@[simp] theorem zeroCounters_sound (s : State) (d : Bytes) : KeepsSound s (zeroCounters s d) := .of fun h => by
  simp [zeroCounters, h]

@[simp] theorem admitStream_sound (s : State) (q : Nat) (f : Fetched) (p : StreamPlan) :
    KeepsSound s (admitStream s q f p) := .of fun h => by
  simp [admitStream, h]

@[simp] theorem execRunStream_sound (queue : QueueId) (s : State) (h : Sound s) :
    SoundNext (execRunStream queue s) := by
  simp only [execRunStream]; (repeat' split) <;> simp [h]

@[simp] theorem execStreamAdmit_sound (queue : QueueId) (index : BitVec 32) (s : State) (h : Sound s) :
    SoundNext (execStreamAdmit queue index s) := by
  simp only [execStreamAdmit]; (repeat' split) <;> simp [h]

@[simp] theorem execStreamAbort_sound (queue : QueueId) (s : State) (h : Sound s) :
    SoundNext (execStreamAbort queue s) := by
  simp only [execStreamAbort]; (repeat' split) <;> simp [h]

@[simp] theorem skipPhase_sound (s : State) (id : Nat) (r : StreamRun) (st : Status) :
    KeepsSound s (skipPhase s id r st) := .of fun h => by
  simp only [skipPhase]; split <;> simp [h]

@[simp] theorem copyList_sound (s : State) (e : ListEntry) : KeepsSound s (copyList s e) := .of fun h => by
  simp only [copyList]; split <;> simp [h]

@[simp] theorem sendToken_sound (svc : Bool) (t : Token) (s : State) (e : ListEntry) :
    KeepsSound s (sendToken svc t s e) := .of fun h => by
  cases svc <;> simp [sendToken, h]

@[simp] theorem launchPhase_sound (s : State) (id : Nat) (r : StreamRun) (p : Nat) (pl : PhasePlan) :
    KeepsSound s (launchPhase s id r p pl) := .of fun h => by
  simp +contextual [launchPhase, h]

@[simp] theorem execPhaseStart_sound (stream : StreamId) (s : State) (h : Sound s) :
    SoundNext (execPhaseStart stream s) := by
  simp only [execPhaseStart]; (repeat' split) <;> simp [h]

@[simp] theorem triggerEvent_sound (s : State) (p : PhaseRun) (action : Nat) :
    KeepsSound s (triggerEvent s p action) := .of fun h => by
  simp [triggerEvent, h]

@[simp] theorem rerunPhase_sound (s : State) (id : Nat) (r : StreamRun) (ph : PhaseRun) (entry : Bytes) (rung : Nat)
    (es : List ListEntry) : KeepsSound s (rerunPhase s id r ph entry rung es) := .of fun h => by
  simp [rerunPhase, h]

@[simp] theorem afterTrigger_sound (s : State) (id : Nat) (r : StreamRun) (ph : PhaseRun) :
    KeepsSound s (afterTrigger s id r ph) := .of fun h => by
  simp only [afterTrigger]; (repeat' split) <;> simp [h]

@[simp] theorem execPhaseComplete_sound (stream : StreamId) (phase : PhaseNo) (s : State) (h : Sound s) :
    SoundNext (execPhaseComplete stream phase s) := by
  simp only [execPhaseComplete]; (repeat' split) <;> simp [h]

@[simp] theorem execPhaseWatchdog_sound (stream : StreamId) (phase : PhaseNo) (s : State) (h : Sound s) :
    SoundNext (execPhaseWatchdog stream phase s) := by
  simp only [execPhaseWatchdog]; (repeat' split) <;> simp [h]

/-! ### The collective engine (chapter 13) -/

@[simp] theorem staleColl_sound (s : State) : KeepsSound s (staleColl s) := .of fun h => by simp [staleColl, h]

@[simp] theorem sealSeg_sound (s : State) (id key : Nat) (flow : Nat → Bool) (j : Nat) (bs : Bytes) :
    KeepsSound s (sealSeg s id key flow j bs).1 := .of fun h => by
  simp only [sealSeg]; (repeat' split) <;> simp +contextual [h]

@[simp] theorem openSeg_sound (s : State) (id key : Nat) (flow : Nat → Bool) (j : Nat) (payload : Bytes) :
    KeepsSound s (openSeg s id key flow j payload).1 := .of fun h => by
  simp only [openSeg]; (repeat' split) <;> simp +contextual [h]

@[simp] theorem hear_sound (s : State) (id key : Nat) :
    KeepsSound s (hear s id key) := .of fun h => by simp +contextual [hear, h]

@[simp] theorem failChunk_sound (s : State) (id : Nat) (flow : Nat → Bool) (q : Nat) :
    KeepsSound s (failChunk s id flow q) := .of fun h => by
  simp only [failChunk]; (repeat' split) <;> simp +contextual [h]

@[simp] theorem landResult_sound (s : State) (id src : Nat) (flow : Nat → Bool) (j : Nat) (payload : Bytes)
    (poison : Bool) (targets : List HostGrant) : KeepsSound s (landResult s id src flow j payload poison targets) :=
        .of fun h => by
  simp only [landResult]; (repeat' split) <;> simp +contextual [h]

@[simp] theorem sendDown_sound (s : State) (id j : Nat) (payload : Bytes) (poison : Bool) :
    KeepsSound s (sendDown s id j payload poison) := .of fun h => by
  simp only [sendDown]; split <;> simp +contextual [h]

@[simp] theorem sendUp_sound (s : State) (id j : Nat) (bs : Bytes) (poison : Bool) :
    KeepsSound s (sendUp s id j bs poison) := .of fun h => by
  simp only [sendUp]; split <;> simp +contextual [h]

@[simp] theorem pumpLeaf_sound (k : Nat) (s : State) (id : Nat) : KeepsSound s (pumpLeaf k s id) := .of fun h => by
  induction k generalizing s with
  | zero => exact h
  | succ k ih => simp only [pumpLeaf]; (repeat' split) <;> simp [ih, h]

@[simp] theorem pump_sound (s : State) (id : Nat) : KeepsSound s (pump s id) := .of fun h => by
  simp only [pump]; (repeat' split) <;> simp [h]

@[simp] theorem combineInputs_sound (s : State) (c : Coll) (j : Nat) :
    KeepsSound s (combineInputs s c j).1 := .of fun h => by
  simp only [combineInputs]; (repeat' split) <;> simp [h]

@[simp] theorem rootOut_sound (s : State) (id j : Nat) (bs : Bytes) (poison : Bool) :
    KeepsSound s (rootOut s id j bs poison) := .of fun h => by
  simp only [rootOut]; (repeat' split) <;> simp [h]

@[simp] theorem combineSeg_sound (s : State) (id j : Nat) : KeepsSound s (combineSeg s id j) := .of fun h => by
  simp only [combineSeg]; (repeat' split) <;> simp +contextual [h]

@[simp] theorem epFinish_sound (s : State) (id j : Nat) : KeepsSound s (epFinish s id j) := .of fun h => by
  simp only [epFinish]; (repeat' split) <;> simp +contextual [h]

@[simp] theorem epArrive_sound (s : State) (id src j : Nat) (payload : Bytes) (poison : Bool) :
    KeepsSound s (epArrive s id src j payload poison) := .of fun h => by
  simp only [epArrive]; (repeat' split) <;> simp +contextual [h]

@[simp] theorem epSend_sound (id : Nat) (s : State) (j : Nat) : KeepsSound s (epSend id s j) := .of fun h => by
  simp only [epSend]; (repeat' split) <;> simp [h]

@[simp] theorem epStart_sound (s : State) (id : Nat) : KeepsSound s (epStart s id) := .of fun h => by
  simp only [epStart]; (repeat' split) <;> simp +contextual [h]

@[simp] theorem pumpDown_sound (k : Nat) (s : State) (id : Nat) : KeepsSound s (pumpDown k s id) := .of fun h => by
  induction k generalizing s with
  | zero => exact h
  | succ k ih => simp only [pumpDown]; (repeat' split) <;> simp +contextual [ih, h]

@[simp] theorem gatherStart_sound (s : State) (id : Nat) : KeepsSound s (gatherStart s id) := .of fun h => by
  simp only [gatherStart]; (repeat' split) <;> simp +contextual [h]

@[simp] theorem broadcastStart_sound (s : State) (id : Nat) : KeepsSound s (broadcastStart s id) := .of fun h => by
  simp only [broadcastStart]; (repeat' split) <;> simp +contextual [h]

@[simp] theorem failWindow_sound (s : State) (id src lo n : Nat) :
    KeepsSound s (failWindow s id src lo n) := .of fun h => by
  simp only [failWindow]; split <;> simp +contextual [h]

@[simp] theorem skipChunks_sound (s : State) (id src q : Nat) :
    KeepsSound s (skipChunks s id src q) := .of fun h => by
  simp only [skipChunks]; (repeat' split) <;> simp +contextual [h]

@[simp] theorem checkWindow_sound (s : State) (id src q n : Nat) (crc : Bytes) :
    KeepsSound s (checkWindow s id src q n crc) := .of fun h => by
  simp only [checkWindow]; (repeat' split) <;> simp +contextual [h]

@[simp] theorem a2aLand_sound (s : State) (id src addr : Nat) (bs : Bytes) (mask : Nat) (targets : List HostGrant) :
    KeepsSound s (a2aLand s id src addr bs mask targets) := .of fun h => by
  simp only [a2aLand]; (repeat' split) <;> simp +contextual [h]

@[simp] theorem a2aCounted_sound (s : State) (id src : Nat) (payload : Bytes) (targets : List HostGrant) :
    KeepsSound s (a2aCounted s id src payload targets) := .of fun h => by
  simp only [a2aCounted]; (repeat' split) <;> simp +contextual [h]

@[simp] theorem a2aSend_sound (id : Nat) (counts : List Nat) (s : State) (d : Nat) :
    KeepsSound s (a2aSend id counts s d) := .of fun h => by
  simp only [a2aSend]; (repeat' split) <;> simp +contextual [h]

@[simp] theorem a2aStart_sound (s : State) (id : Nat) : KeepsSound s (a2aStart s id) := .of fun h => by
  simp only [a2aStart]; (repeat' split) <;> simp +contextual [h]

@[simp] theorem finishColl_sound (s : State) (id : Nat) : KeepsSound s (finishColl s id) := .of fun h => by
  simp only [finishColl]; (repeat' split) <;> simp [h]

@[simp] theorem lateHdr_sound (s : State) (host : List HostLine) (d : Bytes) :
    KeepsSound s (lateHdr s host d).1 := .of fun h => by
  simp [lateHdr, h]

@[simp] theorem countAt_sound (s : State) (c : Coll) : KeepsSound s (countAt s c).1 := .of fun h => by
  simp only [countAt]; split <;> simp [h]

@[simp] theorem leftOut_sound (s : State) (id : Nat) : KeepsSound s (leftOut s id) := .of fun h => by
  simp only [leftOut]; (repeat' split) <;> simp +contextual [h]

@[simp] theorem moveData_sound (s : State) (id : Nat) : KeepsSound s (moveData s id) := .of fun h => by
  simp only [moveData]; (repeat' split) <;> simp [h]

@[simp] theorem applyClose_sound (s : State) (id n : Nat) (ep : Bool) (parentFirst : Nat) (contribs : List Nat) :
    KeepsSound s (applyClose s id n ep parentFirst contribs) := .of fun h => by
  simp only [applyClose]; (repeat' split) <;> simp +contextual [h]

@[simp] theorem closeRound_sound (s : State) (id : Nat) : KeepsSound s (closeRound s id) := .of fun h => by
  simp only [closeRound]; (repeat' split) <;> simp +contextual [h]

@[simp] theorem tryClose_sound (s : State) (id : Nat) : KeepsSound s (tryClose s id) := .of fun h => by
  simp only [tryClose]; (repeat' split) <;> simp [h]

@[simp] theorem joinAt_sound (s : State) (id rank rec_ : Nat) :
    KeepsSound s (joinAt s id rank rec_) := .of fun h => by
  simp only [joinAt]; split <;> simp +contextual [h]

@[simp] theorem sendJoin_sound (s : State) (id : Nat) : KeepsSound s (sendJoin s id) := .of fun h => by
  simp only [sendJoin]; (repeat' split) <;> simp [h]

@[simp] theorem takeData_sound (s : State) (c : Coll) (src j : Nat) (payload : Bytes) (poison : Bool) :
    KeepsSound s (takeData s c src j payload poison) := .of fun h => by
  simp only [takeData]; (repeat' split) <;> simp +contextual [h]

@[simp] theorem takeResult_sound (s : State) (c : Coll) (src j : Nat) (payload : Bytes) (poison : Bool)
    (targets : List HostGrant) : KeepsSound s (takeResult s c src j payload poison targets) := .of fun h => by
  simp only [takeResult]; (repeat' split) <;> simp [h]

@[simp] theorem takeClose_sound (s : State) (c : Coll) (p : Bytes) : KeepsSound s (takeClose s c p) := .of fun h => by
  simp only [takeClose]; split <;> simp [h]

@[simp] theorem collPacket_sound (s : State) (c : Coll) (src : Nat) (b : Bytes) (targets : List HostGrant) :
    KeepsSound s (collPacket s c src b targets) := .of fun h => by
  simp only [collPacket]; (repeat' split) <;> simp +contextual [h]

@[simp] theorem keepEarly_sound (s : State) (e : EarlyPkt) : KeepsSound s (keepEarly s e) := .of fun h => by
  simp [keepEarly, h]

@[simp] theorem collTake_sound (s : State) (e : EarlyPkt) : KeepsSound s (collTake s e) := .of fun h => by
  simp only [collTake]; (repeat' split) <;> simp [h]

@[simp] theorem takeEarly_sound (s : State) (e : EarlyPkt) : KeepsSound s (takeEarly s e) := .of fun h => by
  simp only [takeEarly]; split <;> simp [h]

@[simp] theorem replayEarly_sound (s : State) (comm seq : Nat) :
    KeepsSound s (replayEarly s comm seq) := .of fun h => by
  simp +contextual [replayEarly, h]

@[simp] theorem replayDue_sound (s : State) :
    KeepsSound s (replayDue s) := .of fun h => by simp +contextual [replayDue, h]

@[simp] theorem finishColls_sound (s : State) :
    KeepsSound s (finishColls s) := .of fun h => by simp +contextual [finishColls, h]

@[simp] theorem clearLate_sound (s : State) (d : Bytes) : KeepsSound s (clearLate s d) := .of fun h => by
  simp [clearLate, h]

@[simp] theorem dropLate_sound (s : State) (host : List HostLine) (d : Bytes) :
    KeepsSound s (dropLate s host d) := .of fun h => by
  simp only [dropLate]; (repeat' split) <;> simp [h]

@[simp] theorem issueColl_sound (s : State) (owner : OpOwner) (stream phase step : Nat) (late : Bool) (d : Bytes)
    (host : List HostLine) : KeepsSound s (issueColl s owner stream phase step late d host) := .of fun h => by
  unfold issueColl
  extract_lets comm r id needs run c coll s1 s2 held coll2
  have colls : CollsSound (s.coll.colls ++ [c]) := fun x hx => by
    obtain hx | hx := List.mem_append.mp hx
    · exact h.joins x hx
    · rw [List.mem_singleton.mp hx]; exact ⟨rfl, rfl⟩
  have h1 : Sound s1 := by simp [s1, coll, h, colls]
  have h2 : Sound s2 := by simp only [s2]; split <;> simp [h1]
  clear_value s2
  split <;> simp [coll2, h2]

@[simp] theorem carryIn_sound (s : State) (c : Coll) : KeepsSound s (carryIn s c) := .of fun h => by
  simp only [carryIn]; (repeat' split) <;> simp +contextual [h]

@[simp] theorem issueFired_sound (s : State) (f : FiredOp) : KeepsSound s (issueFired s f) := .of fun h => by
  simp only [issueFired]; (repeat' split) <;> simp [h]

@[simp] theorem startWaiting_sound (k : Nat) (s : State) : KeepsSound s (startWaiting k s) := .of fun h => by
  induction k generalizing s with
  | zero => exact h
  | succ k ih => simp only [startWaiting]; split <;> simp [ih, h]

@[simp] theorem settleColls_sound (s : State) : KeepsSound s (settleColls s) := .of fun h => by simp [settleColls, h]

/-! ### Packets that arrive and fabric ops (chapter 12) -/

@[simp] theorem dmaEvent_sound (s : State) (n a : Nat) :
    KeepsSound s (dmaEvent s n a) := .of fun h => by simp [dmaEvent, h]

@[simp] theorem finishFab_sound (s : State) (o : FabOp) : KeepsSound s (finishFab s o) := .of fun h => by
  simp only [finishFab]; (repeat' split) <;> simp +contextual [h]

@[simp] theorem settleOps_sound (s : State) : KeepsSound s (settleOps s) := .of fun h => by
  simp +contextual [settleOps, h]

@[simp] theorem failPacket_sound (s : State) (o : FabOwner) (k : Nat) (st : Status) :
    KeepsSound s (failPacket s o k st) := .of fun h => by
  simp [failPacket, h]

@[simp] theorem resolveTag_sound (s : State) (t : FabTag) (st : Status) :
    KeepsSound s (resolveTag s t st) := .of fun h => by
  simp only [resolveTag]; split <;> simp [h]

@[simp] theorem denyPkt_sound (s : State) (write : Bool) (lines : List Nat) :
    KeepsSound s (denyPkt s write lines) := .of fun h => by
  simp +contextual [denyPkt, h]

@[simp] theorem ordersTwoFour_sound (s : State) (fi : Nat) (b : Bytes) (write : Bool) :
    KeepsSound s (ordersTwoFour s fi b write).1 := .of fun h => by
  simp only [ordersTwoFour]; (repeat' split) <;> simp [h]

@[simp] theorem landLine_sound (b : Bytes) (targets : List HostGrant) (s : State) (l : Nat) :
    KeepsSound s (landLine b targets s l) := .of fun h => by
  simp only [landLine]; (repeat' split) <;> simp [h]

@[simp] theorem countLanded_sound (b : Bytes) (s : State) : KeepsSound s (countLanded b s) := .of fun h => by
  simp only [countLanded]; split <;> simp [h]

@[simp] theorem landPkt_sound (s : State) (b : Bytes) (targets : List HostGrant) :
    KeepsSound s (landPkt s b targets) := .of fun h => by
  simp +contextual [landPkt, h]

@[simp] theorem sendAck_sound (s : State) (fi : Nat) (b : Bytes) (dst : Nat) (st : Status) (src : Option
    (Nat × Nat × Nat)) : KeepsSound s (sendAck s fi b dst st src) := .of fun h => by
  simp only [sendAck]; split <;> simp [h]

@[simp] theorem landChecked_sound (s : State) (fi : Nat) (b : Bytes) (targets : List HostGrant) (src : Option
    (Nat × Nat × Nat)) : KeepsSound s (landChecked s fi b targets src) := .of fun h => by
  simp only [landChecked]; (repeat' split) <;> simp [h]

@[simp] theorem postOrLand_sound (s : State) (fi : Nat) (b : Bytes) (stalled : Bool)
    (src : Option (Nat × Nat × Nat)) : KeepsSound s (postOrLand s fi b stalled src) := .of fun h => by
  simp only [postOrLand]; split <;> simp [h]

@[simp] theorem sinkWrite_sound (s : State) (fi : Nat) (b : Bytes) (stalled : Bool) (src : Option (Nat × Nat × Nat)) :
    KeepsSound s (sinkWrite s fi b stalled src) := .of fun h => by
  simp only [sinkWrite]; split <;> simp [h]

@[simp] theorem dropPost_sound (s : State) (h : HostPost) : KeepsSound s (dropPost s h) := .of fun h => by
  simp [dropPost, h]

@[simp] theorem landPost_sound (s : State) (h : HostPost) : KeepsSound s (landPost s h) := .of fun h => by
  simp only [landPost]; split <;> simp [h]

@[simp] theorem drainPosts_sound (s : State) :
    KeepsSound s (drainPosts s) := .of fun h => by simp +contextual [drainPosts, h]

@[simp] theorem sendReply_sound (s : State) (fi : Nat) (b payload : Bytes) (mask : Nat)
    (src : Option (Nat × Nat × Nat)) : KeepsSound s (sendReply s fi b payload mask src) := .of fun h => by
  simp only [sendReply]; split <;> simp [h]

@[simp] theorem replyFrom_sound (s : State) (m : Mem) (fi : Nat) (b : Bytes) (lost : List Nat) (src : Option
    (Nat × Nat × Nat)) : KeepsSound s (replyFrom s m fi b lost src) := .of fun h => by
  simp [replyFrom, h]

@[simp] theorem fetchHost_sound (s : State) (fi : Nat) (b : Bytes) (src : Option (Nat × Nat × Nat)) :
    KeepsSound s (fetchHost s fi b src) := .of fun h => by
  refine sound_foldl (fun x l hx => ?_) _ (by simp [h])
  split <;> simp [hx]

@[simp] theorem sinkRead_sound (s : State) (fi : Nat) (b : Bytes) (src : Option (Nat × Nat × Nat)) :
    KeepsSound s (sinkRead s fi b src) := .of fun h => by
  simp [sinkRead, h]

@[simp] theorem answerFetch_sound (s : State) (f : HostFetch) : KeepsSound s (answerFetch s f) := .of fun h => by
  simp [answerFetch, h]

@[simp] theorem fetchLine_sound (s : State) (id line : Nat) (data : Option Bytes) :
    KeepsSound s (fetchLine s id line data) := .of fun h => by
  simp only [fetchLine]; (repeat' split) <;> simp [h]

@[simp] theorem sinkData_sound (s : State) (fi : Nat) (b : Bytes) (stalled : Bool) (src : Option (Nat × Nat × Nat)) :
    KeepsSound s (sinkData s fi b stalled src) := .of fun h => by
  simp only [sinkData]; (repeat' split) <;> simp [h]

@[simp] theorem sinkAck_sound (s : State) (fi : Nat) (b : Bytes) (src : Option (Nat × Nat × Nat)) :
    KeepsSound s (sinkAck s fi b src) := .of fun h => by
  simp only [sinkAck]; (repeat' split) <;> simp [h]

@[simp] theorem sinkPlain_sound (s : State) (fi : Nat) (b : Bytes) (stalled : Bool) (src : Option (Nat × Nat × Nat)) :
    KeepsSound s (sinkPlain s fi b stalled src) := .of fun h => by
  simp only [sinkPlain]; (repeat' split) <;> simp [h]

@[simp] theorem takeLoop_sound (s : State) (l : LoopPkt) : KeepsSound s (takeLoop s l) := .of fun h => by
  simp only [takeLoop]; (repeat' split) <;> simp [h]

@[simp] theorem runLoop_sound (k : Nat) (s : State) : KeepsSound s (runLoop k s) := .of fun h => by
  induction k generalizing s with
  | zero => exact h
  | succ k ih => simp only [runLoop]; (repeat' split) <;> simp [ih, h]

@[simp] theorem takeIn_sound (s : State) (h : HeldPkt) : KeepsSound s (takeIn s h) := .of fun h => by
  simp [takeIn, h]

@[simp] theorem comeIn_sound (s : State) (h : HeldPkt) : KeepsSound s (comeIn s h) := .of fun h => by
  simp only [comeIn]; split <;> simp [h]

@[simp] theorem moveOn_sound (k : Nat) (s : State) : KeepsSound s (moveOn k s) := .of fun h => by
  induction k generalizing s with
  | zero => exact h
  | succ k ih => simp only [moveOn]; (repeat' split) <;> simp [ih, h]

@[simp] theorem settleTurns_sound (k : Nat) (s : State) : KeepsSound s (settleTurns k s) := .of fun h => by
  induction k generalizing s with
  | zero => exact h
  | succ k ih => simp [settleTurns, ih, h]

@[simp] theorem settleFab_sound (s : State) : KeepsSound s (settleFab s) := .of fun h => by simp [settleFab, h]

@[simp] theorem enterBuffer_sound (s : State) (p : Nat) (b : Bytes) (stalled : Bool) :
    KeepsSound s (enterBuffer s p b stalled) := .of fun h => by
  simp [enterBuffer, h]

@[simp] theorem arrive_sound (p : FabPort) (b : Bytes) (kind : Nat) (pcie : Option Bool) (s : State) :
    KeepsSound s (arrive p b kind pcie s) := .of fun h => by
  simp [arrive, h]

@[simp] theorem execWrite_sound (port : FabPort) (packet : Bytes) (stalled : Bool) (s : State) (h : Sound s) :
    SoundNext (execWrite port packet stalled s) := by
  simp [execWrite, h]

@[simp] theorem execReadReq_sound (port : FabPort) (packet : Bytes) (s : State) (h : Sound s) :
    SoundNext (execReadReq port packet s) := by
  simp [execReadReq, h]

@[simp] theorem execReadData_sound (port : FabPort) (packet : SinkPacket) (s : State) (h : Sound s) :
    SoundNext (execReadData port packet s) := by
  simp [execReadData, h]

@[simp] theorem execAck_sound (port : FabPort) (packet : Bytes) (s : State) (h : Sound s) :
    SoundNext (execAck port packet s) := by
  simp [execAck, h]

@[simp] theorem execFwdWrite_sound (port : FabPort) (packet : SinkPacket) (s : State) (h : Sound s) :
    SoundNext (execFwdWrite port packet s) := by
  simp [execFwdWrite, h]

end Sys2Proof.Laws
end

section
/-! PROOFS. Sound states through collective ops, serving, host ports and cadence points. -/

namespace Sys2Proof.Laws

open Sys2Proof Sys2Proof.Machine
set_option Elab.async false

@[simp] theorem execIdle_sound (port : FabPort) (flit : Bytes) (corrected uncorrectable : BitVec 16) (s : State)
    (h : Sound s) :
    SoundNext (execIdle port flit corrected uncorrectable s) := by
  simp only [execIdle]; (repeat' split) <;> simp [h]

@[simp] theorem execRouterForward_sound (port : FabPort) (packet : Bytes) (s : State) (h : Sound s) :
    SoundNext (execRouterForward port packet s) := by
  simp only [execRouterForward]; (repeat' split) <;> simp [h]

@[simp] theorem dropEarly_sound (s : State) (e : EarlyPkt) : KeepsSound s (dropEarly s e) := .of fun h => by
  simp [dropEarly, h]

@[simp] theorem execHostSinkTimeout_sound (id : Nat) (s : State) (h : Sound s) :
    SoundNext (execHostSinkTimeout id s) := by
  simp only [execHostSinkTimeout]; (repeat' split) <;> simp [h]

@[simp] theorem execFabricTimeout_sound (fi : FabPort) (tag : BitVec 24) (s : State) (h : Sound s) :
    SoundNext (execFabricTimeout fi tag s) := by
  simp only [execFabricTimeout]; (repeat' split) <;> simp [h]

@[simp] theorem execPortLightDetected_sound (port : FabPort) (s : State) (h : Sound s) :
    SoundNext (execPortLightDetected port s) := by
  simp only [execPortLightDetected]; split <;> simp [h]

@[simp] theorem execPortClockLock_sound (port : FabPort) (s : State) (h : Sound s) :
    SoundNext (execPortClockLock port s) := by
  simp only [execPortClockLock]; split <;> simp [h]

@[simp] theorem execPortCodewordLock_sound (port : FabPort) (s : State) (h : Sound s) :
    SoundNext (execPortCodewordLock port s) := by
  simp only [execPortCodewordLock]; split <;> simp [h]

@[simp] theorem execPortTrained_sound (port : FabPort) (s : State) (h : Sound s) :
    SoundNext (execPortTrained port s) := by
  simp only [execPortTrained]; split <;> simp [h]

@[simp] theorem execParam_sound (port : FabPort) (node : BitVec 16) (peerPort : BitVec 4) (s : State) (h : Sound s) :
    SoundNext (execParam port node peerPort s) := by
  simp only [execParam]; split <;> simp [h]

@[simp] theorem execPortStateTimeout_sound (port : FabPort) (s : State) (h : Sound s) :
    SoundNext (execPortStateTimeout port s) := by
  simp only [execPortStateTimeout]; split <;> simp [h]

@[simp] theorem takeCut_sound (s : State) (p : Nat) (b : Bytes) : KeepsSound s (takeCut s p b) := .of fun h => by
  simp [takeCut, h]

@[simp] theorem execLinkDrop_sound (port : FabPort) (loss : LinkLoss) (s : State) (h : Sound s) :
    SoundNext (execLinkDrop port loss s) := by
  simp only [execLinkDrop]; (repeat' split) <;> simp [h]

@[simp] theorem writePortCfg_sound (p value : Nat) (s : State) :
    KeepsSound s (writePortCfg p value s) := .of fun h => by
  simp [writePortCfg, h]

@[simp] theorem execFabPortCfg_sound (hport : HPort) (port : FabPort) (value : BitVec 64) (s : State) (h : Sound s) :
    SoundNext (execFabPortCfg hport port value s) := by
  simp +contextual [execFabPortCfg, h]

@[simp] theorem joinPair_sound (s : State) (i : Nat) :
    KeepsSound s (joinPair s i) := .of fun h => by simp [joinPair, h]

@[simp] theorem writeBypass_sound (value : Nat) (s : State) : KeepsSound s (writeBypass value s) := .of fun h => by
  simp only [writeBypass]; (repeat' split) <;> simp +contextual [h]

@[simp] theorem execBypassSwitchDone_sound (pair : BitVec 3) (s : State) (h : Sound s) :
    SoundNext (execBypassSwitchDone pair s) := by
  simp only [execBypassSwitchDone]; split <;> simp [h]

@[simp] theorem writeRoute_sound (index value : Nat) (s : State) :
    KeepsSound s (writeRoute index value s) := .of fun h => by
  simp +contextual [writeRoute, h]

@[simp] theorem execFabRouteTab_sound (hport : HPort) (index : BitVec 14) (value : BitVec 32) (s : State)
    (h : Sound s) :
    SoundNext (execFabRouteTab hport index value s) := by
  simp +contextual [execFabRouteTab, h]

@[simp] theorem fabReject_sound (loc : OpLoc) (s : State) (o : NextOp) (st : Status) :
    KeepsSound s (fabReject loc s o st) := .of fun h => by
  simp [fabReject, h]

@[simp] theorem noteFab_sound (s : State) (o : FabOp) :
    KeepsSound s (noteFab s o) := .of fun h => by simp [noteFab, h]

@[simp] theorem startPut_sound (s : State) (w : FabOwner) (fi id p : Nat) (d : Bytes) (host : List HostLine) :
    KeepsSound s (startPut s w fi id p d host) := .of fun h => by
  simp +contextual [startPut, h]

@[simp] theorem startGet_sound (s : State) (w : FabOwner) (fi id p : Nat) (d : Bytes) :
    KeepsSound s (startGet s w fi id p d) := .of fun h => by
  simp +contextual [startGet, h]

@[simp] theorem execPut_sound (loc : OpLoc) (host : List HostLine) (s : State) (h : Sound s) :
    SoundNext (execPut loc host s) := by
  simp only [execPut]; (repeat' split) <;> simp [h]

@[simp] theorem execGet_sound (loc : OpLoc) (s : State) (h : Sound s) :
    SoundNext (execGet loc s) := by
  simp only [execGet]; (repeat' split) <;> simp [h]

@[simp] theorem execAwait_sound (loc : OpLoc) (s : State) (h : Sound s) :
    SoundNext (execAwait loc s) := by
  simp only [execAwait]; (repeat' split) <;> simp [h]

@[simp] theorem execAwaitTimeout_sound (loc : OpLoc) (s : State) (h : Sound s) :
    SoundNext (execAwaitTimeout loc s) := by
  simp only [execAwaitTimeout]; split
  · simp [h]
  · refine (soundNext_next _).mpr (sound_foldl (fun x o hx => ?_) _ h)
    (repeat' split) <;> simp [hx]

@[simp] theorem setEpochs_sound (s : State) (map : Nat) (e : BitVec 16) :
    KeepsSound s (setEpochs s map e) := .of fun h => by
  simp +contextual [setEpochs, h]

@[simp] theorem execRoleSet_sound (op : OpLines) (s : State) (h : Sound s) :
    SoundNext (execRoleSet op s) := by
  simp only [execRoleSet]; (repeat' split) <;> simp [h]

@[simp] theorem dmaRow_sound (p : DmaParm) (host : List HostLine) (x : State × Option Status) (r : Nat) :
    KeepsSound x.1 (dmaRow p host x r).1 := .of fun h => by
  simp [dmaRow, h]

@[simp] theorem dmaView_sound (p : DmaParm) (host : List HostLine) (s : State) :
    KeepsSound s (dmaView p host s).s := .of fun h => by
  simp +contextual [dmaView, h]

@[simp] theorem dmaRows_sound (p : DmaParm) (host : List HostLine) (s : State) :
    KeepsSound s (dmaRows p host s).1 := .of fun h => by
  simp +contextual [dmaRows, h]

@[simp] theorem dmaWarn_sound (p : DmaParm) (host : List HostLine) (s : State) (n : Nat) (st : Option Status) :
    KeepsSound s (dmaWarn p host s n st) := .of fun h => by
  simp only [dmaWarn]; split <;> simp [h]

@[simp] theorem dmaRemote_sound (s : State) (n : Nat) (t : Token) (d : Bytes) (fi : Nat) (host : List HostLine) :
    KeepsSound s (dmaRemote s n t d fi host) := .of fun h => by
  simp only [dmaRemote]; split <;> simp +contextual [h]

@[simp] theorem dmaRun_sound (s : State) (n : Nat) (o : NextOp) (st : Status) (finished : Bool) :
    KeepsSound s (dmaRun s n o st finished) := .of fun h => by
  simp [dmaRun, h]

@[simp] theorem execDmaCopy_sound (core : CoreId) (host : List HostLine) (s : State) (h : Sound s) :
    SoundNext (execDmaCopy core host s) := by
  simp only [execDmaCopy]; (repeat' split) <;> simp [h]

/-! ### Collective ops and trigger entries (chapter 13) -/

@[simp] theorem runColl_sound (k : Nat) (loc : OpLoc) (host : List HostLine) (s : State) :
    KeepsSound s (runColl k loc host s) := .of fun h => by
  simp only [runColl]; (repeat' split) <;> simp [h]

@[simp] theorem execAllReduce_sound (loc : OpLoc) (host : List HostLine) (s : State) (h : Sound s) :
    SoundNext (execAllReduce loc host s) := by
  simp [execAllReduce, h]

@[simp] theorem execReduceScatter_sound (loc : OpLoc) (host : List HostLine) (s : State) (h : Sound s) :
    SoundNext (execReduceScatter loc host s) := by
  simp [execReduceScatter, h]

@[simp] theorem execAllGather_sound (loc : OpLoc) (host : List HostLine) (s : State) (h : Sound s) :
    SoundNext (execAllGather loc host s) := by
  simp [execAllGather, h]

@[simp] theorem execReduce_sound (loc : OpLoc) (host : List HostLine) (s : State) (h : Sound s) :
    SoundNext (execReduce loc host s) := by
  simp [execReduce, h]

@[simp] theorem execBroadcast_sound (loc : OpLoc) (host : List HostLine) (s : State) (h : Sound s) :
    SoundNext (execBroadcast loc host s) := by
  simp [execBroadcast, h]

@[simp] theorem execBarrier_sound (loc : OpLoc) (host : List HostLine) (s : State) (h : Sound s) :
    SoundNext (execBarrier loc host s) := by
  simp [execBarrier, h]

@[simp] theorem execAllToAllv_sound (loc : OpLoc) (host : List HostLine) (s : State) (h : Sound s) :
    SoundNext (execAllToAllv loc host s) := by
  simp [execAllToAllv, h]

@[simp] theorem execCollReady_sound (id : Nat) (host : List HostLine) (s : State) (h : Sound s) :
    SoundNext (execCollReady id host s) := by
  simp only [execCollReady]; (repeat' split) <;> simp [h]

@[simp] theorem execCollDeadline_sound (id : Nat) (s : State) (h : Sound s) :
    SoundNext (execCollDeadline id s) := by
  simp only [execCollDeadline]; (repeat' split) <;> simp [h]

@[simp] theorem execSegmentCombine_sound (id segment : Nat) (s : State) (h : Sound s) :
    SoundNext (execSegmentCombine id segment s) := by
  simp only [execSegmentCombine]; (repeat' split) <;> simp [h]

@[simp] theorem execCollTimeout_sound (id : Nat) (s : State) (h : Sound s) :
    SoundNext (execCollTimeout id s) := by
  simp only [execCollTimeout]; (repeat' split) <;> simp [h]

@[simp] theorem execJoin_sound (port : FabPort) (packet : Bytes) (s : State) (h : Sound s) :
    SoundNext (execJoin port packet s) := by
  simp [execJoin, h]

@[simp] theorem execClose_sound (port : FabPort) (packet : Bytes) (s : State) (h : Sound s) :
    SoundNext (execClose port packet s) := by
  simp [execClose, h]

@[simp] theorem execData_sound (port : FabPort) (packet : Bytes) (s : State) (h : Sound s) :
    SoundNext (execData port packet s) := by
  simp [execData, h]

@[simp] theorem execResult_sound (port : FabPort) (packet : SinkPacket) (s : State) (h : Sound s) :
    SoundNext (execResult port packet s) := by
  simp [execResult, h]

@[simp] theorem execCredit_sound (port : FabPort) (packet : Bytes) (s : State) (h : Sound s) :
    SoundNext (execCredit port packet s) := by
  simp [execCredit, h]

@[simp] theorem execAbort_sound (port : FabPort) (packet : Bytes) (s : State) (h : Sound s) :
    SoundNext (execAbort port packet s) := by
  simp [execAbort, h]

@[simp] theorem execA2aData_sound (port : FabPort) (packet : SinkPacket) (s : State) (h : Sound s) :
    SoundNext (execA2aData port packet s) := by
  simp [execA2aData, h]

@[simp] theorem execA2aCount_sound (port : FabPort) (packet : SinkPacket) (s : State) (h : Sound s) :
    SoundNext (execA2aCount port packet s) := by
  simp [execA2aCount, h]

@[simp] theorem fiRd_sound (s : State) (host : List HostLine) (a n : Nat) :
    KeepsSound s (fiRd s host a n).1 := .of fun h => by
  simp [fiRd, h]

@[simp] theorem execTrigArm_sound (op : OpLines) (s : State) (h : Sound s) :
    SoundNext (execTrigArm op s) := by
  simp only [execTrigArm]; (repeat' split) <;> simp [h]

@[simp] theorem firedEnd_sound (s : State) (k : Nat) (st : Status) : KeepsSound s (firedEnd s k st) := .of fun h => by
  simp [firedEnd, h]

@[simp] theorem startFired_sound (s : State) (f : FiredOp) : KeepsSound s (startFired s f) := .of fun h => by
  simp only [startFired]; (repeat' split) <;> simp [h]

@[simp] theorem execTriggerFire_sound (fi : FabPort) (entry : BitVec 10) (host : List HostLine) (s : State)
    (h : Sound s) :
    SoundNext (execTriggerFire fi entry host s) := by
  simp only [execTriggerFire]; (repeat' split) <;> simp [h]

/-! ### Patrol scrub (chapter 10) -/

@[simp] theorem execPatrolScrub_sound (addr : BitVec 48) (result : ScrubResult) (s : State) (h : Sound s) :
    SoundNext (execPatrolScrub addr result s) := by
  simp only [execPatrolScrub]; split <;> simp [h]

@[simp] theorem sramTwice_sound (s : State) (a : Nat) : KeepsSound s (sramTwice s a) := .of fun h => by
  simp only [sramTwice]; (repeat' split) <;> simp [h]

@[simp] theorem execSramScrub_sound (addr : BitVec 48) (result : ScrubResult) (s : State) (h : Sound s) :
    SoundNext (execSramScrub addr result s) := by
  simp only [execSramScrub]; (repeat' split) <;> simp [h]

/-! ### Batched serving (chapter 11) -/

@[simp] theorem dramLine_sound (src dst n : Nat) (x : State × Option Status) (l : Nat) :
    KeepsSound x.1 (dramLine src dst n x l).1 := .of fun h => by
  simp only [dramLine]; split <;> simp [h]

@[simp] theorem dramCopy_sound (s : State) (src dst n : Nat) :
    KeepsSound s (dramCopy s src dst n).1 := .of fun h => by
  simp +contextual [dramCopy, h]

@[simp] theorem closeBlock_sound (s : State) (r : Bytes) (b : SvcBlock) :
    KeepsSound s (closeBlock s r b) := .of fun h => by
  simp +contextual [closeBlock, h]

@[simp] theorem putOpen_sound (s : State) (r : Bytes) (b : SvcBlock) : KeepsSound s (putOpen s r b) := .of fun h => by
  simp only [putOpen]; split <;> simp [h]

@[simp] theorem execServiceRequest_sound (queue : QueueId) (s : State) (h : Sound s) :
    SoundNext (execServiceRequest queue s) := by
  simp only [execServiceRequest]; (repeat' split) <;> simp [h]

@[simp] theorem execBlockClose_sound (svc : BitVec 8) (s : State) (h : Sound s) :
    SoundNext (execBlockClose svc s) := by
  simp only [execBlockClose]; (repeat' split) <;> simp [h]

@[simp] theorem preemptCore_sound (s : State) (n : Nat) : KeepsSound s (preemptCore s n) := .of fun h => by
  simp [preemptCore, h]

@[simp] theorem pausePhases_sound (s : State) (map : Nat) : KeepsSound s (pausePhases s map) := .of fun h => by
  simp [pausePhases, h]

@[simp] theorem refuseReq_sound (st : Status) (s : State) (x : SvcReq) :
    KeepsSound s (refuseReq st s x) := .of fun h => by
  simp only [refuseReq]; split <;> simp [h]

@[simp] theorem dropLateReqs_sound (s : State) (b : SvcBlock) : KeepsSound s (dropLateReqs s b).1 := .of fun h => by
  simp only [dropLateReqs]; split <;> simp +contextual [h]

@[simp] theorem failBlock_sound (s : State) (b : SvcBlock) (e : Status) :
    KeepsSound s (failBlock s b e) := .of fun h => by
  simp +contextual [failBlock, h]

@[simp] theorem resumeCore_sound (s : State) (n : Nat) : KeepsSound s (resumeCore s n) := .of fun h => by
  simp [resumeCore, h]

@[simp] theorem resumePhases_sound (s : State) :
    KeepsSound s (resumePhases s) := .of fun h => by simp [resumePhases, h]

@[simp] theorem resumeTraining_sound (s : State) : KeepsSound s (resumeTraining s) := .of fun h => by
  simp +contextual [resumeTraining, h]

@[simp] theorem askCores_sound (s : State) (map : Nat) :
    KeepsSound s (askCores s map) := .of fun h => by simp +contextual [askCores, h]

@[simp] theorem beginBlock_sound (s : State) (b : SvcBlock) : KeepsSound s (beginBlock s b) := .of fun h => by
  simp only [beginBlock]; (repeat' split) <;> simp [h]

@[simp] theorem startBlock_sound (s : State) (b : SvcBlock) : KeepsSound s (startBlock s b) := .of fun h => by
  simp only [startBlock]; split <;> simp [h]

@[simp] theorem execBlockStart_sound (svc : BitVec 8) (s : State) (h : Sound s) :
    SoundNext (execBlockStart svc s) := by
  simp only [execBlockStart]; (repeat' split) <;> simp [h]

@[simp] theorem execPreemptMinExpiry_sound (svc : BitVec 8) (s : State) (h : Sound s) :
    SoundNext (execPreemptMinExpiry svc s) := by
  simp only [execPreemptMinExpiry]; (repeat' split) <;> simp [h]

@[simp] theorem execPlateBoundary_sound (core : CoreId) (s : State) (h : Sound s) :
    SoundNext (execPlateBoundary core s) := by
  simp only [execPlateBoundary]; (repeat' split) <;> simp [h]

@[simp] theorem finishReq_sound (b : SvcBlock) (st : Status) (s : State) (x : SvcReq) :
    KeepsSound s (finishReq b st s x) := .of fun h => by
  simp only [finishReq]; (repeat' split) <;> simp [h]

@[simp] theorem execBlockEnd_sound (svc : BitVec 8) (s : State) (h : Sound s) :
    SoundNext (execBlockEnd svc s) := by
  simp only [execBlockEnd]; (repeat' split) <;> simp +contextual [h]

/-! ### COPY and the Meridian commands (chapters 08 and 11) -/

@[simp] theorem copyInLine_sound (host : List HostLine) (src dst n : Nat) (x : State × Option Status) (l : Nat) :
    KeepsSound x.1 (copyInLine host src dst n x l).1 := .of fun h => by
  simp only [copyInLine]; split <;> simp [h]

@[simp] theorem copyIn_sound (s : State) (host : List HostLine) (src dst n : Nat) :
    KeepsSound s (copyIn s host src dst n).1 := .of fun h => by
  simp +contextual [copyIn, h]

@[simp] theorem copyOutLine_sound (port : HPort) (src dst n : Nat) (x : State × Option Status) (l : Nat) :
    KeepsSound x.1 (copyOutLine port src dst n x l).1 := .of fun h => by
  simp [copyOutLine, h]

@[simp] theorem copyOut_sound (s : State) (p : Option HPort) (src dst n : Nat) :
    KeepsSound s (copyOut s p src dst n).1 := .of fun h => by
  simp only [copyOut]; (repeat' split) <;> simp +contextual [h]

@[simp] theorem copyAll_sound (s : State) (port : Option HPort) (host : List HostLine) (p : CopyParm) :
    KeepsSound s (copyAll s port host p).1 := .of fun h => by
  simp only [copyAll]; split <;> simp +contextual [h]

@[simp] theorem execCopy_sound (queue : QueueId) (s : State) (h : Sound s) :
    SoundNext (execCopy queue s) := by
  simp only [execCopy]; (repeat' split) <;> simp [h]

@[simp] theorem execCopyCompletion_sound (queue : QueueId) (index : BitVec 32) (host : List HostLine) (s : State)
    (h : Sound s) :
    SoundNext (execCopyCompletion queue index host s) := by
  simp only [execCopyCompletion]; split <;> simp [h]

theorem endMeridian_sound (q : Nat) (f : Fetched) {s : State} (h : Sound s) {r : State × Status} (hr : Sound r.1) :
    Sound (endMeridian q f s r) := by
  simp only [endMeridian]; split <;> simp [hr, h]

@[simp] theorem execMeridianFlip_sound (queue : QueueId) (s : State) (h : Sound s) :
    SoundNext (execMeridianFlip queue s) := by
  simp only [execMeridianFlip]; split
  · simp +contextual [h]
  · simp +contextual [endMeridian_sound, h]

@[simp] theorem execMeridianRollback_sound (queue : QueueId) (s : State) (h : Sound s) :
    SoundNext (execMeridianRollback queue s) := by
  simp only [execMeridianRollback]; split
  · simp +contextual [h]
  · simp +contextual [endMeridian_sound, h]

@[simp] theorem takeQueue_sound (s : State) (n : Nat) (owner : BitVec 2) :
    KeepsSound s (takeQueue s n owner) := .of fun h => by
  simp [takeQueue, h]

@[simp] theorem execQueueReassign_sound (queue : QueueId) (s : State) (h : Sound s) :
    SoundNext (execQueueReassign queue s) := by
  simp only [execQueueReassign]; (repeat' split) <;> simp +contextual [h]

/-! ### Host ports (chapter 14) -/

@[simp] theorem drivePin_sound (s : State) (name : String) (asserted : Bool) :
    KeepsSound s (drivePin s name asserted) := .of fun h => by
  simp [drivePin, h]

@[simp] theorem setWakeOut_sound (s : State) (p : HPort) (w : Option Nat) :
    KeepsSound s (setWakeOut s p w) := .of fun h => by
  simp only [setWakeOut]; (repeat' split) <;> simp [h]

@[simp] theorem losePort_sound (s : State) (p : HPort) :
    KeepsSound s (losePort s p) := .of fun h => by simp [losePort, h]

@[simp] theorem execPortLost_sound (port : HPort) (s : State) (h : Sound s) :
    SoundNext (execPortLost port s) := by
  simp only [execPortLost]; split <;> simp [h]

@[simp] theorem linkUpAs_msix (x : HostPortState) (rate : BitVec 3) (width : BitVec 4) (flit slow : Bool) :
    (linkUpAs x rate width flit slow).msix = x.msix := rfl

@[simp] theorem linkUpAs_pba (x : HostPortState) (rate : BitVec 3) (width : BitVec 4) (flit slow : Bool) :
    (linkUpAs x rate width flit slow).pba = x.pba := rfl

@[simp] theorem execPortReturn_sound (port : HPort) (rate : BitVec 3) (width : BitVec 4) (flit : Bool) (s : State)
    (h : Sound s) : SoundNext (execPortReturn port rate width flit s) := by
  simp only [execPortReturn]; (repeat' split) <;> simp [h]

@[simp] theorem countDenied_sound (s : State) (p : HPort) : KeepsSound s (countDenied s p) := .of fun h => by
  simp [countDenied, h]

@[simp] theorem bar4Line_sound (s : State) (p : HPort) (write : Bool) (l : Nat) :
    KeepsSound s (bar4Line s p write l).1 := .of fun h => by
  simp only [bar4Line]; (repeat' split) <;> simp [h]

@[simp] theorem bar4ReadLine_sound (p : HPort) (a n : Nat) (s : State) (l : Nat) :
    KeepsSound s (bar4ReadLine p a n s l) := .of fun h => by
  simp [bar4ReadLine, h]

@[simp] theorem bar4Read_sound (p : HPort) (off n : Nat) (s : State) :
    KeepsSound s (bar4Read p off n s) := .of fun h => by
  simp +contextual [bar4Read, h]

@[simp] theorem bar4WriteLine_sound (p : HPort) (a : Nat) (data : Bytes) (poisoned : Bool) (s : State) (l : Nat) :
    KeepsSound s (bar4WriteLine p a data poisoned s l) := .of fun h => by
  simp [bar4WriteLine, h]

@[simp] theorem bar4Write_sound (p : HPort) (off : Nat) (data : Bytes) (poisoned : Bool) (s : State) :
    KeepsSound s (bar4Write p off data poisoned s) := .of fun h => by
  simp +contextual [bar4Write, h]

@[simp] theorem execBar4Read_sound (port : HPort) (offset : BitVec 36) (len : Nat) (s : State) (h : Sound s) :
    SoundNext (execBar4Read port offset len s) := by
  simp only [execBar4Read]; split <;> simp [h]

@[simp] theorem execBar4Write_sound (port : HPort) (offset : BitVec 36) (data : Bytes) (poisoned : Bool)
    (s : State) (h : Sound s) :
    SoundNext (execBar4Write port offset data poisoned s) := by
  simp only [execBar4Write]; split <;> simp [h]

@[simp] theorem writeAper_sound (p : HPort) (value : Nat) (s : State) :
    KeepsSound s (writeAper p value s) := .of fun h => by
  simp [writeAper, h]

@[simp] theorem execHifAper_sound (hport index : HPort) (value : BitVec 64) (s : State) (h : Sound s) :
    SoundNext (execHifAper hport index value s) := by
  simp +contextual [execHifAper, h]

@[simp] theorem dropRead_sound (s : State) (r : PcieRead) : KeepsSound s (dropRead s r) := .of fun h => by
  simp [dropRead, h]

@[simp] theorem readBack_sound (s : State) (r : PcieRead) (data : Option Bytes) :
    KeepsSound s (readBack s r data) := .of fun h => by
  simp only [readBack]; (repeat' split) <;> simp [h]

@[simp] theorem lateCompletion_sound (s : State) (p : HPort) : KeepsSound s (lateCompletion s p) := .of fun h => by
  simp [lateCompletion, h]

@[simp] theorem execPcieCompletion_sound (port : HPort) (tag : BitVec 14) (data : Bytes) (good : Bool)
    (s : State) (h : Sound s) :
    SoundNext (execPcieCompletion port tag data good s) := by
  simp only [execPcieCompletion]; (repeat' split) <;> simp [h]

@[simp] theorem execCompletionTimeout_sound (port : HPort) (tag : BitVec 14) (s : State) (h : Sound s) :
    SoundNext (execCompletionTimeout port tag s) := by
  simp only [execCompletionTimeout]; (repeat' split) <;> simp [h]

@[simp] theorem unmaskVector_sound (p : HPort) (v : Nat) (s : State) :
    KeepsSound s (unmaskVector p v s) := .of fun h => by
  simp only [unmaskVector]; split <;> simp [h]

@[simp] theorem execMsixUnmask_sound (port : HPort) (vector : BitVec 8) (s : State) (h : Sound s) :
    SoundNext (execMsixUnmask port vector s) := by
  simp only [execMsixUnmask]; split <;> simp [h]

@[simp] theorem mctpDrop_sound (s : State) (b : MctpBinding) : KeepsSound s (mctpDrop s b) := .of fun h => by
  simp only [mctpDrop]; split <;> simp [h]

@[simp] theorem mctpAnswer_sound (s : State) (b : MctpBinding) (cmd : Nat) (data : Bytes) :
    KeepsSound s (mctpAnswer s b cmd data).1 := .of fun h => by
  simp only [mctpAnswer]; (repeat' split) <;> simp [h]

@[simp] theorem writeCfg_msix (x : HostPortState) (field : CfgField) (value : BitVec 32) :
    (writeCfg x field value).msix = x.msix := by cases field <;> rfl

@[simp] theorem writeCfg_pba (x : HostPortState) (field : CfgField) (value : BitVec 32) :
    (writeCfg x field value).pba = x.pba := by cases field <;> rfl

@[simp] theorem execConfigSpaceWrite_sound (port : HPort) (field : CfgField) (value : BitVec 32) (s : State)
    (h : Sound s) : SoundNext (execConfigSpaceWrite port field value s) := by
  simp only [execConfigSpaceWrite]; (repeat' split) <;> simp [h]

/-! ### Cadence points, loops and limiters (chapters 01 and 17) -/

@[simp] theorem setCeil_sound (s : State) (c : CeilState) :
    KeepsSound s (setCeil s c) := .of fun h => by simp [setCeil, h]

@[simp] theorem beginChange_sound (s : State) (t : Nat) (origin : PointOrigin) (guard : Bool) :
    KeepsSound s (beginChange s t origin guard) := .of fun h => by
  simp only [beginChange]; split <;> simp [h]

@[simp] theorem seek_sound (s : State) (t : Nat) (origin : PointOrigin) :
    KeepsSound s (seek s t origin) := .of fun h => by
  simp only [seek]; (repeat' split) <;> simp [h]

@[simp] theorem retarget_sound (s : State) : KeepsSound s (retarget s) := .of fun h => by
  simp only [retarget]; split <;> simp [h]

@[simp] theorem withCeil_sound (s : State) (f : CeilState → CeilState) :
    KeepsSound s (withCeil s f) := .of fun h => by
  simp [withCeil, h]

@[simp] theorem answerPoint_sound (s : State) (st : Status) : KeepsSound s (answerPoint s st) := .of fun h => by
  simp [answerPoint, h]

@[simp] theorem refusePoint_sound (s : State) : KeepsSound s (refusePoint s) := .of fun h => by simp [refusePoint, h]

@[simp] theorem execPointRequest_sound (target : BitVec 3) (origin : PointOrigin) (s : State) (h : Sound s) :
    SoundNext (execPointRequest target origin s) := by
  simp only [execPointRequest]; split <;> simp [h]

@[simp] theorem nextChange_sound (s : State) : KeepsSound s (nextChange s) := .of fun h => by
  simp only [nextChange]; (repeat' split) <;> simp [h]

@[simp] theorem endChange_sound (s : State) (q : Nat) :
    KeepsSound s (endChange s q) := .of fun h => by simp [endChange, h]

@[simp] theorem execRailSettled_sound (rates : List Nat) (s : State) (h : Sound s) :
    SoundNext (execRailSettled rates s) := by
  simp only [execRailSettled]; (repeat' split) <;> simp [h]

@[simp] theorem guardStep_sound (s : State) (k : Nat) :
    KeepsSound s (guardStep s k) := .of fun h => by simp [guardStep, h]

@[simp] theorem execGuardStepDown_sound (cluster : ClusterId) (rateMhz : Nat) (bySlips : Bool) (s : State)
    (h : Sound s) :
    SoundNext (execGuardStepDown cluster rateMhz bySlips s) := by
  simp only [execGuardStepDown]; (repeat' split) <;> simp [h]

@[simp] theorem tickCore_sound (s : State) (n : Nat) :
    KeepsSound s (tickCore s n) := .of fun h => by simp [tickCore, h]

@[simp] theorem noteSlips_sound (s : State) (slips : List (Nat × Nat)) :
    KeepsSound s (noteSlips s slips) := .of fun h => by
  simp [noteSlips, h]

@[simp] theorem execCadenceTick_sound (slips : List (Nat × Nat)) (s : State) (h : Sound s) :
    SoundNext (execCadenceTick slips s) := by
  simp only [execCadenceTick]; (repeat' split) <;> simp +contextual [h]

@[simp] theorem settleAlert_sound (s : State) : KeepsSound s (settleAlert s) := .of fun h => by
  simp only [settleAlert]; (repeat' split) <;> simp [h]

@[simp] theorem limiterActs_sound (s : State) : KeepsSound s (limiterActs s) := .of fun h => by simp [limiterActs, h]

@[simp] theorem execFastPower_sound (watts : Nat) (s : State) (h : Sound s) :
    SoundNext (execFastPower watts s) := by
  simp only [execFastPower]; (repeat' split) <;> simp [h]

@[simp] theorem execOvercurrent_sound (s : State) (h : Sound s) :
    SoundNext (execOvercurrent s) := by
  simp only [execOvercurrent]; split <;> simp [h]

@[simp] theorem execHot_sound (s : State) (h : Sound s) :
    SoundNext (execHot s) := by
  simp only [execHot]; split <;> simp [h]

@[simp] theorem execInputLow_sound (s : State) (h : Sound s) :
    SoundNext (execInputLow s) := by
  simp only [execInputLow]; split <;> simp [h]

@[simp] theorem execHotRelease_sound (s : State) (h : Sound s) :
    SoundNext (execHotRelease s) := by simp [execHotRelease, h]

@[simp] theorem execInputLowRelease_sound (s : State) (h : Sound s) :
    SoundNext (execInputLowRelease s) := by
  simp [execInputLowRelease, h]

@[simp] theorem execOpticsHot_sound (port : FabPort) (s : State) (h : Sound s) :
    SoundNext (execOpticsHot port s) := by
  simp only [execOpticsHot]; split <;> simp [h]

@[simp] theorem execOpticsHotRelease_sound (port : FabPort) (s : State) (h : Sound s) :
    SoundNext (execOpticsHotRelease port s) := by
  simp only [execOpticsHotRelease]; split <;> simp [h]

@[simp] theorem execLimiterRelease_sound (limiter : HeldLimiter) (s : State) (h : Sound s) :
    SoundNext (execLimiterRelease limiter s) := by
  simp only [execLimiterRelease]; (repeat' split) <;> simp [h]

@[simp] theorem takeLoops_sound (s : State) : KeepsSound s (takeLoops s) := .of fun h => by
  simp only [takeLoops]; split <;> simp [h]

@[simp] theorem sample_sound (s : State) (x : Sensors) : KeepsSound s (sample s x) := .of fun h => by
  simp only [sample]; split <;> simp [h]

@[simp] theorem execPowerLoopTick_sound (pIn pPkg v10mv i10ma : Nat) (rails : List Nat) (s : State) (h : Sound s) :
    SoundNext (execPowerLoopTick pIn pPkg v10mv i10ma rails s) := by
  simp only [execPowerLoopTick]; split <;> simp [h]

@[simp] theorem execThermalLoopTick_sound (clusters io optics dimms : List Nat) (s : State) (h : Sound s) :
    SoundNext (execThermalLoopTick clusters io optics dimms s) := by
  simp only [execThermalLoopTick]; split <;> simp [h]

@[simp] theorem execMonitorSweep_sound (rates : List Nat) (s : State) (h : Sound s) :
    SoundNext (execMonitorSweep rates s) := by
  simp only [execMonitorSweep]; (repeat' split) <;> simp [h]

@[simp] theorem execClusterGate_sound (cluster : ClusterId) (s : State) (h : Sound s) :
    SoundNext (execClusterGate cluster s) := by
  simp only [execClusterGate]; split <;> simp [h]

@[simp] theorem execClusterWake_sound (cluster : ClusterId) (s : State) (h : Sound s) :
    SoundNext (execClusterWake cluster s) := by
  simp [execClusterWake, h]

/-! ### Security commands (chapter 15) -/

end Sys2Proof.Laws
end

section
/-! PROOFS. Sound states through security, firmware, power states and the host interface. -/

namespace Sys2Proof.Laws

open Sys2Proof Sys2Proof.Machine
set_option Elab.async false

@[simp] theorem eraseSlots_sound (s : State) : KeepsSound s (eraseSlots s) := .of fun h => by simp [eraseSlots, h]

@[simp] theorem execAttest_sound (queue : QueueId) (s : State) (h : Sound s) :
    SoundNext (execAttest queue s) := by
  simp only [execAttest]; (repeat' split) <;> simp [h]

@[simp] theorem setOwner_sound (s : State) (key : Option Bytes) (seq : Nat) :
    KeepsSound s (setOwner s key seq) := .of fun h => by
  simp [setOwner, h]

@[simp] theorem execOwnerClaim_sound (queue : QueueId) (s : State) (h : Sound s) :
    SoundNext (execOwnerClaim queue s) := by
  simp only [execOwnerClaim]; (repeat' split) <;> simp [h]

@[simp] theorem execOwnerRotate_sound (queue : QueueId) (s : State) (h : Sound s) :
    SoundNext (execOwnerRotate queue s) := by
  simp only [execOwnerRotate]; (repeat' split) <;> simp [h]

@[simp] theorem setSlot_sound (s : State) (slot : Nat) (k : Option Bytes) :
    KeepsSound s (setSlot s slot k) := .of fun h => by
  by_cases h0 : slot = 0 <;> simp [setSlot, h0, h]

@[simp] theorem setSlotSeq_sound (s : State) (slot n : Nat) : KeepsSound s (setSlotSeq s slot n) := .of fun h => by
  by_cases h0 : slot = 0 <;> simp [setSlotSeq, h0, h]

@[simp] theorem execKeyInstall_sound (queue : QueueId) (s : State) (h : Sound s) :
    SoundNext (execKeyInstall queue s) := by
  simp only [execKeyInstall]; (repeat' split) <;> simp [h]

@[simp] theorem execKeyRevoke_sound (queue : QueueId) (s : State) (h : Sound s) :
    SoundNext (execKeyRevoke queue s) := by
  simp only [execKeyRevoke]; (repeat' split) <;> simp [h]

@[simp] theorem putEntries_sound (s : State) (f : Fetched) : KeepsSound s (putEntries s f) := .of fun h => by
  simp +contextual [putEntries, h]

@[simp] theorem execWindowSet_sound (queue : QueueId) (s : State) (h : Sound s) :
    SoundNext (execWindowSet queue s) := by
  simp only [execWindowSet]; (repeat' split) <;> simp [h]

@[simp] theorem setSvc_sound (s : State) (st level : Nat) : KeepsSound s (setSvc s st level) := .of fun h => by
  simp [setSvc, h]

@[simp] theorem lockSvc_sound (s : State) : KeepsSound s (lockSvc s) := .of fun h => by
  simp only [lockSvc]; split <;> simp [h]

@[simp] theorem execSvcUnlock_sound (queue : QueueId) (s : State) (h : Sound s) :
    SoundNext (execSvcUnlock queue s) := by
  simp only [execSvcUnlock]; (repeat' split) <;> simp [h]

@[simp] theorem execSvcLock_sound (queue : QueueId) (s : State) (h : Sound s) :
    SoundNext (execSvcLock queue s) := by
  simp only [execSvcLock]; split <;> simp [h]

@[simp] theorem execSvnCommit_sound (queue : QueueId) (s : State) (h : Sound s) :
    SoundNext (execSvnCommit queue s) := by
  simp only [execSvnCommit]; split <;> simp [h]

@[simp] theorem execMrExtend_sound (queue : QueueId) (s : State) (h : Sound s) :
    SoundNext (execMrExtend queue s) := by
  simp only [execMrExtend]; (repeat' split) <;> simp [h]

@[simp] theorem execVendorChallenge_sound (signature : Bytes) (s : State) (h : Sound s) :
    SoundNext (execVendorChallenge signature s) := by
  simp only [execVendorChallenge]; (repeat' split) <;> simp [h]

@[simp] theorem execSvcUnlockExpiry_sound (s : State) (h : Sound s) :
    SoundNext (execSvcUnlockExpiry s) := by
  simp only [execSvcUnlockExpiry]; split <;> simp [h]

@[simp] theorem execServiceConnectorRead_sound (which : ServiceRead) (s : State) (h : Sound s) :
    SoundNext (execServiceConnectorRead which s) := by
  simp only [execServiceConnectorRead]; (repeat' split) <;> simp [h]

@[simp] theorem execFailureLogClear_sound (s : State) (h : Sound s) :
    SoundNext (execFailureLogClear s) := by
  simp only [execFailureLogClear]; split <;> simp [h]

@[simp] theorem execKeyRevocationBurn_sound (key : BitVec 2) (s : State) (h : Sound s) :
    SoundNext (execKeyRevocationBurn key s) := by
  simp only [execKeyRevocationBurn]; split <;> simp [h]

/-! ### Firmware and the mailbox (chapter 16) -/

@[simp] theorem runImage_sound (s : State) (b : Bytes) :
    KeepsSound s (runImage s b) := .of fun h => by simp [runImage, h]

@[simp] theorem putOut_sound (s : State) (p : HPort) (m : Bytes) : KeepsSound s (putOut s p m) := .of fun h => by
  simp only [putOut]; split <;> simp [h]

@[simp] theorem sendResponse_sound (s : State) (ch : Nat) (m : Bytes) :
    KeepsSound s (sendResponse s ch m) := .of fun h => by
  simp [sendResponse, h]

@[simp] theorem respond_sound (s : State) (r : MbxReq) (st : Status) (fields : Bytes) :
    KeepsSound s (respond s r st fields) := .of fun h => by
  simp [respond, h]

@[simp] theorem mbVerify_sound (s : State) (ch : Nat) (m : Bytes) :
    KeepsSound s (mbVerify s ch m).1 := .of fun h => by
  simp only [mbVerify]; (repeat' split) <;> simp [h]

@[simp] theorem mbHello_sound (s : State) (r : MbxReq) :
    KeepsSound s (mbHello s r) := .of fun h => by simp [mbHello, h]

@[simp] theorem mbLoadBegin_sound (s : State) (r : MbxReq) : KeepsSound s (mbLoadBegin s r) := .of fun h => by
  simp only [mbLoadBegin]; split <;> simp [h]

@[simp] theorem mbLoadData_sound (s : State) (r : MbxReq) : KeepsSound s (mbLoadData s r) := .of fun h => by
  simp only [mbLoadData]; split <;> simp [h]

@[simp] theorem mbLoadEnd_sound (s : State) (r : MbxReq) : KeepsSound s (mbLoadEnd s r) := .of fun h => by
  simp only [mbLoadEnd]; split <;> simp [h]

@[simp] theorem useConfig_sound (s : State) (b : Bytes) : KeepsSound s (useConfig s b) := .of fun h => by
  simp [useConfig, h]

@[simp] theorem applyConfig_sound (s : State) (b : Bytes) : KeepsSound s (applyConfig s b) := .of fun h => by
  simp [applyConfig, h]

@[simp] theorem mbConfigSet_sound (s : State) (r : MbxReq) : KeepsSound s (mbConfigSet s r) := .of fun h => by
  simp [mbConfigSet, h]

@[simp] theorem mbEventRing_sound (s : State) (r : MbxReq) : KeepsSound s (mbEventRing s r) := .of fun h => by
  simp only [mbEventRing]; split <;> simp [h]

@[simp] theorem mbCertRead_sound (s : State) (r : MbxReq) : KeepsSound s (mbCertRead s r) := .of fun h => by
  simp only [mbCertRead]; split <;> simp [h]

@[simp] theorem mbEntries_sound (s : State) (r : MbxReq) (log : List Bytes) (n : Nat) :
    KeepsSound s (mbEntries s r log n) := .of fun h => by
  simp [mbEntries, h]

@[simp] theorem mbSensor_sound (s : State) (r : MbxReq) (groups : Nat → Bool) :
    KeepsSound s (mbSensor s r groups) := .of fun h => by
  simp only [mbSensor]; split <;> simp [h]

@[simp] theorem startEntry_sound (s : State) (target : BitVec 3) (byHold : Bool) (reply : Option MbxReq) :
    KeepsSound s (startEntry s target byHold reply) := .of fun h => by
  simp [startEntry, h]

@[simp] theorem holdStart_sound (s : State) : KeepsSound s (holdStart s) := .of fun h => by
  simp only [holdStart]; split <;> simp [h]

@[simp] theorem enterRunState_sound (s : State) (st : BitVec 3) (trim : Nat) :
    KeepsSound s (enterRunState s st trim) :=
  .of fun h => by
  simp only [enterRunState]
  by_cases hst : st = 2#3 <;> simp [hst, h]

@[simp] theorem mbPowerReq_sound (s : State) (r : MbxReq) : KeepsSound s (mbPowerReq s r) := .of fun h => by
  simp only [mbPowerReq]; (repeat' split) <;> simp [h]

@[simp] theorem mbStage_sound (s : State) (r : MbxReq) : KeepsSound s (mbStage s r) := .of fun h => by
  simp only [mbStage]; (repeat' split) <;> simp [h]

@[simp] theorem mbVerifyImage_sound (s : State) (r : MbxReq) : KeepsSound s (mbVerifyImage s r) := .of fun h => by
  simp only [mbVerifyImage]; (repeat' split) <;> simp [h]

@[simp] theorem mbActivate_sound (s : State) (r : MbxReq) : KeepsSound s (mbActivate s r) := .of fun h => by
  simp only [mbActivate]; split <;> simp [h]

@[simp] theorem mbAbort_sound (s : State) (r : MbxReq) : KeepsSound s (mbAbort s r) := .of fun h => by
  simp only [mbAbort]; split <;> simp [h]

@[simp] theorem mbStatus_sound (s : State) (r : MbxReq) : KeepsSound s (mbStatus s r) := .of fun h => by
  simp only [mbStatus]; split <;> simp [h]

@[simp] theorem mbRun_sound (s : State) (r : MbxReq) : KeepsSound s (mbRun s r) := .of fun h => by
  simp only [mbRun]; split <;> simp [h]

@[simp] theorem mbServe_sound (s : State) (ch : Nat) (m : Bytes) : KeepsSound s (mbServe s ch m) := .of fun h => by
  simp only [mbServe]; (repeat' split) <;> simp [h]

@[simp] theorem mbPump_sound (s : State) (p : HPort) : KeepsSound s (mbPump s p) := .of fun h => by
  simp only [mbPump]; split <;> simp [h]

@[simp] theorem naServe_sound (s : State) (ch : Nat) (m : Bytes) : KeepsSound s (naServe s ch m) := .of fun h => by
  simp only [naServe]; (repeat' split) <;> simp [h]

@[simp] theorem mctpRequest_sound (s : State) (ch : Nat) (m : Bytes) :
    KeepsSound s (mctpRequest s ch m) := .of fun h => by
  simp [mctpRequest, h]

@[simp] theorem mctpTake_sound (b : MctpBinding) (m : Bytes) (s : State) :
    KeepsSound s (mctpTake b m s) := .of fun h => by
  simp [mctpTake, h]

@[simp] theorem execMctpControl_sound (binding : MctpBinding) (packets : List MctpPacket) (s : State) (h : Sound s) :
    SoundNext (execMctpControl binding packets s) := by
  simp only [execMctpControl]; (repeat' split) <;> simp [h]

@[simp] theorem mbArrive_sound (s : State) (ch : Nat) (m : Bytes) : KeepsSound s (mbArrive s ch m) := .of fun h => by
  simp [mbArrive, h]

@[simp] theorem mbCommand_sound (t : Nat) (channel : BitVec 3) (m : Bytes) (s : State) (h : Sound s) :
    SoundNext (mbCommand t channel m s) := by
  simp only [mbCommand]; split <;> simp [h]

@[simp] theorem execHello_sound (channel : BitVec 3) (message : Bytes) (s : State) (h : Sound s) :
    SoundNext (execHello channel message s) := by
  simp [execHello, h]

@[simp] theorem execLoadBegin_sound (channel : BitVec 3) (message : Bytes) (s : State) (h : Sound s) :
    SoundNext (execLoadBegin channel message s) := by
  simp [execLoadBegin, h]

@[simp] theorem execLoadData_sound (channel : BitVec 3) (message : Bytes) (s : State) (h : Sound s) :
    SoundNext (execLoadData channel message s) := by
  simp [execLoadData, h]

@[simp] theorem execLoadEnd_sound (channel : BitVec 3) (message : Bytes) (s : State) (h : Sound s) :
    SoundNext (execLoadEnd channel message s) := by
  simp [execLoadEnd, h]

@[simp] theorem execConfigSet_sound (channel : BitVec 3) (message : Bytes) (s : State) (h : Sound s) :
    SoundNext (execConfigSet channel message s) := by
  simp [execConfigSet, h]

@[simp] theorem execEventRingSet_sound (channel : BitVec 3) (message : Bytes) (s : State) (h : Sound s) :
    SoundNext (execEventRingSet channel message s) := by
  simp [execEventRingSet, h]

@[simp] theorem execCertRead_sound (channel : BitVec 3) (message : Bytes) (s : State) (h : Sound s) :
    SoundNext (execCertRead channel message s) := by
  simp [execCertRead, h]

@[simp] theorem execMlogRead_sound (channel : BitVec 3) (message : Bytes) (s : State) (h : Sound s) :
    SoundNext (execMlogRead channel message s) := by
  simp [execMlogRead, h]

@[simp] theorem execFaillogRead_sound (channel : BitVec 3) (message : Bytes) (s : State) (h : Sound s) :
    SoundNext (execFaillogRead channel message s) := by
  simp [execFaillogRead, h]

@[simp] theorem execSensorRead_sound (channel : BitVec 3) (message : Bytes) (s : State) (h : Sound s) :
    SoundNext (execSensorRead channel message s) := by
  simp [execSensorRead, h]

@[simp] theorem execPowerReq_sound (channel : BitVec 3) (message : Bytes) (s : State) (h : Sound s) :
    SoundNext (execPowerReq channel message s) := by
  simp [execPowerReq, h]

@[simp] theorem execFwuStage_sound (channel : BitVec 3) (message : Bytes) (s : State) (h : Sound s) :
    SoundNext (execFwuStage channel message s) := by
  simp [execFwuStage, h]

@[simp] theorem execFwuVerify_sound (channel : BitVec 3) (message : Bytes) (s : State) (h : Sound s) :
    SoundNext (execFwuVerify channel message s) := by
  simp [execFwuVerify, h]

@[simp] theorem execFwuActivate_sound (channel : BitVec 3) (message : Bytes) (s : State) (h : Sound s) :
    SoundNext (execFwuActivate channel message s) := by
  simp [execFwuActivate, h]

@[simp] theorem execFwuAbort_sound (channel : BitVec 3) (message : Bytes) (s : State) (h : Sound s) :
    SoundNext (execFwuAbort channel message s) := by
  simp [execFwuAbort, h]

@[simp] theorem execFwuStatus_sound (channel : BitVec 3) (message : Bytes) (s : State) (h : Sound s) :
    SoundNext (execFwuStatus channel message s) := by
  simp [execFwuStatus, h]

@[simp] theorem putHeld_sound (s : State) (p : HPort) (m : Bytes) : KeepsSound s (putHeld s p m) := .of fun h => by
  simp only [putHeld]; split <;> simp [h]

@[simp] theorem clearDone_sound (p : HPort) (s : State) : KeepsSound s (clearDone p s) := .of fun h => by
  simp only [clearDone]; split <;> simp [h]

@[simp] theorem execMbxDoneClear_sound (port : HPort) (s : State) (h : Sound s) :
    SoundNext (execMbxDoneClear port s) := by
  simp only [execMbxDoneClear]; split <;> simp [h]

@[simp] theorem execLoaderPortLost_sound (port : HPort) (s : State) (h : Sound s) :
    SoundNext (execLoaderPortLost port s) := by
  simp only [execLoaderPortLost]; (repeat' split) <;> simp [h]

@[simp] theorem bringDram_sound (s : State) (spd : List (Option Dimm)) :
    KeepsSound s (bringDram s spd) := .of fun h => by
  simp only [bringDram]; split <;> simp +contextual [h]

@[simp] theorem markBist_sound (s : State) (c : Nat) : KeepsSound s (markBist s c) := .of fun h => by
  simp +contextual [markBist, h]

@[simp] theorem execEnterConfigWait_sound (spd : List (Option Dimm)) (s : State) (h : Sound s) :
    SoundNext (execEnterConfigWait spd s) := by
  simp only [execEnterConfigWait]; split <;> simp +contextual [h]

@[simp] theorem writeHandoff_sound (s : State) :
    KeepsSound s (writeHandoff s) := .of fun h => by simp [writeHandoff, h]

@[simp] theorem restoreHandoff_sound (s : State) (b : Bytes) : KeepsSound s (restoreHandoff s b) := .of fun h => by
  simp only [restoreHandoff]; (repeat' split) <;> simp [h]

@[simp] theorem loseHandoff_sound (s : State) : KeepsSound s (loseHandoff s) := .of fun h => by simp [loseHandoff, h]

@[simp] theorem resumeOwn_sound (s : State) : KeepsSound s (resumeOwn s) := .of fun h => by
  simp only [resumeOwn]; split <;> simp [h]

@[simp] theorem resumeFw_sound (s : State) : KeepsSound s (resumeFw s) := .of fun h => by
  simp +contextual [resumeFw, h]

@[simp] theorem answerActivate_sound (s : State) (st : Status) : KeepsSound s (answerActivate s st) := .of fun h => by
  simp only [answerActivate]; split <;> simp [h]

@[simp] theorem execFwuSwitch_sound (s : State) (h : Sound s) :
    SoundNext (execFwuSwitch s) := by
  simp only [execFwuSwitch]; (repeat' split) <;> simp [h]

@[simp] theorem execLoopHoldTimeout_sound (s : State) (h : Sound s) :
    SoundNext (execLoopHoldTimeout s) := by
  simp only [execLoopHoldTimeout]; split <;> simp [h]

@[simp] theorem execFwuConfirm_sound (s : State) (h : Sound s) :
    SoundNext (execFwuConfirm s) := by
  simp only [execFwuConfirm]; split <;> simp [h]

@[simp] theorem stopControl_sound (s : State) : KeepsSound s (stopControl s) := .of fun h => by simp [stopControl, h]

@[simp] theorem execFwuRevert_sound (refused : Bool) (s : State) (h : Sound s) :
    SoundNext (execFwuRevert refused s) := by
  simp only [execFwuRevert]; (repeat' split) <;> simp [h]

@[simp] theorem execRevertRegionCopyDone_sound (s : State) (h : Sound s) :
    SoundNext (execRevertRegionCopyDone s) := by
  simp only [execRevertRegionCopyDone]; split <;> simp [h]

@[simp] theorem execCcWatchdog_sound (cause : WatchdogCause) (s : State) (h : Sound s) :
    SoundNext (execCcWatchdog cause s) := by
  simp only [execCcWatchdog]; (repeat' split) <;> simp [h]

/-! ### Registers but TOP_NODE_ID and FAB_BYPASS (chapter 20) -/

@[simp] theorem writeNodeId_sound (value : Nat) (s : State) : KeepsSound s (writeNodeId value s) := .of fun h => by
  simp only [writeNodeId]; (repeat' split) <;> simp +contextual [h]

@[simp] theorem writeQueueReg_sound (p : HPort) (n k value : Nat) (s : State) :
    KeepsSound s (writeQueueReg p n k value s) := .of fun h => by
  simp only [writeQueueReg]; (repeat' split) <;> simp [h]

@[simp] theorem writeRouteCtl_sound (value : Nat) (s : State) :
    KeepsSound s (writeRouteCtl value s) := .of fun h => by
  simp [writeRouteCtl, h]

@[simp] theorem writeCommBase_sound (value : Nat) (s : State) :
    KeepsSound s (writeCommBase value s) := .of fun h => by
  simp [writeCommBase, h]

@[simp] theorem writeCompute_sound (s : State) (off value : Nat) :
    KeepsSound s (writeCompute s off value) := .of fun h => by
  simp only [writeCompute]; split <;> simp [h]

@[simp] theorem writeTrain_sound (s : State) (off value : Nat) :
    KeepsSound s (writeTrain s off value) := .of fun h => by
  simp only [writeTrain]; (repeat' split) <;> simp [h]

@[simp] theorem writeMem_sound (s : State) (off value : Nat) : KeepsSound s (writeMem s off value) := .of fun h => by
  simp only [writeMem]; (repeat' split) <;> simp [h]

@[simp] theorem writeOther_sound (s : State) (off value : Nat) :
    KeepsSound s (writeOther s off value) := .of fun h => by
  simp only [writeOther]; (repeat' split) <;> simp [h]

@[simp] theorem writeArray_sound (p : HPort) (s : State) (off value : Nat) :
    KeepsSound s (writeArray p s off value) := .of fun h => by
  simp only [writeArray]; (repeat' split) <;> simp [h]

@[simp] theorem writeReg_sound (p : HPort) (off size value : Nat) (s : State) :
    KeepsSound s (writeReg p off size value s) := .of fun h => by
  simp only [writeReg]; (repeat' split) <;> simp [h]

@[simp] theorem writeMbxCtl_sound (p : HPort) (value : Nat) (s : State) :
    KeepsSound s (writeMbxCtl p value s) := .of fun h => by
  simp [writeMbxCtl, h]

@[simp] theorem writeMsix_sound (p : HPort) (k size value : Nat) (s : State) :
    KeepsSound s (writeMsix p k size value s) := .of fun h => by
  simp only [writeMsix]; split <;> simp [h]

@[simp] theorem writeBar2_sound (p : HPort) (off size value : Nat) (s : State) :
    KeepsSound s (writeBar2 p off size value s) := .of fun h => by
  simp only [writeBar2]; (repeat' split) <;> simp [h]

@[simp] theorem answerRead_sound (p : HPort) (bar : HostBar) (off size : Nat) (s : State) :
    KeepsSound s (answerRead p bar off size s) := .of fun h => by
  simp [answerRead, h]

@[simp] theorem execBar0Read_sound (hport : HPort) (bar : HostBar) (offset : BitVec 26) (size : Nat) (s : State)
    (h : Sound s) :
    SoundNext (execBar0Read hport bar offset size s) := by
  simp only [execBar0Read]; (repeat' split) <;> simp [h]

/-! ### Power states and sideband inputs (chapter 17) -/

@[simp] theorem loseDies_sound (s : State) :
    KeepsSound s (loseDies s) := .of fun h => by simp +contextual [loseDies, h]

@[simp] theorem disableFabric_sound (s : State) :
    KeepsSound s (disableFabric s) := .of fun h => by simp +contextual [disableFabric, h]

@[simp] theorem freshPort_msix (x : HostPortState) : (freshPort x).msix = [] := rfl

@[simp] theorem freshPort_pba (x : HostPortState) : (freshPort x).pba = [] := rfl

@[simp] theorem portToL2_sound (s : State) (p : HPort) :
    KeepsSound s (portToL2 s p) := .of fun h => by simp +contextual [portToL2, h]

@[simp] theorem railOff_sound (s : State) (target : BitVec 3) : KeepsSound s (railOff s target) := .of fun h => by
  simp +contextual [railOff, h]

@[simp] theorem answerOpen_sound (s : State) (reached point : Nat) :
    KeepsSound s (answerOpen s reached point) := .of fun h => by
  simp +contextual [answerOpen, h]

@[simp] theorem abandonEntry_sound (s : State) (e : PowerEntry) (point : Nat) :
    KeepsSound s (abandonEntry s e point) := .of fun h => by
  simp only [abandonEntry]; split <;> simp [h]

@[simp] theorem answerEntry_sound (s : State) (e : PowerEntry) (reached point : Nat) :
    KeepsSound s (answerEntry s e reached point) := .of fun h => by
  simp only [answerEntry]; split <;> simp [h]

@[simp] theorem setStage_sound (s : State) (e : PowerEntry) (k : Nat) :
    KeepsSound s (setStage s e k) := .of fun h => by
  simp [setStage, h]

@[simp] theorem advanceEntry_sound (target : BitVec 3) (s : State) :
    KeepsSound s (advanceEntry target s) := .of fun h => by
  simp only [advanceEntry]; (repeat' split) <;> simp [h]

@[simp] theorem execClosedEntry_sound (s : State) (h : Sound s) :
    SoundNext (execClosedEntry s) := by simp [execClosedEntry, h]

@[simp] theorem execParkedEntry_sound (s : State) (h : Sound s) :
    SoundNext (execParkedEntry s) := by simp [execParkedEntry, h]

@[simp] theorem execQuiesceTimeout_sound (s : State) (h : Sound s) :
    SoundNext (execQuiesceTimeout s) := by
  simp only [execQuiesceTimeout]; (repeat' split) <;> simp +contextual [h]

@[simp] theorem serveHeld_sound (s : State) (h : HeldAccess) : KeepsSound s (serveHeld s h) := .of fun h => by
  simp only [serveHeld]; (repeat' split) <;> simp [h]

@[simp] theorem openAgain_sound (s : State) : KeepsSound s (openAgain s) := .of fun h => by
  simp +contextual [openAgain, h]

@[simp] theorem execWakeOutputLimit_sound (port : HPort) (s : State) (h : Sound s) :
    SoundNext (execWakeOutputLimit port s) := by
  simp only [execWakeOutputLimit]; (repeat' split) <;> simp [h]

@[simp] theorem setSide_sound (s : State) (i : Nat) (x : SideIn) : KeepsSound s (setSide s i x) := .of fun h => by
  simp [setSide, h]

@[simp] theorem sideAssert_sound (s : State) (i : Nat) : KeepsSound s (sideAssert s i).1 := .of fun h => by
  simp only [sideAssert]; (repeat' split) <;> simp [h]

@[simp] theorem sideDeassert_sound (s : State) (i : Nat) : KeepsSound s (sideDeassert s i).1 := .of fun h => by
  simp only [sideDeassert]; split <;> simp [h]

@[simp] theorem execInputHeld_sound (input : BitVec 3) (s : State) (h : Sound s) :
    SoundNext (execInputHeld input s) := by
  simp only [execInputHeld]; (repeat' split) <;> simp [h]

@[simp] theorem execInputUnmasked_sound (input : BitVec 3) (s : State) (h : Sound s) :
    SoundNext (execInputUnmasked input s) := by
  simp only [execInputUnmasked]; (repeat' split) <;> simp [h]

@[simp] theorem execSlotIdChange_sound (s : State) (h : Sound s) :
    SoundNext (execSlotIdChange s) := by
  simp only [execSlotIdChange]; (repeat' split) <;> simp [h]

@[simp] theorem wakeSource_sound (s : State) (i : Nat) : KeepsSound s (wakeSource s i) := .of fun h => by
  simp [wakeSource, h]

@[simp] theorem execHoldNAssert_sound (s : State) (h : Sound s) :
    SoundNext (execHoldNAssert s) := by simp [execHoldNAssert, h]

@[simp] theorem execHoldNDeassert_sound (s : State) (h : Sound s) :
    SoundNext (execHoldNDeassert s) := by
  simp only [execHoldNDeassert]; split <;> simp [h]

@[simp] theorem setBrake_sound (s : State) (on : Bool) :
    KeepsSound s (setBrake s on) := .of fun h => by simp [setBrake, h]

@[simp] theorem execPwrbrkNAssert_sound (s : State) (h : Sound s) :
    SoundNext (execPwrbrkNAssert s) := by
  simp only [execPwrbrkNAssert]; split <;> simp [h]

@[simp] theorem execPwrbrkNDeassert_sound (s : State) (h : Sound s) :
    SoundNext (execPwrbrkNDeassert s) := by
  simp only [execPwrbrkNDeassert]; split <;> simp [h]

@[simp] theorem execWakeInN_sound (s : State) (h : Sound s) :
    SoundNext (execWakeInN s) := by
  simp only [execWakeInN]; split <;> simp [h]

/-! ### Resets and power-up (chapter 18) -/

@[simp] theorem portReset_sound (s : State) (p : HPort) : KeepsSound s (portReset s p) := .of fun h => by
  simp +contextual [portReset, h]

@[simp] theorem countPerst_sound (s : State) (p : HPort) : KeepsSound s (countPerst s p) := .of fun h => by
  simp only [countPerst]; split <;> simp [h]

@[simp] theorem countHot_sound (s : State) (p : HPort) : KeepsSound s (countHot s p) := .of fun h => by
  simp only [countHot]; split <;> simp [h]

@[simp] theorem perstOn_sound (s : State) (p : HPort) :
    KeepsSound s (perstOn s p) := .of fun h => by simp [perstOn, h]

@[simp] theorem trainFromNow_sound (s : State) (p : HPort) : KeepsSound s (trainFromNow s p) := .of fun h => by
  simp only [trainFromNow]; split <;> simp [h]

@[simp] theorem execPerstAssert_sound (port : HPort) (s : State) (h : Sound s) :
    SoundNext (execPerstAssert port s) := by
  simp only [execPerstAssert]; split <;> simp [h]

@[simp] theorem execPerstDeassert_sound (port : HPort) (s : State) (h : Sound s) :
    SoundNext (execPerstDeassert port s) := by
  simp only [execPerstDeassert]; split <;> simp [h]

@[simp] theorem execHotReset_sound (port : HPort) (s : State) (h : Sound s) :
    SoundNext (execHotReset port s) := by
  simp only [execHotReset]; split <;> simp [h]

@[simp] theorem levelAgain_sound (old s : State) (i : Nat) : KeepsSound s (levelAgain old s i) := .of fun h => by
  simp only [levelAgain]; (repeat' split) <;> simp [h]

@[simp] theorem bringUp_sound (s : State) : KeepsSound s (bringUp s) := .of fun h => by simp [bringUp, h]

@[simp] theorem mayStartUp_sound (s : State) : KeepsSound s (mayStartUp s) := .of fun h => by
  simp only [mayStartUp]; split <;> simp [h]

@[simp] theorem execModuleRstNDeassert_sound (s : State) (h : Sound s) :
    SoundNext (execModuleRstNDeassert s) := by
  simp only [execModuleRstNDeassert]; split <;> simp [h]

@[simp] theorem execRailFailRetry_sound (s : State) (h : Sound s) :
    SoundNext (execRailFailRetry s) := by
  simp only [execRailFailRetry]; split <;> simp [h]

@[simp] theorem execSelftestDone_sound (fails : SelftestResult) (s : State) (h : Sound s) :
    SoundNext (execSelftestDone fails s) := by
  simp only [execSelftestDone]; split <;> simp +contextual [h]

/-! ### Wear and failures in the field (chapters 01 and 17) -/

@[simp] theorem setWear_sound (s : State) (d : Nat) (w : DieWear) : KeepsSound s (setWear s d w) := .of fun h => by
  simp [setWear, h]

@[simp] theorem execWearReading_sound (pairs : List (List (Nat × Nat))) (s : State) (h : Sound s) :
    SoundNext (execWearReading pairs s) := by
  simp only [execWearReading]; split <;> simp +contextual [h]

@[simp] theorem withdrawPoint_sound (die : Nat) (s : State) (_q : Nat) :
    KeepsSound s (withdrawPoint die s _q) := .of fun h => by
  simp only [withdrawPoint]; split <;> simp [h]

@[simp] theorem execReplan_sound (die : BitVec 2) (reading tj : Nat) (s : State) (h : Sound s) :
    SoundNext (execReplan die reading tj s) := by
  simp only [execReplan]; (repeat' split) <;> simp +contextual [h]

@[simp] theorem execUnitFails_sound (unit : FailedUnit) (s : State) (h : Sound s) :
    SoundNext (execUnitFails unit s) := by
  simp only [execUnitFails]; (repeat' split) <;> simp [h]

/-! ### Counter waits (chapter 11) -/

end Sys2Proof.Laws
end

section
/-! PROOFS. Sound states through registers and resets, and through every command. -/

namespace Sys2Proof.Laws

open Sys2Proof Sys2Proof.Machine
set_option Elab.async false

/-! ### Registers and held accesses -/

@[simp] theorem execTopNodeId_sound (p : HPort) (v : BitVec 32) (s : State) (h : Sound s) :
    SoundNext (execTopNodeId p v s) := by
  simp +contextual [execTopNodeId, h]

@[simp] theorem execFabBypass_sound (p : HPort) (v : BitVec 32) (s : State) (h : Sound s) :
    SoundNext (execFabBypass p v s) := by
  simp +contextual [execFabBypass, h]

@[simp] theorem execRegisterWrite_sound (p : HPort) (bar : HostBar) (off : BitVec 26) (size : Nat) (v : BitVec 64)
    (s : State) (h : Sound s) :
    SoundNext (execRegisterWrite p bar off size v s) := by
  cases bar <;> simp +contextual [execRegisterWrite, h]

@[simp] theorem execClosedExit_sound (s : State) (h : Sound s) :
    SoundNext (execClosedExit s) := by
  simp only [execClosedExit]; split <;> simp +contextual [h]

/-! ### Resets and losses of power -/

@[simp] theorem quietPins_sound (s : State) (tripOver : Bool) : KeepsSound s (quietPins s tripOver) := .of fun h => by
  simp +contextual [quietPins, h]

theorem sound_reset : Sound State.reset := by
  refine (sound_iff _).mpr ⟨rfl, rfl, coresSound_nil, rfl, rfl, rfl, rfl, rfl, rfl, rfl, rfl, rfl, rfl, rfl, rfl,
      rfl, rfl, rfl,
    rfl, rfl, rfl, rfl, rfl, rfl, ?_, ⟨rfl, rfl⟩, ⟨rfl, rfl⟩, ?_⟩
  · exact fun _ h => by cases h
  · exact fun _ h => by cases h

@[simp] theorem darkPort_msix (x : HostPortState) : (darkPort x).msix = [] := rfl

@[simp] theorem darkPort_pba (x : HostPortState) : (darkPort x).pba = [] := rfl

@[simp] theorem keptMem_wf_iff (M : Mem) (keep : Bool) :
    Memory.wf (keptMem M keep) = true ↔ Memory.wf M = true ∨ WfMem (keptMem M keep) := or_of_imp_rule fun h => by
  simp only [keptMem]; split
  · simp [h]
  · rfl

@[simp] theorem freshState_sound (s : State) (keep : Bool) : KeepsSound s (freshState s keep) := .of fun h => by
  simp [freshState, sound_reset, h]

@[simp] theorem moduleReset_sound (s : State) (cause : BitVec 3) (keep tripOver : Bool) :
    KeepsSound s (moduleReset s cause keep tripOver) := .of fun h => by
  have fresh : Sound (freshState (quietPins s tripOver) keep) := by simp [h]
  unfold moduleReset
  generalize freshState (quietPins s tripOver) keep = s1 at fresh ⊢
  simp +contextual [fresh]

@[simp] theorem keepLocks_sound (s t : State) : KeepsSound t (keepLocks s t) := .of fun h => by
  simp [keepLocks, h]

@[simp] theorem railsOff_sound (s : State) : KeepsSound s (railsOff s) := .of fun h => by
  simp [railsOff, h]

@[simp] theorem trip_sound (s : State) (kind : Nat) (st : Status) : KeepsSound s (trip s kind st) := .of fun h => by
  have off : Sound (railsOff (logFailure s kind st 0 0)) := by simp [h]
  unfold trip
  generalize railsOff (logFailure s kind st 0 0) = s1 at off ⊢
  simp [off]

@[simp] theorem execModuleRstNAssert_sound (kept : Bool) (s : State) (h : Sound s) :
    SoundNext (execModuleRstNAssert kept s) := by
  simp only [execModuleRstNAssert]; (repeat' split) <;> simp +contextual [h]

@[simp] theorem execPowerOn_sound (slot : BitVec 4) (s : State) (h : Sound s) : SoundNext (execPowerOn slot s) := by
  simp only [execPowerOn]; (repeat' split) <;> simp +contextual [h]

@[simp] theorem execThermalTrip_sound (s : State) (h : Sound s) : SoundNext (execThermalTrip s) := by
  simp only [execThermalTrip]; (repeat' split) <;> simp +contextual [h]

@[simp] theorem execInputTrip_sound (s : State) (h : Sound s) : SoundNext (execInputTrip s) := by
  simp only [execInputTrip]; (repeat' split) <;> simp +contextual [h]

@[simp] theorem execVaoLoss_sound (s : State) (h : Sound s) : SoundNext (execVaoLoss s) := by
  simp only [execVaoLoss]; split
  · simp [h]
  · have kept : Sound (keepLocks s (freshState (quietPins s true) false)) := by simp [h]
    generalize keepLocks s (freshState (quietPins s true) false) = f at kept ⊢
    simp [kept]

@[simp] theorem execInputTripRecovery_sound (s : State) (h : Sound s) : SoundNext (execInputTripRecovery s) := by
  simp only [execInputTripRecovery]; (repeat' split) <;> simp +contextual [h]

@[simp] theorem execRailFail_sound (rail : BitVec 3) (s : State) (h : Sound s) : SoundNext (execRailFail rail s) := by
  simp only [execRailFail]; (repeat' split) <;> simp +contextual [h]

@[simp] theorem execParkedExit_sound (loaded : Bool) (s : State) (h : Sound s) :
    SoundNext (execParkedExit loaded s) := by
  simp only [execParkedExit]; (repeat' split) <;> simp +contextual [h]

/-! ### Counter waits (R390) -/

theorem releaseCore_sound (c : CoreId) (host : List HostLine) (d : Bytes) (s : State) (h : Sound s) :
    SoundNext (releaseCore c host d s) := by
  simp only [releaseCore]; (repeat' split) <;> simp [h]

theorem releaseIo_sound (loc : OpLoc) (host : List HostLine) (d : Bytes) (s : State) (h : Sound s) :
    SoundNext (releaseIo loc host d s) := by
  simp only [releaseIo]; split
  case h_8 => cases (List.range 7).find? (fun k => collRow k d) <;> simp [h]
  all_goals (repeat' split) <;> simp [h]

@[simp] theorem execCounterWaitRelease_sound (loc : OpLoc) (host : List HostLine) (s : State) (h : Sound s) :
    SoundNext (execCounterWaitRelease loc host s) := by
  simp only [execCounterWaitRelease]; (repeat' split)
  · simp [h]
  · simp [h]
  · exact releaseCore_sound _ host _ s h
  · exact releaseIo_sound _ host _ s h

/-! ### Every command -/

theorem exec_sound (c : Instr) (s : State) (h : Sound s) : SoundNext (exec c s) := by
  cases c
  case veNop => exact issueCmd_sound uopNop_sound _ _ _ _ _ _ h
  case mov => exact issueCmd_sound uopMov_sound _ _ _ _ _ _ h
  case cns => exact issueCmd_sound uopCns_sound _ _ _ _ _ _ h
  case lid => exact issueCmd_sound uopLid_sound _ _ _ _ _ _ h
  case lds => exact issueCmd_sound uopLds_sound _ _ _ _ _ _ h
  case sts => exact issueCmd_sound uopSts_sound _ _ _ _ _ _ h
  case gth => exact issueCmd_sound uopGth_sound _ _ _ _ _ _ h
  case sct => exact issueCmd_sound uopSct_sound _ _ _ _ _ _ h
  case sca => exact issueCmd_sound uopSca_sound _ _ _ _ _ _ h
  case fadd => exact issueCmd_sound uopFadd_sound _ _ _ _ _ _ h
  case fsub => exact issueCmd_sound uopFsub_sound _ _ _ _ _ _ h
  case fmul => exact issueCmd_sound uopFmul_sound _ _ _ _ _ _ h
  case ffma => exact issueCmd_sound uopFfma_sound _ _ _ _ _ _ h
  case fmnx => exact issueCmd_sound uopFmnx_sound _ _ _ _ _ _ h
  case fsgn => exact issueCmd_sound uopFsgn_sound _ _ _ _ _ _ h
  case frcp => exact issueCmd_sound uopFrcp_sound _ _ _ _ _ _ h
  case frsq => exact issueCmd_sound uopFrsq_sound _ _ _ _ _ _ h
  case fsqt => exact issueCmd_sound uopFsqt_sound _ _ _ _ _ _ h
  case fdiv => exact issueCmd_sound uopFdiv_sound _ _ _ _ _ _ h
  case fexp => exact issueCmd_sound uopFexp_sound _ _ _ _ _ _ h
  case flog => exact issueCmd_sound uopFlog_sound _ _ _ _ _ _ h
  case fsig => exact issueCmd_sound uopFsig_sound _ _ _ _ _ _ h
  case cvt => exact issueCmd_sound uopCvt_sound _ _ _ _ _ _ h
  case iadd => exact issueCmd_sound uopIadd_sound _ _ _ _ _ _ h
  case isub => exact issueCmd_sound uopIsub_sound _ _ _ _ _ _ h
  case imul => exact issueCmd_sound uopImul_sound _ _ _ _ _ _ h
  case ilog => exact issueCmd_sound uopIlog_sound _ _ _ _ _ _ h
  case ishf => exact issueCmd_sound uopIshf_sound _ _ _ _ _ _ h
  case imnx => exact issueCmd_sound uopImnx_sound _ _ _ _ _ _ h
  case fcmp => exact issueCmd_sound uopFcmp_sound _ _ _ _ _ _ h
  case icmp => exact issueCmd_sound uopIcmp_sound _ _ _ _ _ _ h
  case sel => exact issueCmd_sound uopSel_sound _ _ _ _ _ _ h
  case kop => exact issueCmd_sound uopKop_sound _ _ _ _ _ _ h
  case shf => exact issueCmd_sound uopShf_sound _ _ _ _ _ _ h
  case rup => exact issueCmd_sound uopRup_sound _ _ _ _ _ _ h
  case rug => exact issueCmd_sound uopRug_sound _ _ _ _ _ _ h
  case smn => exact issueCmd_sound uopSmn_sound _ _ _ _ _ _ h
  case smb => exact issueCmd_sound uopSmb_sound _ _ _ _ _ _ h
  case nrm => exact issueCmd_sound uopNrm_sound _ _ _ _ _ _ h
  case rng => exact issueCmd_sound uopRng_sound _ _ _ _ _ _ h
  all_goals simp [exec, h]

end Sys2Proof.Laws
end

section
/-! PROOFS. One step: sound states stay sound, and what the idle step moves. -/

namespace Sys2Proof.Laws

open Sys2Proof Sys2Proof.Machine
set_option Elab.async false

theorem tick_sound {s : State} (h : Sound s) : Sound (tick s) := by
  simp only [tick]; split <;> simp [h]

/-- Settles O4: the idle step and every command keep each map rising and memory in canonical form. -/
theorem stepKeepsStateSound : Obligations.StepKeepsStateSound := by
  intro s t h hstep
  unfold step at hstep
  split at hstep
  · cases hstep
    exact tick_sound h
  · next c cs _ =>
    have taken : Sound { s with pending := cs } := by simp [h]
    exact exec_sound c _ taken t hstep

/-! ## One step -/

/-- Settles O1: it is the definition of a step. -/
theorem stepRunsFront : Obligations.StepRunsFront := by
  intro c cs s h
  rw [step, h]

/-- ALERT_N stays as it is, or its pin changes; nothing else does. -/
theorem settleAlert_eq (s : State) : ∃ out alert, settleAlert s = { s with out, pwr := { s.pwr with alert } } ∧
    ((out = s.out ∧ alert = s.pwr.alert) ∨
      (out = s.out ++ [.pin "ALERT_N" alert.isSome] ∧ alert.isSome = !s.pwr.alert.isSome)) := by
  simp only [settleAlert]
  split
  · next ha =>
    split
    · exact ⟨_, _, rfl, .inr ⟨rfl, by simp [ha]⟩⟩
    · exact ⟨_, _, rfl, .inl ⟨rfl, rfl⟩⟩
  · next ha =>
    split
    · exact ⟨_, _, rfl, .inr ⟨rfl, by simp [ha]⟩⟩
    · exact ⟨_, _, rfl, .inl ⟨rfl, rfl⟩⟩

/-- Settles O2: with VAO off only the clock moves, and with it on ALERT_N settles too. -/
theorem idleStepIsANanosecond : Obligations.IdleStepIsANanosecond := by
  intro s hs
  have idle : step s = .next (tick s) := by rw [step, hs]
  by_cases hoff : s.rst.supply = .off
  · exact ⟨s.out, s.pwr.alert, by simp [idle, tick, hoff], .inl ⟨rfl, rfl⟩⟩
  · obtain ⟨out, alert, ht, hout⟩ := settleAlert_eq { s with
      nowNs := s.nowNs + 1, err := { s.err with poweredNs := s.err.poweredNs + 1 } }
    refine ⟨out, alert, by simp [idle, tick, hoff, ht], hout.imp_right fun h => ⟨hoff, h⟩⟩

end Sys2Proof.Laws
end

section
/-! PROOFS. Every register at reset holds the value of the reset tables (R601). -/

namespace Sys2Proof.Laws

open Sys2Proof Sys2Proof.Machine
set_option Elab.async false

/-- The register of an array at its own offset. -/
theorem arrayAt_mul {base stride count i : Nat} (hs : 0 < stride) (hi : i < count) :
    arrayAt (base + stride * i) base stride count = some i := by
  have := Nat.mul_lt_mul_of_pos_left hi hs
  simp [arrayAt, this, hs]

/-- An offset before an array is none of its registers. -/
theorem arrayAt_before {off base stride count : Nat} (h : off < base) : arrayAt off base stride count = none := by
  rw [arrayAt, if_neg (by omega)]

/-- An offset past an array is none of its registers. -/
theorem arrayAt_past {off base stride count : Nat} (h : base + stride * count ≤ off) :
    arrayAt off base stride count = none := by
  rw [arrayAt, if_neg (by omega)]

/-- An offset that the rows of a state do not have is that of an array's register, or of none. -/
theorem setupReg_of_not_row {s : State} {off : Nat} (h : ∀ r ∈ regRows s, r.1 ≠ off) : setupReg s off = regArrays s off := by
  have : (regRows s).find? (fun r => r.1 == off) = none := by simpa [List.find?_eq_none] using h
  rw [setupReg, this]

/-- Every register that stands alone holds its Reset column. -/
theorem resetRegs_hold : ∀ r ∈ resetRegs, setupReg State.reset r.1 = some r.2 := by decide +kernel

/-- The rows at reset lie outside the registers of queues, FAB_ROUTE_TAB, the Window Table and SEC_QCTR. -/
theorem resetRows_beside_tables : ∀ r ∈ regRows State.reset,
    (r.1 < 0x058000 ∨ 0x060000 ≤ r.1) ∧ (r.1 < 0x070000 ∨ 0x080000 ≤ r.1) ∧ (r.1 < 0x0A0000 ∨ 0x0A8000 ≤ r.1) ∧
      (r.1 < 0x0B1000 ∨ 0x0B1800 ≤ r.1) := by decide +kernel

/-- A register of an array at reset that has no row: what the arrays say. -/
theorem setupReg_reset_array {off : Nat} (h : (0x058000 ≤ off ∧ off < 0x060000) ∨ (0x070000 ≤ off ∧ off < 0x080000) ∨
    (0x0A0000 ≤ off ∧ off < 0x0A8000) ∨ (0x0B1000 ≤ off ∧ off < 0x0B1800)) :
    setupReg State.reset off = regArrays State.reset off :=
  setupReg_of_not_row fun r hr => by
    obtain ⟨h1, h2, h3, h4⟩ := resetRows_beside_tables r hr
    omega

/-- A register of a queue at reset. -/
theorem setupReg_reset_queue {i k : Nat} (hi : i < 256) (hk : k < 4) :
    setupReg State.reset (0x058000 + 8 * (4 * i + k)) = some (64, queueReg Queue.reset k) := by
  have hq : getQueue State.reset ((4 * i + k) / 4) = Queue.reset := rfl
  have hm : (4 * i + k) % 4 = k := by omega
  rw [setupReg_reset_array (by omega)]
  simp (disch := omega) only [regArrays, arrayAt_past, arrayAt_mul, Option.map_none, Option.map_some, hq, hm]
  rfl

/-- A word of FAB_ROUTE_TAB at reset. -/
theorem setupReg_reset_route {i : Nat} (hi : i < 16384) : setupReg State.reset (0x070000 + 4 * i) = some (32, 0) := by
  have hr : State.reset.fab.route = [] := rfl
  have hz : ∀ k, smGet (0 : BitVec 8) [] k = 0 := fun _ => rfl
  have hw : routeWord State.reset i = 0 := by
    simp only [routeWord, hr, hz]
    decide
  rw [setupReg_reset_array (by omega)]
  simp (disch := omega) only [regArrays, arrayAt_past, arrayAt_mul, Option.map_none, Option.map_some, hw]
  rfl

/-- A word of the Window Table at reset. -/
theorem setupReg_reset_window {i : Nat} (hi : i < 4096) : setupReg State.reset (0x0A0000 + 8 * i) = some (64, 0) := by
  have hz : ∀ j < 4, le (zeroBytes 32) (8 * j) 8 = 0 := by decide
  have hw : le (smGet (zeroBytes 32) State.reset.hif.wt (i / 4)) (8 * (i % 4)) 8 = 0 := hz _ (by omega)
  rw [setupReg_reset_array (by omega)]
  simp (disch := omega) only [regArrays, arrayAt_past, arrayAt_mul, Option.map_none, Option.map_some, hw]
  rfl

/-- A counter of SEC_QCTR at reset. -/
theorem setupReg_reset_qctr {i : Nat} (hi : i < 256) : setupReg State.reset (0x0B1000 + 8 * i) = some (64, 0) := by
  have hw : (smGet 0 State.reset.sec.qctr i).toNat = 0 := rfl
  rw [setupReg_reset_array (by omega)]
  simp (disch := omega) only [regArrays, arrayAt_past, arrayAt_mul, Option.map_none, Option.map_some, hw]
  rfl

/-- The arrays of up to 64 registers. -/
theorem smallResetArrays_hold : ∀ a ∈ resetArrays, a.2.2.1 ≤ 64 → ∀ i < a.2.2.1,
    setupReg State.reset (a.1 + a.2.1 * i) = some a.2.2.2 := by decide +kernel

/-- The larger arrays: the registers of queues, FAB_ROUTE_TAB, the Window Table and SEC_QCTR. -/
theorem largeResetArrays : ∀ a ∈ resetArrays, 64 < a.2.2.1 →
    (∃ k < 4, a = (0x058000 + 8 * k, 32, 256, 64, queueReg Queue.reset k)) ∨ a = (0x070000, 4, 16384, 32, 0) ∨
      a = (0x0A0000, 8, 4096, 64, 0) ∨ a = (0x0B1000, 8, 256, 64, 0) := by decide

/-- Settles O22: the rows and the small arrays by evaluation, the large arrays register by register. -/
theorem registersAtReset : Obligations.RegistersAtReset := by
  refine ⟨resetRegs_hold, fun a ha i hi => ?_, sound_reset⟩
  by_cases hsmall : a.2.2.1 ≤ 64
  · exact smallResetArrays_hold a ha hsmall i hi
  · rcases largeResetArrays a ha (by omega) with ⟨k, hk, rfl⟩ | rfl | rfl | rfl
    · have hoff : 0x058000 + 8 * k + 32 * i = 0x058000 + 8 * (4 * i + k) := by omega
      simpa only [hoff] using setupReg_reset_queue hi hk
    · exact setupReg_reset_route hi
    · exact setupReg_reset_window hi
    · exact setupReg_reset_qctr hi

end Sys2Proof.Laws
end

section
/-! PROOFS. Soundness of a state, by computation. -/

namespace Sys2Proof.Laws

open Sys2Proof Sys2Proof.Machine
set_option Elab.async false

/-! ## Sound states, by computation -/

/-- Whether the keys of every map of the command, memory, security and power parts rise. -/
def partsRise (s : State) : Bool :=
  keysRise s.cmd.queues && keysRise s.cmd.counters && keysRise s.cr.coreAvail && keysRise s.mr.ecc && keysRise s.mr.sramBad &&
  keysRise s.ccm.usedSram && keysRise s.ccm.usedDram && keysRise s.ccm.usedHost && keysRise s.sec.mrs && keysRise s.sec.qctr &&
  keysRise s.pwr.side && keysRise s.pwr.gated && keysRise s.pwr.lastUse && keysRise s.blink

/-- Whether the keys of every map of the fabric, host interface, firmware and collectives rise. -/
def linksRise (s : State) : Bool :=
  keysRise s.hif.wt && keysRise s.fw.mbxCtr && keysRise s.fab.ports && keysRise s.fab.route && keysRise s.fab.epochs &&
  keysRise s.coll.busy && keysRise s.coll.nextSeq && keysRise s.hif.a.msix && keysRise s.hif.a.pba && keysRise s.hif.b.msix &&
  keysRise s.hif.b.pba && s.coll.colls.all (fun c => keysRise c.joins && keysRise c.arrived)

/-- Whether the keys of every map of the cores rise. -/
def coresRise (s : State) : Bool :=
  keysRise s.cores && s.cores.all fun p => keysRise p.2.ctx0.regs && keysRise p.2.ctx0.masks && keysRise p.2.ctx1.regs &&
    keysRise p.2.ctx1.masks

theorem sound_of_checks {s : State} (hm : Memory.wf s.mem = true) (hp : partsRise s = true) (hl : linksRise s = true)
    (hc : coresRise s = true) (hr : s.sec.mrs.all (fun p => decide (p.2.length = 64)) = true) : Sound s := by
  simp only [partsRise, Bool.and_eq_true] at hp
  simp only [linksRise, Bool.and_eq_true, List.all_eq_true] at hl
  simp only [coresRise, Bool.and_eq_true, List.all_eq_true] at hc
  simp only [List.all_eq_true, decide_eq_true_eq] at hr
  obtain ⟨⟨⟨⟨⟨⟨⟨⟨⟨⟨⟨⟨⟨queues, counters⟩, coreAvail⟩, ecc⟩, sramBad⟩, usedSram⟩, usedDram⟩, usedHost⟩, mrs⟩, qctr⟩, side⟩, gated⟩,
    lastUse⟩, blink⟩ := hp
  obtain ⟨⟨⟨⟨⟨⟨⟨⟨⟨⟨⟨windows, mbxCtr⟩, ports⟩, route⟩, epochs⟩, busy⟩, nextSeq⟩, msixA⟩, pbaA⟩, msixB⟩, pbaB⟩, joins⟩ := hl
  obtain ⟨cores, contexts⟩ := hc
  refine ⟨hm, cores, queues, counters, coreAvail, ecc, windows, mrs, qctr, mbxCtr, ports, route, epochs, busy, side, gated,
    lastUse, sramBad, usedSram, usedDram, usedHost, nextSeq, fun p => ?_, joins, blink, fun p hp x hx => ?_, hr⟩
  · match p with
    | .a => exact ⟨msixA, pbaA⟩
    | .b => exact ⟨msixB, pbaB⟩
  · obtain ⟨⟨⟨regs0, masks0⟩, regs1⟩, masks1⟩ := contexts p hp
    rcases List.mem_cons.1 hx with rfl | hx
    · exact ⟨regs0, masks0⟩
    · rw [List.mem_singleton.1 hx]
      exact ⟨regs1, masks1⟩

end Sys2Proof.Laws
end

section
/-! PROOFS. A part is unchanged where an operation writes none of it. -/

namespace Sys2Proof.Laws

open Sys2Proof Sys2Proof.Machine
set_option Elab.async false

/-- What may be written where one spot is looked at: every other. -/
def others (y x : Spot) : Bool := decide (x ≠ y)

@[simp] theorem others_eq_true (y x : Spot) (h : x ≠ y) : others y x = true := decide_eq_true h

variable {s t : State}

/-- A part is as it was where an operation may write every other part only. -/
theorem part_of_others (p : Part) (h : rest (others (partSpot p)) t = rest (others (partSpot p)) s) : samePart s t p :=
  samePart_of_rest h (decide_eq_false (by simp))

theorem nowNs_eq (h : rest (others .nowNs) t = rest (others .nowNs) s) : t.nowNs = s.nowNs := part_of_others .nowNs h

theorem freeCount_eq (h : rest (others .freeCount) t = rest (others .freeCount) s) : t.freeCount = s.freeCount := part_of_others .freeCount h

theorem out_eq (h : rest (others .out) t = rest (others .out) s) : t.out = s.out := part_of_others .out h

theorem mem_eq (h : rest (others .mem) t = rest (others .mem) s) : t.mem = s.mem := part_of_others .mem h

theorem cr_eq (h : rest (others .cr) t = rest (others .cr) s) : t.cr = s.cr := part_of_others .cr h

theorem cores_eq (h : rest (others .cores) t = rest (others .cores) s) : t.cores = s.cores := part_of_others .cores h

theorem blink_eq (h : rest (others .blink) t = rest (others .blink) s) : t.blink = s.blink := part_of_others .blink h

theorem trn_eq (h : rest (others .trn) t = rest (others .trn) s) : t.trn = s.trn := part_of_others .trn h

theorem mr_eq (h : rest (others .mr) t = rest (others .mr) s) : t.mr = s.mr := part_of_others .mr h

theorem ccm_eq (h : rest (others .ccm) t = rest (others .ccm) s) : t.ccm = s.ccm := part_of_others .ccm h

theorem muu_eq (h : rest (others .muu) t = rest (others .muu) s) : t.muu = s.muu := part_of_others .muu h

theorem muuRun_eq (h : rest (others .muuRun) t = rest (others .muuRun) s) : t.muuRun = s.muuRun := part_of_others .muuRun h

theorem trnRun_eq (h : rest (others .trnRun) t = rest (others .trnRun) s) : t.trnRun = s.trnRun := part_of_others .trnRun h

theorem cmd_eq (h : rest (others .cmd) t = rest (others .cmd) s) : t.cmd = s.cmd := part_of_others .cmd h

theorem hif_eq (h : rest (others .hif) t = rest (others .hif) s) : t.hif = s.hif := part_of_others .hif h

theorem sec_eq (h : rest (others .sec) t = rest (others .sec) s) : t.sec = s.sec := part_of_others .sec h

theorem fw_eq (h : rest (others .fw) t = rest (others .fw) s) : t.fw = s.fw := part_of_others .fw h

theorem err_eq (h : rest (others .err) t = rest (others .err) s) : t.err = s.err := part_of_others .err h

theorem pwr_eq (h : rest (others .pwr) t = rest (others .pwr) s) : t.pwr = s.pwr := part_of_others .pwr h

theorem rst_eq (h : rest (others .rst) t = rest (others .rst) s) : t.rst = s.rst := part_of_others .rst h

theorem fab_eq (h : rest (others .fab) t = rest (others .fab) s) : t.fab = s.fab := part_of_others .fab h

theorem coll_eq (h : rest (others .coll) t = rest (others .coll) s) : t.coll = s.coll := part_of_others .coll h

end Sys2Proof.Laws
end

section
/-! PROOFS. Memory: bytes outside of spans, and what stores leave. -/

namespace Sys2Proof.Laws

open Sys2Proof Sys2Proof.Machine
set_option Elab.async false

variable {s t u : State} {spans spans' : List (Nat × Nat)}

/-! ## Bytes outside of spans -/

theorem outside_of_subset {a : Nat} (h : Outside spans' a) (hs : ∀ p ∈ spans, p ∈ spans') : Outside spans a :=
  fun p hp => h p (hs p hp)

theorem sameMem_refl (s : State) (spans : List (Nat × Nat)) : SameMem s s spans := fun _ _ => rfl

theorem sameMem_of_eq (h : t.mem = s.mem) (spans : List (Nat × Nat)) : SameMem s t spans := fun _ _ => by rw [h]

theorem sameMem_mono (h : SameMem s t spans) (hs : ∀ p ∈ spans, p ∈ spans') : SameMem s t spans' :=
  fun a ha => h a (outside_of_subset ha hs)

theorem sameMem_trans (h : SameMem s t spans) (k : SameMem t u spans) : SameMem s u spans :=
  fun a ha => (k a ha).trans (h a ha)

/-- Memory after an operation that stores in `spans` only: in canonical form, and the same elsewhere. -/
structure Stores (spans : List (Nat × Nat)) (s t : State) : Prop where
  wf : Memory.wf t.mem = true
  same : SameMem s t spans

theorem Stores.of_eq (hs : Memory.wf s.mem = true) (h : t.mem = s.mem) (spans : List (Nat × Nat)) : Stores spans s t :=
  ⟨by rw [h]; exact hs, sameMem_of_eq h spans⟩

theorem Stores.refl (hs : Memory.wf s.mem = true) (spans : List (Nat × Nat)) : Stores spans s s := .of_eq hs rfl spans

theorem Stores.trans (h : Stores spans s t) (k : Stores spans t u) : Stores spans s u := ⟨k.wf, sameMem_trans h.same k.same⟩

theorem Stores.mono (h : Stores spans s t) (hs : ∀ p ∈ spans, p ∈ spans') : Stores spans' s t := ⟨h.wf, sameMem_mono h.same hs⟩

/-- A write stores in its own span. -/
theorem stores_memWrite (hs : Memory.wf s.mem = true) (a : Nat) (bs : Bytes) (p : Bool) :
    Stores [(a, bs.length)] s (setMem s (memWrite s.mem a bs p)) := by
  refine ⟨memWrite_wf hs, fun b hb => ?_⟩
  have hout : ¬ (a ≤ b ∧ b < a + bs.length) := hb (a, bs.length) (by simp)
  simp only [setMem_mem, memByte_memWrite hs, if_neg hout]

/-- A run of operations that each store in `spans`. -/
theorem Stores.foldl {α : Type} {f : State → α → State} {l : List α}
    (h : ∀ x ∈ l, ∀ u : State, Memory.wf u.mem = true → Stores spans u (f u x)) (hs : Memory.wf s.mem = true) :
    Stores spans s (l.foldl f s) := by
  induction l generalizing s with
  | nil => exact .refl hs spans
  | cons x l ih =>
    have hx := h x (by simp) s hs
    exact hx.trans (ih (fun y hy => h y (by simp [hy])) hx.wf)

/-! ## Lines and the parts of a write on them -/

theorem mem_linesOf {a n l : Nat} : l ∈ linesOf a n ↔ 0 < n ∧ l % 64 = 0 ∧ l < a + n ∧ a < l + 64 := by
  unfold linesOf
  by_cases hn : n = 0
  · simp [hn]
  · simp only [if_neg hn, List.mem_map, List.mem_range]
    constructor
    · rintro ⟨i, hi, rfl⟩
      omega
    · rintro ⟨_, hl, h1, h2⟩
      exact ⟨l / 64 - a / 64, by omega, by omega⟩

theorem linesOf_nodup (a n : Nat) : (linesOf a n).Nodup := by
  unfold linesOf
  split
  · exact List.nodup_nil
  · exact List.nodup_range.map fun i j h => by simpa using h

/-- The bytes within one line are on that line alone. -/
theorem linesOf_single {a n : Nat} (hn : 0 < n) (h : a % 64 + n ≤ 64) : linesOf a n = [a / 64 * 64] := by
  unfold linesOf
  have h1 : (a + n - 1) / 64 - a / 64 + 1 = 1 := by omega
  rw [if_neg (by omega), h1]
  simp [Nat.mul_comm]

theorem linePart_length (a : Nat) (bs : Bytes) (l : Nat) :
    (linePart a bs l).2.length = min (a + bs.length) (l + 64) - max a l := by
  simp only [linePart, List.length_take, List.length_drop]
  omega

/-- The part of a write on a line lies in the write's span. -/
theorem linePart_within {a l : Nat} {bs : Bytes} {p : Nat} (h : (linePart a bs l).1 ≤ p)
    (h' : p < (linePart a bs l).1 + (linePart a bs l).2.length) : a ≤ p ∧ p < a + bs.length ∧ l ≤ p ∧ p < l + 64 := by
  rw [linePart_length] at h'
  simp only [linePart] at h h'
  omega

/-- The part of a write on a line has the write's bytes. -/
theorem byteAt_linePart {a l p : Nat} {bs : Bytes} (h : a ≤ p) (h' : p < a + bs.length) (hl : l ≤ p) (hl' : p < l + 64) :
    byteAt (linePart a bs l).2 (p - (linePart a bs l).1) = byteAt bs (p - a) := by
  have h1 : p - max a l < min (a + bs.length) (l + 64) - max a l := by omega
  have h2 : max a l - a + (p - max a l) = p - a := by omega
  simp only [linePart, byteAt, List.getD_eq_getElem?_getD, List.getElem?_take, List.getElem?_drop, if_pos h1, h2]

/-- The write of a line's part stores in the whole write's span. -/
theorem stores_linePart (hs : Memory.wf s.mem = true) (a l : Nat) (bs : Bytes) (p : Bool) :
    Stores [(a, bs.length)] s (setMem s (memWrite s.mem (linePart a bs l).1 (linePart a bs l).2 p)) := by
  have h := stores_memWrite hs (linePart a bs l).1 (linePart a bs l).2 p
  refine ⟨h.wf, fun b hb => h.same b fun q hq hin => ?_⟩
  obtain rfl : q = _ := List.mem_singleton.mp hq
  have hw := linePart_within hin.1 hin.2
  exact hb (a, bs.length) (by simp) ⟨hw.1, hw.2.1⟩

/-- What a read of a span gives after its write. -/
theorem memRead_memWrite_self {M : Mem} (h : Memory.wf M = true) (a : Nat) (bs : Bytes) (p : Bool) :
    memRead (memWrite M a bs p) a bs.length = bs := by
  refine List.ext_getElem (by simp [memRead]) fun i h1 h2 => ?_
  have hi : i < bs.length := h2
  simp only [memRead, List.getElem_map, List.getElem_range, memByte_memWrite h]
  rw [if_pos (by omega)]
  simp [byteAt, hi]

/-- Two memories that agree on a span read alike there. -/
theorem memRead_congr {M N : Mem} {a n : Nat} (h : ∀ i < n, memByte M (a + i) = memByte N (a + i)) :
    memRead M a n = memRead N a n :=
  List.map_congr_left fun i hi => h i (List.mem_range.mp hi)

/-- A write by a unit stores in its span, or is discarded. -/
theorem stores_write (hs : Memory.wf s.mem = true) (r : Reach) (a : Nat) (bs : Bytes) (p : Bool) :
    Stores [(a, bs.length)] s (write s r a bs p) := by
  unfold write
  split
  · exact stores_memWrite hs a bs p
  · exact .refl hs _

end Sys2Proof.Laws
end

section
/-! PROOFS. Queues and records: where a record goes, and what it leaves. -/

namespace Sys2Proof.Laws

open Sys2Proof Sys2Proof.Machine
set_option Elab.async false

variable {s t u : State} {n k : Nat} {spans : List (Nat × Nat)}

/-! ## Queues read after a write -/

theorem getQueue_of_cmd (h : t.cmd = s.cmd) (n : Nat) : getQueue t n = getQueue s n := by simp only [getQueue, h]

theorem getQueue_setQueue_self {x : Queue} (h : keysRise s.cmd.queues = true) : getQueue (setQueue s n x) n = x :=
  get_set_self h

theorem getQueue_setQueue_other {x : Queue} (h : keysRise s.cmd.queues = true) (hk : k ≠ n) :
    getQueue (setQueue s n x) k = getQueue s k := get_set_other h hk

theorem setQueue_queues_rise {x : Queue} (h : keysRise s.cmd.queues = true) :
    keysRise (setQueue s n x).cmd.queues = true := keysRise_smSet h

theorem setQueue_cmd (x : Queue) : (setQueue s n x).cmd = { s.cmd with queues := (setQueue s n x).cmd.queues } := rfl

/-! ## Writes by the command processor -/

theorem cmdWrite_cmd (a : Nat) (b : Bytes) : (cmdWrite s a b).1.cmd = s.cmd :=
  cmdWrite_keeps s a b .cmd (by decide)

/-- A write by the command processor stores in its span of module memory, and nowhere where its address is a peer's. -/
theorem stores_cmdWrite (hs : Memory.wf s.mem = true) (a : Nat) (b : Bytes) :
    Stores [(gLocal a, b.length)] s (cmdWrite s a b).1 := by
  unfold cmdWrite
  split
  · split
    · refine Stores.foldl (fun l _ u hu => ?_) hs
      simp only
      split
      · split
        · exact .of_eq hu (emit_mem u _) _
        · exact .refl hu _
      · split
        · exact stores_linePart hu _ _ _ _
        · exact .refl hu _
    · exact .of_eq hs (mem_eq (by simp)) _
  · exact .of_eq hs (mem_eq (by simp)) _

/-- Where the address is a peer's, nothing is stored. -/
theorem cmdWrite_mem_of_far {a : Nat} {b : Bytes} (h : localNode s (gNode a) = false) : (cmdWrite s a b).1.mem = s.mem := by
  rw [cmdWrite, if_neg (by simp [h])]
  exact mem_eq (by simp)

/-! ## A queue in error -/

theorem raiseEvent_cmd (st : Status) (i j : Nat) : (raiseEvent s st i j).cmd = s.cmd :=
  raiseEvent_keeps _ _ _ _ _ .cmd (by decide)

theorem queueError_getQueue (h : keysRise s.cmd.queues = true) :
    getQueue (queueError s n) n = { getQueue s n with err := true } := by
  simp only [queueError]
  split
  · next he =>
    have he : (getQueue s n).err = true := he
    rw [← he]
  · rw [getQueue_of_cmd (raiseEvent_cmd _ _ _), getQueue_setQueue_self h]

theorem queueError_getQueue_other (h : keysRise s.cmd.queues = true) (hk : k ≠ n) :
    getQueue (queueError s n) k = getQueue s k := by
  simp only [queueError]
  split
  · rfl
  · rw [getQueue_of_cmd (raiseEvent_cmd _ _ _), getQueue_setQueue_other h hk]

theorem queueError_cmd : (queueError s n).cmd = { s.cmd with queues := (queueError s n).cmd.queues } := by
  simp only [queueError]
  split
  · rfl
  · simp only [raiseEvent_cmd]
    exact setQueue_cmd _

/-! ## A record goes out -/

/-- A queue whose next record has taken its entry of the ring (R369). -/
def pastRecord (q : Queue) : Queue :=
  { q with cqTail := q.cqTail + 1, phase := if q.cqTail.toNat % ringLen q.cq + 1 = ringLen q.cq then !q.phase else q.phase }

/-- Where the next record of a queue goes. -/
def recordAt (q : Queue) : Nat := ringBase q.cq + 16 * (q.cqTail.toNat % ringLen q.cq)

@[simp] theorem recordBytes_length (n : Nat) (q : Queue) (r : Record) : (recordBytes n q r).length = 16 := by
  simp [recordBytes]

/-- A record for a ring in module memory or a peer. -/
theorem putRecord_of_loc {r : Record} (h : ringLoc (getQueue s n).cq = true) :
    putRecord s n r =
      let w := cmdWrite (setQueue s n (pastRecord (getQueue s n))) (recordAt (getQueue s n)) (recordBytes n (getQueue s n) r)
      if w.2 then w.1 else queueError w.1 n := by
  simp only [putRecord, if_pos h]
  rfl

/-- A record for a ring in its host's memory. -/
theorem putRecord_of_host {r : Record} {p : HPort} (h : ringLoc (getQueue s n).cq = false)
    (hp : ownerPort (getQueue s n).owner = some p) :
    putRecord s n r =
      let x := emit (setQueue s n (pastRecord (getQueue s n)))
        (.hostWrite p (recordAt (getQueue s n)) (recordBytes n (getQueue s n) r) false)
      if r.irq then sendMsix x p (getQueue s n).msix.toNat else x := by
  simp only [putRecord, if_neg (Bool.eq_false_iff.mp h), hp]
  rfl

/-- A record for a ring in the memory of no host. -/
theorem putRecord_of_none {r : Record} (h : ringLoc (getQueue s n).cq = false)
    (hp : ownerPort (getQueue s n).owner = none) : putRecord s n r = setQueue s n (pastRecord (getQueue s n)) := by
  simp only [putRecord, if_neg (Bool.eq_false_iff.mp h), hp]
  rfl

theorem putRecord_getQueue (r : Record) (h : keysRise s.cmd.queues = true) :
    ∃ e, getQueue (putRecord s n r) n = { pastRecord (getQueue s n) with err := e } := by
  have hpast : ∀ t : State, t.cmd = (setQueue s n (pastRecord (getQueue s n))).cmd →
      getQueue t n = pastRecord (getQueue s n) := fun t ht => by rw [getQueue_of_cmd ht, getQueue_setQueue_self h]
  cases hl : ringLoc (getQueue s n).cq with
  | true =>
    rw [putRecord_of_loc hl]
    simp only
    split
    · exact ⟨_, hpast _ (cmdWrite_cmd _ _)⟩
    · refine ⟨true, ?_⟩
      rw [queueError_getQueue (by rw [cmdWrite_cmd]; exact setQueue_queues_rise h), hpast _ (cmdWrite_cmd _ _)]
  | false =>
    cases hp : ownerPort (getQueue s n).owner with
    | none => rw [putRecord_of_none hl hp]; exact ⟨_, getQueue_setQueue_self h⟩
    | some p =>
      rw [putRecord_of_host hl hp]
      simp only
      split
      · exact ⟨_, hpast _ (cmd_eq (by simp))⟩
      · exact ⟨_, hpast _ rfl⟩

theorem putRecord_getQueue_other (r : Record) (h : keysRise s.cmd.queues = true) (hk : k ≠ n) :
    getQueue (putRecord s n r) k = getQueue s k := by
  have hpast : ∀ t : State, t.cmd = (setQueue s n (pastRecord (getQueue s n))).cmd →
      getQueue t k = getQueue s k := fun t ht => by rw [getQueue_of_cmd ht, getQueue_setQueue_other h hk]
  cases hl : ringLoc (getQueue s n).cq with
  | true =>
    rw [putRecord_of_loc hl]
    simp only
    split
    · exact hpast _ (cmdWrite_cmd _ _)
    · rw [queueError_getQueue_other (by rw [cmdWrite_cmd]; exact setQueue_queues_rise h) hk, hpast _ (cmdWrite_cmd _ _)]
  | false =>
    cases hp : ownerPort (getQueue s n).owner with
    | none => rw [putRecord_of_none hl hp]; exact getQueue_setQueue_other h hk
    | some p =>
      rw [putRecord_of_host hl hp]
      simp only
      split
      · exact hpast _ (cmd_eq (by simp))
      · exact hpast _ rfl

/-- Of the command processor's state, a record changes its queue only. -/
theorem putRecord_cmd (r : Record) : (putRecord s n r).cmd = { s.cmd with queues := (putRecord s n r).cmd.queues } := by
  have hpast : ∀ t : State, t.cmd = (setQueue s n (pastRecord (getQueue s n))).cmd →
      t.cmd = { s.cmd with queues := t.cmd.queues } := fun t ht => by rw [ht]; rfl
  cases hl : ringLoc (getQueue s n).cq with
  | true =>
    rw [putRecord_of_loc hl]
    simp only
    split
    · exact hpast _ (cmdWrite_cmd _ _)
    · rw [queueError_cmd, hpast _ (cmdWrite_cmd _ _)]
  | false =>
    cases hp : ownerPort (getQueue s n).owner with
    | none => rw [putRecord_of_none hl hp]; exact hpast _ rfl
    | some p =>
      rw [putRecord_of_host hl hp]
      simp only
      split
      · exact hpast _ (cmd_eq (by simp))
      · exact hpast _ rfl

/-- A record stores its 16 bytes at its entry, where the ring lies in module memory. -/
theorem stores_putRecord (hs : Memory.wf s.mem = true) (r : Record) :
    Stores (if ringLoc (getQueue s n).cq then [(gLocal (recordAt (getQueue s n)), 16)] else []) s (putRecord s n r) := by
  cases hl : ringLoc (getQueue s n).cq with
  | true =>
    rw [putRecord_of_loc hl]
    have hw := stores_cmdWrite (s := setQueue s n (pastRecord (getQueue s n))) hs (recordAt (getQueue s n))
      (recordBytes n (getQueue s n) r)
    rw [recordBytes_length] at hw
    simp only [if_true]
    split
    · exact ⟨hw.wf, hw.same⟩
    · refine .trans ⟨hw.wf, hw.same⟩ (.of_eq hw.wf (queueError_keeps _ n .mem (by decide)) _)
  | false =>
    refine .of_eq hs ?_ _
    cases hp : ownerPort (getQueue s n).owner with
    | none => rw [putRecord_of_none hl hp, setQueue_mem]
    | some p =>
      rw [putRecord_of_host hl hp]
      simp only
      split
      · exact sendMsix_keeps _ p _ .mem (by decide)
      · rfl

/-! ## A record is written, held or discarded -/

/-- Whether a queue writes its next record at once (R370, R401). -/
def writesNow (q : Queue) : Bool := !q.orphaned && q.held.isEmpty && decide (0 < cqSpace q)

theorem postRecord_of_writesNow {r : Record} (h : writesNow (getQueue s n) = true) : postRecord s n r = putRecord s n r := by
  simp only [writesNow, Bool.and_eq_true, Bool.not_eq_true'] at h
  obtain ⟨⟨ho, hh⟩, hc⟩ := h
  rw [postRecord, if_neg (by simp [ho]), if_pos (by simp [hh, hc])]

/-- A queue that does not write its next record at once holds or discards it. -/
theorem postRecord_of_not_writesNow {r : Record} (h : writesNow (getQueue s n) = false) :
    postRecord s n r =
      if (getQueue s n).orphaned && decide (64 ≤ (getQueue s n).held.length) then
        { s with cmd := { s.cmd with discarded := satAdd s.cmd.discarded 1 } }
      else setQueue s n { getQueue s n with held := (getQueue s n).held ++ [r] } := by
  by_cases ho : (getQueue s n).orphaned = true
  · by_cases hlen : (getQueue s n).held.length < 64
    · have hfull : ¬ 64 ≤ (getQueue s n).held.length := by omega
      simp only [postRecord, if_pos ho, if_pos hlen, decide_eq_false hfull, Bool.and_false, Bool.false_eq_true, if_false]
    · have hfull : 64 ≤ (getQueue s n).held.length := by omega
      have hd : ((getQueue s n).orphaned && decide (64 ≤ (getQueue s n).held.length)) = true := by simp [ho, hfull]
      simp only [postRecord, if_pos ho, if_neg hlen, if_pos hd]
  · have hd : ¬ ((getQueue s n).orphaned && decide (64 ≤ (getQueue s n).held.length)) = true := by simp [ho]
    have hc : ¬ ((getQueue s n).held.isEmpty && decide (0 < cqSpace (getQueue s n))) = true := by
      simpa [writesNow, ho] using h
    simp only [postRecord, if_neg ho, if_neg hc, if_neg hd]

theorem postRecord_fetched (r : Record) (h : keysRise s.cmd.queues = true) :
    (getQueue (postRecord s n r) n).fetched = (getQueue s n).fetched := by
  cases hw : writesNow (getQueue s n) with
  | true =>
    rw [postRecord_of_writesNow hw]
    obtain ⟨e, he⟩ := putRecord_getQueue (n := n) r h
    rw [he]
    rfl
  | false =>
    rw [postRecord_of_not_writesNow hw]
    split
    · rfl
    · rw [getQueue_setQueue_self h]

theorem postRecord_getQueue_other (r : Record) (h : keysRise s.cmd.queues = true) (hk : k ≠ n) :
    getQueue (postRecord s n r) k = getQueue s k := by
  cases hw : writesNow (getQueue s n) with
  | true => rw [postRecord_of_writesNow hw, putRecord_getQueue_other r h hk]
  | false =>
    rw [postRecord_of_not_writesNow hw]
    split
    · rfl
    · rw [getQueue_setQueue_other h hk]

/-- Of the command processor's state, a completion's record changes its queue and the count of discarded records only. -/
theorem postRecord_cmd (r : Record) : (postRecord s n r).cmd =
    { s.cmd with queues := (postRecord s n r).cmd.queues, discarded := (postRecord s n r).cmd.discarded } := by
  cases hw : writesNow (getQueue s n) with
  | true => rw [postRecord_of_writesNow hw, putRecord_cmd]
  | false =>
    rw [postRecord_of_not_writesNow hw]
    split <;> rfl

theorem recordSpan_eq : recordSpan s n =
    if writesNow (getQueue s n) && ringLoc (getQueue s n).cq then [(gLocal (recordAt (getQueue s n)), 16)] else [] := by
  have hb : (ringLoc (getQueue s n).cq && !(getQueue s n).orphaned && (getQueue s n).held.isEmpty &&
      decide (0 < cqSpace (getQueue s n))) = (writesNow (getQueue s n) && ringLoc (getQueue s n).cq) := by
    simp only [writesNow, Bool.and_comm, Bool.and_left_comm, Bool.and_assoc]
  simp only [recordSpan, hb]
  rfl

theorem recordSpan_of_cmd (h : t.cmd = s.cmd) (n : Nat) : recordSpan t n = recordSpan s n := by
  simp only [recordSpan, getQueue_of_cmd h]

/-- A completion's record stores where the next record lands. -/
theorem stores_postRecord (hs : Memory.wf s.mem = true) (r : Record) : Stores (recordSpan s n) s (postRecord s n r) := by
  rw [recordSpan_eq]
  cases hw : writesNow (getQueue s n) with
  | true =>
    rw [postRecord_of_writesNow hw, Bool.true_and]
    exact stores_putRecord hs r
  | false =>
    rw [postRecord_of_not_writesNow hw]
    refine .of_eq hs ?_ _
    split
    · rfl
    · rfl

end Sys2Proof.Laws
end

section
/-! PROOFS. Answered descriptors: completion, refusal, and what they leave. -/

namespace Sys2Proof.Laws

open Sys2Proof Sys2Proof.Machine
set_option Elab.async false

variable {s t u : State} {n k : Nat} {spans : List (Nat × Nat)} {f : Fetched}

/-! ## A descriptor is answered -/

/-- A state whose queue `n` no longer holds descriptor `f`, which is counted as completed: what its record is posted in. -/
def taken (s : State) (n : Nat) (f : Fetched) (effect : Bool) : State :=
  let s1 := setQueue (if f.started then s else noteServed s n) n
    { getQueue s n with fetched := (getQueue s n).fetched.filter (·.uid != f.uid) }
  { s1 with cmd := { s1.cmd with completed := satAdd s.cmd.completed 1,
                                 rejected := if effect then s.cmd.rejected else satAdd s.cmd.rejected 1 } }

/-- A completion posts its record in the state that its descriptor has left. -/
theorem completeFull_eq (st : Status) (split late : Bool) (parts : BitVec 16) (effect : Bool) :
    completeFull s n f st split late parts effect = postRecord (taken s n f effect) n
      { index := f.index, status := st, split, late, parts, timestamp := s.nowNs, irq := flag f.desc 2 1 } := by
  cases hs : f.started <;> simp only [completeFull, taken, hs] <;> rfl

theorem completeDesc_eq (st : Status) :
    completeDesc s n f st = postRecord (taken s n f true) n (plainRecord s f st) := completeFull_eq _ _ _ _ _

theorem refuseDesc_eq (st : Status) :
    refuseDesc s n f st = postRecord (taken s n f false) n (plainRecord s f st) := completeFull_eq _ _ _ _ _

@[simp] theorem taken_mem (e : Bool) : (taken s n f e).mem = s.mem := by
  cases hs : f.started <;> simp only [taken, hs] <;> rfl

@[simp] theorem taken_out (e : Bool) : (taken s n f e).out = s.out := by
  cases hs : f.started <;> simp only [taken, hs] <;> rfl

theorem taken_queues (e : Bool) : (taken s n f e).cmd.queues =
    (setQueue s n { getQueue s n with fetched := (getQueue s n).fetched.filter (·.uid != f.uid) }).cmd.queues := by
  cases hs : f.started <;> simp only [taken, hs] <;> rfl

theorem taken_completed (e : Bool) : (taken s n f e).cmd.completed = satAdd s.cmd.completed 1 := rfl

theorem taken_rejected (e : Bool) :
    (taken s n f e).cmd.rejected = if e then s.cmd.rejected else satAdd s.cmd.rejected 1 := rfl

theorem taken_getQueue_self (h : keysRise s.cmd.queues = true) (e : Bool) : getQueue (taken s n f e) n =
    { getQueue s n with fetched := (getQueue s n).fetched.filter (·.uid != f.uid) } := by
  rw [getQueue, taken_queues]
  exact getQueue_setQueue_self h

theorem taken_getQueue_other (h : keysRise s.cmd.queues = true) (e : Bool) (hk : k ≠ n) :
    getQueue (taken s n f e) k = getQueue s k := by
  rw [getQueue, taken_queues]
  exact getQueue_setQueue_other h hk

theorem taken_queues_rise (h : keysRise s.cmd.queues = true) (e : Bool) : keysRise (taken s n f e).cmd.queues = true := by
  rw [taken_queues]
  exact setQueue_queues_rise h

theorem writesNow_congr {q q' : Queue} (ho : q'.orphaned = q.orphaned) (hh : q'.held = q.held) (hc : cqSpace q' = cqSpace q) :
    writesNow q' = writesNow q := by simp only [writesNow, ho, hh, hc]

theorem recordSpan_taken (h : keysRise s.cmd.queues = true) (e : Bool) : recordSpan (taken s n f e) n = recordSpan s n := by
  simp only [recordSpan, taken_getQueue_self h]
  rfl

/-- A completion answers its descriptor. -/
theorem answered_completeFull (hq : keysRise s.cmd.queues = true) (hm : Memory.wf s.mem = true) (st : Status)
    (split late : Bool) (parts : BitVec 16) (effect : Bool) :
    Answered s (completeFull s n f st split late parts effect) n f effect [] := by
  rw [completeFull_eq]
  have hrise := taken_queues_rise (n := n) (f := f) hq effect
  have hcmd := postRecord_cmd (s := taken s n f effect) (n := n)
    { index := f.index, status := st, split, late, parts, timestamp := s.nowNs, irq := flag f.desc 2 1 }
  refine ⟨?_, by rw [hcmd]; rfl, by rw [hcmd]; rfl, ?_⟩
  · rw [getDesc, postRecord_fetched _ hrise, taken_getQueue_self hq]
    simp
  · have h := stores_postRecord (s := taken s n f effect) (n := n) (by simpa using hm)
      { index := f.index, status := st, split, late, parts, timestamp := s.nowNs, irq := flag f.desc 2 1 }
    rw [recordSpan_taken hq] at h
    rw [List.append_nil]
    exact fun a ha => (h.same a ha).trans (by rw [taken_mem])

theorem answered_completeDesc (h : Sound s) (st : Status) : Answered s (completeDesc s n f st) n f true [] :=
  answered_completeFull h.queues h.mem _ _ _ _ _

theorem answered_refuseDesc (h : Sound s) (st : Status) : Answered s (refuseDesc s n f st) n f false [] :=
  answered_completeFull h.queues h.mem _ _ _ _ _

/-- An answer after an effect that leaves the command processor and stores in `spans` only. -/
theorem answered_after {effect : Bool} (hc : t.cmd = s.cmd) (hm : SameMem s t spans) (h : Answered t u n f effect []) :
    Answered s u n f effect spans := by
  refine ⟨h.gone, by rw [h.completed, hc], by rw [h.rejected, hc], fun a ha => ?_⟩
  rw [h.mem a, hm a]
  · exact outside_of_subset ha fun p hp => List.mem_append_right _ hp
  · rw [recordSpan_of_cmd hc, List.append_nil]
    exact outside_of_subset ha fun p hp => List.mem_append_left _ hp

/-- The same where the command processor's own state changes too, but for what a completion looks at. -/
theorem answered_of_parts {effect : Bool} (hq : getQueue t n = getQueue s n) (hc : t.cmd.completed = s.cmd.completed)
    (hr : t.cmd.rejected = s.cmd.rejected) (hm : SameMem s t spans) (h : Answered t u n f effect []) :
    Answered s u n f effect spans := by
  refine ⟨h.gone, by rw [h.completed, hc], by rw [h.rejected, hr], fun a ha => ?_⟩
  rw [h.mem a, hm a]
  · exact outside_of_subset ha fun p hp => List.mem_append_right _ hp
  · have hspan : recordSpan t n = recordSpan s n := by simp only [recordSpan, hq]
    rw [hspan, List.append_nil]
    exact outside_of_subset ha fun p hp => List.mem_append_left _ hp

/-- A completion after an effect that leaves the command processor and stores in `spans` only. -/
theorem answered_completeDesc_after (hs : Sound s) (hc : t.cmd = s.cmd) (ht : Stores spans s t) (st : Status) :
    Answered s (completeDesc t n f st) n f true spans :=
  answered_after hc ht.same (answered_completeFull (by rw [hc]; exact hs.queues) ht.wf _ _ _ _ _)

/-- The same where the effect leaves memory too. -/
theorem answered_completeDesc_of_eq (hs : Sound s) (hc : t.cmd = s.cmd) (hm : t.mem = s.mem) (st : Status) :
    Answered s (completeDesc t n f st) n f true [] := answered_completeDesc_after hs hc (.of_eq hs.mem hm _) st

/-! ## Its record -/

theorem recordBytes_congr {q q' : Queue} (h : q'.phase = q.phase) (r : Record) : recordBytes n q' r = recordBytes n q r := by
  simp only [recordBytes, h]

/-- What a queue writes at once for a ring in its host's memory leaves as a write to the host. -/
theorem hostWrite_mem_postRecord {r : Record} {p : HPort} (hw : writesNow (getQueue s n) = true)
    (hl : ringLoc (getQueue s n).cq = false) (hp : ownerPort (getQueue s n).owner = some p) :
    .hostWrite p (recordAt (getQueue s n)) (recordBytes n (getQueue s n) r) false ∈ (postRecord s n r).out := by
  rw [postRecord_of_writesNow hw, putRecord_of_host hl hp]
  simp only
  split
  · simp only [sendMsix]
    (repeat' split) <;> simp
  · simp

/-- A completion reports its record. -/
theorem reports_postRecord (h : keysRise s.cmd.queues = true) (r : Record) : Reports s (postRecord s n r) n r := by
  refine ⟨fun ho hh hc hl p hp => ?_, fun hheld => ?_⟩
  · exact hostWrite_mem_postRecord (by simp [writesNow, ho, hh, hc]) hl hp
  · have hw : writesNow (getQueue s n) = false := by
      revert hheld
      simp only [writesNow]
      split
      · next ho => simp [ho]
      · rintro (hh | hc)
        · simp [hh]
        · simp [hc]
    have hroom : ((getQueue s n).orphaned && decide (64 ≤ (getQueue s n).held.length)) = false := by
      revert hheld
      split
      · next ho => simp [ho]
      · next ho => simp [ho]
    rw [postRecord_of_not_writesNow hw, if_neg (by simp [hroom]), getQueue_setQueue_self h]

/-- What a completion reports is seen from the state before it. -/
theorem reports_taken {r : Record} {e : Bool} (hq : keysRise s.cmd.queues = true) (h : Reports (taken s n f e) u n r) :
    Reports s u n r := by
  obtain ⟨hring, hheld⟩ := h
  rw [taken_getQueue_self hq] at hring hheld
  exact ⟨hring, hheld⟩

theorem reports_of_getQueue {r : Record} (hq : getQueue t n = getQueue s n) (h : Reports t u n r) : Reports s u n r := by
  obtain ⟨hring, hheld⟩ := h
  rw [hq] at hring hheld
  exact ⟨hring, hheld⟩

theorem reports_completeDesc (hq : keysRise s.cmd.queues = true) (st : Status) :
    Reports s (completeDesc s n f st) n (plainRecord s f st) := by
  rw [completeDesc_eq]
  exact reports_taken hq (reports_postRecord (taken_queues_rise hq _) _)

theorem reports_refuseDesc (h : Sound s) (st : Status) : Reports s (refuseDesc s n f st) n (plainRecord s f st) := by
  rw [refuseDesc_eq]
  exact reports_taken h.queues (reports_postRecord (taken_queues_rise h.queues _) _)

theorem completeDesc_sec (st : Status) : (completeDesc s n f st).sec = s.sec :=
  completeDesc_keeps s n f st .sec (by decide)

theorem refuseDesc_sec (st : Status) : (refuseDesc s n f st).sec = s.sec := refuseDesc_keeps s n f st .sec (by decide)

end Sys2Proof.Laws
end

section
/-! PROOFS. SVN_COMMIT, MR_EXTEND and ATTEST. -/

namespace Sys2Proof.Laws

open Sys2Proof Sys2Proof.Machine
set_option Elab.async false

variable {s t : State} {q : QueueId} {f : Fetched}

/-! ## Measurement registers (R499) -/

theorem getMr_extendMr_self (h : keysRise s.sec.mrs = true) (i k : Nat) (d : Bytes) :
    getMr (extendMr s i k d) i = shake256 (getMr s i ++ leBytes 4 k ++ d) := get_set_self h

theorem getMr_extendMr_other (h : keysRise s.sec.mrs = true) {i j : Nat} (hj : j ≠ i) (k : Nat) (d : Bytes) :
    getMr (extendMr s i k d) j = getMr s j := get_set_other h hj

theorem getMr_of_sec (h : t.sec = s.sec) (i : Nat) : getMr t i = getMr s i := by simp only [getMr, h]

theorem getMr_length (h : Sound s) (i : Nat) : (getMr s i).length = 64 := by
  rcases smGet_mem_or (d := zeroBytes 64) (m := s.sec.mrs) (k := i) with hd | hm
  · exact (congrArg List.length hd).trans List.length_replicate
  · exact h.mrLen _ hm

@[simp] theorem fit_length (b : Bytes) (n : Nat) : (fit b n).length = n := by
  simp [fit, zeroBytes]

/-! ## The quote (R503) -/

theorem slotPrint_length (k : Option Bytes) : (slotPrint k).length = 8 := by
  cases k <;> simp [slotPrint, fingerprint, zeroBytes]

theorem quote_length (h : Sound s) {nonce : Bytes} (hn : nonce.length = 24) : (quote s nonce).length = 5120 := by
  have hmr : (((List.range 8).map (getMr s)).flatten).length = 512 := by
    simp [List.range, List.range.loop, getMr_length h]
  have hserial : serialBytes.length = 8 := leBytes_length _ _
  simp only [quote, quoteBody, List.length_append, leBytes_length, hmr, slotPrint_length, hn, fit_length, hserial, zeroBytes,
    List.length_replicate, sigLen]

/-! ## The commands -/

theorem exec_svnCommit (h : startDesc s q.toNat 0x0108 = some f) : exec (.svnCommit q) s =
    .next (completeDesc { s with sec := { s.sec with minSvn := if s.sec.minSvn < s.sec.svn then s.sec.svn else s.sec.minSvn } }
      q.toNat f .ok) := by
  show execSvnCommit q s = _
  simp only [execSvnCommit, h]

theorem readSec_of_good {a n : Nat} (ha : a % 64 = 0) (hr : (read s .dram a n).err = none) :
    readSec s a n = (memRead s.mem a n, none) := by
  have hdata : (read s .dram a n).data = memRead s.mem a n := by
    revert hr
    unfold Machine.read
    split
    · exact fun _ => rfl
    · intro hr; simp at hr
  simp only [readSec, if_neg (not_not.mpr ha), hr, hdata]

theorem exec_mrExtend (h : startDesc s q.toNat 0x0109 = some f) (ha : secAddr f.desc % 64 = 0)
    (hr : (read s .dram (secAddr f.desc) 64).err = none) : exec (.mrExtend q) s =
    .next (completeDesc (extendMr s 7 7 (memRead s.mem (secAddr f.desc) 64)) q.toNat f .ok) := by
  show execMrExtend q s = _
  simp only [execMrExtend, h, readSec_of_good ha hr]

/-- SVN_COMMIT (R498). -/
theorem svnCommit_gives (hs : Sound s) (h : startDesc s q.toNat 0x0108 = some f) : Gives (.svnCommit q) s fun t =>
    t.sec = { s.sec with minSvn := if s.sec.minSvn < s.sec.svn then s.sec.svn else s.sec.minSvn } ∧
    Answered s t q.toNat f true [] :=
  ⟨_, exec_svnCommit h, completeDesc_sec _, answered_completeDesc_of_eq hs (by rfl) (by rfl) _⟩

/-- MR_EXTEND (R499). -/
theorem mrExtend_gives (hs : Sound s) (h : startDesc s q.toNat 0x0109 = some f) (ha : secAddr f.desc % 64 = 0)
    (hr : (read s .dram (secAddr f.desc) 64).err = none) : Gives (.mrExtend q) s fun t =>
      getMr t 7 = shake256 (getMr s 7 ++ [7, 0, 0, 0] ++ memRead s.mem (secAddr f.desc) 64) ∧
      (∀ i, i ≠ 7 → getMr t i = getMr s i) ∧
      t.sec = { s.sec with mrs := t.sec.mrs, mlog := t.sec.mlog, logTrunc := t.sec.logTrunc } ∧
      Answered s t q.toNat f true [] := by
  refine ⟨_, exec_mrExtend h ha hr, ?_, fun i hi => ?_, ?_, answered_completeDesc_of_eq hs (by rfl) (by rfl) _⟩
  · rw [getMr_of_sec (completeDesc_sec _)]
    exact getMr_extendMr_self hs.mrs 7 7 _
  · rw [getMr_of_sec (completeDesc_sec _)]
    exact getMr_extendMr_other hs.mrs hi 7 _
  · rw [completeDesc_sec]
    rfl

/-- ATTEST while the module has not been opened (R503). -/
theorem attest_gives (hs : Sound s) (h : startDesc s q.toNat 0x0100 = some f) (ha : secAddr f.desc % 64 = 0)
    (hc : canAccess s .dram (secAddr f.desc) 5120 = true) (ho : s.sec.opened = false) (hk : s.sec.aliasKey = true)
    (hl : f.desc.length = 64) : Gives (.attest q) s fun t =>
      (∀ i < 5120, Outside (recordSpan s q.toNat) (secAddr f.desc + i) →
        memByte t.mem (secAddr f.desc + i) = byteAt (quote s ((f.desc.drop 24).take 24)) i) ∧ t.sec = s.sec ∧
      Answered s t q.toNat f true [(secAddr f.desc, 5120)] := by
  have hlen : (quote s ((f.desc.drop 24).take 24)).length = 5120 := quote_length hs (by simp [hl])
  have hexec : exec (.attest q) s =
      .next (completeDesc (write s .dram (secAddr f.desc) (quote s ((f.desc.drop 24).take 24))) q.toNat f .ok) := by
    show execAttest q s = _
    simp [execAttest, h, firstFail, failIf, ha, hc, ho, hk]
  have hst := stores_write hs.mem .dram (secAddr f.desc) (quote s ((f.desc.drop 24).take 24)) false
  rw [hlen] at hst
  have hcmd : (write s .dram (secAddr f.desc) (quote s ((f.desc.drop 24).take 24))).cmd = s.cmd :=
    write_keeps _ _ _ _ _ .cmd (by decide)
  have hw : write s .dram (secAddr f.desc) (quote s ((f.desc.drop 24).take 24)) =
      setMem s (memWrite s.mem (secAddr f.desc) (quote s ((f.desc.drop 24).take 24)) false) := by
    rw [write, hlen, if_pos hc]
  refine ⟨_, hexec, fun i hi hout => ?_, ?_, answered_completeDesc_after hs hcmd hst _⟩
  · have hrec := (answered_completeFull (n := q.toNat) (f := f) (by rw [hcmd]; exact hs.queues) hst.wf .ok false false 0 true).mem
      (secAddr f.desc + i) (by rw [recordSpan_of_cmd hcmd, List.append_nil]; exact hout)
    refine hrec.trans ?_
    rw [hw, setMem_mem, memByte_memWrite hs.mem, if_pos (by omega)]
    congr 1
    omega
  · rw [completeDesc_sec]
    exact write_keeps _ _ _ _ _ .sec (by decide)

/-- ATTEST after an unlock (R516). -/
theorem attest_opened_gives (hs : Sound s) (h : startDesc s q.toNat 0x0100 = some f) (ho : s.sec.opened = true) :
    Gives (.attest q) s fun t => t.sec = s.sec ∧ Answered s t q.toNat f false [] ∧
      (secAddr f.desc % 64 = 0 → canAccess s .dram (secAddr f.desc) 5120 = true →
        Reports s t q.toNat (plainRecord s f .keyFail)) := by
  by_cases hg : secAddr f.desc % 64 = 0 ∧ canAccess s .dram (secAddr f.desc) 5120 = true
  · have hexec : exec (.attest q) s = .next (refuseDesc s q.toNat f .keyFail) := by
      show execAttest q s = _
      simp [execAttest, h, firstFail, failIf, hg.1, hg.2, ho]
    exact ⟨_, hexec, refuseDesc_sec _, answered_refuseDesc hs _, fun _ _ => reports_refuseDesc hs _⟩
  · have hexec : ∃ e, exec (.attest q) s = .next (refuseDesc s q.toNat f e) := by
      by_cases ha : secAddr f.desc % 64 = 0
      · have hc : canAccess s .dram (secAddr f.desc) 5120 = false := by simpa [ha] using hg
        refine ⟨.addrError, ?_⟩
        show execAttest q s = _
        simp [execAttest, h, firstFail, failIf, ha, hc]
      · refine ⟨.badField, ?_⟩
        show execAttest q s = _
        simp [execAttest, h, firstFail, failIf, ha]
    obtain ⟨e, hexec⟩ := hexec
    exact ⟨_, hexec, refuseDesc_sec _, answered_refuseDesc hs _, fun ha hc => absurd ⟨ha, hc⟩ hg⟩

/-- Settles O14. -/
theorem measurementsAndQuote : Obligations.MeasurementsAndQuote :=
  ⟨fun _ _ _ hs => ⟨svnCommit_gives hs, fun h ha hr => mrExtend_gives hs h ha hr⟩,
   fun _ _ _ hs h => ⟨fun ha hc ho hk hl => attest_gives hs h ha hc ho hk hl, attest_opened_gives hs h⟩⟩

end Sys2Proof.Laws
end

section
/-! PROOFS. Ownership commands and key slots. -/

namespace Sys2Proof.Laws

open Sys2Proof Sys2Proof.Machine
set_option Elab.async false

variable {s t : State} {q : QueueId} {f : Fetched}

/-! ## Values of bytes -/

theorem leNat_lt (bs : Bytes) : leNat bs < 256 ^ bs.length := by
  induction bs with
  | nil => simp [leNat]
  | cons b bs ih =>
    have hb : b.toNat < 256 := b.isLt
    simp only [leNat, List.length_cons, Nat.pow_succ]
    omega

theorem le_lt (bs : Bytes) (k n : Nat) : le bs k n < 256 ^ n := by
  refine (leNat_lt _).trans_le (Nat.pow_le_pow_right (by decide) ?_)
  simp [List.length_take]

/-- A part of what a read gives. -/
theorem memRead_drop_take (M : Mem) (a n i k : Nat) (h : i + k ≤ n) :
    ((memRead M a n).drop i).take k = memRead M (a + i) k := by
  refine List.ext_getElem (by simp [memRead]; omega) fun j h1 h2 => ?_
  simp [memRead, Nat.add_assoc]

/-! ## Changes of owner and of key slots -/

/-- A change of owner leaves no command key, and MR4 extended. -/
theorem setOwner_sec (hs : Sound s) (key : Option Bytes) (seq : Nat) :
    let t := setOwner s key seq
    t.sec.owner = key ∧ t.sec.ownerSeq = BitVec.ofNat 32 seq ∧ t.sec.rootKey = none ∧ t.sec.opKey = none ∧
      getMr t 4 = shake256 (getMr s 4 ++ [4, 0, 0, 0] ++
        (match key with | some k => shake256 k | none => zeroBytes 64)) :=
  ⟨rfl, rfl, rfl, rfl, getMr_extendMr_self (s := eraseSlots { s with sec := { s.sec with owner := key, ownerSeq := BitVec.ofNat 32 seq } })
    hs.mrs 4 4 _⟩

theorem setOwner_cmd (key : Option Bytes) (seq : Nat) : (setOwner s key seq).cmd = s.cmd := rfl

theorem setOwner_mem (key : Option Bytes) (seq : Nat) : (setOwner s key seq).mem = s.mem := rfl

theorem ownerClaim_gives (hs : Sound s) (h : startDesc s q.toNat 0x0101 = some f) (ho : s.sec.owner = none)
    (ha : secAddr f.desc % 64 = 0) (hr : (read s .dram (secAddr f.desc) 1952).err = none) : Gives (.ownerClaim q) s fun t =>
      t.sec.owner = some (memRead s.mem (secAddr f.desc) 1952) ∧ t.sec.ownerSeq = 0 ∧ t.sec.rootKey = none ∧
      t.sec.opKey = none ∧
      getMr t 4 = shake256 (getMr s 4 ++ [4, 0, 0, 0] ++ shake256 (memRead s.mem (secAddr f.desc) 1952)) ∧
      Answered s t q.toNat f true [] := by
  have hexec : exec (.ownerClaim q) s =
      .next (completeDesc (setOwner s (some (memRead s.mem (secAddr f.desc) 1952)) 0) q.toNat f .ok) := by
    show execOwnerClaim q s = _
    simp [execOwnerClaim, h, readSec_of_good ha hr, ho, firstFail, failIf]
  obtain ⟨h1, h2, h3, h4, h5⟩ := setOwner_sec hs (some (memRead s.mem (secAddr f.desc) 1952)) 0
  refine ⟨_, hexec, ?_, ?_, ?_, ?_, ?_, answered_completeDesc_of_eq hs (by rfl) (by rfl) _⟩
  · rw [completeDesc_sec, h1]
  · rw [completeDesc_sec, h2]
    rfl
  · rw [completeDesc_sec, h3]
  · rw [completeDesc_sec, h4]
  · rw [getMr_of_sec (completeDesc_sec _), h5]

/-- A security command that is refused with KEY_FAIL. -/
theorem gives_refused {c : Instr} {e : Status} (hs : Sound s) (h : exec c s = .next (refuseDesc s q.toNat f e)) :
    Gives c s fun t => t.sec = s.sec ∧ Answered s t q.toNat f false [] ∧ Reports s t q.toNat (plainRecord s f e) :=
  ⟨_, h, refuseDesc_sec _, answered_refuseDesc hs _, reports_refuseDesc hs _⟩

theorem ownerClaim_claimed_gives (hs : Sound s) (h : startDesc s q.toNat 0x0101 = some f) (ho : s.sec.owner.isSome = true) :
    Gives (.ownerClaim q) s fun t =>
      t.sec = s.sec ∧ Answered s t q.toNat f false [] ∧ Reports s t q.toNat (plainRecord s f .keyFail) := by
  refine gives_refused hs ?_
  show execOwnerClaim q s = _
  simp [execOwnerClaim, h, ho, firstFail, failIf]

theorem ownerRotate_gives (hs : Sound s) (h : startDesc s q.toNat 0x0102 = some f) (ha : secAddr f.desc % 64 = 0)
    (hr : (read s .dram (secAddr f.desc) 5376).err = none)
    (hg : rotateGood s (memRead s.mem (secAddr f.desc) 5376) = true) : Gives (.ownerRotate q) s fun t =>
      t.sec.owner = (if allZero (memRead s.mem (secAddr f.desc + 64) 1952) then none
        else some (memRead s.mem (secAddr f.desc + 64) 1952)) ∧
      t.sec.ownerSeq.toNat = le (memRead s.mem (secAddr f.desc) 5376) 16 4 ∧
      s.sec.ownerSeq.toNat < t.sec.ownerSeq.toNat ∧ t.sec.rootKey = none ∧ t.sec.opKey = none ∧
      getMr t 4 = shake256 (getMr s 4 ++ [4, 0, 0, 0] ++ (if allZero (memRead s.mem (secAddr f.desc + 64) 1952)
        then zeroBytes 64 else shake256 (memRead s.mem (secAddr f.desc + 64) 1952))) ∧
      Answered s t q.toNat f true [] := by
  have hkey := memRead_drop_take s.mem (secAddr f.desc) 5376 64 1952 (by decide)
  have hseq : s.sec.ownerSeq.toNat < le (memRead s.mem (secAddr f.desc) 5376) 16 4 := by
    revert hg
    unfold rotateGood
    split
    · simp
    · simp only [Bool.and_eq_true, decide_eq_true_eq]
      exact fun hg => hg.1.2
  have hexec : exec (.ownerRotate q) s = .next (completeDesc (setOwner s
      (if allZero (memRead s.mem (secAddr f.desc + 64) 1952) then none
        else some (memRead s.mem (secAddr f.desc + 64) 1952))
      (le (memRead s.mem (secAddr f.desc) 5376) 16 4)) q.toNat f .ok) := by
    show execOwnerRotate q s = _
    simp only [execOwnerRotate, h, readSec_of_good ha hr, hg, firstFail, failIf, hkey]
    rfl
  have hval : (BitVec.ofNat 32 (le (memRead s.mem (secAddr f.desc) 5376) 16 4)).toNat =
      le (memRead s.mem (secAddr f.desc) 5376) 16 4 := by
    rw [BitVec.toNat_ofNat]
    exact Nat.mod_eq_of_lt (le_lt _ _ 4)
  generalize memRead s.mem (secAddr f.desc + 64) 1952 = key at hexec ⊢
  generalize le (memRead s.mem (secAddr f.desc) 5376) 16 4 = seq at hexec hseq hval ⊢
  obtain ⟨h1, h2, h3, h4, h5⟩ := setOwner_sec hs (if allZero key then none else some key) seq
  refine ⟨_, hexec, ?_, ?_, ?_, ?_, ?_, ?_, answered_completeDesc_of_eq hs (setOwner_cmd _ _) (setOwner_mem _ _) _⟩
  · rw [completeDesc_sec, h1]
  · rw [completeDesc_sec, h2, hval]
  · rw [completeDesc_sec, h2, hval]
    exact hseq
  · rw [completeDesc_sec, h3]
  · rw [completeDesc_sec, h4]
  · rw [getMr_of_sec (completeDesc_sec _), h5]
    cases hz : allZero key <;> simp only [if_true, Bool.false_eq_true, if_false]

theorem ownerRotate_bad_gives (hs : Sound s) (h : startDesc s q.toNat 0x0102 = some f) (ha : secAddr f.desc % 64 = 0)
    (hr : (read s .dram (secAddr f.desc) 5376).err = none)
    (hg : rotateGood s (memRead s.mem (secAddr f.desc) 5376) = false) : Gives (.ownerRotate q) s fun t =>
      t.sec = s.sec ∧ Answered s t q.toNat f false [] ∧ Reports s t q.toNat (plainRecord s f .keyFail) := by
  refine gives_refused hs ?_
  show execOwnerRotate q s = _
  simp [execOwnerRotate, h, readSec_of_good ha hr, hg, firstFail, failIf]

/-! ## Key slots (R506) -/

/-- The slot of an accepted KEY_INSTALL block is 0 or 1. -/
theorem slot_le_of_installKey {b k : Bytes} (h : installKey s b = some k) : (byteAt b 4).toNat ≤ 1 := by
  by_contra hc
  cases ho : s.sec.owner <;> simp [installKey, ho, hc] at h

/-- What a slot holds after a change of one slot. -/
theorem slotKey_setSlot {j : Nat} (hj : j ≤ 1) (k : Option Bytes) :
    slotKey (setSlot s j k) j = k ∧ slotKey (setSlot s j k) (1 - j) = slotKey s (1 - j) := by
  interval_cases j <;> exact ⟨rfl, rfl⟩

theorem slotKey_of_sec (h : t.sec = s.sec) (j : Nat) : slotKey t j = slotKey s j := by simp only [slotKey, h]

theorem slotSeq_of_sec (h : t.sec = s.sec) (j : Nat) : slotSeq t j = slotSeq s j := by simp only [slotSeq, h]

theorem slotKey_setSlotSeq (i j n : Nat) : slotKey (setSlotSeq s i n) j = slotKey s j := by
  unfold slotKey setSlotSeq
  by_cases hi : i = 0 <;> simp [hi]

theorem slotSeq_setSlotSeq {j : Nat} (hj : j ≤ 1) (n : Nat) : slotSeq (setSlotSeq s j n) j = some n := by
  interval_cases j <;> rfl

theorem keyInstall_gives (hs : Sound s) {k : Bytes} (h : startDesc s q.toNat 0x0103 = some f)
    (ha : secAddr f.desc % 64 = 0) (hr : (read s .dram (secAddr f.desc) 4480).err = none)
    (hk : installKey s (memRead s.mem (secAddr f.desc) 4480) = some k) : Gives (.keyInstall q) s fun t =>
      slotKey t (byteAt (memRead s.mem (secAddr f.desc) 4480) 4).toNat = some k ∧
      slotKey t (1 - (byteAt (memRead s.mem (secAddr f.desc) 4480) 4).toNat) =
        slotKey s (1 - (byteAt (memRead s.mem (secAddr f.desc) 4480) 4).toNat) ∧
      slotSeq t (byteAt (memRead s.mem (secAddr f.desc) 4480) 4).toNat =
        some (le (memRead s.mem (secAddr f.desc) 4480) 16 4) ∧
      getMr t 5 = shake256 (getMr s 5 ++ [5, 0, 0, 0] ++
        slotDigest (byteAt (memRead s.mem (secAddr f.desc) 4480) 4).toNat (fingerprint k)) ∧
      t.sec.owner = s.sec.owner ∧ Answered s t q.toNat f true [] := by
  have hslot := slot_le_of_installKey hk
  have hexec : ∀ b, memRead s.mem (secAddr f.desc) 4480 = b → ∀ j, (byteAt b 4).toNat = j → exec (.keyInstall q) s =
      .next (completeDesc (extendMr (setSlotSeq (setSlot s j (some k)) j (le b 16 4)) 5 5
        (slotDigest j (fingerprint k))) q.toNat f .ok) := by
    rintro _ rfl _ rfl
    show execKeyInstall q s = _
    simp only [execKeyInstall, h, readSec_of_good ha hr, hk]
  generalize memRead s.mem (secAddr f.desc) 4480 = b at hslot hexec ⊢
  generalize hj : (byteAt b 4).toNat = j at hslot hexec ⊢
  replace hexec := hexec b rfl j hj
  obtain ⟨hself, hother⟩ := slotKey_setSlot (s := s) hslot (some k)
  have hcmd : (setSlotSeq (setSlot s j (some k)) j (le b 16 4)).sec.mrs = s.sec.mrs ∧
      (setSlotSeq (setSlot s j (some k)) j (le b 16 4)).sec.owner = s.sec.owner := by
    interval_cases j <;> exact ⟨rfl, rfl⟩
  refine ⟨_, hexec, ?_, ?_, ?_, ?_, ?_, answered_completeDesc_of_eq hs (by rfl) (by rfl) _⟩
  · rw [slotKey_of_sec (completeDesc_sec _)]
    exact (slotKey_setSlotSeq j j _).trans hself
  · rw [slotKey_of_sec (completeDesc_sec _)]
    exact (slotKey_setSlotSeq j (1 - j) _).trans hother
  · rw [slotSeq_of_sec (completeDesc_sec _)]
    exact slotSeq_setSlotSeq hslot _
  · rw [getMr_of_sec (completeDesc_sec _), getMr_extendMr_self (by rw [hcmd.1]; exact hs.mrs)]
    simp only [getMr, hcmd.1]
    rfl
  · rw [completeDesc_sec]
    exact hcmd.2

theorem keyInstall_bad_gives (hs : Sound s) (h : startDesc s q.toNat 0x0103 = some f) (ha : secAddr f.desc % 64 = 0)
    (hr : (read s .dram (secAddr f.desc) 4480).err = none)
    (hk : installKey s (memRead s.mem (secAddr f.desc) 4480) = none) : Gives (.keyInstall q) s fun t =>
      t.sec = s.sec ∧ Answered s t q.toNat f false [] ∧ Reports s t q.toNat (plainRecord s f .keyFail) := by
  refine gives_refused hs ?_
  show execKeyInstall q s = _
  simp only [execKeyInstall, h, readSec_of_good ha hr, hk]

theorem keyRevoke_gives (hs : Sound s) {j : Nat} (hj : j ≤ 1) (h : startDesc s q.toNat 0x0104 = some f)
    (hslot : (byteAt f.desc 16).toNat = j) : Gives (.keyRevoke q) s fun t =>
      slotKey t j = none ∧ slotKey t (1 - j) = slotKey s (1 - j) ∧
      getMr t 5 = shake256 (getMr s 5 ++ [5, 0, 0, 0] ++ slotDigest j (slotPrint (slotKey s j))) ∧
      Answered s t q.toNat f true [] := by
  have hexec : exec (.keyRevoke q) s = .next (completeDesc (extendMr (setSlot s j none) 5 5
      (slotDigest j (slotPrint (slotKey s j)))) q.toNat f .ok) := by
    show execKeyRevoke q s = _
    simp only [execKeyRevoke, h, hslot, if_neg (Nat.not_lt.mpr hj)]
  obtain ⟨hself, hother⟩ := slotKey_setSlot (s := s) hj none
  have hmrs : (setSlot s j none).sec.mrs = s.sec.mrs := by interval_cases j <;> rfl
  refine ⟨_, hexec, ?_, ?_, ?_, answered_completeDesc_of_eq hs (by rfl) (by rfl) _⟩
  · rw [slotKey_of_sec (completeDesc_sec _)]
    exact hself
  · rw [slotKey_of_sec (completeDesc_sec _)]
    exact hother
  · rw [getMr_of_sec (completeDesc_sec _), getMr_extendMr_self (by rw [hmrs]; exact hs.mrs)]
    simp only [getMr, hmrs]
    rfl

/-- Settles O15. -/
theorem ownershipAndKeySlots : Obligations.OwnershipAndKeySlots :=
  ⟨fun _ _ _ hs => ⟨ownerClaim_gives hs, ownerClaim_claimed_gives hs, ownerRotate_gives hs, ownerRotate_bad_gives hs⟩,
   fun _ _ _ _ hs => ⟨keyInstall_gives hs, keyInstall_bad_gives hs, fun _ hj h hslot => keyRevoke_gives hs hj h hslot⟩⟩

end Sys2Proof.Laws
end

section
/-! PROOFS. What reporting leaves of the host interface, the firmware and the error state. -/

namespace Sys2Proof.Laws

open Sys2Proof Sys2Proof.Machine
set_option Elab.async false

variable {s t u : State} {n : Nat}

/-! ## What reporting leaves of the host interface, the firmware and the error state -/

/-- A host port beside its pending bits. -/
def portQuiet (x : HostPortState) : HostPortState := { x with pba := [] }

/-- The host interface beside pending bits, reads that are out and the log of denied accesses. -/
def hifQuiet (h : HifState) : HifState :=
  { h with a := portQuiet h.a, b := portQuiet h.b, denyAddr := 0, denyInit := 0, denyWrite := false, denyCount := 0,
           reads := [], readWait := [], nextTag := 0 }

/-- The firmware state beside the records of events that wait and the count of those dropped. -/
def fwQuiet (f : FwState) : FwState := { f with evQueue := [], evDrops := 0 }

/-- The error state beside the registers of events and their windows. -/
def errQuiet (e : ErrState) : ErrState :=
  { e with lastStatus := 0, lastSeq := 0, nextSeq := 0, generated := 0, coalesced := 0, windows := [] }

/-- An operation that may report: events, denied accesses, interrupts. -/
structure Reported (s t : State) : Prop where
  hif : hifQuiet t.hif = hifQuiet s.hif
  fw : fwQuiet t.fw = fwQuiet s.fw
  err : errQuiet t.err = errQuiet s.err

theorem Reported.refl (s : State) : Reported s s := ⟨rfl, rfl, rfl⟩

theorem Reported.trans (h : Reported s t) (k : Reported t u) : Reported s u :=
  ⟨k.hif.trans h.hif, k.fw.trans h.fw, k.err.trans h.err⟩

theorem Reported.after (k : Reported t u) (hh : hifQuiet t.hif = hifQuiet s.hif) (hf : fwQuiet t.fw = fwQuiet s.fw)
    (he : errQuiet t.err = errQuiet s.err) : Reported s u := .trans ⟨hh, hf, he⟩ k

theorem Reported.of_eq (hh : t.hif = s.hif) (hf : t.fw = s.fw) (he : t.err = s.err) : Reported s t :=
  ⟨by rw [hh], by rw [hf], by rw [he]⟩

theorem Reported.foldl {α : Type} {f : State → α → State} (h : ∀ s x, Reported s (f s x)) (l : List α) :
    ∀ s, Reported s (l.foldl f s) := by
  induction l with
  | nil => exact fun s => .refl s
  | cons x l ih => exact fun s => (h s x).trans (ih _)

theorem reported_of_keeps {ps : List Part} (h : Keeps ps s t) (hh : .hif ∉ ps) (hf : .fw ∉ ps) (he : .err ∉ ps) :
    Reported s t := .of_eq (h .hif hh) (h .fw hf) (h .err he)

/-! ## Every reporting operation -/

theorem evDrop_reported (s : State) : Reported s (evDrop s) := ⟨rfl, rfl, rfl⟩

theorem sendMsix_reported (s : State) (p : HPort) (v : Nat) : Reported s (sendMsix s p v) := by
  simp only [sendMsix]
  split
  · exact ⟨by cases p <;> rfl, by simp, by simp⟩
  · split
    · exact ⟨rfl, rfl, rfl⟩
    · exact .refl s

theorem issueRead_reported (s : State) (p : HPort) (a n : Nat) (w : ReadFor) : Reported s (issueRead s p a n w) := by
  unfold issueRead
  split <;> exact ⟨rfl, rfl, rfl⟩

theorem toRing_reported (s : State) (r : Bytes) (p : HPort) : Reported s (toRing s r p) := by
  simp only [toRing]
  split
  · split
    · exact evDrop_reported s
    · exact .refl s
  · split
    · exact issueRead_reported s _ _ _ _
    · exact evDrop_reported s

theorem deliver_reported (s : State) (r : Bytes) (l : List HPort) : Reported s (deliver s r l) := by
  unfold deliver
  split
  · split
    · exact ⟨rfl, rfl, rfl⟩
    · exact evDrop_reported s
  · split
    · exact Reported.foldl (fun a p => toRing_reported a r p) l s
    · exact .refl s

theorem emitEvent_reported (s : State) (st : Status) (a b c d : Nat) (e : Bool) (x : Bytes) :
    Reported s (emitEvent s st a b c d e x) := by
  simp only [emitEvent]
  split
  · exact (deliver_reported _ _ _).after rfl rfl rfl
  · exact ⟨rfl, rfl, rfl⟩

theorem flushWindow_reported (s : State) (w : EventWindow) : Reported s (flushWindow s w) := by
  simp only [flushWindow]
  split
  · exact ⟨rfl, rfl, rfl⟩
  · exact (emitEvent_reported _ _ _ _ _ _ _ _).after rfl rfl rfl

theorem raiseEvent_reported (s : State) (st : Status) (a b : Nat) (x : Bytes) : Reported s (raiseEvent s st a b x) := by
  simp only [raiseEvent]
  split
  · exact (emitEvent_reported _ _ _ _ _ _ _ _).after rfl rfl rfl
  · split
    · exact ⟨rfl, rfl, rfl⟩
    · exact (flushWindow_reported _ _).trans ((emitEvent_reported _ _ _ _ _ _ _ _).after rfl rfl rfl)

theorem denyLine_reported (s : State) (i : Nat) (w : Bool) (a : Nat) : Reported s (denyLine s i w a) :=
  (raiseEvent_reported _ _ _ _ _).after rfl rfl rfl

theorem queueError_reported (s : State) (n : Nat) : Reported s (queueError s n) := by
  simp only [queueError]
  split
  · exact .refl s
  · exact (raiseEvent_reported _ _ _ _ _).after rfl rfl rfl

theorem cmdDeny_reported (s : State) (w : Bool) (a n : Nat) : Reported s (cmdDeny s w a n) :=
  Reported.foldl (fun x l => by
    split
    · exact .refl x
    · exact denyLine_reported x _ _ _) _ s

theorem cmdWrite_reported (s : State) (a : Nat) (b : Bytes) : Reported s (cmdWrite s a b).1 := by
  unfold cmdWrite
  split
  · split
    · refine Reported.foldl (fun x l => ?_) _ s
      simp only
      split
      · split <;> exact ⟨rfl, rfl, rfl⟩
      · split <;> exact ⟨rfl, rfl, rfl⟩
    · exact cmdDeny_reported s _ _ _
  · exact reported_of_keeps (ps := outParts) (injectPlain_keeps s _ _ _ _ _) (by decide) (by decide) (by decide)

theorem putRecord_reported (s : State) (n : Nat) (r : Record) : Reported s (putRecord s n r) := by
  have hq : ∀ x, Reported s (setQueue s n x) := fun _ => ⟨rfl, rfl, rfl⟩
  cases hl : ringLoc (getQueue s n).cq with
  | true =>
    rw [putRecord_of_loc hl]
    simp only
    split
    · exact (hq _).trans (cmdWrite_reported _ _ _)
    · exact (hq _).trans ((cmdWrite_reported _ _ _).trans (queueError_reported _ _))
  | false =>
    cases hp : ownerPort (getQueue s n).owner with
    | none => rw [putRecord_of_none hl hp]; exact hq _
    | some p =>
      rw [putRecord_of_host hl hp]
      simp only
      split
      · exact (sendMsix_reported _ _ _).after rfl rfl rfl
      · exact .of_eq rfl rfl rfl

theorem postRecord_reported (s : State) (n : Nat) (r : Record) : Reported s (postRecord s n r) := by
  cases hw : writesNow (getQueue s n) with
  | true => rw [postRecord_of_writesNow hw]; exact putRecord_reported s n r
  | false =>
    rw [postRecord_of_not_writesNow hw]
    split
    · exact ⟨rfl, rfl, rfl⟩
    · exact ⟨rfl, rfl, rfl⟩

theorem completeFull_reported (s : State) (n : Nat) (f : Fetched) (st : Status) (a b : Bool) (k : BitVec 16) (e : Bool) :
    Reported s (completeFull s n f st a b k e) := by
  rw [completeFull_eq]
  refine Reported.trans ?_ (postRecord_reported _ _ _)
  cases hs : f.started <;> simp only [taken, hs] <;> exact ⟨rfl, rfl, rfl⟩

/-! ## What follows for single fields -/

/-- A field of the host interface that reporting leaves. -/
theorem Reported.ofHif {α : Type} (h : Reported s t) (g : HifState → α) (hg : ∀ x, g (hifQuiet x) = g x) :
    g t.hif = g s.hif := by rw [← hg t.hif, h.hif, hg]

/-- A field of the firmware state that reporting leaves. -/
theorem Reported.ofFw {α : Type} (h : Reported s t) (g : FwState → α) (hg : ∀ x, g (fwQuiet x) = g x) :
    g t.fw = g s.fw := by rw [← hg t.fw, h.fw, hg]

/-- A field of the error state that reporting leaves. -/
theorem Reported.ofErr {α : Type} (h : Reported s t) (g : ErrState → α) (hg : ∀ x, g (errQuiet x) = g x) :
    g t.err = g s.err := by rw [← hg t.err, h.err, hg]

/-- A field of a host port that reporting leaves. -/
theorem Reported.ofPort {α : Type} (h : Reported s t) (p : HPort) (g : HostPortState → α) (hg : ∀ x, g (portQuiet x) = g x) :
    g (getPort t p) = g (getPort s p) := by
  cases p
  · exact h.ofHif (fun x => g x.a) (fun x => hg x.a)
  · exact h.ofHif (fun x => g x.b) (fun x => hg x.b)

theorem Reported.wt (h : Reported s t) : t.hif.wt = s.hif.wt := h.ofHif (·.wt) fun _ => rfl

theorem Reported.wtGen (h : Reported s t) : t.hif.wtGen = s.hif.wtGen := h.ofHif (·.wtGen) fun _ => rfl

theorem Reported.wtWait (h : Reported s t) : t.hif.wtWait = s.hif.wtWait := h.ofHif (·.wtWait) fun _ => rfl

theorem Reported.failLog (h : Reported s t) : t.err.failLog = s.err.failLog := h.ofErr (·.failLog) fun _ => rfl

end Sys2Proof.Laws
end

section
/-! PROOFS. WINDOW_SET writes all of its entries or none. -/

namespace Sys2Proof.Laws

open Sys2Proof Sys2Proof.Machine
set_option Elab.async false

variable {s t : State} {q : QueueId} {f : Fetched} {n : Nat}

/-! ## A started descriptor -/

/-- A descriptor that has started. -/
def begun (f : Fetched) : Fetched := { f with started := true }

theorem getQueue_markStarted (h : keysRise s.cmd.queues = true) : getQueue (markStarted s n f) n =
    { getQueue s n with fetched := (getQueue s n).fetched.map (fun g => if g.uid = f.uid then begun g else g) } :=
  getQueue_setQueue_self (s := noteServed s n) h

theorem getQueue_markStarted_other {k : Nat} (h : keysRise s.cmd.queues = true) (hk : k ≠ n) :
    getQueue (markStarted s n f) k = getQueue s k := getQueue_setQueue_other (s := noteServed s n) h hk

theorem markStarted_queues_rise (h : keysRise s.cmd.queues = true) : keysRise (markStarted s n f).cmd.queues = true :=
  setQueue_queues_rise (s := noteServed s n) h

theorem getDesc_markStarted (hq : keysRise s.cmd.queues = true) (hf : getDesc s n f.uid = some f) :
    getDesc (markStarted s n f) n f.uid = some (begun f) := by
  have hkeep : ((fun g : Fetched => g.uid == f.uid) ∘ fun g => if g.uid = f.uid then begun g else g) =
      fun g => g.uid == f.uid := by
    funext g
    by_cases hg : g.uid = f.uid <;> simp [hg, begun]
  rw [getDesc, getQueue_markStarted hq]
  simp only [List.find?_map, hkeep]
  rw [getDesc] at hf
  rw [hf]
  simp

/-- A completion of a started descriptor, seen from before its start. -/
theorem answered_begun {effect : Bool} (hq : keysRise s.cmd.queues = true)
    (h : Answered (markStarted s n f) t n (begun f) effect []) : Answered s t n f effect [] := by
  have hspan : recordSpan (markStarted s n f) n = recordSpan s n := by
    simp only [recordSpan, getQueue_markStarted hq]
    rfl
  obtain ⟨hgone, hdone, hrej, hmem⟩ := h
  rw [hspan] at hmem
  exact ⟨hgone, hdone, hrej, hmem⟩

theorem reports_begun {r : Record} (hq : keysRise s.cmd.queues = true) (h : Reports (markStarted s n f) t n r) :
    Reports s t n r := by
  obtain ⟨hring, hheld⟩ := h
  rw [getQueue_markStarted hq] at hring hheld
  exact ⟨hring, hheld⟩

theorem plainRecord_begun (h : t.nowNs = s.nowNs) (st : Status) : plainRecord t (begun f) st = plainRecord s f st := by
  simp only [plainRecord, h, begun]

/-! ## The Window Table (R493) -/

/-- Entries written one after another from `base`. -/
theorem smGet_foldl_zipIdx {d : Bytes} (es : List Bytes) (base k : Nat) (m : List (Nat × Bytes)) (h : keysRise m = true)
    (i : Nat) :
    smGet d ((es.zipIdx k).foldl (fun (m : List (Nat × Bytes)) (e : Bytes × Nat) => smSet d m (base + e.2) e.1) m) i =
      if base + k ≤ i ∧ i < base + k + es.length then es.getD (i - (base + k)) d else smGet d m i := by
  induction es generalizing k m with
  | nil => simp
  | cons e es ih =>
    simp only [List.zipIdx_cons, List.foldl_cons, ih _ _ (keysRise_smSet h)]
    by_cases hi : i = base + k
    · subst hi
      rw [if_neg (by omega), if_pos (by simp), get_set_self h]
      simp
    · rw [get_set_other h hi]
      by_cases hin : base + (k + 1) ≤ i ∧ i < base + (k + 1) + es.length
      · obtain ⟨j, rfl⟩ : ∃ j, i = base + k + (j + 1) := ⟨i - (base + k + 1), by omega⟩
        rw [if_pos hin, if_pos (by simp; omega)]
        have h1 : base + k + (j + 1) - (base + (k + 1)) = j := by omega
        have h2 : base + k + (j + 1) - (base + k) = j + 1 := by omega
        rw [h1, h2, List.getD_cons_succ]
      · rw [if_neg hin, if_neg (by simp; omega)]

theorem wsEntries_length (f : Fetched) : (wsEntries f).length = wsCount f.desc := by simp [wsEntries]

/-- Every entry of a WINDOW_SET stands, and no other changes. -/
theorem smGet_putEntries (h : keysRise s.hif.wt = true) (i : Nat) : smGet (zeroBytes 32) (putEntries s f).hif.wt i =
    if wsFirst f.desc ≤ i ∧ i < wsFirst f.desc + wsCount f.desc then
      (f.payload.drop (32 * (i - wsFirst f.desc))).take 32 else smGet (zeroBytes 32) s.hif.wt i := by
  simp only [putEntries, smGet_foldl_zipIdx (wsEntries f) (wsFirst f.desc) 0 s.hif.wt h i, Nat.add_zero, wsEntries_length]
  split
  · next hi =>
    have hlt : i - wsFirst f.desc < wsCount f.desc := by omega
    simp [wsEntries, List.getD_eq_getElem?_getD, hlt]
  · rfl

/-! ## WINDOW_SET -/

/-- The state in which the table stands and the command waits for older lines (R494). -/
def windowsWait (s : State) (n : Nat) (f : Fetched) : State :=
  let s1 := putEntries (markStarted s n f) f
  { s1 with hif := { s1.hif with wtWait := some (n, f.uid, s.fab.nextId) } }

/-- The state in which nothing waits any longer. -/
def windowsSet (s : State) (n : Nat) (f : Fetched) : State :=
  let s1 := putEntries (markStarted s n f) f
  { s1 with hif := { s1.hif with wtWait := none } }

theorem exec_windowSet (hw : s.hif.wtWait = none) (h : startDesc s q.toNat 0x0105 = some f) (hc : wsCheck f = none) :
    exec (.windowSet q) s = .next (endWindowSet (windowsWait s q.toNat f)) := by
  show execWindowSet q s = _
  simp [execWindowSet, hw, h, hc, windowsWait]

theorem endWindowSet_windowsWait (hq : keysRise s.cmd.queues = true) (hf : getDesc s n f.uid = some f) :
    endWindowSet (windowsWait s n f) =
      if oldLines s s.fab.nextId then windowsWait s n f else completeDesc (windowsSet s n f) n (begun f) .ok := by
  have hold : oldLines (windowsWait s n f) s.fab.nextId = oldLines s s.fab.nextId := rfl
  have hdesc : getDesc (windowsSet s n f) n f.uid = some (begun f) :=
    (getDesc_markStarted hq hf : getDesc (markStarted s n f) n f.uid = _)
  show (if oldLines (windowsWait s n f) s.fab.nextId then windowsWait s n f else
    match getDesc (windowsSet s n f) n f.uid with
    | some g => completeDesc (windowsSet s n f) n g .ok
    | none => windowsSet s n f) = _
  rw [hold, hdesc]

theorem windowSet_gives (hs : Sound s) (hw : s.hif.wtWait = none) (h : startDesc s q.toNat 0x0105 = some f)
    (hf : getDesc s q.toNat f.uid = some f) (hc : wsCheck f = none) : Gives (.windowSet q) s fun t =>
      t.hif.wtGen = s.hif.wtGen + 1 ∧
      (∀ i < wsCount f.desc, smGet (zeroBytes 32) t.hif.wt (wsFirst f.desc + i) = (f.payload.drop (32 * i)).take 32) ∧
      (∀ i, i < wsFirst f.desc ∨ wsFirst f.desc + wsCount f.desc ≤ i →
        smGet (zeroBytes 32) t.hif.wt i = smGet (zeroBytes 32) s.hif.wt i) ∧
      (oldLines s s.fab.nextId = false → t.hif.wtWait = none ∧ Answered s t q.toNat f true [] ∧
        Reports s t q.toNat (plainRecord s f .ok)) ∧
      (oldLines s s.fab.nextId = true →
        t.hif.wtWait = some (q.toNat, f.uid, s.fab.nextId) ∧ t.cmd.completed = s.cmd.completed) := by
  have hexec := exec_windowSet hw h hc
  rw [endWindowSet_windowsWait hs.queues hf] at hexec
  refine ⟨_, hexec, ?_⟩
  have htable : ∀ t : State, t.hif.wt = (putEntries s f).hif.wt →
      (∀ i < wsCount f.desc, smGet (zeroBytes 32) t.hif.wt (wsFirst f.desc + i) = (f.payload.drop (32 * i)).take 32) ∧
      (∀ i, i < wsFirst f.desc ∨ wsFirst f.desc + wsCount f.desc ≤ i →
        smGet (zeroBytes 32) t.hif.wt i = smGet (zeroBytes 32) s.hif.wt i) := by
    refine fun t ht => ⟨fun i hi => ?_, fun i hi => ?_⟩
    · rw [ht, smGet_putEntries hs.windows, if_pos (by omega), Nat.add_sub_cancel_left]
    · rw [ht, smGet_putEntries hs.windows, if_neg (by omega)]
  cases ho : oldLines s s.fab.nextId with
  | true =>
    obtain ⟨hin, hout⟩ := htable (windowsWait s q.toNat f) rfl
    simp only [if_true]
    exact ⟨rfl, hin, hout, fun h => Bool.noConfusion h, fun _ => ⟨rfl, rfl⟩⟩
  | false =>
    simp only [Bool.false_eq_true, if_false]
    have hrep := completeFull_reported (windowsSet s q.toNat f) q.toNat (begun f) .ok false false 0 true
    obtain ⟨hin, hout⟩ := htable _ (hrep.wt.trans rfl)
    have hq : keysRise (windowsSet s q.toNat f).cmd.queues = true := markStarted_queues_rise hs.queues
    have hcmd : (windowsSet s q.toNat f).cmd = (markStarted s q.toNat f).cmd := by simp only [windowsSet, putEntries]
    refine ⟨hrep.wtGen, hin, hout, fun _ => ⟨hrep.wtWait, ?_, ?_⟩, fun h => h.elim⟩
    · have hmem : (windowsSet s q.toNat f).mem = (markStarted s q.toNat f).mem := by simp only [windowsSet, putEntries]
      have hwf : Memory.wf (windowsSet s q.toNat f).mem = true := by rw [hmem]; exact hs.mem
      have hans := answered_completeFull (n := q.toNat) (f := begun f) hq hwf .ok false false 0 true
      exact answered_begun hs.queues (answered_after hcmd (sameMem_of_eq hmem _) hans)
    · have hrec := reports_completeDesc (n := q.toNat) (f := begun f) hq .ok
      have hnow : (windowsSet s q.toNat f).nowNs = s.nowNs := by simp only [windowsSet, putEntries, markStarted, setQueue, noteServed]
      rw [plainRecord_begun hnow] at hrec
      have hqueue : getQueue (windowsSet s q.toNat f) q.toNat = getQueue (markStarted s q.toNat f) q.toNat :=
        getQueue_of_cmd hcmd _
      exact reports_begun hs.queues (reports_of_getQueue hqueue hrec)

/-- Settles O16. -/
theorem windowSetWritesTheTable : Obligations.WindowSetWritesTheTable := by
  refine fun q s f hs hw h hf => ⟨windowSet_gives hs hw h hf, fun e he => ?_, fun w q2 => ?_⟩
  · have hexec : exec (.windowSet q) s = .next (refuseDesc s q.toNat f e) := by
      show execWindowSet q s = _
      simp [execWindowSet, hw, h, he]
    have hrep := completeFull_reported s q.toNat f e false false 0 false
    exact ⟨_, hexec, hrep.wt, hrep.wtGen, answered_refuseDesc hs e⟩
  · exact ⟨_, rfl, rfl⟩

end Sys2Proof.Laws
end

section
/-! PROOFS. The service connector: locks and vendor access. -/

namespace Sys2Proof.Laws

open Sys2Proof Sys2Proof.Machine
set_option Elab.async false

variable {s t : State} {q : QueueId} {f : Fetched}

/-! ## The connector's states (R514 to R516) -/

theorem field_lt (b : Bytes) (off lo w : Nat) : field b off lo w < 2 ^ w := Nat.mod_lt _ (by positivity)

/-- A change of the connector's state (R515). -/
theorem getMr_setSvc (h : keysRise s.sec.mrs = true) (st level : Nat) : getMr (setSvc s st level) 6 =
    shake256 (getMr s 6 ++ [6, 0, 0, 0] ++ ([BitVec.ofNat 8 st, BitVec.ofNat 8 level] ++ zeroBytes 62)) :=
  getMr_extendMr_self (s := { s with sec := { s.sec with svc := BitVec.ofNat 2 st, svcLevel := BitVec.ofNat 2 level } })
    h 6 6 _

/-- A connector that stays unlocked until a time (R515, R516). -/
def openUntil (s : State) (time : Nat) : State :=
  { s with sec := { s.sec with svcEnd := time, opened := true, aliasKey := false } }

theorem openUntil_sec (time : Nat) : (openUntil s time).sec.svc = s.sec.svc ∧ (openUntil s time).sec.svcLevel = s.sec.svcLevel ∧
    (openUntil s time).sec.svcEnd = time ∧ (openUntil s time).sec.rootKey = s.sec.rootKey ∧
    (openUntil s time).sec.opKey = s.sec.opKey ∧ (openUntil s time).sec.aliasKey = false ∧
    (openUntil s time).sec.opened = true ∧ getMr (openUntil s time) 6 = getMr s 6 :=
  ⟨rfl, rfl, rfl, rfl, rfl, rfl, rfl, rfl⟩

theorem openUntil_cmd (time : Nat) : (openUntil s time).cmd = s.cmd := rfl

theorem openUntil_mem (time : Nat) : (openUntil s time).mem = s.mem := rfl

theorem exec_svcUnlock (h : startDesc s q.toNat 0x0106 = some f) (hsvc : s.sec.svc = 0)
    (hl : field f.desc 16 0 2 = 1 ∨ field f.desc 16 0 2 = 2) (h1 : 1 ≤ le f.desc 18 2) (h2 : le f.desc 18 2 ≤ 1440) :
    exec (.svcUnlock q) s = .next (completeDesc (openUntil (setSvc (eraseSlots s) 1 (field f.desc 16 0 2))
      (s.nowNs + le f.desc 18 2 * 60000000000)) q.toNat f .ok) := by
  show execSvcUnlock q s = _
  have hgood : ¬ (s.sec.svc ≠ 0 ∨ field f.desc 16 0 2 = 0 ∨ field f.desc 16 0 2 = 3 ∨ le f.desc 18 2 = 0 ∨
      le f.desc 18 2 > 1440) := by
    rw [hsvc]
    simp only [ne_eq, not_true, false_or]
    omega
  simp only [execSvcUnlock, h, if_neg hgood, openUntil, minuteNs]

/-- What an unlock at `level` until `time` leaves. -/
theorem svcUnlock_done (hs : Sound s) {level : Nat} (hlevel : level < 4) (n time : Nat) :
    let t := completeDesc (openUntil (setSvc (eraseSlots s) 1 level) time) n f .ok
    t.sec.svc = 1 ∧ t.sec.svcLevel.toNat = level ∧ t.sec.svcEnd = time ∧
      t.sec.rootKey = none ∧ t.sec.opKey = none ∧ t.sec.aliasKey = false ∧ t.sec.opened = true ∧
      getMr t 6 = shake256 (getMr s 6 ++ [6, 0, 0, 0] ++ [1, BitVec.ofNat 8 level] ++ zeroBytes 62) ∧
      Answered s t n f true [] := by
  have hcmd : (setSvc (eraseSlots s) 1 level).cmd = s.cmd := rfl
  have hmem : (setSvc (eraseSlots s) 1 level).mem = s.mem := rfl
  obtain ⟨k1, k2, k3, k4, k5, k6, k7, k8⟩ := openUntil_sec (s := setSvc (eraseSlots s) 1 level) time
  simp only
  rw [completeDesc_sec, getMr_of_sec (completeDesc_sec _), k1, k2, k3, k4, k5, k6, k7, k8]
  refine ⟨rfl, ?_, rfl, rfl, rfl, rfl, rfl, ?_,
    answered_completeDesc_of_eq hs ((openUntil_cmd _).trans hcmd) ((openUntil_mem _).trans hmem) _⟩
  · show (BitVec.ofNat 2 level).toNat = _
    rw [BitVec.toNat_ofNat, Nat.mod_eq_of_lt hlevel]
  · rw [List.append_assoc _ _ (zeroBytes 62)]
    exact getMr_setSvc (s := eraseSlots s) hs.mrs 1 _

theorem svcUnlock_gives (hs : Sound s) (h : startDesc s q.toNat 0x0106 = some f) (hsvc : s.sec.svc = 0)
    (hl : field f.desc 16 0 2 = 1 ∨ field f.desc 16 0 2 = 2) (h1 : 1 ≤ le f.desc 18 2) (h2 : le f.desc 18 2 ≤ 1440) :
    Gives (.svcUnlock q) s fun t =>
      t.sec.svc = 1 ∧ t.sec.svcLevel.toNat = field f.desc 16 0 2 ∧
      t.sec.svcEnd = s.nowNs + le f.desc 18 2 * 60000000000 ∧
      t.sec.rootKey = none ∧ t.sec.opKey = none ∧ t.sec.aliasKey = false ∧ t.sec.opened = true ∧
      getMr t 6 = shake256 (getMr s 6 ++ [6, 0, 0, 0] ++ [1, BitVec.ofNat 8 (field f.desc 16 0 2)] ++ zeroBytes 62) ∧
      Answered s t q.toNat f true [] :=
  ⟨_, exec_svcUnlock h hsvc hl h1 h2, svcUnlock_done hs (field_lt _ _ _ _) _ _⟩

/-- The connector is LOCKED, and MR6 tells that it was not before. -/
theorem lockSvc_sec (hs : Sound s) : (lockSvc s).sec.svc = 0 ∧ (lockSvc s).sec.opened = s.sec.opened ∧
    getMr (lockSvc s) 6 =
      (if s.sec.svc = 0 then getMr s 6 else shake256 (getMr s 6 ++ [6, 0, 0, 0] ++ zeroBytes 64)) := by
  by_cases hl : s.sec.svc = 0
  · rw [show lockSvc s = s from if_pos hl, if_pos hl]
    exact ⟨hl, rfl, rfl⟩
  · rw [show lockSvc s = setSvc s 0 0 from if_neg hl, if_neg hl]
    exact ⟨rfl, rfl, getMr_setSvc hs.mrs 0 0⟩

theorem lockSvc_parts : (lockSvc s).cmd = s.cmd ∧ (lockSvc s).mem = s.mem := by
  unfold lockSvc
  split <;> exact ⟨rfl, rfl⟩

theorem svcLock_gives (hs : Sound s) (h : startDesc s q.toNat 0x0107 = some f) : Gives (.svcLock q) s fun t =>
    t.sec.svc = 0 ∧ t.sec.opened = s.sec.opened ∧ Answered s t q.toNat f true [] ∧
    getMr t 6 = (if s.sec.svc = 0 then getMr s 6 else shake256 (getMr s 6 ++ [6, 0, 0, 0] ++ zeroBytes 64)) := by
  have hexec : exec (.svcLock q) s = .next (completeDesc (lockSvc s) q.toNat f .ok) := by
    show execSvcLock q s = _
    simp only [execSvcLock, h]
  obtain ⟨hsvc, hopened, hmr⟩ := lockSvc_sec hs
  refine ⟨_, hexec, ?_⟩
  beta_reduce
  rw [completeDesc_sec, getMr_of_sec (completeDesc_sec _)]
  exact ⟨hsvc, hopened, answered_completeDesc_of_eq hs lockSvc_parts.1 lockSvc_parts.2 _, hmr⟩

theorem svcUnlockExpiry_gives (hs : Sound s) (hsvc : s.sec.svc ≠ 0) (he : s.sec.svcEnd ≤ s.nowNs) :
    Gives .svcUnlockExpiry s fun t =>
      t.sec.svc = 0 ∧ t.sec.opened = s.sec.opened ∧ t.mem = s.mem ∧ t.cmd = s.cmd := by
  have hexec : exec .svcUnlockExpiry s = .next (lockSvc s) := if_pos ⟨hsvc, he⟩
  obtain ⟨h1, h2, _⟩ := lockSvc_sec hs
  exact ⟨_, hexec, h1, h2, lockSvc_parts.2, lockSvc_parts.1⟩

/-! ## What a service tool reads and answers -/

theorem serviceConnectorRead_gives (hon : s.rst.supply ≠ .off) :
    Gives (.serviceConnectorRead .serial) s (fun t => t = { s with out := s.out ++ [.service serialBytes] }) ∧
    Gives (.serviceConnectorRead .flags) s (fun t => t = { s with out := s.out ++ [.service (leBytes 2 (quoteFlags s))] }) ∧
    Gives (.serviceConnectorRead .challenge) s (fun t =>
      ∃ c, t.sec = { s.sec with challenge := some c } ∧ c.length = 32 ∧ t.out = s.out ++ [.service c] ∧ t.mem = s.mem) := by
  have hread : ∀ w, exec (.serviceConnectorRead w) s = execServiceConnectorRead w s := fun _ => rfl
  refine ⟨⟨_, (hread _).trans (if_neg hon), rfl⟩, ⟨_, (hread _).trans (if_neg hon), rfl⟩,
    ⟨_, (hread _).trans (if_neg hon), _, rfl, fit_length _ _, rfl, rfl⟩⟩

/-- A good answer at level 2 opens VENDOR_OPEN. -/
theorem vendorChallenge_good (hs : Sound s) {c sig : Bytes} (hc : s.sec.challenge = some c) (h1 : s.sec.svc = 1)
    (h2 : s.sec.svcLevel = 2)
    (hg : Config.mldsaVerify Config.serviceKey (c ++ serialBytes) (ascii "ZV-OM4096 SVC") sig = true) :
    Gives (.vendorChallenge sig) s fun t =>
      t.sec.svc = 2 ∧ t.sec.vendorReached = true ∧ t.sec.challenge = none ∧
      getMr t 6 = shake256 (getMr s 6 ++ [6, 0, 0, 0] ++ [2, 2] ++ zeroBytes 62) := by
  have hexec : exec (.vendorChallenge sig) s = .next
      (let s2 := setSvc { s with sec := { s.sec with challenge := none } } 2 2
       { s2 with sec := { s2.sec with vendorReached := true } }) := by
    show execVendorChallenge sig s = _
    simp only [execVendorChallenge, hc, h1, h2, hg, and_self, if_true]
  refine ⟨_, hexec, rfl, rfl, rfl, ?_⟩
  rw [List.append_assoc _ _ (zeroBytes 62)]
  exact getMr_setSvc (s := { s with sec := { s.sec with challenge := none } }) hs.mrs 2 2

/-- Any other answer uses up the challenge. -/
theorem vendorChallenge_bad {c sig : Bytes} (hc : s.sec.challenge = some c) (h : s.sec.svcLevel = 1 ∨
    Config.mldsaVerify Config.serviceKey (c ++ serialBytes) (ascii "ZV-OM4096 SVC") sig = false) :
    Gives (.vendorChallenge sig) s fun t => t.sec = { s.sec with challenge := none } := by
  have hbad : ¬ (s.sec.svc = 1 ∧ s.sec.svcLevel = 2 ∧
      Config.mldsaVerify Config.serviceKey (c ++ serialBytes) (ascii "ZV-OM4096 SVC") sig = true) := by
    rintro ⟨_, h2, hg⟩
    rcases h with h | h
    · rw [h] at h2
      exact absurd h2 (by decide)
    · rw [h] at hg
      exact absurd hg (by decide)
  refine ⟨{ s with sec := { s.sec with challenge := none } }, ?_, rfl⟩
  show execVendorChallenge sig s = _
  simp only [execVendorChallenge, hc, if_neg hbad]

/-- A revocation fuse burnt (R498). -/
theorem keyRevocationBurn_gives (k : BitVec 2) (hv : s.sec.svc = 2) : Gives (.keyRevocationBurn k) s fun t =>
    t.sec.keyRevoked.getLsbD k.toNat = true ∧
    ∀ j, j ≠ k.toNat → t.sec.keyRevoked.getLsbD j = s.sec.keyRevoked.getLsbD j := by
  have hk : k.toNat < 4 := k.isLt
  refine ⟨_, if_pos hv, ?_, fun j hj => ?_⟩
  · simp only [BitVec.getLsbD_or, BitVec.getLsbD_ofNat, Nat.testBit_two_pow_self, hk]
    simp
  · simp only [BitVec.getLsbD_or, BitVec.getLsbD_ofNat, Nat.testBit_two_pow_of_ne (Ne.symm hj)]
    simp

/-- Settles O17. -/
theorem connectorAndVendor : Obligations.ConnectorAndVendor := by
  refine ⟨fun q s f hs => ⟨svcUnlock_gives hs, svcLock_gives hs, svcUnlockExpiry_gives hs⟩, fun s hs hon => ?_⟩
  obtain ⟨hserial, hflags, hchallenge⟩ := serviceConnectorRead_gives hon
  refine ⟨hserial, hflags, hchallenge, fun c sig hc => ⟨vendorChallenge_good hs hc, vendorChallenge_bad hc⟩,
    fun hv => ⟨_, if_pos hv, rfl⟩, fun hv => ⟨_, if_neg hv, rfl⟩, fun k => keyRevocationBurn_gives k,
    fun k hv => ⟨_, if_neg hv, rfl⟩⟩

end Sys2Proof.Laws
end

section
/-! PROOFS. The power-up sequence. -/

namespace Sys2Proof.Laws

open Sys2Proof Sys2Proof.Machine
set_option Elab.async false

variable {s t : State}

/-! ## What power-on leaves (R577) -/

theorem settleAlert_pwr : ∃ a, (settleAlert s).pwr = { s.pwr with alert := a } := by
  obtain ⟨out, a, h, _⟩ := settleAlert_eq s
  exact ⟨a, by rw [h]⟩

theorem settleAlert_sec : (settleAlert s).sec = s.sec := sec_eq (by simp)

theorem trainFromNow_sec (p : HPort) : (trainFromNow s p).sec = s.sec := sec_eq (by simp)

theorem trainFromNow_pwr (p : HPort) : (trainFromNow s p).pwr = s.pwr := pwr_eq (by simp)

/-- Steps 1 to 5 leave the command processor, the cores and memory. -/
theorem bringUp_mem : (bringUp s).mem = s.mem := mem_eq (by simp [bringUp])

theorem bringUp_cmd : (bringUp s).cmd = s.cmd := cmd_eq (by simp [bringUp])

theorem bringUp_cores : (bringUp s).cores = s.cores := cores_eq (by simp [bringUp])

theorem bringUp_err : (bringUp s).err = s.err := err_eq (by simp [bringUp])

theorem settleAlert_rst : (settleAlert s).rst = s.rst := rst_eq (by simp)

theorem settleAlert_fw : (settleAlert s).fw = s.fw := fw_eq (by simp)

theorem trainFromNow_rst (p : HPort) : (trainFromNow s p).rst = s.rst := rst_eq (by simp)

theorem trainFromNow_fw (p : HPort) : (trainFromNow s p).fw = s.fw := fw_eq (by simp)

theorem bringUp_rst : (bringUp s).rst = { s.rst with supply := .on, step := 5, startNs := s.nowNs } := by
  simp only [bringUp, settleAlert_rst, extendMr, trainFromNow_rst]

theorem bringUp_fw : (bringUp s).fw = { s.fw with mbxReady := true } := by
  simp only [bringUp, settleAlert_fw, extendMr, trainFromNow_fw]

/-- They extend MR0 over the boot ROM and the Night Assistant's. -/
theorem bringUp_sec : (bringUp s).sec = (extendMr { s with sec := { s.sec with startNo := s.sec.startNo + 1 } } 0 1
    (shake256 (Config.bootRom ++ Config.nightRom))).sec := by
  simp only [bringUp, settleAlert_sec]
  simp only [extendMr, trainFromNow_sec, getMr]

theorem bringUp_pwr : ∃ a, (bringUp s).pwr = { s.pwr with alert := a } := by
  simp only [bringUp]
  obtain ⟨a, h⟩ := settleAlert_pwr (s := extendMr (trainFromNow (trainFromNow { s with
    rst := { s.rst with supply := .on, step := 5, startNs := s.nowNs }, fw := { s.fw with mbxReady := true },
    sec := { s.sec with startNo := s.sec.startNo + 1 } } .a) .b) 0 1 (shake256 (Config.bootRom ++ Config.nightRom)))
  refine ⟨a, h.trans ?_⟩
  simp only [extendMr, trainFromNow_pwr]

/-! ## Self-test and the first sweep -/

/-- The map of failed cores has the failures of a shared block and of a die for whole clusters. -/
theorem smGet_foldl_set {α : Type} [DecidableEq α] {d v : α} (l : List Nat) (m : List (Nat × α)) (h : keysRise m = true)
    (k : Nat) : smGet d (l.foldl (fun m c => smSet d m c v) m) k = if l.contains k then v else smGet d m k := by
  induction l generalizing m with
  | nil => rfl
  | cons c l ih =>
    rw [List.foldl_cons, ih _ (keysRise_smSet h)]
    by_cases hk : k = c
    · subst hk
      simp [get_set_self h]
    · simp [get_set_other h hk, hk]

/-- A map that keeps an entry by its key alone. -/
theorem smGet_filter_key {α : Type} {d : α} (p : Nat → Bool) (m : List (Nat × α)) (k : Nat) :
    smGet d (m.filter (fun c => p c.1)) k = if p k then smGet d m k else d := by
  induction m with
  | nil => simp [smGet]
  | cons c m ih =>
    obtain ⟨j, v⟩ := c
    by_cases hj : j = k
    · subst hj
      cases hp : p j with
      | true => simp [hp, smGet]
      | false => simpa [hp, smGet] using ih
    · cases hp : p j <;> simp [hp, smGet, hj, ih]

/-- The entries of one map put in another. -/
theorem smGet_foldl_pairs {α : Type} [DecidableEq α] {d : α} (l m : List (Nat × α)) (hl : keysRise l = true)
    (hm : keysRise m = true) (k : Nat) : smGet d (l.foldl (fun m f => smSet d m f.1 f.2) m) k =
      if l.any (fun f => f.1 == k) then smGet d l k else smGet d m k := by
  induction l generalizing m with
  | nil => rfl
  | cons f l ih =>
    obtain ⟨j, v⟩ := f
    obtain ⟨habove, hl⟩ := keysRise_cons.mp hl
    rw [List.foldl_cons, ih _ hl (keysRise_smSet hm)]
    by_cases hk : k = j
    · subst hk
      have hnone : l.any (fun f => f.1 == k) = false := by
        simp only [List.any_eq_false, beq_iff_eq]
        exact fun f hf hfk => absurd (habove f hf) (by omega)
      simp [hnone, get_set_self hm, smGet]
    · have hj : (j == k) = false := by simpa using Ne.symm hk
      have hjk : j ≠ k := Ne.symm hk
      simp only [List.any_cons, hj, Bool.false_or, get_set_other hm hk, smGet, if_neg hjk]

/-- The failures that self-test reports (R580). -/
theorem bistOf_get (r : SelftestResult) (h : keysRise r.cores = true) {c : Nat} (hc : c < 64) :
    smGet 0 (bistOf r) c = if r.clusters.any (fun k => k.toNat == c) || r.dies.any (fun d => (dieClusters d.toNat).contains c)
      then BitVec.allOnes 64 else smGet 0 r.cores c := by
  have hcores : keysRise (r.cores.filter (fun f => decide (f.1 < 64))) = true := keysRise_filter _ h
  have hrise : keysRise ((r.cores.filter (fun f => decide (f.1 < 64))).foldl (fun m f => smSet (0 : BitVec 64) m f.1 f.2) [])
      = true := keysRise_foldl (fun _ _ => keysRise_smSet) _ rfl
  have hown : smGet 0 ((r.cores.filter (fun f => decide (f.1 < 64))).foldl (fun m f => smSet (0 : BitVec 64) m f.1 f.2) []) c =
      smGet 0 r.cores c := by
    rw [smGet_foldl_pairs _ _ hcores rfl]
    have hget : smGet (0 : BitVec 64) (r.cores.filter (fun f => decide (f.1 < 64))) c = smGet 0 r.cores c := by
      simpa [hc] using smGet_filter_key (d := (0 : BitVec 64)) (fun a => decide (a < 64)) r.cores c
    split
    · exact hget
    · next hno =>
      rw [← hget]
      rcases smGet_mem_or (d := (0 : BitVec 64)) (m := r.cores.filter (fun f => decide (f.1 < 64))) (k := c) with hd | hm
      · exact hd.symm
      · exact absurd (List.any_eq_true.mpr ⟨_, hm, by simp⟩) hno
  simp only [bistOf]
  rw [smGet_foldl_set _ _ hrise, hown]
  congr 1
  simp only [List.contains_eq_any_beq, List.any_append, List.any_map, List.any_flatMap, Bool.or_eq_true]
  simp only [Function.comp_def, Bool.beq_comm]

theorem powerOn_gives (slot : BitVec 4) (h : s.rst.supply = .off) : Gives (.powerOn slot) s fun t =>
    t.rst.supply = .on ∧ t.rst.step = 5 ∧ t.pwr.slotId = slot ∧ (∀ a, memByte t.mem a = 0) ∧ resetKept s t ∧
    getMr t 0 = shake256 (zeroBytes 64 ++ [1, 0, 0, 0] ++ shake256 (Config.bootRom ++ Config.nightRom)) ∧
    (∀ i, i ≠ 0 → getMr t i = zeroBytes 64) ∧ t.err.failLog = s.err.failLog := by
  refine ⟨_, if_pos h, ?_⟩
  beta_reduce
  obtain ⟨a, hp⟩ := bringUp_pwr (s := { freshState s false with
    pwr := { (freshState s false).pwr with slotId := slot }, mr := { (freshState s false).mr with force8800 := false } })
  have hr : ∀ (m : List (Nat × Bytes)), m = [] → keysRise m = true := by rintro _ rfl; rfl
  refine ⟨?_, ?_, ?_, ?_, ?_, ?_, ?_, ?_⟩
  · rw [bringUp_rst]
  · rw [bringUp_rst]
  · rw [hp]
  · rw [bringUp_mem]
    exact fun _ => rfl
  · unfold resetKept
    rw [bringUp_fw, bringUp_cmd, bringUp_cores, bringUp_sec]
    exact ⟨rfl, rfl, rfl, rfl, rfl, rfl, rfl, rfl, rfl, rfl, rfl⟩
  · rw [getMr_of_sec bringUp_sec, getMr_extendMr_self rfl]
    rfl
  · intro i hi
    rw [getMr_of_sec bringUp_sec, getMr_extendMr_other rfl hi]
    rfl
  · rw [bringUp_err]
    rfl

theorem selftestDone_gives (fails : SelftestResult) (hon : s.rst.supply = .on) (h5 : s.rst.step = 5)
    (hk : keysRise fails.cores = true) : Gives (.selftestDone fails) s fun t =>
      t.rst.step = 6 ∧ t.rst.selftestDone = true ∧
      (∀ c < 64, smGet 0 t.rst.bist c =
        if fails.clusters.any (fun k => k.toNat == c) || fails.dies.any (fun d => (dieClusters d.toNat).contains c)
        then BitVec.allOnes 64 else smGet 0 fails.cores c) ∧
      ∀ a, memByte t.mem a = if inStores a then 0 else memByte s.mem a := by
  refine ⟨_, if_pos ⟨hon, h5⟩, rfl, rfl, fun c hc => bistOf_get fails hk hc, fun a => ?_⟩
  refine (smGet_filter_key (fun a => !inStores a) s.mem.cells a).trans ?_
  cases inStores a <;> rfl

theorem guardStep_rst (k : Nat) : (guardStep s k).rst = s.rst := rst_eq (by simp)

theorem guardStep_mem (k : Nat) : (guardStep s k).mem = s.mem := mem_eq (by simp)

theorem retarget_rst : (retarget s).rst = s.rst := rst_eq (by simp)

theorem withCeil_rst (f : CeilState → CeilState) : (withCeil s f).rst = s.rst := rst_eq (by simp)

theorem withCeil_mem (f : CeilState → CeilState) : (withCeil s f).mem = s.mem := mem_eq (by simp)

/-- Moving towards the lowest ceiling changes the point and the change that is under way, and no ceiling. -/
theorem retarget_permitted : (retarget s).pwr.ceil.permitted = s.pwr.ceil.permitted := by
  unfold retarget
  split
  · simp only [seek]
    split
    · split
      · rfl
      · simp only [beginChange]
        rfl
    · rfl
  · rfl

theorem monitorSweep_gives (rates : List Nat) (hc : computeOn s = true) (h6 : s.rst.step = 6) (hr : rates ≠ []) :
    Gives (.monitorSweep rates) s fun t =>
      t.rst.step = 7 ∧ t.pwr.ceil.permitted = supported (slowest rates) ∧ t.mem = s.mem := by
  have hgo : (computeOn s && decide (6 ≤ s.rst.step) && !rates.isEmpty) = true := by simp [hc, h6, hr]
  refine ⟨_, (if_pos hgo).trans rfl, ?_⟩
  simp only [if_pos h6]
  refine ⟨?_, ?_, ?_⟩
  · rw [withCeil_rst]
    split
    · rw [guardStep_rst]
    · rfl
  · simp only [withCeil, retarget_permitted]
    rfl
  · rw [withCeil_mem]
    split
    · rw [guardStep_mem]
    · rfl

/-- Settles O28. -/
theorem powerUpSequence : Obligations.PowerUpSequence :=
  fun _ => ⟨powerOn_gives, selftestDone_gives, monitorSweep_gives⟩

end Sys2Proof.Laws
end

section
/-! PROOFS. What a module reset and the loss of the rails leave. -/

namespace Sys2Proof.Laws

open Sys2Proof Sys2Proof.Machine
set_option Elab.async false

variable {s t u : State}

/-! ## What a reset's filters leave, as their inputs are recognised again (R579) -/

/-- The sequencer moves the point, and with it the drive of the base dies; nothing else of the power state. -/
theorem retarget_pwr : ∃ drive ceil, (retarget s).pwr = { s.pwr with drive, ceil } := by
  unfold retarget
  split
  · unfold seek
    dsimp only
    split
    · split
      · exact ⟨_, _, rfl⟩
      · unfold beginChange
        dsimp only
        split
        · exact ⟨_, _, rfl⟩
        · exact ⟨_, _, rfl⟩
    · exact ⟨_, _, rfl⟩
  · exact ⟨_, _, rfl⟩

theorem withCeil_pwr (f : CeilState → CeilState) : ∃ drive ceil, (withCeil s f).pwr = { s.pwr with drive, ceil } := by
  obtain ⟨drive, ceil, h⟩ := retarget_pwr (s := setCeil s (f s.pwr.ceil))
  exact ⟨drive, ceil, h⟩

/-- A module that runs nothing and stays in its reset beside its inputs: what the statements about resets name. -/
structure Levelled (s t : State) : Prop where
  fw : t.fw.state = s.fw.state
  queues : s.cmd.queues = [] → t.cmd.queues = []
  streams : t.cmd.streams = s.cmd.streams
  cores : t.cores = s.cores
  sec : t.sec = s.sec
  mem : t.mem = s.mem
  rst : ∃ perstA perstB inReset, t.rst = { s.rst with perstA, perstB, inReset }
  trip : t.pwr.thermTrip = s.pwr.thermTrip
  failLog : failLog t = failLog s
  out : s.out <+: t.out

theorem Levelled.refl (s : State) : Levelled s s :=
  ⟨rfl, id, rfl, rfl, rfl, rfl, ⟨_, _, _, rfl⟩, rfl, rfl, List.prefix_rfl⟩

theorem Levelled.trans (h : Levelled s t) (k : Levelled t u) : Levelled s u where
  fw := k.fw.trans h.fw
  queues := fun hq => k.queues (h.queues hq)
  streams := k.streams.trans h.streams
  cores := k.cores.trans h.cores
  sec := k.sec.trans h.sec
  mem := k.mem.trans h.mem
  rst := by
    obtain ⟨_, _, _, h⟩ := h.rst
    obtain ⟨_, _, _, k⟩ := k.rst
    exact ⟨_, _, _, by rw [k, h]⟩
  trip := k.trip.trans h.trip
  failLog := k.failLog.trans h.failLog
  out := h.out.trans k.out

/-! ### Outputs only grow -/

theorem emit_outGrows (o : Output) : s.out <+: (emit s o).out := List.prefix_append _ _

theorem out_of_eq (h : t.out = s.out) (k : t.out <+: u.out) : s.out <+: u.out := h ▸ k

theorem sendMsix_out (p : HPort) (v : Nat) : s.out <+: (sendMsix s p v).out := by
  simp only [sendMsix]
  split
  · cases p <;> exact List.prefix_rfl
  · split
    · exact emit_outGrows _
    · exact List.prefix_rfl

theorem toRing_out (rec : Bytes) (p : HPort) : s.out <+: (toRing s rec p).out := by
  simp only [toRing]
  split
  · split <;> exact List.prefix_rfl
  · split
    · simp only [issueRead]
      split
      · exact List.prefix_append _ _
      · exact List.prefix_rfl
    · exact List.prefix_rfl

theorem foldl_out {α : Type} {f : State → α → State} (h : ∀ s x, s.out <+: (f s x).out) (l : List α) :
    ∀ s : State, s.out <+: (l.foldl f s).out := by
  induction l with
  | nil => exact fun s => List.prefix_rfl
  | cons x l ih => exact fun s => (h s x).trans (ih _)

theorem deliver_out (rec : Bytes) (ports : List HPort) : s.out <+: (deliver s rec ports).out := by
  simp only [deliver]
  split
  · split <;> exact List.prefix_rfl
  · split
    · exact foldl_out (fun s p => toRing_out rec p) ports s
    · exact List.prefix_rfl

theorem emitEvent_out (st : Status) (i j k l : Nat) (c : Bool) (d : Bytes) :
    s.out <+: (emitEvent s st i j k l c d).out := by
  simp only [emitEvent]
  split
  · exact out_of_eq (by rfl) (deliver_out ..)
  · exact List.prefix_rfl

theorem flushWindow_out (w : EventWindow) : s.out <+: (flushWindow s w).out := by
  simp only [flushWindow]
  split
  · exact List.prefix_rfl
  · exact out_of_eq (by rfl) (emitEvent_out ..)

theorem raiseEvent_out (st : Status) (i j : Nat) (d : Bytes) : s.out <+: (raiseEvent s st i j d).out := by
  simp only [raiseEvent]
  split
  · exact out_of_eq (by rfl) (emitEvent_out ..)
  · split
    · exact List.prefix_rfl
    · exact (flushWindow_out _).trans (out_of_eq (by rfl) (emitEvent_out ..))

theorem setWakeOut_out (p : HPort) (w : Option Nat) : s.out <+: (setWakeOut s p w).out := by
  have base : s.out <+: (match p with
      | .a => { s with pwr := { s.pwr with wakeA := w } }
      | .b => { s with pwr := { s.pwr with wakeB := w } } : State).out := by cases p <;> exact List.prefix_rfl
  simp only [setWakeOut]
  split
  · exact base
  · exact List.IsPrefix.trans base (emit_outGrows _)

/-! ### The levels -/

theorem raiseEvent_levelled (st : Status) (i j : Nat) : Levelled s (raiseEvent s st i j) where
  fw := (raiseEvent_reported s st i j []).ofFw (·.state) fun _ => rfl
  queues := fun h => by rw [raiseEvent_cmd, h]
  streams := by rw [raiseEvent_cmd]
  cores := cores_eq (by simp)
  sec := sec_eq (by simp)
  mem := mem_eq (by simp)
  rst := by rw [rst_eq (t := raiseEvent s st i j) (s := s) (by simp)]; exact ⟨_, _, _, rfl⟩
  trip := by rw [pwr_eq (t := raiseEvent s st i j) (s := s) (by simp)]
  failLog := (raiseEvent_reported s st i j []).failLog
  out := raiseEvent_out ..

theorem setSide_levelled (i : Nat) (x : SideIn) : Levelled s (setSide s i x) :=
  ⟨rfl, id, rfl, rfl, rfl, rfl, ⟨_, _, _, rfl⟩, rfl, rfl, List.prefix_rfl⟩

theorem sideAssert_levelled (i : Nat) : Levelled s (sideAssert s i).1 := by
  simp only [sideAssert]
  split
  · exact .refl s
  · split
    · exact setSide_levelled ..
    · exact (setSide_levelled ..).trans (raiseEvent_levelled ..)

theorem setBrake_levelled (on : Bool) : Levelled s (setBrake s on) where
  fw := by rw [fw_eq (t := setBrake s on) (s := s) (by simp)]
  queues := by rw [cmd_eq (t := setBrake s on) (s := s) (by simp)]; exact id
  streams := by rw [cmd_eq (t := setBrake s on) (s := s) (by simp)]
  cores := cores_eq (by simp)
  sec := sec_eq (by simp)
  mem := mem_eq (by simp)
  rst := by rw [rst_eq (t := setBrake s on) (s := s) (by simp)]; exact ⟨_, _, _, rfl⟩
  trip := by
    obtain ⟨d, c, h⟩ := withCeil_pwr (s := s) (fun c => { c with brake := on })
    exact congrArg (·.thermTrip) h
  failLog := setBrake_failLog s on
  out := by rw [out_eq (t := setBrake s on) (s := s) (by simp)]

/-- Losing a port orphans its queues, of which an empty module has none. -/
theorem orphanQueues_of_none (p : HPort) (h : s.cmd.queues = []) : orphanQueues s p = s := by
  unfold orphanQueues
  refine List.foldl_fixed' (fun n => ?_) _
  have free : (getQueue s n).owner = 0 := by rw [getQueue, h]; rfl
  dsimp only
  rw [if_neg (by rw [free]; cases p <;> decide)]

theorem orphanQueues_streams (p : HPort) : (orphanQueues s p).cmd.streams = s.cmd.streams := by
  unfold orphanQueues
  induction allQueues generalizing s with
  | nil => rfl
  | cons n l ih =>
    rw [List.foldl_cons, ih]
    dsimp only
    split
    · rfl
    · rfl

theorem losePort_queues (p : HPort) (h : s.cmd.queues = []) : (losePort s p).cmd.queues = [] := by
  have same : (setPort s p { getPort s p with linkUp := false, lost := true }).cmd = s.cmd := by cases p <;> rfl
  rw [losePort, orphanQueues_of_none p (by rw [same, h]), same, h]

theorem losePort_streams (p : HPort) : (losePort s p).cmd.streams = s.cmd.streams := by
  rw [losePort, orphanQueues_streams]
  cases p <;> rfl

theorem portReset_levelled (p : HPort) : Levelled s (portReset s p) where
  fw := by rw [fw_eq (t := portReset s p) (s := s) (by simp)]
  queues := fun h => by
    have lost := losePort_queues p h
    cases p <;> simp [portReset, setPort, lost]
  streams := by
    have lost := losePort_streams (s := s) p
    cases p <;> simp [portReset, setPort, lost]
  cores := cores_eq (by simp)
  sec := sec_eq (by simp)
  mem := mem_eq (by simp)
  rst := by rw [rst_eq (t := portReset s p) (s := s) (by simp)]; exact ⟨_, _, _, rfl⟩
  trip := by
    have lost : (losePort s p).pwr = s.pwr := pwr_eq (by simp)
    cases p <;> simp [portReset, setPort, lost]
  failLog := portReset_failLog s p
  out := by rw [out_eq (t := portReset s p) (s := s) (by simp)]

theorem countPerst_levelled (p : HPort) : Levelled s (countPerst s p) := by
  cases p <;> exact ⟨rfl, id, rfl, rfl, rfl, rfl, ⟨_, _, _, rfl⟩, rfl, rfl, List.prefix_rfl⟩

theorem setPort_levelled (p : HPort) (x : HostPortState) : Levelled s (setPort s p x) := by
  cases p <;> exact ⟨rfl, id, rfl, rfl, rfl, rfl, ⟨_, _, _, rfl⟩, rfl, rfl, List.prefix_rfl⟩

theorem perstOn_levelled (p : HPort) : Levelled s (perstOn s p) :=
  ((countPerst_levelled p).trans (portReset_levelled p)).trans (setPort_levelled ..)

theorem levelAgain_levelled (old : State) (i : Nat) : Levelled s (levelAgain old s i) := by
  unfold levelAgain
  split
  · have again := sideAssert_levelled (s := s) i
    dsimp only
    split
    · exact again.trans (perstOn_levelled _)
    · exact again.trans (perstOn_levelled _)
    · exact again.trans (setBrake_levelled _)
    · exact again.trans ⟨rfl, id, rfl, rfl, rfl, rfl, ⟨_, _, _, rfl⟩, rfl, rfl, List.prefix_rfl⟩
    · exact again
  · exact .refl s

theorem levels_levelled (old : State) (l : List Nat) : ∀ s, Levelled s (l.foldl (levelAgain old) s) := by
  induction l with
  | nil => exact .refl
  | cons i l ih => exact fun s => (levelAgain_levelled old i).trans (ih _)

/-- MODULE_RST_N alone among the levels holds the module in reset. -/
theorem sideAssert_rst (i : Nat) : (sideAssert s i).1.rst = s.rst := rst_eq (by simp)

theorem setBrake_rst (on : Bool) : (setBrake s on).rst = s.rst := rst_eq (by simp)

theorem perstOn_inReset (p : HPort) : (perstOn s p).rst.inReset = s.rst.inReset := by
  have reset : (portReset (countPerst s p) p).rst = (countPerst s p).rst := rst_eq (by simp)
  have port (s : State) (x : HostPortState) : (setPort s p x).rst = s.rst := by cases p <;> rfl
  rw [perstOn]
  dsimp only
  rw [port, reset]
  cases p <;> rfl

theorem levelAgain_inReset (old : State) {i : Nat} (h : i ≠ 5) :
    (levelAgain old s i).rst.inReset = s.rst.inReset := by
  unfold levelAgain
  split
  · dsimp only
    split
    · rw [perstOn_inReset, sideAssert_rst]
    · rw [perstOn_inReset, sideAssert_rst]
    · rw [setBrake_rst, sideAssert_rst]
    · exact absurd rfl h
    · rw [sideAssert_rst]
  · rfl

theorem levels_inReset (old : State) : ([0, 1, 2, 3, 4, 5].foldl (levelAgain old) s).rst.inReset =
    (s.rst.inReset || (sideIn old 5).asserted) := by
  simp only [List.foldl_cons, List.foldl_nil]
  have below : (levelAgain old (levelAgain old (levelAgain old (levelAgain old (levelAgain old s 0) 1) 2) 3) 4).rst.inReset =
      s.rst.inReset := by
    rw [levelAgain_inReset, levelAgain_inReset, levelAgain_inReset, levelAgain_inReset, levelAgain_inReset] <;> decide
  rw [levelAgain]
  split
  next h => simp [h]
  next h => simp [below, h]

/-! ## What a module reset leaves (R574) -/

/-- Only the levels of the outputs are behind the reset, and those grow by what it ends. -/
theorem quietPins_mem (ends : Bool) : (quietPins s ends).mem = s.mem := mem_eq (by simp)

theorem quietPins_sec (ends : Bool) : (quietPins s ends).sec = s.sec := sec_eq (by simp)

theorem quietPins_err (ends : Bool) : (quietPins s ends).err = s.err := err_eq (by simp)

/-- The state from which the filters of a module reset restart. -/
def blankState (s : State) (cause : BitVec 3) (keep ends : Bool) : State :=
  { freshState (quietPins s ends) keep with
    rst := { (freshState (quietPins s ends) keep).rst with cause, dramKept := keep }
    pwr := { (freshState (quietPins s ends) keep).pwr with thermTrip := s.pwr.thermTrip && !ends } }

theorem moduleReset_levelled (cause : BitVec 3) (keep ends : Bool) :
    Levelled (blankState s cause keep ends) (moduleReset s cause keep ends) := levels_levelled s _ _

theorem resetKept_moduleReset (cause : BitVec 3) (keep ends : Bool) : resetKept s (moduleReset s cause keep ends) := by
  have m := moduleReset_levelled (s := s) cause keep ends
  have sec : (blankState s cause keep ends).sec = { State.reset.sec with
      owner := s.sec.owner, ownerSeq := s.sec.ownerSeq, minSvn := s.sec.minSvn,
      keyRevoked := s.sec.keyRevoked, startNo := s.sec.startNo } := by
    simp only [blankState, freshState, quietPins_sec]
  rw [resetKept, m.sec, sec]
  exact ⟨m.fw, m.queues rfl, m.streams, m.cores, rfl, rfl, rfl, rfl, rfl, rfl, rfl⟩

theorem getMr_moduleReset (cause : BitVec 3) (keep ends : Bool) (i : Nat) :
    getMr (moduleReset s cause keep ends) i = zeroBytes 64 := by
  rw [getMr, (moduleReset_levelled cause keep ends).sec]
  rfl

theorem moduleReset_rst (cause : BitVec 3) (keep ends : Bool) : ∃ perstA perstB, (moduleReset s cause keep ends).rst =
    { State.reset.rst with supply := .vao, cause, dramKept := keep, perstA, perstB, inReset := (sideIn s 5).asserted } := by
  obtain ⟨a, b, r, h⟩ := (moduleReset_levelled (s := s) cause keep ends).rst
  have held : (moduleReset s cause keep ends).rst.inReset = (false || (sideIn s 5).asserted) := levels_inReset s
  rw [h] at held
  exact ⟨a, b, by rw [h, ← Bool.false_or (sideIn s 5).asserted, ← held]; rfl⟩

theorem keptMem_byte (m : Mem) (keep : Bool) (a : Nat) :
    memByte (keptMem m keep) a = if keep = true ∧ region a = .dram then memByte m a else 0 := by
  cases keep with
  | false => rfl
  | true =>
    simp only [keptMem, if_true, memByte, true_and]
    rw [smGet_filter_key (fun a => region a == .dram)]
    simp

theorem moduleReset_byte (cause : BitVec 3) (keep ends : Bool) (a : Nat) :
    memByte (moduleReset s cause keep ends).mem a = if keep = true ∧ region a = .dram then memByte s.mem a else 0 := by
  rw [(moduleReset_levelled cause keep ends).mem]
  simp only [blankState, freshState, quietPins_mem, keptMem_byte]

/-! ## What the loss of the rails leaves (R554) -/

theorem railsOff_nowNs : (railsOff s).nowNs = s.nowNs := by simp only [railsOff]

theorem railsOff_err : (railsOff s).err = s.err := by simp only [railsOff]

theorem domainKept_railsOff : DomainKept s (railsOff s) where
  image := rfl
  queues := rfl
  streams := rfl
  cores := rfl
  sec := railsOff_sec s
  side := rfl
  wear := rfl
  clock := railsOff_nowNs
  nodeLock := ⟨rfl, fun h => by simp [railsOff, keepLocks, h]⟩
  bypLock := ⟨rfl, fun h => by simp [railsOff, keepLocks, h]⟩

/-- The Night Assistant's domain, where an operation before it reports or logs. -/
theorem domainKept_after (h : DomainKept t u) (sec : t.sec = s.sec) (pwr : t.pwr = s.pwr) (clock : t.nowNs = s.nowNs)
    (fab : t.fab = s.fab) : DomainKept s u where
  image := h.image
  queues := h.queues
  streams := h.streams
  cores := h.cores
  sec := h.sec.trans sec
  side := h.side.trans (by rw [pwr])
  wear := h.wear.trans (by rw [pwr])
  clock := h.clock.trans clock
  nodeLock := by rw [← fab]; exact h.nodeLock
  bypLock := by rw [← fab]; exact h.bypLock

/-- What only the power and reset state differ in. -/
theorem domainKept_of_parts (h : DomainKept s t) (fw : u.fw = t.fw) (cmd : u.cmd = t.cmd) (cores : u.cores = t.cores)
    (sec : u.sec = t.sec) (side : u.pwr.side = t.pwr.side) (wear : u.pwr.wear = t.pwr.wear) (clock : u.nowNs = t.nowNs)
    (fab : u.fab = t.fab) : DomainKept s u where
  image := by rw [fw, h.image]
  queues := by rw [cmd, h.queues]
  streams := by rw [cmd, h.streams]
  cores := by rw [cores, h.cores]
  sec := sec.trans h.sec
  side := side.trans h.side
  wear := wear.trans h.wear
  clock := clock.trans h.clock
  nodeLock := by rw [fab]; exact h.nodeLock
  bypLock := by rw [fab]; exact h.bypLock

theorem domainKept_trip (kind : Nat) (st : Status) : DomainKept s (trip s kind st) := by
  have off : DomainKept s (railsOff (logFailure s kind st 0 0)) :=
    domainKept_after domainKept_railsOff (sec_eq (by simp)) (pwr_eq (by simp)) (nowNs_eq (by simp)) (fab_eq (by simp))
  exact domainKept_of_parts off rfl rfl rfl (by simp only [trip]) rfl rfl (by simp only [trip]) rfl

theorem railsOff_byte (a : Nat) : memByte (railsOff s).mem a = 0 := rfl

theorem trip_byte (kind : Nat) (st : Status) (a : Nat) : memByte (trip s kind st).mem a = 0 := rfl

theorem room_of_length {kind : Nat} (h : s.err.failLog.length < 4032) : ¬ noRoom s kind := by
  rw [noRoom_iff]; omega

theorem trip_err (kind : Nat) (st : Status) : (trip s kind st).err = (logFailure s kind st 0 0).err := by
  simp only [trip, railsOff_err]

theorem logged_of_failLog {kind : Nat} (h : logged s t kind) (hu : u.err.failLog = t.err.failLog) : logged s u kind := by
  rw [logged, hu]; exact h

theorem logged_trip {kind : Nat} (hkind : kind ≤ 10) (h : s.err.failLog.length < 4032) (st : Status) :
    logged s (trip s kind st) kind :=
  logged_of_failLog (logFailure_logged hkind (room_of_length h) st 0 0).1 (by rw [trip_err])

/-! ## MODULE_RST_N -/

/-- The pin of a thermal trip ends with the module reset that follows it. -/
theorem setWakeOut_thermTrip (p : HPort) (w : Option Nat) : (setWakeOut s p w).pwr.thermTrip = s.pwr.thermTrip := by
  cases p <;> (simp only [setWakeOut]; split <;> rfl)

theorem quietPins_thermtrip (h : s.pwr.thermTrip = true) : .pin "THERMTRIP_N" false ∈ (quietPins s true).out := by
  have joined : ((List.range 8).foldl joinPair s).pwr = s.pwr :=
    pwr_eq (foldl_rest (fun x i => by simp) _ _)
  have still (x : State) : (if x.pwr.alert.isSome then drivePin x "ALERT_N" false else x).pwr.thermTrip = x.pwr.thermTrip := by
    split <;> rfl
  simp only [quietPins]
  rw [Bool.true_and, if_pos (by rw [still, setWakeOut_thermTrip, setWakeOut_thermTrip, joined, h])]
  exact List.mem_append_right _ (List.mem_singleton_self _)

/-- An effective MODULE_RST_N, as its two cases leave the module: in reset. -/
def heldReset (s : State) (cause : BitVec 3) (keep : Bool) : State :=
  { moduleReset (sideAssert s 5).1 cause keep true with
    rst := { (moduleReset (sideAssert s 5).1 cause keep true).rst with inputTrip := s.rst.inputTrip } }

theorem sideAssert_asserted (i : Nat) (h : (sideAssert s i).2 = true) (hk : keysRise s.pwr.side = true) :
    (sideIn (sideAssert s i).1 i).asserted = true := by
  simp only [sideAssert] at h ⊢
  split at h
  · cases h
  · split at h
    · cases h
    · next hoff hrest =>
      have still (x : State) : (raiseEvent x (unnamed 1) 8 i).pwr = x.pwr := pwr_eq (by simp)
      rw [if_neg hoff, if_neg hrest, sideIn]
      dsimp only
      rw [still]
      simp only [setSide, get_set_self hk]

section HeldReset

variable (cause : BitVec 3) (keep : Bool)

theorem resetKept_heldReset : resetKept s (heldReset s cause keep) := by
  have kept := resetKept_moduleReset (s := (sideAssert s 5).1) cause keep true
  rw [resetKept, sec_eq (t := (sideAssert s 5).1) (s := s) (by simp)] at kept
  exact kept

theorem getMr_heldReset (i : Nat) : getMr (heldReset s cause keep) i = zeroBytes 64 :=
  getMr_moduleReset (s := (sideAssert s 5).1) cause keep true i

theorem heldReset_failLog : (heldReset s cause keep).err.failLog = s.err.failLog :=
  (moduleReset_failLog (sideAssert s 5).1 cause keep true).trans (sideAssert_failLog s 5)

theorem heldReset_byte (a : Nat) :
    memByte (heldReset s cause keep).mem a = if keep = true ∧ region a = .dram then memByte s.mem a else 0 := by
  rw [← mem_eq (t := (sideAssert s 5).1) (s := s) (by simp)]
  exact moduleReset_byte cause keep true a

theorem heldReset_rst (h : (sideAssert s 5).2 = true) (hk : keysRise s.pwr.side = true) :
    ∃ perstA perstB, (heldReset s cause keep).rst = { State.reset.rst with
      supply := .vao, cause, dramKept := keep, perstA, perstB, inReset := true, inputTrip := s.rst.inputTrip } := by
  obtain ⟨a, b, r⟩ := moduleReset_rst (s := (sideAssert s 5).1) cause keep true
  rw [sideAssert_asserted 5 h hk] at r
  exact ⟨a, b, by rw [heldReset]; dsimp only; rw [r]⟩

theorem heldReset_thermTrip : (heldReset s cause keep).pwr.thermTrip = false := by
  have m := (moduleReset_levelled (s := (sideAssert s 5).1) cause keep true).trip
  refine m.trans ?_
  simp [blankState]

theorem heldReset_pin (h : s.pwr.thermTrip = true) : .pin "THERMTRIP_N" false ∈ (heldReset s cause keep).out := by
  have held : (sideAssert s 5).1.pwr.thermTrip = true := (sideAssert_levelled 5).trip.trans h
  have grows := (moduleReset_levelled (s := (sideAssert s 5).1) cause keep true).out
  simp only [blankState, freshState] at grows
  simp only [heldReset]
  exact grows.subset (quietPins_thermtrip held)

end HeldReset

end Sys2Proof.Laws
end

section
/-! PROOFS. Module resets, trips and failed rails. -/

namespace Sys2Proof.Laws

open Sys2Proof Sys2Proof.Machine
set_option Elab.async false

variable {s t u : State}
theorem execModuleRstNAssert_of_effect (kept : Bool) (h : (sideAssert s 5).2 = true) :
    execModuleRstNAssert kept s = .next (heldReset s (if s.pwr.thermTrip then 2 else if s.rst.inputTrip then 3 else 1)
      (kept && (s.rst.supply == .on || (s.rst.inReset && s.rst.dramKept)))) := by
  unfold execModuleRstNAssert heldReset
  dsimp only
  rw [if_pos h]

/-- MODULE_RST_N_DEASSERT of an input whose assertion had its effect. -/
theorem sideDeassert_of_effect {i : Nat} (ha : (sideIn s i).asserted = true) (he : (sideIn s i).effect = true) :
    sideDeassert s i = (setSide s i { sideIn s i with
      asserted := false, effect := false, edge := s.nowNs, held := false, masked := (sideIn s i).masked || (sideIn s i).held }, true) := by
  simp only [sideDeassert, ha, he, if_true]

theorem mayStartUp_of_free (hr : s.rst.inReset = false) (hi : s.rst.inputTrip = false) (ht : s.pwr.thermTrip = false) :
    mayStartUp s = bringUp s := by
  rw [mayStartUp, hr, hi, ht]; rfl

theorem bringUp_side : (bringUp s).pwr.side = s.pwr.side := by
  obtain ⟨a, h⟩ := bringUp_pwr (s := s)
  exact congrArg (·.side) h

/-- A start leaves what a reset has kept. -/
theorem resetKept_bringUp (h : resetKept s t) : resetKept s (bringUp t) := by
  have sec : (bringUp t).sec.rootKey = t.sec.rootKey ∧ (bringUp t).sec.opKey = t.sec.opKey ∧
      (bringUp t).sec.svc = t.sec.svc ∧ (bringUp t).sec.owner = t.sec.owner ∧ (bringUp t).sec.ownerSeq = t.sec.ownerSeq ∧
      (bringUp t).sec.minSvn = t.sec.minSvn ∧ (bringUp t).sec.keyRevoked = t.sec.keyRevoked := by
    rw [bringUp_sec]
    generalize shake256 _ = d
    exact ⟨rfl, rfl, rfl, rfl, rfl, rfl, rfl⟩
  obtain ⟨root, op, svc, own, seq, svn, revoked⟩ := sec
  rw [resetKept, bringUp_fw, bringUp_cmd, bringUp_cores, root, op, svc, own, seq, svn, revoked]
  exact h

/-! ## Settlement -/

theorem moduleRstN_held (kept : Bool) (hk : keysRise s.pwr.side = true) (ht : s.pwr.thermTrip = false)
    (hi : s.rst.inputTrip = false) (ha : (sideIn s 5).asserted = false) (hm : (sideIn s 5).masked = false)
    (hn : sideSoon s (sideIn s 5) = false) (hon : s.rst.supply = .on) :
    Gives (.moduleRstNAssert kept) s fun t =>
      resetKept s t ∧ t.rst.supply = .vao ∧ t.rst.inReset = true ∧ t.rst.cause = 1 ∧ t.rst.dramKept = kept ∧
      (∀ i, getMr t i = zeroBytes 64) ∧ t.err.failLog = s.err.failLog ∧
      ∀ a, memByte t.mem a = if kept = true ∧ region a = .dram then memByte s.mem a else 0 := by
  have effect := sideAssert_effect ha hm hn (by rw [hon]; decide)
  refine ⟨heldReset s 1 kept, ?_, resetKept_heldReset .., ?_⟩
  · exact (execModuleRstNAssert_of_effect kept effect).trans (by simp [ht, hi, hon])
  · obtain ⟨_, _, rst⟩ := heldReset_rst 1 kept effect hk
    rw [rst]
    exact ⟨rfl, rfl, rfl, rfl, getMr_heldReset 1 kept, heldReset_failLog .., heldReset_byte 1 kept⟩

theorem moduleRstN_afterTrip (kept : Bool) (hk : keysRise s.pwr.side = true) (ht : s.pwr.thermTrip = true)
    (hv : s.rst.supply = .vao) (hr : s.rst.inReset = false) (ha : (sideIn s 5).asserted = false)
    (hm : (sideIn s 5).masked = false) (hn : sideSoon s (sideIn s 5) = false) :
    Gives (.moduleRstNAssert kept) s fun t =>
      resetKept s t ∧ t.rst.supply = .vao ∧ t.rst.inReset = true ∧ t.rst.cause = 2 ∧ t.rst.dramKept = false ∧
      t.pwr.thermTrip = false ∧ (∀ i, getMr t i = zeroBytes 64) ∧ .pin "THERMTRIP_N" false ∈ t.out := by
  have effect := sideAssert_effect ha hm hn (by rw [hv]; decide)
  refine ⟨heldReset s 2 false, ?_, resetKept_heldReset .., ?_⟩
  · exact (execModuleRstNAssert_of_effect kept effect).trans (by
      simp only [ht, if_true, hr, hv, Bool.false_and, Bool.or_false]
      rw [show (Supply.vao == Supply.on) = false from rfl, Bool.and_false])
  · obtain ⟨_, _, rst⟩ := heldReset_rst 2 false effect hk
    rw [rst]
    exact ⟨rfl, rfl, rfl, rfl, heldReset_thermTrip .., getMr_heldReset 2 false, heldReset_pin _ _ ht⟩

/-- The module as MODULE_RST_N no longer holds it. -/
def outOfReset (s : State) : State :=
  { (sideDeassert s 5).1 with rst := { (sideDeassert s 5).1.rst with inReset := false } }

theorem moduleRstN_released (hk : keysRise s.pwr.side = true) (ht : s.pwr.thermTrip = false) (hi : s.rst.inputTrip = false)
    (ha : (sideIn s 5).asserted = true) (he : (sideIn s 5).effect = true) : Gives .moduleRstNDeassert s fun t =>
      t.rst.supply = .on ∧ t.rst.step = 5 ∧ t.rst.inReset = false ∧ (sideIn t 5).asserted = false ∧ t.mem = s.mem := by
  have ends := sideDeassert_of_effect ha he
  have goes : execModuleRstNDeassert s = .next (bringUp (outOfReset s)) := by
    rw [← mayStartUp_of_free (s := outOfReset s)] <;> simp only [execModuleRstNDeassert, outOfReset, ends, if_true, setSide, hi, ht]
  refine ⟨_, goes, ?_⟩
  beta_reduce
  rw [bringUp_rst, bringUp_mem, sideIn, bringUp_side]
  simp only [outOfReset, ends, setSide, get_set_self hk, and_self]

theorem domainKept_drivePin (name : String) (on : Bool) (h : DomainKept s t) : DomainKept s (drivePin t name on) :=
  domainKept_of_parts h rfl rfl rfl rfl rfl rfl rfl rfl

/-- The module after a thermal trip, before its pin. -/
def overheated (s : State) : State :=
  { trip s 6 (unnamed 4) with pwr := { (trip s 6 (unnamed 4)).pwr with thermTrip := true } }

theorem thermalTrip_gives (hroom : s.err.failLog.length < 4032) (hon : s.rst.supply = .on) :
    Gives .thermalTrip s fun t =>
      DomainKept s t ∧ t.rst.supply = .vao ∧ t.pwr.thermTrip = true ∧ logged s t 6 ∧ (∀ a, memByte t.mem a = 0) ∧
      (s.pwr.thermTrip = false → .pin "THERMTRIP_N" true ∈ t.out) := by
  have dom : DomainKept s (overheated s) := domainKept_of_parts (domainKept_trip 6 (unnamed 4)) rfl rfl rfl
    (by simp only [overheated]) rfl rfl (by simp only [overheated]) rfl
  have log : logged s (overheated s) 6 :=
    logged_of_failLog (logged_trip (by decide) hroom (unnamed 4)) (by simp only [overheated])
  have supply : (overheated s).rst.supply = .vao := rfl
  have bytes (a : Nat) : memByte (overheated s).mem a = 0 := rfl
  have goes : execThermalTrip s =
      .next (if s.pwr.thermTrip then overheated s else drivePin (overheated s) "THERMTRIP_N" true) := if_pos hon
  have hot : (overheated s).pwr.thermTrip = true := rfl
  generalize overheated s = x at *
  cases ht : s.pwr.thermTrip with
  | true =>
    rw [ht, if_pos rfl] at goes
    exact ⟨_, goes, dom, supply, hot, log, bytes, fun h => nomatch h⟩
  | false =>
    rw [ht, if_neg Bool.false_ne_true] at goes
    refine ⟨_, goes, domainKept_drivePin _ _ dom, supply, hot, log, bytes, fun _ => ?_⟩
    exact List.mem_append_right _ (List.mem_singleton_self _)

/-- The module after an input trip. -/
def inputLost (s : State) : State :=
  { trip s 7 (unnamed 5) with rst := { (trip s 7 (unnamed 5)).rst with inputTrip := true } }

theorem inputTrip_gives (hroom : s.err.failLog.length < 4032) (hoff : s.rst.supply ≠ .off) (hi : s.rst.inputTrip = false) :
    Gives .inputTrip s fun t =>
      DomainKept s t ∧ t.rst.supply = .vao ∧ t.rst.inputTrip = true ∧ logged s t 7 ∧ ∀ a, memByte t.mem a = 0 := by
  have goes : execInputTrip s = .next (inputLost s) := if_neg (by simp [hoff, hi])
  refine ⟨_, goes, ?_, rfl, rfl, ?_, fun _ => rfl⟩
  · exact domainKept_of_parts (domainKept_trip 7 (unnamed 5)) rfl rfl rfl (by simp only [inputLost]) rfl rfl
      (by simp only [inputLost]) rfl
  · exact logged_of_failLog (logged_trip (by decide) hroom (unnamed 5)) (by simp only [inputLost])

theorem inputTripRecovery_gives (hv : s.rst.supply = .vao) (hi : s.rst.inputTrip = true) (ht : s.pwr.thermTrip = false)
    (ha : (sideIn s 5).asserted = false) : Gives .inputTripRecovery s fun t =>
      t.rst.supply = .on ∧ t.rst.step = 5 ∧ t.rst.cause = 3 ∧ t.rst.inputTrip = false ∧ resetKept s t := by
  obtain ⟨_, _, rst⟩ := moduleReset_rst (s := s) 3 false false
  have trip : (moduleReset s 3 false false).pwr.thermTrip = false :=
    (moduleReset_levelled (s := s) 3 false false).trip.trans (by simp [blankState, ht])
  have goes : execInputTripRecovery s = .next (bringUp (moduleReset s 3 false false)) := by
    rw [← mayStartUp_of_free (by rw [rst, ha]) (by rw [rst]; rfl) trip]
    exact if_pos ⟨hv, hi⟩
  refine ⟨_, goes, ?_⟩
  beta_reduce
  rw [bringUp_rst, rst]
  exact ⟨rfl, rfl, rfl, rfl, resetKept_bringUp (resetKept_moduleReset ..)⟩

/-- ALERT_N is asserted while it has a cause. -/
theorem settleAlert_alerts (h : alertCause s = true) : (settleAlert s).pwr.alert.isSome = true := by
  unfold settleAlert
  split
  · rw [if_pos h]; rfl
  next at_ ha => rw [h, if_neg (by simp), ha]; rfl

/-- The module after a failed rail, before ALERT_N follows. -/
def railFailed (s : State) (rail : BitVec 3) : State :=
  let off := railsOff (raiseEvent (logFailure s 8 .railFail rail.toNat 0) .railFail 0 0)
  { off with rst := { off.rst with cause := 5, railFail := true, railTries := s.rst.railTries + 1, railAt := off.nowNs } }

theorem railFail_gives (rail : BitVec 3) (hroom : s.err.failLog.length < 4032) (hon : s.rst.supply = .on)
    (h5 : s.rst.step = 5) : Gives (.railFail rail) s fun t =>
      DomainKept s t ∧ t.rst.supply = .vao ∧ t.rst.cause = 5 ∧ t.rst.railFail = true ∧ logged s t 8 ∧
      t.pwr.alert.isSome = true := by
  have goes : execRailFail rail s = .next (settleAlert (railFailed s rail)) := if_pos ⟨hon, h5⟩
  have off : DomainKept s (railsOff (raiseEvent (logFailure s 8 .railFail rail.toNat 0) .railFail 0 0)) :=
    domainKept_after domainKept_railsOff (sec_eq (by simp)) (pwr_eq (by simp)) (nowNs_eq (by simp)) (fab_eq (by simp))
  have failed : DomainKept s (railFailed s rail) := domainKept_of_parts off rfl rfl rfl (by simp only [railFailed]) rfl rfl
    (by simp only [railFailed]) rfl
  obtain ⟨a, pwr⟩ := settleAlert_pwr (s := railFailed s rail)
  refine ⟨_, goes, ?_, ?_, ?_, ?_, ?_, ?_⟩
  · exact domainKept_of_parts failed settleAlert_fw (cmd_eq (by simp)) (cores_eq (by simp)) settleAlert_sec
      (congrArg (·.side) pwr) (congrArg (·.wear) pwr) (nowNs_eq (by simp)) (fab_eq (by simp))
  · rw [settleAlert_rst]; rfl
  · rw [settleAlert_rst]; rfl
  · rw [settleAlert_rst]; rfl
  · refine logged_of_failLog (logFailure_logged (by decide : 8 ≤ 10) (room_of_length hroom) .railFail rail.toNat 0).1 ?_
    rw [err_eq (t := settleAlert (railFailed s rail)) (s := railFailed s rail) (by simp)]
    simp only [railFailed, railsOff_err]
    exact raiseEvent_failLog (logFailure s 8 .railFail rail.toNat 0) .railFail 0 0 []
  · have cause : alertCause (railFailed s rail) = true := by simp [alertCause, railFailed, railsOff]
    exact settleAlert_alerts cause

theorem railFailRetry_gives (hv : s.rst.supply = .vao) (hf : s.rst.railFail = true) (h1 : s.rst.railTries = 1)
    (hlate : s.rst.railAt + 1000000000 ≤ s.nowNs) (hr : s.rst.inReset = false) (hi : s.rst.inputTrip = false)
    (ht : s.pwr.thermTrip = false) : Gives .railFailRetry s fun t => t.rst.supply = .on ∧ t.rst.step = 5 := by
  have goes : execRailFailRetry s = .next (bringUp s) := by
    rw [← mayStartUp_of_free hr hi ht]
    exact if_pos ⟨hv, hf, h1, by simpa only [msNs] using hlate⟩
  refine ⟨_, goes, ?_⟩
  beta_reduce
  rw [bringUp_rst]
  exact ⟨rfl, rfl⟩

/-- The module as it loses VAO. -/
def darkened (s : State) : State :=
  let f := keepLocks s (freshState (quietPins s true) false)
  { f with rst := { f.rst with supply := .off }, pwr := { f.pwr with slotId := 0 } }

theorem vaoLoss_gives (hoff : s.rst.supply ≠ .off) : Gives .vaoLoss s fun t =>
    resetKept s t ∧ t.rst.supply = .off ∧ (∀ i, getMr t i = zeroBytes 64) ∧ (∀ a, memByte t.mem a = 0) ∧
    t.err.failLog = s.err.failLog := by
  have goes : execVaoLoss s = .next (darkened s) := if_neg hoff
  have sec : (darkened s).sec = { State.reset.sec with
      owner := s.sec.owner, ownerSeq := s.sec.ownerSeq, minSvn := s.sec.minSvn, keyRevoked := s.sec.keyRevoked,
      startNo := s.sec.startNo } := by
    simp only [darkened, keepLocks, freshState, quietPins_sec]
  have err : (darkened s).err.failLog = s.err.failLog := by
    simp only [darkened, keepLocks, freshState, quietPins_err]
  have rest : (darkened s).fw.state = 0 ∧ (darkened s).cmd.queues = [] ∧ (darkened s).cmd.streams = [] ∧
      (darkened s).cores = [] ∧ (darkened s).rst.supply = .off ∧ ∀ a, memByte (darkened s).mem a = 0 := ⟨rfl, rfl, rfl, rfl, rfl, fun _ => rfl⟩
  generalize darkened s = t at *
  obtain ⟨fw, queues, streams, cores, supply, bytes⟩ := rest
  refine ⟨t, goes, ?_, supply, fun i => ?_, bytes, err⟩
  · rw [resetKept, sec]
    exact ⟨fw, queues, streams, cores, rfl, rfl, rfl, rfl, rfl, rfl, rfl⟩
  · rw [getMr, sec]
    rfl

/-- Settles O29. A module reset restarts from `freshState`, and the levels recognised again move nothing that it names
(`Levelled`); `railsOff` restores the Night Assistant's domain over it. -/
theorem resetsAndTrips : Obligations.ResetsAndTrips := by
  unfold Obligations.ResetsAndTrips
  refine ⟨fun s hs ht hi => ⟨fun kept ha hm hn hon => ?_, fun ha he => ?_⟩, fun s kept hs ht hv hr ha hm hn => ?_,
    fun s hs hroom => ⟨thermalTrip_gives hroom, inputTrip_gives hroom, inputTripRecovery_gives,
      fun rail hon h5 => railFail_gives rail hroom hon h5, railFailRetry_gives, vaoLoss_gives⟩⟩
  · exact moduleRstN_held kept hs.side ht hi ha hm hn hon
  · exact moduleRstN_released hs.side ht hi ha he
  · exact moduleRstN_afterTrip kept hs.side ht hv hr ha hm hn

end Sys2Proof.Laws
end

section
/-! PROOFS. Sideband inputs and their filter. -/

namespace Sys2Proof.Laws

open Sys2Proof Sys2Proof.Machine
set_option Elab.async false

variable {s t : State} {i j : Nat}

/-! ## The filter of an input (R565) -/

theorem sideIn_of_pwr (h : t.pwr.side = s.pwr.side) (i : Nat) : sideIn t i = sideIn s i := by rw [sideIn, h, sideIn]

theorem sideIn_setSide_self (x : SideIn) (hk : keysRise s.pwr.side = true) : sideIn (setSide s i x) i = x := get_set_self hk

theorem sideIn_setSide_other (x : SideIn) (hk : keysRise s.pwr.side = true) (h : j ≠ i) :
    sideIn (setSide s i x) j = sideIn s j := get_set_other hk h

theorem setSide_rises (x : SideIn) (hk : keysRise s.pwr.side = true) : keysRise (setSide s i x).pwr.side = true :=
  keysRise_smSet hk

/-- The input after an assertion that has its effect. -/
def assertedIn (s : State) (i : Nat) : SideIn :=
  { sideIn s i with asserted := true, effect := true, edge := s.nowNs, lastEvent := some s.nowNs,
                    events := satAdd (sideIn s i).events 1 }

/-- The input after its deassertion. -/
def deassertedIn (s : State) (i : Nat) : SideIn :=
  { sideIn s i with asserted := false, effect := false, edge := s.nowNs, held := false,
                    masked := (sideIn s i).masked || (sideIn s i).held }

theorem sideAssert_of_fresh (hon : s.rst.supply = .on) (ha : (sideIn s i).asserted = false)
    (hm : (sideIn s i).masked = false) (hn : sideSoon s (sideIn s i) = false) :
    sideAssert s i = (raiseEvent (setSide s i (assertedIn s i)) (unnamed 1) 8 i, true) := by
  rw [sideAssert]
  dsimp only
  rw [if_neg (by simp [ha, hon]), if_neg (by simp [hm, hn])]
  rfl

theorem sideDeassert_of_asserted (ha : (sideIn s i).asserted = true) :
    sideDeassert s i = (setSide s i (deassertedIn s i), (sideIn s i).effect) := by
  rw [sideDeassert, if_pos ha]
  rfl

theorem sideAssert_pwr_of_fresh (hon : s.rst.supply = .on) (ha : (sideIn s i).asserted = false)
    (hm : (sideIn s i).masked = false) (hn : sideSoon s (sideIn s i) = false) :
    (sideAssert s i).1.pwr = (setSide s i (assertedIn s i)).pwr := by
  rw [sideAssert_of_fresh hon ha hm hn]
  exact pwr_eq (by simp)

/-! ## What the effects leave of the power state -/

/-- The sequencer moves the point, never up, its change and the request that waits, and the drive of the base dies. -/
theorem seek_moves (q : Nat) (o : PointOrigin) : ∃ drive point change waiting, point ≤ s.pwr.ceil.point ∧
    (seek s q o).pwr = { s.pwr with drive, ceil := { s.pwr.ceil with point, change, waiting } } := by
  unfold seek
  dsimp only
  split
  · split
    · exact ⟨_, _, _, _, le_rfl, rfl⟩
    · unfold beginChange
      dsimp only
      split
      · exact ⟨_, _, _, _, Nat.min_le_right .., rfl⟩
      · exact ⟨_, _, _, _, Nat.min_le_right .., rfl⟩
  · exact ⟨_, _, _, _, le_rfl, rfl⟩

theorem retarget_moves : ∃ drive point change waiting, point ≤ s.pwr.ceil.point ∧
    (retarget s).pwr = { s.pwr with drive, ceil := { s.pwr.ceil with point, change, waiting } } := by
  unfold retarget
  split
  · exact seek_moves ..
  · exact ⟨_, _, _, _, le_rfl, rfl⟩

theorem withCeil_moves (f : CeilState → CeilState) : ∃ drive point change waiting, point ≤ (f s.pwr.ceil).point ∧
    (withCeil s f).pwr = { s.pwr with drive, ceil := { f s.pwr.ceil with point, change, waiting } } := by
  obtain ⟨d, p, c, w, hp, h⟩ := retarget_moves (s := setCeil s (f s.pwr.ceil))
  exact ⟨d, p, c, w, hp, h⟩

theorem setBrake_side (on : Bool) : (setBrake s on).pwr.side = s.pwr.side := by
  obtain ⟨d, p, c, w, -, h⟩ := withCeil_moves (s := s) (fun c => { c with brake := on })
  rw [setBrake, h]

theorem setBrake_brake (on : Bool) : (setBrake s on).pwr.ceil.brake = on := by
  obtain ⟨d, p, c, w, -, h⟩ := withCeil_moves (s := s) (fun c => { c with brake := on })
  rw [setBrake, h]

/-- A wake source keeps each input, beside its count. -/
theorem wakeSource_sideIn (hk : keysRise s.pwr.side = true) : (sideIn (wakeSource s i) i).asserted = (sideIn s i).asserted ∧
    (sideIn (wakeSource s i) i).held = (sideIn s i).held ∧ (sideIn (wakeSource s i) i).masked = (sideIn s i).masked ∧
    (sideIn (wakeSource s i) i).events = (sideIn s i).events := by
  unfold wakeSource
  split
  · exact ⟨rfl, rfl, rfl, rfl⟩
  · split
    · rw [sideIn_setSide_self _ hk]; exact ⟨rfl, rfl, rfl, rfl⟩
    · unfold wakeUp
      split <;> exact ⟨rfl, rfl, rfl, rfl⟩

theorem wakeSource_wakes (hon : s.pwr.entry.isSome = true ∨ 3 ≤ s.pwr.state) (hh : holdOn s = false) :
    (wakeSource s i).pwr.wake = true := by
  have awake : ¬(s.pwr.entry.isNone && decide (s.pwr.state < 3)) = true := by
    rcases hon with h | h
    · simp [Option.isNone_eq_false_iff.2 h]
    · simpa using fun _ => h
  rw [wakeSource, if_neg awake, if_neg (by simp [hh]), wakeUp, if_neg (by simp [hh])]

theorem wakeSource_mem : (wakeSource s i).mem = s.mem := mem_eq (by simp)

/-! ## HOLD_N, PWRBRK_N and WAKE_IN_N -/

theorem holdStart_of_free (hh : holdOn s = true) (hon : s.rst.supply = .on) (hf : 4 ≤ s.fw.state)
    (hw : s.err.fwFatal = false) (he : s.pwr.entry = none) (hs : s.pwr.state < 3) :
    holdStart s = startEntry s (if s.pwr.cfg.getLsbD 8 && parkAllowed s then 4 else 3) true none := by
  rw [holdStart, if_pos (by simpa [hh, hon, hw, he] using ⟨hf, Or.inl hs⟩)]

theorem holdNAssert_gives (hk : keysRise s.pwr.side = true) (hon : s.rst.supply = .on) (ha : (sideIn s 3).asserted = false)
    (hm : (sideIn s 3).masked = false) (hn : sideSoon s (sideIn s 3) = false) (hf : 4 ≤ s.fw.state)
    (hw : s.err.fwFatal = false) (he : s.pwr.entry = none) (hs : s.pwr.state < 3) : Gives .holdNAssert s fun t =>
      (∃ e, t.pwr.entry = some e ∧ e.byHold = true ∧ e.stage = 0 ∧
        e.target = if s.pwr.cfg.getLsbD 8 && parkAllowed s then 4 else 3) ∧
      (sideIn t 3).events = satAdd (sideIn s 3).events 1 ∧ t.mem = s.mem := by
  have fresh := sideAssert_of_fresh hon ha hm hn
  have told := raiseEvent_reported (setSide s 3 (assertedIn s 3)) (unnamed 1) 8 3 []
  have pwr := sideAssert_pwr_of_fresh hon ha hm hn
  have cmd : (sideAssert s 3).1.cmd = s.cmd := by rw [fresh]; exact raiseEvent_cmd ..
  have mem : (sideAssert s 3).1.mem = s.mem := mem_eq (by simp)
  have rst : (sideAssert s 3).1.rst = s.rst := rst_eq (by simp)
  have fw {α : Type} (g : FwState → α) (hg : ∀ x, g (fwQuiet x) = g x) : g (sideAssert s 3).1.fw = g s.fw := by
    rw [fresh]; exact told.ofFw g hg
  have err : (sideAssert s 3).1.err.fwFatal = s.err.fwFatal := by
    rw [fresh]; exact told.ofErr (·.fwFatal) fun _ => rfl
  have park : parkAllowed (sideAssert s 3).1 = parkAllowed s := by
    simp only [parkAllowed, cmd, fw (·.phase) (fun _ => rfl), fw (·.area) (fun _ => rfl)]
  have input : sideIn (sideAssert s 3).1 3 = assertedIn s 3 := by
    rw [sideIn_of_pwr (s := setSide s 3 (assertedIn s 3)) (by rw [pwr]), sideIn_setSide_self _ hk]
  have goes : execHoldNAssert s = .next (holdStart (sideAssert s 3).1) := rfl
  generalize (sideAssert s 3).1 = x at *
  have held : holdOn x = true := by
    rw [holdOn, ← sideIn, input]; rfl
  rw [holdStart_of_free held (by rw [rst, hon]) (by rw [fw (·.state) (fun _ => rfl)]; exact hf) (by rw [err, hw])
    (by rw [pwr]; exact he) (by rw [pwr]; exact hs), park, pwr] at goes
  refine ⟨_, goes, ⟨_, rfl, rfl, rfl, rfl⟩, ?_, mem⟩
  have events := congrArg (·.events) input
  exact events

theorem sideDeassert_rises (hk : keysRise s.pwr.side = true) : keysRise (sideDeassert s i).1.pwr.side = true := by
  simp only [sideDeassert]
  split
  · exact setSide_rises _ hk
  · exact hk

/-- A deassertion leaves nothing of the assertion but its mark, whatever its effect's end does. -/
def Deasserted (s t : State) (i : Nat) : Prop :=
  (sideIn t i).asserted = false ∧ (sideIn t i).held = false ∧ (sideIn t i).masked = ((sideIn s i).masked || (sideIn s i).held)

theorem deasserted_sideDeassert (hk : keysRise s.pwr.side = true) (ha : (sideIn s i).asserted = true) :
    Deasserted s (sideDeassert s i).1 i := by
  rw [Deasserted, sideDeassert_of_asserted ha, sideIn_setSide_self _ hk]
  exact ⟨rfl, rfl, rfl⟩

theorem deasserted_of_side {u : State} (h : Deasserted s t i) (hu : u.pwr.side = t.pwr.side) : Deasserted s u i := by
  rw [Deasserted, sideIn_of_pwr hu]; exact h

theorem deasserted_wakeSource (h : Deasserted s t i) (hk : keysRise t.pwr.side = true) : Deasserted s (wakeSource t i) i := by
  obtain ⟨ha, hh, hm⟩ := h
  obtain ⟨wa, wh, wm, _⟩ := wakeSource_sideIn (i := i) hk
  exact ⟨wa.trans ha, wh.trans hh, wm.trans hm⟩

theorem perstDeassert_deasserts (p : HPort) (hk : keysRise s.pwr.side = true) (ha : (sideIn s (portNo p)).asserted = true) :
    Gives (.perstDeassert p) s fun t => Deasserted s t (portNo p) := by
  have ended := deasserted_sideDeassert hk ha
  have rises := sideDeassert_rises (i := portNo p) hk
  let x := (sideDeassert s (portNo p)).1
  let y := setPort x p { getPort x p with perst := false }
  have port : y.pwr = x.pwr := by cases p <;> rfl
  have train : (trainFromNow y p).pwr.side = x.pwr.side := by rw [trainFromNow_pwr, port]
  by_cases he : (sideDeassert s (portNo p)).2 = true
  · refine ⟨_, show execPerstDeassert p s = _ from if_pos he, ?_⟩
    exact deasserted_wakeSource (deasserted_of_side ended train) (by rw [train]; exact rises)
  · exact ⟨_, show execPerstDeassert p s = _ from if_neg he, ended⟩

theorem holdNDeassert_deasserts (hk : keysRise s.pwr.side = true) (ha : (sideIn s 3).asserted = true) :
    Gives .holdNDeassert s fun t => Deasserted s t 3 := by
  have ended := deasserted_sideDeassert hk ha
  refine ⟨_, rfl, ?_⟩
  beta_reduce
  split
  · exact deasserted_wakeSource ended (sideDeassert_rises hk)
  · exact ended

theorem pwrbrkNDeassert_deasserts (hk : keysRise s.pwr.side = true) (ha : (sideIn s 4).asserted = true) :
    Gives .pwrbrkNDeassert s fun t => Deasserted s t 4 := by
  have ended := deasserted_sideDeassert hk ha
  refine ⟨_, rfl, ?_⟩
  beta_reduce
  split
  · exact deasserted_of_side ended (setBrake_side false)
  · exact ended

theorem mayStartUp_side : (mayStartUp s).pwr.side = s.pwr.side := by
  unfold mayStartUp
  split
  · rfl
  · exact bringUp_side

theorem moduleRstNDeassert_deasserts (hk : keysRise s.pwr.side = true) (ha : (sideIn s 5).asserted = true) :
    Gives .moduleRstNDeassert s fun t => Deasserted s t 5 := by
  have ended := deasserted_sideDeassert hk ha
  by_cases he : (sideDeassert s 5).2 = true
  · exact ⟨_, show execModuleRstNDeassert s = _ from if_pos he, deasserted_of_side ended mayStartUp_side⟩
  · exact ⟨_, show execModuleRstNDeassert s = _ from if_neg he, ended⟩

theorem holdNDeassert_gives (hk : keysRise s.pwr.side = true) (ha : (sideIn s 3).asserted = true)
    (he : (sideIn s 3).effect = true) (hon : s.pwr.entry.isSome = true ∨ 3 ≤ s.pwr.state) :
    Gives .holdNDeassert s fun t => (sideIn t 3).asserted = false ∧ t.pwr.wake = true ∧ t.mem = s.mem := by
  have ends := sideDeassert_of_asserted ha
  have goes : execHoldNDeassert s = .next (wakeSource (setSide s 3 (deassertedIn s 3)) 3) := by
    rw [execHoldNDeassert, ends]
    exact congrArg _ (if_pos he)
  have free : holdOn (setSide s 3 (deassertedIn s 3)) = false := by
    rw [holdOn, ← sideIn, sideIn_setSide_self _ hk]; rfl
  refine ⟨_, goes, ?_, wakeSource_wakes (s := setSide s 3 (deassertedIn s 3)) hon free, wakeSource_mem⟩
  rw [(wakeSource_sideIn (setSide_rises _ hk)).1, sideIn_setSide_self _ hk]
  rfl

theorem pwrbrkNAssert_gives (hk : keysRise s.pwr.side = true) (hon : s.rst.supply = .on) (ha : (sideIn s 4).asserted = false)
    (hm : (sideIn s 4).masked = false) (hn : sideSoon s (sideIn s 4) = false) :
    Gives .pwrbrkNAssert s fun t => t.pwr.ceil.brake = true ∧ (sideIn t 4).asserted = true ∧ t.mem = s.mem := by
  have pwr := sideAssert_pwr_of_fresh hon ha hm hn
  have effect : (sideAssert s 4).2 = true := by rw [sideAssert_of_fresh hon ha hm hn]
  have goes : execPwrbrkNAssert s = .next (setBrake (sideAssert s 4).1 true) := congrArg _ (if_pos effect)
  have mem : (setBrake (sideAssert s 4).1 true).mem = s.mem := mem_eq (by simp)
  refine ⟨_, goes, setBrake_brake true, ?_, mem⟩
  rw [sideIn_of_pwr (setBrake_side true), sideIn_of_pwr (congrArg (·.side) pwr), sideIn_setSide_self _ hk]
  rfl

theorem pwrbrkNDeassert_gives (hk : keysRise s.pwr.side = true) (ha : (sideIn s 4).asserted = true)
    (he : (sideIn s 4).effect = true) : Gives .pwrbrkNDeassert s fun t =>
      t.pwr.ceil.brake = false ∧ (sideIn t 4).asserted = false ∧ t.mem = s.mem := by
  have ends := sideDeassert_of_asserted ha
  have goes : execPwrbrkNDeassert s = .next (setBrake (setSide s 4 (deassertedIn s 4)) false) := by
    rw [execPwrbrkNDeassert, ends]
    exact congrArg _ (if_pos he)
  refine ⟨_, goes, setBrake_brake false, ?_, mem_eq (by simp)⟩
  rw [sideIn_of_pwr (setBrake_side false), sideIn_setSide_self _ hk]
  rfl

/-- An input that is masked or soon after its last event asserts without an effect. -/
theorem pwrbrkNAssert_suppressed (hk : keysRise s.pwr.side = true) (hon : s.rst.supply = .on)
    (ha : (sideIn s 4).asserted = false) (hm : (sideIn s 4).masked = true) : Gives .pwrbrkNAssert s fun t =>
      t.pwr.ceil = s.pwr.ceil ∧ (sideIn t 4).suppressed = satAdd (sideIn s 4).suppressed 1 ∧ t.out = s.out := by
  have masked : sideAssert s 4 = (setSide s 4 { sideIn s 4 with
      asserted := true, edge := s.nowNs, suppressed := satAdd (sideIn s 4).suppressed 1 }, false) := by
    rw [sideAssert]
    dsimp only
    rw [if_neg (by simp [ha, hon]), if_pos (by simp [hm])]
  have goes : execPwrbrkNAssert s = .next (setSide s 4 { sideIn s 4 with
      asserted := true, edge := s.nowNs, suppressed := satAdd (sideIn s 4).suppressed 1 }) := by
    rw [execPwrbrkNAssert, masked]
    rfl
  refine ⟨_, goes, rfl, ?_, rfl⟩
  rw [sideIn_setSide_self _ hk]

theorem wakeInN_gives (hk : keysRise s.pwr.side = true) (hon : s.rst.supply = .on) (hm : (sideIn s 2).masked = false)
    (hh : (sideIn s 2).held = false) (hn : sideSoon s (sideIn s 2) = false) (hs : 3 ≤ s.pwr.state) (hold : holdOn s = false) :
    Gives .wakeInN s fun t => t.pwr.wake = true ∧ (sideIn t 2).asserted = false ∧
      (sideIn t 2).events = satAdd (sideIn s 2).events 1 ∧ t.mem = s.mem := by
  let r := (sideDeassert s 2).1
  have rIn : (sideIn r 2).asserted = false ∧ (sideIn r 2).masked = false ∧
      (sideIn r 2).lastEvent = (sideIn s 2).lastEvent ∧ (sideIn r 2).events = (sideIn s 2).events := by
    cases ha : (sideIn s 2).asserted with
    | true =>
      have eq : r = setSide s 2 (deassertedIn s 2) := congrArg Prod.fst (sideDeassert_of_asserted ha)
      rw [eq, sideIn_setSide_self _ hk]
      exact ⟨rfl, by rw [deassertedIn, hm, hh]; rfl, rfl, rfl⟩
    | false =>
      have eq : r = s := by simp only [r, sideDeassert, ha, Bool.false_eq_true, if_false]
      rw [eq]
      exact ⟨ha, hm, rfl, rfl⟩
  obtain ⟨ra, rm, rl, re⟩ := rIn
  have rsame : r.rst = s.rst ∧ r.nowNs = s.nowNs ∧ r.mem = s.mem ∧ r.pwr.entry = s.pwr.entry ∧ r.pwr.state = s.pwr.state ∧
      sideIn r 3 = sideIn s 3 := by
    simp only [r, sideDeassert]
    split
    · exact ⟨rfl, rfl, rfl, rfl, rfl, sideIn_setSide_other _ hk (by decide)⟩
    · exact ⟨rfl, rfl, rfl, rfl, rfl, rfl⟩
  obtain ⟨rrst, rnow, rmem, rentry, rstate, r3⟩ := rsame
  have rk : keysRise r.pwr.side = true := sideDeassert_rises hk
  have ron : r.rst.supply = .on := by rw [rrst, hon]
  have rn : sideSoon r (sideIn r 2) = false := by
    rw [sideSoon, rl, rnow]; exact hn
  let x := (sideAssert r 2).1
  have xpwr : x.pwr = (setSide r 2 (assertedIn r 2)).pwr := sideAssert_pwr_of_fresh ron ra rm rn
  have xmem : x.mem = r.mem := mem_eq (by simp [x])
  have effect : (sideAssert r 2).2 = true := by rw [sideAssert_of_fresh ron ra rm rn]
  let y := setSide x 2 { sideIn x 2 with asserted := false, effect := false }
  have goes : execWakeInN s = .next (wakeSource y 2) := congrArg _ (if_pos effect)
  have xk : keysRise x.pwr.side = true := by rw [xpwr]; exact setSide_rises _ rk
  have x2 : sideIn x 2 = assertedIn r 2 := by
    rw [sideIn_of_pwr (congrArg (·.side) xpwr), sideIn_setSide_self _ rk]
  have y2 : sideIn y 2 = { assertedIn r 2 with asserted := false, effect := false } := by
    simp only [y, sideIn_setSide_self _ xk, x2]
  have y3 : holdOn y = false := by
    rw [holdOn, ← sideIn, sideIn_setSide_other _ xk (by decide), sideIn_of_pwr (congrArg (·.side) xpwr),
      sideIn_setSide_other _ rk (by decide), r3]
    exact hold
  have ystate : 3 ≤ y.pwr.state := by
    have : y.pwr.state = x.pwr.state := rfl
    rw [this, xpwr]
    exact rstate ▸ hs
  obtain ⟨wa, -, -, we⟩ := wakeSource_sideIn (s := y) (i := 2) (setSide_rises _ xk)
  refine ⟨_, goes, wakeSource_wakes (.inr ystate) y3, ?_, ?_, ?_⟩
  · rw [wa, y2]
  · rw [we, y2, ← re]; rfl
  · rw [wakeSource_mem]
    exact xmem.trans rmem

theorem slotIdChange_gives (hk : keysRise s.pwr.side = true) (hon : s.rst.supply = .on) (hn : (sideIn s 6).lastEvent = none) :
    Gives .slotIdChange s fun t =>
      (sideIn t 6).events = satAdd (sideIn s 6).events 1 ∧ t.pwr.slotId = s.pwr.slotId ∧ t.mem = s.mem := by
  let x := setSide s 6 { sideIn s 6 with lastEvent := some s.nowNs, events := satAdd (sideIn s 6).events 1 }
  have goes : execSlotIdChange s = .next (raiseEvent x (unnamed 2) 8 6) := by
    rw [execSlotIdChange, if_neg (by rw [hon]; decide), if_neg (by rw [sideSoon, hn]; exact Bool.false_ne_true)]
  have pwr : (raiseEvent x (unnamed 2) 8 6).pwr = x.pwr := pwr_eq (by simp)
  have mem : (raiseEvent x (unnamed 2) 8 6).mem = x.mem := mem_eq (by simp)
  refine ⟨_, goes, ?_, congrArg (·.slotId) pwr, mem⟩
  rw [sideIn_of_pwr (congrArg (·.side) pwr), sideIn_setSide_self _ hk]

theorem inputHeld_gives (hk : keysRise s.pwr.side = true) (n : BitVec 3) (ha : (sideIn s n.toNat).asserted = true)
    (hten : (sideIn s n.toNat).edge + 10000000 ≤ s.nowNs) : Gives (.inputHeld n) s fun t =>
      (sideIn t n.toNat).held = true ∧ t.mem = s.mem ∧ t.out = s.out := by
  have ten : sideTen s (sideIn s n.toNat) = true := decide_eq_true hten
  by_cases h2 : n = 2 ∧ (sideIn s n.toNat).lastEvent.isSome = true ∧ sideTen s (sideIn s n.toNat) = true
  · refine ⟨_, show execInputHeld n s = _ from if_pos h2, ?_, rfl, rfl⟩
    have two : n.toNat = 2 := by rw [h2.1]; rfl
    rw [two, sideIn_setSide_self _ hk]
  · refine ⟨_, show execInputHeld n s = _ from (if_neg h2).trans (if_pos (by rw [ha, ten]; rfl)), ?_, rfl, rfl⟩
    rw [sideIn_setSide_self _ hk]

theorem inputUnmasked_two (hk : keysRise s.pwr.side = true) (h : (sideIn s 2).held = true ∨ (sideIn s 2).masked = true) :
    Gives (.inputUnmasked 2) s fun t =>
      (sideIn t 2).masked = false ∧ (sideIn t 2).held = false ∧ t.mem = s.mem ∧ t.out = s.out := by
  refine ⟨_, show execInputUnmasked 2 s = _ from if_pos ⟨rfl, h⟩, ?_, ?_, rfl, rfl⟩ <;> rw [sideIn_setSide_self _ hk]

theorem inputUnmasked_other (hk : keysRise s.pwr.side = true) (n : BitVec 3) (h2 : n ≠ 2)
    (hm : (sideIn s n.toNat).masked = true) (ha : (sideIn s n.toNat).asserted = false)
    (hten : (sideIn s n.toNat).edge + 10000000 ≤ s.nowNs) : Gives (.inputUnmasked n) s fun t =>
      (sideIn t n.toNat).masked = false ∧ t.mem = s.mem ∧ t.out = s.out := by
  have ten : sideTen s (sideIn s n.toNat) = true := decide_eq_true hten
  refine ⟨_, show execInputUnmasked n s = _ from (if_neg (fun h => h2 h.1)).trans (if_pos (by rw [hm, ha, ten]; rfl)), ?_, rfl, rfl⟩
  rw [sideIn_setSide_self _ hk]

/-- Settles O31. Each input's filter writes its own entry (`setSide`), and what its effect does leaves that entry but for the
count of a wake that HOLD_N ignores. -/
theorem sidebandInputs : Obligations.SidebandInputs := by
  unfold Obligations.SidebandInputs
  intro s hs hon fresh
  have hk := hs.side
  refine ⟨fun ⟨ha, hm, hn⟩ => holdNAssert_gives hk hon ha hm hn, holdNDeassert_gives hk,
    fun ⟨ha, hm, hn⟩ => pwrbrkNAssert_gives hk hon ha hm hn, pwrbrkNDeassert_gives hk, wakeInN_gives hk hon, ?_,
    slotIdChange_gives hk hon, inputHeld_gives hk, inputUnmasked_two hk, inputUnmasked_other hk, pwrbrkNAssert_suppressed hk hon⟩
  intro i c hc ha
  simp only [List.mem_cons, Prod.mk.injEq, List.not_mem_nil, or_false] at hc
  obtain ⟨rfl, rfl⟩ | ⟨rfl, rfl⟩ | ⟨rfl, rfl⟩ | ⟨rfl, rfl⟩ | ⟨rfl, rfl⟩ := hc
  · exact perstDeassert_deasserts .a hk ha
  · exact perstDeassert_deasserts .b hk ha
  · exact holdNDeassert_deasserts hk ha
  · exact pwrbrkNDeassert_deasserts hk ha
  · exact moduleRstNDeassert_deasserts hk ha

end Sys2Proof.Laws
end

section
/-! PROOFS. Cadence points change. -/

namespace Sys2Proof.Laws

open Sys2Proof Sys2Proof.Machine
set_option Elab.async false

variable {s : State}

/-! ## Requests (R33, R544) -/

theorem pointRequest_refused (t : BitVec 3) (o : PointOrigin) (h : lowestCeil s < t.toNat) :
    Gives (.pointRequest t o) s fun u => u = { s with pwr := { s.pwr with
      refusals := satAdd s.pwr.refusals 1, ceil := { s.pwr.ceil with answer := some .refused } } } := by
  refine ⟨_, show execPointRequest t o s = _ from if_pos (by simp [h]), ?_⟩
  simp only [refusePoint, answerPoint, setCeil]

/-- A request that the ceilings permit is answered OK, unless it is a step up of firmware during a guard step-down. -/
theorem pointRequest_sought (t : BitVec 3) (o : PointOrigin) (hc : computeOn s = true) (h : t.toNat ≤ lowestCeil s)
    (hg : guardRuns s = false ∨ t.toNat ≤ s.pwr.ceil.point) :
    exec (.pointRequest t o) s = .next (answerPoint (seek s t.toNat o) .ok) := by
  refine show execPointRequest t o s = _ from if_neg ?_
  rcases hg with hg | hg
  · simp [hc, h, hg]
  · simp [hc, h, hg]

theorem seek_mem (q : Nat) (o : PointOrigin) : (seek s q o).mem = s.mem := mem_eq (by simp)

theorem pointRequest_moves (hc : computeOn s = true) (t : BitVec 3) (o : PointOrigin) (h : t.toNat ≤ lowestCeil s)
    (hn : s.pwr.ceil.change = none) (hp : t.toNat ≠ s.pwr.ceil.point) : Gives (.pointRequest t o) s fun u =>
      u.pwr.ceil.point = min t.toNat s.pwr.ceil.point ∧ u.pwr.refusals = s.pwr.refusals ∧ u.pwr.ceil.answer = some .ok ∧
      u.mem = s.mem ∧ u.pwr.drive = (if s.pwr.ceil.point < t.toNat then .ofPoint t.toNat else s.pwr.drive) ∧
      u.pwr.ceil.change = some { fromPoint := s.pwr.ceil.point, toPoint := t.toNat, origin := o, guard := false } := by
  have idle : guardRuns s = false := by rw [guardRuns, hn]
  have begins : seek s t.toNat o = beginChange s t.toNat o false := by
    rw [seek]
    simp only [hn, if_neg hp]
  refine ⟨_, pointRequest_sought t o hc h (.inl idle), ?_⟩
  rw [begins, beginChange]
  dsimp only
  split <;> exact ⟨rfl, rfl, rfl, rfl, rfl, rfl⟩

theorem pointRequest_waits (hc : computeOn s = true) (t : BitVec 3) (o : PointOrigin) (x : PointChange)
    (h : t.toNat ≤ lowestCeil s) (hx : s.pwr.ceil.change = some x) (hg : x.guard = false ∨ t.toNat ≤ s.pwr.ceil.point) :
    Gives (.pointRequest t o) s fun u => u.mem = s.mem ∧ u.pwr.ceil = { s.pwr.ceil with
      answer := some .ok, waiting := if t.toNat = x.toPoint then none
        else some { fromPoint := s.pwr.ceil.point, toPoint := t.toNat, origin := o, guard := false } } := by
  refine ⟨_, pointRequest_sought t o hc h (by simpa only [guardRuns, hx] using hg), ?_⟩
  rw [seek]
  simp only [hx]
  exact ⟨rfl, rfl⟩

/-! ## Rails that have settled (R545, R546, R548) -/

/-- With no request waiting, the change's end leaves the point unless a ceiling lies below it. -/
theorem nextChange_of_none (hw : s.pwr.ceil.waiting = none) :
    nextChange s = if lowestCeil s < s.pwr.ceil.point then retarget (setCeil s { s.pwr.ceil with waiting := none })
      else setCeil s { s.pwr.ceil with waiting := none } := by
  unfold nextChange
  simp only [hw]
  rfl

theorem railSettled_up (rates : List Nat) (x : PointChange) (hx : s.pwr.ceil.change = some x)
    (hw : s.pwr.ceil.waiting = none) (hup : s.pwr.ceil.point < x.toPoint)
    (hr : 105 * cadMhz x.toPoint ≤ 100 * slowest rates) (hl : x.toPoint ≤ lowestCeil s) :
    Gives (.railSettled rates) s fun u =>
      u.pwr.ceil.point = x.toPoint ∧ u.pwr.ceil.change = none ∧ u.pwr.drive = .ofPoint x.toPoint ∧ u.mem = s.mem := by
  have ends : nextChange (endChange s x.toPoint) = setCeil (endChange s x.toPoint)
      { (endChange s x.toPoint).pwr.ceil with waiting := none } := by
    exact (nextChange_of_none (s := endChange s x.toPoint) hw).trans (if_neg (Nat.not_lt.2 hl))
  refine ⟨_, show execRailSettled rates s = .next (nextChange (endChange s x.toPoint)) by
    rw [execRailSettled]; simp only [hx, if_pos hup, if_pos hr], ?_⟩
  rw [ends]
  exact ⟨rfl, rfl, rfl, rfl⟩

theorem railSettled_weak (hc : computeOn s = true) (rates : List Nat) (x : PointChange) (hx : s.pwr.ceil.change = some x)
    (hw : s.pwr.ceil.waiting = none) (hup : s.pwr.ceil.point < x.toPoint)
    (hr : 100 * slowest rates < 105 * cadMhz x.toPoint) : Gives (.railSettled rates) s fun u =>
      u.pwr.ceil.point ≤ s.pwr.ceil.point ∧ u.pwr.ceil.permitted = min s.pwr.ceil.permitted (supported (slowest rates)) ∧
      u.pwr.drive = .ofPoint s.pwr.ceil.point := by
  let y := endChange (setCeil s { s.pwr.ceil with permitted := min s.pwr.ceil.permitted (supported (slowest rates)) }) s.pwr.ceil.point
  refine ⟨nextChange y, show execRailSettled rates s = _ by
    rw [execRailSettled]; simp only [hx, if_pos hup, if_neg (Nat.not_le.2 hr)]; rfl, ?_⟩
  rw [nextChange_of_none (s := y) hw]
  let z := setCeil y { y.pwr.ceil with waiting := none }
  split
  next low =>
    have on : computeOn z = true := hc
    have below : lowestCeil z < z.pwr.ceil.point := low
    have begins : retarget z = beginChange z (lowestCeil z) .ceiling false := by
      rw [retarget, if_pos on, seek]
      exact if_neg (Nat.ne_of_lt below)
    have still : (beginChange z (lowestCeil z) .ceiling false).pwr.drive = z.pwr.drive := by
      simp only [beginChange, if_neg (Nat.not_lt.2 below.le)]
      rfl
    refine ⟨?_, ?_, ?_⟩
    · show (retarget z).pwr.ceil.point ≤ _
      rw [begins]
      exact Nat.min_le_right ..
    · show (retarget z).pwr.ceil.permitted = _
      rw [retarget_permitted]
      rfl
    · show (retarget z).pwr.drive = _
      rw [begins, still]
      rfl
  · exact ⟨le_rfl, rfl, rfl⟩

theorem railSettled_down (rates : List Nat) (x : PointChange) (hx : s.pwr.ceil.change = some x)
    (hw : s.pwr.ceil.waiting = none) (hdown : x.toPoint ≤ s.pwr.ceil.point) (hl : s.pwr.ceil.point ≤ lowestCeil s) :
    Gives (.railSettled rates) s fun u =>
      u.pwr.ceil.point = s.pwr.ceil.point ∧ u.pwr.ceil.change = none ∧ u.pwr.drive = .ofPoint s.pwr.ceil.point ∧ u.mem = s.mem := by
  have ends : nextChange (endChange s s.pwr.ceil.point) = setCeil (endChange s s.pwr.ceil.point)
      { (endChange s s.pwr.ceil.point).pwr.ceil with waiting := none } := by
    exact (nextChange_of_none (s := endChange s s.pwr.ceil.point) hw).trans (if_neg (Nat.not_lt.2 hl))
  refine ⟨_, show execRailSettled rates s = .next (nextChange (endChange s s.pwr.ceil.point)) by
    rw [execRailSettled]; simp only [hx, if_neg (Nat.not_lt.2 hdown)], ?_⟩
  rw [ends]
  exact ⟨rfl, rfl, rfl, rfl⟩

/-! ## The guard step-down (R32) -/

/-- A guard step-down takes the point's support away, and the requests for a higher one. -/
def unsupported (s : State) : State :=
  setCeil s { s.pwr.ceil with
    permitted := min s.pwr.ceil.permitted (s.pwr.ceil.point - 1)
    waiting := s.pwr.ceil.waiting.filter (fun w => decide (w.toPoint < s.pwr.ceil.point - 1)) }

/-- The state of a guard step-down before its event. -/
def steppedDown (s : State) : State :=
  let x := beginChange (unsupported s) (s.pwr.ceil.point - 1) .ceiling true
  { x with cr := { x.cr with stepDowns := satAdd x.cr.stepDowns 1 } }

theorem guardStep_pwr (k : Nat) : (guardStep s k).pwr = (steppedDown s).pwr :=
  pwr_eq (t := raiseEvent (steppedDown s) (unnamed 0) 2 k) (by simp)

theorem guardStep_cr (k : Nat) : (guardStep s k).cr = (steppedDown s).cr :=
  cr_eq (t := raiseEvent (steppedDown s) (unnamed 0) 2 k) (by simp)

theorem steppedDown_point : (steppedDown s).pwr.ceil.point = s.pwr.ceil.point - 1 ∧
    (steppedDown s).pwr.ceil.permitted = min s.pwr.ceil.permitted (s.pwr.ceil.point - 1) ∧
    (steppedDown s).pwr.ceil.waiting = s.pwr.ceil.waiting.filter (fun w => decide (w.toPoint < s.pwr.ceil.point - 1)) ∧
    (steppedDown s).cr.stepDowns = satAdd s.cr.stepDowns 1 := by
  have low : min (s.pwr.ceil.point - 1) s.pwr.ceil.point = s.pwr.ceil.point - 1 := Nat.min_eq_left (Nat.sub_le ..)
  have flat (y : State) (h : y.pwr.ceil.point = s.pwr.ceil.point) :
      beginChange y (s.pwr.ceil.point - 1) .ceiling true = setCeil y { y.pwr.ceil with
        point := s.pwr.ceil.point - 1
        change := some { fromPoint := s.pwr.ceil.point, toPoint := s.pwr.ceil.point - 1, origin := .ceiling, guard := true } } := by
    simp only [beginChange, h, low, if_neg (Nat.not_lt.2 (Nat.sub_le s.pwr.ceil.point 1))]
  rw [steppedDown, flat (unsupported s) rfl]
  exact ⟨rfl, rfl, rfl, rfl⟩

theorem guardStepDown_gives (hc : computeOn s = true) (hp : 0 < s.pwr.ceil.point) (k : ClusterId) (rate : Nat) (bySlips : Bool)
    (h : if bySlips then slipsExceed s k.toNat = true else 100 * rate < 102 * cadMhz s.pwr.ceil.point) :
    Gives (.guardStepDown k rate bySlips) s fun u =>
      (u.pwr.ceil.point ≤ s.pwr.ceil.point - 1 ∧ u.cr.stepDowns = satAdd s.cr.stepDowns 1 ∧ u.mem = s.mem) ∧
      u.pwr.ceil.point = s.pwr.ceil.point - 1 ∧ u.pwr.ceil.permitted = min s.pwr.ceil.permitted (s.pwr.ceil.point - 1) ∧
      u.pwr.ceil.waiting = s.pwr.ceil.waiting.filter (fun w => decide (w.toPoint < s.pwr.ceil.point - 1)) := by
  have low : (if bySlips then slipsExceed s k.toNat else guardLow s rate) = true := by
    cases bySlips
    · exact decide_eq_true h
    · exact h
  refine ⟨_, show execGuardStepDown k rate bySlips s = _ from if_pos (by rw [hc, low]; simpa using hp), ?_⟩
  obtain ⟨point, permitted, waiting, downs⟩ := steppedDown_point (s := s)
  rw [guardStep_pwr, guardStep_cr, guardStep_mem]
  exact ⟨⟨point.le, downs, rfl⟩, point, permitted, waiting⟩

theorem monitorSweep_steps (hc : computeOn s = true) (hp : 0 < s.pwr.ceil.point) (rates : List Nat) (h6 : 6 ≤ s.rst.step)
    (hr : rates ≠ []) (hlow : 100 * slowest rates < 102 * cadMhz s.pwr.ceil.point) :
    Gives (.monitorSweep rates) s fun u =>
      u.pwr.ceil.point ≤ s.pwr.ceil.point - 1 ∧ u.cr.stepDowns = satAdd s.cr.stepDowns 1 ∧ u.mem = s.mem := by
  let s1 := if s.rst.step = 6 then
    { s with rst := { s.rst with step := 7, startMs := satAdd (0 : BitVec 16) ((s.nowNs - s.rst.startNs) / msNs) } } else s
  have same : s1.pwr = s.pwr ∧ s1.cr = s.cr ∧ s1.mem = s.mem := by
    simp only [s1]
    split <;> exact ⟨rfl, rfl, rfl⟩
  obtain ⟨pwr, cr, mem⟩ := same
  have low : (guardLow s1 (slowest rates) && decide (0 < s1.pwr.ceil.point)) = true := by
    rw [guardLow, pwr, decide_eq_true hlow, decide_eq_true hp]; rfl
  let k := (rates.findIdx? (· == slowest rates)).getD 0
  let f : CeilState → CeilState := fun c => { c with permitted := supported (slowest rates) }
  have goes : execMonitorSweep rates s = .next (withCeil (guardStep s1 k) f) := by
    have due : (computeOn s && decide (6 ≤ s.rst.step) && !rates.isEmpty) = true := by simp [hc, h6, hr]
    rw [execMonitorSweep, if_pos due]
    exact congrArg (fun x => (.next (withCeil x f) : Res)) (if_pos low)
  obtain ⟨point, -, -, downs⟩ := steppedDown_point (s := s1)
  obtain ⟨d, q, c, w, hq, moved⟩ := withCeil_moves (s := guardStep s1 k) f
  have crs : (withCeil (guardStep s1 k) f).cr = (guardStep s1 k).cr := cr_eq (by simp)
  refine ⟨_, goes, ?_, ?_, ?_⟩
  · rw [moved]
    have held : (f (guardStep s1 k).pwr.ceil).point = s.pwr.ceil.point - 1 := by
      show (guardStep s1 k).pwr.ceil.point = _
      rw [guardStep_pwr, point, pwr]
    exact hq.trans held.le
  · rw [crs, guardStep_cr, downs, cr]
  · rw [withCeil_mem, guardStep_mem, mem]

/-- Settles O32. -/
theorem cadencePoints : Obligations.CadencePoints := by
  unfold Obligations.CadencePoints
  intro s hc
  exact ⟨pointRequest_refused, pointRequest_moves hc, pointRequest_waits hc, railSettled_up, railSettled_weak hc,
    railSettled_down, fun hp => ⟨guardStepDown_gives hc hp, monitorSweep_steps hc hp⟩⟩

end Sys2Proof.Laws
end

section
/-! PROOFS. Failed units, wear and the re-plan. -/

namespace Sys2Proof.Laws

open Sys2Proof Sys2Proof.Machine
set_option Elab.async false

variable {s t : State}

/-! ## The core bitmap, while the work of a core ends (R46, R47) -/

theorem foldl_keeps {α β : Type} {g : State → β} {f : State → α → State} (h : ∀ s x, g (f s x) = g s) (l : List α) :
    ∀ s, g (l.foldl f s) = g s := by
  induction l with
  | nil => exact fun _ => rfl
  | cons x l ih => exact fun s => (ih _).trans (h s x)

/-- Cores marked available. -/
def availMap (s : State) : List (Nat × BitVec 64) := s.cr.coreAvail

theorem availMap_of_cr (h : t.cr = s.cr) : availMap t = availMap s := by rw [availMap, h, availMap]

theorem photUpdate_availMap (base layer : Nat) (p : Phot) (clip : Bool) :
    availMap (photUpdate s base layer p clip) = availMap s := by
  simp only [photUpdate]
  split
  · rfl
  · split
    · rfl
    · exact availMap_of_cr (cr_eq (by simp))

theorem countEnded_availMap (r : LpaRun) : availMap (countEnded s r) = availMap s := by
  refine foldl_keeps (fun x z => ?_) _ s
  simp only [countMember]
  split
  · exact photUpdate_availMap ..
  · rfl

theorem endCoreOps_availMap (n : Nat) (mine : Token → Bool) : availMap (endCoreOps s n mine).1 = availMap s := by
  unfold endCoreOps
  extract_lets c lpa lpaP ve veP coe dma ccm s1 s2 s3 s4 s5 s6 s7 d t
  clear_value lpa lpaP ve veP coe dma ccm
  have h1 : availMap s1 = availMap s := by
    cases lpa
    · rfl
    · exact (countEnded_availMap _).trans (availMap_of_cr (cr_eq (by simp)))
  have h2 : availMap s2 = availMap s1 := by
    cases lpaP
    · rfl
    · exact (countEnded_availMap _).trans (availMap_of_cr (cr_eq (by simp)))
  have h3 : availMap s3 = availMap s2 := by cases ve <;> exact availMap_of_cr (cr_eq (by simp [s3]))
  have h4 : availMap s4 = availMap s3 := by cases veP <;> exact availMap_of_cr (cr_eq (by simp [s4]))
  have h5 : availMap s5 = availMap s4 := by
    cases coe
    · rfl
    · exact (photUpdate_availMap ..).trans (availMap_of_cr (cr_eq (by simp)))
  have h6 : availMap s6 = availMap s5 := by cases dma <;> exact availMap_of_cr (cr_eq (by simp [s6]))
  have h7 : availMap s7 = availMap s6 := by cases ccm <;> exact availMap_of_cr (cr_eq (by simp [s7]))
  have h8 : availMap t = availMap s7 := rfl
  rw [h8, h7, h6, h5, h4, h3, h2, h1]

theorem loseCore_availMap (n : Nat) : availMap (loseCore s n) = availMap s := by
  have ended := endCoreOps_availMap (s := s) n (fun _ => true)
  refine Eq.trans (availMap_of_cr (s := (endCoreOps s n (fun _ => true)).1) ?_) ended
  unfold loseCore
  exact cr_eq (by simp [others])

/-- The work of a core ends with the core idle. -/
theorem loseCore_getCore (n : Nat) (hk : keysRise (endCoreOps s n (fun _ => true)).1.cores = true) :
    getCore (loseCore s n) n = Core.idle := by
  let r := endCoreOps s n (fun _ => true)
  let x := setCore (r.2.foldl (fun x t => noteStatus x t.stream t.phase .timeout) r.1) n Core.idle
  have noted : (r.2.foldl (fun x t => noteStatus x t.stream t.phase .timeout) r.1).cores = r.1.cores :=
    cores_eq (by simp [others])
  have late : (loseCore s n).cores = x.cores := by
    unfold loseCore
    exact cores_eq (t := List.foldl _ _ _) (s := x) (by simp [x, r, others])
  rw [getCore, late]
  exact get_set_self (by rw [noted]; exact hk)

/-! ## Cores and clusters are marked (R46 to R48) -/

theorem clearAvail_word (n : Nat) (k : Nat) (hk : keysRise (availMap s) = true) :
    smGet (BitVec.allOnes 64) (availMap (clearAvail s n)) k =
      if k = n / 64 then BitVec.ofNat 64 ((smGet (BitVec.allOnes 64) (availMap s) k).toNat &&&
        ((2 ^ 64 - 1) ^^^ (1 <<< (n % 64)))) else smGet (BitVec.allOnes 64) (availMap s) k := by
  simp only [availMap, clearAvail]
  split
  next h => rw [h]; exact get_set_self hk
  next h => exact get_set_other hk h

theorem cleared_bit (w : BitVec 64) (i j : Nat) :
    (BitVec.ofNat 64 (w.toNat &&& ((2 ^ 64 - 1) ^^^ (1 <<< i)))).getLsbD j = (w.getLsbD j && decide (j ≠ i)) := by
  by_cases hj : j < 64
  · rw [BitVec.getLsbD_ofNat]
    simp only [hj, decide_true, Bool.true_and, Nat.testBit_and, Nat.testBit_xor, Nat.testBit_two_pow_sub_one,
      BitVec.testBit_toNat, Nat.one_shiftLeft, Nat.testBit_two_pow]
    by_cases h : i = j <;> simp [h, eq_comm]
  · rw [BitVec.getLsbD_of_ge _ _ (by omega), BitVec.getLsbD_of_ge _ _ (by omega), Bool.false_and]

theorem clearAvail_avail (n m : Nat) (hk : keysRise (availMap s) = true) :
    coreAvail (clearAvail s n) m = (coreAvail s m && decide (m ≠ n)) := by
  have word := clearAvail_word n (m / 64) hk
  simp only [availMap] at word
  rw [coreAvail, word, coreAvail]
  by_cases h : m / 64 = n / 64
  · rw [if_pos h, cleared_bit, ← Bool.and_assoc]
    congr 1
    have : (m % 64 ≠ n % 64) ↔ m ≠ n := by omega
    simp only [this]
  · rw [if_neg h]
    have : m ≠ n := fun e => h (by rw [e])
    simp [this]

theorem clearAvail_rises (n : Nat) (hk : keysRise (availMap s) = true) : keysRise (availMap (clearAvail s n)) = true :=
  keysRise_smSet hk

theorem coreAvail_of_map (h : availMap t = availMap s) (m : Nat) : coreAvail t m = coreAvail s m := by
  rw [availMap, availMap] at h
  rw [coreAvail, h, coreAvail]

/-- Core `n` marked: its work ends, and its bit with it. -/
def takenOut (s : State) (n : Nat) : State := clearAvail (loseCore s n) n

theorem takenOut_avail (n m : Nat) (hk : keysRise (availMap s) = true) :
    coreAvail (takenOut s n) m = (coreAvail s m && decide (m ≠ n)) := by
  rw [takenOut, clearAvail_avail n m (by rw [loseCore_availMap]; exact hk), coreAvail_of_map (loseCore_availMap n)]

theorem takenOut_rises (n : Nat) (hk : keysRise (availMap s) = true) : keysRise (availMap (takenOut s n)) = true :=
  clearAvail_rises n (by rw [loseCore_availMap]; exact hk)

theorem takenOut_failLog (n : Nat) : failLog (takenOut s n) = failLog s := by
  rw [takenOut]
  exact loseCore_failLog s n

theorem logFailure_availMap (k : Nat) (st : Status) (a b : Nat) : availMap (logFailure s k st a b) = availMap s :=
  availMap_of_cr (cr_eq (by simp))

theorem logged_after {kind : Nat} (hkind : kind ≤ 10) (hl : failLog t = failLog s) (hroom : s.err.failLog.length < 4032)
    (st : Status) (a b : Nat) : logged s (logFailure t kind st a b) kind := by
  have room : t.err.failLog.length < 4032 := by
    have := congrArg List.length hl
    simp only [failLog] at this
    omega
  obtain ⟨e, he, hk⟩ := (logFailure_logged (s := t) hkind (room_of_length room) st a b).1
  exact ⟨e, by rw [he]; exact congrArg (· ++ [e]) hl, hk⟩

theorem markCore_gives (hs : Sound s) (n : Nat) (st : Status) (ha : coreAvail s n = true)
    (hroom : s.err.failLog.length < 4032) : coreAvail (markCore s n st) n = false ∧
      (∀ m, m ≠ n → coreAvail (markCore s n st) m = coreAvail s m) ∧ logged s (markCore s n st) 1 ∧
      getCore (markCore s n st) n = Core.idle := by
  have marked : markCore s n st = logFailure (takenOut s n) 1 st n 0 := if_pos ha
  have avail (m : Nat) : coreAvail (markCore s n st) m = (coreAvail s m && decide (m ≠ n)) := by
    rw [marked, coreAvail_of_map (logFailure_availMap ..), takenOut_avail n m hs.coreAvail]
  refine ⟨by simp [avail], fun m hm => by simp [avail, hm], ?_, ?_⟩
  · rw [marked]
    exact logged_after (by decide) (takenOut_failLog n) hroom st n 0
  · have same : (markCore s n st).cores = (loseCore s n).cores := by
      rw [marked]
      exact cores_eq (by simp [takenOut])
    have ended : KeepsSound s (endCoreOps s n (fun _ => true)).1 := by simp
    rw [getCore, same]
    exact loseCore_getCore n (ended.2 (.inl hs)).cores

/-- Every core of a cluster marked, in turn. -/
theorem takenOut_foldl (ks : List Nat) (f : Nat → Nat) (hk : keysRise (availMap s) = true) :
    let t := ks.foldl (fun x k => if coreAvail x (f k) then takenOut x (f k) else x) s
    keysRise (availMap t) = true ∧ failLog t = failLog s ∧
      ∀ m, coreAvail t m = (coreAvail s m && decide (m ∉ ks.map f)) := by
  induction ks generalizing s with
  | nil => exact ⟨hk, rfl, fun m => by simp⟩
  | cons k ks ih =>
    rw [List.foldl_cons]
    split
    next ha =>
      obtain ⟨rises, log, avail⟩ := ih (takenOut_rises (f k) hk)
      refine ⟨rises, log.trans (takenOut_failLog _), fun m => ?_⟩
      rw [avail, takenOut_avail _ _ hk]
      simp [Bool.and_assoc]
    next ha =>
      obtain ⟨rises, log, avail⟩ := ih hk
      refine ⟨rises, log, fun m => ?_⟩
      rw [avail]
      by_cases hm : m = f k
      · simp [hm, ha]
      · simp [hm]

theorem markCluster_gives (hs : Sound s) (c : Nat) (st : Status) (ha : clusterAvail s c = true)
    (hroom : s.err.failLog.length < 4032) : clusterAvail (markCluster s c st) c = false ∧
      (∀ m, m / 64 ≠ c → coreAvail (markCluster s c st) m = coreAvail s m) ∧ logged s (markCluster s c st) 2 := by
  let t := (List.range 64).foldl (fun x k => if coreAvail x (64 * c + k) then takenOut x (64 * c + k) else x) s
  have marked : markCluster s c st = logFailure t 2 st c 0 := if_pos ha
  obtain ⟨-, log, avail⟩ := takenOut_foldl (List.range 64) (64 * c + ·) hs.coreAvail
  have all (m : Nat) : coreAvail (markCluster s c st) m = (coreAvail s m && decide (m / 64 ≠ c)) := by
    rw [marked, coreAvail_of_map (logFailure_availMap ..), avail]
    congr 1
    have : m ∉ (List.range 64).map (64 * c + ·) ↔ m / 64 ≠ c := by
      simp only [List.mem_map, List.mem_range, not_exists, not_and]
      refine ⟨fun h hc => h (m % 64) (Nat.mod_lt _ (by decide)) (by omega), fun h k hk e => h (by omega)⟩
    simp only [this]
  refine ⟨?_, fun m hm => by simp [all, hm], ?_⟩
  · rw [clusterAvail]
    by_cases hc : c < 64
    · have zero : smGet (BitVec.allOnes 64) (markCluster s c st).cr.coreAvail c = 0 := by
        refine BitVec.eq_of_getLsbD_eq fun i hi => ?_
        have bit := all (64 * c + i)
        rw [coreAvail, show (64 * c + i) / 64 = c by omega, show (64 * c + i) % 64 = i by omega] at bit
        simpa [show 64 * c + i < 4096 by omega] using bit
      rw [zero]
      simp
    · simp [hc]
  · rw [marked]
    exact logged_after (by decide) log hroom st c 0

/-! ## Wear (R567) -/

theorem wearOf_setWear_self {d : Nat} (w : DieWear) (h : d < s.pwr.wear.length) : wearOf (setWear s d w) d = w := by
  simp [wearOf, setWear, h]

theorem wearOf_setWear_other {d e : Nat} (w : DieWear) (h : e ≠ d) : wearOf (setWear s d w) e = wearOf s e := by
  simp [wearOf, setWear, List.getD_eq_getElem?_getD, List.getElem?_set_ne h.symm]

/-- Writing each die of a list once, from its own wear. -/
theorem wear_foldl (f : Nat → DieWear → DieWear) (ds : List Nat) (hn : ds.Nodup) :
    let t := ds.foldl (fun x d => setWear x d (f d (wearOf x d))) s
    t.mem = s.mem ∧ t.pwr.wear.length = s.pwr.wear.length ∧
      ∀ d < s.pwr.wear.length, wearOf t d = if d ∈ ds then f d (wearOf s d) else wearOf s d := by
  induction ds generalizing s with
  | nil => exact ⟨rfl, rfl, fun d _ => by simp⟩
  | cons e ds ih =>
    obtain ⟨he, hn⟩ := List.nodup_cons.1 hn
    have length : (setWear s e (f e (wearOf s e))).pwr.wear.length = s.pwr.wear.length := List.length_set
    obtain ⟨mem, len, wear⟩ := ih (s := setWear s e (f e (wearOf s e))) hn
    refine ⟨mem, len.trans length, fun d hd => ?_⟩
    rw [List.foldl_cons, wear d (by rw [length]; exact hd)]
    by_cases hde : d = e
    · subst hde
      rw [if_neg he, wearOf_setWear_self _ hd, if_pos (List.mem_cons_self ..)]
    · rw [wearOf_setWear_other _ hde]
      simp [hde]

/-- A minute of a die's time. -/
theorem wearMinute_fields (w : DieWear) :
    (wearMinute w).hours = (if 3600 ≤ w.seconds + 60 then satAdd w.hours 1 else w.hours) ∧
    (wearMinute w).degPlan = w.degPlan ∧ (wearMinute w).offset = w.offset ∧ (wearMinute w).deg = w.deg := by
  unfold wearMinute
  split
  · exact ⟨rfl, rfl, rfl, rfl⟩
  · exact ⟨rfl, rfl, rfl, rfl⟩

/-- What a reading notes for one die. -/
def wearNoted (pairs : List (List (Nat × Nat))) (d : Nat) (w : DieWear) : DieWear :=
  if (pairs.getD d []).isEmpty || (pairs.getD d []).any (fun p => p.2 == 0) then wearMinute w
  else noteWear w (degOf (pairs.getD d []))

theorem wearNoted_fields (pairs : List (List (Nat × Nat))) (d : Nat) (w : DieWear) :
    (wearNoted pairs d w).hours = (if 3600 ≤ w.seconds + 60 then satAdd w.hours 1 else w.hours) ∧
    (wearNoted pairs d w).degPlan = w.degPlan ∧ (wearNoted pairs d w).offset = w.offset ∧
    (pairs.getD d [] ≠ [] → (∀ x ∈ pairs.getD d [], x.2 ≠ 0) → (wearNoted pairs d w).deg = degWord (degOf (pairs.getD d []))) := by
  unfold wearNoted
  split
  next h =>
    obtain ⟨hours, plan, offset, -⟩ := wearMinute_fields w
    refine ⟨hours, plan, offset, fun hne hz => ?_⟩
    simp only [Bool.or_eq_true, List.isEmpty_iff, List.any_eq_true, beq_iff_eq] at h
    obtain h | ⟨x, hx, h0⟩ := h
    · exact absurd h hne
    · exact absurd h0 (hz x hx)
  next h =>
    obtain ⟨hours, plan, offset, deg⟩ := wearMinute_fields
      { w with deg := degWord (degOf (pairs.getD d [])), readings := w.readings ++ [degOf (pairs.getD d [])] }
    exact ⟨hours, plan, offset, fun _ _ => deg⟩

theorem wearReading_gives (hl : s.pwr.wear.length = 4) (pairs : List (List (Nat × Nat))) (hc : computeOn s = true) :
    Gives (.wearReading pairs) s fun t => t.mem = s.mem ∧ t.pwr.wear.length = 4 ∧ ∀ d < 4,
      (wearOf t d).hours = (if 3600 ≤ (wearOf s d).seconds + 60 then satAdd (wearOf s d).hours 1 else (wearOf s d).hours) ∧
      (wearOf t d).degPlan = (wearOf s d).degPlan ∧ (wearOf t d).offset = (wearOf s d).offset ∧
      (pairs.getD d [] ≠ [] → (∀ x ∈ pairs.getD d [], x.2 ≠ 0) → (wearOf t d).deg = degWord (degOf (pairs.getD d []))) := by
  obtain ⟨mem, length, wear⟩ := wear_foldl (s := s) (wearNoted pairs) (List.range 4) (List.nodup_range)
  refine ⟨_, show execWearReading pairs s = _ from if_pos hc, mem, length.trans hl, fun d hd => ?_⟩
  have noted := wear d (by omega)
  rw [if_pos (List.mem_range.2 hd)] at noted
  have fields := wearNoted_fields pairs d (wearOf s d)
  rw [← noted] at fields
  exact fields

/-! ## Re-planning (R568) -/

/-- The wear of a die that has been planned anew at offset `o`. -/
def replanned (s : State) (d : Nat) (o : Int) : State :=
  setWear s d { wearOf s d with offset := BitVec.ofInt 8 o, degPlan := (wearOf s d).deg, planned := (wearOf s d).hours }

section Replan

variable (d : BitVec 2) (reading tj : Nat)

/-- The voltage a re-plan reads at, and the offset it comes to. -/
def planMv (s : State) (d : Nat) : Nat := ((railMv s.pwr.ceil.point : Int) + offsetMv (wearOf s d)).toNat

def planOffset (s : State) (d reading tj : Nat) : Int :=
  raiseOffset reading (planMv s d) tj s.pwr.ceil.tableMax 13 (wearOf s d).offset.toInt

theorem replan_not_due (h : planDue (wearOf s d.toNat) = false) : Gives (.replan d reading tj) s fun t => t = s :=
  ⟨s, show execReplan d reading tj s = _ from if_neg (by simp [h]), rfl⟩

theorem replan_holds (hl : s.pwr.wear.length = 4) (hr : loopsRun s = true) (h : planDue (wearOf s d.toNat) = true)
    (hall : (List.range (s.pwr.ceil.tableMax + 1)).all
      (pointHolds reading (planMv s d.toNat) tj (planOffset s d.toNat reading tj)) = true) :
    Gives (.replan d reading tj) s fun t =>
      wearOf t d.toNat = { wearOf s d.toNat with
        offset := BitVec.ofInt 8 (planOffset s d.toNat reading tj), degPlan := (wearOf s d.toNat).deg,
        planned := (wearOf s d.toNat).hours } ∧
      t.pwr.ceil.tableMax = s.pwr.ceil.tableMax ∧ t.err = s.err ∧ t.mem = s.mem := by
  have none : (List.range (s.pwr.ceil.tableMax + 1)).find?
      (fun q => !(pointHolds reading (planMv s d.toNat) tj (planOffset s d.toNat reading tj) q)) = none := by
    rw [List.find?_eq_none]
    intro q hq
    simpa using List.all_eq_true.1 hall q hq
  have goes : execReplan d reading tj s = .next (replanned s d.toNat (planOffset s d.toNat reading tj)) := by
    rw [execReplan, if_pos (by rw [hr, h]; rfl)]
    unfold planOffset planMv at none
    dsimp only
    rw [none]
    rfl
  refine ⟨_, goes, wearOf_setWear_self _ (by have := d.isLt; omega), rfl, rfl, rfl⟩

theorem withdrawPoint_pwr (die : Nat) (q : Nat) : (withdrawPoint die s q).pwr = s.pwr := pwr_eq (by
  simp only [withdrawPoint]; split <;> simp)

theorem withdrawPoint_mem (die : Nat) (q : Nat) : (withdrawPoint die s q).mem = s.mem := mem_eq (by
  simp only [withdrawPoint]; split <;> simp)

theorem replan_withdraws (hr : loopsRun s = true) (q : Nat) (h : planDue (wearOf s d.toNat) = true) (hq : 0 < q)
    (hfind : (List.range (s.pwr.ceil.tableMax + 1)).find?
      (fun q => !(pointHolds reading (planMv s d.toNat) tj (planOffset s d.toNat reading tj) q)) = some q) :
    Gives (.replan d reading tj) s fun t => t.pwr.ceil.tableMax = q - 1 ∧ t.mem = s.mem := by
  let s1 := replanned s d.toNat (planOffset s d.toNat reading tj)
  let s2 := withCeil s1 (fun c => { c with tableMax := q - 1 })
  let gone := (List.range (s.pwr.ceil.tableMax + 1)).filter (fun k => decide (q ≤ k))
  have goes : execReplan d reading tj s = .next (gone.foldl (withdrawPoint d.toNat) s2) := by
    rw [execReplan, if_pos (by rw [hr, h]; rfl)]
    unfold planOffset planMv at hfind
    dsimp only
    rw [hfind]
    dsimp only
    rw [if_neg hq.ne']
    rfl
  obtain ⟨_, _, _, _, -, pwr⟩ := withCeil_moves (s := s1) (fun c => { c with tableMax := q - 1 })
  refine ⟨_, goes, ?_, ?_⟩
  · rw [foldl_keeps (g := (·.pwr)) (fun x k => withdrawPoint_pwr _ k), pwr]
  · rw [foldl_keeps (g := (·.mem)) (fun x k => withdrawPoint_mem _ k)]
    exact withCeil_mem _

end Replan

/-! ## Settlement -/

theorem coreNoProgress_gives (hs : Sound s) (hroom : s.err.failLog.length < 4032) (c : CoreId)
    (ha : coreAvail s c.toNat = true) (hi : imageRuns s = true) (hn : 2 ^ 20 ≤ (getCore s c.toNat).noProg) :
    Gives (.coreNoProgress c) s fun t => coreAvail t c.toNat = false ∧
      (∀ n, n ≠ c.toNat → coreAvail t n = coreAvail s n) ∧ logged s t 1 ∧ getCore t c.toNat = Core.idle :=
  ⟨_, show execCoreNoProgress c s = _ from if_pos ⟨hi, hn⟩, markCore_gives hs c.toNat .timeout ha hroom⟩

theorem imageRuns_of (h : 3 ≤ s.fw.state) (hw : s.err.fwFatal = false) : imageRuns s = true := by
  rw [imageRuns, hw, decide_eq_true h]; rfl

/-- Settles O34. -/
theorem ageingAndFailures : Obligations.AgeingAndFailures := by
  unfold Obligations.AgeingAndFailures
  refine ⟨fun s hs hroom => ⟨coreNoProgress_gives hs hroom, fun c ha h3 hw => ?_, fun k ha h3 hw => ?_⟩,
    fun s hl => ⟨wearReading_gives hl, fun d reading tj hr => ⟨replan_not_due d reading tj, replan_holds d reading tj hl hr,
      replan_withdraws d reading tj hr⟩⟩⟩
  · obtain ⟨one, others, log, -⟩ := markCore_gives hs c.toNat .coreUnavail ha hroom
    exact ⟨_, show execUnitFails (.core c) s = _ from if_pos (imageRuns_of h3 hw), one, others, log⟩
  · exact ⟨_, show execUnitFails (.cluster k) s = _ from if_pos (imageRuns_of h3 hw),
      markCluster_gives hs k.toNat .coreUnavail ha hroom⟩

end Sys2Proof.Laws
end

section
/-! PROOFS. Entries to Closed: rail-off beside a WINDOW_SET that waits. -/

namespace Sys2Proof.Laws

open Sys2Proof Sys2Proof.Machine
set_option Elab.async false

/-! ## An entry to Closed beside a WINDOW_SET whose older lines are in (R494, R558) -/

/-- Its entry at rail-off: the save is done, and nothing runs. -/
def atRailOff : PowerEntry :=
  { target := 3, origin := 0, byHold := false, stage := 3, started := 0, quiesceMs := 0, reply := none }

/-- A queue with its completion ring at 0x20000 of module memory, and a WINDOW_SET that has started. -/
def windowQueue : Queue :=
  { Queue.reset with
    owner := 1, en := true, sq := 0xFFFF000000010010, cq := 0xFFFF000000020010, db := 0xFFFF000000030000
    fetched := [{ uid := 9, index := 9, desc := leBytes 64 0x0021, arrival := 0, started := true, payload := [] }] }

/-- The window that opens the first 16 MiB of memory. -/
def openWindow : Bytes := leBytes 32 (0xFFF * 2 ^ 64 + 7 * 2 ^ 96 + 0x3F * 2 ^ 104 + 0xFFFF * 2 ^ 112)

/-- Rail-off is due; the WINDOW_SET has not had its record yet, though none of the older lines is out. -/
def railsWaiting : State :=
  { State.reset with
    nowNs := 1
    mr := { MemRegs.reset with memCfg := 0x00400000 }
    hif := { HifState.reset with wt := [(0, openWindow)], wtWait := some (5, 9, 0) }
    fab := { State.reset.fab with nodeId := 1, en := true }
    rst := { RstState.reset with supply := .on, step := 7 }
    cmd := { State.reset.cmd with queues := [(5, windowQueue)] }
    pwr := { State.reset.pwr with entry := some atRailOff } }

theorem sound_railsWaiting : Sound railsWaiting :=
  sound_of_checks (by decide +kernel) rfl rfl rfl rfl

/-- The first byte of the completion ring. -/
def ringByte (r : Res) : Byte := match r with | .next t => memByte t.mem 0x20000 | _ => 0

/-- Taking the fabric down settles what waits: the record of the WINDOW_SET is written, in DRAM, which Closed keeps. -/
theorem closedEntry_writes_record : ringByte (exec .closedEntry railsWaiting) = 5 := by decide +kernel

/-- Refutes O30: the fifth clause has rail-off change no byte off the dies, but `quiet` does not ask whether a WINDOW_SET
waits. In `railsWaiting` one does, with no older line out, and taking the fabric down at rail-off completes it: its record goes
to its queue's completion ring in DRAM. -/
theorem not_powerStateMoves : ¬ Obligations.PowerStateMoves := by
  unfold Obligations.PowerStateMoves
  intro h
  obtain ⟨-, -, -, -, off, -⟩ := h.1 railsWaiting atRailOff sound_railsWaiting rfl (.inl rfl)
  obtain ⟨t, goes, -, -, -, -, bytes, -⟩ := off (by decide) (by decide +kernel)
  have kept : memByte t.mem 0x20000 = 0 := (bytes 0x20000).trans (by decide +kernel)
  have written : ringByte (exec .closedEntry railsWaiting) = memByte t.mem 0x20000 := congrArg ringByte goes
  rw [closedEntry_writes_record, kept] at written
  exact absurd written (by decide)

end Sys2Proof.Laws
end

section
/-! PROOFS. Ports are lost, reset and return. -/

namespace Sys2Proof.Laws

open Sys2Proof Sys2Proof.Machine
set_option Elab.async false

variable {s t : State} {p q : HPort} {n : Nat}

/-! ## Ports, while events are raised -/

/-- Both host ports. -/
def hostPorts (s : State) : HostPortState × HostPortState := (s.hif.a, s.hif.b)

theorem getPort_of_hostPorts (h : hostPorts t = hostPorts s) (p : HPort) : getPort t p = getPort s p := by
  obtain ⟨ha, hb⟩ := Prod.mk.inj h
  cases p
  · exact ha
  · exact hb

theorem hostPorts_of_hif (h : t.hif = s.hif) : hostPorts t = hostPorts s := by rw [hostPorts, h, hostPorts]

theorem toRing_hostPorts (rec : Bytes) : hostPorts (toRing s rec p) = hostPorts s := by
  simp only [toRing]
  split
  · split <;> rfl
  · split
    · simp only [issueRead]
      split <;> rfl
    · rfl

theorem deliver_hostPorts (rec : Bytes) (ports : List HPort) : hostPorts (deliver s rec ports) = hostPorts s := by
  simp only [deliver]
  split
  · split <;> rfl
  · split
    · exact foldl_keeps (fun s p => toRing_hostPorts rec) ports s
    · rfl

theorem emitEvent_hostPorts (st : Status) (i j k l : Nat) (c : Bool) (d : Bytes) :
    hostPorts (emitEvent s st i j k l c d) = hostPorts s := by
  simp only [emitEvent]
  split
  · exact deliver_hostPorts ..
  · rfl

theorem raiseEvent_hostPorts (st : Status) (i j : Nat) (d : Bytes) : hostPorts (raiseEvent s st i j d) = hostPorts s := by
  have flushed (w : EventWindow) : hostPorts (flushWindow s w) = hostPorts s := by
    simp only [flushWindow]
    split
    · rfl
    · exact emitEvent_hostPorts ..
  simp only [raiseEvent]
  split
  · exact emitEvent_hostPorts ..
  · split
    · rfl
    · exact (emitEvent_hostPorts ..).trans (flushed _)

theorem sideAssert_hostPorts (i : Nat) : hostPorts (sideAssert s i).1 = hostPorts s := by
  simp only [sideAssert]
  split
  · rfl
  · split
    · rfl
    · exact raiseEvent_hostPorts ..

theorem getPort_setPort_self (x : HostPortState) : getPort (setPort s p x) p = x := by cases p <;> rfl

theorem getPort_setPort_other (x : HostPortState) (h : q ≠ p) : getPort (setPort s p x) q = getPort s q := by
  match p, q with
  | .a, .a | .b, .b => exact absurd rfl h
  | .a, .b | .b, .a => rfl

/-! ## Queues of a lost port (R401) -/

/-- One queue, orphaned where a lost port owns it. -/
def orphanOne (p : HPort) (x : State) (m : Nat) : State :=
  if (getQueue x m).owner = portOwner p then stopReads (setQueue x m { getQueue x m with orphaned := true }) m else x

theorem orphanQueues_eq (s : State) (p : HPort) : orphanQueues s p = allQueues.foldl (orphanOne p) s := rfl

theorem orphanOne_leaves (p : HPort) (x : State) (m : Nat) :
    (orphanOne p x m).mem = x.mem ∧ (orphanOne p x m).out = x.out ∧ (orphanOne p x m).hif = x.hif := by
  simp only [orphanOne]
  split
  · simp only [stopReads, forgetPeer, dropFabric, setQueue, and_self]
  · exact ⟨rfl, rfl, rfl⟩

/-- The queue of a port that is lost. -/
def orphanOf (p : HPort) (Q : Queue) : Queue := if Q.owner = portOwner p then { Q with orphaned := true } else Q

theorem orphanOne_queues (s : State) (p : HPort) (m : Nat) :
    (orphanOne p s m).cmd.queues = (setQueue s m (orphanOf p (getQueue s m))).cmd.queues ∨
      orphanOne p s m = s ∧ orphanOf p (getQueue s m) = getQueue s m := by
  simp only [orphanOne, orphanOf]
  split
  · exact .inl (by simp only [stopReads, forgetPeer, dropFabric])
  · exact .inr ⟨rfl, rfl⟩

theorem orphanOne_getQueue (hk : keysRise s.cmd.queues = true) (p : HPort) (m : Nat) :
    keysRise (orphanOne p s m).cmd.queues = true ∧
      ∀ n, getQueue (orphanOne p s m) n = if n = m then orphanOf p (getQueue s n) else getQueue s n := by
  rcases orphanOne_queues s p m with same | ⟨same, own⟩
  · refine ⟨by rw [same]; exact setQueue_queues_rise hk, fun n => ?_⟩
    rw [getQueue, same]
    split
    next h => rw [h]; exact getQueue_setQueue_self hk
    next h => exact getQueue_setQueue_other hk h
  · rw [same]
    refine ⟨hk, fun n => ?_⟩
    split
    next h => rw [h, own]
    next => rfl

theorem orphan_foldl (l : List Nat) (hn : l.Nodup) (hk : keysRise s.cmd.queues = true) :
    let t := l.foldl (orphanOne p) s
    keysRise t.cmd.queues = true ∧ ∀ n, getQueue t n = if n ∈ l then orphanOf p (getQueue s n) else getQueue s n := by
  induction l generalizing s with
  | nil => exact ⟨hk, fun n => by simp⟩
  | cons m l ih =>
    obtain ⟨hm, hn⟩ := List.nodup_cons.1 hn
    obtain ⟨rises, first⟩ := orphanOne_getQueue hk p m
    obtain ⟨rises, rest⟩ := ih hn rises
    refine ⟨rises, fun n => ?_⟩
    rw [List.foldl_cons, rest n, first n]
    by_cases hnm : n = m
    · subst hnm
      simp [hm]
    · simp [hnm]

theorem orphanQueues_getQueue (hk : keysRise s.cmd.queues = true) (p : HPort) :
    keysRise (orphanQueues s p).cmd.queues = true ∧
      ∀ n < 256, getQueue (orphanQueues s p) n = orphanOf p (getQueue s n) := by
  have nodup : allQueues.Nodup := List.nodup_range
  have mem {n : Nat} (hn : n < 256) : n ∈ allQueues := List.mem_range.2 hn
  rw [orphanQueues_eq]
  generalize allQueues = l at nodup mem
  obtain ⟨rises, all⟩ := orphan_foldl (p := p) l nodup hk
  exact ⟨rises, fun n hn => (all n).trans (if_pos (mem hn))⟩

theorem orphanQueues_leaves (p : HPort) : (orphanQueues s p).mem = s.mem ∧ (orphanQueues s p).out = s.out ∧
    (orphanQueues s p).hif = s.hif := by
  rw [orphanQueues_eq]
  refine ⟨?_, ?_, ?_⟩
  · exact foldl_keeps (g := (·.mem)) (fun x m => (orphanOne_leaves p x m).1) _ s
  · exact foldl_keeps (g := (·.out)) (fun x m => (orphanOne_leaves p x m).2.1) _ s
  · exact foldl_keeps (g := (·.hif)) (fun x m => (orphanOne_leaves p x m).2.2) _ s

theorem setPort_leaves (x : HostPortState) : (setPort s p x).cmd = s.cmd ∧ (setPort s p x).mem = s.mem ∧
    (setPort s p x).out = s.out := by cases p <;> exact ⟨rfl, rfl, rfl⟩

theorem losePort_getPort (q : HPort) : getPort (losePort s p) q =
    if q = p then { getPort s p with linkUp := false, lost := true } else getPort s q := by
  rw [losePort, getPort_of_hostPorts (hostPorts_of_hif (orphanQueues_leaves p).2.2)]
  split
  next h => rw [h, getPort_setPort_self]
  next h => rw [getPort_setPort_other _ h]

theorem losePort_getQueue (hk : keysRise s.cmd.queues = true) : keysRise (losePort s p).cmd.queues = true ∧
    ∀ n < 256, getQueue (losePort s p) n = orphanOf p (getQueue s n) := by
  let x := setPort s p { getPort s p with linkUp := false, lost := true }
  have lost : losePort s p = orphanQueues x p := rfl
  have cmd : x.cmd = s.cmd := (setPort_leaves _).1
  have both := orphanQueues_getQueue (s := x) (by rw [cmd]; exact hk) p
  rw [← lost] at both
  exact ⟨both.1, fun n hn => (both.2 n hn).trans (by rw [getQueue_of_cmd cmd])⟩

theorem portLost_gives (hk : keysRise s.cmd.queues = true) (hl : (getPort s p).linkUp = true) :
    Gives (.portLost p) s fun t =>
      (getPort t p).linkUp = false ∧ (getPort t p).lost = true ∧ t.mem = s.mem ∧ t.out = s.out ∧
      ∀ n < 256, (getQueue t n).orphaned = ((getQueue s n).orphaned || (getQueue s n).owner == portOwner p) := by
  have port := losePort_getPort (s := s) (p := p) p
  rw [if_pos rfl] at port
  obtain ⟨-, mem, out⟩ := setPort_leaves (s := s) (p := p) { getPort s p with linkUp := false, lost := true }
  obtain ⟨omem, oout, -⟩ := orphanQueues_leaves (s := setPort s p { getPort s p with linkUp := false, lost := true }) p
  refine ⟨_, show execPortLost p s = _ from if_pos hl, by rw [port], by rw [port], omem.trans mem, oout.trans out, fun n hn => ?_⟩
  rw [(losePort_getQueue hk).2 n hn, orphanOf]
  split
  next h => simp [h]
  next h => simp [h]

/-! ## Links that come up (R403, R476) -/

theorem setWakeOut_hif (w : Option Nat) : (setWakeOut s p w).hif = s.hif := hif_eq (by simp)

theorem portReturn_up (rate : BitVec 3) (width : BitVec 4) (flit : Bool) (hl : (getPort s p).linkUp = false)
    (hm : mayTrain s p = true) (hf : linkForm rate width = true) (hr : 4 ≤ rate ∨ 3 ≤ (getPort s p).slowTries) :
    Gives (.portReturn p rate width flit) s fun t =>
      (getPort t p).linkUp = true ∧ (getPort t p).lost = false ∧ (getPort t p).rate = rate ∧ (getPort t p).width = width ∧
      (getPort t p).slowLink = decide (rate < 4) ∧ t.mem = s.mem ∧ ∀ n, getQueue t n = getQueue s n := by
  have may : (!(getPort s p).linkUp && mayTrain s p && linkForm rate width) = true := by rw [hl, hm, hf]; rfl
  have done : ¬(decide (rate < 4) && decide ((getPort s p).slowTries < 3)) = true := by
    simp only [Bool.and_eq_true, decide_eq_true_eq, not_and]
    rcases hr with h | h
    · exact fun h4 => absurd h4 (BitVec.not_lt.2 h)
    · exact fun _ => Nat.not_lt.2 h
  let x := setWakeOut (setPort s p (linkUpAs (getPort s p) rate width flit (decide (rate < 4)))) p none
  have goes : execPortReturn p rate width flit s = .next (if decide (rate < 4) then raiseEvent x .slowLink 9 (portNo p) else x) := by
    rw [execPortReturn, if_pos may]
    exact if_neg done
  have port : getPort x p = linkUpAs (getPort s p) rate width flit (decide (rate < 4)) := by
    rw [getPort_of_hostPorts (hostPorts_of_hif (setWakeOut_hif none)), getPort_setPort_self]
  obtain ⟨cmd, mem, -⟩ := setPort_leaves (s := s) (p := p) (linkUpAs (getPort s p) rate width flit (decide (rate < 4)))
  have xcmd : x.cmd = s.cmd := (cmd_eq (by simp [x])).trans cmd
  have xmem : x.mem = s.mem := (mem_eq (by simp [x])).trans mem
  refine ⟨_, goes, ?_⟩
  beta_reduce
  have told : hostPorts (if decide (rate < 4) then raiseEvent x .slowLink 9 (portNo p) else x) = hostPorts x := by
    split
    · exact raiseEvent_hostPorts ..
    · rfl
  rw [getPort_of_hostPorts told, port]
  refine ⟨rfl, rfl, rfl, rfl, rfl, ?_, getQueue_of_cmd ?_⟩
  · split
    · exact (mem_eq (by simp)).trans xmem
    · exact xmem
  · split
    · exact (raiseEvent_cmd ..).trans xcmd
    · exact xcmd

theorem portReturn_retrains (rate : BitVec 3) (width : BitVec 4) (flit : Bool) (hl : (getPort s p).linkUp = false)
    (hm : mayTrain s p = true) (hf : linkForm rate width = true) (hr : rate < 4) (ht : (getPort s p).slowTries < 3) :
    Gives (.portReturn p rate width flit) s fun t =>
      t = setPort s p { getPort s p with slowTries := (getPort s p).slowTries + 1 } := by
  have may : (!(getPort s p).linkUp && mayTrain s p && linkForm rate width) = true := by rw [hl, hm, hf]; rfl
  refine ⟨_, ?_, rfl⟩
  show execPortReturn p rate width flit s = _
  rw [execPortReturn, if_pos may]
  exact if_pos (by rw [decide_eq_true hr, decide_eq_true ht]; rfl)

/-! ## Port resets (R571, R576) -/

/-- The other port. -/
def otherPort : HPort → HPort
  | .a => .b
  | .b => .a

theorem otherPort_ne (p : HPort) : otherPort p ≠ p := by cases p <;> decide

/-- What a port reset leaves of its port and its queues. -/
structure PortQuiet (s t : State) (p : HPort) : Prop where
  link : (getPort t p).linkUp = false
  msix : (getPort t p).msix = []
  go : (getPort t p).mbxGo = false
  aper : (getPort t p).aper = 0
  mem : t.mem = s.mem
  other : getPort t (otherPort p) = getPort s (otherPort p)
  queues : ∀ n < 256, (getQueue s n).owner = portOwner p → (getQueue t n).en = false ∧ (getQueue t n).orphaned = true

/-- The queue of a port that is reset. -/
def resetQueue (p : HPort) (Q : Queue) : Queue :=
  if Q.owner = portOwner p then { Q with en := false, orphaned := true } else Q

theorem portReset_getQueue (n : Nat) : getQueue (portReset s p) n = resetQueue p (getQueue (losePort s p) n) := by
  have mapped := smGet_map (d := Queue.reset) (resetQueue p) (losePort s p).cmd.queues n
  have reset : resetQueue p Queue.reset = Queue.reset := by cases p <;> rfl
  rw [reset] at mapped
  refine Eq.trans ?_ mapped
  rw [portReset]
  generalize losePort s p = x
  cases p <;> rfl

theorem portReset_getPort : getPort (portReset s p) p =
    { freshPort (getPort (losePort s p) p) with
      linkUp := false, rate := 0, width := 0, flit := false, slowLink := false, aper := 0, ring := none,
      ringDropped := (getPort (losePort s p) p).ringDropped || (getPort (losePort s p) p).ring.isSome } := by
  rw [portReset]
  generalize losePort s p = x
  cases p <;> rfl

theorem portReset_quiet (hk : keysRise s.cmd.queues = true) : PortQuiet s (portReset s p) p where
  link := congrArg (·.linkUp) portReset_getPort
  msix := congrArg (·.msix) portReset_getPort
  go := congrArg (·.mbxGo) portReset_getPort
  aper := congrArg (·.aper) portReset_getPort
  mem := mem_eq (by simp)
  other := by
    have lost := losePort_getPort (s := s) (p := p) (otherPort p)
    rw [if_neg (otherPort_ne p)] at lost
    rw [← lost, portReset]
    generalize losePort s p = x
    cases p <;> rfl
  queues := fun n hn ho => by
    rw [portReset_getQueue, (losePort_getQueue hk).2 n hn, orphanOf, if_pos ho, resetQueue, if_pos ho]
    exact ⟨rfl, rfl⟩

theorem PortQuiet.after {u : State} (h : PortQuiet t u p) (mem : t.mem = s.mem)
    (port : getPort t (otherPort p) = getPort s (otherPort p)) (cmd : t.cmd = s.cmd) : PortQuiet s u p where
  link := h.link
  msix := h.msix
  go := h.go
  aper := h.aper
  mem := h.mem.trans mem
  other := h.other.trans port
  queues := fun n hn ho => h.queues n hn (by rw [getQueue_of_cmd cmd]; exact ho)

theorem hotReset_gives (hk : keysRise s.cmd.queues = true) (hl : (getPort s p).linkUp = true) :
    Gives (.hotReset p) s fun t => PortQuiet s t p ∧ t.fw = s.fw ∧ t.sec = s.sec ∧
      (match (generalizing := false) p with
        | .a => t.rst.hotA = satAdd s.rst.hotA 1 ∧ t.rst.hotB = s.rst.hotB
        | .b => t.rst.hotB = satAdd s.rst.hotB 1 ∧ t.rst.hotA = s.rst.hotA) := by
  have counted : (countHot s p).cmd = s.cmd ∧ (countHot s p).mem = s.mem ∧ (countHot s p).fw = s.fw ∧
      (countHot s p).sec = s.sec ∧ getPort (countHot s p) (otherPort p) = getPort s (otherPort p) := by
    cases p <;> exact ⟨rfl, rfl, rfl, rfl, rfl⟩
  obtain ⟨cmd, mem, fw, sec, port⟩ := counted
  have quiet := portReset_quiet (s := countHot s p) (p := p) (by rw [cmd]; exact hk)
  have rfw : (portReset (countHot s p) p).fw = (countHot s p).fw := fw_eq (by simp)
  have rsec : (portReset (countHot s p) p).sec = (countHot s p).sec := sec_eq (by simp)
  have rrst : (portReset (countHot s p) p).rst = (countHot s p).rst := rst_eq (by simp)
  refine ⟨_, show execHotReset p s = _ from if_pos hl, PortQuiet.after quiet mem port cmd, rfw.trans fw, rsec.trans sec, ?_⟩
  rw [rrst]
  cases p <;> exact ⟨rfl, rfl⟩

theorem perstOn_quiet (hk : keysRise s.cmd.queues = true) : PortQuiet s (perstOn s p) p ∧ (getPort (perstOn s p) p).perst = true ∧
    (perstOn s p).rst = (countPerst s p).rst := by
  have counted : (countPerst s p).cmd = s.cmd ∧ (countPerst s p).mem = s.mem ∧
      getPort (countPerst s p) (otherPort p) = getPort s (otherPort p) := by cases p <;> exact ⟨rfl, rfl, rfl⟩
  obtain ⟨cmd, mem, port⟩ := counted
  have quiet := PortQuiet.after (portReset_quiet (s := countPerst s p) (p := p) (by rw [cmd]; exact hk)) mem port cmd
  have rrst : (portReset (countPerst s p) p).rst = (countPerst s p).rst := rst_eq (by simp)
  let r := portReset (countPerst s p) p
  have on : perstOn s p = setPort r p { getPort r p with perst := true, trainAt := none } := rfl
  obtain ⟨scmd, smem, -⟩ := setPort_leaves (s := r) (p := p) { getPort r p with perst := true, trainAt := none }
  rw [on]
  refine ⟨⟨?_, ?_, ?_, ?_, smem.trans quiet.mem, ?_, fun n hn ho => ?_⟩, ?_, ?_⟩
  · rw [getPort_setPort_self]; exact quiet.link
  · rw [getPort_setPort_self]; exact quiet.msix
  · rw [getPort_setPort_self]; exact quiet.go
  · rw [getPort_setPort_self]; exact quiet.aper
  · rw [getPort_setPort_other _ (otherPort_ne p)]; exact quiet.other
  · rw [getQueue_of_cmd scmd]; exact quiet.queues n hn ho
  · rw [getPort_setPort_self]
  · have port (x : State) (y : HostPortState) : (setPort x p y).rst = x.rst := by cases p <;> rfl
    exact (port r _).trans rrst

theorem perstAssert_gives (hk : keysRise s.cmd.queues = true) (ha : (sideIn s (portNo p)).asserted = false)
    (hm : (sideIn s (portNo p)).masked = false) (hn : sideSoon s (sideIn s (portNo p)) = false) (hs : s.rst.supply ≠ .off) :
    Gives (.perstAssert p) s fun t => PortQuiet s t p ∧ (getPort t p).perst = true ∧
      (match (generalizing := false) p with | .a => t.rst.perstA = satAdd s.rst.perstA 1 | .b => t.rst.perstB = satAdd s.rst.perstB 1) := by
  have effect := sideAssert_effect ha hm hn hs
  let r := (sideAssert s (portNo p)).1
  have cmd : r.cmd = s.cmd := cmd_eq (by simp [r])
  have mem : r.mem = s.mem := mem_eq (by simp [r])
  have rst : r.rst = s.rst := rst_eq (by simp [r])
  obtain ⟨quiet, perst, count⟩ := perstOn_quiet (s := r) (p := p) (by rw [cmd]; exact hk)
  refine ⟨perstOn r p, congrArg Host.Outcome.next (if_pos effect),
    PortQuiet.after quiet mem (getPort_of_hostPorts (sideAssert_hostPorts _) _) cmd, perst, ?_⟩
  rw [count]
  cases p
  · exact congrArg (fun r : RstState => satAdd r.perstA 1) rst
  · exact congrArg (fun r : RstState => satAdd r.perstB 1) rst

theorem perstDeassert_gives (hk : keysRise s.pwr.side = true) (ha : (sideIn s (portNo p)).asserted = true)
    (he : (sideIn s (portNo p)).effect = true) : Gives (.perstDeassert p) s fun t =>
      (getPort t p).perst = false ∧ (sideIn t (portNo p)).asserted = false ∧ t.mem = s.mem := by
  obtain ⟨u, gone, deasserted, -, -⟩ := perstDeassert_deasserts p hk ha
  have ends := sideDeassert_of_asserted ha
  let r := setSide s (portNo p) (deassertedIn s (portNo p))
  let x := setPort r p { getPort r p with perst := false }
  have goes : execPerstDeassert p s = .next (wakeSource (trainFromNow x p) (portNo p)) := by
    rw [execPerstDeassert, ends]
    exact if_pos he
  obtain rfl : u = wakeSource (trainFromNow x p) (portNo p) := by
    have both := gone.symm.trans (show exec (.perstDeassert p) s = _ from goes)
    exact Host.Outcome.next.inj both
  refine ⟨_, gone, ?_, deasserted, ?_⟩
  · have wake : (wakeSource (trainFromNow x p) (portNo p)).hif = (trainFromNow x p).hif := hif_eq (by simp)
    rw [getPort_of_hostPorts (hostPorts_of_hif wake), trainFromNow]
    split
    · rw [getPort_setPort_self, getPort_setPort_self]
    · rw [getPort_setPort_self]
  · have mem : x.mem = s.mem := (setPort_leaves (s := r) (p := p) _).2.1
    exact (mem_eq (by simp)).trans mem

/-- Settles O25. -/
theorem portsLoseAndRegain : Obligations.PortsLoseAndRegain := by
  unfold Obligations.PortsLoseAndRegain
  refine ⟨fun p s hs => ⟨portLost_gives hs.queues, portReturn_up, portReturn_retrains⟩, fun p s hs => ?_⟩
  have open_ {t : State} (h : PortQuiet s t p) := h
  refine ⟨fun hl => ?_, fun ha hm hn hsup => ?_, perstDeassert_gives hs.side⟩
  · obtain ⟨t, goes, ⟨link, msix, go, aper, mem, other, queues⟩, rest⟩ := hotReset_gives hs.queues hl
    exact ⟨t, goes, ⟨link, msix, go, aper, mem, by cases p <;> exact other, queues⟩, rest⟩
  · obtain ⟨t, goes, ⟨link, msix, go, aper, mem, other, queues⟩, rest⟩ := perstAssert_gives hs.queues ha hm hn hsup
    exact ⟨t, goes, ⟨link, msix, go, aper, mem, by cases p <;> exact other, queues⟩, rest⟩

end Sys2Proof.Laws
end

section
/-! PROOFS. Packets: their fields once built, and how they leave on a link. -/

namespace Sys2Proof.Laws

open Sys2Proof Sys2Proof.Machine
set_option Elab.async false

variable {s t : State} {p : Nat}

/-! ## Fields of packets (R412) -/

/-- `n` bytes from `i`. -/
def slice (b : Bytes) (i n : Nat) : Bytes := (b.drop i).take n

theorem le_eq_slice (b : Bytes) (i n : Nat) : le b i n = leNat (slice b i n) := rfl

theorem slice_append_right {a b : Bytes} {i n : Nat} (h : a.length ≤ i) : slice (a ++ b) i n = slice b (i - a.length) n := by
  rw [slice, List.drop_append, List.drop_eq_nil_of_le h, List.nil_append, slice]

theorem slice_append_left {a b : Bytes} {i n : Nat} (h : i + n ≤ a.length) : slice (a ++ b) i n = slice a i n := by
  rw [slice, slice, List.drop_append_of_le_length (by omega), List.take_append_of_le_length (by rw [List.length_drop]; omega)]

theorem slice_slice {b : Bytes} {i n j m : Nat} (h : j + m ≤ n) : slice (slice b i n) j m = slice b (i + j) m := by
  rw [slice, slice, slice, List.drop_take, List.take_take, List.drop_drop, Nat.min_eq_left (by omega)]

theorem slice_putBytes_before {b x : Bytes} {i j n : Nat} (h : i + n ≤ j) (hj : j ≤ b.length) :
    slice (putBytes b j x) i n = slice b i n := by
  rw [putBytes, List.append_assoc, slice_append_left (by rw [List.length_take]; omega)]
  conv_rhs => rw [← List.take_append_drop j b]
  rw [slice_append_left (by rw [List.length_take]; omega)]

theorem slice_putBytes_after {b x : Bytes} {i j n : Nat} (h : j + x.length ≤ i) (hj : j ≤ b.length) :
    slice (putBytes b j x) i n = slice b i n := by
  have len : (b.take j ++ x).length = j + x.length := by rw [List.length_append, List.length_take, Nat.min_eq_left hj]
  rw [putBytes, slice_append_right (by omega), len, slice, slice, List.drop_drop]
  congr 2
  omega

theorem putBytes_length {b x : Bytes} {j : Nat} (h : j + x.length ≤ b.length) : (putBytes b j x).length = b.length := by
  simp only [putBytes, List.length_append, List.length_take, List.length_drop]
  omega

/-- The bytes of a built packet before its check: end-to-end header and payload. -/
def pktBody (src : Nat) (h : PktSpec) (payload : Bytes) : Bytes :=
  let n := cdiv payload.length 64
  [0, BitVec.ofNat 8 n] ++ (zeroBytes 10 ++ (leBytes 2 h.dst ++ (leBytes 2 src ++ (leBytes 1 (h.cls + 4 * h.kind) ++
    (leBytes 1 (b2n h.ackReq + 2 * b2n h.epochEn + 4 * b2n h.rctrEn) ++ (leBytes 2 h.plen ++ (leBytes 6 h.addr ++
    (leBytes 3 h.tag ++ ([0] ++ (leBytes 2 h.epoch ++ (leBytes 2 (if h.rctrEn then h.rctr else 0) ++ (leBytes 8 h.poison ++
    ((h.kindBytes ++ zeroBytes 14).take 14 ++ (zeroBytes 8 ++ (payload ++ zeroBytes (64 * n - payload.length))))))))))))))))

theorem buildPkt_eq (src : Nat) (h : PktSpec) (payload : Bytes) : buildPkt src h payload =
    putBytes (pktBody src h payload) 56 (leBytes 4 (pcrcOf (pktBody src h payload))) := by
  simp only [buildPkt, pktBody, List.append_assoc]

section Built

variable (src : Nat) (h : PktSpec) (payload : Bytes)

theorem pktBody_length : (pktBody src h payload).length = 64 + 64 * cdiv payload.length 64 := by
  have fits : payload.length ≤ 64 * cdiv payload.length 64 := by simp only [cdiv]; omega
  simp only [pktBody, zeroBytes, List.length_append, List.length_cons, List.length_nil, List.length_replicate, leBytes_length,
    List.length_take]
  omega

theorem buildPkt_length : (buildPkt src h payload).length = 64 + 64 * cdiv payload.length 64 := by
  rw [buildPkt_eq, putBytes_length (by rw [leBytes_length, pktBody_length]; omega), pktBody_length]

theorem slice_buildPkt {i n : Nat} (hi : i + n ≤ 56) : slice (buildPkt src h payload) i n = slice (pktBody src h payload) i n := by
  rw [buildPkt_eq, slice_putBytes_before (by omega) (by rw [pktBody_length]; omega)]

end Built

/-- A field of a built packet, where its body has it. -/
theorem le_of_split {b pre post : Bytes} {k v : Nat} (h : b = pre ++ (leBytes k v ++ post)) :
    le b pre.length k = v % 256 ^ k := by
  rw [h, le_eq_slice, slice_append_right le_rfl, Nat.sub_self]
  exact le_leBytes_append k v post

section Fields

variable (src : Nat) (h : PktSpec) (payload : Bytes)

theorem le_buildPkt {i n : Nat} (hi : i + n ≤ 56) : le (buildPkt src h payload) i n = le (pktBody src h payload) i n := by
  rw [le_eq_slice, slice_buildPkt _ _ _ hi, le_eq_slice]

theorem buildPkt_dst : le (buildPkt src h payload) 12 2 = h.dst % 256 ^ 2 :=
  (le_buildPkt src h payload (by decide)).trans
    (le_of_split (pre := [0, BitVec.ofNat 8 (cdiv payload.length 64)] ++ zeroBytes 10) (by simp only [pktBody, List.append_assoc]; rfl))

theorem buildPkt_src : le (buildPkt src h payload) 14 2 = src % 256 ^ 2 :=
  (le_buildPkt src h payload (by decide)).trans
    (le_of_split (pre := [0, BitVec.ofNat 8 (cdiv payload.length 64)] ++ zeroBytes 10 ++ leBytes 2 h.dst)
      (by simp only [pktBody, List.append_assoc]; rfl))

theorem buildPkt_kind : le (buildPkt src h payload) 16 1 = (h.cls + 4 * h.kind) % 256 ^ 1 :=
  (le_buildPkt src h payload (by decide)).trans
    (le_of_split (pre := [0, BitVec.ofNat 8 (cdiv payload.length 64)] ++ zeroBytes 10 ++ leBytes 2 h.dst ++ leBytes 2 src)
      (by simp only [pktBody, List.append_assoc]; rfl))

theorem buildPkt_plen : le (buildPkt src h payload) 18 2 = h.plen % 256 ^ 2 :=
  (le_buildPkt src h payload (by decide)).trans
    (le_of_split (pre := [0, BitVec.ofNat 8 (cdiv payload.length 64)] ++ zeroBytes 10 ++ leBytes 2 h.dst ++ leBytes 2 src ++
      leBytes 1 (h.cls + 4 * h.kind) ++ leBytes 1 (b2n h.ackReq + 2 * b2n h.epochEn + 4 * b2n h.rctrEn))
      (by simp only [pktBody, List.append_assoc]; rfl))

theorem buildPkt_addr : le (buildPkt src h payload) 20 6 = h.addr % 256 ^ 6 :=
  (le_buildPkt src h payload (by decide)).trans
    (le_of_split (pre := [0, BitVec.ofNat 8 (cdiv payload.length 64)] ++ zeroBytes 10 ++ leBytes 2 h.dst ++ leBytes 2 src ++
      leBytes 1 (h.cls + 4 * h.kind) ++ leBytes 1 (b2n h.ackReq + 2 * b2n h.epochEn + 4 * b2n h.rctrEn) ++ leBytes 2 h.plen)
      (by simp only [pktBody, List.append_assoc]; rfl))

theorem buildPkt_payload : (buildPkt src h payload).drop 64 =
    payload ++ zeroBytes (64 * cdiv payload.length 64 - payload.length) := by
  have before : slice (buildPkt src h payload) 64 (64 * cdiv payload.length 64) =
      slice (pktBody src h payload) 64 (64 * cdiv payload.length 64) := by
    rw [buildPkt_eq, slice_putBytes_after (by rw [leBytes_length]; decide) (by rw [pktBody_length]; omega)]
  have all (b : Bytes) (hb : b.length = 64 + 64 * cdiv payload.length 64) :
      slice b 64 (64 * cdiv payload.length 64) = b.drop 64 :=
    List.take_of_length_le (by rw [List.length_drop, hb]; omega)
  rw [all _ (buildPkt_length ..), all _ (pktBody_length ..)] at before
  rw [before]
  let pre := [0, BitVec.ofNat 8 (cdiv payload.length 64)] ++ zeroBytes 10 ++ leBytes 2 h.dst ++ leBytes 2 src ++
    leBytes 1 (h.cls + 4 * h.kind) ++ leBytes 1 (b2n h.ackReq + 2 * b2n h.epochEn + 4 * b2n h.rctrEn) ++ leBytes 2 h.plen ++
    leBytes 6 h.addr ++ leBytes 3 h.tag ++ [0] ++ leBytes 2 h.epoch ++ leBytes 2 (if h.rctrEn then h.rctr else 0) ++
    leBytes 8 h.poison ++ (h.kindBytes ++ zeroBytes 14).take 14 ++ zeroBytes 8
  have split : pktBody src h payload = pre ++ (payload ++ zeroBytes (64 * cdiv payload.length 64 - payload.length)) := by
    simp only [pktBody, pre, List.append_assoc]
  have len : pre.length = 64 := by
    simp only [pre, zeroBytes, List.length_append, List.length_cons, List.length_nil, List.length_replicate, leBytes_length,
      List.length_take]
    omega
  rw [split, List.drop_append, List.drop_eq_nil_of_le len.le, len, Nat.sub_self, List.drop_zero, List.nil_append]

end Fields

theorem b2n_le (x : Bool) : b2n x ≤ 1 := by cases x <;> decide

/-! ### What the link and the tag leave of a packet -/

theorem withTag_length {b : Bytes} (tag : Nat) (h : 60 ≤ b.length) : (withTag b tag).length = b.length := by
  have one : (putBytes b 26 (leBytes 3 tag)).length = b.length := putBytes_length (by rw [leBytes_length]; omega)
  rw [withTag]
  rw [putBytes_length (by rw [leBytes_length, one]; omega), one]

theorem withTag_slice {b : Bytes} (tag : Nat) {i n : Nat} (h : 60 ≤ b.length) (hi : i + n ≤ 26 ∨ 60 ≤ i) :
    slice (withTag b tag) i n = slice b i n := by
  have one : (putBytes b 26 (leBytes 3 tag)).length = b.length := putBytes_length (by rw [leBytes_length]; omega)
  rw [withTag]
  rcases hi with hi | hi
  · rw [slice_putBytes_before (by omega) (by rw [one]; omega), slice_putBytes_before hi (by omega)]
  · rw [slice_putBytes_after (by rw [leBytes_length]; omega) (by rw [one]; omega),
      slice_putBytes_after (by rw [leBytes_length]; omega) (by omega)]

/-- The end-to-end part stays as it is from hop to hop. -/
theorem linkPart_slice (x : FabPortState) (ftype vc : Nat) (down : Bool) {b : Bytes} (hb : 64 ≤ b.length) {i n : Nat}
    (hi : 12 ≤ i) (hn : i + n ≤ 60) : slice (linkPart x ftype vc down b) i n = slice b i n := by
  have len : ((b.drop 12).take 48).length = 48 := by rw [List.length_take, List.length_drop]; omega
  rw [linkPart]
  rw [List.append_assoc, slice_append_left (by simp [leBytes_length, len]; omega), slice_append_right (by simp [leBytes_length]; omega)]
  have pre : (([BitVec.ofNat 8 (ftype + 4 * vc + 32 * b2n down), byteAt b 1] : Bytes) ++
      (List.range 8).map (fun v => BitVec.ofNat 8 (x.owed.getD v 0)) ++ leBytes 2 x.owedShared).length = 12 := by
    simp [leBytes_length]
  rw [pre, ← slice, slice_slice (by omega)]
  congr 1
  omega

theorem linkPart_drop (x : FabPortState) (ftype vc : Nat) (down : Bool) {b : Bytes} (hb : 64 ≤ b.length) :
    (linkPart x ftype vc down b).drop 64 = b.drop 64 := by
  have len : ((b.drop 12).take 48).length = 48 := by rw [List.length_take, List.length_drop]; omega
  rw [linkPart]
  rw [List.drop_append, List.drop_eq_nil_of_le (by simp [leBytes_length, len]), List.nil_append]
  simp [leBytes_length, len]

theorem linkPart_vc (x : FabPortState) (vc : Nat) (down : Bool) (b : Bytes) (hvc : vc < 8) :
    pkVc (linkPart x 1 vc down b) = vc := by
  have first : le (linkPart x 1 vc down b) 0 1 = (BitVec.ofNat 8 (1 + 4 * vc + 32 * b2n down)).toNat := by
    simp [le, linkPart, leNat]
  have small : 1 + 4 * vc + 32 * b2n down < 256 := by have := b2n_le down; omega
  rw [pkVc, first, BitVec.toNat_ofNat, Nat.mod_eq_of_lt (by omega), bits, Nat.shiftRight_eq_div_pow]
  omega

/-! ## A packet leaves (R415 to R418, R435) -/

theorem getFab_setFab_self (x : FabPortState) (hk : keysRise s.fab.ports = true) : getFab (setFab s p x) p = x :=
  get_set_self hk

theorem setFab_rises (x : FabPortState) (hk : keysRise s.fab.ports = true) : keysRise (setFab s p x).fab.ports = true :=
  keysRise_smSet hk

/-- What leaves a port whose packet needs no tag, or has one. -/
def taggedBytes (s : State) (p : Nat) (o : OutPkt) : Bytes :=
  match o.part, o.owner with
  | some _, some _ => withTag o.bytes ((freeTag s p).getD 0)
  | _, _ => o.bytes

theorem mem_out_sendIdle {o : Output} (h : o ∈ s.out) (k : Nat) : o ∈ (sendIdle s k).out := by
  dsimp only [sendIdle]
  split
  · exact List.mem_append_left _ h
  · exact h

theorem mem_out_freeSource {o : Output} (h : o ∈ s.out) (src : Option (Nat × Nat × Nat)) : o ∈ (freeSource s src).out := by
  cases src with
  | none => exact h
  | some x => exact mem_out_sendIdle (s := setFab s x.1 _) h x.1

theorem putOnLink_leaves (o : OutPkt) (bytes : Bytes) :
    ∃ y, .packet p (linkPart y 1 o.vc o.down bytes) ∈ (putOnLink s p o bytes).out :=
  ⟨creditsSpend (getFab s p) o.vc (bytes.length / 64),
    mem_out_freeSource (List.mem_append_right _ (List.mem_singleton_self _)) o.src⟩

/-- A packet with credits, and a tag where it needs one, leaves at once where no other waits. -/
theorem sendOut_leaves (o : OutPkt) (hk : keysRise s.fab.ports = true) (hcar : portCarries s p = true)
    (hq : (getFab s p).queue = []) (hcr : creditsFor (getFab s p) o.vc (o.bytes.length / 64) = true)
    (htag : o.part.isSome = true → o.owner.isSome = true → (freeTag s p).isSome = true) :
    ∃ y, .packet p (linkPart y 1 o.vc o.down (taggedBytes s p o)) ∈ (sendOut s p o).out := by
  let x := { getFab s p with queue := [o] }
  let s1 := setFab s p x
  have port : getFab s1 p = x := getFab_setFab_self x hk
  have carries : portCarries s1 p = true := by
    have up : (getFab s1 p).st = (getFab s p).st := by rw [port]
    rw [portCarries, portUp, up]
    exact hcar
  have sends : sendOut s p o = drainPort s1 p := by
    rw [sendOut, hq]
    rfl
  have free : freeTag s1 p = freeTag s p := rfl
  have tried : ∃ s2, trySend s1 p o = some s2 ∧
      ∃ y, .packet p (linkPart y 1 o.vc o.down (taggedBytes s p o)) ∈ s2.out := by
    have credits : creditsFor (getFab s1 p) o.vc (o.bytes.length / 64) = true := by rw [port]; exact hcr
    rw [trySend, if_pos credits, taggedBytes]
    rcases hp : o.part with _ | k
    · exact ⟨_, rfl, putOnLink_leaves o _⟩
    · rcases ho : o.owner with _ | w
      · exact ⟨_, rfl, putOnLink_leaves o _⟩
      · obtain ⟨tag, htag⟩ := Option.isSome_iff_exists.1 (htag (by rw [hp]; rfl) (by rw [ho]; rfl))
        simp only [free, htag]
        exact ⟨_, rfl, putOnLink_leaves o _⟩
  obtain ⟨s2, tried, y, left⟩ := tried
  refine ⟨y, ?_⟩
  have drained : drainPort s1 p = setFab s2 p { getFab s2 p with queue := [] } := by
    rw [drainPort, if_pos carries, port]
    simp only [x, drainList, tried, List.contains_nil, Bool.false_eq_true, if_false]
  rw [sends, drained]
  exact left

/-- A packet that is injected where the way out is free leaves, with its end-to-end part. -/
theorem injectPkt_leaves {dst cls fi q len : Nat} {tagged dl : Bool} (hk : keysRise s.fab.ports = true)
    (empty : ∀ p, (getFab s p).queue = [])
    (hw : WayOut s dst cls len tagged q dl) (bytes : Bytes) (part : Option Nat) (limitNs : Nat) (o : Option FabOwner)
    (hb : bytes.length / 64 = cdiv len 64 + 1) (ht : part.isSome = true → o.isSome = true → tagged = true) :
    ∃ y b down, .packet q (linkPart y 1 (vcOf cls dl) down b) ∈ (injectPkt s fi dst cls bytes part limitNs o).out ∧
      (b = bytes ∨ ∃ tag, b = withTag bytes tag) := by
  obtain ⟨far, route, assigned, ⟨down, hop⟩, tag, credits⟩ := hw
  have up : portCarries s q = true := by
    have way := route
    rw [routeOf, Option.filter_eq_some_iff] at way
    rw [portCarries, way.2]
    simpa using assigned
  let pkt : OutPkt := { vc := vcOf cls dl, down, bytes, src := none, part, limitNs, owner := o }
  have goes : injectPkt s fi dst cls bytes part limitNs o = sendOut s q pkt := by
    simp only [injectPkt, far, Bool.false_eq_true, if_false, routePkt, route, hop, pkt]
  obtain ⟨y, left⟩ := sendOut_leaves (s := s) (p := q) pkt hk up (empty q) (by rw [hb]; exact credits)
    (fun hp ho => tag (ht hp ho))
  rw [goes]
  refine ⟨y, taggedBytes s q pkt, down, left, ?_⟩
  rw [taggedBytes]
  split
  · exact .inr ⟨_, rfl⟩
  · exact .inl rfl

/-- A tag leaves the fields before it and the payload. -/
theorem withTag_keeps {b c : Bytes} (len : 64 ≤ c.length) (hb : b = c ∨ ∃ tag, b = withTag c tag) :
    64 ≤ b.length ∧ (∀ i n, 12 ≤ i → i + n ≤ 26 → slice b i n = slice c i n) ∧ b.drop 64 = c.drop 64 := by
  rcases hb with rfl | ⟨tag, rfl⟩
  · exact ⟨len, fun _ _ _ _ => rfl, rfl⟩
  · have long := withTag_length tag (b := c) (by omega)
    refine ⟨by omega, fun i n _ hi => withTag_slice tag (by omega) (.inl hi), ?_⟩
    have after := withTag_slice tag (b := c) (i := 64) (n := c.length) (by omega) (.inr (by decide))
    rw [slice, slice, List.take_of_length_le (by rw [List.length_drop]; omega),
      List.take_of_length_le (by rw [List.length_drop]; omega)] at after
    exact after

/-- The fields of a built packet on its link. -/
theorem linked_fields (src : Nat) (h : PktSpec) (payload b : Bytes) (y : FabPortState) (vc : Nat) (down : Bool)
    (hb : b = buildPkt src h payload ∨ ∃ tag, b = withTag (buildPkt src h payload) tag) :
    let x := linkPart y 1 vc down b
    le x 12 2 = h.dst % 256 ^ 2 ∧ le x 14 2 = src % 256 ^ 2 ∧ le x 16 1 = (h.cls + 4 * h.kind) % 256 ^ 1 ∧
    le x 18 2 = h.plen % 256 ^ 2 ∧ le x 20 6 = h.addr % 256 ^ 6 ∧
    x.drop 64 = payload ++ zeroBytes (64 * cdiv payload.length 64 - payload.length) := by
  have len : 64 ≤ (buildPkt src h payload).length := by rw [buildPkt_length]; omega
  obtain ⟨long, fields, payloads⟩ := withTag_keeps len hb
  have field {i n : Nat} (hi : 12 ≤ i) (hn : i + n ≤ 26) : le (linkPart y 1 vc down b) i n = le (buildPkt src h payload) i n := by
    rw [le_eq_slice, linkPart_slice _ _ _ _ long hi (by omega), fields i n hi hn, le_eq_slice]
  exact ⟨(field (by decide) (by decide)).trans (buildPkt_dst ..), (field (by decide) (by decide)).trans (buildPkt_src ..),
    (field (by decide) (by decide)).trans (buildPkt_kind ..), (field (by decide) (by decide)).trans (buildPkt_plen ..),
    (field (by decide) (by decide)).trans (buildPkt_addr ..), (linkPart_drop _ _ _ _ long).trans (payloads.trans (buildPkt_payload ..))⟩

/-- A request or a write to a global address leaves on the port of its route. -/
theorem leftFor_injectPkt {cls kind fi q len a : Nat} {tagged dl : Bool} (hk : keysRise s.fab.ports = true)
    (empty : ∀ p, (getFab s p).queue = [])
    (hw : WayOut s (gNode a) cls len tagged q dl) (src : Nat) (h : PktSpec) (payload : Bytes) (part : Option Nat) (limitNs : Nat)
    (o : Option FabOwner) (hlen : payload.length = len) (ht : part.isSome = true → o.isSome = true → tagged = true)
    (hdst : h.dst = gNode a) (haddr : h.addr = gLocal a) (hkind : h.kind = kind) (hcls : h.cls = cls) (hc : cls < 4)
    (hk64 : kind < 64) (hplen : h.plen < 8192) {holds : Bytes → Prop}
    (hholds : ∀ x, pkPlen x = h.plen → x.drop 64 = payload ++ zeroBytes (64 * cdiv payload.length 64 - payload.length) → holds x) :
    leftFor (injectPkt s fi (gNode a) cls (buildPkt src h payload) part limitNs o) q kind a holds := by
  have blocks : (buildPkt src h payload).length / 64 = cdiv len 64 + 1 := by rw [buildPkt_length, hlen]; omega
  obtain ⟨y, b, down, left, hb⟩ := injectPkt_leaves (fi := fi) hk empty hw (buildPkt src h payload) part limitNs o blocks ht
  obtain ⟨dst, -, kinds, plen, addr, body⟩ := linked_fields src h payload b y (vcOf cls dl) down hb
  refine ⟨_, left, ?_, ?_, ?_, hholds _ ?_ body⟩
  · rw [pkKind, kinds, hcls, hkind, bits, Nat.shiftRight_eq_div_pow]
    omega
  · rw [pkDst, dst, hdst, gNode, bits]
    omega
  · rw [pkAddr, addr, haddr, gLocal, bits]
    omega
  · rw [pkPlen, plen, bits, Nat.shiftRight_zero]
    omega

end Sys2Proof.Laws
end

section
/-! PROOFS. The record of a NOP (O11). -/

namespace Sys2Proof.Laws

open Sys2Proof Sys2Proof.Machine
set_option Elab.async false

variable {s t : State} {n : Nat} {f : Fetched} {r : Record}

/-! ## Writes by the command processor to one line of DRAM -/

theorem linePart_single {a : Nat} {b : Bytes} (h : a % 64 + b.length ≤ 64) : linePart a b (a / 64 * 64) = (a, b) := by
  have low : max a (a / 64 * 64) = a := by omega
  have fit : min (a + b.length) (a / 64 * 64 + 64) = a + b.length := by omega
  simp only [linePart, low, fit, Nat.sub_self, List.drop_zero]
  rw [List.take_of_length_le (by omega)]

theorem cmdWrite_dram {a : Nat} {b : Bytes} (hl : localNode s (gNode a) = true)
    (hg : cmdGrants s true (gLocal a) b.length = true) (hc : canAccess s .dram (gLocal a) b.length = true)
    (hb : 0 < b.length) (h64 : gLocal a % 64 + b.length ≤ 64) :
    cmdWrite s a b = (setMem s (memWrite s.mem (gLocal a) b false), true) := by
  have line := linesOf_single hb h64
  simp only [canAccess, line, List.all_cons, List.all_nil, Bool.and_true, Bool.and_eq_true] at hc
  obtain ⟨-, exists_, reach⟩ := hc
  have dram : region (gLocal a / 64 * 64) = .dram := by
    cases hr : region (gLocal a / 64 * 64) <;> simp [hr, reaches] at reach ⊢
  have spans : spanExists s (gLocal a) b.length = true := by
    simp only [spanExists, line, List.all_cons, List.all_nil, Bool.and_true, exists_]
  rw [cmdWrite, if_pos hl, if_pos hg, line]
  simp only [List.foldl_cons, List.foldl_nil, dram, linePart_single h64, cmdReaches, spans]
  rfl

/-! ## Ring entries -/

theorem recordAt_aligned (q : Queue) : gLocal (recordAt q) % 64 + 16 ≤ 64 := by
  rw [gLocal, bits, recordAt, ringBase, Nat.shiftRight_zero]
  omega

theorem recordBytes_ok (q : Queue) (s : State) (f : Fetched) : recordBytes n q (plainRecord s f .ok) =
    [BitVec.ofNat 8 n, if q.phase then 1 else 0] ++ leBytes 2 (f.index.toNat % 65536) ++ [0, 0, 0, 0] ++ leBytes 8 s.nowNs := by
  cases hp : q.phase <;> simp [recordBytes, plainRecord, hp, b2n, statusCode, leBytes_zero, zeroBytes]

/-! ## A NOP's record -/

theorem exec_nop {q : QueueId} (h : startDesc s q.toNat 0 = some f) :
    exec (.nop q) s = .next (completeDesc s q.toNat f .ok) := by
  show execNop q s = _
  simp only [execNop, h]

theorem writesNow_of (ho : (getQueue s n).orphaned = false) (hh : (getQueue s n).held = []) (hc : 0 < cqSpace (getQueue s n)) :
    writesNow (getQueue s n) = true := by
  simp [writesNow, ho, hh, hc]

/-- The queue that has lost descriptor `f`. -/
theorem taken_writesNow (hk : keysRise s.cmd.queues = true) (h : writesNow (getQueue s n) = true) (e : Bool) :
    writesNow (getQueue (taken s n f e) n) = true := by
  rw [taken_getQueue_self hk]
  exact h

/-- The queue as its next record finds it. -/
def shortQueue (s : State) (n : Nat) (f : Fetched) : Queue :=
  { getQueue s n with fetched := (getQueue s n).fetched.filter (·.uid != f.uid) }

theorem shortQueue_eq (hk : keysRise s.cmd.queues = true) : getQueue (taken s n f true) n = shortQueue s n f :=
  taken_getQueue_self hk true

theorem taken_ports (e : Bool) (p : HPort) : getPort (taken s n f e) p = getPort s p := by
  cases hs : f.started <;> simp only [taken, hs] <;> rfl

theorem nop_host {p : HPort} (hs : Sound s) (hw : writesNow (getQueue s n) = true) (hl : ringLoc (getQueue s n).cq = false)
    (hp : ownerPort (getQueue s n).owner = some p) :
    (completeDesc s n f .ok).out = s.out ++ .hostWrite p (recordAt (getQueue s n)) (recordBytes n (getQueue s n) (plainRecord s f .ok)) false ::
        (if flag f.desc 2 1 && !(flag (smGet msixDefault (getPort s p).msix (getQueue s n).msix.toNat) 12 0) && (getPort s p).linkUp
          then [.msix p (getQueue s n).msix.toNat] else []) := by
  have short := shortQueue_eq (f := f) hs.queues (n := n)
  rw [completeDesc_eq, postRecord_of_writesNow (taken_writesNow hs.queues hw true),
    putRecord_of_host (p := p) (by rw [short]; exact hl) (by rw [short]; exact hp), short]
  let y := emit (setQueue (taken s n f true) n (pastRecord (shortQueue s n f)))
    (.hostWrite p (recordAt (getQueue s n)) (recordBytes n (getQueue s n) (plainRecord s f .ok)) false)
  have yport : getPort y p = getPort s p := taken_ports (n := n) (f := f) true p
  have yout : y.out = s.out ++ [.hostWrite p (recordAt (getQueue s n)) (recordBytes n (getQueue s n) (plainRecord s f .ok)) false] := by
    rw [← taken_out (s := s) (n := n) (f := f) true]
    rfl
  show (if flag f.desc 2 1 then sendMsix y p (getQueue s n).msix.toNat else y).out = _
  cases hi : flag f.desc 2 1 with
  | false => simp [yout]
  | true =>
    simp only [if_true, sendMsix, yport, Bool.true_and]
    cases hm : flag (smGet msixDefault (getPort s p).msix (getQueue s n).msix.toNat) 12 0 with
    | true =>
      simp [yout]
    | false =>
      cases hu : (getPort s p).linkUp with
      | true => simp [yout]
      | false => simp [yout]

/-- A record's place in its queue: the tail rises, and the phase inverts at the ring's end. -/
theorem completeDesc_tail (hs : Sound s) (hw : writesNow (getQueue s n) = true) :
    ∃ e, getQueue (completeDesc s n f .ok) n = { pastRecord (shortQueue s n f) with err := e } := by
  rw [completeDesc_eq, postRecord_of_writesNow (taken_writesNow hs.queues hw true)]
  obtain ⟨e, h⟩ := putRecord_getQueue (n := n) (plainRecord s f .ok) (taken_queues_rise (n := n) (f := f) hs.queues true)
  exact ⟨e, by rw [h, shortQueue_eq hs.queues]⟩

/-- A record to module memory that the Window Table grants. -/
theorem nop_dram (hs : Sound s) (hw : writesNow (getQueue s n) = true) (hl : ringLoc (getQueue s n).cq = true)
    (hn : localNode s (gNode (recordAt (getQueue s n))) = true)
    (hg : cmdGrants s true (gLocal (recordAt (getQueue s n))) 16 = true)
    (hc : canAccess s .dram (gLocal (recordAt (getQueue s n))) 16 = true) :
    memRead (completeDesc s n f .ok).mem (gLocal (recordAt (getQueue s n))) 16 = recordBytes n (getQueue s n) (plainRecord s f .ok) ∧
    (completeDesc s n f .ok).out = s.out ∧ getQueue (completeDesc s n f .ok) n = pastRecord (shortQueue s n f) := by
  have short := shortQueue_eq (f := f) hs.queues (n := n)
  let x := setQueue (taken s n f true) n (pastRecord (shortQueue s n f))
  have b16 := recordBytes_length n (getQueue s n) (plainRecord s f .ok)
  have only : x = { s with cmd := x.cmd } := by
    cases hst : f.started <;> simp only [x, taken, hst] <;> rfl
  have wrote : cmdWrite x (recordAt (getQueue s n)) (recordBytes n (getQueue s n) (plainRecord s f .ok)) =
      (setMem x (memWrite x.mem (gLocal (recordAt (getQueue s n))) (recordBytes n (getQueue s n) (plainRecord s f .ok)) false), true) := by
    refine cmdWrite_dram ?_ ?_ ?_ (by rw [b16]; decide) (by rw [b16]; exact recordAt_aligned _)
    · rw [only]; exact hn
    · rw [only, b16]; exact hg
    · rw [only, b16]; exact hc
  have put : completeDesc s n f .ok = (cmdWrite x (recordAt (getQueue s n)) (recordBytes n (getQueue s n) (plainRecord s f .ok))).1 := by
    rw [completeDesc_eq, postRecord_of_writesNow (taken_writesNow hs.queues hw true),
      putRecord_of_loc (by rw [short]; exact hl), short]
    exact (if_pos (congrArg Prod.snd wrote))
  have mem : x.mem = s.mem := by rw [only]
  rw [put, wrote, ← b16]
  refine ⟨?_, ?_, ?_⟩
  · exact memRead_memWrite_self (by rw [mem]; exact hs.mem) _ _ _
  · show x.out = s.out
    rw [only]
  · exact getQueue_setQueue_self (taken_queues_rise hs.queues true)

/-- A record to module memory that the Window Table denies. -/
theorem nop_denied (hs : Sound s) (hw : writesNow (getQueue s n) = true) (hl : ringLoc (getQueue s n).cq = true)
    (hn : localNode s (gNode (recordAt (getQueue s n))) = true)
    (hg : cmdGrants s true (gLocal (recordAt (getQueue s n))) 16 = false) :
    (completeDesc s n f .ok).mem = s.mem ∧ (getQueue (completeDesc s n f .ok) n).err = true := by
  have short := shortQueue_eq (f := f) hs.queues (n := n)
  let x := setQueue (taken s n f true) n (pastRecord (shortQueue s n f))
  have b16 := recordBytes_length n (getQueue s n) (plainRecord s f .ok)
  have only : x = { s with cmd := x.cmd } := by
    cases hst : f.started <;> simp only [x, taken, hst] <;> rfl
  have denied : cmdWrite x (recordAt (getQueue s n)) (recordBytes n (getQueue s n) (plainRecord s f .ok)) =
      (cmdDeny x true (gLocal (recordAt (getQueue s n))) 16, false) := by
    have local_ : localNode x (gNode (recordAt (getQueue s n))) = true := by rw [only]; exact hn
    have deny : cmdGrants x true (gLocal (recordAt (getQueue s n))) 16 = false := by rw [only]; exact hg
    rw [cmdWrite, if_pos local_, b16, deny]
    rfl
  have put : completeDesc s n f .ok = queueError (cmdDeny x true (gLocal (recordAt (getQueue s n))) 16) n := by
    rw [completeDesc_eq, postRecord_of_writesNow (taken_writesNow hs.queues hw true),
      putRecord_of_loc (by rw [short]; exact hl), short]
    dsimp only
    rw [show cmdWrite (setQueue (taken s n f true) n (pastRecord (shortQueue s n f))) (recordAt (shortQueue s n f))
      (recordBytes n (shortQueue s n f) (plainRecord s f .ok)) = _ from denied]
    rfl
  have cmd : (cmdDeny x true (gLocal (recordAt (getQueue s n))) 16).cmd = x.cmd :=
    cmdDeny_keeps x true _ _ .cmd (by decide)
  have mem : (queueError (cmdDeny x true (gLocal (recordAt (getQueue s n))) 16) n).mem = x.mem :=
    (queueError_keeps _ _ .mem (by decide)).trans (cmdDeny_keeps x true _ _ .mem (by decide))
  have rises : keysRise x.cmd.queues = true := setQueue_queues_rise (taken_queues_rise hs.queues true)
  rw [put]
  refine ⟨mem.trans (by rw [only]), ?_⟩
  rw [queueError_getQueue (by rw [cmd]; exact rises)]

theorem fabIdle_of_parts (h : FabIdle s) (hf : t.fab = s.fab) (hh : t.hif.wtWait = s.hif.wtWait)
    (hc : t.coll.firedOps = s.coll.firedOps) : FabIdle t where
  queues := fun p => by rw [getFab, hf]; exact h.queues p
  posts := by rw [hf, h.posts]
  loop := by rw [hf, h.loop]
  held := by rw [hf, h.held]
  windowSet := by rw [hh, h.windowSet]
  tags := by rw [hf]; exact h.tags
  ops := by rw [hf]; exact h.ops
  fired := by rw [hc, h.fired]

/-- A record to a peer leaves as a WRITE. -/
theorem nop_peer {q : Nat} {dl : Bool} (hs : Sound s) (hw : writesNow (getQueue s n) = true) (hl : ringLoc (getQueue s n).cq = true)
    (hi : FabIdle s) (way : WayOut s (gNode (recordAt (getQueue s n))) 0 16 false q dl) :
    (completeDesc s n f .ok).mem = s.mem ∧ leftFor (completeDesc s n f .ok) q 0 (recordAt (getQueue s n))
      fun x => pkPayload x = recordBytes n (getQueue s n) (plainRecord s f .ok) := by
  have short := shortQueue_eq (f := f) hs.queues (n := n)
  let x := setQueue (taken s n f true) n (pastRecord (shortQueue s n f))
  have b16 := recordBytes_length n (getQueue s n) (plainRecord s f .ok)
  have only : x = { s with cmd := x.cmd } := by
    cases hst : f.started <;> simp only [x, taken, hst] <;> rfl
  have far : localNode x (gNode (recordAt (getQueue s n))) = false := by rw [only]; exact way.far
  have sent : cmdWrite x (recordAt (getQueue s n)) (recordBytes n (getQueue s n) (plainRecord s f .ok)) =
      (injectPlain x (fiFor x (gNode (recordAt (getQueue s n))))
        (pktPlain (gNode (recordAt (getQueue s n))) 0 0 (recordBytes n (getQueue s n) (plainRecord s f .ok)).length
          (gLocal (recordAt (getQueue s n)))) (recordBytes n (getQueue s n) (plainRecord s f .ok)) none, true) := by
    rw [cmdWrite, if_neg (by rw [far]; exact Bool.false_ne_true)]
  have put : completeDesc s n f .ok = injectPlain x (fiFor x (gNode (recordAt (getQueue s n))))
      (pktPlain (gNode (recordAt (getQueue s n))) 0 0 (recordBytes n (getQueue s n) (plainRecord s f .ok)).length
        (gLocal (recordAt (getQueue s n)))) (recordBytes n (getQueue s n) (plainRecord s f .ok)) none := by
    rw [completeDesc_eq, postRecord_of_writesNow (taken_writesNow hs.queues hw true),
      putRecord_of_loc (by rw [short]; exact hl), short]
    exact (if_pos (congrArg Prod.snd sent)).trans (congrArg Prod.fst sent)
  have idle : FabIdle x := by rw [only]; exact fabIdle_of_parts hi rfl rfl rfl
  have out : WayOut x (gNode (recordAt (getQueue s n))) 0 16 false q dl := by
    rw [only]; exact ⟨way.far, way.route, way.assigned, way.hop, way.tag, way.credits⟩
  rw [put]
  refine ⟨?_, ?_⟩
  · exact (mem_eq (by simp)).trans (show x.mem = s.mem by rw [only])
  · refine leftFor_injectPkt (kind := 0) (by rw [only]; exact hs.ports) idle.queues out _ _ _ none _ _ b16
      (fun h => absurd h (by decide)) rfl rfl rfl rfl (by decide) (by decide)
      (by rw [b16]; exact show (16 : Nat) < 8192 by decide) fun y hplen hbody => ?_
    rw [pkPayload, hbody, hplen]
    exact List.take_left' rfl

/-- A record that is held. -/
theorem nop_held (hs : Sound s) (hw : writesNow (getQueue s n) = false)
    (hd : ((getQueue s n).orphaned && decide (64 ≤ (getQueue s n).held.length)) = false) :
    (getQueue (completeDesc s n f .ok) n).held = (getQueue s n).held ++ [plainRecord s f .ok] ∧
    (completeDesc s n f .ok).out = s.out ∧ (getQueue (completeDesc s n f .ok) n).err = (getQueue s n).err ∧
    (getQueue (completeDesc s n f .ok) n).orphaned = (getQueue s n).orphaned := by
  have short := shortQueue_eq (f := f) hs.queues (n := n)
  have put : completeDesc s n f .ok = setQueue (taken s n f true) n { shortQueue s n f with
      held := (getQueue s n).held ++ [plainRecord s f .ok] } := by
    rw [completeDesc_eq, postRecord_of_not_writesNow (by rw [short]; exact hw), short]
    exact if_neg (by rw [show ((shortQueue s n f).orphaned && decide (64 ≤ (shortQueue s n f).held.length)) = false from hd]; decide)
  rw [put, getQueue_setQueue_self (taken_queues_rise hs.queues true)]
  exact ⟨rfl, taken_out true, rfl, rfl⟩

/-- A record that is discarded. -/
theorem nop_discarded (hs : Sound s) (ho : (getQueue s n).orphaned = true) (hd : 64 ≤ (getQueue s n).held.length) :
    (getQueue (completeDesc s n f .ok) n).held = (getQueue s n).held ∧ (completeDesc s n f .ok).out = s.out ∧
    (completeDesc s n f .ok).cmd.discarded = satAdd s.cmd.discarded 1 := by
  have short := shortQueue_eq (f := f) hs.queues (n := n)
  have orphan : writesNow (getQueue (taken s n f true) n) = false := by rw [short]; simp [writesNow, shortQueue, ho]
  have count : (taken s n f true).cmd.discarded = s.cmd.discarded := by
    cases hst : f.started <;> simp only [taken, hst] <;> rfl
  have put : completeDesc s n f .ok = { taken s n f true with
      cmd := { (taken s n f true).cmd with discarded := satAdd s.cmd.discarded 1 } } := by
    rw [completeDesc_eq, postRecord_of_not_writesNow orphan, short, ← count]
    exact if_pos (by simpa [shortQueue, ho] using hd)
  rw [put]
  exact ⟨congrArg (·.held) short, taken_out true, rfl⟩

/-- Settles O11. -/
theorem recordsAreWrittenOrHeld : Obligations.RecordsAreWrittenOrHeld := by
  unfold Obligations.RecordsAreWrittenOrHeld
  refine ⟨fun q s f p hs hd ho hh hc hl hp => ?_, fun q s f hs hd ho hh hc hl => ?_, fun q s f hs hd => ?_⟩
  · have hw := writesNow_of ho hh hc
    obtain ⟨e, tail⟩ := completeDesc_tail (f := f) hs hw
    refine ⟨_, exec_nop hd, answered_completeDesc hs .ok, ?_, ?_, ?_⟩
    · rw [nop_host hs hw hl hp, recordBytes_ok]; rfl
    · rw [tail]; rfl
    · rw [tail]; rfl
  · have hw := writesNow_of ho hh hc
    have answered := answered_completeDesc (n := q.toNat) (f := f) hs .ok
    refine ⟨fun hn hg hca => ?_, fun hn hg => ?_, fun m dl hi way => ?_⟩
    · obtain ⟨bytes, out, queue⟩ := nop_dram (f := f) hs hw hl hn hg hca
      exact ⟨_, exec_nop hd, answered, bytes, out, by rw [queue]; rfl, by rw [queue]; rfl⟩
    · obtain ⟨mem, err⟩ := nop_denied (f := f) hs hw hl hn hg
      exact ⟨_, exec_nop hd, answered.gone, mem, err⟩
    · obtain ⟨mem, left⟩ := nop_peer (f := f) hs hw hl hi way
      exact ⟨_, exec_nop hd, answered.gone, mem, left⟩
  · have answered := answered_completeDesc (n := q.toNat) (f := f) hs .ok
    refine ⟨fun ho hc => ?_, fun ho hlen => ?_, fun ho hlen => ?_⟩
    · obtain ⟨held, out, err, orphan⟩ := nop_held (n := q.toNat) (f := f) hs (by simp [writesNow, hc]) (by rw [ho]; rfl)
      refine ⟨_, exec_nop hd, answered, held, out, fun he => ?_⟩
      rw [nextDesc]
      simp [held, orphan, err, ho, he]
    · obtain ⟨held, out, -, -⟩ := nop_held (n := q.toNat) (f := f) hs (by simp [writesNow, ho]) (by simp [Nat.not_le.2 hlen])
      exact ⟨_, exec_nop hd, answered, held, out⟩
    · obtain ⟨held, out, discarded⟩ := nop_discarded (f := f) hs ho hlen
      exact ⟨_, exec_nop hd, answered, held, out, discarded⟩

end Sys2Proof.Laws
end

section
/-! PROOFS. A queue is claimed, enabled, disabled and released (O12). -/

namespace Sys2Proof.Laws

open Sys2Proof Sys2Proof.Machine
set_option Elab.async false

variable {s t : State} {n : Nat} {p : HPort}

/-! ## A queue's control word (R361) -/

theorem qCtlWord_fields (q : Queue) (en : Bool) (owner : Nat) (ho : owner < 4) :
    bit (qCtlWord q en owner) 0 = en ∧ bit (qCtlWord q en owner) 1 = q.kind ∧ bits (qCtlWord q en owner) 2 2 = owner ∧
    BitVec.ofNat 8 (bits (qCtlWord q en owner) 8 8) = q.msix ∧ BitVec.ofNat 8 (bits (qCtlWord q en owner) 16 8) = q.svc := by
  have hm := q.msix.isLt
  have hv := q.svc.isLt
  have he := b2n_le en
  have hk := b2n_le q.kind
  have low : (qCtlWord q en owner) % 2 = b2n en := by rw [qCtlWord]; omega
  have next : (qCtlWord q en owner) / 2 % 2 = b2n q.kind := by rw [qCtlWord]; omega
  have flag_ (b : Bool) : decide (b2n b = 1) = b := by cases b <;> rfl
  refine ⟨?_, ?_, ?_, ?_, ?_⟩
  · rw [bit, Nat.testBit_eq_decide_div_mod_eq, Nat.pow_zero, Nat.div_one, low, flag_]
  · rw [bit, Nat.testBit_eq_decide_div_mod_eq, Nat.pow_one, next, flag_]
  · rw [bits, Nat.shiftRight_eq_div_pow, qCtlWord]
    omega
  · apply BitVec.eq_of_toNat_eq
    rw [BitVec.toNat_ofNat, bits, Nat.shiftRight_eq_div_pow, qCtlWord]
    omega
  · apply BitVec.eq_of_toNat_eq
    rw [BitVec.toNat_ofNat, bits, Nat.shiftRight_eq_div_pow, qCtlWord]
    omega

theorem portOwner_toNat (p : HPort) : (portOwner p).toNat < 4 ∧ (portOwner p).toNat ≠ 0 ∧ portOwner p ≠ 0 := by
  cases p <;> decide

/-- A served access to the setup registers acts. -/
theorem hostSetup_served (hs : hostPath s p = .served) (off size value : Nat) (act : State → State) :
    hostSetup s p off size value act = act s := by
  rw [hostSetup, hs]

theorem linkUp_of_served (h : hostPath s p = .served) : (getPort s p).linkUp = true ∧ (getPort s p).lost = false := by
  by_contra hn
  rw [hostPath] at h
  cases hu : (getPort s p).linkUp <;> cases hl : (getPort s p).lost <;> simp [hu, hl] at h hn

section Writes

variable (hk : keysRise s.cmd.queues = true)

include hk

theorem queueClaim_gives (hs : hostPath s p = .served) (q : QueueId) (ho : (getQueue s q.toNat).owner = 0) :
    Gives (.queueClaim p q) s fun t => (getQueue t q.toNat).owner = portOwner p ∧
      (getQueue t q.toNat).en = (getQueue s q.toNat).en ∧ t.mem = s.mem ∧ t.out = s.out := by
  obtain ⟨h4, hn0, hne⟩ := portOwner_toNat p
  obtain ⟨-, -, own, -, -⟩ := qCtlWord_fields (getQueue s q.toNat) false (portOwner p).toNat h4
  let v := qCtlWord (getQueue s q.toNat) false (portOwner p).toNat
  let Q1 : Queue := { getQueue s q.toNat with owner := portOwner p }
  let s1 := setQueue s q.toNat Q1
  let Q2 : Queue := { Q1 with
    msix := BitVec.ofNat 8 (bits v 8 8), svc := BitVec.ofNat 8 (bits v 16 8), kind := if queueBusy Q1 then Q1.kind else bit v 1 }
  have first : getQueue s1 q.toNat = Q1 := getQueue_setQueue_self hk
  have wrote : writeQueueCtl p q.toNat v s = setQueue s1 q.toNat Q2 := by
    rw [writeQueueCtl]
    simp only [v, own, ho, and_self, if_true]
    rw [show getQueue (setQueue s q.toNat { getQueue s q.toNat with owner := portOwner p }) q.toNat = Q1 from first]
    simp only [Q1, ne_eq, not_true_eq_false, if_false, beq_self_eq_true, if_true, hn0, false_and]
    rfl
  have goes : execQueueClaim p q s = .next (setQueue s1 q.toNat Q2) := by
    rw [execQueueClaim, hostSetup_served hs, if_pos ho]
    exact congrArg _ wrote
  refine ⟨_, goes, ?_, ?_, rfl, rfl⟩
  · rw [getQueue_setQueue_self (setQueue_queues_rise hk)]
  · rw [getQueue_setQueue_self (setQueue_queues_rise hk)]

/-- The queue after the fields of a control word of its owner. -/
def rewritten (Q : Queue) (k : Bool) (m v : BitVec 8) : Queue :=
  { Q with msix := m, svc := v, kind := if queueBusy Q then Q.kind else k }

omit hk in
/-- What a control word of the queue's owner does. -/
theorem writeQueueCtl_owned (q : Nat) (Q : Queue) (en : Bool) (owner : Nat) (h4 : owner < 4)
    (ho : (getQueue s q).owner = portOwner p) :
    let Q2 := rewritten (getQueue s q) Q.kind Q.msix Q.svc
    let s2 := setQueue s q Q2
    let s3 := if en then (if Q2.en then s2 else enableQueue s2 q) else if Q2.en then disableQueue s2 q else s2
    writeQueueCtl p q (qCtlWord Q en owner) s =
      if owner = 0 ∧ (getQueue s q).en = false ∧ (getQueue s3 q).en = false then setQueue s3 q { getQueue s3 q with owner := 0 }
      else s3 := by
  obtain ⟨-, -, hne⟩ := portOwner_toNat p
  obtain ⟨hen, hkind, hown, hmsix, hsvc⟩ := qCtlWord_fields Q en owner h4
  intro Q2 s2 s3
  have mine : ¬((getQueue s q).owner = 0 ∧ owner = (portOwner p).toNat) := fun h => hne (by rw [← ho, h.1])
  have other : ((getQueue s q).owner == 0) = false := by rw [ho]; exact beq_false_of_ne hne
  unfold writeQueueCtl
  simp only [hown, hen, hkind, hmsix, hsvc, if_neg mine]
  rw [if_neg (by rw [ho]; exact not_not_intro rfl), other]
  rfl

theorem queueRelease_gives (hs : hostPath s p = .served) (q : QueueId) (ho : (getQueue s q.toNat).owner = portOwner p)
    (he : (getQueue s q.toNat).en = false) : Gives (.queueRelease p q) s fun t =>
      (getQueue t q.toNat).owner = 0 ∧ t.mem = s.mem ∧ t.out = s.out := by
  let Q2 := rewritten (getQueue s q.toNat) (getQueue s q.toNat).kind (getQueue s q.toNat).msix (getQueue s q.toNat).svc
  let s2 := setQueue s q.toNat Q2
  have off : Q2.en = false := he
  have held : getQueue s2 q.toNat = Q2 := getQueue_setQueue_self hk
  have goes : execQueueRelease p q s = .next (setQueue s2 q.toNat { Q2 with owner := 0 }) := by
    rw [execQueueRelease, hostSetup_served hs]
    refine congrArg _ ((writeQueueCtl_owned q.toNat (getQueue s q.toNat) _ 0 (by decide) ho).trans ?_)
    rw [he]
    show (if _ ∧ _ ∧ (getQueue (if Q2.en then disableQueue s2 q.toNat else s2) q.toNat).en = false then _ else _) = _
    rw [off]
    simp only [Bool.false_eq_true, if_false]
    rw [if_pos ⟨trivial, trivial, by rw [held]; exact he⟩]
    show setQueue s2 q.toNat { getQueue s2 q.toNat with owner := 0 } = _
    rw [held]
    exact congrArg (fun e => setQueue s2 q.toNat { Q2 with en := e, owner := 0 }) off
  refine ⟨_, goes, ?_, rfl, rfl⟩
  rw [getQueue_setQueue_self (setQueue_queues_rise hk)]

omit hk in
/-- The queue's own owner keeps it through a control word that names it. -/
theorem writeQueueCtl_kept (q : Nat) (Q : Queue) (en : Bool) (ho : (getQueue s q).owner = portOwner p) :
    writeQueueCtl p q (qCtlWord Q en (portOwner p).toNat) s =
      let Q2 := rewritten (getQueue s q) Q.kind Q.msix Q.svc
      let s2 := setQueue s q Q2
      if en then (if Q2.en then s2 else enableQueue s2 q) else if Q2.en then disableQueue s2 q else s2 := by
  obtain ⟨h4, hn0, -⟩ := portOwner_toNat p
  exact (writeQueueCtl_owned q Q en _ h4 ho).trans (if_neg fun h => hn0 h.1)

theorem queueDisable_gives (hs : hostPath s p = .served) (q : QueueId) (ho : (getQueue s q.toNat).owner = portOwner p)
    (he : (getQueue s q.toNat).en = true) : Gives (.queueDisable p q) s fun t =>
      (getQueue t q.toNat).en = false ∧ fetchable (getQueue t q.toNat) = 0 ∧
      (getQueue t q.toNat).fetched = (getQueue s q.toNat).fetched ∧ t.mem = s.mem := by
  let Q2 := rewritten (getQueue s q.toNat) (getQueue s q.toNat).kind (getQueue s q.toNat).msix (getQueue s q.toNat).svc
  let s2 := setQueue s q.toNat Q2
  have held : getQueue s2 q.toNat = Q2 := getQueue_setQueue_self hk
  have goes : execQueueDisable p q s = .next (disableQueue s2 q.toNat) := by
    rw [execQueueDisable, hostSetup_served hs, ho]
    refine congrArg _ ((writeQueueCtl_kept q.toNat (getQueue s q.toNat) false ho).trans ?_)
    exact if_pos he
  have queue : getQueue (disableQueue s2 q.toNat) q.toNat = { Q2 with en := false } := by
    rw [← held]
    have same : (disableQueue s2 q.toNat).cmd.queues =
        (setQueue s2 q.toNat { getQueue s2 q.toNat with en := false }).cmd.queues := by
      simp only [disableQueue, stopReads, forgetPeer, dropFabric]
    rw [getQueue, same]
    exact getQueue_setQueue_self (s := s2) (setQueue_queues_rise hk)
  have mem : (disableQueue s2 q.toNat).mem = s2.mem := mem_eq (by simp)
  refine ⟨_, goes, ?_, ?_, ?_, mem⟩
  · rw [queue]
  · rw [queue]; rfl
  · rw [queue]; rfl

end Writes

/-! ## Enabling a queue (R362) -/

/-- Nothing waits for an owner whose packets were dropped. -/
theorem dropFabric_not_busy (mine : FabOwner → Bool) (o : FabOwner) (h : mine o = true) : fabBusy (dropFabric s mine) o = false := by
  simp only [fabBusy, dropFabric, Bool.or_eq_false_iff, List.any_eq_false, List.mem_filter, List.any_map, beq_iff_eq,
    Function.comp_apply, Bool.not_eq_true', and_imp]
  refine ⟨⟨fun t ht hm e => ?_, fun x hx => ?_⟩, fun l hl hm e => ?_⟩
  · rw [e, h] at hm; exact absurd hm (by decide)
  · simp only [List.any_eq_true, List.mem_filter, beq_iff_eq, not_exists, not_and, and_imp, Bool.not_eq_true']
    intro y hy hm e
    simp [e, h] at hm
  · simp [e, h] at hm

/-- A port whose queue has lost the packets of some owners. -/
def unqueued (mine : FabOwner → Bool) (x : FabPortState) : FabPortState :=
  { x with queue := x.queue.filter (fun o => !(match o.owner with | some w => mine w | none => false)) }

theorem getFab_dropFabric (mine : FabOwner → Bool) (k : Nat) :
    getFab (dropFabric s mine) k = unqueued mine (getFab s k) :=
  smGet_map (d := FabPortState.reset) (unqueued mine) s.fab.ports k

theorem fabIdle_dropFabric (mine : FabOwner → Bool) (h : FabIdle s) : FabIdle (dropFabric s mine) where
  queues := fun k => by rw [getFab_dropFabric, unqueued, h.queues]; rfl
  posts := h.posts
  loop := by simp [dropFabric, h.loop]
  held := h.held
  windowSet := h.windowSet
  tags := h.tags.sublist (List.filter_sublist.map _)
  ops := fun o ho => by
    obtain ⟨hmem, hkept⟩ := List.mem_filter.1 ho
    rcases h.ops o hmem with h42 | ⟨t, ht, hown⟩
    · exact .inl h42
    · exact .inr ⟨t, List.mem_filter.2 ⟨ht, by rw [hown]; exact hkept⟩, hown⟩
  fired := h.fired

theorem wayOut_dropFabric (mine : FabOwner → Bool) {node cls len q : Nat} {tagged dl : Bool}
    (h : WayOut s node cls len tagged q dl) : WayOut (dropFabric s mine) node cls len tagged q dl where
  far := h.far
  route := by
    have up (k : Nat) : portUp (dropFabric s mine) k = portUp s k := by rw [portUp, getFab_dropFabric, portUp, unqueued]
    have same : routeOf (dropFabric s mine) node = routeOf s node := by
      rw [routeOf, routeOf, show portUp (dropFabric s mine) = portUp s from funext up]
      rfl
    rw [same, h.route]
  assigned := h.assigned
  hop := by
    obtain ⟨down, hop⟩ := h.hop
    exact ⟨down, by rw [← hop, hopOf, hopOf, getFab_dropFabric]; rfl⟩
  tag := fun ht => by
    have free := h.tag ht
    rw [freeTag] at free ⊢
    split at free
    next hf =>
      refine (congrArg Option.isSome (if_pos ⟨hf.1, ?_⟩)).trans rfl
      have others := hf.2
      rw [List.any_eq_false] at others ⊢
      exact fun t ht => others t (List.mem_of_mem_filter ht)
    next => exact absurd free (by decide)
  credits := by rw [getFab_dropFabric]; exact h.credits

/-- The state in which a queue that is just enabled reads its doorbell word. -/
def enabledAt (s : State) (n : Nat) : State :=
  setQueue (forgetPeer s n) n { getQueue s n with
    en := true, head := 0, cqTail := 0, err := false, phase := true, tail := 0, cqHead := 0,
    orphaned := ownerLost s (getQueue s n) }

section Enabling

variable (hk : keysRise s.cmd.queues = true)

include hk

theorem getQueue_enabledAt : getQueue (enabledAt s n) n = { getQueue s n with
    en := true, head := 0, cqTail := 0, err := false, phase := true, tail := 0, cqHead := 0,
    orphaned := ownerLost s (getQueue s n) } :=
  getQueue_setQueue_self (s := forgetPeer s n) hk

theorem enableQueue_of_none_held (hh : (getQueue s n).held = []) : enableQueue s n = readDoorbell (enabledAt s n) n := by
  have none_ : (getQueue (enabledAt s n) n).held = [] := by rw [getQueue_enabledAt hk, ← hh]
  show readDoorbell (flushQueueHeld (enabledAt s n) n) n = _
  rw [flushQueueHeld, none_]
  rfl

end Enabling

omit s t n p in
theorem peerBusy_enabledAt (s : State) (n : Nat) (desc : Bool) : peerBusy (enabledAt s n) n desc = false := by
  rw [peerBusy, Bool.or_eq_false_iff]
  refine ⟨dropFabric_not_busy _ (.cmd n desc) (beq_self_eq_true n), ?_⟩
  rw [List.any_eq_false]
  intro d hd
  have kept : (d.queue != n) = true := (List.mem_filter.1 hd).2
  simp only [bne_iff_ne, ne_eq] at kept
  simp [kept]

theorem fabIdle_enabledAt (h : FabIdle s) : FabIdle (enabledAt s n) :=
  fabIdle_of_parts (fabIdle_dropFabric _ h) rfl rfl rfl

/-- A way out for the state that an enabled queue reads from. -/
theorem wayOut_enabledAt {node cls len q : Nat} {tagged dl : Bool} (h : WayOut s node cls len tagged q dl) :
    WayOut (enabledAt s n) node cls len tagged q dl := by
  obtain ⟨far, route, assigned, hop, tag, credits⟩ := wayOut_dropFabric (fun o => match o with | .cmd k _ => k == n | _ => false) h
  exact ⟨far, route, assigned, hop, tag, credits⟩

/-- A doorbell word of this module's host is read, unless its read is out. -/
theorem readDoorbell_near (he : (getQueue s n).en = true) (ho : (getQueue s n).orphaned = false)
    (hp : peerDoorbell s (getQueue s n) = false) (hr : s.cmd.dbReads.contains n = false) :
    readDoorbell s n = emit { s with cmd := { s.cmd with dbReads := s.cmd.dbReads ++ [n] } } (.doorbellRead n) := by
  simp only [readDoorbell, he, ho, hp, hr]
  rfl

/-- One of a peer is asked for, unless its read is out. -/
theorem readDoorbell_far (he : (getQueue s n).en = true) (ho : (getQueue s n).orphaned = false)
    (hp : peerDoorbell s (getQueue s n) = true) (hb : peerBusy s n false = false) :
    readDoorbell s n = askPeer s n false (dbAddr (getQueue s n).db) 8 := by
  simp only [readDoorbell, he, ho, hp, hb]
  rfl

/-- A read of what a peer holds leaves as a READ_REQ for its length. -/
theorem askPeer_leaves {a len q : Nat} {dl : Bool} (hk : keysRise s.fab.ports = true) (hi : FabIdle s)
    (hw : WayOut s (gNode a) 0 0 true q dl) (n : Nat) (desc : Bool) (hl : len < 8192) :
    leftFor (askPeer s n desc a len) q 1 a fun x => pkPlen x = len :=
  leftFor_injectPkt (kind := 1) hk hi.queues hw _ _ _ (some 0) _ _ rfl (fun _ _ => rfl) rfl rfl rfl rfl (by decide) (by decide) hl
    fun _ hplen _ => hplen

/-- What reading its doorbell word does to a queue that is enabled for an owner whose port is up. -/
theorem readDoorbell_enabledAt (hs : Sound s) (hl : ownerLost s (getQueue s n) = false)
    (hr : s.cmd.dbReads.contains n = false) :
    let t := readDoorbell (enabledAt s n) n
    getQueue t n = getQueue (enabledAt s n) n ∧ t.mem = s.mem ∧
    (peerDoorbell s (getQueue s n) = false → t.out = s.out ++ [.doorbellRead n]) ∧
    (∀ f dl, peerDoorbell s (getQueue s n) = true → FabIdle s → WayOut s (gNode (dbAddr (getQueue s n).db)) 0 0 true f dl →
      leftFor t f 1 (dbAddr (getQueue s n).db) fun x => pkPlen x = 8) := by
  have queue := getQueue_enabledAt (n := n) hs.queues
  have en : (getQueue (enabledAt s n) n).en = true := by rw [queue]
  have found : (getQueue (enabledAt s n) n).orphaned = false := by rw [queue]; exact hl
  have peer : peerDoorbell (enabledAt s n) (getQueue (enabledAt s n) n) = peerDoorbell s (getQueue s n) := by
    rw [queue]; rfl
  intro t
  cases hp : peerDoorbell s (getQueue s n) with
  | false =>
    have goes := readDoorbell_near en found (peer.trans hp) hr
    refine ⟨?_, ?_, fun _ => ?_, fun f dl h => absurd h (by decide)⟩
    · show getQueue (readDoorbell _ n) n = _
      rw [goes]; rfl
    · show (readDoorbell _ n).mem = _
      rw [goes]; rfl
    · show (readDoorbell _ n).out = _
      rw [goes, emit_out]; rfl
  | true =>
    have goes : readDoorbell (enabledAt s n) n = askPeer (enabledAt s n) n false (dbAddr (getQueue s n).db) 8 := by
      rw [readDoorbell_far en found (peer.trans hp) (peerBusy_enabledAt s n false), queue]
    refine ⟨?_, ?_, fun h => absurd h (by decide), fun f dl _ hi hw => ?_⟩
    · show getQueue (readDoorbell _ n) n = _
      rw [goes, askPeer]
      exact getQueue_of_cmd (cmd_eq (by simp)) n
    · show (readDoorbell _ n).mem = _
      rw [goes, askPeer, mem_eq (t := injectPkt _ _ _ _ _ _ _ _ _) (s := enabledAt s n) (by simp)]
      rfl
    · show leftFor (readDoorbell _ n) _ _ _ _
      rw [goes]
      exact askPeer_leaves (keysRise_map _ hs.ports) (fabIdle_enabledAt hi) (wayOut_enabledAt hw) n false (by decide)

section Enabled

variable (hs : Sound s)

include hs

theorem queueEnable_gives (hp : hostPath s p = .served) (q : QueueId) (ho : (getQueue s q.toNat).owner = portOwner p)
    (he : (getQueue s q.toNat).en = false) (hh : (getQueue s q.toNat).held = []) (hr : s.cmd.dbReads.contains q.toNat = false)
    (k : Bool) (m v : BitVec 8) :
    let n := q.toNat
    let Q := getQueue s n
    Gives (.queueEnable p q k m v) s fun t =>
      (getQueue t n).en = true ∧ (getQueue t n).head = 0 ∧ (getQueue t n).cqTail = 0 ∧ (getQueue t n).err = false ∧
      (getQueue t n).phase = true ∧ (getQueue t n).msix = m ∧ (getQueue t n).svc = v ∧
      (getQueue t n).kind = (if Q.fetched.isEmpty then k else Q.kind) ∧ t.mem = s.mem ∧
      (peerDoorbell s Q = false → t.out = s.out ++ [.doorbellRead n]) ∧
      (∀ f dl, peerDoorbell s Q = true → FabIdle s → WayOut s (gNode (dbAddr Q.db)) 0 0 true f dl →
        leftFor t f 1 (dbAddr Q.db) fun x => pkPlen x = 8) := by
  intro n Q
  obtain ⟨up, found⟩ := linkUp_of_served hp
  let Q2 := rewritten Q k m v
  let s2 := setQueue s n Q2
  have sound2 : Sound s2 := { hs with queues := setQueue_queues_rise hs.queues }
  have held2 : getQueue s2 n = Q2 := getQueue_setQueue_self hs.queues
  have served : ownerLost s2 Q2 = false := by
    have port : ownerPort Q2.owner = some p := by
      show ownerPort Q.owner = some p
      rw [show Q.owner = portOwner p from ho]
      cases p <;> rfl
    have same : getPort s2 p = getPort s p := rfl
    simp only [ownerLost, port, same, up, found]
    rfl
  have goes : execQueueEnable p q k m v s = .next (readDoorbell (enabledAt s2 n) n) := by
    rw [execQueueEnable, hostSetup_served hp]
    refine congrArg _ ?_
    refine (congrArg (fun o => writeQueueCtl p n (qCtlWord _ true (BitVec.toNat o)) s) ho).trans ?_
    refine (writeQueueCtl_kept n { Q with kind := k, msix := m, svc := v } true ho).trans ?_
    show (if Q2.en then s2 else enableQueue s2 n) = _
    rw [if_neg (show ¬ (Q2.en = true) by rw [show Q2.en = false from he]; decide)]
    exact enableQueue_of_none_held sound2.queues (by rw [held2]; exact hh)
  have read := readDoorbell_enabledAt (n := n) sound2 (by rw [held2]; exact served) hr
  rw [held2] at read
  obtain ⟨queue, mem, near, far⟩ := read
  have kept : getQueue (readDoorbell (enabledAt s2 n) n) n = _ := queue.trans (getQueue_enabledAt sound2.queues)
  rw [held2] at kept
  have busy : queueBusy Q = !Q.fetched.isEmpty := by rw [queueBusy, show Q.en = false from he]; rfl
  refine ⟨_, goes, ?_, ?_, ?_, ?_, ?_, ?_, ?_, ?_, mem, near, fun f dl hpeer hi hw => ?_⟩
  · rw [kept]
  · rw [kept]
  · rw [kept]
  · rw [kept]
  · rw [kept]
  · rw [kept]; rfl
  · rw [kept]; rfl
  · rw [kept]
    show (if queueBusy Q = true then Q.kind else k) = _
    rw [busy]
    cases Q.fetched.isEmpty <;> rfl
  · obtain ⟨local_, route, assigned, hop, tag, credits⟩ := hw
    exact far f dl hpeer (fabIdle_of_parts hi rfl rfl rfl) ⟨local_, route, assigned, hop, tag, credits⟩

end Enabled

/-- Settles O12. -/
theorem queueContextWrites : Obligations.QueueContextWrites := by
  unfold Obligations.QueueContextWrites
  intro p q s hs hp n Q
  exact ⟨queueClaim_gives hs.queues hp q, fun ho he hh hr k m v => queueEnable_gives hs hp q ho he hh hr k m v,
    queueDisable_gives hs.queues hp q, queueRelease_gives hs.queues hp q⟩

end Sys2Proof.Laws
end

section
/-! PROOFS. What sending leaves of the fabric's setup. -/

namespace Sys2Proof.Laws

open Sys2Proof Sys2Proof.Machine
set_option Elab.async false

variable {s t u : State} {p : Nat}

/-! ## What sending leaves of the fabric -/

/-- What a port was set up to, the state of its link among it: all but its credits, buffers and queue. -/
def portSetup (x : FabPortState) : FabPortState :=
  { x with credits := [], shared := 0, inUse := [], owed := [], owedShared := 0, queue := [] }

/-- What the fabric was set up to: all but its ports, tags, waiting packets, ops and counts. -/
def fabSetup (f : FabState) : FabState :=
  { f with
    crcDrops := 0, staleRole := 0, windowDeny := 0, hostDrops := 0, noRoute := 0, routeErr := 0, timeouts := 0
    lateReplies := 0, ports := [], tags := [], nextTag := [], tagUse := [], ops := [], posts := [], fetches := []
    nextId := 0, loop := [], held := [] }

/-- A step that leaves the setup of the fabric and of every port: packets leave, wait or are lost, and tags are taken. -/
structure Sends (s t : State) : Prop where
  ports : keysRise s.fab.ports = true → keysRise t.fab.ports = true ∧ ∀ p, portSetup (getFab t p) = portSetup (getFab s p)
  setup : fabSetup t.fab = fabSetup s.fab

theorem Sends.refl (s : State) : Sends s s := ⟨fun h => ⟨h, fun _ => rfl⟩, rfl⟩

theorem Sends.trans (h : Sends s t) (k : Sends t u) : Sends s u where
  ports := fun hk => by
    obtain ⟨rises, ports⟩ := h.ports hk
    obtain ⟨rises, ports'⟩ := k.ports rises
    exact ⟨rises, fun p => (ports' p).trans (ports p)⟩
  setup := k.setup.trans h.setup

/-- A step that leaves the ports and the setup of the fabric. -/
theorem Sends.of_ports (hp : t.fab.ports = s.fab.ports) (hf : fabSetup t.fab = fabSetup s.fab) : Sends s t where
  ports := fun hk => ⟨by rw [hp]; exact hk, fun p => by rw [getFab, getFab, hp]⟩
  setup := hf

theorem Sends.of_fab (h : t.fab = s.fab) : Sends s t := .of_ports (by rw [h]) (by rw [h])

theorem Sends.foldl {α : Type} {f : State → α → State} (h : ∀ s x, Sends s (f s x)) (l : List α) : ∀ s, Sends s (l.foldl f s) := by
  induction l with
  | nil => exact Sends.refl
  | cons x l ih => exact fun s => (h s x).trans (ih _)

theorem Sends.nodeId (h : Sends s t) : t.fab.nodeId = s.fab.nodeId :=
  show (fabSetup t.fab).nodeId = (fabSetup s.fab).nodeId by rw [h.setup]

theorem getFab_setFab_other {q : Nat} (x : FabPortState) (hk : keysRise s.fab.ports = true) (hq : q ≠ p) :
    getFab (setFab s p x) q = getFab s q := get_set_other hk hq

/-- A port is set to one of its own setup. -/
theorem setFab_sends {x : FabPortState} (h : portSetup x = portSetup (getFab s p)) : Sends s (setFab s p x) where
  ports := fun hk => by
    refine ⟨keysRise_smSet hk, fun q => ?_⟩
    by_cases hq : q = p
    · rw [hq, getFab_setFab_self _ hk, h]
    · rw [getFab_setFab_other _ hk hq]
  setup := rfl

theorem emit_sends (s : State) (o : Output) : Sends s (emit s o) := .of_fab rfl

theorem sendIdle_sends (s : State) (p : Nat) : Sends s (sendIdle s p) := by
  rw [sendIdle]
  split
  · exact (setFab_sends (x := owedPaid (getFab s p)) rfl).trans (emit_sends ..)
  · exact .refl s

theorem freeSource_sends (s : State) (src : Option (Nat × Nat × Nat)) : Sends s (freeSource s src) := by
  match src with
  | none => exact .refl s
  | some (p, v, n) => exact (setFab_sends (x := bufferOut (getFab s p) v n) rfl).trans (sendIdle_sends _ p)

theorem noteTag_sends (s : State) (fi t : Nat) : Sends s (noteTag s fi t) := .of_ports rfl rfl

theorem takeTag_sends (s : State) (fi t part limit : Nat) (o : FabOwner) : Sends s (takeTag s fi t part limit o) := .of_ports rfl rfl

theorem putOnLink_sends (s : State) (p : Nat) (o : OutPkt) (b : Bytes) : Sends s (putOnLink s p o b) :=
  (setFab_sends (x := owedPaid (creditsSpend (getFab s p) o.vc (b.length / 64))) rfl).trans
    ((emit_sends ..).trans (freeSource_sends ..))

theorem trySend_sends {o : OutPkt} (h : trySend s p o = some t) : Sends s t := by
  rw [trySend] at h
  split at h
  · split at h
    · split at h
      · exact absurd h (by simp)
      · exact Option.some.inj h ▸ (takeTag_sends ..).trans (putOnLink_sends ..)
    · exact Option.some.inj h ▸ putOnLink_sends ..
  · exact absurd h (by simp)

theorem drainList_sends (p : Nat) (os : List OutPkt) (blocked : List Nat) (s : State) (kept : List OutPkt) :
    Sends s (drainList p os blocked s kept).1 := by
  induction os generalizing blocked s kept with
  | nil => exact .refl s
  | cons o os ih =>
    rw [drainList]
    split
    · exact ih ..
    · split
      next h => exact (trySend_sends h).trans (ih ..)
      next => exact ih ..

theorem drainPort_sends (s : State) (p : Nat) : Sends s (drainPort s p) := by
  rw [drainPort]
  split
  · exact (drainList_sends ..).trans (setFab_sends rfl)
  · exact .refl s

theorem sendOut_sends (s : State) (p : Nat) (o : OutPkt) : Sends s (sendOut s p o) :=
  (setFab_sends (x := { getFab s p with queue := (getFab s p).queue ++ [o] }) rfl).trans (drainPort_sends _ p)

theorem waitAtFi_sends (s : State) (l : LoopPkt) : Sends s (waitAtFi s l) := .of_ports rfl rfl

theorem countNoRoute_sends (s : State) : Sends s (countNoRoute s) := .of_ports rfl rfl

theorem countRouteErr_sends (s : State) : Sends s (countRouteErr s) := .of_ports rfl rfl

theorem losePkt_sends {count : State → State} (hc : ∀ s, Sends s (count s)) (s : State) (l : LoopPkt) :
    Sends s (losePkt count s l) := by
  rw [losePkt]
  split
  · split
    · exact waitAtFi_sends s l
    · exact (takeTag_sends ..).trans ((hc _).trans (freeSource_sends ..))
  · exact (hc s).trans (freeSource_sends ..)

theorem routePkt_sends (s : State) (dst cls : Nat) (l : LoopPkt) : Sends s (routePkt s dst cls l) := by
  rw [routePkt]
  split
  · exact losePkt_sends countNoRoute_sends s l
  · split
    · exact losePkt_sends countRouteErr_sends s l
    · exact sendOut_sends ..

theorem injectPkt_sends (s : State) (fi dst cls : Nat) (b : Bytes) (part : Option Nat) (limit : Nat) (o : Option FabOwner)
    (src : Option (Nat × Nat × Nat)) : Sends s (injectPkt s fi dst cls b part limit o src) := by
  rw [injectPkt]
  split
  · exact waitAtFi_sends ..
  · exact routePkt_sends ..

theorem forwardPkt_sends (s : State) (p : Nat) (src : Option (Nat × Nat × Nat)) (b : Bytes) :
    Sends s (forwardPkt s p src b) := by
  rw [forwardPkt]
  split
  · exact (countNoRoute_sends s).trans (freeSource_sends ..)
  · split
    · exact (countRouteErr_sends s).trans (freeSource_sends ..)
    · exact sendOut_sends ..

end Sys2Proof.Laws
end

section
/-! PROOFS. CMD_WAKE and the poll of doorbell words. -/

namespace Sys2Proof.Laws

open Sys2Proof Sys2Proof.Machine
set_option Elab.async false

variable {s t : State} {n : Nat} {p : HPort}

/-! ## CMD_WAKE (R360) -/

theorem wakeIfAsleep_awake (hp : hostPath s p = .served) (he : s.pwr.entry = none) : wakeIfAsleep s = s := by
  have awake : s.pwr.state ≠ 3 := by
    intro h3
    rw [hostPath] at hp
    split at hp
    · exact absurd hp (by decide)
    · simp [h3] at hp
      split at hp <;> exact absurd hp (by decide)
  rw [wakeIfAsleep, he, beq_false_of_ne awake]
  rfl

/-- A wake of one queue by the port that owns it reads its doorbell word. -/
theorem cmdWake_exec (hp : hostPath s p = .served) (he : s.pwr.entry = none) (q : QueueId)
    (ho : (getQueue s q.toNat).owner = portOwner p) :
    exec (.cmdWake p (BitVec.ofNat 32 q.toNat)) s = .next (readDoorbell s q.toNat) := by
  have small : q.toNat < 256 := q.isLt
  have number : bits (BitVec.ofNat 32 q.toNat).toNat 0 8 = q.toNat := by
    rw [bits, BitVec.toNat_ofNat, Nat.shiftRight_eq_div_pow]
    omega
  have one : (BitVec.ofNat 32 q.toNat).getLsbD 8 = false := by
    rw [BitVec.getLsbD, BitVec.toNat_ofNat, Nat.mod_eq_of_lt (by omega)]
    exact Nat.testBit_lt_two_pow small
  have goes : wakeWrite p (BitVec.ofNat 32 q.toNat) s = readDoorbell s q.toNat := by
    simp only [wakeWrite, one, number, wakeIfAsleep_awake hp he, ho, beq_self_eq_true, Bool.false_eq_true, if_false, if_true]
  show execCmdWake _ _ s = _
  rw [execCmdWake, hp]
  exact congrArg _ goes

theorem cmdWake_near (hp : hostPath s p = .served) (he : s.pwr.entry = none) (q : QueueId)
    (ho : (getQueue s q.toNat).owner = portOwner p) (hen : (getQueue s q.toNat).en = true)
    (hor : (getQueue s q.toNat).orphaned = false) (hn : peerDoorbell s (getQueue s q.toNat) = false)
    (hr : s.cmd.dbReads.contains q.toNat = false) : Gives (.cmdWake p (BitVec.ofNat 32 q.toNat)) s fun t =>
      t.out = s.out ++ [.doorbellRead q.toNat] ∧ t.cmd.dbReads = s.cmd.dbReads ++ [q.toNat] ∧ t.mem = s.mem := by
  refine ⟨_, cmdWake_exec hp he q ho, ?_⟩
  rw [readDoorbell_near hen hor hn hr]
  exact ⟨emit_out .., rfl, rfl⟩

theorem cmdWake_far (hs : Sound s) (hp : hostPath s p = .served) (he : s.pwr.entry = none) (q : QueueId)
    (ho : (getQueue s q.toNat).owner = portOwner p) (hen : (getQueue s q.toNat).en = true)
    (hor : (getQueue s q.toNat).orphaned = false) {f : Nat} {dl : Bool} (hn : peerDoorbell s (getQueue s q.toNat) = true)
    (hb : peerBusy s q.toNat false = false) (hi : FabIdle s) (hw : WayOut s (gNode (dbAddr (getQueue s q.toNat).db)) 0 0 true f dl) :
    Gives (.cmdWake p (BitVec.ofNat 32 q.toNat)) s fun t =>
      t.mem = s.mem ∧ leftFor t f 1 (dbAddr (getQueue s q.toNat).db) fun x => pkPlen x = 8 := by
  refine ⟨_, cmdWake_exec hp he q ho, mem_eq (by simp), ?_⟩
  rw [readDoorbell_far hen hor hn hb]
  exact askPeer_leaves hs.ports hi hw q.toNat false (by decide)

/-! ## The poll (R360) -/

/-- What reading doorbell words leaves: the queues stay and reads in flight stay in flight. -/
structure Polls (s t : State) : Prop where
  queues : t.cmd.queues = s.cmd.queues
  lastPoll : t.cmd.lastPoll = s.cmd.lastPoll
  nodeId : t.fab.nodeId = s.fab.nodeId
  reads : ∀ n ∈ s.cmd.dbReads, n ∈ t.cmd.dbReads

theorem Polls.refl (s : State) : Polls s s := ⟨rfl, rfl, rfl, fun _ h => h⟩

theorem Polls.trans {u : State} (h : Polls s t) (k : Polls t u) : Polls s u :=
  ⟨k.queues.trans h.queues, k.lastPoll.trans h.lastPoll, k.nodeId.trans h.nodeId, fun n hn => k.reads n (h.reads n hn)⟩

theorem readDoorbell_polls (s : State) (n : Nat) : Polls s (readDoorbell s n) := by
  simp only [readDoorbell]
  split
  · exact .refl s
  · split
    · split
      · exact .refl s
      · have same : (askPeer s n false (dbAddr (getQueue s n).db) 8).cmd = s.cmd := cmd_eq (by simp)
        exact ⟨by rw [same], by rw [same], (injectPkt_sends ..).nodeId, fun m hm => by rw [same]; exact hm⟩
    · split
      · exact .refl s
      · exact ⟨rfl, rfl, rfl, fun m hm => List.mem_append_left _ hm⟩

theorem readDoorbell_foldl_polls (l : List Nat) : ∀ s, Polls s (l.foldl readDoorbell s) := by
  induction l with
  | nil => exact Polls.refl
  | cons n l ih => exact fun s => (readDoorbell_polls s n).trans (ih _)

/-- A host's doorbell word is being read once it has been polled. -/
theorem readDoorbell_reads (he : (getQueue s n).en = true) (ho : (getQueue s n).orphaned = false)
    (hp : peerDoorbell s (getQueue s n) = false) : n ∈ (readDoorbell s n).cmd.dbReads := by
  cases hr : s.cmd.dbReads.contains n with
  | false =>
    rw [readDoorbell_near he ho hp hr]
    exact List.mem_append_right _ (List.mem_singleton_self n)
  | true =>
    exact (readDoorbell_polls s n).reads n (List.contains_iff_mem.1 hr)

theorem readDoorbell_foldl_reads (l : List Nat) (hn : n ∈ l) (he : (getQueue s n).en = true)
    (ho : (getQueue s n).orphaned = false) (hp : peerDoorbell s (getQueue s n) = false) :
    n ∈ (l.foldl readDoorbell s).cmd.dbReads := by
  induction l generalizing s with
  | nil => exact absurd hn List.not_mem_nil
  | cons m l ih =>
    rcases List.mem_cons.1 hn with rfl | hl
    · exact (readDoorbell_foldl_polls l _).reads n (readDoorbell_reads he ho hp)
    · have polls := readDoorbell_polls s m
      have queue : getQueue (readDoorbell s m) n = getQueue s n := by rw [getQueue, getQueue, polls.queues]
      refine ih hl (by rw [queue]; exact he) (by rw [queue]; exact ho) ?_
      rw [queue, peerDoorbell, localNode, polls.nodeId]
      exact hp

theorem doorbellPoll_gives (hd : s.cmd.lastPoll + 1000 * max 1 (s.cmd.cfg.toNat % 4096) ≤ s.nowNs) :
    Gives .doorbellPoll s fun t =>
      t.cmd.lastPoll = s.nowNs ∧ t.mem = s.mem ∧ t.cmd.queues = s.cmd.queues ∧
      ∀ n < 256, (getQueue s n).en = true → (getQueue s n).orphaned = false → (getQueue s n).db.getLsbD 0 = true →
        peerDoorbell s (getQueue s n) = false → n ∈ t.cmd.dbReads := by
  let due := allQueues.filter (fun n => (getQueue s n).db.getLsbD 0 || !(getQueue s n).held.isEmpty)
  let s1 : State := { s with cmd := { s.cmd with lastPoll := s.nowNs } }
  have late : s.cmd.lastPoll + pollNs s ≤ s.nowNs := by
    rw [pollNs, bits, Nat.shiftRight_eq_div_pow, Nat.pow_zero, Nat.div_one]
    exact hd
  have goes : exec .doorbellPoll s = .next (due.foldl readDoorbell s1) := by
    show execDoorbellPoll s = _
    rw [execDoorbellPoll, if_pos late]
  have polls := readDoorbell_foldl_polls due s1
  have mem : (due.foldl readDoorbell s1).mem = s1.mem := mem_eq (by simp [others])
  refine ⟨_, goes, polls.lastPoll, mem, polls.queues, fun n hn he ho hb hp => ?_⟩
  have listed : n ∈ due := List.mem_filter.2 ⟨List.mem_range.2 hn, by rw [hb]; rfl⟩
  exact readDoorbell_foldl_reads (s := s1) due listed he ho hp

end Sys2Proof.Laws
end

section
/-! PROOFS. Doorbell words and queues in error. -/

namespace Sys2Proof.Laws

open Sys2Proof Sys2Proof.Machine
set_option Elab.async false

variable {s t : State} {n : Nat} {p : HPort}

/-! ## A queue stays in error while held records are written (R361, R370) -/

/-- A record is put as the queue's ring moves on, or leaves the queue in error. -/
theorem putRecord_cases (s : State) (n : Nat) (r : Record) :
    (putRecord s n r).cmd = (setQueue s n (pastRecord (getQueue s n))).cmd ∨
      ∃ u : State, u.cmd = (setQueue s n (pastRecord (getQueue s n))).cmd ∧ putRecord s n r = queueError u n := by
  cases hl : ringLoc (getQueue s n).cq with
  | true =>
    rw [putRecord_of_loc hl]
    dsimp only
    split
    · exact .inl (cmdWrite_cmd _ _)
    · exact .inr ⟨_, cmdWrite_cmd _ _, rfl⟩
  | false =>
    cases hp : ownerPort (getQueue s n).owner with
    | none => exact .inl (by rw [putRecord_of_none hl hp])
    | some p =>
      rw [putRecord_of_host hl hp]
      dsimp only
      split
      · exact .inl (cmd_eq (by simp))
      · exact .inl rfl

theorem queueError_queues_rise (h : keysRise s.cmd.queues = true) : keysRise (queueError s n).cmd.queues = true := by
  simp only [queueError]
  split
  · exact h
  · rw [raiseEvent_cmd]
    exact setQueue_queues_rise h

/-- The queues' keys rise and queue `n` is in error. -/
def InError (s : State) (n : Nat) : Prop := keysRise s.cmd.queues = true ∧ (getQueue s n).err = true

theorem inError_queueError (h : keysRise s.cmd.queues = true) : InError (queueError s n) n :=
  ⟨queueError_queues_rise h, by rw [queueError_getQueue h]⟩

theorem inError_setQueue {Q : Queue} (h : keysRise s.cmd.queues = true) (he : Q.err = true) : InError (setQueue s n Q) n :=
  ⟨setQueue_queues_rise h, by rw [getQueue_setQueue_self h, he]⟩

theorem InError.of_cmd (h : InError s n) (hc : t.cmd = s.cmd) : InError t n :=
  ⟨by rw [hc]; exact h.1, by rw [getQueue_of_cmd hc]; exact h.2⟩

theorem inError_putRecord (h : InError s n) (r : Record) : InError (putRecord s n r) n := by
  have past : InError (setQueue s n (pastRecord (getQueue s n))) n := inError_setQueue h.1 h.2
  rcases putRecord_cases s n r with same | ⟨u, same, put⟩
  · exact past.of_cmd same
  · rw [put]
    exact inError_queueError (past.of_cmd same).1

theorem inError_flushHeld (k : Nat) (h : InError s n) : InError (flushHeld k s n) n := by
  induction k generalizing s with
  | zero => exact h
  | succ k ih =>
    rw [flushHeld]
    split
    next => exact h
    next r rs _ =>
      have taken_ : InError (setQueue s n { getQueue s n with held := rs }) n := inError_setQueue h.1 h.2
      have put := inError_putRecord taken_ r
      generalize putRecord (setQueue s n { getQueue s n with held := rs }) n r = u at put
      split
      · exact ih put
      · exact h

theorem flushQueueHeld_of_none (h : (getQueue s n).held = []) : flushQueueHeld s n = s := by
  rw [flushQueueHeld, h]
  rfl

/-! ## A doorbell word (R358, R361) -/

/-- A queue that a doorbell word has set. -/
def rung (Q : Queue) (w : BitVec 64) : Queue :=
  { Q with tail := BitVec.ofNat 32 w.toNat, cqHead := BitVec.ofNat 32 (w.toNat / 2 ^ 32) }

/-- Whether the rings can hold what a doorbell word shows. -/
def Shows (Q : Queue) (w : BitVec 64) : Prop :=
  ((rung Q w).tail - Q.head).toNat ≤ ringLen Q.sq ∧ (Q.cqTail - (rung Q w).cqHead).toNat ≤ ringLen Q.cq

theorem doorbellWord_fits {w : BitVec 64} (hk : keysRise s.cmd.queues = true) (hh : (getQueue s n).held = [])
    (hf : Shows (getQueue s n) w) :
    (doorbellWord s n w).cmd = (setQueue s n (rung (getQueue s n) w)).cmd ∧ (doorbellWord s n w).mem = s.mem ∧
    getQueue (doorbellWord s n w) n = rung (getQueue s n) w := by
  let s1 := setQueue s n (rung (getQueue s n) w)
  let s2 := if (rung (getQueue s n) w).tail = (rung (getQueue s n) w).head then s1 else wakeIfAsleep s1
  have woken : s2.cmd = s1.cmd ∧ s2.mem = s1.mem := by
    by_cases h : (rung (getQueue s n) w).tail = (rung (getQueue s n) w).head
    · rw [show s2 = s1 from if_pos h]
      exact ⟨rfl, rfl⟩
    · rw [show s2 = wakeIfAsleep s1 from if_neg h]
      exact ⟨cmd_eq (by simp), mem_eq (by simp)⟩
  have none_ : (getQueue s2 n).held = [] := by
    rw [getQueue_of_cmd woken.1, getQueue_setQueue_self hk]
    exact hh
  have goes : doorbellWord s n w = askDescs s2 n := by
    refine (if_neg ?_).trans (congrArg (askDescs · n) (flushQueueHeld_of_none none_))
    rw [not_or, Nat.not_lt, Nat.not_lt]
    exact hf
  have cmd : (askDescs s2 n).cmd = s2.cmd := cmd_eq (by simp)
  have mem : (askDescs s2 n).mem = s2.mem := mem_eq (by simp)
  rw [goes]
  exact ⟨cmd.trans woken.1, mem.trans woken.2, (getQueue_of_cmd (cmd.trans woken.1) n).trans (getQueue_setQueue_self hk)⟩

theorem doorbellWord_over {w : BitVec 64} (hk : keysRise s.cmd.queues = true) (hf : ¬ Shows (getQueue s n) w) :
    (getQueue (doorbellWord s n w) n).err = true ∧ ((getQueue s n).held = [] → (doorbellWord s n w).mem = s.mem) := by
  let s1 := setQueue s n (rung (getQueue s n) w)
  have rises : keysRise s1.cmd.queues = true := setQueue_queues_rise hk
  have goes : doorbellWord s n w = flushQueueHeld (queueError s1 n) n := by
    refine if_pos ?_
    rw [Shows, not_and_or, Nat.not_le, Nat.not_le] at hf
    exact hf
  rw [goes]
  refine ⟨(inError_flushHeld _ (inError_queueError rises)).2, fun hh => ?_⟩
  rw [flushQueueHeld_of_none (by rw [queueError_getQueue rises, getQueue_setQueue_self hk]; exact hh)]
  exact queueError_keeps s1 n .mem (by decide)

theorem fetchable_of_err {Q : Queue} (h : Q.err = true) : fetchable Q = 0 := by simp [fetchable, h]

end Sys2Proof.Laws
end

section
/-! PROOFS. Reads of doorbell words. -/

namespace Sys2Proof.Laws

open Sys2Proof Sys2Proof.Machine
set_option Elab.async false

variable {s t : State} {n : Nat} {p : HPort}

/-! ## DOORBELL_READ (R358, R361) -/

/-- The read of a queue's doorbell word is no longer in flight. -/
def unread (s : State) (n : Nat) : State := { s with cmd := { s.cmd with dbReads := s.cmd.dbReads.filter (· != n) } }

theorem unread_dbReads : (unread s n).cmd.dbReads.contains n = false := by
  rw [← Bool.not_eq_true, List.contains_iff_mem]
  exact fun h => absurd (List.mem_filter.1 h).2 (by simp)

theorem getQueue_unread (m : Nat) : getQueue (unread s n) m = getQueue s m := rfl

theorem low_word (w : BitVec 64) : BitVec.ofNat 32 w.toNat = w.setWidth 32 :=
  BitVec.eq_of_toNat_eq (by rw [BitVec.toNat_ofNat, BitVec.toNat_setWidth])

theorem high_word (w : BitVec 64) : BitVec.ofNat 32 (w.toNat / 2 ^ 32) = (w >>> 32).setWidth 32 :=
  BitVec.eq_of_toNat_eq (by
    rw [BitVec.toNat_ofNat, BitVec.toNat_setWidth, BitVec.toNat_ushiftRight, Nat.shiftRight_eq_div_pow])

section HostWord

variable (q : QueueId) (he : (getQueue s q.toNat).en = true) (ho : (getQueue s q.toNat).orphaned = false)

include he ho

/-- The word of a queue whose rings lie in its host's memory, once its read is in flight. -/
theorem doorbellRead_host (w : BitVec 64) (hr : s.cmd.dbReads.contains q.toNat = true)
    (hl : ringLoc (getQueue s q.toNat).sq = false) :
    exec (.doorbellRead q (some w)) s = .next (doorbellWord (unread s q.toNat) q.toNat w) := by
  show execDoorbellRead q (some w) s = _
  simp only [execDoorbellRead, he, ho, hr, hl, peerDoorbell]
  rfl

theorem doorbellRead_fits (hs : Sound s) (w : BitVec 64) (hr : s.cmd.dbReads.contains q.toNat = true)
    (hl : ringLoc (getQueue s q.toNat).sq = false) (hh : (getQueue s q.toNat).held = [])
    (hsq : (w.setWidth 32 - (getQueue s q.toNat).head).toNat ≤ ringLen (getQueue s q.toNat).sq)
    (hcq : ((getQueue s q.toNat).cqTail - (w >>> 32).setWidth 32).toNat ≤ ringLen (getQueue s q.toNat).cq) :
    Gives (.doorbellRead q (some w)) s fun t =>
      (getQueue t q.toNat).tail = w.setWidth 32 ∧ (getQueue t q.toNat).cqHead = (w >>> 32).setWidth 32 ∧
      (getQueue t q.toNat).err = (getQueue s q.toNat).err ∧ t.cmd.dbReads.contains q.toNat = false ∧ t.mem = s.mem := by
  have fits : Shows (getQueue (unread s q.toNat) q.toNat) w := by
    rw [← low_word] at hsq
    rw [← high_word] at hcq
    exact ⟨hsq, hcq⟩
  obtain ⟨cmd, mem, queue⟩ := doorbellWord_fits (s := unread s q.toNat) hs.queues hh fits
  refine ⟨_, doorbellRead_host q he ho w hr hl, ?_, ?_, ?_, ?_, mem⟩
  · rw [queue]; exact low_word w
  · rw [queue]; exact high_word w
  · rw [queue]; rfl
  · rw [cmd]; exact unread_dbReads

theorem doorbellRead_over (hs : Sound s) (w : BitVec 64) (hr : s.cmd.dbReads.contains q.toNat = true)
    (hl : ringLoc (getQueue s q.toNat).sq = false)
    (ho2 : ringLen (getQueue s q.toNat).sq < (w.setWidth 32 - (getQueue s q.toNat).head).toNat ∨
      ringLen (getQueue s q.toNat).cq < ((getQueue s q.toNat).cqTail - (w >>> 32).setWidth 32).toNat) :
    Gives (.doorbellRead q (some w)) s fun t =>
      (getQueue t q.toNat).err = true ∧ fetchable (getQueue t q.toNat) = 0 ∧
      ((getQueue s q.toNat).held = [] → t.mem = s.mem) := by
  have past : ¬ Shows (getQueue (unread s q.toNat) q.toNat) w := by
    rw [Shows, not_and_or, Nat.not_le, Nat.not_le]
    rw [← low_word, ← high_word] at ho2
    exact ho2
  obtain ⟨err, mem⟩ := doorbellWord_over (s := unread s q.toNat) hs.queues past
  exact ⟨_, doorbellRead_host q he ho w hr hl, err, fetchable_of_err err, mem⟩

end HostWord

/-! ## Words of module memory and of peers (R356) -/

theorem leNat_append (a b : Bytes) : leNat (a ++ b) = leNat a + 256 ^ a.length * leNat b := by
  induction a with
  | nil => simp [leNat]
  | cons x a ih => rw [List.cons_append, leNat, leNat, ih, List.length_cons, Nat.pow_succ, Nat.mul_add]; ring

/-- The doorbell word of eight bytes. -/
def wordOf (b : Bytes) : BitVec 64 := BitVec.ofNat 64 (leNat b)

theorem rung_wordOf (Q : Queue) {b : Bytes} (hb : b.length = 8) :
    (rung Q (wordOf b)).tail = BitVec.ofNat 32 (le b 0 4) ∧ (rung Q (wordOf b)).cqHead = BitVec.ofNat 32 (le b 4 4) := by
  have low : le b 0 4 < 2 ^ 32 := le_lt b 0 4
  have high : le b 4 4 < 2 ^ 32 := le_lt b 4 4
  have halves : leNat b = le b 0 4 + 2 ^ 32 * le b 4 4 := by
    have all : b = slice b 0 4 ++ slice b 4 4 := by
      rw [slice, slice, List.drop_zero, List.take_of_length_le (l := b.drop 4) (by rw [List.length_drop]; omega),
        List.take_append_drop]
    have first : (slice b 0 4).length = 4 := by rw [slice, List.length_take, List.length_drop]; omega
    conv_lhs => rw [all, leNat_append, first]
    rfl
  have whole : (wordOf b).toNat = leNat b := by rw [wordOf, BitVec.toNat_ofNat]; omega
  refine ⟨BitVec.eq_of_toNat_eq ?_, BitVec.eq_of_toNat_eq ?_⟩
  · show (BitVec.ofNat 32 (wordOf b).toNat).toNat = _
    rw [whole, BitVec.toNat_ofNat, BitVec.toNat_ofNat, halves]
    omega
  · show (BitVec.ofNat 32 ((wordOf b).toNat / 2 ^ 32)).toNat = _
    rw [whole, BitVec.toNat_ofNat, BitVec.toNat_ofNat, halves]
    omega

/-- What a queue takes of a word of eight bytes that its rings can hold. -/
theorem doorbellWord_takes {b : Bytes} (hk : keysRise s.cmd.queues = true) (hh : (getQueue s n).held = []) (hb : b.length = 8)
    (hf : (BitVec.ofNat 32 (le b 0 4) - (getQueue s n).head).toNat ≤ ringLen (getQueue s n).sq ∧
      ((getQueue s n).cqTail - BitVec.ofNat 32 (le b 4 4)).toNat ≤ ringLen (getQueue s n).cq) :
    let t := doorbellWord s n (wordOf b)
    ((getQueue t n).tail.toNat = le b 0 4 ∧ (getQueue t n).cqHead.toNat = le b 4 4 ∧ (getQueue t n).err = (getQueue s n).err ∧
      t.mem = s.mem) ∧ t.cmd.peerData = s.cmd.peerData := by
  obtain ⟨tail, cqHead⟩ := rung_wordOf (getQueue s n) hb
  have fits : Shows (getQueue s n) (wordOf b) := by rw [Shows, tail, cqHead]; exact hf
  obtain ⟨cmd, mem, queue⟩ := doorbellWord_fits hk hh fits
  refine ⟨⟨?_, ?_, ?_, mem⟩, by rw [cmd]; rfl⟩
  · rw [queue, tail, BitVec.toNat_ofNat]
    exact Nat.mod_eq_of_lt (le_lt b 0 4)
  · rw [queue, cqHead, BitVec.toNat_ofNat]
    exact Nat.mod_eq_of_lt (le_lt b 4 4)
  · rw [queue]; rfl

theorem memRead_length (m : Mem) (a n : Nat) : (memRead m a n).length = n := by simp [memRead]

theorem ringRead_dram {a len : Nat} {brought : Option (Option Bytes)} (hg : cmdGrants s false (gLocal a) len = true)
    (hd : region (gLocal a) = .dram) (hr : (read s .dram (gLocal a) len).err = none) :
    ringRead s a len brought = .got (memRead s.mem (gLocal a) len) := by
  have data : (read s .dram (gLocal a) len).data = memRead s.mem (gLocal a) len := by
    simp only [Machine.read] at hr ⊢
    split at hr
    next h => rw [if_pos h]
    next => exact absurd hr (by simp)
  rw [ringRead, if_neg (by rw [hg]; decide), if_neg (by rw [hd]; decide)]
  dsimp only
  rw [hr, data]

/-- What a read of a doorbell word in module memory does. -/
def takeWord (s : State) (n a : Nat) : RingRd → State
  | .denied => queueError (cmdDeny s false (gLocal a) 8) n
  | .got b => doorbellWord s n (wordOf b)
  | .gone => s
  | .bad _ => s

section ModuleWord

variable (q : QueueId) (w : Option (BitVec 64)) (hl : ringLoc (getQueue s q.toNat).sq = true)
  (he : (getQueue s q.toNat).en = true) (ho : (getQueue s q.toNat).orphaned = false)

include hl he ho

theorem doorbellRead_module (hp : peerDoorbell s (getQueue s q.toNat) = false) (hr : s.cmd.dbReads.contains q.toNat = true) :
    exec (.doorbellRead q w) s = .next (takeWord (unread s q.toNat) q.toNat (dbAddr (getQueue s q.toNat).db)
      (ringRead (unread s q.toNat) (dbAddr (getQueue s q.toNat).db) 8 (w.map (fun w => some (leBytes 8 w.toNat))))) := by
  show execDoorbellRead q w s = _
  simp only [execDoorbellRead, he, ho, hp, hr, hl, Bool.not_true, Bool.or_self, Bool.false_eq_true, if_false, if_true]
  split
  next h => rw [unread, h]; rfl
  next h => rw [unread, h]; rfl
  next h => rw [unread, h]; rfl
  next h => rw [unread, h]; rfl

theorem doorbellRead_denied (hs : Sound s) (hp : peerDoorbell s (getQueue s q.toNat) = false) (hr : s.cmd.dbReads.contains q.toNat = true)
    (hg : cmdGrants s false (gLocal (dbAddr (getQueue s q.toNat).db)) 8 = false) :
    Gives (.doorbellRead q w) s fun t => (getQueue t q.toNat).err = true ∧ t.mem = s.mem := by
  let a := dbAddr (getQueue s q.toNat).db
  have deny : ringRead (unread s q.toNat) a 8 (w.map (fun w => some (leBytes 8 w.toNat))) = .denied :=
    if_pos (by rw [show cmdGrants (unread s q.toNat) false (gLocal a) 8 = false from hg]; rfl)
  have cmd : (cmdDeny (unread s q.toNat) false (gLocal a) 8).cmd = (unread s q.toNat).cmd := cmdDeny_keeps _ _ _ _ .cmd (by decide)
  have mem : (cmdDeny (unread s q.toNat) false (gLocal a) 8).mem = s.mem := cmdDeny_keeps _ _ _ _ .mem (by decide)
  have rises : keysRise (cmdDeny (unread s q.toNat) false (gLocal a) 8).cmd.queues = true := by rw [cmd]; exact hs.queues
  refine ⟨_, doorbellRead_module q w hl he ho hp hr, ?_⟩
  rw [deny]
  exact ⟨by rw [takeWord, queueError_getQueue rises], (queueError_keeps _ q.toNat .mem (by decide)).trans mem⟩

theorem doorbellRead_granted (hp : peerDoorbell s (getQueue s q.toNat) = false) (hr : s.cmd.dbReads.contains q.toNat = true)
    (hg : cmdGrants s false (gLocal (dbAddr (getQueue s q.toNat).db)) 8 = true)
    (hd : region (gLocal (dbAddr (getQueue s q.toNat).db)) = .dram)
    (hb : (read s .dram (gLocal (dbAddr (getQueue s q.toNat).db)) 8).err = none) :
    exec (.doorbellRead q w) s =
      .next (doorbellWord (unread s q.toNat) q.toNat (wordOf (memRead s.mem (gLocal (dbAddr (getQueue s q.toNat).db)) 8))) := by
  rw [doorbellRead_module q w hl he ho hp hr, ringRead_dram (s := unread s q.toNat) hg hd hb]
  rfl

omit hl in
theorem doorbellRead_peer {b : PeerData} (hp : peerDoorbell s (getQueue s q.toNat) = true)
    (ht : (takePeer s q.toNat false).2 = some b) (hb : b.poison = 0) (h8 : b.data.length = 8) :
    exec (.doorbellRead q w) s = .next (doorbellWord (takePeer s q.toNat false).1 q.toNat (wordOf b.data)) := by
  show execDoorbellRead q w s = _
  simp only [execDoorbellRead, he, ho, hp, ht, hb, h8]
  rfl

end ModuleWord

end Sys2Proof.Laws
end

section
/-! PROOFS. A fetched descriptor is verified, kept or refused. -/

namespace Sys2Proof.Laws

open Sys2Proof Sys2Proof.Machine
set_option Elab.async false

variable {s t u : State} {n : Nat} {d : Bytes} {e : Status}

/-! ## What a posted record leaves of its queue -/

theorem postRecord_getQueue (r : Record) (h : keysRise s.cmd.queues = true) : ∃ ct ph er hl,
    getQueue (postRecord s n r) n = { getQueue s n with cqTail := ct, phase := ph, err := er, held := hl } := by
  cases hw : writesNow (getQueue s n) with
  | true =>
    rw [postRecord_of_writesNow hw]
    obtain ⟨er, he⟩ := putRecord_getQueue (n := n) r h
    exact ⟨_, _, er, _, he⟩
  | false =>
    rw [postRecord_of_not_writesNow hw]
    split
    · exact ⟨_, _, _, _, rfl⟩
    · exact ⟨_, _, _, _, getQueue_setQueue_self h⟩

/-! ## A descriptor is fetched (R362) -/

/-- A descriptor as it is fetched. -/
def newDesc (s : State) (n : Nat) (d : Bytes) : Fetched :=
  { uid := s.cmd.nextUid, index := (getQueue s n).head, desc := d, arrival := s.nowNs, started := false, payload := [] }

/-- The state in which a fetched descriptor is verified. -/
def fetching (s : State) (n : Nat) (d : Bytes) : State :=
  setQueue { s with cmd := { s.cmd with nextUid := s.cmd.nextUid + 1 } } n
    { getQueue s n with head := (getQueue s n).head + 1, fetched := (getQueue s n).fetched ++ [newDesc s n d] }

theorem fetching_rises (hk : keysRise s.cmd.queues = true) : keysRise (fetching s n d).cmd.queues = true :=
  setQueue_queues_rise (s := { s with cmd := { s.cmd with nextUid := s.cmd.nextUid + 1 } }) hk

theorem getQueue_fetching (hk : keysRise s.cmd.queues = true) : getQueue (fetching s n d) n =
    { getQueue s n with head := (getQueue s n).head + 1, fetched := (getQueue s n).fetched ++ [newDesc s n d] } :=
  getQueue_setQueue_self (s := { s with cmd := { s.cmd with nextUid := s.cmd.nextUid + 1 } }) hk

/-- A descriptor that passes every check, in the state that its verification leaves. -/
def keepDesc (s : State) (n uid : Nat) (payload : Bytes) : State :=
  setQueue s n { getQueue s n with
    fetched := (getQueue s n).fetched.map (fun g => if g.uid = uid then { g with payload } else g) }

theorem takeDesc_ok (s : State) (n : Nat) (d : Bytes) : takeDesc n s (.ok d) =
    let v := verifyDesc (fetching s n d) n d
    (v.2.1 <|> descCheck (getQueue s n) d).elim (keepDesc v.1 n s.cmd.nextUid v.2.2) (refuseFetched v.1 n (newDesc s n d)) := by
  have whole : takeDesc n s (.ok d) =
      let v := verifyDesc (fetching s n d) n d
      match v.2.1 with
      | some e => refuseFetched v.1 n (newDesc s n d) e
      | none => match descCheck (getQueue s n) d with
        | some e => refuseFetched v.1 n (newDesc s n d) e
        | none => keepDesc v.1 n s.cmd.nextUid v.2.2 := rfl
  rw [whole]
  dsimp only
  cases (verifyDesc (fetching s n d) n d).2.1 with
  | some e => rfl
  | none => cases descCheck (getQueue s n) d <;> rfl

theorem takeDesc_refused (hv : (verifyDesc (fetching s n d) n d).2.1 = some e) :
    takeDesc n s (.ok d) = refuseFetched (verifyDesc (fetching s n d) n d).1 n (newDesc s n d) e := by
  rw [takeDesc_ok]
  dsimp only
  rw [hv]
  rfl

theorem takeDesc_kept (hv : (verifyDesc (fetching s n d) n d).2.1 = none) (hc : descCheck (getQueue s n) d = none) :
    takeDesc n s (.ok d) =
      keepDesc (verifyDesc (fetching s n d) n d).1 n s.cmd.nextUid (verifyDesc (fetching s n d) n d).2.2 := by
  rw [takeDesc_ok]
  dsimp only
  rw [hv, hc]
  rfl

theorem map_desc_keep (l : List Fetched) (uid : Nat) (payload : Bytes) :
    (l.map (fun g : Fetched => if g.uid = uid then { g with payload } else g)).map (·.desc) = l.map (·.desc) := by
  rw [List.map_map]
  refine List.map_congr_left fun g _ => ?_
  show (if g.uid = uid then { g with payload } else g : Fetched).desc = g.desc
  split <;> rfl

/-- What a queue holds once a descriptor has passed every check. -/
theorem takeDesc_keeps (hk : keysRise s.cmd.queues = true) (hv : (verifyDesc (fetching s n d) n d).2.1 = none)
    (hc : descCheck (getQueue s n) d = none) (hcmd : (verifyDesc (fetching s n d) n d).1.cmd = (fetching s n d).cmd) :
    let t := takeDesc n s (.ok d)
    (getQueue t n).head = (getQueue s n).head + 1 ∧
    (getQueue t n).fetched.map (·.desc) = (getQueue s n).fetched.map (·.desc) ++ [d] ∧
    t.cmd.completed = s.cmd.completed ∧ t.mem = (verifyDesc (fetching s n d) n d).1.mem ∧
    t.sec = (verifyDesc (fetching s n d) n d).1.sec := by
  intro t
  show (getQueue (takeDesc n s (.ok d)) n).head = _ ∧ (getQueue (takeDesc n s (.ok d)) n).fetched.map (·.desc) = _ ∧
    (takeDesc n s (.ok d)).cmd.completed = _ ∧ (takeDesc n s (.ok d)).mem = _ ∧ (takeDesc n s (.ok d)).sec = _
  rw [takeDesc_kept hv hc]
  generalize (verifyDesc (fetching s n d) n d).1 = v at hcmd ⊢
  generalize (verifyDesc (fetching s n d) n d).2.2 = payload
  have before := (getQueue_of_cmd hcmd n).trans (getQueue_fetching hk)
  have queue : getQueue (keepDesc v n s.cmd.nextUid payload) n = { getQueue v n with
      fetched := (getQueue v n).fetched.map (fun g => if g.uid = s.cmd.nextUid then { g with payload } else g) } :=
    getQueue_setQueue_self (by rw [hcmd]; exact fetching_rises hk)
  refine ⟨?_, ?_, ?_, rfl, rfl⟩
  · rw [queue, before]
  · rw [queue, map_desc_keep, before, List.map_append]
    rfl
  · show v.cmd.completed = _
    rw [hcmd]
    rfl

/-! ## Verification (R508 to R510) -/

theorem verifyDesc_plain (hd : dsKeyed d = false) (hn : keyNeed (dsOp d) = 0) : verifyDesc s n d = (s, none, []) := by
  simp only [verifyDesc, hd, hn, Bool.not_false, if_true]

theorem verifyDesc_unkeyed (hd : dsKeyed d = false) (hn : keyNeed (dsOp d) ≠ 0) :
    verifyDesc s n d = (keyFailure s n .keyFail, some .keyFail, []) := by
  simp only [verifyDesc, hd, hn, Bool.not_false, if_true, if_false]

theorem keyOf_root {k : Bytes} (hr : s.sec.rootKey = some k) (ht : descTag k n d [] = dsTag d) :
    keyOf s (fun key => descTag key n d []) (dsTag d) = 2 := by
  simp only [keyOf, hr, ht, if_true]

theorem keyNeed_le (op : Nat) : keyNeed op ≤ 2 := by
  unfold keyNeed
  split <;> decide

section Keyed

variable (hd : dsKeyed d = true) (ho : dsOp d ≠ 0x0105)

include hd ho

theorem verifyDesc_noKey (hr : s.sec.rootKey = none) (hp : s.sec.opKey = none) :
    verifyDesc s n d = (keyFailure s n .keyFail, some .keyFail, []) := by
  simp only [verifyDesc, hd, if_neg ho, keyOf, hr, hp]
  rfl

theorem verifyDesc_stale {k : Bytes} (hr : s.sec.rootKey = some k) (ht : descTag k n d [] = dsTag d)
    (hc : dsCounter d ≤ (smGet 0 s.sec.qctr n).toNat) :
    verifyDesc s n d = (keyFailure s n .counterStale, some .counterStale, []) := by
  simp only [verifyDesc, hd, if_neg ho, keyOf_root hr ht, if_pos hc]
  rfl

theorem verifyDesc_fresh {k : Bytes} (hr : s.sec.rootKey = some k) (ht : descTag k n d [] = dsTag d)
    (hc : (smGet 0 s.sec.qctr n).toNat < dsCounter d) :
    verifyDesc s n d =
      ({ s with sec := { s.sec with qctr := smSet 0 s.sec.qctr n (BitVec.ofNat 64 (dsCounter d)) } }, none, []) := by
  simp only [verifyDesc, hd, if_neg ho, keyOf_root hr ht, if_neg (Nat.not_le.2 hc),
    if_neg (Nat.not_lt.2 (keyNeed_le (dsOp d)))]
  rfl

end Keyed

/-! ## A descriptor that is refused as it is fetched -/

theorem keyFailure_cmd (st : Status) : (keyFailure s n st).cmd = s.cmd := cmd_eq (by simp)

theorem keyFailure_mem (st : Status) : (keyFailure s n st).mem = s.mem := mem_eq (by simp)

theorem keyFailure_sec (st : Status) : (keyFailure s n st).sec = if st = .counterStale then
    { s.sec with stale := satAdd s.sec.stale 1 } else { s.sec with keyFails := satAdd s.sec.keyFails 1 } :=
  raiseEvent_keeps _ st 3 n [] .sec (by decide)

theorem keyFailure_nowNs (st : Status) : (keyFailure s n st).nowNs = s.nowNs :=
  raiseEvent_keeps _ st 3 n [] .nowNs (by decide)

/-- What is seen of a descriptor that is refused in a state with the queues of its fetch. -/
theorem refuseFetched_gives {v : State} (hk : keysRise s.cmd.queues = true) (hc : v.cmd = (fetching s n d).cmd)
    (hm : v.mem = s.mem) (hw : Memory.wf s.mem = true) (hn : v.nowNs = s.nowNs)
    (hu : (getQueue s n).fetched.all (fun g => g.uid != s.cmd.nextUid) = true) (st : Status) :
    let t := refuseFetched v n (newDesc s n d) st
    (getQueue t n).head = (getQueue s n).head + 1 ∧ (getQueue t n).fetched = (getQueue s n).fetched ∧
    t.cmd.rejected = satAdd s.cmd.rejected 1 ∧ t.sec = v.sec ∧
    Reports s t n (plainRecord s { newDesc s n d with started := true } st) := by
  intro t
  let f : Fetched := { newDesc s n d with started := true }
  have rises : keysRise v.cmd.queues = true := by rw [hc]; exact fetching_rises hk
  have before : getQueue v n = _ := (getQueue_of_cmd hc n).trans (getQueue_fetching hk)
  have left : (getQueue v n).fetched.filter (·.uid != f.uid) = (getQueue s n).fetched := by
    have old : (getQueue s n).fetched.filter (fun g => g.uid != f.uid) = (getQueue s n).fetched :=
      List.filter_eq_self.2 fun g hg => List.all_eq_true.1 hu g hg
    have new : [newDesc s n d].filter (fun g => g.uid != f.uid) = [] := by simp [newDesc, f]
    rw [before, List.filter_append, old, new, List.append_nil]
  have goes : t = postRecord (taken v n f false) n (plainRecord v f st) := completeFull_eq ..
  have record : plainRecord v f st = plainRecord s f st := by rw [plainRecord, plainRecord, hn]
  obtain ⟨ct, ph, er, hl, queue⟩ := postRecord_getQueue (plainRecord v f st) (taken_queues_rise (n := n) (f := f) rises false)
  rw [← goes, taken_getQueue_self rises, left, before] at queue
  have answered := answered_completeFull (n := n) (f := f) rises (by rw [hm]; exact hw) st false false 0 false
  refine ⟨by rw [queue], by rw [queue], ?_, refuseDesc_sec (f := f) st, ?_⟩
  · refine answered.rejected.trans ?_
    rw [hc]
    rfl
  · have reports := reports_taken rises (reports_postRecord (taken_queues_rise (n := n) (f := f) rises false) (plainRecord v f st))
    rw [← goes, record] at reports
    obtain ⟨ring, held⟩ := reports
    rw [before] at ring held
    exact ⟨ring, held⟩

end Sys2Proof.Laws
end

section
/-! PROOFS. Doorbells and descriptor fetch (O13). -/

namespace Sys2Proof.Laws

open Sys2Proof Sys2Proof.Machine
set_option Elab.async false

variable {s t : State} {n : Nat} {d : Bytes}

/-! ## DESCRIPTOR_FETCH (R356, R362) -/

section Fetch

variable (q : QueueId) (hq : quiescing s = false) (hr : cmdReady s = true)

include hq hr

/-- One descriptor of a ring in host memory comes with the command. -/
theorem descriptorFetch_host (hf : 0 < fetchable (getQueue s q.toNat)) (hl : ringLoc (getQueue s q.toNat).sq = false)
    (h64 : d.length = 64) : exec (.descriptorFetch q [some d]) s = .next (takeDesc q.toNat s (.ok d)) := by
  have some_ : fetchable (getQueue s q.toNat) ≠ 0 := Nat.pos_iff_ne_zero.1 hf
  have one : [some d].take (fetchable (getQueue s q.toNat)) = [some d] := List.take_of_length_le hf
  show execDescriptorFetch q [some d] s = _
  simp only [execDescriptorFetch, hq, hr, hl, peerRing, Bool.not_true, Bool.or_self, Bool.false_and, Bool.false_eq_true, if_false,
    some_, one, List.map_cons, List.map_nil, broughtRd, h64]
  rfl

/-- The one descriptor that a queue may fetch from a ring in module memory. -/
theorem descriptorFetch_module (hf : fetchable (getQueue s q.toNat) = 1) (hl : ringLoc (getQueue s q.toNat).sq = true)
    (hp : peerRing s (getQueue s q.toNat) = false)
    (ha : ringRead s (ringBase (getQueue s q.toNat).sq +
      64 * ((getQueue s q.toNat).head.toNat % ringLen (getQueue s q.toNat).sq)) 64 none = .got d) :
    exec (.descriptorFetch q []) s = .next (takeDesc q.toNat s (.ok d)) := by
  have one : List.range 1 = [0] := rfl
  show execDescriptorFetch q [] s = _
  simp only [execDescriptorFetch, hq, hr, hl, hp, hf, Bool.not_true, Bool.or_self, Bool.false_eq_true, if_false,
    Nat.one_ne_zero, one, List.map_cons, List.map_nil, Nat.add_zero, List.getElem?_nil, ha]
  rfl

/-- What a peer has sent of its ring. -/
theorem descriptorFetch_peer (hf : fetchable (getQueue s q.toNat) = 1) (hp : peerRing s (getQueue s q.toNat) = true)
    {b : PeerData} (hb : (takePeer s q.toNat true).2 = some b) (h0 : b.poison = 0) (h64 : b.data.length = 64) :
    exec (.descriptorFetch q []) s =
      .next (askDescs (takeDesc q.toNat (takePeer s q.toNat true).1 (.ok b.data)) q.toNat) := by
  have one : peerDescs b = [.got b.data] := by
    have first : (b.data.drop (64 * 0)).take 64 = b.data := by
      rw [Nat.mul_zero, List.drop_zero, List.take_of_length_le (Nat.le_of_eq h64)]
    have clean : bit b.poison 0 = false := by rw [h0]; rfl
    rw [peerDescs, h64]
    show [if bit b.poison 0 = true then RingRd.bad .poisoned else .got ((b.data.drop (64 * 0)).take 64)] = _
    rw [clean, first]
    rfl
  show execDescriptorFetch q [] s = _
  simp only [execDescriptorFetch, hq, hr, hp, hf, hb, Bool.not_true, Bool.or_self, Bool.false_eq_true, if_false,
    Nat.one_ne_zero, one]
  rfl

/-- What a peer's ring holds is asked for. -/
theorem descriptorFetch_asks (hf : fetchable (getQueue s q.toNat) = 1) (hp : peerRing s (getQueue s q.toNat) = true)
    (hn : (takePeer s q.toNat true).2 = none) (hb : peerBusy s q.toNat true = false) :
    exec (.descriptorFetch q []) s = .next (askPeer s q.toNat true (ringBase (getQueue s q.toNat).sq +
      64 * ((getQueue s q.toNat).head.toNat % ringLen (getQueue s q.toNat).sq)) 64) := by
  have room : (getQueue s q.toNat).head.toNat % ringLen (getQueue s q.toNat).sq < ringLen (getQueue s q.toNat).sq :=
    Nat.mod_lt _ (Nat.two_pow_pos _)
  have one : min 1 (ringLen (getQueue s q.toNat).sq -
      (getQueue s q.toNat).head.toNat % ringLen (getQueue s q.toNat).sq) = 1 := by omega
  have asks : askDescs s q.toNat = askPeer s q.toNat true (ringBase (getQueue s q.toNat).sq +
      64 * ((getQueue s q.toNat).head.toNat % ringLen (getQueue s q.toNat).sq)) 64 := by
    simp only [askDescs, hf, one, hp, hb]
    rfl
  show execDescriptorFetch q [] s = _
  simp only [execDescriptorFetch, hq, hr, hp, hf, hn, Bool.not_true, Bool.or_self, Bool.false_eq_true, if_false,
    Nat.one_ne_zero, asks]
  rfl

end Fetch

/-! ## Descriptors that pass -/

/-- An unkeyed descriptor of an opcode that needs no key, and that passes its check. -/
theorem takeDesc_plain (hk : keysRise s.cmd.queues = true) (hd : dsKeyed d = false) (hn : keyNeed (dsOp d) = 0)
    (hc : descCheck (getQueue s n) d = none) :
    let t := takeDesc n s (.ok d)
    (getQueue t n).head = (getQueue s n).head + 1 ∧
    (getQueue t n).fetched.map (·.desc) = (getQueue s n).fetched.map (·.desc) ++ [d] ∧
    t.mem = s.mem ∧ t.cmd.completed = s.cmd.completed := by
  have pass := verifyDesc_plain (s := fetching s n d) (n := n) hd hn
  obtain ⟨head, fetched, completed, mem, -⟩ := takeDesc_keeps hk (by rw [pass]) hc (by rw [pass])
  rw [pass] at mem
  exact ⟨head, fetched, mem, completed⟩

/-- A refused descriptor, for the failure that its verification found. -/
theorem takeDesc_fails (hs : Sound s) {e : Status} (hu : (getQueue s n).fetched.all (fun g => g.uid != s.cmd.nextUid) = true)
    (hv : verifyDesc (fetching s n d) n d = (keyFailure (fetching s n d) n e, some e, [])) :
    let t := takeDesc n s (.ok d)
    ((getQueue t n).head = (getQueue s n).head + 1 ∧ (getQueue t n).fetched = (getQueue s n).fetched ∧
      t.cmd.rejected = satAdd s.cmd.rejected 1 ∧ t.sec.qctr = s.sec.qctr ∧
      Reports s t n (plainRecord s { newDesc s n d with started := true } e)) ∧
    (e = .keyFail → t.sec.keyFails = satAdd s.sec.keyFails 1) ∧ (e = .counterStale → t.sec.stale = satAdd s.sec.stale 1) := by
  have goes := takeDesc_refused (s := s) (n := n) (d := d) (e := e) (by rw [hv])
  rw [hv] at goes
  obtain ⟨head, fetched, rejected, sec, reports⟩ := refuseFetched_gives (d := d) (v := keyFailure (fetching s n d) n e)
    hs.queues (keyFailure_cmd e) (keyFailure_mem e) hs.mem (keyFailure_nowNs e) hu e
  have kept : (fetching s n d).sec = s.sec := rfl
  have failed := keyFailure_sec (s := fetching s n d) (n := n) e
  rw [kept] at failed
  dsimp only at goes ⊢
  rw [goes]
  refine ⟨⟨head, fetched, rejected, ?_, reports⟩, fun he => ?_, fun he => ?_⟩
  · rw [sec, failed]
    split <;> rfl
  · rw [sec, failed, he, if_neg (by decide)]
  · rw [sec, failed, he, if_pos rfl]

/-- A keyed descriptor whose counter is above that of its queue. -/
theorem takeDesc_fresh (hs : Sound s) (hd : dsKeyed d = true) (ho : dsOp d ≠ 0x0105) {k : Bytes} (hr : s.sec.rootKey = some k)
    (ht : descTag k n d [] = dsTag d) (hc : (smGet 0 s.sec.qctr n).toNat < dsCounter d) (hp : descCheck (getQueue s n) d = none) :
    let t := takeDesc n s (.ok d)
    (smGet 0 t.sec.qctr n).toNat = dsCounter d ∧ (∀ j, j ≠ n → smGet 0 t.sec.qctr j = smGet 0 s.sec.qctr j) ∧
    (getQueue t n).head = (getQueue s n).head + 1 ∧ t.mem = s.mem ∧
    (getQueue t n).fetched.map (·.desc) = (getQueue s n).fetched.map (·.desc) ++ [d] := by
  have pass := verifyDesc_fresh (s := fetching s n d) (n := n) hd ho hr ht hc
  obtain ⟨head, fetched, -, mem, sec⟩ := takeDesc_keeps hs.queues (by rw [pass]) hp (by rw [pass])
  rw [pass] at mem sec
  have counters : (takeDesc n s (.ok d)).sec.qctr = smSet 0 s.sec.qctr n (BitVec.ofNat 64 (dsCounter d)) := by rw [sec]; rfl
  dsimp only
  refine ⟨?_, fun j hj => ?_, head, mem, fetched⟩
  · rw [counters, get_set_self hs.qctr, BitVec.toNat_ofNat]
    exact Nat.mod_eq_of_lt (le_lt d 8 8)
  · rw [counters, get_set_other hs.qctr hj]

/-- What a peer has brought is no longer there once it has been taken. -/
theorem takePeer_takes {desc : Bool} (h : t.cmd.peerData = (takePeer s n desc).1.cmd.peerData) : (takePeer t n desc).2 = none := by
  show t.cmd.peerData.find? (fun x => x.queue == n && x.desc == desc) = none
  rw [h, List.find?_eq_none]
  intro x hx
  have other := (List.mem_filter.1 hx).2
  rw [Bool.not_eq_true'] at other
  exact fun mine => Bool.noConfusion (other.symm.trans mine)

section Words

variable (q : QueueId) (hs : Sound s) (hl : ringLoc (getQueue s q.toNat).sq = true) (he : (getQueue s q.toNat).en = true)
  (ho : (getQueue s q.toNat).orphaned = false) (hh : (getQueue s q.toNat).held = [])

include hs hl he ho hh

/-- R356: doorbell words of a loc = 1 queue. -/
theorem doorbellRead_words (w : Option (BitVec 64)) :
    let n := q.toNat
    let Q := getQueue s n
    let a := dbAddr Q.db
    let took := fun (t : State) (w : Bytes) => (getQueue t n).tail.toNat = le w 0 4 ∧ (getQueue t n).cqHead.toNat = le w 4 4 ∧
      (getQueue t n).err = Q.err ∧ t.mem = s.mem
    let fits := fun (w : Bytes) => (BitVec.ofNat 32 (le w 0 4) - Q.head).toNat ≤ ringLen Q.sq ∧
      (Q.cqTail - BitVec.ofNat 32 (le w 4 4)).toNat ≤ ringLen Q.cq
    (peerDoorbell s Q = false → s.cmd.dbReads.contains n = true →
      cmdGrants s false (gLocal a) 8 = true → region (gLocal a) = .dram → (read s .dram (gLocal a) 8).err = none →
        fits (memRead s.mem (gLocal a) 8) → Gives (.doorbellRead q w) s fun t => took t (memRead s.mem (gLocal a) 8)) ∧
    (∀ b : PeerData, peerDoorbell s Q = true → (takePeer s n false).2 = some b → b.poison = 0 → b.data.length = 8 →
      fits b.data → Gives (.doorbellRead q w) s fun t => took t b.data ∧ (takePeer t n false).2 = none) := by
  intro n Q a took fits
  refine ⟨fun hp hr hg hd hb hf => ?_, fun b hp ht hb h8 hf => ?_⟩
  · obtain ⟨takes, -⟩ := doorbellWord_takes (s := unread s n) (n := n) hs.queues hh (memRead_length s.mem (gLocal a) 8) hf
    exact ⟨_, doorbellRead_granted q w hl he ho hp hr hg hd hb, takes⟩
  · obtain ⟨takes, kept⟩ := doorbellWord_takes (s := (takePeer s n false).1) (n := n) hs.queues hh h8 hf
    exact ⟨_, doorbellRead_peer q w he ho hp ht hb h8, takes, takePeer_takes kept⟩

end Words

section Rings

variable (q : QueueId) (hs : Sound s) (hl : ringLoc (getQueue s q.toNat).sq = true) (hq : quiescing s = false)
  (hr : cmdReady s = true) (hf : fetchable (getQueue s q.toNat) = 1)

include hs hl hq hr hf

/-- R356: descriptors of a loc = 1 queue. -/
theorem descriptorFetch_rings :
    let n := q.toNat
    let Q := getQueue s n
    let at_ := ringBase Q.sq + 64 * (Q.head.toNat % ringLen Q.sq)
    let fetched := fun (t : State) (d : Bytes) => (getQueue t n).head = Q.head + 1 ∧ t.mem = s.mem ∧
      (getQueue t n).fetched.map (·.desc) = Q.fetched.map (·.desc) ++ [d]
    let plain := fun (d : Bytes) => d.length = 64 ∧ dsKeyed d = false ∧ keyNeed (dsOp d) = 0 ∧ descCheck Q d = none
    (peerRing s Q = false → cmdGrants s false (gLocal at_) 64 = true → region (gLocal at_) = .dram →
      (read s .dram (gLocal at_) 64).err = none → plain (memRead s.mem (gLocal at_) 64) →
      Gives (.descriptorFetch q []) s fun t => fetched t (memRead s.mem (gLocal at_) 64)) ∧
    (∀ b : PeerData, peerRing s Q = true → (takePeer s n true).2 = some b → b.poison = 0 → plain b.data →
      Gives (.descriptorFetch q []) s fun t => fetched t b.data) ∧
    (∀ f dl, peerRing s Q = true → (takePeer s n true).2 = none → peerBusy s n true = false → FabIdle s →
      WayOut s (gNode at_) 0 0 true f dl → Gives (.descriptorFetch q []) s fun t =>
        t.mem = s.mem ∧ leftFor t f 1 at_ fun x => pkPlen x = 64) := by
  intro n Q at_ fetched plain
  refine ⟨fun hp hg hd hb hpl => ?_, fun b hp ht hb hpl => ?_, fun f dl hp ht hb hi hw => ?_⟩
  · obtain ⟨-, key, need, check⟩ := hpl
    obtain ⟨head, descs, mem, -⟩ := takeDesc_plain (s := s) (n := n) hs.queues key need check
    exact ⟨_, descriptorFetch_module q hq hr hf hl hp (ringRead_dram hg hd hb), head, mem, descs⟩
  · obtain ⟨h64, key, need, check⟩ := hpl
    obtain ⟨head, descs, mem, -⟩ := takeDesc_plain (s := (takePeer s n true).1) (n := n) hs.queues key need check
    generalize hu : takeDesc n (takePeer s n true).1 (.ok b.data) = u at head descs mem
    have goes := descriptorFetch_peer q hq hr hf hp ht hb h64
    rw [hu] at goes
    have same : (askDescs u n).cmd = u.cmd := cmd_eq (by simp)
    have still : (askDescs u n).mem = u.mem := mem_eq (by simp)
    refine ⟨_, goes, ?_, still.trans mem, ?_⟩
    · rw [getQueue_of_cmd same]; exact head
    · rw [getQueue_of_cmd same]; exact descs
  · exact ⟨_, descriptorFetch_asks q hq hr hf hp ht hb, mem_eq (by simp), askPeer_leaves hs.ports hi hw n true (by decide)⟩

end Rings

/-- Settles O13. -/
theorem doorbellsAndFetch : Obligations.DoorbellsAndFetch := by
  unfold Obligations.DoorbellsAndFetch
  refine ⟨fun s hs => ⟨?_, ?_, ?_, ?_⟩, ?_, ?_, ?_⟩
  · intro p q hp he ho hen hor a
    exact ⟨fun hn hr => cmdWake_near hp he q ho hen hor hn hr,
      fun f dl hn hb hi hw => cmdWake_far hs hp he q ho hen hor hn hb hi hw⟩
  · exact fun hd => doorbellPoll_gives hd
  · intro q w hr he ho hl hh Q hsq hcq
    exact doorbellRead_fits q he ho hs w hr hl hh hsq hcq
  · intro q d hq hr hf hl h64 key need check
    obtain ⟨head, descs, mem, completed⟩ := takeDesc_plain (s := s) (n := q.toNat) hs.queues key need check
    exact ⟨_, descriptorFetch_host q hq hr hf hl h64, head, descs, mem, completed⟩
  · exact fun q w s hs hr he ho hl hpast => doorbellRead_over q he ho hs w hr hl hpast
  · intro q s hs n Q a at_ took fits fetched plain hl he ho hh
    refine ⟨fun w hp hr => ⟨?_, ?_⟩, fun w b => (doorbellRead_words q hs hl he ho hh w).2 b, fun hq hr hf => ?_⟩
    · exact doorbellRead_denied q w hl he ho hs hp hr
    · exact (doorbellRead_words q hs hl he ho hh w).1 hp hr
    · exact descriptorFetch_rings q hs hl hq hr hf
  · intro q d s hs hq hr hf hl h64 n Q f refused
    have goes := descriptorFetch_host (d := d) q hq hr hf hl h64
    refine ⟨fun key need hu => ?_, fun key op hu => ⟨fun hroot hop => ?_, fun k hroot tag => ⟨fun hc => ?_, fun hc check => ?_⟩⟩⟩
    · obtain ⟨given, fails, -⟩ := takeDesc_fails hs hu (verifyDesc_unkeyed key need)
      exact ⟨_, goes, given, fails rfl⟩
    · obtain ⟨given, fails, -⟩ := takeDesc_fails hs hu (verifyDesc_noKey key op hroot hop)
      exact ⟨_, goes, given, fails rfl⟩
    · obtain ⟨given, -, stale⟩ := takeDesc_fails hs hu (verifyDesc_stale key op hroot tag hc)
      exact ⟨_, goes, given, stale rfl⟩
    · exact ⟨_, goes, takeDesc_fresh hs key op hroot tag hc check⟩

end Sys2Proof.Laws
end

section
/-! PROOFS. MERIDIAN_ROLLBACK beside a gradient over the slot table (O18). -/

namespace Sys2Proof.Laws

open Sys2Proof Sys2Proof.Machine
set_option Elab.async false

/-! ## A rollback whose gradient lies over the slot table (R290) -/

/-- The slot table at 0x40000, and tensor 1 with one contribution. -/
def tableState : State :=
  { State.reset with
    mr := { MemRegs.reset with memCfg := 0x00400000 }
    trn := { State.reset.trn with slotBase := 0x40001 }
    mem := memWrite State.reset.mem 0x40034 [1] false }

/-- A record of tensor 1: one row of 32 gradient elements at 0x3FFF6, so that the row's scale byte is byte 22 of the tensor's
entry, which holds its frozen flag. -/
def gradOverTable : MuuRec :=
  { tensor := 1, rows := 1, cols := 32, rot := 0, owner := false, noDiv := false, cs := false, clipEn := false
    trustEn := false, rotId := 0, rotEpoch := 0, clip := 0, trust := 0, lr := 0, wd := 0, state0 := 0, state1 := 0, cc0 := 0
    cc1 := 0, grad := 0x3FFF6, cfac := 0, tau := 0, nUsed := 0, tflags := 0 }

theorem sound_tableState : Sound tableState :=
  sound_of_checks (by decide +kernel) rfl rfl rfl rfl

/-- Zeroing the gradient writes the scale 0x7F into the entry, and with it the frozen flag. -/
theorem rollback_freezes : (getSlot (rollEntry [gradOverTable] tableState 1) 1).frozen = true := by decide +kernel

/-- Refutes O18: the clause on one tensor entry holds for every list of update records, also where a record's gradient lies
over the slot table. `gradOverTable` is such a record: zeroing its gradient writes a scale of 0x7F over byte 22 of the entry, of
which a rollback then writes its own four bits only, and the entry is frozen and breaks its layout. -/
theorem not_commitCopyAndReassign : ¬ Obligations.CommitCopyAndReassign := by
  unfold Obligations.CommitCopyAndReassign
  intro h
  have entry := h.2.1.1 [gradOverTable] tableState 1 sound_tableState (by decide +kernel) (by decide +kernel) (by decide +kernel)
  have kept : (getSlot (rollEntry [gradOverTable] tableState 1) 1).frozen = (getSlot tableState 1).frozen := by rw [entry]
  rw [rollback_freezes] at kept
  exact absurd kept (by decide +kernel)

end Sys2Proof.Laws
end

section
/-! PROOFS. Streams, phases, counters and op lists after a change. -/

namespace Sys2Proof.Laws

open Sys2Proof Sys2Proof.Machine
set_option Elab.async false

variable {s t : State} {n id p : Nat}

/-! ## Streams and phases after a change -/

theorem getStream_of_map {g : Nat → StreamRun → StreamRun}
    (h : t.cmd.streams = s.cmd.streams.map (fun p => (p.1, g p.1 p.2))) (id : Nat) :
    getStream t id = (getStream s id).map (g id) := by
  rw [getStream, getStream, h, List.find?_map]
  show ((s.cmd.streams.find? (fun p => p.1 == id)).map _).map _ = _
  cases hf : s.cmd.streams.find? (fun p => p.1 == id) with
  | none => rfl
  | some q =>
    have key : q.1 = id := by simpa using List.find?_some hf
    simp only [Option.map_some, key]

/-- A change of one stream, as a change of each. -/
def atStream (i : Nat) (f : StreamRun → StreamRun) (k : Nat) (r : StreamRun) : StreamRun := if k = i then f r else r

theorem modStream_streams (s : State) (i : Nat) (f : StreamRun → StreamRun) :
    (modStream s i f).cmd.streams = s.cmd.streams.map (fun p => (p.1, atStream i f p.1 p.2)) := by
  refine List.map_congr_left fun q _ => ?_
  simp only [atStream]
  split <;> rfl

theorem getStream_modStream_self (f : StreamRun → StreamRun) :
    getStream (modStream s id f) id = (getStream s id).map f := by
  rw [getStream_of_map (modStream_streams s id f) id, show atStream id f id = f from funext fun r => if_pos rfl]

theorem getStream_modStream_other {i : Nat} (f : StreamRun → StreamRun) (h : id ≠ i) :
    getStream (modStream s i f) id = getStream s id := by
  rw [getStream_of_map (modStream_streams s i f) id, show atStream i f id = fun r => r from funext fun r => if_neg h]
  exact congrFun Option.map_id _

/-- A change of the runs of one phase that keeps its number. -/
theorem getPhase_modPhase_self {f : PhaseRun → PhaseRun} (hf : ∀ x, (f x).num = x.num) :
    getPhase (modPhase s id p f) id p = (getPhase s id p).map f := by
  rw [getPhase, getPhase, modPhase, getStream_modStream_self]
  cases getStream s id with
  | none => rfl
  | some r =>
    show (r.running.map (fun x => if x.num = p then f x else x)).find? (·.num == p) = (r.running.find? (·.num == p)).map f
    have same : ((fun x : PhaseRun => x.num == p) ∘ fun x => if x.num = p then f x else x) = fun x => x.num == p := by
      funext x
      simp only [Function.comp_apply]
      split
      next h => rw [hf, h]
      next => rfl
    rw [List.find?_map, same]
    cases hx : r.running.find? (·.num == p) with
    | none => rfl
    | some x =>
      have num : x.num = p := by simpa using List.find?_some hx
      simp only [Option.map_some, if_pos num]

theorem noteStatus_ioNext {st : Status} {x : PhaseRun} (h : getPhase (noteStatus s id p st) id p = some x) :
    ∃ y, getPhase s id p = some y ∧ x.ioNext = y.ioNext := by
  rw [noteStatus, getPhase_modPhase_self (fun y => by (repeat' split) <;> rfl)] at h
  obtain ⟨y, found, rfl⟩ := Option.map_eq_some_iff.1 h
  refine ⟨y, found, ?_⟩
  (repeat' split) <;> rfl

/-! ## Counters (R390, R391) -/

theorem bumpCounter_counter (hk : keysRise s.cmd.counters = true) (c k : Nat) :
    counter (bumpCounter s c) k = if k = c then counter s k + 1 else counter s k := by
  show counter (setCounter s c (counter s c + 1)) k = _
  split
  next h => rw [h, counter_setCounter_self hk]
  next h => exact counter_setCounter_other hk h

theorem signal_counter (hk : keysRise s.cmd.counters = true) {d : Bytes}
    (hr : (opHdr d).sigEn = true → ctrInRange s id (opHdr d).sigCtr = true) (k : Nat) :
    counter (signal s id d) k = if (opHdr d).sigEn = true ∧ k = (opHdr d).sigCtr then counter s k + 1 else counter s k := by
  simp only [signal]
  cases he : (opHdr d).sigEn with
  | false => simp
  | true =>
    rw [hr he, Bool.and_self, if_pos rfl, bumpCounter_counter hk]
    simp

theorem bumpCounter_ioNext {c : Nat} {x : PhaseRun} (h : getPhase (bumpCounter s c) id p = some x) :
    ∃ y, getPhase s id p = some y ∧ x.ioNext = y.ioNext := by
  let s1 := setCounter s c (counter s c + 1)
  let g : Nat → StreamRun → StreamRun := fun _ r =>
    { r with running := r.running.map (fun x => { x with io := x.io.map (awaitDone s1 c) }) }
  have streams : getStream (bumpCounter s c) id = (getStream s id).map (g id) := getStream_of_map (g := g) rfl id
  rw [getPhase, streams] at h
  rw [getPhase]
  cases hr : getStream s id with
  | none => rw [hr] at h; exact absurd h (by simp)
  | some r =>
    rw [hr] at h
    have found : (r.running.map (fun x : PhaseRun => { x with io := x.io.map (awaitDone s1 c) })).find? (·.num == p) = some x := h
    rw [List.find?_map] at found
    obtain ⟨y, hy, rfl⟩ := Option.map_eq_some_iff.1 found
    exact ⟨y, hy, rfl⟩

theorem signal_ioNext {i : Nat} {d : Bytes} {x : PhaseRun} (h : getPhase (signal s i d) id p = some x) :
    ∃ y, getPhase s id p = some y ∧ x.ioNext = y.ioNext := by
  simp only [signal] at h
  split at h
  · exact bumpCounter_ioNext h
  · exact ⟨x, h, rfl⟩

/-! ## The list of a core (R387 to R389) -/

theorem getCore_passOps (hk : keysRise s.cores = true) (k : Nat) :
    getCore (passOps s n k) n = { advanceList (getCore s n) k with noProg := 0, lpaNext := none } :=
  getCore_setCore_self (s := touchCluster s (n / 64)) hk

theorem passOps_cores_rise (hk : keysRise s.cores = true) (k : Nat) : keysRise (passOps s n k).cores = true :=
  keysRise_smSet (m := (touchCluster s (n / 64)).cores) hk

/-- A list that has further ops stays the active one once one of them is passed. -/
theorem activeList_passed {tok : Token} {i : Nat} (h : activeList (getCore s n) = some (tok, i)) :
    activeList { advanceList (getCore s n) 1 with noProg := 0, lpaNext := none } = some (tok, i + 1) := by
  generalize getCore s n = c at h ⊢
  rw [activeList] at h
  cases hs : c.svcTokens with
  | cons a as =>
    rw [hs] at h
    dsimp only at h
    split at h
    next hu =>
      simp only [Option.some.injEq, Prod.mk.injEq] at h
      obtain ⟨rfl, rfl⟩ := h
      have units : unitsOf c a = true := (Bool.and_eq_true_iff.1 hu).1
      rw [advanceList, if_neg (by rw [hs]; exact Bool.false_ne_true), activeList]
      simp only [hs]
      rw [if_pos]
      exact Bool.and_eq_true_iff.2 ⟨units, by simp⟩
    next => exact absurd h (by simp)
  | nil =>
    rw [hs] at h
    dsimp only at h
    split at h
    next => exact absurd h (by simp)
    next hp =>
      rw [advanceList, if_pos (by rw [hs]; rfl), activeList]
      simp only [hs]
      rw [if_neg hp]
      cases ht : c.tokens with
      | nil => rw [ht] at h; exact absurd h (by simp)
      | cons a as =>
        rw [ht] at h
        simp only [Option.some.injEq, Prod.mk.injEq] at h
        obtain ⟨rfl, rfl⟩ := h
        rfl

/-- A list with further ops stays where a core's ended lists leave it. -/
theorem activeList_retireList {tok : Token} {i : Nat} (hk : keysRise s.cores = true)
    (h : activeList (getCore s n) = some (tok, i)) (hi : i < tok.len) :
    activeList (getCore (retireList s n) n) = some (tok, i) := by
  have h0 := h
  rw [activeList] at h
  cases hs : (getCore s n).svcTokens with
  | cons a as =>
    rw [hs] at h
    dsimp only at h
    split at h
    next hu =>
      simp only [Option.some.injEq, Prod.mk.injEq] at h
      obtain ⟨rfl, rfl⟩ := h
      have stays : retireSvc s n = s := by
        simp only [retireSvc, hs]
        rw [if_neg]
        simp only [ge_iff_le, Bool.and_eq_true, decide_eq_true_eq, not_and]
        exact fun hle => absurd hi (Nat.not_lt.2 hle)
      simp only [retireList, stays]
      cases ht : (getCore s n).tokens with
      | nil => exact h0
      | cons b bs =>
        dsimp only
        split
        · show activeList (getCore (setCore s n { getCore s n with tokens := bs, next := 0 }) n) = _
          rw [getCore_setCore_self hk, activeList]
          simp only [hs]
          exact if_pos hu
        · exact h0
    next => exact absurd h (by simp)
  | nil =>
    rw [hs] at h
    dsimp only at h
    split at h
    next => exact absurd h (by simp)
    next =>
      have stays : retireSvc s n = s := by simp only [retireSvc, hs]
      simp only [retireList, stays]
      cases ht : (getCore s n).tokens with
      | nil => exact h0
      | cons b bs =>
        rw [ht] at h
        simp only [Option.some.injEq, Prod.mk.injEq] at h
        obtain ⟨rfl, rfl⟩ := h
        dsimp only
        rw [if_neg]
        · exact h0
        · simp only [ge_iff_le, Bool.and_eq_true, decide_eq_true_eq, not_and]
          exact fun hle => absurd hi (Nat.not_lt.2 hle)

theorem retireSvc_counters (s : State) (n : Nat) : (retireSvc s n).cmd.counters = s.cmd.counters := by
  simp only [retireSvc]
  split
  · split <;> rfl
  · rfl

theorem retireList_counters (s : State) (n : Nat) : (retireList s n).cmd.counters = s.cmd.counters := by
  simp only [retireList]
  split
  · split
    · exact retireSvc_counters s n
    · exact retireSvc_counters s n
  · exact retireSvc_counters s n

theorem counter_of_counters (h : t.cmd.counters = s.cmd.counters) (k : Nat) : counter t k = counter s k := by
  rw [counter, counter, h]

end Sys2Proof.Laws
end

section
/-! PROOFS. NOP and WAIT ops (O20). -/

namespace Sys2Proof.Laws

open Sys2Proof Sys2Proof.Machine
set_option Elab.async false

variable {s t : State} {n : Nat} {o : NextOp}

/-! ## Plain ops (R387 to R391) -/

/-- A plain op that keeps its counters to its stream's range completes OK. -/
theorem plainOp_ok (loc : OpLoc) (hr : reservedZero o.desc hdrFields = true) (hc : ctrCheck s o.tok.stream (opHdr o.desc) = true) :
    plainOp loc s o = rejectAt loc s o .ok := by
  simp only [plainOp, hr, hc]
  rfl

theorem sig_in_range {id : Nat} (hc : ctrCheck s id (opHdr o.desc) = true) :
    (opHdr o.desc).sigEn = true → ctrInRange s id (opHdr o.desc).sigCtr = true := by
  intro he
  have sig := (Bool.and_eq_true_iff.1 hc).2
  rw [he] at sig
  exact sig

/-- What a plain op leaves of memory and of the counters: its signal adds one to its counter. -/
def Counted (s t : State) (d : Bytes) : Prop :=
  t.mem = s.mem ∧ ∀ k, counter t k =
    if (opHdr d).sigEn = true ∧ k = (opHdr d).sigCtr then counter s k + 1 else counter s k

theorem ctrInRange_of_streams {id c : Nat} (h : t.cmd.streams = s.cmd.streams) : ctrInRange t id c = ctrInRange s id c := by
  rw [ctrInRange, ctrInRange, getStream, getStream, h]

section Core

variable (hs : Sound s) (hc : ctrCheck s o.tok.stream (opHdr o.desc) = true)

include hs hc

theorem rejectOp_counted (st : Status) : Counted s (rejectOp s n o st) o.desc := by
  refine ⟨mem_eq (by simp), fun k => ?_⟩
  let s1 := touchCluster (passOps s n 1) (n / 64)
  have last : counter (rejectOp s n o st) k = counter (signal s1 o.tok.stream o.desc) k :=
    counter_of_counters (retireList_counters _ n) k
  rw [last, signal_counter (s := s1) hs.counters (sig_in_range hc)]
  rfl

omit hc in
theorem rejectOp_passes (hn : nextOp s n = some o) (hl : o.idx + 1 < o.tok.len) (st : Status) :
    activeList (getCore (rejectOp s n o st) n) = some (o.tok, o.idx + 1) := by
  have active : activeList (getCore s n) = some (o.tok, o.idx) := by
    rw [nextOp] at hn
    split at hn
    next => exact absurd hn (by simp)
    next t i h =>
      split at hn
      next => rw [h]; exact Option.some.inj hn ▸ rfl
      next => exact absurd hn (by simp)
  let u := noteStatus (signal (touchCluster (passOps s n 1) (n / 64)) o.tok.stream o.desc) o.tok.stream o.tok.phase st
  have cores : u.cores = (passOps s n 1).cores := cores_eq (by simp [u])
  have core : getCore u n = getCore (passOps s n 1) n := by rw [getCore, getCore, cores]
  refine activeList_retireList (s := u) (by rw [cores]; exact passOps_cores_rise hs.cores 1) ?_ hl
  rw [core, getCore_passOps hs.cores]
  exact activeList_passed active

end Core

theorem rejectIo_counted (hs : Sound s) {id p : Nat} (hi : o.tok.stream = id)
    (hc : ctrCheck s o.tok.stream (opHdr o.desc) = true) (st : Status) : Counted s (rejectIo s id p o st) o.desc := by
  refine ⟨mem_eq (by simp), fun k => ?_⟩
  have range := sig_in_range hc
  rw [hi] at range
  have passed (h : (opHdr o.desc).sigEn = true) : ctrInRange (passIo s id p) id (opHdr o.desc).sigCtr = true := by
    have before := range h
    rw [ctrInRange] at before ⊢
    rw [passIo, modPhase, getStream_modStream_self]
    cases hr : getStream s id with
    | none => rw [hr] at before; exact before
    | some r => rw [hr] at before; exact before
  have last : counter (rejectIo s id p o st) k = counter (signal (passIo s id p) id o.desc) k := rfl
  rw [last, signal_counter (s := passIo s id p) hs.counters passed]
  rfl

theorem rejectIo_passes {id p : Nat} {ph x : PhaseRun} (hp : getPhase s id p = some ph) (st : Status)
    (hx : getPhase (rejectIo s id p o st) id p = some x) : x.ioNext = ph.ioNext + 1 := by
  obtain ⟨y, hy, same⟩ := noteStatus_ioNext (s := signal (passIo s id p) id o.desc) hx
  obtain ⟨z, hz, same'⟩ := signal_ioNext hy
  rw [passIo, getPhase_modPhase_self (f := fun x => { x with ioNext := x.ioNext + 1 }) (fun _ => rfl), hp] at hz
  rw [same, same', ← Option.some.inj hz]

theorem nextIo_stream {id p : Nat} (h : nextIo s id p = some o) : o.tok.stream = id := by
  rw [nextIo] at h
  split at h
  · split at h
    · exact Option.some.inj h ▸ rfl
    · exact absurd h (by simp)
  · exact absurd h (by simp)

/-! ## NOP, WAIT and the release of a counter wait -/

section Exec

variable {loc : OpLoc} (hn : nextAt loc s = some o) (hp : o.poisoned = false) (hm : mayStartAt loc s o = true)

include hn hp hm

theorem opNop_exec (h0 : (opHdr o.desc).opcode = 0) : exec (.opNop loc) s = .next (plainOp loc s o) := by
  have allowed : opAllowed (isIo loc) 0 = true := by cases loc <;> rfl
  show execOpNop loc s = _
  simp only [execOpNop, hn, hp, h0, hm, allowed]
  rfl

theorem wait_exec (h1 : (opHdr o.desc).opcode = 1) : exec (.wait loc) s = .next (plainOp loc s o) := by
  show execWait loc s = _
  simp only [execWait, hn, hp, h1, hm]
  rfl

theorem counterWaitRelease_exec (host : List HostLine) (h1 : (opHdr o.desc).opcode = 1) (hw : (opHdr o.desc).waitEn = true) :
    exec (.counterWaitRelease loc host) s = .next (plainOp loc s o) := by
  have byte : (byteAt o.desc 0).toNat = 1 := h1
  rw [← wait_exec hn hp hm h1]
  show execCounterWaitRelease loc host s = execWait loc s
  simp only [execCounterWaitRelease, hn, hp, hm, hw]
  cases loc with
  | core c =>
    show releaseCore c host o.desc s = _
    rw [releaseCore, byte]
    rfl
  | io id p =>
    show releaseIo (.io id p) host o.desc s = _
    rw [releaseIo, byte]
    rfl

end Exec

/-! ## An op that its wait holds (R390) -/

section Held

variable (hn : nextOp s n = some o) (hw : (opHdr o.desc).waitEn = true)
  (hr : ctrInRange s o.tok.stream (opHdr o.desc).waitCtr = true)
  (hh : 32768 ≤ ((counter s (opHdr o.desc).waitCtr).toNat % 65536 + 65536 - (opHdr o.desc).waitVal) % 65536)

include hw hr hh in
theorem mayStart_held : mayStart s n o = false := by
  have small : (opHdr o.desc).waitVal < 65536 := le_lt o.desc 4 2
  have holds : waitHolds s (opHdr o.desc).waitCtr (opHdr o.desc).waitVal = true := by
    rw [waitHolds, decide_eq_true_eq]
    omega
  simp only [mayStart, hw, hr, holds]
  exact Bool.and_false _

include hn hw hr hh in
theorem startable_held (op : Nat) (free : Core → Bool) : startable s n op free = none := by
  rw [startable, hn]
  dsimp only
  rw [mayStart_held hw hr hh, Bool.and_false]
  rfl

end Held

/-- Settles O20. -/
theorem plainOpsAndWaits : Obligations.PlainOpsAndWaits := by
  unfold Obligations.PlainOpsAndWaits
  refine ⟨fun s o host hs hp hz hc => ?_, fun c s o host hn hp => ?_⟩
  · intro h counted
    refine ⟨fun c hn hm hl => ?_, fun id p ph hn hm hph => ?_⟩
    · intro past
      have gives : past (rejectAt (.core c) s o .ok) := ⟨rejectOp_counted hs hc .ok, rejectOp_passes hs hn hl .ok⟩
      rw [← plainOp_ok (.core c) hz hc] at gives
      exact ⟨fun h0 => ⟨_, opNop_exec (loc := .core c) hn hp hm h0, gives⟩,
        fun h1 => ⟨_, wait_exec (loc := .core c) hn hp hm h1, gives⟩,
        fun h1 hw => ⟨_, counterWaitRelease_exec (loc := .core c) hn hp hm host h1 hw, gives⟩⟩
    · intro past
      have gives : past (rejectAt (.io id p) s o .ok) :=
        ⟨rejectIo_counted hs (nextIo_stream hn) hc .ok, fun x hx => rejectIo_passes hph .ok hx⟩
      rw [← plainOp_ok (.io id p) hz hc] at gives
      exact ⟨fun h0 => ⟨_, opNop_exec (loc := .io id p) hn hp hm h0, gives⟩,
        fun h1 => ⟨_, wait_exec (loc := .io id p) hn hp hm h1, gives⟩,
        fun h1 hw => ⟨_, counterWaitRelease_exec (loc := .io id p) hn hp hm host h1 hw, gives⟩⟩
  · intro h hw hr hh
    have held : mayStart s c.toNat o = false := mayStart_held hw hr hh
    have none_ := startable_held hn hw hr hh
    have next : nextAt (.core c) s = some o := hn
    have waits : mayStartAt (.core c) s o = false := held
    refine ⟨fun ha => ⟨s, ?_, rfl⟩, ⟨s, ?_, rfl⟩, ⟨s, ?_, rfl⟩, ⟨s, ?_, rfl⟩, ⟨s, ?_, rfl⟩, ⟨s, ?_, rfl⟩, ⟨s, ?_, rfl⟩⟩
    · have allowed : opAllowed (isIo (.core c)) (opHdr o.desc).opcode = true := ha
      show execOpNop (.core c) s = _
      simp only [execOpNop, next, hp, allowed, waits]
      rw [if_neg (by decide), if_neg (by decide), if_neg (by simp)]
    · show execWait (.core c) s = _
      simp only [execWait, next, waits, Bool.and_false]
      rfl
    · show execCounterWaitRelease (.core c) host s = _
      simp only [execCounterWaitRelease, next, waits, Bool.not_false, Bool.or_true, if_true]
    · show execDmaCopy c host s = _
      simp only [execDmaCopy, none_]
    · show execVeRun c s = _
      simp only [execVeRun, none_]
    · show execVeSolve c s = _
      simp only [execVeSolve, none_]
    · show execCoeStage c host s = _
      simp only [execCoeStage, none_]

end Sys2Proof.Laws
end

section
/-! PROOFS. A write of TOP_NODE_ID beside a WINDOW_SET that waits (O23). -/

namespace Sys2Proof.Laws

open Sys2Proof Sys2Proof.Machine
set_option Elab.async false

/-! ## A write of TOP_NODE_ID beside a WINDOW_SET whose older lines are in (R39, R494) -/

/-- Port A is up, TOP_NODE_ID is unlocked, and a WINDOW_SET has not had its record yet though none of the older lines is out. -/
def nodeIdWaiting : State :=
  { railsWaiting with
    hif := { railsWaiting.hif with a := { HostPortState.reset with linkUp := true } }
    pwr := State.reset.pwr }

theorem sound_nodeIdWaiting : Sound nodeIdWaiting :=
  sound_of_checks (by decide +kernel) rfl rfl rfl rfl

/-- The write settles what waits in the fabric: the record of the WINDOW_SET goes to module memory. -/
theorem topNodeId_writes_record : ringByte (exec (.topNodeId .a 5) nodeIdWaiting) = 5 := by decide +kernel

/-- Refutes O23: the clause on TOP_NODE_ID keeps memory, but a write of it settles what waits in the fabric. In
`nodeIdWaiting` a WINDOW_SET waits with no older line out; the write completes it, and its record goes to its queue's completion
ring in DRAM. -/
theorem not_registerAccesses : ¬ Obligations.RegisterAccesses := by
  unfold Obligations.RegisterAccesses
  intro h
  obtain ⟨-, node, -⟩ := h.2.2.2 .a nodeIdWaiting sound_nodeIdWaiting (by decide +kernel)
  obtain ⟨t, goes, -, -, mem⟩ := node 5 rfl (by decide)
  have kept : memByte t.mem 0x20000 = 0 := by rw [mem]; decide +kernel
  have written : ringByte (exec (.topNodeId .a 5) nodeIdWaiting) = memByte t.mem 0x20000 := congrArg ringByte goes
  rw [topNodeId_writes_record, kept] at written
  exact absurd written (by decide)

end Sys2Proof.Laws
end

section
/-! PROOFS. Two due entries of one phase (O58). -/

namespace Sys2Proof.Laws

open Sys2Proof Sys2Proof.Machine
set_option Elab.async false

/-! ## Two entries of one phase are due, and the op of the first fails its check (R436, R475) -/

/-- A running phase that waits for nothing. -/
def waitingPhase : PhaseRun :=
  { num := 0, record := leBytes 64 0, stepIdx := 0, rung := 0, ladderEntry := none, ladder := [], cores := [], io := []
    ioNext := 0, stop := none, stopBy := [], seen := [], samples := 0, errMax := 0, exceed := false, pins := [], slots := []
    old := false, late := false, binds := [], trnSlot := 0, trnMb := 0, trnStep := 0, started := 0, paused := 0
    pausedAt := none, wdMs := 0 }

/-- Its stream. -/
def waitingStream : StreamRun :=
  { queue := none, svc := none, hdr := leBytes 64 0, steps := [], coreMap := 0, nextPhase := 1, running := [waitingPhase]
    done := [], stop := none, stopBy := [] }

/-- An entry of that phase whose counter has satisfied it, with a GET of no bytes. -/
def dueEntry (entry : Nat) : Trigger :=
  { fi := 0, entry, counter := 0, value := 0, desc := leBytes 64 0x41, stream := 0, phase := 0, step := 0
    lateDefault := false, due := true }

/-- Entries 0 and 1 of FI 0 are due. -/
def twoDue : State :=
  { State.reset with
    cmd := { State.reset.cmd with streams := [(0, waitingStream)] }
    coll := { State.reset.coll with triggers := [dueEntry 0, dueEntry 1] } }

theorem sound_twoDue : Sound twoDue :=
  sound_of_checks (by decide +kernel) rfl rfl rfl rfl

theorem collQuiet_twoDue : CollQuiet twoDue where
  fab := ⟨fun _ => rfl, rfl, rfl, rfl, rfl, .nil, by simp [twoDue, State.reset, FabState.reset], rfl⟩
  early := rfl
  open_ := by simp [twoDue, State.reset, CollState.reset]

/-- How many entries have fired. -/
def firedCount (r : Res) : BitVec 32 := match r with | .next t => t.coll.fired | _ => 0

/-- The op of entry 0 ends with BAD_FIELD, which ends its phase; entry 1 counts as fired with it. -/
theorem triggerFire_counts_two : firedCount (exec (.triggerFire 0 0 []) twoDue) = 2 := by decide +kernel

/-- Refutes O58: a due entry that fires is said to raise the count of fired entries by one. In `twoDue` its op fails the check
at issue and ends the phase (R436), and with the phase ends the second entry of it that is due, which counts as fired too. -/
theorem not_triggersArmAndFire : ¬ Obligations.TriggersArmAndFire := by
  unfold Obligations.TriggersArmAndFire
  intro h
  obtain ⟨-, fires, -⟩ := (h twoDue sound_twoDue collQuiet_twoDue).2 0 0 [] (dueEntry 0) (by decide +kernel)
  obtain ⟨t, goes, -, fired⟩ := fires rfl
  have counted : firedCount (exec (.triggerFire 0 0 []) twoDue) = t.coll.fired := congrArg firedCount goes
  rw [triggerFire_counts_two, fired] at counted
  exact absurd counted (by decide +kernel)

end Sys2Proof.Laws
end

section
/-! PROOFS. Two collectives of one sequence number (O56). -/

namespace Sys2Proof.Laws

open Sys2Proof Sys2Proof.Machine
set_option Elab.async false

/-! ## Two members of a communicator on one module, and two collectives of one sequence number (R463, R465) -/

/-- A communicator of two members, of which this module is rank 0; its member table lies at 0x610000. -/
def twinComm : Bytes := leBytes 64 (1 + 2 ^ 32 + 0x610000 * 2 ^ 128)

/-- A BARRIER on communicator 0, issued at time 0 and not closed yet. -/
def openColl (id : Nat) : Coll :=
  { id, owner := .io 0 0 id, stream := 0, phase := 0, step := 0, lateDefault := false
    desc := leBytes 48 (0x50 + 5 * 2 ^ 64) ++ leBytes 16 0x740000, comm := twinComm, started := 0
    host := [], first := 0, claimed := false, ready := true, count := 1, carried := false, carry := none, carryBad := []
    snapshot := false, joins := [], closed := false, closedAt := 0, n := 0, endPoint := false, parentFirst := 0
    contribs := [], credits := 0, nextUp := 0, cells := [], cellBad := [], crcs := [], badIn := [], ep := [], landed := []
    failed := [], poisoned := [], memErr := none, counted := [], arrived := [], nextChunk := [], lastMove := 0
    lastCredit := 0, heard := [] }

/-- Both members of the communicator are node 1, this module; collectives 0 and 1 of it are open, of the same sequence number,
and their limits have passed. -/
def twinColls : State :=
  { State.reset with
    nowNs := 10000
    mr := { MemRegs.reset with memCfg := 0x00400000 }
    fab := { State.reset.fab with nodeId := 1, en := true, timeout := 0 }
    rst := { RstState.reset with supply := .on, step := 7 }
    coll := { State.reset.coll with commBase := 0x600001, colls := [openColl 0, openColl 1], nextId := 2 }
    mem := memWrite (memWrite (memWrite State.reset.mem 0x600000 twinComm false) 0x610000 [1] false) 0x610020 [1] false }

theorem sound_twinColls : Sound twinColls :=
  sound_of_checks (by decide +kernel) rfl rfl rfl rfl

theorem collQuiet_twinColls : CollQuiet twinColls where
  fab := ⟨fun _ => rfl, rfl, rfl, rfl, rfl, .nil, by simp [twinColls, State.reset, FabState.reset], rfl⟩
  early := rfl
  open_ := by simp [twinColls, openColl, collDone]

/-- How many collectives have aborted. -/
def abortedCount (r : Res) : BitVec 32 := match r with | .next t => t.coll.aborted | _ => 0

/-- The ABORT of collective 0 to rank 1 comes back to this module, and aborts collective 1. -/
theorem collTimeout_counts_two : abortedCount (exec (.collTimeout 0) twinColls) = 2 := by decide +kernel

/-- Refutes O56: a collective whose limit has passed is said to raise the count of aborts by one. In `twinColls` its other member
is this module too, so that its ABORT comes back, and meets a second collective of the same communicator and sequence number. -/
theorem not_collectivesProceed : ¬ Obligations.CollectivesProceed := by
  unfold Obligations.CollectivesProceed
  intro h
  obtain ⟨-, -, -, -, -, -, late⟩ := h 0 twinColls (openColl 0) sound_twinColls collQuiet_twinColls (by decide +kernel)
    (by simp [twinColls, openColl])
  obtain ⟨t, goes, -, aborted⟩ := (late rfl).1 (.inl (by decide +kernel))
  have counted : abortedCount (exec (.collTimeout 0) twinColls) = t.coll.aborted := congrArg abortedCount goes
  rw [collTimeout_counts_two, aborted] at counted
  exact absurd counted (by decide +kernel)

end Sys2Proof.Laws
end

section
/-! PROOFS. Reads and writes of memory line by line. -/

namespace Sys2Proof.Laws

open Sys2Proof Sys2Proof.Machine
set_option Elab.async false

/-! ## What access to memory rests on

Which lines a unit reaches rests on the cores that are available, the population, the firmware area, the Window Table, the links
of the host ports and this module's node id. -/

/-- These parts of the state. -/
def ground (s : State) : List (Nat × BitVec 64) × BitVec 32 × Bool × List (Nat × Bytes) × (HPort → Bool × Bool) × BitVec 16 :=
  (s.cr.coreAvail, s.mr.memCfg, s.fw.area, s.hif.wt, fun p => ((getPort s p).linkUp, (getPort s p).lost), s.fab.nodeId)

variable {s t : State}

theorem ground_of_parts (hc : t.cr.coreAvail = s.cr.coreAvail) (hm : t.mr.memCfg = s.mr.memCfg) (hf : t.fw.area = s.fw.area)
    (hw : t.hif.wt = s.hif.wt) (hp : ∀ p, (getPort t p).linkUp = (getPort s p).linkUp ∧ (getPort t p).lost = (getPort s p).lost)
    (hn : t.fab.nodeId = s.fab.nodeId) : ground t = ground s := by
  simp only [ground, hc, hm, hf, hw, hn, fun p => (hp p).1, fun p => (hp p).2]

theorem ground_of_reported (hc : t.cr = s.cr) (hm : t.mr.memCfg = s.mr.memCfg) (h : Reported s t) (hn : t.fab = s.fab) :
    ground t = ground s :=
  ground_of_parts (by rw [hc]) hm (h.ofFw (·.area) fun _ => rfl) h.wt
    (fun p => ⟨h.ofPort p (·.linkUp) fun _ => rfl, h.ofPort p (·.lost) fun _ => rfl⟩) (by rw [hn])

theorem addrExists_of_ground (h : ground t = ground s) (a : Nat) : addrExists t a = addrExists s a := by
  simp only [ground, Prod.mk.injEq] at h
  obtain ⟨hc, hm, hf, -⟩ := h
  have dram : dramBytes t = dramBytes s := by simp only [dramBytes, hm]
  have firmware : fwAreaLen t = fwAreaLen s := by simp only [fwAreaLen, hf]
  unfold addrExists
  rw [dram, firmware]
  cases region a <;> simp only [coreAvail, clusterAvail, hc]

theorem canAccess_of_ground (h : ground t = ground s) (r : Reach) (a n : Nat) : canAccess t r a n = canAccess s r a n := by
  simp only [canAccess, addrExists_of_ground h]

theorem read_of_ground (h : ground t = ground s) (hm : t.mem = s.mem) (he : t.mr.dramErr = s.mr.dramErr) (r : Reach) (a n : Nat) :
    Machine.read t r a n = Machine.read s r a n := by
  have fails : spanFails t a n = spanFails s a n := by simp only [spanFails, he]
  unfold Machine.read
  rw [canAccess_of_ground h, hm, fails]

theorem hostTarget_of_ground (h : ground t = ground s) (init : Nat) (w : Bool) (src a : Nat) :
    hostTarget t init w src a = hostTarget s init w src a := by
  simp only [ground, Prod.mk.injEq] at h
  obtain ⟨-, -, -, hw, hp, -⟩ := h
  have port : ∀ p, ((getPort t p).linkUp && !(getPort t p).lost) = ((getPort s p).linkUp && !(getPort s p).lost) := fun p => by
    obtain ⟨hl, hk⟩ := Prod.mk.inj (congrFun hp p)
    rw [hl, hk]
  simp only [hostTarget, wtLookup, hw, port]

theorem selfNode_of_ground (h : ground t = ground s) : selfNode t = selfNode s := by
  simp only [ground, Prod.mk.injEq] at h
  obtain ⟨-, -, -, -, -, hn⟩ := h
  simp only [selfNode, hn]

@[simp] theorem ground_setMem (s : State) (m : Mem) : ground (setMem s m) = ground s := rfl

@[simp] theorem ground_emit (s : State) (o : Output) : ground (emit s o) = ground s := rfl

@[simp] theorem ground_touch (s : State) (a : Nat) : ground (touch s a) = ground s := by
  simp only [touch]; split <;> rfl

@[simp] theorem ground_raiseEvent (s : State) (st : Status) (i j : Nat) (d : Bytes) : ground (raiseEvent s st i j d) = ground s :=
  ground_of_reported (cr_eq (by simp)) (by rw [mr_eq (t := raiseEvent s st i j d) (s := s) (by simp)])
    (raiseEvent_reported s st i j d) (fab_eq (by simp))

@[simp] theorem ground_logFailure (s : State) (k : Nat) (st : Status) (u a : Nat) : ground (logFailure s k st u a) = ground s := by
  simp only [logFailure]; split <;> rfl

@[simp] theorem ground_denyLine (s : State) (i : Nat) (w : Bool) (a : Nat) : ground (denyLine s i w a) = ground s :=
  ground_of_reported (cr_eq (by simp)) (by rw [mr_eq (t := denyLine s i w a) (s := s) (by simp)])
    (denyLine_reported s i w a) (fab_eq (by simp))

@[simp] theorem ground_noteCorrected (s : State) (n : BitVec 32) (i j a : Nat) : ground (noteCorrected s n i j a) = ground s := by
  simp only [noteCorrected]; split <;> simp

@[simp] theorem ground_meetErr (s : State) (a : Nat) (e : LineErr) : ground (meetErr s a e) = ground s := by
  cases e <;> simp only [meetErr, ground_noteCorrected, ground_raiseEvent, ground_logFailure] <;> rfl

@[simp] theorem ground_demandWith (host : List HostLine) (s : State) (a : Nat) : ground (demandWith host s a) = ground s := by
  simp only [demandWith]; split <;> simp

/-! ## Memory through the operations of an access -/

/-- Every byte is as it was, though a line may have been marked. -/
structure SameBytes (s t : State) : Prop where
  wf : Memory.wf s.mem = true → Memory.wf t.mem = true
  bytes : ∀ a, memByte t.mem a = memByte s.mem a

theorem SameBytes.of_mem (h : t.mem = s.mem) : SameBytes s t := ⟨fun w => by rw [h]; exact w, fun a => by rw [h]⟩

theorem SameBytes.refl (s : State) : SameBytes s s := .of_mem rfl

theorem SameBytes.trans {u : State} (h : SameBytes s t) (k : SameBytes t u) : SameBytes s u :=
  ⟨fun w => k.wf (h.wf w), fun a => (k.bytes a).trans (h.bytes a)⟩

theorem SameBytes.sameMem (h : SameBytes s t) (spans : List (Nat × Nat)) : SameMem s t spans := fun a _ => h.bytes a

theorem SameBytes.memRead (h : SameBytes s t) (a n : Nat) : memRead t.mem a n = memRead s.mem a n :=
  memRead_congr fun i _ => h.bytes (a + i)

theorem SameBytes.foldl {α : Type} {f : State → α → State} (h : ∀ s x, SameBytes s (f s x)) (l : List α) :
    ∀ s, SameBytes s (l.foldl f s) := by
  induction l with
  | nil => exact fun s => .refl s
  | cons x l ih => exact fun s => (h s x).trans (ih (f s x))

@[simp] theorem memByte_setPoison (m : Mem) (l : Nat) (p : Bool) (a : Nat) : memByte (setPoison m l p) a = memByte m a := rfl

theorem sameBytes_setPoison (s : State) (l : Nat) (p : Bool) : SameBytes s (setMem s (setPoison s.mem l p)) :=
  ⟨fun w => setPoison_wf w, fun _ => rfl⟩

theorem touch_mem (s : State) (a : Nat) : (touch s a).mem = s.mem := mem_eq (by simp)

theorem sameBytes_touch (s : State) (a : Nat) : SameBytes s (touch s a) := .of_mem (touch_mem s a)

theorem raiseEvent_mem (s : State) (st : Status) (i j : Nat) (d : Bytes) : (raiseEvent s st i j d).mem = s.mem := mem_eq (by simp)

theorem logFailure_mem (s : State) (k : Nat) (st : Status) (u a : Nat) : (logFailure s k st u a).mem = s.mem := mem_eq (by simp)

theorem noteCorrected_mem (s : State) (n : BitVec 32) (i j a : Nat) : (noteCorrected s n i j a).mem = s.mem := mem_eq (by simp)

theorem sameBytes_meetErr (s : State) (a : Nat) (e : LineErr) : SameBytes s (meetErr s a e) := by
  cases e with
  | none => exact .refl s
  | correctable => exact .of_mem (by simp only [meetErr, noteCorrected_mem])
  | uncorrectable =>
    exact (sameBytes_setPoison s (a / 64) true).trans (.of_mem (by simp only [meetErr, raiseEvent_mem, logFailure_mem]))

theorem sameBytes_demandWith (host : List HostLine) (s : State) (a : Nat) : SameBytes s (demandWith host s a) := by
  simp only [demandWith]
  split
  · exact sameBytes_meetErr s a _
  · exact .refl s

/-! ## Regions and lines -/

theorem line_lt {x : Nat} (a : Nat) (h : x % 64 = 0) : a / 64 * 64 < x ↔ a < x := by omega

theorem le_line {x : Nat} (a : Nat) (h : x % 64 = 0) : x ≤ a / 64 * 64 ↔ x ≤ a := by omega

/-- A byte and its line lie in the same block of a row of blocks. -/
theorem line_block (a c k : Nat) (h : c % 64 = 0) : (a / 64 * 64 - c) / (64 * k) = (a - c) / (64 * k) := by
  rw [← Nat.div_div_eq_div_mul, ← Nat.div_div_eq_div_mul]
  congr 1
  omega

/-- A byte lies in the region of its line. -/
theorem region_line (a : Nat) : region (a / 64 * 64) = region a := by
  have core := line_block a coreStores 0x3000 rfl
  have cluster := line_block a clusterStores 0x40000 rfl
  unfold region
  simp only [line_lt a (x := 0x40000000000) rfl, line_lt a (x := clusterStores) rfl, le_line a (x := coreStores) rfl,
    line_lt a (x := clusterStores + 0x40000000) rfl, le_line a (x := clusterStores) rfl, line_lt a (x := hostWinHi) rfl,
    le_line a (x := hostWinLo) rfl, line_lt a (x := setupLo + setupLen) rfl, le_line a (x := setupLo) rfl,
    line_lt a (x := redMemLo + redMemLen) rfl, le_line a (x := redMemLo) rfl,
    show coreStoreLen = 64 * 0x3000 from rfl, show clusterStoreLen = 64 * 0x40000 from rfl, core, cluster]

/-- What a unit reaches of a span it reaches of each line of it. -/
theorem canAccess_part {r : Reach} {a n l lo k : Nat} (h : canAccess s r a n = true) (hl : l ∈ linesOf a n)
    (hlo : l ≤ lo) (hk : lo + k ≤ l + 64) (h0 : 0 < k) : canAccess s r lo k = true := by
  simp only [canAccess, Bool.and_eq_true, List.all_eq_true] at h ⊢
  have line := h.2 l hl
  have hm := (mem_linesOf.mp hl).2.1
  have own : lo / 64 * 64 = l := by omega
  have only : linesOf lo k = [l] := by rw [linesOf_single h0 (by omega), own]
  refine ⟨by rw [← region_line lo, own]; exact line.2, fun x hx => ?_⟩
  obtain rfl : x = l := by simpa [only] using hx
  exact line

theorem region_of_canAccess {r : Reach} {a n l : Nat} (h : canAccess s r a n = true) (hl : l ∈ linesOf a n) : region l ≠ .host := by
  simp only [canAccess, Bool.and_eq_true, List.all_eq_true] at h
  intro host
  have line := (h.2 l hl).1
  simp [addrExists, host] at line

/-! ## A write line by line -/

/-- The lines `ls` of a write stored where `takes` holds. -/
def storeLines (takes : Nat → Bool) (a : Nat) (bs : Bytes) (poison : Nat → Bool) (ls : List Nat) (m : Mem) : Mem :=
  ls.foldl (fun m l => if takes l then memWrite m (linePart a bs l).1 (linePart a bs l).2 (poison l) else m) m

theorem storeLines_cons (takes : Nat → Bool) (a : Nat) (bs : Bytes) (poison : Nat → Bool) (l : Nat) (ls : List Nat) (m : Mem) :
    storeLines takes a bs poison (l :: ls) m = storeLines takes a bs poison ls
      (if takes l then memWrite m (linePart a bs l).1 (linePart a bs l).2 (poison l) else m) := rfl

theorem storeLines_wf {m : Mem} (h : Memory.wf m = true) (takes : Nat → Bool) (a : Nat) (bs : Bytes) (poison : Nat → Bool)
    (ls : List Nat) : Memory.wf (storeLines takes a bs poison ls m) = true := by
  induction ls generalizing m with
  | nil => exact h
  | cons l ls ih =>
    rw [storeLines_cons]
    split
    · exact ih (memWrite_wf h)
    · exact ih h

/-- A byte on a line that is taken reads as written, and every other byte as before. -/
theorem memByte_storeLines {m : Mem} (h : Memory.wf m = true) {takes : Nat → Bool} {a : Nat} {bs : Bytes} {poison : Nat → Bool}
    {ls : List Nat} (hl : ∀ l ∈ ls, l % 64 = 0) (x : Nat) : memByte (storeLines takes a bs poison ls m) x =
      if x / 64 * 64 ∈ ls ∧ takes (x / 64 * 64) = true ∧ a ≤ x ∧ x < a + bs.length then byteAt bs (x - a) else memByte m x := by
  induction ls generalizing m with
  | nil => simp [storeLines]
  | cons l ls ih =>
    have rest := fun m h => @ih m h fun y hy => hl y (by simp [hy])
    rw [storeLines_cons]
    by_cases ht : takes l = true
    · rw [if_pos ht, rest _ (memWrite_wf h), memByte_memWrite h]
      by_cases hx : (linePart a bs l).1 ≤ x ∧ x < (linePart a bs l).1 + (linePart a bs l).2.length
      · obtain ⟨h1, h2, h3, h4⟩ := linePart_within hx.1 hx.2
        obtain rfl : x / 64 * 64 = l := by have := hl l (by simp); omega
        rw [if_pos hx, byteAt_linePart h1 h2 h3 h4, if_pos (c := _ ∈ _ :: _ ∧ _) ⟨by simp, ht, h1, h2⟩, ite_self]
      · rw [if_neg hx]
        have other : x / 64 * 64 = l → ¬(a ≤ x ∧ x < a + bs.length) := fun e hin => hx (by
          rw [linePart_length]
          simp only [linePart]
          omega)
        simp only [List.mem_cons]
        by_cases e : x / 64 * 64 = l
        · rw [if_neg fun c => other e c.2.2, if_neg fun c => other e c.2.2]
        · simp [e]
    · rw [if_neg ht, rest m h]
      by_cases e : x / 64 * 64 = l
      · simp [e, ht]
      · simp [e]

/-- The whole of a write whose every line is taken. -/
theorem memByte_storeLines_all {m : Mem} (h : Memory.wf m = true) {takes : Nat → Bool} {a : Nat} {bs : Bytes} {poison : Nat → Bool}
    (ht : ∀ l ∈ linesOf a bs.length, takes l = true) (x : Nat) :
    memByte (storeLines takes a bs poison (linesOf a bs.length) m) x =
      if a ≤ x ∧ x < a + bs.length then byteAt bs (x - a) else memByte m x := by
  rw [memByte_storeLines h fun l hl => (mem_linesOf.mp hl).2.1]
  by_cases hx : a ≤ x ∧ x < a + bs.length
  · have mem : x / 64 * 64 ∈ linesOf a bs.length := mem_linesOf.mpr ⟨by omega, by omega, by omega, by omega⟩
    rw [if_pos ⟨mem, ht _ mem, hx⟩, if_pos hx]
  · rw [if_neg fun c => hx c.2.2, if_neg hx]

theorem byteAt_memRead {m : Mem} {a n i : Nat} (h : i < n) : byteAt (memRead m a n) i = memByte m (a + i) := by
  simp [byteAt, memRead, h]

/-- A write of a unit that reaches DRAM alone leaves every byte of another region. -/
theorem memByte_write_dram (hs : Memory.wf s.mem = true) (a : Nat) (bs : Bytes) (p : Bool) {x : Nat} (hx : region x ≠ .dram) :
    memByte (write s .dram a bs p).mem x = memByte s.mem x := by
  unfold write
  split
  next reach =>
    rw [setMem_mem, memByte_memWrite hs, if_neg]
    rintro ⟨h1, h2⟩
    simp only [canAccess, Bool.and_eq_true, List.all_eq_true] at reach
    have line := (reach.2 (x / 64 * 64) (mem_linesOf.mpr ⟨by omega, by omega, by omega, by omega⟩)).2
    rw [region_line] at line
    cases hr : region x <;> simp [hr, reaches] at hx line
  next => rfl

/-! ## A write by a unit, which may reach a host -/

@[simp] theorem ground_writeLine (init : Nat) (r : Reach) (a : Nat) (bs : Bytes) (poison : Nat → Bool) (x : State × Option Status)
    (l : Nat) : ground (writeLine init r a bs poison x l).1 = ground x.1 := by
  simp only [writeLine]
  repeat' split
  all_goals simp

/-- The lines that a write stores in module memory. -/
def stored (s : State) (r : Reach) (a : Nat) (bs : Bytes) (l : Nat) : Bool :=
  decide (region l ≠ .host) && canAccess s r (linePart a bs l).1 (linePart a bs l).2.length

theorem stored_of_ground (h : ground t = ground s) : stored t = stored s := by
  funext r a bs l
  simp only [stored, canAccess_of_ground h]

theorem writeLine_mem (init : Nat) (r : Reach) (a : Nat) (bs : Bytes) (poison : Nat → Bool) (x : State × Option Status) (l : Nat) :
    (writeLine init r a bs poison x l).1.mem = storeLines (stored x.1 r a bs) a bs poison [l] x.1.mem := by
  simp only [storeLines, List.foldl_cons, List.foldl_nil, stored]
  by_cases hr : region l = .host
  · have out : (writeLine init r a bs poison x l).1.mem = x.1.mem := by
      simp only [writeLine, if_pos hr]
      split
      · exact mem_eq (by simp)
      · rfl
    simp [out, hr]
  · by_cases hc : canAccess x.1 r (linePart a bs l).1 (linePart a bs l).2.length = true
    · simp [writeLine, hr, hc, touch_mem]
    · simp [writeLine, hr, hc]

theorem writeLines_mem (init : Nat) (r : Reach) (a : Nat) (bs : Bytes) (poison : Nat → Bool) (ls : List Nat)
    (x : State × Option Status) : (ls.foldl (writeLine init r a bs poison) x).1.mem =
      storeLines (stored x.1 r a bs) a bs poison ls x.1.mem ∧
    ground (ls.foldl (writeLine init r a bs poison) x).1 = ground x.1 := by
  induction ls generalizing x with
  | nil => exact ⟨rfl, rfl⟩
  | cons l ls ih =>
    obtain ⟨mem, same⟩ := ih (writeLine init r a bs poison x l)
    have g := ground_writeLine init r a bs poison x l
    refine ⟨?_, same.trans g⟩
    rw [List.foldl_cons, mem, stored_of_ground g, writeLine_mem]
    rfl

theorem writeSpan_mem (s : State) (init : Nat) (r : Reach) (a : Nat) (bs : Bytes) (poison : Nat → Bool) :
    (writeSpan s init r a bs poison).1.mem = storeLines (stored s r a bs) a bs poison (linesOf a bs.length) s.mem :=
  (writeLines_mem ..).1

@[simp] theorem ground_writeSpan (s : State) (init : Nat) (r : Reach) (a : Nat) (bs : Bytes) (poison : Nat → Bool) :
    ground (writeSpan s init r a bs poison).1 = ground s := (writeLines_mem ..).2

theorem stored_of_canAccess {r : Reach} {a : Nat} {bs : Bytes} (h : canAccess s r a bs.length = true) :
    ∀ l ∈ linesOf a bs.length, stored s r a bs l = true := by
  intro l hl
  obtain ⟨h0, hm, h1, h2⟩ := mem_linesOf.mp hl
  have len := linePart_length a bs l
  simp only [stored, Bool.and_eq_true, decide_eq_true_eq]
  refine ⟨region_of_canAccess h hl, canAccess_part h hl (Nat.le_max_right a l) ?_ (by omega)⟩
  rw [show (linePart a bs l).1 = max a l from rfl]
  omega

/-- A write within reach stores its bytes, and no other. -/
theorem memByte_writeSpan (hs : Memory.wf s.mem = true) (init : Nat) {r : Reach} {a : Nat} {bs : Bytes} (poison : Nat → Bool)
    (h : canAccess s r a bs.length = true) (x : Nat) : memByte (writeSpan s init r a bs poison).1.mem x =
      if a ≤ x ∧ x < a + bs.length then byteAt bs (x - a) else memByte s.mem x := by
  rw [writeSpan_mem, memByte_storeLines_all hs (stored_of_canAccess h)]

/-- A write stores in its span. -/
theorem stores_writeSpan (hs : Memory.wf s.mem = true) (init : Nat) (r : Reach) (a : Nat) (bs : Bytes) (poison : Nat → Bool) :
    Stores [(a, bs.length)] s (writeSpan s init r a bs poison).1 := by
  refine ⟨by rw [writeSpan_mem]; exact storeLines_wf hs .., fun x hx => ?_⟩
  have out : ¬(a ≤ x ∧ x < a + bs.length) := hx (a, bs.length) (by simp)
  rw [writeSpan_mem, memByte_storeLines hs fun l hl => (mem_linesOf.mp hl).2.1, if_neg fun c => out c.2.2]

theorem writeLines_status {init : Nat} {r : Reach} {a : Nat} {bs : Bytes} {poison : Nat → Bool} {ls : List Nat}
    {x : State × Option Status} (h : ∀ l ∈ ls, stored x.1 r a bs l = true) :
    (ls.foldl (writeLine init r a bs poison) x).2 = x.2 := by
  induction ls generalizing x with
  | nil => rfl
  | cons l ls ih =>
    have g := ground_writeLine init r a bs poison x l
    rw [List.foldl_cons, ih fun y hy => by rw [stored_of_ground g]; exact h y (by simp [hy])]
    have take := h l (by simp)
    simp only [stored, Bool.and_eq_true, decide_eq_true_eq] at take
    simp only [writeLine, if_neg take.1, if_pos take.2]

theorem writeSpan_status (init : Nat) {r : Reach} {a : Nat} {bs : Bytes} (poison : Nat → Bool)
    (h : canAccess s r a bs.length = true) : (writeSpan s init r a bs poison).2 = none :=
  writeLines_status (stored_of_canAccess h)

/-! ## What a unit sees -/

@[simp] theorem ground_viewLine (init : Nat) (r : Reach) (host : List HostLine) (v : View) (a : Nat) :
    ground (viewLine init r host v a).s = ground v.s := by
  simp only [viewLine]
  repeat' split
  all_goals simp

theorem ground_viewSpan (init : Nat) (r : Reach) (host : List HostLine) (v : View) (a n : Nat) :
    ground (viewSpan init r host v a n).s = ground v.s := by
  unfold viewSpan
  induction linesOf a n generalizing v with
  | nil => rfl
  | cons l ls ih => rw [List.foldl_cons, ih, ground_viewLine]

theorem sameBytes_viewLine (init : Nat) (r : Reach) (host : List HostLine) (v : View) (a : Nat) :
    SameBytes v.s (viewLine init r host v a).s := by
  simp only [viewLine]
  split
  · split
    · exact .of_mem (mem_eq (by simp))
    · split <;> exact .refl _
  · split
    · exact (sameBytes_touch v.s a).trans (sameBytes_demandWith host _ a)
    · exact .refl _

theorem sameBytes_viewSpan (init : Nat) (r : Reach) (host : List HostLine) (v : View) (a n : Nat) :
    SameBytes v.s (viewSpan init r host v a n).s := by
  unfold viewSpan
  induction linesOf a n generalizing v with
  | nil => exact .refl _
  | cons l ls ih => exact (sameBytes_viewLine init r host v l).trans (ih _)

end Sys2Proof.Laws
end

section
/-! PROOFS. A move out of a DRAM pool that lies in a host window (O47). -/

namespace Sys2Proof.Laws

open Sys2Proof Sys2Proof.Machine
set_option Elab.async false

/-! ## What a move brings -/

theorem copySpan_status {s : State} {r : Reach} {dst len : Nat} (m : Mem) (init src : Nat) (h : canAccess s r dst len = true) :
    (copySpan m s init r src dst len).2 = none :=
  writeSpan_status _ _ (by rw [memRead_length]; exact h)

theorem memByte_copySpan {s : State} (hs : Memory.wf s.mem = true) {r : Reach} {dst len i : Nat} (m : Mem) (init src : Nat)
    (h : canAccess s r dst len = true) (hi : i < len) :
    memByte (copySpan m s init r src dst len).1.mem (dst + i) = memByte m (src + i) := by
  unfold copySpan
  rw [memByte_writeSpan hs init _ (by rw [memRead_length]; exact h), memRead_length, if_pos (by omega), Nat.add_sub_cancel_left,
    byteAt_memRead hi]

theorem stores_copySpan {s : State} (hs : Memory.wf s.mem = true) (m : Mem) (init : Nat) (r : Reach) (src dst len : Nat) :
    Stores [(dst, len)] s (copySpan m s init r src dst len).1 := by
  have h := stores_writeSpan hs init r dst (memRead m src len)
    (fun l => spanPoison m (src + (max dst l - dst)) (min (dst + len) (l + 64) - max dst l))
  rwa [memRead_length] at h

@[simp] theorem ground_copySpan (m : Mem) (s : State) (init : Nat) (r : Reach) (src dst len : Nat) :
    ground (copySpan m s init r src dst len).1 = ground s := ground_writeSpan ..

theorem memByte_putPage {s : State} (hs : Memory.wf s.mem = true) (a : Nat) (e : PageEntry) {x : Nat} (hx : region x ≠ .dram) :
    memByte (putPage s a e).mem x = memByte s.mem x := memByte_write_dram hs _ _ _ hx

theorem memByte_putFreeBit {s : State} (hs : Memory.wf s.mem = true) (c : CcmState) (tier f : Nat) (u : Bool) {x : Nat}
    (hx : region x ≠ .dram) : memByte (putFreeBit { s with ccm := c } tier f u).mem x = memByte s.mem x := by
  unfold putFreeBit
  exact memByte_write_dram (s := { s with ccm := c }) hs _ _ _ hx

theorem memByte_setUsed {s : State} (hs : Memory.wf s.mem = true) (tier f : Nat) (u : Bool) {x : Nat} (hx : region x ≠ .dram) :
    memByte (setUsed s tier f u).mem x = memByte s.mem x := by
  dsimp only [setUsed]
  exact memByte_putFreeBit hs _ tier f (!u) hx

theorem endMove_mem (s : State) (mv : CcmMoveRun) : (endMove s mv).mem = s.mem := mem_eq (by simp)

/-- The first byte of a frame of the SRAM pool after a move to it: what the read of the source brought. -/
theorem ccmMove_firstByte {s : State} {id : Nat} {host : List HostLine} {mv : CcmMoveRun} (hs : Memory.wf s.mem = true)
    (found : s.ccm.moves.find? (fun m => m.id == id) = some mv) (pins : (getPage s mv.entryAddr).pins = 0)
    (moving : (getPage s mv.entryAddr).moving = true) (source : mv.fromTier ≠ 3) (target : mv.toTier ≠ 3)
    (elem : canAccess s .ccm (frameElem s mv.toTier mv.toFrame) 4096 = true)
    (scale : canAccess s .ccm (frameScale s mv.toTier mv.toFrame) 256 = true)
    (store : region (frameElem s mv.toTier mv.toFrame) ≠ .dram)
    (apart : Outside [(frameScale s mv.toTier mv.toFrame, 256)] (frameElem s mv.toTier mv.toFrame)) :
    ∃ t, execCcmMove id host s = .next t ∧ memByte t.mem (frameElem s mv.toTier mv.toFrame) =
      memByte (ccmView s host mv.fromTier mv.fromFrame).m (frameElem s mv.fromTier mv.fromFrame) := by
  have same : ground (ccmView s host mv.fromTier mv.fromFrame).s = ground s := (ground_viewSpan ..).trans (ground_viewSpan ..)
  have wfV : Memory.wf (ccmView s host mv.fromTier mv.fromFrame).s.mem = true :=
    (sameBytes_viewSpan ..).wf ((sameBytes_viewSpan ..).wf hs)
  simp only [execCcmMove, found, pins, moving, source, target]
  generalize ccmView s host mv.fromTier mv.fromFrame = v at same wfV ⊢
  have first := copySpan_status v.m initCcm (frameElem s mv.fromTier mv.fromFrame) ((canAccess_of_ground same ..).trans elem)
  have wf1 := (stores_copySpan wfV v.m initCcm .ccm (frameElem s mv.fromTier mv.fromFrame) (frameElem s mv.toTier mv.toFrame) 4096).wf
  have byte := memByte_copySpan (i := 0) wfV v.m initCcm (frameElem s mv.fromTier mv.fromFrame)
    ((canAccess_of_ground same ..).trans elem) (by omega)
  have same1 := (ground_copySpan v.m v.s initCcm .ccm (frameElem s mv.fromTier mv.fromFrame) (frameElem s mv.toTier mv.toFrame) 4096).trans same
  generalize copySpan v.m v.s initCcm .ccm (frameElem s mv.fromTier mv.fromFrame) (frameElem s mv.toTier mv.toFrame) 4096 = c1
    at first wf1 byte same1 ⊢
  have second := copySpan_status v.m initCcm (frameScale s mv.fromTier mv.fromFrame) ((canAccess_of_ground same1 ..).trans scale)
  have rest := stores_copySpan wf1 v.m initCcm .ccm (frameScale s mv.fromTier mv.fromFrame) (frameScale s mv.toTier mv.toFrame) 256
  generalize copySpan v.m c1.1 initCcm .ccm (frameScale s mv.fromTier mv.fromFrame) (frameScale s mv.toTier mv.toFrame) 256 = c2
    at second rest ⊢
  have kept := (rest.same _ apart).trans byte
  simp only [Nat.add_zero] at kept
  have ended : ∀ e, memByte (setUsed (putPage c2.1 mv.entryAddr e) mv.fromTier mv.fromFrame false).mem
      (frameElem s mv.toTier mv.toFrame) = memByte v.m (frameElem s mv.fromTier mv.fromFrame) := fun e =>
    (memByte_setUsed (stores_write rest.wf ..).wf mv.fromTier mv.fromFrame false store).trans
      ((memByte_putPage rest.wf mv.entryAddr e store).trans kept)
  refine ⟨_, by simp [first, second]; rfl, ?_⟩
  rw [endMove_mem]
  split <;> exact ended _

/-! ## A move out of a DRAM pool that lies in a host window (R337, R349) -/

/-- A promotion of frame 0 of the DRAM pool to frame 0 of the SRAM pool; its page-table entry lies at 0x10000. -/
def promotion : CcmMoveRun :=
  { id := 0, promote := true, entryAddr := 0x10000, fromTier := 2, fromFrame := 0, toTier := 1, toFrame := 0, forOp := none }

/-- The window that opens the first 64 KiB of the host windows, on port A. -/
def hostWindow : Bytes := leBytes 32 (0xA00000000000 + 0xF * 2 ^ 64 + 0xF * 2 ^ 96 + 0x3F * 2 ^ 104 + 0xFFFF * 2 ^ 112)

/-- CCM_DRAM_BASE names an address of a host window; one promotion is under way. -/
def poolInWindow : State :=
  { State.reset with
    mr := { MemRegs.reset with memCfg := 0x00400000, dramBase := 0xA00000000000, dramFrames := 1, sramPool := 1 }
    hif := { HifState.reset with wt := [(0, hostWindow)], a := { HostPortState.reset with linkUp := true } }
    ccm := { State.reset.ccm with moves := [promotion], nextMove := 1 }
    rst := { RstState.reset with supply := .on, step := 7 }
    mem := memWrite State.reset.mem 0x10000 [0x0A] false }

/-- What the read over PCIe brings for the first line of the frame. -/
def frameLine : HostLine := { addr := 0xA00000000000, data := some (List.replicate 64 0x55) }

theorem sound_poolInWindow : Sound poolInWindow :=
  sound_of_checks (by decide +kernel) rfl rfl rfl rfl

/-- The first byte of the target frame. -/
def frameByte (r : Res) : Byte := match r with | .next t => memByte t.mem (frameElem poolInWindow 1 0) | _ => 0

/-- Refutes O47: the frame that a move has copied is said to hold the bytes that module memory held at the source frame. In
`poolInWindow` the DRAM pool lies in a host window, so that the move reads the source over PCIe. -/
theorem not_ccmOpsAndMoves : ¬ Obligations.CcmOpsAndMoves := by
  unfold Obligations.CcmOpsAndMoves
  intro h
  obtain ⟨-, moved⟩ := (h.2 poolInWindow sound_poolInWindow).2 0 [frameLine] promotion rfl
  obtain ⟨t, goes, -, -, -, -, copied⟩ := moved (by decide +kernel) (by decide +kernel) (by decide) (.inl rfl) (by decide)
    (by decide +kernel) (by decide +kernel)
  obtain ⟨u, runs, brought⟩ := ccmMove_firstByte (s := poolInWindow) (id := 0) (host := [frameLine]) (mv := promotion) sound_poolInWindow.mem rfl (by decide +kernel)
    (by decide +kernel) (by decide) (by decide) (by decide +kernel) (by decide +kernel) (by decide +kernel)
    (fun q hq => by obtain rfl := List.mem_singleton.mp hq; decide +kernel)
  obtain rfl : u = t := Host.Outcome.next.inj (runs.symm.trans goes)
  have first := congrArg (fun bs => byteAt bs 0) (copied rfl (by decide +kernel))
  simp only [byteAt_memRead (show 0 < 4096 by decide), Nat.add_zero] at first
  exact absurd (brought.symm.trans first) (by decide +kernel)

end Sys2Proof.Laws
end

section
/-! PROOFS. Streams and phases that go back to those before. -/

namespace Sys2Proof.Laws

open Sys2Proof Sys2Proof.Machine
set_option Elab.async false

variable {s t u : State} {n id p : Nat}

/-! ## What a completion leaves of the command processor's state -/

theorem taken_cmd (f : Fetched) (e : Bool) : (taken s n f e).cmd =
    { s.cmd with queues := (taken s n f e).cmd.queues, lastServed := (taken s n f e).cmd.lastServed,
                 completed := (taken s n f e).cmd.completed, rejected := (taken s n f e).cmd.rejected } := by
  cases hs : f.started <;> simp only [taken, hs] <;> rfl

/-- A completion leaves everything but the queues and their counts. -/
theorem completeFull_cmd (f : Fetched) (st : Status) (split late : Bool) (parts : BitVec 16) (e : Bool) :
    let t := completeFull s n f st split late parts e
    t.cmd = { s.cmd with queues := t.cmd.queues, lastServed := t.cmd.lastServed, completed := t.cmd.completed,
                         rejected := t.cmd.rejected, discarded := t.cmd.discarded } := by
  intro t
  have h : t = postRecord (taken s n f e) n _ := completeFull_eq st split late parts e
  rw [h, postRecord_cmd, taken_cmd]

theorem completeFull_streams (f : Fetched) (st : Status) (split late : Bool) (parts : BitVec 16) (e : Bool) :
    (completeFull s n f st split late parts e).cmd.streams = s.cmd.streams := by rw [completeFull_cmd]

theorem completeDesc_streams (f : Fetched) (st : Status) : (completeDesc s n f st).cmd.streams = s.cmd.streams :=
  completeFull_streams ..

/-! ## Streams that go back to those of an earlier state -/

/-- Phase `y` is phase `x` later: its ops are among those of `x`. -/
structure PhaseFrom (x y : PhaseRun) : Prop where
  num : y.num = x.num
  io : ∀ o ∈ y.io, ∃ o' ∈ x.io, o.idx = o'.idx

theorem PhaseFrom.refl (x : PhaseRun) : PhaseFrom x x := ⟨rfl, fun o h => ⟨o, h, rfl⟩⟩

theorem PhaseFrom.trans {x y z : PhaseRun} (h : PhaseFrom x y) (k : PhaseFrom y z) : PhaseFrom x z :=
  ⟨k.num.trans h.num, fun o ho =>
    let ⟨o1, h1, e1⟩ := k.io o ho
    let ⟨o2, h2, e2⟩ := h.io o1 h1
    ⟨o2, h2, e1.trans e2⟩⟩

/-- Stream `r'` is stream `r` later: it starts no phase, and stays stopped. -/
structure RunFrom (r r' : StreamRun) : Prop where
  stop : ∀ st, r.stop = some st → r'.stop = some st
  running : ∀ y ∈ r'.running, ∃ x ∈ r.running, PhaseFrom x y

theorem RunFrom.refl (r : StreamRun) : RunFrom r r := ⟨fun _ h => h, fun y h => ⟨y, h, .refl y⟩⟩

theorem RunFrom.trans {r r1 r2 : StreamRun} (h : RunFrom r r1) (k : RunFrom r1 r2) : RunFrom r r2 :=
  ⟨fun st e => k.stop st (h.stop st e), fun y hy =>
    let ⟨x1, h1, e1⟩ := k.running y hy
    let ⟨x2, h2, e2⟩ := h.running x1 h1
    ⟨x2, h2, e2.trans e1⟩⟩

/-- The same phases, each changed by `g`. -/
theorem RunFrom.map {r : StreamRun} {g : PhaseRun → PhaseRun} (hg : ∀ x, PhaseFrom x (g x)) :
    RunFrom r { r with running := r.running.map g } :=
  ⟨fun _ h => h, fun y hy => by
    obtain ⟨x, hx, rfl⟩ := List.mem_map.mp hy
    exact ⟨x, hx, hg x⟩⟩

/-- Every stream of `t` goes back to the stream of its id in `s`. -/
structure StreamsFrom (s t : State) : Prop where
  runs : ∀ id r', getStream t id = some r' → ∃ r, getStream s id = some r ∧ RunFrom r r'

theorem StreamsFrom.refl (s : State) : StreamsFrom s s := ⟨fun _ r h => ⟨r, h, .refl r⟩⟩

theorem StreamsFrom.trans (h : StreamsFrom s t) (k : StreamsFrom t u) : StreamsFrom s u := ⟨fun id r hr =>
  let ⟨r1, h1, e1⟩ := k.runs id r hr
  let ⟨r2, h2, e2⟩ := h.runs id r1 h1
  ⟨r2, h2, e2.trans e1⟩⟩

theorem StreamsFrom.of_streams (h : t.cmd.streams = s.cmd.streams) : StreamsFrom s t := ⟨fun id r hr =>
  ⟨r, by rw [getStream, ← h]; exact hr, .refl r⟩⟩

theorem StreamsFrom.of_cmd (h : t.cmd = s.cmd) : StreamsFrom s t := .of_streams (by rw [h])

theorem StreamsFrom.of_map {g : Nat → StreamRun → StreamRun}
    (h : t.cmd.streams = s.cmd.streams.map (fun p => (p.1, g p.1 p.2))) (hg : ∀ i r, RunFrom r (g i r)) : StreamsFrom s t := by
  refine ⟨fun id r' hr => ?_⟩
  rw [getStream_of_map h id] at hr
  obtain ⟨r, found, rfl⟩ := Option.map_eq_some_iff.1 hr
  exact ⟨r, found, hg id r⟩

theorem StreamsFrom.foldl {α : Type} {f : State → α → State} (h : ∀ s x, StreamsFrom s (f s x)) (l : List α) :
    ∀ s, StreamsFrom s (l.foldl f s) := by
  induction l with
  | nil => exact fun s => .refl s
  | cons x l ih => exact fun s => (h s x).trans (ih (f s x))

theorem streamsFrom_modStream {f : StreamRun → StreamRun} (hf : ∀ r, RunFrom r (f r)) (s : State) (i : Nat) :
    StreamsFrom s (modStream s i f) :=
  .of_map (modStream_streams s i f) fun k r => by
    unfold atStream
    split
    · exact hf r
    · exact .refl r

theorem streamsFrom_modPhase {f : PhaseRun → PhaseRun} (hf : ∀ x, PhaseFrom x (f x)) (s : State) (i k : Nat) :
    StreamsFrom s (modPhase s i k f) :=
  streamsFrom_modStream (fun r => .map fun x => by
    split
    · exact hf x
    · exact .refl x) s i

theorem streamsFrom_noteStatus (s : State) (i k : Nat) (st : Status) : StreamsFrom s (noteStatus s i k st) :=
  streamsFrom_modPhase (fun x => by (repeat' split) <;> exact ⟨rfl, fun o h => ⟨o, h, rfl⟩⟩) s i k

theorem awaitDone_idx (s : State) (c : Nat) (o : IoOp) : (awaitDone s c o).idx = o.idx := by
  unfold awaitDone
  (repeat' split) <;> rfl

theorem streamsFrom_bumpCounter (s : State) (c : Nat) : StreamsFrom s (bumpCounter s c) :=
  .of_map (g := fun _ r => { r with running := r.running.map (fun x =>
      { x with io := x.io.map (awaitDone (setCounter s c (counter s c + 1)) c) }) }) rfl
    fun _ _ => .map fun _ => ⟨rfl, fun _ ho => by
      obtain ⟨o, h, rfl⟩ := List.mem_map.mp ho
      exact ⟨o, h, awaitDone_idx ..⟩⟩

theorem streamsFrom_signal (s : State) (i : Nat) (d : Bytes) : StreamsFrom s (signal s i d) := by
  unfold signal
  simp only
  split
  · exact streamsFrom_bumpCounter s _
  · exact .refl s

theorem streamsFrom_finishIo (s : State) (i k : Nat) (d : Bytes) (st : Status) : StreamsFrom s (finishIo s i k d st) :=
  (streamsFrom_signal s i d).trans (streamsFrom_noteStatus _ i k st)

theorem streamsFrom_endIo (s : State) (i k j : Nat) (st : Status) : StreamsFrom s (endIo s i k j st) :=
  streamsFrom_modPhase (f := fun x => { x with io := x.io.map (fun o => if o.idx = j then _ else o) })
    (fun x => ⟨rfl, fun o ho => by
      obtain ⟨o', h, rfl⟩ := List.mem_map.mp ho
      refine ⟨o', h, ?_⟩
      split <;> rfl⟩) s i k

/-! ## The end of a collective and of a phase -/

theorem streamsFrom_ownerEnd (s : State) (o : OpOwner) (st : Status) : StreamsFrom s (ownerEnd s o st) := by
  cases o with
  | io i k j => exact streamsFrom_endIo s i k j st
  | fired k => exact .of_cmd rfl

theorem collResult_cmd (s : State) (c : Coll) (st : Status) (parts : Nat) : (collResult s c st parts).cmd = s.cmd :=
  cmd_eq (by simp)

theorem poisonDst_cmd (s : State) (c : Coll) : (poisonDst s c).cmd = s.cmd := cmd_eq (by simp)

theorem collSend_cmd (s : State) (c : Coll) (rank kind item addr : Nat) (payload : Bytes) (poison : Bool) :
    (collSend s c rank kind item addr payload poison).cmd = s.cmd := cmd_eq (by simp)

theorem streamsFrom_setColl (c : CollState) : StreamsFrom s { s with coll := c } := .of_cmd rfl

theorem streamsFrom_closeColl (s : State) (c : Coll) (st : Status) (parts : Nat) : StreamsFrom s (closeColl s c st parts) := by
  have freed : StreamsFrom s (if c.claimed then markSlots s c.first (coSlots c.desc) false else s) := by
    split
    · exact streamsFrom_setColl _
    · exact .refl s
  exact ((freed.trans (.of_cmd (collResult_cmd _ c st parts))).trans (streamsFrom_setColl _)).trans
    (streamsFrom_ownerEnd _ c.owner st)

theorem streamsFrom_abortHere (s : State) (c : Coll) (st : Status) : StreamsFrom s (abortHere s c st) := by
  dsimp only [abortHere]
  refine StreamsFrom.trans (.of_cmd ?_) (streamsFrom_closeColl ..)
  rw [poisonDst_cmd]

theorem streamsFrom_abortColl (s : State) (k : Nat) (st : Status) : StreamsFrom s (abortColl s k st) := by
  unfold abortColl
  split
  · exact .refl s
  next c _ =>
    refine StreamsFrom.trans (StreamsFrom.trans (.of_cmd ?_) (.foldl (fun x j => .of_cmd ?_) _ _)) (streamsFrom_abortHere ..)
    · show (if st = .mismatch then _ else s : State).cmd = s.cmd
      split <;> rfl
    · split
      · rfl
      · exact collSend_cmd ..

theorem streamsFrom_abortCollsOf (s : State) (i : Nat) (k : Option Nat) : StreamsFrom s (abortCollsOf s i k) :=
  .foldl (fun x j => streamsFrom_abortColl x j .timeout) _ s

theorem streamsFrom_filterOut (s : State) (i : Nat) :
    StreamsFrom s { s with cmd := { s.cmd with streams := s.cmd.streams.filter (·.1 != i) } } := by
  refine ⟨fun k r hr => ⟨r, ?_, .refl r⟩⟩
  simp only [getStream, List.find?_filter] at hr ⊢
  obtain ⟨q, hq, rfl⟩ := Option.map_eq_some_iff.1 hr
  by_cases e : k = i
  · exact absurd (List.find?_some hq) (by simp [e])
  · rw [show (fun a : Nat × StreamRun => decide ((a.1 != i) = true ∧ (a.1 == k) = true)) = fun a => a.1 == k from
      funext fun a => by by_cases ha : a.1 = k <;> simp [ha, e]] at hq
    rw [hq]
    rfl

theorem streamsFrom_settleStream (s : State) (i : Nat) : StreamsFrom s (settleStream s i) := by
  unfold settleStream
  split
  · exact .refl s
  next r _ =>
    split
    · refine (streamsFrom_filterOut s i).trans ?_
      simp only
      split
      · split
        · exact .of_streams (completeDesc_streams ..)
        · exact .of_streams rfl
      · exact .of_streams rfl
      · exact .of_streams rfl
    · exact .refl s

theorem streamsFrom_endPhase (s : State) (i k : Nat) : StreamsFrom s (endPhase s i k) := by
  unfold endPhase
  split
  next r ph _ _ =>
    refine StreamsFrom.trans ?_ (streamsFrom_settleStream _ i)
    refine StreamsFrom.trans ?_ (streamsFrom_modStream (fun x => ⟨?_, fun y hy => ?_⟩) _ i)
    · refine .of_cmd (cmd_eq ?_)
      rw [putPstat_rest _ _ _ _ (by decide), withTrn_rest (fun x => by simp) ph _ (by decide), endPhaseBinds_rest _ _ (by decide)]
    · intro e h
      simp only
      split
      · rw [h]
        rfl
      · exact h
    · exact ⟨y, (List.mem_filter.mp hy).1, .refl y⟩
  · exact .refl s

theorem dropCoreOps_cmd (l : List Nat) (mine : Token → Bool) (s : State) :
    (l.foldl (fun x n => dropLists (endCoreOps x n mine).1 n mine) s).cmd = s.cmd :=
  cmd_eq (foldl_rest (f := fun x n => dropLists (endCoreOps x n mine).1 n mine)
    (fun x n => (dropLists_rest _ n mine (by decide)).trans (endCoreOps_rest x n mine (by decide))) l s)

theorem poisonGets_cmd (l : List IoOp) (s : State) : (l.foldl (fun x o => poisonGet x o.desc) s).cmd = s.cmd :=
  cmd_eq (foldl_rest (f := fun x o => poisonGet x o.desc) (fun x o => poisonGet_rest x o.desc (by decide)) l s)

theorem poisonMuu_cmd (s : State) (run : MuuRun) : (poisonMuu s run).cmd = s.cmd := cmd_eq (by simp)

theorem dropFired_cmd (s : State) (i : Nat) (k : Option Nat) : (dropFired s i k).cmd = s.cmd :=
  cmd_eq (foldl_rest (f := poisonGet) (fun x d => poisonGet_rest x d (by decide)) _ s)

theorem dropSamples_cmd (s : State) (i : Nat) (k : Option Nat) : (dropSamples s i k).cmd = s.cmd := rfl

theorem streamsFrom_forceEnd (s : State) (i k : Nat) (st : Status) (hard : Bool) : StreamsFrom s (forceEnd s i k st hard) := by
  unfold forceEnd
  split
  · exact .refl s
  next ph _ =>
    extract_lets mine s1 cs s2 s3 s4 s5 s6 s7
    have h1 : s1.cmd = s.cmd := dropCoreOps_cmd _ mine s
    have h3 : s3.cmd = s2.cmd := poisonGets_cmd ph.io s2
    have h5 : s5.cmd = s4.cmd := by
      simp only [s5]
      split
      · split
        · exact poisonMuu_cmd s4 _
        · rfl
      · rfl
    have h : s5.cmd = s.cmd := h5.trans (h3.trans h1)
    have h6 : StreamsFrom s s6 := ((StreamsFrom.of_cmd (show (dropSamples s5 i (some k)).cmd = s.cmd from h)).trans
      (streamsFrom_abortCollsOf _ i (some k))).trans (.of_cmd (dropFired_cmd _ i (some k)))
    have h7 : StreamsFrom s6 s7 := by
      refine streamsFrom_modPhase ?_ s6 i k
      exact fun x => ⟨rfl, fun o ho => absurd ho (by simp)⟩
    exact (h6.trans h7).trans (streamsFrom_endPhase s7 i k)

theorem streamsFrom_fabricStops (s : State) (i k : Nat) (d : Bytes) (st : Status) : StreamsFrom s (fabricStops s i k d st) := by
  unfold fabricStops
  split
  · exact streamsFrom_forceEnd s i k st false
  · exact .refl s

end Sys2Proof.Laws
end

section
/-! PROOFS. Ops that end, and blink samples (O46). -/

namespace Sys2Proof.Laws

open Sys2Proof Sys2Proof.Machine
set_option Elab.async false

variable {s t : State} {n id p : Nat}

/-! ## The units of a core at the end of an op -/

/-- What the lists of a core leave: everything but its tokens. -/
def units (c : Core) : Core := { c with tokens := [], next := 0, svcTokens := [], svcNext := 0 }

theorem units_retireSvc (hk : keysRise s.cores = true) :
    units (getCore (retireSvc s n) n) = units (getCore s n) ∧ keysRise (retireSvc s n).cores = true := by
  dsimp only [retireSvc]
  split
  · split
    · refine ⟨?_, keysRise_smSet hk⟩
      show units (getCore (setCore s n _) n) = _
      rw [getCore_setCore_self hk]
      rfl
    · exact ⟨rfl, hk⟩
  · exact ⟨rfl, hk⟩

theorem units_retireList (hk : keysRise s.cores = true) : units (getCore (retireList s n) n) = units (getCore s n) := by
  obtain ⟨svc, rise⟩ := units_retireSvc (n := n) hk
  unfold retireList
  dsimp only
  split
  · split
    · refine Eq.trans ?_ svc
      show units (getCore (setCore (retireSvc s n) n _) n) = _
      rw [getCore_setCore_self rise]
      rfl
    · exact svc
  · exact svc

/-- The end of an op leaves the units of its core. -/
theorem units_finishOp (hk : keysRise s.cores = true) (tok : Token) (d : Bytes) (st : Status) :
    units (getCore (finishOp s n tok d st) n) = units (getCore s n) := by
  have same : (noteStatus (signal (touchCluster s (n / 64)) tok.stream d) tok.stream tok.phase st).cores = s.cores :=
    cores_eq (by simp)
  unfold finishOp
  rw [units_retireList (by rw [same]; exact hk), getCore, same]
  rfl

theorem finishOp_mem (s : State) (n : Nat) (tok : Token) (d : Bytes) (st : Status) : (finishOp s n tok d st).mem = s.mem :=
  mem_eq (by simp)

/-- An op whose unit `c` clears ends with its unit empty. -/
theorem units_finishOp_setCore (hk : keysRise s.cores = true) (c : Core) (tok : Token) (d : Bytes) (st : Status) :
    units (getCore (finishOp (setCore s n c) n tok d st) n) = units c := by
  rw [units_finishOp (keysRise_smSet hk), getCore_setCore_self hk]

theorem countCoe_cores (s : State) (r : OpRun) (st : Status) : (countCoe s r st).cores = s.cores := cores_eq (by simp)

theorem countCoe_none {r : OpRun} (h : r.photBase = 0) (s : State) (st : Status) : countCoe s r st = s := by
  simp only [countCoe, photUpdate, h, if_pos]

/-! ## A sample's ladder entry -/

theorem satField_length {b : Bytes} {m off k : Nat} (hb : b.length = m) (h : off + k ≤ m) (v : Nat) :
    (satField b off k v).length = m :=
  (putBytes_length (by rw [leBytes_length, hb]; exact h)).trans hb

theorem ladderSample_length {b : Bytes} (h : b.length = 64) (e : Option Nat) (x : Bool) : (ladderSample b e x).length = 64 := by
  have counted : (satField b 24 4 1).length = 64 := satField_length h (by omega) 1
  cases e with
  | none => exact satField_length counted (by omega) 1
  | some v =>
    have beyond : (if x then satField (satField b 24 4 1) 28 4 1 else satField b 24 4 1).length = 64 := by
      split
      · exact satField_length counted (by omega) 1
      · exact counted
    exact satField_length ((putBytes_length (by rw [leBytes_length, beyond]; omega)).trans beyond) (by omega) _

/-- A ladder entry that is updated stores in its 64 bytes. -/
theorem stores_ladderUpdate (hs : Memory.wf s.mem = true) (entry : Option Nat) {f : Bytes → Bytes}
    (hf : ∀ b, b.length = 64 → (f b).length = 64) :
    Stores (entry.toList.map (fun a => (a, 64))) s (ladderUpdate s entry f) := by
  cases entry with
  | none => exact .refl hs _
  | some a =>
    unfold ladderUpdate
    dsimp only
    split
    · exact .refl hs _
    next ok =>
      have len : (read s .dram a 64).data.length = 64 := by
        simp only [Machine.read]
        split
        · exact memRead_length ..
        · exact List.length_replicate
      have := stores_write hs .dram a (f (read s .dram a 64).data) false
      rwa [hf _ len] at this

/-! ## The measurement's reads -/

/-- What a unit sees of several spans. -/
def viewSpans (init : Nat) (r : Reach) (host : List HostLine) (spans : List (Nat × Nat)) (v : View) : View :=
  spans.foldl (fun a x => viewSpan init r host a x.1 x.2) v

theorem viewSpans_rest {may : Spot → Bool} (init : Nat) (r : Reach) (host : List HostLine) (spans : List (Nat × Nat)) (v : View)
    (hw : MayView may) : rest may (viewSpans init r host spans v).s = rest may v.s := by
  unfold viewSpans
  induction spans generalizing v with
  | nil => rfl
  | cons x l ih => rw [List.foldl_cons, ih, viewSpan_rest _ _ _ _ _ _ hw]

theorem sameBytes_viewSpans (init : Nat) (r : Reach) (host : List HostLine) (spans : List (Nat × Nat)) (v : View) :
    SameBytes v.s (viewSpans init r host spans v).s := by
  unfold viewSpans
  induction spans generalizing v with
  | nil => exact .refl _
  | cons x l ih => exact (sameBytes_viewSpan init r host v x.1 x.2).trans (ih _)

/-- A view of the memory of `s` as it stands, in a state that differs from `s` in nothing that a read looks at. -/
structure Clean (s : State) (v : View) : Prop where
  view : v.m = s.mem
  mem : v.s.mem = s.mem
  mr : v.s.mr = s.mr
  ground : ground v.s = ground s

theorem smSet_same {m : List (Nat × Bool)} {k : Nat} (hw : smWf false m = true) (h : smGet false m k = true) :
    smSet false m k true = m := by
  induction m with
  | nil => exact absurd h (by simp [smGet])
  | cons q m ih =>
    obtain ⟨j, w⟩ := q
    obtain ⟨_, later, rest⟩ := smWf_cons.mp hw
    simp only [smGet] at h
    simp only [smSet]
    by_cases hjk : j = k
    · subst hjk
      rw [if_pos rfl] at h
      simp [h]
    · rw [if_neg hjk] at h
      have : ¬ k < j := fun lt => by
        have absent : smGet false m k = false := smGet_above (fun q hq => Nat.lt_trans lt (later q hq))
        rw [absent] at h
        cases h
      rw [if_neg this, if_neg (by omega), ih rest h]

/-- Where no error is held, a line that the unit reaches shows what memory holds. -/
theorem clean_viewLine {init : Nat} {r : Reach} {v : View} {l : Nat} {host : List HostLine} (hs : Memory.wf s.mem = true)
    (he : s.mr.dramErr = []) (hh : ∀ h ∈ host, region h.addr ≠ .dram) (hv : Clean s v) (hr : region l ≠ .host)
    (hc : canAccess s r l 64 = true) : Clean s (viewLine init r host v l) := by
  have demand : demandWith host (touch v.s l) l = touch v.s l := by
    rw [demandWith]
    split
    next dram =>
      have none : host.find? (fun h => decide (h.addr = l)) = none :=
        List.find?_eq_none.mpr fun h hm e => hh h hm (by rw [of_decide_eq_true e, dram])
      simp only [errAt, show (touch v.s l).mr = s.mr from (mr_eq (by simp)).trans hv.mr, he, none, smGet, meetErr]
    next => rfl
  have marked : (if linePoison s.mem l then setPoison s.mem (l / 64) true else s.mem) = s.mem := by
    split
    next h =>
      simp only [setPoison]
      rw [smSet_same (wf_iff.mp hs).2 h]
    next => rfl
  simp only [viewLine, if_neg hr, canAccess_of_ground hv.ground, hc, if_pos, demand]
  refine ⟨?_, (touch_mem ..).trans hv.mem, (mr_eq (by simp)).trans hv.mr, (ground_touch ..).trans hv.ground⟩
  simp only [touch_mem, hv.mem, hv.view, marked]

theorem clean_viewSpan {init : Nat} {r : Reach} {v : View} {a n : Nat} {host : List HostLine} (hs : Memory.wf s.mem = true)
    (he : s.mr.dramErr = []) (hh : ∀ h ∈ host, region h.addr ≠ .dram) (hv : Clean s v)
    (h : ∀ l ∈ linesOf a n, region l ≠ .host ∧ canAccess s r l 64 = true) : Clean s (viewSpan init r host v a n) :=
  List.foldlRecOn (motive := Clean s) (linesOf a n) _ hv fun _ hx l hl => clean_viewLine hs he hh hx (h l hl).1 (h l hl).2

theorem clean_viewSpans {init : Nat} {r : Reach} {v : View} {spans : List (Nat × Nat)} {host : List HostLine}
    (hs : Memory.wf s.mem = true) (he : s.mr.dramErr = []) (hh : ∀ h ∈ host, region h.addr ≠ .dram) (hv : Clean s v)
    (h : ∀ z ∈ spans, ∀ l ∈ linesOf z.1 z.2, region l ≠ .host ∧ canAccess s r l 64 = true) :
    Clean s (viewSpans init r host spans v) :=
  List.foldlRecOn (motive := Clean s) spans _ hv fun _ hx z hz => clean_viewSpan hs he hh hx (h z hz)

/-! ## A sample is measured -/

/-- The state in which a sample has left its queue and stands in its ladder entry, read through `v`. -/
def measured (v : View) (cl : Nat) (rest : List BlinkSample) (entry : Option Nat) (e : Option Nat) (exceed : Bool) : State :=
  let s1 := ladderUpdate { v.s with blink := smSet [] v.s.blink cl rest } entry (fun b => ladderSample b e exceed)
  { s1 with cr := { s1.cr with blinkSamples := satAdd s1.cr.blinkSamples 1 } }

/-- What its phase takes of a sample. -/
def withSample (e : Option Nat) (exceed : Bool) (q : PhaseRun) : PhaseRun :=
  { q with samples := q.samples - 1, exceed := q.exceed || exceed,
           errMax := match e with | some x => maxCode32 q.errMax x | none => q.errMax }

/-- The threshold of the phase that a sample was taken in. -/
def sampleLimit (s : State) (x : BlinkSample) : Nat :=
  match getPhase s x.stream x.phase with | some q => le q.ladder 4 4 | none => ffNan f32F

/-- What the measurement of a sample reads. -/
def sampleView (s : State) (host : List HostLine) (x : BlinkSample) : View :=
  viewSpans initDma .dma host (shadowSpans x) (viewOf s)

/-- Whether an error is beyond a threshold. -/
def beyond (limit : Nat) (e : Option Nat) : Bool := match e with | some x => ffLt f32F limit x | none => false

theorem beyond_eq_any (limit : Nat) (e : Option Nat) : beyond limit e = e.any (ffLt f32F limit) := by cases e <;> rfl

theorem blinkSample_exec {cluster : ClusterId} {host : List HostLine} {x : BlinkSample} {rest : List BlinkSample}
    (h : blinkQueue s cluster.toNat = x :: rest) : exec (.blinkSample cluster host) s =
      let v := sampleView s host x
      let e := blinkError v.m x
      .next (modPhase (measured v cluster.toNat rest x.ladderEntry e (beyond (sampleLimit s x) e)) x.stream x.phase
        (withSample e (beyond (sampleLimit s x) e))) := by
  show execBlinkSample cluster host s = _
  simp only [execBlinkSample, h]
  rfl

theorem measured_cmd (v : View) (cl : Nat) (rest : List BlinkSample) (entry : Option Nat) (e : Option Nat) (exceed : Bool) :
    (measured v cl rest entry e exceed).cmd = v.s.cmd :=
  (cmd_eq (t := ladderUpdate _ entry _) (ladderUpdate_rest _ _ _ (by decide))).trans rfl

theorem measured_cores (v : View) (cl : Nat) (rest : List BlinkSample) (entry : Option Nat) (e : Option Nat) (exceed : Bool) :
    (measured v cl rest entry e exceed).cores = v.s.cores :=
  (cores_eq (t := ladderUpdate _ entry _) (ladderUpdate_rest _ _ _ (by decide))).trans rfl

theorem measured_blink (v : View) (cl : Nat) (rest : List BlinkSample) (entry : Option Nat) (e : Option Nat) (exceed : Bool) :
    (measured v cl rest entry e exceed).blink = smSet [] v.s.blink cl rest :=
  (blink_eq (t := ladderUpdate _ entry _) (ladderUpdate_rest _ _ _ (by decide))).trans rfl

theorem measured_samples (v : View) (cl : Nat) (rest : List BlinkSample) (entry : Option Nat) (e : Option Nat) (exceed : Bool) :
    (measured v cl rest entry e exceed).cr.blinkSamples = satAdd v.s.cr.blinkSamples 1 := by
  have h := cr_eq (t := ladderUpdate { v.s with blink := smSet [] v.s.blink cl rest } entry (fun b => ladderSample b e exceed))
    (ladderUpdate_rest _ _ _ (by decide))
  simp only [measured, h]

theorem stores_measured {v : View} (hs : Memory.wf v.s.mem = true) (cl : Nat) (rest : List BlinkSample) (entry : Option Nat)
    (e : Option Nat) (exceed : Bool) :
    Stores (entry.toList.map (fun a => (a, 64))) v.s (measured v cl rest entry e exceed) := by
  have h := stores_ladderUpdate (s := { v.s with blink := smSet [] v.s.blink cl rest }) hs entry
    (f := fun b => ladderSample b e exceed) fun b hb => ladderSample_length hb e exceed
  exact ⟨h.wf, h.same⟩

theorem getPhase_of_cmd (h : t.cmd = s.cmd) (i k : Nat) : getPhase t i k = getPhase s i k := by
  simp only [getPhase, getStream, h]

theorem getPhase_sampled (h : t.cmd = s.cmd) (i k : Nat) (e : Option Nat) (exceed : Bool) :
    getPhase (modPhase t i k (withSample e exceed)) i k = (getPhase s i k).map (withSample e exceed) := by
  rw [getPhase_modPhase_self (f := withSample e exceed) (fun _ => rfl), getPhase_of_cmd h]

theorem sampleView_cmd (s : State) (host : List HostLine) (x : BlinkSample) : (sampleView s host x).s.cmd = s.cmd :=
  cmd_eq (viewSpans_rest _ _ _ _ _ (by decide))

theorem sampleView_cores (s : State) (host : List HostLine) (x : BlinkSample) : (sampleView s host x).s.cores = s.cores :=
  cores_eq (viewSpans_rest _ _ _ _ _ (by decide))

theorem sampleView_blink (s : State) (host : List HostLine) (x : BlinkSample) : (sampleView s host x).s.blink = s.blink :=
  blink_eq (viewSpans_rest _ _ _ _ _ (by decide))

theorem sampleView_cr (s : State) (host : List HostLine) (x : BlinkSample) : (sampleView s host x).s.cr = s.cr :=
  cr_eq (viewSpans_rest _ _ _ _ _ (by decide))

/-- The entry takes the sample where it can be read. -/
theorem measured_entry {v : View} {a : Nat} (hs : Memory.wf s.mem = true) (hv : Clean s v) (ok : (read s .dram a 64).err = none)
    (cl : Nat) (rest : List BlinkSample) (e : Option Nat) (exceed : Bool) :
    memRead (measured v cl rest (some a) e exceed).mem a 64 = ladderSample (memRead s.mem a 64) e exceed := by
  let u : State := { v.s with blink := smSet [] v.s.blink cl rest }
  have reach : canAccess u .dram a 64 = canAccess s .dram a 64 := canAccess_of_ground hv.ground .dram a 64
  have reads : read u .dram a 64 = read s .dram a 64 :=
    read_of_ground (t := u) hv.ground hv.mem (congrArg MemRegs.dramErr hv.mr) .dram a 64
  have access : canAccess s .dram a 64 = true := by
    by_contra no
    simp [Machine.read, no] at ok
  have data : (read s .dram a 64).data = memRead s.mem a 64 := by simp only [Machine.read, access, if_pos]
  have len := ladderSample_length (memRead_length s.mem a 64) e exceed
  show memRead (ladderUpdate u (some a) (fun b => ladderSample b e exceed)).mem a 64 = _
  simp only [ladderUpdate, reads, ok, data, write, len, reach, access, if_pos, setMem_mem]
  have self := memRead_memWrite_self (M := u.mem) (by rw [show u.mem = s.mem from hv.mem]; exact hs) a
    (ladderSample (memRead s.mem a 64) e exceed) false
  rwa [len] at self

/-! ## Ops that end -/

/-- What an op's end leaves of its core, whose units become those of `c`, and of memory. -/
def UnitLeft (s : State) (n : Nat) (c : Core) (t : State) : Prop := units (getCore t n) = units c ∧ t.mem = s.mem

theorem unitLeft_finishOp (hk : keysRise s.cores = true) (c : Core) (tok : Token) (d : Bytes) (st : Status) :
    UnitLeft s n c (finishOp (setCore s n c) n tok d st) :=
  ⟨units_finishOp_setCore hk c tok d st, (finishOp_mem ..).trans rfl⟩

theorem completeVe_ends (hk : keysRise s.cores = true) {v : VeRun} (h : (getCore s n).ve = some v) (fin : v.finished = true) :
    UnitLeft s n { getCore s n with ve := none, noProg := 0 } (completeVe s n) := by
  simp only [completeVe, h, fin, if_pos]
  exact unitLeft_finishOp hk _ _ _ _

theorem completeVe_stays {v : VeRun} (h : (getCore s n).ve = some v) (run : v.finished = false) : completeVe s n = s := by
  simp [completeVe, h, run]

theorem completeCoe_ends (hk : keysRise s.cores = true) {r : OpRun} (h : (getCore s n).coe = some r)
    (first : (coeTurns s (n / 64)).any (· < r.turn) = false) :
    units (getCore (completeCoe s n) n) = units { getCore s n with coe := none, noProg := 0 } ∧
      (r.photBase = 0 → (completeCoe s n).mem = s.mem) := by
  have ends : completeCoe s n = finishOp (countCoe (setCore s n { getCore s n with coe := none, noProg := 0 }) r r.status) n
      r.tok r.desc r.status := by
    simp [completeCoe, h, first]
  rw [ends]
  refine ⟨?_, fun none => ?_⟩
  · rw [units_finishOp (by rw [countCoe_cores]; exact keysRise_smSet hk), getCore, countCoe_cores]
    exact congrArg units (getCore_setCore_self hk)
  · rw [countCoe_none none, finishOp_mem]
    rfl

theorem completeCoe_stays {r : OpRun} (h : (getCore s n).coe = some r) (later : (coeTurns s (n / 64)).any (· < r.turn) = true) :
    completeCoe s n = s := by
  simp [completeCoe, h, later]

theorem completeDma_ends (hk : keysRise s.cores = true) {r : OpRun} (h : (getCore s n).dma = some r) (fin : r.finished = true) :
    UnitLeft s n { getCore s n with dma := none, noProg := 0 } (completeDma s n) := by
  simp only [completeDma, h, fin, if_pos]
  exact unitLeft_finishOp hk _ _ _ _

theorem completeCcm_ends (hk : keysRise s.cores = true) {r : OpRun} (h : (getCore s n).ccm = some r) (fin : r.finished = true) :
    UnitLeft s n { getCore s n with ccm := none, noProg := 0 } (completeCcm s n) := by
  simp only [completeCcm, h, fin, if_pos]
  exact unitLeft_finishOp hk _ _ _ _

/-- No op `i` is in flight in phase `p` of stream `id`. -/
def NoIo (s : State) (id p i : Nat) : Prop :=
  ∀ r, getStream s id = some r → ∀ x ∈ r.running, x.num = p → ∀ o ∈ x.io, o.idx ≠ i

theorem NoIo.later {i : Nat} (h : NoIo s id p i) (k : StreamsFrom s t) : NoIo t id p i := by
  intro r' hr' y hy hp o ho
  obtain ⟨r, hr, from_⟩ := k.runs id r' hr'
  obtain ⟨x, hx, same⟩ := from_.running y hy
  obtain ⟨o', ho', e⟩ := same.io o ho
  rw [e]
  exact h r hr x hx (same.num.symm.trans hp) o' ho'

theorem NoIo.of_phase {i : Nat} (h : NoIo s id p i) {ph : PhaseRun} (hp : getPhase s id p = some ph) : ∀ o ∈ ph.io, o.idx ≠ i := by
  obtain ⟨r, hr, found⟩ := Option.bind_eq_some_iff.mp hp
  exact h r hr ph (List.mem_of_find?_eq_some found) (by simpa using List.find?_some found)

theorem noIo_dropped (s : State) (id p i : Nat) :
    NoIo (modPhase s id p (fun x => { x with io := x.io.filter (fun y => y.idx != i) })) id p i := by
  intro r hr y hy num o ho
  rw [modPhase, getStream_modStream_self] at hr
  obtain ⟨r0, -, rfl⟩ := Option.map_eq_some_iff.1 hr
  obtain ⟨x, -, rfl⟩ := List.mem_map.mp hy
  by_cases hx : x.num = p
  · rw [if_pos hx] at ho
    simpa using (List.mem_filter.mp ho).2
  · rw [if_neg hx] at num
    exact absurd num hx

theorem completeIoOp_drops {i : Nat} {o : IoOp} (h : getIo s id p i = some o) (fin : o.finished = true) :
    NoIo (completeIoOp s id p i) id p i := by
  have drop : ∀ u : State, u.cmd = s.cmd → NoIo (fabricStops (completeIo u id p i) id p o.desc o.status) id p i := by
    intro u hu
    have found : getIo u id p i = some o := by rw [getIo, getPhase_of_cmd hu]; exact h
    simp only [completeIo, found, fin, if_pos]
    exact (noIo_dropped u id p i).later ((streamsFrom_finishIo _ id p _ _).trans (streamsFrom_fabricStops _ id p _ _))
  simp only [completeIoOp, h, fin, if_pos]
  split
  · exact drop (dropAwait s (.io id p i)) rfl
  · exact drop s rfl

/-- Settles O46: the units of a core after the op that leaves them, the ops of a phase, which go back to those before, and
the measurement of the oldest sample of a cluster. -/
theorem opsCompleteAndSample : Obligations.OpsCompleteAndSample := by
  unfold Obligations.OpsCompleteAndSample
  refine ⟨fun s hs => ⟨fun core => ⟨?_, ?_, ?_, ?_, ?_⟩, fun id p i o found => ⟨fun fin => ?_, fun fin => ?_⟩⟩,
    fun cluster host s hs => ⟨fun x rest queue => ⟨?_, fun ph hp he hh reach => ?_⟩, fun empty => ?_⟩⟩
  · intro v hv fin
    obtain ⟨left, mem⟩ := completeVe_ends hs.cores hv fin
    exact ⟨_, rfl, congrArg Core.ve left, mem⟩
  · exact fun v hv run => ⟨_, rfl, completeVe_stays hv run⟩
  · intro r hr
    refine ⟨fun first => ?_, fun later => ⟨_, rfl, completeCoe_stays hr later⟩⟩
    obtain ⟨left, mem⟩ := completeCoe_ends hs.cores hr first
    exact ⟨_, rfl, congrArg Core.coe left, mem⟩
  · intro r hr fin
    obtain ⟨left, mem⟩ := completeDma_ends hs.cores hr fin
    exact ⟨_, rfl, congrArg Core.dma left, mem⟩
  · intro r hr fin
    obtain ⟨left, mem⟩ := completeCcm_ends hs.cores hr fin
    exact ⟨_, rfl, congrArg Core.ccm left, mem⟩
  · exact ⟨_, rfl, fun ph hp => (completeIoOp_drops found fin).of_phase hp⟩
  · refine ⟨_, rfl, ?_⟩
    simp [completeIoOp, found, fin]
  · have bytes := sameBytes_viewSpans initDma .dma host (shadowSpans x) (viewOf s)
    refine ⟨_, blinkSample_exec queue, ?_, ?_, ?_, ?_, fun ph hp => ?_⟩
    · show smGet [] (measured _ _ _ _ _ _).blink _ = _
      rw [measured_blink, sampleView_blink, get_set_self hs.blink]
    · show (measured _ _ _ _ _ _).cr.blinkSamples = _
      rw [measured_samples, sampleView_cr]
    · show (measured _ _ _ _ _ _).cores = _
      rw [measured_cores, sampleView_cores]
    · exact sameMem_trans (bytes.sameMem _) (stores_measured (bytes.wf hs.mem) _ _ _ _ _).same
    · rw [getPhase_sampled (measured_cmd ..|>.trans (sampleView_cmd ..)), hp]
      rfl
  · subst hh
    have clean : Clean s (sampleView s [] x) := clean_viewSpans hs.mem he (by simp) ⟨rfl, rfl, rfl, rfl⟩ reach
    have limit : sampleLimit s x = le ph.ladder 4 4 := by simp only [sampleLimit, hp]
    refine ⟨_, blinkSample_exec queue, ⟨withSample (blinkError (sampleView s [] x).m x)
      (beyond (sampleLimit s x) (blinkError (sampleView s [] x).m x)) ph, ?_, rfl, ?_, ?_⟩, fun a entry ok => ?_⟩
    · rw [getPhase_sampled (measured_cmd ..|>.trans (sampleView_cmd ..)), hp]
      rfl
    · rw [clean.view, beyond_eq_any, limit]
      rfl
    · rw [clean.view]
      rfl
    · rw [← limit, ← beyond_eq_any, entry]
      have := measured_entry hs.mem clean ok cluster.toNat rest (blinkError s.mem x) (beyond (sampleLimit s x) (blinkError s.mem x))
      rw [← clean.view] at this ⊢
      exact this
  · exact ⟨s, by show execBlinkSample cluster host s = _; simp only [execBlinkSample, empty], rfl⟩

end Sys2Proof.Laws
end

section
/-! PROOFS. What the fabric has to do at once, and packets that arrive. -/

namespace Sys2Proof.Laws

open Sys2Proof Sys2Proof.Machine
set_option Elab.async false

variable {s t u : State} {p q n : Nat}

/-! ## Nothing left to be done at once

What a command of the fabric leaves to be done is found in the packets that wait at an FI or in an input buffer, the WINDOW_SET
that waits, the ops and their tags, the fired ops and the collectives. -/

/-- These parts of the state, with the packets that wait for PCIe and the reads that wait for it. -/
def toDo (s : State) : List HostPost × List HostFetch × List LoopPkt × List HeldPkt × Option (Nat × Nat × Nat) × List FabOp ×
    List FabTag × List FiredOp × List Coll :=
  (s.fab.posts, s.fab.fetches, s.fab.loop, s.fab.held, s.hif.wtWait, s.fab.ops, s.fab.tags, s.coll.firedOps, s.coll.colls)

/-- Nothing is left to be done: what is held in an input buffer waits for its turn. -/
structure FabDone (s : State) : Prop where
  loop : s.fab.loop = []
  held : ∀ h ∈ s.fab.held, channelBusy s h.src.1 h.src.2.1 = true
  windowSet : s.hif.wtWait = none
  ops : ∀ o ∈ s.fab.ops, byteAt o.desc 0 = 0x42 ∨ ∃ t ∈ s.fab.tags, t.owner = o.owner
  fired : s.coll.firedOps = []
  colls : ∀ c ∈ s.coll.colls, c.closed = false

theorem FabDone.of_quiet (h : FabQuiet s) : FabDone s :=
  ⟨h.idle.loop, by simp [h.idle.held], h.idle.windowSet, h.idle.ops, h.idle.fired, h.colls⟩

/-- What waits for PCIe is no matter. -/
theorem FabDone.of_due (h : FabDone s) (none : s.fab.held = []) (e : (toDo t).2.2 = (toDo s).2.2) : FabDone t := by
  simp only [toDo, Prod.mk.injEq] at e
  obtain ⟨loop, held, set, ops, tags, fired, colls⟩ := e
  exact ⟨loop.trans h.loop, by simp [held, none], set.trans h.windowSet, by rw [ops, tags]; exact h.ops, fired.trans h.fired,
    by rw [colls]; exact h.colls⟩

theorem FabDone.of_toDo (h : FabDone s) (none : s.fab.held = []) (e : toDo t = toDo s) : FabDone t :=
  h.of_due none (congrArg (·.2.2) e)

theorem moveOn_of_done (h : FabDone s) (k : Nat) : moveOn k s = s := by
  cases k with
  | zero => rfl
  | succ k =>
    have none : s.fab.held.findIdx? (fun x => !(channelBusy s x.src.1 x.src.2.1)) = none := by
      rw [List.findIdx?_eq_none_iff]
      intro x hx
      rw [h.held x hx]
      rfl
    simp only [moveOn, runLoop_of_empty _ h.loop, none]

theorem settleOps_of_done (h : FabDone s) : settleOps s = s := by
  refine List.foldlRecOn (motive := fun x => x = s) _ _ rfl ?_
  rintro x rfl o ho
  obtain ⟨hmem, hop⟩ := List.mem_filter.mp ho
  have busy : fabBusy x o.owner = true := by
    obtain h42 | ⟨t, ht, hown⟩ := h.ops o hmem
    · simp [h42] at hop
    · simp only [fabBusy, Bool.or_eq_true, List.any_eq_true, beq_iff_eq]
      exact .inl (.inl ⟨t, ht, hown⟩)
  rw [if_pos busy]

theorem settleColls_of_open (hfired : s.coll.firedOps = []) (hcolls : ∀ c ∈ s.coll.colls, c.closed = false) : settleColls s = s := by
  have replayed : replayDue s = s := by
    have none_due : s.coll.colls.filter (fun c => c.closed && s.coll.early.any (fun e =>
        earlyComm e == coComm c.desc && earlySeq e == coSeq c.desc % 65536)) = [] :=
      List.filter_eq_nil_iff.mpr fun c hc => by simp [hcolls c hc]
    simp only [replayDue, none_due, List.foldl_nil]
  have finished : finishColls s = s :=
    List.foldlRecOn (motive := fun x => x = s) _ _ rfl fun x hx id _ => hx ▸ finishColl_of_open hcolls id
  simp [settleColls, replayed, finished, hfired, startWaiting]

/-- Neither a fired op nor a WINDOW_SET has its turn. -/
theorem settleTurns_of_quiet (hset : s.hif.wtWait = none) (hfired : s.coll.firedOps = [])
    (hcolls : ∀ c ∈ s.coll.colls, c.closed = false) (k : Nat) : settleTurns k s = s := by
  have turned : settleAllFired s = s := by simp [settleAllFired, hfired, settleFired, endWindowSet, hset]
  induction k with
  | zero => rfl
  | succ k ih => rw [settleTurns, settleColls_of_open hfired hcolls, turned, ih]

/-- Settling leaves a state in which nothing is left to be done. -/
theorem settleFab_of_done (h : FabDone s) : settleFab s = s := by
  simp only [settleFab, moveOn_of_done h, settleOps_of_done h, settleTurns_of_quiet h.windowSet h.fired h.colls]

/-! ## What sending leaves to be done -/

theorem toDo_sendIdle (s : State) (p : Nat) : toDo (sendIdle s p) = toDo s := by
  dsimp only [sendIdle]
  split <;> rfl

theorem toDo_freeSource (s : State) (src : Option (Nat × Nat × Nat)) : toDo (freeSource s src) = toDo s := by
  cases src with
  | none => rfl
  | some x => exact toDo_sendIdle _ x.1

theorem toDo_putOnLink (s : State) (p : Nat) (o : OutPkt) (b : Bytes) : toDo (putOnLink s p o b) = toDo s :=
  toDo_freeSource _ o.src

/-- An untagged packet leaves no tag behind. -/
theorem toDo_trySend {o : OutPkt} (h : trySend s p o = some t) (untagged : o.part = none) : toDo t = toDo s := by
  rw [trySend, untagged] at h
  split at h
  · exact Option.some.inj h ▸ toDo_putOnLink s p o o.bytes
  · exact absurd h (by simp)

theorem smGet_smSet_ne {α : Type} [DecidableEq α] {d v : α} (hv : v ≠ d) (m : List (Nat × α)) (k : Nat) :
    smGet d (smSet d m k v) k = v := by
  induction m with
  | nil => simp [smSet, hv, smGet]
  | cons x m ih =>
    obtain ⟨j, w⟩ := x
    simp only [smSet, if_neg hv]
    by_cases lt : k < j
    · simp [lt, smGet]
    · by_cases eq : k = j
      · simp [eq, smGet]
      · simp [lt, eq, smGet, Ne.symm eq, ih]

/-- The port that a packet has joined. -/
theorem getFab_joined (s : State) (p : Nat) (o : OutPkt) (x : FabPortState) (h : x.queue = [o]) : getFab (setFab s p x) p = x :=
  smGet_smSet_ne (fun e => by rw [e] at h; cases h) _ _

theorem sendOut_of_empty {o : OutPkt} (empty : (getFab s p).queue = []) :
    sendOut s p o = drainPort (setFab s p { getFab s p with queue := [o] }) p := by
  rw [sendOut, empty]
  rfl

theorem toDo_sendOut {o : OutPkt} (untagged : o.part = none) (empty : (getFab s p).queue = []) : toDo (sendOut s p o) = toDo s := by
  rw [sendOut_of_empty empty, drainPort, getFab_joined s p o _ rfl]
  split
  · rw [drainList, if_neg (by simp)]
    split
    next t ht =>
      have sent := toDo_trySend (s := setFab s p _) ht untagged
      exact sent
    next => rfl
  · rfl

theorem toDo_forwardPkt (empty : ∀ k, (getFab s k).queue = []) (p : Nat)
    (src : Option (Nat × Nat × Nat)) (b : Bytes) : toDo (forwardPkt s p src b) = toDo s := by
  unfold forwardPkt
  split
  · exact toDo_freeSource ..
  · split
    · exact toDo_freeSource ..
    · exact toDo_sendOut rfl (empty _)

/-! ## A packet comes into its input buffer -/

/-- A port with nothing to send stays as it is. -/
theorem drainPort_of_empty (empty : (getFab s p).queue = []) : drainPort s p = s ∨ drainPort s p = setFab s p (getFab s p) := by
  have same : { getFab s p with queue := [] } = getFab s p := by rw [← empty]
  rw [drainPort]
  split
  · right
    rw [empty, drainList]
    exact congrArg (setFab s p) same
  · exact .inl rfl

/-- A fabric on which nothing waits, whatever its collectives, with its ports in the form that a state keeps them in. -/
structure FabEmpty (s : State) : Prop where
  idle : FabIdle s
  ports : keysRise s.fab.ports = true

theorem FabStill.empty (h : FabStill s) : FabEmpty s := ⟨h.quiet.idle, h.ports⟩

theorem FabEmpty.setFab (h : FabEmpty s) (p : Nat) {x : FabPortState} (hx : x.queue = []) : FabEmpty (setFab s p x) := by
  obtain ⟨hi, hp⟩ := h
  refine ⟨⟨fun k => ?_, hi.posts, hi.loop, hi.held, hi.windowSet, hi.tags, hi.ops, hi.fired⟩, keysRise_smSet hp⟩
  by_cases hk : k = p
  · rw [hk, getFab_setFab_self _ hp]
    exact hx
  · rw [getFab_setFab_other _ hp hk]
    exact hi.queues k

theorem FabEmpty.drainPort (h : FabEmpty s) (p : Nat) : FabEmpty (drainPort s p) := by
  obtain e | e := drainPort_of_empty (h.idle.queues p)
  · rw [e]
    exact h
  · rw [e]
    exact h.setFab p (h.idle.queues p)

theorem still_drainPort (h : FabStill s) (p : Nat) : FabStill (drainPort s p) :=
  have e := h.empty.drainPort p
  ⟨⟨e.idle, fun c hc => h.quiet.colls c (by rwa [show (drainPort s p).coll = s.coll from coll_eq (by simp)] at hc)⟩, e.ports⟩

theorem getFab_drainPort (h : FabEmpty s) (p k : Nat) : getFab (drainPort s p) k = getFab s k := by
  obtain e | e := drainPort_of_empty (h.idle.queues p)
  · rw [e]
  · rw [e]
    by_cases hk : k = p
    · rw [hk, getFab_setFab_self _ h.ports]
    · rw [getFab_setFab_other _ h.ports hk]

/-- The state in which a packet that arrives on port `n` stands in its input buffer. -/
def entered (s : State) (n : Nat) (b : Bytes) : State :=
  bufferPkt (drainPort (setFab s n (creditsIn (getFab s n) b)) n) n b

theorem enterBuffer_eq (s : State) (n : Nat) (b : Bytes) (stalled : Bool) : enterBuffer s n b stalled =
    comeIn (entered s n b) { fi := n, bytes := b, stalled, src := (n, pkVc b, b.length / 64) } := rfl

theorem FabEmpty.creditsIn (h : FabEmpty s) (n : Nat) (b : Bytes) : FabEmpty (Machine.setFab s n (creditsIn (getFab s n) b)) :=
  h.setFab n (h.idle.queues n)

theorem still_creditsIn (h : FabStill s) (n : Nat) (b : Bytes) : FabStill (setFab s n (creditsIn (getFab s n) b)) :=
  h.setFab n (h.quiet.idle.queues n)

theorem FabEmpty.entered (h : FabEmpty s) (n : Nat) (b : Bytes) : FabEmpty (entered s n b) :=
  ((h.creditsIn n b).drainPort n).setFab n (((h.creditsIn n b).drainPort n).idle.queues n)

theorem still_entered (h : FabStill s) (n : Nat) (b : Bytes) : FabStill (entered s n b) :=
  (still_drainPort (still_creditsIn h n b) n).setFab n ((still_drainPort (still_creditsIn h n b) n).quiet.idle.queues n)

theorem getFab_entered_self (h : FabEmpty s) (n : Nat) (b : Bytes) :
    getFab (entered s n b) n = bufferIn (creditsIn (getFab s n) b) (pkVc b) (b.length / 64) := by
  have here := h.creditsIn n b
  rw [entered, bufferPkt, getFab_setFab_self _ (here.drainPort n).ports, getFab_drainPort here, getFab_setFab_self _ h.ports]

theorem getFab_entered_other (h : FabEmpty s) {k : Nat} (n : Nat) (b : Bytes) (hk : k ≠ n) :
    getFab (entered s n b) k = getFab s k := by
  have here := h.creditsIn n b
  rw [entered, bufferPkt, getFab_setFab_other _ (here.drainPort n).ports hk, getFab_drainPort here,
    getFab_setFab_other _ h.ports hk]

theorem entered_sends (s : State) (n : Nat) (b : Bytes) : Sends s (entered s n b) :=
  (setFab_sends (x := creditsIn (getFab s n) b) rfl).trans ((drainPort_sends _ n).trans
    (setFab_sends (x := bufferIn _ (pkVc b) (b.length / 64)) rfl))

/-- A packet that arrives changes its port, and nothing else. -/
theorem entered_fab (h : FabEmpty s) (n : Nat) (b : Bytes) :
    (entered s n b).fab = { s.fab with ports := (entered s n b).fab.ports } := by
  obtain e | e := drainPort_of_empty ((h.creditsIn n b).idle.queues n)
  · simp only [entered, bufferPkt, e]
    rfl
  · simp only [entered, bufferPkt, e]
    rfl

theorem entered_rest {may : Spot → Bool} (s : State) (n : Nat) (b : Bytes) (hw : may .out ∧ may .fab) :
    rest may (entered s n b) = rest may s := by
  simp [entered, bufferPkt, hw]

/-- What `entered` leaves to be done. -/
theorem toDo_entered (h : FabEmpty s) (n : Nat) (b : Bytes) : toDo (entered s n b) = toDo s := by
  rw [toDo, toDo, entered_fab h, coll_eq (t := entered s n b) (entered_rest s n b (by decide)),
    hif_eq (t := entered s n b) (entered_rest s n b (by decide))]

theorem smGet_of_mem {α : Type} {d : α} {m : List (Nat × α)} (h : keysRise m = true) {x : Nat × α} (hx : x ∈ m) :
    smGet d m x.1 = x.2 := by
  induction m with
  | nil => cases hx
  | cons y m ih =>
    obtain ⟨later, rises⟩ := keysRise_cons.mp h
    rcases List.mem_cons.mp hx with rfl | hm
    · simp [smGet]
    · rw [smGet, if_neg (Nat.ne_of_lt (later x hm)), ih rises hm]

/-- Where no port has anything to send, no port has a packet of any kind. -/
theorem queue_of_mem (h : FabEmpty s) {q : Nat × FabPortState} (hq : q ∈ s.fab.ports) : q.2.queue = [] := by
  have here : getFab s q.1 = q.2 := smGet_of_mem h.ports hq
  rw [← here]
  exact h.idle.queues q.1

/-- Where no port has anything to send, a channel is held by what waits at an FI, for PCIe or for a reply. -/
theorem channelBusy_of_empty (h : FabEmpty s) (p v : Nat) : channelBusy s p v =
    s.fab.fetches.any (fun f => f.src.any (fun b => b.1 == p && b.2.1 == v)) := by
  have queues : s.fab.ports.any (fun q => q.2.queue.any (fun o => o.src.any (fun b => b.1 == p && b.2.1 == v))) = false := by
    rw [List.any_eq_false]
    intro q hq
    rw [queue_of_mem h hq]
    simp
  simp only [channelBusy, queues, h.idle.loop, h.idle.posts, List.any_nil, Bool.false_or]

theorem channelBusy_entered (h : FabEmpty s) (n : Nat) (b : Bytes) (p v : Nat) :
    channelBusy (entered s n b) p v = channelBusy s p v := by
  have fetches : (entered s n b).fab.fetches = s.fab.fetches := by rw [entered_fab h]
  rw [channelBusy_of_empty h, channelBusy_of_empty (h.entered n b), fetches]

end Sys2Proof.Laws
end

section
/-! PROOFS. Credits and forwarding (O53). -/

namespace Sys2Proof.Laws

open Sys2Proof Sys2Proof.Machine
set_option Elab.async false

variable {s t u : State} {p q n : Nat} {b : Bytes}

/-! ## What routing looks at stays through the arrival of a packet (R418 to R421) -/

theorem portSetup_st {x y : FabPortState} (h : portSetup x = portSetup y) : x.st = y.st :=
  show (portSetup x).st = (portSetup y).st by rw [h]

theorem portSetup_act {x y : FabPortState} (h : portSetup x = portSetup y) : x.act = y.act :=
  show (portSetup x).act = (portSetup y).act by rw [h]

theorem portUp_of_sends (h : Sends s t) (hk : keysRise s.fab.ports = true) (p : Nat) : portUp t p = portUp s p := by
  simp only [portUp, portSetup_st ((h.ports hk).2 p)]

theorem portCarries_of_sends (h : Sends s t) (hk : keysRise s.fab.ports = true) (p : Nat) : portCarries t p = portCarries s p := by
  simp only [portCarries, portUp_of_sends h hk, h.nodeId]

theorem localNode_of_sends (h : Sends s t) (k : Nat) : localNode t k = localNode s k := by
  simp only [localNode, h.nodeId]

theorem routeOf_of_sends (h : Sends s t) (hk : keysRise s.fab.ports = true) (dst : Nat) : routeOf t dst = routeOf s dst := by
  have route : t.fab.route = s.fab.route := show (fabSetup t.fab).route = (fabSetup s.fab).route by rw [h.setup]
  simp only [routeOf, routeValid, route, show portUp t = portUp s from funext fun p => portUp_of_sends h hk p]

theorem hopOf_of_sends (h : Sends s t) (hk : keysRise s.fab.ports = true) (a : Option Nat) (out : Nat) (dl down : Bool) :
    hopOf t a out dl down = hopOf s a out dl down := by
  have mode : t.fab.mode = s.fab.mode := show (fabSetup t.fab).mode = (fabSetup s.fab).mode by rw [h.setup]
  simp only [hopOf, mode, fun p => portSetup_act ((h.ports hk).2 p)]

theorem fabEn_of_sends (h : Sends s t) : t.fab.en = s.fab.en :=
  show (fabSetup t.fab).en = (fabSetup s.fab).en by rw [h.setup]

/-! ## A packet for another node (R416 to R421) -/

/-- What arrives on a channel whose buffer holds a packet waits behind it. -/
theorem comeIn_of_busy {h : HeldPkt} (busy : channelBusy s h.src.1 h.src.2.1 = true) :
    comeIn s h = { s with fab := { s.fab with held := s.fab.held ++ [h] } } := by
  rw [comeIn, busy]
  rfl

theorem comeIn_of_turn {h : HeldPkt} (turn : channelBusy s h.src.1 h.src.2.1 = false) (none : s.fab.held = []) :
    comeIn s h = takeIn s h := by
  rw [comeIn, turn, none]
  rfl

theorem freeSource_noRoute (s : State) (src : Option (Nat × Nat × Nat)) :
    (freeSource s src).fab.noRoute = s.fab.noRoute ∧ (freeSource s src).fab.routeErr = s.fab.routeErr := by
  cases src with
  | none => exact ⟨rfl, rfl⟩
  | some x =>
    dsimp only [freeSource, sendIdle]
    split <;> exact ⟨rfl, rfl⟩

theorem entered_mem (s : State) (n : Nat) (b : Bytes) : (entered s n b).mem = s.mem := mem_eq (entered_rest s n b (by decide))

theorem freeSource_mem (s : State) (src : Option (Nat × Nat × Nat)) : (freeSource s src).mem = s.mem := mem_eq (by simp)

/-- A discarded packet leaves a state in which nothing is to be done. -/
theorem settleFab_freeSource (h : FabDone s) (none : s.fab.held = []) (src : Option (Nat × Nat × Nat)) :
    settleFab (freeSource s src) = freeSource s src :=
  settleFab_of_done (h.of_toDo none (toDo_freeSource s src))

/-- More credits come with a packet than were there. -/
theorem creditsFor_entered (h : FabStill s) {q v k : Nat} (hv : v < 8) (enough : creditsFor (getFab s q) v k = true) :
    creditsFor (getFab (entered s n b) q) v k = true := by
  by_cases hq : q = n
  · subst hq
    rw [getFab_entered_self h.empty]
    simp only [creditsFor, decide_eq_true_eq] at enough ⊢
    simp only [bufferIn, creditsIn, List.getD_eq_getElem?_getD, List.getElem?_map, List.getElem?_range hv, Option.map_some,
      Option.getD_some] at enough ⊢
    omega
  · rw [getFab_entered_other h.empty n b hq]
    exact enough

/-- A packet for another node that has no way there is discarded. -/
theorem takeIn_lost {h : HeldPkt} (far : localNode s (pkDst h.bytes) = false)
    (lost : s.fab.en = false ∨ routeOf s (pkDst h.bytes) = none) : takeIn s h = freeSource (countNoRoute s) (some h.src) := by
  unfold takeIn
  cases on : s.fab.en with
  | false => rfl
  | true =>
    have none : routeOf s (pkDst h.bytes) = none := lost.resolve_left (by simp [on])
    simp [far, forwardPkt, none]

theorem takeIn_forward {h : HeldPkt} (far : localNode s (pkDst h.bytes) = false) (on : s.fab.en = true) :
    takeIn s h = forwardPkt s h.fi (some h.src) h.bytes := by
  simp [takeIn, far, on]

/-- The port with the codewords of an IDLE flit counted and its credits added. -/
def idled (x : FabPortState) (b : Bytes) (k1 k2 : BitVec 16) : FabPortState :=
  creditsIn { x with corrected := satAdd x.corrected k1.toNat, uncorrectable := satAdd x.uncorrectable k2.toNat } b

/-- An IDLE flit changes its port, and nothing else. -/
theorem idle_gives (h : FabStill s) {p : FabPort} {k1 k2 : BitVec 16} (carries : portCarries s p.toNat = true)
    (good : headerGood b = true) (kind : pkFtype b = 0) : Gives (.idle p b k1 k2) s fun t =>
      getFab t p.toNat = idled (getFab s p.toNat) b k1 k2 ∧ t.mem = s.mem := by
  let x := getFab s p.toNat
  let s1 := setFab s p.toNat { x with corrected := satAdd x.corrected k1.toNat, uncorrectable := satAdd x.uncorrectable k2.toNat }
  have still1 : FabStill s1 := h.setFab _ (h.quiet.idle.queues _)
  have still2 := still_creditsIn still1 p.toNat b
  have done := settleFab_of_quiet (still_drainPort still2 p.toNat).quiet
  have runs : exec (.idle p b k1 k2) s = .next (settleFab (drainPort (setFab s1 p.toNat (creditsIn (getFab s1 p.toNat) b)) p.toNat)) := by
    show execIdle p b k1 k2 s = _
    simp [execIdle, carries, good, kind, s1, x]
  refine ⟨_, runs, ?_, ?_⟩
  · rw [done, getFab_drainPort still2.empty, getFab_setFab_self _ still1.ports, getFab_setFab_self _ h.ports]
    rfl
  · rw [done, mem_eq (t := drainPort _ _) (drainPort_rest _ _ (by decide))]
    rfl

section Forward
variable (h : FabStill s) {p : FabPort} (carries : portCarries s p.toNat = true) (good : headerGood b = true)
  (head : pkFtype b = 1) (far : localNode s (pkDst b) = false) (len : b.length = 64 * (pkFlits b + 1))
include h carries good head far len

omit h in
theorem routerForward_exec : exec (.routerForward p b) s = .next (settleFab (enterBuffer s p.toNat b false)) := by
  show execRouterForward p b s = _
  simp [execRouterForward, carries, good, head, far, len]

/-- Behind a packet that holds its channel's buffer a packet waits. -/
theorem routerForward_waits (busy : channelBusy s p.toNat (pkVc b) = true) : Gives (.routerForward p b) s fun t =>
    t.mem = s.mem ∧ t.fab.noRoute = s.fab.noRoute ∧
      t.fab.held = [{ fi := p.toNat, bytes := b, stalled := false, src := (p.toNat, pkVc b, b.length / 64) }] := by
  have still := still_entered h p.toNat b
  have busy' : channelBusy (entered s p.toNat b) p.toNat (pkVc b) = true := by rw [channelBusy_entered h.empty]; exact busy
  refine ⟨_, routerForward_exec carries good head far len, ?_⟩
  have done : FabDone { entered s p.toNat b with fab := { (entered s p.toNat b).fab with
      held := (entered s p.toNat b).fab.held ++ [{ fi := p.toNat, bytes := b, stalled := false, src := (p.toNat, pkVc b, b.length / 64) }] } } := by
    obtain ⟨loop, -, set, ops, fired, colls⟩ := FabDone.of_quiet still.quiet
    refine ⟨loop, fun x hx => ?_, set, ops, fired, colls⟩
    rw [still.quiet.idle.held, List.nil_append, List.mem_singleton] at hx
    subst hx
    exact busy'
  rw [enterBuffer_eq, comeIn_of_busy (h := { fi := p.toNat, bytes := b, stalled := false, src := (p.toNat, pkVc b, b.length / 64) }) busy',
    settleFab_of_done done]
  refine ⟨entered_mem s p.toNat b, ?_, ?_⟩
  · rw [entered_fab h.empty]
  · rw [still.quiet.idle.held, List.nil_append]

/-- With its turn there, it goes on to its route or is discarded. -/
theorem routerForward_goes (turn : channelBusy s p.toNat (pkVc b) = false) :
    exec (.routerForward p b) s = .next (takeIn (entered s p.toNat b)
      { fi := p.toNat, bytes := b, stalled := false, src := (p.toNat, pkVc b, b.length / 64) }) := by
  have still := still_entered h p.toNat b
  have turn' : channelBusy (entered s p.toNat b) p.toNat (pkVc b) = false := by rw [channelBusy_entered h.empty]; exact turn
  rw [routerForward_exec carries good head far len, enterBuffer_eq,
    comeIn_of_turn (h := { fi := p.toNat, bytes := b, stalled := false, src := (p.toNat, pkVc b, b.length / 64) }) turn' still.quiet.idle.held]
  refine congrArg _ (settleFab_of_done ((FabDone.of_quiet still.quiet).of_toDo still.quiet.idle.held ?_))
  unfold takeIn
  split
  · exact toDo_freeSource ..
  · rw [localNode_of_sends (entered_sends s p.toNat b), far, if_neg Bool.false_ne_true]
    exact toDo_forwardPkt still.quiet.idle.queues ..

/-- Without a way there it is discarded and counted. -/
theorem routerForward_lost (turn : channelBusy s p.toNat (pkVc b) = false) (lost : s.fab.en = false ∨ routeOf s (pkDst b) = none) :
    Gives (.routerForward p b) s fun t => t.fab.noRoute = satAdd s.fab.noRoute 1 ∧ t.mem = s.mem := by
  have sends := entered_sends s p.toNat b
  have lost' : (entered s p.toNat b).fab.en = false ∨ routeOf (entered s p.toNat b) (pkDst b) = none := by
    rw [fabEn_of_sends sends, routeOf_of_sends sends h.ports]
    exact lost
  have goes := routerForward_goes h carries good head far len turn
  refine ⟨_, goes, ?_⟩
  rw [takeIn_lost (h := { fi := p.toNat, bytes := b, stalled := false, src := (p.toNat, pkVc b, b.length / 64) }) ((localNode_of_sends sends _).trans far) lost']
  refine ⟨(freeSource_noRoute _ _).1.trans ?_, (freeSource_mem _ _).trans (entered_mem s p.toNat b)⟩
  show satAdd (entered s p.toNat b).fab.noRoute 1 = _
  rw [entered_fab h.empty]

section Routed
variable (turn : channelBusy s p.toNat (pkVc b) = false) (on : s.fab.en = true) (route : routeOf s (pkDst b) = some q)
include turn on route

theorem routerForward_routed : exec (.routerForward p b) s = .next (match hopOf s (some p.toNat) q (pkVc b % 2 == 1) (pkDown b) with
    | none => freeSource (countRouteErr (entered s p.toNat b)) (some (p.toNat, pkVc b, b.length / 64))
    | some (dl, down) => sendOut (entered s p.toNat b) q
      { vc := vcOf (pkCls b) dl, down, bytes := b, src := some (p.toNat, pkVc b, b.length / 64), part := none, limitNs := 0,
        owner := none }) := by
  have sends := entered_sends s p.toNat b
  rw [routerForward_goes h carries good head far len turn, takeIn_forward (h := { fi := p.toNat, bytes := b, stalled := false, src := (p.toNat, pkVc b, b.length / 64) })
    ((localNode_of_sends sends _).trans far) ((fabEn_of_sends sends).trans on), forwardPkt]
  simp only [(routeOf_of_sends sends h.ports _).trans route, hopOf_of_sends sends h.ports] <;> rfl

/-- Against the order of R419 or R420 it is discarded and counted. -/
theorem routerForward_misrouted (hop : hopOf s (some p.toNat) q (pkVc b % 2 == 1) (pkDown b) = none) :
    Gives (.routerForward p b) s fun t => t.fab.routeErr = satAdd s.fab.routeErr 1 ∧ t.mem = s.mem := by
  refine ⟨_, routerForward_routed h carries good head far len turn on route, ?_⟩
  rw [hop]
  refine ⟨(freeSource_noRoute _ _).2.trans ?_, (freeSource_mem _ _).trans (entered_mem s p.toNat b)⟩
  show satAdd (entered s p.toNat b).fab.routeErr 1 = _
  rw [entered_fab h.empty]

/-- With credits it leaves on the channel of its class and dateline state. -/
theorem routerForward_leaves {d e : Bool} (hop : hopOf s (some p.toNat) q (pkVc b % 2 == 1) (pkDown b) = some (d, e))
    (enough : creditsFor (getFab s q) (vcOf (pkCls b) d) (b.length / 64) = true) :
    Gives (.routerForward p b) s fun t => sentOn t q (vcOf (pkCls b) d) b ∧ t.mem = s.mem := by
  have still := still_entered h p.toNat b
  have up : portCarries (entered s p.toNat b) q = true := by
    rw [portCarries_of_sends (entered_sends s p.toNat b) h.ports]
    rw [routeOf, Option.filter_eq_some_iff] at route
    simp only [portCarries, Bool.and_eq_true] at carries ⊢
    exact ⟨route.2, carries.2⟩
  have cls : vcOf (pkCls b) d < 8 := by
    have one := b2n_le d
    have four : pkCls b < 4 := Nat.mod_lt _ (by decide)
    simp only [vcOf]
    omega
  have long : 64 ≤ b.length := by omega
  refine ⟨_, routerForward_routed h carries good head far len turn on route, ?_⟩
  rw [hop]
  obtain ⟨y, left⟩ := sendOut_leaves (s := entered s p.toNat b) (p := q)
    { vc := vcOf (pkCls b) d, down := e, bytes := b, src := some (p.toNat, pkVc b, b.length / 64), part := none, limitNs := 0,
      owner := none } still.ports up (still.quiet.idle.queues q) (creditsFor_entered h cls enough) (by simp)
  exact ⟨⟨_, left, linkPart_vc _ _ _ _ cls, linkPart_slice y 1 _ e long (by omega) (by omega), linkPart_drop y 1 _ e long⟩,
    (mem_eq (t := sendOut _ _ _) (sendOut_rest _ _ _ (by decide))).trans (entered_mem s p.toNat b)⟩

end Routed

end Forward

/-- Settles O53: what arrives with credits leaves them; a packet for another node waits, is discarded with its count, or leaves on
the port of its route, and nothing else is left to be done. -/
theorem routerForwards : Obligations.RouterForwards := by
  unfold Obligations.RouterForwards
  intro p s b k1 k2 hs quiet carries good
  refine ⟨fun idle => ?_, fun head far len => ?_⟩
  · obtain ⟨t, runs, port, mem⟩ := idle_gives (k1 := k1) (k2 := k2) ⟨quiet, hs.ports⟩ carries good idle
    refine ⟨t, runs, fun v hv => ?_, ?_, ?_, ?_, mem⟩
    · rw [port]
      simp [idled, creditsIn, hv]
    · rw [port]
      simp [idled, creditsIn, bits]
    · rw [port]
      rfl
    · rw [port]
      rfl
  · have still : FabStill s := ⟨quiet, hs.ports⟩
    exact ⟨fun busy => routerForward_waits still carries good head far len busy,
      fun turn lost => routerForward_lost still carries good head far len turn lost,
      fun q turn on route => ⟨fun hop => routerForward_misrouted still carries good head far len turn on route hop,
        fun d e hop enough => routerForward_leaves still carries good head far len turn on route hop enough⟩⟩

end Sys2Proof.Laws
end

section
/-! PROOFS. Links train, drop and are bypassed (O50). -/

namespace Sys2Proof.Laws

open Sys2Proof Sys2Proof.Machine
set_option Elab.async false

variable {s t u : State} {p q n k : Nat} {b : Bytes}

/-! ## A port enters a state (R408) -/

theorem getFab_enterPort_self (hk : keysRise s.fab.ports = true) (st : BitVec 3) : getFab (enterPort s p st) p =
    { getFab s p with st, since := s.nowNs, paramSeen := if st = 5 then false else (getFab s p).paramSeen } :=
  getFab_setFab_self _ hk

theorem getFab_enterPort_other (hk : keysRise s.fab.ports = true) (st : BitVec 3) (h : k ≠ p) :
    getFab (enterPort s p st) k = getFab s k := getFab_setFab_other _ hk h

/-- Port `n` is in state `st` since now, and every other port and memory are as before. -/
structure Entered (s : State) (n st : Nat) (t : State) : Prop where
  st : (getFab t n).st.toNat = st
  since : (getFab t n).since = s.nowNs
  others : ∀ k, k ≠ n → getFab t k = getFab s k
  mem : t.mem = s.mem

theorem entered_enterPort (hk : keysRise s.fab.ports = true) (n : Nat) (st : BitVec 3) : Entered s n st.toNat (enterPort s n st) :=
  ⟨by rw [getFab_enterPort_self hk], by rw [getFab_enterPort_self hk], fun _ h => getFab_enterPort_other hk st h, rfl⟩

/-- The same from a port that has been changed first. -/
theorem entered_enterPort_setFab (hk : keysRise s.fab.ports = true) (n : Nat) (x : FabPortState) (st : BitVec 3) :
    Entered s n st.toNat (enterPort (setFab s n x) n st) := by
  obtain ⟨state, since, others, mem⟩ := entered_enterPort (s := setFab s n x) (keysRise_smSet hk) n st
  exact ⟨state, since, fun k h => (others k h).trans (getFab_setFab_other _ hk h), mem⟩

theorem Entered.of_fab {n st : Nat} (h : Entered s n st t) (hf : u.fab = t.fab) (hm : u.mem = t.mem) : Entered s n st u := by
  have port : ∀ k, getFab u k = getFab t k := fun k => by rw [getFab, getFab, hf]
  exact ⟨by rw [port, h.st], by rw [port, h.since], fun k hk => by rw [port, h.others k hk], hm.trans h.mem⟩

theorem raiseEvent_fab (s : State) (st : Status) (i j : Nat) (d : Bytes) : (raiseEvent s st i j d).fab = s.fab := fab_eq (by simp)

/-! ## PARAM (R410) -/

section Param
variable (hk : keysRise s.fab.ports = true) {p : FabPort} (node : BitVec 16) (peer : BitVec 4) (five : (getFab s p.toNat).st = 5)

/-- The port that has taken its peer's PARAM. -/
def paramTaken (s : State) (x : FabPortState) (node : BitVec 16) (peer : BitVec 4) : FabPortState :=
  { x with peerNode := node, peerPort := peer, paramSeen := true, since := s.nowNs }

include hk five

omit hk in
theorem param_exec : exec (.param p node peer) s =
    .next (settleParam (setFab s p.toNat (paramTaken s (getFab s p.toNat) node peer)) p.toNat) := by
  show execParam p node peer s = _
  exact if_pos five

/-- While a node id is not assigned the port stays in PARAM. -/
theorem param_waits (h : node = 0xFFFF ∨ s.fab.nodeId = 0xFFFF) : Gives (.param p node peer) s fun t =>
    Entered s p.toNat 5 t ∧ getFab t p.toNat = paramTaken s (getFab s p.toNat) node peer := by
  refine ⟨_, param_exec node peer five, ?_⟩
  have stays : settleParam (setFab s p.toNat (paramTaken s (getFab s p.toNat) node peer)) p.toNat =
      setFab s p.toNat (paramTaken s (getFab s p.toNat) node peer) := by
    have port := getFab_setFab_self (s := s) (p := p.toNat) (paramTaken s (getFab s p.toNat) node peer) hk
    simp only [settleParam, port]
    rw [if_neg]
    rintro ⟨-, -, hn, hi⟩
    exact h.elim hn hi
  rw [stays]
  have port := getFab_setFab_self (s := s) (p := p.toNat) (paramTaken s (getFab s p.toNat) node peer) hk
  exact ⟨⟨by rw [port]; exact congrArg BitVec.toNat five, by rw [port]; rfl, fun k h => getFab_setFab_other _ hk h, rfl⟩, port⟩

/-- Whether the peer is not the one that the port's configuration names. -/
def wrongPeer (x : FabPortState) (node : BitVec 16) (peer : BitVec 4) : Prop :=
  (cfgPeerNode x.act ≠ 0xFFFF ∧ cfgPeerNode x.act ≠ node.toNat) ∨ (cfgPortAny x.act = false ∧ cfgPeerPort x.act ≠ peer.toNat)

theorem param_miswired (hn : node ≠ 0xFFFF) (hi : s.fab.nodeId ≠ 0xFFFF) (wrong : wrongPeer (getFab s p.toNat) node peer) :
    Gives (.param p node peer) s fun t => Entered s p.toNat 7 t ∧ (getFab t p.toNat).peerNode = node ∧
      (getFab t p.toNat).peerPort = peer := by
  refine ⟨_, param_exec node peer five, ?_⟩
  have port := getFab_setFab_self (s := s) (p := p.toNat) (paramTaken s (getFab s p.toNat) node peer) hk
  have decided : settleParam (setFab s p.toNat (paramTaken s (getFab s p.toNat) node peer)) p.toNat =
      raiseEvent (enterPort (setFab s p.toNat (paramTaken s (getFab s p.toNat) node peer)) p.toNat 7) .miswired 4 p.toNat := by
    simp only [settleParam, port]
    rw [if_pos ⟨five, rfl, hn, hi⟩]
    exact if_pos wrong
  rw [decided]
  refine ⟨(entered_enterPort_setFab hk _ _ 7).of_fab (raiseEvent_fab ..) (raiseEvent_mem ..), ?_⟩
  rw [getFab, raiseEvent_fab]
  have entered := getFab_enterPort_self (s := setFab s p.toNat (paramTaken s (getFab s p.toNat) node peer)) (p := p.toNat)
    (keysRise_smSet hk) 7
  rw [port] at entered
  exact ⟨congrArg FabPortState.peerNode entered, congrArg FabPortState.peerPort entered⟩

/-- A port with full credits and empty buffers. -/
def withCredits (x : FabPortState) : FabPortState :=
  { x with credits := List.replicate 8 128, shared := 3072, inUse := List.replicate 8 0, owed := List.replicate 8 0, owedShared := 0 }

/-- The right peer brings the port UP with full credits. -/
theorem param_up (hn : node ≠ 0xFFFF) (hi : s.fab.nodeId ≠ 0xFFFF) (right : ¬wrongPeer (getFab s p.toNat) node peer) :
    Gives (.param p node peer) s fun t => Entered s p.toNat 6 t ∧ ((getFab t p.toNat).peerNode = node ∧
      (getFab t p.toNat).peerPort = peer) ∧ (getFab t p.toNat).credits = List.replicate 8 128 ∧ (getFab t p.toNat).shared = 3072 := by
  refine ⟨_, param_exec node peer five, ?_⟩
  have port := getFab_setFab_self (s := s) (p := p.toNat) (paramTaken s (getFab s p.toNat) node peer) hk
  have decided : settleParam (setFab s p.toNat (paramTaken s (getFab s p.toNat) node peer)) p.toNat =
      enterPort (setFab (setFab s p.toNat (paramTaken s (getFab s p.toNat) node peer)) p.toNat
        (withCredits (paramTaken s (getFab s p.toNat) node peer))) p.toNat 6 := by
    simp only [settleParam, port]
    rw [if_pos ⟨five, rfl, hn, hi⟩]
    exact if_neg right
  rw [decided]
  obtain ⟨state, since, others, mem⟩ := entered_enterPort_setFab
    (s := setFab s p.toNat (paramTaken s (getFab s p.toNat) node peer)) (keysRise_smSet hk) p.toNat
    (withCredits (paramTaken s (getFab s p.toNat) node peer)) 6
  refine ⟨⟨state, since, fun k h => (others k h).trans (getFab_setFab_other _ hk h), mem⟩, ?_⟩
  rw [getFab_enterPort_self (keysRise_smSet (keysRise_smSet hk)), getFab_setFab_self _ (keysRise_smSet hk)]
  exact ⟨⟨rfl, rfl⟩, rfl, rfl⟩

end Param

/-! ## Fields of a register word -/

theorem testBit_setBits (v lo w x i : Nat) :
    (setBits v lo w x).testBit i = if lo ≤ i ∧ i < lo + w then x.testBit (i - lo) else v.testBit i := by
  have low : v % 2 ^ lo < 2 ^ lo := Nat.mod_lt _ (Nat.two_pow_pos lo)
  have mid : ∀ y : Nat, y % 2 ^ w < 2 ^ w := fun y => Nat.mod_lt _ (Nat.two_pow_pos w)
  have whole : v = 2 ^ lo * (2 ^ w * (v / 2 ^ lo / 2 ^ w) + v / 2 ^ lo % 2 ^ w) + v % 2 ^ lo := by
    rw [Nat.div_add_mod, Nat.div_add_mod]
  have field : setBits v lo w x = 2 ^ lo * (2 ^ w * (v / 2 ^ lo / 2 ^ w) + x % 2 ^ w) + v % 2 ^ lo := by
    have part : bits v lo w * 2 ^ lo = 2 ^ lo * (v / 2 ^ lo % 2 ^ w) := by rw [bits, Nat.shiftRight_eq_div_pow, Nat.mul_comm]
    rw [setBits, part]
    conv_lhs => enter [1, 1]; rw [whole]
    rw [Nat.mul_add, Nat.mul_add, Nat.mul_comm (x % 2 ^ w)]
    omega
  rw [field, Nat.testBit_two_pow_mul_add _ low]
  conv_rhs => rw [whole]
  rw [Nat.testBit_two_pow_mul_add _ low, Nat.testBit_two_pow_mul_add _ (mid x), Nat.testBit_two_pow_mul_add _ (mid _)]
  by_cases h1 : i < lo
  · simp [h1, show ¬lo ≤ i by omega]
  · by_cases h2 : i - lo < w
    · simp [h1, h2, show lo ≤ i by omega, show i < lo + w by omega, Nat.testBit_mod_two_pow]
    · simp [h1, h2, show ¬i < lo + w by omega]

theorem getLsbD_wrField {n : Nat} (reg : BitVec n) (v lo w i : Nat) (hi : i < n) : (wrField reg v lo w).getLsbD i =
    if lo ≤ i ∧ i < lo + w then v.testBit i else reg.getLsbD i := by
  rw [wrField, BitVec.getLsbD_ofNat, testBit_setBits]
  simp only [hi, decide_true, Bool.true_and]
  split
  next h =>
    rw [bits, Nat.testBit_mod_two_pow, Nat.testBit_shiftRight, show lo + (i - lo) = i by omega]
    simp [show i - lo < w by omega]
  next => rfl

/-- A value written to FAB_PORT_CFG reaches the bits of its fields. -/
theorem cfgWord_eq (old v : BitVec 64) : cfgWord old v.toNat = (old &&& ~~~0x1FFFFF007F#64) ||| (v &&& 0x1FFFFF007F#64) := by
  have mask : ∀ i < 64, (0x1FFFFF007F#64).getLsbD i = decide (i < 7 ∨ (16 ≤ i ∧ i < 37)) := by decide
  refine BitVec.eq_of_getLsbD_eq fun i hi => ?_
  simp only [cfgWord, getLsbD_wrField _ _ _ _ i hi, BitVec.getLsbD_or, BitVec.getLsbD_and, BitVec.getLsbD_not, hi, mask i hi]
  by_cases low : i < 7
  · simp [low, show ¬16 ≤ i by omega, BitVec.getLsbD]
  · by_cases high : 16 ≤ i ∧ i < 37
    · simp [low, high, BitVec.getLsbD]
    · simp [low, high]

/-! ## Ports on a still fabric that leave UP (R411, R437 to R439) -/

theorem FabStill.reported (h : FabStill s) (k : Reported s t) (hf : t.fab = s.fab) (hc : t.coll = s.coll) : FabStill t := by
  obtain ⟨⟨hi, open_⟩, hp⟩ := h
  refine ⟨⟨⟨fun p => ?_, ?_, ?_, ?_, k.wtWait.trans hi.windowSet, ?_, ?_, ?_⟩, ?_⟩, ?_⟩
  · rw [getFab, hf]
    exact hi.queues p
  · rw [hf]
    exact hi.posts
  · rw [hf]
    exact hi.loop
  · rw [hf]
    exact hi.held
  · rw [hf]
    exact hi.tags
  · rw [hf]
    exact hi.ops
  · rw [hc]
    exact hi.fired
  · rw [hc]
    exact open_
  · rw [hf]
    exact hp

theorem getFab_forgetSource (h : FabStill s) (p k : Nat) : getFab (forgetSource s p) k = getFab s k := by
  have read := smGet_map (d := FabPortState.reset) (fun x : FabPortState =>
    { x with queue := x.queue.map (fun o : OutPkt => { o with src := o.src.map (notOf p) }) }) s.fab.ports k
  refine Eq.trans read ?_
  have empty := h.quiet.idle.queues k
  rw [getFab] at empty
  rw [empty, List.map_nil, ← empty]
  rfl

/-- The port that has left UP. -/
def left (s : State) (x : FabPortState) (st : BitVec 3) : FabPortState :=
  { x with act := x.cfg, inUse := List.replicate 8 0, owed := List.replicate 8 0, owedShared := 0, st, since := s.nowNs,
           paramSeen := if st = 5 then false else x.paramSeen }

theorem leaveUp_empty (h : FabStill s) (p : Nat) (st : BitVec 3) :
    getFab (leaveUp s p st) p = left s (getFab s p) st ∧ (∀ k, k ≠ p → getFab (leaveUp s p st) k = getFab s k) ∧
      (leaveUp s p st).mem = s.mem ∧ fabSetup (leaveUp s p st).fab = fabSetup s.fab := by
  have empty := h.quiet.idle.queues p
  let s0 := setFab s p { getFab s p with act := (getFab s p).cfg, inUse := List.replicate 8 0, owed := List.replicate 8 0, owedShared := 0 }
  have rises0 : keysRise s0.fab.ports = true := keysRise_smSet h.ports
  have rises1 : keysRise (enterPort s0 p st).fab.ports = true := keysRise_smSet rises0
  have flush : leaveUp s p st = setFab (enterPort s0 p st) p { getFab (enterPort s0 p st) p with queue := [] } := by
    simp only [leaveUp, empty, flushQueue, s0]
  have same : ∀ x : FabPortState, x.queue = [] → { x with queue := [] } = x := fun x hx => by rw [← hx]
  refine ⟨?_, fun k hk => ?_, ?_, ?_⟩
  · rw [flush, getFab_setFab_self _ rises1, getFab_enterPort_self rises0, getFab_setFab_self _ h.ports]
    exact same (left s (getFab s p) st) empty
  · rw [flush, getFab_setFab_other _ rises1 hk, getFab_enterPort_other rises0 _ hk, getFab_setFab_other _ h.ports hk]
  · rw [flush]
    rfl
  · rw [flush]
    rfl

theorem disablePort_port (h : FabStill s) (p : Nat) : (getFab (disablePort s p) p).st = 0 ∧
    (getFab (disablePort s p) p).cfg = (getFab s p).cfg ∧ (getFab (disablePort s p) p).stay = (getFab s p).stay ∧
    (getFab (disablePort s p) p).act = if (getFab s p).st = 6 then (getFab s p).cfg else (getFab s p).act := by
  unfold disablePort
  dsimp only
  split
  next off => exact ⟨off, rfl, rfl, by rw [off]; rfl⟩
  next =>
    split
    · rw [(leaveUp_empty (h.forgetSource p) p 0).1, getFab_forgetSource h]
      exact ⟨rfl, rfl, rfl, rfl⟩
    · rw [getFab_enterPort_self h.ports]
      exact ⟨rfl, rfl, rfl, rfl⟩

theorem disablePort_other (h : FabStill s) (p : Nat) (hk : k ≠ p) : getFab (disablePort s p) k = getFab s k := by
  unfold disablePort
  dsimp only
  split
  · rfl
  · split
    · rw [(leaveUp_empty (h.forgetSource p) p 0).2.1 k hk, getFab_forgetSource h]
    · exact getFab_enterPort_other h.ports 0 hk

theorem disablePort_mem (s : State) (p : Nat) : (disablePort s p).mem = s.mem := mem_eq (by simp)

theorem disablePort_st (h : FabStill s) (p k : Nat) :
    (getFab (disablePort s p) k).st = if k = p then 0 else (getFab s k).st := by
  split
  next hk => rw [hk, (disablePort_port h p).1]
  next hk => rw [disablePort_other h p hk]

/-- A port that drops is DARK, counted, and stays there where its configuration says so. -/
structure Dropped (x : FabPortState) (s : State) (n : Nat) (t : State) : Prop where
  st : (getFab t n).st = 1
  retrains : (getFab t n).retrains = satAdd x.retrains 1
  stay : (getFab t n).stay = !(cfgRetrain x.cfg)
  mem : t.mem = s.mem

theorem dropPort_still (h : FabStill s) (p : Nat) : FabStill (dropPort s p) := by
  unfold dropPort
  split
  · have out := (h.forgetSource p).leaveUp p 1
    have set := out.setFab p (x := { getFab (leaveUp (forgetSource s p) p 1) p with
      retrains := satAdd (getFab (leaveUp (forgetSource s p) p 1) p).retrains 1,
      stay := !(cfgRetrain (getFab (leaveUp (forgetSource s p) p 1) p).cfg) }) (out.quiet.idle.queues p)
    exact set.reported (raiseEvent_reported ..) (raiseEvent_fab ..) (coll_eq (by simp))
  · exact h

theorem dropped_dropPort (h : FabStill s) {p : Nat} (up : portUp s p = true) : Dropped (getFab s p) s p (dropPort s p) := by
  obtain ⟨port, -, mem, -⟩ := leaveUp_empty (h.forgetSource p) p 1
  rw [getFab_forgetSource h] at port
  have rises := ((h.forgetSource p).leaveUp p 1).ports
  have here : getFab (dropPort s p) p = { left (forgetSource s p) (getFab s p) 1 with
      retrains := satAdd (getFab s p).retrains 1, stay := !(cfgRetrain (getFab s p).cfg) } := by
    simp only [dropPort, up, if_pos]
    rw [getFab, raiseEvent_fab]
    refine (getFab_setFab_self _ rises).trans ?_
    rw [port]
    rfl
  refine ⟨by rw [here]; rfl, by rw [here], by rw [here], ?_⟩
  simp only [dropPort, up, if_pos, raiseEvent_mem]
  exact mem

/-- What leaves the setup of the ports and memory leaves a dropped port as it is. -/
theorem Dropped.sends {x : FabPortState} {n : Nat} (h : Dropped x s n t) (hk : keysRise t.fab.ports = true) (k : Sends t u)
    (hm : u.mem = t.mem) : Dropped x s n u := by
  have setup := (k.ports hk).2 n
  have st : (getFab u n).st = (getFab t n).st := portSetup_st setup
  have retrains : (getFab u n).retrains = (getFab t n).retrains :=
    show (portSetup (getFab u n)).retrains = (portSetup (getFab t n)).retrains by rw [setup]
  have stay : (getFab u n).stay = (getFab t n).stay :=
    show (portSetup (getFab u n)).stay = (portSetup (getFab t n)).stay by rw [setup]
  exact ⟨st.trans h.st, retrains.trans h.retrains, stay.trans h.stay, hm.trans h.mem⟩

/-- The header of a packet that is completed stays. -/
theorem pkDst_completeCut {b : Bytes} (h : 64 ≤ b.length) : pkDst (completeCut b) = pkDst b := by
  have first : slice (completeCut b) 12 2 = slice (b.take 64) 12 2 :=
    slice_append_left (by rw [List.length_take]; omega)
  have head : slice (b.take 64) 12 2 = slice b 12 2 := slice_slice (i := 0) (n := 64) (by omega)
  simp only [pkDst, le_eq_slice, first, head]

theorem headerGood_length {b : Bytes} (h : headerGood b = true) : 64 ≤ b.length := by
  simp only [headerGood, Bool.and_eq_true, decide_eq_true_eq] at h
  exact h.1.1

/-- What comes of a packet cut off leaves the setup of the ports and memory, and nothing to be done. -/
theorem takeCut_leaves (h : FabStill s) (p : Nat) (b : Bytes) :
    Sends s (takeCut s p b) ∧ (takeCut s p b).mem = s.mem ∧ FabDone (takeCut s p b) := by
  have done := FabDone.of_quiet h.quiet
  have none := h.quiet.idle.held
  unfold takeCut
  split
  · exact ⟨.refl s, rfl, done⟩
  next cut =>
  split
  · exact ⟨countNoRoute_sends s, rfl, done.of_toDo none rfl⟩
  next on =>
    split
    · exact ⟨.of_ports rfl rfl, rfl, done.of_toDo none rfl⟩
    next far =>
      let x : HeldPkt := { fi := p, bytes := completeCut b, stalled := false, src := (p, pkVc b, 0) }
      have on' : s.fab.en = true := by simpa using on
      have far' : localNode s (pkDst x.bytes) = false := by
        have good : headerGood b = true := by
          simp only [cutGood, Bool.and_eq_true, Bool.not_eq_eq_eq_not, Bool.not_true, Bool.not_eq_false] at cut
          exact cut.1.1
        rw [pkDst_completeCut (headerGood_length good)]
        simpa using far
      show Sends s (comeIn s x) ∧ (comeIn s x).mem = s.mem ∧ FabDone (comeIn s x)
      cases busy : channelBusy s x.src.1 x.src.2.1 with
      | true =>
        rw [comeIn_of_busy busy]
        refine ⟨.of_ports rfl rfl, rfl, ⟨done.loop, fun y hy => ?_, done.windowSet, done.ops, done.fired, done.colls⟩⟩
        rw [none, List.nil_append, List.mem_singleton] at hy
        subst hy
        exact busy
      | false =>
        rw [comeIn_of_turn busy none, takeIn_forward far' on']
        exact ⟨forwardPkt_sends .., mem_eq (by simp), done.of_toDo none (toDo_forwardPkt h.quiet.idle.queues ..)⟩

/-! ## Ports that leave DISABLED, and pairs that join (R438, R439, R555) -/

theorem wakePort_st (hk : keysRise s.fab.ports = true) (p k : Nat) : (getFab (wakePort s p) k).st =
    if k = p ∧ (getFab s p).st = 0 ∧ cfgEn (getFab s p).cfg = true ∧ pairJoined s p = false ∧ (getFab s p).hot = false ∧
      s.pwr.state < 3 then 1 else (getFab s k).st := by
  unfold wakePort
  dsimp only
  split
  next h =>
    by_cases hp : k = p
    · subst hp
      rw [if_pos ⟨rfl, h⟩, getFab_enterPort_self (keysRise_smSet hk)]
    · rw [if_neg fun c => hp c.1, getFab_enterPort_other (keysRise_smSet hk) 1 hp, getFab_setFab_other _ hk hp]
  next h => rw [if_neg fun c => h c.2]

/-- What waking a port leaves: its configuration, every other port, and all but the fabric. -/
theorem wakePort_keeps (hk : keysRise s.fab.ports = true) (p : Nat) : (wakePort s p).mem = s.mem ∧
    keysRise (wakePort s p).fab.ports = true ∧ (wakePort s p).fab.joined = s.fab.joined ∧ (wakePort s p).pwr = s.pwr ∧
    (∀ k, (getFab (wakePort s p) k).cfg = (getFab s k).cfg ∧ (getFab (wakePort s p) k).hot = (getFab s k).hot) ∧
    ((getFab s p).stay = false → (getFab (wakePort s p) p).stay = false) ∧
    ((getFab (wakePort s p) p).act = (getFab s p).act ∨
      ((getFab s p).st = 0 ∧ (getFab (wakePort s p) p).act = (getFab s p).cfg)) := by
  unfold wakePort
  dsimp only
  split
  next wakes =>
    refine ⟨rfl, keysRise_smSet (keysRise_smSet hk), rfl, rfl, fun k => ?_, fun _ => ?_, .inr ⟨wakes.1, ?_⟩⟩
    rotate_left
    · rw [getFab_enterPort_self (keysRise_smSet hk), getFab_setFab_self _ hk]
    · rw [getFab_enterPort_self (keysRise_smSet hk), getFab_setFab_self _ hk]
    by_cases hp : k = p
    · subst hp
      rw [getFab_enterPort_self (keysRise_smSet hk), getFab_setFab_self _ hk]
      exact ⟨rfl, rfl⟩
    · rw [getFab_enterPort_other (keysRise_smSet hk) 1 hp, getFab_setFab_other _ hk hp]
      exact ⟨rfl, rfl⟩
  · exact ⟨rfl, hk, rfl, rfl, fun _ => ⟨rfl, rfl⟩, fun h => h, .inl rfl⟩

/-- After the first `m` pairs of FAB_BYPASS, of which those in `hold` have joined. -/
structure JoinedUpTo (s : State) (hold : BitVec 8) (m : Nat) (t : State) : Prop where
  still : FabStill t
  joined : ∀ i < 8, t.fab.joined.getLsbD i = (s.fab.joined.getLsbD i || (decide (i < m) && hold.getLsbD i))
  ports : ∀ k, (getFab t k).st = if k / 2 < m ∧ hold.getLsbD (k / 2) = true ∧ s.fab.joined.getLsbD (k / 2) = false then 0
    else (getFab s k).st
  rest : t.fab.hold = hold ∧ t.fab.designate = s.fab.designate ∧ t.fab.bypLock = s.fab.bypLock ∧ t.mem = s.mem

theorem disablePort_setup (h : FabStill s) (p : Nat) : fabSetup (disablePort s p).fab = fabSetup s.fab := by
  unfold disablePort
  dsimp only
  split
  · rfl
  · split
    · exact (leaveUp_empty (h.forgetSource p) p 0).2.2.2
    · rfl

theorem joinPair_leaves (h : FabStill s) (m : Nat) : (joinPair s m).mem = s.mem ∧
    (joinPair s m).fab.joined = s.fab.joined ||| BitVec.ofNat 8 (2 ^ m) ∧
    (joinPair s m).fab.hold = s.fab.hold ∧ (joinPair s m).fab.designate = s.fab.designate ∧
    (joinPair s m).fab.bypLock = s.fab.bypLock ∧
    ∀ k, (getFab (joinPair s m) k).st = if k / 2 = m then 0 else (getFab s k).st := by
  have one := h.disablePort (2 * m)
  have setup := (disablePort_setup one (2 * m + 1)).trans (disablePort_setup h (2 * m))
  have field {α : Type} (f : FabState → α) (hf : ∀ x, f (fabSetup x) = f x) :
      f (disablePort (disablePort s (2 * m)) (2 * m + 1)).fab = f s.fab := by
    rw [← hf, setup, hf]
  have hold := field FabState.hold fun _ => rfl
  have designate := field FabState.designate fun _ => rfl
  have bypLock := field FabState.bypLock fun _ => rfl
  have joined := field FabState.joined fun _ => rfl
  have port (k : Nat) : getFab (joinPair s m) k = getFab (disablePort (disablePort s (2 * m)) (2 * m + 1)) k := by
    simp only [getFab, joinPair]
  have mem : (joinPair s m).mem = (disablePort (disablePort s (2 * m)) (2 * m + 1)).mem := by simp only [joinPair]
  refine ⟨mem.trans ((disablePort_mem _ _).trans (disablePort_mem s (2 * m))), ?_, ?_, ?_, ?_, fun k => ?_⟩
  · simp only [joinPair, joined]
  · simp only [joinPair, hold]
  · simp only [joinPair, designate]
  · simp only [joinPair, bypLock]
  · rw [port, disablePort_st one, disablePort_st h]
    by_cases hm : k / 2 = m
    · rw [if_pos hm]
      split
      · rfl
      · rw [if_pos (by omega)]
    · rw [if_neg hm, if_neg (by omega), if_neg (by omega)]

theorem JoinedUpTo.step {hold : BitVec 8} {m : Nat} (h : JoinedUpTo s hold m t) (hm : m < 8) : JoinedUpTo s hold (m + 1)
    (if hold.getLsbD m && !(t.fab.joined.getLsbD m) then joinPair t m else t) := by
  obtain ⟨still, joined, ports, rest⟩ := h
  have mine : t.fab.joined.getLsbD m = s.fab.joined.getLsbD m := by rw [joined m hm]; simp
  split
  next join =>
    obtain ⟨held, free⟩ : hold.getLsbD m = true ∧ s.fab.joined.getLsbD m = false := by simpa [mine] using join
    obtain ⟨mem, joins, kept1, kept2, kept3, off⟩ := joinPair_leaves still m
    have bit : ∀ i < 8, ∀ m < 8, (BitVec.ofNat 8 (2 ^ m)).getLsbD i = decide (i = m) := by decide
    refine ⟨still.joinPair m, fun i hi => ?_, fun k => ?_, kept1.trans rest.1, kept2.trans rest.2.1, kept3.trans rest.2.2.1,
      mem.trans rest.2.2.2⟩
    · rw [joins, BitVec.getLsbD_or, joined i hi, bit i hi m hm]
      by_cases e : i = m
      · subst e
        simp [held]
      · simp [e, show i < m + 1 ↔ i < m by omega]
    · rw [off k, ports k]
      by_cases e : k / 2 = m
      · simp [e, held, free]
      · simp [e, show k / 2 < m + 1 ↔ k / 2 < m by omega]
  next stay =>
    have idle : ¬(hold.getLsbD m = true ∧ s.fab.joined.getLsbD m = false) := by simpa [mine] using stay
    refine ⟨still, fun i hi => ?_, fun k => ?_, rest⟩
    · rw [joined i hi]
      by_cases e : i = m
      · subst e
        cases hh : hold.getLsbD i with
        | false => simp
        | true => simpa [hh] using idle
      · simp [show i < m + 1 ↔ i < m by omega]
    · rw [ports k]
      by_cases e : k / 2 = m
      · simp [e, idle]
      · simp [show k / 2 < m + 1 ↔ k / 2 < m by omega]

/-- The pairs that FAB_BYPASS holds are joined. -/
theorem joinPairs (h : FabStill s) (m : Nat) (hm : m ≤ 8) : JoinedUpTo s s.fab.hold m ((List.range m).foldl
    (fun x i => if s.fab.hold.getLsbD i && !(x.fab.joined.getLsbD i) then joinPair x i else x) s) := by
  induction m with
  | zero => exact ⟨h, by simp, by simp, rfl, rfl, rfl, rfl⟩
  | succ m ih =>
    rw [List.range_succ, List.foldl_append]
    exact (ih (by omega)).step (by omega)

/-! ## A header that cannot be trusted (R411) -/

theorem settleFab_dropPort (h : FabStill s) (p : Nat) : settleFab (dropPort s p) = dropPort s p :=
  settleFab_of_quiet (dropPort_still h p).quiet

theorem arrive_bad {p : FabPort} (carries : portCarries s p.toNat = true) (bad : headerGood b = false) (kind : Nat)
    (pcie : Option Bool) : arrive p b kind pcie s = settleFab (dropPort s p.toNat) := by
  simp [arrive, carries, bad]

/-- An IDLE flit whose header cannot be trusted drops the port too. -/
theorem idle_bad (h : FabStill s) {p : FabPort} (carries : portCarries s p.toNat = true) (bad : headerGood b = false)
    (k1 k2 : BitVec 16) : Gives (.idle p b k1 k2) s fun t => Dropped (getFab s p.toNat) s p.toNat t := by
  let x := getFab s p.toNat
  let y : FabPortState := { x with corrected := satAdd x.corrected k1.toNat, uncorrectable := satAdd x.uncorrectable k2.toNat }
  have still : FabStill (setFab s p.toNat y) := h.setFab _ (h.quiet.idle.queues _)
  have port : getFab (setFab s p.toNat y) p.toNat = y := getFab_setFab_self _ h.ports
  have up : portUp (setFab s p.toNat y) p.toNat = true := by
    rw [portUp, port]
    exact (Bool.and_eq_true_iff.mp carries).1
  refine ⟨_, by show execIdle p b k1 k2 s = _; simp only [execIdle, carries, bad]; rfl, ?_⟩
  show Dropped x s p.toNat (settleFab (dropPort (setFab s p.toNat y) p.toNat))
  rw [settleFab_dropPort still]
  obtain ⟨st, retrains, stay, mem⟩ := dropped_dropPort still up
  rw [port] at retrains stay
  exact ⟨st, retrains, stay, mem⟩

theorem routerForward_bad (h : FabStill s) {p : FabPort} (carries : portCarries s p.toNat = true) (bad : headerGood b = false) :
    Gives (.routerForward p b) s fun t => Dropped (getFab s p.toNat) s p.toNat t := by
  refine ⟨_, by show execRouterForward p b s = _; simp only [execRouterForward, carries, bad]; rfl, ?_⟩
  rw [settleFab_dropPort h]
  exact dropped_dropPort h (Bool.and_eq_true_iff.mp carries).1

/-- An opened switch lets the ports of its pair climb. -/
theorem bypassSwitchDone_gives (hk : keysRise s.fab.ports = true) {i : BitVec 3} (joined : s.fab.joined.getLsbD i.toNat = true)
    (free : pairHeld s i.toNat = false) : Gives (.bypassSwitchDone i) s fun t =>
      t.fab.joined = s.fab.joined &&& ~~~(1#8 <<< i.toNat) ∧ t.mem = s.mem ∧
      ∀ k, (getFab t k).st = if k / 2 = i.toNat ∧ (getFab s k).st = 0 ∧ cfgEn (getFab s k).cfg = true ∧
        (getFab s k).hot = false ∧ s.pwr.state < 3 then 1 else (getFab s k).st := by
  let m : BitVec 8 := BitVec.ofNat 8 (255 - 2 ^ i.toNat)
  let s1 : State := { s with fab := { s.fab with joined := s.fab.joined &&& m } }
  have mask : ∀ i : BitVec 3, BitVec.ofNat 8 (255 - 2 ^ i.toNat) = ~~~(1#8 <<< i.toNat) := by decide
  have open_ : ∀ i : BitVec 3, (~~~(1#8 <<< i.toNat)).getLsbD i.toNat = false := by decide
  refine ⟨wakePort (wakePort s1 (2 * i.toNat)) (2 * i.toNat + 1), if_pos (by simp [joined, free]), ?_⟩
  have pair : ∀ k, k / 2 = i.toNat → pairJoined s1 k = false := fun k hk => by
    simp only [pairJoined, s1, m, mask, BitVec.getLsbD_and, hk, open_, Bool.and_false]
  obtain ⟨mem1, rises1, joined1, pwr1, kept1, -⟩ := wakePort_keeps (s := s1) hk (2 * i.toNat)
  obtain ⟨mem2, -, joined2, -, -, -⟩ := wakePort_keeps rises1 (2 * i.toNat + 1)
  refine ⟨?_, mem2.trans mem1, fun k => ?_⟩
  · rw [joined2, joined1, ← mask]
  · have pair1 : pairJoined (wakePort s1 (2 * i.toNat)) (2 * i.toNat + 1) = false := by
      rw [pairJoined, joined1]
      exact pair _ (by omega)
    have even := wakePort_st (s := s1) hk (2 * i.toNat)
    have odd := wakePort_st rises1 (2 * i.toNat + 1) k
    rw [even (2 * i.toNat + 1), even k, pair1, pwr1, (kept1 _).1, (kept1 _).2, pair _ (by omega),
      if_neg (c := 2 * i.toNat + 1 = 2 * i.toNat ∧ _) fun c => absurd c.1 (by omega)] at odd
    rw [odd]
    show (if k = 2 * i.toNat + 1 ∧ (getFab s (2 * i.toNat + 1)).st = 0 ∧ cfgEn (getFab s (2 * i.toNat + 1)).cfg = true ∧ false = false ∧
      (getFab s (2 * i.toNat + 1)).hot = false ∧ s.pwr.state < 3 then 1 else if k = 2 * i.toNat ∧ (getFab s (2 * i.toNat)).st = 0 ∧
      cfgEn (getFab s (2 * i.toNat)).cfg = true ∧ false = false ∧ (getFab s (2 * i.toNat)).hot = false ∧ s.pwr.state < 3 then 1
      else (getFab s k).st) = _
    by_cases high : k = 2 * i.toNat + 1
    · subst high
      simp [show (2 * i.toNat + 1) / 2 = i.toNat by omega]
    · by_cases low : k = 2 * i.toNat
      · subst low
        simp
      · simp [high, low, show ¬k / 2 = i.toNat by omega]

/-- The bypass register, its pairs joined. -/
theorem writeBypass_leaves (h : FabStill s) (v : BitVec 32) :
    let t := writeBypass v.toNat s
    let hold := v.extractLsb' 8 8
    t.fab.hold = hold ∧ t.fab.joined = s.fab.joined ||| hold ∧
    t.fab.designate = (if s.fab.bypLock then s.fab.designate else v.extractLsb' 0 8) ∧
    t.fab.bypLock = (s.fab.bypLock || v.getLsbD 31) ∧ t.mem = s.mem ∧
    ∀ k < 16, (getFab t k).st = if hold.getLsbD (k / 2) && !(s.fab.joined.getLsbD (k / 2)) then 0 else (getFab s k).st := by
  intro t hold
  let s1 : State := { s with fab := { s.fab with
    hold := BitVec.ofNat 8 (bits v.toNat 8 8), bypLock := s.fab.bypLock || bit v.toNat 31,
    designate := if s.fab.bypLock then s.fab.designate else BitVec.ofNat 8 (bits v.toNat 0 8) } }
  have fields (lo : Nat) : BitVec.ofNat 8 (bits v.toNat lo 8) = v.extractLsb' lo 8 := by
    apply BitVec.eq_of_toNat_eq
    simp [bits]
  have joins := joinPairs (s := s1) (h.setBypass _ _ _ _) 8 (by omega)
  have settled : t = (List.range 8).foldl
      (fun x i => if s1.fab.hold.getLsbD i && !(x.fab.joined.getLsbD i) then joinPair x i else x) s1 :=
    settleFab_of_quiet joins.still.quiet
  rw [← settled] at joins
  obtain ⟨-, joined, ports, held, designate, bypLock, mem⟩ := joins
  have hold1 : s1.fab.hold = hold := fields 8
  refine ⟨held.trans hold1, ?_, ?_, ?_, mem, fun k hk => ?_⟩
  · refine BitVec.eq_of_getLsbD_eq fun i hi => ?_
    rw [joined i hi, hold1, BitVec.getLsbD_or]
    simp [s1, hi]
  · rw [designate, ← fields 0]
  · rw [bypLock, ← bit_eq_getLsbD]
  · rw [ports k, hold1]
    simp only [show k / 2 < 8 by omega, true_and, Bool.and_eq_true, Bool.not_eq_true']
    rfl

/-- Whether the time in a state is limited (R408). -/
def stateClock (s : State) (x : FabPortState) : Bool :=
  (2#3 ≤ x.st && x.st ≤ 4#3) || (x.st == 5 && x.paramSeen && x.peerNode != 0xFFFF && s.fab.nodeId != 0xFFFF)

theorem stateClock_of_counts {x : FabPortState} (h : x.st = 2 ∨ x.st = 3 ∨ x.st = 4 ∨
    (x.st = 5 ∧ x.paramSeen = true ∧ x.peerNode ≠ 0xFFFF ∧ s.fab.nodeId ≠ 0xFFFF)) : stateClock s x = true := by
  obtain h | h | h | ⟨h, seen, peer, own⟩ := h
  · simp [stateClock, h]
  · simp [stateClock, h]
  · simp [stateClock, h]
  · simp only [stateClock, h, seen, Bool.or_eq_true, Bool.and_eq_true, bne_iff_ne]
    exact .inr ⟨⟨⟨rfl, trivial⟩, peer⟩, own⟩

theorem stateClock_stopped {x : FabPortState} (five : x.st = 5)
    (h : s.fab.nodeId = 0xFFFF ∨ x.paramSeen = false ∨ x.peerNode = 0xFFFF) : stateClock s x = false := by
  obtain h | h | h := h
  · simp [stateClock, five, h]
  · simp [stateClock, five, h]
  · simp [stateClock, five, h]

theorem entered_goes {p st : Nat} (h : Entered s p st t) : (getFab t p).st.toNat = st ∧ (getFab t p).since = s.nowNs ∧
    (∀ k, k ≠ p → getFab t k = getFab s k) ∧ t.mem = s.mem := ⟨h.st, h.since, h.others, h.mem⟩

theorem dropped_all {x : FabPortState} {p : Nat} (h : Dropped x s p t) : (getFab t p).st = 1 ∧
    (getFab t p).retrains = satAdd x.retrains 1 ∧ (getFab t p).stay = !(cfgRetrain x.cfg) ∧ t.mem = s.mem :=
  ⟨h.st, h.retrains, h.stay, h.mem⟩

/-- A port that drops, with the packet cut off. -/
theorem linkDrop_gives (h : FabStill s) {p : FabPort} (up : portUp s p.toNat = true) (loss : LinkLoss) :
    Gives (.linkDrop p loss) s fun t => Dropped (getFab s p.toNat) s p.toNat t := by
  let x := getFab s p.toNat
  let s1 := if loss.cause = .codeword then setFab s p.toNat { x with uncorrectable := satAdd x.uncorrectable 1 } else s
  refine ⟨settleFab (takeCut (dropPort s1 p.toNat) p.toNat loss.cut), if_pos up, ?_⟩
  have before : FabStill s1 ∧ Dropped x s p.toNat (dropPort s1 p.toNat) := by
    simp only [s1]
    split
    · have still : FabStill (setFab s p.toNat { x with uncorrectable := satAdd x.uncorrectable 1 }) :=
        h.setFab _ (h.quiet.idle.queues _)
      have port := getFab_setFab_self (s := s) (p := p.toNat) { x with uncorrectable := satAdd x.uncorrectable 1 } h.ports
      obtain ⟨st, retrains, stay, mem⟩ := dropped_dropPort still (p := p.toNat) (by rw [portUp, port]; exact up)
      rw [port] at retrains stay
      exact ⟨still, st, retrains, stay, mem⟩
    · exact ⟨h, dropped_dropPort h up⟩
  obtain ⟨still, dropped⟩ := before
  obtain ⟨sends, mem, done⟩ := takeCut_leaves (dropPort_still still p.toNat) p.toNat loss.cut
  rw [settleFab_of_done done]
  exact dropped.sends (dropPort_still still p.toNat).ports sends mem

/-- What FAB_PORT_CFG leaves of its port (R408, R411). -/
theorem writePortCfg_leaves (h : FabStill s) (p : Nat) (v : BitVec 64) :
    let x := getFab s p
    let c := cfgWord x.cfg v.toNat
    let t := writePortCfg p v.toNat s
    (getFab t p).cfg = c ∧ (getFab t p).st = (if cfgEn c = false then 0 else if x.st = 7 then 1
      else if x.st = 0 ∧ pairJoined s p = false ∧ x.hot = false ∧ s.pwr.state < 3 then 1 else x.st) ∧
    (getFab t p).stay = false ∧ ((getFab t p).act = if x.st = 6 ∧ cfgEn c = true then x.act else c) ∧ t.mem = s.mem := by
  intro x c t
  let y : FabPortState := { x with cfg := c, act := if x.st = 6 then x.act else c, stay := false }
  have still : FabStill (setFab s p y) := h.setFab p (h.quiet.idle.queues p)
  have port : getFab (setFab s p y) p = y := getFab_setFab_self _ h.ports
  cases on : cfgEn c with
  | false =>
    have off : t = settleFab (disablePort (setFab s p y) p) := by
      simp only [t, writePortCfg]
      rw [if_pos (by simpa using on)]
    obtain ⟨st, cfg, stay, act⟩ := disablePort_port still p
    rw [port] at cfg stay act
    rw [off, settleFab_of_quiet (still.disablePort p).quiet]
    refine ⟨cfg, st, stay, ?_, disablePort_mem ..⟩
    rw [act, if_neg (c := _ ∧ _) fun h => Bool.false_ne_true h.2]
    by_cases six : x.st = 6
    · exact if_pos six
    · exact (if_neg six).trans (if_neg six)
  | true =>
    by_cases seven : x.st = 7
    · have dark : t = enterPort (setFab s p y) p 1 := by
        simp only [t, writePortCfg]
        rw [if_neg (by simpa using on), if_pos seven]
      have six : ¬(x.st = 6 ∧ cfgEn c = true) := fun h => by rw [seven] at h; exact absurd h.1 (by decide)
      have six' : ¬x.st = 6 := fun h => six ⟨h, on⟩
      rw [dark, getFab_enterPort_self still.ports, port, on] at *
      exact ⟨rfl, (if_pos seven).symm, rfl, (if_neg six').trans (if_neg six).symm, rfl⟩
    · have wake : t = wakePort (setFab s p y) p := by
        simp only [t, writePortCfg]
        rw [if_neg (by simpa using on), if_neg seven]
      obtain ⟨mem, -, -, -, kept, stay, act⟩ := wakePort_keeps still.ports p
      have st := wakePort_st still.ports p p
      rw [port] at st stay act
      rw [wake]
      refine ⟨by rw [(kept p).1, port], ?_, stay rfl, ?_, mem⟩
      · have cond : (p = p ∧ y.st = 0 ∧ cfgEn y.cfg = true ∧ pairJoined (setFab s p y) p = false ∧ y.hot = false ∧
            (setFab s p y).pwr.state < 3) ↔ (x.st = 0 ∧ pairJoined s p = false ∧ x.hot = false ∧ s.pwr.state < 3) :=
          ⟨fun h => ⟨h.2.1, h.2.2.2⟩, fun h => ⟨rfl, h.1, on, h.2⟩⟩
        rw [st]
        exact (if_congr cond rfl rfl).trans ((if_neg (by simp)).trans (if_neg seven)).symm
      · obtain act | ⟨off, act⟩ := act
        · rw [act]
          by_cases six : x.st = 6
          · exact (if_pos six).trans (if_pos ⟨six, rfl⟩).symm
          · exact (if_neg six).trans (if_neg fun h => six h.1).symm
        · have off' : x.st = 0 := off
          rw [act, if_neg]
          rintro ⟨h, -⟩
          rw [off'] at h
          exact absurd h (by decide)

/-- Settles O50: a state is entered with its time, a port that drops is DARK and counted, whatever becomes of a packet cut off,
and FAB_PORT_CFG, FAB_BYPASS and an opened switch set the states of their ports. -/
theorem linksTrainAndDrop : Obligations.LinksTrainAndDrop := by
  unfold Obligations.LinksTrainAndDrop
  refine ⟨fun p s hs => ⟨fun dark stay hot => ?_, fun signal => ?_, fun clock => ?_, fun word => ?_,
    fun node peer five => ⟨fun h => ?_, fun hn hi wrong => ?_, fun hn hi right => ?_⟩, fun counts => ?_, fun five h => ?_⟩,
    fun p s hs quiet => ⟨fun six => ⟨fun loss => ?_, fun b st k1 k2 hi bad c hc => ?_⟩, fun dark stay => ?_, fun h v served => ?_,
      fun h v served => ?_, fun i joined => ⟨fun held => ?_, fun free => ?_⟩⟩⟩
  · exact ⟨_, if_pos ⟨dark, stay, hot⟩, entered_goes (entered_enterPort hs.ports p.toNat 2)⟩
  · exact ⟨_, if_pos signal, entered_goes (entered_enterPort hs.ports p.toNat 3)⟩
  · exact ⟨_, if_pos clock, entered_goes (entered_enterPort hs.ports p.toNat 4)⟩
  · refine ⟨_, if_pos word, entered_goes ((entered_enterPort hs.ports p.toNat 5).of_fab rfl rfl), ?_⟩
    show (s.out ++ [_]) ++ [_] = _
    rw [List.append_assoc]
    rfl
  · obtain ⟨t, runs, goes, port⟩ := param_waits hs.ports node peer five h
    exact ⟨t, runs, entered_goes goes, by rw [port]; rfl, by rw [port]; rfl⟩
  · obtain ⟨t, runs, goes, seen⟩ := param_miswired hs.ports node peer five hn hi wrong
    exact ⟨t, runs, entered_goes goes, seen⟩
  · obtain ⟨t, runs, goes, seen, credits⟩ := param_up hs.ports node peer five hn hi right
    exact ⟨t, runs, entered_goes goes, seen, credits⟩
  · have clock := stateClock_of_counts counts
    refine ⟨fun late => ⟨_, if_pos (show (stateClock s (getFab s p.toNat) && decide _) = true from
      Bool.and_eq_true_iff.mpr ⟨clock, decide_eq_true late⟩), ?_, ?_⟩,
      fun early => ⟨_, if_neg fun c => ?_, rfl⟩⟩
    · exact entered_goes (entered_enterPort_setFab hs.ports p.toNat _ 1)
    · rw [getFab_enterPort_self (keysRise_smSet hs.ports), getFab_setFab_self _ hs.ports]
    · have late : (getFab s p.toNat).since + 50000000 ≤ s.nowNs := of_decide_eq_true (Bool.and_eq_true_iff.mp c).2
      omega
  · exact ⟨_, if_neg (show ¬(stateClock s (getFab s p.toNat) && decide _) = true by simp [stateClock_stopped five h]), rfl⟩
  · obtain ⟨t, runs, dropped⟩ := linkDrop_gives ⟨quiet, hs.ports⟩ (p := p) (decide_eq_true six) loss
    exact ⟨t, runs, dropped_all dropped⟩
  · have still : FabStill s := ⟨quiet, hs.ports⟩
    have up : portUp s p.toNat = true := decide_eq_true six
    have carries : portCarries s p.toNat = true := Bool.and_eq_true_iff.mpr ⟨up, bne_iff_ne.mpr hi⟩
    have drops : ∀ kind pcie, Gives c s (fun t => t = arrive p b kind pcie s) →
        Gives c s fun t => (getFab t p.toNat).st = 1 ∧ (getFab t p.toNat).retrains = satAdd (getFab s p.toNat).retrains 1 ∧
          (getFab t p.toNat).stay = !(cfgRetrain (getFab s p.toNat).cfg) ∧ t.mem = s.mem := by
      rintro kind pcie ⟨t, runs, rfl⟩
      refine ⟨_, runs, ?_⟩
      rw [arrive_bad carries bad, settleFab_dropPort still]
      exact dropped_all (dropped_dropPort still up)
    simp only [List.mem_cons, List.not_mem_nil, or_false] at hc
    rcases hc with rfl | rfl | rfl | rfl | rfl | rfl | rfl | rfl | rfl | rfl | rfl | rfl | rfl | rfl | rfl
    · exact drops 0 (some st) ⟨_, rfl, rfl⟩
    · exact drops 1 none ⟨_, rfl, rfl⟩
    · exact drops 2 (some st) ⟨_, rfl, rfl⟩
    · exact drops 3 none ⟨_, rfl, rfl⟩
    · exact drops 4 (some st) ⟨_, rfl, rfl⟩
    · obtain ⟨t, runs, dropped⟩ := routerForward_bad still carries bad
      exact ⟨t, runs, dropped_all dropped⟩
    · obtain ⟨t, runs, dropped⟩ := idle_bad still carries bad k1 k2
      exact ⟨t, runs, dropped_all dropped⟩
    · exact drops 10 none ⟨_, rfl, rfl⟩
    · exact drops 11 none ⟨_, rfl, rfl⟩
    · exact drops 8 none ⟨_, rfl, rfl⟩
    · exact drops 9 (some st) ⟨_, rfl, rfl⟩
    · exact drops 13 none ⟨_, rfl, rfl⟩
    · exact drops 12 none ⟨_, rfl, rfl⟩
    · exact drops 14 (some st) ⟨_, rfl, rfl⟩
    · exact drops 15 (some st) ⟨_, rfl, rfl⟩
  · exact ⟨_, if_neg fun c => by simp [stay] at c, rfl⟩
  · refine ⟨_, congrArg Host.Outcome.next (hostSetup_served served ..), ?_⟩
    have written := writePortCfg_leaves ⟨quiet, hs.ports⟩ p.toNat v
    dsimp only at written
    rw [cfgWord_eq] at written
    have on : cfgEn (((getFab s p.toNat).cfg &&& ~~~0x1FFFFF007F#64) ||| (v &&& 0x1FFFFF007F#64)) = v.getLsbD 0 := by
      simp [cfgEn]
    rw [on] at written
    exact written
  · refine ⟨_, congrArg Host.Outcome.next (hostSetup_served served ..), ?_⟩
    exact writeBypass_leaves ⟨quiet, hs.ports⟩ v
  · exact ⟨_, if_neg (by simp [held]), rfl⟩
  · exact bypassSwitchDone_gives hs.ports joined free

end Sys2Proof.Laws
end

section
/-! PROOFS. Packets for this node: orders 2 to 4, outputs and ACKs. -/

namespace Sys2Proof.Laws

open Sys2Proof Sys2Proof.Machine
set_option Elab.async false

variable {s t u : State} {p q n : Nat} {b : Bytes}

/-! ## A packet for this node reaches its FI (R416 to R418, R423) -/

theorem drainPosts_of_none (hp : s.fab.posts = []) (hh : s.fab.held = []) : drainPosts s = s := by
  have fab : { s.fab with posts := [], held := [] } = s.fab := by rw [← hp, ← hh]
  rw [drainPosts, hp, hh, List.map_nil, fab]
  rfl

/-- The place of a packet in its input buffer. -/
def bufferOf (n : Nat) (b : Bytes) : Option (Nat × Nat × Nat) := some (n, pkVc b, b.length / 64)

theorem arrive_here (h : FabEmpty s) {p : FabPort} {kind : Nat} (a : Arrives s p b kind) (pcie : Option Bool) :
    arrive p b kind pcie s =
      settleFab (sinkPlain (entered s p.toNat b) p.toNat b (pcie == some true) (bufferOf p.toNat b)) := by
  obtain ⟨up, header, head, here, isKind, cls, on, turn⟩ := a
  have sends := entered_sends s p.toNat b
  have empty := h.entered p.toNat b
  have turn' : channelBusy (entered s p.toNat b) p.toNat (pkVc b) = false := by rw [channelBusy_entered h]; exact turn
  have taken : takenKind b = kind := by rw [takenKind, isKind, if_pos cls]
  have drained : (if pcie = some false then drainPosts s else s) = s := by
    rw [drainPosts_of_none h.idle.posts h.idle.held, ite_self]
  have comes : comeIn (entered s p.toNat b)
      { fi := p.toNat, bytes := b, stalled := pcie == some true, src := (p.toNat, pkVc b, b.length / 64) } =
      sinkPlain (entered s p.toNat b) p.toNat b (pcie == some true) (bufferOf p.toNat b) := by
    rw [comeIn_of_turn (h := { fi := p.toNat, bytes := b, stalled := pcie == some true, src := (p.toNat, pkVc b, b.length / 64) })
      turn' empty.idle.held, takeIn, fabEn_of_sends sends, on, localNode_of_sends sends, here]
    rfl
  rw [arrive, up, header, taken, here, drained, enterBuffer_eq, comes]
  simp [head]

/-! ## Orders 2 to 4 (R427, R428) -/

theorem pktGrants_of_ground (h : ground t = ground s) (b : Bytes) (w : Bool) (l : Nat) : pktGrants t b w l = pktGrants s b w l := by
  have hw : t.hif.wt = s.hif.wt := by
    simp only [ground, Prod.mk.injEq] at h
    exact h.2.2.2.1
  simp only [pktGrants, wtLookup, hw, hostTarget_of_ground h]

/-- The lines of a packet that the Window Table does not grant; a collective packet for reduction memory needs none. -/
def ungranted (s : State) (b : Bytes) (w : Bool) : List Nat :=
  if pkCls b == 3 && region (pkAddr b) == .red then []
  else (linesOf (pkAddr b) (pkPlen b)).filter (fun l => !(pktGrants s b w l))

/-- Whether a packet bears another epoch than its core. -/
def staleEpoch (s : State) (b : Bytes) : Bool :=
  pkEpochEn b && (smGet 0 s.fab.epochs ((pkAddr b - coreStores) / coreStoreLen)).toNat != pkEpoch b

/-- Whether a packet passes them. -/
def passesOrders (s : State) (b : Bytes) (w : Bool) : Bool :=
  (orderTwoBad b).isEmpty && (ungranted s b w).isEmpty && !(staleEpoch s b)

theorem ordersTwoFour_eq (s : State) (fi : Nat) (b : Bytes) (w : Bool) : ordersTwoFour s fi b w =
    if !(orderTwoBad b).isEmpty then (denyPkt s w (orderTwoBad b), false)
    else if !(ungranted s b w).isEmpty then (denyPkt s w (ungranted s b w), false)
    else if staleEpoch s b then
      (raiseEvent { s with fab := { s.fab with staleRole := satAdd s.fab.staleRole 1 } } .staleRole 4 fi, false)
    else (s, true) := rfl

theorem ordersTwoFour_snd (s : State) (fi : Nat) (b : Bytes) (w : Bool) : (ordersTwoFour s fi b w).2 = passesOrders s b w := by
  rw [ordersTwoFour_eq, passesOrders]
  cases (orderTwoBad b).isEmpty with
  | false => rfl
  | true =>
    cases (ungranted s b w).isEmpty with
    | false => rfl
    | true => cases staleEpoch s b <;> rfl

/-- They rest on the Window Table and the epochs. -/
theorem passesOrders_of_ground (h : ground t = ground s) (he : t.fab.epochs = s.fab.epochs) (b : Bytes) (w : Bool) :
    passesOrders t b w = passesOrders s b w := by
  simp only [passesOrders, ungranted, staleEpoch, pktGrants_of_ground h, he]

/-- A packet that passes leaves the state as it is. -/
theorem ordersTwoFour_passed {fi : Nat} {w : Bool} (h : (ordersTwoFour s fi b w).2 = true) : ordersTwoFour s fi b w = (s, true) := by
  rw [ordersTwoFour_snd, passesOrders, Bool.and_eq_true, Bool.and_eq_true] at h
  obtain ⟨⟨two, three⟩, four⟩ := h
  rw [ordersTwoFour_eq, two, three, show staleEpoch s b = false by simpa using four]
  rfl

/-- What a refusal leaves: memory, the command processor, and what the fabric has to do and holds. -/
structure Refused (s t : State) : Prop where
  mem : t.mem = s.mem
  cmd : t.cmd = s.cmd
  ports : t.fab.ports = s.fab.ports
  late : t.fab.lateReplies = s.fab.lateReplies
  toDo : toDo t = toDo s

theorem Refused.trans (h : Refused s t) (k : Refused t u) : Refused s u :=
  ⟨k.mem.trans h.mem, k.cmd.trans h.cmd, k.ports.trans h.ports, k.late.trans h.late, k.toDo.trans h.toDo⟩

theorem refused_of_reported (h : Reported s t) (hm : t.mem = s.mem) (hd : t.cmd = s.cmd) (hf : t.fab = s.fab) (hc : t.coll = s.coll) :
    Refused s t :=
  ⟨hm, hd, by rw [hf], by rw [hf], by rw [toDo, toDo, hf, hc, h.wtWait]⟩

theorem refused_raiseEvent (s : State) (st : Status) (i j : Nat) (d : Bytes) : Refused s (raiseEvent s st i j d) :=
  refused_of_reported (raiseEvent_reported ..) (raiseEvent_mem ..) (cmd_eq (by simp)) (raiseEvent_fab ..) (coll_eq (by simp))

theorem denyLine_fab (s : State) (i : Nat) (w : Bool) (a : Nat) : (denyLine s i w a).fab = s.fab := fab_eq (by simp)

theorem refused_denyLine (s : State) (i : Nat) (w : Bool) (a : Nat) : Refused s (denyLine s i w a) :=
  refused_of_reported (denyLine_reported ..) (mem_eq (by simp)) (cmd_eq (by simp)) (denyLine_fab ..) (coll_eq (by simp))

theorem refused_denyPkt (s : State) (w : Bool) (ls : List Nat) : Refused s (denyPkt s w ls) ∧
    (denyPkt s w ls).fab.windowDeny = satAdd s.fab.windowDeny 1 := by
  unfold denyPkt
  refine List.foldlRecOn (motive := fun x => Refused s x ∧ x.fab.windowDeny = satAdd s.fab.windowDeny 1) ls _
    ⟨⟨rfl, rfl, rfl, rfl, rfl⟩, rfl⟩ fun x hx l _ => ⟨hx.1.trans (refused_denyLine ..), ?_⟩
  rw [denyLine_fab]
  exact hx.2

theorem refused_staleRole (s : State) (fi : Nat) :
    Refused s (raiseEvent { s with fab := { s.fab with staleRole := satAdd s.fab.staleRole 1 } } .staleRole 4 fi) := by
  have counted : Refused s { s with fab := { s.fab with staleRole := satAdd s.fab.staleRole 1 } } := ⟨rfl, rfl, rfl, rfl, rfl⟩
  exact counted.trans (refused_raiseEvent ..)

theorem refused_ordersTwoFour {fi : Nat} {w : Bool} (h : (ordersTwoFour s fi b w).2 = false) :
    Refused s (ordersTwoFour s fi b w).1 ∧
      (orderTwoBad b ≠ [] → (ordersTwoFour s fi b w).1.fab.windowDeny = satAdd s.fab.windowDeny 1) := by
  rw [ordersTwoFour_eq] at h ⊢
  split at h
  next two =>
    rw [if_pos two]
    exact ⟨(refused_denyPkt ..).1, fun _ => (refused_denyPkt ..).2⟩
  next two =>
    have none : orderTwoBad b = [] := by simpa using two
    rw [if_neg two]
    refine ⟨?_, fun some => absurd none some⟩
    split at h
    next three =>
      rw [if_pos three]
      exact (refused_denyPkt ..).1
    next three =>
      rw [if_neg three]
      split at h
      next four =>
        rw [if_pos four]
        exact refused_staleRole s fi
      next => cases h

theorem ground_entered (s : State) (n : Nat) (b : Bytes) : ground (entered s n b) = ground s := by
  have sends := entered_sends s n b
  refine ground_of_parts (by rw [cr_eq (t := entered s n b) (entered_rest s n b (by decide))])
    (by rw [mr_eq (t := entered s n b) (entered_rest s n b (by decide))])
    (by rw [fw_eq (t := entered s n b) (entered_rest s n b (by decide))])
    (by rw [hif_eq (t := entered s n b) (entered_rest s n b (by decide))]) (fun p => ?_) sends.nodeId
  simp only [getPort, hif_eq (t := entered s n b) (entered_rest s n b (by decide)), and_self]

theorem passes_entered (h : FabEmpty s) (n : Nat) (b : Bytes) (fi : Nat) (w : Bool) :
    (ordersTwoFour (entered s n b) fi b w).2 = (ordersTwoFour s fi b w).2 := by
  rw [ordersTwoFour_snd, ordersTwoFour_snd, passesOrders_of_ground (ground_entered s n b) (by rw [entered_fab h])]

theorem orderFive_of_ground (h : ground t = ground s) (b : Bytes) : orderFive t b = orderFive s b := by
  simp only [orderFive, canAccess_of_ground h]

theorem hostTargets_of_ground (h : ground t = ground s) (b : Bytes) : hostTargets t b = hostTargets s b := by
  simp only [hostTargets, hostTarget_of_ground h]

/-! ## What leaves is added to what has left -/

/-- Every output of `s` is one of `t`. -/
structure OutKept (s t : State) : Prop where
  out : ∀ o ∈ s.out, o ∈ t.out

theorem OutKept.refl (s : State) : OutKept s s := ⟨fun _ h => h⟩

theorem OutKept.trans (h : OutKept s t) (k : OutKept t u) : OutKept s u := ⟨fun o ho => k.out o (h.out o ho)⟩

theorem OutKept.of_eq (h : t.out = s.out) : OutKept s t := ⟨fun _ ho => by rw [h]; exact ho⟩

theorem outKept_setFab (s : State) (p : Nat) (x : FabPortState) : OutKept s (setFab s p x) := .of_eq rfl

theorem outKept_takeTag (s : State) (fi t part limit : Nat) (o : FabOwner) : OutKept s (takeTag s fi t part limit o) := .of_eq rfl

theorem outKept_emit (s : State) (o : Output) : OutKept s (emit s o) := ⟨fun _ h => List.mem_append_left _ h⟩

theorem outKept_freeSource (s : State) (src : Option (Nat × Nat × Nat)) : OutKept s (freeSource s src) :=
  ⟨fun _ h => mem_out_freeSource h src⟩

theorem outKept_putOnLink (s : State) (p : Nat) (o : OutPkt) (b : Bytes) : OutKept s (putOnLink s p o b) :=
  ((outKept_setFab s p _).trans (outKept_emit _ _)).trans (outKept_freeSource _ o.src)

theorem outKept_trySend {o : OutPkt} (h : trySend s p o = some t) : OutKept s t := by
  rw [trySend] at h
  split at h
  · split at h
    · split at h
      · exact absurd h (by simp)
      · exact Option.some.inj h ▸ (outKept_takeTag s p _ _ _ _).trans (outKept_putOnLink _ p o _)
    · exact Option.some.inj h ▸ outKept_putOnLink ..
  · exact absurd h (by simp)

theorem outKept_drainList (p : Nat) (os : List OutPkt) (blocked : List Nat) (s : State) (kept : List OutPkt) :
    OutKept s (drainList p os blocked s kept).1 := by
  induction os generalizing blocked s kept with
  | nil => exact .refl s
  | cons o os ih =>
    rw [drainList]
    split
    · exact ih ..
    · split
      next h => exact (outKept_trySend h).trans (ih ..)
      next => exact ih ..

theorem outKept_sendOut (s : State) (p : Nat) (o : OutPkt) : OutKept s (sendOut s p o) := by
  dsimp only [sendOut, drainPort]
  split
  · exact ((outKept_setFab s p _).trans (outKept_drainList p _ [] _ [])).trans (outKept_setFab _ p _)
  · exact outKept_setFab s p _

/-! ## An ACK (R414, R425, R429) -/

/-- What the answer to a packet leaves: it goes to another node without a tag, or is lost on its way. -/
structure SendsOnly (s t : State) : Prop where
  toDo : toDo t = toDo s
  mem : t.mem = s.mem
  cmd : t.cmd = s.cmd
  out : OutKept s t

theorem sendsOnly_freeSource (s : State) (src : Option (Nat × Nat × Nat)) : SendsOnly s (freeSource s src) :=
  ⟨toDo_freeSource .., freeSource_mem .., cmd_eq (by simp), outKept_freeSource ..⟩

theorem sendsOnly_sendOut {o : OutPkt} (untagged : o.part = none) (empty : (getFab s p).queue = []) : SendsOnly s (sendOut s p o) :=
  ⟨toDo_sendOut untagged empty, mem_eq (by simp), cmd_eq (by simp), outKept_sendOut ..⟩

theorem SendsOnly.trans (h : SendsOnly s t) (k : SendsOnly t u) : SendsOnly s u :=
  ⟨k.toDo.trans h.toDo, k.mem.trans h.mem, k.cmd.trans h.cmd, h.out.trans k.out⟩

/-- An untagged packet to another node. -/
theorem sendsOnly_injectPlain (empty : ∀ k, (getFab s k).queue = []) (fi : Nat) (h : PktSpec) (far : localNode s h.dst = false)
    (payload : Bytes) (o : Option FabOwner) (src : Option (Nat × Nat × Nat)) : SendsOnly s (injectPlain s fi h payload o src) := by
  have counted : ∀ count : State → State, (∀ x, SendsOnly x (count x)) → ∀ l : LoopPkt, l.part = none →
      SendsOnly s (losePkt count s l) := by
    intro count hc l hl
    unfold losePkt
    rw [hl]
    exact (hc s).trans (sendsOnly_freeSource ..)
  simp only [injectPlain, injectPkt, far, Bool.false_eq_true, if_false, routePkt]
  split
  · exact counted countNoRoute (fun x => ⟨rfl, rfl, rfl, .of_eq rfl⟩) _ rfl
  · split
    · exact counted countRouteErr (fun x => ⟨rfl, rfl, rfl, .of_eq rfl⟩) _ rfl
    · exact sendsOnly_sendOut rfl (empty _)

theorem sendsOnly_sendAck (empty : ∀ k, (getFab s k).queue = []) (fi : Nat) (b : Bytes) (dst : Nat) (st : Status)
    (far : pkAckReq b = true → localNode s dst = false) (src : Option (Nat × Nat × Nat)) :
    SendsOnly s (sendAck s fi b dst st src) := by
  unfold sendAck
  split
  next ack => exact sendsOnly_injectPlain empty fi _ (far ack) [] none src
  next => exact sendsOnly_freeSource s src

end Sys2Proof.Laws
end

section
/-! PROOFS. WRITE and FWD_WRITE land, and what waits for PCIe too long (O51). -/

namespace Sys2Proof.Laws

open Sys2Proof Sys2Proof.Machine
set_option Elab.async false

variable {s t u : State} {p q n : Nat} {b : Bytes}

/-! ## A packet lands (R429) -/

/-- The form of a packet that passes order 1 (R412 to R414). -/
theorem pkPayload_length (h : orderOne b = true) (carried : pkKind b ≠ 1) : (pkPayload b).length = pkPlen b := by
  simp only [orderOne, wellFormedPkt, Bool.and_eq_true, decide_eq_true_eq, pkCarried, if_neg carried] at h
  have len : b.length = 64 * (cdiv (pkPlen b) 64 + 1) := by
    obtain ⟨⟨⟨⟨-, h⟩, -⟩, -⟩, -⟩ := h
    exact h
  have round : pkPlen b ≤ 64 * cdiv (pkPlen b) 64 := by
    simp only [cdiv]
    omega
  rw [pkPayload, List.length_take, List.length_drop, len]
  omega

theorem landLine_mem {targets : List HostGrant} (s : State) (l : Nat) : (landLine b targets s l).mem =
    storeLines (fun l => decide (region l ≠ .host)) (pkAddr b) (pkPayload b)
      (fun l => flitPoison (pkPoison b) ((linePart (pkAddr b) (pkPayload b) l).1 - pkAddr b)
        (linePart (pkAddr b) (pkPayload b) l).2.length) [l] s.mem := by
  simp only [landLine, storeLines, List.foldl_cons, List.foldl_nil]
  by_cases host : region l = .host
  · simp only [host, if_pos]
    split <;> simp
  · simp [host, touch_mem]

/-- What landing leaves: the fabric, the collectives and the command processor, but for the counter. -/
structure LandsIn (s t : State) : Prop where
  fab : t.fab = s.fab
  hif : t.hif = s.hif
  coll : t.coll = s.coll
  cmd : t.cmd = s.cmd
  out : OutKept s t

theorem LandsIn.refl (s : State) : LandsIn s s := ⟨rfl, rfl, rfl, rfl, .refl s⟩

theorem LandsIn.trans (h : LandsIn s t) (k : LandsIn t u) : LandsIn s u :=
  ⟨k.fab.trans h.fab, k.hif.trans h.hif, k.coll.trans h.coll, k.cmd.trans h.cmd, h.out.trans k.out⟩

theorem landsIn_touch (s : State) (a : Nat) : LandsIn s (touch s a) :=
  ⟨fab_eq (by simp), hif_eq (by simp), coll_eq (by simp), cmd_eq (by simp), .of_eq (out_eq (by simp))⟩

theorem landsIn_setMem (s : State) (m : Mem) : LandsIn s (setMem s m) := ⟨rfl, rfl, rfl, rfl, .of_eq rfl⟩

theorem landsIn_landLine {targets : List HostGrant} (s : State) (l : Nat) : LandsIn s (landLine b targets s l) := by
  dsimp only [landLine]
  split
  · split
    · exact ⟨rfl, rfl, rfl, rfl, outKept_emit ..⟩
    · exact .refl s
  · exact (landsIn_setMem s _).trans (landsIn_touch _ l)

/-- The lines of a packet that land. -/
def landed (s : State) (b : Bytes) (targets : List HostGrant) : State :=
  (linesOf (pkAddr b) (pkPlen b)).foldl (landLine b targets) s

theorem landed_leaves (s : State) (b : Bytes) (targets : List HostGrant) (ls : List Nat) :
    LandsIn s (ls.foldl (landLine b targets) s) ∧ (ls.foldl (landLine b targets) s).mem =
      storeLines (fun l => decide (region l ≠ .host)) (pkAddr b) (pkPayload b)
        (fun l => flitPoison (pkPoison b) ((linePart (pkAddr b) (pkPayload b) l).1 - pkAddr b)
          (linePart (pkAddr b) (pkPayload b) l).2.length) ls s.mem := by
  induction ls generalizing s with
  | nil => exact ⟨.refl s, rfl⟩
  | cons l ls ih =>
    obtain ⟨lands, mem⟩ := ih (landLine b targets s l)
    refine ⟨(landsIn_landLine s l).trans lands, ?_⟩
    rw [List.foldl_cons, mem, landLine_mem]
    rfl

/-- A packet in module memory lands whole, and no other byte changes. -/
theorem landed_mem (hs : Memory.wf s.mem = true) (good : orderOne b = true) (carried : pkKind b ≠ 1) (near : toHost b = false)
    (targets : List HostGrant) : memRead (landed s b targets).mem (pkAddr b) (pkPlen b) = pkPayload b ∧
      SameMem s (landed s b targets) [(pkAddr b, pkPlen b)] := by
  have len := pkPayload_length good carried
  have byte : ∀ x, memByte (landed s b targets).mem x =
      if pkAddr b ≤ x ∧ x < pkAddr b + pkPlen b then byteAt (pkPayload b) (x - pkAddr b) else memByte s.mem x := by
    intro x
    rw [landed, (landed_leaves ..).2, ← len]
    refine memByte_storeLines_all hs (fun l hl => ?_) x
    rw [len] at hl
    simp only [toHost, List.any_eq_false, beq_iff_eq] at near
    exact decide_eq_true (near l hl)
  refine ⟨List.ext_getElem (by rw [memRead_length, len]) fun i h1 h2 => ?_, fun x hx => ?_⟩
  · rw [memRead_length] at h1
    simp only [memRead, List.getElem_map, List.getElem_range, byte]
    rw [if_pos (by omega), Nat.add_sub_cancel_left]
    simp [byteAt, h2]
  · rw [byte, if_neg (hx (pkAddr b, pkPlen b) (by simp))]

theorem storeLines_none {takes : Nat → Bool} {a : Nat} {bs : Bytes} {poison : Nat → Bool} {ls : List Nat}
    (h : ∀ l ∈ ls, takes l = false) (m : Mem) : storeLines takes a bs poison ls m = m := by
  induction ls with
  | nil => rfl
  | cons l ls ih => rw [storeLines_cons, h l (by simp), if_neg Bool.false_ne_true, ih fun x hx => h x (by simp [hx])]

/-- A packet for host windows alone leaves memory. -/
theorem landed_host_mem (host : ∀ l ∈ linesOf (pkAddr b) (pkPlen b), region l = .host) (targets : List HostGrant) :
    (landed s b targets).mem = s.mem := by
  rw [landed, (landed_leaves ..).2]
  exact storeLines_none (fun l hl => decide_eq_false fun c => c (host l hl)) s.mem

/-- Each of its lines leaves for the host window that its target names. -/
theorem landed_host_out {z : HostGrant} (hz : z ∈ hostTargets s b) :
    let part := linePart (pkAddr b) (pkPayload b) z.1
    .hostWrite z.2.1 (z.2.2 + (part.1 - z.1)) part.2 (flitPoison (pkPoison b) (part.1 - pkAddr b) part.2.length) ∈
      (landed u b (hostTargets s b)).out := by
  intro part
  obtain ⟨l, hl, target⟩ := List.mem_filterMap.mp hz
  obtain ⟨inside, host⟩ := List.mem_filter.mp hl
  obtain ⟨t, ht, rfl⟩ := Option.map_eq_some_iff.mp target
  have found : (hostTargets s b).find? (·.1 == l) = some (l, t) := by
    cases h : (hostTargets s b).find? (·.1 == l) with
    | none => exact absurd (List.find?_eq_none.mp h _ hz) (by simp)
    | some y =>
      obtain ⟨k, hk, own⟩ := List.mem_filterMap.mp (List.mem_of_find?_eq_some h)
      obtain ⟨t', ht', rfl⟩ := Option.map_eq_some_iff.mp own
      have same : k = l := by simpa using List.find?_some h
      subst same
      rw [ht] at ht'
      rw [Option.some.inj ht']
  obtain ⟨before, after, split⟩ := List.append_of_mem inside
  rw [landed, split, List.foldl_append, List.foldl_cons]
  refine (landed_leaves _ b _ after).1.out.out _ ?_
  simp only [landLine, show region l = .host by simpa using host, if_pos, found]
  exact List.mem_append_right _ (List.mem_singleton_self _)

/-- A landed packet's counter moves, and nothing else but what that reaches. -/
theorem landPkt_eq (s : State) (b : Bytes) (targets : List HostGrant) :
    landPkt s b targets = countLanded b (landed s b targets) := rfl

/-- What counting leaves: the fabric and what it has to do, memory and the outputs. -/
theorem countLanded_leaves (s : State) (b : Bytes) : (countLanded b s).fab = s.fab ∧ toDo (countLanded b s) = toDo s ∧
    (countLanded b s).mem = s.mem ∧ (countLanded b s).out = s.out := by
  unfold countLanded
  split <;> exact ⟨rfl, rfl, rfl, rfl⟩

theorem countLanded_counter (hk : keysRise s.cmd.counters = true) (b : Bytes) :
    counter (countLanded b s) (pkRctr b) = (if pkRctrEn b then counter s (pkRctr b) + 1 else counter s (pkRctr b)) ∧
      ∀ k, k ≠ pkRctr b → counter (countLanded b s) k = counter s k := by
  unfold countLanded
  split
  · refine ⟨?_, fun k hne => ?_⟩
    · rw [bumpCounter_counter hk, if_pos rfl]
    · rw [bumpCounter_counter hk, if_neg hne]
  · exact ⟨rfl, fun _ _ => rfl⟩

/-- What a landed packet leaves. -/
theorem landPkt_leaves (s : State) (b : Bytes) (targets : List HostGrant) : (landPkt s b targets).fab = s.fab ∧
    toDo (landPkt s b targets) = toDo s ∧ (landPkt s b targets).mem = (landed s b targets).mem ∧
    OutKept (landed s b targets) (landPkt s b targets) ∧ (landed s b targets).cmd = s.cmd := by
  obtain ⟨fab, todo, mem, out⟩ := countLanded_leaves (landed s b targets) b
  have lands : LandsIn s (landed s b targets) := (landed_leaves s b targets _).1
  have todo' : toDo (landed s b targets) = toDo s := by rw [toDo, toDo, lands.fab, lands.hif, lands.coll]
  exact ⟨fab.trans lands.fab, todo.trans todo', mem, .of_eq out, lands.cmd⟩

/-! ## A WRITE or FWD_WRITE arrives -/

/-- One of the two kinds that land as they come. -/
def landsPlain (b : Bytes) : Prop := pkKind b = 0 ∨ pkKind b = 4

theorem sinkPlain_write (hk : landsPlain b) (good : orderOne b = true) (fi : Nat) (stalled : Bool) (src : Option (Nat × Nat × Nat)) :
    sinkPlain s fi b stalled src = sinkWrite s fi b stalled src := by
  obtain h | h := hk <;> simp [sinkPlain, good, h]

theorem landChecked_plain (hk : landsPlain b) (five : orderFive s b = true) (fi : Nat) (targets : List HostGrant)
    (src : Option (Nat × Nat × Nat)) :
    landChecked s fi b targets src = sendAck (landPkt s b targets) fi b (ackNode b) .ok src := by
  obtain h | h := hk <;> simp [landChecked, h, five]

/-- A packet that fails order 1 is counted. -/
theorem sinkPlain_bad (bad : orderOne b = false) (fi : Nat) (stalled : Bool) (src : Option (Nat × Nat × Nat)) :
    sinkPlain s fi b stalled src = freeSource { s with fab := { s.fab with crcDrops := satAdd s.fab.crcDrops 1 } } src := by
  simp [sinkPlain, bad]

/-- Freeing an input buffer counts nothing. -/
theorem counts_freeSource (s : State) (src : Option (Nat × Nat × Nat)) :
    (freeSource s src).fab = { s.fab with ports := (freeSource s src).fab.ports } := by
  cases src with
  | none => rfl
  | some x =>
    dsimp only [freeSource, sendIdle]
    split <;> rfl

theorem crcDrops_freeSource (s : State) (src : Option (Nat × Nat × Nat)) : (freeSource s src).fab.crcDrops = s.fab.crcDrops := by
  rw [counts_freeSource]

section Arrived
variable (hs : Sound s) (quiet : FabQuiet s) {p : FabPort} {kind : Nat} (a : Arrives s p b kind)
include hs quiet a

/-- What arrives leaves what its sink does, where that leaves nothing to be done. -/
theorem arrive_done (pcie : Option Bool) {r : State}
    (sink : sinkPlain (entered s p.toNat b) p.toNat b (pcie == some true) (bufferOf p.toNat b) = r)
    (done : (toDo r).2.2 = (toDo (entered s p.toNat b)).2.2) : arrive p b kind pcie s = r := by
  have still := still_entered ⟨quiet, hs.ports⟩ p.toNat b
  rw [arrive_here ⟨quiet.idle, hs.ports⟩ a, sink]
  exact settleFab_of_done ((FabDone.of_quiet still.quiet).of_due still.quiet.idle.held done)

/-- A packet that fails order 1 is discarded and counted. -/
theorem arrive_bad_pcrc (bad : orderOne b = false) (pcie : Option Bool) :
    (arrive p b kind pcie s).fab.crcDrops = satAdd s.fab.crcDrops 1 ∧ (arrive p b kind pcie s).mem = s.mem ∧
      (arrive p b kind pcie s).cmd = s.cmd := by
  have frees := sendsOnly_freeSource
    { entered s p.toNat b with fab := { (entered s p.toNat b).fab with crcDrops := satAdd (entered s p.toNat b).fab.crcDrops 1 } }
    (bufferOf p.toNat b)
  have goes := arrive_done hs quiet a pcie (sinkPlain_bad bad _ _ _) (congrArg (·.2.2) frees.toDo)
  rw [goes]
  refine ⟨?_, frees.mem.trans (entered_mem s p.toNat b), frees.cmd.trans (cmd_eq (t := entered s _ b) (entered_rest s _ b (by decide)))⟩
  rw [crcDrops_freeSource]
  have same : (entered s p.toNat b).fab.crcDrops = s.fab.crcDrops := by rw [entered_fab ⟨quiet.idle, hs.ports⟩]
  exact congrArg (satAdd · 1) same

section Plain
variable (hk : landsPlain b) (good : orderOne b = true)
include hk good

/-- One that orders 2 to 4 turn away leaves memory and the counters. -/
theorem arrive_turned_away (no : (ordersTwoFour s p.toNat b true).2 = false) (pcie : Option Bool) :
    (arrive p b kind pcie s).mem = s.mem ∧ (arrive p b kind pcie s).cmd = s.cmd := by
  have no' := (passes_entered ⟨quiet.idle, hs.ports⟩ p.toNat b p.toNat true).trans no
  obtain ⟨refused, -⟩ := refused_ordersTwoFour no'
  have frees := sendsOnly_freeSource (ordersTwoFour (entered s p.toNat b) p.toNat b true).1 (bufferOf p.toNat b)
  have goes := arrive_done hs quiet a pcie (r := freeSource (ordersTwoFour (entered s p.toNat b) p.toNat b true).1 (bufferOf p.toNat b))
    (by rw [sinkPlain_write hk good, sinkWrite, no']; rfl) (congrArg (·.2.2) (frees.toDo.trans refused.toDo))
  rw [goes]
  exact ⟨frees.mem.trans (refused.mem.trans (entered_mem s p.toNat b)),
    frees.cmd.trans (refused.cmd.trans (cmd_eq (t := entered s _ b) (entered_rest s _ b (by decide))))⟩

section Open
variable (yes : (ordersTwoFour s p.toNat b true).2 = true)
include yes

omit a in
/-- One that passes is posted, waits or lands. -/
theorem sink_open (stalled : Bool) : sinkPlain (entered s p.toNat b) p.toNat b stalled (bufferOf p.toNat b) =
    postOrLand (entered s p.toNat b) p.toNat b stalled (bufferOf p.toNat b) := by
  have yes' := (passes_entered ⟨quiet.idle, hs.ports⟩ p.toNat b p.toNat true).trans yes
  rw [sinkPlain_write hk good, sinkWrite, ordersTwoFour_passed yes']
  rfl

/-- While PCIe takes no post, one for a host window waits with its targets. -/
theorem arrive_posted (host : toHost b = true) :
    (arrive p b kind (some true) s).mem = s.mem ∧ posted s (arrive p b kind (some true) s) p b := by
  have still := still_entered ⟨quiet, hs.ports⟩ p.toNat b
  have waits : postOrLand (entered s p.toNat b) p.toNat b true (bufferOf p.toNat b) = { entered s p.toNat b with
      fab := { (entered s p.toNat b).fab with
        posts := (entered s p.toNat b).fab.posts ++ [{ id := (entered s p.toNat b).fab.nextId, at_ := (entered s p.toNat b).nowNs, fi := p.toNat, packet := b, targets := hostTargets (entered s p.toNat b) b, src := bufferOf p.toNat b }]
        nextId := (entered s p.toNat b).fab.nextId + 1 } } := by
    rw [postOrLand, host]
    rfl
  have goes := arrive_done hs quiet a (some true) ((sink_open hs quiet hk good yes true).trans waits) rfl
  rw [goes]
  refine ⟨entered_mem s p.toNat b, ⟨_, by rw [still.quiet.idle.posts]; rfl, nowNs_eq (t := entered s _ b) (entered_rest s _ b (by decide)),
    rfl, rfl, hostTargets_of_ground (ground_entered s p.toNat b) b⟩⟩

/-- One that PCIe takes, or that has nothing for it, lands, and its ACK leaves. -/
theorem arrive_lands (stalled : Bool) (takes : (toHost b && (stalled || !s.fab.posts.isEmpty)) = false) (five : orderFive s b = true)
    (far : pkAckReq b = true → localNode s (ackNode b) = false) :
    SendsOnly (landPkt (entered s p.toNat b) b (hostTargets s b)) (arrive p b kind (some stalled) s) := by
  have still := still_entered ⟨quiet, hs.ports⟩ p.toNat b
  obtain ⟨fab, todo, -⟩ := landPkt_leaves (entered s p.toNat b) b (hostTargets s b)
  have five' := (orderFive_of_ground (ground_entered s p.toNat b) b).trans five
  have sent := sendsOnly_sendAck (s := landPkt (entered s p.toNat b) b (hostTargets s b))
    (fun k => by rw [getFab, fab]; exact still.quiet.idle.queues k) p.toNat b (ackNode b) .ok
    (fun ack => by
      rw [localNode, fab]
      exact (localNode_of_sends (entered_sends s p.toNat b) (ackNode b)).trans (far ack)) (bufferOf p.toNat b)
  have lands : postOrLand (entered s p.toNat b) p.toNat b stalled (bufferOf p.toNat b) =
      sendAck (landPkt (entered s p.toNat b) b (hostTargets s b)) p.toNat b (ackNode b) .ok (bufferOf p.toNat b) := by
    have now : (toHost b && (stalled || !(entered s p.toNat b).fab.posts.isEmpty)) = false := by
      rw [still.quiet.idle.posts, ← quiet.idle.posts]
      exact takes
    rw [postOrLand, now, if_neg Bool.false_ne_true, landChecked_plain hk five', hostTargets_of_ground (ground_entered s p.toNat b)]
  have same : (some stalled == some true) = stalled := by cases stalled <;> rfl
  have goes := arrive_done hs quiet a (some stalled) (by rw [same]; exact (sink_open hs quiet hk good yes stalled).trans lands)
    (congrArg (·.2.2) (sent.toDo.trans todo))
  rw [goes]
  exact sent

end Open
end Plain
end Arrived

/-! ## What waits for PCIe too long (R424) -/

theorem execHostSinkTimeout_post {id : Nat} {h : HostPost} (found : s.fab.posts.find? (fun x => x.id == id) = some h) :
    exec (.hostSinkTimeout id) s = .next (if h.at_ + 50000 ≤ s.nowNs then
      settleFab (dropPost { s with fab := { s.fab with posts := s.fab.posts.filter (·.id != id) } } h) else s) := by
  show execHostSinkTimeout id s = _
  rw [execHostSinkTimeout, found]
  exact (apply_ite Host.Outcome.next _ _ _).symm

theorem execHostSinkTimeout_fetch {id : Nat} {f : HostFetch} (none : s.fab.posts = [])
    (found : s.fab.fetches.find? (fun x => x.id == id) = some f) :
    exec (.hostSinkTimeout id) s = .next (if f.at_ + 50000 ≤ s.nowNs then settleFab (answerFetch s f) else s) := by
  show execHostSinkTimeout id s = _
  rw [execHostSinkTimeout, none, List.find?_nil, found]
  exact (apply_ite Host.Outcome.next _ _ _).symm

theorem execHostSinkTimeout_early {id : Nat} {e : EarlyPkt} (empty : s.fab.posts = [])
    (noFetch : s.fab.fetches.find? (fun x => x.id == id) = none)
    (found : s.coll.early.find? (fun x => x.id == id) = some e) :
    exec (.hostSinkTimeout id) s = .next (if e.at_ + 50000 ≤ s.nowNs ∧ e.targets ≠ [] then settleFab (dropEarly s e) else s) := by
  show execHostSinkTimeout id s = _
  rw [execHostSinkTimeout, empty, List.find?_nil, noFetch, found]
  exact (apply_ite Host.Outcome.next _ _ _).symm

/-- An IDLE flit is no packet's (R419). -/
theorem linkPart_idle (x : FabPortState) : pkFtype (linkPart x 0 0 false (zeroBytes 64)) = 0 := by
  have first : le (linkPart x 0 0 false (zeroBytes 64)) 0 1 = 0 := by simp [le, linkPart, leNat, b2n]
  rw [pkFtype, first]
  rfl

/-- A freed input buffer gives its credits back, with an IDLE flit at most. -/
theorem freeSource_out {o : Output} {src : Option (Nat × Nat × Nat)} (h : o ∈ (freeSource s src).out) :
    o ∈ s.out ∨ ∃ q f, o = .packet q f ∧ pkFtype f = 0 := by
  cases src with
  | none => exact .inl h
  | some x =>
    dsimp only [freeSource, sendIdle] at h
    split at h
    · rcases List.mem_append.mp h with h | h
      · exact .inl h
      · exact .inr ⟨_, _, List.mem_singleton.mp h, linkPart_idle _⟩
    · exact .inl h

/-- A state rid of the packet that PCIe has not taken, which is counted. -/
def withoutPost (s : State) (id : Nat) : State :=
  { s with fab := { s.fab with posts := s.fab.posts.filter (·.id != id), hostDrops := satAdd s.fab.hostDrops 1 } }

section Late
variable (quiet : FabQuiet { s with fab := { s.fab with posts := [] } })
include quiet

/-- What leaves the ops, their tags and the collectives as they are leaves nothing to be done. -/
theorem settleFab_of_waits (e : (toDo t).2.2 = (toDo s).2.2) : settleFab t = t :=
  settleFab_of_done ((FabDone.of_quiet quiet).of_due quiet.idle.held e)

/-- A packet that PCIe has not taken in time is discarded, counted, and gets no ACK. -/
theorem post_dropped {id : Nat} {h : HostPost} (found : s.fab.posts.find? (fun x => x.id == id) = some h)
    (late : h.at_ + 50000 ≤ s.nowNs) : Gives (.hostSinkTimeout id) s fun t =>
      t.fab.posts = s.fab.posts.filter (fun x => x.id != id) ∧ t.fab.hostDrops = satAdd s.fab.hostDrops 1 ∧
      t.mem = s.mem ∧ ∀ x ∈ t.out, x ∈ s.out ∨ ∃ q f, x = .packet q f ∧ pkFtype f = 0 := by
  have done := settleFab_of_waits quiet (congrArg (·.2.2) (toDo_freeSource (withoutPost s id) h.src))
  refine ⟨_, execHostSinkTimeout_post found, ?_⟩
  rw [if_pos late, show dropPost _ h = freeSource (withoutPost s id) h.src from rfl, done]
  exact ⟨by rw [counts_freeSource]; rfl, by rw [counts_freeSource]; rfl, freeSource_mem _ h.src, fun x hx => freeSource_out (s := withoutPost s id) hx⟩

/-- A collective packet that its collective has not taken in time is discarded and counted. -/
theorem early_dropped {id : Nat} {e : EarlyPkt} (empty : s.fab.posts = [])
    (noFetch : s.fab.fetches.find? (fun x => x.id == id) = none) (found : s.coll.early.find? (fun x => x.id == id) = some e)
    (late : e.at_ + 50000 ≤ s.nowNs) (host : e.targets ≠ []) : Gives (.hostSinkTimeout id) s fun t =>
      t.coll.early = s.coll.early.filter (fun x => x.id != id) ∧ t.fab.hostDrops = satAdd s.fab.hostDrops 1 ∧
      t.mem = s.mem ∧ t.out = s.out := by
  have same : e.id = id := by simpa using List.find?_some found
  refine ⟨_, execHostSinkTimeout_early empty noFetch found, ?_⟩
  rw [if_pos ⟨late, host⟩, settleFab_of_waits (t := dropEarly s e) quiet rfl, dropEarly, same]
  exact ⟨rfl, rfl, rfl, rfl⟩

end Late

/-- A reply to another node goes out, or is lost on its way. -/
theorem sendsOnly_sendReply (empty : ∀ k, (getFab s k).queue = []) (fi : Nat) (b payload : Bytes) (mask : Nat)
    (far : localNode s (gNode (le b 42 8)) = false) (src : Option (Nat × Nat × Nat)) :
    SendsOnly s (sendReply s fi b payload mask src) := by
  unfold sendReply
  dsimp only
  split
  · exact sendsOnly_injectPlain empty fi _ far payload none src
  · exact sendsOnly_injectPlain empty fi _ far payload none src

theorem touches_fab (s : State) (a c : Nat) : (touch (touch s a) c).fab = s.fab := fab_eq (by simp)

theorem touches_sendsOnly (s : State) (a c : Nat) : SendsOnly s (touch (touch s a) c) :=
  ⟨by rw [toDo, toDo, touches_fab, hif_eq (t := touch _ _) (s := s) (by simp), coll_eq (t := touch _ _) (s := s) (by simp)],
    mem_eq (by simp), cmd_eq (by simp), .of_eq (out_eq (by simp))⟩

theorem sendsOnly_replyFrom (empty : ∀ k, (getFab s k).queue = []) (m : Mem) (fi : Nat) (b : Bytes) (lost : List Nat)
    (far : localNode s (gNode (le b 42 8)) = false) (src : Option (Nat × Nat × Nat)) :
    SendsOnly s (replyFrom s m fi b lost src) :=
  (touches_sendsOnly s _ _).trans (sendsOnly_sendReply (fun k => by rw [getFab, touches_fab]; exact empty k) fi b _ _
    (by rw [localNode, touches_fab]; exact far) src)

/-- A read that PCIe has not answered in time is answered. -/
theorem fetch_answered (quiet : FabQuiet { s with fab := { s.fab with posts := [] } }) {id : Nat} {f : HostFetch}
    (none : s.fab.posts = []) (found : s.fab.fetches.find? (fun x => x.id == id) = some f) (late : f.at_ + 50000 ≤ s.nowNs)
    (far : localNode s (gNode (le f.packet 42 8)) = false) : Gives (.hostSinkTimeout id) s fun t =>
      t.fab.fetches = s.fab.fetches.filter (fun x => x.id != f.id) ∧ t.mem = s.mem := by
  have sent := sendsOnly_replyFrom (s := { s with fab := { s.fab with fetches := s.fab.fetches.filter (·.id != f.id) } })
    quiet.idle.queues (withLines s.mem f.lines) f.fi f.packet
    (f.waits ++ (f.lines.filter (fun l => l.data.isNone)).map (·.addr)) far f.src
  have done := settleFab_of_waits (t := answerFetch s f) quiet (congrArg (·.2.2) sent.toDo)
  refine ⟨_, execHostSinkTimeout_fetch none found, ?_⟩
  rw [if_pos late, done]
  exact ⟨congrArg (·.2.1) sent.toDo, sent.mem⟩

/-! ## O51 -/

/-- The counters of a packet that lands. -/
theorem arrive_counters (hs : Sound s) (b : Bytes) (targets : List HostGrant) :
    counter (landPkt (entered s n b) b targets) (pkRctr b) = (if pkRctrEn b then counter s (pkRctr b) + 1 else counter s (pkRctr b)) ∧
      ∀ k, k ≠ pkRctr b → counter (landPkt (entered s n b) b targets) k = counter s k := by
  have cmd : (landed (entered s n b) b targets).cmd = s.cmd :=
    (landPkt_leaves (entered s n b) b targets).2.2.2.2.trans (cmd_eq (t := entered s n b) (entered_rest s n b (by decide)))
  have moved := countLanded_counter (s := landed (entered s n b) b targets) (by rw [cmd]; exact hs.counters) b
  simp only [counter, cmd] at moved
  exact moved

theorem toHost_of_all (h : ∀ l ∈ linesOf (pkAddr b) (pkPlen b), region l = .host) (s : State) : orderFive s b = true := by
  simp only [orderFive, List.all_eq_true, Bool.or_eq_true, beq_iff_eq]
  exact fun l hl => .inl (h l hl)

/-- What becomes of a WRITE or FWD_WRITE. -/
theorem plain_lands (hs : Sound s) (quiet : FabQuiet s) {p : FabPort} {kind : Nat} (c : Bool → Instr)
    (run : ∀ stalled, exec (c stalled) s = .next (arrive p b kind (some stalled) s)) (hk : kind = 0 ∨ kind = 4)
    (a : Arrives s p b kind) (stalled : Bool) :
    let open_ := orderOne b = true ∧ (ordersTwoFour s p.toNat b true).2 = true
    (open_ → orderFive s b = true → toHost b = false → (pkAckReq b = true → localNode s (ackNode b) = false) →
      Gives (c stalled) s fun t =>
        memRead t.mem (pkAddr b) (pkPlen b) = pkPayload b ∧ SameMem s t [(pkAddr b, pkPlen b)] ∧
        counter t (pkRctr b) = (if pkRctrEn b then counter s (pkRctr b) + 1 else counter s (pkRctr b)) ∧
        ∀ k, k ≠ pkRctr b → counter t k = counter s k) ∧
    (orderOne b = true → (ordersTwoFour s p.toNat b true).2 = false → Gives (c stalled) s fun t =>
      t.mem = s.mem ∧ t.cmd.counters = s.cmd.counters) ∧
    (orderOne b = false → Gives (c stalled) s fun t => t.fab.crcDrops = satAdd s.fab.crcDrops 1 ∧ t.mem = s.mem ∧
      t.cmd.counters = s.cmd.counters) ∧
    (open_ → toHost b = true → Gives (c true) s fun t => t.mem = s.mem ∧ posted s t p b) ∧
    (open_ → (∀ l ∈ linesOf (pkAddr b) (pkPlen b), region l = .host) →
      (pkAckReq b = true → localNode s (ackNode b) = false) → Gives (c false) s fun t => t.mem = s.mem ∧
        ∀ z ∈ hostTargets s b, let part := linePart (pkAddr b) (pkPayload b) z.1
          .hostWrite z.2.1 (z.2.2 + (part.1 - z.1)) part.2
            (flitPoison (pkPoison b) (part.1 - pkAddr b) part.2.length) ∈ t.out) := by
  have plain : landsPlain b := by rw [landsPlain, a.isKind]; exact hk
  have carried : pkKind b ≠ 1 := by rw [a.isKind]; omega
  have wf : Memory.wf (entered s p.toNat b).mem = true := by rw [entered_mem]; exact hs.mem
  refine ⟨?_, ?_, ?_, ?_, ?_⟩
  · rintro ⟨good, yes⟩ five near far
    have lands := arrive_lands hs quiet a plain good yes stalled (by rw [near]; rfl) five far
    obtain ⟨-, -, mem, -, -⟩ := landPkt_leaves (entered s p.toNat b) b (hostTargets s b)
    obtain ⟨bytes, others⟩ := landed_mem (s := entered s p.toNat b) wf good carried near (hostTargets s b)
    obtain ⟨moved, stay⟩ := arrive_counters (n := p.toNat) hs b (hostTargets s b)
    refine ⟨_, run stalled, by rw [lands.mem, mem]; exact bytes, fun x hx => ?_, ?_, fun k hk => ?_⟩
    · rw [lands.mem, mem, others x hx, entered_mem]
    · rw [counter, lands.cmd]
      exact moved
    · rw [counter, lands.cmd]
      exact stay k hk
  · intro good no
    obtain ⟨mem, cmd⟩ := arrive_turned_away hs quiet a plain good no (some stalled)
    exact ⟨_, run stalled, mem, by rw [cmd]⟩
  · intro bad
    obtain ⟨drops, mem, cmd⟩ := arrive_bad_pcrc hs quiet a bad (some stalled)
    exact ⟨_, run stalled, drops, mem, by rw [cmd]⟩
  · rintro ⟨good, yes⟩ host
    exact ⟨_, run true, arrive_posted hs quiet a plain good yes host⟩
  · rintro ⟨good, yes⟩ host far
    have lands := arrive_lands hs quiet a plain good yes false (by rw [quiet.idle.posts]; simp) (toHost_of_all host s) far
    obtain ⟨-, -, mem, out, -⟩ := landPkt_leaves (entered s p.toNat b) b (hostTargets s b)
    refine ⟨_, run false, ?_, fun z hz => lands.out.out _ (out.out _ (landed_host_out hz))⟩
    rw [lands.mem, mem, landed_host_mem host, entered_mem]

/-- Settles O51: what enters the input buffer leaves nothing else to be done, so that the packet's sink is the whole step. -/
theorem packetsLand : Obligations.PacketsLand := by
  unfold Obligations.PacketsLand
  refine ⟨?_, fun s id quiet => ⟨?_, ?_, ?_⟩⟩
  · intro p s b stalled hs quiet kc hkc a
    rcases List.mem_pair.mp hkc with rfl | rfl
    · exact plain_lands hs quiet (fun stalled => .write p b stalled) (fun _ => rfl) (.inl rfl) a stalled
    · exact plain_lands hs quiet (fun stalled => .fwdWrite p ⟨b, stalled⟩) (fun _ => rfl) (.inr rfl) a stalled
  · intro h found
    refine ⟨post_dropped quiet found, fun early => ⟨_, execHostSinkTimeout_post found, ?_⟩⟩
    rw [if_neg (by omega)]
  · intro f none found
    refine ⟨fetch_answered quiet none found, fun early => ⟨_, execHostSinkTimeout_fetch none found, ?_⟩⟩
    rw [if_neg (by omega)]
  · intro e empty noFetch found
    refine ⟨early_dropped quiet empty noFetch found, fun early => ⟨_, execHostSinkTimeout_early empty noFetch found, ?_⟩⟩
    rw [if_neg]
    rintro ⟨late, host⟩
    rcases early with early | early
    · omega
    · exact host early

end Sys2Proof.Laws
end

section
/-! PROOFS. Ops of the fabric end, and tags are resolved. -/

namespace Sys2Proof.Laws

open Sys2Proof Sys2Proof.Machine
set_option Elab.async false

variable {s t u : State} {p q n : Nat} {b : Bytes}

/-! ## Writes and reports leave the fabric -/

/-- The fabric, the collectives, the WINDOW_SET that waits and the command processor's reads are as they were. -/
structure FabAside (s t : State) : Prop where
  fab : t.fab = s.fab
  coll : t.coll = s.coll
  windowSet : t.hif.wtWait = s.hif.wtWait
  peer : t.cmd.peerData = s.cmd.peerData

theorem FabAside.refl (s : State) : FabAside s s := ⟨rfl, rfl, rfl, rfl⟩

theorem FabAside.trans (h : FabAside s t) (k : FabAside t u) : FabAside s u :=
  ⟨k.fab.trans h.fab, k.coll.trans h.coll, k.windowSet.trans h.windowSet, k.peer.trans h.peer⟩

theorem FabAside.foldl {α : Type} {f : State → α → State} (h : ∀ s x, FabAside s (f s x)) (l : List α) (s : State) :
    FabAside s (l.foldl f s) :=
  List.foldlRecOn (motive := fun x => FabAside s x) l f (.refl s) fun x hx y _ => hx.trans (h x y)

theorem fabAside_raiseEvent (s : State) (st : Status) (i j : Nat) (d : Bytes) : FabAside s (raiseEvent s st i j d) :=
  ⟨raiseEvent_fab .., coll_eq (by simp), (raiseEvent_reported ..).wtWait, congrArg CmdState.peerData (cmd_eq (by simp))⟩

theorem fabAside_denyLine (s : State) (i : Nat) (w : Bool) (a : Nat) : FabAside s (denyLine s i w a) :=
  ⟨denyLine_fab .., coll_eq (by simp), (denyLine_reported ..).wtWait, congrArg CmdState.peerData (cmd_eq (by simp))⟩

theorem fabAside_touch (s : State) (a : Nat) : FabAside s (touch s a) :=
  ⟨fab_eq (by simp), coll_eq (by simp), congrArg HifState.wtWait (hif_eq (by simp)), congrArg CmdState.peerData (cmd_eq (by simp))⟩

theorem fabAside_writeLine (init : Nat) (r : Reach) (a : Nat) (bs : Bytes) (poison : Nat → Bool) (x : State × Option Status) (l : Nat) :
    FabAside x.1 (writeLine init r a bs poison x l).1 := by
  simp only [writeLine]
  split
  · split
    · exact fabAside_denyLine ..
    · exact ⟨rfl, rfl, rfl, rfl⟩
  · split
    · have stored : FabAside x.1 (setMem x.1 (memWrite x.1.mem (linePart a bs l).1 (linePart a bs l).2 (poison l))) := ⟨rfl, rfl, rfl, rfl⟩
      exact stored.trans (fabAside_touch ..)
    · exact .refl x.1

theorem fabAside_fiWrite (s : State) (a : Nat) (bs : Bytes) (poison : Bool) : FabAside s (fiWrite s a bs poison) :=
  List.foldlRecOn (motive := fun x : State × Option Status => FabAside s x.1) (linesOf a bs.length) _ (.refl s)
    fun x hx l _ => hx.trans (fabAside_writeLine _ _ _ _ _ x l)

theorem fabAside_fiPoison (s : State) (a k : Nat) : FabAside s (fiPoison s a k) := FabAside.foldl (fun _ _ => fabAside_fiWrite ..) _ s

theorem fabAside_poisonRows (s : State) (a len rows pitch : Nat) : FabAside s (poisonRows s a len rows pitch) :=
  FabAside.foldl (fun x i => by
    split
    · exact ⟨rfl, rfl, rfl, rfl⟩
    · exact .refl x) _ s

/-! ## Ops of the fabric end (R434) -/

/-- What the end of ops leaves of the fabric: all but the ops that end and the count of timeouts. -/
structure OpsEnded (s t : State) : Prop where
  ports : t.fab.ports = s.fab.ports
  tags : t.fab.tags = s.fab.tags
  loop : t.fab.loop = s.fab.loop
  held : t.fab.held = s.fab.held
  ops : ∀ o ∈ t.fab.ops, o ∈ s.fab.ops
  windowSet : t.hif.wtWait = s.hif.wtWait
  fired : s.coll.firedOps = [] → t.coll.firedOps = []
  colls : t.coll.colls = s.coll.colls
  peer : t.cmd.peerData = s.cmd.peerData

theorem OpsEnded.refl (s : State) : OpsEnded s s := ⟨rfl, rfl, rfl, rfl, fun _ h => h, rfl, id, rfl, rfl⟩

theorem OpsEnded.trans (h : OpsEnded s t) (k : OpsEnded t u) : OpsEnded s u :=
  ⟨k.ports.trans h.ports, k.tags.trans h.tags, k.loop.trans h.loop, k.held.trans h.held, fun o ho => h.ops o (k.ops o ho),
    k.windowSet.trans h.windowSet, fun e => k.fired (h.fired e), k.colls.trans h.colls, k.peer.trans h.peer⟩

theorem FabAside.opsEnded (h : FabAside s t) : OpsEnded s t :=
  ⟨by rw [h.fab], by rw [h.fab], by rw [h.fab], by rw [h.fab], by rw [h.fab]; exact fun _ ho => ho, h.windowSet,
    by rw [h.coll]; exact id, by rw [h.coll], h.peer⟩

/-- A state rid of an owner's ops. -/
def withoutOps (s : State) (w : FabOwner) : State :=
  { s with fab := { s.fab with ops := s.fab.ops.filter (fun x => x.owner != w) } }

theorem opsEnded_withoutOps (s : State) (w : FabOwner) : OpsEnded s (withoutOps s w) :=
  ⟨rfl, rfl, rfl, rfl, fun _ h => (List.mem_filter.mp h).1, rfl, id, rfl, rfl⟩

/-- What a state counts of timeouts. -/
def withTimeouts (s : State) (k : Nat) : State := { s with fab := { s.fab with timeouts := satAdd s.fab.timeouts k } }

theorem opsEnded_withTimeouts (s : State) (k : Nat) : OpsEnded s (withTimeouts s k) :=
  ⟨rfl, rfl, rfl, rfl, fun _ h => h, rfl, id, rfl, rfl⟩

theorem opsEnded_ownerEnd (s : State) (w : OpOwner) (st : Status) : OpsEnded s (ownerEnd s w st) := by
  cases w with
  | io => exact ⟨rfl, rfl, rfl, rfl, fun _ h => h, rfl, id, rfl, rfl⟩
  | fired => exact ⟨rfl, rfl, rfl, rfl, fun _ h => h, rfl, fun e => by simp [ownerEnd, e], rfl, rfl⟩

/-- The destination rows of a copy whose packets failed are poisoned, where they lie here. -/
def poisonFailed (s : State) (o : FabOp) (x : State) : State :=
  let p := dmaParm o.desc
  let cuts := dmaCuts p
  if localNode s (gNode p.src) || !(localNode s (gNode p.dst)) then x else
    o.failed.foldl (fun x f =>
      let c := cuts.getD f.1 (0, 0, 0)
      poisonRows x (gLocal p.dst + c.1 * p.dstPitch + c.2.1) c.2.2 1 0) x

theorem fabAside_poisonFailed (s : State) (o : FabOp) (x : State) : FabAside x (poisonFailed s o x) := by
  unfold poisonFailed
  dsimp only
  split
  · exact .refl x
  · exact FabAside.foldl (fun _ _ => fabAside_poisonRows ..) _ x

/-- A copy that ends POISONED is reported. -/
def reportFailed (o : FabOp) (n : Nat) (x : State) : State :=
  let p := dmaParm o.desc
  match o.badParts, o.failed with
  | [], f :: _ =>
    let c := (dmaCuts p).getD f.1 (0, 0, 0)
    if f.2 = .poisoned then dmaEvent x n (gLocal p.src + c.1 * p.srcPitch + c.2.1) else x
  | _, _ => x

theorem fabAside_reportFailed (o : FabOp) (n : Nat) (x : State) : FabAside x (reportFailed o n x) := by
  unfold reportFailed
  dsimp only
  split
  · split
    · exact fabAside_raiseEvent ..
    · exact .refl x
  · exact .refl x

/-- The copy that a core's cluster DMA carries has ended with a status. -/
def endCopy (n : Nat) (st : Status) (x : State) : State :=
  let c := getCore x n
  setCore x n { c with dma := c.dma.map (fun r => { r with status := if r.status = .ok then st else r.status, finished := true }) }

theorem finishFab_dma {o : FabOp} {n : Nat} (h : o.owner = .dma n) : ∃ late st, finishFab s o =
    endCopy n st (reportFailed o n (withTimeouts (poisonFailed s o (withoutOps s o.owner)) late)) := by
  rw [finishFab, h]
  exact ⟨_, _, rfl⟩

/-- The parts of a GET that failed are poisoned. -/
def poisonParts (o : FabOp) (x : State) : State :=
  if byteAt o.desc 0 == 0x41 && !(fbVia o.desc) then
    (failedParts o).foldl (fun x b =>
      let p := (fabParts (fbLen o.desc)).getD b.1 (0, 0, 0)
      fiPoison x (fbLocal o.desc + p.2.1) p.2.2) x
  else x

theorem fabAside_poisonParts (o : FabOp) (x : State) : FabAside x (poisonParts o x) := by
  unfold poisonParts
  split
  · exact FabAside.foldl (fun _ _ => fabAside_fiPoison ..) _ x
  · exact .refl x

/-- The list that an op is of has its end. -/
def endOwner (o : FabOp) (st : Status) (x : State) : State :=
  match opOwner o.owner with
  | some w => ownerEnd x w st
  | none => x

theorem opsEnded_endOwner (o : FabOp) (st : Status) (x : State) : OpsEnded x (endOwner o st x) := by
  unfold endOwner
  split
  · exact opsEnded_ownerEnd ..
  · exact .refl x

theorem finishFab_other {o : FabOp} (h : ∀ n, o.owner ≠ .dma n) : ∃ late word st, finishFab s o =
    endOwner o st (fiWrite (withTimeouts (poisonParts o (withoutOps s o.owner)) late) (fbResult o.desc) word false) := by
  unfold finishFab
  split
  next n hn => exact absurd hn (h n)
  next => exact ⟨_, _, _, rfl⟩

/-- An op that ends leaves the fabric to the others. -/
theorem opsEnded_finishFab (s : State) (o : FabOp) : OpsEnded (withoutOps s o.owner) (finishFab s o) := by
  by_cases h : ∃ n, o.owner = .dma n
  · obtain ⟨n, h⟩ := h
    obtain ⟨late, st, e⟩ := finishFab_dma (s := s) h
    have copied : OpsEnded (reportFailed o n (withTimeouts (poisonFailed s o (withoutOps s o.owner)) late))
        (endCopy n st (reportFailed o n (withTimeouts (poisonFailed s o (withoutOps s o.owner)) late))) :=
      ⟨rfl, rfl, rfl, rfl, fun _ h => h, rfl, id, rfl, rfl⟩
    rw [e]
    exact (fabAside_poisonFailed s o _).opsEnded.trans ((opsEnded_withTimeouts _ late).trans
      ((fabAside_reportFailed o n _).opsEnded.trans copied))
  · obtain ⟨late, word, st, e⟩ := finishFab_other (s := s) (o := o) fun n hn => h ⟨n, hn⟩
    rw [e]
    exact (fabAside_poisonParts o _).opsEnded.trans ((opsEnded_withTimeouts _ late).trans
      ((fabAside_fiWrite _ _ word false).opsEnded.trans (opsEnded_endOwner o st _)))

/-- None of its owner's ops is left. -/
theorem finishFab_ops {o x : FabOp} (hx : x ∈ (finishFab s o).fab.ops) : x.owner ≠ o.owner := by
  have left := (opsEnded_finishFab s o).ops x hx
  simpa using (List.mem_filter.mp left).2

/-- Ending the ops of which nothing is out leaves none of an owner that waits for nothing. -/
theorem settleOps_ends (os : List FabOp) (s : State) :
    let t := os.foldl (fun x o => if fabBusy x o.owner then x else finishFab x o) s
    OpsEnded s t ∧ ∀ o ∈ os, fabBusy s o.owner = false → ∀ x ∈ t.fab.ops, x.owner ≠ o.owner := by
  induction os generalizing s with
  | nil => exact ⟨.refl s, fun o ho => absurd ho (by simp)⟩
  | cons o os ih =>
    have one : OpsEnded s (if fabBusy s o.owner then s else finishFab s o) := by
      split
      · exact .refl s
      · exact (opsEnded_withoutOps s o.owner).trans (opsEnded_finishFab s o)
    obtain ⟨rest, none⟩ := ih (if fabBusy s o.owner then s else finishFab s o)
    have busy (w : FabOwner) : fabBusy (if fabBusy s o.owner then s else finishFab s o) w = fabBusy s w := by
      rw [fabBusy, one.ports, one.tags, one.loop, ← fabBusy]
    refine ⟨one.trans rest, fun a ha idle x hx => ?_⟩
    rcases List.mem_cons.mp ha with rfl | ha
    · have left := rest.ops x hx
      rw [idle, if_neg Bool.false_ne_true] at left
      exact finishFab_ops left
    · exact none a ha (by rw [busy]; exact idle) x hx

/-- Where no packet waits, settling ends ops and does nothing else. -/
theorem settleFab_ends (hloop : s.fab.loop = []) (hheld : s.fab.held = []) (hset : s.hif.wtWait = none)
    (hfired : s.coll.firedOps = []) (hcolls : ∀ c ∈ s.coll.colls, c.closed = false) :
    settleFab s = settleOps s ∧ OpsEnded s (settleFab s) := by
  have ends : OpsEnded s (settleOps s) := (settleOps_ends _ s).1
  have only : settleFab s = settleOps s := by
    rw [settleFab, moveOn_of_empty _ hloop hheld]
    exact settleTurns_of_quiet (ends.windowSet.trans hset) (ends.fired hfired) (by rw [ends.colls]; exact hcolls) _
  exact ⟨only, only ▸ ends⟩

/-! ## Tags are resolved (R434, R435) -/

/-- A resolved tag is outstanding no more. -/
theorem resolveTag_tags (s : State) (g : FabTag) (st : Status) :
    (resolveTag s g st).fab.tags = s.fab.tags.filter (fun x => !(x.fi == g.fi && x.tag == g.tag)) := by
  unfold resolveTag
  dsimp only
  split <;> rfl

theorem not_hasTag_of_filter {g : FabTag} (h : t.fab.tags = s.fab.tags.filter (fun x => !(x.fi == g.fi && x.tag == g.tag))) :
    ¬hasTag t g := by
  rintro ⟨x, hx, fi, tag⟩
  rw [h] at hx
  simpa [fi, tag] using (List.mem_filter.mp hx).2

/-- What resolving a tag leaves of an op. -/
def noteFailed (g : FabTag) (st : Status) (o : FabOp) : FabOp :=
  if st ≠ .ok ∧ o.owner = g.owner then { o with failed := o.failed ++ [(g.part, st)] } else o

theorem resolveTag_ops (s : State) (g : FabTag) (st : Status) : (resolveTag s g st).fab.ops = s.fab.ops.map (noteFailed g st) := by
  unfold resolveTag
  dsimp only
  split
  next ok =>
    have none : noteFailed g .ok = id := funext fun o => by simp [noteFailed]
    rw [ok, none, List.map_id]
    rfl
  next bad => simp [noteFailed, bad, noteTag, failPacket]

@[simp] theorem noteFailed_owner (g : FabTag) (st : Status) (o : FabOp) : (noteFailed g st o).owner = o.owner := by
  unfold noteFailed
  split <;> rfl

@[simp] theorem noteFailed_desc (g : FabTag) (st : Status) (o : FabOp) : (noteFailed g st o).desc = o.desc := by
  unfold noteFailed
  split <;> rfl

/-- What it leaves of the state. -/
theorem resolveTag_leaves (s : State) (g : FabTag) (st : Status) : (resolveTag s g st).mem = s.mem ∧ (resolveTag s g st).cmd = s.cmd ∧
    (resolveTag s g st).coll = s.coll ∧ (resolveTag s g st).hif = s.hif ∧ (resolveTag s g st).fab.ports = s.fab.ports ∧
    (resolveTag s g st).fab.loop = s.fab.loop ∧ (resolveTag s g st).fab.held = s.fab.held := by
  unfold resolveTag
  dsimp only
  split <;> exact ⟨rfl, rfl, rfl, rfl, rfl, rfl, rfl⟩

end Sys2Proof.Laws
end

section
/-! PROOFS. Reads are answered and tags resolved (O52). -/

namespace Sys2Proof.Laws

open Sys2Proof Sys2Proof.Machine
set_option Elab.async false

variable {s t u : State} {p q n : Nat} {b : Bytes}

/-! ## A reply at its requester (R434, R435) -/

/-- READ_DATA or ACK. -/
def isReply (b : Bytes) : Prop := pkKind b = 2 ∨ pkKind b = 3

theorem sinkPlain_data (good : orderOne b = true) (hk : pkKind b = 2) (fi : Nat) (stalled : Bool) (src : Option (Nat × Nat × Nat)) :
    sinkPlain s fi b stalled src = sinkData s fi b stalled src := by
  simp [sinkPlain, good, hk]

theorem sinkPlain_ack (good : orderOne b = true) (hk : pkKind b = 3) (fi : Nat) (stalled : Bool) (src : Option (Nat × Nat × Nat)) :
    sinkPlain s fi b stalled src = sinkAck s fi b src := by
  simp [sinkPlain, good, hk]

/-- The command processor keeps what its read has brought. -/
def keepData (s : State) (q : Nat) (d : Bool) (b : Bytes) : State :=
  { s with cmd := { s.cmd with peerData := s.cmd.peerData ++ [{ queue := q, desc := d, data := pkPayload b, poison := pkPoison b }] } }

theorem sinkData_cmd {fi q : Nat} {d : Bool} {g : FabTag} (yes : (ordersTwoFour s fi b true).2 = true)
    (found : findTag s fi (pkTag b) = some g) (own : g.owner = .cmd q d) (stalled : Bool) (src : Option (Nat × Nat × Nat)) :
    sinkData s fi b stalled src = freeSource (resolveTag (keepData s q d b) g .ok) src := by
  rw [sinkData, ordersTwoFour_passed yes, found]
  dsimp only
  rw [own]
  rfl

theorem sinkData_op {fi : Nat} {g : FabTag} (yes : (ordersTwoFour s fi b true).2 = true)
    (found : findTag s fi (pkTag b) = some g) (own : ∀ q d, g.owner ≠ .cmd q d) (five : orderFive s b = true) (near : toHost b = false)
    (stalled : Bool) (src : Option (Nat × Nat × Nat)) :
    sinkData s fi b stalled src = landChecked s fi b (hostTargets s b) src := by
  have goes : sinkData s fi b stalled src = if orderFive s b then postOrLand s fi b stalled src else freeSource (resolveTag s g .addrError) src := by
    rw [sinkData, ordersTwoFour_passed yes, found]
    dsimp only
    generalize g.owner = w at own
    cases w with
    | cmd q d => exact absurd rfl (own q d)
    | _ => rfl
  rw [goes, five, if_pos rfl, postOrLand, near, Bool.false_and, if_neg Bool.false_ne_true]

/-- A reply that orders 2 to 4 turn away frees its buffer. -/
theorem sinkPlain_reply_refused (good : orderOne b = true) (hk : isReply b) {fi : Nat} (no : (ordersTwoFour s fi b true).2 = false)
    (stalled : Bool) (src : Option (Nat × Nat × Nat)) :
    sinkPlain s fi b stalled src = freeSource (ordersTwoFour s fi b true).1 src := by
  rcases hk with hk | hk
  · rw [sinkPlain_data good hk, sinkData, no]
    rfl
  · rw [sinkPlain_ack good hk, sinkAck, no]
    rfl

/-- A reply without an outstanding tag is counted. -/
theorem sinkPlain_reply_untagged (good : orderOne b = true) (hk : isReply b) {fi : Nat} (yes : (ordersTwoFour s fi b true).2 = true)
    (untagged : findTag s fi (pkTag b) = none) (stalled : Bool) (src : Option (Nat × Nat × Nat)) :
    sinkPlain s fi b stalled src =
      freeSource { s with fab := { s.fab with lateReplies := satAdd s.fab.lateReplies 1 } } src := by
  rcases hk with hk | hk
  · rw [sinkPlain_data good hk, sinkData, ordersTwoFour_passed yes, untagged]
    rfl
  · rw [sinkPlain_ack good hk, sinkAck, ordersTwoFour_passed yes, untagged]
    rfl

theorem findTag_entered (h : FabStill s) (n : Nat) (b : Bytes) (fi tag : Nat) : findTag (entered s n b) fi tag = findTag s fi tag := by
  rw [findTag, findTag, entered_fab h.empty]

theorem mem_of_findTag {fi tag : Nat} {g : FabTag} (h : findTag s fi tag = some g) : g ∈ s.fab.tags := by
  rw [findTag] at h
  cases own : s.fab.tags.find? (fun t => t.fi == fi && t.tag == tag) with
  | some x =>
    rw [own] at h
    exact Option.some.inj h ▸ List.mem_of_find?_eq_some own
  | none =>
    rw [own] at h
    exact List.mem_of_find?_eq_some h

section Replied
variable (hs : Sound s) (quiet : FabQuiet s) {p : FabPort} {kind : Nat} (a : Arrives s p b kind) (hk : kind = 2 ∨ kind = 3)
  (good : orderOne b = true)
include hs quiet a hk good

theorem reply_untagged (yes : (ordersTwoFour s p.toNat b true).2 = true) (untagged : findTag s p.toNat (pkTag b) = none)
    (pcie : Option Bool) : (arrive p b kind pcie s).fab.lateReplies = satAdd s.fab.lateReplies 1 ∧
      (arrive p b kind pcie s).mem = s.mem ∧ (arrive p b kind pcie s).fab.tags = s.fab.tags := by
  have still : FabStill s := ⟨quiet, hs.ports⟩
  have frees := sendsOnly_freeSource
    { entered s p.toNat b with fab := { (entered s p.toNat b).fab with lateReplies := satAdd (entered s p.toNat b).fab.lateReplies 1 } }
    (bufferOf p.toNat b)
  have goes := arrive_done hs quiet a pcie (sinkPlain_reply_untagged good (by rw [isReply, a.isKind]; exact hk)
    ((passes_entered still.empty _ b _ true).trans yes) ((findTag_entered still ..).trans untagged) _ _) (congrArg (·.2.2) frees.toDo)
  have same : (entered s p.toNat b).fab.lateReplies = s.fab.lateReplies ∧ (entered s p.toNat b).fab.tags = s.fab.tags := by
    rw [entered_fab still.empty]
    exact ⟨rfl, rfl⟩
  rw [goes]
  refine ⟨?_, frees.mem.trans (entered_mem ..), ?_⟩
  · rw [counts_freeSource]
    exact congrArg (satAdd · 1) same.1
  · rw [counts_freeSource]
    exact same.2

theorem reply_refused (no : (ordersTwoFour s p.toNat b true).2 = false) (pcie : Option Bool) :
    (arrive p b kind pcie s).fab.lateReplies = s.fab.lateReplies ∧ (arrive p b kind pcie s).mem = s.mem ∧
      (arrive p b kind pcie s).fab.tags = s.fab.tags ∧
      (orderTwoBad b ≠ [] → (arrive p b kind pcie s).fab.windowDeny = satAdd s.fab.windowDeny 1) := by
  have still : FabStill s := ⟨quiet, hs.ports⟩
  have no' := (passes_entered still.empty p.toNat b p.toNat true).trans no
  obtain ⟨refused, denied⟩ := refused_ordersTwoFour no'
  have frees := sendsOnly_freeSource (ordersTwoFour (entered s p.toNat b) p.toNat b true).1 (bufferOf p.toNat b)
  have goes := arrive_done hs quiet a pcie (sinkPlain_reply_refused good (by rw [isReply, a.isKind]; exact hk) no' _ _)
    (congrArg (·.2.2) (frees.toDo.trans refused.toDo))
  have same : (entered s p.toNat b).fab.lateReplies = s.fab.lateReplies ∧ (entered s p.toNat b).fab.tags = s.fab.tags ∧
      (entered s p.toNat b).fab.windowDeny = s.fab.windowDeny := by
    rw [entered_fab still.empty]
    exact ⟨rfl, rfl, rfl⟩
  have tags : (ordersTwoFour (entered s p.toNat b) p.toNat b true).1.fab.tags = (entered s p.toNat b).fab.tags :=
    congrArg (·.2.2.2.2.2.2.1) refused.toDo
  rw [goes]
  refine ⟨?_, frees.mem.trans (refused.mem.trans (entered_mem ..)), ?_, fun some => ?_⟩
  · rw [counts_freeSource]
    exact refused.late.trans same.1
  · rw [counts_freeSource]
    exact tags.trans same.2.1
  · rw [counts_freeSource]
    exact (denied some).trans (congrArg (satAdd · 1) same.2.2)

end Replied

/-! ## A tag is resolved, and its op may end -/

/-- A state in which a tag of `s` has been resolved with a status, and nothing else of the fabric is to be done. -/
structure Resolved (s : State) (g : FabTag) (st : Status) (r : State) : Prop where
  tags : r.fab.tags = s.fab.tags.filter (fun x => !(x.fi == g.fi && x.tag == g.tag))
  ops : r.fab.ops = s.fab.ops.map (noteFailed g st)
  queues : ∀ x ∈ r.fab.ports, x.2.queue = []
  loop : r.fab.loop = []
  held : r.fab.held = []
  windowSet : r.hif.wtWait = none
  fired : r.coll.firedOps = []
  colls : ∀ c ∈ r.coll.colls, c.closed = false

theorem Resolved.settles {g : FabTag} {st : Status} {r : State} (h : Resolved s g st r) :
    settleFab r = settleOps r ∧ OpsEnded r (settleFab r) :=
  settleFab_ends h.loop h.held h.windowSet h.fired h.colls

theorem Resolved.untagged {g : FabTag} {st : Status} {r : State} (h : Resolved s g st r) : ¬hasTag (settleFab r) g :=
  not_hasTag_of_filter (h.settles.2.tags.trans h.tags)

/-- The tag of another op, or another tag of this one, stays. -/
theorem Resolved.tag_stays {g x : FabTag} {st : Status} {r : State} (h : Resolved s g st r) (hx : x ∈ s.fab.tags)
    (other : ¬(x.fi = g.fi ∧ x.tag = g.tag)) : x ∈ r.fab.tags := by
  rw [h.tags, List.mem_filter]
  exact ⟨hx, by simpa [imp_iff_not_or] using other⟩

/-- While another packet of the op is out, nothing ends. -/
theorem Resolved.waits {g : FabTag} {st : Status} {r : State} (h : Resolved s g st r) (quiet : FabQuiet s) (hg : g ∈ s.fab.tags)
    (more : moreOut s g) : settleFab r = r := by
  refine settleFab_of_done ⟨h.loop, by simp [h.held], h.windowSet, fun o ho => ?_, h.fired, h.colls⟩
  rw [h.ops] at ho
  obtain ⟨o', ho', rfl⟩ := List.mem_map.mp ho
  rw [noteFailed_desc, noteFailed_owner]
  rcases quiet.idle.ops o' ho' with h42 | ⟨x, hx, own⟩
  · exact .inl h42
  · by_cases same : x.fi = g.fi ∧ x.tag = g.tag
    · obtain ⟨y, hy, yown, other⟩ := more
      have one : x = g := List.inj_on_of_nodup_map quiet.idle.tags hx hg (Prod.ext same.1 same.2)
      exact .inr ⟨y, h.tag_stays hy other, yown.trans (one ▸ own)⟩
    · exact .inr ⟨x, h.tag_stays hx same, own⟩

/-- With the last packet of an op its PUT, GET or copy ends. -/
theorem Resolved.ends {g : FabTag} {st : Status} {r : State} (h : Resolved s g st r) (last : ¬moreOut s g) :
    ∀ o ∈ (settleFab r).fab.ops, o.owner = g.owner → byteAt o.desc 0 = 0x42 := by
  have idle : fabBusy r g.owner = false := by
    simp only [fabBusy, h.loop, h.tags, List.any_nil, Bool.or_false, Bool.or_eq_false_iff, List.any_eq_false, List.mem_filter]
    refine ⟨fun x ⟨hx, other⟩ own => last ⟨x, hx, by simpa using own, by simpa [imp_iff_not_or] using other⟩, fun x hx => ?_⟩
    simp [h.queues x hx]
  intro o ho own
  have kept := h.settles.2.ops o ho
  by_contra other
  have listed : o ∈ r.fab.ops.filter (fun o => byteAt o.desc 0 != 0x42) := List.mem_filter.mpr ⟨kept, by simpa using other⟩
  rw [h.settles.1] at ho
  exact (settleOps_ends _ r).2 o listed (by rw [own]; exact idle) o ho rfl

theorem queues_setFab (h : ∀ x ∈ s.fab.ports, x.2.queue = []) (p : Nat) {y : FabPortState} (hy : y.queue = []) :
    ∀ x ∈ (setFab s p y).fab.ports, x.2.queue = [] := fun x hx => by
  rcases mem_smSet hx with rfl | hx
  · exact hy
  · exact h x hx

theorem queue_of_all (h : ∀ x ∈ s.fab.ports, x.2.queue = []) (p : Nat) : (getFab s p).queue = [] := by
  rw [getFab]
  generalize s.fab.ports = m at h
  induction m with
  | nil => rfl
  | cons x m ih =>
    rw [smGet]
    split
    · exact h x (by simp)
    · exact ih fun y hy => h y (by simp [hy])

theorem queues_freeSource (h : ∀ x ∈ s.fab.ports, x.2.queue = []) (src : Option (Nat × Nat × Nat)) :
    ∀ x ∈ (freeSource s src).fab.ports, x.2.queue = [] := by
  cases src with
  | none => exact h
  | some y =>
    have out := queues_setFab h y.1 (y := bufferOut (getFab s y.1) y.2.1 y.2.2) (queue_of_all h y.1)
    dsimp only [freeSource, sendIdle]
    split
    · exact queues_setFab out y.1 (queue_of_all out y.1)
    · exact out

/-- What has not changed what the fabric has to do, but the tag, has resolved it. -/
theorem resolved_of_toDo (quiet : FabQuiet s) (g : FabTag) (st : Status) (e : (toDo u).2.2 = (toDo s).2.2)
    (queues : ∀ x ∈ u.fab.ports, x.2.queue = []) (src : Option (Nat × Nat × Nat)) :
    Resolved s g st (freeSource (resolveTag u g st) src) := by
  simp only [toDo, Prod.mk.injEq] at e
  obtain ⟨loop, held, set, ops, tags, fired, colls⟩ := e
  obtain ⟨-, -, coll, hif, ports, loop', held'⟩ := resolveTag_leaves u g st
  have same := counts_freeSource (resolveTag u g st) src
  have coll' : (freeSource (resolveTag u g st) src).coll = u.coll := (coll_eq (by simp)).trans coll
  have hif' : (freeSource (resolveTag u g st) src).hif = u.hif := (hif_eq (by simp)).trans hif
  refine ⟨?_, ?_, queues_freeSource (by rw [ports]; exact queues) src, ?_, ?_, ?_, ?_, ?_⟩
  · rw [same, ← tags]
    exact resolveTag_tags u g st
  · rw [same, ← ops]
    exact resolveTag_ops u g st
  · rw [same]
    exact loop'.trans (loop.trans quiet.idle.loop)
  · rw [same]
    exact held'.trans (held.trans quiet.idle.held)
  · rw [hif', set, quiet.idle.windowSet]
  · rw [coll', fired, quiet.idle.fired]
  · rw [coll', colls]
    exact quiet.colls

section Tagged
variable (hs : Sound s) (quiet : FabQuiet s) {p : FabPort} {g : FabTag} (found : findTag s p.toNat (pkTag b) = some g)
  (good : orderOne b = true) (yes : (ordersTwoFour s p.toNat b true).2 = true)

include hs quiet found good yes

/-- An ACK resolves its tag. -/
theorem ack_resolves (a : Arrives s p b 3) : ∃ st r, arrive p b 3 none s = settleFab r ∧ Resolved s g st r ∧ r.mem = s.mem := by
  have still : FabStill s := ⟨quiet, hs.ports⟩
  have sink : sinkPlain (entered s p.toNat b) p.toNat b false (bufferOf p.toNat b) =
      freeSource (resolveTag (entered s p.toNat b) g ((statusOf (le b 42 2)).getD .addrError)) (bufferOf p.toNat b) := by
    rw [sinkPlain_ack good a.isKind, sinkAck, ordersTwoFour_passed ((passes_entered still.empty _ b _ true).trans yes),
      findTag_entered still, found]
    rfl
  refine ⟨_, _, (arrive_here still.empty a none).trans (congrArg settleFab sink),
    resolved_of_toDo quiet g _ (congrArg (·.2.2) (toDo_entered still.empty ..)) (fun _ hx => queue_of_mem (still.empty.entered ..) hx) _, ?_⟩
  rw [freeSource_mem, (resolveTag_leaves ..).1, entered_mem]

/-- READ_DATA for the command processor is kept, and resolves its tag. -/
theorem cmdData_resolves (a : Arrives s p b 2) {q : Nat} {d : Bool} (own : g.owner = .cmd q d) (stalled : Bool) :
    ∃ r, arrive p b 2 (some stalled) s = settleFab r ∧ Resolved s g .ok r ∧ r.cmd.peerData = s.cmd.peerData ++
      [{ queue := q, desc := d, data := pkPayload b, poison := pkPoison b }] := by
  have still : FabStill s := ⟨quiet, hs.ports⟩
  have cmd : (entered s p.toNat b).cmd = s.cmd := cmd_eq (entered_rest s p.toNat b (by decide))
  have sink (stalled : Bool) : sinkPlain (entered s p.toNat b) p.toNat b stalled (bufferOf p.toNat b) =
      freeSource (resolveTag (keepData (entered s p.toNat b) q d b) g .ok) (bufferOf p.toNat b) := by
    rw [sinkPlain_data good a.isKind, sinkData_cmd ((passes_entered still.empty _ b _ true).trans yes)
      ((findTag_entered still ..).trans found) own]
  have cmd' : (freeSource (resolveTag (keepData (entered s p.toNat b) q d b) g .ok) (bufferOf p.toNat b)).cmd =
      (keepData (entered s p.toNat b) q d b).cmd := cmd_eq (by simp)
  have same : toDo (keepData (entered s p.toNat b) q d b) = toDo (entered s p.toNat b) := rfl
  have queues : ∀ x ∈ (keepData (entered s p.toNat b) q d b).fab.ports, x.2.queue = [] :=
    fun _ hx => queue_of_mem (s := entered s p.toNat b) (still.empty.entered p.toNat b) hx
  refine ⟨_, (arrive_here still.empty a (some stalled)).trans (congrArg settleFab (sink _)),
    resolved_of_toDo quiet g _ (congrArg (·.2.2) (same.trans (toDo_entered still.empty p.toNat b))) queues _, ?_⟩
  rw [cmd', keepData, cmd]

/-- READ_DATA of an op lands, and resolves its tag. -/
theorem data_lands (a : Arrives s p b 2) (own : ∀ q d, g.owner ≠ .cmd q d) (five : orderFive s b = true) (near : toHost b = false)
    (stalled : Bool) : ∃ st r, arrive p b 2 (some stalled) s = settleFab r ∧ Resolved s g st r ∧
      memRead r.mem (pkAddr b) (pkPlen b) = pkPayload b ∧ SameMem s r [(pkAddr b, pkPlen b)] := by
  have still : FabStill s := ⟨quiet, hs.ports⟩
  have five' := (orderFive_of_ground (ground_entered s p.toNat b) b).trans five
  let lands := landPkt (entered s p.toNat b) b (hostTargets (entered s p.toNat b) b)
  let st : Status := if pkPoison b != 0 then .poisoned else .ok
  obtain ⟨fab, todo, mem, -⟩ := landPkt_leaves (entered s p.toNat b) b (hostTargets (entered s p.toNat b) b)
  have checked (src : Option (Nat × Nat × Nat)) : landChecked (entered s p.toNat b) p.toNat b (hostTargets (entered s p.toNat b) b) src =
      freeSource (resolveTag lands g st) src := by
    rw [landChecked, a.isKind, if_neg (by decide), if_pos rfl, findTag_entered still, found]
    simp only [five', if_true, lands, st]
  have sink (stalled : Bool) : sinkPlain (entered s p.toNat b) p.toNat b stalled (bufferOf p.toNat b) =
      freeSource (resolveTag lands g st) (bufferOf p.toNat b) := by
    rw [sinkPlain_data good a.isKind, sinkData_op ((passes_entered still.empty _ b _ true).trans yes)
      ((findTag_entered still ..).trans found) own five' near, checked]
  have wf : Memory.wf (entered s p.toNat b).mem = true := by rw [entered_mem]; exact hs.mem
  obtain ⟨bytes, others⟩ := landed_mem (s := entered s p.toNat b) wf good (by rw [a.isKind]; decide) near (hostTargets (entered s p.toNat b) b)
  have mem' : (freeSource (resolveTag lands g st) (bufferOf p.toNat b)).mem =
      (landed (entered s p.toNat b) b (hostTargets (entered s p.toNat b) b)).mem := by
    rw [freeSource_mem, (resolveTag_leaves ..).1, mem]
  refine ⟨_, _, (arrive_here still.empty a (some stalled)).trans (congrArg settleFab (sink _)), resolved_of_toDo quiet g st
    (congrArg (·.2.2) (todo.trans (toDo_entered still.empty ..))) (by rw [fab]; exact fun _ hx => queue_of_mem (still.empty.entered ..) hx) _, ?_, fun x hx => ?_⟩
  · rw [mem']
    exact bytes
  · rw [mem', others x hx, entered_mem]

end Tagged

/-- The limit of a tag. -/
theorem fabricTimeout_exec {p : FabPort} {tag : BitVec 24} {g : FabTag}
    (found : s.fab.tags.find? (fun x => x.fi == p.toNat && x.tag == tag.toNat) = some g) :
    exec (.fabricTimeout p tag) s =
      .next (if g.injected + g.limitNs ≤ s.nowNs then settleFab (freeSource (resolveTag s g .timeout) none) else s) := by
  show execFabricTimeout p tag s = _
  rw [execFabricTimeout, found]
  exact (apply_ite Host.Outcome.next _ _ _).symm

/-! ## A READ_REQ is answered (R425, R431) -/

theorem buildPkt_tag (src : Nat) (h : PktSpec) (payload : Bytes) : le (buildPkt src h payload) 26 3 = h.tag % 256 ^ 3 :=
  (le_buildPkt src h payload (by decide)).trans
    (le_of_split (pre := [0, BitVec.ofNat 8 (cdiv payload.length 64)] ++ zeroBytes 10 ++ leBytes 2 h.dst ++ leBytes 2 src ++
      leBytes 1 (h.cls + 4 * h.kind) ++ leBytes 1 (b2n h.ackReq + 2 * b2n h.epochEn + 4 * b2n h.rctrEn) ++ leBytes 2 h.plen ++
      leBytes 6 h.addr)
      (by simp only [pktBody, List.append_assoc]; rfl))

/-- READ_DATA on its link. -/
theorem linked_data (src : Nat) (h : PktSpec) (payload : Bytes) (y : FabPortState) (vc : Nat) (down : Bool) (kind : h.kind = 2)
    (cls : h.cls = 1) (dst : h.dst < 65536) (addr : h.addr < 281474976710656) (tag : h.tag < 16777216) (plen : h.plen = payload.length)
    (short : payload.length ≤ 4032) :
    let x := linkPart y 1 vc down (buildPkt src h payload)
    pkKind x = 2 ∧ pkDst x = h.dst ∧ pkTag x = h.tag ∧ pkAddr x = h.addr ∧ pkPayload x = payload := by
  obtain ⟨hd, -, hk, hp, ha, body⟩ := linked_fields src h payload _ y vc down (.inl rfl)
  have long : 64 ≤ (buildPkt src h payload).length := by rw [buildPkt_length]; omega
  have len : pkPlen (linkPart y 1 vc down (buildPkt src h payload)) = payload.length := by
    rw [pkPlen, hp, plen, bits, Nat.shiftRight_zero]
    omega
  refine ⟨?_, ?_, ?_, ?_, ?_⟩
  · rw [pkKind, hk, kind, cls]
    decide
  · rw [pkDst, hd]
    omega
  · rw [pkTag, le_eq_slice, linkPart_slice _ _ _ _ long (by decide) (by decide), ← le_eq_slice, buildPkt_tag]
    omega
  · rw [pkAddr, ha]
    omega
  · rw [pkPayload, len, body, List.take_append_of_le_length le_rfl, List.take_length]

/-- A packet to another node takes the port and channel of its route. -/
theorem injectPkt_routed {dst : Nat} {dl down : Bool} (far : localNode s dst = false) (route : routeOf s dst = some q)
    (hop : hopOf s none q false false = some (dl, down)) (fi cls : Nat) (bytes : Bytes) (part : Option Nat) (limitNs : Nat)
    (owner : Option FabOwner) (src : Option (Nat × Nat × Nat)) : injectPkt s fi dst cls bytes part limitNs owner src =
      sendOut s q { vc := vcOf cls dl, down, bytes, src, part, limitNs, owner } := by
  simp only [injectPkt, far, Bool.false_eq_true, if_false, routePkt, route, hop]

section Read
variable (hs : Sound s) (quiet : FabQuiet s) {p : FabPort} (a : Arrives s p b 1) (good : orderOne b = true)
  (yes : (ordersTwoFour s p.toNat b false).2 = true) (five : orderFive s b = true) (near : toHost b = false)
  (clean : s.mr.dramErr = [])
include hs quiet a good yes five near clean

/-- A read that passes is answered with what memory holds. -/
theorem read_answers : sinkPlain (entered s p.toNat b) p.toNat b false (bufferOf p.toNat b) =
    replyFrom (entered s p.toNat b) s.mem p.toNat b [] (bufferOf p.toNat b) := by
  have still : FabStill s := ⟨quiet, hs.ports⟩
  have yes' := (passes_entered still.empty p.toNat b p.toNat false).trans yes
  have five' := (orderFive_of_ground (ground_entered s p.toNat b) b).trans five
  have met : demandRead (entered s p.toNat b) (pkAddr b) (pkPlen b) = entered s p.toNat b := by
    have none : (entered s p.toNat b).mr.dramErr = [] := by rw [mr_eq (t := entered s p.toNat b) (entered_rest s p.toNat b (by decide)), clean]
    rw [demandRead, none]
    rfl
  have read : sinkPlain (entered s p.toNat b) p.toNat b false (bufferOf p.toNat b) =
      sinkRead (entered s p.toNat b) p.toNat b (bufferOf p.toNat b) := by simp [sinkPlain, good, a.isKind]
  rw [read, sinkRead, ordersTwoFour_passed yes']
  simp only [Bool.not_true, Bool.false_eq_true, if_false, five', met, near, entered_mem]

variable {q : Nat} {dl down : Bool} (node : gNode (le b 42 8) = pkSrc b) (far : localNode s (pkSrc b) = false)
  (route : routeOf s (pkSrc b) = some q) (hop : hopOf s none q false false = some (dl, down))
  (credits : creditsFor (getFab s q) (vcOf 1 dl) (cdiv (pkPlen b) 64 + 1) = true)
include node far route hop credits

/-- The answer leaves on the port of its route. -/
theorem answer_leaves : (arrive p b 1 none s).mem = s.mem ∧ ∃ x, .packet q x ∈ (arrive p b 1 none s).out ∧ pkKind x = 2 ∧
    pkDst x = pkSrc b ∧ pkTag x = pkTag b ∧ pkAddr x = gLocal (le b 42 8) ∧ pkPayload x = memRead s.mem (pkAddr b) (pkPlen b) := by
  have still : FabStill s := ⟨quiet, hs.ports⟩
  have still' := still_entered still p.toNat b
  have sends := entered_sends s p.toNat b
  have far' : localNode (entered s p.toNat b) (gNode (le b 42 8)) = false := by rw [node, localNode_of_sends sends, far]
  have reply := sendsOnly_replyFrom still'.quiet.idle.queues s.mem p.toNat b [] far' (bufferOf p.toNat b)
  have goes := arrive_done hs quiet a none (read_answers hs quiet a good yes five near clean) (congrArg (·.2.2) reply.toDo)
  rw [goes]
  refine ⟨reply.mem.trans (entered_mem ..), ?_⟩
  let x := touch (touch (entered s p.toNat b) (pkAddr b)) (pkAddr b + pkPlen b - 1)
  have fab : x.fab = (entered s p.toNat b).fab := touches_fab _ _ _
  have way : Sends s x := sends.trans (.of_fab fab)
  have up : portCarries x q = true := by
    have live : portUp s q = true := by
      rw [routeOf, Option.filter_eq_some_iff] at route
      exact route.2
    have assigned := a.up
    rw [portCarries, Bool.and_eq_true] at assigned
    rw [portCarries_of_sends way hs.ports, portCarries, live, assigned.2]
    rfl
  have len : (memRead s.mem (pkAddr b) (pkPlen b)).length = pkPlen b := memRead_length ..
  have short : pkPlen b ≤ 4032 := by
    simp only [orderOne, wellFormedPkt, Bool.and_eq_true, decide_eq_true_eq] at good
    obtain ⟨⟨⟨⟨⟨⟨-, short⟩, -⟩, -⟩, -⟩, -⟩, -⟩ := good
    exact short
  let spec : PktSpec := { pktPlain (pkSrc b) 1 2 (memRead s.mem (pkAddr b) (pkPlen b)).length (gLocal (le b 42 8)) with
    tag := pkTag b, epochEn := pkEpochEn b && inCoreStores (gLocal (le b 42 8)), epoch := pkEpoch b, rctrEn := pkRctrEn b, rctr := pkRctr b,
    poison := flitMask (pkPlen b) (fun off k => spanPoison s.mem (pkAddr b + off) k || (linesOf (pkAddr b + off) k).any ([] : List Nat).contains) }
  let pkt : OutPkt := { vc := vcOf 1 dl, down, bytes := buildPkt x.fab.nodeId.toNat spec (memRead s.mem (pkAddr b) (pkPlen b)),
                        src := bufferOf p.toNat b, part := none, limitNs := 0, owner := none }
  have answer : replyFrom (entered s p.toNat b) s.mem p.toNat b [] (bufferOf p.toNat b) = sendOut x q pkt := by
    have sent : replyFrom (entered s p.toNat b) s.mem p.toNat b [] (bufferOf p.toNat b) =
        injectPlain x p.toNat spec (memRead s.mem (pkAddr b) (pkPlen b)) none (bufferOf p.toNat b) := by
      rw [replyFrom, sendReply]
      simp only [node, if_true]
      rfl
    exact sent.trans (injectPkt_routed ((localNode_of_sends way (pkSrc b)).trans far) ((routeOf_of_sends way hs.ports (pkSrc b)).trans route)
      ((hopOf_of_sends way hs.ports none q false false).trans hop) ..)
  have blocks : pkt.bytes.length / 64 = cdiv (pkPlen b) 64 + 1 := by
    show (buildPkt x.fab.nodeId.toNat spec (memRead s.mem (pkAddr b) (pkPlen b))).length / 64 = _
    rw [buildPkt_length, len]
    omega
  have enough : creditsFor (getFab x q) pkt.vc (pkt.bytes.length / 64) = true := by
    rw [blocks, getFab, fab]
    exact creditsFor_entered still (show vcOf 1 dl < 8 by cases dl <;> decide) credits
  obtain ⟨y, left⟩ := sendOut_leaves (s := x) pkt (by rw [fab]; exact still'.ports) up
    (by rw [getFab, fab]; exact still'.quiet.idle.queues q) enough (fun h => absurd h (by simp [pkt]))
  rw [answer]
  exact ⟨_, left, linked_data x.fab.nodeId.toNat spec (memRead s.mem (pkAddr b) (pkPlen b)) y _ down rfl rfl (le_lt b 14 2)
    (by show gLocal (le b 42 8) < _; rw [gLocal, bits]; omega) (le_lt b 26 3) rfl (by rw [len]; exact short)⟩

end Read

/-! ## O52 -/

/-- Settles O52: a resolved tag leaves its op to end when no other packet of it is out, and every other op as it waits. -/
theorem repliesAndTags : Obligations.RepliesAndTags := by
  unfold Obligations.RepliesAndTags
  intro p s b stalled hs quiet n
  refine ⟨?_, ?_, fun g found => ⟨?_, ?_, ?_⟩, fun tag g found => ⟨fun late => ?_, fun early => ?_⟩⟩
  · intro q dl down a good yes five near clean node far route hop credits
    exact ⟨_, rfl, answer_leaves hs quiet a good yes five near clean node far route hop credits⟩
  · intro kc hkc a good
    rcases List.mem_pair.mp hkc with rfl | rfl
    · exact ⟨fun yes untagged => ⟨_, rfl, reply_untagged hs quiet a (.inl rfl) good yes untagged (some stalled)⟩,
        fun no => ⟨_, rfl, reply_refused hs quiet a (.inl rfl) good no (some stalled)⟩⟩
    · exact ⟨fun yes untagged => ⟨_, rfl, reply_untagged hs quiet a (.inr rfl) good yes untagged none⟩,
        fun no => ⟨_, rfl, reply_refused hs quiet a (.inr rfl) good no none⟩⟩
  · intro a good yes
    obtain ⟨st, r, goes, resolved, mem⟩ := ack_resolves hs quiet found good yes a
    refine ⟨settleFab r, congrArg Host.Outcome.next goes, resolved.untagged, fun more => ?_, resolved.ends⟩
    rw [resolved.waits quiet (mem_of_findTag found) more, resolved.ops, List.map_map]
    exact ⟨mem, List.map_congr_left fun o _ => noteFailed_owner g st o⟩
  · intro a good own yes five near more
    obtain ⟨st, r, goes, resolved, lands⟩ := data_lands hs quiet found good yes a own five near stalled
    refine ⟨settleFab r, congrArg Host.Outcome.next goes, resolved.untagged, ?_⟩
    rw [resolved.waits quiet (mem_of_findTag found) more]
    exact lands
  · intro q d a good own yes
    obtain ⟨r, goes, resolved, kept⟩ := cmdData_resolves hs quiet found good yes a own stalled
    exact ⟨settleFab r, congrArg Host.Outcome.next goes, resolved.untagged, resolved.settles.2.peer.trans kept⟩
  · have still : FabStill s := ⟨quiet, hs.ports⟩
    have resolved := resolved_of_toDo quiet g .timeout rfl (fun _ hx => queue_of_mem still.empty hx) none
    refine ⟨_, fabricTimeout_exec found, ?_⟩
    rw [if_pos late]
    refine ⟨resolved.untagged, fun more => ?_⟩
    rw [resolved.waits quiet (List.mem_of_find?_eq_some found) more, resolved.ops]
    refine ⟨(resolveTag_leaves s g .timeout).1, fun o ho own => ⟨noteFailed g .timeout o, List.mem_map_of_mem ho, ?_, ?_⟩⟩
    · rw [noteFailed_owner, own]
    · simp [noteFailed, own]
  · refine ⟨_, fabricTimeout_exec found, ?_⟩
    rw [if_neg (by omega)]

end Sys2Proof.Laws
end

section
/-! PROOFS. Scrub, and the tables that a host enables (O48). -/

namespace Sys2Proof.Laws

open Sys2Proof Sys2Proof.Machine
set_option Elab.async false

variable {s t u : State}

/-! ## Errors of a line (R331, R333) -/

theorem linePoison_setPoison {m : Mem} (h : Memory.wf m = true) (k l : Nat) :
    linePoison (setPoison m k true) l = (linePoison m l || decide (l / 64 = k)) := by
  obtain ⟨-, marks⟩ := wf_iff.mp h
  simp only [linePoison, setPoison]
  by_cases e : l / 64 = k
  · rw [e, smGet_smSet_self marks]
    simp
  · rw [smGet_smSet_other marks e]
    simp [e]

theorem raiseEvent_mr (s : State) (st : Status) (i j : Nat) (d : Bytes) : (raiseEvent s st i j d).mr = s.mr := mr_eq (by simp)

theorem logFailure_mr (s : State) (k : Nat) (st : Status) (i a : Nat) : (logFailure s k st i a).mr = s.mr := mr_eq (by simp)

theorem noteCorrected_mr (s : State) (n : BitVec 32) (i j a : Nat) : (noteCorrected s n i j a).mr = s.mr := mr_eq (by simp)

theorem touch_mr (s : State) (a : Nat) : (touch s a).mr = s.mr := mr_eq (by simp)

/-- What an uncorrectable error leaves: a mark on its line, and no byte. -/
structure LineMarked (s t : State) (a kind : Nat) : Prop where
  bytes : ∀ x, memByte t.mem x = memByte s.mem x
  marks : ∀ l, linePoison t.mem l = (linePoison s.mem l || decide (l / 64 = a / 64))
  log : logged s t kind

/-- A marked line that is logged and reported. -/
theorem lineMarked_of_reported (wf : Memory.wf s.mem = true) {a kind : Nat} (hkind : kind ≤ 10) (room : s.err.failLog.length < 4032)
    (hm : u.mem = setPoison s.mem (a / 64) true) (hl : u.err = s.err) (st st' : Status) (i j k l : Nat) (d : Bytes) :
    LineMarked s (raiseEvent (logFailure u kind st k l) st' i j d) a kind := by
  have mem : (raiseEvent (logFailure u kind st k l) st' i j d).mem = setPoison s.mem (a / 64) true := by
    rw [raiseEvent_mem, logFailure_mem, hm]
  refine ⟨fun x => ?_, fun x => ?_, ?_⟩
  · rw [mem, memByte_setPoison]
  · rw [mem, linePoison_setPoison wf]
  · have log : failLog u = failLog s := congrArg ErrState.failLog hl
    exact logged_of_failLog (logged_after hkind log room st k l) (raiseEvent_reported ..).failLog

/-- A line of DRAM poisoned and counted for its channel. -/
def dramMarked (s : State) (a : Nat) : State :=
  let ch := dramChannel s a
  let c := smGet (0, 0) s.mr.ecc ch
  let m := { s.mr with dramErr := smSet LineErr.none s.mr.dramErr (a / 64) .none }
  { setMem s (setPoison s.mem (a / 64) true) with mr := { m with ecc := smSet (0, 0) m.ecc ch (c.1, satAdd c.2 1) } }

theorem meetErr_uncorrectable_eq (s : State) (a : Nat) : meetErr s a .uncorrectable =
    raiseEvent (logFailure (dramMarked s a) 4 .uncorrected (dramChannel s a) a) .uncorrected 5 (dramChannel s a) (memDetail a 7 false) := rfl

section Dram
variable (a : Nat) (hs : Sound s)
include hs

theorem meetErr_correctable : smGet (0, 0) (meetErr s a .correctable).mr.ecc (dramChannel s a) =
    (satAdd (smGet (0, 0) s.mr.ecc (dramChannel s a)).1 1, (smGet (0, 0) s.mr.ecc (dramChannel s a)).2) ∧
    (meetErr s a .correctable).mem = s.mem := by
  simp only [meetErr]
  rw [noteCorrected_mr, noteCorrected_mem]
  exact ⟨get_set_self hs.ecc, rfl⟩

theorem meetErr_uncorrectable (room : s.err.failLog.length < 4032) :
    smGet (0, 0) (meetErr s a .uncorrectable).mr.ecc (dramChannel s a) =
      ((smGet (0, 0) s.mr.ecc (dramChannel s a)).1, satAdd (smGet (0, 0) s.mr.ecc (dramChannel s a)).2 1) ∧
      LineMarked s (meetErr s a .uncorrectable) a 4 := by
  rw [meetErr_uncorrectable_eq, raiseEvent_mr, logFailure_mr]
  exact ⟨get_set_self hs.ecc, lineMarked_of_reported (u := dramMarked s a) (kind := 4) hs.mem (by decide) room rfl rfl ..⟩

end Dram

/-! ## Scrub of on-package SRAM (R330, R333) -/

/-- Whether an address lies in on-package SRAM. -/
def inSram (a : Nat) : Bool := match region a with | .core _ => true | .cluster _ => true | .red => true | _ => false

/-- Whether its cluster is gated. -/
def inDark (s : State) (a : Nat) : Bool :=
  match region a with
  | .core n => smGet false s.pwr.gated (n / 64)
  | .cluster c => smGet false s.pwr.gated c
  | _ => false

/-- A line of on-package SRAM poisoned, counted and noted as bad. -/
def sramMarked (s : State) (a : Nat) : State :=
  let s1 := setMem s (setPoison s.mem (a / 64) true)
  { s1 with mr := { s1.mr with sramUncorrected := satAdd s1.mr.sramUncorrected 1, sramBad := smSet false s1.mr.sramBad (a / 64) true } }

/-- It is logged and reported. -/
def sramReported (s : State) (a : Nat) : State :=
  raiseEvent (logFailure (sramMarked s a) 5 .uncorrected (sramUnit a).2 a) .uncorrected (sramUnit a).1 (sramUnit a).2 (memDetail a 7 false)

/-- What a scrub that reads its line does. -/
def sramRead (s : State) (a : Nat) : ScrubResult → State
  | .clean => s
  | .corrected =>
    let n := satAdd s.mr.sramCorrected 1
    noteCorrected { s with mr := { s.mr with sramCorrected := n } } n (sramUnit a).1 (sramUnit a).2 a
  | .uncorrected => if smGet false s.mr.sramBad (a / 64) then sramTwice (sramReported s a) a else sramReported s a

theorem sramScrub_exec (addr : BitVec 48) (result : ScrubResult) : exec (.sramScrub addr result) s =
    .next (let a := addr.toNat / 64 * 64
      if !(scrubOn s) || !(inSram a) || inDark s a || !(addrExists s a) || linePoison s.mem a then s
      else sramRead (touch s a) a result) := by
  show execSramScrub addr result s = _
  unfold execSramScrub
  cases result <;> exact (apply_ite Host.Outcome.next _ _ _).symm

/-- A scrub that may read its line does. -/
theorem sramScrub_reads {addr : BitVec 48} {a : Nat} (ha : a = addr.toNat / 64 * 64) (on : scrubOn s = true) (sram : inSram a = true)
    (lit : inDark s a = false) (there : addrExists s a = true) (clean : linePoison s.mem a = false) (result : ScrubResult) :
    exec (.sramScrub addr result) s = .next (sramRead (touch s a) a result) := by
  subst ha
  rw [sramScrub_exec]
  simp only [on, sram, lit, there, clean]
  rfl

theorem sramReported_marks (hs : Sound s) (a : Nat) (room : s.err.failLog.length < 4032) :
    (sramReported s a).mr.sramUncorrected = satAdd s.mr.sramUncorrected 1 ∧
      smGet false (sramReported s a).mr.sramBad (a / 64) = true ∧ LineMarked s (sramReported s a) a 5 := by
  rw [sramReported, raiseEvent_mr, logFailure_mr]
  exact ⟨rfl, get_set_self hs.sramBad, lineMarked_of_reported (u := sramMarked s a) (kind := 5) hs.mem (by decide) room rfl rfl ..⟩

/-- A marked core is available no more. -/
theorem markCore_avail (hk : keysRise (availMap s) = true) (n : Nat) (st : Status) : coreAvail (markCore s n st) n = false := by
  rw [markCore]
  split
  · rw [coreAvail_of_map (logFailure_availMap ..)]
    exact (takenOut_avail n n hk).trans (by simp)
  next h => exact Bool.eq_false_iff.mpr h

/-- The second uncorrectable error at a place in a core's store has firmware mark the core. -/
theorem sramTwice_core (hs : Sound s) {a k : Nat} (core : region a = .core k) (runs : imageRuns s = true) :
    coreAvail (sramTwice (sramReported s a) a) k = false := by
  have runs' : imageRuns (sramReported s a) = true := by
    have report := raiseEvent_reported (logFailure (sramMarked s a) 5 .uncorrected (sramUnit a).2 a) .uncorrected (sramUnit a).1
      (sramUnit a).2 (memDetail a 7 false)
    have state : (sramReported s a).fw.state = (logFailure (sramMarked s a) 5 .uncorrected (sramUnit a).2 a).fw.state :=
      report.ofFw (·.state) fun _ => rfl
    have fatal : (sramReported s a).err.fwFatal = (logFailure (sramMarked s a) 5 .uncorrected (sramUnit a).2 a).err.fwFatal :=
      report.ofErr (·.fwFatal) fun _ => rfl
    have logged : (logFailure (sramMarked s a) 5 .uncorrected (sramUnit a).2 a).fw.state = s.fw.state ∧
        (logFailure (sramMarked s a) 5 .uncorrected (sramUnit a).2 a).err.fwFatal = s.err.fwFatal := by
      unfold logFailure
      dsimp only
      split <;> exact ⟨rfl, rfl⟩
    rw [imageRuns, state, fatal, logged.1, logged.2]
    exact runs
  have map : availMap (sramReported s a) = availMap s := by
    have cr : (sramReported s a).cr = (sramMarked s a).cr := cr_eq (by simp [sramReported])
    exact availMap_of_cr cr
  rw [sramTwice, if_pos runs', core]
  exact markCore_avail (by rw [map]; exact hs.coreAvail) k _

/-! ## The CCM is enabled and disabled (R353) -/

/-- Fields of a register written, bit by bit. -/
theorem seqBase_eq (old v : BitVec 64) : wrField (wrField (wrField old v.toNat 1 4) v.toNat 12 36) v.toNat 0 1 =
    (old &&& ~~~0xFFFFFFFFF01F#64) ||| (v &&& 0xFFFFFFFFF01F#64) := by
  have mask : ∀ i < 64, (0xFFFFFFFFF01F#64).getLsbD i = decide (i < 5 ∨ (12 ≤ i ∧ i < 48)) := by decide
  refine BitVec.eq_of_getLsbD_eq fun i hi => ?_
  simp only [getLsbD_wrField _ _ _ _ i hi, BitVec.getLsbD_or, BitVec.getLsbD_and, BitVec.getLsbD_not, hi, mask i hi]
  by_cases zero : i = 0
  · simp [zero, BitVec.getLsbD]
  · by_cases low : i < 5
    · simp [low, show ¬i < 1 by omega, show 1 ≤ i by omega, show ¬12 ≤ i by omega, BitVec.getLsbD]
    · by_cases high : 12 ≤ i ∧ i < 48
      · simp [low, high, show ¬i < 1 by omega, BitVec.getLsbD]
      · simp [low, high, show ¬i < 1 by omega]

theorem bit_zero (v : BitVec 64) : bit v.toNat 0 = v.getLsbD 0 := rfl

/-- Enabling frees every frame and waits for the bitmaps. -/
theorem writeSeqBase_enables {v : BitVec 64} (off : ccmEn s = false) (on : v.getLsbD 0 = true) :
    let t := writeSeqBase s v.toNat
    ccmEn t = true ∧ t.mr.ready = false ∧ t.ccm.usedSram = [] ∧ t.ccm.usedDram = [] ∧ t.ccm.usedHost = [] ∧ t.mem = s.mem ∧
      t.mr.seqBase = (s.mr.seqBase &&& ~~~0xFFFFFFFFF01F) ||| (v &&& 0xFFFFFFFFF01F) := by
  let s2 : State := { s with
    mr := { s.mr with seqBase := wrField (wrField (wrField s.mr.seqBase v.toNat 1 4) v.toNat 12 36) v.toNat 0 1, ready := false }
    ccm := { s.ccm with usedSram := [], usedDram := [], usedHost := [], handSram := 0, handDram := 0, hostBad := false } }
  have goes : writeSeqBase s v.toNat = if sramFits s2 then s2
      else raiseEvent s2 .ccmPool 0 0 (memDetail (clusterBase 0 + ccmOff s2) initCcm true) := by
    rw [writeSeqBase, off, bit_zero, on]
    rfl
  have parts : (writeSeqBase s v.toNat).mr = s2.mr ∧ (writeSeqBase s v.toNat).ccm = s2.ccm ∧ (writeSeqBase s v.toNat).mem = s2.mem := by
    rw [goes]
    split
    · exact ⟨rfl, rfl, rfl⟩
    · exact ⟨mr_eq (by simp), ccm_eq (by simp), raiseEvent_mem ..⟩
  obtain ⟨mr, ccm, mem⟩ := parts
  refine ⟨?_, by rw [mr], by rw [ccm], by rw [ccm], by rw [ccm], mem, by rw [mr]; exact seqBase_eq ..⟩
  rw [ccmEn, mr, show s2.mr.seqBase = wrField _ v.toNat 0 1 from rfl, getLsbD_wrField _ _ _ _ 0 (by decide)]
  exact on

/-- The CCM ops of a core, where all have finished. -/
def ccmEnded (s : State) : Prop := ∀ k r, (getCore s k).ccm = some r → r.finished = true

/-- What abandoning moves leaves: the ops of the cores that have all ended, and moves that are among those before. -/
structure MovesLeft (s t : State) : Prop where
  ops : ∀ k, (getCore t k).ccm = (getCore s k).ccm
  moves : ∀ m ∈ t.ccm.moves, m ∈ s.ccm.moves
  rises : keysRise t.cores = true

/-- The target frame of a move is given back, and its page no longer moves. -/
def moveUndone (s : State) (mv : CcmMoveRun) : State :=
  setUsed (putPage s mv.entryAddr { getPage s mv.entryAddr with moving := false }) mv.toTier mv.toFrame false

theorem moveUndone_cores (s : State) (mv : CcmMoveRun) : (moveUndone s mv).cores = s.cores := cores_eq (by simp [moveUndone])

theorem write_ccm (s : State) (r : Reach) (a : Nat) (bs : Bytes) (p : Bool) : (write s r a bs p).ccm = s.ccm := ccm_eq (by simp)

theorem putFreeBit_ccm (s : State) (tier f : Nat) (free : Bool) : (putFreeBit s tier f free).ccm = s.ccm := write_ccm ..

theorem setUsed_moves (s : State) (tier f : Nat) (used : Bool) : (setUsed s tier f used).ccm.moves = s.ccm.moves := by
  simp only [setUsed, putFreeBit_ccm]
  split <;> rfl

theorem moveUndone_moves (s : State) (mv : CcmMoveRun) : (moveUndone s mv).ccm.moves = s.ccm.moves := by
  rw [moveUndone, setUsed_moves, putPage, write_ccm]

theorem abandonMove_left (ended : ccmEnded s) (rises : keysRise s.cores = true) (mv : CcmMoveRun) :
    MovesLeft s (abandonMove s mv) ∧ ∀ m ∈ (abandonMove s mv).ccm.moves, m.id ≠ mv.id := by
  let s1 : State := { moveUndone s mv with ccm := { (moveUndone s mv).ccm with moves := (moveUndone s mv).ccm.moves.filter (fun x => x.id != mv.id) } }
  have cores : s1.cores = s.cores := moveUndone_cores s mv
  have core (k : Nat) : getCore s1 k = getCore s k := by rw [getCore, cores, ← getCore]
  have finished : (∀ k, (getCore (endMove (moveUndone s mv) mv) k).ccm = (getCore s k).ccm) ∧
      (endMove (moveUndone s mv) mv).ccm = s1.ccm ∧ keysRise (endMove (moveUndone s mv) mv).cores = true := by
    rw [endMove]
    split
    · exact ⟨fun k => congrArg Core.ccm (core k), rfl, (congrArg _ cores).trans rises⟩
    next n _ =>
      dsimp only
      split
      · exact ⟨fun k => congrArg Core.ccm (core k), rfl, (congrArg _ cores).trans rises⟩
      · have rises' : keysRise s1.cores = true := (congrArg _ cores).trans rises
        refine ⟨fun k => ?_, rfl, keysRise_smSet rises'⟩
        by_cases hk : k = n
        · subst hk
          have read := get_set_self (d := Core.idle) (k := k)
            (v := { getCore s1 k with ccm := (getCore s1 k).ccm.map (fun r => { r with finished := true }) }) rises'
          refine (congrArg Core.ccm read).trans ?_
          dsimp only
          rw [core k]
          cases own : (getCore s k).ccm with
          | none => rfl
          | some r =>
            have fin := ended k r own
            rw [Option.map_some, ← fin]
        · exact (congrArg Core.ccm (get_set_other rises' hk)).trans (congrArg Core.ccm (core k))
  obtain ⟨ops, ccm, rises'⟩ := finished
  have left : (∀ k, (getCore (abandonMove s mv) k).ccm = (getCore s k).ccm) ∧ (abandonMove s mv).ccm = s1.ccm ∧
      keysRise (abandonMove s mv).cores = true := by
    simp only [abandonMove]
    split
    · exact ⟨ops, ccm, rises'⟩
    · exact ⟨ops, ccm, rises'⟩
  have moves (m : CcmMoveRun) (hm : m ∈ (abandonMove s mv).ccm.moves) : m ∈ s.ccm.moves ∧ m.id ≠ mv.id := by
    rw [left.2.1] at hm
    obtain ⟨hm, other⟩ := List.mem_filter.mp hm
    rw [moveUndone_moves] at hm
    exact ⟨hm, by simpa using other⟩
  exact ⟨⟨left.1, fun m hm => (moves m hm).1, left.2.2⟩, fun m hm => (moves m hm).2⟩

theorem abandonMoves_left (ended : ccmEnded s) (rises : keysRise s.cores = true) (ms : List CcmMoveRun) :
    MovesLeft s (ms.foldl abandonMove s) ∧ ∀ m ∈ (ms.foldl abandonMove s).ccm.moves, ∀ mv ∈ ms, m.id ≠ mv.id := by
  induction ms generalizing s with
  | nil => exact ⟨⟨fun _ => rfl, fun _ h => h, rises⟩, fun _ _ _ h => absurd h (by simp)⟩
  | cons mv ms ih =>
    obtain ⟨one, gone⟩ := abandonMove_left ended rises mv
    obtain ⟨rest, others⟩ := ih (s := abandonMove s mv) (fun k r h => ended k r ((one.ops k).symm.trans h)) one.rises
    refine ⟨⟨fun k => (rest.ops k).trans (one.ops k), fun m hm => one.moves m (rest.moves m hm), rest.rises⟩, fun m hm x hx => ?_⟩
    rcases List.mem_cons.mp hx with rfl | hx
    · exact gone m (rest.moves m hm)
    · exact others m hm x hx

/-- The op of a core, ended with CCM_DISABLED where it ran. -/
def stopOp (r : OpRun) : OpRun := if r.finished then r else { r with status := .ccmDisabled, finished := true }

/-- A core whose op, if it has one, has ended. -/
def stopCore (c : Core) : Core := { c with ccm := c.ccm.map stopOp }

theorem ccmStop_op (s : State) (k : Nat) : (getCore (ccmStop s) k).ccm = (getCore s k).ccm.map stopOp :=
  congrArg Core.ccm (smGet_map (d := Core.idle) stopCore s.cores k)

theorem ccmStop_ended (s : State) : ccmEnded (ccmStop s) := by
  intro k r h
  rw [ccmStop_op] at h
  obtain ⟨q, -, rfl⟩ := Option.map_eq_some_iff.mp h
  unfold stopOp
  split
  next fin => exact fin
  next => rfl

/-- Disabling ends the ops and abandons the moves. -/
theorem writeSeqBase_disables (hs : Sound s) {v : BitVec 64} (on : ccmEn s = true) (off : v.getLsbD 0 = false) :
    let t := writeSeqBase s v.toNat
    ccmEn t = false ∧ t.mr.ready = false ∧ t.ccm.moves = [] ∧ sweeping t 1 = false ∧ sweeping t 2 = false ∧
      ∀ k r, (getCore t k).ccm = some r → r.finished = true ∧
        ∀ q, (getCore s k).ccm = some q → r.status = if q.finished then q.status else .ccmDisabled := by
  let s1 := s.ccm.moves.foldl abandonMove (ccmStop s)
  have goes : writeSeqBase s v.toNat = { s1 with
      mr := { s1.mr with seqBase := wrField s.mr.seqBase 0 0 1, ready := false }
      ccm := { s1.ccm with sweepSram := false, sweepDram := false } } := by
    rw [writeSeqBase, on, bit_zero, off]
    rfl
  obtain ⟨left, gone⟩ := abandonMoves_left (ccmStop_ended s) (by exact keysRise_map _ hs.cores) s.ccm.moves
  rw [goes]
  refine ⟨?_, rfl, ?_, rfl, rfl, fun k r h => ?_⟩
  · rw [ccmEn, getLsbD_wrField _ _ _ _ 0 (by decide)]
    rfl
  · exact List.eq_nil_iff_forall_not_mem.mpr fun m hm => gone m hm m (left.moves m hm) rfl
  · have op : (getCore s1 k).ccm = some r := h
    rw [left.ops] at op
    refine ⟨ccmStop_ended s k r op, fun q hq => ?_⟩
    rw [ccmStop_op, hq] at op
    rw [← Option.some.inj op, stopOp]
    split <;> rfl

/-! ## The slot table is enabled (R269) -/

theorem bits_wrField_self {n : Nat} (reg : BitVec n) (v lo w : Nat) (h : lo + w ≤ n) : bits (wrField reg v lo w).toNat lo w = bits v lo w := by
  refine Nat.eq_of_testBit_eq fun i => ?_
  rw [bits, bits, Nat.testBit_mod_two_pow, Nat.testBit_mod_two_pow, Nat.testBit_shiftRight, Nat.testBit_shiftRight]
  by_cases hi : i < w
  · rw [BitVec.testBit_toNat, getLsbD_wrField _ _ _ _ _ (by omega), if_pos (by omega)]
  · simp [hi]

theorem bits_wrField_other {n : Nat} (reg : BitVec n) (v : Nat) {lo w lo' w' : Nat} (h : lo' + w' ≤ n)
    (apart : lo' + w' ≤ lo ∨ lo + w ≤ lo') : bits (wrField reg v lo w).toNat lo' w' = bits reg.toNat lo' w' := by
  refine Nat.eq_of_testBit_eq fun i => ?_
  rw [bits, bits, Nat.testBit_mod_two_pow, Nat.testBit_mod_two_pow, Nat.testBit_shiftRight, Nat.testBit_shiftRight]
  by_cases hi : i < w'
  · rw [BitVec.testBit_toNat, BitVec.testBit_toNat, getLsbD_wrField _ _ _ _ _ (by omega), if_neg (by omega)]
  · simp [hi]

/-- TRN_SLOT_BASE as a value written leaves it. -/
def slotWord (s : State) (v : Nat) : BitVec 64 := wrField (wrField (wrField s.trn.slotBase v 0 1) v 12 36) v 48 4

theorem slotWord_en (s : State) (v : BitVec 64) : (slotWord s v.toNat).getLsbD 0 = v.getLsbD 0 := by
  rw [slotWord, getLsbD_wrField _ _ _ _ _ (by decide), if_neg (by decide), getLsbD_wrField _ _ _ _ _ (by decide), if_neg (by decide),
    getLsbD_wrField _ _ _ _ _ (by decide), if_pos (by decide)]
  rfl

theorem slotWord_base (s : State) (v : BitVec 64) : bits (slotWord s v.toNat).toNat 12 36 = v.toNat / 4096 % 2 ^ 36 := by
  rw [slotWord, bits_wrField_other _ _ (by decide) (by decide), bits_wrField_self _ _ _ _ (by decide), bits, Nat.shiftRight_eq_div_pow]

/-- A state with another TRN_SLOT_BASE. -/
def withSlot (s : State) (b : BitVec 64) : State := { s with trn := { s.trn with slotBase := b } }

theorem slotTab_withSlot (s : State) (b : BitVec 64) : slotTab (withSlot s b) = bits b.toNat 12 36 * 4096 := by
  rw [slotTab, withSlot]

theorem read_withSlot (s : State) (b : BitVec 64) (r : Reach) (a n : Nat) : Machine.read (withSlot s b) r a n = Machine.read s r a n :=
  read_of_ground rfl rfl rfl ..

/-- The committed step taken from what was read, where it could be. -/
def loaded (s : State) (r : Rd) : State :=
  match r.err with
  | some _ => s
  | none => { s with trn := { s.trn with committed := BitVec.ofNat 32 (leNat r.data) } }

theorem loaded_slot (s : State) (b : BitVec 64) (r : Rd) : (loaded (withSlot s b) r).trn.slotBase = b := by
  unfold loaded
  split <;> rfl

theorem loaded_mem (s : State) (b : BitVec 64) (r : Rd) : (loaded (withSlot s b) r).mem = s.mem := by
  unfold loaded
  split <;> rfl

theorem loaded_step {r : Rd} (h : r.err = none) : (loaded s r).trn.committed = BitVec.ofNat 32 (leNat r.data) := by
  rw [loaded, h]

theorem writeSlotBase_eq (s : State) (v : Nat) : writeSlotBase s v = if bit v 0 then
    loaded (withSlot s (slotWord s v)) (Machine.read (withSlot s (slotWord s v)) .dram (slotTab (withSlot s (slotWord s v))) 4)
    else withSlot s (slotWord s v) := by
  unfold writeSlotBase
  rw [← slotWord]
  -- `id` has the kernel compare the two forms for every word and every reader, so that it evaluates neither.
  generalize slotWord s v = b, Machine.read = reads
  revert b reads
  refine id fun b reads => ?_
  dsimp only
  rw [show ({ s with trn := { s.trn with slotBase := b } } : State) = withSlot s b from rfl]
  generalize reads (withSlot s b) .dram (slotTab (withSlot s b)) 4 = r
  obtain ⟨data, err⟩ := r
  cases err <;> rfl

/-- Enabling loads the committed step from the header. -/
theorem writeSlotBase_enables {v : BitVec 64} {base : Nat} (on : v.getLsbD 0 = true)
    (at_ : v.toNat / 4096 % 2 ^ 36 * 4096 = base) (readable : (Machine.read s .dram base 4).err = none) :
    trnEn (writeSlotBase s v.toNat) = true ∧ slotTab (writeSlotBase s v.toNat) = base ∧
      (writeSlotBase s v.toNat).trn.committed.toNat = memLe s base 4 ∧ (writeSlotBase s v.toNat).mem = s.mem := by
  have data : (Machine.read s .dram base 4).data = memRead s.mem base 4 := by
    unfold Machine.read at readable ⊢
    split at readable
    next h => rw [if_pos h]
    next => cases readable
  have small : leNat (memRead s.mem base 4) < 4294967296 := by
    have := leNat_lt (memRead s.mem base 4)
    rw [memRead_length] at this
    omega
  have tab : bits (slotWord s v.toNat).toNat 12 36 * 4096 = base := by rw [slotWord_base, at_]
  have tab' : slotTab (withSlot s (slotWord s v.toNat)) = base := by rw [slotTab_withSlot, tab]
  have load := writeSlotBase_eq s v.toNat
  rw [bit_zero, if_pos on, read_withSlot, tab'] at load
  refine ⟨?_, ?_, ?_, ?_⟩
  · rw [trnEn, load, loaded_slot, slotWord_en, on]
  · rw [slotTab, load, loaded_slot, tab]
  · rw [load, loaded_step readable, data, BitVec.toNat_ofNat, Nat.mod_eq_of_lt (by omega), memLe]
  · rw [load, loaded_mem]

theorem writeSlotBase_disables {v : BitVec 64} (off : v.getLsbD 0 = false) :
    writeSlotBase s v.toNat = withSlot s (slotWord s v.toNat) := by
  rw [writeSlotBase_eq, bit_zero, off]
  rfl

/-- A state with another TRN_SLOT_BASE differs in nothing else. -/
theorem withSlot_fields (s : State) (b : BitVec 64) : trnEn (withSlot s b) = b.getLsbD 0 ∧
    (withSlot s b).trn.committed = s.trn.committed ∧ (withSlot s b).mem = s.mem := ⟨rfl, rfl, rfl⟩

/-! ## O48 -/

theorem patrolScrub_exec (addr : BitVec 48) (found : ScrubResult) : exec (.patrolScrub addr found) s =
    .next (let a := addr.toNat / 64 * 64
      if !(scrubOn s) || region a != .dram || decide (dramBytes s ≤ a) || linePoison s.mem a then s
      else meetErr s a (scrubFinds s a found)) := by
  show execPatrolScrub addr found s = _
  unfold execPatrolScrub
  exact (apply_ite Host.Outcome.next _ _ _).symm

theorem patrolScrub_none {addr : BitVec 48} {found : ScrubResult} (none : scrubFinds s (addr.toNat / 64 * 64) found = .none) :
    exec (.patrolScrub addr found) s = .next s := by
  rw [patrolScrub_exec]
  dsimp only
  rw [none]
  exact congrArg Host.Outcome.next (ite_self s)

theorem patrolScrub_reads {addr : BitVec 48} (on : scrubOn s = true) (dram : region (addr.toNat / 64 * 64) = .dram)
    (inside : addr.toNat / 64 * 64 < dramBytes s) (clean : linePoison s.mem (addr.toNat / 64 * 64) = false) (found : ScrubResult) :
    exec (.patrolScrub addr found) s = .next (meetErr s (addr.toNat / 64 * 64) (scrubFinds s (addr.toNat / 64 * 64) found)) := by
  rw [patrolScrub_exec]
  simp only [on, dram, clean, decide_eq_false (Nat.not_le.mpr inside)]
  rfl

theorem inSram_of {a : Nat} (h : (∃ k, region a = .core k ∨ region a = .cluster k) ∨ region a = .red) : inSram a = true := by
  rcases h with ⟨k, h | h⟩ | h <;> rw [inSram, h]

/-- What a scrub of on-package SRAM finds. -/
theorem sramScrub_gives (hs : Sound s) {addr : BitVec 48} {a : Nat} (ha : a = addr.toNat / 64 * 64) (on : scrubOn s = true)
    (sram : inSram a = true) (lit : inDark s a = false) (there : addrExists s a = true) (clean : linePoison s.mem a = false)
    (room : s.err.failLog.length < 4032) :
    (Gives (.sramScrub addr .corrected) s fun t => t.mr.sramCorrected = satAdd s.mr.sramCorrected 1 ∧ t.mem = s.mem) ∧
    (smGet false s.mr.sramBad (a / 64) = false → Gives (.sramScrub addr .uncorrected) s fun t =>
      t.mr.sramUncorrected = satAdd s.mr.sramUncorrected 1 ∧ smGet false t.mr.sramBad (a / 64) = true ∧
      (∀ x, memByte t.mem x = memByte s.mem x) ∧
      (∀ l, linePoison t.mem l = (linePoison s.mem l || decide (l / 64 = a / 64))) ∧ logged s t 5) ∧
    (∀ k, region a = .core k → smGet false s.mr.sramBad (a / 64) = true → imageRuns s = true →
      Gives (.sramScrub addr .uncorrected) s fun t => coreAvail t k = false) := by
  have reads := sramScrub_reads ha on sram lit there clean
  have mr : (touch s a).mr = s.mr := touch_mr s a
  have err : (touch s a).err = s.err := err_eq (by simp)
  have touched : KeepsSound s (touch s a) := by simp
  have sound : Sound (touch s a) := touched.2 (.inl hs)
  refine ⟨⟨_, reads .corrected, ?_, ?_⟩, fun first => ⟨_, reads .uncorrected, ?_⟩, fun k core again runs => ⟨_, reads .uncorrected, ?_⟩⟩
  · rw [sramRead, noteCorrected_mr, mr]
  · rw [sramRead, noteCorrected_mem]
    exact touch_mem s a
  · obtain ⟨counted, bad, marked⟩ := sramReported_marks sound a (by rw [err]; exact room)
    have log : s.err.failLog = (touch s a).err.failLog := by rw [err]
    obtain ⟨e, he, kind⟩ := marked.log
    rw [sramRead, mr, first, if_neg Bool.false_ne_true]
    exact ⟨counted.trans (by rw [mr]), bad, fun x => (marked.bytes x).trans (by rw [touch_mem]),
      fun l => (marked.marks l).trans (by rw [touch_mem]), ⟨e, by rw [he, log], kind⟩⟩
  · have fw : (touch s a).fw = s.fw := fw_eq (by simp)
    rw [sramRead, mr, again, if_pos rfl]
    exact sramTwice_core sound core (by rw [imageRuns, fw, err, ← imageRuns]; exact runs)

theorem ccmReady_gives (hs : Sound s) (on : ccmEn s = true) (waits : s.mr.ready = false) : Gives .ccmReady s fun t =>
    t.mr = { s.mr with ready := true } ∧ t.ccm = s.ccm ∧
    SameMem s t [(ccmMeta s + 8 * frameTotal s, (freeBitmap s).length)] := by
  let s1 := write s .dram (ccmMeta s + 8 * frameTotal s) (freeBitmap s)
  have mr : s1.mr = s.mr := mr_eq (by simp [s1])
  refine ⟨{ s1 with mr := { s1.mr with ready := true } }, ?_, by rw [mr], write_ccm .., ?_⟩
  · show execCcmReady s = _
    rw [execCcmReady, on, waits]
    rfl
  · exact (stores_write hs.mem ..).same

/-- Settles O48. -/
theorem scrubAndTables : Obligations.ScrubAndTables := by
  unfold Obligations.ScrubAndTables
  refine ⟨fun s addr hs on => ?_, fun p v s hs served => ⟨fun off set => ?_, fun en clear => ?_, fun en set => ?_, ccmReady_gives hs, ?_, ?_⟩⟩
  · intro a ch c hit dark
    refine ⟨fun found none => ⟨s, patrolScrub_none none, rfl⟩, ?_, fun found dram inside clean room => ⟨fun met => ?_, fun met => ?_⟩,
      fun sram lit there clean room => ?_⟩
    · refine ⟨_, sramScrub_exec addr .clean, ?_⟩
      dsimp only
      split
      · exact ⟨rfl, rfl, rfl, rfl⟩
      · exact ⟨touch_mem .., touch_mr .., err_eq (by simp [sramRead]), cores_eq (by simp [sramRead])⟩
    · exact ⟨_, met ▸ patrolScrub_reads on dram inside clean found, meetErr_correctable a hs⟩
    · obtain ⟨counted, marked⟩ := meetErr_uncorrectable a hs room
      exact ⟨_, met ▸ patrolScrub_reads on dram inside clean found, counted, marked.bytes, marked.marks, marked.log⟩
    · exact sramScrub_gives hs rfl on (inSram_of sram) lit there clean room
  · exact ⟨_, congrArg Host.Outcome.next (hostSetup_served served ..), writeSeqBase_enables off set⟩
  · exact ⟨_, congrArg Host.Outcome.next (hostSetup_served served ..), writeSeqBase_disables hs en clear⟩
  · refine ⟨_, congrArg Host.Outcome.next (hostSetup_served served ..), ?_⟩
    rw [writeSeqBase, en, bit_zero, set]
    rfl
  · intro base set readable
    exact ⟨_, congrArg Host.Outcome.next (hostSetup_served served ..), writeSlotBase_enables set rfl readable⟩
  · intro clear
    refine ⟨_, congrArg Host.Outcome.next (hostSetup_served served ..), ?_⟩
    have goes := writeSlotBase_disables (s := s) clear
    obtain ⟨en, step, mem⟩ := withSlot_fields s (slotWord s v.toNat)
    exact ⟨by rw [goes, en, slotWord_en, clear], by rw [goes, step], by rw [goes, mem]⟩

end Sys2Proof.Laws
end

section
/-! PROOFS. Outputs through a report. -/

namespace Sys2Proof.Laws

open Sys2Proof Sys2Proof.Machine
set_option Elab.async false

variable {s t u : State} {p q : HPort}

/-! ## Outputs through a report: what left before has left (R485, R588) -/

theorem OutKept.after (k : OutKept t u) (h : t.out = s.out) : OutKept s u := ⟨fun o ho => k.out o (by rw [h]; exact ho)⟩

theorem outKept_sendRead (s : State) (p : HPort) (a n : Nat) (w : ReadFor) : OutKept s (sendRead s p a n w) :=
  ⟨fun _ h => List.mem_append_left _ h⟩

theorem outKept_issueRead (s : State) (p : HPort) (a n : Nat) (w : ReadFor) : OutKept s (issueRead s p a n w) := by
  rw [issueRead]
  split
  · exact outKept_sendRead ..
  · exact .of_eq rfl

theorem outKept_toRing (s : State) (r : Bytes) (p : HPort) : OutKept s (toRing s r p) := by
  simp only [toRing]
  split
  · split
    · exact .of_eq rfl
    · exact .refl s
  · split
    · exact outKept_issueRead ..
    · exact .of_eq rfl

theorem OutKept.foldl {α : Type} {f : State → α → State} (h : ∀ s x, OutKept s (f s x)) (l : List α) (s : State) :
    OutKept s (l.foldl f s) :=
  List.foldlRecOn (motive := fun x => OutKept s x) l f (.refl s) fun x hx y _ => hx.trans (h x y)

theorem outKept_deliver (s : State) (r : Bytes) (l : List HPort) : OutKept s (deliver s r l) := by
  rw [deliver]
  split
  · split <;> exact .of_eq rfl
  · split
    · exact OutKept.foldl (fun _ _ => outKept_toRing ..) l s
    · exact .refl s

theorem outKept_emitEvent (s : State) (st : Status) (a b c d : Nat) (e : Bool) (x : Bytes) :
    OutKept s (emitEvent s st a b c d e x) := by
  dsimp only [emitEvent]
  split
  · exact (outKept_deliver ..).after rfl
  · exact .of_eq rfl

theorem outKept_flushWindow (s : State) (w : EventWindow) : OutKept s (flushWindow s w) := by
  dsimp only [flushWindow]
  split
  · exact .of_eq rfl
  · exact (outKept_emitEvent ..).after rfl

theorem outKept_raiseEvent (s : State) (st : Status) (i j : Nat) (d : Bytes) : OutKept s (raiseEvent s st i j d) := by
  dsimp only [raiseEvent]
  split
  · exact (outKept_emitEvent ..).after rfl
  · split
    · exact .of_eq rfl
    · exact (outKept_flushWindow s _).trans ((outKept_emitEvent ..).after rfl)

theorem outKept_denyLine (s : State) (i : Nat) (w : Bool) (a : Nat) : OutKept s (denyLine s i w a) :=
  (outKept_raiseEvent ..).after rfl

theorem outKept_noteCorrected (s : State) (n : BitVec 32) (i j a : Nat) : OutKept s (noteCorrected s n i j a) := by
  rw [noteCorrected]
  split
  · exact outKept_raiseEvent ..
  · exact .refl s

theorem outKept_touch (s : State) (a : Nat) : OutKept s (touch s a) := .of_eq (out_eq (by simp))

theorem outKept_setPort (s : State) (p : HPort) (x : HostPortState) : OutKept s (setPort s p x) := by
  cases p <;> exact .of_eq rfl

end Sys2Proof.Laws
end

section
/-! PROOFS. BAR4 accesses and completions of the module's reads (O26). -/

namespace Sys2Proof.Laws

open Sys2Proof Sys2Proof.Machine
set_option Elab.async false

variable {s t u : State} {p q : HPort}

/-! ## Marks of lines that are written (R331) -/

theorem memStore_poison (m : Mem) (a : Nat) (bs : Bytes) : (memStore m a bs).poison = m.poison := by
  induction bs generalizing m a with
  | nil => rfl
  | cons b bs ih => exact ih ..

theorem linePoison_set {m : Mem} (h : Memory.wf m = true) (k x : Nat) (p : Bool) :
    linePoison (setPoison m k p) x = if x / 64 = k then p else linePoison m x := by
  obtain ⟨-, marks⟩ := wf_iff.mp h
  simp only [linePoison, setPoison]
  split
  next e => rw [e, smGet_smSet_self marks]
  next e => rw [smGet_smSet_other marks e]

/-- Bytes of one line written: the line has the mark of the write where it had none. -/
theorem linePoison_memWrite_part {m : Mem} (h : Memory.wf m = true) {a : Nat} {bs : Bytes} {l : Nat} (poison : Bool)
    (some : 0 < bs.length) (inside : l * 64 ≤ a ∧ a + bs.length ≤ l * 64 + 64) (clean : linePoison m (l * 64) = false) (x : Nat) :
    linePoison (memWrite m a bs poison) x = if x / 64 = l then poison else linePoison m x := by
  have one : (a + bs.length - 1) / 64 - a / 64 + 1 = 1 := by omega
  have line : a / 64 + 0 = l := by omega
  have wf : Memory.wf (memStore m a bs) = true := memStore_wf h
  have marks (y : Nat) : linePoison (memStore m a bs) y = linePoison m y := by rw [linePoison, memStore_poison, ← linePoison]
  have was : x / 64 = l → linePoison m x = false := by
    intro e
    rw [← clean, linePoison, linePoison, e, Nat.mul_div_cancel _ (by decide)]
  rw [memWrite, if_neg (by omega), one]
  simp only [markLines, line]
  split
  next yes => rw [linePoison_set wf, marks, yes]
  next no =>
    have none : poison = false := by simpa using no
    split
    · rw [linePoison_set wf, marks, none]
    · rw [marks, none]
      split
      next e => exact was e
      next => rfl

theorem linePoison_storeLines {m : Mem} (h : Memory.wf m = true) {takes : Nat → Bool} {a : Nat} {bs : Bytes} {poison : Bool} {ls : List Nat}
    (sub : ∀ l ∈ ls, l ∈ linesOf a bs.length) (nodup : ls.Nodup) (clean : ∀ l ∈ ls, takes l = true → linePoison m l = false) (x : Nat)
    (hx : x % 64 = 0) : linePoison (storeLines takes a bs (fun _ => poison) ls m) x =
      if x ∈ ls ∧ takes x = true then poison else linePoison m x := by
  induction ls generalizing m with
  | nil => simp [storeLines]
  | cons l ls ih =>
    obtain ⟨fresh, nodup'⟩ := List.nodup_cons.mp nodup
    have own := mem_linesOf.mp (sub l (by simp))
    rw [storeLines_cons]
    cases ht : takes l with
    | false =>
      rw [if_neg Bool.false_ne_true, ih h (fun y hy => sub y (by simp [hy])) nodup' (fun y hy => clean y (by simp [hy]))]
      by_cases e : x = l
      · subst e
        simp [ht, fresh]
      · simp [e]
    | true =>
      have here : l / 64 * 64 = l := by omega
      have part : 0 < (linePart a bs l).2.length ∧ l / 64 * 64 ≤ (linePart a bs l).1 ∧
          (linePart a bs l).1 + (linePart a bs l).2.length ≤ l / 64 * 64 + 64 := by
        simp only [linePart, List.length_take, List.length_drop]
        omega
      have mark := linePoison_memWrite_part h (l := l / 64) poison part.1 part.2 (by rw [here]; exact clean l (by simp) ht)
      have other (y : Nat) (hy : y ∈ ls) : linePoison (memWrite m (linePart a bs l).1 (linePart a bs l).2 poison) y = linePoison m y := by
        have ne : y ≠ l := fun e => fresh (e ▸ hy)
        have al := (mem_linesOf.mp (sub y (by simp [hy]))).2.1
        rw [mark, if_neg (by omega)]
      rw [if_pos rfl, ih (memWrite_wf h) (fun y hy => sub y (by simp [hy])) nodup'
        (fun y hy yes => (other y hy).trans (clean y (by simp [hy]) yes)), mark]
      by_cases e : x = l
      · subst e
        simp [ht, fresh]
      · simp [e, show x / 64 ≠ l / 64 by omega]

/-! ## A line of BAR4 (R481, R482, R491) -/

/-- A line that does not answer: counted, and nothing else of memory, of its counts or of the host interface's grants. -/
structure LineDenied (p : HPort) (s t : State) : Prop where
  mem : t.mem = s.mem
  mr : t.mr = s.mr
  ground : ground t = ground s
  denied : (getPort t p).denied = satAdd (getPort s p).denied 1
  out : OutKept s t

theorem ground_countDenied (s : State) (p : HPort) : ground (countDenied s p) = ground s := by
  refine ground_of_parts (by cases p <;> rfl) (by cases p <;> rfl) (by cases p <;> rfl) (by cases p <;> rfl) (fun q => ?_) (by cases p <;> rfl)
  cases p <;> cases q <;> exact ⟨rfl, rfl⟩

theorem lineDenied_countDenied (s : State) (p : HPort) : LineDenied p s (countDenied s p) :=
  ⟨by cases p <;> rfl, by cases p <;> rfl, ground_countDenied s p, by rw [countDenied, getPort_setPort_self], outKept_setPort ..⟩

theorem LineDenied.denyLine (h : LineDenied p s t) (i : Nat) (w : Bool) (a : Nat) : LineDenied p s (denyLine t i w a) :=
  ⟨(mem_eq (by simp)).trans h.mem, (mr_eq (by simp)).trans h.mr, (ground_denyLine ..).trans h.ground,
    ((denyLine_reported ..).ofPort p (·.denied) fun _ => rfl).trans h.denied, h.out.trans (outKept_denyLine ..)⟩

theorem bar4Line_open {w : Bool} {l : Nat} (h : bar4Open s p w l = true) : bar4Line s p w l = (touch s l, true) := by
  simp only [bar4Open, Bool.and_eq_true] at h
  obtain ⟨⟨reach, grant⟩, there⟩ := h
  have some : (wtLookup s (initBar4 p) w 0 l).isNone = false := by simpa using grant
  rw [bar4Line, reach, some, there]
  rfl

theorem bar4Line_shut {w : Bool} {l : Nat} (h : bar4Open s p w l = false) :
    (bar4Line s p w l).2 = false ∧ LineDenied p s (bar4Line s p w l).1 := by
  rw [bar4Line]
  split
  · exact ⟨rfl, lineDenied_countDenied s p⟩
  next reach =>
    split
    · exact ⟨rfl, (lineDenied_countDenied s p).denyLine ..⟩
    next grant =>
      split
      next there =>
        refine absurd h ?_
        have some : (wtLookup s (initBar4 p) w 0 l).isSome = true := by simpa [Option.isSome_iff_ne_none] using grant
        simp only [bar4Open, some, there, show reaches .dma (region l) = true by simpa using reach]
        decide
      · exact ⟨rfl, lineDenied_countDenied s p⟩

theorem bar4Open_of_ground (h : ground t = ground s) (w : Bool) (l : Nat) : bar4Open t p w l = bar4Open s p w l := by
  have wt : t.hif.wt = s.hif.wt := by
    simp only [ground, Prod.mk.injEq] at h
    exact h.2.2.2.1
  have there : addrExists t = addrExists s := funext (addrExists_of_ground h)
  simp only [bar4Open, wtLookup, wt, spanExists, there]

theorem getPort_of_hif (h : t.hif = s.hif) (p : HPort) : getPort t p = getPort s p := by
  cases p <;> simp only [getPort, h]

theorem getPort_touch (s : State) (a : Nat) (p : HPort) : getPort (touch s a) p = getPort s p :=
  getPort_of_hif (hif_eq (by simp)) p

/-! ## BAR4 writes -/

/-- Whether a line of a BAR4 write takes its bytes. -/
def bar4Takes (s : State) (p : HPort) (w : Bool) (l : Nat) : Bool := bar4Open s p w l && !(linePoison s.mem l)

/-- The count of denied lines after those of a list that do not take theirs. -/
def deniedAfter (takes : Nat → Bool) (ls : List Nat) (n : BitVec 24) : BitVec 24 :=
  (ls.filter (fun l => !(takes l))).foldl (fun n _ => satAdd n 1) n

/-- A line that takes its bytes. -/
theorem bar4WriteLine_takes {a l : Nat} {data : Bytes} {poisoned : Bool} (h : bar4Takes s p true l = true) :
    bar4WriteLine p a data poisoned s l =
      setMem (touch s l) (memWrite s.mem (linePart a data l).1 (linePart a data l).2 poisoned) := by
  rw [bar4Takes, Bool.and_eq_true] at h
  obtain ⟨opens, clean⟩ := h
  rw [bar4WriteLine, bar4Line_open opens]
  simp only [Bool.not_true, Bool.false_eq_true, if_false, touch_mem, show linePoison s.mem l = false by simpa using clean]

theorem bar4WriteLine_denied {a l : Nat} {data : Bytes} {poisoned : Bool} (h : bar4Takes s p true l = false) :
    LineDenied p s (bar4WriteLine p a data poisoned s l) := by
  rw [bar4WriteLine]
  cases opens : bar4Open s p true l with
  | false =>
    obtain ⟨shut, denied⟩ := bar4Line_shut opens
    simp only [shut, Bool.not_false, if_true]
    exact denied
  | true =>
    have marked : linePoison s.mem l = true := by
      rw [bar4Takes, opens] at h
      simpa using h
    rw [bar4Line_open opens]
    simp only [Bool.not_true, Bool.false_eq_true, if_false, touch_mem, marked, if_true]
    have denied := lineDenied_countDenied (touch s l) p
    refine ⟨denied.mem.trans (touch_mem s l), denied.mr.trans (mr_eq (by simp)), denied.ground.trans (ground_touch s l), ?_,
      (outKept_touch s l).trans denied.out⟩
    rw [denied.denied, getPort_touch]

/-- What a list of lines leaves of a BAR4 write. -/
structure Bar4Wrote (p : HPort) (a : Nat) (data : Bytes) (poisoned : Bool) (takes : Nat → Bool) (ls : List Nat) (s t : State) : Prop where
  mem : t.mem = storeLines takes a data (fun _ => poisoned) ls s.mem
  ground : ground t = ground s
  denied : (getPort t p).denied = deniedAfter takes ls (getPort s p).denied
  clean : (∀ l ∈ ls, takes l = true) → t.out = s.out ∧ t.hif = s.hif

theorem deniedAfter_cons (takes : Nat → Bool) (l : Nat) (ls : List Nat) (n : BitVec 24) :
    deniedAfter takes (l :: ls) n = deniedAfter takes ls (if takes l then n else satAdd n 1) := by
  rw [deniedAfter, List.filter_cons]
  cases takes l <;> rfl

/-- The lines of a write, in turn: each finds the marks that it had, for those before it have marked none but their own. -/
theorem bar4Write_lines (hs : Memory.wf s.mem = true) (a : Nat) (data : Bytes) (poisoned : Bool) {ls : List Nat} {takes : Nat → Bool}
    (sub : ∀ l ∈ ls, l ∈ linesOf a data.length) (nodup : ls.Nodup) (same : ∀ l ∈ ls, bar4Takes s p true l = takes l) :
    Bar4Wrote p a data poisoned takes ls s (ls.foldl (bar4WriteLine p a data poisoned) s) := by
  induction ls generalizing s with
  | nil => exact ⟨rfl, rfl, rfl, fun _ => ⟨rfl, rfl⟩⟩
  | cons l ls ih =>
    obtain ⟨fresh, nodup'⟩ := List.nodup_cons.mp nodup
    have own := mem_linesOf.mp (sub l (by simp))
    rw [List.foldl_cons]
    cases ht : takes l with
    | true =>
      have now := (same l (by simp)).trans ht
      have clean : linePoison s.mem l = false := by
        rw [bar4Takes, Bool.and_eq_true] at now
        simpa using now.2
      let x := bar4WriteLine p a data poisoned s l
      have goes : x = setMem (touch s l) (memWrite s.mem (linePart a data l).1 (linePart a data l).2 poisoned) := bar4WriteLine_takes now
      have mem : x.mem = storeLines takes a data (fun _ => poisoned) [l] s.mem := by
        rw [goes, storeLines_cons, if_pos ht]
        rfl
      have grounds : ground x = ground s := by rw [goes, ground_setMem, ground_touch]
      have others (y : Nat) (hy : y ∈ ls) : bar4Takes x p true y = takes y := by
        have ne : y ≠ l := fun e => fresh (e ▸ hy)
        have al := (mem_linesOf.mp (sub y (by simp [hy]))).2.1
        have mark := linePoison_storeLines hs (takes := takes) (poison := poisoned) (ls := [l]) (fun z hz => sub z (by simp_all)) (by simp)
          (fun z hz _ => by rw [List.mem_singleton.mp hz]; exact clean) y al
        rw [← same y (by simp [hy]), bar4Takes, bar4Takes, bar4Open_of_ground grounds, mem, mark, if_neg (by simp [ne])]
      have wf : Memory.wf x.mem = true := by rw [mem]; exact storeLines_wf hs ..
      obtain ⟨mem', ground', denied', clean'⟩ := ih wf (fun y hy => sub y (by simp [hy])) nodup' others
      have hif : x.hif = s.hif := by
        rw [goes]
        exact hif_eq (t := touch s l) (by simp)
      have out : x.out = s.out := by
        rw [goes]
        exact out_eq (t := touch s l) (by simp)
      refine ⟨?_, ground'.trans grounds, ?_, fun all => ?_⟩
      · rw [mem', mem, storeLines_cons, storeLines_cons]
        rfl
      · rw [denied', deniedAfter_cons, if_pos ht, getPort_of_hif hif]
      · obtain ⟨out', hif'⟩ := clean' fun y hy => all y (by simp [hy])
        exact ⟨out'.trans out, hif'.trans hif⟩
    | false =>
      obtain ⟨mem, -, grounds, denied, -⟩ := bar4WriteLine_denied (a := a) (data := data) (poisoned := poisoned) ((same l (by simp)).trans ht)
      obtain ⟨mem', ground', denied', -⟩ := ih (by rw [mem]; exact hs) (fun y hy => sub y (by simp [hy])) nodup'
        (fun y hy => by rw [← same y (by simp [hy]), bar4Takes, bar4Takes, bar4Open_of_ground grounds, mem])
      refine ⟨?_, ground'.trans grounds, ?_, fun all => absurd (all l (by simp)) (by simp [ht])⟩
      · rw [mem', mem, storeLines_cons, ht, if_neg Bool.false_ne_true]
      · rw [denied', denied, deniedAfter_cons, ht, if_neg Bool.false_ne_true]

theorem bar4Write_exec (served : hostPath s p = .served) (off : BitVec 36) (data : Bytes) (poisoned : Bool) :
    exec (.bar4Write p off data poisoned) s = .next (bar4Write p off.toNat data poisoned s) := by
  show execBar4Write p off data poisoned s = _
  rw [execBar4Write, served]

theorem bar4Write_gives (hs : Sound s) (served : hostPath s p = .served) (off : BitVec 36) (data : Bytes) (poisoned : Bool)
    {a : Nat} (ha : aperAddr s p off.toNat = a) :
    ((∀ l ∈ linesOf a data.length, bar4Open s p true l = true ∧ linePoison s.mem l = false) →
      Gives (.bar4Write p off data poisoned) s fun t =>
        memRead t.mem a data.length = data ∧ SameMem s t [(a, data.length)] ∧ t.out = s.out ∧ t.hif = s.hif ∧
        ∀ l ∈ linesOf a data.length, linePoison t.mem l = poisoned) ∧
    Gives (.bar4Write p off data poisoned) s fun t =>
      SameMem s t [(a, data.length)] ∧
      (∀ i < data.length, memByte t.mem (a + i) =
        if bar4Takes s p true ((a + i) / 64 * 64) then byteAt data i else memByte s.mem (a + i)) ∧
      (∀ l ∈ linesOf a data.length, linePoison t.mem l = if bar4Takes s p true l then poisoned else linePoison s.mem l) ∧
      (getPort t p).denied = deniedAfter (bar4Takes s p true) (linesOf a data.length) (getPort s p).denied := by
  have wrote := bar4Write_lines (p := p) hs.mem a data poisoned (ls := linesOf a data.length) (takes := bar4Takes s p true)
    (fun _ h => h) (linesOf_nodup ..) (fun _ _ => rfl)
  have goes : bar4Write p off.toNat data poisoned s = (linesOf a data.length).foldl (bar4WriteLine p a data poisoned) s := by
    rw [bar4Write, ha]
  rw [← goes] at wrote
  obtain ⟨mem, -, denied, clean⟩ := wrote
  have aligned : ∀ l ∈ linesOf a data.length, l % 64 = 0 := fun l hl => (mem_linesOf.mp hl).2.1
  have byte (x : Nat) := memByte_storeLines hs.mem (takes := bar4Takes s p true) (a := a) (bs := data) (poison := fun _ => poisoned) aligned x
  have mark (l : Nat) (hl : l ∈ linesOf a data.length) := linePoison_storeLines hs.mem (takes := bar4Takes s p true) (a := a) (bs := data)
    (poison := poisoned) (fun _ h => h) (linesOf_nodup ..) (fun l _ yes => by
      rw [bar4Takes, Bool.and_eq_true] at yes
      simpa using yes.2) l (aligned l hl)
  have sameMem : SameMem s (bar4Write p off.toNat data poisoned s) [(a, data.length)] := fun x hx => by
    rw [mem, byte, if_neg fun c => hx (a, data.length) (by simp) c.2.2]
  have bytes (i : Nat) (hi : i < data.length) : memByte (bar4Write p off.toNat data poisoned s).mem (a + i) =
      if bar4Takes s p true ((a + i) / 64 * 64) then byteAt data i else memByte s.mem (a + i) := by
    have line : (a + i) / 64 * 64 ∈ linesOf a data.length := mem_linesOf.mpr ⟨by omega, by omega, by omega, by omega⟩
    rw [mem, byte, Nat.add_sub_cancel_left]
    simp only [line, true_and, show a ≤ a + i ∧ a + i < a + data.length by omega, and_true]
  refine ⟨fun good => ⟨_, bar4Write_exec served off data poisoned, ?_⟩, ⟨_, bar4Write_exec served off data poisoned, sameMem, bytes, ?_, denied⟩⟩
  · have all : ∀ l ∈ linesOf a data.length, bar4Takes s p true l = true := fun l hl => by
      rw [bar4Takes, (good l hl).1, (good l hl).2]
      rfl
    obtain ⟨out, hif⟩ := clean all
    refine ⟨List.ext_getElem (memRead_length ..) fun i h1 h2 => ?_, sameMem, out, hif, fun l hl => ?_⟩
    · simp only [memRead, List.getElem_map, List.getElem_range]
      rw [bytes i h2, if_pos (all _ (mem_linesOf.mpr ⟨by omega, by omega, by omega, by omega⟩))]
      simp [byteAt, h2]
    · rw [mem, mark l hl, if_pos ⟨hl, all l hl⟩]
  · intro l hl
    rw [mem, mark l hl]
    simp only [hl, true_and]

/-! ## BAR4 reads -/

/-- The part of a line that a read asks for. -/
def partLo (a l : Nat) : Nat := max a l

/-- Its length. -/
def partLen (a n l : Nat) : Nat := min (a + n) (l + 64) - max a l

/-- A line without an error that answers. -/
theorem bar4ReadLine_gives {a n l : Nat} (h : bar4Takes s p false l = true) (none : smGet LineErr.none s.mr.dramErr (l / 64) = .none) :
    bar4ReadLine p a n s l = emit (touch s l) (.readDone p (memRead s.mem (partLo a l) (partLen a n l)) false) := by
  rw [bar4Takes, Bool.and_eq_true] at h
  obtain ⟨opens, clean⟩ := h
  have met : demandLine (touch s l) l = touch s l := by
    rw [demandLine, touch_mr, none]
    exact ite_self _
  rw [bar4ReadLine, bar4Line_open opens]
  simp only [Bool.not_true, Bool.false_eq_true, if_false, met, touch_mem, show linePoison s.mem l = false by simpa using clean]
  rfl

/-- A line without an error that is denied or poisoned. -/
theorem bar4ReadLine_zeros {a n l : Nat} (h : bar4Takes s p false l = false) (none : smGet LineErr.none s.mr.dramErr (l / 64) = .none) :
    ∃ x, LineDenied p s x ∧ bar4ReadLine p a n s l = emit x (.readDone p (zeroBytes (partLen a n l)) true) := by
  rw [bar4ReadLine]
  cases opens : bar4Open s p false l with
  | false =>
    obtain ⟨shut, denied⟩ := bar4Line_shut opens
    refine ⟨_, denied, ?_⟩
    simp only [shut, Bool.not_false, if_true]
    rfl
  | true =>
    have marked : linePoison s.mem l = true := by
      rw [bar4Takes, opens] at h
      simpa using h
    have met : demandLine (touch s l) l = touch s l := by
      rw [demandLine, touch_mr, none]
      exact ite_self _
    have denied := lineDenied_countDenied (touch s l) p
    refine ⟨countDenied (touch s l) p, ⟨denied.mem.trans (touch_mem s l), denied.mr.trans (touch_mr s l), denied.ground.trans (ground_touch s l),
      by rw [denied.denied, getPort_touch], (outKept_touch s l).trans denied.out⟩, ?_⟩
    rw [bar4Line_open opens]
    simp only [Bool.not_true, Bool.false_eq_true, if_false, met, touch_mem, marked, if_true]
    rfl

/-- What a line answers. -/
def bar4Answer (s : State) (p : HPort) (a n l : Nat) : Output :=
  .readDone p (if bar4Takes s p false l then memRead s.mem (partLo a l) (partLen a n l) else zeroBytes (partLen a n l))
    (!(bar4Takes s p false l))

/-- What a list of lines leaves of a BAR4 read of a memory without errors. -/
structure Bar4Was (p : HPort) (a n : Nat) (ls : List Nat) (s t : State) : Prop where
  mem : t.mem = s.mem
  answers : ∀ l ∈ ls, bar4Answer s p a n l ∈ t.out
  denied : (getPort t p).denied = deniedAfter (bar4Takes s p false) ls (getPort s p).denied
  out : OutKept s t

theorem bar4Read_lines (a n : Nat) (none : s.mr.dramErr = []) (ls : List Nat) :
    Bar4Was p a n ls s (ls.foldl (bar4ReadLine p a n) s) := by
  induction ls generalizing s with
  | nil => exact ⟨rfl, fun _ h => absurd h (by simp), rfl, .refl s⟩
  | cons l ls ih =>
    have clean : smGet LineErr.none s.mr.dramErr (l / 64) = .none := by rw [none]; rfl
    let x := bar4ReadLine p a n s l
    have one : x.mem = s.mem ∧ x.mr = s.mr ∧ ground x = ground s ∧ bar4Answer s p a n l ∈ x.out ∧ OutKept s x ∧
        (getPort x p).denied = if bar4Takes s p false l then (getPort s p).denied else satAdd (getPort s p).denied 1 := by
      cases ht : bar4Takes s p false l with
      | true =>
        have goes : x = _ := bar4ReadLine_gives ht clean
        rw [goes, bar4Answer, ht]
        exact ⟨touch_mem s l, touch_mr s l, ground_touch s l, List.mem_append_right _ (List.mem_singleton_self _),
          (outKept_touch s l).trans (outKept_emit _ _), congrArg HostPortState.denied (getPort_touch s l p)⟩
      | false =>
        obtain ⟨y, denied, goes⟩ := bar4ReadLine_zeros (a := a) (n := n) ht clean
        have goes : x = _ := goes
        rw [goes, bar4Answer, ht]
        exact ⟨denied.mem, denied.mr, denied.ground, List.mem_append_right _ (List.mem_singleton_self _),
          denied.out.trans (outKept_emit _ _), denied.denied⟩
    obtain ⟨mem, mr, grounds, answer, out, denied⟩ := one
    have same : bar4Takes x p false = bar4Takes s p false := funext fun y => by
      rw [bar4Takes, bar4Takes, bar4Open_of_ground grounds, mem]
    obtain ⟨mem', answers', denied', out'⟩ := ih (s := x) (by rw [mr]; exact none)
    rw [List.foldl_cons]
    refine ⟨mem'.trans mem, fun y hy => ?_, ?_, out.trans out'⟩
    · rcases List.mem_cons.mp hy with rfl | hy
      · exact out'.out _ answer
      · have later := answers' y hy
        rw [bar4Answer, same, mem] at later
        exact later
    · rw [denied', same, denied, deniedAfter_cons]

theorem bar4Read_exec (served : hostPath s p = .served) (off : BitVec 36) (len : Nat) :
    exec (.bar4Read p off len) s = .next (bar4Read p off.toNat len s) := by
  show execBar4Read p off len s = _
  rw [execBar4Read, served]

section OneLine
variable (served : hostPath s p = .served) (off : BitVec 36) {len l a : Nat} (ha : aperAddr s p off.toNat = a) (one : linesOf a len = [l])
include served ha one

theorem bar4Read_line : exec (.bar4Read p off len) s = .next (bar4ReadLine p a len s l) := by
  rw [bar4Read_exec served, bar4Read, ha, one]
  rfl

omit served ha in
theorem part_all : partLo a l = a ∧ partLen a len l = len := by
  have whole (x : Nat) (h : a ≤ x ∧ x < a + len) : x / 64 * 64 = l := by
    have mem : x / 64 * 64 ∈ linesOf a len := mem_linesOf.mpr ⟨by omega, by omega, by omega, by omega⟩
    rw [one] at mem
    exact List.mem_singleton.mp mem
  have in_ := mem_linesOf.mp (by rw [one]; simp : l ∈ linesOf a len)
  have first := whole a (by omega)
  have last := whole (a + len - 1) (by omega)
  rw [partLo, partLen]
  omega

/-- A line with a correctable error answers with its bytes and is rid of the error. -/
theorem bar4Read_corrects (opens : bar4Open s p false l = true) (clean : linePoison s.mem l = false) (dram : region l = .dram)
    (err : smGet LineErr.none s.mr.dramErr (l / 64) = .correctable) (rises : keysRise s.mr.dramErr = true) :
    Gives (.bar4Read p off len) s fun t =>
      .readDone p (memRead s.mem a len) false ∈ t.out ∧ t.mem = s.mem ∧ smGet LineErr.none t.mr.dramErr (l / 64) = .none := by
  obtain ⟨lo, whole⟩ := part_all one
  have met : demandLine (touch s l) l = meetErr (touch s l) l .correctable := by
    rw [demandLine, if_pos dram, touch_mr, err]
  have fixed : (meetErr (touch s l) l .correctable).mem = s.mem ∧
      smGet LineErr.none (meetErr (touch s l) l .correctable).mr.dramErr (l / 64) = .none := by
    simp only [meetErr, noteCorrected_mem, noteCorrected_mr]
    exact ⟨touch_mem s l, get_set_self (by rw [touch_mr]; exact rises)⟩
  have goes : bar4ReadLine p a len s l = emit (meetErr (touch s l) l .correctable) (.readDone p (memRead s.mem a len) false) := by
    rw [bar4ReadLine, bar4Line_open opens]
    simp only [Bool.not_true, Bool.false_eq_true, if_false, met, fixed.1, clean]
    rw [show min (a + len) (l + 64) - max a l = len from whole, show max a l = a from lo]
  refine ⟨_, bar4Read_line served off ha one, ?_⟩
  rw [goes]
  exact ⟨List.mem_append_right _ (List.mem_singleton_self _), fixed.1, fixed.2⟩

/-- A line without an error answers with its bytes. -/
theorem bar4Read_answers (none : smGet LineErr.none s.mr.dramErr (l / 64) = .none) (takes : bar4Takes s p false l = true) :
    Gives (.bar4Read p off len) s fun t =>
      t.out = s.out ++ [.readDone p (memRead s.mem a len) false] ∧ t.mem = s.mem ∧ t.hif = s.hif := by
  obtain ⟨lo, whole⟩ := part_all one
  refine ⟨_, bar4Read_line served off ha one, ?_⟩
  rw [bar4ReadLine_gives takes none, lo, whole]
  exact ⟨congrArg (· ++ [_]) (out_eq (t := touch s l) (by simp)), touch_mem s l, hif_eq (t := touch s l) (by simp)⟩

/-- One that is denied or poisoned answers with zeros. -/
theorem bar4Read_zeros (none : smGet LineErr.none s.mr.dramErr (l / 64) = .none) (denies : bar4Takes s p false l = false) :
    Gives (.bar4Read p off len) s fun t =>
      t.out.getLast? = some (.readDone p (zeroBytes len) true) ∧ t.mem = s.mem ∧
      (getPort t p).denied = satAdd (getPort s p).denied 1 := by
  obtain ⟨-, whole⟩ := part_all one
  obtain ⟨x, denied, goes⟩ := bar4ReadLine_zeros (a := a) (n := len) denies none
  refine ⟨_, bar4Read_line served off ha one, ?_⟩
  rw [goes, whole]
  exact ⟨List.getLast?_concat .., denied.mem, denied.denied⟩

end OneLine

/-- A read of a memory without errors, line by line. -/
theorem bar4Read_gives (served : hostPath s p = .served) (none : s.mr.dramErr = []) (off : BitVec 36) (len : Nat) {a : Nat}
    (ha : aperAddr s p off.toNat = a) : Gives (.bar4Read p off len) s fun t =>
      t.mem = s.mem ∧ (∀ l ∈ linesOf a len, bar4Answer s p a len l ∈ t.out) ∧
      (getPort t p).denied = deniedAfter (bar4Takes s p false) (linesOf a len) (getPort s p).denied := by
  obtain ⟨mem, answers, denied, -⟩ := bar4Read_lines (p := p) a len none (linesOf a len)
  refine ⟨_, bar4Read_exec served off len, ?_⟩
  rw [bar4Read, ha]
  exact ⟨mem, answers, denied⟩

/-! ## Completions of the module's reads (R485, R532) -/

/-- A state without the outstanding reads of a tag. -/
def withoutRead (s : State) (p : HPort) (tag : Nat) : State :=
  { s with hif := { s.hif with reads := s.hif.reads.filter (fun x => !(x.port == p && x.tag == tag)) } }

theorem findRead_withoutRead (s : State) (p : HPort) (tag : Nat) : findRead (withoutRead s p tag) p tag = none := by
  rw [findRead, List.find?_eq_none]
  intro x hx
  have other := (List.mem_filter.mp hx).2
  simpa [imp_iff_not_or] using other

theorem dropRead_of_none {r : PcieRead} (idle : s.hif.readWait = []) : dropRead s r = withoutRead s r.port r.tag := by
  rw [dropRead, refillRead, idle]
  rfl

/-- What the head word of a ring decides of a record, where its read brought it. -/
def headCame (s : State) (p : HPort) (rec : Bytes) : Option Bytes → State
  | some d => ringWrite s p rec d
  | none => evDrop s

section Head
variable {rec : Bytes} {ring : EvRing} {tag : BitVec 14} {at_ : Nat} (idle : s.hif.readWait = []) (has : (getPort s p).ring = some ring)

include idle has

/-- The head of a ring that its port has replaced decides nothing: the new ring's head is read for the record. -/
theorem completion_of_replaced {no : Nat}
    (found : findRead s p tag.toNat = some { port := p, tag := tag.toNat, what := .eventHead rec no, issued := at_ })
    (new : ring.no ≠ no) (up : (getPort s p).linkUp = true) (data : Bytes) (good : Bool) : Gives (.pcieCompletion p tag data good) s fun t =>
      t.fw.evDrops = s.fw.evDrops ∧ t.mem = s.mem ∧ (getPort t p).ring = some ring ∧
      ((∃ r ∈ t.hif.reads, r.port = p ∧ r.what = .eventHead rec ring.no) ∨
        ∃ r ∈ t.hif.readWait, r.port = p ∧ r.what = .eventHead rec ring.no) := by
  have port : getPort (withoutRead s p tag.toNat) p = getPort s p := by cases p <;> rfl
  have goes : exec (.pcieCompletion p tag data good) s =
      .next (issueRead (withoutRead s p tag.toNat) p ring.head 8 (.eventHead rec ring.no)) := by
    show execPcieCompletion p tag data good s = _
    rw [execPcieCompletion, found]
    simp only [stillWanted, if_true, dropRead_of_none idle, readBack, port, has, Option.any_some, bne_iff_ne, ne_eq, new,
      not_false_eq_true, toRing, up]
  refine ⟨_, goes, ?_⟩
  rw [issueRead]
  split
  · refine ⟨rfl, rfl, ?_, .inl ⟨_, List.mem_append_right _ (List.mem_singleton_self _), rfl, rfl⟩⟩
    cases p <;> exact has
  · refine ⟨rfl, rfl, ?_, .inr ⟨_, List.mem_append_right _ (List.mem_singleton_self _), rfl, rfl⟩⟩
    cases p <;> exact has

variable (found : findRead s p tag.toNat = some { port := p, tag := tag.toNat, what := .eventHead rec ring.no, issued := at_ })
include found

theorem readBack_own (data : Option Bytes) :
    readBack (dropRead s { port := p, tag := tag.toNat, what := .eventHead rec ring.no, issued := at_ })
      { port := p, tag := tag.toNat, what := .eventHead rec ring.no, issued := at_ } data =
      headCame (withoutRead s p tag.toNat) p rec data := by
  have port : getPort (withoutRead s p tag.toNat) p = getPort s p := by cases p <;> rfl
  rw [dropRead_of_none idle]
  cases data <;> simp only [readBack, port, has, Option.any_some, bne_self_eq_false, Bool.false_eq_true, if_false, headCame]

theorem completion_of_head (data : Bytes) (good : Bool) : exec (.pcieCompletion p tag data good) s =
    .next (headCame (withoutRead s p tag.toNat) p rec (if good then some data else none)) := by
  show execPcieCompletion p tag data good s = _
  rw [execPcieCompletion, found]
  simp only [stillWanted, if_true, readBack_own idle has found]

theorem timeout_of_head : exec (.completionTimeout p tag) s = .next (if at_ + cplLimit (getPort s p).cplTimeout ≤ s.nowNs then
    evDrop (withoutRead s p tag.toNat) else s) := by
  show execCompletionTimeout p tag s = _
  rw [execCompletionTimeout, found]
  dsimp only
  rw [readBack_own idle has found]
  exact (apply_ite Host.Outcome.next _ _ _).symm

omit idle has found in
/-- A dropped record is counted, and its read is outstanding no more. -/
theorem evDrop_gives : (evDrop (withoutRead s p tag.toNat)).fw.evDrops = satAdd s.fw.evDrops 1 ∧
    findRead (evDrop (withoutRead s p tag.toNat)) p tag.toNat = none ∧ (evDrop (withoutRead s p tag.toNat)).mem = s.mem ∧
    (evDrop (withoutRead s p tag.toNat)).out = s.out :=
  ⟨rfl, findRead_withoutRead s p tag.toNat, rfl, rfl⟩

omit idle found in
/-- The record is written in the ring's next entry, unless the ring is full. -/
theorem ringWrite_gives (data : Bytes) (len : rec.length = 32)
    (room : (ring.count + 2 ^ 32 - le data 0 4) % 2 ^ 32 ≠ 2 ^ (6 + ring.sizeLog2)) :
    let t := ringWrite (withoutRead s p tag.toNat) p rec data
    findRead t p tag.toNat = none ∧ t.mem = s.mem ∧ (getPort t p).ring = some { ring with count := (ring.count + 1) % 2 ^ 32 } ∧
      ∃ bytes, Output.hostWrite p (ring.base + 32 * (ring.count % 2 ^ (6 + ring.sizeLog2))) bytes false ∈ t.out ∧
        bytes.drop 3 = rec.drop 3 ∧ bytes.take 2 = rec.take 2 := by
  have port : getPort (withoutRead s p tag.toNat) p = getPort s p := by cases p <;> rfl
  let x : HostPortState := { getPort s p with ring := some { ring with count := (ring.count + 1) % 2 ^ 32 } }
  let b2 : BitVec 8 := BitVec.ofNat 8 (setBits (byteAt rec 2).toNat 0 1 (b2n (decide (ring.count / 2 ^ (6 + ring.sizeLog2) % 2 = 0))))
  let o : Output := .hostWrite p (ring.base + 32 * (ring.count % 2 ^ (6 + ring.sizeLog2))) (putBytes rec 2 [b2]) false
  let s2 := emit (setPort (withoutRead s p tag.toNat) p x) o
  have goes : ringWrite (withoutRead s p tag.toNat) p rec data = sendMsix s2 p ring.vector := by
    simp only [ringWrite, port, has, if_neg room]
    rfl
  have reads : s2.hif.reads = (withoutRead s p tag.toNat).hif.reads := by cases p <;> rfl
  have ring2 : getPort s2 p = x := by cases p <;> rfl
  have mem2 : s2.mem = s.mem := by cases p <;> rfl
  have out2 : o ∈ s2.out := List.mem_append_right _ (List.mem_singleton_self _)
  have sent : (sendMsix s2 p ring.vector).hif.reads = s2.hif.reads ∧ (sendMsix s2 p ring.vector).mem = s2.mem ∧
      (getPort (sendMsix s2 p ring.vector) p).ring = (getPort s2 p).ring ∧ o ∈ (sendMsix s2 p ring.vector).out := by
    rw [sendMsix]
    split
    · exact ⟨by cases p <;> rfl, by cases p <;> rfl, by rw [getPort_setPort_self], (outKept_setPort s2 p _).out o out2⟩
    · split
      · exact ⟨rfl, rfl, rfl, List.mem_append_left _ out2⟩
      · exact ⟨rfl, rfl, rfl, out2⟩
  obtain ⟨reads', mem', ring', out'⟩ := sent
  dsimp only
  rw [goes]
  refine ⟨?_, mem'.trans mem2, by rw [ring', ring2], _, out', ?_, ?_⟩
  · rw [findRead, reads', reads]
    exact findRead_withoutRead s p tag.toNat
  · simp [putBytes, len, List.drop_append]
  · simp [putBytes, len]

omit idle found in
theorem ringWrite_full (data : Bytes) (full : (ring.count + 2 ^ 32 - le data 0 4) % 2 ^ 32 = 2 ^ (6 + ring.sizeLog2)) :
    ringWrite (withoutRead s p tag.toNat) p rec data = evDrop (withoutRead s p tag.toNat) := by
  have port : getPort (withoutRead s p tag.toNat) p = getPort s p := by cases p <;> rfl
  simp only [ringWrite, port, has, if_pos full]

end Head

/-- A completion that no read waits for is counted as late. -/
theorem completion_late {tag : BitVec 14} (unread : findRead s p tag.toNat = none) (data : Bytes) (good : Bool) :
    Gives (.pcieCompletion p tag data good) s fun t =>
      (getPort t p).lateCpl = satAdd (getPort s p).lateCpl 1 ∧ t.mem = s.mem ∧ t.out = s.out := by
  refine ⟨lateCompletion s p, ?_, by rw [lateCompletion, getPort_setPort_self], by cases p <;> rfl, by cases p <;> rfl⟩
  show execPcieCompletion p tag data good s = _
  rw [execPcieCompletion, unread]

/-! ## O26 -/

/-- Settles O26. -/
theorem bar4AndHostReads : Obligations.Bar4AndHostReads := by
  unfold Obligations.Bar4AndHostReads
  refine ⟨?_, ?_, ?_, fun p tag s => ⟨?_, ?_, ?_⟩⟩
  · intro p off data poisoned s hs served _
    exact bar4Write_gives hs served off data poisoned rfl
  · intro p off len l s served a one e
    refine ⟨bar4Read_corrects served off rfl one, fun none opens clean => ?_, fun none shut => ?_⟩
    · exact bar4Read_answers served off rfl one none (by rw [bar4Takes, opens, clean]; rfl)
    · exact bar4Read_zeros served off rfl one none (by
        rw [bar4Takes]
        rcases shut with shut | shut <;> simp [shut])
  · intro p off len s served none
    exact bar4Read_gives served none off len rfl
  · intro rec ring no data good at_ found idle has new up
    exact completion_of_replaced idle has found new up data good
  · intro rec ring data at_ found idle has len late
    have dropped := evDrop_gives (s := s) (p := p) (tag := tag)
    refine ⟨fun room => ⟨_, completion_of_head idle has found data true, ringWrite_gives has data len room⟩, fun full => ?_, ?_,
      fun is => ?_, fun isNot => ?_⟩
    · refine ⟨_, completion_of_head idle has found data true, ?_⟩
      simp only [if_true, headCame, ringWrite_full has data full]
      exact ⟨dropped.1, dropped.2.2.2⟩
    · exact ⟨_, completion_of_head idle has found data false, dropped.1, dropped.2.1⟩
    · refine ⟨_, timeout_of_head idle has found, ?_⟩
      rw [if_pos is]
      exact dropped
    · refine ⟨_, timeout_of_head idle has found, ?_⟩
      rw [if_neg isNot]
  · intro data good unread
    exact completion_late unread data good

end Sys2Proof.Laws
end

section
/-! PROOFS. Interrupts, management messages and event windows (O27). -/

namespace Sys2Proof.Laws

open Sys2Proof Sys2Proof.Machine
set_option Elab.async false

variable {s t u : State} {p q : HPort}

/-! ## Reports and their windows (R588, R589) -/

/-- What a record that leaves does to the registers of the error reports: `coalesced` is what it adds to the coalesced
count. Where the record goes changes none of them. -/
def reported (e : ErrState) (st : Status) (count : Nat) (coalesced : Bool) : ErrState :=
  { e with lastStatus := BitVec.ofNat 16 (statusCode st), lastSeq := e.nextSeq, nextSeq := e.nextSeq + 1,
           generated := satAdd e.generated 1, coalesced := if coalesced then satAdd e.coalesced count else e.coalesced }

theorem emitEvent_err (s : State) (st : Status) (source unit count first : Nat) (b : Bool) (d : Bytes) :
    (emitEvent s st source unit count first b d).err = reported s.err st count b := by
  dsimp only [emitEvent]
  split
  · exact (err_eq (deliver_rest _ _ _ (by decide))).trans rfl
  · rfl

theorem sameWindow_iff {st : Status} {i j : Nat} {w : EventWindow} :
    sameWindow st i j w = true ↔ w.status = st ∧ w.source = i ∧ w.unit = j := by
  simp [sameWindow, and_assoc]

section Window

variable {st : Status} {source unit : Nat} {detail : Bytes} {w : EventWindow} (small : unit < 65536)

include small

/-- R588: an occurrence outside any window leaves at once, and opens one. -/
theorem raiseEvent_fresh (none : s.err.windows.find? (sameWindow st source unit) = .none) :
    (raiseEvent s st source unit detail).err =
      reported { s.err with windows := s.err.windows ++
        [{ status := st, source, unit, opened := s.nowNs, count := 0, first := 0, detail := [] }] } st 1 false := by
  simp only [raiseEvent, Nat.mod_eq_of_lt small, none, emitEvent_err]

/-- R589: the window of an occurrence that came inside it. -/
def counted (w : EventWindow) (now : Nat) (detail : Bytes) : EventWindow :=
  if w.count = 0 then { w with count := 1, first := now, detail := detail } else { w with count := w.count + 1 }

/-- The occurrence counted in the window that it falls in; every other window as it was. -/
def recounted (st : Status) (source unit : Nat) (w : EventWindow) (now : Nat) (detail : Bytes) (x : EventWindow) : EventWindow :=
  if sameWindow st source unit x then counted w now detail else x

omit small in
theorem counted_count (now : Nat) : (counted w now detail).count = w.count + 1 := by
  rw [counted]
  split <;> simp [*]

omit small in
theorem counted_same (now : Nat) (i j : Nat) : sameWindow st i j (counted w now detail) = sameWindow st i j w := by
  rw [counted]
  split <;> rfl

/-- R589: an occurrence inside its window is counted there, and nothing leaves. -/
theorem raiseEvent_within (found : s.err.windows.find? (sameWindow st source unit) = some w)
    (inside : (s.nowNs < w.opened + 1000000)) :
    raiseEvent s st source unit detail =
      { s with err := { s.err with windows := s.err.windows.map (recounted st source unit w s.nowNs detail) } } := by
  simp only [raiseEvent, Nat.mod_eq_of_lt small, found, if_pos (show s.nowNs < w.opened + msNs from inside)]
  rfl

omit small in
/-- A window replaced by its counted form is found in its place. -/
theorem find_counted (l : List EventWindow) (now : Nat) (found : l.find? (sameWindow st source unit) = some w) :
    (l.map (recounted st source unit w now detail)).find? (sameWindow st source unit) =
      some (counted w now detail) := by
  have same : sameWindow st source unit w = true := List.find?_some found
  have keeps : sameWindow st source unit ∘ recounted st source unit w now detail = sameWindow st source unit := by
    funext x
    by_cases hx : sameWindow st source unit x = true <;> simp [recounted, hx, counted_same, same]
  rw [List.find?_map, keeps, found]
  simp [recounted, same]

end Window

/-- A window that ends is gone, and its count, if any, leaves as one coalesced record (R589). -/
theorem flushWindow_err (s : State) (w : EventWindow) :
    (flushWindow s w).err =
      if w.count = 0 then { s.err with windows := s.err.windows.filter fun x => !sameWindow w.status w.source w.unit x }
      else reported { s.err with windows := s.err.windows.filter fun x => !sameWindow w.status w.source w.unit x }
        w.status w.count true := by
  dsimp only [flushWindow]
  split
  · rfl
  · rw [emitEvent_err]
    rfl

theorem find_dropped (l : List EventWindow) (st : Status) (i j : Nat) :
    (l.filter fun x => !sameWindow st i j x).find? (sameWindow st i j) = none := by
  simp [List.find?_eq_none]

theorem reported_windows (e : ErrState) (st : Status) (n : Nat) (b : Bool) : (reported e st n b).windows = e.windows := rfl

/-! ## MSI-X (R486) -/

/-- The vector's entry with its mask bit cleared. -/
def unmasked (e : Bytes) : Bytes := putBytes e 12 [BitVec.ofNat 8 (setBits (byteAt e 12).toNat 0 1 0)]

theorem unmasked_flag {e : Bytes} (len : 16 ≤ e.length) : flag (unmasked e) 12 0 = false := by
  have even : (setBits (byteAt e 12).toNat 0 1 0) % 2 = 0 := by simp [setBits, bits]; omega
  have byte : byteAt (unmasked e) 12 = BitVec.ofNat 8 (setBits (byteAt e 12).toNat 0 1 0) := by
    simp [unmasked, byteAt, putBytes, show 12 ≤ e.length by omega]
  rw [flag, byte, BitVec.getLsbD_ofNat]
  simp [Nat.testBit_zero, even]

theorem unmaskVector_sends {v : Nat} (up : (getPort s p).linkUp = true) (pending : smGet false (getPort s p).pba v = true)
    (msix : keysRise (getPort s p).msix = true) (pba : keysRise (getPort s p).pba = true)
    (len : 16 ≤ (smGet msixDefault (getPort s p).msix v).length) :
    (unmaskVector p v s).out = s.out ++ [.msix p v] ∧ smGet false (getPort (unmaskVector p v s) p).pba v = false ∧
      flag (smGet msixDefault (getPort (unmaskVector p v s) p).msix v) 12 0 = false ∧ (unmaskVector p v s).mem = s.mem := by
  let x : HostPortState := { getPort s p with
    msix := smSet msixDefault (getPort s p).msix v (unmasked (smGet msixDefault (getPort s p).msix v)),
    pba := smSet false (getPort s p).pba v false }
  have entry : smGet msixDefault x.msix v = unmasked (smGet msixDefault (getPort s p).msix v) := get_set_self msix
  have clear : flag (smGet msixDefault x.msix v) 12 0 = false := by rw [entry]; exact unmasked_flag len
  have goes : unmaskVector p v s = emit (setPort s p x) (.msix p v) := by
    have sends : sendMsix (setPort s p x) p v = emit (setPort s p x) (.msix p v) := by
      simp only [sendMsix, getPort_setPort_self, clear]
      exact if_pos up
    rw [← sends]
    exact if_pos pending
  have port : getPort (emit (setPort s p x) (.msix p v)) p = x := getPort_setPort_self x
  rw [goes, port]
  refine ⟨?_, get_set_self pba, clear, mem_eq (by simp)⟩
  show (setPort s p x).out ++ _ = _
  rw [out_eq (show rest (others .out) (setPort s p x) = rest (others .out) s by simp)]

/-! ## MCTP control (R487, R488) -/

theorem mctpAnswer_keeps (s : State) (b : MctpBinding) (cmd : Nat) (data : Bytes) :
    (mctpAnswer s b cmd data).1.out = s.out ∧ (mctpAnswer s b cmd data).1.mem = s.mem ∧
      (mctpAnswer s b cmd data).1.sec = s.sec := by
  simp only [mctpAnswer]
  split
  · split <;> exact ⟨rfl, rfl, rfl⟩
  all_goals exact ⟨rfl, rfl, rfl⟩

theorem mctpTake_control (b : MctpBinding) (h cmd : BitVec 8) (data : Bytes) (request : h.getLsbD 7 = true) :
    mctpTake b (0 :: h :: cmd :: data) s =
      emit (mctpAnswer s b cmd.toNat data).1 (.mctp b ([0, h &&& 0x1F, cmd] ++ (mctpAnswer s b cmd.toNat data).2)) := by
  simp [mctpTake, byteAt, request]

/-- The binding of a port's vendor-defined messages. -/
def portBinding (p : HPort) : MctpBinding := match p with | .a => .vdmA | .b => .vdmB

theorem mctpDrop_port (s : State) (p : HPort) :
    mctpDrop s (portBinding p) = setPort s p { getPort s p with mctpDrops := satAdd (getPort s p).mctpDrops 1 } := by
  cases p <;> rfl

theorem execMctpControl_drops {ps : List MctpPacket} (opened : bindingOpen s (portBinding p) = true)
    (other : ∀ m, reassemble (portBinding p) ps = some m → byteAt m 0 ≠ 0 ∧ m.take 3 ≠ [0x7E, 0x1D, 0x5A]) :
    execMctpControl (portBinding p) ps s = .next (mctpDrop s (portBinding p)) := by
  rw [execMctpControl, opened]
  cases h : reassemble (portBinding p) ps with
  | none => rfl
  | some m =>
    obtain ⟨first, vendor⟩ := other m h
    have drops : (byteAt m 0 != 0 || decide (m.length < 3)) = true := by simp [show byteAt m 0 ≠ 0#8 from first]
    show Host.Outcome.next (mctpTake _ m s) = _
    rw [mctpTake, if_neg vendor, if_pos drops]

/-! ## Configuration space (R476, R485, R578) -/

theorem execConfigSpaceWrite_done {field : CfgField} {v : BitVec 32} (opened : bar2Open s p = true) (ready : cfgBusy s p = false) :
    execConfigSpaceWrite p field v s = .next (setPort s p (writeCfg (getPort s p) field v)) := by
  simp [execConfigSpaceWrite, opened, ready]

theorem givesCfg {field : CfgField} {v : BitVec 32} {P : HostPortState → Prop} (opened : bar2Open s p = true)
    (ready : cfgBusy s p = false) (h : P (writeCfg (getPort s p) field v)) :
    Gives (.configSpaceWrite p field v) s fun t => P (getPort t p) ∧ t.mem = s.mem :=
  ⟨_, execConfigSpaceWrite_done opened ready, by rw [getPort_setPort_self]; exact h, mem_eq (by simp)⟩

/-- Settles O27. -/
theorem interruptsAndEvents : Obligations.InterruptsAndEvents := by
  unfold Obligations.InterruptsAndEvents
  refine ⟨fun s => ⟨?_, ?_, ?_, ?_, ?_⟩, fun s st source unit detail small => ⟨?_, ?_, ?_⟩⟩
  · intro p v opened up pending msix pba len
    exact ⟨unmaskVector p v.toNat s, if_pos opened, unmaskVector_sends up pending msix pba len⟩
  · intro b h cmd data ps opened whole request
    obtain ⟨out, mem, sec⟩ := mctpAnswer_keeps s b cmd.toNat data
    refine ⟨emit (mctpAnswer s b cmd.toNat data).1 (.mctp b ([0, h &&& 0x1F, cmd] ++ (mctpAnswer s b cmd.toNat data).2)), ?_,
      ⟨_, congrArg (fun l => l ++ [Output.mctp b _]) out⟩, mem, sec⟩
    show execMctpControl b ps s = _
    rw [execMctpControl, opened, ← mctpTake_control b h cmd data request]
    simp only [whole]
    rfl
  · intro p ps b opened other
    have binding : b = portBinding p := by cases p <;> rfl
    rw [binding] at opened other ⊢
    refine ⟨_, execMctpControl_drops opened other, ?_⟩
    rw [mctpDrop_port]
    dsimp only
    rw [getPort_setPort_self]
    exact ⟨rfl, out_eq (by simp)⟩
  · intro p field v opened busy
    refine ⟨_, ?_, rfl⟩
    show execConfigSpaceWrite p field v s = _
    simp [execConfigSpaceWrite, opened, busy, emit]
  · intro p v opened ready
    refine ⟨?_, ?_, ?_, ?_, ?_⟩
    · refine ⟨_, execConfigSpaceWrite_done opened ready, ?_⟩
      dsimp only
      rw [getPort_setPort_self]
      refine ⟨?_, ?_, mem_eq (by simp)⟩ <;> simp [writeCfg, bits] <;> omega
    · intro i rise
      refine givesCfg (P := fun x => barWord x i.val = (v &&& barMask i.val) ||| barType i.val) opened ready ?_
      rw [barWord, writeCfg, get_set_self rise]
    · exact givesCfg (P := fun x => x.d3 = decide (v.toNat % 4 = 3)) opened ready (by simp [writeCfg, bits, Bool.beq_eq_decide_eq])
    · exact givesCfg (P := fun x => x.aspmL1 = v.getLsbD 1) opened ready rfl
    · exact givesCfg (P := fun x => x.cplTimeout = v.setWidth 4) opened ready (by simp [writeCfg])
  · intro none
    dsimp only
    rw [raiseEvent_fresh small none]
    refine ⟨rfl, rfl, rfl, rfl, ?_, mem_eq (by simp)⟩
    rw [reported_windows, List.find?_append, none]
    simp [sameWindow]
  · intro w found inside
    dsimp only
    rw [raiseEvent_within small found inside]
    refine ⟨rfl, rfl, ?_⟩
    rw [find_counted _ _ found]
    exact congrArg some (counted_count _)
  · intro code src u w status found ended
    obtain ⟨hst, hsrc, hu⟩ := sameWindow_iff.mp (List.find?_some found)
    refine ⟨flushWindow s w, ?_, ?_⟩
    · show execCoalesceWindowEnd code src u s = _
      simp only [execCoalesceWindowEnd, status, found]
      exact if_pos ended
    · dsimp only
      rw [flushWindow_err, hst, hsrc, hu]
      refine ⟨?_, mem_eq (by simp), ?_, ?_⟩
      · split <;> exact find_dropped ..
      · split <;> rfl
      · split <;> rfl

end Sys2Proof.Laws
end

section
/-! PROOFS. A message in the inbox, and the checks of a request. -/

namespace Sys2Proof.Laws

open Sys2Proof Sys2Proof.Machine
set_option Elab.async false

variable {s t u : State} {p q : HPort} {m M : Bytes} {ch kind : Nat} {r : MbxReq} {may : Spot → Bool}

/-! ## A message in the inbox, which keeps the bytes beyond it (R524, R526)

MBX_IN holds 4,096 bytes: a shorter message leaves what stood behind it. Nothing that a request reads lies there. -/

theorem byteAt_prefix {i : Nat} (pre : m <+: M) (h : i < m.length) : byteAt M i = byteAt m i := by
  obtain ⟨z, rfl⟩ := pre
  simp [byteAt, List.getElem?_append_left h]

theorem slice_prefix {i n : Nat} (pre : m <+: M) (h : i + n ≤ m.length) : (M.drop i).take n = (m.drop i).take n := by
  obtain ⟨z, rfl⟩ := pre
  exact slice_append_left h

theorem le_prefix {i n : Nat} (pre : m <+: M) (h : i + n ≤ m.length) : le M i n = le m i n := by
  rw [le, le, slice_prefix pre h]

section Header

variable (pre : m <+: M) (len : 32 ≤ m.length)

include pre len

theorem mbType_prefix : mbType M = mbType m := by rw [mbType, mbType, byteAt_prefix pre (by omega)]

theorem mbLen_prefix : mbLen M = mbLen m := by rw [mbLen, mbLen, field, field, le_prefix pre (by omega)]

theorem mbKeyed_prefix : mbKeyed M = mbKeyed m := by rw [mbKeyed, mbKeyed, flag, flag, byteAt_prefix pre (by omega)]

theorem mbCounter_prefix : mbCounter M = mbCounter m := by rw [mbCounter, mbCounter, le_prefix pre (by omega)]

theorem mbVersion_prefix : mbVersion M = mbVersion m := by
  rw [mbVersion, mbVersion, le_prefix pre (by omega), byteAt_prefix pre (by omega)]

theorem mbHeader_prefix : mbHeader M = mbHeader m := by
  rw [mbHeader, mbHeader, mbVersion_prefix pre len, mbKeyed_prefix pre len, mbLen_prefix pre len, flag, flag,
    byteAt_prefix pre (by omega), slice_prefix pre (by omega)]

theorem mbNoKey_prefix (s : State) : mbNoKey s M = mbNoKey s m := by
  rw [mbNoKey, mbNoKey, mbKeyed_prefix pre len, mbType_prefix pre len]

theorem mbResponse_prefix (ch : Nat) (key : Option Bytes) (st : Status) (fields : Bytes) :
    mbResponse { channel := ch, message := M, key } st fields = mbResponse { channel := ch, message := m, key } st fields := by
  simp only [mbResponse, mbType_prefix pre len, mbCounter_prefix pre len, slice_prefix pre (show 6 + 2 ≤ m.length by omega)]

end Header

section Payload

variable (pre : m <+: M) (whole : 32 + mbLen m ≤ m.length)

include pre whole

theorem mbPayload_prefix : mbPayload M = mbPayload m := by
  have take : ∀ b : Bytes, mbLen m ≤ b.length → fit b (mbLen m) = b.take (mbLen m) := fun b h => by
    rw [fit, List.take_append_of_le_length h]
  have longer : m.length ≤ M.length := pre.length_le
  rw [mbPayload, mbPayload, mbLen_prefix pre (by omega), take _ (by rw [List.length_drop]; omega),
    take _ (by rw [List.length_drop]; omega), slice_prefix pre whole]

theorem mbReserved_prefix : mbReserved M = mbReserved m := by
  rw [mbReserved, mbReserved, mbType_prefix pre (by omega), mbPayload_prefix pre whole]

theorem mbVerify_prefix (s : State) (ch : Nat) : mbVerify s ch M = mbVerify s ch m := by
  have head : M.take 16 = m.take 16 := slice_prefix (i := 0) pre (by omega)
  simp only [mbVerify, mbKeyed_prefix pre (show 32 ≤ m.length by omega), mbType_prefix pre (show 32 ≤ m.length by omega),
    mbCounter_prefix pre (show 32 ≤ m.length by omega), mbPayload_prefix pre whole, head,
    slice_prefix pre (show 16 + 16 ≤ m.length by omega)]

end Payload

/-! ## A message that BAR2 brings (R524, R525) -/

/-- MBX_IN with a message written at its start. -/
def inbox (s : State) (p : HPort) (m : Bytes) : Bytes := putBytes (fit (getPort s p).mbxIn 4096) 0 m

/-- The state in which a message of BAR2 is served: it stands in MBX_IN, and go is clear. -/
def withMail (s : State) (p : HPort) (m : Bytes) : State := setPort s p { getPort s p with mbxIn := inbox s p m, mbxGo := false }

theorem inbox_length (h : m.length ≤ 4096) : (inbox s p m).length = 4096 := by
  rw [inbox, putBytes_length (by rw [fit_length]; omega), fit_length]

theorem fit_of_length {b : Bytes} {n : Nat} (h : b.length = n) : fit b n = b := by
  rw [fit, List.take_append_of_le_length h.ge, ← h, List.take_length]

theorem prefix_inbox : m <+: inbox s p m := by
  rw [inbox, putBytes]
  exact ⟨_, rfl⟩

theorem setPort_setPort (s : State) (p : HPort) (x y : HostPortState) : setPort (setPort s p x) p y = setPort s p y := by
  cases p <;> rfl

theorem portNo_chPort (h : ch < 2) : portNo (chPort ch) = ch := by
  have : ch = 0 ∨ ch = 1 := by omega
  rcases this with rfl | rfl <;> rfl

theorem setPort_hif_only (s : State) (p : HPort) (x : HostPortState) :
    (setPort s p x).fw = s.fw ∧ (setPort s p x).pwr = s.pwr := ⟨fw_eq (by simp), pwr_eq (by simp)⟩

/-- Which requests are in service does not turn on a port's inbox. -/
theorem mbInService_setPort {x : HostPortState} (held : x.mbxHeld = (getPort s p).mbxHeld) (ch : Nat) :
    mbInService (setPort s p x) ch = mbInService s ch := by
  obtain ⟨fw, pwr⟩ := setPort_hif_only s p x
  have port : (getPort (setPort s p x) (chPort ch)).mbxHeld = (getPort s (chPort ch)).mbxHeld := by
    by_cases h : chPort ch = p
    · rw [h, getPort_setPort_self, held]
    · rw [getPort_setPort_other _ h]
  simp only [mbInService, fw, pwr, port]

/-- A message written while the channel is served and free is served at once. -/
theorem mbArrive_serves (bar2 : ch < 2) (reached : bar2Open s (chPort ch) = true) (free : (getPort s (chPort ch)).mbxGo = false)
    (served : s.fw.mbxReady = true) (idle : mbInService s ch = false) (fits : m.length ≤ 4096) :
    mbArrive s ch m = mbServe (withMail s (chPort ch) m) ch (inbox s (chPort ch) m) := by
  let x : HostPortState := { getPort s (chPort ch) with mbxIn := inbox s (chPort ch) m, mbxGo := true }
  have arrives : mbArrive s ch m = mbPump (setPort s (chPort ch) x) (chPort ch) := by
    simp only [mbArrive, bar2, reached, free, List.take_of_length_le fits, x, inbox]
    rfl
  have ready : (setPort s (chPort ch) x).fw.mbxReady = true := by rw [(setPort_hif_only _ _ _).1, served]
  have out : mbInService (setPort s (chPort ch) x) ch = false := by rw [mbInService_setPort (x := x) rfl, idle]
  rw [arrives]
  simp only [mbPump, getPort_setPort_self, portNo_chPort bar2, ready, out, setPort_setPort]
  exact congrArg (mbServe _ ch) (fit_of_length (inbox_length fits))

/-! ## A request that passes every check is carried out (R526 to R530) -/

/-- The counters of the channels after a request of one. -/
def ctrAfter (s : State) (ch : Nat) (m : Bytes) : List (Nat × BitVec 64) := (mbVerify s ch m).1.fw.mbxCtr

/-- The counters of the channels replaced. -/
def withCtr (s : State) (c : List (Nat × BitVec 64)) : State := { s with fw := { s.fw with mbxCtr := c } }

theorem withCtr_port (s : State) (c : List (Nat × BitVec 64)) (p : HPort) : getPort (withCtr s c) p = getPort s p := by
  cases p <;> rfl

theorem withCtr_fw (s : State) (c : List (Nat × BitVec 64)) : (withCtr s c).fw = { s.fw with mbxCtr := c } := rfl

theorem withCtr_rest (s : State) (c : List (Nat × BitVec 64)) (hw : may .fw) :
    rest may (withCtr s c) = rest may s := by
  simp [withCtr, hw]

/-- The check of the key changes no more than the channel's counter. -/
theorem mbVerify_state (s : State) (ch : Nat) (m : Bytes) : (mbVerify s ch m).1 = withCtr s (ctrAfter s ch m) := by
  rw [ctrAfter]
  simp only [mbVerify]
  repeat' split
  all_goals rfl

/-- A message that needs no key, or brings one. -/
theorem mbNoKey_of_verified (h : (mbVerify s ch m).2.1 = none) : mbNoKey s m = false := by
  rw [mbNoKey]
  by_cases keyed : mbKeyed m = true
  · simp [keyed]
  · have need : mbNeed s (mbType m) = 0 := by
      simpa [mbVerify, keyed, failIf] using h
    simp [need]

/-- The state in which a message that `Taken` describes is carried out. -/
def acceptedIn (s : State) (ch : Nat) (m : Bytes) : State := (mbVerify (withMail s (chPort ch) m) ch (inbox s (chPort ch) m)).1

/-- The request carried out: its message is all of MBX_IN. -/
def acceptedReq (s : State) (m : Bytes) (r : MbxReq) : MbxReq :=
  { channel := r.channel, message := inbox s (chPort r.channel) m, key := r.key }

/-- A request whose checks all pass is carried out. -/
theorem mbServe_runs
    (first : firstFail [mbVersion m, failIf (mbNoKey s m) .keyFail, mbHeader m,
      failIf (decide (s.fw.state < 2) && !(romType (mbType m))) .fwState] = none)
    (second : firstFail [(mbVerify s ch m).2.1, failIf (!(mbAllowed (mbVerify s ch m).1 ch (mbType m))) .fwState,
      failIf (!(mbReserved m)) .badReserved] = none) :
    mbServe s ch m = mbRun (mbVerify s ch m).1 { channel := ch, message := m, key := (mbVerify s ch m).2.2 } := by
  simp only [mbServe, first, second]

/-- The state of firmware with the channels' counters replaced. -/
def fwCtr (f : FwState) (c : List (Nat × BitVec 64)) : FwState := { f with mbxCtr := c }

/-- What a request that passes every check leaves to its own type: the state in which it is carried out, and its request. -/
structure Accepted (s : State) (ch : Nat) (m : Bytes) (kind : Nat) (r : MbxReq) (u : State) (R : MbxReq) : Prop where
  runs : mbArrive s ch m = mbRun u R
  bar2 : ch < 2
  fw : u.fw = fwCtr s.fw u.fw.mbxCtr
  rest : ∀ may : Spot → Bool, may .hif ∧ may .fw → rest may u = rest may s
  port : getPort u (chPort ch) = { getPort s (chPort ch) with mbxIn := (getPort u (chPort ch)).mbxIn, mbxGo := false }
  wtWait : u.hif.wtWait = s.hif.wtWait
  done : (getPort u (chPort ch)).mbxDone = false
  channel : R.channel = ch
  channel' : r.channel = ch
  type : mbType R.message = kind
  payload : mbPayload R.message = mbPayload m
  response : ∀ st fields, mbResponse R st fields = mbResponse r st fields

theorem withMail_port (s : State) (p : HPort) (m : Bytes) :
    getPort (withMail s p m) p = { getPort s p with mbxIn := inbox s p m, mbxGo := false } := getPort_setPort_self _

theorem withMail_fw (s : State) (p : HPort) (m : Bytes) : (withMail s p m).fw = s.fw := (setPort_hif_only _ _ _).1

theorem withMail_rest (s : State) (p : HPort) (m : Bytes) (hw : may .hif) : rest may (withMail s p m) = rest may s :=
  setPort_rest _ _ _ hw

theorem mbVerify_withMail (s : State) (p : HPort) (m : Bytes) (ch : Nat) (M : Bytes) :
    (mbVerify (withMail s p m) ch M).2 = (mbVerify s ch M).2 := by
  have sec : (withMail s p m).sec = s.sec := sec_eq (withMail_rest s p m (by decide))
  simp only [mbVerify, mbNeed, keyOf, withMail_fw, sec, apply_ite Prod.snd]

/-- The state in which a request is carried out, from what came before the check of its key. -/
theorem acceptedIn_eq (s : State) (ch : Nat) (m : Bytes) : acceptedIn s ch m =
    withCtr (withMail s (chPort ch) m) (ctrAfter (withMail s (chPort ch) m) ch (inbox s (chPort ch) m)) := mbVerify_state _ _ _

theorem acceptedIn_port (s : State) (ch : Nat) (m : Bytes) : getPort (acceptedIn s ch m) (chPort ch) =
    { getPort s (chPort ch) with mbxIn := inbox s (chPort ch) m, mbxGo := false } := by
  rw [acceptedIn_eq, withCtr_port, withMail_port]

theorem acceptedIn_fw (s : State) (ch : Nat) (m : Bytes) :
    (acceptedIn s ch m).fw = { s.fw with mbxCtr := (acceptedIn s ch m).fw.mbxCtr } := by
  rw [acceptedIn_eq, withCtr_fw, withMail_fw]

theorem acceptedIn_rest (s : State) (ch : Nat) (m : Bytes) (hw : may .hif ∧ may .fw) :
    rest may (acceptedIn s ch m) = rest may s := by
  rw [acceptedIn_eq, withCtr_rest _ _ hw.2, withMail_rest _ _ _ hw.1]

theorem acceptedIn_wtWait (s : State) (ch : Nat) (m : Bytes) : (acceptedIn s ch m).hif.wtWait = s.hif.wtWait := by
  rw [acceptedIn_eq]
  show (setPort _ _ _).hif.wtWait = _
  cases chPort ch <;> rfl

section Taken

variable {ch : BitVec 3} (h : Taken s ch m kind r)

include h

theorem taken_len : 32 ≤ m.length := by
  have := h.whole
  omega

theorem taken_verified :
    (mbVerify (withMail s (chPort ch.toNat) m) ch.toNat (inbox s (chPort ch.toNat) m)).2 = (none, r.key) := by
  rw [mbVerify_withMail, mbVerify_prefix prefix_inbox h.whole, h.key]

/-- The checks of the header pass. -/
theorem taken_header_passes :
    firstFail [mbVersion (inbox s (chPort ch.toNat) m),
      failIf (mbNoKey (withMail s (chPort ch.toNat) m) (inbox s (chPort ch.toNat) m)) .keyFail,
      mbHeader (inbox s (chPort ch.toNat) m),
      failIf (decide ((withMail s (chPort ch.toNat) m).fw.state < 2) && !(romType (mbType (inbox s (chPort ch.toNat) m)))) .fwState] =
      none := by
  have version : mbVersion m = none := by
    have header := h.header
    rw [mbHeader] at header
    generalize mbVersion m = v at header ⊢
    cases v with
    | none => rfl
    | some e => cases header
  have known : (decide (s.fw.state < 2) && !(romType kind)) = false := by
    by_cases old : s.fw.state < 2
    · rw [h.rom old, Bool.not_true, Bool.and_false]
    · rw [decide_eq_false old, Bool.false_and]
  rw [mbVersion_prefix prefix_inbox (taken_len h), version, mbNoKey_of_verified (congrArg Prod.fst (taken_verified h)),
    mbHeader_prefix prefix_inbox (taken_len h), h.header, mbType_prefix prefix_inbox (taken_len h), h.type, withMail_fw, known]
  rfl

/-- The key, the channel and the layout pass. -/
theorem taken_layout_passes :
    firstFail [(mbVerify (withMail s (chPort ch.toNat) m) ch.toNat (inbox s (chPort ch.toNat) m)).2.1,
      failIf (!(mbAllowed (acceptedIn s ch.toNat m) ch.toNat (mbType (inbox s (chPort ch.toNat) m)))) .fwState,
      failIf (!(mbReserved (inbox s (chPort ch.toNat) m))) .badReserved] = none := by
  have may : mbAllowed (acceptedIn s ch.toNat m) ch.toNat kind = true := by
    rw [← h.allowed]
    simp only [mbAllowed, congrArg FwState.state (acceptedIn_fw s ch.toNat m), congrArg FwState.loader (acceptedIn_fw s ch.toNat m)]
  rw [mbType_prefix prefix_inbox (taken_len h), h.type, may, mbReserved_prefix prefix_inbox h.whole, h.layout, (taken_verified h)]
  rfl

theorem acceptedReq_eq : acceptedReq s m r = { channel := ch.toNat, message := inbox s (chPort ch.toNat) m, key := r.key } := by
  rw [acceptedReq, h.channel]

theorem taken_runs : mbArrive s ch.toNat m = mbRun (acceptedIn s ch.toNat m) (acceptedReq s m r) := by
  rw [mbArrive_serves h.bar2 h.reached h.free h.served h.idle h.fits, mbServe_runs (taken_header_passes h) (taken_layout_passes h),
    acceptedReq_eq h, (taken_verified h)]
  rfl

theorem taken_response (st : Status) (fields : Bytes) : mbResponse (acceptedReq s m r) st fields = mbResponse r st fields := by
  rw [acceptedReq_eq h, mbResponse_prefix prefix_inbox (taken_len h), ← h.channel]
  obtain ⟨channel, message, key⟩ := r
  have same : message = m := h.message
  rw [same]

theorem accepted : Accepted s ch.toNat m kind r (acceptedIn s ch.toNat m) (acceptedReq s m r) where
  runs := taken_runs h
  bar2 := h.bar2
  fw := acceptedIn_fw ..
  rest := fun _ hw => acceptedIn_rest _ _ _ hw
  port := by rw [acceptedIn_port]
  wtWait := acceptedIn_wtWait ..
  done := by rw [acceptedIn_port]; exact h.read
  channel := h.channel
  channel' := h.channel
  type := by rw [acceptedReq_eq h, mbType_prefix prefix_inbox (taken_len h), h.type]
  payload := by rw [acceptedReq_eq h, mbPayload_prefix prefix_inbox h.whole]
  response := taken_response h

end Taken

end Sys2Proof.Laws
end

section
/-! PROOFS. Requests that pass every check, and their responses. -/

namespace Sys2Proof.Laws

open Sys2Proof Sys2Proof.Machine
set_option Elab.async false

variable {s t u v : State} {p q : HPort} {m M : Bytes} {ch kind : Nat} {r R : MbxReq} {st : Status} {fields : Bytes}

/-! ## A response on BAR2 (R524) -/

/-- The port of a response: MBX_OUT starts with it, done is set, and nothing waits behind it. -/
structure Written (x y : HostPortState) (m : Bytes) : Prop where
  done : y.mbxDone = true
  out : y.mbxOut.take m.length = m
  held : y.mbxHeld = none
  config : y.mbxConfig = none
  go : y.mbxGo = x.mbxGo
  ring : y.ring = x.ring
  lost : y.lost = x.lost

theorem take_putBytes_zero (b m : Bytes) : (putBytes b 0 m).take m.length = m := by
  rw [putBytes, List.take_zero, List.nil_append, List.take_left]

theorem sendMsix_port (s : State) (p : HPort) (v : Nat) :
    getPort (sendMsix s p v) p = { getPort s p with pba := (getPort (sendMsix s p v) p).pba } := by
  dsimp only [sendMsix]
  split
  · rw [getPort_setPort_self]
  · split <;> rfl

theorem putOut_written (s : State) (p : HPort) (m : Bytes) : Written (getPort s p) (getPort (putOut s p m) p) m := by
  have plain : ∀ x : HostPortState, getPort (setPort s p x) p = x := fun x => getPort_setPort_self x
  dsimp only [putOut]
  split
  · rw [sendMsix_port, plain]
    exact ⟨rfl, take_putBytes_zero _ _, rfl, rfl, rfl, rfl, rfl⟩
  · rw [plain]
    exact ⟨rfl, take_putBytes_zero _ _, rfl, rfl, rfl, rfl, rfl⟩

/-- A channel of BAR2 whose done is clear gets its response at once. -/
theorem respond_writes (bar2 : R.channel < 2) (done : (getPort v (chPort R.channel)).mbxDone = false) :
    respond v R st fields = putOut v (chPort R.channel) (mbResponse R st fields) := by
  simp only [respond, sendResponse, if_pos bar2, done]
  rfl

theorem respond_written (bar2 : R.channel < 2) (done : (getPort v (chPort R.channel)).mbxDone = false) :
    Written (getPort v (chPort R.channel)) (getPort (respond v R st fields) (chPort R.channel)) (mbResponse R st fields) := by
  rw [respond_writes bar2 done]
  exact putOut_written ..

/-! ## The commands that bring a message -/

theorem mbCommand_taken {ch : BitVec 3} (h : Taken s ch m kind r) :
    mbCommand kind ch m s = .next (mbRun (acceptedIn s ch.toNat m) (acceptedReq s m r)) := by
  rw [mbCommand, if_pos h.type, taken_runs h]

namespace Accepted

variable (h : Accepted s ch m kind r u R)

include h

theorem bar2' : R.channel < 2 := by rw [h.channel]; exact h.bar2

theorem replied (done : (getPort v (chPort ch)).mbxDone = false) : Replied (respond v R st fields) r st fields := by
  have w := respond_written (st := st) (fields := fields) h.bar2' (by rw [h.channel]; exact done)
  rw [h.channel, h.response] at w
  refine ⟨?_, ?_⟩ <;> rw [h.channel']
  · exact w.done
  · exact w.out

theorem ring (done : (getPort v (chPort ch)).mbxDone = false) :
    (getPort (respond v R st fields) (chPort ch)).ring = (getPort v (chPort ch)).ring := by
  have w := respond_written (st := st) (fields := fields) h.bar2' (by rw [h.channel]; exact done)
  rw [h.channel] at w
  exact w.ring

theorem state : u.fw.state = s.fw.state := (congrArg FwState.state h.fw).trans rfl
theorem phase : u.fw.phase = s.fw.phase := (congrArg FwState.phase h.fw).trans rfl
theorem loader : u.fw.loader = s.fw.loader := (congrArg FwState.loader h.fw).trans rfl
theorem version : u.fw.version = s.fw.version := (congrArg FwState.version h.fw).trans rfl
theorem loadBytes : u.fw.loadBytes = s.fw.loadBytes := (congrArg FwState.loadBytes h.fw).trans rfl
theorem loadLen : u.fw.loadLen = s.fw.loadLen := (congrArg FwState.loadLen h.fw).trans rfl
theorem image : u.fw.image = s.fw.image := (congrArg FwState.image h.fw).trans rfl
theorem staged : u.fw.staged = s.fw.staged := (congrArg FwState.staged h.fw).trans rfl
theorem fwVerified : u.fw.verified = s.fw.verified := (congrArg FwState.verified h.fw).trans rfl
theorem area : u.fw.area = s.fw.area := (congrArg FwState.area h.fw).trans rfl
theorem configBlock : u.fw.configBlock = s.fw.configBlock := (congrArg FwState.configBlock h.fw).trans rfl
theorem lastOutcome : u.fw.lastOutcome = s.fw.lastOutcome := (congrArg FwState.lastOutcome h.fw).trans rfl
theorem reverts : u.fw.reverts = s.fw.reverts := (congrArg FwState.reverts h.fw).trans rfl

theorem mem : u.mem = s.mem := mem_eq (h.rest _ (by decide))
theorem sec : u.sec = s.sec := sec_eq (h.rest _ (by decide))
theorem pwr : u.pwr = s.pwr := pwr_eq (h.rest _ (by decide))
theorem cmd : u.cmd = s.cmd := cmd_eq (h.rest _ (by decide))
theorem err : u.err = s.err := err_eq (h.rest _ (by decide))
theorem mr : u.mr = s.mr := mr_eq (h.rest _ (by decide))
theorem rst : u.rst = s.rst := rst_eq (h.rest _ (by decide))

theorem cr : u.cr = s.cr := cr_eq (h.rest _ (by decide))

theorem certBytes (k : Nat) : Machine.certBytes u k = Machine.certBytes s k := by
  simp only [Machine.certBytes, aliasCert, aliasPublic, aliasSeed, getMr, h.sec]

theorem sensorGroup (g : Nat) : Machine.sensorGroup u g = Machine.sensorGroup s g := by
  simp only [Machine.sensorGroup, h.pwr]

theorem imageCheck (b : Bytes) : Machine.imageCheck u b = Machine.imageCheck s b := by
  simp only [Machine.imageCheck, h.sec]

theorem addrExists (a : Nat) : Machine.addrExists u a = Machine.addrExists s a := by
  have dram : dramBytes u = dramBytes s := by simp only [dramBytes, h.mr]
  have firmware : fwAreaLen u = fwAreaLen s := by simp only [fwAreaLen, h.area]
  unfold Machine.addrExists
  rw [dram, firmware]
  cases region a <;> simp only [coreAvail, clusterAvail, h.cr]

theorem read (k : Reach) (a n : Nat) : Machine.read u k a n = Machine.read s k a n := by
  have access : canAccess u k a n = canAccess s k a n := by simp only [canAccess, addrExists h]
  have fails : spanFails u a n = spanFails s a n := by simp only [spanFails, h.mr]
  rw [Machine.read, Machine.read, access, fails, h.mem]

theorem parkAllowed : Machine.parkAllowed u = Machine.parkAllowed s := by
  simp only [Machine.parkAllowed, h.cmd, h.phase, h.area]

theorem getMr (i : Nat) : Machine.getMr u i = Machine.getMr s i := getMr_of_sec h.sec i

end Accepted

section Respond

variable (v : State) (R : MbxReq) (st : Status) (fields : Bytes)

@[simp] theorem respond_mem : (respond v R st fields).mem = v.mem := mem_eq (by simp)
@[simp] theorem respond_sec : (respond v R st fields).sec = v.sec := sec_eq (by simp)
@[simp] theorem respond_fw : (respond v R st fields).fw = v.fw := fw_eq (by simp)
@[simp] theorem respond_pwr : (respond v R st fields).pwr = v.pwr := pwr_eq (by simp)
@[simp] theorem respond_cmd : (respond v R st fields).cmd = v.cmd := cmd_eq (by simp)
@[simp] theorem respond_err : (respond v R st fields).err = v.err := err_eq (by simp)

end Respond

/-- A request that passes every check is carried out in a state that differs from the one before it in the inbox and in the
counter of its channel. -/
theorem taken_accepted {ch : BitVec 3} (h : Taken s ch m kind r) :
    ∃ u R, Accepted s ch.toNat m kind r u R ∧ mbCommand kind ch m s = .next (mbRun u R) :=
  ⟨_, _, accepted h, mbCommand_taken h⟩

end Sys2Proof.Laws
end

section
/-! PROOFS. CONFIG_SET, EVENT_RING_SET and the reading messages (O36). -/

namespace Sys2Proof.Laws

open Sys2Proof Sys2Proof.Machine
set_option Elab.async false

variable {s t u v : State} {p q : HPort} {m M : Bytes} {kind : Nat} {r R : MbxReq} {st : Status} {fields : Bytes} {ch : BitVec 3}

/-! ## Reading messages (R530, R570) -/

/-- Every part of the state that a reading message might have changed, and did not. -/
def Kept (s t : State) : Prop := t.mem = s.mem ∧ t.sec = s.sec ∧ t.pwr = s.pwr ∧ t.cmd = s.cmd ∧ t.err = s.err

/-- A message that is answered and does nothing else. -/
theorem reads_gives {c : Instr} {n : Nat} (h : Accepted s n m kind r u R) (run : exec c s = .next (respond u R st fields)) :
    Gives c s fun t => Kept s t ∧ Replied t r st fields := by
  refine ⟨_, run, ⟨?_, ?_, ?_, ?_, ?_⟩, h.replied h.done⟩
  · rw [respond_mem, h.mem]
  · rw [respond_sec, h.sec]
  · rw [respond_pwr, h.pwr]
  · rw [respond_cmd, h.cmd]
  · rw [respond_err, h.err]

theorem certRead_gives (h : Taken s ch m 0x0A r) (known : (byteAt (fit (mbPayload m) 8) 0).toNat ≤ 2) :
    Gives (.certRead ch m) s fun t => Kept s t ∧ Replied t r .ok
      (leBytes 4 (certBytes s (byteAt (fit (mbPayload m) 8) 0).toNat).length ++
        (((certBytes s (byteAt (fit (mbPayload m) 8) 0).toNat).drop (le (fit (mbPayload m) 8) 4 4)).take 4000)) := by
  obtain ⟨u, R, acc, run⟩ := taken_accepted h
  refine reads_gives acc (run.trans ?_)
  simp only [mbRun, acc.type, mbCertRead, acc.payload, acc.certBytes, if_neg (Nat.not_lt.mpr known)]

theorem entries_gives {c : Instr} {log : State → List Bytes} {n : Nat} (h : Taken s ch m kind r)
    (same : ∀ u R, Accepted s ch.toNat m kind r u R → mbRun u R = mbEntries u R (log u) n ∧ log u = log s)
    (run : exec c s = mbCommand kind ch m s) :
    Gives c s fun t => Kept s t ∧ Replied t r .ok (leBytes 4 ((log s).drop (le (fit (mbPayload m) 4) 0 4) |>.take n).length ++
      ((log s).drop (le (fit (mbPayload m) 4) 0 4) |>.take n).flatten) := by
  obtain ⟨u, R, acc, runs⟩ := taken_accepted h
  obtain ⟨entries, logs⟩ := same u R acc
  refine reads_gives acc (run.trans (runs.trans ?_))
  simp only [entries, mbEntries, acc.payload, logs]

theorem sensorRead_gives (h : Taken s ch m 0x0D r) :
    Gives (.sensorRead ch m) s fun t => Kept s t ∧ Replied t r
      (if (byteAt (mbPayload m) 0).toNat ≤ 4 then .ok else .badField)
      (if (byteAt (mbPayload m) 0).toNat ≤ 4 then sensorGroup s (byteAt (mbPayload m) 0).toNat else []) := by
  obtain ⟨u, R, acc, run⟩ := taken_accepted h
  refine reads_gives acc (run.trans ?_)
  simp only [mbRun, acc.type, mbSensor, acc.payload, acc.sensorGroup]
  by_cases known : (byteAt (mbPayload m) 0).toNat ≤ 4 <;> simp [known]

/-- The version of the staged image; 0 where none is staged. -/
def stagedVersion (f : FwState) : Nat := match f.staged with | some b => imVersion b | none => 0

theorem mbStatus_started (started : 2 ≤ u.fw.state) : mbStatus u R =
    respond u R .ok ([u.fw.phase.setWidth 8, u.fw.lastOutcome, u.fw.reverts, 0] ++ leBytes 4 (stagedVersion u.fw)) := by
  rw [mbStatus, if_neg (BitVec.not_lt.mpr started)]
  rfl

theorem fwuStatus_gives (h : Taken s ch m 0x14 r) (started : 2 ≤ s.fw.state) :
    Gives (.fwuStatus ch m) s fun t => Kept s t ∧ Replied t r .ok
      ([s.fw.phase.setWidth 8, s.fw.lastOutcome, s.fw.reverts, 0] ++ leBytes 4 (stagedVersion s.fw)) := by
  obtain ⟨u, R, acc, run⟩ := taken_accepted h
  have version : stagedVersion u.fw = stagedVersion s.fw := by simp only [stagedVersion, acc.staged]
  refine reads_gives acc (run.trans ?_)
  simp only [mbRun, acc.type]
  rw [mbStatus_started (by rw [acc.state]; exact started), version, acc.phase, acc.lastOutcome, acc.reverts]

/-! ## CONFIG_SET and EVENT_RING_SET (R521, R531, R532) -/

@[simp] theorem holdStart_fw (s : State) : (holdStart s).fw = s.fw := fw_eq (by simp)
@[simp] theorem holdStart_hif (s : State) : (holdStart s).hif = s.hif := hif_eq (by simp)
@[simp] theorem holdStart_sec (s : State) : (holdStart s).sec = s.sec := sec_eq (by simp)
@[simp] theorem holdStart_mem (s : State) : (holdStart s).mem = s.mem := mem_eq (by simp)

theorem replied_of_hif (h : t.hif = s.hif) (k : Replied s r st fields) : Replied t r st fields := by
  rw [Replied, getPort_of_hif h]
  exact k

/-- The fields of a configuration block fit the registers that hold them. -/
theorem config_values (b : Bytes) :
    (BitVec.ofNat 16 (if le b 0 2 = 0 then 3400 else le b 0 2)).toNat = (if le b 0 2 = 0 then 3400 else le b 0 2) ∧
      (BitVec.ofNat 32 (le b 4 4)).toNat = le b 4 4 ∧ (BitVec.ofNat 16 (le b 8 2)).toNat = le b 8 2 := by
  have power := le_lt b 0 2
  have events := le_lt b 4 4
  have preempt := le_lt b 8 2
  refine ⟨?_, ?_, ?_⟩
  · rw [BitVec.toNat_ofNat, Nat.mod_eq_of_lt]
    split <;> omega
  · rw [BitVec.toNat_ofNat, Nat.mod_eq_of_lt (by omega)]
  · rw [BitVec.toNat_ofNat, Nat.mod_eq_of_lt (by omega)]

theorem configSet_gives (hs : Sound s) (h : Taken s ch m 0x08 r) (good : configGood (fit (mbPayload m) 64) = true) :
    Gives (.configSet ch m) s fun t =>
      Replied t r .ok [] ∧ t.fw.state = 4 ∧ t.fw.configBlock = fit (mbPayload m) 64 ∧
      t.fw.powerLimit.toNat = (if le (fit (mbPayload m) 64) 0 2 = 0 then 3400 else le (fit (mbPayload m) 64) 0 2) ∧
      t.fw.thermalProfile = byteAt (fit (mbPayload m) 64) 3 ∧ t.fw.eventMask.toNat = le (fit (mbPayload m) 64) 4 4 ∧
      t.fw.preemptMin.toNat = le (fit (mbPayload m) 64) 8 2 ∧
      getMr t 2 = shake256 (getMr s 2 ++ [3, 0, 0, 0] ++ shake256 (fit (mbPayload m) 64)) := by
  obtain ⟨u, R, acc, run⟩ := taken_accepted h
  refine ⟨_, run, ?_⟩
  have set : mbRun u R = holdStart (respond (applyConfig (extendMr u 2 3 (shake256 (fit (mbPayload m) 64)))
      (fit (mbPayload m) 64)) R .ok []) := by
    have waits : (decide (R.channel < 2) && (getPort (extendMr u 2 3 (shake256 (fit (mbPayload m) 64))) (chPort R.channel)).mbxDone) =
        false := by
      rw [acc.channel]
      show (_ && (getPort u _).mbxDone) = false
      rw [acc.done, Bool.and_false]
    simp only [mbRun, acc.type, mbConfigSet, acc.payload, good, waits]
    rfl
  obtain ⟨power, events, preempt⟩ := config_values (fit (mbPayload m) 64)
  rw [set]
  refine ⟨replied_of_hif (holdStart_hif _) (acc.replied acc.done), ?_⟩
  rw [holdStart_fw, respond_fw, getMr_of_sec (holdStart_sec _), getMr_of_sec (respond_sec ..)]
  refine ⟨rfl, rfl, power, rfl, events, preempt, ?_⟩
  show getMr (extendMr u 2 3 _) 2 = _
  rw [getMr_extendMr_self (by rw [acc.sec]; exact hs.mrs), acc.getMr]
  rfl

theorem configSet_refused_gives (h : Taken s ch m 0x08 r) (bad : configGood (fit (mbPayload m) 64) = false) :
    Gives (.configSet ch m) s fun t => Replied t r .configRange [] ∧ t.fw.configBlock = s.fw.configBlock ∧
      t.fw.state = s.fw.state ∧ t.sec = s.sec := by
  obtain ⟨u, R, acc, run⟩ := taken_accepted h
  have set : mbRun u R = holdStart (respond u R .configRange []) := by
    simp only [mbRun, acc.type, mbConfigSet, acc.payload, bad]
    rfl
  refine ⟨_, run, ?_⟩
  rw [set]
  refine ⟨replied_of_hif (holdStart_hif _) (acc.replied acc.done), ?_⟩
  rw [holdStart_fw, respond_fw, holdStart_sec, respond_sec]
  exact ⟨acc.configBlock, acc.state, acc.sec⟩

/-- The ring that an EVENT_RING_SET names on a port that has named `no` rings before. -/
def ringOf (b : Bytes) (no : Nat) : Option EvRing :=
  if le b 0 8 = 0 then none
  else some { no := no + 1, base := le b 0 8, head := le b 8 8, sizeLog2 := (byteAt b 16).toNat, vector := (byteAt b 17).toNat, count := 0 }

theorem eventRingSet_gives (h : Taken s ch m 0x09 r) (aligned : le (fit (mbPayload m) 18) 0 8 % 4096 = 0)
    (small : (byteAt (fit (mbPayload m) 18) 16).toNat ≤ 10) :
    Gives (.eventRingSet ch m) s fun t => Replied t r .ok [] ∧ (getPort t (chPort ch.toNat)).ring =
      ringOf (fit (mbPayload m) 18) (getPort s (chPort ch.toNat)).ringNo := by
  obtain ⟨u, R, acc, run⟩ := taken_accepted h
  let x : HostPortState := { getPort u (chPort ch.toNat) with
    ring := ringOf (fit (mbPayload m) 18) (getPort u (chPort ch.toNat)).ringNo,
    ringNo := (getPort u (chPort ch.toNat)).ringNo + 1, ringDropped := false }
  have set : mbRun u R = respond (setPort u (chPort ch.toNat) x) R .ok [] := by
    simp only [mbRun, acc.type, mbEventRing, acc.payload, acc.channel]
    rw [if_neg (by omega)]
    rfl
  have done : (getPort (setPort u (chPort ch.toNat) x) (chPort ch.toNat)).mbxDone = false := by
    rw [getPort_setPort_self]
    exact acc.done
  refine ⟨_, run, ?_⟩
  rw [set]
  refine ⟨acc.replied done, ?_⟩
  rw [acc.ring done, getPort_setPort_self]
  show ringOf _ (getPort u _).ringNo = _
  rw [acc.port]

theorem eventRingSet_refused_gives (h : Taken s ch m 0x09 r)
    (bad : le (fit (mbPayload m) 18) 0 8 % 4096 ≠ 0 ∨ 10 < (byteAt (fit (mbPayload m) 18) 16).toNat) :
    Gives (.eventRingSet ch m) s fun t => Replied t r .badField [] ∧
      (getPort t (chPort ch.toNat)).ring = (getPort s (chPort ch.toNat)).ring := by
  obtain ⟨u, R, acc, run⟩ := taken_accepted h
  have set : mbRun u R = respond u R .badField [] := by
    simp only [mbRun, acc.type, mbEventRing, acc.payload]
    exact if_pos bad
  refine ⟨_, run, ?_⟩
  rw [set]
  refine ⟨acc.replied acc.done, ?_⟩
  rw [acc.ring acc.done, acc.port]

/-! ## The host clears done (R524) -/

theorem mbPump_idle (go : (getPort s p).mbxGo = false) : mbPump s p = s := by
  simp [mbPump, go]

theorem execMbxDoneClear_eq (reached : bar2Open s p = true) (done : (getPort s p).mbxDone = true) :
    execMbxDoneClear p s = .next (clearDone p s) := by
  simp [execMbxDoneClear, reached, done]

/-- The state with done clear. -/
def withRead (s : State) (p : HPort) : State := setPort s p { getPort s p with mbxDone := false }

theorem withRead_port (s : State) (p : HPort) : getPort (withRead s p) p = { getPort s p with mbxDone := false } :=
  getPort_setPort_self _

theorem clearDone_none (go : (getPort s p).mbxGo = false) (held : (getPort s p).mbxHeld = none) :
    clearDone p s = withRead s p := by
  have clears : clearDone p s = mbPump (withRead s p) p := by
    simp only [clearDone, withRead, held]
  rw [clears, mbPump_idle (by rw [withRead_port]; exact go)]

theorem putHeld_port (s : State) (p : HPort) (m : Bytes) : Written (getPort s p) (getPort (putHeld s p m) p) m := by
  dsimp only [putHeld]
  split
  · rw [getPort_of_hif (holdStart_hif _)]
    exact putOut_written ..
  · exact putOut_written ..

theorem clearDone_some (go : (getPort s p).mbxGo = false) (held : (getPort s p).mbxHeld = some m) :
    clearDone p s = putHeld (withRead s p) p m := by
  have clears : clearDone p s = mbPump (putHeld (withRead s p) p m) p := by
    simp only [clearDone, withRead, held]
  rw [clears, mbPump_idle]
  rw [(putHeld_port ..).go, withRead_port]
  exact go

theorem putHeld_plain (config : (getPort s p).mbxConfig = none) : putHeld s p m = putOut s p m := by
  simp only [putHeld, config]

theorem putHeld_config {b : Bytes} (config : (getPort s p).mbxConfig = some b) :
    putHeld s p m = holdStart (applyConfig (putOut s p m) b) := by
  simp only [putHeld, config]

theorem mbxDoneClear_none_gives (reached : bar2Open s p = true) (done : (getPort s p).mbxDone = true)
    (go : (getPort s p).mbxGo = false) (held : (getPort s p).mbxHeld = none) :
    Gives (.mbxDoneClear p) s fun t => (getPort t p).mbxDone = false ∧ t.mem = s.mem ∧ t.fw = s.fw ∧ t.out = s.out := by
  refine ⟨_, (execMbxDoneClear_eq reached done).trans (by rw [clearDone_none go held]), ?_, ?_, ?_, ?_⟩
  · rw [withRead_port]
  · exact mem_eq (by simp [withRead])
  · exact fw_eq (by simp [withRead])
  · exact out_eq (by simp [withRead])

theorem mbxDoneClear_some_gives (reached : bar2Open s p = true) (done : (getPort s p).mbxDone = true)
    (go : (getPort s p).mbxGo = false) (held : (getPort s p).mbxHeld = some m) :
    Gives (.mbxDoneClear p) s fun t =>
      (getPort t p).mbxDone = true ∧ (getPort t p).mbxOut.take m.length = m ∧ (getPort t p).mbxHeld = none ∧ t.mem = s.mem ∧
      ((getPort s p).mbxConfig = none → t.fw = s.fw) ∧
      ∀ b, (getPort s p).mbxConfig = some b → t.fw.state = 4 ∧ t.fw.configBlock = b ∧ t.fw.thermalProfile = byteAt b 3 ∧
        (getPort t p).mbxConfig = none := by
  have w := putHeld_port (withRead s p) p m
  have port := withRead_port s p
  have read : (withRead s p).fw = s.fw := fw_eq (by simp [withRead])
  refine ⟨_, (execMbxDoneClear_eq reached done).trans (by rw [clearDone_some go held]), w.done, w.out, w.held, ?_, fun plain => ?_,
    fun b config => ⟨?_, ?_, ?_, w.config⟩⟩
  · exact mem_eq (by simp [withRead, putHeld]; split <;> simp)
  · rw [putHeld_plain (by rw [port]; exact plain), ← read]
    exact fw_eq (by simp)
  all_goals
    rw [putHeld_config (by rw [port]; exact config), holdStart_fw]
    rfl

/-- Settles O36. -/
theorem mailboxSettingsAndReads : Obligations.MailboxSettingsAndReads := by
  unfold Obligations.MailboxSettingsAndReads
  refine ⟨fun ch m r s hs => ⟨fun h => ⟨configSet_gives hs h, configSet_refused_gives h⟩,
      fun h => ⟨eventRingSet_gives h, eventRingSet_refused_gives h⟩⟩,
    fun ch m r s hs => ⟨certRead_gives, fun h => ?_, fun h => ?_, fun h few => ?_, fun h many => ?_, fwuStatus_gives⟩,
    fun p s reached done go => ⟨mbxDoneClear_none_gives reached done go, fun resp => mbxDoneClear_some_gives reached done go⟩⟩
  · exact entries_gives (log := fun s => s.sec.mlog) h
      (fun u R acc => ⟨by simp only [mbRun, acc.type], by rw [acc.sec]⟩) rfl
  · exact entries_gives (log := fun s => s.err.failLog) h
      (fun u R acc => ⟨by simp only [mbRun, acc.type], by rw [acc.err]⟩) rfl
  · have read := sensorRead_gives h
    rw [if_pos few, if_pos few] at read
    exact read
  · have read := sensorRead_gives h
    rw [if_neg (Nat.not_le.mpr many), if_neg (Nat.not_le.mpr many)] at read
    exact read

end Sys2Proof.Laws
end

section
/-! PROOFS. POWER_REQ (O37). -/

namespace Sys2Proof.Laws

open Sys2Proof Sys2Proof.Machine
set_option Elab.async false

variable {s t u v : State} {p q : HPort} {m M : Bytes} {r R : MbxReq} {ch : BitVec 3} {b : Bytes}

/-! ## POWER_REQ (R557, R558, R569) -/

/-- The fields of a POWER_REQ are within their ranges. -/
def powerFieldsGood (b : Bytes) : Prop :=
  (byteAt b 0).toNat ≤ 4 ∧ (if (byteAt b 0).toNat = 1 then (byteAt b 1).toNat ≤ 6 else (byteAt b 1).toNat = 0)

section Run

variable (body : fit (mbPayload R.message) 4 = b)

include body

theorem mbPowerReq_badField (bad : 4 < (byteAt b 0).toNat ∨ ((byteAt b 0).toNat = 1 ∧ 6 < (byteAt b 1).toNat) ∨
    ((byteAt b 0).toNat ≠ 1 ∧ (byteAt b 1).toNat ≠ 0)) : mbPowerReq u R = respond u R .badField := by
  simp only [mbPowerReq, body]
  rw [if_pos]
  rcases bad with h | ⟨h, k⟩ | ⟨h, k⟩
  · exact .inl h
  · exact .inr (by rw [if_pos h]; exact k)
  · exact .inr (by rw [if_neg h]; exact k)

omit body in
/-- Past the check of its fields. -/
theorem not_badField (good : powerFieldsGood b) : ¬ ((byteAt b 0).toNat > 4 ∨
    (if (byteAt b 0).toNat = 1 then (byteAt b 1).toNat > 6 else (byteAt b 1).toNat ≠ 0)) := by
  obtain ⟨known, trim⟩ := good
  split at trim
  · rw [if_pos ‹_›]; omega
  · rw [if_neg ‹_›]; omega

theorem mbPowerReq_during (good : powerFieldsGood b) (entry : u.pwr.entry.isSome = true) (other : (byteAt b 0).toNat ≠ 0) :
    mbPowerReq u R = respond u R .refused := by
  simp only [mbPowerReq, body]
  rw [if_neg (not_badField good), if_pos entry, if_neg (fun h => other h.1), if_neg other]

/-- The wake that a POWER_REQ for Open is, which waits for its answer. -/
def wakes (u : State) (R : MbxReq) : State :=
  { u with pwr := { u.pwr with wake := true, openWait := u.pwr.openWait ++ [(R, u.nowNs)] } }

omit body in
theorem wakeUp_free (free : holdOn u = false) : wakeUp u = { u with pwr := { u.pwr with wake := true } } := by
  rw [wakeUp, free]
  rfl

theorem mbPowerReq_wakes (inside : u.pwr.entry.isSome = true ∨ u.pwr.state = 3) (target : (byteAt b 0).toNat = 0)
    (trim : (byteAt b 1).toNat = 0) (free : holdOn u = false) : mbPowerReq u R = wakes u R := by
  have good : powerFieldsGood b := by simp [powerFieldsGood, target, trim]
  simp only [mbPowerReq, body]
  rw [if_neg (not_badField good)]
  by_cases entry : u.pwr.entry.isSome = true
  · rw [if_pos entry, if_pos ⟨target, free⟩, wakeUp_free free]
    rfl
  · have closed : u.pwr.state = 3 := inside.resolve_left entry
    rw [if_neg entry, if_pos (by rw [closed]; rfl), target]
    simp only [free, wakeUp_free free]
    rfl

section Open

variable (good : powerFieldsGood b) (entry : u.pwr.entry = none) (running : u.pwr.state < 3)

include good entry running

theorem mbPowerReq_runs (low : (byteAt b 0).toNat ≤ 2) : mbPowerReq u R =
    respond (enterRunState u (BitVec.ofNat 3 (byteAt b 0).toNat) (byteAt b 1).toNat) R .ok
      (powerAnswer (enterRunState u (BitVec.ofNat 3 (byteAt b 0).toNat) (byteAt b 1).toNat) (byteAt b 0).toNat 0 u.nowNs) := by
  have open_ : ¬ u.pwr.state.toNat = 3 := by
    have : u.pwr.state.toNat < 3 := running
    omega
  simp only [mbPowerReq, body, entry]
  rw [if_neg (not_badField good), if_neg (by simp), if_neg open_, if_pos low]

theorem mbPowerReq_enters (deep : (byteAt b 0).toNat = 3 ∨ ((byteAt b 0).toNat = 4 ∧ parkAllowed u = true)) :
    mbPowerReq u R = startEntry u (BitVec.ofNat 3 (byteAt b 0).toNat) false (some R) := by
  have open_ : ¬ u.pwr.state.toNat = 3 := by
    have : u.pwr.state.toNat < 3 := running
    omega
  simp only [mbPowerReq, body, entry]
  rw [if_neg (not_badField good), if_neg (by simp), if_neg open_, if_neg (by omega), if_neg]
  rintro ⟨four, no⟩
  rcases deep with h | ⟨-, yes⟩
  · omega
  · rw [no] at yes
    cases yes

theorem mbPowerReq_notParked (deep : (byteAt b 0).toNat = 4) (no : parkAllowed u = false) :
    mbPowerReq u R = respond u R .refused := by
  have open_ : ¬ u.pwr.state.toNat = 3 := by
    have : u.pwr.state.toNat < 3 := running
    omega
  simp only [mbPowerReq, body, entry]
  rw [if_neg (not_badField good), if_neg (by simp), if_neg open_, if_neg (by omega), if_pos ⟨deep, no⟩]

end Open

end Run

/-- The configuration of the power state that a run state leaves: its point of Trimmed is written with Trimmed only. -/
def runCfg (s : State) (st : BitVec 3) (trim : Nat) : BitVec 32 := if st = 1 then wrField s.pwr.cfg trim 0 4 else s.pwr.cfg

theorem enterRunState_eq (s : State) (st : BitVec 3) (trim : Nat) : ∃ gated, enterRunState s st trim =
    retarget { s with pwr := { s.pwr with state := st, cfg := runCfg s st trim, gated } } := ⟨_, rfl⟩

theorem enterRunState_pwr (s : State) (st : BitVec 3) (trim : Nat) :
    (enterRunState s st trim).pwr.state = st ∧ (enterRunState s st trim).pwr.cfg = runCfg s st trim := by
  obtain ⟨gated, goes⟩ := enterRunState_eq s st trim
  obtain ⟨drive, ceil, pwr⟩ := retarget_pwr (s := { s with pwr := { s.pwr with state := st, cfg := runCfg s st trim, gated } })
  rw [goes, pwr]
  exact ⟨rfl, rfl⟩

theorem runCfg_trim (s : State) (trim : Nat) : (runCfg s 1#3 trim).toNat % 16 = trim % 16 := by
  have field := bits_wrField_self s.pwr.cfg trim 0 4 (by omega)
  rw [runCfg, if_pos (show (1#3 : BitVec 3) = 1 from rfl)]
  simpa [bits] using field

theorem accepted_body {n : Nat} (h : Accepted s n m 0x0E r u R) : fit (mbPayload R.message) 4 = fit (mbPayload m) 4 := by
  rw [h.payload]

theorem accepted_power {n : Nat} (h : Accepted s n m 0x0E r u R) : mbRun u R = mbPowerReq u R := by simp only [mbRun, h.type]

/-- The answer of a POWER_REQ that changes nothing of the power state. -/
theorem powerReq_answers {st : Status} (h : Taken s ch m 0x0E r)
    (runs : ∀ u R, Accepted s ch.toNat m 0x0E r u R → mbPowerReq u R = respond u R st) :
    Gives (.powerReq ch m) s fun t => Replied t r st [] ∧ t.pwr = s.pwr := by
  obtain ⟨u, R, acc, run⟩ := taken_accepted h
  refine ⟨_, run, ?_⟩
  rw [accepted_power acc, runs u R acc]
  exact ⟨acc.replied acc.done, (respond_pwr ..).trans acc.pwr⟩

theorem powerReq_wakes (h : Taken s ch m 0x0E r) (inside : s.pwr.entry.isSome = true ∨ s.pwr.state = 3)
    (target : (byteAt (fit (mbPayload m) 4) 0).toNat = 0) (trim : (byteAt (fit (mbPayload m) 4) 1).toNat = 0)
    (free : holdOn s = false) :
    Gives (.powerReq ch m) s fun t =>
      (∃ w : MbxReq, t.pwr = { s.pwr with wake := true, openWait := s.pwr.openWait ++ [(w, s.nowNs)] } ∧ w.channel = ch.toNat) ∧
      (getPort t (chPort ch.toNat)).mbxDone = false ∧ t.mem = s.mem := by
  obtain ⟨u, R, acc, run⟩ := taken_accepted h
  have now : u.nowNs = s.nowNs := nowNs_eq (acc.rest _ (by decide))
  refine ⟨_, run, ?_⟩
  rw [accepted_power acc, mbPowerReq_wakes (accepted_body acc) (by rw [acc.pwr]; exact inside) target trim
    (by rw [holdOn, acc.pwr]; exact free)]
  refine ⟨⟨R, ?_, acc.channel⟩, acc.done, acc.mem⟩
  show ({ u.pwr with wake := true, openWait := u.pwr.openWait ++ [(R, u.nowNs)] } : PwrState) = _
  rw [acc.pwr, now]

theorem powerReq_runs (h : Taken s ch m 0x0E r) (entry : s.pwr.entry = none) (running : s.pwr.state < 3)
    (low : (byteAt (fit (mbPayload m) 4) 0).toNat ≤ 2) (good : powerFieldsGood (fit (mbPayload m) 4)) :
    Gives (.powerReq ch m) s fun t =>
      t.pwr.state.toNat = (byteAt (fit (mbPayload m) 4) 0).toNat ∧
      ((byteAt (fit (mbPayload m) 4) 0).toNat = 1 → t.pwr.cfg.toNat % 16 = (byteAt (fit (mbPayload m) 4) 1).toNat) ∧
      (getPort t (chPort ch.toNat)).mbxDone = true ∧ t.mem = s.mem := by
  obtain ⟨u, R, acc, run⟩ := taken_accepted h
  refine ⟨_, run, ?_⟩
  rw [accepted_power acc, mbPowerReq_runs (accepted_body acc) good (by rw [acc.pwr]; exact entry) (by rw [acc.pwr]; exact running) low]
  dsimp only
  rw [respond_pwr, respond_mem]
  generalize hb : fit (mbPayload m) 4 = b at *
  obtain ⟨state, cfg⟩ := enterRunState_pwr u (BitVec.ofNat 3 (byteAt b 0).toNat) (byteAt b 1).toNat
  have hif : (enterRunState u (BitVec.ofNat 3 (byteAt b 0).toNat) (byteAt b 1).toNat).hif = u.hif := hif_eq (by simp)
  have reply := acc.replied (v := enterRunState u (BitVec.ofNat 3 (byteAt b 0).toNat) (byteAt b 1).toNat) (st := .ok)
    (fields := powerAnswer (enterRunState u (BitVec.ofNat 3 (byteAt b 0).toNat) (byteAt b 1).toNat) (byteAt b 0).toNat 0 u.nowNs)
    (by rw [getPort_of_hif hif]; exact acc.done)
  refine ⟨?_, fun one => ?_, ?_, ?_⟩
  · rw [state, BitVec.toNat_ofNat, Nat.mod_eq_of_lt (by omega)]
  · have small : (byteAt b 1).toNat ≤ 6 := by
      have := good.2
      rwa [if_pos one] at this
    rw [cfg, one, runCfg_trim, Nat.mod_eq_of_lt (by omega)]
  · rw [← acc.channel']
    exact reply.1
  · exact (mem_eq (by simp)).trans acc.mem

theorem powerReq_enters (h : Taken s ch m 0x0E r) (entry : s.pwr.entry = none) (running : s.pwr.state < 3)
    (deep : (byteAt (fit (mbPayload m) 4) 0).toNat = 3 ∨ ((byteAt (fit (mbPayload m) 4) 0).toNat = 4 ∧ parkAllowed s = true))
    (trim : (byteAt (fit (mbPayload m) 4) 1).toNat = 0) :
    Gives (.powerReq ch m) s fun t =>
      (∃ e, t.pwr.entry = some e ∧ e.target.toNat = (byteAt (fit (mbPayload m) 4) 0).toNat ∧ e.stage = 0 ∧ e.byHold = false ∧
        e.started = s.nowNs) ∧ (getPort t (chPort ch.toNat)).mbxDone = false ∧ t.mem = s.mem := by
  obtain ⟨u, R, acc, run⟩ := taken_accepted h
  have now : u.nowNs = s.nowNs := nowNs_eq (acc.rest _ (by decide))
  have good : powerFieldsGood (fit (mbPayload m) 4) := by
    rcases deep with h | ⟨h, -⟩ <;> simp [powerFieldsGood, h, trim]
  refine ⟨_, run, ?_⟩
  rw [accepted_power acc, mbPowerReq_enters (accepted_body acc) good (by rw [acc.pwr]; exact entry) (by rw [acc.pwr]; exact running)
    (by rw [acc.parkAllowed]; exact deep)]
  refine ⟨⟨_, rfl, ?_, rfl, rfl, now⟩, acc.done, acc.mem⟩
  show (BitVec.ofNat 3 _).toNat = _
  rw [BitVec.toNat_ofNat, Nat.mod_eq_of_lt (by omega)]

/-- Settles O37. -/
theorem powerRequests : Obligations.PowerRequests := by
  unfold Obligations.PowerRequests
  intro ch m r s _ h
  refine ⟨fun inside target trim free => powerReq_wakes h inside target trim free, fun entry known trim other => ?_, fun bad => ?_,
    fun entry running => ⟨fun low trim => ?_, fun deep trim => powerReq_enters h entry running deep trim, fun deep trim no => ?_⟩⟩
  · exact powerReq_answers h fun u R acc =>
      mbPowerReq_during (accepted_body acc) ⟨known, trim⟩ (by rw [acc.pwr]; exact entry) other
  · exact powerReq_answers h fun u R acc => mbPowerReq_badField (accepted_body acc) bad
  · exact powerReq_runs h entry running low ⟨by omega, trim⟩
  · exact powerReq_answers h fun u R acc =>
      mbPowerReq_notParked (accepted_body acc) (by simp [powerFieldsGood, deep, trim]) (by rw [acc.pwr]; exact entry)
        (by rw [acc.pwr]; exact running) deep (by rw [acc.parkAllowed]; exact no)

end Sys2Proof.Laws
end

section
/-! PROOFS. Live-update messages (O38). -/

namespace Sys2Proof.Laws

open Sys2Proof Sys2Proof.Machine
set_option Elab.async false

variable {s t u v : State} {p q : HPort} {m M : Bytes} {kind : Nat} {r R : MbxReq} {ch : BitVec 3}

/-! ## Live-update messages (R533 to R535) -/

theorem fwuStage_gives (h : Taken s ch m 0x10 r) (phase : s.fw.phase < 3) (area : s.fw.area = true)
    (aligned : le (fit (mbPayload m) 12) 0 8 % 64 = 0) (small : le (fit (mbPayload m) 12) 8 4 ≤ 24 * 2 ^ 20)
    (good : (read s .dram (le (fit (mbPayload m) 12) 0 8) (le (fit (mbPayload m) 12) 8 4)).err = none) :
    Gives (.fwuStage ch m) s fun t => Replied t r .ok [] ∧
      t.fw.staged = some (memRead s.mem (le (fit (mbPayload m) 12) 0 8) (le (fit (mbPayload m) 12) 8 4)) ∧
      t.fw.verified = false ∧ t.fw.phase = 1 ∧ t.mem = s.mem := by
  obtain ⟨u, R, acc, run⟩ := taken_accepted h
  generalize hb : fit (mbPayload m) 12 = b at *
  have data : (read s .dram (le b 0 8) (le b 8 4)).data = memRead s.mem (le b 0 8) (le b 8 4) := by
    rw [Machine.read] at good ⊢
    split at good
    · rw [if_pos ‹_›]
    · cases good
  have stage : mbRun u R = respond { u with fw := { u.fw with staged := some (memRead s.mem (le b 0 8) (le b 8 4)), verified := false, phase := 1 } } R .ok := by
    simp only [mbRun, acc.type, mbStage, acc.payload, hb, acc.read]
    rw [if_neg, if_neg]
    · simp only [good, data]
    · rintro (h | h) <;> omega
    · rw [acc.phase, acc.area, area]
      rintro (h | h)
      · exact absurd phase (BitVec.not_lt.mpr h)
      · cases h
  refine ⟨_, run, ?_⟩
  rw [stage]
  refine ⟨acc.replied acc.done, ?_⟩
  rw [respond_fw, respond_mem]
  exact ⟨rfl, rfl, rfl, acc.mem⟩

/-- The mark of a staged image after its verification, whose outcome is `e`. -/
def marked (u : State) (e : Nat) : State :=
  { u with fw := { u.fw with verified := e == 0, phase := if e = 0 then 2 else 1 } }

theorem fwuVerify_gives {img : Bytes} (h : Taken s ch m 0x11 r) (staged : s.fw.staged = some img) (phase : s.fw.phase < 3) :
    Gives (.fwuVerify ch m) s fun t =>
      Replied t r .ok ([BitVec.ofNat 8 (imageCheck s img)] ++ leBytes 4 (imVersion img) ++ leBytes 2 (imSvn img)) ∧
      t.fw.verified = decide (imageCheck s img = 0) ∧ t.fw.phase = (if imageCheck s img = 0 then 2 else 1) ∧ t.mem = s.mem := by
  obtain ⟨u, R, acc, run⟩ := taken_accepted h
  have marks : mbRun u R = respond (marked u (imageCheck s img)) R .ok
      ([BitVec.ofNat 8 (imageCheck s img)] ++ leBytes 4 (imVersion img) ++ leBytes 2 (imSvn img)) := by
    simp only [mbRun, acc.type, mbVerifyImage, marked, acc.staged, staged, acc.imageCheck]
    rw [if_neg (by rw [acc.phase]; exact BitVec.not_le.mpr phase)]
  refine ⟨_, run, ?_⟩
  rw [marks]
  refine ⟨acc.replied acc.done, ?_⟩
  rw [respond_fw, respond_mem]
  exact ⟨Bool.beq_eq_decide_eq .., rfl, acc.mem⟩

theorem fwuActivate_gives (h : Taken s ch m 0x12 r) (verified : s.fw.verified = true) (phase : s.fw.phase < 3)
    (running : s.pwr.state < 3) (settled : s.hif.wtWait = none) :
    Gives (.fwuActivate ch m) s fun t =>
      t.fw.state = 5 ∧ t.fw.phase = 3 ∧ t.fw.mbxReady = false ∧ t.fw.image = s.fw.image ∧ t.mem = s.mem ∧
      (getPort t (chPort ch.toNat)).mbxDone = false := by
  obtain ⟨u, R, acc, run⟩ := taken_accepted h
  have enters : mbRun u R = { u with fw := { u.fw with phase := 3, state := 5, activate := some R, mbxReady := false } } := by
    simp only [mbRun, acc.type, mbActivate]
    rw [if_neg]
    rw [acc.fwVerified, acc.phase, acc.pwr, acc.wtWait, verified, settled]
    rintro (h | h | h | h)
    · cases h
    · exact absurd phase (BitVec.not_lt.mpr h)
    · exact absurd running (BitVec.not_lt.mpr h)
    · cases h
  refine ⟨_, run, ?_⟩
  rw [enters]
  exact ⟨rfl, rfl, rfl, acc.image, acc.mem, acc.done⟩

theorem fwuAbort_gives (h : Taken s ch m 0x13 r) (phase : s.fw.phase < 3) :
    Gives (.fwuAbort ch m) s fun t => Replied t r .ok [] ∧ t.fw.verified = false ∧
      t.fw.phase = (if s.fw.staged.isSome then 1 else 0) ∧ t.fw.staged = s.fw.staged := by
  obtain ⟨u, R, acc, run⟩ := taken_accepted h
  have aborts : mbRun u R =
      respond { u with fw := { u.fw with verified := false, phase := if u.fw.staged.isSome then 1 else 0 } } R .ok := by
    simp only [mbRun, acc.type, mbAbort]
    rw [if_neg (by rw [acc.phase]; exact BitVec.not_le.mpr phase)]
  refine ⟨_, run, ?_⟩
  rw [aborts]
  refine ⟨acc.replied acc.done, ?_⟩
  rw [respond_fw]
  refine ⟨rfl, ?_, acc.staged⟩
  show (if u.fw.staged.isSome then 1 else 0) = _
  rw [acc.staged]

/-! ## The same messages without a key (R529) -/

/-- A message that needs a key and has none is answered with KEY_FAIL, and nothing else happens. -/
theorem unkeyed_serves {n : Nat} (version : mbVersion m = none) (need : mbNoKey s m = true) :
    mbServe s n m = respond s { channel := n, message := m, key := none } .keyFail := by
  have fails : firstFail [mbVersion m, failIf (mbNoKey s m) .keyFail, mbHeader m,
      failIf (decide (s.fw.state < 2) && !(romType (mbType m))) .fwState] = some .keyFail := by
    rw [version, need]
    rfl
  simp only [mbServe, fails]

theorem unkeyed_gives {c : Instr} (run : exec c s = mbCommand kind ch m s) (update : 0x10 ≤ kind ∧ kind ≤ 0x13)
    (bar2 : ch.toNat < 2) (reached : bar2Open s (chPort ch.toNat) = true) (free : (getPort s (chPort ch.toNat)).mbxGo = false)
    (done : (getPort s (chPort ch.toNat)).mbxDone = false) (served : s.fw.mbxReady = true)
    (idle : mbInService s ch.toNat = false) (version : mbVersion m = none) (type : mbType m = kind) (started : 2 ≤ s.fw.state)
    (plain : mbKeyed m = false) (len : 32 ≤ m.length) (fits : m.length ≤ 4096) :
    Gives c s fun t => Replied t { channel := ch.toNat, message := m, key := none } .keyFail [] ∧ t.fw = s.fw ∧ t.sec = s.sec ∧
      t.mem = s.mem := by
  let w := withMail s (chPort ch.toNat) m
  let M := inbox s (chPort ch.toNat) m
  have pre : m <+: M := prefix_inbox
  have need : mbNoKey w M = true := by
    have fw : w.fw = s.fw := withMail_fw ..
    rw [mbNoKey_prefix pre len, mbNoKey, plain, type, mbNeed, if_pos update, fw, decide_eq_true started]
    rfl
  have goes : mbArrive s ch.toNat m = respond w { channel := ch.toNat, message := M, key := none } .keyFail := by
    rw [mbArrive_serves bar2 reached free served idle fits]
    exact unkeyed_serves (by rw [mbVersion_prefix pre len, version]) need
  have port : (getPort w (chPort ch.toNat)).mbxDone = false := by
    rw [withMail_port]
    exact done
  have written := respond_written (v := w) (R := { channel := ch.toNat, message := M, key := none }) (st := .keyFail) (fields := [])
    bar2 port
  rw [mbResponse_prefix pre len] at written
  refine ⟨_, run.trans (by rw [mbCommand, if_pos type, goes]), ⟨written.done, written.out⟩, ?_, ?_, ?_⟩
  · rw [respond_fw, withMail_fw]
  · rw [respond_sec, sec_eq (withMail_rest _ _ _ (by decide))]
  · rw [respond_mem, mem_eq (withMail_rest _ _ _ (by decide))]

/-- Settles O38. -/
theorem updateMessages : Obligations.UpdateMessages := by
  unfold Obligations.UpdateMessages
  intro ch m r s _
  refine ⟨fwuStage_gives, fun img => fwuVerify_gives, fwuActivate_gives, fwuAbort_gives, ?_⟩
  intro kind c listed bar2 reached free done served idle version type started plain len fits
  simp only [List.mem_cons, Prod.mk.injEq, List.not_mem_nil, or_false] at listed
  rcases listed with ⟨rfl, rfl⟩ | ⟨rfl, rfl⟩ | ⟨rfl, rfl⟩ | ⟨rfl, rfl⟩ <;>
    exact unkeyed_gives rfl (by decide) bar2 reached free done served idle version type started plain len fits

end Sys2Proof.Laws
end

section
/-! PROOFS. Firmware resumes: what it restores, delivers and answers. -/

namespace Sys2Proof.Laws

open Sys2Proof Sys2Proof.Machine
set_option Elab.async false

variable {s t u v : State} {p q : HPort} {m M : Bytes} {kind : Nat} {r R : MbxReq} {st : Status} {fields : Bytes}

/-! ## The point below the ceilings (R33, R549) -/

/-- The lower of two ceilings, of which the first may not be set. -/
def lowerOf (m : Option Nat) (x : Nat) : Option Nat := some (match m with | some y => min x y | none => x)

theorem foldl_lowerOf (l : List Nat) (x : Nat) (o : Option Nat) (h : x ∈ l ∨ ∃ y, o = some y ∧ y ≤ x) :
    ∃ y, l.foldl lowerOf o = some y ∧ y ≤ x := by
  induction l generalizing o with
  | nil => simpa using h
  | cons a l ih =>
    refine ih _ ?_
    rcases h with h | ⟨y, rfl, hy⟩
    · rcases List.mem_cons.mp h with rfl | h
      · cases o with
        | none => exact .inr ⟨x, rfl, le_rfl⟩
        | some y => exact .inr ⟨min x y, rfl, Nat.min_le_left ..⟩
      · exact .inl h
    · exact .inr ⟨min a y, rfl, (Nat.min_le_right ..).trans hy⟩

/-- The active hardware ceilings (R552, R538). -/
def hwCeils (c : CeilState) : List Nat :=
  (match c.fast with | some f => [f] | none => []) ++ (if c.overcurrent then [0] else []) ++ (if c.hot then [2] else []) ++
    (if c.inputLow then [0] else []) ++ (if c.loopHold then [2] else [])

theorem hwCeil_eq (c : CeilState) : hwCeil c = (hwCeils c).foldl lowerOf none := rfl

theorem hwCeil_le {c : CeilState} {x : Nat} (h : x ∈ hwCeils c) : (hwCeil c).getD 6 ≤ x := by
  obtain ⟨y, low, hy⟩ := foldl_lowerOf (hwCeils c) x none (.inl h)
  rw [hwCeil_eq, low]
  exact hy

theorem lowestCeil_le_hwCeil (s : State) : lowestCeil s ≤ (hwCeil s.pwr.ceil).getD 6 := by
  simp only [lowestCeil]
  omega

/-- With no change in progress the point goes under the ceilings at once. -/
theorem retarget_low (on : computeOn s = true) (free : s.pwr.ceil.change = none) :
    (retarget s).pwr.ceil.point ≤ lowestCeil s := by
  rw [retarget, if_pos on, seek]
  simp only [free]
  split
  · exact ge_of_eq ‹_›
  · dsimp only [beginChange]
    split <;> exact Nat.min_le_left ..

theorem withCeil_low {f : CeilState → CeilState} {x : Nat} (on : computeOn s = true) (free : (f s.pwr.ceil).change = none)
    (set : x ∈ hwCeils (f s.pwr.ceil)) : (withCeil s f).pwr.ceil.point ≤ x :=
  (retarget_low (s := setCeil s (f s.pwr.ceil)) on free).trans ((lowestCeil_le_hwCeil _).trans (hwCeil_le set))

/-! ## The mailbox between requests: whether go is set -/

/-- go of both ports. -/
def goOf (s : State) : Bool × Bool := (s.hif.a.mbxGo, s.hif.b.mbxGo)

theorem goOf_of_hif (h : t.hif = s.hif) : goOf t = goOf s := by rw [goOf, h, goOf]

theorem goOf_setPort {x : HostPortState} (h : x.mbxGo = (getPort s p).mbxGo) : goOf (setPort s p x) = goOf s := by
  cases p
  · exact congrArg (·, s.hif.b.mbxGo) h
  · exact congrArg (s.hif.a.mbxGo, ·) h

theorem goOf_sendMsix (s : State) (p : HPort) (n : Nat) : goOf (sendMsix s p n) = goOf s := by
  dsimp only [sendMsix]
  split
  · exact goOf_setPort rfl
  · split <;> rfl

theorem goOf_respond (s : State) (R : MbxReq) (st : Status) (fields : Bytes) : goOf (respond s R st fields) = goOf s := by
  dsimp only [respond, sendResponse]
  split
  · split
    · exact goOf_setPort rfl
    · dsimp only [putOut]
      split
      · exact (goOf_sendMsix ..).trans (goOf_setPort rfl)
      · exact goOf_setPort rfl
  · split <;> rfl

theorem goOf_reported (h : Reported s t) : goOf t = goOf s := h.ofHif (fun x => (x.a.mbxGo, x.b.mbxGo)) fun _ => rfl

/-! ## Firmware resumes (R541) -/

/-- No request waits for firmware. -/
def Calm (s : State) : Prop := s.fw.waiting = [] ∧ goOf s = (false, false)

/-- Firmware serves the mailbox again; nothing has been delivered yet. -/
def serving (s : State) : State :=
  { s with fw := { s.fw with state := 4, mbxReady := true, evQueue := [], waiting := [] } }

/-- A record that waited goes to the rings of its ports. -/
def deliverTo (s : State) (e : Bytes × List HPort) : State := e.2.foldl (fun y p => toRing y e.1 p) s

theorem deliverTo_reported (s : State) (e : Bytes × List HPort) : Reported s (deliverTo s e) :=
  Reported.foldl (fun y p => toRing_reported y e.1 p) e.2 s

/-- The events that waited are delivered. -/
def delivered (s : State) : State := s.fw.evQueue.foldl deliverTo (serving s)

theorem delivered_reported (s : State) : Reported (serving s) (delivered s) := Reported.foldl deliverTo_reported _ _

/-- Where no request waits, firmware delivers what waited, and that is all. -/
theorem resumeFw_calm (calm : Calm s) : resumeFw s = delivered s := by
  obtain ⟨none, go⟩ := calm
  have goes : resumeFw s = mbPump (mbPump (delivered s) .a) .b := by
    simp only [resumeFw, none]
    rfl
  have still : goOf (delivered s) = (false, false) := by
    rw [goOf_reported (delivered_reported s), ← go]
    rfl
  obtain ⟨a, b⟩ := Prod.mk.inj still
  rw [goes, mbPump_idle (p := .a) a, mbPump_idle (p := .b) b]

theorem resumeFw_reported (calm : Calm s) : Reported (serving s) (resumeFw s) := by
  rw [resumeFw_calm calm]
  exact delivered_reported s

/-! ## The image restores what it kept (R539, R540) -/

/-- The state of firmware beside its configuration. -/
def unconfigured (f : FwState) : FwState :=
  { f with configBlock := [], powerLimit := 0, parkedBypass := false, thermalProfile := 0, eventMask := 0, preemptMin := 0 }

/-- An operation that changes no more of firmware than its configuration, and no mailbox. -/
structure Reconfigured (s t : State) : Prop where
  fw : unconfigured t.fw = unconfigured s.fw
  go : goOf t = goOf s
  err : t.err = s.err
  sec : t.sec = s.sec

theorem Reconfigured.ofFw {α : Type} (h : Reconfigured s t) (g : FwState → α) (hg : ∀ x, g (unconfigured x) = g x) :
    g t.fw = g s.fw := by rw [← hg t.fw, h.fw, hg]

theorem restoreHandoff_reconfigured (s : State) (b : Bytes) : Reconfigured s (restoreHandoff s b) := by
  rw [restoreHandoff]
  split
  · split <;> exact ⟨rfl, rfl, rfl, rfl⟩
  · exact ⟨rfl, rfl, rfl, rfl⟩

theorem loseHandoff_reconfigured (s : State) : Reconfigured s (loseHandoff s) := ⟨rfl, rfl, rfl, rfl⟩

theorem resumeOwn_reconfigured (s : State) : Reconfigured s (resumeOwn s) := by
  rw [resumeOwn]
  split
  · exact restoreHandoff_reconfigured ..
  · exact loseHandoff_reconfigured s

/-! ## Loops and the waiting FWU_ACTIVATE (R535, R538) -/

theorem takeLoops_fw (s : State) : (takeLoops s).fw.loopsTaken = true ∧ ∃ phase,
    (takeLoops s).fw = { s.fw with loopsTaken := true, phase } := by
  rw [takeLoops]
  split
  · rename_i taken
    exact ⟨taken, s.fw.phase, by rw [← taken]⟩
  · have fw : ∀ x f, (withCeil x f).fw = x.fw := fun x f => fw_eq (by simp)
    rw [fw]
    exact ⟨rfl, _, rfl⟩

theorem takeLoops_hif (s : State) : (takeLoops s).hif = s.hif := hif_eq (by simp)
theorem takeLoops_sec (s : State) : (takeLoops s).sec = s.sec := sec_eq (by simp)

theorem answerActivate_fw (s : State) (st : Status) : (answerActivate s st).fw = { s.fw with activate := none } := by
  rw [answerActivate]
  split
  · rename_i no
    rw [← no]
  · exact respond_fw ..

theorem answerActivate_go (s : State) (st : Status) : goOf (answerActivate s st) = goOf s := by
  rw [answerActivate]
  split
  · rfl
  · exact (goOf_respond ..).trans rfl

theorem answerActivate_sec (s : State) (st : Status) : (answerActivate s st).sec = s.sec := sec_eq (by simp)
theorem answerActivate_err (s : State) (st : Status) : (answerActivate s st).err = s.err := err_eq (by simp)

/-! ## The Control Cluster stops (R593) -/

theorem stopControl_stops (s : State) : (stopControl s).err.fwFatal = true ∧ (stopControl s).fw.state = 0 ∧
    (stopControl s).fw.mbxReady = false ∧ (stopControl s).pwr.alert.isSome = true := by
  let x := raiseEvent s .fwFatal 0 0
  let y : State := { x with fw := { x.fw with state := 0, mbxReady := false, ccFailAt := some s.nowNs }, err := { x.err with fwFatal := true } }
  have goes : stopControl s = settleAlert y := rfl
  have fw : (settleAlert y).fw = y.fw := settleAlert_fw
  have err : (settleAlert y).err = y.err := err_eq (by simp)
  rw [goes, fw, err]
  exact ⟨rfl, rfl, rfl, settleAlert_alerts (by simp [alertCause, y])⟩

theorem stopControl_image (s : State) : (stopControl s).fw.image = s.fw.image := by
  have fw : ∀ y, (settleAlert y).fw = y.fw := fun y => settleAlert_fw
  rw [stopControl, fw]
  exact (raiseEvent_reported s .fwFatal 0 0 []).ofFw (·.image) fun _ => rfl

end Sys2Proof.Laws
end

section
/-! PROOFS. A live update switches, confirms or reverts (O39). -/

namespace Sys2Proof.Laws

open Sys2Proof Sys2Proof.Machine
set_option Elab.async false

variable {s t u v : State} {p q : HPort} {may : Spot → Bool}

/-! ## What a resumption leaves of the other parts -/

theorem delivered_rest (s : State) (hw : may .out ∧ may .hif ∧ may .fw) : rest may (delivered s) = rest may s := by
  have each : ∀ x e, rest may (deliverTo x e) = rest may x := fun x e =>
    List.foldlRecOn (motive := fun y => rest may y = rest may x) _ _ rfl fun y h p _ => (toRing_rest y _ p hw).trans h
  refine List.foldlRecOn (motive := fun y => rest may y = rest may s) _ _ ?_ fun y h e _ => (each y e).trans h
  simp [serving, hw]

theorem resumeFw_sec (calm : Calm s) : (resumeFw s).sec = s.sec := by
  rw [resumeFw_calm calm]
  exact sec_eq (delivered_rest s (by decide))

/-- Calm turns on the requests that wait and on go of both ports. -/
theorem calm_of (waiting : t.fw.waiting = s.fw.waiting) (go : goOf t = goOf s) (calm : Calm s) : Calm t :=
  ⟨waiting.trans calm.1, go.trans calm.2⟩

/-- The switch to a new firmware: FWU_ACTIVATE is answered and firmware resumes. Beside the events that waited, the state of
firmware is the one before with its state, its mailbox and its requests. -/
theorem resumed_fw {α : Type} (calm : Calm s) (st : Status) (g : FwState → α) (hg : ∀ x, g (fwQuiet x) = g x) :
    g (resumeFw (answerActivate s st)).fw = g { s.fw with activate := none, state := 4, mbxReady := true, evQueue := [], waiting := [] } := by
  have still : Calm (answerActivate s st) := calm_of (by rw [answerActivate_fw]) (answerActivate_go s st) calm
  rw [(resumeFw_reported still).ofFw g hg, serving, answerActivate_fw]

theorem resumed_sec (calm : Calm s) (st : Status) : (resumeFw (answerActivate s st)).sec = s.sec := by
  have still : Calm (answerActivate s st) := calm_of (by rw [answerActivate_fw]) (answerActivate_go s st) calm
  rw [resumeFw_sec still, answerActivate_sec]

theorem resumed_mem (s : State) (st : Status) : (resumeFw (answerActivate s st)).mem = s.mem := mem_eq (by simp)

/-! ## The switch (R535, R538) -/

theorem fwuSwitch_waits (waits : serviceDone s = false) : Gives .fwuSwitch s fun t => t = s := by
  refine ⟨s, ?_, rfl⟩
  show execFwuSwitch s = _
  rw [execFwuSwitch]
  split
  · rfl
  · rw [if_neg]
    rintro ⟨-, -, done⟩
    rw [waits] at done
    cases done

/-- The state in which the staged image `b` runs. -/
def switched (s : State) (b : Bytes) : State := extendMr (runImage (writeHandoff s) b) 3 2 (imDigest b)

theorem switched_getMr (hs : Sound s) (b : Bytes) : getMr (switched s b) 3 = shake256 (getMr s 3 ++ [2, 0, 0, 0] ++ imDigest b) :=
  getMr_extendMr_self (s := runImage (writeHandoff s) b) hs.mrs 3 2 (imDigest b)

theorem fwuSwitch_gives {img : Bytes} (hs : Sound s) (staged : s.fw.staged = some img) (state : s.fw.state = 5)
    (phase : s.fw.phase = 3) (done : serviceDone s = true) :
    Gives .fwuSwitch s fun t =>
      t.fw.image = img ∧ t.fw.phase = 4 ∧ t.fw.switchAt = s.nowNs ∧ t.fw.loopsTaken = false ∧ t.fw.handoff.isSome = true ∧
      t.fw.oldImage = s.fw.oldImage ∧ t.sec.svn = BitVec.ofNat 16 (imSvn img) ∧
      getMr t 3 = shake256 (getMr s 3 ++ [2, 0, 0, 0] ++ imDigest img) ∧ t.mem = s.mem := by
  refine ⟨{ switched s img with fw := { (switched s img).fw with phase := 4, switchAt := s.nowNs, loopsTaken := false } }, ?_,
    rfl, rfl, rfl, rfl, rfl, rfl, rfl, ?_, rfl⟩
  · show execFwuSwitch s = _
    simp only [execFwuSwitch, staged]
    rw [if_pos ⟨state, phase, done⟩]
    rfl
  · exact (getMr_of_sec (s := switched s img) rfl 3).trans (switched_getMr hs img)

/-! ## Loops held (R538) -/

theorem loopHoldTimeout_gives (taken : s.fw.loopsTaken = false) (free : s.pwr.ceil.loopHold = false)
    (late : s.fw.switchAt + 20000000 ≤ s.nowNs) :
    Gives .loopHoldTimeout s fun t => t.pwr.ceil.loopHold = true ∧ t.fw.loopHolds = satAdd s.fw.loopHolds 1 ∧
      (computeOn s = true → s.pwr.ceil.change = none → t.pwr.ceil.point ≤ 2) ∧ t.mem = s.mem := by
  let x : State := { s with fw := { s.fw with loopHolds := satAdd s.fw.loopHolds 1 } }
  let f : CeilState → CeilState := fun c => { c with loopHold := true }
  obtain ⟨d, pt, ch, w, -, pwr⟩ := withCeil_moves (s := x) f
  have fw : (withCeil x f).fw = x.fw := fw_eq (by simp)
  have mem : (withCeil x f).mem = s.mem := mem_eq (t := withCeil x f) (s := x) (by simp)
  refine ⟨withCeil x f, if_pos ⟨taken, free, late⟩, by rw [pwr], by rw [fw], fun on still => ?_, mem⟩
  exact withCeil_low (s := x) on still (List.mem_append_right _ (List.mem_singleton_self 2))

/-! ## Confirmation (R539) -/

/-- The image with what its record holds, and with the loops. -/
def restored (s : State) : State := takeLoops (restoreHandoff s (s.fw.handoff.getD []))

/-- The new image has confirmed. -/
def confirmed (s : State) : State :=
  { restored s with
    sec := { (restored s).sec with liveUpdated := true },
    fw := { (restored s).fw with phase := 5, verified := false, updates := satAdd (restored s).fw.updates 1, state := 4, lastOutcome := Config.updateOutcome true } }

theorem restored_fw {α : Type} (s : State) (g : FwState → α) (hg : ∀ x ph, g { x with loopsTaken := true, phase := ph } = g x)
    (hu : ∀ x, g (unconfigured x) = g x) : g (restored s).fw = g s.fw := by
  obtain ⟨-, ph, fw⟩ := takeLoops_fw (restoreHandoff s (s.fw.handoff.getD []))
  rw [restored, fw, hg]
  exact (restoreHandoff_reconfigured s _).ofFw g hu

theorem confirmed_calm (calm : Calm s) : Calm (confirmed s) := by
  have waiting : (confirmed s).fw.waiting = s.fw.waiting := restored_fw s (·.waiting) (fun _ _ => rfl) fun _ => rfl
  have hif : (confirmed s).hif = (restoreHandoff s (s.fw.handoff.getD [])).hif := takeLoops_hif _
  exact calm_of waiting ((goOf_of_hif hif).trans (restoreHandoff_reconfigured s _).go) calm

theorem fwuConfirm_gives (state : s.fw.state = 5) (phase : 4 ≤ s.fw.phase) (inTime : s.nowNs < s.fw.switchAt + 500000000)
    (accepted : s.fw.handoff.map acceptRecord = some true) (calm : Calm s) :
    Gives .fwuConfirm s fun t =>
      t.fw.state = 4 ∧ t.fw.phase = 5 ∧ t.fw.updates = satAdd s.fw.updates 1 ∧ t.fw.image = s.fw.image ∧
      t.fw.loopsTaken = true ∧ t.fw.mbxReady = true ∧ t.sec.liveUpdated = true ∧ t.fw.activate = none ∧ t.mem = s.mem := by
  have still := confirmed_calm calm
  refine ⟨resumeFw (answerActivate (confirmed s) .ok), ?_, ?_, ?_, ?_, ?_, ?_, ?_, ?_, ?_, ?_⟩
  · show execFwuConfirm s = _
    rw [execFwuConfirm, if_pos ⟨state, phase, inTime, by rw [accepted]; rfl⟩]
    rfl
  · exact resumed_fw still .ok (·.state) fun _ => rfl
  · exact resumed_fw still .ok (·.phase) fun _ => rfl
  · refine (resumed_fw still .ok (·.updates) fun _ => rfl).trans ?_
    exact congrArg (satAdd · 1) (restored_fw s (·.updates) (fun _ _ => rfl) fun _ => rfl)
  · refine (resumed_fw still .ok (·.image) fun _ => rfl).trans ?_
    exact restored_fw s (·.image) (fun _ _ => rfl) fun _ => rfl
  · exact (resumed_fw still .ok (·.loopsTaken) fun _ => rfl).trans (takeLoops_fw _).1
  · exact resumed_fw still .ok (·.mbxReady) fun _ => rfl
  · rw [resumed_sec still]
    rfl
  · exact resumed_fw still .ok (·.activate) fun _ => rfl
  · rw [resumed_mem]
    exact mem_eq (t := restored s) (by simp [restored])

/-! ## Reversion (R540) -/

/-- The old image with its own record, before it has the loops. -/
def oldResumed (s : State) : State := resumeOwn (extendMr (runImage s s.fw.oldImage) 3 2 (imDigest s.fw.oldImage))

/-- The old image has the loops again. -/
def oldTaken (s : State) : State :=
  takeLoops { oldResumed s with fw := { (oldResumed s).fw with phase := 0, verified := false } }

/-- The update is undone. -/
def reverted (s : State) : State :=
  { oldTaken s with fw := { (oldTaken s).fw with reverts := satAdd (oldTaken s).fw.reverts 1, lastOutcome := Config.updateOutcome false, state := 4 } }

theorem oldTaken_fw {α : Type} (s : State) (g : FwState → α)
    (hg : ∀ x v ph, g { x with loopsTaken := true, phase := ph, verified := v } = g x) (hu : ∀ x, g (unconfigured x) = g x) :
    g (oldTaken s).fw = g (runImage s s.fw.oldImage).fw := by
  obtain ⟨-, ph, fw⟩ := takeLoops_fw { oldResumed s with fw := { (oldResumed s).fw with phase := 0, verified := false } }
  rw [oldTaken, fw]
  refine (hg (oldResumed s).fw false ph).trans ?_
  exact (resumeOwn_reconfigured (extendMr (runImage s s.fw.oldImage) 3 2 (imDigest s.fw.oldImage))).ofFw g hu

theorem reverted_calm (calm : Calm s) : Calm (reverted s) := by
  have waiting : (reverted s).fw.waiting = s.fw.waiting := oldTaken_fw s (·.waiting) (fun _ _ _ => rfl) fun _ => rfl
  have hif : (reverted s).hif = (oldResumed s).hif := takeLoops_hif _
  exact calm_of waiting ((goOf_of_hif hif).trans (resumeOwn_reconfigured _).go) calm

section Revert

variable {refused : Bool} (state : s.fw.state = 5) (phase : 4 ≤ s.fw.phase)
  (due : refused = true ∨ s.fw.switchAt + 500000000 ≤ s.nowNs)

include state phase due

theorem fwuRevert_gives (passes : imageCheck s s.fw.oldImage = 0) (calm : Calm s) :
    Gives (.fwuRevert refused) s fun t =>
      t.fw.state = 4 ∧ t.fw.image = s.fw.oldImage ∧ t.fw.reverts = satAdd s.fw.reverts 1 ∧ t.fw.updates = s.fw.updates ∧
      t.fw.loopsTaken = true ∧ t.sec.svn = BitVec.ofNat 16 (imSvn s.fw.oldImage) ∧ t.mem = s.mem := by
  have still := reverted_calm calm
  refine ⟨resumeFw (answerActivate (reverted s) .fwuReverted), ?_, ?_, ?_, ?_, ?_, ?_, ?_, ?_⟩
  · show execFwuRevert refused s = _
    rw [execFwuRevert, if_pos ⟨state, phase, due⟩]
    exact if_neg (fun h => h passes)
  · exact resumed_fw still .fwuReverted (·.state) fun _ => rfl
  · refine (resumed_fw still .fwuReverted (·.image) fun _ => rfl).trans ?_
    exact oldTaken_fw s (·.image) (fun _ _ _ => rfl) fun _ => rfl
  · refine (resumed_fw still .fwuReverted (·.reverts) fun _ => rfl).trans ?_
    exact congrArg (satAdd · 1) (oldTaken_fw s (·.reverts) (fun _ _ _ => rfl) fun _ => rfl)
  · refine (resumed_fw still .fwuReverted (·.updates) fun _ => rfl).trans ?_
    exact oldTaken_fw s (·.updates) (fun _ _ _ => rfl) fun _ => rfl
  · exact (resumed_fw still .fwuReverted (·.loopsTaken) fun _ => rfl).trans (takeLoops_fw _).1
  · have sec : (reverted s).sec = (oldResumed s).sec := takeLoops_sec _
    rw [resumed_sec still, sec, oldResumed, (resumeOwn_reconfigured _).sec]
    rfl
  · rw [resumed_mem]
    exact mem_eq (t := oldTaken s) (by simp [oldTaken, oldResumed])

theorem fwuRevert_stops (fails : imageCheck s s.fw.oldImage ≠ 0) :
    Gives (.fwuRevert refused) s fun t =>
      t.err.fwFatal = true ∧ t.fw.state = 0 ∧ t.fw.mbxReady = false ∧ t.fw.image = s.fw.image ∧ t.mem = s.mem := by
  obtain ⟨fatal, rom, shut, -⟩ := stopControl_stops (logFailure s 9 .fwFatal 0 0)
  have fw : (logFailure s 9 .fwFatal 0 0).fw = s.fw := fw_eq (by simp)
  refine ⟨stopControl (logFailure s 9 .fwFatal 0 0), ?_, fatal, rom, shut, ?_, mem_eq (by simp)⟩
  · show execFwuRevert refused s = _
    rw [execFwuRevert, if_pos ⟨state, phase, due⟩]
    exact if_pos fails
  · rw [stopControl_image, fw]

end Revert

/-- Settles O39. -/
theorem updateSwitches : Obligations.UpdateSwitches := by
  unfold Obligations.UpdateSwitches
  intro s hs
  refine ⟨fun _ _ => fwuSwitch_waits, fun img => fwuSwitch_gives hs, loopHoldTimeout_gives, ?_, ?_, ?_, ?_⟩
  · intro state phase inTime accepted waiting a b
    exact fwuConfirm_gives state phase inTime accepted ⟨waiting, Prod.ext a b⟩
  · intro refused state phase due passes waiting a b
    exact fwuRevert_gives state phase due passes ⟨waiting, Prod.ext a b⟩
  · intro refused state phase due fails
    exact fwuRevert_stops state phase due fails
  · intro state phase
    exact ⟨_, if_pos ⟨state, phase⟩, rfl, rfl, rfl⟩

end Sys2Proof.Laws
end

section
/-! PROOFS. Images load, and DRAM is brought up. -/

namespace Sys2Proof.Laws

open Sys2Proof Sys2Proof.Machine
set_option Elab.async false

variable {s t u v : State} {p q : HPort} {m M : Bytes} {kind : Nat} {r R : MbxReq} {ch : BitVec 3}

/-! ## HELLO and the image that is loaded (R497, R499, R518, R522) -/

theorem hello_gives (h : Taken s ch m 0x01 r) : Gives (.hello ch m) s fun t =>
    Replied t r .ok (leBytes 4 (if s.fw.state < 2 then Config.romVersion else s.fw.version).toNat ++ leBytes 2 s.sec.svn.toNat ++
      [s.fw.state.setWidth 8, s.fw.loader.setWidth 8, s.sec.bootErr.setWidth 8, 0, 0, 0]) ∧ t.sec = s.sec ∧ t.mem = s.mem := by
  obtain ⟨u, R, acc, run⟩ := taken_accepted h
  have hello : mbRun u R = respond u R .ok
      (leBytes 4 (if s.fw.state < 2 then Config.romVersion else s.fw.version).toNat ++ leBytes 2 s.sec.svn.toNat ++
        [s.fw.state.setWidth 8, s.fw.loader.setWidth 8, s.sec.bootErr.setWidth 8, 0, 0, 0]) := by
    simp only [mbRun, acc.type, mbHello, acc.state, acc.version, acc.loader, acc.sec, decide_eq_true_eq]
  refine ⟨_, run, ?_⟩
  rw [hello]
  exact ⟨acc.replied acc.done, (respond_sec ..).trans acc.sec, (respond_mem ..).trans acc.mem⟩

theorem loadBegin_gives (h : Taken s ch m 0x02 r) (fits : le (fit (mbPayload m) 4) 0 4 ≤ 24 * 2 ^ 20) :
    Gives (.loadBegin ch m) s fun t => Replied t r .ok [] ∧ t.fw.state = 1 ∧ t.fw.loader.toNat = ch.toNat ∧
      t.fw.loadLen = le (fit (mbPayload m) 4) 0 4 ∧ t.fw.loadBytes = [] := by
  obtain ⟨u, R, acc, run⟩ := taken_accepted h
  generalize hn : le (fit (mbPayload m) 4) 0 4 = n at *
  have begins : mbRun u R =
      respond { u with fw := { u.fw with state := 1, loader := BitVec.ofNat 1 R.channel, loadLen := n, loadBytes := [] } } R .ok := by
    simp only [mbRun, acc.type, mbLoadBegin, acc.payload, hn]
    exact if_neg (Nat.not_lt.mpr fits)
  refine ⟨_, run, ?_⟩
  rw [begins]
  refine ⟨acc.replied acc.done, ?_⟩
  rw [respond_fw]
  refine ⟨rfl, ?_, rfl, rfl⟩
  show (BitVec.ofNat 1 R.channel).toNat = _
  rw [acc.channel, BitVec.toNat_ofNat, Nat.mod_eq_of_lt acc.bar2]

theorem loadData_gives (h : Taken s ch m 0x03 r) (next : le (fit (mbPayload m) 4) 0 4 = s.fw.loadBytes.length)
    (fits : s.fw.loadBytes.length + ((mbPayload m).drop 4).length ≤ s.fw.loadLen) :
    Gives (.loadData ch m) s fun t =>
      Replied t r .ok (leBytes 4 (s.fw.loadBytes.length + ((mbPayload m).drop 4).length)) ∧
      t.fw.loadBytes = s.fw.loadBytes ++ (mbPayload m).drop 4 ∧ t.fw.state = s.fw.state := by
  obtain ⟨u, R, acc, run⟩ := taken_accepted h
  have adds : mbRun u R = respond { u with fw := { u.fw with loadBytes := u.fw.loadBytes ++ (mbPayload m).drop 4 } } R .ok
      (leBytes 4 (s.fw.loadBytes.length + ((mbPayload m).drop 4).length)) := by
    simp only [mbRun, acc.type, mbLoadData, acc.payload, acc.loadBytes, acc.loadLen]
    rw [if_neg]
    rintro (h | h)
    · exact h next
    · omega
  refine ⟨_, run, ?_⟩
  rw [adds]
  refine ⟨acc.replied acc.done, ?_⟩
  rw [respond_fw]
  exact ⟨congrArg (· ++ _) acc.loadBytes, acc.state⟩

/-- The loader's bytes are done with, and its check has given `e`. -/
def loadDone (u : State) (e : Nat) : State :=
  { u with sec := { u.sec with bootErr := BitVec.ofNat 3 e }, fw := { u.fw with loadBytes := [], loadLen := 0, state := 0 } }

/-- A loaded image runs, and MR1 is extended. -/
def imageLoaded (u : State) (b : Bytes) : State := extendMr (runImage (loadDone u 0) b) 1 2 (imDigest b)

/-- The image is started. -/
def loadStarted (u : State) (b : Bytes) : State :=
  { imageLoaded u b with fw := { (imageLoaded u b).fw with state := 2 }, sec := { (imageLoaded u b).sec with aliasKey := true } }

theorem loadStarted_hif (u : State) (b : Bytes) : (loadStarted u b).hif = u.hif :=
  hif_eq (by simp [loadStarted, imageLoaded, loadDone])

theorem mbLoadEnd_pass (passes : imageCheck u u.fw.loadBytes = 0) :
    mbLoadEnd u R = respond (loadStarted u u.fw.loadBytes) R .ok [0] := by
  simp only [mbLoadEnd, passes]
  rfl

theorem mbLoadEnd_fail (fails : imageCheck u u.fw.loadBytes ≠ 0) :
    mbLoadEnd u R = respond (loadDone u (imageCheck u u.fw.loadBytes)) R .ok [BitVec.ofNat 8 (imageCheck u u.fw.loadBytes)] := by
  simp only [mbLoadEnd, if_neg fails]
  rfl

theorem loadEnd_pass_gives (hs : Sound s) (h : Taken s ch m 0x04 r) (passes : imageCheck s s.fw.loadBytes = 0) :
    Gives (.loadEnd ch m) s fun t =>
      Replied t r .ok [0] ∧ t.fw.state = 2 ∧ t.fw.image = s.fw.loadBytes ∧ t.sec.svn = BitVec.ofNat 16 (imSvn s.fw.loadBytes) ∧
      getMr t 1 = shake256 (getMr s 1 ++ [2, 0, 0, 0] ++ imDigest s.fw.loadBytes) := by
  obtain ⟨u, R, acc, run⟩ := taken_accepted h
  have starts : mbRun u R = respond (loadStarted u s.fw.loadBytes) R .ok [0] := by
    simp only [mbRun, acc.type]
    rw [mbLoadEnd_pass (by rw [acc.loadBytes, acc.imageCheck]; exact passes), acc.loadBytes]
  have rises : keysRise (runImage (loadDone u 0) s.fw.loadBytes).sec.mrs = true := by
    show keysRise u.sec.mrs = true
    rw [acc.sec]
    exact hs.mrs
  refine ⟨_, run, ?_⟩
  have hif := loadStarted_hif u s.fw.loadBytes
  rw [starts]
  refine ⟨acc.replied (by rw [getPort_of_hif hif]; exact acc.done), ?_⟩
  rw [respond_fw, respond_sec, getMr_of_sec (respond_sec ..)]
  refine ⟨rfl, rfl, rfl, ?_⟩
  refine (getMr_extendMr_self rises 1 2 (imDigest s.fw.loadBytes)).trans ?_
  show shake256 (getMr u 1 ++ _ ++ _) = _
  rw [acc.getMr]
  rfl

theorem loadEnd_fail_gives (h : Taken s ch m 0x04 r) (fails : imageCheck s s.fw.loadBytes ≠ 0) :
    Gives (.loadEnd ch m) s fun t =>
      Replied t r .ok [BitVec.ofNat 8 (imageCheck s s.fw.loadBytes)] ∧ t.fw.state = 0 ∧
      t.sec.bootErr = BitVec.ofNat 3 (imageCheck s s.fw.loadBytes) ∧ t.fw.image = s.fw.image ∧ t.sec.mrs = s.sec.mrs := by
  obtain ⟨u, R, acc, run⟩ := taken_accepted h
  have same : imageCheck u u.fw.loadBytes = imageCheck s s.fw.loadBytes := by rw [acc.loadBytes, acc.imageCheck]
  have ends : mbRun u R = respond (loadDone u (imageCheck s s.fw.loadBytes)) R .ok [BitVec.ofNat 8 (imageCheck s s.fw.loadBytes)] := by
    simp only [mbRun, acc.type]
    rw [mbLoadEnd_fail (by rw [same]; exact fails), same]
  refine ⟨_, run, ?_⟩
  rw [ends]
  refine ⟨acc.replied acc.done, ?_⟩
  rw [respond_fw, respond_sec]
  exact ⟨rfl, rfl, acc.image, (congrArg SecState.mrs acc.sec : u.sec.mrs = s.sec.mrs)⟩

/-! ## The loader's port (R519, R583) -/

theorem execLoaderPortLost_lost (loader : portNo p = s.fw.loader.toNat) (down : (getPort s p).linkUp = false) :
    execLoaderPortLost p s = if s.fw.state = 1 then .next { s with fw := { s.fw with state := 0, loadBytes := [], loadLen := 0 } }
      else if s.fw.state = 2 ∨ s.fw.state = 3 then .next { s with fw := { s.fw with loader := BitVec.ofNat 1 (1 - portNo p) } }
      else .next s := by
  cases p <;> exact if_pos ⟨loader, down⟩

theorem loaderPortLost_rom (loader : portNo p = s.fw.loader.toNat) (down : (getPort s p).linkUp = false) (state : s.fw.state = 1) :
    Gives (.loaderPortLost p) s fun t => t = { s with fw := { s.fw with state := 0, loadBytes := [], loadLen := 0 } } :=
  ⟨_, (execLoaderPortLost_lost loader down).trans (if_pos state), rfl⟩

theorem loaderPortLost_moves (loader : portNo p = s.fw.loader.toNat) (down : (getPort s p).linkUp = false)
    (state : s.fw.state = 2 ∨ s.fw.state = 3) :
    Gives (.loaderPortLost p) s fun t => t.fw.loader.toNat = 1 - portNo p ∧ t.fw.state = s.fw.state ∧ t.mem = s.mem := by
  have started : ¬ s.fw.state = 1 := by rcases state with h | h <;> rw [h] <;> decide
  refine ⟨_, (execLoaderPortLost_lost loader down).trans ((if_neg started).trans (if_pos state)), ?_, rfl, rfl⟩
  cases p <;> rfl

/-! ## DRAM is brought up (R324 to R327, R520, R581, R582) -/

theorem patternOf_le (ds : List (Nat × Dimm)) : patternOf ds ≤ 3 := by
  simp only [patternOf]
  repeat' split
  all_goals decide

/-- MEM_CFG after the MRDIMMs have been found: its low half, and the capacity in gigabytes. -/
theorem memCfg_total {low total : Nat} (small : low < 65536) : (BitVec.ofNat 32 (low + 65536 * total)).toNat >>> 16 = total % 65536 := by
  rw [BitVec.toNat_ofNat, Nat.shiftRight_eq_div_pow]
  omega

theorem bringDram_dram (spd : List (Option Dimm)) (found : patternOf (dimmsOf spd) ≠ 0) :
    (bringDram s spd).fw = { s.fw with area := true, oldImage := s.fw.image } ∧ (bringDram s spd).mem = s.mem ∧
      (bringDram s spd).cr = s.cr ∧ dramBytes (bringDram s spd) =
        ((((dimmsOf spd).head?.map (fun p => p.2.capGb)).getD 0) * (dimmsOf spd).length) % 65536 * 1000000000 := by
  have few := patternOf_le (dimmsOf spd)
  have bitVal : ∀ v, bits v 5 1 ≤ 1 := fun v => by simp only [bits]; omega
  have flagVal : ∀ b, b2n b ≤ 1 := fun b => by cases b <;> decide
  have sized : ∀ c : Nat, (if c = 64 then 1 else if c = 128 then 2 else 3) ≤ 3 := fun c => by
    repeat' split
    all_goals decide
  simp only [bringDram, if_neg found, bne_iff_ne.mpr found, dramBytes]
  refine ⟨trivial, trivial, trivial, ?_⟩
  rw [memCfg_total]
  have a := bitVal s.mr.memCfg.toNat
  have b := flagVal (true && (dimmsOf spd).all (fun p => p.2.rateMts == 12800) && !s.mr.force8800)
  have c := sized (((dimmsOf spd).head?.map (fun p => p.2.capGb)).getD 0)
  omega

/-- An operation that makes no core available. -/
def Shrinks (s t : State) : Prop :=
  keysRise (availMap s) = true → keysRise (availMap t) = true ∧ ∀ n, coreAvail t n = true → coreAvail s n = true

theorem Shrinks.refl (s : State) : Shrinks s s := fun h => ⟨h, fun _ k => k⟩

theorem Shrinks.trans (h : Shrinks s t) (k : Shrinks t u) : Shrinks s u := fun rises => by
  obtain ⟨mid, first⟩ := h rises
  obtain ⟨last, second⟩ := k mid
  exact ⟨last, fun n on => first n (second n on)⟩

theorem Shrinks.of_cr (h : t.cr = s.cr) : Shrinks s t := fun rises => by
  have map : availMap t = availMap s := availMap_of_cr h
  exact ⟨by rw [map]; exact rises, fun n on => by rwa [coreAvail_of_map map] at on⟩

theorem Shrinks.foldl {α : Type} {f : State → α → State} (h : ∀ s x, Shrinks s (f s x)) (l : List α) (s : State) :
    Shrinks s (l.foldl f s) :=
  List.foldlRecOn (motive := fun x => Shrinks s x) l f (.refl s) fun x hx y _ => hx.trans (h x y)

theorem clearAvail_shrinks (s : State) (n : Nat) : Shrinks s (clearAvail s n) := fun rises =>
  ⟨clearAvail_rises n rises, fun m on => by
    rw [clearAvail_avail n m rises, Bool.and_eq_true] at on
    exact on.1⟩

theorem logFailure_shrinks (s : State) (k : Nat) (st : Status) (a b : Nat) : Shrinks s (logFailure s k st a b) :=
  .of_cr (cr_eq (by simp))

theorem markBist_shrinks (s : State) (c : Nat) : Shrinks s (markBist s c) := by
  have cleared : ∀ l : List Nat, Shrinks s (l.foldl (fun x k => clearAvail x (64 * c + k)) s) := fun l =>
    Shrinks.foldl (fun x k => clearAvail_shrinks x _) l s
  dsimp only [markBist]
  split
  · exact cleared _
  · split
    · exact (cleared _).trans (logFailure_shrinks _ _ _ _ _)
    · exact (cleared _).trans (Shrinks.foldl (fun x k => logFailure_shrinks x _ _ _ _) _ _)

/-- The cores that the failure log or self-test names are marked. -/
def coresMarked (s : State) : State := (List.range 64).foldl markBist ((loggedOff s).foldl clearAvail s)

theorem coresMarked_shrinks (s : State) : Shrinks s (coresMarked s) :=
  (Shrinks.foldl clearAvail_shrinks (loggedOff s) s).trans (Shrinks.foldl markBist_shrinks (List.range 64) _)

theorem coresMarked_keeps {α : Type} {g : State → α} (clear : ∀ s n, g (clearAvail s n) = g s) (mark : ∀ s c, g (markBist s c) = g s)
    (s : State) : g (coresMarked s) = g s :=
  (foldl_keeps mark _ _).trans (foldl_keeps clear _ _)

theorem coresMarked_fw (s : State) : (coresMarked s).fw = s.fw :=
  coresMarked_keeps (g := State.fw) (fun _ _ => fw_eq (by simp)) (fun _ _ => fw_eq (by simp)) s

theorem coresMarked_mem (s : State) : (coresMarked s).mem = s.mem :=
  coresMarked_keeps (g := State.mem) (fun _ _ => mem_eq (by simp)) (fun _ _ => mem_eq (by simp)) s

theorem coresMarked_mr (s : State) : (coresMarked s).mr = s.mr :=
  coresMarked_keeps (g := State.mr) (fun _ _ => mr_eq (by simp)) (fun _ _ => mr_eq (by simp)) s

theorem enterConfigWait_gives (hs : Sound s) (spd : List (Option Dimm)) (state : s.fw.state = 2) (tested : s.rst.selftestDone = true)
    (found : patternOf (dimmsOf spd) ≠ 0) :
    Gives (.enterConfigWait spd) s fun t =>
      t.fw.state = 3 ∧ t.fw.area = true ∧ t.fw.oldImage = s.fw.image ∧
      dramBytes t = ((((dimmsOf spd).head?.map (fun p => p.2.capGb)).getD 0) * (dimmsOf spd).length) % 65536 * 1000000000 ∧
      (∀ n, coreAvail t n = true → coreAvail s n = true) ∧ t.mem = s.mem := by
  obtain ⟨fw, mem, cr, dram⟩ := bringDram_dram (s := s) spd found
  let x := coresMarked (bringDram s spd)
  have fw' : x.fw = { s.fw with area := true, oldImage := s.fw.image } := (coresMarked_fw _).trans fw
  obtain ⟨-, avail⟩ := (Shrinks.of_cr cr).trans (coresMarked_shrinks (bringDram s spd)) hs.coreAvail
  refine ⟨{ x with fw := { x.fw with state := 3 } }, if_pos ⟨state, tested⟩, rfl, ?_, ?_, ?_, avail, (coresMarked_mem _).trans mem⟩
  · exact congrArg FwState.area fw'
  · exact congrArg FwState.oldImage fw'
  · show dramBytes x = _
    rw [← dram, dramBytes, dramBytes, coresMarked_mr]

end Sys2Proof.Laws
end

section
/-! PROOFS. The watchdog; firmware starts and fails (O35). -/

namespace Sys2Proof.Laws

open Sys2Proof Sys2Proof.Machine
set_option Elab.async false

variable {s t u v : State} {cause : WatchdogCause}

/-! ## The watchdog (R593) -/

/-- The image is restarted: with its own record, or with none where an error in memory struck it. -/
def resumedAfter (cause : WatchdogCause) (s x : State) : State :=
  if cause == .memory && Config.recordStruck s.freeCount then loseHandoff x else resumeOwn x

theorem resumedAfter_reconfigured (cause : WatchdogCause) (s x : State) : Reconfigured x (resumedAfter cause s x) := by
  rw [resumedAfter]
  split
  · exact loseHandoff_reconfigured x
  · exact resumeOwn_reconfigured x

/-- The copy from which the image restarts. -/
def restartCopy (s : State) : Bytes := if s.fw.area then runningCopy s else s.fw.image

/-- MR3 is extended for the restart. -/
def remeasured (cause : WatchdogCause) (s : State) : State :=
  extendMr (resumedAfter cause s (logFailure s 9 .fwFatal 0 0)) 3 2 (imDigest (restartCopy s))

/-- The image has restarted, and the restart is counted. -/
def restarted (cause : WatchdogCause) (s : State) : State :=
  { remeasured cause s with
    freeCount := s.freeCount + 1,
    fw := { (remeasured cause s).fw with ccFailAt := some s.nowNs },
    err := { (remeasured cause s).err with fwRestarts := satAdd (remeasured cause s).err.fwRestarts 1 } }

/-- A restart, as it shows: counted, logged, measured, and the Control Cluster not stopped. -/
def Restarted (s t : State) : Prop :=
  t.err.fwRestarts = satAdd s.err.fwRestarts 1 ∧ t.err.fwFatal = false ∧
    getMr t 3 = shake256 (getMr s 3 ++ [2, 0, 0, 0] ++ imDigest (restartCopy s)) ∧ logged s t 9

theorem Restarted.of_reported (h : Restarted s t) (k : Reported t u) (sec : u.sec = t.sec) : Restarted s u := by
  obtain ⟨count, fatal, mr, log⟩ := h
  exact ⟨(k.ofErr (·.fwRestarts) fun _ => rfl).trans count, (k.ofErr (·.fwFatal) fun _ => rfl).trans fatal,
    (getMr_of_sec sec 3).trans mr, logged_of_failLog log k.failLog⟩

theorem Restarted.of_parts (h : Restarted s t) (err : u.err = t.err) (sec : u.sec = t.sec) : Restarted s u := by
  obtain ⟨count, fatal, mr, log⟩ := h
  exact ⟨by rw [err, count], by rw [err, fatal], (getMr_of_sec sec 3).trans mr, logged_of_failLog log (by rw [err])⟩

theorem logFailure_counts (s : State) (k : Nat) (st : Status) (a b : Nat) :
    (logFailure s k st a b).err.fwRestarts = s.err.fwRestarts ∧ (logFailure s k st a b).err.fwFatal = s.err.fwFatal := by
  dsimp only [logFailure]
  split <;> exact ⟨rfl, rfl⟩

theorem restarted_err (cause : WatchdogCause) (s : State) :
    (restarted cause s).err = { (logFailure s 9 .fwFatal 0 0).err with
      fwRestarts := satAdd (logFailure s 9 .fwFatal 0 0).err.fwRestarts 1 } := by
  have err : (remeasured cause s).err = (logFailure s 9 .fwFatal 0 0).err := (resumedAfter_reconfigured cause s _).err
  rw [restarted, err]

theorem restarted_fw {α : Type} (cause : WatchdogCause) (s : State) (g : FwState → α)
    (hg : ∀ x c, g { x with ccFailAt := c } = g x) (hu : ∀ x, g (unconfigured x) = g x) : g (restarted cause s).fw = g s.fw := by
  have fw : (logFailure s 9 .fwFatal 0 0).fw = s.fw := fw_eq (by simp)
  refine (hg (remeasured cause s).fw _).trans ?_
  refine ((resumedAfter_reconfigured cause s (logFailure s 9 .fwFatal 0 0)).ofFw g hu).trans ?_
  rw [fw]

theorem restarted_go (cause : WatchdogCause) (s : State) : goOf (restarted cause s) = goOf s :=
  (resumedAfter_reconfigured cause s (logFailure s 9 .fwFatal 0 0)).go.trans (goOf_of_hif (hif_eq (by simp)))

theorem restarted_restarts (hs : Sound s) (room : s.err.failLog.length < 4032) (alive : s.err.fwFatal = false) :
    Restarted s (restarted cause s) := by
  obtain ⟨count, fatal⟩ := logFailure_counts s 9 .fwFatal 0 0
  have sec : (resumedAfter cause s (logFailure s 9 .fwFatal 0 0)).sec = s.sec :=
    (resumedAfter_reconfigured cause s _).sec.trans (sec_eq (by simp))
  refine ⟨?_, ?_, ?_, ?_⟩
  · rw [restarted_err, count]
  · rw [restarted_err]
    exact fatal.trans alive
  · refine (getMr_of_sec (s := remeasured cause s) rfl 3).trans ?_
    rw [remeasured, getMr_extendMr_self (by rw [sec]; exact hs.mrs), getMr_of_sec sec]
    rfl
  · exact logged_of_failLog (logged_after (by decide) rfl room .fwFatal 0 0) (by rw [restarted_err])

theorem restarted_calm (cause : WatchdogCause) (calm : Calm s) : Calm (restarted cause s) :=
  calm_of (restarted_fw cause s (·.waiting) (fun _ _ => rfl) fun _ => rfl) (restarted_go cause s) calm

/-! ### What follows the restart -/

/-- A failure in prepare ends the update; any other leaves it. -/
def updateEnded (x : State) : State :=
  if x.fw.phase = 3 then answerActivate { x with fw := { x.fw with phase := 2, state := 4 } } .fwState else x

/-- The event of the failure, and firmware resumes where it was running. -/
def failureRaised (x : State) : State :=
  if x.fw.state = 4 then resumeFw (raiseEvent x .fwFatal 0 0) else raiseEvent x .fwFatal 0 0

/-- The second failure within a second. -/
def failedLately (s : State) : Bool := match s.fw.ccFailAt with | some t => decide (s.nowNs < t + 1000 * msNs) | none => false

theorem execCcWatchdog_eq (state : 2 ≤ s.fw.state) (alive : s.err.fwFatal = false) : execCcWatchdog cause s =
    if failedLately s || !(copyGood s) then .next (stopControl (logFailure s 9 .fwFatal 0 0))
    else .next (failureRaised (updateEnded (restarted cause s))) := by
  rw [execCcWatchdog, if_neg]
  · rfl
  · rintro (h | h)
    · exact absurd state (BitVec.not_le.mpr h)
    · rw [alive] at h
      cases h

theorem failureRaised_idle (off : u.fw.state ≠ 4) (h : Restarted s u) :
    Restarted s (failureRaised u) ∧ (failureRaised u).fw.state = u.fw.state := by
  have k := raiseEvent_reported u .fwFatal 0 0 []
  rw [failureRaised, if_neg off]
  exact ⟨h.of_reported k (sec_eq (by simp)), k.ofFw (·.state) fun _ => rfl⟩

theorem failureRaised_runs (on : u.fw.state = 4) (calm : Calm u) (h : Restarted s u) :
    Restarted s (failureRaised u) ∧ (failureRaised u).fw.state = 4 ∧ (failureRaised u).fw.phase = u.fw.phase ∧
      (failureRaised u).fw.mbxReady = true ∧ (failureRaised u).fw.activate = u.fw.activate := by
  have k := raiseEvent_reported u .fwFatal 0 0 []
  have still : Calm (raiseEvent u .fwFatal 0 0) := calm_of (k.ofFw (·.waiting) fun _ => rfl) (goOf_reported k) calm
  have resumed := resumeFw_reported still
  rw [failureRaised, if_pos on]
  refine ⟨?_, resumed.ofFw (·.state) fun _ => rfl, ?_, resumed.ofFw (·.mbxReady) fun _ => rfl, ?_⟩
  · have serves : Restarted s (serving (raiseEvent u .fwFatal 0 0)) :=
      (h.of_reported k (sec_eq (by simp))).of_parts (u := serving (raiseEvent u .fwFatal 0 0)) rfl rfl
    exact serves.of_reported resumed (resumeFw_sec still)
  · exact (resumed.ofFw (·.phase) fun _ => rfl).trans (k.ofFw (·.phase) fun _ => rfl)
  · exact (resumed.ofFw (·.activate) fun _ => rfl).trans (k.ofFw (·.activate) fun _ => rfl)

theorem updateEnded_other (other : u.fw.phase ≠ 3) : updateEnded u = u := if_neg other

theorem updateEnded_prepare (phase : u.fw.phase = 3) : (updateEnded u).fw =
    { u.fw with phase := 2, state := 4, activate := none } ∧ goOf (updateEnded u) = goOf u ∧ (updateEnded u).err = u.err ∧
      (updateEnded u).sec = u.sec := by
  rw [updateEnded, if_pos phase]
  exact ⟨answerActivate_fw .., answerActivate_go .., answerActivate_err .., answerActivate_sec ..⟩

section Watchdog

variable (hs : Sound s) (room : s.err.failLog.length < 4032) (state : 2 ≤ s.fw.state) (alive : s.err.fwFatal = false)

include room state alive

section First

variable (first : s.fw.ccFailAt = none) (good : copyGood s = true)

include first good

omit room in
theorem execCcWatchdog_first : execCcWatchdog cause s = .next (failureRaised (updateEnded (restarted cause s))) := by
  have fresh : (failedLately s || !(copyGood s)) = false := by simp [failedLately, first, good]
  rw [execCcWatchdog_eq state alive, fresh]
  rfl

include hs

theorem ccWatchdog_other (phase : s.fw.phase ≠ 3) (idle : s.fw.state ≠ 4) :
    Gives (.ccWatchdog cause) s fun t => Restarted s t ∧ t.fw.state = s.fw.state := by
  have same : (restarted cause s).fw.state = s.fw.state := restarted_fw cause s (·.state) (fun _ _ => rfl) fun _ => rfl
  have ph : (restarted cause s).fw.phase = s.fw.phase := restarted_fw cause s (·.phase) (fun _ _ => rfl) fun _ => rfl
  refine ⟨_, execCcWatchdog_first state alive first good, ?_⟩
  rw [updateEnded_other (by rw [ph]; exact phase)]
  obtain ⟨again, still⟩ := failureRaised_idle (by rw [same]; exact idle) (restarted_restarts (cause := cause) hs room alive)
  exact ⟨again, still.trans same⟩

theorem ccWatchdog_running (phase : s.fw.phase ≠ 3) (running : s.fw.state = 4) (calm : Calm s) :
    Gives (.ccWatchdog cause) s fun t => Restarted s t ∧ t.fw.state = 4 ∧ t.fw.phase = s.fw.phase ∧ t.fw.mbxReady = true := by
  have same : (restarted cause s).fw.state = s.fw.state := restarted_fw cause s (·.state) (fun _ _ => rfl) fun _ => rfl
  have ph : (restarted cause s).fw.phase = s.fw.phase := restarted_fw cause s (·.phase) (fun _ _ => rfl) fun _ => rfl
  refine ⟨_, execCcWatchdog_first state alive first good, ?_⟩
  rw [updateEnded_other (by rw [ph]; exact phase)]
  obtain ⟨again, on, still, ready, -⟩ := failureRaised_runs (by rw [same]; exact running) (restarted_calm cause calm)
    (restarted_restarts (cause := cause) hs room alive)
  exact ⟨again, on, still.trans ph, ready⟩

theorem ccWatchdog_prepare (phase : s.fw.phase = 3) (calm : Calm s) :
    Gives (.ccWatchdog cause) s fun t => Restarted s t ∧ t.fw.state = 4 ∧ t.fw.phase = 2 ∧ t.fw.activate = none := by
  have ph : (restarted cause s).fw.phase = s.fw.phase := restarted_fw cause s (·.phase) (fun _ _ => rfl) fun _ => rfl
  obtain ⟨fw, go, err, sec⟩ := updateEnded_prepare (u := restarted cause s) (by rw [ph, phase])
  have calm' : Calm (updateEnded (restarted cause s)) :=
    calm_of (by rw [fw]) go (restarted_calm cause calm)
  obtain ⟨again, on, still, -, answered⟩ := failureRaised_runs (by rw [fw]) calm'
    ((restarted_restarts (cause := cause) hs room alive).of_parts err sec)
  refine ⟨_, execCcWatchdog_first state alive first good, again, on, still.trans ?_, answered.trans ?_⟩ <;> rw [fw]

end First

theorem ccWatchdog_stops (again : (∃ at_, s.fw.ccFailAt = some at_ ∧ s.nowNs < at_ + 1000000000) ∨ copyGood s = false) :
    Gives (.ccWatchdog cause) s fun t =>
      t.err.fwFatal = true ∧ t.fw.state = 0 ∧ t.fw.mbxReady = false ∧ t.pwr.alert.isSome = true ∧ logged s t 9 := by
  obtain ⟨fatal, rom, shut, alert⟩ := stopControl_stops (logFailure s 9 .fwFatal 0 0)
  have stops : (failedLately s || !(copyGood s)) = true := by
    rcases again with ⟨at_, failed, soon⟩ | bad
    · have late : failedLately s = true := by
        simp only [failedLately, failed]
        exact decide_eq_true soon
      rw [late, Bool.true_or]
    · rw [bad, Bool.not_false, Bool.or_true]
  refine ⟨_, (execCcWatchdog_eq state alive).trans (if_pos stops), fatal, rom, shut, alert, ?_⟩
  exact logged_of_failLog (logged_after (by decide) rfl room .fwFatal 0 0) (stopControl_failLog _)

end Watchdog

/-- Settles O35. -/
theorem firmwareStartsAndFails : Obligations.FirmwareStartsAndFails := by
  unfold Obligations.FirmwareStartsAndFails
  refine ⟨fun ch m r s hs => ⟨hello_gives, loadBegin_gives, loadData_gives, loadEnd_pass_gives hs, loadEnd_fail_gives⟩,
    fun s hs room => ⟨fun p loader down => ⟨loaderPortLost_rom loader down, loaderPortLost_moves loader down⟩,
      fun spd state tested => enterConfigWait_gives hs spd state tested, ?_, ?_⟩⟩
  · intro cause state alive first good
    refine ⟨ccWatchdog_other hs room state alive first good, fun phase running calm => ?_, fun phase calm => ?_⟩
    · obtain ⟨waiting, a, b⟩ := calm
      exact ccWatchdog_running hs room state alive first good phase running ⟨waiting, Prod.ext a b⟩
    · obtain ⟨waiting, a, b⟩ := calm
      exact ccWatchdog_prepare hs room state alive first good phase ⟨waiting, Prod.ext a b⟩
  · intro cause state alive again
    exact ccWatchdog_stops room state alive again

end Sys2Proof.Laws
end

section
/-! PROOFS. Lane registers, masks, and the micro-op that a command issues (R224 to R228). -/

namespace Sys2Proof.Laws

open Sys2Proof Sys2Proof.Machine
set_option Elab.async false

variable {s t : State} {e x : VeEnv} {c : VeCtx} {u : Uop} {n : Nat} {core : CoreId} {d a b mod : BitVec 6}

/-! ## Lane registers and masks (R224 to R226) -/

/-- What a lane register holds after a write of it. -/
def laneVal (x : Nat) (poison : Bool) : Nat × Bool := if poison then (0x7FC00000, true) else (x % 2 ^ 32, false)

theorem laneGet_laneSet_self (h : CtxSound c) (r i x : Nat) (p : Bool) : laneGet (laneSet c r i x p) r i = laneVal x p := by
  have entry : smGet ((0 : BitVec 32), false) (laneSet c r i x p).regs (64 * r + i) =
      if p then (BitVec.ofNat 32 0x7FC00000, true) else (BitVec.ofNat 32 x, false) := get_set_self h.1
  rw [laneGet, entry, laneVal]
  cases p
  · simp
  · rfl

theorem laneGet_laneSet_other (h : CtxSound c) {r i r' i' : Nat} (ne : 64 * r' + i' ≠ 64 * r + i) (x : Nat) (p : Bool) :
    laneGet (laneSet c r i x p) r' i' = laneGet c r' i' := by
  have entry : smGet ((0 : BitVec 32), false) (laneSet c r i x p).regs (64 * r' + i') = smGet ((0 : BitVec 32), false) c.regs (64 * r' + i') :=
    get_set_other h.1 ne
  rw [laneGet, entry, laneGet]

@[simp] theorem laneSet_masks (c : VeCtx) (r i x : Nat) (p : Bool) : (laneSet c r i x p).masks = c.masks := rfl
@[simp] theorem laneSet_ru (c : VeCtx) (r i x : Nat) (p : Bool) : (laneSet c r i x p).ru = c.ru := rfl

@[simp] theorem maskSet_regs (c : VeCtx) (k v : Nat) : (maskSet c k v).regs = c.regs := by
  rw [maskSet]
  split <;> rfl

@[simp] theorem maskSet_ru (c : VeCtx) (k v : Nat) : (maskSet c k v).ru = c.ru := by
  rw [maskSet]
  split <;> rfl

theorem maskGet_maskSet_self (h : CtxSound c) {k : Nat} (v : Nat) (hk : k ≠ 0) : maskGet (maskSet c k v) k = v % 2 ^ 64 := by
  have entry : smGet (0 : BitVec 64) (smSet (0 : BitVec 64) c.masks k (BitVec.ofNat 64 v)) k = BitVec.ofNat 64 v := get_set_self h.2
  rw [maskGet, if_neg hk, maskSet, if_neg hk, entry, BitVec.toNat_ofNat]

theorem maskGet_maskSet_other (h : CtxSound c) {j k : Nat} (v : Nat) (hj : j ≠ k) : maskGet (maskSet c k v) j = maskGet c j := by
  have entry : smGet (0 : BitVec 64) (smSet (0 : BitVec 64) c.masks k (BitVec.ofNat 64 v)) j = smGet (0 : BitVec 64) c.masks j :=
    get_set_other h.2 hj
  rw [maskSet]
  split
  · rfl
  · rw [maskGet, maskGet, entry]

/-- A mask reads the same where the masks are the same. -/
theorem maskGet_of_masks {c' : VeCtx} (h : c'.masks = c.masks) (k : Nat) : maskGet c' k = maskGet c k := by
  rw [maskGet, h, maskGet]

theorem laneGet_of_regs {c' : VeCtx} (h : c'.regs = c.regs) (r i : Nat) : laneGet c' r i = laneGet c r i := by
  rw [laneGet, h, laneGet]

/-! ### One result for each of some lanes -/

@[simp] theorem putLanes_masks (c : VeCtx) (d : Nat) (out : List (Nat × Nat × Bool)) : (putLanes c d out).masks = c.masks :=
  List.foldlRecOn (motive := fun (x : VeCtx) => x.masks = c.masks) out _ rfl fun _ h _ _ => h

@[simp] theorem putLanes_ru (c : VeCtx) (d : Nat) (out : List (Nat × Nat × Bool)) : (putLanes c d out).ru = c.ru :=
  List.foldlRecOn (motive := fun (x : VeCtx) => x.ru = c.ru) out _ rfl fun _ h _ _ => h

theorem putLanes_other (h : CtxSound c) {d r i : Nat} {out : List (Nat × Nat × Bool)}
    (ne : ∀ z ∈ out, 64 * r + i ≠ 64 * d + z.1) : laneGet (putLanes c d out) r i = laneGet c r i := by
  refine (List.foldlRecOn (motive := fun (x : VeCtx) => CtxSound x ∧ laneGet x r i = laneGet c r i) out _ ⟨h, rfl⟩ ?_).2
  rintro y ⟨hy, same⟩ z hz
  exact ⟨ctxSound_laneSet hy d z.1 z.2.1 z.2.2, (laneGet_laneSet_other hy (ne z hz) z.2.1 z.2.2).trans same⟩

/-- A lane that is written once holds its result. -/
theorem putLanes_self (h : CtxSound c) {d i x : Nat} {p : Bool} {out : List (Nat × Nat × Bool)}
    (once : (out.map (·.1)).Nodup) (mem : (i, x, p) ∈ out) : laneGet (putLanes c d out) d i = laneVal x p := by
  induction out generalizing c with
  | nil => cases mem
  | cons z out ih =>
    rw [List.map_cons, List.nodup_cons] at once
    rcases List.mem_cons.mp mem with rfl | mem
    · refine (putLanes_other (ctxSound_laneSet h d i x p) fun y hy => ?_).trans (laneGet_laneSet_self h d i x p)
      have : y.1 ≠ i := fun same => once.1 (List.mem_map.mpr ⟨y, hy, same⟩)
      omega
    · exact ih (ctxSound_laneSet h d z.1 z.2.1 z.2.2) once.2 mem

section Lanes

variable (m : Nat) (f : Nat → Nat × Bool)

/-- The results of the lanes of a mask. -/
def lanesOut (m : Nat) (f : Nat → Nat × Bool) : List (Nat × Nat × Bool) := (bitList 64 m).map fun i => (i, f i)

theorem mem_bitList {w v i : Nat} : i ∈ bitList w v ↔ i < w ∧ bit v i = true := by simp [bitList]

theorem lanesOut_once : ((lanesOut m f).map (·.1)).Nodup := by
  rw [lanesOut, List.map_map]
  exact (List.map_id' (bitList 64 m)).symm ▸ (List.nodup_range.filter _)

/-- After a write of some lanes: those hold their results, every other one what it held. -/
theorem laneGet_putLanes (h : CtxSound c) (d i : Nat) (hi : i < 64) : laneGet (putLanes c d (lanesOut m f)) d i =
    if bit m i = true then laneVal (f i).1 (f i).2 else laneGet c d i := by
  split
  next on =>
    exact putLanes_self h (lanesOut_once m f) (List.mem_map.mpr ⟨i, mem_bitList.mpr ⟨hi, on⟩, rfl⟩)
  next off =>
    refine putLanes_other h fun z hz => ?_
    obtain ⟨j, hj, rfl⟩ := List.mem_map.mp hz
    have : j ≠ i := fun same => off (same ▸ (mem_bitList.mp hj).2)
    dsimp only
    omega

theorem laneGet_putLanes_other (h : CtxSound c) {d r i : Nat} (hi : i < 64) (hr : r ≠ d) :
    laneGet (putLanes c d (lanesOut m f)) r i = laneGet c r i := by
  refine putLanes_other h fun z hz => ?_
  obtain ⟨j, hj, rfl⟩ := List.mem_map.mp hz
  have := (mem_bitList.mp hj).1
  dsimp only
  omega

end Lanes

/-! ## The environment of a VE op, and its state -/

theorem ctxGet_ctxSet (co : Core) (k : Nat) (y : VeCtx) : ctxGet (ctxSet co k y) k = y := by
  rw [ctxGet, ctxSet]
  split <;> simp [*]

theorem ctxSet_ve (co : Core) (k : Nat) (y : VeCtx) : (ctxSet co k y).ve = co.ve := by
  rw [ctxSet]
  split <;> rfl

/-- The state into which an environment is put back gives it again. -/
theorem veEnv_veBack (hn : x.n = n) (rise : keysRise x.s.cores = true) : veEnv (veBack x) n = some { s := veBack x, n, v := x.v, c := x.c } := by
  subst hn
  have self : getCore (veBack x) x.n = ctxSet { getCore x.s x.n with ve := some x.v } (veParm x.v.desc).ctx x.c :=
    getCore_setCore_self rise
  rw [veEnv, self, ctxSet_ve]
  dsimp only [Option.map]
  rw [ctxGet_ctxSet]

theorem veBack_other (rise : keysRise x.s.cores = true) {k : Nat} (hk : k ≠ x.n) : getCore (veBack x) k = getCore x.s k :=
  getCore_setCore_other rise hk

@[simp] theorem veBack_mem (x : VeEnv) : (veBack x).mem = x.s.mem := rfl
@[simp] theorem veBack_cr (x : VeEnv) : (veBack x).cr = x.s.cr := rfl

theorem veEnv_state (h : veEnv s n = some e) : e.s = s ∧ e.n = n := by
  simp only [veEnv, Option.map_eq_some_iff] at h
  obtain ⟨v, -, rfl⟩ := h
  exact ⟨rfl, rfl⟩

theorem ctxSound_env (hs : Sound s) (h : veEnv s n = some e) : CtxSound e.c := (veEnv_sound hs h).2

/-! ## One issue (R227, R229, R234) -/

/-- Whether R229 lets a stream or gather micro-op through: its stream or its entry is good. -/
def entryReady (s : State) (n : Nat) (e : VeEnv) (op : Nat) (u : Uop) : Bool :=
  let st := fun (i : Nat) (out : Bool) => (streamCheck s n (e.v.streams.getD i []) out true).isNone
  let ent := (gatherCheck s n (e.v.gathers.getD (u.var % 4) []) (op == 8 && decide (u.var < 4)) (op == 8)).isNone
  match op with
  | 0x04 => st (u.var % 4) false
  | 0x05 => st (4 + u.var % 4) true
  | 0x06 => ent
  | 0x07 => ent
  | 0x08 => ent
  | _ => true

/-- The state after an issue. -/
def issued (e : VeEnv) (op : Nat) (i : Issue) : State :=
  match i with
  | .done x => veBack x
  | .wait => veBack { e with v := { e.v with waiting := true } }
  | .fault x k l m addr st => veBack (veFault x op k l m addr st)

theorem issueCmd_issues {op : Nat} {f : VeEnv → Uop → Issue} (h : Issuable s core.toNat (uopFields op d a b mod) e)
    (ready : entryReady s core.toNat e op (uopFields op d a b mod) = true) :
    issueCmd core op d a b mod f s = .next (issued e op (f e (uopFields op d a b mod))) := by
  obtain ⟨-, running, clean, program, allowed⟩ := h
  have go : (e.v.hard.isSome || byteAt e.v.desc 0 == 0x19 ||
      !(uopOk (veParm e.v.desc).ruOp (veParm e.v.desc).ruSeg (uopFields op d a b mod)) ||
      !(entryReady s core.toNat e op (uopFields op d a b mod))) = false := by
    simpa [clean, allowed, ready] using program
  have goes : issueCmd core op d a b mod f s =
      if e.v.hard.isSome || byteAt e.v.desc 0 == 0x19 ||
        !(uopOk (veParm e.v.desc).ruOp (veParm e.v.desc).ruSeg (uopFields op d a b mod)) ||
        !(entryReady s core.toNat e op (uopFields op d a b mod)) then .next s
      else .next (issued e op (f e (uopFields op d a b mod))) := by
    rw [issueCmd, running]
    refine ite_congr rfl (fun _ => rfl) fun _ => ?_
    show _ = Host.Outcome.next (issued e op (f e (uopFields op d a b mod)))
    cases h : f e (uopFields op d a b mod) <;> rw [uopFields] at h <;> simp only [h] <;> rfl
  rw [goes, go]
  rfl

theorem issuable_rise (h : Issuable s n u e) : keysRise e.s.cores = true := by
  rw [(veEnv_state h.running).1]
  exact h.sound.cores

end Sys2Proof.Laws
end

section
/-! PROOFS. Lane-wise micro-ops (O40). -/

namespace Sys2Proof.Laws

open Sys2Proof Sys2Proof.Machine
set_option Elab.async false

variable {s t : State} {e e1 : VeEnv} {u : Uop} {m : LaneOp} {core : CoreId} {d a b mod : BitVec 6}

/-! ## A lane-wise operation, lane by lane -/

section LaneOp

variable (srcs : Nat → List (Nat × Bool)) (g : Nat → FRes)

/-- The value that a lane gets, with its poison. -/
def laneResult (i : Nat) : Nat × Bool := if (srcs i).any (·.2) then (0, true) else ((g i).code, false)

/-- A flag of the lanes of a mask in which no source holds poison. -/
def laneFlag (mask : Nat) (flag : FRes → Bool) : Bool :=
  (List.range 64).any fun i => bit mask i && !((srcs i).any (·.2)) && flag (g i)

theorem any_lanes {mask : Nat} {flag : FRes → Bool} (zero : flag { code := 0 } = false) :
    (((bitList 64 mask).map fun i => if (srcs i).any (·.2) then (i, ({ code := 0 } : FRes), true) else (i, g i, false)).any
      fun z => flag z.2.1) = laneFlag srcs g mask flag := by
  rw [laneFlag, bitList, List.any_map, List.any_filter]
  refine congrArg (List.any (List.range 64)) (funext fun i => ?_)
  dsimp only [Function.comp_apply]
  cases h : (srcs i).any (·.2) <;> simp [zero]

theorem laneOp_eq (e : VeEnv) (r mask : Nat) : laneOp e r (bitList 64 mask) srcs g =
    .done (addFlags { e with c := putLanes e.c r (lanesOut mask (laneResult srcs g)) }
      (laneFlag srcs g mask (·.nv)) (laneFlag srcs g mask (·.of))) := by
  rw [laneOp, any_lanes srcs g rfl, any_lanes srcs g rfl]
  have out : ((bitList 64 mask).map fun i => if (srcs i).any (·.2) then (i, ({ code := 0 } : FRes), true) else (i, g i, false)).map
      (fun z => (z.1, z.2.1.code, z.2.2)) = lanesOut mask (laneResult srcs g) := by
    rw [lanesOut, List.map_map]
    refine List.map_congr_left fun i _ => ?_
    dsimp only [Function.comp_apply, laneResult]
    split <;> rfl
  rw [out]

end LaneOp

/-! ## The catalogue as lane-wise operations -/

/-- What a lane reads. -/
def laneReads (m : LaneOp) (e : VeEnv) (u : Uop) (i : Nat) : List (Nat × Bool) := (m.srcs e u i).map fun z => laneGet e.c z.1 z.2

/-- The value of a lane from what it reads. -/
def laneGives (m : LaneOp) (e : VeEnv) (u : Uop) (i : Nat) : FRes := m.value e u i ((laneReads m e u i).map (·.1))

/-- The lanes in which a micro-op acts. -/
def lanesOf (m : LaneOp) (e : VeEnv) (u : Uop) : Nat := if m.every then envMask e else activeOf e u

/-- An environment but for the count of free values. -/
def withFree (e : VeEnv) (k : Nat) : VeEnv := { e with s := { e.s with freeCount := k } }

/-- The micro-op of a catalogue entry is the lane-wise operation that the entry says; that it counts free values is no part of it. -/
def IsLaneOp (m : LaneOp) (f : VeEnv → Uop → Issue) : Prop :=
  ∀ e u, uopOk (veParm e.v.desc).ruOp (veParm e.v.desc).ruSeg u = true → u.op = m.op →
    ∃ k srcs g, f e u = laneOp (withFree e k) u.d (bitList 64 (lanesOf m e u)) srcs g ∧
      (∀ i, (srcs i).any (·.2) = (laneReads m e u i).any (·.2)) ∧
      ∀ i, (laneReads m e u i).any (·.2) = false → g i = laneGives m e u i

/-- The command of a catalogue entry issues the entry's lane-wise operation. -/
def IssuesLanes (m : LaneOp) : Prop :=
  ∃ f, IsLaneOp m f ∧ (∀ core d a b mod s, exec (m.cmd core d a b mod) s = issueCmd core m.op d a b mod f s) ∧
    ∀ s n e u, entryReady s n e m.op u = true

/-- An entry whose micro-op is its own description. -/
theorem isLaneOp_of_eq {f : VeEnv → Uop → Issue}
    (h : ∀ e u, f e u = laneOp e u.d (bitList 64 (lanesOf m e u)) (laneReads m e u) (laneGives m e u)) : IsLaneOp m f :=
  fun e u _ _ => ⟨e.s.freeCount, _, _, h e u, fun _ => rfl, fun _ _ => rfl⟩

theorem issuesLanes_of_eq {f : VeEnv → Uop → Issue}
    (h : ∀ e u, f e u = laneOp e u.d (bitList 64 (lanesOf m e u)) (laneReads m e u) (laneGives m e u))
    (cmd : ∀ core d a b mod s, exec (m.cmd core d a b mod) s = issueCmd core m.op d a b mod f s)
    (ready : ∀ s n e u, entryReady s n e m.op u = true) : IssuesLanes m :=
  ⟨f, isLaneOp_of_eq h, cmd, ready⟩

theorem shiftFn_eq (var x y : Nat) : shiftFn var x y = match var with
    | 0 => x * 2 ^ (y % 32) % 2 ^ 32
    | 1 => x / 2 ^ (y % 32)
    | _ => tcode 32 (sext 32 x / (2 ^ (y % 32) : Nat)) := by
  match var with
  | 0 => exact congrArg (· % 2 ^ 32) (Nat.shiftLeft_eq x _)
  | 1 => exact Nat.shiftRight_eq_div_pow x _
  | _ + 2 => rfl

/-- The value of IMNX by its variant (R228). -/
def imnxOf (var x y : Nat) : Nat :=
  match var with
  | 0 => if sext 32 x < sext 32 y then y else x
  | 1 => if sext 32 y < sext 32 x then y else x
  | 2 => max x y
  | _ => min x y

/-- Of the four variants of IMNX, the larger and the smaller one, signed and not. -/
theorem imnx_eq {var x y : Nat} (h : var ≤ 3) :
    (if (if var % 2 = 1 then intLt (decide (var ≥ 2)) y x else intLt (decide (var ≥ 2)) x y) then y else x) = imnxOf var x y := by
  match var, h with
  | 0, _ => simp [intLt, imnxOf]
  | 1, _ => simp [intLt, imnxOf]
  | 2, _ =>
    simp only [intLt, imnxOf]
    grind
  | 3, _ =>
    simp only [intLt, imnxOf]
    grind

/-- IMNX has four variants (R228, R229). -/
theorem imnx_var {ruOp : Nat} {ruSeg : Bool} (ok : uopOk ruOp ruSeg u = true) (op : u.op = 0x1C) : u.var ≤ 3 := by
  have low : bit 0x0F u.var = true := by
    simp only [uopOk, op, uopUse, Bool.and_eq_true] at ok
    exact ok.1.1.1.1.1.1.1.1
  by_contra high
  exact absurd (Nat.testBit_lt_two_pow (show 0x0F < 2 ^ u.var from lt_of_lt_of_le (by decide) (Nat.pow_le_pow_right (by decide) (show 4 ≤ u.var by omega))))
    (by rw [show Nat.testBit 0x0F u.var = true from low]; decide)

/-! ### Masked positions (R226, R253 to R255, R587) -/

theorem smnOpen_masked (x m : Nat) : smnOpen x m true = false := rfl

theorem smnLane_masked (x x' m s : Nat) (bf : Bool) : smnLane x m s true bf = smnLane x' m s true bf := rfl

theorem smbLane_masked (y y' dy dy' c m : Nat) : smbLane y dy c m true = smbLane y' dy' c m true := by
  rw [smbLane, smbLane]
  cases ffDecode f32F m <;> rfl

theorem nrmLane_masked (x x' mean rstd : Nat) : nrmLane x mean rstd true = nrmLane x' mean rstd true := rfl

/-- The sources of a lane of SMN, SMB and NRM, those of the row before those of the position. -/
theorem maskSrcs_any (e : VeEnv) (u : Uop) (pos row : List Nat) (i : Nat) : (maskSrcs e u pos row i).any (·.2) =
    ((row.map (fun r => (r, i)) ++ srcsOpen e u i pos).map fun z => laneGet e.c z.1 z.2).any (·.2) := by
  rw [maskSrcs, srcsOpen]
  split <;> simp [Bool.or_comm, Function.comp_def]

/-- The value of a lane of SMN (R253). -/
def smnValue (e : VeEnv) (u : Uop) (i : Nat) : FRes :=
  if smnOpen (laneGet e.c u.a i).1 (laneGet e.c u.b i).1 (posMasked e u i) then
    { code := (Config.freeValue (e.s.freeCount + i)).toNat % 2 ^ 32 }
  else smnLane (laneGet e.c u.a i).1 (laneGet e.c u.b i).1 (laneGet e.c (u.b + 1) i).1 (posMasked e u i) (decide (u.var = 1))

/-- The count of free values after SMN. -/
def smnCount (e : VeEnv) (u : Uop) : Nat :=
  if (bitList 64 (envMask e)).any fun i => smnOpen (laneGet e.c u.a i).1 (laneGet e.c u.b i).1 (posMasked e u i) then e.s.freeCount + 64
  else e.s.freeCount

theorem uopSmn_eq (e : VeEnv) (u : Uop) :
    uopSmn e u = laneOp (withFree e (smnCount e u)) u.d (bitList 64 (envMask e)) (maskSrcs e u [u.a] [u.b, u.b + 1]) (smnValue e u) := by
  simp only [uopSmn, withFree, smnCount]
  split <;> rfl

/-- Each entry of the catalogue is a lane-wise operation. -/
theorem laneTable_issues : ∀ m ∈ laneTable, IssuesLanes m := by
  simp only [laneTable, List.forall_mem_append, List.forall_mem_cons, List.not_mem_nil, false_implies, implies_true, and_true]
  refine ⟨⟨⟨⟨?mov, ?lid, ?fadd, ?fsub, ?fmul, ?ffma, ?fmnx, ?fsgn⟩, ?frcp, ?frsq, ?fsqt, ?fdiv, ?fexp, ?flog, ?fsig, ?cvt⟩,
    ?iadd, ?isub, ?imul, ?ilog, ?ishf, ?imnx⟩, ?sel, ?shf, ?smn, ?smb, ?nrm, ?rng⟩
  case mov => exact issuesLanes_of_eq (f := uopMov) (fun _ _ => rfl) (fun _ _ _ _ _ _ => rfl) fun _ _ _ _ => rfl
  case lid => exact issuesLanes_of_eq (f := uopLid) (fun _ _ => rfl) (fun _ _ _ _ _ _ => rfl) fun _ _ _ _ => rfl
  case fadd => exact issuesLanes_of_eq (f := uopFadd) (fun _ _ => rfl) (fun _ _ _ _ _ _ => rfl) fun _ _ _ _ => rfl
  case fsub => exact issuesLanes_of_eq (f := uopFsub) (fun _ _ => rfl) (fun _ _ _ _ _ _ => rfl) fun _ _ _ _ => rfl
  case fmul => exact issuesLanes_of_eq (f := uopFmul) (fun _ _ => rfl) (fun _ _ _ _ _ _ => rfl) fun _ _ _ _ => rfl
  case ffma => exact issuesLanes_of_eq (f := uopFfma) (fun _ _ => rfl) (fun _ _ _ _ _ _ => rfl) fun _ _ _ _ => rfl
  case fmnx => exact issuesLanes_of_eq (f := uopFmnx) (fun _ _ => rfl) (fun _ _ _ _ _ _ => rfl) fun _ _ _ _ => rfl
  case frcp => exact issuesLanes_of_eq (f := uopFrcp) (fun _ _ => rfl) (fun _ _ _ _ _ _ => rfl) fun _ _ _ _ => rfl
  case frsq => exact issuesLanes_of_eq (f := uopFrsq) (fun _ _ => rfl) (fun _ _ _ _ _ _ => rfl) fun _ _ _ _ => rfl
  case fsqt => exact issuesLanes_of_eq (f := uopFsqt) (fun _ _ => rfl) (fun _ _ _ _ _ _ => rfl) fun _ _ _ _ => rfl
  case fdiv => exact issuesLanes_of_eq (f := uopFdiv) (fun _ _ => rfl) (fun _ _ _ _ _ _ => rfl) fun _ _ _ _ => rfl
  case fexp => exact issuesLanes_of_eq (f := uopFexp) (fun _ _ => rfl) (fun _ _ _ _ _ _ => rfl) fun _ _ _ _ => rfl
  case flog => exact issuesLanes_of_eq (f := uopFlog) (fun _ _ => rfl) (fun _ _ _ _ _ _ => rfl) fun _ _ _ _ => rfl
  case fsig => exact issuesLanes_of_eq (f := uopFsig) (fun _ _ => rfl) (fun _ _ _ _ _ _ => rfl) fun _ _ _ _ => rfl
  case iadd => exact issuesLanes_of_eq (f := uopIadd) (fun _ _ => rfl) (fun _ _ _ _ _ _ => rfl) fun _ _ _ _ => rfl
  case isub => exact issuesLanes_of_eq (f := uopIsub) (fun _ _ => rfl) (fun _ _ _ _ _ _ => rfl) fun _ _ _ _ => rfl
  case imul => exact issuesLanes_of_eq (f := uopImul) (fun _ _ => rfl) (fun _ _ _ _ _ _ => rfl) fun _ _ _ _ => rfl
  case sel => exact issuesLanes_of_eq (f := uopSel) (fun _ _ => rfl) (fun _ _ _ _ _ _ => rfl) fun _ _ _ _ => rfl
  case shf => exact issuesLanes_of_eq (f := uopShf) (fun _ _ => rfl) (fun _ _ _ _ _ _ => rfl) fun _ _ _ _ => rfl
  case rng => exact issuesLanes_of_eq (f := uopRng) (fun _ _ => rfl) (fun _ _ _ _ _ _ => rfl) fun _ _ _ _ => rfl
  case fsgn =>
    refine issuesLanes_of_eq (f := uopFsgn) (fun e u => ?_) (fun _ _ _ _ _ _ => rfl) fun _ _ _ _ => rfl
    rw [uopFsgn]
    split
    next two => exact congrArg₂ (laneOp e u.d _) (funext fun i => by simp only [laneReads, two]; rfl) (funext fun i => by simp only [laneGives, laneReads, two, ofAB, if_true]; rfl)
    next one => exact congrArg₂ (laneOp e u.d _) (funext fun i => by simp only [laneReads, one]; rfl) (funext fun i => by simp only [laneGives, laneReads, one]; rfl)
  case cvt =>
    refine issuesLanes_of_eq (f := uopCvt) (fun e u => ?_) (fun _ _ _ _ _ _ => rfl) fun _ _ _ _ => rfl
    rw [uopCvt]
    split
    next two => exact congrArg₂ (laneOp e u.d _) (funext fun i => by simp only [laneReads, two]; rfl) (funext fun i => by simp only [laneGives, laneReads, two, ofAB, if_true]; rfl)
    next one => exact congrArg₂ (laneOp e u.d _) (funext fun i => by simp only [laneReads, one]; rfl) (funext fun i => by simp only [laneGives, laneReads, one]; rfl)
  case ilog => exact issuesLanes_of_eq (f := uopIlog) (fun _ _ => rfl) (fun _ _ _ _ _ _ => rfl) fun _ _ _ _ => rfl
  case ishf =>
    refine issuesLanes_of_eq (f := uopIshf) (fun e u => ?_) (fun _ _ _ _ _ _ => rfl) fun _ _ _ _ => rfl
    simp only [uopIshf, binary, shiftFn_eq]
    rfl
  case imnx =>
    refine ⟨uopImnx, fun e u ok op => ⟨e.s.freeCount, _, _, rfl, fun _ => rfl, fun i _ => ?_⟩, fun _ _ _ _ _ _ => rfl, fun _ _ _ _ => rfl⟩
    exact (congrArg plainVal (imnx_eq (imnx_var ok op)) : plainVal _ = plainVal (imnxOf u.var (laneGet e.c u.a i).1 (laneGet e.c u.b i).1))
  case smn =>
    refine ⟨uopSmn, fun e u ok op => ⟨smnCount e u, _, smnValue e u, uopSmn_eq e u, maskSrcs_any e u [u.a] [u.b, u.b + 1], fun i _ => ?_⟩,
      fun _ _ _ _ _ _ => rfl, fun _ _ _ _ => rfl⟩
    simp only [laneGives, laneReads, srcsOpen, smnValue]
    obtain masked | masked := Bool.eq_false_or_eq_true (posMasked e u i) <;> simp only [masked] <;> rfl
  case smb =>
    refine ⟨uopSmb, fun e u ok op => ⟨e.s.freeCount, _, _, rfl, maskSrcs_any e u [u.a, u.b] [u.d, u.d + 1], fun i _ => ?_⟩, fun _ _ _ _ _ _ => rfl, fun _ _ _ _ => rfl⟩
    simp only [laneGives, laneReads, srcsOpen]
    cases posMasked e u i
    · rfl
    · exact smbLane_masked ..
  case nrm =>
    refine ⟨uopNrm, fun e u ok op => ⟨e.s.freeCount, _, _, rfl, maskSrcs_any e u [u.a] [u.b, u.b + 1], fun i _ => ?_⟩, fun _ _ _ _ _ _ => rfl, fun _ _ _ _ => rfl⟩
    simp only [laneGives, laneReads, srcsOpen]
    cases posMasked e u i
    · rfl
    · exact nrmLane_masked ..

/-! ## What a lane-wise issue leaves -/

/-- Lanes of the op, and active ones, as the masks name them. -/
theorem bit_lanesOf (m : LaneOp) (e : VeEnv) (u : Uop) (i : Nat) :
    bit (lanesOf m e u) i = if m.every then laneIn e i else laneOn e u i := by
  rw [lanesOf]
  split
  · rfl
  · exact Nat.testBit_and ..

theorem uopFields_op (op : Nat) (d a b mod : BitVec 6) : (uopFields op d a b mod).op = op := rfl

/-- The lane-wise micro-op of a catalogue entry, lane by lane. -/
theorem lanes_issued (here : IssuesLanes m) (h : Issuable s core.toNat (uopFields m.op d a b mod) e) :
    ∃ k srcs g, exec (m.cmd core d a b mod) s = .next (issued e m.op (laneOp (withFree e k) d.toNat
        (bitList 64 (lanesOf m e (uopFields m.op d a b mod))) srcs g)) ∧
      (∀ i, (srcs i).any (·.2) = (laneReads m e (uopFields m.op d a b mod) i).any (·.2)) ∧
      ∀ i, (laneReads m e (uopFields m.op d a b mod) i).any (·.2) = false → g i = laneGives m e (uopFields m.op d a b mod) i := by
  obtain ⟨f, form, cmd, ready⟩ := here
  obtain ⟨k, srcs, g, is, reads, gives⟩ := form e (uopFields m.op d a b mod) h.allowed (uopFields_op ..)
  refine ⟨k, srcs, g, ?_, reads, gives⟩
  rw [cmd, issueCmd_issues h (ready ..), is]
  rfl

/-- Settles O40: each catalogue entry is a lane-wise operation, and one of those writes its lanes and gathers its flags. -/
theorem laneMicroOps : Obligations.LaneMicroOps := by
  intro m core d a b mod s e hm u h on xs res good
  obtain ⟨k, srcs, g, run, reads, gives⟩ := lanes_issued (laneTable_issues m hm) h
  have sound : CtxSound e.c := ctxSound_env h.sound h.running
  have onBit (i : Nat) : bit (lanesOf m e u) i = on i := bit_lanesOf m e u i
  have flags (flag : FRes → Bool) : laneFlag srcs g (lanesOf m e u) flag = (List.range 64).any fun i => good i && flag (res i) := by
    refine congrArg (List.any (List.range 64)) (funext fun i => ?_)
    rw [onBit, reads]
    show _ = (on i && !((laneReads m e u i).any (·.2)) && flag (laneGives m e u i))
    cases clean : (laneReads m e u i).any (·.2)
    · rw [gives i clean]
    · simp
  rw [laneOp_eq] at run
  obtain ⟨hs, hn⟩ := veEnv_state h.running
  have res1 (i : Nat) : laneVal (laneResult srcs g i).1 (laneResult srcs g i).2 =
      if (!((laneReads m e u i).any (·.2))) then ((laneGives m e u i).code % 2 ^ 32, false) else (0x7FC00000, true) := by
    rw [laneResult, reads]
    cases clean : (laneReads m e u i).any (·.2)
    · rw [gives i clean]
      rfl
    · rfl
  refine ⟨_, run, _, veEnv_veBack (n := core.toNat) ?_ ?_, ?_, ?_, ?_, ?_, ?_, ?_, ?_⟩
  · exact hn
  · show keysRise e.s.cores = true
    exact issuable_rise h
  · intro i hi
    refine (laneGet_putLanes _ _ sound d.toNat i hi).trans ?_
    rw [onBit, res1]
    show _ = if on i then (if on i && !((laneReads m e u i).any (·.2)) then _ else _) else _
    cases on i <;> rfl
  · exact fun r _ hr i hi => laneGet_putLanes_other _ _ sound hi hr
  · exact putLanes_masks ..
  · exact putLanes_ru ..
  · rw [← flags, ← flags]
    rfl
  · show e.s.mem = s.mem
    rw [hs]
  · intro k hk
    refine (veBack_other ?_ ?_).trans ?_
    · show keysRise e.s.cores = true
      exact issuable_rise h
    · exact fun same => hk (same.trans hn)
    · show getCore e.s k = getCore s k
      rw [hs]

end Sys2Proof.Laws
end

section
/-! PROOFS. Lanes of a mask, faults, and output streams (R226, R236 to R242). -/

namespace Sys2Proof.Laws

open Sys2Proof Sys2Proof.Machine
set_option Elab.async false

variable {s t : State} {e x : VeEnv} {c : VeCtx} {u : Uop} {n k : Nat} {core : CoreId} {d a b mod : BitVec 6}

/-! ## Masks as lists of lanes -/

theorem bit_or_shift (m j i : Nat) : bit (m ||| (1 <<< j)) i = (bit m i || decide (j = i)) := by
  rw [bit, Nat.testBit_or, Nat.one_shiftLeft, Nat.testBit_two_pow]
  rfl

theorem bit_maskOf (l : List Nat) (i : Nat) : bit (maskOf l) i = decide (i ∈ l) := by
  have all (l : List Nat) (m : Nat) : bit (l.foldl (fun m i => m ||| (1 <<< i)) m) i = (bit m i || decide (i ∈ l)) := by
    induction l generalizing m with
    | nil => simp
    | cons j l ih =>
      rw [List.foldl_cons, ih, bit_or_shift, Bool.or_assoc, ← Bool.decide_or]
      simp only [List.mem_cons, eq_comm]
  rw [maskOf, all]
  simp [bit]

theorem bit_mod {i : Nat} (hi : i < 64) (v : Nat) : bit (v % 2 ^ 64) i = bit v i := by
  rw [bit, Nat.testBit_mod_two_pow, decide_eq_true hi, Bool.true_and, bit]

/-- The lanes of a mask, among the 64. -/
theorem mem_lanes {m i : Nat} (hi : i < 64) : i ∈ bitList 64 m ↔ bit m i = true := by simp [mem_bitList, hi]

theorem bit_activeOf (e : VeEnv) (u : Uop) (i : Nat) : bit (activeOf e u) i = laneOn e u i := Nat.testBit_and ..

/-! ## Faults (R246, R247) -/

@[simp] theorem coreWrite_cores (s : State) (n off : Nat) (bs : Bytes) (p : Bool) : (coreWrite s n off bs p).cores = s.cores := by
  rw [coreWrite]
  split <;> rfl

@[simp] theorem coreWrite_cr (s : State) (n off : Nat) (bs : Bytes) (p : Bool) : (coreWrite s n off bs p).cr = s.cr := by
  rw [coreWrite]
  split <;> rfl

theorem veFault_cores (e : VeEnv) (op k l m addr : Nat) (st : Status) : (veFault e op k l m addr st).s.cores = e.s.cores :=
  coreWrite_cores e.s e.n (veParm e.v.desc).faultRec (faultRecord e.v.iter e.v.pc op l k m addr st) false

/-- The counters after a fault of a kind (R247). -/
def faultCr (cr : ComputeRegs) (kind : Nat) : ComputeRegs :=
  if kind = 6 then { cr with ruFaults := satAdd cr.ruFaults 1 } else { cr with laneFaults := satAdd cr.laneFaults 1 }

theorem veFault_cr (e : VeEnv) (op k l m addr : Nat) (st : Status) : (veFault e op k l m addr st).s.cr = faultCr e.s.cr k := by
  show faultCr (coreWrite ..).cr k = _
  rw [coreWrite_cr]

/-- An op that a fault ends, with the environment that the fault left. -/
theorem veEnv_faulted (hn : x.n = n) (rise : keysRise x.s.cores = true) (op k l m addr : Nat) (st : Status) :
    veEnv (issued e op (.fault x k l m addr st)) n =
      some { s := issued e op (.fault x k l m addr st), n, v := { x.v with hard := some st, waiting := false, finished := true }, c := x.c } :=
  veEnv_veBack (x := veFault x op k l m addr st) hn (by rw [veFault_cores]; exact rise)

theorem issued_fault_cr (x : VeEnv) (op k l m addr : Nat) (st : Status) :
    (issued e op (.fault x k l m addr st)).cr = faultCr x.s.cr k := by
  rw [issued, veBack_cr, veFault_cr]

/-- The environment after an issue that is done. -/
theorem veEnv_done (hn : x.n = n) (rise : keysRise x.s.cores = true) (op : Nat) :
    veEnv (issued e op (.done x)) n = some { s := issued e op (.done x), n, v := x.v, c := x.c } :=
  veEnv_veBack hn rise

theorem issued_other (rise : keysRise x.s.cores = true) (op : Nat) {j : Nat} (hj : j ≠ x.n) :
    getCore (issued e op (.done x)) j = getCore x.s j := veBack_other rise hj

/-! ## Output streams (R238) -/

/-- An environment after elements of its output streams were taken or written: nothing of it but memory, the elements that wait, the places of
the streams and the status. -/
structure OnlyOutput (e x : VeEnv) : Prop where
  ctx : x.c = e.c
  core : x.n = e.n
  state : ∃ m, x.s = setMem e.s m
  run : ∃ pos buf hard, x.v = { e.v with outPos := pos, outBuf := buf, hard := hard }

theorem OnlyOutput.refl (e : VeEnv) : OnlyOutput e e := ⟨rfl, rfl, ⟨e.s.mem, rfl⟩, ⟨_, _, _, rfl⟩⟩

theorem OnlyOutput.trans {y : VeEnv} (h : OnlyOutput e x) (k : OnlyOutput x y) : OnlyOutput e y := by
  obtain ⟨m, hm⟩ := h.state
  obtain ⟨m', hm'⟩ := k.state
  obtain ⟨p, b, r, hv⟩ := h.run
  obtain ⟨p', b', r', hv'⟩ := k.run
  exact ⟨k.ctx.trans h.ctx, k.core.trans h.core, ⟨m', by rw [hm', hm]; rfl⟩, ⟨p', b', r', by rw [hv', hv]⟩⟩

theorem flushBlock_output (e : VeEnv) (k r blk : Nat) : OnlyOutput e (flushBlock e k r blk) := ⟨rfl, rfl, ⟨_, rfl⟩, ⟨_, _, _, rfl⟩⟩

theorem flushBlock_outPos (e : VeEnv) (k r blk : Nat) : (flushBlock e k r blk).v.outPos = e.v.outPos := rfl

/-- The elements that wait in an output stream, with the one taken. -/
def waits (e : VeEnv) (k : Nat) (z : Option (Nat × Bool)) : List (Nat × Bool × Nat) :=
  match z with
  | some z => e.v.outBuf.getD k [] ++ [(z.1, z.2, e.v.outPos.getD k 0)]
  | none => e.v.outBuf.getD k []

/-- One position of an output stream taken, its element waiting for the block. -/
def placed (e : VeEnv) (k : Nat) (z : Option (Nat × Bool)) : VeEnv :=
  { e with v := { e.v with outPos := e.v.outPos.set k (e.v.outPos.getD k 0 + 1), outBuf := e.v.outBuf.set k (waits e k z) } }

/-- Elements of a block of an output stream. -/
def outBlock (e : VeEnv) (k : Nat) : Nat :=
  if scaled (fmtWord (envStream e (4 + k)).fw).fmt then blkSize (fmtWord (envStream e (4 + k)).fw) else 64

theorem outPut_eq (e : VeEnv) (k : Nat) (z : Option (Nat × Bool)) : outPut e k z =
    if (e.v.outPos.getD k 0 % (envStream e (4 + k)).rowLen + 1) % outBlock e k = 0 ∨
        e.v.outPos.getD k 0 % (envStream e (4 + k)).rowLen + 1 = (envStream e (4 + k)).rowLen then
      flushBlock (placed e k z) k (e.v.outPos.getD k 0 / (envStream e (4 + k)).rowLen)
        (e.v.outPos.getD k 0 % (envStream e (4 + k)).rowLen / outBlock e k)
    else placed e k z := rfl

theorem placed_output (e : VeEnv) (k : Nat) (z : Option (Nat × Bool)) : OnlyOutput e (placed e k z) :=
  ⟨rfl, rfl, ⟨e.s.mem, rfl⟩, ⟨_, _, _, rfl⟩⟩

theorem outPut_output (e : VeEnv) (k : Nat) (z : Option (Nat × Bool)) : OnlyOutput e (outPut e k z) := by
  rw [outPut_eq]
  split
  · exact (placed_output e k z).trans (flushBlock_output ..)
  · exact placed_output e k z

theorem outPut_outPos (e : VeEnv) (k : Nat) (z : Option (Nat × Bool)) :
    (outPut e k z).v.outPos = e.v.outPos.set k (e.v.outPos.getD k 0 + 1) := by
  rw [outPut_eq]
  split <;> rfl

section Run

variable {α : Type} (f : α → Option (Nat × Bool))

theorem outPuts_output (e : VeEnv) (k : Nat) (l : List α) : OnlyOutput e (l.foldl (fun a i => outPut a k (f i)) e) := by
  induction l generalizing e with
  | nil => exact .refl e
  | cons i l ih => exact (outPut_output e k (f i)).trans (ih _)

/-- So many elements further in their stream. -/
theorem outPuts_outPos (e : VeEnv) {k : Nat} (hk : k < e.v.outPos.length) (l : List α) :
    (l.foldl (fun a i => outPut a k (f i)) e).v.outPos = e.v.outPos.set k (e.v.outPos.getD k 0 + l.length) := by
  induction l generalizing e with
  | nil => simp [hk]
  | cons i l ih =>
    rw [List.foldl_cons, ih _ (by rw [outPut_outPos, List.length_set]; exact hk), outPut_outPos, List.set_set]
    simp only [List.getD_eq_getElem?_getD, List.getElem?_set, if_pos hk, if_true, Option.getD_some, List.length_cons]
    congr 1
    omega

end Run

end Sys2Proof.Laws
end

section
/-! PROOFS. Mask and reduction micro-ops (O41). -/

namespace Sys2Proof.Laws

open Sys2Proof Sys2Proof.Machine
set_option Elab.async false

variable {s t : State} {e x : VeEnv} {c : VeCtx} {u : Uop} {n k : Nat} {core : CoreId} {d a b mod : BitVec 6}

/-! ## Constants and masks (R226, R228) -/

theorem leNat_four (m : Mem) (at_ : Nat) : leNat (memRead m at_ 4) % 2 ^ 32 = leNat (memRead m at_ 4) := by
  refine Nat.mod_eq_of_lt ?_
  have := leNat_lt (memRead m at_ 4)
  rwa [show (memRead m at_ 4).length = 4 by simp [memRead]] at this

/-- A mask register that is a destination is none that reads as all ones (R224, R229). -/
theorem maskDst_ne_zero {ruOp : Nat} {ruSeg : Bool} (ok : uopOk ruOp ruSeg u = true) (h : u.op = 0x1D ∨ u.op = 0x1E ∨ u.op = 0x20) : u.d ≠ 0 := by
  rw [uopOk] at ok
  split at ok
  · cases ok
  · simp only [Bool.and_eq_true, Bool.or_eq_true, Bool.not_eq_true', decide_eq_true_eq] at ok
    obtain ⟨⟨⟨⟨-, dst⟩, -⟩, -⟩, -⟩ := ok
    rcases h with h | h | h <;> simp [h] at dst <;> omega

theorem testBit_not64 {x i : Nat} (hx : x < 2 ^ 64) (hi : i < 64) : (2 ^ 64 - 1 - x).testBit i = !x.testBit i := by
  rw [show 2 ^ 64 - 1 - x = 2 ^ 64 - (x + 1) by omega, Nat.testBit_two_pow_sub_succ hx, decide_eq_true hi, Bool.true_and]

theorem maskGet_lt (c : VeCtx) (k : Nat) : maskGet c k < 2 ^ 64 := by
  rw [maskGet]
  split
  · decide
  · exact BitVec.isLt _

/-- The bits of a combination of two masks (R228). -/
def kopBit (var : Nat) (x y : Bool) : Bool :=
  match var with
  | 0 => x && y
  | 1 => x || y
  | 2 => x != y
  | _ => x && !y

theorem bit_logicFn {x y i : Nat} (hy : y < 2 ^ 64) (hi : i < 64) (var : Nat) : bit (logicFn 64 var x y) i = kopBit var (bit x i) (bit y i) := by
  match var with
  | 0 => exact Nat.testBit_and ..
  | 1 => exact Nat.testBit_or ..
  | 2 => exact Nat.testBit_xor ..
  | _ + 3 =>
    show (x &&& (2 ^ 64 - 1 - y)).testBit i = _
    rw [Nat.testBit_and, testBit_not64 hy hi]
    rfl

/-! ## The pushes of the Reduction Unit (R248 to R252) -/

section Rows

/-- A completed row in the counters and the status of the op. -/
def rowNoted (e : VeEnv) (x : RuRes × Nat) : VeEnv :=
  { e with s := { e.s with cr := { e.s.cr with maskedRows := if decide (x.2 = rowMasked ∧ ((veParm e.v.desc).ruOp = 6 ∨ (veParm e.v.desc).ruOp = 7)) then satAdd e.s.cr.maskedRows 1 else e.s.cr.maskedRows, infRows := if decide (x.2 = rowInf ∧ (veParm e.v.desc).ruOp = 6) then satAdd e.s.cr.infRows 1 else e.s.cr.infRows } }, v := { e.v with maskedRow := e.v.maskedRow || decide (x.2 = rowMasked ∧ ((veParm e.v.desc).ruOp = 6 ∨ (veParm e.v.desc).ruOp = 7)), infRow := e.v.infRow || decide (x.2 = rowInf ∧ (veParm e.v.desc).ruOp = 6) } }

/-- Its status byte stored. -/
def rowStored (e : VeEnv) (x : RuRes × Nat) : VeEnv :=
  { rowNoted e x with s := coreWrite (rowNoted e x).s e.n ((veParm e.v.desc).rsBase + e.v.rsPos) [BitVec.ofNat 8 x.2], v := { (rowNoted e x).v with rsPos := e.v.rsPos + 1 } }

theorem ruRow_noted {act : Nat} {z : RuRes × Nat} (seg : (veParm e.v.desc).ruSeg = false) (rs : (veParm e.v.desc).rsEn = false) :
    ruRow (.done e) act z = .done (rowNoted e z) := by
  simp only [ruRow, seg, rs, rowNoted, Bool.false_and, Bool.false_eq_true, if_false]

theorem ruRow_stored {act : Nat} {z : RuRes × Nat} (seg : (veParm e.v.desc).ruSeg = false) (rs : (veParm e.v.desc).rsEn = true)
    (room : (veParm e.v.desc).rsBase + e.v.rsPos < coreStoreLen) : ruRow (.done e) act z = .done (rowStored e z) := by
  have fits : decide ((veParm e.v.desc).rsBase + e.v.rsPos ≥ coreStoreLen) = false := decide_eq_false (by omega)
  simp only [ruRow, seg, rs, rowNoted, rowStored, fits, Bool.and_false, Bool.false_eq_true, if_false, if_true]

/-- Whether a row of those marks the op as one with a masked row, and as one with a row of infinities (R251). -/
def marksMasked (e : VeEnv) (rows : List (RuRes × Nat)) : Bool :=
  decide (6 ≤ (veParm e.v.desc).ruOp ∧ (veParm e.v.desc).ruOp ≤ 7) && rows.any (·.2 == rowMasked)
/-- See `marksMasked`. -/
def marksInf (e : VeEnv) (rows : List (RuRes × Nat)) : Bool := (veParm e.v.desc).ruOp == 6 && rows.any (·.2 == rowInf)

theorem marksMasked_cons (e : VeEnv) (z : RuRes × Nat) (rows : List (RuRes × Nat)) : marksMasked e (z :: rows) =
    (decide (z.2 = rowMasked ∧ ((veParm e.v.desc).ruOp = 6 ∨ (veParm e.v.desc).ruOp = 7)) || marksMasked e rows) := by
  have op : 6 ≤ (veParm e.v.desc).ruOp ∧ (veParm e.v.desc).ruOp ≤ 7 ↔ (veParm e.v.desc).ruOp = 6 ∨ (veParm e.v.desc).ruOp = 7 := by omega
  rw [Bool.eq_iff_iff]
  simp only [marksMasked, op, List.any_cons, Bool.and_eq_true, Bool.or_eq_true, decide_eq_true_eq, beq_iff_eq]
  tauto

theorem marksInf_cons (e : VeEnv) (z : RuRes × Nat) (rows : List (RuRes × Nat)) : marksInf e (z :: rows) =
    (decide (z.2 = rowInf ∧ (veParm e.v.desc).ruOp = 6) || marksInf e rows) := by
  rw [Bool.eq_iff_iff]
  simp only [marksInf, List.any_cons, Bool.and_eq_true, Bool.or_eq_true, decide_eq_true_eq, beq_iff_eq]
  tauto

/-- An environment after rows of the Reduction Unit in the forms without segments, so many of their status bytes stored. -/
structure AfterRows (e x : VeEnv) (rows : List (RuRes × Nat)) (stored : Nat) : Prop where
  ctx : x.c = e.c
  core : x.n = e.n
  cores : x.s.cores = e.s.cores
  run : x.v = { e.v with maskedRow := e.v.maskedRow || marksMasked e rows, infRow := e.v.infRow || marksInf e rows, rsPos := e.v.rsPos + stored }

theorem AfterRows.nil (e : VeEnv) : AfterRows e e [] 0 := by
  refine ⟨rfl, rfl, rfl, ?_⟩
  simp [marksMasked, marksInf]

variable {z : RuRes × Nat} {rows : List (RuRes × Nat)} {act : Nat}

theorem AfterRows.noted (h : AfterRows (rowNoted e z) x rows k) : AfterRows e x (z :: rows) k := by
  obtain ⟨ctx, core, cores, run⟩ := h
  refine ⟨ctx, core, cores, ?_⟩
  rw [run, marksMasked_cons, marksInf_cons, ← Bool.or_assoc, ← Bool.or_assoc]
  rfl

theorem AfterRows.stored (h : AfterRows (rowStored e z) x rows k) : AfterRows e x (z :: rows) (k + 1) := by
  obtain ⟨ctx, core, cores, run⟩ := h
  refine ⟨ctx, core, cores.trans (coreWrite_cores ..), ?_⟩
  rw [run, marksMasked_cons, marksInf_cons, ← Bool.or_assoc, ← Bool.or_assoc, Nat.add_comm k 1, ← Nat.add_assoc]
  rfl

theorem rows_noted (seg : (veParm e.v.desc).ruSeg = false) (rs : (veParm e.v.desc).rsEn = false) :
    ∃ x, rows.foldl (fun a z => ruRow a act z) (.done e) = .done x ∧ AfterRows e x rows 0 ∧ x.s.mem = e.s.mem := by
  induction rows generalizing e with
  | nil => exact ⟨e, rfl, .nil e, rfl⟩
  | cons z rows ih =>
    obtain ⟨x, run, after, mem⟩ := ih (e := rowNoted e z) seg rs
    refine ⟨x, ?_, after.noted, mem⟩
    rw [List.foldl_cons, ruRow_noted seg rs, run]

/-- Memory with the status bytes of rows from an address on. -/
def withRows (m : Mem) (at_ : Nat) (rows : List (RuRes × Nat)) (a : Nat) : BitVec 8 :=
  if at_ ≤ a ∧ a < at_ + rows.length then BitVec.ofNat 8 ((rows.map (·.2)).getD (a - at_) 0) else memByte m a

/-- The first status byte stored, and the others behind it. -/
theorem withRows_cons {m : Mem} (wf : Memory.wf m = true) {at_ next : Nat} (hn : next = at_ + 1) (a : Nat) :
    withRows (memWrite m at_ [BitVec.ofNat 8 z.2] false) next rows a = withRows m at_ (z :: rows) a := by
  subst hn
  rw [withRows, withRows, memByte_memWrite wf, List.length_singleton, List.length_cons]
  by_cases first : a = at_
  · subst first
    rw [if_neg (by omega), if_pos (by omega), if_pos (by omega), Nat.sub_self]
    rfl
  · by_cases later : at_ + 1 ≤ a ∧ a < at_ + 1 + rows.length
    · rw [if_pos later, if_pos (by omega), show a - at_ = a - (at_ + 1) + 1 by omega]
      rfl
    · rw [if_neg later, if_neg (by omega), if_neg (by omega)]

theorem withRows_outside {m : Mem} {at_ y : Nat} (h : ¬(at_ ≤ y ∧ y < at_ + rows.length)) : withRows m at_ rows y = memByte m y := if_neg h

theorem withRows_row {m : Mem} {at_ j : Nat} (h : rows[j]? = some z) : (withRows m at_ rows (at_ + j)).toNat = z.2 % 256 := by
  have short : j < rows.length := (List.getElem?_eq_some_iff.mp h).1
  rw [withRows, if_pos (by omega), Nat.add_sub_cancel_left, List.getD_eq_getElem?_getD, List.getElem?_map, h]
  exact BitVec.toNat_ofNat ..

theorem rows_stored (wf : Memory.wf e.s.mem = true) (seg : (veParm e.v.desc).ruSeg = false) (rs : (veParm e.v.desc).rsEn = true)
    (room : (veParm e.v.desc).rsBase + e.v.rsPos + rows.length ≤ coreStoreLen) :
    ∃ x, rows.foldl (fun a z => ruRow a act z) (.done e) = .done x ∧ AfterRows e x rows rows.length ∧
      ∀ a, memByte x.s.mem a = withRows e.s.mem (coreBase e.n + ((veParm e.v.desc).rsBase + e.v.rsPos)) rows a := by
  induction rows generalizing e with
  | nil =>
    refine ⟨e, rfl, .nil e, fun a => ?_⟩
    rw [withRows, if_neg (by rw [List.length_nil]; omega)]
  | cons z rows ih =>
    rw [List.length_cons] at room
    have write : (rowStored e z).s.mem = memWrite e.s.mem (coreBase e.n + ((veParm e.v.desc).rsBase + e.v.rsPos)) [BitVec.ofNat 8 z.2] false := by
      show (coreWrite _ _ _ _).mem = _
      rw [coreWrite, if_pos (by rw [List.length_singleton]; omega)]
      rfl
    obtain ⟨x, run, after, mem⟩ := ih (e := rowStored e z) (by rw [write]; exact memWrite_wf wf) seg rs
      (by show (veParm e.v.desc).rsBase + (e.v.rsPos + 1) + rows.length ≤ coreStoreLen; omega)
    refine ⟨x, ?_, after.stored, fun a => ?_⟩
    · rw [List.foldl_cons, ruRow_stored seg rs (by omega), run]
    · rw [mem, write]
      show withRows _ (coreBase e.n + ((veParm e.v.desc).rsBase + (e.v.rsPos + 1))) rows a = _
      exact withRows_cons wf (by omega) a

end Rows

/-! ## Results taken from the Reduction Unit (R251) -/

section Rug

variable {queue : List RuRes} {w r i j : Nat} {q : RuRes}

/-- A lane of RUG takes its result. -/
def rugLane (queue : List RuRes) (w r : Nat) (c : VeCtx) (i : Nat) : VeCtx :=
  match queue[i / w]? with
  | some q => if q.pair ∧ r < 63 then laneSet (laneSet c r i q.lo false) (r + 1) i q.hi false else laneSet c r i q.lo false
  | none => c

theorem rugLane_some (c : VeCtx) (h : queue[i / w]? = some q) : rugLane queue w r c i =
    if q.pair ∧ r < 63 then laneSet (laneSet c r i q.lo false) (r + 1) i q.hi false else laneSet c r i q.lo false := by
  rw [rugLane, h]

theorem rugLane_none (c : VeCtx) (h : queue[i / w]? = none) : rugLane queue w r c i = c := by rw [rugLane, h]

theorem ctxSound_rugLane (h : CtxSound c) (queue : List RuRes) (w r i : Nat) : CtxSound (rugLane queue w r c i) := by
  cases hq : queue[i / w]? with
  | none =>
    rw [rugLane_none c hq]
    exact h
  | some q =>
    rw [rugLane_some c hq]
    split
    · exact ctxSound_laneSet (ctxSound_laneSet h ..) ..
    · exact ctxSound_laneSet h ..

theorem rugLane_masks (queue : List RuRes) (w r : Nat) (c : VeCtx) (i : Nat) : (rugLane queue w r c i).masks = c.masks := by
  cases hq : queue[i / w]? with
  | none => rw [rugLane_none c hq]
  | some q =>
    rw [rugLane_some c hq]
    split <;> rfl

theorem rugLane_ru (queue : List RuRes) (w r : Nat) (c : VeCtx) (i : Nat) : (rugLane queue w r c i).ru = c.ru := by
  cases hq : queue[i / w]? with
  | none => rw [rugLane_none c hq]
  | some q =>
    rw [rugLane_some c hq]
    split <;> rfl

theorem rugLane_other (h : CtxSound c) (queue : List RuRes) (w r r' : Nat) (hi : i < 64) (hj : j < 64) (ne : j ≠ i) :
    laneGet (rugLane queue w r c i) r' j = laneGet c r' j := by
  cases hq : queue[i / w]? with
  | none => rw [rugLane_none c hq]
  | some q =>
    have apart (r₁ : Nat) : 64 * r' + j ≠ 64 * r₁ + i := by omega
    rw [rugLane_some c hq]
    split
    · rw [laneGet_laneSet_other (ctxSound_laneSet h ..) (apart _), laneGet_laneSet_other h (apart _)]
    · rw [laneGet_laneSet_other h (apart _)]

theorem rugLane_low (h : CtxSound c) (hq : queue[i / w]? = some q) : laneGet (rugLane queue w r c i) r i = (q.lo % 2 ^ 32, false) := by
  rw [rugLane_some c hq]
  split
  · rw [laneGet_laneSet_other (ctxSound_laneSet h ..) (by omega), laneGet_laneSet_self h]
    rfl
  · rw [laneGet_laneSet_self h]
    rfl

theorem rugLane_high (h : CtxSound c) (hq : queue[i / w]? = some q) (pair : q.pair = true) (hr : r < 63) :
    laneGet (rugLane queue w r c i) (r + 1) i = (q.hi % 2 ^ 32, false) := by
  rw [rugLane_some c hq, if_pos ⟨pair, hr⟩, laneGet_laneSet_self (ctxSound_laneSet h ..)]
  rfl

/-- The lanes of a list take their results. -/
def rugLanes (queue : List RuRes) (w r : Nat) (c : VeCtx) (l : List Nat) : VeCtx := l.foldl (rugLane queue w r) c

theorem rugLanes_masks (queue : List RuRes) (w r : Nat) (c : VeCtx) (l : List Nat) : (rugLanes queue w r c l).masks = c.masks :=
  List.foldlRecOn (motive := fun (x : VeCtx) => x.masks = c.masks) l _ rfl fun _ h _ _ => (rugLane_masks ..).trans h

theorem rugLanes_ru (queue : List RuRes) (w r : Nat) (c : VeCtx) (l : List Nat) : (rugLanes queue w r c l).ru = c.ru :=
  List.foldlRecOn (motive := fun (x : VeCtx) => x.ru = c.ru) l _ rfl fun _ h _ _ => (rugLane_ru ..).trans h

theorem rugLanes_other (h : CtxSound c) (queue : List RuRes) (w r r' : Nat) {l : List Nat} (hl : ∀ i ∈ l, i < 64) (hj : j < 64) (out : j ∉ l) :
    laneGet (rugLanes queue w r c l) r' j = laneGet c r' j := by
  refine (List.foldlRecOn (motive := fun (x : VeCtx) => CtxSound x ∧ laneGet x r' j = laneGet c r' j) l _ ⟨h, rfl⟩ ?_).2
  rintro y ⟨hy, same⟩ i hi
  exact ⟨ctxSound_rugLane hy .., (rugLane_other hy queue w r r' (hl i hi) hj fun e => out (e ▸ hi)).trans same⟩

/-- A lane of the list reads as it does with its own result alone. -/
theorem rugLanes_self (h : CtxSound c) (queue : List RuRes) (w r r' : Nat) {l : List Nat} (once : l.Nodup) (hl : ∀ i ∈ l, i < 64) (hi : i ∈ l) :
    ∃ y, CtxSound y ∧ laneGet (rugLanes queue w r c l) r' i = laneGet (rugLane queue w r y i) r' i := by
  induction l generalizing c with
  | nil => cases hi
  | cons j l ih =>
    rw [List.nodup_cons] at once
    rcases List.mem_cons.mp hi with rfl | hi
    · exact ⟨c, h, rugLanes_other (ctxSound_rugLane h ..) queue w r r' (fun j hj => hl j (.tail _ hj)) (hl i (.head _)) once.1⟩
    · exact ih (ctxSound_rugLane h ..) once.2 (fun j hj => hl j (.tail _ hj)) hi

/-- The width of the slots of a RUG. -/
def rugWidth (e : VeEnv) (u : Uop) : Nat := if u.var = 1 ∧ e.c.ru.width ≠ 0 then 4 * 2 ^ e.c.ru.width else 64

theorem uopRug_eq (e : VeEnv) (u : Uop) : uopRug e u =
    if e.c.ru.queue.length < 64 / rugWidth e u then faultAll e 6 (activeOf e u) .ruQueue
    else .done { e with c := rugLanes e.c.ru.queue (rugWidth e u) u.d { e.c with ru := { e.c.ru with queue := e.c.ru.queue.drop (64 / rugWidth e u) } } (bitList 64 (activeOf e u)) } := rfl

end Rug

/-! ## The commands -/

/-- An issue that changes the register context alone. -/
theorem ctx_issued (h : Issuable s n u e) (op : Nat) (c : VeCtx) :
    veEnv (issued e op (.done { e with c })) n = some { s := issued e op (.done { e with c }), n, v := e.v, c } ∧
      (issued e op (.done { e with c })).mem = s.mem ∧
      ∀ k, k ≠ n → getCore (issued e op (.done { e with c })) k = getCore s k := by
  obtain ⟨hs, hn⟩ := veEnv_state h.running
  have rise : keysRise e.s.cores = true := issuable_rise h
  refine ⟨veEnv_done (x := { e with c }) hn rise op, ?_, fun k hk => ?_⟩
  · show e.s.mem = s.mem
    rw [hs]
  · rw [issued_other (x := { e with c }) rise op fun same => hk (same.trans hn), hs]

/-- A micro-op that writes a mask register. -/
theorem mask_issued (h : Issuable s n u e) (op v : Nat) {r : Nat} {f : Nat → Bool} (hr : r ≠ 0) (bits : ∀ i < 64, bit v i = f i) :
    let t := issued e op (.done { e with c := maskSet e.c r v })
    ∃ e', (veEnv t n = some e' ∧ e'.v = e.v ∧ e'.c.ru = e.c.ru ∧ t.mem = s.mem ∧ ∀ k, k ≠ n → getCore t k = getCore s k) ∧
      e'.c.regs = e.c.regs ∧ (∀ i < 64, bit (maskGet e'.c r) i = f i) ∧ ∀ j < 8, j ≠ r → maskGet e'.c j = maskGet e.c j := by
  have sound : CtxSound e.c := ctxSound_env h.sound h.running
  obtain ⟨env, mem, other⟩ := ctx_issued h op (maskSet e.c r v)
  refine ⟨_, ⟨env, rfl, maskSet_ru .., mem, other⟩, maskSet_regs .., fun i hi => ?_, fun j _ hj => maskGet_maskSet_other sound v hj⟩
  rw [maskGet_maskSet_self sound v hr, bit_mod hi, bits i hi]

/-- A micro-op that finds the queue of the Reduction Unit full, or too short. -/
theorem queue_faulted (h : Issuable s n u e) (op act : Nat) :
    let t := issued e op (faultAll e 6 act .ruQueue)
    ∃ e', veEnv t n = some e' ∧ e'.v.finished = true ∧ e'.v.hard = some .ruQueue ∧ e'.c = e.c ∧ t.cr.ruFaults = satAdd s.cr.ruFaults 1 := by
  obtain ⟨hs, hn⟩ := veEnv_state h.running
  refine ⟨_, veEnv_faulted hn (issuable_rise h) .., rfl, rfl, rfl, ?_⟩
  rw [faultAll, issued_fault_cr, hs]
  rfl

theorem entryReady_pure (s : State) (n : Nat) (e : VeEnv) (u : Uop) {op : Nat} (h : op ∈ [0x00, 0x02, 0x1D, 0x1E, 0x20, 0x22, 0x23]) :
    entryReady s n e op u = true := by
  fin_cases h <;> rfl

/-- The lanes of a compare. -/
def compareBits (e : VeEnv) (u : Uop) (f : Nat → Nat → Bool) (i : Nat) : Bool :=
  laneOn e u i && !(laneGet e.c u.a i).2 && !(laneGet e.c u.b i).2 && f (laneGet e.c u.a i).1 (laneGet e.c u.b i).1

theorem compare_bits (e : VeEnv) (u : Uop) (f : Nat → Nat → Bool) : ∃ v, Machine.compare e u f = .done { e with c := maskSet e.c u.d v } ∧
    ∀ i < 64, bit v i = compareBits e u f i := by
  refine ⟨_, rfl, fun i hi => ?_⟩
  rw [bit_maskOf, Bool.eq_iff_iff, decide_eq_true_iff, List.mem_filter, mem_lanes hi, bit_activeOf, compareBits]
  simp only [Bool.and_eq_true, and_assoc]

/-- CNS: a constant in all 64 lanes. -/
theorem cns_issued (h : Issuable s core.toNat (uopFields 0x02 d a b mod) e) :
    let at_ := coreBase core.toNat + (veParm e.v.desc).constBase + 4 * a.toNat
    let t := issued e 0x02 (uopCns e (uopFields 0x02 d a b mod))
    ∃ e', (veEnv t core.toNat = some e' ∧ e'.v = e.v ∧ e'.c.ru = e.c.ru ∧ t.mem = s.mem ∧ ∀ k, k ≠ core.toNat → getCore t k = getCore s k) ∧
      e'.c.masks = e.c.masks ∧
      (∀ i < 64, laneGet e'.c d.toNat i = if linePoison s.mem at_ then (0x7FC00000, true) else (memLe s at_ 4, false)) ∧
      ∀ r < 64, r ≠ d.toNat → ∀ i < 64, laneGet e'.c r i = laneGet e.c r i := by
  intro at_ t
  have sound : CtxSound e.c := ctxSound_env h.sound h.running
  obtain ⟨hs, hn⟩ := veEnv_state h.running
  let all := (List.range 64).map fun i => (i, leNat (memRead s.mem at_ 4), linePoison s.mem at_)
  have once : (all.map (·.1)).Nodup := by
    rw [List.map_map]
    exact (List.map_id' (List.range 64)).symm ▸ List.nodup_range
  have is : uopCns e (uopFields 0x02 d a b mod) = .done { e with c := putLanes e.c d.toNat all } := by
    simp only [uopCns, hs, hn]
    rfl
  obtain ⟨env, mem, other⟩ := ctx_issued h 0x02 (putLanes e.c d.toNat all)
  refine ⟨_, ⟨(congrArg (fun i => veEnv (issued e 0x02 i) core.toNat) is).trans env, rfl, putLanes_ru .., ?_, ?_⟩, putLanes_masks .., fun i hi => ?_,
    fun r _ hr i hi => ?_⟩
  · exact (congrArg (fun i => (issued e 0x02 i).mem) is).trans mem
  · exact fun k hk => (congrArg (fun i => getCore (issued e 0x02 i) k) is).trans (other k hk)
  · refine (putLanes_self sound once (List.mem_map.mpr ⟨i, List.mem_range.mpr hi, rfl⟩)).trans ?_
    rw [laneVal, leNat_four]
    rfl
  · refine putLanes_other sound fun z hz => ?_
    obtain ⟨j, hj, rfl⟩ := List.mem_map.mp hz
    have := List.mem_range.mp hj
    dsimp only
    omega

/-- The Reduction Unit replaced. -/
def pushed (e : VeEnv) (ru : RuState) : VeEnv := { e with c := { e.c with ru } }

/-- The push of a RUP, where it has room. -/
theorem uopRup_some {ru : RuState} {rows : List (RuRes × Nat)} (e : VeEnv) (u : Uop)
    (hp : ruPush e.c.ru (envEps e) ((List.range 64).map fun i => (laneGet e.c u.a i).1) (activeOf e u) (if u.var = 0 then 0 else maskGet e.c u.var) = some (ru, rows)) :
    uopRup e u = ruRows e (pushed e ru) (activeOf e u) rows := by
  simp only [uopRup, hp, pushed]

theorem uopRup_none (e : VeEnv) (u : Uop)
    (hp : ruPush e.c.ru (envEps e) ((List.range 64).map fun i => (laneGet e.c u.a i).1) (activeOf e u) (if u.var = 0 then 0 else maskGet e.c u.var) = none) :
    uopRup e u = faultAll e 6 (activeOf e u) .ruQueue := by
  simp only [uopRup, hp]

theorem ruRows_done {before : VeEnv} {act : Nat} {rows : List (RuRes × Nat)} (h : rows.foldl (fun a z => ruRow a act z) (.done e) = .done x) :
    ruRows before e act rows = .done x := by
  rw [ruRows, h]

/-- Rows of which nothing is stored. -/
theorem rows_free {act : Nat} {rows : List (RuRes × Nat)} (free : rows = [] ∨ ((veParm e.v.desc).ruSeg = false ∧ (veParm e.v.desc).rsEn = false)) :
    ∃ x, rows.foldl (fun a z => ruRow a act z) (.done e) = .done x ∧ AfterRows e x rows 0 ∧ x.s.mem = e.s.mem := by
  rcases free with rfl | ⟨seg, rs⟩
  · exact ⟨e, rfl, .nil e, rfl⟩
  · exact rows_noted seg rs

/-- The words of a segment on output stream 3 (R251). -/
def segmentWords (e : VeEnv) (z : RuRes × Nat) : List Nat :=
  if z.1.pair then [z.1.lo, z.1.hi] else if (veParm e.v.desc).ruOp = 5 then [intWord z.1.lo] else [z.1.lo]

theorem segmentWords_length (e : VeEnv) (z : RuRes × Nat) : (segmentWords e z).length = if z.1.pair then 2 else 1 := by
  rw [segmentWords]
  repeat' split
  all_goals rfl

theorem ruRow_segment {act : Nat} {z : RuRes × Nat} (seg : (veParm e.v.desc).ruSeg = true) (rs : (veParm e.v.desc).rsEn = false)
    (room : outRoom e 3 (if z.1.pair then 2 else 1) = true) :
    ruRow (.done e) act z = .done ((segmentWords e z).foldl (fun a w => outPut a 3 (some (w, false))) (rowNoted e z)) := by
  have fits : outRoom (rowNoted e z) 3 (segmentWords e z).length = true := by
    rw [segmentWords_length]
    exact room
  simp only [rowNoted, segmentWords] at fits
  simp only [ruRow, seg, rs, rowNoted, segmentWords, Bool.false_and, Bool.false_eq_true, if_false, if_true, fits]

/-- RUG with the results that it takes. -/
theorem rug_issued (h : Issuable s core.toNat (uopFields 0x23 d a b mod) e) :
    let ug := uopFields 0x23 d a b mod
    let w := rugWidth e ug
    let t := issued e 0x23 (.done { e with c := rugLanes e.c.ru.queue w ug.d { e.c with ru := { e.c.ru with queue := e.c.ru.queue.drop (64 / w) } } (bitList 64 (activeOf e ug)) })
    ∃ e', veEnv t core.toNat = some e' ∧ e'.c.ru = { e.c.ru with queue := e.c.ru.queue.drop (64 / w) } ∧ e'.c.masks = e.c.masks ∧
      e'.v = e.v ∧ t.mem = s.mem ∧
      ∀ i < 64, (laneOn e ug i = false → laneGet e'.c d.toNat i = laneGet e.c d.toNat i) ∧
        ∀ r, e.c.ru.queue[i / w]? = some r → laneOn e ug i = true →
          laneGet e'.c d.toNat i = (r.lo % 2 ^ 32, false) ∧
          (r.pair = true → d.toNat < 63 → laneGet e'.c (d.toNat + 1) i = (r.hi % 2 ^ 32, false)) := by
  intro ug w t
  have sound : CtxSound e.c := ctxSound_env h.sound h.running
  have low : ∀ i ∈ bitList 64 (activeOf e ug), i < 64 := fun i hi => (mem_bitList.mp hi).1
  obtain ⟨env, mem, -⟩ := ctx_issued h 0x23 (rugLanes e.c.ru.queue w ug.d { e.c with ru := { e.c.ru with queue := e.c.ru.queue.drop (64 / w) } } (bitList 64 (activeOf e ug)))
  refine ⟨_, env, rugLanes_ru .., rugLanes_masks .., rfl, mem, fun i hi => ⟨fun off => ?_, fun r hr on => ?_⟩⟩
  · refine rugLanes_other (c := { e.c with ru := { e.c.ru with queue := e.c.ru.queue.drop (64 / w) } }) sound _ w _ _ low hi fun on => ?_
    rw [mem_lanes hi, bit_activeOf] at on
    exact Bool.false_ne_true (off.symm.trans on)
  · have mine : i ∈ bitList 64 (activeOf e ug) := (mem_lanes hi).mpr ((bit_activeOf e ug i).trans on)
    have once : (bitList 64 (activeOf e ug)).Nodup := List.nodup_range.filter _
    have self (r' : Nat) := rugLanes_self (c := { e.c with ru := { e.c.ru with queue := e.c.ru.queue.drop (64 / w) } }) sound e.c.ru.queue w ug.d r' once low mine
    refine ⟨?_, fun pair hd => ?_⟩
    · obtain ⟨y, hy, is⟩ := self ug.d
      exact is.trans (rugLane_low hy hr)
    · obtain ⟨y, hy, is⟩ := self (ug.d + 1)
      exact is.trans (rugLane_high hy hr pair hd)

/-- Settles O41: each of the micro-ops is one write of a mask register or of lanes, or a run over the rows or results of the Reduction Unit. -/
theorem maskAndReductionMicroOps : Obligations.MaskAndReductionMicroOps := by
  refine ⟨fun core d a b mod s e => ⟨fun h => ?nop, fun h => ?cns, fun op hop h => ?compare, fun h => ?kop⟩,
    fun core d a b mod s e => ⟨fun h ru rows hp free => ?push, fun h none => ?full, fun h ru rows hp => ⟨fun seg rs room => ?status, fun seg rs x one len room => ?segment⟩, fun h => ⟨fun enough => ?rug, fun short => ?short⟩⟩⟩
  case nop =>
    obtain ⟨env, mem, other⟩ := ctx_issued h 0x00 e.c
    exact ⟨_, issueCmd_issues (f := uopNop) h rfl, _, ⟨env, rfl, rfl, mem, other⟩, rfl⟩
  case cns => exact ⟨_, issueCmd_issues (f := uopCns) h rfl, cns_issued h⟩
  case compare =>
    rw [List.mem_cons, List.mem_singleton] at hop
    rcases hop with rfl | rfl
    · have dst : (uopFields 0x1D d a b mod).d ≠ 0 := maskDst_ne_zero h.allowed (.inl rfl)
      obtain ⟨v, is, bits⟩ := compare_bits e (uopFields 0x1D d a b mod) (fcmpLane (uopFields 0x1D d a b mod).var)
      refine ⟨_, issueCmd_issues (f := uopFcmp) h rfl, ?_⟩
      rw [uopFcmp, is]
      exact mask_issued h 0x1D v dst bits
    · have dst : (uopFields 0x1E d a b mod).d ≠ 0 := maskDst_ne_zero h.allowed (.inr (.inl rfl))
      obtain ⟨v, is, bits⟩ := compare_bits e (uopFields 0x1E d a b mod) (icmpLane (uopFields 0x1E d a b mod).var)
      refine ⟨_, issueCmd_issues (f := uopIcmp) h rfl, ?_⟩
      rw [uopIcmp, is]
      exact mask_issued h 0x1E v dst bits
  case kop =>
    have dst : (uopFields 0x20 d a b mod).d ≠ 0 := maskDst_ne_zero h.allowed (.inr (.inr rfl))
    exact ⟨_, issueCmd_issues (f := uopKop) h rfl, mask_issued h 0x20 _ dst fun i hi => bit_logicFn (maskGet_lt ..) hi _⟩
  case push =>
    have rise : keysRise e.s.cores = true := issuable_rise h
    obtain ⟨x, run, after, mem⟩ := rows_free (e := pushed e ru) (act := activeOf e (uopFields 0x22 d a b mod)) free
    refine ⟨_, issueCmd_issues (f := uopRup) h rfl, ?_⟩
    obtain ⟨hs, hn⟩ := veEnv_state h.running
    rw [uopRup_some _ _ hp, ruRows_done run]
    refine ⟨_, veEnv_done (after.core.trans hn) (by rw [after.cores]; exact rise) 0x22, after.ctx, ?_, after.run⟩
    exact mem.trans (congrArg State.mem hs)
  case full =>
    refine ⟨_, issueCmd_issues (f := uopRup) h rfl, ?_⟩
    rw [uopRup_none _ _ none]
    exact queue_faulted h 0x22 _
  case status =>
    obtain ⟨hs, hn⟩ := veEnv_state h.running
    have rise : keysRise e.s.cores = true := issuable_rise h
    have wf : Memory.wf e.s.mem = true := hs ▸ h.sound.mem
    obtain ⟨x, run, after, mem⟩ := rows_stored (e := pushed e ru) (act := activeOf e (uopFields 0x22 d a b mod)) wf seg rs room
    have core : (pushed e ru).n = core.toNat := hn
    refine ⟨_, issueCmd_issues (f := uopRup) h rfl, ?_⟩
    rw [uopRup_some _ _ hp, ruRows_done run]
    refine ⟨_, veEnv_done (after.core.trans hn) (by rw [after.cores]; exact rise) 0x22, after.ctx, congrArg VeRun.rsPos after.run, ?_, ?_⟩
    · refine fun y hy => (mem y).trans ?_
      rw [core]
      exact (withRows_outside (hy _ (List.mem_singleton_self _))).trans (congrArg (fun z => memByte (State.mem z) y) hs)
    · refine fun j x hx => (congrArg BitVec.toNat (mem _)).trans ?_
      rw [core]
      exact withRows_row hx
  case segment =>
    subst one
    obtain ⟨hs, hn⟩ := veEnv_state h.running
    have run := ruRow_segment (e := pushed e ru) (act := activeOf e (uopFields 0x22 d a b mod)) (z := x) seg rs room
    have out := outPuts_output (fun w => some (w, false)) (rowNoted (pushed e ru) x) 3 (segmentWords (pushed e ru) x)
    have pos := outPuts_outPos (fun w => some (w, false)) (rowNoted (pushed e ru) x) len (segmentWords (pushed e ru) x)
    have rise : keysRise e.s.cores = true := issuable_rise h
    obtain ⟨m, hm⟩ := out.state
    refine ⟨_, issueCmd_issues (f := uopRup) h rfl, ?_⟩
    rw [uopRup_some _ _ hp, ruRows_done (rows := [x]) run]
    refine ⟨_, veEnv_done (out.core.trans hn) (by rw [hm]; exact rise) 0x22, out.ctx, ?_⟩
    show (List.getD (VeEnv.v _).outPos 3 0) = _
    rw [pos, segmentWords_length, List.getD_eq_getElem?_getD]
    exact congrArg (Option.getD · 0) (List.getElem?_set_self (l := e.v.outPos) len)
  case rug =>
    refine ⟨_, issueCmd_issues (f := uopRug) h rfl, ?_⟩
    rw [uopRug_eq, if_neg (show ¬ _ < 64 / rugWidth e (uopFields 0x23 d a b mod) from not_lt.mpr enough)]
    exact rug_issued h
  case short =>
    refine ⟨_, issueCmd_issues (f := uopRug) h rfl, ?_⟩
    rw [uopRug_eq, if_pos (show _ < 64 / rugWidth e (uopFields 0x23 d a b mod) from short)]
    exact queue_faulted h 0x23 _

end Sys2Proof.Laws
end

section
/-! PROOFS. A scatter also notes its lines (O42). -/

namespace Sys2Proof.Laws

open Sys2Proof Sys2Proof.Machine
set_option Elab.async false

/-! ## A scatter notes its lines (R386) -/

/-- A VE_RUN op on lane 0 alone, whose gather entry 0 holds one int32 element at the start of core 0's store. -/
def scatterRun : VeRun :=
  { tok := { stream := 0, phase := 0, off := 0, len := 1, seed := 0, rotSeed := 0, step := 0, mb := none, layer := 0, ladder := false,
             blinkLog2n := 0, ladderEntry := none },
    idx := 0, desc := 0x18 :: zeroBytes 15 ++ 1 :: zeroBytes 47, prog := [], streams := [],
    gathers := [leBytes 6 0x800000000000 ++ [1, 0, 1] ++ zeroBytes 7], iter := 0, pc := 0, inPos := [0, 0, 0, 0], outPos := [0, 0, 0, 0],
    outBuf := [[], [], [], []], rsPos := 0, scattered := [], nv := false, of := false, infRow := false, maskedRow := false, singular := false,
    hard := none, waiting := false, finished := false }

/-- Core 0 runs the op, its lane registers at reset. -/
def scattering : State := { State.reset with cores := [(0, { Core.idle with ve := some scatterRun })] }

/-- Its environment. -/
def scatterEnv : VeEnv := { s := scattering, n := 0, v := scatterRun, c := VeCtx.zero }

theorem sound_scattering : Sound scattering := sound_of_checks (by decide +kernel) rfl (by decide +kernel) rfl rfl

/-- The lines that the op of core 0 has scattered to. -/
def linesScattered (r : Res) : List Nat :=
  match r with
  | .next t => ((veEnv t 0).map (·.v.scattered)).getD []
  | _ => []

theorem scatter_noted : linesScattered (exec (.sca 0 0 0 0 0) scattering) = [0x20000000000] := by decide +kernel

theorem lane_zero {i : Nat} (hi : i < 64) : laneOn scatterEnv (uopFields 6 0 0 0 0) i = true → i = 0 := by
  revert i
  decide +kernel

/-- Refutes O42: of the op's own state a SCA is said to change its flags alone, and it also notes the lines that it has written. In `scattering`
lane 0 adds to the element of its gather entry, the one active lane. -/
theorem not_streamAndGatherMicroOps : ¬ Obligations.StreamAndGatherMicroOps := by
  unfold Obligations.StreamAndGatherMicroOps
  intro h
  obtain ⟨-, -, sca, -⟩ := h.2 0 0 0 0 0 scattering scatterEnv fun _ => 0x800000000000
  have running : veEnv scattering 0 = some scatterEnv := rfl
  obtain ⟨t, goes, e', env, -, -, sums⟩ := sca ⟨⟨sound_scattering, running, rfl, by decide, by decide +kernel⟩, by decide +kernel⟩ (by decide +kernel)
  have lane (i : Nat) (hit : (decide (i < 64) && laneOn scatterEnv (uopFields 6 0 0 0 0) i && !(laneGet scatterEnv.c 0 i).2) = true) : i = 0 := by
    simp only [Bool.and_eq_true, decide_eq_true_eq] at hit
    exact lane_zero hit.1.1 hit.1.2
  obtain ⟨-, run⟩ := sums (fun i j hi hj _ => (lane i hi).trans (lane j hj).symm) fun i hi => by
    obtain rfl := lane i hi
    decide +kernel
  have noted := scatter_noted
  rw [goes] at noted
  have none : linesScattered (.next t) = [] := by
    rw [linesScattered, show veEnv t 0 = some e' from env]
    exact congrArg VeRun.scattered run
  exact absurd (none.symm.trans noted) (by decide)

end Sys2Proof.Laws
end

section
/-! PROOFS. What a running VE op leaves of its core (R234). -/

namespace Sys2Proof.Laws

open Sys2Proof Sys2Proof.Machine
set_option Elab.async false

variable {s t : State} {e x y : VeEnv} {c : VeCtx} {u : Uop} {n k : Nat}

/-! ## What a running VE op leaves of its core (R234) -/

/-- The cores as a running VE op of core `n` leaves them: nothing of another core, and of its own only that plates have left the front of the
Plate Queue. -/
structure CoresKept (n : Nat) (s t : State) : Prop where
  rise : keysRise t.cores = true
  own : ∃ pq f, pq <:+ (getCore s n).pq ∧ getCore t n = { getCore s n with pq := pq, pqFull := f }
  other : ∀ k, k ≠ n → getCore t k = getCore s k

theorem getCore_of_cores (h : t.cores = s.cores) (k : Nat) : getCore t k = getCore s k := by rw [getCore, h, getCore]

theorem CoresKept.of_cores (rise : keysRise s.cores = true) (h : t.cores = s.cores) : CoresKept n s t :=
  ⟨by rw [h]; exact rise, ⟨_, _, List.suffix_rfl, getCore_of_cores h n⟩, fun k _ => getCore_of_cores h k⟩

theorem CoresKept.refl (rise : keysRise s.cores = true) (n : Nat) : CoresKept n s s := .of_cores rise rfl

theorem CoresKept.trans {s₁ s₂ s₃ : State} (h : CoresKept n s₁ s₂) (k : CoresKept n s₂ s₃) : CoresKept n s₁ s₃ := by
  obtain ⟨-, ⟨p, f, hp, own⟩, other⟩ := h
  obtain ⟨rise, ⟨p', f', hp', own'⟩, other'⟩ := k
  rw [own] at hp' own'
  exact ⟨rise, ⟨p', f', hp'.trans hp, own'⟩, fun j hj => (other' j hj).trans (other j hj)⟩

/-- A running VE op and what it has become. -/
structure RunsOn (e x : VeEnv) : Prop where
  core : x.n = e.n
  list : x.v.tok = e.v.tok ∧ x.v.idx = e.v.idx
  desc : x.v.desc = e.v.desc
  cores : keysRise e.s.cores = true → CoresKept e.n e.s x.s

theorem RunsOn.refl (e : VeEnv) : RunsOn e e := ⟨rfl, ⟨rfl, rfl⟩, rfl, fun rise => .refl rise _⟩

theorem RunsOn.trans (h : RunsOn e x) (k : RunsOn x y) : RunsOn e y := by
  refine ⟨k.core.trans h.core, ⟨k.list.1.trans h.list.1, k.list.2.trans h.list.2⟩, k.desc.trans h.desc, fun rise => ?_⟩
  have first := h.cores rise
  have second := k.cores first.rise
  rw [h.core] at second
  exact first.trans second

/-- A step of the op that changes no core. -/
theorem RunsOn.of_cores (hn : x.n = e.n) (hl : x.v.tok = e.v.tok ∧ x.v.idx = e.v.idx) (hd : x.v.desc = e.v.desc) (hc : x.s.cores = e.s.cores) :
    RunsOn e x := ⟨hn, hl, hd, fun rise => .of_cores rise hc⟩

theorem RunsOn.of_output (h : OnlyOutput e x) : RunsOn e x := by
  obtain ⟨-, hn, ⟨m, hs⟩, ⟨_, _, _, hv⟩⟩ := h
  exact .of_cores hn (by rw [hv]; exact ⟨rfl, rfl⟩) (by rw [hv]) (by rw [hs]; rfl)

theorem RunsOn.foldl {α : Type} {f : VeEnv → α → VeEnv} (h : ∀ e z, RunsOn e (f e z)) (l : List α) (e : VeEnv) : RunsOn e (l.foldl f e) := by
  induction l generalizing e with
  | nil => exact .refl e
  | cons z l ih => exact (h e z).trans (ih _)

/-- The same of an issue. -/
def IssueRunsOn (e : VeEnv) : Issue → Prop
  | .done x => RunsOn e x
  | .wait => True
  | .fault x _ _ _ _ _ => RunsOn e x

theorem laneOp_runsOn {x : VeEnv} (h : RunsOn e x) (r : Nat) (lanes : List Nat) (srcs : Nat → List (Nat × Bool)) (g : Nat → FRes) :
    IssueRunsOn e (laneOp x r lanes srcs g) := ⟨h.core, h.list, h.desc, h.cores⟩

theorem takeVector_runsOn (e : VeEnv) (u : Uop) (k : Nat) (vec : List (Nat × Bool) × Nat) : RunsOn e (takeVector e u k vec) :=
  .of_cores rfl ⟨rfl, rfl⟩ rfl rfl

theorem uopLds_runsOn (e : VeEnv) (u : Uop) : IssueRunsOn e (uopLds e u) := by
  unfold uopLds
  extract_lets k sr pos act
  split
  · split
    · exact .refl e
    · split
      next p rest hq =>
        split
        · split
          · refine ⟨rfl, ⟨rfl, rfl⟩, rfl, fun rise => ⟨keysRise_smSet rise, ⟨rest, 0, ?_, getCore_setCore_self rise⟩, fun k hk => getCore_setCore_other rise hk⟩⟩
            rw [hq]
            exact List.suffix_cons p rest
          · exact takeVector_runsOn ..
        · trivial
      · split
        · trivial
        · exact .refl e
  · split
    · exact .refl e
    · exact takeVector_runsOn ..

theorem uopSts_runsOn (e : VeEnv) (u : Uop) : IssueRunsOn e (uopSts e u) := by
  simp only [uopSts]
  split
  · exact .of_output (outPuts_output ..)
  · exact .refl e

theorem gatherRun_runsOn {act : VeEnv → Nat → Target → VeEnv} {atFault : VeEnv → Nat → VeEnv} (hact : ∀ a i t, RunsOn a (act a i t))
    (hfault : ∀ a i, RunsOn a (atFault a i)) (e : VeEnv) (u : Uop) : IssueRunsOn e (gatherRun e u act atFault) := by
  have taken (ts : List (Nat × Target)) : RunsOn e (ts.foldl (fun a t => act a t.1 t.2) e) := .foldl (fun a t => hact a t.1 t.2) ts e
  simp only [gatherRun]
  split
  · exact (taken _).trans (hfault _ _)
  · exact taken _

theorem write_cores (s : State) (r : Reach) (a : Nat) (bs : Bytes) (p : Bool) : (write s r a bs p).cores = s.cores := by
  rw [write]
  split <;> rfl

theorem uopGth_runsOn (e : VeEnv) (u : Uop) : IssueRunsOn e (uopGth e u) := by
  unfold uopGth
  refine gatherRun_runsOn (fun a i t => ?_) (fun a i => ?_) e u
  · split <;> exact .of_cores rfl ⟨rfl, rfl⟩ rfl rfl
  · exact .of_cores rfl ⟨rfl, rfl⟩ rfl rfl

theorem uopSct_runsOn (e : VeEnv) (u : Uop) : IssueRunsOn e (uopSct e u) := by
  unfold uopSct
  refine gatherRun_runsOn (fun a i t => ?_) (fun a i => .refl a) e u
  split
  · exact .of_cores rfl ⟨rfl, rfl⟩ rfl (write_cores ..)
  · exact .refl a

theorem uopSca_runsOn (e : VeEnv) (u : Uop) : IssueRunsOn e (uopSca e u) := by
  unfold uopSca
  refine gatherRun_runsOn (fun a i t => ?_) (fun a i => .refl a) e u
  split
  · exact .of_cores rfl ⟨rfl, rfl⟩ rfl (write_cores ..)
  · exact .refl a

theorem rowNoted_runsOn (e : VeEnv) (z : RuRes × Nat) : RunsOn e (rowNoted e z) := .of_cores rfl ⟨rfl, rfl⟩ rfl rfl

theorem rowStored_runsOn (e : VeEnv) (z : RuRes × Nat) : RunsOn e (rowStored e z) := .of_cores rfl ⟨rfl, rfl⟩ rfl (coreWrite_cores ..)

/-- A completed row with its status byte, where it has one. -/
def rowKept (e : VeEnv) (z : RuRes × Nat) : VeEnv := if (veParm e.v.desc).rsEn then rowStored e z else rowNoted e z

theorem ruRow_done (e : VeEnv) (act : Nat) (z : RuRes × Nat) : ruRow (.done e) act z =
    if (veParm e.v.desc).rsEn && decide ((veParm e.v.desc).rsBase + e.v.rsPos ≥ coreStoreLen) then faultAll (rowNoted e z) 3 act .storeRange
    else if (veParm e.v.desc).ruSeg then
      if outRoom (rowKept e z) 3 (segmentWords e z).length then
        .done ((segmentWords e z).foldl (fun a w => outPut a 3 (some (w, false))) (rowKept e z))
      else faultAll (rowKept e z) 4 act .streamEnd
    else .done (rowKept e z) := rfl

theorem ruRow_runsOn {i : Issue} (h : IssueRunsOn e i) (act : Nat) (z : RuRes × Nat) : IssueRunsOn e (ruRow i act z) := by
  cases i with
  | wait => exact h
  | fault => exact h
  | done x =>
    have noted : RunsOn e (rowNoted x z) := RunsOn.trans h (rowNoted_runsOn x z)
    have kept : RunsOn e (rowKept x z) := by
      rw [rowKept]
      split
      · exact RunsOn.trans h (rowStored_runsOn x z)
      · exact noted
    rw [ruRow_done]
    split
    · exact noted
    · split
      · split
        · exact kept.trans (.of_output (outPuts_output ..))
        · exact kept
      · exact kept

theorem ruRows_runsOn {before x : VeEnv} (hb : RunsOn e before) (hx : RunsOn e x) (act : Nat) (rows : List (RuRes × Nat)) :
    IssueRunsOn e (ruRows before x act rows) := by
  have all : IssueRunsOn e (rows.foldl (fun a z => ruRow a act z) (.done x)) :=
    List.foldlRecOn (motive := IssueRunsOn e) rows _ hx fun _ h z _ => ruRow_runsOn h act z
  rw [ruRows]
  split
  · exact hb
  · exact all

theorem uopRup_runsOn (e : VeEnv) (u : Uop) : IssueRunsOn e (uopRup e u) := by
  simp only [uopRup]
  split
  · exact .refl e
  · refine ruRows_runsOn (.refl e) ?_ ..
    exact .of_cores rfl ⟨rfl, rfl⟩ rfl rfl

theorem uopRug_runsOn (e : VeEnv) (u : Uop) : IssueRunsOn e (uopRug e u) := by
  rw [uopRug_eq]
  split
  · exact .refl e
  · exact .of_cores rfl ⟨rfl, rfl⟩ rfl rfl

theorem binary_or_unary_runsOn {p : Prop} [Decidable p] {i j : Issue} (hi : IssueRunsOn e i) (hj : IssueRunsOn e j) : IssueRunsOn e (if p then i else j) := by
  split
  · exact hi
  · exact hj

theorem uopSmn_runsOn (e : VeEnv) (u : Uop) : IssueRunsOn e (uopSmn e u) := by
  rw [uopSmn_eq]
  have start : RunsOn e (withFree e (smnCount e u)) := .of_cores rfl ⟨rfl, rfl⟩ rfl rfl
  exact laneOp_runsOn start ..

/-- A micro-op leaves the list of its op, and the cores but for the plates that it takes. -/
theorem uopIssue_runsOn (e : VeEnv) (u : Uop) : IssueRunsOn e (uopIssue e u) := by
  simp only [uopIssue]
  split
  case h_1 => exact .refl e
  case h_3 => exact .of_cores rfl ⟨rfl, rfl⟩ rfl rfl
  case h_5 => exact uopLds_runsOn e u
  case h_6 => exact uopSts_runsOn e u
  case h_7 => exact uopGth_runsOn e u
  case h_8 => exact uopSct_runsOn e u
  case h_9 => exact uopSca_runsOn e u
  case h_15 => exact binary_or_unary_runsOn (laneOp_runsOn (.refl e) ..) (laneOp_runsOn (.refl e) ..)
  case h_23 => exact binary_or_unary_runsOn (laneOp_runsOn (.refl e) ..) (laneOp_runsOn (.refl e) ..)
  case h_30 => exact .of_cores rfl ⟨rfl, rfl⟩ rfl rfl
  case h_31 => exact .of_cores rfl ⟨rfl, rfl⟩ rfl rfl
  case h_33 => exact .of_cores rfl ⟨rfl, rfl⟩ rfl rfl
  case h_35 => exact uopRup_runsOn e u
  case h_36 => exact uopRug_runsOn e u
  case h_37 => exact uopSmn_runsOn e u
  case h_41 => exact .refl e
  all_goals exact laneOp_runsOn (.refl e) ..

theorem veFault_runsOn (e : VeEnv) (op k l m addr : Nat) (st : Status) : RunsOn e (veFault e op k l m addr st) :=
  .of_cores rfl ⟨rfl, rfl⟩ rfl (veFault_cores ..)

/-- The same of the places of the program. -/
theorem RunsOn.moved (h : RunsOn e x) {v : VeRun} (hl : v.tok = x.v.tok ∧ v.idx = x.v.idx) (hd : v.desc = x.v.desc) : RunsOn e { x with v } :=
  h.trans (.of_cores rfl hl hd rfl)

theorem flushAll_runsOn (e : VeEnv) : RunsOn e (flushAll e) := by
  refine List.foldlRecOn (motive := RunsOn e) _ _ (.refl e) fun a ha k _ => ?_
  exact List.foldlRecOn (motive := RunsOn e) _ _ ha fun x hx z _ => hx.trans (.of_output (flushBlock_output ..))

theorem veEnd_runsOn (e : VeEnv) : RunsOn e (veEnd e) := by
  unfold veEnd
  extract_lets fin
  have ends (x : VeEnv) (h : RunsOn e x) : RunsOn e (fin x) := by
    have flushed : RunsOn x (flushAll x) := flushAll_runsOn x
    simp only [fin]
    generalize flushAll x = y at flushed ⊢
    exact (h.trans flushed).moved ⟨rfl, rfl⟩ rfl
  split
  · split
    next r _ =>
      have closed : RunsOn e { e with c := { e.c with ru := { e.c.ru with open_ := none } } } := .of_cores rfl ⟨rfl, rfl⟩ rfl rfl
      have rows := ruRows_runsOn closed closed (envMask e) [ruResult e.c.ru.op r (envEps e)]
      split
      next x hx =>
        rw [hx] at rows
        exact ends x rows
      next hx =>
        rw [hx] at rows
        exact RunsOn.trans rows (veFault_runsOn ..)
      · exact ends _ closed
    · exact ends e (.refl e)
  · exact ends e (.refl e)

theorem veLoop_runsOn (fuel : Nat) (e : VeEnv) : RunsOn e (veLoop fuel e) := by
  induction fuel generalizing e with
  | zero => exact .refl e
  | succ fuel ih =>
    have issued := uopIssue_runsOn e (uopOf (e.v.prog.getD e.v.pc 0))
    simp only [veLoop]
    split
    · exact (RunsOn.refl e).moved ⟨rfl, rfl⟩ rfl
    · split
      · exact (RunsOn.refl e).moved ⟨rfl, rfl⟩ rfl
      next hx =>
        rw [hx] at issued
        exact RunsOn.trans issued (veFault_runsOn ..)
      next x hx =>
        rw [hx] at issued
        split
        · refine RunsOn.trans ?_ (ih _)
          exact RunsOn.moved issued ⟨rfl, rfl⟩ rfl
        · split
          · refine RunsOn.trans ?_ (ih _)
            exact RunsOn.moved issued ⟨rfl, rfl⟩ rfl
          · refine RunsOn.trans ?_ (veEnd_runsOn _)
            exact RunsOn.moved issued ⟨rfl, rfl⟩ rfl

/-! ## The command that lets it go on -/

/-- The core of a VE op that has gone on as far as it can. -/
structure VeGone (n : Nat) (s t : State) : Prop where
  rise : keysRise t.cores = true
  own : ∃ pq f v c0 c1, pq <:+ (getCore s n).pq ∧ getCore t n = { getCore s n with pq := pq, pqFull := f, ve := v, ctx0 := c0, ctx1 := c1 } ∧
    v.map (fun r => (r.tok, r.idx, r.desc)) = (getCore s n).ve.map (fun r => (r.tok, r.idx, r.desc))
  other : ∀ k, k ≠ n → getCore t k = getCore s k

theorem VeGone.refl (rise : keysRise s.cores = true) (n : Nat) : VeGone n s s :=
  ⟨rise, ⟨_, _, _, _, _, List.suffix_rfl, rfl, rfl⟩, fun _ _ => rfl⟩

theorem ctxSet_parts (co : Core) (k : Nat) (z : VeCtx) : ∃ c0 c1, ctxSet co k z = { co with ctx0 := c0, ctx1 := c1 } := by
  rw [ctxSet]
  split
  · exact ⟨_, _, rfl⟩
  · exact ⟨_, _, rfl⟩

theorem veEnv_run (h : veEnv s n = some e) : (getCore s n).ve = some e.v := by
  simp only [veEnv, Option.map_eq_some_iff] at h
  obtain ⟨v, hv, rfl⟩ := h
  exact hv

/-- An op that has run on is put back. -/
theorem veBack_gone (rise : keysRise s.cores = true) (h : veEnv s n = some e) (runs : RunsOn e x) : VeGone n s (veBack x) := by
  obtain ⟨rfl, rfl⟩ := veEnv_state h
  obtain ⟨hn, ⟨tok, idx⟩, desc, cores⟩ := runs
  obtain ⟨rise', ⟨pq, f, hpq, own⟩, other⟩ := cores rise
  obtain ⟨c0, c1, put⟩ := ctxSet_parts { getCore x.s x.n with ve := some x.v } (veParm x.v.desc).ctx x.c
  refine ⟨keysRise_smSet rise', ⟨pq, f, some x.v, c0, c1, hpq, ?_, ?_⟩, fun k hk => (veBack_other rise' (hn ▸ hk)).trans (other k hk)⟩
  · have self : getCore (veBack x) e.n = ctxSet { getCore x.s x.n with ve := some x.v } (veParm x.v.desc).ctx x.c := by
      rw [← hn]
      exact getCore_setCore_self rise'
    rw [self, put, hn, own]
  · rw [veEnv_run h, Option.map_some, Option.map_some, tok, idx, desc]

theorem veGo_gone (rise : keysRise s.cores = true) (n : Nat) : VeGone n s (veGo s n) := by
  rw [veGo]
  split
  · exact .refl rise n
  next e he =>
    dsimp only
    split
    · exact .refl rise n
    · exact veBack_gone rise he (veLoop_runsOn _ e)

theorem veRecheck_gone (rise : keysRise s.cores = true) (n : Nat) : VeGone n s (veRecheck s n) := by
  rw [veRecheck]
  split
  · exact veGo_gone rise n
  · exact .refl rise n

theorem veRecheck_still (still : (getCore s n).ve.any (·.waiting) = false) : veRecheck s n = s := by
  rw [veRecheck, still]
  rfl

end Sys2Proof.Laws
end

section
/-! PROOFS. LPA ops start or are rejected (O43). -/

namespace Sys2Proof.Laws

open Sys2Proof Sys2Proof.Machine
set_option Elab.async false

variable {s t : State} {n : Nat} {o : NextOp} {tok : Token}

/-! ## The op that may start (R388) -/

/-- The next op of a core is an op of its active list. -/
theorem activeList_of_nextOp (h : nextOp s n = some o) : activeList (getCore s n) = some (o.tok, o.idx) := by
  rw [nextOp] at h
  split at h
  next => exact absurd h (by simp)
  next t i ha =>
    split at h
    next => rw [ha]; exact Option.some.inj h ▸ rfl
    next => exact absurd h (by simp)

theorem startable_parts {op : Nat} {free : Core → Bool} (h : startable s n op free = some o) :
    nextOp s n = some o ∧ free (getCore s n) = true ∧ mayStart s n o = true := by
  rw [startable] at h
  split at h
  next => exact absurd h (by simp)
  next o' hn =>
    split at h
    next hc =>
      obtain rfl := Option.some.inj h
      obtain ⟨⟨-, hf⟩, hm⟩ : (_ ∧ free (getCore s n) = true) ∧ _ := by simpa only [Bool.and_eq_true] using hc
      exact ⟨hn, hf, hm⟩
    next => exact absurd h (by simp)

/-- A core whose active list has moved on by `k` ops, with units that still belong to it, has that list active. -/
theorem activeList_moved {c d : Core} {i k : Nat} (h : activeList c = some (tok, i)) (hk : 0 < k)
    (lists : (d.svcTokens, d.tokens, d.preempt) = (c.svcTokens, c.tokens, c.preempt))
    (places : (d.next, d.svcNext) = ((advanceList c k).next, (advanceList c k).svcNext))
    (hu : unitsOf c tok = true → unitsOf d tok = true) : activeList d = some (tok, i + k) := by
  obtain ⟨svc, toks, pre⟩ : d.svcTokens = c.svcTokens ∧ d.tokens = c.tokens ∧ d.preempt = c.preempt := by simpa using lists
  obtain ⟨next, svcNext⟩ : d.next = (advanceList c k).next ∧ d.svcNext = (advanceList c k).svcNext := by simpa using places
  rw [activeList] at h ⊢
  rw [svc, toks, pre, next, svcNext]
  cases hs : c.svcTokens with
  | cons a as =>
    rw [advanceList, hs, if_neg (by simp)]
    rw [hs] at h
    dsimp only at h ⊢
    split at h
    next units =>
      obtain ⟨rfl, rfl⟩ : a = tok ∧ c.svcNext = i := by simpa using h
      rw [if_pos]
      have moved : (c.svcNext + k != 0) = true := by simpa using fun _ => Nat.pos_iff_ne_zero.1 hk
      rw [hu (Bool.and_eq_true_iff.1 units).1, moved]
      rfl
    next => exact absurd h (by simp)
  | nil =>
    rw [advanceList, hs, if_pos (by simp)]
    rw [hs] at h
    dsimp only at h ⊢
    split at h
    next => exact absurd h (by simp)
    next idle =>
      rw [if_neg idle]
      cases ht : c.tokens with
      | nil => rw [ht] at h; exact absurd h (by simp)
      | cons a as =>
        rw [ht] at h
        obtain ⟨rfl, rfl⟩ : a = tok ∧ c.next = i := by simpa using h
        rfl

/-! ## The start of an op or group (R127, R131, R138) -/

/-- The run of a group with the first tiles that the look-ahead has loaded for it. -/
def lookedAhead (run : LpaRun) (ahead : Option LpaRun) : LpaRun :=
  match ahead with
  | some x => if x.members == run.members && x.tok == run.tok then { run with tiles := x.tiles, weights := x.weights } else run
  | none => run

/-- The core on which an LPA op has started, its list `k` ops further. -/
def lpaCore (c : Core) (k : Nat) (r : LpaRun) : Core := { advanceList c k with noProg := 0, lpaNext := none, lpa := some r }

/-- The run that a start leaves in the arrays. -/
def startRun (s : State) (n : Nat) (o : NextOp) (ds : List Bytes) : LpaRun :=
  loadInits (passOps s n ds.length) n (lookedAhead (newRun s n o ds) (getCore s n).lpaNext)

theorem getCore_startLpa (rise : keysRise s.cores = true) (o : NextOp) (ds : List Bytes) :
    getCore (startLpa s n o ds) n = lpaCore (getCore s n) ds.length (startRun s n o ds) := by
  show getCore (setCore (passOps s n ds.length) n { getCore (passOps s n ds.length) n with lpa := some (startRun s n o ds) }) n = _
  rw [getCore_setCore_self (passOps_cores_rise rise _), getCore_passOps rise]
  rfl

theorem getCore_startLpa_other (rise : keysRise s.cores = true) (o : NextOp) (ds : List Bytes) {k : Nat} (hk : k ≠ n) :
    getCore (startLpa s n o ds) k = getCore s k := by
  show getCore (setCore (passOps s n ds.length) n _) k = _
  rw [getCore_setCore_other (passOps_cores_rise rise _) hk]
  exact getCore_setCore_other (s := touchCluster s (n / 64)) rise hk

theorem startLpa_cores_rise (rise : keysRise s.cores = true) (o : NextOp) (ds : List Bytes) : keysRise (startLpa s n o ds).cores = true :=
  keysRise_smSet (passOps_cores_rise rise _)

theorem lookedAhead_parts (run : LpaRun) (ahead : Option LpaRun) : ∃ tiles weights,
    lookedAhead run ahead = { run with tiles := tiles, weights := weights } := by
  cases ahead with
  | none => exact ⟨_, _, rfl⟩
  | some x =>
    rw [lookedAhead]
    split
    · exact ⟨_, _, rfl⟩
    · exact ⟨_, _, rfl⟩

theorem newRun_descs (s : State) (n : Nat) (o : NextOp) (ds : List Bytes) : (newRun s n o ds).members.map (·.desc) = ds := by
  show (ds.zipIdx.map _).map _ = ds
  rw [List.map_map]
  exact List.zipIdx_map_fst 0 ds

/-- What the started run is: the op's descriptors before the first row block, with the tiles of the look-ahead. -/
theorem startRun_parts (s : State) (n : Nat) (o : NextOp) (ds : List Bytes) :
    (startRun s n o ds).tok = o.tok ∧ (startRun s n o ds).members = (newRun s n o ds).members ∧
      (startRun s n o ds).mb = 0 ∧ (startRun s n o ds).banks = [] ∧
      (startRun s n o ds).weights = (lookedAhead (newRun s n o ds) (getCore s n).lpaNext).weights ∧
      (startRun s n o ds).tiles = (lookedAhead (newRun s n o ds) (getCore s n).lpaNext).tiles := by
  obtain ⟨tiles, weights, run⟩ := lookedAhead_parts (newRun s n o ds) (getCore s n).lpaNext
  rw [startRun, run]
  exact ⟨rfl, rfl, rfl, rfl, rfl, rfl⟩

theorem newRun_tiles (s : State) (n : Nat) (o : NextOp) (ds : List Bytes) (j : Nat) : (newRun s n o ds).tiles.getD j 0 = 0 := by
  show ([0, 0, 0, 0] : List Nat).getD j 0 = 0
  match j with
  | 0 | 1 | 2 | 3 => rfl
  | _ + 4 => rfl

/-- R131: the first tiles that were loaded for this op count; those of another one do not. -/
theorem startRun_ahead {x : LpaRun} (s : State) (n : Nat) (o : NextOp) (ds : List Bytes) (h : (getCore s n).lpaNext = some x) :
    if x.members = (startRun s n o ds).members ∧ x.tok = (startRun s n o ds).tok then
      (startRun s n o ds).weights = x.weights ∧ (startRun s n o ds).tiles = x.tiles
    else (startRun s n o ds).weights = [] ∧ ∀ j, (startRun s n o ds).tiles.getD j 0 = 0 := by
  obtain ⟨tok, members, -, -, weights, tiles⟩ := startRun_parts s n o ds
  rw [members, tok, weights, tiles, h, lookedAhead]
  have list : (newRun s n o ds).tok = o.tok := rfl
  split
  next same =>
    rw [if_pos (by rw [same.1, same.2, list]; simp)]
    exact ⟨rfl, rfl⟩
  next other =>
    rw [if_neg (by rw [list]; simpa using other)]
    exact ⟨rfl, newRun_tiles s n o ds⟩

theorem startRun_alone (s : State) (n : Nat) (o : NextOp) (ds : List Bytes) (h : (getCore s n).lpaNext = none) :
    (startRun s n o ds).weights = [] ∧ ∀ j, (startRun s n o ds).tiles.getD j 0 = 0 := by
  obtain ⟨-, -, -, -, weights, tiles⟩ := startRun_parts s n o ds
  rw [weights, tiles, h]
  exact ⟨rfl, newRun_tiles s n o ds⟩

/-- The stream of the VE op is that of its token. -/
theorem ve_stream_same {v w : Option VeRun} (h : v.map (fun r => (r.tok, r.idx, r.desc)) = w.map (fun r => (r.tok, r.idx, r.desc))) :
    v.map (·.tok.stream) = w.map (·.tok.stream) := by
  have := congrArg (Option.map fun z : Token × Nat × Bytes => z.1.stream) h
  rw [Option.map_map, Option.map_map] at this
  exact this

theorem unitsOf_iff (c : Core) (t : Token) : unitsOf c t =
    ((c.lpa.map (·.tok.stream)).all (· == t.stream) && (c.ve.map (·.tok.stream)).all (· == t.stream) &&
      (c.coe.map (·.tok.stream)).all (· == t.stream) && (c.dma.map (·.tok.stream)).all (· == t.stream) &&
      (c.ccm.map (·.tok.stream)).all (· == t.stream)) := by
  rw [unitsOf]
  cases c.lpa <;> cases c.ve <;> cases c.coe <;> cases c.dma <;> cases c.ccm <;> rfl

theorem advanceList_units (c : Core) (k : Nat) : (advanceList c k).svcTokens = c.svcTokens ∧ (advanceList c k).tokens = c.tokens ∧
    (advanceList c k).preempt = c.preempt ∧ (advanceList c k).ve = c.ve ∧ (advanceList c k).coe = c.coe ∧ (advanceList c k).dma = c.dma ∧
    (advanceList c k).ccm = c.ccm := by
  rw [advanceList]
  split <;> exact ⟨rfl, rfl, rfl, rfl, rfl, rfl, rfl⟩

/-! ## An op or group that is rejected (R126, R138) -/

theorem units_lpa {c d : Core} (h : units c = units d) : c.lpa = d.lpa := by
  show (units c).lpa = (units d).lpa
  rw [h]

theorem units_ve {c d : Core} (h : units c = units d) : c.ve = d.ve := by
  show (units c).ve = (units d).ve
  rw [h]

theorem finishOp_cores_rise (rise : keysRise s.cores = true) (tok : Token) (d : Bytes) (st : Status) :
    keysRise (finishOp s n tok d st).cores = true := by
  have same : (noteStatus (signal (touchCluster s (n / 64)) tok.stream d) tok.stream tok.phase st).cores = s.cores := cores_eq (by simp)
  have svc := units_retireSvc (n := n) (s := noteStatus (signal (touchCluster s (n / 64)) tok.stream d) tok.stream tok.phase st)
    (by rw [same]; exact rise)
  rw [finishOp]
  generalize noteStatus (signal (touchCluster s (n / 64)) tok.stream d) tok.stream tok.phase st = u at svc ⊢
  dsimp only [retireList]
  split
  · split
    · exact keysRise_smSet svc.2
    · exact svc.2
  · exact svc.2

/-- The core and memory that a run of ops that end as rejected leave. -/
structure OpsRejected (n : Nat) (s t : State) : Prop where
  rise : keysRise t.cores = true
  lpa : (getCore t n).lpa = (getCore s n).lpa
  ve : (getCore t n).ve = (getCore s n).ve
  mem : t.mem = s.mem

theorem OpsRejected.finishOp (h : OpsRejected n s t) (tok : Token) (d : Bytes) (st : Status) : OpsRejected n s (finishOp t n tok d st) := by
  have same := units_finishOp h.rise (n := n) tok d st
  exact ⟨finishOp_cores_rise h.rise tok d st, (units_lpa same).trans h.lpa, (units_ve same).trans h.ve,
    (finishOp_mem ..).trans h.mem⟩

theorem passOps_rejected (rise : keysRise s.cores = true) (k : Nat) : OpsRejected n s (passOps s n k) := by
  have core := getCore_passOps (n := n) rise k
  refine ⟨passOps_cores_rise rise k, ?_, ?_, rfl⟩
  · rw [core, advanceList]
    split <;> rfl
  · rw [core, advanceList]
    split <;> rfl

theorem rejectGroup_rejected (rise : keysRise s.cores = true) (o : NextOp) (ds : List Bytes) (st : Status) :
    OpsRejected n s (rejectGroup s n o ds st) :=
  List.foldlRecOn (motive := OpsRejected n s) ds _ (passOps_rejected rise _) fun _ h d _ => h.finishOp o.tok d st

/-! ## The outcomes of LPA_MATMUL and of a group -/

section Outcomes

variable (hs : Sound s) (hst : startable s n 0x10 (fun c => c.lpa.isNone) = some o)

include hs hst

omit hs in
theorem lpa_free : (getCore s n).lpa = none := Option.isNone_iff_eq_none.1 (startable_parts hst).2.1

/-- The state after an op or group has started, and what of it the VE op that goes on with it leaves. -/
theorem startLpa_gives {ds : List Bytes} (hd : 0 < ds.length) :
    ((getCore s n).ve.any (·.waiting) = false → (veRecheck (startLpa s n o ds) n).mem = s.mem) ∧
      activeList (getCore (veRecheck (startLpa s n o ds) n) n) = some (o.tok, o.idx + ds.length) ∧
      (getCore (veRecheck (startLpa s n o ds) n) n).lpa = some (startRun s n o ds) ∧
      (getCore (veRecheck (startLpa s n o ds) n) n).lpaNext = none ∧
      ∀ k, k ≠ n → getCore (veRecheck (startLpa s n o ds) n) k = getCore s k := by
  have core := getCore_startLpa hs.cores (n := n) o ds
  obtain ⟨svc, toks, pre, ve, coe, dma, ccm⟩ := advanceList_units (getCore s n) ds.length
  obtain ⟨-, ⟨pq, f, v, c0, c1, -, own, veSame⟩, other⟩ := veRecheck_gone (startLpa_cores_rise hs.cores (n := n) o ds) n
  rw [core] at own veSame
  refine ⟨fun still => ?_, ?_, by rw [own]; rfl, by rw [own]; rfl, fun k hk => (other k hk).trans (getCore_startLpa_other hs.cores o ds hk)⟩
  · rw [veRecheck_still (by rw [core, ← still]; exact congrArg (fun z : Option VeRun => z.any (·.waiting)) ve)]
    rfl
  · have active := activeList_of_nextOp (startable_parts hst).1
    rw [own]
    refine activeList_moved active hd ?_ rfl fun hu => ?_
    · show ((advanceList (getCore s n) ds.length).svcTokens, _, _) = _
      rw [← svc, ← toks, ← pre]
      rfl
    · rw [unitsOf_iff] at hu ⊢
      have stream := ve_stream_same veSame
      have run := (startRun_parts s n o ds).1
      simp only [Bool.and_eq_true] at hu ⊢
      obtain ⟨⟨⟨⟨-, hve⟩, hcoe⟩, hdma⟩, hccm⟩ := hu
      refine ⟨⟨⟨⟨?_, ?_⟩, ?_⟩, ?_⟩, ?_⟩
      · show ((some (startRun s n o ds)).map (·.tok.stream)).all (· == o.tok.stream) = true
        rw [Option.map_some, run]
        exact beq_self_eq_true _
      · show (v.map (·.tok.stream)).all _ = true
        rw [stream]
        show ((advanceList (getCore s n) ds.length).ve.map _).all _ = true
        rw [ve]
        exact hve
      · show ((advanceList (getCore s n) ds.length).coe.map _).all _ = true
        rw [coe]
        exact hcoe
      · show ((advanceList (getCore s n) ds.length).dma.map _).all _ = true
        rw [dma]
        exact hdma
      · show ((advanceList (getCore s n) ds.length).ccm.map _).all _ = true
        rw [ccm]
        exact hccm

theorem rejectGroup_gives (ds : List Bytes) (st : Status) :
    (getCore (veRecheck (rejectGroup s n o ds st) n) n).lpa = none ∧
      ((getCore s n).ve.any (·.waiting) = false → (veRecheck (rejectGroup s n o ds st) n).mem = s.mem) := by
  have gone := rejectGroup_rejected hs.cores (n := n) o ds st
  obtain ⟨-, ⟨pq, f, v, c0, c1, -, own, -⟩, -⟩ := veRecheck_gone gone.rise n
  refine ⟨?_, fun still => ?_⟩
  · rw [own]
    exact gone.lpa.trans (lpa_free hst)
  · rw [veRecheck_still (by rw [gone.ve]; exact still)]
    exact gone.mem

end Outcomes

/-! ## Plans -/

/-- The plan of a standalone op, in the order of the checks of R126. -/
theorem lpaPlan_single (h : (lpaParm o.desc).groupPos = 0) : lpaPlan s n o =
    { ds := [o.desc], held := false,
      fail := firstFail
        [failIf (!(reservedZero o.desc lpaFields)) .badReserved,
         failIf (!(ctrCheck s o.tok.stream (opHdr o.desc))) .badField,
         failIf ((lpaParm o.desc).arrays == 3 || (lpaParm o.desc).colgrp != 0 ||
           decide ((lpaParm o.desc).n > 32 * (activeArrays (lpaParm o.desc).arrays).length)) .badField,
         lpaCheck s n o.tok (lpaParm o.desc) (lpaParm o.desc).k] } := by
  rw [lpaPlan, if_pos h]

/-- A place in a group other than the first fails. -/
theorem lpaPlan_stray (h : 1 < (lpaParm o.desc).groupPos) : lpaPlan s n o = { ds := [o.desc], held := false, fail := some .badField } := by
  rw [lpaPlan, if_neg (by omega), if_pos (by omega)]

/-- The descriptors of the group that begins at `o`, its members, and its largest K. -/
def groupDescs (s : State) (n : Nat) (o : NextOp) : List Bytes × Bool :=
  (o.desc :: (groupOps s n o.tok (o.idx + 1) (o.tok.len - o.idx)).1, (groupOps s n o.tok (o.idx + 1) (o.tok.len - o.idx)).2)

/-- Whether the wait of a member's descriptor holds it. -/
def memberHeld (s : State) (id : Nat) (d : Bytes) : Bool :=
  (opHdr d).waitEn && ctrInRange s id (opHdr d).waitCtr && waitHolds s (opHdr d).waitCtr (opHdr d).waitVal

/-- Whether a member of the group that begins at `o` is held by its wait. -/
def groupHeld (s : State) (n : Nat) (o : NextOp) : Bool := (groupDescs s n o).1.any (memberHeld s o.tok.stream)

/-- The checks of the group that begins at `o` (R138). -/
def groupCheck (s : State) (n : Nat) (o : NextOp) : Check :=
  let ds := (groupDescs s n o).1
  let ps := ds.map (fun d => memberParm (lpaParm o.desc) (lpaParm d))
  firstFail
    ([failIf (ds.any (fun d => !(reservedZero d lpaFields))) .badReserved,
      failIf (ds.any (fun d => !(ctrCheck s o.tok.stream (opHdr d)))) .badField, failIf (groupBad ps (groupDescs s n o).2) .badField] ++
     ps.map (fun q => lpaCheck s n o.tok q (ps.foldl (fun m x => max m x.k) 0)))

/-- The plan of a group from its first place. -/
theorem lpaPlan_group (h : (lpaParm o.desc).groupPos = 1) :
    lpaPlan s n o = { ds := (groupDescs s n o).1, held := groupHeld s n o, fail := groupCheck s n o } := by
  have held (l : List Bytes) : (!l.all fun d => !(opHdr d).waitEn || !ctrInRange s o.tok.stream (opHdr d).waitCtr ||
      !(waitHolds s (opHdr d).waitCtr (opHdr d).waitVal)) = l.any (memberHeld s o.tok.stream) := by
    rw [List.not_all_eq_any_not]
    refine congrArg l.any (funext fun d => ?_)
    simp only [memberHeld, Bool.not_or, Bool.not_not]
  have counters (l : List Bytes) : (!l.all fun d => ctrCheck s o.tok.stream (opHdr d)) =
      l.any fun d => !(ctrCheck s o.tok.stream (opHdr d)) := List.not_all_eq_any_not ..
  rw [lpaPlan, if_neg (by omega), if_neg (by omega)]
  dsimp only
  rw [held, counters]
  rfl

section Plans

variable (hst : startable s n 0x10 (fun c => c.lpa.isNone) = some o)

include hst

theorem beginLpa_single (h : (lpaParm o.desc).groupPos = 0) : beginLpa n s = runPlan s n o (lpaPlan s n o) := by
  rw [beginLpa, hst]
  exact if_pos h

theorem beginLpa_group (h : (lpaParm o.desc).groupPos ≠ 0) : beginLpa n s = s := by
  rw [beginLpa, hst]
  exact if_neg h

theorem beginGroup_single (h : (lpaParm o.desc).groupPos = 0) : beginGroup n s = s := by
  rw [beginGroup, hst]
  exact if_pos h

theorem beginGroup_group (h : (lpaParm o.desc).groupPos ≠ 0) : beginGroup n s = runPlan s n o (lpaPlan s n o) := by
  rw [beginGroup, hst]
  exact if_neg h

end Plans

theorem runPlan_starts {ds : List Bytes} : runPlan s n o { ds := ds, held := false, fail := none } = startLpa s n o ds := rfl

theorem runPlan_rejects {ds : List Bytes} {st : Status} :
    runPlan s n o { ds := ds, held := false, fail := some st } = rejectGroup s n o ds st := rfl

theorem runPlan_held {ds : List Bytes} {f : Check} : runPlan s n o { ds := ds, held := true, fail := f } = s := rfl

theorem lpaMatmul_exec (core : CoreId) (s : State) :
    exec (.lpaMatmul core) s = .next (veRecheck (beginLpa core.toNat s) core.toNat) := rfl

theorem coResidentGroup_exec (core : CoreId) (s : State) :
    exec (.coResidentGroup core) s = .next (veRecheck (beginGroup core.toNat s) core.toNat) := rfl

/-- Settles O43. -/
theorem lpaOpsStart : Obligations.LpaOpsStart := by
  unfold Obligations.LpaOpsStart
  intro core s o hs hst n p still started refused single
  have starts (ds : List Bytes) (hd : 0 < ds.length) : started (veRecheck (startLpa s n o ds) n) ds := by
    obtain ⟨mem, active, lpa, next, other⟩ := startLpa_gives hs hst hd
    obtain ⟨tok, members, mb, banks, -, -⟩ := startRun_parts s n o ds
    exact ⟨mem, active, _, lpa, tok, by rw [members]; exact newRun_descs s n o ds, mb, banks, startRun_alone s n o ds,
      fun x => startRun_ahead s n o ds, next, other⟩
  have refuses (ds : List Bytes) (st : Status) : refused (veRecheck (rejectGroup s n o ds st) n) := rejectGroup_gives hs hst ds st
  refine ⟨fun h0 hc => ⟨_, ?_, starts [o.desc] (by simp)⟩, fun st h0 hc => ⟨_, ?_, refuses [o.desc] st⟩, fun h hstill => ⟨s, ?_, rfl⟩,
    fun h hstill => ⟨s, ?_, rfl⟩, fun h => ⟨_, ?_, refuses [o.desc] .badField⟩, fun h1 => ⟨fun held hc => ⟨_, ?_, starts (groupDescs s n o).1 (by simp [groupDescs])⟩,
      fun st held hc => ⟨_, ?_, refuses (groupDescs s n o).1 st⟩, fun held hstill => ⟨s, ?_, rfl⟩⟩⟩
  · have check : firstFail _ = none := hc
    rw [lpaMatmul_exec, beginLpa_single hst h0, lpaPlan_single h0, ← runPlan_starts, ← check]
  · have check : firstFail _ = some st := hc
    rw [lpaMatmul_exec, beginLpa_single hst h0, lpaPlan_single h0, ← runPlan_rejects, ← check]
  · rw [lpaMatmul_exec, beginLpa_group hst h, veRecheck_still hstill]
  · rw [coResidentGroup_exec, beginGroup_single hst h, veRecheck_still hstill]
  · rw [coResidentGroup_exec, beginGroup_group hst (Nat.ne_of_gt (Nat.lt_trans Nat.zero_lt_one h)), lpaPlan_stray h, ← runPlan_rejects]
  · have waits : groupHeld s n o = false := held
    have check : groupCheck s n o = none := hc
    rw [coResidentGroup_exec, beginGroup_group hst (by rw [h1]; decide), lpaPlan_group h1, waits, check, runPlan_starts]
  · have waits : groupHeld s n o = false := held
    have check : groupCheck s n o = some st := hc
    rw [coResidentGroup_exec, beginGroup_group hst (by rw [h1]; decide), lpaPlan_group h1, waits, check, runPlan_rejects]
  · have waits : groupHeld s n o = true := held
    rw [coResidentGroup_exec, beginGroup_group hst (by rw [h1]; decide), lpaPlan_group h1, waits, runPlan_held, veRecheck_still hstill]

end Sys2Proof.Laws
end

section
/-! PROOFS. Entries are reserved and plates drained (R149 to R151, R160). -/

namespace Sys2Proof.Laws

open Sys2Proof Sys2Proof.Machine
set_option Elab.async false

variable {s t u : State} {n : Nat} {r : LpaRun} {j : PlateJob} {m : LpaMember}

/-! ## Entries that plates reserve (R149) -/

/-- What an entry of the Plate Queue keeps while it is filled. -/
def plateHead (y : Plate) : Nat × Nat × Nat × Nat × Nat × Bool × Bool :=
  (y.stream, y.phase, y.opIdx, y.mb, y.array, y.imag, y.visible)

/-- An entry as it was, or filled since. -/
def Filling (x y : Plate) : Prop := y = x ∨ (x.filled = false ∧ y.filled = true ∧ plateHead y = plateHead x)

theorem Filling.refl (x : Plate) : Filling x x := .inl rfl

theorem Filling.head {x y : Plate} (h : Filling x y) : plateHead y = plateHead x := by
  rcases h with rfl | ⟨-, -, h⟩
  · rfl
  · exact h

theorem Filling.trans {x y z : Plate} (h : Filling x y) (k : Filling y z) : Filling x z := by
  rcases k with rfl | ⟨empty, full, head⟩
  · exact h
  · rcases h with rfl | ⟨_, filled, _⟩
    · exact .inr ⟨empty, full, head⟩
    · rw [filled] at empty
      exact absurd empty (by decide)

theorem Filling.filled {x y : Plate} (h : Filling x y) (hx : x.filled = true) : y = x := by
  rcases h with rfl | ⟨empty, -, -⟩
  · rfl
  · rw [hx] at empty
    exact absurd empty (by decide)

/-- A Plate Queue in which entries may have been filled. -/
abbrev Fillings (l k : List Plate) : Prop := List.Forall₂ Filling l k

theorem Fillings.refl (l : List Plate) : Fillings l l := List.forall₂_same.2 fun x _ => .refl x

theorem Fillings.trans {l k q : List Plate} (h : Fillings l k) (h' : Fillings k q) : Fillings l q := by
  induction h generalizing q with
  | nil => exact h'
  | cons hx _ ih =>
    obtain ⟨z, zs, hz, hzs, rfl⟩ := List.forall₂_cons_left_iff.1 h'
    exact .cons (hx.trans hz) (ih hzs)

theorem Fillings.get {l k : List Plate} (h : Fillings l k) {i : Nat} {x y : Plate} (hx : l[i]? = some x) (hy : k[i]? = some y) : Filling x y := by
  obtain ⟨hi, rfl⟩ := List.getElem?_eq_some_iff.1 hx
  obtain ⟨hi', rfl⟩ := List.getElem?_eq_some_iff.1 hy
  exact List.Forall₂.get h hi hi'

theorem Fillings.mem {l k : List Plate} (h : Fillings l k) {x : Plate} (hx : x ∈ l) (full : x.filled = true) : x ∈ k := by
  obtain ⟨i, hi, rfl⟩ := List.mem_iff_getElem.1 hx
  have hi' : i < k.length := h.length_eq ▸ hi
  have same := Filling.filled (List.Forall₂.get h hi hi') full
  exact List.mem_iff_getElem.2 ⟨i, hi', same⟩

/-- A plate that waits in a bank for an entry. -/
def wantsEntry (r : LpaRun) (j : PlateJob) : Bool := !j.entry && r.members[j.member]?.any (fun m => !(lpaParm m.desc).dest)

theorem runParm_dest (r : LpaRun) (m : LpaMember) : (runParm r m).dest = (lpaParm m.desc).dest := by
  rw [runParm]
  split <;> rfl

/-- Whether every plate goes to the Plate Queue. -/
def inQueue (r : LpaRun) : Bool := r.members.all (fun m => !(lpaParm m.desc).dest)

/-- The steps of a reservation: a plate that wants no entry, one that gets one, and one that does not. -/
theorem reserveFor_passes (hm : r.members[j.member]? = some m) (hw : wantsEntry r j = false) (free : Nat) (js : List PlateJob) :
    reserveFor r free (j :: js) = (j :: (reserveFor r free js).1, (reserveFor r free js).2) := by
  have kept : ((runParm r m).dest || j.entry) = true := by
    rw [runParm_dest]
    rw [wantsEntry, hm, Option.any_some] at hw
    revert hw
    cases (lpaParm m.desc).dest <;> cases j.entry <;> decide
  rw [reserveFor, hm]
  exact if_pos kept

theorem reserveFor_takes (hm : r.members[j.member]? = some m) (hw : wantsEntry r j = true) (free : Nat) (js : List PlateJob) :
    reserveFor r (free + 1) (j :: js) =
      ({ j with entry := true } :: (reserveFor r free js).1, reservedEntry r j m :: (reserveFor r free js).2) := by
  have taken : ¬ ((runParm r m).dest || j.entry) = true := by
    rw [runParm_dest]
    rw [wantsEntry, hm, Option.any_some] at hw
    revert hw
    cases (lpaParm m.desc).dest <;> cases j.entry <;> decide
  rw [reserveFor, hm]
  exact if_neg taken

theorem reserveFor_full (hm : r.members[j.member]? = some m) (hw : wantsEntry r j = true) (js : List PlateJob) :
    reserveFor r 0 (j :: js) = (j :: js, []) := by
  have taken : ¬ ((runParm r m).dest || j.entry) = true := by
    rw [runParm_dest]
    rw [wantsEntry, hm, Option.any_some] at hw
    revert hw
    cases (lpaParm m.desc).dest <;> cases j.entry <;> decide
  rw [reserveFor, hm]
  exact if_neg taken

theorem reserveFor_astray (hm : r.members[j.member]? = none) (free : Nat) (js : List PlateJob) :
    reserveFor r free (j :: js) = (j :: js, []) := by
  rw [reserveFor, hm]

/-- No plate leaves its bank for an entry, and no more entries are reserved than there are. -/
theorem reserveFor_length (r : LpaRun) (js : List PlateJob) (free : Nat) :
    (reserveFor r free js).1.length = js.length ∧ (reserveFor r free js).2.length ≤ free := by
  induction js generalizing free with
  | nil => exact ⟨rfl, Nat.zero_le _⟩
  | cons j js ih =>
    cases hm : r.members[j.member]? with
    | none => rw [reserveFor_astray hm]; exact ⟨rfl, Nat.zero_le _⟩
    | some m =>
      obtain hw | hw := Bool.eq_false_or_eq_true (wantsEntry r j)
      · cases free with
        | zero => rw [reserveFor_full hm hw]; exact ⟨rfl, Nat.zero_le _⟩
        | succ free =>
          rw [reserveFor_takes hm hw]
          exact ⟨congrArg (· + 1) (ih free).1, Nat.succ_le_succ (ih free).2⟩
      · rw [reserveFor_passes hm hw]
        exact ⟨congrArg (· + 1) (ih free).1, (ih free).2⟩

/-- R149, R151: entries are reserved in the order of the plates, as far as there are free ones. -/
theorem reserveFor_entries (r : LpaRun) (js : List PlateJob) (free : Nat) (hj : ∀ j ∈ js, j.member < r.members.length) :
    (reserveFor r free js).2.length = min free (js.filter (wantsEntry r)).length ∧
      ∀ (k : Nat) (j : PlateJob) (m : LpaMember) (y : Plate), (js.filter (wantsEntry r))[k]? = some j → r.members[j.member]? = some m →
        (reserveFor r free js).2[k]? = some y → y = reservedEntry r j m := by
  induction js generalizing free with
  | nil => exact ⟨by simp [reserveFor], fun k j m y h => absurd h (by simp)⟩
  | cons j js ih =>
    have later := fun i hi => hj i (List.mem_cons_of_mem j hi)
    obtain ⟨m, hm⟩ : ∃ m, r.members[j.member]? = some m := ⟨_, List.getElem?_eq_getElem (hj j List.mem_cons_self)⟩
    obtain hw | hw := Bool.eq_false_or_eq_true (wantsEntry r j)
    · rw [List.filter_cons_of_pos hw]
      cases free with
      | zero => rw [reserveFor_full hm hw]; exact ⟨by simp, fun k j m y _ _ h => absurd h (by simp)⟩
      | succ free =>
        obtain ⟨length, entries⟩ := ih free later
        rw [reserveFor_takes hm hw]
        refine ⟨by simp only [List.length_cons, length]; omega, fun k i m' y hi hm' hy => ?_⟩
        cases k with
        | zero =>
          obtain rfl : j = i := by simpa using hi
          obtain rfl : m = m' := Option.some.inj (hm.symm.trans hm')
          simpa using hy.symm
        | succ k => exact entries k i m' y (by simpa using hi) hm' (by simpa using hy)
    · rw [List.filter_cons_of_neg (by rw [hw]; decide), reserveFor_passes hm hw]
      exact ih free later

/-! ## A drain (R150, R151, R160) -/

/-- What names a member of a run. -/
def memberKey (m : LpaMember) : Nat × Bytes := (m.idx, m.desc)

/-- What a drain leaves of a run. -/
def runKey (r : LpaRun) : Token × Nat × Bool × List (Nat × Bytes) := (r.tok, r.mb, r.boundary, r.members.map memberKey)

/-- The plates that wait in the banks of a core. -/
def banked (s : State) (n : Nat) : Nat := ((getCore s n).lpa.map (·.banks.length)).getD 0

/-- A core whose OCSs have drained plates. -/
structure Drained (n : Nat) (s t : State) : Prop where
  rise : keysRise t.cores = true
  run : (getCore t n).lpa.map runKey = (getCore s n).lpa.map runKey
  banks : banked t n ≤ banked s n
  pq : Fillings (getCore s n).pq (getCore t n).pq
  mem : (∀ r, (getCore s n).lpa = some r → inQueue r = true) → t.mem = s.mem

theorem inQueue_of_keys {r r' : LpaRun} (h : r'.members.map memberKey = r.members.map memberKey) : inQueue r' = inQueue r := by
  have key (r : LpaRun) : inQueue r = (r.members.map memberKey).all (fun z => !(lpaParm z.2).dest) := by
    rw [inQueue, List.all_map]
    rfl
  rw [key, key, h]

theorem members_of_runKey {r r' : LpaRun} (h : runKey r' = runKey r) : r'.members.map memberKey = r.members.map memberKey :=
  congrArg (fun z : Token × Nat × Bool × List (Nat × Bytes) => z.2.2.2) h

theorem Drained.refl (rise : keysRise s.cores = true) (n : Nat) : Drained n s s := ⟨rise, rfl, Nat.le_refl _, Fillings.refl _, fun _ => rfl⟩

theorem Drained.trans (h : Drained n s t) (k : Drained n t u) : Drained n s u := by
  refine ⟨k.rise, k.run.trans h.run, Nat.le_trans k.banks h.banks, Fillings.trans h.pq k.pq, fun inside => (k.mem fun r hr => ?_).trans (h.mem inside)⟩
  have same := h.run
  rw [hr, Option.map_some] at same
  obtain ⟨r0, hr0, key⟩ := Option.map_eq_some_iff.1 same.symm
  rw [inQueue_of_keys (members_of_runKey key.symm)]
  exact inside r0 hr0

/-- The core after a change of its run and queue. -/
theorem Drained.of_core (rise : keysRise t.cores = true) (hc : (getCore s n).lpa = some r) {r' : LpaRun} (run : runKey r' = runKey r)
    (banks : r'.banks.length ≤ r.banks.length) {pq : List Plate} (hpq : Fillings (getCore s n).pq pq)
    (core : getCore t n = { getCore s n with lpa := some r', pq := pq }) (mem : inQueue r = true → t.mem = s.mem) : Drained n s t := by
  refine ⟨rise, ?_, ?_, by rw [core]; exact hpq, fun inside => mem (inside r hc)⟩
  · rw [core, hc, Option.map_some, Option.map_some, run]
  · rw [banked, banked, core, hc]
    exact banks

/-- The Plate Queue after a plate has been put into its entry. -/
def intoEntry (r : LpaRun) (j : PlateJob) (m : LpaMember) (y : Plate) (pq : List Plate) : List Plate :=
  pq.map (fun e => if awaits r j m e then y else e)

theorem fillings_intoEntry (pq : List Plate) {y : Plate} (full : y.filled = true) (head : plateHead y = plateHead (reservedEntry r j m)) :
    Fillings pq (intoEntry r j m y pq) := by
  rw [Fillings, intoEntry, List.forall₂_map_right_iff]
  refine List.forall₂_same.2 fun x _ => ?_
  split
  next h =>
    have : x = reservedEntry r j m := by simpa [awaits] using h
    exact .inr ⟨this ▸ rfl, full, this ▸ head⟩
  next => exact .refl x

/-- The cores and memory that a converted plate leaves: its member has its flags, and it stands in its entry or in memory. -/
theorem drainPlate_parts (s : State) (n : Nat) (r : LpaRun) (j : PlateJob) (m : LpaMember) :
    ∃ out pq, (drainPlate s n r j m).cores =
        (setCore s n { getCore s n with lpa := some { r with members := r.members.set j.member (noteMember m out) }, pq := pq }).cores ∧
      (((lpaParm m.desc).dest = true ∧ pq = (getCore s n).pq) ∨
       ((lpaParm m.desc).dest = false ∧ (drainPlate s n r j m).mem = s.mem ∧
        ∃ y, y.filled = true ∧ plateHead y = plateHead (reservedEntry r j m) ∧ pq = intoEntry r j m y (getCore s n).pq)) := by
  have same := runParm_dest r m
  obtain hd | hd := Bool.eq_false_or_eq_true (lpaParm m.desc).dest
  · rw [hd] at same
    dsimp only [drainPlate]
    simp only [same, if_true]
    generalize convertSet _ _ _ _ _ = out
    refine ⟨out, (getCore s n).pq, ?_, .inl ⟨hd, rfl⟩⟩
    split <;> rfl
  · rw [hd] at same
    dsimp only [drainPlate]
    simp only [same, Bool.false_eq_true, if_false]
    generalize convertSet _ _ _ _ _ = out
    refine ⟨out, _, ?_, .inr ⟨hd, ?_, plateEntry r (runParm r m) m j (matOf n (operandRec m.dRec) j.imag).fw out, rfl, rfl, rfl⟩⟩
    · split <;> rfl
    · split <;> rfl

/-- A plate leaves its bank and is converted. -/
theorem drainPlate_drained (rise : keysRise s.cores = true) (hl : (getCore s n).lpa = some r) {r1 : LpaRun} (hk : runKey r1 = runKey r)
    (hb : r1.banks.length ≤ r.banks.length) (hm : r1.members[j.member]? = some m) :
    Drained n s (drainPlate (setCore s n { getCore s n with lpa := some r1 }) n r1 j m) := by
  obtain ⟨out, pq, cores, how⟩ := drainPlate_parts (setCore s n { getCore s n with lpa := some r1 }) n r1 j m
  have core : getCore (setCore s n { getCore s n with lpa := some r1 }) n = { getCore s n with lpa := some r1 } := getCore_setCore_self rise
  rw [core] at cores how
  have key : runKey { r1 with members := r1.members.set j.member (noteMember m out) } = runKey r := by
    rw [← hk, runKey, runKey]
    dsimp only
    rw [List.map_set, show memberKey (noteMember m out) = memberKey m from rfl]
    have here : (r1.members.map memberKey)[j.member]? = some (memberKey m) := by rw [List.getElem?_map, hm]; rfl
    obtain ⟨hi, val⟩ := List.getElem?_eq_some_iff.1 here
    rw [← val, List.set_getElem_self]
  have rise1 : keysRise (setCore s n { getCore s n with lpa := some r1 }).cores = true := keysRise_smSet rise
  refine .of_core (by rw [cores]; exact keysRise_smSet rise1) hl key hb (pq := pq) ?_ ((getCore_of_cores cores n).trans (getCore_setCore_self rise1))
    fun inside => ?_
  · rcases how with ⟨-, rfl⟩ | ⟨-, -, y, full, head, rfl⟩
    · exact .refl _
    · exact fillings_intoEntry _ full head
  · rcases how with ⟨hd, -⟩ | ⟨-, mem, -⟩
    · rw [← inQueue_of_keys (members_of_runKey hk), inQueue, List.all_eq_true] at inside
      have := inside m (List.mem_of_getElem? hm)
      rw [hd] at this
      exact absurd this (by decide)
    · exact mem

theorem eraseIdx_le (l : List PlateJob) (i : Nat) : (l.eraseIdx i).length ≤ l.length := by
  rw [List.length_eraseIdx]
  split <;> omega

/-- What an OCS does with its next plate: it converts one that has its entry and its place in Blink's queue. -/
theorem drainOcs_converts {ocs fuel i : Nat} (hl : (getCore s n).lpa = some r) (hi : r.banks.findIdx? (fun j => j.array / 2 == ocs) = some i)
    (hj : r.banks[i]? = some j) (hm : r.members[j.member]? = some m) (h : ((plateHeld s n r j m).1 || (plateHeld s n r j m).2) = false) :
    drainOcs s n ocs (fuel + 1) = drainOcs (drainPlate (setCore s n { getCore s n with lpa := some { r with banks := r.banks.eraseIdx i } }) n
      { r with banks := r.banks.eraseIdx i } j m) n ocs fuel := by
  rw [drainOcs, hl]
  dsimp only
  rw [hi]
  dsimp only
  rw [hj]
  dsimp only
  rw [hm]
  dsimp only
  rw [h]
  rfl

theorem drainOcs_drained (n ocs fuel : Nat) : ∀ {s : State}, keysRise s.cores = true → Drained n s (drainOcs s n ocs fuel) := by
  induction fuel with
  | zero => exact fun rise => .refl rise n
  | succ fuel ih =>
    intro s rise
    rw [drainOcs]
    split
    next => exact .refl rise n
    next r hl =>
      split
      next => exact .refl rise n
      next i _ =>
        split
        next => exact .refl rise n
        next j _ =>
          split
          next => exact .refl rise n
          next m hm =>
            dsimp only
            split
            · split
              · exact .refl rise n
              · have marked (t : State) (cores : t.cores = (setCore s n { getCore s n with lpa := some { r with
                    banks := r.banks.set i { j with held := true } } }).cores) (mem : t.mem = s.mem) : Drained n s t :=
                  .of_core (r' := { r with banks := r.banks.set i { j with held := true } }) (by rw [cores]; exact keysRise_smSet rise) hl rfl
                    (Nat.le_of_eq (List.length_set ..)) (.refl _)
                    ((getCore_of_cores cores n).trans (getCore_setCore_self rise)) fun _ => mem
                split
                · exact marked _ rfl rfl
                · exact marked _ rfl rfl
            · have one := drainPlate_drained (r1 := { r with banks := r.banks.eraseIdx i }) rise hl rfl (eraseIdx_le ..) hm
              exact one.trans (ih one.rise)

/-- The banks load what they have drained with initial values. -/
theorem loadInits_drained (rise : keysRise s.cores = true) (n : Nat) :
    Drained n s (setCore s n { getCore s n with lpa := (getCore s n).lpa.map (loadInits s n) }) := by
  have core := getCore_setCore_self (c := { getCore s n with lpa := (getCore s n).lpa.map (loadInits s n) }) (n := n) rise
  cases hl : (getCore s n).lpa with
  | none =>
    rw [hl, Option.map_none] at core
    rw [Option.map_none]
    refine ⟨keysRise_smSet rise, ?_, ?_, ?_, fun _ => rfl⟩
    · rw [core, hl]
    · rw [banked, banked, core, hl]
    · rw [core]
      exact .refl _
  | some r =>
    rw [hl] at core
    exact .of_core (r' := loadInits s n r) (keysRise_smSet rise) hl rfl (Nat.le_refl _) (.refl _) core fun _ => rfl

/-- The drain of both OCSs, after entries were reserved. -/
theorem drainBanks_drained (rise : keysRise (reserveEntries s n).cores = true) : Drained n (reserveEntries s n) (drainBanks s n) := by
  have first := drainOcs_drained n 0 drainFuel rise
  have second := drainOcs_drained n 1 drainFuel first.rise
  exact (first.trans second).trans (loadInits_drained second.rise n)

theorem reserveEntries_core (rise : keysRise s.cores = true) (hl : (getCore s n).lpa = some r) :
    keysRise (reserveEntries s n).cores = true ∧ (reserveEntries s n).mem = s.mem ∧
      getCore (reserveEntries s n) n = { getCore s n with
        lpa := some { r with banks := (reserveFor r (16 - (getCore s n).pq.length) r.banks).1 },
        pq := (getCore s n).pq ++ (reserveFor r (16 - (getCore s n).pq.length) r.banks).2 } := by
  simp only [reserveEntries, hl]
  exact ⟨keysRise_smSet rise, rfl, getCore_setCore_self rise⟩

/-! ## The queue after a drain -/

/-- The entries of `pq` stay, or are filled, and behind them stand those of the plates `jobs` of the members `ms` that want one (R149). -/
structure Queued (tok : Token) (ms : List LpaMember) (wants : PlateJob → Bool) (jobs : List PlateJob) (pq q : List Plate) : Prop where
  longer : pq.length ≤ q.length
  room : pq.length ≤ 16 → q.length ≤ 16
  length : (∀ j ∈ jobs, j.member < ms.length) → q.length = pq.length + min (16 - pq.length) (jobs.filter wants).length
  entries : (∀ j ∈ jobs, j.member < ms.length) → ∀ (k : Nat) (j : PlateJob) (m : LpaMember) (y : Plate), (jobs.filter wants)[k]? = some j →
    ms[j.member]? = some m → q[pq.length + k]? = some y →
      y.stream = tok.stream ∧ y.phase = tok.phase ∧ y.opIdx = m.idx ∧ y.mb = j.mb ∧ y.array = j.array ∧ y.imag = j.imag ∧ y.visible = false
  kept : ∀ (k : Nat) (x y : Plate), pq[k]? = some x → q[k]? = some y → Filling x y

theorem drainBanks_queued (rise : keysRise s.cores = true) (hl : (getCore s n).lpa = some r) :
    Queued r.tok r.members (wantsEntry r) r.banks (getCore s n).pq (getCore (drainBanks s n) n).pq := by
  obtain ⟨rise', -, core⟩ := reserveEntries_core rise hl
  have fills := (drainBanks_drained rise').pq
  rw [core] at fills
  change Fillings ((getCore s n).pq ++ (reserveFor r (16 - (getCore s n).pq.length) r.banks).2) _ at fills
  generalize (getCore (drainBanks s n) n).pq = q at fills ⊢
  generalize (getCore s n).pq = pq at fills ⊢
  have len := List.Forall₂.length_eq fills
  rw [List.length_append] at len
  have free := (reserveFor_length r r.banks (16 - pq.length)).2
  refine ⟨by omega, fun _ => by omega, fun hj => ?_, fun hj k j m y hk hm hy => ?_, fun k x y hx hy => ?_⟩
  · rw [← (reserveFor_entries r r.banks (16 - pq.length) hj).1]
    exact len.symm
  · have hi : k < (reserveFor r (16 - pq.length) r.banks).2.length := by
      have := (List.getElem?_eq_some_iff.1 hy).1
      omega
    have hx : (pq ++ (reserveFor r (16 - pq.length) r.banks).2)[pq.length + k]? = some (reserveFor r (16 - pq.length) r.banks).2[k] := by
      rw [List.getElem?_append_right (Nat.le_add_right ..), Nat.add_sub_cancel_left, List.getElem?_eq_getElem hi]
    have entry := (reserveFor_entries r r.banks (16 - pq.length) hj).2 k j m _ hk hm (List.getElem?_eq_getElem hi)
    have head := (Fillings.get fills hx hy).head
    rw [entry] at head
    simpa [plateHead, reservedEntry] using head
  · have hx' : (pq ++ (reserveFor r (16 - pq.length) r.banks).2)[k]? = some x := by
      rw [List.getElem?_append_left (List.getElem?_eq_some_iff.1 hx).1]
      exact hx
    exact Fillings.get fills hx' hy

theorem drainBanks_run (rise : keysRise s.cores = true) (hl : (getCore s n).lpa = some r) :
    (getCore (drainBanks s n) n).lpa.map runKey = some (runKey r) := by
  obtain ⟨rise', -, core⟩ := reserveEntries_core rise hl
  rw [(drainBanks_drained rise').run, core]
  rfl

theorem drainBanks_mem (rise : keysRise s.cores = true) (hl : (getCore s n).lpa = some r) (inside : inQueue r = true) :
    (drainBanks s n).mem = s.mem := by
  obtain ⟨rise', mem, core⟩ := reserveEntries_core rise hl
  refine ((drainBanks_drained rise').mem fun r' hr => ?_).trans mem
  rw [core] at hr
  obtain rfl := Option.some.inj hr
  exact inside

end Sys2Proof.Laws
end

section
/-! PROOFS. Weight tiles, plates and row blocks (O44). -/

namespace Sys2Proof.Laws

open Sys2Proof Sys2Proof.Machine
set_option Elab.async false

variable {s t u : State} {n : Nat} {r : LpaRun} {j : PlateJob} {m : LpaMember}

/-! ## Weight tiles (R129 to R131) -/

section Tiles

variable {core : CoreId} {b : BitVec 2} {m0 : LpaMember} {ms : List LpaMember}
variable (hl : (getCore s core.toNat).lpa = some r) (hms : r.members = m0 :: ms)
  (ha : (activeArrays (runParm r m0).arrays).contains b.toNat = true)

include hl hms ha

theorem weightTileReady_exec (hb : r.boundary = false) : exec (.weightTileReady core b) s = .next
    (if r.tiles.getD b.toNat 0 < tilesAhead r r.mb then
      setCore s core.toNat { getCore s core.toNat with noProg := 0, lpa := some (takeTile s core.toNat r b.toNat) }
     else loadAhead s core.toNat r b.toNat) := by
  show execWeightTileReady core b s = _
  simp only [execWeightTileReady, hl, hms]
  rw [if_pos ⟨ha, hb⟩]
  exact (apply_ite Host.Outcome.next _ _ _).symm

omit ha in
theorem weightTileReady_boundary (hb : r.boundary = true) : exec (.weightTileReady core b) s = .next s := by
  show execWeightTileReady core b s = _
  simp only [execWeightTileReady, hl, hms]
  rw [if_neg fun h => by rw [hb] at h; exact absurd h.2 (by decide)]

end Tiles

/-- The look-ahead leaves the running op, and memory. -/
theorem loadAhead_leaves (rise : keysRise s.cores = true) (hl : (getCore s n).lpa = some r) (k : Nat) :
    (loadAhead s n r k).mem = s.mem ∧ (getCore (loadAhead s n r k) n).lpa = some r := by
  rw [loadAhead]
  split
  · exact ⟨rfl, hl⟩
  · split
    · exact ⟨rfl, hl⟩
    · split
      · refine ⟨rfl, ?_⟩
        rw [getCore_setCore_self rise]
        exact hl
      · exact ⟨rfl, hl⟩

theorem loadAhead_none (h : lookAhead s n r = none) (k : Nat) : loadAhead s n r k = s := by
  rw [loadAhead, h]
  split <;> rfl

/-- R131: the first tile of the op that follows. -/
theorem loadAhead_next (rise : keysRise s.cores = true) {x : LpaRun} {k : Nat} (hx : runCx r = false) (hk : kTiles r ≤ 1 ∨ rowBlocks r ≤ r.mb + 1)
    (h : lookAhead s n r = some x) (h0 : x.tiles.getD k 0 = 0) :
    (getCore (loadAhead s n r k) n).lpaNext = some { x with tiles := x.tiles.set k 1, weights := x.weights ++ loadTile s n x k 0 } := by
  rw [loadAhead, if_neg (by simp [hx, hk]), h]
  dsimp only
  rw [if_pos h0, getCore_setCore_self rise]
  dsimp only
  rw [takeTile, h0]

/-! ## Row blocks and plates (R127, R132, R149 to R151) -/

theorem wantsEntry_congr {r r' : LpaRun} (h : r'.members.map memberKey = r.members.map memberKey) (j : PlateJob) : wantsEntry r' j = wantsEntry r j := by
  have key (r : LpaRun) : wantsEntry r j = (!j.entry && ((r.members.map memberKey)[j.member]?).any fun z => !(lpaParm z.2).dest) := by
    rw [wantsEntry, List.getElem?_map, Option.any_map]
    rfl
  rw [key, key, h]

/-- A queue is named by the keys of the members of its run. -/
theorem Queued.of_keys {tok : Token} {r r' : LpaRun} {jobs : List PlateJob} {pq q : List Plate}
    (h : r'.members.map memberKey = r.members.map memberKey) (k : Queued tok r'.members (wantsEntry r') jobs pq q) :
    Queued tok r.members (wantsEntry r) jobs pq q := by
  have wants : wantsEntry r' = wantsEntry r := funext (wantsEntry_congr h)
  have len : r'.members.length = r.members.length := by simpa using congrArg List.length h
  obtain ⟨longer, room, length, entries, kept⟩ := k
  rw [wants, len] at length entries
  refine ⟨longer, room, length, fun hj k j m y hk hm hy => ?_, kept⟩
  have key := congrArg (fun l : List (Nat × Bytes) => l[j.member]?) h
  simp only [List.getElem?_map, hm, Option.map_some] at key
  obtain ⟨m', hm', same⟩ := Option.map_eq_some_iff.1 key
  have idx : m'.idx = m.idx := congrArg Prod.fst same
  rw [← idx]
  exact entries hj k j m' y hk hm' hy

theorem faultMembers_keys (r : LpaRun) : (faultMembers r).members.map memberKey = r.members.map memberKey := by
  rw [faultMembers]
  split
  · rfl
  · rw [List.map_map]
    refine Eq.trans (List.map_congr_left fun z _ => ?_) (b := r.members.zipIdx.map (fun z => memberKey z.1)) ?_
    · dsimp only [Function.comp_apply]
      split <;> rfl
    · rw [show (fun z : LpaMember × Nat => memberKey z.1) = memberKey ∘ Prod.fst from rfl, ← List.map_map, List.zipIdx_map_fst]

theorem faultMembers_parts (r : LpaRun) : ∃ l, faultMembers r = { r with members := l } := by
  rw [faultMembers]
  split
  · exact ⟨_, rfl⟩
  · exact ⟨_, rfl⟩

/-- The run of a core whose arrays have finished a row block. -/
def blockDone (s : State) (n : Nat) (r : LpaRun) : LpaRun :=
  { faultMembers r with
    mb := (faultMembers r).mb + 1, inits := (faultMembers r).inits.filter (·.mb != (faultMembers r).mb)
    banks := (faultMembers r).banks ++ rowBlockJobs s n (faultMembers r) (faultMembers r).mb
    boundary := (getCore s n).preempt && !((getCore s n).svcTokens.any (sameList r.tok))
    weights := if kTiles r ≤ 1 then r.weights else r.weights.filter (fun w => decide (tilesFor r r.mb ≤ w.tile)) }

theorem blockDone_key (s : State) (n : Nat) (r : LpaRun) : runKey (blockDone s n r) =
    (r.tok, r.mb + 1, (getCore s n).preempt && !((getCore s n).svcTokens.any (sameList r.tok)), r.members.map memberKey) := by
  obtain ⟨l, faulted⟩ := faultMembers_parts r
  have mb : (faultMembers r).mb = r.mb := by rw [faulted]
  have tok : (faultMembers r).tok = r.tok := by rw [faulted]
  have key : runKey (blockDone s n r) = ((faultMembers r).tok, (faultMembers r).mb + 1,
    (getCore s n).preempt && !((getCore s n).svcTokens.any (sameList r.tok)), (faultMembers r).members.map memberKey) := rfl
  rw [key, faultMembers_keys, tok, mb]

theorem blockDone_banks (s : State) (n : Nat) (r : LpaRun) : (blockDone s n r).banks = r.banks ++ rowBlockJobs s n (faultMembers r) r.mb := by
  obtain ⟨l, faulted⟩ := faultMembers_parts r
  have mb : (faultMembers r).mb = r.mb := by rw [faulted]
  have banks : (faultMembers r).banks = r.banks := by rw [faulted]
  show (faultMembers r).banks ++ rowBlockJobs s n (faultMembers r) (faultMembers r).mb = _
  rw [mb, banks]

theorem blockDone_inQueue (s : State) (n : Nat) (r : LpaRun) : inQueue (blockDone s n r) = inQueue r :=
  inQueue_of_keys (congrArg (fun z : Token × Nat × Bool × List (Nat × Bytes) => z.2.2.2) (blockDone_key s n r))

theorem rowBlockDone_exec {core : CoreId} (hl : (getCore s core.toNat).lpa = some r) (h : blockReady r = true) :
    exec (.rowBlockDone core) s = .next (drainBanks
      (setCore s core.toNat { getCore s core.toNat with lpa := some (blockDone s core.toNat r), noProg := 0 }) core.toNat) := by
  show execRowBlockDone core s = _
  simp only [execRowBlockDone, hl]
  exact if_pos h

theorem rowBlockDone_waits {core : CoreId} (hl : (getCore s core.toNat).lpa = some r) (h : blockReady r = false) :
    exec (.rowBlockDone core) s = .next s := by
  show execRowBlockDone core s = _
  simp only [execRowBlockDone, hl]
  exact if_neg (by rw [h]; decide)

/-- A plate that has its entry, and room in Blink's queue, is in its entry once its OCS has taken it. -/
theorem drainOcs_first {rest : List PlateJob} (rise : keysRise s.cores = true) (hl : (getCore s n).lpa = some r) (hb : r.banks = j :: rest)
    (hm : r.members[j.member]? = some m) (ha : j.array < 2) (hd : (lpaParm m.desc).dest = false) (he : j.entry = true)
    (hq : reservedEntry r j m ∈ (getCore s n).pq) (blink : (blinkQueue s (n / 64)).length < 4) (fuel : Nat) :
    ∃ v, Drained n v (drainOcs s n 0 (fuel + 1)) ∧ banked v n ≤ rest.length ∧
      ∃ y ∈ (getCore v n).pq, y.filled = true ∧ plateHead y = plateHead (reservedEntry r j m) := by
  have first : r.banks.findIdx? (fun j => j.array / 2 == 0) = some 0 := by
    rw [hb, List.findIdx?_cons, if_pos (by simp; omega)]
  have open_ : ((plateHeld s n r j m).1 || (plateHeld s n r j m).2) = false := by
    simp only [plateHeld, he, Bool.not_true, Bool.and_false, Bool.false_or, Bool.and_eq_false_iff, decide_eq_false_iff_not]
    exact .inr (by omega)
  have erased : r.banks.eraseIdx 0 = rest := by rw [hb]; rfl
  rw [drainOcs_converts hl first (by rw [hb]; rfl) hm open_, erased]
  have rise1 : keysRise (setCore s n { getCore s n with lpa := some { r with banks := rest } }).cores = true := keysRise_smSet rise
  have one := drainPlate_drained (r1 := { r with banks := rest }) rise hl rfl (by rw [hb]; exact Nat.le_succ _) hm
  refine ⟨_, drainOcs_drained n 0 fuel one.rise, ?_, ?_⟩
  · obtain ⟨out, pq, cores, -⟩ := drainPlate_parts (setCore s n { getCore s n with lpa := some { r with banks := rest } }) n { r with banks := rest } j m
    rw [banked, getCore_of_cores cores, getCore_setCore_self rise1]
    exact Nat.le_refl _
  · obtain ⟨out, pq, cores, how⟩ := drainPlate_parts (setCore s n { getCore s n with lpa := some { r with banks := rest } }) n { r with banks := rest } j m
    rcases how with ⟨hd', -⟩ | ⟨-, -, y, full, head, rfl⟩
    · rw [hd] at hd'
      exact absurd hd' (by decide)
    · refine ⟨y, ?_, full, head⟩
      rw [getCore_of_cores cores, getCore_setCore_self rise1, getCore_setCore_self rise]
      refine List.mem_map.2 ⟨reservedEntry r j m, hq, if_pos ?_⟩
      exact beq_self_eq_true (reservedEntry r j m)

/-- R149, R150: the first plate in the banks of OCS 0 that finds an entry and room in Blink's queue is in its entry after the drain. -/
theorem drainBanks_first {rest : List PlateJob} (rise : keysRise s.cores = true) (hl : (getCore s n).lpa = some r) (hb : r.banks = j :: rest)
    (hm : r.members[j.member]? = some m) (ha : j.array < 2) (he : j.entry = false) (hd : (lpaParm m.desc).dest = false)
    (hq : (getCore s n).pq.length < 16) (blink : (blinkQueue s (n / 64)).length < 4) :
    (∃ x, (getCore (drainBanks s n) n).lpa = some x ∧ x.banks.length ≤ rest.length) ∧
      ∃ y ∈ (getCore (drainBanks s n) n).pq, y.filled = true ∧ y.phase = r.tok.phase ∧ y.opIdx = m.idx ∧ y.mb = j.mb ∧ y.array = j.array ∧
        y.imag = j.imag := by
  obtain ⟨free, hfree⟩ : ∃ free, 16 - (getCore s n).pq.length = free + 1 := ⟨15 - (getCore s n).pq.length, by omega⟩
  have hw : wantsEntry r j = true := by
    rw [wantsEntry, hm, he, Option.any_some, hd]
    rfl
  obtain ⟨rise', -, core⟩ := reserveEntries_core rise hl
  rw [hfree, hb, reserveFor_takes hm hw] at core
  have room : (blinkQueue (reserveEntries s n) (n / 64)).length < 4 := by
    simp only [reserveEntries, hl]
    exact blink
  obtain ⟨v, drained, banks, y, hy, full, head⟩ := drainOcs_first
    (r := { r with banks := { j with entry := true } :: (reserveFor r free rest).1 }) rise' (congrArg (fun c : Core => c.lpa) core) rfl hm ha hd rfl
    (by rw [core]; exact List.mem_append_right _ List.mem_cons_self) room 15
  have second := drainOcs_drained n 1 drainFuel drained.rise
  have all : Drained n v (drainBanks s n) := (drained.trans second).trans (loadInits_drained second.rise n)
  refine ⟨?_, y, all.pq.mem hy full, full, ?_⟩
  · obtain ⟨x, hx, -⟩ := Option.map_eq_some_iff.1 (drainBanks_run rise hl)
    have le := Nat.le_trans all.banks banks
    rw [(reserveFor_length r rest free).1, banked, hx] at le
    exact ⟨x, hx, le⟩
  · simp only [plateHead, reservedEntry, Prod.mk.injEq] at head
    obtain ⟨-, phase, idx, mb, array, imag, -⟩ := head
    exact ⟨phase, idx, mb, array, imag⟩

/-! ## The end of an op (R153, R164) -/

/-- What the end of a run's members leaves: the units of the core, and the count of stalls. -/
structure MembersEnded (n : Nat) (s t : State) : Prop where
  rise : keysRise t.cores = true
  units : units (getCore t n) = units (getCore s n)
  stalls : t.cr.pqStalls = s.cr.pqStalls

theorem MembersEnded.trans (h : MembersEnded n s t) (k : MembersEnded n t u) : MembersEnded n s u :=
  ⟨k.rise, k.units.trans h.units, k.stalls.trans h.stalls⟩

theorem MembersEnded.of_cores (rise : keysRise s.cores = true) (cores : t.cores = s.cores) (stalls : t.cr.pqStalls = s.cr.pqStalls) :
    MembersEnded n s t := ⟨by rw [cores]; exact rise, congrArg Laws.units (getCore_of_cores cores n), stalls⟩

theorem write_cr (s : State) (r : Reach) (a : Nat) (bs : Bytes) (p : Bool) : (write s r a bs p).cr = s.cr := cr_eq (by simp)

theorem countMember_ended (rise : keysRise s.cores = true) (r : LpaRun) (z : LpaMember × Nat) (st : Status) :
    MembersEnded n s (countMember s r z st) := by
  refine .of_cores rise (cores_eq (by simp)) ?_
  simp only [countMember, photUpdate]
  split
  · split
    · rfl
    · split
      · rfl
      next b _ => exact congrArg (fun c : ComputeRegs => c.pqStalls) (write_cr ..)
  · rfl

theorem endMembers_ended (rise : keysRise s.cores = true) (r : LpaRun) (status : LpaMember → Status) : MembersEnded n s (endMembers s n r status) := by
  refine List.foldlRecOn (motive := MembersEnded n s) _ _ (.of_cores rise rfl rfl) fun t h z _ => h.trans ?_
  dsimp only
  have counted := countMember_ended (n := n) h.rise r z (status z.1)
  generalize countMember t r z (status z.1) = a at counted ⊢
  have faults : MembersEnded n a (if z.1.faulted then { a with cr := { a.cr with memberFaults := satAdd a.cr.memberFaults 1 } } else a) := by
    split
    · exact .of_cores counted.rise rfl rfl
    · exact .of_cores counted.rise rfl rfl
  generalize (if z.1.faulted then { a with cr := { a.cr with memberFaults := satAdd a.cr.memberFaults 1 } } else a) = b at faults ⊢
  have ends : MembersEnded n b (finishOp b n r.tok z.1.desc (status z.1)) :=
    ⟨finishOp_cores_rise faults.rise .., units_finishOp faults.rise .., congrArg (·.pqStalls) (cr_eq (by simp))⟩
  refine counted.trans (faults.trans ?_)
  split
  · exact ends
  · exact ends.trans (.of_cores ends.rise (cores_eq (by simp)) (congrArg (·.pqStalls) (cr_eq (by simp))))

/-- The state in which a stalled op has left the arrays, before its members end. -/
def stalled (s : State) (n : Nat) (r : LpaRun) : State :=
  setCore (poisonRest s n r) n { getCore (poisonRest s n r) n with
    lpa := none, pq := (getCore s n).pq.filter (fun p => !runsPlate r p), pqFull := 0 }

theorem endStalled_ends (hl : (getCore s n).lpa = some r) (full : 16 ≤ (getCore s n).pq.length) (late : 2 ^ (10 + r.cfg % 16) ≤ (getCore s n).pqFull)
    (reader : (getCore s n).ve.any readsPq = false) : endStalled n s =
      { endMembers (stalled s n r) n r (fun _ => .pqStall) with
        cr := { (endMembers (stalled s n r) n r (fun _ => .pqStall)).cr with
          pqStalls := satAdd (endMembers (stalled s n r) n r (fun _ => .pqStall)).cr.pqStalls 1 } } := by
  simp only [endStalled, hl]
  rw [if_pos]
  · rfl
  · refine ⟨full, late, ?_⟩
    cases hv : (getCore s n).ve with
    | none => rfl
    | some v => rw [hv] at reader; exact reader

theorem endStalled_waits (hl : (getCore s n).lpa = some r) (h : (getCore s n).pq.length < 16 ∨ (getCore s n).pqFull < 2 ^ (10 + r.cfg % 16)) :
    endStalled n s = s := by
  simp only [endStalled, hl]
  exact if_neg fun ⟨full, late, _⟩ => by rcases h with h | h <;> omega

/-- R153: the op of a queue that stays full ends. -/
theorem stalled_ended (rise : keysRise s.cores = true) : ∀ {x : State}, MembersEnded n (stalled s n r) x →
    (getCore x n).lpa = none ∧ (getCore x n).ve = (getCore s n).ve ∧ x.cr.pqStalls = s.cr.pqStalls ∧
      (getCore x n).pq = (getCore s n).pq.filter (fun p => !runsPlate r p) := by
  intro x ended
  have cores : (poisonRest s n r).cores = s.cores := cores_eq (by simp)
  have core : getCore (stalled s n r) n = { getCore s n with
      lpa := none, pq := (getCore s n).pq.filter (fun p => !runsPlate r p), pqFull := 0 } := by
    rw [stalled, getCore_setCore_self (by rw [cores]; exact rise), getCore_of_cores cores]
  have same := ended.units
  rw [core] at same
  refine ⟨units_lpa same, (units_ve same).trans rfl, ended.stalls.trans ?_, congrArg (fun z : Core => z.pq) same⟩
  exact congrArg (·.pqStalls) (show (poisonRest s n r).cr = s.cr from cr_eq (by simp))

theorem stalled_rise (rise : keysRise s.cores = true) : keysRise (stalled s n r).cores = true := by
  have cores : (poisonRest s n r).cores = s.cores := cores_eq (by simp)
  exact keysRise_smSet (by rw [cores]; exact rise)

theorem ve_any_or {v : Option VeRun} (h : v.any (fun v => readsPq v || v.waiting) = false) :
    v.any readsPq = false ∧ v.any (·.waiting) = false := by
  cases v with
  | none => exact ⟨rfl, rfl⟩
  | some v => exact (Bool.or_eq_false_iff.1 h)

/-- R164: the op whose plates are out leaves the arrays. -/
theorem completeLpa_ends (rise : keysRise s.cores = true) (hl : (getCore s n).lpa = some r) (hm : r.mb = rowBlocks r) (hb : r.banks = []) :
    keysRise (completeLpa s n).cores = true ∧ (getCore (completeLpa s n) n).lpa = none := by
  simp only [completeLpa, hl]
  rw [if_pos ⟨hm, by rw [hb]; rfl⟩]
  have ended := endMembers_ended (n := n) (s := setCore s n { getCore s n with lpa := none, noProg := 0 }) (keysRise_smSet rise) r memberStatus
  refine ⟨ended.rise, (units_lpa ended.units).trans ?_⟩
  rw [getCore_setCore_self rise]

theorem completeLpa_waits (hl : (getCore s n).lpa = some r) (hm : r.mb < rowBlocks r) : completeLpa s n = s := by
  simp only [completeLpa, hl]
  exact if_neg fun h => by have := h.1; omega

/-! ## Visible plates, and the boundary of a preempted core (R149, R157) -/

theorem takeWhile_seen {seen rest : List Plate} {p : Plate} (hs : seen.all (·.visible) = true) (hp : p.visible = false) :
    (seen ++ p :: rest).takeWhile (·.visible) = seen := by
  rw [List.takeWhile_append_of_pos (fun a ha => List.all_eq_true.1 hs a ha), List.takeWhile_cons_of_neg (by rw [hp]; decide), List.append_nil]

theorem plateVisible_exec {core : CoreId} {seen rest : List Plate} {p : Plate} (hq : (getCore s core.toNat).pq = seen ++ p :: rest)
    (hs : seen.all (·.visible) = true) (hp : p.visible = false) : exec (.plateVisible core) s = .next
      (if p.filled then veGo (setCore s core.toNat { getCore s core.toNat with pq := seen ++ { p with visible := true } :: rest }) core.toNat else s) := by
  show execPlateVisible core s = _
  simp only [execPlateVisible, hq, takeWhile_seen hs hp, List.drop_left]
  exact (apply_ite Host.Outcome.next _ _ _).symm

theorem veGo_idle (h : (getCore s n).ve = none) : veGo s n = s := by
  rw [veGo, veEnv, h]
  rfl

/-- The state in which an op has paused at its boundary. -/
def lpaPausedAt (s : State) (n : Nat) (r : Option LpaRun) : State :=
  setCore s n { getCore s n with lpa := none, lpaNext := none, lpaPaused := r }

/-- Whether the LPA op of a preempted core pauses (R157). -/
def lpaPauses (c : Core) : Bool :=
  match c.lpa with
  | some r => r.boundary && r.banks.isEmpty && decide (r.mb < rowBlocks r) && c.lpaPaused.isNone && !(c.svcTokens.any (sameList r.tok))
  | none => false

/-- Whether its VE op pauses then (R157). -/
def vePauses (s t : State) (n : Nat) : Bool :=
  match (getCore t n).ve with
  | some v => pausesNow t n v && (getCore t n).vePaused.isNone && !((getCore s n).svcTokens.any (sameList v.tok))
  | none => false

/-- The state in which the VE op has paused where it does. -/
def vePausedAt (s t : State) (n : Nat) : State :=
  if vePauses s t n then setCore t n { getCore t n with ve := none, vePaused := (getCore t n).ve } else t

theorem plateBoundary_exec {core : CoreId} (hp : (getCore s core.toNat).preempt = true) : exec (.plateBoundary core) s = .next
    (vePausedAt s (if lpaPauses (getCore s core.toNat) then lpaPausedAt s core.toNat (getCore s core.toNat).lpa else s) core.toNat) := by
  show execPlateBoundary core s = _
  unfold execPlateBoundary
  dsimp only
  rw [if_neg (by rw [hp]; decide)]
  rfl

theorem plateBoundary_idle {core : CoreId} (hp : (getCore s core.toNat).preempt = false) : exec (.plateBoundary core) s = .next s := by
  show execPlateBoundary core s = _
  unfold execPlateBoundary
  dsimp only
  rw [if_pos (by rw [hp]; decide)]

theorem lpaPauses_of (hl : (getCore s n).lpa = some r) (hb : r.boundary = true) (empty : r.banks = []) (hm : r.mb < rowBlocks r)
    (free : (getCore s n).lpaPaused = none) (svc : (getCore s n).svcTokens.any (sameList r.tok) = false) : lpaPauses (getCore s n) = true := by
  rw [lpaPauses, hl]
  dsimp only
  rw [hb, empty, free, svc, decide_eq_true hm]
  rfl

/-- R157: an op at its boundary pauses, and the VE op at its pause point with it. -/
theorem vePausedAt_pauses (rise : keysRise s.cores = true) :
    let t := vePausedAt s (lpaPausedAt s n (some r)) n
    (getCore t n).lpa = none ∧ (getCore t n).lpaPaused = some r ∧ (getCore t n).lpaNext = none ∧ t.mem = s.mem ∧
      ∀ v, (getCore s n).ve = some v → (getCore s n).vePaused = none → (getCore s n).svcTokens.any (sameList v.tok) = false →
        if pausesNow (lpaPausedAt s n (some r)) n v then (getCore t n).ve = none ∧ (getCore t n).vePaused = some v
        else (getCore t n).ve = some v := by
  have rise' : keysRise (lpaPausedAt s n (some r)).cores = true := keysRise_smSet rise
  have core : getCore (lpaPausedAt s n (some r)) n = { getCore s n with lpa := none, lpaNext := none, lpaPaused := some r } :=
    getCore_setCore_self rise
  have mem : (lpaPausedAt s n (some r)).mem = s.mem := rfl
  generalize lpaPausedAt s n (some r) = u at rise' core mem
  have pauses (v : VeRun) (hv : (getCore s n).ve = some v) (hf : (getCore s n).vePaused = none)
      (svc : (getCore s n).svcTokens.any (sameList v.tok) = false) : vePauses s u n = pausesNow u n v := by
    rw [vePauses, core]
    dsimp only
    rw [hv]
    dsimp only
    rw [hf, svc]
    simp
  intro t
  simp only [t, vePausedAt]
  split
  next h =>
    rw [getCore_setCore_self rise', core]
    refine ⟨rfl, rfl, rfl, mem, fun v hv hf svc => ?_⟩
    rw [← pauses v hv hf svc, if_pos h]
    exact ⟨rfl, hv⟩
  next h =>
    rw [core]
    refine ⟨rfl, rfl, rfl, mem, fun v hv hf svc => ?_⟩
    rw [← pauses v hv hf svc, if_neg h]
    exact hv

/-- Settles O44. -/
theorem platesAndRowBlocks : Obligations.PlatesAndRowBlocks := by
  unfold Obligations.PlatesAndRowBlocks
  intro core s r hs hl n c still wants queued inside
  have rise := hs.cores
  have fills {t : State} {r' : LpaRun} {jobs : List PlateJob} (hk : runKey r' = (r.tok, r'.mb, r'.boundary, r.members.map memberKey))
      (h : Queued r'.tok r'.members (wantsEntry r') jobs c.pq (getCore t n).pq) : queued t jobs := by
    have tok : r'.tok = r.tok := congrArg (fun z : Token × _ => z.1) hk
    have keys : r'.members.map memberKey = r.members.map memberKey := congrArg (fun z : Token × Nat × Bool × List (Nat × Bytes) => z.2.2.2) hk
    obtain ⟨longer, room, length, entries, kept⟩ := Queued.of_keys keys h
    rw [tok] at entries
    refine ⟨longer, room, length, entries, fun k x y hx hy => ?_⟩
    rcases kept k x y hx hy with same | ⟨empty, full, head⟩
    · exact .inl same
    · obtain ⟨-, phase, idx, mb, array, imag, -⟩ : y.stream = x.stream ∧ y.phase = x.phase ∧ y.opIdx = x.opIdx ∧ y.mb = x.mb ∧
        y.array = x.array ∧ y.imag = x.imag ∧ y.visible = x.visible := by simpa [plateHead] using head
      exact .inr ⟨empty, full, phase, idx, mb, array, imag⟩
  refine ⟨fun j m0 ms hms ha => ?_, fun ready => ?_, fun ready => ⟨s, rowBlockDone_waits hl ready, rfl⟩, ?_, fun j rest m hb hm ha he hd hq blink => ?_,
    fun seen rest p hve hq hseen hp => ⟨fun full => ?_, fun full => ?_⟩, fun full late idle => ?_, fun h hstill => ⟨s, ?_, rfl⟩,
    fun hp hb empty hm free svc => ?_, fun hp => ⟨s, plateBoundary_idle hp, rfl⟩, fun hm hb => ?_, fun hm hstill => ⟨s, ?_, rfl⟩⟩
  · refine ⟨fun hk hb => ⟨_, weightTileReady_exec hl hms ha hb, ?_⟩, fun hb => ⟨s, weightTileReady_boundary hl hms hb, rfl⟩, fun hk => ?_⟩
    · rw [if_pos hk]
      refine ⟨rfl, ?_⟩
      rw [getCore_setCore_self rise]
      rfl
    · obtain hb | hb := Bool.eq_false_or_eq_true r.boundary
      · exact ⟨s, weightTileReady_boundary hl hms hb, rfl, hl, fun _ => rfl, fun x h => absurd (hb.symm.trans h) (by decide)⟩
      · refine ⟨_, weightTileReady_exec hl hms ha hb, ?_⟩
        rw [if_neg (Nat.not_lt.2 hk)]
        obtain ⟨mem, same⟩ := loadAhead_leaves rise hl j.toNat
        exact ⟨mem, same, fun h => loadAhead_none h _, fun x _ cx tiles h h0 => loadAhead_next rise cx tiles h h0⟩
  · have rise1 : keysRise (setCore s n { getCore s n with lpa := some (blockDone s n r), noProg := 0 }).cores = true := keysRise_smSet rise
    have core1 := getCore_setCore_self (c := { getCore s n with lpa := some (blockDone s n r), noProg := 0 }) (n := n) rise
    have hl1 := congrArg (fun c : Core => c.lpa) core1
    have key := blockDone_key s n r
    refine ⟨_, rowBlockDone_exec hl ready, ?_, ?_, fun hin => ?_⟩
    · obtain ⟨x, hx, run⟩ := Option.map_eq_some_iff.1 (drainBanks_run rise1 hl1)
      rw [key] at run
      rw [hx, Option.map_some]
      exact congrArg (fun z : Token × Nat × Bool × List (Nat × Bytes) => some (z.2.1, z.2.2.1)) run
    · have q := drainBanks_queued rise1 hl1
      rw [core1] at q
      rw [← blockDone_banks]
      have mb : (blockDone s n r).mb = r.mb + 1 := congrArg (fun z : Token × Nat × Bool × List (Nat × Bytes) => z.2.1) key
      exact fills (by rw [mb, key]; rfl) q
    · exact drainBanks_mem rise1 hl1 ((blockDone_inQueue s n r).trans hin)
  · exact ⟨_, rfl, fills rfl (drainBanks_queued rise hl), by
      obtain ⟨x, hx, run⟩ := Option.map_eq_some_iff.1 (drainBanks_run rise hl)
      rw [hx, Option.map_some]
      exact congrArg (fun z : Token × Nat × Bool × List (Nat × Bytes) => some z.2.1) run, drainBanks_mem rise hl⟩
  · exact ⟨_, rfl, drainBanks_first rise hl hb hm ha he hd hq blink⟩
  · refine ⟨_, plateVisible_exec hq hseen hp, ?_⟩
    rw [if_pos full, veGo_idle (by rw [getCore_setCore_self rise]; exact hve)]
    refine ⟨rfl, ?_⟩
    rw [getCore_setCore_self rise]
  · refine ⟨_, plateVisible_exec hq hseen hp, ?_⟩
    rw [if_neg (by rw [full]; decide)]
  · obtain ⟨reads, waits⟩ := ve_any_or idle
    have ended := endMembers_ended (n := n) (s := stalled s n r) (stalled_rise rise) r (fun _ => .pqStall)
    obtain ⟨none_, ve, stalls, pq⟩ := stalled_ended rise ended
    have ends := endStalled_ends hl full late reads
    generalize endMembers (stalled s n r) n r (fun _ => .pqStall) = x at ve none_ stalls pq ends
    refine ⟨_, rfl, ?_⟩
    show (getCore (veRecheck (endStalled n s) n) n).lpa = none ∧ (veRecheck (endStalled n s) n).cr.pqStalls = _ ∧
      (getCore (veRecheck (endStalled n s) n) n).pq = _
    have stays : (getCore { x with cr := { x.cr with pqStalls := satAdd x.cr.pqStalls 1 } } n).ve.any (·.waiting) = false := by
      show (getCore x n).ve.any (·.waiting) = false
      rw [ve]
      exact waits
    rw [ends, veRecheck_still stays]
    exact ⟨none_, congrArg (satAdd · 1) stalls, pq⟩
  · show Host.Outcome.next (veRecheck (endStalled n s) n) = _
    rw [endStalled_waits hl h, veRecheck_still hstill]
  · refine ⟨_, plateBoundary_exec hp, ?_⟩
    rw [if_pos (lpaPauses_of hl hb empty hm free svc), hl]
    exact vePausedAt_pauses rise
  · obtain ⟨rise1, ends⟩ := completeLpa_ends rise hl hm hb
    obtain ⟨-, ⟨pq, f, v, c0, c1, -, own, -⟩, -⟩ := veRecheck_gone rise1 n
    refine ⟨_, rfl, ?_⟩
    show (getCore (veRecheck (completeLpa s n) n) n).lpa = none
    rw [own]
    exact ends
  · show Host.Outcome.next (veRecheck (completeLpa s n) n) = _
    rw [completeLpa_waits hl hm, veRecheck_still hstill]

end Sys2Proof.Laws
end

section
/-! PROOFS. The tensors of a pass leave its op and its list (R303 to R318). -/

namespace Sys2Proof.Laws

open Sys2Proof Sys2Proof.Machine
set_option Elab.async false

variable {s t : State} {id p i : Nat} {o : NextOp}

/-! ## What a read gives after a write -/

theorem write_stores {r : Reach} {a : Nat} {bs : Bytes} (h : canAccess s r a bs.length = true) (p : Bool) :
    (write s r a bs p).mem = memWrite s.mem a bs p := by
  rw [write, if_pos h]
  rfl

theorem memRead_memWrite_part {M : Mem} (h : Memory.wf M = true) (a : Nat) (bs : Bytes) (p : Bool) {i k : Nat} (hk : i + k ≤ bs.length) :
    memRead (memWrite M a bs p) (a + i) k = (bs.drop i).take k := by
  rw [← memRead_drop_take _ a bs.length i k hk, memRead_memWrite_self h]

theorem memRead_memWrite_apart {M : Mem} (h : Memory.wf M = true) {a b k : Nat} {bs : Bytes} {p : Bool}
    (away : b + k ≤ a ∨ a + bs.length ≤ b) : memRead (memWrite M a bs p) b k = memRead M b k := by
  refine memRead_congr fun i hi => ?_
  rw [memByte_memWrite h, if_neg (by omega)]

theorem canAccess_within {r : Reach} {a n b k : Nat} (h : canAccess s r a n = true) (h0 : 0 < k) (hb : a ≤ b) (hk : b + k ≤ a + n) :
    canAccess s r b k = true := by
  simp only [canAccess, Bool.and_eq_true, List.all_eq_true] at h ⊢
  have line (l : Nat) (hl : l ∈ linesOf b k) : l ∈ linesOf a n := by
    rw [mem_linesOf] at hl ⊢
    omega
  refine ⟨?_, fun l hl => h.2 l (line l hl)⟩
  have own : b / 64 * 64 ∈ linesOf b k := by
    rw [mem_linesOf]
    omega
  rw [← region_line b]
  exact (h.2 _ (line _ own)).2

theorem firstFail_eq_none {l : List Check} : firstFail l = none ↔ ∀ c ∈ l, c = none := by
  induction l with
  | nil => simp [firstFail]
  | cons c l ih => cases c <;> simp [firstFail, ih]

theorem failIf_eq_none {b : Bool} {st : Status} : failIf b st = none ↔ b = false := by
  cases b <;> simp [failIf]

theorem firstFail_isSome {l : List Check} {st : Status} (h : some st ∈ l) : (firstFail l).isSome = true := by
  rw [← Option.ne_none_iff_isSome]
  exact fun hn => absurd (firstFail_eq_none.1 hn _ h) (by simp)

/-- A rounded value of binary64 has 64 bits. -/
theorem sumTo64_lt (u : Nat) : sumTo64 u < 2 ^ 64 := by
  have within (mag : Nat) : (if mag ≥ (2 ^ f64F.eb - 1) <<< f64F.mb then (ffInf f64F false, true) else (ffZero f64F false ||| mag, false)).1 <
      2 ^ 64 := by
    split
    · decide
    next h =>
      have top : (2 ^ f64F.eb - 1) <<< f64F.mb < 2 ^ 64 := by decide
      rw [show ffZero f64F false = 0 from rfl, Nat.zero_or]
      exact Nat.lt_trans (Nat.lt_of_not_le h) top
  show (ffRound f64F false u (-300) false).1 < 2 ^ 64
  rw [ffRound]
  split
  · decide
  · exact within _

/-! ## The op of a pass (R303, R304) -/

/-- The ops in flight of a phase's I/O list. -/
def ioOps (s : State) (id p : Nat) : Option (List IoOp) := (getPhase s id p).map (·.io)

/-- What the tensors of a pass leave: the committed step, the registers of the list, and the ops in flight. -/
def passKey (id p : Nat) (s : State) : BitVec 32 × BitVec 64 × BitVec 32 × Option (List IoOp) :=
  (s.trn.committed, s.muu.listBase, s.muu.listCount, ioOps s id p)

/-- What names a running pass. -/
def passName (r : MuuRun) : Nat × Nat × Nat × Bytes × Nat := (r.stream, r.phase, r.idx, r.desc, r.pass)

theorem getPhase_modPhase_other {j q : Nat} {f : PhaseRun → PhaseRun} (hf : ∀ x, (f x).num = x.num) (h : ¬ (id = j ∧ p = q)) :
    getPhase (modPhase s j q f) id p = getPhase s id p := by
  rw [getPhase, getPhase, modPhase]
  by_cases hid : id = j
  · subst hid
    have other : ¬ p = q := fun hp => h ⟨rfl, hp⟩
    rw [getStream_modStream_self]
    cases getStream s id with
    | none => rfl
    | some r =>
      show (r.running.map (fun x => if x.num = q then f x else x)).find? (·.num == p) = r.running.find? (·.num == p)
      have same : ((fun x : PhaseRun => x.num == p) ∘ fun x => if x.num = q then f x else x) = fun x => x.num == p := by
        funext x
        simp only [Function.comp_apply]
        split
        next h => rw [hf, h]
        next => rfl
      rw [List.find?_map, same]
      cases hx : r.running.find? (·.num == p) with
      | none => rfl
      | some x =>
        have num : x.num = p := by simpa using List.find?_some hx
        rw [Option.map_some, if_neg (by rw [num]; exact other)]
  · rw [getStream_modStream_other _ hid]

/-- A change of a phase that keeps its number and its ops in flight. -/
theorem ioOps_modPhase {j q : Nat} {f : PhaseRun → PhaseRun} (hf : ∀ x, (f x).num = x.num) (hio : ∀ x, (f x).io = x.io) :
    ioOps (modPhase s j q f) id p = ioOps s id p := by
  rw [ioOps, ioOps]
  by_cases h : id = j ∧ p = q
  · obtain ⟨rfl, rfl⟩ := h
    rw [getPhase_modPhase_self hf, Option.map_map]
    exact congrArg (fun g => (getPhase s id p).map g) (funext hio)
  · rw [getPhase_modPhase_other hf h]

theorem passKey_of (trn : t.trn.committed = s.trn.committed) (muu : t.muu.listBase = s.muu.listBase ∧ t.muu.listCount = s.muu.listCount)
    (io : ioOps t id p = ioOps s id p) : passKey id p t = passKey id p s := by
  rw [passKey, trn, muu.1, muu.2, io, passKey]

theorem passKey_of_parts (trn : t.trn = s.trn) (muu : t.muu = s.muu) (cmd : t.cmd = s.cmd) : passKey id p t = passKey id p s :=
  passKey_of (by rw [trn]) ⟨by rw [muu], by rw [muu]⟩ (by rw [ioOps, ioOps, getPhase, getPhase, getStream, getStream, cmd])

theorem passKey_write (s : State) (r : Reach) (a : Nat) (bs : Bytes) (b : Bool) : passKey id p (write s r a bs b) = passKey id p s := by
  rw [write]
  split <;> rfl

theorem passKey_raiseEvent (s : State) (st : Status) (i j : Nat) (d : Bytes) : passKey id p (raiseEvent s st i j d) = passKey id p s :=
  passKey_of_parts (trn_eq (by simp)) (muu_eq (by simp)) (cmd_eq (by simp))

theorem passKey_markRec (s : State) (q : MuuParm) (i : Nat) (st : Status) (k : Nat) : passKey id p (markRec s q i st k) = passKey id p s := by
  have wrote : passKey id p (putRec s q i 122 (leBytes 2 (statusCode st) ++ leBytes 4 k)) = passKey id p s := passKey_write ..
  rw [markRec]
  dsimp only
  generalize putRec s q i 122 (leBytes 2 (statusCode st) ++ leBytes 4 k) = z at wrote ⊢
  exact wrote

theorem markRec_mem (s : State) (q : MuuParm) (i : Nat) (st : Status) (k : Nat) :
    (markRec s q i st k).mem = (putRec s q i 122 (leBytes 2 (statusCode st) ++ leBytes 4 k)).mem := by
  rw [markRec]

theorem passKey_tensorFail (s : State) (a b c : Nat) (st : Status) : passKey id p (tensorFail s a b c st) = passKey id p s :=
  (passKey_raiseEvent ..).trans (passKey_of rfl ⟨rfl, rfl⟩ rfl)

theorem passKey_demandTensor (s : State) (r : MuuRec) (base : Nat) : passKey id p (demandTensor s r base) = passKey id p s :=
  passKey_of_parts (trn_eq (by simp)) (muu_eq (by simp)) (cmd_eq (by simp))

theorem passKey_drawIf (s : State) (b : Bool) (k : Nat) : passKey id p (drawIf b k s) = passKey id p s := by
  rw [drawIf]
  split <;> rfl

/-- Pass one on a tensor leaves its op and its list. -/
theorem passOneTensor_key (x : State × MuuRun) (i : Nat) :
    passKey id p (passOneTensor x i).1 = passKey id p x.1 ∧ passName (passOneTensor x i).2 = passName x.2 := by
  unfold passOneTensor
  extract_lets s r q m e failed
  have fails (a : State) (at_ : Nat) (st : Status) (h : passKey id p a = passKey id p x.1) :
      passKey id p (failed a at_ st).1 = passKey id p x.1 ∧ passName (failed a at_ st).2 = passName x.2 :=
    ⟨(passKey_tensorFail ..).trans ((passKey_markRec ..).trans h), rfl⟩
  split
  · exact ⟨passKey_markRec .., rfl⟩
  · split
    · exact ⟨rfl, rfl⟩
    · split
      · exact ⟨rfl, rfl⟩
      · split
        · exact fails _ _ _ rfl
        · split
          · exact fails _ _ _ rfl
          · extract_lets base d n _ gs ws g64 w64 nf _ ft
            have read : passKey id p d = passKey id p x.1 := passKey_demandTensor ..
            split
            · exact fails _ _ _ read
            · exact ⟨(passKey_markRec ..).trans ((passKey_write ..).trans ((passKey_drawIf ..).trans read)), rfl⟩

theorem passKey_putSlot (s : State) (tid : Nat) (e : SlotEntry) : passKey id p (putSlot s tid e) = passKey id p s :=
  (passKey_write ..).trans (passKey_write ..)

theorem passKey_gradReset (s : State) (r : MuuRec) (step : Nat) : passKey id p (gradReset s r step) = passKey id p s :=
  (passKey_putSlot ..).trans (foldl_keeps (g := passKey id p) (fun _ _ => (passKey_write ..).trans (passKey_write ..)) _ _)

theorem passKey_noteStatus (s : State) (j q : Nat) (st : Status) : passKey id p (noteStatus s j q st) = passKey id p s :=
  passKey_of rfl ⟨rfl, rfl⟩ (ioOps_modPhase (fun x => by (repeat' split) <;> rfl) (fun x => by (repeat' split) <;> rfl))

theorem passKey_noteOverflow (run : MuuRun) (b : Bool) (s : State) : passKey id p (noteOverflow run b s) = passKey id p s := by
  rw [noteOverflow]
  split
  · exact passKey_noteStatus ..
  · rfl

theorem passKey_writeRowTwo (run : MuuRun) (r : MuuRec) (ab cb row : Nat) (vals : List (Nat × Nat)) (s : State) :
    passKey id p (writeRowTwo run r ab cb row vals s) = passKey id p s := by
  unfold writeRowTwo
  extract_lets g master s1 mom s2 s3 copy elems spec outs s4 s5
  have first : passKey id p s5 = passKey id p s := (passKey_noteOverflow ..).trans ((passKey_write ..).trans ((passKey_write ..).trans
    ((passKey_write ..).trans ((passKey_write ..).trans (passKey_write ..)))))
  split
  · exact (foldl_keeps (g := passKey id p) (fun _ _ => passKey_write ..) _ _).trans first
  · exact first

theorem updateTensor_key (s : State) (run : MuuRun) (r : MuuRec) : passKey id p (updateTensor s run r).1 = passKey id p s := by
  have read (e : SlotEntry) (base : Nat) : passKey id p (demandTensor (putSlot s r.tensor e) r base) = passKey id p s :=
    (passKey_demandTensor ..).trans (passKey_putSlot ..)
  dsimp only [updateTensor]
  split
  · rfl
  · split
    · exact read _ _
    · split
      · exact (passKey_drawIf ..).trans (read _ _)
      · exact (passKey_gradReset ..).trans ((passKey_putSlot ..).trans ((foldl_keeps (g := passKey id p) (fun _ _ => passKey_writeRowTwo ..) _ _).trans
          ((passKey_drawIf ..).trans (read _ _))))

theorem passKey_updated (s : State) (w : BitVec 32) : passKey id p { s with muu := { s.muu with updated := w } } = passKey id p s := rfl

theorem passKey_deferrals (s : State) (w : BitVec 32) : passKey id p { s with trn := { s.trn with deferrals := w } } = passKey id p s := rfl

theorem passTwoDone_key (s : State) (run : MuuRun) (i : Nat) (r : MuuRec) (b c : Bool) (st : Option (Status × Nat)) :
    passKey id p (passTwoDone s run i r b c st).1 = passKey id p s ∧ passName (passTwoDone s run i r b c st).2 = passName run := by
  dsimp only [passTwoDone]
  split
  · exact ⟨(passKey_tensorFail ..).trans (passKey_markRec ..), rfl⟩
  · split
    · exact ⟨passKey_markRec .., rfl⟩
    · exact ⟨(passKey_updated ..).trans (passKey_markRec ..), rfl⟩

/-- Pass two on a tensor leaves its op and its list. -/
theorem passTwoTensor_key (x : State × MuuRun) (i : Nat) :
    passKey id p (passTwoTensor x i).1 = passKey id p x.1 ∧ passName (passTwoTensor x i).2 = passName x.2 := by
  have done (s : State) (h : passKey id p s = passKey id p x.1) (r : MuuRec) (b c : Bool) (st : Option (Status × Nat)) :
      passKey id p (passTwoDone s x.2 i r b c st).1 = passKey id p x.1 ∧ passName (passTwoDone s x.2 i r b c st).2 = passName x.2 :=
    ⟨(passTwoDone_key ..).1.trans h, (passTwoDone_key (id := id) (p := p) s x.2 i r b c st).2⟩
  dsimp only [passTwoTensor]
  split
  · exact done _ rfl ..
  · split
    · exact ⟨passKey_markRec .., rfl⟩
    · split
      · exact done _ rfl ..
      · split
        · exact done _ (passKey_gradReset ..) ..
        · split
          · split
            · exact ⟨rfl, rfl⟩
            · refine ⟨?_, rfl⟩
              dsimp only
              split
              · exact (passKey_raiseEvent ..).trans ((passKey_deferrals ..).trans (passKey_write ..))
              · exact (passKey_deferrals ..).trans (passKey_write ..)
          · exact done _ (updateTensor_key ..) ..

/-- A pass over a list of tensors. -/
theorem tensors_key {f : State × MuuRun → Nat → State × MuuRun}
    (h : ∀ x i, passKey id p (f x i).1 = passKey id p x.1 ∧ passName (f x i).2 = passName x.2) (l : List Nat) (x : State × MuuRun) :
    passKey id p (l.foldl f x).1 = passKey id p x.1 ∧ passName (l.foldl f x).2 = passName x.2 :=
  List.foldlRecOn (motive := fun y => passKey id p y.1 = passKey id p x.1 ∧ passName y.2 = passName x.2) l f ⟨rfl, rfl⟩
    fun y hy i _ => ⟨(h y i).1.trans hy.1, (h y i).2.trans hy.2⟩

/-! ## A pass has begun, or has ended -/

/-- Whether an op of a phase's I/O list is in flight or finished. -/
def ioKnown (l : Option (List IoOp)) (i : Nat) : Prop := ∃ ops, l = some ops ∧ ∃ o ∈ ops, o.idx = i

/-- The pass runs, or its op has ended with it. -/
def PassBegun (id p i : Nat) (d : Bytes) (k : Nat) (t : State) : Prop :=
  (∃ r, t.muuRun = some r ∧ r.stream = id ∧ r.phase = p ∧ r.idx = i ∧ r.desc = d ∧ r.pass = k) ∨
    (t.muuRun = none ∧ (getIo t id p i).map (·.finished) = some true)

theorem getIo_ioOps (s : State) (id p i : Nat) : getIo s id p i = (ioOps s id p).bind (fun l => l.find? (·.idx == i)) := by
  rw [getIo, ioOps]
  cases getPhase s id p <;> rfl

theorem endIo_finished {st : Status} (h : ioKnown (ioOps s id p) i) : (getIo (endIo s id p i st) id p i).map (·.finished) = some true := by
  obtain ⟨ops, hops, o, ho, hi⟩ := h
  obtain ⟨ph, hph, rfl⟩ := Option.map_eq_some_iff.1 hops
  rw [getIo, endIo, modIo, getPhase_modPhase_self (f := fun x : PhaseRun => { x with io := x.io.map (fun o => if o.idx = i then
    { o with status := if o.status = .ok then st else o.status, finished := true } else o) }) (fun _ => rfl), hph, Option.map_some, Option.bind_some]
  cases hf : (ph.io.map (fun o => if o.idx = i then { o with status := if o.status = .ok then st else o.status, finished := true } else o)).find?
      (·.idx == i) with
  | some y =>
    have hy := List.mem_of_find?_eq_some hf
    have idx : y.idx = i := by simpa using List.find?_some hf
    obtain ⟨z, hz, rfl⟩ := List.mem_map.1 hy
    have own : z.idx = i := by
      revert idx
      split <;> exact fun h => h
    rw [Option.map_some, if_pos own]
  | none =>
    have := List.find?_eq_none.1 hf _ (List.mem_map_of_mem ho)
    rw [if_pos hi] at this
    exact absurd (beq_iff_eq.2 hi) this

theorem endPass_begun {r : MuuRun} {st : Status} {d : Bytes} {k : Nat} (h : ioKnown (ioOps s id p) i) (hn : passName r = (id, p, i, d, k)) :
    PassBegun id p i d k (endPass s r st) := by
  obtain ⟨hs, hp, hi, -, -⟩ : r.stream = id ∧ r.phase = p ∧ r.idx = i ∧ r.desc = d ∧ r.pass = k := by simpa [passName] using hn
  refine .inr ⟨rfl, ?_⟩
  rw [endPass, hs, hp, hi]
  exact endIo_finished (s := { s with muuRun := none, muu := { s.muu with pass := 0, status := BitVec.ofNat 16 (statusCode st) } }) h

theorem running_begun {r : MuuRun} {d : Bytes} {k : Nat} (h : t.muuRun = some r) (hn : passName r = (id, p, i, d, k)) : PassBegun id p i d k t := by
  obtain ⟨hs, hp, hi, hd, hk⟩ : r.stream = id ∧ r.phase = p ∧ r.idx = i ∧ r.desc = d ∧ r.pass = k := by simpa [passName] using hn
  exact .inl ⟨r, h, hs, hp, hi, hd, hk⟩

theorem ioOps_of_key (h : passKey id p t = passKey id p s) : ioOps t id p = ioOps s id p :=
  congrArg (fun z : BitVec 32 × BitVec 64 × BitVec 32 × Option (List IoOp) => z.2.2.2) h

/-- What a pass leaves, whatever becomes of it: the committed step and the registers of the list. -/
def listKey (s : State) : BitVec 32 × BitVec 64 × BitVec 32 := (s.trn.committed, s.muu.listBase, s.muu.listCount)

theorem listKey_of_key (h : passKey id p t = passKey id p s) : listKey t = listKey s :=
  congrArg (fun z : BitVec 32 × BitVec 64 × BitVec 32 × Option (List IoOp) => (z.1, z.2.1, z.2.2.1)) h

theorem listKey_endPass (s : State) (r : MuuRun) (st : Status) : listKey (endPass s r st) = listKey s := rfl

theorem passOneGo_begun {r0 : MuuRun} {d : Bytes} {k : Nat} (hr : s.muuRun = some r0) (h : ioKnown (ioOps s id p) i)
    (hn : passName r0 = (id, p, i, d, k)) : PassBegun id p i d k (passOneGo s) ∧ listKey (passOneGo s) = listKey s := by
  obtain ⟨key, name⟩ := tensors_key (id := id) (p := p) passOneTensor_key r0.todo (s, r0)
  rw [passOneGo, hr]
  dsimp only
  generalize r0.todo.foldl passOneTensor (s, r0) = x at key name ⊢
  have name' : passName (if x.2.fail.isSome then { x.2 with todo := [] } else x.2) = (id, p, i, d, k) := by
    rw [← hn, ← name]
    split <;> rfl
  generalize (if x.2.fail.isSome then { x.2 with todo := [] } else x.2) = r at name' ⊢
  split
  · have wrote := (passKey_write x.1 .dram ((muuParm r.desc).ng + 128 * (muuParm r.desc).rank) (normEntry r) false).trans key
    generalize write x.1 .dram ((muuParm r.desc).ng + 128 * (muuParm r.desc).rank) (normEntry r) false = w at wrote ⊢
    exact ⟨endPass_begun (by rw [ioOps_of_key wrote]; exact h) name', (listKey_endPass ..).trans (listKey_of_key wrote)⟩
  · exact ⟨running_begun rfl name', listKey_of_key key⟩

theorem passTwoGo_begun {r0 : MuuRun} {d : Bytes} {k : Nat} (hr : s.muuRun = some r0) (h : ioKnown (ioOps s id p) i)
    (hn : passName r0 = (id, p, i, d, k)) : PassBegun id p i d k (passTwoGo s) ∧ listKey (passTwoGo s) = listKey s := by
  obtain ⟨key1, name1⟩ := tensors_key (id := id) (p := p) passTwoTensor_key r0.deferred (s, r0)
  simp only [passTwoGo, hr]
  generalize r0.deferred.foldl passTwoTensor (s, r0) = x1 at key1 name1
  obtain ⟨key2, name2⟩ := tensors_key (id := id) (p := p) passTwoTensor_key x1.2.todo x1
  generalize x1.2.todo.foldl passTwoTensor x1 = x2 at key2 name2
  obtain ⟨key3, name3⟩ := tensors_key (id := id) (p := p) passTwoTensor_key x2.2.deferred x2
  generalize x2.2.deferred.foldl passTwoTensor x2 = x3 at key3 name3
  have key := key3.trans (key2.trans key1)
  have name := (name3.trans (name2.trans name1)).trans hn
  split
  · have wrote := (passKey_write x3.1 .dram (muuParm x3.2.desc).report (stepReport x3.1 x3.2 (x3.2.fail.getD .updateDone)) false).trans key
    generalize write x3.1 .dram (muuParm x3.2.desc).report (stepReport x3.1 x3.2 (x3.2.fail.getD .updateDone)) false = w at wrote ⊢
    exact ⟨endPass_begun (s := { w with trnRun := { w.trnRun with update := none } }) (by rw [← ioOps_of_key wrote] at h; exact h) name,
      (listKey_endPass ..).trans (listKey_of_key wrote)⟩
  · exact ⟨running_begun rfl name, listKey_of_key key⟩

end Sys2Proof.Laws
end

section
/-! PROOFS. A pass over one tensor, combines, and the straggler deadline. -/

namespace Sys2Proof.Laws

open Sys2Proof Sys2Proof.Machine
set_option Elab.async false

variable {s t : State} {id p i : Nat} {o : NextOp} {ph : PhaseRun}

/-! ## The op that asks for a pass (R303) -/

theorem nextIo_phase (h : nextIo s id p = some o) : ∃ ph, getPhase s id p = some ph := by
  rw [nextIo] at h
  split at h
  next _ ph _ hp => exact ⟨ph, hp⟩
  next => exact absurd h (by simp)

theorem muuNext_parts {passes : List Nat} (h : muuNext s id p passes = some o) :
    (∃ ph, getPhase s id p = some ph) ∧ passes.contains (muuParm o.desc).pass = true := by
  obtain ⟨hs, hp⟩ := Option.filter_eq_some_iff.1 h
  rw [startableIo] at hs
  split at hs
  next => exact absurd hs (by simp)
  next o' hn =>
    split at hs
    next => exact ⟨nextIo_phase (Option.some.inj hs ▸ hn), hp⟩
    next => exact absurd hs (by simp)

theorem muuCheckAt_of (hp : getPhase s id p = some ph) : muuCheckAt s id p o = muuCheck (underPhase ph s) o.tok o.desc := by
  rw [muuCheckAt, hp]

theorem withPhase_of (hp : getPhase s id p = some ph) (f : State → State) : withPhase id p f s = withTrn ph f s := by
  rw [withPhase, hp]

theorem muuCheck_busy (h : s.muuRun.isSome = true) (tok : Token) (d : Bytes) : (muuCheck s tok d).isSome = true := by
  refine firstFail_isSome (st := .badField) ?_
  rw [h]
  simp [failIf]

/-- What a passed check says of the places that the passes write. -/
theorem muuCheck_reach {tok : Token} {d : Bytes} (h : muuCheck s tok d = none) :
    canAccess s .dram (muuParm d).recBase (128 * (muuParm d).count) = true ∧
      canAccess s .dram (muuParm d).ng (128 * (muuParm d).members) = true ∧ canAccess s .dram (muuParm d).report 64 = true ∧
      (muuParm d).rank < (muuParm d).members := by
  have all := firstFail_eq_none.1 h
  have places := failIf_eq_none.1 (all _ (by
    exact List.mem_cons_of_mem _ (List.mem_cons_of_mem _ (List.mem_cons_of_mem _ (List.mem_cons_of_mem _ (List.mem_cons_of_mem _
      (List.mem_cons_of_mem _ List.mem_cons_self)))))))
  have fields := failIf_eq_none.1 (all _ (by
    exact List.mem_cons_of_mem _ (List.mem_cons_of_mem _ (List.mem_cons_of_mem _ List.mem_cons_self))))
  simp only [Bool.or_eq_false_iff, Bool.not_eq_false', decide_eq_false_iff_not, Nat.not_le] at places fields
  obtain ⟨⟨⟨list, -⟩, norms⟩, report⟩ := places
  obtain ⟨⟨⟨⟨⟨-, rank⟩, -⟩, -⟩, -⟩, -⟩ := fields
  refine ⟨?_, norms, report, rank⟩
  rw [Machine.read] at list
  split at list
  next h => exact h
  next => simp at list

/-! ## The start of a pass (R303, R304) -/

theorem getPhase_startIo (hp : getPhase s id p = some ph) (o : NextOp) :
    ∃ x, getPhase (startIo s id p o) id p = some x ∧
      x.io = ph.io ++ [{ idx := o.idx, desc := o.desc, status := .ok, finished := false }] := by
  refine ⟨{ ph with ioNext := ph.ioNext + 1, io := ph.io ++ [{ idx := o.idx, desc := o.desc, status := .ok, finished := false }] }, ?_, rfl⟩
  · rw [startIo, getPhase_modPhase_self (f := fun x : PhaseRun => { x with io := x.io ++ [{ idx := o.idx, desc := o.desc, status := .ok, finished := false }] })
      (fun _ => rfl), passIo, getPhase_modPhase_self (f := fun x : PhaseRun => { x with ioNext := x.ioNext + 1 }) (fun _ => rfl), hp]
    rfl

theorem ioKnown_startIo (hp : getPhase s id p = some ph) (o : NextOp) : ioKnown (ioOps (startIo s id p o) id p) o.idx := by
  obtain ⟨x, hx, io⟩ := getPhase_startIo hp o
  exact ⟨x.io, by rw [ioOps, hx]; rfl, _, by rw [io]; exact List.mem_append_right _ List.mem_cons_self, rfl⟩

theorem ioKnown_startPass (hp : getPhase s id p = some ph) (o : NextOp) : ioKnown (ioOps (startPass s id p o) id p) o.idx :=
  ioKnown_startIo hp o

/-- The run that a start leaves. -/
def newPass (s : State) (id p : Nat) (o : NextOp) : MuuRun :=
  { stream := id, phase := p, idx := o.idx, desc := o.desc, pass := (muuParm o.desc).pass, seed := o.tok.seed, rotSeed := o.tok.rotSeed,
    step := o.tok.step % 2 ^ 32,
    deadline := 1000 * max (if le (phaseStep s id p) 24 3 = 0 then bits s.trn.stepCfg.toNat 0 24 else le (phaseStep s id p) 24 3) 1,
    todo := List.range (muuParm o.desc).count, deferred := [], clock := none,
    expired := false, deferrals := 0, lastWrite := 0, updated := 0, failed := 0, acc := 0, nonfinite := false, fail := none,
    halt := none, haltAt := 0 }

theorem startPass_run (s : State) (id p : Nat) (o : NextOp) : (startPass s id p o).muuRun = some (newPass s id p o) := rfl

/-- A start leaves memory and the registers of training. -/
theorem startPass_parts (s : State) (id p : Nat) (o : NextOp) : (startPass s id p o).mem = s.mem ∧ (startPass s id p o).trn = s.trn ∧
    (startPass s id p o).mr = s.mr ∧ listKey (startPass s id p o) = listKey s ∧ (startPass s id p o).muu.decision = s.muu.decision :=
  ⟨rfl, rfl, rfl, rfl, rfl⟩

theorem passKey_excludeMb (s : State) (mb : Nat) : passKey id p (excludeMb s mb) = passKey id p s := by
  rw [excludeMb]
  split
  · have wrote : passKey id p (write (setMbState (releaseAll s mb) mb 3) .dram (mbAddr s mb + 24) (leBytes 2 (statusCode .lateExcluded))) = passKey id p s :=
      passKey_of_parts (trn_eq (by simp)) (muu_eq (by simp)) (cmd_eq (by simp))
    dsimp only
    generalize write (setMbState (releaseAll s mb) mb 3) .dram (mbAddr s mb + 24) (leBytes 2 (statusCode .lateExcluded)) = z at wrote ⊢
    exact wrote
  · rfl

theorem passKey_lateMb (s : State) (mb : Nat) (b : Bool) : passKey id p (lateMb s mb b) = passKey id p s := by
  have wrote : passKey id p (setMbState s mb 2) = passKey id p s := passKey_write ..
  rw [lateMb]
  split
  · dsimp only
    split
    · split
      · exact wrote
      · exact (passKey_excludeMb ..).trans wrote
    · split
      · exact wrote
      · exact (passKey_excludeMb ..).trans wrote
  · rfl

theorem passKey_updateBegins (s : State) (step : Nat) (b : Bool) : passKey id p (updateBegins s step b) = passKey id p s := by
  refine (foldl_keeps (g := passKey id p) (fun a mb => ?_) _ _).trans rfl
  split
  · exact passKey_excludeMb ..
  · split
    · exact passKey_lateMb ..
    · rfl

theorem foldl_still {α : Type} {f : State → α → State} (l : List α) (h : ∀ x ∈ l, f s x = s) : l.foldl f s = s := by
  induction l with
  | nil => rfl
  | cons x l ih =>
    rw [List.foldl_cons, h x List.mem_cons_self]
    exact ih fun y hy => h y (List.mem_cons_of_mem x hy)

/-- The state in which an update has begun. -/
def updateOpen (s : State) (step : Nat) : State :=
  { s with trnRun := { s.trnRun with update := some step, doneMb := smGet 0 s.trnRun.doneBy step, excluded := 0, combined := none } }

/-- Where none of these micro-batches is live, none is excluded or late. -/
theorem lateMbs_quiet (l : List Nat) (h : ∀ mb ∈ l, mbLive s mb = false) (step : Nat) (b : Bool) :
    l.foldl (fun a mb => if mbLive a mb && decide (stepDiff (mbStep a mb) step ≤ -2) && !(mbPins a mb).isEmpty then excludeMb a mb
      else if mbStep a mb = step then lateMb a mb b else a) s = s := by
  refine foldl_still l fun mb hm => ?_
  have late : lateMb s mb b = s := by
    rw [lateMb, (Bool.or_eq_false_iff.1 (h mb hm)).1]
    rfl
  rw [h mb hm, late]
  simp only [Bool.false_and, Bool.false_eq_true, if_false, ite_self]

theorem updateBegins_quiet (h : ∀ mb < 256, mbLive s mb = false) (step : Nat) (b : Bool) : updateBegins s step b = updateOpen s step :=
  lateMbs_quiet (s := updateOpen s step) _ (fun mb hm => h mb (List.mem_range.1 hm)) step b

/-! ## A pass over one tensor -/

/-- What a pass's last write leaves of the record that it has marked, and of the span that it writes. -/
structure Marked (rec at_ : Nat) (body : Bytes) (st : Status) (flags : Nat) (t : State) : Prop where
  status : memLe t (rec + 122) 2 = statusCode st
  flags : memLe t (rec + 124) 4 = flags % 2 ^ 32
  body : memRead t.mem at_ body.length = body

/-- A record that does not overlap a span. -/
def Apart (rec at_ len : Nat) : Prop := rec + 128 ≤ at_ ∨ at_ + len ≤ rec

theorem statusCode_lt (st : Status) : statusCode st < 2 ^ 16 := by cases st <;> decide

theorem canAccess_write {r r' : Reach} {a n b : Nat} {bs : Bytes} {k : Bool} (h : canAccess s r a n = true) :
    canAccess (write s r' b bs k) r a n = true := by
  rw [write]
  split <;> exact h

theorem canAccess_markRec {r : Reach} {a n : Nat} {q : MuuParm} {i : Nat} {st : Status} {k : Nat} (h : canAccess s r a n = true) :
    canAccess (markRec s q i st k) r a n = true := by
  have wrote : canAccess (putRec s q i 122 (leBytes 2 (statusCode st) ++ leBytes 4 k)) r a n = true := canAccess_write h
  rw [markRec]
  generalize putRec s q i 122 (leBytes 2 (statusCode st) ++ leBytes 4 k) = z at wrote ⊢
  exact wrote

/-- A read of the record before the mark, after the last write. -/
theorem memRead_marked (hw : Memory.wf s.mem = true) {q : MuuParm} {body : Bytes} {at_ k n : Nat} (st : Status) (flags : Nat)
    (away : Apart q.recBase at_ body.length) (hk : k + n ≤ 122) :
    memRead (write (markRec s q 0 st flags) .dram at_ body).mem (q.recBase + k) n = memRead s.mem (q.recBase + k) n := by
  have first : memRead (markRec s q 0 st flags).mem (q.recBase + k) n = memRead s.mem (q.recBase + k) n := by
    rw [markRec_mem, putRec, write]
    split
    · exact memRead_memWrite_apart hw (.inl (by omega))
    · rfl
  have wf : Memory.wf (markRec s q 0 st flags).mem = true := by
    rw [markRec_mem]
    exact write_wf hw
  rw [write]
  split
  · refine (memRead_memWrite_apart wf ?_).trans first
    rcases away with h | h
    · exact .inl (by omega)
    · exact .inr (by omega)
  · exact first

theorem marked_write (hw : Memory.wf s.mem = true) {q : MuuParm} {body : Bytes} {at_ : Nat} (st : Status) (flags : Nat)
    (list : canAccess s .dram q.recBase 128 = true) (reach : canAccess s .dram at_ body.length = true) (away : Apart q.recBase at_ body.length) :
    Marked q.recBase at_ body st flags (write (markRec s q 0 st flags) .dram at_ body) := by
  have len : (leBytes 2 (statusCode st) ++ leBytes 4 flags).length = 6 := by simp
  have mark : (markRec s q 0 st flags).mem = memWrite s.mem (q.recBase + 122) (leBytes 2 (statusCode st) ++ leBytes 4 flags) false := by
    rw [markRec_mem, putRec, Nat.mul_zero, Nat.add_zero]
    refine write_stores ?_ false
    rw [len]
    exact canAccess_within list (by omega) (by omega) (by omega)
  have wf : Memory.wf (memWrite s.mem (q.recBase + 122) (leBytes 2 (statusCode st) ++ leBytes 4 flags) false) = true := memWrite_wf hw
  have wrote : (write (markRec s q 0 st flags) .dram at_ body).mem = memWrite (markRec s q 0 st flags).mem at_ body false :=
    write_stores (canAccess_markRec reach) false
  have apart (k n : Nat) (hk : 122 + k + n ≤ 128) : memRead (write (markRec s q 0 st flags) .dram at_ body).mem (q.recBase + 122 + k) n =
      memRead (memWrite s.mem (q.recBase + 122) (leBytes 2 (statusCode st) ++ leBytes 4 flags) false) (q.recBase + 122 + k) n := by
    rw [wrote, mark]
    refine memRead_memWrite_apart wf ?_
    rcases away with h | h
    · exact .inl (by omega)
    · exact .inr (by omega)
  refine ⟨?_, ?_, ?_⟩
  · rw [memLe, ← Nat.add_zero (q.recBase + 122), apart 0 2 (by omega), memRead_memWrite_part hw _ _ _ (by rw [len]; omega), List.drop_zero,
      List.take_left' (leBytes_length ..), leNat_leBytes]
    exact Nat.mod_eq_of_lt (statusCode_lt st)
  · rw [memLe, show q.recBase + 124 = q.recBase + 122 + 2 from rfl, apart 2 4 (by omega), memRead_memWrite_part hw _ _ _ (by rw [len]),
      List.drop_left' (leBytes_length ..), List.take_of_length_le (by simp), leNat_leBytes]
    rfl
  · rw [wrote, mark, memRead_memWrite_self wf]

theorem normEntry_length (r : MuuRun) : (normEntry r).length = 128 := by simp [normEntry, zeroBytes]

theorem normEntry_acc (r : MuuRun) : (normEntry r).take 80 = leBytes 80 r.acc := by
  simp only [normEntry, List.append_assoc]
  exact List.take_left' (leBytes_length ..)

theorem stepReport_length (s : State) (r : MuuRun) (st : Status) : (stepReport s r st).length = 64 := by simp [stepReport, zeroBytes]

theorem stepReport_step (s : State) (r : MuuRun) (st : Status) : (stepReport s r st).take 4 = leBytes 4 r.step := by
  simp only [stepReport, List.append_assoc]
  exact List.take_left' (leBytes_length ..)

section PassOne

variable {r0 : MuuRun}

/-- A pass over one tensor that ends. -/
theorem passOneGo_single {r1 : MuuRun} {s1 : State} (hr : s.muuRun = some r0) (todo : r0.todo = [0]) (one : passOneTensor (s, r0) 0 = (s1, r1))
    (left : r1.todo = []) (ok : r1.fail = none) : passOneGo s =
      endPass (write s1 .dram ((muuParm r1.desc).ng + 128 * (muuParm r1.desc).rank) (normEntry r1)) r1 .ok := by
  rw [passOneGo, hr]
  dsimp only
  rw [todo, List.foldl_cons, List.foldl_nil, one]
  dsimp only
  have same : (if r1.fail.isSome then { r1 with todo := [] } else r1) = r1 := if_neg (by rw [ok]; decide)
  rw [same, left, ok]
  rfl

variable (hslot : slotErr s (muuRec (recAt s (muuParm r0.desc) 0)).tensor = none)

include hslot

/-- R304: a frozen tensor is passed over. -/
theorem passOneTensor_frozen (frozen : (getSlot s (muuRec (recAt s (muuParm r0.desc) 0)).tensor).frozen = true) :
    passOneTensor (s, r0) 0 = (markRec s (muuParm r0.desc) 0 .ok 16, { r0 with todo := r0.todo.filter (· != 0) }) := by
  dsimp only [passOneTensor]
  rw [hslot, frozen]
  rfl

/-- What pass one writes of a tensor beside its status (R307 to R309). -/
def sumBytes (gsq wsq : Nat) (factors : Nat × Nat) (n : Nat) : Bytes :=
  leBytes 8 (sumTo64 gsq) ++ leBytes 8 (sumTo64 wsq) ++ leBytes 4 factors.1 ++ leBytes 4 factors.2 ++ leBytes 2 n

/-- The divisor of a tensor's gradient (R306). -/
def gradDiv (m : MuuRec) (e : SlotEntry) : Nat := if m.noDiv then 1 else max e.contrib 1

/-- The exact sum of squares of the rows of a tensor (R307). -/
def rowSum (m : MuuRec) (row : Nat → List Nat) : Option Nat := (List.range m.rows).foldl (fun x i => sumSquares (row i) x) (some 0)

/-- R305 to R310: a tensor whose state can be read gives its sums. -/
theorem passOneTensor_sums {c gsq wsq : Nat} {m : MuuRec} (hm : muuRec (recAt s (muuParm r0.desc) 0) = m) (frozen : (getSlot s m.tensor).frozen = false)
    (ok : r0.fail = none) (idle : gradBusy s m.tensor = false) (cur : curState s (getSlot s m.tensor) = some c) (errs : s.mr.dramErr = [])
    (grad : gradPoison s.mem m = false) (master : masterPoison s.mem m (stateBase m c) = false) (one : (muuParm r0.desc).count = 1)
    (gs : rowSum m (gradRow s.mem m (gradDiv m (getSlot s m.tensor))) = some gsq) (ws : rowSum m (masterRow s.mem m (stateBase m c)) = some wsq) :
    ∃ factors, passOneTensor (s, r0) 0 =
      (markRec (putRec s (muuParm r0.desc) 0 96 (sumBytes gsq wsq factors (gradDiv m (getSlot s m.tensor)))) (muuParm r0.desc) 0 .ok 0,
       { r0 with todo := r0.todo.filter (· != 0), nonfinite := r0.nonfinite || false, acc := if m.owner then r0.acc + gsq else r0.acc }) := by
  have twice : listedTwice s (muuParm r0.desc) m.tensor = false := by
    rw [listedTwice, one]
    refine decide_eq_false ?_
    have := List.length_filter_le (fun j => (muuRec (recAt s (muuParm r0.desc) j)).tensor == m.tensor) (List.range 1)
    simp only [List.length_range] at this
    omega
  have demand : demandTensor s m (stateBase m c) = s := by
    simp [demandTensor, demandRead, errs]
  rw [hm] at hslot
  refine ⟨muuFactors m (muuConst (memRead s.mem (muuParm r0.desc).consts 64)) (sumTo64 gsq) (sumTo64 wsq), ?_⟩
  have gs' : (List.range m.rows).foldl (fun a row => sumSquares (gradRow s.mem m (if m.noDiv then 1 else max (getSlot s m.tensor).contrib 1) row) a)
    (some 0) = some gsq := gs
  have ws' : (List.range m.rows).foldl (fun a row => sumSquares (masterRow s.mem m (stateBase m c) row) a) (some 0) = some wsq := ws
  dsimp only [passOneTensor]
  rw [hm, hslot, frozen, ok, idle]
  dsimp only [Option.isNone_none, Option.isSome_none, Bool.true_and]
  rw [if_neg (by decide), if_neg (by decide), if_neg (by decide), cur]
  dsimp only
  rw [demand, grad, master, twice]
  simp only [Bool.or_self, Bool.false_eq_true, if_false, gs', ws']
  rfl

end PassOne

/-- The state in which no update is open. -/
def updateClosed (s : State) : State := { s with trnRun := { s.trnRun with update := none } }

/-- What pass two leaves once nothing is left (R318). -/
def passTwoEnd (s : State) (r : MuuRun) : State :=
  endPass (updateClosed (write s .dram (muuParm r.desc).report (stepReport s r (r.fail.getD .updateDone)))) r (r.fail.getD .updateDone)

section PassTwo

variable {r0 : MuuRun}

/-- A pass two with nothing left ends. -/
theorem passTwoGo_empty (hr : s.muuRun = some r0) (todo : r0.todo = []) (deferred : r0.deferred = []) : passTwoGo s = passTwoEnd s r0 := by
  rw [passTwoGo, hr]
  dsimp only
  rw [deferred, List.foldl_nil]
  dsimp only
  rw [todo, List.foldl_nil]
  dsimp only
  rw [deferred, List.foldl_nil]
  dsimp only
  rw [todo, deferred]
  rfl

/-- A pass two over one tensor that ends. -/
theorem passTwoGo_single {r1 : MuuRun} {s1 : State} (hr : s.muuRun = some r0) (todo : r0.todo = [0]) (deferred : r0.deferred = [])
    (one : passTwoTensor (s, r0) 0 = (s1, r1)) (left : r1.todo = [] ∧ r1.deferred = []) : passTwoGo s = passTwoEnd s1 r1 := by
  rw [passTwoGo, hr]
  dsimp only
  rw [deferred, List.foldl_nil]
  dsimp only
  rw [todo, List.foldl_cons, List.foldl_nil, one]
  dsimp only
  rw [left.2, List.foldl_nil]
  dsimp only
  rw [left.1, left.2]
  rfl

variable (hslot : slotErr s (muuRec (recAt s (muuParm r0.desc) 0)).tensor = none)

include hslot

/-- R304: a frozen tensor is passed over. -/
theorem passTwoTensor_frozen (frozen : (getSlot s (muuRec (recAt s (muuParm r0.desc) 0)).tensor).frozen = true) :
    passTwoTensor (s, r0) 0 =
      (markRec s (muuParm r0.desc) 0 .ok 16, { r0 with todo := r0.todo.filter (· != 0), deferred := r0.deferred.filter (· != 0) }) := by
  dsimp only [passTwoTensor]
  rw [hslot, frozen]
  rfl

/-- R312: where the decision is another than UPDATE the gradient is reset and the tensor is done. -/
theorem passTwoTensor_skips {m : MuuRec} (hm : muuRec (recAt s (muuParm r0.desc) 0) = m) (frozen : (getSlot s m.tensor).frozen = false)
    (halt : r0.halt = none) (deferred : r0.deferred = []) (skip : s.muu.decision ≠ 1) :
    passTwoTensor (s, r0) 0 = (markRec (gradReset s m r0.step) (muuParm r0.desc) 0 .ok (m.tflags % 2),
      { r0 with todo := r0.todo.filter (· != 0), deferred := r0.deferred.filter (· != 0), lastWrite := r0.lastWrite }) := by
  have differs : (s.muu.decision != 1) = true := by simpa using skip
  have halts : r0.halt.isSome = false := by rw [halt]; rfl
  have waited : r0.deferred.contains 0 = false := by rw [deferred]; rfl
  rw [hm] at hslot
  dsimp only [passTwoTensor]
  rw [hm, hslot, frozen, halts, waited, differs]
  rfl

end PassTwo

theorem gradReset_reach {r : Reach} {a n : Nat} (m : MuuRec) (step : Nat) (h : canAccess s r a n = true) :
    canAccess (gradReset s m step) r a n = true := by
  have zeros : canAccess (zeroGrad s m) r a n = true :=
    List.foldlRecOn (motive := fun x => canAccess x r a n = true) _ _ h fun x hx k _ => canAccess_write (canAccess_write hx)
  exact canAccess_write (canAccess_write zeros)

theorem gradReset_wf (hw : Memory.wf s.mem = true) (m : MuuRec) (step : Nat) : Memory.wf (gradReset s m step).mem = true := by
  have zeros : Memory.wf (zeroGrad s m).mem = true :=
    List.foldlRecOn (motive := fun x : State => Memory.wf x.mem = true) _ _ hw fun x hx k _ => write_wf (write_wf hx)
  exact write_wf (write_wf zeros)

/-- R318: the end of a pass two over a tensor that it has marked. -/
theorem passTwoEnd_marked {r : MuuRun} {flags : Nat} (hw : Memory.wf s.mem = true) (ok : r.fail = none)
    (list : canAccess s .dram (muuParm r.desc).recBase 128 = true) (reach : canAccess s .dram (muuParm r.desc).report 64 = true)
    (away : Apart (muuParm r.desc).recBase (muuParm r.desc).report 64) :
    let t := passTwoEnd (markRec s (muuParm r.desc) 0 .ok flags) r
    t.muuRun = none ∧ t.muu.status.toNat = statusCode .updateDone ∧ memLe t ((muuParm r.desc).recBase + 124) 4 = flags % 2 ^ 32 ∧
      memLe t (muuParm r.desc).report 4 = r.step % 2 ^ 32 := by
  have len := stepReport_length (markRec s (muuParm r.desc) 0 .ok flags) r (r.fail.getD .updateDone)
  have head := stepReport_step (markRec s (muuParm r.desc) 0 .ok flags) r (r.fail.getD .updateDone)
  intro t
  have status : t.muu.status = BitVec.ofNat 16 (statusCode (r.fail.getD .updateDone)) := rfl
  rw [← len] at reach away
  obtain ⟨-, marks, body⟩ := marked_write hw .ok flags list reach away
  have mem : t.mem = (write (markRec s (muuParm r.desc) 0 .ok flags) .dram (muuParm r.desc).report
    (stepReport (markRec s (muuParm r.desc) 0 .ok flags) r (r.fail.getD .updateDone))).mem := rfl
  refine ⟨rfl, ?_, ?_, ?_⟩
  · rw [status, ok]
    rfl
  · rw [memLe, mem]
    exact marks
  · have read := memRead_drop_take t.mem (muuParm r.desc).report 64 0 4 (by decide)
    rw [Nat.add_zero] at read
    rw [memLe, ← read, mem, List.drop_zero]
    rw [len] at body
    rw [body, head, leNat_leBytes]
    rfl

/-! ## The passes as commands -/

section Passes

variable {sid : StreamId} {pn : PhaseNo}

/-- The registers of the list that a pass one takes (R304). -/
def listBaseOf (s : State) (q : MuuParm) : BitVec 64 := wrField s.muu.listBase q.recBase 7 41

def listCountOf (s : State) (q : MuuParm) : BitVec 32 := wrField s.muu.listCount q.count 0 21

/-- A state with these registers. -/
def listSet (s : State) (base : BitVec 64) (count : BitVec 32) : State := { s with muu := { s.muu with listBase := base, listCount := count } }

/-- The state in which a pass one begins. -/
def passOneStart (s : State) (id p : Nat) (o : NextOp) (late : Bool) : State :=
  let s1 := updateBegins (startPass s id p o) (o.tok.step % 2 ^ 32) late
  listSet s1 (listBaseOf s1 (muuParm o.desc)) (listCountOf s1 (muuParm o.desc))

theorem muuPassOne_exec (hn : muuNext s sid.toNat pn.toNat [0, 1] = some o) (hc : muuCheckAt s sid.toNat pn.toNat o = none) :
    exec (.muuPassOne (.io sid pn)) s = .next (withPhase sid.toNat pn.toNat (fun a =>
      passOneGo (passOneStart a sid.toNat pn.toNat o (flag (phaseStep s sid.toNat pn.toNat) 27 0))) s) := by
  show execMuuPassOne (.io sid pn) s = _
  simp only [execMuuPassOne, hn, hc]
  rfl

theorem muuPassOne_rejects {st : Status} (hn : muuNext s sid.toNat pn.toNat [0, 1] = some o) (hc : muuCheckAt s sid.toNat pn.toNat o = some st) :
    exec (.muuPassOne (.io sid pn)) s = .next (rejectIo s sid.toNat pn.toNat o st) := by
  show execMuuPassOne (.io sid pn) s = _
  simp only [execMuuPassOne, hn, hc]

theorem muuPassTwo_exec (hn : muuNext s sid.toNat pn.toNat [3] = some o) (hc : muuCheckAt s sid.toNat pn.toNat o = none) :
    exec (.muuPassTwo (.io sid pn)) s = .next (withPhase sid.toNat pn.toNat (fun a => passTwoGo (startPass a sid.toNat pn.toNat o)) s) := by
  show execMuuPassTwo (.io sid pn) s = _
  simp only [execMuuPassTwo, hn, hc]

theorem muuPassTwo_rejects {st : Status} (hn : muuNext s sid.toNat pn.toNat [3] = some o) (hc : muuCheckAt s sid.toNat pn.toNat o = some st) :
    exec (.muuPassTwo (.io sid pn)) s = .next (rejectIo s sid.toNat pn.toNat o st) := by
  show execMuuPassTwo (.io sid pn) s = _
  simp only [execMuuPassTwo, hn, hc]

theorem muuCombine_rejects {st : Status} (hn : muuNext s sid.toNat pn.toNat [2] = some o) (hc : muuCheckAt s sid.toNat pn.toNat o = some st) :
    exec (.muuCombine (.io sid pn)) s = .next (rejectIo s sid.toNat pn.toNat o st) := by
  show execMuuCombine (.io sid pn) s = _
  simp only [execMuuCombine, hn, hc]

/-- The outcome of the combine at `o` (R311). -/
def combineAt (s : State) (o : NextOp) : Status × Nat × Nat :=
  combineOf s (muuParm o.desc) (o.tok.step % 2 ^ 32) (muuConst (memRead s.mem (muuParm o.desc).consts 64)).skip

/-- The state that a combine leaves before its op ends. -/
def combineEnd (s : State) (id p : Nat) (o : NextOp) : State :=
  if (combineAt s o).2.2 ≠ 0 then combined (startIo s id p o) (o.tok.step % 2 ^ 32) (combineAt s o) else startIo s id p o

theorem muuCombine_exec (hn : muuNext s sid.toNat pn.toNat [2] = some o) (hc : muuCheckAt s sid.toNat pn.toNat o = none) :
    exec (.muuCombine (.io sid pn)) s = .next (endIo (combineEnd s sid.toNat pn.toNat o) sid.toNat pn.toNat o.idx (combineAt s o).1) := by
  show execMuuCombine (.io sid pn) s = _
  simp only [execMuuCombine, hn, hc]
  rfl

/-- A rejected op leaves memory and the MUUs. -/
theorem rejectIo_leaves (s : State) (id p : Nat) (o : NextOp) (st : Status) :
    (rejectIo s id p o st).mem = s.mem ∧ (rejectIo s id p o st).muu = s.muu ∧ (rejectIo s id p o st).muuRun = s.muuRun :=
  ⟨mem_eq (by simp), muu_eq (by simp), muuRun_eq (by simp)⟩

/-- R311: a combine that decides sets its registers; one that ends early sets none. -/
theorem combineEnd_parts (hp : getPhase s id p = some ph) (o : NextOp) :
    ioKnown (ioOps (combineEnd s id p o) id p) o.idx ∧ (combineEnd s id p o).mem = s.mem ∧
      ((combineAt s o).2.2 ≠ 0 → (combineEnd s id p o).muu.status.toNat = statusCode .ok ∧ (combineEnd s id p o).muu.step.toNat = o.tok.step % 2 ^ 32 ∧
        (combineEnd s id p o).muu.gnorm = BitVec.ofNat 32 (combineAt s o).2.1 ∧ (combineEnd s id p o).muu.decision = BitVec.ofNat 2 (combineAt s o).2.2) ∧
      ((combineAt s o).2.2 = 0 → (combineEnd s id p o).muu = s.muu) := by
  have known := ioKnown_startIo hp o
  rw [combineEnd]
  split
  next h =>
    refine ⟨known, rfl, fun _ => ⟨rfl, ?_, rfl, rfl⟩, fun h0 => absurd h0 h⟩
    show (BitVec.ofNat 32 (o.tok.step % 2 ^ 32)).toNat = _
    rw [BitVec.toNat_ofNat, Nat.mod_mod]
  next h => exact ⟨known, rfl, fun h0 => absurd h0 h, fun _ => rfl⟩

end Passes

/-! ## The straggler deadline (R279) -/

/-- What the exclusion of micro-batches leaves. -/
def excludeKey (s : State) : Option MuuRun × BitVec 32 × BitVec 32 := (s.muuRun, s.trn.expiries, s.trn.committed)

theorem excludeKey_of_parts (run : t.muuRun = s.muuRun) (trn : t.trn = s.trn) : excludeKey t = excludeKey s := by
  rw [excludeKey, run, trn, excludeKey]

theorem excludeKey_excludeMb (s : State) (mb : Nat) : excludeKey (excludeMb s mb) = excludeKey s := by
  rw [excludeMb]
  split
  · have wrote : excludeKey (write (setMbState (releaseAll s mb) mb 3) .dram (mbAddr s mb + 24) (leBytes 2 (statusCode .lateExcluded))) = excludeKey s :=
      excludeKey_of_parts (muuRun_eq (by simp)) (trn_eq (by simp))
    dsimp only
    generalize write (setMbState (releaseAll s mb) mb 3) .dram (mbAddr s mb + 24) (leBytes 2 (statusCode .lateExcluded)) = z at wrote ⊢
    exact wrote
  · rfl

theorem excludeKey_excludePinning (s : State) (r : MuuRun) : excludeKey (excludePinning s r) = excludeKey s := by
  refine foldl_keeps (g := excludeKey) (fun a mb => ?_) _ _
  split
  · exact excludeKey_excludeMb ..
  · rfl

theorem excludeKey_withPhase {f : State → State} (hf : ∀ a, excludeKey (f a) = excludeKey a) (id p : Nat) (s : State) :
    excludeKey (withPhase id p f s) = excludeKey s := by
  rw [withPhase]
  split
  next ph _ => exact hf (underPhase ph s)
  next => exact hf s

/-- The state in which the deadline has been counted once. -/
def expire (s : State) (r : MuuRun) : State :=
  if r.expired then s else { s with trn := { s.trn with expiries := satAdd s.trn.expiries 1 }, muuRun := some { r with expired := true } }

theorem straggler_exec {r : MuuRun} {c : Nat} (hr : s.muuRun = some r) (hc : r.clock = some c) : exec .stragglerDeadline s = .next
    (if c + r.deadline ≤ s.nowNs then withPhase r.stream r.phase (fun a => excludePinning a r) (expire s r) else s) := by
  show execStragglerDeadline s = _
  rw [execStragglerDeadline, hr]
  dsimp only
  split
  next h => exact absurd (hc.symm.trans h) (by simp)
  next d h =>
    obtain rfl : c = d := Option.some.inj (hc.symm.trans h)
    split <;> rfl

theorem deferralRecheck_exec {r : MuuRun} (hr : s.muuRun = some r) : exec .deferralRecheck s = .next
    (if r.pass = 3 then withPhase r.stream r.phase passTwoGo s else s) := by
  show execDeferralRecheck s = _
  rw [execDeferralRecheck, hr]
  dsimp only
  split <;> rfl

/-! ## Pass one on one tensor, and pass two (R305 to R318) -/

section Alone

variable (hw : Memory.wf s.mem = true) (hc : muuCheck s o.tok o.desc = none)

/-- The record of the one tensor of a list. -/
def soleRec (s : State) (o : NextOp) : MuuRec := muuRec (recAt s (muuParm o.desc) 0)

/-- The list holds one tensor, whose entry can be read, and its record lies apart from a span. -/
structure Sole (s : State) (o : NextOp) (at_ len : Nat) : Prop where
  count : (muuParm o.desc).count = 1
  slot : slotErr s (soleRec s o).tensor = none
  apart : Apart (muuParm o.desc).recBase at_ len

/-- What pass one has written of the one tensor of its list. -/
structure PassOneWrote (q : MuuParm) (flags acc : Nat) (t : State) : Prop where
  run : t.muuRun = none
  status : memLe t (q.recBase + 122) 2 = statusCode .ok
  flags : memLe t (q.recBase + 124) 4 = flags
  acc : memRead t.mem (q.ng + 128 * q.rank) 80 = leBytes 80 acc

/-- The state in which pass one begins has the memory, the slot table and the bindings of the state before. -/
structure SameSlots (s t : State) : Prop where
  mem : t.mem = s.mem
  slots : ∀ tid, slotErr t tid = slotErr s tid ∧ getSlot t tid = getSlot s tid
  current : ∀ e, curState t e = curState s e
  live : ∀ mb, mbLive t mb = mbLive s mb
  reach : ∀ r a n, canAccess t r a n = canAccess s r a n
  errs : t.mr.dramErr = s.mr.dramErr

theorem SameSlots.of_parts (mem : t.mem = s.mem) (trn : t.trn = s.trn) (mr : t.mr = s.mr) (same : ground t = ground s) : SameSlots s t where
  mem := mem
  slots tid := by
    have addr : slotAddr t tid = slotAddr s tid := by rw [slotAddr, slotAddr, slotTab, slotTab, trn]
    constructor
    · rw [slotErr, slotErr, trnEn, trnEn, slotTabLen, slotTabLen, trn, addr, read_of_ground same mem (by rw [mr])]
    · rw [getSlot, getSlot, addr, mem]
  current e := by rw [curState, curState, curSlot, curSlot, committedStep, committedStep, trn]
  live mb := by
    have addr : mbAddr t mb = mbAddr s mb := by rw [mbAddr, mbAddr, trn]
    rw [mbLive, mbLive, mbState, mbState, mbRec, mbRec, mbOk, mbOk, addr, mem, read_of_ground same mem (by rw [mr])]
  reach := canAccess_of_ground same
  errs := by rw [mr]

theorem SameSlots.trans {u : State} (h : SameSlots s t) (k : SameSlots t u) : SameSlots s u :=
  ⟨k.mem.trans h.mem, fun tid => ⟨(k.slots tid).1.trans (h.slots tid).1, (k.slots tid).2.trans (h.slots tid).2⟩,
    fun e => (k.current e).trans (h.current e), fun mb => (k.live mb).trans (h.live mb), fun r a n => (k.reach r a n).trans (h.reach r a n), k.errs.trans h.errs⟩

theorem sameSlots_startPass (s : State) (id p : Nat) (o : NextOp) : SameSlots s (startPass s id p o) :=
  .of_parts rfl rfl rfl (ground_of_parts rfl rfl rfl rfl (fun _ => ⟨rfl, rfl⟩) rfl)

theorem sameSlots_listSet (s : State) (step : Nat) (base : BitVec 64) (count : BitVec 32) : SameSlots s (listSet (updateOpen s step) base count) :=
  .of_parts rfl rfl rfl (ground_of_parts rfl rfl rfl rfl (fun _ => ⟨rfl, rfl⟩) rfl)

/-- The state in which pass one begins on a module without live micro-batches. -/
theorem passOneStart_quiet (h : ∀ mb < 256, mbLive s mb = false) (id p : Nat) (o : NextOp) (late : Bool) :
    ∃ base count, passOneStart s id p o late = listSet (updateOpen (startPass s id p o) (o.tok.step % 2 ^ 32)) base count := by
  refine ⟨listBaseOf (updateOpen (startPass s id p o) (o.tok.step % 2 ^ 32)) (muuParm o.desc),
    listCountOf (updateOpen (startPass s id p o) (o.tok.step % 2 ^ 32)) (muuParm o.desc), ?_⟩
  have quiet : ∀ mb < 256, mbLive (startPass s id p o) mb = false := fun mb hm => ((sameSlots_startPass s id p o).live mb).trans (h mb hm)
  rw [passOneStart, updateBegins_quiet quiet]

include hw in
/-- The end of a pass one whose one tensor has been marked. -/
theorem passOne_marked {r : MuuRun} {flags : Nat} {q : MuuParm} (hq : muuParm r.desc = q) (list : canAccess s .dram q.recBase 128 = true)
    (reach : canAccess s .dram (q.ng + 128 * q.rank) 128 = true) (away : Apart q.recBase (q.ng + 128 * q.rank) 128) (small : flags < 2 ^ 32) :
    PassOneWrote q flags r.acc (endPass (write (markRec s q 0 .ok flags) .dram ((muuParm r.desc).ng + 128 * (muuParm r.desc).rank) (normEntry r)) r .ok) ∧
      ∀ k n, k + n ≤ 122 →
        memRead (endPass (write (markRec s q 0 .ok flags) .dram ((muuParm r.desc).ng + 128 * (muuParm r.desc).rank) (normEntry r)) r .ok).mem
          (q.recBase + k) n = memRead s.mem (q.recBase + k) n := by
  have len := normEntry_length r
  have head := normEntry_acc r
  rw [hq]
  generalize normEntry r = body at len head
  have reach' : canAccess s .dram (q.ng + 128 * q.rank) body.length = true := by rw [len]; exact reach
  have away' : Apart q.recBase (q.ng + 128 * q.rank) body.length := by rw [len]; exact away
  obtain ⟨status, marks, own⟩ := marked_write hw .ok flags list reach' away'
  have mem : (endPass (write (markRec s q 0 .ok flags) .dram (q.ng + 128 * q.rank) body) r .ok).mem =
    (write (markRec s q 0 .ok flags) .dram (q.ng + 128 * q.rank) body).mem := rfl
  have run : (endPass (write (markRec s q 0 .ok flags) .dram (q.ng + 128 * q.rank) body) r .ok).muuRun = none := rfl
  have rest := fun k n (hk : k + n ≤ 122) => memRead_marked hw (q := q) (body := body) (at_ := q.ng + 128 * q.rank) .ok flags away' hk
  generalize endPass (write (markRec s q 0 .ok flags) .dram (q.ng + 128 * q.rank) body) r .ok = t at mem run
  generalize write (markRec s q 0 .ok flags) .dram (q.ng + 128 * q.rank) body = w at mem status marks own rest
  refine ⟨⟨run, ?_, ?_, ?_⟩, fun k n hk => by rw [mem]; exact rest k n hk⟩
  · rw [memLe, mem]
    exact status
  · rw [memLe, mem]
    exact marks.trans (Nat.mod_eq_of_lt small)
  · have read := memRead_drop_take t.mem (q.ng + 128 * q.rank) body.length 0 80 (by rw [len]; decide)
    rw [Nat.add_zero] at read
    rw [← read, mem, List.drop_zero, own, head]

theorem gradBusy_of_cmd (h : t.cmd = s.cmd) (tid : Nat) : gradBusy t tid = gradBusy s tid := by rw [gradBusy, gradBusy, h]

theorem gradBusy_of_streams {s t : State} {g : Nat → StreamRun → StreamRun} (h : t.cmd.streams = s.cmd.streams.map (fun p => (p.1, g p.1 p.2)))
    (hg : ∀ k r, (g k r).running.map (·.binds) = r.running.map (·.binds)) (tid : Nat) : gradBusy t tid = gradBusy s tid := by
  have binds (r : StreamRun) : r.running.any (fun ph => ph.binds.any (fun b => (bindingOf b).kind == 2 && (bindingOf b).tensor == tid)) =
      (r.running.map (·.binds)).any (fun l => l.any (fun b => (bindingOf b).kind == 2 && (bindingOf b).tensor == tid)) := by
    rw [List.any_map]
    rfl
  rw [gradBusy, gradBusy, h, List.any_map]
  refine congrArg (s.cmd.streams.any) (funext fun x => ?_)
  show (g x.1 x.2).running.any _ = _
  rw [binds, hg, ← binds]

theorem gradBusy_modPhase {f : PhaseRun → PhaseRun} (hf : ∀ x, (f x).binds = x.binds) (s : State) (id p tid : Nat) :
    gradBusy (modPhase s id p f) tid = gradBusy s tid := by
  refine gradBusy_of_streams (modStream_streams s id _) (fun k r => ?_) tid
  rw [atStream]
  split
  · show (r.running.map (fun x => if x.num = p then f x else x)).map (·.binds) = _
    rw [List.map_map]
    refine List.map_congr_left fun x _ => ?_
    simp only [Function.comp_apply]
    split
    · exact hf x
    · rfl
  · rfl

theorem gradBusy_startIo (s : State) (id p : Nat) (o : NextOp) (tid : Nat) : gradBusy (startIo s id p o) tid = gradBusy s tid :=
  (gradBusy_modPhase (f := fun x => { x with io := x.io ++ [{ idx := o.idx, desc := o.desc, status := .ok, finished := false }] }) (fun _ => rfl) ..).trans
    (gradBusy_modPhase (f := fun x => { x with ioNext := x.ioNext + 1 }) (fun _ => rfl) ..)

include hc

/-- Where pass one writes is within reach. -/
theorem sole_reach {at_ len : Nat} (sole : Sole s o at_ len) :
    canAccess s .dram (muuParm o.desc).recBase 128 = true ∧
      canAccess s .dram ((muuParm o.desc).ng + 128 * (muuParm o.desc).rank) 128 = true ∧ canAccess s .dram (muuParm o.desc).report 64 = true := by
  obtain ⟨list, norms, report, rank⟩ := muuCheck_reach hc
  rw [sole.count] at list
  exact ⟨list, canAccess_within norms (by omega) (by omega) (by omega), report⟩

omit hc in
/-- What a pass one begins with where its list holds one tensor. -/
theorem passOneStart_sole (live : ∀ mb < 256, mbLive s mb = false) {at_ len : Nat} (sole : Sole s o at_ len) (id p : Nat) (late : Bool) :
    ∃ t, passOneStart s id p o late = t ∧ SameSlots s t ∧ t.muuRun = some (newPass s id p o) ∧ (newPass s id p o).todo = [0] ∧
      (∀ tid, gradBusy t tid = gradBusy s tid) := by
  obtain ⟨base, count, quiet⟩ := passOneStart_quiet live id p o late
  refine ⟨_, quiet, (sameSlots_startPass s id p o).trans (sameSlots_listSet ..), rfl, ?_,
    fun tid => (gradBusy_of_cmd (s := startIo s id p o) rfl tid).trans (gradBusy_startIo s id p o tid)⟩
  show List.range (muuParm o.desc).count = [0]
  rw [sole.count]
  rfl

include hw

/-- R304: a frozen tensor is passed over. -/
theorem passOne_frozen (live : ∀ mb < 256, mbLive s mb = false) (sole : Sole s o ((muuParm o.desc).ng + 128 * (muuParm o.desc).rank) 128)
    (frozen : (getSlot s (soleRec s o).tensor).frozen = true) (id p : Nat) (late : Bool) :
    PassOneWrote (muuParm o.desc) 16 0 (passOneGo (passOneStart s id p o late)) := by
  obtain ⟨list, norms, -⟩ := sole_reach hc sole
  obtain ⟨t, start, same, run, todo, -⟩ := passOneStart_sole live sole id p late
  rw [start]
  have rec0 : muuRec (recAt t (muuParm (newPass s id p o).desc) 0) = soleRec s o := by
    rw [recAt, same.mem]
    rfl
  have one := passOneTensor_frozen (s := t) (r0 := newPass s id p o) (by rw [rec0, (same.slots _).1]; exact sole.slot)
    (by rw [rec0, (same.slots _).2]; exact frozen)
  rw [todo] at one
  rw [passOneGo_single run todo one rfl rfl]
  exact (passOne_marked (s := t) (r := { newPass s id p o with todo := [0].filter (· != 0) }) (q := muuParm o.desc) (by rw [same.mem]; exact hw) rfl
    (by rw [same.reach]; exact list) (by rw [same.reach]; exact norms) sole.apart (by decide)).1

/-- R305 to R310: the sums of a tensor whose state can be read. -/
theorem passOne_sums (live : ∀ mb < 256, mbLive s mb = false) (sole : Sole s o ((muuParm o.desc).ng + 128 * (muuParm o.desc).rank) 128)
    {c gsq wsq : Nat} (frozen : (getSlot s (soleRec s o).tensor).frozen = false) (cur : curState s (getSlot s (soleRec s o).tensor) = some c)
    (idle : gradBusy s (soleRec s o).tensor = false) (grad : gradPoison s.mem (soleRec s o) = false)
    (master : masterPoison s.mem (soleRec s o) (stateBase (soleRec s o) c) = false) (errs : s.mr.dramErr = [])
    (gs : rowSum (soleRec s o) (gradRow s.mem (soleRec s o) (gradDiv (soleRec s o) (getSlot s (soleRec s o).tensor))) = some gsq)
    (ws : rowSum (soleRec s o) (masterRow s.mem (soleRec s o) (stateBase (soleRec s o) c)) = some wsq) (id p : Nat) (late : Bool) :
    let q := muuParm o.desc
    let t := passOneGo (passOneStart s id p o late)
    PassOneWrote q 0 (if (soleRec s o).owner then gsq else 0) t ∧ memLe t (q.recBase + 96) 8 = sumTo64 gsq ∧
      memLe t (q.recBase + 104) 8 = sumTo64 wsq ∧ memLe t (q.recBase + 120) 2 = gradDiv (soleRec s o) (getSlot s (soleRec s o).tensor) := by
  obtain ⟨list, norms, -⟩ := sole_reach hc sole
  obtain ⟨t, start, same, run, todo, busy⟩ := passOneStart_sole live sole id p late
  intro q
  rw [start]
  have rec0 : muuRec (recAt t (muuParm (newPass s id p o).desc) 0) = soleRec s o := by
    rw [recAt, same.mem]
    rfl
  have slot := (same.slots (soleRec s o).tensor).2
  have small : gradDiv (soleRec s o) (getSlot s (soleRec s o).tensor) < 2 ^ 16 := by
    have : (getSlot s (soleRec s o).tensor).contrib < 256 ^ 2 := le_lt _ 20 2
    rw [gradDiv]
    split <;> omega
  rw [← same.mem] at grad master gs ws hw
  rw [← slot] at frozen cur gs small ⊢
  rw [← same.current] at cur
  rw [← same.errs] at errs
  rw [← busy] at idle
  obtain ⟨f, one⟩ := passOneTensor_sums (s := t) (r0 := newPass s id p o) (by rw [rec0, (same.slots _).1]; exact sole.slot) rec0 frozen rfl idle cur errs
    grad master sole.count gs ws
  generalize gradDiv (soleRec s o) (getSlot t (soleRec s o).tensor) = div at one small ⊢
  have len : (sumBytes gsq wsq f div).length = 26 := by simp [sumBytes]
  have listed : canAccess s .dram q.recBase 128 = true := list
  have put : (putRec t q 0 96 (sumBytes gsq wsq f div)).mem = memWrite t.mem (q.recBase + 96) (sumBytes gsq wsq f div) false := by
    show (write t .dram (q.recBase + 128 * 0 + 96) (sumBytes gsq wsq f div)).mem = _
    rw [Nat.mul_zero, Nat.add_zero]
    refine write_stores ?_ false
    rw [same.reach, len]
    exact canAccess_within listed (by omega) (by omega) (by omega)
  have reach {a n : Nat} (h : canAccess s .dram a n = true) : canAccess (putRec t q 0 96 (sumBytes gsq wsq f div)) .dram a n = true :=
    canAccess_write (by rw [same.reach]; exact h)
  rw [todo] at one
  have desc : muuParm (newPass s id p o).desc = q := rfl
  rw [desc] at one
  rw [passOneGo_single run todo one rfl rfl]
  have acc : (if (soleRec s o).owner then (newPass s id p o).acc + gsq else (newPass s id p o).acc) = if (soleRec s o).owner then gsq else 0 := by
    rw [show (newPass s id p o).acc = 0 from rfl, Nat.zero_add]
  rw [acc]
  obtain ⟨wrote, rest⟩ := passOne_marked (s := putRec t q 0 96 (sumBytes gsq wsq f div))
    (r := { newPass s id p o with todo := [0].filter (· != 0), nonfinite := (newPass s id p o).nonfinite || false, acc := if (soleRec s o).owner then gsq else 0 })
    (q := q) (flags := 0) (write_wf hw) rfl (reach list) (reach norms) sole.apart (by decide)
  refine ⟨wrote, ?_, ?_, ?_⟩
  · rw [memLe, rest 96 8 (by decide), put, ← Nat.add_zero (q.recBase + 96), memRead_memWrite_part hw _ _ _ (by rw [len]; decide)]
    simp only [sumBytes, List.append_assoc, List.drop_zero]
    rw [List.take_left' (leBytes_length ..), leNat_leBytes]
    exact Nat.mod_eq_of_lt (sumTo64_lt gsq)
  · rw [memLe, rest 104 8 (by decide), put, show q.recBase + 104 = q.recBase + 96 + 8 from rfl, memRead_memWrite_part hw _ _ _ (by rw [len]; decide)]
    simp only [sumBytes, List.append_assoc]
    rw [List.drop_left' (leBytes_length ..), List.take_left' (leBytes_length ..), leNat_leBytes]
    exact Nat.mod_eq_of_lt (sumTo64_lt wsq)
  · rw [memLe, rest 120 2 (by decide), put, show q.recBase + 120 = q.recBase + 96 + 24 from rfl, memRead_memWrite_part hw _ _ _ (by rw [len])]
    rw [sumBytes, List.drop_left' (by simp), List.take_of_length_le (by simp), leNat_leBytes]
    exact Nat.mod_eq_of_lt small

/-- R304, R312: a frozen tensor, or one that the decision skips, ends pass two. -/
theorem passTwo_skips (sole : Sole s o (muuParm o.desc).report 64)
    (skips : (getSlot s (soleRec s o).tensor).frozen = true ∨ s.muu.decision ≠ 1) (id p : Nat) :
    let q := muuParm o.desc
    let t := passTwoGo (startPass s id p o)
    t.muuRun = none ∧ t.muu.status.toNat = statusCode .updateDone ∧
      memLe t (q.recBase + 124) 4 = (if (getSlot s (soleRec s o).tensor).frozen then 16 else (soleRec s o).tflags % 2) ∧
      memLe t q.report 4 = o.tok.step % 2 ^ 32 := by
  obtain ⟨list, -, report⟩ := sole_reach hc sole
  have same := sameSlots_startPass s id p o
  have run := startPass_run s id p o
  have decision := (startPass_parts s id p o).2.2.2.2
  have todo : (newPass s id p o).todo = [0] := by
    show List.range (muuParm o.desc).count = [0]
    rw [sole.count]
    rfl
  intro q
  generalize startPass s id p o = t at same run decision
  have rec0 : muuRec (recAt t (muuParm (newPass s id p o).desc) 0) = soleRec s o := by
    rw [recAt, same.mem]
    rfl
  have slotOk : slotErr t (muuRec (recAt t (muuParm (newPass s id p o).desc) 0)).tensor = none := by
    rw [rec0, (same.slots _).1]
    exact sole.slot
  have step : (newPass s id p o).step % 2 ^ 32 = o.tok.step % 2 ^ 32 := Nat.mod_mod _ _
  obtain frozen | live := Bool.eq_false_or_eq_true (getSlot s (soleRec s o).tensor).frozen
  · have one := passTwoTensor_frozen (s := t) (r0 := newPass s id p o) slotOk (by rw [rec0, (same.slots _).2]; exact frozen)
    rw [todo] at one
    rw [passTwoGo_single run todo rfl one ⟨rfl, rfl⟩, frozen, if_pos rfl]
    obtain ⟨none_, status, flags, wrote⟩ := passTwoEnd_marked (s := t) (flags := 16)
      (r := { newPass s id p o with todo := [0].filter (· != 0), deferred := (newPass s id p o).deferred.filter (· != 0) })
      (by rw [same.mem]; exact hw) rfl (by rw [same.reach]; exact list) (by rw [same.reach]; exact report) sole.apart
    exact ⟨none_, status, flags, wrote.trans step⟩
  · have skip : t.muu.decision ≠ 1 := by
      rw [decision]
      rcases skips with h | h
      · rw [live] at h
        exact absurd h (by decide)
      · exact h
    have one := passTwoTensor_skips (s := t) (r0 := newPass s id p o) slotOk rec0 (by rw [(same.slots _).2]; exact live) rfl rfl skip
    rw [todo] at one
    rw [passTwoGo_single run todo rfl one ⟨rfl, rfl⟩, live, if_neg (by decide)]
    obtain ⟨none_, status, flags, wrote⟩ := passTwoEnd_marked (s := gradReset t (soleRec s o) (newPass s id p o).step) (flags := (soleRec s o).tflags % 2)
      (r := { newPass s id p o with
        todo := [0].filter (· != 0), deferred := (newPass s id p o).deferred.filter (· != 0), lastWrite := (newPass s id p o).lastWrite })
      (gradReset_wf (by rw [same.mem]; exact hw) ..) rfl (gradReset_reach _ _ (by rw [same.reach]; exact list))
      (gradReset_reach _ _ (by rw [same.reach]; exact report)) sole.apart
    exact ⟨none_, status, flags.trans (Nat.mod_eq_of_lt (by omega)), wrote.trans step⟩

end Alone

end Sys2Proof.Laws
end

section
/-! PROOFS. The passes of the update (O49). -/

namespace Sys2Proof.Laws

open Sys2Proof Sys2Proof.Machine
set_option Elab.async false

variable {s t : State} {id p i : Nat} {o : NextOp} {ph : PhaseRun}

/-- The state with the registers of chapter 08 as they were before the phase's. -/
def trnBack (s v : State) : State :=
  { v with trn := { v.trn with slotBase := s.trn.slotBase, mbBase := s.trn.mbBase, stepCfg := s.trn.stepCfg } }

theorem withPhase_back (hp : getPhase s id p = some ph) (f : State → State) : withPhase id p f s = trnBack s (f (underPhase ph s)) :=
  withPhase_of hp f

theorem begun_back {v : State} {d : Bytes} {k : Nat} (h : PassBegun id p i d k v) : PassBegun id p i d k (trnBack s v) := h

theorem passName_newPass (s : State) (id p : Nat) (o : NextOp) : passName (newPass s id p o) = (id, p, o.idx, o.desc, (muuParm o.desc).pass) := rfl

theorem passOneGo_listSet {b u : State} {x : BitVec 64} {y : BitVec 32} (run : b.muuRun = some (newPass u id p o)) (known : ioKnown (ioOps b id p) o.idx) :
    PassBegun id p o.idx o.desc (muuParm o.desc).pass (passOneGo (listSet b x y)) ∧ listKey (passOneGo (listSet b x y)) = (b.trn.committed, x, y) :=
  passOneGo_begun (s := listSet b x y) run known (passName_newPass ..)

section Begins

variable (hp : getPhase s id p = some ph)

include hp

/-- R304, R305: a pass one that starts runs, or has ended with its op. -/
theorem passOne_begins (o : NextOp) (late : Bool) :
    let t := passOneGo (passOneStart (underPhase ph s) id p o late)
    PassBegun id p o.idx o.desc (muuParm o.desc).pass t ∧ t.muu.listBase = listBaseOf s (muuParm o.desc) ∧
      t.muu.listCount = listCountOf s (muuParm o.desc) ∧ t.trn.committed = s.trn.committed := by
  have known := ioKnown_startPass (s := underPhase ph s) (ph := ph) hp o
  have key := passKey_updateBegins (id := id) (p := p) (startPass (underPhase ph s) id p o) (o.tok.step % 2 ^ 32) late
  have run : (updateBegins (startPass (underPhase ph s) id p o) (o.tok.step % 2 ^ 32) late).muuRun = some (newPass (underPhase ph s) id p o) :=
    (muuRun_eq (by simp)).trans (startPass_run ..)
  have old : listKey (startPass (underPhase ph s) id p o) = listKey s := rfl
  rw [passOneStart]
  generalize startPass (underPhase ph s) id p o = a at known key run old
  generalize updateBegins a (o.tok.step % 2 ^ 32) late = b at key run
  rw [← ioOps_of_key key] at known
  have lists := (listKey_of_key key).trans old
  simp only [listKey, Prod.mk.injEq] at lists
  obtain ⟨committed', base', count'⟩ := lists
  have hb : listBaseOf b (muuParm o.desc) = listBaseOf s (muuParm o.desc) := by rw [listBaseOf, base', listBaseOf]
  have hn : listCountOf b (muuParm o.desc) = listCountOf s (muuParm o.desc) := by rw [listCountOf, count', listCountOf]
  dsimp only
  rw [hb, hn]
  generalize listBaseOf s (muuParm o.desc) = x
  generalize listCountOf s (muuParm o.desc) = y
  obtain ⟨begun, keys⟩ := passOneGo_listSet (x := x) (y := y) run known
  generalize passOneGo (listSet b x y) = t at begun keys
  simp only [listKey, Prod.mk.injEq] at keys
  obtain ⟨committed, base, count⟩ := keys
  exact ⟨begun, base, count, committed.trans committed'⟩

/-- R313: a pass two that starts runs, or has ended with its op. -/
theorem passTwo_begins (o : NextOp) :
    let t := passTwoGo (startPass (underPhase ph s) id p o)
    PassBegun id p o.idx o.desc (muuParm o.desc).pass t ∧ t.trn.committed = s.trn.committed := by
  have known := ioKnown_startPass (s := underPhase ph s) (ph := ph) hp o
  have run := startPass_run (underPhase ph s) id p o
  have old : listKey (startPass (underPhase ph s) id p o) = listKey s := rfl
  generalize startPass (underPhase ph s) id p o = a at known run old
  obtain ⟨begun, keys⟩ := passTwoGo_begun (id := id) (p := p) (i := o.idx) (d := o.desc) (k := (muuParm o.desc).pass) run known (passName_newPass ..)
  exact ⟨begun, congrArg Prod.fst (keys.trans old)⟩

end Begins

/-- What pass one over the one tensor of a list comes to (R304 to R310). -/
structure SolePassOne (s : State) (o : NextOp) (t : State) : Prop where
  frozen : (getSlot s (soleRec s o).tensor).frozen = true → PassOneWrote (muuParm o.desc) 16 0 t
  sums : ∀ c gsq wsq, (getSlot s (soleRec s o).tensor).frozen = false → curState s (getSlot s (soleRec s o).tensor) = some c →
    gradBusy s (soleRec s o).tensor = false → gradPoison s.mem (soleRec s o) = false →
    masterPoison s.mem (soleRec s o) (stateBase (soleRec s o) c) = false → s.mr.dramErr = [] →
    rowSum (soleRec s o) (gradRow s.mem (soleRec s o) (gradDiv (soleRec s o) (getSlot s (soleRec s o).tensor))) = some gsq →
    rowSum (soleRec s o) (masterRow s.mem (soleRec s o) (stateBase (soleRec s o) c)) = some wsq →
    PassOneWrote (muuParm o.desc) 0 (if (soleRec s o).owner then gsq else 0) t ∧
      memLe t ((muuParm o.desc).recBase + 96) 8 = sumTo64 gsq ∧ memLe t ((muuParm o.desc).recBase + 104) 8 = sumTo64 wsq ∧
      memLe t ((muuParm o.desc).recBase + 120) 2 = gradDiv (soleRec s o) (getSlot s (soleRec s o).tensor)

/-- A pass one that passes its check: it has begun, and over one tensor it has ended. -/
theorem passOne_gives {sid : StreamId} {pn : PhaseNo} (hw : Memory.wf s.mem = true) (hn : muuNext s sid.toNat pn.toNat [0, 1] = some o)
    (hc : muuCheckAt s sid.toNat pn.toNat o = none) : ∃ ph v, getPhase s sid.toNat pn.toNat = some ph ∧
      exec (.muuPassOne (.io sid pn)) s = .next (trnBack s v) ∧ PassBegun sid.toNat pn.toNat o.idx o.desc (muuParm o.desc).pass v ∧
      (v.muu.listBase = listBaseOf s (muuParm o.desc) ∧ v.muu.listCount = listCountOf s (muuParm o.desc) ∧ v.trn.committed = s.trn.committed) ∧
      ((∀ mb < 256, mbLive (underPhase ph s) mb = false) → Sole (underPhase ph s) o ((muuParm o.desc).ng + 128 * (muuParm o.desc).rank) 128 →
        SolePassOne (underPhase ph s) o v) := by
  obtain ⟨⟨ph, hp⟩, -⟩ := muuNext_parts hn
  have check : muuCheck (underPhase ph s) o.tok o.desc = none := (muuCheckAt_of hp).symm.trans hc
  have hw' : Memory.wf (underPhase ph s).mem = true := hw
  have exec := muuPassOne_exec hn hc
  rw [withPhase_back hp] at exec
  generalize flag (phaseStep s sid.toNat pn.toNat) 27 0 = lateFlag at exec
  obtain ⟨starts, lists⟩ := passOne_begins hp o lateFlag
  refine ⟨ph, _, hp, exec, starts, lists, fun live sole => ⟨fun frozen => ?_, fun c gsq wsq frozen cur idle grad master errs gs ws => ?_⟩⟩
  · exact passOne_frozen hw' check live sole frozen _ _ lateFlag
  · exact passOne_sums hw' check live sole frozen cur idle grad master errs gs ws _ _ lateFlag

/-- A combine that passes its check: its op has ended, and its registers are set where it decides (R311). -/
theorem combine_gives {sid : StreamId} {pn : PhaseNo} (hn : muuNext s sid.toNat pn.toNat [2] = some o)
    (hc : muuCheckAt s sid.toNat pn.toNat o = none) : ∃ v, exec (.muuCombine (.io sid pn)) s = .next v ∧
      (getIo v sid.toNat pn.toNat o.idx).map (·.finished) = some true ∧ v.mem = s.mem ∧
      ((combineAt s o).2.2 ≠ 0 → v.muu.status.toNat = statusCode .ok ∧ v.muu.step.toNat = o.tok.step % 2 ^ 32 ∧
        v.muu.gnorm = BitVec.ofNat 32 (combineAt s o).2.1 ∧ v.muu.decision = BitVec.ofNat 2 (combineAt s o).2.2) ∧
      ((combineAt s o).2.2 = 0 → v.muu = s.muu) := by
  obtain ⟨⟨ph, hp⟩, -⟩ := muuNext_parts hn
  obtain ⟨known, parts⟩ := combineEnd_parts hp o
  have run := muuCombine_exec hn hc
  generalize combineEnd s sid.toNat pn.toNat o = w at known parts run
  exact ⟨_, run, endIo_finished known, parts⟩

/-- A pass two that passes its check: it has begun, and one that skips its one tensor has ended (R304, R312). -/
theorem passTwo_gives {sid : StreamId} {pn : PhaseNo} (hw : Memory.wf s.mem = true) (hn : muuNext s sid.toNat pn.toNat [3] = some o)
    (hc : muuCheckAt s sid.toNat pn.toNat o = none) : ∃ ph v, getPhase s sid.toNat pn.toNat = some ph ∧
      exec (.muuPassTwo (.io sid pn)) s = .next (trnBack s v) ∧ PassBegun sid.toNat pn.toNat o.idx o.desc (muuParm o.desc).pass v ∧
      v.trn.committed = s.trn.committed ∧
      (Sole (underPhase ph s) o (muuParm o.desc).report 64 →
        (getSlot (underPhase ph s) (soleRec (underPhase ph s) o).tensor).frozen = true ∨ (underPhase ph s).muu.decision ≠ 1 →
        v.muuRun = none ∧ v.muu.status.toNat = statusCode .updateDone ∧
          memLe v ((muuParm o.desc).recBase + 124) 4 =
            (if (getSlot (underPhase ph s) (soleRec (underPhase ph s) o).tensor).frozen then 16 else (soleRec (underPhase ph s) o).tflags % 2) ∧
          memLe v (muuParm o.desc).report 4 = o.tok.step % 2 ^ 32) := by
  obtain ⟨⟨ph, hp⟩, -⟩ := muuNext_parts hn
  have check : muuCheck (underPhase ph s) o.tok o.desc = none := (muuCheckAt_of hp).symm.trans hc
  have hw' : Memory.wf (underPhase ph s).mem = true := hw
  have exec := muuPassTwo_exec hn hc
  rw [withPhase_back hp] at exec
  obtain ⟨starts, committed⟩ := passTwo_begins hp o
  exact ⟨ph, _, hp, exec, starts, committed, fun sole skips => passTwo_skips hw' check sole skips _ _⟩

/-- R318: what the end of a pass two leaves. -/
theorem passTwoEnd_parts (s : State) (r : MuuRun) : (passTwoEnd s r).muuRun = none ∧ (passTwoEnd s r).muu.pass = 0 ∧
    (passTwoEnd s r).muu.status.toNat = statusCode (r.fail.getD .updateDone) ∧ (passTwoEnd s r).trnRun.update = none ∧ (passTwoEnd s r).trn = s.trn := by
  have trn : (write s .dram (muuParm r.desc).report (stepReport s r (r.fail.getD .updateDone)) false).trn = s.trn := trn_eq (by simp)
  rw [passTwoEnd]
  generalize write s .dram (muuParm r.desc).report (stepReport s r (r.fail.getD .updateDone)) false = w at trn ⊢
  refine ⟨rfl, rfl, ?_, rfl, trn⟩
  show (BitVec.ofNat 16 (statusCode (r.fail.getD .updateDone))).toNat = _
  rw [BitVec.toNat_ofNat, Nat.mod_eq_of_lt (statusCode_lt _)]

/-- R313: a recheck with nothing left ends pass two. -/
theorem recheck_ends {r : MuuRun} (hr : s.muuRun = some r) (todo : r.todo = []) (deferred : r.deferred = []) :
    let t := withPhase r.stream r.phase passTwoGo s
    t.muuRun = none ∧ t.muu.pass = 0 ∧ t.muu.status.toNat = statusCode (r.fail.getD .updateDone) ∧ t.trnRun.update = none ∧ t.trn = s.trn := by
  dsimp only
  rw [withPhase]
  split
  next ph _ =>
    have ends := passTwoGo_empty (s := underPhase ph s) hr todo deferred
    obtain ⟨run, pass, status, update, trn⟩ := passTwoEnd_parts (underPhase ph s) r
    rw [← ends] at run pass status update trn
    show (trnBack s (passTwoGo (underPhase ph s))).muuRun = none ∧ _
    have back : ∀ v : State, v.trn = (underPhase ph s).trn → (trnBack s v).trn = s.trn := fun v hv => by
      rw [trnBack, hv]
      rfl
    refine ⟨run, pass, status, update, back _ trn⟩
  next =>
    rw [passTwoGo_empty hr todo deferred]
    exact passTwoEnd_parts s r

/-- R279: the deadline is counted once. -/
theorem straggler_counts {r : MuuRun} (hr : s.muuRun = some r) :
    let t := withPhase r.stream r.phase (fun a => excludePinning a r) (expire s r)
    t.muuRun.map (·.expired) = some true ∧ t.trn.expiries = (if r.expired then s.trn.expiries else satAdd s.trn.expiries 1) ∧
      t.trn.committed = s.trn.committed := by
  have key := excludeKey_withPhase (fun a => excludeKey_excludePinning a r) r.stream r.phase (expire s r)
  dsimp only
  generalize withPhase r.stream r.phase (fun a => excludePinning a r) (expire s r) = t at key ⊢
  simp only [excludeKey, Prod.mk.injEq] at key
  obtain ⟨run, expiries, committed⟩ := key
  rw [run, expiries, committed, expire]
  obtain he | he := Bool.eq_false_or_eq_true r.expired
  · rw [if_pos he, if_pos he, hr]
    exact ⟨congrArg some he, rfl, rfl⟩
  · rw [if_neg (by rw [he]; decide), if_neg (by rw [he]; decide)]
    exact ⟨rfl, rfl, rfl⟩

/-- Settles O49. -/
theorem updatePasses : Obligations.UpdatePasses := by
  unfold Obligations.UpdatePasses
  refine ⟨fun sid pn s o hs => ?_, fun s r hs hr => ⟨fun h3 todo deferred => ?_, fun h => ⟨s, ?_, rfl⟩, fun c hc late => ?_, fun c hc early => ⟨s, ?_, rfl⟩⟩⟩
  · intro id p q begun u m alone
    refine ⟨fun hn hc => ?_, fun hn hc => ?_, fun hn hc => ?_, fun passes busy hn => ?_, fun st hn hc => ⟨_, muuPassOne_rejects hn hc, rejectIo_leaves ..⟩,
      fun st hn hc => ⟨_, muuCombine_rejects hn hc, rejectIo_leaves ..⟩, fun st hn hc => ⟨_, muuPassTwo_rejects hn hc, rejectIo_leaves ..⟩⟩
    · obtain ⟨ph, v, hp, exec, starts, ⟨base, count, committed⟩, soleOne⟩ := passOne_gives hs.mem hn hc
      have hu : u = underPhase ph s := by
        show (match getPhase s id p with | some x => underPhase x s | none => s) = _
        rw [hp]
      refine ⟨trnBack s v, exec, starts, base, count, committed, fun hal live => ?_⟩
      obtain ⟨one, slot, apart⟩ := hal
      rw [hu] at slot live ⊢
      obtain ⟨frozenOne, sumsOne⟩ := soleOne live ⟨one, slot, apart⟩
      refine ⟨fun frozen => ?_, fun c gsq wsq frozen cur idle grad master errs gs ws => ?_⟩
      · obtain ⟨run, status, flags, acc⟩ := frozenOne frozen
        exact ⟨run, status, flags, acc⟩
      · obtain ⟨⟨run, status, flags, acc⟩, sums⟩ := sumsOne c gsq wsq frozen cur idle grad master errs gs ws
        exact ⟨⟨run, status, flags, acc⟩, sums⟩
    · exact combine_gives hn hc
    · obtain ⟨ph, v, hp, exec, starts, committed, skipsTwo⟩ := passTwo_gives hs.mem hn hc
      have hu : u = underPhase ph s := by
        show (match getPhase s id p with | some x => underPhase x s | none => s) = _
        rw [hp]
      refine ⟨trnBack s v, exec, starts, committed, fun hal skips => ?_⟩
      obtain ⟨one, slot, apart⟩ := hal
      rw [hu] at slot skips ⊢
      exact skipsTwo ⟨one, slot, apart⟩ skips
    · obtain ⟨⟨ph, hp⟩, -⟩ := muuNext_parts hn
      rw [muuCheckAt_of hp]
      exact muuCheck_busy (s := underPhase ph s) busy ..
  · refine ⟨_, deferralRecheck_exec hr, ?_⟩
    rw [if_pos h3]
    exact recheck_ends hr todo deferred
  · rw [deferralRecheck_exec hr, if_neg h]
  · refine ⟨_, straggler_exec hr hc, ?_⟩
    rw [if_pos late]
    exact straggler_counts hr
  · rw [straggler_exec hr hc, if_neg (Nat.not_le.2 early)]

end Sys2Proof.Laws
end

section
/-! PROOFS. Streams and fired ops that end: what a stream runs only fades until a phase starts. -/

namespace Sys2Proof.Laws

open Sys2Proof Sys2Proof.Machine
set_option Elab.async false

variable {s t u : State} {n id p : Nat}

/-! ## Streams and fired ops that end (R385, R386, R475) -/

theorem StreamsFrom.stop (h : StreamsFrom s t) {r r' : StreamRun} {st : Status} (was : getStream s id = some r)
    (is : getStream t id = some r') (stopped : r.stop = some st) : r'.stop = some st := by
  obtain ⟨r0, found, run⟩ := h.runs id r' is
  rw [was] at found
  cases found
  exact run.stop st stopped

/-- A phase that no longer runs does not run later. -/
theorem StreamsFrom.lacks (h : StreamsFrom s t) (was : ∀ r, getStream s id = some r → ∀ x ∈ r.running, x.num ≠ p) {r' : StreamRun}
    (is : getStream t id = some r') : ∀ x ∈ r'.running, x.num ≠ p := by
  obtain ⟨r, found, run⟩ := h.runs id r' is
  intro x hx
  obtain ⟨y, hy, from_⟩ := run.running x hx
  rw [from_.num]
  exact was r found y hy

theorem streamsFrom_stopStream (s : State) (i : Nat) (st : Status) : StreamsFrom s (stopStream s i st) :=
  streamsFrom_modStream (f := fun r => { r with stop := r.stop.orElse (fun _ => some st) })
    (fun r => ⟨fun e h => by simp only [h]; rfl, fun y hy => ⟨y, hy, .refl y⟩⟩) s i

theorem streamsFrom_finishFired (s : State) (f : FiredOp) (st : Status) : StreamsFrom s (finishFired s f st) := by
  unfold finishFired
  extract_lets _ s0 s1 s2
  have h0 : StreamsFrom s s0 := .of_cmd rfl
  have h1 : StreamsFrom s s1 := h0.trans (streamsFrom_signal s0 f.stream f.desc)
  have h2 : StreamsFrom s1 s2 := by
    simp only [s2]
    split
    · split
      · exact (streamsFrom_noteStatus ..).trans (streamsFrom_forceEnd ..)
      · exact streamsFrom_stopStream ..
    · exact streamsFrom_noteStatus ..
  exact (h1.trans h2).trans (streamsFrom_settleStream s2 f.stream)

theorem streamsFrom_settleFired : ∀ (k : Nat) (s : State), StreamsFrom s (settleFired k s)
  | 0, s => .refl s
  | k + 1, s => by
    unfold settleFired
    split
    · exact .refl s
    · exact (streamsFrom_finishFired ..).trans (streamsFrom_settleFired k _)

theorem endWindowSet_streams (s : State) : (endWindowSet s).cmd.streams = s.cmd.streams := by
  unfold endWindowSet
  split
  · rfl
  · split
    · rfl
    · dsimp only
      split
      · exact completeDesc_streams ..
      · rfl

theorem streamsFrom_settleAllFired (s : State) : StreamsFrom s (settleAllFired s) :=
  (streamsFrom_settleFired _ s).trans (.of_streams (endWindowSet_streams _))

/-! ## A phase that has ended runs no more -/

theorem getPhase_none_iff : getPhase s id p = none ↔ ∀ r, getStream s id = some r → ∀ x ∈ r.running, x.num ≠ p := by
  rw [getPhase]
  cases getStream s id with
  | none => simp
  | some r => simp

theorem phaseOf_stream {ph : PhaseRun} (h : getPhase s id p = some ph) :
    ∃ r, getStream s id = some r ∧ ph ∈ r.running ∧ ph.num = p := by
  obtain ⟨r, found, hx⟩ := Option.bind_eq_some_iff.1 h
  exact ⟨r, found, List.mem_of_find?_eq_some hx, by simpa using List.find?_some hx⟩

/-- What the end of a phase leaves of its stream. -/
def phaseGone (ph : PhaseRun) (p : Nat) (x : StreamRun) : StreamRun :=
  { x with running := x.running.filter (·.num != p), done := p :: x.done,
           stop := if stopping (phaseStatus ph) then x.stop.orElse (fun _ => some (phaseStatus ph)) else x.stop,
           stopBy := if stopping (phaseStatus ph) && (x.stop.isNone || !x.stopBy.isEmpty) then x.stopBy ++ ph.stopBy
             else x.stopBy }

/-- What the end of a phase writes in memory before its stream moves on. -/
def phaseWritten (s : State) (r : StreamRun) (ph : PhaseRun) (p : Nat) : State :=
  putPstat (withTrn ph (fun x => endMb x r p ph.record (phaseStatus ph)) (endPhaseBinds ph s)) r p (phaseStatus ph)

theorem endPhase_of {r : StreamRun} {ph : PhaseRun} (hr : getStream s id = some r) (hp : getPhase s id p = some ph) :
    endPhase s id p = settleStream (modStream (phaseWritten s r ph p) id (phaseGone ph p)) id := by
  unfold endPhase
  rw [hr, hp]
  rfl

theorem phaseWritten_cmd (s : State) (r : StreamRun) (ph : PhaseRun) (p : Nat) : (phaseWritten s r ph p).cmd = s.cmd := by
  refine cmd_eq ?_
  rw [phaseWritten, putPstat_rest _ _ _ _ (by decide), withTrn_rest (fun x => by simp) ph _ (by decide),
    endPhaseBinds_rest _ _ (by decide)]

theorem phaseWritten_coll (s : State) (r : StreamRun) (ph : PhaseRun) (p : Nat) : (phaseWritten s r ph p).coll = s.coll := by
  refine coll_eq ?_
  rw [phaseWritten, putPstat_rest _ _ _ _ (by decide), withTrn_rest (fun x => by simp) ph _ (by decide),
    endPhaseBinds_rest _ _ (by decide)]

theorem getStream_of_cmd (h : t.cmd = s.cmd) : getStream t id = getStream s id := by rw [getStream, h]; rfl

theorem getStream_phaseGone {r : StreamRun} {ph : PhaseRun} (hr : getStream s id = some r) :
    getStream (modStream (phaseWritten s r ph p) id (phaseGone ph p)) id = some (phaseGone ph p r) := by
  rw [getStream_modStream_self, getStream_of_cmd (phaseWritten_cmd s r ph p), hr]
  rfl

/-- A stream that has settled is gone, or is as it was. -/
theorem getStream_settleStream (s : State) (i : Nat) {r : StreamRun} (h : getStream (settleStream s i) i = some r) :
    getStream s i = some r ∧ settleStream s i = s := by
  unfold settleStream at h ⊢
  split at h
  · exact ⟨h, rfl⟩
  next r0 found =>
    dsimp only at h ⊢
    split at h
    next ends =>
      exfalso
      have gone : ∀ v : State, v.cmd.streams = s.cmd.streams.filter (·.1 != i) → getStream v i ≠ some r := fun v hv hx => by
        rw [getStream, hv] at hx
        obtain ⟨q, hq, -⟩ := Option.map_eq_some_iff.1 hx
        have kept := (List.mem_filter.mp (List.mem_of_find?_eq_some hq)).2
        exact absurd (List.find?_some hq) (by simpa using kept)
      split at h
      · split at h
        · exact gone _ (completeDesc_streams ..) h
        · exact gone _ rfl h
      · exact gone _ rfl h
      · exact gone _ rfl h
    next stays =>
      rw [if_neg stays]
      exact ⟨h, rfl⟩

theorem endPhase_stream {r : StreamRun} {ph : PhaseRun} (hr : getStream s id = some r) (hp : getPhase s id p = some ph)
    {r' : StreamRun} (h : getStream (endPhase s id p) id = some r') : r' = phaseGone ph p r := by
  rw [endPhase_of hr hp] at h
  have := (getStream_settleStream _ id h).1
  rw [getStream_phaseGone hr] at this
  exact (Option.some.inj this).symm

/-- An ended phase does not run. -/
theorem endPhase_lacks (s : State) (id p : Nat) {r' : StreamRun} (h : getStream (endPhase s id p) id = some r') :
    ∀ x ∈ r'.running, x.num ≠ p := by
  cases hp : getPhase s id p with
  | none =>
    have same : endPhase s id p = s := by
      unfold endPhase
      rw [hp]
      split <;> simp_all
    rw [same] at h
    exact getPhase_none_iff.1 hp r' h
  | some ph =>
    obtain ⟨r, hr, -⟩ := phaseOf_stream hp
    rw [endPhase_stream hr hp h]
    intro x hx
    simpa using (List.mem_filter.mp hx).2

theorem forceEnd_lacks (s : State) (id p : Nat) (st : Status) (hard : Bool) {r' : StreamRun}
    (h : getStream (forceEnd s id p st hard) id = some r') : ∀ x ∈ r'.running, x.num ≠ p := by
  unfold forceEnd at h
  split at h
  next hp => exact getPhase_none_iff.1 hp r' h
  next => exact endPhase_lacks _ id p h

theorem forceEnds_lacks (id : Nat) (st : Status) (hard : Bool) (l : List PhaseRun) : ∀ s : State, ∀ ph ∈ l, ∀ r',
    getStream (l.foldl (fun x ph => forceEnd x id ph.num st hard) s) id = some r' → ∀ x ∈ r'.running, x.num ≠ ph.num := by
  induction l with
  | nil => exact fun s ph h => absurd h (by simp)
  | cons a l ih =>
    intro s ph hm r' h
    rcases List.mem_cons.1 hm with rfl | later
    · exact StreamsFrom.lacks (.foldl (fun x y => streamsFrom_forceEnd x id y.num st hard) l (forceEnd s id ph.num st hard))
        (fun r hr => forceEnd_lacks s id ph.num st hard hr) h
    · exact ih _ ph later r' h

/-- A stream that ends at once runs nothing more and is stopped. -/
theorem forceStream_left {st : Status} {r r' : StreamRun} (hr : getStream s id = some r)
    (h : getStream (forceStream s id st) id = some r') : r'.stop = some st ∧ r'.running = [] := by
  have run : forceStream s id st = settleStream (settleAllFired (dropFired (r.running.foldl
      (fun x ph => forceEnd x id ph.num .timeout true) (abortCollsOf (overStop s id st) id none)) id none)) id := by
    unfold forceStream
    rw [hr]
  rw [run] at h
  set v := abortCollsOf (overStop s id st) id none
  set w := r.running.foldl (fun x ph => forceEnd x id ph.num .timeout true) v
  have over_ : getStream (overStop s id st) id = some { r with stop := some st, stopBy := [] } := by
    rw [overStop, getStream_modStream_self, hr]
    rfl
  have toV : StreamsFrom (overStop s id st) v := streamsFrom_abortCollsOf _ id none
  have toW : StreamsFrom v w := .foldl (fun x (y : PhaseRun) => streamsFrom_forceEnd x id y.num .timeout true) _ v
  have toEnd : StreamsFrom w (settleStream (settleAllFired (dropFired w id none)) id) :=
    ((StreamsFrom.of_cmd (dropFired_cmd w id none)).trans (streamsFrom_settleAllFired _)).trans (streamsFrom_settleStream _ id)
  refine ⟨((toV.trans toW).trans toEnd).stop over_ h rfl, List.eq_nil_iff_forall_not_mem.2 fun x hx => ?_⟩
  obtain ⟨r0, found, run0⟩ := ((toV.trans toW).trans toEnd).runs id r' h
  rw [over_] at found
  cases found
  obtain ⟨y, hy, from_⟩ := run0.running x hx
  exact toEnd.lacks (forceEnds_lacks id .timeout true r.running v y hy) h x hx from_.num

end Sys2Proof.Laws
end

section
/-! PROOFS. Fired ops that are dropped, and phases that run on. -/

namespace Sys2Proof.Laws

open Sys2Proof Sys2Proof.Machine
set_option Elab.async false

variable {s t u : State} {n id p : Nat}

/-! ## Fired ops and armed entries that are dropped (R475) -/

/-- From `s` to `t` no op has fired anew, and no entry has been armed for a stream that had none. -/
structure FiredFrom (s t : State) : Prop where
  ops : s.coll.firedOps = [] → t.coll.firedOps = []
  entries : ∀ x ∈ t.coll.triggers, ∃ y ∈ s.coll.triggers, y.stream = x.stream

theorem FiredFrom.of_lists (h : t.coll.firedOps = s.coll.firedOps) (k : t.coll.triggers = s.coll.triggers) : FiredFrom s t :=
  ⟨fun e => h.trans e, fun x hx => ⟨x, k ▸ hx, rfl⟩⟩

theorem FiredFrom.of_coll (h : t.coll = s.coll) : FiredFrom s t := .of_lists (by rw [h]) (by rw [h])

theorem FiredFrom.refl (s : State) : FiredFrom s s := .of_coll rfl

theorem FiredFrom.trans (h : FiredFrom s t) (k : FiredFrom t u) : FiredFrom s u :=
  ⟨fun e => k.ops (h.ops e), fun x hx =>
    let ⟨y, hy, ey⟩ := k.entries x hx
    let ⟨z, hz, ez⟩ := h.entries y hy
    ⟨z, hz, ez.trans ey⟩⟩

theorem FiredFrom.foldl {α : Type} {f : State → α → State} (h : ∀ s x, FiredFrom s (f s x)) (l : List α) :
    ∀ s, FiredFrom s (l.foldl f s) := by
  induction l with
  | nil => exact fun s => .refl s
  | cons x l ih => exact fun s => (h s x).trans (ih (f s x))

theorem firedFrom_ownerEnd (s : State) (o : OpOwner) (st : Status) : FiredFrom s (ownerEnd s o st) := by
  cases o with
  | io i k j => exact .of_coll rfl
  | fired k => exact ⟨fun e => by simp [ownerEnd, e], fun x hx => ⟨x, hx, rfl⟩⟩

theorem collResult_coll (s : State) (c : Coll) (st : Status) (parts : Nat) : (collResult s c st parts).coll = s.coll :=
  coll_eq (by simp)

theorem poisonDst_coll (s : State) (c : Coll) : (poisonDst s c).coll = s.coll := coll_eq (by simp)

theorem collSend_coll (s : State) (c : Coll) (rank kind item addr : Nat) (payload : Bytes) (poison : Bool) :
    (collSend s c rank kind item addr payload poison).coll = s.coll := coll_eq (by simp)

theorem firedFrom_setColl (c : CollState) (h : c.firedOps = s.coll.firedOps) (k : c.triggers = s.coll.triggers) :
    FiredFrom s { s with coll := c } := .of_lists h k

theorem firedFrom_freed (s : State) (c : Coll) :
    FiredFrom s (if c.claimed then markSlots s c.first (coSlots c.desc) false else s) := by
  split
  · exact firedFrom_setColl _ rfl rfl
  · exact .refl s

theorem firedFrom_closeColl (s : State) (c : Coll) (st : Status) (parts : Nat) : FiredFrom s (closeColl s c st parts) := by
  unfold closeColl
  refine FiredFrom.trans (FiredFrom.trans (FiredFrom.trans (firedFrom_freed s c) (.of_coll (collResult_coll _ c st parts)))
    (firedFrom_setColl _ ?_ ?_)) (firedFrom_ownerEnd _ c.owner st) <;> rfl

theorem firedFrom_abortHere (s : State) (c : Coll) (st : Status) : FiredFrom s (abortHere s c st) := by
  dsimp only [abortHere]
  refine FiredFrom.trans ?_ (firedFrom_closeColl ..)
  exact .of_lists (by rw [poisonDst_coll]) (by rw [poisonDst_coll])

theorem firedFrom_abortColl (s : State) (k : Nat) (st : Status) : FiredFrom s (abortColl s k st) := by
  unfold abortColl
  split
  · exact .refl s
  next c _ =>
    refine FiredFrom.trans (FiredFrom.trans ?_ (.foldl (fun x j => .of_coll ?_) _ _)) (firedFrom_abortHere ..)
    · dsimp only
      split <;> exact .of_lists rfl rfl
    · split
      · rfl
      · exact collSend_coll ..

theorem firedFrom_abortCollsOf (s : State) (i : Nat) (k : Option Nat) : FiredFrom s (abortCollsOf s i k) :=
  .foldl (fun x j => firedFrom_abortColl x j .timeout) _ s

theorem completeDesc_coll (f : Fetched) (st : Status) : (completeDesc s n f st).coll = s.coll :=
  completeDesc_keeps s n f st .coll (by decide)

theorem firedFrom_settleStream (s : State) (i : Nat) : FiredFrom s (settleStream s i) := by
  unfold settleStream
  split
  · exact .refl s
  next r _ =>
    split
    · have h : FiredFrom s (disarm { s with cmd := { s.cmd with streams := s.cmd.streams.filter (·.1 != i) } } i) :=
        ⟨fun e => e, fun x hx => ⟨x, (List.mem_filter.mp hx).1, rfl⟩⟩
      refine h.trans ?_
      dsimp only
      split
      · split
        · exact .of_coll (completeDesc_coll ..)
        · exact .refl _
      · exact .of_coll rfl
      · exact .refl _
    · exact .refl s

theorem firedFrom_modStream (s : State) (i : Nat) (f : StreamRun → StreamRun) : FiredFrom s (modStream s i f) := .of_coll rfl

theorem firedFrom_endPhase (s : State) (i k : Nat) : FiredFrom s (endPhase s i k) := by
  cases hp : getPhase s i k with
  | none =>
    unfold endPhase
    rw [hp]
    split
    next he => exact absurd he (by simp)
    next => exact .refl s
  | some ph =>
    obtain ⟨r, hr, -⟩ := phaseOf_stream hp
    rw [endPhase_of hr hp]
    exact (FiredFrom.of_coll (phaseWritten_coll s r ph k)).trans
      ((firedFrom_modStream _ i _).trans (firedFrom_settleStream _ i))

theorem dropCoreOps_coll (l : List Nat) (mine : Token → Bool) (s : State) :
    (l.foldl (fun x n => dropLists (endCoreOps x n mine).1 n mine) s).coll = s.coll :=
  coll_eq (foldl_rest (f := fun x n => dropLists (endCoreOps x n mine).1 n mine)
    (fun x n => (dropLists_rest _ n mine (by decide)).trans (endCoreOps_rest x n mine (by decide))) l s)

theorem poisonGets_coll (l : List IoOp) (s : State) : (l.foldl (fun x o => poisonGet x o.desc) s).coll = s.coll :=
  coll_eq (foldl_rest (f := fun x o => poisonGet x o.desc) (fun x o => poisonGet_rest x o.desc (by decide)) l s)

theorem poisonMuu_coll (s : State) (run : MuuRun) : (poisonMuu s run).coll = s.coll := coll_eq (by simp)

theorem firedFrom_dropFired (s : State) (i : Nat) (k : Option Nat) : FiredFrom s (dropFired s i k) := by
  unfold dropFired
  extract_lets mine fs ts s1 s2
  have h : s2.coll = s.coll := coll_eq (foldl_rest (f := poisonGet) (fun x d => poisonGet_rest x d (by decide)) _ s)
  refine ⟨fun e => ?_, fun x hx => ⟨x, ?_, rfl⟩⟩
  · show s2.coll.firedOps.filter _ = []
    rw [h, e]
    rfl
  · rw [← h]
    exact (List.mem_filter.mp hx).1

theorem firedFrom_forceEnd (s : State) (i k : Nat) (st : Status) (hard : Bool) : FiredFrom s (forceEnd s i k st hard) := by
  unfold forceEnd
  split
  · exact .refl s
  next ph _ =>
    extract_lets mine s1 cs s2 s3 s4 s5 s6 s7
    have h1 : s1.coll = s.coll := dropCoreOps_coll _ mine s
    have h3 : s3.coll = s2.coll := poisonGets_coll ph.io s2
    have h5 : s5.coll = s4.coll := by
      simp only [s5]
      split
      · split
        · exact poisonMuu_coll s4 _
        · rfl
      · rfl
    have h : s5.coll = s.coll := h5.trans (h3.trans h1)
    have h6 : FiredFrom s s6 := ((FiredFrom.of_coll (show (dropSamples s5 i (some k)).coll = s.coll from h)).trans
      (firedFrom_abortCollsOf _ i (some k))).trans (firedFrom_dropFired _ i (some k))
    have h7 : FiredFrom s6 s7 := firedFrom_modStream s6 i _
    exact (h6.trans h7).trans (firedFrom_endPhase s7 i k)

theorem endWindowSet_coll (s : State) : (endWindowSet s).coll = s.coll := by
  unfold endWindowSet
  split
  · rfl
  · split
    · rfl
    · dsimp only
      split
      · exact completeDesc_coll ..
      · rfl

/-- With no fired op nothing but a WINDOW_SET can end. -/
theorem settleAllFired_of_none (h : s.coll.firedOps = []) : settleAllFired s = endWindowSet s := by
  rw [settleAllFired, h]
  rfl

theorem firedLeft_of_none (h : s.coll.firedOps = []) (k : ∀ x ∈ s.coll.triggers, x.stream ≠ id) : firedLeft s id = false := by
  rw [firedLeft, h]
  simpa using fun x hx e => absurd e (k x hx)

theorem settleStream_ends {r : StreamRun} (hr : getStream s id = some r) (over_ : r.running = [])
    (last : r.stop.isSome = true ∨ hdrPhases r.hdr ≤ r.nextPhase) (quiet : firedLeft s id = false) :
    getStream (settleStream s id) id = none := by
  cases h : getStream (settleStream s id) id with
  | none => rfl
  | some x =>
    obtain ⟨-, same⟩ := getStream_settleStream s id h
    have taken_ : (settleStream s id).cmd.streams = s.cmd.streams.filter (·.1 != id) := by
      unfold settleStream
      rw [hr]
      dsimp only
      rw [if_pos (by rw [over_, quiet]; simpa using last)]
      split
      · split
        · exact completeDesc_streams ..
        · rfl
      · rfl
      · rfl
    rw [getStream, taken_] at h
    obtain ⟨q, hq, -⟩ := Option.map_eq_some_iff.1 h
    exact absurd (List.find?_some hq) (by simpa using (List.mem_filter.mp (List.mem_of_find?_eq_some hq)).2)

/-- A stream with a running phase, or that has further phases, does not end. -/
theorem settleStream_stays {r : StreamRun} (hr : getStream s id = some r)
    (more : r.running ≠ [] ∨ (r.stop = none ∧ r.nextPhase < hdrPhases r.hdr)) : settleStream s id = s := by
  unfold settleStream
  rw [hr]
  dsimp only
  rw [if_neg]
  rcases more with h | ⟨h, k⟩
  · simp [h]
  · simp [h, Nat.not_le.2 k]

/-- A stream that ends at once is gone where nothing of it fired or is armed. -/
theorem forceStream_gone {st : Status} (h0 : s.coll.firedOps = []) (h1 : ∀ x ∈ s.coll.triggers, x.stream ≠ id) :
    getStream (forceStream s id st) id = none := by
  cases hr : getStream s id with
  | none =>
    unfold forceStream
    rw [hr]
    exact hr
  | some r =>
    cases h : getStream (forceStream s id st) id with
    | none => rfl
    | some r' =>
      obtain ⟨stopped, over_⟩ := forceStream_left hr h
      have run : forceStream s id st = settleStream (settleAllFired (dropFired (r.running.foldl
          (fun x ph => forceEnd x id ph.num .timeout true) (abortCollsOf (overStop s id st) id none)) id none)) id := by
        unfold forceStream
        rw [hr]
      set w := dropFired (r.running.foldl (fun x ph => forceEnd x id ph.num .timeout true)
        (abortCollsOf (overStop s id st) id none)) id none with hw
      have toW : FiredFrom s w := (((firedFrom_modStream s id _).trans (firedFrom_abortCollsOf _ id none)).trans
        (.foldl (f := fun x (y : PhaseRun) => forceEnd x id y.num .timeout true)
          (fun x y => firedFrom_forceEnd x id y.num .timeout true) r.running _)).trans (firedFrom_dropFired _ id none)
      have none_ : w.coll.firedOps = [] := toW.ops h0
      have settled : (settleAllFired w).coll = w.coll := by rw [settleAllFired_of_none none_, endWindowSet_coll]
      have quiet : firedLeft (settleAllFired w) id = false := by
        refine firedLeft_of_none (by rw [settled, none_]) fun x hx => ?_
        rw [settled] at hx
        obtain ⟨y, hy, ey⟩ := toW.entries x hx
        rw [← ey]
        exact h1 y hy
      rw [run] at h
      obtain ⟨was, -⟩ := getStream_settleStream _ id h
      rw [settleStream_ends was over_ (.inl (by rw [stopped]; rfl)) quiet] at h
      cases h

/-! ## Phases that run on -/

/-- Every stream of `s` is in `t`, with the same phases running. -/
structure PhasesKept (s t : State) : Prop where
  runs : ∀ id r, getStream s id = some r → ∃ r', getStream t id = some r' ∧ r'.running.map (·.num) = r.running.map (·.num)

theorem PhasesKept.trans (h : PhasesKept s t) (k : PhasesKept t u) : PhasesKept s u := ⟨fun id r hr =>
  let ⟨r1, h1, e1⟩ := h.runs id r hr
  let ⟨r2, h2, e2⟩ := k.runs id r1 h1
  ⟨r2, h2, e2.trans e1⟩⟩

theorem PhasesKept.of_streams (h : t.cmd.streams = s.cmd.streams) : PhasesKept s t := ⟨fun id r hr =>
  ⟨r, by rw [getStream, h]; exact hr, rfl⟩⟩

theorem PhasesKept.of_cmd (h : t.cmd = s.cmd) : PhasesKept s t := .of_streams (by rw [h])

theorem PhasesKept.refl (s : State) : PhasesKept s s := .of_cmd rfl

theorem PhasesKept.foldl {α : Type} {f : State → α → State} (h : ∀ s x, PhasesKept s (f s x)) (l : List α) :
    ∀ s, PhasesKept s (l.foldl f s) := by
  induction l with
  | nil => exact fun s => .refl s
  | cons x l ih => exact fun s => (h s x).trans (ih (f s x))

theorem phasesKept_modStream {f : StreamRun → StreamRun} (hf : ∀ r, (f r).running.map (·.num) = r.running.map (·.num)) (s : State)
    (i : Nat) : PhasesKept s (modStream s i f) := ⟨fun k r hr =>
  ⟨atStream i f k r, by rw [getStream_of_map (modStream_streams s i f) k, hr]; rfl, by
    unfold atStream
    split
    · exact hf r
    · rfl⟩⟩

theorem phasesKept_modPhase {f : PhaseRun → PhaseRun} (hf : ∀ x, (f x).num = x.num) (s : State) (i k : Nat) :
    PhasesKept s (modPhase s i k f) :=
  phasesKept_modStream (fun r => by
    rw [List.map_map]
    refine List.map_congr_left fun x _ => ?_
    simp only [Function.comp_apply]
    split
    · exact hf x
    · rfl) s i

theorem phasesKept_ownerEnd (s : State) (o : OpOwner) (st : Status) : PhasesKept s (ownerEnd s o st) := by
  cases o with
  | io i k j => exact phasesKept_modPhase (f := fun x => { x with io := x.io.map (fun o => if o.idx = j then _ else o) }) (fun _ => rfl) s i k
  | fired k => exact .of_cmd rfl

theorem phasesKept_setColl (c : CollState) : PhasesKept s { s with coll := c } := .of_cmd rfl

theorem phasesKept_closeColl (s : State) (c : Coll) (st : Status) (parts : Nat) : PhasesKept s (closeColl s c st parts) := by
  have freed : PhasesKept s (if c.claimed then markSlots s c.first (coSlots c.desc) false else s) := by
    split
    · exact phasesKept_setColl _
    · exact .refl s
  exact ((freed.trans (.of_cmd (collResult_cmd _ c st parts))).trans (phasesKept_setColl _)).trans (phasesKept_ownerEnd _ c.owner st)

theorem phasesKept_abortHere (s : State) (c : Coll) (st : Status) : PhasesKept s (abortHere s c st) := by
  dsimp only [abortHere]
  refine PhasesKept.trans (.of_cmd ?_) (phasesKept_closeColl ..)
  rw [poisonDst_cmd]

theorem phasesKept_abortColl (s : State) (k : Nat) (st : Status) : PhasesKept s (abortColl s k st) := by
  unfold abortColl
  split
  · exact .refl s
  next c _ =>
    refine PhasesKept.trans (PhasesKept.trans (.of_cmd ?_) (.foldl (fun x j => .of_cmd ?_) _ _)) (phasesKept_abortHere ..)
    · show (if st = .mismatch then _ else s : State).cmd = s.cmd
      split <;> rfl
    · split
      · rfl
      · exact collSend_cmd ..

theorem phasesKept_abortCollsOf (s : State) (i : Nat) (k : Option Nat) : PhasesKept s (abortCollsOf s i k) :=
  .foldl (fun x j => phasesKept_abortColl x j .timeout) _ s

/-- The other phases of a stream keep it while one of them ends. -/
theorem endPhase_keeps_others {r : StreamRun} (hr : getStream s id = some r) (more : ∃ x ∈ r.running, x.num ≠ p) :
    ∃ r', getStream (endPhase s id p) id = some r' ∧ r'.running ≠ [] := by
  obtain ⟨x, hx, hn⟩ := more
  cases hp : getPhase s id p with
  | none =>
    refine ⟨r, ?_, List.ne_nil_of_mem hx⟩
    unfold endPhase
    rw [hr, hp]
    exact hr
  | some ph =>
    have left : (phaseGone ph p r).running ≠ [] := List.ne_nil_of_mem (List.mem_filter.mpr ⟨hx, by simpa using hn⟩)
    refine ⟨phaseGone ph p r, ?_, left⟩
    rw [endPhase_of hr hp, settleStream_stays (getStream_phaseGone hr) (.inl left)]
    exact getStream_phaseGone hr

theorem forceEnd_keeps_others {r : StreamRun} {st : Status} {hard : Bool} (hr : getStream s id = some r)
    (more : ∃ x ∈ r.running, x.num ≠ p) : ∃ r', getStream (forceEnd s id p st hard) id = some r' ∧ r'.running ≠ [] := by
  unfold forceEnd
  split
  · exact ⟨r, hr, List.ne_nil_of_mem more.choose_spec.1⟩
  next ph _ =>
    extract_lets mine s1 cs s2 s3 s4 s5 s6 s7
    have h1 : s1.cmd = s.cmd := dropCoreOps_cmd _ mine s
    have h3 : s3.cmd = s2.cmd := poisonGets_cmd ph.io s2
    have h5 : s5.cmd = s4.cmd := by
      simp only [s5]
      split
      · split
        · exact poisonMuu_cmd s4 _
        · rfl
      · rfl
    have h : s5.cmd = s.cmd := h5.trans (h3.trans h1)
    have h6 : PhasesKept s s6 := ((PhasesKept.of_cmd (show (dropSamples s5 id (some p)).cmd = s.cmd from h)).trans
      (phasesKept_abortCollsOf _ id (some p))).trans (.of_cmd (dropFired_cmd _ id (some p)))
    have h7 : PhasesKept s6 s7 := by
      refine phasesKept_modPhase ?_ s6 id p
      exact fun x => rfl
    obtain ⟨r7, is, nums⟩ := (h6.trans h7).runs id r hr
    refine endPhase_keeps_others is ?_
    obtain ⟨x, hx, hn⟩ := more
    obtain ⟨y, hy, ey⟩ := List.mem_map.1 (nums ▸ List.mem_map_of_mem hx : x.num ∈ r7.running.map (·.num))
    exact ⟨y, hy, by rw [ey]; exact hn⟩

end Sys2Proof.Laws
end

section
/-! PROOFS. Streams are admitted and stopped (O19). -/

namespace Sys2Proof.Laws

open Sys2Proof Sys2Proof.Machine
set_option Elab.async false

variable {s t : State} {n id p : Nat} {f : Fetched}

/-! ## Streams are admitted (R375) -/

/-- Fewer than 16 streams leave an id below 16 free. -/
theorem freeStream_free (h : s.cmd.streams.length < 16) : ∀ x ∈ s.cmd.streams, x.1 ≠ freeStream s := by
  have found : ∃ i, (List.range 16).find? (fun i => !(s.cmd.streams.any (·.1 == i))) = some i := by
    by_contra none_
    have all_ : ∀ i ∈ Finset.range 16, i ∈ (s.cmd.streams.map (·.1)).toFinset := fun i hi => by
      have e := (List.find?_eq_none.1 (Option.eq_none_iff_forall_not_mem.2 fun a ha => none_ ⟨a, ha⟩)) i
        (List.mem_range.2 (Finset.mem_range.1 hi))
      simpa using e
    have count := (Finset.card_le_card all_).trans (List.toFinset_card_le _)
    rw [Finset.card_range, List.length_map] at count
    exact absurd h (by omega)
  obtain ⟨i, hi⟩ := found
  have is : freeStream s = i := by rw [freeStream, hi]; rfl
  have free := List.find?_some hi
  rw [is]
  intro x hx e
  rw [Bool.not_eq_true', List.any_eq_false] at free
  exact free x hx (by simp [e])

/-- The state in which an admitted stream begins. -/
def streamBegun (s : State) (q : Nat) (f : Fetched) (p : StreamPlan) : State :=
  let s1 := zeroCounters s p.hdr
  { s1 with cmd := { s1.cmd with streams := s1.cmd.streams ++ [(freeStream s, newStream p (some (q, f.uid)) none)] } }

theorem getStream_streamBegun (h : s.cmd.streams.length < 16) (q : Nat) (f : Fetched) (p : StreamPlan) :
    getStream (streamBegun s q f p) (freeStream s) = some (newStream p (some (q, f.uid)) none) := by
  show ((s.cmd.streams ++ [(freeStream s, newStream p (some (q, f.uid)) none)]).find? (fun x => x.1 == freeStream s)).map _ = _
  rw [List.find?_append, List.find?_eq_none.2 fun x hx => by simpa using freeStream_free h x hx]
  simp

theorem admitStream_eq (h : s.cmd.streams.length < 16) (q : Nat) (f : Fetched) (p : StreamPlan) :
    admitStream s q f p = streamBegun s q f p :=
  settleStream_stays (getStream_streamBegun h q f p) (.inr ⟨rfl, Nat.succ_pos _⟩)

theorem smGet_filter_out {α : Type} {d : α} {g : Nat × α → Bool} {k : Nat} (h : ∀ v, g (k, v) = false) (m : List (Nat × α)) :
    smGet d (m.filter g) k = d := by
  induction m with
  | nil => rfl
  | cons x m ih =>
    obtain ⟨j, v⟩ := x
    rw [List.filter_cons]
    split
    next keep =>
      have ne : j ≠ k := fun e => by
        rw [e, h v] at keep
        cases keep
      rw [smGet, if_neg ne, ih]
    next => exact ih

theorem counter_zeroed {q : Nat} {pl : StreamPlan} {k : Nat} (lo : bits (le pl.hdr 48 2) 0 12 ≤ k)
    (hi : k < bits (le pl.hdr 48 2) 0 12 + bits (le pl.hdr 50 2) 0 13) : counter (streamBegun s q f pl) k = 0 :=
  smGet_filter_out (fun v => by simp [lo, hi]) s.cmd.counters

/-- How a stream stands that has begun. -/
structure StreamBegins (s t : State) (q : Nat) (f : Fetched) (p : StreamPlan) : Prop where
  runs : getStream t (freeStream s) = some (newStream p (some (q, f.uid)) none)
  mem : t.mem = s.mem
  out : t.out = s.out
  completed : t.cmd.completed = s.cmd.completed
  zero : ∀ k, bits (le p.hdr 48 2) 0 12 ≤ k → k < bits (le p.hdr 48 2) 0 12 + bits (le p.hdr 50 2) 0 13 → counter t k = 0

theorem StreamBegins.flat {q : Nat} {pl : StreamPlan} (h : StreamBegins s t q f pl) :
    getStream t (freeStream s) = some (newStream pl (some (q, f.uid)) none) ∧ t.mem = s.mem ∧ t.out = s.out ∧
      t.cmd.completed = s.cmd.completed ∧
      ∀ k, bits (le pl.hdr 48 2) 0 12 ≤ k → k < bits (le pl.hdr 48 2) 0 12 + bits (le pl.hdr 50 2) 0 13 → counter t k = 0 :=
  ⟨h.runs, h.mem, h.out, h.completed, h.zero⟩

theorem few_of_admits {pl : StreamPlan} (h : admits s pl = true) : s.cmd.streams.length < 16 := by
  simp only [admits, Bool.and_eq_true, decide_eq_true_eq] at h
  exact h.1

theorem admitStream_begins {pl : StreamPlan} (h : admits s pl = true) (q : Nat) (f : Fetched) :
    StreamBegins s (admitStream s q f pl) q f pl := by
  rw [admitStream_eq (few_of_admits h)]
  exact ⟨getStream_streamBegun (few_of_admits h) q f pl, rfl, rfl, rfl, fun k => counter_zeroed⟩

theorem runStream_begins {q : QueueId} {pl : StreamPlan} (hd : startDesc s q.toNat 0x0001 = some f)
    (ok : runCheck s (le f.desc 16 6) = .ok pl) (h : admits s pl = true) :
    Gives (.runStream q) s fun t => StreamBegins s t q.toNat f pl := by
  refine ⟨admitStream (markStarted s q.toNat f) q.toNat f pl, ?_, ?_⟩
  · show execRunStream q s = _
    simp only [execRunStream, hd, ok, h, if_true]
  · have begins := admitStream_begins (s := markStarted s q.toNat f) (pl := pl) h q.toNat f
    exact ⟨begins.runs, begins.mem, begins.out, begins.completed, begins.zero⟩

theorem runStream_waits {q : QueueId} {pl : StreamPlan} (hd : startDesc s q.toNat 0x0001 = some f)
    (ok : runCheck s (le f.desc 16 6) = .ok pl) (h : admits s pl = false) : Gives (.runStream q) s fun t =>
      t.cmd.streams = s.cmd.streams ∧ t.cmd.counters = s.cmd.counters ∧ t.mem = s.mem ∧ t.cmd.completed = s.cmd.completed := by
  refine ⟨markStarted s q.toNat f, ?_, rfl, rfl, rfl, rfl⟩
  show execRunStream q s = _
  simp only [execRunStream, hd, ok, h, Bool.false_eq_true, if_false]

theorem runStream_refused {q : QueueId} {e : Status} (hs : Sound s) (hd : startDesc s q.toNat 0x0001 = some f)
    (bad : runCheck s (le f.desc 16 6) = .error e) : Gives (.runStream q) s fun t =>
      t.cmd.streams = s.cmd.streams ∧ Answered s t q.toNat f false [] := by
  refine ⟨refuseDesc s q.toNat f e, ?_, completeFull_streams .., answered_refuseDesc hs e⟩
  show execRunStream q s = _
  simp only [execRunStream, hd, bad]

theorem streamAdmit_begins {q : QueueId} {pl : StreamPlan} (hd : findStarted s q.toNat 0x0001 f.index = some f)
    (new : s.cmd.streams.all (fun x => x.2.queue != some (q.toNat, f.uid)) = true)
    (ok : runCheck s (le f.desc 16 6) = .ok pl) (h : admits s pl = true) :
    Gives (.streamAdmit q f.index) s fun t => StreamBegins s t q.toNat f pl := by
  refine ⟨admitStream s q.toNat f pl, ?_, admitStream_begins h q.toNat f⟩
  show execStreamAdmit q f.index s = _
  simp only [execStreamAdmit, hd, new, ok, h, if_true]

/-! ## Streams are stopped (R367, R386) -/

theorem getStream_completeDesc (f : Fetched) (st : Status) (id : Nat) :
    getStream (completeDesc s n f st) id = getStream s id := by rw [getStream, completeDesc_streams]; rfl

theorem getDesc_completeDesc (hs : Sound s) (f : Fetched) (st : Status) : getDesc (completeDesc s n f st) n f.uid = none :=
  (answered_completeDesc hs st).gone

/-- A stream that is stopped softly. -/
def stopped (st : Status) (r : StreamRun) : StreamRun := { r with stop := some (r.stop.getD st) }

theorem getStream_stopStream {st : Status} (id : Nat) : getStream (stopStream s id st) id = (getStream s id).map (stopped st) := by
  rw [stopStream, getStream_modStream_self]
  congr 1
  funext r
  cases h : r.stop <;> simp [stopped, h]

theorem softStop_stops {st : Status} {r : StreamRun} (h : getStream (softStop s id st) id = some r) : r.stop.isSome = true := by
  obtain ⟨was, -⟩ := getStream_settleStream _ id h
  rw [getStream_stopStream] at was
  obtain ⟨x, -, rfl⟩ := Option.map_eq_some_iff.1 was
  rfl

theorem softStop_runs_on {st : Status} {r : StreamRun} (hr : getStream s id = some r) (more : r.running ≠ []) :
    getStream (softStop s id st) id = some (stopped st r) := by
  have is : getStream (stopStream s id st) id = some (stopped st r) := by rw [getStream_stopStream, hr]; rfl
  rw [softStop, settleStream_stays is (.inl more), is]

theorem softStop_ends {st : Status} {r : StreamRun} (hr : getStream s id = some r) (over_ : r.running = [])
    (quiet : firedLeft s id = false) : getStream (softStop s id st) id = none := by
  have is : getStream (stopStream s id st) id = some (stopped st r) := by rw [getStream_stopStream, hr]; rfl
  exact settleStream_ends is over_ (.inl rfl) quiet

/-- The state in which STREAM_ABORT stops its stream. -/
def abortedStream (s : State) (q : Nat) (f : Fetched) (id : Nat) : State :=
  if flag f.desc 20 0 then forceStream (markStarted s q f) id .aborted else softStop (markStarted s q f) id .aborted

theorem abortedStream_sound (hs : Sound s) (q : Nat) (f : Fetched) (id : Nat) : Sound (abortedStream s q f id) := by
  unfold abortedStream
  split <;> simp [hs]

theorem streamAbort_exec {q : QueueId} (hd : startDesc s q.toNat 0x0002 = some f)
    (same : (getQueue s (le f.desc 16 1)).owner = (getQueue s q.toNat).owner)
    (hid : streamOf s (le f.desc 16 1) (le f.desc 18 2) = some id) :
    exec (.streamAbort q) s = .next (completeDesc (abortedStream s q.toNat f id) q.toNat f .ok) := by
  show execStreamAbort q s = _
  simp only [execStreamAbort, hd, same, hid, ne_eq, not_true_eq_false, if_false]
  rfl

theorem streamAbort_soft {q : QueueId} (hs : Sound s) (hd : startDesc s q.toNat 0x0002 = some f)
    (same : (getQueue s (le f.desc 16 1)).owner = (getQueue s q.toNat).owner)
    (hid : streamOf s (le f.desc 16 1) (le f.desc 18 2) = some id) (soft : flag f.desc 20 0 = false) :
    Gives (.streamAbort q) s fun t =>
      (∀ r, getStream t id = some r → r.stop.isSome = true) ∧ getDesc t q.toNat f.uid = none ∧
      ∀ r, getStream s id = some r →
        (r.running ≠ [] → getStream t id = some { r with stop := some (r.stop.getD .aborted) }) ∧
        (r.running = [] → firedLeft s id = false → getStream t id = none) := by
  refine ⟨_, streamAbort_exec hd same hid, ?_, getDesc_completeDesc (abortedStream_sound hs ..) f .ok, ?_⟩
  all_goals rw [getStream_completeDesc, show abortedStream s q.toNat f id = softStop (markStarted s q.toNat f) id .aborted from
    if_neg (by rw [soft]; exact Bool.false_ne_true)]
  · exact fun r => softStop_stops
  · exact fun r hr => ⟨softStop_runs_on (s := markStarted s q.toNat f) hr, softStop_ends (s := markStarted s q.toNat f) hr⟩

theorem streamAbort_hard {q : QueueId} (hs : Sound s) (hd : startDesc s q.toNat 0x0002 = some f)
    (same : (getQueue s (le f.desc 16 1)).owner = (getQueue s q.toNat).owner)
    (hid : streamOf s (le f.desc 16 1) (le f.desc 18 2) = some id) (hard : flag f.desc 20 0 = true) :
    Gives (.streamAbort q) s fun t =>
      (∀ r, getStream t id = some r → r.stop.isSome = true ∧ r.running = []) ∧ getDesc t q.toNat f.uid = none ∧
      (s.coll.firedOps = [] → (∀ x ∈ s.coll.triggers, x.stream ≠ id) → getStream t id = none) := by
  refine ⟨_, streamAbort_exec hd same hid, ?_, getDesc_completeDesc (abortedStream_sound hs ..) f .ok, ?_⟩
  all_goals rw [getStream_completeDesc, show abortedStream s q.toNat f id = forceStream (markStarted s q.toNat f) id .aborted from
    if_pos hard]
  · intro r hr
    cases was : getStream (markStarted s q.toNat f) id with
    | none =>
      unfold forceStream at hr
      rw [was] at hr
      exact absurd (was.symm.trans hr) (by simp)
    | some r0 =>
      obtain ⟨st, run⟩ := forceStream_left was hr
      exact ⟨by rw [st]; rfl, run⟩
  · exact fun h0 h1 => forceStream_gone (s := markStarted s q.toNat f) h0 h1

theorem streamAbort_refused {q : QueueId} (hs : Sound s) (hd : startDesc s q.toNat 0x0002 = some f)
    (bad : ¬(getQueue s (le f.desc 16 1)).owner = (getQueue s q.toNat).owner ∨ streamOf s (le f.desc 16 1) (le f.desc 18 2) = none) :
    Gives (.streamAbort q) s fun t => t.cmd.streams = s.cmd.streams ∧ Answered s t q.toNat f false [] := by
  refine ⟨refuseDesc s q.toNat f .badField, ?_, completeFull_streams .., answered_refuseDesc hs .badField⟩
  show execStreamAbort q s = _
  by_cases own : (getQueue s (le f.desc 16 1)).owner = (getQueue s q.toNat).owner
  · simp only [execStreamAbort, hd, own, ne_eq, not_true_eq_false, if_false, bad.resolve_left (not_not_intro own)]
  · simp only [execStreamAbort, hd, own, ne_eq, not_false_eq_true, if_true]

end Sys2Proof.Laws
end

section
/-! PROOFS. Phases start, are passed over, or wait (O19). -/

namespace Sys2Proof.Laws

open Sys2Proof Sys2Proof.Machine
set_option Elab.async false

variable {s t : State} {n id p : Nat} {f : Fetched}

/-! ## The lists of a phase (R380) -/

theorem mem_distinct {α : Type} [BEq α] [LawfulBEq α] {x : α} {l : List α} : x ∈ distinct l ↔ x ∈ l := by
  induction l with
  | nil => rfl
  | cons a l ih =>
    by_cases e : x = a
    · simp [distinct, e]
    · simp [distinct, ih, e]

theorem distinct_length_le {α : Type} [BEq α] (l : List α) : (distinct l).length ≤ l.length := by
  induction l with
  | nil => exact Nat.le_refl 0
  | cons a l ih => exact Nat.succ_le_succ ((List.length_filter_le _ _).trans ih)

/-- A list that loses nothing to `distinct` names nothing twice. -/
theorem nodup_of_distinct {α : Type} [BEq α] [LawfulBEq α] {l : List α} (h : (distinct l).length = l.length) : l.Nodup := by
  induction l with
  | nil => exact List.nodup_nil
  | cons a l ih =>
    have bound := distinct_length_le l
    have filtered := List.length_filter_le (fun x => !(x == a)) (distinct l)
    simp only [distinct, List.length_cons, Nat.add_right_cancel_iff] at h
    refine List.nodup_cons.2 ⟨fun ha => ?_, ih (by omega)⟩
    have kept := List.length_filter_eq_length_iff.1 (show ((distinct l).filter (fun x => !(x == a))).length = _ by omega) a
      (mem_distinct.2 ha)
    simp at kept

theorem listTable_nodup {m a : Nat} {es : List ListEntry} (h : listTable s m a = .ok es) : (es.map (·.core)).Nodup := by
  unfold listTable at h
  split at h
  · cases h
    exact List.nodup_nil
  · dsimp only at h
    split at h
    · cases h
    · split at h
      · cases h
      · split at h
        · cases h
        next clean =>
          cases h
          have one := firstFail_eq_none.1 clean _ (List.mem_cons_of_mem _ (List.mem_cons_of_mem _ (List.mem_cons_of_mem _
            List.mem_cons_self)))
          exact nodup_of_distinct (by simpa using failIf_eq_none.1 one)

theorem tableOf_nodup {m : Nat} {r : Bytes} {k : Nat} :
    ((tableOf ((listTables s m r).getD k (.ok []))).map (·.core)).Nodup := by
  rw [List.getD_eq_getElem?_getD]
  cases h : (listTables s m r)[k]? with
  | none => exact List.nodup_nil
  | some x =>
    obtain ⟨j, -, rfl⟩ := List.mem_map.1 (List.mem_of_getElem? h)
    cases e : listTable s m ((recVars r).getD j 0) with
    | error st => exact List.nodup_nil
    | ok es => exact listTable_nodup e

theorem go_of_ite {c : Prop} [Decidable c] {a g : PhaseGate} {pl : PhasePlan} (h : (if c then a else g) = .go pl)
    (ha : a ≠ .go pl) : g = .go pl := by
  by_cases hc : c
  · rw [if_pos hc] at h
    exact absurd h ha
  · rwa [if_neg hc] at h

theorem phaseGate_nodup {r : StreamRun} {pl : PhasePlan} (h : phaseGate s r = .go pl) : (pl.lists.map (·.core)).Nodup := by
  unfold phaseGate at h
  dsimp only at h
  split at h
  · cases h
  replace h := go_of_ite (go_of_ite (go_of_ite (go_of_ite h nofun) nofun) nofun) nofun
  split at h
  · cases h
  replace h := go_of_ite h nofun
  split at h
  · cases h
  obtain rfl := PhaseGate.go.inj (go_of_ite h nofun)
  exact tableOf_nodup

/-! ## Start tokens (R381) -/

/-- A core that has been given a token. -/
def withToken (svc : Bool) (t : Token) (c : Core) : Core :=
  if svc then { c with svcTokens := c.svcTokens ++ [t] } else { c with tokens := c.tokens ++ [t] }

theorem sendToken_eq (svc : Bool) (t : Token) (s : State) (e : ListEntry) :
    sendToken svc t s e = setCore s e.core (withToken svc { t with off := e.off, len := e.len } (getCore s e.core)) := rfl

/-- Each core of a table that names none twice is given its token; the other cores are as they were. -/
theorem getCore_sendTokens (svc : Bool) (t : Token) (l : List ListEntry) : ∀ s : State, keysRise s.cores = true →
    (l.map (·.core)).Nodup →
    (∀ n ∉ l.map (·.core), getCore (l.foldl (sendToken svc t) s) n = getCore s n) ∧
    ∀ e ∈ l, getCore (l.foldl (sendToken svc t) s) e.core =
      withToken svc { t with off := e.off, len := e.len } (getCore s e.core) := by
  induction l with
  | nil => exact fun s _ _ => ⟨fun _ _ => rfl, fun e h => absurd h (by simp)⟩
  | cons a l ih =>
    intro s rise nodup
    rw [List.map_cons, List.nodup_cons] at nodup
    obtain ⟨rest_, done⟩ := ih (sendToken svc t s a) (by rw [sendToken_eq]; exact keysRise_smSet rise) nodup.2
    refine ⟨fun n hn => ?_, fun e he => ?_⟩
    · rw [List.map_cons, List.mem_cons, not_or] at hn
      rw [List.foldl_cons, rest_ n hn.2, sendToken_eq, getCore_setCore_other rise hn.1]
    · rw [List.foldl_cons]
      rcases List.mem_cons.1 he with rfl | later
      · rw [rest_ _ nodup.1, sendToken_eq, getCore_setCore_self rise]
      · rw [done e later, sendToken_eq, getCore_setCore_other rise fun h => nodup.1 (by rw [← h]; exact List.mem_map_of_mem later)]

theorem launchPhase_lists (s : State) (pl : PhasePlan) (l : List (Binding × Nat)) :
    (l.foldl patchBind (pl.lists.foldl copyList s)).cores = s.cores ∧ (l.foldl patchBind (pl.lists.foldl copyList s)).cmd = s.cmd :=
  ⟨cores_eq ((foldl_rest (f := patchBind) (fun x d => patchBind_rest x d (by decide)) _ _).trans
      (foldl_rest (f := copyList) (fun x d => copyList_rest x d (by decide)) _ s)),
    cmd_eq ((foldl_rest (f := patchBind) (fun x d => patchBind_rest x d (by decide)) _ _).trans
      (foldl_rest (f := copyList) (fun x d => copyList_rest x d (by decide)) _ s))⟩

theorem sendTokens_cmd (svc : Bool) (t : Token) (l : List ListEntry) (s : State) : (l.foldl (sendToken svc t) s).cmd = s.cmd :=
  cmd_eq (foldl_rest (f := sendToken svc t) (fun x d => sendToken_rest svc t x d (by decide)) _ s)

theorem launchPhase_cmd (s : State) (id : Nat) (r : StreamRun) (p : Nat) (pl : PhasePlan) : (launchPhase s id r p pl).cmd = s.cmd := by
  unfold launchPhase
  exact (sendTokens_cmd ..).trans (launchPhase_lists s pl _).2

theorem launchPhase_token {r : StreamRun} {pl : PhasePlan} (rise : keysRise s.cores = true) (one : (pl.lists.map (·.core)).Nodup)
    {e : ListEntry} (he : e ∈ pl.lists) : getCore (launchPhase s id r p pl) e.core = withToken r.svc.isSome
      { phaseToken id p (r.steps.getD (stepIdxOf r.steps p) []) pl with off := e.off, len := e.len } (getCore s e.core) := by
  unfold launchPhase
  obtain ⟨cores, -⟩ := launchPhase_lists s pl ((pl.binds.map bindingOf).zip pl.res.slots)
  rw [(getCore_sendTokens _ _ pl.lists _ (by rw [cores]; exact rise) one).2 e he, getCore, cores]
  rfl

/-! ## Phases start (R381) -/

/-- The state in which a phase of a stream has started. -/
def phaseStarted (s : State) (id : Nat) (r : StreamRun) (pl : PhasePlan) : State :=
  launchPhase (modStream (takePins s pl.res (recMb pl.record)) id (fun x =>
    { x with nextPhase := x.nextPhase + 1, running := x.running ++ [newPhase s r pl] })) id r r.nextPhase pl

section
variable {stream : StreamId} {r : StreamRun} (hr : getStream s stream.toNat = some r) (open_ : quiescing s = false)
  (run : r.stop = none) (more : r.nextPhase < hdrPhases r.hdr)
include hr open_ run more

theorem phaseStart_go {pl : PhasePlan} (go : phaseGate s r = .go pl) :
    exec (.phaseStart stream) s = .next (phaseStarted s stream.toNat r pl) := by
  show execPhaseStart stream s = _
  simp only [execPhaseStart, hr, open_, run, Nat.not_le.2 more, go]
  rfl

theorem phaseStart_done {st : Status} (gate : phaseGate s r = .done st) :
    exec (.phaseStart stream) s = .next (skipPhase s stream.toNat r st) := by
  show execPhaseStart stream s = _
  simp only [execPhaseStart, hr, open_, run, Nat.not_le.2 more, gate]
  rfl

theorem phaseStart_wait (gate : phaseGate s r = .wait) : exec (.phaseStart stream) s = .next s := by
  show execPhaseStart stream s = _
  simp only [execPhaseStart, hr, open_, run, Nat.not_le.2 more, gate]
  rfl

end

theorem takePins_kept (s : State) (r : Resolve) (mb : Option Nat) :
    (takePins s r mb).cmd = s.cmd ∧ (takePins s r mb).cores = s.cores :=
  ⟨cmd_eq (by simp), cores_eq (by simp)⟩

theorem phaseStarted_token {r : StreamRun} {pl : PhasePlan} (rise : keysRise s.cores = true)
    (one : (pl.lists.map (·.core)).Nodup) {e : ListEntry} (he : e ∈ pl.lists) :
    getCore (phaseStarted s id r pl) e.core = withToken r.svc.isSome
      { phaseToken id r.nextPhase (r.steps.getD (stepIdxOf r.steps r.nextPhase) []) pl with off := e.off, len := e.len }
      (getCore s e.core) := by
  obtain ⟨-, cores⟩ := takePins_kept s pl.res (recMb pl.record)
  unfold phaseStarted
  generalize hv : modStream (takePins s pl.res (recMb pl.record)) id _ = v
  have same : v.cores = s.cores := by rw [← hv]; exact cores
  rw [launchPhase_token (by rw [same]; exact rise) one he, getCore, same]
  rfl

theorem phaseStart_starts {stream : StreamId} {r : StreamRun} {pl : PhasePlan} (hs : Sound s)
    (hr : getStream s stream.toNat = some r) (open_ : quiescing s = false) (run : r.stop = none)
    (more : r.nextPhase < hdrPhases r.hdr) (go : phaseGate s r = .go pl) : Gives (.phaseStart stream) s fun t =>
      getStream t stream.toNat = some { r with nextPhase := r.nextPhase + 1, running := r.running ++ [newPhase s r pl] } ∧
      ∀ e ∈ pl.lists,
        let tok := { phaseToken stream.toNat r.nextPhase (r.steps.getD (stepIdxOf r.steps r.nextPhase) []) pl with
          off := e.off, len := e.len }
        if r.svc.isSome then (getCore t e.core).svcTokens = (getCore s e.core).svcTokens ++ [tok]
        else (getCore t e.core).tokens = (getCore s e.core).tokens ++ [tok] := by
  obtain ⟨cmd, -⟩ := takePins_kept s pl.res (recMb pl.record)
  refine ⟨_, phaseStart_go hr open_ run more go, ?_, fun e he => ?_⟩
  · rw [phaseStarted, getStream_of_cmd (launchPhase_cmd ..), getStream_modStream_self, getStream_of_cmd cmd, hr]
    rfl
  · intro tok
    rw [phaseStarted_token hs.cores (phaseGate_nodup go) he]
    cases r.svc <;> rfl

/-- A phase that is passed over. -/
def skipped (st : Status) (p : Nat) (x : StreamRun) : StreamRun :=
  { x with nextPhase := p + 1, done := p :: x.done,
           stop := if stopping st then x.stop.orElse (fun _ => some st) else x.stop }

theorem skipPhase_eq (s : State) (id : Nat) (r : StreamRun) (st : Status) : ∃ u : State, u.cmd = s.cmd ∧
    skipPhase s id r st = settleStream (modStream u id (skipped st r.nextPhase)) id := by
  unfold skipPhase
  dsimp only
  refine ⟨_, cmd_eq ?_, rfl⟩
  rw [putPstat_rest _ _ _ _ (by decide)]
  split
  · exact endMb_rest _ _ _ _ _ (by decide)
  · rfl

theorem phaseStart_skips {stream : StreamId} {r : StreamRun} {st : Status} (hr : getStream s stream.toNat = some r)
    (open_ : quiescing s = false) (run : r.stop = none) (more : r.nextPhase < hdrPhases r.hdr) (gate : phaseGate s r = .done st) :
    Gives (.phaseStart stream) s fun t => t.cores = s.cores ∧ ∀ r', getStream t stream.toNat = some r' →
      r'.nextPhase = r.nextPhase + 1 ∧ r.nextPhase ∈ r'.done ∧ r'.running = r.running ∧
      (stopping st = true → r'.stop = some st) := by
  refine ⟨skipPhase s stream.toNat r st, phaseStart_done hr open_ run more gate, cores_eq (by simp), ?_⟩
  obtain ⟨u, cmd, eq⟩ := skipPhase_eq s stream.toNat r st
  intro r' hr'
  rw [eq] at hr'
  obtain ⟨was, -⟩ := getStream_settleStream _ _ hr'
  rw [getStream_modStream_self, getStream_of_cmd cmd, hr] at was
  cases was
  refine ⟨rfl, List.mem_cons_self, rfl, fun h => ?_⟩
  simp [skipped, h, run]

theorem phaseStart_still {stream : StreamId} {r : StreamRun} (hr : getStream s stream.toNat = some r) (open_ : quiescing s = false)
    (run : r.stop = none) (more : r.nextPhase < hdrPhases r.hdr) (gate : phaseGate s r = .wait) :
    Gives (.phaseStart stream) s fun t => t = s :=
  ⟨s, phaseStart_wait hr open_ run more gate, rfl⟩

end Sys2Proof.Laws
end

section
/-! PROOFS. Phases complete, run again, and are ended by their watchdog (O19). -/

namespace Sys2Proof.Laws

open Sys2Proof Sys2Proof.Machine
set_option Elab.async false

variable {s t : State} {n id p : Nat} {f : Fetched}

/-! ## Phases complete (R383 to R385) -/

/-- A phase of a stream that has ended, seen from a state with the stream as it was. -/
theorem endPhase_done {r : StreamRun} (hr : getStream s id = some r) (hp : (getPhase s id p).isSome = true) {r' : StreamRun}
    (h : getStream (endPhase s id p) id = some r') : (∀ x ∈ r'.running, x.num ≠ p) ∧ p ∈ r'.done := by
  obtain ⟨ph, hph⟩ := Option.isSome_iff_exists.1 hp
  refine ⟨endPhase_lacks s id p h, ?_⟩
  rw [endPhase_stream hr hph h]
  exact List.mem_cons_self

/-- What the end of a phase leaves of its bindings and its micro-batch. -/
def phaseLeft (s : State) (r : StreamRun) (ph : PhaseRun) (p : Nat) : State :=
  withTrn ph (fun x => endMb x r p ph.record (phaseStatus ph)) (endPhaseBinds ph s)

theorem phaseLeft_rest {may : Spot → Bool} (hw : may .mem = true ∧ may .trn = true ∧ may .trnRun = true) (s : State) (r : StreamRun)
    (ph : PhaseRun) (p : Nat) : rest may (phaseLeft s r ph p) = rest may s := by
  rw [phaseLeft, withTrn_rest (fun x => endMb_rest x r p _ _ hw) ph _ hw.2.1, endPhaseBinds_rest _ _ hw]

theorem phaseLeft_ground (s : State) (r : StreamRun) (ph : PhaseRun) (p : Nat) : ground (phaseLeft s r ph p) = ground s := by
  have hif : (phaseLeft s r ph p).hif = s.hif := hif_eq (phaseLeft_rest (by decide) ..)
  refine ground_of_parts (by rw [cr_eq (phaseLeft_rest (by decide) s r ph p)]) (by rw [mr_eq (phaseLeft_rest (by decide) s r ph p)])
    (by rw [fw_eq (phaseLeft_rest (by decide) s r ph p)]) (by rw [hif]) (fun q => ?_)
    (by rw [fab_eq (phaseLeft_rest (by decide) s r ph p)])
  have port : getPort (phaseLeft s r ph p) q = getPort s q := by cases q <;> simp only [getPort, hif]
  rw [port]
  exact ⟨rfl, rfl⟩

theorem phaseLeft_sound (hs : Sound s) (r : StreamRun) (ph : PhaseRun) (p : Nat) : Sound (phaseLeft s r ph p) := by
  have ended : Sound (endPhaseBinds ph s) := by simp [hs]
  exact (withTrn_sound (fun x hx => by simp [hx]) ph _).mpr (.inl ended)

theorem endPhase_others {r : StreamRun} {ph : PhaseRun} (hs : Sound s) (hr : getStream s id = some r)
    (hp : getPhase s id p = some ph) (others_ : r.running.filter (·.num != p) ≠ []) :
    (∃ r', getStream (endPhase s id p) id = some r' ∧ r'.running = r.running.filter (·.num != p)) ∧
    (canAccess s .dram (hdrPstat r.hdr + 2 * p) 2 = true →
      memLe (endPhase s id p) (hdrPstat r.hdr + 2 * p) 2 = statusCode (phaseStatus ph)) := by
  have is := getStream_phaseGone (p := p) (ph := ph) hr
  rw [endPhase_of hr hp, settleStream_stays is (.inl others_)]
  refine ⟨⟨_, is, rfl⟩, fun reach => ?_⟩
  show memLe (putPstat (phaseLeft s r ph p) r p (phaseStatus ph)) _ 2 = _
  have two : (leBytes 2 (statusCode (phaseStatus ph))).length = 2 := leBytes_length ..
  have written := memRead_memWrite_self (phaseLeft_sound hs r ph p).mem (hdrPstat r.hdr + 2 * p)
    (leBytes 2 (statusCode (phaseStatus ph))) false
  rw [two] at written
  rw [putPstat, write, two, canAccess_of_ground (phaseLeft_ground s r ph p), if_pos reach, memLe]
  show leNat (memRead (memWrite _ _ _ _) _ 2) = _
  rw [written, leNat_leBytes]
  exact Nat.mod_eq_of_lt (statusCode_lt _)

theorem endPhase_last {r : StreamRun} {ph : PhaseRun} (hr : getStream s id = some r) (hp : getPhase s id p = some ph)
    (alone : r.running.filter (·.num != p) = []) (last : hdrPhases r.hdr ≤ r.nextPhase) (quiet : firedLeft s id = false) :
    getStream (endPhase s id p) id = none := by
  rw [endPhase_of hr hp]
  refine settleStream_ends (getStream_phaseGone hr) alone (.inr last) ?_
  have coll : (modStream (phaseWritten s r ph p) id (phaseGone ph p)).coll = s.coll := phaseWritten_coll s r ph p
  rw [← quiet, firedLeft, coll]
  rfl

/-- The phase that a command names. -/
theorem num_of_getPhase {ph : PhaseRun} (h : getPhase s id p = some ph) : ph.num = p := by
  obtain ⟨-, -, -, e⟩ := phaseOf_stream h
  exact e

/-! ## A trigger fires (R218, R220, R221) -/

/-- The policy of a phase's ladder entry. -/
def rungPolicy (ph : PhaseRun) : Nat := if ph.ladderEntry.isNone then 0 else field ph.ladder 0 4 2

/-- Whether a phase is at the top of its ladder. -/
def atTop (ph : PhaseRun) : Bool := decide (field ph.ladder 0 2 2 ≤ ph.rung)

/-- What a trigger leaves whose phase does not run again: the ladder entry updated, and a RAISE counted. -/
def triggered (s : State) (r : StreamRun) (ph : PhaseRun) (top : Bool) : State :=
  let s1 := ladderUpdate s ph.ladderEntry (triggerEntry (stepNo (r.steps.getD ph.stepIdx [])) top (rungPolicy ph) ph.rung)
  let s2 := if rungPolicy ph = 2 ∧ top = false then { s1 with cr := { s1.cr with raises := satAdd s1.cr.raises 1 } } else s1
  triggerEvent s2 ph (if top then 3 else if rungPolicy ph = 2 then 2 else 0)

theorem ladderUpdate_cr (s : State) (e : Option Nat) (g : Bytes → Bytes) : (ladderUpdate s e g).cr = s.cr := cr_eq (by simp)

theorem ladderUpdate_cmd (s : State) (e : Option Nat) (g : Bytes → Bytes) : (ladderUpdate s e g).cmd = s.cmd := cmd_eq (by simp)

theorem triggerEvent_cr (s : State) (ph : PhaseRun) (k : Nat) : (triggerEvent s ph k).cr = s.cr := cr_eq (by simp)

theorem triggerEvent_cmd (s : State) (ph : PhaseRun) (k : Nat) : (triggerEvent s ph k).cmd = s.cmd := cmd_eq (by simp)

theorem endPhase_cr (s : State) (id p : Nat) : (endPhase s id p).cr = s.cr := cr_eq (by simp)

theorem triggered_cmd (s : State) (r : StreamRun) (ph : PhaseRun) (top : Bool) : (triggered s r ph top).cmd = s.cmd := by
  unfold triggered
  dsimp only
  rw [triggerEvent_cmd]
  split <;> exact ladderUpdate_cmd ..

theorem triggered_cr (s : State) (r : StreamRun) (ph : PhaseRun) (top : Bool) :
    (triggered s r ph top).cr.reruns = s.cr.reruns ∧
    (triggered s r ph top).cr.raises = if rungPolicy ph = 2 ∧ top = false then satAdd s.cr.raises 1 else s.cr.raises := by
  unfold triggered
  dsimp only
  rw [triggerEvent_cr]
  split <;> simp only [ladderUpdate_cr, and_self]

/-- A phase that does not run again completes. -/
theorem afterTrigger_ends {r : StreamRun} {ph : PhaseRun}
    (h : rungPolicy ph ≠ 1 ∨ atTop ph = true ∨ nextRung s ph = none) :
    afterTrigger s id r ph = endPhase (triggered s r ph (atTop ph || rungPolicy ph == 1)) id ph.num := by
  have next : (if (rungPolicy ph = 1 && !(atTop ph)) then nextRung s ph else none) = none := by
    rcases h with h | h | h
    · simp [h]
    · simp [h]
    · rw [h, ite_self]
  unfold afterTrigger
  extract_lets policy step full next_ top entry
  have is : next_ = none := next
  have top_ : top = (atTop ph || rungPolicy ph == 1) := by
    show (full || (policy == 1 && next_.isNone)) = _
    rw [is, Option.isNone_none, Bool.and_true]
    rfl
  rw [is, ← top_]
  rfl

theorem phaseComplete_ends {stream : StreamId} {phase : PhaseNo} {r : StreamRun} {ph : PhaseRun}
    (hr : getStream s stream.toNat = some r) (hp : getPhase s stream.toNat phase.toNat = some ph) (over_ : phaseOver ph = true)
    (fired : blinkFired ph = true ∨ clipFired ph = true)
    (h : rungPolicy ph ≠ 1 ∨ atTop ph = true ∨ nextRung s ph = none) : Gives (.phaseComplete stream phase) s fun t =>
      (∀ r', getStream t stream.toNat = some r' → (∀ x ∈ r'.running, x.num ≠ phase.toNat) ∧ phase.toNat ∈ r'.done) ∧
      t.cr.reruns = s.cr.reruns ∧
      t.cr.raises = if rungPolicy ph = 2 ∧ atTop ph = false then satAdd s.cr.raises 1 else s.cr.raises := by
  have run : exec (.phaseComplete stream phase) s = .next (afterTrigger s stream.toNat r ph) := by
    show execPhaseComplete stream phase s = _
    have any : (blinkFired ph || clipFired ph) = true := by simpa using fired
    simp only [execPhaseComplete, hr, hp, over_, any, if_true]
  refine ⟨_, run, ?_⟩
  dsimp only
  rw [afterTrigger_ends h, num_of_getPhase hp, endPhase_cr]
  generalize htop : (atTop ph || rungPolicy ph == 1) = top
  obtain ⟨reruns, raises⟩ := triggered_cr s r ph top
  have cmd := triggered_cmd s r ph top
  refine ⟨fun r' => endPhase_done (by rw [getStream_of_cmd cmd, hr]) (by rw [getPhase_of_cmd cmd, hp]; rfl), reruns, ?_⟩
  rw [raises]
  congr 1
  subst htop
  by_cases two : rungPolicy ph = 2 <;> simp [two]

theorem nextRung_higher {ph : PhaseRun} {e : Bytes} {k : Nat} (h : nextRung s ph = some (e, k)) : ph.rung < k := by
  obtain ⟨a, -, ha⟩ := Option.bind_eq_some_iff.1 h
  dsimp only at ha
  split at ha
  next c =>
    cases ha
    simpa using (Bool.and_eq_true_iff.1 c).2
  next => cases ha

/-- A phase that runs again. -/
def rerun (ph : PhaseRun) (s : State) (e : Bytes) (k : Nat) (es : List ListEntry) (x : PhaseRun) : PhaseRun :=
  { x with rung := k, ladder := e, old := oldNow s ph, cores := es.map (·.core), ioNext := 0, seen := [], errMax := 0,
           exceed := false }

theorem rerunPhase_phase {r : StreamRun} {ph : PhaseRun} (hp : getPhase s id ph.num = some ph) (e : Bytes) (k : Nat)
    (es : List ListEntry) : getPhase (rerunPhase s id r ph e k es) id ph.num = some (rerun ph s e k es ph) := by
  unfold rerunPhase
  dsimp only
  rw [getPhase_of_cmd (launchPhase_cmd ..)]
  refine (getPhase_modPhase_self (f := rerun ph s e k es) fun _ => rfl).trans ?_
  rw [hp]
  rfl

theorem rerunPhase_cr (s : State) (id : Nat) (r : StreamRun) (ph : PhaseRun) (e : Bytes) (k : Nat) (es : List ListEntry) :
    (rerunPhase s id r ph e k es).cr = s.cr := cr_eq (by simp)

/-- A rerun counted, and its event raised. -/
def rerunCounted (s : State) (ph : PhaseRun) : State :=
  triggerEvent { s with cr := { s.cr with reruns := satAdd s.cr.reruns 1 } } ph 1

theorem rerunCounted_cr (s : State) (ph : PhaseRun) : (rerunCounted s ph).cr = { s.cr with reruns := satAdd s.cr.reruns 1 } :=
  triggerEvent_cr ..

theorem rerunCounted_cmd (s : State) (ph : PhaseRun) : (rerunCounted s ph).cmd = s.cmd := triggerEvent_cmd ..

/-- A phase runs again at the next rung, with its ladder entry updated. -/
theorem afterTrigger_reruns {r : StreamRun} {ph : PhaseRun} {e : Bytes} {k : Nat} {es : List ListEntry} (one : rungPolicy ph = 1)
    (low : atTop ph = false) (hn : nextRung s ph = some (e, k)) (hl : rerunLists s r ph k = .ok es) :
    ∃ g, afterTrigger s id r ph = rerunPhase (rerunCounted (ladderUpdate s ph.ladderEntry g) ph) id r ph e k es := by
  unfold afterTrigger
  extract_lets policy step full next_ top entry
  have is : next_ = some (e, k) := by
    show (if (rungPolicy ph = 1 && !(atTop ph)) then nextRung s ph else none) = _
    simp [one, low, hn]
  refine ⟨triggerEntry step top 1 ph.rung, ?_⟩
  rw [is]
  dsimp only
  rw [hl]
  rfl

theorem phaseComplete_reruns {stream : StreamId} {phase : PhaseNo} {r : StreamRun} {ph : PhaseRun} {e : Bytes} {k : Nat}
    {es : List ListEntry} (hr : getStream s stream.toNat = some r) (hp : getPhase s stream.toNat phase.toNat = some ph)
    (over_ : phaseOver ph = true) (fired : blinkFired ph = true ∨ clipFired ph = true) (one : rungPolicy ph = 1)
    (low : atTop ph = false) (hn : nextRung s ph = some (e, k)) (hl : rerunLists s r ph k = .ok es) :
    Gives (.phaseComplete stream phase) s fun t =>
      ph.rung < k ∧ t.cr.reruns = satAdd s.cr.reruns 1 ∧ t.cr.raises = s.cr.raises ∧
      ∃ x, getPhase t stream.toNat phase.toNat = some x ∧ x.rung = k ∧ x.cores = es.map (·.core) ∧ x.ioNext = 0 ∧
        x.seen = [] ∧ x.exceed = false ∧ x.slots = ph.slots := by
  obtain ⟨g, after⟩ := afterTrigger_reruns (id := stream.toNat) one low hn hl
  have run : exec (.phaseComplete stream phase) s = .next (afterTrigger s stream.toNat r ph) := by
    show execPhaseComplete stream phase s = _
    have any : (blinkFired ph || clipFired ph) = true := by simpa using fired
    simp only [execPhaseComplete, hr, hp, over_, any, if_true]
  have cr := rerunCounted_cr (ladderUpdate s ph.ladderEntry g) ph
  have cmd := (rerunCounted_cmd (ladderUpdate s ph.ladderEntry g) ph).trans (ladderUpdate_cmd ..)
  rw [ladderUpdate_cr] at cr
  generalize rerunCounted (ladderUpdate s ph.ladderEntry g) ph = v at after cr cmd
  have num := num_of_getPhase hp
  rw [after] at run
  refine ⟨_, run, nextRung_higher hn, by rw [rerunPhase_cr, cr], by rw [rerunPhase_cr, cr], rerun ph v e k es ph, ?_, rfl, rfl,
    rfl, rfl, rfl, rfl⟩
  rw [← num]
  exact rerunPhase_phase (by rw [num, getPhase_of_cmd cmd, hp]) e k es

/-! ## The watchdog (R386) -/

theorem phaseWatchdog_ends {stream : StreamId} {phase : PhaseNo} {r : StreamRun} {ph : PhaseRun}
    (hr : getStream s stream.toNat = some r) (hp : getPhase s stream.toNat phase.toNat = some ph) (on : ph.wdMs ≠ 0)
    (late : ph.wdMs * 1000000 < phaseRan s ph) : Gives (.phaseWatchdog stream phase) s fun t =>
      (∀ r', getStream t stream.toNat = some r' → (∀ x ∈ r'.running, x.num ≠ phase.toNat) ∧ r'.stop = some .timeout) ∧
      (s.coll.firedOps = [] → (∃ x ∈ r.running, x.num ≠ phase.toNat) → ∃ r', getStream t stream.toNat = some r') := by
  have run : exec (.phaseWatchdog stream phase) s = .next (settleStream (settleAllFired
      (forceEnd (overStop s stream.toNat .timeout) stream.toNat phase.toNat .timeout true)) stream.toNat) := by
    show execPhaseWatchdog stream phase s = _
    simp only [execPhaseWatchdog, hp]
    rw [if_pos ⟨on, late⟩]
  refine ⟨_, run, fun r' hr' => ?_, fun quiet more => ?_⟩
  all_goals
    have stopped_ : getStream (overStop s stream.toNat .timeout) stream.toNat = some { r with stop := some .timeout, stopBy := [] } := by
      rw [overStop, getStream_modStream_self, hr]
      rfl
  · have toEnd := (streamsFrom_settleAllFired (forceEnd (overStop s stream.toNat .timeout) stream.toNat phase.toNat .timeout true)).trans
      (streamsFrom_settleStream _ stream.toNat)
    exact ⟨toEnd.lacks (fun r hr => forceEnd_lacks _ _ _ _ _ hr) hr',
      ((streamsFrom_forceEnd _ _ _ _ _).trans toEnd).stop stopped_ hr' rfl⟩
  · obtain ⟨r', is, left⟩ := forceEnd_keeps_others (p := phase.toNat) (st := .timeout) (hard := true) stopped_ more
    have none_ : (forceEnd (overStop s stream.toNat .timeout) stream.toNat phase.toNat .timeout true).coll.firedOps = [] :=
      ((firedFrom_modStream s stream.toNat _).trans (firedFrom_forceEnd _ _ _ _ _)).ops quiet
    generalize forceEnd (overStop s stream.toNat .timeout) stream.toNat phase.toNat .timeout true = v at is none_
    have settled : getStream (settleAllFired v) stream.toNat = some r' := by
      rw [settleAllFired_of_none none_, getStream, endWindowSet_streams]
      exact is
    exact ⟨r', by rw [settleStream_stays settled (.inl left), settled]⟩

theorem phaseWatchdog_still {stream : StreamId} {phase : PhaseNo} {ph : PhaseRun}
    (hp : getPhase s stream.toNat phase.toNat = some ph) (early : ph.wdMs = 0 ∨ phaseRan s ph ≤ ph.wdMs * 1000000) :
    Gives (.phaseWatchdog stream phase) s fun t => t = s := by
  refine ⟨s, show execPhaseWatchdog stream phase s = _ from ?_, rfl⟩
  simp only [execPhaseWatchdog, hp]
  rw [if_neg]
  rintro ⟨on, late⟩
  rcases early with h | h
  · exact on h
  · exact absurd late (Nat.not_lt.2 h)

theorem phaseComplete_plain {stream : StreamId} {phase : PhaseNo} {r : StreamRun} {ph : PhaseRun} (hs : Sound s)
    (hr : getStream s stream.toNat = some r) (hp : getPhase s stream.toNat phase.toNat = some ph) (over_ : phaseOver ph = true)
    (b : blinkFired ph = false) (c : clipFired ph = false) : Gives (.phaseComplete stream phase) s fun t =>
      (∀ r', getStream t stream.toNat = some r' → (∀ x ∈ r'.running, x.num ≠ phase.toNat) ∧ phase.toNat ∈ r'.done) ∧
      let others_ := r.running.filter (·.num != phase.toNat)
      let at_ := hdrPstat r.hdr + 2 * phase.toNat
      (others_ ≠ [] → (∃ r', getStream t stream.toNat = some r' ∧ r'.running = others_) ∧
        (canAccess s .dram at_ 2 = true → memLe t at_ 2 = statusCode (phaseStatus ph))) ∧
      (others_ = [] → hdrPhases r.hdr ≤ r.nextPhase → firedLeft s stream.toNat = false → getStream t stream.toNat = none) := by
  have run : exec (.phaseComplete stream phase) s = .next (endPhase s stream.toNat phase.toNat) := by
    show execPhaseComplete stream phase s = _
    simp only [execPhaseComplete, hr, hp, over_, b, c, if_true, Bool.or_self, Bool.false_eq_true, if_false]
  exact ⟨_, run, fun r' => endPhase_done hr (by rw [hp]; rfl), endPhase_others hs hr hp, endPhase_last hr hp⟩

theorem phaseComplete_still {stream : StreamId} {phase : PhaseNo} {r : StreamRun} {ph : PhaseRun}
    (hr : getStream s stream.toNat = some r) (hp : getPhase s stream.toNat phase.toNat = some ph) (runs : phaseOver ph = false) :
    Gives (.phaseComplete stream phase) s fun t => t = s := by
  refine ⟨s, show execPhaseComplete stream phase s = _ from ?_, rfl⟩
  simp only [execPhaseComplete, hr, hp, runs, Bool.false_eq_true, if_false]

/-- Settles O19. What a stream runs can only fade until a phase starts (`StreamsFrom`), and with no op fired nothing else keeps it. -/
theorem streamsAndPhases : Obligations.StreamsAndPhases := by
  unfold Obligations.StreamsAndPhases
  refine ⟨fun q s f hs => ?_, fun q s f id hs hd => ?_, fun stream s r hs hr open_ run more => ?_,
    fun stream phase s r ph hs hr hp => ?_⟩
  · have flat : ∀ {c : Instr} {pl : StreamPlan}, Gives c s (fun t => StreamBegins s t q.toNat f pl) → Gives c s _ :=
      fun ⟨t, run, h⟩ => ⟨t, run, h.flat⟩
    exact ⟨fun _ hd ok adm => flat (runStream_begins hd ok adm), fun _ hd ok adm => runStream_waits hd ok adm,
      fun _ hd bad => runStream_refused hs hd bad, fun _ hd new ok adm => flat (streamAdmit_begins hd new ok adm)⟩
  · exact ⟨fun same hid soft => streamAbort_soft hs hd same hid soft, fun same hid hard => streamAbort_hard hs hd same hid hard,
      fun bad => streamAbort_refused hs hd bad⟩
  · exact ⟨fun _ go => phaseStart_starts hs hr open_ run more go, fun _ gate => phaseStart_skips hr open_ run more gate,
      phaseStart_still hr open_ run more⟩
  · exact ⟨fun over_ b c => phaseComplete_plain hs hr hp over_ b c,
      fun over_ fired => ⟨fun h => phaseComplete_ends hr hp over_ fired h,
        fun e k es one low hn hl => phaseComplete_reruns hr hp over_ fired one low hn hl⟩,
      phaseWatchdog_ends hr hp, phaseComplete_still hr hp, phaseWatchdog_still hp⟩

end Sys2Proof.Laws
end

section
/-! PROOFS. Service requests gather in blocks, and blocks close (O21). -/

namespace Sys2Proof.Laws

open Sys2Proof Sys2Proof.Machine
set_option Elab.async false

variable {s t u : State} {n : Nat} {f : Fetched} {b : SvcBlock}

/-! ## Open blocks (R394 to R397) -/

theorem svc_of_openBlock {k : Nat} (h : openBlock s k = some b) : b.svc = k := by simpa using List.find?_some h

/-- A block stands open in place of the one that its service had open. -/
theorem find_reopened (l : List SvcBlock) (b : SvcBlock) : (l.filter (·.svc != b.svc) ++ [b]).find? (·.svc == b.svc) = some b := by
  rw [List.find?_append, List.find?_eq_none.2 fun x hx => by simpa using (List.mem_filter.mp hx).2]
  simp

theorem find_closed (l : List SvcBlock) (k : Nat) : (l.filter (·.svc != k)).find? (·.svc == k) = none :=
  List.find?_eq_none.2 fun x hx => by simpa using (List.mem_filter.mp hx).2

theorem gathered_cmd (r : Bytes) (l : List SvcReq) (s : State) : (l.foldl (fun x q =>
    (dramCopy x q.inAddr (svBlkIn r + q.start * svInRow r) (q.rows * svInRow r)).1) s).cmd = s.cmd :=
  cmd_eq (foldl_rest (f := fun (x : State) (q : SvcReq) =>
    (dramCopy x q.inAddr (svBlkIn r + q.start * svInRow r) (q.rows * svInRow r)).1)
    (fun x _ => dramCopy_rest x _ _ _ (by decide)) l s)

theorem write_cmd (s : State) (r : Reach) (a : Nat) (bs : Bytes) (p : Bool) : (write s r a bs p).cmd = s.cmd := cmd_eq (by simp)

theorem closeBlock_cmd (s : State) (r : Bytes) (b : SvcBlock) : (closeBlock s r b).cmd =
    { s.cmd with openBlocks := s.cmd.openBlocks.filter (·.svc != b.svc),
                 closedBlocks := s.cmd.closedBlocks ++ [{ b with record := r }] } := by
  unfold closeBlock
  extract_lets s1 s2
  have h : s2.cmd = s.cmd := (write_cmd ..).trans (gathered_cmd r b.reqs s)
  show ({ s2.cmd with openBlocks := _, closedBlocks := _ } : CmdState) = _
  rw [h]

theorem openBlock_closeBlock (s : State) (r : Bytes) (b : SvcBlock) : openBlock (closeBlock s r b) b.svc = none := by
  rw [openBlock, closeBlock_cmd]
  exact find_closed ..

/-- A block that is not full stands open. -/
theorem putOpen_open {r : Bytes} (h : b.rows < 32) : putOpen s r b =
    { s with cmd := { s.cmd with openBlocks := s.cmd.openBlocks.filter (·.svc != b.svc) ++ [b] } } :=
  if_neg (Nat.ne_of_lt h)

theorem putOpen_closed {r : Bytes} (h : b.rows < 32) : (putOpen s r b).cmd.closedBlocks = s.cmd.closedBlocks := by
  rw [putOpen_open h]

theorem rows_first (k a : Nat) (r r' : Bytes) (x : SvcReq) : (svcJoin r (newBlock k r' a) x).rows = x.rows := Nat.zero_add _

theorem openBlock_putOpen {r : Bytes} (h : b.rows < 32) : openBlock (putOpen s r b) b.svc = some b := by
  rw [putOpen_open h]
  exact find_reopened ..

theorem putOpen_full {r : Bytes} (h : b.rows = 32) : putOpen s r b = closeBlock s r b := if_pos h

section
variable {q : QueueId} {k : BitVec 8} (hk : (getQueue s q.toNat).svc = k) (hd : startDesc s q.toNat 0x0030 = some f)
include hk hd

section
variable (good : svcCheck s (svcRec s k.toNat) f.desc = none)
include good

theorem serviceRequest_new (none_ : openBlock s k.toNat = none) : exec (.serviceRequest q) s =
    .next (putOpen (markStarted s q.toNat f) (svcRec s k.toNat).data (svcJoin (svcRec s k.toNat).data
      (newBlock k.toNat (svcRec s k.toNat).data f.arrival) (svcReq q.toNat f (svcRec s k.toNat).data 0))) := by
  show execServiceRequest q s = _
  have open_ : openBlock (markStarted s q.toNat f) k.toNat = none := none_
  simp only [execServiceRequest, hd, hk, good, open_]

theorem serviceRequest_joins (is : openBlock s k.toNat = some b)
    (fits : svcFits b (svcReq q.toNat f (svcRec s k.toNat).data 0) = true) : exec (.serviceRequest q) s =
    .next (putOpen (markStarted s q.toNat f) (svcRec s k.toNat).data (svcJoin (svcRec s k.toNat).data b
      (svcReq q.toNat f (svcRec s k.toNat).data 0))) := by
  show execServiceRequest q s = _
  have open_ : openBlock (markStarted s q.toNat f) k.toNat = some b := is
  simp only [execServiceRequest, hd, hk, good, open_, fits, if_true]

theorem serviceRequest_next (is : openBlock s k.toNat = some b)
    (full : svcFits b (svcReq q.toNat f (svcRec s k.toNat).data 0) = false) : exec (.serviceRequest q) s =
    .next (putOpen (closeBlock (markStarted s q.toNat f) (svcRec s k.toNat).data b) (svcRec s k.toNat).data
      (svcJoin (svcRec s k.toNat).data (newBlock k.toNat (svcRec s k.toNat).data f.arrival)
        (svcReq q.toNat f (svcRec s k.toNat).data 0))) := by
  show execServiceRequest q s = _
  have open_ : openBlock (markStarted s q.toNat f) k.toNat = some b := is
  simp only [execServiceRequest, hd, hk, good, open_, full, Bool.false_eq_true, if_false]

theorem serviceRequest_opens (none_ : openBlock s k.toNat = none)
    (rows : (svcReq q.toNat f (svcRec s k.toNat).data 0).rows < 32) : Gives (.serviceRequest q) s fun t =>
      openBlock t k.toNat = some (svcJoin (svcRec s k.toNat).data (newBlock k.toNat (svcRec s k.toNat).data f.arrival)
        (svcReq q.toNat f (svcRec s k.toNat).data 0)) ∧ t.mem = s.mem ∧ t.cmd.completed = s.cmd.completed := by
  refine ⟨_, serviceRequest_new hk hd good none_, ?_⟩
  generalize hb : svcJoin _ (newBlock k.toNat _ _) _ = b
  have svc : b.svc = k.toNat := by rw [← hb]; rfl
  have few : b.rows < 32 := by
    rw [← hb, rows_first]
    exact rows
  refine ⟨by rw [← svc]; exact openBlock_putOpen few, ?_, ?_⟩ <;> rw [putOpen_open few] <;> rfl

theorem serviceRequest_grows (is : openBlock s k.toNat = some b)
    (fits : svcFits b (svcReq q.toNat f (svcRec s k.toNat).data 0) = true)
    (rows : b.rows + (svcReq q.toNat f (svcRec s k.toNat).data 0).rows < 32) : Gives (.serviceRequest q) s fun t =>
      openBlock t k.toNat = some (svcJoin (svcRec s k.toNat).data b (svcReq q.toNat f (svcRec s k.toNat).data 0)) ∧
      t.mem = s.mem ∧ t.cmd.completed = s.cmd.completed := by
  refine ⟨_, serviceRequest_joins hk hd good is fits, ?_⟩
  generalize hb : svcJoin _ b _ = b'
  have svc : b'.svc = k.toNat := by rw [← hb, ← svc_of_openBlock is]; rfl
  have few : b'.rows < 32 := by rw [← hb]; exact rows
  refine ⟨by rw [← svc]; exact openBlock_putOpen few, ?_, ?_⟩ <;> rw [putOpen_open few] <;> rfl

theorem serviceRequest_fills (is : openBlock s k.toNat = some b)
    (fits : svcFits b (svcReq q.toNat f (svcRec s k.toNat).data 0) = true)
    (rows : b.rows + (svcReq q.toNat f (svcRec s k.toNat).data 0).rows = 32) : Gives (.serviceRequest q) s fun t =>
      openBlock t k.toNat = none ∧ t.cmd.closedBlocks = s.cmd.closedBlocks ++
        [svcJoin (svcRec s k.toNat).data { b with record := (svcRec s k.toNat).data } (svcReq q.toNat f (svcRec s k.toNat).data 0)] := by
  refine ⟨_, serviceRequest_joins hk hd good is fits, ?_⟩
  have join : svcJoin (svcRec s k.toNat).data { b with record := (svcRec s k.toNat).data } (svcReq q.toNat f (svcRec s k.toNat).data 0) =
      { svcJoin (svcRec s k.toNat).data b (svcReq q.toNat f (svcRec s k.toNat).data 0) with record := (svcRec s k.toNat).data } := rfl
  rw [join]
  generalize hb : svcJoin _ b _ = b'
  have svc : b'.svc = k.toNat := by rw [← hb, ← svc_of_openBlock is]; rfl
  rw [putOpen_full (show b'.rows = 32 by rw [← hb]; exact rows)]
  refine ⟨by rw [← svc]; exact openBlock_closeBlock .., ?_⟩
  rw [closeBlock_cmd]
  rfl

theorem serviceRequest_turns (is : openBlock s k.toNat = some b)
    (full : svcFits b (svcReq q.toNat f (svcRec s k.toNat).data 0) = false)
    (rows : (svcReq q.toNat f (svcRec s k.toNat).data 0).rows < 32) : Gives (.serviceRequest q) s fun t =>
      openBlock t k.toNat = some (svcJoin (svcRec s k.toNat).data (newBlock k.toNat (svcRec s k.toNat).data f.arrival)
        (svcReq q.toNat f (svcRec s k.toNat).data 0)) ∧
      t.cmd.closedBlocks = s.cmd.closedBlocks ++ [{ b with record := (svcRec s k.toNat).data }] := by
  refine ⟨_, serviceRequest_next hk hd good is full, ?_⟩
  generalize hb : svcJoin _ (newBlock k.toNat _ _) _ = b'
  have svc : b'.svc = k.toNat := by rw [← hb]; rfl
  have few : b'.rows < 32 := by
    rw [← hb, rows_first]
    exact rows
  refine ⟨by rw [← svc]; exact openBlock_putOpen few, ?_⟩
  rw [putOpen_closed few, closeBlock_cmd]
  rfl

end

theorem serviceRequest_refused {e : Status} (hs : Sound s) (bad : svcCheck s (svcRec s k.toNat) f.desc = some e) :
    Gives (.serviceRequest q) s fun t => Answered s t q.toNat f false [] := by
  refine ⟨refuseDesc s q.toNat f e, ?_, answered_refuseDesc hs e⟩
  show execServiceRequest q s = _
  simp only [execServiceRequest, hd, hk, bad]

end

theorem blockClose_closes {k : BitVec 8} (is : openBlock s k.toNat = some b) (due : b.close ≤ s.nowNs) :
    Gives (.blockClose k) s fun t => openBlock t k.toNat = none ∧ t.cmd.closedBlocks = s.cmd.closedBlocks ++
      [{ b with record := if (svcRec s k.toNat).err.isNone then (svcRec s k.toNat).data else b.record }] := by
  refine ⟨closeBlock s (if (svcRec s k.toNat).err.isNone then (svcRec s k.toNat).data else b.record) b, ?_, ?_, by rw [closeBlock_cmd]⟩
  · show execBlockClose k s = _
    simp only [execBlockClose, is, due, if_true]
  · rw [← svc_of_openBlock is]
    exact openBlock_closeBlock ..

theorem blockClose_still {k : BitVec 8} (is : openBlock s k.toNat = some b) (early : s.nowNs < b.close) :
    Gives (.blockClose k) s fun t => t = s := by
  refine ⟨s, ?_, rfl⟩
  show execBlockClose k s = _
  simp only [execBlockClose, is, Nat.not_le.2 early, if_false]

end Sys2Proof.Laws
end

section
/-! PROOFS. What completions and resumed training leave of blocks and descriptors (O21). -/

namespace Sys2Proof.Laws

open Sys2Proof Sys2Proof.Machine
set_option Elab.async false

variable {s t u : State} {n : Nat} {f : Fetched} {b : SvcBlock}

/-! ## The queues of a completion -/

theorem putRecord_queues_rise (r : Record) (h : keysRise s.cmd.queues = true) : keysRise (putRecord s n r).cmd.queues = true := by
  have past : ∀ t : State, t.cmd = (setQueue s n (pastRecord (getQueue s n))).cmd → keysRise t.cmd.queues = true := fun t ht => by
    rw [ht]
    exact setQueue_queues_rise h
  cases hl : ringLoc (getQueue s n).cq with
  | true =>
    rw [putRecord_of_loc hl]
    simp only
    split
    · exact past _ (cmdWrite_cmd _ _)
    · exact queueError_queues_rise (past _ (cmdWrite_cmd _ _))
  | false =>
    cases hp : ownerPort (getQueue s n).owner with
    | none => rw [putRecord_of_none hl hp]; exact past _ rfl
    | some p =>
      rw [putRecord_of_host hl hp]
      simp only
      split
      · exact past _ (cmd_eq (by simp))
      · exact past _ rfl

theorem completeFull_queues_rise (h : keysRise s.cmd.queues = true) (st : Status) (split late : Bool) (parts : BitVec 16) (e : Bool) :
    keysRise (completeFull s n f st split late parts e).cmd.queues = true := by
  rw [completeFull_eq]
  have rise := taken_queues_rise (n := n) (f := f) h e
  generalize taken s n f e = v at rise ⊢
  cases hw : writesNow (getQueue v n) with
  | true =>
    rw [postRecord_of_writesNow hw]
    exact putRecord_queues_rise _ rise
  | false =>
    rw [postRecord_of_not_writesNow hw]
    split
    · exact rise
    · exact setQueue_queues_rise rise

/-! ## What completions and resumed training leave of blocks and descriptors -/

/-- From `s` to `t` no block was closed, started or ended, and no descriptor came. -/
structure BlocksKept (s t : State) : Prop where
  closed : t.cmd.closedBlocks = s.cmd.closedBlocks
  run : t.cmd.runBlocks = s.cmd.runBlocks
  blocks : t.cmd.blocks = s.cmd.blocks
  rise : keysRise s.cmd.queues = true → keysRise t.cmd.queues = true
  gone : keysRise s.cmd.queues = true → ∀ q uid, getDesc s q uid = none → getDesc t q uid = none

theorem BlocksKept.trans (h : BlocksKept s t) (k : BlocksKept t u) : BlocksKept s u :=
  ⟨k.closed.trans h.closed, k.run.trans h.run, k.blocks.trans h.blocks, fun e => k.rise (h.rise e),
    fun e q uid d => k.gone (h.rise e) q uid (h.gone e q uid d)⟩

theorem BlocksKept.of_lists (hc : t.cmd.closedBlocks = s.cmd.closedBlocks) (hr : t.cmd.runBlocks = s.cmd.runBlocks)
    (hb : t.cmd.blocks = s.cmd.blocks) (hq : t.cmd.queues = s.cmd.queues) : BlocksKept s t :=
  ⟨hc, hr, hb, fun e => by rw [hq]; exact e, fun _ q uid d => by
    rw [getDesc, getQueue, hq]
    exact d⟩

theorem BlocksKept.of_cmd (h : t.cmd = s.cmd) : BlocksKept s t :=
  .of_lists (by rw [h]) (by rw [h]) (by rw [h]) (by rw [h])

theorem BlocksKept.refl (s : State) : BlocksKept s s := .of_cmd rfl

theorem BlocksKept.foldl {α : Type} {g : State → α → State} (h : ∀ s x, BlocksKept s (g s x)) (l : List α) :
    ∀ s, BlocksKept s (l.foldl g s) := by
  induction l with
  | nil => exact fun s => .refl s
  | cons x l ih => exact fun s => (h s x).trans (ih (g s x))

/-- A completion takes its own descriptor only, and brings none. -/
theorem getDesc_completeFull (rise : keysRise s.cmd.queues = true) (st : Status) (split late : Bool) (parts : BitVec 16) (e : Bool)
    (q uid : Nat) (h : getDesc s q uid = none ∨ (q = n ∧ uid = f.uid)) :
    getDesc (completeFull s n f st split late parts e) q uid = none := by
  rw [completeFull_eq]
  have rise' := taken_queues_rise (n := n) (f := f) rise e
  by_cases hq : q = n
  · subst hq
    rw [getDesc, postRecord_fetched _ rise', taken_getQueue_self rise]
    refine List.find?_eq_none.2 fun x hx => ?_
    obtain ⟨mem, ne⟩ := List.mem_filter.mp hx
    rcases h with h | ⟨-, rfl⟩
    · exact List.find?_eq_none.1 h x mem
    · simpa using ne
  · rw [getDesc, postRecord_getQueue_other _ rise' hq, taken_getQueue_other rise e hq]
    exact h.resolve_right fun k => hq k.1

theorem blocksKept_completeFull (f : Fetched) (st : Status) (split late : Bool) (parts : BitVec 16) (e : Bool) :
    BlocksKept s (completeFull s n f st split late parts e) :=
  ⟨by rw [completeFull_cmd], by rw [completeFull_cmd], by rw [completeFull_cmd],
    fun rise => completeFull_queues_rise rise st split late parts e,
    fun rise q uid d => getDesc_completeFull rise st split late parts e q uid (.inl d)⟩

/-- A late request is counted. -/
def lateNoted (s : State) (x : SvcReq) : State :=
  { s with cmd := { s.cmd with late := if decide (x.deadline < s.nowNs) then satAdd s.cmd.late 1 else s.cmd.late } }

theorem blocksKept_lateNoted (s : State) (x : SvcReq) : BlocksKept s (lateNoted s x) := .of_lists rfl rfl rfl rfl

theorem refuseReq_some {x : SvcReq} {d : Fetched} (h : getDesc s x.queue x.uid = some d) (st : Status) : refuseReq st s x =
    completeFull (lateNoted s x) x.queue d st false (decide (x.deadline < s.nowNs)) 0 false := by
  unfold refuseReq
  rw [h]
  rfl

theorem refuseReq_none {x : SvcReq} (h : getDesc s x.queue x.uid = none) (st : Status) : refuseReq st s x = s := by
  unfold refuseReq
  rw [h]

theorem blocksKept_refuseReq (st : Status) (s : State) (x : SvcReq) : BlocksKept s (refuseReq st s x) := by
  cases h : getDesc s x.queue x.uid with
  | none => rw [refuseReq_none h]; exact .refl s
  | some d =>
    rw [refuseReq_some h]
    exact (blocksKept_lateNoted s x).trans (blocksKept_completeFull ..)

/-- A refused request's descriptor is gone. -/
theorem refuseReq_gone (rise : keysRise s.cmd.queues = true) (st : Status) (x : SvcReq) :
    getDesc (refuseReq st s x) x.queue x.uid = none := by
  cases h : getDesc s x.queue x.uid with
  | none => rw [refuseReq_none h, h]
  | some d =>
    rw [refuseReq_some h]
    have uid : d.uid = x.uid := by simpa using List.find?_some h
    exact getDesc_completeFull (s := lateNoted s x) rise _ _ _ _ _ _ _ (.inr ⟨rfl, uid.symm⟩)

/-- Each of a list of requests has its descriptor answered. -/
theorem each_gone {g : State → SvcReq → State} {P : SvcReq → Prop} (kept : ∀ s x, BlocksKept s (g s x))
    (one : ∀ s x, keysRise s.cmd.queues = true → P x → getDesc (g s x) x.queue x.uid = none) (l : List SvcReq) :
    ∀ s, keysRise s.cmd.queues = true → ∀ x ∈ l, P x → getDesc (l.foldl g s) x.queue x.uid = none := by
  induction l with
  | nil => exact fun s _ x h => absurd h (by simp)
  | cons a l ih =>
    intro s rise x hx px
    rcases List.mem_cons.1 hx with rfl | later
    · exact (BlocksKept.foldl kept l (g s x)).gone ((kept s x).rise rise) _ _ (one s x rise px)
    · exact ih _ ((kept s a).rise rise) x later px

theorem veGo_cmd (s : State) (n : Nat) : (veGo s n).cmd = s.cmd := cmd_eq (by simp)

theorem resumeCore_cmd (s : State) (n : Nat) :
    (resumeCore s n).cmd = { s.cmd with resumed := smSet 0 s.cmd.resumed n (s.nowNs + 1) } := by
  unfold resumeCore
  dsimp only
  rw [veGo_cmd]
  rfl

theorem blocksKept_resumeCore (s : State) (n : Nat) : BlocksKept s (resumeCore s n) :=
  .of_lists (by rw [resumeCore_cmd]) (by rw [resumeCore_cmd]) (by rw [resumeCore_cmd]) (by rw [resumeCore_cmd])

theorem blocksKept_resumeTraining (s : State) : BlocksKept s (resumeTraining s) := by
  unfold resumeTraining
  extract_lets kept
  refine BlocksKept.trans (.foldl (fun x n => ?_) (liveCores s) s) (.of_lists rfl rfl rfl rfl)
  split
  · exact blocksKept_resumeCore x n
  · exact .refl x

theorem blocksKept_failBlock (s : State) (b : SvcBlock) (e : Status) : BlocksKept s (failBlock s b e) :=
  .foldl (blocksKept_refuseReq e) _ s

/-- The rows of a request copied out. -/
def copiedOut (s : State) (b : SvcBlock) (x : SvcReq) : State × Option Status :=
  dramCopy s (svBlkOut b.record + x.start * svOutRow b.record) x.outAddr (x.rows * svOutRow b.record)

theorem copiedOut_cmd (s : State) (b : SvcBlock) (x : SvcReq) : (copiedOut s b x).1.cmd = s.cmd :=
  cmd_eq (dramCopy_rest _ _ _ _ (by decide))

theorem finishReq_some {x : SvcReq} {d : Fetched} (keep : x.dropped = false) (st : Status)
    (h : getDesc (copiedOut s b x).1 x.queue x.uid = some d) : finishReq b st s x =
    completeFull (lateNoted (copiedOut s b x).1 x) x.queue d (reqStatus s b st x (copiedOut s b x).2) false
      (decide (x.deadline < (copiedOut s b x).1.nowNs)) 0 true := by
  unfold finishReq
  rw [if_neg (by rw [keep]; exact Bool.false_ne_true)]
  unfold copiedOut at h ⊢
  dsimp only
  rw [h]
  rfl

theorem finishReq_none {x : SvcReq} (keep : x.dropped = false) (st : Status)
    (h : getDesc (copiedOut s b x).1 x.queue x.uid = none) : finishReq b st s x = (copiedOut s b x).1 := by
  unfold finishReq
  rw [if_neg (by rw [keep]; exact Bool.false_ne_true)]
  unfold copiedOut at h ⊢
  dsimp only
  rw [h]

theorem blocksKept_finishReq (b : SvcBlock) (st : Status) (s : State) (x : SvcReq) : BlocksKept s (finishReq b st s x) := by
  cases keep : x.dropped with
  | true =>
    rw [finishReq, if_pos keep]
    exact .refl s
  | false =>
    have copied : BlocksKept s (copiedOut s b x).1 := .of_cmd (copiedOut_cmd s b x)
    cases h : getDesc (copiedOut s b x).1 x.queue x.uid with
    | none => rw [finishReq_none keep st h]; exact copied
    | some d =>
      rw [finishReq_some keep st h]
      exact (copied.trans (blocksKept_lateNoted _ x)).trans (blocksKept_completeFull ..)

theorem finishReq_gone (rise : keysRise s.cmd.queues = true) (b : SvcBlock) (st : Status) {x : SvcReq} (keep : x.dropped = false) :
    getDesc (finishReq b st s x) x.queue x.uid = none := by
  cases h : getDesc (copiedOut s b x).1 x.queue x.uid with
  | none => rw [finishReq_none keep st h, h]
  | some d =>
    rw [finishReq_some keep st h]
    have uid : d.uid = x.uid := by simpa using List.find?_some h
    exact getDesc_completeFull (s := lateNoted (copiedOut s b x).1 x) (by
      show keysRise (copiedOut s b x).1.cmd.queues = true
      rw [copiedOut_cmd]
      exact rise) _ _ _ _ _ _ _ (.inr ⟨rfl, uid.symm⟩)

end Sys2Proof.Laws
end

section
/-! PROOFS. A block takes its cores and starts (O21). -/

namespace Sys2Proof.Laws

open Sys2Proof Sys2Proof.Machine
set_option Elab.async false

variable {s t u : State} {n : Nat} {f : Fetched} {b : SvcBlock}

/-! ## Cores are asked for (R157, R398) -/

theorem getCore_preemptCores (l : List Nat) : ∀ s : State, keysRise s.cores = true → ∀ n,
    getCore (l.foldl preemptCore s) n = if n ∈ l then { getCore s n with preempt := true } else getCore s n := by
  induction l with
  | nil => exact fun s _ n => (if_neg (by simp)).symm
  | cons a l ih =>
    intro s rise n
    have rise' : keysRise (preemptCore s a).cores = true := keysRise_smSet rise
    rw [List.foldl_cons, ih _ rise' n]
    by_cases e : n = a
    · subst e
      have self : getCore (preemptCore s n) n = { getCore s n with preempt := true } :=
        getCore_setCore_self (s := { s with cmd := { s.cmd with resumed := smSet 0 s.cmd.resumed n 0 } }) rise
      rw [self, if_pos List.mem_cons_self]
      split <;> rfl
    · have other : getCore (preemptCore s a) n = getCore s n :=
        getCore_setCore_other (s := { s with cmd := { s.cmd with resumed := smSet 0 s.cmd.resumed a 0 } }) rise e
      rw [other]
      simp only [List.mem_cons, e, false_or]

theorem getCore_askCores (rise : keysRise s.cores = true) (map n : Nat) : getCore (askCores s map) n =
    if n ∈ bitList 4096 map then { getCore s n with preempt := true } else getCore s n :=
  getCore_preemptCores _ (pausePhases s map) rise n

theorem preemptCores_cmd (l : List Nat) : ∀ s : State, ∃ m, (l.foldl preemptCore s).cmd = { s.cmd with resumed := m } := by
  induction l with
  | nil => exact fun s => ⟨s.cmd.resumed, rfl⟩
  | cons a l ih =>
    intro s
    obtain ⟨m, h⟩ := ih (preemptCore s a)
    exact ⟨m, h⟩

/-- The streams whose training phases are paused. -/
def pausedRun (s : State) (map : Nat) (k : Nat) (r : StreamRun) : StreamRun :=
  if k < 256 then { r with running := r.running.map (fun p =>
    if p.pausedAt.isNone && p.cores.any (bit map) then { p with pausedAt := some s.nowNs } else p) } else r

theorem pausePhases_streams (s : State) (map : Nat) :
    (pausePhases s map).cmd.streams = s.cmd.streams.map (fun p => (p.1, pausedRun s map p.1 p.2)) := by
  refine List.map_congr_left fun q _ => ?_
  simp only [pausedRun]
  split <;> rfl

theorem askCores_streams (s : State) (map : Nat) :
    (askCores s map).cmd.streams = s.cmd.streams.map (fun p => (p.1, pausedRun s map p.1 p.2)) := by
  obtain ⟨m, h⟩ := preemptCores_cmd (bitList 4096 map) (pausePhases s map)
  rw [← pausePhases_streams, askCores, h]

theorem blocksKept_askCores (s : State) (map : Nat) : BlocksKept s (askCores s map) := by
  obtain ⟨m, h⟩ := preemptCores_cmd (bitList 4096 map) (pausePhases s map)
  exact .of_lists (by rw [askCores, h]; rfl) (by rw [askCores, h]; rfl) (by rw [askCores, h]; rfl) (by rw [askCores, h]; rfl)

theorem askCores_dropped (s : State) (map : Nat) : (askCores s map).cmd.dropped = s.cmd.dropped := by
  obtain ⟨m, h⟩ := preemptCores_cmd (bitList 4096 map) (pausePhases s map)
  rw [askCores, h]
  rfl

/-- The check of a stream reads memory, and asks which cores are available. -/
theorem runCheck_of_ground (hg : ground t = ground s) (hm : t.mem = s.mem) (he : t.mr.dramErr = s.mr.dramErr) (hc : t.cr = s.cr)
    (a : Nat) : runCheck t a = runCheck s a := by
  have reads : ∀ x n, Machine.read t .dram x n = Machine.read s .dram x n := fun x n => read_of_ground hg hm he .dram x n
  have avail : ∀ k, coreAvail t k = coreAvail s k := fun k => by simp only [coreAvail, hc]
  unfold runCheck
  simp only [reads, avail]

theorem runCheck_of_rest (h : ∀ {may : Spot → Bool}, may .cmd = true ∧ may .cores = true → rest may t = rest may s) (a : Nat) :
    runCheck t a = runCheck s a := by
  have hif : t.hif = s.hif := hif_eq (h (by decide))
  have mr : t.mr = s.mr := mr_eq (h (by decide))
  have cr : t.cr = s.cr := cr_eq (h (by decide))
  have port : ∀ q, getPort t q = getPort s q := fun q => by cases q <;> simp only [getPort, hif]
  exact runCheck_of_ground (ground_of_parts (by rw [cr]) (by rw [mr]) (by rw [fw_eq (h (by decide))]) (by rw [hif])
    (fun q => by rw [port]; exact ⟨rfl, rfl⟩) (by rw [fab_eq (h (by decide))])) (mem_eq (h (by decide))) (by rw [mr]) cr a

theorem coreClear_preempt (c : Core) : coreClear { c with preempt := true } = coreClear c := rfl

/-! ## A block starts (R398, R399) -/

theorem firstBlock_mem {l : List SvcBlock} (h : firstBlock l = some b) : b ∈ l := by
  unfold firstBlock at h
  refine List.foldlRecOn (motive := fun o => ∀ x, o = some x → x ∈ l) l _ (fun x hx => by cases hx) (fun o ih a ha x hx => ?_) b h
  split at hx
  · cases hx
    exact ha
  · split at hx
    · cases hx
      exact ha
    · exact ih x hx

theorem readyBlock_svc {k : Nat} (h : readyBlock s k = some b) : b.svc = k := by
  unfold readyBlock at h
  split at h
  · cases h
  · obtain ⟨x, first, hx⟩ := Option.bind_eq_some_iff.1 h
    dsimp only at hx
    split at hx
    · cases hx
    · cases hx
      simpa using (List.mem_filter.mp (firstBlock_mem first)).2

/-- A state whose closed blocks lack one that starts. -/
def unclosed (s : State) (b : SvcBlock) : State := { s with cmd := { s.cmd with closedBlocks := s.cmd.closedBlocks.erase b } }

/-- Whether a request leaves its block for its deadline. -/
def leaves (s : State) (b : SvcBlock) (x : SvcReq) : Bool := svLateDrop b.record && decide (x.deadline < s.nowNs)

theorem dropLateReqs_of_none (h : ∀ x ∈ b.reqs, leaves s b x = false) : dropLateReqs s b = (s, b) := by
  have none_ : b.reqs.filter (leaves s b) = [] := List.filter_eq_nil_iff.2 fun x hx => by simp [h x hx]
  have same : b.reqs.map (fun x => if leaves s b x then { x with dropped := true } else x) = b.reqs := by
    conv_rhs => rw [← List.map_id b.reqs]
    refine List.map_congr_left fun x hx => ?_
    rw [h x hx]
    rfl
  unfold dropLateReqs
  extract_lets late gone s1 b1
  have hg : gone = [] := none_
  have hs : s1 = s := by simp only [s1, hg]; rfl
  have hb : b1 = b := by
    show ({ b with reqs := _ } : SvcBlock) = b
    rw [show b.reqs.map (fun x => if late x then { x with dropped := true } else x) = b.reqs from same]
  rw [hg, hs, hb]
  rfl

/-- One request drops out. -/
def dropOne (s : State) (x : SvcReq) : State :=
  refuseReq .lateDrop { s with cmd := { s.cmd with dropped := satAdd s.cmd.dropped 1 } } x

theorem blocksKept_dropOne (s : State) (x : SvcReq) : BlocksKept s (dropOne s x) :=
  BlocksKept.trans (t := { s with cmd := { s.cmd with dropped := satAdd s.cmd.dropped 1 } }) (.of_lists rfl rfl rfl rfl)
    (blocksKept_refuseReq ..)

/-- Late requests drop out with their descriptors answered. -/
theorem dropLateReqs_kept (s : State) (b : SvcBlock) : BlocksKept s (dropLateReqs s b).1 ∧
    (keysRise s.cmd.queues = true → ∀ x ∈ b.reqs, leaves s b x = true → getDesc (dropLateReqs s b).1 x.queue x.uid = none) := by
  unfold dropLateReqs
  extract_lets late gone s1 b1
  have h1 : BlocksKept s s1 := .foldl (g := dropOne) blocksKept_dropOne gone s
  have h2 : BlocksKept s1 (if gone.isEmpty then s1 else write s1 .dram (svBlkInfo b.record) (svcSelectors b1)) := by
    split
    · exact .refl s1
    · exact .of_cmd (write_cmd ..)
  refine ⟨h1.trans h2, fun rise x hx late_ => h2.gone (h1.rise rise) _ _ ?_⟩
  exact each_gone (g := dropOne) (P := fun _ => True) blocksKept_dropOne
    (fun s x rise _ => refuseReq_gone (s := { s with cmd := { s.cmd with dropped := satAdd s.cmd.dropped 1 } }) rise .lateDrop x)
    gone s rise x (List.mem_filter.mpr ⟨hx, late_⟩) trivial

/-- How a block stands that has started. -/
def blockBegun (s : State) (b : SvcBlock) (p : StreamPlan) : State :=
  let s2 := zeroCounters s p.hdr
  { s2 with cmd := { s2.cmd with
    blocks := satAdd s2.cmd.blocks 1, runBlocks := s2.cmd.runBlocks ++ [b],
    streams := s2.cmd.streams ++ [(svcStream b.svc, newStream p none (some b.svc))] } }

theorem beginBlock_begins {p : StreamPlan} (none_ : ∀ x ∈ b.reqs, leaves s b x = false) (some_ : b.reqs.all (·.dropped) = false)
    (ok : runCheck (unclosed s b) (svStream b.record) = .ok p) : beginBlock s b = blockBegun (unclosed s b) b p := by
  have still : dropLateReqs (unclosed s b) b = (unclosed s b, b) := dropLateReqs_of_none none_
  unfold beginBlock
  dsimp only
  rw [show ({ s with cmd := { s.cmd with closedBlocks := s.cmd.closedBlocks.erase b } } : State) = unclosed s b from rfl, still]
  dsimp only
  rw [ok]
  dsimp only
  rw [some_]
  rfl

/-- A block that cannot start, or that starts, is no closed one any more; its late requests are answered. -/
theorem beginBlock_late (rise : keysRise s.cmd.queues = true) (b : SvcBlock) :
    (beginBlock s b).cmd.closedBlocks = s.cmd.closedBlocks.erase b ∧
    ∀ x ∈ b.reqs, leaves s b x = true → getDesc (beginBlock s b) x.queue x.uid = none := by
  obtain ⟨kept, gone⟩ := dropLateReqs_kept (unclosed s b) b
  have from_ : ∀ t, BlocksKept (dropLateReqs (unclosed s b) b).1 t → t.cmd.closedBlocks = s.cmd.closedBlocks.erase b ∧
      ∀ x ∈ b.reqs, leaves s b x = true → getDesc t x.queue x.uid = none := fun t ht =>
    ⟨ht.closed.trans kept.closed, fun x hx late => ht.gone (kept.rise rise) _ _ (gone rise x hx late)⟩
  unfold beginBlock
  extract_lets s0 d
  split
  · exact from_ _ ((blocksKept_failBlock ..).trans (blocksKept_resumeTraining _))
  · split
    · exact from_ _ (blocksKept_resumeTraining _)
    · obtain ⟨closed, out⟩ := from_ _ (.refl _)
      exact ⟨closed, out⟩

/-- A block whose stream cannot start ends with each of its requests answered. -/
theorem beginBlock_fails {e : Status} (rise : keysRise s.cmd.queues = true) (none_ : ∀ x ∈ b.reqs, leaves s b x = false)
    (bad : runCheck (unclosed s b) (svStream b.record) = .error e) : BlocksKept (unclosed s b) (beginBlock s b) ∧
    ∀ x ∈ b.reqs, x.dropped = false → getDesc (beginBlock s b) x.queue x.uid = none := by
  have still : dropLateReqs (unclosed s b) b = (unclosed s b, b) := dropLateReqs_of_none none_
  have run : beginBlock s b = resumeTraining (failBlock (unclosed s b) b e) := by
    unfold beginBlock
    dsimp only
    rw [show ({ s with cmd := { s.cmd with closedBlocks := s.cmd.closedBlocks.erase b } } : State) = unclosed s b from rfl, still]
    dsimp only
    rw [bad]
  rw [run]
  have failed := blocksKept_failBlock (unclosed s b) b e
  have resumed := blocksKept_resumeTraining (failBlock (unclosed s b) b e)
  refine ⟨failed.trans resumed, fun x hx kept => resumed.gone (failed.rise rise) _ _ ?_⟩
  exact each_gone (P := fun _ => True) (blocksKept_refuseReq e) (fun s x rise _ => refuseReq_gone rise e x) _ (unclosed s b) rise x
    (List.mem_filter.mpr ⟨hx, by rw [kept]; rfl⟩) trivial

end Sys2Proof.Laws
end

section
/-! PROOFS. BLOCK_START, PREEMPT_MIN_EXPIRY and BLOCK_END (O21). -/

namespace Sys2Proof.Laws

open Sys2Proof Sys2Proof.Machine
set_option Elab.async false

variable {s t u : State} {n : Nat} {f : Fetched} {b : SvcBlock}

/-! ## BLOCK_START and PREEMPT_MIN_EXPIRY (R398) -/

theorem blockStart_exec {k : BitVec 8} (ready : readyBlock s k.toNat = some b) (free : minHolds s b (svcCores s b) = false) :
    exec (.blockStart k) s = .next (startBlock s b) := by
  show execBlockStart k s = _
  simp only [execBlockStart, ready, free, Bool.false_eq_true, if_false]

theorem preemptMinExpiry_exec {k : BitVec 8} (ready : readyBlock s k.toNat = some b) (free : minHolds s b (svcCores s b) = false)
    (on : s.fw.preemptMin ≠ 0) : exec (.preemptMinExpiry k) s = .next (startBlock s b) := by
  show execPreemptMinExpiry k s = _
  simp only [execPreemptMinExpiry, ready, free, on, Bool.false_eq_true, or_self, if_false]

theorem blockStart_holds {k : BitVec 8} (ready : readyBlock s k.toNat = some b) (held : minHolds s b (svcCores s b) = true) :
    Gives (.blockStart k) s (fun t => t = s) ∧ Gives (.preemptMinExpiry k) s (fun t => t = s) := by
  refine ⟨⟨s, ?_, rfl⟩, ⟨s, ?_, rfl⟩⟩
  · show execBlockStart k s = _
    simp only [execBlockStart, ready, held, if_true]
  · show execPreemptMinExpiry k s = _
    simp only [execPreemptMinExpiry, ready, held, or_true, if_true]

theorem svcCores_ok {p : StreamPlan} (ok : runCheck s (svStream b.record) = .ok p) : svcCores s b = p.coreMap := by
  rw [svcCores, ok]

theorem svcCores_error {e : Status} (bad : runCheck s (svStream b.record) = .error e) : svcCores s b = 0 := by
  rw [svcCores, bad]

theorem coreClear_askCores (rise : keysRise s.cores = true) (map n : Nat) :
    coreClear (getCore (askCores s map) n) = coreClear (getCore s n) := by
  rw [getCore_askCores rise]
  split <;> rfl

/-- A block starts where each of its cores is clear. -/
theorem startBlock_clear (rise : keysRise s.cores = true) {map : Nat} (cores : svcCores s b = map)
    (clear : ∀ n < 4096, bit map n = true → coreClear (getCore s n) = true) : startBlock s b = beginBlock (askCores s map) b := by
  unfold startBlock
  rw [cores]
  refine if_pos (List.all_eq_true.2 fun n hn => ?_)
  obtain ⟨small, is⟩ := mem_bitList.1 hn
  rw [coreClear_askCores rise]
  exact clear n small is

/-- Where one is not, the block waits. -/
theorem startBlock_waits (rise : keysRise s.cores = true) {map : Nat} (cores : svcCores s b = map)
    (busy : ¬∀ n < 4096, bit map n = true → coreClear (getCore s n) = true) : startBlock s b = askCores s map := by
  unfold startBlock
  rw [cores]
  refine if_neg fun all_ => busy fun n small is => ?_
  rw [← coreClear_askCores rise map]
  exact List.all_eq_true.1 all_ n (mem_bitList.2 ⟨small, is⟩)

theorem unclosed_rest {may : Spot → Bool} (hw : may .cmd = true) (s : State) (b : SvcBlock) : rest may (unclosed s b) = rest may s := by
  simp [unclosed, hw]

theorem unclosed_askCores_check (s : State) (b : SvcBlock) (map a : Nat) : runCheck (unclosed (askCores s map) b) a = runCheck s a :=
  runCheck_of_rest (fun hw => (unclosed_rest hw.1 (askCores s map) b).trans (askCores_rest s map hw.symm)) a

theorem askCores_mem (s : State) (map : Nat) : (askCores s map).mem = s.mem := mem_eq (askCores_rest s map (by decide))

theorem askCores_out (s : State) (map : Nat) : (askCores s map).out = s.out := out_eq (askCores_rest s map (by decide))

theorem askCores_now (s : State) (map : Nat) : (askCores s map).nowNs = s.nowNs := nowNs_eq (askCores_rest s map (by decide))

theorem getStream_askCores_none {id : Nat} (h : getStream s id = none) (map : Nat) : getStream (askCores s map) id = none := by
  rw [getStream_of_map (askCores_streams s map) id, h]
  rfl

/-- The stream of a block that has started, where none of its id ran. -/
theorem getStream_blockBegun {p : StreamPlan} (h : getStream s (svcStream b.svc) = none) :
    getStream (blockBegun s b p) (svcStream b.svc) = some (newStream p none (some b.svc)) := by
  show ((s.cmd.streams ++ [(svcStream b.svc, newStream p none (some b.svc))]).find? (fun x => x.1 == svcStream b.svc)).map _ = _
  rw [getStream, Option.map_eq_none_iff] at h
  rw [List.find?_append, h]
  simp

theorem getStream_unclosed (s : State) (b : SvcBlock) (id : Nat) : getStream (unclosed s b) id = getStream s id := rfl

/-- What a block that starts leaves in the command processor and of memory and the cores. -/
theorem blockBegun_parts (s : State) (b : SvcBlock) (p : StreamPlan) :
    (blockBegun (unclosed s b) b p).cmd.blocks = satAdd s.cmd.blocks 1 ∧
    (blockBegun (unclosed s b) b p).cmd.runBlocks = s.cmd.runBlocks ++ [b] ∧
    (blockBegun (unclosed s b) b p).cmd.closedBlocks = s.cmd.closedBlocks.erase b ∧
    (blockBegun (unclosed s b) b p).mem = s.mem ∧ (blockBegun (unclosed s b) b p).cores = s.cores := ⟨rfl, rfl, rfl, rfl, rfl⟩

section
variable {k : BitVec 8} {p : StreamPlan} (hs : Sound s) (ok : runCheck s (svStream b.record) = .ok p)
include hs ok

theorem startBlock_begins (ready : readyBlock s k.toNat = some b)
    (clear : ∀ n < 4096, bit p.coreMap n = true → coreClear (getCore s n) = true) (some_ : b.reqs ≠ [])
    (timely : ∀ x ∈ b.reqs, x.dropped = false ∧ s.nowNs ≤ x.deadline) (new : getStream s (svcStream k.toNat) = none) :
    getStream (startBlock s b) (svcStream k.toNat) = some (newStream p none (some k.toNat)) ∧
    (startBlock s b).cmd.blocks = satAdd s.cmd.blocks 1 ∧ (startBlock s b).cmd.runBlocks = s.cmd.runBlocks ++ [b] ∧
    (startBlock s b).cmd.closedBlocks = s.cmd.closedBlocks.erase b ∧ (startBlock s b).mem = s.mem ∧
    ∀ n < 4096, bit p.coreMap n = true → (getCore (startBlock s b) n).preempt = true := by
  have svc := readyBlock_svc ready
  have stay : ∀ x ∈ b.reqs, leaves (askCores s p.coreMap) b x = false := fun x hx => by
    rw [leaves, askCores_now, decide_eq_false (Nat.not_lt.2 (timely x hx).2), Bool.and_false]
  have live : b.reqs.all (·.dropped) = false := by
    obtain ⟨x, hx⟩ := List.exists_mem_of_ne_nil _ some_
    exact List.all_eq_false.2 ⟨x, hx, by simp [(timely x hx).1]⟩
  have kept := blocksKept_askCores s p.coreMap
  rw [startBlock_clear hs.cores (svcCores_ok ok) clear, beginBlock_begins stay live ((unclosed_askCores_check ..).trans ok)]
  have runs := getStream_blockBegun (s := unclosed (askCores s p.coreMap) b) (p := p)
    (by rw [getStream_unclosed, getStream_askCores_none (by rw [svc]; exact new)])
  obtain ⟨blocks, running, closed, mem, cores⟩ := blockBegun_parts (askCores s p.coreMap) b p
  rw [svc] at runs
  refine ⟨runs, by rw [blocks, kept.blocks], by rw [running, kept.run], by rw [closed, kept.closed], by rw [mem, askCores_mem],
    fun n small is => ?_⟩
  have asked := getCore_askCores hs.cores p.coreMap n
  rw [if_pos (mem_bitList.2 ⟨small, is⟩)] at asked
  rw [getCore, cores]
  exact congrArg Core.preempt asked

theorem startBlock_drops (clear : ∀ n < 4096, bit p.coreMap n = true → coreClear (getCore s n) = true)
    (late : svLateDrop b.record = true) : (startBlock s b).cmd.closedBlocks = s.cmd.closedBlocks.erase b ∧
      ∀ x ∈ b.reqs, x.deadline < s.nowNs → getDesc (startBlock s b) x.queue x.uid = none := by
  have kept := blocksKept_askCores s p.coreMap
  rw [startBlock_clear hs.cores (svcCores_ok ok) clear]
  obtain ⟨closed, gone⟩ := beginBlock_late (kept.rise hs.queues) b
  refine ⟨by rw [closed, kept.closed], fun x hx past => gone x hx ?_⟩
  rw [leaves, late, askCores_now, decide_eq_true past]
  rfl

theorem startBlock_busy (busy : ¬∀ n < 4096, bit p.coreMap n = true → coreClear (getCore s n) = true) :
    (startBlock s b).cmd.closedBlocks = s.cmd.closedBlocks ∧ (startBlock s b).cmd.runBlocks = s.cmd.runBlocks ∧
    (startBlock s b).cmd.blocks = s.cmd.blocks ∧ (startBlock s b).cmd.dropped = s.cmd.dropped ∧ (startBlock s b).mem = s.mem ∧
    (startBlock s b).out = s.out ∧
    ∀ n < 4096, bit p.coreMap n = true → getCore (startBlock s b) n = { getCore s n with preempt := true } := by
  have kept := blocksKept_askCores s p.coreMap
  rw [startBlock_waits hs.cores (svcCores_ok ok) busy]
  exact ⟨kept.closed, kept.run, kept.blocks, askCores_dropped .., askCores_mem .., askCores_out .., fun n small is => by
    rw [getCore_askCores hs.cores, if_pos (mem_bitList.2 ⟨small, is⟩)]⟩

end

theorem unclosed_lists (s : State) (b : SvcBlock) : (unclosed s b).cmd.blocks = s.cmd.blocks ∧
    (unclosed s b).cmd.runBlocks = s.cmd.runBlocks ∧ (unclosed s b).cmd.closedBlocks = s.cmd.closedBlocks.erase b := ⟨rfl, rfl, rfl⟩

theorem startBlock_fails {e : Status} (hs : Sound s) (bad : runCheck s (svStream b.record) = .error e)
    (keep : svLateDrop b.record = false) (live : ∀ x ∈ b.reqs, x.dropped = false) :
    (startBlock s b).cmd.blocks = s.cmd.blocks ∧ (startBlock s b).cmd.runBlocks = s.cmd.runBlocks ∧
    (startBlock s b).cmd.closedBlocks = s.cmd.closedBlocks.erase b ∧
    ∀ x ∈ b.reqs, getDesc (startBlock s b) x.queue x.uid = none := by
  have kept := blocksKept_askCores s 0
  have stay : ∀ x ∈ b.reqs, leaves (askCores s 0) b x = false := fun x _ => by rw [leaves, keep, Bool.false_and]
  rw [startBlock_clear hs.cores (svcCores_error bad) (fun n _ is => by simp [bit] at is)]
  obtain ⟨failed, gone⟩ := beginBlock_fails (kept.rise hs.queues) stay ((unclosed_askCores_check ..).trans bad)
  obtain ⟨blocks, running, closed⟩ := unclosed_lists (askCores s 0) b
  exact ⟨by rw [failed.blocks, blocks, kept.blocks], by rw [failed.run, running, kept.run],
    by rw [failed.closed, closed, kept.closed], fun x hx => gone x hx (live x hx)⟩

/-! ## BLOCK_END (R398, R399) -/

/-- A service that runs no block. -/
def unserved (s : State) (k : Nat) : State :=
  { s with cmd := { s.cmd with runBlocks := s.cmd.runBlocks.filter (·.svc != k) } }

theorem unserved_cmd (s : State) (k : Nat) :
    (unserved s k).cmd = { s.cmd with runBlocks := s.cmd.runBlocks.filter (·.svc != k) } := rfl

theorem blockEnd_ends {k : BitVec 8} {st : Status} (hs : Sound s) (is : s.cmd.runBlocks.find? (·.svc == k.toNat) = some b)
    (over_ : b.result = some st) : Gives (.blockEnd k) s fun t =>
      (∀ y ∈ t.cmd.runBlocks, y.svc ≠ k.toNat) ∧ ∀ x ∈ b.reqs, x.dropped = false → getDesc t x.queue x.uid = none := by
  have run : exec (.blockEnd k) s = .next (resumeTraining (unserved (b.reqs.foldl (finishReq b st) s) k.toNat)) := by
    show execBlockEnd k s = _
    simp only [execBlockEnd, is, over_]
    rfl
  have finished : BlocksKept s (b.reqs.foldl (finishReq b st) s) := .foldl (blocksKept_finishReq b st) b.reqs s
  have cmd := unserved_cmd (b.reqs.foldl (finishReq b st) s) k.toNat
  generalize hv : unserved (b.reqs.foldl (finishReq b st) s) k.toNat = v at run cmd
  have resumed := blocksKept_resumeTraining v
  refine ⟨_, run, fun y hy => ?_, fun x hx keep => resumed.gone ?_ _ _ ?_⟩
  · rw [resumed.run, cmd] at hy
    simpa using (List.mem_filter.mp hy).2
  · rw [cmd]
    exact finished.rise hs.queues
  · rw [getDesc, getQueue, cmd]
    exact each_gone (P := fun x => x.dropped = false) (blocksKept_finishReq b st)
      (fun s x rise keep => finishReq_gone rise b st keep) b.reqs s hs.queues x hx keep

/-- Settles O21. Every completion takes its own descriptor only, and resumed training touches no block (`BlocksKept`). -/
theorem serviceBlocks : Obligations.ServiceBlocks := by
  unfold Obligations.ServiceBlocks
  refine ⟨fun q s f k hs hk => ?_, fun k s b hs => ?_⟩
  · exact ⟨fun hd good => ⟨fun none_ rows => serviceRequest_opens hk hd good none_ rows,
        fun b is fits rows => serviceRequest_grows hk hd good is fits rows,
        fun b is fits rows => serviceRequest_fills hk hd good is fits rows,
        fun b is full rows => serviceRequest_turns hk hd good is full rows⟩,
      fun e hd bad => serviceRequest_refused hk hd hs bad, fun b is due => blockClose_closes is due,
      fun b is early => blockClose_still is early⟩
  · refine ⟨fun p ready ok free => ⟨fun clear some_ timely new => ?_, fun clear late => ?_, fun busy => ?_⟩,
      fun e ready bad keep live => ?_, blockStart_holds, fun st is over_ => blockEnd_ends hs is over_⟩
    · have begins := startBlock_begins hs ok ready clear some_ timely new
      exact ⟨⟨_, blockStart_exec ready free, begins⟩, fun on => ⟨_, preemptMinExpiry_exec ready free on, begins⟩⟩
    · exact ⟨_, blockStart_exec ready free, startBlock_drops hs ok clear late⟩
    · exact ⟨_, blockStart_exec ready free, startBlock_busy hs ok busy⟩
    · have free : minHolds s b (svcCores s b) = false := by
        rw [svcCores_error bad]
        simp [minHolds, bitList, bit]
      exact ⟨_, blockStart_exec ready free, startBlock_fails hs bad keep live⟩

end Sys2Proof.Laws
end

section
/-! PROOFS. What is watched while the fabric settles. -/

namespace Sys2Proof.Laws

open Sys2Proof Sys2Proof.Machine
set_option Elab.async false

/-! ## What is watched while the fabric settles

Packets for this node, collectives that close and ops that end lead to one another. What no such turn may change is stated once,
as a predicate that each of their operations keeps. -/

/-- What is watched: the setup of the ports; and, in a state without fired ops, I/O ops by stream, phase and index, and the
collectives of one id: segments that have landed there and, where it has closed, its joins and its count. -/
structure Watch where
  ports : Nat → FabPortState
  quiet : Bool
  coll : Nat
  landed : List Nat
  shut : Bool
  met : List (Nat × Nat) → Nat → Prop
  ops : List (Nat × Nat × Nat)

variable {W : Watch} {s t u : State}

/-- The ports have the setup that is watched. -/
def PortsKept (W : Watch) (m : List (Nat × FabPortState)) : Prop :=
  keysRise m = true ∧ ∀ p, portSetup (smGet FabPortState.reset m p) = W.ports p

/-- A collective is as watched, if it has the id that is watched. -/
@[simp] abbrev CollKept (W : Watch) (c : Coll) : Prop :=
  c.id = W.coll → (∀ j ∈ W.landed, j ∈ c.landed) ∧ (W.shut = true → c.closed = true ∧ W.met c.joins c.n)

/-- Every collective is as watched. -/
def CollsKept (W : Watch) (l : List Coll) : Prop := W.quiet = true → ∀ c ∈ l, CollKept W c

/-- No op of a trigger entry is there. -/
def NoneFired (W : Watch) (l : List FiredOp) : Prop := W.quiet = true → l = []

/-- The phase `k` of a stream has an I/O op of an index. -/
def runIo (r : StreamRun) (k j : Nat) : Bool := (r.running.find? (·.num == k)).any fun x => (x.io.find? (·.idx == j)).isSome

/-- The phase `k` of a stream of the list has an I/O op of an index. -/
def ioIn (m : List (Nat × StreamRun)) (i k j : Nat) : Bool := (m.find? (·.1 == i)).any fun r => runIo r.2 k j

/-- The I/O ops that are watched are there. -/
def OpsKept (W : Watch) (m : List (Nat × StreamRun)) : Prop := W.quiet = true → ∀ x ∈ W.ops, ioIn m x.1 x.2.1 x.2.2 = true

/-- A state is as watched. -/
structure Holds (W : Watch) (s : State) : Prop where
  ports : PortsKept W s.fab.ports
  colls : CollsKept W s.coll.colls
  fired : NoneFired W s.coll.firedOps
  ops : OpsKept W s.cmd.streams

theorem ioIn_streams (s : State) (i k j : Nat) : ioIn s.cmd.streams i k j = (getIo s i k j).isSome := by
  rw [ioIn, getIo, getPhase, getStream]
  cases s.cmd.streams.find? (·.1 == i) with
  | none => rfl
  | some r =>
    show _ = ((r.2.running.find? (·.num == k)).bind _).isSome
    rw [Option.any_some, runIo]
    cases r.2.running.find? (·.num == k) <;> rfl

theorem holds_iff : Holds W s ↔
    PortsKept W s.fab.ports ∧ CollsKept W s.coll.colls ∧ NoneFired W s.coll.firedOps ∧ OpsKept W s.cmd.streams :=
  ⟨fun ⟨p, c, f, o⟩ => ⟨p, c, f, o⟩, fun ⟨p, c, f, o⟩ => ⟨p, c, f, o⟩⟩

/-- A state built part by part is as watched where each part is. -/
@[simp] theorem holds_mk (pending nowNs freeCount out mem cr cores blink trn mr ccm muu muuRun trnRun cmd hif sec fw
    err pwr rst fab coll) :
    Holds W ⟨pending, nowNs, freeCount, out, mem, cr, cores, blink, trn, mr, ccm, muu, muuRun, trnRun, cmd, hif, sec,
        fw, err, pwr, rst, fab, coll⟩ ↔
      PortsKept W fab.ports ∧ CollsKept W coll.colls ∧ NoneFired W coll.firedOps ∧ OpsKept W cmd.streams := holds_iff

/-! ## As a rewrite rule

As for sound states: the claim about the result of several operations is rewritten, one operation at a time, down to the state
they started from. -/

/-- `Holds` under a second name. -/
def Held (W : Watch) (s : State) : Prop := Holds W s

/-- `PortsKept` under a second name. -/
def PortsStay (W : Watch) (m : List (Nat × FabPortState)) : Prop := PortsKept W m

/-- `CollsKept` under a second name. -/
def CollsStay (W : Watch) (l : List Coll) : Prop := CollsKept W l

/-- `NoneFired` under a second name. -/
def NoneStay (W : Watch) (l : List FiredOp) : Prop := NoneFired W l

/-- `OpsKept` under a second name. -/
def OpsStay (W : Watch) (m : List (Nat × StreamRun)) : Prop := OpsKept W m

/-- The operation that leads from the first state to the second keeps what is watched. -/
@[simp] abbrev Watched (W : Watch) (s t : State) : Prop := Holds W t ↔ Holds W s ∨ Held W t

theorem Watched.of (h : Holds W s → Holds W t) : Watched W s t := or_of_imp_rule h

@[simp] theorem portsKept_ports (s : State) : PortsKept W s.fab.ports ↔ Holds W s ∨ PortsStay W s.fab.ports :=
  or_of_imp_rule (·.ports)

@[simp] theorem collsKept_colls (s : State) : CollsKept W s.coll.colls ↔ Holds W s ∨ CollsStay W s.coll.colls :=
  or_of_imp_rule (·.colls)

@[simp] theorem noneFired_fired (s : State) : NoneFired W s.coll.firedOps ↔ Holds W s ∨ NoneStay W s.coll.firedOps :=
  or_of_imp_rule (·.fired)

@[simp] theorem opsKept_streams (s : State) : OpsKept W s.cmd.streams ↔ Holds W s ∨ OpsStay W s.cmd.streams :=
  or_of_imp_rule (·.ops)

@[simp] theorem collsKept_filter (l : List Coll) (f : Coll → Bool) :
    CollsKept W (l.filter f) ↔ CollsKept W l ∨ CollsStay W (l.filter f) :=
  or_of_imp_rule fun h q c hc => h q c (List.mem_filter.mp hc).1

@[simp] theorem noneFired_filter (l : List FiredOp) (f : FiredOp → Bool) :
    NoneFired W (l.filter f) ↔ NoneFired W l ∨ NoneStay W (l.filter f) :=
  or_of_imp_rule fun h q => by rw [h q, List.filter_nil]

@[simp] theorem noneFired_map (l : List FiredOp) (f : FiredOp → FiredOp) :
    NoneFired W (l.map f) ↔ NoneFired W l ∨ NoneStay W (l.map f) :=
  or_of_imp_rule fun h q => by rw [h q, List.map_nil]

@[simp] theorem holds_ite (c : Prop) [Decidable c] (s t : State) :
    Holds W (if c then s else t) ↔ if c then Holds W s else Holds W t := by split <;> rfl

variable {α β : Type}

/-- A fold whose every step keeps what is watched. -/
@[simp] theorem foldl_watched {f : State → α → State} (h : ∀ s x, Holds W s → Holds W (f s x)) (l : List α) (s : State) :
    Watched W s (l.foldl f s) := .of (foldl_imp h l)

theorem holds_foldl {f : State → α → State} (h : ∀ s x, Holds W s → Holds W (f s x)) (l : List α) (hs : Holds W s) :
    Holds W (l.foldl f s) := foldl_imp h l hs

/-! ## Operations beside the fabric -/

/-- An operation that leaves the fabric, the command processor and the collectives. -/
theorem Watched.aside (f : rest (others .fab) t = rest (others .fab) s) (c : rest (others .cmd) t = rest (others .cmd) s)
    (k : rest (others .coll) t = rest (others .coll) s) : Watched W s t := .of fun h =>
  ⟨by rw [fab_eq f]; exact h.ports, by rw [coll_eq k]; exact h.colls, by rw [coll_eq k]; exact h.fired,
    by rw [cmd_eq c]; exact h.ops⟩

/-- An operation that sends: it leaves the setup of the ports, the command processor and the collectives. -/
theorem Watched.sending (f : Sends s t) (c : rest (others .cmd) t = rest (others .cmd) s)
    (k : rest (others .coll) t = rest (others .coll) s) : Watched W s t := .of fun h => by
  obtain ⟨rises, setup⟩ := f.ports h.ports.1
  exact ⟨⟨rises, fun p => (setup p).trans (h.ports.2 p)⟩, by rw [coll_eq k]; exact h.colls, by rw [coll_eq k]; exact h.fired,
    by rw [cmd_eq c]; exact h.ops⟩

end Sys2Proof.Laws
end

section
/-! PROOFS. What is watched through sending, counters, records and ends of collectives. -/

namespace Sys2Proof.Laws

open Sys2Proof Sys2Proof.Machine
set_option Elab.async false

variable {W : Watch}


@[simp] theorem setMem_watched (s : State) (m : Mem) : Watched W s (setMem s m) := .aside (by simp) (by simp) (by simp)

@[simp] theorem write_watched (s : State) (r : Reach) (a : Nat) (bs : Bytes) (poison : Bool) :
    Watched W s (write s r a bs poison) := .aside (by simp) (by simp) (by simp)

@[simp] theorem touch_watched (s : State) (a : Nat) : Watched W s (touch s a) := .aside (by simp) (by simp) (by simp)

@[simp] theorem touchCluster_watched (s : State) (c : Nat) : Watched W s (touchCluster s c) :=
  .aside (by simp) (by simp) (by simp)

@[simp] theorem emit_watched (s : State) (o : Output) : Watched W s (emit s o) := .aside (by simp) (by simp) (by simp)

@[simp] theorem setCore_watched (s : State) (n : Nat) (c : Core) : Watched W s (setCore s n c) :=
  .aside (by simp) (by simp) (by simp)

@[simp] theorem setPort_watched (s : State) (p : HPort) (x : HostPortState) : Watched W s (setPort s p x) :=
  .aside (by simp) (by simp) (by simp)

@[simp] theorem sendMsix_watched (s : State) (p : HPort) (v : Nat) : Watched W s (sendMsix s p v) :=
  .aside (by simp) (by simp) (by simp)

@[simp] theorem sendRead_watched (s : State) (p : HPort) (addr len : Nat) (w : ReadFor) :
    Watched W s (sendRead s p addr len w) := .aside (by simp) (by simp) (by simp)

@[simp] theorem issueRead_watched (s : State) (p : HPort) (addr len : Nat) (w : ReadFor) :
    Watched W s (issueRead s p addr len w) := .aside (by simp) (by simp) (by simp)

@[simp] theorem raiseEvent_watched (s : State) (st : Status) (source unit : Nat) (detail : Bytes) :
    Watched W s (raiseEvent s st source unit detail) := .aside (by simp) (by simp) (by simp)

@[simp] theorem denyLine_watched (s : State) (init : Nat) (write : Bool) (a : Nat) : Watched W s (denyLine s init write a) :=
  .aside (by simp) (by simp) (by simp)

@[simp] theorem logFailure_watched (s : State) (kind : Nat) (st : Status) (unit addr : Nat) :
    Watched W s (logFailure s kind st unit addr) := .aside (by simp) (by simp) (by simp)

@[simp] theorem demandLine_watched (s : State) (a : Nat) : Watched W s (demandLine s a) := .aside (by simp) (by simp) (by simp)

@[simp] theorem demandRead_watched (s : State) (a n : Nat) : Watched W s (demandRead s a n) :=
  .aside (by simp) (by simp) (by simp)

@[simp] theorem viewSpan_watched (init : Nat) (r : Reach) (host : List HostLine) (v : View) (a n : Nat) :
    Watched W v.s (viewSpan init r host v a n).s := .aside (by simp) (by simp) (by simp)

@[simp] theorem copySpan_watched (m : Mem) (s : State) (init : Nat) (r : Reach) (src dst len : Nat) :
    Watched W s (copySpan m s init r src dst len).1 := .aside (by simp) (by simp) (by simp)

@[simp] theorem poisonRest_watched (s : State) (n : Nat) (r : LpaRun) : Watched W s (poisonRest s n r) :=
  .aside (by simp) (by simp) (by simp)

@[simp] theorem countEnded_watched (s : State) (r : LpaRun) : Watched W s (countEnded s r) :=
  .aside (by simp) (by simp) (by simp)

@[simp] theorem countCoe_watched (s : State) (r : OpRun) (st : Status) : Watched W s (countCoe s r st) :=
  .aside (by simp) (by simp) (by simp)

@[simp] theorem lateMb_watched (s : State) (mb : Nat) (useDefault : Bool) : Watched W s (lateMb s mb useDefault) :=
  .aside (by simp) (by simp) (by simp)

@[simp] theorem endPhaseBinds_watched (ph : PhaseRun) (s : State) : Watched W s (endPhaseBinds ph s) :=
  .aside (by simp) (by simp) (by simp)

@[simp] theorem fiRead_watched (s : State) (host : List HostLine) (a n : Nat) : Watched W s (fiRead s host a n).1 :=
  .aside (by simp) (by simp) (by simp)

@[simp] theorem fiWrite_watched (s : State) (a : Nat) (bs : Bytes) (poison : Bool) : Watched W s (fiWrite s a bs poison) :=
  .aside (by simp) (by simp) (by simp)

@[simp] theorem readSeg_watched (s : State) (c : Coll) (j : Nat) : Watched W s (readSeg s c j).1 :=
  .aside (by simp) (by simp) (by simp)

@[simp] theorem landSpan_watched (targets : List HostGrant) (s : State) (a : Nat) (bs : Bytes) (poison : Nat → Bool) :
    Watched W s (landSpan targets s a bs poison).1 := .aside (by simp) (by simp) (by simp)

@[simp] theorem landSeg_watched (targets : List HostGrant) (s : State) (c : Coll) (j : Nat) (bs : Bytes) (poison : Bool) :
    Watched W s (landSeg targets s c j bs poison).1 := .aside (by simp) (by simp) (by simp)

@[simp] theorem fiPoison_watched (s : State) (a n : Nat) : Watched W s (fiPoison s a n) := .aside (by simp) (by simp) (by simp)

@[simp] theorem collResult_watched (s : State) (c : Coll) (st : Status) (parts : Nat) : Watched W s (collResult s c st parts) :=
  .aside (by simp) (by simp) (by simp)

@[simp] theorem cmdDeny_watched (s : State) (write : Bool) (a n : Nat) : Watched W s (cmdDeny s write a n) :=
  .aside (by simp) (by simp) (by simp)

@[simp] theorem poisonDst_watched (s : State) (c : Coll) : Watched W s (poisonDst s c) := .aside (by simp) (by simp) (by simp)

@[simp] theorem poisonRows_watched (s : State) (a len rows pitch : Nat) : Watched W s (poisonRows s a len rows pitch) :=
  .aside (by simp) (by simp) (by simp)

@[simp] theorem poisonMat_watched (s : State) (m : Mat) (rows cols : Nat) : Watched W s (poisonMat s m rows cols) :=
  .aside (by simp) (by simp) (by simp)

@[simp] theorem poisonVe_watched (s : State) (n : Nat) (v : VeRun) : Watched W s (poisonVe s n v) :=
  .aside (by simp) (by simp) (by simp)

@[simp] theorem poisonCoe_watched (s : State) (n : Nat) (r : OpRun) : Watched W s (poisonCoe s n r) :=
  .aside (by simp) (by simp) (by simp)

@[simp] theorem poisonDma_watched (s : State) (r : OpRun) : Watched W s (poisonDma s r) := .aside (by simp) (by simp) (by simp)

@[simp] theorem poisonCcm_watched (s : State) (n : Nat) (r : OpRun) : Watched W s (poisonCcm s n r) :=
  .aside (by simp) (by simp) (by simp)

@[simp] theorem poisonMuu_watched (s : State) (run : MuuRun) : Watched W s (poisonMuu s run) :=
  .aside (by simp) (by simp) (by simp)

@[simp] theorem poisonGet_watched (s : State) (d : Bytes) : Watched W s (poisonGet s d) := .aside (by simp) (by simp) (by simp)

@[simp] theorem dropLists_watched (s : State) (n : Nat) (mine : Token → Bool) : Watched W s (dropLists s n mine) :=
  .aside (by simp) (by simp) (by simp)

@[simp] theorem dropSamples_watched (s : State) (stream : Nat) (phase : Option Nat) :
    Watched W s (dropSamples s stream phase) := .aside (by simp) (by simp) (by simp)

@[simp] theorem endMb_watched (s : State) (r : StreamRun) (p : Nat) (record : Bytes) (st : Status) :
    Watched W s (endMb s r p record st) := .aside (by simp) (by simp) (by simp)

@[simp] theorem putPstat_watched (s : State) (r : StreamRun) (p : Nat) (st : Status) : Watched W s (putPstat s r p st) :=
  .aside (by simp) (by simp) (by simp)

@[simp] theorem lateHdr_watched (s : State) (host : List HostLine) (d : Bytes) : Watched W s (lateHdr s host d).1 :=
  .aside (by simp) (by simp) (by simp)

@[simp] theorem countAt_watched (s : State) (c : Coll) : Watched W s (countAt s c).1 := .aside (by simp) (by simp) (by simp)

@[simp] theorem clearLate_watched (s : State) (d : Bytes) : Watched W s (clearLate s d) := .aside (by simp) (by simp) (by simp)

@[simp] theorem dmaEvent_watched (s : State) (n a : Nat) : Watched W s (dmaEvent s n a) := .aside (by simp) (by simp) (by simp)

@[simp] theorem landLine_watched (b : Bytes) (targets : List HostGrant) (s : State) (l : Nat) :
    Watched W s (landLine b targets s l) := .aside (by simp) (by simp) (by simp)

@[simp] theorem sendIdle_watched (s : State) (p : Nat) : Watched W s (sendIdle s p) :=
  .sending (sendIdle_sends ..) (by simp) (by simp)

@[simp] theorem noteTag_watched (s : State) (fi t : Nat) : Watched W s (noteTag s fi t) :=
  .sending (noteTag_sends ..) (by simp) (by simp)

@[simp] theorem takeTag_watched (s : State) (fi t part limitNs : Nat) (o : FabOwner) :
    Watched W s (takeTag s fi t part limitNs o) :=
  .sending (takeTag_sends ..) (by simp) (by simp)

@[simp] theorem freeSource_watched (s : State) (src : Option (Nat × Nat × Nat)) : Watched W s (freeSource s src) :=
  .sending (freeSource_sends ..) (by simp) (by simp)

@[simp] theorem putOnLink_watched (s : State) (p : Nat) (o : OutPkt) (bytes : Bytes) : Watched W s (putOnLink s p o bytes) :=
  .sending (putOnLink_sends ..) (by simp) (by simp)

@[simp] theorem drainList_watched (p : Nat) (l : List OutPkt) (blocked : List Nat) (s : State) (kept : List OutPkt) :
    Watched W s (drainList p l blocked s kept).1 :=
  .sending (drainList_sends ..) (by simp) (by simp)

@[simp] theorem drainPort_watched (s : State) (p : Nat) : Watched W s (drainPort s p) :=
  .sending (drainPort_sends ..) (by simp) (by simp)

@[simp] theorem sendOut_watched (s : State) (p : Nat) (o : OutPkt) : Watched W s (sendOut s p o) :=
  .sending (sendOut_sends ..) (by simp) (by simp)

@[simp] theorem countNoRoute_watched (s : State) : Watched W s (countNoRoute s) :=
  .sending (countNoRoute_sends ..) (by simp) (by simp)

@[simp] theorem countRouteErr_watched (s : State) : Watched W s (countRouteErr s) :=
  .sending (countRouteErr_sends ..) (by simp) (by simp)

@[simp] theorem waitAtFi_watched (s : State) (l : LoopPkt) : Watched W s (waitAtFi s l) :=
  .sending (waitAtFi_sends ..) (by simp) (by simp)

@[simp] theorem routePkt_watched (s : State) (dst cls : Nat) (l : LoopPkt) : Watched W s (routePkt s dst cls l) :=
  .sending (routePkt_sends ..) (by simp) (by simp)

@[simp] theorem injectPkt_watched (s : State) (fi dst cls : Nat) (bytes : Bytes) (part : Option Nat) (limitNs : Nat)
    (o : Option FabOwner) (src : Option (Nat × Nat × Nat)) :
    Watched W s (injectPkt s fi dst cls bytes part limitNs o src) :=
  .sending (injectPkt_sends ..) (by simp) (by simp)

@[simp] theorem forwardPkt_watched (s : State) (p : Nat) (src : Option (Nat × Nat × Nat)) (b : Bytes) :
    Watched W s (forwardPkt s p src b) :=
  .sending (forwardPkt_sends ..) (by simp) (by simp)

/-! ## Streams and counters -/

/-- A change of a phase leaves its number and drops no I/O op. -/
structure IoStays (f : PhaseRun → PhaseRun) : Prop where
  num : ∀ x, (f x).num = x.num
  io : ∀ x j, (x.io.find? (·.idx == j)).isSome = true → ((f x).io.find? (·.idx == j)).isSome = true

theorem IoStays.of_io {f : PhaseRun → PhaseRun} (hn : ∀ x, (f x).num = x.num) (hio : ∀ x, (f x).io = x.io) : IoStays f :=
  ⟨hn, fun x j h => by rw [hio]; exact h⟩

theorem IoStays.of_map {f : PhaseRun → PhaseRun} {g : IoOp → IoOp} (hn : ∀ x, (f x).num = x.num)
    (hio : ∀ x, (f x).io = x.io.map g) (hg : ∀ o, (g o).idx = o.idx) : IoStays f :=
  ⟨hn, fun x j h => by
    have same : ((fun o : IoOp => o.idx == j) ∘ g) = fun o => o.idx == j := funext fun o => by rw [Function.comp_apply, hg]
    rw [hio, List.find?_map, same, Option.isSome_map]
    exact h⟩

theorem runIo_of_map {r t : StreamRun} {f : PhaseRun → PhaseRun} (hf : IoStays f) (ht : t.running = r.running.map f) {k j : Nat}
    (h : runIo r k j = true) : runIo t k j = true := by
  have same : ((fun x : PhaseRun => x.num == k) ∘ f) = fun x => x.num == k := funext fun x => by rw [Function.comp_apply, hf.num]
  rw [runIo] at h ⊢
  rw [ht, List.find?_map, same]
  cases hx : r.running.find? (·.num == k) with
  | none => rw [hx] at h; exact absurd h (by simp)
  | some x => rw [hx] at h; exact hf.io x j h

theorem opsKept_map {m : List (Nat × StreamRun)} {g : Nat → StreamRun → StreamRun}
    (hg : ∀ i r k j, runIo r k j = true → runIo (g i r) k j = true) (h : OpsKept W m) :
    OpsKept W (m.map fun p => (p.1, g p.1 p.2)) := fun q x hx => by
  have there := h q x hx
  have same : ((fun p : Nat × StreamRun => p.1 == x.1) ∘ fun p : Nat × StreamRun => (p.1, g p.1 p.2)) = fun p => p.1 == x.1 := rfl
  rw [ioIn] at there ⊢
  rw [List.find?_map, same]
  cases hp : m.find? (·.1 == x.1) with
  | none => rw [hp] at there; exact absurd there (by simp)
  | some p => rw [hp] at there; exact hg p.1 p.2 _ _ there

@[simp] theorem modPhase_watched (s : State) (id p : Nat) {f : PhaseRun → PhaseRun} (hf : IoStays f) :
    Watched W s (modPhase s id p f) := .of fun h => by
  have one : IoStays fun x => if x.num = p then f x else x :=
    ⟨fun x => by split <;> simp [hf.num], fun x j hx => by split <;> simp [hx, hf.io]⟩
  have ops : OpsKept W (modPhase s id p f).cmd.streams := by
    rw [modPhase, modStream_streams]
    refine opsKept_map (fun i r k j hr => ?_) h.ops
    simp only [atStream]
    split
    · exact runIo_of_map one rfl hr
    · exact hr
  exact ⟨h.ports, h.colls, h.fired, ops⟩

@[simp] theorem noteStatus_watched (s : State) (id p : Nat) (st : Status) :
    Watched W s (noteStatus s id p st) :=
  modPhase_watched s id p (.of_io (fun x => by (repeat' split) <;> rfl) fun x => by (repeat' split) <;> rfl)

@[simp] theorem modIo_watched (s : State) (id p i : Nat) {f : IoOp → IoOp} (hf : ∀ o, (f o).idx = o.idx) :
    Watched W s (modIo s id p i f) :=
  modPhase_watched s id p (.of_map (fun _ => rfl) (fun _ => rfl) fun o => by split <;> simp [hf])

@[simp] theorem endIo_watched (s : State) (id p i : Nat) (st : Status) : Watched W s (endIo s id p i st) :=
  modIo_watched s id p i fun _ => rfl

@[simp] theorem setCounter_watched (s : State) (c : Nat) (v : BitVec 32) :
    Watched W s (setCounter s c v) := .of fun h => by
  simp [setCounter, h]

theorem ioStays_awaits (s : State) (c : Nat) : IoStays fun x => { x with io := x.io.map (awaitDone s c) } :=
  .of_map (fun _ => rfl) (fun _ => rfl) (awaitDone_idx s c)

@[simp] theorem counterSeen_watched (s : State) (c : Nat) : Watched W s (counterSeen s c) := .of fun h =>
  ⟨h.ports, h.colls, h.fired, opsKept_map (g := fun _ r => { r with running := r.running.map _ })
    (fun _ _ _ _ hr => runIo_of_map (ioStays_awaits s c) rfl hr) h.ops⟩

@[simp] theorem bumpCounter_watched (s : State) (c : Nat) : Watched W s (bumpCounter s c) := .of fun h => by
  simp [bumpCounter, h]

@[simp] theorem signal_watched (s : State) (id : Nat) (d : Bytes) : Watched W s (signal s id d) := .of fun h => by
  simp only [signal]; split <;> simp [h]

/-! ## Packets and ops that are dropped -/

theorem portSetup_filtered (f : OutPkt → Bool) (m : List (Nat × FabPortState)) (p : Nat) :
    portSetup (smGet FabPortState.reset (m.map fun q => (q.1, { q.2 with queue := q.2.queue.filter f })) p) =
      portSetup (smGet FabPortState.reset m p) := by
  induction m with
  | nil => rfl
  | cons q m ih =>
    simp only [List.map_cons, smGet]
    split
    · rfl
    · exact ih

@[simp] theorem dropFabric_watched (s : State) (mine : FabOwner → Bool) :
    Watched W s (dropFabric s mine) := .of fun h => by
  obtain ⟨rises, setup⟩ := h.ports
  exact ⟨⟨keysRise_map _ rises, fun p => (portSetup_filtered ..).trans (setup p)⟩, h.colls, h.fired, h.ops⟩

@[simp] theorem losePkt_watched {count : State → State} (hc : ∀ x, Holds W x → Holds W (count x)) (s : State)
    (l : LoopPkt) :
    Watched W s (losePkt count s l) := .of fun h => by
  simp only [losePkt]; (repeat' split) <;> simp [hc, h]

@[simp] theorem injectPlain_watched (s : State) (fi : Nat) (h : PktSpec) (payload : Bytes) (o : Option FabOwner)
    (src : Option (Nat × Nat × Nat)) : Watched W s (injectPlain s fi h payload o src) := .of fun h => by
  simp [injectPlain, h]

@[simp] theorem markSlots_watched (s : State) (first k : Nat) (b : Bool) : Watched W s (markSlots s first k b) := .of fun h => by
  simp [markSlots, h]

@[simp] theorem ownerEnd_watched (s : State) (o : OpOwner) (st : Status) :
    Watched W s (ownerEnd s o st) := .of fun h => by
  simp only [ownerEnd]; split <;> simp [h]

@[simp] theorem closeColl_watched (s : State) (c : Coll) (st : Status) (parts : Nat) :
    Watched W s (closeColl s c st parts) := .of fun h => by
  simp only [closeColl]; split <;> simp [h]

@[simp] theorem collSend_watched (s : State) (c : Coll) (rank kind item addr : Nat) (payload : Bytes) (poison : Bool) :
    Watched W s (collSend s c rank kind item addr payload poison) := .of fun h => by
  simp [collSend, h]

@[simp] theorem stopColl_watched (s : State) (id : Nat) :
    Watched W s (stopColl s id) := .of fun h => by simp [stopColl, h]

@[simp] theorem abortHere_watched (s : State) (c : Coll) (st : Status) :
    Watched W s (abortHere s c st) := .of fun h => by
  simp [abortHere, h]

@[simp] theorem abortedBy_watched (s : State) (c : Coll) (st : Status) :
    Watched W s (abortedBy s c st) := .of fun h => by
  simp [abortedBy, h]

@[simp] theorem abortColl_watched (s : State) (id : Nat) (st : Status) :
    Watched W s (abortColl s id st) := .of fun h => by
  unfold abortColl
  split
  · exact h
  · next c _ =>
    extract_lets r counts s0
    have h0 : Holds W s0 := by simp only [s0, counts]; split <;> simp [h]
    clear_value s0
    have sent : Holds W ((List.range (cmMembers r)).foldl (fun x k =>
        if k = cmRank r then x else collSend x c k 12 (statusCode st) 0 []) (stopColl s0 id)) :=
      holds_foldl (fun a k ha => by split <;> simp [ha]) _ (by simp [h0])
    simp [sent]

@[simp] theorem setQueue_watched (s : State) (q : Nat) (x : Queue) : Watched W s (setQueue s q x) := .of fun h => by
  simp [setQueue, h]

@[simp] theorem queueError_watched (s : State) (n : Nat) : Watched W s (queueError s n) := .of fun h => by
  simp only [queueError]; (repeat' split) <;> simp [h]

@[simp] theorem cmdWrite_watched (s : State) (a : Nat) (bs : Bytes) :
    Watched W s (cmdWrite s a bs).1 := .of fun h => by
  simp only [cmdWrite]; (repeat' split)
  · refine holds_foldl (fun x l hx => ?_) _ h
    (repeat' split) <;> simp [hx]
  · simp [h]
  · simp [h]

@[simp] theorem putRecord_watched (s : State) (n : Nat) (r : Record) : Watched W s (putRecord s n r) := .of fun h => by
  simp only [putRecord]; (repeat' split) <;> simp [h]

@[simp] theorem postRecord_watched (s : State) (n : Nat) (r : Record) :
    Watched W s (postRecord s n r) := .of fun h => by
  simp [postRecord, h]

@[simp] theorem noteServed_watched (s : State) (n : Nat) : Watched W s (noteServed s n) := .of fun h => by
  simp [noteServed, h]

@[simp] theorem completeFull_watched (s : State) (n : Nat) (f : Fetched) (st : Status) (split late : Bool)
    (parts : BitVec 16) (effect : Bool) : Watched W s (completeFull s n f st split late parts effect) := .of
    fun h => by
  simp only [completeFull]; split <;> simp [h]

@[simp] theorem completeDesc_watched (s : State) (n : Nat) (f : Fetched) (st : Status) :
    Watched W s (completeDesc s n f st) := .of fun h => by
  simp [completeDesc, h]

end Sys2Proof.Laws
end

section
/-! PROOFS. What is watched through collectives, packets and the turns of the fabric. -/

namespace Sys2Proof.Laws

open Sys2Proof Sys2Proof.Machine
set_option Elab.async false

variable {W : Watch}

/-! ## Collectives and fired ops -/

@[simp] theorem modColl_watched (s : State) (id : Nat) {f : Coll → Coll} (hf : ∀ c, c.id = id → CollKept W c → CollKept W (f c)) :
    Watched W s (modColl s id f) := .of fun h => by
  have colls : CollsKept W (s.coll.colls.map fun c => if c.id = id then f c else c) := fun q c hc => by
    obtain ⟨c, hm, rfl⟩ := List.mem_map.mp hc
    split
    · next e => exact hf c e (h.colls q c hm)
    · exact h.colls q c hm
  simp [modColl, h, colls]

@[simp] theorem abortCollsOf_watched (s : State) (stream : Nat) (phase : Option Nat) :
    Watched W s (abortCollsOf s stream phase) := .of fun h => by
  simp +contextual [abortCollsOf, h]

/-! ## Phases that are forced to end, which a state without fired ops does not come to -/

theorem opsKept_of_loud (loud : W.quiet = false) (m : List (Nat × StreamRun)) : OpsKept W m := fun q => absurd q (by simp [loud])

theorem collsKept_of_loud (loud : W.quiet = false) (l : List Coll) : CollsKept W l := fun q => absurd q (by simp [loud])

@[simp] theorem endCoreOps_watched (s : State) (n : Nat) (mine : Token → Bool) : Watched W s (endCoreOps s n mine).1 :=
  .of fun h => by
  unfold endCoreOps
  extract_lets c lpa lpaP ve veP coe dma ccm s1 s2 s3 s4 s5 s6 s7 d t
  clear_value lpa lpaP ve veP coe dma ccm
  have h1 : Holds W s1 := by cases lpa <;> simp [s1, h]
  have h2 : Holds W s2 := by cases lpaP <;> simp [s2, h1]
  have h3 : Holds W s3 := by cases ve <;> simp [s3, h2]
  have h4 : Holds W s4 := by cases veP <;> simp [s4, h3]
  have h5 : Holds W s5 := by cases coe <;> simp [s5, h4]
  have h6 : Holds W s6 := by cases dma <;> simp [s6, h5]
  have h7 : Holds W s7 := by cases ccm <;> simp [s7, h6]
  exact (setCore_watched _ _ _).mpr (.inl h7)

@[simp] theorem disarm_watched (s : State) (id : Nat) : Watched W s (disarm s id) := .of fun h => by simp [disarm, h]

@[simp] theorem settleStream_watched (loud : W.quiet = false) (s : State) (id : Nat) : Watched W s (settleStream s id) :=
  .of fun h => by
  simp only [settleStream]; (repeat' split) <;> simp [h, opsKept_of_loud loud]

@[simp] theorem modStream_watched (loud : W.quiet = false) (s : State) (id : Nat) (f : StreamRun → StreamRun) :
    Watched W s (modStream s id f) := .of fun h => by
  simp [modStream, h, opsKept_of_loud loud]

@[simp] theorem stopStream_watched (loud : W.quiet = false) (s : State) (id : Nat) (st : Status) :
    Watched W s (stopStream s id st) := .of fun h => by
  simp [stopStream, h, loud]

@[simp] theorem withTrn_watched {f : State → State} (hf : ∀ x, Holds W x → Holds W (f x)) (ph : PhaseRun) (s : State) :
    Watched W s (withTrn ph f s) := .of fun h => by
  simp [withTrn, underPhase, h, hf]

@[simp] theorem endPhase_watched (loud : W.quiet = false) (s : State) (id p : Nat) : Watched W s (endPhase s id p) :=
  .of fun h => by
  simp only [endPhase]; split <;> simp +contextual [h, loud]

@[simp] theorem dropFired_watched (s : State) (id : Nat) (phase : Option Nat) :
    Watched W s (dropFired s id phase) := .of fun h => by
  simp +contextual [dropFired, h]

@[simp] theorem forceEnd_watched (loud : W.quiet = false) (s : State) (id p : Nat) (st : Status) (hard : Bool) :
    Watched W s (forceEnd s id p st hard) := .of fun h => by
  have phase (x : State) (f : PhaseRun → PhaseRun) : Watched W x (modPhase x id p f) := modStream_watched loud ..
  simp only [forceEnd]; split
  · exact h
  · generalize hx : (liveCores s).foldl _ s = x
    have hx : Holds W x := hx ▸ holds_foldl (fun a n ha => by simp [ha]) _ h
    (repeat' split) <;> simp +contextual [hx, loud, phase]

@[simp] theorem finishFired_watched (loud : W.quiet = false) (s : State) (f : FiredOp) (st : Status) :
    Watched W s (finishFired s f st) := .of fun h => by
  simp [finishFired, h, loud]

@[simp] theorem settleFired_watched (k : Nat) (s : State) : Watched W s (settleFired k s) := .of fun h => by
  induction k generalizing s with
  | zero => exact h
  | succ k ih =>
    simp only [settleFired]; split
    · exact h
    · next f hf =>
      cases loud : W.quiet with
      | false => exact ih _ (by simp [h, loud])
      | true => rw [h.fired loud] at hf; exact absurd hf (by simp)

@[simp] theorem endWindowSet_watched (s : State) : Watched W s (endWindowSet s) := .of fun h => by
  simp only [endWindowSet]; (repeat' split) <;> simp [h]

@[simp] theorem settleAllFired_watched (s : State) : Watched W s (settleAllFired s) := .of fun h => by
  simp [settleAllFired, h]

@[simp] theorem staleColl_watched (s : State) : Watched W s (staleColl s) := .of fun h => by simp [staleColl, h]

@[simp] theorem sealSeg_watched (s : State) (id key : Nat) (flow : Nat → Bool) (j : Nat) (bs : Bytes) :
    Watched W s (sealSeg s id key flow j bs).1 := .of fun h => by
  simp only [sealSeg]; (repeat' split) <;> simp +contextual [h]

@[simp] theorem openSeg_watched (s : State) (id key : Nat) (flow : Nat → Bool) (j : Nat) (payload : Bytes) :
    Watched W s (openSeg s id key flow j payload).1 := .of fun h => by
  simp only [openSeg]; (repeat' split) <;> simp +contextual [h]

@[simp] theorem hear_watched (s : State) (id key : Nat) :
    Watched W s (hear s id key) := .of fun h => by simp +contextual [hear, h]

@[simp] theorem failChunk_watched (s : State) (id : Nat) (flow : Nat → Bool) (q : Nat) :
    Watched W s (failChunk s id flow q) := .of fun h => by
  simp only [failChunk]; (repeat' split) <;> simp +contextual [h]

theorem mem_landed (i j : Nat) (l : List Nat) : i ∈ (if j ∈ l then l else l ++ [j]) ↔ i ∈ l ∨ i = j := by
  split
  · next h => exact ⟨.inl, fun k => k.elim id fun e => e ▸ h⟩
  · simp

@[simp] theorem landResult_watched (s : State) (id src : Nat) (flow : Nat → Bool) (j : Nat) (payload : Bytes)
    (poison : Bool) (targets : List HostGrant) : Watched W s (landResult s id src flow j payload poison targets) :=
    .of fun h => by
  simp only [landResult]; (repeat' split) <;> simp +contextual [h, mem_landed]

@[simp] theorem sendDown_watched (s : State) (id j : Nat) (payload : Bytes) (poison : Bool) :
    Watched W s (sendDown s id j payload poison) := .of fun h => by
  simp only [sendDown]; split <;> simp +contextual [h]

@[simp] theorem sendUp_watched (s : State) (id j : Nat) (bs : Bytes) (poison : Bool) :
    Watched W s (sendUp s id j bs poison) := .of fun h => by
  simp only [sendUp]; split <;> simp +contextual [h]

@[simp] theorem pumpLeaf_watched (k : Nat) (s : State) (id : Nat) : Watched W s (pumpLeaf k s id) := .of fun h => by
  induction k generalizing s with
  | zero => exact h
  | succ k ih => simp only [pumpLeaf]; (repeat' split) <;> simp [ih, h]

@[simp] theorem pump_watched (s : State) (id : Nat) : Watched W s (pump s id) := .of fun h => by
  simp only [pump]; (repeat' split) <;> simp [h]

@[simp] theorem epFinish_watched (s : State) (id j : Nat) : Watched W s (epFinish s id j) := .of fun h => by
  simp only [epFinish]; (repeat' split) <;> simp +contextual [h]

@[simp] theorem epArrive_watched (s : State) (id src j : Nat) (payload : Bytes) (poison : Bool) :
    Watched W s (epArrive s id src j payload poison) := .of fun h => by
  simp only [epArrive]; (repeat' split) <;> simp +contextual [h]

@[simp] theorem epSend_watched (id : Nat) (s : State) (j : Nat) : Watched W s (epSend id s j) := .of fun h => by
  simp only [epSend]; (repeat' split) <;> simp [h]

@[simp] theorem epStart_watched (s : State) (id : Nat) : Watched W s (epStart s id) := .of fun h => by
  simp only [epStart]; (repeat' split) <;> simp +contextual [h]

@[simp] theorem pumpDown_watched (k : Nat) (s : State) (id : Nat) : Watched W s (pumpDown k s id) := .of fun h => by
  induction k generalizing s with
  | zero => exact h
  | succ k ih => simp only [pumpDown]; (repeat' split) <;> simp +contextual [ih, h]

@[simp] theorem gatherStart_watched (s : State) (id : Nat) : Watched W s (gatherStart s id) := .of fun h => by
  simp only [gatherStart]; (repeat' split) <;> simp +contextual [h]

@[simp] theorem broadcastStart_watched (s : State) (id : Nat) : Watched W s (broadcastStart s id) := .of fun h => by
  simp only [broadcastStart]; (repeat' split) <;> simp +contextual [h]

@[simp] theorem failWindow_watched (s : State) (id src lo n : Nat) :
    Watched W s (failWindow s id src lo n) := .of fun h => by
  simp only [failWindow]; split <;> simp +contextual [h]

@[simp] theorem skipChunks_watched (s : State) (id src q : Nat) :
    Watched W s (skipChunks s id src q) := .of fun h => by
  simp only [skipChunks]; (repeat' split) <;> simp +contextual [h]

@[simp] theorem checkWindow_watched (s : State) (id src q n : Nat) (crc : Bytes) :
    Watched W s (checkWindow s id src q n crc) := .of fun h => by
  simp only [checkWindow]; (repeat' split) <;> simp +contextual [h]

@[simp] theorem a2aLand_watched (s : State) (id src addr : Nat) (bs : Bytes) (mask : Nat) (targets : List HostGrant) :
    Watched W s (a2aLand s id src addr bs mask targets) := .of fun h => by
  simp only [a2aLand]; (repeat' split) <;> simp +contextual [h]

@[simp] theorem a2aCounted_watched (s : State) (id src : Nat) (payload : Bytes) (targets : List HostGrant) :
    Watched W s (a2aCounted s id src payload targets) := .of fun h => by
  simp only [a2aCounted]; (repeat' split) <;> simp +contextual [h]

@[simp] theorem a2aSend_watched (id : Nat) (counts : List Nat) (s : State) (d : Nat) :
    Watched W s (a2aSend id counts s d) := .of fun h => by
  simp only [a2aSend]; (repeat' split) <;> simp +contextual [h]

@[simp] theorem a2aStart_watched (s : State) (id : Nat) : Watched W s (a2aStart s id) := .of fun h => by
  simp only [a2aStart]; (repeat' split) <;> simp +contextual [h]

@[simp] theorem finishColl_watched (s : State) (id : Nat) : Watched W s (finishColl s id) := .of fun h => by
  simp only [finishColl]; (repeat' split) <;> simp [h]

@[simp] theorem leftOut_watched (s : State) (id : Nat) : Watched W s (leftOut s id) := .of fun h => by
  simp only [leftOut]; (repeat' split) <;> simp +contextual [h]

@[simp] theorem moveData_watched (s : State) (id : Nat) : Watched W s (moveData s id) := .of fun h => by
  simp only [moveData]; (repeat' split) <;> simp [h]

/-- A collective of this id may close: it is none that is watched as closed. -/
def MayClose (W : Watch) (id : Nat) : Prop := W.quiet = true → W.shut = true → id ≠ W.coll

theorem mayClose_of_open {s : State} {c : Coll} (h : Holds W s) (hc : c ∈ s.coll.colls) (ho : c.closed = false) :
    MayClose W c.id := fun q shut e => by
  obtain ⟨closed, -⟩ := (h.colls q c hc e).2 shut
  rw [ho] at closed
  exact absurd closed (by simp)

theorem getColl_mem {s : State} {id : Nat} {c : Coll} (h : getColl s id = some c) : c ∈ s.coll.colls ∧ c.id = id :=
  ⟨List.mem_of_find?_eq_some h, by simpa using List.find?_some h⟩

/-- Where a collective may close, what its joins, its count and its close become is not watched. -/
theorem collKept_of_mayClose {id : Nat} {c d : Coll} (may : MayClose W id) (q : W.quiet = true) (hc : c.id = id) (hid : d.id = c.id)
    (hl : d.landed = c.landed) (h : CollKept W c) : CollKept W d := fun e => by
  refine ⟨by rw [hl]; exact (h (hid ▸ e)).1, fun shut => absurd ?_ (may q shut)⟩
  rw [← hc, ← hid, e]

theorem modColl_mayClose {id : Nat} (may : MayClose W id) (s : State) {f : Coll → Coll}
    (hf : ∀ c, (f c).id = c.id ∧ (f c).landed = c.landed) (h : Holds W s) : Holds W (modColl s id f) := by
  have colls : CollsKept W (s.coll.colls.map fun c => if c.id = id then f c else c) := fun q c hc => by
    obtain ⟨c, hm, rfl⟩ := List.mem_map.mp hc
    split
    · next e => exact collKept_of_mayClose may q e (hf c).1 (hf c).2 (h.colls q c hm)
    · exact h.colls q c hm
  simp [modColl, h, colls]

@[simp] theorem applyClose_watched {id : Nat} (may : MayClose W id) (s : State) (n : Nat) (ep : Bool) (parentFirst : Nat)
    (contribs : List Nat) : Watched W s (applyClose s id n ep parentFirst contribs) := .of fun h => by
  simp only [applyClose]; split
  · exact h
  · next c _ =>
    have closed (f : Coll → Coll) (hf : ∀ c, (f c).id = c.id ∧ (f c).landed = c.landed) := modColl_mayClose may s hf h
    simp [closed]

@[simp] theorem closeRound_watched {id : Nat} (may : MayClose W id) (s : State) : Watched W s (closeRound s id) :=
  .of fun h => by
  simp only [closeRound]; (repeat' split) <;> simp +contextual [h, may]

@[simp] theorem tryClose_watched (s : State) (id : Nat) : Watched W s (tryClose s id) := .of fun h => by
  simp only [tryClose]; split
  · exact h
  · next c hc =>
    split
    · next due =>
      obtain ⟨mem, rfl⟩ := getColl_mem hc
      simp only [Bool.and_eq_true, Bool.not_eq_true'] at due
      have may : MayClose W c.id := mayClose_of_open h mem due.1.1
      simp [h, may]
    · exact h

@[simp] theorem joinAt_watched {id : Nat} (may : MayClose W id) (s : State) (rank rec_ : Nat) :
    Watched W s (joinAt s id rank rec_) := .of fun h => by
  simp only [joinAt]; split
  · exact h
  · next c _ =>
    have joined (x : State) (f : Coll → Coll) (hf : ∀ c, (f c).id = c.id ∧ (f c).landed = c.landed) (hx : Holds W x) :=
      modColl_mayClose may x hf hx
    simp [h, joined]

@[simp] theorem sendJoin_watched {id : Nat} (may : MayClose W id) (s : State) : Watched W s (sendJoin s id) := .of fun h => by
  simp only [sendJoin]; (repeat' split) <;> simp [h, may]

@[simp] theorem takeData_watched (s : State) (c : Coll) (src j : Nat) (payload : Bytes) (poison : Bool) :
    Watched W s (takeData s c src j payload poison) := .of fun h => by
  simp only [takeData]; (repeat' split) <;> simp +contextual [h]

@[simp] theorem takeResult_watched (s : State) (c : Coll) (src j : Nat) (payload : Bytes) (poison : Bool)
    (targets : List HostGrant) : Watched W s (takeResult s c src j payload poison targets) := .of fun h => by
  simp only [takeResult]; (repeat' split) <;> simp [h]

theorem takeClose_watched {s : State} {c : Coll} (hc : c ∈ s.coll.colls) (p : Bytes) (h : Holds W s) : Holds W (takeClose s c p) := by
  simp only [takeClose]; split
  · simp [h]
  · next open_ =>
    have may : MayClose W c.id := mayClose_of_open h hc (by simpa using open_)
    simp [h, may]

theorem collPacket_watched {s : State} {c : Coll} (hc : c ∈ s.coll.colls) (src : Nat) (b : Bytes) (targets : List HostGrant)
    (h : Holds W s) : Holds W (collPacket s c src b targets) := by
  have join (rec_ : Nat) : Holds W (if c.closed then s else joinAt s c.id src rec_) := by
    split
    · exact h
    · next open_ => exact (joinAt_watched (mayClose_of_open h hc (by simpa using open_)) ..).mpr (.inl h)
  simp only [collPacket]
  refine (finishColl_watched ..).mpr (.inl ?_)
  split
  case h_3 =>
    split
    · exact join _
    · simp [h]
  case h_4 => exact takeClose_watched hc _ h
  all_goals (repeat' split) <;> simp +contextual [h]

@[simp] theorem keepEarly_watched (s : State) (e : EarlyPkt) : Watched W s (keepEarly s e) := .of fun h => by
  simp [keepEarly, h]

@[simp] theorem collTake_watched (s : State) (e : EarlyPkt) : Watched W s (collTake s e) := .of fun h => by
  have packet (c : Coll) (src : Nat) (hc : s.coll.colls.find? (fun c => coComm c.desc == earlyComm e &&
      coSeq c.desc % 65536 == earlySeq e) = some c) : Holds W (collPacket s c src e.packet e.targets) :=
    collPacket_watched (List.mem_of_find?_eq_some hc) _ _ _ h
  simp only [collTake]; (repeat' split) <;> simp [*]

@[simp] theorem takeEarly_watched (s : State) (e : EarlyPkt) : Watched W s (takeEarly s e) := .of fun h => by
  simp only [takeEarly]; split <;> simp [h]

@[simp] theorem replayEarly_watched (s : State) (comm seq : Nat) :
    Watched W s (replayEarly s comm seq) := .of fun h => by
  simp +contextual [replayEarly, h]

@[simp] theorem replayDue_watched (s : State) :
    Watched W s (replayDue s) := .of fun h => by simp +contextual [replayDue, h]

@[simp] theorem finishColls_watched (s : State) :
    Watched W s (finishColls s) := .of fun h => by simp +contextual [finishColls, h]

@[simp] theorem dropLate_watched (s : State) (host : List HostLine) (d : Bytes) :
    Watched W s (dropLate s host d) := .of fun h => by
  simp only [dropLate]; (repeat' split) <;> simp [h]

@[simp] theorem issueColl_watched (loud : W.quiet = false) (s : State) (owner : OpOwner) (stream phase step : Nat) (late : Bool)
    (d : Bytes) (host : List HostLine) : Watched W s (issueColl s owner stream phase step late d host) := .of fun h => by
  have may (id : Nat) : MayClose W id := fun q => absurd q (by simp [loud])
  unfold issueColl
  extract_lets comm r id needs run c coll s1 s2 held coll2
  have h1 : Holds W s1 := by simp [s1, coll, h, collsKept_of_loud loud]
  have h2 : Holds W s2 := by simp only [s2]; split <;> simp [h1]
  clear_value s2
  split <;> simp [coll2, h2, may]

@[simp] theorem issueFired_watched (loud : W.quiet = false) (s : State) (f : FiredOp) : Watched W s (issueFired s f) :=
  .of fun h => by
  simp only [issueFired]; (repeat' split) <;> simp [h, loud]

@[simp] theorem startWaiting_watched (k : Nat) (s : State) : Watched W s (startWaiting k s) := .of fun h => by
  induction k generalizing s with
  | zero => exact h
  | succ k ih =>
    simp only [startWaiting]; split
    · exact h
    · next f hf =>
      cases loud : W.quiet with
      | false => exact ih _ (by simp [h, loud])
      | true => rw [nextWaiting, h.fired loud] at hf; exact absurd hf (by simp)

@[simp] theorem settleColls_watched (s : State) : Watched W s (settleColls s) := .of fun h => by simp [settleColls, h]

@[simp] theorem finishFab_watched (s : State) (o : FabOp) : Watched W s (finishFab s o) := .of fun h => by
  simp only [finishFab]; (repeat' split) <;> simp +contextual [h]

@[simp] theorem settleOps_watched (s : State) : Watched W s (settleOps s) := .of fun h => by
  simp +contextual [settleOps, h]

@[simp] theorem failPacket_watched (s : State) (o : FabOwner) (k : Nat) (st : Status) :
    Watched W s (failPacket s o k st) := .of fun h => by
  simp [failPacket, h]

@[simp] theorem resolveTag_watched (s : State) (t : FabTag) (st : Status) :
    Watched W s (resolveTag s t st) := .of fun h => by
  simp only [resolveTag]; split <;> simp [h]

@[simp] theorem denyPkt_watched (s : State) (write : Bool) (lines : List Nat) :
    Watched W s (denyPkt s write lines) := .of fun h => by
  simp +contextual [denyPkt, h]

@[simp] theorem ordersTwoFour_watched (s : State) (fi : Nat) (b : Bytes) (write : Bool) :
    Watched W s (ordersTwoFour s fi b write).1 := .of fun h => by
  simp only [ordersTwoFour]; (repeat' split) <;> simp [h]

@[simp] theorem countLanded_watched (b : Bytes) (s : State) : Watched W s (countLanded b s) := .of fun h => by
  simp only [countLanded]; split <;> simp [h]

@[simp] theorem landPkt_watched (s : State) (b : Bytes) (targets : List HostGrant) :
    Watched W s (landPkt s b targets) := .of fun h => by
  simp +contextual [landPkt, h]

@[simp] theorem sendAck_watched (s : State) (fi : Nat) (b : Bytes) (dst : Nat) (st : Status) (src : Option
    (Nat × Nat × Nat)) : Watched W s (sendAck s fi b dst st src) := .of fun h => by
  simp only [sendAck]; split <;> simp [h]

@[simp] theorem landChecked_watched (s : State) (fi : Nat) (b : Bytes) (targets : List HostGrant) (src : Option
    (Nat × Nat × Nat)) : Watched W s (landChecked s fi b targets src) := .of fun h => by
  simp only [landChecked]; (repeat' split) <;> simp [h]

@[simp] theorem postOrLand_watched (s : State) (fi : Nat) (b : Bytes) (stalled : Bool)
    (src : Option (Nat × Nat × Nat)) : Watched W s (postOrLand s fi b stalled src) := .of fun h => by
  simp only [postOrLand]; split <;> simp [h]

@[simp] theorem sinkWrite_watched (s : State) (fi : Nat) (b : Bytes) (stalled : Bool) (src : Option (Nat × Nat × Nat)) :
    Watched W s (sinkWrite s fi b stalled src) := .of fun h => by
  simp only [sinkWrite]; split <;> simp [h]

@[simp] theorem sendReply_watched (s : State) (fi : Nat) (b payload : Bytes) (mask : Nat)
    (src : Option (Nat × Nat × Nat)) : Watched W s (sendReply s fi b payload mask src) := .of fun h => by
  simp only [sendReply]; split <;> simp [h]

@[simp] theorem replyFrom_watched (s : State) (m : Mem) (fi : Nat) (b : Bytes) (lost : List Nat) (src : Option
    (Nat × Nat × Nat)) : Watched W s (replyFrom s m fi b lost src) := .of fun h => by
  simp [replyFrom, h]

@[simp] theorem fetchHost_watched (s : State) (fi : Nat) (b : Bytes) (src : Option (Nat × Nat × Nat)) :
    Watched W s (fetchHost s fi b src) := .of fun h => by
  refine holds_foldl (fun x l hx => ?_) _ (by simp [h])
  split <;> simp [hx]

@[simp] theorem sinkRead_watched (s : State) (fi : Nat) (b : Bytes) (src : Option (Nat × Nat × Nat)) :
    Watched W s (sinkRead s fi b src) := .of fun h => by
  simp [sinkRead, h]

@[simp] theorem sinkData_watched (s : State) (fi : Nat) (b : Bytes) (stalled : Bool) (src : Option (Nat × Nat × Nat)) :
    Watched W s (sinkData s fi b stalled src) := .of fun h => by
  simp only [sinkData]; (repeat' split) <;> simp [h]

@[simp] theorem sinkAck_watched (s : State) (fi : Nat) (b : Bytes) (src : Option (Nat × Nat × Nat)) :
    Watched W s (sinkAck s fi b src) := .of fun h => by
  simp only [sinkAck]; (repeat' split) <;> simp [h]

@[simp] theorem sinkPlain_watched (s : State) (fi : Nat) (b : Bytes) (stalled : Bool) (src : Option (Nat × Nat × Nat)) :
    Watched W s (sinkPlain s fi b stalled src) := .of fun h => by
  simp only [sinkPlain]; (repeat' split) <;> simp [h]

@[simp] theorem takeLoop_watched (s : State) (l : LoopPkt) : Watched W s (takeLoop s l) := .of fun h => by
  simp only [takeLoop]; (repeat' split) <;> simp [h]

@[simp] theorem runLoop_watched (k : Nat) (s : State) : Watched W s (runLoop k s) := .of fun h => by
  induction k generalizing s with
  | zero => exact h
  | succ k ih => simp only [runLoop]; (repeat' split) <;> simp [ih, h]

@[simp] theorem takeIn_watched (s : State) (h : HeldPkt) : Watched W s (takeIn s h) := .of fun h => by
  simp [takeIn, h]

@[simp] theorem moveOn_watched (k : Nat) (s : State) : Watched W s (moveOn k s) := .of fun h => by
  induction k generalizing s with
  | zero => exact h
  | succ k ih => simp only [moveOn]; (repeat' split) <;> simp [ih, h]

@[simp] theorem settleTurns_watched (k : Nat) (s : State) : Watched W s (settleTurns k s) := .of fun h => by
  induction k generalizing s with
  | zero => exact h
  | succ k ih => simp [settleTurns, ih, h]

@[simp] theorem settleFab_watched (s : State) : Watched W s (settleFab s) := .of fun h => by simp [settleFab, h]
end Sys2Proof.Laws
end

section
/-! PROOFS. Limiters, the loops and optical engines (O33). -/

namespace Sys2Proof.Laws

open Sys2Proof Sys2Proof.Machine
set_option Elab.async false

variable {s t u : State} {p n : Nat}

/-! ## Limiters and releases -/

/-- A limiter of a set of ceilings is active. -/
def limited (c : CeilState) : Bool := c.fast.isSome || c.overcurrent || c.hot || c.inputLow

theorem alertCause_of_limited (h : limited s.pwr.ceil = true) : alertCause s = true := by
  simp only [alertCause, Bool.or_eq_true]
  exact .inl (.inl (by simpa [limited] using h))

theorem settleAlert_mem (s : State) : (settleAlert s).mem = s.mem := mem_eq (by simp)

theorem settleAlert_asserts (h : alertCause s = true) : (settleAlert s).pwr.alert.isSome = true := by
  rw [settleAlert]
  split
  · rw [if_pos h]; rfl
  · next t ht => simp [h, ht]

/-- A limiter that acts moves the point under its ceiling, asserts ALERT_N and leaves the ceilings and counts that it was given. -/
theorem limiterActs_gives (on : computeOn s = true) (free : s.pwr.ceil.change = none) (cause : limited s.pwr.ceil = true) :
    (∃ drive point change waiting alert, point ≤ lowestCeil s ∧
      (limiterActs s).pwr = { s.pwr with drive, ceil := { s.pwr.ceil with point, change, waiting }, alert }) ∧
    (limiterActs s).pwr.alert.isSome = true ∧ (limiterActs s).mem = s.mem := by
  obtain ⟨drive, point, change, waiting, -, moved⟩ := retarget_moves (s := s)
  have low := retarget_low on free
  have raised : (raiseEvent (retarget s) .limiter 0 0).pwr = (retarget s).pwr := pwr_eq (by simp)
  obtain ⟨alert, settled⟩ := settleAlert_pwr (s := raiseEvent (retarget s) .limiter 0 0)
  rw [moved] at low
  refine ⟨⟨drive, point, change, waiting, alert, low, ?_⟩, settleAlert_asserts (alertCause_of_limited ?_), mem_eq (by simp [limiterActs])⟩
  · rw [limiterActs, settled, raised, moved]
  · rw [raised, moved]
    exact cause

/-- A state with other ceilings, and with counts of the power state that have moved on. -/
def limitedTo (s : State) (c : CeilState) (w : PwrState) : State := { s with pwr := { w with ceil := c } }

/-- A limiter that acts, with its ceiling `q` in force: what it was given stays, and the point goes under the ceiling. -/
theorem limitedTo_acts {i : Instr} {c : CeilState} {w : PwrState} (run : exec i s = .next (limiterActs (limitedTo s c w))) {q : Nat}
    (set : q ∈ hwCeils c) (on : computeOn s = true) (free : c.change = none) (cause : limited c = true)
    (same : w.state = s.pwr.state) : Gives i s fun t =>
      (∃ drive point change waiting alert, point ≤ q ∧
        t.pwr = { w with drive, ceil := { c with point, change, waiting }, alert }) ∧
      t.pwr.alert.isSome = true ∧ t.mem = s.mem := by
  have on' : computeOn (limitedTo s c w) = true := by
    rw [computeOn] at on ⊢
    show (s.rst.supply == .on && decide (5 ≤ s.rst.step) && decide (w.state < 3)) = true
    rw [same]
    exact on
  obtain ⟨⟨d, p, x, y, a, low, pwr⟩, alert, mem⟩ := limiterActs_gives (s := limitedTo s c w) on' free cause
  exact ⟨_, run, ⟨d, p, x, y, a, low.trans ((lowestCeil_le_hwCeil _).trans (hwCeil_le set)), pwr⟩, alert, mem⟩

section Limiters

variable (on : computeOn s = true) (free : s.pwr.ceil.change = none)
include on free

theorem fastPower_gives {w : Nat} (first : s.pwr.ceil.lastFast = none) (high : 110 * s.fw.powerLimit.toNat < 100 * w) :
    Gives (.fastPower w) s fun t => t.pwr.ceil.fast = some (s.pwr.ceil.point - 1) ∧ t.pwr.fastCount = satAdd s.pwr.fastCount 1 ∧
      t.pwr.ceil.point ≤ s.pwr.ceil.point - 1 ∧ t.pwr.alert.isSome = true ∧ t.mem = s.mem := by
  have run : exec (.fastPower w) s = .next (limiterActs (limitedTo s
      { s.pwr.ceil with peakW := max s.pwr.ceil.peakW w, fast := some (s.pwr.ceil.point - 1), lastFast := some s.nowNs }
      { s.pwr with fastCount := satAdd s.pwr.fastCount 1 })) := by
    show execFastPower w s = _
    dsimp only [execFastPower]
    rw [first, if_pos (by simp [on, high])]
    rfl
  obtain ⟨t, ht, ⟨d, p, x, y, a, low, pwr⟩, alert, mem⟩ :=
    limitedTo_acts run (q := s.pwr.ceil.point - 1) (by simp [hwCeils]) on free rfl rfl
  exact ⟨t, ht, by rw [pwr], by rw [pwr], by rw [pwr]; exact low, alert, mem⟩

theorem overcurrent_gives (off : s.pwr.ceil.overcurrent = false) : Gives .overcurrent s fun t =>
    t.pwr.ceil.overcurrent = true ∧ t.pwr.overCount = satAdd s.pwr.overCount 1 ∧ t.pwr.ceil.point = 0 ∧
      t.pwr.alert.isSome = true ∧ t.mem = s.mem := by
  have run : exec .overcurrent s = .next (limiterActs (limitedTo s { s.pwr.ceil with overcurrent := true, belowAmps := none }
      { s.pwr with overCount := satAdd s.pwr.overCount 1 })) := if_pos (by simp [on, off])
  obtain ⟨t, ht, ⟨d, p, x, y, a, low, pwr⟩, alert, mem⟩ :=
    limitedTo_acts run (q := 0) (by simp [hwCeils]) on free (by simp [limited]) rfl
  exact ⟨t, ht, by rw [pwr], by rw [pwr], by rw [pwr]; exact Nat.le_zero.mp low, alert, mem⟩

theorem hot_gives (off : s.pwr.ceil.hot = false) : Gives .hot s fun t =>
    t.pwr.ceil.hot = true ∧ t.pwr.hotCount = satAdd s.pwr.hotCount 1 ∧ t.pwr.ceil.point ≤ 2 ∧
      t.pwr.alert.isSome = true ∧ t.mem = s.mem := by
  have run : exec .hot s = .next (limiterActs (limitedTo s { s.pwr.ceil with hot := true }
      { s.pwr with hotCount := satAdd s.pwr.hotCount 1 })) := if_pos (by simp [on, off])
  obtain ⟨t, ht, ⟨d, p, x, y, a, low, pwr⟩, alert, mem⟩ :=
    limitedTo_acts run (q := 2) (by simp [hwCeils]) on free (by simp [limited]) rfl
  exact ⟨t, ht, by rw [pwr], by rw [pwr], by rw [pwr]; exact low, alert, mem⟩

theorem inputLow_gives (off : s.pwr.ceil.inputLow = false) : Gives .inputLow s fun t =>
    t.pwr.ceil.inputLow = true ∧ t.pwr.lowCount = satAdd s.pwr.lowCount 1 ∧ t.pwr.ceil.point = 0 ∧
      t.pwr.alert.isSome = true ∧ t.mem = s.mem := by
  have run : exec .inputLow s = .next (limiterActs (limitedTo s { s.pwr.ceil with inputLow := true }
      { s.pwr with lowCount := satAdd s.pwr.lowCount 1 })) := if_pos (by simp [on, off])
  obtain ⟨t, ht, ⟨d, p, x, y, a, low, pwr⟩, alert, mem⟩ :=
    limitedTo_acts run (q := 0) (by simp [hwCeils]) on free (by simp [limited]) rfl
  exact ⟨t, ht, by rw [pwr], by rw [pwr], by rw [pwr]; exact Nat.le_zero.mp low, alert, mem⟩

end Limiters

/-- Ceilings are changed and ALERT_N follows: what a release, and a tick of a loop, comes to. -/
theorem settled_withCeil (s : State) (f : CeilState → CeilState) : (∃ drive point change waiting alert,
    (settleAlert (withCeil s f)).pwr = { s.pwr with drive, ceil := { f s.pwr.ceil with point, change, waiting }, alert }) ∧
    (settleAlert (withCeil s f)).mem = s.mem := by
  obtain ⟨d, p, x, y, -, moved⟩ := withCeil_moves (s := s) f
  obtain ⟨a, settled⟩ := settleAlert_pwr (s := withCeil s f)
  exact ⟨⟨d, p, x, y, a, by rw [settled, moved]⟩, mem_eq (by simp)⟩

theorem hotRelease_gives (s : State) : Gives .hotRelease s fun t => t.pwr.ceil.hot = false ∧ t.mem = s.mem := by
  obtain ⟨⟨d, p, x, y, a, pwr⟩, mem⟩ := settled_withCeil s fun c => { c with hot := false }
  exact ⟨_, rfl, by rw [pwr], mem⟩

theorem inputLowRelease_gives (s : State) : Gives .inputLowRelease s fun t => t.pwr.ceil.inputLow = false ∧ t.mem = s.mem := by
  obtain ⟨⟨d, p, x, y, a, pwr⟩, mem⟩ := settled_withCeil s fun c => { c with inputLow := false }
  exact ⟨_, rfl, by rw [pwr], mem⟩

theorem limiterRelease_fast (run : loopsRun s = true) (taken : s.fw.loopsTaken = true)
    (below : lasted s s.pwr.ceil.belowLimit 4000000 = true) (active : s.pwr.ceil.fast.isSome = true) :
    Gives (.limiterRelease .fastPower) s fun t =>
      t.pwr.ceil.fast = none ∧ t.pwr.ceil.power = s.pwr.ceil.point ∧ t.mem = s.mem := by
  obtain ⟨⟨d, p, x, y, a, pwr⟩, mem⟩ := settled_withCeil s fun _ =>
    { s.pwr.ceil with power := s.pwr.ceil.point, lastPower := s.nowNs, fast := none }
  refine ⟨_, ?_, by rw [pwr], by rw [pwr], mem⟩
  show execLimiterRelease .fastPower s = _
  dsimp only [execLimiterRelease]
  rw [if_pos (by simp [run, taken, below]), if_pos active]

theorem limiterRelease_overcurrent (run : loopsRun s = true) (taken : s.fw.loopsTaken = true)
    (below : lasted s s.pwr.ceil.belowLimit 4000000 = true) (active : s.pwr.ceil.overcurrent = true)
    (amps : lasted s s.pwr.ceil.belowAmps 10000000 = true) : Gives (.limiterRelease .overcurrent) s fun t =>
      t.pwr.ceil.overcurrent = false ∧ t.pwr.ceil.power = s.pwr.ceil.point ∧ t.mem = s.mem := by
  obtain ⟨⟨d, p, x, y, a, pwr⟩, mem⟩ := settled_withCeil s fun _ =>
    { s.pwr.ceil with power := s.pwr.ceil.point, lastPower := s.nowNs, overcurrent := false }
  refine ⟨_, ?_, by rw [pwr], by rw [pwr], mem⟩
  show execLimiterRelease .overcurrent s = _
  dsimp only [execLimiterRelease]
  rw [if_pos (by simp [run, taken, below]), if_pos (by simp [active, amps])]

/-! ## The loops (R550, R551) -/

/-- The state with new samples. -/
def sampled (s : State) (x : Sensors) : State := { s with pwr := { s.pwr with sensors := x } }

theorem sample_of_on (on : computeOn s = true) (x : Sensors) : sample s x = sampled s x := by
  simp only [computeOn, Bool.and_eq_true, beq_iff_eq, decide_eq_true_eq] at on
  obtain ⟨⟨supply, -⟩, state⟩ := on
  have parked : s.pwr.state ≠ 4 := fun e => by rw [e] at state; exact absurd state (by decide)
  have closed : s.pwr.state ≠ 3 := fun e => by rw [e] at state; exact absurd state (by decide)
  have seen : senseAs s x = x := by rw [senseAs, if_neg (by simp [supply]), if_neg parked, if_neg closed]
  rw [sample, if_neg (by simp [supply]), seen, sampled]

theorem computeOn_of_loopsRun (run : loopsRun s = true) : computeOn s = true := by
  simp only [loopsRun, Bool.and_eq_true] at run
  exact run.2

theorem takeLoops_of_taken (taken : s.fw.loopsTaken = true) : takeLoops s = s := by rw [takeLoops, if_pos taken]

theorem powerLoopTick_gives (pIn pPkg v i : Nat) (rails : List Nat) (run : loopsRun s = true) (taken : s.fw.loopsTaken = true)
    (high : s.fw.powerLimit.toNat < pIn) : Gives (.powerLoopTick pIn pPkg v i rails) s fun t =>
      t.pwr.ceil.power = s.pwr.ceil.point - 1 ∧ t.pwr.sensors.pIn = pIn ∧ t.pwr.sensors.rails = rails ∧ t.mem = s.mem := by
  have on := computeOn_of_loopsRun run
  let x := sampled s { s.pwr.sensors with pIn, pPkg, inMv10 := v, inMa10 := i, rails }
  have run' : loopsRun x = true := run
  have taken' : takeLoops x = x := takeLoops_of_taken taken
  obtain ⟨⟨d, p, y, z, a, pwr⟩, mem⟩ := settled_withCeil x fun _ =>
    { s.pwr.ceil with
      belowLimit := since x s.pwr.ceil.belowLimit (decide (pIn < s.fw.powerLimit.toNat))
      belowAmps := since x s.pwr.ceil.belowAmps (decide (i < 10000)), power := s.pwr.ceil.point - 1, lastPower := s.nowNs }
  refine ⟨_, ?_, by rw [pwr], by rw [pwr]; rfl, by rw [pwr]; rfl, mem⟩
  show execPowerLoopTick pIn pPkg v i rails s = _
  dsimp only [execPowerLoopTick]
  rw [sample_of_on on]
  show (if loopsRun x = true then Host.Outcome.next _ else _) = _
  rw [if_pos run', taken']
  exact congrArg (fun c => Host.Outcome.next (settleAlert (withCeil x fun _ => c))) (if_pos high)

theorem lasted_since {old : Option Nat} {k : Nat} (h : lasted s old k = true) : lasted s (since s old true) k = true := by
  cases old with
  | none => exact absurd h (by simp [lasted])
  | some t => exact h

theorem thermalLoopTick_gives (cl io op di : List Nat) (run : loopsRun s = true) (taken : s.fw.loopsTaken = true)
    (hot : (thermalTarget s.fw.thermalProfile.toNat).1 < ((cl ++ io).filter (· != 0xFF)).foldl max 0)
    (long : lasted s s.pwr.ceil.aboveTarget 10000000 = true) (due : s.pwr.ceil.lastDown + 10000000 ≤ s.nowNs) :
    Gives (.thermalLoopTick cl io op di) s fun t =>
      t.pwr.ceil.thermal = s.pwr.ceil.thermal - 1 ∧ t.pwr.sensors.clusters = cl ∧ t.pwr.sensors.dimms = di ∧ t.mem = s.mem := by
  have on := computeOn_of_loopsRun run
  let x := sampled s { s.pwr.sensors with clusters := cl, io, optics := op, dimms := di }
  have run' : loopsRun x = true := run
  have taken' : takeLoops x = x := takeLoops_of_taken taken
  have hot' : decide ((thermalTarget x.fw.thermalProfile.toNat).1 < tmaxOf x.pwr.sensors) = true := decide_eq_true hot
  have steps : (lasted x (since x s.pwr.ceil.aboveTarget true) 10000000 &&
      decide (s.pwr.ceil.lastDown + 10000000 ≤ s.nowNs)) = true := by
    simp only [Bool.and_eq_true, decide_eq_true_eq]
    exact ⟨lasted_since long, due⟩
  obtain ⟨⟨d, p, y, z, a, pwr⟩, mem⟩ := settled_withCeil x fun _ =>
    { s.pwr.ceil with
      aboveTarget := since x s.pwr.ceil.aboveTarget true
      belowRelease := since x s.pwr.ceil.belowRelease (decide (tmaxOf x.pwr.sensors < (thermalTarget s.fw.thermalProfile.toNat).2))
      thermal := s.pwr.ceil.thermal - 1, lastDown := s.nowNs }
  refine ⟨_, ?_, by rw [pwr], by rw [pwr]; rfl, by rw [pwr]; rfl, mem⟩
  show execThermalLoopTick cl io op di s = _
  dsimp only [execThermalLoopTick]
  rw [sample_of_on on]
  show (if loopsRun x = true then Host.Outcome.next _ else _) = _
  rw [if_pos run', taken']
  refine congrArg (fun c => Host.Outcome.next (settleAlert (withCeil x fun _ => c))) ?_
  rw [show decide ((thermalTarget x.fw.thermalProfile.toNat).1 < tmaxOf x.pwr.sensors) = true from hot']
  exact if_pos steps

/-! ## Shuttered (R556) -/

theorem clusterGate_gives (sound : Sound s) (c : ClusterId) (shuttered : s.pwr.state = 2) (idle : clusterIdle s c.toNat = true)
    (long : smGet 0 s.pwr.lastUse c.toNat + idleNs s ≤ s.nowNs) : Gives (.clusterGate c) s fun t =>
      driveOf t c.toNat = .retention ∧ t.mem = s.mem := by
  refine ⟨_, if_pos ⟨shuttered, idle, long⟩, ?_, rfl⟩
  rw [driveOf]
  exact if_pos (get_set_self sound.gated)

theorem clusterWake_gives (sound : Sound s) (c : ClusterId) : Gives (.clusterWake c) s fun t =>
    driveOf t c.toNat = s.pwr.drive ∧ t.mem = s.mem := by
  refine ⟨_, rfl, ?_, rfl⟩
  have off : smGet false (touchCluster s c.toNat).pwr.gated c.toNat = false := get_set_self sound.gated
  rw [driveOf, off]
  rfl

/-! ## Optical engines (R552) -/

theorem enterPort_setup (s : State) (p : Nat) (st : BitVec 3) (hk : keysRise s.fab.ports = true) :
    keysRise (enterPort s p st).fab.ports = true ∧ (getFab (enterPort s p st) p).hot = (getFab s p).hot ∧
      (getFab (enterPort s p st) p).st = st := by
  rw [getFab_enterPort_self hk]
  exact ⟨keysRise_smSet hk, rfl, rfl⟩

theorem flushQueue_sends (s : State) (p : Nat) (l : List OutPkt) : Sends s (flushQueue s p l) := by
  induction l with
  | nil => exact setFab_sends rfl
  | cons o os ih => exact ih.trans (losePkt_sends countNoRoute_sends ..)

theorem forgetSource_port (s : State) (p q : Nat) : (getFab (forgetSource s p) q).hot = (getFab s q).hot := by
  rw [getFab, getFab, forgetSource]
  induction s.fab.ports with
  | nil => rfl
  | cons x m ih =>
    simp only [List.map_cons, smGet]
    split
    · rfl
    · exact ih

theorem hot_of_setup {x y : FabPortState} (h : portSetup x = portSetup y) : x.hot = y.hot ∧ x.st = y.st :=
  ⟨show (portSetup x).hot = (portSetup y).hot by rw [h], show (portSetup x).st = (portSetup y).st by rw [h]⟩

/-- A disabled port is in DISABLED, as hot as it was. -/
theorem disablePort_disabled (p : Nat) (hk : keysRise s.fab.ports = true) : keysRise (disablePort s p).fab.ports = true ∧
    (getFab (disablePort s p) p).hot = (getFab s p).hot ∧ (getFab (disablePort s p) p).st = 0 := by
  rw [disablePort]
  split
  · next h => exact ⟨hk, rfl, h⟩
  · split
    · have rises : keysRise (forgetSource s p).fab.ports = true := keysRise_map _ hk
      obtain ⟨k, hot, st⟩ := enterPort_setup (setFab (forgetSource s p) p _) p 0 (keysRise_smSet rises)
      obtain ⟨k', setup⟩ := (flushQueue_sends (enterPort (setFab (forgetSource s p) p _) p 0) p
        (getFab (forgetSource s p) p).queue).ports k
      rw [getFab_setFab_self _ rises] at hot
      obtain ⟨hot', st'⟩ := hot_of_setup (setup p)
      exact ⟨k', (hot'.trans hot).trans (forgetSource_port s p p), st'.trans st⟩
    · exact enterPort_setup s p 0 hk

/-- The setup of the ports is watched. -/
def portWatch (s : State) : Watch :=
  { ports := fun p => portSetup (getFab s p), quiet := false, coll := 0, landed := [], shut := false, met := fun _ _ => True, ops := [] }

/-- However the fabric settles, every port keeps its setup. -/
theorem settleFab_ports (hk : keysRise s.fab.ports = true) (p : Nat) : portSetup (getFab (settleFab s) p) = portSetup (getFab s p) := by
  have loud : (portWatch s).quiet = false := rfl
  have now : Holds (portWatch s) s :=
    ⟨⟨hk, fun _ => rfl⟩, collsKept_of_loud loud _, fun q => absurd q (by simp [loud]), opsKept_of_loud loud _⟩
  exact ((settleFab_watched s).mpr (.inl now)).ports.2 p

theorem settled_port (hk : keysRise s.fab.ports = true) (st : Status) (i j : Nat) (p : Nat) :
    (getFab (raiseEvent (settleFab s) st i j) p).hot = (getFab s p).hot ∧
      (getFab (raiseEvent (settleFab s) st i j) p).st = (getFab s p).st := by
  rw [show getFab (raiseEvent (settleFab s) st i j) p = getFab (settleFab s) p by rw [getFab, raiseEvent_fab, getFab]]
  exact hot_of_setup (settleFab_ports hk p)

theorem opticsHot_gives (sound : Sound s) (on : computeOn s = true) (p : FabPort) (cold : (getFab s p.toNat).hot = false) :
    Gives (.opticsHot p) s fun t => (getFab t p.toNat).hot = true ∧ (getFab t p.toNat).st = 0 := by
  simp only [computeOn, Bool.and_eq_true, beq_iff_eq] at on
  obtain ⟨⟨supply, -⟩, -⟩ := on
  obtain ⟨rises, hot, st⟩ := disablePort_disabled (s := setFab s p.toNat { getFab s p.toNat with hot := true }) p.toNat
    (keysRise_smSet sound.ports)
  rw [getFab_setFab_self _ sound.ports] at hot
  obtain ⟨hot', st'⟩ := settled_port rises .opticsHot 4 p.toNat p.toNat
  exact ⟨_, if_pos ⟨supply, cold⟩, hot'.trans hot, st'.trans st⟩

theorem opticsHotRelease_gives (sound : Sound s) (p : FabPort) (hot : (getFab s p.toNat).hot = true)
    (off : (getFab s p.toNat).st = 0) : Gives (.opticsHotRelease p) s fun t =>
      (getFab t p.toNat).hot = false ∧ t.mem = s.mem ∧
      (cfgEn (getFab s p.toNat).cfg = true → pairJoined s p.toNat = false → s.pwr.state < 3 → (getFab t p.toNat).st = 1) ∧
      (3 ≤ s.pwr.state → (getFab t p.toNat).st = 0) := by
  refine ⟨_, if_pos hot, ?_⟩
  have rises : keysRise (setFab s p.toNat { getFab s p.toNat with hot := false }).fab.ports = true := keysRise_smSet sound.ports
  obtain ⟨mem, -, -, -, ports, -⟩ := wakePort_keeps rises p.toNat
  obtain ⟨-, cool⟩ := ports p.toNat
  have st := wakePort_st rises p.toNat p.toNat
  rw [getFab_setFab_self _ sound.ports] at cool st
  refine ⟨cool, mem, fun en free low => ?_, fun closed => ?_⟩
  · rw [st, if_pos ⟨rfl, off, en, free, rfl, low⟩]
  · rw [st, if_neg fun h => absurd h.2.2.2.2.2 (BitVec.not_lt.mpr closed)]
    exact off

end Sys2Proof.Laws
end

section
/-! PROOFS. A tick, core by core (O33). -/

namespace Sys2Proof.Laws

open Sys2Proof Sys2Proof.Machine
set_option Elab.async false

variable {s t u : State} {n : Nat}

/-! ## Ticks (R27, R46, R153) -/

theorem keys_nodup {α : Type} {m : List (Nat × α)} (h : keysRise m = true) : (m.map (·.1)).Nodup := by
  induction m with
  | nil => exact List.nodup_nil
  | cons p m ih =>
    obtain ⟨above, rises⟩ := keysRise_cons.mp h
    refine List.nodup_cons.mpr ⟨fun hp => ?_, ih rises⟩
    obtain ⟨q, hq, e⟩ := List.mem_map.mp hp
    have less := above q hq
    dsimp only at e
    omega

theorem smGet_of_no_key {α : Type} {d : α} {m : List (Nat × α)} {k : Nat} (h : k ∉ m.map (·.1)) : smGet d m k = d := by
  induction m with
  | nil => rfl
  | cons p m ih =>
    obtain ⟨ne, none⟩ := not_or.mp (List.mem_cons.not.mp h)
    rw [smGet, if_neg (Ne.symm ne)]
    exact ih none

/-- An LPA op after a tick on a core whose cluster is gated, or is not. -/
def tickedRun (gated : Bool) (r : LpaRun) : LpaRun := { r with idle := r.idle + if gated then 0 else idleArrays r }

/-- A core after a tick: its tokens and its Plate Queue are the same, and the idle ticks of its arrays have been counted. -/
structure TickedCore (gated : Bool) (c d : Core) : Prop where
  tokens : d.tokens = c.tokens
  pq : d.pq = c.pq
  lpa : d.lpa = c.lpa.map (tickedRun gated)

theorem tickedCore_gated (c : Core) : TickedCore true c c :=
  ⟨rfl, rfl, by rw [show tickedRun true = id from rfl, Option.map_id, id]⟩

/-- A tick at one core. -/
def tickAt (s : State) (n : Nat) : State := if smGet false s.pwr.gated (n / 64) then s else tickCore s n

theorem tickAt_pwr (s : State) (n : Nat) : (tickAt s n).pwr = s.pwr := pwr_eq (by simp [tickAt, rest_ite])

theorem tickAt_rises (hk : keysRise s.cores = true) (n : Nat) : keysRise (tickAt s n).cores = true := by
  rw [tickAt]
  split
  · exact hk
  · exact keysRise_smSet hk

theorem tickAt_other (hk : keysRise s.cores = true) {i : Nat} (h : i ≠ n) : getCore (tickAt s n) i = getCore s i := by
  rw [tickAt]
  split
  · rfl
  · exact getCore_setCore_other hk h

theorem tickAt_self (hk : keysRise s.cores = true) (n : Nat) :
    TickedCore (smGet false s.pwr.gated (n / 64)) (getCore s n) (getCore (tickAt s n) n) := by
  rw [tickAt]
  cases gated : smGet false s.pwr.gated (n / 64) with
  | true => exact tickedCore_gated _
  | false =>
    rw [if_neg (by simp), tickCore, getCore_setCore_self hk]
    exact ⟨rfl, rfl, rfl⟩

theorem tickAll_cores (l : List Nat) (one : l.Nodup) : ∀ (s : State), keysRise s.cores = true →
    (l.foldl tickAt s).pwr = s.pwr ∧ ∀ n,
      (n ∈ l → TickedCore (smGet false s.pwr.gated (n / 64)) (getCore s n) (getCore (l.foldl tickAt s) n)) ∧
      (n ∉ l → getCore (l.foldl tickAt s) n = getCore s n) := by
  induction l with
  | nil => exact fun s _ => ⟨rfl, fun n => ⟨fun h => absurd h (by simp), fun _ => rfl⟩⟩
  | cons m l ih =>
    intro s hk
    obtain ⟨out, one⟩ := List.nodup_cons.mp one
    obtain ⟨pwr, cores⟩ := ih one (tickAt s m) (tickAt_rises hk m)
    rw [tickAt_pwr] at pwr cores
    refine ⟨pwr, fun n => ⟨fun h => ?_, fun h => ?_⟩⟩
    · by_cases e : n = m
      · subst e
        rw [List.foldl_cons, (cores n).2 out]
        exact tickAt_self hk n
      · have here := (cores n).1 ((List.mem_cons.mp h).resolve_left e)
        rwa [tickAt_other hk e] at here
    · obtain ⟨ne, none⟩ := not_or.mp (List.mem_cons.not.mp h)
      rw [List.foldl_cons, (cores n).2 none, tickAt_other hk ne]

/-- The state of a tick before its cores: its slips are counted and noted. -/
def slipped (s : State) (slips : List (Nat × Nat)) : State :=
  noteSlips { s with cr := { s.cr with slips := satAdd s.cr.slips (slips.foldl (fun m p => m + p.2) 0) } } slips

theorem cadenceTick_gives (sound : Sound s) (slips : List (Nat × Nat)) (on : computeOn s = true) (started : 7 ≤ s.rst.step) :
    Gives (.cadenceTick slips) s fun t =>
      t.cr.slips = satAdd s.cr.slips ((slips.map (·.2)).sum) ∧ t.mem = s.mem ∧
      t.pwr = { s.pwr with ticks := s.pwr.ticks + 1, slipWin := t.pwr.slipWin } ∧
      (∀ p ∈ slips, 0 < p.2 → (s.pwr.ticks + 1, p.1, p.2) ∈ t.pwr.slipWin) ∧
      ∀ n, (getCore t n).tokens = (getCore s n).tokens ∧ (getCore t n).pq = (getCore s n).pq ∧
        (getCore t n).lpa = (getCore s n).lpa.map (tickedRun (smGet false s.pwr.gated (n / 64))) := by
  have run : exec (.cadenceTick slips) s = .next ((s.cores.map (·.1)).foldl tickAt (slipped s slips)) :=
    if_pos (by simp [on, started])
  obtain ⟨pwr, cores⟩ := tickAll_cores (s.cores.map (·.1)) (keys_nodup sound.cores) (slipped s slips) sound.cores
  have cr : ((s.cores.map (·.1)).foldl tickAt (slipped s slips)).cr = (slipped s slips).cr :=
    foldl_keeps (g := State.cr) (fun x n => cr_eq (by simp [tickAt, rest_ite])) ..
  have mem : ((s.cores.map (·.1)).foldl tickAt (slipped s slips)).mem = (slipped s slips).mem :=
    foldl_keeps (g := State.mem) (fun x n => mem_eq (by simp [tickAt, rest_ite])) ..
  have sum : slips.foldl (fun m p => m + p.2) 0 = (slips.map (·.2)).sum := by
    rw [List.sum_eq_foldl, List.foldl_map]
  refine ⟨_, run, ?_, mem, ?_, ?_, fun n => ?_⟩
  · rw [cr, ← sum]
    rfl
  · rw [pwr]
    rfl
  · intro p hp pos
    rw [pwr]
    exact List.mem_append_right _ (List.mem_map.mpr ⟨p, List.mem_filter.mpr ⟨hp, decide_eq_true pos⟩, rfl⟩)
  · by_cases h : n ∈ s.cores.map (·.1)
    · obtain ⟨tokens, pq, lpa⟩ := (cores n).1 h
      exact ⟨tokens, pq, lpa⟩
    · have idle : getCore s n = Core.idle := smGet_of_no_key h
      rw [(cores n).2 h, show getCore (slipped s slips) n = getCore s n from rfl, idle]
      exact ⟨rfl, rfl, rfl⟩

/-- Settles O33: each limiter under its ceiling, the loops, a tick core by core, gated clusters, and an optical engine whose port keeps
its setup however the fabric settles. -/
theorem limitersAndLoops : Obligations.LimitersAndLoops := by
  unfold Obligations.LimitersAndLoops
  refine ⟨fun s sound on free => ⟨fun w => fastPower_gives on free, overcurrent_gives on free, hot_gives on free,
    inputLow_gives on free, hotRelease_gives s, inputLowRelease_gives s, fun run taken below =>
      ⟨limiterRelease_fast run taken below, limiterRelease_overcurrent run taken below⟩,
    fun p => opticsHot_gives sound on p, fun p => opticsHotRelease_gives sound p⟩, fun s sound => ⟨?_, ?_, ?_, ?_, ?_⟩⟩
  · exact fun pIn pPkg v i rails => powerLoopTick_gives pIn pPkg v i rails
  · exact fun cl io op di => thermalLoopTick_gives cl io op di
  · exact cadenceTick_gives sound
  · exact clusterGate_gives sound
  · exact clusterWake_gives sound

end Sys2Proof.Laws
end

section
/-! PROOFS. Packets of an op on their way, and a fabric at rest with them. -/

namespace Sys2Proof.Laws

open Sys2Proof Sys2Proof.Machine
set_option Elab.async false

variable {s t u : State} {p q n fi : Nat} {w : FabOwner}

/-! ## A fabric at rest while packets wait

While packets of an op wait for credits or a tag the op is busy, and there is nothing to be done at once. -/

/-- What waits at an FI waits for a tag, every op but an AWAIT is busy, and nothing else is left to be done. -/
structure FabResting (s : State) : Prop where
  loop : ∀ l ∈ s.fab.loop, tagReady s l = false
  held : s.fab.held = []
  windowSet : s.hif.wtWait = none
  ops : ∀ o ∈ s.fab.ops, byteAt o.desc 0 = 0x42 ∨ fabBusy s o.owner = true
  fired : s.coll.firedOps = []
  colls : ∀ c ∈ s.coll.colls, c.closed = false

theorem runLoop_of_waiting (h : ∀ l ∈ s.fab.loop, tagReady s l = false) (k : Nat) : runLoop k s = s := by
  cases k with
  | zero => rfl
  | succ k =>
    have none : s.fab.loop.findIdx? (tagReady s) = none := List.findIdx?_eq_none_iff.mpr h
    simp only [runLoop, none]

theorem moveOn_of_resting (h : FabResting s) (k : Nat) : moveOn k s = s := by
  cases k with
  | zero => rfl
  | succ k => simp only [moveOn, runLoop_of_waiting h.loop, h.held, List.findIdx?_nil]

theorem settleOps_of_resting (h : FabResting s) : settleOps s = s := by
  refine List.foldlRecOn (motive := fun x => x = s) _ _ rfl ?_
  rintro x rfl o ho
  obtain ⟨hmem, hop⟩ := List.mem_filter.mp ho
  rw [if_pos ((h.ops o hmem).resolve_left fun e => by simp [e] at hop)]

theorem settleFab_of_resting (h : FabResting s) : settleFab s = s := by
  simp only [settleFab, moveOn_of_resting h, settleOps_of_resting h, settleTurns_of_quiet h.windowSet h.fired h.colls]

/-! ## Packets of an op are put on their way -/

/-- What sending leaves of the fabric: the ops, what waits in input buffers and at the FIs, and every tag that was taken. -/
structure OnWay (s t : State) : Prop where
  ops : t.fab.ops = s.fab.ops
  held : t.fab.held = s.fab.held
  loop : t.fab.loop = s.fab.loop
  tags : ∀ g ∈ s.fab.tags, g ∈ t.fab.tags

theorem OnWay.refl (s : State) : OnWay s s := ⟨rfl, rfl, rfl, fun _ h => h⟩

theorem OnWay.trans (h : OnWay s t) (k : OnWay t u) : OnWay s u :=
  ⟨k.ops.trans h.ops, k.held.trans h.held, k.loop.trans h.loop, fun g hg => k.tags g (h.tags g hg)⟩

theorem onWay_setFab (s : State) (p : Nat) (x : FabPortState) : OnWay s (setFab s p x) := ⟨rfl, rfl, rfl, fun _ h => h⟩

theorem onWay_takeTag (s : State) (fi tag part limitNs : Nat) (w : FabOwner) : OnWay s (takeTag s fi tag part limitNs w) :=
  ⟨rfl, rfl, rfl, fun _ hg => List.mem_append_left _ hg⟩

theorem onWay_of_toDo (h : toDo t = toDo s) : OnWay s t := by
  simp only [toDo, Prod.mk.injEq] at h
  obtain ⟨-, -, loop, held, -, ops, tags, -⟩ := h
  exact ⟨ops, held, loop, fun g hg => by rw [tags]; exact hg⟩

theorem onWay_trySend {o : OutPkt} (h : trySend s p o = some t) : OnWay s t := by
  rw [trySend] at h
  split at h
  · split at h
    · split at h
      · cases h
      · exact Option.some.inj h ▸ (onWay_takeTag ..).trans (onWay_of_toDo (toDo_putOnLink ..))
    · exact Option.some.inj h ▸ onWay_of_toDo (toDo_putOnLink ..)
  · cases h

theorem onWay_drainList (p : Nat) (os : List OutPkt) (blocked : List Nat) (s : State) (kept : List OutPkt) :
    OnWay s (drainList p os blocked s kept).1 := by
  induction os generalizing blocked s kept with
  | nil => exact .refl s
  | cons o os ih =>
    rw [drainList]
    split
    · exact ih ..
    · split
      next h => exact (onWay_trySend h).trans (ih ..)
      next => exact ih ..

theorem onWay_drainPort (s : State) (p : Nat) : OnWay s (drainPort s p) := by
  rw [drainPort]
  split
  · exact (onWay_drainList ..).trans (onWay_setFab ..)
  · exact .refl s

theorem onWay_sendOut (s : State) (p : Nat) (o : OutPkt) : OnWay s (sendOut s p o) :=
  (onWay_setFab ..).trans (onWay_drainPort ..)

/-! ### An op with a packet on its way is busy -/

/-- The op holds a tag. -/
def HoldsTag (s : State) (w : FabOwner) : Prop := ∃ g ∈ s.fab.tags, g.owner = w

theorem HoldsTag.later (h : HoldsTag s w) (k : OnWay s t) : HoldsTag t w := by
  obtain ⟨g, hg, own⟩ := h
  exact ⟨g, k.tags g hg, own⟩

theorem HoldsTag.busy (h : HoldsTag s w) : fabBusy s w = true := by
  obtain ⟨g, hg, own⟩ := h
  simp only [fabBusy, Bool.or_eq_true, List.any_eq_true, beq_iff_eq]
  exact .inl (.inl ⟨g, hg, own⟩)

theorem holdsTag_takeTag (s : State) (fi tag part limitNs : Nat) (w : FabOwner) : HoldsTag (takeTag s fi tag part limitNs w) w :=
  ⟨_, List.mem_append_right _ List.mem_cons_self, rfl⟩

/-- A packet that needs a tag has one once it has left. -/
theorem holdsTag_trySend {o : OutPkt} (h : trySend s p o = some t) (own : o.owner = some w) (part : o.part.isSome = true) :
    HoldsTag t w := by
  obtain ⟨k, hk⟩ := Option.isSome_iff_exists.mp part
  rw [trySend, hk, own] at h
  split at h
  · dsimp only at h
    split at h
    · cases h
    next tag _ => exact Option.some.inj h ▸ (holdsTag_takeTag s p tag k o.limitNs w).later (onWay_of_toDo (toDo_putOnLink ..))
  · cases h

/-- A packet that is not sent stays in its queue. -/
theorem mem_drainList_kept (p : Nat) (os : List OutPkt) (blocked : List Nat) (s : State) (kept : List OutPkt) :
    ∀ o ∈ kept, o ∈ (drainList p os blocked s kept).2 := by
  induction os generalizing blocked s kept with
  | nil => exact fun _ h => h
  | cons x os ih =>
    rw [drainList]
    intro o ho
    split
    · exact ih _ _ _ o (List.mem_append_left _ ho)
    · split
      · exact ih _ _ _ o ho
      · exact ih _ _ _ o (List.mem_append_left _ ho)

/-- A packet that needs a tag holds one or stays in its queue. -/
theorem drainList_busy (p : Nat) (os : List OutPkt) (blocked : List Nat) (s : State) (kept : List OutPkt) {o : OutPkt}
    (ho : o ∈ os) (own : o.owner = some w) (part : o.part.isSome = true) :
    HoldsTag (drainList p os blocked s kept).1 w ∨ o ∈ (drainList p os blocked s kept).2 := by
  induction os generalizing blocked s kept with
  | nil => cases ho
  | cons x os ih =>
    rw [drainList]
    rcases List.mem_cons.mp ho with rfl | later
    · split
      · exact .inr (mem_drainList_kept _ _ _ _ _ o (List.mem_append_right _ List.mem_cons_self))
      · split
        next left => exact .inl ((holdsTag_trySend left own part).later (onWay_drainList ..))
        next => exact .inr (mem_drainList_kept _ _ _ _ _ o (List.mem_append_right _ List.mem_cons_self))
    · split
      · exact ih _ _ _ later
      · split
        · exact ih _ _ _ later
        · exact ih _ _ _ later

theorem mem_of_smGet_ne {α : Type} {d : α} {m : List (Nat × α)} {k : Nat} (h : smGet d m k ≠ d) : (k, smGet d m k) ∈ m := by
  induction m with
  | nil => exact absurd rfl h
  | cons x m ih =>
    obtain ⟨j, v⟩ := x
    by_cases eq : j = k
    · subst eq
      simp [smGet]
    · simp only [smGet, if_neg eq] at h ⊢
      exact List.mem_cons_of_mem _ (ih h)

theorem busy_of_queue {o : OutPkt} (ho : o ∈ (getFab s p).queue) (own : o.owner = some w) : fabBusy s w = true := by
  have port : (p, getFab s p) ∈ s.fab.ports := mem_of_smGet_ne fun e => by
    rw [getFab, e] at ho
    cases ho
  simp only [fabBusy, Bool.or_eq_true, List.any_eq_true, beq_iff_eq]
  exact .inl (.inr ⟨_, port, o, ho, own⟩)

theorem getFab_setFab_queue (s : State) (p : Nat) {x : FabPortState} (h : x.queue ≠ []) : getFab (setFab s p x) p = x :=
  smGet_smSet_ne (fun e => h (by rw [e]; rfl)) _ _

theorem sendOut_busy (s : State) (p : Nat) {o : OutPkt} (own : o.owner = some w) (part : o.part.isSome = true) :
    fabBusy (sendOut s p o) w = true := by
  have joined : getFab (setFab s p { getFab s p with queue := (getFab s p).queue ++ [o] }) p =
      { getFab s p with queue := (getFab s p).queue ++ [o] } := getFab_setFab_queue s p (by simp)
  rw [sendOut, drainPort]
  split
  · rw [joined]
    rcases drainList_busy p _ [] _ [] (List.mem_append_right (getFab s p).queue List.mem_cons_self) own part with tag | kept
    · exact (tag.later (onWay_setFab ..)).busy
    · refine busy_of_queue (p := p) (o := o) ?_ own
      rw [getFab_setFab_queue _ _ (List.ne_nil_of_mem kept)]
      exact kept
  · exact busy_of_queue (p := p) (o := o) (by rw [joined]; exact List.mem_append_right _ List.mem_cons_self) own

/-! ### The packets of an op to another module -/

/-- The way to a node leads out through a port. -/
def HasWay (s : State) (dst : Nat) : Prop := ∃ p x, routeOf s dst = some p ∧ hopOf s none p false false = some x

theorem hasWay_of_sends (h : Sends s t) (hk : keysRise s.fab.ports = true) (dst : Nat) : HasWay t dst ↔ HasWay s dst := by
  simp only [HasWay, routeOf_of_sends h hk, hopOf_of_sends h hk]

/-- A packet to another node joins a port or is lost. -/
theorem injectPkt_ways {dst : Nat} (far : localNode s dst = false) (fi cls : Nat) (bytes : Bytes) (k limitNs : Nat) (w : FabOwner) :
    (HasWay s dst ∧ ∃ p o, o.owner = some w ∧ o.part = some k ∧
      injectPkt s fi dst cls bytes (some k) limitNs (some w) = sendOut s p o) ∨
    (¬HasWay s dst ∧ ∃ count, (count = countNoRoute ∨ count = countRouteErr) ∧
      injectPkt s fi dst cls bytes (some k) limitNs (some w) =
        losePkt count s { fi, bytes, part := some k, limitNs, owner := some w, src := none }) := by
  simp only [injectPkt, far, Bool.false_eq_true, if_false, routePkt]
  cases route : routeOf s dst with
  | none => exact .inr ⟨fun ⟨_, _, h, _⟩ => by simp [route] at h, countNoRoute, .inl rfl, rfl⟩
  | some p =>
    cases hop : hopOf s none p false false with
    | none =>
      refine .inr ⟨fun ⟨q, _, h, h'⟩ => ?_, countRouteErr, .inr rfl, by dsimp only; rw [hop]⟩
      rw [route] at h
      rw [← Option.some.inj h, hop] at h'
      cases h'
    | some d => exact .inl ⟨⟨p, d, route, hop⟩, p, _, rfl, rfl, by dsimp only; rw [hop]⟩

/-- Packets of an op to a node have been put on their way by one FI, where no packet waits that has a way out. -/
structure Going (fi dst : Nat) (s t : State) : Prop where
  sends : Sends s t
  ops : t.fab.ops = s.fab.ops
  held : t.fab.held = s.fab.held
  tags : ∀ g ∈ s.fab.tags, g ∈ t.fab.tags
  loop : ∀ l ∈ t.fab.loop, tagReady t l = false ∧ l.fi = fi ∧ ¬HasWay s dst

theorem going_refl (fi dst : Nat) (none : s.fab.loop = []) : Going fi dst s s :=
  ⟨.refl s, rfl, rfl, fun _ h => h, by simp [none]⟩

theorem Going.onWay {dst : Nat} (h : Going fi dst s t) (way : HasWay s dst) (k : OnWay t u) (sends : Sends t u) : Going fi dst s u := by
  refine ⟨h.sends.trans sends, k.ops.trans h.ops, k.held.trans h.held, fun g hg => k.tags g (h.tags g hg), fun l hl => ?_⟩
  rw [k.loop] at hl
  exact absurd way (h.loop l hl).2.2

/-- What waits for a tag has none. -/
theorem freeTag_of_waiting {l : LoopPkt} (h : tagReady s l = false) : freeTag s l.fi = none := by
  simp only [tagReady, Bool.or_eq_false_iff, Option.isSome_eq_false_iff, Option.isNone_iff_eq_none] at h
  exact h.2

/-- A packet without a way takes a tag of its FI or waits there for one. -/
theorem Going.losePkt {dst k limitNs : Nat} {bytes : Bytes} {count : State → State} (h : Going fi dst s t) (no : ¬HasWay s dst)
    (hc : count = countNoRoute ∨ count = countRouteErr) :
    let u := Machine.losePkt count t { fi, bytes, part := some k, limitNs, owner := some w, src := none }
    Going fi dst s u ∧ fabBusy u w = true := by
  have counted (x : State) : Sends x (count x) ∧ toDo (count x) = toDo x := by
    rcases hc with rfl | rfl
    · exact ⟨countNoRoute_sends x, rfl⟩
    · exact ⟨countRouteErr_sends x, rfl⟩
  dsimp only [Machine.losePkt]
  split
  next tagless =>
    refine ⟨⟨h.sends.trans (waitAtFi_sends ..), h.ops, h.held, h.tags, fun l hl => ?_⟩, ?_⟩
    · rcases List.mem_append.mp hl with old | new
      · exact h.loop l old
      · rw [List.mem_singleton.mp new]
        have none : freeTag (waitAtFi t { fi, bytes, part := some k, limitNs, owner := some w, src := none }) fi = none := tagless
        exact ⟨by simp [tagReady, none], rfl, no⟩
    · simp only [fabBusy, Bool.or_eq_true, List.any_eq_true, beq_iff_eq]
      exact .inr ⟨_, List.mem_append_right _ List.mem_cons_self, rfl⟩
  next tag found =>
    have none : t.fab.loop = [] := by
      rw [List.eq_nil_iff_forall_not_mem]
      intro l hl
      obtain ⟨waits, here, -⟩ := h.loop l hl
      have tagless := freeTag_of_waiting waits
      rw [here, found] at tagless
      cases tagless
    have way : OnWay t (count (takeTag t fi tag k limitNs w)) := (onWay_takeTag ..).trans (onWay_of_toDo (counted _).2)
    exact ⟨⟨h.sends.trans ((takeTag_sends ..).trans (counted _).1), way.ops.trans h.ops, way.held.trans h.held,
      fun g hg => way.tags g (h.tags g hg), fun l (hl : l ∈ (count (takeTag t fi tag k limitNs w)).fab.loop) => by
        rw [way.loop, none] at hl
        cases hl⟩,
      ((holdsTag_takeTag t fi tag k limitNs w).later (onWay_of_toDo (counted _).2)).busy⟩

theorem Going.injectPkt {dst : Nat} (h : Going fi dst s t) (hk : keysRise s.fab.ports = true) (far : localNode s dst = false)
    (cls : Nat) (bytes : Bytes) (k limitNs : Nat) (w : FabOwner) :
    let u := Machine.injectPkt t fi dst cls bytes (some k) limitNs (some w)
    Going fi dst s u ∧ fabBusy u w = true := by
  have far' : localNode t dst = false := (localNode_of_sends h.sends dst).trans far
  obtain ⟨way, p, o, own, part, goes⟩ | ⟨no, count, hc, goes⟩ := injectPkt_ways far' fi cls bytes k limitNs w
  · rw [goes]
    exact ⟨h.onWay ((hasWay_of_sends h.sends hk dst).mp way) (onWay_sendOut ..) (sendOut_sends ..),
      sendOut_busy t p own (by rw [part]; rfl)⟩
  · rw [goes]
    exact h.losePkt (fun way => no ((hasWay_of_sends h.sends hk dst).mpr way)) hc

/-- What holds of every step's result holds of a fold's over a list that is not empty. -/
theorem foldl_last {α β : Type} {f : β → α → β} {I B : β → Prop} (h : ∀ x a, I x → I (f x a) ∧ B (f x a)) {l : List α} (hl : l ≠ [])
    {x : β} (hx : I x) : I (l.foldl f x) ∧ B (l.foldl f x) := by
  obtain ⟨init, last, rfl⟩ := l.eq_nil_or_concat.resolve_left hl
  rw [List.concat_eq_append, List.foldl_append]
  exact h _ last (List.foldlRecOn (motive := I) init f hx fun y hy a _ => (h y a hy).1)

/-- With the packets of one op on their way, the fabric rests. -/
theorem resting_of_going {dst : Nat} {o : FabOp} (h : Going fi dst s t) (busy : fabBusy t o.owner = true) (idle : FabDone u)
    (still : u.fab.held = []) (noted : s.fab = { u.fab with ops := u.fab.ops ++ [o] }) (set : t.hif.wtWait = u.hif.wtWait)
    (coll : t.coll = u.coll) : FabResting t where
  loop := fun l hl => (h.loop l hl).1
  held := by rw [h.held, noted]; exact still
  windowSet := set.trans idle.windowSet
  ops := fun x hx => by
    rw [h.ops, noted] at hx
    rcases List.mem_append.mp hx with old | new
    · refine (idle.ops x old).imp_right fun ⟨g, hg, own⟩ => HoldsTag.busy ⟨g, h.tags g ?_, own⟩
      rw [noted]
      exact hg
    · rw [List.mem_singleton.mp new]
      exact .inr busy
  fired := by rw [coll]; exact idle.fired
  colls := by rw [coll]; exact idle.colls

end Sys2Proof.Laws
end

section
/-! PROOFS. Ends of ops, phases and collectives begin no fabric op. -/

namespace Sys2Proof.Laws

open Sys2Proof Sys2Proof.Machine
set_option Elab.async false

variable {L : List FabOp} {s t : State}

/-! ## No fabric op begins

When ops of lists complete and phases end, fabric ops leave and none begins. Said as for what is watched: as a rewrite rule for
each operation. -/

/-- The ops of the list are among those of `L`. -/
def OpsAmong (L ops : List FabOp) : Prop := ∀ f ∈ ops, f ∈ L

/-- The fabric ops in progress are among those of `L`. -/
def OpsIn (L : List FabOp) (s : State) : Prop := OpsAmong L s.fab.ops

/-- `OpsIn` under a second name. -/
def OpsLeft (L : List FabOp) (s : State) : Prop := OpsIn L s

/-- The operation that leads from the first state to the second begins no fabric op. -/
@[simp] abbrev NoneBegins (L : List FabOp) (s t : State) : Prop := OpsIn L t ↔ OpsIn L s ∨ OpsLeft L t

theorem NoneBegins.of (h : OpsIn L s → OpsIn L t) : NoneBegins L s t := or_of_imp_rule h

theorem NoneBegins.same (h : t.fab.ops = s.fab.ops) : NoneBegins L s t := .of fun k => by
  rw [OpsIn, h]
  exact k

theorem NoneBegins.aside (h : rest (others .fab) t = rest (others .fab) s) : NoneBegins L s t := .same (by rw [fab_eq h])

@[simp] theorem opsIn_mk (pending nowNs freeCount out mem cr cores blink trn mr ccm muu muuRun trnRun cmd hif sec fw
    err pwr rst fab coll) :
    OpsIn L ⟨pending, nowNs, freeCount, out, mem, cr, cores, blink, trn, mr, ccm, muu, muuRun, trnRun, cmd, hif, sec,
        fw, err, pwr, rst, fab, coll⟩ ↔ OpsAmong L fab.ops := Iff.rfl

@[simp] theorem opsAmong_ops (s : State) : OpsAmong L s.fab.ops ↔ OpsIn L s := Iff.rfl

@[simp] theorem opsIn_ite (c : Prop) [Decidable c] (s t : State) :
    OpsIn L (if c then s else t) ↔ if c then OpsIn L s else OpsIn L t := by split <;> rfl

@[simp] theorem foldl_begins {α : Type} {f : State → α → State} (h : ∀ s x, OpsIn L s → OpsIn L (f s x)) (l : List α) (s : State) :
    NoneBegins L s (l.foldl f s) := .of (foldl_imp h l)

theorem opsIn_foldl {α : Type} {f : State → α → State} (h : ∀ s x, OpsIn L s → OpsIn L (f s x)) (l : List α) (hs : OpsIn L s) :
    OpsIn L (l.foldl f s) := foldl_imp h l hs

/-! ### Packets -/

theorem ops_freeSource (s : State) (src : Option (Nat × Nat × Nat)) : (freeSource s src).fab.ops = s.fab.ops := by
  have e := toDo_freeSource s src
  simp only [toDo, Prod.mk.injEq] at e
  exact e.2.2.2.2.2.1

@[simp] theorem freeSource_begins (s : State) (src : Option (Nat × Nat × Nat)) : NoneBegins L s (freeSource s src) :=
  .same (ops_freeSource s src)

@[simp] theorem takeTag_begins (s : State) (fi t part limitNs : Nat) (o : FabOwner) : NoneBegins L s (takeTag s fi t part limitNs o) :=
  .same rfl

@[simp] theorem countNoRoute_begins (s : State) : NoneBegins L s (countNoRoute s) := .same rfl

@[simp] theorem countRouteErr_begins (s : State) : NoneBegins L s (countRouteErr s) := .same rfl

@[simp] theorem waitAtFi_begins (s : State) (l : LoopPkt) : NoneBegins L s (waitAtFi s l) := .same rfl

@[simp] theorem sendOut_begins (s : State) (p : Nat) (o : OutPkt) : NoneBegins L s (sendOut s p o) := .same (onWay_sendOut s p o).ops

@[simp] theorem losePkt_begins {count : State → State} (hc : ∀ x, OpsIn L x → OpsIn L (count x)) (s : State) (l : LoopPkt) :
    NoneBegins L s (losePkt count s l) := .of fun h => by
  simp only [losePkt]
  (repeat' split) <;> simp [hc, h]

@[simp] theorem routePkt_begins (s : State) (dst cls : Nat) (l : LoopPkt) : NoneBegins L s (routePkt s dst cls l) := .of fun h => by
  simp only [routePkt]
  (repeat' split) <;> simp +contextual [h]

@[simp] theorem injectPkt_begins (s : State) (fi dst cls : Nat) (bytes : Bytes) (part : Option Nat) (limitNs : Nat)
    (o : Option FabOwner) (src : Option (Nat × Nat × Nat)) : NoneBegins L s (injectPkt s fi dst cls bytes part limitNs o src) :=
  .of fun h => by simp [injectPkt, h]

@[simp] theorem injectPlain_begins (s : State) (fi : Nat) (h : PktSpec) (payload : Bytes) (o : Option FabOwner)
    (src : Option (Nat × Nat × Nat)) : NoneBegins L s (injectPlain s fi h payload o src) := .of fun h => by
  simp [injectPlain, h]

@[simp] theorem dropFabric_begins (s : State) (mine : FabOwner → Bool) : NoneBegins L s (dropFabric s mine) := .of fun h f hf =>
  h f (List.mem_filter.mp hf).1

@[simp] theorem dropAwait_begins (s : State) (o : FabOwner) : NoneBegins L s (dropAwait s o) := .of fun h f hf =>
  h f (List.mem_filter.mp hf).1

/-! ### Collectives and fired ops -/

@[simp] theorem collSend_begins (s : State) (c : Coll) (rank kind item addr : Nat) (payload : Bytes) (poison : Bool) :
    NoneBegins L s (collSend s c rank kind item addr payload poison) := .of fun h => by
  simp [collSend, h]

@[simp] theorem ownerEnd_begins (s : State) (o : OpOwner) (st : Status) : NoneBegins L s (ownerEnd s o st) :=
  .aside (by simp)

@[simp] theorem closeColl_begins (s : State) (c : Coll) (st : Status) (parts : Nat) : NoneBegins L s (closeColl s c st parts) :=
  .aside (by simp)

@[simp] theorem stopColl_begins (s : State) (id : Nat) : NoneBegins L s (stopColl s id) := .of fun h => by simp [stopColl, h]

@[simp] theorem abortHere_begins (s : State) (c : Coll) (st : Status) : NoneBegins L s (abortHere s c st) := .aside (by simp)

@[simp] theorem abortColl_begins (s : State) (id : Nat) (st : Status) : NoneBegins L s (abortColl s id st) := .of fun h => by
  unfold abortColl
  split
  · exact h
  · next c _ =>
    extract_lets r counts s0
    have h0 : OpsIn L s0 := by simp only [s0, counts]; split <;> simp [h]
    clear_value s0
    have sent : OpsIn L ((List.range (cmMembers r)).foldl (fun x k =>
        if k = cmRank r then x else collSend x c k 12 (statusCode st) 0 []) (stopColl s0 id)) :=
      opsIn_foldl (fun a k ha => by split <;> simp [ha]) _ (by simp [h0])
    simp [sent]

@[simp] theorem abortCollsOf_begins (s : State) (stream : Nat) (phase : Option Nat) : NoneBegins L s (abortCollsOf s stream phase) :=
  .of fun h => by simp +contextual [abortCollsOf, h]

@[simp] theorem poisonGet_begins (s : State) (d : Bytes) : NoneBegins L s (poisonGet s d) := .aside (by simp)

@[simp] theorem disarm_begins (s : State) (id : Nat) : NoneBegins L s (disarm s id) := .aside (by simp)

@[simp] theorem dropFired_begins (s : State) (id : Nat) (phase : Option Nat) : NoneBegins L s (dropFired s id phase) := .of fun h => by
  simp +contextual [dropFired, h]

/-! ### Records, phases and streams -/

@[simp] theorem setQueue_begins (s : State) (q : Nat) (x : Queue) : NoneBegins L s (setQueue s q x) := .aside (by simp)

@[simp] theorem raiseEvent_begins (s : State) (st : Status) (source unit : Nat) (detail : Bytes) :
    NoneBegins L s (raiseEvent s st source unit detail) := .aside (by simp)

@[simp] theorem emit_begins (s : State) (o : Output) : NoneBegins L s (emit s o) := .same rfl

@[simp] theorem setMem_begins (s : State) (m : Mem) : NoneBegins L s (setMem s m) := .same rfl

@[simp] theorem sendMsix_begins (s : State) (p : HPort) (v : Nat) : NoneBegins L s (sendMsix s p v) := .aside (by simp)

@[simp] theorem cmdDeny_begins (s : State) (write : Bool) (a n : Nat) : NoneBegins L s (cmdDeny s write a n) := .aside (by simp)

@[simp] theorem queueError_begins (s : State) (n : Nat) : NoneBegins L s (queueError s n) := .of fun h => by
  simp only [queueError]
  split <;> simp [h]

@[simp] theorem cmdWrite_begins (s : State) (a : Nat) (bs : Bytes) : NoneBegins L s (cmdWrite s a bs).1 := .of fun h => by
  simp only [cmdWrite]
  (repeat' split)
  · refine opsIn_foldl (fun x l hx => ?_) _ h
    (repeat' split) <;> simp [hx]
  · simp [h]
  · simp [h]

@[simp] theorem putRecord_begins (s : State) (n : Nat) (r : Record) : NoneBegins L s (putRecord s n r) := .of fun h => by
  simp only [putRecord]
  (repeat' split) <;> simp [h]

@[simp] theorem postRecord_begins (s : State) (n : Nat) (r : Record) : NoneBegins L s (postRecord s n r) := .of fun h => by
  simp [postRecord, h]

@[simp] theorem noteServed_begins (s : State) (n : Nat) : NoneBegins L s (noteServed s n) := .aside (by simp)

@[simp] theorem completeDesc_begins (s : State) (n : Nat) (f : Fetched) (st : Status) : NoneBegins L s (completeDesc s n f st) :=
  .of fun h => by
  simp only [completeDesc, completeFull]
  split <;> simp [h]

@[simp] theorem settleStream_begins (s : State) (id : Nat) : NoneBegins L s (settleStream s id) := .of fun h => by
  simp only [settleStream]
  (repeat' split) <;> simp [h]

@[simp] theorem modPhase_begins (s : State) (id p : Nat) (f : PhaseRun → PhaseRun) : NoneBegins L s (modPhase s id p f) := .same rfl

@[simp] theorem withTrn_begins {f : State → State} (hf : ∀ x, OpsIn L x → OpsIn L (f x)) (ph : PhaseRun) (s : State) :
    NoneBegins L s (withTrn ph f s) := .of fun h => by
  simp [withTrn, underPhase, h, hf]

@[simp] theorem modStream_begins (s : State) (id : Nat) (f : StreamRun → StreamRun) : NoneBegins L s (modStream s id f) := .same rfl

@[simp] theorem endMb_begins (s : State) (r : StreamRun) (p : Nat) (record : Bytes) (st : Status) :
    NoneBegins L s (endMb s r p record st) := .aside (by simp)

@[simp] theorem putPstat_begins (s : State) (r : StreamRun) (p : Nat) (st : Status) : NoneBegins L s (putPstat s r p st) :=
  .aside (by simp)

@[simp] theorem endPhaseBinds_begins (ph : PhaseRun) (s : State) : NoneBegins L s (endPhaseBinds ph s) := .aside (by simp)

@[simp] theorem endPhase_begins (s : State) (id p : Nat) : NoneBegins L s (endPhase s id p) := .of fun h => by
  simp only [endPhase]
  split <;> simp +contextual [h]

/-- Of the ops of a core that end, only a copy leaves the fabric. -/
@[simp] theorem endCoreOps_begins (s : State) (n : Nat) (mine : Token → Bool) : NoneBegins L s (endCoreOps s n mine).1 := .of fun h => by
  unfold endCoreOps
  extract_lets c lpa lpaP ve veP coe dma ccm s1 s2 s3 s4 s5 s6 s7 d t
  clear_value lpa lpaP ve veP coe dma ccm
  have before : s5.fab = s.fab := by
    have h1 : s1.fab = s.fab := by cases lpa with | none => rfl | some r => exact fab_eq (by simp [s1])
    have h2 : s2.fab = s1.fab := by cases lpaP with | none => rfl | some r => exact fab_eq (by simp [s2])
    have h3 : s3.fab = s2.fab := by cases ve with | none => rfl | some r => exact fab_eq (by simp [s3])
    have h4 : s4.fab = s3.fab := by cases veP with | none => rfl | some r => exact fab_eq (by simp [s4])
    have h5 : s5.fab = s4.fab := by cases coe with | none => rfl | some r => exact fab_eq (by simp [s5])
    rw [h5, h4, h3, h2, h1]
  have h5 : OpsIn L s5 := by
    rw [OpsIn, before]
    exact h
  have h6 : OpsIn L s6 := by
    cases dma with
    | none => exact h5
    | some r => exact (dropFabric_begins ..).mpr (.inl ((NoneBegins.aside (by simp)).mpr (.inl h5)))
  have h7 : OpsIn L s7 := by
    cases ccm with
    | none => exact h6
    | some r => exact (NoneBegins.aside (s := s6) (t := s7) (by simp [s7])).mpr (.inl h6)
  exact h7

@[simp] theorem dropLists_begins (s : State) (n : Nat) (mine : Token → Bool) : NoneBegins L s (dropLists s n mine) := .aside (by simp)

@[simp] theorem poisonMuu_begins (s : State) (run : MuuRun) : NoneBegins L s (poisonMuu s run) := .aside (by simp)

@[simp] theorem dropSamples_begins (s : State) (stream : Nat) (phase : Option Nat) : NoneBegins L s (dropSamples s stream phase) :=
  .aside (by simp)

@[simp] theorem forceEnd_begins (s : State) (id p : Nat) (st : Status) (hard : Bool) : NoneBegins L s (forceEnd s id p st hard) :=
  .of fun h => by
  simp only [forceEnd]
  split
  · exact h
  · generalize hx : (liveCores s).foldl _ s = x
    have hx : OpsIn L x := hx ▸ opsIn_foldl (fun a n ha => by simp [ha]) _ h
    (repeat' split) <;> simp +contextual [hx]

@[simp] theorem fabricStops_begins (s : State) (id p : Nat) (d : Bytes) (st : Status) : NoneBegins L s (fabricStops s id p d st) :=
  .of fun h => by
  simp only [fabricStops]
  split <;> simp [h]

@[simp] theorem completeIo_begins (s : State) (id p i : Nat) : NoneBegins L s (completeIo s id p i) := .aside (by simp)

end Sys2Proof.Laws
end

section
/-! PROOFS. The fields of a packet as it leaves, and an op that is noted with its packets. -/

namespace Sys2Proof.Laws

open Sys2Proof Sys2Proof.Machine
set_option Elab.async false

variable {s t u : State} {q n fi : Nat}

/-! ## A packet of an op as it leaves -/

theorem flag_eq_le (b : Bytes) (i j : Nat) : flag b i j = (le b i 1).testBit j := by
  by_cases h : i < b.length
  · have one : (b.drop i).take 1 = [b[i]] := by rw [List.drop_eq_getElem_cons h, List.take_succ_cons, List.take_zero]
    rw [flag, byteAt, le, one, List.getD_eq_getElem _ _ h]
    simp [leNat, BitVec.getLsbD]
  · have none : b.drop i = [] := List.drop_eq_nil_of_le (by omega)
    rw [flag, byteAt, le, none, List.getD_eq_default _ _ (by omega)]
    simp [leNat]

/-- The tag and the check that come with it leave the fields between them. -/
theorem withTag_slice_between {b : Bytes} (tag : Nat) {i m : Nat} (h : 60 ≤ b.length) (hi : 29 ≤ i) (hm : i + m ≤ 56) :
    slice (withTag b tag) i m = slice b i m := by
  have one : (putBytes b 26 (leBytes 3 tag)).length = b.length := putBytes_length (by rw [leBytes_length]; omega)
  rw [withTag, slice_putBytes_before hm (by omega), slice_putBytes_after (by rw [leBytes_length]; omega) (by omega)]

section Fields
variable (src : Nat) (h : PktSpec) (payload : Bytes)

theorem buildPkt_flags : le (buildPkt src h payload) 17 1 = (b2n h.ackReq + 2 * b2n h.epochEn + 4 * b2n h.rctrEn) % 256 ^ 1 :=
  (le_buildPkt src h payload (by decide)).trans
    (le_of_split (pre := [0, BitVec.ofNat 8 (cdiv payload.length 64)] ++ zeroBytes 10 ++ leBytes 2 h.dst ++ leBytes 2 src ++
      leBytes 1 (h.cls + 4 * h.kind)) (by simp only [pktBody, List.append_assoc]; rfl))

theorem buildPkt_kindBytes {v : Nat} (hv : h.kindBytes = leBytes 8 v) : le (buildPkt src h payload) 42 8 = v % 256 ^ 8 := by
  have kind : (h.kindBytes ++ zeroBytes 14).take 14 = leBytes 8 v ++ zeroBytes 6 := by
    rw [hv, List.take_append, leBytes_length, List.take_of_length_le (by rw [leBytes_length]; decide)]
    rfl
  refine (le_buildPkt src h payload (by decide)).trans
    (le_of_split (pre := [0, BitVec.ofNat 8 (cdiv payload.length 64)] ++ zeroBytes 10 ++ leBytes 2 h.dst ++ leBytes 2 src ++
      leBytes 1 (h.cls + 4 * h.kind) ++ leBytes 1 (b2n h.ackReq + 2 * b2n h.epochEn + 4 * b2n h.rctrEn) ++ leBytes 2 h.plen ++
      leBytes 6 h.addr ++ leBytes 3 h.tag ++ [0] ++ leBytes 2 h.epoch ++ leBytes 2 (if h.rctrEn then h.rctr else 0) ++
      leBytes 8 h.poison) (post := zeroBytes 6 ++ (zeroBytes 8 ++ (payload ++ zeroBytes (64 * cdiv payload.length 64 - payload.length)))) ?_)
  simp only [pktBody, kind, List.append_assoc]

theorem ackReq_of_flags {a b c : Bool} : ((b2n a + 2 * b2n b + 4 * b2n c) % 256 ^ 1).testBit 0 = a := by
  cases a <;> cases b <;> cases c <;> decide

end Fields

/-- The fields of a packet of a PUT or a GET that has left on a port. -/
structure LeftAs (s : State) (q : Nat) (h : PktSpec) (payload : Bytes) (x : Bytes) : Prop where
  out : .packet q x ∈ s.out
  kind : pkKind x = h.kind
  dst : pkDst x = h.dst
  addr : pkAddr x = h.addr
  plen : pkPlen x = h.plen
  ack : pkAckReq x = h.ackReq
  payload : h.plen = payload.length → pkPayload x = payload
  kindBytes : ∀ v < 2 ^ 64, h.kindBytes = leBytes 8 v → le x 42 8 = v

/-- A packet that has its way out free leaves with its fields. -/
theorem leftAs_injectPkt {dl : Bool} {part : Option Nat} {limitNs src : Nat} {w : Option FabOwner} {h : PktSpec} {payload : Bytes} {tagged : Bool}
    (hk : keysRise s.fab.ports = true) (empty : ∀ p, (getFab s p).queue = []) (way : WayOut s h.dst 0 payload.length tagged q dl)
    (ht : part.isSome = true → w.isSome = true → tagged = true) (hcls : h.cls = 0) (hkind : h.kind < 64) (hdst : h.dst < 2 ^ 16)
    (haddr : h.addr < 2 ^ 48) (hplen : h.plen < 8192) :
    ∃ x, LeftAs (injectPkt s fi h.dst 0 (buildPkt src h payload) part limitNs w) q h payload x := by
  have blocks : (buildPkt src h payload).length / 64 = cdiv payload.length 64 + 1 := by rw [buildPkt_length]; omega
  obtain ⟨y, b, down, left, hb⟩ := injectPkt_leaves (fi := fi) hk empty way (buildPkt src h payload) part limitNs w blocks ht
  obtain ⟨dst, -, kinds, plen, addr, body⟩ := linked_fields src h payload b y (vcOf 0 dl) down hb
  have len : 64 ≤ (buildPkt src h payload).length := by rw [buildPkt_length]; omega
  obtain ⟨long, early, -⟩ := withTag_keeps len hb
  have flags : le (linkPart y 1 (vcOf 0 dl) down b) 17 1 = le (buildPkt src h payload) 17 1 := by
    rw [le_eq_slice, linkPart_slice _ _ _ _ long (by decide) (by decide), early 17 1 (by decide) (by decide), le_eq_slice]
  have between : le (linkPart y 1 (vcOf 0 dl) down b) 42 8 = le (buildPkt src h payload) 42 8 := by
    rw [le_eq_slice, linkPart_slice _ _ _ _ long (by decide) (by decide), le_eq_slice]
    refine congrArg leNat ?_
    rcases hb with e | ⟨tag, e⟩
    · rw [e]
    · rw [e, withTag_slice_between tag (by omega) (by decide) (by decide)]
  have plenIs : pkPlen (linkPart y 1 (vcOf 0 dl) down b) = h.plen := by
    rw [pkPlen, plen, bits, Nat.shiftRight_zero]
    omega
  refine ⟨_, left, ?_, ?_, ?_, plenIs, ?_, fun full => ?_, fun v hv kb => ?_⟩
  · rw [pkKind, kinds, hcls, bits, Nat.shiftRight_eq_div_pow]
    omega
  · rw [pkDst, dst]
    omega
  · rw [pkAddr, addr]
    omega
  · rw [pkAckReq, flag_eq_le, flags, buildPkt_flags, ackReq_of_flags]
  · rw [pkPayload, plenIs, body, full, List.take_append_of_le_length le_rfl, List.take_length]
  · rw [between, buildPkt_kindBytes _ _ _ kb]
    omega

/-! ## An op is noted and its packets are put on their way -/

/-- A state that has noted one more fabric op than `s`. -/
structure Noted (s : State) (op : FabOp) (t : State) : Prop where
  fab : t.fab = { s.fab with ops := s.fab.ops ++ [op] }
  windowSet : t.hif.wtWait = s.hif.wtWait
  coll : t.coll = s.coll
  now : t.nowNs = s.nowNs

theorem Noted.sends {op : FabOp} (h : Noted s op t) : Sends s t := .of_ports (by rw [h.fab]) (by rw [h.fab]; rfl)

theorem Noted.getFab {op : FabOp} (h : Noted s op t) (p : Nat) : getFab t p = getFab s p := by rw [Machine.getFab, h.fab, Machine.getFab]

theorem Noted.freeTag {op : FabOp} (h : Noted s op t) (p : Nat) : freeTag t p = freeTag s p := by
  simp only [Machine.freeTag, h.fab, h.now]

/-- The way out is as free as before. -/
theorem Noted.wayOut {op : FabOp} {dst cls len : Nat} {tagged dl : Bool} (h : Noted s op t) (hk : keysRise s.fab.ports = true)
    (way : WayOut s dst cls len tagged q dl) : WayOut t dst cls len tagged q dl where
  far := (localNode_of_sends h.sends dst).trans way.far
  route := (routeOf_of_sends h.sends hk dst).trans way.route
  assigned := by rw [h.sends.nodeId]; exact way.assigned
  hop := by
    obtain ⟨down, hop⟩ := way.hop
    exact ⟨down, (hopOf_of_sends h.sends hk none q false false).trans hop⟩
  tag := fun e => by rw [h.freeTag]; exact way.tag e
  credits := by rw [h.getFab]; exact way.credits

/-- While packets of an op to another module are out or wait, the fabric rests with the op. -/
theorem rests_with_packets {op : FabOp} {dst : Nat} {α : Type} {f : State → α → State} {l : List α} (hk : keysRise s.fab.ports = true)
    (quiet : FabQuiet s) (noted : Noted s op t) (far : localNode s dst = false)
    (hf : ∀ x c, ∃ bytes k limitNs, f x c = injectPkt x fi dst 0 bytes (some k) limitNs (some op.owner)) (hl : l ≠ []) :
    settleFab (l.foldl f t) = l.foldl f t ∧ op ∈ (l.foldl f t).fab.ops ∧ (l.foldl f t).mem = t.mem := by
  have hk' : keysRise t.fab.ports = true := by rw [noted.fab]; exact hk
  have far' : localNode t dst = false := (localNode_of_sends noted.sends dst).trans far
  have step (x : State) (c : α) (hx : Going fi dst t x) : Going fi dst t (f x c) ∧ fabBusy (f x c) op.owner = true := by
    obtain ⟨bytes, k, limitNs, e⟩ := hf x c
    rw [e]
    exact hx.injectPkt hk' far' 0 bytes k limitNs op.owner
  obtain ⟨going, busy⟩ := foldl_last (I := Going fi dst t) (B := fun x => fabBusy x op.owner = true) step hl
    (going_refl fi dst (by rw [noted.fab]; exact quiet.idle.loop))
  obtain ⟨hif, coll, mem⟩ : (l.foldl f t).hif = t.hif ∧ (l.foldl f t).coll = t.coll ∧ (l.foldl f t).mem = t.mem := by
    refine List.foldlRecOn (motive := fun x => x.hif = t.hif ∧ x.coll = t.coll ∧ x.mem = t.mem) l f ⟨rfl, rfl, rfl⟩ ?_
    rintro x ⟨hif, coll, mem⟩ c -
    obtain ⟨bytes, k, limitNs, e⟩ := hf x c
    rw [e]
    exact ⟨(hif_eq (by simp)).trans hif, (coll_eq (by simp)).trans coll, (mem_eq (by simp)).trans mem⟩
  have rests : FabResting (l.foldl f t) := resting_of_going going busy (.of_quiet quiet) quiet.idle.held noted.fab
    (by rw [hif]; exact noted.windowSet) (coll.trans noted.coll)
  exact ⟨settleFab_of_resting rests, by rw [going.ops, noted.fab]; exact List.mem_append_right _ List.mem_cons_self, mem⟩

end Sys2Proof.Laws
end

section
/-! PROOFS. What a PUT and a GET read, note and send (O54). -/

namespace Sys2Proof.Laws

open Sys2Proof Sys2Proof.Machine
set_option Elab.async false

variable {s t u : State} {i k n fi : Nat} {o : NextOp} {w : FabOwner} {d : Bytes} {host : List HostLine}

/-! ## A fabric op of an I/O list starts (R388, R430) -/

/-- What the next op at a place of an I/O list says of itself. -/
structure NextIo (s : State) (i k op : Nat) (o : NextOp) : Prop where
  phase : ∃ x, getPhase s i k = some x
  stream : o.tok.stream = i
  tokPhase : o.tok.phase = k
  opcode : byteAt o.desc 0 = BitVec.ofNat 8 op

theorem nextIo_of_startable {op : Nat} (h : startableIo s i k op = some o) : NextIo s i k op o := by
  rw [startableIo] at h
  split at h
  · cases h
  next x hx =>
    split at h
    next ok =>
      obtain rfl := Option.some.inj h
      have code : (opHdr x.desc).opcode = op := by
        simp only [Bool.and_eq_true, beq_iff_eq] at ok
        exact ok.1.2
      refine ⟨nextIo_phase hx, nextIo_stream hx, ?_, BitVec.eq_of_toNat_eq ?_⟩
      · rw [nextIo] at hx
        split at hx
        next r ph hr hp =>
          split at hx
          · obtain rfl := Option.some.inj hx
            obtain ⟨r', hr', found⟩ := Option.bind_eq_some_iff.mp hp
            have num : ph.num = k := by simpa using List.find?_some found
            exact num
          · cases hx
        · cases hx
      · rw [← code, BitVec.toNat_ofNat]
        exact (Nat.mod_eq_of_lt (byteAt x.desc 0).isLt).symm
    · cases h

theorem nextIo_of_fabNext {id : StreamId} {ph : PhaseNo} {op : Nat} (h : fabNext (.io id ph) s op = some o) :
    NextIo s id.toNat ph.toNat op o := nextIo_of_startable h

/-- The op as it stands in its list once it has started. -/
def begunIo (o : NextOp) : IoOp := { idx := o.idx, desc := o.desc, status := .ok, finished := false }

theorem getIo_startIo (hp : ∃ x, getPhase s i k = some x) (none : getIo s i k o.idx = none) :
    getIo (startIo s i k o) i k o.idx = some (begunIo o) := by
  obtain ⟨x, hp⟩ := hp
  obtain ⟨y, hy, io⟩ := getPhase_startIo hp o
  rw [getIo, hp] at none
  rw [getIo, hy, Option.bind_some, io, List.find?_append, show x.io.find? (·.idx == o.idx) = Option.none from none]
  simp [begunIo]

theorem getIo_startIo_isSome (hp : ∃ x, getPhase s i k = some x) (o : NextOp) : (getIo (startIo s i k o) i k o.idx).isSome = true := by
  obtain ⟨x, hp⟩ := hp
  obtain ⟨ops, hops, y, hy, idx⟩ := ioKnown_startIo hp o
  rw [getIo_ioOps, hops, Option.bind_some, List.find?_isSome]
  exact ⟨y, hy, by simpa using idx⟩

/-! ### The op is still in its list when the fabric has settled -/

/-- What is watched for an I/O op: that it is there, in a state without fired ops. -/
def opWatch (s : State) (x : Nat × Nat × Nat) : Watch :=
  { ports := fun p => portSetup (getFab s p), quiet := true, coll := 0, landed := [], shut := false, met := fun _ _ => True, ops := [x] }

theorem holds_opWatch (hk : keysRise s.fab.ports = true) (fired : s.coll.firedOps = []) (hf : t.fab = s.fab) (hc : t.coll = s.coll)
    (there : (getIo t i k n).isSome = true) : Holds (opWatch s (i, k, n)) t where
  ports := by
    rw [hf]
    exact ⟨hk, fun _ => rfl⟩
  colls := fun _ c _ _ => ⟨fun j hj => absurd hj (List.not_mem_nil), fun h => absurd h Bool.false_ne_true⟩
  fired := fun _ => by rw [hc]; exact fired
  ops := fun _ x hx => by
    rw [List.mem_singleton.mp hx, ioIn_streams]
    exact there

theorem getIo_of_holds {x : Nat × Nat × Nat} (h : Holds (opWatch s x) t) : (getIo t x.1 x.2.1 x.2.2).isSome = true := by
  have there := h.ops rfl x (List.mem_singleton.mpr rfl)
  rwa [ioIn_streams] at there

theorem startPut_watched {W : Watch} (s : State) (w : FabOwner) (fi id p : Nat) (d : Bytes) (host : List HostLine) :
    Watched W s (startPut s w fi id p d host) := .of fun h => by
  have view := (viewSpan_watched (W := W) initFab .fi host (viewOf s) (fbLocal d) (fbLen d)).mpr (.inl h)
  exact holds_foldl (fun x c hx => (injectPkt_watched ..).mpr (.inl hx)) _ (by simp [noteFab, view])

theorem startGet_watched {W : Watch} (s : State) (w : FabOwner) (fi id p : Nat) (d : Bytes) :
    Watched W s (startGet s w fi id p d) := .of fun h =>
  holds_foldl (fun x c hx => (injectPkt_watched ..).mpr (.inl hx)) _ (by simp [noteFab, h])

/-! ### What a PUT reads and what it sends -/

theorem fabAside_viewLine (init : Nat) (r : Reach) (host : List HostLine) (v : View) (a : Nat) :
    FabAside v.s (viewLine init r host v a).s := by
  have logged (x : State) (kind : Nat) (st : Status) (j a : Nat) : FabAside x (logFailure x kind st j a) :=
    ⟨fab_eq (by simp), coll_eq (by simp), congrArg HifState.wtWait (hif_eq (by simp)), congrArg CmdState.peerData (cmd_eq (by simp))⟩
  have corrected (x : State) (n : BitVec 32) (i j a : Nat) : FabAside x (noteCorrected x n i j a) := by
    unfold noteCorrected
    split
    · exact fabAside_raiseEvent ..
    · exact .refl x
  have met (x : State) (a : Nat) (e : LineErr) : FabAside x (meetErr x a e) := by
    cases e with
    | none => exact .refl x
    | correctable =>
      dsimp only [meetErr]
      refine FabAside.trans ?_ (corrected ..)
      exact ⟨rfl, rfl, rfl, rfl⟩
    | uncorrectable =>
      dsimp only [meetErr]
      refine FabAside.trans ?_ (fabAside_raiseEvent ..)
      refine FabAside.trans ?_ (logged ..)
      exact ⟨rfl, rfl, rfl, rfl⟩
  simp only [viewLine]
  split
  · split
    · exact fabAside_denyLine ..
    · split <;> exact .refl _
  · split
    · refine (fabAside_touch v.s a).trans ?_
      unfold demandWith
      split
      · exact met ..
      · exact .refl _
    · exact .refl _

theorem fabAside_viewSpan (init : Nat) (r : Reach) (host : List HostLine) (v : View) (a n : Nat) :
    FabAside v.s (viewSpan init r host v a n).s :=
  List.foldlRecOn (motive := fun x : View => FabAside v.s x.s) (linesOf a n) _ (.refl v.s)
    fun x hx l _ => hx.trans (fabAside_viewLine init r host x l)

/-- What a PUT reads. -/
def putView (s : State) (d : Bytes) (host : List HostLine) : View := viewSpan initFab .fi host (viewOf s) (fbLocal d) (fbLen d)

/-- A part of a PUT whose source could not be read, with why. -/
def putBad (s : State) (d : Bytes) (host : List HostLine) (q : Nat × Nat × Nat) : Option (Nat × Status) :=
  match (viewSpan initFab .fi host (viewOf s) (fbLocal d + q.2.1) q.2.2).err with
  | some e => some (q.1, e)
  | none => if spanPoison (putView s d host).m (fbLocal d + q.2.1) q.2.2 then some (q.1, Status.poisoned) else none

/-- The parts of a PUT whose source could not be read. -/
def putBads (s : State) (d : Bytes) (host : List HostLine) : List (Nat × Status) := (fabParts (fbLen d)).filterMap (putBad s d host)

/-- The header of a packet of a PUT. -/
def putHead (s : State) (d : Bytes) (host : List HostLine) (off len : Nat) : PktSpec :=
  { pktPlain (gNode (fbRemote d)) 0 0 len (gLocal (fbRemote d) + off) with
    ackReq := fbAck d, epochEn := fbEpochEn d, epoch := fbEpoch d, rctrEn := fbRctrEn d, rctr := fbRctr d,
    poison := flitMask len fun x _ => (putBads s d host).any fun b => b.1 == (off + x) / fabPart (fbLen d) }

/-- The op that a PUT notes. -/
def putOp (s : State) (w : FabOwner) (fi id p : Nat) (d : Bytes) (host : List HostLine) : FabOp :=
  { newFab s w fi id p d with badParts := putBads s d host }

/-- The state in which a PUT has read its source and is noted. -/
def putNoted (s : State) (w : FabOwner) (fi id p : Nat) (d : Bytes) (host : List HostLine) : State :=
  noteFab (putView s d host).s (putOp s w fi id p d host)

/-- A packet of a PUT is put on its way. -/
def putPkt (s : State) (w : FabOwner) (fi : Nat) (d : Bytes) (host : List HostLine) (x : State) (c : (Nat × Nat) × Nat) : State :=
  injectPkt x fi (gNode (fbRemote d)) 0
    (buildPkt s.fab.nodeId.toNat (putHead s d host c.1.1 c.1.2) (memRead (putView s d host).m (fbLocal d + c.1.1) c.1.2))
    (if fbAck d then some c.2 else none) (classNs s 0 (fbTimeout d)) (some w)

theorem startPut_eq (s : State) (w : FabOwner) (fi id p : Nat) (d : Bytes) (host : List HostLine) : startPut s w fi id p d host =
    (pktCuts (fbLen d)).zipIdx.foldl (putPkt s w fi d host) (putNoted s w fi id p d host) := rfl

/-- The header of a packet of a GET. -/
def getHead (s : State) (d : Bytes) (off len : Nat) : PktSpec :=
  { pktPlain (gNode (fbRemote d)) 0 1 len (gLocal (fbRemote d) + off) with
    epochEn := fbEpochEn d, epoch := fbEpoch d, rctrEn := fbRctrEn d, rctr := fbRctr d,
    kindBytes := leBytes 8 (if fbVia d then fbDest d + off else s.fab.nodeId.toNat * 2 ^ 48 + fbLocal d + off) }

/-- A packet of a GET is put on its way. -/
def getPkt (s : State) (w : FabOwner) (fi : Nat) (d : Bytes) (x : State) (c : (Nat × Nat) × Nat) : State :=
  injectPkt x fi (gNode (fbRemote d)) 0 (buildPkt s.fab.nodeId.toNat (getHead s d c.1.1 c.1.2) []) (some c.2)
    (classNs s 1 (fbTimeout d)) (some w)

theorem startGet_eq (s : State) (w : FabOwner) (fi id p : Nat) (d : Bytes) : startGet s w fi id p d =
    (pktCuts (fbLen d)).zipIdx.foldl (getPkt s w fi d) (noteFab s (newFab s w fi id p d)) := rfl

theorem pktCuts_ne_nil {len : Nat} (h : len ≠ 0) : pktCuts len ≠ [] := by
  have : cdiv len pktMax ≠ 0 := by
    simp only [cdiv, pktMax]
    omega
  simpa [pktCuts] using this

/-- A short transfer is one packet. -/
theorem pktCuts_one {len : Nat} (h : len ≠ 0) (short : len ≤ pktMax) : pktCuts len = [(0, len)] := by
  have one : cdiv len pktMax = 1 := by
    simp only [cdiv, pktMax] at short ⊢
    omega
  simp [pktCuts, one, Nat.min_eq_right short]

theorem fbLen_of_fabCheck {id : Nat} (h : fabCheck s id d = none) : fbLen d ≠ 0 ∧ fiAddrOk s (fbResult d) 8 = true ∧ fbResult d % 8 = 0 := by
  have all := firstFail_eq_none.1 h
  have lens := failIf_eq_none.1 (all (failIf (fbLen d == 0 || fbLen d % 4 != 0 || fbResult d % 8 != 0) .badField) (by simp))
  have result := failIf_eq_none.1 (all (failIf (!(fiAddrOk s (fbResult d) 8)) .badField) (by simp))
  simp only [Bool.or_eq_false_iff, beq_eq_false_iff_ne, bne_eq_false_iff_eq] at lens
  exact ⟨lens.1.1, by simpa using result, lens.2⟩

end Sys2Proof.Laws
end

section
/-! PROOFS. A posted PUT and its end (O54). -/

namespace Sys2Proof.Laws

open Sys2Proof Sys2Proof.Machine
set_option Elab.async false

variable {s t u : State} {i k n fi p q : Nat} {o : NextOp} {d : Bytes} {host : List HostLine} {op : FabOp}

/-! ## A posted PUT ends as its packet leaves (R431) -/

/-- A port that has sent its one packet has an empty queue, as the others have. -/
theorem queues_sent {x : OutPkt} {bytes : Bytes} (hk : keysRise s.fab.ports = true) (others : ∀ j, j ≠ p → (getFab s j).queue = [])
    (nowhere : x.src = none) (j : Nat) :
    (getFab (setFab (putOnLink s p x bytes) p { getFab (putOnLink s p x bytes) p with queue := [] }) j).queue = [] := by
  have rises := ((putOnLink_sends s p x bytes).ports hk).1
  by_cases hj : j = p
  · rw [hj, getFab_setFab_self _ rises]
  · rw [getFab_setFab_other _ rises hj, putOnLink, nowhere]
    show (getFab (setFab s p _) j).queue = []
    rw [getFab_setFab_other _ hk hj, others j hj]

/-- A packet that leaves at once leaves every queue empty. -/
theorem queues_sendOut {x : OutPkt} (hk : keysRise s.fab.ports = true) (empty : ∀ j, (getFab s j).queue = []) (up : portCarries s p = true)
    (untagged : x.part = none) (nowhere : x.src = none) (credits : creditsFor (getFab s p) x.vc (x.bytes.length / 64) = true) (j : Nat) :
    (getFab (sendOut s p x) j).queue = [] := by
  have joined := getFab_joined s p x { getFab s p with queue := [x] } rfl
  have up' : portCarries (setFab s p { getFab s p with queue := [x] }) p = true := by
    rw [portCarries, portUp, joined]
    exact up
  have tried : trySend (setFab s p { getFab s p with queue := [x] }) p x =
      some (putOnLink (setFab s p { getFab s p with queue := [x] }) p x x.bytes) := by
    rw [trySend, if_pos (by rw [joined]; exact credits), untagged]
  rw [sendOut_of_empty (empty p), drainPort, if_pos up', joined]
  simp only [drainList, tried, List.contains_nil, Bool.false_eq_true, if_false]
  refine queues_sent (setFab_rises (p := p) { getFab s p with queue := [x] } hk) (fun i hi => ?_) nowhere j
  rw [getFab_setFab_other _ hk hi, empty]

/-- With every queue and place empty, an op is busy by its tags alone. -/
theorem not_busy_of_empty {w : FabOwner} (hk : keysRise s.fab.ports = true) (empty : ∀ j, (getFab s j).queue = []) (loop : s.fab.loop = [])
    (tagless : ∀ g ∈ s.fab.tags, g.owner ≠ w) : fabBusy s w = false := by
  have queues : s.fab.ports.any (fun p => p.2.queue.any (fun q => q.owner == some w)) = false := by
    rw [List.any_eq_false]
    intro x hx
    have here : getFab s x.1 = x.2 := smGet_of_mem hk hx
    rw [← here, empty]
    simp
  have tags : s.fab.tags.any (fun g => g.owner == w) = false := by
    rw [List.any_eq_false]
    exact fun g hg => by simpa using tagless g hg
  simp [fabBusy, queues, tags, loop]

/-- Where every op but the last is busy, settling ends the last one at most. -/
theorem settleOps_of_last {before : List FabOp} (hops : s.fab.ops = before ++ [op])
    (busy : ∀ x ∈ before, byteAt x.desc 0 = 0x42 ∨ fabBusy s x.owner = true) (put : byteAt op.desc 0 ≠ 0x42) :
    settleOps s = if fabBusy s op.owner then s else finishFab s op := by
  have kept : (before.filter (fun x => byteAt x.desc 0 != 0x42)).foldl (fun x o => if fabBusy x o.owner then x else finishFab x o) s = s := by
    refine List.foldlRecOn (motive := fun x => x = s) _ _ rfl ?_
    rintro x rfl y hy
    obtain ⟨hmem, hop⟩ := List.mem_filter.mp hy
    rw [if_pos ((busy y hmem).resolve_left fun e => by simp [e] at hop)]
  have last : [op].filter (fun x => byteAt x.desc 0 != 0x42) = [op] :=
    List.filter_cons_of_pos (by simpa using put)
  rw [settleOps, hops, List.filter_append, last, List.foldl_append, kept]
  rfl

/-- A posted packet leaves, and its op ends with it unless tags are out. -/
theorem posted_settles {dst limitNs len : Nat} {bytes : Bytes} {dl : Bool} (hk : keysRise s.fab.ports = true) (quiet : FabQuiet s)
    (noted : Noted s op t) (way : WayOut s dst 0 len false q dl) (hb : bytes.length / 64 = cdiv len 64 + 1) (put : byteAt op.desc 0 ≠ 0x42) :
    let u := injectPkt t fi dst 0 bytes none limitNs (some op.owner)
    SendsOnly t u ∧ settleFab u = (if fabBusy u op.owner then u else finishFab u op) ∧
      ((∀ g ∈ s.fab.tags, g.owner ≠ op.owner) → fabBusy u op.owner = false) := by
  have hk' : keysRise t.fab.ports = true := by rw [noted.fab]; exact hk
  have empty (j : Nat) : (getFab t j).queue = [] := by rw [noted.getFab]; exact quiet.idle.queues j
  obtain ⟨far, route, assigned, ⟨down, hop⟩, -, credits⟩ := noted.wayOut hk way
  have up : portCarries t q = true := by
    have through := route
    rw [routeOf, Option.filter_eq_some_iff] at through
    rw [portCarries, through.2]
    simpa using assigned
  dsimp only
  rw [injectPkt_routed far route hop]
  have sent : SendsOnly t (sendOut t q { vc := vcOf 0 dl, down, bytes, src := none, part := none, limitNs, owner := some op.owner }) :=
    sendsOnly_sendOut rfl (empty q)
  have queues := queues_sendOut (p := q)
    (x := { vc := vcOf 0 dl, down, bytes, src := none, part := none, limitNs, owner := some op.owner }) hk' empty up rfl rfl
    (by rw [hb]; exact credits)
  have rises := ((sendOut_sends t q { vc := vcOf 0 dl, down, bytes, src := none, part := none, limitNs, owner := some op.owner }).ports hk').1
  generalize sendOut t q { vc := vcOf 0 dl, down, bytes, src := none, part := none, limitNs, owner := some op.owner } = u at sent queues rises
  have left := sent.toDo
  simp only [toDo, Prod.mk.injEq, noted.fab, noted.windowSet, noted.coll] at left
  obtain ⟨-, -, loop, held, set, ops, tags, fired, colls⟩ := left
  have busy : ∀ x ∈ s.fab.ops, byteAt x.desc 0 = 0x42 ∨ fabBusy u x.owner = true := fun x hx =>
    (quiet.idle.ops x hx).imp_right fun ⟨g, hg, own⟩ => HoldsTag.busy ⟨g, by rw [tags]; exact hg, own⟩
  obtain ⟨only, -⟩ := settleFab_ends (s := u) (loop.trans quiet.idle.loop) (held.trans quiet.idle.held) (set.trans quiet.idle.windowSet)
    (fired.trans quiet.idle.fired) (by rw [colls]; exact quiet.colls)
  exact ⟨sent, only.trans (settleOps_of_last ops busy put), fun tagless =>
    not_busy_of_empty rises queues (loop.trans quiet.idle.loop) (by rw [tags]; exact tagless)⟩

/-! ### The end of a PUT -/

/-- The end of a PUT: its result is written and its op has ended, with OK where no part failed. -/
theorem finishFab_put (own : op.owner = .io i k n) (put : byteAt op.desc 0 = 0x40) : ∃ late word st, word.length = 8 ∧
    (failedParts op = [] → st = .ok) ∧ finishFab s op =
      endIo (fiWrite (withTimeouts (withoutOps s op.owner) late) (fbResult op.desc) word false) i k n st := by
  have plain : (byteAt op.desc 0 == 0x41 && !(fbVia op.desc)) = false := by rw [put]; rfl
  unfold finishFab
  rw [own]
  dsimp only
  rw [plain]
  refine ⟨_, _, _, ?_, ?_, rfl⟩
  · simp [leBytes_length, zeroBytes]
  · intro none
    rw [none]

theorem outKept_writeLine (init : Nat) (r : Reach) (a : Nat) (bs : Bytes) (poison : Nat → Bool) (x : State × Option Status) (l : Nat) :
    OutKept x.1 (writeLine init r a bs poison x l).1 := by
  simp only [writeLine]
  split
  · split
    · exact outKept_denyLine ..
    · exact outKept_emit ..
  · split
    · exact OutKept.trans (t := setMem x.1 (memWrite x.1.mem (linePart a bs l).1 (linePart a bs l).2 (poison l))) (.of_eq rfl)
        (outKept_touch _ l)
    · exact .refl x.1

theorem outKept_fiWrite (s : State) (a : Nat) (bs : Bytes) (poison : Bool) : OutKept s (fiWrite s a bs poison) :=
  List.foldlRecOn (motive := fun x : State × Option Status => OutKept s x.1) (linesOf a bs.length) _ (.refl s)
    fun x hx l _ => hx.trans (outKept_writeLine _ _ _ _ _ x l)

theorem outKept_finishPut (own : op.owner = .io i k n) (put : byteAt op.desc 0 = 0x40) : OutKept s (finishFab s op) := by
  obtain ⟨late, word, st, -, -, e⟩ := finishFab_put (s := s) own put
  rw [e]
  have written : OutKept s (fiWrite (withTimeouts (withoutOps s op.owner) late) (fbResult op.desc) word false) :=
    OutKept.trans (t := withTimeouts (withoutOps s op.owner) late) (.of_eq rfl) (outKept_fiWrite ..)
  exact written.trans (.of_eq rfl)

/-! ### A source that can be read -/

theorem read_parts {r : Reach} {a m : Nat} (ok : (read s r a m).err = none) : canAccess s r a m = true ∧ spanPoison s.mem a m = false := by
  rw [Machine.read] at ok
  split at ok
  next h =>
    refine ⟨h, ?_⟩
    simp only [ite_eq_right_iff, reduceCtorEq, imp_false, Bool.or_eq_true, not_or, Bool.not_eq_true] at ok
    exact ok.1
  next => cases ok

/-- What a PUT reads is what memory holds, where it can be read. -/
theorem memRead_putView (ok : (read s .fi (fbLocal d) (fbLen d)).err = none) (host : List HostLine) (a m : Nat) :
    memRead (putView s d host).m a m = memRead s.mem a m := by
  have reach := (read_parts ok).1
  have bytes (x : Nat) : memByte (putView s d host).m x = memByte s.mem x := by
    refine List.foldlRecOn (motive := fun v : View => memByte v.m x = memByte s.mem x) (linesOf (fbLocal d) (fbLen d)) _ rfl ?_
    intro v hv l hl
    rw [viewLine, if_neg (region_of_canAccess reach hl)]
    split
    · dsimp only
      split
      · exact hv
      · exact hv
    · exact hv
  rw [memRead, memRead, List.map_congr_left fun x _ => bytes (a + x)]

/-- The lines of a part of a span that a unit reaches. -/
theorem lines_of_part {r : Reach} {a m off len : Nat} (reach : canAccess s r a m = true) (within : off + len ≤ m) {l : Nat}
    (hl : l ∈ linesOf (a + off) len) : region l ≠ .host ∧ canAccess s r l 64 = true := by
  have inside : l ∈ linesOf a m := by
    rw [mem_linesOf] at hl ⊢
    omega
  exact ⟨region_of_canAccess reach inside, canAccess_part reach inside le_rfl le_rfl (by decide)⟩

/-- A view of lines that the unit reaches meets no status. -/
theorem err_viewSpan {init : Nat} {r : Reach} {a m : Nat} (h : ∀ l ∈ linesOf a m, region l ≠ .host ∧ canAccess s r l 64 = true) :
    (viewSpan init r host (viewOf s) a m).err = none := by
  refine (List.foldlRecOn (motive := fun v : View => v.err = none ∧ ground v.s = ground s) (linesOf a m) _ ⟨rfl, rfl⟩ ?_).1
  rintro v ⟨none, same⟩ l hl
  obtain ⟨near, reach⟩ := h l hl
  refine ⟨?_, (ground_viewLine init r host v l).trans same⟩
  rw [viewLine, if_neg near, if_pos ((canAccess_of_ground same r l 64).trans reach)]
  exact none

theorem spanPoison_part {m : Mem} {a len off k : Nat} (h : spanPoison m a len = false) (within : off + k ≤ len) :
    spanPoison m (a + off) k = false := by
  by_cases hk : k = 0
  · simp [spanPoison, hk]
  · have whole : len ≠ 0 := by omega
    simp only [spanPoison, whole, hk, List.any_eq_false,
      List.mem_range, Bool.and_eq_false_iff, bne_eq_false_iff_eq, false_or, Bool.not_eq_true] at h ⊢
    intro i hi
    have line := h ((a + off) / 64 - a / 64 + i) (by omega)
    rwa [show a / 64 + ((a + off) / 64 - a / 64 + i) = (a + off) / 64 + i by omega] at line

/-- Where the source can be read and no line of DRAM is reported, no part of a PUT is bad. -/
theorem putBads_nil (hm : Memory.wf s.mem = true) (he : s.mr.dramErr = []) (hh : ∀ h ∈ host, region h.addr ≠ .dram)
    (ok : (read s .fi (fbLocal d) (fbLen d)).err = none) : putBads s d host = [] := by
  obtain ⟨reach, clear⟩ := read_parts ok
  have clean : Clean s (putView s d host) := clean_viewSpan hm he hh ⟨rfl, rfl, rfl, rfl⟩ fun l hl =>
    lines_of_part (off := 0) reach (by omega) hl
  rw [putBads, List.filterMap_eq_nil_iff]
  intro q hq
  obtain ⟨j, hj, rfl⟩ := List.mem_map.mp hq
  have within : fabPart (fbLen d) * j + min (fabPart (fbLen d)) (fbLen d - fabPart (fbLen d) * j) ≤ fbLen d := by
    have small : fabPart (fbLen d) * j ≤ fbLen d := by
      have count := List.mem_range.mp hj
      simp only [cdiv] at count
      have := (Nat.le_div_iff_mul_le (Nat.pos_of_ne_zero fun z => by rw [z, Nat.div_zero] at count; exact absurd count (Nat.not_lt_zero j))).mp
        (Nat.succ_le_of_lt count)
      rw [Nat.succ_mul, Nat.mul_comm j] at this
      omega
    omega
  rw [putBad, err_viewSpan fun l hl => lines_of_part reach within hl, clean.view]
  dsimp only
  rw [spanPoison_part clear within]
  rfl

end Sys2Proof.Laws
end

section
/-! PROOFS. PUT and GET from their start until the fabric has settled (O54). -/

namespace Sys2Proof.Laws

open Sys2Proof Sys2Proof.Machine
set_option Elab.async false

variable {s t : State} {i k fi q : Nat} {o : NextOp} {host : List HostLine} {loc : OpLoc}

/-! ## PUT and GET (R431) -/

/-- The state in which an op has started in its list. -/
def begunAt (s : State) (o : NextOp) : State := startIo s o.tok.stream o.tok.phase o

/-- A PUT has started. -/
def putStart (s : State) (fi : Nat) (o : NextOp) (host : List HostLine) : State :=
  startPut (begunAt s o) (ioOwner o) fi o.tok.stream o.tok.phase o.desc host

/-- A GET has started. -/
def getStart (s : State) (fi : Nat) (o : NextOp) : State :=
  startGet (begunAt s o) (ioOwner o) fi o.tok.stream o.tok.phase o.desc

theorem execPut_routed (hn : fabNext loc s 0x40 = some o) (check : fabCheck s o.tok.stream o.desc = none)
    (route : fabRoute s (gNode (fbRemote o.desc)) = some fi) : exec (.put loc host) s = .next (settleFab (putStart s fi o host)) := by
  show execPut loc host s = _
  rw [execPut, hn]
  dsimp only
  rw [check]
  dsimp only
  rw [route]
  rfl

theorem execGet_routed (hn : fabNext loc s 0x41 = some o) (check : fabCheck s o.tok.stream o.desc = none)
    (route : fabRoute s (gNode (fbRemote o.desc)) = some fi) : exec (.get loc) s = .next (settleFab (getStart s fi o)) := by
  show execGet loc s = _
  rw [execGet, hn]
  dsimp only
  rw [check]
  dsimp only
  rw [route]
  rfl

/-- The state in which the PUT has read its source and is noted. -/
def putBase (s : State) (fi : Nat) (o : NextOp) (host : List HostLine) : State :=
  putNoted (begunAt s o) (ioOwner o) fi o.tok.stream o.tok.phase o.desc host

/-- The op that the PUT notes. -/
def putOpOf (s : State) (fi : Nat) (o : NextOp) (host : List HostLine) : FabOp :=
  putOp (begunAt s o) (ioOwner o) fi o.tok.stream o.tok.phase o.desc host

/-- The op that the GET notes. -/
def getOpOf (s : State) (fi : Nat) (o : NextOp) : FabOp := newFab (begunAt s o) (ioOwner o) fi o.tok.stream o.tok.phase o.desc

theorem noted_put (s : State) (fi : Nat) (o : NextOp) (host : List HostLine) : Noted s (putOpOf s fi o host) (putBase s fi o host) := by
  have aside := fabAside_viewSpan initFab .fi host (viewOf (begunAt s o)) (fbLocal o.desc) (fbLen o.desc)
  refine ⟨?_, aside.windowSet, aside.coll, nowNs_eq (s := begunAt s o) (t := (putView (begunAt s o) o.desc host).s) (by simp [putView, viewOf])⟩
  have same : (putView (begunAt s o) o.desc host).s.fab = s.fab := aside.fab
  simp only [putBase, putNoted, noteFab, putOpOf, same]

theorem noted_get (s : State) (fi : Nat) (o : NextOp) :
    Noted s (getOpOf s fi o) (noteFab (begunAt s o) (getOpOf s fi o)) := ⟨rfl, rfl, rfl, rfl⟩

theorem putBase_bytes (s : State) (fi : Nat) (o : NextOp) (host : List HostLine) : SameBytes s (putBase s fi o host) :=
  SameBytes.trans (t := begunAt s o) (.of_mem rfl) (SameBytes.trans (t := (putView (begunAt s o) o.desc host).s)
    (sameBytes_viewSpan initFab .fi host (viewOf (begunAt s o)) (fbLocal o.desc) (fbLen o.desc)) (.of_mem rfl))

theorem putBase_cmd (s : State) (fi : Nat) (o : NextOp) (host : List HostLine) : (putBase s fi o host).cmd = (begunAt s o).cmd :=
  cmd_eq (s := begunAt s o) (t := (putView (begunAt s o) o.desc host).s) (by simp [putView, viewOf])

/-- Where the data of a GET is to land. -/
theorem get_receiver {x d : Bytes} {len : Nat} (left : LeftAs t q (getHead s d 0 len) [] x) :
    le x 42 8 = if fbVia d then fbDest d else s.fab.nodeId.toNat * 2 ^ 48 + fbLocal d := by
  have dest : fbDest d < 256 ^ 8 := le_lt d 48 8
  have near : fbLocal d < 256 ^ 6 := le_lt d 8 6
  have node := s.fab.nodeId.isLt
  have landing := left.kindBytes (if fbVia d then fbDest d + 0 else s.fab.nodeId.toNat * 2 ^ 48 + fbLocal d + 0)
    (by split <;> omega) rfl
  rwa [Nat.add_zero, Nat.add_zero] at landing

section Started
variable (hs : Sound s) (quiet : FabQuiet s)
include hs quiet

/-- What has started of an op stays in its list while the fabric settles. -/
theorem getIo_settled {op : Nat} (nx : NextIo s i k op o) (hw : Holds (opWatch s (i, k, o.idx)) (begunAt s o) → Holds (opWatch s (i, k, o.idx)) t) :
    (getIo (settleFab t) i k o.idx).isSome = true := by
  have there : (getIo (begunAt s o) i k o.idx).isSome = true := by
    rw [begunAt, nx.stream, nx.tokPhase]
    exact getIo_startIo_isSome nx.phase o
  exact getIo_of_holds (x := (i, k, o.idx))
    ((settleFab_watched t).mpr (.inl (hw (holds_opWatch hs.ports quiet.idle.fired rfl rfl there))))

theorem put_there {op : Nat} (nx : NextIo s i k op o) : (getIo (settleFab (putStart s fi o host)) i k o.idx).isSome = true :=
  getIo_settled hs quiet nx fun h => (startPut_watched ..).mpr (.inl h)

theorem get_there {op : Nat} (nx : NextIo s i k op o) : (getIo (settleFab (getStart s fi o)) i k o.idx).isSome = true :=
  getIo_settled hs quiet nx fun h => (startGet_watched ..).mpr (.inl h)

section Far
variable (far : localNode s (gNode (fbRemote o.desc)) = false) (some_ : fbLen o.desc ≠ 0)
include far some_

/-- A PUT with acknowledgement to another module runs, and leaves memory. -/
theorem put_acked (ack : fbAck o.desc = true) : settleFab (putStart s fi o host) = putStart s fi o host ∧
    putOpOf s fi o host ∈ (putStart s fi o host).fab.ops ∧ SameBytes s (putStart s fi o host) := by
  obtain ⟨rests, there, mem⟩ := rests_with_packets (f := putPkt (begunAt s o) (ioOwner o) fi o.desc host)
    (l := (pktCuts (fbLen o.desc)).zipIdx) (fi := fi) hs.ports quiet (noted_put s fi o host) far
    (fun x c => ⟨_, c.2, _, by rw [putPkt, if_pos ack]; rfl⟩) (by simpa using pktCuts_ne_nil some_)
  exact ⟨rests, there, (putBase_bytes s fi o host).trans (.of_mem mem)⟩

/-- A GET from another module runs, and leaves memory. -/
theorem get_runs : settleFab (getStart s fi o) = getStart s fi o ∧ getOpOf s fi o ∈ (getStart s fi o).fab.ops ∧
    (getStart s fi o).mem = s.mem :=
  rests_with_packets (f := getPkt (begunAt s o) (ioOwner o) fi o.desc) (l := (pktCuts (fbLen o.desc)).zipIdx) (fi := fi) hs.ports quiet
    (noted_get s fi o) far (fun x c => ⟨_, c.2, _, rfl⟩) (by simpa using pktCuts_ne_nil some_)

end Far

/-! ### The one packet of a short transfer -/

section Short
variable (some_ : fbLen o.desc ≠ 0) (short : fbLen o.desc ≤ pktMax)
include some_ short

omit hs quiet in
theorem putStart_one : putStart s fi o host =
    putPkt (begunAt s o) (ioOwner o) fi o.desc host (putBase s fi o host) ((0, fbLen o.desc), 0) := by
  rw [putStart, startPut_eq, pktCuts_one some_ short]
  rfl

omit hs quiet in
theorem getStart_one : getStart s fi o =
    getPkt (begunAt s o) (ioOwner o) fi o.desc (noteFab (begunAt s o) (getOpOf s fi o)) ((0, fbLen o.desc), 0) := by
  rw [getStart, startGet_eq, pktCuts_one some_ short]
  rfl

theorem get_left {dl : Bool} (way : WayOut s (gNode (fbRemote o.desc)) 0 0 true q dl) :
    ∃ x, LeftAs (settleFab (getStart s fi o)) q (getHead s o.desc 0 (fbLen o.desc)) [] x := by
  have noted := noted_get s fi o
  obtain ⟨rests, -, -⟩ := get_runs (fi := fi) hs quiet way.far some_
  rw [rests, getStart_one some_ short]
  exact leftAs_injectPkt (h := getHead s o.desc 0 (fbLen o.desc)) (payload := []) (tagged := true) (s := noteFab (begunAt s o) (getOpOf s fi o))
    hs.ports quiet.idle.queues (noted.wayOut hs.ports way) (fun _ _ => rfl) rfl (by simp [getHead, pktPlain])
    (show gNode _ < 2 ^ 16 by simp only [gNode, bits]; omega) (show gLocal _ + 0 < 2 ^ 48 by simp only [gLocal, bits]; omega)
    (show fbLen o.desc < 8192 by simp only [pktMax] at short; omega)

variable (ok : (read s .fi (fbLocal o.desc) (fbLen o.desc)).err = none)
include ok

/-- The packet of a short PUT as it is put on its way. -/
theorem put_packet {dl : Bool} (way : WayOut s (gNode (fbRemote o.desc)) 0 (fbLen o.desc) (fbAck o.desc) q dl) :
    ∃ x, LeftAs (putStart s fi o host) q (putHead (begunAt s o) o.desc host 0 (fbLen o.desc))
      (memRead s.mem (fbLocal o.desc) (fbLen o.desc)) x := by
  have noted := noted_put s fi o host
  have payload : memRead (putView (begunAt s o) o.desc host).m (fbLocal o.desc + 0) (fbLen o.desc) =
      memRead s.mem (fbLocal o.desc) (fbLen o.desc) := memRead_putView (s := begunAt s o) ok host _ _
  have len : (memRead s.mem (fbLocal o.desc) (fbLen o.desc)).length = fbLen o.desc := by simp [memRead]
  rw [putStart_one some_ short, putPkt]
  dsimp only
  rw [payload]
  refine leftAs_injectPkt (h := putHead (begunAt s o) o.desc host 0 (fbLen o.desc)) (tagged := fbAck o.desc) (dl := dl)
    (s := putBase s fi o host) ?_ ?_ ?_ ?_
    rfl (by simp [putHead, pktPlain]) (show gNode _ < 2 ^ 16 by simp only [gNode, bits]; omega)
    (show gLocal _ + 0 < 2 ^ 48 by simp only [gLocal, bits]; omega) (show fbLen o.desc < 8192 by simp only [pktMax] at short; omega)
  · rw [noted.fab]
    exact hs.ports
  · intro p
    rw [noted.getFab]
    exact quiet.idle.queues p
  · rw [len]
    exact noted.wayOut hs.ports way
  · intro part _
    split at part
    next ack => exact ack
    next => cases part

/-- What a posted PUT leaves. -/
theorem put_posted {dl : Bool} (op : byteAt o.desc 0 = 0x40) (ack : fbAck o.desc = false)
    (way : WayOut s (gNode (fbRemote o.desc)) 0 (fbLen o.desc) false q dl) :
    SendsOnly (putBase s fi o host) (putStart s fi o host) ∧
      settleFab (putStart s fi o host) = (if fabBusy (putStart s fi o host) (ioOwner o) then putStart s fi o host
        else finishFab (putStart s fi o host) (putOpOf s fi o host)) ∧
      ((∀ g ∈ s.fab.tags, g.owner ≠ ioOwner o) → fabBusy (putStart s fi o host) (ioOwner o) = false) := by
  have payload : memRead (putView (begunAt s o) o.desc host).m (fbLocal o.desc + 0) (fbLen o.desc) =
      memRead s.mem (fbLocal o.desc) (fbLen o.desc) := memRead_putView (s := begunAt s o) ok host _ _
  have sends : putStart s fi o host = injectPkt (putBase s fi o host) fi (gNode (fbRemote o.desc)) 0
      (buildPkt s.fab.nodeId.toNat (putHead (begunAt s o) o.desc host 0 (fbLen o.desc)) (memRead s.mem (fbLocal o.desc) (fbLen o.desc))) none
      (classNs (begunAt s o) 0 (fbTimeout o.desc)) (some (ioOwner o)) := by
    rw [putStart_one some_ short, putPkt]
    dsimp only
    rw [payload, ack]
    rfl
  rw [sends]
  refine posted_settles (op := putOpOf s fi o host) (len := fbLen o.desc) hs.ports quiet (noted_put s fi o host) way ?_ ?_
  · rw [buildPkt_length]
    simp [memRead]
  · show byteAt o.desc 0 ≠ 0x42
    rw [op]
    decide

/-- The packet of a short PUT has left when the fabric has settled. -/
theorem put_left {dl : Bool} (op : byteAt o.desc 0 = 0x40)
    (way : WayOut s (gNode (fbRemote o.desc)) 0 (fbLen o.desc) (fbAck o.desc) q dl) :
    ∃ x, LeftAs (settleFab (putStart s fi o host)) q (putHead (begunAt s o) o.desc host 0 (fbLen o.desc))
      (memRead s.mem (fbLocal o.desc) (fbLen o.desc)) x := by
  obtain ⟨x, left⟩ := put_packet (fi := fi) (host := host) hs quiet some_ short ok way
  have kept : OutKept (putStart s fi o host) (settleFab (putStart s fi o host)) := by
    cases ack : fbAck o.desc with
    | true =>
      obtain ⟨rests, -, -⟩ := put_acked (fi := fi) (host := host) hs quiet way.far some_ ack
      rw [rests]
      exact .refl _
    | false =>
      rw [ack] at way
      obtain ⟨-, settled, -⟩ := put_posted (fi := fi) (host := host) hs quiet some_ short ok op ack way
      rw [settled]
      split
      · exact .refl _
      · exact outKept_finishPut (op := putOpOf s fi o host) rfl op
  exact ⟨x, { left with out := kept.out _ left.out }⟩

end Short

end Started

end Sys2Proof.Laws
end

section
/-! PROOFS. AWAIT, its time, and ROLE_SET (O54). -/

namespace Sys2Proof.Laws

open Sys2Proof Sys2Proof.Machine
set_option Elab.async false

variable {s t : State} {i k j n : Nat} {o : NextOp} {host : List HostLine} {loc : OpLoc}

/-! ## AWAIT (R432) -/

theorem find?_map_of_idx {f : IoOp → IoOp} (hf : ∀ x, (f x).idx = x.idx) (l : List IoOp) (j : Nat) :
    (l.map f).find? (·.idx == j) = (l.find? (·.idx == j)).map f := by
  have same : ((fun x : IoOp => x.idx == j) ∘ f) = (fun x => x.idx == j) := funext fun x => by simp [hf]
  rw [List.find?_map, same]

/-- A counter that comes to its value ends the AWAITs that wait for it. -/
theorem getIo_counterSeen (s : State) (c i k j : Nat) : getIo (counterSeen s c) i k j = (getIo s i k j).map (awaitDone s c) := by
  have stream : getStream (counterSeen s c) i = (getStream s i).map fun r =>
      { r with running := r.running.map (fun x => { x with io := x.io.map (awaitDone s c) }) } :=
    getStream_of_map (g := fun _ r => { r with running := r.running.map (fun x => { x with io := x.io.map (awaitDone s c) }) }) rfl i
  simp only [getIo, getPhase, stream]
  cases getStream s i with
  | none => rfl
  | some r =>
    simp only [Option.map_some, Option.bind_some, List.find?_map]
    show ((r.running.find? (·.num == k)).map _).bind _ = _
    cases r.running.find? (·.num == k) with
    | none => rfl
    | some x => exact find?_map_of_idx (awaitDone_idx s c) x.io j

theorem bits_le_short (d : Bytes) (i : Nat) : bits (le d i 2) 0 12 = bits (le d i 8) 0 12 := by
  have split : (d.drop i).take 8 = (d.drop i).take 2 ++ ((d.drop i).drop 2).take 6 := List.take_add (i := 2) (j := 6)
  by_cases long : 2 ≤ (d.drop i).length
  · have two : ((d.drop i).take 2).length = 2 := by rw [List.length_take]; omega
    simp only [bits, le, Nat.shiftRight_zero]
    rw [split, leNat_append, two]
    omega
  · rw [le, le, List.take_of_length_le (by omega), List.take_of_length_le (by omega)]

theorem fabNext_io {op : Nat} (h : fabNext loc s op = some o) : ∃ id ph, loc = .io id ph := by
  cases loc with
  | io id ph => exact ⟨id, ph, rfl⟩
  | core c => cases h

section Await
variable (hn : fabNext loc s 0x42 = some o)
  (zero : reservedZero o.desc (hdrFields ++ [fldBits 8 0 12, fld 10 2, fld 12 2]) = true)
  (ctr : ctrCheck s o.tok.stream (opHdr o.desc) = true) (range : ctrInRange s o.tok.stream (field o.desc 8 0 12) = true) (on : s.fab.en = true)
include hn zero ctr range on

theorem execAwait_starts : exec (.await loc) s =
    .next (counterSeen (noteFab (begunAt s o) (newFab (begunAt s o) (ioOwner o) 0 o.tok.stream o.tok.phase o.desc)) (field o.desc 8 0 12)) := by
  have passed : firstFail [failIf (!(reservedZero o.desc (hdrFields ++ [fldBits 8 0 12, fld 10 2, fld 12 2]))) Status.badReserved,
      failIf (!(ctrCheck s o.tok.stream (opHdr o.desc)) || !(ctrInRange s o.tok.stream (field o.desc 8 0 12))) .badField] = none := by
    rw [zero, ctr, range]
    rfl
  show execAwait loc s = _
  rw [execAwait, hn]
  dsimp only
  rw [passed, on]
  rfl

end Await

/-- An AWAIT that has begun has ended at once where its counter has come to its value. -/
theorem awaitDone_begun (s : State) (await : byteAt o.desc 0 = 0x42) :
    (awaitDone s (field o.desc 8 0 12) (begunIo o)).finished = !(waitHolds s (field o.desc 8 0 12) (le o.desc 10 2)) := by
  have same : bits (le o.desc 8 2) 0 12 = field o.desc 8 0 12 := bits_le_short o.desc 8
  simp only [awaitDone, begunIo, await, same, beq_self_eq_true, Bool.not_false, Bool.and_true, Bool.true_and]
  split
  next h => exact h.symm
  next h => exact ((Bool.not_eq_true _).mp h).symm

/-! ### AWAITs whose time has run out -/

/-- An op that has ended with TIMEOUT, if it had no status yet. -/
def timedOut (x : IoOp) : IoOp := { x with status := if x.status = .ok then .timeout else x.status, finished := true }

/-- An AWAIT of the fabric ends. -/
def endAwait (x : State) (o : FabOp) : State :=
  let x1 := withoutOps x o.owner
  match o.owner with
  | .io a b i => (match getIo x a b i with
    | some q => if q.finished then x1 else endIo x1 a b i .timeout
    | none => x1)
  | _ => x1

/-- The AWAITs of a place whose time has run out. -/
def dueAwaits (s : State) (i k : Nat) : List FabOp := s.fab.ops.filter (fun o => o.stream == i && o.phase == k && byteAt o.desc 0 == 0x42 &&
  decide (o.started + classNs s 2 (le o.desc 12 2) ≤ s.nowNs))

theorem execAwaitTimeout_eq (id : StreamId) (ph : PhaseNo) (s : State) : exec (.awaitTimeout (.io id ph)) s =
    .next ((dueAwaits s id.toNat ph.toNat).foldl endAwait s) := rfl

theorem endAwait_cases (x : State) (f : FabOp) : endAwait x f = withoutOps x f.owner ∨
    ∃ a b i q, f.owner = .io a b i ∧ getIo x a b i = some q ∧ q.finished = false ∧ endAwait x f = endIo (withoutOps x f.owner) a b i .timeout := by
  unfold endAwait
  dsimp only
  split
  next a b i own =>
    split
    next q hq =>
      split
      · exact .inl rfl
      next run => exact .inr ⟨a, b, i, q, own, hq, (Bool.not_eq_true _).mp run, rfl⟩
    next => exact .inl rfl
  next => exact .inl rfl

theorem endAwait_mem (x : State) (f : FabOp) : (endAwait x f).mem = x.mem := by
  obtain e | ⟨a, b, i, q, -, -, -, e⟩ := endAwait_cases x f <;> rw [e] <;> rfl

theorem endAwait_ops (x : State) (f : FabOp) : (endAwait x f).fab.ops = x.fab.ops.filter (fun g => g.owner != f.owner) := by
  obtain e | ⟨a, b, i, q, -, -, -, e⟩ := endAwait_cases x f <;> rw [e] <;> rfl

theorem getIo_endIo_self (s : State) (i k j : Nat) (st : Status) : getIo (endIo s i k j st) i k j =
    (getIo s i k j).map fun o => { o with status := if o.status = .ok then st else o.status, finished := true } := by
  let f : IoOp → IoOp := fun o => if o.idx = j then { o with status := if o.status = .ok then st else o.status, finished := true } else o
  have idx (x : IoOp) : (f x).idx = x.idx := by
    dsimp only [f]
    split <;> rfl
  rw [getIo, endIo, modIo, getPhase_modPhase_self (f := fun x : PhaseRun => { x with io := x.io.map f }) (fun _ => rfl), getIo]
  cases getPhase s i k with
  | none => rfl
  | some ph =>
    rw [Option.map_some, Option.bind_some, Option.bind_some]
    dsimp only
    rw [find?_map_of_idx idx]
    cases hf : ph.io.find? (·.idx == j) with
    | none => rfl
    | some y =>
      have own : y.idx = j := by simpa using List.find?_some hf
      simp only [Option.map_some, f, if_pos own]

theorem getIo_endIo_other {a b c : Nat} (st : Status) (h : ¬(i = a ∧ k = b ∧ j = c)) :
    getIo (endIo s a b c st) i k j = getIo s i k j := by
  let f : IoOp → IoOp := fun o => if o.idx = c then { o with status := if o.status = .ok then st else o.status, finished := true } else o
  have idx (x : IoOp) : (f x).idx = x.idx := by
    dsimp only [f]
    split <;> rfl
  by_cases place : i = a ∧ k = b
  · obtain ⟨rfl, rfl⟩ := place
    have other : j ≠ c := fun e => h ⟨rfl, rfl, e⟩
    rw [getIo, endIo, modIo, getPhase_modPhase_self (f := fun x : PhaseRun => { x with io := x.io.map f }) (fun _ => rfl), getIo]
    cases getPhase s i k with
    | none => rfl
    | some ph =>
      rw [Option.map_some, Option.bind_some, Option.bind_some]
      dsimp only
      rw [find?_map_of_idx idx]
      cases hf : ph.io.find? (·.idx == j) with
      | none => rfl
      | some y =>
        have own : y.idx = j := by simpa using List.find?_some hf
        simp only [Option.map_some, f, if_neg (own.trans_ne other)]
  · rw [getIo, endIo, modIo, getPhase_modPhase_other (f := fun x : PhaseRun => { x with io := x.io.map f }) (fun _ => rfl) place, getIo]

/-- What an end of an AWAIT leaves of an I/O op. -/
theorem getIo_endAwait {y : IoOp} (h : getIo s i k j = some y) (f : FabOp) :
    (y.finished = true → getIo (endAwait s f) i k j = some y) ∧
    (y.finished = false → getIo (endAwait s f) i k j = some y ∨ getIo (endAwait s f) i k j = some (timedOut y)) ∧
    (y.finished = false → f.owner = .io i k j → getIo (endAwait s f) i k j = some (timedOut y)) := by
  by_cases own : f.owner = .io i k j
  · have ended : endAwait s f = if y.finished then withoutOps s f.owner else endIo (withoutOps s f.owner) i k j .timeout := by
      simp only [endAwait, own, h]
    cases fin : y.finished with
    | true =>
      rw [ended, fin, if_pos rfl]
      exact ⟨fun _ => h, nofun, nofun⟩
    | false =>
      have out : getIo (endAwait s f) i k j = some (timedOut y) := by
        rw [ended, fin, if_neg Bool.false_ne_true, getIo_endIo_self, show getIo (withoutOps s f.owner) i k j = some y from h]
        rfl
      exact ⟨nofun, fun _ => .inr out, fun _ _ => out⟩
  · have same : getIo (endAwait s f) i k j = some y := by
      obtain e | ⟨a, b, c, q, hf, -, -, e⟩ := endAwait_cases s f
      · rw [e]
        exact h
      · rw [e, getIo_endIo_other]
        · exact h
        · rintro ⟨rfl, rfl, rfl⟩
          exact own hf
    exact ⟨fun _ => same, fun _ => .inl same, fun _ e => absurd e own⟩

section Due
variable (s : State) (l : List FabOp)

theorem endAwaits_mem : (l.foldl endAwait s).mem = s.mem :=
  List.foldlRecOn (motive := fun x => x.mem = s.mem) l _ rfl fun x hx f _ => (endAwait_mem x f).trans hx

theorem endAwaits_ops {f : FabOp} (hf : f ∈ l) : ∀ g ∈ (l.foldl endAwait s).fab.ops, g.owner ≠ f.owner := by
  obtain ⟨pre, post, rfl⟩ := List.append_of_mem hf
  rw [List.foldl_append, List.foldl_cons]
  refine List.foldlRecOn (motive := fun x : State => ∀ g ∈ x.fab.ops, g.owner ≠ f.owner) post _ ?_ ?_
  · intro g hg
    rw [endAwait_ops] at hg
    simpa using (List.mem_filter.mp hg).2
  · intro x hx y _ g hg
    rw [endAwait_ops] at hg
    exact hx g (List.mem_filter.mp hg).1

theorem getIo_endAwaits_finished {y : IoOp} (h : getIo s i k j = some y) (fin : y.finished = true) :
    getIo (l.foldl endAwait s) i k j = some y :=
  List.foldlRecOn (motive := fun x => getIo x i k j = some y) l _ h fun _ hx f _ => (getIo_endAwait hx f).1 fin

theorem getIo_endAwaits_unfinished {y : IoOp} (h : getIo s i k j = some y) (run : y.finished = false) :
    getIo (l.foldl endAwait s) i k j = some y ∨ getIo (l.foldl endAwait s) i k j = some (timedOut y) := by
  refine List.foldlRecOn (motive := fun x => getIo x i k j = some y ∨ getIo x i k j = some (timedOut y)) l _ (.inl h) ?_
  rintro x (hx | hx) f -
  · exact (getIo_endAwait hx f).2.1 run
  · exact .inr ((getIo_endAwait hx f).1 rfl)

/-- The op of an AWAIT whose time has run out has ended. -/
theorem getIo_endAwaits_due {y : IoOp} {f : FabOp} (hf : f ∈ l) (own : f.owner = .io i k j) (h : getIo s i k j = some y) :
    getIo (l.foldl endAwait s) i k j = some (if y.finished then y else timedOut y) := by
  cases fin : y.finished with
  | true => exact getIo_endAwaits_finished s l h fin
  | false =>
    obtain ⟨pre, post, rfl⟩ := List.append_of_mem hf
    rw [List.foldl_append, List.foldl_cons]
    refine getIo_endAwaits_finished _ post ?_ rfl
    rcases getIo_endAwaits_unfinished s pre h fin with same | out
    · exact (getIo_endAwait same f).2.2 fin own
    · exact (getIo_endAwait out f).1 rfl

end Due

/-! ### The op of an AWAIT completes -/

/-- With its op, an AWAIT is out of the fabric. -/
theorem completeIoOp_await {x : IoOp} (h : getIo s i k j = some x) (fin : x.finished = true) (await : byteAt x.desc 0 = 0x42) :
    ∀ f ∈ (completeIoOp s i k j).fab.ops, byteAt f.desc 0 = 0x42 → f.owner ≠ .io i k j := by
  have left : OpsIn (dropAwait s (.io i k j)).fab.ops (completeIoOp s i k j) := by
    simp only [completeIoOp, h, fin, await, beq_self_eq_true, if_true]
    exact (fabricStops_begins ..).mpr (.inl ((completeIo_begins ..).mpr (.inl fun _ hf => hf)))
  intro f hf hd own
  have kept := (List.mem_filter.mp (left f hf)).2
  simp [hd, own] at kept

/-! ## ROLE_SET (R433) -/

theorem smGet_foldl_smSet {α : Type} [DecidableEq α] {d v : α} (l : List Nat) {m : List (Nat × α)} (hk : keysRise m = true) (n : Nat) :
    smGet d (l.foldl (fun m n => smSet d m n v) m) n = if n ∈ l then v else smGet d m n := by
  induction l generalizing m with
  | nil => simp
  | cons x l ih =>
    rw [List.foldl_cons, ih (keysRise_smSet hk)]
    by_cases hn : n = x
    · subst hn
      simp [get_set_self hk]
    · rw [get_set_other hk hn]
      simp [hn]

theorem smGet_bitList {m : List (Nat × BitVec 16)} (hk : keysRise m = true) (wide map : Nat) (e : BitVec 16) {n : Nat} (hn : n < wide) :
    smGet 0 ((bitList wide map).foldl (fun m n => smSet 0 m n e) m) n = if bit map n then e else smGet 0 m n := by
  rw [smGet_foldl_smSet _ hk]
  simp only [mem_bitList, hn, true_and]

theorem setEpochs_epochs (hk : keysRise s.fab.epochs = true) (map : Nat) (e : BitVec 16) {n : Nat} (hn : n < 4096) :
    smGet 0 (setEpochs s map e).fab.epochs n = if bit map n then e else smGet 0 s.fab.epochs n := by
  dsimp only [setEpochs]
  rw [smGet_bitList hk _ map e hn]

/-- The state in which a ROLE_SET has ended. -/
def rolesSet (s : State) (o : NextOp) (map : Nat) (e : BitVec 16) : State :=
  endIo (setEpochs (begunAt s o) map e) o.tok.stream o.tok.phase o.idx .ok

theorem endIo_mem (s : State) (i k j : Nat) (st : Status) : (endIo s i k j st).mem = s.mem := rfl

theorem endIo_epochs (s : State) (i k j : Nat) (st : Status) : (endIo s i k j st).fab.epochs = s.fab.epochs := rfl

theorem setEpochs_mem (s : State) (map : Nat) (e : BitVec 16) : (setEpochs s map e).mem = s.mem := by rw [setEpochs]

theorem setEpochs_cmd (s : State) (map : Nat) (e : BitVec 16) : (setEpochs s map e).cmd = s.cmd := by rw [setEpochs]

theorem rolesSet_mem (s : State) (o : NextOp) (map : Nat) (e : BitVec 16) : (rolesSet s o map e).mem = s.mem :=
  (endIo_mem (setEpochs (begunAt s o) map e) ..).trans (setEpochs_mem (begunAt s o) map e)

theorem rolesSet_epochs (s : State) (o : NextOp) (map : Nat) (e : BitVec 16) :
    (rolesSet s o map e).fab.epochs = (setEpochs (begunAt s o) map e).fab.epochs :=
  endIo_epochs (setEpochs (begunAt s o) map e) ..

theorem rolesSet_finished {ph : PhaseRun} (stream : o.tok.stream = i) (phase : o.tok.phase = k) (hp : getPhase s i k = some ph)
    (map : Nat) (e : BitVec 16) : (getIo (rolesSet s o map e) i k o.idx).map (·.finished) = some true := by
  rw [rolesSet, stream, phase]
  refine endIo_finished (s := setEpochs (begunAt s o) map e) ?_
  rw [ioOps, getPhase_of_cmd (setEpochs_cmd ..), ← ioOps, begunAt, stream, phase]
  exact ioKnown_startIo hp o

section RoleSet
variable (hs : Sound s) (hn : fabNext loc s 0x43 = some o)
  (zero : reservedZero o.desc (hdrFields ++ [fld 8 6, fld 14 2]) = true) (ctr : ctrCheck s o.tok.stream (opHdr o.desc) = true)
  (line : le o.desc 8 6 % 64 = 0) (addr : fiAddrOk s (le o.desc 8 6) 512 = true) (on : s.fab.en = true)
  (ok : (read s .fi (le o.desc 8 6) 512).err = none) (he : s.mr.dramErr = []) (hh : ∀ h ∈ host, region h.addr ≠ .dram)
include hs hn zero ctr line addr on ok he hh

theorem execRoleSet_sets : ∃ v : View, Clean s v ∧ v.s.fab = s.fab ∧ v.s.cmd = s.cmd ∧ exec (.roleSet ⟨loc, host⟩) s =
    .next (rolesSet v.s o (memLe s (le o.desc 8 6) 512) (BitVec.ofNat 16 (le o.desc 14 2))) := by
  obtain ⟨reach, clear⟩ := read_parts ok
  have lines : ∀ l ∈ linesOf (le o.desc 8 6) 512, region l ≠ .host ∧ canAccess s .fi l 64 = true := fun l hl =>
    lines_of_part (off := 0) reach (by omega) hl
  have clean : Clean s (viewSpan initFab .fi host (viewOf s) (le o.desc 8 6) 512) := clean_viewSpan hs.mem he hh ⟨rfl, rfl, rfl, rfl⟩ lines
  have aside := fabAside_viewSpan initFab .fi host (viewOf s) (le o.desc 8 6) 512
  have passed : roleCheck s o = none := by
    simp only [roleCheck, zero, ctr, line, addr, on]
    rfl
  refine ⟨viewSpan initFab .fi host (viewOf s) (le o.desc 8 6) 512, clean, aside.fab, cmd_eq (s := s) (by simp [viewOf]), ?_⟩
  show execRoleSet ⟨loc, host⟩ s = _
  rw [execRoleSet]
  dsimp only
  rw [hn]
  dsimp only
  rw [passed]
  dsimp only
  rw [err_viewSpan lines, clean.view, clear]
  rfl

end RoleSet

end Sys2Proof.Laws
end

section
/-! PROOFS. PUT, GET, AWAIT and ROLE_SET (O54). -/

namespace Sys2Proof.Laws

open Sys2Proof Sys2Proof.Machine
set_option Elab.async false

variable {s : State} {i k q fi : Nat} {o : NextOp} {host : List HostLine} {loc : OpLoc}

theorem getIo_of_cmd {t : State} (h : t.cmd = s.cmd) (i k j : Nat) : getIo t i k j = getIo s i k j := by
  rw [getIo, getPhase_of_cmd h, getIo]

theorem getIo_fiWrite (s : State) (a : Nat) (bs : Bytes) (poison : Bool) (i k j : Nat) :
    getIo (fiWrite s a bs poison) i k j = getIo s i k j := getIo_of_cmd (cmd_eq (by simp)) i k j

/-- An end with a result changes the bytes of the result only. -/
theorem sameMem_result (hm : Memory.wf s.mem = true) (w : FabOwner) (late a : Nat) (bs : Bytes) (i k j : Nat) (st : Status) :
    SameMem s (endIo (fiWrite (withTimeouts (withoutOps s w) late) a bs false) i k j st) [(a, bs.length)] :=
  (stores_writeSpan (s := withTimeouts (withoutOps s w) late) hm initFab .fi a bs fun _ => false).same

theorem getIo_withoutOps (s : State) (w : FabOwner) (late i k j : Nat) :
    getIo (withTimeouts (withoutOps s w) late) i k j = getIo s i k j := rfl

theorem awaits_mem (s : State) (f : FabOp) (c : Nat) : (counterSeen (noteFab s f) c).mem = s.mem := rfl

/-- The op of a posted PUT ends with its packet: it is out of the fabric, its result is written, and it has ended with OK. -/
theorem put_ends {dl : Bool} (hs : Sound s) (quiet : FabQuiet s) (nx : NextIo s i k 0x40 o) (some_ : fbLen o.desc ≠ 0)
    (short : fbLen o.desc ≤ pktMax) (ok : (read s .fi (fbLocal o.desc) (fbLen o.desc)).err = none) (he : s.mr.dramErr = [])
    (hh : ∀ h ∈ host, region h.addr ≠ .dram) (ack : fbAck o.desc = false) (none : getIo s i k o.idx = none)
    (tagless : ∀ g ∈ s.fab.tags, g.owner ≠ ioOwner o) (way : WayOut s (gNode (fbRemote o.desc)) 0 (fbLen o.desc) false q dl) :
    let t := settleFab (putStart s fi o host)
    (∀ f ∈ t.fab.ops, f.owner ≠ ioOwner o) ∧ SameMem s t [(fbResult o.desc, 8)] ∧
      (getIo t i k o.idx).map (fun x => (x.finished, x.status)) = some (true, .ok) := by
  obtain ⟨sent, settled, idle⟩ := put_posted (fi := fi) (host := host) hs quiet some_ short ok nx.opcode ack way
  rw [idle tagless, if_neg Bool.false_ne_true] at settled
  have good : failedParts (putOpOf s fi o host) = [] := by
    have bads : (putOpOf s fi o host).badParts = [] := putBads_nil (s := begunAt s o) hs.mem he hh ok
    have failed : (putOpOf s fi o host).failed = [] := rfl
    simp [failedParts, bads, failed]
  obtain ⟨late, word, st, eight, fine, ended⟩ := finishFab_put (s := putStart s fi o host) (op := putOpOf s fi o host) rfl nx.opcode
  have bytes : SameBytes s (putStart s fi o host) := (putBase_bytes s fi o host).trans (.of_mem sent.mem)
  have there : getIo (putStart s fi o host) i k o.idx = some (begunIo o) := by
    have cmd : (putStart s fi o host).cmd = (begunAt s o).cmd := sent.cmd.trans (putBase_cmd s fi o host)
    rw [getIo_of_cmd cmd, begunAt, nx.stream, nx.tokPhase]
    exact getIo_startIo nx.phase none
  dsimp only
  rw [settled]
  refine ⟨fun f hf => finishFab_ops hf, ?_, ?_⟩
  · rw [ended]
    refine sameMem_trans (bytes.sameMem _) ?_
    rw [← eight]
    exact sameMem_result (s := putStart s fi o host) (bytes.wf hs.mem) _ late _ word _ _ _ st
  · rw [ended, nx.stream, nx.tokPhase, getIo_endIo_self, fine good]
    rw [getIo_fiWrite, getIo_withoutOps, there]
    rfl

/-- Settles O54: the packets of a PUT or a GET leave or wait while the fabric rests with its op, a posted PUT ends with its packet, an
AWAIT ends with its counter or its time, and ROLE_SET takes the cores of its bitmap. -/
theorem fabricOps : Obligations.FabricOps := by
  intro id ph s o host hs quiet
  refine ⟨?_, ?_, ?_, ?_, ?_, ?_⟩
  · rintro hn ⟨check, route⟩
    have nx := nextIo_of_fabNext hn
    obtain ⟨fi, route⟩ := Option.isSome_iff_exists.mp route
    obtain ⟨some_, -, -⟩ := fbLen_of_fabCheck check
    refine ⟨_, execPut_routed hn check route, put_there hs quiet nx, fun far ack => ?_, fun short ok he => ?_, ?_⟩
    · obtain ⟨rests, there, bytes⟩ := put_acked (fi := fi) (host := host) hs quiet far some_ ack
      rw [rests]
      exact ⟨⟨_, there, rfl, rfl⟩, bytes.sameMem _⟩
    · intro q dl down far way assigned hop tag credits
      obtain ⟨x, left⟩ := put_left (fi := fi) (host := host) hs quiet some_ short ok nx.opcode ⟨far, way, assigned, ⟨down, hop⟩, tag, credits⟩
      exact ⟨x, left.out, left.kind, left.dst, left.addr, left.payload (by simp [putHead, pktPlain, memRead]), left.ack⟩
    · intro short ok he clean ack none tagless q dl way
      exact put_ends hs quiet nx some_ short ok he clean ack none tagless way
  · rintro hn ⟨check, route⟩
    have nx := nextIo_of_fabNext hn
    obtain ⟨fi, route⟩ := Option.isSome_iff_exists.mp route
    obtain ⟨some_, -, -⟩ := fbLen_of_fabCheck check
    refine ⟨_, execGet_routed hn check route, get_there hs quiet nx, fun far => ?_, fun short => ?_⟩
    · obtain ⟨rests, there, mem⟩ := get_runs (fi := fi) hs quiet far some_
      rw [rests]
      exact ⟨⟨_, there, rfl, rfl⟩, mem⟩
    · intro q dl down far way assigned hop tag credits
      obtain ⟨x, left⟩ := get_left (fi := fi) hs quiet some_ short ⟨far, way, assigned, ⟨down, hop⟩, fun _ => tag trivial, credits⟩
      exact ⟨x, left.out, left.kind, left.dst, left.addr, left.plen, get_receiver left⟩
  · intro hn zero ctr range on none
    have nx := nextIo_of_fabNext hn
    refine ⟨_, execAwait_starts hn zero ctr range on, ?_, awaits_mem (begunAt s o) _ _⟩
    have there : getIo (begunAt s o) id.toNat ph.toNat o.idx = some (begunIo o) := by
      rw [begunAt, nx.stream, nx.tokPhase]
      exact getIo_startIo nx.phase none
    rw [getIo_counterSeen]
    show ((getIo (begunAt s o) id.toNat ph.toNat o.idx).map _).map _ = _
    rw [there]
    exact congrArg some (awaitDone_begun _ nx.opcode)
  · refine ⟨_, execAwaitTimeout_eq id ph s, endAwaits_mem .., ?_⟩
    intro f hf stream phase await late
    have due : f ∈ dueAwaits s id.toNat ph.toNat := List.mem_filter.mpr ⟨hf, by simp [stream, phase, await, late]⟩
    refine ⟨endAwaits_ops s _ due, fun a c j x own hx => ?_⟩
    have ended := getIo_endAwaits_due s _ due own hx
    refine ⟨?_, fun run fine => ?_⟩
    · rw [ended]
      split
      next fin => exact congrArg some fin
      next => rfl
    · rw [ended, run, if_neg Bool.false_ne_true]
      simp [timedOut, fine]
  · intro j x hx fin await
    exact ⟨_, rfl, completeIoOp_await hx fin await⟩
  · intro hn zero ctr line addr on ok he clean
    have nx := nextIo_of_fabNext hn
    obtain ⟨v, view, fab, cmd, run⟩ := execRoleSet_sets hs hn zero ctr line addr on ok he clean
    have begun : (begunAt v.s o).fab.epochs = s.fab.epochs := show v.s.fab.epochs = s.fab.epochs by rw [fab]
    refine ⟨_, run, fun n hn => ?_, ?_, (rolesSet_mem ..).trans view.mem⟩
    · rw [rolesSet_epochs, setEpochs_epochs (by rw [begun]; exact hs.epochs) _ _ hn, begun]
    · obtain ⟨x, hp⟩ := nx.phase
      exact rolesSet_finished nx.stream nx.tokPhase ((getPhase_of_cmd cmd _ _).trans hp) _ _

end Sys2Proof.Laws
end

section
/-! PROOFS. What a collective's own packets leave (O55). -/

namespace Sys2Proof.Laws

open Sys2Proof Sys2Proof.Machine
set_option Elab.async false

variable {s t u : State} {c : Coll} {d b : Bytes} {id fi : Nat}

/-! ## What a collective's own packets leave (R449, R450) -/

/-- A step that leaves what there is to do, the busy slots and the next sequence numbers. -/
structure CollAside (s t : State) : Prop where
  toDo : toDo t = toDo s
  busy : t.coll.busy = s.coll.busy
  nextSeq : t.coll.nextSeq = s.coll.nextSeq

theorem CollAside.refl (s : State) : CollAside s s := ⟨rfl, rfl, rfl⟩

theorem CollAside.trans (h : CollAside s t) (k : CollAside t u) : CollAside s u :=
  ⟨k.toDo.trans h.toDo, k.busy.trans h.busy, k.nextSeq.trans h.nextSeq⟩

theorem CollAside.of_coll (h : Laws.toDo t = Laws.toDo s) (hc : t.coll = s.coll) : CollAside s t := ⟨h, by rw [hc], by rw [hc]⟩

theorem FabAside.collAside (h : FabAside s t) : CollAside s t := .of_coll (by simp only [Laws.toDo, h.fab, h.coll, h.windowSet]) h.coll

theorem CollAside.colls (h : CollAside s t) : t.coll.colls = s.coll.colls :=
  congrArg (fun x : List HostPost × List HostFetch × List LoopPkt × List HeldPkt × Option (Nat × Nat × Nat) × List FabOp ×
    List FabTag × List FiredOp × List Coll => x.2.2.2.2.2.2.2.2) h.toDo

theorem collAside_staleColl (s : State) : CollAside s (staleColl s) := ⟨rfl, rfl, rfl⟩

theorem collAside_orders {w : Bool} (h : (ordersTwoFour s fi b w).2 = false) : CollAside s (ordersTwoFour s fi b w).1 :=
  .of_coll (refused_ordersTwoFour h).1.toDo (coll_eq (by simp))

/-! ### The collective's JOIN comes back to this module -/

/-- The collective is the open one of its communicator, and no collective has closed. -/
structure OwnColl (s : State) (c : Coll) : Prop where
  found : getColl s c.id = some c
  own : s.coll.colls.find? (fun x => coComm x.desc == coComm c.desc && coSeq x.desc % 65536 == coSeq c.desc % 65536) = some c
  open_ : ∀ x ∈ s.coll.colls, x.closed = false

theorem OwnColl.later (h : OwnColl s c) (k : CollAside s t) : OwnColl t c := by
  obtain ⟨found, own, open_⟩ := h
  exact ⟨by rw [getColl, k.colls]; exact found, by rw [k.colls]; exact own, by rw [k.colls]; exact open_⟩

/-- A JOIN at a member that is not the coordinator is stale. -/
theorem collTake_ownJoin {e : EarlyPkt} (h : OwnColl s c) (other : colMe c ≠ 0) (join : pkKind e.packet = 10)
    (comm : earlyComm e = coComm c.desc) (seq : earlySeq e = coSeq c.desc % 65536)
    (hash : (e.packet.drop 42).take 8 = crcBytes (coHash c.desc)) : CollAside s (collTake s e) := by
  simp only [collTake, comm, seq, join, hash, h.own]
  split
  · exact collAside_staleColl s
  · split
    · exact collAside_staleColl s
    · have stale : collPacket s c (by assumption) e.packet e.targets = finishColl (staleColl s) c.id := by
        simp only [collPacket, join, if_neg other]
      simp only [hashed, bne_self_eq_false, Bool.and_false, Bool.false_eq_true, if_false, beq_self_eq_true, Bool.true_or,
        Bool.not_true, Bool.and_false, stale]
      rw [finishColl_of_open (show ∀ x ∈ (staleColl s).coll.colls, x.closed = false from h.open_)]
      exact collAside_staleColl s

theorem sinkPlain_ownJoin (h : OwnColl s c) (posts : s.fab.posts = []) (other : colMe c ≠ 0) (join : pkKind b = 10)
    (comm : le b 50 2 = coComm c.desc) (seq : le b 52 2 = coSeq c.desc % 65536) (hash : (b.drop 42).take 8 = crcBytes (coHash c.desc)) :
    CollAside s (sinkPlain s fi b false none) := by
  have write : sinkPlain s fi b false none = if !(orderOne b) then { s with fab := { s.fab with crcDrops := satAdd s.fab.crcDrops 1 } }
      else sinkWrite s fi b false none := by
    simp only [sinkPlain, join, freeSource]
  rw [write]
  split
  · exact ⟨rfl, rfl, rfl⟩
  · rw [sinkWrite]
    split
    next yes =>
      rw [ordersTwoFour_passed yes, postOrLand]
      simp only [posts, List.isEmpty_nil, Bool.not_true, Bool.or_self, Bool.and_false, Bool.false_eq_true, if_false, landChecked, join,
        show (8 : Nat) ≤ 10 by decide, if_true, freeSource]
      split
      · exact collTake_ownJoin h other join comm seq hash
      · exact .refl s
    next no => exact collAside_orders ((Bool.not_eq_true _).mp no)

theorem runLoop_one {l : LoopPkt} (one : s.fab.loop = [l]) (untagged : l.part = none) (k : Nat) :
    runLoop (k + 1) s = runLoop k (takeLoop { s with fab := { s.fab with loop := [] } } l) := by
  have ready : s.fab.loop.findIdx? (tagReady s) = some 0 := by
    rw [one]
    simp [List.findIdx?_cons, tagReady, untagged]
  rw [runLoop, ready]
  simp only [one, List.getElem?_cons_zero, List.eraseIdx_cons_zero]

/-- Where one untagged packet waits at an FI, settling takes it. -/
theorem settleFab_of_one {l : LoopPkt} (one : s.fab.loop = [l]) (untagged : l.part = none)
    (ht : takeLoop { s with fab := { s.fab with loop := [] } } l = t) (done : FabDone t) : settleFab s = t := by
  have taken : runLoop (4 * s.fab.loop.length + 4) s = t := by
    rw [one, show 4 * [l].length + 4 = 7 + 1 from rfl, runLoop_one one untagged, ht, runLoop_of_empty 7 done.loop]
  have moved : moveOn (s.fab.held.length + 1) s = t := by
    have none : t.fab.held.findIdx? (fun x => !(channelBusy t x.src.1 x.src.2.1)) = none := by
      rw [List.findIdx?_eq_none_iff]
      intro x hx
      rw [done.held x hx]
      rfl
    rw [moveOn]
    simp only [taken, none]
  rw [settleFab, moved, settleOps_of_done done]
  exact settleTurns_of_quiet done.windowSet done.fired done.colls _

end Sys2Proof.Laws
end

section
/-! PROOFS. The JOIN of a member and its bytes (O55). -/

namespace Sys2Proof.Laws

open Sys2Proof Sys2Proof.Machine
set_option Elab.async false

variable {s t u : State} {c : Coll} {d : Bytes} {id : Nat}

/-! ## The JOIN of a member (R450, R463) -/

/-- The bytes of a packet's header before those of its kind. -/
def headBytes (src : Nat) (h : PktSpec) (payload : Bytes) : Bytes :=
  [0, BitVec.ofNat 8 (cdiv payload.length 64)] ++ zeroBytes 10 ++ leBytes 2 h.dst ++ leBytes 2 src ++
    leBytes 1 (h.cls + 4 * h.kind) ++ leBytes 1 (b2n h.ackReq + 2 * b2n h.epochEn + 4 * b2n h.rctrEn) ++ leBytes 2 h.plen ++
    leBytes 6 h.addr ++ leBytes 3 h.tag ++ [0] ++ leBytes 2 h.epoch ++ leBytes 2 (if h.rctrEn then h.rctr else 0) ++ leBytes 8 h.poison

theorem headBytes_length (src : Nat) (h : PktSpec) (payload : Bytes) : (headBytes src h payload).length = 42 := by
  simp [headBytes, leBytes_length, zeroBytes]

/-- The bytes of a packet's kind. -/
theorem slice_kindBytes (src : Nat) (h : PktSpec) (payload : Bytes) (full : h.kindBytes.length = 14) {i n : Nat} (hi : i + n ≤ 14) :
    slice (buildPkt src h payload) (42 + i) n = slice h.kindBytes i n := by
  have kind : (h.kindBytes ++ zeroBytes 14).take 14 = h.kindBytes := by
    rw [List.take_append_of_le_length (by omega), List.take_of_length_le (by omega)]
  have split : pktBody src h payload = headBytes src h payload ++ (h.kindBytes ++
      (zeroBytes 8 ++ (payload ++ zeroBytes (64 * cdiv payload.length 64 - payload.length)))) := by
    simp only [pktBody, kind, headBytes, List.append_assoc]
  rw [slice_buildPkt _ _ _ (by omega), split, slice_append_right (by rw [headBytes_length]; omega), headBytes_length,
    Nat.add_sub_cancel_left, slice_append_left (by omega)]

theorem crcBytes_length (v : Nat) : (crcBytes v).length = 8 := by rw [crcBytes, List.length_reverse, leBytes_length]

theorem leNat_leBytes_two {v : Nat} (h : v < 65536) : leNat (leBytes 2 v) = v := by
  have := le_leBytes_append 2 v []
  rw [List.append_nil] at this
  rw [le, List.drop_zero, List.take_of_length_le (by rw [leBytes_length])] at this
  omega

section CollPkt
variable (src : Nat) (c : Coll) (dst kind item addr : Nat) (payload : Bytes) (poison : Bool)

/-- Hash, communicator and sequence number of a collective's packet. -/
theorem collPkt_kindBytes : let b := buildPkt src (collPkt c dst kind item addr payload poison) payload
    (b.drop 42).take 8 = crcBytes (coHash c.desc) ∧ le b 50 2 = coComm c.desc ∧ le b 52 2 = coSeq c.desc % 65536 := by
  have full : (collPkt c dst kind item addr payload poison).kindBytes.length = 14 := by
    simp [collPkt, crcBytes_length, leBytes_length]
  have comm : coComm c.desc < 65536 := le_lt c.desc 10 2
  have part {i n : Nat} (hi : i + n ≤ 14) := slice_kindBytes src (collPkt c dst kind item addr payload poison) payload full hi
  have kb : (collPkt c dst kind item addr payload poison).kindBytes = crcBytes (coHash c.desc) ++ (leBytes 2 (coComm c.desc) ++
      (leBytes 2 (coSeq c.desc % 65536) ++ leBytes 2 item)) := by
    simp only [collPkt, List.append_assoc]
  have len := crcBytes_length (coHash c.desc)
  refine ⟨(part (i := 0) (n := 8) (by decide)).trans ?_, ?_, ?_⟩
  · rw [kb, slice_append_left (by omega), slice, List.drop_zero, List.take_of_length_le (by omega)]
  · rw [le_eq_slice, part (i := 8) (n := 2) (by decide), kb, slice_append_right (by omega), len,
      slice_append_left (by rw [leBytes_length]), slice, Nat.sub_self, List.drop_zero,
      List.take_of_length_le (by rw [leBytes_length]), leNat_leBytes_two comm]
  · rw [le_eq_slice, part (i := 10) (n := 2) (by decide), kb, slice_append_right (by omega), len,
      slice_append_right (by rw [leBytes_length]), leBytes_length, slice_append_left (by rw [leBytes_length]), slice,
      Nat.sub_self, List.drop_zero, List.take_of_length_le (by rw [leBytes_length]), leNat_leBytes_two (Nat.mod_lt _ (by decide))]

theorem collPkt_kind (hk : kind < 16) : pkKind (buildPkt src (collPkt c dst kind item addr payload poison) payload) = kind := by
  rw [pkKind, buildPkt_kind, bits, Nat.shiftRight_eq_div_pow]
  show (3 + 4 * kind) % 256 ^ 1 / 2 ^ 2 % 2 ^ 6 = kind
  omega

theorem collPkt_dst (hd : dst < 65536) : pkDst (buildPkt src (collPkt c dst kind item addr payload poison) payload) = dst := by
  rw [pkDst, buildPkt_dst]
  show dst % 256 ^ 2 = dst
  omega

end CollPkt

/-! ## A member joins (R450) -/

/-- The fabric is idle and no collective has closed. -/
structure FabCalm (s : State) : Prop where
  done : FabDone s
  held : s.fab.held = []
  posts : s.fab.posts = []
  queues : ∀ p, (getFab s p).queue = []

theorem FabCalm.of_quiet (h : FabQuiet s) : FabCalm s := ⟨.of_quiet h, h.idle.held, h.idle.posts, h.idle.queues⟩

theorem doneAfter (h : FabCalm s) (k : CollAside s t) : FabDone t := h.done.of_toDo h.held k.toDo

/-- A JOIN that leaves for another node, or comes back here and is stale. -/
theorem settles_collSend {c : Coll} (calm : FabCalm s) (own : OwnColl s c) (other : colMe c ≠ 0) (item addr : Nat) (payload : Bytes) :
    CollAside s (settleFab (collSend s c 0 10 item addr payload)) := by
  have node : mbNode (member s c.comm 0) < 65536 := le_lt _ 0 2
  by_cases far : localNode s (mbNode (member s c.comm 0)) = false
  · have sent : SendsOnly s (collSend s c 0 10 item addr payload) := sendsOnly_injectPlain calm.queues _ _ far _ _ _
    have aside : CollAside s (collSend s c 0 10 item addr payload) := .of_coll sent.toDo (coll_eq (by simp [collSend]))
    rw [settleFab_of_done (doneAfter calm aside)]
    exact aside
  · have here : localNode s (mbNode (member s c.comm 0)) = true := by simpa using far
    let h := collPkt c (mbNode (member s c.comm 0)) 10 item addr payload false
    let b := buildPkt s.fab.nodeId.toNat h payload
    let l : LoopPkt := { fi := fiFor s (mbNode (member s c.comm 0)), bytes := b, part := none, limitNs := 0, owner := some (.coll c.id), src := none }
    have waits : collSend s c 0 10 item addr payload = waitAtFi s l := by
      show injectPkt s _ (mbNode (member s c.comm 0)) 3 b none 0 _ none = _
      rw [injectPkt, if_pos here]
    obtain ⟨hash, comm, seq⟩ := collPkt_kindBytes s.fab.nodeId.toNat c (mbNode (member s c.comm 0)) 10 item addr payload false
    have taken : takeLoop { waitAtFi s l with fab := { (waitAtFi s l).fab with loop := [] } } l =
        sinkPlain { s with fab := { s.fab with loop := [] } } l.fi b false none := by
      have dst : pkDst b = mbNode (member s c.comm 0) := collPkt_dst _ _ _ _ _ _ _ _ node
      have local_ : localNode { waitAtFi s l with fab := { (waitAtFi s l).fab with loop := [] } } (pkDst b) = true := by
        rw [dst]
        exact here
      rw [takeLoop, if_pos local_]
      rfl
    have same : { s with fab := { s.fab with loop := [] } } = s := by rw [← calm.done.loop]
    rw [same] at taken
    have aside : CollAside s (sinkPlain s l.fi b false none) :=
      sinkPlain_ownJoin own calm.posts other (collPkt_kind _ _ _ _ _ _ _ _ (by decide)) comm seq hash
    rw [waits, settleFab_of_one (t := sinkPlain s l.fi b false none) (l := l) (by rw [waitAtFi, calm.done.loop]; rfl) rfl taken
      (doneAfter calm aside)]
    exact aside

theorem getColl_modColl {f : Coll → Coll} (hf : ∀ x, (f x).id = x.id) (s : State) (id : Nat) :
    getColl (modColl s id f) id = (getColl s id).map f := by
  have same : ((fun x : Coll => x.id == id) ∘ fun x => if x.id = id then f x else x) = fun x => x.id == id := funext fun x => by
    simp only [Function.comp_apply]
    split
    · rw [hf]
    · rfl
  show (s.coll.colls.map fun x => if x.id = id then f x else x).find? (·.id == id) = _
  rw [List.find?_map, same, getColl]
  cases h : s.coll.colls.find? (·.id == id) with
  | none => rfl
  | some x =>
    have key : x.id = id := by simpa using List.find?_some h
    rw [Option.map_some, if_pos key, Option.map_some]

/-- The joins of a collective with that of its coordinator. -/
def ownJoined (rec_ : Nat) (x : Coll) : Coll := { x with joins := smSet 0 x.joins 0 rec_ }

/-- The coordinator notes its own join; a round of more than one member stays open. -/
theorem joinAt_stays (found : getColl s id = some c) (joins : c.joins = []) (more : 1 < colM c) (rec_ : Nat) :
    joinAt s id 0 rec_ = modColl (write s .fi (redSlot (cmCtl c.comm) + 4 * 0) (leBytes 4 rec_)) id (ownJoined rec_) := by
  have found1 : getColl (write s .fi (redSlot (cmCtl c.comm) + 4 * 0) (leBytes 4 rec_)) id = some c := by
    rw [getColl, coll_eq (t := write s .fi (redSlot (cmCtl c.comm) + 4 * 0) (leBytes 4 rec_)) (s := s) (by simp)]
    exact found
  have after := getColl_modColl (f := ownJoined rec_) (fun _ => rfl) (write s .fi (redSlot (cmCtl c.comm) + 4 * 0) (leBytes 4 rec_)) id
  rw [found1, Option.map_some] at after
  have waits : ((List.range (colM (ownJoined rec_ c))).map (smGet 0 (ownJoined rec_ c).joins)).all (fun v => bit v 12) = false := by
    rw [List.all_eq_false]
    refine ⟨_, List.mem_map_of_mem (List.mem_range.mpr more), ?_⟩
    have none : smGet 0 (ownJoined rec_ c).joins 1 = 0 := by
      rw [ownJoined, joins]
      exact get_set_other (m := []) rfl (by decide)
    rw [none]
    decide
  rw [joinAt, found]
  show tryClose (modColl _ id (ownJoined rec_)) id = _
  rw [tryClose, after]
  dsimp only
  rw [waits, Bool.and_false, Bool.false_and, if_neg Bool.false_ne_true]

end Sys2Proof.Laws
end

section
/-! PROOFS. Collectives issue (O55). -/

namespace Sys2Proof.Laws

open Sys2Proof Sys2Proof.Machine
set_option Elab.async false

variable {s t u : State} {c : Coll} {d : Bytes} {id i k : Nat} {o : NextOp} {host : List HostLine} {loc : OpLoc}

/-! ## A collective issues (R447 to R450) -/

/-! ### Its slots -/

theorem findRun_eq_some {r : Bytes} {n x : Nat} (h : findRun s r n = some x) :
    (∀ j < n, slotFree s r (ctlSlots s) (x + j) = true) ∧
      (0 < n → ∀ y < x, ∃ j < n, slotFree s r (ctlSlots s) (y + j) = false) := by
  obtain ⟨l₁, i, l₂, split, hit, miss⟩ := List.findSome?_eq_some_iff.mp h
  dsimp only at hit
  split at hit
  next free =>
    obtain rfl := Option.some.inj hit
    rw [List.all_eq_true] at free
    refine ⟨fun j hj => free j (List.mem_range.mpr hj), fun some_ y hy => ?_⟩
    by_cases low : y < cmFirst r
    · refine ⟨0, some_, ?_⟩
      simp only [slotFree, Nat.add_zero, Bool.and_eq_false_iff, decide_eq_false_iff_not]
      exact .inl (.inl (.inl fun h => by omega))
    · have before : y - cmFirst r ∈ l₁ := by
        rw [List.range_eq_range'] at split
        obtain ⟨k, -, rfl, rest⟩ := List.range'_eq_append_iff.mp split
        obtain ⟨first, -⟩ := List.range'_eq_cons_iff.mp rest.symm
        rw [List.mem_range'_1]
        omega
      have none := miss _ before
      dsimp only at none
      rw [show cmFirst r + (y - cmFirst r) = y by omega] at none
      split at none
      · cases none
      next full =>
        simpa using full
  · cases hit

theorem findRun_isSome {r : Bytes} {n x : Nat} (some_ : 0 < n) (h : ∀ j < n, slotFree s r (ctlSlots s) (x + j) = true) :
    (findRun s r n).isSome = true := by
  have first := h 0 some_
  simp only [slotFree, Nat.add_zero, Bool.and_eq_true, decide_eq_true_eq] at first
  obtain ⟨⟨⟨⟨low, high, -⟩, -⟩, -⟩, -⟩ := first
  rw [findRun, List.findSome?_isSome_iff]
  refine ⟨x - cmFirst r, List.mem_range.mpr (by omega), ?_⟩
  dsimp only
  rw [show cmFirst r + (x - cmFirst r) = x by omega, if_pos]
  · rfl
  · exact List.all_eq_true.mpr fun j hj => h j (List.mem_range.mp hj)

/-! ### It joins -/

/-- With the coordinator's own join noted, nothing is left to be done, and no other part has changed. -/
theorem ownJoined_stays (calm : FabCalm s) (own : OwnColl s c) (fab : u.fab = s.fab) (hif : u.hif = s.hif) (coll : u.coll = s.coll)
    (rec_ : Nat) : FabDone (modColl u c.id (ownJoined rec_)) ∧ getColl (modColl u c.id (ownJoined rec_)) c.id = some (ownJoined rec_ c) ∧
      (modColl u c.id (ownJoined rec_)).coll.early = s.coll.early ∧ (modColl u c.id (ownJoined rec_)).coll.busy = s.coll.busy ∧
      (modColl u c.id (ownJoined rec_)).coll.nextSeq = s.coll.nextSeq := by
  have fab' : (modColl u c.id (ownJoined rec_)).fab = s.fab := fab
  have hif' : (modColl u c.id (ownJoined rec_)).hif = s.hif := hif
  refine ⟨⟨?_, ?_, ?_, ?_, ?_, fun x hx => ?_⟩, ?_, ?_, ?_, ?_⟩
  · rw [fab']
    exact calm.done.loop
  · rw [fab', calm.held]
    simp
  · rw [hif']
    exact calm.done.windowSet
  · rw [fab']
    exact calm.done.ops
  · show u.coll.firedOps = []
    rw [coll]
    exact calm.done.fired
  · obtain ⟨y, hy, rfl⟩ := List.mem_map.mp hx
    have open_ : y.closed = false := own.open_ y (by rw [← coll]; exact hy)
    split
    · exact open_
    · exact open_
  · rw [getColl_modColl (f := ownJoined rec_) fun _ => rfl, getColl, coll, ← getColl, own.found, Option.map_some]
  · show u.coll.early = s.coll.early
    rw [coll]
  · show u.coll.busy = s.coll.busy
    rw [coll]
  · show u.coll.nextSeq = s.coll.nextSeq
    rw [coll]

/-- The coordinator's own join, or the JOIN of another member, leaves the collective open. -/
theorem sendJoin_settles (calm : FabCalm s) (own : OwnColl s c) (joins : c.joins = []) (more : 1 < colM c) :
    (sendJoin s c.id).coll.early = s.coll.early ∧ (∃ js, getColl (settleFab (sendJoin s c.id)) c.id = some { c with joins := js }) ∧
      (settleFab (sendJoin s c.id)).coll.busy = s.coll.busy ∧ (settleFab (sendJoin s c.id)).coll.nextSeq = s.coll.nextSeq := by
  by_cases root : cmRank c.comm = 0
  · have joined : sendJoin s c.id = joinAt s c.id 0 (joinRec s c) := by
      rw [sendJoin, own.found]
      exact if_pos root
    obtain ⟨done, found, early, busy, nextSeq⟩ := ownJoined_stays calm own
      (u := write s .fi (redSlot (cmCtl c.comm) + 4 * 0) (leBytes 4 (joinRec s c))) (fab_eq (by simp)) (hif_eq (by simp)) (coll_eq (by simp))
      (joinRec s c)
    rw [joined, joinAt_stays own.found joins more, settleFab_of_done done]
    exact ⟨early, ⟨_, found⟩, busy, nextSeq⟩
  · have joined : sendJoin s c.id = collSend s c 0 10 (cmRank c.comm) (redSlot (cmCtl c.comm) + 4 * cmRank c.comm) (leBytes 4 (joinRec s c)) := by
      rw [sendJoin, own.found]
      exact if_neg root
    have aside := settles_collSend calm own root (cmRank c.comm) (redSlot (cmCtl c.comm) + 4 * cmRank c.comm) (leBytes 4 (joinRec s c))
    have coll : (collSend s c 0 10 (cmRank c.comm) (redSlot (cmCtl c.comm) + 4 * cmRank c.comm) (leBytes 4 (joinRec s c))).coll = s.coll :=
      coll_eq (by simp [collSend])
    rw [joined]
    exact ⟨by rw [coll], ⟨c.joins, (own.later aside).found⟩, aside.busy, aside.nextSeq⟩

/-- The late buffer that is dropped counts, and memory takes its valid bit. -/
structure LateAside (s t : State) : Prop where
  fab : t.fab = s.fab
  windowSet : t.hif.wtWait = s.hif.wtWait
  coll : ∃ k, t.coll = { s.coll with lateDropped := k }

theorem FabAside.lateAside (h : FabAside s t) : LateAside s t := ⟨h.fab, h.windowSet, s.coll.lateDropped, h.coll⟩

theorem lateAside_dropLate (s : State) (host : List HostLine) (d : Bytes) : LateAside s (dropLate s host d) := by
  have read : FabAside s (lateHdr s host d).1 := fabAside_viewSpan initFab .fi host (viewOf s) (coAux1 d) 64
  unfold dropLate
  split
  · dsimp only
    split
    · split
      · have cleared : FabAside s (clearLate (lateHdr s host d).1 d) := read.trans (fabAside_fiWrite ..)
        exact ⟨cleared.fab, cleared.windowSet, _, by rw [cleared.coll]⟩
      · exact read.lateAside
    · exact read.lateAside
  · exact FabAside.lateAside (.refl s)

theorem replayEarly_of_none (h : s.coll.early = []) (comm seq : Nat) : replayEarly s comm seq = s := by
  simp only [replayEarly, h, List.filter_nil, List.foldl_nil]
  rw [← h]

/-! ### It issues -/

/-- The slots that a collective claims as it issues. -/
def claimedRun (s : State) (d : Bytes) : Option Nat :=
  if coReduces d && !(mbChildren (myEntry s (commOf s (coComm d)))).isEmpty then findRun s (commOf s (coComm d)) (coSlots d) else none

/-- The state in which a collective has issued, before it joins. -/
def issuedAt (s : State) (c : Coll) : State :=
  let s1 := { s with coll := { s.coll with
    colls := s.coll.colls ++ [c], nextId := s.coll.nextId + 1
    nextSeq := smSet 0 s.coll.nextSeq (coComm c.desc) ((coSeq c.desc + 1) % 2 ^ 32 + 1) } }
  if c.claimed then markSlots s1 c.first (coSlots c.desc) true else s1

theorem issueColl_joins (owner : OpOwner) (stream phase step : Nat) (late : Bool)
    (noAbort : (smGet (0, 0) s.coll.heldAbort (coComm d)).1 ≠ coSeq d % 65536 + 1) :
    let c := newColl s owner stream phase step late d (commOf s (coComm d)) host ((claimedRun s d).getD 0) (claimedRun s d).isSome
    issueColl s owner stream phase step late d host = replayEarly (sendJoin (dropLate (issuedAt s c) host d) c.id) (coComm d) (coSeq d) := by
  exact if_neg noAbort

theorem smGet_foldl_fixed {α : Type} [DecidableEq α] {v : α} {e : α} (l : List Nat) (first : Nat) {m : List (Nat × α)} (hk : keysRise m = true)
    {j : Nat} (hj : j ∈ l) : smGet e (l.foldl (fun m i => smSet e m (first + i) v) m) (first + j) = v := by
  have shifted : l.foldl (fun m i => smSet e m (first + i) v) m = (l.map (first + ·)).foldl (fun m n => smSet e m n v) m := by
    rw [List.foldl_map]
  rw [shifted, smGet_foldl_smSet _ hk, if_pos (List.mem_map_of_mem hj)]

/-- What issuing leaves of the busy slots and the sequence numbers. -/
theorem issuedAt_leaves (hb : keysRise s.coll.busy = true) (hn : keysRise s.coll.nextSeq = true) (c : Coll) :
    (issuedAt s c).fab = s.fab ∧ (issuedAt s c).hif = s.hif ∧ (issuedAt s c).coll.colls = s.coll.colls ++ [c] ∧
    (issuedAt s c).coll.early = s.coll.early ∧ (issuedAt s c).coll.firedOps = s.coll.firedOps ∧
    (c.claimed = true → ∀ j < coSlots c.desc, smGet false (issuedAt s c).coll.busy (c.first + j) = true) ∧
    smGet 0 (issuedAt s c).coll.nextSeq (coComm c.desc) = (coSeq c.desc + 1) % 2 ^ 32 + 1 := by
  have next := get_set_self (d := 0) (k := coComm c.desc) (v := (coSeq c.desc + 1) % 2 ^ 32 + 1) hn
  unfold issuedAt
  dsimp only
  split
  next claims => exact ⟨rfl, rfl, rfl, rfl, rfl, fun _ j hj => smGet_foldl_fixed _ _ hb (List.mem_range.mpr hj), next⟩
  next free => exact ⟨rfl, rfl, rfl, rfl, rfl, fun claims => absurd claims free, next⟩

theorem coSlots_pos {n : Nat} (check : collCheck s n d = none) (reduces : coReduces d = true) : 0 < coSlots d := by
  have all := firstFail_eq_none.1 check
  have slots := failIf_eq_none.1 (all (failIf ((coSlots d == 0 && coReduces d) || (coSlots d != 0 && !(coReduces d)) ||
    decide (16 < coSlots d)) .badField) (by simp))
  rw [reduces] at slots
  simp only [Bool.or_eq_false_iff, Bool.and_true, beq_eq_false_iff_ne] at slots
  exact Nat.pos_of_ne_zero slots.1.1

theorem claimedRun_isSome {x : Nat} (reduces : coReduces d = true) (kids : mbChildren (myEntry s (commOf s (coComm d))) ≠ [])
    (some_ : 0 < coSlots d) (free : ∀ j < coSlots d, slotFree s (commOf s (coComm d)) (ctlSlots s) (x + j) = true) :
    (claimedRun s d).isSome = true := by
  have needs : (coReduces d && !(mbChildren (myEntry s (commOf s (coComm d)))).isEmpty) = true := by
    simp [reduces, kids]
  rw [claimedRun, if_pos needs]
  exact findRun_isSome some_ free

theorem claimedRun_first (slots : coReduces d = true → 0 < coSlots d) (h : (claimedRun s d).isSome = true) :
    (∀ x < (claimedRun s d).getD 0, ∃ j < coSlots d, slotFree s (commOf s (coComm d)) (ctlSlots s) (x + j) = false) ∧
      ∀ j < coSlots d, slotFree s (commOf s (coComm d)) (ctlSlots s) ((claimedRun s d).getD 0 + j) = true := by
  obtain ⟨x, hx⟩ := Option.isSome_iff_exists.mp h
  rw [hx, Option.getD_some]
  rw [claimedRun] at hx
  split at hx
  next needs =>
    obtain ⟨free, lowest⟩ := findRun_eq_some hx
    exact ⟨lowest (slots (Bool.and_eq_true_iff.mp needs).1), free⟩
  next => cases hx

/-- What an op that starts leaves of the communicators' slots. -/
theorem slotFree_begunAt (s : State) (o : NextOp) (k x : Nat) :
    slotFree (begunAt s o) (commOf (begunAt s o) k) (ctlSlots (begunAt s o)) x = slotFree s (commOf s k) (ctlSlots s) x := rfl

theorem quiet_begunAt (h : FabQuiet s) (o : NextOp) : FabQuiet (begunAt s o) :=
  ⟨⟨h.idle.queues, h.idle.posts, h.idle.loop, h.idle.held, h.idle.windowSet, h.idle.tags, h.idle.ops, h.idle.fired⟩, h.colls⟩

/-! ### The command -/

/-- A collective that issues while its communicator has none before its close, in a calm fabric, is open when the fabric has settled. -/
theorem issueColl_opens (hs : Sound s) (quiet : FabQuiet s) (early : s.coll.early = []) (owner : OpOwner) (stream phase step : Nat)
    (late : Bool) (may : collMay s (coComm d) = true) (more : 1 < cmMembers (commOf s (coComm d)))
    (noAbort : (smGet (0, 0) s.coll.heldAbort (coComm d)).1 ≠ coSeq d % 65536 + 1) (fresh : getColl s s.coll.nextId = none) :
    let c := newColl s owner stream phase step late d (commOf s (coComm d)) host ((claimedRun s d).getD 0) (claimedRun s d).isSome
    let t := settleFab (issueColl s owner stream phase step late d host)
    (∃ js, getColl t s.coll.nextId = some { c with joins := js }) ∧
      (c.claimed = true → ∀ j < coSlots d, smGet false t.coll.busy (c.first + j) = true) ∧
      smGet 0 t.coll.nextSeq (coComm d) = (coSeq d + 1) % 2 ^ 32 + 1 := by
  intro c
  obtain ⟨fab, hif, colls, keeps, fired, busy, next⟩ := issuedAt_leaves hs.busy hs.nextSeq c
  obtain ⟨fab', set, dropped, coll⟩ := lateAside_dropLate (issuedAt s c) host d
  have colls' : (dropLate (issuedAt s c) host d).coll.colls = s.coll.colls ++ [c] := by rw [coll]; exact colls
  have openAll : ∀ x ∈ s.coll.colls ++ [c], x.closed = false := fun x hx => by
    rcases List.mem_append.mp hx with old | new
    · exact quiet.colls x old
    · rw [List.mem_singleton.mp new]
      rfl
  have sameFab : (dropLate (issuedAt s c) host d).fab = s.fab := fab'.trans fab
  have calm : FabCalm (dropLate (issuedAt s c) host d) := by
    refine ⟨⟨?_, ?_, ?_, ?_, ?_, ?_⟩, ?_, ?_, fun p => ?_⟩
    · rw [sameFab]
      exact quiet.idle.loop
    · rw [sameFab, quiet.idle.held]
      simp
    · rw [set, hif]
      exact quiet.idle.windowSet
    · rw [sameFab]
      exact quiet.idle.ops
    · rw [coll]
      exact fired.trans quiet.idle.fired
    · rw [colls']
      exact openAll
    · rw [sameFab]
      exact quiet.idle.held
    · rw [sameFab]
      exact quiet.idle.posts
    · rw [Machine.getFab, sameFab]
      exact quiet.idle.queues p
  have own : OwnColl (dropLate (issuedAt s c) host d) c := by
    refine ⟨?_, ?_, by rw [colls']; exact openAll⟩
    · rw [getColl, colls', List.find?_append, show s.coll.colls.find? (·.id == c.id) = none from fresh]
      simp
    · have others : s.coll.colls.find? (fun x => coComm x.desc == coComm c.desc && coSeq x.desc % 65536 == coSeq c.desc % 65536) = none := by
        rw [List.find?_eq_none]
        intro x hx same
        simp only [Bool.and_eq_true] at same
        have none : (s.coll.colls.any fun c => coComm c.desc == coComm d && !c.closed) = false := by
          simp only [collMay, Bool.and_eq_true, Bool.not_eq_true'] at may
          exact may.2
        have free := List.any_eq_false.mp none x hx
        rw [quiet.colls x hx, Bool.not_false, Bool.and_true] at free
        exact free same.1
      rw [colls', List.find?_append, others]
      simp
  obtain ⟨early', ⟨js, found⟩, busy', next'⟩ := sendJoin_settles calm own rfl more
  have none : (sendJoin (dropLate (issuedAt s c) host d) c.id).coll.early = [] := by
    rw [early', coll]
    exact keeps.trans early
  rw [issueColl_joins owner stream phase step late noAbort, replayEarly_of_none none]
  refine ⟨⟨js, found⟩, fun claims j hj => ?_, ?_⟩
  · rw [busy', coll]
    exact busy claims j hj
  · rw [next', coll]
    exact next

section Run
variable {k : Nat} (hn : fabNext loc s 0x50 = some o)
include hn

theorem runColl_otherRow (row : collRow k o.desc = false) : runColl k loc host s = s := by
  rw [runColl, hn]
  dsimp only
  rw [row]
  rfl

variable (row : collRow k o.desc = true) (check : collCheck s o.tok.stream o.desc = none)
include row check

theorem runColl_held (may : collMay s (coComm o.desc) = false) : runColl k loc host s = s := by
  rw [runColl, hn]
  dsimp only
  rw [row, check]
  dsimp only
  rw [may]
  rfl

theorem runColl_issues (may : collMay s (coComm o.desc) = true) : ∃ late, runColl k loc host s =
    settleFab (issueColl (begunAt s o) (.io o.tok.stream o.tok.phase o.idx) o.tok.stream o.tok.phase o.tok.step late o.desc host) := by
  refine ⟨flag (phaseStep s o.tok.stream o.tok.phase) 27 0, ?_⟩
  rw [runColl, hn, begunAt]
  simp only [row, check, may, Bool.not_true, Bool.false_eq_true, if_false]

end Run

theorem exec_runColl (s : State) (loc : OpLoc) (host : List HostLine) :
    ∀ kc ∈ [(0, Instr.allReduce loc host), (1, .reduceScatter loc host), (2, .allGather loc host), (3, .reduce loc host),
      (4, .broadcast loc host), (5, .barrier loc host), (6, .allToAllv loc host)], exec kc.2 s = .next (runColl kc.1 loc host s) := by
  simp only [List.forall_mem_cons]
  exact ⟨rfl, rfl, rfl, rfl, rfl, rfl, rfl, fun _ h => absurd h List.not_mem_nil⟩

/-- Settles O55: the collective that issues joins, by its own record at the coordinator or by a JOIN, which leaves it open. -/
theorem collectivesIssue : Obligations.CollectivesIssue := by
  intro loc host s o hs quiet early hn kc hkc
  have run := exec_runColl s loc host kc hkc
  refine ⟨fun row => ⟨s, ?_, rfl⟩, fun row check may => ⟨s, ?_, rfl⟩, fun row check may more _ noAbort fresh => ?_⟩
  · rw [run, runColl_otherRow hn row]
  · rw [run, runColl_held hn row check may]
  · obtain ⟨late, issues⟩ := runColl_issues (host := host) hn row check may
    obtain ⟨⟨js, found⟩, busy, next⟩ := issueColl_opens (s := begunAt s o) (host := host)
      ((startIo_sound ..).mpr (.inl hs)) (quiet_begunAt quiet o) early
      (.io o.tok.stream o.tok.phase o.idx) o.tok.stream o.tok.phase o.tok.step late may more noAbort fresh
    rw [← issues] at found busy next
    refine ⟨_, run, _, found, rfl, rfl, rfl, rfl, rfl, ?_, ?_, next⟩
    · rintro reduces kids ⟨x, free⟩
      exact claimedRun_isSome (s := begunAt s o) (x := x) reduces kids (coSlots_pos check reduces) free
    · intro claims
      obtain ⟨lowest, free⟩ := claimedRun_first (s := begunAt s o) (coSlots_pos check) claims
      simp only [slotFree_begunAt] at lowest free
      exact ⟨lowest, fun j hj => ⟨free j hj, busy claims j hj⟩⟩

end Sys2Proof.Laws
end

section
/-! PROOFS. An op that starts on a unit of its core, and VE_RUN (O45). -/

namespace Sys2Proof.Laws

open Sys2Proof Sys2Proof.Machine
set_option Elab.async false

variable {s t u : State} {c d : Core} {n k : Nat} {o : NextOp} {tok : Token}

/-! ## An op that starts on a unit of its core (R388, R389) -/

/-- The streams of a core's units. -/
def unitStreams (c : Core) : List (Option Nat) :=
  [c.lpa.map (·.tok.stream), c.ve.map (·.tok.stream), c.coe.map (·.tok.stream), c.dma.map (·.tok.stream), c.ccm.map (·.tok.stream)]

theorem unitsOf_streams (c : Core) (tok : Token) : unitsOf c tok = (unitStreams c).all (·.all (· == tok.stream)) := by
  rw [unitsOf_iff]
  simp only [unitStreams, List.all_cons, List.all_nil, Bool.and_true, Bool.and_assoc]

/-- The lists of a core, and their places. -/
def listParts (c : Core) : List Token × List Token × Bool × Nat × Nat := (c.svcTokens, c.tokens, c.preempt, c.next, c.svcNext)

theorem advanceList_streams (c : Core) (k : Nat) : unitStreams (advanceList c k) = unitStreams c := by
  rw [advanceList]
  split <;> rfl

/-- A core whose list has moved on by one op, and whose units are as they were or have taken up an op of that list. -/
theorem activeList_started {i : Nat} (h : activeList c = some (tok, i)) (lists : listParts d = listParts (advanceList c 1))
    (streams : ∀ x ∈ unitStreams d, x ∈ unitStreams c ∨ x = some tok.stream) : activeList d = some (tok, i + 1) := by
  obtain ⟨svc, toks, pre, -, -, -, -⟩ := advanceList_units c 1
  simp only [listParts, Prod.mk.injEq] at lists
  obtain ⟨svc', toks', pre', next', svcNext'⟩ := lists
  refine activeList_moved h Nat.one_pos (by rw [svc', toks', pre', svc, toks, pre]) (by rw [next', svcNext']) fun own => ?_
  rw [unitsOf_streams, List.all_eq_true] at own ⊢
  intro x hx
  rcases streams x hx with old | rfl
  · exact own x old
  · exact beq_self_eq_true _

/-- The core of an op that has been passed: its list one op further. -/
def passed (c : Core) : Core := { advanceList c 1 with noProg := 0, lpaNext := none }

theorem passed_lists (c : Core) : listParts (passed c) = listParts (advanceList c 1) := rfl

theorem passed_streams (c : Core) : unitStreams (passed c) = unitStreams c := advanceList_streams c 1

theorem startable_active {op : Nat} {free : Core → Bool} (h : startable s n op free = some o) :
    activeList (getCore s n) = some (o.tok, o.idx) := activeList_of_nextOp (startable_parts h).1

/-! ## An op that is rejected -/

theorem rejectOp_mem (s : State) (n : Nat) (o : NextOp) (st : Status) : (rejectOp s n o st).mem = s.mem := mem_eq (by simp)

/-- Whatever lists do not hold of a core, a rejected op leaves, but for the look-ahead and the time without progress. -/
theorem rejectOp_units (rise : keysRise s.cores = true) (o : NextOp) (st : Status) :
    units (getCore (rejectOp s n o st) n) = units (passed (getCore s n)) := by
  rw [rejectOp, units_finishOp (passOps_cores_rise rise 1), getCore_passOps rise]
  rfl

theorem passed_units (c : Core) : ((passed c).ve, (passed c).coe, (passed c).dma) = (c.ve, c.coe, c.dma) := by
  rw [passed, advanceList]
  split <;> rfl

theorem rejectOp_unitRuns (rise : keysRise s.cores = true) (o : NextOp) (st : Status) :
    ((getCore (rejectOp s n o st) n).ve, (getCore (rejectOp s n o st) n).coe, (getCore (rejectOp s n o st) n).dma) =
      ((getCore s n).ve, (getCore s n).coe, (getCore s n).dma) :=
  (congrArg (fun c : Core => (c.ve, c.coe, c.dma)) (rejectOp_units rise o st)).trans (passed_units _)

section Rejected

variable {op : Nat} (rise : keysRise s.cores = true) (st : Status)
include rise

theorem rejectOp_coe (h : startable s n op (fun c => c.coe.isNone) = some o) :
    (rejectOp s n o st).mem = s.mem ∧ (getCore (rejectOp s n o st) n).coe = none :=
  ⟨rejectOp_mem .., (congrArg (·.2.1) (rejectOp_unitRuns rise o st)).trans (Option.isNone_iff_eq_none.1 (startable_parts h).2.1)⟩

theorem rejectOp_ve (h : startable s n op (fun c => c.ve.isNone) = some o) :
    (rejectOp s n o st).mem = s.mem ∧ (getCore (rejectOp s n o st) n).ve = none :=
  ⟨rejectOp_mem .., (congrArg (·.1) (rejectOp_unitRuns rise o st)).trans (Option.isNone_iff_eq_none.1 (startable_parts h).2.1)⟩

theorem rejectOp_dma (h : startable s n op (fun c => c.dma.isNone) = some o) :
    (rejectOp s n o st).mem = s.mem ∧ (getCore (rejectOp s n o st) n).dma = none :=
  ⟨rejectOp_mem .., (congrArg (·.2.2) (rejectOp_unitRuns rise o st)).trans (Option.isNone_iff_eq_none.1 (startable_parts h).2.1)⟩

end Rejected

/-! ## VE_RUN (R229, R233) -/

section VeRun

variable (rise : keysRise s.cores = true) (h : startable s n 0x18 (fun c => c.ve.isNone) = some o)
include rise

/-- The core of an op that begins its program: the op in the unit, its context open, its list one op further. -/
theorem getCore_veStart (o : NextOp) : ∃ v c0 c1, getCore (veStart s n o) n = { passed (getCore s n) with ve := some v, ctx0 := c0, ctx1 := c1 } ∧
    (v.tok, v.idx, v.desc) = (o.tok, o.idx, o.desc) := by
  have core : getCore (passOps s n 1) n = passed (getCore s n) := getCore_passOps rise 1
  dsimp only [veStart]
  rw [getCore_setCore_self (passOps_cores_rise rise 1), core]
  obtain ⟨c0, c1, own⟩ := ctxSet_parts _ _ _
  exact ⟨_, c0, c1, own, rfl⟩

theorem veStart_rise (o : NextOp) : keysRise (veStart s n o).cores = true := keysRise_smSet (passOps_cores_rise rise 1)

include h

/-- The op has started its program, which may have come to its end. -/
theorem veRun_runs : activeList (getCore (veGo (veStart s n o) n) n) = some (o.tok, o.idx + 1) ∧
    (getCore (veGo (veStart s n o) n) n).ve.map (fun r => (r.desc, r.idx)) = some (o.desc, o.idx) := by
  obtain ⟨v, c0, c1, begun, own⟩ := getCore_veStart (n := n) rise o
  obtain ⟨-, ⟨pq, f, w, d0, d1, -, core, same⟩, -⟩ := veGo_gone (veStart_rise rise o) n
  rw [begun] at core same
  obtain ⟨tok, idx, desc⟩ : v.tok = o.tok ∧ v.idx = o.idx ∧ v.desc = o.desc := by simpa using own
  obtain ⟨r, rfl, run⟩ := Option.map_eq_some_iff.mp same
  simp only [Prod.mk.injEq] at run
  obtain ⟨tok', idx', desc'⟩ := run
  rw [core]
  refine ⟨activeList_started (startable_active h) (passed_lists (getCore s n)) fun x hx => ?_, ?_⟩
  · have stream : some r.tok.stream = some o.tok.stream := by rw [tok', tok]
    rw [← passed_streams]
    simp only [unitStreams, List.mem_cons, Option.map_some, stream] at hx ⊢
    tauto
  · rw [Option.map_some, desc', idx', desc, idx]

end VeRun

end Sys2Proof.Laws
end

section
/-! PROOFS. VE_SOLVE: the batch, its solutions and its status bytes (O45). -/

namespace Sys2Proof.Laws

open Sys2Proof Sys2Proof.Machine
set_option Elab.async false

variable {s t u : State} {n i : Nat} {o : NextOp} {p : SolveParm} {a b x : List Nat}

/-! ## The length of a solution (R257, R258) -/

/-- A run of operations that each keep a list's length. -/
theorem length_foldl_keeps {α β : Type} {f : List α → β → List α} (h : ∀ x i, (f x i).length = x.length) (l : List β) (x : List α) :
    (l.foldl f x).length = x.length :=
  List.foldlRecOn (motive := fun y : List α => y.length = x.length) l f rfl fun _ same i _ => (h _ i).trans same

theorem mxSet_length (m : List Nat) (w i j x : Nat) : (mxSet m w i j x).length = m.length := List.length_set

theorem swapRows_length (m : List Nat) (w i j : Nat) : (swapRows m w i j).length = m.length :=
  length_foldl_keeps (fun x k => by rw [mxSet_length, mxSet_length]) _ m

theorem substitute_length (coef : Nat → Nat → Nat) (q : Nat → Option Nat) (r : Nat) (ks : Nat → List Nat) (order : List Nat)
    (b : List Nat) : (substitute coef q r ks order b).length = b.length :=
  length_foldl_keeps (fun x _ => length_foldl_keeps (fun _ _ => mxSet_length ..) _ x) order b

/-- The factors of LU with right-hand sides of `k` words. -/
def SidesOf (k : Nat) (f : Option (List Nat × List Nat × List Nat)) : Prop := ∀ u b q, f = some (u, b, q) → b.length = k

theorem luColumn_sides {k : Nat} {f : Option (List Nat × List Nat × List Nat)} (h : SidesOf k f) (n r thr j : Nat) :
    SidesOf k (luColumn n r thr f j) := by
  intro u b q found
  cases f with
  | none => cases found
  | some f =>
    obtain ⟨u0, b0, q0⟩ := f
    rw [luColumn] at found
    dsimp only at found
    split at found
    · simp only [Option.some.injEq, Prod.mk.injEq] at found
      rw [← found.2.1, swapRows_length]
      exact h u0 b0 q0 rfl
    · cases found

theorem solveOnce_length {lu : Bool} {n r tau : Nat} (h : solveOnce lu n r tau a b = some x) : x.length = b.length := by
  dsimp only [solveOnce] at h
  split at h
  · split at h
    · cases h
    next u b1 qs factors =>
      have sides : SidesOf b.length ((List.range n).foldl (luColumn n r (solveThr a n tau)) (some (a, b, []))) :=
        List.foldlRecOn (motive := SidesOf b.length) _ _ (fun _ _ _ same => by cases same; rfl) fun f hf j _ => luColumn_sides hf n r (solveThr a n tau) j
      obtain rfl := Option.some.inj h
      rw [substitute_length, substitute_length]
      exact sides u b1 qs factors
  · split at h
    · cases h
    · obtain rfl := Option.some.inj h
      rw [substitute_length, substitute_length]

theorem solveMatrix_length (h : b.length = p.n * p.r) : (solveMatrix p a b).2.length = p.n * p.r := by
  have nan : (List.replicate (p.n * p.r) (ffNan f32F)).length = p.n * p.r := List.length_replicate
  dsimp only [solveMatrix]
  split
  · exact nan
  · split
    next solved => exact (solveOnce_length solved).trans h
    · split
      · split
        next solved => exact (solveOnce_length solved).trans h
        · exact nan
      · exact nan

/-! ## VE_SOLVE (R256 to R258) -/

/-- Where a batch's solutions and status bytes lie. -/
def solveSpans (p : SolveParm) : List (Nat × Nat) :=
  (p.st, p.batch) :: (List.range p.batch).map fun i => (p.b + i * p.bStride, 4 * p.n * p.r)

/-- The state that a matrix of the batch has left, but for the counts of singular ones. -/
def solved (n : Nat) (p : SolveParm) (s : State) (i : Nat) (res : Nat × List Nat) (bad : Bool) : State :=
  write (write s (.core n) (p.b + i * p.bStride) (res.2.flatMap (leBytes 4)) bad) (.core n) (p.st + i) [BitVec.ofNat 8 res.1]

theorem solved_stores (hs : Memory.wf s.mem = true) (hi : i < p.batch) {res : Nat × List Nat} (len : res.2.length = p.n * p.r) (bad : Bool) :
    Stores (solveSpans p) s (solved n p s i res bad) := by
  have first := stores_write hs (.core n) (p.b + i * p.bStride) (res.2.flatMap (leBytes 4)) bad
  rw [flatMap_leBytes_length, len, ← Nat.mul_assoc] at first
  have sides : Stores (solveSpans p) s (write s (.core n) (p.b + i * p.bStride) (res.2.flatMap (leBytes 4)) bad) := by
    refine first.mono fun x hx => ?_
    rw [List.mem_singleton.mp hx]
    exact List.mem_cons_of_mem _ (List.mem_map.mpr ⟨i, List.mem_range.mpr hi, rfl⟩)
  refine sides.trans ⟨(stores_write sides.wf (.core n) (p.st + i) [BitVec.ofNat 8 res.1] false).wf, fun c hc => ?_⟩
  refine (stores_write sides.wf (.core n) (p.st + i) [BitVec.ofNat 8 res.1] false).same c fun x hx within => ?_
  rw [List.mem_singleton.mp hx] at within
  dsimp only at within
  exact hc (p.st, p.batch) List.mem_cons_self ⟨by omega, by have := within.2; simp only [List.length_singleton] at this; omega⟩

/-- What a step of a batch leaves: bytes in its spans, the op, and every core. -/
structure Solving (p : SolveParm) (x y : State × VeRun) : Prop where
  mem : Stores (solveSpans p) x.1 y.1
  cores : y.1.cores = x.1.cores
  op : (y.2.tok, y.2.desc, y.2.finished) = (x.2.tok, x.2.desc, x.2.finished)

theorem words32_length (bs : Bytes) (k : Nat) : (words32 bs k).length = k := by simp [words32]

theorem solveStep_solving (v : VeRun) (hs : Memory.wf s.mem = true) (hi : i < p.batch) : Solving p (s, v) (solveStep n p s v i) := by
  have len : ∀ bad, (if bad = true then (3, List.replicate (p.n * p.r) (ffNan f32F)) else
      solveMatrix p (words32 (memRead s.mem (p.a + i * p.aStride) (4 * p.n * p.n)) (p.n * p.n))
        (words32 (memRead s.mem (p.b + i * p.bStride) (4 * p.n * p.r)) (p.n * p.r))).2.length = p.n * p.r := by
    intro bad
    split
    · exact List.length_replicate
    · exact solveMatrix_length (words32_length ..)
  have mem := solved_stores (n := n) hs hi (len (spanPoison s.mem (p.a + i * p.aStride) (4 * p.n * p.n) ||
    spanPoison s.mem (p.b + i * p.bStride) (4 * p.n * p.r))) (spanPoison s.mem (p.a + i * p.aStride) (4 * p.n * p.n) ||
    spanPoison s.mem (p.b + i * p.bStride) (4 * p.n * p.r))
  exact ⟨⟨mem.wf, mem.same⟩, (write_cores ..).trans (write_cores ..), rfl⟩

/-- The whole batch. -/
theorem solveBatch_solving (v : VeRun) (hs : Memory.wf s.mem = true) (l : List Nat) (hl : ∀ i ∈ l, i < p.batch) :
    Solving p (s, v) (l.foldl (fun a i => solveStep n p a.1 a.2 i) (s, v)) :=
  List.foldlRecOn (motive := Solving p (s, v)) l _ ⟨.refl hs _, rfl, rfl⟩ fun x done i hi =>
    have next := solveStep_solving (n := n) x.2 done.mem.wf (hl i hi)
    ⟨done.mem.trans next.mem, next.cores.trans done.cores, next.op.trans done.op⟩

/-- The op of a batch before its first matrix. -/
def solveStart (o : NextOp) : VeRun :=
  { tok := o.tok, idx := o.idx, desc := o.desc, prog := [], streams := [], gathers := [], iter := 0, pc := 0, inPos := [], outPos := [],
    outBuf := [], rsPos := 0, scattered := [], nv := false, of := false, infRow := false, maskedRow := false, singular := false,
    hard := none, waiting := false, finished := true }

/-- The state that a batch leaves, its op ended in the unit and the registers of its context cleared. -/
def solveEnd (n : Nat) (p : SolveParm) (r : State × VeRun) : State :=
  setCore r.1 n (ctxSet { getCore r.1 n with ve := some r.2 } p.ctx
    { ctxGet (getCore r.1 n) p.ctx with regs := [], ru := { (ctxGet (getCore r.1 n) p.ctx).ru with open_ := none } })

/-- The batch of an op that has been passed. -/
def solveBatch (s : State) (n : Nat) (o : NextOp) (p : SolveParm) : State × VeRun :=
  (List.range p.batch).foldl (fun a i => solveStep n p a.1 a.2 i) (passOps s n 1, solveStart o)

section Solve

variable (hs : Sound s) (h : startable s n 0x19 (fun c => c.ve.isNone) = some o)
include hs h

theorem solveEnd_gives (p : SolveParm) : activeList (getCore (solveEnd n p (solveBatch s n o p)) n) = some (o.tok, o.idx + 1) ∧
      (getCore (solveEnd n p (solveBatch s n o p)) n).ve.map (fun r => (r.desc, r.finished)) = some (o.desc, true) ∧
      (ctxGet (getCore (solveEnd n p (solveBatch s n o p)) n) p.ctx).regs = [] ∧
      SameMem s (solveEnd n p (solveBatch s n o p)) (solveSpans p) := by
  have done : Solving p (passOps s n 1, solveStart o) (solveBatch s n o p) :=
    solveBatch_solving (s := passOps s n 1) (solveStart o) hs.mem _ fun i hi => List.mem_range.mp hi
  generalize solveBatch s n o p = r at done ⊢
  obtain ⟨mem, cores, op⟩ := done
  obtain ⟨tok, desc, finished⟩ : r.2.tok = o.tok ∧ r.2.desc = o.desc ∧ r.2.finished = true := by simpa [solveStart] using op
  have rise : keysRise r.1.cores = true := by rw [cores]; exact passOps_cores_rise hs.cores 1
  have core : getCore r.1 n = passed (getCore s n) := by
    rw [getCore, cores]
    exact getCore_passOps hs.cores 1
  have own : getCore (solveEnd n p r) n = ctxSet { getCore r.1 n with ve := some r.2 } p.ctx _ := getCore_setCore_self rise
  refine ⟨?_, ?_, by rw [own, ctxGet_ctxSet], mem.same⟩
  · obtain ⟨c0, c1, parts⟩ := ctxSet_parts { getCore r.1 n with ve := some r.2 } p.ctx _
    rw [own, parts, core]
    refine activeList_started (startable_active h) (passed_lists (getCore s n)) fun x hx => ?_
    have stream : some r.2.tok.stream = some o.tok.stream := by rw [tok]
    rw [← passed_streams]
    simp only [unitStreams, List.mem_cons, Option.map_some, stream] at hx ⊢
    tauto
  · obtain ⟨c0, c1, parts⟩ := ctxSet_parts { getCore r.1 n with ve := some r.2 } p.ctx _
    rw [own, parts, Option.map_some, desc, finished]

end Solve

end Sys2Proof.Laws
end

section
/-! PROOFS. DMA_COPY within the module (O45). -/

namespace Sys2Proof.Laws

open Sys2Proof Sys2Proof.Machine
set_option Elab.async false

variable {s t u : State} {n i : Nat} {o : NextOp} {p : DmaParm} {host : List HostLine}

/-! ## A copy within the module (R392) -/

/-- The rows that a copy writes. -/
def dmaSpans (p : DmaParm) : List (Nat × Nat) := (List.range p.rows).map fun i => (gLocal p.dst + i * p.dstPitch, p.row)

/-- What the rows of a copy leave: bytes in the rows that it writes, what access rests on, and every core. -/
structure Copying (p : DmaParm) (s t : State) : Prop where
  mem : Stores (dmaSpans p) s t
  cores : t.cores = s.cores

theorem dmaRow_copying (host : List HostLine) {x : State × Option Status} (hs : Memory.wf x.1.mem = true) (hi : i < p.rows) :
    Copying p x.1 (dmaRow p host x i).1 := by
  have seen : SameBytes x.1 (viewSpan initDma .dma host (viewOf x.1) (gLocal p.src + i * p.srcPitch) p.row).s :=
    sameBytes_viewSpan initDma .dma host (viewOf x.1) ..
  have view : (viewSpan initDma .dma host (viewOf x.1) (gLocal p.src + i * p.srcPitch) p.row).s.cores = x.1.cores := cores_eq (by simp [viewOf])
  dsimp only [dmaRow]
  generalize viewSpan initDma .dma host (viewOf x.1) (gLocal p.src + i * p.srcPitch) p.row = v at seen view ⊢
  have stores := (stores_copySpan (seen.wf hs) v.m initDma .dma (gLocal p.src + i * p.srcPitch) (gLocal p.dst + i * p.dstPitch) p.row).mono
    (spans' := dmaSpans p) fun z hz => by
      rw [List.mem_singleton.mp hz]
      exact List.mem_map.mpr ⟨i, List.mem_range.mpr hi, rfl⟩
  exact ⟨⟨stores.wf, sameMem_trans (seen.sameMem _) stores.same⟩, (cores_eq (by simp)).trans view⟩

theorem dmaRows_copying (p : DmaParm) (host : List HostLine) (hs : Memory.wf s.mem = true) : Copying p s (dmaRows p host s).1 :=
  List.foldlRecOn (motive := fun x : State × Option Status => Copying p s x.1) (List.range p.rows) _ ⟨.refl hs _, rfl⟩ fun _ done _ hi =>
    have next := dmaRow_copying host (p := p) done.mem.wf (List.mem_range.mp hi)
    ⟨done.mem.trans next.mem, next.cores.trans done.cores⟩

/-! ### Its own record, which comes first -/

theorem dmaWarn_mem (p : DmaParm) (host : List HostLine) (s : State) (n : Nat) (st : Option Status) : (dmaWarn p host s n st).mem = s.mem := by
  rw [dmaWarn]
  split
  · exact raiseEvent_mem ..
  · rfl

theorem dmaWarn_cores (p : DmaParm) (host : List HostLine) (s : State) (n : Nat) (st : Option Status) : (dmaWarn p host s n st).cores = s.cores := by
  rw [dmaWarn]
  split
  · exact cores_eq (by simp [dmaEvent])
  · rfl

theorem dmaWarn_mr (p : DmaParm) (host : List HostLine) (s : State) (n : Nat) (st : Option Status) : (dmaWarn p host s n st).mr = s.mr := by
  rw [dmaWarn]
  split
  · exact mr_eq (by simp [dmaEvent])
  · rfl

theorem ground_dmaWarn (p : DmaParm) (host : List HostLine) (s : State) (n : Nat) (st : Option Status) :
    ground (dmaWarn p host s n st) = ground s := by
  rw [dmaWarn]
  split
  · exact ground_raiseEvent ..
  · rfl

/-! ### One row between places that the cluster DMA reaches -/

theorem lines_of_canAccess {r : Reach} {a m : Nat} (h : canAccess s r a m = true) :
    ∀ l ∈ linesOf a m, region l ≠ .host ∧ canAccess s r l 64 = true :=
  fun _ hl => ⟨region_of_canAccess h hl, canAccess_part h hl (Nat.le_refl _) (Nat.le_refl _) (by omega)⟩

/-- A view of lines in no host shows the bytes that memory holds. -/
theorem viewSpan_bytes {init : Nat} {r : Reach} {v : View} {a m : Nat} (h : ∀ l ∈ linesOf a m, region l ≠ .host) (b : Nat) :
    memByte (viewSpan init r host v a m).m b = memByte v.m b := by
  refine List.foldlRecOn (motive := fun w : View => memByte w.m b = memByte v.m b) (linesOf a m) _ rfl fun w same l hl => ?_
  rw [← same, viewLine, if_neg (h l hl)]
  split
  · dsimp only
    split <;> rfl
  · rfl

/-- Where no error is held, a view of lines that the unit reaches has nothing leave. -/
theorem viewSpan_out {init : Nat} {r : Reach} {a m : Nat} (he : s.mr.dramErr = [])
    (h : ∀ l ∈ linesOf a m, region l ≠ .host ∧ canAccess s r l 64 = true) : (viewSpan init r [] (viewOf s) a m).s.out = s.out := by
  refine (List.foldlRecOn (motive := fun v : View => v.s.out = s.out ∧ ground v.s = ground s ∧ v.s.mr = s.mr) (linesOf a m) _
    ⟨rfl, rfl, rfl⟩ fun v same l hl => ?_).1
  obtain ⟨out, base, mr⟩ := same
  have errs : (touch v.s l).mr = s.mr := (mr_eq (by simp)).trans mr
  have demand : demandWith [] (touch v.s l) l = touch v.s l := by
    rw [demandWith, errAt, errs, he]
    split <;> rfl
  rw [viewLine, if_neg (h l hl).1, if_pos ((canAccess_of_ground base ..).trans (h l hl).2)]
  dsimp only
  rw [demand]
  exact ⟨(out_eq (by simp)).trans out, (ground_touch ..).trans base, errs⟩

theorem writeSpan_out {init : Nat} {r : Reach} {a : Nat} {bs : Bytes} {poison : Nat → Bool} (h : canAccess s r a bs.length = true) :
    (writeSpan s init r a bs poison).1.out = s.out := by
  refine List.foldlRecOn (motive := fun x : State × Option Status => x.1.out = s.out) (linesOf a bs.length) _ rfl fun x same l hl => ?_
  rw [writeLine, if_neg (region_of_canAccess h hl)]
  split
  · exact (out_eq (by simp)).trans same
  · exact same

section OneRow

variable (hs : Memory.wf s.mem = true) (one : p.rows = 1) (src : canAccess s .dma (gLocal p.src) p.row = true)
  (dst : canAccess s .dma (gLocal p.dst) p.row = true)
include one

theorem dmaRows_one (s : State) : dmaRows p host s = dmaRow p host (s, none) 0 := by
  rw [dmaRows, one]
  rfl

include src dst

include hs in
theorem dmaRows_bytes : memRead (dmaRows p host s).1.mem (gLocal p.dst) p.row = memRead s.mem (gLocal p.src) p.row := by
  have seen : SameBytes s (viewSpan initDma .dma host (viewOf s) (gLocal p.src) p.row).s := sameBytes_viewSpan initDma .dma host (viewOf s) ..
  have base : ground (viewSpan initDma .dma host (viewOf s) (gLocal p.src) p.row).s = ground s := ground_viewSpan ..
  have bytes := fun b => viewSpan_bytes (init := initDma) (r := .dma) (host := host) (v := viewOf s) (fun l hl => (lines_of_canAccess src l hl).1) b
  rw [dmaRows_one one, dmaRow]
  dsimp only
  rw [Nat.zero_mul, Nat.zero_mul, Nat.add_zero, Nat.add_zero]
  generalize viewSpan initDma .dma host (viewOf s) (gLocal p.src) p.row = v at seen base bytes ⊢
  rw [memRead, memRead]
  refine List.map_congr_left fun i hi => ?_
  rw [memByte_copySpan (seen.wf hs) v.m initDma (gLocal p.src) ((canAccess_of_ground base ..).trans dst) (List.mem_range.mp hi)]
  exact bytes _

variable (he : s.mr.dramErr = [])
include he

include hs in
theorem dmaRows_status : (dmaRows p [] s).2 = if spanPoison s.mem (gLocal p.src) p.row then some .poisoned else none := by
  have clean := clean_viewSpan (init := initDma) (v := viewOf s) (host := []) hs he (fun _ h => absurd h List.not_mem_nil) ⟨rfl, rfl, rfl, rfl⟩
    (lines_of_canAccess src)
  have noErr := err_viewSpan (init := initDma) (host := []) (lines_of_canAccess src)
  rw [dmaRows_one one, dmaRow]
  dsimp only
  rw [Nat.zero_mul, Nat.zero_mul, Nat.add_zero, Nat.add_zero, noErr, clean.view,
    copySpan_status _ initDma _ ((canAccess_of_ground clean.ground ..).trans dst)]
  cases spanPoison s.mem (gLocal p.src) p.row <;> rfl

theorem dmaRows_out : (dmaRows p [] s).1.out = s.out := by
  have out := viewSpan_out (init := initDma) he (lines_of_canAccess src)
  have base : ground (viewSpan initDma .dma [] (viewOf s) (gLocal p.src) p.row).s = ground s := ground_viewSpan ..
  rw [dmaRows_one one, dmaRow]
  dsimp only
  rw [Nat.zero_mul, Nat.zero_mul, Nat.add_zero, Nat.add_zero]
  generalize viewSpan initDma .dma [] (viewOf s) (gLocal p.src) p.row = v at out base ⊢
  refine Eq.trans (writeSpan_out ?_) out
  rw [memRead_length]
  exact (canAccess_of_ground base ..).trans dst

end OneRow

/-! ### The transfer -/

/-- The rows of a copy, behind the record that it ends with. -/
def dmaMoved (s : State) (n : Nat) (p : DmaParm) (host : List HostLine) : State × Option Status :=
  dmaRows p host (dmaWarn p host s n (dmaRows p host s).2)

/-- The state in which a copy within the module has landed. -/
def dmaDone (s : State) (n : Nat) (o : NextOp) (host : List HostLine) : State :=
  dmaRun (dmaMoved s n (dmaParm o.desc) host).1 n o ((dmaMoved s n (dmaParm o.desc) host).2.getD .ok) true

section Transfer

variable (h : startable s n 0x08 (fun c => c.dma.isNone) = some o)
include h

theorem dmaRun_gives (cores : u.cores = s.cores) (rise : keysRise s.cores = true) (st : Status) :
    activeList (getCore (dmaRun u n o st true) n) = some (o.tok, o.idx + 1) ∧
      (getCore (dmaRun u n o st true) n).dma.map (fun r => (r.finished, r.status)) = some (true, st) := by
  have rise' : keysRise u.cores = true := by rw [cores]; exact rise
  have core : getCore (passOps u n 1) n = passed (getCore s n) := by
    rw [getCore_passOps rise', getCore, cores]
    rfl
  dsimp only [dmaRun]
  rw [getCore_setCore_self (passOps_cores_rise rise' 1), core]
  refine ⟨activeList_started (startable_active h) (passed_lists (getCore s n)) fun x hx => ?_, rfl⟩
  rw [← passed_streams]
  simp only [unitStreams, List.mem_cons, Option.map_some] at hx ⊢
  tauto

variable (check : dmaCheck s o.tok.stream o.desc = none)

omit h in
theorem dmaRun_mem (s : State) (n : Nat) (o : NextOp) (st : Status) (f : Bool) : (dmaRun s n o st f).mem = s.mem := rfl

omit h in
theorem dmaRun_out (s : State) (n : Nat) (o : NextOp) (st : Status) (f : Bool) : (dmaRun s n o st f).out = s.out := rfl

include check

/-- A copy within the module runs at once, behind the record that it ends with, if any. -/
theorem dmaCopy_here {core : CoreId} (hn : core.toNat = n)
    (here : (localNode s (gNode (dmaParm o.desc).src) && localNode s (gNode (dmaParm o.desc).dst)) = true) :
    exec (.dmaCopy core host) s = .next (dmaDone s n o host) := by
  show execDmaCopy core host s = _
  rw [execDmaCopy, hn, h]
  dsimp only
  rw [check]
  dsimp only
  rw [if_pos here]
  rfl

theorem dmaCopy_noRoute {core : CoreId} (hn : core.toNat = n)
    (away : (localNode s (gNode (dmaParm o.desc).src) && localNode s (gNode (dmaParm o.desc).dst)) = false)
    (none : fabRoute s (if localNode s (gNode (dmaParm o.desc).src) then gNode (dmaParm o.desc).dst else gNode (dmaParm o.desc).src) = none) :
    exec (.dmaCopy core host) s = .next (rejectOp s n o .noRoute) := by
  show execDmaCopy core host s = _
  rw [execDmaCopy, hn, h]
  dsimp only
  rw [check]
  dsimp only
  rw [if_neg (by rw [away]; exact Bool.false_ne_true), none]

omit check in
theorem dmaCopy_rejected {core : CoreId} {st : Status} (hn : core.toNat = n) (fails : dmaCheck s o.tok.stream o.desc = some st) :
    exec (.dmaCopy core host) s = .next (rejectOp s n o st) := by
  show execDmaCopy core host s = _
  rw [execDmaCopy, hn, h]
  dsimp only
  rw [fails]

end Transfer

end Sys2Proof.Laws
end

section
/-! PROOFS. A converted matrix written within one stretch of memory (O45). -/

namespace Sys2Proof.Laws

open Sys2Proof Sys2Proof.Machine
set_option Elab.async false

variable {m m' m'' : Mem} {lo len a k r c rows cols fmt : Nat} {bs : Bytes} {mt : Mat} {f : FmtWord}

/-! ## Memory after writes within one stretch of it -/

/-- Memory `m'` is in canonical form, and reads as `m` but for `len` bytes from `lo`. -/
structure WritesIn (lo len : Nat) (m m' : Mem) : Prop where
  wf : Memory.wf m' = true
  same : ∀ a, ¬(lo ≤ a ∧ a < lo + len) → memByte m' a = memByte m a

theorem WritesIn.refl (h : Memory.wf m = true) : WritesIn lo len m m := ⟨h, fun _ _ => rfl⟩

theorem WritesIn.trans (h : WritesIn lo len m m') (h' : WritesIn lo len m' m'') : WritesIn lo len m m'' :=
  ⟨h'.wf, fun a out => (h'.same a out).trans (h.same a out)⟩

theorem writesIn_memWrite (h : Memory.wf m = true) (within : bs ≠ [] → lo ≤ a ∧ a + bs.length ≤ lo + len) (p : Bool) :
    WritesIn lo len m (memWrite m a bs p) := by
  refine ⟨memWrite_wf h, fun b out => ?_⟩
  rw [memByte_memWrite h, if_neg]
  rintro ⟨low, high⟩
  have some_ : bs ≠ [] := by rintro rfl; simp at high; omega
  have := within some_
  omega

theorem writesIn_poisonSpan (h : Memory.wf m = true) (a n : Nat) : WritesIn lo len m (poisonSpan m a n) := by
  refine ⟨poisonSpan_wf h, fun b _ => ?_⟩
  rw [poisonSpan]
  split
  · rfl
  · rw [memByte, memByte, markLines_cells]

/-- A run of writes within one stretch. -/
theorem writesIn_foldl {α : Type} {g : Mem → α → Mem} {l : List α} (h : Memory.wf m = true)
    (step : ∀ u, Memory.wf u = true → ∀ x ∈ l, WritesIn lo len u (g u x)) : WritesIn lo len m (l.foldl g m) :=
  List.foldlRecOn (motive := WritesIn lo len m) l g (.refl h) fun u done x hx => done.trans (step u done.wf x hx)

/-! ## The bytes of an element (R150) -/

/-- Where the byte group of an element ends. -/
def groupEnd (fmt c : Nat) : Nat := (elemGroup fmt c).1 + (elemGroup fmt c).2.1

/-- How many elements share a byte group. -/
def perGroup (fmt : Nat) : Nat := if elemBits fmt = 4 then 2 else if elemBits fmt = 6 then 4 else 1

theorem elemBits_cases (fmt : Nat) : elemBits fmt = 4 ∨ elemBits fmt = 6 ∨ elemBits fmt = 8 ∨ elemBits fmt = 16 ∨ elemBits fmt = 32 := by
  unfold elemBits
  split <;> simp

theorem groupEnd_le (h : c < cols) : groupEnd fmt c ≤ packedLen fmt cols := by
  unfold groupEnd elemGroup packedLen cdiv
  rcases elemBits_cases fmt with b | b | b | b | b <;> rw [b] <;> simp only [reduceIte, Nat.reduceEqDiff] <;> omega

/-- The byte group of an element, counted from that of an element before it. -/
theorem groupEnd_sub (h : lo ≤ c) : groupEnd fmt (c - lo / perGroup fmt * perGroup fmt) + (elemGroup fmt lo).1 = groupEnd fmt c := by
  unfold groupEnd elemGroup perGroup
  rcases elemBits_cases fmt with b | b | b | b | b <;> rw [b] <;> simp only [reduceIte, Nat.reduceEqDiff] <;> omega

theorem putBytes_length_le (bs : Bytes) (i : Nat) (x : Bytes) : (putBytes bs i x).length ≤ max bs.length (i + x.length) := by
  simp only [putBytes, List.length_append, List.length_take, List.length_drop]
  omega

theorem packElem_length_le (fmt : Nat) (row : Bytes) (i code : Nat) : (packElem fmt row i code).length ≤ max row.length (groupEnd fmt i) := by
  unfold packElem groupEnd elemGroup
  rcases elemBits_cases fmt with b | b | b | b | b <;> rw [b] <;> dsimp only <;>
    refine Nat.le_trans (putBytes_length_le ..) ?_ <;> simp only [leBytes_length, List.length_singleton] <;> omega

/-! ## A row of a matrix -/

/-- The rows of a matrix lie within a stretch of memory. -/
def RowsIn (lo len : Nat) (mt : Mat) (rows cols : Nat) : Prop :=
  ∀ r < rows, lo ≤ mt.base + r * mt.pitch ∧ mt.base + r * mt.pitch + packedLen mt.fw.fmt cols ≤ lo + len

theorem foldl_min_le (l : List (Nat × Nat × Bool)) (x : Nat) :
    l.foldl (fun a e => min a e.1) x ≤ x ∧ ∀ e ∈ l, l.foldl (fun a e => min a e.1) x ≤ e.1 := by
  induction l generalizing x with
  | nil => exact ⟨Nat.le_refl _, fun _ h => absurd h List.not_mem_nil⟩
  | cons y l ih =>
    obtain ⟨first, rest⟩ := ih (min x y.1)
    rw [List.foldl_cons]
    refine ⟨by omega, fun e he => ?_⟩
    rcases List.mem_cons.mp he with rfl | he
    · omega
    · exact rest e he

theorem foldl_max_lt {l : List (Nat × Nat × Bool)} {x : Nat} (hx : x < cols) (hl : ∀ e ∈ l, e.1 < cols) :
    l.foldl (fun a e => max a e.1) x < cols :=
  List.foldlRecOn (motive := (· < cols)) l _ hx fun _ hy e he => Nat.max_lt.mpr ⟨hy, hl e he⟩

theorem writesIn_writeRow (h : Memory.wf m = true) (rowsIn : RowsIn lo len mt rows cols) (hr : r < rows) {es : List (Nat × Nat × Bool)}
    (hc : ∀ e ∈ es, e.1 < cols) : WritesIn lo len m (writeRow m mt r es) := by
  obtain ⟨low, high⟩ := rowsIn r hr
  unfold writeRow
  split
  · exact .refl h
  next e0 rest =>
    dsimp only
    obtain ⟨minFirst, minRest⟩ := foldl_min_le rest e0.1
    have maxIn := foldl_max_lt (hc e0 List.mem_cons_self) fun e he => hc e (List.mem_cons_of_mem _ he)
    generalize rest.foldl (fun a e => min a e.1) e0.1 = first at minFirst minRest ⊢
    generalize rest.foldl (fun a e => max a e.1) e0.1 = last at maxIn ⊢
    have before : ∀ e ∈ e0 :: rest, first ≤ e.1 := fun e he => by
      rcases List.mem_cons.mp he with rfl | he
      · exact minFirst
      · exact minRest e he
    refine WritesIn.trans (writesIn_memWrite h (fun some_ => ⟨by omega, ?_⟩) false) (writesIn_foldl (memWrite_wf h) fun u hu e _ => ?_)
    · have bound : ∀ bs : Bytes, (elemGroup mt.fw.fmt first).1 + bs.length ≤ packedLen mt.fw.fmt cols →
          (elemGroup mt.fw.fmt first).1 + ((e0 :: rest).foldl (fun bs e => packElem mt.fw.fmt bs
            (e.1 - first / perGroup mt.fw.fmt * perGroup mt.fw.fmt) e.2.1) bs).length ≤ packedLen mt.fw.fmt cols := fun bs hb =>
        List.foldlRecOn (motive := fun x : Bytes => (elemGroup mt.fw.fmt first).1 + x.length ≤ packedLen mt.fw.fmt cols) _ _ hb fun x hx e he => by
          have grown := packElem_length_le mt.fw.fmt x (e.1 - first / perGroup mt.fw.fmt * perGroup mt.fw.fmt) e.2.1
          have ends := groupEnd_sub (fmt := mt.fw.fmt) (before e he)
          have inside := groupEnd_le (fmt := mt.fw.fmt) (hc e he)
          omega
      have start := groupEnd_le (fmt := mt.fw.fmt) maxIn
      have least := groupEnd_le (fmt := mt.fw.fmt) (Nat.lt_of_le_of_lt (before e0 List.mem_cons_self) (hc e0 List.mem_cons_self))
      have whole := bound (memRead m (mt.base + r * mt.pitch + (elemGroup mt.fw.fmt first).1)
        ((elemGroup mt.fw.fmt last).1 + (elemGroup mt.fw.fmt last).2.1 - (elemGroup mt.fw.fmt first).1)) (by
          rw [memRead_length]
          unfold groupEnd at start least
          omega)
      unfold perGroup at whole
      omega
    · split
      · exact writesIn_poisonSpan hu _ _
      · exact .refl hu

/-- Rows of elements, each with its place in the matrix. -/
theorem writesIn_rows {α : Type} (h : Memory.wf m = true) (rowsIn : RowsIn lo len mt rows cols) {l : List α} {row : α → Nat}
    {cells : Nat → List (Nat × Nat × Bool)} {rs : List Nat} (hr : ∀ r ∈ rs, ∃ x ∈ l, r = row x) (hl : ∀ x ∈ l, row x < rows)
    (hc : ∀ r, ∀ e ∈ cells r, e.1 < cols) : WritesIn lo len m (rs.foldl (fun u r => writeRow u mt r (cells r)) m) :=
  writesIn_foldl h fun _ hu r hx => by
    obtain ⟨x, mem, rfl⟩ := hr r hx
    exact writesIn_writeRow hu rowsIn (hl x mem) (hc _)

theorem mem_of_distinct {α : Type} [BEq α] {l : List α} {x : α} (h : x ∈ distinct l) : x ∈ l := by
  induction l with
  | nil => exact h
  | cons y l ih =>
    rw [distinct] at h
    rcases List.mem_cons.mp h with rfl | h
    · exact List.mem_cons_self
    · exact List.mem_cons_of_mem _ (ih (List.mem_of_mem_filter h))

theorem writesIn_writeElems (h : Memory.wf m = true) (rowsIn : RowsIn lo len mt rows cols) {es : List OutElem}
    (hes : ∀ e ∈ es, e.m < rows ∧ e.n < cols) : WritesIn lo len m (writeElems m mt es) := by
  refine writesIn_rows (l := es) (row := (·.m)) h rowsIn (fun r hr => ?_) (fun e he => (hes e he).1) fun r x hx => ?_
  · obtain ⟨e, he, rfl⟩ := List.mem_map.mp (mem_of_distinct hr)
    exact ⟨e, he, rfl⟩
  · obtain ⟨e, he, rfl⟩ := List.mem_map.mp hx
    exact (hes e (List.mem_of_mem_filter he)).2

theorem padCells_in {R C : Nat} (hR : R ≤ (paddedDims f R C).1) (hC : C ≤ (paddedDims f R C).2) {x : Nat × Nat} {rs cs : List Nat}
    (h : x ∈ padCells f R C rs cs) : x.1 < (paddedDims f R C).1 ∧ x.2 < (paddedDims f R C).2 := by
  simp only [padCells, List.mem_append, List.mem_flatMap, List.mem_map, List.mem_filter, decide_eq_true_eq] at h
  have right : ∀ (b : Bool) y, y ∈ (if b = true then (List.range ((paddedDims f R C).2 - C)).map (· + C) else []) → y < (paddedDims f R C).2 := by
    intro b y hy
    split at hy
    · obtain ⟨z, hz, rfl⟩ := List.mem_map.mp hy
      have := List.mem_range.mp hz
      omega
    · cases hy
  have below : ∀ (b : Bool) y, y ∈ (if b = true then (List.range ((paddedDims f R C).1 - R)).map (· + R) else []) → y < (paddedDims f R C).1 := by
    intro b y hy
    split at hy
    · obtain ⟨z, hz, rfl⟩ := List.mem_map.mp hy
      have := List.mem_range.mp hz
      omega
    · cases hy
  rcases h with ⟨y, ⟨-, hy⟩, z, hz, rfl⟩ | ⟨y, hy, z, hz, rfl⟩
  · exact ⟨Nat.lt_of_lt_of_le hy hR, right _ z hz⟩
  · refine ⟨below _ y hy, ?_⟩
    rcases hz with ⟨-, hz⟩ | hz
    · exact Nat.lt_of_lt_of_le hz hC
    · exact right _ z hz

theorem writesIn_writePadding {R C : Nat} (h : Memory.wf m = true) (hR : R ≤ (paddedDims mt.fw R C).1) (hC : C ≤ (paddedDims mt.fw R C).2)
    (rowsIn : RowsIn lo len mt (paddedDims mt.fw R C).1 (paddedDims mt.fw R C).2) (rs cs : List Nat) :
    WritesIn lo len m (writePadding m mt R C rs cs) := by
  refine writesIn_rows (l := padCells mt.fw R C rs cs) (row := (·.1)) h rowsIn (fun r hr => ?_) (fun x hx => (padCells_in hR hC hx).1)
    fun r x hx => ?_
  · obtain ⟨x, hx, rfl⟩ := List.mem_map.mp (mem_of_distinct hr)
    exact ⟨x, hx, rfl⟩
  · obtain ⟨y, hy, rfl⟩ := List.mem_map.mp hx
    exact (padCells_in hR hC (List.mem_of_mem_filter hy)).2

end Sys2Proof.Laws
end

section
/-! PROOFS. Scales, sides and the shape of a rotated matrix (O45). -/

namespace Sys2Proof.Laws

open Sys2Proof Sys2Proof.Machine
set_option Elab.async false

variable {m : Mem} {lo len k r c rows cols : Nat} {mt : Mat} {f : FmtWord} {p : CoeParm}

/-! ## Extents in a core's store -/

theorem inStore_row {off rowLen pitch : Nat} (h : inStore off rows rowLen pitch = true) (hr : r < rows) :
    off + r * pitch + rowLen ≤ coreStoreLen := by
  obtain ⟨-, fits⟩ := Bool.and_eq_true_iff.mp h
  have whole : off + ((rows - 1) * pitch + rowLen) ≤ coreStoreLen := of_decide_eq_true fits
  have : r * pitch ≤ (rows - 1) * pitch := Nat.mul_le_mul_right _ (by omega)
  omega

theorem div_lt_cdiv {a b n : Nat} (hb : 0 < b) (h : a < n) : a / b < cdiv n b := by
  rw [cdiv, Nat.div_lt_iff_lt_mul hb]
  have := Nat.div_add_mod (n + b - 1) b
  have := Nat.mod_lt (n + b - 1) hb
  rw [Nat.mul_comm]
  omega

theorem blkSize_pos (f : FmtWord) : 0 < blkSize f := Nat.two_pow_pos _

theorem gridCell_lt (hr : r < rows) (hc : c < cols) : (gridCell f r c).1 < (gridDims f rows cols).1 ∧ (gridCell f r c).2 < (gridDims f rows cols).2 := by
  simp only [gridCell, gridDims]
  split
  · exact ⟨hr, div_lt_cdiv (blkSize_pos f) hc⟩
  · exact ⟨div_lt_cdiv (blkSize_pos f) hr, hc⟩
  · exact ⟨div_lt_cdiv (blkSize_pos f) hr, div_lt_cdiv (blkSize_pos f) hc⟩

theorem le_roundUp {a b : Nat} (hb : 0 < b) : a ≤ roundUp a b := by
  rw [roundUp, cdiv]
  have := Nat.div_add_mod (a + b - 1) b
  have := Nat.mod_lt (a + b - 1) hb
  rw [Nat.mul_comm]
  omega

theorem paddedDims_ge (f : FmtWord) (R C : Nat) : R ≤ (paddedDims f R C).1 ∧ C ≤ (paddedDims f R C).2 := by
  simp only [paddedDims]
  split
  · split
    · exact ⟨Nat.le_refl _, le_roundUp (blkSize_pos f)⟩
    · exact ⟨le_roundUp (blkSize_pos f), Nat.le_refl _⟩
    · exact ⟨le_roundUp (blkSize_pos f), le_roundUp (blkSize_pos f)⟩
  · exact ⟨Nat.le_refl _, Nat.le_refl _⟩

/-! ## Scales and sides -/

/-- Cells of `w` bytes each lie within a stretch of memory. -/
def CellsIn (lo len base pitch w : Nat) (grid : Nat × Nat) : Prop :=
  ∀ x : Nat × Nat, x.1 < grid.1 → x.2 < grid.2 → lo ≤ base + x.1 * pitch + w * x.2 ∧ base + x.1 * pitch + w * x.2 + w ≤ lo + len

theorem cellsIn_store {base off pitch w : Nat} {grid : Nat × Nat} (h : inStore off grid.1 (w * grid.2) pitch = true) :
    CellsIn base coreStoreLen (base + off) pitch w grid := by
  intro x hx hy
  have row := inStore_row h hx
  have : w * x.2 + w ≤ w * grid.2 := by
    rw [← Nat.mul_succ]
    exact Nat.mul_le_mul_left _ hy
  omega

theorem writesIn_cell {base pitch w : Nat} {grid x : Nat × Nat} {bs : Bytes} (h : Memory.wf m = true) (cells : CellsIn lo len base pitch w grid)
    (hx : x.1 < grid.1 ∧ x.2 < grid.2) (hb : bs.length = w) : WritesIn lo len m (memWrite m (base + x.1 * pitch + w * x.2) bs false) := by
  obtain ⟨low, high⟩ := cells x hx.1 hx.2
  exact writesIn_memWrite h (fun _ => ⟨low, by omega⟩) false

theorem writesIn_writeScales {bs : List OutBlk} {grid : Nat × Nat} (h : Memory.wf m = true) (hb : ∀ b ∈ bs, b.cell.1 < grid.1 ∧ b.cell.2 < grid.2)
    (scales : scaled mt.fw.fmt = true → CellsIn lo len mt.sBase mt.sPitch 1 grid)
    (zeros : isUQ mt.fw.fmt = true → CellsIn lo len mt.zBase mt.zPitch 1 grid) : WritesIn lo len m (writeScales m mt bs) := by
  rw [writeScales]
  split
  next sc =>
    refine writesIn_foldl h fun u hu b hx => ?_
    split
    · exact .refl hu
    · have scale : WritesIn lo len u (memWrite u (mt.sBase + b.cell.1 * mt.sPitch + b.cell.2) [BitVec.ofNat 8 b.scale] false) := by
        have cell := writesIn_cell (bs := [BitVec.ofNat 8 b.scale]) hu (scales sc) (hb b hx) rfl
        rwa [Nat.one_mul] at cell
      dsimp only
      split
      next uq =>
        have cell := writesIn_cell (bs := [BitVec.ofNat 8 b.zp]) scale.wf (zeros uq) (hb b hx) rfl
        rw [Nat.one_mul] at cell
        exact scale.trans cell
      · exact scale
  · exact .refl h

theorem writesIn_writeSides {bs : List OutBlk} {grid : Nat × Nat} {sums outl : Option (Nat × Nat)} (h : Memory.wf m = true)
    (hb : ∀ b ∈ bs, b.cell.1 < grid.1 ∧ b.cell.2 < grid.2) (sumsIn : ∀ x, sums = some x → CellsIn lo len x.1 x.2 4 grid)
    (outlIn : ∀ x, outl = some x → CellsIn lo len x.1 x.2 8 grid) : WritesIn lo len m (writeSides m sums outl bs) := by
  refine writesIn_foldl h fun u hu b hx => ?_
  cases sums with
  | none =>
    cases outl with
    | none => exact .refl hu
    | some y => exact writesIn_cell hu (outlIn y rfl) (hb b hx) (leBytes_length ..)
  | some x =>
    have first := writesIn_cell hu (sumsIn x rfl) (hb b hx) (leBytes_length 4 b.sum)
    cases outl with
    | none => exact first
    | some y => exact first.trans (writesIn_cell first.wf (outlIn y rfl) (hb b hx) (leBytes_length ..))

/-! ## The shape of a rotated matrix (R193, R201) -/

/-- A matrix of at most `h` rows of at most `w` entries. -/
def Shaped {α : Type} (h w : Nat) (x : List (List α)) : Prop := x.length ≤ h ∧ ∀ row ∈ x, row.length ≤ w

theorem applySigns_length_le (sg : List Bool) (xs : List Nat) : (applySigns sg xs).length ≤ xs.length := by
  simp only [applySigns, List.length_map, List.length_zip]
  exact Nat.min_le_left ..

theorem rotBlock_length_le (h : Nat) (inv : Bool) (sg : List Bool) (xs : List Nat) : (rotBlock h inv sg xs).1.length ≤ xs.length := by
  have stages : ∀ x0 : List Nat, ((List.range h).foldl (fun (a : List Nat × Bool) t => ((butterfly t a.1).1, a.2 || (butterfly t a.1).2)) (x0, false)).1.length =
      x0.length := fun x0 =>
    List.foldlRecOn (motive := fun a : List Nat × Bool => a.1.length = x0.length) _ _ rfl fun a same t _ => by
      simp only [butterfly, List.length_map, List.length_range, same]
  dsimp only [rotBlock]
  cases inv
  · simp only [Bool.false_eq_true, if_false, stages]
    exact applySigns_length_le ..
  · simp only [if_true]
    refine Nat.le_trans (applySigns_length_le ..) ?_
    rw [stages]

theorem rotOne_length_le (h : Nat) (inv : Bool) (sg : List Bool) (xs : List PVal) : (rotOne h inv sg xs).1.length ≤ xs.length := by
  dsimp only [rotOne]
  split
  · exact Nat.le_of_eq (List.length_map _)
  · split
    · exact Nat.le_of_eq (List.length_map _)
    · split
      · exact Nat.le_of_eq (List.length_map _)
      · rw [List.length_map]
        refine Nat.le_trans (rotBlock_length_le ..) ?_
        rw [List.length_map]

theorem rotRow_length_le (h : Nat) (inv : Bool) (sign : Nat → Bool) (row : List PVal) : (rotRow h inv sign row).1.length ≤ row.length := by
  have blocks : ∀ j, ((List.range j).foldl (fun (a : List PVal × RotTally) b =>
      (a.1 ++ (rotOne h inv ((List.range (2 ^ h)).map (fun i => sign (b * 2 ^ h + i))) ((row.drop (b * 2 ^ h)).take (2 ^ h))).1,
        addTally a.2 (rotOne h inv ((List.range (2 ^ h)).map (fun i => sign (b * 2 ^ h + i))) ((row.drop (b * 2 ^ h)).take (2 ^ h))).2))
      ([], noTally)).1.length ≤ j * 2 ^ h := by
    intro j
    induction j with
    | zero => exact Nat.zero_le _
    | succ j ih =>
      rw [List.range_succ, List.foldl_append, List.foldl_cons, List.foldl_nil, List.length_append, Nat.succ_mul]
      refine Nat.add_le_add ih (Nat.le_trans (rotOne_length_le ..) ?_)
      exact List.length_take_le ..
  exact Nat.le_trans (blocks _) (Nat.div_mul_le_self ..)

theorem rotRows_shaped (h : Nat) (inv : Bool) (sign : Nat → Bool) {x : List (List PVal)} {hh w : Nat} (shape : Shaped hh w x) :
    Shaped hh w (rotRows h inv sign x).1 := by
  have rows : ∀ (l : List (List PVal)) (a : List (List PVal) × RotTally), (∀ row ∈ l, row.length ≤ w) → (∀ row ∈ a.1, row.length ≤ w) →
      (l.foldl (fun (a : List (List PVal) × RotTally) row => (a.1 ++ [(rotRow h inv sign row).1], addTally a.2 (rotRow h inv sign row).2)) a).1.length =
        a.1.length + l.length ∧
      ∀ row ∈ (l.foldl (fun (a : List (List PVal) × RotTally) row => (a.1 ++ [(rotRow h inv sign row).1], addTally a.2 (rotRow h inv sign row).2)) a).1,
        row.length ≤ w := by
    intro l
    induction l with
    | nil => exact fun a _ ha => ⟨rfl, ha⟩
    | cons y l ih =>
      intro a hl ha
      rw [List.foldl_cons]
      obtain ⟨long, all⟩ := ih (a.1 ++ [(rotRow h inv sign y).1], addTally a.2 (rotRow h inv sign y).2)
        (fun row hrow => hl row (List.mem_cons_of_mem _ hrow)) fun row hrow => by
          rcases List.mem_append.mp hrow with old | new
          · exact ha row old
          · rw [List.mem_singleton.mp new]
            exact Nat.le_trans (rotRow_length_le ..) (hl y List.mem_cons_self)
      refine ⟨long.trans ?_, all⟩
      simp only [List.length_append, List.length_cons, List.length_nil]
      omega
  obtain ⟨long, all⟩ := rows x ([], noTally) shape.2 fun _ h => absurd h List.not_mem_nil
  refine ⟨?_, all⟩
  show (x.foldl _ ([], noTally)).1.length ≤ hh
  rw [long]
  simpa using shape.1

theorem transpose_shaped {α : Type} [Inhabited α] {x : List (List α)} {h w : Nat} (rows : x.length ≤ h) : Shaped w h (transpose w x) := by
  refine ⟨by simp [transpose], fun row hrow => ?_⟩
  obtain ⟨c, -, rfl⟩ := List.mem_map.mp hrow
  rw [List.length_map]
  exact rows

theorem shaped_append_drop {x y : List (List PVal)} {h w n : Nat} (shape : Shaped h w x) (rows : Shaped n w y) (hy : y.length ≤ (x.take n).length) :
    Shaped h w (y ++ x.drop n) := by
  refine ⟨?_, fun row hrow => ?_⟩
  · have := shape.1
    simp only [List.length_append, List.length_drop, List.length_take] at hy ⊢
    omega
  · rcases List.mem_append.mp hrow with h1 | h2
    · exact rows.2 row h1
    · exact shape.2 row (List.mem_of_mem_drop h2)

theorem coeTurn_shaped (p : CoeParm) (seed : Nat) {x : List (List PVal)} (shape : Shaped (coeDims p).1 (coeDims p).2 x) :
    Shaped (coeOut p).1 (coeOut p).2 (coeTurn p seed x).1 := by
  dsimp only [coeTurn]
  have rowsTurned : Shaped (coeDims p).1 (coeDims p).2 (if p.hr = 0 then (x, noTally) else
      ((rotRows p.hr p.rinv (fun i => rotSign seed p.rid p.epoch (p.rorg + i)) (x.take p.rows)).1 ++ x.drop p.rows,
        (rotRows p.hr p.rinv (fun i => rotSign seed p.rid p.epoch (p.rorg + i)) (x.take p.rows)).2)).1 := by
    split
    · exact shape
    · have part : Shaped (x.take p.rows).length (coeDims p).2 (x.take p.rows) :=
        ⟨Nat.le_refl _, fun row hrow => shape.2 row (List.mem_of_mem_take hrow)⟩
      have turned := rotRows_shaped p.hr p.rinv (fun i => rotSign seed p.rid p.epoch (p.rorg + i)) part
      refine shaped_append_drop shape ⟨Nat.le_trans turned.1 (List.length_take_le ..), turned.2⟩ turned.1
  generalize (if p.hr = 0 then (x, noTally) else
      ((rotRows p.hr p.rinv (fun i => rotSign seed p.rid p.epoch (p.rorg + i)) (x.take p.rows)).1 ++ x.drop p.rows,
        (rotRows p.hr p.rinv (fun i => rotSign seed p.rid p.epoch (p.rorg + i)) (x.take p.rows)).2)) = a at rowsTurned ⊢
  have turned : Shaped (coeDims p).1 (coeDims p).2 (if p.hc = 0 then (a.1, noTally) else
      (transpose (coeDims p).1 (rotRows p.hc p.cinv (fun i => rotSign seed p.cid p.epoch (p.corg + i)) (transpose (coeDims p).2 a.1)).1,
        (rotRows p.hc p.cinv (fun i => rotSign seed p.cid p.epoch (p.corg + i)) (transpose (coeDims p).2 a.1)).2)).1 := by
    split
    · exact rowsTurned
    · exact transpose_shaped (rotRows_shaped _ _ _ (transpose_shaped rowsTurned.1)).1
  generalize (if p.hc = 0 then (a.1, noTally) else
      (transpose (coeDims p).1 (rotRows p.hc p.cinv (fun i => rotSign seed p.cid p.epoch (p.corg + i)) (transpose (coeDims p).2 a.1)).1,
        (rotRows p.hc p.cinv (fun i => rotSign seed p.cid p.epoch (p.corg + i)) (transpose (coeDims p).2 a.1)).2)) = b at turned ⊢
  have scaledDown : Shaped (coeDims p).1 (coeDims p).2 (b.1.map fun row => row.map fun z => (scaleDown ((p.hr + p.hc) / 2) z.1, z.2)) := by
    refine ⟨by rw [List.length_map]; exact turned.1, fun row hrow => ?_⟩
    obtain ⟨y, hy, rfl⟩ := List.mem_map.mp hrow
    rw [List.length_map]
    exact turned.2 y hy
  simp only [coeOut]
  split
  · exact transpose_shaped scaledDown.1
  · exact scaledDown

theorem coeRead_shaped (m : Mem) (mt : Mat) (p : CoeParm) : Shaped (coeDims p).1 (coeDims p).2 (coeRead m mt p) := by
  refine ⟨by simp [coeRead], fun row hrow => ?_⟩
  obtain ⟨r, -, rfl⟩ := List.mem_map.mp hrow
  simp

end Sys2Proof.Laws
end

section
/-! PROOFS. COE_STAGE: its output in the destination cores (O45). -/

namespace Sys2Proof.Laws

open Sys2Proof Sys2Proof.Machine
set_option Elab.async false

variable {s t u : State} {m : Mem} {n k : Nat} {o : NextOp} {p : CoeParm} {host : List HostLine}

/-! ## Where the elements of an output lie (R198, R201) -/

theorem coeElems_in {fd : FmtWord} {y : List (List PVal)} {h w : Nat} (shape : Shaped h w y) {e : OcsElem} (he : e ∈ coeElems p fd y) :
    e.m < h ∧ e.n < w := by
  simp only [coeElems, List.mem_flatMap, List.mem_map] at he
  obtain ⟨⟨row, i⟩, hrow, ⟨z, j⟩, hz, rfl⟩ := he
  obtain ⟨-, hi, -⟩ := List.mem_zipIdx hrow
  obtain ⟨-, hj, -⟩ := List.mem_zipIdx hz
  have long := shape.2 row (List.fst_mem_of_mem_zipIdx hrow)
  have := shape.1
  dsimp only at hj ⊢
  omega

/-- Each converted element stands where one that was given stood, and each block is that of one. -/
def FromElems (key : OcsElem → Nat × Nat) (es : List OcsElem) (out : OutSet) : Prop :=
  (∀ e ∈ out.elems, ∃ x ∈ es, e.m = x.m ∧ e.n = x.n) ∧ ∀ b ∈ out.blks, ∃ x ∈ es, b.cell = key x

/-- The elements of one block, poisoned where their scale is. -/
theorem block_elem {key : OcsElem → Nat × Nat} {cell : Nat × Nat} {g : Option (Nat × Nat × Bool)} {es : List OcsElem} {x : OcsElem}
    (h : x ∈ (es.filter fun e => key e == cell).map fun e =>
      match g with
      | some (_, _, true) => { e with poison := true, scaleBad := !e.poison }
      | _ => e) : ∃ y ∈ es, x.m = y.m ∧ x.n = y.n := by
  obtain ⟨y, hy, rfl⟩ := List.mem_map.mp h
  refine ⟨y, List.mem_of_mem_filter hy, ?_⟩
  split <;> exact ⟨rfl, rfl⟩

theorem convertSet_from (b : BlkSpec) (key : OcsElem → Nat × Nat) (given : Nat × Nat → Option (Nat × Nat × Bool)) (dr : OcsElem → Nat)
    (es : List OcsElem) : FromElems key es (convertSet b key given dr es) := by
  have empty : FromElems key es { elems := [], blks := [], phot := photZero } :=
    ⟨fun _ h => absurd h List.not_mem_nil, fun _ h => absurd h List.not_mem_nil⟩
  rw [convertSet]
  split
  · refine List.foldlRecOn (motive := FromElems key es) _ _ empty fun out done cell hcell => ⟨fun e he => ?_, fun b hb => ?_⟩
    · rcases List.mem_append.mp he with old | new
      · exact done.1 e old
      · obtain ⟨z, hz, rfl⟩ := List.mem_map.mp new
        exact block_elem (List.of_mem_zip hz).1
    · rcases List.mem_append.mp hb with old | new
      · exact done.2 b old
      · rw [List.mem_singleton.mp new]
        obtain ⟨x, hx, rfl⟩ := List.mem_map.mp (mem_of_distinct hcell)
        exact ⟨x, hx, rfl⟩
  · refine List.foldlRecOn (motive := FromElems key es) _ _ empty fun out done x hx => ⟨fun e he => ?_, done.2⟩
    rcases List.mem_append.mp he with old | new
    · exact done.1 e old
    · rw [List.mem_singleton.mp new]
      exact ⟨x, hx, rfl, rfl⟩

/-! ## The output in a destination core -/

/-- What the checks of an op assure of its output: it, its sums and its outliers lie within a core's store. -/
structure OutputFits (p : CoeParm) (rd : OperandRec) (ax : OcsRec) : Prop where
  matrix : operandFits rd 0 (paddedDims (fmtWord rd.fw) (coeOut p).1 (coeOut p).2).1 (paddedDims (fmtWord rd.fw) (coeOut p).1 (coeOut p).2).2
    true true = true
  outliers : ax.olOut = true → inStore ax.oloBase (gridDims (fmtWord rd.fw) (coeOut p).1 (coeOut p).2).1
    (8 * (gridDims (fmtWord rd.fw) (coeOut p).1 (coeOut p).2).2) ax.oloPitch = true
  sums : ax.sumsOut = true → inStore ax.soBase (gridDims (fmtWord rd.fw) (coeOut p).1 (coeOut p).2).1
    (4 * (gridDims (fmtWord rd.fw) (coeOut p).1 (coeOut p).2).2) ax.soPitch = true

theorem matOf_bases (core : Nat) (rd : OperandRec) : (matOf core rd false).base = coreBase core + rd.elemBase ∧
    (matOf core rd false).sBase = coreBase core + rd.scaleBase ∧ (matOf core rd false).zBase = coreBase core + rd.zpBase ∧
    (matOf core rd false).pitch = rd.elemPitch ∧ (matOf core rd false).fw = fmtWord rd.fw := by
  have own : coreBase core + (if false then rd.imOff else 0) = coreBase core := by rw [if_neg Bool.false_ne_true, Nat.add_zero]
  rw [matOf]
  dsimp only
  rw [own]
  exact ⟨rfl, rfl, rfl, rfl, rfl⟩

theorem row_within {a b c len : Nat} (h : a + b + c ≤ len) (low : Nat) : low ≤ low + a + b ∧ low + a + b + c ≤ low + len := by omega

section Output

variable {rd : OperandRec} {ax : OcsRec} (fits : OutputFits p rd ax)
include fits

theorem output_rows (core : Nat) : RowsIn (coreBase core) coreStoreLen (matOf core rd false)
    (paddedDims (fmtWord rd.fw) (coeOut p).1 (coeOut p).2).1 (paddedDims (fmtWord rd.fw) (coeOut p).1 (coeOut p).2).2 := by
  have elems := (Bool.and_eq_true_iff.mp (Bool.and_eq_true_iff.mp fits.matrix).1).1
  rw [Bool.not_true, Bool.false_or, Nat.add_zero] at elems
  obtain ⟨base, -, -, pitch, fw⟩ := matOf_bases core rd
  intro r hr
  rw [base, pitch, fw]
  exact row_within (inStore_row elems hr) (coreBase core)

theorem output_scales (core : Nat) (sc : scaled (fmtWord rd.fw).fmt = true) : CellsIn (coreBase core) coreStoreLen (matOf core rd false).sBase
    (matOf core rd false).sPitch 1 (gridDims (fmtWord rd.fw) (paddedDims (fmtWord rd.fw) (coeOut p).1 (coeOut p).2).1
      (paddedDims (fmtWord rd.fw) (coeOut p).1 (coeOut p).2).2) := by
  have scales := (Bool.and_eq_true_iff.mp (Bool.and_eq_true_iff.mp fits.matrix).1).2
  rw [sc, Bool.and_true, Bool.not_true, Bool.false_or] at scales
  rw [Nat.add_zero, ← Nat.one_mul (gridDims _ _ _).2] at scales
  rw [(matOf_bases core rd).2.1]
  exact cellsIn_store scales

theorem output_zeros (core : Nat) (uq : isUQ (fmtWord rd.fw).fmt = true) : CellsIn (coreBase core) coreStoreLen (matOf core rd false).zBase
    (matOf core rd false).zPitch 1 (gridDims (fmtWord rd.fw) (paddedDims (fmtWord rd.fw) (coeOut p).1 (coeOut p).2).1
      (paddedDims (fmtWord rd.fw) (coeOut p).1 (coeOut p).2).2) := by
  have zeros := (Bool.and_eq_true_iff.mp fits.matrix).2
  rw [uq, Bool.and_true, Bool.not_true, Bool.false_or] at zeros
  rw [Nat.add_zero, ← Nat.one_mul (gridDims _ _ _).2] at zeros
  rw [(matOf_bases core rd).2.2.1]
  exact cellsIn_store zeros

theorem writesIn_coeWrite {es : List OcsElem} {out : OutSet} (hm : Memory.wf m = true)
    (place : FromElems (fun e => gridCell (fmtWord rd.fw) e.m e.n) es out) (inside : ∀ e ∈ es, e.m < (coeOut p).1 ∧ e.n < (coeOut p).2)
    (core : Nat) : WritesIn (coreBase core) coreStoreLen m (coeWrite p rd ax out m core) := by
  obtain ⟨padR, padC⟩ := paddedDims_ge (fmtWord rd.fw) (coeOut p).1 (coeOut p).2
  have cells : ∀ {R C : Nat}, (coeOut p).1 ≤ R → (coeOut p).2 ≤ C → ∀ b ∈ out.blks,
      b.cell.1 < (gridDims (fmtWord rd.fw) R C).1 ∧ b.cell.2 < (gridDims (fmtWord rd.fw) R C).2 := fun hR hC b hb => by
    obtain ⟨x, hx, cell⟩ := place.2 b hb
    obtain ⟨hr, hc⟩ := inside x hx
    rw [cell]
    exact gridCell_lt (Nat.lt_of_lt_of_le hr hR) (Nat.lt_of_lt_of_le hc hC)
  have elems := writesIn_writeElems hm (output_rows fits core) (es := out.elems) fun e he => by
    obtain ⟨x, hx, em, en⟩ := place.1 e he
    obtain ⟨hr, hc⟩ := inside x hx
    rw [em, en]
    exact ⟨Nat.lt_of_lt_of_le hr padR, Nat.lt_of_lt_of_le hc padC⟩
  have padding := writesIn_writePadding elems.wf padR padC (output_rows fits core) (List.range (coeOut p).1) (List.range (coeOut p).2)
  have scales := writesIn_writeScales (mt := matOf core rd false) padding.wf (cells padR padC) (output_scales fits core) (output_zeros fits core)
  refine (elems.trans padding).trans (scales.trans (writesIn_writeSides scales.wf (cells (Nat.le_refl _) (Nat.le_refl _)) ?_ ?_))
  · intro x hx
    split at hx
    next on =>
      obtain rfl := Option.some.inj hx
      exact cellsIn_store (fits.sums on)
    · cases hx
  · intro x hx
    split at hx
    next on =>
      obtain rfl := Option.some.inj hx
      exact cellsIn_store (fits.outliers on)
    · cases hx

end Output

/-! ## COE_STAGE (R199 to R203) -/

/-- The record of an op's destination. -/
def coeDest (s : State) (n : Nat) (d : Bytes) : OperandRec := operandRec (coreRead s n (coeParm d).dst 32).data

theorem outputFits_of_check {tok : Token} {d : Bytes} (h : coeCheck s n tok d = none) :
    OutputFits (coeParm d) (coeDest s n d) (coeAux s n (coeParm d)) := by
  dsimp only [coeCheck] at h
  split at h
  · cases h
  · have all := firstFail_eq_none.1 h
    simp only [List.forall_mem_cons, failIf_eq_none, Bool.not_eq_false', Bool.and_eq_false_iff] at all
    obtain ⟨-, -, -, -, -, matrix, outliers, sums, -⟩ := all
    exact ⟨matrix, fun on => outliers.resolve_left (fun off => Bool.noConfusion (on.symm.trans off)), fun on => sums.resolve_left (fun off => Bool.noConfusion (on.symm.trans off))⟩

/-- What an op's reads leave: every byte, and every core. -/
theorem coeView_leaves (init : Nat) (r : Reach) (host : List HostLine) (spans : List (Nat × Nat × Nat × Nat)) (s : State) :
    let v := spans.foldl (fun a x => (List.range x.2.2.1).foldl (fun b i => viewSpan init r host b (x.1 + i * x.2.2.2) x.2.1) a) (viewOf s)
    SameBytes s v.s ∧ v.s.cores = s.cores :=
  List.foldlRecOn (motive := fun v : View => SameBytes s v.s ∧ v.s.cores = s.cores) spans _ ⟨.refl s, rfl⟩ fun v done x _ =>
    List.foldlRecOn (motive := fun v : View => SameBytes s v.s ∧ v.s.cores = s.cores) _ _ done fun w seen i _ =>
      ⟨seen.1.trans (sameBytes_viewSpan ..), (cores_eq (by simp)).trans seen.2⟩

/-- An op's output in every destination core. -/
theorem stores_coeWrites {rd : OperandRec} {ax : OcsRec} {es : List OcsElem} {out : OutSet} (fits : OutputFits p rd ax)
    (hs : Memory.wf s.mem = true) (place : FromElems (fun e => gridCell (fmtWord rd.fw) e.m e.n) es out)
    (inside : ∀ e ∈ es, e.m < (coeOut p).1 ∧ e.n < (coeOut p).2) (ks : List Nat) :
    Stores (ks.map fun k => (coreBase k, coreStoreLen)) s (setMem s (ks.foldl (coeWrite p rd ax out) s.mem)) := by
  refine List.foldlRecOn (motive := fun m => Stores (ks.map fun k => (coreBase k, coreStoreLen)) s (setMem s m)) ks _ (.refl hs _)
    fun m done k hk => ?_
  have wrote := writesIn_coeWrite fits done.wf place inside k
  refine ⟨wrote.wf, fun a out => ?_⟩
  exact (wrote.same a (out _ (List.mem_map.mpr ⟨k, hk, rfl⟩))).trans (done.same a out)

/-- The state in which an op stands in the unit, its list one op further. -/
def coeEnd (u : State) (n : Nat) (run : OpRun) : State := setCore (passOps u n 1) n { getCore (passOps u n 1) n with coe := some run }

section Stage

variable (rise : keysRise s.cores = true) (h : startable s n 0x11 (fun c => c.coe.isNone) = some o)
include rise h

theorem coeEnd_gives (cores : u.cores = s.cores) {run : OpRun} (tok : run.tok = o.tok) :
    activeList (getCore (coeEnd u n run) n) = some (o.tok, o.idx + 1) ∧
      (getCore (coeEnd u n run) n).coe.map (fun r => (r.desc, r.finished)) = some (run.desc, run.finished) := by
  have rise' : keysRise u.cores = true := by rw [cores]; exact rise
  have core : getCore (passOps u n 1) n = passed (getCore s n) := by
    rw [getCore_passOps rise', getCore, cores]
    rfl
  have own : getCore (coeEnd u n run) n = { passed (getCore s n) with coe := some run } := by
    rw [← core]
    exact getCore_setCore_self (passOps_cores_rise rise' 1)
  rw [own]
  refine ⟨activeList_started (startable_active h) (passed_lists (getCore s n)) fun x hx => ?_, rfl⟩
  have stream : some run.tok.stream = some o.tok.stream := by rw [tok]
  rw [← passed_streams]
  simp only [unitStreams, List.mem_cons, Option.map_some, stream] at hx ⊢
  tauto

theorem coeRun_gives (hs : Memory.wf s.mem = true) (check : coeCheck s n o.tok o.desc = none) (host : List HostLine) :
    activeList (getCore (coeRun s n o host) n) = some (o.tok, o.idx + 1) ∧
      (getCore (coeRun s n o host) n).coe.map (fun r => (r.desc, r.finished)) = some (o.desc, true) ∧
      SameMem s (coeRun s n o host) ((coeCores n (coeParm o.desc)).map fun k => (coreBase k, coreStoreLen)) := by
  have fits := outputFits_of_check check
  obtain ⟨bytes, cores⟩ := coeView_leaves initDma (.near (n / 64)) host
    (coeSpans (coeParm o.desc) (coeSrc (coreRead s n (coeParm o.desc).src 32).data)) s
  dsimp only [coeRun]
  generalize List.foldl _ (viewOf s) (coeSpans (coeParm o.desc) (coeSrc (coreRead s n (coeParm o.desc).src 32).data)) = v at bytes cores ⊢
  have place := fun spec given dr es => convertSet_from spec (fun e => gridCell (fmtWord (coeDest s n o.desc).fw) e.m e.n) given dr es
  have shape := coeTurn_shaped (coeParm o.desc) o.tok.rotSeed
    (coeRead_shaped v.m (coeSrc (coreRead s n (coeParm o.desc).src 32).data) (coeParm o.desc))
  have mem := fun spec given dr => stores_coeWrites fits (bytes.wf hs)
    (place spec given dr (coeElems (coeParm o.desc) (fmtWord (coeDest s n o.desc).fw) _)) (fun e he => coeElems_in shape he)
    (coeCores n (coeParm o.desc))
  refine ⟨(coeEnd_gives rise h cores rfl).1, (coeEnd_gives rise h cores rfl).2, sameMem_trans (bytes.sameMem _) (mem ..).same⟩

end Stage

end Sys2Proof.Laws
end

section
/-! PROOFS. Coelostat, Vector Engine and cluster DMA ops (O45). -/

namespace Sys2Proof.Laws

open Sys2Proof Sys2Proof.Machine
set_option Elab.async false

variable {s t : State} {n : Nat} {o : NextOp} {core : CoreId} {host : List HostLine} {st : Status}

/-! ## The commands of a core's units, for an op that may start -/

section Commands

variable (hn : core.toNat = n)
include hn

theorem coeStage_starts (h : startable s n 0x11 (fun c => c.coe.isNone) = some o) (check : coeCheck s n o.tok o.desc = none) :
    exec (.coeStage core host) s = .next (coeRun s n o host) := by
  show execCoeStage core host s = _
  rw [execCoeStage, hn, h]
  dsimp only
  rw [check]

theorem coeStage_rejected (h : startable s n 0x11 (fun c => c.coe.isNone) = some o) (fails : coeCheck s n o.tok o.desc = some st) :
    exec (.coeStage core host) s = .next (rejectOp s n o st) := by
  show execCoeStage core host s = _
  rw [execCoeStage, hn, h]
  dsimp only
  rw [fails]

theorem veRun_starts (h : startable s n 0x18 (fun c => c.ve.isNone) = some o) (check : veCheck s n o.tok o.desc = none) :
    exec (.veRun core) s = .next (veGo (veStart s n o) n) := by
  show execVeRun core s = _
  rw [execVeRun, hn, h]
  dsimp only
  rw [check]

theorem veRun_rejected (h : startable s n 0x18 (fun c => c.ve.isNone) = some o) (fails : veCheck s n o.tok o.desc = some st) :
    exec (.veRun core) s = .next (rejectOp s n o st) := by
  show execVeRun core s = _
  rw [execVeRun, hn, h]
  dsimp only
  rw [fails]

theorem veSolve_starts (h : startable s n 0x19 (fun c => c.ve.isNone) = some o) (check : solveCheck s n o.tok o.desc = none) :
    exec (.veSolve core) s = .next (solveEnd n (solveParm o.desc) (solveBatch s n o (solveParm o.desc))) := by
  show execVeSolve core s = _
  rw [execVeSolve, hn, h]
  dsimp only
  rw [check]
  rfl

theorem veSolve_rejected (h : startable s n 0x19 (fun c => c.ve.isNone) = some o) (fails : solveCheck s n o.tok o.desc = some st) :
    exec (.veSolve core) s = .next (rejectOp s n o st) := by
  show execVeSolve core s = _
  rw [execVeSolve, hn, h]
  dsimp only
  rw [fails]

end Commands

/-! ## A copy within the module -/

section Copy

variable (hs : Sound s)
include hs

theorem dmaDone_gives (h : startable s n 0x08 (fun c => c.dma.isNone) = some o) (host : List HostLine) :
    SameMem s (dmaDone s n o host) (dmaSpans (dmaParm o.desc)) ∧ activeList (getCore (dmaDone s n o host) n) = some (o.tok, o.idx + 1) ∧
      (getCore (dmaDone s n o host) n).dma.map (fun r => (r.finished, r.status)) =
        some (true, (dmaMoved s n (dmaParm o.desc) host).2.getD .ok) := by
  have copied := dmaRows_copying (s := dmaWarn (dmaParm o.desc) host s n (dmaRows (dmaParm o.desc) host s).2) (dmaParm o.desc) host
    (by rw [dmaWarn_mem]; exact hs.mem)
  obtain ⟨past, held⟩ := dmaRun_gives h (copied.cores.trans (dmaWarn_cores ..)) hs.cores ((dmaMoved s n (dmaParm o.desc) host).2.getD .ok)
  refine ⟨fun a out => ?_, past, held⟩
  rw [dmaDone, dmaRun_mem]
  refine (copied.mem.same a out).trans ?_
  rw [dmaWarn_mem]

variable {p : DmaParm} (one : p.rows = 1) (src : canAccess s .dma (gLocal p.src) p.row = true)
  (dst : canAccess s .dma (gLocal p.dst) p.row = true)
include one src dst

/-- One row comes whole, though a record of the copy has come before it. -/
theorem dmaMoved_bytes (n : Nat) (host : List HostLine) :
    memRead (dmaMoved s n p host).1.mem (gLocal p.dst) p.row = memRead s.mem (gLocal p.src) p.row := by
  have base := ground_dmaWarn p host s n (dmaRows p host s).2
  rw [dmaMoved, dmaRows_bytes (s := dmaWarn p host s n (dmaRows p host s).2) (by rw [dmaWarn_mem]; exact hs.mem) one
    ((canAccess_of_ground base ..).trans src) ((canAccess_of_ground base ..).trans dst), dmaWarn_mem]

variable (he : s.mr.dramErr = [])
include he

theorem dmaMoved_status (n : Nat) : (dmaMoved s n p []).2 = if spanPoison s.mem (gLocal p.src) p.row then some .poisoned else none := by
  have base := ground_dmaWarn p [] s n (dmaRows p [] s).2
  rw [dmaMoved, dmaRows_status (s := dmaWarn p [] s n (dmaRows p [] s).2) (by rw [dmaWarn_mem]; exact hs.mem) one
    ((canAccess_of_ground base ..).trans src) ((canAccess_of_ground base ..).trans dst) (by rw [dmaWarn_mr]; exact he), dmaWarn_mem]

theorem dmaMoved_out (n : Nat) (clean : spanPoison s.mem (gLocal p.src) p.row = false) : (dmaMoved s n p []).1.out = s.out := by
  have quiet : dmaWarn p [] s n (dmaRows p [] s).2 = s := by
    rw [dmaRows_status hs.mem one src dst he, clean]
    rfl
  rw [dmaMoved, quiet]
  exact dmaRows_out one src dst he

end Copy

/-- Settles O45: an op that starts stands in its unit with its list one op further, and what it stores lies in the spans it names. -/
theorem unitOpsRun : Obligations.UnitOpsRun := by
  refine ⟨fun core s o host hs => ⟨fun h => ⟨fun check => ?_, fun st fails => ?_⟩, fun h => ⟨fun check => ?_, fun st fails => ?_⟩,
    fun h => ⟨fun check => ?_, fun st fails => ?_⟩⟩, fun core s o host hs h => ⟨fun check here => ?_, fun check one here src dst => ?_,
    fun check here noRoute => ?_, fun st fails => ?_⟩⟩
  · exact ⟨_, coeStage_starts rfl h check, coeRun_gives hs.cores h hs.mem check host⟩
  · exact ⟨_, coeStage_rejected rfl h fails, rejectOp_coe hs.cores st h⟩
  · exact ⟨_, veRun_starts rfl h check, veRun_runs hs.cores h⟩
  · exact ⟨_, veRun_rejected rfl h fails, rejectOp_ve hs.cores st h⟩
  · exact ⟨_, veSolve_starts rfl h check, solveEnd_gives hs h (solveParm o.desc)⟩
  · exact ⟨_, veSolve_rejected rfl h fails, rejectOp_ve hs.cores st h⟩
  · obtain ⟨mem, past, held⟩ := dmaDone_gives hs h host
    obtain ⟨r, own, run⟩ := Option.map_eq_some_iff.mp held
    refine ⟨_, dmaCopy_here h check rfl here, mem, past, ?_⟩
    rw [own, Option.map_some, (Prod.mk.inj run).1]
  · refine ⟨_, dmaCopy_here h check rfl here, ?_, fun he none => ⟨fun clean => ?_, ?_⟩⟩
    · rw [dmaDone, dmaRun_mem]
      exact dmaMoved_bytes hs one src dst core.toNat host
    · rw [dmaDone, dmaRun_out, none]
      exact dmaMoved_out hs one src dst he core.toNat clean
    · obtain ⟨-, -, held⟩ := dmaDone_gives hs h host
      obtain ⟨r, own, run⟩ := Option.map_eq_some_iff.mp held
      rw [own, Option.map_some, (Prod.mk.inj run).2, none, dmaMoved_status hs one src dst he core.toNat]
      split <;> rfl
  · exact ⟨_, dmaCopy_noRoute h check rfl here noRoute, rejectOp_dma hs.cores _ h⟩
  · exact ⟨_, dmaCopy_rejected h rfl fails, rejectOp_dma hs.cores st h⟩

end Sys2Proof.Laws
end
